-- ==== Sys2Proof/Word.lean ====
section
/-! DEFINITION. The word types of the GVX-5120: bytes, 32-bit register words, 64-bit register pairs and TPOS values. -/

namespace Sys2Proof

/-- One byte of memory. -/
abbrev Byte := BitVec 8

/-- One 32-bit register word, stack entry or bundle parcel pair. -/
abbrev Word := BitVec 32

/-- A 64-bit register pair, stamp or TPOS value (spec/00_scope.md R5). -/
abbrev DWord := BitVec 64

/-- A 128-bit capability as it lies in a granule (spec/14). -/
abbrev QWord := BitVec 128

end Sys2Proof
end

