-- ==== Sys2Proof/Types.lean ====
section
/-! DEFINITION. The operand types of the commands. -/

namespace Sys2Proof

/-- Who makes a bus access (spec/02 R35): Basecamp, a copy of a tile, rope ingress, debug access. -/
inductive Writer where
  | basecamp
  | tile (t copy : Nat)
  | rope
  | debug
  deriving DecidableEq, Repr

/-- An OSP record as received, its TYPE given by the command (spec/04 R103): FLAGS, SEQ, ARG, the body and the stored CRC; and the frame it stands in (R97, R104): EtherType, an 802.1Q tag, the frame's length, and the payload bytes before the record, the 4-byte frame header first. -/
structure OspRec where
  flags : Nat
  seq : Nat
  arg : Nat
  body : List Byte
  crc : Nat
  ethertype : Nat := 0x88B5
  tagged : Bool := false
  length : Nat := 1518
  before : List Byte := [0x10, 0, 0, 0]
  deriving DecidableEq, Repr

/-- A received Ethernet frame at its end (spec/04 R97, R101, R104, R107): EtherType, an 802.1Q tag, the payload, whether the frame check sequence matches. -/
structure FrameEnd where
  ethertype : Nat
  tagged : Bool
  payload : List Byte
  fcsOk : Bool
  deriving DecidableEq, Repr

/-- What a tile's checker meets (spec/10 R291, R314, R316): a compared item of a class that differs, its minority copy (3 for none) and, where the two comparators disagreed, whether both self-tests passed; or a delay-line word that one instance corrects, or that neither holds. -/
inductive Upset where
  | item (cls minority : Nat) (dis : Option Bool)
  | delay (good : Bool)
  deriving DecidableEq, Repr

/-- What a rope frame shows on arrival (spec/19 R502): the port, its frame check and the checked header fields; the payload is the command's own. -/
structure RFrame where
  port : Nat
  fcsOk : Bool := true
  tagged : Bool := false
  ethertype : Nat := 0x88B6
  ver : Nat := 0x10
  hops : Nat := 15
  dpath : List Nat := []
  spath : List Nat := []
  arg : Nat := 0
  seq : Nat := 0
  nwords : Nat := 0
  zero : Bool := true
  deriving DecidableEq, Repr

/-- What a broadcast instant meets: the line frequencies that the tacholess loops measure now, by track, in 2^-16 Hz (spec/03 R80), and the tracks whose record holds a word that is uncorrectable on its way (spec/06 R194). -/
structure Meets where
  loops : List (Nat × Nat) := []
  bad : List Nat := []
  deriving DecidableEq, Repr

/-- The line that a tacholess loop runs on (spec/03 R79): its frequency in 2^-16 Hz and the loop's phase errors over its line cycles in 2^-16 of a cycle, the latest last. -/
structure LoopLine where
  hz16 : Nat
  errs : List Int
  deriving DecidableEq, Repr

/-- A followed line at cycle `t` (spec/03 R81): since `since` it has stood at `level` dB or below, the detectors' median being `med`. -/
structure WeakLine where
  t : Nat
  since : Nat
  level : Int
  med : Int
  deriving DecidableEq, Repr

/-- The cells that leave a source at cycle `t`: those, by destination slot and number in its order, whose header word is uncorrectable in the router (spec/05 R157). -/
structure CellSent where
  t : Nat
  bad : List (Nat × Nat) := []
  deriving DecidableEq, Repr

/-- What a resampler's sample meets: whether its two computations differ (spec/06 R198), and whether a coefficient of it is uncorrectable (R194). -/
structure SampleCheck where
  diff : Bool := false
  bad : Bool := false
  deriving DecidableEq, Repr

/-- A word in a crossing's buffer (spec/18 R493): each byte as read with the difference of its check bits (spec/15 R431), the three poison copies of each 64-bit word (R433), and how many differing pairs of samples came before the pair that agreed (R489). -/
structure XWord where
  bytes : List (Nat × Nat) := []
  copies : List Nat := []
  diffs : Nat := 0
  deriving DecidableEq, Repr

/-- The fields are within their widths. -/
def XWord.ok (w : XWord) : Bool :=
  w.bytes.all (fun b => decide (b.1 < 256) && decide (b.2 < 32)) && w.copies.all fun c => decide (c < 8)

/-- One cell of a CELL frame (spec/19 R519): GAP or data, MARKS, NVALID, its payload words' value and poison. -/
structure RopeCell where
  gap : Bool := false
  marks : Nat := 0
  nvalid : Nat := 0
  payload : Nat := 0
  pois : Nat := 0
  deriving DecidableEq, Repr

/-- One entry of a LABEL frame's table (spec/19 R509): label, key serial, state (0 FREE, 1 UP, 2 LOST), whether a team, modules. -/
structure LabelRow where
  label : Nat
  key : Nat
  st : Nat
  team : Bool
  mods : Nat
  deriving DecidableEq, Repr

/-- A BAP datagram as it arrives (spec/20 R544): on the service port or the management port, its IPv4 source, version, key slot, tag, SEQ, path labels, address, count, size, data words and MAC. -/
structure Bap where
  service : Bool := false
  ip : Nat := 0
  ver : Nat := 0x10
  key : Nat := 0
  tag : Nat := 0
  seq : Nat := 0
  path : List Nat := []
  addr : Nat := 0
  count : Nat := 0
  size : Nat := 0
  data : List Nat := []
  mac : Nat := 0
  deriving DecidableEq, Repr

/-- A LINKS report (spec/19 R503, R508): a module's serial, DEPTH, ROPE_PREF and UP ports as (port, peer serial, scope). -/
structure LinkRep where
  serial : Nat
  depth : Nat
  pref : Nat
  ports : List (Nat × Nat × Nat)
  deriving DecidableEq, Repr

/-- The counts of a STATUS frame (spec/19 R524): modules, modules with a page in FAULT, outputs TRIPPED, slots at DANGER and at ALERT, modules whose time is not LOCKED. -/
structure TeamStat where
  mods : Nat := 1
  faults : Nat := 0
  tripped : Nat := 0
  danger : Nat := 0
  alert : Nat := 0
  unlocked : Nat := 0
  deriving DecidableEq, Repr

/-- An access request on rope (spec/19 R522): the requester's path, the slot tag, whether a tile originated it, the operation (1 READ32 to 4 WRITE64), address, data and its poison. -/
structure AccReq where
  spath : List Nat
  tag : Nat
  tile : Bool
  op : Nat
  addr : Nat
  data : Nat := 0
  pois : Bool := false
  deriving DecidableEq, Repr

/-- The stack moves of the ALU unit (spec/12). -/
inductive StkOp where
  | drop | dup | swap | over | rot | dup2 | drop2 | swap2 | nip
  deriving DecidableEq, Repr

/-- Operations of two words to one. -/
inductive BinOp where
  | add | sub | addv | subv | and | or | xor | andn | shl | shr | sar | rol | min | max | minu | maxu | qadd | qsub
  | mul | mulv | mulhs | mulhu | qmul | div | divu | rem | remu | fadd | fsub | fmul | fmin | fmax | fdiv
  deriving DecidableEq, Repr

/-- Operations of one word to one. -/
inductive UnOp where
  | not | neg | abs | qneg | qabs | clz | ctz | popc | sxb | sxh | zxb | zxh | bswap
  | fneg | fabs | fsqrt | cvtif | cvtuf | cvtfi | cvtqf | cvtfq
  deriving DecidableEq, Repr

/-- Operations of three words to one. -/
inductive TernOp where
  | fma | qmac
  deriving DecidableEq, Repr

/-- Loads by width and extension. -/
inductive LdOp where
  | ldb | ldbu | ldh | ldhu | ldw | ldd
  deriving DecidableEq, Repr

/-- Stores by width. -/
inductive StOp where
  | stb | sth | stw | std
  deriving DecidableEq, Repr

/-- A Kolotte operation with its payload fields (spec/12). -/
inductive KOp where
  | nop
  | stk (o : StkOp)
  | pick (k : Nat)
  | dropn (m : Nat)
  | loc (k : Nat)
  | setl (k : Nat)
  | lit (ln : Nat)
  | bin (o : BinOp)
  | un (o : UnOp)
  | tern (o : TernOp)
  | wide (signed : Bool)
  | ang (sub : Bool)
  | angcmp (n : Nat)
  | cmp (c n : Nat)
  | cmpz (c n : Nat)
  | fcmp (c n : Nat)
  | plog (f m n : Nat)
  | pset (n : Nat)
  | pclr (n : Nat)
  | pnot (n : Nat)
  | pushp (n : Nat)
  | popp (n : Nat)
  | sel (n : Nat)
  | rdst | wrst | rdlc | wrlc | rdrc | wrrc | rdp | wrp | rddep | rdrsp | rdtile
  | ld (o : LdOp) (n : Nat)
  | st (o : StOp) (n : Nat)
  | ldt (m n : Nat)
  | stt (m n : Nat)
  | cmov (d s : Nat)
  | crange (d s : Nat)
  | cperm (d s : Nat)
  | ctie (d s : Nat)
  | cuntie (d s : Nat)
  | cread (f n : Nat)
  | cvoid (n : Nat)
  | waitw | syncf | cairn
  | mbxr (n : Nat)
  | send (n s : Nat)
  | tfesub (n : Nat)
  | br (ln : Nat)
  | bri
  | loop (ln tail : Nat)
  | brc (n : Nat)
  | call (n ln : Nat)
  | calli (n : Nat)
  | ret (k : Nat)
  | trap (n : Nat)
  | retx
  deriving DecidableEq, Repr

/-- A repeat prefix (spec/11 R341). -/
structure RepSpec where
  repn : Bool
  fromRc : Bool
  count : Nat
  deriving DecidableEq, Repr

/-- A bundle as a copy issues it (spec/11 R337): its prefixes and ops; `parcels` is its length. -/
structure Bundle where
  guard : Option (Bool × Nat) := none
  rep : Option RepSpec := none
  lits : List Nat := []
  ops : List KOp := []
  deriving DecidableEq, Repr

/-- The issue of a bundle whose last op is the command's: the tile and copy, the bundle's prefixes, the ops before it, and after how many iterations of a REPI a pending interrupt is taken. -/
structure Issue where
  tile : Nat
  copy : Nat := 0
  guard : Option (Bool × Nat) := none
  rep : Option RepSpec := none
  lits : List Nat := []
  before : List KOp := []
  cut : Option Nat := none
  deriving DecidableEq, Repr

end Sys2Proof
end

