-- ==== Sys2Proof/Syntax.lean ====
section
/-! DEFINITION. The commands: one constructor for each row of the opcode table, in its order, with the row's operands. Commands of time carry the module cycle `t` at which they happen; register writes carry who makes them. -/

namespace Sys2Proof

/-- A command to the module (spec/opcode_table.json). -/
inductive Instr where
  /-- PAGE_RESET (R42). -/
  | pageReset (w : Writer) (p t : Nat)
  /-- RESET_COMPLETE (R42). -/
  | resetComplete (p t : Nat)
  /-- PAGE_ENABLE (R41). -/
  | pageEnable (w : Writer) (p t : Nat)
  /-- PAGE_DISABLE (R41). -/
  | pageDisable (w : Writer) (p t : Nat)
  /-- PAGE_LOCK (R38). -/
  | pageLock (w : Writer) (p : Nat) (en : Bool) (t : Nat)
  /-- START_UP_COMPLETE (R584). -/
  | startUpComplete (p t : Nat)
  /-- FAULT_DETECTED (R41). -/
  | faultDetected (p code t : Nat)
  /-- BLOCK_RECOVERY_COMPLETE (R41). -/
  | blockRecoveryComplete (p t : Nat)
  /-- RETIREMENT (R41). -/
  | retirement (p code t : Nat)
  /-- BLOCK_POWER_CHANGE (R41). -/
  | blockPowerChange (p pw t : Nat)
  /-- REGISTER_WRITE (R46). -/
  | registerWrite (w : Writer) (p off size val : Nat) (pois : Bool) (t : Nat)
  /-- READ_AND_CLEAR (R9). -/
  | readAndClear (w : Writer) (p off size t : Nat)
  /-- LINK_CHECK_FAIL (R56). -/
  | linkCheckFail (c link t : Nat)
  /-- LINK_CHECK_PASS (R56). -/
  | linkCheckPass (c link t : Nat)
  /-- QUALIFIED_EDGE (R59). -/
  | qualifiedEdge (n stamp : Nat) (rising : Bool)
  /-- COUNT_TRANSFER (R60). -/
  | countTransfer (n t : Nat)
  /-- BROADCAST (R70). -/
  | broadcast (t : Nat) (meets : Meets)
  /-- BROADCAST_APPLY (R70). -/
  | broadcastApply (t : Nat)
  /-- GAP_EXCEEDED (R75). -/
  | gapExceeded (k t : Nat)
  /-- COAST_LIMIT (R75). -/
  | coastLimit (k t : Nat)
  /-- STOP_TIME (R75). -/
  | stopTime (k t : Nat)
  /-- TACHO_SCAN (R79). -/
  | tachoScan (k t : Nat) (levels : List Int)
  /-- TACHO_LOCK (R79). -/
  | tachoLock (k t : Nat) (line : LoopLine)
  /-- LINE_LOSS (R81). -/
  | lineLoss (k : Nat) (weak : WeakLine)
  /-- WPT_ARM (R86). -/
  | wptArm (w : Writer) (c u cfg t : Nat)
  /-- WAYPOINT_FIRE (R86). -/
  | waypointFire (c u t : Nat)
  /-- DEADLINE_FIRE (R88). -/
  | deadlineFire (c u t : Nat)
  /-- POWER_APPLIED (R136). -/
  | powerApplied (p cls volt cur : Nat) (is24V : Bool) (t : Nat)
  /-- POWER_REFUSED (R136). -/
  | powerRefused (p t : Nat)
  /-- POWER_RETRY (R99). -/
  | powerRetry (p t : Nat)
  /-- OVERLOAD (R99). -/
  | overload (p t : Nat)
  /-- SPWR_LOW (R571). -/
  | spwrLow (v t : Nat)
  /-- SPWR_RECOVERY (R571). -/
  | spwrRecovery (v t : Nat)
  /-- SPWR_LIMIT (R571). -/
  | spwrLimit (t : Nat)
  /-- LINK_UP (R136). -/
  | linkUp (p amp ms t : Nat)
  /-- LINK_DOWN (R136). -/
  | linkDown (p t : Nat)
  /-- TRAINING_TIMEOUT (R136). -/
  | trainingTimeout (p t : Nat)
  /-- ATTACH_TIMEOUT (R136). -/
  | attachTimeout (p t : Nat)
  /-- CONFIGURING_TIMEOUT (R136). -/
  | configuringTimeout (p t : Nat)
  /-- NODE_SILENT (R136). -/
  | nodeSilent (p t : Nat)
  /-- SYNC_INSTANT (R110). -/
  | syncInstant (p t : Nat)
  /-- SAMPLE (R123). -/
  | sample (p t : Nat) (o : OspRec)
  /-- GAP (R128). -/
  | gap (p t : Nat) (o : OspRec)
  /-- SYNC_REPLY (R112). -/
  | syncReply (p t : Nat) (o : OspRec)
  /-- OSP_STATUS (R133). -/
  | ospStatus (p t : Nat) (o : OspRec)
  /-- IDENT (R131). -/
  | ident (p t : Nat) (o : OspRec)
  /-- CAL (R132). -/
  | cal (p t : Nat) (o : OspRec)
  /-- SELFTEST (R134). -/
  | selftest (p t : Nat) (o : OspRec)
  /-- FRAME_END (R107). -/
  | frameEnd (p t : Nat) (f : FrameEnd)
  /-- SPT_CH_CFG (R145). -/
  | sptChCfg (w : Writer) (p k v t : Nat)
  /-- QUERY_IDENT (R135). -/
  | queryIdent (w : Writer) (p t : Nat)
  /-- QUERY_CAL (R135). -/
  | queryCal (w : Writer) (p t : Nat)
  /-- QUERY_STATUS (R135). -/
  | queryStatus (w : Writer) (p t : Nat)
  /-- SPT_REQ_TEST (R135). -/
  | sptReqTest (w : Writer) (p tid t : Nat)
  /-- SYNC (R142). -/
  | sync (p t tr : Nat) (o : OspRec)
  /-- CONFIG (R142). -/
  | config (p t : Nat) (o : OspRec)
  /-- QUERY (R141). -/
  | query (p t : Nat) (o : OspRec)
  /-- TEST (R134). -/
  | test (p t : Nat) (o : OspRec)
  /-- NODE_EMISSION (R144). -/
  | nodeEmission (p k t : Nat)
  /-- COMMIT (R150). -/
  | commit (w : Writer) (e ctrl t : Nat)
  /-- STREAM_HANDOVER (R150). -/
  | streamHandover (e t : Nat)
  /-- STREAM_CELL (R161). -/
  | streamCell (e : Nat) (sent : CellSent)
  /-- CAPTURE_OPEN (R168). -/
  | captureOpen (w : Writer) (e t : Nat)
  /-- CAPTURE_CLOSE (R168). -/
  | captureClose (w : Writer) (e t : Nat)
  /-- VIEW_ON (R175). -/
  | viewOn (w : Writer) (c v t : Nat)
  /-- VIEW_OFF (R175). -/
  | viewOff (w : Writer) (c v t : Nat)
  /-- IN_ON (R175). -/
  | inOn (w : Writer) (c i t : Nat)
  /-- IN_OFF (R175). -/
  | inOff (w : Writer) (c i t : Nat)
  /-- ARS_COMMAND_COMPLETE (R175). -/
  | arsCommandComplete (c : Nat)
  /-- INPUT_CELL (R174). -/
  | inputCell (c i t : Nat)
  /-- OUTPUT_SAMPLE (R184). -/
  | outputSample (c v t : Nat) (chk : SampleCheck)
  /-- TFE_SUBMIT (R201). -/
  | tfeSubmit (w : Writer) (c desc t : Nat)
  /-- JOB_START (R224). -/
  | jobStart (c t : Nat)
  /-- STAGES_PASS (R220). -/
  | stagesPass (c t : Nat)
  /-- STAGE_FAILS (R229). -/
  | stageFails (c stage t : Nat)
  /-- SLOT_ON (R237). -/
  | slotOn (w : Writer) (c i t : Nat)
  /-- SLOT_OFF (R237). -/
  | slotOff (w : Writer) (c i t : Nat)
  /-- BL_CLEAR (R238). -/
  | blClear (w : Writer) (c i t : Nat)
  /-- FRD_TRIGGER (R239). -/
  | frdTrigger (w : Writer) (c group result t : Nat)
  /-- TRIGGER_SERVICE (R240). -/
  | triggerService (c t : Nat) (diffs : List Nat)
  /-- VOTE_WORD (R264). -/
  | voteWord (w : Writer) (o m word : Nat) (pois : Bool) (t : Nat)
  /-- DRIVE_TICK (R268). -/
  | driveTick (dev : List (Nat × Nat × Nat)) (loads : List (Nat × Nat)) (t : Nat)
  /-- TRIP_DELAY (R272). -/
  | tripDelay (o d t : Nat)
  /-- RELEASE_DELAY (R272). -/
  | releaseDelay (o d t : Nat)
  /-- MEMBER_NOT_FRESH (R266). -/
  | memberNotFresh (o m t : Nat)
  /-- MULTIPLIER_TIMEOUT (R271). -/
  | multiplierTimeout (o t : Nat)
  /-- READBACK_MISMATCH (R276). -/
  | readbackMismatch (o d t : Nat)
  /-- OPENLOAD (R276). -/
  | openload (o t : Nat)
  /-- PULSE_TEST (R277). -/
  | pulseTest (o d t : Nat)
  /-- PULSE_TEST_END (R277). -/
  | pulseTestEnd (o d : Nat) (inverted : Bool) (t : Nat)
  /-- DIVERGE (R279). -/
  | diverge (o t : Nat)
  /-- PEER (R279). -/
  | peer (d t : Nat)
  /-- DRIVE_BLOCK_FAULT (R279). -/
  | driveBlockFault (d t : Nat)
  /-- RESET_TRIP (R272). -/
  | resetTrip (w : Writer) (o t : Nat)
  /-- CLEAR_FAULT (R272). -/
  | clearFault (w : Writer) (o t : Nat)
  /-- PT_NOW (R277). -/
  | ptNow (w : Writer) (o t : Nat)
  /-- SOUT_BYP (R270). -/
  | soutByp (w : Writer) (o byp t : Nat)
  /-- SOUT_FO_RESET (R284). -/
  | soutFoReset (w : Writer) (d mask t : Nat)
  /-- SWITCH_CURRENT_LIMIT (R574). -/
  | switchCurrentLimit (o d t : Nat)
  /-- CAIRN_DUE (R293). -/
  | cairnDue (tile t : Nat)
  /-- CAIRN_COMMIT (R294). -/
  | cairnCommit (tile tst marked t : Nat)
  /-- MISMATCH (R292). -/
  | mismatch (tile : Nat) (u : Upset) (off t : Nat)
  /-- RESTORE_COMPLETE (R302). -/
  | restoreComplete (tile t : Nat)
  /-- TAKE_OVER (R311). -/
  | takeOver (tile t : Nat)
  /-- ROTATE (R313). -/
  | rotate (w : Writer) (tile sp t : Nat)
  /-- UPDATE (R313). -/
  | update (w : Writer) (tile sp t : Nat)
  /-- SPARE_REFUSED (R313). -/
  | spareRefused (tile t : Nat)
  /-- MODE_HAND_OVER (R318). -/
  | modeHandOver (w : Writer) (tile v t : Nat)
  /-- DRAIN_COMPLETE (R318). -/
  | drainComplete (tile t : Nat)
  /-- HALT (R322). -/
  | halt (w : Writer) (tile copy t : Nat)
  /-- RESUME (R322). -/
  | resume (w : Writer) (tile copy t : Nat)
  /-- STEP (R322). -/
  | step (w : Writer) (tile copy n t : Nat)
  /-- DEBUG_READ (R322). -/
  | debugRead (w : Writer) (tile copy space idx t : Nat)
  /-- DEBUG_WRITE (R322). -/
  | debugWrite (w : Writer) (tile copy space idx t : Nat)
  /-- TILE_MBOX_IN (R286). -/
  | tileMboxIn (w : Writer) (tile v : Nat) (pois : Bool) (t : Nat)
  /-- TILE_MBOX_OUT (R300). -/
  | tileMboxOut (w : Writer) (tile t : Nat)
  /-- TILE_RQ1 (R300). -/
  | tileRq1 (w : Writer) (tile t : Nat)
  /-- TILE_TAG (R427). -/
  | tileTag (w : Writer) (tile granule : Nat) (tag : Bool) (t : Nat)
  /-- EXCEPTION_ENTRY (R420). -/
  | exceptionEntry (tile copy : Nat)
  /-- EXT_READ_REPLY (R394). -/
  | extReadReply (tile copy i t : Nat)
  /-- WAITW_RELEASE (R357). -/
  | waitwRelease (tile copy : Nat)
  /-- NOP (R359). -/
  | nop (i : Issue)
  /-- DROP (R359). -/
  | drop (i : Issue)
  /-- DUP (R359). -/
  | dup (i : Issue)
  /-- SWAP (R359). -/
  | swap (i : Issue)
  /-- OVER (R359). -/
  | over (i : Issue)
  /-- ROT (R359). -/
  | rot (i : Issue)
  /-- DUP2 (R359). -/
  | dup2 (i : Issue)
  /-- DROP2 (R359). -/
  | drop2 (i : Issue)
  /-- SWAP2 (R359). -/
  | swap2 (i : Issue)
  /-- NIP (R359). -/
  | nip (i : Issue)
  /-- PICK (R359). -/
  | pick (i : Issue) (k : Nat)
  /-- DROPN (R359). -/
  | dropn (i : Issue) (m : Nat)
  /-- LOCAL (R329). -/
  | loc (i : Issue) (k : Nat)
  /-- SETL (R329). -/
  | setl (i : Issue) (k : Nat)
  /-- LIT (R364). -/
  | lit (i : Issue) (ln : Nat)
  /-- ADD (R353). -/
  | add (i : Issue)
  /-- SUB (R353). -/
  | sub (i : Issue)
  /-- ADDV (R353). -/
  | addv (i : Issue)
  /-- SUBV (R353). -/
  | subv (i : Issue)
  /-- AND (R359). -/
  | and (i : Issue)
  /-- OR (R359). -/
  | or (i : Issue)
  /-- XOR (R359). -/
  | xor (i : Issue)
  /-- ANDN (R359). -/
  | andn (i : Issue)
  /-- SHL (R353). -/
  | shl (i : Issue)
  /-- SHR (R353). -/
  | shr (i : Issue)
  /-- SAR (R353). -/
  | sar (i : Issue)
  /-- ROL (R353). -/
  | rol (i : Issue)
  /-- MIN (R359). -/
  | min (i : Issue)
  /-- MAX (R359). -/
  | max (i : Issue)
  /-- MINU (R359). -/
  | minu (i : Issue)
  /-- MAXU (R359). -/
  | maxu (i : Issue)
  /-- QADD (R354). -/
  | qadd (i : Issue)
  /-- QSUB (R354). -/
  | qsub (i : Issue)
  /-- NOT (R359). -/
  | not (i : Issue)
  /-- NEG (R359). -/
  | neg (i : Issue)
  /-- ABS (R359). -/
  | abs (i : Issue)
  /-- QNEG (R354). -/
  | qneg (i : Issue)
  /-- QABS (R354). -/
  | qabs (i : Issue)
  /-- CLZ (R359). -/
  | clz (i : Issue)
  /-- CTZ (R359). -/
  | ctz (i : Issue)
  /-- POPC (R359). -/
  | popc (i : Issue)
  /-- SXB (R359). -/
  | sxb (i : Issue)
  /-- SXH (R359). -/
  | sxh (i : Issue)
  /-- ZXB (R359). -/
  | zxb (i : Issue)
  /-- ZXH (R359). -/
  | zxh (i : Issue)
  /-- BSWAP (R359). -/
  | bswap (i : Issue)
  /-- CMP (R359). -/
  | cmp (i : Issue) (c n : Nat)
  /-- CMPZ (R359). -/
  | cmpz (i : Issue) (c n : Nat)
  /-- PLOG (R365). -/
  | plog (i : Issue) (f m n : Nat)
  /-- PSET (R365). -/
  | pset (i : Issue) (n : Nat)
  /-- PCLR (R365). -/
  | pclr (i : Issue) (n : Nat)
  /-- PNOT (R365). -/
  | pnot (i : Issue) (n : Nat)
  /-- PUSHP (R359). -/
  | pushp (i : Issue) (n : Nat)
  /-- POPP (R363). -/
  | popp (i : Issue) (n : Nat)
  /-- SEL (R363). -/
  | sel (i : Issue) (n : Nat)
  /-- ANGSUB (R356). -/
  | angsub (i : Issue)
  /-- ANGADD (R359). -/
  | angadd (i : Issue)
  /-- ANGCMP (R356). -/
  | angcmp (i : Issue) (n : Nat)
  /-- RDST (R350). -/
  | rdst (i : Issue)
  /-- WRST (R351). -/
  | wrst (i : Issue)
  /-- RDLC (R359). -/
  | rdlc (i : Issue)
  /-- WRLC (R385). -/
  | wrlc (i : Issue)
  /-- RDRC (R344). -/
  | rdrc (i : Issue)
  /-- WRRC (R344). -/
  | wrrc (i : Issue)
  /-- RDP (R359). -/
  | rdp (i : Issue)
  /-- WRP (R359). -/
  | wrp (i : Issue)
  /-- RDDEP (R359). -/
  | rddep (i : Issue)
  /-- RDRSP (R359). -/
  | rdrsp (i : Issue)
  /-- RDTILE (R366). -/
  | rdtile (i : Issue)
  /-- MUL (R353). -/
  | mul (i : Issue)
  /-- MULV (R353). -/
  | mulv (i : Issue)
  /-- MULHS (R359). -/
  | mulhs (i : Issue)
  /-- MULHU (R359). -/
  | mulhu (i : Issue)
  /-- MULL (R359). -/
  | mull (i : Issue)
  /-- MULLU (R359). -/
  | mullu (i : Issue)
  /-- QMUL (R354). -/
  | qmul (i : Issue)
  /-- QMAC (R354). -/
  | qmac (i : Issue)
  /-- DIV (R353). -/
  | div (i : Issue)
  /-- DIVU (R367). -/
  | divu (i : Issue)
  /-- REM (R353). -/
  | rem (i : Issue)
  /-- REMU (R367). -/
  | remu (i : Issue)
  /-- FADD (R355). -/
  | fadd (i : Issue)
  /-- FSUB (R355). -/
  | fsub (i : Issue)
  /-- FMUL (R355). -/
  | fmul (i : Issue)
  /-- FMA (R355). -/
  | fma (i : Issue)
  /-- FMIN (R355). -/
  | fmin (i : Issue)
  /-- FMAX (R355). -/
  | fmax (i : Issue)
  /-- FNEG (R359). -/
  | fneg (i : Issue)
  /-- FABS (R359). -/
  | fabs (i : Issue)
  /-- FDIV (R368). -/
  | fdiv (i : Issue)
  /-- FSQRT (R355). -/
  | fsqrt (i : Issue)
  /-- CVTIF (R355). -/
  | cvtif (i : Issue)
  /-- CVTUF (R355). -/
  | cvtuf (i : Issue)
  /-- CVTFI (R355). -/
  | cvtfi (i : Issue)
  /-- CVTQF (R359). -/
  | cvtqf (i : Issue)
  /-- CVTFQ (R359). -/
  | cvtfq (i : Issue)
  /-- FCMP (R369). -/
  | fcmp (i : Issue) (c n : Nat)
  /-- LDB (R371). -/
  | ldb (i : Issue) (n : Nat)
  /-- LDBU (R371). -/
  | ldbu (i : Issue) (n : Nat)
  /-- LDH (R371). -/
  | ldh (i : Issue) (n : Nat)
  /-- LDHU (R371). -/
  | ldhu (i : Issue) (n : Nat)
  /-- LDW (R349). -/
  | ldw (i : Issue) (n : Nat)
  /-- LDD (R371). -/
  | ldd (i : Issue) (n : Nat)
  /-- STB (R373). -/
  | stb (i : Issue) (n : Nat)
  /-- STH (R373). -/
  | sth (i : Issue) (n : Nat)
  /-- STW (R373). -/
  | stw (i : Issue) (n : Nat)
  /-- STD (R373). -/
  | std (i : Issue) (n : Nat)
  /-- LDT (R371). -/
  | ldt (i : Issue) (m n : Nat)
  /-- STT (R410). -/
  | stt (i : Issue) (m n : Nat)
  /-- CMOV (R411). -/
  | cmov (i : Issue) (d s_ : Nat)
  /-- CRANGE (R374). -/
  | crange (i : Issue) (d s_ : Nat)
  /-- CPERM (R374). -/
  | cperm (i : Issue) (d s_ : Nat)
  /-- CTIE (R412). -/
  | ctie (i : Issue) (d s_ : Nat)
  /-- CUNTIE (R412). -/
  | cuntie (i : Issue) (d s_ : Nat)
  /-- CREAD (R359). -/
  | cread (i : Issue) (f n : Nat)
  /-- CVOID (R359). -/
  | cvoid (i : Issue) (n : Nat)
  /-- WAITW (R357). -/
  | waitw (i : Issue)
  /-- SYNCF (R358). -/
  | syncf (i : Issue)
  /-- CAIRN (R293). -/
  | cairn (i : Issue)
  /-- MBXR (R373). -/
  | mbxr (i : Issue) (n : Nat)
  /-- SEND (R377). -/
  | send (i : Issue) (n st : Nat)
  /-- TFESUB (R378). -/
  | tfesub (i : Issue) (n : Nat)
  /-- BR (R380). -/
  | br (i : Issue) (ln : Nat)
  /-- BRI (R380). -/
  | bri (i : Issue)
  /-- LOOP (R347). -/
  | loop (i : Issue) (ln tail : Nat)
  /-- BRC (R380). -/
  | brc (i : Issue) (n : Nat)
  /-- CALL (R331). -/
  | call (i : Issue) (n ln : Nat)
  /-- CALLI (R381). -/
  | calli (i : Issue) (n : Nat)
  /-- RET (R331). -/
  | ret (i : Issue) (k : Nat)
  /-- TRAP (R423). -/
  | trap (i : Issue) (n : Nat)
  /-- RETX (R424). -/
  | retx (i : Issue)
  /-- SCRUB_LINE (R443). -/
  | scrubLine (page b t : Nat)
  /-- ECC_PWR (R448). -/
  | eccPwr (w : Writer) (page v t : Nat)
  /-- BANK_WAKE_COMPLETE (R448). -/
  | bankWakeComplete (page b t : Nat)
  /-- ECC_FLIP_CFG (R449). -/
  | eccFlipCfg (w : Writer) (page v t : Nat)
  /-- WDG_SVC (R454). -/
  | wdgSvc (w : Writer) (p key t : Nat)
  /-- WDG_CHECKIN (R454). -/
  | wdgCheckin (w : Writer) (p task t : Nat)
  /-- REMAINING_EXPIRY (R454). -/
  | remainingExpiry (p t : Nat)
  /-- WAKE_POINT (R462). -/
  | wakePoint (p t : Nat)
  /-- OSCILLATOR_FAULT (R452). -/
  | oscillatorFault (o t : Nat)
  /-- SLICE_DUE (R477). -/
  | sliceDue (unit inst slice t : Nat)
  /-- SLICE_END (R474). -/
  | sliceEnd (unit inst slice res wh at_ t : Nat)
  /-- RETEST (R475). -/
  | retest (unit inst slice res wh at_ t : Nat)
  /-- BIST_REQ (R476). -/
  | bistReq (w : Writer) (p unit tile t : Nat)
  /-- REQUESTED_PASS_COMPLETE (R476). -/
  | requestedPassComplete (unit inst np nf ni wh at_ t : Nat)
  /-- BIST_FUSE (R485). -/
  | bistFuse (w : Writer) (entry t : Nat)
  /-- WORD_ACCEPT (R489). -/
  | wordAccept (i n : Nat) (toCore : Bool) (word : XWord) (launch t : Nat)
  /-- ACKNOWLEDGE (R491). -/
  | acknowledge (i n : Nat) (toCore : Bool) (t : Nat)
  /-- CROSSING_HOLD (R494). -/
  | crossingHold (i n t : Nat)
  /-- CLOCK_RETURN (R494). -/
  | clockReturn (i n drops t : Nat)
  /-- SIDE_RESET (R496). -/
  | sideReset (i n : Nat) (coreSide : Bool) (t : Nat)
  /-- FAR_SIDE_POWER (R498). -/
  | farSidePower (i n : Nat) (on : Bool) (t : Nat)
  /-- HANDSHAKE_COMPLETE (R496). -/
  | handshakeComplete (i n drops t : Nat)
  /-- BLOCK_LOCK (R501). -/
  | blockLock (p : Nat) (same : Bool) (t : Nat)
  /-- LOCK_LOSS (R501). -/
  | lockLoss (p t : Nat)
  /-- HELLO_TIMEOUT (R501). -/
  | helloTimeout (p t : Nat)
  /-- HELLO_SEND (R501). -/
  | helloSend (p t : Nat)
  /-- HELLO (R501). -/
  | hello (f : RFrame) (serial scope pport : Nat) (biv : Bool) (t : Nat)
  /-- ELECT (R507). -/
  | elect (f : RFrame) (pri serial epoch t : Nat)
  /-- ELECTION_SETTLES (R507). -/
  | electionSettles (i t : Nat)
  /-- LINKS (R508). -/
  | links (f : RFrame) (rep : LinkRep) (t : Nat)
  /-- LABEL (R509). -/
  | label (f : RFrame) (gen own : Nat) (rows : List LabelRow) (agg : Nat × Nat × Nat) (t : Nat)
  /-- ROUTE_COMPUTATION (R512). -/
  | routeComputation (i t : Nat)
  /-- ROUTE (R512). -/
  | route (f : RFrame) (serial : Nat) (row : List (Nat × Nat)) (t : Nat)
  /-- LABEL_HOLD_EXPIRY (R514). -/
  | labelHoldExpiry (i l t : Nat)
  /-- CONNECT (R518). -/
  | connect (f : RFrame) (far : Nat) (answer : Bool) (t : Nat)
  /-- CONNECT_RESEND (R518). -/
  | connectResend (c t : Nat)
  /-- CELL (R519). -/
  | cell (f : RFrame) (cells : List RopeCell) (t : Nat)
  /-- NORMAL_FLUSH (R504). -/
  | normalFlush (c t : Nat)
  /-- CREDIT (R520). -/
  | credit (f : RFrame) (freed t : Nat)
  /-- CREDIT_SEND (R520). -/
  | creditSend (c t : Nat)
  /-- ROPE_STATUS (R524). -/
  | ropeStatus (f : RFrame) (serial : Nat) (st : TeamStat) (t : Nat)
  /-- STATUS_SEND (R524). -/
  | statusSend (t : Nat)
  /-- TIME (R525). -/
  | time (f : RFrame) (reply : Bool) (t2 t3 : Int) (t : Nat)
  /-- TIME_EXCHANGE (R525). -/
  | timeExchange (t : Nat)
  /-- ACC_REQ (R522). -/
  | accReq (f : RFrame) (tile : Bool) (op addr data : Nat) (pois : Bool) (t : Nat)
  /-- ACC_REP (R523). -/
  | accRep (f : RFrame) (val : Nat) (pois : Bool) (t : Nat)
  /-- REFUSE (R523). -/
  | refuse (f : RFrame) (reason addr t : Nat)
  /-- READ32 (R523). -/
  | read32 (w : Writer) (i addr t : Nat)
  /-- READ64 (R523). -/
  | read64 (w : Writer) (i addr t : Nat)
  /-- WRITE32 (R523). -/
  | write32 (w : Writer) (i addr t : Nat)
  /-- WRITE64 (R523). -/
  | write64 (w : Writer) (i addr t : Nat)
  /-- ACCESS_TIMEOUT (R523). -/
  | accessTimeout (i t : Nat)
  /-- POWER_ON_RESET (R565). -/
  | powerOnReset
  /-- BASECAMP_RESET (R534). -/
  | basecampReset (cause t : Nat)
  /-- RESTART (R534). -/
  | restart (w : Writer) (t : Nat)
  /-- LOG_FLUSH (R540). -/
  | logFlush (t : Nat)
  /-- POWER_FAIL (R541). -/
  | powerFail (va vb store t : Nat)
  /-- NONCE (R545). -/
  | nonce (b : Bap) (op t : Nat)
  /-- BAP_READ (R545). -/
  | bapRead (b : Bap) (t : Nat)
  /-- SOURCE_UNBLOCK (R547). -/
  | sourceUnblock (ip t : Nat)
  /-- BAP_WRITE (R545). -/
  | bapWrite (b : Bap) (t : Nat)
  /-- LOG_READ (R545). -/
  | logRead (b : Bap) (t : Nat)
  /-- UPD_OPEN (R550). -/
  | updOpen (b : Bap) (t : Nat)
  /-- ERASE_COMPLETE (R550). -/
  | eraseComplete (t : Nat)
  /-- UPD_DATA (R550). -/
  | updData (b : Bap) (t : Nat)
  /-- UPD_COMMIT (R550). -/
  | updCommit (b : Bap) (t : Nat)
  /-- UPD_ACTIVATE (R550). -/
  | updActivate (b : Bap) (t : Nat)
  /-- BAP_WAKE (R556). -/
  | bapWake (b : Bap) (t : Nat)
  /-- PTP_SYNC (R543). -/
  | ptpSync (ofs : Int) (ptp t : Nat)
  /-- SYNC_TIMEOUT (R543). -/
  | syncTimeout (t : Nat)
  /-- CONFIRM (R552). -/
  | confirm (w : Writer) (t : Nat)
  /-- RAISE_MIN (R557). -/
  | raiseMin (w : Writer) (t : Nat)
  /-- ABORT (R557). -/
  | abort (w : Writer) (t : Nat)
  /-- TILE_UPDATE (R553). -/
  | tileUpdate (w : Writer) (sec tile t : Nat)
  /-- BIV_ENTER (R555). -/
  | bivEnter (w : Writer) (t : Nat)
  /-- BIV_WAKE (R556). -/
  | bivWake (w : Writer) (t : Nat)
  /-- BIV_OFF (R555). -/
  | bivOff (w : Writer) (t : Nat)
  /-- BCP_KEY_DATA (R548). -/
  | bcpKeyData (w : Writer) (i word t : Nat)
  /-- TEMPERATURE_WARN (R559). -/
  | temperatureWarn (i : Nat) (v : Int) (t : Nat)
  /-- TEMPERATURE_CRIT (R559). -/
  | temperatureCrit (i : Nat) (v : Int) (t : Nat)
  /-- FEED_LOSS (R564). -/
  | feedLoss (feed v t : Nat)
  /-- BUS_LOW (R567). -/
  | busLow (vbus store t : Nat)
  /-- STORAGE_EXHAUSTED (R567). -/
  | storageExhausted (store : Nat)
  /-- PFAIL_END (R568). -/
  | pfailEnd (va vb store t : Nat)
  /-- RAIL_FAULT (R569). -/
  | railFault (i mv t : Nat)
  /-- SFP_INSERTION (R500). -/
  | sfpInsertion (p : Nat) (present los txFault : Bool) (t : Nat)
  /-- ENTRY_SEQUENCE_COMPLETE (R555). -/
  | entrySequenceComplete (t : Nat)
  /-- EXIT_SEQUENCE_COMPLETE (R556). -/
  | exitSequenceComplete (t : Nat)
  /-- HOLD_UP_READY (R567). -/
  | holdUpReady (store t : Nat)
  /-- COUNTER_OVERFLOW (R465). -/
  | counterOverflow (tile i t : Nat)
  /-- NODE_ROLE_STATUS (R106). -/
  | nodeRoleStatus (p t : Nat)
  deriving DecidableEq, Repr

end Sys2Proof
end

