-- ==== Sys2Proof/Decode.lean ====
section
/-! DEFINITION. The command a word spells. -/

namespace Sys2Proof

/-- The opcode table gives none of its rows bits: commands come to the module as accesses, frames and instants, and no word spells one. -/
def decodeTableWord (_nbits _w : Nat) : Option Instr := none

end Sys2Proof
end

