-- ==== Sys2Proof/Config.lean ====
section
/-! DEFINITION. What an implementation fixes and what the spec leaves open: each opaque constant is a free value, so no proof can see which one it is. A fresh draw is the constant applied to State.free, the model's own counter. -/

namespace Sys2Proof.Config

/-- DESIGN CHOICE (entry 10): IEEE 754 lets tininess be judged before or after rounding; spec/11 R355 does not say which. True: after rounding. -/
opaque tinyAfterRounding : Bool

/-- DESIGN CHOICE (entry 10): whether infinity times zero plus a quiet NaN is an invalid operation (IEEE 754 leaves it open, spec/11 R355 does not say). -/
opaque fmaInfZeroNanInvalid : Bool

/-- DESIGN CHOICE (entry 10): whether a result flushed to zero under STATUS.FTZ sets UF (spec/11 R350 gives FTZ's value only). -/
opaque ftzSetsUnderflow : Bool

/-- DESIGN CHOICE (entry 10): whether a result flushed to zero under STATUS.FTZ sets NX. -/
opaque ftzSetsInexact : Bool

/-- DESIGN CHOICE (entry 11): where the low-pass filtered jerk of a track's fit lies between the least and the greatest change of acceleration of its window, in 2^-32; spec/03 R69 names the filter and not its form. From the track and a fresh draw. -/
opaque trackJerk : Nat → Nat → BitVec 32

/-- DESIGN CHOICE (entry 12): the code position ECC_BK_LAST shows for an uncorrectable byte of a syndrome; spec/15 gives the field and not how two errors fill it. -/
opaque uncorrPosition : Nat → Fin 13

/-- DESIGN CHOICE (entry 12): the symbol ECC_BK_LAST shows for an uncorrectable DRAM line. -/
opaque uncorrSymbol : Nat → Fin 80

/-- DESIGN CHOICE (entry 12): what a byte delivers whose syndrome names a position above 12 with odd parity (three or more errors, spec/15 R431): from the byte and syndrome. -/
opaque badSyndrome : Nat → Nat → BitVec 8

/-- A session ID drawn by a port (spec/04 R119), from the port and a fresh draw. -/
opaque sessionId : Nat → Nat → BitVec 32

/-- The error of a generated sine value against the ideal one, −1, 0 or +1 count (spec/04 R144: at most 1 count); from amplitude and phase. -/
opaque sineError : Nat → Nat → Fin 3

/-- DESIGN CHOICE (entry 13): what a NODE-role port's SELFTEST body holds after TEST_ID: RESULT − 1 in the low two bits, the maker's code, RESULT − 1 of each channel, the biases; the spec names no test of a module port. From the port, TEST_ID and a fresh draw. -/
opaque nodeSelftest : Nat → Nat → Nat → BitVec 186

/-- DESIGN CHOICE (entry 13): how many cycles test 0x02 of a NODE-role port runs (spec/04 R134). From the port and a fresh draw. -/
opaque nodeTestTime : Nat → Nat → Nat

/-- DESIGN CHOICE (entry 13): SENSOR_OK, TEMP, VIN and PIN in a NODE-role port's STATUS; measured values the spec does not give. From the port and a fresh draw. -/
opaque nodeStatus : Nat → Nat → BitVec 56

/-- The open error of the resampler's coefficient unit at a cutoff and distance (spec/06 R184 gives the real function and no bound on the unit, R185 bounds what it does to the response; entry 20). -/
opaque arsCoefError : Rat → Rat → Rat

/-- A sample of a half-band decimator stage from its 49 taps (spec/06 R182 gives the response, not the coefficients; entry 20). -/
opaque arsDecimate : List Nat → BitVec 32

/-- The open error of a phase in turns (spec/08 R242, spec/07 R210 give the arctangent and no bound; entry 21), from the real and imaginary words. -/
opaque phaseError : Nat → Nat → Rat

/-- The phase of words that are no numbers (entry 21). -/
opaque phaseTurns : Nat → Nat → BitVec 32

/-- The rounding of a transform of a Transform Engine job, as two fractions of the bound of spec/07 R227: from the descriptor's words, the loaded inputs, the transform's place among the job's stages, and the output (entry 22). -/
opaque tfeError : List Nat → List Nat → List Nat → Nat → Nat → BitVec 64

/-- The rounding of an ENVELOPE job's magnitude before mean removal, as a fraction of the pointwise bound of spec/07 R227 (entry 22). -/
opaque tfeMagError : List Nat → List Nat → Nat → BitVec 32

/-- The gain of the ZOOM decimator at a bin of its input, real and imaginary binary32: spec/07 R208 bounds its magnitude over part of the band and leaves the rest. From DEC, LOG_N and the bin (entry 22). -/
opaque tfeDecimate : Nat → Nat → Nat → BitVec 64

/-- Entry k of a job whose window cannot be normalised: a user table that is not all numbers, or sums to 0 (entry 22). -/
opaque tfeEntry : List Nat → List Nat → List Nat → List Nat → Nat → BitVec 128

/-- ENERGY where the spec gives no value: a job without a forward transform, or with such a window (spec/07 R212; entry 22). -/
opaque tfeEnergy : List Nat → List Nat → List Nat → BitVec 32

/-- ENBW × 256 of such a window (entry 22). -/
opaque tfeEnbw : List Nat → List Nat → BitVec 16

/-- DF and F0 of a result whose entries are no bins (IFFT, CEPSTRUM, TIME): the spec states none (spec/07 R219; entry 22). -/
opaque tfeNoBins : Nat → BitVec 64

/-- The ratio that TFE_CHK_MAX records for a passing or failing stage, binary32, from the cluster and a fresh draw (spec/07 R227; entry 22). -/
opaque tfeChkRatio : Nat → Nat → BitVec 32

/-- The nonce of the management session, drawn at each Basecamp start (spec/20 R547). -/
opaque bapNonce : Nat → BitVec 64

/-- Whether an image verifies under a signing slot (spec/20 R549, R550): Ed25519 (RFC 8032) over its bytes with the slot's fused public key, which the spec does not give (entry 30). From the slot, the bytes programmed and the payload length. -/
opaque imageVerifies : Nat → List (Nat × Nat) → Nat → Bool

/-- The per-module commissioning key of slot 0 (spec/20 R548). -/
opaque commissioningKey : BitVec 256

/-- The register writes a configuration store holds, in order: address, whether 64 bits, value (spec/20 R532, R536; the spec gives no layout; entry 31). -/
opaque storeWrites : List (Nat × Nat) → List (Nat × Bool × Nat)

/-- The Basecamp watchdog configuration in the store: page offset and value (spec/20 R532, R533; entry 31). -/
opaque storeWdg : List (Nat × Nat) → List (Nat × Nat)

/-- The FORERUNNER choice in a store (spec/20 R532; entry 31). -/
opaque storeForerunner : List (Nat × Nat) → Bool

/-- A tile image section of a bank (spec/20 R549, R553; the spec gives no layout; entry 32): its 64-bit lanes by local offset, the granules it tags, the TILE_ENTRY offset. From the bank's contents and the section ID. -/
opaque tileSection : List (Nat × Nat) → Nat → List (Nat × Nat) × List Nat × Nat

/-- The tile code load that a bank's image holds for a tile (spec/20 R537, R549; the spec gives no layout of the sections; entry 32): its 64-bit lanes by local offset, the granules it tags, TILE_ENTRY, TILE_VECA, TILE_VECB and TILE_VECC. From the bank's contents and the tile. -/
opaque tileImage : List (Nat × Nat) → Nat → Option (List (Nat × Nat) × List Nat × Nat × Nat × Nat × Nat)

/-- Whether A leading B is the phase order that counts up where INV is 0 (spec/03 R65 says only that the sign follows the order). DESIGN CHOICE: free. -/
opaque aLeadsUp : Bool

/-- The acceleration and jerk that a TACHOLESS track broadcasts (spec/03 R70, R80 gives its position and rate only; entry 139). -/
opaque tachoAccel : Nat → Nat → Rat
opaque tachoJerk : Nat → Nat → BitVec 32

/-- How far WPT_POS moves, in steps, where no number of steps leaves the condition unmet (spec/03 R87 states none; entry 142): from the cluster × 128 + unit and a fresh draw. -/
opaque wptSteps : Nat → Nat → BitVec 64

/-- The rate at which WALL slews an offset of so many nanoseconds away (spec/03 R68 names slewing and no rate; entry 33). -/
opaque slewRate : Int → Nat → Rat

/-- What a powered port's output comes to when its current limit moves at or below the load: current in bits 19:8, voltage in bits 7:0 (spec/04 R98; log entry 187). -/
opaque portLoad : Nat → Nat → BitVec 20

end Sys2Proof.Config
end

