-- ==== Sys2Proof/Machine/Bits.lean ====
section
/-! DEFINITION. Bit fields, byte order and saturating counts over plain numbers and words: the helpers every register rule uses. -/

namespace Sys2Proof.Machine

/-- The value of bits `hi:lo` of `v` (field notation of spec/00_scope.md R7). -/
def bits (v hi lo : Nat) : Nat := (v >>> lo) % 2 ^ (hi + 1 - lo)

/-- Bit `i` of `v`. -/
def bit (v i : Nat) : Bool := v.testBit i

/-- 1 for true and 0 for false. -/
def b2n (b : Bool) : Nat := if b then 1 else 0

/-- `v` with bits `hi:lo` replaced by `x` (cut to the field's width). -/
def setBits (v hi lo x : Nat) : Nat :=
  (v >>> (hi + 1)) <<< (hi + 1) + ((x % 2 ^ (hi + 1 - lo)) <<< lo) + v % 2 ^ lo

/-- `v` with bit `i` made `b`. -/
def setBit (v i : Nat) (b : Bool) : Nat := setBits v i i (b2n b)

/-- `v` without the bits of `m`. -/
def clearBits (v m : Nat) : Nat := v - (v &&& m)

/-- The low word of a 64-bit value (spec/00_scope.md R6: it stands at the lower address). -/
def lo32 (v : Nat) : Nat := v % 2 ^ 32

/-- The high word of a 64-bit value. -/
def hi32 (v : Nat) : Nat := (v >>> 32) % 2 ^ 32

/-- A 64-bit value from its low and high words. -/
def cat32 (l h : Nat) : Nat := l + h * 2 ^ 32

/-- `a + b` held at `m`: every saturating count of the spec. -/
def satAdd (m a b : Nat) : Nat := min m (a + b)

/-- A two's-complement `w`-bit number read from bits. -/
def toS (w v : Nat) : Int :=
  let u := v % 2 ^ w
  if 2 * u < 2 ^ w then (u : Int) else (u : Int) - 2 ^ w

/-- The bits of a two's-complement `w`-bit number, wrapping. -/
def ofS (w : Nat) (x : Int) : Nat := (x % 2 ^ w).toNat

/-- `x` held inside the signed `w`-bit range. -/
def satS (w : Nat) (x : Int) : Int := max (-(2 ^ (w - 1))) (min (2 ^ (w - 1) - 1) x)

/-- The little-endian bytes of `v`, `n` of them. -/
def leBytes : Nat → Nat → List Byte
  | 0, _ => []
  | n + 1, v => BitVec.ofNat 8 v :: leBytes n (v / 256)

/-- The number a little-endian list of bytes holds. -/
def ofLe : List Byte → Nat
  | [] => 0
  | b :: bs => b.toNat + 256 * ofLe bs

/-- The number a list of words holds, the first word lowest. -/
def ofWords : List Nat → Nat
  | [] => 0
  | w :: ws => w % 2 ^ 32 + 2 ^ 32 * ofWords ws

/-- `v` cut into `n` 32-bit words, the lowest first. -/
def toWords : Nat → Nat → List Nat
  | 0, _ => []
  | n + 1, v => v % 2 ^ 32 :: toWords n (v / 2 ^ 32)

/-- The nearest member of `l` to `v`, the lower of two equally near (spec/02 R46). -/
def nearest (l : List Nat) (v : Nat) : Nat :=
  (l.foldl (fun (b : Option Nat) x =>
    match b with
    | none => some x
    | some y =>
      let dx := (x : Int) - v |>.natAbs
      let dy := (y : Int) - v |>.natAbs
      if dx < dy ∨ (dx = dy ∧ x < y) then some x else some y) none).getD v

/-- `v` moved to the nearest of the numbers from `lo` to `hi`. -/
def clampTo (lo hi v : Nat) : Nat := if v < lo then lo else if hi < v then hi else v

/-- The number of ones in the low `n` bits of `v`. -/
def popCount : Nat → Nat → Nat
  | 0, _ => 0
  | n + 1, v => v % 2 + popCount n (v / 2)

/-- The number of bits of `v` up to its highest one. -/
def bitLen (v : Nat) : Nat := if v = 0 then 0 else Nat.log2 v + 1

/-- The lowest index below `n` whose bit is one, when there is one. -/
def lowestBit : Nat → Nat → Option Nat
  | 0, _ => none
  | n + 1, v => if v % 2 = 1 then some 0 else (lowestBit n (v / 2)).map (· + 1)

/-- `l` with its entry at `i` replaced by `x` (unchanged where there is none). -/
def setAt {α : Type} : List α → Nat → α → List α
  | [], _, _ => []
  | _ :: t, 0, x => x :: t
  | h :: t, i + 1, x => h :: setAt t i x

/-- `x` put into an ordered list, ahead of the first member it is not above. -/
def insertBy {α : Type} (le : α → α → Bool) (x : α) : List α → List α
  | [] => [x]
  | y :: t => if le x y then x :: y :: t else y :: insertBy le x t

/-- A list in the order `le`; members of equal rank keep their order. -/
def sortBy {α : Type} (le : α → α → Bool) (l : List α) : List α := l.foldr (insertBy le) []

/-- `a` rounded up to a multiple of `m`. -/
def roundUp (a m : Nat) : Nat := (a + m - 1) / m * m

/-- Cycles of the 3.0 GHz core clock in a microsecond (spec/00_scope.md R4). -/
def cyclesPerUs : Nat := 3000

/-- Cycles in a millisecond. -/
def cyclesPerMs : Nat := 3000000

/-- Cycles in a second. -/
def cyclesPerS : Nat := 3000000000

end Sys2Proof.Machine
end

