-- ==== Sys2Proof/Machine/Float32.lean ====
section
/-! DEFINITION. Binary32 arithmetic (spec/11 R355): round to nearest even, NaN payloads kept from the first NaN input, and the sticky flags. Values are plain 32-bit numbers. -/

namespace Sys2Proof.Machine

/-- The sticky flags an operation raises (spec/11 R350). -/
structure FFlags where
  nv : Bool := false
  dz : Bool := false
  ovf : Bool := false
  uf : Bool := false
  nx : Bool := false
  sat : Bool := false
  deriving DecidableEq, Repr

/-- Flags raised by either of two operations. -/
def FFlags.or (a b : FFlags) : FFlags :=
  ⟨a.nv || b.nv, a.dz || b.dz, a.ovf || b.ovf, a.uf || b.uf, a.nx || b.nx, a.sat || b.sat⟩

/-- The value a binary32 pattern stands for; a finite one is `±m × 2^e`. -/
inductive FVal where
  | nan
  | inf (neg : Bool)
  | fin (neg : Bool) (m : Nat) (e : Int)
  deriving DecidableEq, Repr

/-- The pattern of the NaN that an operation makes from non-NaN inputs (spec/11 R355). -/
def fNaN : Nat := 0x7FC00000

def fSign (x : Nat) : Bool := bit x 31
def fExp (x : Nat) : Nat := bits x 30 23
def fMan (x : Nat) : Nat := bits x 22 0
def fIsNaN (x : Nat) : Bool := fExp x == 255 && fMan x != 0
def fIsInf (x : Nat) : Bool := fExp x == 255 && fMan x == 0
def fIsZero (x : Nat) : Bool := fExp x == 0 && fMan x == 0
def fIsSub (x : Nat) : Bool := fExp x == 0 && fMan x != 0
def fIsSNaN (x : Nat) : Bool := fIsNaN x && !bit x 22
def fIsFinite (x : Nat) : Bool := fExp x != 255

/-- A NaN made quiet, its payload kept. -/
def fQuiet (x : Nat) : Nat := setBit x 22 true

def signBits (neg : Bool) : Nat := if neg then 2 ^ 31 else 0
def fInf (neg : Bool) : Nat := signBits neg + 0x7F800000

/-- A subnormal input taken as zero of its sign under STATUS.FTZ. -/
def fFlushIn (ftz : Bool) (x : Nat) : Nat := if ftz && fIsSub x then signBits (fSign x) else x

def fDecode (x : Nat) : FVal :=
  if fIsNaN x then .nan
  else if fIsInf x then .inf (fSign x)
  else if fExp x = 0 then .fin (fSign x) (fMan x) (-149)
  else .fin (fSign x) (fMan x + 2 ^ 23) ((fExp x : Int) - 150)

/-- The exponent `e` with `2^e ≤ n/d < 2^(e+1)`, for positive `n` and `d`. -/
def ratExp (n d : Nat) : Int :=
  let e0 : Int := (bitLen n : Int) - bitLen d
  let ge := if 0 ≤ e0 then d * 2 ^ e0.toNat ≤ n else d ≤ n * 2 ^ (-e0).toNat
  if ge then e0 else e0 - 1

/-- Whether `n/d`, at least 2^-127 and below 2^-126, rounds to 2^-126 in 24 bits with an exponent of any size: IEEE 754's tininess after rounding (spec/11 R355). -/
def fRoundsUp (n d : Nat) : Bool := decide ((2 ^ 25 - 1) * d ≤ n * 2 ^ 151)

/-- Rounds `±n/d` (positive `n`, `d`) to binary32, nearest with ties to even. -/
def fRound (ftz neg : Bool) (n d : Nat) : Nat × FFlags :=
  let e := ratExp n d
  let q : Int := max (e - 23) (-149)
  let num := if q < 0 then n * 2 ^ (-q).toNat else n
  let den := if q < 0 then d else d * 2 ^ q.toNat
  let m := num / den
  let r := num % den
  let up := decide (den < 2 * r) || (decide (2 * r = den) && m % 2 == 1)
  let m' := if up then m + 1 else m
  let inexact := r != 0
  let (mm, qq) : Nat × Int := if m' = 2 ^ 24 then (2 ^ 23, q + 1) else (m', q)
  let bitsOut := if mm < 2 ^ 23 then mm else (qq + 150).toNat * 2 ^ 23 + (mm - 2 ^ 23)
  if 0x7F800000 ≤ bitsOut then (fInf neg, { ovf := true, nx := true })
  else
    let tiny := decide (e < -126) && !(Config.tinyAfterRounding && decide (e = -127) && fRoundsUp n d)
    if ftz && decide (mm < 2 ^ 23) then
      (signBits neg, { uf := Config.ftzSetsUnderflow, nx := Config.ftzSetsInexact })
    else (signBits neg + bitsOut, { uf := tiny && inexact, nx := inexact })

/-- `±m × 2^e` rounded to binary32, for `m` positive. -/
def fRoundDy (ftz neg : Bool) (m : Nat) (e : Int) : Nat × FFlags :=
  if 0 ≤ e then fRound ftz neg (m * 2 ^ e.toNat) 1 else fRound ftz neg m (2 ^ (-e).toNat)

/-- The signed value `x × 2^e` rounded; zero keeps the sign `zneg`. -/
def fRoundInt (ftz zneg : Bool) (x : Int) (e : Int) : Nat × FFlags :=
  if x = 0 then (signBits zneg, {}) else fRoundDy ftz (decide (x < 0)) x.natAbs e

/-- A rational rounded to binary32 (subnormals kept), for values the blocks compute. -/
def fOfRat (x : Rat) : Nat :=
  if x.num = 0 then 0 else (fRound false (decide (x.num < 0)) x.num.natAbs x.den).1

/-- The rational a finite pattern stands for; NaN and infinities give 0. -/
def fToRat (x : Nat) : Rat :=
  match fDecode x with
  | .fin neg m e =>
    let v : Rat := if 0 ≤ e then ((m * 2 ^ e.toNat : Nat) : Rat) else (m : Rat) / ((2 ^ (-e).toNat : Nat) : Rat)
    if neg then -v else v
  | _ => 0

/-- The NaN rule of spec/11 R355 over inputs in order, the deeper operand first: the first NaN quieted. -/
def fNaNOf (xs : List Nat) : Option (Nat × FFlags) :=
  match xs.find? fIsNaN with
  | some x => some (fQuiet x, { nv := xs.any fIsSNaN })
  | none => none

def sgn (neg : Bool) (m : Nat) : Int := if neg then -(m : Int) else m

/-- Two finite values over one exponent. -/
def fAlign (na : Bool) (ma : Nat) (ea : Int) (nb : Bool) (mb : Nat) (eb : Int) : Int × Int × Int :=
  let e := min ea eb
  (sgn na ma * 2 ^ (ea - e).toNat, sgn nb mb * 2 ^ (eb - e).toNat, e)

def fAdd (ftz : Bool) (a0 b0 : Nat) : Nat × FFlags :=
  match fNaNOf [a0, b0] with
  | some r => r
  | none =>
    let a := fFlushIn ftz a0; let b := fFlushIn ftz b0
    match fDecode a, fDecode b with
    | .inf x, .inf y => if x = y then (fInf x, {}) else (fNaN, { nv := true })
    | .inf x, _ => (fInf x, {})
    | _, .inf y => (fInf y, {})
    | .fin na ma ea, .fin nb mb eb =>
      let (x, y, e) := fAlign na ma ea nb mb eb
      fRoundInt ftz (na && nb) (x + y) e
    | _, _ => (fNaN, {})

def fNeg (a : Nat) : Nat := if bit a 31 then a - 2 ^ 31 else a + 2 ^ 31
def fAbs (a : Nat) : Nat := a % 2 ^ 31

/-- Subtraction; the NaN rule sees the operands as they are. -/
def fSub (ftz : Bool) (a b : Nat) : Nat × FFlags :=
  match fNaNOf [a, b] with
  | some r => r
  | none => fAdd ftz a (fNeg b)

def fMul (ftz : Bool) (a0 b0 : Nat) : Nat × FFlags :=
  match fNaNOf [a0, b0] with
  | some r => r
  | none =>
    let a := fFlushIn ftz a0; let b := fFlushIn ftz b0
    match fDecode a, fDecode b with
    | .inf x, .inf y => (fInf (x != y), {})
    | .inf x, .fin y m _ => if m = 0 then (fNaN, { nv := true }) else (fInf (x != y), {})
    | .fin x m _, .inf y => if m = 0 then (fNaN, { nv := true }) else (fInf (x != y), {})
    | .fin na ma ea, .fin nb mb eb =>
      if ma * mb = 0 then (signBits (na != nb), {}) else fRoundDy ftz (na != nb) (ma * mb) (ea + eb)
    | _, _ => (fNaN, {})

/-- `x × y + z` with one rounding. -/
def fFma (ftz : Bool) (x0 y0 z0 : Nat) : Nat × FFlags :=
  let x := fFlushIn ftz x0; let y := fFlushIn ftz y0; let z := fFlushIn ftz z0
  let infZero := (fIsInf x && fIsZero y) || (fIsZero x && fIsInf y)
  match fNaNOf [x0, y0, z0] with
  | some (r, f) => (r, { f with nv := f.nv || (infZero && Config.fmaInfZeroNanInvalid) })
  | none =>
    if infZero then (fNaN, { nv := true }) else
    let pn := fSign x != fSign y
    match fDecode x, fDecode y, fDecode z with
    | .fin _ mx ex, .fin _ my ey, .fin nz mz ez =>
      let (p, q, e) := fAlign pn (mx * my) (ex + ey) nz mz ez
      fRoundInt ftz (pn && nz) (p + q) e
    | .fin _ _ _, .fin _ _ _, .inf nz => (fInf nz, {})
    | _, _, .inf nz => if nz = pn then (fInf nz, {}) else (fNaN, { nv := true })
    | _, _, _ => (fInf pn, {})

/-- A finite or infinite value as a comparable pair: the order of the reals with −0 equal to +0. -/
def fKey (x : Nat) : Int := if fSign x then -((x % 2 ^ 31 : Nat) : Int) else ((x % 2 ^ 31 : Nat) : Int)

def fLt (a b : Nat) : Bool := decide (fKey a < fKey b)
def fEq (a b : Nat) : Bool := decide (fKey a = fKey b)

/-- Minimum or maximum; −0 is less than +0 (spec/12). -/
def fMinMax (ftz wantMax : Bool) (a0 b0 : Nat) : Nat × FFlags :=
  match fNaNOf [a0, b0] with
  | some r => r
  | none =>
    let a := fFlushIn ftz a0; let b := fFlushIn ftz b0
    let aLess := fLt a b || (fEq a b && fSign a && !fSign b)
    (if aLess != wantMax then a else b, {})

def fDiv (ftz : Bool) (a0 b0 : Nat) : Nat × FFlags :=
  match fNaNOf [a0, b0] with
  | some r => r
  | none =>
    let a := fFlushIn ftz a0; let b := fFlushIn ftz b0
    let neg := fSign a != fSign b
    match fDecode a, fDecode b with
    | .inf _, .inf _ => (fNaN, { nv := true })
    | .inf _, _ => (fInf neg, {})
    | _, .inf _ => (signBits neg, {})
    | .fin _ ma ea, .fin _ mb eb =>
      if mb = 0 then (if ma = 0 then (fNaN, { nv := true }) else (fInf neg, { dz := true }))
      else if ma = 0 then (signBits neg, {})
      else
        let e := ea - eb
        if 0 ≤ e then fRound ftz neg (ma * 2 ^ e.toNat) mb else fRound ftz neg ma (mb * 2 ^ (-e).toNat)
    | _, _ => (fNaN, {})

/-- Integer square root by bits, from bit `k` down. -/
def isqrtGo (v : Nat) : Nat → Nat → Nat
  | 0, r => r
  | k + 1, r => let r' := r + 2 ^ k; if r' * r' ≤ v then isqrtGo v k r' else isqrtGo v k r

/-- The largest `r` with `r² ≤ v`. -/
def isqrt (v : Nat) : Nat := isqrtGo v (bitLen v / 2 + 1) 0

def fSqrt (ftz : Bool) (a0 : Nat) : Nat × FFlags :=
  match fNaNOf [a0] with
  | some r => r
  | none =>
    let a := fFlushIn ftz a0
    match fDecode a with
    | .fin neg m e =>
      if m = 0 then (a, {}) else if neg then (fNaN, { nv := true }) else
      let (m2, e2) : Nat × Int := if e % 2 = 0 then (m, e) else (2 * m, e - 1)
      let v := m2 * 2 ^ 60
      let r := isqrt v
      let sticky := if r * r = v then 0 else 1
      fRoundDy ftz false (2 * r + sticky) (e2 / 2 - 31)
    | .inf neg => if neg then (fNaN, { nv := true }) else (fInf false, {})
    | .nan => (fNaN, {})

/-- `n / 2^k` rounded to the nearest integer, ties to even. -/
def rneShift (n k : Nat) : Nat :=
  let q := n / 2 ^ k; let r := n % 2 ^ k
  if 2 ^ k < 2 * r ∨ (2 * r = 2 ^ k ∧ q % 2 = 1) then q + 1 else q

/-- `±m × 2^e` rounded to an integer, ties to even, with whether it was exact. -/
def dyToInt (neg : Bool) (m : Nat) (e : Int) : Int × Bool :=
  if 0 ≤ e then (sgn neg (m * 2 ^ e.toNat), true)
  else (sgn neg (rneShift m (-e).toNat), m % 2 ^ (-e).toNat == 0)

/-- Conversion to int32 (spec/11 R355): nearest even, saturating; NaN gives 0; both set NV. -/
def fToInt (ftz : Bool) (a0 : Nat) : Nat × FFlags :=
  match fDecode (fFlushIn ftz a0) with
  | .nan => (0, { nv := true })
  | .inf neg => (if neg then 2 ^ 31 else 2 ^ 31 - 1, { nv := true })
  | .fin neg m e =>
    let (x, exact) := dyToInt neg m e
    if x < -(2 ^ 31) ∨ 2 ^ 31 - 1 < x then (if neg then 2 ^ 31 else 2 ^ 31 - 1, { nv := true })
    else (ofS 32 x, { nx := !exact })

/-- Conversion to Q1.31 (spec/12 CVTFQ): round(a × 2^31), saturated with SAT; NaN gives 0 and NV. -/
def fToQ (ftz : Bool) (a0 : Nat) : Nat × FFlags :=
  match fDecode (fFlushIn ftz a0) with
  | .nan => (0, { nv := true })
  | .inf neg => (if neg then 2 ^ 31 else 2 ^ 31 - 1, { sat := true })
  | .fin neg m e =>
    let (x, exact) := dyToInt neg m (e + 31)
    if x < -(2 ^ 31) ∨ 2 ^ 31 - 1 < x then (if neg then 2 ^ 31 else 2 ^ 31 - 1, { sat := true })
    else (ofS 32 x, { nx := !exact })

/-- The integer `x × 2^e` as binary32. -/
def fOfInt (ftz : Bool) (x : Int) (e : Int) : Nat × FFlags := fRoundInt ftz false x e

/-- The nearest integer to a rational, ties up. -/
def ratNearest (x : Rat) : Int := (x + 1 / 2).floor

end Sys2Proof.Machine
end

