-- ==== Sys2Proof/Machine/Spectral.lean ====
section
/-! DEFINITION. The real functions that the Transform Engine, the Angle Resampler and generated samples use, as rationals close to them; complex sums, windows and transforms (spec/07 R207–R212). What a unit's rounding adds to them is a free error where the spec bounds or leaves it. -/

namespace Sys2Proof.Machine

/-- π to 60 decimal places. -/
def piRat : Rat := 3141592653589793238462643383279502884197169399375105820974944 / 1000000000000000000000000000000000000000000000000000000000000

/-- `x` cut to a multiple of 2^-n. -/
def cutRat (n : Nat) (x : Rat) : Rat := ((x * (2 ^ n : Nat)).floor : Rat) / (2 ^ n : Nat)

/-- sin(2πx) for a fraction of a turn in 2^-64, scaled by 2^62: a Taylor sum to the 21st power over the first quadrant. -/
def sineScaled (frac : Nat) : Int :=
  let q := frac / 2 ^ 62 % 4
  let r0 := frac % 2 ^ 62
  let r := if q % 2 = 1 then 2 ^ 62 - r0 else r0
  -- angle in radians × 2^62: r/2^64 turns × 2π
  let x : Int := ((r * 28976077832308491370) / 2 ^ 64 : Nat)
  let x2 := x * x / 2 ^ 62
  let (sum, _) := (List.range 11).foldl (fun (acc : Int × Int) (i : Nat) =>
    let term := acc.2
    let n : Int := (2 * i + 2 : Nat)
    (acc.1 + term, -(term * x2 / 2 ^ 62) / (n * (n + 1)))) (0, x)
  if 2 ≤ q then -sum else sum

/-- The sine and cosine of an angle in turns. -/
def sinTurn (x : Rat) : Rat := (sineScaled (((x - x.floor) * 2 ^ 64).floor.toNat % 2 ^ 64) : Rat) / 2 ^ 62
def cosTurn (x : Rat) : Rat := sinTurn (x + 1 / 4)

/-- √x to 2^-100 of itself, for x ≥ 0. -/
def sqrtRat (x : Rat) : Rat :=
  if x ≤ 0 then 0 else
  let n := x.num.toNat * x.den * 4 ^ 200
  (isqrt n : Rat) / ((x.den * 2 ^ 200 : Nat) : Rat)

/-- Sums `n` terms of a series from the first, each next term by `next`. -/
def series (n : Nat) (first : Rat) (next : Nat → Rat → Rat) : Rat :=
  ((List.range n).foldl (fun (a : Rat × Rat) i => (a.1 + a.2, cutRat 192 (next i a.2))) (0, first)).1

/-- 2 · artanh y for |y| ≤ 1/3. -/
def artanh2 (y : Rat) : Rat :=
  let y2 := cutRat 192 (y * y)
  2 * ((List.range 64).foldl (fun (a : Rat × Rat) i => (a.1 + a.2 / ((2 * i + 1 : Nat) : Rat), cutRat 192 (a.2 * y2))) (0, y)).1

/-- The natural logarithm of x > 0. -/
def lnRat (x : Rat) : Rat :=
  let e : Int := (bitLen x.num.toNat : Int) - bitLen x.den
  let m : Rat := if 0 ≤ e then x / ((2 ^ e.toNat : Nat) : Rat) else x * ((2 ^ (-e).toNat : Nat) : Rat)
  artanh2 (cutRat 192 ((m - 1) / (m + 1))) + (e : Rat) * artanh2 (1 / 3)

/-- The arctangent of t, 0 ≤ t ≤ 1, in turns. -/
def atanTurn01 (t : Rat) : Rat :=
  let big := decide (2 / 5 < t)
  let y := if big then cutRat 192 ((t - 1) / (t + 1)) else t
  let y2 := cutRat 192 (y * y)
  let a := ((List.range 48).foldl (fun (a : Rat × Rat) i => (a.1 + a.2 / ((2 * i + 1 : Nat) : Rat), -cutRat 192 (a.2 * y2))) (0, y)).1
  a / (2 * piRat) + (if big then 1 / 8 else 0)

/-- The phase of a complex value in turns, −0.5 to 0.5; 0 for zero. -/
def phaseRat (re im : Rat) : Rat :=
  let a := if re < 0 then -re else re
  let b := if im < 0 then -im else im
  let q := if a = 0 ∧ b = 0 then 0 else if b ≤ a then atanTurn01 (b / a) else 1 / 4 - atanTurn01 (a / b)
  let h := if re < 0 then 1 / 2 - q else q
  if im < 0 then -h else h

def absRat (x : Rat) : Rat := if x < 0 then -x else x

/-- An open error held within a bound. -/
def clampAbs (b x : Rat) : Rat := if x < -b then -b else if b < x then b else x

/-- The phase of an entry in turns as binary32 (spec/07 R210, spec/08 R242): the arctangent with its unit's open error, at most 2^-20 of it, the pointwise bound of spec/07 R227 (log entry 21), held from −0.5 to 0.5; a word that is no number gives an open value. -/
def phaseTurns (re im : Nat) : Nat :=
  if fIsFinite re && fIsFinite im then
    let p := phaseRat (fToRat re) (fToRat im)
    let x := p + clampAbs (absRat p / 2 ^ 20) (Config.phaseError re im)
    fOfRat (if x < -1 / 2 then -1 / 2 else if 1 / 2 < x then 1 / 2 else x)
  else (Config.phaseTurns re im).toNat

/-- The modified Bessel function I0 at argument z, given z²/4. -/
def bessel0 (q : Rat) : Rat := series 120 1 fun i t => t * q / (((i + 1) * (i + 1) : Nat) : Rat)

/-- The Kaiser window of parameter β at x, −1 ≤ x ≤ 1: I0(β√(1 − x²)) / I0(β). -/
def kaiser (beta x : Rat) : Rat := cutRat 128 (bessel0 (beta * beta / 4 * (1 - x * x)) / bessel0 (beta * beta / 4))

/-! Complex numbers, windows, transforms. -/

/-- A complex number. -/
structure Cx where
  re : Rat := 0
  im : Rat := 0
  deriving DecidableEq, Repr

def Cx.add (a b : Cx) : Cx := ⟨a.re + b.re, a.im + b.im⟩
def Cx.mul (a b : Cx) : Cx := ⟨a.re * b.re - a.im * b.im, a.re * b.im + a.im * b.re⟩
def Cx.conj (a : Cx) : Cx := ⟨a.re, -a.im⟩
def Cx.scale (r : Rat) (a : Cx) : Cx := ⟨r * a.re, r * a.im⟩
def Cx.norm2 (a : Cx) : Rat := a.re * a.re + a.im * a.im

/-- e^(2πix). -/
def Cx.turn (x : Rat) : Cx := ⟨cosTurn x, sinTurn x⟩

/-- A free error from −1 to 1, from one 32-bit half of an open value. -/
def unitError (v : Nat) : Rat := ((v % 2 ^ 32 : Nat) : Rat) / 2 ^ 31 - 1

def sumRat (l : List Rat) : Rat := l.foldl (· + ·) 0
def absCx (z : Cx) : Rat := sqrtRat z.norm2
def sumCx (l : List Cx) : Cx := l.foldl Cx.add {}

/-- A value scaled so that its magnitude lies between two bounds. -/
def holdMag (lo hi : Rat) (z : Cx) : Cx :=
  let m := absCx z
  if m = 0 then ⟨lo, 0⟩ else if m < lo then z.scale (lo / m) else if hi < m then z.scale (hi / m) else z

/-! The sum-check (spec/07 R226–R228). -/

/-- One checked stage: |C_in − C_out|, S, τ, the length, and whether every output is a finite binary32. -/
structure StageChk where
  diff : Rat
  mag : Rat
  tau : Rat
  len : Nat
  finite : Bool
  deriving DecidableEq, Repr

/-- τ_used at a SHIFT: at most 2^-12. -/
def tauUsed (tau : Rat) (shift : Int) : Rat :=
  let x : Rat := if 0 ≤ shift then tau * (2 ^ shift.toNat : Nat) else tau / (2 ^ (-shift).toNat : Nat)
  if x < 1 / 2 ^ 12 then x else 1 / 2 ^ 12

/-- A stage passes when its sums agree within τ_used × S + L × 2^-126 and its outputs are finite. -/
def StageChk.passes (q : StageChk) (shift : Int) : Bool :=
  q.finite && decide (q.diff ≤ tauUsed q.tau shift * q.mag + (q.len : Rat) / (2 ^ 126 : Nat))

/-- |C_in − C_out| / (τ × S); 0 where S is 0. -/
def StageChk.ratio (q : StageChk) : Rat := if q.mag = 0 then 0 else q.diff / (q.tau * q.mag)

/-- The angle π(1 ∓ 2n) / 2L of an input weight, in turns: forward, or inverse where the conjugate ω takes the other sign. -/
def checkAngle (inv : Bool) (l n : Nat) : Rat := (if inv then 1 + 2 * (n : Rat) else 1 - 2 * (n : Rat)) / (4 * (l : Rat))

/-- Input weight v_n = 1 + i cot, and output weight u_k = e^(iπk/L). -/
def checkV (inv : Bool) (l n : Nat) : Cx := let x := checkAngle inv l n; ⟨1, cosTurn x / sinTurn x⟩
def checkU (l k : Nat) : Cx := Cx.turn ((k : Rat) / (2 * (l : Rat)))

/-- S of a transform: Σ |v_n| |a_n|, with |v_n| = 1 / |sin|. -/
def checkS (inv : Bool) (xs : List Cx) : Rat :=
  sumRat (xs.zipIdx.map fun q => absCx q.1 / absRat (sinTurn (checkAngle inv xs.length q.2)))

/-- The transform of length L of `xs` (spec/07, Operations): Σ x_n e^(∓2πi nk/L), forward or inverse, with its check. The rounding of the outputs is free but for the spec's bound: its weighted sum is at most (log2 L + 1) × 2^-23 × S, and no output errs by more (log entry 22). `half`: a real transform, whose other half is the conjugate. -/
def dft (inv half : Bool) (err : Nat → BitVec 64) (xs : List Cx) : List Cx × StageChk :=
  let l := xs.length
  let s := checkS inv xs
  let b : Rat := ((Nat.log2 l + 1 : Nat) : Rat) / 2 ^ 23 * s
  let e0 := fun (k : Nat) => (⟨b * unitError (err k).toNat, b * unitError ((err k).toNat / 2 ^ 32)⟩ : Cx)
  let e := (List.range l).map fun k =>
    if !half then e0 k else if k = 0 ∨ 2 * k = l then (⟨(e0 k).re, 0⟩ : Cx) else if 2 * k < l then e0 k else (e0 (l - k)).conj
  let w := absCx (sumCx (e.zipIdx.map fun q => (checkU l q.2).mul q.1))
  let g : Rat := if b < w then b / w else 1
  let ys := e.zipIdx.map fun q =>
    (sumCx (xs.zipIdx.map fun p =>
      let ph : Rat := ((p.2 * q.2 % l : Nat) : Rat) / (l : Rat)
      p.1.mul (Cx.turn (if inv then ph else -ph)))).add (q.1.scale g)
  let cin := sumCx (xs.zipIdx.map fun q => (checkV inv l q.2).mul q.1)
  let cout := sumCx (ys.zipIdx.map fun q => (checkU l q.2).mul q.1)
  (ys, ⟨absCx (cin.add (cout.scale (-1))), s, ((Nat.log2 l + 2 : Nat) : Rat) / 2 ^ 21, l,
    ys.all fun z => fIsFinite (fOfRat z.re) && fIsFinite (fOfRat z.im)⟩)

/-- The check of a pointwise stage: the exact values against the engine's binary32 words, with unit weights. -/
def pointCheck (vals : List Rat) (words : List Nat) : StageChk :=
  let out := words.map fToRat
  ⟨absRat (sumRat vals - sumRat out), sumRat (out.map absRat), 1 / 2 ^ 20, words.length, words.all fIsFinite⟩

/-- A value that the datapath writes into working memory as a binary32 word: one that is representable as it is, any other with a free error within 2^-21 of it, rounded (log entry 22). -/
def datapathWord (v : Rat) (e : Nat) : Nat :=
  let w := fOfRat v
  if fIsFinite w && fToRat w == v then w else fOfRat (v + absRat v / 2 ^ 21 * unitError e)

/-- A pointwise stage: the exact values of its elements give the engine's, with the stage's check (spec/07 R226). -/
def pointStage (err : Nat → Nat) (vals : List Rat) : List Rat × StageChk :=
  let words := vals.zipIdx.map fun q => datapathWord q.1 (err q.2)
  (words.map fToRat, pointCheck vals words)

/-- A pointwise stage of complex elements. -/
def pointStageCx (err : Nat → Nat) (vals : List Cx) : List Cx × StageChk :=
  let (re, im) := (vals.map Cx.re, vals.map Cx.im)
  let words := (re ++ im).zipIdx.map fun q => datapathWord q.1 (err q.2)
  let out := words.map fToRat
  (((out.take vals.length).zip (out.drop vals.length)).map fun q => ⟨q.1, q.2⟩, pointCheck (re ++ im) words)

/-- The cosine windows' coefficients (spec/07 R211). -/
def winCoef (win : Nat) : List Rat :=
  match win with
  | 1 => [1 / 2, 1 / 2]
  | 2 => [54 / 100, 46 / 100]
  | 3 => [21557895 / 100000000, 41663158 / 100000000, 277263158 / 1000000000, 83578947 / 1000000000, 6947368 / 1000000000]
  | 4 => [35875 / 100000, 48829 / 100000, 14128 / 100000, 1168 / 100000]
  | _ => [1]

/-- Window value n of N (spec/07 R211): a cosine sum, Kaiser with β from BETA (quarters), or the user table interpolated, periodic beyond its last entry (log entry 22). -/
def winValue (win beta : Nat) (uw : List Rat) (n len : Nat) : Rat :=
  match win with
  | 5 => kaiser ((beta : Rat) / 4) (2 * (n : Rat) / (len : Rat) - 1)
  | 6 =>
    let p : Rat := 4096 * (n : Rat) / (len : Rat)
    let i := p.floor.toNat
    let a := uw.getD (i % 4096) 0
    a + (p - p.floor) * (uw.getD ((i + 1) % 4096) 0 - a)
  | _ => (winCoef win).zipIdx.foldl (fun (a : Rat) q =>
      a + (if q.2 = 0 then q.1 else (if q.2 % 2 = 0 then q.1 else -q.1) * cosTurn ((q.2 * n : Nat) / (len : Rat)))) 0

def winValues (win beta : Nat) (uw : List Rat) (len : Nat) : List Rat := (List.range len).map fun n => winValue win beta uw n len


/-- Kaiser window value of the resampler's filter at |τ| taps from its centre (spec/06 R184): β = 12.3, 4,096 stored phases a tap, linear between phases, 1 / I0(β) at the edge, 0 beyond 64 taps. -/
def arsWindow (tau : Rat) : Rat :=
  let p := absRat tau * 4096
  if 64 * 4096 < p then 0 else
  let at_ := fun (i : Nat) => kaiser (123 / 10) ((i : Rat) / (64 * 4096))
  let i := p.floor.toNat
  let a := at_ i
  if p = p.floor then a else a + (p - p.floor) * (at_ (i + 1) - a)

/-- The coefficient h of the resampler's filter (spec/06 R184), binary32, with the coefficient unit's open error: at most 2^-25 of the coefficient and 2^-31, so that over 128 taps R185's attenuation holds (DESIGN CHOICE, log entry 20). -/
def arsCoef (gamma tau : Rat) : Nat :=
  let sinc2 := if tau = 0 then 2 * gamma else sinTurn (gamma * tau) / (piRat * tau)
  let v := arsWindow tau * sinc2
  fOfRat (v + clampAbs (absRat v / 2 ^ 25 + 1 / 2 ^ 31) (Config.arsCoefError gamma tau))

end Sys2Proof.Machine
end

