-- ==== Sys2Proof/Machine/Sparse.lean ====
section
/-! DEFINITION. Maps from numbers that hold a default almost everywhere, as sorted lists of the entries that differ from it. Memory, registers and the per-instance records of State are held this way, so equal contents are equal data. -/

namespace Sys2Proof.Machine

/-- What the map `m` over the defaults `d` holds at `k`: the list is looked through as far as keys below `k` reach. -/
def sget {α : Type} (d : Nat → α) : List (Nat × α) → Nat → α
  | [], k => d k
  | (j, v) :: m, k => if j = k then v else if k < j then d k else sget d m k

/-- The map with `v` at `k`; a value equal to the default removes the entry (with it any that, out of order, would show in its place). -/
def sput {α : Type} [DecidableEq α] (d : Nat → α) (k : Nat) (v : α) : List (Nat × α) → List (Nat × α)
  | [] => if v = d k then [] else [(k, v)]
  | (j, w) :: m =>
    if k < j then (if v = d k then (j, w) :: m else (k, v) :: (j, w) :: m)
    else if k = j then (if v = d k then m.dropWhile (fun e => decide (e.1 ≤ k)) else (k, v) :: m)
    else (j, w) :: sput d k v m

/-- Every key of the map lies above `lo`, keys rise, and no entry is a default. -/
def swfAbove {α : Type} [DecidableEq α] (d : Nat → α) : Nat → List (Nat × α) → Bool
  | _, [] => true
  | lo, (k, v) :: m => decide (lo ≤ k) && decide (v ≠ d k) && swfAbove d (k + 1) m

/-- The canonical form of a map: rising keys, no entry equal to its default. -/
def swf {α : Type} [DecidableEq α] (d : Nat → α) (m : List (Nat × α)) : Bool := swfAbove d 0 m

/-- The map without its entries from `a` to `b - 1`: those read as their defaults again. -/
def sclear {α : Type} (m : List (Nat × α)) (a b : Nat) : List (Nat × α) :=
  m.filter fun e => !(decide (a ≤ e.1) && decide (e.1 < b))

/-- The map with its value at `k` changed by `f`. -/
def supd {α : Type} [DecidableEq α] (d : Nat → α) (k : Nat) (f : α → α) (m : List (Nat × α)) : List (Nat × α) :=
  sput d k (f (sget d m k)) m

end Sys2Proof.Machine
end

