-- ==== Sys2Proof/Machine/RegTypes.lean ====
section
/-! DEFINITION. What a register table is made of: access codes, legal values, fields and words (spec/00_scope.md R7–R10, spec/02 R46), and the page directory (spec/02 R52). -/

namespace Sys2Proof.Machine

/-- The access codes of spec/00_scope.md R9. -/
inductive Acc where
  | rw | ro | wo | w1c | w1s | rc | rwl
  deriving DecidableEq, Repr

/-- The legal values of a field and where an illegal one is clamped (spec/02 R46). -/
inductive Legal where
  /-- Every value of the field's width is legal. -/
  | any
  /-- A numeric field from `lo` to `hi`: the nearest legal value. -/
  | range (lo hi : Nat)
  /-- An enumerated field: a code not listed takes `target`. -/
  | codes (ok : List Nat) (target : Nat)
  /-- A numeric field with listed values: the nearest, the lower of two equally near. -/
  | near (ok : List Nat)
  deriving DecidableEq, Repr

/-- The value the field takes for a written `v`. -/
def Legal.clamp (l : Legal) (v : Nat) : Nat :=
  match l with
  | .any => v
  | .range lo hi => clampTo lo hi v
  | .codes ok t => if v ∈ ok then v else t
  | .near ok => nearest ok v

/-- One field of a register word: bits `hi:lo`, access, reset value, legal values. -/
structure Fld where
  name : String
  hi : Nat
  lo : Nat
  acc : Acc
  reset : Nat := 0
  legal : Legal := .any
  deriving DecidableEq, Repr

/-- One 32-bit word of a page: its offset and its fields. -/
structure RegWord where
  off : Nat
  flds : List Fld
  deriving DecidableEq, Repr

/-- A whole 32-bit word as one field. -/
def w32 (off : Nat) (name : String) (acc : Acc) (reset : Nat := 0) (legal : Legal := .any) : RegWord :=
  ⟨off, [⟨name, 31, 0, acc, reset, legal⟩]⟩

/-- The two words of a 64-bit register, the low word first (spec/02 R34). -/
def w64 (off : Nat) (name : String) (acc : Acc) (reset : Nat := 0) : List RegWord :=
  [⟨off, [⟨name, 31, 0, acc, lo32 reset, .any⟩]⟩, ⟨off + 4, [⟨name, 31, 0, acc, hi32 reset, .any⟩]⟩]

/-- The words of a window of `n` words from `off`, all of one access. -/
def wWin (off n : Nat) (name : String) (acc : Acc) : List RegWord :=
  (List.range n).map fun i => w32 (off + 4 * i) name acc

/-- The kinds of page of the page directory (spec/02 R52): one per class and sub-code, the watchdog, self-test and ECC pages apart. -/
inductive Kind where
  | bcp | pwr | wdgB | bistM | eccD | xng
  | clu | ars | tfe | frd | wpt | wdgC | eccC | bistC
  | tile | wdgT | pmc | eccT
  | spt | trk | trkIn | str | strT | rope | ropeL | team | sout | soutD
  deriving DecidableEq, Repr

/-- PAGE_ID.CLASS and SUB of a page (spec/02 R52). -/
def Kind.code (k : Kind) (inst : Nat) : Nat × Nat :=
  match k with
  | .bcp => (0x12, 0) | .pwr => (0x13, 0) | .wdgB => (0x0D, 2) | .bistM => (0x0F, 1) | .eccD => (0x10, 2)
  | .xng => (0x11, 0) | .clu => (0x02, 0) | .ars => (0x03, 0) | .tfe => (0x04, 0) | .frd => (0x05, 0)
  | .wpt => (0x06, inst % 2) | .wdgC => (0x0D, 1) | .eccC => (0x10, 1) | .bistC => (0x0F, 0)
  | .tile => (0x01, 0) | .wdgT => (0x0D, 0) | .pmc => (0x0E, 0) | .eccT => (0x10, 0)
  | .spt => (0x08, 0) | .trk => (0x07, 0) | .trkIn => (0x07, 1) | .str => (0x09, 0) | .strT => (0x09, 1)
  | .rope => (0x0A, 0) | .ropeL => (0x0A, 1) | .team => (0x0B, 0) | .sout => (0x0C, 0) | .soutD => (0x0C, 1)

/-- The instance number a page reports in PAGE_ID; a waypoint page reports its cluster (spec/02 R52). -/
def Kind.idInstance (k : Kind) (inst : Nat) : Nat :=
  match k with
  | .wpt => inst / 2
  | _ => inst

/-- The owner class of a page (spec/02 R50, R52). -/
def Kind.owner (k : Kind) : Nat :=
  match k with
  | .bcp | .pwr => 0x03
  | .wdgB | .wdgC | .wdgT | .tile | .str | .strT | .sout | .soutD => 0x02
  | _ => 0x01

/-- The page that stands at page index `i`, with its instance; waypoint pages count 2c + SUB (spec/02 R52). -/
def pageAt (i : Nat) : Option (Kind × Nat) :=
  if i < 0x10 then some (.bcp, i)
  else if i < 0x14 then some (.pwr, i - 0x10)
  else if i = 0x14 then some (.wdgB, 0)
  else if i = 0x15 then some (.bistM, 0)
  else if i = 0x16 then some (.eccD, 0)
  else if 0x18 ≤ i ∧ i < 0x1F then some (.xng, i - 0x18)
  else if 0x100 ≤ i ∧ i < 0x200 then
    let c := (i - 0x100) / 16
    match i % 16 with
    | 0 => some (.clu, c) | 1 => some (.ars, c) | 2 => some (.tfe, c) | 3 => some (.frd, c)
    | 4 => some (.wpt, 2 * c) | 5 => some (.wpt, 2 * c + 1) | 6 => some (.wdgC, c)
    | 7 => some (.eccC, c) | 8 => some (.bistC, c) | _ => none
  else if 0x200 ≤ i ∧ i < 0x400 then
    let t := (i - 0x200) / 4
    match i % 4 with
    | 0 => some (.tile, t) | 1 => some (.wdgT, t) | 2 => some (.pmc, t) | _ => some (.eccT, t)
  else if 0x400 ≤ i ∧ i < 0x600 then some (.spt, i - 0x400)
  else if 0x600 ≤ i ∧ i < 0x640 then some (.trk, i - 0x600)
  else if 0x640 ≤ i ∧ i < 0x680 then some (.trkIn, i - 0x640)
  else if i = 0x700 then some (.str, 0)
  else if 0x701 ≤ i ∧ i < 0x781 then some (.strT, i - 0x701)
  else if 0x800 ≤ i ∧ i < 0x810 then some (.rope, i - 0x800)
  else if i = 0x810 then some (.ropeL, 0)
  else if 0x820 ≤ i ∧ i < 0x840 then some (.team, i - 0x820)
  else if 0x900 ≤ i ∧ i < 0x940 then some (.sout, i - 0x900)
  else if 0x940 ≤ i ∧ i < 0x942 then some (.soutD, i - 0x940)
  else none

/-- Page indices by block, as the page directory places them (spec/02 R52). -/
def pgBcp (i : Nat) : Nat := i
def pgPwr (i : Nat) : Nat := 0x10 + i
def pgWdgB : Nat := 0x14
def pgBistM : Nat := 0x15
def pgEccD : Nat := 0x16
def pgXng (i : Nat) : Nat := 0x18 + i
def pgClu (c : Nat) : Nat := 0x100 + 16 * c
def pgArs (c : Nat) : Nat := 0x101 + 16 * c
def pgTfe (c : Nat) : Nat := 0x102 + 16 * c
def pgFrd (c : Nat) : Nat := 0x103 + 16 * c
/-- The waypoint page of unit `u` (0 to 127) of cluster `c`. -/
def pgWpt (c u : Nat) : Nat := 0x104 + 16 * c + u / 64
def pgWdgC (c : Nat) : Nat := 0x106 + 16 * c
def pgEccC (c : Nat) : Nat := 0x107 + 16 * c
def pgBistC (c : Nat) : Nat := 0x108 + 16 * c
def pgTile (t : Nat) : Nat := 0x200 + 4 * t
def pgWdgT (t : Nat) : Nat := 0x201 + 4 * t
def pgPmc (t : Nat) : Nat := 0x202 + 4 * t
def pgEccT (t : Nat) : Nat := 0x203 + 4 * t
def pgSpt (p : Nat) : Nat := 0x400 + p
def pgTrk (k : Nat) : Nat := 0x600 + k
def pgTrkIn (n : Nat) : Nat := 0x640 + n
def pgStr : Nat := 0x700
/-- The stream table page of entry `e`. -/
def pgStrT (e : Nat) : Nat := 0x701 + e / 32
def pgRope (r : Nat) : Nat := 0x800 + r
def pgRopeL : Nat := 0x810
def pgTeam (i : Nat) : Nat := 0x820 + i
def pgSout (o : Nat) : Nat := 0x900 + o
def pgSoutD (d : Nat) : Nat := 0x940 + d

/-- The header offsets (spec/02 R38). -/
def oStatus : Nat := 0x008
def oCtrl : Nat := 0x00C
def oIntStatus : Nat := 0x010
def oIntEnable : Nat := 0x014
def oClamp : Nat := 0x018
def oErr : Nat := 0x01C
def oIntRoute : Nat := 0x024

/-- Whether PAGE_CTRL.ENABLE resets to 1: watchdog pages, stream table pages and the page of track 0 (spec/02 R38). -/
def enableReset (k : Kind) (inst : Nat) : Nat :=
  match k with
  | .wdgB | .wdgC | .wdgT | .strT => 1
  | .trk => if inst = 0 then 1 else 0
  | _ => 0

/-- The header words of a page (spec/02 R38). -/
def headerRegs (k : Kind) (inst : Nat) : List RegWord :=
  [ ⟨0x000, [⟨"CLASS", 31, 24, .ro, (k.code inst).1, .any⟩, ⟨"SUB", 23, 16, .ro, (k.code inst).2, .any⟩,
             ⟨"INSTANCE", 15, 0, .ro, k.idInstance inst, .any⟩]⟩,
    ⟨0x004, [⟨"MAJOR", 15, 8, .ro, 1, .any⟩, ⟨"MINOR", 7, 0, .ro, 0, .any⟩]⟩,
    ⟨0x008, [⟨"FAULT_CODE", 15, 8, .ro, 0, .any⟩, ⟨"RETIRED", 3, 3, .ro, 0, .any⟩, ⟨"FAULT", 2, 2, .ro, 0, .any⟩,
             ⟨"BUSY", 1, 1, .ro, 0, .any⟩, ⟨"READY", 0, 0, .ro, 0, .any⟩]⟩,
    ⟨0x00C, [⟨"RESET", 2, 2, .wo, 0, .any⟩, ⟨"LOCK", 1, 1, .w1s, 0, .any⟩, ⟨"ENABLE", 0, 0, .rwl, enableReset k inst, .any⟩]⟩,
    ⟨0x010, [⟨"BLOCK", 31, 16, .w1c, 0, .any⟩, ⟨"CAUSES", 4, 0, .w1c, 0, .any⟩]⟩,
    ⟨0x014, [⟨"EN", 31, 16, .rw, 0, .any⟩, ⟨"EN", 4, 0, .rw, 0, .any⟩]⟩,
    ⟨0x018, [⟨"COUNT", 31, 16, .rc, 0, .any⟩, ⟨"LAST_KIND", 13, 12, .ro, 0, .any⟩, ⟨"LAST_OFFSET", 11, 0, .ro, 0, .any⟩]⟩,
    ⟨0x01C, [⟨"CORR", 31, 16, .rc, 0, .any⟩, ⟨"UNCORR", 15, 8, .rc, 0, .any⟩, ⟨"POISON", 7, 0, .rc, 0, .any⟩]⟩,
    ⟨0x020, [⟨"CLASS", 7, 0, .ro, k.owner, .any⟩]⟩,
    ⟨0x024, [⟨"TARGET", 7, 0, .rw, 0xFF, .codes (List.range 128 ++ [0xFF]) 0xFF⟩]⟩ ]

/-- What a field of reset value `r` at bits `hi:lo` gives the word's reset value. -/
def Fld.resetBits (f : Fld) : Nat := (f.reset % 2 ^ (f.hi + 1 - f.lo)) <<< f.lo

/-- The reset value of a word. -/
def resetOf (fs : List Fld) : Nat := fs.foldl (fun a f => a + f.resetBits) 0

/-- The fields of the word at `off` in a list of words, when there is one. -/
def findWord (l : List RegWord) (off : Nat) : Option (List Fld) :=
  (l.find? fun w => w.off == off).map (·.flds)

end Sys2Proof.Machine
end

