-- ==== Sys2Proof/Machine/RegTable.lean ====
section
/-! DEFINITION. The registers of every page, from the register tables of the section files: offsets, fields, access, reset values and legal values. Clamps that look at other registers stand with the block they belong to. -/

namespace Sys2Proof.Machine

/-- BCP pages 0–7 (spec/20). The page instance selects the registers. -/
def regsBcp (i : Nat) : List RegWord :=
  match i with
  | 0 => w64 0x040 "BCP_SERIAL" .ro ++ [w32 0x048 "BCP_HWREV" .ro, w32 0x04C "BCP_BOOT" .ro] ++ w64 0x050 "BCP_GEN" .ro ++
      [⟨0x058, [⟨"FORERUNNER", 0, 0, .rw, 0, .any⟩]⟩, ⟨0x05C, [⟨"RESTART", 0, 0, .wo, 0, .any⟩]⟩] ++
      w64 0x060 "BCP_UPTIME" .ro ++ [w32 0x068 "BCP_SRAM_LAP" .ro]
  | 1 => [w32 0x040 "BCP_LOG_HEAD" .ro, w32 0x044 "BCP_LOG_OLDEST" .ro,
      ⟨0x048, [⟨"PENDING", 31, 24, .ro, 0, .any⟩, ⟨"LOST", 23, 16, .rc, 0, .any⟩, ⟨"MINSEV", 1, 0, .rw, 0, .any⟩]⟩,
      w32 0x04C "BCP_LOG_SEL" .rw] ++ wWin 0x060 8 "BCP_LOG_REC" .ro
  | 2 => [⟨0x040, [⟨"DHCP", 31, 31, .rw, 1, .any⟩, ⟨"SVC_LOCK", 30, 30, .w1s, 0, .any⟩, ⟨"PREFIX", 5, 0, .rw, 0, .range 8 30⟩]⟩,
      w32 0x044 "BCP_NET_IP" .rw, w32 0x048 "BCP_NET_GW" .rw, w32 0x04C "BCP_NET_STAT" .ro] ++
      w64 0x050 "BCP_NET_MAC" .ro ++ [⟨0x058, [⟨"DROPS", 31, 16, .rc, 0, .any⟩, ⟨"BLOCKS", 15, 0, .rc, 0, .any⟩]⟩]
  | 3 => [⟨0x040, [⟨"EN", 31, 31, .rw, 1, .any⟩, ⟨"MASTER", 30, 30, .rw, 0, .any⟩, ⟨"DOMAIN", 15, 8, .rw, 0, .any⟩,
        ⟨"PRIORITY1", 7, 0, .rw, 0, .any⟩]⟩,
      w32 0x044 "BCP_PTP_STAT" .ro, w32 0x048 "BCP_PTP_OFS" .ro, w32 0x04C "BCP_PTP_STEPS" .rc]
  | 4 => [w32 0x040 "BCP_UPD_STAT" .ro, w32 0x044 "BCP_BANKA" .ro 0xA0000000, w32 0x048 "BCP_BANKB" .ro] ++
      w64 0x050 "BCP_GEN_A" .ro ++ w64 0x058 "BCP_GEN_B" .ro ++ w64 0x060 "BCP_MIN_GEN" .ro ++
      [⟨0x068, [⟨"OP", 31, 30, .wo, 0, .any⟩]⟩,
       ⟨0x06C, [⟨"OP", 31, 30, .wo, 0, .any⟩, ⟨"SECTION", 15, 8, .wo, 0, .any⟩, ⟨"TILE", 6, 0, .wo, 0, .any⟩]⟩,
       w32 0x070 "BCP_TUPD_STAT" .ro]
  | 5 => [⟨0x040, [⟨"OP", 31, 30, .wo, 0, .any⟩]⟩, w32 0x044 "BCP_BIV_STAT" .ro,
      ⟨0x048, [⟨"EN", 31, 31, .rw, 0, .any⟩, ⟨"INPUT", 21, 16, .rw, 0, .any⟩, ⟨"LEVEL", 15, 15, .rw, 0, .any⟩]⟩] ++
      wWin 0x050 4 "BCP_BIV_TILE" .rw ++ wWin 0x060 8 "BCP_BIV_BANK" .rw
  | 6 => w64 0x040 "BCP_CFG_GEN" .ro ++ [w32 0x048 "BCP_CFG_USED" .ro]
  | 7 => [⟨0x040, [⟨"SLOT", 2, 0, .rw, 0, .any⟩]⟩,
      ⟨0x044, [⟨"UPD", 8, 8, .rw, 0, .any⟩, ⟨"RIGHT", 2, 0, .rw, 0, .codes [0, 1, 2, 3, 4] 0⟩]⟩,
      w32 0x048 "BCP_SIGKEYS" .ro 1] ++ wWin 0x060 8 "BCP_KEY_DATA" .wo
  | _ => []

/-- PWR pages (spec/20, spec/21 R569). -/
def regsPwr (i : Nat) : List RegWord :=
  match i with
  | 0 => [w32 0x040 "PWR_FEED_A" .ro, w32 0x044 "PWR_FEED_B" .ro, w32 0x048 "PWR_IN" .ro, w32 0x04C "PWR_HOLD" .ro,
      w32 0x050 "PWR_STAT" .ro, ⟨0x054, [⟨"PFAIL", 31, 16, .rc, 0, .any⟩, ⟨"FEED_LOSSES", 15, 0, .rc, 0, .any⟩]⟩]
  | 1 => [w32 0x040 "PWR_SPWR" .ro, w32 0x044 "PWR_SPWR_P" .ro]
  | 2 => wWin 0x100 32 "PWR_RAIL" .ro
  | 3 => [⟨0x040, [⟨"WARN", 31, 16, .rw, 0x03E8, .any⟩, ⟨"CRIT", 15, 0, .rw, 0x0474, .any⟩]⟩] ++ wWin 0x100 52 "PWR_TEMP" .ro
  | _ => []

/-- Watchdog pages (spec/16); WSTATE resets to 5 on the tile pages, SUB 0. -/
def regsWdg (tilePage : Bool) (cluster : Bool := false) : List RegWord :=
  [⟨0x040, [⟨"ACT", 31, 31, .rwl, 0, .any⟩, ⟨"HARD", 9, 0, .rwl, 100, .range 10 1000⟩] ++
     (if cluster then [⟨"TILE", 26, 24, .rwl, 0, .any⟩] else [])⟩,
   ⟨0x044, [⟨"WDG_CLOSED", 23, 0, .rwl, 0, .any⟩]⟩, ⟨0x048, [⟨"WDG_OPEN", 23, 0, .rwl, 100000, .range 10 16777215⟩]⟩,
   ⟨0x04C, [⟨"WDG_TASKS", 15, 0, .rwl, 0, .any⟩]⟩, ⟨0x050, [⟨"WDG_WAKE", 23, 0, .rw, 0, .any⟩]⟩,
   ⟨0x054, [⟨"KEY", 31, 16, .wo, 0, .any⟩]⟩, ⟨0x058, [⟨"TASK", 3, 0, .wo, 0, .any⟩]⟩,
   ⟨0x05C, [⟨"WSTATE", 31, 29, .ro, if tilePage then 5 else 0, .any⟩, ⟨"CAUSE", 27, 24, .ro, 0, .any⟩, ⟨"CHECKED", 15, 0, .ro, 0, .any⟩]⟩,
   w32 0x060 "WDG_REMAIN" .ro 12500000,
   ⟨0x064, [⟨"SERVICES", 31, 16, .rc, 0, .any⟩, ⟨"FAILS", 15, 8, .rc, 0, .any⟩, ⟨"WARNS", 7, 4, .rc, 0, .any⟩, ⟨"LATE", 3, 0, .rc, 0, .any⟩]⟩]
  ++ w64 0x068 "WDG_LAST" .ro

/-- Self-test pages (spec/17): SUB 0 of a cluster, SUB 1 the module scheduler. -/
def regsBist (module : Bool) : List RegWord :=
  (if module then [⟨0x040, [⟨"EN", 31, 31, .rwl, 1, .any⟩, ⟨"LAP_H", 7, 0, .rwl, 20, .range 1 24⟩]⟩] else []) ++
  [⟨0x044, [⟨"UNIT", 31, 24, .wo, 0, if module then .codes [0, 5] 0 else .codes [0, 6, 7, 8, 9] 0⟩, ⟨"TILE", 6, 0, .wo, 0, .any⟩]⟩,
   ⟨0x048, [⟨"SHORT", 31, 31, .w1c, 0, .any⟩, ⟨"LAPOVER", 30, 30, .w1c, 0, .any⟩, ⟨"LAST_MIN", 29, 14, .ro, 0, .any⟩,
     ⟨"PROGRESS", 13, 0, .ro, 0, .any⟩]⟩] ++ w64 0x050 "BIST_PASSES" .ro ++
  [⟨0x058, [⟨"FAIL", 31, 24, .rc, 0, .any⟩, ⟨"INCOMPLETE", 23, 16, .rc, 0, .any⟩, ⟨"TRANSIENT", 15, 8, .rc, 0, .any⟩,
     ⟨"RDROP", 7, 0, .rc, 0, .any⟩]⟩] ++ w64 0x060 "BIST_RES0" .ro ++ w64 0x068 "BIST_RES1" .rc ++
  (if module then
    ((List.range 4).map fun w => [⟨0x080 + 16 * w, [⟨"BASE", 31, 12, .rw, 0, .any⟩]⟩,
      ⟨0x084 + 16 * w, [⟨"EN", 31, 31, .rw, 0, .any⟩, ⟨"BASE", 7, 0, .rw, 0, .any⟩]⟩,
      ⟨0x088 + 16 * w, [⟨"PAGES", 27, 0, .rw, 0, .any⟩]⟩, ⟨0x08C + 16 * w, []⟩]).flatten ++
    [⟨0x0C0, [⟨"OP", 31, 30, .wo, 0, .any⟩, ⟨"ENTRY", 9, 0, .wo, 0, .any⟩]⟩, w32 0x0C4 "BIST_REPAIR" .ro]
  else [])

/-- ECC pages (spec/15): SUB 0 a tile memory, 1 a cluster memory, 2 the DRAM; `n` banks or regions. -/
def regsEcc (sub : Nat) : List RegWord :=
  [⟨0x040, [⟨"SCRUB_EN", 31, 31, .rw, 1, .any⟩, ⟨"LAP_LIMIT", 15, 0, .rw, if sub = 2 then 60000 else 10, .range 1 65535⟩]⟩,
   (if sub = 1 then w32 0x044 "BANK" .rw 0xAAAAAAAA else ⟨0x044, [⟨"BANK", 1, 0, .rw, 2, .range 0 2⟩]⟩),
   (if sub = 1 then w32 0x048 "ECC_PWR_STAT" .ro 0xAAAAAAAA else w32 0x048 "ECC_PWR_STAT" .ro 2),
   ⟨0x04C, [⟨"SCRUBBING", 31, 31, .ro, 0, .any⟩, ⟨"LAPOVER", 30, 30, .w1c, 0, .any⟩, ⟨"POS", 28, 0, .ro, 0, .any⟩]⟩] ++
  w64 0x050 "ECC_LAP_CYC" .ro ++ [w32 0x058 "ECC_LAP_US" .ro, w32 0x05C "ECC_LAPS" .ro,
   ⟨0x060, [⟨"MARKED", 31, 16, .rc, 0, .any⟩, ⟨"QDROP", 15, 8, .rc, 0, .any⟩, ⟨"OFFACC", 7, 0, .rc, 0, .any⟩]⟩,
   ⟨0x064, [⟨"ARM", 31, 31, .rwl, 0, .any⟩, ⟨"WORD", 30, 28, .rwl, 0, .any⟩, ⟨"BANK", 27, 24, .rwl, 0, if sub = 2 then .range 0 7 else .any⟩,
     ⟨"SYM", 22, 16, .rwl, 0, if sub = 2 then .range 0 79 else .any⟩, ⟨"NSYM", 15, 12, .rwl, 0, if sub = 2 then .range 0 12 else .any⟩,
     ⟨"VAL", 7, 0, .rwl, 0, .any⟩]⟩] ++
  w64 0x068 "ECC_FLIP_DATA" .rwl ++ [w32 0x070 "ECC_FLIP_CHK" .rwl, ⟨0x074, [⟨"ECC_FLIP_CHK", 7, 0, .rwl, 0, .any⟩]⟩] ++
  w64 0x078 "ECC_MERGES" .ro ++
  ((List.range (if sub = 0 then 1 else if sub = 1 then 16 else 8)).map fun b =>
    ⟨0x100 + 16 * b, [⟨"CORR", 31, 16, .rc, 0, .any⟩, ⟨"UNCORR", 15, 8, .rc, 0, .any⟩, ⟨"REPEAT", 7, 0, .rc, 0, .any⟩]⟩ ::
      w64 (0x108 + 16 * b) "ECC_BK_LAST" .ro).flatten

/-- The crossings of each XNG page (spec/18 R499): how many, and the value lanes of each. -/
def xngCount (page : Nat) : Nat :=
  match page with
  | 1 => 32 | 2 => 1 | 3 => 17 | 4 => 32 | 5 => 1 | 6 => 1 | _ => 0

def xngLanes (page : Nat) : Nat :=
  match page with
  | 1 => 16 | 2 => 1 | 3 => 1 | 4 => 2 | 5 => 16 | 6 => 1 | _ => 0

def regsXng (i : Nat) : List RegWord :=
  if i = 0 then [w32 0x040 "XNG_SUMMARY" .ro] else
  ((List.range (xngCount i)).map fun n =>
    [⟨0x040 + 16 * n, [⟨"XSTATE", 31, 29, .ro, 3, .any⟩, ⟨"LANES", 28, 24, .ro, xngLanes i, .any⟩, ⟨"CAUSE", 23, 16, .ro, 0, .any⟩]⟩,
     ⟨0x044 + 16 * n, [⟨"RESYNCS", 31, 16, .rc, 0, .any⟩, ⟨"DISCARDS", 15, 0, .rc, 0, .any⟩]⟩,
     ⟨0x048 + 16 * n, [⟨"DISAGREE", 31, 16, .rc, 0, .any⟩, ⟨"SAT", 15, 8, .rc, 0, .any⟩, ⟨"DROPS", 7, 0, .rc, 0, .any⟩]⟩,
     w32 (0x04C + 16 * n) "XNG_RT" .rc]).flatten

def regsClu : List RegWord :=
  [w32 0x040 "CLU_INFO" .ro, w32 0x044 "CLU_BANKS" .ro, w32 0x048 "CLU_STALLS" .rc, w32 0x04C "CLU_LINKS" .ro, w32 0x050 "CLU_LINK_ERR" .rc]

def regsArs : List RegWord :=
  [⟨0x040, [⟨"BASE", 22, 0, .rw, 0, .any⟩]⟩, ⟨0x044, [⟨"BASE", 22, 0, .rw, 0x7F0000, .any⟩]⟩,
   ⟨0x048, [⟨"OP", 31, 28, .wo, 0, .codes [0, 1, 2, 3, 4] 0⟩, ⟨"INDEX", 8, 0, .wo, 0, .any⟩]⟩,
   ⟨0x04C, [⟨"BUSY", 31, 31, .ro, 0, .any⟩, ⟨"RESULT", 30, 28, .ro, 0, .any⟩, ⟨"LAST_OP", 27, 24, .ro, 0, .any⟩, ⟨"LAST_INDEX", 8, 0, .ro, 0, .any⟩]⟩,
   w32 0x050 "ARS_BUDGET" .ro, ⟨0x054, [⟨"PEAK", 31, 16, .rc, 0, .any⟩, ⟨"NOW", 15, 0, .ro, 0, .any⟩]⟩, w32 0x058 "ARS_COUNT" .ro,
   ⟨0x05C, [⟨"DUAL", 31, 24, .rc, 0, .any⟩, ⟨"FOREIGN", 15, 0, .rc, 0, .any⟩]⟩, w32 0x060 "ARS_LAT_MAX" .rc, w32 0x064 "ARS_DUAL_LAST" .ro] ++
  wWin 0x080 16 "ARS_VIEW_ON" .ro ++ wWin 0x0C0 16 "ARS_VIEW_EVT" .w1c

/-- `clusterXor1` is the reset value of PARTNER, the cluster number XOR 1. -/
def regsTfe (c : Nat) : List RegWord :=
  [⟨0x040, [⟨"DESC", 22, 6, .wo, 0, .any⟩]⟩, ⟨0x044, [⟨"BASE", 22, 0, .rw, 0, .any⟩]⟩, ⟨0x048, [⟨"SHIFT", 7, 0, .rwl, 0, .any⟩]⟩,
   ⟨0x04C, [⟨"PARTNER", 19, 16, .ro, c ^^^ 1, .any⟩, ⟨"HOSTING", 8, 8, .ro, 0, .any⟩, ⟨"ESTATE", 2, 0, .ro, 0, .any⟩]⟩,
   w32 0x050 "TFE_QSTAT" .ro, ⟨0x054, [⟨"PEAK", 31, 16, .rc, 0, .any⟩, ⟨"NOW", 15, 0, .ro, 0, .any⟩]⟩] ++ w64 0x058 "TFE_JOBS" .ro ++
  [⟨0x060, [⟨"FAILS", 31, 16, .rc, 0, .any⟩, ⟨"RETRY_PASS", 15, 0, .rc, 0, .any⟩]⟩, w32 0x064 "TFE_CHK_MAX" .rc, w32 0x068 "TFE_CHK_LAST" .ro,
   ⟨0x06C, [⟨"QFULL", 31, 24, .rc, 0, .any⟩, ⟨"BUSY_DESC", 23, 16, .rc, 0, .any⟩, ⟨"OVERRUN", 15, 8, .rc, 0, .any⟩, ⟨"REL_DROP", 7, 0, .rc, 0, .any⟩]⟩,
   w32 0x070 "TFE_LAT_MAX" .rc, ⟨0x074, [⟨"FAULTS", 31, 16, .rc, 0, .any⟩, ⟨"SLICES", 15, 0, .rc, 0, .any⟩]⟩]

def regsFrd : List RegWord :=
  [⟨0x040, [⟨"BASE", 22, 0, .rw, 0x700000, .any⟩]⟩, ⟨0x044, [⟨"BASE", 22, 0, .rw, 0x740000, .any⟩]⟩,
   ⟨0x048, [⟨"OP", 31, 28, .wo, 0, .codes [0, 1, 2, 3] 0⟩, ⟨"INDEX", 11, 0, .wo, 0, .any⟩]⟩,
   ⟨0x04C, [⟨"BUSY", 31, 31, .ro, 0, .any⟩, ⟨"RESULT", 30, 28, .ro, 0, .any⟩, ⟨"LAST_OP", 27, 24, .ro, 0, .any⟩, ⟨"LAST_INDEX", 11, 0, .ro, 0, .any⟩]⟩,
   ⟨0x050, [⟨"GROUP", 31, 24, .wo, 0, .any⟩, ⟨"RESULT", 22, 6, .wo, 0, .any⟩]⟩, w32 0x054 "FRD_COUNT" .ro,
   ⟨0x058, [⟨"TRIG_DROP", 31, 24, .rc, 0, .any⟩, ⟨"OVERRUN", 23, 16, .rc, 0, .any⟩, ⟨"DUAL", 15, 8, .rc, 0, .any⟩, ⟨"REC_DROP", 7, 0, .rc, 0, .any⟩]⟩,
   w32 0x05C "FRD_LAT_MAX" .rc] ++ w64 0x060 "FRD_RECS" .ro ++
  [⟨0x068, [⟨"PEAK", 31, 16, .rc, 0, .any⟩, ⟨"NOW", 15, 0, .ro, 0, .any⟩]⟩] ++
  wWin 0x200 128 "FRD_ALERT_MAP" .ro ++ wWin 0x400 128 "FRD_DANGER_MAP" .ro ++ wWin 0x600 128 "FRD_INVALID_MAP" .ro ++
  wWin 0x800 128 "FRD_CHANGE_MAP" .w1c ++ wWin 0xA00 128 "FRD_SLOT_ON" .ro

/-- One waypoint unit, at offsets from its own start (spec/03). -/
def regsWptUnit : List RegWord :=
  w64 0x00 "WPT_POS" .rw ++
  [⟨0x08, [⟨"ARM", 31, 31, .rw, 0, .any⟩, ⟨"DIR", 30, 29, .rw, 0, .codes [0, 1, 2] 0⟩, ⟨"ACTION", 28, 26, .rw, 0, .codes [0, 1, 2, 3, 4, 5] 0⟩,
     ⟨"TILE", 25, 23, .rw, 0, .any⟩, ⟨"IRQ", 22, 22, .rw, 1, .any⟩, ⟨"TRACK", 5, 0, .rw, 0, .any⟩]⟩,
   w32 0x0C "WPT_ARG" .rw] ++ w64 0x10 "WPT_STEP" .rw ++
  [⟨0x18, [⟨"FIRES", 31, 16, .rc, 0, .any⟩, ⟨"MISSED", 15, 8, .rc, 0, .any⟩, ⟨"DROPPED", 3, 3, .w1c, 0, .any⟩, ⟨"LATE", 2, 2, .w1c, 0, .any⟩,
     ⟨"JUMP", 1, 1, .w1c, 0, .any⟩, ⟨"DEGRADED", 0, 0, .w1c, 0, .any⟩]⟩,
   w32 0x1C "WPT_DEADLINE" .rw]

def regsTile : List RegWord :=
  [⟨0x040, [⟨"MODE", 31, 30, .rw, 0, .any⟩, ⟨"ROLE", 29, 29, .rw, 0, .any⟩, ⟨"STEER", 28, 27, .rw, 0, .codes [0, 1, 2] 0⟩,
     ⟨"INTERVAL", 26, 16, .rw, 64, .range 16 1024⟩, ⟨"LOGCAP", 15, 5, .rw, 512, .range 128 1024⟩]⟩,
   ⟨0x044, [⟨"OFFSET", 18, 6, .rw, 0, .range 0 8189⟩]⟩,
   ⟨0x048, [⟨"SIZE", 22, 16, .rw, 16, .any⟩, ⟨"BASE", 6, 0, .rw, 112, .any⟩]⟩,
   ⟨0x04C, [⟨"CUR", 31, 30, .ro, 0, .any⟩, ⟨"SERVED", 29, 28, .ro, 0, .any⟩, ⟨"HSTATE", 27, 25, .ro, 0, .any⟩,
     ⟨"LAST_RESULT", 24, 22, .ro, 0, .any⟩, ⟨"TAKEN", 21, 21, .ro, 0, .any⟩, ⟨"FROM", 20, 14, .ro, 0, .any⟩]⟩] ++
  w64 0x050 "TILE_CAIRNS" .ro ++
  [w32 0x058 "TILE_RECOV" .rc, w32 0x05C "TILE_EARLY" .rc, w32 0x060 "TILE_LAST" .ro, w32 0x064 "TILE_CHK" .rc,
   w32 0x068 "TILE_LAT" .rc, w32 0x06C "TILE_HIGH" .rc] ++ w64 0x070 "TILE_RQ0" .ro ++ w64 0x078 "TILE_RQ1" .rc ++
  [⟨0x080, [⟨"DROPS", 31, 16, .rc, 0, .any⟩, ⟨"COUNT", 5, 0, .ro, 0, .any⟩]⟩] ++ w64 0x088 "TILE_MBOX_IN" .wo ++ w64 0x090 "TILE_MBOX_OUT" .rc ++
  [⟨0x098, [⟨"DROPS", 31, 16, .rc, 0, .any⟩, ⟨"COUNT", 4, 0, .ro, 0, .any⟩]⟩,
   ⟨0x0A0, [⟨"OP", 31, 30, .wo, 0, .codes [0, 1, 2] 0⟩, ⟨"SPARE", 6, 0, .wo, 0, .any⟩]⟩, w32 0x0A4 "TILE_SPARE_STAT" .ro] ++
  wWin 0x0B0 4 "TILE_KEEP" .rw ++
  [⟨0x0C0, [⟨"OP", 31, 28, .wo, 0, .codes [0, 1, 2, 3, 4, 5] 0⟩, ⟨"COPY", 27, 26, .wo, 0, .any⟩, ⟨"SPACE", 25, 24, .wo, 0, .any⟩,
     ⟨"INDEX", 23, 0, .wo, 0, .any⟩]⟩,
   ⟨0x0C4, [⟨"HALTED", 31, 31, .ro, 0, .any⟩, ⟨"BUSY", 30, 30, .ro, 0, .any⟩, ⟨"REPLAY", 28, 24, .ro, 0, .any⟩, ⟨"TAG", 23, 23, .ro, 0, .any⟩,
     ⟨"DROPS", 15, 0, .rc, 0, .any⟩]⟩] ++ w64 0x0C8 "TILE_DBG_DATA0" .rw ++ w64 0x0D0 "TILE_DBG_DATA1" .rw ++
  [⟨0x0E0, [⟨"OFFSET", 18, 9, .rw, 0x1FF, .any⟩]⟩, ⟨0x0E4, [⟨"OFFSET", 18, 9, .rw, 0x3FF, .any⟩]⟩, ⟨0x0E8, [⟨"OFFSET", 18, 9, .rw, 0x3FE, .any⟩]⟩,
   ⟨0x0EC, [⟨"ORIG_CAUSE", 31, 26, .ro, 0, .any⟩, ⟨"ENTRY_CAUSE", 25, 20, .ro, 0, .any⟩, ⟨"COPY", 19, 18, .ro, 0, .any⟩, ⟨"RESETS", 15, 0, .rc, 0, .any⟩]⟩,
   ⟨0x0F0, [⟨"GRANULE", 18, 4, .wo, 0, .any⟩]⟩, ⟨0x0F4, [⟨"TAG", 31, 31, .wo, 0, .any⟩]⟩] ++
  ((List.range 4).map fun w => [⟨0x100 + 16 * w, [⟨"BASE", 31, 12, .rw, 0, .any⟩]⟩,
    ⟨0x104 + 16 * w, [⟨"EN", 31, 31, .rw, 0, .any⟩, ⟨"BASE", 7, 0, .rw, 0, .any⟩]⟩,
    ⟨0x108 + 16 * w, [⟨"PAGES", 27, 0, .rw, 0, .any⟩]⟩, ⟨0x10C + 16 * w, []⟩]).flatten

def regsPmc : List RegWord :=
  [⟨0x040, [⟨"FOVF", 1, 1, .rw, 0, .any⟩, ⟨"FREEZE", 0, 0, .rw, 0, .any⟩]⟩, ⟨0x044, [⟨"OVF", 5, 0, .w1c, 0, .any⟩]⟩] ++
  w64 0x048 "PMC_CYCLES" .rw ++
  ((List.range 6).map fun i => ⟨0x050 + 4 * i, [⟨"EN", 31, 31, .rw, 0, .any⟩, ⟨"COPY", 29, 28, .rw, 0, .codes [0, 1, 2] 0⟩, ⟨"EVENT", 7, 0, .rw, 0, .any⟩]⟩) ++
  ((List.range 6).map fun i => [w32 (0x070 + 8 * i) "PMC_CNT" .rw, ⟨0x074 + 8 * i, [⟨"PMC_CNT", 15, 0, .rw, 0, .any⟩]⟩]).flatten

/-- SPT pages (spec/04). DESIGN CHOICE (entry 34): SPT_MAC of port `p` is `p`, one of 512 consecutive addresses in port order whose first the spec does not give. -/
def regsSpt (p : Nat) : List RegWord :=
  [⟨0x040, [⟨"ETHERTYPE", 31, 16, .rw, 0x88B5, .any⟩, ⟨"AMP", 15, 14, .rw, 0, .codes [0, 1, 2] 0⟩, ⟨"AN", 13, 13, .rw, 1, .any⟩,
     ⟨"MS", 12, 12, .rw, 0, .any⟩, ⟨"ROLE", 11, 11, .rw, 0, .any⟩]⟩,
   ⟨0x044, [⟨"EN", 15, 15, .rw, 0, .any⟩, ⟨"LIMIT", 6, 0, .rw, 100, .range 10 100⟩]⟩,
   ⟨0x048, [⟨"VOLT", 31, 24, .ro, 0, .any⟩, ⟨"CUR", 23, 12, .ro, 0, .any⟩, ⟨"CLASS", 11, 8, .ro, 0, .any⟩, ⟨"SPWR_LOW", 4, 4, .ro, 0, .any⟩,
     ⟨"OVERLOAD", 2, 2, .w1c, 0, .any⟩, ⟨"LATCHED", 1, 1, .ro, 0, .any⟩, ⟨"ON", 0, 0, .ro, 0, .any⟩]⟩] ++
  w64 0x050 "SPT_MAC" .ro p ++ w64 0x058 "SPT_EXPECT_SERIAL" .rw ++ w64 0x060 "SPT_EPOCH" .ro ++
  [w32 0x068 "SPT_SESSION" .ro,
   ⟨0x06C, [⟨"PSTATE", 27, 24, .ro, 0, .any⟩, ⟨"SYNC", 23, 22, .ro, 0, .any⟩, ⟨"LINK", 21, 21, .ro, 0, .any⟩, ⟨"AMP_USED", 20, 20, .ro, 0, .any⟩,
     ⟨"MS_USED", 19, 19, .ro, 0, .any⟩, ⟨"PEER_NODE_ROLE", 18, 18, .ro, 0, .any⟩, ⟨"PEER_SAFETY", 17, 17, .ro, 0, .any⟩]⟩,
   w32 0x070 "SPT_LAT_LIMIT" .rw 10000000 (.range 1000 100000000), w32 0x074 "SPT_LAT_MAX" .rc, w32 0x078 "SPT_SYNC_OFS" .ro 0x80000000,
   w32 0x07C "SPT_DELAY" .ro, w32 0x080 "SPT_ERR0" .rc, w32 0x084 "SPT_ERR1" .rc, w32 0x088 "SPT_ERR2" .rc, w32 0x08C "SPT_ERR3" .rc,
   ⟨0x090, [⟨"HIGH", 31, 16, .rc, 0, .any⟩, ⟨"FILL", 15, 0, .ro, 0, .any⟩]⟩,
   ⟨0x094, [⟨"TEST_ID", 15, 8, .wo, 0, .any⟩, ⟨"QUERY", 2, 0, .wo, 0, .any⟩]⟩, w32 0x098 "SPT_EVENTS" .rc, w32 0x09C "SPT_REC_VALID" .ro] ++
  wWin 0x100 8 "IDENT" .ro ++ wWin 0x120 32 "CAL" .ro ++ wWin 0x1A0 6 "SELFTEST" .ro ++ wWin 0x1C0 3 "STATUS" .ro ++
  ((List.range 4).map fun k =>
    [⟨0x200 + 64 * k, [⟨"EN", 31, 31, .rw, 0, .any⟩, ⟨"CHANNEL", 30, 20, .rw, 0, .range 0 1535⟩, ⟨"RATE", 19, 16, .rw, 6, .range 0 8⟩,
       ⟨"B_LOG", 15, 12, .rw, 4, .any⟩, ⟨"SRC", 11, 10, .rw, 0, .codes [0, 1] 0⟩, ⟨"WAVE", 9, 8, .rw, 0, .codes [0, 1, 2] 0⟩]⟩,
     w32 (0x204 + 64 * k) "SPT_CH_STAT" .ro] ++ w64 (0x208 + 64 * k) "SPT_CH_N" .ro ++
    [w32 (0x210 + 64 * k) "SPT_CH_GAPS" .rc, w32 (0x214 + 64 * k) "SPT_CH_LOST" .rc, w32 (0x218 + 64 * k) "SPT_GEN_FREQ" .rw,
     w32 (0x21C + 64 * k) "SPT_GEN_AMP" .rw 0 (.range 0 8388607), w32 (0x220 + 64 * k) "SPT_GEN_OFS" .rw, w32 (0x224 + 64 * k) "SPT_GEN_PHASE" .rw]).flatten

def regsTrk (k : Nat) : List RegWord :=
  let a : Acc := if k = 0 then .ro else .rw
  [⟨0x040, [⟨"KIND", 30, 28, a, if k = 0 then 5 else 1, .codes [1, 2, 3, 4, 6] 1⟩, ⟨"MODE", 27, 26, a, 0, .codes [0, 1, 2] 0⟩, ⟨"ZEN", 25, 25, a, 0, .any⟩,
     ⟨"INV", 24, 24, a, 0, .any⟩, ⟨"PARENT", 23, 18, a, 0, .range 0 (k - 1)⟩, ⟨"ZIN", 17, 12, a, 0, .any⟩, ⟨"BIN", 11, 6, a, 0, .any⟩,
     ⟨"AIN", 5, 0, a, k, .any⟩]⟩,
   w32 0x044 "TRK_SCALE" .rw 0x1000, w32 0x048 "TRK_RATIO_P" .rw 1, w32 0x04C "TRK_RATIO_Q" .rw 1 (.range 1 0xFFFFFFFF)] ++
  w64 0x050 "TRK_OFFSET" .rw ++
  [⟨0x058, [⟨"CHANNEL", 31, 21, .rw, 0, .range 0 1535⟩, ⟨"ORDER", 20, 13, .rw, 1, .range 1 255⟩, ⟨"SEARCH", 12, 5, .rw, 20, .range 1 200⟩, ⟨"BW", 4, 2, .rw, 3, .any⟩]⟩,
   ⟨0x05C, [⟨"LOCK_DB", 7, 0, .rw, 12, .range 6 40⟩]⟩,
   ⟨0x060, [⟨"STOP_MS", 31, 16, .rw, 10000, .range 1 65535⟩, ⟨"GAP", 15, 12, .rw, 4, .range 2 15⟩, ⟨"FIT", 11, 8, .rw, 4, .range 2 8⟩]⟩,
   ⟨0x064, [⟨"TIME_MS", 31, 16, .rw, 2000, .range 1 65535⟩, ⟨"TURNS", 15, 0, .rw, 64, .range 1 65535⟩]⟩,
   ⟨0x068, [⟨"TQ", 7, 0, .ro, 0, .any⟩]⟩] ++ w64 0x070 "TRK_POS" .ro ++
  [w32 0x078 "TRK_RATE" .ro, w32 0x07C "TRK_ACCEL" .ro, w32 0x080 "TRK_SLIP" .ro 0x7FC00000, w32 0x084 "TRK_RATIO_MEAS" .ro 0x7FC00000] ++
  w64 0x088 "TRK_JUMP" .ro ++ w64 0x090 "TRK_STAMP" .ro ++
  [⟨0x098, [⟨"LOSTS", 31, 16, .rc, 0, .any⟩, ⟨"COASTS", 15, 0, .rc, 0, .any⟩]⟩, w32 0x09C "TRK_JERK" .ro]

def regsTrkIn : List RegWord :=
  [⟨0x040, [⟨"DEGLITCH", 31, 24, .rw, 0, .any⟩, ⟨"THRESH", 23, 16, .rw, 20, .range 5 250⟩, ⟨"HYST", 15, 11, .rw, 5, .range 1 20⟩,
     ⟨"EDGE", 3, 2, .rw, 0, .codes [0, 1, 2] 0⟩, ⟨"DIFF", 0, 0, .rw, 0, .any⟩]⟩] ++ w64 0x048 "TRK_IN_EDGES" .ro ++ w64 0x050 "TRK_IN_LAST" .ro ++
  [w32 0x058 "TRK_IN_INTERVAL" .ro, ⟨0x05C, [⟨"OVERRATE", 2, 2, .w1c, 0, .any⟩, ⟨"SAT", 1, 1, .w1c, 0, .any⟩, ⟨"LEVEL", 0, 0, .ro, 0, .any⟩]⟩]

def regsStr : List RegWord :=
  [w32 0x040 "STR_INFO" .ro 0x1000, w32 0x044 "STR_SAFETY_W" .ro, w32 0x048 "STR_LAT_MAX" .rc, w32 0x04C "STR_LAT_LIMIT" .rw 15000 (.range 2400 3000000),
   ⟨0x050, [⟨"ENTRY_FAULT", 31, 24, .rc, 0, .any⟩, ⟨"CONS_ERR", 23, 16, .rc, 0, .any⟩, ⟨"LAT_OVER", 15, 0, .rc, 0, .any⟩]⟩,
   w32 0x054 "STR_NO_ENTRY" .rc, w32 0x058 "STR_LAST" .ro,
   ⟨0x05C, [⟨"OP", 31, 30, .wo, 0, .codes [0, 1, 2] 0⟩, ⟨"ENTRY", 11, 0, .wo, 0, .any⟩]⟩, w32 0x060 "STR_FLOW" .ro]

/-- One stream entry, at offsets from its own start (spec/05). -/
def regsStrEntry : List RegWord :=
  [⟨0x00, [⟨"EN", 31, 31, .rw, 0, .any⟩, ⟨"COMMIT", 30, 30, .w1s, 0, .any⟩, ⟨"CLASS", 29, 29, .rw, 0, .any⟩, ⟨"GEN", 23, 16, .ro, 0, .any⟩,
     ⟨"STATE", 2, 0, .ro, 0, .any⟩]⟩,
   ⟨0x04, [⟨"KIND", 31, 28, .rw, 0, .codes [0, 1, 2, 3, 4] 0⟩, ⟨"SEL", 15, 0, .rw, 0, .any⟩]⟩,
   ⟨0x08, [⟨"RL_EN", 31, 31, .rw, 0, .any⟩, ⟨"BURST", 27, 20, .rw, 16, .range 1 255⟩, ⟨"RATE", 15, 0, .rw, 1, .range 1 65535⟩]⟩] ++
  ((List.range 4).map fun d =>
    [⟨0x10 + 16 * d, [⟨"KIND", 31, 29, .rw, 0, .codes [0, 1, 2, 3, 4] 0⟩, ⟨"FORMAT", 28, 26, .rw, 0, .any⟩, ⟨"SIZE_LOG", 25, 21, .rw, 4, .any⟩,
       ⟨"ARG", 20, 0, .rw, 0, .any⟩]⟩,
     ⟨0x14 + 16 * d, [⟨"CREDIT", 31, 8, .ro, 0, .any⟩, ⟨"OPEN", 3, 3, .ro, 0, .any⟩, ⟨"STATE", 2, 0, .ro, 0, .any⟩]⟩,
     w32 (0x18 + 16 * d) "STR_D_BASE" .rw, ⟨0x1C + 16 * d, [⟨"STR_D_BASE", 7, 0, .rw, 0, .any⟩]⟩]).flatten ++
  [w32 0x50 "STR_E_CELLS" .rc, w32 0x54 "STR_E_GAPS" .rc, ⟨0x58, [⟨"CREDIT", 31, 16, .rc, 0, .any⟩, ⟨"RATE", 15, 0, .rc, 0, .any⟩]⟩,
   w32 0x5C "STR_E_DROP" .rc]

def regsRope (r : Nat) : List RegWord :=
  [⟨0x040, [⟨"MODE", 31, 30, .rw, 1, .any⟩, ⟨"FEC", 29, 29, .rw, 0, .any⟩, ⟨"KEEP", 28, 28, .rw, if r < 2 then 1 else 0, .any⟩,
     ⟨"SCOPE", 27, 25, .rw, 0, .any⟩]⟩,
   ⟨0x044, [⟨"LSTATE", 31, 29, .ro, 0, .any⟩, ⟨"SFP", 28, 28, .ro, 0, .any⟩, ⟨"LOS", 27, 27, .ro, 0, .any⟩, ⟨"TX_FAULT", 26, 26, .ro, 0, .any⟩,
     ⟨"SCOPE_USED", 25, 23, .ro, 0, .any⟩, ⟨"PEER_BIV", 22, 22, .ro, 0, .any⟩, ⟨"PEER_PORT", 21, 18, .ro, 0, .any⟩]⟩] ++
  w64 0x048 "ROPE_PEER" .ro ++ [w32 0x050 "ROPE_ASYM" .rw, w32 0x054 "ROPE_DELAY" .ro, w32 0x058 "ROPE_OFS" .ro 0x80000000,
   w32 0x060 "ROPE_CNT0" .rc, w32 0x064 "ROPE_CNT1" .rc, w32 0x068 "ROPE_LINKS" .rc] ++ w64 0x070 "ROPE_TXF" .ro ++ w64 0x078 "ROPE_RXF" .ro ++
  w64 0x080 "ROPE_MAC" .ro

def regsRopeL : List RegWord :=
  w64 0x040 "ROPE_SERIAL" .ro ++ [⟨0x048, [⟨"DEPTH", 31, 28, .rwl, 1, .range 1 6⟩, ⟨"PRI", 27, 24, .rwl, 0, .any⟩]⟩] ++
  w64 0x050 "ROPE_PREF" .rwl ++ w64 0x058 "ROPE_PATH" .ro ++ [w32 0x060 "ROPE_TSTATE" .ro] ++ w64 0x068 "ROPE_TOFS" .ro ++
  [w32 0x070 "ROPE_HOLD" .rwl 600 (.range 1 65535), w32 0x074 "ROPE_ACC_TMO" .rw 1000 (.range 10 65535)] ++ w64 0x078 "ROPE_TRK" .rw ++
  [⟨0x080, [⟨"EN", 31, 31, .rw, 0, .any⟩, ⟨"DIV", 30, 28, .rw, 0, .range 0 6⟩, ⟨"DROPS", 27, 16, .rc, 0, .any⟩, ⟨"CIRC", 11, 0, .rw, 0, .any⟩]⟩] ++
  ((List.range 4).map fun i => w64 (0x100 + 32 * i) "ACC_PATH" .rw ++
    [w32 (0x108 + 32 * i) "ADDR" .rw, ⟨0x10C + 32 * i, [⟨"OP", 31, 28, .rw, 0, .codes [0, 1, 2, 3, 4] 0⟩, ⟨"ADDR", 7, 0, .rw, 0, .any⟩]⟩] ++
    w64 (0x110 + 32 * i) "ACC_DATA" .rw ++ [w32 (0x118 + 32 * i) "ACC_STAT" .ro]).flatten ++
  ((List.range 16).map fun g =>
    [w32 (0x200 + 16 * g) "LABELS" .rwl, ⟨0x204 + 16 * g, [⟨"EN", 31, 31, .rwl, 0, .any⟩, ⟨"LEN", 19, 16, .rwl, 0, .range 0 6⟩, ⟨"LABELS", 15, 0, .rwl, 0, .any⟩]⟩,
     ⟨0x208 + 16 * g, [⟨"DRAM_W", 9, 9, .rwl, 0, .any⟩, ⟨"DRAM_R", 8, 8, .rwl, 0, .any⟩, ⟨"TILE_RIGHT", 5, 4, .rwl, 0, .any⟩, ⟨"BCP_RIGHT", 1, 0, .rwl, 0, .any⟩]⟩,
     ⟨0x20C + 16 * g, []⟩]).flatten ++
  [⟨0x300, [⟨"CIRC", 11, 0, .rw, 0, .any⟩]⟩, w32 0x308 "FAR" .rw,
   ⟨0x30C, [⟨"EN", 31, 31, .rw, 0, .any⟩, ⟨"DIR", 30, 30, .rw, 0, .any⟩, ⟨"RCIRC", 27, 16, .rw, 0, .any⟩, ⟨"FAR", 15, 0, .rw, 0, .any⟩]⟩,
   ⟨0x310, []⟩, ⟨0x314, [⟨"PLEN", 31, 28, .rw, 0, .range 1 6⟩, ⟨"WINDOW", 18, 8, .rw, 0, .range 1 1024⟩]⟩,
   ⟨0x318, [⟨"CSTATE", 31, 29, .ro, 0, .any⟩, ⟨"DUP", 27, 16, .rc, 0, .any⟩, ⟨"NOENTRY", 15, 0, .rc, 0, .any⟩]⟩, w32 0x31C "ROPE_CIRC_LOST" .rc]

/-- TEAM pages (spec/19): 0–5 summaries, 6–11 directories of 254 member words, 12–31 header only. -/
def regsTeam (i : Nat) : List RegWord :=
  if i < 6 then [w32 0x040 "TEAM_INFO" .ro] ++ w64 0x048 "TEAM_PATH" .ro ++ w64 0x050 "TEAM_LEADER" .ro ++
    [w32 0x058 "TEAM_GEN" .ro, w32 0x05C "TEAM_AGG0" .ro, w32 0x060 "TEAM_AGG1" .ro, w32 0x064 "TEAM_AGG2" .ro]
  else []

def regsSout : List RegWord :=
  [⟨0x040, [⟨"SCHEME", 31, 30, .rwl, 0, .any⟩, ⟨"MODE", 29, 29, .rwl, 0, .any⟩, ⟨"LEVEL", 28, 28, .rwl, 0, .any⟩, ⟨"MCOMB", 27, 27, .rwl, 1, .any⟩,
     ⟨"LATCH", 26, 26, .rwl, 1, .any⟩, ⟨"NOTOK", 25, 25, .rwl, 0, .any⟩, ⟨"DEG2", 24, 24, .rwl, 0, .any⟩, ⟨"DEG3", 23, 23, .rwl, 0, .any⟩,
     ⟨"EMPTY", 22, 22, .rwl, 1, .any⟩, ⟨"OLDET", 21, 21, .rwl, 0, .any⟩, ⟨"FOG", 20, 17, .rwl, 0, .any⟩]⟩,
   ⟨0x044, [⟨"COUNT", 31, 30, .rwl, 1, .range 1 3⟩, ⟨"M2", 22, 16, .rwl, 0, .any⟩, ⟨"M1", 14, 8, .rwl, 0, .any⟩, ⟨"M0", 6, 0, .rwl, 0, .any⟩]⟩,
   ⟨0x048, [⟨"SOUT_TRIP_DLY", 19, 0, .rwl, 0, .any⟩]⟩, ⟨0x04C, [⟨"SOUT_REL_DLY", 19, 0, .rwl, 100, .any⟩]⟩,
   ⟨0x050, [⟨"SOUT_VAGE", 15, 0, .rwl, 200, .range 10 10000⟩]⟩,
   ⟨0x054, [⟨"EN", 31, 31, .rwl, 1, .any⟩, ⟨"PERIOD", 27, 16, .rwl, 0x258, .range 1 3600⟩, ⟨"WIDTH", 6, 0, .rwl, 0x32, .range 10 50⟩]⟩,
   ⟨0x058, [⟨"ACTIVE", 31, 31, .ro, 0, .any⟩, ⟨"REQ", 30, 30, .rw, 0, .any⟩, ⟨"INEN", 29, 29, .rw, 0, .any⟩, ⟨"INPUT", 21, 16, .rw, 0, .any⟩,
     ⟨"FACTOR", 15, 8, .rw, 32, .range 16 48⟩, ⟨"MAXT", 7, 0, .rw, 60, .range 1 255⟩]⟩,
   ⟨0x05C, [⟨"BYP", 2, 0, .rw, 0, .any⟩]⟩,
   ⟨0x060, [⟨"PT_NOW", 2, 2, .wo, 0, .any⟩, ⟨"CLEAR_FAULT", 1, 1, .wo, 0, .any⟩, ⟨"RESET_TRIP", 0, 0, .wo, 0, .any⟩]⟩,
   ⟨0x064, [⟨"OSTATE_H", 31, 29, .ro, 0, .any⟩, ⟨"OSTATE_L", 28, 26, .ro, 0, .any⟩, ⟨"DEMAND", 25, 25, .ro, 0, .any⟩, ⟨"FRESH", 24, 22, .ro, 0, .any⟩,
     ⟨"CFGDIFF", 21, 21, .ro, 0, .any⟩, ⟨"NOVOTE", 20, 20, .ro, 0, .any⟩, ⟨"SUBST", 19, 19, .ro, 0, .any⟩, ⟨"NOK", 18, 16, .ro, 0, .any⟩,
     ⟨"DNG", 15, 13, .ro, 0, .any⟩, ⟨"ALT", 12, 10, .ro, 0, .any⟩, ⟨"SW_H", 5, 5, .ro, 0, .any⟩, ⟨"SW_L", 4, 4, .ro, 0, .any⟩,
     ⟨"CUR", 3, 3, .ro, 0, .any⟩, ⟨"PT_ACTIVE", 2, 2, .ro, 0, .any⟩]⟩,
   ⟨0x068, [⟨"STALE", 31, 24, .rc, 0, .any⟩, ⟨"FOREIGN", 23, 16, .rc, 0, .any⟩, ⟨"SEQ", 15, 8, .rc, 0, .any⟩, ⟨"PT_CUT", 7, 4, .rc, 0, .any⟩,
     ⟨"RESET_REFUSED", 3, 0, .rc, 0, .any⟩]⟩,
   ⟨0x06C, [⟨"PASSES", 31, 16, .rc, 0, .any⟩, ⟨"LATE", 15, 8, .rc, 0, .any⟩, ⟨"RES1", 3, 2, .ro, 0, .any⟩, ⟨"RES0", 1, 0, .ro, 0, .any⟩]⟩,
   w32 0x070 "SOUT_TRIPS" .rc] ++ w64 0x078 "SOUT_PT_LAST" .ro ++ w64 0x080 "SOUT_VOTE0" .rw ++ w64 0x088 "SOUT_VOTE1" .rw ++ w64 0x090 "SOUT_VOTE2" .rw ++
  w64 0x098 "SOUT_VTIME0" .ro ++ w64 0x0A0 "SOUT_VTIME1" .ro ++ w64 0x0A8 "SOUT_VTIME2" .ro ++ w64 0x0C0 "SOUT_TRIP_T" .ro ++ w64 0x0C8 "SOUT_DEMAND_T" .ro ++
  [w32 0x0D0 "SOUT_TRIP_IN" .ro]

def regsSoutD : List RegWord :=
  [w32 0x040 "SOUT_DB_STAT" .ro] ++ w64 0x048 "SOUT_DB_ARMED" .ro ++ w64 0x050 "SOUT_DB_DRIVE" .ro ++ w64 0x058 "SOUT_DB_RB" .ro ++
  [⟨0x060, [⟨"G", 15, 1, .wo, 0, .any⟩]⟩] ++ wWin 0x100 60 "FIRST_OUT" .ro

/-- The fields of the block register word at `off` of a page, when the page has one there. Waypoint units and stream entries repeat (spec/02 R53, spec/03). -/
def blockWord (k : Kind) (inst off : Nat) : Option (List Fld) :=
  match k with
  | .bcp => findWord (regsBcp inst) off
  | .pwr => findWord (regsPwr inst) off
  | .wdgB => findWord (regsWdg false) off
  | .wdgC => findWord (regsWdg false true) off
  | .wdgT => findWord (regsWdg true) off
  | .bistM => findWord (regsBist true) off
  | .bistC => findWord (regsBist false) off
  | .eccD => findWord (regsEcc 2) off
  | .eccC => findWord (regsEcc 1) off
  | .eccT => findWord (regsEcc 0) off
  | .xng => findWord (regsXng inst) off
  | .clu => findWord regsClu off
  | .ars => findWord regsArs off
  | .tfe => findWord (regsTfe inst) off
  | .frd => findWord regsFrd off
  | .wpt =>
    if 0x040 ≤ off ∧ off < 0x840 then findWord regsWptUnit ((off - 0x040) % 0x20)
    else if off = 0x840 ∨ off = 0x844 then some [⟨"FIRED", 31, 0, .w1c, 0, .any⟩] else none
  | .tile => findWord regsTile off
  | .pmc => findWord regsPmc off
  | .spt => findWord (regsSpt inst) off
  | .trk => findWord (regsTrk inst) off
  | .trkIn => findWord regsTrkIn off
  | .str => findWord regsStr off
  | .strT => if 0x040 ≤ off ∧ off < 0xC40 then findWord regsStrEntry ((off - 0x040) % 0x60) else none
  | .rope => findWord (regsRope inst) off
  | .ropeL => findWord regsRopeL off
  | .team =>
    if 6 ≤ inst ∧ inst < 12 then (if 0x040 ≤ off ∧ off % 4 = 0 then some [⟨"DIR", 31, 0, .ro, 0, .any⟩] else none)
    else findWord (regsTeam inst) off
  | .sout => findWord regsSout off
  | .soutD => findWord regsSoutD off

/-- The fields of a word of a page, header included; none where no register stands (spec/02 R37). -/
def pageWord (k : Kind) (inst off : Nat) : Option (List Fld) :=
  if off < 0x040 then findWord (headerRegs k inst) off else blockWord k inst off

/-- The register key of a page offset: the word's address in page units. -/
def regKey (page off : Nat) : Nat := page * 4096 + off

/-- The reset value of the register word at a key (spec/00_scope.md R8). -/
def regDefault (key : Nat) : Word :=
  match pageAt (key / 4096) with
  | some (k, inst) =>
    match pageWord k inst (key % 4096) with
    | some fs => BitVec.ofNat 32 (resetOf fs)
    | none => 0
  | none => 0

end Sys2Proof.Machine
end

