-- ==== Sys2Proof/Machine/StateTypes.lean ====
section
/-! DEFINITION. The records State is made of: one per kind of block for what stands behind its registers. -/

namespace Sys2Proof.Machine

/-- What a page holds besides its registers: whether a RESET is running (spec/02 R42), the power of its block (spec/02 R44): 0 OFF, 1 RETENTION, 2 ON; the writes of PAGE_CTRL that wait for a running self-test slice, as offset and value (spec/17 R479); and, of a CLU page, the links that fail their check as a mask (spec/02 R56). -/
structure PageH where
  resetting : Bool := false
  power : Nat := 2
  ctrl : List (Nat × Nat) := []
  badLinks : Nat := 0
  deriving DecidableEq, Repr

/-- A track input behind its page (spec/03 R59–R62): the count and stamp waiting to cross, whether it saturated, the last edge for the rate test, the stamp of the last transfer. -/
structure TrkInH where
  pend : Nat := 0
  pendStamp : Nat := 0
  satur : Bool := false
  lastEdge : Option (Nat × Bool) := none
  lastXfer : Option Nat := none
  level : Bool := false
  /-- The last transfer until its acknowledge (spec/18 R495): its count, its stamp, its instant, and the signed quadrature counts it gave each track, by A or B. -/
  sent : Option (Nat × Nat × Nat) := none
  sentQ : List (Nat × Bool × Int) := []
  deriving DecidableEq, Repr

/-- The states of a track (spec/03 R74). -/
inductive TState where
  | off | acquiring | locked | coasting | lost | stopped
  deriving DecidableEq, Repr

/-- One broadcast record of a track (spec/03 R70): its instant, position in TPOS counts, rate, acceleration and jerk as binary32, and the TQ byte. -/
structure BRec where
  tb : Nat := 0
  pos : Int := 0
  rate : Nat := 0
  accel : Nat := 0
  jerk : Nat := 0
  tq : Nat := 0
  slip : Nat := 0x7FC00000
  ratio : Nat := 0x7FC00000
  /-- TRK_JUMP at the instant (spec/03 R84). -/
  jump : Int := 0
  /-- A word of the record is poisoned (spec/06 R194, spec/08 R244). -/
  pois : Bool := false
  deriving DecidableEq, Repr

/-- A track behind its page (spec/03 R63–R85). Positions are exact turns before TRK_OFFSET; `win` is the fit window, newest first; `fit` is (instant, position, rate, acceleration) of the last fit. -/
structure TrkH where
  st : TState := .off
  win : List (Nat × Rat) := []
  pos : Rat := 0
  fit : Option (Nat × Rat × Rat × Rat) := none
  prevAccel : Rat := 0
  jerk : Nat := 0
  lastStamp : Option Nat := none
  lastIntv : Option Nat := none
  acq : Nat := 0
  sat : Bool := false
  jumpAt : Option Rat := none
  jump : Int := 0
  /-- The reference edge this track waits for: none, the next one forward after its lock, or the nearest after a coast. -/
  wantRef : Option Bool := none
  sinceRef : Option Rat := none
  /-- The stamp of the last ZIN edge taken in ACQUIRING, from which the lock places fraction 0 (spec/03 R66). -/
  zStamp : Option Nat := none
  /-- Quadrature counts that wait to cross with input A's transfer, and with input B's (spec/03 R60, R65). -/
  quadA : Int := 0
  quadB : Int := 0
  /-- The recent changes of the fitted acceleration per second, newest first (spec/03 R69). -/
  jerks : List Rat := []
  /-- When the running scan of the tacholess detectors began; the frequency its loop started at (spec/03 R79). -/
  scanT : Option Nat := none
  loopAt : Rat := 0
  teeth : List Nat := []
  coastT : Nat := 0
  coastPos : Rat := 0
  lostT : Nat := 0
  fc : Rat := 0
  loopHz : Option Rat := none
  ratio : Rat := 0
  /-- TRK_LOSS, TRK_COAST and LOCK_DB as the last broadcast took them (spec/03 R83). -/
  lossR : Nat := 10000 * 65536 + 4 * 4096 + 4 * 256
  coastR : Nat := 2000 * 65536 + 64
  lockR : Nat := 12
  brec : BRec := {}
  /-- The TQ bytes that the clusters held, newest first, each with the cycle from which (spec/06 R189). -/
  tqs : List (Nat × Nat) := []
  deriving DecidableEq, Repr

/-- A waypoint unit behind its registers (spec/03 R86–R88): when its deadline count began, the cycle of an arming whose first evaluation, one cycle on, is still to be taken, the outcome and sign of that first evaluation; and for R94 the cycle of its last write with its seven words from before that cycle's writes, the cycle of its last fire with WPT_POS and WPT_CFG from before it. -/
structure WptH where
  dlT : Nat := 0
  armT : Option Nat := none
  first : Bool := false
  sign : Option Bool := none
  wrT : Option Nat := none
  old : List Nat := []
  fireT : Option Nat := none
  pre : Nat × Nat := (0, 0)
  deriving DecidableEq, Repr

/-- One entry of a tile's release queue (spec/03 R92): 16 bytes as two 64-bit words. -/
structure RelEntry where
  w0 : DWord
  w1 : DWord
  deriving DecidableEq, Repr

/-- A memory bank's scrubber and wake (spec/15 R443–R448): the last correction for REPEAT, the early-scrub queue, the walk's line, when the lap began, whether this bank has been ON for the whole lap and has completed it, when it becomes usable. -/
structure BankH where
  lastCorr : Option (Nat × Nat) := none
  early : List Nat := []
  pos : Nat := 0
  lapStart : Nat := 0
  whole : Bool := true
  done : Bool := false
  wakeAt : Nat := 0
  want : Option Nat := none
  /-- The initialisation of R448 after power-on, or after OFF, is complete. -/
  inited : Bool := false
  /-- Bank 0 of a page: the cycle of the last write to its flip registers, and ECC_FLIP_CFG, _DATA and _CHK from before that cycle (R449). -/
  flipT : Option Nat := none
  flipOld : Nat × Nat × Nat := (0, 0, 0)
  deriving DecidableEq, Repr

/-- One record of the Basecamp event log (spec/20 R538); DATA is its ten bytes as a number, the CRC is computed where it is read. -/
structure LogRec where
  time : DWord
  seq : Nat
  code : Nat
  sev : Nat
  flags : Nat
  source : Nat
  data : Nat
  deriving DecidableEq, Repr

/-- One 64-byte stream cell (spec/05 R154) without its entry number and GEN: the payload is its 48 bytes as a number, `pois` marks its eight words. -/
structure Cell where
  gap : Bool := false
  fmt : Nat := 0
  marks : Nat := 0
  nvalid : Nat := 0
  chan : Nat := 0xFFFF
  idx : Nat := 0
  payload : Nat := 0
  pois : Nat := 0
  deriving DecidableEq, Repr

/-- What waits at a stream source: the samples of one accepted record for one channel, a gap marker, or one cell's payload of another source. Samples are 24-bit patterns with their poison. -/
structure SrcItem where
  port : Nat := 0
  chan : Nat := 0xFFFF
  nodeCh : Nat := 0
  gap : Bool := false
  idx : Nat := 0
  marks : Nat := 0
  samples : List (Nat × Bool) := []
  count : Nat := 0
  cause : Nat := 0
  raw : Bool := false
  nvalid : Nat := 0
  payload : Nat := 0
  pois : Nat := 0
  acceptedAt : Nat := 0
  buf : Nat := 0
  waited : Bool := false
  /-- It has waited at the head of its queue, whatever for (R167). -/
  stood : Bool := false
  deriving DecidableEq, Repr

/-- A destination of an active stream entry (spec/05 R155–R169) with its ring's producer index, last open and close, capture state and consumer error. -/
structure Dest where
  kind : Nat := 0
  fmt : Nat := 0
  size : Nat := 0
  arg : Nat := 0
  base : Nat := 0
  prod : Nat := 0
  openIdx : Nat := 0
  closeIdx : Nat := 0
  /-- GEN of the last cell written, at first that of the ring's set-up (R158). -/
  gen : Nat := 0
  isOpen : Bool := false
  err : Bool := false
  deriving DecidableEq, Repr

/-- The active copy of a stream entry (spec/05 R148–R171). Tokens count 1/30,000 of a cell. -/
structure StrH where
  en : Bool := false
  cls : Nat := 0
  srcKind : Nat := 0
  srcSel : Nat := 0
  rlEn : Bool := false
  burst : Nat := 16
  rate : Nat := 1
  dests : List Dest := []
  gen : Nat := 0
  taken : Nat := 0
  tokens : Nat := 0
  tokT : Nat := 0
  fault : Bool := false
  rateWait : Bool := false
  /-- When its last record or cell left (R167). -/
  leftT : Nat := 0
  deriving DecidableEq, Repr

/-- A write of the router to a ring's control lines that waits for its block to be READY (spec/02 R54, spec/05 R158, R163, R169): the ring, the GEN, and what it does: 0 sets the ring up, 1 closes it, 2 records a capture's open or close. -/
structure RingW where
  d : Dest
  gen : Nat
  op : Nat
  deriving DecidableEq, Repr

/-- One item of a port's ingress buffer (spec/04 R126): its bytes, whether it lies in the marker reserve, and how many channels still hold it. -/
structure BufItem where
  id : Nat
  bytes : Nat
  res : Bool
  left : Nat
  deriving DecidableEq, Repr

/-- One channel's configuration as a CONFIG record carries it: EN, RATE, B_LOG. -/
structure ChCfg where
  en : Bool
  rate : Nat
  blog : Nat
  deriving DecidableEq, Repr

/-- What one channel of a port holds (spec/04 R123–R130, R144). -/
structure ChH where
  n : Option Nat := none
  /-- Samples at or above N known to be lost, as first index, end and cause, in the order the port detected them (R129). -/
  loss : List (Nat × Nat × Nat) := []
  pend : Option (Nat × Nat × Nat) := none
  stale : Bool := false
  /-- NODE role: buffered samples as (value, marks, gap count, gap cause), oldest first; those that the indices of the open record have taken; the first index of the open record. A gap's value is 1 once an index has taken its start. -/
  node : List (Nat × Nat × Nat × Nat) := []
  nodeT : List (Nat × Nat × Nat × Nat) := []
  nodeN : Option Nat := none
  deriving DecidableEq, Repr

/-- A sensor port behind its page (spec/04 R96–R147). -/
structure PortH where
  /-- The last session ID drawn (spec/04 R119). -/
  lastSession : Nat := 0
  epochSet : Bool := false
  tEnter : Nat := 0
  queries : Nat := 0
  tQuery : Nat := 0
  seqIn : Nat := 0
  seqOut : Nat := 0
  run : Nat := 0
  tokens : Nat := 4096 * 3000
  tokT : Nat := 0
  bufs : List BufItem := []
  nextBuf : Nat := 0
  syncNum : Nat := 0
  syncT1 : List (Nat × Nat) := []
  nextSync : Nat := 0
  rounds : List Int := []
  good : Nat := 0
  bad : Nat := 0
  missed : Nat := 0
  cfgGen : Nat := 0
  cfg : Option (List ChCfg) := none
  cfgPrev : Option (List ChCfg) := none
  acked : Bool := false
  identOk : Bool := false
  calMask : Nat := 0
  nch : Nat := 0
  statusT : Nat := 0
  overloads : List Nat := []
  /-- Detection and classification run, or have granted power that waits (R98, R136); SPT_PWR.EN was 0 since LATCHED was set (R99). -/
  detect : Bool := false
  unlatch : Bool := false
  /-- How much of the open frame's payload has been parsed (R104). -/
  rx : Nat := 0
  retryAt : Option Nat := none
  hostOfs : Int := 0
  nodeGen : Nat := 0
  nodeStatusT : Nat := 0
  /-- ACCEPT and NODE_LOCK as the last STATUS sent had them (spec/04 R106). -/
  nodeSent : Nat := 0
  /-- The attach self-test record of this session has gone out (R106); the running test with its end (R134). -/
  selfSent : Bool := false
  test : Option (Nat × Nat) := none
  chans : List ChH := [{}, {}, {}, {}]
  deriving DecidableEq, Repr

/-- A rope circuit (spec/19 R517–R521): its two words, state, and the counts of both ends. -/
structure CircH where
  w0 : DWord := 0
  w1 : DWord := 0
  cstate : Nat := 0
  dup : Nat := 0
  noEntry : Nat := 0
  lost : Nat := 0
  sent : Nat := 0
  freedSeen : Nat := 0
  seqOut : Nat := 0
  seqIn : Nat := 0
  freed : Nat := 0
  freedTold : Nat := 0
  toldAt : Nat := 0
  tx : List Cell := []
  txAt : Nat := 0
  connectAt : Nat := 0
  deriving DecidableEq, Repr

/-- An input of an Angle Resampler as IN_ON took it (spec/06 R173–R175): `next` is the next index expected, `first` the first index stored, `rp` the consumer index, `units` whether the last data cell carried units, `arr` the recent (samples present, cycle) and `marks` the recent (first index, count, MARKS). -/
structure InH where
  on : Bool := false
  st : Nat := 0
  chan : Nat := 0
  size : Nat := 4
  cons : Nat := 0
  dmax : Nat := 0
  histLog : Nat := 8
  ring : Nat := 0
  hist : Nat := 0
  epoch : Nat := 0
  rate : Nat := 0
  next : Nat := 0
  first : Option Nat := none
  rp : Nat := 0
  units : Option Bool := none
  arr : List (Nat × Nat) := []
  marks : List (Nat × Nat × Nat) := []
  /-- The places of its history whose own sample is poisoned: the word's poison covers two samples (spec/06 R174). -/
  bad : List Nat := []
  budget : Nat := 0
  deriving DecidableEq, Repr

/-- A grid point whose instant is resolved (spec/06 R179, R180): its TPOS, its instant in cycles, the track rate and TQ there, whether the record that resolved it was poisoned (R194); that the track reversed after it (R177), and the code of a re-alignment that follows it (R192). -/
structure GridPt where
  theta : Nat
  tj : Rat
  rate : Rat
  tq : Nat
  pois : Bool := false
  rev : Bool := false
  stop : Option Nat := none
  deriving DecidableEq, Repr

/-- A view as VIEW_ON took it (spec/06 R176–R197): its configuration, the open block (`open_`, `n` samples written) and the resolved points that wait. -/
structure ViewH where
  on : Bool := false
  st : Nat := 0
  input : Nat := 0
  track : Nat := 0
  predict : Bool := false
  grid : Bool := false
  nlog : Nat := 3
  ringLog : Nat := 2
  outEn : Bool := false
  out : Nat := 0
  look : Nat := 1
  align : Nat := 0
  stepCfg : Nat := 0
  rateMax : Nat := 0
  ring : Nat := 0
  gen : Nat := 0
  prod : Nat := 0
  seq : Nat := 0
  budget : Nat := 0
  wait : Bool := true
  isOpen : Bool := false
  n : Nat := 0
  theta : Nat := 0
  high : Option Nat := none
  lastX : Option Nat := none
  lastT : Nat := 0
  pts : List GridPt := []
  /-- The track reversed past the end of a closed block: the next block carries REVERSE (spec/06 R177). -/
  revNext : Bool := false
  /-- The code of a re-alignment whose early close waits for the end of a self-test slice (spec/06 R192, R199). -/
  hold : Option Nat := none
  flags : Nat := 0
  marks : Nat := 0
  tqOr : Nat := 0
  tqMax : Nat := 0
  nvalid : Nat := 0
  ngap : Nat := 0
  t0 : Rat := 0
  tLast : Rat := 0
  rateEnd : Nat := 0
  d : Nat := 0
  ngapAll : Nat := 0
  skip : Nat := 0
  dual : Nat := 0
  lat : Nat := 0
  deriving DecidableEq, Repr

/-- The rest of one cluster's Angle Resampler: the executing command with its result, the cycles of recent lane differences, the multiply-adds of the running millisecond. -/
structure ArsH where
  res : Nat := 0
  op : Nat := 0
  idx : Nat := 0
  diffs : List Nat := []
  work : Nat × Nat := (0, 0)
  /-- The accepted command waits for the end of a self-test slice (R199). -/
  wait : Bool := false
  deriving DecidableEq, Repr

/-- A trigger of a Feature Reducer (spec/08 R239): a group with a result offset, or a view's closed block as (view, generation, block index, SEQ); and when it arrived. -/
structure Trig where
  group : Nat := 0
  off : Nat := 0
  view : Option (Nat × Nat × Nat × Nat) := none
  arrived : Nat := 0
  /-- Its place among triggers of the same cycle (spec/08 R240): 0 a hand-over, 1 + the view of a close, 1000 a write of FRD_TRIGGER. -/
  rank : Nat := 0
  /-- Whether the input of the job that left the result was real, which doubles a ZOOM's bins (spec/07 R210). -/
  real : Bool := true
  deriving DecidableEq, Repr

/-- A slot of a Feature Reducer as SLOT_ON took it (spec/08): its twelve descriptor words, level (0 NORMAL to 3 INVALID), pending direction, record and evaluation counts. -/
structure SlotH where
  on : Bool := false
  words : List Nat := []
  fault : Bool := false
  level : Nat := 3
  pend : Nat := 0
  seq : Nat := 0
  evals : Nat := 0
  value : Nat := 0
  dstart : Nat := 0
  deriving DecidableEq, Repr

/-- The trigger a Feature Reducer serves (spec/08 R240, R241): the set of slots as it was when the trigger was taken, the result header as read then. -/
structure FrdCur where
  tr : Trig
  slots : List Nat
  hd : Nat := 0
  pois : Nat := 0
  deriving DecidableEq, Repr

/-- One cluster's Feature Reducer: its trigger queue, the trigger in service, the cycles of recent differences, a command that waits for a self-test slice to end (OP, INDEX), busy cycles of the running millisecond. -/
structure FrdH where
  queue : List Trig := []
  cur : Option FrdCur := none
  diffs : List Nat := []
  cmd : Option (Nat × Nat) := none
  work : Nat × Nat := (0, 0)
  /-- Offsets of results that a ZOOM of a complex input left, whose bins are not doubled (spec/07 R210, spec/08 R242). -/
  cplx : List Nat := []
  deriving DecidableEq, Repr

/-- A capability register: 128 bits and the tag (spec/14 R408). -/
structure Cap where
  val : Nat := 0
  tag : Bool := false
  deriving DecidableEq, Repr

/-- A word of a local load still in its shadow (spec/11 R349): the position it is destined for, its value, and after how many more bundles it lands. -/
structure ShadowE where
  pos : Nat
  val : Nat
  pois : Bool
  left : Nat
  deriving DecidableEq, Repr

/-- An external read under way (spec/13 R394): the position it delivers to, the load and its address, the cycle it issued in; what one buffered write that covers it answers, and how many entries of the output commit buffer must leave before it can be made (spec/10 R299). -/
structure ExtE where
  pos : Nat
  op : LdOp
  addr : Nat
  iss : Nat := 0
  ans : Option (Nat × Bool) := none
  behind : Nat := 0
  deriving DecidableEq, Repr

/-- A divider's operation in flight, or in its suspend latch (spec/13 R403): op, operands (the second 0 for FSQRT), poison, destination, the result that its iterations form, and the first cycle in which a bundle reads it. -/
structure DivE where
  op : KOp
  a : Nat
  b : Nat
  pois : Bool
  pos : Nat
  val : Nat
  ready : Nat := 0
  deriving DecidableEq, Repr

/-- A slot of the return-stack cache (spec/11 R335): address, two words, their poison, the tag. -/
structure RsSlot where
  addr : Nat
  lo : Nat
  hi : Nat
  pois : Bool := false
  tag : Bool := false
  deriving DecidableEq, Repr

/-- An imprecise arithmetic exception that waits for its boundary (spec/14 R416, R417): the first cycle in which it is taken, its op's issue + 3. -/
structure ArithE where
  cause : Nat
  faddr : Nat
  more : Bool
  due : Nat
  deriving DecidableEq, Repr

/-- Code bytes that a copy holds, from `addr` on, with the poison of the words they lie in, lowest first: a line buffer (spec/13 R397) with the first cycle in which a bundle of it issues (R398), the bytes of a BTB entry (R399), the loop-start capture (R400). -/
structure CodeB where
  addr : Nat
  n : Nat
  val : Nat
  pois : Nat := 0
  ready : Nat := 0
  deriving DecidableEq, Repr

/-- An undo-log entry (spec/10 R296): a lane of local memory with its previous contents, poison and tag copies. -/
structure UndoE where
  addr : Nat
  old : Nat
  pois : Nat
  tag : Nat
  deriving DecidableEq, Repr

/-- An entry of the store buffer (spec/13 R395): the local address, bytes and value of a write, the poison of each word it touches, the cycle of the write, and what its lanes hold until then. -/
structure SbE where
  addr : Nat
  n : Nat
  val : Nat
  pois : List Bool
  wr : Nat
  old : List UndoE := []
  deriving DecidableEq, Repr

/-- An entry of the BTB (spec/13 R399): the FLOW bundle's address, whose bits 6:1 are the index and 39:7 the tag, the target, the bytes there. -/
structure BtbE where
  addr : Nat
  target : Nat
  code : Option CodeB := none
  deriving DecidableEq, Repr

/-- The architectural state of one core copy (spec/11 R326), with what its timing lets stand between bundles; its cycles are counted as the module's are. `file` is the stack file by entry index, each entry a word and its poison bit. -/
structure KCopy where
  run : Bool := false
  file : List (Nat × Nat × Bool) := []
  base : Nat := 0
  depth : Nat := 0
  low : Nat := 0
  rsp : Nat := 0
  pc : Nat := 0
  caps : List Cap := List.replicate 16 {}
  preds : Nat := 1
  lc : Nat := 0
  rc : Nat := 0
  ls : Nat := 0
  leoff : Nat := 0
  la : Bool := false
  status : Nat := 0
  rsCache : List RsSlot := []
  shadow : List ShadowE := []
  ext : List ExtE := []
  divI : Option DivE := none
  divF : Option DivE := none
  latI : Option DivE := none
  latF : Option DivE := none
  arith : Option ArithE := none
  /-- The remaining count of a repeat that resumes at PC (spec/11 R346). -/
  remain : Option Nat := none
  /-- The WAITW bundle that waits at PC (spec/11 R357). -/
  waiting : Option Bundle := none
  /-- The line buffers, that of the line last taken from first; the line whose first bundle has issued (spec/13 R397). -/
  lines : List CodeB := []
  line : Option Nat := none
  /-- The bytes that a covered redirect supplies; the loop-start capture; the BTB (spec/13 R399, R400). -/
  cov : Option CodeB := none
  loopB : Option CodeB := none
  btb : List BtbE := []
  /-- The store buffer, oldest first (spec/13 R395). -/
  sb : List SbE := []
  /-- The cycle from which the next bundle can issue (spec/13 R388). -/
  clk : Nat := 0
  /-- Set scoreboard bits: a position and the first cycle in which a bundle reads it (spec/13 R389). -/
  lat : List (Nat × Nat) := []
  /-- MA waits that still delay issue: the first issue cycle they delay, and by how many (spec/13 R390). -/
  stalls : List (Nat × Nat) := []
  /-- Lines requested and not served, with the cycle of posting (spec/13 R397). -/
  reqs : List (Nat × Nat) := []
  /-- The cycle in which LC was last written by a bundle (spec/13 R401). -/
  lcAt : Option Nat := none
  /-- PC was reached by falling through (spec/12 R380). -/
  fell : Bool := false
  /-- The next bundle has waited for an external result (spec/16 R465 event 0x17). -/
  extWait : Bool := false
  /-- Bundles that a STEP of TILE_DBG_CMD still runs (spec/10 R322). -/
  steps : Option Nat := none
  deriving DecidableEq, Repr

/-- An output of a copy (spec/10 R297): 0 a store of `size` bytes, 1 a tagged store, 2 a stream send (`size` bytes on stream `addr`), 3 an engine submission; `mode` is the tile's mode when the copy made it. `pois` has one bit for each 64-bit word. -/
structure OcbE where
  kind : Nat
  copy : Nat
  addr : Nat
  size : Nat
  val : Nat
  pois : Nat
  tag : Bool := false
  mode : Nat := 0
  deriving DecidableEq, Repr

/-- A journalled input (spec/10 R286): 0 an external read of `key`, 1 a release entry, 2 a mailbox word, 3 an interrupt of cause `key` with FADDR `val`, 4 a debug action, 5 the line fetched at `key` with its words' poison above bit 512; `n` is the count of bundles since the boundary. -/
structure JrnE where
  kind : Nat
  key : Nat
  val : Nat
  pois : Bool
  n : Nat
  deriving DecidableEq, Repr

/-- A boundary whose cairn has not committed (spec/10 R293, R294): the state it captured, how much of each log stands before it, when it fell due. -/
structure BoundH where
  k : KCopy
  undo : Nat
  ocb : Nat
  jrn : Nat
  bundles : Nat
  t : Nat
  deriving DecidableEq, Repr

/-- A held write to a checked tile's local memory (spec/10 R301), or a tag write (R427): address, bytes, value, poison; `size` 0 is a tag write of `val`. -/
structure HeldW where
  addr : Nat
  size : Nat
  val : Nat
  pois : Bool
  deriving DecidableEq, Repr

/-- A tile (spec/10): its mode (0 TRIO, 1 PAIR, 2 SPLIT, 3 FORERUNNER), its copies (place 0 is the checked core of TRIO and PAIR), its queues, logs and buffers. -/
structure TileH where
  mode : Nat := 0
  copies : List KCopy := [{}, {}, {}]
  rq : List RelEntry := []
  relIrq : Bool := false
  /-- WDG pages whose WDGX is held, in their order of arrival (spec/14 R418). -/
  wdgx : List Nat := []
  mbox : List (Nat × Bool) := []
  ocb : List OcbE := []
  outQ : List OcbE := []
  /-- The head of `outQ` waits for a CLU page and has been counted (spec/02 CLU_STALLS). -/
  stall : Bool := false
  undo : List UndoE := []
  jrn : List JrnE := []
  replay : List JrnE := []
  shadow : KCopy := {}
  due : Option Nat := none
  bound : Option BoundH := none
  bundles : Nat := 0
  lastDue : Nat := 0
  /-- INTERVAL and LOGCAP as the last commit took them. -/
  ival : Nat := 64
  logcap : Nat := 512
  recovering : Bool := false
  events : List Nat := []
  halted : List Bool := [false, false, false]
  /-- A HALT that waits for the re-seat (spec/10 R322). -/
  haltWait : Bool := false
  /-- When each pending entry of the debug replay queue is applied to the last belay copy (spec/10 R322). -/
  dbgT : List Nat := []
  /-- When the last cairn committed. -/
  commitT : Option Nat := none
  /-- Whether firmware runs, or ran until the tile retired. -/
  work : Bool := false
  /-- Held writes, at most 16, and those whose writers stall (spec/10 R301). -/
  held : List HeldW := []
  heldWait : List HeldW := []
  outvoted : Option Nat := none
  spare : Option (Bool × Nat × Nat) := none
  handReq : Option Nat := none
  draining : Bool := false
  movedTo : Option Nat := none
  freeBase : Nat := 112
  freeSize : Nat := 16
  /-- FORERUNNER has applied since the power-on reset (spec/10 R290). -/
  fore : Bool := false
  /-- A tile reset restarts the present mode (spec/10 R321). -/
  restart : Bool := false
  /-- The bit position that the next comparator self-test forces, 0 to 63 (spec/10 R315). -/
  stPos : Nat := 0
  /-- The final cairn of a hand-over has committed (spec/10 R318). -/
  final : Bool := false
  /-- Cycles in which an access holds the local-memory port, with its copy, the latest first (spec/13 R391). -/
  port : List (Nat × Nat) := []
  deriving DecidableEq, Repr

/-- A job of a Transform Engine (spec/07 R205): the cluster whose queue holds it, its descriptor offset, its twelve clamped words, when it was submitted. -/
structure TfeJob where
  desc : Nat
  words : List Nat
  arrived : Nat
  /-- Engine cycles that runs on other engines, or abandoned runs, have spent (spec/07 R205 CYCLES). -/
  spent : Nat := 0
  /-- The job has run before (spec/07 R219 FLAGS.RETRY). -/
  reran : Bool := false
  /-- Its place among submissions of the same cycle (spec/07 R202): a waypoint fire's unit, or 1000. -/
  rank : Nat := 1000
  /-- A run of it that was itself no first one was broken off (spec/07 R219 FLAGS.RETRY). -/
  twice : Bool := false
  /-- Its descriptor still shows a run that was broken off: the STATE byte waits until the cluster's memory takes the partner's accesses (spec/02 R54). -/
  owed : Bool := false
  /-- An access of its host to the cluster's memory has been counted as held (spec/02 CLU_STALLS). -/
  held : Bool := false
  deriving DecidableEq, Repr

/-- The job an engine runs (spec/07 R229): whether it is a hosted one, whether it is a rerun, its start, the end of its load, whether a block it read was reopened before that, the inputs as loaded and what the view's blocks said of them. -/
structure TfeRun where
  job : TfeJob
  hosted : Bool
  hi : Bool
  retry : Bool := false
  t0 : Nat := 0
  loadEnd : Nat := 0
  overran : Bool := false
  first : Nat := 0
  firstB : Nat := 0
  nblk : Nat := 0
  gens : Nat × Nat := (0, 0)
  a : List Nat := []
  b : List Nat := []
  uw : List Nat := []
  /-- Every entry depends on a poisoned word; else the entries that do (TSA with FMT TIME); a block header word is poisoned. -/
  pois : Bool := false
  pidx : List Nat := []
  hpois : Bool := false
  ngap : Nat := 0
  tpos0 : Nat := 0
  tt0 : Nat := 0
  rate : Nat := 0
  tq : Nat := 0
  flags : Nat := 0
  seq0 : Nat := 0
  deriving DecidableEq, Repr

/-- A Transform Engine (spec/07): its cluster's HIGH and NORMAL queues, whether the partner hosts them, whether they return at its next job boundary, the running job, which queue comes next of class HIGH and of class NORMAL, the stream output still sending, serials, recent rerun passes, busy cycles of the millisecond. -/
structure TfeH where
  hiQ : List TfeJob := []
  noQ : List TfeJob := []
  hosted : Bool := false
  ret : Bool := false
  run : Option TfeRun := none
  turn : Bool × Bool := (false, false)
  sending : Option Nat := none
  serial : Nat := 0
  passes : List Nat := []
  work : Nat × Nat := (0, 0)
  /-- Up to which cycle the running job's work is counted. -/
  counted : Nat := 0
  deriving DecidableEq, Repr

/-- What one drive block keeps of an output (spec/09 R272–R278): state 0 OFF to 5 FAULT, FAULT_CODE, the commanded switch and when it was commanded, since when the state stands, the read-back, a switch held off by its current limit, when the demand and the absence of demand began, the running test, when the next is due, a PT_NOW request. -/
structure SoDie where
  st : Nat := 0
  code : Nat := 0
  cmd : Bool := false
  cmdT : Nat := 0
  since : Nat := 0
  rb : Bool := false
  limited : Bool := false
  ds : Nat := 0
  relT : Option Nat := none
  test : Option Nat := none
  due : Nat := 0
  ptReq : Option Nat := none
  deriving DecidableEq, Repr

/-- A member of a vote group as the drive blocks know it (spec/09 R265, R266, R273): whether a word was ever accepted, whether one was since ENABLE, the last one, when, consecutive values accepted since ENABLE, freshness. -/
structure SoMem where
  has : Bool := false
  got : Bool := false
  word : Nat := 0
  t : Nat := 0
  run : Nat := 0
  fresh : Bool := false
  deriving DecidableEq, Repr

/-- A vote word on its way: place, word, the writing tile when it is a checked core. -/
structure VoteIn where
  place : Nat
  word : Nat
  tile : Option Nat
  deriving DecidableEq, Repr

/-- A safety output (spec/09): its two drive blocks, members, arrived votes, writes that wait for the tick, demand, when the dies began to differ, the multiplier's start and lock-out. -/
structure SoutH where
  dies : List SoDie := [{}, {}]
  mem : List SoMem := [{}, {}, {}]
  arrive : List VoteIn := []
  writes : List (Nat × Nat × Writer) := []
  dem : Bool := false
  div : Option Nat := none
  multT : Nat := 0
  multOut : Bool := false
  cur : Bool := false
  diff : Bool := false
  deriving DecidableEq, Repr

/-- A watchdog behind its page (spec/16 R454, R462): when its present state began, the ticks it lasts, whether its window has reached its wake point. -/
structure WdgH where
  t0 : Nat := 0
  dur : Nat := 12500000
  woke : Bool := false
  deriving DecidableEq, Repr

/-- A self-test slice that runs (spec/17): its unit, instance and number, its start, whether it is ISOLATE. -/
structure BRun where
  unit : Nat
  inst : Nat
  slice : Nat
  t0 : Nat
  iso : Bool
  deriving DecidableEq, Repr

/-- A slice that waits: for a start since `t` (spec/17 R477), or for its retest at `t` (R475). -/
structure BWait where
  unit : Nat
  inst : Nat
  slice : Nat
  t : Nat
  deriving DecidableEq, Repr

/-- A self-test page (spec/17): its result FIFO of two-word records, the running slices, slices held, retests due, requested passes, the lap position of each unit (unit × 2^16 + instance), when the lap began. -/
structure BistH where
  fifo : List (Nat × Nat) := []
  runs : List BRun := []
  held : List BWait := []
  retest : List BWait := []
  req : List (Nat × Nat × Nat) := []
  pos : List (Nat × Nat) := []
  lapT : Nat := 0
  /-- On the scheduler page: when a slice last began on each memory and tile (R477). -/
  began : List (Nat × Nat) := []
  deriving DecidableEq, Repr

/-- An entry of the repair list (spec/17 R483, R486): kind 0 spare row, 1 spare column, 2 remap line, 3 LOGIC, 4 UNREPAIRED. -/
structure RepE where
  unit : Nat
  inst : Nat
  kind : Nat
  line : Nat := 0
  bitpos : Nat := 0
  deriving DecidableEq, Repr

/-- A crossing behind its page (spec/18 R491–R498): whether a clock stands still, the words launched and not acknowledged with direction (true: to the core), the word and its launch instant, the next lane of each direction, and the words delivered on each side, oldest first, as their value and the poison of each 64-bit word (bit i, R493). -/
structure XngH where
  stopped : Bool := false
  fly : List (Bool × XWord × Nat) := []
  toCore : Nat := 0
  fromCore : Nat := 0
  outCore : List (Nat × Nat) := []
  outFar : List (Nat × Nat) := []
  deriving DecidableEq, Repr

/-- A rope port behind its page (spec/19 R501): the serial of the last HELLO and how many in a row, when it arrived, the peer's SCOPE, whether this end runs keep-alive, exchanges of TIME; and the module in its cage as present, LOS and TX_FAULT (R500). -/
structure RopeH where
  serial : Nat := 0
  hellos : Nat := 0
  tHello : Nat := 0
  peerScope : Nat := 0
  peerBiv : Bool := false
  good : Nat := 0
  bad : Nat := 0
  missed : Nat := 0
  tTime : Nat := 0
  answered : Bool := true
  /-- The last 16 round trips, newest first (R525 by R112). -/
  rounds : List Int := []
  sfp : Nat := 0
  deriving DecidableEq, Repr

/-- An entry of a team's label table (spec/19 R508, R514): the key serial, 0 FREE 1 UP 2 LOST, whether it is a team, when it was lost, its modules. -/
structure LabE where
  key : Nat := 0
  st : Nat := 0
  team : Bool := false
  lostT : Nat := 0
  mods : Nat := 0
  deriving DecidableEq, Repr

/-- A team T_s as this module knows it (spec/19 R507–R516, R524): its election, the label table with its generation, this module's label there, the route row loaded, and at its leader the reports and the members' STATUS. -/
structure TeamH where
  pri : Nat := 0
  serial : Nat := 0
  known : Bool := false
  tBest : Nat := 0
  settled : Bool := false
  epoch : Nat := 0
  table : List (Nat × LabE) := []
  own : Nat := 0
  row : List (Nat × Nat) := []
  loaded : Bool := false
  reports : List LinkRep := []
  stats : List (Nat × TeamStat) := []
  /-- The port on which the best candidate known was first heard of. -/
  via : Option Nat := none
  /-- At T_0: exchanges of TIME missed for want of an upstream port (R526). -/
  noUp : Nat := 0
  deriving DecidableEq, Repr

/-- An access slot of the rope page (spec/19 R523): when its request left, the operation, whether it works for a management datagram. -/
structure SlotAcc where
  t : Nat := 0
  op : Nat := 0
  bap : Bool := false
  /-- Accesses issued before, modulo 2^14: it tells a late reply from the present one's. -/
  n : Nat := 0
  deriving DecidableEq, Repr

/-- The rope side of the module (spec/19): requests to its own path, slots, when STATUS and LINKS last went out. -/
structure RopeM where
  self : List AccReq := []
  slots : List SlotAcc := [{}, {}, {}, {}]
  deriving DecidableEq, Repr

/-- A key slot (spec/20 R548): its 256-bit key (none: as at manufacture), right, UPD bit and the last SEQ accepted under the present nonce (R547). -/
structure KeyH where
  key : Option Nat := none
  right : Nat := 0
  upd : Bool := false
  last : Option Nat := none
  deriving DecidableEq, Repr

/-- A running update (spec/20 R550): target (0 image, 1 configuration store), bank, key slot, generation, payload length, phase (0 erasing, 1 writing, 2 ended), blocks to erase, bytes written, and the contents so far: the bytes programmed, by image offset. -/
structure Upd where
  target : Nat
  bank : Nat
  keyid : Nat
  gen : Nat
  len : Nat
  phase : Nat := 0
  left : Nat := 0
  bytes : Nat := 0
  data : List (Nat × Nat) := []
  deriving DecidableEq, Repr

/-- A source of management datagrams (spec/20 R547): its address, its recent drops, until when it is blocked. -/
structure SrcIp where
  ip : Nat
  drops : List Nat := []
  blocked : Option Nat := none
  deriving DecidableEq, Repr

/-- An accepted READ or WRITE that runs or waits (spec/20 R548): its datagram, how many words are done, what a READ has gathered, the access slot that works on it. -/
structure BapJob where
  b : Bap
  write : Bool
  done : Nat := 0
  words : List Nat := []
  pois : List Bool := []
  slot : Option Nat := none
  deriving DecidableEq, Repr

/-- Basecamp (spec/20): whether boot has run, whether power-on reset is held (spec/21 R565), its start, the nonce, key slots, the KEY_DATA words written, sources, accepted accesses, the running update, flash contents by byte where they differ from erased (bank A, bank B, configuration store), a store newer than the last cold boot, the power state (R554), the tile update under way (tile, spare, new TILE_ENTRY), the servo's runs of good and bad offsets and its last Sync, the repair list and the fuses. -/
structure BcpH where
  booted : Bool := false
  held : Bool := false
  pst : Nat := 0
  start : Nat := 0
  nonce : DWord := 0
  keys : List KeyH := { right := 4, upd := true } :: List.replicate 7 {}
  keyBuf : List Nat := List.replicate 8 0
  srcs : List SrcIp := []
  jobs : List BapJob := []
  upd : Option Upd := none
  imgA : List (Nat × Nat) := []
  imgB : List (Nat × Nat) := []
  store : List (Nat × Nat) := []
  storeNew : Bool := false
  tupd : Option (Nat × Nat × Nat) := none
  good : Nat := 0
  bad : Nat := 0
  tSync : Nat := 0
  repairs : List RepE := []
  fuses : List RepE := []
  /-- Bivouac (spec/20 R554–R556): the pages recorded with ENABLE = 1, the ECC_PWR values to restore, whether the entry goes on to OFF, a wake that arrived in ENTERING. -/
  recorded : List Nat := []
  pwrSaved : List (Nat × Nat) := []
  toOff : Bool := false
  wakeHeld : Option Nat := none
  /-- The stored register writes of boot step 5 wait to be applied (spec/20 R536). -/
  step5 : Bool := false
  /-- Units that wait for the requested pass of power-on reset (spec/17 R486), as unit and instance. -/
  bootTests : List (Nat × Nat) := []
  /-- The compute dies lost power at CRIT (spec/20 R559). -/
  hot : Bool := false
  /-- Output groups whose field supply stands below 15 V (spec/21 R577). -/
  fldLow : List Nat := []
  deriving DecidableEq, Repr

/-- An Ethernet frame that a sensor port sends (spec/04 R97, R101): destination, source, EtherType and payload, the 4-byte frame header first. -/
structure EthFrame where
  dest : Nat
  src : Nat
  ethertype : Nat
  payload : List Byte
  deriving DecidableEq, Repr

/-- What the module sends to the outside, in order: replies to bus reads and the frames and datagrams of its links. -/
inductive Out where
  /-- The reply to a bus read: who asked, the page index, the offset, the value. -/
  | readReply (w : Writer) (page off : Nat) (val : DWord)
  /-- An OSP record leaving a sensor port: TYPE, FLAGS, SEQ, ARG, body; and the frame that carries it, with its CRC. -/
  | osp (port type flags seq arg : Nat) (body : List Byte) (frame : EthFrame)
  /-- A rope frame: port, TYPE, hops left, DPATH, SPATH, ARG, SEQ, payload words and their poison. -/
  | rope (port type hops : Nat) (dpath spath : List Nat) (arg seq : Nat) (words : List Nat) (pois : List Bool)
  /-- A reply of the Basecamp access protocol: OP, TAG, SEQ, STATUS, data words and their poison. -/
  | bap (service : Bool) (op tag seq status : Nat) (words : List Nat) (pois : List Bool)
  deriving DecidableEq, Repr

end Sys2Proof.Machine
end

