-- ==== Sys2Proof/Machine/State.lean ====
section
/-! DEFINITION. The state of one module, the fault and refusal names, and the state after reset. -/

namespace Sys2Proof.Machine

/-- Track 0's time base (spec/03 R68): the position in seconds at a cycle, the rate against the module oscillator, whether the servo has locked. -/
structure Wall where
  t0 : Nat := 0
  p0 : Rat := 0
  rate : Rat := 1
  locked : Bool := false
  everLocked : Bool := false
  deriving DecidableEq, Repr

/-- The event log (spec/20 R538–R541): the next sequence number, the staged records, the records in flash, the least severity written. -/
structure LogS where
  nextSeq : Nat := 0
  staged : List LogRec := []
  flash : List LogRec := []
  warm : Bool := false
  deriving DecidableEq, Repr

/-- The module. Sparse maps hold only what differs from their defaults (Sparse.lean). -/
structure State where
  /-- The commands waiting, first in first out. -/
  pending : List Instr := []
  /-- The module cycle count (spec/03 R58). -/
  now : Nat := 0
  /-- What events set, counted or marked in the present cycle (spec/00_scope.md R11, spec/02 R40), by field: how many a bit or count took, how many found it full, the largest mark (Ops.lean, hotKey). -/
  hot : List (Nat × Nat) := []
  /-- The model's own counter: the next draw of a free value. -/
  free : Nat := 0
  /-- Every control-page register word that differs from its reset value, by page index × 4096 + offset. -/
  regs : List (Nat × Word) := []
  /-- Control pages by page index: block power, a reset under way (spec/02 R42, R44). -/
  pages : List (Nat × PageH) := []
  /-- Every byte of DRAM, cluster memory and tile local memory that differs from 0, by local address. -/
  mem : List Host.Cell := []
  /-- Per byte of SRAM: its stored check bits XOR the proper ones of its stored data (spec/15 R431). -/
  chk : List (Nat × Nat) := []
  /-- Per 64-bit word: the three poison copies (spec/15 R433); for DRAM all three follow the line's mask (R436). -/
  pois : List (Nat × Nat) := []
  /-- Per 16-byte granule: the three tag copies (spec/15 R433). -/
  tags : List (Nat × Nat) := []
  /-- Per DRAM line: its erroneous stored symbols and their XOR patterns (spec/15 R436). -/
  dramErr : List (Nat × List (Nat × Nat)) := []
  /-- Memory banks: their scrubbers, wakes and early queues (spec/15 R443–R448). -/
  banks : List (Nat × BankH) := []
  /-- Track inputs (spec/03 R59–R62). -/
  trkIn : List (Nat × TrkInH) := []
  /-- Tracks (spec/03 R63–R85). -/
  trk : List (Nat × TrkH) := []
  /-- Broadcasts on their way, oldest first: the instant and the records of tracks 0–63 (spec/03 R70). -/
  bcast : List (Nat × List BRec) := []
  /-- The instant of the last broadcast (spec/03 R70). -/
  lastBcast : Option Nat := none
  /-- Track 0 (spec/03 R68). -/
  wall : Wall := {}
  /-- Waypoint entries (spec/03 R86–R88). -/
  wpt : List (Nat × WptH) := []
  /-- Items waiting at stream sources, by source key. -/
  srcQ : List (Nat × List SrcItem) := []
  /-- Stream entries (spec/05 R148–R171). -/
  strs : List (Nat × StrH) := []
  /-- Set-ups and closings of rings that wait for their block (spec/05 R158, R163). -/
  ringWait : List RingW := []
  /-- The entries served last, NORMAL and SAFETY (spec/05 R167). -/
  strTurn : Nat × Nat := (4095, 4095)
  /-- Cell writes: the millisecond counted, its count, the last whole millisecond's count (spec/05 STR_FLOW). -/
  flow : Nat × Nat × Nat := (0, 0, 0)
  /-- Sensor ports (spec/04 R96–R147). -/
  ports : List (Nat × PortH) := []
  /-- When ports applied power within the last 10 ms (spec/21 R572). -/
  portPower : List Nat := []
  /-- Inputs of the Angle Resamplers, cluster × 256 + input (spec/06 R173–R175). -/
  arsIn : List (Nat × InH) := []
  /-- Views of the Angle Resamplers, cluster × 512 + view (spec/06 R176–R197). -/
  arsView : List (Nat × ViewH) := []
  /-- The Angle Resamplers (spec/06 R172–R200). -/
  ars : List (Nat × ArsH) := []
  /-- Slots of the Feature Reducers, cluster × 4096 + slot (spec/08 R236–R256). -/
  slots : List (Nat × SlotH) := []
  /-- The Feature Reducers (spec/08 R239). -/
  frd : List (Nat × FrdH) := []
  /-- Tiles (spec/10 R285–R325). -/
  tiles : List (Nat × TileH) := []
  /-- Transform Engines (spec/07 R201–R235). -/
  tfe : List (Nat × TfeH) := []
  /-- Safety outputs (spec/09 R257–R284). -/
  souts : List (Nat × SoutH) := []
  /-- Rope circuits (spec/19 R517–R521). -/
  circs : List (Nat × CircH) := []
  /-- Watchdogs by page index (spec/16 R450–R463). -/
  wdg : List (Nat × WdgH) := []
  /-- The instant to which each tile's cycle counts are settled (spec/16 R464–R466). -/
  pmcT : List (Nat × Nat) := []
  /-- Self-test pages by page index (spec/17). -/
  bist : List (Nat × BistH) := []
  /-- Crossings, page × 64 + number (spec/18). -/
  xng : List (Nat × XngH) := []
  /-- Rope ports (spec/19 R500–R503). -/
  ropes : List (Nat × RopeH) := []
  /-- Teams (spec/19 R507–R516). -/
  teams : List (Nat × TeamH) := []
  /-- Access slots and requests of the module to itself (spec/19 R523). -/
  rope : RopeM := {}
  /-- Basecamp (spec/20 R530–R559). -/
  bcp : BcpH := {}
  /-- SPWR stands below 18 V, or has not yet stood at 18.5 V for 100 ms since (spec/21 R571). -/
  spwrLow : Bool := false
  /-- The event log (spec/20 R538–R541). -/
  log : LogS := {}
  /-- What the module has sent to the outside, oldest first. -/
  out : List Out := []
  deriving DecidableEq, Repr

/-- The model stops with no fault: every behaviour of the spec that names an error goes on (closed inductive with no constructor raised). -/
inductive Fault where
  /-- Raised by no meaning; safe. -/
  | none
  deriving DecidableEq, Repr

/-- Why a command is refused. -/
inductive Refusal where
  /-- The command's row has no meaning yet; raised by a dispatch arm only; safe. -/
  | notModelled (mnemonic : String)
  deriving DecidableEq, Repr

/-- The machine right after power-on reset: every register at its reset value, every block idle. -/
def State.reset : State := {}

end Sys2Proof.Machine
end

