-- ==== Sys2Proof/Machine/Ops.lean ====
section
/-! DEFINITION. The named operations over registers, counters, interrupt bits, the event log and time that every block shares. -/

namespace Sys2Proof.Machine

/-- The register word at an offset of a page. -/
def State.rd (s : State) (page off : Nat) : Nat := (sget regDefault s.regs (regKey page off)).toNat

/-- The state with a register word replaced, as a block updates its own registers. -/
def State.wr (s : State) (page off v : Nat) : State :=
  { s with regs := sput regDefault (regKey page off) (BitVec.ofNat 32 v) s.regs }

/-- The 64-bit register at an offset, low word first (spec/02 R34). -/
def State.rd64 (s : State) (page off : Nat) : Nat := cat32 (s.rd page off) (s.rd page (off + 4))

def State.wr64 (s : State) (page off v : Nat) : State :=
  (s.wr page off (lo32 v)).wr page (off + 4) (hi32 v)

/-- A field of a register. -/
def State.fld (s : State) (page off hi lo : Nat) : Nat := bits (s.rd page off) hi lo

def State.setFld (s : State) (page off hi lo v : Nat) : State :=
  s.wr page off (setBits (s.rd page off) hi lo v)

/-- What events of the present cycle did to a field: events that a bit or a count took, events that found a count full, the largest value a high-water mark was offered. -/
inductive HotSort where
  | took | full | mark
  deriving DecidableEq, Repr

/-- The key of a field in State.hot: its register, its bits and the sort of what is noted. -/
def hotKey (reg hi lo : Nat) (k : HotSort) : Nat :=
  ((reg * 64 + hi) * 64 + lo) * 4 + match k with | .took => 0 | .full => 1 | .mark => 2

/-- What the present cycle has noted of a field. -/
def State.hotAt (s : State) (reg hi lo : Nat) (k : HotSort) : Nat := sget (fun _ => 0) s.hot (hotKey reg hi lo k)

def State.setHot (s : State) (reg hi lo : Nat) (k : HotSort) (v : Nat) : State :=
  { s with hot := sput (fun _ => 0) (hotKey reg hi lo k) v s.hot }

/-- Notes `n` events of the present cycle that a clear of the same cycle does not lose (spec/00_scope.md R11): `full` of them found their count full. -/
def State.note (s : State) (reg hi lo : Nat) (n : Nat := 1) (full : Nat := 0) : State :=
  (s.setHot reg hi lo .took (s.hotAt reg hi lo .took + n)).setHot reg hi lo .full (s.hotAt reg hi lo .full + full)

/-- Adds to a saturating count held in a field; a clear in the same cycle leaves these events counted (spec/00_scope.md R11, spec/02 R40). -/
def State.bump (s : State) (page off hi lo : Nat) (n : Nat := 1) : State :=
  let v := s.fld page off hi lo
  let v' := satAdd (2 ^ (hi + 1 - lo) - 1) v n
  (s.setFld page off hi lo v').note (regKey page off) hi lo (v' - v) (n - (v' - v))

/-- The entries of State.hot of one register word: bits and sort in one number, and what is noted. -/
def State.hotOf (s : State) (page off : Nat) : List (Nat × Nat) :=
  (s.hot.filter fun e => e.1 / 16384 == regKey page off).map fun e => (e.1 % 16384, e.2)

/-- The bits of a word that single events of the present cycle set. -/
def State.hotBits (s : State) (page off : Nat) : Nat :=
  (s.hotOf page off).foldl (fun m e => if e.1 % 4 = 0 then m ||| 2 ^ (e.1 / 4 % 64) else m) 0

/-- A word whose read-and-clear bits `mask` are cleared: events of the present cycle stay counted, a mark of the present cycle stays (spec/00_scope.md R11). -/
def State.hotAfter (s : State) (page off mask : Nat) : Nat :=
  (s.hotOf page off).foldl (fun v e =>
    let hi := e.1 / 256; let lo := e.1 / 4 % 64
    if !bit mask lo then v
    else if e.1 % 4 = 2 then setBits v hi lo (max (bits v hi lo) e.2)
    else setBits v hi lo (satAdd (2 ^ (hi + 1 - lo) - 1) (bits v hi lo) e.2)) (clearBits (s.rd page off) mask)

/-- A word as it stood before its read-and-clear bits `mask` counted the events of the present cycle (spec/02 R40). -/
def State.hotBefore (s : State) (page off mask v : Nat) : Nat :=
  (s.hotOf page off).foldl (fun v e =>
    let hi := e.1 / 256; let lo := e.1 / 4 % 64
    if e.1 % 4 = 0 && bit mask lo then setBits v hi lo (bits v hi lo - e.2) else v) v

/-- Raises a field to `v` where `v` is larger: high-water marks, which a clear in the same cycle leaves at `v` (spec/00_scope.md R11). -/
def State.raiseMax (s : State) (page off hi lo v : Nat) : State :=
  let v := min v (2 ^ (hi + 1 - lo) - 1)
  let s := s.setFld page off hi lo (max (s.fld page off hi lo) v)
  s.setHot (regKey page off) hi lo .mark (max (s.hotAt (regKey page off) hi lo .mark) v)

/-- Sets bit `b` of a register. -/
def State.setB (s : State) (page off b : Nat) (v : Bool := true) : State := s.setFld page off b b (b2n v)

def State.getB (s : State) (page off b : Nat) : Bool := bit (s.rd page off) b

/-- An event sets a W1C bit: a clear in the same cycle leaves it set (spec/00_scope.md R11). -/
def State.raise (s : State) (page off b : Nat) : State := (s.setB page off b).note (regKey page off) b b

/-- Sets PAGE_INT_STATUS bit `b` (spec/02 R38). -/
def State.irq (s : State) (page b : Nat) : State := s.raise page oIntStatus b

/-- Whether the page requests an interrupt (spec/02 R39). -/
def State.irqRequest (s : State) (page : Nat) : Bool :=
  (s.rd page oIntStatus &&& s.rd page oIntEnable) != 0

/-- The PAGE_ID of a page (spec/02 R38). -/
def State.pageId (s : State) (page : Nat) : Nat := s.rd page 0x000

/-- The interrupt requests that stand at a destination, as page index and PAGE_ID (spec/02 R39): a tile number, or 0xFF for Basecamp. A request stands as long as its page makes it; Basecamp's firmware, which takes its own, is no state of this model. -/
def State.requestsAt (s : State) (dest : Nat) : List (Nat × Nat) :=
  (((s.regs.filter fun q => q.1 % 4096 == oIntStatus).map fun q => q.1 / 4096).filter fun p =>
    s.irqRequest p && s.fld p oIntRoute 7 0 == dest).map fun p => (p, s.pageId p)

/-- Records one clamped or dropped write in PAGE_CLAMP (spec/02 R38, R47). -/
def State.clampCount (s : State) (page off kind : Nat) : State :=
  let s := s.bump page oClamp 31 16
  let s := s.setFld page oClamp 13 12 kind
  s.setFld page oClamp 11 0 off

/-- Counts a corrected memory error of the block (spec/02 R38). -/
def State.errCorr (s : State) (page : Nat) : State := s.bump page oErr 31 16

/-- Counts an uncorrectable error and raises ERR. -/
def State.errUncorr (s : State) (page : Nat) : State := (s.bump page oErr 15 8).irq page 4

/-- Counts a poison consumption that bit and raises ERR. -/
def State.errPoison (s : State) (page : Nat) : State := (s.bump page oErr 7 0).irq page 4

def State.pageH (s : State) (page : Nat) : PageH := sget (fun _ => {}) s.pages page

def State.setPageH (s : State) (page : Nat) (h : PageH) : State :=
  { s with pages := sput (fun _ => {}) page h s.pages }

/-- PAGE_STATUS bits. -/
def State.ready (s : State) (page : Nat) : Bool := s.getB page oStatus 0
def State.busy (s : State) (page : Nat) : Bool := s.getB page oStatus 1
def State.faulted (s : State) (page : Nat) : Bool := s.getB page oStatus 2
def State.retired (s : State) (page : Nat) : Bool := s.getB page oStatus 3

/-- PAGE_CTRL bits. -/
def State.enabled (s : State) (page : Nat) : Bool := s.getB page oCtrl 0
def State.locked (s : State) (page : Nat) : Bool := s.getB page oCtrl 1

/-- Whether the page's block is powered ON (spec/02 R41, R44). -/
def State.powered (s : State) (page : Nat) : Bool := (s.pageH page).power == 2

/-- Moves the module cycle count on to the instant of an event; it never goes back. -/
def State.upTo (s : State) (t : Nat) : State := { s with now := max s.now t, hot := if s.now < t then [] else s.hot }

/-- Draws the next number of the free-value counter. -/
def State.draw (s : State) : Nat × State := (s.free, { s with free := s.free + 1 })

/-- Appends to the module's outputs. -/
def State.emit (s : State) (o : Out) : State := { s with out := s.out ++ [o] }

/-- Track 0's position in seconds at a cycle (spec/03 R68). -/
def Wall.pos (w : Wall) (t : Nat) : Rat := w.p0 + ((t : Rat) - w.t0) / 3000000000 * w.rate

/-- A position in turns as a TPOS count, to the nearest (spec/03 R72). -/
def tposOf (x : Rat) : Int := ratNearest (x * 2 ^ 32)

/-- WALL as TPOS: seconds modulo 2^32. -/
def State.wallTpos (s : State) (t : Nat) : DWord := BitVec.ofInt 64 ((tposOf (s.wall.pos t)) % 2 ^ 64)

/-- Pending records are written to both flashes; when the log of 524,288 wraps, the oldest 2,048 are erased (spec/20 R540). -/
def State.logFlush (s : State) : State :=
  if s.log.staged.isEmpty then s else
  let l := s.log.flash ++ s.log.staged
  let l := if 524288 < l.length then l.drop 2048 else l
  (({ s with log := { s.log with flash := l, staged := [] } } : State).setFld (pgBcp 1) 0x048 31 24 0).irq (pgBcp 1) 16

/-- Records an event in Basecamp's log (spec/20 R538–R540): staged unless its severity is below MINSEV; a full buffer of 64 discards it and counts LOST; 32 pending records are flushed at once. -/
def State.logEvent (s : State) (code sev source data : Nat) : State :=
  if sev < s.fld (pgBcp 1) 0x048 1 0 then s
  else if 64 ≤ s.log.staged.length then s.bump (pgBcp 1) 0x048 23 16
  else
    let r : LogRec := ⟨s.wallTpos s.now, s.log.nextSeq, code, sev,
      b2n (!s.wall.locked) + 2 * b2n s.log.warm, source, data⟩
    let s := { s with log := { s.log with staged := s.log.staged ++ [r], nextSeq := s.log.nextSeq + 1 } }
    let s := s.setFld (pgBcp 1) 0x048 31 24 s.log.staged.length
    if 32 ≤ s.log.staged.length then s.logFlush else s

/-- Folds a step over a list of numbers. -/
def State.each {α : Type} (s : State) (l : List α) (f : State → α → State) : State := l.foldl f s

end Sys2Proof.Machine
end

