-- ==== Sys2Proof/Machine/PageOps.lean ====
section
/-! DEFINITION. The page state machine of spec/02 R41: the four status bits, the interrupt causes and the log records that their changes bring. -/

namespace Sys2Proof.Machine

/-- CLU_INFO of cluster `c` (spec/02): READY, ROLE = SPARE and RETIRED of its eight tiles. -/
def State.cluInfo (s : State) (c : Nat) : Nat :=
  (List.range 8).foldl (fun a i =>
    let p := pgTile (8 * c + i)
    a + (b2n (s.ready p)) * 2 ^ (16 + i) + (b2n (s.getB p 0x040 29)) * 2 ^ (8 + i) + (b2n (s.retired p)) * 2 ^ i) 0

/-- Raises bit 18 of the CLU page when its CLU_INFO differs from `before` (spec/02 R57). -/
def State.cluInfoChanged (s : State) (c before : Nat) : State :=
  if s.cluInfo c = before then s else s.irq (pgClu c) 18

/-- Sets the four status bits of a page and the causes UP, DOWN, FAULT and RETIRED of PAGE_INT_STATUS (spec/02 R38, R41); a RETIRED page stays so (R45). -/
def State.setStatusBits (s : State) (page : Nat) (ready busy fault retired : Bool) : State :=
  if s.retired page then s else
  let r0 := s.ready page; let f0 := s.faulted page; let t0 := s.retired page
  let s := s.setFld page oStatus 3 0 (b2n ready + 2 * b2n busy + 4 * b2n fault + 8 * b2n retired)
  let s := if ready && !r0 then s.irq page 0 else s
  let s := if r0 && !ready then s.irq page 1 else s
  let s := if fault && !f0 then s.irq page 2 else s
  if retired && !t0 then s.irq page 3 else s

def State.bistH (s : State) (p : Nat) : BistH := sget (fun _ => {}) s.bist p
def State.setBist (s : State) (p : Nat) (h : BistH) : State := { s with bist := sput (fun _ => {}) p h s.bist }

/-- Cuts what runs on a spare that is needed now: each slice ends INCOMPLETE (spec/17 R473). -/
def State.bistCut (s : State) (t : Nat) : State :=
  s.each [pgBistC (t / 8), pgBistM] fun s p =>
    let h := s.bistH p
    let cut := h.runs.filter fun r => (r.unit == 1 || r.unit == 5) && r.inst == t
    (s.setBist p { h with runs := h.runs.filter fun r => !((r.unit == 1 || r.unit == 5) && r.inst == t) }).bump p 0x058 23 16 cut.length

/-- The power state of the module (spec/20 R554): 0 ACTIVE, 1 ENTERING, 2 BIVOUAC, 3 WAKING, 4 OFF; BCP_BIV_STAT.PSTATE shows it. -/
def State.pstate' (s : State) : Nat := s.bcp.pst

def State.wdgH (s : State) (p : Nat) : WdgH := sget (fun _ => {}) s.wdg p
def State.setWdg (s : State) (p : Nat) (h : WdgH) : State := { s with wdg := sput (fun _ => {}) p h s.wdg }

/-- WSTATE: 0 BOOT, 1 CLOSED, 2 OPEN, 3 HARD, 4 WARNING, 5 PARKED (spec/16 R454). -/
def State.wstate (s : State) (p : Nat) : Nat := s.fld p 0x05C 31 29

/-- A watchdog enters a state for a number of ticks; its page shows it (spec/16 R454, R460): PARKED is OFF, HARD is FAULT with its cause, logged as every page's, the others are READY. A RETIRED watchdog does nothing more (spec/02 R41, R45). -/
def State.wdgEnter (s : State) (p st dur : Nat) : State :=
  if s.retired p then s else
  let s := (s.setFld p 0x05C 31 29 st).setWdg p { t0 := s.now, dur := dur, woke := false }
  let s := if st = 0 then s.setFld p 0x05C 15 0 0 else s
  if st = 5 then s.setStatusBits p false false false false
  else if st = 3 then (s.setStatusBits p false false true false).logEvent 0x0030 2 p (s.fld p 0x05C 27 24)
  else if s.faulted p then s.setStatusBits p false true false false
  else if s.ready p || s.busy p then s
  else s.setStatusBits p true false false false

/-- Whether tile `t` meets a condition of spec/16 R453: OFF outside bivouac, RETIRED, or ROLE = SPARE. -/
def State.wdgParked (s : State) (t : Nat) : Bool :=
  let p := pgTile t
  s.retired p || s.getB p 0x040 29 || !(s.ready p || s.busy p || s.faulted p)

/-- Parks the watchdog of a tile, or starts its boot window, as spec/16 R453 and R454 ask; HARD has no such row. In bivouac nothing changes (R461). -/
def State.wdgSync (s : State) (t : Nat) : State :=
  let p := pgWdgT t
  let st := s.wstate p
  if s.wdgParked t then
    (if st = 5 ∨ st = 3 ∨ (s.pstate' ≠ 0 ∧ !s.retired (pgTile t) ∧ !s.getB (pgTile t) 0x040 29) then s else s.wdgEnter p 5 0)
  else if st = 5 then s.wdgEnter p 0 12500000 else s

/-- The watchdog of the spare takes the state of the source's: state, time left, CHECKED, cause, lock and the configuration the lock keeps; the source's parks (spec/16 R453, R459). -/
def State.wdgMove (s : State) (a b : Nat) : State :=
  let pa := pgWdgT a; let pb := pgWdgT b
  if s.retired pb then s.wdgEnter pa 5 0 else
  let st := s.wstate pa
  let h := s.wdgH pa
  let s := s.each [0x040, 0x044, 0x048, 0x04C, 0x050, 0x05C] fun s o => s.wr pb o (s.rd pa o)
  let s := s.setB pb oCtrl 1 (s.locked pa)
  let s := (s.setFld pb oStatus 15 8 (s.fld pa oStatus 15 8)).setWdg pb h
  let s := if st = 3 then s.setStatusBits pb false false true false
    else if st = 5 then s.setStatusBits pb false false false false else s.setStatusBits pb true false false false
  s.wdgEnter pa 5 0

/-- As `setStatusBits`, with the cluster summary and the watchdog told when a tile page changes (spec/02 R57, spec/16 R453). -/
def State.setStatus (s : State) (page : Nat) (ready busy fault retired : Bool) : State :=
  match pageAt page with
  | some (.tile, t) =>
    let before := s.cluInfo (t / 8)
    ((s.setStatusBits page ready busy fault retired).cluInfoChanged (t / 8) before).wdgSync t
  | _ => s.setStatusBits page ready busy fault retired

/-- OFF: all four bits 0; FAULT_CODE keeps the last cause. -/
def State.pageOff (s : State) (page : Nat) : State := s.setStatus page false false false false

/-- STARTING. -/
def State.pageStarting (s : State) (page : Nat) : State := s.setStatus page false true false false

/-- READY. -/
def State.pageReady (s : State) (page : Nat) : State := s.setStatus page true false false false

/-- Fault detected (spec/02 R41): STARTING or READY goes to FAULT with its cause, but not while a RESET runs (R42); any page's entry into FAULT is logged, a safety output's by its own record (spec/20 R539). -/
def State.pageFault (s : State) (page code : Nat) : State :=
  if s.retired page || (s.pageH page).resetting then s
  else if s.ready page || s.busy page then
    let was := s.faulted page
    let s := s.setStatus page false false true false
    let s := s.setFld page oStatus 15 8 code
    match pageAt page with
    | some (.sout, _) => s
    | _ => if was then s else s.logEvent 0x0030 2 page code
  else s

/-- Retirement by the block (spec/02 R41). -/
def State.pageRetire (s : State) (page : Nat) : State :=
  if s.retired page then s
  else (s.setStatus page false false true true).logEvent 0x0031 2 page (s.fld page oStatus 15 8)

/-- Block recovery completes (spec/02 R41). -/
def State.pageRecover (s : State) (page : Nat) : State :=
  if s.faulted page && !s.retired page then s.pageStarting page else s

/-- Block power goes to RETENTION or OFF, or comes back ON (spec/02 R41). -/
def State.pagePower (s : State) (page pw : Nat) : State :=
  let s := s.setPageH page { s.pageH page with power := pw }
  if pw = 2 || s.retired page then s
  else if s.ready page || s.busy page || s.faulted page then s.setStatus page false false false false
  else s

end Sys2Proof.Machine
end

