-- ==== Sys2Proof/Machine/Memory.lean ====
section
/-! DEFINITION. The addressable memories with their codes, poison, tags, bank power, scrubbing and fault injection (spec/15 R429–R449, spec/02 R28). -/

namespace Sys2Proof.Machine

/-- Base addresses of the local address map (spec/02 R28). -/
def clusterBase (c : Nat) : Nat := 0x1000000000 + c * 0x800000
def tileBase (t : Nat) : Nat := 0x1100000000 + t * 0x80000
def ownBase : Nat := 0x1200000000
def pageBase : Nat := 0x1800000000
def dramSize : Nat := 0x800000000

/-- Where a byte of memory stands: the ECC page that governs it, its bank or region, and that page's SUB. -/
structure MemLoc where
  page : Nat
  bank : Nat
  sub : Nat
  deriving DecidableEq, Repr

/-- The memory a local address falls in; none for pages and unmapped addresses (spec/02 R28, spec/15 R429). -/
def memLoc (a : Nat) : Option MemLoc :=
  if a < dramSize then some ⟨pgEccD, a / 2 ^ 32, 2⟩
  else if clusterBase 0 ≤ a ∧ a < clusterBase 16 then
    let c := (a - clusterBase 0) / 0x800000
    some ⟨pgEccC c, (a - clusterBase c) / 0x80000, 1⟩
  else if tileBase 0 ≤ a ∧ a < tileBase 128 then some ⟨pgEccT ((a - tileBase 0) / 0x80000), 0, 0⟩
  else none

def zero8 : Nat → Byte := fun _ => 0
def zeroN : Nat → Nat := fun _ => 0

/-- The stored data byte at an address. -/
def State.byte (s : State) (a : Nat) : Byte := sget zero8 s.mem a
def State.setByte (s : State) (a : Nat) (b : Byte) : State := { s with mem := sput zero8 a b s.mem }

/-- The check-bit difference of a byte, the poison copies of a word, the tag copies of a granule. -/
def State.chkDiff (s : State) (a : Nat) : Nat := sget zeroN s.chk a
def State.setChk (s : State) (a v : Nat) : State := { s with chk := sput zeroN a v s.chk }
def State.poisCopies (s : State) (a : Nat) : Nat := sget zeroN s.pois (a / 8)
def State.setPois (s : State) (a v : Nat) : State := { s with pois := sput zeroN (a / 8) v s.pois }
def State.tagCopies (s : State) (a : Nat) : Nat := sget zeroN s.tags (a / 16)
def State.setTag (s : State) (a v : Nat) : State := { s with tags := sput zeroN (a / 16) v s.tags }
def State.lineErr (s : State) (l : Nat) : List (Nat × Nat) := sget (fun _ => []) s.dramErr l
def State.setLineErr (s : State) (l : Nat) (e : List (Nat × Nat)) : State := { s with dramErr := sput (fun _ => []) l e s.dramErr }

/-- Majority of three copies (spec/15 R433). -/
def maj3 (v : Nat) : Bool := decide (2 ≤ popCount 3 v)

/-- The granule's tag (spec/14 R410). -/
def State.tag (s : State) (a : Nat) : Bool := maj3 (s.tagCopies a)

def bankKey (page bank : Nat) : Nat := page * 16 + bank
def State.bankH (s : State) (page bank : Nat) : BankH := sget (fun _ => {}) s.banks (bankKey page bank)
def State.setBank (s : State) (page bank : Nat) (h : BankH) : State := { s with banks := sput (fun _ => {}) (bankKey page bank) h s.banks }

/-- The power bank a location belongs to: DRAM and a tile memory have one. -/
def MemLoc.pwrBank (l : MemLoc) : Nat := if l.sub = 1 then l.bank else 0

/-- A bank's state for its accesses: 0 OFF, 1 RETENTION, 2 usable, 3 waking, or ON and not yet initialised (spec/02 R55, spec/15 R448). ECC_PWR_STAT shows a bank that initialises after power-on as ON, its reset value. -/
def State.bankUse (s : State) (page b : Nat) : Nat :=
  let st := s.fld page 0x048 (2 * b + 1) (2 * b)
  if st = 2 ∧ (s.bankH page b).inited = false then 3 else st

def State.bankState (s : State) (l : MemLoc) : Nat := s.bankUse l.page l.pwrBank

/-- The check bits c4–c0 of a data byte (spec/15 R431). -/
def checkBits (d : Nat) : Nat :=
  let x (is : List Nat) : Nat := (is.foldl (fun a i => a + (d / 2 ^ i) % 2) 0) % 2
  let c0 := x [0, 1, 3, 4, 6]; let c1 := x [0, 2, 3, 5, 6]; let c2 := x [1, 2, 3, 7]; let c3 := x [4, 5, 6, 7]
  let c4 := (x [0, 1, 2, 3, 4, 5, 6, 7] + c0 + c1 + c2 + c3) % 2
  c0 + 2 * c1 + 4 * c2 + 8 * c3 + 16 * c4

/-- The data bit at a code position, when it is one. -/
def posToBit (p : Nat) : Option Nat :=
  match p with
  | 3 => some 0 | 5 => some 1 | 6 => some 2 | 7 => some 3 | 9 => some 4 | 10 => some 5 | 11 => some 6 | 12 => some 7
  | _ => none

/-- What decoding one byte finds. -/
inductive ByteRes where
  | ok
  | corrected (pos : Nat)
  | uncorr (syndrome : Nat)
  deriving DecidableEq, Repr

/-- Decodes a stored byte from its check-bit difference: the syndrome is its low four bits, the overall parity its parity (spec/15 R431). -/
def decodeByte (raw diff : Nat) : Nat × ByteRes :=
  let s := diff % 16
  let p := popCount 5 diff % 2
  if diff % 32 = 0 then (raw, .ok)
  else if p = 1 then
    match posToBit s with
    | some i => (raw ^^^ 2 ^ i, .corrected s)
    | none => if 12 < s then ((Config.badSyndrome raw s).toNat, .corrected s) else (raw, .corrected s)
  else (raw, .uncorr s)

/-- Counts a correction at a code position of a lane or line (spec/15 R447 and the register tables). -/
def State.countCorr (s : State) (l : MemLoc) (addr pos : Nat) : State :=
  let h := s.bankH l.page l.bank
  let off := 0x100 + 16 * l.bank
  let s := (s.bump l.page off 31 16).errCorr l.page
  let s := if h.lastCorr = some (addr, pos) then (s.bump l.page off 7 0).irq l.page 18 else s
  let s := s.setBank l.page l.bank { h with lastCorr := some (addr, pos) }
  s.wr64 l.page (off + 8) (2 ^ 63 + pos * 2 ^ 48 + addr)

/-- Counts an uncorrectable event and raises bit 16. -/
def State.countUncorr (s : State) (l : MemLoc) (addr pos : Nat) : State :=
  let off := 0x100 + 16 * l.bank
  let s := (s.bump l.page off 15 8).errUncorr l.page
  let s := s.irq l.page 16
  s.wr64 l.page (off + 8) (2 ^ 63 + 2 ^ 62 + pos * 2 ^ 48 + addr)

/-- Puts an address in the early-scrub queue of its scrubber; a full queue drops it (spec/15 R444). -/
def State.earlyScrub (s : State) (l : MemLoc) (addr : Nat) : State :=
  let b := l.pwrBank
  let h := s.bankH l.page b
  if addr ∈ h.early then s
  else if 8 ≤ h.early.length then s.bump l.page 0x060 15 8
  else s.setBank l.page b { h with early := h.early ++ [addr] }

/-- Sets the contents of a whole bank to zero with valid codes (spec/15 R448). -/
def State.clearRange (s : State) (a b : Nat) : State :=
  { s with mem := sclear s.mem a b, chk := sclear s.chk a b, pois := sclear s.pois (a / 8) (b / 8),
           tags := sclear s.tags (a / 16) (b / 16), dramErr := sclear s.dramErr (a / 64) (if b ≤ dramSize then b / 64 else a / 64) }

/-- The address range of bank `b` of the memory on an ECC page. -/
def bankRange (page b : Nat) : Nat × Nat :=
  match pageAt page with
  | some (.eccC, c) => (clusterBase c + b * 0x80000, clusterBase c + (b + 1) * 0x80000)
  | some (.eccT, t) => (tileBase t, tileBase (t + 1))
  | _ => (0, dramSize)

/-- A bank becomes usable: ECC_PWR_STAT shows ON, a cluster's CLU page raises bit 16 (spec/02 R55, R57). -/
def State.bankOn (s : State) (page b : Nat) : State :=
  let s := s.setFld page 0x048 (2 * b + 1) (2 * b) 2
  let h := s.bankH page b
  let s := s.setBank page b { h with wakeAt := 0, inited := true }
  match pageAt page with
  | some (.eccC, c) => s.irq (pgClu c) 16
  | _ => s

/-- The time a bank takes to become usable, in cycles (spec/15 R448). -/
def wakeCycles (sub from_ : Nat) : Nat :=
  if sub = 2 then (if from_ = 1 then cyclesPerUs else 300 * cyclesPerMs) else (if from_ = 1 then 200 else 8192)

/-- The banks of an ECC page with power of their own. -/
def eccSub (page : Nat) : Nat := match pageAt page with
  | some (.eccC, _) => 1
  | some (.eccD, _) => 2
  | _ => 0

/-- When a waking bank becomes usable; the initialisation after power-on runs from cycle 0 (log entry 141). -/
def State.bankReadyAt (s : State) (page b : Nat) : Nat :=
  let h := s.bankH page b
  if h.inited || h.wakeAt != 0 then h.wakeAt else wakeCycles (eccSub page) 0

/-- An access waits for a waking bank, so it meets it usable (spec/15 R448); a cluster's page counts the wait (spec/02 CLU_STALLS). -/
def State.awaitBank (s : State) (l : MemLoc) : State :=
  if s.bankState l = 3 then
    let s := (s.upTo (s.bankReadyAt l.page l.pwrBank)).bankOn l.page l.pwrBank
    match pageAt l.page with
    | some (.eccC, c) => s.bump (pgClu c) 0x048 15 0
    | _ => s
  else s

/-- Decodes the eight bytes of an SRAM lane: its data and whether some byte is uncorrectable, with the counts a demand read makes. -/
def State.sramLane (s : State) (l : MemLoc) (a : Nat) : (Nat × Bool) × State :=
  let step := fun (acc : (Nat × Option Nat) × State) i =>
    let raw := (s.byte (a + i)).toNat
    match decodeByte raw (s.chkDiff (a + i)) with
    | (d, .ok) => ((acc.1.1 + d * 256 ^ i, acc.1.2), acc.2)
    | (d, .corrected p) => ((acc.1.1 + d * 256 ^ i, acc.1.2), (acc.2.countCorr l a p).earlyScrub l a)
    | (d, .uncorr y) => ((acc.1.1 + d * 256 ^ i, some y), acc.2)
  let ((v, bad), s') := (List.range 8).foldl step ((0, none), s)
  let s' := match bad with
    | some y => (s'.countUncorr l a (Config.uncorrPosition y).val).earlyScrub l a
    | none => s'
  let pc := s.poisCopies a
  let s' := if pc ≠ 0 ∧ pc % 8 ≠ 7 then (s'.countCorr l a 13).earlyScrub l a else s'
  ((v, maj3 pc || bad.isSome), s')

/-- The data of a lane as it lies, with its poison: what a read delivers when the code is sound. -/
def State.rawLane (s : State) (a : Nat) : Nat := ofLe ((List.range 8).map fun i => s.byte (a + i))

/-- A byte of a DRAM line as its symbol is stored, its error included. -/
def State.storedByte (s : State) (a : Nat) : Byte :=
  (s.lineErr (a / 64)).foldl (fun b e => if e.1 = a % 64 then b ^^^ BitVec.ofNat 8 e.2 else b) (s.byte a)

/-- Marks an uncorrectable DRAM line: its bytes as read stand under valid codes, its eight words poisoned (spec/15 R438, R443). -/
def State.markLine (s : State) (line : Nat) : State :=
  let r := s
  let s := s.each (r.lineErr line) fun s e => if e.1 < 64 then s.setByte (line * 64 + e.1) (r.storedByte (line * 64 + e.1)) else s
  (s.each (List.range 8) fun s i => s.setPois (line * 64 + 8 * i) 7).setLineErr line []

/-- Decodes a DRAM line on a read: up to 4 erroneous symbols are corrected and counted, 5 or more make the line uncorrectable (spec/15 R437). Answers whether the line is uncorrectable. -/
def State.dramLine (s : State) (l : MemLoc) (line : Nat) : Bool × State :=
  match s.lineErr line with
  | [] => (false, s)
  | es =>
    if es.length ≤ 4 then
      (false, (es.foldl (fun s e => s.countCorr l (line * 64) e.1) s).earlyScrub l (line * 64))
    else (true, (s.countUncorr l (line * 64) (Config.uncorrSymbol line).val).earlyScrub l (line * 64))

/-- Reads `n` lanes from the lane address `a`: each lane's data and poison. `prev` is the line already decoded, or refused by its bank, in this access, with its outcome; an access to a bank that is not ON counts once for each line it touches (spec/15 R448; DESIGN CHOICE, log entry 169). -/
def State.rdLanes (s : State) : Nat → Nat → Option (Nat × Bool) → List (Nat × Bool) × State
  | 0, _, _ => ([], s)
  | n + 1, a, prev =>
    match memLoc a with
    | none => let (r, s') := s.rdLanes n (a + 8) prev; ((0, false) :: r, s')
    | some l =>
      let s := s.awaitBank l
      if s.bankState l ≠ 2 then
        let s := if prev.any fun q => q.1 == a / 64 then s else s.bump l.page 0x060 7 0
        let (r, s') := s.rdLanes n (a + 8) (some (a / 64, true))
        ((0, true) :: r, s')
      else if l.sub = 2 then
        let line := a / 64
        let (bad, s) := match prev with
          | some (l0, b) => if l0 = line then (b, s) else s.dramLine l line
          | none => s.dramLine l line
        let (r, s') := s.rdLanes n (a + 8) (some (line, bad))
        let v := if bad then ofLe ((List.range 8).map fun i => s.storedByte (a + i)) else s.rawLane a
        ((v, bad || maj3 (s.poisCopies a)) :: r, s')
      else
        let (v, s) := s.sramLane l a
        let (r, s') := s.rdLanes n (a + 8) prev
        (v :: r, s')

/-- Reads `n` bytes at `a`: their value, little-endian, and whether any word read is poisoned (spec/15 R435). -/
def State.rdMem (s : State) (a n : Nat) : (Nat × Bool) × State :=
  let a0 := a / 8 * 8
  let k := (a + n + 7) / 8 - a / 8
  let (ls, s') := s.rdLanes k a0 none
  let v := ls.foldr (fun q acc => q.1 % 2 ^ 64 + 2 ^ 64 * acc) 0
  (((v >>> (8 * (a - a0))) % 256 ^ n, ls.any (·.2)), s')

/-- Reads one 64-bit word with its poison. -/
def State.rdMem64 (s : State) (a : Nat) : (Nat × Bool) × State := s.rdMem a 8

/-- What the code delivers at an address without counting: used where the spec looks and does not access. -/
def State.peek (s : State) (a n : Nat) : Nat := (s.rdMem a n).1.1

/-- Whether some byte of a lane outside the written ones is uncorrectable. -/
def State.laneBadOutside (s : State) (a0 from_ to_ : Nat) : Bool :=
  (List.range 8).any fun i =>
    let b := a0 + i
    (b < from_ || to_ ≤ b) && (match (decodeByte (s.byte b).toNat (s.chkDiff b)).2 with | .uncorr _ => true | _ => false)

/-- The flip registers of an ECC page as a write of this cycle meets them: ECC_FLIP_CFG, _DATA and _CHK, from before any write to them in the same cycle (spec/15 R449). -/
def State.flipRegs (s : State) (page : Nat) : Nat × Nat × Nat :=
  let h := s.bankH page 0
  if h.flipT = some s.now then h.flipOld else (s.rd page 0x064, s.rd64 page 0x068, s.rd64 page 0x070)

/-- A write reaches a flip register. -/
def State.flipWritten (s : State) (page : Nat) : State :=
  s.setBank page 0 { s.bankH page 0 with flipT := some s.now, flipOld := s.flipRegs page }

/-- The flip clears ARM; ARM written in the same cycle stands (spec/15 R449). -/
def State.flipped (s : State) (page : Nat) : State :=
  let h := s.bankH page 0
  (if h.flipT = some s.now then s.setBank page 0 { h with flipOld := (h.flipOld.1 % 2 ^ 31, h.flipOld.2) } else s.setB page 0x064 31 false).irq page 19

/-- Applies an armed SRAM flip to the bytes `[from_, to_)` just written, when they lie in lane WORD of their line in bank BANK (spec/15 R449). -/
def State.sramFlip (s : State) (l : MemLoc) (a0 from_ to_ : Nat) : State :=
  let (cfg, fd, fc) := s.flipRegs l.page
  if !bit cfg 31 || (a0 / 8) % 8 != bits cfg 30 28 || (l.sub == 1 && bits cfg 27 24 != l.bank) then s else
  let s := (List.range 8).foldl (fun (s : State) i =>
    let b := a0 + i
    if from_ ≤ b ∧ b < to_ then
      let d := (s.byte b).toNat; let d' := d ^^^ (fd / 256 ^ i) % 256
      let stored := checkBits d ^^^ (fc / 32 ^ i) % 32
      (s.setByte b (BitVec.ofNat 8 d')).setChk b (stored ^^^ checkBits d')
    else s) s
  (s.setPois a0 (s.poisCopies a0 ^^^ bits cfg 2 0)).flipped l.page

/-- Applies an armed DRAM flip to a line just written (spec/15 R449). -/
def State.dramFlip (s : State) (l : MemLoc) (line : Nat) : State :=
  let cfg := (s.flipRegs l.page).1
  if !bit cfg 31 || bits cfg 27 24 != l.bank then s else
  let n := bits cfg 15 12; let y := bits cfg 22 16; let v := bits cfg 7 0
  let es := if v = 0 then [] else (List.range n).map fun i => (y + i, v)
  (s.setLineErr line es).flipped l.page

/-- Writes the bytes of one lane: bytes `from_` to `to_ - 1` take `bs`, the word's poison follows spec/15 R434, the granule's tag is cleared (spec/14 R410). -/
def State.wrLane (s : State) (l : MemLoc) (a0 from_ to_ : Nat) (bs : Nat → Byte) (p : Bool) : State :=
  let whole := from_ ≤ a0 ∧ a0 + 8 ≤ to_
  let bad := if whole then p else p || maj3 (s.poisCopies a0) || (l.sub != 2 && s.laneBadOutside a0 from_ to_)
  let s := (List.range 8).foldl (fun (s : State) i =>
    let b := a0 + i
    if from_ ≤ b ∧ b < to_ then (s.setByte b (bs b)).setChk b 0 else s) s
  let s := s.setPois a0 (if bad then 7 else 0)
  let s := s.setTag a0 0
  if l.sub = 2 then s else s.sramFlip l a0 from_ to_

/-- Writes lanes `k` on from the lane address `a0`; DRAM lines are merged or written whole (spec/15 R438). `ps` gives the poison of each 64-bit word of the value. -/
def State.wrLanes (s : State) (from_ to_ : Nat) (bs : Nat → Byte) : Nat → Nat → List Bool → State
  | 0, _, _ => s
  | k + 1, a0, ps =>
    let p := ps.headD false
    match memLoc a0 with
    | none => s.wrLanes from_ to_ bs k (a0 + 8) ps.tail
    | some l =>
      let s := s.awaitBank l
      let firstOfLine := decide (a0 / 8 * 8 ≤ from_) || a0 % 64 == 0
      if s.bankState l ≠ 2 then (if firstOfLine then s.bump l.page 0x060 7 0 else s).wrLanes from_ to_ bs k (a0 + 8) ps.tail
      else if l.sub = 2 then
        let line := a0 / 64
        let fullLine := from_ ≤ line * 64 ∧ line * 64 + 64 ≤ to_
        let s :=
          if firstOfLine then
            let (bad, s) := if fullLine then (false, s) else s.dramLine l line
            let s := if fullLine then s else s.wr64 l.page 0x078 (satAdd (2 ^ 64 - 1) (s.rd64 l.page 0x078) 1)
            if bad then s.markLine line else s.setLineErr line []
          else s
        let s := s.wrLane l a0 from_ to_ bs p
        let lastOfLine := decide (to_ ≤ a0 + 8) || a0 % 64 == 56
        let s := if lastOfLine then s.dramFlip l line else s
        s.wrLanes from_ to_ bs k (a0 + 8) ps.tail
      else (s.wrLane l a0 from_ to_ bs p).wrLanes from_ to_ bs k (a0 + 8) ps.tail

/-- Writes `n` bytes of `v`, little-endian, at `a`; `ps` is the poison of each 64-bit word touched, in order. -/
def State.wrMemP (s : State) (a n v : Nat) (ps : List Bool) : State :=
  let a0 := a / 8 * 8
  let k := (a + n + 7) / 8 - a / 8
  s.wrLanes a (a + n) (fun b => BitVec.ofNat 8 (v >>> (8 * (b - a)))) k a0 ps

/-- Writes `n` bytes of a value that is wholly clean or wholly poisoned. -/
def State.wrMem (s : State) (a n v : Nat) (p : Bool := false) : State :=
  s.wrMemP a n v (List.replicate ((a + n + 7) / 8 - a / 8) p)

/-- Ends a lap: the lap records, and LAPOVER when it took longer than the limit (spec/15 R446). -/
def State.lapEnd (s : State) (page start : Nat) : State :=
  let cyc := s.now - start
  let us := roundUp cyc cyclesPerUs / cyclesPerUs
  let s := ((s.wr64 page 0x050 cyc).wr page 0x058 (min us 0xFFFFFFFF)).bump page 0x05C 31 0
  if s.fld page 0x040 15 0 * cyclesPerMs < cyc then (s.raise page 0x04C 30).irq page 17 else s

/-- A cluster memory's lap ends when every bank that was ON for the whole of it has completed (spec/15 R446). -/
def State.lapCheck (s : State) (page : Nat) : State :=
  let banks := List.range 16
  if (banks.any fun i => (s.bankH page i).done) &&
      (banks.filter fun i => s.bankUse page i == 2 && (s.bankH page i).whole).all fun i => (s.bankH page i).done then
    (s.lapEnd page (s.bankH page 0).lapStart).each banks fun s i =>
      s.setBank page i { s.bankH page i with done := false, lapStart := s.now, whole := s.bankUse page i == 2 }
  else s

/-- One bank's change of power by ECC_PWR (spec/15 R448). -/
def State.bankSet (s : State) (page sub b new : Nat) : State :=
  let cur := s.fld page 0x048 (2 * b + 1) (2 * b)
  let h := s.bankH page b
  let usable := s.bankUse page b == 2
  let leave (s : State) : State := match pageAt page with
    | some (.eccC, c) => (if usable then s.irq (pgClu c) 17 else s)
    | _ => s
  let lap (s : State) : State := if sub = 1 then s.lapCheck page else s
  if new = 2 then
    if cur = 2 ∨ cur = 3 then s
    else (s.setFld page 0x048 (2 * b + 1) (2 * b) 3).setBank page b { h with wakeAt := s.now + wakeCycles sub cur, whole := false }
  else if new = 0 then
    let s := leave (s.setFld page 0x048 (2 * b + 1) (2 * b) 0)
    let (lo, hi) := bankRange page b
    lap ((s.clearRange lo hi).setBank page b { h with early := [], whole := false })
  else if cur = 0 then s
  else lap ((leave (s.setFld page 0x048 (2 * b + 1) (2 * b) 1)).setBank page b { h with whole := false })

/-- The value ECC_PWR takes: codes 3 go to 2; a tile's bank stays ON while its TILE page is READY (spec/15 R448). -/
def State.eccPwrClamp (s : State) (page v : Nat) : Nat :=
  match pageAt page with
  | some (.eccC, _) => (List.range 16).foldl (fun a b => a + (min 2 (bits v (2 * b + 1) (2 * b))) * 4 ^ b) 0
  | some (.eccT, t) => if s.ready (pgTile t) then 2 else min 2 (v % 4)
  | _ => min 2 (v % 4)

/-- Slices of an instance of a unit (spec/17 R467). -/
def sliceCount (unit : Nat) : Nat :=
  match unit with
  | 1 | 2 => 128
  | 3 => 8388608
  | 4 => 64
  | 5 => 48
  | 6 => 14
  | 7 => 64
  | 8 => 96
  | 9 => 32
  | _ => 0

/-- Whether a requested pass is inside one of its slices `d` cycles after it began: the unit's slices run in order, 64 cycles apart (spec/17 R467, R476). -/
def passSlice (unit d : Nat) : Bool :=
  let n := if unit = 6 then 15000 else 12000
  decide (d / (n + 64) < sliceCount unit) && decide (d % (n + 64) < n)

/-- Whether a self-test slice of a unit's instance runs on a page of self-test, its own or one of a requested pass; it ends at most 6 µs after it started (spec/17 R470, R476). -/
def State.runsOn (s : State) (p unit inst : Nat) : Bool :=
  ((s.bistH p).runs.any fun r => r.unit == unit && r.inst == inst && decide (s.now < r.t0 + 6 * cyclesPerUs)) ||
    (s.bistH p).req.any fun r => r.1 == unit && r.2.1 == inst && passSlice unit (s.now - r.2.2)

/-- Whether a slice runs in bank `b` of the memory on an ECC page. -/
def State.sliceOn (s : State) (page b : Nat) : Bool :=
  match pageAt page with
  | some (.eccT, t) => s.runsOn (pgBistC (t / 8)) 1 t
  | some (.eccC, c) => s.runsOn (pgBistC c) 2 (16 * c + b)
  | some (.eccD, _) => s.runsOn pgBistM 3 0
  | _ => false

/-- A bank's change of power, or that it waits for the end of the slice running there (spec/17 R479). -/
def State.bankAsk (s : State) (page sub b new : Nat) : State :=
  if s.sliceOn page b then s.setBank page b { s.bankH page b with want := some new }
  else
    let s := if (s.bankH page b).want.isSome then s.setBank page b { s.bankH page b with want := none } else s
    s.bankSet page sub b new

/-- A slice has ended: the change of power that waits for it takes place. -/
def State.bankDue (s : State) (page b : Nat) : State :=
  match (s.bankH page b).want with
  | some v => if s.powered page then s.bankAsk page (eccSub page) b v else s
  | none => s

/-- The effect of ECC_PWR's present value on its banks. -/
def State.eccPwrApply (s : State) (page : Nat) : State :=
  let sub := eccSub page
  s.each (List.range (if sub = 1 then 16 else 1)) fun s b => s.bankAsk page sub b (s.fld page 0x044 (2 * b + 1) (2 * b))

/-- BANK_WAKE_COMPLETE (spec/15 R448): a waking bank whose time has come becomes usable. -/
def bankWakeComplete (page b t : Nat) (s : State) : State :=
  let s := s.upTo t
  if s.bankUse page b = 3 ∧ s.bankReadyAt page b ≤ t then s.bankOn page b else s

/-- Repairs one SRAM line: corrected bytes, poison and tag copies are written back; an uncorrectable word is marked poisoned with valid codes (spec/15 R443). -/
def State.scrubSram (s : State) (l : MemLoc) (line : Nat) : State :=
  s.each (List.range 8) fun s w =>
    let a := line + 8 * w
    let pc := s.poisCopies a
    let s := if pc ≠ 0 ∧ pc % 8 ≠ 7 then (s.countCorr l a 13).setPois a (if maj3 pc then 7 else 0) else s
    let tc := s.tagCopies a
    let s := if a % 16 = 0 ∧ tc ≠ 0 ∧ tc % 8 ≠ 7 then (s.countCorr l a 13).setTag a (if maj3 tc then 7 else 0) else s
    let bad := (List.range 8).any fun i => match (decodeByte (s.byte (a + i)).toNat (s.chkDiff (a + i))).2 with
      | .uncorr _ => true
      | _ => false
    let y := (List.range 8).foldl (fun y i => match (decodeByte (s.byte (a + i)).toNat (s.chkDiff (a + i))).2 with
      | .uncorr y => y
      | _ => y) 0
    let s := s.each (List.range 8) fun s i =>
      match decodeByte (s.byte (a + i)).toNat (s.chkDiff (a + i)) with
      | (_, .ok) => s
      | (d, .corrected p) => ((s.countCorr l a p).setByte (a + i) (BitVec.ofNat 8 d)).setChk (a + i) 0
      | (_, .uncorr _) => s.setChk (a + i) 0
    if bad then
      ((s.countUncorr l a (Config.uncorrPosition y).val).bump l.page 0x060 31 16).setPois a 7
    else s

/-- Repairs one DRAM line (spec/15 R443). -/
def State.scrubDram (s : State) (l : MemLoc) (addr : Nat) : State :=
  let line := addr / 64
  match s.lineErr line with
  | [] => s
  | es =>
    if es.length ≤ 4 then (es.foldl (fun s e => s.countCorr l (line * 64) e.1) s).setLineErr line []
    else
      ((s.countUncorr l (line * 64) (Config.uncorrSymbol line).val).bump l.page 0x060 31 16).markLine line

/-- Whether a self-test slice runs over a line of bank `b` (spec/17 R467): slices are 64 lines. -/
def State.lineTested (s : State) (page b line : Nat) : Bool :=
  let on (p unit inst : Nat) : Bool := (s.bistH p).runs.any fun r =>
    r.unit == unit && r.inst == inst && r.slice == line / 64 && decide (s.now < r.t0 + 6 * cyclesPerUs)
  match pageAt page with
  | some (.eccT, t) => on (pgBistC (t / 8)) 1 t
  | some (.eccC, c) => on (pgBistC c) 2 (16 * c + b)
  | some (.eccD, _) => on pgBistM 3 0
  | _ => false

/-- Whether a store buffer of a tile holds an entry for the line of its local memory at `a`, so that the scrubber's write-back is cancelled (spec/15 R445). -/
def State.lineStored (s : State) (page a : Nat) : Bool :=
  match pageAt page with
  | some (.eccT, t) => (sget (fun _ => {}) s.tiles t).copies.any fun k => k.sb.any fun e =>
      decide (s.now ≤ e.wr) && decide (e.addr / 64 ≤ (ownBase + (a - tileBase t)) / 64) && decide ((ownBase + (a - tileBase t)) / 64 ≤ (e.addr + e.n - 1) / 64)
  | _ => false

/-- SCRUB_LINE (spec/15 R443–R446): the scrubber of a bank takes one idle cycle, its early queue first, then the next line of its walk; the walk passes over a bank that is not ON and lines under self-test. A line that a store buffer holds an entry for is read again in the next idle cycle. -/
def scrubLine (page b t : Nat) (s : State) : State :=
  let s := s.upTo t
  let sub := eccSub page
  let (lo, hi) := bankRange page b
  let l : MemLoc := ⟨page, b, sub⟩
  if !s.getB page 0x040 31 then s else
  let h := s.bankH page b
  let on := s.bankState l == 2
  let fix (s : State) (a : Nat) : State :=
    if sub = 2 then s.scrubDram ⟨page, a / 2 ^ 32, 2⟩ a else s.scrubSram l (a / 64 * 64)
  match if on then h.early.find? fun a => !s.lineTested page b ((a - lo) / 64) else none with
  | some a => if s.lineStored page a then s else fix (s.setBank page b { h with early := h.early.filter (· != a) }) a
  | none =>
    if on && !s.lineTested page b h.pos && s.lineStored page (lo + 64 * h.pos) then s else
    let s := if on && !s.lineTested page b h.pos then fix s (lo + 64 * h.pos) else s
    let next := if lo + 64 * (h.pos + 1) < hi then h.pos + 1 else 0
    let h := s.bankH page b
    let s := ((s.setBank page b { h with pos := next }).setFld page 0x04C 28 0 next).setB page 0x04C 31
    if next ≠ 0 then s
    else if sub = 1 then (s.setBank page b { s.bankH page b with done := true }).lapCheck page
    else
      let s := s.lapEnd page h.lapStart
      s.setBank page b { s.bankH page b with lapStart := t }

/-- CLU_BANKS of a cluster (spec/02 R55): usable banks and waking banks. -/
def State.cluBanks (s : State) (c : Nat) : Nat :=
  (List.range 16).foldl (fun a b =>
    let st := s.bankUse (pgEccC c) b
    a + b2n (st == 2) * 2 ^ (16 + b) + b2n (st == 3) * 2 ^ b) 0

/-- Whether every bank that `n` bytes from `a` touch is usable. -/
def State.usable (s : State) (a n : Nat) : Bool :=
  (List.range ((a + n - 1) / 0x80000 + 1 - a / 0x80000)).all fun i =>
    match memLoc (a / 0x80000 * 0x80000 + i * 0x80000) with
    | some l => s.bankState l == 2
    | none => false

end Sys2Proof.Machine
end

