-- ==== Sys2Proof/Machine/RopeBase.lean ====
section
/-! DEFINITION. Ports, paths and routes of the rope: how a frame leaves and where one that arrives goes (spec/19 R502–R505, R511–R513). -/

namespace Sys2Proof.Machine

def State.ropeH (s : State) (r : Nat) : RopeH := sget (fun _ => {}) s.ropes r
def State.setRope (s : State) (r : Nat) (h : RopeH) : State := { s with ropes := sput (fun _ => {}) r h s.ropes }
def State.teamH (s : State) (i : Nat) : TeamH := sget (fun _ => {}) s.teams i
def State.setTeam (s : State) (i : Nat) (h : TeamH) : State := { s with teams := sput (fun _ => {}) i h s.teams }

/-- Registers of the module's place in the fabric (spec/19). -/
def State.ropeSerial (s : State) : Nat := s.rd64 pgRopeL 0x040
def State.ropeDepth (s : State) : Nat := s.fld pgRopeL 0x048 31 28
def State.ropePri (s : State) : Nat := s.fld pgRopeL 0x048 27 24
def State.dstate (s : State) : Nat := s.fld pgRopeL 0x060 31 29

/-- A path register: labels in bytes 0–5, their number in bits 51:48. -/
def pathOf (v : Nat) : List Nat := (List.range (min 6 (bits v 51 48))).map fun i => v / 256 ^ i % 256
def pathReg (l : List Nat) : Nat := (l.zipIdx.foldl (fun a q => a + q.1 % 256 * 256 ^ q.2) 0) + l.length * 2 ^ 48
def State.ownPath (s : State) : List Nat := pathOf (s.rd64 pgRopeL 0x058)

/-- LSTATE: 0 OFF, 1 NO_SFP, 2 TRAINING, 3 HELLO, 4 UP, 5 KEEPALIVE, 6 MISMATCH. -/
def State.lstate (s : State) (r : Nat) : Nat := s.fld (pgRope r) 0x044 31 29
def State.setLstate (s : State) (r v : Nat) : State :=
  if s.lstate r = v then s else (s.setFld (pgRope r) 0x044 31 29 v).irq (pgRope r) 16

/-- Whether a port's link is in use: UP, or KEEPALIVE for all but CELL frames (spec/19 R528). -/
def State.linkUpAt (s : State) (r : Nat) : Bool := s.lstate r == 4 || s.lstate r == 5
def State.portScope (s : State) (r : Nat) : Nat := s.fld (pgRope r) 0x044 25 23

/-- Ports in use whose link has scope `i` or more (spec/19 R506). -/
def State.portsAt (s : State) (i : Nat) : List Nat := (List.range 16).filter fun r => s.linkUpAt r && decide (i ≤ s.portScope r)

def State.setDstate (s : State) (v : Nat) : State :=
  if s.dstate = v then s else (s.setFld pgRopeL 0x060 31 29 v).irq pgRopeL 16

/-- Sends one frame on a port and counts it. -/
def State.ropeEmit (s : State) (r type hops : Nat) (dpath spath : List Nat) (arg seq : Nat) (words : List Nat) (pois : List Bool := []) : State :=
  let s := s.wr64 (pgRope r) 0x070 (satAdd (2 ^ 64 - 1) (s.rd64 (pgRope r) 0x070) 1)
  s.emit (.rope r type hops dpath spath arg seq words pois)

/-- Discovery frames on every port of a list; the sender writes 15 hops, a forwarding module one less than came (spec/19 R502, R505). -/
def State.ropeFlood (s : State) (ports : List Nat) (type arg : Nat) (words : List Nat) (hops : Nat := 15) : State :=
  s.each ports fun s r => s.ropeEmit r type hops [] [] arg 0 words

/-- Checks a received frame (spec/19 R502, R503): a bad frame check or header is discarded and counted. -/
def State.ropeRecv (s : State) (f : RFrame) : Bool × State :=
  let p := pgRope f.port
  if 16 ≤ f.port ∨ ¬ (3 ≤ s.lstate f.port ∧ s.lstate f.port ≤ 5) then (false, s)
  else if !f.fcsOk then (false, (s.bump p 0x060 31 16).irq p 18)
  else if f.tagged || f.ethertype != 0x88B6 || f.ver != 0x10 || decide (6 < f.dpath.length) || decide (6 < f.spath.length) ||
      decide (176 < f.nwords) || !f.zero || decide (15 < f.hops) then (false, (s.bump p 0x060 15 0).irq p 18)
  else (true, s.wr64 p 0x078 (satAdd (2 ^ 64 - 1) (s.rd64 p 0x078) 1))

/-- The length of the common prefix of two paths. -/
def commonPrefix : List Nat → List Nat → Nat
  | a :: l, b :: m => if a = b then commonPrefix l m + 1 else 0
  | _, _ => 0

/-- Where a frame goes (spec/19 R513). -/
inductive RDest where
  | here
  | team (p : Nat)
  | port (r : Nat)
  | nowhere
  deriving DecidableEq, Repr

/-- Whether this module leads T_s (spec/19 R507). -/
def State.leads (s : State) (i : Nat) : Bool := s.getB pgRopeL 0x060 (16 + i)

/-- Frame types of circuits, which no keep-alive link carries (spec/19 R528): CONNECT, CELL and CREDIT. -/
def circType (type : Nat) : Bool := type == 0x06 || type == 0x10 || type == 0x11

/-- The port a route entry names, when it is in use for the frame: those of circuits take no keep-alive link and no MODE 3 link (spec/19 R505, R528). -/
def State.routeVia (s : State) (i label : Nat) (cell : Bool) : RDest :=
  match (s.teamH i).row.find? fun q => q.1 == label with
  | some (_, r) => if r < 16 ∧ ((s.lstate r = 4 ∧ (!cell ∨ s.fld (pgRope r) 0x040 31 30 ≠ 3)) ∨ (!cell ∧ s.lstate r = 5)) then .port r else .nowhere
  | none => .nowhere

def State.ropeRoute (s : State) (dpath : List Nat) (cell : Bool) : RDest :=
  let p := commonPrefix s.ownPath dpath
  if p = s.ropeDepth then .here
  else if p = dpath.length then (if s.leads p then .team p else s.routeVia p 0 cell)
  else s.routeVia p (dpath.getD p 0) cell

/-- Sends a frame of this module's own along its path; answers whether it left, or arrives here. -/
def State.ropeSend (s : State) (type : Nat) (dpath : List Nat) (arg seq : Nat) (words : List Nat) (pois : List Bool := []) : RDest × State :=
  if s.dstate ≠ 4 then (.nowhere, s)
  else match s.ropeRoute dpath (circType type) with
    | .port r => (.port r, s.ropeEmit r type 15 dpath s.ownPath arg seq words pois)
    | d => (d, s)

/-- What a frame that is not link-local meets here (spec/19 R505, R511, R513): it is delivered, or forwarded, or discarded and counted. The answer is none unless it is to be delivered; `false` beside it means no route. -/
def State.ropeArrive (s : State) (f : RFrame) (type : Nat) (words : List Nat) (pois : List Bool := []) : Option RDest × Bool × State :=
  let p := pgRope f.port
  -- a frame without labels is for the module at the far end of its link (R502)
  if f.dpath.isEmpty then (some .here, true, s)
  else if s.dstate ≠ 4 then (none, false, s.bump p 0x064 15 0)
  else match s.ropeRoute f.dpath (circType type) with
    | .port r =>
      if f.hops = 0 then (none, true, s.bump p 0x064 31 16)
      else (none, true, s.ropeEmit r type (f.hops - 1) f.dpath f.spath f.arg f.seq words pois)
    | .nowhere => (none, false, s.bump p 0x064 15 0)
    | d => (some d, true, s)

/-- The words of cells as a CELL frame carries them. -/
def cellWords (cells : List RopeCell) : List Nat :=
  cells.flatMap fun x => (x.nvalid % 256 * 2 ^ 40 + x.marks % 32 * 2 ^ 32 + b2n x.gap * 2 ^ 12) :: 0 ::
    (List.range 6).map fun i => x.payload / 2 ^ (64 * i) % 2 ^ 64
def cellsPois (cells : List RopeCell) : List Bool := cells.flatMap fun x => (List.range 8).map fun i => bit x.pois i

end Sys2Proof.Machine
end

