-- ==== Sys2Proof/Machine/StreamBase.lean ====
section
/-! DEFINITION. What stream sources and destinations share: source queues, entry lookup, cells, ring credit and circuits' egress (spec/05 R153–R163, spec/19 R517–R520). -/

namespace Sys2Proof.Machine

def State.strH (s : State) (e : Nat) : StrH := sget (fun _ => {}) s.strs e
def State.setStr (s : State) (e : Nat) (h : StrH) : State := { s with strs := sput (fun _ => {}) e h s.strs }
def State.queue (s : State) (key : Nat) : List SrcItem := sget (fun _ => []) s.srcQ key
def State.setQueue (s : State) (key : Nat) (q : List SrcItem) : State := { s with srcQ := sput (fun _ => []) key q s.srcQ }
def State.portH (s : State) (p : Nat) : PortH := sget (fun _ => {}) s.ports p
def State.setPort (s : State) (p : Nat) (h : PortH) : State := { s with ports := sput (fun _ => {}) p h s.ports }
def State.circH (s : State) (c : Nat) : CircH := sget (fun _ => {}) s.circs c
def State.setCirc (s : State) (c : Nat) (h : CircH) : State := { s with circs := sput (fun _ => {}) c h s.circs }

/-- Where the counts of circuit `c`, which have no register of their own, note the events of the present cycle: a page number no page has. -/
def circPage (c : Nat) : Nat := 0x1000 + c

/-- A saturating count of a circuit, as it stands after `n` more events; `note` keeps them through a clear of the same cycle (spec/00_scope.md R11). -/
def State.noteCirc (s : State) (c off hi lo old n : Nat) : State :=
  let new := satAdd (2 ^ (hi + 1 - lo) - 1) old n
  s.note (regKey (circPage c) off) hi lo (new - old) (n - (new - old))

/-- The key of a source: KIND and SEL of STR_E_SRC (spec/05). -/
def srcKey (kind sel : Nat) : Nat := kind * 0x10000 + sel

/-- STR_E_SRC.SEL of a tile stream and of an engine output. -/
def tileSel (t stream : Nat) : Nat := t + 256 * stream
def engineSel (c engine output : Nat) : Nat := 256 * c + 64 * engine + output

/-- An entry that takes nothing of itself: not enabled, or its slots are all NONE, or no source (spec/05 R153). -/
def StrH.inert (h : StrH) : Bool :=
  !h.en || h.dests.all (fun d => d.kind == 0) || h.srcKind == 0

/-- Whether an engine defines an output (spec/05 STR_E_SRC): an ARS or FRD output that a view or slot names (spec/06 R190, spec/08 R252); a TFE output, which any job may name. -/
def State.outDefined (s : State) (sel : Nat) : Bool :=
  let c := sel / 256; let o := sel % 64
  match sel / 64 % 4 with
  | 0 => s.arsView.any fun q => q.1 / 512 == c && q.2.on && q.2.outEn && q.2.out == o
  | 1 => true
  | _ => s.slots.any fun q => q.1 / 4096 == c && q.2.on && bit (q.2.words.getD 0 0) 0 && bits (q.2.words.getD 1 0) 31 26 == o

/-- An inert entry, one whose engine output is not defined among them (spec/05 R153, STR_E_SRC). -/
def State.strInert (s : State) (h : StrH) : Bool := h.inert || (h.srcKind == 2 && !s.outDefined h.srcSel)

/-- The enabled entry that names a source (spec/05 R152). -/
def State.entryOf (s : State) (key : Nat) : Option Nat :=
  (s.strs.find? fun q => q.2.en && srcKey q.2.srcKind q.2.srcSel == key && !s.strInert q.2).map (·.1)

/-- Sign extension of a 24-bit sample. -/
def sample24 (v : Nat) : Int := toS 24 v

/-- (sample − ZERO) / SENS in binary32 (spec/05 R155); none while SENS is zero or not finite. -/
def State.f32Sample (s : State) (port k v : Nat) : Option Nat :=
  let sens := s.rd (pgSpt port) (0x120 + 0x20 * k)
  let zero := toS 32 (s.rd (pgSpt port) (0x128 + 0x20 * k))
  if !fIsFinite sens || fIsZero sens then none
  else
    let x := (sample24 v - zero : Rat) / fToRat sens
    some (fOfRat x)

/-- Which payload words of a cell a list of poisoned samples touches, `w` bytes a sample from byte 16. -/
def poisMask (w : Nat) (l : List (Nat × Bool)) : Nat :=
  l.zipIdx.foldl (fun m q =>
    if q.1.2 then
      let a := (16 + w * q.2) / 8; let b := (16 + w * q.2 + w - 1) / 8
      let m := m ||| 2 ^ a
      m ||| 2 ^ b
    else m) 0

/-- Packs values of `w` bytes each, little-endian. -/
def packN (w : Nat) : List Nat → Nat
  | [] => 0
  | v :: vs => v % 256 ^ w + 256 ^ w * packN w vs

/-- Cuts a list in pieces of `n`; `fuel` bounds the pieces. -/
def chunks {α : Type} (n : Nat) : Nat → List α → List (List α)
  | 0, _ => []
  | fuel + 1, l => if l.isEmpty then [] else l.take n :: chunks n fuel (l.drop n)

/-- The cells an item makes at a destination of a format (spec/05 R154–R157, R164). -/
def State.cellsOf (s : State) (it : SrcItem) (fmt : Nat) : List Cell :=
  if it.gap then
    [{ gap := true, fmt := fmt, marks := it.marks, chan := it.chan, idx := it.idx, payload := it.count % 2 ^ 32 + it.cause % 256 * 2 ^ 32, pois := it.pois }]
  else if it.raw then
    [{ fmt := fmt, marks := it.marks, nvalid := it.nvalid, chan := it.chan, idx := it.idx, payload := it.payload, pois := it.pois }]
  else
    let n := if fmt ≤ 1 then 16 else 12
    (chunks n it.samples.length it.samples).zipIdx.map fun q =>
      let l := q.1
      let idx := it.idx + n * q.2
      if fmt ≤ 1 then
        { fmt := fmt, marks := it.marks, nvalid := l.length, chan := it.chan, idx := idx, payload := packN 3 (l.map (·.1)), pois := poisMask 3 l }
      else if fmt = 2 then
        { fmt := fmt, marks := it.marks, nvalid := l.length, chan := it.chan, idx := idx,
          payload := packN 4 (l.map fun v => ofS 32 (sample24 v.1)), pois := poisMask 4 l }
      else
        let vs := l.map fun v => s.f32Sample it.port it.nodeCh v.1
        { fmt := fmt, marks := if vs.any (·.isNone) then it.marks ||| 16 else it.marks, nvalid := l.length, chan := it.chan, idx := idx,
          payload := packN 4 (vs.map fun v => v.getD 0x7FC00000), pois := poisMask 4 l }

/-- A cell whose header word is uncorrectable in the router leaves as a GAP cell of cause LOST for its samples (spec/05 R157); a RAW cell counts as one. -/
def Cell.lost (c : Cell) (raw : Bool) : Cell :=
  let n := if c.gap then c.payload % 2 ^ 32 else if raw then 1 else c.nvalid
  { c with gap := true, nvalid := 0, payload := n + 2 * 2 ^ 32, pois := 0 }

/-- How many cells an item makes in a format. -/
def SrcItem.cellCount (it : SrcItem) (fmt : Nat) : Nat :=
  if it.gap || it.raw then 1 else (it.samples.length + (if fmt ≤ 1 then 15 else 11)) / (if fmt ≤ 1 then 16 else 12)

/-- The 64 bytes of a cell of entry `e` at generation `g` (spec/05 R154). -/
def Cell.value (c : Cell) (e g : Nat) : Nat :=
  (e % 4096 + (if c.gap then 4096 else 0)) + g % 256 * 2 ^ 16 + c.fmt % 8 * 2 ^ 24 + c.marks % 32 * 2 ^ 32 + c.nvalid % 256 * 2 ^ 40 +
  c.chan % 65536 * 2 ^ 48 + c.idx % 2 ^ 48 * 2 ^ 64 + c.payload % 2 ^ 384 * 2 ^ 128

/-- The word poison of a cell as a list of eight. -/
def Cell.poisList (c : Cell) : List Bool := (List.range 8).map fun i => bit c.pois i

/-- Fields of a circuit's words (spec/19). -/
def CircH.en (h : CircH) : Bool := bit h.w0.toNat 63
def CircH.ingress (h : CircH) : Bool := bit h.w0.toNat 62
def CircH.rcirc (h : CircH) : Nat := bits h.w0.toNat 59 48
def CircH.window (h : CircH) : Nat := bits h.w1.toNat 50 40
def CircH.plen (h : CircH) : Nat := bits h.w1.toNat 63 60
def CircH.labels (h : CircH) : Nat := bits h.w0.toNat 47 0

/-- The credit of a READY egress circuit: freed + window − sent, modulo 2^32 (spec/19 R520). -/
def CircH.credit (h : CircH) : Nat := (h.freedSeen + h.window + (2 ^ 32 - h.sent % 2 ^ 32)) % 2 ^ 32

/-- The far path of a circuit. -/
def CircH.path (h : CircH) : List Nat := (List.range (min 6 h.plen)).map fun i => h.labels / 256 ^ i % 256

/-- A cell as it crosses rope (spec/19 R519): payload, MARKS, NVALID and poison; the receiver writes its own header. -/
def Cell.rope (c : Cell) : RopeCell := { gap := c.gap, marks := c.marks, nvalid := c.nvalid, payload := c.payload, pois := c.pois }

/-- Sends the cells that wait at a circuit as one CELL frame on the route of its path; without one they are lost (spec/19 R504, R513, R519). -/
def State.circFlush (s : State) (c : Nat) : State :=
  let h := s.circH c
  if h.tx.isEmpty then s else
  let cells := h.tx.map Cell.rope
  let s := s.setCirc c { h with tx := [], seqOut := (h.seqOut + h.tx.length) % 65536 }
  (s.ropeSend 0x10 h.path h.rcirc h.seqOut (cellWords cells) (cellsPois cells)).2

/-- Puts a cell on an egress circuit: a SAFETY cell leaves at once, a NORMAL frame with its 16th cell (spec/19 R504). -/
def State.circPush (s : State) (c cls : Nat) (cell : Cell) : State :=
  let h := s.circH c
  let s := s.setCirc c { h with tx := h.tx ++ [cell], sent := (h.sent + 1) % 2 ^ 32, txAt := if h.tx.isEmpty then s.now else h.txAt }
  if cls = 1 ∨ 16 ≤ h.tx.length + 1 then s.circFlush c else s

/-- Fields of a destination's ARG (spec/05 STR_D_CFG). -/
def Dest.cluster (d : Dest) : Nat := bits d.arg 20 17
def Dest.cons (d : Dest) : Nat := bits d.arg 16 14
def Dest.dramMode (d : Dest) : Nat := bits d.arg 20 19
def Dest.capture (d : Dest) : Bool := bit d.arg 18
def Dest.circuit (d : Dest) : Nat := bits d.arg 11 0
def Dest.port (d : Dest) : Nat := bits d.arg 20 12
def Dest.nodeCh (d : Dest) : Nat := bits d.arg 11 10

/-- The local address of a destination's ring. -/
def Dest.addr (d : Dest) : Nat := if d.kind = 1 then clusterBase d.cluster + d.base % 2 ^ 23 else d.base
def Dest.bytes (d : Dest) : Nat := (2 ^ d.size + 2) * 64

/-- The ring's lag: how far its slowest consumer stands behind the producer index; none when an index is not trusted, with whether one was poisoned (spec/05 R159, R160). -/
def State.ringLag (s : State) (d : Dest) : Option Nat × Bool × State :=
  let n := if d.kind = 1 then d.cons else 4
  let go := fun (acc : Nat × Bool × State) i =>
    let ((v, p), s') := acc.2.2.rdMem64 (d.addr + 64 + 8 * i)
    (max acc.1 ((d.prod + (2 ^ 32 - v % 2 ^ 32)) % 2 ^ 32), acc.2.1 || p, s')
  let (lag, pois, s) := (List.range (if d.kind = 1 then n else 1)).foldl go (0, false, s)
  (if pois || 2 ^ d.size < lag then none else some lag, pois, s)

/-- Whether the block that carries a destination is READY (spec/05 R163). -/
def State.destReady (s : State) (d : Dest) : Bool :=
  match d.kind with
  | 1 => s.ready (pgClu d.cluster) && s.usable d.addr d.bytes
  | 2 => s.bankUse pgEccD 0 == 2
  | 3 => (s.circH d.circuit).cstate == 3
  | 4 => s.ready (pgSpt d.port) && s.getB (pgSpt d.port) 0x040 11 && s.fld (pgSpt d.port) (0x200 + 64 * d.nodeCh) 11 10 == 0
  | _ => true

end Sys2Proof.Machine
end

