-- ==== Sys2Proof/Machine/Streams.lean ====
section
/-! DEFINITION. The stream table and router (spec/05): commit, handover, cells, capture, removal. -/

namespace Sys2Proof.Machine

/-- The page and offset of entry `e`'s register at `o` (spec/02 R53). -/
def strOff (e o : Nat) : Nat := 0x040 + 0x60 * (e % 32) + o
def State.strRd (s : State) (e o : Nat) : Nat := s.rd (pgStrT e) (strOff e o)
def State.strWr (s : State) (e o v : Nat) : State := s.wr (pgStrT e) (strOff e o) v
def slotOff (i : Nat) : Nat := 0x10 + 0x10 * i

/-- Whether a table page works: its ENABLE with the control page READY (spec/05 R171). -/
def State.strTableReady (s : State) (e : Nat) : Bool := s.ready pgStr && s.enabled (pgStrT e)

/-- The clamps applied at COMMIT to slot `i` against the staged values (spec/05 R151, R155, R158, STR_D_CFG). Answers the slot's new CFG and BASE. -/
def strSlotClamp (srcKind cfg base : Nat) : Nat × Nat :=
  let kind := bits cfg 31 29
  let fmt := bits cfg 28 26
  let fmt := if kind = 0 then fmt
    else if kind = 4 then 1
    else if srcKind = 1 then (if fmt = 0 ∨ 4 ≤ fmt then 1 else fmt)
    else if 4 ≤ fmt then 0 else if 1 ≤ fmt then 0 else fmt
  let size := bits cfg 25 21
  let size := if kind = 1 then clampTo 4 16 size else if kind = 2 then clampTo 10 28 size else size
  let arg := bits cfg 20 0
  let arg := if kind = 1 then setBits arg 16 14 (clampTo 1 4 (bits arg 16 14))
    else if kind = 2 then (if bits arg 20 19 = 3 then setBits arg 20 19 0 else arg) else arg
  let bytes := (2 ^ size + 2) * 64
  let base := if kind = 1 then base / 2 ^ 23 * 2 ^ 23 + min (base % 2 ^ 23 / 64 * 64) (0x800000 - bytes)
    else if kind = 2 then min (base / 64 * 64) (dramSize - bytes) else base
  (kind * 2 ^ 29 + fmt * 2 ^ 26 + size * 2 ^ 21 + arg, base)

/-- SEL as its KIND allows (spec/05 STR_E_SRC). -/
def strSelClamp (kind sel : Nat) : Nat :=
  match kind with
  | 1 => if 1535 < sel % 2048 then setBits sel 10 0 1535 else sel
  | 2 => if bits sel 7 6 = 3 then setBits sel 7 6 0 else sel
  | _ => sel

/-- The bits of SEL that name the source (spec/05 STR_E_SRC). -/
def strSelUsed (kind sel : Nat) : Nat :=
  match kind with
  | 1 => sel % 2048
  | 2 => sel % 4096
  | 3 => tileSel (bits sel 6 0) (bits sel 11 8)
  | 4 => sel % 4096
  | _ => sel

/-- Whether the COMMIT of another entry that is still to take place enables it on a source (spec/05 R152). -/
def State.strPending (s : State) (e key : Nat) : Bool :=
  (s.regs.map fun q => (q.1 / 4096 - 0x701, q.1 % 4096 - 0x040, q.1 / 4096)).any fun q =>
    decide (0x701 ≤ q.2.2) && decide (q.2.2 < 0x781) && q.2.1 % 0x60 == 0 && decide (q.2.1 < 0xC00) &&
    (let e' := 32 * q.1 + q.2.1 / 0x60
     let src := s.strRd e' 4
     e' != e && bits (s.strRd e' 0) 31 30 == 3 && srcKey (bits src 31 28) (strSelUsed (bits src 31 28) (bits src 15 0)) == key)

/-- COMMIT written 1 (spec/05 R150–R152): the clamps are applied to the staged copy and counted once at STR_E_CTRL; the handover is requested. -/
def State.strCommit (s : State) (e : Nat) : State :=
  let src := s.strRd e 4
  let kind := bits src 31 28
  let sel := strSelClamp kind (bits src 15 0)
  let ctrl := s.strRd e 0
  let key := srcKey kind (strSelUsed kind sel)
  let dup := kind != 0 && ((s.strs.any fun q => q.1 != e && q.2.en && srcKey q.2.srcKind q.2.srcSel == key) || s.strPending e key)
  let clampEn := bit ctrl 31 && dup
  let rate := s.strRd e 8
  let clampRl := bit rate 31 && kind == 1
  let changed := clampEn || clampRl || sel != bits src 15 0
  let s := s.strWr e 4 (setBits src 15 0 sel)
  let s := if clampEn then s.strWr e 0 (setBit ctrl 31 false) else s
  let s := if clampRl then s.strWr e 8 (setBit rate 31 false) else s
  let (s, changed) := (List.range 4).foldl (fun (acc : State × Bool) i =>
    let s := acc.1
    let cfg := s.strRd e (slotOff i)
    let base := cat32 (s.strRd e (slotOff i + 8)) (s.strRd e (slotOff i + 12))
    let (cfg', base') := strSlotClamp kind cfg base
    let s := ((s.strWr e (slotOff i) cfg').strWr e (slotOff i + 8) (lo32 base')).strWr e (slotOff i + 12) (hi32 base')
    (s, acc.2 || cfg' != cfg || base' != base)) (s, changed)
  if changed then s.clampCount (pgStrT e) (strOff e 0) 0 else s

/-- Line 0 of a ring: producer index, GEN and CLOSED, last open and close (spec/05 R158). -/
def State.ringLine0 (s : State) (d : Dest) (closed : Bool) : State :=
  let v := d.prod % 2 ^ 32 + (d.gen % 256 + (if closed then 256 else 0)) * 2 ^ 64 + d.openIdx % 2 ^ 32 * 2 ^ 128 + d.closeIdx % 2 ^ 32 * 2 ^ 192
  s.wrMem d.addr (if d.kind = 2 then 64 else 32) v

/-- A write of a ring's control lines: its set-up at the handover that adds it, its closing, a capture's open or close (spec/05 R158, R168, R169). -/
def State.ringWrite (s : State) (w : RingW) : State :=
  let d := { w.d with gen := w.gen }
  if 1 ≤ w.op then s.ringLine0 d (w.op == 1)
  else (s.wrMem (d.addr + 64) (if d.kind = 2 then 64 else 32) 0).ringLine0 { d with prod := 0, openIdx := 0, closeIdx := 0 } false

/-- The ring writes that wait for blocks now READY take place, in order (spec/05 R163). -/
def State.ringDue (s : State) : State :=
  if s.ringWait.any fun w => s.destReady w.d then
    s.ringWait.foldl (fun s w => if s.destReady w.d then s.ringWrite w else { s with ringWait := s.ringWait ++ [w] }) { s with ringWait := [] }
  else s

/-- A request that cluster `c` holds: counted once, among those held while its page is not READY or those held for a waking bank (spec/02 R54, R55, CLU_STALLS). -/
def State.cluHolds (s : State) (c a n : Nat) : State :=
  if !s.ready (pgClu c) then s.bump (pgClu c) 0x048 31 16
  else if !s.usable a n then s.bump (pgClu c) 0x048 15 0 else s

/-- A write of a ring's control lines by the router: at once, or once its block is READY. -/
def State.ringPut (s : State) (w : RingW) : State :=
  if w.d.kind = 1 ∨ w.d.kind = 2 then
    let s := if w.d.kind = 1 then s.cluHolds w.d.cluster w.d.addr w.d.bytes else s
    ({ s with ringWait := s.ringWait ++ [w] } : State).ringDue
  else s

/-- Whether two destinations are the same one: kind and arguments, not slot nor FORMAT (spec/05 R169). -/
def Dest.same (a b : Dest) : Bool :=
  a.kind == b.kind &&
  match a.kind with
  | 1 => bits a.arg 20 14 == bits b.arg 20 14 && a.base == b.base && a.size == b.size
  | 2 => bits a.arg 20 18 == bits b.arg 20 18 && a.base == b.base && a.size == b.size
  | 3 => a.circuit == b.circuit
  | 4 => a.port == b.port && a.nodeCh == b.nodeCh
  | _ => true

/-- The staged destinations of an entry. -/
def State.strStaged (s : State) (e : Nat) : List Dest :=
  (List.range 4).map fun i =>
    let cfg := s.strRd e (slotOff i)
    let base := cat32 (s.strRd e (slotOff i + 8)) (s.strRd e (slotOff i + 12))
    { kind := bits cfg 31 29, fmt := bits cfg 28 26, size := bits cfg 25 21, arg := bits cfg 20 0, base := base }

/-! A port's channels and its ingress buffer (spec/04 R123–R126), which the router empties. -/

def State.chCfg (s : State) (p k : Nat) : Nat := s.rd (pgSpt p) (0x200 + 64 * k)
def State.chEn (s : State) (p k : Nat) : Bool := bit (s.chCfg p k) 31
def State.moduleCh (s : State) (p k : Nat) : Nat := bits (s.chCfg p k) 30 20
def State.ch (s : State) (p k : Nat) : ChH := (s.portH p).chans.getD k {}
def State.setCh (s : State) (p k : Nat) (c : ChH) : State :=
  let h := s.portH p
  s.setPort p { h with chans := setAt h.chans k c }

/-- The bytes a port's buffer holds inside and outside the marker reserve (spec/04 R126). -/
def PortH.outside (h : PortH) : Nat := h.bufs.foldl (fun a b => if b.res then a else a + b.bytes) 0
def PortH.inReserve (h : PortH) : Nat := h.bufs.foldl (fun a b => if b.res then a + b.bytes else a) 0

/-- SPT_BUF follows the buffer. -/
def State.bufShow (s : State) (p : Nat) : State :=
  let h := s.portH p
  let fill := (h.outside + h.inReserve + 15) / 16
  (s.setFld (pgSpt p) 0x090 15 0 fill).raiseMax (pgSpt p) 0x090 31 16 fill

/-- The key of a port channel's source queue. -/
def portKey (ch : Nat) : Nat := srcKey 1 ch

/-- Writes a gap marker into the buffer and the channel's queue where room is, the reserve first; without room its extent waits. A marker counts when it is emitted (spec/04 R124, R126, SPT_CH_GAPS). -/
def State.putMarker (s : State) (p k first count cause : Nat) : State :=
  let key := portKey (s.moduleCh p k)
  let counted (s : State) : State := (s.bump (pgSpt p) (0x210 + 64 * k) 31 0).bump (pgSpt p) (0x214 + 64 * k) 31 0 count
  match s.entryOf key with
  | none => counted s
  | some _ =>
    let h := s.portH p
    let inRes := decide (h.inReserve + 16 ≤ 256)
    let fits := inRes || decide (h.outside + 16 ≤ 65280)
    if fits then
      let id := h.nextBuf + 1
      let s := s.setPort p { h with bufs := h.bufs ++ [⟨id, 16, inRes, 1⟩], nextBuf := id }
      let it : SrcItem :=
        { port := p, chan := s.moduleCh p k, nodeCh := k, gap := true, idx := first, count := min count 0xFFFFFFFF, cause := cause,
          acceptedAt := s.now, buf := id }
      (counted (s.setQueue key (s.queue key ++ [it]))).bufShow p
    else
      let c := s.ch p k
      match c.pend with
      | some (f, n, cs) => if f + n = first then s.setCh p k { c with pend := some (f, n + count, cs) } else s
      | none => s.setCh p k { c with pend := some (first, count, cause) }

/-- Writes a waiting marker as soon as room is, before any later record of the channel (spec/04 R126). -/
def State.flushPend (s : State) (p k : Nat) : State :=
  let c := s.ch p k
  match c.pend with
  | some (f, n, cs) =>
    let h := s.portH p
    if h.inReserve + 16 ≤ 256 ∨ h.outside + 16 ≤ 65280 then
      (s.setCh p k { c with pend := none }).putMarker p k f n cs
    else s
  | none => s

/-- Frees the channels' shares of a port's buffered item; markers that wait for room are written (spec/04 R126). -/
def State.bufFree (s : State) (p id : Nat) : State :=
  let h := s.portH p
  let bufs := h.bufs.filterMap fun b => if b.id = id then (if b.left ≤ 1 then none else some { b with left := b.left - 1 }) else some b
  let s := s.setPort p { h with bufs := bufs }
  let s := s.setFld (pgSpt p) 0x090 15 0 ((bufs.foldl (fun a b => a + b.bytes) 0 + 15) / 16)
  s.each (List.range 4) fun s k => s.flushPend p k

/-- Discards what waits at a source that no enabled entry names any more: port records are dropped at once and not counted, a tile's sends are counted (spec/05 R153). -/
def State.dropSource (s : State) (key : Nat) : State :=
  if key / 0x10000 = 1 then
    let q := s.queue key
    (q.foldl (fun s it => s.bufFree it.port it.buf) s).setQueue key []
  else if key / 0x10000 = 3 then (s.bump pgStr 0x054 31 0 (s.queue key).length).setQueue key []
  else s

/-- The handover itself (spec/05 R150, R158, R169): the active copy takes `dests` and the staged fields, destinations kept keep their ring, new ones are set up, removed rings are closed. -/
def State.strActivate (s : State) (e : Nat) (en : Bool) (dests : List Dest) : State :=
  let old := s.strH e
  let gen := (old.gen + 1) % 256
  let src := s.strRd e 4
  let rate := s.strRd e 8
  let wanted := if en then dests else dests.map fun _ => ({} : Dest)
  let kept (d : Dest) : Option Dest := if old.en then old.dests.find? (fun o => o.kind != 0 && o.same d) else none
  let s := s.each (if old.en then old.dests else []) fun s o =>
    if wanted.any fun d => o.same d then s else s.ringPut ⟨o, old.gen, 1⟩
  let (news, s) := wanted.foldl (fun (acc : List Dest × State) d =>
    match kept d with
    | some o => (acc.1 ++ [{ o with fmt := d.fmt }], acc.2)
    | none =>
      let d := { d with isOpen := d.kind == 2 && !d.capture, gen := gen }
      (acc.1 ++ [d], acc.2.ringPut ⟨d, gen, 0⟩)) ([], s)
  let same := old.en && en && old.srcKind == bits src 31 28 && old.srcSel == strSelUsed (bits src 31 28) (bits src 15 0)
  let h : StrH :=
    { en := en, cls := bits (s.strRd e 0) 29 29, srcKind := bits src 31 28, srcSel := strSelUsed (bits src 31 28) (bits src 15 0),
      rlEn := bit rate 31, burst := bits rate 27 20, rate := bits rate 15 0, dests := news, gen := gen,
      taken := if same then old.taken else 0, tokens := bits rate 27 20 * 30000, tokT := s.now, fault := false }
  let s := s.setStr e h
  let s := s.strWr e 0 (setBits (setBit (s.strRd e 0) 30 false) 23 16 gen)
  let oldKey := srcKey old.srcKind old.srcSel
  if old.en && (s.entryOf oldKey).isNone then s.dropSource oldKey else s

/-- STREAM_HANDOVER (spec/05 R150): the staged entry becomes active at the next cell boundary. -/
def streamHandover (e t : Nat) (s : State) : State :=
  let s := s.upTo t
  if bit (s.strRd e 0) 30 then s.strActivate e (bit (s.strRd e 0) 31 && s.enabled (pgStrT e)) (s.strStaged e) else s

/-- Takes an entry out of service at once: ENABLE = 0 or RESET on its table page (spec/05 R171). -/
def State.strDisable (s : State) (e : Nat) : State :=
  if (s.strH e).en then
    let asked := bit (s.strRd e 0) 30
    let s := s.strActivate e false []
    if asked then s.strWr e 0 (setBit (s.strRd e 0) 30 true) else s
  else s

/-- RESET on a table page: the entry is taken out of service, then its position is as at reset (spec/05 R171). -/
def State.strClear (s : State) (e : Nat) : State := (s.strDisable e).setStr e {}

/-- The credit a destination grants now (spec/05 R159, R160, R163): none is zero with the reason, and the counts of a bad consumer index. -/
def State.destCredit (s : State) (e : Nat) (d : Dest) : Nat × Bool × State :=
  if !s.destReady d then (0, d.err, s)
  else match d.kind with
  | 1 =>
    let (lag, pois, s) := s.ringLag d
    match lag with
    | some l => (2 ^ d.size - l, false, s)
    | none =>
      let s := if d.err then s else
        let s := s.bump pgStr 0x050 23 16
        let s := (s.setFld pgStr 0x058 11 0 e).irq pgStr 17
        if pois then s.errPoison pgStr else s
      (0, true, s)
  | 2 =>
    if d.dramMode = 2 ∧ !(d.capture && !d.isOpen) then
      let (lag, pois, s) := s.ringLag d
      match lag with
      | some l => (2 ^ d.size - l, false, s)
      | none =>
        let s := if d.err then s else
          let s := s.bump pgStr 0x050 23 16
          let s := (s.setFld pgStr 0x058 11 0 e).irq pgStr 17
          if pois then s.errPoison pgStr else s
        (0, true, s)
    else (0xFFFFFF, false, s)
  | 3 => ((s.circH d.circuit).credit, false, s)
  | _ => (0xFFFFFF, false, s)

def State.chRate (s : State) (p k : Nat) : Nat := bits (s.chCfg p k) 19 16
def State.chB (s : State) (p k : Nat) : Nat := 2 ^ bits (s.chCfg p k) 15 12
def fsOf (rate : Nat) : Nat := 1024 * 2 ^ rate

/-- The last index whose instant lies at or before cycle `t`, counted as the number of indices up to it (spec/04 R108). -/
def State.idxUpTo (s : State) (p rate t : Nat) : Nat :=
  let e := s.rd64 (pgSpt p) 0x060
  if t < e then 0 else (t - e) * fsOf rate / 3000000000 + 1

/-- One buffered sample for each of `n` indices, as far as the buffer holds any: the rest of the buffer and what the indices took (spec/04 R144). -/
def nodeTake : Nat → List (Nat × Nat × Nat × Nat) → List (Nat × Nat × Nat × Nat) → List (Nat × Nat × Nat × Nat) × List (Nat × Nat × Nat × Nat)
  | 0, q, acc => (q, acc)
  | n + 1, q, acc =>
    match q with
    | [] => ([], acc)
    | (v, m, cnt, cause) :: rest =>
      if cnt = 0 then nodeTake n rest (acc ++ [(v, m, 0, 0)])
      else nodeTake n (if cnt ≤ 1 then rest else (1, m, cnt - 1, cause) :: rest) (acc ++ [(0, m, if v = 0 then cnt else 0, cause)])

/-- The indices of the open record whose instants have passed take their samples (spec/04 R144). -/
def State.nodeDrain (s : State) (p k : Nat) : State :=
  let c := s.ch p k
  match c.nodeN with
  | none => s
  | some first =>
    let due := min (s.chB p k) (s.idxUpTo p (s.chRate p k) s.now - first)
    let r := nodeTake (due - c.nodeT.length) c.node c.nodeT
    s.setCh p k { c with node := r.1, nodeT := r.2 }

/-- Adds one value to a node channel's buffer; above 64 buffered samples the oldest is dropped and counted (spec/04 R144, R147). -/
def State.nodePush (s : State) (p k : Nat) (v : Nat × Nat × Nat × Nat) : State :=
  let s := s.nodeDrain p k
  let c := s.ch p k
  let q := c.node ++ [v]
  let isOver := decide (64 < q.length)
  let s := s.setCh p k { c with node := if isOver then q.drop 1 else q }
  (if isOver then (s.bump (pgSpt p) 0x088 31 16).irq (pgSpt p) 20 else s).nodeDrain p k

/-- The three-byte samples of a RAW cell sent to a NODE destination. -/
def rawSamples (nvalid payload pois : Nat) : List (Nat × Bool) :=
  (List.range (nvalid / 3)).map fun i =>
    ((payload >>> (24 * i)) % 2 ^ 24, bit pois ((16 + 3 * i) / 8) || bit pois ((16 + 3 * i + 2) / 8))

/-- A cell reaches a NODE destination (spec/05 R165): marks 1 UNSYNC, 2 TEST, 4 OVR pass; a gap becomes node cause 0x10 + CAUSE; a poisoned sample a gap of cause 0x02, counted. -/
def State.nodeCell (s : State) (p k : Nat) (raw : Bool) (c : Cell) : State :=
  if c.gap then s.nodePush p k (0, c.marks % 8, c.payload % 2 ^ 32, 0x10 + c.payload / 2 ^ 32 % 256)
  else
    s.each (rawSamples (if raw then c.nvalid else 3 * c.nvalid) c.payload c.pois) fun s v =>
      if v.2 then ((s.nodePush p k (0, c.marks % 8, 1, 0x02)).errPoison (pgSpt p)) else s.nodePush p k (v.1, c.marks % 8, 0, 0)

/-- Writes an item's cells to one destination (spec/05 R157, R158, R161, R168); `bad` are the cells whose header word is uncorrectable. Answers the destination as it then stands. -/
def State.destWrite (s : State) (e gen cls : Nat) (d : Dest) (it : SrcItem) (bad : List Nat) : Dest × State :=
  let cells := (s.cellsOf it d.fmt).zipIdx.map fun q => if bad.contains q.2 then q.1.lost it.raw else q.1
  let s := if d.kind = 0 then s else s.each (bad.eraseDups.filter fun i => decide (i < cells.length)) fun s _ => s.errUncorr pgStr
  let n := cells.length
  let count (s : State) : State := { s with flow :=
    let ms := s.now / cyclesPerMs
    if s.flow.1 = ms then (ms, s.flow.2.1 + n, s.flow.2.2)
    else (ms, n, if s.flow.1 + 1 = ms then s.flow.2.1 else 0) }
  match d.kind with
  | 1 | 2 =>
    if d.kind = 2 ∧ !d.isOpen then (d, s.bump (pgStrT e) (strOff e 0x5C) 31 0 n)
    else
      let (d, s) := cells.foldl (fun (acc : Dest × State) c =>
        let d := acc.1
        if d.kind = 2 ∧ !d.isOpen then (d, acc.2.bump (pgStrT e) (strOff e 0x5C) 31 0)
        else
          let s := acc.2.wrMemP (d.addr + 128 + 64 * (d.prod % 2 ^ d.size)) 64 (c.value e gen) c.poisList
          let d := { d with prod := (d.prod + 1) % 2 ^ 32, gen := gen }
          let full := d.kind = 2 ∧ d.dramMode = 1 ∧ (d.prod + (2 ^ 32 - d.openIdx)) % 2 ^ 32 = 2 ^ d.size
          (if full then { d with isOpen := false, closeIdx := d.prod } else d, s)) (d, s)
      (d, (count s).ringLine0 d false)
  | 3 => (d, count (cells.foldl (fun s c => s.circPush d.circuit cls c) s))
  | 4 => (d, count (s.each cells fun s c => s.nodeCell d.port d.nodeCh it.raw c))
  | _ => (d, s)

/-- Refills an entry's token bucket (spec/05 R166): RATE cells per 10 µs, depth BURST; 30,000 cycles make 10 µs. -/
def StrH.refill (h : StrH) (now : Nat) : StrH :=
  { h with tokens := min (h.burst * 30000) (h.tokens + (now - h.tokT) * h.rate), tokT := now }

/-- Opens or closes the capture slots of an entry at a cell boundary (spec/05 R168). -/
def State.capture (s : State) (e : Nat) (toOpen : Bool) : State :=
  let h := s.strH e
  let (ds, s) := h.dests.foldl (fun (acc : List Dest × State) d =>
    if d.kind = 2 ∧ d.capture = true ∧ d.isOpen ≠ toOpen then
      let d := if toOpen then { d with isOpen := true, openIdx := d.prod } else { d with isOpen := false, closeIdx := d.prod }
      (acc.1 ++ [d], acc.2.ringPut ⟨d, d.gen, 2⟩)
    else (acc.1 ++ [d], acc.2)) ([], s)
  s.setStr e { s.strH e with dests := ds }

/-- CAPTURE_OPEN and CAPTURE_CLOSE act through STR_CAPTURE or a waypoint (spec/05 R168). -/
def captureOpen (e : Nat) (s : State) : State := s.capture e true
def captureClose (e : Nat) (s : State) : State := s.capture e false

/-- Whether the item at the head of entry `e` can leave now: the entry works, a token is there, every destination has credit for its cells (spec/05 R161, R166). -/
def State.strAble (s : State) (e : Nat) : Bool :=
  let h := (s.strH e).refill s.now
  match (if s.strInert h || h.fault || !s.strTableReady e then [] else s.queue (srcKey h.srcKind h.srcSel)) with
  | [] => false
  | it :: _ => !(h.rlEn && decide (h.tokens < 30000)) && h.dests.all fun d => d.kind == 0 || decide (it.cellCount d.fmt ≤ (s.destCredit e d).1)

/-- Whether another entry goes before entry `e` (spec/05 R167): a SAFETY entry before a NORMAL one; in a class in turn, by entry number from the one served last. -/
def State.strAhead (s : State) (e : Nat) : Bool :=
  let c := (s.strH e).cls
  let last := if c = 1 then s.strTurn.2 else s.strTurn.1
  let turn (x : Nat) : Nat := (x + 8191 - last) % 4096
  s.strs.any fun q => q.1 != e && (decide (c < q.2.cls) || (c == q.2.cls && decide (turn q.1 < turn e))) && s.strAble q.1

/-- One item leaves the source of entry `e` at cycle `t`, when every destination has credit for its cells and no other entry goes first (spec/05 R156, R157, R161, R166, R167). `bad` are the cells, by destination slot and number in its order, whose header word is uncorrectable in the router. -/
def streamCell (e : Nat) (bad : List (Nat × Nat)) (t : Nat) (s : State) : State :=
  let s := (s.upTo t).ringDue
  let h := s.strH e
  if s.strInert h || h.fault || !s.strTableReady e then s else
  let key := srcKey h.srcKind h.srcSel
  match s.queue key with
  | [] => s
  | it :: rest =>
    let h := h.refill s.now
    if h.rlEn ∧ h.tokens < 30000 then
      let s := if h.rateWait then s else s.bump (pgStrT e) (strOff e 0x58) 15 0
      s.setStr e { h with rateWait := true }
    else
    let (ok, counted, ds, s) := h.dests.foldl (fun (acc : Bool × Bool × List Dest × State) d =>
      if d.kind = 0 then (acc.1, acc.2.1, acc.2.2.1 ++ [d], acc.2.2.2) else
      let s := acc.2.2.2
      let holding := !s.destReady d
      let (cr, err, s) := s.destCredit e d
      let has := decide (it.cellCount d.fmt ≤ cr)
      (acc.1 && has, acc.2.1 || (!has && !holding && !err), acc.2.2.1 ++ [{ d with err := err }], s)) (true, false, [], s)
    if !ok then
      let s := if counted && !it.waited then s.bump (pgStrT e) (strOff e 0x58) 31 16 else s
      (s.setStr e { h with dests := ds }).setQueue key ({ it with waited := it.waited || counted, stood := true } :: rest)
    else if s.strAhead e then s
    else
      let it' := if h.srcKind = 1 then it else { it with idx := h.taken }
      let (ds, s) := ds.zipIdx.foldl (fun (acc : List Dest × State) q =>
        let (d, s) := acc.2.destWrite e h.gen h.cls q.1 it' ((bad.filter fun b => b.1 == q.2).map (·.2))
        (acc.1 ++ [d], s)) ([], s)
      let cells := h.dests.foldl (fun a d => if d.kind = 0 then a else max a (it.cellCount d.fmt)) 0
      let s := s.setStr e { h with dests := ds, taken := h.taken + 1, tokens := if h.rlEn then h.tokens - 30000 else h.tokens, rateWait := false,
                                   leftT := s.now }
      let s := { s with strTurn := if h.cls = 1 then (s.strTurn.1, e) else (e, s.strTurn.2) }
      let s := s.setQueue key rest
      let s := s.bump (pgStrT e) (strOff e 0x50) 31 0 cells
      let s := if it.gap then s.bump (pgStrT e) (strOff e 0x54) 31 0 else s
      let s := if h.srcKind = 1 then s.bufFree it.port it.buf else s
      -- a GAP cell the receiver made stands for cells freed when they were counted lost (spec/19 R520)
      let s := if h.srcKind = 4 ∧ it.port ≠ 0xFFFF then
          let c := s.circH h.srcSel
          s.setCirc h.srcSel { c with freed := (c.freed + 1) % 2 ^ 32 }
        else s
      if h.cls = 1 ∧ !it.stood then
        let lat := s.now - max it.acceptedAt h.leftT
        let s := s.raiseMax pgStr 0x048 31 0 lat
        if s.rd pgStr 0x04C < lat then (s.bump pgStr 0x050 15 0).irq pgStr 18 else s
      else s

/-- A source other than a port offers an item: it waits for the router; a tile stream without an entry is discarded and counted (spec/05 R153, R162). -/
def State.sourceOffer (s : State) (key : Nat) (it : SrcItem) : State :=
  match s.entryOf key with
  | some _ => s.setQueue key (s.queue key ++ [it])
  | none => if key / 0x10000 = 3 then s.bump pgStr 0x054 31 0 else s

/-- Both copies of an active entry fail (spec/05 R170). -/
def State.strFault (s : State) (e : Nat) : State :=
  let s := s.setStr e { s.strH e with fault := true }
  ((s.bump pgStr 0x050 31 24).setFld pgStr 0x058 27 16 e).irq pgStr 16

/-- Cells that one record of a source makes at a destination (spec/05 R167): a port's B samples, else one. -/
def State.recordCells (s : State) (h : StrH) (d : Dest) : Nat :=
  if h.srcKind = 1 then
    let b := (List.range 512).foldl (fun a p => (List.range 4).foldl (fun a k =>
      let c := s.rd (pgSpt p) (0x200 + 64 * k)
      if bit c 31 ∧ bits c 30 20 = h.srcSel ∧ !s.getB (pgSpt p) 0x040 11 then 2 ^ bits c 15 12 else a) a) 0
    if d.fmt ≤ 1 then (b + 15) / 16 else (b + 11) / 12
  else 1

/-- W (spec/05 R167). -/
def State.safetyW (s : State) : Nat :=
  s.strs.foldl (fun a q => if !s.strInert q.2 && q.2.cls == 1 then
    q.2.dests.foldl (fun a d => if d.kind = 0 then a else a + s.recordCells q.2 d) a else a) 0

/-- STR_E_CTRL.STATE (spec/05). -/
def State.strState (s : State) (e : Nat) : Nat :=
  let h := s.strH e
  if h.fault then 4 else if !h.en then 0 else if s.strInert h then 1
  else match s.queue (srcKey h.srcKind h.srcSel) with
    | it :: _ => if it.waited || h.rateWait then 3 else 2
    | [] => 2

/-- STR_D_STAT of slot `i` (spec/05). -/
def State.slotStat (s : State) (e i : Nat) : Nat :=
  let h := s.strH e
  match (if h.en then h.dests[i]? else none) with
  | none => 0
  | some d =>
    if d.kind = 0 then 0 else
    let (cr, err, _) := s.destCredit e d
    let st := if !s.destReady d then 1 else if err then 5
      else if d.kind = 2 ∧ d.capture = true ∧ !d.isOpen then 4
      else if d.kind = 2 ∧ d.dramMode = 1 ∧ !d.isOpen then 4
      else match s.queue (srcKey h.srcKind h.srcSel) with
        | it :: _ => if it.waited && decide (cr < it.cellCount d.fmt) then 3 else 2
        | [] => 2
    min cr 0xFFFFFF * 256 + b2n (d.kind == 2 && d.capture && d.isOpen) * 8 + st

end Sys2Proof.Machine
end

