-- ==== Sys2Proof/Machine/Ports.lean ====
section
/-! DEFINITION. Sensor ports and the Otufa sensor protocol (spec/04): power, attach, time, samples and markers, NODE role. -/

namespace Sys2Proof.Machine

/-- One step of CRC-32C over a byte's bits, reflected polynomial 0x82F63B78 (spec/04 R105). -/
def crcBits : Nat → Nat → Nat
  | 0, c => c
  | n + 1, c => crcBits n (if c % 2 = 1 then (c / 2) ^^^ 0x82F63B78 else c / 2)

/-- CRC-32C of a list of bytes, as RFC 3720 computes it. -/
def crc32c (l : List Byte) : Nat :=
  (l.foldl (fun c b => crcBits 8 (c ^^^ b.toNat)) 0xFFFFFFFF) ^^^ 0xFFFFFFFF

/-- The CRC a record carries under a session prefix (spec/04 R103, R105). -/
def ospCrc (session type : Nat) (r : OspRec) : Nat :=
  let len := r.body.length + 12
  crc32c (leBytes 4 session ++ leBytes 1 type ++ leBytes 1 r.flags ++ leBytes 2 len ++ leBytes 2 r.seq ++ leBytes 2 r.arg ++ r.body)

/-- A record's length with header and CRC (spec/04 R103). -/
def ospLen (r : OspRec) : Nat := r.body.length + 12

/-- Body bytes as a number. -/
def bodyNum (l : List Byte) (off n : Nat) : Nat := ofLe ((l.drop off).take n)

/-- The length a record type has; a SAMPLE record's is judged against its group (spec/04 R106, R122). -/
def ospLenOk (type len : Nat) : Bool :=
  match type with
  | 0x01 => true
  | 0x02 | 0x04 => len == 24
  | 0x03 => len == 28
  | 0x05 | 0x06 => len == 44
  | 0x07 => len == 36
  | 0x10 => len == 40
  | 0x11 => len == 20
  | 0x12 | 0x13 => len == 12
  | _ => false

/-- Whether a LEN field is legal (spec/04 R103). -/
def lenLegal (len : Nat) : Bool := decide (12 ≤ len) && decide (len ≤ 1496) && len % 4 == 0

/-- The records that stand in the bytes from byte 4 of a frame payload on, each with its TYPE, and how parsing ends (spec/04 R104): 0 at the last byte, 1 at TYPE 0x00, an illegal LEN or fewer than 12 bytes, 2 at a LEN past the end. -/
def ospParse : Nat → List Byte → List (Nat × OspRec) × Nat
  | 0, _ => ([], 1)
  | fuel + 1, l =>
    if l.isEmpty then ([], 0) else
    let type := bodyNum l 0 1
    let len := bodyNum l 2 2
    if l.length < 12 ∨ type = 0 ∨ lenLegal len = false then ([], 1)
    else if l.length < len then ([], 2)
    else
      let (rs, e) := ospParse fuel (l.drop len)
      let r : OspRec :=
        { flags := bodyNum l 1 1, seq := bodyNum l 4 2, arg := bodyNum l 6 2, body := (l.drop 8).take (len - 12), crc := bodyNum l (len - 4) 4 }
      ((type, r) :: rs, e)

/-- Whether a frame is foreign to a port that receives direction `dir` (spec/04 R97, R101). -/
def foreignFrame (cfgType dir ethertype : Nat) (tagged : Bool) (length : Nat) (payload : List Byte) : Bool :=
  ethertype != cfgType || tagged || decide (length < 64) || decide (1518 < length) || bodyNum payload 0 1 != 0x10 || bodyNum payload 1 1 != dir

/-- Registers of a port. -/
def State.pstate (s : State) (p : Nat) : Nat := s.fld (pgSpt p) 0x06C 27 24
def State.syncState (s : State) (p : Nat) : Nat := s.fld (pgSpt p) 0x06C 23 22
def State.isNode (s : State) (p : Nat) : Bool := s.getB (pgSpt p) 0x040 11
def State.session (s : State) (p : Nat) : Nat := s.rd (pgSpt p) 0x068

/-- The instant of an index, rounded up to a cycle. -/
def State.instant (s : State) (p rate n : Nat) : Nat :=
  s.rd64 (pgSpt p) 0x060 + roundUp (n * 3000000000) (fsOf rate) / fsOf rate

/-- The frame that carries one record of a port (spec/04 R97, R101, R103, R105): each record goes in a frame of its own, padded to Ethernet's 46 payload bytes. -/
def State.ospFrame (s : State) (p type : Nat) (r : OspRec) : EthFrame :=
  let record := leBytes 1 type ++ leBytes 1 r.flags ++ leBytes 2 (ospLen r) ++ leBytes 2 r.seq ++ leBytes 2 r.arg ++ r.body ++
    leBytes 4 (ospCrc (if type = 0x10 then 0 else s.session p) type r)
  let payload := leBytes 1 0x10 ++ leBytes 1 (b2n (!s.isNode p)) ++ leBytes 2 0 ++ record
  { dest := 0xFFFFFFFFFFFF, src := s.rd64 (pgSpt p) 0x050 % 2 ^ 48, ethertype := s.fld (pgSpt p) 0x040 31 16,
    payload := payload ++ leBytes (46 - payload.length) 0 }

/-- What leaves a port when it sends a record (spec/04 R119). -/
def State.ospOut (s : State) (p type flags arg : Nat) (body : List Byte) : Out :=
  let seq := (s.portH p).seqOut
  .osp p type flags seq arg body (s.ospFrame p type { flags := flags, seq := seq, arg := arg, body := body, crc := 0 })

/-- Sends an OSP record: SEQ counts on (spec/04 R119). -/
def State.ospSend (s : State) (p type flags arg : Nat) (body : List Byte) : State :=
  let h := s.portH p
  (s.setPort p { h with seqOut := (h.seqOut + 1) % 65536 }).emit (s.ospOut p type flags arg body)

/-- Enters a state of the attach table; PAGE_STATUS follows it (spec/04 R136, R137). `code` is the FAULT_CODE the row sets. -/
def State.enterP (s : State) (p st : Nat) (code : Option Nat := none) : State :=
  let pg := pgSpt p
  let s := s.setFld pg 0x06C 27 24 st
  let s := s.setPort p { s.portH p with tEnter := s.now }
  match st with
  | 0 => s.pageOff pg
  | 5 => s.pageReady pg
  | 6 => (if s.faulted pg then s.setFld pg oStatus 15 8 (code.getD 0) else s.pageFault pg (code.getD 0))
  | 2 => match code with
    | some c => if s.faulted pg then s.setFld pg oStatus 15 8 c else s.pageFault pg c
    | none => if s.busy pg then s else s.pageStarting pg
  | _ => if s.busy pg then s else s.pageStarting pg

/-- The cause of index `x` where losses are known, and the end of the run that shares it (spec/04 R129): of losses that cover it the first detected counts. -/
def lossAt (loss : List (Nat × Nat × Nat)) (x upTo cause : Nat) : Nat × Nat :=
  let stop (e : Nat) : Nat := loss.foldl (fun a r => if x < r.1 then min a r.1 else if x < r.2.1 then min a r.2.1 else a) e
  match loss.find? fun r => decide (r.1 ≤ x) && decide (x < r.2.1) with
  | some r => (r.2.2, stop upTo)
  | none => (cause, stop upTo)

/-- The markers that the indices from `x` up to `upTo` make, as first index, count and cause: samples that a cause detected earlier covers enter a marker of that cause (spec/04 R129). -/
def gapRuns (loss : List (Nat × Nat × Nat)) : Nat → Nat → Nat → Nat → List (Nat × Nat × Nat)
  | 0, x, upTo, cause => if x < upTo then [(x, upTo - x, cause)] else []
  | fuel + 1, x, upTo, cause =>
    if upTo ≤ x then [] else
    let (c, e) := lossAt loss x upTo cause
    match gapRuns loss fuel e upTo cause with
    | (f, n, c') :: rest => if c' = c then (x, n + (f - x), c) :: rest else (x, e - x, c) :: (f, n, c') :: rest
    | [] => [(x, e - x, c)]

/-- The markers that take channel `k` from N up to `upTo`. -/
def ChH.runs (c : ChH) (n upTo cause : Nat) : List (Nat × Nat × Nat) := gapRuns c.loss (2 * c.loss.length) n upTo cause

/-- Emits the gap markers of a channel from N up to `upTo`, and moves N past them (spec/04 R123–R125, R129, R138). -/
def State.gapTo (s : State) (p k upTo cause : Nat) : State :=
  let c := s.ch p k
  match c.n with
  | none => s
  | some n =>
    if upTo ≤ n then s else
    let s := s.setCh p k { c with n := some upTo, loss := c.loss.filter fun r => decide (upTo < r.2.1) }
    let s := s.wr64 (pgSpt p) (0x208 + 64 * k) upTo
    s.each (c.runs n upTo cause) fun s r => (s.flushPend p k).putMarker p k r.1 r.2.1 r.2.2

/-- Ends the session (spec/04 R138): every channel that has delivered a record gets a LINK marker up to the present instant. -/
def State.endSession (s : State) (p : Nat) : State :=
  if s.session p = 0 then s else
  let s := s.each (List.range 4) fun s k => s.gapTo p k (s.idxUpTo p (s.chRate p k) s.now) 4
  let s := s.wr (pgSpt p) 0x068 0
  s.bump (pgSpt p) 0x098 15 0

/-- The link goes down: LINK, AMP_USED, MS_USED and SYNC read 0; bits 16 and 17 report the changes (spec/04 R96, R147). -/
def State.linkBits (s : State) (p : Nat) : State :=
  let s := if s.getB (pgSpt p) 0x06C 21 then s.irq (pgSpt p) 16 else s
  let s := if s.syncState p ≠ 0 then s.irq (pgSpt p) 17 else s
  s.setFld (pgSpt p) 0x06C 23 17 0

/-- Restarts the PHY into TRAINING with a fault code: the link goes down and a session ends with LINK markers (spec/04 R136). -/
def State.restartPhy (s : State) (p code : Nat) : State := ((s.endSession p).linkBits p).enterP p 2 (some code)

/-- Enters POWERING: Clause 104 detection and classification start, unless the port is latched or waits to retry (spec/04 R99, R136). -/
def State.enterPowering (s : State) (p : Nat) : State :=
  let h := s.portH p
  (s.setPort p { h with detect := h.detect || (h.retryAt.isNone && !s.getB (pgSpt p) 0x048 1) }).enterP p 1

/-- Link down in ATTACHING to STREAMING (spec/04 R120, R136): the session ends with LINK markers; TRAINING, or POWERING if power went. -/
def State.linkLost (s : State) (p : Nat) : State :=
  let code := if s.pstate p = 5 then some 1 else none
  let s := (s.endSession p).linkBits p
  if s.getB (pgSpt p) 0x048 0 || !s.getB (pgSpt p) 0x044 15 then s.enterP p 2 code
  else
    let s := match code with
      | some c => s.setFld (pgSpt p) oStatus 15 8 c
      | none => s
    s.enterPowering p

/-- Removes port power. -/
def State.powerDown (s : State) (p : Nat) : State :=
  let s := s.setFld (pgSpt p) 0x048 31 8 0
  s.setB (pgSpt p) 0x048 0 false

/-- ENABLE written 1 on an OFF port (spec/04 R108, R136): the epoch is set once; power first where SPT_PWR.EN asks for it. -/
def State.sptEnable (s : State) (p : Nat) : State :=
  if s.pstate p ≠ 0 then s else
  let h := s.portH p
  let s := if h.epochSet then s else
    (s.wr64 (pgSpt p) 0x060 ((s.now / 3000000 + 1) * 3000000)).setPort p { h with epochSet := true }
  let s := s.setPort p { s.portH p with retryAt := none, detect := false }
  if s.getB (pgSpt p) 0x044 15 then s.enterPowering p else s.enterP p 2

/-- ENABLE written 0 (spec/04 R136). -/
def State.sptDisable (s : State) (p : Nat) : State :=
  let s := s.endSession p
  let s := (s.linkBits p).powerDown p
  (s.setPort p { s.portH p with retryAt := none, detect := false }).enterP p 0

/-- The oldest index of a channel that no destination has taken: of what waits in the buffer, of a marker that waits for room, or N (spec/04 R139). -/
def State.oldestIdx (s : State) (p k n : Nat) : Nat :=
  let waiting := (s.queue (portKey (s.moduleCh p k))).filter fun it => it.port == p && it.nodeCh == k && it.buf != 0
  let first := match (s.ch p k).pend with
    | some (f, _, _) => min f n
    | none => n
  waiting.foldl (fun a it => min a it.idx) first

/-- A source queue without the items of a port. -/
def dropPort (p : Nat) (q : List SrcItem) : List SrcItem := q.filter fun it => !(it.port == p && !it.raw && it.buf != 0)

/-- PAGE_CTRL.RESET, the port's own part (spec/04 R139): one RESET marker per channel over everything not yet delivered; the buffer and the port's memory clear. -/
def State.sptReset (s : State) (p : Nat) : State :=
  let marks : List (Nat × SrcItem) := (List.range 4).filterMap fun k =>
    match (s.ch p k).n with
    | none => none
    | some n =>
      let first := s.oldestIdx p k n
      let last := s.idxUpTo p (s.chRate p k) s.now
      if last ≤ first then none else
      some (portKey (s.moduleCh p k),
        { port := p, chan := s.moduleCh p k, nodeCh := k, gap := true, idx := first, count := min (last - first) 0xFFFFFFFF, cause := 7,
          acceptedAt := s.now })
  let s := s.each ((s.srcQ.filter fun q => q.1 / 0x10000 == 1).map (·.1)) fun s key => s.setQueue key (dropPort p (s.queue key))
  let s := s.each marks fun s m => if (s.entryOf m.1).isSome then s.setQueue m.1 (s.queue m.1 ++ [m.2]) else s
  s.setPort p { lastSession := (s.portH p).lastSession }

/-- Whether a port may apply power now: fewer than 16 ports did in the preceding 10 ms (spec/21 R572). -/
def State.powerRoom (s : State) : Bool := decide ((s.portPower.filter fun x => decide (s.now < x + 10 * cyclesPerMs)).length < 16)

/-- A port applies power at 24.0 V; at its current limit the output stands at the voltage it then measures, 24.0 V at the most (spec/04 R98). -/
def State.powerOn (s : State) (p cls volt cur : Nat) : State :=
  let pg := pgSpt p
  let lim := 9 * s.fld pg 0x044 6 0 / 2
  let s := ((s.setFld pg 0x048 31 24 (if cur < lim then 240 else min volt 240)).setFld pg 0x048 23 12 (min cur lim)).setFld pg 0x048 11 8 cls
  let s := (s.setB pg 0x048 0).setB pg 0x048 4 false
  { s.setPort p { s.portH p with retryAt := none, detect := false } with
    portPower := s.now :: s.portPower.filter fun x => decide (s.now < x + 10 * cyclesPerMs) }

/-- SPT_PWR.LIMIT moves while power is applied: the output stays within the new limit. What a load at its limit then takes, and the voltage at the limit, are measured and open (DESIGN CHOICE, log entry 187; spec/04 R98). -/
def State.limitMoved (s : State) (p old : Nat) : State :=
  let pg := pgSpt p
  let lim0 := 9 * bits old 6 0 / 2
  let lim1 := 9 * s.fld pg 0x044 6 0 / 2
  let cur := s.fld pg 0x048 23 12
  if lim0 = lim1 ∨ s.getB pg 0x048 0 = false ∨ (cur < lim0 ∧ cur < lim1) then s else
  let (d, s) := s.draw
  let f := (Config.portLoad p d).toNat
  let cur := if lim1 ≤ cur then lim1 else min lim1 (cur + f / 256)
  (s.setFld pg 0x048 23 12 cur).setFld pg 0x048 31 24 (if cur < lim1 then 240 else min 240 (f % 256))

/-- A port that asks for power stays without it: a retry is due in 1 s; with SPWR low it sets SPWR_LOW and FAULT_CODE 0x04 (spec/04 R100, R136). -/
def State.noPower (s : State) (p : Nat) : State :=
  let s := s.setPort p { s.portH p with retryAt := some (s.now + cyclesPerS), detect := false }
  if s.spwrLow then ((s.setB (pgSpt p) 0x048 4).setFld (pgSpt p) oStatus 15 8 4).irq (pgSpt p) 21 else s

/-- POWER_APPLIED (spec/04 R98, R136, spec/21 R572): classification grants a 24 V class with SPWR present; the port supplies 24.0 V within its current limit. Another class receives no power; a port that may not apply power yet waits. -/
def powerApplied (p cls volt cur : Nat) (is24V : Bool) (t : Nat) (s : State) : State :=
  let s := s.upTo t
  let pg := pgSpt p
  let h := s.portH p
  if h.detect = false ∨ s.getB pg 0x044 15 = false ∨ s.getB pg 0x048 1 = true then s
  else if is24V ∧ !s.spwrLow then
    if !s.powerRoom then s else
    if s.pstate p = 1 then (s.powerOn p cls volt cur).enterP p 2 else s.powerOn p cls volt cur
  else s.noPower p

/-- POWER_REFUSED (spec/04 R100, R136): retry after 1 s; FAULT_CODE 0x04 when SPWR is low. -/
def powerRefused (p t : Nat) (s : State) : State :=
  let s := s.upTo t
  if (s.portH p).detect = false then s else s.noPower p

/-- POWER_RETRY (spec/04 R99, R136): one second after a refusal or overload, detection and classification start again. -/
def powerRetry (p t : Nat) (s : State) : State :=
  let s := s.upTo t
  match (s.portH p).retryAt with
  | none => s
  | some r =>
    if t < r then s else
    let go := s.pstate p ≠ 0 ∧ s.getB (pgSpt p) 0x048 1 = false ∧ s.getB (pgSpt p) 0x044 15
    s.setPort p { s.portH p with retryAt := none, detect := decide go }

/-- OVERLOAD (spec/04 R99): power is removed; the third overload within 10 s latches and halts the port. -/
def overload (p t : Nat) (s : State) : State :=
  let s := s.upTo t
  if s.pstate p = 0 ∨ !s.getB (pgSpt p) 0x048 0 then s else
  let h := s.portH p
  let s := ((s.powerDown p).raise (pgSpt p) 0x048 2).irq (pgSpt p) 21
  let recent := s.now :: h.overloads.filter fun x => decide (s.now < x + 10 * cyclesPerS)
  if 3 ≤ recent.length then
    let s := s.setPort p { s.portH p with overloads := recent, retryAt := none, detect := false, unlatch := false }
    let s := (s.setB (pgSpt p) 0x048 1).endSession p
    s.enterP p 6 (some 3)
  else s.setPort p { s.portH p with overloads := recent, retryAt := some (s.now + cyclesPerS) }

/-- SPT_PWR written (spec/04 R98, R99): EN = 0 removes power and, of a latched port, prepares its release; EN = 1 after that clears LATCHED; EN from 0 to 1 starts detection in an enabled port. HALTED is left by ENABLE only (R136). That release forgets the earlier overloads too (DESIGN CHOICE, log entry 182). -/
def State.sptPwrWritten (s : State) (p old : Nat) : State :=
  let pg := pgSpt p
  let en := s.getB pg 0x044 15
  let h := s.portH p
  if !en then
    let s := s.setPort p { h with retryAt := none, detect := false, unlatch := h.unlatch || s.getB pg 0x048 1 }
    if s.getB pg 0x048 0 then s.powerDown p else s
  else if bit old 15 then s.limitMoved p old
  else
    let s := if h.unlatch then (s.setB pg 0x048 1 false).setPort p { h with unlatch := false, overloads := [] } else s
    if s.pstate p = 0 ∨ s.getB pg 0x048 1 = true then s
    else s.setPort p { s.portH p with detect := true }

/-- The body of a CONFIG record and what it configures (spec/04 R135). -/
def State.cfgNow (s : State) (p : Nat) : List ChCfg :=
  (List.range 4).map fun k => ⟨s.chEn p k, s.chRate p k, bits (s.chCfg p k) 15 12⟩

def cfgBody (l : List ChCfg) : List Byte :=
  (l.map fun c => [BitVec.ofNat 8 (b2n c.en * 128 + c.rate % 16), BitVec.ofNat 8 (c.blog % 16)]).flatten

/-- Sends CONFIG with the next CFG_GEN (spec/04 R122, R135, R136). -/
def State.sendConfig (s : State) (p : Nat) : State :=
  let h := s.portH p
  let gen := (h.cfgGen + 1) % 65536
  let s := s.setPort p { h with cfgGen := gen, cfgPrev := h.cfg, cfg := some (s.cfgNow p), acked := false }
  s.ospSend p 0x11 0 gen (cfgBody (s.cfgNow p))

/-- The amplitude and role in force when a link comes up (spec/04 R96): forced ones with AN = 0, else those that negotiation resolved; none where the port does not offer that amplitude. -/
def State.linkModes (s : State) (p amp ms : Nat) : Option (Nat × Nat) :=
  let a := s.fld (pgSpt p) 0x040 15 14
  if !s.getB (pgSpt p) 0x040 13 then some (if a = 2 then 1 else 0, s.fld (pgSpt p) 0x040 12 12)
  else if (a = 1 ∧ amp = 1) ∨ (a = 2 ∧ amp = 0) then none
  else some (amp, ms)

/-- LINK_UP (spec/04 R96, R119, R136): TRAINING goes to ATTACHING with a new session; a HOST port queries the node. -/
def linkUp (p amp ms t : Nat) (s : State) : State :=
  let s := s.upTo t
  match (if s.pstate p = 2 then s.linkModes p amp ms else none) with
  | none => s
  | some (amp, ms) =>
  let pg := pgSpt p
  let prev := (s.portH p).lastSession
  let (d, s) := s.draw
  let v := (Config.sessionId p d).toNat
  let sess := if v ≠ 0 ∧ v ≠ prev then v else if prev = 1 then 2 else 1
  let s := ((s.setB pg 0x06C 21).setB pg 0x06C 20 (amp == 1)).setB pg 0x06C 19 (ms == 1)
  let s := ((s.setFld pg 0x06C 23 22 1).irq pg 16).irq pg 17
  let s := s.wr pg 0x09C 0
  let s := s.bump pg 0x098 31 16
  let h := s.portH p
  let h :=
    { h with lastSession := if s.isNode p then h.lastSession else sess, queries := 1, tQuery := t, seqIn := 0, seqOut := 0, run := 0, syncNum := 0, syncT1 := [], nextSync := t, rounds := [], good := 0,
             bad := 0, missed := 0, cfg := none, cfgPrev := none, acked := false, identOk := false, calMask := 0, statusT := t, rx := 0, selfSent := false, test := none }
  let s := s.setPort p h
  if s.isNode p then s.enterP p 3
  else
    let s := (s.wr pg 0x068 sess).enterP p 3
    s.ospSend p 0x12 0 3 []

/-- LINK_DOWN (spec/04 R136, R138). -/
def linkDown (p t : Nat) (s : State) : State :=
  let s := s.upTo t
  if 3 ≤ s.pstate p ∧ s.pstate p ≤ 5 then s.linkLost p else s.linkBits p

/-- TRAINING_TIMEOUT: 5 s without link (spec/04 R136). -/
def trainingTimeout (p t : Nat) (s : State) : State :=
  let s := s.upTo t
  if s.pstate p = 2 ∧ (s.portH p).tEnter + 5 * cyclesPerS ≤ t then s.setPort p { s.portH p with tEnter := t } else s

/-- ATTACH_TIMEOUT: 100 ms without the full answer (spec/04 R136). -/
def attachTimeout (p t : Nat) (s : State) : State :=
  let s := s.upTo t
  let h := s.portH p
  if s.pstate p ≠ 3 ∨ s.isNode p ∨ t < h.tQuery + 100 * cyclesPerMs then s
  else if h.queries < 10 then
    (s.setPort p { h with queries := h.queries + 1, tQuery := t }).ospSend p 0x12 0 3 []
  else s.restartPhy p 6

/-- CONFIGURING_TIMEOUT: 2 s (spec/04 R136). -/
def configuringTimeout (p t : Nat) (s : State) : State :=
  let s := s.upTo t
  if s.pstate p = 4 ∧ (s.portH p).tEnter + 2 * cyclesPerS ≤ t then s.restartPhy p 6 else s

/-- NODE_SILENT: 500 ms without STATUS while STREAMING (spec/04 R136). -/
def nodeSilent (p t : Nat) (s : State) : State :=
  let s := s.upTo t
  if s.pstate p = 5 ∧ !s.isNode p ∧ (s.portH p).statusT + 500 * cyclesPerMs ≤ t then s.restartPhy p 5 else s

/-- Sets the SYNC state, raising bit 17 on a change (spec/04 R113, R147). -/
def State.setSync (s : State) (p v : Nat) : State :=
  if s.syncState p = v then s else (s.setFld (pgSpt p) 0x06C 23 22 v).irq (pgSpt p) 17

/-- SYNC_INSTANT (spec/04 R110, R113, R125): every 3,000,000 cycles a HOST port with a link sends SYNC; ten unanswered ones unlock; silent channels become STALE. -/
def syncInstant (p t : Nat) (s : State) : State :=
  let s := s.upTo t
  let h := s.portH p
  let st := s.pstate p
  if s.isNode p ∨ st < 3 ∨ 5 < st ∨ t < h.nextSync then s else
  let pg := pgSpt p
  let num := h.syncNum
  let missed := h.missed + 1
  let s := s.setPort p { h with syncNum := (num + 1) % 65536, syncT1 := (num, t) :: h.syncT1.take 15, nextSync := t + 3000000, missed := missed }
  let s := if 10 < missed then (s.setPort p { s.portH p with good := 0 }).setSync p 1 else s
  let s := s.ospSend p 0x10 0 num (leBytes 8 t ++ leBytes 8 (s.rd64 pg 0x060) ++ leBytes 4 (s.rd pg 0x07C) ++ leBytes 4 (s.rd pg 0x078) ++ leBytes 4 (s.session p))
  s.each (List.range 4) fun s k =>
    let c := s.ch p k
    match c.n with
    | none => s
    | some n =>
      let rate := s.chRate p k
      -- indices whose instant, LIMIT and B samples added, lies before t
      let x : Int := ((t : Int) - s.rd64 pg 0x060 - 3 * s.rd pg 0x070) * fsOf rate
      let upTo := if x ≤ 0 then 0 else (x - 1).toNat / 3000000000 + 1 - s.chB p k
      if n < upTo then (s.setCh p k { c with stale := true }).gapTo p k upTo 5 else s

/-- Counts in a half of an error register and raises its interrupt bit (spec/04 R147). -/
def State.sptErr (s : State) (p off hi lo n b : Nat) : State := (s.bump (pgSpt p) off hi lo n).irq (pgSpt p) b

/-- The checks CRC, SEQ, type and role of a record (spec/04 R105, R106, R120, R121); `take` says whether the port's role takes this type at this LEN. Answers whether it goes on. -/
def State.judge (s : State) (p type : Nat) (take : Bool) (r : OspRec) : Bool × State :=
  let st := s.pstate p
  if st < 3 ∨ 5 < st then (false, s) else
  let sess := if type = 0x10 then 0 else s.session p
  if ospCrc sess type r ≠ r.crc then (false, s.sptErr p 0x080 31 16 1 19)
  else
    let h := s.portH p
    let d := (r.seq + 65536 - h.seqIn % 65536) % 65536
    if d = 0 ∨ d ≤ 1024 then
      let s := s.setPort p { h with seqIn := (r.seq + 1) % 65536, run := 0 }
      let s := if d = 0 then s else s.sptErr p 0x080 15 0 d 19
      if take then (true, s) else (false, s.bump (pgSpt p) 0x08C 31 16)
    else if 65520 ≤ d then
      (false, (s.setPort p { h with run := 0 }).sptErr p 0x084 31 16 1 19)
    else
      let s := s.bump (pgSpt p) 0x08C 31 16
      if h.run + 1 < 3 then (false, s.setPort p { s.portH p with run := h.run + 1 })
      else (false, (s.setPort p { s.portH p with run := 0 }).linkLost p)

/-- The records of types that no role takes, of those in a frame's bytes that have not been parsed yet (spec/04 R104, R106): each has its checks and is discarded. Answers how parsing ends. -/
def State.frameWalk (s : State) (p : Nat) (payload : List Byte) : Nat × State :=
  let (rs, e) := ospParse payload.length (payload.drop 4)
  let (_, s) := rs.foldl (fun (acc : Nat × State) q =>
    let s := acc.2
    (acc.1 + ospLen q.2, if acc.1 < (s.portH p).rx ∨ ospLenOk q.1 (ospLen q.2) ∨ q.1 ≤ 7 ∨ (0x10 ≤ q.1 ∧ q.1 ≤ 0x13) then s else (s.judge p q.1 false q.2).2)) (4, s)
  (e, s.setPort p { s.portH p with rx := payload.length })

/-- Whether a record stands in a frame that the port takes, at a place that parsing reaches (spec/04 R97, R101, R104). -/
def State.inFrame (s : State) (p : Nat) (r : OspRec) : Bool :=
  !foreignFrame (s.fld (pgSpt p) 0x040 31 16) (b2n (s.isNode p)) r.ethertype r.tagged r.length r.before &&
  (ospParse r.before.length (r.before.drop 4)).2 == 0 && decide (4 ≤ r.before.length) && lenLegal (ospLen r) &&
  decide (r.before.length + ospLen r + 18 ≤ r.length)

/-- What a received record meets before its own meaning (spec/04 R97, R104–R106, R120, R121): the frame, the records before it, then its own checks. `up` is the record's direction. Answers whether it goes on. -/
def State.recvCheck (s : State) (p type : Nat) (up : Bool) (r : OspRec) : Bool × State :=
  if s.pstate p < 3 ∨ 5 < s.pstate p ∨ s.inFrame p r = false then (false, s) else
  let (_, s) := s.frameWalk p r.before
  let s := s.setPort p { s.portH p with rx := r.before.length + ospLen r }
  s.judge p type (s.isNode p != up && ospLenOk type (ospLen r)) r

/-- The upstream token bucket (spec/04 R127): a record of `len` bytes takes its tokens or is dropped and counted. -/
def State.police (s : State) (p len : Nat) : Bool × State :=
  let h := s.portH p
  let tok := min (4096 * 3000) (h.tokens + (s.now - h.tokT))
  if tok < len * 3000 then (false, (s.setPort p { h with tokens := tok, tokT := s.now }).sptErr p 0x088 15 0 1 20)
  else (true, s.setPort p { h with tokens := tok - len * 3000, tokT := s.now })

/-- The group of a configuration that a SAMPLE record matches (spec/04 R114, R122): its B. -/
def matchGroup (cfg : List ChCfg) (mask rate len sidx : Nat) : Option Nat :=
  (List.range 16).find? fun b =>
    let m := (List.range 4).foldl (fun a k => match cfg[k]? with
      | some c => if c.en ∧ c.rate = rate ∧ c.blog = b then a + 2 ^ k else a
      | none => a) 0
    m == mask && mask != 0 && roundUp (20 + 3 * popCount 4 mask * 2 ^ b) 4 == len && sidx % 2 ^ b == 0

/-- Delivers one channel's share of an accepted SAMPLE record (spec/04 R123, R126, R130). `buf` is the buffer item that holds the record. Answers whether the channel holds a share of it. -/
def State.deliver (s : State) (p k first marks buf : Nat) (vals : List Nat) : Bool × State :=
  let pg := pgSpt p
  let c := s.ch p k
  let n := c.n.getD first
  let s := if c.n.isNone then s.setCh p k { c with n := some first } else s
  let s := if n < first then s.gapTo p k first 2 else s
  let s := s.flushPend p k
  let skip := n - first
  let keep := vals.drop skip
  let fin := max n (first + vals.length)
  let c := s.ch p k
  let s := (s.setCh p k { c with n := some fin, loss := c.loss.filter fun r => decide (fin < r.2.1), stale := false }).wr64 pg (0x208 + 64 * k) fin
  let key := portKey (s.moduleCh p k)
  match s.entryOf key with
  | some _ =>
    if keep.isEmpty then (false, s) else
    let it : SrcItem :=
      { port := p, chan := s.moduleCh p k, nodeCh := k, idx := first + skip, marks := marks, samples := keep.map fun v => (v, false),
        acceptedAt := s.now, buf := buf }
    (true, s.setQueue key (s.queue key ++ [it]))
  | none => (false, s)

/-- SAMPLE (spec/04 R114, R118, R121–R130). -/
def sampleRec (p t : Nat) (r : OspRec) (s : State) : State :=
  let (go, s) := (s.upTo t).recvCheck p 0x01 true r
  if !go then s else
  let pg := pgSpt p
  let mask := bits r.arg 3 0
  let rate := bits r.arg 7 4
  let len := r.body.length + 12
  let sidx := bodyNum r.body 0 6
  let h := s.portH p
  let cur := h.cfg.bind fun c => matchGroup c mask rate len sidx
  let old := if h.acked then none else h.cfgPrev.bind fun c => matchGroup c mask rate len sidx
  match cur.orElse fun _ => old with
  | none => s.bump pg 0x08C 31 16
  | some b =>
    let places := (List.range 4).filter fun k => bit mask k
    let ks := places.filter fun k => s.chEn p k
    -- a lost record joins a marker that waits right before it, else leaves its cause on the samples it lost (R126, R129)
    let lose (s : State) (cause : Nat) : State := s.each ks fun s k =>
      let c := s.ch p k
      let noted := { c with loss := c.loss ++ [(sidx, sidx + 2 ^ b, cause)] }
      match c.n, c.pend with
      | some n, some (f, m, cs) =>
        if n = sidx ∧ f + m = sidx then
          (s.setCh p k { c with n := some (sidx + 2 ^ b), pend := some (f, m + 2 ^ b, cs) }).wr64 pg (0x208 + 64 * k) (sidx + 2 ^ b)
        else s.setCh p k noted
      | some n, none => if sidx + 2 ^ b ≤ n then s else s.setCh p k noted
      | none, _ => s
    let (ok, s) := s.police p len
    if !ok then lose s 6 else
    let h := s.portH p
    -- the markers that must precede it, beyond the reserve's room
    let holes := ks.foldl (fun a k =>
      let c := s.ch p k
      a + b2n c.pend.isSome + (match c.n with | some n => (c.runs n sidx 2).length | none => 0)) 0
    if 65280 < h.outside + 16 * (holes - (256 - h.inReserve) / 16) + len then lose (s.sptErr p 0x088 31 16 1 20) 1 else
    let meas : Int := ((t : Int) - s.rd64 pg 0x060) * fsOf rate - 3000000000 * sidx
    let ns := meas.toNat / (3 * fsOf rate)
    let s := s.raiseMax pg 0x074 31 0 ns
    let late := decide (3 * s.rd pg 0x070 * fsOf rate < meas.toNat)
    let dup := ks.any fun k => match (s.ch p k).n with
      | some n => decide (sidx < n)
      | none => false
    -- one error counter for one record: a record that counts in DUP does not count in LATE (R121)
    let s := if late then (if dup then s else s.bump pg 0x084 15 0).irq pg 18 else s
    let s := if dup then s.sptErr p 0x084 31 16 1 19 else s
    let id := h.nextBuf + 1
    let s := s.setPort p { s.portH p with nextBuf := id }
    let m := places.length
    let statusSeen := s.getB pg 0x09C 6
    let ok8 := bits (s.rd pg 0x1C0) 15 8
    let (cnt, s) := (places.zipIdx.filter fun q => ks.contains q.1).foldl (fun (acc : Nat × State) q =>
      let k := q.1
      let vals := (List.range (2 ^ b)).map fun i => bodyNum r.body (8 + 3 * (i * m + q.2)) 3
      let marks := b2n (bit r.flags 0 || s.syncState p != 2) + 2 * b2n (bit r.flags 1) + 4 * b2n (bit (bodyNum r.body 6 1) k) +
        8 * b2n late + 16 * b2n (statusSeen && !bit ok8 k)
      let (held, s) := acc.2.deliver p k sidx marks id vals
      (acc.1 + b2n held, s)) (0, s)
    if cnt = 0 then s
    else (s.setPort p { s.portH p with bufs := (s.portH p).bufs ++ [⟨id, len, false, cnt⟩] }).bufShow p

/-- GAP from the node (spec/04 R128): markers of cause NODE; samples between N and the gap are LOST. -/
def gapRec (p t : Nat) (r : OspRec) (s : State) : State :=
  let (go, s) := (s.upTo t).recvCheck p 0x02 true r
  if !go then s else
  let (ok, s) := s.police p (ospLen r)
  if !ok then s else
  let sidx := bodyNum r.body 0 6
  let count := bodyNum r.body 8 4
  s.each ((List.range 4).filter fun k => bit r.arg k && s.chEn p k) fun s k =>
    match (s.ch p k).n with
    | none => s
    | some n =>
      let s := if n < sidx then s.gapTo p k sidx 2 else s
      s.gapTo p k (sidx + count) 3

/-- SYNC_REPLY (spec/04 R112, R113): `t` is T4. Delay is the mean half round trip of the last 16 replies, in 1/16 cycles. -/
def syncReply (p t : Nat) (r : OspRec) (s : State) : State :=
  let (go, s) := (s.upTo t).recvCheck p 0x03 true r
  if !go then s else
  let (ok, s) := s.police p (ospLen r)
  if !ok then s else
  let h := s.portH p
  match h.syncT1.find? fun q => q.1 == r.arg with
  | none => s
  | some (_, t1) =>
    let t2 := bodyNum r.body 0 8
    let t3 := bodyNum r.body 8 8
    let round : Int := ((t : Int) - t1) - ((t3 : Int) - t2)
    let rounds := (round :: h.rounds).take 16
    let delay : Int := 8 * rounds.foldl (· + ·) 0 / rounds.length
    let ofs : Int := 16 * ((t2 : Int) - t1) - delay
    let abs := ofs.natAbs
    let good := if abs ≤ 960 then h.good + 1 else 0
    let bad := if 1200 < abs then h.bad + 1 else 0
    let pg := pgSpt p
    let s := (s.wr pg 0x07C (delay % 2 ^ 32).toNat).wr pg 0x078 (ofs % 2 ^ 32).toNat
    let s := s.setPort p { s.portH p with rounds := rounds, good := good, bad := bad, missed := 0 }
    if s.syncState p = 2 then (if 2 ≤ bad ∨ 12000 < abs then s.setSync p 1 else s)
    else if 8 ≤ good then s.setSync p 2 else s

/-- Copies a record body into its window, word by word. -/
def State.window (s : State) (p off : Nat) (body : List Byte) (n : Nat) : State :=
  s.each (List.range n) fun s i => s.wr (pgSpt p) (off + 4 * i) (bodyNum body (4 * i) 4)

/-- Enters CONFIGURING once IDENT and the CAL of every channel are accepted (spec/04 R136). -/
def State.attachDone (s : State) (p : Nat) : State :=
  let h := s.portH p
  if s.pstate p = 3 ∧ h.identOk ∧ (List.range h.nch).all (fun k => bit h.calMask k) then
    (s.enterP p 4).sendConfig p
  else s

/-- IDENT (spec/04 R131, R135, R136): the expected serial is checked at attach. -/
def identRec (p t : Nat) (r : OspRec) (s : State) : State :=
  let (go, s) := (s.upTo t).recvCheck p 0x05 true r
  if !go then s else
  let (ok, s) := s.police p (ospLen r)
  if !ok then s else
  let pg := pgSpt p
  let s := (s.window p 0x100 r.body 8).setB pg 0x09C 0
  let flags := bodyNum r.body 17 1
  let s := ((s.setB pg 0x06C 17 (bit flags 0)).setB pg 0x06C 18 (bit flags 1)).irq pg 22
  let want := s.rd64 pg 0x058
  if s.pstate p = 3 ∧ want ≠ 0 ∧ want ≠ bodyNum r.body 4 8 then s.enterP p 6 (some 2)
  else (s.setPort p { s.portH p with identOk := true, nch := min 4 (bodyNum r.body 16 1) }).attachDone p

/-- CAL of one node channel (spec/04 R132). An ARG of 4 or more is dropped without a count (DESIGN CHOICE, log entry 185). -/
def calRec (p t : Nat) (r : OspRec) (s : State) : State :=
  let (go, s) := (s.upTo t).recvCheck p 0x06 true r
  if !go then s else
  let (ok, s) := s.police p (ospLen r)
  if !ok then s else
  if 4 ≤ r.arg then s else
  let k := r.arg
  let s := ((s.window p (0x120 + 0x20 * k) r.body 8).setB (pgSpt p) 0x09C (1 + k)).irq (pgSpt p) 22
  let h := s.portH p
  (s.setPort p { h with calMask := setBit h.calMask k true }).attachDone p

/-- SELFTEST (spec/04 R134). -/
def selftestRec (p t : Nat) (r : OspRec) (s : State) : State :=
  let (go, s) := (s.upTo t).recvCheck p 0x07 true r
  if !go then s else
  let (ok, s) := s.police p (ospLen r)
  if !ok then s else
  ((s.window p 0x1A0 r.body 6).setB (pgSpt p) 0x09C 5).irq (pgSpt p) 23

/-- STATUS (spec/04 R133, R136): copied; its echo of CFG_GEN ends the old configuration and, with SYNC LOCKED, CONFIGURING. -/
def ospStatus (p t : Nat) (r : OspRec) (s : State) : State :=
  let (go, s) := (s.upTo t).recvCheck p 0x04 true r
  if !go then s else
  let (ok, s) := s.police p (ospLen r)
  if !ok then s else
  let pg := pgSpt p
  let old := (List.range 3).map fun i => s.rd pg (0x1C0 + 4 * i)
  let new := (List.range 3).map fun i => bodyNum r.body (4 * i) 4
  let changed := !s.getB pg 0x09C 6 || old != new
  let s := (s.window p 0x1C0 r.body 3).setB pg 0x09C 6
  let s := if changed then s.irq pg 24 else s
  let h := s.portH p
  let echo := r.arg == h.cfgGen && h.cfg.isSome
  let s := s.setPort p { h with statusT := t, acked := h.acked || echo, cfgPrev := if echo then none else h.cfgPrev }
  if s.pstate p = 4 ∧ echo ∧ s.syncState p = 2 then s.enterP p 5 else s

/-- FRAME_END (spec/04 R97, R101, R104, R107): a foreign frame is counted; else parsing ends where R104 says, a record whose LEN runs past the end being a CRC failure; a failed frame check sequence withdraws nothing. -/
def frameEnd (p t : Nat) (f : FrameEnd) (s : State) : State :=
  let s := s.upTo t
  let pg := pgSpt p
  if !s.getB pg 0x06C 21 then s else
  let length := f.payload.length + 18 + (if f.tagged then 4 else 0)
  let s := if foreignFrame (s.fld pg 0x040 31 16) (b2n (s.isNode p)) f.ethertype f.tagged length f.payload then s.bump pg 0x08C 31 16
    else if s.pstate p < 3 ∨ 5 < s.pstate p then s
    else
      let (e, s) := s.frameWalk p f.payload
      if e = 2 then s.sptErr p 0x080 31 16 1 19 else s
  let s := s.setPort p { s.portH p with rx := 0 }
  if f.fcsOk then s else s.bump pg 0x08C 15 0

/-- SPT_REQ (spec/04): the requests of one write, in bit order; no action outside STREAMING or in NODE role, counted. -/
def State.sptReq (s : State) (p v : Nat) : State :=
  if v = 0 then s
  else if s.pstate p ≠ 5 ∨ s.isNode p then s.clampCount (pgSpt p) 0x094 0
  else
    let q := bits v 2 0
    let s := if q = 0 then s else s.ospSend p 0x12 0 q []
    if bits v 15 8 = 0 then s else s.ospSend p 0x13 0 (bits v 15 8) []

/-- The sample payload of a port in bits per second were its channels configured as `cfg`; none when a group's record exceeds 1,496 bytes (spec/04 R115). -/
def portPayload (cfg : List ChCfg) : Option Nat :=
  let groups := (cfg.filter (·.en)).map (fun c => (c.rate, c.blog)) |>.eraseDups
  groups.foldl (fun acc g =>
    let m := (cfg.filter fun c => c.en && c.rate == g.1 && c.blog == g.2).length
    let len := roundUp (20 + 3 * m * 2 ^ g.2) 4
    match acc with
    | none => none
    | some a => if 1496 < len then none else some (a + 8 * len * fsOf g.1 / 2 ^ g.2)) (some 0)

def payloadFits (cfg : List ChCfg) : Bool := match portPayload cfg with
  | some x => decide (x ≤ 7600000)
  | none => false

/-- What SPT_CH_CFG of channel `k` takes for a written value (spec/04 R115, R142, R145, R146), after the fields' own clamps. -/
def State.chCfgClamp (s : State) (p k new : Nat) : Nat :=
  let cur := s.chCfg p k
  let node := s.isNode p
  let keepHi : Bool := bit cur 31
  -- fields frozen while EN = 1; in NODE role a CONFIG owns RATE and B_LOG
  let v := if keepHi then setBits (setBits new 30 12 (bits cur 30 12)) 11 10 (bits cur 11 10) else new
  let owned := node && (s.portH p).cfg.isSome
  let v := if owned then setBits v 19 12 (bits cur 19 12) else v
  if bit v 31 = false then
    let b := bits v 15 12
    if keepHi || owned then v else setBits v 15 12 (min b 8)
  else if keepHi then v
  else
    let dup := !node && (List.range 512).any fun q => !s.isNode q && (List.range 4).any fun j =>
      (q != p || j != k) && s.chEn q j && s.moduleCh q j == bits v 30 20
    let withB (b : Nat) : List ChCfg := setAt (s.cfgNow p) k ⟨true, bits v 19 16, b⟩
    let fits := (List.range 16).filter fun b => (portPayload (withB b)).isSome
    let top := fits.foldl max 0
    let b0 := min (bits v 15 12) top
    let b := (List.range 16).find? fun b => decide (b0 ≤ b) && payloadFits (withB b)
    match b with
    | some b => let v := if owned then v else setBits v 15 12 b; if dup then setBit v 31 false else v
    | none => setBit (if owned then v else setBits v 15 12 b0) 31 false

/-- After SPT_CH_CFG changed (spec/04 R136): a change of EN sends CONFIG in CONFIGURING and STREAMING; a channel taken out of service starts anew. -/
def State.chCfgWritten (s : State) (p k old : Nat) : State :=
  let new := s.chCfg p k
  if bit old 31 = bit new 31 then s else
  let s := if bit new 31 then s else s.setCh p k { s.ch p k with n := none, loss := [], stale := false, nodeN := none, nodeT := [] }
  if s.isNode p then s
  else if s.pstate p = 4 ∨ s.pstate p = 5 then s.sendConfig p else s

/-- SPT_CH_STAT of a channel (spec/04). -/
def State.chStat (s : State) (p k : Nat) : Nat :=
  let pg := pgSpt p
  let c := s.ch p k
  let seen := s.getB pg 0x09C 6
  let accept := bit (s.rd pg 0x1C0) k
  let st := if !s.chEn p k then 0 else if seen && (s.portH p).acked && !accept then 4 else if c.stale then 3 else if c.n.isSome then 2 else 1
  st * 2 ^ 29 + b2n (s.syncState p == 1) * 2 ^ 28 + b2n (seen && !bit (bits (s.rd pg 0x1C0) 15 8) k) * 2 ^ 27

/-! NODE role (spec/04 R140–R144). -/

/-- SYNC at a NODE-role port (spec/04 R109, R111, R142): session, epoch and offset are adopted, and the SYNC's own SEQ starts the received count, no SEQ_LOST (DESIGN CHOICE, log entry 183; R120); `t` is the delimiter's arrival, `tr` the reply's first byte. -/
def syncRec (p t tr : Nat) (r : OspRec) (s : State) : State :=
  let s := s.upTo t
  let pg := pgSpt p
  let sess := bodyNum r.body 24 4
  let fresh := s.isNode p && decide (3 ≤ s.pstate p) && decide (s.pstate p ≤ 5) && s.inFrame p r && ospCrc 0 0x10 r == r.crc && s.session p != sess
  let s := if fresh then
      ((s.wr pg 0x068 sess).wr pg 0x09C 0).setPort p { s.portH p with seqIn := r.seq % 65536, seqOut := 0, run := 0, good := 0, bad := 0, cfg := none, selfSent := false }
    else s
  let (go, s) := s.recvCheck p 0x10 false r
  if !go then s else
  let t1 := bodyNum r.body 0 8
  let epoch := bodyNum r.body 8 8
  let delay := bodyNum r.body 16 4
  let ofs := toS 32 (bodyNum r.body 20 4)
  let h := s.portH p
  let hostOfs : Int := (t : Int) - t1 - (delay / 16 : Nat)
  let est (x : Nat) : Nat := ((x : Int) - (if fresh then hostOfs else h.hostOfs)).toNat
  let none_ := bodyNum r.body 20 4 == 0x80000000
  let abs := ofs.natAbs
  let good := if !none_ ∧ abs ≤ 960 then h.good + 1 else 0
  let bad := if none_ ∨ 1200 < abs then h.bad + 1 else 0
  let s := s.setPort p { h with hostOfs := hostOfs, good := good, bad := bad }
  let s := (s.wr64 pg 0x060 ((epoch : Int) + hostOfs).toNat).wr pg 0x07C delay
  let s := s.wr pg 0x078 (bodyNum r.body 20 4)
  let s := if s.syncState p = 2 then (if 2 ≤ bad then s.setSync p 1 else s) else if 8 ≤ good then s.setSync p 2 else s
  s.ospSend p 0x03 (b2n (s.syncState p != 2)) r.arg (leBytes 8 (est t) ++ leBytes 8 (est tr))

/-- A node channel's configuration: RATE and B_LOG as the session's CONFIG gave them, else as SPT_CH_CFG has them. -/
def State.nodeCfg (s : State) (p : Nat) : List ChCfg :=
  (List.range 4).map fun k => match ((s.portH p).cfg.getD [])[k]? with
    | some c => ⟨s.chEn p k, c.rate, c.blog⟩
    | none => ⟨s.chEn p k, s.chRate p k, bits (s.chCfg p k) 15 12⟩

/-- Whether node channel `k` is accepted: EN is 1, and RATE and B_LOG are legal under R115: in range, the group's record within 1,496 bytes, and the payload of all such channels within the port's (spec/04 R141). -/
def State.nodeAccepts (s : State) (p k : Nat) : Bool :=
  let inRange := (s.nodeCfg p).filter fun c => c.en && decide (c.rate ≤ 8) && decide (c.blog ≤ 8)
  let legal := inRange.filter fun c => (portPayload (inRange.filter fun d => d.rate == c.rate && d.blog == c.blog)).isSome
  match (s.nodeCfg p)[k]? with
  | some c => legal.contains c && payloadFits legal
  | none => false

/-- ACCEPT and NODE_LOCK of a NODE-role port's STATUS (spec/04 R133, R141, R142): ACCEPT in bits 3:0, NODE_LOCK in bit 4. -/
def State.nodeNow (s : State) (p : Nat) : Nat :=
  (List.range 4).foldl (fun a k => if s.nodeAccepts p k then a + 2 ^ k else a) 0 + 16 * b2n (s.syncState p == 2)

/-- Sends STATUS from a NODE-role port: ACCEPT, NODE_LOCK and measured values the spec leaves open (spec/04 R133, R141). -/
def State.nodeStatusSend (s : State) (p : Nat) : State :=
  let (d, s) := s.draw
  let free := (Config.nodeStatus p d).toNat
  let body := s.nodeNow p
  let lock := body / 16
  let s := s.setPort p { s.portH p with nodeStatusT := s.now, nodeSent := body }
  s.ospSend p 0x04 (1 - lock) (s.portH p).nodeGen
    (leBytes 1 (body % 16) ++ leBytes 1 (free % 16) ++ leBytes 1 lock ++ leBytes 1 0 ++ leBytes 6 (free / 256) ++ leBytes 2 0)

/-- The first index of the record that a channel's group opens next: a multiple of B (spec/04 R114). -/
def State.nodeFirst (s : State) (p k : Nat) : Nat := roundUp (s.idxUpTo p (s.chRate p k) s.now) (s.chB p k)

/-- CONFIG at a NODE-role port (spec/04 R142): RATE and B_LOG of each channel follow the far host; the port streams and echoes CFG_GEN. An enabled channel whose configuration changes opens its records anew; one whose configuration stays goes on. -/
def configRec (p t : Nat) (r : OspRec) (s : State) : State :=
  let (go, s) := (s.upTo t).recvCheck p 0x11 false r
  if !go then s else
  let cfg : List ChCfg := (List.range 4).map fun k =>
    let b := bodyNum r.body (2 * k) 1
    ⟨bit b 7, bits b 3 0, bits (bodyNum r.body (2 * k + 1) 1) 3 0⟩
  let old := (s.portH p).cfg.getD []
  let s := s.setPort p { s.portH p with cfg := some cfg, nodeGen := r.arg }
  let s := s.each (List.range 4) fun s k => match cfg[k]? with
    | some c => (s.setFld (pgSpt p) (0x200 + 64 * k) 19 16 (min 8 c.rate)).setFld (pgSpt p) (0x200 + 64 * k) 15 12 c.blog
    | none => s
  let s := s.each (List.range 4) fun s k =>
    if s.chEn p k = false then s.setCh p k { s.ch p k with nodeN := none, nodeT := [] }
    else if (s.ch p k).nodeN.isSome ∧ old[k]? = cfg[k]? then s
    else s.setCh p k { s.ch p k with nodeN := some (s.nodeFirst p k), nodeT := [] }
  let s := if s.pstate p = 5 then s else (if s.pstate p = 3 then s.enterP p 4 else s).enterP p 5
  s.nodeStatusSend p

/-- The IDENT body of a NODE-role port (spec/04 R141); FW_VER is 0 (DESIGN CHOICE, log entry 184). -/
def State.nodeIdent (s : State) : List Byte :=
  leBytes 2 0x0F1A ++ leBytes 2 0x5120 ++ leBytes 8 (s.rd64 (pgBcp 0) 0x040) ++ leBytes 2 (s.rd (pgBcp 0) 0x048) ++ leBytes 2 0 ++
  leBytes 1 4 ++ leBytes 1 2 ++ leBytes 2 0x01FF ++ leBytes 1 8 ++ leBytes 1 0 ++ leBytes 2 2000 ++ leBytes 4 0x05050505 ++ leBytes 2 0 ++ leBytes 2 0

/-- The CAL body of a NODE-role channel: SENS 1.0, everything else zero, FLO and FHI with it (DESIGN CHOICE, log entry 186; spec/04 R141). -/
def nodeCalBody : List Byte := leBytes 4 0x3F800000 ++ leBytes 28 0

/-- The SELFTEST body of a NODE-role port (spec/04 R134): the RESULT codes are 1 to 4; which, the maker's code and the biases are open. -/
def selftestBody (id f : Nat) : List Byte :=
  leBytes 1 id ++ leBytes 1 (f % 4 + 1) ++ leBytes 2 (f / 4) ++ ((List.range 4).flatMap fun k => leBytes 1 (f / 2 ^ (18 + 2 * k) % 4 + 1)) ++ leBytes 16 (f / 2 ^ 26)

/-- Sends SELFTEST for a test of a NODE-role port. -/
def State.selftestSend (s : State) (p id : Nat) : State :=
  let (d, s) := s.draw
  s.ospSend p 0x07 (b2n (s.syncState p != 2)) 0 (selftestBody id (Config.nodeSelftest p id d).toNat)

/-- QUERY at a NODE-role port (spec/04 R106, R135, R141): IDENT, after the first at attach the self-test record with TEST_ID 0x00, CAL per channel, STATUS. -/
def queryRec (p t : Nat) (r : OspRec) (s : State) : State :=
  let (go, s) := (s.upTo t).recvCheck p 0x12 false r
  if !go then s else
  let fl := b2n (s.syncState p != 2)
  let s := if bit r.arg 0 then
      let s := s.ospSend p 0x05 fl 0 s.nodeIdent
      if (s.portH p).selfSent then s else (s.setPort p { s.portH p with selfSent := true }).selftestSend p 0
    else s
  let s := if bit r.arg 1 then s.each (List.range 4) fun s k => s.ospSend p 0x06 fl k nodeCalBody else s
  if bit r.arg 2 then s.nodeStatusSend p else s

/-- TEST at a NODE-role port (spec/04 R134): test 0x02 runs for an open time and its SELFTEST record ends it; every other test ends at once. -/
def testRec (p t : Nat) (r : OspRec) (s : State) : State :=
  let (go, s) := (s.upTo t).recvCheck p 0x13 false r
  if !go then s else
  let id := bits r.arg 7 0
  if id = 2 then
    let (d, s) := s.draw
    s.setPort p { s.portH p with test := some (id, s.now + Config.nodeTestTime p d) }
  else s.selftestSend p id

/-- A running test that has reached its end sends SELFTEST (spec/04 R134). -/
def State.testDue (s : State) (p : Nat) : State :=
  match (s.portH p).test with
  | some (id, e) => if e ≤ s.now then (s.setPort p { s.portH p with test := none }).selftestSend p id else s
  | none => s

/-- The value of a generated sample (spec/04 R144); the sine's error of at most one count is open. -/
def State.genValue (s : State) (p k n : Nat) : Nat :=
  let pg := pgSpt p
  let o := 0x200 + 64 * k
  let freq := fToRat (s.rd pg (o + 0x18))
  let rate := s.chRate p k
  let ph : Rat := (s.rd pg (o + 0x24) : Rat) / 2 ^ 32 + freq * (n : Rat) / (fsOf rate : Nat)
  let fr := ph - ph.floor
  let f64 := (fr * 2 ^ 64).floor.toNat % 2 ^ 64
  let amp := s.rd pg (o + 0x1C)
  let w := s.fld pg o 9 8
  let add : Int :=
    if w = 0 then ((amp : Int) * sineScaled f64 + 2 ^ 61) / 2 ^ 62 + ((Config.sineError amp f64).val : Int) - 1
    else if w = 1 then (if f64 < 2 ^ 63 then amp else -(amp : Int)) else 0
  ofS 24 (max (-8388607) (min 8388607 (toS 32 (s.rd pg (o + 0x20)) + add)))

/-- The node channels whose records go out with those of channel `k` (spec/04 R114, R141): accepted, configured alike by the far host. -/
def State.nodeGroup (s : State) (p k : Nat) : List Nat :=
  let cfg := (s.portH p).cfg.getD []
  (List.range 4).filter fun j => s.nodeAccepts p j && (match cfg[k]?, cfg[j]? with
    | some a, some c => c.en && c.rate == a.rate && c.blog == a.blog
    | _, _ => false)

/-- What the indices of a channel's open record hold, as (value, marks, gap count, gap cause); none when a buffered sample is missing (spec/04 R144). -/
def State.nodeRow (s : State) (p k first b : Nat) : Option (List (Nat × Nat × Nat × Nat)) :=
  if s.fld (pgSpt p) (0x200 + 64 * k) 11 10 = 1 then some ((List.range b).map fun i => (s.genValue p k (first + i), 0, 0, 0))
  else if (s.ch p k).nodeT.length < b then none else some ((s.ch p k).nodeT.take b)

/-- NODE_EMISSION (spec/04 R114, R116, R144, spec/05 R165): the group of node channel `k` sends its next record. A sample missing at its emission replaces the record by a GAP record of cause 0x01; a gap cell or a poisoned sample sends a GAP record of its own, for its channel, before the record. -/
def nodeEmission (p k t : Nat) (s : State) : State :=
  let s := (s.upTo t).testDue p
  if s.isNode p = false ∨ s.pstate p ≠ 5 ∨ (s.nodeGroup p k).contains k = false then s else
  let ks := s.nodeGroup p k
  let pg := pgSpt p
  let rate := s.chRate p k
  let b := s.chB p k
  match (ks.filterMap fun j => (s.ch p j).nodeN).min? with
  | none => s.each ks fun s j => s.setCh p j { s.ch p j with nodeN := some (s.nodeFirst p j), nodeT := [] }
  | some first =>
    if s.idxUpTo p rate s.now < first + b then s else
    let s := s.each ks fun s j => (s.setCh p j { s.ch p j with nodeN := some first }).nodeDrain p j
    let rows := ks.map fun j => (j, s.nodeRow p j first b)
    let mask := ks.foldl (fun a j => a + 2 ^ j) 0
    let unl := b2n (s.syncState p != 2)
    let test := 2 * b2n (s.portH p).test.isSome
    -- a gap cell's own GAP record, from the index that takes it
    let gaps := ks.map fun j => (j, if s.fld pg (0x200 + 64 * j) 11 10 = 1 then [] else (s.ch p j).nodeT)
    let s := s.each ks fun s j => s.setCh p j { s.ch p j with nodeN := some (first + b), nodeT := [] }
    let s := s.each gaps fun s q => s.each q.2.zipIdx fun s v =>
      if v.1.2.2.1 = 0 then s
      else s.ospSend p 0x02 (unl ||| test ||| v.1.2.1 % 4) (2 ^ q.1 + 256 * v.1.2.2.2) (leBytes 6 (first + v.2) ++ leBytes 2 0 ++ leBytes 4 v.1.2.2.1)
    if rows.any fun q => q.2.isNone then
      s.ospSend p 0x02 (unl ||| test) (mask + 256 * 0x01) (leBytes 6 first ++ leBytes 2 0 ++ leBytes 4 b)
    else
      let rows := rows.map fun q => (q.1, q.2.getD [])
      if rows.all fun q => q.2.all fun v => v.2.2.2 != 0 then s else
      let flags := rows.foldl (fun a q => q.2.foldl (fun a v => if v.2.2.2 = 0 then a ||| v.2.1 % 4 else a) a) (unl ||| test)
      let ovr := rows.foldl (fun a q => if q.2.any fun v => v.2.2.2 == 0 && bit v.2.1 2 then a + 2 ^ q.1 else a) 0
      let data := (List.range b).flatMap fun i => rows.flatMap fun q => leBytes 3 (q.2.getD i (0, 0, 0, 0)).1
      let pad := (4 - data.length % 4) % 4
      s.ospSend p 0x01 flags (mask + 16 * rate) (leBytes 6 first ++ leBytes 1 ovr ++ leBytes 1 0 ++ data ++ leBytes pad 0)

/-- NODE_ROLE_STATUS (spec/04 R106): every 100 ms ± 10 ms, and when ACCEPT or NODE_LOCK has changed. -/
def nodeRoleStatus (p t : Nat) (s : State) : State :=
  let s := (s.upTo t).testDue p
  if s.isNode p ∧ 3 ≤ s.pstate p ∧ s.pstate p ≤ 5 ∧ ((s.portH p).nodeStatusT + 90 * cyclesPerMs ≤ t ∨ s.nodeNow p ≠ (s.portH p).nodeSent) then s.nodeStatusSend p else s

end Sys2Proof.Machine
end

