-- ==== Sys2Proof/Machine/ArsBase.lean ====
section
/-! DEFINITION. The records of the Angle Resampler, its ring geometry and gap values, which its readers share (spec/06). -/

namespace Sys2Proof.Machine

def State.inH (s : State) (c i : Nat) : InH := sget (fun _ => {}) s.arsIn (256 * c + i)
def State.setIn (s : State) (c i : Nat) (h : InH) : State := { s with arsIn := sput (fun _ => {}) (256 * c + i) h s.arsIn }
def State.viewH (s : State) (c v : Nat) : ViewH := sget (fun _ => {}) s.arsView (512 * c + v)
def State.setView (s : State) (c v : Nat) (h : ViewH) : State := { s with arsView := sput (fun _ => {}) (512 * c + v) h s.arsView }
def State.arsH (s : State) (c : Nat) : ArsH := sget (fun _ => {}) s.ars c
def State.setArs (s : State) (c : Nat) (h : ArsH) : State := { s with ars := sput (fun _ => {}) c h s.ars }

/-- The lists of a cluster's enabled inputs and views. -/
def State.insOf (s : State) (c : Nat) : List Nat :=
  (s.arsIn.filter fun q => decide (q.1 / 256 = c) && q.2.on).map fun q => q.1 % 256
def State.viewsOf (s : State) (c : Nat) : List Nat :=
  (s.arsView.filter fun q => decide (q.1 / 512 = c) && q.2.on).map fun q => q.1 % 512

/-- Grid step in TPOS counts, samples in a block, lines of a slot, ring bytes (spec/06 R176, R187). -/
def ViewH.step (h : ViewH) : Nat := if h.grid then h.stepCfg else 2 ^ (32 - h.nlog)
def ViewH.len (h : ViewH) : Nat := 2 ^ h.nlog
def ViewH.slotBytes (h : ViewH) : Nat := (1 + (4 * h.len + 63) / 64) * 64
def ViewH.slotAddr (h : ViewH) (c x : Nat) : Nat := clusterBase c + h.ring + 64 + (x % 2 ^ h.ringLog) * h.slotBytes
def InH.ringBytes (h : InH) : Nat := (2 ^ h.size + 2) * 64
def InH.histBytes (h : InH) : Nat := (h.dmax + 1) * 2 ^ h.histLog * 4

/-- Puts 32 bits in one half of a 64-bit word: the low half sets the word's poison anew, the high half adds its own. -/
def State.put32 (s : State) (a v : Nat) (p : Bool) : State :=
  if a % 8 = 0 then s.wrMem a 8 (v % 2 ^ 32 + 2 ^ 32 * (s.rawLane a / 2 ^ 32)) p else s.wrMem a 4 v p

/-- The gap value of a code (spec/06 R191). -/
def gapValue (code : Nat) : Nat := 0x7FC00000 + code

/-- The gap values: the codes of spec/06 R191. -/
def isGapValue (v : Nat) : Bool :=
  decide (gapValue 0 ≤ v ∧ v ≤ gapValue 7) || decide (gapValue 0x10 ≤ v ∧ v ≤ gapValue 0x13)

/-- The code a tap's NaN stands for: a gap value's own, 0 for any other NaN. -/
def tapCode (v : Nat) : Option Nat :=
  if !fIsNaN v then none else if v / 32 = gapValue 0 / 32 then some (v % 32) else some 0

/-- Whether a poisoned descriptor word leaves the item OFF (spec/15 R441); counted on the page. -/
def State.descRead (s : State) (page a n : Nat) : (Nat × Bool) × State :=
  let ((v, p), s) := s.rdMem a n
  ((v, p), if p then s.errPoison page else s)

/-- A binary32 field held to a range; NaN takes the low end (spec/06, VIEW_RATE_MAX). -/
def fClampRange (lo hi v : Nat) : Nat :=
  if fIsNaN v then lo else if fLt v lo then lo else if fLt hi v then hi else v

/-- An offset clamped down to a multiple of 64, then down until `n` bytes fit in the cluster memory. -/
def fitOffset (v n : Nat) : Nat := min (v % 2 ^ 23 / 64 * 64) ((0x800000 - n) / 64 * 64)

/-- Samples and headers of a view's blocks from `first`, `n` blocks, with the poison of each of a header's eight words as a mask. -/
def State.readBlocks (s : State) (c : Nat) (h : ViewH) (first : Nat) : Nat → List (Nat × Nat × List (Nat × Bool)) × State
  | 0 => ([], s)
  | n + 1 =>
    let (ls, s) := s.rdLanes (8 + h.len / 2) (h.slotAddr c first) none
    let hd := (ls.take 8).foldr (fun q acc => q.1 % 2 ^ 64 + 2 ^ 64 * acc) 0
    let xs := (ls.drop 8).flatMap fun q => [(q.1 % 2 ^ 32, q.2), (q.1 / 2 ^ 32 % 2 ^ 32, q.2)]
    let (rest, s) := s.readBlocks c h (first + 1) n
    ((hd, (ls.take 8).zipIdx.foldl (fun m q => if q.1.2 then m + 2 ^ q.2 else m) 0, xs.take h.len) :: rest, s)

/-- TQ_ALL over several blocks (spec/07 R217). -/
def tqAllOf (l : List Nat) : Nat := l.foldl (fun a q => ((a ||| q) / 8 * 8) + max (a % 8) (q % 8)) 0

end Sys2Proof.Machine
end

