-- ==== Sys2Proof/Machine/Tracks.lean ====
section
/-! DEFINITION. Track inputs, the track estimator, its broadcast and the track states (spec/03 R58–R85). -/

namespace Sys2Proof.Machine

def State.trkInH (s : State) (n : Nat) : TrkInH := sget (fun _ => {}) s.trkIn n
def State.setTrkIn (s : State) (n : Nat) (h : TrkInH) : State := { s with trkIn := sput (fun _ => {}) n h s.trkIn }
def State.trkH (s : State) (k : Nat) : TrkH := sget (fun _ => {}) s.trk k
def State.setTrk (s : State) (k : Nat) (h : TrkH) : State := { s with trk := sput (fun _ => {}) k h s.trk }

/-- Fields of TRK_CFG (spec/03). -/
def State.trkKind (s : State) (k : Nat) : Nat := s.fld (pgTrk k) 0x040 30 28
def State.trkMode (s : State) (k : Nat) : Nat := s.fld (pgTrk k) 0x040 27 26
def State.trkZen (s : State) (k : Nat) : Bool := s.getB (pgTrk k) 0x040 25
def State.trkInv (s : State) (k : Nat) : Bool := s.getB (pgTrk k) 0x040 24
def State.trkParent (s : State) (k : Nat) : Nat := s.fld (pgTrk k) 0x040 23 18
def State.trkZin (s : State) (k : Nat) : Nat := s.fld (pgTrk k) 0x040 17 12
def State.trkBin (s : State) (k : Nat) : Nat := s.fld (pgTrk k) 0x040 11 6
def State.trkAin (s : State) (k : Nat) : Nat := s.fld (pgTrk k) 0x040 5 0

/-- Whether the track counts edges: MEASURED, LINEAR or COUNT (spec/03 R63). -/
def State.trkCounts (s : State) (k : Nat) : Bool := s.trkKind k == 1 || s.trkKind k == 3 || s.trkKind k == 6

/-- The length of one count in turns: 1/SCALE, a quarter of that in quadrature (spec/03 R65). -/
def State.trkStep (s : State) (k : Nat) : Rat :=
  let u : Rat := (4096 : Rat) / (s.rd (pgTrk k) 0x044 : Rat)
  if s.trkMode k = 1 then u / 4 else u

/-- P / Q of a track (spec/03 R67). -/
def State.trkRatio (s : State) (k : Nat) : Rat :=
  (toS 32 (s.rd (pgTrk k) 0x048) : Rat) / (s.rd (pgTrk k) 0x04C : Rat)

/-- Seconds in `n` cycles. -/
def secs (n : Int) : Rat := (n : Rat) / 3000000000

/-- Least squares of a quadratic over a window of (stamp, position), newest first, about its newest stamp: position, rate and acceleration there; with two counts a line, with one a constant (spec/03 R69). -/
def quadFit (win : List (Nat × Rat)) : Rat × Rat × Rat :=
  match win with
  | [] => (0, 0, 0)
  | (t0, y0) :: rest =>
    let pts := win.map fun q => (secs ((q.1 : Int) - t0), q.2 - y0)
    let n : Rat := (pts.length : Rat)
    let sm (f : Rat × Rat → Rat) : Rat := pts.foldl (fun a q => a + f q) 0
    let s1 := sm (·.1); let s2 := sm fun q => q.1 * q.1; let s3 := sm fun q => q.1 * q.1 * q.1
    let s4 := sm fun q => q.1 * q.1 * q.1 * q.1
    let b0 := sm (·.2); let b1 := sm fun q => q.1 * q.2; let b2 := sm fun q => q.1 * q.1 * q.2
    let det3 := n * (s2 * s4 - s3 * s3) - s1 * (s1 * s4 - s3 * s2) + s2 * (s1 * s3 - s2 * s2)
    let det2 := n * s2 - s1 * s1
    if 3 ≤ pts.length ∧ det3 ≠ 0 then
      let c0 := b0 * (s2 * s4 - s3 * s3) - s1 * (b1 * s4 - s3 * b2) + s2 * (b1 * s3 - s2 * b2)
      let c1 := n * (b1 * s4 - s3 * b2) - b0 * (s1 * s4 - s3 * s2) + s2 * (s1 * b2 - b1 * s2)
      let c2 := n * (s2 * b2 - b1 * s3) - s1 * (s1 * b2 - b1 * s2) + b0 * (s1 * s3 - s2 * s2)
      (y0 + c0 / det3, c1 / det3, 2 * c2 / det3)
    else if rest ≠ [] ∧ det2 ≠ 0 then
      let c0 := (b0 * s2 - s1 * b1) / det2
      let c1 := (n * b1 - s1 * b0) / det2
      (y0 + c0, c1, 0)
    else (y0, 0, 0)

/-- The extrapolated rate `dt` seconds after a fit. -/
def rateAt (r a j dt : Rat) : Rat := r + a * dt + j * dt * dt / 2

def posAt (p r a j dt : Rat) : Rat := p + r * dt + a * dt * dt / 2 + j * dt * dt * dt / 6

/-- The least cycle count in (lo, hi] at which the rate no longer has the sign of `r`, by halving, given that it has not at `hi`. -/
def crossGo (r a j : Rat) : Nat → Nat → Nat → Nat
  | 0, _, hi => hi
  | fuel + 1, lo, hi =>
    if hi ≤ lo + 1 then hi
    else
      let mid := (lo + hi) / 2
      if rateAt r a j (secs mid) * r ≤ 0 then crossGo r a j fuel lo mid else crossGo r a j fuel mid hi

/-- The first cycle, at most `n` after the fit, at which the rate reaches or passes zero (spec/03 R76). -/
def rateZero (r a j : Rat) (n : Nat) : Option Nat :=
  if r = 0 then (if a = 0 ∧ j = 0 then none else some 0)
  else if rateAt r a j (secs n) * r ≤ 0 then some (crossGo r a j 64 0 n)
  else if j ≠ 0 ∧ 0 < -a / j then
    let v := min n ((-a / j * 3000000000).floor.toNat)
    if rateAt r a j (secs v) * r ≤ 0 then some (crossGo r a j 64 0 v) else none
  else none

/-- Position and rate, acceleration and jerk of a track at a cycle from its fit; a COASTING track never lets its rate pass through zero (spec/03 R72, R76). -/
def TrkH.eval (h : TrkH) (hold : Bool) (t : Nat) : Rat × Rat × Rat × Rat :=
  match h.st, h.fit with
  | .locked, some (t0, p, r, a) =>
    let j := fToRat h.jerk; let dt := secs ((t : Int) - t0)
    (if hold then h.pos else posAt p r a j dt, rateAt r a j dt, a + j * dt, j)
  | .coasting, some (t0, p, r, a) =>
    let j := fToRat h.jerk
    match rateZero r a j (t - t0) with
    | some z => (if hold then h.pos else posAt p r a j (secs z), 0, 0, 0)
    | none =>
      let dt := secs ((t : Int) - t0)
      (if hold then h.pos else posAt p r a j dt, rateAt r a j dt, a + j * dt, j)
  | _, _ => (h.pos, 0, 0, 0)

/-- Whether a COASTING track stands where its rate reached zero (spec/03 R76). -/
def TrkH.held (h : TrkH) (t : Nat) : Bool :=
  match h.st, h.fit with
  | .coasting, some (t0, _, r, a) => (rateZero r a (fToRat h.jerk) (t - t0)).isSome
  | _, _ => false

/-- The internal position of a track at a cycle, in turns before TRK_OFFSET. -/
def State.trkPos (s : State) (k t : Nat) : Rat := ((s.trkH k).eval (s.trkKind k == 6) t).1

/-- Enters a state: TQ.SAT clears, entering COASTING or leaving LOCKED raises bit 16, entries to COASTING and LOST are counted (spec/03 R74, R77). -/
def State.trkEnter (s : State) (k : Nat) (st : TState) : State :=
  let h := s.trkH k
  let s := s.setTrk k { h with st := st, sat := if st = h.st then h.sat else false }
  let s := if (st = .coasting ∧ h.st ≠ .coasting) ∨ (h.st = .locked ∧ st ≠ .locked) then s.irq (pgTrk k) 16 else s
  let s := if st = .coasting ∧ h.st ≠ .coasting then s.bump (pgTrk k) 0x098 15 0 else s
  if st = .lost ∧ h.st ≠ .lost then s.bump (pgTrk k) 0x098 31 16 else s

/-- A value between the least and the greatest of a list, `f` of 2^32 of the way: what a low-pass filter of its members can give. -/
def between (l : List Rat) (f : Nat) : Rat :=
  let lo := l.foldl min (l.headD 0); let hi := l.foldl max (l.headD 0)
  lo + (hi - lo) * (f : Rat) / 4294967296

/-- Whether the counts of a window lie on their fit to within 1 ns rms of stamp: what R73 asks of the input edges when the acceleration is constant over the window. -/
def fitClose (win : List (Nat × Rat)) (t0 : Nat) (p r a : Rat) : Bool :=
  let e := win.foldl (fun (x : Rat) q => let d := q.2 - posAt p r a 0 (secs ((q.1 : Int) - t0)); x + d * d) 0
  decide (e * 1000000000 * 1000000000 ≤ r * r * (win.length : Nat))

/-- The jerk that moves a position by 2^-21 turn in the 88 cycles of R73. -/
def jerkSmall : Rat := 6 / (2 : Rat) ^ 21 / (secs 88 * secs 88 * secs 88)

/-- Refits over the window: its newest 2^FIT counts. Jerk is the change of the fitted acceleration between successive fits, low-pass filtered over the window: where it lies between that window's changes is drawn, since the spec names the filter only. Over a filled window that lies on its fit it stays too small to break the bound of R73, whatever changes of earlier windows the filter still holds (DESIGN CHOICE, log entry 11; spec/03 R69, R73). -/
def State.trkRefit (s : State) (k : Nat) : State :=
  let h := s.trkH k
  let win := h.win.take (2 ^ bits h.lossR 11 8)
  match win with
  | [] => s
  | (t0, y) :: _ =>
    let (p, r, a) := quadFit win
    let jerks := match h.fit with
      | none => []
      | some q => (((a - h.prevAccel) / secs ((t0 : Int) - q.1)) :: h.jerks).take (2 ^ bits h.lossR 11 8)
    let (d, s) := s.draw
    let v := between jerks (Config.trackJerk k d).toNat
    let v := if win.length = 2 ^ bits h.lossR 11 8 ∧ fitClose win t0 p r a = true then max (-jerkSmall) (min jerkSmall v) else v
    let jerk := if jerks.all (· == 0) then 0 else fOfRat v
    s.setTrk k { h with win := win, fit := some (t0, p, r, a), prevAccel := a, jerks := jerks, jerk := jerk, pos := y }

/-- The least position at or after `p` whose fraction is `f`. -/
def forwardTo (p f : Rat) : Rat :=
  let d := f - (p - p.floor)
  if d < 0 then p + d + 1 else p + d

/-- The position nearest to `p` whose fraction is `f`. -/
def nearTo (p f : Rat) : Rat :=
  let d := f - (p - p.floor)
  if 1 / 2 < d then p + d - 1 else if d < -1 / 2 then p + d + 1 else p + d

/-- The position a reference edge takes: the next forward, or the nearest (log entry 15). -/
def refPos (fwd : Bool) (p f : Rat) : Rat := if fwd then forwardTo p f else nearTo p f

/-- The position on a window's counts at stamp `z`: of the quadratic through the 2^`fit` counts about it (spec/03 R66, R69). -/
def posInWin (win : List (Nat × Rat)) (fit z : Nat) : Rat :=
  let newer := (win.takeWhile fun q => decide (z ≤ q.1)).length
  let w := (win.drop (min (newer - 2 ^ fit / 2) (win.length - 2 ^ fit))).take (2 ^ fit)
  let (p, r, a) := quadFit w
  posAt p r a 0 (secs ((z : Int) - (w.headD (0, 0)).1))

/-- Whether every input that carries a track's counts has its page READY (spec/03 R62). -/
def State.trkInsReady (s : State) (k : Nat) : Bool :=
  s.ready (pgTrkIn (s.trkAin k)) && (s.trkMode k != 1 || s.ready (pgTrkIn (s.trkBin k)))

/-- Records a correction by `d` at position `x` (spec/03 R74, R75, R77): a non-zero one sets TRK_JUMP, TQ.JUMP and bit 17. The window moves with the position. -/
def State.trkCorrect (s : State) (k : Nat) (x d : Rat) : State :=
  let h := s.trkH k
  if d = 0 then s else
  let s := s.setTrk k { h with win := h.win.map fun q => (q.1, q.2 + d), pos := h.pos + d, jumpAt := some (x + d), jump := tposOf d }
  s.irq (pgTrk k) 17

/-- Advances a track by one count event: `d` turns at `stamp`, `n` counts, `ref` when this count is a reference edge (spec/03 R66, R75). The count that takes LOST or STOPPED to ACQUIRING is none of the four since entering (log entry 143). A COASTING COUNT track adds its count's turns to the position it holds (DESIGN CHOICE, log entry 178); a transfer of `n` edges is `n` of the four counts of the lock test (DESIGN CHOICE, log entry 179). -/
def State.trkCount (s : State) (k stamp n : Nat) (d : Rat) (ref : Bool) : State :=
  let h := s.trkH k
  let intv := h.lastStamp.map fun l => stamp - l
  let since := if ref then some 0 else h.sinceRef.map (· + d)
  let h1 := { h with lastStamp := some stamp, lastIntv := intv, sinceRef := since }
  match h.st with
  | .off => s.setTrk k h1
  | .acquiring =>
    let acq := h.acq + n
    let near : Bool := match intv, h.lastIntv with
      | some i, some j => decide (4 * ((i : Int) - j).natAbs ≤ j)
      | _, _ => false
    let rel := match h.win with
      | [] => (0 : Rat)
      | q :: _ => q.2 + d
    let win := (stamp, rel) :: h.win
    if 4 ≤ acq ∧ near ∧ s.trkInsReady k = true then
      let since := match h.zStamp with
        | some z => some (rel - posInWin win (bits h.lossR 11 8) z)
        | none => since
      let p := match since with
        | some f => forwardTo h.pos (f - f.floor)
        | none => h.pos
      let hasRef := s.trkMode k == 2 || s.trkZen k
      let s := s.setTrk k { h1 with win := win.map (fun q => (q.1, q.2 + (p - rel))), pos := p, acq := 0, fit := none, zStamp := none,
                                     wantRef := if hasRef && since.isNone then some true else none }
      (s.trkEnter k .locked).trkRefit k
    else s.setTrk k { h1 with acq := acq, win := win }
  | .locked =>
    let p := h.pos + d
    let s := s.setTrk k { h1 with win := (stamp, p) :: h.win, pos := p }
    let s := match (if ref then h.wantRef else none) with
      | some fwd => (s.setTrk k { s.trkH k with wantRef := none }).trkCorrect k p (refPos fwd p 0 - p)
      | none => s
    s.trkRefit k
  | .coasting =>
    let x := (h.eval (s.trkKind k == 6) stamp).1
    let x := if s.trkKind k = 6 then h.pos + d else x
    let s := s.setTrk k { h1 with win := (stamp, x) :: h.win, pos := x, wantRef := none }
    let s := s.trkEnter k .locked
    let hasRef := s.trkMode k == 2 || s.trkZen k
    let s := if ref then s.trkCorrect k x (refPos false x 0 - x)
      else if hasRef then s.setTrk k { s.trkH k with wantRef := some false, sinceRef := none } else s
    s.trkRefit k
  | .lost | .stopped =>
    let s := s.setTrk k { h1 with win := [], fit := none, acq := 0, jerk := 0, jerks := [], sinceRef := if ref then some 0 else none, zStamp := none }
    s.trkEnter k .acquiring

/-- The event Saturated count at a track (spec/03 R75). -/
def State.trkSaturated (s : State) (k : Nat) : State :=
  let h := s.trkH k
  match h.st with
  | .off => s
  | .locked =>
    let now := s.now
    let p := s.trkPos k now
    let s := s.trkEnter k .coasting
    s.setTrk k { s.trkH k with sat := true, coastT := now, coastPos := p }
  | .acquiring => s.setTrk k { h with sat := true, win := [], fit := none, acq := 0, lastStamp := none, lastIntv := none, sinceRef := none, zStamp := none }
  | _ => s.setTrk k { h with sat := true }

/-- The tracks that use an input as their A input, their B input in quadrature or their zero reference. -/
def State.trkUses (s : State) (k n : Nat) : Bool :=
  s.trkCounts k && (s.trkAin k == n || (s.trkMode k == 1 && s.trkBin k == n) || (s.trkZen k && s.trkZin k == n))

/-- Whether any track decodes input `n` in quadrature, which makes both its directions qualified (spec/03 R61, R65). An OFF track's MODE counts too (DESIGN CHOICE, log entry 175). -/
def State.quadUses (s : State) (n : Nat) : Bool :=
  (List.range 64).any fun k => k != 0 && s.trkCounts k && s.trkMode k == 1 && (s.trkAin k == n || s.trkBin k == n)

/-- The quadrature counts that wait to cross with input `n`'s count go with it. -/
def State.quadClear (s : State) (n : Nat) : State :=
  s.each ((List.range 64).filter fun k => s.trkCounts k && s.trkMode k == 1 && (s.trkAin k == n || s.trkBin k == n)) fun s k =>
    let h := s.trkH k
    s.setTrk k { h with quadA := if s.trkAin k = n then 0 else h.quadA, quadB := if s.trkBin k = n then 0 else h.quadB }

/-- The count of input `n` reaches 4,095: SAT, bit 16, and every track that uses it takes Saturated count (spec/03 R60). -/
def State.inputFull (s : State) (n : Nat) : State :=
  ((s.raise (pgTrkIn n) 0x05C 1).irq (pgTrkIn n) 16).each (List.range 64) fun s k => if k != 0 && s.trkUses k n then s.trkSaturated k else s

/-- QUALIFIED_EDGE (spec/03 R59–R61): an edge of input `n` that passed threshold and deglitch, with its stamp and direction. -/
def qualifiedEdge (n stamp : Nat) (rising : Bool) (s : State) : State :=
  let p := pgTrkIn n
  let s := s.upTo stamp
  let s := s.setB p 0x05C 0 rising
  let h := s.trkInH n
  let s := s.setTrkIn n { h with level := rising }
  if !s.ready p then s else
  let edge := s.fld p 0x040 3 2
  let quad := s.quadUses n
  if !(quad || edge == 2 || (edge == 0 && rising) || (edge == 1 && !rising)) then s else
  let isOver := match h.lastEdge with
    | some (t, r) => decide (stamp - t < 570) || (r == rising && decide (stamp - t < 1425))
    | none => false
  let s := if isOver then (s.raise p 0x05C 2).irq p 17 else s
  -- quadrature decoding: the sign follows the phase order; which order counts up is open. An edge beyond saturation is lost
  let up : Int := if Config.aLeadsUp then 1 else -1
  let s := if h.pend = 4095 then s else s.each (List.range 64) fun s k =>
    if k != 0 && s.trkCounts k && s.trkMode k == 1 then
      let hk := s.trkH k
      let la := (s.trkInH (s.trkAin k)).level; let lb := (s.trkInH (s.trkBin k)).level
      if s.trkAin k = n then s.setTrk k { hk with quadA := hk.quadA + (if la != lb then up else -up) }
      else if s.trkBin k = n then s.setTrk k { hk with quadB := hk.quadB + (if la == lb then up else -up) }
      else s
    else s
  let h := s.trkInH n
  let pend := min 4095 (h.pend + 1)
  let newSat := pend == 4095 && !h.satur
  let s := s.setTrkIn n { h with pend := pend, pendStamp := if h.pend = 4095 then h.pendStamp else stamp, lastEdge := some (stamp, rising), satur := pend == 4095 }
  if newSat then
    -- the count lane's SAT on its crossing page (spec/18 R495)
    let s := if s.enabled (pgXng 2) then (s.bump (pgXng 2) 0x048 15 8).irq (pgXng 2) 18 else s
    s.inputFull n
  else s

/-- What one transfer of `m` edges of input `n` does to track `k` (spec/03 R65, R66, R75). -/
def State.trkTransfer (s : State) (k n m stamp : Nat) (satur : Bool) : State :=
  let sign : Int := if s.trkInv k then -1 else 1
  let u := s.trkStep k
  let zRef := s.trkZen k && s.trkZin k == n
  let h := s.trkH k
  let isA := s.trkAin k == n
  let isB := s.trkMode k == 1 && s.trkBin k == n
  -- in quadrature a transfer carries its own input's counts alone
  let q : Int := (if isA then h.quadA else 0) + (if isB then h.quadB else 0)
  let h' : TrkH := { h with quadA := if isA then 0 else h.quadA, quadB := if isB then 0 else h.quadB }
  if satur then
    -- a COUNT track advances by the count carried in every state of the table, though R89 says that some hold the position (DESIGN CHOICE, log entry 177); nothing is fitted
    if s.trkKind k = 6 ∧ (isA ∨ isB) then s.setTrk k { h' with pos := h.pos + (sign * (if s.trkMode k = 1 then q else (m : Int)) : Rat) * u }
    else s.setTrk k h'
  else
    let s :=
      if s.trkMode k = 1 then
        if isA || isB then
          (s.setTrk k h').trkCount k stamp m ((sign * q : Rat) * u) false
        else s
      else if !isA then s
      else if s.trkMode k = 2 then
        let intv := h.lastStamp.map fun l => stamp - l
        let prev := h.teeth.take 4
        let mean : Rat := ((prev.foldl (· + ·) 0 : Nat) : Rat) / 4
        match intv with
        | some i =>
          -- a transfer of several edges shows no tooth interval of its own: it spans `m` of them and marks no gap (log entry 144)
          if 1 < m then
            (s.setTrk k { h with teeth := (List.replicate (min 4 m) (i / m) ++ prev).take 4 }).trkCount k stamp m ((sign * (m : Int) : Rat) * u) false
          else if prev.length = 4 ∧ 3 / 2 * mean < (i : Rat) then
            -- the estimator supplies the interval over the mean, rounded, at the edge that ends the gap (DESIGN CHOICE, log entry 144)
            let teeth := max 1 (ratNearest ((i : Rat) / mean)).toNat
            s.trkCount k stamp teeth ((sign * (teeth : Int) : Rat) * u) true
          else (s.setTrk k { h with teeth := i :: prev }).trkCount k stamp m ((sign * (m : Int) : Rat) * u) false
        | none => s.trkCount k stamp m ((sign * (m : Int) : Rat) * u) false
      else
        -- of the four counts of a turn in quadrature none is taken as this reference (DESIGN CHOICE, log entry 176)
        let ref := s.trkKind k == 1 && s.rd (pgTrk k) 0x044 == 0x1000
        s.trkCount k stamp m ((sign * (m : Int) : Rat) * u) ref
    if zRef then
      let h := s.trkH k
      let s := s.setTrk k (if h.st = .acquiring then { h with zStamp := some stamp } else { h with sinceRef := some 0 })
      match h.st, h.wantRef with
      | .locked, some fwd =>
        let x := s.trkPos k stamp
        let s := s.setTrk k { s.trkH k with wantRef := none }
        (s.trkCorrect k x (refPos fwd x 0 - x)).trkRefit k
      | _, _ => s
    else s

/-- The signed quadrature counts that a transfer of input `n` carries, by track and by A or B. -/
def State.quadSent (s : State) (n : Nat) : List (Nat × Bool × Int) :=
  (List.range 64).flatMap fun k =>
    if k != 0 && s.trkUses k n && s.trkMode k == 1 then
      (if s.trkAin k == n then [(k, true, (s.trkH k).quadA)] else []) ++ (if s.trkBin k == n then [(k, false, (s.trkH k).quadB)] else [])
    else []

/-- COUNT_TRANSFER (spec/03 R60, R69, R75): the count waiting at input `n` crosses into the core domain, while the capture crossing is UP (spec/18 R497). -/
def countTransfer (n t : Nat) (s : State) : State :=
  let p := pgTrkIn n
  let s := s.upTo t
  let h := s.trkInH n
  if !s.ready p || h.pend == 0 || s.fld (pgXng 2) 0x040 31 29 != 1 then s else
  let s := s.wr64 p 0x048 (satAdd (2 ^ 64 - 1) (s.rd64 p 0x048) h.pend)
  let s := s.wr64 p 0x050 h.pendStamp
  let s := match h.lastXfer with
    | some l => s.wr p 0x058 (min 0xFFFFFFFF (h.pendStamp - l))
    | none => s
  let s := s.setTrkIn n { h with pend := 0, satur := false, lastXfer := some h.pendStamp, sent := some (h.pend, h.pendStamp, s.now), sentQ := s.quadSent n }
  s.each (List.range 64) fun s k =>
    if k != 0 && s.trkUses k n && s.enabled (pgTrk k) then s.trkTransfer k n h.pend h.pendStamp h.satur else s

/-- The state codes of TQ bits 2:0 (spec/03 R74). -/
def TState.code : TState → Nat
  | .off => 0 | .acquiring => 1 | .locked => 2 | .coasting => 3 | .lost => 4 | .stopped => 5

/-- The position of a track as broadcast, with TRK_OFFSET added (spec/03, TRK_OFFSET). -/
def State.withOffset (s : State) (k : Nat) (x : Int) : Int :=
  toS 64 ((x + toS 64 (s.rd64 (pgTrk k) 0x050)) % 2 ^ 64).toNat

/-- WALL's record (spec/03 R68): seconds modulo 2^32, LOCKED with the servo, else COASTING with UNSYNC. -/
def State.wallRec (s : State) (tb : Nat) : BRec :=
  let x := s.wall.pos tb
  let jumping := match (s.trkH 0).jumpAt with
    | some j => decide (x - j < 1) && decide (j - x < 1)
    | none => false
  { tb := tb, pos := toS 64 (s.wallTpos tb).toNat, rate := fOfRat s.wall.rate, jump := (s.trkH 0).jump, tq := (if s.wall.locked then 2 else 0x83) + (if jumping then 16 else 0) }

/-- A track's record at a broadcast instant, given the records of the tracks below it (spec/03 R67, R70, R72, R74, R80–R82). Ratio and slip against a LOCKED parent at rate 0, which the spec leaves open, are NaN (DESIGN CHOICE, log entry 147). -/
def State.trkRec (s : State) (k tb : Nat) (lower : List BRec) : BRec :=
  if k = 0 then s.wallRec tb else
  let kind := s.trkKind k
  let par := lower.getD (s.trkParent k) {}
  let pst := bits par.tq 2 0
  let parentBad := pst != 2
  if kind = 2 then
    if (s.trkH k).st = .off then { tb := tb, pos := s.withOffset k (tposOf (s.trkH k).pos), tq := (if parentBad then 8 else 0) + (if bit par.tq 7 then 128 else 0), jump := (s.trkH k).jump }
    else
    let r := s.trkRatio k
    let x := ((par.pos : Rat) * r).floor
    let sc (f : Nat) : Nat := if fIsFinite f then fOfRat (fToRat f * r) else f
    { tb := tb, pos := s.withOffset k x, rate := sc par.rate, accel := sc par.accel, jerk := sc par.jerk, jump := (s.trkH k).jump,
      tq := setBit par.tq 3 parentBad }
  else
    let h := s.trkH k
    let (x, r, a, _) := h.eval (kind == 6) tb
    let parented := kind == 4
    let jumping := match h.jumpAt with
      | some j => decide (x - j < 1) && decide (j - x < 1)
      | none => false
    let active := h.st = .locked ∨ h.st = .coasting
    let rate := if active then fOfRat r else 0
    let tq := h.st.code + (if parented && parentBad then 8 else 0) + (if jumping then 16 else 0) +
      (if active ∧ r < 0 then 32 else 0) + (if h.sat then 64 else 0) + (if parented && bit par.tq 7 then 128 else 0)
    let ok := parented && h.st == .locked && !parentBad
    let pr := fToRat par.rate
    { tb := tb, pos := s.withOffset k (tposOf x), rate := rate, accel := if active then fOfRat a else 0,
      jerk := if active ∧ !h.held tb then h.jerk else 0, jump := h.jump, tq := tq,
      slip := if ok && pr * s.trkRatio k != 0 then fOfRat (1 - r / (pr * s.trkRatio k)) else 0x7FC00000,
      ratio := if ok && pr != 0 then fOfRat (r / pr) else 0x7FC00000 }

/-- A tacholess follower's present line frequency, as its loop measures it, moves the fit on (spec/03 R80); the acceleration and jerk that R70 broadcasts have no rule for this kind and are free. Where parent rate × P/Q is 0 the spec gives no sign, and the direction stays (DESIGN CHOICE, log entry 146). -/
def State.trkLoop (s : State) (t k : Nat) (hz : Rat) : State :=
  let h := s.trkH k
  if s.trkKind k = 4 ∧ h.st = .locked then
    let x : Rat := match h.fit with
      | some (t0, p, r, _) => p + r * secs ((t : Int) - t0)
      | none => h.pos
    let dir : Rat := if fToRat h.brec.rate < 0 then -1 else 1
    let order : Rat := (max 1 (s.fld (pgTrk k) 0x058 20 13) : Nat)
    let par := (s.trkH (s.trkParent k)).brec
    let sgn : Rat := if fToRat par.rate * s.trkRatio k < 0 then -1 else if fToRat par.rate * s.trkRatio k = 0 then dir else 1
    let r := sgn * hz / order
    let pr := fToRat par.rate
    let (d, s) := s.draw
    s.setTrk k { h with fit := some (t, x, r, Config.tachoAccel k d), jerk := (Config.tachoJerk k d).toNat, pos := x, loopHz := some hz,
                        ratio := if pr = 0 then h.ratio else r / pr }
  else s

/-- The search centre of a tacholess track, frozen while the parent is not LOCKED (spec/03 R78). -/
def State.trkCentre (s : State) (k : Nat) : State :=
  let h := s.trkH k
  let par := (s.trkH (s.trkParent k)).brec
  if s.trkKind k = 4 ∧ bits par.tq 2 0 = 2 then
    let v := (s.fld (pgTrk k) 0x058 20 13 : Rat) * (fToRat par.rate * s.trkRatio k)
    s.setTrk k { h with fc := if v < 0 then -v else v }
  else s

/-- Half the width of the search band in Hz (spec/03 R78). -/
def State.trkHalf (s : State) (k : Nat) : Rat := (s.trkH k).fc * (s.fld (pgTrk k) 0x058 12 5 : Nat) / 1000

/-- Whether the followed line stands outside the search band (spec/03 R78, R81). -/
def State.lineOut (s : State) (k : Nat) : Bool :=
  match (s.trkH k).loopHz with
  | some hz => decide (hz < (s.trkH k).fc - s.trkHalf k) || decide ((s.trkH k).fc + s.trkHalf k < hz)
  | none => false

/-- A LOCKED tacholess track loses its line and coasts from here (spec/03 R81). -/
def State.lineLost (s : State) (k t : Nat) : State :=
  let x := ((s.trkH k).eval false t).1
  let s := s.trkEnter k .coasting
  s.setTrk k { s.trkH k with coastT := t, coastPos := x }

/-- Whether a HOST port takes samples of a channel: what the follower of a tacholess track needs (spec/03 R78, spec/04 R145). -/
def State.channelUp (s : State) (ch : Nat) : Bool :=
  s.regs.any fun q =>
    let p := q.1 / 4096; let o := q.1 % 4096
    decide (0x400 ≤ p ∧ p < 0x600) && decide (0x200 ≤ o ∧ o < 0x300) && o % 64 == 0 && bit q.2.toNat 31 && bits q.2.toNat 30 20 == ch &&
      s.ready p && !s.getB p 0x040 11

/-- Clears TQ.JUMP once the position lies a turn or more from the correction, and tracks the parent: a LOCKED tacholess track whose line has left the band coasts, a scan begins where one can, a LOST tacholess track follows its parent into STOPPED, a coasting one with a LOCKED parent moves at the parent's rate times its last ratio (spec/03 R74, R81). -/
def State.trkFollow (s : State) (k tb : Nat) : State :=
  let h := s.trkH k
  let x := if k = 0 then s.wall.pos tb else (h.eval (s.trkKind k == 6) tb).1
  let s := match h.jumpAt with
    | some j => if x - j < 1 ∧ j - x < 1 then s else s.setTrk k { h with jumpAt := none }
    | none => s
  if s.trkKind k = 4 then
    let par := (s.trkH (s.trkParent k)).brec
    let s := if (s.trkH k).st = .locked ∧ s.lineOut k = true then s.lineLost k tb else s
    let h := s.trkH k
    let scans := (h.st == .acquiring || h.st == .lost) && bits par.tq 2 0 == 2 && s.channelUp (s.fld (pgTrk k) 0x058 31 21)
    let s := if scans then (if h.scanT.isNone then s.setTrk k { h with scanT := some tb } else s) else s.setTrk k { h with scanT := none }
    let h := s.trkH k
    if h.st = .lost ∧ bits par.tq 2 0 = 5 then s.trkEnter k .stopped
    else if h.st = .coasting ∧ bits par.tq 2 0 = 2 then
      s.setTrk k { h with fit := some (tb, x, fToRat par.rate * h.ratio, 0), jerk := 0, pos := x }
    else s
  else s

/-- BROADCAST (spec/03 R70, R71): every 64 cycles the estimator evaluates all tracks in ascending order; TRK_LOSS, TRK_COAST and TRK_TACHO_LOCK as written take effect (R83). `loops` are the line frequencies, in 2^-16 Hz, that the tacholess loops measure now; `bad` the tracks whose record holds a word that is uncorrectable on its way (spec/06 R194). -/
def broadcast (t : Nat) (loops : List (Nat × Nat)) (bad : List Nat) (s : State) : State :=
  let due := match s.lastBcast with
    | some l => decide (l + 64 ≤ t)
    | none => true
  if !due then s else
  let s := s.upTo t
  let s := s.each (List.range 64) fun s k => s.setTrk k { s.trkH k with lossR := s.rd (pgTrk k) 0x060, coastR := s.rd (pgTrk k) 0x064, lockR := s.fld (pgTrk k) 0x05C 7 0 }
  let s := s.each loops fun s q => s.trkLoop t q.1 ((q.2 : Rat) / 65536)
  let s := s.each (List.range 64) fun s k => (s.trkCentre k).trkFollow k t
  let recs := (List.range 64).foldl (fun l k => l ++ [s.trkRec k t l]) []
  { s with bcast := s.bcast ++ [(t, recs.zipIdx.map fun q => { q.1 with pois := bad.contains q.2 })], lastBcast := some t }

/-- Puts one applied record on its track's page, all registers in one cycle (spec/03 R84). -/
def State.trkApply (s : State) (k : Nat) (r : BRec) : State :=
  let p := pgTrk k
  let was := bits (s.trkH k).brec.tq 2 0
  let st := bits r.tq 2 0
  let old := (s.trkH k).tqs
  let s := s.setTrk k { s.trkH k with brec := r, tqs := if old.head?.map (·.2) = some r.tq then old else (s.now, r.tq) :: old }
  -- a DERIVED track enters and leaves the states with its parent (R67, R77)
  let s := if s.trkKind k = 2 then
      let s := if (st = 3 ∧ was ≠ 3) ∨ (was = 2 ∧ st ≠ 2) then s.irq p 16 else s
      let s := if st = 3 ∧ was ≠ 3 then s.bump p 0x098 15 0 else s
      if st = 4 ∧ was ≠ 4 then s.bump p 0x098 31 16 else s
    else s
  let s := s.wr p 0x068 r.tq
  let s := s.wr64 p 0x070 (r.pos % 2 ^ 64).toNat
  let s := s.wr p 0x078 r.rate
  let s := s.wr p 0x07C r.accel
  let s := s.wr p 0x080 r.slip
  let s := s.wr p 0x084 r.ratio
  let s := s.wr64 p 0x088 (r.jump % 2 ^ 64).toNat
  let s := s.wr64 p 0x090 r.tb
  s.wr p 0x09C r.jerk

/-- BROADCAST_APPLY (spec/03 R70): the oldest record on its way reaches every cluster 24 cycles after its instant. -/
def broadcastApply (t : Nat) (s : State) : State :=
  match s.bcast with
  | (tb, recs) :: rest =>
    if t < tb + 24 then s else
    let s := { s.upTo t with bcast := rest }
    s.each recs.zipIdx fun s q => s.trkApply q.2 q.1
  | [] => s

/-- The extrapolated position of a track at a cycle, as a cluster computes it from the record it applied (spec/03 R72): x in TPOS counts. Between two broadcasts it follows R72's formula past the cycle at which a COASTING track's rate crosses zero (DESIGN CHOICE, log entry 180). -/
def State.trkX (s : State) (k t : Nat) : Int :=
  let r := (s.trkH k).brec
  let st := bits r.tq 2 0
  if (st = 2 ∨ st = 3) ∧ s.trkKind k ≠ 6 then
    let dt := secs ((t : Int) - r.tb)
    let p : Rat := (r.pos : Rat) / 2 ^ 32
    tposOf (posAt p (fToRat r.rate) (fToRat r.accel) (fToRat r.jerk) dt)
  else r.pos

/-- The rate of a track at a cycle, from the record the cluster applied (spec/03 R70, R72); none where a word of it is no number. -/
def State.trkRate (s : State) (k t : Nat) : Option Rat :=
  let r := (s.trkH k).brec
  let st := bits r.tq 2 0
  if !(fIsFinite r.rate && fIsFinite r.accel && fIsFinite r.jerk) then none
  else if (st = 2 ∨ st = 3) ∧ s.trkKind k ≠ 6 then some (rateAt (fToRat r.rate) (fToRat r.accel) (fToRat r.jerk) (secs ((t : Int) - r.tb)))
  else some (fToRat r.rate)

/-- The TQ byte a cluster holds for a track. -/
def State.trkTq (s : State) (k : Nat) : Nat := (s.trkH k).brec.tq

/-- The TQ byte a cluster held for a track at a cycle (spec/06 R189, TQ0 and TQ_ALL). -/
def State.trkTqAt (s : State) (k t : Nat) : Nat :=
  match (s.trkH k).tqs.find? fun q => decide (q.1 ≤ t) with
  | some q => q.2
  | none => 0

/-- GAP_EXCEEDED (spec/03 R75): a LOCKED counting track sees no count for GAP expected intervals. -/
def gapExceeded (k t : Nat) (s : State) : State :=
  let s := s.upTo t
  let h := s.trkH k
  if h.st ≠ .locked ∨ !s.trkCounts k then s else
  let (x, r, _, _) := h.eval (s.trkKind k == 6) t
  let rate := if r < 0 then -r else r
  let gap : Rat := (bits h.lossR 15 12 : Nat)
  match h.lastStamp with
  | some l =>
    if rate ≠ 0 ∧ gap * s.trkStep k < secs ((t : Int) - l) * rate then
      let s := s.trkEnter k .coasting
      s.setTrk k { s.trkH k with coastT := t, coastPos := x }
    else s
  | none => s

/-- COAST_LIMIT (spec/03 R75): TURNS extrapolated turns or TIME_MS end the coast. -/
def coastLimit (k t : Nat) (s : State) : State :=
  let s := s.upTo t
  let h := s.trkH k
  if h.st ≠ .coasting then s else
  let x := (h.eval (s.trkKind k == 6) t).1
  let d := if x < h.coastPos then h.coastPos - x else x - h.coastPos
  let turns : Rat := (bits h.coastR 15 0 : Nat)
  if turns ≤ d ∨ h.coastT + bits h.coastR 31 16 * cyclesPerMs ≤ t then
    let s := s.trkEnter k .lost
    s.setTrk k { s.trkH k with pos := x, fit := none, jerk := 0, lostT := t, loopHz := none }
  else s

/-- STOP_TIME (spec/03 R75): STOP_MS in LOST. A line that a scan found but whose loop has not locked does not keep a tacholess track from STOPPED (DESIGN CHOICE, log entry 181; spec/03 R81). -/
def stopTime (k t : Nat) (s : State) : State :=
  let s := s.upTo t
  let h := s.trkH k
  if h.st = .lost ∧ h.lostT + bits h.lossR 31 16 * cyclesPerMs ≤ t then s.trkEnter k .stopped else s

/-- The sum of the two middle ones of a sorted list of 16: twice the median (spec/03 R79). -/
def median2 (l : List Int) : Int :=
  let m := sortBy (fun a b => decide (a ≤ b)) l
  m.getD 7 0 + m.getD 8 0

/-- The index and value of the largest of a list; the first of equals. -/
def maxIdx (l : List Int) : Nat × Int :=
  l.zipIdx.foldl (fun b q => if b.2 < q.1 then (q.2, q.1) else b) (0, l.headD 0)

/-- TACHO_SCAN (spec/03 R79): the 16 detectors' levels in dB at the end of a scan of T_scan = 8 / (SEARCH × 0.001 × f_c) seconds; the loop starts at the strongest detector when that stands LOCK_DB above the median, and the next scan begins. Scanning needs ACQUIRING or LOST, a LOCKED parent and the channel's samples. -/
def tachoScan (k t : Nat) (levels : List Int) (s : State) : State :=
  let s := s.upTo t
  let h := s.trkH k
  let par := (s.trkH (s.trkParent k)).brec
  if s.trkKind k ≠ 4 ∨ (h.st ≠ .acquiring ∧ h.st ≠ .lost) ∨ bits par.tq 2 0 ≠ 2 ∨ levels.length ≠ 16 then s else
  match h.scanT with
  | none => s
  | some t0 =>
    let half := s.trkHalf k
    if secs ((t : Int) - t0) * half < 8 then s else
    let (i, v) := maxIdx levels
    let hz := h.fc - half + half * 2 * (i : Rat) / 15
    let found := decide (2 * (h.lockR : Int) ≤ 2 * v - median2 levels)
    s.setTrk k { h with loopHz := if found then some hz else none, loopAt := hz, scanT := some t }

/-- Whether the loop's phase errors over its line cycles, in 2^-16 of a cycle, the latest last, end with 16 inside ±1/16 (spec/03 R79). -/
def phaseHeld (errs : List Int) : Bool :=
  decide (16 ≤ errs.length) && (errs.reverse.take 16).all fun e => decide (e.natAbs ≤ 4096)

/-- TACHO_LOCK (spec/03 R79, R80): the running loop's phase errors `errs` hold 16 line cycles within 1/16; its line stands at `hz16` in 2^-16 Hz, within the loop's bandwidth 2^(BW − 1) Hz of where it started (DEDUCED, log entry 145). The position continues from the held value. -/
def tachoLock (k t hz16 : Nat) (errs : List Int) (s : State) : State :=
  let s := s.upTo t
  let h := s.trkH k
  let off := (hz16 : Rat) / 65536 - h.loopAt
  let bw : Rat := (2 : Rat) ^ s.fld (pgTrk k) 0x058 4 2 / 2
  if s.trkKind k ≠ 4 ∨ (h.st ≠ .acquiring ∧ h.st ≠ .lost) ∨ h.loopHz.isNone ∨ !phaseHeld errs ∨ bw < off ∨ bw < -off ∨ h.scanT.isNone then s else
  let s := s.setTrk k { h with fit := some (t, h.pos, 0, 0), jerk := 0, scanT := none }
  let s := s.trkEnter k .locked
  s.trkLoop t k ((hz16 : Rat) / 65536)

/-- LINE_LOSS (spec/03 R81): since `since` the followed line has stood at `level` dB or below, the detectors' median being `med`; where that is weaker than median + LOCK_DB − 6 dB for GAP expected turns, or the line is outside the band, the track coasts at its last rate, or at the parent's times the last ratio. -/
def lineLoss (k t since : Nat) (level med : Int) (s : State) : State :=
  let s := s.upTo t
  let h := s.trkH k
  let r := (h.eval false t).2.1
  let turns := secs ((t : Int) - since) * (if r < 0 then -r else r)
  let weak := decide (level < med + h.lockR - 6) && decide (((bits h.lossR 15 12 : Nat) : Rat) ≤ turns)
  if s.trkKind k = 4 ∧ h.st = .locked ∧ (weak = true ∨ s.lineOut k = true) then s.lineLost k t else s

/-- TRK_SCALE as the kind in force allows (spec/03 TRK_SCALE): an integer from 1 to 4,096 for MEASURED, non-zero for LINEAR and COUNT. -/
def State.scaleClamp (s : State) (k v : Nat) : Nat :=
  if s.trkKind k = 1 then clampTo 4096 (4096 * 4096) (v / 4096 * 4096 + (if 2048 < v % 4096 then 4096 else 0))
  else if s.trkKind k = 3 ∨ s.trkKind k = 6 then max v 1 else v

/-- PAGE_CTRL.ENABLE written 1 on a track page (spec/03 R75, R83): OFF goes to ACQUIRING, TRK_SCALE is clamped against the kind in force. -/
def State.trkEnable (s : State) (k : Nat) : State :=
  if k = 0 then s else
  let h := s.trkH k
  let s := if h.st = .off then
      (s.setTrk k { h with win := [], fit := none, jerk := 0, acq := 0, lastStamp := none, lastIntv := none, sinceRef := none, zStamp := none, jerks := [], teeth := [], quadA := 0, quadB := 0, scanT := none }).trkEnter k .acquiring
    else s
  let v := s.rd (pgTrk k) 0x044
  let c := s.scaleClamp k v
  if c = v then s else (s.wr (pgTrk k) 0x044 c).clampCount (pgTrk k) 0x044 0

/-- PAGE_CTRL.ENABLE written 0: the position is held and the track is OFF (spec/03 R75). -/
def State.trkDisable (s : State) (k : Nat) : State :=
  if k = 0 then s else
  let x := if s.trkKind k = 2 ∧ (s.trkH k).st ≠ .off then
      let r := ((List.range (k + 1)).foldl (fun l j => l ++ [s.trkRec j s.now l]) []).getD k {}
      ((toS 64 ((r.pos - toS 64 (s.rd64 (pgTrk k) 0x050)) % 2 ^ 64).toNat : Int) : Rat) / 2 ^ 32
    else s.trkPos k s.now
  let s := s.setTrk k { s.trkH k with pos := x, fit := none, jerk := 0, loopHz := none }
  s.trkEnter k .off

/-- PAGE_CTRL.RESET on a track page, its own part (spec/03 R85): the position returns to 0 and the track is OFF; WALL keeps position, state and TQ. -/
def State.trkReset (s : State) (k : Nat) : State :=
  if k = 0 then s else s.setTrk k {}

/-- PAGE_CTRL.RESET on an input page (spec/03 R62): the pending count, its quadrature counts with it, and the edge history are discarded; LEVEL shows the pin. -/
def State.trkInReset (s : State) (n : Nat) : State :=
  let h := s.trkInH n
  let s := s.quadClear n
  (s.setTrkIn n { level := h.level }).setB (pgTrkIn n) 0x05C 0 h.level

/-- An input page becomes READY: its count, stamps and rate test start afresh (spec/03 R62). -/
def State.trkInReady (s : State) (n : Nat) : State :=
  let h := s.trkInH n
  let s := (s.quadClear n).setTrkIn n { level := h.level }
  ((s.wr64 (pgTrkIn n) 0x048 0).wr64 (pgTrkIn n) 0x050 0).wr (pgTrkIn n) 0x058 0

/-- The servo's state shows in BCP_PTP_STAT: 0 OFF, 1 UNLOCKED, 2 LOCKED; a change of lock is recorded, raises bit 16, and takes track 0 in or out of LOCKED (spec/20 R539, R543, spec/03 R68, R77). -/
def State.servoLock (s : State) (v : Bool) : State :=
  if s.wall.locked = v then s else
  let s := ({ s with wall := { s.wall with locked := v } } : State).irq (pgBcp 3) 16
  let s := (s.setFld (pgBcp 3) 0x044 31 30 (if v then 2 else b2n (s.getB (pgBcp 3) 0x040 31))).logEvent 0x00A0 1 0xFFFF (b2n v)
  if v then s else (s.irq (pgTrk 0) 16).bump (pgTrk 0) 0x098 15 0

end Sys2Proof.Machine
end

