-- ==== Sys2Proof/Machine/Frd.lean ====
section
/-! DEFINITION. The Feature Reducer (spec/08): slots, triggers, slot types, validity, levels, baselines and records. -/

namespace Sys2Proof.Machine

def State.slotH (s : State) (c i : Nat) : SlotH := sget (fun _ => {}) s.slots (4096 * c + i)
def State.setSlot (s : State) (c i : Nat) (h : SlotH) : State := { s with slots := sput (fun _ => {}) (4096 * c + i) h s.slots }
def State.frdH (s : State) (c : Nat) : FrdH := sget (fun _ => {}) s.frd c
def State.setFrd (s : State) (c : Nat) (h : FrdH) : State := { s with frd := sput (fun _ => {}) c h s.frd }
def State.slotsOf (s : State) (c : Nat) : List Nat :=
  (s.slots.filter fun q => decide (q.1 / 4096 = c) && q.2.on).map fun q => q.1 % 4096

/-- Descriptor fields (spec/08). -/
def SlotH.w (h : SlotH) (i : Nat) : Nat := h.words.getD i 0
def SlotH.type (h : SlotH) : Nat := bits (h.w 0) 31 27
def SlotH.byView (h : SlotH) : Bool := bit (h.w 0) 26
def SlotH.group (h : SlotH) : Nat := bits (h.w 0) 25 18
def SlotH.nblk (h : SlotH) : Nat := bits (h.w 0) 17 14
def SlotH.unit (h : SlotH) : Nat := bits (h.w 0) 13 12
def SlotH.order (h : SlotH) : Nat := bits (h.w 0) 11 7 + 1
def SlotH.minq (h : SlotH) : Nat := bits (h.w 0) 6 4
def SlotH.dcrem (h : SlotH) : Bool := bit (h.w 0) 3
def SlotH.blEn (h : SlotH) : Bool := bit (h.w 0) 2
def SlotH.dunit (h : SlotH) : Bool := bit (h.w 0) 1
def SlotH.outEn (h : SlotH) : Bool := bit (h.w 0) 0
def SlotH.out (h : SlotH) : Nat := bits (h.w 1) 31 26
def SlotH.bli (h : SlotH) : Nat := bits (h.w 1) 25 16
def SlotH.view (h : SlotH) : Nat := bits (h.w 1) 15 7
def SlotH.track (h : SlotH) : Nat := bits (h.w 1) 5 0

/-- √x rounded once to binary32, for x ≥ 0. -/
def fSqrtRat (x : Rat) : Nat :=
  if x ≤ 0 then 0 else
  let n := x.num.toNat * x.den * 4 ^ 200
  let q := isqrt n
  fOfRat (((2 * q + (if q * q = n then 0 else 1) : Nat) : Rat) / ((2 * x.den * 2 ^ 200 : Nat) : Rat))

/-- The FRD-written bytes of a slot's descriptor. -/
def State.slotSync (s : State) (c i : Nat) : State :=
  let h := s.slotH c i
  let st := if !h.on then 0 else if h.fault then 2 else 1
  s.wrMem (clusterBase c + s.rd (pgFrd c) 0x040 + 64 * i + 48) 16
    (st + (h.level + 4 * h.pend) * 2 ^ 8 + ((h.seq + 255) % 256) * 2 ^ 16 + (h.evals % 256) * 2 ^ 24 + h.value * 2 ^ 32 + h.dstart % 2 ^ 64 * 2 ^ 64)

/-- The bits of a slot in the ALERT, DANGER and INVALID maps follow its level (spec/08 R247); a slot that is OFF is INVALID there and nowhere else. -/
def State.slotMaps (s : State) (c i : Nat) : State :=
  let h := s.slotH c i
  let o := 4 * (i / 32)
  let p := pgFrd c
  let s := s.setB p (0x200 + o) (i % 32) (h.on && (h.level == 1 || h.level == 2))
  let s := s.setB p (0x400 + o) (i % 32) (h.on && h.level == 2)
  s.setB p (0x600 + o) (i % 32) (!h.on || h.level == 3)

/-- Marks a level change: FRD_CHANGE_MAP and BLOCK bit 17. -/
def State.slotChanged (s : State) (c i : Nat) : State :=
  (s.raise (pgFrd c) (0x800 + 4 * (i / 32)) (i % 32)).irq (pgFrd c) 17

def State.frdCount (s : State) (c : Nat) : State :=
  s.wr (pgFrd c) 0x054 ((s.slotsOf c).length * 65536 + (s.frdH c).queue.length)

/-! Commands (spec/08 R236–R238). -/

/-- The next binary32 above a value; none stands above +infinity. -/
def fNext (v : Nat) : Nat := if v = 0x80000000 then 1 else if v = 0x7F800000 then v else if bit v 31 then v - 1 else v + 1

/-- A slot descriptor's words as SLOT_ON clamps them. -/
def slotClamp (w : List Nat) : List Nat :=
  let g := fun i => w.getD i 0
  let cfg := g 0
  let type := bits cfg 31 27
  let type := if type = 0 ∨ 13 ≤ type then 1 else type
  let trig := if type ≤ 6 then 1 else if type ≤ 10 then 0 else bits cfg 26 26
  let group := bits cfg 25 18
  let group := if trig = 0 ∧ group = 0 then 1 else group
  let nblk := min 8 (bits cfg 17 14)
  let unit := if type = 9 then 2 else if bits cfg 13 12 = 3 then 0 else bits cfg 13 12
  let mq := bits cfg 6 4
  let mq := if mq ≤ 1 then 2 else if 4 ≤ mq then 3 else mq
  let cfg' := type * 2 ^ 27 + trig * 2 ^ 26 + group * 2 ^ 18 + nblk * 2 ^ 14 + unit * 2 ^ 12 + bits cfg 11 7 * 2 ^ 7 + mq * 2 ^ 4 + cfg % 16
  let nan0 := fun v => if fIsNaN v then 0 else v
  let lo := nan0 (g 2)
  let hi := nan0 (g 3)
  let hi := if fLt lo hi then hi else fNext lo
  let pinf := fun v => if fIsNaN v then 0x7F800000 else v
  let ninf := fun v => if fIsNaN v then 0xFF800000 else v
  let rmin := fClampRange 0 0x469C4000 (g 9)
  let rmax := fClampRange 0 0x469C4000 (g 10)
  let rmax := if fLt rmin rmax then rmax else fNext rmin
  let bl := g 11
  let bl := setBits (setBits (setBits bl 15 12 (max 1 (bits bl 15 12))) 7 0 (max 1 (bits bl 7 0))) 10 8 0
  [cfg', setBit (g 1) 6 false, lo, hi, pinf (g 4), pinf (g 5), ninf (g 6), ninf (g 7), setBit (g 8) 0 false, rmin, rmax, bl]

/-- SLOT_OFF. -/
def State.slotOff (s : State) (c i : Nat) : State :=
  let h := s.slotH c i
  if !h.on then s else
  let s := s.setSlot c i { h with on := false, pend := 0 }
  let s := (s.slotSync c i).slotMaps c i
  let s := s.setB (pgFrd c) (0x800 + 4 * (i / 32)) (i % 32) false
  let s := s.setB (pgFrd c) (0xA00 + 4 * (i / 32)) (i % 32) false
  let s := s.setB (pgFrd c) (0x600 + 4 * (i / 32)) (i % 32) false
  -- a slot switched off, or off and on again, is no longer of the trigger in service
  let s := s.setFrd c { s.frdH c with cur := (s.frdH c).cur.map fun q => { q with slots := q.slots.filter (· != i) } }
  s.frdCount c

/-- SLOT_ON: answers RESULT. -/
def State.slotOn (s : State) (c i : Nat) : Nat × State :=
  let s := s.slotOff c i
  let a := clusterBase c + s.rd (pgFrd c) 0x040 + 64 * i
  let ((dv, bad), s) := s.descRead (pgFrd c) a 48
  if bad then (0, s) else
  let w := toWords 12 dv
  let w' := slotClamp w
  let clamped := w' != [w.getD 0 0, setBit (w.getD 1 0) 6 false] ++ (w.drop 2).take 6 ++ [setBit (w.getD 8 0) 0 false, w.getD 9 0, w.getD 10 0, setBits (w.getD 11 0) 10 8 0]
  let s := s.wrMem a 48 (ofWords w')
  let s := if clamped then s.clampCount (pgFrd c) 0x048 0 else s
  let h : SlotH := { on := true, words := w' }
  let used := s.slots.any fun q => decide (q.1 / 4096 = c) && q.2.on && q.2.blEn && q.2.bli == h.bli
  if h.blEn && used then (2, s) else
  let s := s.setSlot c i { h with value := gapValue 0x20 }
  let s := (s.slotSync c i).slotMaps c i
  let s := s.setB (pgFrd c) (0xA00 + 4 * (i / 32)) (i % 32)
  (b2n clamped, s.frdCount c)

/-- BL_CLEAR: zero into the 64 bins of the baseline that the slot's descriptor names. -/
def State.blClear (s : State) (c i : Nat) : State :=
  let h := s.slotH c i
  let ((w1, bad), s) := if h.on then ((h.w 1, false), s) else s.descRead (pgFrd c) (clusterBase c + s.rd (pgFrd c) 0x040 + 64 * i + 4) 4
  if bad then s else s.wrMem (clusterBase c + s.rd (pgFrd c) 0x044 + 512 * bits w1 25 16) 512 0

/-- Whether a logic self-test slice holds the FRD (spec/08 R254). -/
def State.frdSlice (s : State) (c : Nat) : Bool := s.runsOn (pgBistC c) 9 c

/-- A command executes between two slot evaluations (spec/08 R236), and FRD_CMD_STAT shows its result. -/
def State.frdExecute (s : State) (c op idx : Nat) : State :=
  let (res, s) := if op = 1 then s.slotOn c idx else if op = 2 then (0, s.slotOff c idx) else (0, s.blClear c idx)
  let s := s.setFrd c { s.frdH c with cmd := none }
  (s.wr (pgFrd c) 0x04C (res * 2 ^ 28 + op * 2 ^ 24 + idx)).irq (pgFrd c) 16

/-- A command written to FRD_CMD (spec/08 R236): it completes at once, within the 2 µs that the spec allows, or after the self-test slice that holds the FRD, BUSY meanwhile (R254). -/
def State.frdCommand (s : State) (c op idx : Nat) : State :=
  if op = 0 ∨ !s.ready (pgFrd c) then s
  else if s.frdSlice c then (s.setFrd c { s.frdH c with cmd := some (op, idx) }).setB (pgFrd c) 0x04C 31
  else s.frdExecute c op idx

/-! Records (spec/08 R251, R252). -/

/-- What an evaluation reads besides its value: speed (none where it is no number), TQ, TPOS, T and the record's flags (spec/08 R243). -/
structure EvMeta where
  speed : Option Rat
  tq : Nat
  tpos : Nat
  t : Nat
  qflags : Nat
  deriving DecidableEq, Repr

/-- Marks the next record to leave a FIFO with QFLAGS.LOSS. -/
def markLoss : List SrcItem → List SrcItem
  | it :: rest => { it with payload := it.payload ||| 2 ^ 238 } :: rest
  | [] => []

/-- Sends a record on an output: FIFO of 512; when it is full the oldest is discarded, and the next record that leaves carries LOSS. -/
def State.frdRecord (s : State) (c i : Nat) (m : EvMeta) (st val val2 bin qf : Nat) : State :=
  let h := s.slotH c i
  if !h.outEn then s else
  let key := srcKey 2 (engineSel c 2 h.out)
  let rcd := (i + 4096 * c) + h.type * 2 ^ 16 + st * 2 ^ 24 + m.tpos % 2 ^ 64 * 2 ^ 32 + m.t % 2 ^ 64 * 2 ^ 96 + val * 2 ^ 160 + val2 * 2 ^ 192 +
    m.tq * 2 ^ 224 + qf * 2 ^ 232 + bin * 2 ^ 240 + h.seq % 256 * 2 ^ 248
  let s := s.setSlot c i { h with seq := (h.seq + 1) % 256 }
  let s := s.wr64 (pgFrd c) 0x060 (satAdd (2 ^ 64 - 1) (s.rd64 (pgFrd c) 0x060) 1)
  match s.entryOf key with
  | none => s
  | some _ =>
    let q := s.queue key
    let s := if 512 ≤ q.length then ((s.setQueue key (markLoss (q.drop 1))).bump (pgFrd c) 0x058 7 0).irq (pgFrd c) 18 else s
    s.sourceOffer key { raw := true, nvalid := 32, payload := rcd, acceptedAt := s.now }

/-! Evaluation (spec/08 R241–R250). -/

/-- The words a trigger offers its slots: a result (GROUP) or nothing more than its view's block. -/
structure ResultHd where
  v : Nat
  /-- Which of the header's eight words are poisoned, as a mask. -/
  pois : Nat
  deriving DecidableEq, Repr

def ResultHd.f (r : ResultHd) (lo n : Nat) : Nat := (r.v / 256 ^ lo) % 256 ^ n
def ResultHd.isView (r : ResultHd) : Bool := r.f 8 8 != 0

/-- Whether a header word among `ws` is poisoned. -/
def poisonedAmong (mask : Nat) (ws : List Nat) : Bool := ws.any fun i => bit mask i

/-- The header words a spectral type uses (spec/08 R242–R244): T0, RATE, DF, F0, TQ_ALL, FLAGS, LEN, FMT, OP; of a view's result TPOS0 and VIEW too; ENBW but for ORDER. -/
def ResultHd.used (r : ResultHd) (type : Nat) : List Nat := [1, 2, 3, 4, 5] ++ (if r.isView then [0, 6] else if type = 8 then [] else [6])

/-- The value of entry `k` of a result as POWER, and as MAG squared (spec/07 R210): `none` when a word is not finite. -/
def entryPower (fmt : Nat) (dbl : Bool) (w : Nat) : Option Rat :=
  let a := w % 2 ^ 32; let b := w / 2 ^ 32 % 2 ^ 32
  if fmt = 0 then
    if fIsFinite a && fIsFinite b then
      let m := fToRat a * fToRat a + fToRat b * fToRat b
      some (if dbl then 2 * m else m)
    else none
  else if !fIsFinite a then none
  else if fmt = 1 then some (fToRat a)
  else some (if dbl then fToRat a * fToRat a / 2 else fToRat a * fToRat a)

/-- Whether entry `k`, at frequency `f`, is doubled, by the rule the engine uses for that result (spec/07 R210): the half spectrum of a real transform but for its ends; a ZOOM of a real input but for frequencies 0 and 0.5. -/
def entryDoubled (op len k : Nat) (real : Bool) (f : Rat) : Bool :=
  match op with
  | 1 => len % 2 == 1 && k != 0 && k + 1 != len
  | 4 => k != 0 && k + 1 != len
  | 3 => real && f != 0 && f != 1 / 2 && f != -1 / 2
  | _ => false

/-- The outcome of an evaluation: VALUE, its VALUE2 when the type has one of its own, or the first failing code. -/
inductive EvRes where
  | ok (v : Nat) (v2 : Option Nat)
  | bad (code : Nat)
  deriving DecidableEq, Repr

/-- Statistics of time samples (spec/08 R242 types 1–6). -/
def timeStat (type : Nat) (dcrem : Bool) (xs : List Rat) : Nat :=
  let n : Rat := (xs.length : Rat)
  let sum := fun (f : Rat → Rat) => xs.foldl (fun a x => a + f x) 0
  let mean := sum id / n
  let m := if dcrem then mean else 0
  let ab := fun (x : Rat) => if x < 0 then -x else x
  let mx := fun (f : Rat → Rat) => (xs.map f).foldl (fun a x => if a < x then x else a) (f (xs.headD 0))
  let var := sum (fun x => (x - mean) * (x - mean)) / n
  match type with
  | 1 => fSqrtRat (sum (fun x => (x - m) * (x - m)) / n)
  | 2 => fOfRat (mx fun x => ab (x - m))
  | 3 => fOfRat (mx id + mx fun x => -x)
  | 4 => fOfRat mean
  | 5 =>
    let p := mx fun x => ab (x - mean)
    if var = 0 then fNaN else fSqrtRat (p * p / var)
  | _ => if var = 0 then fNaN else fOfRat (sum (fun x => (x - mean) * (x - mean) * ((x - mean) * (x - mean))) / n / (var * var))

/-- FRD_LOAD as of now: a millisecond that has ended gives NOW, in 0.1 % of its cycles, and raises PEAK; after an idle one NOW is 0. -/
def State.frdSettle (s : State) (c : Nat) : State :=
  let h := s.frdH c
  let ms := s.now / cyclesPerMs
  if ms ≤ h.work.1 then s
  else
    let load := min 1000 (h.work.2 / 3000)
    let s := (s.setFld (pgFrd c) 0x068 15 0 (if h.work.1 + 1 = ms then load else 0)).raiseMax (pgFrd c) 0x068 31 16 load
    s.setFrd c { h with work := (ms, 0) }

/-- Counts busy cycles for FRD_LOAD. -/
def State.frdWork (s : State) (c n : Nat) : State :=
  let s := s.frdSettle c
  let h := s.frdH c
  s.setFrd c { h with work := (h.work.1, h.work.2 + n) }

/-- The meta fields of an evaluation on the track at the present cycle. -/
def State.metaTrack (s : State) (k : Nat) (qf : Nat) : EvMeta :=
  ⟨s.trkRate k s.now, s.trkTq k, (s.trkX k s.now % 2 ^ 64).toNat, s.now, qf⟩

/-- Whether UNIT or ORDER cannot be taken (spec/08 R244 code 0x25): on a position grid, or in Hz at speed 0. -/
def SlotH.unitsBad (h : SlotH) (vw : ViewH) (m : EvMeta) : Bool :=
  ((h.unit != 0 || h.type == 8) && vw.grid) || (h.unit == 2 && m.speed == some 0)

/-- QFLAGS of a record from block FLAGS: POISON and GAP apart, bits 2 CAPPED and 5 REVERSE are copied (spec/08 R251, spec/06 R189). -/
def blockQ (fl : Nat) : Nat := 4 * b2n (bit fl 2) + 8 * b2n (bit fl 5)

/-- QFLAGS of a record from result FLAGS (spec/08 R251, spec/07 R219): CAPPED, REVERSE, RETRY, MIGRATED. -/
def resultQ (fl : Nat) : Nat := 4 * b2n (bit fl 5) + 8 * b2n (bit fl 6) + 16 * b2n (bit fl 2) + 32 * b2n (bit fl 3)

/-- RATIO and SLIP (spec/08 R242): the track's value at evaluation. `qf` are the QFLAGS of the trigger's result or blocks, `bad` says that a word they come from is poisoned: no poisoned word enters the record (R245). -/
def State.readTrack (s : State) (h : SlotH) (qf : Nat) (bad : Bool) : EvMeta × EvRes :=
  let b := (s.trkH h.track).brec
  let v := if h.type = 11 then b.ratio else b.slip
  let m := s.metaTrack h.track (if bad then 2 else if b.pois then qf ||| 2 else qf)
  (m, if b.pois || bad then .bad 0x21
    else if h.minq < m.tq % 8 ∨ fIsNaN v then .bad 0x24
    else if fIsInf v ∨ m.speed.isNone then .bad 0x23
    else .ok v none)

/-- An evaluation on a view's blocks (spec/08 R242–R244). -/
def State.readView (s : State) (c : Nat) (h : SlotH) (v prod : Nat) : EvMeta × EvRes × State :=
  let vw := s.viewH c v
  let nb := 2 ^ h.nblk
  let (bl, s) := s.readBlocks c vw (prod + 2 ^ 32 - (nb - 1)) nb
  let hb := fun (b : Nat) lo n => (b / 256 ^ lo) % 256 ^ n
  let hds := bl.map (·.1)
  let b0 := hds.headD 0
  let fl := hds.foldl (fun a b => a ||| hb b 33 1) 0
  let hp (i : Nat) : Bool := bl.any fun b => bit b.2.1 i
  if 11 ≤ h.type then
    let (m, r) := s.readTrack h (blockQ fl + b2n (bit fl 0)) (hp 4)
    (m, r, s)
  else
  let s := s.frdWork c ((nb * vw.len + 15) / 16 * (if h.type = 5 ∨ h.type = 6 then 2 else 1))
  let tq := tqAllOf (hds.map fun b => hb b 32 1)
  let rates := hds.map fun b => hb b 16 4
  let speed := if rates.all fIsFinite then some ((rates.foldl (fun a r => a + fToRat r) 0) / (nb : Rat)) else none
  let xs := bl.flatMap fun b => b.2.2
  let gaps := xs.any fun x => isGapValue x.1
  -- TPOS0, T0, RATE0, TQ_ALL and FLAGS are used; a poisoned word of them leaves its fields 0 in the record (DESIGN CHOICE, log entry 189; R245)
  let pois := hp 0 || hp 1 || hp 2 || hp 4 || xs.any (·.2)
  let fl := if hp 4 then 0 else fl
  let m : EvMeta := ⟨if hp 2 then none else speed, if hp 4 then 0 else tq, if hp 0 then 0 else hb b0 0 8, if hp 1 then 0 else hb b0 8 8,
    b2n (gaps || bit fl 0) + 2 * b2n pois + blockQ fl⟩
  let used := xs.filter fun x => !isGapValue x.1
  let r : EvRes :=
    if pois then .bad 0x21
    else if h.minq < tq % 8 then .bad 0x24
    else if h.unitsBad vw m then .bad 0x25
    else if gaps && (!bit (h.w 8) 1 || used.isEmpty) then .bad 0x22
    else if speed.isNone || used.any fun x => !fIsFinite x.1 then .bad 0x23
    else
      let v := timeStat h.type h.dcrem (used.map fun x => fToRat x.1)
      if fIsFinite v then .ok v none else .bad 0x23
  (m, r, s)

/-- The value of a spectral type over its entries, each (k, frequency, POWER, doubled) (spec/08 R242); `hz` turns an entry's frequency into Hz. -/
def specValue (type : Nat) (enbw hz : Rat) (ps : List (Nat × Rat × Rat × Bool)) : Nat :=
  let sum := fun (g : Rat → Rat → Rat) => ps.foldl (fun a p => a + g p.2.1 p.2.2.1) 0
  match type with
  | 7 => if enbw = 0 then fNaN else fSqrtRat (sum (fun _ p => p) / enbw)
  | 8 => if ps.any (·.2.2.2) then fSqrtRat (2 * sum fun _ p => p) else fSqrtRat (sum fun _ p => p)
  | 9 => if enbw = 0 then fNaN else fSqrtRat (sum (fun f p => p / ((f * hz) * (f * hz))) / (4 * piRat * piRat) / enbw)
  | _ => if enbw = 0 then fNaN else fOfRat (sum (fun _ p => p) / enbw)

/-- The entries that a slot takes of a result (spec/08 R242): those in the band, or the one at order n; none where a frequency is no number. -/
def SlotH.entries (h : SlotH) (vw : ViewH) (m : EvMeta) (len f0 df : Nat) : List Nat :=
  let S : Rat := (2 ^ vw.nlog : Nat)
  let scale : Option Rat := if h.unit = 0 then some 1 else if h.unit = 1 then some S else m.speed.map fun v => S * (if v < 0 then -v else v)
  match scale with
  | none => []
  | some scale =>
    if !(fIsFinite f0 && fIsFinite df) then []
    else if h.type = 8 then
      if fToRat df = 0 then [] else
      let k := ((h.order : Rat) / S - fToRat f0) / fToRat df
      if k.den = 1 ∧ 0 ≤ k.num ∧ k < (len : Rat) then [k.num.toNat] else []
    else (List.range len).filter fun (k : Nat) =>
      let f := (fToRat f0 + (k : Rat) * fToRat df) * scale
      (if fIsInf (h.w 2) then bit (h.w 2) 31 else decide (fToRat (h.w 2) ≤ f)) &&
      (if fIsInf (h.w 3) then !bit (h.w 3) 31 else decide (f < fToRat (h.w 3))) && (h.type != 9 || decide (0 < f))

/-- An evaluation on a result of the Transform Engine (spec/08 R242–R244). -/
def State.readResult (s : State) (c : Nat) (h : SlotH) (tr : Trig) (hd : ResultHd) : EvMeta × EvRes × State :=
  let type := h.type
  let fl := hd.f 39 1
  let bad (i : Nat) : Bool := bit hd.pois i
  let qf := if bad 4 then 0 else resultQ fl + b2n (bit fl 0) + 2 * b2n (bit fl 1)
  if 11 ≤ type then
    let (m, r) := s.readTrack h qf (bad 4)
    (m, r, s)
  else
  let vw := s.viewH c h.view
  let tpois := !hd.isView && (s.trkH h.track).brec.pois
  -- a poisoned header word leaves its fields 0 in the record (DESIGN CHOICE, log entry 189; R245)
  let m : EvMeta := if hd.isView && !bad 1 then ⟨if fIsFinite (hd.f 16 4) && !bad 2 then some (fToRat (hd.f 16 4)) else none, if bad 4 then 0 else hd.f 38 1,
      if bad 0 then 0 else hd.f 0 8, hd.f 8 8, qf⟩
    else s.metaTrack h.track qf
  let fmt := hd.f 44 1; let op := hd.f 45 1; let len := hd.f 40 4
  let esz := if fmt = 0 then 8 else 4
  -- a header whose LEN reaches past the cluster's memory gives no entries there (DESIGN CHOICE, log entry 190; spec/02 R28)
  let ks := (h.entries vw m len (hd.f 24 4) (hd.f 20 4)).filter fun k => decide (tr.off + 64 + esz * (k + 1) ≤ 0x800000)
  let s := s.frdWork c ((ks.length + 15) / 16 * (if fmt = 0 then 2 else 1))
  let base := clusterBase c + tr.off + 64
  let (es, s) := ks.foldl (fun (acc : List (Nat × Nat × Bool) × State) k =>
    let ((w, p), s) := acc.2.rdMem (base + esz * k) esz
    (acc.1 ++ [(k, w, p)], s)) ([], s)
  let pois := poisonedAmong hd.pois (hd.used type) || tpois || es.any (·.2.2)
  let m := { m with qflags := qf ||| (if pois then 2 else 0) }
  let freq := fun (k : Nat) => fToRat (hd.f 24 4) + (k : Rat) * fToRat (hd.f 20 4)
  let ps := es.map fun e =>
    let d := entryDoubled op len e.1 tr.real (freq e.1)
    (e.1, freq e.1, entryPower fmt d e.2.1, d)
  let hz : Rat := (2 ^ vw.nlog : Nat) * (match m.speed with
    | some v => if v < 0 then -v else v
    | none => 0)
  let r : EvRes :=
    if pois then .bad 0x21
    else if fmt = 3 ∨ fmt = 4 ∨ op = 5 ∨ (type = 10 ∧ op ≠ 4) then .bad 0x27
    else if h.minq < m.tq % 8 then .bad 0x24
    else if h.unitsBad vw m ∨ (hd.isView ∧ hd.f 52 2 ≠ h.view + 512 * c) then .bad 0x25
    else if ks.isEmpty then .bad 0x26
    else if bit fl 0 && !bit (h.w 8) 1 then .bad 0x22
    else if m.speed.isNone || ps.any (·.2.2.1.isNone) then .bad 0x23
    else
      let v := specValue type ((hd.f 54 2 : Rat) / 256) hz (ps.map fun p => (p.1, p.2.1, p.2.2.1.getD 0, p.2.2.2))
      let v2 : Option Nat := if type = 8 then
          some (if fmt = 0 then
            let w := (es.headD (0, 0, false)).2.1
            phaseTurns (w % 2 ^ 32) (w / 2 ^ 32)
          else fNaN)
        else none
      if fIsFinite v then .ok v v2 else .bad 0x23
  (m, r, s)

/-- One evaluation's reads: meta fields and outcome, before the dual check. `hd` is the trigger's result header. -/
def State.slotRead (s : State) (c i : Nat) (tr : Trig) (hd : ResultHd) : EvMeta × EvRes × State :=
  match tr.view with
  | some (v, _, prod, _) => s.readView c (s.slotH c i) v prod
  | none => s.readResult c (s.slotH c i) tr hd

/-- A limit that an infinity disables. -/
def limitOf (w : Nat) : Option Rat := if fIsFinite w then some (fToRat w) else none
def geOpt (v : Rat) (l : Option Rat) (w : Nat) : Bool := match l with
  | some x => decide (x ≤ v)
  | none => bit w 31
def leOpt (v : Rat) (l : Option Rat) (w : Nat) : Bool := match l with
  | some x => decide (v ≤ x)
  | none => !bit w 31
def absR (x : Rat) : Rat := if x < 0 then -x else x

/-- The level pseudocode of spec/08 R246 for a value inside the gate: new level, pending direction, DSTART and target. `up` and `dn` give the limits in force. -/
def levelStep (h : SlotH) (v : Rat) (aHi dHi aLo dLo : Option Rat) (ws : Nat × Nat × Nat × Nat) (now : Nat) : Nat × Nat × Nat × Nat :=
  let lvl := if h.level = 3 then 0 else h.level
  let hy : Rat := (bits (h.w 8) 15 8 : Rat) / 256
  let dn (x : Option Rat) := x.map fun y => y - hy * absR y
  let up (x : Option Rat) := x.map fun y => y + hy * absR y
  let dHi := if lvl = 2 then dn dHi else dHi
  let dLo := if lvl = 2 then up dLo else dLo
  let aHi := if 1 ≤ lvl then dn aHi else aHi
  let aLo := if 1 ≤ lvl then up aLo else aLo
  let target := if geOpt v dHi ws.2.1 || leOpt v dLo ws.2.2.2 then 2 else if geOpt v aHi ws.1 || leOpt v aLo ws.2.2.1 then 1 else 0
  let dir := if target = lvl then 0 else if lvl < target then 1 else 2
  let delay := bits (h.w 8) 31 16
  if dir = 0 then (lvl, 0, h.dstart, target)
  else if delay = 0 then (target, 0, h.dstart, target)
  else if h.pend ≠ dir then (lvl, dir, now, target)
  else
    let el : Bool := if h.dunit then
        let d := toS 64 ((now + 2 ^ 64 - h.dstart % 2 ^ 64) % 2 ^ 64)
        decide (delay * 2 ^ 32 ≤ d.natAbs)
      else decide (delay * cyclesPerMs ≤ now - h.dstart)
    if el then (target, 0, h.dstart, target) else (lvl, h.pend, h.dstart, target)

/-- Ends an evaluation: level, maps, counts and the record (spec/08 R246, R247, R251). -/
def State.slotFinish (s : State) (c i : Nat) (m : EvMeta) (level pend dstart val val2 bin flags qf : Nat) (force : Bool) : State :=
  let h := s.slotH c i
  let changed := level != h.level
  let ev := h.evals + 1
  let s := s.setSlot c i { h with level := level, pend := pend, dstart := dstart, value := val, evals := ev }
  let s := if changed then s.slotChanged c i else s
  let s := s.slotMaps c i
  let el := bits (h.w 8) 7 4
  let emits := force || changed || (el != 15 && ev % 2 ^ el == 0)
  let st := level + 4 * b2n changed + flags + (if pend = 0 then 0 else 32)
  let s := if emits then s.frdRecord c i m st val val2 bin qf else s
  s.slotSync c i

/-- The speed bin of spec/08 R248. -/
def SlotH.bin (h : SlotH) (speed : Rat) : Nat :=
  let lo := fToRat (h.w 9); let hi := fToRat (h.w 10)
  min 63 (64 * (speed - lo) / (hi - lo)).floor.toNat

/-- Whether a speed lies in the slot's gate. -/
def SlotH.inGate (h : SlotH) (speed : Option Rat) : Bool :=
  match speed with
  | some v => decide (fToRat (h.w 9) ≤ v) && decide (v ≤ fToRat (h.w 10))
  | none => false

/-- An INVALID evaluation (spec/08 R244–R246). -/
def State.slotInvalid (s : State) (c i : Nat) (m : EvMeta) (code : Nat) (force : Bool) : State :=
  let h := s.slotH c i
  let bin := if h.inGate m.speed then h.bin (m.speed.getD 0) else 0xFF
  s.slotFinish c i m 3 0 h.dstart (gapValue code) fNaN bin 0 (m.qflags ||| (if code = 0x21 then 2 else 0)) force

/-- Reads a baseline bin; a poisoned or uncorrectable one is rewritten as zero and counted (spec/08 R250). -/
def State.blRead (s : State) (c a : Nat) : (Nat × Nat) × State :=
  let ((w, p), s) := s.rdMem64 a
  if p then ((0, 0), (s.wrMem a 8 0).errUncorr (pgFrd c)) else ((w % 2 ^ 32, bits w 47 32), s)

/-- Entry into FAULT (spec/08 R253): the queue, the trigger in service and a waiting command are discarded; the triggers queued are counted. -/
def State.frdFault (s : State) (c : Nat) : State :=
  let p := pgFrd c
  let f := s.frdH c
  let s := s.bump p 0x058 31 24 f.queue.length
  let s := if f.queue.isEmpty then s else s.irq p 18
  let s := ((s.setFrd c { f with queue := [], cur := none, diffs := [], cmd := none }).frdCount c).setB p 0x04C 31 false
  s.each (s.slotsOf c) fun s i =>
    let h := s.slotH c i
    let s := s.setSlot c i { h with level := 3, pend := 0, value := gapValue 0x2B }
    ((s.slotChanged c i).slotMaps c i).slotSync c i

/-- A difference between the two computations (spec/08 R253). -/
def State.frdDiffer (s : State) (c t : Nat) : State :=
  let p := pgFrd c
  let s := (s.bump p 0x058 15 8).irq p 19
  let f := s.frdH c
  let recent := t :: f.diffs.filter fun d => decide (t < d + 10 * cyclesPerMs)
  let s := s.setFrd c { f with diffs := recent }
  if 3 ≤ recent.length then (s.pageFault p 0x01).frdFault c else s

/-- An evaluation whose reads passed (spec/08 R244–R249): a used MEAN that is no number is NONFINITE, then a difference of the two computations, `diff`, is DUAL, else it is valid. -/
def State.slotValid (s : State) (c i : Nat) (m : EvMeta) (val : Nat) (val2 : Option Nat) (diff : Bool) : State :=
  let h := s.slotH c i
  let v := fToRat val
  if !h.inGate m.speed then
    if diff then (s.slotInvalid c i m 0x2B false).frdDiffer c s.now
    else s.slotFinish c i m h.level h.pend h.dstart val (val2.getD fNaN) 0xFF 16 m.qflags false
  else
    let b := h.bin (m.speed.getD 0)
    let a := clusterBase c + s.rd (pgFrd c) 0x044 + 512 * h.bli + 8 * b
    let ((mean, count), s) := if h.blEn then s.blRead c a else ((0, 0), s)
    let isReady := h.blEn && decide (bits (h.w 11) 7 0 ≤ count)
    let relA := bit (h.w 8) 3; let relD := bit (h.w 8) 2
    let aHi := if relA && isReady then some (fToRat mean * (bits (h.w 11) 31 24 : Rat) / 16) else limitOf (h.w 4)
    let dHi := if relD && isReady then some (fToRat mean * (bits (h.w 11) 23 16 : Rat) / 16) else limitOf (h.w 5)
    let (lvl, pend, ds, target) := levelStep h v aHi dHi (limitOf (h.w 6)) (limitOf (h.w 7)) (h.w 4, h.w 5, h.w 6, h.w 7) (if h.dunit then m.tpos else m.t)
    let learning := h.blEn && !isReady
    let learns := h.blEn && target == 0 && !bit (h.w 11) 11
    if !fIsFinite mean && (isReady || learns) then s.slotInvalid c i m 0x23 false
    else if diff then (s.slotInvalid c i m 0x2B false).frdDiffer c s.now
    else
    let s := if learns then
        let cnt := min 65535 (count + 1)
        let bk := bits (h.w 11) 15 12
        let mm := fToRat mean
        let new := if cnt ≤ 2 ^ bk then mm + (v - mm) / (cnt : Rat) else mm + (v - mm) / (2 ^ bk : Rat)
        s.wrMem a 8 (fOfRat new + cnt * 2 ^ 32)
      else s
    s.slotFinish c i m lvl pend ds val (val2.getD (if isReady then mean else fNaN)) b (8 * b2n learning) m.qflags false

/-- Reads a trigger's result header: 64 bytes at the result offset. -/
def State.resultHd (s : State) (c : Nat) (tr : Trig) : ResultHd × State :=
  match tr.view with
  | some _ => (⟨0, 0⟩, s)
  | none =>
    let (ls, s) := s.rdLanes 8 (clusterBase c + tr.off) none
    (⟨ls.foldr (fun q a => q.1 % 2 ^ 64 + 2 ^ 64 * a) 0, ls.zipIdx.foldl (fun m q => if q.1.2 then m + 2 ^ q.2 else m) 0⟩, s)

/-- The enabled slots a trigger evaluates, ascending (spec/08 R239, R240). -/
def State.slotsFor (s : State) (c : Nat) (tr : Trig) : List Nat :=
  (s.slotsOf c).filter fun i =>
    let h := s.slotH c i
    match tr.view with
    | some (v, _, _, seq) => h.byView && h.view == v && (seq + 1) % 2 ^ h.nblk == 0
    | none => !h.byView && h.group == tr.group

/-- Whether a block that the slots of a trigger read has been reopened since, or its view switched on anew (spec/08 R241). -/
def State.overrun (s : State) (c : Nat) (tr : Trig) (slots : List Nat) : Bool :=
  match tr.view with
  | none => false
  | some (v, gen, prod, _) =>
    let vw := s.viewH c v
    gen != vw.gen || slots.any fun i =>
      let first := prod + 2 ^ 32 - (2 ^ (s.slotH c i).nblk - 1)
      decide (2 ^ vw.ringLog < (vw.prod + 2 ^ 33 - first) % 2 ^ 32 + b2n vw.isOpen)

/-- Evaluates one slot of a trigger, the checks in the order of R244: `stop` is 0x29 for a dropped trigger or 0x28 for an overrun one, `diff` says that the two computations differ. -/
def State.slotEval (s : State) (c i : Nat) (tr : Trig) (hd : ResultHd) (stop : Option Nat) (diff : Bool) : State :=
  if s.faulted (pgFrd c) then s else
  let h := s.slotH c i
  let ((_, dbad), s) := s.rdMem (clusterBase c + s.rd (pgFrd c) 0x040 + 64 * i) 64
  let (m, r, s) := s.slotRead c i tr hd
  let s := s.frdWork c 44
  let force := stop == some 0x29
  if dbad || h.fault then (s.setSlot c i { s.slotH c i with fault := true }).slotInvalid c i m 0x2A force
  else match stop, r with
    | some code, _ => s.slotInvalid c i m code force
    | none, .bad code => s.slotInvalid c i m code false
    | none, .ok v v2 => s.slotValid c i m v v2 diff

/-- An idle FRD takes the oldest trigger (spec/08 R240, R241): with the slots enabled now, and the result header as it reads now. -/
def State.frdTake (s : State) (c : Nat) : State :=
  let f := s.frdH c
  if f.cur.isSome || !s.ready (pgFrd c) || s.frdSlice c then s else
  match f.queue with
  | [] => s
  | tr :: rest =>
    let (hd, s) := s.resultHd c tr
    let s := if tr.view.isNone then s.frdWork c 32 else s
    (s.setFrd c { s.frdH c with queue := rest, cur := some ⟨tr, s.slotsFor c tr, hd.v, hd.pois⟩ }).frdCount c

/-- Enters a trigger behind those of earlier cycles and those of its own cycle that go before it (spec/08 R240). -/
def trigInsert (tr : Trig) (q : List Trig) : List Trig :=
  let later := fun (x : Trig) => x.arrived == tr.arrived && decide (tr.rank < x.rank)
  q.filter (fun x => !later x) ++ tr :: q.filter later

/-- A trigger arrives (spec/08 R240, R253): queued, and taken at once by an idle FRD; dropped when the queue is full, each of its slots going INVALID with 0x29; in FAULT counted only. -/
def State.frdTrigger (s : State) (c : Nat) (tr : Trig) : State :=
  let p := pgFrd c
  if tr.view.isNone && tr.group == 0 then s
  else if s.faulted p && !s.retired p then (s.bump p 0x058 31 24).irq p 18
  else if !(s.ready p || s.busy p) || (s.pageH p).resetting then s
  else
    let f := s.frdH c
    if f.queue.length < 64 then ((s.setFrd c { f with queue := trigInsert tr f.queue }).frdCount c).frdTake c
    else
      let s := (s.bump p 0x058 31 24).irq p 18
      if !s.ready p then s else
      let (hd, s) := s.resultHd c tr
      s.each (s.slotsFor c tr) fun s i => s.slotEval c i tr hd (some 0x29) false

/-- TRIGGER_SERVICE (spec/08 R240–R253): the slots of the oldest trigger are evaluated in ascending order; `diffs` are the slots whose two computations differ. A result whose header bytes 0–39 read different after the last slot, or a view whose blocks were reopened, is an OVERRUN. -/
def triggerService (c t : Nat) (diffs : List Nat) (s : State) : State :=
  let s := s.upTo t
  if !s.ready (pgFrd c) || s.frdSlice c then s else
  let s := s.frdTake c
  match (s.frdH c).cur with
  | none => s
  | some q =>
    let hd : ResultHd := ⟨q.hd, q.pois⟩
    let go := fun (stop : Option Nat) (s : State) => s.each q.slots fun s i => s.slotEval c i q.tr hd stop (diffs.contains i)
    let isOver := s.overrun c q.tr q.slots
    let s1 := go (if isOver then some 0x28 else none) s
    let (hd2, s1) := s1.resultHd c q.tr
    let changed := q.tr.view.isNone && hd2.v % 256 ^ 40 != q.hd % 256 ^ 40
    let s := if changed then go (some 0x28) s else s1
    let s := if (isOver || changed) && !q.slots.isEmpty then (s.bump (pgFrd c) 0x058 23 16).irq (pgFrd c) 18 else s
    let s := if q.slots.isEmpty then s else s.raiseMax (pgFrd c) 0x05C 31 0 (t - q.tr.arrived)
    (s.setFrd c { s.frdH c with cur := none }).frdTake c

/-- What the end of a self-test slice lets go on: a command that waited, then the next trigger (spec/08 R254). -/
def State.frdSliceEnd (s : State) (c : Nat) : State :=
  if !s.ready (pgFrd c) || s.frdSlice c then s else
  let s := match (s.frdH c).cmd with
    | some (op, idx) => s.frdExecute c op idx
    | none => s
  s.frdTake c

/-- A self-test pass: every enabled slot restarts at INVALID with 0x20 (spec/08 R253). -/
def State.frdRecovered (s : State) (c : Nat) : State :=
  s.each (s.slotsOf c) fun s i =>
    let h := s.slotH c i
    ((s.setSlot c i { h with level := 3, pend := 0, value := gapValue 0x20 }).slotMaps c i).slotSync c i

/-- Power lost or RESET: every slot OFF, the queue empty; descriptors are kept (spec/08 R255). -/
def State.frdClear (s : State) (c : Nat) : State :=
  let s := s.each (s.slotsOf c) fun s i => [0x200, 0x400, 0x600, 0x800, 0xA00].foldl (fun s o => s.setB (pgFrd c) (o + 4 * (i / 32)) (i % 32) false) (s.setSlot c i {})
  ((s.setFrd c { cplx := (s.frdH c).cplx }).frdCount c).setB (pgFrd c) 0x04C 31 false

end Sys2Proof.Machine
end

