-- ==== Sys2Proof/Machine/TileQ.lean ====
section
/-! DEFINITION. A tile's release queue and mailbox, and where the work of a moved tile stands (spec/10 R286, R300, R311, R312; spec/03 R92). -/

namespace Sys2Proof.Machine

def State.tileH (s : State) (t : Nat) : TileH := sget (fun _ => {}) s.tiles t
def State.setTile (s : State) (t : Nat) (h : TileH) : State := { s with tiles := sput (fun _ => {}) t h s.tiles }

/-- The tile that carries the work addressed to tile `t` (spec/10 R311, R313). -/
def State.workTile (s : State) (t : Nat) : Nat := ((s.tileH t).movedTo).getD t

/-- The lowest READY tile of a cluster with ROLE = SPARE (spec/10 R311). -/
def State.readySpare (s : State) (t : Nat) : Option Nat :=
  ((List.range 8).map (t / 8 * 8 + ·)).find? fun q => q != t && s.ready (pgTile q) && s.getB (pgTile q) 0x040 29

/-- RQ and mailbox counts as their registers show them. -/
def State.tileQCounts (s : State) (t : Nat) : State :=
  let h := s.tileH t
  let s := s.setFld (pgTile t) 0x080 5 0 h.rq.length
  let s := s.setFld (pgTile t) 0x098 4 0 h.mbox.length
  s.wr64 (pgTile t) 0x070 (match h.rq with
    | e :: _ => e.w0.toNat
    | [] => 0)

/-- A release entry for tile `t` (spec/03 R92, spec/07 R221): answers whether it entered the queue of 32. A retired tile whose work no spare can take drops it and counts (spec/10 R312). -/
def State.relPush (s : State) (t : Nat) (e : RelEntry) (irq : Bool) : Bool × State :=
  let w := s.workTile t
  if s.retired (pgTile w) && (!(s.tileH w).work || (s.readySpare w).isNone) then (false, s.bump (pgTile w) 0x080 31 16)
  else
    let h := s.tileH w
    if 32 ≤ h.rq.length then (false, s)
    else (true, (s.setTile w { h with rq := h.rq ++ [e], relIrq := h.relIrq || irq }).tileQCounts w)

/-- Removes the head release entry. -/
def State.relPop (s : State) (t : Nat) : Option RelEntry × State :=
  let h := s.tileH t
  match h.rq with
  | e :: rest => (some e, (s.setTile t { h with rq := rest }).tileQCounts t)
  | [] => (none, s)

/-- Appends a word to the mailbox of 16; a full one drops it and counts. -/
def State.mboxPush (s : State) (t v : Nat) (p : Bool) : State :=
  let w := s.workTile t
  let h := s.tileH w
  if 16 ≤ h.mbox.length then s.bump (pgTile w) 0x098 31 16
  else
    let s := if h.mbox.isEmpty then s.irq (pgTile w) 21 else s
    (s.setTile w { h with mbox := h.mbox ++ [(v % 2 ^ 64, p)] }).tileQCounts w

def State.mboxPop (s : State) (t : Nat) : Option (Nat × Bool) × State :=
  let h := s.tileH t
  match h.mbox with
  | e :: rest => (some e, (s.setTile t { h with mbox := rest }).tileQCounts t)
  | [] => (none, s)

end Sys2Proof.Machine
end

