-- ==== Sys2Proof/Machine/Tfe.lean ====
section
/-! DEFINITION. The Transform Engine (spec/07): submissions, the descriptor, inputs, results, averages, queues, the sum-check's outcomes and the partner. -/

namespace Sys2Proof.Machine

def State.tfeH (s : State) (c : Nat) : TfeH := sget (fun _ => {}) s.tfe c
def State.setTfe (s : State) (c : Nat) (h : TfeH) : State := { s with tfe := sput (fun _ => {}) c h s.tfe }
def partner (c : Nat) : Nat := c ^^^ 1

/-- TFE_STATE.ESTATE (spec/07 R229). -/
def State.estate (s : State) (c : Nat) : Nat := s.fld (pgTfe c) 0x04C 2 0
/-- What an engine with no job shows: TEST where a requested pass waits for it or runs, else IDLE (spec/07 R232, spec/17 R476). -/
def State.tfeIdleState (s : State) (c : Nat) : Nat := if (s.bistH (pgBistC c)).req.any fun r => r.1 == 8 && r.2.1 == c then 4 else 1
def State.setEstate (s : State) (c v : Nat) : State := s.setFld (pgTfe c) 0x04C 2 0 v

/-- TFE_QSTAT of both engines of a pair and HOSTING follow the queues. -/
def State.tfeShow1 (s : State) (c : Nat) : State :=
  let h := s.tfeH c; let g := s.tfeH (partner c)
  let own := if h.hosted then 0 else h.hiQ.length * 2 ^ 24 + h.noQ.length * 2 ^ 16
  let host := if g.hosted then g.hiQ.length * 2 ^ 8 + g.noQ.length else 0
  (s.wr (pgTfe c) 0x050 (own + host)).setB (pgTfe c) 0x04C 8 g.hosted
def State.tfeShow (s : State) (c : Nat) : State := (s.tfeShow1 c).tfeShow1 (partner c)

/-! The descriptor (spec/07 R205–R208). -/

/-- Descriptor fields from the clamped words. -/
def jOp (w : List Nat) : Nat := bits (w.getD 0 0) 31 28
def jLogN (w : List Nat) : Nat := bits (w.getD 0 0) 27 23
def jWin (w : List Nat) : Nat := bits (w.getD 0 0) 22 20
def jReal (w : List Nat) : Bool := bit (w.getD 0 0) 19
def jAvg (w : List Nat) : Nat := bits (w.getD 0 0) 18 16
def jFmt (w : List Nat) : Nat := bits (w.getD 0 0) 15 13
def jGapz (w : List Nat) : Bool := bit (w.getD 0 0) 12
def jView (w : List Nat) (i : Nat) : Bool := bits (w.getD i 0) 31 30 == 1
def jArg (w : List Nat) (i : Nat) : Nat := bits (w.getD i 0) 22 0
def jNavg (w : List Nat) : Nat := bits (w.getD 5 0) 15 0
def jDec (w : List Nat) : Nat := bits (w.getD 9 0) 11 8
def jMlog (w : List Nat) : Nat := bits (w.getD 9 0) 4 0
def jDst (w : List Nat) : Nat := bits (w.getD 4 0) 22 0
def jAcc (w : List Nat) : Nat := bits (w.getD 6 0) 22 0
def jTag (w : List Nat) : Nat := w.getD 10 0
def jDone (w : List Nat) : Nat := w.getD 11 0
def jHigh (w : List Nat) : Bool := bit (jDone w) 16

/-- Samples a job reads from each input (spec/07 R207). -/
def inLen (op logN avg navg dec : Nat) : Nat :=
  match op with
  | 0 => 0
  | 1 => if avg = 4 then 2 ^ logN * navg else 2 ^ logN
  | 3 => 2 ^ logN * 2 ^ dec
  | _ => 2 ^ logN

/-- Result entries of a job (spec/07 R207). -/
def outLen (op logN mlog : Nat) (real : Bool) (fmt : Nat) : Nat :=
  match op with
  | 0 => 0
  | 1 => if fmt = 3 then 2 ^ logN else if real then 2 ^ logN / 2 + 1 else 2 ^ logN
  | 2 | 3 | 7 => 2 ^ logN
  | 4 => 2 ^ mlog / 2 + 1
  | _ => 2 ^ logN / 2 + 1

/-- Bytes of an entry (spec/07 R210). -/
def entrySize (fmt : Nat) : Nat := if fmt = 0 then 8 else if fmt = 4 then 16 else 4

/-- A binary32 parameter clamped between two rational bounds; NaN is zero first (spec/07 R206, R208). -/
def fClampRat (lo hi : Rat) (v : Nat) : Nat :=
  let v := if fIsNaN v then 0 else v
  if fIsInf v then (if bit v 31 then fOfRat lo else fOfRat hi)
  else if fToRat v < lo then fOfRat lo else if hi < fToRat v then fOfRat hi else v

/-- The twelve descriptor words as a submission clamps them (spec/07 R205–R208). -/
def jobClamp (w : List Nat) : List Nat :=
  let g := fun i => w.getD i 0
  let o := g 0
  let op := if 8 ≤ bits o 31 28 then 0 else bits o 31 28
  let logN := clampTo 6 16 (bits o 27 23)
  let win := if bits o 22 20 = 7 then 0 else bits o 22 20
  let kindA := if 2 ≤ bits (g 1) 31 30 then 0 else bits (g 1) 31 30
  let kindB := if 2 ≤ bits (g 2) 31 30 then 0 else bits (g 2) 31 30
  let real := if kindA = 1 then true else bit o 19
  let avg := if 5 ≤ bits o 18 16 then 0 else bits o 18 16
  let avg := if avg = 4 ∧ ¬(op = 1 ∧ kindA = 1) then 0 else avg
  let avg := if op = 6 ∧ avg ≠ 1 ∧ avg ≠ 2 then 1 else avg
  let navg0 := bits (g 5) 15 0
  let avg := if navg0 = 0 ∧ (avg = 1 ∨ avg = 4) then 0 else avg
  let navg := if avg = 4 then min 1024 navg0 else navg0
  let f := bits o 15 13
  let fmt := match op with
    | 0 => f
    | 1 => if f ≤ 2 then f else if f = 3 ∧ avg = 4 then 3 else 2
    | 2 => 0
    | 3 | 7 => if f ≤ 2 then f else 2
    | 4 => if f = 1 ∨ f = 2 then f else 2
    | 5 => 3
    | _ => 4
  let fmt := if avg = 3 ∧ fmt = 0 then 2 else fmt
  let n : Rat := (2 ^ logN : Nat)
  let pw := g 9
  let beta := min 160 (bits pw 31 24)
  let dec := if op = 3 then clampTo 1 10 (bits pw 11 8) else bits pw 11 8
  let mlog := if op = 4 then clampTo 6 logN (bits pw 4 0) else bits pw 4 0
  let lin := inLen op logN avg navg dec
  let inB := lin * (if op ≠ 2 ∧ real then 4 else 8)
  let arg := fun (kind v : Nat) => if kind = 1 then v % 512 else fitOffset v inB
  let p0 := if op = 3 then fClampRat (-1 / 2) (1 / 2) (g 7) else if op = 4 then fClampRat (1 / n) (1 / 2 - 2 / n) (g 7)
    else if fIsNaN (g 7) then 0 else g 7
  let m : Rat := (2 ^ mlog : Nat)
  let p1 := if op = 4 then
      let lo := fToRat p0 + 1 / n
      let hi := if fToRat p0 + (m - 1) / n < 1 / 2 - 1 / n then fToRat p0 + (m - 1) / n else 1 / 2 - 1 / n
      fClampRat lo hi (g 8)
    else if fIsNaN (g 8) then 0 else g 8
  let kOut := outLen op logN mlog real fmt
  let resB := 64 + kOut * entrySize fmt
  [ op * 2 ^ 28 + logN * 2 ^ 23 + win * 2 ^ 20 + b2n real * 2 ^ 19 + avg * 2 ^ 16 + fmt * 2 ^ 13 + b2n (bit o 12) * 2 ^ 12,
    kindA * 2 ^ 30 + arg kindA (g 1), kindB * 2 ^ 30 + arg kindB (g 2), g 3,
    bits (g 4) 31 25 * 2 ^ 25 + fitOffset (g 4) resB,
    bits (g 5) 19 16 * 2 ^ 16 + navg,
    bits (g 6) 31 31 * 2 ^ 31 + fitOffset (g 6) resB,
    p0, p1, beta * 2 ^ 24 + dec * 2 ^ 8 + mlog, g 10,
    bits (g 11) 16 16 * 2 ^ 16 + bits (g 11) 15 8 * 2 ^ 8 + bits (g 11) 4 0 ]

/-- The reserved bits of the software-written words removed: what a clamp is judged against. -/
def jobMask (w : List Nat) : List Nat :=
  let g := fun i => w.getD i 0
  [ g 0 / 2 ^ 12 * 2 ^ 12, setBits (g 1) 29 23 0, setBits (g 2) 29 23 0, g 3, setBits (g 4) 24 23 0, bits (g 5) 19 0, setBits (g 6) 30 23 0,
    g 7, g 8, bits (g 9) 31 24 * 2 ^ 24 + bits (g 9) 11 8 * 2 ^ 8 + bits (g 9) 4 0, g 10,
    bits (g 11) 16 8 * 2 ^ 8 + bits (g 11) 4 0 ]

/-! Submission (spec/07 R201–R204). -/

/-- Writes STATUS and STATE = 3 of a refused job. -/
def State.jobRefuse (s : State) (a status : Nat) : State := s.wrMem (a + 62) 2 (status + 3 * 256)

/-- Enters a job behind those of earlier cycles and those of its own cycle that go before it (spec/07 R202). -/
def jobInsert (j : TfeJob) (q : List TfeJob) : List TfeJob :=
  let later := fun (x : TfeJob) => x.arrived == j.arrived && decide (j.rank < x.rank)
  q.filter (fun x => !later x) ++ j :: q.filter later

/-- A submission word reaches the engine of cluster `c` (spec/07 R203, R204, R230). -/
def State.tfeSubmit (s : State) (c word : Nat) (rank : Nat := 1000) : State :=
  let p := pgTfe c
  let desc := bits word 22 6 * 64
  let a := clusterBase c + desc
  let ((st, _), s) := s.rdMem (a + 63) 1
  if st = 1 ∨ st = 2 then (s.bump p 0x06C 23 16).irq p 19
  else
    let ((dv, bad), s) := s.rdMem a 48
    if bad then (s.jobRefuse a 0x08).errPoison p
    else
      let w := toWords 12 dv
      let w' := jobClamp w
      let s := s.wrMem a 48 (ofWords w')
      let s := if w' != jobMask w then s.clampCount p 0x040 0 else s
      let q := partner c
      if s.retired p && s.retired (pgTfe q) then s.jobRefuse a 0x07
      else if !s.ready p && !s.busy p && !s.faulted p && !s.retired p then s.jobRefuse a 0x09
      else
        let h := s.tfeH c
        let hi := jHigh w'
        if 64 ≤ (if hi then h.hiQ else h.noQ).length then ((s.jobRefuse a 0x05).bump p 0x06C 31 24).irq p 19
        else
          let s := s.wrMem (a + 63) 1 1
          let j : TfeJob := { desc := desc, words := w', arrived := s.now, rank := rank }
          (s.setTfe c (if hi then { h with hiQ := jobInsert j h.hiQ } else { h with noQ := jobInsert j h.noQ })).tfeShow c

/-! Starting a job (spec/07 R214–R216, R224). -/

/-- The engine was idle up to cycle `b`: the millisecond that its last work falls in has ended, and idle ones may follow. -/
def State.tfeIdleTo (s : State) (c b : Nat) : State :=
  let h := s.tfeH c
  let ms := b / cyclesPerMs
  if ms ≤ h.work.1 then s
  else
    let load := min 1000 (h.work.2 / 3000)
    let s := (s.setFld (pgTfe c) 0x054 15 0 (if h.work.1 + 1 = ms then load else 0)).raiseMax (pgTfe c) 0x054 31 16 load
    s.setTfe c { s.tfeH c with work := (ms, 0) }

/-- The busy cycles of the milliseconds that have ended, for TFE_LOAD: `a` and `b` bound the running job's part not yet counted. -/
def State.tfeBusy (s : State) (c a b : Nat) : State :=
  let h := s.tfeH c
  let msA := a / cyclesPerMs
  let msB := b / cyclesPerMs
  let close := fun (s : State) (busy : Nat) =>
    let load := min 1000 (busy / 3000)
    (s.setFld (pgTfe c) 0x054 15 0 load).raiseMax (pgTfe c) 0x054 31 16 load
  if msA = msB then s.setTfe c { h with work := (msB, h.work.2 + (b - a)) }
  else
    -- the millisecond of `a` ends, whole ones follow, that of `b` has begun
    let s := close s (h.work.2 + ((msA + 1) * cyclesPerMs - a))
    let s := if msA + 1 < msB then close s cyclesPerMs else s
    s.setTfe c { s.tfeH c with work := (msB, b - msB * cyclesPerMs) }

/-- TFE_LOAD as of now (spec/07, further registers): the share of the last whole millisecond that the engine was busy, a job that runs counted to the present. -/
def State.tfeSettle (s : State) (c : Nat) : State :=
  let h := s.tfeH c
  match h.run with
  | some r =>
    let a := max r.t0 h.counted
    let s := if h.work.1 < a / cyclesPerMs then s.tfeIdleTo c a else s
    let s := s.tfeBusy c a (max a s.now)
    s.setTfe c { s.tfeH c with counted := max a s.now }
  | none => s.tfeIdleTo c s.now

/-- The queues return to their own engine once it is READY again, at the host's job boundary (spec/07 R229). -/
def State.tfeReturn (s : State) (c : Nat) : State :=
  let h := s.tfeH c
  if h.hosted && h.ret then ((s.setTfe c { h with hosted := false, ret := false }).irq (pgTfe c) 18).tfeShow c else s

/-- Steps 4 and 5 of a job's end: descriptor bytes 48–62, STATE = 3, the release entry (spec/07 R220, R221); a job that completes OK also clears bit 31 of ACC in the descriptor (R213). -/
def State.jobEnd (s : State) (home engine : Nat) (r : TfeRun) (status cycles energy flags : Nat) : State :=
  let w := r.job.words
  let a := clusterBase home + r.job.desc
  let e := s.tfeH engine
  let serial := if status = 1 then (e.serial + 1) % 2 ^ 32 else e.serial
  let s := s.setTfe engine { e with serial := serial }
  let s := if status = 1 then
      let ((v, _), s) := s.rdMem (a + 27) 1
      s.wrMem (a + 27) 1 (v % 128)
    else s
  let s := s.wrMem (a + 48) 15 (energy + cycles % 2 ^ 32 * 2 ^ 32 + serial * 2 ^ 64 + flags * 2 ^ 96 + r.tq * 2 ^ 104 + status * 2 ^ 112)
  let s := s.wrMem (a + 63) 1 3
  let dn := jDone w
  if bit dn 3 then
    let w0 := jTag w % 2 ^ 32 + (r.tpos0 % 2 ^ 32) * 2 ^ 32
    let w1 := (r.tpos0 / 2 ^ 32) % 2 ^ 32 + 0xFF * 2 ^ 32 + r.tq * 2 ^ 40 + status * 2 ^ 48 + flags * 2 ^ 56
    let (ok, s) := s.relPush (8 * home + dn % 8) ⟨BitVec.ofNat 64 w0, BitVec.ofNat 64 w1⟩ (bit dn 4)
    if ok then s else (s.bump (pgTfe home) 0x06C 7 0).irq (pgTfe home) 21
  else s

/-- A requested pass that has waited for the engine to be IDLE begins (spec/17 R476, R477). -/
def State.passBegins (s : State) (c : Nat) : State :=
  let h := s.bistH (pgBistC c)
  if h.req.isEmpty then s
  else s.setBist (pgBistC c) { h with req := h.req.map fun r => if r.1 = 8 ∧ r.2.1 = c then (r.1, r.2.1, s.now) else r }

/-- Leaves the running job: the engine is IDLE, its time is counted, hosted queues that wait return. -/
def State.tfeIdle (s : State) (c : Nat) : State :=
  let s := s.tfeSettle c
  let s := s.setTfe c { s.tfeH c with run := none }
  let s := if s.ready (pgTfe c) then (s.setEstate c (s.tfeIdleState c)).passBegins c else s
  (s.tfeReturn (partner c)).tfeReturn c

/-- What loading an input finds: the values, their poison, the gap values replaced; or the status and reason that end the job. -/
inductive LoadRes where
  | ok (r : TfeRun)
  | fail (status reason : Nat)
  deriving DecidableEq, Repr

/-- Values of `n` 32-bit words of a buffer. -/
def State.readWords (s : State) (a n : Nat) : List (Nat × Bool) × State :=
  let (ls, s) := s.rdLanes ((n + 1) / 2) a none
  ((ls.flatMap fun q => [(q.1 % 2 ^ 32, q.2), (q.1 / 2 ^ 32 % 2 ^ 32, q.2)]).take n, s)

/-- Values checked against R216 reasons 3 and 4: gap values replaced by 0.0 under GAPZ. -/
def screen (gapz : Bool) (l : List (Nat × Bool)) : Option (List Nat × Nat) × Nat :=
  if l.any fun x => !fIsFinite x.1 && !isGapValue x.1 then (none, 4)
  else
    let n := (l.filter fun x => isGapValue x.1).length
    if n ≠ 0 ∧ !gapz then (none, 3) else (some (l.map fun x => if isGapValue x.1 then 0 else x.1, n), 0)

/-- The blocks of a view that a job reads, `n` of them from index `first`; EARLY when one has not completed, OVERRUN when one has been reopened (spec/07 R214, R215). -/
def blockStatus (h : ViewH) (first n : Nat) : Nat :=
  if h.prod < first + n then 4 else if 2 ^ h.ringLog < h.prod + b2n h.isOpen - first then 3 else 1

/-- Loads a job's inputs (spec/07 R214–R217); a rerun reads the blocks that the job took at its start, and a new generation overruns it (R229). -/
def State.jobLoad (s : State) (home : Nat) (r : TfeRun) : LoadRes × State :=
  let w := r.job.words
  let op := jOp w
  if op = 0 then (.ok r, s) else
  let lin := inLen op (jLogN w) (jAvg w) (jNavg w) (jDec w)
  let two := op = 6 ∨ op = 7
  -- under TSA with FMT TIME an entry depends on its own samples alone, and no window is used (R213, R218)
  let isTime := jAvg w == 4 && jFmt w == 3
  let (uw, upois, s) := if jWin w = 6 then
      let (l, s) := s.readWords (clusterBase home + s.rd (pgTfe home) 0x044) 4096
      (l.map (·.1), l.any (·.2), s)
    else ([], false, s)
  if (op = 2 ∧ (jReal w ∨ jView w 1)) ∨ (two ∧ jView w 1 ≠ jView w 2) then (.fail 2 2, s)
  else if jView w 1 then
    let va := s.viewH home (jArg w 1 % 512)
    let vb := s.viewH home (jArg w 2 % 512)
    if !va.on || (two && !vb.on) then (.fail 2 1, s)
    else if jAvg w = 4 ∧ (va.grid ∨ va.nlog ≠ jLogN w) then (.fail 2 2, s)
    else
      let nb := (lin + va.len - 1) / va.len
      let latest := bit (w.getD 3 0) 31
      let again := r.nblk != 0
      if again && r.gens != (va.gen, vb.gen) then (.fail 3 0, s)
      else if !again && latest && va.prod < nb then (.fail 4 0, s) else
      let first := if again then r.first else if latest then va.prod - nb else bits (w.getD 3 0) 30 0
      let st := blockStatus va first nb
      if st ≠ 1 then (.fail st 0, s) else
      let (bl, s) := s.readBlocks home va first nb
      let hb := fun (b lo n : Nat) => (b / 256 ^ lo) % 256 ^ n
      let hds := bl.map (·.1)
      let b0 := hds.headD 0
      let xs := (bl.flatMap fun b => b.2.2).take lin
      let tpos0 := hb b0 0 8
      -- input B: the completed blocks, still whole in the ring, that begin at the TPOS0 of A's first block
      let nbB := (lin + vb.len - 1) / vb.len
      let firstB := if again && two then some (vb.prod - 1 - r.firstB) else if two then
          (List.range (min vb.prod (2 ^ vb.ringLog - b2n vb.isOpen))).find? fun i => s.peek (vb.slotAddr home (vb.prod - 1 - i)) 8 == tpos0
        else some 0
      match firstB with
      | none => (.fail 2 5, s)
      | some i =>
        let fb := vb.prod - 1 - i
        let stB := if two then blockStatus vb fb nbB else 1
        if stB ≠ 1 then (.fail stB 0, s) else
        let (blB, s) := if two then s.readBlocks home vb fb nbB else ([], s)
        let ys := (blB.flatMap fun b => b.2.2).take lin
        -- what the track carries into the result, over the blocks of both inputs (R217)
        let all := hds ++ blB.map (·.1)
        let fl := all.foldl (fun a b => a ||| hb b 33 1) 0
        let rates := all.map fun b => hb b 16 4
        let rate := if rates.all fIsFinite then fOfRat ((rates.foldl (fun a r => a + fToRat r) 0) / (all.length : Rat)) else fNaN
        match screen (jGapz w) xs, screen (jGapz w) ys with
        | (some (a, n), _), (some (b, m), _) =>
          (.ok { r with
            a := a, b := b, uw := uw, ngap := n + m, first := first, firstB := fb, nblk := nb, gens := (va.gen, vb.gen),
            pois := !isTime && (upois || xs.any (·.2) || ys.any (·.2)),
            pidx := if isTime then ((xs.zipIdx.filter (·.1.2)).map fun q => q.2 % 2 ^ jLogN w).eraseDups else [],
            hpois := bl.any (fun q => q.2.1 != 0) || blB.any (fun q => q.2.1 != 0),
            tpos0 := tpos0, tt0 := hb b0 8 8, rate := rate, tq := tqAllOf (all.map fun b => hb b 32 1),
            flags := (if bit fl 2 || bit fl 3 then 32 else 0) + (if bit fl 5 then 64 else 0), seq0 := hb b0 24 4 }, s)
        | (none, x), _ => (.fail 2 x, s)
        | _, (none, x) => (.fail 2 x, s)
  else
    let words := if op ≠ 2 ∧ jReal w then lin else 2 * lin
    let (xs, s) := s.readWords (clusterBase home + jArg w 1) words
    let (ys, s) := if two then s.readWords (clusterBase home + jArg w 2) words else ([], s)
    match screen (jGapz w) xs, screen (jGapz w) ys with
    | (some (a, n), _), (some (b, m), _) =>
      (.ok { r with a := a, b := b, uw := uw, ngap := n + m, pois := upois || xs.any (·.2) || ys.any (·.2) }, s)
    | (none, x), _ => (.fail 2 x, s)
    | _, (none, x) => (.fail 2 x, s)

/-- Ends the running job without a result (spec/07 R215, R216). -/
def State.jobFail (s : State) (c home : Nat) (r : TfeRun) (status reason : Nat) : State :=
  let s := if status = 3 then s.bump (pgTfe home) 0x06C 15 8 else s
  (s.jobEnd home c r status reason 0 ((if r.hosted then 8 else 0) + (if r.retry || r.job.reran then 4 else 0))).tfeIdle c

/-- Loads the inputs of a job that starts or reruns at the present cycle; the load takes one cycle a line, four when hosted (spec/07 R235). -/
def State.jobBegin (s : State) (c home : Nat) (r : TfeRun) : State :=
  match s.jobLoad home r with
  | (.fail st reason, s) => s.jobFail c home r st reason
  | (.ok r, s) =>
    let cyc := ((r.a.length + r.b.length + 15) / 16 + r.nblk) * (if r.hosted then 4 else 1)
    s.setTfe c { s.tfeH c with run := some { r with overran := false, loadEnd := s.now + 224 + cyc } }

/-- Removes the head of a queue. -/
def State.tfeTake (s : State) (home : Nat) (hi : Bool) : Option TfeJob × State :=
  let h := s.tfeH home
  match (if hi then h.hiQ else h.noQ) with
  | [] => (none, s)
  | j :: rest => (some j, s.setTfe home (if hi then { h with hiQ := rest } else { h with noQ := rest }))

/-- The queue an idle engine takes from: HIGH before NORMAL, own and hosted in turn (spec/07 R224); the partner's memory stalls hosted jobs while its CLU page is not READY (spec/02 R54). -/
def State.tfePick (s : State) (c : Nat) : Option (Bool × Bool) :=
  let h := s.tfeH c; let g := s.tfeH (partner c)
  let has := fun (hosted hi : Bool) =>
    if hosted then g.hosted && s.ready (pgClu (partner c)) && !(if hi then g.hiQ else g.noQ).isEmpty
    else !h.hosted && !(if hi then h.hiQ else h.noQ).isEmpty
  let a := h.turn.1
  let b := h.turn.2
  if has a true then some (a, true) else if has (!a) true then some (!a, true)
  else if has b false then some (b, false) else if has (!b) false then some (!b, false) else none

/-- An idle engine finds its hosted jobs held by their cluster's memory: the job it would take is counted there, once (spec/02 CLU_STALLS). -/
def State.hostedHeld (s : State) (c : Nat) : State :=
  let q := partner c
  let g := s.tfeH q
  if !g.hosted || s.ready (pgClu q) then s
  else match g.hiQ, g.noQ with
    | j :: rest, _ => if j.held then s else (s.setTfe q { g with hiQ := { j with held := true } :: rest }).bump (pgClu q) 0x048 31 16
    | [], j :: rest => if j.held then s else (s.setTfe q { g with noQ := { j with held := true } :: rest }).bump (pgClu q) 0x048 31 16
    | [], [] => s

/-- JOB_START (spec/07 R214–R216, R224, R225): an idle engine whose last stream cells have left takes the next job. -/
def jobStart (c t : Nat) (s : State) : State :=
  let s := s.upTo t
  let h := s.tfeH c
  let sent := match h.sending with
    | some key => (s.queue key).isEmpty || (s.entryOf key).isNone
    | none => true
  let slice := (s.bistH (pgBistC c)).held.any fun w => w.unit == 8 && decide (w.t + 10 * cyclesPerMs ≤ t)
  if !s.ready (pgTfe c) || s.estate c ≠ 1 || !sent || slice then s else
  match s.tfePick c with
  | none => s.hostedHeld c
  | some (hosted, hi) =>
    let home := if hosted then partner c else c
    match s.tfeTake home hi with
    | (none, s) => s
    | (some j, s) =>
      let h := s.tfeH c
      let s := (s.tfeSettle c).setTfe c { (s.tfeSettle c).tfeH c with
        turn := if hi then (!hosted, h.turn.2) else (h.turn.1, !hosted), sending := none }
      let s := (s.tfeShow c).setEstate c 2
      let s := s.wrMem (clusterBase home + j.desc + 63) 1 2
      let s := if hi then s.raiseMax (pgTfe c) 0x070 31 0 (t - j.arrived) else s
      s.jobBegin c home { job := j, hosted := hosted, hi := hi, t0 := t }

/-- The Angle Resampler opens block `idx` of a view of cluster `home`: a job still loading a block of the same slot is overrun (spec/07 R215); `all` marks a new generation. -/
def State.tfeReopened (s : State) (home v idx : Nat) (all : Bool) : State :=
  s.each [home, partner home] fun s c =>
    let h := s.tfeH c
    match h.run with
    | none => s
    | some r =>
      let w := r.job.words
      let mine := (if r.hosted then partner c else c) == home
      let hit := fun (i first : Nat) => jView w i && jArg w i == v &&
        (all || (decide (first + 2 ^ (s.viewH home v).ringLog ≤ idx) && decide (idx < first + r.nblk + 2 ^ (s.viewH home v).ringLog)))
      let two := jOp w == 6 || jOp w == 7
      if mine && decide (s.now ≤ r.loadEnd) && jOp w != 0 && (hit 1 r.first || (two && hit 2 r.firstB)) then
        s.setTfe c { h with run := some { r with overran := true } }
      else s

/-! Results (spec/07 R210–R220). -/

/-- BETA of a Kaiser window. -/
def jBeta (w : List Nat) : Nat := bits (w.getD 9 0) 31 24

/-- The length the window spans: the last real transform's for ENVELOPE, else N (spec/07 R207, R209). -/
def jWinLen (w : List Nat) : Nat := if jOp w = 4 then 2 ^ jMlog w else 2 ^ jLogN w

/-- The window's values over its length. -/
def jWindow (w uw : List Nat) : List Rat := winValues (jWin w) (jBeta w) (uw.map fToRat) (jWinLen w)

/-- A window that can be normalised: all numbers, and no zero sum. -/
def jWinOk (w uw : List Nat) : Bool := (jWin w != 6 || uw.all fIsFinite) && sumRat (jWindow w uw) != 0

/-- A window that is all numbers and not all zero: R212's ENERGY needs no more. -/
def jWinNum (w uw : List Nat) : Bool := (jWin w != 6 || uw.all fIsFinite) && sumRat ((jWindow w uw).map fun x => x * x) != 0

/-- ENBW × 256 of the window used, to the nearest (spec/07 R211). -/
def jEnbw (w uw : List Nat) : Nat :=
  match jWin w with
  | 0 => 256
  | 1 => 384
  | 2 => 349
  | 3 => 965
  | 4 => 513
  | _ =>
    if jWinOk w uw then
      let ws := jWindow w uw
      (ratNearest (256 * (jWinLen w : Rat) * sumRat (ws.map fun x => x * x) / (sumRat ws * sumRat ws))).toNat % 2 ^ 16
    else (Config.tfeEnbw w uw).toNat

/-! The transforms (spec/07 R207–R212). -/

/-- Samples as complex numbers: real words, or pairs. -/
def cxReal (l : List Nat) : List Cx := l.map fun x => ⟨fToRat x, 0⟩
def cxPairs : List Nat → List Cx
  | re :: im :: t => ⟨fToRat re, fToRat im⟩ :: cxPairs t
  | _ => []

/-- The decimator's gain at bin `q` of the N × 2^DEC mixed samples' spectrum (spec/07 R208): within ±0.01 dB of 1 where the bins with |k − N/2| ≤ 0.4 N lie, at least 100 dB down where a frequency folds onto them, free elsewhere. -/
def zoomGain (logN dec q : Nat) : Cx :=
  let n : Int := (2 ^ logN : Nat)
  let l : Int := (2 ^ (logN + dec) : Nat)
  let f : Int := if 2 * (q : Int) < l then q else (q : Int) - l
  let a : Int := (f + n / 2) % n - n / 2
  let v := (Config.tfeDecimate dec logN q).toNat
  let g : Cx := ⟨fToRat (v % 2 ^ 32), fToRat (v / 2 ^ 32)⟩
  if 5 * f.natAbs ≤ 2 * 2 ^ logN then holdMag (99885 / 100000) (100115 / 100000) g
  else if 2 ^ logN < 2 * f.natAbs ∧ 5 * a.natAbs ≤ 2 * 2 ^ logN then holdMag 0 (1 / 100000) g
  else g

/-- The decimation of a mixed input by 2^DEC (spec/07 R207, R208), the decimator taken as a filter of the job's samples alone (log entry 22). -/
def zoomDecimate (logN dec : Nat) (z : List Cx) : List Cx :=
  let l : Nat := 2 ^ (logN + dec)
  let bins := (List.range l).map fun k =>
    (zoomGain logN dec k).mul (sumCx (z.zipIdx.map fun p => p.1.mul (Cx.turn (-(((p.2 * k % l : Nat) : Rat) / (l : Rat))))))
  (List.range (2 ^ logN)).map fun m =>
    (sumCx (bins.zipIdx.map fun b => b.1.mul (Cx.turn (((b.2 * m * 2 ^ dec % l : Nat) : Rat) / (l : Rat))))).scale (1 / (l : Rat))

/-- The free errors of the pointwise stage `stage` of a job. -/
def pointErr (w a b : List Nat) (stage k : Nat) : Nat := (Config.tfeError w a b (16 + stage) k).toNat

/-- The input of the first windowed or transformed stage, with the checks of the stages before it: mixed and decimated under ZOOM (R208); an average of blocks under TSA (R213); X + iY under FULL. -/
def jInput (w a b : List Nat) : List Cx × List (Nat × StageChk) :=
  let n : Nat := 2 ^ jLogN w
  match jOp w with
  | 3 =>
    let p0 := fToRat (w.getD 7 0)
    let x := if jReal w then cxReal a else cxPairs a
    let (z, c0) := pointStageCx (pointErr w a b 0) (x.zipIdx.map fun q => q.1.mul (Cx.turn (-(p0 * (q.2 : Rat)))))
    let (y, c1) := pointStageCx (pointErr w a b 1) (zoomDecimate (jLogN w) (jDec w) z)
    (y, [(0, c0), (1, c1)])
  | 7 => ((a.zip b).map fun q => ⟨fToRat q.1, fToRat q.2⟩, [])
  | _ =>
    if jAvg w = 4 then
      let x := a.map fToRat
      let k := jNavg w
      let vals := (List.range n).map fun i => sumRat ((List.range k).map fun j => x.getD (j * n + i) 0) / (k : Rat)
      let words := vals.map fOfRat
      (cxReal words, [(3, pointCheck vals words)])
    else (if jOp w ≠ 2 ∧ jReal w then cxReal a else cxPairs a, [])

/-- The windowed input of a forward transform, with the window stage's check. -/
def windowed (err : Nat → Nat) (ws : List Rat) (x : List Cx) : List Cx × StageChk :=
  pointStageCx err ((x.zip ws).map fun q => q.1.scale q.2)

/-- MAG and POWER of a normalised bin, doubled or not (spec/07 R210), each rounded once; a real value under TIME. -/
def cxWord (fmt : Nat) (dbl : Bool) (x : Cx) : Nat :=
  match fmt with
  | 0 => fOfRat x.re + fOfRat x.im * 2 ^ 32
  | 1 => fOfRat (if dbl then 2 * x.norm2 else x.norm2)
  | 3 => fOfRat x.re
  | _ => fSqrtRat (if dbl then 4 * x.norm2 else x.norm2)

/-- The exact values behind the words of an entry. -/
def cxVals (fmt : Nat) (dbl : Bool) (x : Cx) : List Rat :=
  match fmt with
  | 0 => [x.re, x.im]
  | 1 => [if dbl then 2 * x.norm2 else x.norm2]
  | 3 => [x.re]
  | _ => [if dbl then 2 * absCx x else absCx x]

/-- What a job computes before averaging: its entries, ENERGY and the envelope mean, as binary32 words; the checks of its stages, each with its number in the operation's row of R207, from 0. -/
structure JobOut where
  entries : List Nat
  energy : Nat
  mean : Nat := 0
  checks : List (Nat × StageChk) := []
  deriving DecidableEq, Repr

/-- ENERGY of an unnormalised spectrum (spec/07 R212). -/
def energyOf (ws : List Rat) (y : List Cx) : Nat :=
  fOfRat (sumRat (y.map Cx.norm2) / ((y.length : Rat) * sumRat (ws.map fun x => x * x)))

/-- The 32-bit words of an entry. -/
def splitWords (size v : Nat) : List Nat := (List.range (size / 4)).map fun i => v / 2 ^ (32 * i) % 2 ^ 32

/-- The format stage: each bin, doubled or not, in its format, with its check. -/
def fmtOut (fmt : Nat) (l : List (Bool × Cx)) : List Nat × StageChk :=
  let es := l.map fun q => cxWord fmt q.1 q.2
  (es, pointCheck (l.flatMap fun q => cxVals fmt q.1 q.2) (es.flatMap (splitWords (entrySize fmt))))

/-- The half spectrum of a real transform of `len`, normalised; interior bins are doubled. -/
def halfBins (len : Nat) (g : Rat) (y : List Cx) : List (Bool × Cx) :=
  (y.take (len / 2 + 1)).zipIdx.map fun q => (q.2 != 0 && q.2 != len / 2, q.1.scale g)

/-- Entries of a job whose window cannot be normalised: free values; a finite window must still give finite ones (spec/07 R228). -/
def openEntries (w a b uw : List Nat) (stage : Nat) : List Nat × List (Nat × StageChk) :=
  let size := entrySize (jFmt w)
  let es := (List.range (outLen (jOp w) (jLogN w) (jMlog w) (jReal w) (jFmt w))).map fun k => (Config.tfeEntry w a b uw k).toNat % 256 ^ size
  (es, [(stage, ⟨0, 0, 1 / 2 ^ 20, es.length, !uw.all fIsFinite || es.all fun e => (splitWords size e).all fIsFinite⟩)])

/-- ENVELOPE (spec/07 R209). -/
def envelopeOut (w a uw : List Nat) (x : List Cx) : JobOut :=
  let n : Nat := 2 ^ jLogN w
  let m : Nat := 2 ^ jMlog w
  let err := fun (stage k : Nat) => Config.tfeError w a [] stage k
  let (y, c0) := dft false false (err 0) x
  let kLo := ((fToRat (w.getD 7 0)) * (n : Rat)).ceil.toNat
  let kHi := ((fToRat (w.getD 8 0)) * (n : Rat)).floor.toNat
  let (sel, c1) := pointStageCx (pointErr w a [] 1) ((List.range m).map fun j => if kLo + j ≤ kHi then (y.getD (kLo + j) {}).scale (1 / (n : Rat)) else {})
  let (z, c2) := dft true false (err 1) sel
  let (e, c3) := pointStage (fun k => (Config.tfeMagError w a k).toNat) (z.map fun v => 2 * absCx v)
  let mean := sumRat e / (m : Rat)
  let (e, c4) := pointStage (pointErr w a [] 4) (e.map (· - mean))
  let energy := energyOf (List.replicate n (1 : Rat)) y
  let chk := [(0, c0), (1, c1), (2, c2), (3, c3), (4, c4)]
  let ws := jWindow w uw
  let (v, c5) := windowed (pointErr w a [] 5) ws (e.map fun v => ⟨v, 0⟩)
  let (v, c6) := dft false true (err 2) v
  if jWinOk w uw then
    let (ents, c7) := fmtOut (jFmt w) (halfBins m (1 / sumRat ws) v)
    ⟨ents, energy, fOfRat mean, chk ++ [(5, c5), (6, c6), (7, c7)]⟩
  else
    let (ents, c7) := openEntries w a [] uw 7
    ⟨ents, energy, fOfRat mean, chk ++ (if jWinNum w uw then [(5, c5), (6, c6)] else []) ++ c7⟩

/-- CEPSTRUM (spec/07 R210) of the first stage's spectrum. -/
def cepstrumOut (w a uw : List Nat) (y : List Cx) : List Nat × List (Nat × StageChk) :=
  let n : Nat := 2 ^ jLogN w
  let p := y.map fun v => (v.scale (1 / sumRat (jWindow w uw))).norm2
  let top := p.foldl (fun a v => if a < v then v else a) 0
  if top = 0 then openEntries w a [] uw 3
  else
    let (c, c2) := pointStage (pointErr w a [] 2) (p.map fun v =>
      let lo : Rat := top / ((2 ^ 120 : Nat) : Rat)
      lnRat (if v < lo then lo else v) / 2)
    let (z, c3) := dft true true (fun k => Config.tfeError w a [] 1 k) (c.map fun v => ⟨v, 0⟩)
    let vals := (z.take (n / 2 + 1)).map fun v => v.re / (n : Rat)
    let words := vals.map fOfRat
    (words, [(2, c2), (3, c3), (4, pointCheck vals words)])

/-- CROSS (spec/07 R210): G_ab, G_aa and G_bb of each bin, from the two spectra. -/
def crossJob (w uw : List Nat) (ya yb : List Cx) : List Nat × StageChk :=
  let n : Nat := 2 ^ jLogN w
  let g := 1 / sumRat (jWindow w uw)
  let vals := ((ya.zip yb).take (n / 2 + 1)).zipIdx.map fun q =>
    let d : Rat := if q.2 ≠ 0 ∧ q.2 ≠ n / 2 then 4 * g * g else g * g
    let c := (q.1.1.conj.mul q.1.2).scale d
    [c.re, c.im, d * q.1.1.norm2, d * q.1.2.norm2]
  let ents := vals.map fun l => l.foldr (fun v acc => fOfRat v + acc * 2 ^ 32) 0
  (ents, pointCheck vals.flatten (ents.flatMap (splitWords 16)))

/-- The engine's result of a job (spec/07 R207–R212), its transforms rounded within the bound of R227, its pointwise stages and formats as log entry 22 says. A window that is all numbers but sums to 0 leaves the entries open and ENERGY defined, for R212 uses neither its sum nor a normalised value. -/
def jobOut (w a b uw : List Nat) : JobOut :=
  let op := jOp w; let fmt := jFmt w
  let n : Nat := 2 ^ jLogN w
  let ws := jWindow w uw
  let g := 1 / sumRat ws
  let (x, pre) := jInput w a b
  let noEnergy := (Config.tfeEnergy w a uw).toNat
  let err := fun (s k : Nat) => Config.tfeError w a b s k
  if op = 2 then
    let (y, c0) := dft true false (err 0) x
    let (ents, c1) := fmtOut fmt (y.map fun v => (false, v))
    ⟨ents, noEnergy, 0, [(0, c0), (1, c1)]⟩
  else if fmt = 3 ∧ op = 1 then ⟨x.map (cxWord 3 false), noEnergy, 0, pre⟩
  else if op = 4 then envelopeOut w a uw x
  else
    let half := op = 5 || op = 6 || (op = 1 && jReal w)
    -- the window stage's number in the operation's row of R207; the transform and the format follow it
    let win := if op = 3 then 2 else if op = 7 then 1 else 0
    let (xw, cw) := windowed (pointErr w a b win) ws x
    let (y, c1) := dft false half (err 0) xw
    let (xv, cv) := windowed (pointErr w b a win) ws (cxReal b)
    let (yb, c1b) := dft false true (err 1) xv
    let chk := pre ++ [(win, cw), (win + 1, c1)] ++ if op = 6 then [(win, cv), (win + 1, c1b)] else []
    let energy := if jWinNum w uw then energyOf ws y else noEnergy
    if !jWinOk w uw then
      let (ents, c) := openEntries w a b uw (win + 2)
      ⟨ents, energy, 0, (if jWinNum w uw then chk else pre) ++ c⟩
    else if op = 5 then
      let (ents, c) := cepstrumOut w a uw y
      ⟨ents, energy, 0, chk ++ c⟩
    else if op = 6 then
      let (ents, c) := crossJob w uw y yb
      ⟨ents, energy, 0, chk ++ [(2, c)]⟩
    else
      let bins := if half then halfBins n g y
        else if op = 1 then y.map fun v => (false, v.scale g)
        -- ZOOM and FULL: from the lowest frequency up
        else (List.range n).map fun (k : Nat) =>
          let f : Rat := if op = 3 then fToRat (w.getD 7 0) + ((k : Rat) - (n : Rat) / 2) / ((n * 2 ^ jDec w : Nat) : Rat) else 0
          (op = 3 && jReal w && f != 0 && f != 1 / 2 && f != -1 / 2, (y.getD ((k + n / 2) % n) {}).scale g)
      let (ents, c2) := fmtOut fmt bins
      ⟨ents, energy, 0, chk ++ [(win + 2, c2)]⟩

/-- DF and F0 of a result (spec/07 R208–R210, R219). -/
def jFreq (w : List Nat) : Nat × Nat :=
  let n : Rat := (2 ^ jLogN w : Nat)
  if jOp w = 2 ∨ jOp w = 5 ∨ jFmt w = 3 then
    let f := (Config.tfeNoBins (jOp w)).toNat
    (f % 2 ^ 32, f / 2 ^ 32)
  else if jOp w = 3 then
    let df := 1 / (n * (2 ^ jDec w : Nat))
    (fOfRat df, fOfRat (fToRat (w.getD 7 0) - n / 2 * df))
  else if jOp w = 7 then (fOfRat (1 / n), 0xBF000000)
  else (fOfRat (1 / n), 0)

/-- One component of an average (spec/07 R213): its exact value where the words are numbers, and the word, rounded once. -/
def avgStep (avg k count a p : Nat) : Rat × Nat :=
  if !(fIsFinite a && fIsFinite p) then (0, if count ≤ 1 then p else (fAdd false a p).1)
  else
    let A := fToRat a; let P := fToRat p
    let v : Rat := match avg with
      | 1 => A + (P - A) / (count : Rat)
      | 2 => if count = 1 then P else A + (P - A) / (2 ^ k : Nat)
      | _ => if count = 1 then P else if A < P then P else A
    (v, if v = P then p else if v = A then a else fOfRat v)

/-- The entry written for a CROSS average: G_ab, γ² and the phase (spec/07 R210). -/
def crossOut (v : Nat) : Nat :=
  let re := v % 2 ^ 32; let im := v / 2 ^ 32 % 2 ^ 32; let aa := fToRat (v / 2 ^ 64 % 2 ^ 32); let bb := fToRat (v / 2 ^ 96 % 2 ^ 32)
  let g2 := if aa * bb = 0 then 0 else fOfRat ((fToRat re * fToRat re + fToRat im * fToRat im) / (aa * bb))
  re + im * 2 ^ 32 + g2 * 2 ^ 64 + phaseTurns re im * 2 ^ 96

/-- Applies an average to every 32-bit component of an entry: the exact values and the entry. -/
def avgEntry (avg k count size a p : Nat) : List Rat × Nat :=
  (List.range (size / 4)).foldl (fun acc i =>
    let r := avgStep avg k count (a / 2 ^ (32 * i) % 2 ^ 32) (p / 2 ^ (32 * i) % 2 ^ 32)
    (acc.1 ++ [r.1], acc.2 + r.2 * 2 ^ (32 * i))) ([], 0)

/-- Writes entries of one size from an address, each with its poison. -/
def State.wrEntries (s : State) (a size : Nat) : List (Nat × Bool) → State
  | [] => s
  | (v, p) :: rest => (if size = 4 then s.put32 a v p else s.wrMemP a size v (List.replicate (size / 8) p)).wrEntries (a + size) size rest

/-- TFE_CHK_TOL.SHIFT. -/
def State.chkShift (s : State) (c : Nat) : Int := toS 8 (s.fld (pgTfe c) 0x048 7 0)

/-- TFE_CHK_MAX takes a ratio when it is the largest (spec/07 R227). -/
def State.tfeChkMax (s : State) (c : Nat) (v : Nat) : State :=
  if fIsFinite v && fLt (s.rd (pgTfe c) 0x064) v && !bit v 31 then s.wr (pgTfe c) 0x064 v else s

/-- Completes a job whose every stage passed (spec/07 R210, R213, R217–R223). -/
def State.jobComplete (s : State) (c home : Nat) (r : TfeRun) : State :=
  let w := r.job.words
  let op := jOp w
  let p := pgTfe home
  let extra := r.flags + (if r.ngap = 0 then 0 else 1) + (if r.pois then 2 else 0) + (if r.retry || r.job.reran then 4 else 0) + (if r.hosted then 8 else 0)
  let cycles := r.job.spent + (s.now - r.t0)
  let s := s.wr64 p 0x058 (satAdd (2 ^ 64 - 1) (s.rd64 p 0x058) 1)
  if op = 0 then (s.jobEnd home c r 1 cycles 0 extra).tfeIdle c else
  let fmt := jFmt w
  let len := outLen op (jLogN w) (jMlog w) (jReal w) fmt
  let size := entrySize fmt
  let avg := jAvg w
  let acc := clusterBase home + jAcc w
  let dst := clusterBase home + jDst w
  let uses := avg = 1 ∨ avg = 2 ∨ avg = 3
  let ((ah, ap), s) := if uses then s.rdMem acc 16 else ((0, false), s)
  let cnt0 := ah % 2 ^ 32
  let restart := uses ∧ (bit (w.getD 6 0) 31 ∨ ah / 2 ^ 32 % 2 ^ 32 ≠ len ∨ ah / 2 ^ 64 % 256 ≠ op ∨ ah / 2 ^ 72 % 256 ≠ fmt ∨
    (avg = 1 ∧ jNavg w ≤ cnt0))
  let cnt := if uses then (if restart then 1 else satAdd 0xFFFFFFFF cnt0 1) else 0
  let apois := ap && !restart
  let o := jobOut w r.a r.b r.uw
  let (ents, accs, exact, s) := (List.range len).foldl (fun (q : List (Nat × Bool) × List (Nat × Bool) × List Rat × State) k =>
    let P := o.entries.getD k 0 % 256 ^ size
    let (es, as, xs, s) := q
    if uses then
      let ((old, op_), s) := if restart then ((0, false), s) else s.rdMem (acc + 64 + size * k) size
      let (x, A) := avgEntry avg (bits (w.getD 5 0) 19 16) cnt size old P
      let pz := r.pois || r.pidx.contains k || op_ || apois
      (es ++ [(if op = 6 then crossOut A else A, pz)], as ++ [(A, pz)], xs ++ x, s)
    else (es ++ [(if op = 6 then crossOut P else P, r.pois || r.pidx.contains k)], as, xs, s)) ([], [], [], s)
  -- the averaging stage adds to the ratios seen (R226, R227)
  let s := if uses then s.tfeChkMax c (fOfRat (pointCheck exact (accs.flatMap fun q => splitWords size q.1)).ratio) else s
  let complete := avg = 1 ∧ cnt = jNavg w
  let anyP := r.pois || r.hpois || ents.any (·.2)
  let flags := (r.flags + (if r.ngap = 0 then 0 else 1) + (if anyP then 2 else 0) + (if r.retry || r.job.reran then 4 else 0) + (if r.hosted then 8 else 0) +
    (if complete then 16 else 0)) + (if restart then 128 else 0)
  let energy := o.energy
  let (df, f0) := jFreq w
  let isV := jView w 1
  let hd := r.tpos0 % 2 ^ 64 + r.tt0 % 2 ^ 64 * 2 ^ 64 + (r.rate % 2 ^ 32) * 2 ^ 128 + df * 2 ^ 160 + f0 * 2 ^ 192 + energy * 2 ^ 224 +
    jTag w % 2 ^ 32 * 2 ^ 256 + min 0xFFFF cnt * 2 ^ 288 + r.tq * 2 ^ 304 + flags * 2 ^ 312 + len * 2 ^ 320 + fmt * 2 ^ 352 + op * 2 ^ 360 +
    min 0xFFFF r.ngap * 2 ^ 368 + (r.seq0 % 2 ^ 32) * 2 ^ 384 + (if isV then jArg w 1 % 512 + 512 * home else 0) * 2 ^ 416 +
    jEnbw w r.uw * 2 ^ 432 + o.mean * 2 ^ 448
  let s := s.wrEntries (dst + 64) size ents
  let s := s.wrMem dst 64 hd
  let s := if uses then (s.wrEntries (acc + 64) size accs).wrMem acc 64 (cnt + len * 2 ^ 32 + op * 2 ^ 64 + fmt * 2 ^ 72) else s
  let s := s.setFrd home { s.frdH home with cplx := (if op = 3 ∧ jReal w = false then [jDst w] else []) ++ (s.frdH home).cplx.filter (· != jDst w) }
  let s := s.jobEnd home c r 1 cycles energy flags
  let g := bits (jDone w) 15 8
  let s := if g = 0 then s else s.frdTrigger home { group := g, off := jDst w, arrived := s.now, real := jReal w }
  let s := if bit (w.getD 4 0) 25 then
      let key := srcKey 2 (engineSel home 1 (bits (w.getD 4 0) 31 26))
      let total := 64 + len * size
      let s := s.each (List.range ((total + 47) / 48)) fun s i =>
        let n := min 48 (total - 48 * i)
        let (ls, s) := s.rdLanes ((n + 7) / 8) (dst + 48 * i) none
        let pay := (ls.foldr (fun q acc => q.1 % 2 ^ 64 + 2 ^ 64 * acc) 0) % 256 ^ n
        let pm := ls.zipIdx.foldl (fun m q => if q.1.2 then m + 2 ^ (q.2 + 2) else m) 0
        s.sourceOffer key { raw := true, nvalid := n, payload := pay, pois := pm, acceptedAt := s.now }
      s.setTfe c { s.tfeH c with sending := some key }
    else s
  s.tfeIdle c

/-! Checks, faults and the partner (spec/07 R224–R231). -/

/-- Ends every queued job of a cluster with a status. -/
def State.tfeFlush (s : State) (c status : Nat) : State :=
  let h := s.tfeH c
  let s := s.setTfe c { h with hiQ := [], noQ := [] }
  let s := s.each (h.hiQ ++ h.noQ) fun s j => s.jobEnd c c { job := j, hosted := false, hi := false } status 0 0 (if j.twice then 4 else 0)
  s.tfeShow c

/-- The queues of a faulted or retired engine go to its partner when the partner is READY; with both RETIRED every job ends (spec/07 R230, R231). -/
def State.tfeMove (s : State) (c : Nat) : State :=
  let q := partner c
  let h := s.tfeH c
  if s.retired (pgTfe c) && s.retired (pgTfe q) then (s.tfeFlush c 0x07).tfeFlush q 0x07
  else if s.ready (pgTfe q) && !h.hosted then
    ((((s.setTfe c { h with hosted := true }).irq (pgTfe c) 17).irq (pgTfe q) 20)).tfeShow c
  else s

/-- A hosted job waits while its cluster's CLU page is not READY: the accesses it needs stall (spec/02 R54). -/
def State.hostStalled (s : State) (home : Nat) (r : TfeRun) : Bool := r.hosted && !s.ready (pgClu home)

/-- The first access of a hosted run that its cluster's memory holds is counted there (spec/02 CLU_STALLS). -/
def State.runHeld (s : State) (c home : Nat) (r : TfeRun) : State :=
  if r.job.held then s
  else (s.setTfe c { s.tfeH c with run := some { r with job := { r.job with held := true } } }).bump (pgClu home) 0x048 31 16

/-- A run that is broken off: its job goes back to the head of its queue, queued again (R205 STATE, R231), with the cycles it has spent; the STATE byte of a hosted one waits where the cluster's memory stalls the host (spec/02 R54). -/
def State.jobRequeue (s : State) (c : Nat) (r : TfeRun) : State :=
  let home := if r.hosted then partner c else c
  let owed := s.hostStalled home r
  let j : TfeJob := { r.job with spent := r.job.spent + (s.now - r.t0), reran := true, twice := r.retry || r.job.reran, owed := owed }
  let g := s.tfeH home
  let s := s.setTfe home (if r.hi then { g with hiQ := j :: g.hiQ } else { g with noQ := j :: g.noQ })
  if owed then s.bump (pgClu home) 0x048 31 16 else s.wrMem (clusterBase home + j.desc + 63) 1 1

/-- A cluster's memory takes the partner's accesses again: the descriptors of its queued jobs whose STATE byte waited show them queued (spec/02 R54). -/
def State.tfeOwed (s : State) (c : Nat) : State :=
  let h := s.tfeH c
  let pay (q : List TfeJob) : List TfeJob := q.map fun j => { j with owed := false }
  let due := (h.hiQ ++ h.noQ).filter (·.owed)
  if due.isEmpty then s
  else s.each due (fun s j => s.wrMem (clusterBase c + j.desc + 63) 1 1) |>.setTfe c { h with hiQ := pay h.hiQ, noQ := pay h.noQ }

/-- The engine faults: the running job goes back to the head of its queue, the queues move, FAULT entries are counted (spec/07 R229). -/
def State.tfeFault (s : State) (c code : Nat) : State :=
  let s := s.tfeSettle c
  let s := match (s.tfeH c).run with
    | some r => s.jobRequeue c r
    | none => s
  let s := s.setTfe c { s.tfeH c with run := none, passes := [] }
  let s := (((s.pageFault (pgTfe c) code).setEstate c 5).bump (pgTfe c) 0x074 31 16).irq (pgTfe c) 17
  s.tfeMove c

/-- The ratios of the stages that the engine has run (spec/07 R227). -/
def State.tfeRatio (s : State) (c : Nat) (l : List StageChk) : State := l.foldl (fun s q => s.tfeChkMax c (fOfRat q.ratio)) s

/-- The ratio of a stage that an error of the datapath or of its working memory spoils: a free value. -/
def State.tfeRatioFree (s : State) (c : Nat) : State :=
  let (d, s) := s.draw
  s.tfeChkMax c (Config.tfeChkRatio c d).toNat

/-- A stage fails (spec/07 R229): the job reruns from its input, or the engine faults. -/
def State.stageFail (s : State) (c home : Nat) (r : TfeRun) (stage : Nat) : State :=
  let s := s.bump (pgTfe c) 0x060 31 16
  let s := (s.wr (pgTfe c) 0x068 (stage % 16 * 2 ^ 28 + r.job.desc)).irq (pgTfe c) 16
  if r.retry then s.tfeFault c 0x01
  else
    let s := s.setEstate c 3
    s.jobBegin c home { job := r.job, hosted := r.hosted, hi := r.hi, retry := true, t0 := r.t0, first := r.first, firstB := r.firstB, nblk := r.nblk, gens := r.gens }

/-- STAGES_PASS (spec/07 R215, R220, R226–R229): every stage of the running job comes through the datapath as the rules define it. The checker's sums over what is computed decide: a stage outside the threshold, or with a non-finite output of finite inputs, fails; else the job completes. -/
def stagesPass (c t : Nat) (s : State) : State :=
  let s := s.upTo t
  match (s.tfeH c).run with
  | none => s
  | some r =>
    let home := if r.hosted then partner c else c
    if !s.ready (pgTfe c) then s else if s.hostStalled home r then s.runHeld c home r else
    if r.overran then s.jobFail c home r 3 0 else
    let chk := if jOp r.job.words = 0 then [] else (jobOut r.job.words r.a r.b r.uw).checks
    match chk.find? fun q => !q.2.passes (s.chkShift c) with
    | some q => (s.tfeRatio c (chk.map (·.2))).stageFail c home r q.1
    | none =>
      let s := if jOp r.job.words = 0 then s else s.tfeRatio c (chk.map (·.2))
      let s := s.jobComplete c home r
      if r.retry then
        let s := s.bump (pgTfe c) 0x060 15 0
        let h := s.tfeH c
        let recent := t :: h.passes.filter fun d => decide (t < d + 10 * cyclesPerMs)
        let s := s.setTfe c { h with passes := recent }
        if 3 ≤ recent.length then s.tfeFault c 0x01 else s
      else s

/-- STAGE_FAILS (spec/07 R228, R229): stage number `stage` fails its check, by an error of the datapath or of its working memory; the job reruns, or the engine faults. -/
def stageFails (c stage t : Nat) (s : State) : State :=
  let s := s.upTo t
  match (s.tfeH c).run with
  | none => s
  | some r =>
    let home := if r.hosted then partner c else c
    if !s.ready (pgTfe c) then s else if s.hostStalled home r then s.runHeld c home r
    else (s.tfeRatioFree c).stageFail c home r stage

/-- The page of an engine becomes READY: it is IDLE, its queues return at the partner's job boundary, and it hosts a partner that is out of service (spec/07 R229, R230, R233). -/
def State.tfeReady (s : State) (c : Nat) : State :=
  let s := s.setEstate c (s.tfeIdleState c)
  let h := s.tfeH c
  let s := if h.hosted then
      let s := s.setTfe c { h with ret := true }
      if (s.tfeH (partner c)).run.isNone then s.tfeReturn c else s
    else s
  let q := partner c
  if (s.faulted (pgTfe q) || s.retired (pgTfe q)) && !(s.tfeH q).hosted then s.tfeMove q else s

/-- ENABLE written 0, RESET or power lost (spec/07 R229): the running job is abandoned, own queued jobs end FLUSHED, hosted jobs stay queued. -/
def State.tfeOff (s : State) (c : Nat) : State :=
  let s := s.tfeSettle c
  let s := match (s.tfeH c).run with
    | some r => if r.hosted then s.jobRequeue c r else s
    | none => s
  let s := s.setTfe c { s.tfeH c with run := none, sending := none, hosted := false, ret := false }
  ((s.tfeFlush c 0x06).setEstate c 0).tfeShow c

/-- The engine retires after a failed self-test slice (spec/07 R229). -/
def State.tfeRetire (s : State) (c : Nat) : State :=
  let s := s.setFld (pgTfe c) oStatus 15 8 0x02
  ((s.pageRetire (pgTfe c)).setEstate c 6).tfeMove c

end Sys2Proof.Machine
end

