-- ==== Sys2Proof/Machine/WptBase.lean ====
section
/-! DEFINITION. A waypoint unit's registers, its difference and its first evaluation (spec/03 R86, R94). -/

namespace Sys2Proof.Machine

def State.wptH (s : State) (c u : Nat) : WptH := sget (fun _ => {}) s.wpt (c * 128 + u)
def State.setWpt (s : State) (c u : Nat) (h : WptH) : State := { s with wpt := sput (fun _ => {}) (c * 128 + u) h s.wpt }

/-- A register of unit `u` of cluster `c`. -/
def wptOff (u o : Nat) : Nat := 0x040 + 0x20 * (u % 64) + o
def State.wptRd (s : State) (c u o : Nat) : Nat := s.rd (pgWpt c u) (wptOff u o)
def State.wptArmed (s : State) (c u : Nat) : Bool := bit (s.wptRd c u 8) 31
def State.wptDir (s : State) (c u : Nat) : Nat := bits (s.wptRd c u 8) 30 29
def State.wptTrack (s : State) (c u : Nat) : Nat := bits (s.wptRd c u 8) 5 0

/-- d = x − WPT_POS as a signed 64-bit difference (spec/03 R86). -/
def State.wptDiff (s : State) (c u t : Nat) : Int :=
  toS 64 (ofS 64 (s.trkX (s.wptTrack c u) t - (s.rd64 (pgWpt c u) (wptOff u 0) : Int)))

/-- The words of a unit that a write can change under a fire of the same cycle: WPT_POS, WPT_CFG, WPT_ARG, WPT_STEP, WPT_DEADLINE. -/
def wptOffs : List Nat := [0x00, 0x04, 0x08, 0x0C, 0x10, 0x14, 0x1C]
def State.wptWords (s : State) (c u : Nat) : List Nat := wptOffs.map fun o => s.wptRd c u o
def State.wptPut (s : State) (c u : Nat) (ws : List Nat) : State := (wptOffs.zip ws).foldl (fun s q => s.wr (pgWpt c u) (wptOff u q.1) q.2) s

/-- Arming, and the page becoming READY: the deadline count starts, and the next cycle's evaluation is the first (spec/03 R86, R88). -/
def State.wptStart (s : State) (c u : Nat) : State :=
  s.setWpt c u { s.wptH c u with dlT := s.now, armT := some s.now, first := false, sign := none }

/-- The first evaluation after arming, at the cycle after it: its outcome is kept for LATE, its sign for DIR = either. It sees the record and the registers as they stood in that cycle, a write of that cycle not yet (spec/03 R86, R94). -/
def State.wptFirst (s : State) (c u t : Nat) : State :=
  let h := s.wptH c u
  match h.armT with
  | some a =>
    if t ≤ a then s else
    let v := if h.wrT = some (a + 1) then s.wptPut c u h.old else s
    let d := v.wptDiff c u (a + 1)
    let dir := v.wptDir c u
    s.setWpt c u { h with armT := none, first := (dir == 0 && decide (0 ≤ d)) || (dir == 1 && decide (d ≤ 0)), sign := some (decide (d < 0)) }
  | none => s

/-- Before what a first evaluation sees changes at `t`, every one of an earlier cycle is taken. -/
def State.wptFirsts (s : State) (t : Nat) : State :=
  s.each (s.wpt.filter fun q => match q.2.armT with
    | some a => decide (a + 1 < t)
    | none => false) fun s q => s.wptFirst (q.1 / 128) (q.1 % 128) t

end Sys2Proof.Machine
end

