-- ==== Sys2Proof/Machine/Ars.lean ====
section
/-! DEFINITION. The Angle Resampler (spec/06): inputs and their history, views, the output grid, samples, blocks, gaps and checking. -/

namespace Sys2Proof.Machine

/-! Descriptors (spec/06). -/

/-- The ARS-written bytes of an input descriptor. -/
def State.inSync (s : State) (c i : Nat) : State :=
  let h := s.inH c i
  s.wrMem (clusterBase c + s.rd (pgArs c) 0x044 + 32 * i + 16) 16
    (h.epoch % 2 ^ 64 + h.next % 2 ^ 48 * 2 ^ 64 + h.st * 2 ^ 112 + h.rate * 2 ^ 120)

/-- The ARS-written bytes of a view descriptor. -/
def State.viewSync (s : State) (c v : Nat) : State :=
  let h := s.viewH c v
  s.wrMem (clusterBase c + s.rd (pgArs c) 0x040 + 64 * v + 32) 32
    (h.st + h.d * 2 ^ 8 + h.seq % 2 ^ 32 * 2 ^ 32 + h.high.getD 0 % 2 ^ 64 * 2 ^ 64 + h.ngapAll * 2 ^ 128 + h.skip * 2 ^ 160 +
      h.dual * 2 ^ 192 + h.lat % 2 ^ 32 * 2 ^ 224)

/-- ARS_VIEW_ON, ARS_COUNT and ARS_BUDGET follow the enabled items (spec/06 R195). -/
def State.arsTotals (s : State) (c : Nat) : State :=
  let vs := s.viewsOf c
  let is := s.insOf c
  let pb := vs.foldl (fun a v => let h := s.viewH c v; if h.predict then a + h.budget else a) 0
  let tot := is.foldl (fun a i => a + (s.inH c i).budget) (vs.foldl (fun a v => a + (s.viewH c v).budget) 0)
  (s.wr (pgArs c) 0x058 (vs.length * 65536 + is.length)).wr (pgArs c) 0x050 (tot * 65536 + pb)

def State.viewOnBit (s : State) (c v : Nat) (b : Bool) : State := s.setB (pgArs c) (0x080 + 4 * (v / 32)) (v % 32) b

/-- Sets a bit of ARS_VIEW_EVT with its interrupt cause. -/
def State.viewEvt (s : State) (c v : Nat) : State := (s.raise (pgArs c) (0x0C0 + 4 * (v / 32)) (v % 32)).irq (pgArs c) 17

/-- ARS_LOAD as of now: a millisecond that has ended gives NOW, of the 48 million multiply-adds that 16 lanes make in it, in 0.1 %, and raises PEAK; after an idle one NOW is 0. -/
def State.arsSettle (s : State) (c : Nat) : State :=
  let h := s.arsH c
  let ms := s.now / cyclesPerMs
  if ms ≤ h.work.1 then s
  else
    let load := min 1000 (h.work.2 / 48000)
    let s := (s.setFld (pgArs c) 0x054 15 0 (if h.work.1 + 1 = ms then load else 0)).raiseMax (pgArs c) 0x054 31 16 load
    s.setArs c { h with work := (ms, 0) }

/-- Counts multiply-adds for ARS_LOAD. -/
def State.arsWork (s : State) (c n : Nat) : State :=
  let s := s.arsSettle c
  let h := s.arsH c
  s.setArs c { h with work := (h.work.1, h.work.2 + n) }

/-! Closing blocks and re-alignment (spec/06 R188–R192). -/

/-- The state a view shows: HOLDING with its input, BADTRACK on a COUNT track, IDLE while the track stands, WAITING before its boundary (spec/06 R178, R193). -/
def State.viewState (s : State) (c v : Nat) : Nat :=
  let h := s.viewH c v
  if !h.on then 0
  else if (s.inH c h.input).st ≠ 2 then 1
  else if s.trkKind h.track = 6 then 5
  else
    let st := bits (s.trkTq h.track) 2 0
    if st = 2 ∨ st = 3 then (if h.wait then 2 else 3) else 4

/-- Shows a view's state. A view that begins to wait takes the position where it stands: the next boundary counts from there (spec/06 R178). -/
def State.viewShow (s : State) (c v : Nat) : State :=
  let st := s.viewState c v
  let h := s.viewH c v
  let starts := st == 2 && h.lastX.isNone
  let s := s.setView c v { h with st := st, lastX := if starts then some (s.trkX h.track s.now % 2 ^ 64).toNat else h.lastX,
                                  lastT := if starts then s.now else h.lastT }
  let s := if st = 5 ∧ h.st ≠ 5 then s.viewEvt c v else s
  s.viewSync c v

/-- Line 0 of a view's ring: producer index, generation and CLOSED, FILL. -/
def State.viewLine0 (s : State) (c v : Nat) (closed : Bool) (fill : Nat) : State :=
  let h := s.viewH c v
  s.wrMem (clusterBase c + h.ring) 24 (h.prod % 2 ^ 32 + (h.gen + 256 * b2n closed) * 2 ^ 64 + fill * 2 ^ 128)

/-- Opens a block at its sample 0: header bytes 0–31, FILL 0 (spec/06 R188, R189). -/
def State.blockOpen (s : State) (c v : Nat) (p : GridPt) (fc : Rat) (d : Nat) : State :=
  let h := s.viewH c v
  let hd := p.theta % 2 ^ 64 + ((ratNearest p.tj).toNat % 2 ^ 64) * 2 ^ 64 + fOfRat p.rate * 2 ^ 128 + fOfRat fc * 2 ^ 160 +
    h.seq % 2 ^ 32 * 2 ^ 192 + (v + 512 * c) * 2 ^ 224 + p.tq * 2 ^ 240 + d * 2 ^ 248
  let s := s.wrMem (h.slotAddr c h.prod) 32 hd
  let s := s.setView c v { h with isOpen := true, n := 0, flags := (if h.predict then 16 else 0) + (if h.revNext then 32 else 0), revNext := false, marks := 0, tqOr := 0, tqMax := 0,
                                   nvalid := 0, ngap := 0, t0 := p.tj, tLast := p.tj, rateEnd := fOfRat p.rate }
  (s.tfeReopened c v h.prod false).viewLine0 c v false 0

/-- The backlog of an output without the oldest block of view `v` none of whose cells has left; items carry their view and block (spec/06 R190). -/
def skipBlock (v k : Nat) (q : List SrcItem) : List SrcItem :=
  let mine := q.filter fun it => it.port == v
  let ids := (mine.map (·.count)).eraseDups
  let whole := ids.filter fun b => (mine.filter fun it => it.count == b).length == k
  match whole with
  | b :: _ => q.filter fun it => !(it.port == v && it.count == b)
  | [] => q

/-- The cells of a block on ARS output OUT: 48 payload bytes each, header first; an output 2^RING_LOG blocks of this view behind skips the oldest (spec/06 R190). -/
def State.blockCells (s : State) (c v : Nat) : State :=
  let h := s.viewH c v
  let total := 64 + 4 * h.len
  let k := (total + 47) / 48
  let key := srcKey 2 (engineSel c 0 h.out)
  match s.entryOf key with
  | none => s
  | some _ =>
    let q := s.queue key
    let behind := ((q.filter fun it => it.port == v).map (·.count)).eraseDups.length
    let s := if 2 ^ h.ringLog ≤ behind then
        (s.setQueue key (skipBlock v k q)).setView c v { h with skip := satAdd 0xFFFFFFFF h.skip 1 }
      else s
    let a := h.slotAddr c (h.prod)
    s.each (List.range k) fun s i =>
      let n := min 48 (total - 48 * i)
      let (ls, s) := s.rdLanes ((n + 7) / 8) (a + 48 * i) none
      let pay := (ls.foldr (fun q acc => q.1 % 2 ^ 64 + 2 ^ 64 * acc) 0) % 256 ^ n
      let pm := ls.zipIdx.foldl (fun m q => if q.1.2 then m + 2 ^ (q.2 + 2) else m) 0
      s.sourceOffer key { port := v, count := h.prod, raw := true, nvalid := n, payload := pay, pois := pm, acceptedAt := s.now }

/-- Closes the open block (spec/06 R188 step 3): header bytes 32–63, FILL = N, the producer index; answers with the block's index and SEQ told to `s` for triggers. -/
def State.blockClose (s : State) (c v : Nat) (early : Bool) : State :=
  let h := s.viewH c v
  let inp := s.inH c h.input
  let fl := if early then h.flags ||| 64 else h.flags
  let span := min 0xFFFFFFFF (ratNearest (h.tLast - h.t0)).toNat
  let sidx := ((h.t0 - inp.epoch) * (fsOf inp.rate : Nat) / 3000000000).floor.toNat % 2 ^ 48
  let hd := h.tqOr / 8 * 8 + h.tqMax + fl * 2 ^ 8 + h.marks * 2 ^ 16 + h.nvalid * 2 ^ 32 + h.ngap * 2 ^ 48 + span * 2 ^ 64 +
    h.rateEnd * 2 ^ 96 + sidx * 2 ^ 128
  let s := s.wrMem (h.slotAddr c h.prod + 32) 32 hd
  let s := s.viewLine0 c v false h.len
  let s := if h.outEn then s.blockCells c v else s
  let h := s.viewH c v
  let s := s.setView c v { h with prod := (h.prod + 1) % 2 ^ 32, seq := (h.seq + 1) % 2 ^ 32, isOpen := false, n := 0 }
  (s.viewLine0 c v false h.len).frdTrigger c { view := some (v, h.gen, h.prod, h.seq), arrived := s.now, rank := 1 + v }

/-- Fills the open block's remaining samples with a gap value and closes it (spec/06 R192). -/
def State.blockFill (s : State) (c v code : Nat) : State :=
  let h := s.viewH c v
  if !h.isOpen then s else
  let left := h.len - h.n
  let a := h.slotAddr c h.prod + 64
  let s := s.each (List.range left) fun s i => s.put32 (a + 4 * (h.n + i)) (gapValue code) false
  let s := s.setView c v { h with ngap := h.ngap + left, ngapAll := satAdd 0xFFFFFFFF h.ngapAll left }
  s.blockClose c v true

/-- Re-aligns a view: its open block closes early, resolved points and the highest point are forgotten, and it waits for a block boundary (spec/06 R177, R178, R192). -/
def State.viewRealign (s : State) (c v code : Nat) : State :=
  let s := s.blockFill c v code
  let h := s.viewH c v
  (s.setView c v { h with wait := true, lastX := none, lastT := s.now, high := none, pts := [], revNext := false, hold := none }).viewShow c v

/-- A re-alignment that a broadcast brings applies to grid points resolved after it: those resolved before still leave, then the open block closes (spec/06 R192); `held`: a self-test slice holds the datapath, and the close waits for its end (R199). -/
def State.viewRealignLater (s : State) (c v code : Nat) (held : Bool) : State :=
  let h := s.viewH c v
  match h.pts.reverse with
  | [] =>
    if held ∧ h.isOpen = true then (s.setView c v { h with wait := true, lastX := none, lastT := s.now, high := none, revNext := false, hold := some (h.hold.getD code) }).viewShow c v
    else s.viewRealign c v code
  | p :: ps =>
    let pts := (({ p with stop := some (p.stop.getD code) } : GridPt) :: ps).reverse
    (s.setView c v { h with wait := true, lastX := none, lastT := s.now, high := none, pts := pts, revNext := false }).viewShow c v

/-- The early closes that waited for the end of a self-test slice (spec/06 R199). -/
def State.arsResume (s : State) (c : Nat) : State :=
  s.each (s.viewsOf c) fun s v => match (s.viewH c v).hold with
    | some code =>
      let s := s.blockFill c v code
      s.setView c v { s.viewH c v with hold := none }
    | none => s

/-- Views of an input re-align with 0x13; in FAULT the ARS writes no sample, and the recovery re-aligns them (spec/06 R192, R198). -/
def State.viewsStop (s : State) (c i : Nat) : State :=
  s.each ((s.viewsOf c).filter fun v => (s.viewH c v).input == i) fun s v =>
    if s.faulted (pgArs c) then
      let h := s.viewH c v
      (s.setView c v { h with wait := true, lastX := none, high := none, pts := [] }).viewShow c v
    else s.viewRealign c v 0x13

/-! Commands (spec/06 R172, R173, R175, R195). -/

/-- A view goes OFF: its open block closes with 0x13 and CLOSED is set in its ring. -/
def State.viewOff (s : State) (c v : Nat) : State :=
  let h := s.viewH c v
  if !h.on then s else
  let s := s.blockFill c v 0x13
  let s := s.viewLine0 c v true 0
  let h := s.viewH c v
  let s := s.setView c v { h with on := false, st := 0, pts := [], wait := true, lastX := none, high := none, budget := 0 }
  ((s.viewSync c v).viewOnBit c v false).arsTotals c

def State.inOff (s : State) (c i : Nat) : State :=
  let h := s.inH c i
  if !h.on then s else
  let s := s.setIn c i { h with on := false, st := 0, budget := 0 }
  let s := s.inSync c i
  (s.viewsStop c i).arsTotals c

/-- The port channel that holds a module channel with EN = 1, and its port: SPT_EPOCH and RATE are taken there (spec/06 R173). -/
def State.channelPort (s : State) (ch : Nat) : Option (Nat × Nat) :=
  (List.range 2048).findSome? fun q =>
    let p := q / 4; let k := q % 4
    if s.chEn p k && s.moduleCh p k == ch && !s.isNode p then some (s.rd64 (pgSpt p) 0x060, s.chRate p k) else none

/-- A HOLDING input goes to RUNNING once its channel exists and its ring's banks are ON; its views then wait (spec/06 R173). -/
def State.inRefresh (s : State) (c i : Nat) : State :=
  let h := s.inH c i
  if !h.on || h.st ≠ 1 || !s.usable (clusterBase c + h.ring) h.ringBytes then s else
  match s.channelPort h.chan with
  | none => s
  | some (ep, rate) =>
    let ((rp, _), s) := s.rdMem64 (clusterBase c + h.ring + 64 + 8 * h.cons)
    let s := s.setIn c i { h with st := 2, epoch := ep, rate := rate, rp := rp % 2 ^ 32,
                                   budget := if h.dmax = 0 then 0 else (16 * fsOf rate + 999999) / 1000000 }
    let s := (s.inSync c i).arsTotals c
    s.each ((s.viewsOf c).filter fun v => (s.viewH c v).input == i) fun s v => s.viewShow c v

/-- Budget of a view in 10^6 MAC/s, rounded up (spec/06 R195). -/
def viewBudget (rateMax step : Nat) (predict : Bool) : Nat :=
  let b : Rat := 128 * fToRat rateMax * 2 ^ 32 / (step : Rat) * (if predict then 2 else 1) / 1000000
  (b.ceil).toNat

/-- RING_LOG as the ring fits in the cluster memory. -/
def fitRingLog (nlog : Nat) : Nat → Nat → Nat
  | 0, r => r
  | fuel + 1, r => if r ≤ 2 ∨ 64 + 2 ^ r * ((1 + (4 * 2 ^ nlog + 63) / 64) * 64) ≤ 0x800000 then r else fitRingLog nlog fuel (r - 1)

/-- The enabled views of a channel across all clusters (spec/06 R172). -/
def State.channelViews (s : State) (ch : Nat) : Nat :=
  (s.arsView.filter fun q => q.2.on && (let j := s.inH (q.1 / 512) q.2.input; j.on && j.chan == ch)).length

/-- VIEW_ON (spec/06 R172, R175, R178, R181, R195): answers RESULT. -/
def State.viewOn (s : State) (c v : Nat) : Nat × State :=
  let s := s.viewOff c v
  let a := clusterBase c + s.rd (pgArs c) 0x040 + 64 * v
  let ((dv, bad), s) := s.descRead (pgArs c) a 32
  if bad then (0, s) else
  let w := fun i => (dv / 2 ^ (32 * i)) % 2 ^ 32
  let cfg := w 0
  let nlog := clampTo 3 12 (bits cfg 15 12)
  let grid := bit cfg 16
  let predict := bit cfg 17
  let ringLog := fitRingLog nlog 12 (clampTo 2 12 (bits cfg 11 8))
  let cfg' := setBits (setBits (setBits cfg 15 12 nlog) 11 8 ringLog) 0 0 0
  let inp := s.inH c (bits cfg 31 24)
  -- the rate of an input that HOLDs is its channel's where there is one, else the last it took (R181)
  let fs := fsOf (if inp.on ∧ inp.st = 1 then (match s.channelPort inp.chan with | some (_, r) => r | none => inp.rate) else inp.rate)
  let look := if predict then w 1 % 65536 else max 1 (min (w 1 % 65536) ((2 ^ inp.histLog - 152) * 1000000 / fs))
  let stepCfg := if grid then clampTo (2 ^ 20) (2 ^ 29) (w 4) else w 4
  let rateMax := fClampRange 0x3A83126F 0x469C4000 (w 5)
  let ringBytes := 64 + 2 ^ ringLog * ((1 + (4 * 2 ^ nlog + 63) / 64) * 64)
  let ring := fitOffset (w 6) ringBytes
  let new := ofWords [cfg', look, w 2, w 3, stepCfg, rateMax, ring, 0]
  let clamped := new != ofWords [w 0 / 2 * 2, w 1 % 65536, w 2, w 3, w 4, w 5, w 6 % 2 ^ 23, 0]
  let s := s.wrMem a 32 new
  let s := if clamped then s.clampCount (pgArs c) 0x048 0 else s
  let old := s.viewH c v
  let h : ViewH :=
  { on := true, input := bits cfg 31 24, track := bits cfg 23 18, predict := predict, grid := grid, nlog := nlog,
    ringLog := ringLog, outEn := bit cfg 7, out := bits cfg 6 1, look := look, align := cat32 (w 2) (w 3), stepCfg := stepCfg,
    rateMax := rateMax, ring := ring, gen := (old.gen + 1) % 256, lastT := s.now }
  let budget := viewBudget rateMax h.step predict
  let tot := s.fld (pgArs c) 0x050 31 16; let pre := s.fld (pgArs c) 0x050 15 0
  let sameCh := if inp.on then s.channelViews inp.chan else 0
  if 45600 < tot + budget ∨ (predict ∧ 12000 < pre + budget) then (2, s)
  else if 16 ≤ sameCh then (3, s)
  else if s.trkKind h.track = 6 then (4, s)
  else
    let s := (s.setView c v { h with budget := budget }).tfeReopened c v 0 true
    let s := s.viewLine0 c v false 0
    (b2n clamped, ((s.viewShow c v).viewOnBit c v true).arsTotals c)

/-- IN_ON (spec/06 R173, R175, R195): answers RESULT. -/
def State.inOn (s : State) (c i : Nat) : Nat × State :=
  let s := s.inOff c i
  let a := clusterBase c + s.rd (pgArs c) 0x044 + 32 * i
  let ((dv, bad), s) := s.descRead (pgArs c) a 16
  if bad then (0, s) else
  let w := fun i => (dv / 2 ^ (32 * i)) % 2 ^ 32
  let cfg := w 0
  let chan := min 1535 (bits cfg 31 21)
  let size := clampTo 4 16 (bits cfg 20 16)
  let dmax := min 10 (bits cfg 13 10)
  let hl := clampTo 8 15 (bits cfg 9 6)
  let cfg' := chan * 2 ^ 21 + size * 2 ^ 16 + bits cfg 15 14 * 2 ^ 14 + dmax * 2 ^ 10 + hl * 2 ^ 6
  let ring := fitOffset (w 1) ((2 ^ size + 2) * 64)
  let hist := fitOffset (w 2) ((dmax + 1) * 2 ^ hl * 4)
  let new := ofWords [cfg', ring, hist, 0]
  let clamped := new != ofWords [w 0 / 64 * 64, w 1 % 2 ^ 23, w 2 % 2 ^ 23, 0]
  let s := s.wrMem a 16 new
  let s := if clamped then s.clampCount (pgArs c) 0x048 0 else s
  let budget := match (if dmax = 0 then none else s.channelPort chan) with
    | some (_, rate) => (16 * fsOf rate + 999999) / 1000000
    | none => 0
  let mine := (s.viewsOf c).filter fun v => (s.viewH c v).input == i
  if 45600 < s.fld (pgArs c) 0x050 31 16 + budget then (2, s)
  -- views enabled while the input was off count now: no channel has more than 16 (R172; log entry 164)
  else if !mine.isEmpty ∧ 16 < s.channelViews chan + mine.length then (3, s)
  else
  let cons := bits cfg 15 14
  let s := s.setIn c i { on := true, st := 1, chan := chan, size := size, cons := cons, dmax := dmax, histLog := hl,
                          ring := ring, hist := hist, budget := budget }
  let s := (s.inSync c i).arsTotals c
  (b2n clamped, s.inRefresh c i)

/-- Whether a logic self-test slice holds the ARS's datapath (spec/06 R199). -/
def State.arsSlice (s : State) (c : Nat) : Bool := s.runsOn (pgBistC c) 7 c

/-- The accepted command executes (spec/06 R175). -/
def State.arsExecute (s : State) (c : Nat) : State :=
  let s := s.arsResume c
  let h := s.arsH c
  let (res, s) :=
    if h.op = 1 then s.viewOn c h.idx else if h.op = 2 then (0, s.viewOff c h.idx)
    else if h.op = 3 then s.inOn c h.idx else (0, s.inOff c h.idx)
  s.setArs c { s.arsH c with res := res, wait := false }

/-- A command written to ARS_CMD while the page is READY and no command executes (spec/06 R175): it executes at once, or after the self-test slice that holds the datapath (R199). -/
def State.arsCommand (s : State) (c op idx : Nat) : State :=
  if op = 0 ∨ !s.ready (pgArs c) then s else
  let s := (s.setArs c { s.arsH c with op := op, idx := idx, wait := true }).setB (pgArs c) 0x04C 31
  if s.arsSlice c then s else s.arsExecute c

/-- ARS_COMMAND_COMPLETE: ARS_CMD_STAT shows the result. -/
def arsCommandComplete (c : Nat) (s : State) : State :=
  if !s.getB (pgArs c) 0x04C 31 ∨ s.arsSlice c then s else
  let s := if (s.arsH c).wait then s.arsExecute c else s
  let h := s.arsH c
  (s.wr (pgArs c) 0x04C (h.res * 2 ^ 28 + h.op * 2 ^ 24 + h.idx)).irq (pgArs c) 16

/-! Inputs (spec/06 R174, R182, R191). -/

/-- The address of sample `n` of octave `D` of an input's history. -/
def InH.sampleAddr (h : InH) (c D n : Nat) : Nat :=
  clusterBase c + h.hist + D * 2 ^ h.histLog * 4 + 4 * (n % 2 ^ h.histLog)

/-- A history sample with its poison; an index before the input's first sample reads as the gap value of cause 2. -/
def State.histRead (s : State) (c i D n : Nat) : Nat × Bool :=
  let h := s.inH c i
  match h.first with
  | none => (gapValue 2, false)
  | some f => if n * 2 ^ D < f then (gapValue 2, false) else (s.rdMem (h.sampleAddr c D n) 4).1

/-- The taps `from_` to `from_ + n - 1` of an octave; indices below 0 are gap values of cause 2. -/
def State.taps (s : State) (c i D : Nat) (from_ : Int) (n : Nat) : List (Nat × Bool) :=
  (List.range n).map fun (k : Nat) => if from_ + (k : Int) < 0 then (gapValue 2, false) else s.histRead c i D (from_ + (k : Int)).toNat

/-- The code of the earliest gap value among taps. -/
def firstGap (l : List (Nat × Bool)) : Option Nat := l.findSome? fun q => tapCode q.1

/-- Stores a sample in an octave and feeds the decimators below it; a stage's 49 taps give the sample 24 before (spec/06 R182, R191). -/
def State.storeSample (s : State) (c i : Nat) : Nat → Nat → Nat → Nat → Bool → State
  | 0, _, _, _, _ => s
  | fuel + 1, D, n, v, p =>
    let h := s.inH c i
    -- the word carries the poison of both samples it holds
    let a := h.sampleAddr c D n
    let other := a / 8 * 8 + (4 - a % 8)
    let s := s.setIn c i { h with bad := (if p then [a] else []) ++ h.bad.filter (· != a) }
    let s := s.wrMem (a / 8 * 8) 8 (if a % 8 = 0 then v % 2 ^ 32 + 2 ^ 32 * (s.rawLane a / 2 ^ 32) else s.rawLane (a - 4) % 2 ^ 32 + 2 ^ 32 * v) (p || h.bad.contains other)
    if h.dmax ≤ D ∨ n < 24 ∨ (n - 24) % 2 = 1 then s
    else
      let m := (n - 24) / 2
      let l := s.taps c i D (2 * (m : Int) - 24) 49
      let y := match firstGap l with
        | some code => gapValue code
        | none => (Config.arsDecimate (l.map (·.1))).toNat
      (s.arsWork c 16).storeSample c i fuel (D + 1) m y (l.any (·.2))

/-- Stores gap values of a cause for indices `from_` to `to_ - 1`, in every octave; those that no octave's history holds any more are not written. -/
def State.storeGap (s : State) (c i from_ to_ cause : Nat) (p : Bool := false) : State :=
  let h := s.inH c i
  let a := max from_ (to_ - 2 ^ (h.histLog + h.dmax + 1))
  s.each (List.range (to_ - a)) fun s k => s.storeSample c i 11 0 (a + k) (gapValue cause) p

/-- Samples present at an octave when `cnt` are present at octave 0. -/
def octCount : Nat → Nat → Nat
  | 0, cnt => cnt
  | D + 1, cnt => let x := octCount D cnt; if x < 25 then 0 else (x - 25) / 2 + 1

/-- Poison of each value of a cell: `l` gives its eight lanes, `w` bytes a value; a poisoned header word poisons them all. -/
def cellPois (l : List Bool) (w k : Nat) : Bool :=
  l.getD 0 false || l.getD 1 false || l.getD ((16 + w * k) / 8) false || l.getD ((16 + w * k + w - 1) / 8) false

/-- INPUT_CELL (spec/06 R174, R191, R192, R198): the ARS takes the next cell of an input's ring, or sees that the ring is closed. -/
def inputCell (c i t : Nat) (s : State) : State :=
  let s := s.upTo t
  if !(s.ready (pgArs c) || s.faulted (pgArs c)) || s.arsSlice c then s else
  let s := (s.arsResume c).inRefresh c i
  let h := s.inH c i
  let ring := clusterBase c + h.ring
  if !h.on || h.st < 2 || !s.usable ring h.ringBytes then s else
  let ((prod, pp), s) := s.rdMem64 ring
  let ((w1, _), s) := s.rdMem64 (ring + 8)
  let h := s.inH c i
  if h.st = 3 then
    if bit w1 8 then s else
    let ((rp, _), s) := s.rdMem64 (ring + 64 + 8 * h.cons)
    let s := s.setIn c i { h with st := 2, rp := rp % 2 ^ 32 }
    (s.inSync c i).each (s.viewsOf c) fun s v => if (s.viewH c v).input = i then s.viewShow c v else s
  else if pp ∨ prod % 2 ^ 32 = h.rp then
    if bit w1 8 then
      let s := (s.setIn c i { h with st := 3 }).irq (pgArs c) 19
      (s.inSync c i).viewsStop c i
    else s
  else
    let (ls, s) := s.rdLanes 8 (ring + 128 + 64 * (h.rp % 2 ^ h.size)) none
    let cell := ls.foldr (fun q acc => q.1 % 2 ^ 64 + 2 ^ 64 * acc) 0
    let pl := ls.map (·.2)
    let fmt := bits cell 26 24
    let s :=
      if bits cell 63 48 ≠ h.chan ∨ fmt = 0 then s.bump (pgArs c) 0x05C 15 0
      else
        let idx := bits cell 111 64
        let isGap := bit cell 12
        let units := fmt == 3
        let s := if !isGap && h.units == some (!units) then s.viewsStop c i else s
        let first := h.first.getD idx
        let next := if h.first.isSome then h.next else idx
        let s := s.setIn c i { h with first := some first, next := next, units := if isGap then h.units else some units }
        let s := if next < idx then s.storeGap c i next idx 2 else s
        let pay := cell / 2 ^ 128
        let cnt := if isGap then pay % 2 ^ 32 else bits cell 47 40
        let cause := (pay / 2 ^ 32) % 256
        let s := if isGap then s.storeGap c i idx (idx + cnt) cause (cellPois pl 8 0)
          else s.each (List.range cnt) fun s k =>
            let wd := if fmt = 1 then 3 else 4
            let raw := (pay / 256 ^ (wd * k)) % 256 ^ wd
            let v := if fmt = 1 then (fOfInt false (toS 24 raw) 0).1 else if fmt = 2 then (fOfInt false (toS 32 raw) 0).1 else raw
            s.storeSample c i 11 0 (idx + k) v (cellPois pl wd k)
        let h := s.inH c i
        let mk := bits cell 36 32
        let mks := (if mk = 0 then h.marks else (idx, cnt, mk) :: h.marks).filter fun q => decide (idx < q.1 + q.2.1 + 2 ^ (h.histLog + h.dmax))
        s.setIn c i { h with next := idx + cnt, arr := ((idx + cnt, t) :: h.arr).take 64, marks := mks }
    let h := s.inH c i
    let s := s.setIn c i { h with rp := (h.rp + 1) % 2 ^ 32 }
    let s := s.wrMem (ring + 64 + 8 * h.cons) 8 ((h.rp + 1) % 2 ^ 32)
    s.inSync c i

/-! Views on the track (spec/06 R176–R181, R193). -/

/-- The polynomial of a track's applied record in TPOS counts and turns/s at a rational cycle. -/
def State.trkAt (s : State) (k : Nat) (t : Rat) : Nat × Rat :=
  let r := (s.trkH k).brec
  let dt := (t - r.tb) / 3000000000
  (((tposOf (posAt ((r.pos : Rat) / 2 ^ 32) (fToRat r.rate) (fToRat r.accel) (fToRat r.jerk) dt)) % 2 ^ 64).toNat,
    rateAt (fToRat r.rate) (fToRat r.accel) (fToRat r.jerk) dt)

/-- Whether TPOS `x` has reached `th` (spec/00_scope.md R5: modular difference). -/
def reached (x th : Nat) : Bool := decide (0 ≤ toS 64 ((x + 2 ^ 64 - th % 2 ^ 64) % 2 ^ 64))

/-- The least 1/16 cycle in (lo, hi] at which the record's position has reached `th`, by halving. -/
def State.solveGo (s : State) (k th : Nat) : Nat → Nat → Nat → Nat
  | 0, _, hi => hi
  | fuel + 1, lo, hi =>
    if hi ≤ lo + 1 then hi
    else
      let mid := (lo + hi) / 2
      if reached (s.trkAt k ((mid : Rat) / 16)).1 th then s.solveGo k th fuel lo mid else s.solveGo k th fuel mid hi

/-- Output rate r_o, its octave D if the deepest allowed reaches it, and the corner (spec/06 R182, R183). -/
def outRate (step : Nat) (rate : Rat) : Rat := (2 ^ 32 : Rat) / (step : Rat) * (if rate < 0 then -rate else rate)
def octaveOf (fs : Nat) (ro : Rat) : Nat :=
  (List.range 11).foldl (fun b D => if 5 / 4 * ro ≤ (fs : Rat) / 2 ^ D then D else b) 0
def cornerOf (fs : Nat) (ro : Rat) : Rat := (if (fs : Rat) < ro then (fs : Rat) else ro) * 25 / 64

/-- Λ in cycles (spec/06 R180). -/
def lambda (fs D look : Nat) : Rat :=
  (64 * 2 ^ D / (fs : Rat) + 24 * (2 ^ D - 1) / (fs : Rat) + (look : Rat) / 1000000) * 3000000000

/-- The block boundary at or after a position: ALIGN plus a whole number of blocks (spec/06 R176, R178). -/
def ViewH.boundary (h : ViewH) (x : Nat) : Nat :=
  let r := toS 64 ((x + 2 ^ 64 - h.align % 2 ^ 64) % 2 ^ 64)
  let l : Int := (h.step * h.len : Nat)
  (((h.align : Int) + ((r + l - 1) / l) * l) % 2 ^ 64).toNat

/-- Adds every grid point that the view's position has reached, with the instant that `solve` gives. -/
def resolveGo (solve : Nat → GridPt) (x step : Nat) : Nat → Nat → List GridPt → Nat × List GridPt
  | 0, th, acc => (th, acc)
  | fuel + 1, th, acc =>
    if reached x th then resolveGo solve x step fuel ((th + step) % 2 ^ 64) (acc ++ [solve th]) else (th, acc)

/-- Resolves a view's grid points up to position `x` reached at cycle `hi` (in 1/16 cycles), the search starting at `lo` (spec/06 R177–R180). A move back marks the block it happens in; past the last sample of a block that is closed, the next one (DESIGN CHOICE, log entry 188). -/
def State.viewResolve (s : State) (c v x lo hi : Nat) : State :=
  let h := s.viewH c v
  let back := match h.lastX with
    | some y => !reached x y
    | none => false
  let h := if !back then h
    else match h.pts.reverse with
      | p :: ps => { h with pts := (({ p with rev := true } : GridPt) :: ps).reverse }
      | [] => if h.isOpen then { h with flags := h.flags ||| 32 } else if h.wait then h else { h with revNext := true }
  let th := if h.wait then h.boundary (h.lastX.getD x) else h.theta
  let solve (th : Nat) : GridPt :=
    -- a record that places the point behind the cycle already judged has it reached in the next one (R179)
    let q := if reached (s.trkAt h.track ((lo : Rat) / 16)).1 th then (if h.predict then min hi (lo + 16) else lo) else s.solveGo h.track th 64 lo hi
    let q := if h.predict then (q + 15) / 16 * 16 else q
    { theta := th, tj := (q : Rat) / 16, rate := (s.trkAt h.track ((q : Rat) / 16)).2, tq := s.trkTqAt h.track (q / 16), pois := (s.trkH h.track).brec.pois }
  let n := (toS 64 ((x + 2 ^ 64 - th) % 2 ^ 64) / (h.step : Int) + 1).toNat
  let (th', pts) := resolveGo solve x h.step n th []
  let started := !pts.isEmpty
  s.setView c v { h with lastX := some x, wait := h.wait && !started, theta := if h.wait && !started then h.theta else th', pts := h.pts ++ pts }

/-- Whether a view's track moves it on: its input RUNNING, its track LOCKED or COASTING and no COUNT track. -/
def State.viewLive (s : State) (c v : Nat) : Bool :=
  let st := s.viewState c v
  st == 2 || st == 3

/-- PREDICT = 1: the position extrapolated at every cycle up to `t` (spec/06 R179). -/
def State.viewPredict (s : State) (c v t : Nat) : State :=
  let h := s.viewH c v
  if !h.predict || !s.viewLive c v || t < h.lastT then s else
  let x := (s.trkX h.track t % 2 ^ 64).toNat
  let s := s.viewResolve c v x (16 * h.lastT) (16 * t)
  s.setView c v { s.viewH c v with lastT := t }

/-- PREDICT = 0: the broadcast just applied, evaluated Λ before its instant (spec/06 R180). -/
def State.viewSettled (s : State) (c v : Nat) : State :=
  let h := s.viewH c v
  if h.predict || !s.viewLive c v then s else
  let inp := s.inH c h.input
  let r := (s.trkH h.track).brec
  let fs := fsOf inp.rate
  let lam := lambda fs (octaveOf fs (outRate h.step (fToRat r.rate))) h.look
  let at_ : Rat := (r.tb : Rat) - lam
  -- a Λ that has grown looks back to an instant judged before: nothing new
  if at_ < h.lastT then s else
  let hi := (at_ * 16).floor.toNat
  let s := s.viewResolve c v (s.trkAt h.track at_).1 (min (hi - 64 * 16) (16 * h.lastT)) hi
  s.setView c v { s.viewH c v with lastT := at_.floor.toNat }

/-- BROADCAST_APPLY with what it brings to the views: points reached before it are resolved by the old record, then a track that enters ACQUIRING or OFF, or whose TQ.JUMP rises, re-aligns its views (spec/06 R192, R193). -/
def broadcastApplied (t : Nat) (s : State) : State :=
  match s.bcast with
  | [] => s
  | (tb, _) :: _ =>
    if t < tb + 24 then s else
    let live := s.arsView.filter fun q => q.2.on && s.ready (pgArs (q.1 / 512))
    let s := s.each live fun s q => s.viewPredict (q.1 / 512) (q.1 % 512) (t - 1)
    let s := s.each (live.map fun q => q.1 / 512).eraseDups fun s c => if s.arsSlice c then s else s.arsResume c
    let before := live.map fun q => s.trkTq q.2.track
    let s := broadcastApply t (s.wptFirsts t)
    s.each (live.zip before) fun s qb =>
      let c := qb.1.1 / 512; let v := qb.1.1 % 512
      let tq := s.trkTq qb.1.2.track
      let st := bits tq 2 0
      let entered := bits qb.2 2 0 ≠ st ∧ (st = 0 ∨ st = 1)
      let s := if entered ∨ (bit tq 4 ∧ !bit qb.2 4) then s.viewRealignLater c v 0x10 (s.arsSlice c) else s
      let s := s.viewShow c v
      (s.viewSettled c v).viewPredict c v t

/-! Samples (spec/06 R182–R197). -/

/-- One output sample computed from its taps: the sums run from the first tap to the last in binary32 fused multiply-adds (spec/06 R184). -/
def arsSample (gamma frac : Rat) (l : List (Nat × Bool)) : Nat :=
  let (num, den) := l.zipIdx.foldl (fun (acc : Nat × Nat) q =>
    let h := arsCoef gamma ((q.2 : Rat) - 63 - frac)
    ((fFma false h q.1.1 acc.1).1, (fAdd false acc.2 h).1)) (0, 0)
  (fDiv false num den).1

/-- MARKS of the input cells that octave-0 indices `a` to `b` lie in. -/
def InH.marksOf (h : InH) (a b : Int) : Nat :=
  h.marks.foldl (fun m q => if (q.1 : Int) ≤ b ∧ a < (q.1 + q.2.1 : Int) then m ||| q.2.2 else m) 0

/-- The cycle at which an input held `need` samples. -/
def InH.arrival (h : InH) (need : Nat) : Nat :=
  h.arr.foldl (fun b q => if need ≤ q.1 then q.2 else b) 0

/-- A checked sample whose two lanes differ (spec/06 R197, R198). -/
def State.arsDiffer (s : State) (c v t : Nat) : State :=
  let h := s.viewH c v
  let s := s.setView c v { h with flags := h.flags ||| 128, dual := satAdd 0xFFFFFFFF h.dual 1 }
  let s := (s.bump (pgArs c) 0x05C 31 24).irq (pgArs c) 18
  let s := s.wr (pgArs c) 0x064 v
  let a := s.arsH c
  let recent := t :: a.diffs.filter fun d => decide (t < d + 10 * cyclesPerMs)
  let s := s.setArs c { a with diffs := recent }
  if 3 ≤ recent.length then (s.setArs c { s.arsH c with diffs := [] }).pageFault (pgArs c) 0x01 else s

/-- What the oldest resolved point of a view needs (spec/06 R182–R184, R191): octave, corner, whether it is above RATE_MAX or below DMAX, its place among the working samples, the octave-0 samples needed. -/
structure PtNeed where
  D : Nat
  fc : Rat
  isOver : Bool
  under : Bool
  u : Rat
  need : Nat

def State.ptNeed (s : State) (c : Nat) (h : ViewH) (p : GridPt) : PtNeed :=
  let inp := s.inH c h.input
  let fs := fsOf inp.rate
  let ro := outRate h.step p.rate
  let D := octaveOf fs ro
  let isOver := fToRat h.rateMax < absRat p.rate
  let u : Rat := (p.tj - inp.epoch) * ((fs : Rat) / 2 ^ D) / 3000000000
  { D := D, fc := cornerOf fs ro, isOver := isOver, under := !isOver && decide (inp.dmax < D), u := u,
    need := ((u.floor + 65) * 2 ^ D + 24 * (2 ^ D - 1)).toNat }

/-- When the oldest resolved point of a view became ready: its instant and its last input sample, in cycles (spec/06 R196); none while it waits for samples. -/
def State.viewReadyT (s : State) (c v : Nat) : Option Nat :=
  let h := s.viewH c v
  match (if h.on then h.pts else []) with
  | [] => none
  | p :: _ =>
    let q := s.ptNeed c h p
    let inp := s.inH c h.input
    let tj := (ratNearest p.tj).toNat
    if q.isOver || q.under then some tj
    else if (octCount q.D inp.next : Int) < q.u.floor + 65 then none
    else some (max tj (inp.arrival q.need))

/-- Whether the ARS serves another view's sample first (spec/06 R196): PREDICT samples before the others, each in order of readiness. -/
def State.viewAhead (s : State) (c v : Nat) : Bool :=
  match s.viewReadyT c v with
  | none => false
  | some t =>
    let p := (s.viewH c v).predict
    (s.viewsOf c).any fun w => w != v && (match s.viewReadyT c w with
      | none => false
      | some t' => let q := (s.viewH c w).predict; (q && !p) || (q == p && decide (t' < t)))

/-- OUTPUT_SAMPLE (spec/06 R182–R199): the oldest resolved point of a view, once its inputs are in the history and no other view's sample goes first; `diff` says that the two lanes of a checked sample differ, `bad` that a coefficient is poisoned (R194). -/
def outputSample (c v t : Nat) (diff bad : Bool) (s : State) : State :=
  let s := s.upTo t
  if !s.ready (pgArs c) || !(s.viewH c v).on || s.arsSlice c then s else
  let s := (s.arsResume c).viewPredict c v s.now
  let h := s.viewH c v
  match h.pts with
  | [] => s
  | p :: rest =>
    let inp := s.inH c h.input
    let fs := fsOf inp.rate
    let q := s.ptNeed c h p
    let D := q.D
    let n0 := q.u.floor
    if !q.isOver && !q.under && ((octCount D inp.next : Int) < n0 + 65) || s.viewAhead c v then s else
    let s := s.setView c v { h with pts := rest }
    let s := if h.isOpen then s else s.blockOpen c v p q.fc D
    let h := s.viewH c v
    let l := s.taps c h.input D (n0 - 63) 128
    let (val, pois, code) : Nat × Bool × Option Nat :=
      if q.isOver then (gapValue 0x11, p.pois, some 0x11)
      else if q.under then (gapValue 0x12, p.pois, some 0x12)
      else match firstGap l with
        | some k => (gapValue k, l.any (·.2) || p.pois, some k)
        | none => (arsSample (q.fc * 2 ^ D / (fs : Rat) + 307 / 10000) (q.u - n0) l, l.any (·.2) || p.pois || bad, none)
    let j := (toS 64 ((p.theta + 2 ^ 64 - h.align % 2 ^ 64) % 2 ^ 64)) / (h.step : Int)
    let differs := diff && code.isNone && (h.predict || j % 256 == 0)
    let s := if differs then s.arsDiffer c v s.now else s
    let s := s.put32 (h.slotAddr c h.prod + 64 + 4 * h.n) val (pois || differs)
    let s := if code.isNone then s.arsWork c (if h.predict || j % 256 == 0 then 256 else 128) else s
    let h := s.viewH c v
    let gap17 := match code with
      | some k => decide (1 ≤ k) && decide (k ≤ 7)
      | none => false
    let flags := h.flags ||| b2n gap17 ||| (if pois || differs then 2 else 0) ||| (if (fs : Rat) < outRate h.step p.rate then 4 else 0) |||
      (if q.isOver then 8 else 0) ||| (if p.rev then 32 else 0)
    let mk := if q.isOver || q.under then h.marks else
      h.marks ||| inp.marksOf ((n0 - 63) * 2 ^ D - 24 * (2 ^ D - 1)) ((n0 + 64) * 2 ^ D + 24 * (2 ^ D - 1))
    let svc := s.now - max (ratNearest p.tj).toNat (if q.isOver || q.under then 0 else inp.arrival q.need)
    let s := s.setView c v { h with
      n := h.n + 1, flags := flags, marks := mk, tqOr := h.tqOr ||| p.tq, tqMax := max h.tqMax (bits p.tq 2 0),
      nvalid := h.nvalid + b2n code.isNone, ngap := h.ngap + b2n code.isSome, ngapAll := satAdd 0xFFFFFFFF h.ngapAll (b2n code.isSome),
      tLast := p.tj, rateEnd := fOfRat p.rate, d := D, high := some p.theta, lat := if h.predict then min svc 0xFFFFFFFF else h.lat }
    let s := if q.isOver || q.under then s.viewEvt c v else s
    let s := if h.predict then s.raiseMax (pgArs c) 0x060 31 0 svc else s
    let h := s.viewH c v
    let s := if h.predict ∨ h.n % 16 = 0 then s.viewLine0 c v false h.n else s
    let s := if h.n = h.len then s.blockClose c v false else s
    let s := match p.stop with
      | some code =>
        let s := s.blockFill c v code
        s.setView c v { s.viewH c v with high := none }
      | none => s
    s.viewShow c v

/-- ARS recovery after FAULT (spec/06 R192, R198): every enabled view re-aligns with 0x13. -/
def State.arsRecovered (s : State) (c : Nat) : State := s.each (s.viewsOf c) fun s v => s.viewRealign c v 0x13

/-- The ARS lost its power or was reset: every view and input is OFF, rings are left as they stand (spec/06 R200). -/
def State.arsClear (s : State) (c : Nat) : State :=
  let s := s.each (s.insOf c) fun s i => s.setIn c i {}
  let s := s.each (s.viewsOf c) fun s v => (s.setView c v { gen := (s.viewH c v).gen }).viewOnBit c v false
  ((s.setArs c {}).setB (pgArs c) 0x04C 31 false).arsTotals c

end Sys2Proof.Machine
end

