-- ==== Sys2Proof/Machine/KBase.lean ====
section
/-! DEFINITION. What one bundle of a Kolotte copy works on: the stack file and its window, capabilities, local memory with the undo log, the output commit buffer, the return stack (spec/11 R326–R335, spec/10 R286–R301). -/

namespace Sys2Proof.Machine

/-- Why a bundle does not complete: a precise fault (spec/14 R415), a wait for a result, a wait for the CLU page of a cluster to be READY (spec/02 R54), or a wait for the commit that releases so many entries of the output commit buffer (spec/10 R299). -/
inductive KStop where
  | fault (cause faddr creg : Nat)
  | hold
  | stall (page : Nat)
  | due (n : Nat)
  deriving DecidableEq, Repr

/-- A bundle under execution: the state, the copy before the bundle (`old`) and as the bundle leaves it (`k`), the literal, the address of the next bundle; the cycle it issues in, the MA waits of earlier bundles that delay its own accesses and results (spec/13 R388, R390), cycles added to its Iss, the line buffer it is taken from, its redirect: 1 a covered one, 2 an uncovered one (R400). -/
structure KX where
  s : State
  t : Nat
  copy : Nat
  chk : Bool
  mode : Nat
  old : KCopy
  k : KCopy
  lit : Nat := 0
  next : Nat := 0
  rcRep : Bool := false
  arith : List Nat := []
  taken : Bool := false
  trap : Option Nat := none
  wait : Bool := false
  iss : Nat := 0
  lag : Nat := 0
  more : Nat := 0
  line : Option Nat := none
  redir : Nat := 0
  deriving DecidableEq, Repr

abbrev KM (α : Type) : Type := Except KStop α

def KStop.pz (k : KCopy) (creg : Nat := 0) : KStop := .fault 7 k.pc creg
def KStop.ill (k : KCopy) : KStop := .fault 1 k.pc 0
def KStop.cap (k : KCopy) (creg : Nat) : KStop := .fault 3 k.pc creg

/-- Fields of a capability (spec/14 R408). -/
def Cap.base (c : Cap) : Nat := bits c.val 39 0
def Cap.len (c : Cap) : Nat := bits c.val 79 40 + bits c.val 105 105 * 2 ^ 40
def Cap.perms (c : Cap) : Nat := bits c.val 95 80
def Cap.perm (c : Cap) (i : Nat) : Bool := bit c.val (80 + i)
def Cap.ktype (c : Cap) : Nat := bits c.val 103 96
def Cap.knotted (c : Cap) : Bool := bit c.val 104
def Cap.top (c : Cap) : Nat := c.base + c.len
/-- Tagged and not knotted: what any use but a move asks (spec/14 R412). -/
def Cap.usable (c : Cap) : Bool := c.tag && !c.knotted
def Cap.covers (c : Cap) (a n : Nat) : Bool := decide (c.base ≤ a) && decide (a + n ≤ c.top)

/-- The all-covering capability of FORERUNNER (spec/14 R409). -/
def Cap.all : Cap := ⟨2 ^ 105 + 0x1FF * 2 ^ 80, true⟩

def KCopy.cap (k : KCopy) (n : Nat) : Cap := k.caps.getD n {}
def KCopy.setCap (k : KCopy) (n : Nat) (c : Cap) : KCopy := { k with caps := setAt k.caps n c }
def KCopy.top (k : KCopy) : Nat := k.base + k.depth

/-- A predicate; P0 reads 1 (spec/11 R326). -/
def KCopy.pred (k : KCopy) (n : Nat) : Bool := n == 0 || bit k.preds n
/-- A predicate write; one to P0 is ignored (spec/12 R365). -/
def KCopy.setPred (k : KCopy) (n : Nat) (b : Bool) : KCopy := if n = 0 then k else { k with preds := setBit k.preds n b }

def fileZero : Nat → Nat × Bool := fun _ => (0, false)

/-- The stack-file entry of position `p` (spec/11 R330). -/
def KCopy.entry (k : KCopy) (p : Nat) : Nat × Bool := sget fileZero k.file (p % 256)

/-- Whether an external read for position `p` is under way (spec/13 R389). -/
def KCopy.extAt (k : KCopy) (p : Nat) : Bool := k.ext.any fun e => e.pos == p || (e.op == .ldd && e.pos + 1 == p)

/-- Whether a suspended division is destined for position `p`, whose scoreboard bit it keeps (spec/13 R403). -/
def KCopy.latched (k : KCopy) (p : Nat) : Bool := (k.latI.toList ++ k.latF.toList).any fun e => e.pos == p

/-- Whether the scoreboard bit of position `p` stands until something outside the copy's own cycles clears it. -/
def KCopy.pendingAt (k : KCopy) (p : Nat) : Bool := k.extAt p || k.latched p

/-- The first cycle in which a bundle reads position `p`, as the scoreboard holds it (spec/13 R389). -/
def KCopy.readyAt (k : KCopy) (p : Nat) : Nat :=
  (k.lat ++ (k.divI.toList ++ k.divF.toList).map fun e => (e.pos, e.ready)).foldl (fun c e => if e.1 = p then max c e.2 else c) 0

/-- Writes the entry of position `p`; a load in its shadow for that position is lost (spec/11 R349). -/
def KCopy.put (k : KCopy) (p v : Nat) (pois : Bool) : KCopy :=
  { k with file := sput fileZero (p % 256) (v % 2 ^ 32, pois) k.file, shadow := k.shadow.filter fun e => e.pos != p }

/-- Lands every load still in its shadow (spec/11 R349, spec/14 R420). -/
def KCopy.landAll (k : KCopy) : KCopy :=
  let k' := k.shadow.foldl (fun (k : KCopy) e => { k with file := sput fileZero (e.pos % 256) (e.val % 2 ^ 32, e.pois) k.file }) k
  { k' with shadow := [] }

/-- Lands the shadowed loads of the positions from `a` to `b - 1`. -/
def KCopy.landIn (k : KCopy) (a b : Nat) : KCopy :=
  let here := fun (e : ShadowE) => decide (a ≤ e.pos) && decide (e.pos < b)
  let k' := (k.shadow.filter here).foldl (fun (k : KCopy) e => { k with file := sput fileZero (e.pos % 256) (e.val % 2 ^ 32, e.pois) k.file }) k
  { k' with shadow := k.shadow.filter fun e => !here e }

/-- One bundle passes for the loads in their shadow (spec/11 R349). -/
def KCopy.shadowTick (k : KCopy) : KCopy :=
  let k' := (k.shadow.filter fun e => e.left ≤ 1).foldl
    (fun (k : KCopy) e => { k with file := sput fileZero (e.pos % 256) (e.val % 2 ^ 32, e.pois) k.file }) k
  { k' with shadow := (k.shadow.filter fun e => !(e.left ≤ 1)).map fun e => { e with left := e.left - 1 } }

/-- LOW follows TOP down (spec/11 R330). -/
def KCopy.lowFollow (k : KCopy) : KCopy := if k.top < k.low then { k with low := k.top / 8 * 8 } else k

/-- The position one below TOP's. -/
def KX.topPos (x : KX) : Nat := x.k.top - 1

/-- Takes the top entry off. -/
def KX.pop (x : KX) : KM ((Nat × Bool) × KX) :=
  if x.k.pendingAt x.topPos then .error .hold
  else .ok (x.k.entry x.topPos, { x with k := { x.k with depth := x.k.depth - 1 } })

/-- Drops `n` entries unread; LOW follows TOP down (spec/11 R330). -/
def KX.drop (x : KX) (n : Nat) : KX := { x with k := ({ x.k with depth := x.k.depth - n } : KCopy).lowFollow }

/-- Reads the entry at a position without taking it off. -/
def KX.read (x : KX) (p : Nat) : KM (Nat × Bool) :=
  if x.k.pendingAt p then .error .hold else .ok (x.k.entry p)

/-- Writes the entry at a position. -/
def KX.write (x : KX) (p v : Nat) (pois : Bool) : KM KX :=
  if x.k.pendingAt p then .error .hold else .ok { x with k := x.k.put p v pois }

/-- Pushes a word. -/
def KX.push (x : KX) (v : Nat) (pois : Bool) : KM KX := do
  let x ← x.write x.k.top v pois
  .ok { x with k := { x.k with depth := x.k.depth + 1 } }

/-- Pushes a 64-bit value, its low word deeper (spec/00_scope.md R6). -/
def KX.push64 (x : KX) (v : Nat) (pois : Bool) : KM KX := do
  let x ← x.push (lo32 v) pois
  x.push (hi32 v) pois

/-- Takes a 64-bit value off. -/
def KX.pop64 (x : KX) : KM ((Nat × Bool) × KX) := do
  let (h, x) ← x.pop
  let (l, x) ← x.pop
  .ok ((cat32 l.1 h.1, l.2 || h.2), x)

/-- Takes a value off that is used as spec/12 R363 names: a poisoned one raises POISON. -/
def KX.popUse (x : KX) (creg : Nat := 0) : KM (Nat × KX) := do
  let (v, x) ← x.pop
  if v.2 then .error (.pz x.old creg) else .ok (v.1, x)

/-- STATUS bits that exist (spec/11 R350). -/
def statusMask : Nat := 0x3F07

/-- Sets sticky flags (spec/11 R350, R351). -/
def KX.flags (x : KX) (f : FFlags) : KX :=
  let v := b2n f.sat * 2 ^ 8 + b2n f.nv * 2 ^ 9 + b2n f.dz * 2 ^ 10 + b2n f.ovf * 2 ^ 11 + b2n f.uf * 2 ^ 12 + b2n f.nx * 2 ^ 13
  { x with k := { x.k with status := x.k.status ||| v } }

/-- Notes an arithmetic exception (spec/14 R416). -/
def KX.raiseArith (x : KX) (cause : Nat) : KX := { x with arith := x.arith ++ [cause] }

def KX.ftz (x : KX) : Bool := bit x.old.status 2

/-- Own local memory (spec/02 R28): whether an access lies in it, and where it stands. -/
def inOwn (a n : Nat) : Bool := decide (ownBase ≤ a) && decide (a + n ≤ ownBase + 0x80000)
def physOf (t a : Nat) : Nat := tileBase t + (a - ownBase)

/-- The free pages of a tile in PAIR as byte offsets. -/
def freeRange (h : TileH) : Nat × Nat := (ownBase + h.freeBase * 4096, ownBase + (h.freeBase + h.freeSize) * 4096)

/-- The first address of a local access that spec/10 R288 forbids in PAIR: copy C outside its pages, the checked core's writes inside them. -/
def KX.pairBad (x : KX) (a n : Nat) (wr : Bool) : Option Nat :=
  if x.mode ≠ 1 then none
  else
    let (lo, hi) := freeRange (x.s.tileH x.t)
    if x.copy = 2 then (if a < lo ∨ hi ≤ a then some a else if hi < a + n then some hi else none)
    else if wr ∧ lo < hi ∧ a < hi ∧ lo < a + n then some (max a lo)
    else none

/-- A PMC counter takes `n` more (spec/16 R465). -/
def State.pmcPut (s : State) (t i n : Nat) : State :=
  let p := pgPmc t
  let v := s.rd p (0x070 + 8 * i) + s.rd p (0x074 + 8 * i) % 65536 * 2 ^ 32 + n
  let s := (s.wr p (0x070 + 8 * i) (lo32 v)).wr p (0x074 + 8 * i) (bits v 47 32)
  if v < 2 ^ 48 then s
  else
    let s := (s.setB p 0x044 i).irq p (16 + i)
    if s.getB p 0x040 1 then s.setB p 0x040 0 else s

/-- A PMC counter counts `n` events, which a write of the counter in the same cycle does not lose (spec/16 R465). -/
def State.pmcAdd (s : State) (t i n : Nat) : State := (s.pmcPut t i n).note (regKey (pgPmc t) (0x070 + 8 * i)) 31 0 n

/-- A counter has been written: the events of the present cycle come on top (spec/16 R465). -/
def State.pmcWritten (s : State) (t i : Nat) : State := s.pmcPut t i (s.hotAt (regKey (pgPmc t) (0x070 + 8 * i)) 31 0 .took)

/-- The value of a counter. -/
def State.pmcCnt (s : State) (t i : Nat) : Nat := s.rd (pgPmc t) (0x070 + 8 * i) + s.rd (pgPmc t) (0x074 + 8 * i) % 65536 * 2 ^ 32

/-- The instant a tile's cycle counts are settled to. -/
def State.pmcT0 (s : State) (t : Nat) : Nat := sget zeroN s.pmcT t

/-- The counters that count cycles, event 0x01. -/
def State.pmcCycSel (s : State) (t : Nat) : List Nat :=
  (List.range 6).filter fun i => let sel := s.rd (pgPmc t) (0x050 + 4 * i); bit sel 31 && bits sel 7 0 == 1

/-- Brings PMC_CYCLES and the counters of event 0x01 to the present (spec/16 R463, R465): every cycle counts while ENABLE = 1 and FREEZE = 0; under FOVF none after the cycle in which one wraps. -/
def State.pmcSettle (s : State) (t : Nat) : State :=
  let p := pgPmc t
  let n := s.now - s.pmcT0 t
  let s := { s with pmcT := sput zeroN t s.now s.pmcT }
  if n = 0 ∨ !s.enabled p ∨ s.getB p 0x040 0 then s
  else
    let sel := s.pmcCycSel t
    let n := if s.getB p 0x040 1 then sel.foldl (fun m i => min m (2 ^ 48 - s.pmcCnt t i)) n else n
    (s.wr64 p 0x048 ((s.rd64 p 0x048 + n) % 2 ^ 64)).each sel fun s i => s.pmcPut t i n

/-- Counts `n` events of code `ev` for a copy. -/
def State.pmcEvent (s : State) (t copy ev n : Nat) : State :=
  if n = 0 ∨ !s.enabled (pgPmc t) ∨ s.getB (pgPmc t) 0x040 0 then s
  else (List.range 6).foldl (fun s i =>
    let sel := s.rd (pgPmc t) (0x050 + 4 * i)
    if bit sel 31 ∧ bits sel 29 28 = copy ∧ bits sel 7 0 = ev then s.pmcAdd t i n else s) (s.pmcSettle t)

def KX.count (x : KX) (ev : Nat) (n : Nat := 1) : KX := { x with s := x.s.pmcEvent x.t x.copy ev n }

/-- Changes the tile's record. -/
def KX.updTile (x : KX) (f : TileH → TileH) : KX := { x with s := x.s.setTile x.t (f (x.s.tileH x.t)) }

/-- The undo-log entries of a write (spec/10 R296): each lane's contents, poison and tag copies. -/
def State.undoFor (s : State) : Nat → Nat → List UndoE
  | 0, _ => []
  | n + 1, lane =>
    let q := (s.rdLanes 1 lane none).1.headD (0, false)
    ⟨lane, q.1, b2n q.2, s.tagCopies lane⟩ :: s.undoFor n (lane + 8)

/-- Adds undo-log entries for a write of `n` bytes at a physical address, in a checked core. -/
def KX.logUndo (x : KX) (pa n : Nat) : KX :=
  if !x.chk then x
  else
    let es := x.s.undoFor ((pa + n + 7) / 8 - pa / 8) (pa / 8 * 8)
    let x := x.updTile fun h => { h with undo := h.undo ++ es }
    { x with s := x.s.raiseMax (pgTile x.t) 0x06C 31 21 (x.s.tileH x.t).undo.length }

/-- Undoes logged writes, the newest first (spec/10 R302). -/
def State.undoAll (s : State) (l : List UndoE) : State :=
  l.reverse.foldl (fun s e => (s.wrMemP e.addr 8 e.old [e.pois != 0]).setTag e.addr e.tag) s

/-- Applies held writes of Basecamp and debug access (spec/10 R301, spec/14 R427). -/
def State.applyHeld (s : State) (l : List HeldW) : State :=
  l.foldl (fun s w => if w.size = 0 then s.setTag w.addr (if w.val = 1 then 7 else 0) else s.wrMem w.addr w.size w.val w.pois) s

/-- An undo-log entry of a lane as a held write leaves it, so that a restore leaves that write in place (spec/10 R301). -/
def UndoE.patch (e : UndoE) (w : HeldW) : UndoE :=
  if w.addr / 16 ≠ e.addr / 16 then e
  else if w.size = 0 then { e with tag := if w.val = 1 then 7 else 0 }
  else if w.addr / 8 ≠ e.addr / 8 then { e with tag := 0 }
  else
    let o := w.addr % 8
    { e with old := setBits e.old (8 * (o + w.size) - 1) (8 * o) w.val, tag := 0, pois := if w.size = 8 then b2n w.pois else max e.pois (b2n w.pois) }

/-- The held writes and the first of those that wait are applied; up to 16 more become held (spec/10 R301). -/
def State.heldStep (s : State) (t : Nat) : State :=
  let h := s.tileH t
  (s.setTile t { h with undo := h.undo.map fun e => h.held.foldl UndoE.patch e, held := h.heldWait.take 16, heldWait := h.heldWait.drop 16 }).applyHeld h.held

/-- Every write held or waiting is applied: the tile commits no more. -/
def State.heldFlush (s : State) (t : Nat) : State :=
  let h := s.tileH t
  let l := h.held ++ h.heldWait
  (s.setTile t { h with undo := h.undo.map fun e => l.foldl UndoE.patch e, held := [], heldWait := [] }).applyHeld l

/-- The delay D of a store after its MA cycle (spec/13 R395); the least where the port decides. -/
def storeDelay (mode : Nat) (chk : Bool) : Nat := if chk then (if mode = 0 then 4 else 2) else 1

/-- The MA cycle of an access of the bundle (spec/13 R387, R390). -/
def KX.ma (x : KX) : Nat := x.iss + 3 + x.lag

/-- A wait in MA of `n` cycles: bundles that would issue 4 cycles on or later are delayed by it (spec/13 R390). -/
def KX.maWait (x : KX) (n : Nat) : KX :=
  if n = 0 then x else ({ x with k := { x.k with stalls := x.k.stalls ++ [(x.iss + 4, n)] } } : KX).count 0x1B n

/-- Whether the port is held in a cycle, as an access of this copy finds it: the checked core comes before copy C of PAIR (spec/13 R391). -/
def KX.portHeld (x : KX) (c : Nat) : Bool := (x.s.tileH x.t).port.any fun q => q.1 == c && (q.2 == x.copy || !x.chk)

/-- The first free cycle of the port from `c` on. -/
def KX.portFrom (x : KX) : Nat → Nat → Nat
  | 0, c => c
  | n + 1, c => if x.portHeld c then x.portFrom n (c + 1) else c

def KX.portTake (x : KX) (c : Nat) : KX := x.updTile fun h => { h with port := ((c, x.copy) :: h.port).take 64 }

/-- Writes own local memory through the store buffer (spec/13 R395): in a checked core D cycles after its MA cycle, else in the first cycle after it that the port gives. At most one store enters in a cycle; one that finds 4 entries waits in MA. -/
def KX.wrLoc (x : KX) (a n v : Nat) (ps : List Bool) : KX :=
  let pa := physOf x.t a
  let d := storeDelay x.mode x.chk
  let x := x.logUndo pa n
  let m0 := match x.k.sb.getLast? with
    | some e => max x.ma (e.wr + 1 - d)
    | none => x.ma
  let full := x.k.sb.filter fun e => decide (m0 ≤ e.wr)
  let m := if 4 ≤ full.length then max m0 (full.getD (full.length - 4) ⟨0, 0, 0, [], 0, []⟩).wr else m0
  let x := x.maWait (m - m0)
  let w := if x.chk then m + d else x.portFrom 64 (m + 1)
  let old := x.s.undoFor ((pa + n + 7) / 8 - pa / 8) (pa / 8 * 8)
  let x := x.portTake w
  { x with s := x.s.wrMemP pa n v ps, k := { x.k with sb := x.k.sb ++ [⟨a, n, v, ps, w, old⟩] } }

/-- What lanes hold in cycle `c` where stores written then or later have changed them: those of the tile's other copies, and with `own` this copy's (spec/13 R395, R406). -/
def KX.unwritten (x : KX) (c : Nat) (own : Bool) : List UndoE :=
  let l := ((x.s.tileH x.t).copies.zipIdx.filter fun q => q.2 != x.copy).flatMap fun q => q.1.sb
  ((l ++ if own then x.k.sb else []).filter fun e => decide (c ≤ e.wr)).flatMap (·.old)

/-- Reads `n` lanes of own local memory as they stand in cycle `c`. -/
def KX.lanesAt (x : KX) (n la c : Nat) (own : Bool) : List (Nat × Bool) × KX :=
  let (ls, s) := x.s.rdLanes n la none
  let late := (x.unwritten c own).filter fun e => decide (la ≤ e.addr) && decide (e.addr < la + 8 * n)
  (if late.isEmpty then ls else ((x.s.undoAll late).rdLanes n la none).1, { x with s := s })

/-- Lanes as one value, the first lowest. -/
def lanesVal (ls : List (Nat × Bool)) : Nat := ls.foldr (fun q acc => q.1 % 2 ^ 64 + 2 ^ 64 * acc) 0

/-- A read of own local memory whose access is due in cycle `m` (spec/13 R391, R396): its value and the poison of each word. The youngest buffered store that overlaps it answers it where it contains it; else the read waits for the write and takes the merged bytes. One that meets no store waits for the port. -/
def KX.rdPort (x : KX) (a n m : Nat) (load : Bool) : (Nat × List Bool) × KX :=
  let pa := physOf x.t a
  let k := (pa + n + 7) / 8 - pa / 8
  let now (x : KX) (c : Nat) : (Nat × List Bool) × KX :=
    let (ls, x) := x.lanesAt k (pa / 8 * 8) c false
    (((lanesVal ls >>> (8 * (pa % 8))) % 256 ^ n, ls.map (·.2)), x)
  match x.k.sb.reverse.find? fun e => decide (m ≤ e.wr) && decide (a < e.addr + e.n) && decide (e.addr < a + n) with
  | some e =>
    if e.addr ≤ a ∧ a + n ≤ e.addr + e.n then
      (((e.val >>> (8 * (a - e.addr))) % 256 ^ n, (List.range k).map fun i => e.pois.getD (a / 8 + i - e.addr / 8) false), if load then x.count 0x15 else x)
    else now ((x.maWait (e.wr - m)).count 0x14 (e.wr - m)) e.wr
  | none =>
    let c := x.portFrom 64 m
    now ((if c = m then x else (x.maWait (c - m)).count 0x05).portTake c) c

/-- An input of a checked core that is journalled where it is read (spec/10 R286, R304): the replayed value where re-execution asks the same, else the fresh one. -/
def KX.journal (x : KX) (kind key : Nat) (fresh : Nat × Bool) : (Nat × Bool) × KX :=
  if !x.chk then (fresh, x)
  else
    let h := x.s.tileH x.t
    let put (h : TileH) (v : Nat × Bool) : TileH := { h with jrn := h.jrn ++ [⟨kind, key, v.1, v.2, h.bundles⟩] }
    let (v, h) := match h.replay with
      | e :: rest =>
        if e.kind = kind ∧ e.key = key then ((e.val, e.pois), put { h with replay := rest } (e.val, e.pois))
        else (fresh, put { h with replay := [] } fresh)
      | [] => (fresh, put h fresh)
    let x := x.updTile fun _ => h
    (v, { x with s := x.s.raiseMax (pgTile x.t) 0x06C 8 0 h.jrn.length })

/-- Whether re-execution will take the next input of a kind and key from the journal. -/
def KX.replays (x : KX) (kind key : Nat) : Bool :=
  x.chk && (match (x.s.tileH x.t).replay with
    | e :: _ => e.kind == kind && e.key == key
    | [] => false)

/-- Whether a read of own local memory by the checked core of PAIR meets copy C's pages: such a read is an ordinary input (spec/10 R288). -/
def KX.readsFree (x : KX) (a n : Nat) : Bool :=
  let (lo, hi) := freeRange (x.s.tileH x.t)
  x.chk && x.mode == 1 && decide (lo < hi) && decide (a < hi) && decide (lo < a + n)

/-- A number from bits, the first lowest. -/
def ofBits (l : List Bool) : Nat := l.foldr (fun b acc => b2n b + 2 * acc) 0

/-- What a read of own local memory delivered, journalled where it is an input. -/
def KX.ownInput (x : KX) (a n : Nat) (v : Nat × List Bool) : (Nat × List Bool) × KX :=
  if x.readsFree a n then
    let (w, x) := x.journal 0 (a * 8 + 6) (v.1 + ofBits v.2 * 256 ^ n, false)
    ((w.1 % 256 ^ n, (List.range v.2.length).map fun i => bit (w.1 / 256 ^ n) i), x)
  else (v, x)

/-- A load's read of own local memory in its MA cycle: its value, and whether a word is poisoned. -/
def KX.rdLoc (x : KX) (a n : Nat) : (Nat × Bool) × KX :=
  let (v, x) := x.rdPort a n x.ma true
  let (v, x) := x.ownInput a n v
  ((v.1, v.2.any id), x)

/-- Queues an output: in the output commit buffer of a checked core, else to leave at once (spec/10 R287, R297). -/
def KX.output (x : KX) (e : OcbE) : KX :=
  let e := { e with mode := x.mode }
  if x.chk then
    let x := x.updTile fun h => { h with ocb := h.ocb ++ [e] }
    ({ x with s := x.s.raiseMax (pgTile x.t) 0x06C 20 12 (x.s.tileH x.t).ocb.length }).count 0x1A
  else x.updTile fun h => { h with outQ := h.outQ ++ [e] }

/-- Whether the stack may use memory of `n` bytes at `a` through C1 (spec/11 R332; spec/14 R412 for a knotted C1; spec/10 R288). -/
def KX.c1Check (x : KX) (a n : Nat) (wr : Bool) : KM Unit :=
  let c := x.k.cap 1
  if c.tag && c.knotted then .error (.cap x.old 1)
  else if !c.tag || !c.perm 0 || !c.perm 1 || c.base % 32 != 0 || c.len % 32 != 0 || !inOwn c.base c.len || !c.covers a n then
    .error (.fault 2 a 1)
  else match x.pairBad a n wr with
    | some b => .error (.fault 4 b 1)
    | none => .ok ()

/-- The home of position `p`. -/
def KX.home (x : KX) (p : Nat) : Nat := (x.k.cap 1).base + 4 * p

/-- Holds issue until cycle `c` for the scoreboard (spec/13 R389). -/
def KX.waitTo (x : KX) (c : Nat) : KX := if c ≤ x.iss then x else ({ x with iss := c } : KX).count 0x09 (c - x.iss)

/-- Writes a divider's result: into the stack file, or to its home when the position is no longer resident (spec/13 R403). -/
def KX.landDiv (x : KX) (e : DivE) : KX :=
  if x.k.low ≤ e.pos then { x with k := { x.k with file := sput fileZero (e.pos % 256) (e.val % 2 ^ 32, e.pois) x.k.file } }
  else if inOwn (x.home e.pos) 4 then
    let y := ({ x with iss := e.ready, lag := 0 } : KX).wrLoc (x.home e.pos) 4 e.val [e.pois]
    { y with iss := x.iss, lag := x.lag }
  else x

/-- Lands what the dividers finish by cycle `c`. -/
def KX.landDivs (x : KX) (c : Nat) : KX :=
  let x := match x.k.divI with
    | some e => if e.ready ≤ c then ({ x with k := { x.k with divI := none } } : KX).landDiv e else x
    | none => x
  match x.k.divF with
  | some e => if e.ready ≤ c then ({ x with k := { x.k with divF := none } } : KX).landDiv e else x
  | none => x

/-- A spill or fill of the group at `g` waits for what its positions' scoreboard bits stand for (spec/13 R389, R403). -/
def KX.groupWait (x : KX) (g : Nat) : KX :=
  let x := x.waitTo (((List.range 8).map fun i => x.k.readyAt (g + i)).foldl max 0)
  x.landDivs x.iss

/-- Spills the group at LOW (spec/11 R330), in one cycle (spec/13 R393). -/
def KX.spill (x : KX) : KM KX := do
  let g := x.k.low
  if (List.range 8).any fun i => x.k.extAt (g + i) then .error .hold
  x.c1Check (x.home g) 32 true
  let x := x.groupWait g
  let x := { x with k := x.k.landIn g (g + 8) }
  let es := (List.range 8).map fun i => x.k.entry (g + i)
  let lane := fun i => ((es.getD (2 * i) (0, false)).2 || (es.getD (2 * i + 1) (0, false)).2)
  let x := x.wrLoc (x.home g) 32 (ofWords (es.map (·.1))) ((List.range 4).map lane)
  .ok (({ x with iss := x.iss + 1, k := { x.k with low := g + 8 } } : KX).count 0x0A)

/-- Spills until a TOP of `top` fits; each spill raises LOW by 8. -/
def KX.spillTo (x : KX) (top : Nat) : Nat → KM KX
  | 0 => .ok x
  | n + 1 => if top ≤ x.k.low + 256 then .ok x else do
    let x ← x.spill
    x.spillTo top n

/-- Fills the group below LOW; in a checked core its lanes enter the undo log (spec/10 R296). -/
def KX.fill (x : KX) : KM KX := do
  let g := x.k.low - 8
  let a := x.home g
  if (List.range 8).any fun i => x.k.pendingAt (g + i) then .error .hold
  x.c1Check a 32 false
  let x := (x.groupWait g).logUndo (physOf x.t a) 32
  let (v, x) := x.rdPort a 32 x.iss false
  let (v, x) := x.ownInput a 32 v
  let file := (List.range 8).foldl (fun f i => sput fileZero ((g + i) % 256) (bits v.1 (32 * i + 31) (32 * i), v.2.getD (i / 2) false) f) x.k.file
  .ok (({ x with iss := x.iss + 1, k := { x.k with file := file, low := g } } : KX).count 0x0B)

/-- Fills until position `p` is resident. -/
def KX.fillTo (x : KX) (p : Nat) : Nat → KM KX
  | 0 => .ok x
  | n + 1 => if x.k.low ≤ p then .ok x else do
    let x ← x.fill
    x.fillTo p n

/-- A fill of g groups holds issue for 2 + g cycles (spec/13 R393). -/
def KX.fillFor (x : KX) (p : Nat) : KM KX := if x.k.low ≤ p then .ok x else ({ x with iss := x.iss + 2 } : KX).fillTo p 64

/-- Puts a slot in the return-stack cache, which holds the 8 nearest RSP (spec/11 R335). -/
def cachePut (c : List RsSlot) (e : RsSlot) : List RsSlot := (e :: c.filter fun q => q.addr != e.addr).take 8

/-- Pushes a 16-byte slot: cached and written through. The C0 slot of a frame is written with its tag. -/
def KX.rsWrite (x : KX) (a lo hi : Nat) (tag : Bool := false) : KX :=
  let x := x.wrLoc a 16 (lo % 2 ^ 64 + hi * 2 ^ 64) [false, false]
  let x := if tag then { x with s := x.s.setTag (physOf x.t a) 7 } else x
  { x with k := { x.k with rsCache := cachePut x.k.rsCache ⟨a, lo % 2 ^ 64, hi % 2 ^ 64, false, tag⟩ } }

/-- The delay of a bundle by MA waits of earlier ones (spec/13 R390): a wait whose first cycle the issue reaches moves it on. Answers the issue cycle and the waits still to come. -/
def stallTo : List (Nat × Nat) → Nat → Nat × List (Nat × Nat)
  | [], c => (c, [])
  | q :: r, c =>
    if q.1 ≤ c then stallTo r (c + q.2)
    else
      let (c, r) := stallTo r c
      (c, q :: r)

/-- The tag of a granule of own memory as it stands in cycle `c`. -/
def KX.tagAt (x : KX) (a c : Nat) : Bool :=
  ((x.unwritten c false).find? fun e => e.addr == physOf x.t a).elim (x.s.tag (physOf x.t a)) fun e => maj3 e.tag

/-- Reads own local memory with the tag of its granule, at bit 128 of the value; journalled where it is an input. -/
def KX.rdTagged (x : KX) (a : Nat) : (Nat × Bool) × KX :=
  let tg := x.tagAt a x.ma
  let (v, x) := x.rdPort a 16 x.ma true
  let v := (v.1 + b2n tg * 2 ^ 128, v.2.any id)
  if x.readsFree a 16 then x.journal 0 (a * 8 + 6) v else (v, x)

/-- Reads a slot: from the cache where it is cached, else from memory, in 3 cycles more (spec/13 R393). -/
def KX.rsRead (x : KX) (a : Nat) : RsSlot × KX :=
  match x.k.rsCache.find? fun e => e.addr == a with
  | some e => (e, x)
  | none =>
    let ((v, p), x) := x.rdTagged a
    (⟨a, v % 2 ^ 64, v / 2 ^ 64 % 2 ^ 64, p, bit v 128⟩, { x with more := x.more + 3 })

/-- Removes the slots from RSP up to `a` from the cache, as a pop does. -/
def KX.rsFree (x : KX) (a : Nat) : KX :=
  { x with k := { x.k with rsp := a, rsCache := x.k.rsCache.filter fun e => !(e.addr < a) } }

/-- LSBACK, LEOFF and LA as word 0 of a call entry or frame holds them, relative to `pc` (spec/11 R333, R334). -/
def KCopy.loopBits (k : KCopy) (pc : Nat) : Nat :=
  if k.la then ((pc + 2 ^ 40 - k.ls) % 2 ^ 40 / 2 % 512) * 2 ^ 40 + k.leoff % 512 * 2 ^ 49 + 2 ^ 58 else 0

/-- Restores PC and the loop state from such a word. -/
def KCopy.setLoopBits (k : KCopy) (w : Nat) : KCopy :=
  let pc := bits w 39 1 * 2
  { k with pc := pc, la := bit w 58, ls := if bit w 58 then (pc + 2 ^ 40 - 2 * bits w 48 40) % 2 ^ 40 else 0,
           leoff := if bit w 58 then bits w 57 49 else 0 }

/-- A change of flow to `target` outside the loop body clears LA (spec/11 R347). -/
def KCopy.leaveLoop (k : KCopy) (target : Nat) : KCopy :=
  if k.la && !(decide (k.ls ≤ target) && decide (target ≤ k.ls + 2 * k.leoff)) then { k with la := false } else k

/-- Whether an execute window of the tile covers `n` bytes at `a` (spec/14 R414, R428). -/
def State.xwin (s : State) (t a n : Nat) : Bool :=
  (List.range 4).any fun w =>
    let o := 0x100 + 16 * w
    let w0 := s.rd64 (pgTile t) o
    let b := bits w0 39 12 * 4096
    bit w0 63 && decide (b ≤ a) && decide (a + n ≤ b + s.fld (pgTile t) (o + 8) 27 0 * 4096)

/-- Whether code may lie at `n` bytes at `a` (spec/14 R414). -/
def State.codeAt (s : State) (t a n : Nat) : Bool := inOwn a n || s.xwin t a n

def CodeB.covers (c : CodeB) (a n : Nat) : Bool := decide (c.addr ≤ a) && decide (a + n ≤ c.addr + c.n)

/-- A part of held code bytes. -/
def CodeB.slice (c : CodeB) (a n : Nat) : CodeB :=
  let d := a / 8 - c.addr / 8
  { addr := a, n := n, val := (c.val >>> (8 * (a - c.addr))) % 256 ^ n, pois := bits c.pois (d + ((a + n - 1) / 8 - a / 8)) d }

/-- The code bytes that a copy holds for `n` bytes at `a`: what a covered redirect supplied, else a line buffer (spec/13 R387, R397, R400). -/
def KCopy.held (k : KCopy) (a n : Nat) : Option CodeB := (k.cov.toList ++ k.lines).find? (·.covers a n)

def KCopy.hasLine (k : KCopy) (la : Nat) : Bool := k.lines.any fun l => l.addr == la

/-- The line buffer of `la` first, as that of the line last taken from. -/
def KCopy.lineFirst (k : KCopy) (la : Nat) : KCopy :=
  { k with lines := (k.lines.filter fun l => l.addr == la) ++ k.lines.filter fun l => l.addr != la }

end Sys2Proof.Machine
end

