-- ==== Sys2Proof/Machine/KDecode.lean ====
section
/-! DEFINITION. What decode and the stack check see of a bundle before it executes: units, field ranges, literals, the dependence rule, stack effects (spec/11 R336–R342, spec/12 R359–R386), and the parcels in memory that a debug step decodes. -/

namespace Sys2Proof

open Machine

/-- The unit of an op: 0 ALU, 1 MUL, 2 MEM, 3 FLOW (spec/11 R336). -/
def BinOp.unit (o : BinOp) : Nat := match o with
  | .mul | .mulv | .mulhs | .mulhu | .qmul | .div | .divu | .rem | .remu | .fadd | .fsub | .fmul | .fmin | .fmax | .fdiv => 1
  | _ => 0

def UnOp.unit (o : UnOp) : Nat := match o with
  | .fneg | .fabs | .fsqrt | .cvtif | .cvtuf | .cvtfi | .cvtqf | .cvtfq => 1
  | _ => 0

def KOp.unit (o : KOp) : Nat := match o with
  | .bin b => b.unit
  | .un u => u.unit
  | .tern _ | .wide _ | .fcmp _ _ => 1
  | .ld _ _ | .st _ _ | .ldt _ _ | .stt _ _ | .cmov _ _ | .crange _ _ | .cperm _ _ | .ctie _ _ | .cuntie _ _ | .cread _ _ | .cvoid _
  | .waitw | .syncf | .cairn | .mbxr _ | .send _ _ | .tfesub _ => 2
  | .br _ | .bri | .loop _ _ | .brc _ | .call _ _ | .calli _ | .ret _ | .trap _ | .retx => 3
  | _ => 0

/-- The LN field of an op that takes a literal (spec/12 R364). -/
def KOp.ln (o : KOp) : Option Nat := match o with
  | .lit n | .br n | .loop n _ | .call _ n => some n
  | _ => none

/-- Field values that a unit table assigns; every other payload is ILLEGAL (spec/12 R375, R386). -/
def KOp.assigned (o : KOp) : Bool := match o with
  | .pick k => decide (k < 16)
  | .dropn m => decide (m < 16)
  | .loc k | .setl k => decide (k < 32)
  | .lit n | .br n | .loop n _ => decide (n < 16)
  | .angcmp n | .pset n | .pclr n | .pnot n | .pushp n | .popp n | .sel n | .mbxr n => decide (n < 8)
  | .cmp c n => decide (c < 8) && decide (n < 8)
  | .cmpz c n => decide (c < 6) && decide (n < 8)
  | .fcmp c n => decide (c < 4) && decide (n < 8)
  | .plog f m n => decide (f < 4) && decide (m < 8) && decide (n < 8)
  | .ld _ n | .st _ n | .tfesub n | .brc n => decide (n < 16)
  | .ldt m n => decide (0 < m) && decide (m < 16) && decide (n < 16)
  | .stt m n => decide (m < 16) && decide (n < 16)
  | .cmov d s | .crange d s | .cperm d s | .ctie d s | .cuntie d s => decide (0 < d) && decide (d < 16) && decide (s < 16)
  | .cread f n => decide (f < 6) && decide (n < 16)
  | .cvoid n => decide (0 < n) && decide (n < 16)
  | .send n s => decide (n < 16) && decide (s < 16)
  | .call n l => decide (n ≤ 32) && decide (l < 16)
  | .calli n | .ret n => decide (n ≤ 32)
  | .trap n => decide (n < 256)
  | _ => true

/-- Ops that REPN refuses at decode (spec/11 R345, spec/12 R384): those that hold issue longer than a cycle, the dividers, mailbox reads, WAITW, SYNCF. -/
def KOp.noRepn (o : KOp) : Bool := match o with
  | .bin .div | .bin .divu | .bin .rem | .bin .remu | .bin .fdiv | .un .fsqrt | .mbxr _ | .waitw | .syncf | .ldt _ _ | .send _ _ => true
  | _ => false

/-- Cycles from an op's issue until a later bundle reads its result, where the scoreboard holds it (spec/12 Lat, spec/13 R389, R394); 1 for the others. -/
def KOp.lat (o : KOp) : Nat := match o with
  | .bin .div | .bin .divu | .bin .rem | .bin .remu => 34
  | .bin .fdiv | .un .fsqrt => 18
  | .bin .fadd | .bin .fsub | .bin .fmul | .bin .fmin | .bin .fmax | .tern .fma | .un .cvtif | .un .cvtuf | .un .cvtfi | .un .cvtqf | .un .cvtfq => 4
  | .bin .mul | .bin .mulv | .bin .mulhs | .bin .mulhu | .bin .qmul | .tern .qmac | .wide _ => 3
  | .mbxr _ => 6
  | _ => 1

/-- Whether an op's Exc column names OV, DZ or NV (spec/12, spec/13 R392). -/
def KOp.mayTrap (o : KOp) : Bool := match o with
  | .bin .addv | .bin .subv | .bin .mulv | .bin .div | .bin .divu | .bin .rem | .bin .remu | .bin .fadd | .bin .fsub | .bin .fmul | .bin .fmin
  | .bin .fmax | .bin .fdiv | .tern .fma | .un .fsqrt | .un .cvtfi | .un .cvtfq => true
  | _ => false

/-- Ops that stand alone in their bundle (spec/12 R384). -/
def KOp.alone (o : KOp) : Bool := match o with
  | .waitw | .syncf | .retx => true
  | _ => false

/-- What an op does to the stack: entries it needs in the window, entries it takes off, entries it pushes; which places below TOP and which locals it reads; whether it is a pure stack op (the Chain mark of spec/12). -/
structure StkEff where
  pops : Nat := 0
  pushes : Nat := 0
  reads : List Nat := []
  locs : List Nat := []
  need : Nat := 0
  chain : Bool := false
  deriving DecidableEq, Repr

/-- The effect of an op that takes `n` entries off, reads them all and pushes `m`. -/
def StkEff.op (n m : Nat) : StkEff := { pops := n, pushes := m, reads := List.range n, need := n }

/-- The stack columns of spec/12. -/
def KOp.eff (o : KOp) : StkEff := match o with
  | .stk .drop => { pops := 1, need := 1 }
  | .stk .dup => { pushes := 1, reads := [0], need := 1, chain := true }
  | .stk .swap => StkEff.op 2 2
  | .stk .over => { pushes := 1, reads := [1], need := 2, chain := true }
  | .stk .rot => StkEff.op 3 3
  | .stk .dup2 => { pushes := 2, reads := [0, 1], need := 2, chain := true }
  | .stk .drop2 => { pops := 2, need := 2 }
  | .stk .swap2 => StkEff.op 4 4
  | .stk .nip => { pops := 2, pushes := 1, reads := [0], need := 2 }
  | .pick k => { pushes := 1, reads := [k], need := k + 1, chain := true }
  | .dropn m => { pops := m + 1, need := m + 1 }
  | .loc k => { pushes := 1, locs := [k], chain := true }
  | .setl _ => StkEff.op 1 0
  | .lit _ => { pushes := 1, chain := true }
  | .bin _ => StkEff.op 2 1
  | .un _ => StkEff.op 1 1
  | .tern _ => StkEff.op 3 1
  | .wide _ => StkEff.op 2 2
  | .ang _ => StkEff.op 4 2
  | .angcmp _ => StkEff.op 4 0
  | .cmp _ _ | .fcmp _ _ => StkEff.op 2 0
  | .cmpz _ _ | .popp _ | .wrst | .wrlc | .wrrc | .wrp => StkEff.op 1 0
  | .pushp _ | .rdst | .rdlc | .rdrc | .rdp | .rddep | .rdrsp | .rdtile => { pushes := 1 }
  | .sel _ => StkEff.op 2 1
  | .ld .ldd _ => StkEff.op 1 2
  | .ld _ _ => StkEff.op 1 1
  | .st .std _ => StkEff.op 3 0
  | .st _ _ => StkEff.op 2 0
  | .ldt _ _ | .stt _ _ | .cperm _ _ | .tfesub _ => StkEff.op 1 0
  | .crange _ _ | .send _ _ => StkEff.op 2 0
  | .cread f _ => { pushes := if f < 2 then 2 else 1 }
  | .waitw => { pushes := 4 }
  | .mbxr _ => { pushes := 2 }
  | .bri | .loop _ _ | .brc _ => StkEff.op 1 0
  | .calli _ => StkEff.op 1 0
  | .ret k => { reads := List.range k, need := k }
  | _ => {}

/-- The issue cycles of an op (spec/12 Iss), without b and what its address adds. -/
def KOp.iss (o : KOp) : Nat := match o with
  | .ldt _ _ => 3
  | .waitw | .call _ _ | .calli _ => 2
  | .ret k => 2 + (k + 7) / 8
  | .trap _ | .retx => 12
  | _ => 1

/-- The parcels of a bundle. -/
def Bundle.parcels (b : Bundle) : Nat := b2n b.guard.isSome + b2n b.rep.isSome + b.lits.length + b.ops.length

/-- Sign extension to 32 bits. -/
def sext (w v : Nat) : Nat := ofS 32 (toS w v)

/-- The literal that the prefixes and LN give (spec/11 R340). -/
def Bundle.literal (b : Bundle) (ln : Nat) : Nat := match b.lits with
  | [] => sext 4 ln
  | [p] => sext 12 p
  | [p, q] => sext 24 (p * 4096 + q)
  | p :: q :: r :: _ => (p % 16) * 2 ^ 28 + q % 4096 * 2 ^ 16 + r % 4096 * 16 + ln % 16

/-- Whether an earlier op's result, not a pure stack op's, is consumed by a later op of the bundle (spec/11 R342). Places are counted from the bundle's first TOP, `d` entries above BASE. -/
def depBad (d : Nat) : List KOp → Int → List Int → Bool
  | [], _, _ => false
  | o :: os, top, made =>
    let e := o.eff
    let used : List Int := (e.reads.map fun (r : Nat) => top - 1 - (r : Int)) ++ (List.range e.pops).map (fun (r : Nat) => top - 1 - (r : Int)) ++
      e.locs.map fun (k : Nat) => (k : Int) - (d : Int)
    let top' := top - e.pops + e.pushes
    let new : List Int := (List.range e.pushes).map (fun (r : Nat) => top' - 1 - (r : Int)) ++ (match o with
      | .setl k => [(k : Int) - (d : Int)]
      | _ => [])
    let made' := made.filter fun p => !(new.contains p)
    if used.any fun p => made.contains p then true
    else depBad d os top' (if e.chain then made' else made' ++ new)

/-- ILLEGAL at decode: the form of the bundle (spec/11 R337–R341, R345, spec/12 R364, R384, R386). -/
def Bundle.formBad (b : Bundle) (pc : Nat) : Bool :=
  let units := b.ops.map KOp.unit
  let lns := b.ops.filterMap KOp.ln
  b.ops.isEmpty || decide (4 < b.ops.length) || decide (3 < b.lits.length) || decide (8 < b.parcels) || decide (64 < pc % 64 + 2 * b.parcels) ||
  decide (¬ units.Nodup) || (b.ops.dropLast.any fun o => o.unit == 3) || b.ops.any (fun o => !o.assigned) ||
  (match b.guard with
    | some (_, n) => decide (8 ≤ n)
    | none => false) ||
  (match b.rep with
    | some r => b.ops.length != 1 || units.contains 3 || (if r.repn then r.fromRc || decide (64 < r.count) || b.ops.any KOp.noRepn
        else decide (127 < r.count) || (r.fromRc && r.count != 0))
    | none => false) ||
  b.lits.any (fun p => decide (4096 ≤ p)) || (b.lits.length == 3 && decide (16 ≤ b.lits.headD 0)) ||
  (!b.lits.isEmpty && lns.isEmpty) || decide (1 < lns.length) || ((b.lits.length == 1 || b.lits.length == 2) && lns.any (· != 0)) ||
  (b.ops.any KOp.alone && b.ops.length != 1)

end Sys2Proof

namespace Sys2Proof.Machine

/-- Whether the executing copy owns the release queue and mailbox (spec/10 R287). -/
def KX.owner (x : KX) : Bool := x.chk || (decide (2 ≤ x.mode) && x.copy == x.s.fld (pgTile x.t) 0x040 28 27)

/-- ILLEGAL at decode: the form of the bundle, the dependence rule, a LOOP literal above 504 (spec/11 R338, R342, spec/12 R382). It is raised whatever the guard is. -/
def KX.illegal (x : KX) (b : Bundle) : Bool :=
  b.formBad x.old.pc || depBad x.old.depth b.ops 0 [] ||
  b.ops.any fun o => match o with
    | .loop n _ => decide (504 < b.literal n)
    | _ => false

/-- ILLEGAL that an op raises as it executes, so never under a false guard nor in a repeat of count 0 (spec/11 R339, R344): a queue or mailbox the copy does not own (spec/11 R357, spec/12 R379), a LOOP while LA = 1, a FLOW op in the last bundle of an active body (spec/11 R347, spec/12 R382). -/
def KX.illegalOp (x : KX) (b : Bundle) : Bool :=
  b.ops.any (fun o => match o with
    | .waitw | .mbxr _ => !x.owner
    | .loop _ _ => x.old.la
    | _ => false) ||
  (x.old.la && x.old.pc == x.old.ls + 2 * x.old.leoff && b.ops.any fun o => o.unit == 3)

/-- What the stack check finds of a bundle: the positions it reads and writes, its highest TOP, its last DEPTH. -/
structure WinEff where
  reads : List Nat := []
  writes : List Nat := []
  mx : Nat
  depth : Nat
  deriving DecidableEq, Repr

/-- The window check of a bundle's ops from a BASE: none for a fault (spec/11 R329, R331). -/
def winCheck (base : Nat) : List KOp → WinEff → Option WinEff
  | [], w => some w
  | o :: os, w =>
    let e := o.eff
    let d := w.depth
    let bad := decide (d < e.need) || decide (224 < d - e.pops + e.pushes) || e.locs.any (fun k => decide (d ≤ k)) ||
      (match o with
        | .setl k => decide (d - 1 ≤ k)
        | .call n _ => decide (d < n)
        | .calli n => decide (d - 1 < n)
        | _ => false)
    if bad then none
    else
      let d' := d - e.pops + e.pushes
      winCheck base os { reads := w.reads ++ e.reads.map (fun r => base + d - 1 - r) ++ e.locs.map (base + ·),
                         writes := w.writes ++ (List.range e.pushes).map (fun r => base + d' - 1 - r) ++ (match o with
                           | .setl k => [base + k]
                           | .ret k => (List.range k).map (base + ·)
                           | _ => []),
                         mx := max w.mx (base + d'), depth := d' }

/-- One op's parcel payload (spec/12), by unit; none for a payload that the tables do not list. -/
def aluOf (p : Nat) : Option KOp :=
  let k := p % 16; let n := p % 8
  if p ≤ 9 then [KOp.nop, .stk .drop, .stk .dup, .stk .swap, .stk .over, .stk .rot, .stk .dup2, .stk .drop2, .stk .swap2, .stk .nip][p]?
  else if p / 16 = 1 then some (.pick k)
  else if p / 16 = 2 then some (.dropn k)
  else if p / 32 = 8 then some (.loc (p % 32))
  else if p / 32 = 16 then some (.setl (p % 32))
  else if p / 16 = 0x30 then some (.lit k)
  else if 0x400 ≤ p ∧ p ≤ 0x411 then
    ([BinOp.add, .sub, .addv, .subv, .and, .or, .xor, .andn, .shl, .shr, .sar, .rol, .min, .max, .minu, .maxu, .qadd, .qsub][p - 0x400]?).map .bin
  else if 0x500 ≤ p ∧ p ≤ 0x50C then
    ([UnOp.not, .neg, .abs, .qneg, .qabs, .clz, .ctz, .popc, .sxb, .sxh, .zxb, .zxh, .bswap][p - 0x500]?).map .un
  else if p / 64 = 0x18 then some (.cmp (p / 8 % 8) n)
  else if p / 64 = 0x19 then some (.cmpz (p / 8 % 8) n)
  else if p / 256 = 7 then some (.plog (p / 64 % 4) (p / 8 % 8) n)
  else if p / 8 = 0x100 then some (.pset n)
  else if p / 8 = 0x104 then some (.pclr n)
  else if p / 8 = 0x108 then some (.pnot n)
  else if p / 8 = 0x10C then some (.pushp n)
  else if p / 8 = 0x110 then some (.popp n)
  else if p / 8 = 0x114 then some (.sel n)
  else if p = 0x900 then some (.ang true)
  else if p = 0x901 then some (.ang false)
  else if p / 8 = 0x121 then some (.angcmp n)
  else if 0xA00 ≤ p ∧ p ≤ 0xA0A then
    [KOp.rdst, .wrst, .rdlc, .wrlc, .rdrc, .wrrc, .rdp, .wrp, .rddep, .rdrsp, .rdtile][p - 0xA00]?
  else none

def mulOf (p : Nat) : Option KOp :=
  if p ≤ 7 then [KOp.bin .mul, .bin .mulv, .bin .mulhs, .bin .mulhu, .wide true, .wide false, .bin .qmul, .tern .qmac][p]?
  else if 0x010 ≤ p ∧ p ≤ 0x013 then [KOp.bin .div, .bin .divu, .bin .rem, .bin .remu][p - 0x010]?
  else if 0x100 ≤ p ∧ p ≤ 0x10E then
    [KOp.bin .fadd, .bin .fsub, .bin .fmul, .tern .fma, .bin .fmin, .bin .fmax, .un .fneg, .un .fabs, .bin .fdiv, .un .fsqrt,
     .un .cvtif, .un .cvtuf, .un .cvtfi, .un .cvtqf, .un .cvtfq][p - 0x100]?
  else if p / 64 = 8 then some (.fcmp (p / 8 % 8) (p % 8))
  else none

def memOf (p : Nat) : Option KOp :=
  let n := p / 16 % 16; let m := p % 16
  match p / 256 with
  | 0 => ([LdOp.ldb, .ldbu, .ldh, .ldhu, .ldw, .ldd][m]?).map fun o => .ld o n
  | 1 => ([StOp.stb, .sth, .stw, .std][m]?).map fun o => .st o n
  | 2 => some (.ldt m n)
  | 3 => some (.stt m n)
  | 4 => some (.cmov n m)
  | 5 => some (.crange n m)
  | 6 => some (.cperm n m)
  | 7 => some (.ctie n m)
  | 8 => some (.cuntie n m)
  | 9 => if n < 6 then some (.cread n m) else if n = 8 then some (.cvoid m) else none
  | 10 => if p = 0xA00 then some .waitw else if p = 0xA01 then some .syncf else if p = 0xA02 then some .cairn
    else if p / 8 = 0x141 then some (.mbxr (p % 8)) else none
  | 11 => some (.send n m)
  | 12 => if m = 0 then some (.tfesub n) else none
  | _ => none

/-- FLOW payloads. The length of a loop's last body bundle is looked up where the loop is skipped. -/
def flowOf (p : Nat) : Option KOp :=
  let ln := p % 16
  if p < 16 then some (.br ln)
  else if p = 0x100 then some .bri
  else if p / 16 = 0x20 then some (.loop ln 0)
  else if p / 256 = 3 ∧ ln = 0 then some (.brc (p / 16 % 16))
  else if p / 1024 = 1 then some (.call (p / 16 % 64) ln)
  else if p / 1024 = 2 ∧ ln = 0 then some (.calli (p / 16 % 64))
  else if p / 64 = 0x30 then some (.ret (p % 64))
  else if p / 256 = 0xD then some (.trap (p % 256))
  else if p = 0xE00 then some .retx
  else none

def opOf (w : Nat) : Option KOp := match w / 4096 % 8 with
  | 0 => aluOf (w % 4096)
  | 1 => mulOf (w % 4096)
  | 2 => memOf (w % 4096)
  | _ => flowOf (w % 4096)

/-- The parcels of the bundle that starts with the first parcel: up to the stop bit, at most 8 (spec/11 R337). -/
def takeBundle : Nat → List Nat → Option (List Nat)
  | 0, _ => none
  | _, [] => none
  | n + 1, w :: ws => if bit w 15 then some [w] else (takeBundle n ws).map (w :: ·)

/-- A bundle from its parcels: prefixes in their order, then ops; none where R338 or R386 refuses it. -/
def bundleOf (ps : List Nat) : Option Bundle :=
  let kind := fun (w : Nat) => w / 4096 % 8
  let (g, ps) : Option Nat × List Nat := match ps with
    | w :: r => if kind w = 4 then (some w, r) else (none, ps)
    | [] => (none, [])
  let (r, ps) : Option Nat × List Nat := match ps with
    | w :: q => if kind w = 5 then (some w, q) else (none, ps)
    | [] => (none, [])
  let lits := (ps.takeWhile fun w => kind w == 6)
  let ops := ps.drop lits.length
  let bad := ops.any (fun w => decide (4 ≤ kind w)) || (match g with
    | some w => bits w 11 4 != 0 || bit w 15
    | none => false) || (match r with
    | some w => bits w 9 7 != 0 || bit w 15
    | none => false) || lits.any fun w => bit w 15
  if bad then none
  else match ops.mapM opOf with
    | none => none
    | some os => some { guard := g.map fun w => (bit w 3, bits w 2 0),
                        rep := r.map fun w => ⟨bit w 11, bit w 10, bits w 6 0⟩,
                        lits := lits.map (· % 4096), ops := os }

end Sys2Proof.Machine
end

