-- ==== Sys2Proof/Machine/KOps.lean ====
section
/-! DEFINITION. What one Kolotte op does (spec/12): values, flags and exceptions of each unit. Each operation works on the bundle's record and answers a new one, a precise fault or a wait. -/

namespace Sys2Proof

open Machine

/-- Which divider an op runs on: none, the integer one, the binary32 one (spec/12 R370). -/
def BinOp.divider (o : BinOp) : Nat := match o with
  | .div | .divu | .rem | .remu => 1
  | .fdiv => 2
  | _ => 0

/-- The size of a load or store, and whether a load extends the sign. -/
def LdOp.size (o : LdOp) : Nat := match o with
  | .ldb | .ldbu => 1
  | .ldh | .ldhu => 2
  | .ldw => 4
  | .ldd => 8

/-- The word or words that a load delivers from the bytes it read (spec/11 R352). -/
def LdOp.extend (o : LdOp) (v : Nat) : Nat := match o with
  | .ldb => sext 8 v
  | .ldh => sext 16 v
  | _ => v

def StOp.size (o : StOp) : Nat := match o with
  | .stb => 1
  | .sth => 2
  | .stw => 4
  | .std => 8

end Sys2Proof

namespace Sys2Proof.Machine

def s32 (v : Nat) : Int := toS 32 v

/-- A value with the sticky flags it sets and the arithmetic exception it raises (spec/12 R361). -/
abbrev Val : Type := Nat × FFlags × Option Nat

def Val.of (v : Nat) : Val := (v % 2 ^ 32, {}, none)
/-- OVERFLOW where the exact result does not fit in 32 signed bits. -/
def Val.checked (x : Int) : Val := (ofS 32 x, {}, if satS 32 x = x then none else some 8)
/-- Q1.31 saturation sets SAT (spec/11 R354). -/
def Val.sat (x : Int) : Val := (ofS 32 (satS 32 x), { sat := decide (satS 32 x ≠ x) }, none)
/-- A binary32 result: NV raises FPINVALID (spec/12 R368). -/
def Val.flt (r : Nat × FFlags) : Val := (r.1, r.2, if r.2.nv then some 10 else none)
/-- A binary32 result whose table lists no NV exception. -/
def Val.quiet (r : Nat × FFlags) : Val := (r.1, r.2, none)

/-- `x / 2^k` rounded down. -/
def fdiv2 (x : Int) (k : Nat) : Int := x / (2 ^ k : Nat)

/-- The ops of two words (spec/12, spec/11 R353–R355). -/
def binVal (ftz : Bool) (o : BinOp) (a b : Nat) : Val :=
  let n := b % 32
  match o with
  | .add => Val.of (a + b)
  | .sub => Val.of (a + 2 ^ 32 - b)
  | .addv => Val.checked (s32 a + s32 b)
  | .subv => Val.checked (s32 a - s32 b)
  | .and => Val.of (a &&& b)
  | .or => Val.of (a ||| b)
  | .xor => Val.of (a ^^^ b)
  | .andn => Val.of (a &&& (2 ^ 32 - 1 - b))
  | .shl => Val.of (a <<< n)
  | .shr => Val.of (a >>> n)
  | .sar => Val.of (ofS 32 (fdiv2 (s32 a) n))
  | .rol => Val.of (a <<< n + a >>> (32 - n))
  | .min => Val.of (if s32 a ≤ s32 b then a else b)
  | .max => Val.of (if s32 a ≤ s32 b then b else a)
  | .minu => Val.of (min a b)
  | .maxu => Val.of (max a b)
  | .qadd => Val.sat (s32 a + s32 b)
  | .qsub => Val.sat (s32 a - s32 b)
  | .mul => Val.of (a * b)
  | .mulv => Val.checked (s32 a * s32 b)
  | .mulhs => Val.of (ofS 32 (fdiv2 (s32 a * s32 b) 32))
  | .mulhu => Val.of (a * b / 2 ^ 32)
  | .qmul => Val.sat (fdiv2 (s32 a * s32 b + 2 ^ 30) 31)
  | .div => if b = 0 then (0, {}, some 9) else Val.checked ((s32 a).tdiv (s32 b))
  | .divu => if b = 0 then (0, {}, some 9) else Val.of (a / b)
  | .rem => if b = 0 then (a, {}, some 9) else Val.of (ofS 32 ((s32 a).tmod (s32 b)))
  | .remu => if b = 0 then (a, {}, some 9) else Val.of (a % b)
  | .fadd => Val.flt (fAdd ftz a b)
  | .fsub => Val.flt (fSub ftz a b)
  | .fmul => Val.flt (fMul ftz a b)
  | .fmin => Val.flt (fMinMax ftz false a b)
  | .fmax => Val.flt (fMinMax ftz true a b)
  | .fdiv => Val.flt (fDiv ftz a b)

/-- The ops of one word. -/
def unVal (ftz : Bool) (o : UnOp) (a : Nat) : Val :=
  match o with
  | .not => Val.of (2 ^ 32 - 1 - a)
  | .neg => Val.of (2 ^ 32 - a)
  | .abs => Val.of (s32 a).natAbs
  | .qneg => Val.sat (-s32 a)
  | .qabs => Val.sat ((s32 a).natAbs : Int)
  | .clz => Val.of (32 - bitLen a)
  | .ctz => Val.of ((lowestBit 32 a).getD 32)
  | .popc => Val.of (popCount 32 a)
  | .sxb => Val.of (sext 8 a)
  | .sxh => Val.of (sext 16 a)
  | .zxb => Val.of (a % 256)
  | .zxh => Val.of (a % 65536)
  | .bswap => Val.of (ofLe (leBytes 4 a).reverse)
  | .fneg => Val.of (fNeg a)
  | .fabs => Val.of (fAbs a)
  | .fsqrt => Val.flt (fSqrt ftz a)
  | .cvtif => Val.quiet (fOfInt ftz (s32 a) 0)
  | .cvtuf => Val.quiet (fOfInt ftz (a : Int) 0)
  | .cvtfi => Val.flt (fToInt ftz a)
  | .cvtqf => Val.quiet (fOfInt ftz (s32 a) (-31))
  | .cvtfq => Val.flt (fToQ ftz a)

/-- The ops of three words. -/
def ternVal (ftz : Bool) (o : TernOp) (a b c : Nat) : Val :=
  match o with
  | .fma => Val.flt (fFma ftz a b c)
  | .qmac => Val.sat (fdiv2 (s32 a * 2 ^ 31 + s32 b * s32 c + 2 ^ 30) 31)

/-- CMPc of spec/12. -/
def cmpVal (c a b : Nat) : Bool :=
  match c with
  | 0 => a == b
  | 1 => a != b
  | 2 => decide (s32 a < s32 b)
  | 3 => decide (s32 b ≤ s32 a)
  | 4 => decide (a < b)
  | 5 => decide (b ≤ a)
  | 6 => a &&& b != 0
  | _ => a &&& b == 0

/-- CMPZc of spec/12. -/
def cmpzVal (c a : Nat) : Bool :=
  match c with
  | 0 => a == 0
  | 1 => a != 0
  | 2 => decide (s32 a < 0)
  | 3 => decide (0 ≤ s32 a)
  | 4 => decide (0 < s32 a)
  | _ => decide (s32 a ≤ 0)

/-- FCMPc of spec/12 R369, with NV for a signalling NaN. -/
def fcmpVal (ftz : Bool) (c a0 b0 : Nat) : Bool × FFlags :=
  let nan := fIsNaN a0 || fIsNaN b0
  let a := fFlushIn ftz a0; let b := fFlushIn ftz b0
  let r := match c with
    | 0 => !nan && fEq a b
    | 1 => !nan && fLt a b
    | 2 => !nan && (fLt a b || fEq a b)
    | _ => nan
  (r, { nv := fIsSNaN a0 || fIsSNaN b0 })

/-- Applies a value's flags and exception. -/
def KX.note (x : KX) (v : Val) : KX :=
  let x := x.flags v.2.1
  match v.2.2 with
  | some c => x.raiseArith c
  | none => x

/-- The cycle from which a bundle reads a result of this bundle (spec/12 R360, spec/13 R390). -/
def KX.readyAfter (x : KX) (lat : Nat) : Nat := x.iss + x.lag + lat

/-- Sets the scoreboard bit of a position for an op's Lat (spec/13 R389). -/
def KX.scored (x : KX) (lat p : Nat) : KX := if lat ≤ 1 then x else { x with k := { x.k with lat := x.k.lat ++ [(p, x.readyAfter lat)] } }

/-- Pushes the result of an op. -/
def KX.result (x : KX) (o : KOp) (v : Val) (pois : Bool) : KM KX := do
  let p := x.k.top
  let x ← (x.note v).push v.1 pois
  .ok (x.scored o.lat p)

/-- Starts an op of a divider, whose result lands when its Lat is over (spec/12 R370, spec/13 R403). -/
def KX.divide (x : KX) (dv : Nat) (o : KOp) (a b : Nat) (v : Val) (pois : Bool) : KM KX := do
  let p := x.k.top
  let (old, oldp) := x.k.entry p
  let x ← (x.note v).push old oldp
  let e : DivE := ⟨o, a, b, pois, p, v.1, x.readyAfter o.lat⟩
  .ok { x with k := if dv = 1 then { x.k with divI := some e } else { x.k with divF := some e } }

/-- Stack moves (spec/12): moves keep poison. -/
def KX.stk (x : KX) (o : StkOp) : KM KX :=
  let top := x.k.top
  match o with
  | .drop => .ok (x.drop 1)
  | .drop2 => .ok (x.drop 2)
  | .dup => do
    let a ← x.read (top - 1)
    x.push a.1 a.2
  | .over => do
    let a ← x.read (top - 2)
    x.push a.1 a.2
  | .dup2 => do
    let a ← x.read (top - 2)
    let b ← x.read (top - 1)
    let x ← x.push a.1 a.2
    x.push b.1 b.2
  | .swap => do
    let (b, x) ← x.pop
    let (a, x) ← x.pop
    let x ← x.push b.1 b.2
    x.push a.1 a.2
  | .rot => do
    let (c, x) ← x.pop
    let (b, x) ← x.pop
    let (a, x) ← x.pop
    let x ← x.push b.1 b.2
    let x ← x.push c.1 c.2
    x.push a.1 a.2
  | .swap2 => do
    let (d, x) ← x.pop
    let (c, x) ← x.pop
    let (b, x) ← x.pop
    let (a, x) ← x.pop
    let x ← x.push c.1 c.2
    let x ← x.push d.1 d.2
    let x ← x.push a.1 a.2
    x.push b.1 b.2
  | .nip => do
    let (b, x) ← x.pop
    (x.drop 1).push b.1 b.2

/-- The control range (spec/02 R28). -/
def inPages (a : Nat) : Bool := decide (pageBase ≤ a) && decide (a < pageBase + 0x10000000)

/-- Whether a tile may address a byte at all (spec/02 R28, R29). -/
def tileMapped (a : Nat) : Bool :=
  decide (a < dramSize) || (decide (clusterBase 0 ≤ a) && decide (a < clusterBase 16)) || inOwn a 1 || inPages a

/-- The permissions an access needs beyond R, W, TL or TS: SYS on control pages, SVC to write a SERVICE page; no tile writes a BASECAMP page (spec/02 R49, R50). -/
def pageAllowed (c : Cap) (a : Nat) (wr : Bool) : Bool :=
  if !inPages a then true
  else c.perm 7 && (!wr || match pageAt ((a - pageBase) / 4096) with
    | some (k, _) => (k.owner == 1) || (k.owner == 2 && c.perm 8)
    | none => true)

/-- The checks of an access of `size` bytes at offset `o` through Cn, after PZ (spec/12 R371): its address. A page capability covers the bytes of the access, be it the whole page or a part (spec/02 R49; DESIGN CHOICE, log entry 158). `perms` are the permission bits it needs; a tagged store to DRAM or a control page lacks a place for its tag (spec/14 R410). -/
def KX.access (x : KX) (n o size : Nat) (wr : Bool) (perms : List Nat) : KM Nat :=
  let c := x.old.cap n
  let a := c.base + o
  let noTags := wr && perms.contains 4 && (inPages a || decide (a < dramSize))
  if !c.usable || !perms.all c.perm || !pageAllowed c a wr || noTags then
    .error (.cap x.old n)
  else
    let firstOut := if c.covers a size then (List.range size).find? (fun i => !tileMapped (a + i)) |>.map (a + ·)
      else some (if c.top ≤ a then a else c.top)
    match firstOut with
    | some b => .error (.fault 4 b n)
    | none =>
      match if inOwn a 1 then x.pairBad a size wr else none with
      | some b => .error (.fault 4 b n)
      | none =>
        if a % size ≠ 0 ∨ (inPages a ∧ size ≠ 4 ∧ size ≠ 8) then .error (.fault 6 a n) else .ok a

/-- Whether the bundle runs under REPN, where an access outside own local memory is ILLEGAL (spec/11 R345). -/
def KX.repnOut (x : KX) (a : Nat) : KM Unit := if x.rcRep && !inOwn a 1 then .error (.ill x.old) else .ok ()

/-- The positions, values and poison of a load's words. -/
def loadWords (o : LdOp) (p v : Nat) (pois : Bool) : List ShadowE :=
  if o = .ldd then [⟨p, lo32 v, pois, 3⟩, ⟨p + 1, hi32 v, pois, 3⟩] else [⟨p, o.extend v, pois, 3⟩]

/-- Raises the depth by `n` over entries that keep what they hold. -/
def KX.reserve (x : KX) (n : Nat) : KM KX :=
  if (List.range n).any fun i => x.k.pendingAt (x.k.top + i) then .error .hold
  else .ok { x with k := { x.k with shadow := x.k.shadow.filter fun e => !(decide (x.k.top ≤ e.pos) && decide (e.pos < x.k.top + n)),
                                    depth := x.k.depth + n } }

/-- Whether an access of tile `t` to `a` stalls: it reaches another cluster's memory and that CLU page is not READY (spec/02 R54). -/
def stallsAt (s : State) (t a : Nat) : Bool :=
  let c := (a - clusterBase 0) / 0x800000
  decide (clusterBase 0 ≤ a) && decide (a < clusterBase 16) && c != t / 8 && !s.ready (pgClu c)

/-- What the output commit buffer holds of a read of `n` bytes at `a` (spec/10 R299): the number of the newest entry that overlaps it. -/
def ocbHit (l : List OcbE) (a n : Nat) : Option Nat :=
  (List.range l.length).reverse.find? fun i => match l[i]? with
    | some e => e.kind ≤ 1 && decide (a < e.addr + e.size) && decide (e.addr < a + n)
    | none => false

def OcbE.contains (e : OcbE) (a n : Nat) : Bool := decide (e.addr ≤ a) && decide (a + n ≤ e.addr + e.size)

/-- The bytes of a covering entry that a read takes, with their poison. -/
def OcbE.slice (e : OcbE) (a n : Nat) : Nat × Bool :=
  ((e.val >>> (8 * (a - e.addr))) % 256 ^ n, bits e.pois ((a + n - 1) / 8 - e.addr / 8) (a / 8 - e.addr / 8) != 0)

/-- What buffered writes do to a read (spec/10 R299): nothing, one answers it, or it waits until so many entries have left. A read of a control page waits for every buffered write to its page. -/
inductive Cover where
  | none
  | answer (e : OcbE)
  | waits (n : Nat)
  deriving Repr

def ocbCover (l : List OcbE) (a n : Nat) : Cover :=
  if inPages a then
    match (List.range l.length).reverse.find? fun i => match l[i]? with
        | some e => e.kind != 2 && e.addr / 4096 == a / 4096
        | none => false with
    | some i => .waits (i + 1)
    | none => .none
  else match ocbHit l a n with
    | none => .none
    | some i => match l[i]? with
      | some e => if e.contains a n then .answer e else .waits (i + 1)
      | none => .none

/-- A cairn falls due for a read that waits until `n` entries of the output commit buffer have left, unless the one under way releases them; none while the inputs of a re-execution stand in the journal. -/
def TileH.dueFor (h : TileH) (n now : Nat) : TileH :=
  let coming := match h.bound with
    | some b => decide (n ≤ b.ocb)
    | none => false
  if h.due.isSome || coming || !h.replay.isEmpty then h else { h with due := some now }

/-- The CLU page of the cluster an address lies in. -/
def cluPageOf (a : Nat) : Nat := pgClu ((a - clusterBase 0) / 0x800000)

/-- An external read issues (spec/13 R394); what covers it is judged here (spec/10 R299). -/
def KX.extRead (x : KX) (o : LdOp) (p a : Nat) : KX :=
  let e : ExtE := { pos := p, op := o, addr := a, iss := x.iss }
  let out (x : KX) (e : ExtE) : KX := ({ x with k := { x.k with ext := x.k.ext ++ [e] } } : KX).count 0x16
  match if x.chk then ocbCover (x.s.tileH x.t).ocb a o.size else .none with
  | .answer w => out x { e with ans := some (w.slice a o.size) }
  | .waits n => out (x.updTile fun h => h.dueFor n x.s.now) { e with behind := n }
  | .none => out (if stallsAt x.s x.t a then { x with s := x.s.bump (cluPageOf a) 0x048 31 16 } else x) e

/-- A load (spec/12 R371, R372): in the shadow from own local memory, else an external read under way. -/
def KX.load (x : KX) (o : LdOp) (n : Nat) : KM KX := do
  let (off, x) ← x.popUse
  let a ← x.access n off o.size false [0]
  x.repnOut a
  let p := x.k.top
  let x ← x.reserve (if o = .ldd then 2 else 1)
  if inOwn a 1 then
    let (v, x) := x.rdLoc a o.size
    .ok { x with k := { x.k with shadow := x.k.shadow ++ loadWords o p v.1 v.2 } }
  else .ok (x.extRead o p a)

/-- A store (spec/12 R371, R373). -/
def KX.store (x : KX) (o : StOp) (n : Nat) : KM KX := do
  let (v, x) ← if o = .std then x.pop64 else x.pop
  let (off, x) ← x.popUse
  let a ← x.access n off o.size true [1]
  x.repnOut a
  if inOwn a 1 then .ok (x.wrLoc a o.size v.1 [v.2])
  else .ok (x.output { kind := 0, copy := x.copy, addr := a, size := o.size, val := v.1, pois := b2n v.2 })

/-- LDT: the granule at `a` as 128 bits, tag at bit 128, and its poison; DRAM holds no tags (spec/14 R410). -/
def KX.granule (x : KX) (a : Nat) : KM ((Nat × Bool) × KX) :=
  if inOwn a 1 then .ok (x.rdTagged a)
  else
    let key := a * 8 + 7
    match if x.chk && !x.replays 0 key then ocbCover (x.s.tileH x.t).ocb a 16 else .none with
    | .answer e =>
      let v := e.slice a 16
      .ok (x.journal 0 key (v.1 + b2n (e.tag && a ≥ dramSize) * 2 ^ 128, v.2))
    | .waits n => .error (.due n)
    | .none => if !x.replays 0 key && stallsAt x.s x.t a then .error (.stall (cluPageOf a)) else
      let (v, s) := x.s.rdMem a 16
      let v := (v.1 + b2n (decide (dramSize ≤ a) && x.s.tag a) * 2 ^ 128, v.2)
      .ok (({ x with s := s } : KX).journal 0 key v)

def KX.setCap (x : KX) (n : Nat) (c : Cap) : KX := { x with k := x.k.setCap n c }

def KX.ldt (x : KX) (m n : Nat) : KM KX := do
  let (off, x) ← x.popUse n
  let a ← x.access n off 16 false [0, 3]
  x.repnOut a
  let (v, x) ← x.granule a
  if v.2 then .error (.pz x.old n)
  else .ok ((if inOwn a 1 then x else x.count 0x16).setCap m ⟨v.1 % 2 ^ 128, bit v.1 128⟩)

def KX.stt (x : KX) (m n : Nat) : KM KX := do
  let (off, x) ← x.popUse
  let a ← x.access n off 16 true [1, 4]
  x.repnOut a
  let c := x.old.cap m
  if inOwn a 1 then
    let x := x.wrLoc a 16 c.val [false, false]
    .ok { x with s := if c.tag then x.s.setTag (physOf x.t a) 7 else x.s }
  else .ok (x.output { kind := 1, copy := x.copy, addr := a, size := 16, val := c.val, pois := 0, tag := c.tag })

/-- A capability's value with another base, length, permissions, knot. -/
def Cap.withRange (c : Cap) (b l : Nat) : Cap :=
  { c with val := setBits (setBits (setBits c.val 39 0 b) 79 40 l) 105 105 (l / 2 ^ 40) }
def Cap.withPerms (c : Cap) (p : Nat) : Cap := { c with val := setBits c.val 95 80 p }
def Cap.withKnot (c : Cap) (knot : Bool) (ty : Nat) : Cap := { c with val := setBits (setBit c.val 104 knot) 103 96 ty }

def KX.crange (x : KX) (d sr : Nat) : KM KX := do
  let (l, x) ← x.popUse
  let (o, x) ← x.popUse
  let c := x.old.cap sr
  if !c.usable then .error (.cap x.old sr)
  else if c.len < o + l then .error (.fault 4 (max (c.base + o) c.top) sr)
  else .ok (x.setCap d (c.withRange (c.base + o) l))

/-- CPERM: derivation keeps the reserved permission bits 15:9 (spec/14 R409). -/
def KX.cperm (x : KX) (d sr : Nat) : KM KX := do
  let (p, x) ← x.popUse
  let c := x.old.cap sr
  if !c.usable then .error (.cap x.old sr) else .ok (x.setCap d (c.withPerms (c.perms &&& (p ||| 0xFE00))))

/-- CTIE (spec/14 R412). -/
def KX.ctie (x : KX) (d sr : Nat) : KM KX :=
  let cd := x.old.cap d; let cs := x.old.cap sr
  if !cs.usable || !cs.perm 5 || cs.ktype == 0 then .error (.cap x.old sr)
  else if !cd.usable then .error (.cap x.old d)
  else .ok (x.setCap d (cd.withKnot true cs.ktype))

/-- CUNTIE (spec/14 R412). -/
def KX.cuntie (x : KX) (d sr : Nat) : KM KX :=
  let cd := x.old.cap d; let cs := x.old.cap sr
  if !cs.usable || !cs.perm 6 then .error (.cap x.old sr)
  else if !(cd.tag && cd.knotted) then .error (.cap x.old d)
  else if cs.ktype != cd.ktype then .error (.cap x.old sr)
  else .ok (x.setCap d (cd.withKnot false 0))

def KX.cread (x : KX) (f n : Nat) : KM KX :=
  let c := x.old.cap n
  match f with
  | 0 => x.push64 c.base false
  | 1 => x.push64 c.len false
  | 2 => x.push c.perms false
  | 3 => x.push c.ktype false
  | 4 => x.push (b2n c.tag) false
  | _ => x.push (b2n c.knotted) false

/-- WAITW (spec/11 R357): the head release entry, journalled, or a wait. -/
def KX.waitw (x : KX) : KM KX :=
  let go (x : KX) (w : Nat) : KM KX := do
    let x ← x.push64 (w % 2 ^ 64) false
    x.push64 (w / 2 ^ 64) false
  if x.replays 1 0 then
    let (v, x) := x.journal 1 0 (0, false)
    go x v.1
  else
    match x.s.relPop x.t with
    | (some e, s) =>
      let (v, x) := ({ x with s := s } : KX).journal 1 0 (e.w0.toNat + e.w1.toNat * 2 ^ 64, false)
      go x v.1
    | (none, _) => .ok { x with wait := true }

/-- MBXR: the oldest mailbox word, or 0 (spec/12). -/
def KX.mbxr (x : KX) (n : Nat) : KM KX :=
  let go (x : KX) (v : Nat × Bool) : KM KX := do
    let p := x.k.top
    let x ← x.push64 (v.1 % 2 ^ 64) v.2
    let x := (x.scored 6 p).scored 6 (p + 1)
    .ok { x with k := x.k.setPred n (bit v.1 64) }
  let x := x.count 0x16
  if x.replays 2 0 then
    let (v, x) := x.journal 2 0 (0, false)
    go x v
  else
    match x.s.mboxPop x.t with
    | (some e, s) =>
      let (v, x) := ({ x with s := s } : KX).journal 2 0 (e.1 + 2 ^ 64, e.2)
      go x v
    | (none, _) =>
      let (v, x) := x.journal 2 0 (0, false)
      go x v

/-- SEND (spec/12 R377): `k` bytes as one RAW cell; none for k = 0, which raises nothing. Bytes across a line take one cycle more. -/
def KX.send (x : KX) (n st : Nat) : KM KX := do
  let (k, x) ← x.popUse
  if k = 0 then .ok (x.drop 1)
  else
    let (o, x) ← x.popUse
    let c := x.old.cap n
    let a := c.base + o
    if !c.usable || !c.perm 0 then .error (.cap x.old n)
    else if !c.covers a k then .error (.fault 4 (if c.top ≤ a then a else c.top) n)
    else if 48 < k then .error (.fault 4 a n)
    else if !inOwn a k then .error (.fault 4 (if inOwn a 1 then ownBase + 0x80000 else a) n)
    else match x.pairBad a k false with
      | some b => .error (.fault 4 b n)
      | none =>
        let (v, x) := x.rdPort a k x.ma true
        let (v, x) := x.ownInput a k v
        let pm := (List.range k).foldl (fun m i => if v.2.getD ((a + i) / 8 - a / 8) false then m ||| 2 ^ ((16 + i) / 8) else m) 0
        let x := if 64 < a % 64 + k then { x with more := x.more + 1 } else x
        .ok (x.output { kind := 2, copy := x.copy, addr := st, size := k, val := v.1, pois := pm })

/-- TFESUB (spec/12 R378). -/
def KX.tfesub (x : KX) (n : Nat) : KM KX := do
  let (w, x) ← x.popUse
  let c := x.old.cap n
  let a := pageBase + pgTfe (x.t / 8) * 4096
  if !c.usable || !c.perm 7 || !c.perm 1 then .error (.cap x.old n)
  else if !c.covers a 4096 then .error (.fault 4 (if c.base ≤ a ∧ a < c.top then c.top else a) n)
  else .ok (x.output { kind := 3, copy := x.copy, addr := a + 0x040, size := 4, val := w, pois := 0 })

/-- Whether the copy holds the bytes at a branch target: in a line buffer, or with the branch's own BTB entry. They execute whatever became of their window (spec/14 R428). -/
def KX.holdsTarget (x : KX) (tg : Nat) : Bool :=
  (x.k.held tg 2).isSome || x.k.btb.any fun e => e.addr == x.old.pc && e.target == tg && e.code.isSome

/-- The checks of a branch target (spec/12 R380). -/
def KX.target (x : KX) (tg : Nat) (c : Cap) (creg : Nat) : KM Unit :=
  if tg % 2 = 1 then .error (.fault 6 tg creg)
  else if tg < c.base ∨ c.top ≤ tg then .error (.fault 4 tg creg)
  else if !c.perm 2 || !(x.s.codeAt x.t tg 2 || x.holdsTarget tg) then .error (.fault 5 tg creg)
  else .ok ()

/-- A taken branch. -/
def KX.jump (x : KX) (tg : Nat) : KX := { x with next := tg, taken := true, k := x.k.leaveLoop tg }

/-- PC-relative target: PC is the address of the branching bundle (spec/12). -/
def KX.rel (x : KX) : Nat := (((x.old.pc : Int) + s32 x.lit) % 2 ^ 40).toNat

/-- CALL and CALLI after the target is known (spec/11 R331, R333); a write of LC in the same bundle is seen by the next one only (spec/12 R360). -/
def KX.callTo (x : KX) (n tg : Nat) : KM KX := do
  x.target tg (x.old.cap 0) 0
  let a := x.k.rsp - 16
  let w0 := x.next % 2 ^ 40 + x.k.loopBits x.next
  let w1 := x.old.lc + (x.k.depth - n) * 2 ^ 32
  let x := x.rsWrite a w0 w1
  let x := { x with k := { x.k with rsp := a, base := x.k.top - n, depth := n, la := false } }
  .ok { x with next := tg, taken := true }

/-- RET k (spec/11 R331, R333); a load in its shadow lands first (R349). -/
def KX.ret (x : KX) (n : Nat) : KM KX := do
  let top := x.k.top
  let x := { x with k := x.k.landIn (top - n) top }
  let vs ← (List.range n).mapM fun i => x.read (top - n + i)
  let (e, x) := x.rsRead x.k.rsp
  if e.pois then .error (.pz x.old)
  else
    let d := bits e.hi 39 32
    let x ← vs.zipIdx.foldlM (fun (x : KX) q => x.write (x.k.base + q.2) q.1.1 q.1.2) x
    let x := x.rsFree (x.k.rsp + 16)
    let k := { x.k with base := (x.k.base + 2 ^ 17 - d) % 2 ^ 17, depth := d + n, lc := lo32 e.hi, lcAt := some x.iss }
    let k := k.setLoopBits e.lo
    let k := k.leaveLoop k.pc
    .ok { x with next := k.pc, taken := true, k := k.lowFollow }

/-- A suspended division as RETX restarts it, from its first iteration (spec/13 R403). -/
def KX.restart (x : KX) (e : DivE) : DivE := { e with ready := x.readyAfter e.op.lat }

/-- RETX (spec/14 R424): restores the frame at RSP. -/
def KX.retx (x : KX) : KM KX := do
  let r := x.k.rsp
  let (a, x) := x.rsRead r
  let (b, x) := x.rsRead (r + 16)
  let (c, x) := x.rsRead (r + 32)
  let c0 : Cap := ⟨c.lo + c.hi * 2 ^ 64, c.tag⟩
  if !c0.usable || bit b.lo 62 || a.pois || b.pois || c.pois then .error (.cap x.old 0)
  else
    let x := x.rsFree (r + 48)
    let k := x.k
    let k : KCopy := { k with
      lc := lo32 a.hi, rc := hi32 a.hi, status := bits b.lo 13 0 &&& statusMask, preds := 1 + 2 * bits b.lo 20 14,
      base := bits b.lo 37 21, depth := bits b.lo 45 38, remain := if bit a.lo 59 then some (hi32 b.hi) else none,
      divI := if k.latI.isSome then k.latI.map x.restart else k.divI, divF := if k.latF.isSome then k.latF.map x.restart else k.divF,
      latI := none, latF := none }
    let k : KCopy := (k.setLoopBits a.lo).setCap 0 c0
    let k : KCopy := k.leaveLoop k.pc
    if 224 < k.depth then .error (.fault 2 x.old.pc 0)
    else
      let x ← ({ x with k := k.lowFollow } : KX).spillTo k.top 64
      .ok { x with next := k.pc, taken := true }

/-- One op (spec/12). -/
def KX.op (x : KX) (o : KOp) : KM KX :=
  let top := x.k.top
  match o with
  | .nop => .ok x
  | .stk o => x.stk o
  | .pick k => do
    let a ← x.read (top - 1 - k)
    x.push a.1 a.2
  | .dropn m => .ok (x.drop (m + 1))
  | .loc k => do
    let a ← x.read (x.k.base + k)
    x.push a.1 a.2
  | .setl k => do
    let (a, x) ← x.pop
    x.write (x.k.base + k) a.1 a.2
  | .lit _ => x.push x.lit false
  | .bin o => do
    let (b, x) ← x.pop
    let (a, x) ← x.pop
    let v := binVal x.ftz o a.1 b.1
    if o.divider = 0 then x.result (.bin o) v (a.2 || b.2) else x.divide o.divider (.bin o) a.1 b.1 v (a.2 || b.2)
  | .un o => do
    let (a, x) ← x.pop
    let v := unVal x.ftz o a.1
    if o = .fsqrt then x.divide 2 (.un o) a.1 0 v a.2 else x.result (.un o) v a.2
  | .tern o => do
    let (c, x) ← x.pop
    let (b, x) ← x.pop
    let (a, x) ← x.pop
    x.result (.tern o) (ternVal x.ftz o a.1 b.1 c.1) (a.2 || b.2 || c.2)
  | .wide sg => do
    let (b, x) ← x.pop
    let (a, x) ← x.pop
    let p := x.k.top
    let x ← x.push64 (if sg then ofS 64 (s32 a.1 * s32 b.1) else a.1 * b.1) (a.2 || b.2)
    .ok ((x.scored 3 p).scored 3 (p + 1))
  | .ang sub => do
    let (b, x) ← x.pop64
    let (a, x) ← x.pop64
    x.push64 ((if sub then a.1 + 2 ^ 64 - b.1 else a.1 + b.1) % 2 ^ 64) (a.2 || b.2)
  | .angcmp n => do
    let (b, x) ← x.pop64
    let (a, x) ← x.pop64
    if a.2 || b.2 then .error (.pz x.old) else .ok { x with k := x.k.setPred n (decide (0 ≤ toS 64 (a.1 + 2 ^ 64 - b.1))) }
  | .cmp c n => do
    let (b, x) ← x.popUse
    let (a, x) ← x.popUse
    .ok { x with k := x.k.setPred n (cmpVal c a b) }
  | .cmpz c n => do
    let (a, x) ← x.popUse
    .ok { x with k := x.k.setPred n (cmpzVal c a) }
  | .fcmp c n => do
    let (b, x) ← x.popUse
    let (a, x) ← x.popUse
    let r := fcmpVal x.ftz c a b
    let x := x.flags r.2
    .ok { x with k := x.k.setPred n r.1 }
  | .plog f m n =>
    let p := x.old.pred n; let q := x.old.pred m
    let r := match f with
      | 0 => p && q
      | 1 => p || q
      | 2 => p != q
      | _ => p && !q
    .ok { x with k := x.k.setPred n r }
  | .pset n => .ok { x with k := x.k.setPred n true }
  | .pclr n => .ok { x with k := x.k.setPred n false }
  | .pnot n => .ok { x with k := x.k.setPred n (!x.old.pred n) }
  | .pushp n => x.push (b2n (x.old.pred n)) false
  | .popp n => do
    let (a, x) ← x.popUse
    .ok { x with k := x.k.setPred n (a != 0) }
  | .sel n => do
    let (b, x) ← x.pop
    let (a, x) ← x.pop
    if x.old.pred n then x.push a.1 a.2 else x.push b.1 b.2
  | .rdst => x.push x.old.status false
  | .wrst => do
    let (a, x) ← x.popUse
    .ok { x with k := { x.k with status := a &&& statusMask } }
  | .rdlc => x.push x.old.lc false
  | .wrlc => do
    let (a, x) ← x.popUse
    .ok { x with k := { x.k with lc := a, lcAt := some x.iss } }
  | .rdrc => x.push x.old.rc false
  | .wrrc => do
    let (a, x) ← x.popUse
    .ok { x with k := { x.k with rc := a } }
  | .rdp => x.push (x.old.preds ||| 1) false
  | .wrp => do
    let (a, x) ← x.popUse
    .ok { x with k := { x.k with preds := a % 256 ||| 1 } }
  | .rddep => x.push x.k.depth false
  | .rdrsp => x.push (lo32 (x.k.rsp + 2 ^ 40 - (x.old.cap 1).base)) false
  | .rdtile => x.push (x.t + x.copy * 2 ^ 8 + x.mode * 2 ^ 10) false
  | .ld o n => x.load o n
  | .st o n => x.store o n
  | .ldt m n => x.ldt m n
  | .stt m n => x.stt m n
  | .cmov d s => .ok (x.setCap d (x.old.cap s))
  | .crange d s => x.crange d s
  | .cperm d s => x.cperm d s
  | .ctie d s => x.ctie d s
  | .cuntie d s => x.cuntie d s
  | .cread f n => x.cread f n
  | .cvoid n => .ok (x.setCap n {})
  | .waitw => x.waitw
  | .syncf => .ok { x with k := { x.k with rsCache := [], lines := [], line := none, reqs := [], cov := none, loopB := none, btb := [] } }
  | .cairn => .ok (if x.chk then
      let x := x.updTile fun h => if h.due.isSome then h else { h with due := some x.s.now }
      { x with s := x.s.bump (pgTile x.t) 0x05C 7 0 } else x)
  | .mbxr n => x.mbxr n
  | .send n s => x.send n s
  | .tfesub n => x.tfesub n
  | .br _ => do
    x.target x.rel (x.old.cap 0) 0
    .ok (x.jump x.rel)
  | .bri => do
    let (o, x) ← x.popUse
    let tg := (x.old.cap 0).base + o
    x.target tg (x.old.cap 0) 0
    .ok (x.jump tg)
  | .brc n => do
    let (o, x) ← x.popUse
    let c := x.old.cap n
    if !c.usable then .error (.cap x.old n)
    else
      let tg := c.base + o
      x.target tg c n
      .ok ((x.setCap 0 c).jump tg)
  | .loop _ tail => do
    let (c, x) ← x.popUse
    if c = 0 then .ok { x with next := (x.next + 2 * x.lit + 2 * tail) % 2 ^ 40 }
    else .ok { x with k := { x.k with lc := c, lcAt := some x.iss, la := true, ls := x.next, leoff := x.lit, loopB := none } }
  | .call n _ => x.callTo n x.rel
  | .calli n => do
    let (o, x) ← x.popUse
    x.callTo n ((x.old.cap 0).base + o)
  | .ret n => x.ret n
  | .trap n => .ok { x with trap := some n }
  | .retx => x.retx

end Sys2Proof.Machine
end

