-- ==== Sys2Proof/Machine/KRun.lean ====
section
/-! DEFINITION. How a copy takes a bundle: events at its boundary, fetch, decode, the guard, repeats and loops, exception entry and double faults, and the cycles all this takes (spec/11 R339–R348, spec/12 R362, spec/13 R387–R407, spec/14 R414–R426, spec/10 R293, R304). -/

namespace Sys2Proof.Machine

/-- The record of a copy of a tile. Copies are numbered A 0, B 1, C 2; the checked core of TRIO and PAIR is 0. Its next bundle issues from the cycle that the last one left on, and never before the present. -/
def State.kx (s : State) (t copy : Nat) : KX :=
  let h := s.tileH t
  let k := h.copies.getD copy {}
  { s := s, t := t, copy := copy, chk := decide (h.mode ≤ 1) && copy == 0, mode := h.mode, old := k, k := k, iss := max k.clk s.now }

/-- The state with the record's copy put back. -/
def KX.done (x : KX) : State :=
  let h := x.s.tileH x.t
  x.s.setTile x.t { h with copies := setAt h.copies x.copy x.k }

/-- Whether a copy takes bundles: its tile is READY, the copy runs, and neither a halt, a recovery (which leaves copy C of PAIR alone, spec/10 R302), a drain nor a self-test slice of copy C (spec/17 R471) stops it. -/
def State.kCan (s : State) (t copy : Nat) : Bool :=
  let h := s.tileH t
  decide (t < 128) && s.ready (pgTile t) && (h.copies.getD copy {}).run && !(h.recovering && !(h.mode == 1 && copy == 2)) && !h.draining &&
    !(h.halted.getD copy false) && !(h.mode == 1 && copy == 2 && s.runsOn (pgBistC (t / 8)) 6 t)

/-! Fetch (spec/13 R397–R400, spec/14 R414). -/

/-- The bytes at `a` up to 16 or to the end of the line, as a BTB entry and the loop-start capture hold them (spec/13 R399, R400). -/
def CodeB.capture (l : CodeB) (a : Nat) : CodeB := l.slice a (min 16 (64 - a % 64))

/-- A line has come: BTB entries and a loop-start capture that wait for its bytes take them (spec/13 R399, R400). -/
def KCopy.lineCame (k : KCopy) (l : CodeB) : KCopy :=
  { k with btb := k.btb.map fun e => if e.code.isNone && e.target / 64 * 64 == l.addr then { e with code := some (l.capture e.target) } else e
           loopB := if k.la && k.loopB.isNone && k.ls / 64 * 64 == l.addr then some (l.capture k.ls) else k.loopB }

/-- What keeps a line from outside own memory from being read (spec/10 R299, spec/02 R54): buffered writes to it, or a CLU page that is not READY. -/
def KX.lineWaits (x : KX) (la : Nat) : Option KStop :=
  if inOwn la 1 || x.replays 5 la then none
  else match if x.chk then ocbHit (x.s.tileH x.t).ocb la 64 else none with
    | some i => some (.due (i + 1))
    | none => if stallsAt x.s x.t la then some (.stall (cluPageOf la)) else none

/-- Whether a line may be requested: code lies there, and copy C's pages are its own. -/
def KX.mayFetch (x : KX) (la : Nat) : Bool := x.s.codeAt x.t la 64 && (if inOwn la 1 then (x.pairBad la 64 false).isNone else true)

/-- Posts a request for a line in cycle `c`, unless it is held or requested (spec/13 R397). -/
def KX.post (x : KX) (la c : Nat) : KX :=
  if x.k.hasLine la || x.k.reqs.any (fun q => q.1 == la) || !x.mayFetch la then x
  else { x with k := { x.k with reqs := x.k.reqs ++ [(la, c)] } }

/-- A line is served in cycle `c`, as the stores written before left it, into the buffer that does not hold the line last taken from; its bundles issue from `c` + 4 on (spec/13 R397, R398, R406). In a checked core a line from outside own local memory, or from copy C's pages, is a journalled input (spec/14 R414, spec/10 R286, R288). -/
def KX.fetchLine (x : KX) (la c : Nat) : KX :=
  let input := !inOwn la 1 || x.readsFree la 64
  let (v, x) := if input && x.replays 5 la then x.journal 5 la (0, false)
    else
      let (ls, x) := if inOwn la 1 then x.lanesAt 8 (physOf x.t la) c true else
        let (ls, s) := x.s.rdLanes 8 la none
        (ls, { x with s := s })
      let v := lanesVal ls + ofBits (ls.map (·.2)) * 2 ^ 512
      if input then x.journal 5 la (v, false) else ((v, false), x)
  let l : CodeB := { addr := la, n := 64, val := v.1 % 2 ^ 512, pois := v.1 / 2 ^ 512, ready := c + 4 }
  { x with k := ({ x.k with lines := x.k.lines.take 1 ++ [l] } : KCopy).lineCame l }

/-- Serves a requested line where its turn has come: from own memory in the first cycle that the port gives to fetch, once every access that may come before is known, which it is when nothing issues before the line (`need`). -/
def KX.serve (x : KX) (need : Option Nat) (q : Nat × Nat) : KX :=
  let gone : KX := { x with k := { x.k with reqs := x.k.reqs.filter (· != q) } }
  if x.k.hasLine q.1 then gone
  else if inOwn q.1 1 then
    let c := x.portFrom 64 q.2
    if need.isSome ∨ c < x.iss + 3 then (gone.portTake c).fetchLine q.1 c else x
  else match x.lineWaits q.1 with
    | some (.due n) => x.updTile fun h => h.dueFor n x.s.now
    | some _ => x
    | none => gone.fetchLine q.1 q.2

def KX.serveAll (x : KX) (need : Option Nat) : KX := x.k.reqs.foldl (fun x q => x.serve need q) x

/-- Takes `n` bytes at PC from where the copy holds them, or waits for their line: what stops it, or whether a word that holds a parcel is poisoned (spec/13 R397–R400, spec/15 R440). -/
def KX.fetchCode (x : KX) (n : Nat) : Option KStop × KX :=
  let pc := x.k.pc
  let la := pc / 64 * 64
  let n := min n (64 - pc % 64)
  let pz (c : CodeB) : Option KStop := if (c.slice pc n).pois != 0 then some (.fault 7 pc 0) else none
  let loopStart (x : KX) : KX := if x.k.la && x.k.ls == pc && x.k.loopB.isNone then
      { x with k := { x.k with loopB := (x.k.lines.find? (·.addr == la)).map (·.capture pc) } } else x
  let x := x.serveAll none
  match x.k.cov.filter (·.covers pc n) with
  | some c => (pz c, loopStart { x with line := none })
  | none =>
    let x := ({ x with k := { x.k with cov := none } } : KX)
    let x := if x.k.hasLine la then x else (if x.k.reqs.any fun q => q.1 == la then x else { x with k := { x.k with reqs := x.k.reqs ++ [(la, x.iss)] } }).serveAll (some la)
    match x.k.lines.find? (·.addr == la) with
    | none => ((x.lineWaits la).orElse fun _ => some .hold, x)
    | some c =>
      let x := if c.ready ≤ x.iss then x else ({ x with iss := c.ready } : KX).count 0x06 (c.ready - x.iss)
      (pz c, loopStart { x with line := some la, k := x.k.lineFirst la })

/-- What fetch finds wrong at PC (spec/14 R414, R428, spec/12 R380, spec/15 R440). A bundle reached by falling through past the end of C0 is out of bounds. Bytes that the copy holds execute whatever became of their window. -/
def KX.fetchFault (x : KX) (n : Nat) : Option KStop × KX :=
  let pc := x.k.pc
  let c := x.k.cap 0
  if !c.usable || !c.perm 2 then (some (.fault 5 pc 0), x)
  else if !c.covers pc n then (some (if x.k.fell then .fault 4 (if pc < c.base ∨ c.top ≤ pc then pc else c.top) 0 else .fault 5 pc 0), x)
  else if (x.k.held pc (min n (64 - pc % 64))).isNone && !x.s.codeAt x.t pc n then (some (.fault 5 pc 0), x)
  else match if inOwn pc 1 then x.pairBad pc n false else none with
    | some a => (some (.fault 4 a 0), x)
    | none => x.fetchCode n

/-- Whether a FLOW op uses the BTB (spec/13 R399). -/
def usesBtb (o : KOp) : Bool := match o with
  | .br _ | .bri | .brc _ | .call _ _ | .calli _ | .ret _ => true
  | _ => false

/-- A redirect to the next bundle's address: what covers it, and the request for its line (spec/13 R400). -/
def KX.redirect (x : KX) (cov : Option CodeB) (kind : Nat) : KX :=
  ({ x with redir := kind, k := { x.k with cov := cov } } : KX).post (x.next / 64 * 64) x.iss

/-- What a bundle's FLOW op does to the BTB when it issues, and what the redirect is covered by (spec/13 R399, R400): a hit on the stored target is covered; a taken miss, or a hit with another target, writes the entry of its index; a hit that is not taken loses it, and the fall-through is an uncovered redirect. The bundle after SYNCF follows as one too (R406). -/
def KX.flowNote (x : KX) (b : Bundle) : KX :=
  if b.ops.getLast? = some .syncf then x.redirect none 2
  else if !(b.ops.getLast?.any usesBtb) then (if x.taken then x.redirect none 2 else x)
  else
    let a := x.old.pc
    let hit := x.k.btb.find? fun e => e.addr == a
    let x := x.count (if hit.isSome then 0x07 else 0x08)
    if !x.taken then
      if hit.isSome then ({ x with k := { x.k with btb := x.k.btb.filter fun e => e.addr != a } } : KX).redirect none 2 else x
    else match hit.filter fun e => e.target == x.next with
      | some e => x.redirect e.code 1
      | none =>
        let code := (x.k.lines.find? (·.addr == x.next / 64 * 64)).map (·.capture x.next)
        let e : BtbE := ⟨a, x.next, code⟩
        ({ x with k := { x.k with btb := e :: x.k.btb.filter fun e => e.addr / 2 % 64 != a / 2 % 64 } } : KX).redirect none 2

/-! Exceptions (spec/14 R415–R426). -/

/-- An exception to enter: its cause, fault address and register, the resume PC, the remaining repeat count, the MORE and IMP bits. -/
structure Exc where
  cause : Nat
  faddr : Nat
  creg : Nat
  pc : Nat
  rep : Option Nat := none
  more : Bool := false
  imp : Bool := false
  deriving DecidableEq, Repr

/-- The four words of a frame before its C0 slot (spec/14 R422). -/
def KCopy.frame (k : KCopy) (e : Exc) (dbl : Bool) : List Nat :=
  [ e.pc % 2 ^ 40 + k.loopBits e.pc + b2n e.rep.isSome * 2 ^ 59 + e.creg % 16 * 2 ^ 60,
    cat32 k.lc k.rc,
    bits k.status 13 0 + bits k.preds 7 1 * 2 ^ 14 + k.base % 2 ^ 17 * 2 ^ 21 + k.depth % 256 * 2 ^ 38 + e.cause % 64 * 2 ^ 46 +
      bits e.faddr 39 32 * 2 ^ 52 + b2n e.more * 2 ^ 60 + b2n e.imp * 2 ^ 61 + b2n dbl * 2 ^ 62,
    lo32 e.faddr + (e.rep.getD 0) % 2 ^ 32 * 2 ^ 32 ]

/-- The vector table of a copy: offset from its TILE_VEC register (spec/14 R421). -/
def KX.vecAddr (x : KX) (cause : Nat) : Nat :=
  ownBase + x.s.fld (pgTile x.t) (0x0E0 + 4 * (if x.chk then 0 else x.copy)) 18 9 * 512 + 16 * cause

/-- The vector entry for a cause, or why it is not usable (spec/14 R421): cause, register, fault address. It is read with its line in one port read; from copy C's pages it is an input (spec/10 R288). -/
def KX.vector (x : KX) (cause : Nat) : Except (Nat × Nat × Nat) Cap × KX :=
  let a := x.vecAddr cause
  let l := a / 64 * 64
  let tg := x.tagAt a x.ma
  let (v, x) := x.rdPort l 64 x.ma true
  let w := v.1 / 256 ^ (a - l) % 2 ^ 128 + b2n tg * 2 ^ 128 + b2n (v.2.any id) * 2 ^ 129
  let (w, x) := if x.readsFree l 64 then x.journal 0 (a * 8 + 6) (w, false) else ((w, false), x)
  let c : Cap := ⟨w.1 % 2 ^ 128, bit w.1 128⟩
  let bad (cs : Nat) : Except (Nat × Nat × Nat) Cap × KX := (.error (cs, 0, a), x)
  if bit w.1 129 then bad 7
  else if (x.pairBad a 16 false).isSome then bad 4
  else if !c.usable then bad 3
  else if !c.perm 2 || !x.s.codeAt x.t c.base 1 then bad 5
  else if c.base % 2 = 1 then bad 6
  else if c.len < 2 then bad 4
  else (.ok c, x)

/-- Starts the handler: C0, PC, IMASK, an empty window above the stack (spec/14 R420). Its line is requested in the entry's first cycle, and its first bundle issues `n` cycles after that (spec/13 R402). -/
def KX.handler (x : KX) (c : Cap) (n : Nat) : KX :=
  let k := x.k.setCap 0 c
  let k := { k with pc := c.base, cov := none, fell := false, status := k.status ||| 1, base := k.top % 2 ^ 17, depth := 0, la := false, remain := none, waiting := none }
  ({ x with k := { k with clk := x.iss + n, extWait := false } } : KX).post (c.base / 64 * 64) x.iss

/-- A tile reset (spec/10 R321, spec/14 R426): its outputs since the last commit are discarded and the copies stop; the page goes to FAULT with code 5, and the present mode restarts. A retired tile, whose last cairn a spare may yet take, is not reset. -/
def State.tileReset (s : State) (t : Nat) : State :=
  if s.retired (pgTile t) then s else
  let h := s.tileH t
  let h := { h with ocb := [], undo := [], jrn := [], replay := [], due := none, bound := none, recovering := false, restart := true }
  let s := s.setTile t { h with draining := false, handReq := none, copies := h.copies.map fun k => { k with run := false } }
  (s.heldFlush t).pageFault (pgTile t) 5

/-- A double fault that finds no C15 or no vector: the tile is reset and the event recorded (spec/14 R426). -/
def KX.deadFault (x : KX) (orig entry : Nat) : State :=
  let p := pgTile x.t
  let s := x.done
  let s := s.bump p 0x0EC 15 0
  let s := s.setFld p 0x0EC 31 18 (orig * 2 ^ 8 + entry * 4 + x.copy)
  let s := (s.irq p 22).logEvent 0x0050 2 p (x.t + x.copy * 2 ^ 8 + orig * 2 ^ 16 + entry * 2 ^ 24)
  s.tileReset x.t

/-- Writes a slot at a physical place of own local memory outside the return stack. -/
def KX.slot (x : KX) (a lo hi : Nat) (tag : Bool) : KX :=
  let x := x.wrLoc a 16 (lo % 2 ^ 64 + hi * 2 ^ 64) [false, false]
  if tag then { x with s := x.s.setTag (physOf x.t a) 7 } else x

/-- The double fault (spec/14 R425). -/
def KX.doubleFault (x : KX) (e : Exc) (f : Nat × Nat × Nat) : State :=
  let c := x.k.cap 15
  let a := c.top - 80
  if !c.usable || !c.perm 0 || !c.perm 1 || c.base % 32 != 0 || c.len % 32 != 0 || decide (c.len < 80) || !inOwn c.base c.len ||
      (x.pairBad a 80 true).isSome then x.deadFault e.cause f.1
  else
    let w := x.k.frame e true
    let c0 := x.k.cap 0; let c1 := x.k.cap 1
    let x := x.slot a (w.getD 0 0) (w.getD 1 0) false
    let x := x.slot (a + 16) (w.getD 2 0) (w.getD 3 0) false
    let x := x.slot (a + 32) (c0.val % 2 ^ 64) (c0.val / 2 ^ 64) c0.tag
    let x := x.slot (a + 48) (c1.val % 2 ^ 64) (c1.val / 2 ^ 64) c1.tag
    let x := x.slot (a + 64) (f.1 % 64 + f.2.1 % 16 * 2 ^ 6) (f.2.2 % 2 ^ 40) false
    match x.vector 15 with
    | (.error _, x) => x.deadFault e.cause f.1
    | (.ok v, x) =>
      let k := (x.k.setCap 1 c)
      let x := { x with k := { k with rsp := a, base := 0, depth := 0, low := 0, rsCache := [], ext := [] } }
      (x.handler v 24).done

/-- Exception entry (spec/14 R420) from the cycle `iss` on: lands the shadow, pushes the frame, takes the vector. -/
def KX.enter (x : KX) (e : Exc) : State :=
  let p := pgTile x.t
  let x := ((x.landDivs x.iss).count 0x13).count (if e.cause = 0x0B then 0x12 else 0x11) (if e.cause = 0x0B ∨ e.cause = 0x0C ∨ e.cause = 0x0D then 1 else 0)
  let x := { x with k := x.k.landAll, s := if e.cause = 7 then x.s.errPoison p else x.s }
  let r := x.k.rsp - 48
  let c1 := x.k.cap 1
  let room := decide (48 ≤ x.k.rsp) && decide (c1.base + 4 * x.k.top ≤ r)
  match if room then x.c1Check r 48 true else .error (.fault 2 r 1) with
  | .error st => x.doubleFault e (match st with
      | .fault cs fa cr => (cs, cr, fa)
      | _ => (2, 1, r))
  | .ok _ =>
    let w := x.k.frame e false
    let c0 := x.k.cap 0
    let x := x.rsWrite (r + 32) (c0.val % 2 ^ 64) (c0.val / 2 ^ 64) c0.tag
    let x := x.rsWrite (r + 16) (w.getD 2 0) (w.getD 3 0)
    let x := x.rsWrite r (w.getD 0 0) (w.getD 1 0)
    let y := { x with k := { x.k with rsp := r } }
    match y.vector e.cause with
    | (.error f, z) => ({ z with k := { z.k with rsp := r + 48 } } : KX).doubleFault e f
    | (.ok v, z) => (z.handler v 12).done

/-- The lowest page that requests an interrupt of tile `t` (spec/14 R415, spec/02 R39). -/
def State.pageIrqOf (s : State) (t : Nat) : Option Nat :=
  (s.regs.find? fun q =>
    let p := q.1 / 4096
    q.1 % 4096 == oIntStatus && s.irqRequest p && decide (s.fld p oIntRoute 7 0 < 128) && s.workTile (s.fld p oIntRoute 7 0) == t).map (·.1 / 4096)

/-- The asynchronous event due for a copy, in the order of spec/14 R419: WDGX, RELEASE, PAGE. Only the copy that owns the tile's queues gets them, and none while IMASK is 1. -/
def KX.async (x : KX) : Option (Nat × Nat) :=
  if !x.owner || bit x.k.status 0 then none
  else
    let h := x.s.tileH x.t
    match h.wdgx with
    | a :: _ => some (0x0E, a)
    | [] =>
      if h.relIrq then some (0x0C, 0)
      else (x.s.pageIrqOf x.t).map fun p => (0x0D, pageBase + p * 4096)

/-- Takes an asynchronous event: dividers in flight move to their suspend latches; one whose latch is full completes first (spec/13 R403). The event is journalled, and the exception is entered. A replayed one (`live` false) leaves what has come meanwhile. -/
def KX.takeAsync (x : KX) (live : Bool) (ev : Nat × Nat) (pc : Nat) (rep : Option Nat) : State :=
  let x := x.landDivs x.iss
  let full : List DivE := (if x.k.latI.isSome then x.k.divI.toList else []) ++ if x.k.latF.isSome then x.k.divF.toList else []
  let x := { x with iss := (full.map DivE.ready).foldl max x.iss }
  let x := x.landDivs x.iss
  let n := b2n x.k.divI.isSome + b2n x.k.divF.isSome
  let k := x.k
  let k := if k.divI.isSome then { k with latI := k.divI, divI := none } else k
  let k := if k.divF.isSome then { k with latF := k.divF, divF := none } else k
  let x := ({ x with k := k } : KX).count 0x0C n
  let x := x.updTile fun h =>
    let h := if !live then h else if ev.1 = 0x0E then { h with wdgx := h.wdgx.tail } else if ev.1 = 0x0C then { h with relIrq := false } else h
    if x.chk then { h with jrn := h.jrn ++ [⟨3, ev.1, ev.2, false, h.bundles⟩] } else h
  x.enter { cause := ev.1, faddr := ev.2, creg := 0, pc := pc, rep := rep }

/-- Takes the pending imprecise arithmetic exception (spec/14 R416, R417). -/
def KX.takeArith (x : KX) (a : ArithE) (pc : Nat) (rep : Option Nat) : State :=
  ({ x with k := { x.k with arith := none } } : KX).enter { cause := a.cause, faddr := a.faddr, creg := 0, pc := pc, rep := rep, more := a.more, imp := true }

/-- Whether the imprecise arithmetic exception that is pending is due (spec/14 R416). -/
def KX.arithDue (x : KX) : Bool := x.k.arith.any fun a => decide (a.due ≤ x.iss)

/-- Whether a result of the checked core is outstanding in the sense of spec/10 R293 as its next bundle could issue; suspended divisions and external reads are not (spec/13 R394, R403). -/
def KCopy.outstanding (k : KCopy) : Bool :=
  !k.shadow.isEmpty || k.lat.any (fun e => decide (k.clk < e.2)) || (k.divI.toList ++ k.divF.toList).any fun e => decide (k.clk < e.ready)

/-- Early cairns, and the boundary of a cairn that is due (spec/10 R293, R295). -/
def State.cairnCheck (s : State) (t : Nat) : State :=
  let h := s.tileH t
  if 1 < h.mode ∨ h.halted.getD 0 false ∨ h.recovering then s else
  let (u0, j0) := match h.bound with
    | some b => (b.undo, b.jrn)
    | none => (0, 0)
  let early (s : State) (c : Bool) (hi lo : Nat) : State :=
    if c ∧ (s.tileH t).due.isNone then (s.setTile t { s.tileH t with due := some s.now }).bump (pgTile t) 0x05C hi lo else s
  let s := early s (decide (h.logcap - 64 ≤ h.undo.length - u0)) 31 24
  let s := early s (decide (192 ≤ h.jrn.length - j0)) 23 16
  let s := early s (decide (192 ≤ h.ocb.length) && h.bound.all fun b => decide (b.ocb < 192)) 15 8
  let h := s.tileH t
  let k := h.copies.getD 0 {}
  match h.due, h.bound with
  | some d, none =>
    if k.outstanding then s
    else (s.setTile t { h with due := none, lastDue := d, bound := some ⟨k, h.undo.length, h.ocb.length, h.jrn.length, h.bundles, d⟩ }).pmcEvent t 0 0x1C (max s.now k.clk - d)
  | _, _ => s

/-- The first bundle taken from a line requests the next one, unless a running loop ends before it (spec/13 R397, R398). -/
def KX.requestNext (x : KX) : KX :=
  match x.line with
  | none => x
  | some la =>
    if x.k.line = some la then x
    else
      let x := { x with k := { x.k with line := some la } }
      if x.k.la && decide (x.k.ls + 2 * x.k.leoff < la + 64) then x else x.post (la + 64) x.iss

/-- One bundle or iteration has issued: the cycle from which the next one can (spec/13 R388, R400), the shadow, the count of bundles, a pending arithmetic exception, due at issue + 3 (spec/14 R416). -/
def KX.passed (x : KX) (iss : Nat) : KX :=
  let c := x.iss + iss + x.more
  let c := if x.redir = 2 then max c (x.iss + 4) else c
  let pend := match x.arith, x.k.arith with
    | [], p => p
    | _ :: _, some p => some { p with more := true }
    | c :: cs, none => some ⟨c, x.old.pc, !cs.isEmpty, x.iss + 3⟩
  let x := x.requestNext
  let k := { x.k with arith := pend, clk := c, lat := x.k.lat.filter fun e => decide (x.iss < e.2), sb := x.k.sb.filter fun e => decide (x.iss ≤ e.wr) }
  let k := { k with extWait := false, steps := k.steps.map (· - 1) }
  let x := { x with k := k.shadowTick.lowFollow, arith := [], more := 0 }
  if x.chk then x.updTile fun h => { h with bundles := h.bundles + 1 } else x

/-- The loop test after the last body bundle (spec/11 R347, spec/12 R382). It costs 3 cycles where LC was written by that bundle or within the 3 cycles before it (spec/13 R401); a back-edge is covered by the loop-start capture and requests LS's line (R400). -/
def KX.loopTest (x : KX) : KX :=
  let k := x.k
  if x.old.la && k.la && !x.taken && x.old.pc == k.ls + 2 * k.leoff then
    let late := k.lcAt.any fun c => decide (x.iss ≤ c + 3)
    let k := if late then { k with clk := k.clk + 3 } else k
    if k.lc ≤ 1 then { x with k := { k with lc := 0, la := false, pc := x.next, fell := true } }
    else (({ x with k := { k with lc := k.lc - 1, pc := k.ls, fell := false, cov := k.loopB.filter (·.addr == k.ls) } } : KX).post (k.ls / 64 * 64) x.iss).count 0x18
  else { x with k := { k with pc := x.next, fell := !x.taken } }

/-- A bundle completes: PC moves on, and a TRAP enters its exception (spec/12 R383). The entry decides with the old STATUS; the frame saves the new one. -/
def KX.complete (x : KX) : State :=
  let x := (x.count 2).loopTest
  let x := { x with k := { x.k with waiting := none } }
  let s := match x.trap with
    | some n => x.enter { cause := 0x0B, faddr := n, creg := 0, pc := x.k.pc }
    | none => x.done
  if x.chk then s.cairnCheck x.t else s

/-- The depth that a RET would restore, as the slot at RSP gives it: a poisoned slot is left to the op (spec/11 R333, spec/12 R362). -/
def KX.retDepth (x : KX) : Nat :=
  match x.k.rsCache.find? fun e => e.addr == x.k.rsp with
  | some e => if e.pois then 0 else bits e.hi 39 32
  | none =>
    let q := (x.s.rdMem (physOf x.t x.k.rsp) 16).1
    if q.2 then 0 else bits q.1 103 96

/-- The cycle in which the divider that an op needs is free (spec/12 R370); RETX needs those it restarts (spec/13 R403). -/
def KX.dividerFree (x : KX) (o : KOp) : Nat :=
  let i := (x.k.divI.map (·.ready)).getD 0
  let f := (x.k.divF.map (·.ready)).getD 0
  match o with
  | .bin b => if b.divider = 1 then i else if b.divider = 2 then f else 0
  | .un .fsqrt => f
  | .retx => max (if x.k.latI.isSome then i else 0) (if x.k.latF.isSome then f else 0)
  | _ => 0

/-- Issue as MA waits of earlier bundles delay it (spec/13 R390), with the divisions that have ended by then. -/
def KX.issueAt (x : KX) : KX :=
  let r := stallTo x.k.stalls x.iss
  let x := { x with iss := r.1, lag := (r.2.map Prod.snd).foldl (· + ·) 0, k := { x.k with stalls := r.2 } }
  x.landDivs x.iss

/-- Whether a store of the copy has not yet reached memory outside the tile (spec/11 R358). -/
def KX.storesOut (x : KX) : Bool :=
  let h := x.s.tileH x.t
  (h.ocb ++ h.outQ).any fun e => e.copy == x.copy && decide (e.kind ≤ 1) && !inPages e.addr

/-- The stack check of spec/12 R362 step 2, the scoreboard, and the spills and fills that the bundle needs (spec/11 R330, R332, spec/13 R388, R389, R393). -/
def KX.stackStage (x : KX) (ops : List KOp) : KM KX :=
  match winCheck x.k.base ops { mx := x.k.top, depth := x.k.depth } with
  | none => .error (.fault 2 x.old.pc 0)
  | some w => do
    let c1 := x.k.cap 1
    if x.k.top < w.mx ∧ x.k.rsp < c1.base + 4 * w.mx then .error (.fault 2 (c1.base + 4 * w.mx) 1)
    match ops.getLast? with
    | some (.call _ _) | some (.calli _) =>
      let a := x.k.rsp - 16
      if x.k.rsp < 16 ∨ a < c1.base + 4 * (x.k.base + w.depth) then .error (.fault 2 a 1)
      x.c1Check a 16 true
    | some (.ret n) =>
      x.c1Check x.k.rsp 16 false
      if 224 < x.retDepth + n then .error (.fault 2 x.old.pc 0)
    | some .retx => x.c1Check x.k.rsp 48 false
    | some .syncf => if x.storesOut then .error .hold
    | _ => .ok ()
    let held := w.reads ++ w.writes
    if held.any x.k.pendingAt then .error .hold
    let x := x.waitTo ((held.map x.k.readyAt ++ ops.map x.dividerFree).foldl max 0)
    let x := x.landDivs x.iss
    let x ← x.spillTo w.mx 32
    let x ← x.fillFor (w.reads.foldl min x.k.low)
    let x := if bit x.old.status 1 then { x with iss := x.iss + 3 * (ops.filter KOp.mayTrap).length } else x
    let x := if ops.contains .syncf then { x with iss := (x.k.sb.map (·.wr + 1)).foldl max x.iss } else x
    .ok x.issueAt

/-- Runs the ops of a bundle once (spec/11 R342, spec/12 R362): ILLEGAL first, then the stack check, then the ops; arithmetic exceptions last, under PRECISE. -/
def KX.runOps (x : KX) (b : Bundle) : KM KX := do
  if x.illegalOp b then .error (.ill x.old)
  let x ← x.stackStage b.ops
  let x ← b.ops.foldlM (fun (x : KX) o => x.op o) { x with lit := b.literal ((b.ops.filterMap KOp.ln).headD 0) }
  match x.arith with
  | c :: _ => if bit x.old.status 1 then .error (.fault c x.old.pc 0) else .ok x
  | [] => .ok x

/-- What all iterations of a REPN read and write, up to one that faults in the stack check. -/
def KX.repnEff (x : KX) (ops : List KOp) : Nat → WinEff → WinEff
  | 0, w => w
  | n + 1, w => match winCheck x.k.base ops w with
    | none => w
    | some w' => if x.k.top < w'.mx ∧ x.k.rsp < (x.k.cap 1).base + 4 * w'.mx then w else x.repnEff ops n w'

/-- Before a REPN issues it holds for every external and divider result that an iteration reads, and for every spill and fill of its iterations (spec/13 R404). -/
def KX.repnHold (x : KX) (ops : List KOp) (n : Nat) : KM KX := do
  let w := x.repnEff ops n { mx := x.k.top, depth := x.k.depth }
  let held := w.reads ++ w.writes
  if held.any x.k.pendingAt then .error .hold
  let x := x.waitTo (((x.k.divI.toList ++ x.k.divF.toList).filter fun e => held.contains e.pos).map (·.ready) |>.foldl max 0)
  let x := x.landDivs x.iss
  let x ← x.spillTo w.mx 32
  x.fillFor (w.reads.foldl min x.k.low)

/-- How a repeat stops (spec/11 R344–R346). -/
inductive RepEnd where
  | all (x : KX)
  | fault (x : KX) (left cause faddr creg : Nat)
  | stop (x : KX) (left : Nat) (ev : Option (Bool × Nat × Nat))
  | held (x : KX) (left : Nat) (st : KStop)
  deriving Repr

/-- Writes what a debug command writes into a copy (spec/10 R322): stack entry, capability (tag cleared), special register. -/
def KCopy.debugSet (k : KCopy) (space idx v : Nat) : KCopy :=
  match space with
  | 0 => { k with file := sput fileZero (idx % 256) (lo32 v, false) k.file }
  | 1 => if idx < 16 then k.setCap idx ⟨v % 2 ^ 128, false⟩ else k
  | _ => match idx with
    | 0 => { k with pc := bits v 39 1 * 2, cov := none, fell := false }
    | 1 => { k with status := v &&& statusMask }
    | 2 => { k with preds := v % 256 ||| 1 }
    | 3 => { k with lc := lo32 v }
    | 4 => { k with rc := lo32 v }
    | 5 => { k with base := bits v 16 0, depth := min 224 (bits v 24 17) }
    | _ => k

/-- A debug write as it acts at a boundary. A memory write is undo-logged in a checked core. -/
def KX.debugWrite (x : KX) (space idx v : Nat) : KX :=
  if space = 3 then
    let a := ownBase + idx % 65536 * 8
    let y := x.wrLoc a 8 (v % 2 ^ 64) [false]
    { y with k := x.k }
  else { x with k := x.k.debugSet space idx v }

/-- A STEP of `n` bundles begins (spec/10 R322). -/
def KX.startSteps (x : KX) (n : Nat) : KX := { x with k := { x.k with steps := some n } }

/-- Applies the journalled events that fall at this bundle on re-execution (spec/10 R304, R322): debug actions, then an interrupt, which is answered for the caller to enter. -/
def KX.replayEvents (x : KX) : Nat → Option (Nat × Nat) × KX
  | 0 => (none, x)
  | fuel + 1 =>
    let h := x.s.tileH x.t
    match h.replay with
    | [] => (none, x)
    | e :: rest =>
      if e.kind < 3 ∨ e.kind = 5 ∨ h.bundles < e.n then (none, x)
      else if e.n < h.bundles then (none, x.updTile fun h => { h with replay := [] })
      else
        let x := x.updTile fun h => { h with replay := rest }
        if e.kind = 3 then (some (e.key, e.val), x)
        else
          let op := e.key / 2 ^ 28
          let x := x.updTile fun h => { h with jrn := h.jrn ++ [e], halted := if op = 1 then setAt h.halted 0 true else if op = 2 then setAt h.halted 0 false else h.halted }
          let x := if op = 1 ∨ op = 2 then { x with s := x.s.setB (pgTile x.t) 0x0C4 31 ((x.s.tileH x.t).halted.any id) } else x
          let x := if op = 3 then (x.updTile fun h => { h with halted := setAt h.halted 0 false }).startSteps (clampTo 1 65535 (bits e.key 23 0)) else x
          let x := if op = 5 then x.debugWrite (bits e.key 25 24) (bits e.key 23 0) e.val else x
          x.replayEvents fuel

/-- The event taken at a boundary of a REPI's iterations (spec/14 R419): on re-execution the journalled one, else a live one; `cut` says after how many iterations a pending one has come. A halt replayed there stops the repeat. Answers whether something stops it, and the event with whether it is live. -/
def KX.between (x : KX) (cut : Option Nat) : Bool × Option (Bool × Nat × Nat) × KX :=
  if x.chk ∧ !(x.s.tileH x.t).replay.isEmpty then
    match x.replayEvents ((x.s.tileH x.t).replay.length + 1) with
    | (some ev, x) => (true, some (false, ev), x)
    | (none, x) => ((x.s.tileH x.t).halted.getD 0 false, none, x)
  else if cut.any (0 < ·) then (false, none, x)
  else match x.async with
    | some ev => (true, some (true, ev), x)
    | none => (false, none, x)

/-- Iterations of a repeat: `rc` is RC at issue; under REPN no event is taken between them (spec/11 R345). -/
def KX.iterate (b : Bundle) (repn : Bool) (rc : Nat) : Nat → Option Nat → KX → RepEnd
  | 0, _, x => .all x
  | n + 1, cut, x =>
    if x.arithDue then .stop x (n + 1) none
    else match if repn then (false, none, x) else x.between cut with
    | (true, ev, x) => .stop x (n + 1) ev
    | (false, _, x) =>
      let y := { x with old := { x.k with rc := rc, pc := x.old.pc, la := x.old.la, ls := x.old.ls, leoff := x.old.leoff } }
      match y.runOps b with
      | .error (.fault cs fa cr) => .fault y (n + 1) cs fa cr
      | .error st => .held y (n + 1) st
      | .ok z =>
        if z.wait then .stop { y with wait := true } (n + 1) none
        else
          let iss := (b.ops.map KOp.iss).foldl max 1
          let z := ((z.count 0x19).count 3 b.ops.length).passed iss
          let z := if z.chk ∧ n ≠ 0 then { z with s := (({ z with k := { z.k with remain := some n } } : KX).done).cairnCheck z.t } else z
          iterate b repn rc n (cut.map (· - 1)) { z with iss := if n = 0 then z.iss else z.k.clk }

/-- A fault or wait of a bundle. A fault enters its exception from the copy as it was before the bundle. A stall on another cluster is counted once at its CLU page (spec/02 CLU_STALLS); a read that a buffered write covers in part makes a cairn fall due (spec/10 R299). -/
def KX.stopAt (x : KX) (b : Bundle) (st : KStop) (rep : Option Nat) : State :=
  match st with
  | .hold => ({ x with k := { x.k with extWait := !x.k.ext.isEmpty, clk := x.iss } } : KX).done
  | .stall p =>
    let x := if x.k.waiting.isSome then x else { x with s := x.s.bump p 0x048 31 16 }
    ({ x with k := { x.k with waiting := some b } } : KX).done
  | .due n => ((x.updTile fun h => h.dueFor n x.s.now).done).cairnCheck x.t
  | .fault cs fa cr => x.enter { cause := cs, faddr := fa, creg := cr, pc := x.k.pc, rep := rep }

/-- A bundle with a repeat prefix (spec/11 R344–R346). -/
def KX.runRepeat (x : KX) (b : Bundle) (r : RepSpec) (cut : Option Nat) : State :=
  let n := match x.k.remain with
    | some n => n
    | none => if r.fromRc then x.k.rc else r.count
  match if r.repn then x.repnHold b.ops n else .ok x with
  | .error st => x.stopAt b st x.k.remain
  | .ok x =>
  match KX.iterate b r.repn x.k.rc n cut { x with rcRep := r.repn } with
  | .all z =>
    let z := if n = 0 then z.issueAt.passed 1 else z
    ({ z with k := { z.k with remain := none } } : KX).complete
  | .fault z left cs fa cr => z.stopAt b (.fault cs fa cr) (some left)
  | .held z left st => ({ z with k := { z.k with remain := some left } } : KX).stopAt b st (some left)
  | .stop z left (some ev) => z.takeAsync ev.1 ev.2 z.k.pc (some left)
  | .stop z left none =>
    match z.k.arith.filter fun _ => z.arithDue with
    | some a => z.takeArith a z.k.pc (some left)
    | none => ({ z with k := { z.k with remain := some left, waiting := if z.wait then some b else none } } : KX).done

/-- A bundle without one. -/
def KX.runOnce (x : KX) (b : Bundle) : State :=
  match ({ x with k := { x.k with remain := none } } : KX).runOps b with
  | .error st => x.stopAt b st none
  | .ok z =>
    if z.wait then ({ x with k := { x.k with waiting := some b } } : KX).done
    else (((z.count 3 b.ops.length).flowNote b).passed ((b.ops.map KOp.iss).foldl max 1)).complete

/-- Takes the bundle at PC: fetch, decode, guard, execution (spec/12 R362, spec/11 R339). -/
def KX.take (x : KX) (b : Bundle) (cut : Option Nat) : State :=
  let x := if x.k.extWait then x.count 0x17 (x.iss - x.k.clk) else x
  let (f, x) := x.fetchFault (2 * max 1 b.parcels)
  match f with
  | some st => x.stopAt b st x.k.remain
  | none =>
    let x := { x with old := x.k, next := (x.k.pc + 2 * b.parcels) % 2 ^ 40 }
    if x.illegal b then x.stopAt b (.ill x.k) x.k.remain
    else
      let go := x.k.remain.isSome || (match b.guard with
        | some (neg, n) => x.k.pred n != neg
        | none => true)
      if !go then (((x.issueAt.count 4).flowNote b).passed 1).complete
      else match b.rep with
        | some r => x.runRepeat b r cut
        | none => x.runOnce b

/-- The last bundle of a STEP halts the copy again (spec/10 R322). -/
def State.stepEnd (s : State) (t copy : Nat) : State :=
  let h := s.tileH t
  let k := h.copies.getD copy {}
  if k.steps = some 0 then
    (s.setTile t { h with halted := setAt h.halted copy true, copies := setAt h.copies copy { k with steps := none } }).setB (pgTile t) 0x0C4 31
  else s

/-- A copy takes a bundle. Events due at the boundary come first, and then the bundle does not issue (spec/14 R418, R419): the imprecise arithmetic exception; on re-execution the journalled events; else WDGX, RELEASE and PAGE. A pending one that `cut` lets come later, between the iterations of a repeat, waits for its place. -/
def kIssue (t copy : Nat) (cut : Option Nat) (b : Bundle) (s : State) : State :=
  if !s.kCan t copy then s else
  let x := s.kx t copy
  if x.k.waiting.isSome ∧ x.k.waiting ≠ some b then s else
  (match x.k.arith.filter fun _ => x.arithDue with
  | some a => x.takeArith a x.k.pc x.k.remain
  | none => match x.between (if b.rep.isSome then cut else none) with
    | (true, some ev, x) => x.takeAsync ev.1 ev.2 x.k.pc x.k.remain
    | (true, none, x) => x.done
    | (false, _, x) => x.take b cut).stepEnd t copy

/-- A row of spec/12: the bundle whose last op the command is. -/
def kRun (i : Issue) (o : KOp) (s : State) : State :=
  kIssue i.tile i.copy i.cut { guard := i.guard, rep := i.rep, lits := i.lits, ops := i.before ++ [o] } s

/-- EXCEPTION_ENTRY (spec/14 R418–R420): at the present boundary the first event due is entered. Asynchronous events wait while a re-execution replays its journal. -/
def exceptionEntry (t copy : Nat) (s : State) : State :=
  if !s.kCan t copy then s else
  let x := s.kx t copy
  match x.k.arith.filter fun _ => x.arithDue with
  | some a => x.takeArith a x.k.pc x.k.remain
  | none =>
    if x.chk ∧ !(s.tileH t).replay.isEmpty then s
    else match x.async with
      | some ev => x.takeAsync true ev x.k.pc x.k.remain
      | none => s

/-- WAITW_RELEASE (spec/11 R357): a waiting WAITW whose release entry has come issues on. -/
def waitwRelease (t copy : Nat) (s : State) : State :=
  if !s.kCan t copy then s else
  match (s.kx t copy).k.waiting with
  | some b => kIssue t copy none b s
  | none => s

end Sys2Proof.Machine
end

