-- ==== Sys2Proof/Machine/Tiles.lean ====
section
/-! DEFINITION. A tile around its cores: start from entry records, cairns, mismatches and recovery, spares, hand-overs, debug (spec/10 R285–R325). -/

namespace Sys2Proof.Machine

/-- An entry record (spec/10 R319): the copy as it starts, unless a capability is untagged, the start PC lies outside C0 or a word is poisoned (spec/15 R441). -/
def State.entryRec (s : State) (t copy : Nat) : Option KCopy × State :=
  let a := tileBase t + s.fld (pgTile t) 0x044 18 6 * 64 + 64 * copy
  let ((v, p), s) := s.rdMem a 64
  let cap (i : Nat) : Cap := ⟨bits v (128 * i + 127) (128 * i), s.tag (a + 16 * i)⟩
  let pc := bits v 423 385 * 2
  if p then (none, s.errPoison (pgTile t))
  else if !(cap 0).tag || !(cap 1).tag || !(cap 2).tag || !(cap 0).covers pc 1 then (none, s)
  else
    let k : KCopy := { run := true, rsp := (cap 1).top, pc := pc, status := bits v 479 448 &&& statusMask }
    (some (((k.setCap 0 (cap 0)).setCap 1 (cap 1)).setCap 15 (cap 2)), s)

/-- A copy of FORERUNNER (spec/10 R290). -/
def foreCopy (off : Nat) : KCopy :=
  let k : KCopy := { run := true, rsp := Cap.all.top, pc := ownBase + off }
  ((k.setCap 0 Cap.all).setCap 1 Cap.all).setCap 15 Cap.all

/-- The start step (spec/10 R318 step 3): the copies of a mode from their entry records; none where a record is refused. `fs` is the TILE_FREE.SIZE that applies. -/
def State.startCopies (s : State) (t mode fs : Nat) : Option (List KCopy) × State :=
  match mode with
  | 0 =>
    let (a, s) := s.entryRec t 0
    (a.map fun a => [a, {}, {}], s)
  | 1 =>
    let (a, s) := s.entryRec t 0
    if fs = 0 then (a.map fun a => [a, {}, {}], s)
    else
      let (c, s) := s.entryRec t 2
      ((a.bind fun a => c.map fun c => [a, {}, c]), s)
  | 2 =>
    let (a, s) := s.entryRec t 0
    let (b, s) := s.entryRec t 1
    let (c, s) := s.entryRec t 2
    ((a.bind fun a => b.bind fun b => c.map fun c => [a, b, c]), s)
  | _ => (some [foreCopy 0, foreCopy 0x40000, {}], s)

/-- ACT = WARN of a tile watchdog holds in SPLIT only: any other mode forces TRAP, whatever the lock, and counts the change (spec/16 R457). -/
def State.actForced (s : State) (t : Nat) : State :=
  let w := pgWdgT t
  if (s.tileH t).mode ≠ 2 ∧ s.getB w 0x040 31 then (s.setB w 0x040 31 false).clampCount w 0x040 0 else s

/-- Starts a tile in a mode; answers whether its records passed. -/
def State.startTile (s : State) (t mode : Nat) : Bool × State :=
  let p := pgTile t
  let h := s.tileH t
  let fb := if mode = 1 then s.fld p 0x048 6 0 else h.freeBase
  let fs := if mode = 1 then s.fld p 0x048 22 16 else h.freeSize
  match s.startCopies t mode fs with
  | (none, s) => (false, s.setFld p 0x04C 24 22 2)
  | (some cs, s) =>
    let cs := cs.map fun k => { k with clk := s.now }
    let h := { h with mode := mode, copies := cs, undo := [], jrn := [], replay := [], due := none, bound := none, bundles := 0 }
    let h := { h with shadow := cs.getD 0 {}, lastDue := s.now, ival := s.fld p 0x040 26 16, logcap := s.fld p 0x040 15 5 }
    let h := { h with recovering := false, draining := false, handReq := none, outvoted := none, haltWait := false }
    let h := { h with halted := [false, false, false], freeBase := fb, freeSize := fs, work := true, dbgT := [], restart := false, final := false, port := [] }
    let s := (s.setTile t h).actForced t
    (true, (((s.setFld p 0x04C 31 30 mode).setFld p 0x04C 29 28 0).setFld p 0x04C 27 25 0).setB p 0x0C4 31 false)

/-- The mode that TILE_CFG.MODE reads: FORERUNNER until the next power-on reset where it has been chosen (spec/10 R290). -/
def State.cfgMode (s : State) (t : Nat) : Nat := if (s.tileH t).fore then 3 else s.fld (pgTile t) 0x040 31 30

/-- A tile page starts up (spec/10 R310, R321): a spare runs no firmware; after a tile reset the present mode restarts; a refused entry record is FAULT 0x06. -/
def State.tileStart (s : State) (t : Nat) : State :=
  let p := pgTile t
  if s.getB p 0x040 29 then s.pageReady p
  else match s.startTile t (if (s.tileH t).restart then (s.tileH t).mode else s.cfgMode t) with
    | (true, s) => s.pageReady p
    | (false, s) => s.pageFault p 6

/-- A tile page goes OFF: its copies stop and nothing after the last commit leaves (spec/10 R324). -/
def State.tileOff (s : State) (t : Nat) : State :=
  let h := s.tileH t
  let h := { h with ocb := [], undo := [], jrn := [], replay := [], due := none, bound := none, recovering := false }
  s.setTile t { h with draining := false, handReq := none, spare := none, work := false, restart := false, copies := h.copies.map fun k => { k with run := false } }

/-- A tile page is reset: queues empty, hidden state as at power-on but for where its work moved, outputs already released (spec/10 R324) and FORERUNNER. -/
def State.tileClear (s : State) (t : Nat) : State :=
  let h := s.tileH t
  s.setTile t { movedTo := h.movedTo, outQ := h.outQ, stall := h.stall, fore := h.fore }

/-- Every lane of a tile's memory that holds or marks anything, ascending. -/
def State.usedLanes (s : State) (lo hi : Nat) : List Nat :=
  let f := fun (l : List Nat) => l.filter fun a => decide (lo ≤ a) && decide (a < hi)
  let all := f (s.mem.map fun q => q.1 / 8 * 8) ++ f (s.chk.map fun q => q.1 / 8 * 8) ++ f (s.pois.map fun q => q.1 * 8) ++
    (f (s.tags.map fun q => q.1 * 16))
  all.eraseDups

/-- Copies a tile's local memory to another's, page by page but for the pages in `keep` (spec/10 R311, R313): an uncorrectable word is copied poisoned. -/
def State.copyLocal (s : State) (a b keep : Nat) : State :=
  let lanes := s.usedLanes (tileBase a) (tileBase (a + 1))
  let s := s.each ((List.range 128).filter fun p => !bit keep p) fun s p => s.clearRange (tileBase b + p * 4096) (tileBase b + (p + 1) * 4096)
  s.each lanes fun s la =>
    let off := la - tileBase a
    if bit keep (off / 4096) then s
    else
      let v := (s.rdLanes 1 la none).1.headD (0, false)
      let tg := s.tag la
      let s := s.wrMemP (tileBase b + off) 8 v.1 [v.2]
      if tg then s.setTag (tileBase b + off) 7 else s

/-- From now on the work addressed to tile `a` or carried by it stands on `b` (spec/10 R311). -/
def State.redirect (s : State) (a b : Nat) : State :=
  s.each ((List.range 8).map (a / 8 * 8 + ·)) fun s q =>
    if s.workTile q = a then s.setTile q { s.tileH q with movedTo := if q = b then none else some b } else s

/-- Both drive blocks put the spare in place of the tile in every vote group (spec/09 R267). -/
def State.soutSubst (s : State) (a b : Nat) : State :=
  s.each (List.range 64) fun s o =>
    let p := pgSout o
    s.each ((List.range 3).filter fun m => decide (m < s.fld p 0x044 31 30)) fun s m =>
      if s.fld p 0x044 (8 * m + 6) (8 * m) = a then (s.setFld p 0x044 (8 * m + 6) (8 * m) b).setB p 0x064 19 else s

/-- A copy that starts on another tile at `now`: nothing is held of its code, its store buffer is empty and no earlier access delays it. -/
def KCopy.cold (k : KCopy) (now : Nat) : KCopy :=
  { k with lines := [], line := none, cov := none, loopB := none, btb := [], reqs := [], sb := [], stalls := [], lat := [], lcAt := none, clk := now }

/-- A copy restored at `now`: the cycles its cairn recorded stand to `now` as they stood to the boundary (spec/13 R407). -/
def KCopy.restored (k : KCopy) (now : Nat) : KCopy :=
  let f (c : Nat) : Nat := c + now - k.clk
  { k with clk := now, lines := k.lines.map fun l => { l with ready := f l.ready }, reqs := k.reqs.map fun q => (q.1, f q.2),
           sb := k.sb.map fun e => { e with wr := f e.wr }, stalls := k.stalls.map fun q => (f q.1, q.2), lat := k.lat.map fun q => (q.1, f q.2),
           lcAt := k.lcAt.map f, arith := k.arith.map fun a => { a with due := f a.due } }

/-- Moves a tile's work to a spare, which starts from the cairn shadow in the same mode (spec/10 R311). A free copy C, and the copies of SPLIT, start from their entry records. A hand-over under way goes on there. -/
def State.moveWork (s : State) (a b keep : Nat) : State :=
  let pa := pgTile a; let pb := pgTile b
  let s := ((((s.bistCut b).heldFlush a).copyLocal a b keep).redirect a b).soutSubst a b
  let ha := s.tileH a
  let hb := s.tileH b
  let s := s.wr pb 0x040 (setBits (s.rd pa 0x040) 29 29 0)
  let nb := { ha with rq := (ha.rq ++ hb.rq).take 32, mbox := (ha.mbox ++ hb.mbox).take 16, undo := [], jrn := [], replay := [], ocb := [], outQ := hb.outQ, due := none, bound := none, bundles := 0 }
  let nb := { nb with recovering := false, spare := none, outvoted := none, haltWait := false, port := [], dbgT := [], restart := false, final := false }
  let (cs, s) := if ha.mode = 0 then ((some [ha.shadow.cold s.now, {}, {}] : Option (List KCopy)), s) else s.startCopies b ha.mode ha.freeSize
  let cs := match cs with
    | some l => if ha.mode ≤ 1 then setAt l 0 (ha.shadow.cold s.now) else l
    | none => [ha.shadow.cold s.now, {}, {}]
  let s := s.setTile b { nb with copies := cs, movedTo := hb.movedTo, held := hb.held, halted := [false, false, false], events := hb.events,
                                 lastDue := s.now, work := true }
  let ha := s.tileH a
  let s := s.setTile a { ha with rq := [], relIrq := false, wdgx := [], mbox := [], work := false, spare := none, handReq := none, draining := false, final := false, ocb := [], undo := [],
                                 jrn := [], replay := [], bound := none, due := none, copies := ha.copies.map fun k => { k with run := false } }
  let s := ((((s.setFld pb 0x04C 31 30 ha.mode).setFld pb 0x04C 29 28 0).setFld pb 0x04C 21 14 (128 + a)).setFld pb 0x04C 27 25 (s.fld pa 0x04C 27 25)).setFld pa 0x04C 27 25 0
  let s := (s.wdgMove a b).actForced b
  (((s.irq pa 18).irq pb 18).tileQCounts a).tileQCounts b

/-- A tile retires: its copies stop and its page goes to RETIRED (spec/10 R309). It commits no more, so held writes reach its memory now, and stay there when the undo log runs back (R301). -/
def State.tileRetire (s : State) (t code : Nat) : State :=
  let s := s.heldFlush t
  let h := s.tileH t
  let s := s.setTile t { h with copies := h.copies.map (fun k => { k with run := false }), ocb := [], bound := none, due := none, recovering := false }
  (s.setFld (pgTile t) oStatus 15 8 code).pageRetire (pgTile t)

/-- TAKE_OVER (spec/10 R311, R312): the lowest READY spare of the cluster takes the work of a retired tile. -/
def takeOver (t tm : Nat) (s : State) : State :=
  let s := s.upTo tm
  if t < 128 ∧ s.retired (pgTile t) ∧ !s.getB (pgTile t) 0x040 29 ∧ (s.tileH t).work then
    match s.readySpare t with
    | some b =>
      let h := s.tileH t
      let s := (s.undoAll h.undo).setTile t { h with undo := [] }
      s.moveWork t b 0
    | none => s
  else s

/-- Records an event of spec/10 R309 and retires the tile at the third within 10 ms. -/
def State.tileEvent (s : State) (t : Nat) : State :=
  let h := s.tileH t
  let ev := s.now :: h.events.filter fun e => decide (s.now < e + 10 * cyclesPerMs)
  let s := s.setTile t { h with events := ev.take 3 }
  if 3 ≤ ev.length then s.tileRetire t 1 else s

/-- TILE_LAST (spec/10): class, minority, cycles from the boundary. -/
def State.tileLast (s : State) (t cls mino off : Nat) : State :=
  s.wr (pgTile t) 0x060 (cls % 16 * 2 ^ 28 + mino % 4 * 2 ^ 26 + min off (2 ^ 26 - 1))

/-- The two self-tests after a disagreement of the comparators (spec/10 R314). -/
def State.cmpDis (s : State) (t : Nat) (dis : Option Bool) : State :=
  match dis with
  | none => s
  | some true => (s.bump (pgTile t) 0x064 15 8).irq (pgTile t) 19
  | some false => s.tileRetire t 2

/-- MISMATCH (spec/10 R302, R306, R308, R314, R316), `off` cycles from the boundary. -/
def mismatch (t : Nat) (u : Upset) (off tm : Nat) (s : State) : State :=
  let s := s.upTo tm
  let p := pgTile t
  let h := s.tileH t
  if ¬ (t < 128 ∧ s.ready p ∧ h.mode ≤ 1 ∧ h.work ∧ !h.recovering) then s else
  match u with
  | .delay true => (s.bump p 0x064 23 16).irq p 19
  | .delay false => s.tileRetire t 3
  | .item cls mino dis =>
    if h.mode = 0 ∧ mino < 3 then
      if h.outvoted = some mino then s.cmpDis t dis
      else
        let s := s.setTile t { h with outvoted := some mino }
        let s := if mino = 0 then s.setFld p 0x04C 29 28 1 else s
        let s := ((s.bump p 0x058 15 0).tileLast t cls mino off).irq p 16
        ((s.pmcEvent t 0 0x0F 1).tileEvent t).cmpDis t dis
    else
      let s := s.setTile t { h with recovering := true, ocb := [], bound := none, due := none }
      let s := ((s.bump p 0x058 31 16).tileLast t (if h.mode = 0 then 8 else cls) 3 off).irq p 16
      ((s.pmcEvent t 0 0x0E 1).tileEvent t).cmpDis t dis

/-- RESTORE_COMPLETE (spec/10 R302–R305, spec/13 R407): the undo log runs back, the copies restart from the cairn shadow with the line buffers, BTB, loop-start capture and store-buffer write cycles recorded there, and take their inputs from the journal, what an earlier re-execution had not yet taken from it behind what it had. No cairn stands within a halt (R323), so a HALT since then is met again in the journal (R322). -/
def restoreComplete (t tm : Nat) (s : State) : State :=
  let s := s.upTo tm
  let h := s.tileH t
  if !h.recovering then s else
  let s := s.raiseMax (pgTile t) 0x068 31 16 (88 + h.undo.length)
  let s := s.undoAll h.undo
  let k := h.shadow.restored s.now
  let h := { h with undo := [], replay := h.jrn ++ h.replay, jrn := [], bundles := 0, recovering := false, lastDue := s.now }
  let h := { h with port := k.sb.map (fun (e : SbE) => (e.wr, 0)) ++ h.port.filter fun (q : Nat × Nat) => q.2 != 0 }
  let hs := setAt h.halted 0 false
  let s := ((s.setTile t { h with copies := setAt h.copies 0 k, outvoted := none, halted := hs }).setFld (pgTile t) 0x04C 29 28 0).setB (pgTile t) 0x0C4 31 (hs.any id)
  s.cairnCheck t

/-- CAIRN_DUE (spec/10 R293): the interval has passed, or the cairn is already due; the boundary is found as soon as no result is outstanding. -/
def cairnDue (t tm : Nat) (s : State) : State :=
  let s := s.upTo tm
  let h := s.tileH t
  if ¬ (t < 128 ∧ s.ready (pgTile t) ∧ h.mode ≤ 1 ∧ h.work) ∨ h.recovering ∨ h.draining ∨ h.halted.getD 0 false then s
  else
    let s := if h.due.isNone ∧ h.lastDue + h.ival * 64 ≤ tm then s.setTile t { h with due := some tm } else s
    s.cairnCheck t

/-- Journals a debug action of a checked tile (spec/10 R322). -/
def State.dbgJournal (s : State) (t v val : Nat) : State :=
  let h := s.tileH t
  if 1 < h.mode then s
  else (s.setTile t { h with jrn := h.jrn ++ [⟨4, v, val, false, h.bundles⟩] }).pmcEvent t 0 0x1D 1

/-- A halt of a copy, reported (spec/10 R322). -/
def State.haltCopy (s : State) (t c : Nat) : State :=
  let h := s.tileH t
  ((s.setTile t { h with halted := setAt h.halted c true }).setB (pgTile t) 0x0C4 31).irq (pgTile t) 20

/-- External reads once `n` entries of the output commit buffer have left (spec/10 R299). -/
def KCopy.released (k : KCopy) (n : Nat) : KCopy := { k with ext := k.ext.map fun e => { e with behind := e.behind - n } }

/-- What a commit does (spec/10 R294): shadow, logs, released outputs, held writes, a re-seat with a HALT that waited for it, a hand-over that waited. The self-test's forced bit moves on (R315). -/
def State.commitNow (s : State) (t : Nat) (b : BoundH) : State :=
  let p := pgTile t
  let h := s.tileH t
  let shift := fun (l : List JrnE) => l.map fun e => { e with n := e.n - b.bundles }
  let k := h.copies.getD 0 {}
  let waited := (k.ext.filter fun e => decide (0 < e.behind) && decide (e.behind ≤ b.ocb)).foldl (fun n e => n + (s.now - e.iss)) 0
  let h := { h with shadow := b.k.released b.ocb, undo := h.undo.drop b.undo, jrn := shift (h.jrn.drop b.jrn), replay := shift h.replay, bound := none }
  let h := { h with outQ := h.outQ ++ h.ocb.take b.ocb, ocb := h.ocb.drop b.ocb, bundles := h.bundles - b.bundles, copies := setAt h.copies 0 (k.released b.ocb) }
  let h := { h with ival := s.fld p 0x040 26 16, logcap := s.fld p 0x040 15 5, stPos := (h.stPos + 1) % 64 }
  let reseat := h.outvoted.isSome
  let s := s.setTile t { h with outvoted := none, draining := h.draining || h.handReq.isSome, haltWait := false, commitT := some s.now }
  let s := (s.wr64 p 0x050 ((s.rd64 p 0x050 + 1) % 2 ^ 64)).raiseMax p 0x068 15 0 (s.now - b.t)
  let s := ((s.pmcEvent t 0 0x0D 1).pmcEvent t 0 0x10 waited).heldStep t
  let s := if h.handReq.isSome then s.setFld p 0x04C 27 25 2 else s
  let s := if reseat then s.setFld p 0x04C 29 28 0 else s
  if h.haltWait then (s.dbgJournal t (2 ^ 28) 0).haltCopy t 0 else s

/-- A write of TILE_SPARE (spec/10 R313): the copy to a spare begins, or STATE goes to 4. -/
def State.spareRequest (s : State) (t op sp : Nat) : State :=
  let p := pgTile t
  if op = 0 then s
  else
    let ok := sp / 8 = t / 8 ∧ sp ≠ t ∧ s.ready (pgTile sp) ∧ s.getB (pgTile sp) 0x040 29 ∧ (s.tileH t).work ∧ s.ready p
    let s := s.setFld p 0x0A4 6 0 sp
    if ok then (s.setTile t { s.tileH t with spare := some (op == 2, sp, s.now) }).setFld p 0x0A4 31 29 1
    else s.setFld p 0x0A4 31 29 4

/-- SPARE_REFUSED (spec/10 R313): the marked lines have not fallen to 256 within 100 ms. -/
def spareRefused (t tm : Nat) (s : State) : State :=
  let s := s.upTo tm
  let h := s.tileH t
  match h.spare with
  | some (_, _, t0) => if t0 + 100 * cyclesPerMs ≤ tm then (s.setTile t { h with spare := none }).setFld (pgTile t) 0x0A4 31 29 4 else s
  | none => s

/-- A hand-over is requested (spec/10 R318): `now` where it takes effect without waiting for a commit. -/
def State.handOver (s : State) (t mode : Nat) (atOnce : Bool) : State :=
  let h := s.tileH t
  (s.setTile t { h with handReq := some mode, draining := h.draining || atOnce }).setFld (pgTile t) 0x04C 27 25 (if atOnce then 2 else 1)

/-- What a write of TILE_CFG asks for, once the register holds it: a MODE other than the present one, or from Basecamp, rope or debug access the present one again (spec/10 R318). -/
def State.tileCfgWritten (s : State) (w : Writer) (t : Nat) : State :=
  let p := pgTile t
  let h := s.tileH t
  let m := s.cfgMode t
  let own := match w with
    | .tile u _ => u == t
    | _ => false
  let tile := match w with
    | .tile _ _ => true
    | _ => false
  if !s.ready p || !h.work || (tile && m == h.mode) then s
  else s.handOver t m (own || decide (2 ≤ h.mode))

/-- Whether a tile holds writes to its local memory until its next commit (spec/10 R301). -/
def State.holdsWrites (s : State) (t : Nat) : Bool :=
  let h := s.tileH t
  s.ready (pgTile t) && h.work && decide (h.mode ≤ 1)

/-- A write of Basecamp or debug access to a tile's local memory (spec/10 R301): held while the tile is checked and runs; with 16 held its writer stalls, and it waits for a commit to free a place; applied at once otherwise. -/
def State.tileMemWrite (s : State) (t : Nat) (w : HeldW) : State :=
  let h := s.tileH t
  if s.holdsWrites t then s.setTile t (if h.held.length < 16 then { h with held := h.held ++ [w] } else { h with heldWait := h.heldWait ++ [w] })
  else s.applyHeld [w]

/-- TILE_DBG_CMD fields. -/
def dbgOp (v : Nat) : Nat := bits v 31 28
def dbgCopy (s : State) (t v : Nat) : Nat := if (s.tileH t).mode ≤ 1 then 0 else bits v 27 26

/-- HALT. In TRIO with copy A outvoted it waits for the re-seat. -/
def State.dbgHalt (s : State) (t v : Nat) : State :=
  let h := s.tileH t
  if h.mode ≤ 1 ∧ h.outvoted = some 0 then s.setTile t { h with haltWait := true }
  else (s.dbgJournal t v 0).haltCopy t (dbgCopy s t v)

def State.dbgResume (s : State) (t v : Nat) : State :=
  let s := s.dbgJournal t v 0
  let h := s.tileH t
  let hs := setAt h.halted (dbgCopy s t v) false
  (s.setTile t { h with halted := hs, haltWait := false }).setB (pgTile t) 0x0C4 31 (hs.any id)

/-- The value of a copy's register, entry or special register as debug reads it (spec/10 TILE_DBG_CMD), with a capability's tag. -/
def KCopy.debugGet (k : KCopy) (space idx : Nat) : Nat × Bool :=
  match space with
  | 0 => ((sget fileZero k.file (idx % 256)).1, false)
  | 1 => ((k.cap idx).val, (k.cap idx).tag)
  | _ => match idx with
    | 0 => (k.pc, false)
    | 1 => (k.status, false)
    | 2 => (k.preds ||| 1, false)
    | 3 => (k.lc, false)
    | 4 => (k.rc, false)
    | 5 => (k.base + k.depth * 2 ^ 17, false)
    | _ => (0, false)

/-- READ: the data registers take the value; nothing is reported of an outvoted copy A. -/
def State.dbgRead (s : State) (t v : Nat) : State :=
  let p := pgTile t
  let h := s.tileH t
  if h.mode ≤ 1 ∧ h.outvoted = some 0 then s
  else
    let sp := bits v 25 24; let ix := bits v 23 0
    let s := s.dbgJournal t v 0
    let ((val, tg), s) := if sp = 3 then
        let ((x, _), s) := s.rdMem (tileBase t + ix % 65536 * 8) 8
        ((x, false), s)
      else (((h.copies.getD (dbgCopy s t v) {}).debugGet sp ix), s)
    ((s.wr64 p 0x0C8 (val % 2 ^ 64)).wr64 p 0x0D0 (val / 2 ^ 64)).setB p 0x0C4 23 (sp == 1 && tg)

/-- WRITE from the data registers. -/
def State.dbgWrite (s : State) (t v : Nat) : State :=
  let p := pgTile t
  let val := s.rd64 p 0x0C8 + s.rd64 p 0x0D0 * 2 ^ 64
  let s := s.dbgJournal t v val
  ((s.kx t (dbgCopy s t v)).debugWrite (bits v 25 24) (bits v 23 0) val).done

/-- The bundle at an address of a copy's code, from what the copy holds of it, else from memory, decoded; one that R338 or R386 refuses has no ops. -/
def State.bundleAt (s : State) (t : Nat) (k : KCopy) (a : Nat) : Bundle :=
  let pa := fun (a : Nat) => if inOwn a 1 then physOf t a else a
  let n := min 8 ((64 - a % 64) / 2)
  let parcel := fun (a : Nat) => match k.held a 2 with
    | some c => (c.slice a 2).val
    | none => s.peek (pa a) 2
  match takeBundle n ((List.range n).map fun i => parcel (a + 2 * i)) with
  | some ps => (bundleOf ps).getD {}
  | none => {}

/-- As `bundleAt`, with the length of a loop's last body bundle looked up. -/
def State.bundleFor (s : State) (t : Nat) (k : KCopy) (a : Nat) : Bundle :=
  let b := s.bundleAt t k a
  { b with ops := b.ops.map fun o => match o with
    | .loop n _ => .loop n (s.bundleAt t k (a + 2 * b.parcels + 2 * b.literal n)).parcels
    | o => o }

end Sys2Proof.Machine
end

