-- ==== Sys2Proof/Machine/Wdg.lean ====
section
/-! DEFINITION. Watchdogs and performance counters (spec/16). -/

namespace Sys2Proof.Machine

/-- Cycles of a watchdog tick at 25 MHz (spec/16 R452). -/
def tickCycles : Nat := 120

/-- The ticks left in a watchdog's present state (spec/16 WDG_REMAIN). -/
def State.wdgRemain (s : State) (p : Nat) : Nat :=
  let h := s.wdgH p
  if s.wstate p = 5 then h.dur else h.dur - (s.now - h.t0) / tickCycles

/-- Whether `left` ticks or fewer are left at `t` on an oscillator anywhere in its tolerance of 1 % (spec/16 R452). -/
def WdgH.reached (h : WdgH) (left t : Nat) : Bool := decide ((h.dur - left) * tickCycles * 100 ≤ (t - h.t0) * 101)

/-- The party WDGX goes to (spec/16 R450): the tile of a tile watchdog, tile 8c + TILE of a cluster's, or the tile that carries its work (spec/10 R311); Basecamp takes its own. -/
def State.wdgRaise (s : State) (p : Nat) : State :=
  let mark (t : Nat) : State :=
    let h := s.tileH t
    s.setTile t { h with wdgx := h.wdgx.filter (· != pageBase + p * 4096) ++ [pageBase + p * 4096] }
  match pageAt p with
  | some (.wdgT, t) => mark t
  | some (.wdgC, c) => mark (s.workTile (8 * c + s.fld p 0x040 26 24))
  | _ => s

/-- The hard reset of the watched party, with its log record (spec/16 R450, spec/20 R539); Basecamp's is its own (spec/20). -/
def State.wdgReset (s : State) (p : Nat) : State :=
  let cause := s.fld p 0x05C 27 24
  match pageAt p with
  | some (.wdgT, t) => (s.logEvent 0x0051 2 p (t + cause * 256)).tileReset t
  | some (.wdgC, c) => (s.logEvent 0x0051 2 p (c + cause * 256)).each (List.range 8) fun s i => s.tileReset (8 * c + i)
  | _ => s

/-- The watched party has been reset: a boot window of 500 ms; a watchdog that ought to be parked parks then. -/
def State.wdgBoot (s : State) (p : Nat) : State :=
  let s := s.wdgEnter p 0 12500000
  match pageAt p with
  | some (.wdgT, t) => s.wdgSync t
  | _ => s

/-- A failure (spec/16 R455). -/
def State.wdgFail (s : State) (p cause : Nat) : State :=
  if s.retired p then s else
  let warning := s.wstate p = 4
  let s := (s.setFld p 0x05C 27 24 cause).setFld p oStatus 15 8 cause
  let s := (s.bump p 0x064 15 8).irq p 16
  if warning then (s.wdgReset p).wdgBoot p
  else if s.getB p 0x040 31 then (s.irq p 17).wdgEnter p 4 (s.fld p 0x048 23 0 * 25)
  else (s.wdgRaise p).wdgEnter p 3 (s.fld p 0x040 9 0 * 25)

/-- Whether a party may serve a watchdog (spec/16 R450, R451). -/
def State.wdgParty (s : State) (w : Writer) (p : Nat) : Bool :=
  match w, pageAt p with
  | .tile u c, some (.wdgT, t) => u == t && (if (s.tileH u).mode ≤ 1 then c == 0 else c == s.fld (pgTile u) 0x040 28 27)
  | .tile u c, some (.wdgC, k) => u / 8 == k && !((s.tileH u).mode == 1 && c == 2)
  | .basecamp, some (.wdgB, _) => true
  | _, _ => false

/-- A write of WDG_SVC (spec/16 R451, R454, R459). -/
def State.wdgService (s : State) (w : Writer) (p key : Nat) : State :=
  if !s.wdgParty w p then s.clampCount p 0x054 0 else
  let st := s.wstate p
  if st = 5 ∨ s.retired p then s
  else if st = 3 then s.bump p 0x064 3 0
  else if key ≠ 0xA5C3 then s.wdgFail p 5
  else if st = 1 then s.wdgFail p 2
  else
    let tasks := s.fld p 0x04C 15 0; let done := s.fld p 0x05C 15 0
    if tasks &&& done ≠ tasks then s.wdgFail p 3
    else
      let s := ((s.setB p oCtrl 1).setFld p 0x05C 15 0 0).bump p 0x064 31 16
      let s := if st = 4 then s.bump p 0x064 7 4 else s
      let s := s.wr64 p 0x068 (s.now % 2 ^ 64)
      let closed := s.fld p 0x044 23 0
      if closed = 0 then s.wdgEnter p 2 (s.fld p 0x048 23 0 * 25) else s.wdgEnter p 1 (closed * 25)

/-- A write of WDG_CHECKIN (spec/16 R451, R454). -/
def State.wdgCheckin (s : State) (w : Writer) (p task : Nat) : State :=
  if !s.wdgParty w p then s.clampCount p 0x058 0 else
  let st := s.wstate p
  if st = 5 ∨ s.retired p then s
  else if st = 3 then s.bump p 0x064 3 0
  else if !bit (s.fld p 0x04C 15 0) task then s.wdgFail p 6
  else if s.getB p 0x05C task then s.wdgFail p 4
  else s.setB p 0x05C task

/-- The remaining time of a watchdog reaches 0 (spec/16 R454); answers whether Basecamp is reset by it. -/
def State.wdgExpire (s : State) (p : Nat) : Bool × State :=
  match s.wstate p with
  | 0 => (false, s.wdgFail p 1)
  | 1 => (false, s.wdgEnter p 2 (s.fld p 0x048 23 0 * 25))
  | 2 => (false, s.wdgFail p 1)
  | 3 => (p == pgWdgB, (s.wdgReset p).wdgBoot p)
  | 4 => (p == pgWdgB, (s.wdgReset p).wdgBoot p)
  | _ => (false, s)

/-- Whether a page is a watchdog page. -/
def isWdg (p : Nat) : Bool :=
  match pageAt p with
  | some (.wdgT, _) | some (.wdgC, _) | some (.wdgB, _) => true
  | _ => false

/-- Whether the remaining time has run out at `t`. -/
def State.wdgOver (s : State) (p t : Nat) : Bool := isWdg p && s.wstate p != 5 && !s.retired p && (s.wdgH p).reached 0 t

/-- Whether a watchdog is at a wake point it has not reached in this window (spec/16 R462). -/
def State.wdgWakes (s : State) (p t : Nat) : Bool :=
  let lead := s.fld p 0x050 23 0
  let h := s.wdgH p
  isWdg p && !s.retired p && (s.wstate p == 0 || s.wstate p == 2) && lead != 0 && !h.woke && h.reached (min h.dur (lead * 25)) t

/-- The wake point's signal (spec/16 R462); the wake from bivouac stands with Basecamp. -/
def State.wdgWake (s : State) (p : Nat) : State := (s.setWdg p { s.wdgH p with woke := true }).irq p 18

/-- OSCILLATOR_FAULT (spec/16 R452): oscillator `o` of cluster 0–15, or 16 for Basecamp's, fails its watchdogs. -/
def oscillatorFault (o t : Nat) (s : State) : State :=
  let s := s.upTo t
  let ps := if o < 16 then pgWdgC o :: (List.range 8).map (fun i => pgWdgT (8 * o + i)) else if o = 16 then [pgWdgB] else []
  s.each ps fun s p =>
    let s := s.irq p 19
    if s.wstate p = 3 ∨ s.wstate p = 5 ∨ s.retired p then s else s.wdgFail p 7

/-- The events that contention with what no command tells can add to (spec/13 R391, R394): for these a counter's overflow may also be told by its command. -/
def pmcTimed (ev : Nat) : Bool := ev ∈ [5, 6, 9, 0x10, 0x14, 0x15, 0x17, 0x1B, 0x1C]

/-- COUNTER_OVERFLOW (spec/16 R465): counts of cycles are brought to `tm`, wrapping where they pass 2^48 − 1; a counter of an event the model does not time wraps here. -/
def counterOverflow (t i tm : Nat) (s : State) : State :=
  let s := (s.upTo tm).pmcSettle t
  let p := pgPmc t
  let sel := s.rd p (0x050 + 4 * i)
  if t < 128 ∧ i < 6 ∧ bit sel 31 ∧ pmcTimed (bits sel 7 0) ∧ s.enabled p ∧ !s.getB p 0x040 0 then
    s.pmcPut t i (2 ^ 48 - (s.rd p (0x070 + 8 * i) + s.rd p (0x074 + 8 * i) % 65536 * 2 ^ 32))
  else s

/-- COPY and EVENT of a PMC_SEL as taken (spec/16 R464, R466). -/
def State.pmcSelClamp (s : State) (t v : Nat) : Nat :=
  let mode := (s.tileH t).mode
  let c := bits v 29 28
  let c := if c = 3 ∨ (mode ≤ 1 ∧ c = 1) ∨ (mode = 3 ∧ c = 2) then 0 else c
  let e := bits v 7 0
  setBits (setBits v 29 28 c) 7 0 (if 0x1E ≤ e then 0 else e)

/-- ACT of WDG_CFG as taken (spec/16 R457): WARN holds only on a tile watchdog whose tile is in SPLIT. -/
def State.wdgActClamp (s : State) (p v : Nat) : Nat :=
  match pageAt p with
  | some (.wdgT, t) => if (s.tileH t).mode = 2 then v else setBits v 31 31 0
  | _ => setBits v 31 31 0

end Sys2Proof.Machine
end

