-- ==== Sys2Proof/Machine/Bist.lean ====
section
/-! DEFINITION. Self-test in slices and repair (spec/17). -/

namespace Sys2Proof.Machine

/-- Instances of a unit; the DRAM is one. -/
def unitCount (unit : Nat) : Nat :=
  match unit with
  | 1 | 5 | 6 => 128
  | 2 => 256
  | 3 => 1
  | 4 => 4
  | 7 | 8 | 9 => 16
  | _ => 0

/-- The page that reports a unit's instance (spec/17 R481). -/
def bistPage (unit inst : Nat) : Nat :=
  match unit with
  | 1 | 6 => pgBistC (inst / 8)
  | 2 => pgBistC (inst / 16)
  | 7 | 8 | 9 => pgBistC inst
  | _ => pgBistM

/-- The first address of a memory slice. -/
def sliceAddr (unit inst slice : Nat) : Nat :=
  match unit with
  | 1 => tileBase inst + slice * 4096
  | 2 => clusterBase (inst / 16) + inst % 16 * 0x80000 + slice * 4096
  | _ => slice * 4096

def memUnit (unit : Nat) : Bool := decide (1 ≤ unit ∧ unit ≤ 4)

/-- Whether 4 KiB at an address lie in an enabled ISOLATE window (spec/17 R468). -/
def State.isoWindow (s : State) (a : Nat) : Bool :=
  (List.range 4).any fun w =>
    let v := s.rd64 pgBistM (0x080 + 16 * w)
    let base := bits v 39 12 * 4096
    bit v 63 && decide (base ≤ a ∧ a + 4096 ≤ base + s.fld pgBistM (0x088 + 16 * w) 27 0 * 4096)

/-- Whether a slice runs in ISOLATE (spec/17 R467, R468). -/
def State.sliceIso (s : State) (unit inst slice : Nat) : Bool :=
  match unit with
  | 1 => s.getB (pgTile inst) 0x040 29
  | 2 | 3 => s.isoWindow (sliceAddr unit inst slice)
  | 4 | 6 => false
  | _ => true

/-- The page of a logic unit's instance. -/
def logicPage (unit inst : Nat) : Nat :=
  match unit with
  | 7 => pgArs inst
  | 8 => pgTfe inst
  | 9 => pgFrd inst
  | _ => pgTile inst

/-- The tile or memory on which no two slices begin within 1 ms (spec/17 R477): a tile with its memory, a cluster's memory, DRAM, Basecamp SRAM; none for an engine. -/
def spaceKey (unit inst : Nat) : Option Nat :=
  match unit with
  | 1 | 5 | 6 => some inst
  | 2 => some (128 + inst / 16)
  | 3 => some 144
  | 4 => some 145
  | _ => none

/-- Whether a slice may begin for the spacing of spec/17 R477. -/
def State.spaced (s : State) (unit inst : Nat) : Bool :=
  match spaceKey unit inst with
  | some k => !((s.bistH pgBistM).began.any fun q => q.1 == k && decide (s.now < q.2 + cyclesPerMs))
  | none => true

/-- Notes that a slice begins. -/
def State.spaceMark (s : State) (unit inst : Nat) : State :=
  match spaceKey unit inst with
  | some k =>
    let h := s.bistH pgBistM
    s.setBist pgBistM { h with began := (k, s.now) :: h.began.filter fun q => q.1 != k && decide (s.now < q.2 + cyclesPerMs) }
  | none => s

/-- Whether a slice that may start from cycle `since` on can start (spec/17 R471, R477, R479): in a checked tile's memory at a commit. -/
def State.sliceCan (s : State) (unit inst slice : Nat) (since : Nat := s.now) : Bool :=
  s.pstate' == 0 && s.spaced unit inst &&
  (match unit with
   | 1 => s.bankState ⟨pgEccT inst, 0, 0⟩ == 2 && (!s.holdsWrites inst || (s.tileH inst).commitT.any fun c => decide (since ≤ c))
   | 2 | 3 =>
     match memLoc (sliceAddr unit inst slice) with
     | some l => s.bankState l == 2
     | none => false
   | 4 => true
   | 5 => s.ready (pgTile inst) && s.getB (pgTile inst) 0x040 29
   | 6 => s.ready (pgTile inst) && (s.tileH inst).mode == 1 && decide (0 < (s.tileH inst).freeSize)
   | 8 => s.ready (pgTfe inst) && s.estate inst == 1
   | 7 | 9 => s.ready (logicPage unit inst)
   | _ => false)

/-- Enters a record in a page's FIFO of 16 and in the event log (spec/17 R481). -/
def State.bistRecord (s : State) (p w0 w1 pos : Nat) : State :=
  let h := s.bistH p
  let full := decide (16 ≤ h.fifo.length)
  let s := if full then s.bump p 0x058 7 0 else s
  let s := s.setBist p { h with fifo := (if full then h.fifo.drop 1 else h.fifo) ++ [(w0, w1)] }
  (s.irq p 16).logEvent 0x0060 2 p (w0 + pos % 2 ^ 16 * 2 ^ 64)

/-- Word 0 of a result record (spec/17 R480). -/
def bistWord0 (unit inst slice res dur : Nat) (confirmed iso : Bool) : Nat :=
  let i := if unit = 3 then slice / 2 ^ 20 else inst
  let sl := if unit = 3 then slice / 2 ^ 16 else slice
  unit * 2 ^ 56 + b2n confirmed * 2 ^ 53 + b2n iso * 2 ^ 52 + res * 2 ^ 48 + i * 2 ^ 32 + sl % 2 ^ 16 * 2 ^ 16 + min dur 65535

/-- A duration in 10 ns steps, rounded up. -/
def tenNs (cycles : Nat) : Nat := (cycles + 29) / 30

/-- What a memory slice makes of its contents (spec/17 R468–R470): ISOLATE leaves zeros; SAVE counts what its copy-out corrects and leaves an uncorrectable word poisoned. Accesses wait for its end, so it acts on the contents as it begins. -/
def State.sliceMemory (s : State) (unit inst slice : Nat) (iso : Bool) : State :=
  let a := sliceAddr unit inst slice
  if unit = 4 then s
  else if iso then s.clearRange a (a + 4096)
  else if unit = 3 then
    let lines := (s.dramErr.map (·.1)).filter fun l => decide (a / 64 ≤ l ∧ l < a / 64 + 64)
    s.each lines fun s l =>
      let (bad, s) := s.dramLine ⟨pgEccD, l * 64 / 2 ^ 32, 2⟩ l
      if bad then s.markLine l else s
  else
    let lanes := (((s.chk.map fun (q : Nat × Nat) => q.1 / 8 * 8) ++ (s.pois.map fun (q : Nat × Nat) => q.1 * 8)).filter fun x => decide (a ≤ x ∧ x < a + 4096)).eraseDups
    s.each lanes fun s la =>
      let before := s.fld (match memLoc la with | some l => l.page | none => 0) oErr 15 8
      let pg := match memLoc la with | some l => l.page | none => 0
      let r := s.rdLanes 1 la none
      if r.2.fld pg oErr 15 8 = before ∨ maj3 (s.poisCopies la) then r.2
      else (r.2.each (List.range 8) fun s i => s.setChk (la + i) 0).setPois la 7

/-- A slice starts. -/
def State.sliceBegin (s : State) (unit inst slice : Nat) : State :=
  let p := bistPage unit inst
  let h := s.bistH p
  let iso := s.sliceIso unit inst slice
  let s := s.setBist p { h with runs := h.runs ++ [⟨unit, inst, slice, s.now, iso⟩],
                                held := h.held.filter fun w => !(w.unit == unit && w.inst == inst && w.slice == slice) }
  let s := s.spaceMark unit inst
  let s := if memUnit unit then s.sliceMemory unit inst slice iso else s
  if unit = 8 then (s.setEstate inst 4).bump (pgTfe inst) 0x074 15 0 else s

/-- Slices that were held start at the first moment they can (spec/17 R477). -/
def State.heldSlices (s : State) : State :=
  s.each ((s.bist.filter fun q => !q.2.held.isEmpty).map (·.1)) fun s p =>
    s.each (s.bistH p).held fun s w => if s.sliceCan w.unit w.inst w.slice then s.sliceBegin w.unit w.inst w.slice else s

/-- SLICE_DUE (spec/17 R472, R477): the slice starts, or is held until it can. A working tile's logic asks for a rotation to a spare. -/
def sliceDue (unit inst slice t : Nat) (s : State) : State :=
  let s := s.upTo t
  let p := bistPage unit inst
  let cfg := s.ready pgBistM && s.getB pgBistM 0x040 31
  if !cfg || decide (unitCount unit ≤ inst) || decide (sliceCount unit ≤ slice) then s
  else if unit = 5 ∧ !s.getB (pgTile inst) 0x040 29 then
    match s.readySpare inst with
    | some sp => s.spareRequest inst 1 sp
    | none => (s.raise (pgBistC (inst / 8)) 0x048 31).irq (pgBistC (inst / 8)) 18
  else
    let h := s.bistH p
    let same := fun (w : BWait) => w.unit == unit && w.inst == inst && w.slice == slice
    if s.sliceCan unit inst slice then s.sliceBegin unit inst slice
    else if h.held.any same then s
    else s.setBist p { h with held := h.held ++ [⟨unit, inst, slice, t⟩] }

/-- The bank of a memory slice that has ended takes the change of power that waits for it (spec/17 R479). -/
def State.sliceBank (s : State) (unit inst : Nat) : State :=
  match unit with
  | 1 => s.bankDue (pgEccT inst) 0
  | 2 => s.bankDue (pgEccC (inst / 16)) (inst % 16)
  | 3 => s.bankDue pgEccD 0
  | _ => s

/-- The units whose slices a page counts in its lap (spec/17 R467, R481). -/
def State.lapUnits (s : State) (p : Nat) : List (Nat × Nat) :=
  match pageAt p with
  | some (.bistC, c) =>
    (List.range 8).map (fun i => (1, 8 * c + i)) ++ (List.range 16).map (fun i => (2, 16 * c + i)) ++ [(7, c), (8, c), (9, c)] ++
      ((List.range 8).filter fun i => (s.tileH (8 * c + i)).mode == 1 && decide (0 < (s.tileH (8 * c + i)).freeSize)).map fun i => (6, 8 * c + i)
  | _ => [(3, 0)] ++ (List.range 4).map (fun i => (4, i)) ++ (List.range 128).map fun i => (5, i)

/-- The slices a unit has run in the present lap. -/
def BistH.done (h : BistH) (unit inst : Nat) : Nat := sget zeroN h.pos (unit * 2 ^ 16 + inst)

/-- Slices run and slices of the lap on a page. -/
def State.lapCount (s : State) (p : Nat) : Nat × Nat :=
  let h := s.bistH p
  (s.lapUnits p).foldl (fun a u => (a.1 + h.done u.1 u.2, a.2 + sliceCount u.1)) (0, 0)

/-- A slice counts in its unit's lap; when every unit is through, the lap ends (spec/17 R478). -/
def State.lapStep (s : State) (unit inst slice : Nat) : State :=
  let p := bistPage unit inst
  let h := s.bistH p
  if h.done unit inst ≠ slice then s
  else
    let s := s.setBist p { h with pos := sput zeroN (unit * 2 ^ 16 + inst) (slice + 1) h.pos }
    let (a, b) := s.lapCount p
    let s := s.setFld p 0x048 13 0 (10000 * a / max 1 b)
    let ps := pgBistM :: (List.range 16).map pgBistC
    if a < b ∨ (ps.any fun q => let (x, y) := s.lapCount q; decide (x < y)) then s
    else
      let took := s.now - (s.bistH pgBistM).lapT
      let s := if 24 * 3600 * cyclesPerS < took then (s.raise pgBistM 0x048 30).irq pgBistM 18 else s
      s.each ps fun s q =>
        let s := s.setBist q { s.bistH q with pos := [], lapT := s.now }
        (s.setFld q 0x048 29 14 (min 65535 (took / (60 * cyclesPerS)))).setFld q 0x048 13 0 0

/-- Spare rows and columns of a bank (spec/17 R482). -/
def spareRows (unit : Nat) : Nat := if unit = 4 then 8 else 16
def spareCols (unit : Nat) : Nat := if unit = 4 then 4 else 8

/-- The repair entry for a confirmed failure (spec/17 R483). -/
def State.repairFor (s : State) (unit inst line bitpos w0 : Nat) : State :=
  let l := s.bcp.repairs
  let bank := l.filter fun e => e.unit == unit && (unit == 3 || e.inst == inst)
  if bank.any fun e => e.line == line && e.bitpos == bitpos then s
  else
    let rows := ((bank.filter fun e => e.bitpos == bitpos && e.line != line).map (·.line)).eraseDups
    let want : Nat := if unit = 3 then 2 else if 2 ≤ rows.length then 1 else 0
    let cap := if want = 2 then 256 else if want = 1 then spareCols unit else spareRows unit
    let full := decide (cap ≤ (bank.filter fun e => e.kind == want).length)
    let e : RepE := ⟨unit, inst, if full then 4 else want, line, bitpos⟩
    let s := { s with bcp := { s.bcp with repairs := l ++ [e] } }
    let s := if full then s.bump pgBistM 0x0C4 11 4 else s
    s.logEvent 0x0061 2 (bistPage unit inst) (w0 + bitpos * 2 ^ 64)

/-- A unit fails its logic test (spec/17 R475, R486; spec/10 R309, spec/06 R198, spec/07 R229, spec/08 R253). -/
def State.logicFail (s : State) (unit inst : Nat) : State :=
  let e : RepE := ⟨unit, inst, 3, 0, 0⟩
  let s := if e ∈ s.bcp.repairs then s else { s with bcp := { s.bcp with repairs := s.bcp.repairs ++ [e] } }
  match unit with
  | 5 | 6 => s.tileRetire inst 4
  | 8 => s.tfeRetire inst
  | _ => (s.setFld (logicPage unit inst) oStatus 15 8 2).pageRetire (logicPage unit inst)

/-- A unit passes a requested pass: a faulted engine's page recovers; a unit kept RETIRED by its LOGIC entry leaves RETIRED by the pass of power-on reset alone, and starts as its ENABLE says (spec/02 R45, spec/17 R476, R486). -/
def State.logicPass (s : State) (unit inst : Nat) : State :=
  let p := logicPage unit inst
  let e : RepE := ⟨unit, inst, 3, 0, 0⟩
  if s.retired p then
    if e ∈ s.bcp.repairs ∧ (unit, inst) ∈ s.bcp.bootTests then
      let s := { s with bcp := { s.bcp with repairs := s.bcp.repairs.filter (· != e) } }
      let s := s.setStatus p false false false false
      if s.enabled p then s.pageStarting p else s
    else s
  else if s.faulted p then
    match unit with
    | 7 => (s.pageRecover p).arsRecovered inst
    | 8 => (s.pageRecover p).irq p 18
    | 9 => (s.pageRecover p).frdRecovered inst
    | _ => s
  else s

/-- What a test found: 1 PASS, 2 FAIL, 3 INCOMPLETE; for a FAIL the BITPOS or chain and the line of the slice or the pattern. -/
def failWord1 (unit inst slice wh at_ : Nat) : Nat :=
  if memUnit unit then wh % 2 ^ 12 * 2 ^ 52 + (if unit = 4 then slice * 4096 + at_ % 64 * 64 else sliceAddr unit inst slice + at_ % 64 * 64)
  else wh % 2 ^ 16 * 2 ^ 32 + at_ % 2 ^ 32

/-- SLICE_END (spec/17 R469, R470, R474, R475, R481): a running slice ends with its result; one that took longer than a slice may was cut, and reports no PASS. -/
def sliceEnd (unit inst slice res wh at_ t : Nat) (s : State) : State :=
  let s := s.upTo t
  let p := bistPage unit inst
  let h := s.bistH p
  match h.runs.find? fun r => r.unit == unit && r.inst == inst && r.slice == slice with
  | none => s
  | some r =>
    let s := s.setBist p { h with runs := h.runs.filter fun q => q != r }
    let s := if memUnit unit then s.sliceBank unit inst else s
    let s := if unit = 7 then s.arsResume inst else s
    let s := if unit = 8 ∧ s.estate inst = 4 then s.setEstate inst (s.tfeIdleState inst) else s
    match if res = 1 ∧ r.t0 + 6 * cyclesPerUs < t then 3 else res with
    | 1 => (s.wr64 p 0x050 (satAdd (2 ^ 64 - 1) (s.rd64 p 0x050) 1)).lapStep unit inst slice
    | 2 =>
      let w0 := bistWord0 unit inst slice 2 (tenNs (min (t - r.t0) 18000)) false r.iso
      let s := (s.bump p 0x058 31 24).bistRecord p w0 (failWord1 unit inst slice wh at_) wh
      let s := s.lapStep unit inst slice
      if memUnit unit then
        let h := s.bistH p
        s.setBist p { h with retest := h.retest ++ [⟨unit, inst, slice, t + cyclesPerMs⟩] }
      else s.logicFail unit inst
    | _ => s.bump p 0x058 23 16

/-- RETEST (spec/17 R475): 1 ms after a memory FAIL the slice runs again; a second FAIL is CONFIRMED and a repair candidate. -/
def retest (unit inst slice res wh at_ t : Nat) (s : State) : State :=
  let s := s.upTo t
  let p := bistPage unit inst
  let h := s.bistH p
  match h.retest.find? fun w => w.unit == unit && w.inst == inst && w.slice == slice && decide (w.t ≤ t) with
  | none => s
  | some w =>
    if !s.sliceCan unit inst slice w.t then s else
    let iso := s.sliceIso unit inst slice
    let s := (s.spaceMark unit inst).sliceMemory unit inst slice iso
    match res with
    | 1 =>
      let s := s.setBist p { s.bistH p with retest := h.retest.filter fun q => q != w }
      (s.wr64 p 0x050 (satAdd (2 ^ 64 - 1) (s.rd64 p 0x050) 1)).bump p 0x058 15 8
    | 2 =>
      let s := s.setBist p { s.bistH p with retest := h.retest.filter fun q => q != w }
      let w0 := bistWord0 unit inst slice 2 (tenNs (min (t - w.t) 18000)) true iso
      let s := ((s.bump p 0x058 31 24).bistRecord p w0 (failWord1 unit inst slice wh at_) wh).irq p 17
      s.repairFor unit inst (slice * 64 + at_ % 64) (wh % 4096) w0
    | _ => s.bump p 0x058 23 16

/-- A write of BIST_REQ (spec/17 R476): Basecamp's request for a pass over all the unit's slices. -/
def State.bistRequest (s : State) (p v : Nat) : State :=
  let unit := bits v 31 24
  let inst := match pageAt p with
    | some (.bistC, c) => if unit = 6 then (if bits v 6 0 / 8 = c then some (bits v 6 0) else none) else some c
    | _ => some (bits v 6 0)
  match inst with
  | none => s
  | some i =>
    if unit = 0 then s else
    let s := s.setBist p { s.bistH p with req := (s.bistH p).req ++ [(unit, i, s.now)] }
    if unit = 8 ∧ s.estate i = 1 then s.setEstate i 4 else s

/-- REQUESTED_PASS_COMPLETE (spec/17 R476, R481): `np`, `nf`, `ni` of its slices passed, failed, were incomplete. A faulted engine's pass is Basecamp's without a request. -/
def requestedPassComplete (unit inst np nf ni wh at_ t : Nat) (s : State) : State :=
  let s := s.upTo t
  let p := bistPage unit inst
  let h := s.bistH p
  let lp := logicPage unit inst
  let logic := decide (5 ≤ unit ∧ unit ≤ 9) && decide (inst < unitCount unit) &&
    (unit != 5 || s.getB lp 0x040 29) && (unit != 6 || ((s.tileH inst).mode == 1 && decide (0 < (s.tileH inst).freeSize)))
  let open_ := h.req.find? fun r => r.1 == unit && r.2.1 == inst
  let implied := s.faulted lp && !s.retired lp && decide (7 ≤ unit) || s.bcp.bootTests.contains (unit, inst)
  if !logic || (open_.isNone && !implied) then s else
  let t0 := match open_ with
    | some r => r.2.2
    | none => t
  let s := s.setBist p { h with req := h.req.filter fun r => !(r.1 == unit && r.2.1 == inst) }
  let s := s.wr64 p 0x050 (satAdd (2 ^ 64 - 1) (s.rd64 p 0x050) np)
  let s := (s.bump p 0x058 31 24 nf).bump p 0x058 23 16 ni
  let s := if unit = 8 ∧ s.estate inst = 4 then s.setEstate inst 1 else s
  let w1 := if nf = 0 then 0 else failWord1 unit inst 0 wh at_
  let s := (s.bistRecord p (bistWord0 unit inst 0 4 (tenNs (t - t0)) false (unit != 6)) w1 (if nf = 0 then 0 else wh)).irq p 19
  let s := if nf ≠ 0 then s.logicFail unit inst
    else if ni ≠ 0 then
      (if unit = 8 ∧ s.faulted lp then s.setBist p { s.bistH p with req := (s.bistH p).req ++ [(8, inst, t)] } else s)
    else s.logicPass unit inst
  if s.bcp.bootTests.contains (unit, inst) then { s with bcp := { s.bcp with bootTests := s.bcp.bootTests.filter (· != (unit, inst)) } } else s

/-- A write of BIST_FUSE by Basecamp (spec/17 R485): OP = 1 burns a repair entry into one of 256 fuses. -/
def State.bistFuse (s : State) (v : Nat) : State :=
  match bits v 31 30, s.bcp.repairs[bits v 9 0]? with
  | 1, some e =>
    if s.bcp.fuses.length < 256 ∧ e.kind < 3 then
      let s := { s with bcp := { s.bcp with fuses := s.bcp.fuses ++ [e] } }
      s.setFld pgBistM 0x0C4 19 12 (min 255 s.bcp.fuses.length)
    else s
  | _, _ => s

/-- The oldest result record as BIST_RES0 and BIST_RES1 show it. -/
def State.bistHead (s : State) (p : Nat) : Nat × Nat := (s.bistH p).fifo.headD (0, 0)

end Sys2Proof.Machine
end

