-- ==== Sys2Proof/Machine/Rope.lean ====
section
/-! DEFINITION. Rope ports, teams, labels, routes and circuits (spec/19 R500–R521, R524–R528). -/

namespace Sys2Proof.Machine

/-! Circuits. -/

/-- CSTATE: 0 OFF, 1 NOROUTE, 2 WAITING, 3 READY, 4 DOWN. -/
def State.setCstate (s : State) (c v : Nat) : State :=
  let h := s.circH c
  if h.cstate = v then s else (s.setCirc c { h with cstate := v }).irq pgRopeL 20

/-- Whether a route to the far module exists (spec/19 R518). -/
def State.circHasRoute (s : State) (c : Nat) : Bool :=
  s.dstate == 4 && (match s.ropeRoute (s.circH c).path true with
    | .port _ => true
    | _ => false)

/-- Sends CONNECT for an egress circuit: the far circuit in ARG, this one and 0 (a request) as payload. -/
def State.sendConnect (s : State) (c : Nat) : State :=
  let h := s.circH c
  let s := s.setCirc c { h with connectAt := s.now }
  (s.ropeSend 0x06 h.path h.rcirc 0 [c, 0]).2

/-- An enabled egress circuit's state after a change of routes: NOROUTE without one; with one it waits and sends CONNECT. -/
def State.circRoutes (s : State) (c : Nat) : State :=
  let h := s.circH c
  if !h.en || h.cstate = 4 then s
  else if h.ingress then (if s.dstate ≠ 4 then s.setCstate c 1 else if h.cstate ≤ 1 then s.setCstate c 2 else s)
  else if !s.circHasRoute c then s.setCstate c 1
  else if h.cstate = 0 ∨ h.cstate = 1 then (s.setCstate c 2).sendConnect c else s

def State.allCirc (s : State) : List Nat := s.circs.map (·.1)
def State.ropeCircs (s : State) : State := s.each s.allCirc fun s c => s.circRoutes c

/-- A path change takes every enabled circuit DOWN (spec/19 R510, R518). -/
def State.circsDown (s : State) : State :=
  s.each s.allCirc fun s c => if (s.circH c).en then (s.setCirc c { s.circH c with tx := [] }).setCstate c 4 else s

/-- Words of the selected circuit written (spec/19 R517): while EN = 1 only EN changes; an ingress WINDOW beyond 32,768 cells in all keeps EN at 0. Answers whether something was clamped. -/
def State.circWrite (s : State) (c : Nat) (w0 w1 : Nat) : Bool × State :=
  let h := s.circH c
  let plen := clampTo 1 6 (bits w1 63 60)
  let win := clampTo 1 1024 (bits w1 50 40)
  let w1' := plen * 2 ^ 60 + win * 2 ^ 40
  let clamped := plen != bits w1 63 60 || win != bits w1 50 40
  if h.en then
    let changed := w0 % 2 ^ 63 != h.w0.toNat % 2 ^ 63 || w1' != h.w1.toNat
    if bit w0 63 then (changed, s)
    else (changed, (s.setCirc c { h with w0 := BitVec.ofNat 64 (h.w0.toNat % 2 ^ 63), tx := [] }).setCstate c 0)
  else
    let sum := s.circs.foldl (fun a q => if q.2.en && q.2.ingress then a + q.2.window else a) 0
    let isOver := bit w0 63 && bit w0 62 && decide (32768 < sum + win)
    let w0' := if isOver then w0 % 2 ^ 63 else w0
    let s := s.setCirc c { h with w0 := BitVec.ofNat 64 w0', w1 := BitVec.ofNat 64 w1' }
    (clamped || isOver, if bit w0' 63 then s.circRoutes c else s)

/-! Label tables, elections and routes. -/

/-- The present path from the labels of each depth; empty until complete (spec/19 R509). -/
def State.pathNow (s : State) : List Nat := (List.range s.ropeDepth).map fun i => (s.teamH i).own

/-- A team's summary page (spec/19): members, their states, path, leader, generation. -/
def State.teamShow (s : State) (i : Nat) : State :=
  let h := s.teamH i
  let p := pgTeam i
  let n (st : Nat) : Nat := (h.table.filter fun q => q.2.st == st).length
  let s := (s.setFld p 0x040 31 24 (n 1 + n 2)).setFld p 0x040 23 16 (n 1)
  let s := s.setFld p 0x040 15 8 (n 2)
  let path := s.pathNow.take i
  let s := s.wr64 p 0x048 (pathReg path)
  s.wr64 p 0x050 (if h.settled then h.serial else s.rd64 p 0x050)

/-- Sets bit `16 + i` of ROPE_TSTATE: a change raises bit 17 there and on the TEAM page. -/
def State.setLeads (s : State) (i : Nat) (v : Bool) : State :=
  if s.leads i = v then s
  else
    let s := ((s.setB pgRopeL 0x060 (16 + i) v).irq pgRopeL 17).irq (pgTeam i) 17
    -- the time master has ROPE_TOFS = 0 (R525)
    if i = 0 ∧ v then s.wr64 pgRopeL 0x068 0 else s

/-- LOADING becomes READY once a route row of every depth is loaded (spec/19 R510). -/
def State.ropeTryReady (s : State) : State :=
  if s.dstate = 3 ∧ (List.range s.ropeDepth).all (fun i => (s.teamH i).loaded) then
    let s := s.setDstate 4
    let s := if s.busy pgRopeL then s.pageReady pgRopeL else s
    s.ropeCircs
  else s

/-- This module's label at depth `i` (spec/19 R509, R510, R516). -/
def State.ownLabel (s : State) (i l : Nat) : State :=
  let moved := decide ((s.teamH i).own ≠ l)
  let s := if moved then (s.setTeam i { s.teamH i with own := l }).irq (pgTeam i) 18 else s
  let path := s.pathNow
  let whole := path.all (· != 0)
  let reg := if whole then pathReg path else 0
  let s := match s.dstate with
    | 2 => if whole then ((s.wr64 pgRopeL 0x058 reg).setDstate 3).ropeTryReady else s
    | 3 | 4 =>
      if !moved then s
      else
        let s := ((s.wr64 pgRopeL 0x058 reg).irq pgRopeL 18).circsDown
        let s := s.logEvent 0x0080 1 pgRopeL (reg % 2 ^ 48 + path.length * 2 ^ 48)
        let s := s.each (List.range 6) fun s j => s.setTeam j { s.teamH j with loaded := false }
        s.setDstate 3
    | _ => s
  s.each (List.range s.ropeDepth) fun s j => s.teamShow j

/-- Labels that moved between two tables of T_i: the old label of each key that stands under another now (spec/19 R516). -/
def movedLabels (old new : List (Nat × LabE)) : List Nat :=
  (old.filter fun q => q.2.st != 0 && new.any fun r => r.2.key == q.2.key && r.2.st != 0 && r.1 != q.1).map (·.1)

/-- Label changes of T_i that alter a path: bit 18 on its TEAM page, and every circuit that names an old path goes DOWN until its entry is reloaded (spec/19 R516, R518). -/
def State.labelsMoved (s : State) (i : Nat) (old new : List (Nat × LabE)) : State :=
  match movedLabels old new with
  | [] => s
  | ls =>
    let pre := s.pathNow.take i
    (s.irq (pgTeam i) 18).each s.allCirc fun s c =>
      let h := s.circH c
      if h.en && ls.any (fun l => (pre ++ [l]).isPrefixOf h.path) then (s.setCirc c { h with tx := [] }).setCstate c 4 else s

/-- LABEL frames of T_i to its modules: generation, this table's rows, the summary (spec/19 R509, R524). -/
def State.sendLabels (s : State) (i : Nat) (ports : List Nat) (hops : Nat := 15) : State :=
  let h := s.teamH i
  let rows := h.table.flatMap fun q => [q.1 + q.2.st * 2 ^ 8 + b2n q.2.team * 2 ^ 10 + q.2.mods * 2 ^ 16, q.2.key]
  s.ropeFlood ports 0x04 i (s.rd (pgTeam i) 0x058 :: rows ++ [s.rd64 (pgTeam i) 0x05C, s.rd (pgTeam i) 0x064]) hops

/-- Members of a team: key, whether a team, serials, preference (spec/19 R508). -/
structure Member where
  key : Nat
  team : Bool
  mods : List Nat
  pref : Nat
  deriving DecidableEq, Repr

/-- All modules reached from a set over links of a scope, in `fuel` rounds. -/
def closure (reps : List LinkRep) (scope : Nat) : Nat → List Nat → List Nat
  | 0, l => l
  | n + 1, l =>
    let more := (reps.filter fun r => l.contains r.serial).flatMap fun r => (r.ports.filter fun p => decide (scope ≤ p.2.2)).map (·.2.1)
    let next := (l ++ more.filter fun x => reps.any fun r => r.serial == x).eraseDups
    if next.length = l.length then l else closure reps scope n next

/-- Groups the deeper modules of a team into connected member teams; `fuel` bounds the groups. -/
def deeperTeams (reps : List LinkRep) (scope : Nat) : Nat → List LinkRep → List (List Nat)
  | 0, _ => []
  | n + 1, l =>
    match l with
    | [] => []
    | r :: _ =>
      let g := closure l scope l.length [r.serial]
      g :: deeperTeams reps scope n (l.filter fun q => !g.contains q.serial)

def members (reps : List LinkRep) (i : Nat) : List Member :=
  let single := (reps.filter fun r => r.depth == i + 1).map fun r => (⟨r.serial, false, [r.serial], bits r.pref (8 * i + 7) (8 * i)⟩ : Member)
  let deep := reps.filter fun r => decide (i + 1 < r.depth)
  let teams := (deeperTeams deep (i + 1) deep.length deep).map fun g =>
    let key := g.foldl min (g.headD 0)
    let pref := match deep.find? fun r => r.serial == key with
      | some r => bits r.pref (8 * i + 7) (8 * i)
      | none => 0
    (⟨key, true, g, pref⟩ : Member)
  sortBy (fun a b => decide (a.key ≤ b.key)) (single ++ teams)

/-- The label a member gets from a table (spec/19 R508). -/
def labelFor (table : List (Nat × LabE)) (m : Member) : Option Nat :=
  let free (l : Nat) : Bool := !(table.any fun q => q.1 == l && q.2.st != 0)
  match table.find? fun q => q.2.key == m.key && q.2.st != 0 with
  | some q => some q.1
  | none =>
    if 0 < m.pref ∧ m.pref ≤ 0xFC ∧ free m.pref then some m.pref
    else ((List.range 0xFC).map (· + 1)).find? free

def labZero : Nat → LabE := fun _ => {}

/-- The members a leader labels: those it reaches over the links reported, once its own report stands (spec/19 R506, R508, R514). -/
def labelled (reps : List LinkRep) (i me : Nat) : List Member :=
  let reach := closure reps i reps.length [me]
  (members reps i).filter fun m => !(reps.any fun r => r.serial == me) || m.mods.any fun x => reach.contains x

/-- The leader labels its members again: each change raises the generation; the new table goes out (spec/19 R508, R509). -/
def State.relabel (s : State) (i : Nat) : State :=
  if !s.leads i then s else
  let h := s.teamH i
  let ms := labelled h.reports i s.ropeSerial
  let p := pgTeam i
  let (table, refused, changes, states) := ms.foldl (fun (a : List (Nat × LabE) × Nat × Nat × Bool) m =>
    match labelFor a.1 m with
    | none => (a.1, a.2.1 + 1, a.2.2.1, a.2.2.2)
    | some l =>
      let e : LabE := { key := m.key, st := 1, team := m.team, mods := m.mods.length }
      let old := sget labZero a.1 l
      (sput labZero l e a.1, a.2.1, if old = e then a.2.2.1 else a.2.2.1 + 1, a.2.2.2 || old.st != 1)) (h.table, 0, 0, false)
  let s := (s.setTeam i { h with table := table }).labelsMoved i h.table table
  let s := s.setFld p 0x040 7 4 (min 15 refused)
  let s := s.wr p 0x058 ((s.rd p 0x058 + changes) % 2 ^ 32)
  let s := if states then s.irq p 16 else s
  let me := s.ropeSerial
  let own := match ms.find? fun m => m.mods.contains me with
    | some m => (labelFor table m).getD 0
    | none => 0
  let s := if changes = 0 then s.teamShow i else (s.teamShow i).sendLabels i (s.portsAt i)
  s.ownLabel i own

/-- This module's LINKS report (spec/19 R503). -/
def State.ownReport (s : State) : LinkRep :=
  ⟨s.ropeSerial, s.ropeDepth, s.rd64 pgRopeL 0x050,
    ((List.range 16).filter fun r => s.linkUpAt r).map fun r => (r, s.rd64 (pgRope r) 0x048, s.portScope r)⟩

/-- Takes a report at the leader of T_i. -/
def State.takeReport (s : State) (i : Nat) (rep : LinkRep) : State :=
  let h := s.teamH i
  (s.setTeam i { h with reports := rep :: h.reports.filter fun q => q.serial != rep.serial }).relabel i

/-- The port toward the leader of T_i: the route's, or the one its candidature came by while that is in use, or the lowest port of the team. -/
def State.towardLeader (s : State) (i : Nat) : List Nat :=
  match s.routeVia i 0 false with
  | .port r => [r]
  | _ => match (s.teamH i).via with
    | some r => if (s.portsAt i).contains r then [r] else (s.portsAt i).take 1
    | none => (s.portsAt i).take 1

/-- Reports LINKS to the leader of T_i (spec/19 R508, R514). -/
def State.sendLinks (s : State) (i : Nat) : State :=
  let rep := s.ownReport
  if s.leads i then s.takeReport i rep
  else s.ropeFlood (s.towardLeader i) 0x03 i (rep.serial :: rep.depth :: rep.pref :: rep.ports.map fun q => q.1 + q.2.2 * 16 + q.2.1 * 256)

/-- Sends the best candidate known at depth `i` (spec/19 R507). -/
def State.sendElect (s : State) (i : Nat) (ports : List Nat) : State :=
  let h := s.teamH i
  s.ropeFlood ports 0x02 i [h.pri, h.serial, h.epoch]

/-- An election at depth `i` settles with its best candidate. -/
def State.electSettle (s : State) (i : Nat) : State :=
  let h := s.teamH i
  let s := s.setTeam i { h with settled := true }
  let changed := s.rd64 (pgTeam i) 0x050 ≠ h.serial
  let s := s.setLeads i (h.serial == s.ropeSerial && h.pri == s.ropePri)
  let s := if changed then s.irq (pgTeam i) 17 else s
  s.teamShow i

/-- The last election settles: LINKS to every leader (spec/19 R510). -/
def State.electDone (s : State) : State :=
  if s.dstate = 1 ∧ (List.range s.ropeDepth).all (fun i => (s.teamH i).settled) then
    s.setDstate 2 |>.each (List.range s.ropeDepth) fun s i => s.sendLinks i
  else s

/-- Starts an election at depth `i` with this module as the only candidate it knows. -/
def State.electStart (s : State) (i : Nat) : State :=
  let h := s.teamH i
  let s := s.setTeam i { h with pri := s.ropePri, serial := s.ropeSerial, known := true, tBest := s.now, settled := false, epoch := h.epoch + 1, via := none }
  if (s.portsAt i).isEmpty then s.electSettle i else s.sendElect i (s.portsAt i)

/-- An election reopens because its leader is lost (spec/19 R515): a module left without a link of the team leads it alone. -/
def State.electReopen (s : State) (i : Nat) : State :=
  let s := s.electStart i
  if s.dstate = 1 then s.electDone else if (s.teamH i).settled then s.sendLinks i else s

/-- Whether one candidate beats another (spec/19 R507). -/
def beats (pri serial pri' serial' : Nat) : Bool := decide (pri' < pri) || (pri == pri' && decide (serial < serial'))

/-- A port reaches UP (spec/19 R501, R510). -/
def State.ropeUp (s : State) (r : Nat) : State :=
  let s := (s.setLstate r 4).bump (pgRope r) 0x068 31 16
  if s.dstate = 0 then
    let s := s.setDstate 1
    (s.each (List.range s.ropeDepth) fun s i => s.electStart i).electDone
  else s.each (List.range (min s.ropeDepth (s.portScope r + 1))) fun s i =>
    let s := s.sendElect i [r]
    if (s.teamH i).settled then s.sendLinks i else s

/-- A port leaves UP for another LSTATE (spec/19 R501, R510, R514). -/
def State.ropeDown (s : State) (r ls : Nat) : State :=
  let was := s.linkUpAt r
  let scope := s.portScope r
  let s := (s.setLstate r ls).setRope r { s.ropeH r with hellos := 0, serial := 0 }
  if !was then s
  else
    let s := s.bump (pgRope r) 0x068 15 0
    if (List.range 16).any fun q => s.linkUpAt q then
      (s.each (List.range (min s.ropeDepth (scope + 1))) fun s i => if (s.portsAt i).isEmpty && !s.leads i then s.electReopen i else s.sendLinks i).ropeCircs
    else
      let s := (s.setDstate 0).wr64 pgRopeL 0x058 0
      let s := s.each (List.range 6) fun s i =>
        (s.setTeam i { s.teamH i with own := 0, loaded := false, settled := false, reports := [], stats := [], via := none }).setLeads i false
      s.each s.allCirc fun s c => if (s.circH c).en then (s.setCirc c { s.circH c with tx := [] }).setCstate c 1 else s

/-- A port's SCOPE, at most DEPTH − 1 (spec/19 R506). -/
def State.ownScope (s : State) (r : Nat) : Nat := min (s.fld (pgRope r) 0x040 27 25) (s.ropeDepth - 1)

/-- Sends HELLO: serial, DEPTH, PRI, SCOPE, ROPE_PREF, ROPE_PATH, the bivouac flag (spec/19 R503, R528). -/
def State.sendHello (s : State) (r : Nat) : State :=
  let biv := s.pstate'
  s.ropeEmit r 0x01 15 [] [] r 0
    [s.ropeSerial, s.ropeDepth + s.ropePri * 16 + s.ownScope r * 256, s.rd64 pgRopeL 0x050, s.rd64 pgRopeL 0x058,
      b2n (biv != 0)]

/-- Whether a port is unpowered: MODE 0, or in bivouac without KEEP (spec/19 R500, R528). -/
def State.ropeOff (s : State) (r : Nat) : Bool :=
  s.fld (pgRope r) 0x040 31 30 == 0 || (s.pstate' != 0 && !s.getB (pgRope r) 0x040 28)

/-- The port page is enabled: its link trains when a module is present and MODE is not 0 (spec/19 R500). -/
def State.ropeEnable (s : State) (r : Nat) : State :=
  s.setLstate r (if s.ropeOff r then 0 else if bit (s.ropeH r).sfp 2 then 2 else 1)

def State.ropeDisable (s : State) (r : Nat) : State := s.ropeDown r 0

/-- SFP_INSERTION (spec/19 R500): a module is inserted or removed, with its LOS and TX_FAULT. -/
def sfpInsertion (r : Nat) (present los txFault : Bool) (t : Nat) (s : State) : State :=
  let s := s.upTo t
  if 16 ≤ r then s else
  let p := pgRope r
  let v := b2n present * 4 + b2n (present && los) * 2 + b2n (present && txFault)
  let was := (s.ropeH r).sfp
  let s := if was = v then s else ((s.setRope r { s.ropeH r with sfp := v }).setFld p 0x044 28 26 v).irq p 19
  let s := if present && txFault then s.pageFault p 1 else s
  if !s.enabled p || s.ropeOff r then s
  else if !present then s.ropeDown r 1
  else if s.lstate r ≤ 1 then s.setLstate r 2 else s

/-- BLOCK_LOCK (spec/19 R500, R501): the PCS gains lock with an end of the same MODE and FEC, and HELLO starts; ends that differ show MISMATCH. -/
def blockLock (r : Nat) (same : Bool) (t : Nat) (s : State) : State :=
  let s := s.upTo t
  if 16 ≤ r ∨ s.lstate r ≠ 2 then s
  else if same then (s.setLstate r 3).sendHello r
  else (s.setLstate r 6).pageFault (pgRope r) 2

/-- LOCK_LOSS (spec/19 R501). -/
def lockLoss (r t : Nat) (s : State) : State :=
  let s := s.upTo t
  if r < 16 ∧ 3 ≤ s.lstate r ∧ s.lstate r ≤ 5 then s.ropeDown r 2 else s

/-- HELLO_TIMEOUT (spec/19 R501): 3 ms without HELLO. -/
def helloTimeout (r t : Nat) (s : State) : State :=
  let s := s.upTo t
  if r < 16 ∧ s.linkUpAt r ∧ (s.ropeH r).tHello + 3 * cyclesPerMs ≤ t then s.ropeDown r 3 else s

/-- HELLO_SEND (spec/19 R501): every 1 ms on a port that has lock. -/
def helloSend (r t : Nat) (s : State) : State :=
  let s := s.upTo t
  if r < 16 ∧ 3 ≤ s.lstate r ∧ s.lstate r ≤ 5 then s.sendHello r else s

/-- HELLO (spec/19 R501, R506, R528): the peer's serial, SCOPE, port and bivouac flag. The second from one serial brings the port UP. -/
def hello (f : RFrame) (serial scope pport : Nat) (biv : Bool) (t : Nat) (s : State) : State :=
  let (ok, s) := (s.upTo t).ropeRecv f
  if !ok then s else
  let r := f.port
  let p := pgRope r
  let h := s.ropeH r
  let n := if h.hellos ≠ 0 ∧ h.serial = serial then min 2 (h.hellos + 1) else 1
  let s := s.setRope r { h with serial := serial, hellos := n, tHello := t, peerScope := scope, peerBiv := biv }
  let own := s.ownScope r
  let used := min own scope
  let s := if own ≠ scope then s.irq p 17 else s
  let changed := s.portScope r ≠ used
  let s := ((s.setFld p 0x044 25 23 used).setB p 0x044 22 biv).setFld p 0x044 21 18 (pport % 16)
  let s := s.wr64 p 0x048 serial
  let s := if s.lstate r = 3 ∧ 2 ≤ n then s.ropeUp r
    else if s.linkUpAt r && changed then s.each (List.range s.ropeDepth) fun s i => s.sendLinks i else s
  if s.lstate r = 4 ∧ (biv ∨ s.pstate' ≠ 0) then (s.setLstate r 5).ropeCircs
  else if s.lstate r = 5 ∧ !biv ∧ s.pstate' = 0 then (s.setLstate r 4).ropeCircs else s

/-- ELECT (spec/19 R507, R510, R515): a better candidate is taken and flooded on; a worse one is answered with the better. A newer epoch reopens the election with the better of its candidate and this module. -/
def elect (f : RFrame) (pri serial epoch t : Nat) (s : State) : State :=
  let (ok, s) := (s.upTo t).ropeRecv f
  let i := f.arg
  if !ok || decide (s.ropeDepth ≤ i) || decide (s.portScope f.port < i) || !s.linkUpAt f.port || s.dstate == 0 then s else
  let h := s.teamH i
  if h.known && decide (h.epoch < epoch) then
    let mine := beats s.ropePri s.ropeSerial pri serial
    let s := s.setTeam i { h with pri := if mine then s.ropePri else pri, serial := if mine then s.ropeSerial else serial, tBest := t, settled := false, epoch := epoch, via := if mine then none else some f.port }
    s.sendElect i ((s.portsAt i).filter fun q => mine || q != f.port)
  else if beats pri serial h.pri h.serial || !h.known then
    let s := s.setTeam i { h with pri := pri, serial := serial, known := true, tBest := t, settled := false, epoch := max h.epoch epoch, via := some f.port }
    s.sendElect i ((s.portsAt i).filter (· != f.port))
  else if beats h.pri h.serial pri serial then s.sendElect i [f.port] else s

/-- ELECTION_SETTLES (spec/19 R507, R510): no better candidate for 2 ms at depth `i`. -/
def electionSettles (i t : Nat) (s : State) : State :=
  let s := s.upTo t
  let h := s.teamH i
  if s.ropeDepth ≤ i ∨ s.dstate = 0 ∨ h.settled ∨ ¬ (h.tBest + 2 * cyclesPerMs ≤ t ∨ (s.portsAt i).isEmpty) then s
  else
    let led := s.leads i
    let s := s.electSettle i
    -- a leader that lost the election sends its table, from which the winner adopts (R516)
    let s := if led && !s.leads i && !h.table.isEmpty then s.sendLabels i (s.portsAt i) else s
    if s.dstate = 1 then s.electDone else s.sendLinks i

/-- LINKS (spec/19 R508): a leader takes a report and labels again; another module passes it toward the leader. -/
def links (f : RFrame) (rep : LinkRep) (t : Nat) (s : State) : State :=
  let (ok, s) := (s.upTo t).ropeRecv f
  let i := f.arg
  if !ok || decide (s.ropeDepth ≤ i) then s
  else if s.leads i then s.takeReport i rep
  else if f.hops = 0 then s.bump (pgRope f.port) 0x064 31 16
  else s.ropeFlood ((s.towardLeader i).filter (· != f.port)) 0x03 i
    (rep.serial :: rep.depth :: rep.pref :: rep.ports.map fun q => q.1 + q.2.2 * 16 + q.2.1 * 256) (f.hops - 1)

/-- LABEL (spec/19 R509, R516, R524): the leader's table of T_i with its generation and summary, and the label of the member this module belongs to. A leader adopts what conflicts with none of its own entries. -/
def label (f : RFrame) (gen own : Nat) (rows : List LabelRow) (agg : Nat × Nat × Nat) (t : Nat) (s : State) : State :=
  let (ok, s) := (s.upTo t).ropeRecv f
  let i := f.arg
  if !ok || decide (s.ropeDepth ≤ i) then s
  else
    let h := s.teamH i
    let p := pgTeam i
    let entry (r : LabelRow) : LabE := { key := r.key, st := r.st, team := r.team, mods := r.mods, lostT := t }
    if s.leads i then
      let ok (tb : List (Nat × LabE)) (r : LabelRow) : Bool :=
        r.st != 0 && (sget labZero tb r.label).st == 0 && !(tb.any fun q => q.2.key == r.key && q.2.st != 0)
      let tb := rows.foldl (fun tb r => if ok tb r then sput labZero r.label (entry r) tb else tb) h.table
      if tb = h.table then s else (s.setTeam i { h with table := tb }).relabel i
    else
      let keep (r : LabelRow) : LabE :=
        let old := sget labZero h.table r.label
        if old.st = 2 ∧ r.st = 2 then { entry r with lostT := old.lostT } else entry r
      let tb := rows.foldl (fun tb r => sput labZero r.label (keep r) tb) []
      let s := if (tb.map fun q => (q.1, q.2.st)) = (h.table.map fun q => (q.1, q.2.st)) then s else s.irq p 16
      let fresh := s.rd p 0x058 ≠ gen ∨ (s.rd p 0x05C, s.rd p 0x060, s.rd p 0x064) ≠ agg
      let s := ((s.setTeam i { h with table := tb }).labelsMoved i h.table tb).wr p 0x058 gen
      let s := ((s.wr p 0x05C agg.1).wr p 0x060 agg.2.1).wr p 0x064 agg.2.2
      let s := (s.teamShow i).ownLabel i own
      if !fresh then s
      else if f.hops = 0 then s.bump (pgRope f.port) 0x064 31 16
      else s.sendLabels i ((s.portsAt i).filter (· != f.port)) (f.hops - 1)

/-- Distances in hops from a set of modules over links of a scope: a list of (serial, hops), in `fuel` rounds. -/
def hopsFrom (reps : List LinkRep) (scope : Nat) : Nat → Nat → List Nat → List (Nat × Nat) → List (Nat × Nat)
  | 0, _, _, seen => seen
  | n + 1, d, front, seen =>
    let next := (reps.filter fun r => (r.ports.any fun p => decide (scope ≤ p.2.2) && front.contains p.2.1) &&
      !(seen.any fun q => q.1 == r.serial)).map (·.serial)
    if next.isEmpty then seen else hopsFrom reps scope n (d + 1) next (seen ++ next.map fun x => (x, d + 1))

/-- The first port of a module on a shortest path to a set of modules, the lowest of equals (spec/19 R512). -/
def firstPort (reps : List LinkRep) (scope : Nat) (x : LinkRep) (dest : List Nat) : Option Nat :=
  let dist := hopsFrom reps scope reps.length 0 dest (dest.map fun y => (y, 0))
  let best := (x.ports.filter fun p => decide (scope ≤ p.2.2)).foldl (fun (b : Option (Nat × Nat)) p =>
    match dist.find? fun q => q.1 == p.2.1 with
    | none => b
    | some (_, d) => match b with
      | none => some (d, p.1)
      | some (d', r') => if d < d' ∨ (d = d' ∧ p.1 < r') then some (d, p.1) else b) none
  best.map (·.2)

/-- Loads a route row (spec/19 R510, R512): ROPE_TSTATE counts route loads modulo 256. -/
def State.loadRow (s : State) (i : Nat) (row : List (Nat × Nat)) : State :=
  let s := s.setTeam i { s.teamH i with row := row, loaded := true }
  let s := s.setFld pgRopeL 0x060 7 0 (s.fld pgRopeL 0x060 7 0 + 1)
  (s.ropeTryReady).ropeCircs

/-- The row of T_i for one of its modules (spec/19 R512). -/
def routeRow (reps : List LinkRep) (ms : List Member) (table : List (Nat × LabE)) (i leader : Nat) (x : LinkRep) : List (Nat × Nat) :=
  let to0 := if x.serial = leader then none else firstPort reps i x [leader]
  let rest := table.filterMap fun q =>
    if q.2.st = 0 then none
    else match ms.find? fun m => m.key == q.2.key with
      | none => none
      | some m => if m.mods.contains x.serial then none else (firstPort reps i x m.mods).map fun r => (q.1, r)
  match to0 with
  | some r => (0, r) :: rest
  | none => rest

/-- ROUTE_COMPUTATION (spec/19 R512, R514): the leader of T_i finds the members no route reaches, computes every module's row, loads its own and sends the others. -/
def routeComputation (i t : Nat) (s : State) : State :=
  let s := s.upTo t
  if s.ropeDepth ≤ i ∨ !s.leads i then s else
  let h := s.teamH i
  let me := s.ropeSerial
  let ms := members h.reports i
  let reach := closure h.reports i h.reports.length [me]
  let p := pgTeam i
  let judge (q : Nat × LabE) : Nat × LabE :=
    if q.2.st = 0 then q else
    let up := match ms.find? fun m => m.key == q.2.key with
      | some m => m.mods.any fun x => reach.contains x
      | none => false
    if up then (q.1, { q.2 with st := 1 })
    else if q.2.st = 1 then (q.1, { q.2 with st := 2, lostT := t }) else q
  let tb := h.table.map judge
  let changes := ((tb.zip h.table).filter fun q => q.1.2.st != q.2.2.st).length
  let s := s.setTeam i { h with table := tb, stats := h.stats.filter fun q => reach.contains q.1 }
  let s := s.wr p 0x058 ((s.rd p 0x058 + changes) % 2 ^ 32)
  let s := if changes = 0 then s else (s.irq p 16).sendLabels i (s.portsAt i)
  let s := (s.teamShow i).setFld p 0x040 3 0 (s.fld p 0x040 3 0 + 1)
  let s := s.each (h.reports.filter fun r => r.serial != me && reach.contains r.serial) fun s r =>
    s.ropeFlood (s.portsAt i) 0x05 i (r.serial :: (routeRow h.reports ms tb i me r).map fun q => q.1 + q.2 * 256)
  match h.reports.find? fun r => r.serial == me with
  | some r => s.loadRow i (routeRow h.reports ms tb i me r)
  | none => s

/-- ROUTE (spec/19 R512): a row of T_i for the module named; another module passes it on. -/
def route (f : RFrame) (serial : Nat) (row : List (Nat × Nat)) (t : Nat) (s : State) : State :=
  let (ok, s) := (s.upTo t).ropeRecv f
  let i := f.arg
  if !ok || decide (s.ropeDepth ≤ i) then s
  else if serial = s.ropeSerial then s.loadRow i row
  else if f.hops = 0 then s.bump (pgRope f.port) 0x064 31 16
  else s.each ((s.portsAt i).filter (· != f.port)) fun s r =>
    s.ropeEmit r 0x05 (f.hops - 1) [] [] i 0 (serial :: row.map fun q => q.1 + q.2 * 256)

/-- LABEL_HOLD_EXPIRY (spec/19 R514): ROPE_HOLD seconds after a member was lost its label is FREE. -/
def labelHoldExpiry (i l t : Nat) (s : State) : State :=
  let s := s.upTo t
  let h := s.teamH i
  let e := sget labZero h.table l
  if s.leads i ∧ e.st = 2 ∧ e.lostT + s.fld pgRopeL 0x070 31 0 * cyclesPerS ≤ t then
    let s := s.setTeam i { h with table := sput labZero l {} h.table }
    let s := s.wr (pgTeam i) 0x058 ((s.rd (pgTeam i) 0x058 + 1) % 2 ^ 32)
    (((s.irq (pgTeam i) 16).teamShow i).sendLabels i (s.portsAt i))
  else s

/-! Circuit frames. -/

/-- CONNECT (spec/19 R518): a request names this module's circuit in ARG and the sender's; an answer brings a waiting circuit to READY with its credit at WINDOW. -/
def connect (f : RFrame) (from_ : Nat) (answer : Bool) (t : Nat) (s : State) : State :=
  let (ok, s) := (s.upTo t).ropeRecv f
  if !ok then s else
  match s.ropeArrive f 0x06 [from_, b2n answer] with
  | (some .here, _, s) =>
    let c := f.arg % 4096
    let h := s.circH c
    if !h.en || h.path != f.spath || h.rcirc != from_ then s
    else if answer then
      if !h.ingress && h.cstate == 2 then
        (s.setCirc c { h with sent := 0, freedSeen := 0, seqOut := 0, tx := [] }).setCstate c 3
      else s
    else if h.ingress then
      let s := (s.setCirc c { h with seqIn := 0, freed := 0, freedTold := 0, toldAt := t }).setCstate c 3
      (s.ropeSend 0x06 f.spath from_ 0 [c, 1]).2
    else s
  | (_, _, s) => s

/-- CONNECT_RESEND (spec/19 R518). -/
def connectResend (c t : Nat) (s : State) : State :=
  let s := s.upTo t
  let h := s.circH c
  if h.cstate = 2 ∧ !h.ingress ∧ h.connectAt + cyclesPerMs ≤ t then s.sendConnect c else s

/-- Delivers one cell of an ingress circuit to its stream entry, or frees it uncounted by any (spec/19 R519, R521). -/
def State.circCell (s : State) (c : Nat) (x : RopeCell) (t : Nat) : State :=
  let key := srcKey 4 c
  match s.entryOf key with
  | none =>
    let h := s.circH c
    (s.noteCirc c 0x318 15 0 h.noEntry 1).setCirc c { h with noEntry := satAdd 65535 h.noEntry 1, freed := (h.freed + 1) % 2 ^ 32 }
  | some _ =>
    let it : SrcItem :=
      if x.gap then { gap := true, marks := x.marks, count := x.payload % 2 ^ 32, cause := x.payload / 2 ^ 32 % 256, pois := x.pois, acceptedAt := t }
      else { raw := true, marks := x.marks, nvalid := x.nvalid, payload := x.payload, pois := x.pois, acceptedAt := t }
    s.sourceOffer key it

/-- CELL (spec/19 R519, R521): the cells of a frame, the first with the frame's SEQ. A gap in the sequence gives one GAP cell of CAUSE 2; a lower sequence is a duplicate. -/
def cellFrame (f : RFrame) (cells : List RopeCell) (t : Nat) (s : State) : State :=
  let (ok, s) := (s.upTo t).ropeRecv f
  if !ok then s else
  match s.ropeArrive f 0x10 (cellWords cells) (cellsPois cells) with
  | (some .here, _, s) =>
    let c := f.arg % 4096
    if !(s.circH c).en || !(s.circH c).ingress || (s.circH c).cstate != 3 then s
    else s.each cells.zipIdx fun s q =>
      let h := s.circH c
      let sq := (f.seq + q.2) % 65536
      let n := (sq + 65536 - h.seqIn) % 65536
      if 32768 ≤ n then (s.noteCirc c 0x318 27 16 h.dup 1).setCirc c { h with dup := satAdd 4095 h.dup 1 }
      else
        let gap := n
        let s := (s.noteCirc c 0x31C 31 0 h.lost gap).setCirc c { h with seqIn := (sq + 1) % 65536, lost := satAdd 0xFFFFFFFF h.lost gap }
        let s := if gap = 0 then s
          else
            let s := s.setCirc c { s.circH c with freed := ((s.circH c).freed + gap) % 2 ^ 32 }
            match s.entryOf (srcKey 4 c) with
            | some _ => s.sourceOffer (srcKey 4 c) { gap := true, count := gap, cause := 2, acceptedAt := t, port := 0xFFFF }
            | none => s
        s.circCell c q.1 t
  | (_, _, s) => s

/-- NORMAL_FLUSH (spec/19 R504): 2 µs after its first cell a frame leaves. -/
def normalFlush (c t : Nat) (s : State) : State :=
  let s := s.upTo t
  let h := s.circH c
  if !h.tx.isEmpty && decide (h.txAt + 2 * cyclesPerUs ≤ t) then s.circFlush c else s

/-- CREDIT (spec/19 R520): the far side's count of cells freed. -/
def credit (f : RFrame) (freed t : Nat) (s : State) : State :=
  let (ok, s) := (s.upTo t).ropeRecv f
  if !ok then s else
  match s.ropeArrive f 0x11 [freed] with
  | (some .here, _, s) =>
    let c := f.arg % 4096
    let h := s.circH c
    if h.en && !h.ingress && h.cstate == 3 then s.setCirc c { h with freedSeen := freed % 2 ^ 32 } else s
  | (_, _, s) => s

/-- CREDIT_SEND (spec/19 R520): after 16 cells freed, or 10 µs while the count has changed. -/
def creditSend (c t : Nat) (s : State) : State :=
  let s := s.upTo t
  let h := s.circH c
  let n := (h.freed + 2 ^ 32 - h.freedTold) % 2 ^ 32
  if h.en ∧ h.ingress ∧ h.cstate = 3 ∧ (16 ≤ n ∨ (0 < n ∧ h.toldAt + 10 * cyclesPerUs ≤ t)) then
    let s := s.setCirc c { h with freedTold := h.freed, toldAt := t }
    (s.ropeSend 0x11 h.path h.rcirc 0 [h.freed]).2
  else s

/-! Team status and time. -/

/-- Pages that show FAULT. -/
def State.faultPages (s : State) : Nat := (s.regs.filter fun q => q.1 % 4096 == oStatus && bit q.2.toNat 2).length

/-- This module's own counts (spec/19 R524). -/
def State.ownStat (s : State) : TeamStat :=
  let lv (v : Nat) : Nat := (s.slots.filter fun q => q.2.on && q.2.level == v).length
  { mods := 1, faults := min 1 s.faultPages,
    tripped := (s.souts.filter fun q => q.2.dies.any fun d => d.st == 4).length,
    danger := lv 2, alert := lv 1, unlocked := b2n (!s.getB pgRopeL 0x060 28) }

def addStat (a b : TeamStat) : TeamStat :=
  ⟨a.mods + b.mods, a.faults + b.faults, a.tripped + b.tripped, a.danger + b.danger, a.alert + b.alert, a.unlocked + b.unlocked⟩

/-- ROPE_STATUS (spec/19 R524): a member's counts reach the leader of T_i. -/
def ropeStatus (f : RFrame) (serial : Nat) (st : TeamStat) (t : Nat) (s : State) : State :=
  let (ok, s) := (s.upTo t).ropeRecv f
  let i := f.arg
  if !ok || decide (s.ropeDepth ≤ i) then s
  else if s.leads i then
    let h := s.teamH i
    s.setTeam i { h with stats := (serial, st) :: h.stats.filter fun q => q.1 != serial }
  else if f.hops = 0 then s.bump (pgRope f.port) 0x064 31 16
  else s.each ((s.towardLeader i).filter (· != f.port)) fun s r =>
    s.ropeEmit r 0x07 (f.hops - 1) [] [] i 0 [serial, st.mods, st.faults, st.tripped, st.danger, st.alert, st.unlocked]

/-- STATUS_SEND (spec/19 R524): every 10 ms each module reports to its leaders; a leader sums its members and distributes the summary. -/
def statusSend (t : Nat) (s : State) : State :=
  let s := s.upTo t
  if s.dstate = 0 then s else
  s.each (List.range s.ropeDepth) fun s i =>
    let own := s.ownStat
    if s.leads i then
      let h := s.teamH i
      let stats := (s.ropeSerial, own) :: h.stats.filter fun q => q.1 != s.ropeSerial
      let s := s.setTeam i { h with stats := stats }
      let sum := stats.foldl (fun (a : TeamStat) q => addStat a q.2) ⟨0, 0, 0, 0, 0, 0⟩
      let w (a b : Nat) : Nat := min 0xFFFF a * 65536 + min 0xFFFF b
      let p := pgTeam i
      let s := ((s.wr p 0x05C (w sum.mods sum.faults)).wr p 0x060 (w sum.tripped sum.danger)).wr p 0x064 (w sum.alert sum.unlocked)
      s.sendLabels i (s.portsAt i)
    else s.ropeFlood (s.towardLeader i) 0x07 i [s.ropeSerial, own.mods, own.faults, own.tripped, own.danger, own.alert, own.unlocked]

/-- The upstream port (spec/19 R525): none at the time master. -/
def State.upstream (s : State) : Option Nat :=
  if s.leads 0 then none
  else match s.routeVia 0 0 false with
    | .port r => some r
    | _ => none

/-- Team time of a cycle, in sixteenths (spec/19 R525). -/
def State.teamTime (s : State) (t : Nat) : Int := 16 * (t : Int) + toS 64 (s.rd64 pgRopeL 0x068)

def State.setTlock (s : State) (v : Bool) : State := s.setB pgRopeL 0x060 28 v

/-- TIME (spec/19 R525, R526): a downstream neighbour's request is answered with its arrival and this end's time; a reply with the neighbour's stamps `t2` and `t3`, in sixteenths of team time, gives delay and offset. -/
def timeFrame (f : RFrame) (reply : Bool) (t2 t3 : Int) (t : Nat) (s : State) : State :=
  let (ok, s) := (s.upTo t).ropeRecv f
  if !ok then s else
  let r := f.port
  let p := pgRope r
  if !reply then s.ropeEmit r 0x13 15 [] [] 1 0 [ofS 64 (s.teamTime t), ofS 64 (s.teamTime t)]
  else if s.upstream ≠ some r ∨ (s.ropeH r).answered then s
  else
    let h := s.ropeH r
    let t1 := s.teamTime h.tTime; let t4 := s.teamTime t
    let round := (t4 - t1) - (t3 - t2)
    let rounds := (round :: h.rounds).take 16
    let delay := rounds.foldl (· + ·) 0 / (2 * rounds.length) + toS 32 (s.rd p 0x050) / 2
    let ofs := t2 - (t1 + delay)
    let abs := ofs.natAbs
    let good := if abs ≤ 192 then h.good + 1 else 0
    let bad := if 240 < abs then h.bad + 1 else 0
    let s := s.setRope r { h with answered := true, missed := 0, good := good, bad := bad, rounds := rounds }
    let s := (s.wr p 0x054 (ofS 32 delay)).wr p 0x058 (ofS 32 (satS 32 ofs))
    let s := s.wr64 pgRopeL 0x068 (ofS 64 (toS 64 (s.rd64 pgRopeL 0x068) + ofs))
    if s.getB pgRopeL 0x060 28 then (if 2 ≤ bad ∨ 2400 < abs then s.setTlock false else s)
    else if 8 ≤ good then s.setTlock true else s

/-- TIME_EXCHANGE (spec/19 R525, R526): every 1 ms on the upstream port; ten exchanges missed unlock. The time master's ROPE_TOFS is 0. -/
def timeExchange (t : Nat) (s : State) : State :=
  let s := s.upTo t
  match s.upstream with
  | none =>
    if s.leads 0 then (s.wr64 pgRopeL 0x068 0).setTlock true
    else
      let n := (s.teamH 0).noUp + 1
      let s := s.setTeam 0 { s.teamH 0 with noUp := n }
      if 10 ≤ n then s.setTlock false else s
  | some r =>
    let s := s.setTeam 0 { s.teamH 0 with noUp := 0 }
    let h := s.ropeH r
    let missed := if h.answered then 0 else h.missed + 1
    let s := s.setRope r { h with tTime := t, answered := false, missed := missed, good := if h.answered then h.good else 0 }
    let s := if 10 ≤ missed then s.setTlock false else s
    s.ropeEmit r 0x13 15 [] [] 0 0 [ofS 64 (s.teamTime t)]

/-- Exports tracks on their circuit at the broadcast that completes a period of 1,024 × 2^DIV (spec/19 R527). -/
def State.trackExport (s : State) (t : Nat) : State :=
  let p := pgRopeL
  if !s.enabled p || !s.getB p 0x080 31 || (t / 64) % (1024 * 2 ^ s.fld p 0x080 30 28) != 0 then s else
  let c := s.fld p 0x080 11 0
  let mask := s.rd64 p 0x078
  match s.bcast.find? fun b => b.1 == t with
  | none => s
  | some (_, recs) =>
    s.each ((List.range 64).filter fun k => bit mask k) fun s k =>
      let r := recs.getD k {}
      let h := s.circH c
      if h.cstate = 3 ∧ 0 < h.credit ∧ !h.ingress then
        let pay := k + r.tq % 256 * 2 ^ 8 + b2n (!s.getB p 0x060 28) * 2 ^ 16 + r.rate * 2 ^ 32 + ofS 64 r.pos * 2 ^ 64 +
          r.accel * 2 ^ 128 + r.jerk * 2 ^ 160 + ofS 64 (s.teamTime t / 16) * 2 ^ 192
        s.circPush c 0 { fmt := 0, nvalid := 32, chan := 0xFFFF, payload := pay }
      else s.bump p 0x080 27 16

/-- BROADCAST (spec/03 R70, spec/19 R527): the estimator's instant, then the track export. -/
def broadcastAll (t : Nat) (loops : List (Nat × Nat)) (bad : List Nat) (s : State) : State :=
  let due := match s.lastBcast with
    | some l => decide (l + 64 ≤ t)
    | none => true
  let s' := broadcast t loops bad s
  if due then s'.trackExport t else s'

/-! Bivouac (spec/19 R528). -/

/-- Entering bivouac: ports with KEEP go to MODE 3 and keep alive, the others go off. -/
def State.ropeBivouac (s : State) : State :=
  s.each ((List.range 16).filter fun r => s.enabled (pgRope r)) fun s r =>
    if s.getB (pgRope r) 0x040 28 then
      let s := if 3 ≤ s.lstate r ∧ s.lstate r ≤ 5 then s.sendHello r else s
      if s.lstate r = 4 then (s.setLstate r 5).ropeCircs else s
    else s.ropeDown r 0

/-- Leaving it: every port returns to its MODE. -/
def State.ropeWake (s : State) : State :=
  s.each ((List.range 16).filter fun r => s.enabled (pgRope r)) fun s r =>
    if s.lstate r = 5 then (if (s.ropeH r).peerBiv then s else (s.setLstate r 4).ropeCircs)
    else if s.lstate r = 0 then s.ropeEnable r else s

end Sys2Proof.Machine
end

