-- ==== Sys2Proof/Machine/Sout.lean ====
section
/-! DEFINITION. The drive blocks and safety outputs (spec/09 R264–R284, spec/21 R574–R577). -/

namespace Sys2Proof.Machine

def State.soutH (s : State) (o : Nat) : SoutH := sget (fun _ => {}) s.souts o
def State.setSout (s : State) (o : Nat) (h : SoutH) : State := { s with souts := sput (fun _ => {}) o h s.souts }
def SoutH.die (h : SoutH) (d : Nat) : SoDie := h.dies.getD d {}
def SoutH.setDie (h : SoutH) (d : Nat) (x : SoDie) : SoutH := { h with dies := setAt h.dies d x }
def SoutH.member (h : SoutH) (m : Nat) : SoMem := h.mem.getD m {}

/-- Armed: NORMAL, DELAYING or TRIPPED (spec/09 SOUT_DB_ARMED). -/
def armed (st : Nat) : Bool := st == 2 || st == 3 || st == 4

/-- SOUT_CFG fields. -/
def State.soCfg (s : State) (o hi lo : Nat) : Nat := s.fld (pgSout o) 0x040 hi lo
/-- Members and inputs of an output. -/
def State.soCount (s : State) (o : Nat) : Nat := s.fld (pgSout o) 0x044 31 30
def State.soTile (s : State) (o m : Nat) : Nat := s.fld (pgSout o) 0x044 (8 * m + 6) (8 * m)
def State.soVage (s : State) (o : Nat) : Nat := s.fld (pgSout o) 0x050 15 0 * cyclesPerUs

/-- A bit of a register of a drive-block page that has one bit for each output. -/
def State.dbBit (s : State) (d off o : Nat) (b : Bool) : State := s.setB (pgSoutD d) (off + 4 * (o / 32)) (o % 32) b

/-- Shows the drive blocks' states: SOUT_STATUS, the drive-block maps, and PAGE_STATUS as the worse of the two (spec/09 R272). -/
def State.soShow (s : State) (o : Nat) : State :=
  let p := pgSout o
  let h := s.soutH o
  let a := h.die 0; let b := h.die 1
  let s := (s.setFld p 0x064 31 29 a.st).setFld p 0x064 28 26 b.st
  let s := ((s.setB p 0x064 25 h.dem).setB p 0x064 21 h.diff).setFld p 0x064 24 22 (b2n (h.member 0).fresh + 2 * b2n (h.member 1).fresh + 4 * b2n (h.member 2).fresh)
  let s := (((s.setB p 0x064 5 a.rb).setB p 0x064 4 b.rb).setB p 0x064 3 h.cur).setB p 0x064 2 (a.test.isSome || b.test.isSome)
  let s := s.each [0, 1] fun s d =>
    let x := h.die d
    ((s.dbBit d 0x048 o (x.st != 0 && x.st != 1)).dbBit d 0x050 o x.cmd).dbBit d 0x058 o x.rb
  if s.retired p || (s.pageH p).resetting then s
  else if a.st = 5 ∨ b.st = 5 then
    (s.setStatus p false false true false).setFld p oStatus 15 8 (if a.st = 5 then a.code else b.code)
  else if armed a.st ∧ armed b.st then s.setStatus p true false false false
  else if a.st = 0 ∧ b.st = 0 then s.setStatus p false false false false
  else s.setStatus p false true false false

/-- The commanded switch of a die (spec/09 R272 drive table), inverted by a running test (R277). -/
def State.soDrive (s : State) (o d : Nat) : State :=
  let h := s.soutH o
  let x := h.die d
  let want := (if s.soCfg o 29 29 = 0 then x.st == 2 || x.st == 3 else x.st == 4) != x.test.isSome
  if want = x.cmd then s
  else s.setSout o (h.setDie d { x with cmd := want, cmdT := s.now, limited := x.limited && want })

/-- Fills or counts in the first-out record of a die (spec/09 R284). -/
def State.firstOut (s : State) (o d : Nat) : State :=
  let g := s.soCfg o 20 17
  if g = 0 then s
  else
    let p := pgSoutD d
    let off := 0x100 + 16 * (g - 1)
    if s.getB p (off + 8) 24 then s.bump p (off + 12) 31 0
    else
      let st := s.rd (pgSout o) 0x064
      (s.wr64 p off s.now).wr p (off + 8) (o + bits st 15 13 * 2 ^ 8 + bits st 18 16 * 2 ^ 16 + 2 ^ 24)

/-- Records an entry to TRIPPED (spec/09 SOUT_TRIPS, SOUT_TRIP_T, SOUT_TRIP_IN; spec/20 R539): the page's record is die 0's, first-out each die's. -/
def State.soTrip (s : State) (o d ds : Nat) : State :=
  let p := pgSout o
  let s := s.firstOut o d
  if d ≠ 0 ∧ s.ready (pgSoutD 0) then s
  else
    let st := s.rd p 0x064
    let m := s.rd p 0x058
    let tin := (if bit m 31 then bits m 15 8 else 0) * 2 ^ 16 + bits st 24 22 * 2 ^ 12 + s.fld p 0x05C 2 0 * 2 ^ 8 + bits st 18 16 * 2 ^ 4 + bits st 15 13
    let s := ((s.bump p 0x070 31 0).wr64 p 0x0C0 s.now).wr64 p 0x0C8 ds
    ((s.wr p 0x0D0 tin).irq p 17).logEvent 0x0040 3 p (o + tin * 2 ^ 8)

/-- A drive block's output changes state (spec/09 R272). -/
def State.soSet (s : State) (o d st : Nat) (code : Nat := 0) : State :=
  let h := s.soutH o
  let x := h.die d
  if x.st = st then s
  else
    let p := pgSout o
    let period := max 1 (s.fld p 0x054 27 16) * cyclesPerS
    let x' := { x with st := st, since := s.now, relT := none, code := if st = 5 then code else x.code }
    let x' := if x.st = 1 ∧ armed st then { x' with due := s.now + period + d * (period / 2) } else x'
    let x' := if st = 2 ∨ st = 4 then x' else { x' with test := none, ptReq := if st = 0 then none else x.ptReq }
    let s := (s.setSout o (h.setDie d x')).irq p 16
    let s := if st = 4 then s.soTrip o d (if x.st = 3 then x.ds else s.now) else s
    let s := if st = 5 then s.logEvent 0x0042 3 p (o + code * 2 ^ 8 + d * 2 ^ 16) else s
    (s.soDrive o d).soShow o

/-- A fault of an output in a drive block; one that is OFF keeps its state, one in FAULT takes the new cause (spec/09 R272). -/
def State.soFault (s : State) (o d code : Nat) : State :=
  let h := s.soutH o
  let x := h.die d
  if x.st = 0 then s
  else if x.st = 5 then (s.setSout o (h.setDie d { x with code := code })).soShow o
  else s.soSet o d 5 code

/-- What a drive block that stops leaves of an output: its switch opens, whatever it last read back, and no current flows (spec/01 R22, spec/09 R274). -/
def State.soOpen (s : State) (o d : Nat) : State :=
  let h := s.soutH o
  (s.setSout o { (h.setDie d { h.die d with rb := false }) with cur := false }).soShow o

/-- ENABLE written 1: a drive block that is OFF goes to WAITING; where both are, members count from here, and their last accepted words stand (spec/09 R265, R266, R272). -/
def State.soEnable (s : State) (o : Nat) : State :=
  let h := s.soutH o
  let s := if (h.die 0).st = 0 ∧ (h.die 1).st = 0 then
      s.setSout o { h with mem := h.mem.map fun m => { m with got := false, run := 0, fresh := false }, div := none, diff := false, dem := false }
    else s
  let go (s : State) (d : Nat) : State := if ((s.soutH o).die d).st = 0 then s.soSet o d 1 else s
  go (go s 0) 1

/-- ENABLE written 0: both drive blocks de-energise and go OFF; SUBST is cleared. -/
def State.soDisable (s : State) (o : Nat) : State :=
  (((s.soSet o 0 0).soSet o 1 0).setB (pgSout o) 0x064 19 false).soShow o

/-- A vote word arrives at the drive blocks (spec/09 R264, R265, spec/10 R289). -/
def State.voteArrive (s : State) (o m word : Nat) (w : Writer) : State :=
  let tile := match w with
    | .tile t c => if (s.tileH t).mode ≤ 1 ∧ c = 0 then some t else none
    | _ => none
  let h := s.soutH o
  s.setSout o { h with arrive := h.arrive ++ [⟨m, word % 2 ^ 64, tile⟩] }

/-- Takes one arrived vote word (spec/09 R265, R273). -/
def State.voteTake (s : State) (o : Nat) (v : VoteIn) : State :=
  let p := pgSout o
  let h := s.soutH o
  if ¬ (v.place < s.soCount o ∧ v.tile = some (s.soTile o v.place)) then s.bump p 0x068 23 16
  else
    let m := h.member v.place
    let seq := bits v.word 47 40
    let last := bits m.word 47 40
    if m.has ∧ seq = last then s.bump p 0x068 15 8
    else
      let next := seq = (last + 1) % 256
      let s := if m.has ∧ ¬ next then s.bump p 0x068 15 8 else s
      let run := if m.got ∧ next ∧ s.now ≤ m.t + s.soVage o then min 4 (m.run + 1) else 1
      let s := s.setSout o { h with mem := setAt h.mem v.place ⟨true, true, v.word, s.now, run, m.fresh⟩ }
      (s.wr64 p (0x080 + 8 * v.place) v.word).wr64 p (0x098 + 8 * v.place) s.now

/-- Whether a member is fresh: its last accepted word, one since arming, is younger than SOUT_VAGE (spec/09 R266). -/
def State.memFresh (s : State) (o m : Nat) : Bool :=
  let x := (s.soutH o).member m
  decide (m < s.soCount o) && x.got && decide (s.now < x.t + s.soVage o)

/-- Brings a member's freshness up to date; one that ceases counts in STALE and raises bit 18. -/
def State.memUpdate (s : State) (o m : Nat) : State :=
  let h := s.soutH o
  let x := h.member m
  let f := s.memFresh o m
  let s := if x.fresh && !f then (s.bump (pgSout o) 0x068 31 24).irq (pgSout o) 18 else s
  s.setSout o { h with mem := setAt h.mem m { x with fresh := f } }

/-- The vote of a member as the blocks use it: its word's STATE, or the safe vote A = D = 1, N = 0 on every input. -/
def State.memVote (s : State) (o m : Nat) : Nat := if s.memFresh o m then ((s.soutH o).member m).word % 2 ^ 9 else 0x0DB

/-- What the evaluation of spec/09 R269 finds: demand, NOVOTE, and per input the combined N, D, A. -/
structure Eval where
  demand : Bool
  novote : Bool
  nok : Nat
  dng : Nat
  alt : Nat
  deriving DecidableEq, Repr

/-- The table of spec/09 R269: how many remaining inputs must demand; none for EMPTY, `some 99` for never. -/
def needed (scheme r deg2 deg3 : Nat) : Option Nat :=
  if r = 0 then none
  else match scheme with
    | 0 => some 1
    | 1 => some 1
    | 2 => some (if r = 2 then 2 else if deg2 = 0 then 1 else 99)
    | _ => some (if r = 3 then 2 else if r = 2 then (if deg3 = 0 then 1 else 2) else 1)

/-- The evaluation of one output (spec/09 R269). -/
def evalOutput (cfg byp : Nat) (votes : List Nat) : Eval :=
  let scheme := bits cfg 31 30
  let n := match scheme with
    | 0 => 1
    | 1 => 2
    | 2 => 2
    | _ => 3
  let k := if bit cfg 27 then votes.length / 2 + 1 else 1
  let comb (b : Nat) : Bool := decide (k ≤ (votes.filter fun v => bit v b).length)
  let ins := List.range n
  let nok := fun j => comb (3 * j + 2)
  let notokRemove := bit cfg 25
  let removed := fun j => bit byp j || (nok j && notokRemove)
  let force := fun j => nok j && !notokRemove && !bit byp j
  let hit := fun j => if bit cfg 28 then comb (3 * j) || force j else comb (3 * j + 1) || force j
  let left := ins.filter fun j => !removed j
  let hits := (left.filter hit).length
  let mapOf (f : Nat → Bool) : Nat := ins.foldl (fun a j => a + b2n (f j) * 2 ^ j) 0
  let (dem, nov) := match needed scheme left.length (bits cfg 24 24) (bits cfg 23 23) with
    | some q => (decide (q ≤ hits), false)
    | none =>
      let byN := bit cfg 22 && ins.any fun j => nok j && notokRemove && !bit byp j
      (byN, !byN)
  ⟨dem, nov, mapOf nok, mapOf fun j => comb (3 * j + 1), mapOf fun j => comb (3 * j)⟩

/-- Whether the group of an output is ready, and whether its CFGSUMs differ (spec/09 R273, R284). -/
def State.groupReady (s : State) (o : Nat) : Bool × Bool :=
  let ms := List.range (s.soCount o)
  let h := s.soutH o
  let sums := (ms.filter fun m => (h.member m).got).map fun m => bits (h.member m).word 63 48
  let diff := sums.any fun c => c != sums.headD 0
  let ok := ms.all fun m =>
    let t := s.soTile o m
    s.ready (pgTile t) && decide ((s.tileH t).mode ≤ 1) && decide (4 ≤ (h.member m).run)
  (ok && !diff && s.ready (pgSoutD 0) && s.ready (pgSoutD 1), diff)

/-- The multiplier of an output at a tick (spec/09 R271). -/
def State.multTick (s : State) (o : Nat) : State :=
  let p := pgSout o
  let m := s.rd p 0x058
  let h := s.soutH o
  let want := bit m 30 || (bit m 29 && s.getB (pgTrkIn (bits m 21 16)) 0x05C 0)
  if bit m 31 then
    if !want then ((s.setB p 0x058 31 false).irq p 22).setSout o { h with multOut := false }
    else if h.multT + bits m 7 0 * cyclesPerS ≤ s.now then ((s.setB p 0x058 31 false).irq p 22).setSout o { h with multOut := true }
    else s
  else if !want then s.setSout o { h with multOut := false }
  else if h.multOut then s
  else ((s.setB p 0x058 31).irq p 22).setSout o { h with multT := s.now }

/-- The place of a writer in the order of spec/02 R35. -/
def writerRank (w : Writer) : Nat :=
  match w with
  | .basecamp => 0
  | .tile t _ => 1 + t
  | .rope => 129
  | .debug => 130

/-- A write put in its writer's place among others, behind those of the same writer. -/
def putByRank (e : Nat × Nat × Writer) : List (Nat × Nat × Writer) → List (Nat × Nat × Writer)
  | [] => [e]
  | f :: l => if writerRank f.2.2 ≤ writerRank e.2.2 then f :: putByRank e l else e :: f :: l

/-- Applies the writes to SOUT_BYP and SOUT_MULT that wait for the tick; in the order of their writers (spec/02 R35); answers the SOUT_CTRL bits written (spec/09 R268, R270). -/
def State.soWrites (s : State) (o : Nat) : Nat × State :=
  let p := pgSout o
  let h := s.soutH o
  let s := s.setSout o { h with writes := [] }
  (h.writes.foldl (fun l e => putByRank e l) []).foldl (fun (acc : Nat × State) w =>
    let (c, s) := acc
    if w.1 = 0x060 then (c ||| w.2.1 % 8, s)
    else if w.1 = 0x05C then
      let old := s.fld p 0x05C 2 0
      let new := w.2.1 % 8
      if old = new then (c, s)
      else
        let by_ := match w.2.2 with
          | .tile t _ => t
          | _ => 0xFF
        (c, ((s.setFld p 0x05C 2 0 new).irq p 20).logEvent 0x0041 3 p (o + old * 2 ^ 8 + new * 2 ^ 16 + by_ * 2 ^ 24))
    else (c, s.wr p 0x058 (setBits w.2.1 31 31 (s.fld p 0x058 31 31)))) (0, s)

/-- A pulse test that a demand ends, without result (spec/09 R278). -/
def State.testCut (s : State) (o d : Nat) : State :=
  let h := s.soutH o
  let s := s.setSout o (h.setDie d { h.die d with test := none, ptReq := none })
  (s.setFld (pgSout o) 0x06C (2 * d + 1) (2 * d) 3).bump (pgSout o) 0x068 7 4

/-- The end of a pulse test: 1 pass, 2 fail (spec/09 R277). -/
def State.testEnd (s : State) (o d res : Nat) : State :=
  let p := pgSout o
  let h := s.soutH o
  let x := h.die d
  let s := s.setSout o (h.setDie d { x with test := none, ptReq := none })
  let s := s.setFld p 0x06C (2 * d + 1) (2 * d) res
  let s := if res = 1 then (s.bump p 0x06C 31 16).wr64 p 0x078 s.now else s.irq p 21
  (s.soDrive o d).soShow o

/-- A pulse test starts where one is due or asked for, and allowed; a wait past PERIOD is counted, once for each PERIOD, whatever state the output has been in since it was armed (spec/09 R277, R278). A test asked for with PT_NOW waits in every state; OFF ends its wait (DESIGN CHOICE, log entry 168). -/
def State.testStart (s : State) (o d : Nat) : State :=
  let p := pgSout o
  let h := s.soutH o
  let x := h.die d; let y := h.die (1 - d)
  let period := max 1 (s.fld p 0x054 27 16) * cyclesPerS
  let sched := s.getB p 0x054 31 && x.st != 0 && x.st != 1 && decide (x.due ≤ s.now)
  if !x.test.isNone || !(sched || x.ptReq.isSome) then s
  else if (x.st = 2 ∨ x.st = 4) ∧ x.since + 10 * cyclesPerMs ≤ s.now ∧ y.test.isNone ∧ ¬ (d = 1 ∧ y.ptReq.isSome) then
    let due := if sched then x.due + ((s.now - x.due) / period + 1) * period else x.due
    ((s.setSout o (h.setDie d { x with test := some s.now, due := due })).soDrive o d).soShow o
  else
    let late := fun t => decide (t + period ≤ s.now)
    let a := sched && late x.due; let b := x.ptReq.any late
    let s := if a || b then s.setSout o (h.setDie d { x with due := if a then x.due + period else x.due, ptReq := if b then x.ptReq.map (· + period) else x.ptReq }) else s
    let s := if a then (s.bump p 0x06C 15 8).irq p 21 else s
    if b then (s.bump p 0x06C 15 8).irq p 21 else s

/-- The time-driven rows of spec/09 R272 for one drive block: a trip delay or a release delay that has passed. -/
def State.soDelays (s : State) (o d : Nat) : State :=
  let x := (s.soutH o).die d
  let p := pgSout o
  if x.st = 3 ∧ (s.soutH o).dem ∧ x.ds + s.rd p 0x048 * 10 * cyclesPerUs ≤ s.now then s.soSet o d 4
  else match x.relT with
    | some t => if x.st = 4 ∧ s.soCfg o 26 26 = 0 ∧ !(s.soutH o).dem ∧ t + s.rd p 0x04C * 10 * cyclesPerUs ≤ s.now then s.soSet o d 2 else s
    | none => s

/-- One drive block evaluates one output (spec/09 R272): `ctrl` holds the commands taken at this tick, `rise` whether demand has just begun. -/
def State.soDie (s : State) (o d ctrl : Nat) (ready rise : Bool) : State :=
  let h := s.soutH o
  let dem := h.dem
  let x := h.die d
  -- a demand ends a running test without result (R278); the switch follows once the rows are taken
  let s := if x.test.isSome ∧ rise then s.testCut o d else s
  let s := if x.st = 1 ∧ ready then s.soSet o d (if dem then 4 else 2) else s
  let s :=
    let h := s.soutH o
    let x := h.die d
    if x.st = 2 ∧ dem then
      if s.rd (pgSout o) 0x048 = 0 then s.soSet o d 4
      else (s.setSout o (h.setDie d { x with ds := s.now })).soSet o d 3
    else if x.st = 3 ∧ !dem then s.soSet o d 2
    else s
  let s :=
    let h := s.soutH o
    let x := h.die d
    if x.st = 4 then s.setSout o (h.setDie d { x with relT := if dem then none else some (x.relT.getD s.now) }) else s
  let s := s.soDelays o d
  let x := (s.soutH o).die d
  let s := if x.st = 4 ∧ bit ctrl 0 ∧ !dem ∧ s.soCfg o 26 26 = 1 then s.soSet o d 2 else s
  let x := (s.soutH o).die d
  let s := if x.st = 5 ∧ bit ctrl 1 ∧ !x.rb then s.soSet o d 1 else s
  (s.soDrive o d).testStart o d

/-- A switch's state from the voltage across it in mV (spec/21 R576): conducting below 1.0 V, not conducting above 3.0 V, between the two the opposite of its command. -/
def switchReads (cmd : Bool) (mv : Nat) : Bool := if mv < 1000 then true else if 3000 < mv then false else !cmd

/-- The load current in µA as it reads (spec/21 R576): present at 5 mA and above, absent at 2 mA and below, between the two as before. -/
def loadReads (before : Bool) (ua : Nat) : Bool := if 5000 ≤ ua then true else if ua ≤ 2000 then false else before

/-- The readback of an output at a tick (spec/09 R275, spec/21 R576, R577): each running block reads its switch and, apart from it, the load current. `dev` gives the voltage across a die's switch and `load` the load current where they are not what the commands make them: without them a switch reads as commanded and a load whose switches both conduct carries current (R22). A field supply below 15 V reads both switches as not conducting. -/
def State.soReadback (s : State) (o : Nat) (dev : List (Nat × Nat)) (load : Option Nat) : State :=
  let dead := s.bcp.fldLow.contains (o / 16)
  let s := s.each ([0, 1].filter fun d => s.ready (pgSoutD d)) fun s d =>
    let h := s.soutH o
    let x := h.die d
    let rb := match dev.find? fun q => q.1 == d with
      | some q => switchReads x.cmd q.2
      | none => x.cmd
    s.setSout o (h.setDie d { x with rb := rb && !x.limited && !dead })
  let h := s.soutH o
  let cur := match load with
    | some ua => loadReads h.cur ua
    | none => (h.die 0).rb && (h.die 1).rb
  s.setSout o { h with cur := cur }

/-- The evaluation of one output at a tick (spec/09 R268–R273): `ctrl` holds the SOUT_CTRL commands taken at the tick. -/
def State.soTick (s : State) (o ctrl : Nat) (dev : List (Nat × Nat)) (load : Option Nat) : State :=
  let s := s.soReadback o dev load
  let s := s.each (List.range (s.soCount o)) fun s m => s.memUpdate o m
  let e := evalOutput (s.rd (pgSout o) 0x040) (s.fld (pgSout o) 0x05C 2 0) ((List.range (s.soCount o)).map fun m => s.memVote o m)
  let (ready, diff) := s.groupReady o
  let h := s.soutH o
  let rise := e.demand && !h.dem
  let s := if diff && !h.diff && (armed (h.die 0).st || armed (h.die 1).st) then s.irq (pgSout o) 19 else s
  let ask (x : SoDie) : SoDie := if x.st = 0 then x else { x with ptReq := some (x.ptReq.getD s.now) }
  let h := { h with dem := e.demand, diff := diff, dies := if bit ctrl 2 then h.dies.map ask else h.dies }
  let s := s.setSout o h
  let s := ((s.setB (pgSout o) 0x064 20 e.novote).setFld (pgSout o) 0x064 18 16 e.nok).setFld (pgSout o) 0x064 15 10 (e.dng * 8 + e.alt)
  let s := s.soShow o
  let s := s.each ([0, 1].filter fun d => s.ready (pgSoutD d)) fun s d => s.soDie o d ctrl ready rise
  let h := s.soutH o
  -- the last row of R272: a block that is TRIPPED, perhaps by an earlier row of this tick, refuses RESET_TRIP
  let s := if bit ctrl 0 && e.demand && ((h.die 0).st == 4 || (h.die 1).st == 4) then s.bump (pgSout o) 0x068 3 0 else s
  s.setSout o { h with div := if (h.die 0).st = (h.die 1).st ∨ !s.ready (pgSoutD 0) ∨ !s.ready (pgSoutD 1) then none else some (h.div.getD s.now) } |>.soShow o

/-- A voltage across a switch at a tick that its command does not make: output, die, mV. -/
abbrev SwitchDev : Type := Nat × Nat × Nat

/-- PEER_UP and TICKING of both drive blocks. -/
def State.dbStat (s : State) : State :=
  s.each [0, 1] fun s d => (s.setB (pgSoutD d) 0x040 31 (s.ready (pgSoutD (1 - d)))).setB (pgSoutD d) 0x040 30 (s.ready (pgSoutD d))

/-- DRIVE_TICK (spec/09 R268): at a multiple of 3,000 cycles the drive blocks take the arrived votes, then the writes and the multipliers (R271), then evaluate every output, in ascending order. -/
def driveTick (dev : List SwitchDev) (loads : List (Nat × Nat)) (t : Nat) (s : State) : State :=
  let s := s.upTo t
  if t % 3000 ≠ 0 ∨ s.now ≠ t ∨ (!s.ready (pgSoutD 0) ∧ !s.ready (pgSoutD 1)) then s
  else
    let s := s.dbStat
    let s := s.each (List.range 64) fun s o =>
      let h := s.soutH o
      h.arrive.foldl (fun s v => s.voteTake o v) (s.setSout o { h with arrive := [] })
    let (ctrls, s) := (List.range 64).foldl (fun (q : List Nat × State) o =>
      let (ctrl, s) := q.2.soWrites o
      (q.1 ++ [ctrl], s.multTick o)) ([], s)
    s.each (List.range 64) fun s o => s.soTick o (ctrls.getD o 0) ((dev.filter fun q => q.1 == o).map (·.2)) ((loads.find? fun q => q.1 == o).map (·.2))

/-- TRIP_DELAY (spec/09 R272): demand has held for SOUT_TRIP_DLY. -/
def tripDelay (o d t : Nat) (s : State) : State :=
  let s := s.upTo t
  if ((s.soutH o).die d).st = 3 then s.soDelays o d else s

/-- RELEASE_DELAY (spec/09 R272): no demand has held for SOUT_REL_DLY. -/
def releaseDelay (o d t : Nat) (s : State) : State :=
  let s := s.upTo t
  if ((s.soutH o).die d).st = 4 then s.soDelays o d else s

/-- MEMBER_NOT_FRESH (spec/09 R266). -/
def memberNotFresh (o m t : Nat) (s : State) : State :=
  let s := s.upTo t
  if ((s.soutH o).member m).fresh then (s.memUpdate o m).soShow o else s

/-- MULTIPLIER_TIMEOUT (spec/09 R271): ACTIVE has been 1 for MAXT seconds. -/
def multiplierTimeout (o t : Nat) (s : State) : State :=
  let s := s.upTo t
  if s.getB (pgSout o) 0x058 31 ∧ (s.soutH o).multT + s.fld (pgSout o) 0x058 7 0 * cyclesPerS ≤ s.now then
    ((s.setB (pgSout o) 0x058 31 false).irq (pgSout o) 22).setSout o { s.soutH o with multOut := true }
  else s

/-- READBACK_MISMATCH (spec/09 R276): the switch of a die reads opposite to its command 100 µs after it. -/
def readbackMismatch (o d t : Nat) (s : State) : State :=
  let s := s.upTo t
  let h := s.soutH o
  let x := h.die d
  if x.st = 0 ∨ x.test.isSome ∨ t < x.cmdT + 100 * cyclesPerUs then s
  else (s.setSout o (h.setDie d { x with rb := !x.cmd })).soFault o d (1 + d)

/-- OPENLOAD (spec/09 R276): with OLDET = 1, both switches have conducted for 100 µs without load current. -/
def openLoad (o t : Nat) (s : State) : State :=
  let s := s.upTo t
  let h := s.soutH o
  let a := h.die 0; let b := h.die 1
  if s.soCfg o 21 21 = 1 ∧ a.cmd ∧ b.cmd ∧ a.cmdT + 100 * cyclesPerUs ≤ t ∧ b.cmdT + 100 * cyclesPerUs ≤ t then
    ((s.setSout o { h with cur := false }).soFault o 0 3).soFault o 1 3
  else s

/-- PULSE_TEST (spec/09 R277, R278). -/
def pulseTest (o d t : Nat) (s : State) : State :=
  let s := s.upTo t
  if d < 2 ∧ s.ready (pgSoutD d) then s.testStart o d else s

/-- PULSE_TEST_END (spec/09 R277): WIDTH has ended; `inverted` says whether the read-back state inverted before. -/
def pulseTestEnd (o d : Nat) (inverted : Bool) (t : Nat) (s : State) : State :=
  let s := s.upTo t
  match ((s.soutH o).die d).test with
  | none => s
  | some t0 =>
    if t < t0 + s.fld (pgSout o) 0x054 6 0 * 10 * cyclesPerUs then s
    else if inverted then s.testEnd o d 1
    else (s.testEnd o d 2).soFault o d (4 + d)

/-- DIVERGE (spec/09 R279): the two dies' states have differed for 1 ms. -/
def diverge (o t : Nat) (s : State) : State :=
  let s := s.upTo t
  match (s.soutH o).div with
  | some t0 => if t0 + cyclesPerMs ≤ t then (s.soFault o 0 6).soFault o 1 6 else s
  | none => s

/-- PEER (spec/09 R279): the link has been silent for 20 µs; every output that is not OFF faults on the surviving die. -/
def peer (d t : Nat) (s : State) : State :=
  let s := s.upTo t
  if d < 2 ∧ s.ready (pgSoutD d) then
    (s.each (List.range 64) fun s o => s.soFault o d 7).setB (pgSoutD d) 0x040 31 false
  else s

/-- DRIVE_BLOCK_FAULT (spec/09 R279): a drive block opens its switches and reports code 0x08. -/
def driveBlockFault (d t : Nat) (s : State) : State :=
  let s := s.upTo t
  if d < 2 ∧ s.ready (pgSoutD d) then
    ((s.each (List.range 64) fun s o => (s.soFault o d 8).soOpen o d).pageFault (pgSoutD d) 8).dbStat
  else s

/-- SWITCH_CURRENT_LIMIT (spec/21 R574): a switch in its current limit for 1 ms opens. -/
def switchCurrentLimit (o d t : Nat) (s : State) : State :=
  let s := s.upTo t
  let h := s.soutH o
  let x := h.die d
  if x.cmd then (s.setSout o ({ h.setDie d { x with limited := true, rb := false } with cur := false })).soShow o else s

/-- The drive block of a die loses its page: its switches open, and its outputs are OFF until ENABLE is written 1 (spec/09 R272, R274). -/
def State.dbOff (s : State) (d : Nat) : State :=
  (s.each (List.range 64) fun s o => (s.soSet o d 0).soOpen o d).dbStat

/-- Re-arms first-out groups (spec/09 R284). -/
def State.foReset (s : State) (d mask : Nat) : State :=
  s.each ((List.range 15).filter fun i => bit mask (i + 1)) fun s i =>
    (s.wr64 (pgSoutD d) (0x100 + 16 * i) 0).wr64 (pgSoutD d) (0x108 + 16 * i) 0

end Sys2Proof.Machine
end

