-- ==== Sys2Proof/Machine/Waypoints.lean ====
section
/-! DEFINITION. Waypoint units (spec/03 R86–R95). -/

namespace Sys2Proof.Machine

/-- A WPT page becomes READY again. -/
def State.wptReady (s : State) (c sub : Nat) : State :=
  s.each (((List.range 64).map (64 * sub + ·)).filter fun u => s.wptArmed c u) fun s u => s.wptStart c u

/-- Whether the condition of an armed unit holds at `t` (spec/03 R86). -/
def State.wptMet (s : State) (c u t : Nat) : Bool :=
  let d := s.wptDiff c u t
  match s.wptDir c u with
  | 0 => decide (0 ≤ d)
  | 1 => decide (d ≤ 0)
  | _ => decide (d = 0) || (match (s.wptH c u).sign with
    | some neg => neg != decide (d < 0)
    | none => false)

/-- Whether a unit evaluates: armed, its page READY, and in bivouac only a WAKE unit on track 0 (spec/03 R86, R91); OFF leaves it no power. -/
def State.wptLive (s : State) (c u : Nat) : Bool :=
  decide (c < 16) && decide (u < 128) && s.wptArmed c u && s.ready (pgWpt c u) && s.pstate' != 4 &&
    (s.pstate' != 2 || (bits (s.wptRd c u 8) 28 26 == 5 && s.wptTrack c u == 0))

/-- The fire of a unit (spec/03 R88–R92): counts, flags, FIRED, and the action; answers whether it wakes the module. -/
def State.wptAct (s : State) (c u t : Nat) (late deadline : Bool) : Bool × State :=
  let p := pgWpt c u
  let cfg := s.wptRd c u 8
  let arg := s.wptRd c u 0xC
  let tr := bits cfg 5 0
  let tq := s.trkTq tr
  let x := ofS 64 (s.trkX tr t)
  let jump := bit tq 4
  let deg := !(bits tq 2 0 == 2 || bits tq 2 0 == 3)
  let so := wptOff u 0x18
  let s := s.bump p so 31 16
  let s := if deg then s.raise p so 0 else s
  let s := if jump then s.raise p so 1 else s
  let s := if late then s.raise p so 2 else s
  let s := (s.raise p (0x840 + 4 * (u % 64 / 32)) (u % 32)).irq p 16
  match bits cfg 28 26 with
  | 1 =>
    let w0 := arg + x % 2 ^ 32 * 2 ^ 32
    let w1 := x / 2 ^ 32 + u * 2 ^ 32 + tq % 256 * 2 ^ 40 + (b2n late + 2 * b2n jump + 4 * b2n deg + 8 * b2n deadline) * 2 ^ 48
    let (ok, s) := s.relPush (8 * c + bits cfg 25 23) ⟨BitVec.ofNat 64 w0, BitVec.ofNat 64 w1⟩ (bit cfg 22)
    (false, if ok then s else s.raise p so 3)
  | 2 => (false, s.tfeSubmit c arg u)
  | 3 => (false, captureOpen (arg % 4096) s)
  | 4 => (false, captureClose (arg % 4096) s)
  | 5 => (true, s)
  | _ => (false, s)

/-- The smallest number of steps, at least 1, that leaves the condition of a difference `d` unmet, all in signed 64-bit arithmetic (spec/03 R87); none where no number does. -/
def wptStepsFor (fwd : Bool) (d : Int) (step : Nat) : Option Nat :=
  let half : Nat := 2 ^ 63
  let back := 2 ^ 64 - step
  if fwd then
    if step ≤ half then some (d.natAbs / step + 1) else some ((half - d.natAbs + back - 1) / back)
  else if step < half then some (d.natAbs / step + 1)
  else if step = half then (if 0 < d.natAbs ∧ d.natAbs < half then some 1 else none)
  else some ((half - d.natAbs) / back + 1)

/-- A condition fire at `t` of a unit that is live and met (spec/03 R86, R87). -/
def State.wptFire (s : State) (c u t : Nat) : Bool × State :=
  let p := pgWpt c u
  let d := s.wptDiff c u t
  let step := s.rd64 p (wptOff u 0x10)
  let pos := s.rd64 p (wptOff u 0)
  let h := s.wptH c u
  let fwd := s.wptDir c u == 0
  let either := s.wptDir c u == 2
  let (wake, s) := s.wptAct c u t h.first false
  let s := s.setWpt c u { s.wptH c u with dlT := t, first := false }
  if step = 0 ∨ either = true then (wake, s.setFld p (wptOff u 8) 31 31 0)
  else
    let (m, s) := match wptStepsFor fwd d step with
      | some m => (m, s)
      | none => let (k, s) := s.draw; ((Config.wptSteps (c * 128 + u) k).toNat, s)
    let new : Int := if fwd then pos + m * step else pos - m * step
    (wake, (s.wr64 p (wptOff u 0) (ofS 64 new)).bump p (wptOff u 0x18) 15 8 (m - 1))

/-- Whether the deadline of a unit is over at `t` (spec/03 R88). -/
def State.wptOver (s : State) (c u t : Nat) : Bool :=
  let us := s.wptRd c u 0x1C
  us != 0 && decide ((s.wptH c u).dlT + us * cyclesPerUs ≤ t)

/-- One unit at `t`: its condition fire where the condition is met, else its deadline fire where the deadline is over (spec/03 R86–R88). -/
def State.wptOne (s : State) (c u t : Nat) : Bool × State :=
  if !s.wptLive c u then (false, s)
  else if s.wptMet c u t then s.wptFire c u t
  else if s.wptOver c u t then
    let (wake, s) := s.wptAct c u t true true
    (wake, s.setWpt c u { s.wptH c u with dlT := t })
  else (false, s)

/-- One unit at `t`, a write of the same cycle held against it (spec/03 R94): the unit fires on the values from before the write and acts; the written values stand. In the cycle that arms it nothing is evaluated. -/
def State.wptCycle (s : State) (c u t : Nat) : Bool × State :=
  let s := s.wptFirst c u t
  let h := s.wptH c u
  if h.wrT = some t then
    if h.fireT = some t then (false, s) else
    let now := s.wptWords c u
    let (wake, s) := (s.wptPut c u h.old).wptOne c u t
    let s := s.wptPut c u now
    (wake, s.setWpt c u { s.wptH c u with fireT := some t, pre := (s.rd64 (pgWpt c u) (wptOff u 0), s.wptRd c u 8) })
  else if h.armT.isSome then (false, s)
  else
    let before := (s.rd64 (pgWpt c u) (wptOff u 0), s.wptRd c u 8)
    let fires := s.wptLive c u && (s.wptMet c u t || s.wptOver c u t)
    let (wake, s) := s.wptOne c u t
    (wake, if fires then s.setWpt c u { s.wptH c u with fireT := some t, pre := before } else s)

/-- A write reaches a unit (spec/03 R94): a fire of the same cycle loses its changes of WPT_POS and ARM, and the words from before the cycle's writes are kept for a fire still to come. -/
def State.wptWritten (s : State) (c u : Nat) : State :=
  let s := match (s.wptH c u).armT with
    | some a => if a + 1 < s.now then s.wptFirst c u s.now else s
    | none => s
  let h := s.wptH c u
  let s := if h.fireT = some s.now then
      (s.wr64 (pgWpt c u) (wptOff u 0) h.pre.1).setFld (pgWpt c u) (wptOff u 8) 31 31 (bits h.pre.2 31 31)
    else s
  let pre := (s.rd64 (pgWpt c u) (wptOff u 0), s.wptRd c u 8)
  if h.wrT = some s.now then s else s.setWpt c u { h with wrT := some s.now, old := s.wptWords c u, pre := pre }

/-- WAYPOINT_FIRE and DEADLINE_FIRE of unit `u` at `t`: every unit of the cluster up to it that fires in this cycle acts, in ascending unit number (spec/03 R93). -/
def State.wptDue (s : State) (c u t : Nat) : Bool × State :=
  (List.range (u + 1)).foldl (fun (r : Bool × State) v =>
    let (wake, s) := r.2.wptCycle c v t
    (r.1 || wake, s)) (false, s.upTo t)

/-- ACTION as taken: WAKE with a track other than 0 is NONE (spec/03 R91). -/
def wptCfgClamp (v : Nat) : Nat := if bits v 28 26 = 5 ∧ bits v 5 0 ≠ 0 then setBits v 28 26 0 else v

end Sys2Proof.Machine
end

