-- ==== Sys2Proof/Machine/Xng.lean ====
section
/-! DEFINITION. Clock-domain crossings (spec/18). -/

namespace Sys2Proof.Machine

def xngKey (i n : Nat) : Nat := i * 64 + n
def State.xngH (s : State) (i n : Nat) : XngH := sget (fun _ => {}) s.xng (xngKey i n)
def State.setXng (s : State) (i n : Nat) (h : XngH) : State := { s with xng := sput (fun _ => {}) (xngKey i n) h s.xng }

/-- Offsets of a crossing's words (spec/18). -/
def xOff (n o : Nat) : Nat := 0x040 + 16 * n + o

/-- XSTATE: 0 OFF, 1 UP, 2 HOLD, 3 DOWN. -/
def State.xstate (s : State) (i n : Nat) : Nat := s.fld (pgXng i) (xOff n 0) 31 29
def isXng (i n : Nat) : Bool := decide (n < xngCount i)

/-- Counting and interrupts work while ENABLE = 1 (spec/18). -/
def State.xCount (s : State) (i n o hi lo k : Nat) : State :=
  if s.enabled (pgXng i) then s.bump (pgXng i) (xOff n o) hi lo k else s
def State.xIrq (s : State) (i b : Nat) : State := if s.enabled (pgXng i) then s.irq (pgXng i) b else s

/-- A crossing takes a state: leaving UP and returning to it raise bits 16 and 17. -/
def State.xEnter (s : State) (i n st : Nat) : State :=
  let was := s.xstate i n
  let s := s.setFld (pgXng i) (xOff n 0) 31 29 st
  let s := if was = 1 ∧ st ≠ 1 then s.xIrq i 16 else s
  if was ≠ 1 ∧ st = 1 then s.xIrq i 17 else s

/-- Discards every transfer in flight, each counted once (spec/18 R496). -/
def State.xDiscard (s : State) (i n cause : Nat) : State :=
  let h := s.xngH i n
  let s := s.xCount i n 4 15 0 h.fly.length
  (s.setXng i n { h with fly := [] }).setFld (pgXng i) (xOff n 0) 23 16 cause

/-- Words in flight in a direction, oldest first. -/
def XngH.dir (h : XngH) (toCore : Bool) : List (Bool × XWord × Nat) := h.fly.filter fun f => f.1 == toCore

/-- The bytes of a word on a lane of an XNG page (spec/18 R499). -/
def xngBytes (i : Nat) : Nat := if i = 4 || i = 5 then 64 else if i = 6 then 16 else 4

/-- A 64-bit word of a crossing buffer as it leaves (spec/18 R493, spec/15 R431, R433, R435): its value and poison, and whether a byte is uncorrectable; with the number of corrections. -/
def xngLane (w : XWord) (j : Nat) : Nat × Bool × Bool × Nat :=
  let rs := ((w.bytes.drop (8 * j)).take 8).map fun b => decodeByte b.1 b.2
  let bad := rs.any fun r => match r.2 with | .uncorr _ => true | _ => false
  let corr := (rs.filter fun r => match r.2 with | .corrected _ => true | _ => false).length
  let c := w.copies.getD j 0
  let pois := decide (2 ≤ popCount 3 c)
  (ofLe (rs.map fun r => BitVec.ofNat 8 r.1), pois || bad, bad, corr + if c = 0 ∨ c = 7 then 0 else 1)

/-- The lanes of eight bytes of a crossing's word. -/
def xngParts (i : Nat) (w : XWord) : List (Nat × Bool × Bool × Nat) :=
  let w := { w with bytes := w.bytes.take (xngBytes i) }
  (List.range ((xngBytes i + 7) / 8)).map (xngLane w)

/-- A word as it is delivered: its value and the poison of each 64-bit word of it. -/
def xngWord (i : Nat) (w : XWord) : Nat × Nat :=
  (xngParts i w).zipIdx.foldl (fun a p => (a.1 + p.1.1 * 2 ^ (64 * p.2), a.2 + if p.1.2.1 then 2 ^ p.2 else 0)) (0, 0)

/-- The corrections and the uncorrectable words of a crossing's buffer count on its page (spec/15 R430, R433). -/
def State.xngErrs (s : State) (i : Nat) (w : XWord) : State :=
  if s.enabled (pgXng i) then
    s.each (xngParts i w) fun s p =>
      let s := s.each (List.range p.2.2.2) fun s _ => s.errCorr (pgXng i)
      if p.2.2.1 then s.errUncorr (pgXng i) else s
  else s

/-- WORD_ACCEPT (spec/18 R489, R491, R493): a word launched at `launch` on the next lane of its direction is accepted after `word.diffs` differing pairs of samples, its poison and check bits unchanged, and leaves the crossing's buffer decoded. A sixteenth differing pair in a row takes the crossing DOWN and nothing is accepted; a sender whose lanes all wait for an acknowledge could not have launched it. -/
def wordAccept (i n : Nat) (toCore : Bool) (word : XWord) (launch t : Nat) (s : State) : State :=
  let s := s.upTo t
  let h := s.xngH i n
  if !isXng i n || s.xstate i n != 1 || decide (max 1 (xngLanes i) ≤ (h.dir toCore).length) then s
  else
    let s := if word.diffs = 0 then s else (s.xCount i n 8 31 16 (min word.diffs 16)).xIrq i 19
    let lanes := max 1 (xngLanes i)
    let h := { h with fly := h.fly ++ [(toCore, word, launch)] }
    if 16 ≤ word.diffs then ((s.setXng i n h).xDiscard i n 3).xEnter i n 3
    else
      let v := xngWord i word
      let h : XngH :=
        if toCore then { h with toCore := (h.toCore + 1) % lanes, outCore := h.outCore ++ [v] }
        else { h with fromCore := (h.fromCore + 1) % lanes, outFar := h.outFar ++ [v] }
      (s.setXng i n h).xngErrs i word

/-- ACKNOWLEDGE (spec/18 R491): the oldest word of a direction is acknowledged and its lane is free; XNG_RT keeps the largest round trip. -/
def acknowledge (i n : Nat) (toCore : Bool) (t : Nat) (s : State) : State :=
  let s := s.upTo t
  let h := s.xngH i n
  match h.dir toCore with
  | f :: rest =>
    if s.xstate i n ≠ 1 then s
    else
      let s := s.setXng i n { h with fly := (h.fly.filter fun g => g.1 != toCore) ++ rest }
      if s.enabled (pgXng i) then s.raiseMax (pgXng i) (xOff n 0xC) 31 0 (t - f.2.2) else s
  | [] => s

/-- CROSSING_HOLD (spec/18 R494, R498): 16 expected periods pass without an edge. -/
def crossingHold (i n t : Nat) (s : State) : State :=
  let s := s.upTo t
  if !isXng i n then s
  else
    let s := s.setXng i n { s.xngH i n with stopped := true }
    if s.xstate i n = 1 then s.xEnter i n 2 else s

/-- CLOCK_RETURN (spec/18 R492, R494, R498): edges return for 16 periods; `drops` frames did not fit the far side's elastic buffer meanwhile. -/
def clockReturn (i n drops t : Nat) (s : State) : State :=
  let s := s.upTo t
  if !isXng i n then s
  else
    let s := (s.setXng i n { s.xngH i n with stopped := false }).xCount i n 8 7 0 drops
    if s.xstate i n = 2 then s.xEnter i n 1 else s

/-- Cycles from a count's acceptance by the core to the return of its acknowledge (spec/18 R491, R499): the round trip of 25 less the forward time of 8. -/
def ackCycles : Nat := 17

/-- A count that awaits its acknowledge is folded back into the count of its sender, which saturates at 4,095 (spec/18 R495, R496). -/
def State.foldBack (s : State) (k t : Nat) : State :=
  let h := s.trkInH k
  match h.sent with
  | some (m, stamp, at_) =>
    let s := if t < at_ + ackCycles then
        let full := decide (4095 ≤ h.pend + m)
        let s := s.setTrkIn k { h with pend := min 4095 (h.pend + m), pendStamp := if h.pend = 0 then stamp else h.pendStamp, satur := h.satur || full, sent := none, sentQ := [] }
        let s := s.each h.sentQ fun s q =>
          let e := s.trkH q.1
          s.setTrk q.1 (if q.2.1 then { e with quadA := e.quadA + q.2.2 } else { e with quadB := e.quadB + q.2.2 })
        let s := s.xCount 2 0 4 15 0 1
        if full && !h.satur then ((s.inputFull k).xCount 2 0 8 15 8 1).xIrq 2 18 else s
      else s.setTrkIn k { h with sent := none, sentQ := [] }
    s
  | none => s

/-- A reset capture side loses its pending counts; a count whose acknowledge was in flight is a discarded transfer (spec/18 R495, R496). -/
def State.loseCounts (s : State) (k t : Nat) : State :=
  let h := s.trkInH k
  let s := match h.sent with
    | some (_, _, at_) => if t < at_ + ackCycles then s.xCount 2 0 4 15 0 1 else s
    | none => s
  (s.setTrkIn k { h with pend := 0, satur := false, sent := none, sentQ := [] }).quadClear k

/-- SIDE_RESET (spec/18 R495, R496, R498): a reset of the core side or the far side. A reset capture side loses its pending counts; one that was not reset keeps them and takes back a count that awaits its acknowledge. -/
def sideReset (i n : Nat) (coreSide : Bool) (t : Nat) (s : State) : State :=
  let s := s.upTo t
  if !isXng i n || s.xstate i n == 0 then s
  else
    let s := ((s.xDiscard i n (if coreSide then 1 else 2)).xCount i n 4 31 16 1).xEnter i n 3
    if i ≠ 2 then s
    else if coreSide then s.each (List.range 64) fun s k => s.foldBack k s.now
    else s.each (List.range 64) fun s k => s.loseCounts k s.now

/-- FAR_SIDE_POWER (spec/18 R496, R498): power of the far side goes off or on. -/
def farSidePower (i n : Nat) (on : Bool) (t : Nat) (s : State) : State :=
  let s := s.upTo t
  if !isXng i n then s
  else if on then (if s.xstate i n = 0 then s.xEnter i n 3 else s)
  else if s.xstate i n = 0 then s
  else
    let s := (s.xDiscard i n 4).xEnter i n 0
    if i = 2 then s.each (List.range 64) fun s k => s.loseCounts k s.now else s

/-- HANDSHAKE_COMPLETE (spec/18 R496, R498): the crossing is UP with its lane pointers at 0; it waits for a clock that stands still. -/
def handshakeComplete (i n drops t : Nat) (s : State) : State :=
  let s := s.upTo t
  let h := s.xngH i n
  if !isXng i n || s.xstate i n != 3 || h.stopped then s
  else ((s.setXng i n { h with fly := [], toCore := 0, fromCore := 0 }).xCount i n 8 7 0 drops).xEnter i n 1

/-- XNG_SUMMARY as it reads (spec/18): the crossings not UP, and the pages that have one. -/
def State.xngSummary (s : State) : Nat :=
  let down (i : Nat) : Nat := ((List.range (xngCount i)).filter fun n => s.xstate i n != 1).length
  let ds := (List.range 7).map down
  ds.foldl (· + ·) 0 * 2 ^ 16 + (List.range 7).foldl (fun a i => if ds.getD i 0 = 0 then a else a + 2 ^ i) 0

end Sys2Proof.Machine
end

