-- ==== Sys2Proof/Machine/Pages.lean ====
section
/-! DEFINITION. What enabling, disabling, resetting and powering a page does to the block behind it (spec/02 R41–R45, R584), by kind of page. -/

namespace Sys2Proof.Machine

/-- Folds a step over the entries of a stream table page. -/
def State.strEach (s : State) (j : Nat) (f : State → Nat → State) : State := s.each ((List.range 32).map (32 * j + ·)) f

/-- The table pages are READY while the control page is READY and their own ENABLE is 1 (spec/05 R171). -/
def State.strSync (s : State) : State :=
  let ctl := s.ready pgStr
  s.each (List.range 128) fun s j =>
    let p := 0x701 + j
    if s.retired p || (s.pageH p).resetting || !s.powered p then s
    else if !s.enabled p then (if s.ready p || s.busy p then s.pageOff p else s)
    else if ctl then (if s.ready p then s else s.pageReady p)
    else if s.ready p then s.pageStarting p else s

/-- Pages that present the header only and stay OFF (spec/19, spec/20 R557). -/
def State.headerOnly (s : State) (k : Kind) (i : Nat) : Bool :=
  match k with
  | .bcp => decide (8 ≤ i)
  | .team => decide (12 ≤ i) || decide (s.ropeDepth ≤ i % 6)
  | _ => false

/-- Whether a page is OFF. -/
def State.isOff (s : State) (p : Nat) : Bool := !(s.ready p || s.busy p || s.faulted p || s.retired p)

/-- ENABLE written 1 on a page whose block is powered ON (spec/02 R41): OFF goes to STARTING, each block as its chapter says. -/
def State.enableEffect (s : State) (p : Nat) : State :=
  match pageAt p with
  | none => s
  | some (k, i) =>
    if !s.powered p || s.retired p || s.headerOnly k i then s
    else match k with
      | .spt => if s.isOff p then s.sptEnable i else s
      | .sout => s.soEnable i
      | .wdgB | .wdgC | .wdgT => s
      | .strT => if !s.isOff p then s else if s.ready pgStr then s.pageReady p else s.pageStarting p
      | .trk =>
        let s := s.trkEnable i
        if s.isOff p then s.pageStarting p else s
      | .rope => if s.isOff p then (s.pageStarting p).ropeEnable i else s
      | .tile => if s.isOff p then (s.wr64 p 0x050 0).pageStarting p else s
      | _ => if s.isOff p then s.pageStarting p else s

/-- The tile's held writes take effect when nothing can commit any more (spec/10 R301). -/
def State.tileStop (s : State) (t : Nat) : State := (s.tileOff t).heldFlush t

/-- ENABLE written 0 (spec/02 R41): STARTING, READY and FAULT go to OFF, each block as its chapter says. -/
def State.disableEffect (s : State) (p : Nat) : State :=
  match pageAt p with
  | none => s
  | some (k, i) =>
    if s.retired p || (s.isOff p && k != .strT && k != .sout) then s
    else match k with
      | .spt => s.sptDisable i
      | .sout => s.soDisable i
      | .wdgB | .wdgC | .wdgT => s
      | .tile => (s.tileStop i).pageOff p
      | .tfe => (s.tfeOff i).pageOff p
      | .trk => if i = 0 then s else (s.trkDisable i).pageOff p
      | .rope => (s.ropeDisable i).pageOff p
      | .str => (s.pageOff p).strSync
      | .strT => (s.strEach i fun s e => s.strDisable e).pageOff p
      | .soutD => (s.pageOff p).dbOff i
      | _ => s.pageOff p

/-- What a block loses with its power, or in a RESET, before its registers are reset. -/
def State.blockStop (s : State) (p : Nat) : State :=
  match pageAt p with
  | none => s
  | some (k, i) =>
    match k with
    | .ars => s.arsClear i
    | .frd => s.frdClear i
    | .tfe => s.tfeOff i
    | .tile => s.tileStop i
    | .sout => s.soDisable i
    | .trk => s.trkDisable i
    | .rope => s.ropeDown i 0
    | .strT => s.strEach i fun s e => s.strClear e
    | .pmc => s.pmcSettle i
    | _ => s

/-- Block power goes to OFF (0) or RETENTION (1), or comes back ON (2) (spec/02 R41, R44). -/
def State.powerEffect (s : State) (p pw : Nat) : State :=
  if (s.pageH p).power = pw then s
  else if pw = 2 then s.pagePower p pw
  else
    let s := if s.powered p then (match pageAt p with
      | some (.spt, i) => if s.retired p then s else s.sptDisable i
      | some (.soutD, _) => s
      | _ => s.blockStop p) else s
    let s := s.pagePower p pw
    match pageAt p with
    | some (.soutD, d) => s.dbOff d
    | some (.str, _) => s.strSync
    | _ => s

/-- Registers that PAGE_CTRL.RESET leaves (spec/00_scope.md R8): those a chapter says it keeps, and those that show what stands outside the block: the journal, fuses, flash, identity, presence and the state of crossings and links. -/
def keepsAtReset (k : Kind) (i off : Nat) : Bool :=
  match k with
  | .bcp => match i with
    | 0 => decide (0x040 ≤ off ∧ off < 0x04C) || off == 0x058
    | 2 => off == 0x050 || off == 0x054
    | 4 => decide (0x044 ≤ off ∧ off < 0x068)
    | 6 => true
    | 7 => off == 0x048
    | _ => false
  | .eccD | .eccC | .eccT => off == 0x044 || off == 0x048
  | .xng => decide (off % 16 = 0)
  | .rope => decide (0x080 ≤ off)
  | .ropeL => decide (off < 0x048)
  | .trk => i == 0 && decide (0x068 ≤ off ∧ off < 0x0A0) && off != 0x098
  | _ => false

/-- Every register word of a page back at its reset value, but for those a RESET leaves. -/
def State.clearPage (s : State) (p : Nat) : State :=
  match pageAt p with
  | none => s
  | some (k, i) =>
    { s with
      hot := s.hot.filter fun e => decide (e.1 / 16384 / 4096 ≠ p)
      regs := s.regs.filter fun q => !(decide (q.1 / 4096 = p)) || (decide (0x040 ≤ q.1 % 4096) && keepsAtReset k i (q.1 % 4096)) }

/-- What a block sets up again once its registers have their reset values. -/
def State.blockReset (s : State) (p : Nat) : State :=
  match pageAt p with
  | none => s
  | some (k, i) =>
    match k with
    | .trk =>
      let s := s.each (List.range 16) fun s c => s.each (List.range 128) fun s u =>
        if s.wptArmed c u && s.wptTrack c u == i then s.setFld (pgWpt c u) (wptOff u 8) 31 31 0 else s
      s.trkReset i
    | .trkIn => s.trkInReset i
    | .tile => s.tileClear i
    | .wpt => s.each (List.range 64) fun s u => s.setWpt (i / 2) (64 * (i % 2) + u) {}
    | .sout => (s.setSout i {}).soShow i
    | .soutD => (s.dbOff i).each (List.range 64) fun s o => s.soShow o
    | .bistM | .bistC =>
      let h := s.bistH p
      s.setBist p { h with fifo := [], held := [], retest := [], req := [] }
    | .ropeL =>
      let s := { s with teams := [], circs := [], rope := {} }
      if (List.range 16).any fun r => s.linkUpAt r then
        let s := s.setDstate 1
        (s.each (List.range s.ropeDepth) fun s j => s.electStart j).electDone
      else s
    | .team => if i < 6 then s.teamShow i else s
    | _ => s

/-- PAGE_CTRL.RESET written 1 with LOCK = 0 (spec/02 R41, R42): registers take their reset values now; the page is BUSY until the reset completes. -/
def State.resetEffect (s : State) (p : Nat) : State :=
  match pageAt p with
  | none => s
  | some (k, i) =>
    if s.retired p then s else
    let svc := s.getB p 0x040 30
    let s := match k with
      | .spt => ((s.linkBits i).powerDown i).sptReset i
      | .soutD => s
      | .bcp => if i = 3 then ({ s with bcp := { s.bcp with good := 0, bad := 0 } } : State).servoLock false else s
      | _ => s.blockStop p
    let s := if k = .tile then s.setStatus p false true false false else s
    let before := s.cluInfo (i / 8)
    let s := (s.clearPage p).blockReset p
    let s := s.setFld p oStatus 3 0 2
    let s := if k = .tile then s.cluInfoChanged (i / 8) before else s
    let s := match k, i with
      | .bcp, 2 => s.setB p 0x040 30 svc
      | .xng, _ => s.each (List.range (xngCount i)) fun s n => s.setFld p (xOff n 0) 23 16 0
      | .bcp, 4 => { s with bcp := { s.bcp with upd := none, tupd := none } }
      | .str, _ => ({ s with flow := (s.now / cyclesPerMs, 0, 0) } : State).strSync
      | _, _ => s
    s.setPageH p { s.pageH p with resetting := true }

/-- RESET_COMPLETE (spec/02 R42): the page ends OFF; one whose ENABLE resets to 1 starts as if ENABLE had been written 1. A rope port reads its cage again, BCP_BIV_STAT shows the state of power and CLU_LINKS the links that pass their check (spec/02 R56), which a RESET does not change. -/
def resetComplete (p t : Nat) (s : State) : State :=
  let s := s.upTo t
  if !(s.pageH p).resetting then s else
  let s := s.setPageH p { s.pageH p with resetting := false }
  let s := if s.busy p && !s.ready p && !s.faulted p then s.pageOff p else s
  let s := match pageAt p with
    | some (.rope, r) => s.setFld p 0x044 28 26 (s.ropeH r).sfp
    | some (.bcp, 5) => s.setFld p 0x044 31 29 s.pstate'
    | some (.clu, _) => s.setFld p 0x04C 31 30 (2 * b2n (!bit (s.pageH p).badLinks 0) + b2n (!bit (s.pageH p).badLinks 1))
    | _ => s
  if s.enabled p then s.enableEffect p else s

/-- START_UP_COMPLETE (spec/02 R41, R584): STARTING goes to READY, each block as its chapter says. Ports, safety outputs and stream table pages are READY by their own state tables; a watchdog that has left HARD becomes READY (spec/16 R460). -/
def startUpComplete (p t : Nat) (s : State) : State :=
  let s := s.upTo t
  match pageAt p with
  | none => s
  | some (k, i) =>
    if !s.busy p || s.faulted p || s.retired p || (s.pageH p).resetting || !s.powered p || !s.enabled p then s
    else match k with
      | .spt | .sout | .strT => s
      | .wdgB | .wdgC | .wdgT => if s.wstate p = 3 ∨ s.wstate p = 5 then s else s.pageReady p
      | .tile => s.tileStart i
      | .tfe => (s.pageReady p).tfeReady i
      | .clu => (s.pageReady p).tfeOwed i
      | .wpt => (s.pageReady p).wptReady (i / 2) (i % 2)
      | .trkIn => (s.pageReady p).trkInReady i
      | .str => (s.pageReady p).strSync
      | .soutD => (s.pageReady p).dbStat
      | .ropeL => if s.dstate = 4 then s.pageReady p else s
      | _ => s.pageReady p

/-- FAULT_DETECTED (spec/02 R41): STARTING or READY goes to FAULT with its FAULT_CODE; an engine's fault acts on its queues (spec/06–spec/08), a tile reset restarts nothing here; on a stream table page it is the failure of both copies of entry `code` of the page (spec/05 R170). A RESET under way hides it. -/
def faultDetected (p code t : Nat) (s : State) : State :=
  let s := s.upTo t
  if (s.pageH p).resetting || !(s.ready p || s.busy p) then s
  else match pageAt p with
    | some (.tfe, c) => s.tfeFault c code
    | some (.frd, c) => (s.pageFault p code).frdFault c
    | some (.tile, i) => if code = 5 then s.tileReset i else s.pageFault p code
    | some (.spt, i) => s.enterP i 6 (some code)
    | some (.sout, o) => (s.soFault o 0 code).soFault o 1 code
    | some (.soutD, d) => ((s.each (List.range 64) fun s o => (s.soFault o d 8).soOpen o d).pageFault p code).dbStat
    | some (.str, _) => (s.pageFault p code).strSync
    | some (.strT, j) => s.strFault (32 * j + code % 32)
    | some (.wdgT, _) | some (.wdgC, _) | some (.wdgB, _) => s
    | some _ => s.pageFault p code
    | none => s

/-- BLOCK_RECOVERY_COMPLETE (spec/02 R41): FAULT goes to STARTING. A tile recovers of itself only from a tile reset (spec/10 R321), a port, an output or a watchdog by its own table, an engine by its pass (spec/17 R476). -/
def recoveryComplete (p t : Nat) (s : State) : State :=
  let s := s.upTo t
  if (s.pageH p).resetting then s
  else match pageAt p with
    | some (.tile, _) => if s.fld p oStatus 15 8 = 5 then s.pageRecover p else s
    | some (.spt, _) | some (.sout, _) | some (.wdgT, _) | some (.wdgC, _) | some (.wdgB, _) => s
    | some (.ars, _) | some (.tfe, _) | some (.frd, _) => s
    | some _ => s.pageRecover p
    | none => s

/-- RETIREMENT (spec/02 R41): a block retires itself. The command's cause stands in FAULT_CODE, though the Retirement row names none (DESIGN CHOICE, log entry 159). -/
def retirement (p code t : Nat) (s : State) : State :=
  let s := s.upTo t
  match pageAt p with
  | none => s
  | some (k, i) =>
    if s.retired p then s
    else match k with
      | .tile => s.tileRetire i code
      | .tfe => s.tfeRetire i
      | .sout => ((s.soDisable i).setFld p oStatus 15 8 code).pageRetire p
      | .soutD => ((s.setFld p oStatus 15 8 code).pageRetire p).dbOff i
      | .str => ((s.setFld p oStatus 15 8 code).pageRetire p).strSync
      | .spt => ((s.sptDisable i).setFld p oStatus 15 8 code).pageRetire p
      | _ => (s.setFld p oStatus 15 8 code).pageRetire p

/-- BLOCK_POWER_CHANGE (spec/02 R41, R44): 0 OFF, 1 RETENTION, 2 ON. -/
def blockPowerChange (p pw t : Nat) (s : State) : State :=
  let s := s.upTo t
  if (pageAt p).isSome ∧ pw ≤ 2 then s.powerEffect p pw else s

/-- LINK_CHECK_FAIL (spec/02 R56): the link to the I/O die (0) or to the partner cluster (1) has failed its check for 1 µs. -/
def linkCheckFail (c link t : Nat) (s : State) : State :=
  let s := s.upTo t
  if 16 ≤ c ∨ 2 ≤ link then s else
  let p := pgClu c
  let s := ((s.setB p 0x04C (31 - link) false).bump p 0x050 (31 - 16 * link) (16 - 16 * link)).irq p 19
  let s := s.setPageH p { s.pageH p with badLinks := (s.pageH p).badLinks ||| 2 ^ link }
  s.pageFault p (link + 1)

/-- LINK_CHECK_PASS (spec/02 R56): the link has passed its check for 10 µs; the page returns through STARTING once no link fails. -/
def linkCheckPass (c link t : Nat) (s : State) : State :=
  let s := s.upTo t
  if 16 ≤ c ∨ 2 ≤ link then s else
  let p := pgClu c
  let s := s.setB p 0x04C (31 - link)
  let bad := clearBits (s.pageH p).badLinks (2 ^ link)
  let s := s.setPageH p { s.pageH p with badLinks := bad }
  if bad = 0 then s.pageRecover p else s

end Sys2Proof.Machine
end

