-- ==== Sys2Proof/Machine/Bcp.lean ====
section
/-! DEFINITION. Basecamp (spec/20): event log, boot, update, IEEE 1588, bivouac, and what power does to the module (spec/20 R558, spec/21). What its registers and datagrams bring about stands in Bus.lean and Access.lean. -/

namespace Sys2Proof.Machine

/-! The event log (spec/20 R538–R541). -/

/-- The 32 bytes of a record, its CRC last (spec/20 R538). -/
def LogRec.bytes (r : LogRec) : List Byte :=
  let l := leBytes 8 r.time.toNat ++ leBytes 4 r.seq ++ leBytes 2 r.code ++ leBytes 1 r.sev ++ leBytes 1 r.flags ++ leBytes 2 r.source ++ leBytes 10 r.data
  l ++ leBytes 4 (crc32c l)

/-- The record with a sequence number, when it is held. -/
def State.logRec (s : State) (seq : Nat) : Option LogRec := (s.log.flash ++ s.log.staged).find? fun r => r.seq == seq

/-- A record as eight words; zero if it is not held. -/
def State.logWords (s : State) (seq : Nat) : List Nat :=
  match s.logRec seq with
  | some r => toWords 8 (ofLe r.bytes)
  | none => List.replicate 8 0

/-- The oldest sequence number held. -/
def State.logOldest (s : State) : Nat := ((s.log.flash ++ s.log.staged).head?.map (·.seq)).getD s.log.nextSeq

/-- LOG_FLUSH (spec/20 R540). -/
def logFlushAt (t : Nat) (s : State) : State := (s.upTo t).logFlush

/-! Banks and boot (spec/20 R530–R537). -/

/-- The journal register of a bank: 0 bank A, 1 bank B. -/
def bankOff (b : Nat) : Nat := 0x044 + 4 * b
def State.bankState' (s : State) (b : Nat) : Nat := s.fld (pgBcp 4) (bankOff b) 31 30
def State.preferred (s : State) : Nat := if s.getB (pgBcp 4) (bankOff 1) 29 then 1 else 0
def State.bankImg (s : State) (b : Nat) : List (Nat × Nat) := if b = 0 then s.bcp.imgA else s.bcp.imgB
def State.runBank (s : State) : Nat := s.fld (pgBcp 0) 0x04C 30 30
def State.inRecovery (s : State) : Bool := s.getB (pgBcp 0) 0x04C 28

/-- The bank an update writes: the one that is not running (spec/20 R550). -/
def State.targetBank (s : State) : Nat := 1 - (if s.inRecovery then s.preferred else s.runBank)

/-- Journals a bank's state and records the change (spec/20 R539, R550). -/
def State.journal (s : State) (b st : Nat) : State :=
  let s := s.setFld (pgBcp 4) (bankOff b) 31 30 st
  (s.irq (pgBcp 4) 16).logEvent 0x0010 1 0xFFFF (st * 2 ^ 8 + s.rd64 (pgBcp 4) (0x050 + 8 * b) * 2 ^ 16)

/-- A byte of an image. -/
def imgByte (img : List (Nat × Nat)) (a : Nat) : Nat := sget (fun _ => 0xFF) img a

/-- Whether a bank's image verifies (spec/20 R533, R549). -/
def State.verifies (s : State) (b : Nat) : Bool :=
  let img := s.bankImg b
  Config.imageVerifies (imgByte img 6) img (ofWords [(List.range 4).foldl (fun a i => a + imgByte img (16 + i) * 256 ^ i) 0])

/-- Bank selection (spec/20 R535): none is RECOVERY. -/
def State.chooseBank (s : State) : Option Nat :=
  let p := s.preferred
  if (s.bankState' p = 2 ∨ s.bankState' p = 3) ∧ s.verifies p = true then some p
  else if s.bankState' (1 - p) = 2 ∧ s.verifies (1 - p) = true then some (1 - p)
  else none

/-- The boot ROM starts the Basecamp watchdog and makes the first service, which locks it (spec/20 R533, spec/16 R459). -/
def State.bootService (s : State) : State :=
  let p := pgWdgB
  let s := s.wdgEnter p 0 12500000
  (s.setFld p 0x05C 15 0 (s.fld p 0x04C 15 0)).wdgService .basecamp p 0xA5C3

/-- Steps 2 and 3 of boot: BCP_BOOT and BCP_GEN follow the bank taken, and the boot record is written. -/
def State.bootBank (s : State) (warm : Bool) (cause : Nat) : State :=
  let n := if warm then satAdd 65535 (s.fld (pgBcp 0) 0x04C 15 0) 1 else 0
  let c := s.chooseBank
  let b := c.getD 0
  let s := s.wr (pgBcp 0) 0x04C (b2n warm * 2 ^ 31 + b * 2 ^ 30 + b2n (c.isSome && s.bankState' b == 3) * 2 ^ 29 + b2n c.isNone * 2 ^ 28 + cause * 2 ^ 24 + n)
  let gen := if c.isSome then s.rd64 (pgBcp 4) (0x050 + 8 * b) else 0
  (s.wr64 (pgBcp 0) 0x050 gen).logEvent 0x0001 0 0xFFFF (b2n warm + b * 2 ^ 8 + gen * 2 ^ 16)

/-- A new session of the management port (spec/20 R547). -/
def State.newSession (s : State) : State :=
  let (d, s) := s.draw
  { s with bcp := { s.bcp with nonce := Config.bapNonce d, start := s.now, jobs := [], srcs := [], keys := s.bcp.keys.map fun k => { k with last := none } } }

/-- Every page index that has a page. -/
def allPages : List Nat := (List.range 0x942).filter fun p => (pageAt p).isSome

/-- Pages of the Basecamp die. -/
def onBasecamp (p : Nat) : Bool := decide (p ≤ 0x14)

/-- Whether Basecamp has applied a memory repair to the block behind a page (spec/02 R45, spec/17 R484). -/
def State.repairedPage (s : State) (p : Nat) : Bool :=
  s.bcp.repairs.any fun e => decide (e.kind < 3) && (match e.unit with
    | 1 => p == pgTile e.inst || p == pgEccT e.inst
    | 2 => p == pgClu (e.inst / 16) || p == pgEccC (e.inst / 16)
    | 3 => p == pgEccD
    | _ => false)

/-- PAGE_STATUS of the pages that are RETIRED: a power-on reset leaves RETIRED only where a repair was applied (spec/02 R45); any other loss of power leaves it nowhere. -/
def State.retiredWords (s : State) (powerOn : Bool) : List (Nat × Word) :=
  s.regs.filter fun q => q.1 % 4096 == oStatus && s.retired (q.1 / 4096) && !(powerOn && s.repairedPage (q.1 / 4096))

/-- Registers outside a set of keys joined with RETIRED words, in order. -/
def State.addRetired (s : State) (ws : List (Nat × Word)) : State := s.each ws fun s q => { s with regs := sput regDefault q.1 q.2 s.regs }

/-- Every block but Basecamp as it is at power-on: registers at their reset values, memory zero (spec/00_scope.md R8, spec/15 R448); RETIRED stays (spec/02 R45). `keep` names the pages that stay. -/
def State.fresh (s : State) (keep : Nat → Bool) : State :=
  let s' : State :=
    { pending := s.pending, now := s.now, free := s.free, regs := s.regs.filter (fun q => keep (q.1 / 4096)),
      pages := s.pages.filter (fun q => keep q.1), wdg := s.wdg.filter (fun q => keep q.1), bcp := s.bcp, log := s.log, wall := s.wall,
      spwrLow := s.spwrLow, out := s.out }
  s'.addRetired (s.retiredWords false)

/-- Step 4 of boot and the pages whose ENABLE resets to 1 (spec/20 R533, R536): links, cluster watchdogs, stream tables, track 0; units with a LOGIC entry stay RETIRED until their retest (spec/17 R486); the memories initialise (spec/15 R448); FORERUNNER brings every tile up in its mode (spec/10 R290). The stored register writes follow. -/
def State.powerUp (s : State) : State :=
  let s := s.each (List.range 16) fun s c => (s.wr (pgClu c) 0x04C 0xC0000000).wdgEnter (pgWdgC c) 0 12500000
  let s := s.each (List.range 128) fun s j => s.pageStarting (0x701 + j)
  let s := s.pageStarting (pgTrk 0)
  let s := s.each (s.bcp.repairs.filter fun e => e.kind == 3) fun s e => s.setFld (logicPage e.unit e.inst) oStatus 3 0 12
  let t := s.now
  let start (s : State) (p b : Nat) : State := s.setBank p b { s.bankH p b with wakeAt := t + wakeCycles (eccSub p) 0 }
  let s := s.each (List.range 16) fun s c => s.each (List.range 16) fun s b => start s (pgEccC c) b
  let s := start (s.each (List.range 128) fun s i => start s (pgEccT i) 0) pgEccD 0
  let s := if s.getB (pgBcp 0) 0x058 0 then s.each (List.range 128) fun s t => (s.setFld (pgTile t) 0x040 31 30 3).setTile t { s.tileH t with fore := true } else s
  { s with bcp := { s.bcp with step5 := true, hot := false } }

/-- The registers of the journal, fuses, flash and identity, which power-on reset leaves. -/
def keepsAtPower (key : Nat) : Bool := decide (key / 4096 < 8) && keepsAtReset .bcp (key / 4096) (key % 4096)

/-- The cold boot (spec/20 R533): everything at its power-on state but flash, fuses and keys; the cycle count begins again (spec/03 R58). -/
def State.coldBoot (s : State) : State :=
  let kept := s.regs.filter fun q => keepsAtPower q.1
  let b := s.bcp
  let h : BcpH := { booted := true, keys := b.keys, imgA := b.imgA, imgB := b.imgB, store := b.store, repairs := b.repairs, fuses := b.fuses }
  let h := { h with bootTests := (b.repairs.filter fun e => e.kind == 3).map fun e => (e.unit, e.inst) }
  let stay := s.retiredWords true
  let s : State := { pending := s.pending, free := s.free, regs := kept, bcp := h, log := { nextSeq := s.log.nextSeq, flash := s.log.flash }, out := s.out }
  let s := (s.addRetired stay).newSession
  let s := if b.storeNew then s.setB (pgBcp 0) 0x058 0 (Config.storeForerunner b.store) else s
  let s := if b.store.isEmpty then s else (Config.storeWdg b.store).foldl (fun s q => s.wr pgWdgB q.1 q.2) s
  let s := (s.bootService).bootBank false 0
  if s.inRecovery then
    { s with pages := (allPages.filter fun p => !onBasecamp p).map fun p => (p, { power := 0 }) }
  else s.powerUp

/-- POWER_ON_RESET (spec/21 R565): a feed has stood at 9.0 V or above for 10 ms, the reset is released and the cold boot begins. A running module does not reset. -/
def powerOnReset (s : State) : State := if s.bcp.booted && !s.bcp.held then s else s.coldBoot

/-- What a Basecamp reset cuts off: an update, a tile update, accesses of datagrams under way (spec/20 R551). -/
def State.bcpHalt (s : State) : State :=
  let slots : List SlotAcc := s.rope.slots.map fun (a : SlotAcc) => { t := a.t, op := a.op, bap := false }
  let b : BcpH := { s.bcp with upd := none, tupd := none }
  { s with bcp := { b with good := 0, bad := 0 }, rope := { s.rope with slots := slots } }

/-- A Basecamp reset without power-on reset (spec/20 R534, R551, R552): cause 1 watchdog, 2 RESTART, 3 activation. Running functions go on. -/
def State.bcpReset (s : State) (cause wdgCause : Nat) : State :=
  let wasRecovery := s.inRecovery
  let run := s.runBank
  let s := s.bcpHalt
  let s := (s.setFld (pgBcp 4) 0x040 31 29 0).logEvent 0x0002 2 0xFFFF (cause + wdgCause * 2 ^ 8)
  let s := if cause = 1 ∧ !wasRecovery ∧ s.bankState' run = 3 then s.journal run 1 else s
  let s := (sideReset 6 0 false s.now s).newSession
  let s := if cause = 1 then s else s.wdgEnter pgWdgB 0 12500000
  let s := s.servoLock false
  let s := { s with log := { s.log with warm := true } }
  let s := ((s.bootService).bootBank true cause).logFlush
  if wasRecovery ∧ s.inRecovery = false then
    let pages := s.pages.filter fun q => q.2.power != 0
    ({ s with pages := pages } : State).powerUp
  else s

/-- BASECAMP_RESET (spec/20 R534): the watchdog's hard reset of Basecamp. -/
def basecampReset (wdgCause t : Nat) (s : State) : State := (s.upTo t).bcpReset 1 wdgCause

/-! Update (spec/20 R549–R553). -/

/-- BCP_UPD_STAT.STATE: 0 IDLE, 1 ERASING, 2 WRITING, 3 VERIFYING, 4 DONE, 5 FAILED. -/
def State.updState (s : State) (v : Nat) : State := s.setFld (pgBcp 4) 0x040 31 29 v

/-- Whether an update stands between UPD_OPEN and the end of its commit. -/
def State.updating (s : State) : Bool := match s.bcp.upd with
  | some u => decide (u.phase < 2)
  | none => false

/-- The bytes of a datagram's words. -/
def Bap.bytes (b : Bap) : List Nat :=
  (List.range b.count).flatMap fun i => (leBytes (if b.size = 0 then 4 else 8) (b.data.getD i 0)).map (·.toNat)

def leNat (l : List Nat) : Nat := l.foldr (fun b a => b + 256 * a) 0

/-- UPD_OPEN (spec/20 R549, R550): answers STATUS. The target is INVALID before the first erase. -/
def State.updOpen (s : State) (target : Nat) (hdr : List Nat) : Nat × State :=
  let f := fun (lo n : Nat) => leNat ((hdr.drop lo).take n)
  let gen := f 8 8
  let len := f 16 4
  let room := if target = 0 then 0xE00000 * 16 - 0x10000 else 0x1000000
  let zero := f 7 1 == 0 && f 20 44 == 0
  if s.updating then (8, s)
  else if hdr.length ≠ 128 ∨ 128 + len > room then (1, s)
  else if f 0 4 ≠ 0x49585647 ∨ f 4 2 ≠ 1 ∨ !zero ∨ gen < s.rd64 (pgBcp 4) 0x060 then (9, s)
  else if target = 0 ∧ (3 < f 6 1 ∨ !s.getB (pgBcp 7) 0x048 (f 6 1) ∨ s.getB (pgBcp 7) 0x048 (8 + f 6 1)) then (10, s)
  else
    let b := s.targetBank
    let u : Upd := { target := target, bank := b, keyid := f 6 1, gen := gen, len := len, left := (128 + len + 65535) / 65536, data := hdr.zipIdx.map fun q => (q.2, q.1) }
    let s := if target = 0 then
        let s := (s.wr64 (pgBcp 4) (0x050 + 8 * b) gen).journal b 1
        { s with bcp := { s.bcp with imgA := if b = 0 then [] else s.bcp.imgA, imgB := if b = 1 then [] else s.bcp.imgB } }
      else s
    let s := { s with bcp := { s.bcp with upd := some u } }
    (0, ((s.wr (pgBcp 4) 0x040 (2 ^ 29 + target * 2 ^ 28)).irq (pgBcp 4) 16))

/-- ERASE_COMPLETE (spec/20 R550): a block erase completes; after the last one data may be written. -/
def eraseComplete (t : Nat) (s : State) : State :=
  let s := s.upTo t
  match s.bcp.upd with
  | some u =>
    if u.phase ≠ 0 then s
    else if u.left ≤ 1 then (({ s with bcp := { s.bcp with upd := some { u with phase := 1, left := 0 } } } : State).updState 2).irq (pgBcp 4) 16
    else { s with bcp := { s.bcp with upd := some { u with left := u.left - 1 } } }
  | none => s

/-- UPD_DATA (spec/20 R550): answers STATUS. -/
def State.updData (s : State) (off : Nat) (d : List Nat) : Nat × State :=
  match s.bcp.upd with
  | none => (9, s)
  | some u =>
    if u.phase = 0 then (8, s)
    else if u.phase ≠ 1 then (9, s)
    else if 128 + u.len < off + d.length then (1, s)
    else
      let data := d.zipIdx.foldl (fun m q => sput (fun _ => 0xFF) (off + q.2) q.1 m) u.data
      let n := u.bytes + d.length
      let s := { s with bcp := { s.bcp with upd := some { u with data := data, bytes := n } } }
      (0, s.setFld (pgBcp 4) 0x040 27 0 (n / 1024))

/-- UPD_COMMIT (spec/20 R549, R550): the image is read back and verified; answers STATUS. -/
def State.updCommit (s : State) : Nat × State :=
  match s.bcp.upd with
  | none => (9, s)
  | some u =>
    if u.phase = 0 then (8, s)
    else if u.phase ≠ 1 then (9, s)
    else
      let d := u.data.filter fun q => q.2 != 0xFF
      let sound := if u.target = 0 then Config.imageVerifies u.keyid d u.len
        else
          let payload := (List.range u.len).map fun i => (BitVec.ofNat 8 (imgByte d (128 + i)) : Byte)
          leNat ((List.range 4).map fun i => imgByte d (64 + i)) == crc32c payload && (List.range 60).all fun i => imgByte d (68 + i) == 0
      let s := { s with bcp := { s.bcp with upd := some { u with phase := 2 } } }
      if !sound then (10, (s.updState 5).irq (pgBcp 4) 16)
      else
        let s := (s.updState 4).irq (pgBcp 4) 16
        if u.target = 0 then
          (0, ({ s with bcp := { s.bcp with imgA := if u.bank = 0 then d else s.bcp.imgA, imgB := if u.bank = 1 then d else s.bcp.imgB } } : State).journal u.bank 2)
        else
          let s := { s with bcp := { s.bcp with store := d, storeNew := true } }
          (0, ((s.wr64 (pgBcp 6) 0x040 u.gen).wr (pgBcp 6) 0x048 (128 + u.len)).logEvent 0x0091 1 0xFFFF u.gen)

/-- UPD_ACTIVATE (spec/20 R550): a VALID bank that is not running becomes PREFERRED and TRIAL, while no update is under way; answers STATUS. The restart follows the reply. -/
def State.updActivate (s : State) : Nat × State :=
  let b := s.targetBank
  if !s.updating && s.bankState' b == 2 then
    let s := (s.setB (pgBcp 4) (bankOff b) 29).setB (pgBcp 4) (bankOff (1 - b)) 29 false
    (0, s.journal b 3)
  else (9, s)

/-- BCP_UPD_CTRL (spec/20 R552, R557): 1 CONFIRM, 2 RAISE_MIN, 3 ABORT. -/
def State.updCtrl (s : State) (op : Nat) : State :=
  let b := s.runBank
  match op with
  | 1 => if !s.inRecovery ∧ s.bankState' b = 3 then (s.journal b 2).setB (pgBcp 0) 0x04C 29 false else s
  | 2 => s.wr64 (pgBcp 4) 0x060 (max (s.rd64 (pgBcp 4) 0x060) (s.rd64 (pgBcp 0) 0x050))
  | 3 => if s.bcp.upd.isSome then ((({ s with bcp := { s.bcp with upd := none } } : State).updState 0).irq (pgBcp 4) 16) else s
  | _ => s

/-- A tile update ends: BCP_TUPD_STAT, bit 17, record 0x0011 (spec/20 R539, R553). -/
def State.tupdEnd (s : State) (tile spare st : Nat) : State :=
  let s := { s with bcp := { s.bcp with tupd := none } }
  let s := (s.wr (pgBcp 4) 0x070 (st * 2 ^ 29 + spare)).irq (pgBcp 4) 17
  s.logEvent 0x0011 1 0xFFFF (tile + spare * 2 ^ 8 + st * 2 ^ 16)

/-- BCP_TUPD with OP = START (spec/20 R553): the section goes into the lowest READY spare, its pages into TILE_KEEP, and UPDATE is requested. -/
def State.tupdStart (s : State) (sec tile : Nat) : State :=
  if s.bcp.tupd.isSome then s else
  match s.readySpare tile with
  | none => s.tupdEnd tile 0 4
  | some sp =>
    let (lanes, tags, entry) := Config.tileSection (s.bankImg s.runBank) sec
    let lanes := lanes.filter fun q => decide (q.1 < 65536)
    let s : State := lanes.foldl (fun (s : State) (q : Nat × Nat) => s.wrMem (tileBase sp + 8 * q.1) 8 q.2) s
    let s : State := (tags.filter fun g => decide (g < 32768)).foldl (fun (s : State) (g : Nat) => s.setTag (tileBase sp + 16 * g) 7) s
    let keep := lanes.foldl (fun m q => m ||| 2 ^ (q.1 / 512)) 0
    let p := pgTile tile
    let s := (s.wr64 p 0x0B0 (s.rd64 p 0x0B0 ||| keep % 2 ^ 64)).wr64 p 0x0B8 (s.rd64 p 0x0B8 ||| keep / 2 ^ 64)
    let s := { s with bcp := { s.bcp with tupd := some (tile, sp, entry) } }
    let s := s.spareRequest tile 2 sp
    if s.fld p 0x0A4 31 29 == 4 then s.tupdEnd tile sp 4 else s.wr (pgBcp 4) 0x070 (2 ^ 29 + sp)

/-- Follows the tile update under way: after the take-over TILE_ENTRY and the present MODE are written (spec/20 R553). -/
def State.tupdFollow (s : State) : State :=
  match s.bcp.tupd with
  | none => s
  | some (tile, sp, entry) =>
    match s.fld (pgTile tile) 0x0A4 31 29 with
    | 3 => (((s.setFld (pgTile sp) 0x044 18 6 (min 8189 (entry / 64))).tileCfgWritten .basecamp sp)).tupdEnd tile sp 3
    | 4 => s.tupdEnd tile sp 4
    | _ => s

/-! IEEE 1588 (spec/20 R543, spec/03 R68). -/

/-- WALL's position moves by `d` seconds: recorded in TRK_JUMP, counted in BCP_PTP_STEPS, logged in ns. -/
def State.wallStep (s : State) (d : Rat) : State :=
  let x := s.wall.pos s.now + d
  let h := s.trkH 0
  let s := { s with wall := { s.wall with t0 := s.now, p0 := x, rate := 1 } }
  let s := ((s.setTrk 0 { h with jumpAt := some x, jump := tposOf d }).irq (pgTrk 0) 17).bump (pgBcp 3) 0x04C 31 0
  s.logEvent 0x00A0 1 0xFFFF (2 + ofS 64 (ratNearest (d * 1000000000)) * 2 ^ 8)

/-- PTP_SYNC (spec/20 R543): a Sync whose offset, local minus master, is `ofs` ns; `ptp` is PTP time now, in TPOS counts. 8 offsets within ±1 µs lock the servo, 4 beyond ±10 µs unlock it. Track 0 steps at the first lock; later it slews offsets below 1 ms and steps larger ones. A master takes no Sync. -/
def ptpSync (ofs : Int) (ptp t : Nat) (s : State) : State :=
  let s := s.upTo t
  if !s.getB (pgBcp 3) 0x040 31 || s.getB (pgBcp 3) 0x044 29 then s else
  let s := s.wr (pgBcp 3) 0x048 (ofS 32 (satS 32 ofs))
  let good := if ofs.natAbs ≤ 1000 then s.bcp.good + 1 else 0
  let bad := if 10000 < ofs.natAbs then s.bcp.bad + 1 else 0
  let s := { s with bcp := { s.bcp with good := min 8 good, bad := min 4 bad, tSync := t } }
  let s := if s.fld (pgBcp 3) 0x044 31 30 = 0 then s.setFld (pgBcp 3) 0x044 31 30 1 else s
  let first := !s.wall.everLocked
  let s := if 8 ≤ good then s.servoLock true else if 4 ≤ bad then s.servoLock false else s
  if first then
    (if s.wall.locked then ({ s with wall := { s.wall with everLocked := true } } : State).wallStep ((ptp : Rat) / 2 ^ 32 - s.wall.pos t) else s)
  else if ofs = 0 then s
  else if ofs.natAbs < 1000000 then
    let (d, s) := s.draw
    { s with wall := { s.wall with t0 := t, p0 := s.wall.pos t, rate := Config.slewRate ofs d } }
  else s.wallStep (-(ofs : Rat) / 1000000000)

/-- SYNC_TIMEOUT (spec/20 R543): 8 s without Sync. -/
def syncTimeout (t : Nat) (s : State) : State :=
  let s := s.upTo t
  if s.bcp.tSync + 8 * cyclesPerS ≤ t then ({ s with bcp := { s.bcp with good := 0, bad := 0 } } : State).servoLock false else s

/-- What BCP_PTP_CFG asks once written: EN = 0 turns the servo off; a MASTER is in use at once. -/
def State.ptpCfgWritten (s : State) : State :=
  let en := s.getB (pgBcp 3) 0x040 31
  let s := s.setB (pgBcp 3) 0x044 29 (en && s.getB (pgBcp 3) 0x040 30)
  if en then (if s.fld (pgBcp 3) 0x044 31 30 = 0 then s.setFld (pgBcp 3) 0x044 31 30 1 else s)
  else (({ s with bcp := { s.bcp with good := 0, bad := 0 } } : State).servoLock false).setFld (pgBcp 3) 0x044 31 30 0

/-! Bivouac and off (spec/20 R554–R556). -/

def State.setPstate (s : State) (v : Nat) : State := (({ s with bcp := { s.bcp with pst := v } } : State).setFld (pgBcp 5) 0x044 31 29 v).irq (pgBcp 5) 16

/-- Basecamp writes PAGE_CTRL.ENABLE; a locked page keeps it, counted (spec/02 R46). -/
def State.setEnable (s : State) (p : Nat) (v : Bool) : State :=
  if s.enabled p = v then (if v then s.enableEffect p else s)
  else if s.locked p then s.clampCount p oCtrl 2
  else
    let s := s.setB p oCtrl 0 v
    if v then s.enableEffect p else s.disableEffect p

/-- Writes ECC_PWR of a page and applies it. -/
def State.setPwr (s : State) (p v : Nat) : State := (s.wr p 0x044 (s.eccPwrClamp p v)).eccPwrApply p

def enginePages : List Nat := (List.range 16).flatMap fun c => [pgArs c, pgTfe c, pgFrd c]
def tilePages : List Nat := (List.range 128).map pgTile

/-- The pages whose blocks stand on the compute dies and run no more in bivouac (spec/20 R554). -/
def computePages : List Nat :=
  ((List.range 16).flatMap fun c => [pgClu c, pgArs c, pgTfe c, pgFrd c, pgBistC c]) ++ ((List.range 128).flatMap fun t => [pgTile t, pgPmc t]) ++
    (List.range 64).map pgSout ++ [pgSoutD 0, pgSoutD 1]

/-- ENTER or OFF (spec/20 R555): refused with its reason, or steps 1 to 4 of the entry run; step 5 ends it. -/
def State.bivEnter (s : State) (off : Bool) : State :=
  let refuse (r : Nat) : State := s.setFld (pgBcp 5) 0x044 23 16 r
  if (List.range 64).any (fun o => !s.isOff (pgSout o)) then refuse 1
  else if s.updating then refuse 2
  else if s.pstate' ≠ 0 then refuse 3
  else
    let rec_ := allPages.filter fun p => s.enabled p
    let saved := (pgEccD, s.rd pgEccD 0x044) :: ((List.range 16).map fun c => (pgEccC c, s.rd (pgEccC c) 0x044)) ++
      (List.range 128).map fun t => (pgEccT t, s.rd (pgEccT t) 0x044)
    let s := { s with bcp := { s.bcp with recorded := rec_, pwrSaved := saved, toOff := off, wakeHeld := none } }
    let s := (s.setFld (pgBcp 5) 0x044 23 16 0).setPstate 1
    let s := s.each (rec_.filter fun p => decide (0x400 ≤ p ∧ p < 0x600)) fun s p => s.setEnable p false
    let s := s.each (enginePages.filter fun p => rec_.contains p) fun s p => s.setEnable p false
    let s := s.each (tilePages.filter fun p => rec_.contains p) fun s p => s.setEnable p false
    let s := s.each (List.range 128) fun s t => s.setPwr (pgEccT t) (b2n (s.getB (pgBcp 5) (0x050 + 4 * (t / 32)) (t % 32)))
    let s := s.each (List.range 16) fun s c =>
      s.setPwr (pgEccC c) ((List.range 16).foldl (fun a b => a + b2n (s.getB (pgBcp 5) (0x060 + 4 * (c / 2)) (16 * (c % 2) + b)) * 4 ^ b) 0)
    s.setPwr pgEccD 1

/-- Step 5 of the entry (spec/20 R555): rope ports per spec/19 R528; for OFF the dies, the DRAM and the port-PHY dies lose power. -/
def State.bivStep5 (s : State) : State :=
  let s := s.ropeBivouac
  let s := computePages.foldl (fun s p => s.powerEffect p (match pageAt p with
    | some (.tile, t) => if s.fld (pgEccT t) 0x048 1 0 = 1 ∧ !s.bcp.toOff then 1 else 0
    | _ => 0)) s
  if s.bcp.toOff then
    let s := s.each ((List.range 14).map (· + 2)) fun s r => s.ropeDown r 0
    let s := s.each (((List.range 16).map pgEccC) ++ ((List.range 128).map pgEccT) ++ [pgEccD]) fun s p => s.setPwr p 0
    -- the far sides of the port-PHY and DRAM crossings lose power (spec/18 R498)
    let s := s.each (List.range 32) fun s n => farSidePower 1 n false s.now s
    let s := farSidePower 5 0 false s.now s
    (allPages.filter fun p => !onBasecamp p && decide (p < 0x800 ∨ 0x840 ≤ p)).foldl (fun s p => s.powerEffect p 0) s
  else s

/-- A wake from source `src` (spec/20 R556): from BIVOUAC the entry steps are reversed and every recorded page is enabled; from OFF boot steps 4 and 5 run, while no die sensor stands at WARN after CRIT (R559); one that arrives in ENTERING is held. -/
def State.bivWake (s : State) (src : Nat) : State :=
  let go (s : State) : State := (s.setFld (pgBcp 5) 0x044 27 24 src).setPstate 3
  match s.pstate' with
  | 1 => { s with bcp := { s.bcp with wakeHeld := some src } }
  | 2 =>
    let s := go s
    let saved := s.bcp.pwrSaved
    let s := (computePages.filter fun _ => !s.bcp.hot).foldl (fun s p => s.powerEffect p 2) s
    let s := s.each saved fun s q => s.setPwr q.1 q.2
    let s := s.each s.bcp.recorded fun s p => s.setEnable p true
    s.ropeWake
  | 4 =>
    if src < 3 ∨ (s.bcp.hot ∧ (List.range 40).any fun i => decide (toS 16 (s.fld (pgPwr 3) 0x040 31 16) ≤ toS 16 (s.fld (pgPwr 3) (0x100 + 4 * i) 15 0))) then s
    else
      let s := go s
      let ropes := s.ropes; let teams := s.teams; let circs := s.circs; let rope := s.rope
      let s := s.fresh fun p => onBasecamp p || decide (0x800 ≤ p ∧ p < 0x840)
      let s := { s with ropes := ropes, teams := teams, circs := circs, rope := rope }
      s.powerUp.ropeWake
  | _ => s

/-- ENTRY_SEQUENCE_COMPLETE (spec/20 R555, R556): the last step ends and PSTATE is BIVOUAC or OFF; a held wake exits from the point reached. -/
def entryComplete (t : Nat) (s : State) : State :=
  let s := s.upTo t
  if s.pstate' ≠ 1 then s else
  match s.bcp.wakeHeld with
  | some src => (({ s with bcp := { s.bcp with wakeHeld := none } } : State).setPstate 2).bivWake src
  | none => ((s.bivStep5).setPstate (if s.bcp.toOff then 4 else 2)).logEvent 0x0020 0 0xFFFF 0

/-- EXIT_SEQUENCE_COMPLETE (spec/20 R556). -/
def exitComplete (t : Nat) (s : State) : State :=
  let s := s.upTo t
  if s.pstate' ≠ 3 then s else (s.setPstate 0).logEvent 0x0021 0 0xFFFF (s.fld (pgBcp 5) 0x044 27 24)

/-- Wake source 4 (spec/20 R556): the track input named stands at LEVEL. -/
def State.wakeInput (s : State) : State :=
  let w := s.rd (pgBcp 5) 0x048
  if bit w 31 && (s.pstate' == 1 || s.pstate' == 2 || s.pstate' == 4) && (s.trkInH (bits w 21 16)).level == bit w 15 &&
      s.bcp.wakeHeld.isNone then s.bivWake 4 else s

/-! Power (spec/20 R558, R559, spec/21). Readings come with the commands, in the units of the PWR pages. -/

/-- SPWR_LOW (spec/21 R571): below 18.0 V for 1 ms, or above 33 V; `v` is the voltage in 10 mV. -/
def spwrLowEvent (v t : Nat) (s : State) : State :=
  let s := s.upTo t
  if ¬ (v < 1800 ∨ 3300 < v) then s else
  let s := ({ s with spwrLow := true } : State).setFld (pgPwr 1) 0x040 31 16 v
  s.each (List.range 512) fun s p =>
    let pg := pgSpt p
    if s.pstate p = 0 ∨ s.getB pg 0x048 1 = true ∨ !s.getB pg 0x044 15 then s
    else
      let s := if s.getB pg 0x048 0 then s.powerDown p else s
      ((s.setB pg 0x048 4).setFld pg oStatus 15 8 4).irq pg 21

/-- SPWR_RECOVERY (spec/21 R571): at 18.5 V or above for 100 ms. -/
def spwrRecovery (v t : Nat) (s : State) : State :=
  let s := s.upTo t
  if v < 1850 ∨ 3300 < v then s else
  let s := ({ s with spwrLow := false } : State).setFld (pgPwr 1) 0x040 31 16 v
  s.each (List.range 512) fun s p => if s.getB (pgSpt p) 0x048 4 then
    let s := s.setB (pgSpt p) 0x048 4 false
    if s.pstate p ≠ 0 ∧ s.getB (pgSpt p) 0x044 15 ∧ !s.getB (pgSpt p) 0x048 1 ∧ (s.portH p).retryAt.isNone then
      s.setPort p { s.portH p with detect := true }
    else s
  else s

/-- SPWR_LIMIT (spec/21 R571): the converter holds its input at 560 W. -/
def spwrLimit (t : Nat) (s : State) : State := ((s.upTo t).setFld (pgPwr 1) 0x044 15 0 5600).setB (pgPwr 1) 0x044 31

/-- The two feed voltages as read: their registers and A_OK, B_OK (spec/20 R558). -/
def State.feeds (s : State) (va vb : Nat) : State :=
  let ok (v : Nat) : Bool := decide (900 ≤ v) && decide (v ≤ 6000)
  (((s.setFld (pgPwr 0) 0x040 31 16 va).setFld (pgPwr 0) 0x044 31 16 vb).setB (pgPwr 0) 0x050 31 (ok va)).setB (pgPwr 0) 0x050 30 (ok vb)

/-- FEED_LOSS (spec/21 R564): feed A (0) or B (1) has stayed outside 9–60 V for 1 ms. -/
def feedLoss (feed v t : Nat) (s : State) : State :=
  let s := s.upTo t
  if 2 ≤ feed ∨ (900 ≤ v ∧ v ≤ 6000) then s
  else ((s.setFld (pgPwr 0) (0x040 + 4 * feed) 31 16 v).setB (pgPwr 0) 0x050 (31 - feed) false).bump (pgPwr 0) 0x054 15 0

/-- BUS_LOW (spec/21 R567): below 8.8 V the storage feeds the bus; every function runs on. -/
def busLow (vbus store t : Nat) (s : State) : State :=
  let s := s.upTo t
  if 880 ≤ vbus then s else ((s.setFld (pgPwr 2) 0x100 31 16 (min 65535 (vbus * 10))).setFld (pgPwr 0) 0x04C 15 0 store).setB (pgPwr 0) 0x04C 31 (decide (7600 ≤ store))

/-- HOLD_UP_READY (spec/21 R567): the storage has reached 76 V. -/
def holdUpReady (store t : Nat) (s : State) : State :=
  let s := s.upTo t
  if store < 7600 then s else (s.setFld (pgPwr 0) 0x04C 15 0 store).setB (pgPwr 0) 0x04C 31

/-- The DATA of records 0x0003 and 0x0004. -/
def feedData (va vb store : Nat) : Nat := va + vb * 2 ^ 16 + store * 2 ^ 32

/-- POWER_FAIL (spec/20 R541): both feeds below 8.5 V for 50 µs. A flash erase is aborted, the record written, the staging buffer flushed. -/
def powerFail (va vb store t : Nat) (s : State) : State :=
  let s := s.upTo t
  if 850 ≤ va ∨ 850 ≤ vb ∨ s.getB (pgPwr 0) 0x050 29 then s else
  let s := (((s.feeds va vb).setFld (pgPwr 0) 0x04C 15 0 store).setB (pgPwr 0) 0x050 29).bump (pgPwr 0) 0x054 31 16
  let s := match s.bcp.upd with
    | some u => if u.phase = 0 then (({ s with bcp := { s.bcp with upd := none } } : State).updState 5).irq (pgBcp 4) 16 else s
    | none => s
  (s.logEvent 0x0003 3 0xFFFF (feedData va vb store)).logFlush

/-- PFAIL_END (spec/21 R568): a feed has stood at 9.0 V or above for 1 ms again. -/
def pfailEnd (va vb store t : Nat) (s : State) : State :=
  let s := s.upTo t
  if !s.getB (pgPwr 0) 0x050 29 ∨ (va < 900 ∧ vb < 900) then s
  else (((s.feeds va vb).setFld (pgPwr 0) 0x04C 15 0 store).setB (pgPwr 0) 0x050 29 false).logEvent 0x0004 0 0xFFFF (feedData va vb store)

/-- STORAGE_EXHAUSTED (spec/21 R567): at 25 V the discharge converter stops and power-on reset follows; it is held until a feed returns. What stood in the staging buffer is lost. -/
def storageExhausted (store : Nat) (s : State) : State :=
  if 2500 < store then s else
  let b := s.bcp
  let s' : State :=
    { pending := s.pending, free := s.free, regs := s.regs.filter fun q => keepsAtPower q.1,
      bcp := { held := true, keys := b.keys, imgA := b.imgA, imgB := b.imgB, store := b.store, storeNew := b.storeNew, repairs := b.repairs, fuses := b.fuses },
      log := { nextSeq := s.log.nextSeq, flash := s.log.flash }, out := s.out }
  s'.addRetired (s.retiredWords false)

/-- Removes the power of a compute die: its blocks, its drive block and its banks (spec/20 R559, spec/21 R569). -/
def State.dieOff (s : State) (d : Nat) : State :=
  let cs := (List.range 8).map (8 * d + ·)
  let ps := cs.flatMap fun c => [pgClu c, pgArs c, pgTfe c, pgFrd c, pgWpt c 0, pgWpt c 64, pgBistC c] ++
    ((List.range 8).flatMap fun i => [pgTile (8 * c + i), pgPmc (8 * c + i)])
  let s := ps.foldl (fun s p => s.powerEffect p 0) s
  let s := s.each (cs.flatMap fun c => pgEccC c :: (List.range 8).map fun i => pgEccT (8 * c + i)) fun s p => s.setPwr p 0
  s.powerEffect (pgSoutD d) 0

/-- Nominal voltages of the rails in mV (spec/21 R569); 0 for those that carry external voltages. -/
def railNominal : List Nat :=
  [0, 0, 12000, 750, 750, 850, 850, 750, 1800, 900, 1200, 1050, 900, 500, 1800, 800, 3300, 1800, 1000, 1000, 1000, 1000, 3300, 3300, 5000, 12000, 12000]

/-- Whether a rail stands outside ±5 % of its nominal value. -/
def railOut (i mv : Nat) : Bool :=
  let nom := railNominal.getD i 0
  decide (21 * nom < 20 * mv) || decide (20 * mv < 19 * nom)

/-- The far sides of crossings of one kind lose power. -/
def State.farOff (s : State) (x : Nat) (l : List Nat) : State := s.each l fun s n => farSidePower x n false s.now s

/-- The I/O die loses power: sensor-port MACs, track inputs and estimator, stream table and router, rope ports, the DRAM controller with its memory, and the crossings that lead from it to its own clocks (spec/01 R20, spec/18 R499). -/
def State.ioDieOff (s : State) : State :=
  let pages : List Nat := (List.range 512).map pgSpt ++ (List.range 128).map (0x600 + ·) ++ pgStr :: (List.range 128).map (0x701 + ·) ++ (List.range 16).map pgRope
  let s := (s.each pages fun s p => s.powerEffect p 0).setPwr pgEccD 0
  ((s.farOff 2 [0]).farOff 4 (List.range 32)).farOff 5 [0]

/-- What loses power with a rail (spec/21 R569, by spec/09 R274, spec/18 R496, spec/20 R534). -/
def State.railOff (s : State) (i : Nat) : State :=
  let off (s : State) (l : List Nat) : State := l.foldl (fun s p => s.powerEffect p 0) s
  let ropes : List Nat := (List.range 16).map pgRope
  match i with
  | 2 => (((s.dieOff 0).dieOff 1).ioDieOff).farOff 1 (List.range 32)
  | 3 | 5 => s.dieOff 0
  | 4 | 6 => s.dieOff 1
  | 7 | 8 => s.ioDieOff
  | 9 | 10 => (off s ropes).farOff 4 (List.range 32)
  | 11 | 12 | 13 | 14 => (s.setPwr pgEccD 0).farOff 5 [0]
  | 15 => off (s.farOff 6 [0]) ((List.range 8).map pgBcp ++ (List.range 4).map pgPwr)
  | 16 => s.setFld (pgBcp 2) 0x04C 31 30 0
  | 17 => if s.updating then ({ s with bcp := { s.bcp with upd := none } } : State).updState 5 else s
  | 18 | 19 | 20 | 21 => (off s ((List.range 128).map fun p => pgSpt (128 * (i - 18) + p))).farOff 1 ((List.range 8).map (8 * (i - 18) + ·))
  | 22 => off s ((List.range 512).map pgSpt)
  | 23 => off s ropes
  | 24 => off s ((List.range 64).map pgTrkIn)
  | 25 => s.powerEffect (pgSoutD 0) 0
  | 26 => s.powerEffect (pgSoutD 1) 0
  | _ => s

/-- RAIL_FAULT (spec/21 R569): rail `i`, at `mv`, outside ±5 % of its nominal value for 10 µs removes power from the domain it feeds; rails 0, 1 and 27 to 31 carry external voltages and are exempt: their reading alone follows, and that of a field supply tells whether it stands below 15 V (R577). -/
def railFault (i mv t : Nat) (s : State) : State :=
  let s := s.upTo t
  if 32 ≤ i then s
  else if i < 2 ∨ 27 ≤ i then
    let s := s.setFld (pgPwr 2) (0x100 + 4 * i) 31 16 mv
    if i < 28 then s
    else
      let l := s.bcp.fldLow.filter (· != i - 28)
      { s with bcp := { s.bcp with fldLow := if mv < 15000 then l ++ [i - 28] else l } }
  else if !railOut i mv then s
  else ((s.setFld (pgPwr 2) (0x100 + 4 * i) 31 16 mv).logEvent 0x0030 2 (pgPwr 0) 0).railOff i

/-- A die or board sensor's reading. -/
def State.temp (s : State) (i : Nat) (v : Int) : State := s.setFld (pgPwr 3) (0x100 + 4 * i) 15 0 (ofS 16 v)

/-- TEMPERATURE_WARN (spec/20 R559): a die sensor stands at or above WARN; `v` in 0.1 °C. -/
def temperatureWarn (i : Nat) (v : Int) (t : Nat) (s : State) : State :=
  let s := s.upTo t
  if 40 ≤ i ∨ v < toS 16 (s.fld (pgPwr 3) 0x040 31 16) then s
  else ((s.temp i v).irq (pgPwr 3) 16).logEvent 0x00B0 2 (pgPwr 3) (i + ofS 16 v * 2 ^ 8)

/-- TEMPERATURE_CRIT (spec/20 R559): at CRIT both compute dies lose power and every output's switches open. -/
def temperatureCrit (i : Nat) (v : Int) (t : Nat) (s : State) : State :=
  let s := s.upTo t
  if 40 ≤ i ∨ v < toS 16 (s.fld (pgPwr 3) 0x040 15 0) then s
  else
    let s := (s.temp i v).logEvent 0x00B0 2 (pgPwr 3) (i + ofS 16 v * 2 ^ 8)
    let s := if toS 16 (s.fld (pgPwr 3) 0x040 31 16) ≤ v then s.irq (pgPwr 3) 16 else s
    let s := (s.dieOff 0).dieOff 1
    { s with bcp := { s.bcp with hot := true } }

end Sys2Proof.Machine
end

