-- ==== Sys2Proof/Machine/Bus.lean ====
section
/-! DEFINITION. Reads and writes of control pages (spec/02 R33–R51): alignment, access codes, silent clamping, the registers that show what stands elsewhere, and what a write asks of its block. -/

namespace Sys2Proof.Machine

/-! What registers show. -/

/-- The kinds of page that follow a tile's work (spec/10 R311: the spare's accesses to the retired tile's own pages reach its own). -/
def State.routePage (s : State) (w : Writer) (page : Nat) : Nat :=
  match w with
  | .tile u _ =>
    if 0x200 ≤ page ∧ page < 0x400 ∧ s.workTile ((page - 0x200) / 4) = u then 0x200 + 4 * u + page % 4 else page
  | _ => page

/-- The selected circuit of ROPE_CIRC_SEL. -/
def State.circSel (s : State) : Nat := s.fld pgRopeL 0x300 11 0

/-- A word of the circuit registers 0x308–0x31F (spec/19 R517–R521). -/
def State.circWord (s : State) (off : Nat) : Nat :=
  let h := s.circH s.circSel
  match off with
  | 0x308 => lo32 h.w0.toNat
  | 0x30C => hi32 h.w0.toNat
  | 0x310 => lo32 h.w1.toNat
  | 0x314 => hi32 h.w1.toNat
  | 0x318 => h.cstate * 2 ^ 29 + h.dup * 2 ^ 16 + h.noEntry
  | _ => h.lost

/-- A word of a team's directory (spec/19 TEAM): 16 bytes for each label. -/
def State.dirWord (s : State) (i off : Nat) : Nat :=
  let l := (off - 0x040) / 16 + 1
  let e := sget labZero (s.teamH i).table l
  let left := if e.st = 2 then (s.rd pgRopeL 0x070 * cyclesPerS - min (s.rd pgRopeL 0x070 * cyclesPerS) (s.now - e.lostT) + cyclesPerS - 1) / cyclesPerS else 0
  match (off - 0x040) % 16 / 4 with
  | 0 => lo32 e.key
  | 1 => hi32 e.key
  | 2 => e.st + 4 * b2n e.team + 256 * (left % 65536)
  | _ => e.mods

/-- The word at an offset of a page as it reads: most stand in State.regs, those that show something else are computed. -/
def State.regView (s : State) (k : Kind) (i page off : Nat) : Nat :=
  let v := s.rd page off
  match k with
  | .bcp =>
    if i = 0 ∧ (off = 0x060 ∨ off = 0x064) then
      let up := (s.now - s.bcp.start) * 2 / 15
      if off = 0x060 then lo32 up else hi32 up
    else if i = 1 ∧ off = 0x040 then lo32 s.log.nextSeq
    else if i = 1 ∧ off = 0x044 then lo32 s.logOldest
    else if i = 1 ∧ 0x060 ≤ off ∧ off < 0x080 then (s.logWords (s.rd page 0x04C)).getD ((off - 0x060) / 4) 0
    else if i = 7 ∧ off = 0x044 then
      let h := s.bcp.keys.getD (s.fld page 0x040 2 0) {}
      256 * b2n h.upd + h.right
    else v
  | .clu => if off = 0x040 then s.cluInfo i else if off = 0x044 then s.cluBanks i else v
  | .bistM | .bistC =>
    let r := s.bistHead page
    match off with
    | 0x060 => lo32 r.1
    | 0x064 => hi32 r.1
    | 0x068 => lo32 r.2
    | 0x06C => hi32 r.2
    | _ => v
  | .eccD | .eccC | .eccT => if off = 0x04C then setBit v 31 (bit v 31 && s.getB page 0x040 31) else v
  | .xng => if i = 0 ∧ off = 0x040 then s.xngSummary else v
  | .wdgB | .wdgC | .wdgT => if off = 0x060 then s.wdgRemain page else v
  | .spt => if 0x200 ≤ off ∧ off % 64 = 4 ∧ off < 0x300 then s.chStat i ((off - 0x200) / 64) else v
  | .str =>
    match off with
    | 0x040 => 0x1000 + 2 ^ 16 * (s.strs.filter fun q => q.2.en).length
    | 0x044 => s.safetyW
    | 0x060 => if s.flow.1 = s.now / cyclesPerMs then s.flow.2.2 else if s.flow.1 + 1 = s.now / cyclesPerMs then s.flow.2.1 else 0
    | _ => v
  | .strT =>
    let e := 32 * i + (off - 0x040) / 0x60
    let o := (off - 0x040) % 0x60
    if o = 0 then setBits (setBits v 2 0 (s.strState e)) 23 16 (s.strH e).gen
    else if 0x14 ≤ o ∧ o < 0x50 ∧ o % 16 = 4 then s.slotStat e ((o - 0x14) / 16) else v
  | .ropeL => if 0x308 ≤ off ∧ off < 0x320 then s.circWord off else v
  | .team => if 6 ≤ i ∧ i < 12 then s.dirWord (i - 6) off else v
  | .tile =>
    match off with
    | 0x078 | 0x07C => match (s.tileH i).rq with
      | e :: _ => if off = 0x078 then lo32 e.w1.toNat else hi32 e.w1.toNat
      | [] => 0
    | 0x090 | 0x094 => match (s.tileH i).mbox with
      | e :: _ => if off = 0x090 then lo32 e.1 else hi32 e.1
      | [] => 0
    | 0x040 => setBits v 31 30 (s.cfgMode i)
    | 0x0C4 => setBits v 28 24 ((s.tileH i).dbgT.filter (s.now < ·)).length
    | _ => v
  | _ => v

/-- The read-and-clear bits of a word's fields. -/
def rcMask (fs : List Fld) : Nat :=
  fs.foldl (fun m f => if f.acc = .rc then m ||| ((2 ^ (f.hi + 1 - f.lo) - 1) <<< f.lo) else m) 0

/-- The bits of a word's fields that hold a value to read: all but write-only and reserved ones (spec/00_scope.md R9, R10). -/
def readMask (fs : List Fld) : Nat :=
  fs.foldl (fun m f => if f.acc = .wo then m else m ||| ((2 ^ (f.hi + 1 - f.lo) - 1) <<< f.lo)) 0

/-- A word as a read returns it: its read-and-clear counts without the events of the same cycle. R40 says so of PAGE_CLAMP and PAGE_ERR; the model reads every such count so (DEDUCED, log entry 174). -/
def State.readWord (s : State) (k : Kind) (i page off : Nat) (fs : List Fld) : Nat :=
  let v := s.regView k i page off
  let reg := if k = .ropeL ∧ (off = 0x318 ∨ off = 0x31C) then circPage s.circSel else page
  s.hotBefore reg off (rcMask fs) v &&& readMask fs

/-- What reading a word does besides: read-and-clear fields clear, but for the events of the same cycle (spec/00_scope.md R11, spec/02 R40). -/
def State.readEffect (s : State) (k : Kind) (page off : Nat) (fs : List Fld) : State :=
  match k with
  | .ropeL =>
    if off = 0x318 then
      let v := s.hotAfter (circPage s.circSel) off 0x0FFFFFFF
      s.setCirc s.circSel { s.circH s.circSel with dup := bits v 27 16, noEntry := bits v 15 0 }
    else if off = 0x31C then s.setCirc s.circSel { s.circH s.circSel with lost := s.hotAfter (circPage s.circSel) off 0xFFFFFFFF }
    else if rcMask fs = 0 then s else s.wr page off (s.hotAfter page off (rcMask fs))
  | _ => if rcMask fs = 0 then s else s.wr page off (s.hotAfter page off (rcMask fs))

/-- What a read that touches a popping register removes (spec/10 TILE_RQ1, TILE_MBOX_OUT, spec/17 BIST_RES1). -/
def State.readPop (s : State) (k : Kind) (i page off : Nat) : State :=
  let o := off / 8 * 8
  match k with
  | .tile => if o = 0x078 then (s.relPop i).2 else if o = 0x090 then (s.mboxPop i).2 else s
  | .bistM | .bistC => if o = 0x068 then s.setBist page { s.bistH page with fifo := (s.bistH page).fifo.drop 1 } else s
  | _ => s

/-- The words a bus access of 4 or 8 bytes touches, with their parts of the value (spec/02 R34). -/
def busWords (off size val : Nat) : List (Nat × Nat) :=
  if size = 8 then [(off, lo32 val), (off + 4, hi32 val)] else [(off, lo32 val)]

/-- Whether a bus access is 32 or 64 bits and naturally aligned (spec/02 R33). -/
def busAligned (off size : Nat) : Bool := (size == 4 || size == 8) && decide (off % size = 0) && decide (off + size ≤ 4096)

/-- A read of a control page (spec/02 R33, R34, R37, R44, R52): the value and the state after it. -/
def State.pageRead (s : State) (w : Writer) (page0 off size : Nat) : Nat × State :=
  let page := s.routePage w page0
  match pageAt page with
  | none => (0, s)
  | some (k, i) =>
    if !busAligned off size || (decide (0x040 ≤ off) && !s.powered page) then (0, s)
    else
      let s := match k with
        | .pmc => s.pmcSettle i
        | .ars => s.arsSettle i
        | .tfe => s.tfeSettle i
        | .frd => s.frdSettle i
        | _ => s
      let (v, s1) := (busWords off size 0).foldl (fun (acc : Nat × State) q =>
        match pageWord k i q.1 with
        | none => acc
        | some fs =>
          (acc.1 + s.readWord k i page q.1 fs * 2 ^ (8 * (q.1 - off)), acc.2.readEffect k page q.1 fs)) (0, s)
      (v, s1.readPop k i page off)

/-! Writes. -/

/-- What a write makes of one word: the new word, the values written to its write-only fields, whether a field was clamped, whether LOCK refused one. -/
structure Merge where
  off : Nat
  new : Nat
  act : Nat := 0
  clamped : Bool := false
  refused : Bool := false

/-- One field of a written word (spec/00_scope.md R9, R11, spec/02 R46); `hot` are the bits that events of the present cycle set. -/
def Merge.field (m : Merge) (locked : Bool) (hot raw : Nat) (f : Fld) : Merge :=
  let x := bits raw f.hi f.lo
  let y := f.legal.clamp x
  let cur := bits m.new f.hi f.lo
  match f.acc with
  | .rw => { m with new := setBits m.new f.hi f.lo y, clamped := m.clamped || y != x }
  | .rwl => if locked then { m with refused := true } else { m with new := setBits m.new f.hi f.lo y, clamped := m.clamped || y != x }
  | .ro | .rc => m
  | .wo => { m with act := setBits m.act f.hi f.lo y, clamped := m.clamped || y != x }
  | .w1c => { m with new := setBits m.new f.hi f.lo (clearBits cur (clearBits x (bits hot f.hi f.lo))) }
  | .w1s => { m with new := setBits m.new f.hi f.lo (cur ||| x) }

/-- What a cross-register rule makes of a word: its value, whether that counts as a clamp, whether the write of the word is no action. -/
structure Cross where
  val : Nat
  counted : Bool
  blocked : Bool := false

/-- A word clamped to a value; counted when that changes it. -/
def Cross.clampTo (v new : Nat) : Cross := ⟨new, new != v, false⟩

/-- A signed field of `w` bits held between two bounds. -/
def clampS (w : Nat) (lo hi : Int) (v : Nat) : Nat := ofS w (max lo (min hi (toS w v)))

/-- Whether any view or input of a resampler, or any slot of a reducer, is enabled. -/
def State.arsInUse (s : State) (c : Nat) : Bool :=
  (s.arsView.any fun q => q.1 / 512 == c && q.2.on) || s.arsIn.any fun q => q.1 / 256 == c && q.2.on

/-- Whether a vote group written to SOUT_GROUP is legal (spec/01 R21, spec/09 R283): tiles 0–63 lie on compute die 0. -/
def groupOk (v scheme : Nat) : Bool :=
  let n := bits v 31 30
  let ms := (List.range n).map fun m => bits v (8 * m + 6) (8 * m)
  if n = 1 then scheme == 0
  else ms.eraseDups.length == n && (ms.any fun t => decide (t < 64)) && ms.any fun t => decide (64 ≤ t)

/-- Whether a bypass window of the self-test lies wholly in DRAM or wholly in cluster memory (spec/17 BIST_ISOW). -/
def isoOk (base pages : Nat) : Bool :=
  let top := base + pages * 4096
  decide (top ≤ dramSize) || (decide (clusterBase 0 ≤ base) && decide (top ≤ clusterBase 16))

/-- Writers that may command the debug unit and write tags (spec/10 R322, spec/14 R427). -/
def fromDebugger (w : Writer) : Bool := match w with
  | .basecamp | .debug => true
  | _ => false

/-- Writers outside the module's management: tiles and rope (spec/19 R529). -/
def fromOuter (w : Writer) : Bool := match w with
  | .tile _ _ | .rope => true
  | _ => false

/-- The grant table, the preferences and the access slots of ROPE SUB 1 (spec/19 R529, ACC_PATH, ROPE_PREF). `nv` gives the words as this write leaves them. -/
def State.crossRope (s : State) (w : Writer) (o v : Nat) (nv : Nat → Nat) : Cross :=
  let cur := s.rd pgRopeL o
  let stop : Cross := ⟨cur, true, true⟩
  if o = 0x048 ∧ s.dstate ≠ 0 then stop
  else if o = 0x050 ∨ o = 0x054 then
    if s.dstate ≠ 0 then stop
    else Cross.clampTo v ((List.range 4).foldl (fun a b => if 0xFD ≤ bits v (8 * b + 7) (8 * b) then setBits a (8 * b + 7) (8 * b) 0 else a) v)
  else if 0x100 ≤ o ∧ o < 0x180 then
    let i := (o - 0x100) / 32
    let base := 0x100 + 32 * i
    if o % 32 < 0x18 ∧ (s.fld pgRopeL (base + 0x18) 31 29 = 1 ∨ (i < 2 ∧ fromOuter w = true)) then stop
    else if o % 32 < 8 ∧ bits (nv (base + 4)) 19 16 = 0 then
      Cross.clampTo v (if o % 32 = 0 then s.rd pgRopeL 0x058 else s.rd pgRopeL 0x05C)
    else ⟨v, false, false⟩
  else if 0x200 ≤ o ∧ o < 0x300 ∧ fromOuter w = true then stop
  else ⟨v, false, false⟩

/-- The safety outputs' own clamps (spec/09 R283). -/
def State.crossSout (s : State) (page i o v : Nat) (nv : Nat → Nat) : Cross :=
  let h := s.soutH i
  let cur := s.rd page o
  -- SCHEME and the group as a write of the pair leaves them (spec/02 R34): the group against the new SCHEME, which a COUNT that is and stays 1 holds at 1oo1
  let scheme := if s.soCount i = 1 ∧ bits (nv 0x044) 31 30 = 1 then 0 else bits (nv 0x040) 31 30
  let group := if groupOk (nv 0x044) scheme then nv 0x044 else s.rd page 0x044
  if 0x040 ≤ o ∧ o < 0x058 then
    if (h.die 0).st ≠ 0 ∨ (h.die 1).st ≠ 0 then ⟨cur, true, true⟩
    else if o = 0x040 ∧ bits v 31 30 ≠ 0 ∧ bits group 31 30 = 1 then ⟨setBits v 31 30 0, true, false⟩
    else if o = 0x044 ∧ group ≠ v then ⟨cur, true, true⟩
    else ⟨v, false, false⟩
  else ⟨v, false, false⟩

/-- Clamps of the sensor-port registers (spec/04 R115, R145, R146, SPT_CFG, SPT_PWR, SPT_GEN). DESIGN CHOICE (log entry 153): a port turned from NODE to HOST keeps its EN channels, with neither the duplicate numbers of spec/01 R15 nor the payload limit of R26 checked again. -/
def State.crossSpt (s : State) (page p o v : Nat) : Cross :=
  let cur := s.rd page o
  if o = 0x040 then
    if s.enabled page then ⟨cur, true, true⟩
    else
      let e := bits v 31 16
      Cross.clampTo v (if e < 0x600 ∨ e ∈ [0x8100, 0x88A8, 0x88B6] then setBits v 31 16 0x88B5 else v)
  else if o = 0x044 then Cross.clampTo v (if s.isNode p then setBit v 15 false else v)
  else if o = 0x058 ∨ o = 0x05C then (if s.enabled page then ⟨cur, true, true⟩ else ⟨v, false, false⟩)
  else if 0x200 ≤ o ∧ o < 0x300 then
    let k := (o - 0x200) / 64
    match o % 64 with
    | 0x00 =>
      Cross.clampTo v (s.chCfgClamp p k v)
    | 0x18 => Cross.clampTo v (if fIsNaN v then 0 else fClampRange 0 (fOfRat (fsOf (s.chRate p k) / 2)) v)
    | 0x20 => Cross.clampTo v (clampS 32 (-8388607) 8388607 v)
    | _ => ⟨v, false, false⟩
  else ⟨v, false, false⟩

/-- Execute windows (spec/14 R428): EN needs a window that is not empty and lies wholly in DRAM or wholly in cluster memory; BASE and PAGES hold while EN is 1. `wd` is the word of the window. -/
def State.crossXwin (s : State) (page o wd v : Nat) (nv : Nat → Nat) : Cross :=
  let b := o - 4 * wd
  let en := s.getB page (b + 4) 31
  let cur := s.rd page o
  match wd with
  | 1 =>
    if en then Cross.clampTo v (setBit cur 31 (bit v 31))
    else
      let base := nv b / 4096 * 4096 + bits v 7 0 * 2 ^ 32
      let n := s.fld page (b + 8) 27 0
      Cross.clampTo v (if bit v 31 && (n == 0 || !isoOk base n) then setBit v 31 false else v)
  | _ => Cross.clampTo v (if en then cur else v)

/-- Clamps of the TILE page (spec/10 R290, TILE_CFG, TILE_FREE, spec/14 R428) and of who may write its commands. -/
def State.crossTile (s : State) (w : Writer) (page t o v : Nat) (nv : Nat → Nat) : Cross :=
  let cur := s.rd page o
  if 0x100 ≤ o ∧ o < 0x140 then s.crossXwin page o (o % 16 / 4) v nv else
  match o with
  | 0x040 =>
    let fore := (s.tileH t).fore
    let v1 := if fore then setBits v 31 30 3 else if bits v 31 30 = 3 then setBits v 31 30 (s.tileH t).mode else v
    let v1 := if fore || s.enabled page then setBits v1 29 29 (bits cur 29 29) else v1
    Cross.clampTo v (if fore ∧ bits v1 28 27 = 2 then setBits v1 28 27 0 else v1)
  | 0x048 => Cross.clampTo v (setBits v 22 16 (min (bits v 22 16) (128 - bits v 6 0)))
  | 0x0C8 | 0x0CC | 0x0D0 | 0x0D4 => if fromDebugger w then ⟨v, false, false⟩ else ⟨cur, true, true⟩
  | 0x0C0 | 0x0F0 | 0x0F4 => if fromDebugger w then ⟨v, false, false⟩ else ⟨cur, true, true⟩
  | 0x0A0 => if w = .basecamp then ⟨v, false, false⟩ else ⟨cur, true, true⟩
  | _ => ⟨v, false, false⟩

/-- The value a word takes where its legal values depend on other registers, on the block's state or on who writes (spec/02 R48 and the tables of each chapter). -/
def State.cross (s : State) (w : Writer) (k : Kind) (i page o v act : Nat) (nv : Nat → Nat) : Cross :=
  let cur := s.rd page o
  let keep : Cross := ⟨v, false, false⟩
  let frozen : Cross := ⟨cur, true, true⟩
  if o < 0x040 then keep else
  match k with
  | .spt => s.crossSpt page i o v
  | .trk =>
    -- TRK_CFG of track 0 is RO: a write there is ignored and not counted (spec/03 R63, spec/00_scope.md R9; log entry 148)
    if i = 0 ∧ o = 0x040 then keep
    else if (o = 0x040 ∨ o = 0x044 ∨ o = 0x048 ∨ o = 0x04C ∨ o = 0x058) ∧ s.enabled page then frozen
    else if o = 0x044 then Cross.clampTo v (s.scaleClamp i v) else keep
  | .ars =>
    if o = 0x040 ∨ o = 0x044 then
      (if s.arsInUse i then frozen else Cross.clampTo v (fitOffset v (if o = 0x040 then 32768 else 8192)))
    else if o = 0x048 then
      if s.getB page 0x04C 31 || (bits act 31 28 != 0 && !s.ready page) then frozen
      else ⟨v, decide (3 ≤ bits act 31 28) && decide (255 < bits act 8 0), false⟩
    else keep
  | .frd =>
    if o = 0x040 ∨ o = 0x044 then
      (if (s.slotsOf i).isEmpty then Cross.clampTo v (fitOffset v (if o = 0x040 then 262144 else 524288)) else frozen)
    else if o = 0x048 ∧ (s.getB page 0x04C 31 || (bits act 31 28 != 0 && !s.ready page)) then frozen
    else keep
  | .tfe =>
    if o = 0x044 then Cross.clampTo v (fitOffset v 16384)
    else if o = 0x048 then Cross.clampTo v (setBits v 7 0 (clampS 8 (-8) 12 (bits v 7 0))) else keep
  | .wpt => if (o - 0x040) % 0x20 = 8 ∧ o < 0x840 then Cross.clampTo v (wptCfgClamp v) else keep
  | .strT =>
    -- an entry's RW fields hold while its COMMIT reads 1 (spec/05 R150)
    let e := (o - 0x040) / 0x60; let r := (o - 0x040) % 0x60
    if o < 0xC40 ∧ (r < 0x0C ∨ (0x10 ≤ r ∧ r < 0x50 ∧ r % 16 ≠ 4)) ∧ s.getB page (0x040 + 0x60 * e) 30 then frozen else keep
  | .tile => s.crossTile w page i o v nv
  | .pmc => if 0x050 ≤ o ∧ o < 0x068 then Cross.clampTo v (s.pmcSelClamp i v) else keep
  | .wdgB | .wdgC | .wdgT =>
    if o = 0x040 then Cross.clampTo v (s.wdgActClamp page v)
    else if o = 0x050 then Cross.clampTo v (min v (s.fld page 0x048 23 0)) else keep
  | .eccC | .eccT => if o = 0x044 then Cross.clampTo v (s.eccPwrClamp page v) else keep
  | .eccD =>
    if o = 0x044 then Cross.clampTo v (s.eccPwrClamp page v)
    else if o = 0x064 then Cross.clampTo v (setBits v 15 12 (min (bits v 15 12) (80 - bits v 22 16))) else keep
  | .bistM =>
    if 0x080 ≤ o ∧ o < 0x0C0 ∧ o % 16 = 4 then
      let base := nv (o - 4) / 4096 * 4096 + bits v 7 0 * 2 ^ 32
      Cross.clampTo v (if bit v 31 && !isoOk base (s.fld page (o + 4) 27 0) then setBit v 31 false else v)
    else if o = 0x0C0 ∧ w ≠ .basecamp then frozen else keep
  | .sout => s.crossSout page i o v nv
  | .rope =>
    if o = 0x040 then
      if s.enabled page then frozen
      else
        let v1 := if bits v 31 30 = 1 then v else setBit v 29 false
        Cross.clampTo v (setBits v1 27 25 (min (min 5 (bits v1 27 25)) (s.ropeDepth - 1)))
    else if o = 0x050 then (if s.enabled page then frozen else Cross.clampTo v (clampS 32 (-(2 ^ 20)) (2 ^ 20) v))
    else keep
  | .ropeL => s.crossRope w o v nv
  | .pwr => if i = 3 ∧ o = 0x040 then Cross.clampTo v (setBits v 15 0 (clampS 16 (-32768) 1150 (bits v 15 0))) else keep
  | _ => keep

/-! Access slots of the rope (spec/19 R522, R523). -/

def State.slotAcc (s : State) (i : Nat) : SlotAcc := s.rope.slots.getD i {}
def State.setSlotAcc (s : State) (i : Nat) (a : SlotAcc) : State := { s with rope := { s.rope with slots := setAt s.rope.slots i a } }

/-- The tag of a slot's present access: the slot in its low two bits. -/
def State.slotTag (s : State) (i : Nat) : Nat := i + 4 * (s.slotAcc i).n

/-- A slot's access ends: ACC_STAT takes its state and reason, bit 19 is raised. -/
def State.slotEnd (s : State) (i st reason : Nat) (pois : Bool := false) : State :=
  (s.wr pgRopeL (0x118 + 32 * i) (st * 2 ^ 29 + reason % 32 * 2 ^ 24 + b2n pois)).irq pgRopeL 19

/-- The request words of an access frame: the operation, the origin and the address, then the write data; the payload layout is the model's own. -/
def accWords (op addr data : Nat) (tile : Bool) : List Nat := [addr + op * 2 ^ 40 + b2n tile * 2 ^ 44, data]

/-- A slot issues its access (spec/19 R523): the request leaves for its path, or for this module itself; without a route, or while not READY, it ends refused with NOROUTE. -/
def State.accIssue (s : State) (i : Nat) (bap : Bool) : State :=
  let base := 0x100 + 32 * i
  let a := s.rd64 pgRopeL (base + 8)
  let op := bits a 63 60
  let addr := bits a 39 0
  let path := pathOf (s.rd64 pgRopeL base)
  let data := s.rd64 pgRopeL (base + 0x10)
  let tile := decide (2 ≤ i)
  let s := s.setSlotAcc i { t := s.now, op := op, bap := bap, n := ((s.slotAcc i).n + 1) % 2 ^ 14 }
  let tag := s.slotTag i
  let s := s.wr pgRopeL (base + 0x18) (2 ^ 29)
  match s.ropeSend 0x20 path tag 0 (accWords op addr data tile) with
  | (.port _, s) => s
  | (.here, s) => { s with rope := { s.rope with self := s.rope.self ++ [⟨s.ownPath, tag, tile, op, addr, data, false⟩] } }
  | (.team _, s) => { s with rope := { s.rope with self := s.rope.self ++ [⟨s.ownPath, tag, tile, op, addr, data, false⟩] } }
  | (.nowhere, s) => s.slotEnd i 3 3

/-! What a write asks of its block. -/

/-- Bundles run one after another from a copy's PC until its STEP has ended, at most `n`; one that is held leaves the rest to come. -/
def stepGo (t copy : Nat) : Nat → State → State
  | 0, s => s
  | n + 1, s =>
    let k := (s.tileH t).copies.getD copy {}
    if k.steps.isNone then s else stepGo t copy n (kIssue t copy none (s.bundleFor t k k.pc) s)

/-- STEP of TILE_DBG_CMD (spec/10 R322): the copy runs `n` bundles from where it is halted, and its last one halts it again; bundles that wait for a reply from outside run once it has come. -/
def State.dbgStep (s : State) (t v : Nat) : State :=
  let c := dbgCopy s t v
  let n := clampTo 1 65535 (bits v 23 0)
  let s := s.dbgJournal t v 0
  let h := s.tileH t
  let k := h.copies.getD c {}
  let s := s.setTile t { h with halted := setAt h.halted c false, copies := setAt h.copies c { k with steps := some n } }
  stepGo t c n s

/-- Enters an action of a checked tile in the replay queue of 16, where it stands until the last belay copy has it, 4 cycles later in TRIO and 2 in PAIR; answers whether there was room (spec/10 R322). -/
def State.dbgQueue (s : State) (t : Nat) : Bool × State :=
  let h := s.tileH t
  if 1 < h.mode then (true, s)
  else
    let q := h.dbgT.filter (s.now < ·)
    if 16 ≤ q.length then (false, s.bump (pgTile t) 0x0C4 15 0)
    else (true, s.setTile t { h with dbgT := q ++ [s.now + storeDelay h.mode true] })

/-- TILE_DBG_CMD (spec/10 R322). Answers whether a field was clamped. -/
def State.dbgCommand (s : State) (t v : Nat) : Bool × State :=
  let v' := if bits v 27 26 = 3 ∧ 1 < (s.tileH t).mode then setBits v 27 26 0 else v
  let (room, s) := if dbgOp v = 0 ∨ 5 < dbgOp v then (true, s) else s.dbgQueue t
  match if room then dbgOp v else 0 with
  | 1 => (v' != v, s.dbgHalt t v')
  | 2 => (v' != v, s.dbgResume t v')
  | 3 => (v' != v || bits v 23 0 == 0 || decide (65535 < bits v 23 0), s.dbgStep t v')
  | 4 => (v' != v, s.dbgRead t v')
  | 5 => (v' != v, s.dbgWrite t v')
  | _ => (v' != v, s)

/-- A command register of the TILE page; `actAt` gives the command values of the write's words. -/
def State.afterTile (s : State) (w : Writer) (page t o act : Nat) (both : Bool) (actAt : Nat → Nat) : State :=
  match o with
  | 0x040 => (s.tileCfgWritten w t).wdgSync t
  | 0x088 => s.mboxPush t (act + actAt 0x08C * 2 ^ 32) false
  | 0x08C => if both then s else s.mboxPush t (act * 2 ^ 32) false
  | 0x0A0 => s.spareRequest t (bits act 31 30) (bits act 6 0)
  | 0x0C0 =>
    let (c, s) := s.dbgCommand t act
    if c then s.clampCount page o 0 else s
  | 0x0F0 => if both then s.tileMemWrite t ⟨tileBase t + bits act 18 4 * 16, 0, bits (actAt 0x0F4) 31 31, false⟩ else s
  | _ => s

/-- A command register of a BCP page (spec/20). -/
def State.afterBcp (s : State) (page i o act : Nat) : State :=
  if i = 0 then (if o = 0x05C ∧ act % 2 = 1 then s.bcpReset 2 0 else s)
  else if i = 3 then (if o = 0x040 then s.ptpCfgWritten else s)
  else if i = 4 then
    if o = 0x068 then s.updCtrl (bits act 31 30)
    else if o = 0x06C ∧ bits act 31 30 = 1 then s.tupdStart (bits act 15 8) (bits act 6 0) else s
  else if i = 5 then
    if o = 0x040 then
      (match bits act 31 30 with
      | 1 => s.bivEnter false
      | 2 => s.bivWake 3
      | 3 => s.bivEnter true
      | _ => s)
    else s
  else if i = 7 then
    let sel := s.fld page 0x040 2 0
    if o = 0x044 then
      let v := s.rd page 0x044
      let h := s.bcp.keys.getD sel {}
      { s with bcp := { s.bcp with keys := setAt s.bcp.keys sel { h with right := bits v 2 0, upd := bit v 8 } } }
    else if 0x060 ≤ o ∧ o < 0x080 then
      let buf := setAt s.bcp.keyBuf ((o - 0x060) / 4) act
      let s := { s with bcp := { s.bcp with keyBuf := buf } }
      if o = 0x07C then
        let h := s.bcp.keys.getD sel {}
        { s with bcp := { s.bcp with keys := setAt s.bcp.keys sel { h with key := some (ofWords buf) } } }
      else s
    else s
  else s

/-- What a written word asks of its block, once the registers hold the write: `act` has the values of its write-only fields, `old` the word before, `both` says that the write covers the pair of words, `actAt` gives the command values of the write's words. -/
def State.after (s : State) (w : Writer) (k : Kind) (i page o act old : Nat) (both : Bool) (actAt : Nat → Nat) : State :=
  if o < 0x040 then s else
  match k with
  | .bcp => s.afterBcp page i o act
  | .spt =>
    if o = 0x040 then (if s.isNode i then s.setB page 0x044 15 false else s)
    else if o = 0x044 then s.sptPwrWritten i old
    else if o = 0x094 then s.sptReq i act
    else if 0x200 ≤ o ∧ o < 0x300 ∧ o % 64 = 0 then s.chCfgWritten i ((o - 0x200) / 64) old
    else s
  | .str =>
    if o = 0x05C then
      (match bits act 31 30 with
      | 1 => captureOpen (bits act 11 0) s
      | 2 => captureClose (bits act 11 0) s
      | _ => s)
    else s
  | .strT =>
    if (o - 0x040) % 0x60 = 0 ∧ bit old 30 = false ∧ s.getB page o 30 then s.strCommit (32 * i + (o - 0x040) / 0x60) else s
  | .ars => if o = 0x048 then s.arsCommand i (bits act 31 28) (if 3 ≤ bits act 31 28 then min 255 (bits act 8 0) else bits act 8 0) else s
  | .frd =>
    if o = 0x048 then s.frdCommand i (bits act 31 28) (bits act 11 0)
    else if o = 0x050 then (let off := bits act 22 6 * 64
      s.frdTrigger i { group := bits act 31 24, off := off, arrived := s.now, rank := 1000, real := !(s.frdH i).cplx.contains off }) else s
  | .tfe => if o = 0x040 then s.tfeSubmit i act else s
  | .wpt =>
    if (o - 0x040) % 0x20 = 8 ∧ o < 0x840 ∧ bit old 31 = false ∧ s.getB page o 31 then
      s.wptStart (i / 2) (64 * (i % 2) + (o - 0x040) / 0x20)
    else s
  | .tile =>
    let s := if o = 0x040 ∧ bit old 29 ≠ s.getB page 0x040 29 then s.irq (pgClu (i / 8)) 18 else s
    s.afterTile w page i o act both actAt
  | .wdgB | .wdgC | .wdgT =>
    if o = 0x054 then s.wdgService w page (bits act 31 16)
    else if o = 0x058 then s.wdgCheckin w page (bits act 3 0) else s
  | .pmc => if 0x070 ≤ o ∧ o < 0x0A0 ∧ (o % 8 = 0 ∨ !both) then s.pmcWritten i ((o - 0x070) / 8) else s
  | .eccD | .eccC | .eccT => if o = 0x044 then s.eccPwrApply page else s
  | .bistM => if o = 0x044 then s.bistRequest page act else if o = 0x0C0 then s.bistFuse act else s
  | .bistC => if o = 0x044 then s.bistRequest page act else s
  | .sout =>
    if o = 0x060 then
      (if act = 0 then s else s.setSout i { s.soutH i with writes := (s.soutH i).writes ++ [(o, act, w)] })
    else s
  | .soutD => if o = 0x060 then s.foReset i act else s
  | .ropeL =>
    if 0x100 ≤ o ∧ o < 0x180 ∧ o % 32 = 0x0C ∧ s.fld pgRopeL o 31 28 ≠ 0 then s.accIssue ((o - 0x100) / 32) false else s
  | _ => s

/-- Words that do not stand in State.regs as written: SOUT_MULT and SOUT_BYP wait for the drive tick (spec/09 R268). -/
def State.storeWord (s : State) (w : Writer) (k : Kind) (i page o v : Nat) : State :=
  match k with
  | .sout => if o = 0x058 ∨ o = 0x05C then s.setSout i { s.soutH i with writes := (s.soutH i).writes ++ [(o, v, w)] } else s.wr page o v
  | _ => s.wr page o v

/-- PAGE_CTRL written (spec/02 R38, R41, R42): RESET takes no other field of its write; ENABLE keeps under LOCK and during a reset; a watchdog page and the page of track 0 keep ENABLE at 1, a watchdog page is not reset (spec/16, spec/03). `off` is the write's offset. -/
def State.ctrlWrite (s : State) (k : Kind) (i page off v : Nat) : State :=
  let wdg := k = .wdgB ∨ k = .wdgC ∨ k = .wdgT
  let locked := s.locked page
  if bit v 2 then
    if locked then s.clampCount page off 2
    else if wdg then s.clampCount page off 0
    else s.resetEffect page
  else
    let s := if bit v 1 then s.setB page oCtrl 1 else s
    if locked then s.clampCount page off 2
    else if (s.pageH page).resetting then s.clampCount page off 3
    else if (wdg ∨ (k = .trk ∧ i = 0)) ∧ !bit v 0 then s.clampCount page off 0
    else
      let s := s.setB page oCtrl 0 (bit v 0)
      if bit v 0 then s.enableEffect page else s.disableEffect page

/-- Whether a slice of a page's unit runs: tile logic or its free copy, a resampler, a transform engine, a feature reducer (spec/17 R467, R479). -/
def State.unitRuns (s : State) (k : Kind) (i : Nat) : Bool :=
  match k with
  | .tile => s.runsOn pgBistM 5 i || s.runsOn (pgBistC (i / 8)) 6 i
  | .ars => s.runsOn (pgBistC i) 7 i
  | .tfe => s.runsOn (pgBistC i) 8 i
  | .frd => s.runsOn (pgBistC i) 9 i
  | _ => false

/-- The writes of PAGE_CTRL that wait on a page take place, in their order. -/
def State.ctrlDue (s : State) (k : Kind) (i page : Nat) : State :=
  let q := (s.pageH page).ctrl
  if q.isEmpty then s
  else q.foldl (fun s e => s.ctrlWrite k i page e.1 e.2) (s.setPageH page { s.pageH page with ctrl := [] })

/-- A write of PAGE_CTRL: a RESET or ENABLE = 0 waits for the running slice of the page's unit to end, and what follows it waits behind it (spec/17 R479). -/
def State.ctrlArrive (s : State) (k : Kind) (i page off v : Nat) : State :=
  if s.unitRuns k i && (bit v 2 || !bit v 0 || !(s.pageH page).ctrl.isEmpty) then
    s.setPageH page { s.pageH page with ctrl := (s.pageH page).ctrl ++ [(off, v)] }
  else (s.ctrlDue k i page).ctrlWrite k i page off v

/-- A slice of a logic unit that has ended lets its page take the writes of PAGE_CTRL that came meanwhile (spec/17 R474, R479). -/
def State.unitFreed (s : State) (unit inst : Nat) : State :=
  let s := if unit = 9 then s.frdSliceEnd inst else s
  let p := logicPage unit inst
  match pageAt p with
  | some (k, i) => if memUnit unit || s.unitRuns k i then s else s.ctrlDue k i p
  | none => s

def sliceEndAll (unit inst slice res wh at_ t : Nat) (s : State) : State := (sliceEnd unit inst slice res wh at_ t s).unitFreed unit inst

/-- REQUESTED_PASS_COMPLETE with what waits for it. -/
def requestedPassEnd (unit inst np nf ni wh at_ t : Nat) (s : State) : State :=
  (requestedPassComplete unit inst np nf ni wh at_ t s).unitFreed unit inst

/-- The write of registers that are not fields of one word: votes (spec/09 R264) and circuit words (spec/19 R517); none for every other offset. -/
def State.specialWrite (s : State) (w : Writer) (k : Kind) (i page off size val : Nat) : Option State :=
  match k with
  | .sout =>
    if 0x080 ≤ off ∧ off < 0x098 then
      let m := (off - 0x080) / 8
      let last := s.rd64 page (0x080 + 8 * m)
      let word := if size = 8 then val else if off % 8 = 0 then lo32 val + hi32 last * 2 ^ 32 else lo32 last + lo32 val * 2 ^ 32
      some (s.voteArrive i m word w)
    else none
  | .ropeL =>
    if 0x308 ≤ off ∧ off < 0x318 then
      let h := s.circH s.circSel
      let put (old : Nat) (base : Nat) : Nat :=
        if off / 8 * 8 ≠ base then old
        else if size = 8 then val else if off = base then lo32 val + hi32 old * 2 ^ 32 else lo32 old + lo32 val * 2 ^ 32
      let (c, s) := s.circWrite s.circSel (put h.w0.toNat 0x308) (put h.w1.toNat 0x310)
      some (if c then s.clampCount page off 0 else s)
    else none
  | _ => none

/-- Whether a write to a SOUT page comes from a copy that is no checked core (spec/10 R289). -/
def State.soutForeign (s : State) (w : Writer) (k : Kind) (m : Option Nat) : Bool :=
  match k, w with
  | .sout, .tile t c => !(decide (m.getD (s.tileH t).mode ≤ 1) && c == 0)
  | .soutD, .tile t c => !(decide (m.getD (s.tileH t).mode ≤ 1) && c == 0)
  | _, _ => false

/-- A word's fields as they stand now: RATE and B_LOG of a NODE-role channel are RO once the far host's CONFIG has set them (spec/04 R142). -/
def State.fieldsNow (s : State) (k : Kind) (i off : Nat) (fs : List Fld) : List Fld :=
  match k with
  | .spt => if 0x200 ≤ off ∧ off % 64 = 0 ∧ s.isNode i = true ∧ (s.portH i).cfg.isSome = true then
      fs.map fun f => if f.hi = 19 ∨ f.hi = 15 then { f with acc := .ro } else f
    else fs
  | _ => fs

/-- What a page's PAGE_CLAMP holds and has counted in the present cycle. -/
def State.clamps (s : State) (page : Nat) : Nat × Nat × Nat :=
  (s.rd page oClamp, s.hotAt (regKey page oClamp) 31 16 .took, s.hotAt (regKey page oClamp) 31 16 .full)

/-- PAGE_CLAMP as it stood in `s0`, before the actions of a write counted: one write counts once (spec/02 R47). -/
def State.clampsAs (s s0 : State) (page : Nat) : State :=
  let c := s0.clamps page
  ((s.wr page oClamp c.1).setHot (regKey page oClamp) 31 16 .took c.2.1).setHot (regKey page oClamp) 31 16 .full c.2.2

/-- A write that reaches ordinary registers of a page: fields, cross clamps, storage, actions, one count (spec/02 R46–R48). -/
def State.fieldWrite (s : State) (w : Writer) (k : Kind) (i page off size val : Nat) : State :=
  let s := match k with
    | .eccD | .eccC | .eccT => if 0x064 ≤ off ∧ off < 0x078 then s.flipWritten page else s
    | .wpt => if 0x040 ≤ off ∧ off < 0x840 then s.wptWritten (i / 2) (64 * (i % 2) + (off - 0x040) / 0x20) else s
    | _ => s
  let locked := s.locked page
  let ws := busWords off size val
  let noReg := ws.any fun q => (pageWord k i q.1).isNone
  let ms : List Merge := ws.filterMap fun q =>
    match pageWord k i q.1 with
    | none => none
    | some fs => some ((s.fieldsNow k i q.1 fs).foldl (fun m f => m.field locked (s.hotBits page q.1) q.2 f) ⟨q.1, s.rd page q.1, 0, false, false⟩)
  let nv (o : Nat) : Nat := match ms.find? fun m => m.off == o with
    | some m => m.new
    | none => s.rd page o
  let actAt (o : Nat) : Nat := match ms.find? fun m => m.off == o with
    | some m => m.act
    | none => 0
  let cs := ms.map fun m => (m, s.cross w k i page m.off m.new m.act nv)
  let s1 := cs.foldl (fun (s : State) q => if q.2.blocked then s else s.storeWord w k i page q.1.off q.2.val) s
  let s2 := cs.foldl (fun (s1 : State) q =>
    if q.2.blocked then s1 else s1.after w k i page q.1.off q.1.act (s.rd page q.1.off) (size == 8) actAt) s1
  let refused := ms.any (·.refused)
  let clamped := (ms.any (·.clamped)) || cs.any (·.2.counted)
  if noReg || refused || clamped || s2.clamps page != s.clamps page then
    (s2.clampsAs s page).clampCount page off (if noReg then 1 else if refused then 2 else 0)
  else s2

/-- A write of a control page (spec/02 R33–R52, spec/15 R440): unlisted pages drop it, a poisoned word is dropped and counted in PAGE_ERR, a BASECAMP-class page takes none from tiles or rope. `m` is the tile's mode when its copy made the output, where the write is one that left later. -/
def State.pageWrite (s : State) (w : Writer) (page0 off size val : Nat) (pois : Bool) (m : Option Nat := none) : State :=
  let page := s.routePage w page0
  match pageAt page with
  | none => s
  | some (k, i) =>
    if k.owner = 0x03 ∧ fromOuter w then s
    else if pois then s.errPoison page
    else if !busAligned off size then s.clampCount page (off % 4096) 3
    else if s.soutForeign w k m then (if k = .sout then s.bump page 0x068 23 16 else s)
    else
      let s := match k with
        | .pmc => s.pmcSettle i
        | _ => s
      if off = oCtrl then s.ctrlArrive k i page off val
      else if off = oStatus ∧ size = 8 then s.ctrlArrive k i page off (hi32 val)
      else if 0x040 ≤ off ∧ (s.powered page = false ∨ (s.pageH page).resetting = true) then s.clampCount page off 3
      else match s.specialWrite w k i page off size val with
        | some s => s
        | none => s.fieldWrite w k i page off size val

end Sys2Proof.Machine
end

