-- ==== Sys2Proof/Machine/Access.lean ====
section
/-! DEFINITION. Accesses that come from elsewhere: over rope (spec/19 R522, R523), by management datagrams (spec/20 R544–R548), from the tiles' outputs (spec/10 R297) and their external reads (spec/13 R394); and what follows of itself once a command has acted. -/

namespace Sys2Proof.Machine

/-! Local accesses. -/

/-- The control page and offset of a local address. -/
def pageOfAddr (a : Nat) : Option (Nat × Nat) :=
  if pageBase ≤ a ∧ a < pageBase + 2 ^ 28 then some ((a - pageBase) / 4096, a % 4096) else none

/-- The tile whose local memory, seen from Basecamp, holds an address. -/
def tileOfAddr (a : Nat) : Option Nat :=
  if tileBase 0 ≤ a ∧ a < tileBase 128 then some ((a - tileBase 0) / 0x80000) else none

/-- A read at a local address by Basecamp, debug access or rope (spec/02 R28, R33): status (0 OK, 1 RANGE, 6 ALIGN), value, poison. -/
def State.localRead (s : State) (w : Writer) (a size : Nat) : (Nat × Nat × Bool) × State :=
  if a % size ≠ 0 then ((6, 0, false), s)
  else match pageOfAddr a with
    | some (p, off) => let (v, s) := s.pageRead w p off size; ((0, v, false), s)
    | none =>
      if (memLoc a).isSome then
        let ((v, bad), s) := s.rdMem a size
        ((0, v, bad), s)
      else ((1, 0, false), s)

/-- A write at a local address by Basecamp, debug access or rope: status 0 OK, 1 RANGE, 6 ALIGN; a misaligned page write is counted there (spec/02 R33). -/
def State.localWrite (s : State) (w : Writer) (a size v : Nat) (pois : Bool) : Nat × State :=
  match pageOfAddr a with
  | some (p, off) => (if a % size = 0 then 0 else 6, s.pageWrite w p off size v pois)
  | none =>
    if a % size ≠ 0 then (6, s)
    else match tileOfAddr a with
      | some t => (0, s.tileMemWrite t ⟨a, size, v, pois⟩)
      | none => if (memLoc a).isSome then (0, s.wrMem a size v pois) else (1, s)

/-- The right a write at an address needs: the owner class of the page (1 GENERAL, 2 SERVICE, 3 BASECAMP), GENERAL for memory. -/
def ownerAt (a : Nat) : Nat :=
  match pageOfAddr a with
  | some (p, _) => match pageAt p with
    | some (k, _) => k.owner
    | none => 1
  | none => 1

/-! Over rope (spec/19 R522, R523). -/

/-- The grant entry that decides for a path: the longest enabled prefix; its word 1, or 0 for none. -/
def State.grantFor (s : State) (spath : List Nat) : Nat :=
  ((List.range 16).foldl (fun (best : Option Nat × Nat) g =>
    let w0 := s.rd64 pgRopeL (0x200 + 16 * g)
    let len := bits w0 51 48
    let pre := (List.range (min 6 len)).map fun i => w0 / 256 ^ i % 256
    let longer := match best.1 with
      | some n => decide (n < len)
      | none => true
    if bit w0 63 && longer && pre.isPrefixOf spath then (some len, s.rd pgRopeL (0x208 + 16 * g)) else best) (none, 0)).2

/-- The answer to an access request: a reason for refusal (0 none), data, poison. -/
structure AccAns where
  reason : Nat
  val : Nat := 0
  pois : Bool := false

def accSize (op : Nat) : Nat := if op = 2 ∨ op = 4 then 8 else 4

/-- An access request is checked against the grants and carried out (spec/19 R522); `team` names the team whose path it took to its leader: it reaches that team's own pages, 6 + s being its directory (spec/02 R32). -/
def State.accPerform (s : State) (r : AccReq) (team : Option Nat) : AccAns × State :=
  let g := s.grantFor r.spath
  let right := if r.tile then bits g 5 4 else bits g 1 0
  let page := pageOfAddr r.addr
  let dram := decide (r.addr < dramSize)
  let reach := match page with
    | some (p, _) => match team with
      | none => true
      | some i => p == 0x820 + i || p == 0x826 + i
    | none => dram && team.isNone
  let wr := decide (3 ≤ r.op)
  let size := accSize r.op
  if !reach then (⟨1, 0, false⟩, s)
  else if wr && page.isSome && ownerAt r.addr == 3 then (⟨5, 0, false⟩, s)
  else if right = 0 ∨ (dram = true ∧ bit g (if wr then 9 else 8) = false) ∨ (wr = true ∧ right < ownerAt r.addr + 1) then (⟨2, 0, false⟩, s)
  else if wr then
    if r.pois ∧ page.isNone then (⟨4, 0, false⟩, s)
    else
      let (st, s) := s.localWrite .rope r.addr size r.data r.pois
      (⟨if r.pois then 4 else st, 0, false⟩, s)
  else
    let ((st, v, bad), s) := s.localRead .rope r.addr size
    (⟨st, v, bad⟩, s)

/-- The payload of REFUSE (spec/19 R523). -/
def refuseWord (reason addr : Nat) : Nat := reason % 256 + addr % 2 ^ 40 * 256

/-- Answers a request that came on a port: by its path, or back on the port where no route stands. -/
def State.accAnswer (s : State) (port : Nat) (spath : List Nat) (tag type : Nat) (words : List Nat) (pois : List Bool) : State :=
  match s.ropeSend type spath tag 0 words pois with
  | (.nowhere, s) => s.ropeEmit port type 15 spath s.ownPath tag 0 words pois
  | (_, s) => s

/-- ACC_REQ (spec/19 R522, R523): the frame's SPATH asks, its ARG is the tag. -/
def accReq (f : RFrame) (tile : Bool) (op addr data : Nat) (pois : Bool) (t : Nat) (s : State) : State :=
  let (ok, s) := (s.upTo t).ropeRecv f
  if !ok then s else
  let ws := accWords op addr data tile
  let ans (team : Option Nat) (s : State) : State :=
    let (a, s) := s.accPerform ⟨f.spath, f.arg, tile, op, addr, data, pois⟩ team
    if a.reason = 0 then s.accAnswer f.port f.spath f.arg 0x21 [a.val] [a.pois]
    else s.accAnswer f.port f.spath f.arg 0x22 [refuseWord a.reason addr] [false]
  match s.ropeArrive f 0x20 ws [false, pois] with
  | (some (.team i), _, s) => ans (some i) s
  | (some _, _, s) => ans none s
  | (none, true, s) => s
  | (none, false, s) => s.accAnswer f.port f.spath f.arg 0x22 [refuseWord 3 addr] [false]

/-- A reply reaches the slot that waits for it by its tag; a late one is discarded. -/
def State.slotReply (s : State) (tag reason val : Nat) (pois : Bool) : State :=
  let i := tag % 4
  if tag ≠ s.slotTag i ∨ s.fld pgRopeL (0x118 + 32 * i) 31 29 ≠ 1 then s
  else if reason ≠ 0 then s.slotEnd i 3 reason
  else
    let op := (s.slotAcc i).op
    let s := if op = 1 then s.wr64 pgRopeL (0x110 + 32 * i) (lo32 val) else if op = 2 then s.wr64 pgRopeL (0x110 + 32 * i) (val % 2 ^ 64) else s
    s.slotEnd i 2 0 (pois && decide (op ≤ 2))

/-- ACC_REP (spec/19 R523). -/
def accRep (f : RFrame) (val : Nat) (pois : Bool) (t : Nat) (s : State) : State :=
  let (ok, s) := (s.upTo t).ropeRecv f
  if !ok then s else
  match s.ropeArrive f 0x21 [val] [pois] with
  | (some .here, _, s) => s.slotReply f.arg 0 val pois
  | (_, _, s) => s

/-- REFUSE (spec/19 R523). -/
def refuse (f : RFrame) (reason addr t : Nat) (s : State) : State :=
  let (ok, s) := (s.upTo t).ropeRecv f
  if !ok then s else
  match s.ropeArrive f 0x22 [refuseWord reason addr] [false] with
  | (some .here, _, s) => s.slotReply f.arg (if reason = 0 then 3 else reason) 0 false
  | (_, _, s) => s

/-- ACCESS_TIMEOUT (spec/19 R523). -/
def accessTimeout (i t : Nat) (s : State) : State :=
  let s := s.upTo t
  if i < 4 ∧ s.fld pgRopeL (0x118 + 32 * i) 31 29 = 1 ∧ (s.slotAcc i).t + s.rd pgRopeL 0x074 * cyclesPerUs ≤ t then s.slotEnd i 4 0 else s

/-- Requests of this module to its own path, or to that of a team it leads (spec/02 R32), are carried out, oldest first. -/
def State.selfStep (s : State) : State :=
  match s.rope.self with
  | [] => s
  | r :: rest =>
    let s := { s with rope := { s.rope with self := rest } }
    let team := match s.ropeRoute (pathOf (s.rd64 pgRopeL (0x100 + 32 * (r.tag % 4)))) false with
      | .team i => some i
      | _ => none
    let (a, s) := s.accPerform r team
    s.slotReply r.tag a.reason a.val a.pois

/-! Management datagrams (spec/20 R544–R548, spec/21 R563). -/

/-- The bytes of a request before its MAC (spec/20 R544). -/
def bapMessage (b : Bap) (op : Nat) : List Nat :=
  let n (k v : Nat) : List Nat := (leBytes k v).map (·.toNat)
  n 1 b.ver ++ n 1 op ++ n 1 b.key ++ [0] ++ n 4 b.tag ++ n 8 b.seq ++ (List.range 6).map (fun i => b.path.getD i 0 % 256) ++ n 1 b.path.length ++ [0] ++
    n 8 b.addr ++ n 2 b.count ++ n 1 b.size ++ [0, 0, 0, 0, 0] ++ Bap.bytes b

/-- The key a slot holds: as written, or slot 0's commissioning key (spec/20 R548). -/
def State.keyOf (s : State) (k : Nat) : Nat :=
  match (s.bcp.keys.getD k {}).key with
  | some v => v
  | none => if k = 0 then Config.commissioningKey.toNat else 0

/-- Whether a request's MAC verifies under its key slot and the present nonce (spec/20 R544, R547). -/
def State.macOk (s : State) (b : Bap) (op : Nat) : Bool :=
  let key := (leBytes 32 (s.keyOf b.key)).map (·.toNat)
  let msg := (leBytes 8 s.bcp.nonce.toNat).map (·.toNat) ++ bapMessage b op
  leNat ((hmacSha256 key msg).take 16) == b.mac

def State.srcIp (s : State) (ip : Nat) : SrcIp := (s.bcp.srcs.find? fun x => x.ip == ip).getD { ip := ip }
def State.setSrc (s : State) (x : SrcIp) : State :=
  { s with bcp := { s.bcp with srcs := (s.bcp.srcs.filter fun y => y.ip != x.ip) ++ (if x.drops.isEmpty && x.blocked.isNone then [] else [x]) } }

/-- Whether a source is blocked. -/
def State.srcBlocked (s : State) (ip : Nat) : Bool := match (s.srcIp ip).blocked with
  | some t => decide (s.now < t)
  | none => false

/-- A request dropped without reply: counted; the 16th within 1 s from one source blocks it for 10 s (spec/20 R547). -/
def State.bapDrop (s : State) (ip : Nat) : State :=
  let s := s.bump (pgBcp 2) 0x058 31 16
  let x := s.srcIp ip
  let ds := (x.drops.filter fun d => decide (s.now < d + cyclesPerS)) ++ [s.now]
  if 16 ≤ ds.length then
    ((s.setSrc { ip := ip, blocked := some (s.now + 10 * cyclesPerS) }).bump (pgBcp 2) 0x058 15 0).logEvent 0x0090 1 0xFFFF ip
  else s.setSrc { x with drops := ds, blocked := none }

def State.bapReply (s : State) (b : Bap) (op st : Nat) (words : List Nat := []) (pois : List Bool := []) : State :=
  s.emit (.bap b.service op b.tag b.seq st words pois)

/-- Whether a datagram is accepted (spec/20 R544, R547, spec/21 R563); a dropped one is counted. RECOVERY answers NONCE and the update operations only (spec/20 R533). -/
def State.bapAccept (s : State) (b : Bap) (op : Nat) : Bool × State :=
  if s.srcBlocked b.ip || b.ver != 0x10 then (false, s)
  else if s.inRecovery && !(decide (5 ≤ op ∧ op ≤ 8)) then (false, s)
  else if b.service && s.getB (pgBcp 2) 0x040 30 && b.key != 0 then (false, s.bapDrop b.ip)
  else
    let h := s.bcp.keys.getD b.key {}
    let newer := match h.last with
      | some q => decide (q < b.seq)
      | none => true
    if b.key < 8 && s.macOk b op && newer then
      (true, { s with bcp := { s.bcp with keys := setAt s.bcp.keys b.key { h with last := some b.seq } } })
    else (false, s.bapDrop b.ip)

/-- Runs `f` with the key slot of a request that is accepted. -/
def State.bapRun (s : State) (b : Bap) (op t : Nat) (f : KeyH → State → State) : State :=
  let (ok, s) := (s.upTo t).bapAccept b op
  if ok then f (s.bcp.keys.getD b.key {}) s else s

/-- NONCE (spec/20 R545): serial and nonce, with no MAC. `op` is the datagram's OP: one that names no operation is answered STATE when its MAC verifies. -/
def nonce (b : Bap) (op t : Nat) (s : State) : State :=
  if op = 1 then
    let s := s.upTo t
    if s.srcBlocked b.ip || b.ver != 0x10 then s
    else if b.service && s.getB (pgBcp 2) 0x040 30 && b.key != 0 then s.bapDrop b.ip
    else s.bapReply b 1 0 [s.rd64 (pgBcp 0) 0x040, s.bcp.nonce.toNat] [false, false]
  else if 2 ≤ op ∧ op ≤ 9 then s
  else s.bapRun b op t fun _ s => s.bapReply b op 9

def bapWriter (b : Bap) : Writer := if b.service then .debug else .basecamp

def BapJob.size (j : BapJob) : Nat := if j.b.size = 0 then 4 else 8
def BapJob.addrNow (j : BapJob) : Nat := (j.b.addr % 2 ^ 40 + j.done * j.size) % 2 ^ 40

/-- A job ends with its reply. -/
def State.jobReply (s : State) (j : BapJob) (st : Nat) : State :=
  let s := { s with bcp := { s.bcp with jobs := s.bcp.jobs.filter fun x => x != j } }
  s.bapReply j.b (if j.write then 3 else 2) st j.words j.pois

/-- Replaces a job by what it has become. -/
def State.jobSet (s : State) (j j' : BapJob) : State :=
  { s with bcp := { s.bcp with jobs := s.bcp.jobs.map fun x => if x = j then j' else x } }

/-- Whether the key's right covers the write of the job's next word (spec/20 R548). -/
def State.jobRight (s : State) (j : BapJob) : Bool :=
  !j.write || decide (ownerAt j.addrNow + 1 ≤ (s.bcp.keys.getD j.b.key {}).right)

/-- Whether a write to an address finds the 16 places for held writes of its tile taken, and stalls (spec/10 R301). -/
def State.heldFull (s : State) (a size : Nat) : Bool :=
  let t := match pageOfAddr a with
    | some (p, off) => (match pageAt p with
      | some (.tile, t) => if off = 0x0F0 ∧ size = 8 then some t else none
      | _ => none)
    | none => tileOfAddr a
  match t with
  | some t => s.holdsWrites t && decide (16 ≤ (s.tileH t).held.length)
  | none => false

/-- The words of an access with an empty PATH, one after another. Answers whether anything moved. -/
def State.jobLocal (s : State) (j0 : BapJob) : Nat → BapJob → Bool × State
  | 0, j => (true, (s.jobSet j0 j).jobReply j 0)
  | n + 1, j =>
    let w := bapWriter j.b
    if !s.jobRight j then (true, (s.jobSet j0 j).jobReply j 2)
    else if j.write then
      if s.heldFull j.addrNow j.size then (decide (j ≠ j0), s.jobSet j0 j)
      else
        let (st, s) := s.localWrite w j.addrNow j.size (j.b.data.getD j.done 0) false
        if st ≠ 0 then (true, (s.jobSet j0 j).jobReply j st) else s.jobLocal j0 n { j with done := j.done + 1 }
    else
      let ((st, v, p), s) := s.localRead w j.addrNow j.size
      if st ≠ 0 then (true, (s.jobSet j0 j).jobReply j st)
      else s.jobLocal j0 n { j with done := j.done + 1, words := j.words ++ [v], pois := j.pois ++ [p] }

/-- Issues the next word of an access with a PATH through a slot (spec/20 R548). -/
def State.jobIssue (s : State) (j : BapJob) (i : Nat) : State :=
  let base := 0x100 + 32 * i
  let op := (if j.write then 3 else 1) + (if j.size = 8 then 1 else 0)
  let s := s.wr64 pgRopeL base (pathReg j.b.path)
  let s := s.wr64 pgRopeL (base + 0x10) (if j.write then j.b.data.getD j.done 0 else 0)
  let s := s.wr64 pgRopeL (base + 8) (j.addrNow + op * 2 ^ 60)
  (s.jobSet j { j with slot := some i }).accIssue i true

/-- One move of the datagrams' accesses: a slot's result is taken, or the first job of a key slot starts. Answers whether anything moved. -/
def State.jobMove (s : State) (j : BapJob) : Bool × State :=
  match j.slot with
  | some i =>
    let stat := s.rd pgRopeL (0x118 + 32 * i)
    if !(s.slotAcc i).bap then (true, s.jobReply j 7)
    else if bits stat 31 29 = 1 then (false, s)
    else
      let s := s.setSlotAcc i { s.slotAcc i with bap := false }
      if bits stat 31 29 = 2 then
        let j' : BapJob := { j with slot := none, done := j.done + 1 }
        let j' := if j.write then j' else { j' with words := j.words ++ [s.rd64 pgRopeL (0x110 + 32 * i)], pois := j.pois ++ [bit stat 0] }
        let s := s.jobSet j j'
        (true, if j.b.count ≤ j'.done then s.jobReply j' 0 else if s.jobRight j' then s.jobIssue j' i else s.jobReply j' 2)
      else (true, s.jobReply j (if bits stat 31 29 = 3 then bits stat 28 24 else 7))
  | none =>
    if j.b.path.isEmpty then s.jobLocal j (j.b.count - j.done) j
    else if j.b.count ≤ j.done then (true, s.jobReply j 0)
    else if !s.jobRight j then (true, s.jobReply j 2)
    else match [0, 1].find? fun i => s.fld pgRopeL (0x118 + 32 * i) 31 29 != 1 && !(s.slotAcc i).bap with
      | some i => (true, s.jobIssue j i)
      | none => (false, s)

/-- The first job of each key slot, in order of acceptance (spec/20 R548). -/
def firstJobs (l : List BapJob) : List BapJob :=
  l.foldl (fun acc j => if acc.any fun x => x.b.key == j.b.key then acc else acc ++ [j]) []

def State.jobsStep (s : State) : Bool × State :=
  (firstJobs s.bcp.jobs).foldl (fun (acc : Bool × State) j =>
    if acc.1 then acc else acc.2.jobMove j) (false, s)

/-- READ and WRITE as accepted: refused for a right below READ, for COUNT or SIZE out of range, else queued behind the key's earlier accesses. -/
def bapAccess (write : Bool) (b : Bap) (t : Nat) (s : State) : State :=
  let op := if write then 3 else 2
  s.bapRun b op t fun k s =>
    if k.right = 0 then s.bapReply b op 2
    else if 128 < b.count ∨ 1 < b.size ∨ 6 < b.path.length then s.bapReply b op 1
    else { s with bcp := { s.bcp with jobs := s.bcp.jobs ++ [{ b := b, write := write }] } }

def bapRead (b : Bap) (t : Nat) (s : State) : State := bapAccess false b t s
def bapWrite (b : Bap) (t : Nat) (s : State) : State := bapAccess true b t s

/-- LOG_READ (spec/20 R545): up to 32 records from SEQ = ADDR, eight words each, zero where not held. -/
def logRead (b : Bap) (t : Nat) (s : State) : State :=
  s.bapRun b 4 t fun k s =>
    if k.right = 0 then s.bapReply b 4 2
    else if 32 < b.count then s.bapReply b 4 1
    else
      let ws := (List.range b.count).flatMap fun i => s.logWords (b.addr % 2 ^ 32 + i)
      s.bapReply b 4 0 ws (ws.map fun _ => false)

/-- The update operations (spec/20 R545, R550) under a key with UPD. -/
def bapUpd (op : Nat) (act : State → Nat × State) (b : Bap) (t : Nat) (s : State) : State :=
  s.bapRun b op t fun k s =>
    if !k.upd then s.bapReply b op 2
    else
      let (st, s) := act s
      s.bapReply b op st

def bapUpdOpen (b : Bap) (t : Nat) (s : State) : State := bapUpd 5 (fun s => s.updOpen (b.addr % 2) (Bap.bytes b)) b t s
def bapUpdData (b : Bap) (t : Nat) (s : State) : State := bapUpd 6 (fun s => s.updData (b.addr % 2 ^ 40) (Bap.bytes b)) b t s
def bapUpdCommit (b : Bap) (t : Nat) (s : State) : State := bapUpd 7 (fun s => s.updCommit) b t s

/-- UPD_ACTIVATE (spec/20 R545, R551): the reply leaves, then Basecamp restarts. -/
def bapUpdActivate (b : Bap) (t : Nat) (s : State) : State :=
  s.bapRun b 8 t fun k s =>
    if !k.upd then s.bapReply b 8 2
    else match s.updActivate with
      | (0, s) => (s.bapReply b 8 0).bcpReset 3 0
      | (st, s) => s.bapReply b 8 st

/-- WAKE (spec/20 R545, R556): needs GENERAL; STATE outside bivouac and OFF. -/
def bapWake (b : Bap) (t : Nat) (s : State) : State :=
  s.bapRun b 9 t fun k s =>
    if k.right < 2 then s.bapReply b 9 2
    else if s.pstate' = 0 ∨ s.pstate' = 3 then s.bapReply b 9 9
    else (s.bapReply b 9 0).bivWake 3

/-- SOURCE_UNBLOCK (spec/20 R547): the 10 s of a blocked source are over. -/
def sourceUnblock (ip t : Nat) (s : State) : State :=
  let s := s.upTo t
  let x := s.srcIp ip
  match x.blocked with
  | some e => if e ≤ t then s.setSrc { ip := ip } else s
  | none => s

/-! Outputs and external reads of the tiles. -/

/-- Whether a copy owns a tile stream (spec/10 R287). -/
def ownsStream (mode copy st : Nat) : Bool :=
  match mode, copy with
  | 0, 0 => true
  | 1, 0 => decide (st < 8)
  | 1, 2 => decide (8 ≤ st)
  | 2, 0 => decide (st < 8)
  | 2, 1 => decide (8 ≤ st ∧ st < 12)
  | 2, 2 => decide (12 ≤ st)
  | 3, 0 => decide (st < 8)
  | 3, 1 => decide (8 ≤ st)
  | _, _ => false

/-- An output of a tile arrives at its destination (spec/10 R297, spec/12 R373, R377, R378). -/
def State.outArrive (s : State) (t : Nat) (e : OcbE) : State :=
  if e.kind = 2 then
    if ownsStream e.mode e.copy e.addr then
      s.sourceOffer (srcKey 3 (tileSel t e.addr)) { raw := true, nvalid := e.size, payload := e.val, pois := e.pois, count := 1, acceptedAt := s.now }
    else s.bump pgStr 0x054 31 0
  else match pageOfAddr e.addr with
    | some (p, off) => s.pageWrite (.tile t e.copy) p off e.size e.val (e.pois != 0) (some e.mode)
    | none =>
      let s := s.wrMemP e.addr e.size e.val ((List.range ((e.addr + e.size + 7) / 8 - e.addr / 8)).map fun i => bit e.pois i)
      if e.kind = 1 ∧ e.tag then s.setTag e.addr 7 else s

/-- Whether a tile's oldest output can leave: a write to another cluster waits for its CLU page (spec/02 R54), a stream send for the cell before it (spec/05 R162). -/
def State.outCan (s : State) (t : Nat) (q : List OcbE) : Bool :=
  match q with
  | e :: _ => !(e.kind ≤ 1 && stallsAt s t e.addr) && !(e.kind == 2 && !(s.queue (srcKey 3 (tileSel t e.addr))).isEmpty)
  | [] => false

/-- Tiles with outputs that can leave now. -/
def State.outTiles (s : State) : List Nat := (s.tiles.filter fun q => s.outCan q.1 q.2.outQ).map (·.1)

/-- The oldest output of a tile leaves. -/
def State.outStep (s : State) (t : Nat) : State :=
  let h := s.tileH t
  match h.outQ with
  | [] => s
  | e :: rest => (s.setTile t { h with outQ := rest, stall := false }).outArrive t e

/-- The outputs of a tile that can leave now leave, in order. -/
def State.flushOut (t : Nat) : Nat → State → State
  | 0, s => s
  | n + 1, s => if s.outCan t (s.tileH t).outQ then State.flushOut t n (s.outStep t) else s

/-- Outputs whose destination stalls are counted once at its page (spec/02 CLU_STALLS). -/
def State.outStalls (s : State) : State :=
  s.each ((s.tiles.filter fun q => !q.2.stall && (match q.2.outQ with
    | e :: _ => e.kind ≤ 1 && stallsAt s q.1 e.addr
    | [] => false)).map (·.1)) fun s t =>
      let h := s.tileH t
      let s := s.setTile t { h with stall := true }
      match h.outQ with
      | e :: _ => s.bump (pgClu ((e.addr - clusterBase 0) / 0x800000)) 0x048 31 16
      | [] => s

/-- The number of a load operation in a journal key. -/
def loadCode (o : LdOp) : Nat := match o with
  | .ldb => 0 | .ldbu => 1 | .ldh => 2 | .ldhu => 3 | .ldw => 4 | .ldd => 5

/-- What the outside answers to an external read. -/
def State.extFetch (s : State) (t copy a n : Nat) : (Nat × Bool) × State :=
  match pageOfAddr a with
  | some (p, off) => let (v, s) := s.pageRead (.tile t copy) p off n; ((v, false), s)
  | none => s.rdMem a n

/-- EXT_READ_REPLY (spec/13 R394, spec/10 R286, R299, R300, R302, R304): the reply of external read number `i` of a copy arrives. A checked core takes it from its journal, from the buffered write that covered the read when it issued, or from outside, where a read behind buffered writes waits for the commit that releases them; it journals what it takes. -/
def extReadReply (t copy i tm : Nat) (s : State) : State :=
  let s := s.upTo tm
  let x := s.kx t copy
  match (if t < 128 then x.k.ext[i]? else none) with
  | none => s
  | some e =>
    let key := e.addr * 8 + loadCode e.op
    let h := s.tileH t
    let take (v : (Nat × Bool) × KX) : State :=
      let k := v.2.k
      let k := (loadWords e.op e.pos v.1.1 v.1.2).foldl (fun (k : KCopy) (w : ShadowE) =>
        { k with file := sput fileZero (w.pos % 256) (w.val % 2 ^ 32, w.pois) k.file }) k
      ({ v.2 with k := { k with ext := k.ext.eraseIdx i } } : KX).done
    if h.recovering && !(h.mode == 1 && copy == 2) then s
    else if x.replays 0 key then take (x.journal 0 key (0, false))
    else match e.ans with
      | some v => take (x.journal 0 key v)
      | none =>
        if 0 < e.behind then (if h.halted.getD 0 false then s else (x.updTile fun h => h.dueFor e.behind s.now).s.cairnCheck t)
        else if stallsAt s t e.addr then s
        else
          let (v, s) := s.extFetch t copy e.addr e.op.size
          take (({ x with s := s } : KX).journal 0 key v)

/-! What follows of itself. -/

/-- The code load of a tile from the running image (spec/20 R537): its sections with their entry records and vector tables, the tags, the entry and vector registers, then ENABLE. -/
def State.tileLoad (s : State) (t : Nat) : State :=
  match Config.tileImage (s.bankImg s.runBank) t with
  | none => s
  | some (lanes, tags, entry, va, vb, vc) =>
    let s := s.each (lanes.filter fun q => decide (q.1 < 65536)) fun s q => s.wrMem (tileBase t + 8 * q.1) 8 q.2
    let s := s.each (tags.filter fun g => decide (g < 32768)) fun s g => s.setTag (tileBase t + 16 * g) 7
    let p := pgTile t
    s.each [(0x044, entry), (0x0E0, va), (0x0E4, vb), (0x0E8, vc), (oCtrl, 1)] fun s q => s.pageWrite .basecamp p q.1 4 q.2 false

/-- Whether a stored write sets PAGE_CTRL.ENABLE of a TILE page. -/
def tileEnableWrite (q : Nat × Bool × Nat) : Bool :=
  match pageOfAddr q.1 with
  | some (p, off) => (match pageAt p with
    | some (.tile, _) => (off == oCtrl && bit q.2.2 0) || (off == oStatus && q.2.1 && bit q.2.2 32)
    | _ => false)
  | none => false

/-- Boot step 5 (spec/20 R536, R537): the stored register writes in order, the tile code loads, and behind them the stored ENABLE writes of TILE pages, which wait for their tile's load. -/
def State.bootWrites (s : State) : State :=
  let s := { s with bcp := { s.bcp with step5 := false } }
  let write (s : State) (q : Nat × Bool × Nat) : State := (s.localWrite .basecamp q.1 (if q.2.1 then 8 else 4) q.2.2 false).2
  let ws := if s.bcp.store.isEmpty then [] else Config.storeWrites s.bcp.store
  let s := s.each (ws.filter fun q => !tileEnableWrite q) write
  let s := if (s.bankImg s.runBank).isEmpty then s else s.each (List.range 128) State.tileLoad
  s.each (ws.filter tileEnableWrite) write

/-- Whether the track input of BCP_BIV_WAKE asks for a wake (spec/20 R556). -/
def State.wakeAsked (s : State) : Bool :=
  let w := s.rd (pgBcp 5) 0x048
  bit w 31 && (s.pstate' == 1 || s.pstate' == 2 || s.pstate' == 4) && (s.trkInH (bits w 21 16)).level == bit w 15 && s.bcp.wakeHeld.isNone

/-- Whether nothing follows of itself: no output of a tile stands, no request of this module to itself, no datagram's access, no stored write, no tile update, no ring's control lines, no held slice, no wake. -/
def State.quiet (s : State) : Bool :=
  (s.tiles.all fun q => q.2.outQ.isEmpty) && s.rope.self.isEmpty && s.bcp.jobs.isEmpty && !s.bcp.step5 && s.bcp.tupd.isNone && s.ringWait.isEmpty && (s.bist.all fun q => q.2.held.isEmpty) && !s.wakeAsked

/-- One round of what follows of itself; answers whether anything moved. -/
def State.settleStep (s : State) : Bool × State :=
  if s.bcp.step5 then (true, s.bootWrites)
  else match s.outTiles with
    | t :: _ => (true, s.outStep t)
    | [] =>
      if !s.rope.self.isEmpty then (true, s.selfStep)
      else s.jobsStep

def settleGo : Nat → State → State
  | 0, s => s
  | n + 1, s => match s.settleStep with
    | (true, s) => settleGo n s
    | (false, s) => s

/-- Brings to its end what a command has left to follow of itself: outputs leave their tiles, accesses are carried out, a tile update is followed, a wake input acts. -/
def State.settle (s : State) : State :=
  if s.quiet then s else ((settleGo 4096 s).ringDue.outStalls.heldSlices.tupdFollow).wakeInput

end Sys2Proof.Machine
end

