-- ==== Sys2Proof/Machine/Ranges.lean ====
section
/-! DEFINITION. Which writers the module has, and the page indices that commands of one kind of page name. -/

namespace Sys2Proof

/-- A writer the module has: Basecamp, rope, debug access, or one of three copies of 128 tiles (spec/02 R35). -/
def Writer.ok (w : Writer) : Bool :=
  match w with
  | .tile t copy => decide (t < 128) && decide (copy < 3)
  | _ => true

end Sys2Proof

namespace Sys2Proof.Machine

/-- A memory page (spec/15 R445). -/
def eccPage (p : Nat) : Bool :=
  match pageAt p with
  | some (.eccD, _) | some (.eccC, _) | some (.eccT, _) => true
  | _ => false

/-- A bank of a memory page with a scrubber and power of its own (spec/15 R443, R448): sixteen of a cluster's, one of a tile's and of the DRAM. -/
def eccBank (p b : Nat) : Bool :=
  match pageAt p with
  | some (.eccC, _) => decide (b < 16)
  | some (.eccD, _) | some (.eccT, _) => b == 0
  | _ => false

/-- A watchdog page (spec/16 R451). -/
def wdgPage (p : Nat) : Bool :=
  match pageAt p with
  | some (.wdgT, _) | some (.wdgC, _) | some (.wdgB, _) => true
  | _ => false

/-- A self-test page (spec/17 R472). -/
def bistPg (p : Nat) : Bool :=
  match pageAt p with
  | some (.bistM, _) | some (.bistC, _) => true
  | _ => false

end Sys2Proof.Machine
end

