-- ==== Sys2Proof/Machine/Run.lean ====
section
/-! DEFINITION. What every meaning shares: the check of the operands, a module held in reset, and the effects that follow of themselves; and the few effects that join two blocks. -/

namespace Sys2Proof.Machine

/-- A meaning over its effect `f` and the check of its operands (the command's Instr.wf): a command whose operands name nothing of the module reaches no state machine and has no effect (spec/00_scope.md R13; DESIGN CHOICE, log entry 7); a module held in reset by its boot ROM does nothing (spec/20 R533); what the effect leaves to follow of itself is carried to its end. -/
def run (ok : Bool) (f : State → State) (s : State) : Host.Outcome State Fault Refusal :=
  .next (if ok && !s.bcp.held then (f s).settle else s)

/-- A read from the bus and its reply (spec/02 R33, R34). -/
def State.readOut (s : State) (w : Writer) (page off size : Nat) : State :=
  let (v, s) := s.pageRead w page off size
  s.emit (.readReply w page off (BitVec.ofNat 64 v))

/-- An instant's effect that may ask Basecamp to wake the module (spec/20 R556). -/
def State.wakeIf (r : Bool × State) : State := if r.1 then r.2.bivWake 1 else r.2

/-- The expiry of a watchdog, where its time has run out (spec/16 R454); Basecamp's own resets Basecamp with the cause the page shows. -/
def State.wdgDue (s : State) (p t : Nat) : State :=
  if s.wdgOver p t then
    let cause := s.fld p 0x05C 27 24
    match s.wdgExpire p with
    | (true, s) => s.bcpReset 1 cause
    | (false, s) => s
  else s

/-- The wake point of a watchdog (spec/16 R462, spec/20 R556). -/
def State.wdgWakeDue (s : State) (p t : Nat) : State :=
  if s.wdgWakes p t then
    let s := s.wdgWake p
    if s.pstate' = 1 ∨ s.pstate' = 2 then s.bivWake 2 else s
  else s

end Sys2Proof.Machine
end

