-- ==== Sys2Proof/Machine/ExecArs.lean ====
section
/-! DEFINITION. Meanings: Angle Resamplers (spec/06). -/

namespace Sys2Proof.Machine

/-- VIEW_ON (R175; ARS_CMD with OP = VIEW_ON (spec/06 R175, R176)). The ARS reads, clamps and enables a view descriptor. -/
def execViewOn (w : Writer) (c v t : Nat) (s : State) : Host.Outcome State Fault Refusal :=
  run (w.ok && decide (c < 16) && decide (v < 512)) (fun s => (s.upTo t).pageWrite w (pgArs c) 0x048 4 (1 * 2 ^ 28 + v) false) s

/-- VIEW_OFF (R175; ARS_CMD with OP = VIEW_OFF (spec/06 R175)). The ARS switches a view off and closes its open block. -/
def execViewOff (w : Writer) (c v t : Nat) (s : State) : Host.Outcome State Fault Refusal :=
  run (w.ok && decide (c < 16) && decide (v < 512)) (fun s => (s.upTo t).pageWrite w (pgArs c) 0x048 4 (2 * 2 ^ 28 + v) false) s

/-- IN_ON (R175; ARS_CMD with OP = IN_ON (spec/06 R173, R175)). The ARS reads, clamps and enables an input descriptor. -/
def execInOn (w : Writer) (c i t : Nat) (s : State) : Host.Outcome State Fault Refusal :=
  run (w.ok && decide (c < 16) && decide (i < 512)) (fun s => (s.upTo t).pageWrite w (pgArs c) 0x048 4 (3 * 2 ^ 28 + i) false) s

/-- IN_OFF (R175; ARS_CMD with OP = IN_OFF (spec/06 R175)). The ARS switches an input off. -/
def execInOff (w : Writer) (c i t : Nat) (s : State) : Host.Outcome State Fault Refusal :=
  run (w.ok && decide (c < 16) && decide (i < 512)) (fun s => (s.upTo t).pageWrite w (pgArs c) 0x048 4 (4 * 2 ^ 28 + i) false) s

/-- ARS_COMMAND_COMPLETE (R175; spec/06 R175). An ARS command completes and ARS_CMD_STAT shows its result. -/
def execArsCommandComplete (c : Nat) (s : State) : Host.Outcome State Fault Refusal :=
  run (decide (c < 16)) (fun s => Machine.arsCommandComplete c s) s

/-- INPUT_CELL (R174; spec/06 R174). The ARS copies an input cell into the input history and advances its consumer index. -/
def execInputCell (c i t : Nat) (s : State) : Host.Outcome State Fault Refusal :=
  run (decide (c < 16) && decide (i < 256)) (fun s => Machine.inputCell c i t s) s

/-- OUTPUT_SAMPLE (R184; spec/06 R184). Once its instant is resolved and its inputs are present the ARS computes and writes a view sample. -/
def execOutputSample (c v t : Nat) (chk : SampleCheck) (s : State) : Host.Outcome State Fault Refusal :=
  run (decide (c < 16) && decide (v < 512)) (fun s => Machine.outputSample c v t chk.diff chk.bad s) s

end Sys2Proof.Machine
end

