-- ==== Sys2Proof/Machine/ExecBcp.lean ====
section
/-! DEFINITION. Meanings: Basecamp and the update journal (spec/20). -/

namespace Sys2Proof.Machine

/-- POWER_ON_RESET (R565; spec/21 R565, spec/20 R533). A feed stands at 9.0 V for 10 ms and reset is released. -/
def execPowerOnReset (s : State) : Host.Outcome State Fault Refusal := .next (Machine.powerOnReset s).settle

/-- BASECAMP_RESET (R534; spec/20 R534). A Basecamp reset runs a warm boot and surveys running functions. -/
def execBasecampReset (cause t : Nat) (s : State) : Host.Outcome State Fault Refusal :=
  run (decide (cause < 16)) (fun s => Machine.basecampReset cause t s) s

/-- RESTART (R534; BCP_CTRL.RESTART (spec/20 R534)). BCP_CTRL.RESTART warm-restarts Basecamp. -/
def execRestart (w : Writer) (t : Nat) (s : State) : Host.Outcome State Fault Refusal :=
  run w.ok (fun s => (s.upTo t).pageWrite w (pgBcp 0) 0x05C 4 1 false) s

/-- LOG_FLUSH (R540; spec/20 R540). Pending log records are written to both flashes. -/
def execLogFlush (t : Nat) (s : State) : Host.Outcome State Fault Refusal :=
  run true (fun s => logFlushAt t s) s

/-- POWER_FAIL (R541; spec/20 R541, spec/21 R566). Both feeds stay below 8.5 V for 50 µs and Basecamp logs and flushes. -/
def execPowerFail (va vb store t : Nat) (s : State) : Host.Outcome State Fault Refusal :=
  run true (fun s => Machine.powerFail va vb store t s) s

/-- NONCE (R545; spec/20 R545). BAP NONCE returns serial and nonce. -/
def execNonce (b : Bap) (op t : Nat) (s : State) : Host.Outcome State Fault Refusal :=
  run (decide (op < 256)) (fun s => Machine.nonce b op t s) s

/-- BAP_READ (R545; spec/20 R545). BAP READ returns words with poison. -/
def execBapRead (b : Bap) (t : Nat) (s : State) : Host.Outcome State Fault Refusal :=
  run true (fun s => Machine.bapRead b t s) s

/-- SOURCE_UNBLOCK (R547; spec/20 R547). A blocked source's 10 s expire. -/
def execSourceUnblock (ip t : Nat) (s : State) : Host.Outcome State Fault Refusal :=
  run true (fun s => Machine.sourceUnblock ip t s) s

/-- BAP_WRITE (R545; spec/20 R545). BAP WRITE writes words within the key's right. -/
def execBapWrite (b : Bap) (t : Nat) (s : State) : Host.Outcome State Fault Refusal :=
  run true (fun s => Machine.bapWrite b t s) s

/-- LOG_READ (R545; spec/20 R545). BAP LOG_READ returns log records. -/
def execLogRead (b : Bap) (t : Nat) (s : State) : Host.Outcome State Fault Refusal :=
  run true (fun s => Machine.logRead b t s) s

/-- UPD_OPEN (R550; spec/20 R550). An update opens, its target is marked INVALID and erase begins. -/
def execUpdOpen (b : Bap) (t : Nat) (s : State) : Host.Outcome State Fault Refusal :=
  run true (fun s => bapUpdOpen b t s) s

/-- ERASE_COMPLETE (R550; spec/20 R550). A flash erase or program completes. -/
def execEraseComplete (t : Nat) (s : State) : Host.Outcome State Fault Refusal :=
  run true (fun s => Machine.eraseComplete t s) s

/-- UPD_DATA (R550; spec/20 R550). Image data is programmed at an offset. -/
def execUpdData (b : Bap) (t : Nat) (s : State) : Host.Outcome State Fault Refusal :=
  run true (fun s => bapUpdData b t s) s

/-- UPD_COMMIT (R550; spec/20 R550). The image is verified and marked VALID or left INVALID. -/
def execUpdCommit (b : Bap) (t : Nat) (s : State) : Host.Outcome State Fault Refusal :=
  run true (fun s => bapUpdCommit b t s) s

/-- UPD_ACTIVATE (R550; spec/20 R550). The committed bank becomes PREFERRED and TRIAL and Basecamp restarts. -/
def execUpdActivate (b : Bap) (t : Nat) (s : State) : Host.Outcome State Fault Refusal :=
  run true (fun s => bapUpdActivate b t s) s

/-- BAP_WAKE (R556; spec/20 R556). BAP WAKE wakes the module from bivouac or OFF. -/
def execBapWake (b : Bap) (t : Nat) (s : State) : Host.Outcome State Fault Refusal :=
  run true (fun s => Machine.bapWake b t s) s

/-- PTP_SYNC (R543; spec/20 R543). An IEEE 1588 Sync updates the servo and track 0. -/
def execPtpSync (ofs : Int) (ptp t : Nat) (s : State) : Host.Outcome State Fault Refusal :=
  run true (fun s => Machine.ptpSync ofs ptp t s) s

/-- SYNC_TIMEOUT (R543; spec/20 R543). 8 s without Sync unlock the servo. -/
def execSyncTimeout (t : Nat) (s : State) : Host.Outcome State Fault Refusal :=
  run true (fun s => Machine.syncTimeout t s) s

/-- CONFIRM (R552; BCP_UPD_CTRL with OP = CONFIRM (spec/20 R552)). A TRIAL bank becomes VALID. -/
def execConfirm (w : Writer) (t : Nat) (s : State) : Host.Outcome State Fault Refusal :=
  run w.ok (fun s => (s.upTo t).pageWrite w (pgBcp 4) 0x068 4 (2 ^ 30) false) s

/-- RAISE_MIN (R557; BCP_UPD_CTRL with OP = RAISE_MIN (spec/20 R557)). The running generation is fused as the minimum. -/
def execRaiseMin (w : Writer) (t : Nat) (s : State) : Host.Outcome State Fault Refusal :=
  run w.ok (fun s => (s.upTo t).pageWrite w (pgBcp 4) 0x068 4 (2 ^ 31) false) s

/-- ABORT (R557; BCP_UPD_CTRL with OP = ABORT (spec/20 R557)). The running update is aborted. -/
def execAbort (w : Writer) (t : Nat) (s : State) : Host.Outcome State Fault Refusal :=
  run w.ok (fun s => (s.upTo t).pageWrite w (pgBcp 4) 0x068 4 (3 * 2 ^ 30) false) s

/-- TILE_UPDATE (R553; BCP_TUPD with OP = START (spec/20 R553)). BCP_TUPD START updates a tile's code through a spare. -/
def execTileUpdate (w : Writer) (sec tile t : Nat) (s : State) : Host.Outcome State Fault Refusal :=
  run (w.ok && decide (sec < 256) && decide (tile < 128)) (fun s => (s.upTo t).pageWrite w (pgBcp 4) 0x06C 4 (2 ^ 30 + sec * 256 + tile) false) s

/-- BIV_ENTER (R555; BCP_BIV_CMD with OP = ENTER (spec/20 R555)). The module enters bivouac or is refused. -/
def execBivEnter (w : Writer) (t : Nat) (s : State) : Host.Outcome State Fault Refusal :=
  run w.ok (fun s => (s.upTo t).pageWrite w (pgBcp 5) 0x040 4 (2 ^ 30) false) s

/-- BIV_WAKE (R556; BCP_BIV_CMD with OP = WAKE (spec/20 R556)). The module wakes and restores its recorded pages. -/
def execBivWake (w : Writer) (t : Nat) (s : State) : Host.Outcome State Fault Refusal :=
  run w.ok (fun s => (s.upTo t).pageWrite w (pgBcp 5) 0x040 4 (2 ^ 31) false) s

/-- BIV_OFF (R555; BCP_BIV_CMD with OP = OFF (spec/20 R555)). The module goes to OFF. -/
def execBivOff (w : Writer) (t : Nat) (s : State) : Host.Outcome State Fault Refusal :=
  run w.ok (fun s => (s.upTo t).pageWrite w (pgBcp 5) 0x040 4 (3 * 2 ^ 30) false) s

/-- BCP_KEY_DATA (R548; A word of BCP_KEY_DATA; the last sets the key (spec/20 R548)). Writing the last key word sets the selected slot's key. -/
def execBcpKeyData (w : Writer) (i word t : Nat) (s : State) : Host.Outcome State Fault Refusal :=
  run (w.ok && decide (i < 8) && decide (word < 2 ^ 32)) (fun s => (s.upTo t).pageWrite w (pgBcp 7) (0x060 + 4 * i) 4 word false) s

/-- ENTRY_SEQUENCE_COMPLETE (R555; spec/20 R555). The bivouac entry sequence finishes its last step and PSTATE goes from ENTERING to BIVOUAC. -/
def execEntrySequenceComplete (t : Nat) (s : State) : Host.Outcome State Fault Refusal :=
  run true (fun s => entryComplete t s) s

/-- EXIT_SEQUENCE_COMPLETE (R556; spec/20 R556). The exit sequence finishes restoring DRAM, banks, tiles, engines and ports, and PSTATE goes from WAKING to ACTIVE. -/
def execExitSequenceComplete (t : Nat) (s : State) : Host.Outcome State Fault Refusal :=
  run true (fun s => exitComplete t s) s

end Sys2Proof.Machine
end

