-- ==== Sys2Proof/Machine/ExecBist.lean ====
section
/-! DEFINITION. Meanings: self-test (spec/17). -/

namespace Sys2Proof.Machine

/-- SLICE_DUE (R477; spec/17 R477). A scheduled self-test slice falls due and starts when it can. -/
def execSliceDue (unit inst slice t : Nat) (s : State) : Host.Outcome State Fault Refusal :=
  run (decide (unit < 256) && decide (inst < 65536)) (fun s => Machine.sliceDue unit inst slice t s) s

/-- SLICE_END (R474; spec/17 R474). A slice ends, at the latest at 6 µs, and reports its result. -/
def execSliceEnd (unit inst slice res wh at_ t : Nat) (s : State) : Host.Outcome State Fault Refusal :=
  run (decide (unit < 256) && decide (inst < 65536)) (fun s => Machine.sliceEndAll unit inst slice res wh at_ t s) s

/-- RETEST (R475; spec/17 R475). 1 ms after a memory FAIL the slice is retested. -/
def execRetest (unit inst slice res wh at_ t : Nat) (s : State) : Host.Outcome State Fault Refusal :=
  run (decide (unit < 256) && decide (inst < 65536)) (fun s => Machine.retest unit inst slice res wh at_ t s) s

/-- BIST_REQ (R476; BIST_REQ written (spec/17 R476)). A write starts a requested pass on a unit. -/
def execBistReq (w : Writer) (p unit tile t : Nat) (s : State) : Host.Outcome State Fault Refusal :=
  run (w.ok && bistPg p && decide (unit < 256) && decide (tile < 128)) (fun s => (s.upTo t).pageWrite w p 0x044 4 (unit * 2 ^ 24 + tile) false) s

/-- REQUESTED_PASS_COMPLETE (R476; spec/17 R476). A requested pass gives one result and the unit reacts. -/
def execRequestedPassComplete (unit inst np nf ni wh at_ t : Nat) (s : State) : Host.Outcome State Fault Refusal :=
  run (decide (unit < 256) && decide (inst < 65536)) (fun s => Machine.requestedPassEnd unit inst np nf ni wh at_ t s) s

/-- BIST_FUSE (R485; BIST_FUSE with OP = FUSE (spec/17 R485)). A Basecamp write burns a repair entry into fuses. -/
def execBistFuse (w : Writer) (entry t : Nat) (s : State) : Host.Outcome State Fault Refusal :=
  run (w.ok && decide (entry < 1024)) (fun s => (s.upTo t).pageWrite w pgBistM 0x0C0 4 (2 ^ 30 + entry) false) s

end Sys2Proof.Machine
end

