-- ==== Sys2Proof/Machine/ExecFlow.lean ====
section
/-! DEFINITION. Meanings: control flow of Kolotte. -/

namespace Sys2Proof.Machine

/-- BR (R380; spec/12 R380). PC-relative branch. -/
def execBr (i : Issue) (ln : Nat) (s : State) : Host.Outcome State Fault Refusal :=
  run (decide (i.tile < 128) && decide (i.copy < 3) && decide (ln < 16)) (fun s => kRun i (.br ln) s) s

/-- BRI (R380; spec/12 R380). Branch to C0.base + offset. -/
def execBri (i : Issue) (s : State) : Host.Outcome State Fault Refusal :=
  run (decide (i.tile < 128) && decide (i.copy < 3)) (fun s => kRun i .bri s) s

/-- LOOP (R347; spec/11 R347). Opens a counted loop. -/
def execLoop (i : Issue) (ln tail : Nat) (s : State) : Host.Outcome State Fault Refusal :=
  run (decide (i.tile < 128) && decide (i.copy < 3) && decide (ln < 16) && decide (tail < 9)) (fun s => kRun i (.loop ln tail) s) s

/-- BRC (R380; spec/12 R380). Branch that replaces C0. -/
def execBrc (i : Issue) (n : Nat) (s : State) : Host.Outcome State Fault Refusal :=
  run (decide (i.tile < 128) && decide (i.copy < 3) && decide (n < 16)) (fun s => kRun i (.brc n) s) s

/-- CALL (R331; spec/11 R331). PC-relative call sliding the window. -/
def execCall (i : Issue) (n ln : Nat) (s : State) : Host.Outcome State Fault Refusal :=
  run (decide (i.tile < 128) && decide (i.copy < 3) && decide (n < 64) && decide (ln < 16)) (fun s => kRun i (.call n ln) s) s

/-- CALLI (R381; spec/12 R381). Indirect call sliding the window. -/
def execCalli (i : Issue) (n : Nat) (s : State) : Host.Outcome State Fault Refusal :=
  run (decide (i.tile < 128) && decide (i.copy < 3) && decide (n < 64)) (fun s => kRun i (.calli n) s) s

/-- RET (R331; spec/11 R331). Returns k results to the caller. -/
def execRet (i : Issue) (k : Nat) (s : State) : Host.Outcome State Fault Refusal :=
  run (decide (i.tile < 128) && decide (i.copy < 3) && decide (k < 64)) (fun s => kRun i (.ret k) s) s

/-- TRAP (R423; spec/14 R423). System call entering cause 0x0B. -/
def execTrap (i : Issue) (n : Nat) (s : State) : Host.Outcome State Fault Refusal :=
  run (decide (i.tile < 128) && decide (i.copy < 3) && decide (n < 256)) (fun s => kRun i (.trap n) s) s

/-- RETX (R424; spec/14 R424). Returns from an exception frame. -/
def execRetx (i : Issue) (s : State) : Host.Outcome State Fault Refusal :=
  run (decide (i.tile < 128) && decide (i.copy < 3)) (fun s => kRun i .retx s) s

end Sys2Proof.Machine
end

