-- ==== Sys2Proof/Machine/ExecFrd.lean ====
section
/-! DEFINITION. Meanings: Feature Reducers (spec/08). -/

namespace Sys2Proof.Machine

/-- SLOT_ON (R237; FRD_CMD with OP = SLOT_ON (spec/08 R236, R237)). The FRD reads, clamps and enables a slot at level INVALID. -/
def execSlotOn (w : Writer) (c i t : Nat) (s : State) : Host.Outcome State Fault Refusal :=
  run (w.ok && decide (c < 16) && decide (i < 4096)) (fun s => (s.upTo t).pageWrite w (pgFrd c) 0x048 4 (1 * 2 ^ 28 + i) false) s

/-- SLOT_OFF (R237; FRD_CMD with OP = SLOT_OFF (spec/08 R237)). The FRD disables a slot and clears its map bits. -/
def execSlotOff (w : Writer) (c i t : Nat) (s : State) : Host.Outcome State Fault Refusal :=
  run (w.ok && decide (c < 16) && decide (i < 4096)) (fun s => (s.upTo t).pageWrite w (pgFrd c) 0x048 4 (2 * 2 ^ 28 + i) false) s

/-- BL_CLEAR (R238; FRD_CMD with OP = BL_CLEAR (spec/08 R238)). The FRD writes zero into all 64 bins of a baseline. -/
def execBlClear (w : Writer) (c i t : Nat) (s : State) : Host.Outcome State Fault Refusal :=
  run (w.ok && decide (c < 16) && decide (i < 4096)) (fun s => (s.upTo t).pageWrite w (pgFrd c) 0x048 4 (3 * 2 ^ 28 + i) false) s

/-- FRD_TRIGGER (R239; FRD_TRIGGER written (spec/08 R239)). A write to FRD_TRIGGER queues a group trigger on a result. -/
def execFrdTrigger (w : Writer) (c group result t : Nat) (s : State) : Host.Outcome State Fault Refusal :=
  run (w.ok && decide (c < 16) && decide (group < 256) && decide (result < 131072)) (fun s => (s.upTo t).pageWrite w (pgFrd c) 0x050 4 (group * 2 ^ 24 + result * 64) false) s

/-- TRIGGER_SERVICE (R240; spec/08 R240). The FRD takes a trigger and evaluates its slots in ascending order. -/
def execTriggerService (c t : Nat) (diffs : List Nat) (s : State) : Host.Outcome State Fault Refusal :=
  run (decide (c < 16)) (fun s => Machine.triggerService c t diffs s) s

end Sys2Proof.Machine
end

