-- ==== Sys2Proof/Machine/ExecInt.lean ====
section
/-! DEFINITION. Meanings: integer operations of Kolotte. -/

namespace Sys2Proof.Machine

/-- ADD (R353; spec/11 R353, R354, spec/12 R359). Wrapping integer addition. -/
def execAdd (i : Issue) (s : State) : Host.Outcome State Fault Refusal :=
  run (decide (i.tile < 128) && decide (i.copy < 3)) (fun s => kRun i (.bin .add) s) s

/-- SUB (R353; spec/11 R353, R354, spec/12 R359). Wrapping integer subtraction. -/
def execSub (i : Issue) (s : State) : Host.Outcome State Fault Refusal :=
  run (decide (i.tile < 128) && decide (i.copy < 3)) (fun s => kRun i (.bin .sub) s) s

/-- ADDV (R353; spec/11 R353, R354, spec/12 R359). Addition raising overflow. -/
def execAddv (i : Issue) (s : State) : Host.Outcome State Fault Refusal :=
  run (decide (i.tile < 128) && decide (i.copy < 3)) (fun s => kRun i (.bin .addv) s) s

/-- SUBV (R353; spec/11 R353, R354, spec/12 R359). Subtraction raising overflow. -/
def execSubv (i : Issue) (s : State) : Host.Outcome State Fault Refusal :=
  run (decide (i.tile < 128) && decide (i.copy < 3)) (fun s => kRun i (.bin .subv) s) s

/-- AND (R359; spec/11 R353, R354, spec/12 R359). Bitwise AND. -/
def execAnd (i : Issue) (s : State) : Host.Outcome State Fault Refusal :=
  run (decide (i.tile < 128) && decide (i.copy < 3)) (fun s => kRun i (.bin .and) s) s

/-- OR (R359; spec/11 R353, R354, spec/12 R359). Bitwise OR. -/
def execOr (i : Issue) (s : State) : Host.Outcome State Fault Refusal :=
  run (decide (i.tile < 128) && decide (i.copy < 3)) (fun s => kRun i (.bin .or) s) s

/-- XOR (R359; spec/11 R353, R354, spec/12 R359). Bitwise XOR. -/
def execXor (i : Issue) (s : State) : Host.Outcome State Fault Refusal :=
  run (decide (i.tile < 128) && decide (i.copy < 3)) (fun s => kRun i (.bin .xor) s) s

/-- ANDN (R359; spec/11 R353, R354, spec/12 R359). a AND NOT b. -/
def execAndn (i : Issue) (s : State) : Host.Outcome State Fault Refusal :=
  run (decide (i.tile < 128) && decide (i.copy < 3)) (fun s => kRun i (.bin .andn) s) s

/-- SHL (R353; spec/11 R353, R354, spec/12 R359). Shift left by b mod 32. -/
def execShl (i : Issue) (s : State) : Host.Outcome State Fault Refusal :=
  run (decide (i.tile < 128) && decide (i.copy < 3)) (fun s => kRun i (.bin .shl) s) s

/-- SHR (R353; spec/11 R353, R354, spec/12 R359). Logical shift right. -/
def execShr (i : Issue) (s : State) : Host.Outcome State Fault Refusal :=
  run (decide (i.tile < 128) && decide (i.copy < 3)) (fun s => kRun i (.bin .shr) s) s

/-- SAR (R353; spec/11 R353, R354, spec/12 R359). Arithmetic shift right. -/
def execSar (i : Issue) (s : State) : Host.Outcome State Fault Refusal :=
  run (decide (i.tile < 128) && decide (i.copy < 3)) (fun s => kRun i (.bin .sar) s) s

/-- ROL (R353; spec/11 R353, R354, spec/12 R359). Rotate left. -/
def execRol (i : Issue) (s : State) : Host.Outcome State Fault Refusal :=
  run (decide (i.tile < 128) && decide (i.copy < 3)) (fun s => kRun i (.bin .rol) s) s

/-- MIN (R359; spec/11 R353, R354, spec/12 R359). Signed minimum. -/
def execMin (i : Issue) (s : State) : Host.Outcome State Fault Refusal :=
  run (decide (i.tile < 128) && decide (i.copy < 3)) (fun s => kRun i (.bin .min) s) s

/-- MAX (R359; spec/11 R353, R354, spec/12 R359). Signed maximum. -/
def execMax (i : Issue) (s : State) : Host.Outcome State Fault Refusal :=
  run (decide (i.tile < 128) && decide (i.copy < 3)) (fun s => kRun i (.bin .max) s) s

/-- MINU (R359; spec/11 R353, R354, spec/12 R359). Unsigned minimum. -/
def execMinu (i : Issue) (s : State) : Host.Outcome State Fault Refusal :=
  run (decide (i.tile < 128) && decide (i.copy < 3)) (fun s => kRun i (.bin .minu) s) s

/-- MAXU (R359; spec/11 R353, R354, spec/12 R359). Unsigned maximum. -/
def execMaxu (i : Issue) (s : State) : Host.Outcome State Fault Refusal :=
  run (decide (i.tile < 128) && decide (i.copy < 3)) (fun s => kRun i (.bin .maxu) s) s

/-- QADD (R354; spec/11 R353, R354, spec/12 R359). Saturating Q1.31 addition. -/
def execQadd (i : Issue) (s : State) : Host.Outcome State Fault Refusal :=
  run (decide (i.tile < 128) && decide (i.copy < 3)) (fun s => kRun i (.bin .qadd) s) s

/-- QSUB (R354; spec/11 R353, R354, spec/12 R359). Saturating Q1.31 subtraction. -/
def execQsub (i : Issue) (s : State) : Host.Outcome State Fault Refusal :=
  run (decide (i.tile < 128) && decide (i.copy < 3)) (fun s => kRun i (.bin .qsub) s) s

/-- NOT (R359; spec/11 R353, R354, spec/12 R359). Bitwise complement. -/
def execNot (i : Issue) (s : State) : Host.Outcome State Fault Refusal :=
  run (decide (i.tile < 128) && decide (i.copy < 3)) (fun s => kRun i (.un .not) s) s

/-- NEG (R359; spec/11 R353, R354, spec/12 R359). Wrapping negation. -/
def execNeg (i : Issue) (s : State) : Host.Outcome State Fault Refusal :=
  run (decide (i.tile < 128) && decide (i.copy < 3)) (fun s => kRun i (.un .neg) s) s

/-- ABS (R359; spec/11 R353, R354, spec/12 R359). Wrapping absolute value. -/
def execAbs (i : Issue) (s : State) : Host.Outcome State Fault Refusal :=
  run (decide (i.tile < 128) && decide (i.copy < 3)) (fun s => kRun i (.un .abs) s) s

/-- QNEG (R354; spec/11 R353, R354, spec/12 R359). Saturating Q1.31 negation. -/
def execQneg (i : Issue) (s : State) : Host.Outcome State Fault Refusal :=
  run (decide (i.tile < 128) && decide (i.copy < 3)) (fun s => kRun i (.un .qneg) s) s

/-- QABS (R354; spec/11 R353, R354, spec/12 R359). Saturating Q1.31 absolute value. -/
def execQabs (i : Issue) (s : State) : Host.Outcome State Fault Refusal :=
  run (decide (i.tile < 128) && decide (i.copy < 3)) (fun s => kRun i (.un .qabs) s) s

/-- CLZ (R359; spec/11 R353, R354, spec/12 R359). Counts leading zeros. -/
def execClz (i : Issue) (s : State) : Host.Outcome State Fault Refusal :=
  run (decide (i.tile < 128) && decide (i.copy < 3)) (fun s => kRun i (.un .clz) s) s

/-- CTZ (R359; spec/11 R353, R354, spec/12 R359). Counts trailing zeros. -/
def execCtz (i : Issue) (s : State) : Host.Outcome State Fault Refusal :=
  run (decide (i.tile < 128) && decide (i.copy < 3)) (fun s => kRun i (.un .ctz) s) s

/-- POPC (R359; spec/11 R353, R354, spec/12 R359). Counts set bits. -/
def execPopc (i : Issue) (s : State) : Host.Outcome State Fault Refusal :=
  run (decide (i.tile < 128) && decide (i.copy < 3)) (fun s => kRun i (.un .popc) s) s

/-- SXB (R359; spec/11 R353, R354, spec/12 R359). Sign-extends from 8 bits. -/
def execSxb (i : Issue) (s : State) : Host.Outcome State Fault Refusal :=
  run (decide (i.tile < 128) && decide (i.copy < 3)) (fun s => kRun i (.un .sxb) s) s

/-- SXH (R359; spec/11 R353, R354, spec/12 R359). Sign-extends from 16 bits. -/
def execSxh (i : Issue) (s : State) : Host.Outcome State Fault Refusal :=
  run (decide (i.tile < 128) && decide (i.copy < 3)) (fun s => kRun i (.un .sxh) s) s

/-- ZXB (R359; spec/11 R353, R354, spec/12 R359). Zero-extends from 8 bits. -/
def execZxb (i : Issue) (s : State) : Host.Outcome State Fault Refusal :=
  run (decide (i.tile < 128) && decide (i.copy < 3)) (fun s => kRun i (.un .zxb) s) s

/-- ZXH (R359; spec/11 R353, R354, spec/12 R359). Zero-extends from 16 bits. -/
def execZxh (i : Issue) (s : State) : Host.Outcome State Fault Refusal :=
  run (decide (i.tile < 128) && decide (i.copy < 3)) (fun s => kRun i (.un .zxh) s) s

/-- BSWAP (R359; spec/11 R353, R354, spec/12 R359). Reverses byte order. -/
def execBswap (i : Issue) (s : State) : Host.Outcome State Fault Refusal :=
  run (decide (i.tile < 128) && decide (i.copy < 3)) (fun s => kRun i (.un .bswap) s) s

end Sys2Proof.Machine
end

