-- ==== Sys2Proof/Machine/ExecMem.lean ====
section
/-! DEFINITION. Meanings: memory, capability, mailbox and stream operations of Kolotte. -/

namespace Sys2Proof.Machine

/-- LDB (R371; spec/12 R371, spec/11 R349). Loads a sign-extended byte. -/
def execLdb (i : Issue) (n : Nat) (s : State) : Host.Outcome State Fault Refusal :=
  run (decide (i.tile < 128) && decide (i.copy < 3) && decide (n < 16)) (fun s => kRun i (.ld .ldb n) s) s

/-- LDBU (R371; spec/12 R371, spec/11 R349). Loads a zero-extended byte. -/
def execLdbu (i : Issue) (n : Nat) (s : State) : Host.Outcome State Fault Refusal :=
  run (decide (i.tile < 128) && decide (i.copy < 3) && decide (n < 16)) (fun s => kRun i (.ld .ldbu n) s) s

/-- LDH (R371; spec/12 R371, spec/11 R349). Loads a sign-extended halfword. -/
def execLdh (i : Issue) (n : Nat) (s : State) : Host.Outcome State Fault Refusal :=
  run (decide (i.tile < 128) && decide (i.copy < 3) && decide (n < 16)) (fun s => kRun i (.ld .ldh n) s) s

/-- LDHU (R371; spec/12 R371, spec/11 R349). Loads a zero-extended halfword. -/
def execLdhu (i : Issue) (n : Nat) (s : State) : Host.Outcome State Fault Refusal :=
  run (decide (i.tile < 128) && decide (i.copy < 3) && decide (n < 16)) (fun s => kRun i (.ld .ldhu n) s) s

/-- LDW (R349; spec/12 R371, spec/11 R349). Loads a word, shadowed from local memory. -/
def execLdw (i : Issue) (n : Nat) (s : State) : Host.Outcome State Fault Refusal :=
  run (decide (i.tile < 128) && decide (i.copy < 3) && decide (n < 16)) (fun s => kRun i (.ld .ldw n) s) s

/-- LDD (R371; spec/12 R371, spec/11 R349). Loads a 64-bit value. -/
def execLdd (i : Issue) (n : Nat) (s : State) : Host.Outcome State Fault Refusal :=
  run (decide (i.tile < 128) && decide (i.copy < 3) && decide (n < 16)) (fun s => kRun i (.ld .ldd n) s) s

/-- STB (R373; spec/12 R371, R373). Stores a byte and clears the granule tag. -/
def execStb (i : Issue) (n : Nat) (s : State) : Host.Outcome State Fault Refusal :=
  run (decide (i.tile < 128) && decide (i.copy < 3) && decide (n < 16)) (fun s => kRun i (.st .stb n) s) s

/-- STH (R373; spec/12 R371, R373). Stores a halfword. -/
def execSth (i : Issue) (n : Nat) (s : State) : Host.Outcome State Fault Refusal :=
  run (decide (i.tile < 128) && decide (i.copy < 3) && decide (n < 16)) (fun s => kRun i (.st .sth n) s) s

/-- STW (R373; spec/12 R371, R373). Stores a word. -/
def execStw (i : Issue) (n : Nat) (s : State) : Host.Outcome State Fault Refusal :=
  run (decide (i.tile < 128) && decide (i.copy < 3) && decide (n < 16)) (fun s => kRun i (.st .stw n) s) s

/-- STD (R373; spec/12 R371, R373). Stores a 64-bit value. -/
def execStd (i : Issue) (n : Nat) (s : State) : Host.Outcome State Fault Refusal :=
  run (decide (i.tile < 128) && decide (i.copy < 3) && decide (n < 16)) (fun s => kRun i (.st .std n) s) s

/-- LDT (R371; spec/12 R371). Loads a capability with its tag. -/
def execLdt (i : Issue) (m n : Nat) (s : State) : Host.Outcome State Fault Refusal :=
  run (decide (i.tile < 128) && decide (i.copy < 3) && decide (m < 16) && decide (n < 16)) (fun s => kRun i (.ldt m n) s) s

/-- STT (R410; spec/14 R410). Stores a capability with its tag. -/
def execStt (i : Issue) (m n : Nat) (s : State) : Host.Outcome State Fault Refusal :=
  run (decide (i.tile < 128) && decide (i.copy < 3) && decide (m < 16) && decide (n < 16)) (fun s => kRun i (.stt m n) s) s

/-- CMOV (R411; spec/14 R411). Copies a capability. -/
def execCmov (i : Issue) (d s_ : Nat) (s : State) : Host.Outcome State Fault Refusal :=
  run (decide (i.tile < 128) && decide (i.copy < 3) && decide (d < 16) && decide (s_ < 16)) (fun s => kRun i (.cmov d s_) s) s

/-- CRANGE (R374; spec/12 R374). Narrows a capability's range. -/
def execCrange (i : Issue) (d s_ : Nat) (s : State) : Host.Outcome State Fault Refusal :=
  run (decide (i.tile < 128) && decide (i.copy < 3) && decide (d < 16) && decide (s_ < 16)) (fun s => kRun i (.crange d s_) s) s

/-- CPERM (R374; spec/12 R374). Narrows a capability's permissions. -/
def execCperm (i : Issue) (d s_ : Nat) (s : State) : Host.Outcome State Fault Refusal :=
  run (decide (i.tile < 128) && decide (i.copy < 3) && decide (d < 16) && decide (s_ < 16)) (fun s => kRun i (.cperm d s_) s) s

/-- CTIE (R412; spec/14 R412). Ties a knot in a capability. -/
def execCtie (i : Issue) (d s_ : Nat) (s : State) : Host.Outcome State Fault Refusal :=
  run (decide (i.tile < 128) && decide (i.copy < 3) && decide (d < 16) && decide (s_ < 16)) (fun s => kRun i (.ctie d s_) s) s

/-- CUNTIE (R412; spec/14 R412). Unties a knotted capability. -/
def execCuntie (i : Issue) (d s_ : Nat) (s : State) : Host.Outcome State Fault Refusal :=
  run (decide (i.tile < 128) && decide (i.copy < 3) && decide (d < 16) && decide (s_ < 16)) (fun s => kRun i (.cuntie d s_) s) s

/-- CREAD (R359; spec/12 R359). Pushes a field of a capability. -/
def execCread (i : Issue) (f n : Nat) (s : State) : Host.Outcome State Fault Refusal :=
  run (decide (i.tile < 128) && decide (i.copy < 3) && decide (f < 8) && decide (n < 16)) (fun s => kRun i (.cread f n) s) s

/-- CVOID (R359; spec/12 R359). Zeroes and untags a capability register. -/
def execCvoid (i : Issue) (n : Nat) (s : State) : Host.Outcome State Fault Refusal :=
  run (decide (i.tile < 128) && decide (i.copy < 3) && decide (n < 16)) (fun s => kRun i (.cvoid n) s) s

/-- WAITW (R357; spec/11 R357). Waits for and pops a release entry. -/
def execWaitw (i : Issue) (s : State) : Host.Outcome State Fault Refusal :=
  run (decide (i.tile < 128) && decide (i.copy < 3)) (fun s => kRun i .waitw s) s

/-- SYNCF (R358; spec/11 R358). Drains stores and discards line buffers, BTB and return-stack cache. -/
def execSyncf (i : Issue) (s : State) : Host.Outcome State Fault Refusal :=
  run (decide (i.tile < 128) && decide (i.copy < 3)) (fun s => kRun i .syncf s) s

/-- CAIRN (R293; spec/10 R293). Brings a cairn due. -/
def execCairn (i : Issue) (s : State) : Host.Outcome State Fault Refusal :=
  run (decide (i.tile < 128) && decide (i.copy < 3)) (fun s => kRun i .cairn s) s

/-- MBXR (R373; spec/12 R373). Takes the oldest mailbox word. -/
def execMbxr (i : Issue) (n : Nat) (s : State) : Host.Outcome State Fault Refusal :=
  run (decide (i.tile < 128) && decide (i.copy < 3) && decide (n < 8)) (fun s => kRun i (.mbxr n) s) s

/-- SEND (R377; spec/12 R377). Sends bytes on a tile stream as one RAW cell. -/
def execSend (i : Issue) (n st : Nat) (s : State) : Host.Outcome State Fault Refusal :=
  run (decide (i.tile < 128) && decide (i.copy < 3) && decide (n < 16) && decide (st < 16)) (fun s => kRun i (.send n st) s) s

/-- TFESUB (R378; spec/12 R378). Submits a word to the cluster's Transform Engine. -/
def execTfesub (i : Issue) (n : Nat) (s : State) : Host.Outcome State Fault Refusal :=
  run (decide (i.tile < 128) && decide (i.copy < 3) && decide (n < 16)) (fun s => kRun i (.tfesub n) s) s

end Sys2Proof.Machine
end

