-- ==== Sys2Proof/Machine/ExecMemory.lean ====
section
/-! DEFINITION. Meanings: scrubbing and power of memories (spec/15). -/

namespace Sys2Proof.Machine

/-- SCRUB_LINE (R443; spec/15 R443). In an idle cycle a scrubber reads, decodes and repairs or marks one line. -/
def execScrubLine (page b t : Nat) (s : State) : Host.Outcome State Fault Refusal :=
  run (eccBank page b) (fun s => Machine.scrubLine page b t s) s

/-- ECC_PWR (R448; ECC_PWR written (spec/15 R448)). A write of bank power states changes bank power. -/
def execEccPwr (w : Writer) (page v t : Nat) (s : State) : Host.Outcome State Fault Refusal :=
  run (w.ok && eccPage page) (fun s => (s.upTo t).pageWrite w page 0x044 4 v false) s

/-- BANK_WAKE_COMPLETE (R448; spec/15 R448). A waking bank completes its wake or initialisation and becomes usable. -/
def execBankWakeComplete (page b t : Nat) (s : State) : Host.Outcome State Fault Refusal :=
  run (eccBank page b) (fun s => Machine.bankWakeComplete page b t s) s

/-- ECC_FLIP_CFG (R449; ECC_FLIP_CFG written (spec/15 R449)). A write arms or configures fault injection. -/
def execEccFlipCfg (w : Writer) (page v t : Nat) (s : State) : Host.Outcome State Fault Refusal :=
  run (w.ok && eccPage page) (fun s => (s.upTo t).pageWrite w page 0x064 4 v false) s

end Sys2Proof.Machine
end

