-- ==== Sys2Proof/Machine/ExecMul.lean ====
section
/-! DEFINITION. Meanings: multiply, divide and floating point of Kolotte. -/

namespace Sys2Proof.Machine

/-- MUL (R353; spec/11 R353, spec/12 R359). Low 32 bits of the product. -/
def execMul (i : Issue) (s : State) : Host.Outcome State Fault Refusal :=
  run (decide (i.tile < 128) && decide (i.copy < 3)) (fun s => kRun i (.bin .mul) s) s

/-- MULV (R353; spec/11 R353, spec/12 R359). Product raising overflow. -/
def execMulv (i : Issue) (s : State) : Host.Outcome State Fault Refusal :=
  run (decide (i.tile < 128) && decide (i.copy < 3)) (fun s => kRun i (.bin .mulv) s) s

/-- MULHS (R359; spec/11 R353, spec/12 R359). High bits of the signed product. -/
def execMulhs (i : Issue) (s : State) : Host.Outcome State Fault Refusal :=
  run (decide (i.tile < 128) && decide (i.copy < 3)) (fun s => kRun i (.bin .mulhs) s) s

/-- MULHU (R359; spec/11 R353, spec/12 R359). High bits of the unsigned product. -/
def execMulhu (i : Issue) (s : State) : Host.Outcome State Fault Refusal :=
  run (decide (i.tile < 128) && decide (i.copy < 3)) (fun s => kRun i (.bin .mulhu) s) s

/-- MULL (R359; spec/12 R359). Full signed 64-bit product. -/
def execMull (i : Issue) (s : State) : Host.Outcome State Fault Refusal :=
  run (decide (i.tile < 128) && decide (i.copy < 3)) (fun s => kRun i (.wide true) s) s

/-- MULLU (R359; spec/12 R359). Full unsigned 64-bit product. -/
def execMullu (i : Issue) (s : State) : Host.Outcome State Fault Refusal :=
  run (decide (i.tile < 128) && decide (i.copy < 3)) (fun s => kRun i (.wide false) s) s

/-- QMUL (R354; spec/11 R354). Q1.31 multiplication. -/
def execQmul (i : Issue) (s : State) : Host.Outcome State Fault Refusal :=
  run (decide (i.tile < 128) && decide (i.copy < 3)) (fun s => kRun i (.bin .qmul) s) s

/-- QMAC (R354; spec/11 R354). Saturating Q1.31 multiply-accumulate. -/
def execQmac (i : Issue) (s : State) : Host.Outcome State Fault Refusal :=
  run (decide (i.tile < 128) && decide (i.copy < 3)) (fun s => kRun i (.tern .qmac) s) s

/-- DIV (R353; spec/11 R353, spec/12 R367). Signed truncating division. -/
def execDiv (i : Issue) (s : State) : Host.Outcome State Fault Refusal :=
  run (decide (i.tile < 128) && decide (i.copy < 3)) (fun s => kRun i (.bin .div) s) s

/-- DIVU (R367; spec/11 R353, spec/12 R367). Unsigned division. -/
def execDivu (i : Issue) (s : State) : Host.Outcome State Fault Refusal :=
  run (decide (i.tile < 128) && decide (i.copy < 3)) (fun s => kRun i (.bin .divu) s) s

/-- REM (R353; spec/11 R353, spec/12 R367). Signed remainder. -/
def execRem (i : Issue) (s : State) : Host.Outcome State Fault Refusal :=
  run (decide (i.tile < 128) && decide (i.copy < 3)) (fun s => kRun i (.bin .rem) s) s

/-- REMU (R367; spec/11 R353, spec/12 R367). Unsigned remainder. -/
def execRemu (i : Issue) (s : State) : Host.Outcome State Fault Refusal :=
  run (decide (i.tile < 128) && decide (i.copy < 3)) (fun s => kRun i (.bin .remu) s) s

/-- FADD (R355; spec/11 R355). Binary32 addition. -/
def execFadd (i : Issue) (s : State) : Host.Outcome State Fault Refusal :=
  run (decide (i.tile < 128) && decide (i.copy < 3)) (fun s => kRun i (.bin .fadd) s) s

/-- FSUB (R355; spec/11 R355). Binary32 subtraction. -/
def execFsub (i : Issue) (s : State) : Host.Outcome State Fault Refusal :=
  run (decide (i.tile < 128) && decide (i.copy < 3)) (fun s => kRun i (.bin .fsub) s) s

/-- FMUL (R355; spec/11 R355). Binary32 multiplication. -/
def execFmul (i : Issue) (s : State) : Host.Outcome State Fault Refusal :=
  run (decide (i.tile < 128) && decide (i.copy < 3)) (fun s => kRun i (.bin .fmul) s) s

/-- FMA (R355; spec/11 R355). Fused multiply-add. -/
def execFma (i : Issue) (s : State) : Host.Outcome State Fault Refusal :=
  run (decide (i.tile < 128) && decide (i.copy < 3)) (fun s => kRun i (.tern .fma) s) s

/-- FMIN (R355; spec/11 R355). Binary32 minimum. -/
def execFmin (i : Issue) (s : State) : Host.Outcome State Fault Refusal :=
  run (decide (i.tile < 128) && decide (i.copy < 3)) (fun s => kRun i (.bin .fmin) s) s

/-- FMAX (R355; spec/11 R355). Binary32 maximum. -/
def execFmax (i : Issue) (s : State) : Host.Outcome State Fault Refusal :=
  run (decide (i.tile < 128) && decide (i.copy < 3)) (fun s => kRun i (.bin .fmax) s) s

/-- FNEG (R359; spec/12 R359). Flips the sign bit. -/
def execFneg (i : Issue) (s : State) : Host.Outcome State Fault Refusal :=
  run (decide (i.tile < 128) && decide (i.copy < 3)) (fun s => kRun i (.un .fneg) s) s

/-- FABS (R359; spec/12 R359). Clears the sign bit. -/
def execFabs (i : Issue) (s : State) : Host.Outcome State Fault Refusal :=
  run (decide (i.tile < 128) && decide (i.copy < 3)) (fun s => kRun i (.un .fabs) s) s

/-- FDIV (R368; spec/12 R368). Binary32 division. -/
def execFdiv (i : Issue) (s : State) : Host.Outcome State Fault Refusal :=
  run (decide (i.tile < 128) && decide (i.copy < 3)) (fun s => kRun i (.bin .fdiv) s) s

/-- FSQRT (R355; spec/11 R355). Binary32 square root. -/
def execFsqrt (i : Issue) (s : State) : Host.Outcome State Fault Refusal :=
  run (decide (i.tile < 128) && decide (i.copy < 3)) (fun s => kRun i (.un .fsqrt) s) s

/-- CVTIF (R355; spec/11 R355, spec/12 R359). Signed int32 to binary32. -/
def execCvtif (i : Issue) (s : State) : Host.Outcome State Fault Refusal :=
  run (decide (i.tile < 128) && decide (i.copy < 3)) (fun s => kRun i (.un .cvtif) s) s

/-- CVTUF (R355; spec/11 R355, spec/12 R359). Unsigned int32 to binary32. -/
def execCvtuf (i : Issue) (s : State) : Host.Outcome State Fault Refusal :=
  run (decide (i.tile < 128) && decide (i.copy < 3)) (fun s => kRun i (.un .cvtuf) s) s

/-- CVTFI (R355; spec/11 R355, spec/12 R359). Binary32 to int32, saturating. -/
def execCvtfi (i : Issue) (s : State) : Host.Outcome State Fault Refusal :=
  run (decide (i.tile < 128) && decide (i.copy < 3)) (fun s => kRun i (.un .cvtfi) s) s

/-- CVTQF (R359; spec/11 R355, spec/12 R359). Q1.31 to binary32. -/
def execCvtqf (i : Issue) (s : State) : Host.Outcome State Fault Refusal :=
  run (decide (i.tile < 128) && decide (i.copy < 3)) (fun s => kRun i (.un .cvtqf) s) s

/-- CVTFQ (R359; spec/11 R355, spec/12 R359). Binary32 to Q1.31, saturating. -/
def execCvtfq (i : Issue) (s : State) : Host.Outcome State Fault Refusal :=
  run (decide (i.tile < 128) && decide (i.copy < 3)) (fun s => kRun i (.un .cvtfq) s) s

/-- FCMP (R369; spec/12 R369). Quiet binary32 comparison into a predicate. -/
def execFcmp (i : Issue) (c n : Nat) (s : State) : Host.Outcome State Fault Refusal :=
  run (decide (i.tile < 128) && decide (i.copy < 3) && decide (c < 8) && decide (n < 8)) (fun s => kRun i (.fcmp c n) s) s

end Sys2Proof.Machine
end

