-- ==== Sys2Proof/Machine/ExecPages.lean ====
section
/-! DEFINITION. Meanings: pages and power of blocks (spec/02). -/

namespace Sys2Proof.Machine

/-- PAGE_RESET (R42; PAGE_CTRL.RESET written 1 (spec/02 R41, R42)). A write of PAGE_CTRL.RESET = 1 resets the page's block and registers, or is clamped to no action while LOCK = 1. -/
def execPageReset (w : Writer) (p t : Nat) (s : State) : Host.Outcome State Fault Refusal :=
  run (w.ok && decide (p < 65536)) (fun s => (s.upTo t).pageWrite w p 0x00C 4 4 false) s

/-- RESET_COMPLETE (R42; spec/02 R42). A page reset completes within 4 µs and the page ends OFF, or starts again if its ENABLE resets to 1. -/
def execResetComplete (p t : Nat) (s : State) : Host.Outcome State Fault Refusal :=
  run (decide (p < 0x942)) (fun s => Machine.resetComplete p t s) s

/-- PAGE_ENABLE (R41; PAGE_CTRL.ENABLE written 1 (spec/02 R41)). A write of PAGE_CTRL.ENABLE = 1 takes an OFF page with a powered block into STARTING. -/
def execPageEnable (w : Writer) (p t : Nat) (s : State) : Host.Outcome State Fault Refusal :=
  run (w.ok && decide (p < 65536)) (fun s => (s.upTo t).pageWrite w p 0x00C 4 1 false) s

/-- PAGE_DISABLE (R41; PAGE_CTRL.ENABLE written 0 (spec/02 R41)). A write of PAGE_CTRL.ENABLE = 0 with LOCK = 0 takes the page to OFF. -/
def execPageDisable (w : Writer) (p t : Nat) (s : State) : Host.Outcome State Fault Refusal :=
  run (w.ok && decide (p < 65536)) (fun s => (s.upTo t).pageWrite w p 0x00C 4 0 false) s

/-- PAGE_LOCK (R38; PAGE_CTRL.LOCK written 1, with ENABLE as the same write gives it (spec/02 R38)). A write of 1 to PAGE_CTRL.LOCK freezes the page's RWL fields until power-on reset. -/
def execPageLock (w : Writer) (p : Nat) (en : Bool) (t : Nat) (s : State) : Host.Outcome State Fault Refusal :=
  run (w.ok && decide (p < 65536)) (fun s => (s.upTo t).pageWrite w p 0x00C 4 (2 + b2n en) false) s

/-- START_UP_COMPLETE (R584; spec/02 R41, R584). A block's start-up completes and its page goes from STARTING to READY. -/
def execStartUpComplete (p t : Nat) (s : State) : Host.Outcome State Fault Refusal :=
  run (decide (p < 0x942)) (fun s => Machine.startUpComplete p t s) s

/-- FAULT_DETECTED (R41; spec/02 R41). A block detects a fault and its page goes to FAULT with FAULT_CODE set. -/
def execFaultDetected (p code t : Nat) (s : State) : Host.Outcome State Fault Refusal :=
  run (decide (p < 0x942) && decide (code < 256)) (fun s => Machine.faultDetected p code t s) s

/-- BLOCK_RECOVERY_COMPLETE (R41; spec/02 R41). A faulted block completes its recovery and its page returns to STARTING. -/
def execBlockRecoveryComplete (p t : Nat) (s : State) : Host.Outcome State Fault Refusal :=
  run (decide (p < 0x942)) (fun s => recoveryComplete p t s) s

/-- RETIREMENT (R41; spec/02 R41). A block retires itself and its page goes to RETIRED until power-on reset. -/
def execRetirement (p code t : Nat) (s : State) : Host.Outcome State Fault Refusal :=
  run (decide (p < 0x942) && decide (code < 256)) (fun s => Machine.retirement p code t s) s

/-- BLOCK_POWER_CHANGE (R41; spec/02 R41, R44). A block's power goes to RETENTION or OFF and its page goes to OFF. -/
def execBlockPowerChange (p pw t : Nat) (s : State) : Host.Outcome State Fault Refusal :=
  run (decide (p < 0x942) && decide (pw < 3)) (fun s => Machine.blockPowerChange p pw t s) s

/-- REGISTER_WRITE (R46; spec/02 R33–R51). A write to a control-page register that has no row of its own is taken, clamped silently and counted. -/
def execRegisterWrite (w : Writer) (p off size val : Nat) (pois : Bool) (t : Nat) (s : State) : Host.Outcome State Fault Refusal :=
  run (w.ok && decide (p < 65536) && decide (off < 4096)) (fun s => (s.upTo t).pageWrite w p off size val pois) s

/-- READ_AND_CLEAR (R9; A read of a control page: its RC fields clear (spec/02 R33–R44, spec/00_scope.md R9)). A read of an RC field returns its value and clears it to zero. -/
def execReadAndClear (w : Writer) (p off size t : Nat) (s : State) : Host.Outcome State Fault Refusal :=
  run (w.ok && decide (p < 65536) && decide (off < 4096)) (fun s => (s.upTo t).readOut w p off size) s

/-- LINK_CHECK_FAIL (R56; spec/02 R56). A cluster network link fails its check for 1 µs and the CLU page enters FAULT. -/
def execLinkCheckFail (c link t : Nat) (s : State) : Host.Outcome State Fault Refusal :=
  run (decide (c < 16) && decide (link < 2)) (fun s => Machine.linkCheckFail c link t s) s

/-- LINK_CHECK_PASS (R56; spec/02 R56). A failed cluster link passes its check for 10 µs and the CLU page returns to READY. -/
def execLinkCheckPass (c link t : Nat) (s : State) : Host.Outcome State Fault Refusal :=
  run (decide (c < 16) && decide (link < 2)) (fun s => Machine.linkCheckPass c link t s) s

end Sys2Proof.Machine
end

