-- ==== Sys2Proof/Machine/ExecPorts.lean ====
section
/-! DEFINITION. Meanings: sensor ports and OSP (spec/04). -/

namespace Sys2Proof.Machine

/-- POWER_APPLIED (R136; spec/04 R98, R136). Clause 104 classification grants a 24 V class and the port starts training. -/
def execPowerApplied (p cls volt cur : Nat) (is24V : Bool) (t : Nat) (s : State) : Host.Outcome State Fault Refusal :=
  run (decide (p < 512)) (fun s => Machine.powerApplied p cls volt cur is24V t s) s

/-- POWER_REFUSED (R136; spec/04 R136). Port power is refused and the port retries after 1 s. -/
def execPowerRefused (p t : Nat) (s : State) : Host.Outcome State Fault Refusal :=
  run (decide (p < 512)) (fun s => Machine.powerRefused p t s) s

/-- POWER_RETRY (R99; spec/04 R99). One second after an overload or refusal the port retries applying power. -/
def execPowerRetry (p t : Nat) (s : State) : Host.Outcome State Fault Refusal :=
  run (decide (p < 512)) (fun s => Machine.powerRetry p t s) s

/-- OVERLOAD (R99; spec/04 R99). Port output stays at its current limit for 2 ms or falls below 5 V and power is removed. -/
def execOverload (p t : Nat) (s : State) : Host.Outcome State Fault Refusal :=
  run (decide (p < 512)) (fun s => Machine.overload p t s) s

/-- LINK_UP (R136; spec/04 R136). A port PHY link comes up and the port draws a session, starts SYNC and queries the node. -/
def execLinkUp (p amp ms t : Nat) (s : State) : Host.Outcome State Fault Refusal :=
  run (decide (p < 512)) (fun s => Machine.linkUp p amp ms t s) s

/-- LINK_DOWN (R136; spec/04 R136). A port link goes down and the session ends with LINK markers. -/
def execLinkDown (p t : Nat) (s : State) : Host.Outcome State Fault Refusal :=
  run (decide (p < 512)) (fun s => Machine.linkDown p t s) s

/-- TRAINING_TIMEOUT (R136; spec/04 R136). Five seconds pass in TRAINING without link and the PHY restarts. -/
def execTrainingTimeout (p t : Nat) (s : State) : Host.Outcome State Fault Refusal :=
  run (decide (p < 512)) (fun s => Machine.trainingTimeout p t s) s

/-- ATTACH_TIMEOUT (R136; spec/04 R136). 100 ms pass in ATTACHING without the full answer and QUERY is resent or the PHY restarts. -/
def execAttachTimeout (p t : Nat) (s : State) : Host.Outcome State Fault Refusal :=
  run (decide (p < 512)) (fun s => Machine.attachTimeout p t s) s

/-- CONFIGURING_TIMEOUT (R136; spec/04 R136). Two seconds pass in CONFIGURING and the port restarts its PHY with FAULT_CODE 0x06. -/
def execConfiguringTimeout (p t : Nat) (s : State) : Host.Outcome State Fault Refusal :=
  run (decide (p < 512)) (fun s => Machine.configuringTimeout p t s) s

/-- NODE_SILENT (R136; spec/04 R136). 500 ms pass in STREAMING without STATUS and the session ends. -/
def execNodeSilent (p t : Nat) (s : State) : Host.Outcome State Fault Refusal :=
  run (decide (p < 512)) (fun s => Machine.nodeSilent p t s) s

/-- SYNC_INSTANT (R110; spec/04 R110). Every 3,000,000 cycles a HOST port sends a SYNC record. -/
def execSyncInstant (p t : Nat) (s : State) : Host.Outcome State Fault Refusal :=
  run (decide (p < 512)) (fun s => Machine.syncInstant p t s) s

/-- SAMPLE (R123; spec/04 R123). An accepted SAMPLE record is delivered per channel after gap and duplicate handling. -/
def execSample (p t : Nat) (o : OspRec) (s : State) : Host.Outcome State Fault Refusal :=
  run (decide (p < 512)) (fun s => sampleRec p t o s) s

/-- GAP (R128; spec/04 R128). A GAP record from the node becomes NODE gap markers and moves N. -/
def execGap (p t : Nat) (o : OspRec) (s : State) : Host.Outcome State Fault Refusal :=
  run (decide (p < 512)) (fun s => gapRec p t o s) s

/-- SYNC_REPLY (R112; spec/04 R112). A SYNC_REPLY is stamped and the port updates delay, offset and SYNC state. -/
def execSyncReply (p t : Nat) (o : OspRec) (s : State) : Host.Outcome State Fault Refusal :=
  run (decide (p < 512)) (fun s => Machine.syncReply p t o s) s

/-- OSP_STATUS (R133; spec/04 R133). A STATUS record is accepted, copied to its window and may complete CONFIGURING. -/
def execOspStatus (p t : Nat) (o : OspRec) (s : State) : Host.Outcome State Fault Refusal :=
  run (decide (p < 512)) (fun s => Machine.ospStatus p t o s) s

/-- IDENT (R131; spec/04 R131). An IDENT record is accepted, copied and checked against SPT_EXPECT_SERIAL. -/
def execIdent (p t : Nat) (o : OspRec) (s : State) : Host.Outcome State Fault Refusal :=
  run (decide (p < 512)) (fun s => identRec p t o s) s

/-- CAL (R132; spec/04 R132). A CAL record for one node channel is accepted and copied to its window. -/
def execCal (p t : Nat) (o : OspRec) (s : State) : Host.Outcome State Fault Refusal :=
  run (decide (p < 512)) (fun s => calRec p t o s) s

/-- SELFTEST (R134; spec/04 R134). A SELFTEST record is accepted and copied to its window. -/
def execSelftest (p t : Nat) (o : OspRec) (s : State) : Host.Outcome State Fault Refusal :=
  run (decide (p < 512)) (fun s => selftestRec p t o s) s

/-- FRAME_END (R107; spec/04 R107). A frame ends and its frame check sequence is judged without withdrawing accepted records. -/
def execFrameEnd (p t : Nat) (f : FrameEnd) (s : State) : Host.Outcome State Fault Refusal :=
  run (decide (p < 512)) (fun s => Machine.frameEnd p t f s) s

/-- SPT_CH_CFG (R145; SPT_CH_CFG written (spec/04 R115, R145, R146)). A write of a port channel configuration is clamped and a change of EN sends CONFIG. -/
def execSptChCfg (w : Writer) (p k v t : Nat) (s : State) : Host.Outcome State Fault Refusal :=
  run (w.ok && decide (p < 512) && decide (k < 4)) (fun s => (s.upTo t).pageWrite w (pgSpt p) (0x200 + 64 * k) 4 v false) s

/-- QUERY_IDENT (R135; SPT_REQ bit 0 (spec/04 R135)). SPT_REQ bit 0 sends a QUERY for IDENT. -/
def execQueryIdent (w : Writer) (p t : Nat) (s : State) : Host.Outcome State Fault Refusal :=
  run (w.ok && decide (p < 512)) (fun s => (s.upTo t).pageWrite w (pgSpt p) 0x094 4 1 false) s

/-- QUERY_CAL (R135; SPT_REQ bit 1 (spec/04 R135)). SPT_REQ bit 1 sends a QUERY for CAL. -/
def execQueryCal (w : Writer) (p t : Nat) (s : State) : Host.Outcome State Fault Refusal :=
  run (w.ok && decide (p < 512)) (fun s => (s.upTo t).pageWrite w (pgSpt p) 0x094 4 2 false) s

/-- QUERY_STATUS (R135; SPT_REQ bit 2 (spec/04 R135)). SPT_REQ bit 2 sends a QUERY for STATUS. -/
def execQueryStatus (w : Writer) (p t : Nat) (s : State) : Host.Outcome State Fault Refusal :=
  run (w.ok && decide (p < 512)) (fun s => (s.upTo t).pageWrite w (pgSpt p) 0x094 4 4 false) s

/-- SPT_REQ_TEST (R135; SPT_REQ.TEST_ID (spec/04 R135)). A non-zero SPT_REQ TEST_ID sends a TEST record. -/
def execSptReqTest (w : Writer) (p tid t : Nat) (s : State) : Host.Outcome State Fault Refusal :=
  run (w.ok && decide (p < 512) && decide (0 < tid) && decide (tid < 256)) (fun s => (s.upTo t).pageWrite w (pgSpt p) 0x094 4 (tid * 256) false) s

/-- SYNC (R142; spec/04 R111, R142). A NODE-role port receives SYNC, adopts session and epoch and measures its offset. -/
def execSync (p t tr : Nat) (o : OspRec) (s : State) : Host.Outcome State Fault Refusal :=
  run (decide (p < 512)) (fun s => syncRec p t tr o s) s

/-- CONFIG (R142; spec/04 R142). A NODE-role port receives CONFIG and adopts RATE and B_LOG per channel. -/
def execConfig (p t : Nat) (o : OspRec) (s : State) : Host.Outcome State Fault Refusal :=
  run (decide (p < 512)) (fun s => configRec p t o s) s

/-- QUERY (R141; spec/04 R141). A NODE-role port receives QUERY and sends its identity, calibration or status. -/
def execQuery (p t : Nat) (o : OspRec) (s : State) : Host.Outcome State Fault Refusal :=
  run (decide (p < 512)) (fun s => queryRec p t o s) s

/-- TEST (R134; spec/04 R134). A NODE-role port receives a TEST request. -/
def execTest (p t : Nat) (o : OspRec) (s : State) : Host.Outcome State Fault Refusal :=
  run (decide (p < 512)) (fun s => testRec p t o s) s

/-- NODE_EMISSION (R144; spec/04 R144). A NODE-role port emits a SAMPLE record, or a GAP record when no sample is buffered. -/
def execNodeEmission (p k t : Nat) (s : State) : Host.Outcome State Fault Refusal :=
  run (decide (p < 512) && decide (k < 4)) (fun s => Machine.nodeEmission p k t s) s

/-- NODE_ROLE_STATUS (R106; spec/04 R106). A NODE-role port sends its STATUS record every 100 ms ± 10 ms. -/
def execNodeRoleStatus (p t : Nat) (s : State) : Host.Outcome State Fault Refusal :=
  run (decide (p < 512)) (fun s => Machine.nodeRoleStatus p t s) s

end Sys2Proof.Machine
end

