-- ==== Sys2Proof/Machine/ExecPower.lean ====
section
/-! DEFINITION. Meanings: power and temperature (spec/20, spec/21). -/

namespace Sys2Proof.Machine

/-- SPWR_LOW (R571; spec/21 R571). SPWR stays below 18 V for 1 ms and no port applies power. -/
def execSpwrLow (v t : Nat) (s : State) : Host.Outcome State Fault Refusal :=
  run true (fun s => spwrLowEvent v t s) s

/-- SPWR_RECOVERY (R571; spec/21 R571). SPWR stands at 18.5 V or above for 100 ms and ports may apply power again. -/
def execSpwrRecovery (v t : Nat) (s : State) : Host.Outcome State Fault Refusal :=
  run true (fun s => Machine.spwrRecovery v t s) s

/-- SPWR_LIMIT (R571; spec/21 R571). SPWR input reaches 560 W and the converter holds its input and sets LIMIT. -/
def execSpwrLimit (t : Nat) (s : State) : Host.Outcome State Fault Refusal :=
  run true (fun s => Machine.spwrLimit t s) s

/-- TEMPERATURE_WARN (R559; spec/20 R559). A die sensor reaches WARN and is logged. -/
def execTemperatureWarn (i : Nat) (v : Int) (t : Nat) (s : State) : Host.Outcome State Fault Refusal :=
  run (decide (i < 40)) (fun s => Machine.temperatureWarn i v t s) s

/-- TEMPERATURE_CRIT (R559; spec/20 R559). A die sensor reaches CRIT and the compute dies lose power. -/
def execTemperatureCrit (i : Nat) (v : Int) (t : Nat) (s : State) : Host.Outcome State Fault Refusal :=
  run (decide (i < 40)) (fun s => Machine.temperatureCrit i v t s) s

/-- FEED_LOSS (R564; spec/21 R564). A feed stays outside 9–60 V for 1 ms. -/
def execFeedLoss (feed v t : Nat) (s : State) : Host.Outcome State Fault Refusal :=
  run (decide (feed < 2)) (fun s => Machine.feedLoss feed v t s) s

/-- BUS_LOW (R567; spec/21 R567). The bus falls below 8.8 V and hold-up takes over. -/
def execBusLow (vbus store t : Nat) (s : State) : Host.Outcome State Fault Refusal :=
  run true (fun s => Machine.busLow vbus store t s) s

/-- STORAGE_EXHAUSTED (R567; spec/21 R567). Storage falls to 25 V and power-on reset follows. -/
def execStorageExhausted (store : Nat) (s : State) : Host.Outcome State Fault Refusal :=
  run true (fun s => Machine.storageExhausted store s) s

/-- PFAIL_END (R568; spec/21 R568). A feed returns for 1 ms and PFAIL ends. -/
def execPfailEnd (va vb store t : Nat) (s : State) : Host.Outcome State Fault Refusal :=
  run true (fun s => Machine.pfailEnd va vb store t s) s

/-- RAIL_FAULT (R569; spec/21 R569). A rail outside ±5 % for 10 µs removes power from its domain. -/
def execRailFault (i mv t : Nat) (s : State) : Host.Outcome State Fault Refusal :=
  run (decide (i < 32)) (fun s => Machine.railFault i mv t s) s

/-- HOLD_UP_READY (R567; spec/21 R567). The hold-up storage charges to 76 V and PWR_HOLD.READY goes to 1. -/
def execHoldUpReady (store t : Nat) (s : State) : Host.Outcome State Fault Refusal :=
  run true (fun s => Machine.holdUpReady store t s) s

end Sys2Proof.Machine
end

