-- ==== Sys2Proof/Machine/ExecPred.lean ====
section
/-! DEFINITION. Meanings: predicates, angles and special registers of Kolotte. -/

namespace Sys2Proof.Machine

/-- CMP (R359; spec/12 R359). Compares two entries under condition c into a predicate. -/
def execCmp (i : Issue) (c n : Nat) (s : State) : Host.Outcome State Fault Refusal :=
  run (decide (i.tile < 128) && decide (i.copy < 3) && decide (c < 8) && decide (n < 8)) (fun s => kRun i (.cmp c n) s) s

/-- CMPZ (R359; spec/12 R359). Compares an entry with zero under condition c into a predicate. -/
def execCmpz (i : Issue) (c n : Nat) (s : State) : Host.Outcome State Fault Refusal :=
  run (decide (i.tile < 128) && decide (i.copy < 3) && decide (c < 8) && decide (n < 8)) (fun s => kRun i (.cmpz c n) s) s

/-- PLOG (R365; spec/12 R365). Combines two predicates with function f. -/
def execPlog (i : Issue) (f m n : Nat) (s : State) : Host.Outcome State Fault Refusal :=
  run (decide (i.tile < 128) && decide (i.copy < 3) && decide (f < 4) && decide (m < 8) && decide (n < 8)) (fun s => kRun i (.plog f m n) s) s

/-- PSET (R365; spec/12 R365). Sets a predicate. -/
def execPset (i : Issue) (n : Nat) (s : State) : Host.Outcome State Fault Refusal :=
  run (decide (i.tile < 128) && decide (i.copy < 3) && decide (n < 8)) (fun s => kRun i (.pset n) s) s

/-- PCLR (R365; spec/12 R365). Clears a predicate. -/
def execPclr (i : Issue) (n : Nat) (s : State) : Host.Outcome State Fault Refusal :=
  run (decide (i.tile < 128) && decide (i.copy < 3) && decide (n < 8)) (fun s => kRun i (.pclr n) s) s

/-- PNOT (R365; spec/12 R365). Inverts a predicate. -/
def execPnot (i : Issue) (n : Nat) (s : State) : Host.Outcome State Fault Refusal :=
  run (decide (i.tile < 128) && decide (i.copy < 3) && decide (n < 8)) (fun s => kRun i (.pnot n) s) s

/-- PUSHP (R359; spec/12 R359). Pushes a predicate as 1 or 0. -/
def execPushp (i : Issue) (n : Nat) (s : State) : Host.Outcome State Fault Refusal :=
  run (decide (i.tile < 128) && decide (i.copy < 3) && decide (n < 8)) (fun s => kRun i (.pushp n) s) s

/-- POPP (R363; spec/12 R363). Pops a value into a predicate. -/
def execPopp (i : Issue) (n : Nat) (s : State) : Host.Outcome State Fault Refusal :=
  run (decide (i.tile < 128) && decide (i.copy < 3) && decide (n < 8)) (fun s => kRun i (.popp n) s) s

/-- SEL (R363; spec/12 R363). Selects one of two entries by a predicate. -/
def execSel (i : Issue) (n : Nat) (s : State) : Host.Outcome State Fault Refusal :=
  run (decide (i.tile < 128) && decide (i.copy < 3) && decide (n < 8)) (fun s => kRun i (.sel n) s) s

/-- ANGSUB (R356; spec/11 R356). 64-bit TPOS difference. -/
def execAngsub (i : Issue) (s : State) : Host.Outcome State Fault Refusal :=
  run (decide (i.tile < 128) && decide (i.copy < 3)) (fun s => kRun i (.ang true) s) s

/-- ANGADD (R359; spec/12 R359). 64-bit TPOS sum. -/
def execAngadd (i : Issue) (s : State) : Host.Outcome State Fault Refusal :=
  run (decide (i.tile < 128) && decide (i.copy < 3)) (fun s => kRun i (.ang false) s) s

/-- ANGCMP (R356; spec/11 R356). Sets a predicate when a − b is non-negative. -/
def execAngcmp (i : Issue) (n : Nat) (s : State) : Host.Outcome State Fault Refusal :=
  run (decide (i.tile < 128) && decide (i.copy < 3) && decide (n < 8)) (fun s => kRun i (.angcmp n) s) s

/-- RDST (R350; spec/11 R350). Pushes STATUS. -/
def execRdst (i : Issue) (s : State) : Host.Outcome State Fault Refusal :=
  run (decide (i.tile < 128) && decide (i.copy < 3)) (fun s => kRun i .rdst s) s

/-- WRST (R351; spec/11 R351). Writes STATUS from the next bundle. -/
def execWrst (i : Issue) (s : State) : Host.Outcome State Fault Refusal :=
  run (decide (i.tile < 128) && decide (i.copy < 3)) (fun s => kRun i .wrst s) s

/-- RDLC (R359; spec/12 R359). Pushes LC. -/
def execRdlc (i : Issue) (s : State) : Host.Outcome State Fault Refusal :=
  run (decide (i.tile < 128) && decide (i.copy < 3)) (fun s => kRun i .rdlc s) s

/-- WRLC (R385; spec/12 R385). Writes LC. -/
def execWrlc (i : Issue) (s : State) : Host.Outcome State Fault Refusal :=
  run (decide (i.tile < 128) && decide (i.copy < 3)) (fun s => kRun i .wrlc s) s

/-- RDRC (R344; spec/11 R344). Pushes RC. -/
def execRdrc (i : Issue) (s : State) : Host.Outcome State Fault Refusal :=
  run (decide (i.tile < 128) && decide (i.copy < 3)) (fun s => kRun i .rdrc s) s

/-- WRRC (R344; spec/11 R344). Writes RC. -/
def execWrrc (i : Issue) (s : State) : Host.Outcome State Fault Refusal :=
  run (decide (i.tile < 128) && decide (i.copy < 3)) (fun s => kRun i .wrrc s) s

/-- RDP (R359; spec/12 R359). Pushes the predicates. -/
def execRdp (i : Issue) (s : State) : Host.Outcome State Fault Refusal :=
  run (decide (i.tile < 128) && decide (i.copy < 3)) (fun s => kRun i .rdp s) s

/-- WRP (R359; spec/12 R359). Writes predicates P7–P1. -/
def execWrp (i : Issue) (s : State) : Host.Outcome State Fault Refusal :=
  run (decide (i.tile < 128) && decide (i.copy < 3)) (fun s => kRun i .wrp s) s

/-- RDDEP (R359; spec/12 R359). Pushes DEPTH. -/
def execRddep (i : Issue) (s : State) : Host.Outcome State Fault Refusal :=
  run (decide (i.tile < 128) && decide (i.copy < 3)) (fun s => kRun i .rddep s) s

/-- RDRSP (R359; spec/12 R359). Pushes RSP relative to C1. -/
def execRdrsp (i : Issue) (s : State) : Host.Outcome State Fault Refusal :=
  run (decide (i.tile < 128) && decide (i.copy < 3)) (fun s => kRun i .rdrsp s) s

/-- RDTILE (R366; spec/12 R366). Pushes tile, copy and mode. -/
def execRdtile (i : Issue) (s : State) : Host.Outcome State Fault Refusal :=
  run (decide (i.tile < 128) && decide (i.copy < 3)) (fun s => kRun i .rdtile s) s

end Sys2Proof.Machine
end

