-- ==== Sys2Proof/Machine/ExecRope.lean ====
section
/-! DEFINITION. Meanings: rope (spec/19). -/

namespace Sys2Proof.Machine

/-- BLOCK_LOCK (R501; spec/19 R501). A rope port's PCS gains lock and starts HELLO. -/
def execBlockLock (p : Nat) (same : Bool) (t : Nat) (s : State) : Host.Outcome State Fault Refusal :=
  run (decide (p < 16)) (fun s => Machine.blockLock p same t s) s

/-- LOCK_LOSS (R501; spec/19 R501). A rope port loses lock and leaves UP. -/
def execLockLoss (p t : Nat) (s : State) : Host.Outcome State Fault Refusal :=
  run (decide (p < 16)) (fun s => Machine.lockLoss p t s) s

/-- HELLO_TIMEOUT (R501; spec/19 R501). 3 ms without HELLO take the port out of UP. -/
def execHelloTimeout (p t : Nat) (s : State) : Host.Outcome State Fault Refusal :=
  run (decide (p < 16)) (fun s => Machine.helloTimeout p t s) s

/-- HELLO_SEND (R501; spec/19 R501). Every 1 ms a locked port sends HELLO. -/
def execHelloSend (p t : Nat) (s : State) : Host.Outcome State Fault Refusal :=
  run (decide (p < 16)) (fun s => Machine.helloSend p t s) s

/-- HELLO (R501; spec/19 R501). A HELLO frame is received and may bring the port UP. -/
def execHello (f : RFrame) (serial scope pport : Nat) (biv : Bool) (t : Nat) (s : State) : Host.Outcome State Fault Refusal :=
  run (decide (f.port < 16)) (fun s => Machine.hello f serial scope pport biv t s) s

/-- ELECT (R507; spec/19 R507). An ELECT frame updates the best candidate known at a depth. -/
def execElect (f : RFrame) (pri serial epoch t : Nat) (s : State) : Host.Outcome State Fault Refusal :=
  run (decide (f.port < 16)) (fun s => Machine.elect f pri serial epoch t s) s

/-- ELECTION_SETTLES (R507; spec/19 R507). No better candidate for 2 ms settles an election. -/
def execElectionSettles (i t : Nat) (s : State) : Host.Outcome State Fault Refusal :=
  run (decide (i < 6)) (fun s => Machine.electionSettles i t s) s

/-- LINKS (R508; spec/19 R508). A leader receives a LINKS report and relabels members. -/
def execLinks (f : RFrame) (rep : LinkRep) (t : Nat) (s : State) : Host.Outcome State Fault Refusal :=
  run (decide (f.port < 16)) (fun s => Machine.links f rep t s) s

/-- LABEL (R509; spec/19 R509). A LABEL frame updates a team's label table and may complete the path. -/
def execLabel (f : RFrame) (gen own : Nat) (rows : List LabelRow) (agg : Nat × Nat × Nat) (t : Nat) (s : State) : Host.Outcome State Fault Refusal :=
  run (decide (f.port < 16)) (fun s => Machine.label f gen own rows agg t s) s

/-- ROUTE_COMPUTATION (R512; spec/19 R512). A leader computes and loads route rows. -/
def execRouteComputation (i t : Nat) (s : State) : Host.Outcome State Fault Refusal :=
  run (decide (i < 6)) (fun s => Machine.routeComputation i t s) s

/-- ROUTE (R512; spec/19 R512). A ROUTE frame loads a route table row. -/
def execRoute (f : RFrame) (serial : Nat) (row : List (Nat × Nat)) (t : Nat) (s : State) : Host.Outcome State Fault Refusal :=
  run (decide (f.port < 16)) (fun s => Machine.route f serial row t s) s

/-- LABEL_HOLD_EXPIRY (R514; spec/19 R514). A LOST member's label hold expires and the label is freed. -/
def execLabelHoldExpiry (i l t : Nat) (s : State) : Host.Outcome State Fault Refusal :=
  run (decide (i < 6) && decide (l < 256)) (fun s => Machine.labelHoldExpiry i l t s) s

/-- CONNECT (R518; spec/19 R518). A CONNECT frame opens or answers a circuit. -/
def execConnect (f : RFrame) (far : Nat) (answer : Bool) (t : Nat) (s : State) : Host.Outcome State Fault Refusal :=
  run (decide (f.port < 16)) (fun s => Machine.connect f far answer t s) s

/-- CONNECT_RESEND (R518; spec/19 R518). Every 1 ms a WAITING circuit resends CONNECT. -/
def execConnectResend (c t : Nat) (s : State) : Host.Outcome State Fault Refusal :=
  run (decide (c < 4096)) (fun s => Machine.connectResend c t s) s

/-- CELL (R519; spec/19 R519). A CELL frame is delivered into an ingress circuit with loss detection. -/
def execCell (f : RFrame) (cells : List RopeCell) (t : Nat) (s : State) : Host.Outcome State Fault Refusal :=
  run (decide (f.port < 16)) (fun s => cellFrame f cells t s) s

/-- NORMAL_FLUSH (R504; spec/19 R504). 2 µs after its first cell a NORMAL CELL frame is sent. -/
def execNormalFlush (c t : Nat) (s : State) : Host.Outcome State Fault Refusal :=
  run (decide (c < 4096)) (fun s => Machine.normalFlush c t s) s

/-- CREDIT (R520; spec/19 R520). A CREDIT frame updates the sender's credit. -/
def execCredit (f : RFrame) (freed t : Nat) (s : State) : Host.Outcome State Fault Refusal :=
  run (decide (f.port < 16)) (fun s => Machine.credit f freed t s) s

/-- CREDIT_SEND (R520; spec/19 R520). A receiver sends CREDIT after 16 cells freed or 10 µs. -/
def execCreditSend (c t : Nat) (s : State) : Host.Outcome State Fault Refusal :=
  run (decide (c < 4096)) (fun s => Machine.creditSend c t s) s

/-- ROPE_STATUS (R524; spec/19 R524). A leader receives a member STATUS frame. -/
def execRopeStatus (f : RFrame) (serial : Nat) (st : TeamStat) (t : Nat) (s : State) : Host.Outcome State Fault Refusal :=
  run (decide (f.port < 16)) (fun s => Machine.ropeStatus f serial st t s) s

/-- STATUS_SEND (R524; spec/19 R524). Every 10 ms a module sends STATUS and leaders sum their summaries. -/
def execStatusSend (t : Nat) (s : State) : Host.Outcome State Fault Refusal :=
  run true (fun s => Machine.statusSend t s) s

/-- TIME (R525; spec/19 R525). A TIME frame is stamped and the offset and PLL are updated. -/
def execTime (f : RFrame) (reply : Bool) (t2 t3 : Int) (t : Nat) (s : State) : Host.Outcome State Fault Refusal :=
  run (decide (f.port < 16)) (fun s => timeFrame f reply t2 t3 t s) s

/-- TIME_EXCHANGE (R525; spec/19 R525). Every 1 ms a module exchanges TIME on its upstream port. -/
def execTimeExchange (t : Nat) (s : State) : Host.Outcome State Fault Refusal :=
  run true (fun s => Machine.timeExchange t s) s

/-- ACC_REQ (R522; spec/19 R522). An access request is checked against grants and performed or refused. -/
def execAccReq (f : RFrame) (tile : Bool) (op addr data : Nat) (pois : Bool) (t : Nat) (s : State) : Host.Outcome State Fault Refusal :=
  run (decide (f.port < 16) && decide (0 < op) && decide (op < 5)) (fun s => Machine.accReq f tile op addr data pois t s) s

/-- ACC_REP (R523; spec/19 R523). An access reply completes a slot. -/
def execAccRep (f : RFrame) (val : Nat) (pois : Bool) (t : Nat) (s : State) : Host.Outcome State Fault Refusal :=
  run (decide (f.port < 16)) (fun s => Machine.accRep f val pois t s) s

/-- REFUSE (R523; spec/19 R523). A REFUSE frame ends a slot as refused. -/
def execRefuse (f : RFrame) (reason addr t : Nat) (s : State) : Host.Outcome State Fault Refusal :=
  run (decide (f.port < 16)) (fun s => Machine.refuse f reason addr t s) s

/-- READ32 (R523; ACC_ADDR written with OP = READ32 (spec/19 R523)). An access slot issues a 32-bit read over rope. -/
def execRead32 (w : Writer) (i addr t : Nat) (s : State) : Host.Outcome State Fault Refusal :=
  run (w.ok && decide (i < 4) && decide (addr < 2 ^ 40)) (fun s => (s.upTo t).pageWrite w pgRopeL (0x108 + 32 * i) 8 (1 * 2 ^ 60 + addr) false) s

/-- READ64 (R523; ACC_ADDR written with OP = READ64 (spec/19 R523)). An access slot issues a 64-bit read over rope. -/
def execRead64 (w : Writer) (i addr t : Nat) (s : State) : Host.Outcome State Fault Refusal :=
  run (w.ok && decide (i < 4) && decide (addr < 2 ^ 40)) (fun s => (s.upTo t).pageWrite w pgRopeL (0x108 + 32 * i) 8 (2 * 2 ^ 60 + addr) false) s

/-- WRITE32 (R523; ACC_ADDR written with OP = WRITE32 (spec/19 R523)). An access slot issues a 32-bit write over rope. -/
def execWrite32 (w : Writer) (i addr t : Nat) (s : State) : Host.Outcome State Fault Refusal :=
  run (w.ok && decide (i < 4) && decide (addr < 2 ^ 40)) (fun s => (s.upTo t).pageWrite w pgRopeL (0x108 + 32 * i) 8 (3 * 2 ^ 60 + addr) false) s

/-- WRITE64 (R523; ACC_ADDR written with OP = WRITE64 (spec/19 R523)). An access slot issues a 64-bit write over rope. -/
def execWrite64 (w : Writer) (i addr t : Nat) (s : State) : Host.Outcome State Fault Refusal :=
  run (w.ok && decide (i < 4) && decide (addr < 2 ^ 40)) (fun s => (s.upTo t).pageWrite w pgRopeL (0x108 + 32 * i) 8 (4 * 2 ^ 60 + addr) false) s

/-- ACCESS_TIMEOUT (R523; spec/19 R523). A slot's reply does not arrive within ROPE_ACC_TMO. -/
def execAccessTimeout (i t : Nat) (s : State) : Host.Outcome State Fault Refusal :=
  run (decide (i < 4)) (fun s => Machine.accessTimeout i t s) s

/-- SFP_INSERTION (R500; spec/19 R500). An SFP28 module is inserted into or removed from a rope cage, and the port reads its SFF-8472 identification and updates presence. -/
def execSfpInsertion (p : Nat) (present los txFault : Bool) (t : Nat) (s : State) : Host.Outcome State Fault Refusal :=
  run (decide (p < 16)) (fun s => Machine.sfpInsertion p present los txFault t s) s

end Sys2Proof.Machine
end

