-- ==== Sys2Proof/Machine/ExecSout.lean ====
section
/-! DEFINITION. Meanings: safety outputs (spec/09). -/

namespace Sys2Proof.Machine

/-- VOTE_WORD (R264; spec/09 R264). A member's vote word write reaches the drive blocks of both dies. -/
def execVoteWord (w : Writer) (o m word : Nat) (pois : Bool) (t : Nat) (s : State) : Host.Outcome State Fault Refusal :=
  run (w.ok && decide (o < 64) && decide (m < 3)) (fun s => (s.upTo t).pageWrite w (pgSout o) (0x080 + 8 * m) 8 word pois) s

/-- DRIVE_TICK (R268; spec/09 R268). Every 3,000 cycles each drive block takes votes and writes and evaluates all outputs. -/
def execDriveTick (dev : List (Nat × Nat × Nat)) (loads : List (Nat × Nat)) (t : Nat) (s : State) : Host.Outcome State Fault Refusal :=
  run true (fun s => Machine.driveTick dev loads t s) s

/-- TRIP_DELAY (R272; spec/09 R272). Demand held for TRIP_DLY trips a DELAYING output. -/
def execTripDelay (o d t : Nat) (s : State) : Host.Outcome State Fault Refusal :=
  run (decide (o < 64) && decide (d < 2)) (fun s => Machine.tripDelay o d t s) s

/-- RELEASE_DELAY (R272; spec/09 R272). No demand for REL_DLY returns an unlatched TRIPPED output to NORMAL. -/
def execReleaseDelay (o d t : Nat) (s : State) : Host.Outcome State Fault Refusal :=
  run (decide (o < 64) && decide (d < 2)) (fun s => Machine.releaseDelay o d t s) s

/-- MEMBER_NOT_FRESH (R266; spec/09 R266). A member's last accepted vote ages past SOUT_VAGE and its vote becomes the safe vote. -/
def execMemberNotFresh (o m t : Nat) (s : State) : Host.Outcome State Fault Refusal :=
  run (decide (o < 64) && decide (m < 3)) (fun s => Machine.memberNotFresh o m t s) s

/-- MULTIPLIER_TIMEOUT (R271; spec/09 R271). The alarm multiplier has been active for MAXT seconds and goes inactive. -/
def execMultiplierTimeout (o t : Nat) (s : State) : Host.Outcome State Fault Refusal :=
  run (decide (o < 64)) (fun s => Machine.multiplierTimeout o t s) s

/-- READBACK_MISMATCH (R276; spec/09 R276). A switch's readback differs from its command 100 µs after it and the output faults. -/
def execReadbackMismatch (o d t : Nat) (s : State) : Host.Outcome State Fault Refusal :=
  run (decide (o < 64) && decide (d < 2)) (fun s => Machine.readbackMismatch o d t s) s

/-- OPENLOAD (R276; spec/09 R276). Both switches conduct for 100 µs without load current and the output faults. -/
def execOpenload (o t : Nat) (s : State) : Host.Outcome State Fault Refusal :=
  run (decide (o < 64)) (fun s => openLoad o t s) s

/-- PULSE_TEST (R277; spec/09 R277). A due pulse test inverts one die's switch for WIDTH. -/
def execPulseTest (o d t : Nat) (s : State) : Host.Outcome State Fault Refusal :=
  run (decide (o < 64) && decide (d < 2)) (fun s => Machine.pulseTest o d t s) s

/-- PULSE_TEST_END (R277; spec/09 R277). WIDTH ends and the pulse test passes or fails. -/
def execPulseTestEnd (o d : Nat) (inverted : Bool) (t : Nat) (s : State) : Host.Outcome State Fault Refusal :=
  run (decide (o < 64) && decide (d < 2)) (fun s => Machine.pulseTestEnd o d inverted t s) s

/-- DIVERGE (R279; spec/09 R279). The two dies' states of an output differ for 1 ms and it faults. -/
def execDiverge (o t : Nat) (s : State) : Host.Outcome State Fault Refusal :=
  run (decide (o < 64)) (fun s => Machine.diverge o t s) s

/-- PEER (R279; spec/09 R279). The die-to-die link is silent for 20 µs and armed outputs fault on the surviving die. -/
def execPeer (d t : Nat) (s : State) : Host.Outcome State Fault Refusal :=
  run (decide (d < 2)) (fun s => Machine.peer d t s) s

/-- DRIVE_BLOCK_FAULT (R279; spec/09 R279). A drive block detects its own fault and opens its switches. -/
def execDriveBlockFault (d t : Nat) (s : State) : Host.Outcome State Fault Refusal :=
  run (decide (d < 2)) (fun s => Machine.driveBlockFault d t s) s

/-- RESET_TRIP (R272; SOUT_CTRL.RESET_TRIP (spec/09 R272)). SOUT_CTRL.RESET_TRIP releases a latched trip when demand is absent. -/
def execResetTrip (w : Writer) (o t : Nat) (s : State) : Host.Outcome State Fault Refusal :=
  run (w.ok && decide (o < 64)) (fun s => (s.upTo t).pageWrite w (pgSout o) 0x060 4 1 false) s

/-- CLEAR_FAULT (R272; SOUT_CTRL.CLEAR_FAULT (spec/09 R272)). SOUT_CTRL.CLEAR_FAULT returns a faulted output to WAITING when readback is de-energised. -/
def execClearFault (w : Writer) (o t : Nat) (s : State) : Host.Outcome State Fault Refusal :=
  run (w.ok && decide (o < 64)) (fun s => (s.upTo t).pageWrite w (pgSout o) 0x060 4 2 false) s

/-- PT_NOW (R277; SOUT_CTRL.PT_NOW (spec/09 R277)). SOUT_CTRL.PT_NOW starts a pulse test at the next tick. -/
def execPtNow (w : Writer) (o t : Nat) (s : State) : Host.Outcome State Fault Refusal :=
  run (w.ok && decide (o < 64)) (fun s => (s.upTo t).pageWrite w (pgSout o) 0x060 4 4 false) s

/-- SOUT_BYP (R270; SOUT_BYP written (spec/09 R270)). A write changing bypass bits is applied and logged. -/
def execSoutByp (w : Writer) (o byp t : Nat) (s : State) : Host.Outcome State Fault Refusal :=
  run (w.ok && decide (o < 64) && decide (byp < 8)) (fun s => (s.upTo t).pageWrite w (pgSout o) 0x05C 4 byp false) s

/-- SOUT_FO_RESET (R284; SOUT_FO_RESET written (spec/09 R284)). A write re-arms first-out groups. -/
def execSoutFoReset (w : Writer) (d mask t : Nat) (s : State) : Host.Outcome State Fault Refusal :=
  run (w.ok && decide (d < 2) && decide (mask < 65536)) (fun s => (s.upTo t).pageWrite w (pgSoutD d) 0x060 4 mask false) s

/-- SWITCH_CURRENT_LIMIT (R574; spec/21 R574). A switch stays in current limit for 1 ms and opens. -/
def execSwitchCurrentLimit (o d t : Nat) (s : State) : Host.Outcome State Fault Refusal :=
  run (decide (o < 64) && decide (d < 2)) (fun s => Machine.switchCurrentLimit o d t s) s

end Sys2Proof.Machine
end

