-- ==== Sys2Proof/Machine/ExecStack.lean ====
section
/-! DEFINITION. Meanings: stack and literal operations of Kolotte (spec/11, spec/12). -/

namespace Sys2Proof.Machine

/-- NOP (R359; spec/12 R359). No operation. -/
def execNop (i : Issue) (s : State) : Host.Outcome State Fault Refusal :=
  run (decide (i.tile < 128) && decide (i.copy < 3)) (fun s => kRun i .nop s) s

/-- DROP (R359; spec/12 R359). Pops one entry. -/
def execDrop (i : Issue) (s : State) : Host.Outcome State Fault Refusal :=
  run (decide (i.tile < 128) && decide (i.copy < 3)) (fun s => kRun i (.stk .drop) s) s

/-- DUP (R359; spec/12 R359). Duplicates the top entry. -/
def execDup (i : Issue) (s : State) : Host.Outcome State Fault Refusal :=
  run (decide (i.tile < 128) && decide (i.copy < 3)) (fun s => kRun i (.stk .dup) s) s

/-- SWAP (R359; spec/12 R359). Swaps the top two entries. -/
def execSwap (i : Issue) (s : State) : Host.Outcome State Fault Refusal :=
  run (decide (i.tile < 128) && decide (i.copy < 3)) (fun s => kRun i (.stk .swap) s) s

/-- OVER (R359; spec/12 R359). Copies the second entry to the top. -/
def execOver (i : Issue) (s : State) : Host.Outcome State Fault Refusal :=
  run (decide (i.tile < 128) && decide (i.copy < 3)) (fun s => kRun i (.stk .over) s) s

/-- ROT (R359; spec/12 R359). Rotates the top three entries. -/
def execRot (i : Issue) (s : State) : Host.Outcome State Fault Refusal :=
  run (decide (i.tile < 128) && decide (i.copy < 3)) (fun s => kRun i (.stk .rot) s) s

/-- DUP2 (R359; spec/12 R359). Duplicates the top two entries. -/
def execDup2 (i : Issue) (s : State) : Host.Outcome State Fault Refusal :=
  run (decide (i.tile < 128) && decide (i.copy < 3)) (fun s => kRun i (.stk .dup2) s) s

/-- DROP2 (R359; spec/12 R359). Pops two entries. -/
def execDrop2 (i : Issue) (s : State) : Host.Outcome State Fault Refusal :=
  run (decide (i.tile < 128) && decide (i.copy < 3)) (fun s => kRun i (.stk .drop2) s) s

/-- SWAP2 (R359; spec/12 R359). Swaps the top two pairs. -/
def execSwap2 (i : Issue) (s : State) : Host.Outcome State Fault Refusal :=
  run (decide (i.tile < 128) && decide (i.copy < 3)) (fun s => kRun i (.stk .swap2) s) s

/-- NIP (R359; spec/12 R359). Removes the second entry. -/
def execNip (i : Issue) (s : State) : Host.Outcome State Fault Refusal :=
  run (decide (i.tile < 128) && decide (i.copy < 3)) (fun s => kRun i (.stk .nip) s) s

/-- PICK (R359; spec/12 R359). Pushes the entry k below the top. -/
def execPick (i : Issue) (k : Nat) (s : State) : Host.Outcome State Fault Refusal :=
  run (decide (i.tile < 128) && decide (i.copy < 3) && decide (k < 16)) (fun s => kRun i (.pick k) s) s

/-- DROPN (R359; spec/12 R359). Pops 1 to 16 entries. -/
def execDropn (i : Issue) (m : Nat) (s : State) : Host.Outcome State Fault Refusal :=
  run (decide (i.tile < 128) && decide (i.copy < 3) && decide (m < 16)) (fun s => kRun i (.dropn m) s) s

/-- LOCAL (R329; spec/11 R329). Pushes a copy of a local. -/
def execLoc (i : Issue) (k : Nat) (s : State) : Host.Outcome State Fault Refusal :=
  run (decide (i.tile < 128) && decide (i.copy < 3) && decide (k < 32)) (fun s => kRun i (.loc k) s) s

/-- SETL (R329; spec/11 R329). Pops the top into a local. -/
def execSetl (i : Issue) (k : Nat) (s : State) : Host.Outcome State Fault Refusal :=
  run (decide (i.tile < 128) && decide (i.copy < 3) && decide (k < 32)) (fun s => kRun i (.setl k) s) s

/-- LIT (R364; spec/12 R364). Pushes a literal. -/
def execLit (i : Issue) (ln : Nat) (s : State) : Host.Outcome State Fault Refusal :=
  run (decide (i.tile < 128) && decide (i.copy < 3) && decide (ln < 16)) (fun s => kRun i (.lit ln) s) s

end Sys2Proof.Machine
end

