-- ==== Sys2Proof/Machine/ExecStreams.lean ====
section
/-! DEFINITION. Meanings: streams (spec/05). -/

namespace Sys2Proof.Machine

/-- COMMIT (R150; STR_E_CTRL written with COMMIT = 1 (spec/05 R150)). A write of STR_E_CTRL.COMMIT = 1 requests a stream entry handover. -/
def execCommit (w : Writer) (e ctrl t : Nat) (s : State) : Host.Outcome State Fault Refusal :=
  run (w.ok && decide (e < 4096)) (fun s => (s.upTo t).pageWrite w (pgStrT e) (strOff e 0) 4 (setBit (lo32 ctrl) 30 true) false) s

/-- STREAM_HANDOVER (R150; spec/05 R150). At the source's next cell boundary the staged entry becomes active and GEN increments. -/
def execStreamHandover (e t : Nat) (s : State) : Host.Outcome State Fault Refusal :=
  run (decide (e < 4096)) (fun s => Machine.streamHandover e t s) s

/-- STREAM_CELL (R161; spec/05 R161). A cell leaves its source once every destination has credit and is written to each. -/
def execStreamCell (e : Nat) (sent : CellSent) (s : State) : Host.Outcome State Fault Refusal :=
  run (decide (e < 4096)) (fun s => Machine.streamCell e sent.bad sent.t s) s

/-- CAPTURE_OPEN (R168; STR_CAPTURE with OP = open (spec/05 R168)). An STR_CAPTURE open opens the capture slots of an entry. -/
def execCaptureOpen (w : Writer) (e t : Nat) (s : State) : Host.Outcome State Fault Refusal :=
  run (w.ok && decide (e < 4096)) (fun s => (s.upTo t).pageWrite w pgStr 0x05C 4 (2 ^ 30 + e) false) s

/-- CAPTURE_CLOSE (R168; STR_CAPTURE with OP = close (spec/05 R168)). An STR_CAPTURE close closes the capture slots of an entry. -/
def execCaptureClose (w : Writer) (e t : Nat) (s : State) : Host.Outcome State Fault Refusal :=
  run (w.ok && decide (e < 4096)) (fun s => (s.upTo t).pageWrite w pgStr 0x05C 4 (2 ^ 31 + e) false) s

end Sys2Proof.Machine
end

