-- ==== Sys2Proof/Machine/ExecTfe.lean ====
section
/-! DEFINITION. Meanings: Transform Engines (spec/07). -/

namespace Sys2Proof.Machine

/-- TFE_SUBMIT (R201; TFE_SUBMIT written (spec/07 R201)). A write to TFE_SUBMIT submits a descriptor to the engine. -/
def execTfeSubmit (w : Writer) (c desc t : Nat) (s : State) : Host.Outcome State Fault Refusal :=
  run (w.ok && decide (c < 16) && decide (desc < 131072)) (fun s => (s.upTo t).pageWrite w (pgTfe c) 0x040 4 (desc * 64) false) s

/-- JOB_START (R224; spec/07 R224). An idle engine starts the next queued job. -/
def execJobStart (c t : Nat) (s : State) : Host.Outcome State Fault Refusal :=
  run (decide (c < 16)) (fun s => Machine.jobStart c t s) s

/-- STAGES_PASS (R220; spec/07 R220). Every stage of a running job passes the sum-check and the job completes. -/
def execStagesPass (c t : Nat) (s : State) : Host.Outcome State Fault Refusal :=
  run (decide (c < 16)) (fun s => Machine.stagesPass c t s) s

/-- STAGE_FAILS (R229; spec/07 R229). A job stage fails the sum-check and the job reruns or the engine faults. -/
def execStageFails (c stage t : Nat) (s : State) : Host.Outcome State Fault Refusal :=
  run (decide (c < 16)) (fun s => Machine.stageFails c stage t s) s

end Sys2Proof.Machine
end

