-- ==== Sys2Proof/Machine/TileCairn.lean ====
section
/-! DEFINITION. Commits and hand-overs of a tile, with the outputs that leave at a commit before what follows it (spec/10 R294, R297, R313, R315, R318, R324). -/

namespace Sys2Proof.Machine

/-- A drained copy: its dividers have finished and its loads have landed (spec/10 R318 step 1). -/
def State.landCopy (s : State) (t c : Nat) : State :=
  let x := s.kx t c
  let x := x.landDivs (((x.k.divI.toList ++ x.k.divF.toList).map DivE.ready).foldl max x.iss)
  ({ x with k := x.k.landAll } : KX).done

/-- Whether a draining tile has no external read left. -/
def TileH.drained (h : TileH) : Bool := h.draining && h.copies.all fun k => !k.run || k.ext.isEmpty

/-- The boundary of a final cairn: the drained copy with all it has logged. -/
def TileH.lastBound (h : TileH) (now : Nat) : BoundH :=
  ⟨h.copies.getD 0 {}, h.undo.length, h.ocb.length, h.jrn.length, h.bundles, now⟩

/-- A commit, with what leaves at it. -/
def State.commitOut (s : State) (t : Nat) (b : BoundH) : State :=
  let s := s.commitNow t b
  s.flushOut t (s.tileH t).outQ.length

/-- The final cairn of a hand-over (spec/10 R318 step 2). A write of TILE_CFG that it releases asks anew. -/
def State.finalCommit (s : State) (t : Nat) : State :=
  let s := s.landCopy t 0
  let s := s.setTile t { s.tileH t with handReq := none, due := none, final := true }
  s.commitOut t ((s.tileH t).lastBound s.now)

/-- The comparator self-test of a cairn, by how often it failed (spec/10 R315): one failure is repeated and counted. -/
def State.selfTest (s : State) (t test : Nat) : State :=
  if test = 1 then (s.bump (pgTile t) 0x064 31 24).irq (pgTile t) 19 else s

/-- At a commit with at most 256 marked lines the work moves to the spare that TILE_SPARE names (spec/10 R313). -/
def State.spareMove (s : State) (t marked : Nat) : State :=
  let p := pgTile t
  match (s.tileH t).spare with
  | some (upd, sp, _) =>
    if marked ≤ 256 ∧ s.ready (pgTile sp) then
      let s := s.setFld p 0x0A4 31 29 2
      let h := s.tileH t
      let s := (s.undoAll h.undo).setTile t { h with undo := [], spare := none }
      let keep := if upd then s.rd64 p 0x0B0 + s.rd64 p 0x0B8 * 2 ^ 64 else 0
      ((s.moveWork t sp keep).setB p 0x040 29 true).setFld p 0x0A4 31 29 3
    else s.cairnCheck t
  | none => s.cairnCheck t

/-- CAIRN_COMMIT (spec/10 R294, R313, R315, R318, R323): the cairn whose boundary stands, or the final one of a drained tile. `test` is the number of failed comparator self-tests: one is repeated, two are a checker fault. `marked` is the number of lines still to copy to a spare. -/
def cairnCommit (t test marked tm : Nat) (s : State) : State :=
  let s := s.upTo tm
  let h := s.tileH t
  if ¬ (t < 128 ∧ s.ready (pgTile t)) ∨ h.recovering ∨ h.halted.getD 0 false then s else
  match h.bound with
  | some b => if 2 ≤ test then s.tileRetire t 2 else ((s.selfTest t test).commitOut t b).spareMove t marked
  | none =>
    if h.mode ≤ 1 ∧ h.drained ∧ !h.final then
      if 2 ≤ test then s.tileRetire t 2
      else
        let m := h.handReq
        let s := (s.selfTest t test).finalCommit t
        s.setTile t { s.tileH t with handReq := (s.tileH t).handReq.orElse fun _ => m }
    else s

/-- DRAIN_COMPLETE (spec/10 R318, R319): the copies have drained, the final cairn commits unless it has, its outputs leave, and the new mode starts from its entry records or is refused. -/
def drainComplete (t tm : Nat) (s : State) : State :=
  let s := s.upTo tm
  let p := pgTile t
  let h := s.tileH t
  match h.handReq with
  | none => s
  | some m =>
    if !h.drained || h.recovering || !s.ready p || (decide (h.mode ≤ 1) && h.halted.getD 0 false) then s else
    let s := s.each (List.range 3) fun s c => s.landCopy t c
    let s := if h.mode ≤ 1 ∧ !h.final then s.finalCommit t else s
    let s := s.setFld p 0x04C 27 25 3
    let m := (s.tileH t).handReq.getD m
    match s.startTile t m with
    | (true, s) => (s.setFld p 0x04C 24 22 1).irq p 17
    | (false, s) =>
      ((s.setTile t { s.tileH t with draining := false, handReq := none, final := false }).setFld p 0x04C 27 25 0).irq p 17

end Sys2Proof.Machine
end

