-- ==== Sys2Proof/Machine/ExecTiles.lean ====
section
/-! DEFINITION. Meanings: tiles, their modes, copies and debug unit (spec/10). -/

namespace Sys2Proof.Machine

/-- CAIRN_DUE (R293; spec/10 R293). A cairn falls due on its interval, and its boundary is found. -/
def execCairnDue (tile t : Nat) (s : State) : Host.Outcome State Fault Refusal :=
  run (decide (tile < 128)) (fun s => Machine.cairnDue tile t s) s

/-- CAIRN_COMMIT (R294; spec/10 R294). A cairn commits 8 cycles after the boundary, loading the shadow and releasing outputs. -/
def execCairnCommit (tile tst marked t : Nat) (s : State) : Host.Outcome State Fault Refusal :=
  run (decide (tile < 128)) (fun s => Machine.cairnCommit tile tst marked t s) s

/-- MISMATCH (R292; spec/10 R292). A compared item differs between copies. -/
def execMismatch (tile : Nat) (u : Upset) (off t : Nat) (s : State) : Host.Outcome State Fault Refusal :=
  run (decide (tile < 128)) (fun s => Machine.mismatch tile u off t s) s

/-- RESTORE_COMPLETE (R302; spec/10 R302). The restore completes and the copies re-execute from the cairn. -/
def execRestoreComplete (tile t : Nat) (s : State) : Host.Outcome State Fault Refusal :=
  run (decide (tile < 128)) (fun s => Machine.restoreComplete tile t s) s

/-- TAKE_OVER (R311; spec/10 R311). A spare takes over a retired tile's work from its last cairn. -/
def execTakeOver (tile t : Nat) (s : State) : Host.Outcome State Fault Refusal :=
  run (decide (tile < 128)) (fun s => Machine.takeOver tile t s) s

/-- ROTATE (R313; TILE_SPARE with OP = ROTATE (spec/10 R313)). TILE_SPARE ROTATE starts moving a working tile's work to a spare. -/
def execRotate (w : Writer) (tile sp t : Nat) (s : State) : Host.Outcome State Fault Refusal :=
  run (w.ok && decide (tile < 128) && decide (sp < 128)) (fun s => (s.upTo t).pageWrite w (pgTile tile) 0x0A0 4 (2 ^ 30 + sp) false) s

/-- UPDATE (R313; TILE_SPARE with OP = UPDATE (spec/10 R313)). TILE_SPARE UPDATE starts moving work to a spare, keeping its TILE_KEEP pages. -/
def execUpdate (w : Writer) (tile sp t : Nat) (s : State) : Host.Outcome State Fault Refusal :=
  run (w.ok && decide (tile < 128) && decide (sp < 128)) (fun s => (s.upTo t).pageWrite w (pgTile tile) 0x0A0 4 (2 ^ 31 + sp) false) s

/-- SPARE_REFUSED (R313; spec/10 R313). Marked lines do not fall to 256 within 100 ms and the request is refused. -/
def execSpareRefused (tile t : Nat) (s : State) : Host.Outcome State Fault Refusal :=
  run (decide (tile < 128)) (fun s => Machine.spareRefused tile t s) s

/-- MODE_HAND_OVER (R318; TILE_CFG written (spec/10 R318)). A TILE_CFG write requests a mode hand-over. -/
def execModeHandOver (w : Writer) (tile v t : Nat) (s : State) : Host.Outcome State Fault Refusal :=
  run (w.ok && decide (tile < 128)) (fun s => (s.upTo t).pageWrite w (pgTile tile) 0x040 4 v false) s

/-- DRAIN_COMPLETE (R318; spec/10 R318). The drained copies commit and the new mode starts from its entry records. -/
def execDrainComplete (tile t : Nat) (s : State) : Host.Outcome State Fault Refusal :=
  run (decide (tile < 128)) (fun s => Machine.drainComplete tile t s) s

/-- HALT (R322; TILE_DBG_CMD with OP = HALT (spec/10 R322)). TILE_DBG_CMD HALT stops the lead copy at its next bundle boundary. -/
def execHalt (w : Writer) (tile copy t : Nat) (s : State) : Host.Outcome State Fault Refusal :=
  run (w.ok && decide (tile < 128) && decide (copy < 4)) (fun s => (s.upTo t).pageWrite w (pgTile tile) 0x0C0 4 (1 * 2 ^ 28 + copy * 2 ^ 26) false) s

/-- RESUME (R322; TILE_DBG_CMD with OP = RESUME (spec/10 R322)). TILE_DBG_CMD RESUME restarts a halted tile. -/
def execResume (w : Writer) (tile copy t : Nat) (s : State) : Host.Outcome State Fault Refusal :=
  run (w.ok && decide (tile < 128) && decide (copy < 4)) (fun s => (s.upTo t).pageWrite w (pgTile tile) 0x0C0 4 (2 * 2 ^ 28 + copy * 2 ^ 26) false) s

/-- STEP (R322; TILE_DBG_CMD with OP = STEP (spec/10 R322)). TILE_DBG_CMD STEP runs n bundles. -/
def execStep (w : Writer) (tile copy n t : Nat) (s : State) : Host.Outcome State Fault Refusal :=
  run (w.ok && decide (tile < 128) && decide (copy < 4) && decide (n < 16777216)) (fun s => (s.upTo t).pageWrite w (pgTile tile) 0x0C0 4 (3 * 2 ^ 28 + copy * 2 ^ 26 + n) false) s

/-- DEBUG_READ (R322; TILE_DBG_CMD with OP = READ (spec/10 R322)). TILE_DBG_CMD READ reads a register, stack entry or lane. -/
def execDebugRead (w : Writer) (tile copy space idx t : Nat) (s : State) : Host.Outcome State Fault Refusal :=
  run (w.ok && decide (tile < 128) && decide (copy < 4) && decide (space < 4) && decide (idx < 16777216)) (fun s => (s.upTo t).pageWrite w (pgTile tile) 0x0C0 4 (4 * 2 ^ 28 + copy * 2 ^ 26 + space * 2 ^ 24 + idx) false) s

/-- DEBUG_WRITE (R322; TILE_DBG_CMD with OP = WRITE (spec/10 R322)). TILE_DBG_CMD WRITE sets a register, stack entry or lane. -/
def execDebugWrite (w : Writer) (tile copy space idx t : Nat) (s : State) : Host.Outcome State Fault Refusal :=
  run (w.ok && decide (tile < 128) && decide (copy < 4) && decide (space < 4) && decide (idx < 16777216)) (fun s => (s.upTo t).pageWrite w (pgTile tile) 0x0C0 4 (5 * 2 ^ 28 + copy * 2 ^ 26 + space * 2 ^ 24 + idx) false) s

/-- TILE_MBOX_IN (R286; TILE_MBOX_IN written (spec/10 R286)). A write appends a word to the tile mailbox. -/
def execTileMboxIn (w : Writer) (tile v : Nat) (pois : Bool) (t : Nat) (s : State) : Host.Outcome State Fault Refusal :=
  run (w.ok && decide (tile < 128)) (fun s => (s.upTo t).pageWrite w (pgTile tile) 0x088 8 v pois) s

/-- TILE_MBOX_OUT (R300; TILE_MBOX_OUT read (spec/10 R300)). A read pops the oldest mailbox word. -/
def execTileMboxOut (w : Writer) (tile t : Nat) (s : State) : Host.Outcome State Fault Refusal :=
  run (w.ok && decide (tile < 128)) (fun s => (s.upTo t).readOut w (pgTile tile) 0x090 8) s

/-- TILE_RQ1 (R300; TILE_RQ1 read (spec/10 R300)). A read returns and removes the head release entry. -/
def execTileRq1 (w : Writer) (tile t : Nat) (s : State) : Host.Outcome State Fault Refusal :=
  run (w.ok && decide (tile < 128)) (fun s => (s.upTo t).readOut w (pgTile tile) 0x078 8) s

/-- TILE_TAG (R427; TILE_TAG written (spec/14 R427)). A Basecamp or debug write sets a local-memory granule's tag. -/
def execTileTag (w : Writer) (tile granule : Nat) (tag : Bool) (t : Nat) (s : State) : Host.Outcome State Fault Refusal :=
  run (w.ok && decide (tile < 128) && decide (granule < 32768)) (fun s => (s.upTo t).pageWrite w (pgTile tile) 0x0F0 8 (granule * 16 + b2n tag * 2 ^ 63) false) s

/-- EXCEPTION_ENTRY (R420; spec/14 R418–R420). A pending exception is entered at a boundary, pushing the frame and jumping to the vector. -/
def execExceptionEntry (tile copy : Nat) (s : State) : Host.Outcome State Fault Refusal :=
  run (decide (tile < 128) && decide (copy < 3)) (fun s => Machine.exceptionEntry tile copy s) s

/-- EXT_READ_REPLY (R394; spec/13 R394). An external read reply arrives, is written and journalled. -/
def execExtReadReply (tile copy i t : Nat) (s : State) : Host.Outcome State Fault Refusal :=
  run (decide (tile < 128) && decide (copy < 3)) (fun s => Machine.extReadReply tile copy i t s) s

/-- WAITW_RELEASE (R357; spec/11 R357). A waiting WAITW finds a release entry and pushes its words. -/
def execWaitwRelease (tile copy : Nat) (s : State) : Host.Outcome State Fault Refusal :=
  run (decide (tile < 128) && decide (copy < 3)) (fun s => Machine.waitwRelease tile copy s) s

end Sys2Proof.Machine
end

