-- ==== Sys2Proof/Machine/ExecTracks.lean ====
section
/-! DEFINITION. Meanings: tracks, time and waypoints (spec/03). -/

namespace Sys2Proof.Machine

/-- QUALIFIED_EDGE (R59; spec/03 R59). A track input edge passes direction, threshold and deglitch and is stamped. -/
def execQualifiedEdge (n stamp : Nat) (rising : Bool) (s : State) : Host.Outcome State Fault Refusal :=
  run (decide (n < 64)) (fun s => Machine.qualifiedEdge n stamp rising s) s

/-- COUNT_TRANSFER (R60; spec/03 R60, R69). A count of qualified edges crosses into the core domain and the estimator refits. -/
def execCountTransfer (n t : Nat) (s : State) : Host.Outcome State Fault Refusal :=
  run (decide (n < 64)) (fun s => Machine.countTransfer n t s) s

/-- BROADCAST (R70; spec/03 R70, spec/19 R527). Every 64 cycles the estimator evaluates every track at a broadcast instant. -/
def execBroadcast (t : Nat) (meets : Meets) (s : State) : Host.Outcome State Fault Refusal :=
  run true (fun s => broadcastAll t meets.loops meets.bad s) s

/-- BROADCAST_APPLY (R70; spec/03 R70, spec/06 R192). A broadcast record reaches every cluster 24 cycles after its instant and is applied. -/
def execBroadcastApply (t : Nat) (s : State) : Host.Outcome State Fault Refusal :=
  run true (fun s => broadcastApplied t s) s

/-- GAP_EXCEEDED (R75; spec/03 R75). A LOCKED track sees no count for TRK_LOSS.GAP expected intervals and goes to COASTING. -/
def execGapExceeded (k t : Nat) (s : State) : Host.Outcome State Fault Refusal :=
  run (decide (k < 64)) (fun s => Machine.gapExceeded k t s) s

/-- COAST_LIMIT (R75; spec/03 R75). A COASTING track reaches its turns or time limit and goes to LOST. -/
def execCoastLimit (k t : Nat) (s : State) : Host.Outcome State Fault Refusal :=
  run (decide (k < 64)) (fun s => Machine.coastLimit k t s) s

/-- STOP_TIME (R75; spec/03 R75). TRK_LOSS.STOP_MS elapses in LOST and the track goes to STOPPED. -/
def execStopTime (k t : Nat) (s : State) : Host.Outcome State Fault Refusal :=
  run (decide (k < 64)) (fun s => Machine.stopTime k t s) s

/-- TACHO_SCAN (R79; spec/03 R79). A tacholess detector scan of T_scan ends and the loop starts if the strongest line stands out. -/
def execTachoScan (k t : Nat) (levels : List Int) (s : State) : Host.Outcome State Fault Refusal :=
  run (decide (k < 64)) (fun s => Machine.tachoScan k t levels s) s

/-- TACHO_LOCK (R79; spec/03 R79). The phase-locked loop holds 16 line cycles within ±1/16 and the tacholess track locks. -/
def execTachoLock (k t : Nat) (line : LoopLine) (s : State) : Host.Outcome State Fault Refusal :=
  run (decide (k < 64)) (fun s => Machine.tachoLock k t line.hz16 line.errs s) s

/-- LINE_LOSS (R81; spec/03 R81). The followed line stays weak or leaves the band and the tacholess track coasts. -/
def execLineLoss (k : Nat) (weak : WeakLine) (s : State) : Host.Outcome State Fault Refusal :=
  run (decide (k < 64)) (fun s => Machine.lineLoss k weak.t weak.since weak.level weak.med s) s

/-- WPT_ARM (R86; WPT_CFG written with ARM = 1 (spec/03 R86)). A write that takes WPT_CFG.ARM from 0 to 1 arms a waypoint unit and starts its deadline count. -/
def execWptArm (w : Writer) (c u cfg t : Nat) (s : State) : Host.Outcome State Fault Refusal :=
  run (w.ok && decide (c < 16) && decide (u < 128)) (fun s => (s.upTo t).pageWrite w (pgWpt c u) (wptOff u 8) 4 (setBit (lo32 cfg) 31 true) false) s

/-- WAYPOINT_FIRE (R86; spec/03 R86–R92, spec/20 R556). An armed unit's track position meets its condition and the unit fires and acts. -/
def execWaypointFire (c u t : Nat) (s : State) : Host.Outcome State Fault Refusal :=
  run (decide (c < 16) && decide (u < 128)) (fun s => State.wakeIf (s.wptDue c u t)) s

/-- DEADLINE_FIRE (R88; spec/03 R88). A unit's deadline expires before its condition and it fires with LATE. -/
def execDeadlineFire (c u t : Nat) (s : State) : Host.Outcome State Fault Refusal :=
  run (decide (c < 16) && decide (u < 128)) (fun s => State.wakeIf (s.wptDue c u t)) s

end Sys2Proof.Machine
end

