-- ==== Sys2Proof/Machine/ExecWdg.lean ====
section
/-! DEFINITION. Meanings: watchdogs and counters (spec/16). -/

namespace Sys2Proof.Machine

/-- WDG_SVC (R454; WDG_SVC written (spec/16 R451, R454)). A service write is judged against the window and the checked tasks. -/
def execWdgSvc (w : Writer) (p key t : Nat) (s : State) : Host.Outcome State Fault Refusal :=
  run (w.ok && wdgPage p && decide (key < 65536)) (fun s => (s.upTo t).pageWrite w p 0x054 4 (key * 65536) false) s

/-- WDG_CHECKIN (R454; WDG_CHECKIN written (spec/16 R451, R454)). A task check-in sets its CHECKED bit or fails. -/
def execWdgCheckin (w : Writer) (p task t : Nat) (s : State) : Host.Outcome State Fault Refusal :=
  run (w.ok && wdgPage p && decide (task < 16)) (fun s => (s.upTo t).pageWrite w p 0x058 4 task false) s

/-- REMAINING_EXPIRY (R454; spec/16 R454). A watchdog's remaining time reaches zero and it opens, fails or resets. -/
def execRemainingExpiry (p t : Nat) (s : State) : Host.Outcome State Fault Refusal :=
  run (wdgPage p) (fun s => (s.upTo t).wdgDue p t) s

/-- WAKE_POINT (R462; spec/16 R462). Remaining time reaches LEAD and the watchdog signals and may wake. -/
def execWakePoint (p t : Nat) (s : State) : Host.Outcome State Fault Refusal :=
  run (wdgPage p) (fun s => (s.upTo t).wdgWakeDue p t) s

/-- OSCILLATOR_FAULT (R452; spec/16 R452). A missing or off-frequency oscillator fails its watchdogs. -/
def execOscillatorFault (o t : Nat) (s : State) : Host.Outcome State Fault Refusal :=
  run (decide (o < 17)) (fun s => Machine.oscillatorFault o t s) s

/-- COUNTER_OVERFLOW (R465; spec/16 R465). A performance counter passes 2^48 − 1, wraps, sets PMC_OVF and its interrupt bit, and sets FREEZE when FOVF = 1. -/
def execCounterOverflow (tile i t : Nat) (s : State) : Host.Outcome State Fault Refusal :=
  run (decide (tile < 128) && decide (i < 6)) (fun s => Machine.counterOverflow tile i t s) s

end Sys2Proof.Machine
end

