-- ==== Sys2Proof/Machine/ExecXng.lean ====
section
/-! DEFINITION. Meanings: crossings (spec/18). -/

namespace Sys2Proof.Machine

/-- WORD_ACCEPT (R489; spec/18 R489). A receiver accepts a word on a crossing lane after two agreeing samples. -/
def execWordAccept (i n : Nat) (toCore : Bool) (word : XWord) (launch t : Nat) (s : State) : Host.Outcome State Fault Refusal :=
  run (decide (i < 7) && decide (n < 32) && word.ok) (fun s => Machine.wordAccept i n toCore word launch t s) s

/-- ACKNOWLEDGE (R491; spec/18 R491). An acknowledge returns and frees the sender's lane. -/
def execAcknowledge (i n : Nat) (toCore : Bool) (t : Nat) (s : State) : Host.Outcome State Fault Refusal :=
  run (decide (i < 7) && decide (n < 32)) (fun s => Machine.acknowledge i n toCore t s) s

/-- CROSSING_HOLD (R494; spec/18 R494). 16 expected periods pass without an edge and the crossing holds. -/
def execCrossingHold (i n t : Nat) (s : State) : Host.Outcome State Fault Refusal :=
  run (decide (i < 7) && decide (n < 32)) (fun s => Machine.crossingHold i n t s) s

/-- CLOCK_RETURN (R494; spec/18 R494). Edges return for 16 periods and the crossing resumes. -/
def execClockReturn (i n drops t : Nat) (s : State) : Host.Outcome State Fault Refusal :=
  run (decide (i < 7) && decide (n < 32)) (fun s => Machine.clockReturn i n drops t s) s

/-- SIDE_RESET (R496; spec/18 R496). A reset of either side discards transfers and takes the crossing DOWN. -/
def execSideReset (i n : Nat) (coreSide : Bool) (t : Nat) (s : State) : Host.Outcome State Fault Refusal :=
  run (decide (i < 7) && decide (n < 32)) (fun s => Machine.sideReset i n coreSide t s) s

/-- FAR_SIDE_POWER (R498; spec/18 R498). The far side's power goes off or on. -/
def execFarSidePower (i n : Nat) (on : Bool) (t : Nat) (s : State) : Host.Outcome State Fault Refusal :=
  run (decide (i < 7) && decide (n < 32)) (fun s => Machine.farSidePower i n on t s) s

/-- HANDSHAKE_COMPLETE (R496; spec/18 R496). The resynchronisation handshake completes and the crossing is UP. -/
def execHandshakeComplete (i n drops t : Nat) (s : State) : Host.Outcome State Fault Refusal :=
  run (decide (i < 7) && decide (n < 32)) (fun s => Machine.handshakeComplete i n drops t s) s

end Sys2Proof.Machine
end

