-- ==== Sys2Proof/Machine/Dispatch.lean ====
section
/-! DEFINITION. One arm for each command. -/

namespace Sys2Proof.Machine

def exec (i : Instr) (s : State) : Host.Outcome State Fault Refusal :=
  match i with
  | .pageReset w p t => Sys2Proof.Machine.execPageReset w p t s
  | .resetComplete p t => Sys2Proof.Machine.execResetComplete p t s
  | .pageEnable w p t => Sys2Proof.Machine.execPageEnable w p t s
  | .pageDisable w p t => Sys2Proof.Machine.execPageDisable w p t s
  | .pageLock w p en t => Sys2Proof.Machine.execPageLock w p en t s
  | .startUpComplete p t => Sys2Proof.Machine.execStartUpComplete p t s
  | .faultDetected p code t => Sys2Proof.Machine.execFaultDetected p code t s
  | .blockRecoveryComplete p t => Sys2Proof.Machine.execBlockRecoveryComplete p t s
  | .retirement p code t => Sys2Proof.Machine.execRetirement p code t s
  | .blockPowerChange p pw t => Sys2Proof.Machine.execBlockPowerChange p pw t s
  | .registerWrite w p off size val pois t => Sys2Proof.Machine.execRegisterWrite w p off size val pois t s
  | .readAndClear w p off size t => Sys2Proof.Machine.execReadAndClear w p off size t s
  | .linkCheckFail c link t => Sys2Proof.Machine.execLinkCheckFail c link t s
  | .linkCheckPass c link t => Sys2Proof.Machine.execLinkCheckPass c link t s
  | .qualifiedEdge n stamp rising => Sys2Proof.Machine.execQualifiedEdge n stamp rising s
  | .countTransfer n t => Sys2Proof.Machine.execCountTransfer n t s
  | .broadcast t meets => Sys2Proof.Machine.execBroadcast t meets s
  | .broadcastApply t => Sys2Proof.Machine.execBroadcastApply t s
  | .gapExceeded k t => Sys2Proof.Machine.execGapExceeded k t s
  | .coastLimit k t => Sys2Proof.Machine.execCoastLimit k t s
  | .stopTime k t => Sys2Proof.Machine.execStopTime k t s
  | .tachoScan k t levels => Sys2Proof.Machine.execTachoScan k t levels s
  | .tachoLock k t line => Sys2Proof.Machine.execTachoLock k t line s
  | .lineLoss k weak => Sys2Proof.Machine.execLineLoss k weak s
  | .wptArm w c u cfg t => Sys2Proof.Machine.execWptArm w c u cfg t s
  | .waypointFire c u t => Sys2Proof.Machine.execWaypointFire c u t s
  | .deadlineFire c u t => Sys2Proof.Machine.execDeadlineFire c u t s
  | .powerApplied p cls volt cur is24V t => Sys2Proof.Machine.execPowerApplied p cls volt cur is24V t s
  | .powerRefused p t => Sys2Proof.Machine.execPowerRefused p t s
  | .powerRetry p t => Sys2Proof.Machine.execPowerRetry p t s
  | .overload p t => Sys2Proof.Machine.execOverload p t s
  | .spwrLow v t => Sys2Proof.Machine.execSpwrLow v t s
  | .spwrRecovery v t => Sys2Proof.Machine.execSpwrRecovery v t s
  | .spwrLimit t => Sys2Proof.Machine.execSpwrLimit t s
  | .linkUp p amp ms t => Sys2Proof.Machine.execLinkUp p amp ms t s
  | .linkDown p t => Sys2Proof.Machine.execLinkDown p t s
  | .trainingTimeout p t => Sys2Proof.Machine.execTrainingTimeout p t s
  | .attachTimeout p t => Sys2Proof.Machine.execAttachTimeout p t s
  | .configuringTimeout p t => Sys2Proof.Machine.execConfiguringTimeout p t s
  | .nodeSilent p t => Sys2Proof.Machine.execNodeSilent p t s
  | .syncInstant p t => Sys2Proof.Machine.execSyncInstant p t s
  | .sample p t o => Sys2Proof.Machine.execSample p t o s
  | .gap p t o => Sys2Proof.Machine.execGap p t o s
  | .syncReply p t o => Sys2Proof.Machine.execSyncReply p t o s
  | .ospStatus p t o => Sys2Proof.Machine.execOspStatus p t o s
  | .ident p t o => Sys2Proof.Machine.execIdent p t o s
  | .cal p t o => Sys2Proof.Machine.execCal p t o s
  | .selftest p t o => Sys2Proof.Machine.execSelftest p t o s
  | .frameEnd p t f => Sys2Proof.Machine.execFrameEnd p t f s
  | .sptChCfg w p k v t => Sys2Proof.Machine.execSptChCfg w p k v t s
  | .queryIdent w p t => Sys2Proof.Machine.execQueryIdent w p t s
  | .queryCal w p t => Sys2Proof.Machine.execQueryCal w p t s
  | .queryStatus w p t => Sys2Proof.Machine.execQueryStatus w p t s
  | .sptReqTest w p tid t => Sys2Proof.Machine.execSptReqTest w p tid t s
  | .sync p t tr o => Sys2Proof.Machine.execSync p t tr o s
  | .config p t o => Sys2Proof.Machine.execConfig p t o s
  | .query p t o => Sys2Proof.Machine.execQuery p t o s
  | .test p t o => Sys2Proof.Machine.execTest p t o s
  | .nodeEmission p k t => Sys2Proof.Machine.execNodeEmission p k t s
  | .commit w e ctrl t => Sys2Proof.Machine.execCommit w e ctrl t s
  | .streamHandover e t => Sys2Proof.Machine.execStreamHandover e t s
  | .streamCell e sent => Sys2Proof.Machine.execStreamCell e sent s
  | .captureOpen w e t => Sys2Proof.Machine.execCaptureOpen w e t s
  | .captureClose w e t => Sys2Proof.Machine.execCaptureClose w e t s
  | .viewOn w c v t => Sys2Proof.Machine.execViewOn w c v t s
  | .viewOff w c v t => Sys2Proof.Machine.execViewOff w c v t s
  | .inOn w c ix t => Sys2Proof.Machine.execInOn w c ix t s
  | .inOff w c ix t => Sys2Proof.Machine.execInOff w c ix t s
  | .arsCommandComplete c => Sys2Proof.Machine.execArsCommandComplete c s
  | .inputCell c ix t => Sys2Proof.Machine.execInputCell c ix t s
  | .outputSample c v t chk => Sys2Proof.Machine.execOutputSample c v t chk s
  | .tfeSubmit w c desc t => Sys2Proof.Machine.execTfeSubmit w c desc t s
  | .jobStart c t => Sys2Proof.Machine.execJobStart c t s
  | .stagesPass c t => Sys2Proof.Machine.execStagesPass c t s
  | .stageFails c stage t => Sys2Proof.Machine.execStageFails c stage t s
  | .slotOn w c ix t => Sys2Proof.Machine.execSlotOn w c ix t s
  | .slotOff w c ix t => Sys2Proof.Machine.execSlotOff w c ix t s
  | .blClear w c ix t => Sys2Proof.Machine.execBlClear w c ix t s
  | .frdTrigger w c group result t => Sys2Proof.Machine.execFrdTrigger w c group result t s
  | .triggerService c t diffs => Sys2Proof.Machine.execTriggerService c t diffs s
  | .voteWord w o m word pois t => Sys2Proof.Machine.execVoteWord w o m word pois t s
  | .driveTick dev loads t => Sys2Proof.Machine.execDriveTick dev loads t s
  | .tripDelay o d t => Sys2Proof.Machine.execTripDelay o d t s
  | .releaseDelay o d t => Sys2Proof.Machine.execReleaseDelay o d t s
  | .memberNotFresh o m t => Sys2Proof.Machine.execMemberNotFresh o m t s
  | .multiplierTimeout o t => Sys2Proof.Machine.execMultiplierTimeout o t s
  | .readbackMismatch o d t => Sys2Proof.Machine.execReadbackMismatch o d t s
  | .openload o t => Sys2Proof.Machine.execOpenload o t s
  | .pulseTest o d t => Sys2Proof.Machine.execPulseTest o d t s
  | .pulseTestEnd o d inverted t => Sys2Proof.Machine.execPulseTestEnd o d inverted t s
  | .diverge o t => Sys2Proof.Machine.execDiverge o t s
  | .peer d t => Sys2Proof.Machine.execPeer d t s
  | .driveBlockFault d t => Sys2Proof.Machine.execDriveBlockFault d t s
  | .resetTrip w o t => Sys2Proof.Machine.execResetTrip w o t s
  | .clearFault w o t => Sys2Proof.Machine.execClearFault w o t s
  | .ptNow w o t => Sys2Proof.Machine.execPtNow w o t s
  | .soutByp w o byp t => Sys2Proof.Machine.execSoutByp w o byp t s
  | .soutFoReset w d mask t => Sys2Proof.Machine.execSoutFoReset w d mask t s
  | .switchCurrentLimit o d t => Sys2Proof.Machine.execSwitchCurrentLimit o d t s
  | .cairnDue tile t => Sys2Proof.Machine.execCairnDue tile t s
  | .cairnCommit tile tst marked t => Sys2Proof.Machine.execCairnCommit tile tst marked t s
  | .mismatch tile u off t => Sys2Proof.Machine.execMismatch tile u off t s
  | .restoreComplete tile t => Sys2Proof.Machine.execRestoreComplete tile t s
  | .takeOver tile t => Sys2Proof.Machine.execTakeOver tile t s
  | .rotate w tile sp t => Sys2Proof.Machine.execRotate w tile sp t s
  | .update w tile sp t => Sys2Proof.Machine.execUpdate w tile sp t s
  | .spareRefused tile t => Sys2Proof.Machine.execSpareRefused tile t s
  | .modeHandOver w tile v t => Sys2Proof.Machine.execModeHandOver w tile v t s
  | .drainComplete tile t => Sys2Proof.Machine.execDrainComplete tile t s
  | .halt w tile copy t => Sys2Proof.Machine.execHalt w tile copy t s
  | .resume w tile copy t => Sys2Proof.Machine.execResume w tile copy t s
  | .step w tile copy n t => Sys2Proof.Machine.execStep w tile copy n t s
  | .debugRead w tile copy space idx t => Sys2Proof.Machine.execDebugRead w tile copy space idx t s
  | .debugWrite w tile copy space idx t => Sys2Proof.Machine.execDebugWrite w tile copy space idx t s
  | .tileMboxIn w tile v pois t => Sys2Proof.Machine.execTileMboxIn w tile v pois t s
  | .tileMboxOut w tile t => Sys2Proof.Machine.execTileMboxOut w tile t s
  | .tileRq1 w tile t => Sys2Proof.Machine.execTileRq1 w tile t s
  | .tileTag w tile granule tag t => Sys2Proof.Machine.execTileTag w tile granule tag t s
  | .exceptionEntry tile copy => Sys2Proof.Machine.execExceptionEntry tile copy s
  | .extReadReply tile copy ix t => Sys2Proof.Machine.execExtReadReply tile copy ix t s
  | .waitwRelease tile copy => Sys2Proof.Machine.execWaitwRelease tile copy s
  | .nop ix => Sys2Proof.Machine.execNop ix s
  | .drop ix => Sys2Proof.Machine.execDrop ix s
  | .dup ix => Sys2Proof.Machine.execDup ix s
  | .swap ix => Sys2Proof.Machine.execSwap ix s
  | .over ix => Sys2Proof.Machine.execOver ix s
  | .rot ix => Sys2Proof.Machine.execRot ix s
  | .dup2 ix => Sys2Proof.Machine.execDup2 ix s
  | .drop2 ix => Sys2Proof.Machine.execDrop2 ix s
  | .swap2 ix => Sys2Proof.Machine.execSwap2 ix s
  | .nip ix => Sys2Proof.Machine.execNip ix s
  | .pick ix k => Sys2Proof.Machine.execPick ix k s
  | .dropn ix m => Sys2Proof.Machine.execDropn ix m s
  | .loc ix k => Sys2Proof.Machine.execLoc ix k s
  | .setl ix k => Sys2Proof.Machine.execSetl ix k s
  | .lit ix ln => Sys2Proof.Machine.execLit ix ln s
  | .add ix => Sys2Proof.Machine.execAdd ix s
  | .sub ix => Sys2Proof.Machine.execSub ix s
  | .addv ix => Sys2Proof.Machine.execAddv ix s
  | .subv ix => Sys2Proof.Machine.execSubv ix s
  | .and ix => Sys2Proof.Machine.execAnd ix s
  | .or ix => Sys2Proof.Machine.execOr ix s
  | .xor ix => Sys2Proof.Machine.execXor ix s
  | .andn ix => Sys2Proof.Machine.execAndn ix s
  | .shl ix => Sys2Proof.Machine.execShl ix s
  | .shr ix => Sys2Proof.Machine.execShr ix s
  | .sar ix => Sys2Proof.Machine.execSar ix s
  | .rol ix => Sys2Proof.Machine.execRol ix s
  | .min ix => Sys2Proof.Machine.execMin ix s
  | .max ix => Sys2Proof.Machine.execMax ix s
  | .minu ix => Sys2Proof.Machine.execMinu ix s
  | .maxu ix => Sys2Proof.Machine.execMaxu ix s
  | .qadd ix => Sys2Proof.Machine.execQadd ix s
  | .qsub ix => Sys2Proof.Machine.execQsub ix s
  | .not ix => Sys2Proof.Machine.execNot ix s
  | .neg ix => Sys2Proof.Machine.execNeg ix s
  | .abs ix => Sys2Proof.Machine.execAbs ix s
  | .qneg ix => Sys2Proof.Machine.execQneg ix s
  | .qabs ix => Sys2Proof.Machine.execQabs ix s
  | .clz ix => Sys2Proof.Machine.execClz ix s
  | .ctz ix => Sys2Proof.Machine.execCtz ix s
  | .popc ix => Sys2Proof.Machine.execPopc ix s
  | .sxb ix => Sys2Proof.Machine.execSxb ix s
  | .sxh ix => Sys2Proof.Machine.execSxh ix s
  | .zxb ix => Sys2Proof.Machine.execZxb ix s
  | .zxh ix => Sys2Proof.Machine.execZxh ix s
  | .bswap ix => Sys2Proof.Machine.execBswap ix s
  | .cmp ix c n => Sys2Proof.Machine.execCmp ix c n s
  | .cmpz ix c n => Sys2Proof.Machine.execCmpz ix c n s
  | .plog ix f m n => Sys2Proof.Machine.execPlog ix f m n s
  | .pset ix n => Sys2Proof.Machine.execPset ix n s
  | .pclr ix n => Sys2Proof.Machine.execPclr ix n s
  | .pnot ix n => Sys2Proof.Machine.execPnot ix n s
  | .pushp ix n => Sys2Proof.Machine.execPushp ix n s
  | .popp ix n => Sys2Proof.Machine.execPopp ix n s
  | .sel ix n => Sys2Proof.Machine.execSel ix n s
  | .angsub ix => Sys2Proof.Machine.execAngsub ix s
  | .angadd ix => Sys2Proof.Machine.execAngadd ix s
  | .angcmp ix n => Sys2Proof.Machine.execAngcmp ix n s
  | .rdst ix => Sys2Proof.Machine.execRdst ix s
  | .wrst ix => Sys2Proof.Machine.execWrst ix s
  | .rdlc ix => Sys2Proof.Machine.execRdlc ix s
  | .wrlc ix => Sys2Proof.Machine.execWrlc ix s
  | .rdrc ix => Sys2Proof.Machine.execRdrc ix s
  | .wrrc ix => Sys2Proof.Machine.execWrrc ix s
  | .rdp ix => Sys2Proof.Machine.execRdp ix s
  | .wrp ix => Sys2Proof.Machine.execWrp ix s
  | .rddep ix => Sys2Proof.Machine.execRddep ix s
  | .rdrsp ix => Sys2Proof.Machine.execRdrsp ix s
  | .rdtile ix => Sys2Proof.Machine.execRdtile ix s
  | .mul ix => Sys2Proof.Machine.execMul ix s
  | .mulv ix => Sys2Proof.Machine.execMulv ix s
  | .mulhs ix => Sys2Proof.Machine.execMulhs ix s
  | .mulhu ix => Sys2Proof.Machine.execMulhu ix s
  | .mull ix => Sys2Proof.Machine.execMull ix s
  | .mullu ix => Sys2Proof.Machine.execMullu ix s
  | .qmul ix => Sys2Proof.Machine.execQmul ix s
  | .qmac ix => Sys2Proof.Machine.execQmac ix s
  | .div ix => Sys2Proof.Machine.execDiv ix s
  | .divu ix => Sys2Proof.Machine.execDivu ix s
  | .rem ix => Sys2Proof.Machine.execRem ix s
  | .remu ix => Sys2Proof.Machine.execRemu ix s
  | .fadd ix => Sys2Proof.Machine.execFadd ix s
  | .fsub ix => Sys2Proof.Machine.execFsub ix s
  | .fmul ix => Sys2Proof.Machine.execFmul ix s
  | .fma ix => Sys2Proof.Machine.execFma ix s
  | .fmin ix => Sys2Proof.Machine.execFmin ix s
  | .fmax ix => Sys2Proof.Machine.execFmax ix s
  | .fneg ix => Sys2Proof.Machine.execFneg ix s
  | .fabs ix => Sys2Proof.Machine.execFabs ix s
  | .fdiv ix => Sys2Proof.Machine.execFdiv ix s
  | .fsqrt ix => Sys2Proof.Machine.execFsqrt ix s
  | .cvtif ix => Sys2Proof.Machine.execCvtif ix s
  | .cvtuf ix => Sys2Proof.Machine.execCvtuf ix s
  | .cvtfi ix => Sys2Proof.Machine.execCvtfi ix s
  | .cvtqf ix => Sys2Proof.Machine.execCvtqf ix s
  | .cvtfq ix => Sys2Proof.Machine.execCvtfq ix s
  | .fcmp ix c n => Sys2Proof.Machine.execFcmp ix c n s
  | .ldb ix n => Sys2Proof.Machine.execLdb ix n s
  | .ldbu ix n => Sys2Proof.Machine.execLdbu ix n s
  | .ldh ix n => Sys2Proof.Machine.execLdh ix n s
  | .ldhu ix n => Sys2Proof.Machine.execLdhu ix n s
  | .ldw ix n => Sys2Proof.Machine.execLdw ix n s
  | .ldd ix n => Sys2Proof.Machine.execLdd ix n s
  | .stb ix n => Sys2Proof.Machine.execStb ix n s
  | .sth ix n => Sys2Proof.Machine.execSth ix n s
  | .stw ix n => Sys2Proof.Machine.execStw ix n s
  | .std ix n => Sys2Proof.Machine.execStd ix n s
  | .ldt ix m n => Sys2Proof.Machine.execLdt ix m n s
  | .stt ix m n => Sys2Proof.Machine.execStt ix m n s
  | .cmov ix d s_ => Sys2Proof.Machine.execCmov ix d s_ s
  | .crange ix d s_ => Sys2Proof.Machine.execCrange ix d s_ s
  | .cperm ix d s_ => Sys2Proof.Machine.execCperm ix d s_ s
  | .ctie ix d s_ => Sys2Proof.Machine.execCtie ix d s_ s
  | .cuntie ix d s_ => Sys2Proof.Machine.execCuntie ix d s_ s
  | .cread ix f n => Sys2Proof.Machine.execCread ix f n s
  | .cvoid ix n => Sys2Proof.Machine.execCvoid ix n s
  | .waitw ix => Sys2Proof.Machine.execWaitw ix s
  | .syncf ix => Sys2Proof.Machine.execSyncf ix s
  | .cairn ix => Sys2Proof.Machine.execCairn ix s
  | .mbxr ix n => Sys2Proof.Machine.execMbxr ix n s
  | .send ix n st => Sys2Proof.Machine.execSend ix n st s
  | .tfesub ix n => Sys2Proof.Machine.execTfesub ix n s
  | .br ix ln => Sys2Proof.Machine.execBr ix ln s
  | .bri ix => Sys2Proof.Machine.execBri ix s
  | .loop ix ln tail => Sys2Proof.Machine.execLoop ix ln tail s
  | .brc ix n => Sys2Proof.Machine.execBrc ix n s
  | .call ix n ln => Sys2Proof.Machine.execCall ix n ln s
  | .calli ix n => Sys2Proof.Machine.execCalli ix n s
  | .ret ix k => Sys2Proof.Machine.execRet ix k s
  | .trap ix n => Sys2Proof.Machine.execTrap ix n s
  | .retx ix => Sys2Proof.Machine.execRetx ix s
  | .scrubLine page b t => Sys2Proof.Machine.execScrubLine page b t s
  | .eccPwr w page v t => Sys2Proof.Machine.execEccPwr w page v t s
  | .bankWakeComplete page b t => Sys2Proof.Machine.execBankWakeComplete page b t s
  | .eccFlipCfg w page v t => Sys2Proof.Machine.execEccFlipCfg w page v t s
  | .wdgSvc w p key t => Sys2Proof.Machine.execWdgSvc w p key t s
  | .wdgCheckin w p task t => Sys2Proof.Machine.execWdgCheckin w p task t s
  | .remainingExpiry p t => Sys2Proof.Machine.execRemainingExpiry p t s
  | .wakePoint p t => Sys2Proof.Machine.execWakePoint p t s
  | .oscillatorFault o t => Sys2Proof.Machine.execOscillatorFault o t s
  | .sliceDue unit inst slice t => Sys2Proof.Machine.execSliceDue unit inst slice t s
  | .sliceEnd unit inst slice res wh at_ t => Sys2Proof.Machine.execSliceEnd unit inst slice res wh at_ t s
  | .retest unit inst slice res wh at_ t => Sys2Proof.Machine.execRetest unit inst slice res wh at_ t s
  | .bistReq w p unit tile t => Sys2Proof.Machine.execBistReq w p unit tile t s
  | .requestedPassComplete unit inst np nf ni wh at_ t => Sys2Proof.Machine.execRequestedPassComplete unit inst np nf ni wh at_ t s
  | .bistFuse w entry t => Sys2Proof.Machine.execBistFuse w entry t s
  | .wordAccept ix n toCore word launch t => Sys2Proof.Machine.execWordAccept ix n toCore word launch t s
  | .acknowledge ix n toCore t => Sys2Proof.Machine.execAcknowledge ix n toCore t s
  | .crossingHold ix n t => Sys2Proof.Machine.execCrossingHold ix n t s
  | .clockReturn ix n drops t => Sys2Proof.Machine.execClockReturn ix n drops t s
  | .sideReset ix n coreSide t => Sys2Proof.Machine.execSideReset ix n coreSide t s
  | .farSidePower ix n on t => Sys2Proof.Machine.execFarSidePower ix n on t s
  | .handshakeComplete ix n drops t => Sys2Proof.Machine.execHandshakeComplete ix n drops t s
  | .blockLock p same t => Sys2Proof.Machine.execBlockLock p same t s
  | .lockLoss p t => Sys2Proof.Machine.execLockLoss p t s
  | .helloTimeout p t => Sys2Proof.Machine.execHelloTimeout p t s
  | .helloSend p t => Sys2Proof.Machine.execHelloSend p t s
  | .hello f serial scope pport biv t => Sys2Proof.Machine.execHello f serial scope pport biv t s
  | .elect f pri serial epoch t => Sys2Proof.Machine.execElect f pri serial epoch t s
  | .electionSettles ix t => Sys2Proof.Machine.execElectionSettles ix t s
  | .links f rep t => Sys2Proof.Machine.execLinks f rep t s
  | .label f gen own rows agg t => Sys2Proof.Machine.execLabel f gen own rows agg t s
  | .routeComputation ix t => Sys2Proof.Machine.execRouteComputation ix t s
  | .route f serial row t => Sys2Proof.Machine.execRoute f serial row t s
  | .labelHoldExpiry ix l t => Sys2Proof.Machine.execLabelHoldExpiry ix l t s
  | .connect f far answer t => Sys2Proof.Machine.execConnect f far answer t s
  | .connectResend c t => Sys2Proof.Machine.execConnectResend c t s
  | .cell f cells t => Sys2Proof.Machine.execCell f cells t s
  | .normalFlush c t => Sys2Proof.Machine.execNormalFlush c t s
  | .credit f freed t => Sys2Proof.Machine.execCredit f freed t s
  | .creditSend c t => Sys2Proof.Machine.execCreditSend c t s
  | .ropeStatus f serial st t => Sys2Proof.Machine.execRopeStatus f serial st t s
  | .statusSend t => Sys2Proof.Machine.execStatusSend t s
  | .time f reply t2 t3 t => Sys2Proof.Machine.execTime f reply t2 t3 t s
  | .timeExchange t => Sys2Proof.Machine.execTimeExchange t s
  | .accReq f tile op addr data pois t => Sys2Proof.Machine.execAccReq f tile op addr data pois t s
  | .accRep f val pois t => Sys2Proof.Machine.execAccRep f val pois t s
  | .refuse f reason addr t => Sys2Proof.Machine.execRefuse f reason addr t s
  | .read32 w ix addr t => Sys2Proof.Machine.execRead32 w ix addr t s
  | .read64 w ix addr t => Sys2Proof.Machine.execRead64 w ix addr t s
  | .write32 w ix addr t => Sys2Proof.Machine.execWrite32 w ix addr t s
  | .write64 w ix addr t => Sys2Proof.Machine.execWrite64 w ix addr t s
  | .accessTimeout ix t => Sys2Proof.Machine.execAccessTimeout ix t s
  | .powerOnReset => Sys2Proof.Machine.execPowerOnReset s
  | .basecampReset cause t => Sys2Proof.Machine.execBasecampReset cause t s
  | .restart w t => Sys2Proof.Machine.execRestart w t s
  | .logFlush t => Sys2Proof.Machine.execLogFlush t s
  | .powerFail va vb store t => Sys2Proof.Machine.execPowerFail va vb store t s
  | .nonce b op t => Sys2Proof.Machine.execNonce b op t s
  | .bapRead b t => Sys2Proof.Machine.execBapRead b t s
  | .sourceUnblock ip t => Sys2Proof.Machine.execSourceUnblock ip t s
  | .bapWrite b t => Sys2Proof.Machine.execBapWrite b t s
  | .logRead b t => Sys2Proof.Machine.execLogRead b t s
  | .updOpen b t => Sys2Proof.Machine.execUpdOpen b t s
  | .eraseComplete t => Sys2Proof.Machine.execEraseComplete t s
  | .updData b t => Sys2Proof.Machine.execUpdData b t s
  | .updCommit b t => Sys2Proof.Machine.execUpdCommit b t s
  | .updActivate b t => Sys2Proof.Machine.execUpdActivate b t s
  | .bapWake b t => Sys2Proof.Machine.execBapWake b t s
  | .ptpSync ofs ptp t => Sys2Proof.Machine.execPtpSync ofs ptp t s
  | .syncTimeout t => Sys2Proof.Machine.execSyncTimeout t s
  | .confirm w t => Sys2Proof.Machine.execConfirm w t s
  | .raiseMin w t => Sys2Proof.Machine.execRaiseMin w t s
  | .abort w t => Sys2Proof.Machine.execAbort w t s
  | .tileUpdate w sec tile t => Sys2Proof.Machine.execTileUpdate w sec tile t s
  | .bivEnter w t => Sys2Proof.Machine.execBivEnter w t s
  | .bivWake w t => Sys2Proof.Machine.execBivWake w t s
  | .bivOff w t => Sys2Proof.Machine.execBivOff w t s
  | .bcpKeyData w ix word t => Sys2Proof.Machine.execBcpKeyData w ix word t s
  | .temperatureWarn ix v t => Sys2Proof.Machine.execTemperatureWarn ix v t s
  | .temperatureCrit ix v t => Sys2Proof.Machine.execTemperatureCrit ix v t s
  | .feedLoss feed v t => Sys2Proof.Machine.execFeedLoss feed v t s
  | .busLow vbus store t => Sys2Proof.Machine.execBusLow vbus store t s
  | .storageExhausted store => Sys2Proof.Machine.execStorageExhausted store s
  | .pfailEnd va vb store t => Sys2Proof.Machine.execPfailEnd va vb store t s
  | .railFault ix mv t => Sys2Proof.Machine.execRailFault ix mv t s
  | .sfpInsertion p present los txFault t => Sys2Proof.Machine.execSfpInsertion p present los txFault t s
  | .entrySequenceComplete t => Sys2Proof.Machine.execEntrySequenceComplete t s
  | .exitSequenceComplete t => Sys2Proof.Machine.execExitSequenceComplete t s
  | .holdUpReady store t => Sys2Proof.Machine.execHoldUpReady store t s
  | .counterOverflow tile ix t => Sys2Proof.Machine.execCounterOverflow tile ix t s
  | .nodeRoleStatus p t => Sys2Proof.Machine.execNodeRoleStatus p t s

end Sys2Proof.Machine
end

