-- ==== Sys2Proof/WellFormed.lean ====
section
/-! DEFINITION. Which commands name things the module has. -/

namespace Sys2Proof

open Machine

/-- Whether every operand of a command lies in the range that its row gives it: port, tile, cluster, slot and page numbers name something the module has, and payload fields fit their widths. -/
def Instr.wf (c : Instr) : Bool :=
  match c with
  | .pageReset w p _ => w.ok && decide (p < 65536)
  | .resetComplete p _ => decide (p < 0x942)
  | .pageEnable w p _ => w.ok && decide (p < 65536)
  | .pageDisable w p _ => w.ok && decide (p < 65536)
  | .pageLock w p _ _ => w.ok && decide (p < 65536)
  | .startUpComplete p _ => decide (p < 0x942)
  | .faultDetected p code _ => decide (p < 0x942) && decide (code < 256)
  | .blockRecoveryComplete p _ => decide (p < 0x942)
  | .retirement p code _ => decide (p < 0x942) && decide (code < 256)
  | .blockPowerChange p pw _ => decide (p < 0x942) && decide (pw < 3)
  | .registerWrite w p off _ _ _ _ => w.ok && decide (p < 65536) && decide (off < 4096)
  | .readAndClear w p off _ _ => w.ok && decide (p < 65536) && decide (off < 4096)
  | .linkCheckFail c link _ => decide (c < 16) && decide (link < 2)
  | .linkCheckPass c link _ => decide (c < 16) && decide (link < 2)
  | .qualifiedEdge n _ _ => decide (n < 64)
  | .countTransfer n _ => decide (n < 64)
  | .broadcast _ _ => true
  | .broadcastApply _ => true
  | .gapExceeded k _ => decide (k < 64)
  | .coastLimit k _ => decide (k < 64)
  | .stopTime k _ => decide (k < 64)
  | .tachoScan k _ _ => decide (k < 64)
  | .tachoLock k _ _ => decide (k < 64)
  | .lineLoss k _ => decide (k < 64)
  | .wptArm w c u _ _ => w.ok && decide (c < 16) && decide (u < 128)
  | .waypointFire c u _ => decide (c < 16) && decide (u < 128)
  | .deadlineFire c u _ => decide (c < 16) && decide (u < 128)
  | .powerApplied p _ _ _ _ _ => decide (p < 512)
  | .powerRefused p _ => decide (p < 512)
  | .powerRetry p _ => decide (p < 512)
  | .overload p _ => decide (p < 512)
  | .spwrLow _ _ => true
  | .spwrRecovery _ _ => true
  | .spwrLimit _ => true
  | .linkUp p _ _ _ => decide (p < 512)
  | .linkDown p _ => decide (p < 512)
  | .trainingTimeout p _ => decide (p < 512)
  | .attachTimeout p _ => decide (p < 512)
  | .configuringTimeout p _ => decide (p < 512)
  | .nodeSilent p _ => decide (p < 512)
  | .syncInstant p _ => decide (p < 512)
  | .sample p _ _ => decide (p < 512)
  | .gap p _ _ => decide (p < 512)
  | .syncReply p _ _ => decide (p < 512)
  | .ospStatus p _ _ => decide (p < 512)
  | .ident p _ _ => decide (p < 512)
  | .cal p _ _ => decide (p < 512)
  | .selftest p _ _ => decide (p < 512)
  | .frameEnd p _ _ => decide (p < 512)
  | .sptChCfg w p k _ _ => w.ok && decide (p < 512) && decide (k < 4)
  | .queryIdent w p _ => w.ok && decide (p < 512)
  | .queryCal w p _ => w.ok && decide (p < 512)
  | .queryStatus w p _ => w.ok && decide (p < 512)
  | .sptReqTest w p tid _ => w.ok && decide (p < 512) && decide (0 < tid) && decide (tid < 256)
  | .sync p _ _ _ => decide (p < 512)
  | .config p _ _ => decide (p < 512)
  | .query p _ _ => decide (p < 512)
  | .test p _ _ => decide (p < 512)
  | .nodeEmission p k _ => decide (p < 512) && decide (k < 4)
  | .commit w e _ _ => w.ok && decide (e < 4096)
  | .streamHandover e _ => decide (e < 4096)
  | .streamCell e _ => decide (e < 4096)
  | .captureOpen w e _ => w.ok && decide (e < 4096)
  | .captureClose w e _ => w.ok && decide (e < 4096)
  | .viewOn w c v _ => w.ok && decide (c < 16) && decide (v < 512)
  | .viewOff w c v _ => w.ok && decide (c < 16) && decide (v < 512)
  | .inOn w c i _ => w.ok && decide (c < 16) && decide (i < 512)
  | .inOff w c i _ => w.ok && decide (c < 16) && decide (i < 512)
  | .arsCommandComplete c => decide (c < 16)
  | .inputCell c i _ => decide (c < 16) && decide (i < 256)
  | .outputSample c v _ _ => decide (c < 16) && decide (v < 512)
  | .tfeSubmit w c desc _ => w.ok && decide (c < 16) && decide (desc < 131072)
  | .jobStart c _ => decide (c < 16)
  | .stagesPass c _ => decide (c < 16)
  | .stageFails c _ _ => decide (c < 16)
  | .slotOn w c i _ => w.ok && decide (c < 16) && decide (i < 4096)
  | .slotOff w c i _ => w.ok && decide (c < 16) && decide (i < 4096)
  | .blClear w c i _ => w.ok && decide (c < 16) && decide (i < 4096)
  | .frdTrigger w c group result _ => w.ok && decide (c < 16) && decide (group < 256) && decide (result < 131072)
  | .triggerService c _ _ => decide (c < 16)
  | .voteWord w o m _ _ _ => w.ok && decide (o < 64) && decide (m < 3)
  | .driveTick _ _ _ => true
  | .tripDelay o d _ => decide (o < 64) && decide (d < 2)
  | .releaseDelay o d _ => decide (o < 64) && decide (d < 2)
  | .memberNotFresh o m _ => decide (o < 64) && decide (m < 3)
  | .multiplierTimeout o _ => decide (o < 64)
  | .readbackMismatch o d _ => decide (o < 64) && decide (d < 2)
  | .openload o _ => decide (o < 64)
  | .pulseTest o d _ => decide (o < 64) && decide (d < 2)
  | .pulseTestEnd o d _ _ => decide (o < 64) && decide (d < 2)
  | .diverge o _ => decide (o < 64)
  | .peer d _ => decide (d < 2)
  | .driveBlockFault d _ => decide (d < 2)
  | .resetTrip w o _ => w.ok && decide (o < 64)
  | .clearFault w o _ => w.ok && decide (o < 64)
  | .ptNow w o _ => w.ok && decide (o < 64)
  | .soutByp w o byp _ => w.ok && decide (o < 64) && decide (byp < 8)
  | .soutFoReset w d mask _ => w.ok && decide (d < 2) && decide (mask < 65536)
  | .switchCurrentLimit o d _ => decide (o < 64) && decide (d < 2)
  | .cairnDue tile _ => decide (tile < 128)
  | .cairnCommit tile _ _ _ => decide (tile < 128)
  | .mismatch tile _ _ _ => decide (tile < 128)
  | .restoreComplete tile _ => decide (tile < 128)
  | .takeOver tile _ => decide (tile < 128)
  | .rotate w tile sp _ => w.ok && decide (tile < 128) && decide (sp < 128)
  | .update w tile sp _ => w.ok && decide (tile < 128) && decide (sp < 128)
  | .spareRefused tile _ => decide (tile < 128)
  | .modeHandOver w tile _ _ => w.ok && decide (tile < 128)
  | .drainComplete tile _ => decide (tile < 128)
  | .halt w tile copy _ => w.ok && decide (tile < 128) && decide (copy < 4)
  | .resume w tile copy _ => w.ok && decide (tile < 128) && decide (copy < 4)
  | .step w tile copy n _ => w.ok && decide (tile < 128) && decide (copy < 4) && decide (n < 16777216)
  | .debugRead w tile copy space idx _ => w.ok && decide (tile < 128) && decide (copy < 4) && decide (space < 4) && decide (idx < 16777216)
  | .debugWrite w tile copy space idx _ => w.ok && decide (tile < 128) && decide (copy < 4) && decide (space < 4) && decide (idx < 16777216)
  | .tileMboxIn w tile _ _ _ => w.ok && decide (tile < 128)
  | .tileMboxOut w tile _ => w.ok && decide (tile < 128)
  | .tileRq1 w tile _ => w.ok && decide (tile < 128)
  | .tileTag w tile granule _ _ => w.ok && decide (tile < 128) && decide (granule < 32768)
  | .exceptionEntry tile copy => decide (tile < 128) && decide (copy < 3)
  | .extReadReply tile copy _ _ => decide (tile < 128) && decide (copy < 3)
  | .waitwRelease tile copy => decide (tile < 128) && decide (copy < 3)
  | .nop i => decide (i.tile < 128) && decide (i.copy < 3)
  | .drop i => decide (i.tile < 128) && decide (i.copy < 3)
  | .dup i => decide (i.tile < 128) && decide (i.copy < 3)
  | .swap i => decide (i.tile < 128) && decide (i.copy < 3)
  | .over i => decide (i.tile < 128) && decide (i.copy < 3)
  | .rot i => decide (i.tile < 128) && decide (i.copy < 3)
  | .dup2 i => decide (i.tile < 128) && decide (i.copy < 3)
  | .drop2 i => decide (i.tile < 128) && decide (i.copy < 3)
  | .swap2 i => decide (i.tile < 128) && decide (i.copy < 3)
  | .nip i => decide (i.tile < 128) && decide (i.copy < 3)
  | .pick i k => decide (i.tile < 128) && decide (i.copy < 3) && decide (k < 16)
  | .dropn i m => decide (i.tile < 128) && decide (i.copy < 3) && decide (m < 16)
  | .loc i k => decide (i.tile < 128) && decide (i.copy < 3) && decide (k < 32)
  | .setl i k => decide (i.tile < 128) && decide (i.copy < 3) && decide (k < 32)
  | .lit i ln => decide (i.tile < 128) && decide (i.copy < 3) && decide (ln < 16)
  | .add i => decide (i.tile < 128) && decide (i.copy < 3)
  | .sub i => decide (i.tile < 128) && decide (i.copy < 3)
  | .addv i => decide (i.tile < 128) && decide (i.copy < 3)
  | .subv i => decide (i.tile < 128) && decide (i.copy < 3)
  | .and i => decide (i.tile < 128) && decide (i.copy < 3)
  | .or i => decide (i.tile < 128) && decide (i.copy < 3)
  | .xor i => decide (i.tile < 128) && decide (i.copy < 3)
  | .andn i => decide (i.tile < 128) && decide (i.copy < 3)
  | .shl i => decide (i.tile < 128) && decide (i.copy < 3)
  | .shr i => decide (i.tile < 128) && decide (i.copy < 3)
  | .sar i => decide (i.tile < 128) && decide (i.copy < 3)
  | .rol i => decide (i.tile < 128) && decide (i.copy < 3)
  | .min i => decide (i.tile < 128) && decide (i.copy < 3)
  | .max i => decide (i.tile < 128) && decide (i.copy < 3)
  | .minu i => decide (i.tile < 128) && decide (i.copy < 3)
  | .maxu i => decide (i.tile < 128) && decide (i.copy < 3)
  | .qadd i => decide (i.tile < 128) && decide (i.copy < 3)
  | .qsub i => decide (i.tile < 128) && decide (i.copy < 3)
  | .not i => decide (i.tile < 128) && decide (i.copy < 3)
  | .neg i => decide (i.tile < 128) && decide (i.copy < 3)
  | .abs i => decide (i.tile < 128) && decide (i.copy < 3)
  | .qneg i => decide (i.tile < 128) && decide (i.copy < 3)
  | .qabs i => decide (i.tile < 128) && decide (i.copy < 3)
  | .clz i => decide (i.tile < 128) && decide (i.copy < 3)
  | .ctz i => decide (i.tile < 128) && decide (i.copy < 3)
  | .popc i => decide (i.tile < 128) && decide (i.copy < 3)
  | .sxb i => decide (i.tile < 128) && decide (i.copy < 3)
  | .sxh i => decide (i.tile < 128) && decide (i.copy < 3)
  | .zxb i => decide (i.tile < 128) && decide (i.copy < 3)
  | .zxh i => decide (i.tile < 128) && decide (i.copy < 3)
  | .bswap i => decide (i.tile < 128) && decide (i.copy < 3)
  | .cmp i c n => decide (i.tile < 128) && decide (i.copy < 3) && decide (c < 8) && decide (n < 8)
  | .cmpz i c n => decide (i.tile < 128) && decide (i.copy < 3) && decide (c < 8) && decide (n < 8)
  | .plog i f m n => decide (i.tile < 128) && decide (i.copy < 3) && decide (f < 4) && decide (m < 8) && decide (n < 8)
  | .pset i n => decide (i.tile < 128) && decide (i.copy < 3) && decide (n < 8)
  | .pclr i n => decide (i.tile < 128) && decide (i.copy < 3) && decide (n < 8)
  | .pnot i n => decide (i.tile < 128) && decide (i.copy < 3) && decide (n < 8)
  | .pushp i n => decide (i.tile < 128) && decide (i.copy < 3) && decide (n < 8)
  | .popp i n => decide (i.tile < 128) && decide (i.copy < 3) && decide (n < 8)
  | .sel i n => decide (i.tile < 128) && decide (i.copy < 3) && decide (n < 8)
  | .angsub i => decide (i.tile < 128) && decide (i.copy < 3)
  | .angadd i => decide (i.tile < 128) && decide (i.copy < 3)
  | .angcmp i n => decide (i.tile < 128) && decide (i.copy < 3) && decide (n < 8)
  | .rdst i => decide (i.tile < 128) && decide (i.copy < 3)
  | .wrst i => decide (i.tile < 128) && decide (i.copy < 3)
  | .rdlc i => decide (i.tile < 128) && decide (i.copy < 3)
  | .wrlc i => decide (i.tile < 128) && decide (i.copy < 3)
  | .rdrc i => decide (i.tile < 128) && decide (i.copy < 3)
  | .wrrc i => decide (i.tile < 128) && decide (i.copy < 3)
  | .rdp i => decide (i.tile < 128) && decide (i.copy < 3)
  | .wrp i => decide (i.tile < 128) && decide (i.copy < 3)
  | .rddep i => decide (i.tile < 128) && decide (i.copy < 3)
  | .rdrsp i => decide (i.tile < 128) && decide (i.copy < 3)
  | .rdtile i => decide (i.tile < 128) && decide (i.copy < 3)
  | .mul i => decide (i.tile < 128) && decide (i.copy < 3)
  | .mulv i => decide (i.tile < 128) && decide (i.copy < 3)
  | .mulhs i => decide (i.tile < 128) && decide (i.copy < 3)
  | .mulhu i => decide (i.tile < 128) && decide (i.copy < 3)
  | .mull i => decide (i.tile < 128) && decide (i.copy < 3)
  | .mullu i => decide (i.tile < 128) && decide (i.copy < 3)
  | .qmul i => decide (i.tile < 128) && decide (i.copy < 3)
  | .qmac i => decide (i.tile < 128) && decide (i.copy < 3)
  | .div i => decide (i.tile < 128) && decide (i.copy < 3)
  | .divu i => decide (i.tile < 128) && decide (i.copy < 3)
  | .rem i => decide (i.tile < 128) && decide (i.copy < 3)
  | .remu i => decide (i.tile < 128) && decide (i.copy < 3)
  | .fadd i => decide (i.tile < 128) && decide (i.copy < 3)
  | .fsub i => decide (i.tile < 128) && decide (i.copy < 3)
  | .fmul i => decide (i.tile < 128) && decide (i.copy < 3)
  | .fma i => decide (i.tile < 128) && decide (i.copy < 3)
  | .fmin i => decide (i.tile < 128) && decide (i.copy < 3)
  | .fmax i => decide (i.tile < 128) && decide (i.copy < 3)
  | .fneg i => decide (i.tile < 128) && decide (i.copy < 3)
  | .fabs i => decide (i.tile < 128) && decide (i.copy < 3)
  | .fdiv i => decide (i.tile < 128) && decide (i.copy < 3)
  | .fsqrt i => decide (i.tile < 128) && decide (i.copy < 3)
  | .cvtif i => decide (i.tile < 128) && decide (i.copy < 3)
  | .cvtuf i => decide (i.tile < 128) && decide (i.copy < 3)
  | .cvtfi i => decide (i.tile < 128) && decide (i.copy < 3)
  | .cvtqf i => decide (i.tile < 128) && decide (i.copy < 3)
  | .cvtfq i => decide (i.tile < 128) && decide (i.copy < 3)
  | .fcmp i c n => decide (i.tile < 128) && decide (i.copy < 3) && decide (c < 8) && decide (n < 8)
  | .ldb i n => decide (i.tile < 128) && decide (i.copy < 3) && decide (n < 16)
  | .ldbu i n => decide (i.tile < 128) && decide (i.copy < 3) && decide (n < 16)
  | .ldh i n => decide (i.tile < 128) && decide (i.copy < 3) && decide (n < 16)
  | .ldhu i n => decide (i.tile < 128) && decide (i.copy < 3) && decide (n < 16)
  | .ldw i n => decide (i.tile < 128) && decide (i.copy < 3) && decide (n < 16)
  | .ldd i n => decide (i.tile < 128) && decide (i.copy < 3) && decide (n < 16)
  | .stb i n => decide (i.tile < 128) && decide (i.copy < 3) && decide (n < 16)
  | .sth i n => decide (i.tile < 128) && decide (i.copy < 3) && decide (n < 16)
  | .stw i n => decide (i.tile < 128) && decide (i.copy < 3) && decide (n < 16)
  | .std i n => decide (i.tile < 128) && decide (i.copy < 3) && decide (n < 16)
  | .ldt i m n => decide (i.tile < 128) && decide (i.copy < 3) && decide (m < 16) && decide (n < 16)
  | .stt i m n => decide (i.tile < 128) && decide (i.copy < 3) && decide (m < 16) && decide (n < 16)
  | .cmov i d s_ => decide (i.tile < 128) && decide (i.copy < 3) && decide (d < 16) && decide (s_ < 16)
  | .crange i d s_ => decide (i.tile < 128) && decide (i.copy < 3) && decide (d < 16) && decide (s_ < 16)
  | .cperm i d s_ => decide (i.tile < 128) && decide (i.copy < 3) && decide (d < 16) && decide (s_ < 16)
  | .ctie i d s_ => decide (i.tile < 128) && decide (i.copy < 3) && decide (d < 16) && decide (s_ < 16)
  | .cuntie i d s_ => decide (i.tile < 128) && decide (i.copy < 3) && decide (d < 16) && decide (s_ < 16)
  | .cread i f n => decide (i.tile < 128) && decide (i.copy < 3) && decide (f < 8) && decide (n < 16)
  | .cvoid i n => decide (i.tile < 128) && decide (i.copy < 3) && decide (n < 16)
  | .waitw i => decide (i.tile < 128) && decide (i.copy < 3)
  | .syncf i => decide (i.tile < 128) && decide (i.copy < 3)
  | .cairn i => decide (i.tile < 128) && decide (i.copy < 3)
  | .mbxr i n => decide (i.tile < 128) && decide (i.copy < 3) && decide (n < 8)
  | .send i n st => decide (i.tile < 128) && decide (i.copy < 3) && decide (n < 16) && decide (st < 16)
  | .tfesub i n => decide (i.tile < 128) && decide (i.copy < 3) && decide (n < 16)
  | .br i ln => decide (i.tile < 128) && decide (i.copy < 3) && decide (ln < 16)
  | .bri i => decide (i.tile < 128) && decide (i.copy < 3)
  | .loop i ln tail => decide (i.tile < 128) && decide (i.copy < 3) && decide (ln < 16) && decide (tail < 9)
  | .brc i n => decide (i.tile < 128) && decide (i.copy < 3) && decide (n < 16)
  | .call i n ln => decide (i.tile < 128) && decide (i.copy < 3) && decide (n < 64) && decide (ln < 16)
  | .calli i n => decide (i.tile < 128) && decide (i.copy < 3) && decide (n < 64)
  | .ret i k => decide (i.tile < 128) && decide (i.copy < 3) && decide (k < 64)
  | .trap i n => decide (i.tile < 128) && decide (i.copy < 3) && decide (n < 256)
  | .retx i => decide (i.tile < 128) && decide (i.copy < 3)
  | .scrubLine page b _ => eccBank page b
  | .eccPwr w page _ _ => w.ok && eccPage page
  | .bankWakeComplete page b _ => eccBank page b
  | .eccFlipCfg w page _ _ => w.ok && eccPage page
  | .wdgSvc w p key _ => w.ok && wdgPage p && decide (key < 65536)
  | .wdgCheckin w p task _ => w.ok && wdgPage p && decide (task < 16)
  | .remainingExpiry p _ => wdgPage p
  | .wakePoint p _ => wdgPage p
  | .oscillatorFault o _ => decide (o < 17)
  | .sliceDue unit inst _ _ => decide (unit < 256) && decide (inst < 65536)
  | .sliceEnd unit inst _ _ _ _ _ => decide (unit < 256) && decide (inst < 65536)
  | .retest unit inst _ _ _ _ _ => decide (unit < 256) && decide (inst < 65536)
  | .bistReq w p unit tile _ => w.ok && bistPg p && decide (unit < 256) && decide (tile < 128)
  | .requestedPassComplete unit inst _ _ _ _ _ _ => decide (unit < 256) && decide (inst < 65536)
  | .bistFuse w entry _ => w.ok && decide (entry < 1024)
  | .wordAccept i n _ word _ _ => decide (i < 7) && decide (n < 32) && word.ok
  | .acknowledge i n _ _ => decide (i < 7) && decide (n < 32)
  | .crossingHold i n _ => decide (i < 7) && decide (n < 32)
  | .clockReturn i n _ _ => decide (i < 7) && decide (n < 32)
  | .sideReset i n _ _ => decide (i < 7) && decide (n < 32)
  | .farSidePower i n _ _ => decide (i < 7) && decide (n < 32)
  | .handshakeComplete i n _ _ => decide (i < 7) && decide (n < 32)
  | .blockLock p _ _ => decide (p < 16)
  | .lockLoss p _ => decide (p < 16)
  | .helloTimeout p _ => decide (p < 16)
  | .helloSend p _ => decide (p < 16)
  | .hello f _ _ _ _ _ => decide (f.port < 16)
  | .elect f _ _ _ _ => decide (f.port < 16)
  | .electionSettles i _ => decide (i < 6)
  | .links f _ _ => decide (f.port < 16)
  | .label f _ _ _ _ _ => decide (f.port < 16)
  | .routeComputation i _ => decide (i < 6)
  | .route f _ _ _ => decide (f.port < 16)
  | .labelHoldExpiry i l _ => decide (i < 6) && decide (l < 256)
  | .connect f _ _ _ => decide (f.port < 16)
  | .connectResend c _ => decide (c < 4096)
  | .cell f _ _ => decide (f.port < 16)
  | .normalFlush c _ => decide (c < 4096)
  | .credit f _ _ => decide (f.port < 16)
  | .creditSend c _ => decide (c < 4096)
  | .ropeStatus f _ _ _ => decide (f.port < 16)
  | .statusSend _ => true
  | .time f _ _ _ _ => decide (f.port < 16)
  | .timeExchange _ => true
  | .accReq f _ op _ _ _ _ => decide (f.port < 16) && decide (0 < op) && decide (op < 5)
  | .accRep f _ _ _ => decide (f.port < 16)
  | .refuse f _ _ _ => decide (f.port < 16)
  | .read32 w i addr _ => w.ok && decide (i < 4) && decide (addr < 2 ^ 40)
  | .read64 w i addr _ => w.ok && decide (i < 4) && decide (addr < 2 ^ 40)
  | .write32 w i addr _ => w.ok && decide (i < 4) && decide (addr < 2 ^ 40)
  | .write64 w i addr _ => w.ok && decide (i < 4) && decide (addr < 2 ^ 40)
  | .accessTimeout i _ => decide (i < 4)
  | .powerOnReset => true
  | .basecampReset cause _ => decide (cause < 16)
  | .restart w _ => w.ok
  | .logFlush _ => true
  | .powerFail _ _ _ _ => true
  | .nonce _ op _ => decide (op < 256)
  | .bapRead _ _ => true
  | .sourceUnblock _ _ => true
  | .bapWrite _ _ => true
  | .logRead _ _ => true
  | .updOpen _ _ => true
  | .eraseComplete _ => true
  | .updData _ _ => true
  | .updCommit _ _ => true
  | .updActivate _ _ => true
  | .bapWake _ _ => true
  | .ptpSync _ _ _ => true
  | .syncTimeout _ => true
  | .confirm w _ => w.ok
  | .raiseMin w _ => w.ok
  | .abort w _ => w.ok
  | .tileUpdate w sec tile _ => w.ok && decide (sec < 256) && decide (tile < 128)
  | .bivEnter w _ => w.ok
  | .bivWake w _ => w.ok
  | .bivOff w _ => w.ok
  | .bcpKeyData w i word _ => w.ok && decide (i < 8) && decide (word < 2 ^ 32)
  | .temperatureWarn i _ _ => decide (i < 40)
  | .temperatureCrit i _ _ => decide (i < 40)
  | .feedLoss feed _ _ => decide (feed < 2)
  | .busLow _ _ _ => true
  | .storageExhausted _ => true
  | .pfailEnd _ _ _ _ => true
  | .railFault i _ _ => decide (i < 32)
  | .sfpInsertion p _ _ _ _ => decide (p < 16)
  | .entrySequenceComplete _ => true
  | .exitSequenceComplete _ => true
  | .holdUpReady _ _ => true
  | .counterOverflow tile i _ => decide (tile < 128) && decide (i < 6)
  | .nodeRoleStatus p _ => decide (p < 512)

end Sys2Proof
end

