-- ==== Sys2Proof/Safety.lean ====
section
/-! DEFINITION. What statements say of states: canonical forms, a module held in reset, a module in which nothing follows of itself, that a command completes, and what it leaves untouched. -/

namespace Sys2Proof.Machine

/-- The canonical form of the memory: rising addresses, no entry equal to what an unlisted address reads as. -/
def Memory.wf (m : List Host.Cell) : Bool := swf zero8 m

/-- The canonical form of the memory and of what goes with it: check bits, poison, tags, symbol errors of DRAM. -/
def State.memCanon (s : State) : Bool :=
  Memory.wf s.mem && swf zeroN s.chk && swf zeroN s.pois && swf zeroN s.tags && swf (fun _ => []) s.dramErr

/-- The canonical form of the registers. -/
def State.regsCanon (s : State) : Bool := swf regDefault s.regs

/-- No power-on reset waits. -/
def State.noReset (s : State) : Bool := s.pending.all fun c => match c with
  | .powerOnReset => false
  | _ => true

/-- Nothing of the module moves of itself and no wake input is armed: outputs of tiles, requests to itself, datagrams, stored writes, tile updates, control lines of rings and held slices are done, and the module is not held in reset. -/
def State.calm (s : State) : Bool :=
  !s.bcp.held && (s.tiles.all fun q => q.2.outQ.isEmpty) && s.rope.self.isEmpty && s.bcp.jobs.isEmpty && !s.bcp.step5 &&
    s.bcp.tupd.isNone && s.ringWait.isEmpty && (s.bist.all fun q => q.2.held.isEmpty) && !s.getB (pgBcp 5) 0x048 31

/-- The distance of two rational numbers. -/
def ratDist (x y : Rat) : Rat := if x ≤ y then y - x else x - y

/-- A module held in reset whose queue holds no power-on reset: nothing it has waiting can start it. -/
def State.shut (s : State) : Prop := s.bcp.held = true ∧ s.noReset = true

/-- The command completes: exec answers a next state, and of that state `P` holds. -/
def Completes (c : Instr) (s : State) (P : State → Prop) : Prop := ∃ u, exec c s = .next u ∧ P u

/-- Registers changed on no page but those of `ps`. -/
def RegsOnly (ps : List Nat) (s u : State) : Prop := ∀ q off, q ∉ ps → off < 4096 → u.rd q off = s.rd q off

/-- The kinds of page whose chapters add nothing to spec/02 R41 for ENABLE and start-up. -/
def plainKind (k : Kind) : Bool := k ∈ [Kind.bcp, .pwr, .bistM, .eccD, .xng, .clu, .ars, .frd, .eccC, .bistC, .eccT, .team]

/-- The kinds of page whose chapters add nothing to spec/02 R41, R42 for faults and RESET either. -/
def plainBlock (k : Kind) : Bool := k ∈ [Kind.pwr, .eccD, .xng, .clu, .eccC, .eccT]

/-- Whether writer `w` reaches page `p`, at (k, i), as an ordinary page (spec/02 R50, spec/10 R289, R311). -/
def State.mayWrite (s : State) (w : Writer) (p : Nat) (k : Kind) : Bool :=
  s.routePage w p == p && !(k.owner == 0x03 && fromOuter w) && !s.soutForeign w k none

/-- A frame from rope is for this module: it carries no labels, or the module is READY and its path is the module's own; `circ` where it is of a circuit (spec/19 R502, R511, R513). -/
def State.ropeHere (s : State) (f : RFrame) (circ : Bool) : Bool :=
  f.dpath.isEmpty || (s.dstate == 4 && s.ropeRoute f.dpath circ == .here)

/-- A frame from rope goes on through this module: where it names a port, while the module is READY (spec/19 R513). -/
def State.ropeOn (s : State) (f : RFrame) (circ : Bool) : Option Nat :=
  if f.dpath.isEmpty || s.dstate != 4 then none
  else match s.ropeRoute f.dpath circ with
    | .port r => some r
    | _ => none

/-- A frame from rope that is not for the module at the end of its link finds the module not READY, or no route (spec/19 R511, R513). -/
def State.ropeLost (s : State) (f : RFrame) (circ : Bool) : Bool :=
  !f.dpath.isEmpty && (s.dstate != 4 || s.ropeRoute f.dpath circ == .nowhere)

/-- The port on which a request that came on a port is answered: the one its path's route names, or the one it came on where no route stands; none where the path leads to this module. -/
def State.answerPort (s : State) (f : RFrame) : Option Nat :=
  if s.dstate ≠ 4 then some f.port
  else match s.ropeRoute f.spath false with
    | .port r => some r
    | .nowhere => some f.port
    | _ => none

/-- A datagram is looked at: its source is not blocked, its version is the protocol's, and RECOVERY answers its operation (spec/20 R533, R544, R547). -/
def State.bapHeard (s : State) (b : Bap) (op : Nat) : Bool :=
  !s.srcBlocked b.ip && b.ver == 0x10 && !(s.inRecovery && !decide (5 ≤ op ∧ op ≤ 8))

/-- The drops of a source in the last second (spec/20 R547). -/
def State.bapDrops (s : State) (ip : Nat) : List Nat := (s.srcIp ip).drops.filter fun d => decide (s.now < d + cyclesPerS)

/-- The module with a datagram's access accepted as its only one, under a key slot whose last SEQ it becomes. -/
def State.bapTaken (s : State) (b : Bap) (write : Bool) : State :=
  { s with bcp := { s.bcp with keys := setAt s.bcp.keys b.key { s.bcp.keys.getD b.key {} with last := some b.seq }, jobs := [{ b := b, write := write }] } }

/-- The last thing the module sent, where it is an OSP record: port, TYPE, FLAGS, SEQ, ARG, body. -/
def State.lastOsp (s : State) : Option (Nat × Nat × Nat × Nat × Nat × List Byte) :=
  match s.out.getLast? with
  | some (.osp p ty fl sq arg body _) => some (p, ty, fl, sq, arg, body)
  | _ => none

/-- The turn of unit `un` of a cluster in the cycle `t`: the lower units that fire in it have acted (spec/03 R93), and the unit's own first evaluation, where it fell in an earlier cycle, is taken (R86). -/
def State.wptTurn (s : State) (c un t : Nat) : State :=
  ((List.range un).foldl (fun s v => (s.wptCycle c v t).2) (s.upTo t)).wptFirst c un t

/-- No lower unit that fires in the cycle `t` wakes the module. -/
def State.wptCalm (s : State) (c un t : Nat) : Bool :=
  !((List.range un).foldl (fun (r : Bool × State) v =>
    let w := r.2.wptCycle c v t
    (r.1 || w.1, w.2)) (false, s.upTo t)).1

/-- The copy that an issue names. -/
def State.copyOf (s : State) (i : Issue) : KCopy := (s.tileH i.tile).copies.getD i.copy {}

/-- Nothing is under way in a copy: no load in its shadow, no external read, no division in flight or suspended, no pending exception, repeat, wait, STEP or hardware loop, no memory wait that still delays issue. -/
def KCopy.settled (k : KCopy) : Bool :=
  k.shadow.isEmpty && k.ext.isEmpty && k.divI.isNone && k.divF.isNone && k.latI.isNone && k.latF.isNone && k.arith.isNone && k.remain.isNone &&
    k.waiting.isNone && k.steps.isNone && k.stalls.isEmpty && !k.la

/-- A copy without what fetch and stores keep beside its program's state (line buffers and requests, the code of a covered redirect, the loop capture, the BTB, the store buffer; how PC was reached) and without the cycles that its results and itself are held to (spec/13 R387–R403). -/
def KCopy.bare (k : KCopy) : KCopy :=
  let idle := fun (e : DivE) => { e with ready := 0 }
  { k with
    lines := [], line := none, cov := none, loopB := none, btb := [], sb := [], clk := 0, lat := [], stalls := [], reqs := [], lcAt := none, fell := false, extWait := false
    arith := k.arith.map fun a => { a with due := 0 }, ext := k.ext.map fun e => { e with iss := 0 }
    divI := k.divI.map idle, divF := k.divF.map idle, latI := k.latI.map idle, latF := k.latF.map idle }

/-- The record of the copy an issue names as its bundle of the op `o` alone executes. -/
def State.soleX (s : State) (i : Issue) (o : KOp) : KX :=
  let x := s.kx i.tile i.copy
  { x with next := (x.k.pc + 2 * (i.lits.length + 1)) % 2 ^ 40, lit := ({ lits := i.lits } : Bundle).literal ((o.ln).getD 0) }

/-- The state without the cycles in which the port of a tile's memory is held (spec/13 R391). -/
def State.portless (s : State) (t : Nat) : State := s.setTile t { s.tileH t with port := [] }

/-- Fetch finds no fault and changes nothing but what the copy holds of its code and the cycles of the port: no bank is waited for, no word corrected, no input journalled. -/
def KX.fetches (x : KX) (n : Nat) : Bool :=
  let r := x.fetchFault n
  r.1.isNone && decide (r.2.s.portless x.t = x.s.portless x.t)

/-- The stack check passes with neither spill nor fill: nothing changes but the cycle of issue. -/
def KX.resident (y : KX) (o : KOp) : Bool := match y.stackStage [o] with
  | .ok z => decide ({ z with iss := y.iss } = y)
  | .error _ => false

/-- The issue is a bundle of the op `o` alone, without guard and repeat, and its copy executes it with nothing else to do: the copy runs with nothing under way, no event is due, fetch finds no fault, the bundle is legal, the stack check passes without a spill or fill, no journal is replayed, and no counter of the PMC is enabled (spec/11 R337–R342, spec/12 R362, spec/14 R419). -/
def State.solo (s : State) (i : Issue) (o : KOp) : Bool :=
  let x := s.kx i.tile i.copy
  let b : Bundle := { lits := i.lits, ops := [o] }
  let y := { s.soleX i o with lit := 0 }
  i.before.isEmpty && i.guard.isNone && i.rep.isNone && s.kCan i.tile i.copy && x.k.settled && x.async.isNone && (!x.chk || (s.tileH i.tile).replay.isEmpty) &&
    !s.enabled (pgPmc i.tile) && x.fetches (2 * b.parcels) && !y.illegal b && !y.illegalOp b && y.resident o

/-- A copy with words written at some positions, another DEPTH and PC; LOW follows TOP (spec/11 R330). -/
def KCopy.after (k : KCopy) (depth : Nat) (ws : List (Nat × Nat × Bool)) (pc : Nat) : KCopy :=
  let f := ws.foldl (fun f w => sput fileZero (w.1 % 256) (w.2.1 % 2 ^ 32, w.2.2) f) k.file
  ({ k with file := f, depth := depth, pc := pc } : KCopy).lowFollow

/-- The issue's copy becomes `k`, but for what fetch and stores keep beside its program's state and for cycles; the tile's other copies stay. -/
def CopyIs (i : Issue) (s u : State) (k : KCopy) : Prop :=
  (u.copyOf i).bare = k.bare ∧ (u.tileH i.tile).copies = setAt (s.tileH i.tile).copies i.copy (u.copyOf i)

/-- The frame of a bundle that works in its copy alone: the copy becomes `k`; other copies and tiles, the tile's queues and logs, memory, all registers but the tile's and all else stay. -/
def Took (i : Issue) (s u : State) (k : KCopy) : Prop :=
  CopyIs i s u k ∧
  ({ u.tileH i.tile with copies := [], bundles := 0, due := none, bound := none, lastDue := 0, port := [] } : TileH) =
    { s.tileH i.tile with copies := [], bundles := 0, due := none, bound := none, lastDue := 0, port := [] } ∧
  (∀ x, x ≠ i.tile → u.tileH x = s.tileH x) ∧ RegsOnly [pgTile i.tile] s u ∧ { u with regs := s.regs, tiles := s.tiles, hot := s.hot } = s

/-- The sticky bits of STATUS that an operation's flags set (spec/11 R350). -/
def FFlags.bits (f : FFlags) : Nat := b2n f.sat * 2 ^ 8 + b2n f.nv * 2 ^ 9 + b2n f.dz * 2 ^ 10 + b2n f.ovf * 2 ^ 11 + b2n f.uf * 2 ^ 12 + b2n f.nx * 2 ^ 13

/-- A copy that an operation with flags leaves: they are sticky in STATUS, and an invalid operation leaves an FPINVALID exception pending (spec/12 R368, spec/14 R416). -/
def KCopy.noting (k : KCopy) (old : KCopy) (f : FFlags) (nv : Bool) : KCopy :=
  { k with status := old.status ||| f.bits, arith := if nv then some ⟨10, old.pc, false, 0⟩ else none }

/-- An exception of a cause can be entered with the vector entry `g`: the return stack has room for the frame of 48 bytes that C1 permits, and the entry of the cause is usable and stands apart from the frame (spec/14 R420, R421). -/
def KX.canEnter (x : KX) (cause : Nat) (g : Cap) : Bool :=
  let r := x.k.rsp - 48
  let l := x.vecAddr cause / 64 * 64
  decide (48 ≤ x.k.rsp) && decide ((x.k.cap 1).base + 4 * x.k.top ≤ r) && (decide (l + 64 ≤ r) || decide (x.k.rsp ≤ l)) &&
    (match x.c1Check r 48 true with
      | .ok _ => true
      | .error _ => false) &&
    (match (x.vector cause).1 with
      | .ok v => v == g
      | .error _ => false)

end Sys2Proof.Machine
end

