-- ==== Sys2Proof/Certificates/Slice0/Obligations.lean ====
section
/-! DEFINITION. The statements about the model. -/

open Sys2Proof Sys2Proof.Machine

/-- On a page of a kind whose chapter adds nothing: with no write of PAGE_CTRL waiting on it, ENABLE = 1 takes an OFF page with a powered block to STARTING, START_UP_COMPLETE takes it to READY and raises UP, ENABLE = 0 with LOCK = 0 and no self-test slice running on its unit takes STARTING, READY or FAULT to OFF, keeps FAULT_CODE and raises DOWN when READY fell; no other page and nothing else of the module changes. -/
def Obligations.PageEnable : Prop :=
    (∀ (w : Writer) (p t : Nat) (k : Kind) (i : Nat) (s : State), (Instr.pageEnable w p t).wf = true → s.calm = true → pageAt p = some (k, i) → (s.pageH p).ctrl = [] → plainKind k = true → s.headerOnly k i = false → s.mayWrite w p k = true → s.powered p = true → s.locked p = false → (s.pageH p).resetting = false → s.isOff p = true →
      Completes (.pageEnable w p t) s fun u => 
        u.fld p 0x008 3 0 = 2 ∧
        u.getB p 0x00C 0 = true ∧
        u.now = max s.now t ∧
        RegsOnly [p] s u ∧
        { u with regs := s.regs, now := s.now, hot := s.hot } = s :)
    ∧ (∀ (p t : Nat) (k : Kind) (i : Nat) (s : State), (Instr.startUpComplete p t).wf = true → s.calm = true → pageAt p = some (k, i) → plainKind k = true → s.busy p = true → s.ready p = false → s.faulted p = false → s.retired p = false → (s.pageH p).resetting = false → s.powered p = true → s.enabled p = true →
      Completes (.startUpComplete p t) s fun u => 
        u.fld p 0x008 3 0 = 1 ∧
        u.getB p 0x010 0 = true ∧
        u.now = max s.now t ∧
        RegsOnly [p] s u ∧
        { u with regs := s.regs, now := s.now, hot := s.hot } = s :)
    ∧ (∀ (w : Writer) (p t : Nat) (k : Kind) (i : Nat) (s : State), (Instr.pageDisable w p t).wf = true → s.calm = true → pageAt p = some (k, i) → (s.pageH p).ctrl = [] → (s.upTo t).unitRuns k i = false → plainKind k = true → s.mayWrite w p k = true → s.locked p = false → (s.pageH p).resetting = false → s.isOff p = false → s.retired p = false →
      Completes (.pageDisable w p t) s fun u => 
        u.fld p 0x008 3 0 = 0 ∧
        u.fld p 0x008 15 8 = s.fld p 0x008 15 8 ∧
        u.getB p 0x00C 0 = false ∧
        u.getB p 0x010 1 = (s.getB p 0x010 1 || s.ready p) ∧
        u.now = max s.now t ∧
        RegsOnly [p] s u ∧
        { u with regs := s.regs, now := s.now, hot := s.hot } = s :)

/-- On a page of a kind whose chapter adds nothing, with the registers in canonical form: RESET written with LOCK = 0 and no write of PAGE_CTRL waiting puts every register at its reset value but those a RESET keeps and ECC_STAT, which holds the place of the scrubber, shows BUSY, and marks the reset; its completion takes the page to OFF, and on to STARTING where ENABLE is 1 after the reset. -/
def Obligations.PageReset : Prop :=
    (∀ (w : Writer) (p t : Nat) (k : Kind) (i : Nat) (s : State), (Instr.pageReset w p t).wf = true → s.calm = true → pageAt p = some (k, i) → (s.pageH p).ctrl = [] → plainBlock k = true → s.mayWrite w p k = true → s.regsCanon = true → s.locked p = false → s.retired p = false →
      Completes (.pageReset w p t) s fun u => 
        u.fld p 0x008 3 0 = 2 ∧
        (u.pageH p).resetting = true ∧
        (∀ off, off < 4096 → off ≠ 0x008 → keepsAtReset k i off = false → (k ∈ [Kind.eccC, .eccD, .eccT] → off ≠ 0x04C) → u.rd p off = (regDefault (regKey p off)).toNat) ∧
        (∀ q, q ≠ p → u.pageH q = s.pageH q) ∧
        u.now = max s.now t ∧
        RegsOnly [p] s u ∧
        { u with regs := s.regs, now := s.now, hot := s.hot, pages := s.pages } = s :)
    ∧ (∀ (p t : Nat) (k : Kind) (i : Nat) (s : State), (Instr.resetComplete p t).wf = true → s.calm = true → pageAt p = some (k, i) → plainBlock k = true → (s.pageH p).resetting = true → s.busy p = true → s.ready p = false → s.faulted p = false → s.retired p = false → s.enabled p = false →
      Completes (.resetComplete p t) s fun u => 
        u.fld p 0x008 3 0 = 0 ∧
        (u.pageH p).resetting = false ∧
        (∀ q, q ≠ p → u.pageH q = s.pageH q) ∧
        u.now = max s.now t ∧
        RegsOnly [p] s u ∧
        { u with regs := s.regs, now := s.now, hot := s.hot, pages := s.pages } = s :)
    ∧ (∀ (p t : Nat) (k : Kind) (i : Nat) (s : State), (Instr.resetComplete p t).wf = true → s.calm = true → pageAt p = some (k, i) → plainBlock k = true → s.headerOnly k i = false → s.powered p = true → (s.pageH p).resetting = true → s.busy p = true → s.ready p = false → s.faulted p = false → s.retired p = false → s.enabled p = true →
      Completes (.resetComplete p t) s fun u => 
        u.fld p 0x008 3 0 = 2 ∧
        (u.pageH p).resetting = false ∧
        (∀ q, q ≠ p → u.pageH q = s.pageH q) ∧
        u.now = max s.now t ∧
        RegsOnly [p] s u ∧
        { u with regs := s.regs, now := s.now, hot := s.hot, pages := s.pages } = s :)

/-- On a page of a kind whose chapter adds nothing: a fault takes STARTING or READY to FAULT with its FAULT_CODE and stages log record 0x0030; a recovery takes FAULT to STARTING; a retirement sets FAULT and RETIRED and stages record 0x0031; a change of block power to OFF or RETENTION takes STARTING, READY or FAULT to OFF; a link check that fails takes a CLU page to FAULT, names the link in FAULT_CODE and CLU_LINKS and counts it, and the pass that leaves no failed link takes it to STARTING. -/
def Obligations.PageFault : Prop :=
    (∀ (p code t : Nat) (k : Kind) (i : Nat) (s : State), (Instr.faultDetected p code t).wf = true → s.calm = true → pageAt p = some (k, i) → plainBlock k = true → s.faulted p = false → s.retired p = false → (s.pageH p).resetting = false → (s.ready p || s.busy p) = true → s.log.staged.length < 31 → s.fld (pgBcp 1) 0x048 1 0 ≤ 2 →
      Completes (.faultDetected p code t) s fun u => 
        u.fld p 0x008 3 0 = 4 ∧
        u.fld p 0x008 15 8 = code ∧
        u.getB p 0x010 2 = true ∧
        ((u.log.staged.drop s.log.staged.length).map (fun r => (r.code, r.sev, r.source, r.data)) = [(0x0030, 2, p, code)]) ∧
        u.now = max s.now t ∧
        RegsOnly [p, pgBcp 1] s u ∧
        { u with regs := s.regs, now := s.now, hot := s.hot, log := s.log } = s :)
    ∧ (∀ (p t : Nat) (k : Kind) (i : Nat) (s : State), (Instr.blockRecoveryComplete p t).wf = true → s.calm = true → pageAt p = some (k, i) → plainBlock k = true → s.faulted p = true → s.retired p = false → (s.pageH p).resetting = false →
      Completes (.blockRecoveryComplete p t) s fun u => 
        u.fld p 0x008 3 0 = 2 ∧
        u.now = max s.now t ∧
        RegsOnly [p] s u ∧
        { u with regs := s.regs, now := s.now, hot := s.hot } = s :)
    ∧ (∀ (p code t : Nat) (k : Kind) (i : Nat) (s : State), (Instr.retirement p code t).wf = true → s.calm = true → pageAt p = some (k, i) → plainBlock k = true → s.retired p = false → s.log.staged.length < 31 → s.fld (pgBcp 1) 0x048 1 0 ≤ 2 →
      Completes (.retirement p code t) s fun u => 
        u.fld p 0x008 3 0 = 12 ∧
        u.fld p 0x008 15 8 = code ∧
        u.getB p 0x010 3 = true ∧
        ((u.log.staged.drop s.log.staged.length).map (fun r => (r.code, r.sev, r.source, r.data)) = [(0x0031, 2, p, code)]) ∧
        u.now = max s.now t ∧
        RegsOnly [p, pgBcp 1] s u ∧
        { u with regs := s.regs, now := s.now, hot := s.hot, log := s.log } = s :)
    ∧ (∀ (p pw t : Nat) (k : Kind) (i : Nat) (s : State), (Instr.blockPowerChange p pw t).wf = true → s.calm = true → pageAt p = some (k, i) → plainBlock k = true → s.powered p = true → pw < 2 → s.retired p = false → s.isOff p = false →
      Completes (.blockPowerChange p pw t) s fun u => 
        u.fld p 0x008 3 0 = 0 ∧
        (u.pageH p).power = pw ∧
        (∀ q, q ≠ p → u.pageH q = s.pageH q) ∧
        u.now = max s.now t ∧
        RegsOnly [p] s u ∧
        { u with regs := s.regs, now := s.now, hot := s.hot, pages := s.pages } = s :)
    ∧ (∀ (c link t : Nat) (s : State), (Instr.linkCheckFail c link t).wf = true → s.calm = true → (s.pageH (pgClu c)).resetting = false → s.retired (pgClu c) = false → s.faulted (pgClu c) = false → (s.ready (pgClu c) || s.busy (pgClu c)) = true → s.fld (pgClu c) 0x050 (31 - 16 * link) (16 - 16 * link) < 0xFFFF →
      Completes (.linkCheckFail c link t) s fun u => 
        u.fld (pgClu c) 0x008 3 0 = 4 ∧
        u.fld (pgClu c) 0x008 15 8 = link + 1 ∧
        u.getB (pgClu c) 0x04C (31 - link) = false ∧
        u.getB (pgClu c) 0x010 19 = true ∧
        u.fld (pgClu c) 0x050 (31 - 16 * link) (16 - 16 * link) = s.fld (pgClu c) 0x050 (31 - 16 * link) (16 - 16 * link) + 1 ∧
        (u.pageH (pgClu c)).badLinks = (s.pageH (pgClu c)).badLinks ||| 2 ^ link ∧
        (∀ q, q ≠ pgClu c → u.pageH q = s.pageH q) ∧
        u.now = max s.now t ∧
        RegsOnly [pgClu c, pgBcp 1] s u ∧
        { u with regs := s.regs, now := s.now, hot := s.hot, log := s.log, pages := s.pages } = s :)
    ∧ (∀ (c link t : Nat) (s : State), (Instr.linkCheckPass c link t).wf = true → s.calm = true → (s.pageH (pgClu c)).resetting = false → clearBits (s.pageH (pgClu c)).badLinks (2 ^ link) = 0 → s.retired (pgClu c) = false → s.faulted (pgClu c) = true →
      Completes (.linkCheckPass c link t) s fun u => 
        u.fld (pgClu c) 0x008 3 0 = 2 ∧
        u.getB (pgClu c) 0x04C (31 - link) = true ∧
        (u.pageH (pgClu c)).badLinks = 0 ∧
        (∀ q, q ≠ pgClu c → u.pageH q = s.pageH q) ∧
        u.now = max s.now t ∧
        RegsOnly [pgClu c] s u ∧
        { u with regs := s.regs, now := s.now, hot := s.hot, pages := s.pages } = s :)

/-- LOCK written 1 with no slice running and no write of PAGE_CTRL waiting freezes: ENABLE keeps what this write gives it when LOCK was 0; a write to an offset with no register changes nothing and is counted in PAGE_CLAMP with kind 1; a poisoned write changes nothing and is counted in PAGE_ERR; PAGE_INT_ROUTE takes a legal target, and 0xFF for a reserved one, counted; a read of PAGE_CLAMP, where nothing was counted in its cycle, answers the word and clears COUNT. -/
def Obligations.PageAccess : Prop :=
    (∀ (w : Writer) (p : Nat) (en : Bool) (t : Nat) (k : Kind) (i : Nat) (s : State), (Instr.pageLock w p en t).wf = true → s.calm = true → pageAt p = some (k, i) → (s.pageH p).ctrl = [] → (s.upTo t).unitRuns k i = false → plainKind k = true → s.mayWrite w p k = true → s.locked p = false → (s.pageH p).resetting = false → s.enabled p = en → s.isOff p = !en → s.powered p = true → s.headerOnly k i = false →
      Completes (.pageLock w p en t) s fun u => 
        u.locked p = true ∧
        u.enabled p = en ∧
        u.fld p 0x008 3 0 = s.fld p 0x008 3 0 ∧
        u.now = max s.now t ∧
        RegsOnly [p] s u ∧
        { u with regs := s.regs, now := s.now, hot := s.hot } = s :)
    ∧ (∀ (w : Writer) (p off val t : Nat) (k : Kind) (i : Nat) (s : State), (Instr.registerWrite w p off 4 val false t).wf = true → s.calm = true → pageAt p = some (k, i) → plainKind k = true → s.mayWrite w p k = true → off % 4 = 0 → 0x040 ≤ off → s.powered p = true → (s.pageH p).resetting = false → pageWord k i off = none → s.fld p 0x018 31 16 < 0xFFFF →
      Completes (.registerWrite w p off 4 val false t) s fun u => 
        u.fld p 0x018 31 16 = s.fld p 0x018 31 16 + 1 ∧
        u.fld p 0x018 13 12 = 1 ∧
        u.fld p 0x018 11 0 = off ∧
        (∀ o, o < 4096 → o ≠ 0x018 → u.rd p o = s.rd p o) ∧
        u.now = max s.now t ∧
        RegsOnly [p] s u ∧
        { u with regs := s.regs, now := s.now, hot := s.hot } = s :)
    ∧ (∀ (w : Writer) (p off size val t : Nat) (k : Kind) (i : Nat) (s : State), (Instr.registerWrite w p off size val true t).wf = true → s.calm = true → pageAt p = some (k, i) → s.mayWrite w p k = true → s.fld p 0x01C 7 0 < 0xFF →
      Completes (.registerWrite w p off size val true t) s fun u => 
        u.fld p 0x01C 7 0 = s.fld p 0x01C 7 0 + 1 ∧
        u.getB p 0x010 4 = true ∧
        (∀ o, o < 4096 → o ≠ 0x01C → o ≠ 0x010 → u.rd p o = s.rd p o) ∧
        u.now = max s.now t ∧
        RegsOnly [p] s u ∧
        { u with regs := s.regs, now := s.now, hot := s.hot } = s :)
    ∧ (∀ (w : Writer) (p val t : Nat) (k : Kind) (i : Nat) (s : State), (Instr.registerWrite w p 0x024 4 val false t).wf = true → s.calm = true → pageAt p = some (k, i) → plainKind k = true → s.mayWrite w p k = true → val < 256 → s.fld p 0x018 31 16 < 0xFFFF →
      Completes (.registerWrite w p 0x024 4 val false t) s fun u => 
        (u.fld p 0x024 7 0 = (if val < 0x80 then val else 0xFF)) ∧
        (u.fld p 0x018 31 16 = s.fld p 0x018 31 16 + (if 0x80 ≤ val ∧ val < 0xFF then 1 else 0)) ∧
        u.now = max s.now t ∧
        RegsOnly [p] s u ∧
        { u with regs := s.regs, now := s.now, hot := s.hot } = s :)
    ∧ (∀ (w : Writer) (p t : Nat) (k : Kind) (i : Nat) (s : State), (Instr.readAndClear w p 0x018 4 t).wf = true → s.calm = true → pageAt p = some (k, i) → k ∉ [Kind.pmc, .ars, .tfe, .frd] → s.routePage w p = p → (s.upTo t).hotAt (regKey p 0x018) 31 16 .took = 0 → (s.upTo t).hotAt (regKey p 0x018) 31 16 .full = 0 →
      Completes (.readAndClear w p 0x018 4 t) s fun u => 
        u.fld p 0x018 31 16 = 0 ∧
        u.fld p 0x018 13 0 = s.fld p 0x018 13 0 ∧
        u.out = s.out ++ [.readReply w p 0x018 (BitVec.ofNat 64 (s.rd p 0x018 - s.fld p 0x018 15 14 * 2 ^ 14))] ∧
        u.now = max s.now t ∧
        RegsOnly [p] s u ∧
        { u with regs := s.regs, now := s.now, hot := s.hot, out := s.out } = s :)

/-- A qualified edge at a READY input adds one to the waiting count, keeps its stamp and shows its level (where no track decodes the input in quadrature and the count is not near saturation); a transfer, while the capture crossing is UP, adds the waiting count to TRK_IN_EDGES, shows its last stamp, clears it and stands as sent until its acknowledge, and advances every LOCKED single-mode LINEAR or COUNT track on the input by 1/SCALE turn for each edge. -/
def Obligations.TrackInputs : Prop :=
    (∀ (n stamp : Nat) (rising : Bool) (s : State), (Instr.qualifiedEdge n stamp rising).wf = true → s.calm = true → s.ready (pgTrkIn n) = true → s.quadUses n = false → s.fld (pgTrkIn n) 0x040 3 2 = (if rising then 0 else 1) → (s.trkInH n).pend < 4094 →
      Completes (.qualifiedEdge n stamp rising) s fun u => 
        (u.trkInH n).pend = (s.trkInH n).pend + 1 ∧
        (u.trkInH n).pendStamp = stamp ∧
        (u.trkInH n).level = rising ∧
        u.getB (pgTrkIn n) 0x05C 0 = rising ∧
        u.now = max s.now stamp ∧
        (∀ m, m ≠ n → u.trkInH m = s.trkInH m) ∧
        RegsOnly [pgTrkIn n] s u ∧
        { u with regs := s.regs, hot := s.hot, trkIn := s.trkIn, now := s.now } = s :)
    ∧ (∀ (n t : Nat) (s : State), (Instr.countTransfer n t).wf = true → s.calm = true → s.ready (pgTrkIn n) = true → s.fld (pgXng 2) 0x040 31 29 = 1 → 0 < (s.trkInH n).pend → (s.trkInH n).pend < 4096 → s.rd64 (pgTrkIn n) 0x048 + (s.trkInH n).pend < 2 ^ 64 →
      Completes (.countTransfer n t) s fun u => 
        u.rd64 (pgTrkIn n) 0x048 = s.rd64 (pgTrkIn n) 0x048 + (s.trkInH n).pend ∧
        u.rd64 (pgTrkIn n) 0x050 = (s.trkInH n).pendStamp % 2 ^ 64 ∧
        (u.trkInH n).pend = 0 ∧
        (u.trkInH n).lastXfer = some (s.trkInH n).pendStamp ∧
        (u.trkInH n).sent = some ((s.trkInH n).pend, (s.trkInH n).pendStamp, u.now) ∧
        (∀ m, m ≠ n → u.trkInH m = s.trkInH m) ∧
        (∀ k, 0 < k → k < 64 → (s.trkKind k = 3 ∨ s.trkKind k = 6) → s.trkMode k = 0 → s.trkZen k = false → s.trkAin k = n → s.enabled (pgTrk k) = true → (s.trkInH n).satur = false →
          (s.trkH k).st = .locked → (s.trkH k).wantRef = none → (u.trkH k).pos = (s.trkH k).pos + ((if s.trkInv k then -1 else 1 : Int) * ((s.trkInH n).pend : Int) : Rat) * s.trkStep k) ∧
        u.now = max s.now t ∧
        RegsOnly ((pgTrkIn n) :: (List.range 64).map pgTrk) s u ∧
        { u with regs := s.regs, now := s.now, hot := s.hot, trkIn := s.trkIn, trk := s.trk, free := s.free } = s :)

/-- Every 64 cycles the estimator takes a broadcast instant t: one record for each of the 64 tracks, which carries t, the jump, the position with TRK_OFFSET, the state in TQ, rate and acceleration while LOCKED or COASTING and zero rates otherwise, poisoned where a word of it goes bad on its way; WALL gives its own position, a DERIVED track floor(parent × P / Q) with its parent's quality, PARENT set while the parent is not LOCKED; TRK_LOSS, TRK_COAST and LOCK_DB as written take effect; where the module exports no track at t nothing but tracks and broadcasts changes. 24 cycles later every record stands on its track page, all registers from 0x070 to 0x097 and TRK_JERK together, and where no view of a resampler runs and no waypoint unit waits for its first evaluation nothing else changes. -/
def Obligations.TrackBroadcast : Prop :=
    (∀ (t : Nat) (loops : List (Nat × Nat)) (bad : List Nat) (s : State), (Instr.broadcast t (⟨loops, bad⟩)).wf = true → s.calm = true → (match s.lastBcast with | some l => decide (l + 64 ≤ t) | none => true) = true →
      Completes (.broadcast t (⟨loops, bad⟩)) s fun u => 
        u.lastBcast = some t ∧
        u.bcast.length = s.bcast.length + 1 ∧
        u.bcast.take s.bcast.length = s.bcast ∧
        (u.bcast.getLast?.map (fun b => (b.1, b.2.length)) = some (t, 64)) ∧
        (∀ k r, ((u.bcast.getLast?.map (fun (b : Nat × List BRec) => b.2)).getD [])[k]? = some r → r.tb = t ∧ r.pois = bad.contains k ∧ r.jump = (u.trkH k).jump ∧
          (k = 0 → r.pos = toS 64 (s.wallTpos t).toNat ∧ r.rate = fOfRat s.wall.rate ∧ r.tq % 8 = (if s.wall.locked then 2 else 3) ∧ r.tq.testBit 7 = !s.wall.locked) ∧
          (k ≠ 0 → s.trkKind k ≠ 2 →
            r.pos = s.withOffset k (tposOf ((u.trkH k).eval (s.trkKind k == 6) t).1) ∧ r.tq % 8 = (u.trkH k).st.code ∧ r.tq.testBit 6 = (u.trkH k).sat ∧
            ((u.trkH k).st = .locked ∨ (u.trkH k).st = .coasting → r.rate = fOfRat ((u.trkH k).eval (s.trkKind k == 6) t).2.1 ∧ r.accel = fOfRat ((u.trkH k).eval (s.trkKind k == 6) t).2.2.1) ∧
            ((u.trkH k).st ≠ .locked → (u.trkH k).st ≠ .coasting → r.rate = 0 ∧ r.accel = 0 ∧ r.jerk = 0)) ∧
          (k ≠ 0 → s.trkKind k = 2 → s.trkParent k < k → (u.trkH k).st ≠ .off →
            r.pos = s.withOffset k (((((u.bcast.getLast?.map (fun (b : Nat × List BRec) => b.2)).getD []).getD (s.trkParent k) {}).pos : Rat) * s.trkRatio k).floor ∧ r.tq = setBit (((u.bcast.getLast?.map (fun (b : Nat × List BRec) => b.2)).getD []).getD (s.trkParent k) {}).tq 3 (bits (((u.bcast.getLast?.map (fun (b : Nat × List BRec) => b.2)).getD []).getD (s.trkParent k) {}).tq 2 0 != 2))) ∧
        (∀ k, k < 64 → (u.trkH k).lossR = s.rd (pgTrk k) 0x060 ∧ (u.trkH k).coastR = s.rd (pgTrk k) 0x064 ∧ (u.trkH k).lockR = s.fld (pgTrk k) 0x05C 7 0) :)
    ∧ (∀ (t : Nat) (loops : List (Nat × Nat)) (bad : List Nat) (s : State), (Instr.broadcast t (⟨loops, bad⟩)).wf = true → s.calm = true → (match s.lastBcast with | some l => decide (l + 64 ≤ t) | none => true) = true → (s.enabled pgRopeL && s.getB pgRopeL 0x080 31 && (t / 64) % (1024 * 2 ^ s.fld pgRopeL 0x080 30 28) == 0) = false →
      Completes (.broadcast t (⟨loops, bad⟩)) s fun u => 
        u.lastBcast = some t ∧
        u.now = max s.now t ∧
        RegsOnly ((List.range 64).map pgTrk) s u ∧
        { u with regs := s.regs, now := s.now, hot := s.hot, trk := s.trk, bcast := s.bcast, lastBcast := s.lastBcast, free := s.free } = s :)
    ∧ (∀ (t tb : Nat) (recs : List BRec) (rest : List (Nat × List BRec)) (s : State), (Instr.broadcastApply t).wf = true → s.calm = true → s.bcast = (tb, recs) :: rest → tb + 24 ≤ t → recs.length = 64 →
      Completes (.broadcastApply t) s fun u => 
        u.bcast = rest ∧
        (∀ k r, recs[k]? = some r → (u.trkH k).brec = r ∧ u.rd (pgTrk k) 0x068 = r.tq % 2 ^ 32 ∧ u.rd64 (pgTrk k) 0x070 = (r.pos % 2 ^ 64).toNat ∧ u.rd (pgTrk k) 0x078 = r.rate % 2 ^ 32 ∧
          u.rd (pgTrk k) 0x07C = r.accel % 2 ^ 32 ∧ u.rd (pgTrk k) 0x080 = r.slip % 2 ^ 32 ∧ u.rd (pgTrk k) 0x084 = r.ratio % 2 ^ 32 ∧ u.rd64 (pgTrk k) 0x088 = (r.jump % 2 ^ 64).toNat ∧
          u.rd64 (pgTrk k) 0x090 = r.tb % 2 ^ 64 ∧ u.rd (pgTrk k) 0x09C = r.jerk % 2 ^ 32) :)
    ∧ (∀ (t tb : Nat) (recs : List BRec) (rest : List (Nat × List BRec)) (s : State), (Instr.broadcastApply t).wf = true → s.calm = true → s.bcast = (tb, recs) :: rest → tb + 24 ≤ t → recs.length = 64 → s.arsView.all (fun q => !(q.2.on && s.ready (pgArs (q.1 / 512)))) = true → s.wpt.all (fun q => q.2.armT.isNone) = true →
      Completes (.broadcastApply t) s fun u => 
        u.bcast = rest ∧
        u.now = max s.now t ∧
        RegsOnly ((List.range 64).map pgTrk) s u ∧
        { u with regs := s.regs, now := s.now, hot := s.hot, trk := s.trk, bcast := s.bcast } = s :)

/-- GAP expected intervals without a count take a LOCKED counting track to COASTING, which keeps the fit; the coast limit takes it to LOST, held where it stood, with no fit; STOP_MS in LOST takes it to STOPPED; a LOCKED tacholess track coasts where its line stands below median + LOCK_DB − 6 dB for GAP expected turns or outside the search band, and LINE_LOSS changes nothing where neither holds; a scan of T_scan starts the loop at the strongest detector that stands LOCK_DB over the median; sixteen line cycles within 1/16 lock the track at the line, its position kept. Entries are counted in TRK_EVENTS, bit 16 is raised on entering COASTING, and no other track changes. -/
def Obligations.TrackStates : Prop :=
    (∀ (k t l : Nat) (s : State), (Instr.gapExceeded k t).wf = true → s.calm = true → (s.trkH k).st = .locked → s.trkCounts k = true → (s.trkH k).lastStamp = some l → ((s.trkH k).eval (s.trkKind k == 6) t).2.1 ≠ 0 → ((bits (s.trkH k).lossR 15 12 : Nat) : Rat) * s.trkStep k < secs ((t : Int) - l) * max ((s.trkH k).eval (s.trkKind k == 6) t).2.1 (-((s.trkH k).eval (s.trkKind k == 6) t).2.1) → s.fld (pgTrk k) 0x098 15 0 < 0xFFFF →
      Completes (.gapExceeded k t) s fun u => 
        (u.trkH k).st = .coasting ∧
        (u.trkH k).fit = (s.trkH k).fit ∧
        (u.trkH k).coastT = t ∧
        u.getB (pgTrk k) 0x010 16 = true ∧
        u.fld (pgTrk k) 0x098 15 0 = s.fld (pgTrk k) 0x098 15 0 + 1 ∧
        (∀ j, j ≠ k → u.trkH j = s.trkH j) ∧
        u.now = max s.now t ∧
        RegsOnly [pgTrk k] s u ∧
        { u with regs := s.regs, now := s.now, hot := s.hot, trk := s.trk } = s :)
    ∧ (∀ (k t : Nat) (s : State), (Instr.coastLimit k t).wf = true → s.calm = true → (s.trkH k).st = .coasting → (s.trkH k).coastT + bits (s.trkH k).coastR 31 16 * 3000000 ≤ t → s.fld (pgTrk k) 0x098 31 16 < 0xFFFF →
      Completes (.coastLimit k t) s fun u => 
        (u.trkH k).st = .lost ∧
        (u.trkH k).pos = ((s.trkH k).eval (s.trkKind k == 6) t).1 ∧
        (u.trkH k).fit = none ∧
        u.fld (pgTrk k) 0x098 31 16 = s.fld (pgTrk k) 0x098 31 16 + 1 ∧
        (∀ j, j ≠ k → u.trkH j = s.trkH j) ∧
        u.now = max s.now t ∧
        RegsOnly [pgTrk k] s u ∧
        { u with regs := s.regs, now := s.now, hot := s.hot, trk := s.trk } = s :)
    ∧ (∀ (k t : Nat) (s : State), (Instr.stopTime k t).wf = true → s.calm = true → (s.trkH k).st = .lost → (s.trkH k).lostT + bits (s.trkH k).lossR 31 16 * 3000000 ≤ t →
      Completes (.stopTime k t) s fun u => 
        (u.trkH k).st = .stopped ∧
        (u.trkH k).pos = (s.trkH k).pos ∧
        (∀ j, j ≠ k → u.trkH j = s.trkH j) ∧
        u.now = max s.now t ∧
        RegsOnly [] s u ∧
        { u with regs := s.regs, now := s.now, hot := s.hot, trk := s.trk } = s :)
    ∧ (∀ (k t since : Nat) (level med : Int) (s : State), (Instr.lineLoss k (⟨t, since, level, med⟩)).wf = true → s.calm = true → s.trkKind k = 4 → (s.trkH k).st = .locked → level < med + (s.trkH k).lockR - 6 → ((bits (s.trkH k).lossR 15 12 : Nat) : Rat) ≤ secs ((t : Int) - since) * max ((s.trkH k).eval false t).2.1 (-((s.trkH k).eval false t).2.1) → s.fld (pgTrk k) 0x098 15 0 < 0xFFFF →
      Completes (.lineLoss k (⟨t, since, level, med⟩)) s fun u => 
        (u.trkH k).st = .coasting ∧
        (u.trkH k).fit = (s.trkH k).fit ∧
        (u.trkH k).coastT = t ∧
        u.getB (pgTrk k) 0x010 16 = true ∧
        u.fld (pgTrk k) 0x098 15 0 = s.fld (pgTrk k) 0x098 15 0 + 1 ∧
        (∀ j, j ≠ k → u.trkH j = s.trkH j) ∧
        u.now = max s.now t ∧
        RegsOnly [pgTrk k] s u ∧
        { u with regs := s.regs, now := s.now, hot := s.hot, trk := s.trk } = s :)
    ∧ (∀ (k t since : Nat) (level med : Int) (s : State), (Instr.lineLoss k (⟨t, since, level, med⟩)).wf = true → s.calm = true → s.trkKind k = 4 → (s.trkH k).st = .locked → s.lineOut k = true → s.fld (pgTrk k) 0x098 15 0 < 0xFFFF →
      Completes (.lineLoss k (⟨t, since, level, med⟩)) s fun u => 
        (u.trkH k).st = .coasting ∧
        (u.trkH k).fit = (s.trkH k).fit ∧
        u.getB (pgTrk k) 0x010 16 = true ∧
        u.fld (pgTrk k) 0x098 15 0 = s.fld (pgTrk k) 0x098 15 0 + 1 ∧
        (∀ j, j ≠ k → u.trkH j = s.trkH j) ∧
        u.now = max s.now t ∧
        RegsOnly [pgTrk k] s u ∧
        { u with regs := s.regs, now := s.now, hot := s.hot, trk := s.trk } = s :)
    ∧ (∀ (k t since : Nat) (level med : Int) (s : State), (Instr.lineLoss k (⟨t, since, level, med⟩)).wf = true → s.calm = true → s.lineOut k = false → (med + (s.trkH k).lockR - 6 ≤ level ∨ secs ((t : Int) - since) * max ((s.trkH k).eval false t).2.1 (-((s.trkH k).eval false t).2.1) < ((bits (s.trkH k).lossR 15 12 : Nat) : Rat)) →
      Completes (.lineLoss k (⟨t, since, level, med⟩)) s fun u => 
        u.now = max s.now t ∧
        RegsOnly [] s u ∧
        { u with regs := s.regs, now := s.now, hot := s.hot } = s :)
    ∧ (∀ (k t : Nat) (levels : List Int) (t0 : Nat) (s : State), (Instr.tachoScan k t levels).wf = true → s.calm = true → s.trkKind k = 4 → ((s.trkH k).st = .acquiring ∨ (s.trkH k).st = .lost) → bits (s.trkH (s.trkParent k)).brec.tq 2 0 = 2 → levels.length = 16 → (s.trkH k).scanT = some t0 → 8 ≤ secs ((t : Int) - t0) * s.trkHalf k →
      Completes (.tachoScan k t levels) s fun u => let hz : Rat := (s.trkH k).fc - s.trkHalf k + s.trkHalf k * 2 * ((maxIdx levels).1 : Rat) / 15; 
        ((u.trkH k).loopHz = (if 2 * ((s.trkH k).lockR : Int) ≤ 2 * (maxIdx levels).2 - median2 levels then some hz else none)) ∧
        (u.trkH k).loopAt = hz ∧
        (u.trkH k).scanT = some t ∧
        (u.trkH k).st = (s.trkH k).st ∧
        (∀ j, j ≠ k → u.trkH j = s.trkH j) ∧
        u.now = max s.now t ∧
        RegsOnly [] s u ∧
        { u with regs := s.regs, now := s.now, hot := s.hot, trk := s.trk } = s :)
    ∧ (∀ (k t hz16 : Nat) (errs : List Int) (s : State), (Instr.tachoLock k t (⟨hz16, errs⟩)).wf = true → s.calm = true → s.trkKind k = 4 → ((s.trkH k).st = .acquiring ∨ (s.trkH k).st = .lost) → (s.trkH k).loopHz.isSome = true → (s.trkH k).scanT.isSome = true → phaseHeld errs = true → (hz16 : Rat) / 65536 - (s.trkH k).loopAt ≤ (2 : Rat) ^ s.fld (pgTrk k) 0x058 4 2 / 2 → (s.trkH k).loopAt - (hz16 : Rat) / 65536 ≤ (2 : Rat) ^ s.fld (pgTrk k) 0x058 4 2 / 2 →
      Completes (.tachoLock k t (⟨hz16, errs⟩)) s fun u => 
        (u.trkH k).st = .locked ∧
        (u.trkH k).pos = (s.trkH k).pos ∧
        (u.trkH k).loopHz = some ((hz16 : Rat) / 65536) ∧
        (u.trkH k).scanT = none ∧
        (∀ j, j ≠ k → u.trkH j = s.trkH j) ∧
        u.now = max s.now t ∧
        RegsOnly [] s u ∧
        { u with regs := s.regs, now := s.now, hot := s.hot, trk := s.trk, free := s.free } = s :)

/-- Arming sets ARM and starts the deadline count, a write that finds ARM = 1 leaves the count. In a cycle the units of a cluster act in ascending order; in its turn a unit that is live and not written in the cycle fires where its condition is met: it counts in FIRES, sets itself in the fired map and bit 16, DEGRADED where its track is neither LOCKED nor COASTING, JUMP, and LATE where its first evaluation met the condition. With WPT_STEP = 0 or DIR = either it clears ARM; else WPT_POS moves on in the direction of travel by the least number of steps that leaves the condition unmet, MISSED grows by one less, and ARM stays. Its action: NONE changes nothing else; RELEASE appends its entry to the tile's queue, a full queue drops it with DROPPED; TFE_JOB submits WPT_ARG; CAPTURE_START and CAPTURE_STOP open and close a capture; WAKE wakes from BIVOUAC. A deadline fire sets LATE, keeps WPT_POS and ARM and restarts its count. Where the unit is written in the cycle in which it fires, it fires on the values from before, and the written ones stand. -/
def Obligations.Waypoints : Prop :=
    (∀ (w : Writer) (c un cfg t : Nat) (s : State), (Instr.wptArm w c un cfg t).wf = true → s.calm = true → s.wptArmed c un = false → (s.wptH c un).fireT ≠ some (max s.now t) → s.powered (pgWpt c un) = true → (s.pageH (pgWpt c un)).resetting = false →
      Completes (.wptArm w c un cfg t) s fun u => 
        u.wptArmed c un = true ∧
        u.wptTrack c un = cfg % 64 ∧
        (u.wptH c un).dlT = max s.now t ∧
        (u.wptH c un).armT = some (max s.now t) ∧
        (u.fld (pgWpt c un) (wptOff un 8) 28 26 = (if bits cfg 28 26 < 5 ∨ (bits cfg 28 26 = 5 ∧ cfg % 64 = 0) then bits cfg 28 26 else 0)) ∧
        u.now = max s.now t ∧
        RegsOnly [pgWpt c un] s u ∧
        { u with regs := s.regs, now := s.now, hot := s.hot, wpt := s.wpt } = s :)
    ∧ (∀ (w : Writer) (c un cfg t : Nat) (s : State), (Instr.wptArm w c un cfg t).wf = true → s.calm = true → s.wptArmed c un = true → s.powered (pgWpt c un) = true → (s.pageH (pgWpt c un)).resetting = false →
      Completes (.wptArm w c un cfg t) s fun u => 
        u.wptArmed c un = true ∧
        (u.wptH c un).dlT = (s.wptH c un).dlT ∧
        u.now = max s.now t ∧
        RegsOnly [pgWpt c un] s u ∧
        { u with regs := s.regs, now := s.now, hot := s.hot, wpt := s.wpt } = s :)
    ∧ (∀ (c un t : Nat) (s : State), (Instr.waypointFire c un t).wf = true → s.calm = true → s.wptCalm c un t = true → (s.wptTurn c un t).calm = true → ((s.wptTurn c un t).wptH c un).armT = none → ((s.wptTurn c un t).wptH c un).wrT ≠ some t → (s.wptTurn c un t).wptLive c un = true → (s.wptTurn c un t).wptMet c un t = true → ((s.wptTurn c un t).rd64 (pgWpt c un) (wptOff un 0x10) = 0 ∨ (s.wptTurn c un t).wptDir c un = 2) → (s.wptTurn c un t).fld (pgWpt c un) (wptOff un 8) 28 26 ≠ 5 →
      Completes (.waypointFire c un t) s fun u => 
        u.fld (pgWpt c un) (wptOff un 0x18) 31 16 = min 0xFFFF ((s.wptTurn c un t).fld (pgWpt c un) (wptOff un 0x18) 31 16 + 1) ∧
        u.getB (pgWpt c un) (0x840 + 4 * (un % 64 / 32)) (un % 32) = true ∧
        u.getB (pgWpt c un) 0x010 16 = true ∧
        u.getB (pgWpt c un) (wptOff un 0x18) 0 = ((s.wptTurn c un t).getB (pgWpt c un) (wptOff un 0x18) 0 || !(bits ((s.wptTurn c un t).trkTq ((s.wptTurn c un t).wptTrack c un)) 2 0 == 2 || bits ((s.wptTurn c un t).trkTq ((s.wptTurn c un t).wptTrack c un)) 2 0 == 3)) ∧
        u.getB (pgWpt c un) (wptOff un 0x18) 1 = ((s.wptTurn c un t).getB (pgWpt c un) (wptOff un 0x18) 1 || bit ((s.wptTurn c un t).trkTq ((s.wptTurn c un t).wptTrack c un)) 4) ∧
        u.getB (pgWpt c un) (wptOff un 0x18) 2 = ((s.wptTurn c un t).getB (pgWpt c un) (wptOff un 0x18) 2 || ((s.wptTurn c un t).wptH c un).first) ∧
        u.wptArmed c un = false ∧
        u.rd64 (pgWpt c un) (wptOff un 0) = (s.wptTurn c un t).rd64 (pgWpt c un) (wptOff un 0) ∧
        (u.wptH c un).dlT = t :)
    ∧ (∀ (c un t : Nat) (s : State), (Instr.waypointFire c un t).wf = true → s.calm = true → s.wptCalm c un t = true → (s.wptTurn c un t).calm = true → ((s.wptTurn c un t).wptH c un).armT = none → ((s.wptTurn c un t).wptH c un).wrT ≠ some t → (s.wptTurn c un t).wptLive c un = true → (s.wptTurn c un t).wptMet c un t = true → (s.wptTurn c un t).wptDir c un = 0 → 0 < (s.wptTurn c un t).rd64 (pgWpt c un) (wptOff un 0x10) → (s.wptTurn c un t).rd64 (pgWpt c un) (wptOff un 0x10) ≤ 2 ^ 63 → (s.wptTurn c un t).fld (pgWpt c un) (wptOff un 8) 28 26 ≠ 5 →
      Completes (.waypointFire c un t) s fun u => 
        u.fld (pgWpt c un) (wptOff un 0x18) 31 16 = min 0xFFFF ((s.wptTurn c un t).fld (pgWpt c un) (wptOff un 0x18) 31 16 + 1) ∧
        u.getB (pgWpt c un) (0x840 + 4 * (un % 64 / 32)) (un % 32) = true ∧
        u.getB (pgWpt c un) 0x010 16 = true ∧
        u.getB (pgWpt c un) (wptOff un 0x18) 0 = ((s.wptTurn c un t).getB (pgWpt c un) (wptOff un 0x18) 0 || !(bits ((s.wptTurn c un t).trkTq ((s.wptTurn c un t).wptTrack c un)) 2 0 == 2 || bits ((s.wptTurn c un t).trkTq ((s.wptTurn c un t).wptTrack c un)) 2 0 == 3)) ∧
        u.getB (pgWpt c un) (wptOff un 0x18) 1 = ((s.wptTurn c un t).getB (pgWpt c un) (wptOff un 0x18) 1 || bit ((s.wptTurn c un t).trkTq ((s.wptTurn c un t).wptTrack c un)) 4) ∧
        u.getB (pgWpt c un) (wptOff un 0x18) 2 = ((s.wptTurn c un t).getB (pgWpt c un) (wptOff un 0x18) 2 || ((s.wptTurn c un t).wptH c un).first) ∧
        u.wptArmed c un = true ∧
        u.rd64 (pgWpt c un) (wptOff un 0) = ((s.wptTurn c un t).rd64 (pgWpt c un) (wptOff un 0) + (((s.wptTurn c un t).wptDiff c un t).natAbs / (s.wptTurn c un t).rd64 (pgWpt c un) (wptOff un 0x10) + 1) * (s.wptTurn c un t).rd64 (pgWpt c un) (wptOff un 0x10)) % 2 ^ 64 ∧
        u.fld (pgWpt c un) (wptOff un 0x18) 15 8 = min 255 ((s.wptTurn c un t).fld (pgWpt c un) (wptOff un 0x18) 15 8 + ((s.wptTurn c un t).wptDiff c un t).natAbs / (s.wptTurn c un t).rd64 (pgWpt c un) (wptOff un 0x10)) ∧
        u.wptMet c un t = false :)
    ∧ (∀ (c un t : Nat) (s : State), (Instr.waypointFire c un t).wf = true → s.calm = true → s.wptCalm c un t = true → (s.wptTurn c un t).calm = true → ((s.wptTurn c un t).wptH c un).armT = none → ((s.wptTurn c un t).wptH c un).wrT ≠ some t → (s.wptTurn c un t).wptLive c un = true → (s.wptTurn c un t).wptMet c un t = true → (s.wptTurn c un t).wptDir c un = 1 → 0 < (s.wptTurn c un t).rd64 (pgWpt c un) (wptOff un 0x10) → (s.wptTurn c un t).rd64 (pgWpt c un) (wptOff un 0x10) < 2 ^ 63 → (s.wptTurn c un t).fld (pgWpt c un) (wptOff un 8) 28 26 ≠ 5 →
      Completes (.waypointFire c un t) s fun u => 
        u.fld (pgWpt c un) (wptOff un 0x18) 31 16 = min 0xFFFF ((s.wptTurn c un t).fld (pgWpt c un) (wptOff un 0x18) 31 16 + 1) ∧
        u.getB (pgWpt c un) (0x840 + 4 * (un % 64 / 32)) (un % 32) = true ∧
        u.getB (pgWpt c un) 0x010 16 = true ∧
        u.getB (pgWpt c un) (wptOff un 0x18) 0 = ((s.wptTurn c un t).getB (pgWpt c un) (wptOff un 0x18) 0 || !(bits ((s.wptTurn c un t).trkTq ((s.wptTurn c un t).wptTrack c un)) 2 0 == 2 || bits ((s.wptTurn c un t).trkTq ((s.wptTurn c un t).wptTrack c un)) 2 0 == 3)) ∧
        u.getB (pgWpt c un) (wptOff un 0x18) 1 = ((s.wptTurn c un t).getB (pgWpt c un) (wptOff un 0x18) 1 || bit ((s.wptTurn c un t).trkTq ((s.wptTurn c un t).wptTrack c un)) 4) ∧
        u.getB (pgWpt c un) (wptOff un 0x18) 2 = ((s.wptTurn c un t).getB (pgWpt c un) (wptOff un 0x18) 2 || ((s.wptTurn c un t).wptH c un).first) ∧
        u.wptArmed c un = true ∧
        ((u.rd64 (pgWpt c un) (wptOff un 0) : Nat) : Int) = (((s.wptTurn c un t).rd64 (pgWpt c un) (wptOff un 0) : Nat) - ((((s.wptTurn c un t).wptDiff c un t).natAbs / (s.wptTurn c un t).rd64 (pgWpt c un) (wptOff un 0x10) + 1) * (s.wptTurn c un t).rd64 (pgWpt c un) (wptOff un 0x10) : Nat) : Int) % 2 ^ 64 ∧
        u.fld (pgWpt c un) (wptOff un 0x18) 15 8 = min 255 ((s.wptTurn c un t).fld (pgWpt c un) (wptOff un 0x18) 15 8 + ((s.wptTurn c un t).wptDiff c un t).natAbs / (s.wptTurn c un t).rd64 (pgWpt c un) (wptOff un 0x10)) ∧
        u.wptMet c un t = false :)
    ∧ (∀ (c un t : Nat) (s : State), (Instr.waypointFire c un t).wf = true → s.calm = true → s.wptCalm c un t = true → (s.wptTurn c un t).calm = true → ((s.wptTurn c un t).wptH c un).armT = none → ((s.wptTurn c un t).wptH c un).wrT ≠ some t → (s.wptTurn c un t).wptLive c un = true → (s.wptTurn c un t).wptMet c un t = true → (s.wptTurn c un t).fld (pgWpt c un) (wptOff un 8) 28 26 = 0 →
      Completes (.waypointFire c un t) s fun u => 
        u.fld (pgWpt c un) (wptOff un 0x18) 31 16 = min 0xFFFF ((s.wptTurn c un t).fld (pgWpt c un) (wptOff un 0x18) 31 16 + 1) ∧
        u.getB (pgWpt c un) (0x840 + 4 * (un % 64 / 32)) (un % 32) = true ∧
        u.getB (pgWpt c un) 0x010 16 = true ∧
        u.getB (pgWpt c un) (wptOff un 0x18) 0 = ((s.wptTurn c un t).getB (pgWpt c un) (wptOff un 0x18) 0 || !(bits ((s.wptTurn c un t).trkTq ((s.wptTurn c un t).wptTrack c un)) 2 0 == 2 || bits ((s.wptTurn c un t).trkTq ((s.wptTurn c un t).wptTrack c un)) 2 0 == 3)) ∧
        u.getB (pgWpt c un) (wptOff un 0x18) 1 = ((s.wptTurn c un t).getB (pgWpt c un) (wptOff un 0x18) 1 || bit ((s.wptTurn c un t).trkTq ((s.wptTurn c un t).wptTrack c un)) 4) ∧
        u.getB (pgWpt c un) (wptOff un 0x18) 2 = ((s.wptTurn c un t).getB (pgWpt c un) (wptOff un 0x18) 2 || ((s.wptTurn c un t).wptH c un).first) ∧
        ((s.wptTurn c un t).rd64 (pgWpt c un) (wptOff un 0x10) = 0 → ({ u with regs := (s.wptTurn c un t).regs, hot := (s.wptTurn c un t).hot, wpt := (s.wptTurn c un t).wpt } : State) = (s.wptTurn c un t)) ∧
        (∀ q off, q ≠ pgWpt c un → off < 4096 → u.rd q off = (s.wptTurn c un t).rd q off) :)
    ∧ (∀ (c un t : Nat) (s : State), (Instr.waypointFire c un t).wf = true → s.calm = true → s.wptCalm c un t = true → (s.wptTurn c un t).calm = true → ((s.wptTurn c un t).wptH c un).armT = none → ((s.wptTurn c un t).wptH c un).wrT ≠ some t → (s.wptTurn c un t).wptLive c un = true → (s.wptTurn c un t).wptMet c un t = true → (s.wptTurn c un t).fld (pgWpt c un) (wptOff un 8) 28 26 = 1 → (s.wptTurn c un t).workTile (8 * c + (s.wptTurn c un t).fld (pgWpt c un) (wptOff un 8) 25 23) = (8 * c + (s.wptTurn c un t).fld (pgWpt c un) (wptOff un 8) 25 23) → (s.wptTurn c un t).retired (pgTile (8 * c + (s.wptTurn c un t).fld (pgWpt c un) (wptOff un 8) 25 23)) = false → ((s.wptTurn c un t).tileH (8 * c + (s.wptTurn c un t).fld (pgWpt c un) (wptOff un 8) 25 23)).rq.length < 32 →
      Completes (.waypointFire c un t) s fun u => 
        u.fld (pgWpt c un) (wptOff un 0x18) 31 16 = min 0xFFFF ((s.wptTurn c un t).fld (pgWpt c un) (wptOff un 0x18) 31 16 + 1) ∧
        u.getB (pgWpt c un) (0x840 + 4 * (un % 64 / 32)) (un % 32) = true ∧
        u.getB (pgWpt c un) 0x010 16 = true ∧
        u.getB (pgWpt c un) (wptOff un 0x18) 0 = ((s.wptTurn c un t).getB (pgWpt c un) (wptOff un 0x18) 0 || !(bits ((s.wptTurn c un t).trkTq ((s.wptTurn c un t).wptTrack c un)) 2 0 == 2 || bits ((s.wptTurn c un t).trkTq ((s.wptTurn c un t).wptTrack c un)) 2 0 == 3)) ∧
        u.getB (pgWpt c un) (wptOff un 0x18) 1 = ((s.wptTurn c un t).getB (pgWpt c un) (wptOff un 0x18) 1 || bit ((s.wptTurn c un t).trkTq ((s.wptTurn c un t).wptTrack c un)) 4) ∧
        u.getB (pgWpt c un) (wptOff un 0x18) 2 = ((s.wptTurn c un t).getB (pgWpt c un) (wptOff un 0x18) 2 || ((s.wptTurn c un t).wptH c un).first) ∧
        (u.tileH (8 * c + (s.wptTurn c un t).fld (pgWpt c un) (wptOff un 8) 25 23)).rq.dropLast = ((s.wptTurn c un t).tileH (8 * c + (s.wptTurn c un t).fld (pgWpt c un) (wptOff un 8) 25 23)).rq ∧
        (u.tileH (8 * c + (s.wptTurn c un t).fld (pgWpt c un) (wptOff un 8) 25 23)).relIrq = (((s.wptTurn c un t).tileH (8 * c + (s.wptTurn c un t).fld (pgWpt c un) (wptOff un 8) 25 23)).relIrq || (s.wptTurn c un t).getB (pgWpt c un) (wptOff un 8) 22) ∧
        ((u.tileH (8 * c + (s.wptTurn c un t).fld (pgWpt c un) (wptOff un 8) 25 23)).rq.getLast?.map (fun e => (e.w0.toNat % 2 ^ 32, e.w0.toNat / 2 ^ 32 + e.w1.toNat % 2 ^ 32 * 2 ^ 32, e.w1.toNat / 2 ^ 32 % 256, e.w1.toNat / 2 ^ 40 % 256)) = some ((s.wptTurn c un t).wptRd c un 0xC, ofS 64 ((s.wptTurn c un t).trkX ((s.wptTurn c un t).wptTrack c un) t), un, (s.wptTurn c un t).trkTq ((s.wptTurn c un t).wptTrack c un) % 256)) ∧
        ((u.tileH (8 * c + (s.wptTurn c un t).fld (pgWpt c un) (wptOff un 8) 25 23)).rq.getLast?.map (fun e => e.w1.toNat / 2 ^ 48) = some (b2n ((s.wptTurn c un t).wptH c un).first + 2 * b2n (bit ((s.wptTurn c un t).trkTq ((s.wptTurn c un t).wptTrack c un)) 4) + 4 * b2n (!(bits ((s.wptTurn c un t).trkTq ((s.wptTurn c un t).wptTrack c un)) 2 0 == 2 || bits ((s.wptTurn c un t).trkTq ((s.wptTurn c un t).wptTrack c un)) 2 0 == 3)))) ∧
        (∀ x, x ≠ (8 * c + (s.wptTurn c un t).fld (pgWpt c un) (wptOff un 8) 25 23) → u.tileH x = (s.wptTurn c un t).tileH x) ∧
        (∀ q off, q ≠ pgWpt c un → q ≠ pgTile (8 * c + (s.wptTurn c un t).fld (pgWpt c un) (wptOff un 8) 25 23) → off < 4096 → u.rd q off = (s.wptTurn c un t).rd q off) :)
    ∧ (∀ (c un t : Nat) (s : State), (Instr.waypointFire c un t).wf = true → s.calm = true → s.wptCalm c un t = true → (s.wptTurn c un t).calm = true → ((s.wptTurn c un t).wptH c un).armT = none → ((s.wptTurn c un t).wptH c un).wrT ≠ some t → (s.wptTurn c un t).wptLive c un = true → (s.wptTurn c un t).wptMet c un t = true → (s.wptTurn c un t).fld (pgWpt c un) (wptOff un 8) 28 26 = 1 → (s.wptTurn c un t).workTile (8 * c + (s.wptTurn c un t).fld (pgWpt c un) (wptOff un 8) 25 23) = (8 * c + (s.wptTurn c un t).fld (pgWpt c un) (wptOff un 8) 25 23) → (s.wptTurn c un t).retired (pgTile (8 * c + (s.wptTurn c un t).fld (pgWpt c un) (wptOff un 8) 25 23)) = false → 32 ≤ ((s.wptTurn c un t).tileH (8 * c + (s.wptTurn c un t).fld (pgWpt c un) (wptOff un 8) 25 23)).rq.length →
      Completes (.waypointFire c un t) s fun u => 
        u.fld (pgWpt c un) (wptOff un 0x18) 31 16 = min 0xFFFF ((s.wptTurn c un t).fld (pgWpt c un) (wptOff un 0x18) 31 16 + 1) ∧
        u.getB (pgWpt c un) (0x840 + 4 * (un % 64 / 32)) (un % 32) = true ∧
        u.getB (pgWpt c un) 0x010 16 = true ∧
        u.getB (pgWpt c un) (wptOff un 0x18) 0 = ((s.wptTurn c un t).getB (pgWpt c un) (wptOff un 0x18) 0 || !(bits ((s.wptTurn c un t).trkTq ((s.wptTurn c un t).wptTrack c un)) 2 0 == 2 || bits ((s.wptTurn c un t).trkTq ((s.wptTurn c un t).wptTrack c un)) 2 0 == 3)) ∧
        u.getB (pgWpt c un) (wptOff un 0x18) 1 = ((s.wptTurn c un t).getB (pgWpt c un) (wptOff un 0x18) 1 || bit ((s.wptTurn c un t).trkTq ((s.wptTurn c un t).wptTrack c un)) 4) ∧
        u.getB (pgWpt c un) (wptOff un 0x18) 2 = ((s.wptTurn c un t).getB (pgWpt c un) (wptOff un 0x18) 2 || ((s.wptTurn c un t).wptH c un).first) ∧
        u.getB (pgWpt c un) (wptOff un 0x18) 3 = true ∧
        u.tiles = (s.wptTurn c un t).tiles ∧
        (∀ q off, q ≠ pgWpt c un → off < 4096 → u.rd q off = (s.wptTurn c un t).rd q off) :)
    ∧ (∀ (c un t : Nat) (s : State), (Instr.waypointFire c un t).wf = true → s.calm = true → s.wptCalm c un t = true → (s.wptTurn c un t).calm = true → ((s.wptTurn c un t).wptH c un).armT = none → ((s.wptTurn c un t).wptH c un).wrT ≠ some t → (s.wptTurn c un t).wptLive c un = true → (s.wptTurn c un t).wptMet c un t = true → (s.wptTurn c un t).fld (pgWpt c un) (wptOff un 8) 28 26 = 2 →
      Completes (.waypointFire c un t) s fun u => 
        u.fld (pgWpt c un) (wptOff un 0x18) 31 16 = min 0xFFFF ((s.wptTurn c un t).fld (pgWpt c un) (wptOff un 0x18) 31 16 + 1) ∧
        u.getB (pgWpt c un) (0x840 + 4 * (un % 64 / 32)) (un % 32) = true ∧
        u.getB (pgWpt c un) 0x010 16 = true ∧
        u.getB (pgWpt c un) (wptOff un 0x18) 0 = ((s.wptTurn c un t).getB (pgWpt c un) (wptOff un 0x18) 0 || !(bits ((s.wptTurn c un t).trkTq ((s.wptTurn c un t).wptTrack c un)) 2 0 == 2 || bits ((s.wptTurn c un t).trkTq ((s.wptTurn c un t).wptTrack c un)) 2 0 == 3)) ∧
        u.getB (pgWpt c un) (wptOff un 0x18) 1 = ((s.wptTurn c un t).getB (pgWpt c un) (wptOff un 0x18) 1 || bit ((s.wptTurn c un t).trkTq ((s.wptTurn c un t).wptTrack c un)) 4) ∧
        u.getB (pgWpt c un) (wptOff un 0x18) 2 = ((s.wptTurn c un t).getB (pgWpt c un) (wptOff un 0x18) 2 || ((s.wptTurn c un t).wptH c un).first) ∧
        u.tfe = ((s.wptTurn c un t).tfeSubmit c ((s.wptTurn c un t).wptRd c un 0xC) un).tfe :)
    ∧ (∀ (c un t : Nat) (s : State), (Instr.waypointFire c un t).wf = true → s.calm = true → s.wptCalm c un t = true → (s.wptTurn c un t).calm = true → ((s.wptTurn c un t).wptH c un).armT = none → ((s.wptTurn c un t).wptH c un).wrT ≠ some t → (s.wptTurn c un t).wptLive c un = true → (s.wptTurn c un t).wptMet c un t = true → (s.wptTurn c un t).fld (pgWpt c un) (wptOff un 8) 28 26 = 3 →
      Completes (.waypointFire c un t) s fun u => 
        u.fld (pgWpt c un) (wptOff un 0x18) 31 16 = min 0xFFFF ((s.wptTurn c un t).fld (pgWpt c un) (wptOff un 0x18) 31 16 + 1) ∧
        u.getB (pgWpt c un) (0x840 + 4 * (un % 64 / 32)) (un % 32) = true ∧
        u.getB (pgWpt c un) 0x010 16 = true ∧
        u.getB (pgWpt c un) (wptOff un 0x18) 0 = ((s.wptTurn c un t).getB (pgWpt c un) (wptOff un 0x18) 0 || !(bits ((s.wptTurn c un t).trkTq ((s.wptTurn c un t).wptTrack c un)) 2 0 == 2 || bits ((s.wptTurn c un t).trkTq ((s.wptTurn c un t).wptTrack c un)) 2 0 == 3)) ∧
        u.getB (pgWpt c un) (wptOff un 0x18) 1 = ((s.wptTurn c un t).getB (pgWpt c un) (wptOff un 0x18) 1 || bit ((s.wptTurn c un t).trkTq ((s.wptTurn c un t).wptTrack c un)) 4) ∧
        u.getB (pgWpt c un) (wptOff un 0x18) 2 = ((s.wptTurn c un t).getB (pgWpt c un) (wptOff un 0x18) 2 || ((s.wptTurn c un t).wptH c un).first) ∧
        u.strs = (captureOpen ((s.wptTurn c un t).wptRd c un 0xC % 4096) (s.wptTurn c un t)).strs :)
    ∧ (∀ (c un t : Nat) (s : State), (Instr.waypointFire c un t).wf = true → s.calm = true → s.wptCalm c un t = true → (s.wptTurn c un t).calm = true → ((s.wptTurn c un t).wptH c un).armT = none → ((s.wptTurn c un t).wptH c un).wrT ≠ some t → (s.wptTurn c un t).wptLive c un = true → (s.wptTurn c un t).wptMet c un t = true → (s.wptTurn c un t).fld (pgWpt c un) (wptOff un 8) 28 26 = 4 →
      Completes (.waypointFire c un t) s fun u => 
        u.fld (pgWpt c un) (wptOff un 0x18) 31 16 = min 0xFFFF ((s.wptTurn c un t).fld (pgWpt c un) (wptOff un 0x18) 31 16 + 1) ∧
        u.getB (pgWpt c un) (0x840 + 4 * (un % 64 / 32)) (un % 32) = true ∧
        u.getB (pgWpt c un) 0x010 16 = true ∧
        u.getB (pgWpt c un) (wptOff un 0x18) 0 = ((s.wptTurn c un t).getB (pgWpt c un) (wptOff un 0x18) 0 || !(bits ((s.wptTurn c un t).trkTq ((s.wptTurn c un t).wptTrack c un)) 2 0 == 2 || bits ((s.wptTurn c un t).trkTq ((s.wptTurn c un t).wptTrack c un)) 2 0 == 3)) ∧
        u.getB (pgWpt c un) (wptOff un 0x18) 1 = ((s.wptTurn c un t).getB (pgWpt c un) (wptOff un 0x18) 1 || bit ((s.wptTurn c un t).trkTq ((s.wptTurn c un t).wptTrack c un)) 4) ∧
        u.getB (pgWpt c un) (wptOff un 0x18) 2 = ((s.wptTurn c un t).getB (pgWpt c un) (wptOff un 0x18) 2 || ((s.wptTurn c un t).wptH c un).first) ∧
        u.strs = (captureClose ((s.wptTurn c un t).wptRd c un 0xC % 4096) (s.wptTurn c un t)).strs :)
    ∧ (∀ (c un t : Nat) (s : State), (Instr.waypointFire c un t).wf = true → s.calm = true → s.wptCalm c un t = true → (s.wptTurn c un t).calm = true → ((s.wptTurn c un t).wptH c un).armT = none → ((s.wptTurn c un t).wptH c un).wrT ≠ some t → (s.wptTurn c un t).wptLive c un = true → (s.wptTurn c un t).wptMet c un t = true → (s.wptTurn c un t).fld (pgWpt c un) (wptOff un 8) 28 26 = 5 → s.pstate' = 2 →
      Completes (.waypointFire c un t) s fun u => 
        u.pstate' = 3 ∧
        u.fld (pgBcp 5) 0x044 27 24 = 1 :)
    ∧ (∀ (c un t : Nat) (s : State), (Instr.waypointFire c un t).wf = true → s.calm = true → s.wptCalm c un t = true → ((s.wptTurn c un t).wptH c un).wrT = some t → ((s.wptTurn c un t).wptH c un).fireT ≠ some t → ((s.wptTurn c un t).wptPut c un ((s.wptTurn c un t).wptH c un).old).wptLive c un = true → ((s.wptTurn c un t).wptPut c un ((s.wptTurn c un t).wptH c un).old).wptMet c un t = true → ((s.wptTurn c un t).wptPut c un ((s.wptTurn c un t).wptH c un).old).fld (pgWpt c un) (wptOff un 8) 28 26 = 0 →
      Completes (.waypointFire c un t) s fun u => 
        u.fld (pgWpt c un) (wptOff un 0x18) 31 16 = min 0xFFFF ((s.wptTurn c un t).fld (pgWpt c un) (wptOff un 0x18) 31 16 + 1) ∧
        u.wptWords c un = (s.wptTurn c un t).wptWords c un :)
    ∧ (∀ (c un t : Nat) (s : State), (Instr.deadlineFire c un t).wf = true → s.calm = true → s.wptCalm c un t = true → (s.wptTurn c un t).calm = true → ((s.wptTurn c un t).wptH c un).armT = none → ((s.wptTurn c un t).wptH c un).wrT ≠ some t → (s.wptTurn c un t).wptLive c un = true → (s.wptTurn c un t).wptMet c un t = false → (s.wptTurn c un t).wptOver c un t = true → (s.wptTurn c un t).fld (pgWpt c un) (wptOff un 8) 28 26 ≠ 5 →
      Completes (.deadlineFire c un t) s fun u => 
        u.fld (pgWpt c un) (wptOff un 0x18) 31 16 = min 0xFFFF ((s.wptTurn c un t).fld (pgWpt c un) (wptOff un 0x18) 31 16 + 1) ∧
        u.getB (pgWpt c un) (0x840 + 4 * (un % 64 / 32)) (un % 32) = true ∧
        u.getB (pgWpt c un) 0x010 16 = true ∧
        u.getB (pgWpt c un) (wptOff un 0x18) 0 = ((s.wptTurn c un t).getB (pgWpt c un) (wptOff un 0x18) 0 || !(bits ((s.wptTurn c un t).trkTq ((s.wptTurn c un t).wptTrack c un)) 2 0 == 2 || bits ((s.wptTurn c un t).trkTq ((s.wptTurn c un t).wptTrack c un)) 2 0 == 3)) ∧
        u.getB (pgWpt c un) (wptOff un 0x18) 1 = ((s.wptTurn c un t).getB (pgWpt c un) (wptOff un 0x18) 1 || bit ((s.wptTurn c un t).trkTq ((s.wptTurn c un t).wptTrack c un)) 4) ∧
        u.getB (pgWpt c un) (wptOff un 0x18) 2 = true ∧
        u.wptArmed c un = true ∧
        u.rd64 (pgWpt c un) (wptOff un 0) = (s.wptTurn c un t).rd64 (pgWpt c un) (wptOff un 0) ∧
        (u.wptH c un).dlT = t ∧
        ((s.wptTurn c un t).fld (pgWpt c un) (wptOff un 8) 28 26 = 0 → ({ u with regs := (s.wptTurn c un t).regs, hot := (s.wptTurn c un t).hot, wpt := (s.wptTurn c un t).wpt } : State) = (s.wptTurn c un t)) :)

/-- While detection runs, a granted 24 V class with SPWR present, and fewer than 16 ports powered in the last 10 ms, applies power at 24.0 V within the current limit and starts training; with 16 of them the port waits; another class, or SPWR low, asks for a retry 1 s later; a refusal does so too; either shows SPWR_LOW and FAULT_CODE 0x04 while SPWR is low; a retry due starts detection again where the port asks for power; an overload removes power and asks for a retry, and the third within 10 s latches and halts the port. -/
def Obligations.PortPower : Prop :=
    (∀ (p cls volt cur : Nat) (is24V : Bool) (t : Nat) (s : State), (Instr.powerApplied p cls volt cur is24V t).wf = true → s.calm = true → s.pstate p = 1 → (s.portH p).detect = true → s.getB (pgSpt p) 0x044 15 = true → s.getB (pgSpt p) 0x048 1 = false → is24V = true → s.spwrLow = false → (s.upTo t).powerRoom = true → s.busy (pgSpt p) = true →
      Completes (.powerApplied p cls volt cur is24V t) s fun u => 
        u.pstate p = 2 ∧
        u.getB (pgSpt p) 0x048 0 = true ∧
        (u.fld (pgSpt p) 0x048 31 24 = (if cur < 9 * s.fld (pgSpt p) 0x044 6 0 / 2 then 240 else min volt 240)) ∧
        u.fld (pgSpt p) 0x048 23 12 = min cur (9 * s.fld (pgSpt p) 0x044 6 0 / 2) ∧
        u.fld (pgSpt p) 0x048 11 8 = cls % 16 ∧
        (u.portH p).retryAt = none ∧
        (u.portH p).detect = false ∧
        u.portPower.head? = some u.now ∧
        (∀ q, q ≠ p → u.portH q = s.portH q) ∧
        u.now = max s.now t ∧
        RegsOnly [pgSpt p] s u ∧
        { u with regs := s.regs, now := s.now, hot := s.hot, ports := s.ports, portPower := s.portPower } = s :)
    ∧ (∀ (p cls volt cur : Nat) (is24V : Bool) (t : Nat) (s : State), (Instr.powerApplied p cls volt cur is24V t).wf = true → s.calm = true → s.pstate p ≠ 1 → (s.portH p).detect = true → s.getB (pgSpt p) 0x044 15 = true → s.getB (pgSpt p) 0x048 1 = false → is24V = true → s.spwrLow = false → (s.upTo t).powerRoom = true →
      Completes (.powerApplied p cls volt cur is24V t) s fun u => 
        u.pstate p = s.pstate p ∧
        u.getB (pgSpt p) 0x048 0 = true ∧
        (u.fld (pgSpt p) 0x048 31 24 = (if cur < 9 * s.fld (pgSpt p) 0x044 6 0 / 2 then 240 else min volt 240)) ∧
        u.fld (pgSpt p) 0x048 23 12 = min cur (9 * s.fld (pgSpt p) 0x044 6 0 / 2) ∧
        u.fld (pgSpt p) 0x048 11 8 = cls % 16 ∧
        (u.portH p).retryAt = none ∧
        (u.portH p).detect = false ∧
        u.portPower.head? = some u.now ∧
        (∀ q, q ≠ p → u.portH q = s.portH q) ∧
        u.now = max s.now t ∧
        RegsOnly [pgSpt p] s u ∧
        { u with regs := s.regs, now := s.now, hot := s.hot, ports := s.ports, portPower := s.portPower } = s :)
    ∧ (∀ (p cls volt cur : Nat) (is24V : Bool) (t : Nat) (s : State), (Instr.powerApplied p cls volt cur is24V t).wf = true → s.calm = true → (s.portH p).detect = true → s.getB (pgSpt p) 0x044 15 = true → s.getB (pgSpt p) 0x048 1 = false → (is24V = false ∨ s.spwrLow = true) →
      Completes (.powerApplied p cls volt cur is24V t) s fun u => 
        u.pstate p = s.pstate p ∧
        (u.portH p).retryAt = some (u.now + 3000000000) ∧
        (u.portH p).detect = false ∧
        (u.fld (pgSpt p) 0x008 15 8 = (if s.spwrLow then 4 else s.fld (pgSpt p) 0x008 15 8)) ∧
        u.getB (pgSpt p) 0x048 4 = (s.getB (pgSpt p) 0x048 4 || s.spwrLow) ∧
        u.getB (pgSpt p) 0x010 21 = (s.getB (pgSpt p) 0x010 21 || s.spwrLow) ∧
        (∀ q, q ≠ p → u.portH q = s.portH q) ∧
        u.now = max s.now t ∧
        RegsOnly [pgSpt p] s u ∧
        { u with regs := s.regs, now := s.now, hot := s.hot, ports := s.ports } = s :)
    ∧ (∀ (p cls volt cur : Nat) (is24V : Bool) (t : Nat) (s : State), (Instr.powerApplied p cls volt cur is24V t).wf = true → s.calm = true → is24V = true → s.spwrLow = false → (s.upTo t).powerRoom = false →
      Completes (.powerApplied p cls volt cur is24V t) s fun u => 
        u.now = max s.now t ∧
        RegsOnly [] s u ∧
        { u with regs := s.regs, now := s.now, hot := s.hot } = s :)
    ∧ (∀ (p t : Nat) (s : State), (Instr.powerRefused p t).wf = true → s.calm = true → (s.portH p).detect = true →
      Completes (.powerRefused p t) s fun u => 
        u.pstate p = s.pstate p ∧
        (u.portH p).retryAt = some (u.now + 3000000000) ∧
        (u.portH p).detect = false ∧
        (u.fld (pgSpt p) 0x008 15 8 = (if s.spwrLow then 4 else s.fld (pgSpt p) 0x008 15 8)) ∧
        u.getB (pgSpt p) 0x048 4 = (s.getB (pgSpt p) 0x048 4 || s.spwrLow) ∧
        u.getB (pgSpt p) 0x010 21 = (s.getB (pgSpt p) 0x010 21 || s.spwrLow) ∧
        (∀ q, q ≠ p → u.portH q = s.portH q) ∧
        u.now = max s.now t ∧
        RegsOnly [pgSpt p] s u ∧
        { u with regs := s.regs, now := s.now, hot := s.hot, ports := s.ports } = s :)
    ∧ (∀ (p t r : Nat) (s : State), (Instr.powerRetry p t).wf = true → s.calm = true → (s.portH p).retryAt = some r → r ≤ t →
      Completes (.powerRetry p t) s fun u => 
        (u.portH p).retryAt = none ∧
        (u.portH p).detect = (decide (s.pstate p ≠ 0) && !s.getB (pgSpt p) 0x048 1 && s.getB (pgSpt p) 0x044 15) ∧
        u.pstate p = s.pstate p ∧
        (∀ q, q ≠ p → u.portH q = s.portH q) ∧
        u.now = max s.now t ∧
        RegsOnly [] s u ∧
        { u with regs := s.regs, now := s.now, hot := s.hot, ports := s.ports } = s :)
    ∧ (∀ (p t : Nat) (s : State), (Instr.overload p t).wf = true → s.calm = true → s.pstate p ≠ 0 → s.getB (pgSpt p) 0x048 0 = true → ((s.portH p).overloads.filter fun x => decide (max s.now t < x + 30000000000)).length < 2 →
      Completes (.overload p t) s fun u => 
        u.getB (pgSpt p) 0x048 0 = false ∧
        u.getB (pgSpt p) 0x048 2 = true ∧
        u.getB (pgSpt p) 0x010 21 = true ∧
        (u.portH p).retryAt = some (u.now + 3000000000) ∧
        u.pstate p = s.pstate p ∧
        (∀ q, q ≠ p → u.portH q = s.portH q) ∧
        u.now = max s.now t ∧
        RegsOnly [pgSpt p] s u ∧
        { u with regs := s.regs, now := s.now, hot := s.hot, ports := s.ports } = s :)
    ∧ (∀ (p t : Nat) (s : State), (Instr.overload p t).wf = true → s.calm = true → s.pstate p ≠ 0 → s.getB (pgSpt p) 0x048 0 = true → s.retired (pgSpt p) = false → s.faulted (pgSpt p) = false → (s.ready (pgSpt p) || s.busy (pgSpt p)) = true → 2 ≤ ((s.portH p).overloads.filter fun x => decide (max s.now t < x + 30000000000)).length →
      Completes (.overload p t) s fun u => 
        u.getB (pgSpt p) 0x048 0 = false ∧
        u.getB (pgSpt p) 0x048 1 = true ∧
        u.pstate p = 6 ∧
        u.session p = 0 ∧
        u.fld (pgSpt p) 0x008 3 0 = 4 ∧
        u.fld (pgSpt p) 0x008 15 8 = 3 ∧
        (∀ q, q ≠ p → u.portH q = s.portH q) ∧
        u.now = max s.now t ∧
        RegsOnly [pgSpt p, pgBcp 1] s u ∧
        { u with regs := s.regs, now := s.now, hot := s.hot, ports := s.ports, srcQ := s.srcQ, log := s.log } = s :)
    ∧ (∀ (p t : Nat) (s : State), (Instr.overload p t).wf = true → s.calm = true → s.pstate p ≠ 0 → s.getB (pgSpt p) 0x048 0 = true → s.retired (pgSpt p) = false → s.faulted (pgSpt p) = true → 2 ≤ ((s.portH p).overloads.filter fun x => decide (max s.now t < x + 30000000000)).length →
      Completes (.overload p t) s fun u => 
        u.getB (pgSpt p) 0x048 0 = false ∧
        u.getB (pgSpt p) 0x048 1 = true ∧
        u.pstate p = 6 ∧
        u.session p = 0 ∧
        u.fld (pgSpt p) 0x008 15 8 = 3 ∧
        (∀ q, q ≠ p → u.portH q = s.portH q) ∧
        u.now = max s.now t ∧
        RegsOnly [pgSpt p] s u ∧
        { u with regs := s.regs, now := s.now, hot := s.hot, ports := s.ports, srcQ := s.srcQ } = s :)

/-- Link up in TRAINING draws a session that is not zero and not the one before, shows LINK, enters ATTACHING and sends the first QUERY with SEQ 0 (a NODE-role port keeps its session and waits for SYNC); link down from ATTACHING to STREAMING ends the session and returns to TRAINING, or to POWERING where power went, with FAULT_CODE 0x01 from STREAMING; in every other state it only clears LINK and SYNC; 5 s of training restart it; 100 ms without the full answer resend the QUERY, after ten of them, or 2 s of CONFIGURING, or 500 ms of silence while STREAMING, the PHY restarts with its FAULT_CODE. -/
def Obligations.PortLink : Prop :=
    (∀ (p amp ms t a m : Nat) (s : State), (Instr.linkUp p amp ms t).wf = true → s.calm = true → s.pstate p = 2 → s.isNode p = false → s.linkModes p amp ms = some (a, m) →
      Completes (.linkUp p amp ms t) s fun u => 
        u.pstate p = 3 ∧
        u.getB (pgSpt p) 0x06C 21 = true ∧
        u.getB (pgSpt p) 0x010 16 = true ∧
        u.session p ≠ 0 ∧
        u.session p ≠ (s.portH p).lastSession ∧
        u.syncState p = 1 ∧
        u.getB (pgSpt p) 0x06C 20 = (a == 1) ∧
        u.getB (pgSpt p) 0x06C 19 = (m == 1) ∧
        u.out.dropLast = s.out ∧
        (u.lastOsp.map (fun o => (o.1, o.2.1, o.2.2.1, o.2.2.2.1, o.2.2.2.2.1, o.2.2.2.2.2.length)) = some (p, 0x12, 0, 0, 3, 0)) ∧
        (u.portH p).seqOut = 1 ∧
        (∀ q, q ≠ p → u.portH q = s.portH q) ∧
        u.now = max s.now t ∧
        RegsOnly [pgSpt p] s u ∧
        { u with regs := s.regs, now := s.now, hot := s.hot, ports := s.ports, out := s.out, free := s.free } = s :)
    ∧ (∀ (p amp ms t a m : Nat) (s : State), (Instr.linkUp p amp ms t).wf = true → s.calm = true → s.pstate p = 2 → s.isNode p = true → s.linkModes p amp ms = some (a, m) →
      Completes (.linkUp p amp ms t) s fun u => 
        u.pstate p = 3 ∧
        u.getB (pgSpt p) 0x06C 21 = true ∧
        u.getB (pgSpt p) 0x010 16 = true ∧
        u.session p = s.session p ∧
        (u.portH p).lastSession = (s.portH p).lastSession ∧
        u.syncState p = 1 ∧
        u.getB (pgSpt p) 0x06C 20 = (a == 1) ∧
        u.getB (pgSpt p) 0x06C 19 = (m == 1) ∧
        u.rd (pgSpt p) 0x09C = 0 ∧
        (u.portH p).seqOut = 0 ∧
        (∀ q, q ≠ p → u.portH q = s.portH q) ∧
        u.now = max s.now t ∧
        RegsOnly [pgSpt p] s u ∧
        { u with regs := s.regs, now := s.now, hot := s.hot, ports := s.ports, free := s.free } = s :)
    ∧ (∀ (p t : Nat) (s : State), (Instr.linkDown p t).wf = true → s.calm = true → 3 ≤ s.pstate p → s.pstate p ≤ 5 → s.retired (pgSpt p) = false → (s.pageH (pgSpt p)).resetting = false → (s.ready (pgSpt p) || s.busy (pgSpt p)) = true →
      Completes (.linkDown p t) s fun u => 
        (u.pstate p = (if s.getB (pgSpt p) 0x048 0 = true ∨ s.getB (pgSpt p) 0x044 15 = false then 2 else 1)) ∧
        u.session p = 0 ∧
        u.getB (pgSpt p) 0x06C 21 = false ∧
        u.syncState p = 0 ∧
        (s.pstate p = 5 → u.fld (pgSpt p) 0x008 15 8 = 1) ∧
        u.getB (pgSpt p) 0x010 16 = (s.getB (pgSpt p) 0x010 16 || s.getB (pgSpt p) 0x06C 21) ∧
        (∀ q, q ≠ p → u.portH q = s.portH q) ∧
        u.now = max s.now t ∧
        RegsOnly [pgSpt p, pgBcp 1] s u ∧
        { u with regs := s.regs, now := s.now, hot := s.hot, ports := s.ports, srcQ := s.srcQ, log := s.log } = s :)
    ∧ (∀ (p t : Nat) (s : State), (Instr.linkDown p t).wf = true → s.calm = true → (s.pstate p < 3 ∨ 5 < s.pstate p) →
      Completes (.linkDown p t) s fun u => 
        u.pstate p = s.pstate p ∧
        u.session p = s.session p ∧
        u.getB (pgSpt p) 0x06C 21 = false ∧
        u.syncState p = 0 ∧
        u.getB (pgSpt p) 0x010 16 = (s.getB (pgSpt p) 0x010 16 || s.getB (pgSpt p) 0x06C 21) ∧
        u.now = max s.now t ∧
        RegsOnly [pgSpt p] s u ∧
        { u with regs := s.regs, now := s.now, hot := s.hot } = s :)
    ∧ (∀ (p t : Nat) (s : State), (Instr.trainingTimeout p t).wf = true → s.calm = true → s.pstate p = 2 → (s.portH p).tEnter + 15000000000 ≤ t →
      Completes (.trainingTimeout p t) s fun u => 
        u.pstate p = 2 ∧
        (u.portH p).tEnter = t ∧
        (∀ q, q ≠ p → u.portH q = s.portH q) ∧
        u.now = max s.now t ∧
        RegsOnly [] s u ∧
        { u with regs := s.regs, now := s.now, hot := s.hot, ports := s.ports } = s :)
    ∧ (∀ (p t : Nat) (s : State), (Instr.attachTimeout p t).wf = true → s.calm = true → s.pstate p = 3 → s.isNode p = false → (s.portH p).tQuery + 300000000 ≤ t → (s.portH p).queries < 10 →
      Completes (.attachTimeout p t) s fun u => 
        u.pstate p = 3 ∧
        (u.portH p).queries = (s.portH p).queries + 1 ∧
        u.out = s.out ++ [s.ospOut p 0x12 0 3 []] ∧
        (∀ q, q ≠ p → u.portH q = s.portH q) ∧
        u.now = max s.now t ∧
        RegsOnly [] s u ∧
        { u with regs := s.regs, now := s.now, hot := s.hot, ports := s.ports, out := s.out } = s :)
    ∧ (∀ (p t : Nat) (s : State), (Instr.attachTimeout p t).wf = true → s.calm = true → s.pstate p = 3 → s.isNode p = false → (s.portH p).tQuery + 300000000 ≤ t → 10 ≤ (s.portH p).queries → s.retired (pgSpt p) = false → (s.pageH (pgSpt p)).resetting = false → (s.faulted (pgSpt p) || s.ready (pgSpt p) || s.busy (pgSpt p)) = true →
      Completes (.attachTimeout p t) s fun u => 
        u.pstate p = 2 ∧
        u.faulted (pgSpt p) = true ∧
        u.fld (pgSpt p) 0x008 15 8 = 6 ∧
        u.session p = 0 ∧
        (∀ q, q ≠ p → u.portH q = s.portH q) ∧
        u.now = max s.now t ∧
        RegsOnly [pgSpt p, pgBcp 1] s u ∧
        { u with regs := s.regs, now := s.now, hot := s.hot, ports := s.ports, srcQ := s.srcQ, log := s.log } = s :)
    ∧ (∀ (p t : Nat) (s : State), (Instr.configuringTimeout p t).wf = true → s.calm = true → s.pstate p = 4 → (s.portH p).tEnter + 6000000000 ≤ t → s.retired (pgSpt p) = false → (s.pageH (pgSpt p)).resetting = false → (s.faulted (pgSpt p) || s.ready (pgSpt p) || s.busy (pgSpt p)) = true →
      Completes (.configuringTimeout p t) s fun u => 
        u.pstate p = 2 ∧
        u.faulted (pgSpt p) = true ∧
        u.fld (pgSpt p) 0x008 15 8 = 6 ∧
        u.session p = 0 ∧
        (∀ q, q ≠ p → u.portH q = s.portH q) ∧
        u.now = max s.now t ∧
        RegsOnly [pgSpt p, pgBcp 1] s u ∧
        { u with regs := s.regs, now := s.now, hot := s.hot, ports := s.ports, srcQ := s.srcQ, log := s.log } = s :)
    ∧ (∀ (p t : Nat) (s : State), (Instr.nodeSilent p t).wf = true → s.calm = true → s.pstate p = 5 → s.isNode p = false → (s.portH p).statusT + 1500000000 ≤ t → s.retired (pgSpt p) = false → (s.pageH (pgSpt p)).resetting = false → (s.faulted (pgSpt p) || s.ready (pgSpt p) || s.busy (pgSpt p)) = true →
      Completes (.nodeSilent p t) s fun u => 
        u.pstate p = 2 ∧
        u.faulted (pgSpt p) = true ∧
        u.fld (pgSpt p) 0x008 15 8 = 5 ∧
        u.session p = 0 ∧
        (∀ q, q ≠ p → u.portH q = s.portH q) ∧
        u.now = max s.now t ∧
        RegsOnly [pgSpt p, pgBcp 1] s u ∧
        { u with regs := s.regs, now := s.now, hot := s.hot, ports := s.ports, srcQ := s.srcQ, log := s.log } = s :)

/-- A record that passes the checks and the token bucket acts. SAMPLE: of every enabled channel of the record N moves past its block, or stays where it was further on; a channel that alone forms its group and is in step queues the samples of its block with their marks at the destination of its module channel; other channels stay. A record that matches no group is discarded and counted, one over the token bucket or the buffer is counted and queues nothing, and its samples are marked as lost by that cause. GAP moves N of every enabled channel past the lost extent; SYNC_REPLY keeps the round trip, sets delay and offset, clears the missed count, locks after eight good replies and unlocks after two bad ones or a step; IDENT, CAL, SELFTEST and STATUS bodies stand in their windows with their VALID bits; an IDENT of another serial than the expected halts an attaching port, and the IDENT or CAL that completes the attach sends CONFIG and enters CONFIGURING; a STATUS echoing CFG_GEN with SYNC LOCKED ends CONFIGURING. A record with a wrong CRC is counted and does nothing. At its end a foreign frame is counted, and one whose last record runs past its end is a CRC failure. -/
def Obligations.PortRecords : Prop :=
    (∀ (p t : Nat) (o : OspRec) (b : Nat) (s : State), (Instr.sample p t o).wf = true → s.calm = true → (s.portH p).chans.length = 4 → ((s.upTo t).recvCheck p 0x01 true o).1 = true → (((s.upTo t).recvCheck p 0x01 true o).2.police p (o.body.length + 12)).1 = true → (s.portH p).cfg.bind (fun c => matchGroup c (bits o.arg 3 0) (bits o.arg 7 4) (o.body.length + 12) (bodyNum o.body 0 6)) = some b → (s.portH p).outside + (o.body.length + 12) ≤ 65280 → (s.portH p).inReserve ≤ 128 → (s.portH p).chans.all (fun c => c.loss.isEmpty) = true →
      Completes (.sample p t o) s fun u => 
        (∀ k, k < 4 → (bit o.arg k && s.chEn p k) = true → (u.ch p k).n = some (max ((s.ch p k).n.getD 0) (bodyNum o.body 0 6 + 2 ^ b)) ∧ u.rd64 (pgSpt p) (0x208 + 64 * k) = max ((s.ch p k).n.getD 0) (bodyNum o.body 0 6 + 2 ^ b) % 2 ^ 64) ∧
        (∀ k, k < 4 → (bit o.arg k && s.chEn p k) = false → u.ch p k = s.ch p k) ∧
        (∀ q, q ≠ p → u.portH q = s.portH q) ∧
        u.now = max s.now t ∧
        RegsOnly [pgSpt p] s u ∧
        { u with regs := s.regs, now := s.now, hot := s.hot, ports := s.ports, srcQ := s.srcQ } = s :)
    ∧ (∀ (p t : Nat) (o : OspRec) (b k : Nat) (s : State), (Instr.sample p t o).wf = true → s.calm = true → k < 4 → (s.portH p).chans.length = 4 → ((s.upTo t).recvCheck p 0x01 true o).1 = true → (((s.upTo t).recvCheck p 0x01 true o).2.police p (o.body.length + 12)).1 = true → bits o.arg 3 0 = 2 ^ k → (s.portH p).cfg.bind (fun c => matchGroup c (bits o.arg 3 0) (bits o.arg 7 4) (o.body.length + 12) (bodyNum o.body 0 6)) = some b → (s.portH p).outside + (o.body.length + 12) ≤ 65280 → s.chEn p k = true → (s.ch p k).pend = none → ((s.ch p k).n = none ∨ (s.ch p k).n = some (bodyNum o.body 0 6)) → (s.entryOf (portKey (s.moduleCh p k))).isSome = true →
      Completes (.sample p t o) s fun u => 
        (u.queue (portKey (s.moduleCh p k))).dropLast = s.queue (portKey (s.moduleCh p k)) ∧
        ((u.queue (portKey (s.moduleCh p k))).getLast?.map (fun i => (i.port, i.chan, i.gap, i.idx, i.acceptedAt)) = some (p, s.moduleCh p k, false, bodyNum o.body 0 6, u.now)) ∧
        ((u.queue (portKey (s.moduleCh p k))).getLast?.map (fun i => i.samples) = some ((List.range (2 ^ b)).map (fun i => (bodyNum o.body (8 + 3 * i) 3, false)))) ∧
        ((u.queue (portKey (s.moduleCh p k))).getLast?.map (fun i => i.marks) = some (b2n (bit o.flags 0 || s.syncState p != 2) + 2 * b2n (bit o.flags 1) + 4 * b2n (bit (bodyNum o.body 6 1) k) + 8 * b2n (decide (3 * (s.rd (pgSpt p) 0x070 : Int) * fsOf (bits o.arg 7 4) < ((t : Int) - s.rd64 (pgSpt p) 0x060) * fsOf (bits o.arg 7 4) - 3000000000 * bodyNum o.body 0 6)) + 16 * b2n (s.getB (pgSpt p) 0x09C 6 && !bit (bits (s.rd (pgSpt p) 0x1C0) 15 8) k))) ∧
        (∀ k, k < 4 → (bit o.arg k && s.chEn p k) = false → u.ch p k = s.ch p k) ∧
        (∀ q, q ≠ p → u.portH q = s.portH q) ∧
        u.now = max s.now t ∧
        RegsOnly [pgSpt p] s u ∧
        { u with regs := s.regs, now := s.now, hot := s.hot, ports := s.ports, srcQ := s.srcQ } = s :)
    ∧ (∀ (p t : Nat) (o : OspRec) (s : State), (Instr.sample p t o).wf = true → s.calm = true → ((s.upTo t).recvCheck p 0x01 true o).1 = true → (s.portH p).cfg.bind (fun c => matchGroup c (bits o.arg 3 0) (bits o.arg 7 4) (o.body.length + 12) (bodyNum o.body 0 6)) = none → ((s.portH p).acked = true ∨ (s.portH p).cfgPrev = none) →
      Completes (.sample p t o) s fun u => 
        u.fld (pgSpt p) 0x08C 31 16 = min 0xFFFF (((s.upTo t).recvCheck p 0x01 true o).2.fld (pgSpt p) 0x08C 31 16 + 1) ∧
        (∀ k, k < 4 → u.ch p k = s.ch p k) ∧
        (∀ q, q ≠ p → u.portH q = s.portH q) ∧
        u.now = max s.now t ∧
        RegsOnly [pgSpt p] s u ∧
        { u with regs := s.regs, now := s.now, hot := s.hot, ports := s.ports } = s :)
    ∧ (∀ (p t : Nat) (o : OspRec) (b : Nat) (s : State), (Instr.sample p t o).wf = true → s.calm = true → ((s.upTo t).recvCheck p 0x01 true o).1 = true → (((s.upTo t).recvCheck p 0x01 true o).2.police p (o.body.length + 12)).1 = false → (s.portH p).cfg.bind (fun c => matchGroup c (bits o.arg 3 0) (bits o.arg 7 4) (o.body.length + 12) (bodyNum o.body 0 6)) = some b →
      Completes (.sample p t o) s fun u => 
        u.fld (pgSpt p) 0x088 15 0 = min 0xFFFF (((s.upTo t).recvCheck p 0x01 true o).2.fld (pgSpt p) 0x088 15 0 + 1) ∧
        u.getB (pgSpt p) 0x010 20 = true ∧
        (∀ k, k < 4 → (bit o.arg k && s.chEn p k) = true → (s.ch p k).n.isSome = true → (s.ch p k).pend = none → (s.ch p k).n.getD 0 < bodyNum o.body 0 6 + 2 ^ b → (u.ch p k).n = (s.ch p k).n ∧ (u.ch p k).loss = (s.ch p k).loss ++ [(bodyNum o.body 0 6, bodyNum o.body 0 6 + 2 ^ b, 6)]) ∧
        (∀ k, k < 4 → (bit o.arg k && s.chEn p k) = false → u.ch p k = s.ch p k) ∧
        (∀ q, q ≠ p → u.portH q = s.portH q) ∧
        u.now = max s.now t ∧
        RegsOnly [pgSpt p] s u ∧
        { u with regs := s.regs, now := s.now, hot := s.hot, ports := s.ports } = s :)
    ∧ (∀ (p t : Nat) (o : OspRec) (b : Nat) (s : State), (Instr.sample p t o).wf = true → s.calm = true → ((s.upTo t).recvCheck p 0x01 true o).1 = true → (((s.upTo t).recvCheck p 0x01 true o).2.police p (o.body.length + 12)).1 = true → (s.portH p).cfg.bind (fun c => matchGroup c (bits o.arg 3 0) (bits o.arg 7 4) (o.body.length + 12) (bodyNum o.body 0 6)) = some b → 65280 < (s.portH p).outside + (o.body.length + 12) →
      Completes (.sample p t o) s fun u => 
        u.fld (pgSpt p) 0x088 31 16 = min 0xFFFF (((s.upTo t).recvCheck p 0x01 true o).2.fld (pgSpt p) 0x088 31 16 + 1) ∧
        u.getB (pgSpt p) 0x010 20 = true ∧
        (∀ k, k < 4 → (bit o.arg k && s.chEn p k) = true → (s.ch p k).n.isSome = true → (s.ch p k).pend = none → (s.ch p k).n.getD 0 < bodyNum o.body 0 6 + 2 ^ b → (u.ch p k).n = (s.ch p k).n ∧ (u.ch p k).loss = (s.ch p k).loss ++ [(bodyNum o.body 0 6, bodyNum o.body 0 6 + 2 ^ b, 1)]) ∧
        (∀ k, k < 4 → (bit o.arg k && s.chEn p k) = false → u.ch p k = s.ch p k) ∧
        (∀ q, q ≠ p → u.portH q = s.portH q) ∧
        u.now = max s.now t ∧
        RegsOnly [pgSpt p] s u ∧
        { u with regs := s.regs, now := s.now, hot := s.hot, ports := s.ports } = s :)
    ∧ (∀ (p t : Nat) (o : OspRec) (s : State), (Instr.sample p t o).wf = true → s.calm = true → 3 ≤ s.pstate p → s.pstate p ≤ 5 → s.inFrame p o = true → o.before.length = 4 → ospCrc (s.session p) 0x01 o ≠ o.crc →
      Completes (.sample p t o) s fun u => 
        u.fld (pgSpt p) 0x080 31 16 = min 0xFFFF (s.fld (pgSpt p) 0x080 31 16 + 1) ∧
        u.getB (pgSpt p) 0x010 19 = true ∧
        (∀ k, k < 4 → u.ch p k = s.ch p k) ∧
        (u.portH p).seqIn = (s.portH p).seqIn ∧
        (∀ q, q ≠ p → u.portH q = s.portH q) ∧
        u.now = max s.now t ∧
        RegsOnly [pgSpt p] s u ∧
        { u with regs := s.regs, now := s.now, hot := s.hot, ports := s.ports } = s :)
    ∧ (∀ (p t : Nat) (o : OspRec) (s : State), (Instr.gap p t o).wf = true → s.calm = true → (s.portH p).chans.length = 4 → ((s.upTo t).recvCheck p 0x02 true o).1 = true → (((s.upTo t).recvCheck p 0x02 true o).2.police p (o.body.length + 12)).1 = true →
      Completes (.gap p t o) s fun u => 
        (∀ k n, k < 4 → (bit o.arg k && s.chEn p k) = true → (s.ch p k).n = some n → (u.ch p k).n = some (max n (bodyNum o.body 0 6 + bodyNum o.body 8 4))) ∧
        (∀ k, k < 4 → (bit o.arg k && s.chEn p k) = false ∨ (s.ch p k).n = none → u.ch p k = s.ch p k) ∧
        (∀ q, q ≠ p → u.portH q = s.portH q) ∧
        u.now = max s.now t ∧
        RegsOnly [pgSpt p] s u ∧
        { u with regs := s.regs, now := s.now, hot := s.hot, ports := s.ports, srcQ := s.srcQ } = s :)
    ∧ (∀ (p t : Nat) (o : OspRec) (t1 : Nat) (s : State), (Instr.syncReply p t o).wf = true → s.calm = true → ((s.upTo t).recvCheck p 0x03 true o).1 = true → (((s.upTo t).recvCheck p 0x03 true o).2.police p (o.body.length + 12)).1 = true → (s.portH p).syncT1.find? (fun q => q.1 == o.arg) = some (o.arg, t1) →
      Completes (.syncReply p t o) s fun u => let rounds : List Int := ((((t : Int) - t1) - ((bodyNum o.body 8 8 : Int) - bodyNum o.body 0 8)) :: (s.portH p).rounds).take 16; let delay : Int := 8 * rounds.foldl (· + ·) 0 / rounds.length; let ofs : Int := 16 * ((bodyNum o.body 0 8 : Int) - t1) - delay; let good : Nat := if ofs.natAbs ≤ 960 then (s.portH p).good + 1 else 0; let bad : Nat := if 1200 < ofs.natAbs then (s.portH p).bad + 1 else 0; 
        (u.portH p).rounds = rounds ∧
        u.rd (pgSpt p) 0x07C = (delay % 2 ^ 32).toNat ∧
        u.rd (pgSpt p) 0x078 = (ofs % 2 ^ 32).toNat ∧
        (u.portH p).good = good ∧
        (u.portH p).bad = bad ∧
        (u.portH p).missed = 0 ∧
        (u.syncState p = (if s.syncState p = 2 then (if 2 ≤ bad ∨ 12000 < ofs.natAbs then 1 else 2) else if 8 ≤ good then 2 else s.syncState p)) ∧
        (∀ q, q ≠ p → u.portH q = s.portH q) ∧
        u.now = max s.now t ∧
        RegsOnly [pgSpt p] s u ∧
        { u with regs := s.regs, now := s.now, hot := s.hot, ports := s.ports } = s :)
    ∧ (∀ (p t : Nat) (o : OspRec) (s : State), (Instr.syncReply p t o).wf = true → s.calm = true → ((s.upTo t).recvCheck p 0x03 true o).1 = true → (((s.upTo t).recvCheck p 0x03 true o).2.police p (o.body.length + 12)).1 = true → (s.portH p).syncT1.find? (fun q => q.1 == o.arg) = none →
      Completes (.syncReply p t o) s fun u => 
        (u.portH p).rounds = (s.portH p).rounds ∧
        (u.portH p).missed = (s.portH p).missed ∧
        u.syncState p = s.syncState p ∧
        (∀ q, q ≠ p → u.portH q = s.portH q) ∧
        u.now = max s.now t ∧
        RegsOnly [pgSpt p] s u ∧
        { u with regs := s.regs, now := s.now, hot := s.hot, ports := s.ports } = s :)
    ∧ (∀ (p t : Nat) (o : OspRec) (s : State), (Instr.ident p t o).wf = true → s.calm = true → ((s.upTo t).recvCheck p 0x05 true o).1 = true → (((s.upTo t).recvCheck p 0x05 true o).2.police p (o.body.length + 12)).1 = true → ¬ (s.pstate p = 3 ∧ s.rd64 (pgSpt p) 0x058 ≠ 0 ∧ s.rd64 (pgSpt p) 0x058 ≠ bodyNum o.body 4 8) → ¬ (s.pstate p = 3 ∧ (List.range (min 4 (bodyNum o.body 16 1))).all (fun k => bit (s.portH p).calMask k) = true) →
      Completes (.ident p t o) s fun u => 
        u.getB (pgSpt p) 0x09C 0 = true ∧
        u.getB (pgSpt p) 0x010 22 = true ∧
        u.getB (pgSpt p) 0x06C 17 = bit (bodyNum o.body 17 1) 0 ∧
        u.getB (pgSpt p) 0x06C 18 = bit (bodyNum o.body 17 1) 1 ∧
        (∀ i, i < 8 → u.rd (pgSpt p) (0x100 + 4 * i) = bodyNum o.body (4 * i) 4) ∧
        (u.portH p).identOk = true ∧
        (u.portH p).nch = min 4 (bodyNum o.body 16 1) ∧
        u.pstate p = s.pstate p ∧
        (∀ q, q ≠ p → u.portH q = s.portH q) ∧
        u.now = max s.now t ∧
        RegsOnly [pgSpt p] s u ∧
        { u with regs := s.regs, now := s.now, hot := s.hot, ports := s.ports } = s :)
    ∧ (∀ (p t : Nat) (o : OspRec) (s : State), (Instr.ident p t o).wf = true → s.calm = true → ((s.upTo t).recvCheck p 0x05 true o).1 = true → (((s.upTo t).recvCheck p 0x05 true o).2.police p (o.body.length + 12)).1 = true → ¬ (s.pstate p = 3 ∧ s.rd64 (pgSpt p) 0x058 ≠ 0 ∧ s.rd64 (pgSpt p) 0x058 ≠ bodyNum o.body 4 8) → (s.pstate p = 3 ∧ (List.range (min 4 (bodyNum o.body 16 1))).all (fun k => bit (s.portH p).calMask k) = true) →
      Completes (.ident p t o) s fun u => 
        u.getB (pgSpt p) 0x09C 0 = true ∧
        u.getB (pgSpt p) 0x010 22 = true ∧
        u.getB (pgSpt p) 0x06C 17 = bit (bodyNum o.body 17 1) 0 ∧
        u.getB (pgSpt p) 0x06C 18 = bit (bodyNum o.body 17 1) 1 ∧
        (∀ i, i < 8 → u.rd (pgSpt p) (0x100 + 4 * i) = bodyNum o.body (4 * i) 4) ∧
        (u.portH p).identOk = true ∧
        u.pstate p = 4 ∧
        u.out.dropLast = s.out ∧
        (u.lastOsp.map (fun x => (x.1, x.2.1, x.2.2.1, x.2.2.2.2.1)) = some (p, 0x11, 0, (u.portH p).cfgGen)) ∧
        (u.lastOsp.map (fun x => x.2.2.2.2.2) = some (cfgBody (s.cfgNow p))) ∧
        (u.portH p).cfgGen = ((s.portH p).cfgGen + 1) % 65536 ∧
        (u.portH p).cfg = some (s.cfgNow p) ∧
        (∀ q, q ≠ p → u.portH q = s.portH q) ∧
        u.now = max s.now t ∧
        RegsOnly [pgSpt p] s u ∧
        { u with regs := s.regs, now := s.now, hot := s.hot, ports := s.ports, out := s.out } = s :)
    ∧ (∀ (p t : Nat) (o : OspRec) (s : State), (Instr.ident p t o).wf = true → s.calm = true → ((s.upTo t).recvCheck p 0x05 true o).1 = true → (((s.upTo t).recvCheck p 0x05 true o).2.police p (o.body.length + 12)).1 = true → (s.pstate p = 3 ∧ s.rd64 (pgSpt p) 0x058 ≠ 0 ∧ s.rd64 (pgSpt p) 0x058 ≠ bodyNum o.body 4 8) → s.retired (pgSpt p) = false → (s.pageH (pgSpt p)).resetting = false → (s.faulted (pgSpt p) || s.ready (pgSpt p) || s.busy (pgSpt p)) = true →
      Completes (.ident p t o) s fun u => 
        u.getB (pgSpt p) 0x09C 0 = true ∧
        u.getB (pgSpt p) 0x010 22 = true ∧
        u.getB (pgSpt p) 0x06C 17 = bit (bodyNum o.body 17 1) 0 ∧
        u.getB (pgSpt p) 0x06C 18 = bit (bodyNum o.body 17 1) 1 ∧
        (∀ i, i < 8 → u.rd (pgSpt p) (0x100 + 4 * i) = bodyNum o.body (4 * i) 4) ∧
        u.pstate p = 6 ∧
        u.faulted (pgSpt p) = true ∧
        u.fld (pgSpt p) 0x008 15 8 = 2 ∧
        (∀ q, q ≠ p → u.portH q = s.portH q) ∧
        u.now = max s.now t ∧
        RegsOnly [pgSpt p, pgBcp 1] s u ∧
        { u with regs := s.regs, now := s.now, hot := s.hot, ports := s.ports, log := s.log } = s :)
    ∧ (∀ (p t : Nat) (o : OspRec) (s : State), (Instr.cal p t o).wf = true → s.calm = true → ((s.upTo t).recvCheck p 0x06 true o).1 = true → (((s.upTo t).recvCheck p 0x06 true o).2.police p (o.body.length + 12)).1 = true → o.arg < 4 → ¬ (s.pstate p = 3 ∧ (s.portH p).identOk = true ∧ (List.range (s.portH p).nch).all (fun k => bit (setBit (s.portH p).calMask o.arg true) k) = true) →
      Completes (.cal p t o) s fun u => 
        u.getB (pgSpt p) 0x09C (1 + o.arg % 4) = true ∧
        (∀ i, i < 8 → u.rd (pgSpt p) (0x120 + 0x20 * (o.arg % 4) + 4 * i) = bodyNum o.body (4 * i) 4) ∧
        u.getB (pgSpt p) 0x010 22 = true ∧
        (u.portH p).calMask = setBit (s.portH p).calMask o.arg true ∧
        u.pstate p = s.pstate p ∧
        (∀ q, q ≠ p → u.portH q = s.portH q) ∧
        u.now = max s.now t ∧
        RegsOnly [pgSpt p] s u ∧
        { u with regs := s.regs, now := s.now, hot := s.hot, ports := s.ports } = s :)
    ∧ (∀ (p t : Nat) (o : OspRec) (s : State), (Instr.cal p t o).wf = true → s.calm = true → ((s.upTo t).recvCheck p 0x06 true o).1 = true → (((s.upTo t).recvCheck p 0x06 true o).2.police p (o.body.length + 12)).1 = true → o.arg < 4 → (s.pstate p = 3 ∧ (s.portH p).identOk = true ∧ (List.range (s.portH p).nch).all (fun k => bit (setBit (s.portH p).calMask o.arg true) k) = true) →
      Completes (.cal p t o) s fun u => 
        u.getB (pgSpt p) 0x09C (1 + o.arg % 4) = true ∧
        (∀ i, i < 8 → u.rd (pgSpt p) (0x120 + 0x20 * (o.arg % 4) + 4 * i) = bodyNum o.body (4 * i) 4) ∧
        u.getB (pgSpt p) 0x010 22 = true ∧
        (u.portH p).calMask = setBit (s.portH p).calMask o.arg true ∧
        u.pstate p = 4 ∧
        u.out.dropLast = s.out ∧
        (u.lastOsp.map (fun x => (x.1, x.2.1, x.2.2.1, x.2.2.2.2.1)) = some (p, 0x11, 0, (u.portH p).cfgGen)) ∧
        (u.lastOsp.map (fun x => x.2.2.2.2.2) = some (cfgBody (s.cfgNow p))) ∧
        (u.portH p).cfgGen = ((s.portH p).cfgGen + 1) % 65536 ∧
        (u.portH p).cfg = some (s.cfgNow p) ∧
        (∀ q, q ≠ p → u.portH q = s.portH q) ∧
        u.now = max s.now t ∧
        RegsOnly [pgSpt p] s u ∧
        { u with regs := s.regs, now := s.now, hot := s.hot, ports := s.ports, out := s.out } = s :)
    ∧ (∀ (p t : Nat) (o : OspRec) (s : State), (Instr.selftest p t o).wf = true → s.calm = true → ((s.upTo t).recvCheck p 0x07 true o).1 = true → (((s.upTo t).recvCheck p 0x07 true o).2.police p (o.body.length + 12)).1 = true →
      Completes (.selftest p t o) s fun u => 
        u.getB (pgSpt p) 0x09C 5 = true ∧
        (∀ i, i < 6 → u.rd (pgSpt p) (0x1A0 + 4 * i) = bodyNum o.body (4 * i) 4) ∧
        u.getB (pgSpt p) 0x010 23 = true ∧
        (∀ q, q ≠ p → u.portH q = s.portH q) ∧
        u.now = max s.now t ∧
        RegsOnly [pgSpt p] s u ∧
        { u with regs := s.regs, now := s.now, hot := s.hot, ports := s.ports } = s :)
    ∧ (∀ (p t : Nat) (o : OspRec) (s : State), (Instr.ospStatus p t o).wf = true → s.calm = true → ((s.upTo t).recvCheck p 0x04 true o).1 = true → (((s.upTo t).recvCheck p 0x04 true o).2.police p (o.body.length + 12)).1 = true →
      Completes (.ospStatus p t o) s fun u => 
        u.getB (pgSpt p) 0x09C 6 = true ∧
        (∀ i, i < 3 → u.rd (pgSpt p) (0x1C0 + 4 * i) = bodyNum o.body (4 * i) 4) ∧
        (u.portH p).statusT = t ∧
        (u.portH p).acked = ((s.portH p).acked || (o.arg == (s.portH p).cfgGen && (s.portH p).cfg.isSome)) ∧
        (u.pstate p = (if s.pstate p = 4 ∧ o.arg = (s.portH p).cfgGen ∧ (s.portH p).cfg.isSome = true ∧ s.syncState p = 2 then 5 else s.pstate p)) ∧
        (∀ q, q ≠ p → u.portH q = s.portH q) ∧
        u.now = max s.now t ∧
        RegsOnly [pgSpt p] s u ∧
        { u with regs := s.regs, now := s.now, hot := s.hot, ports := s.ports } = s :)
    ∧ (∀ (p t : Nat) (f : FrameEnd) (s : State), (Instr.frameEnd p t f).wf = true → s.calm = true → s.getB (pgSpt p) 0x06C 21 = true → foreignFrame (s.fld (pgSpt p) 0x040 31 16) (b2n (s.isNode p)) f.ethertype f.tagged (f.payload.length + 18 + (if f.tagged then 4 else 0)) f.payload = true →
      Completes (.frameEnd p t f) s fun u => 
        u.fld (pgSpt p) 0x08C 31 16 = min 0xFFFF (s.fld (pgSpt p) 0x08C 31 16 + 1) ∧
        (u.fld (pgSpt p) 0x08C 15 0 = min 0xFFFF (s.fld (pgSpt p) 0x08C 15 0 + (if f.fcsOk then 0 else 1))) ∧
        (u.portH p).rx = 0 ∧
        (∀ q, q ≠ p → u.portH q = s.portH q) ∧
        u.now = max s.now t ∧
        RegsOnly [pgSpt p] s u ∧
        { u with regs := s.regs, now := s.now, hot := s.hot, ports := s.ports } = s :)
    ∧ (∀ (p t : Nat) (f : FrameEnd) (s : State), (Instr.frameEnd p t f).wf = true → s.calm = true → s.getB (pgSpt p) 0x06C 21 = true → 3 ≤ s.pstate p → s.pstate p ≤ 5 → foreignFrame (s.fld (pgSpt p) 0x040 31 16) (b2n (s.isNode p)) f.ethertype f.tagged (f.payload.length + 18 + (if f.tagged then 4 else 0)) f.payload = false → ((ospParse f.payload.length (f.payload.drop 4)).1.all fun q => decide (q.1 ≤ 7 ∨ (0x10 ≤ q.1 ∧ q.1 ≤ 0x13))) = true →
      Completes (.frameEnd p t f) s fun u => 
        (u.fld (pgSpt p) 0x080 31 16 = min 0xFFFF (s.fld (pgSpt p) 0x080 31 16 + (if (ospParse f.payload.length (f.payload.drop 4)).2 = 2 then 1 else 0))) ∧
        u.fld (pgSpt p) 0x08C 31 16 = s.fld (pgSpt p) 0x08C 31 16 ∧
        (u.fld (pgSpt p) 0x08C 15 0 = min 0xFFFF (s.fld (pgSpt p) 0x08C 15 0 + (if f.fcsOk then 0 else 1))) ∧
        (u.portH p).rx = 0 ∧
        (∀ q, q ≠ p → u.portH q = s.portH q) ∧
        u.now = max s.now t ∧
        RegsOnly [pgSpt p] s u ∧
        { u with regs := s.regs, now := s.now, hot := s.hot, ports := s.ports } = s :)
    ∧ (∀ (p t : Nat) (f : FrameEnd) (s : State), (Instr.frameEnd p t f).wf = true → s.calm = true → s.getB (pgSpt p) 0x06C 21 = true → (s.pstate p < 3 ∨ 5 < s.pstate p) → foreignFrame (s.fld (pgSpt p) 0x040 31 16) (b2n (s.isNode p)) f.ethertype f.tagged (f.payload.length + 18 + (if f.tagged then 4 else 0)) f.payload = false →
      Completes (.frameEnd p t f) s fun u => 
        (u.fld (pgSpt p) 0x08C 15 0 = min 0xFFFF (s.fld (pgSpt p) 0x08C 15 0 + (if f.fcsOk then 0 else 1))) ∧
        (u.portH p).rx = 0 ∧
        (∀ q, q ≠ p → u.portH q = s.portH q) ∧
        u.now = max s.now t ∧
        RegsOnly [pgSpt p] s u ∧
        { u with regs := s.regs, now := s.now, hot := s.hot, ports := s.ports } = s :)

/-- SYNC leaves every 3,000,000 cycles with its number and T1 and counts as missed until it is answered, the eleventh in a row unlocking SYNC; a channel whose indices are overdue is STALE and N moves past them; SPT_REQ in STREAMING sends the QUERY or TEST its bits ask for, with the next SEQ, and does nothing in another state or in NODE role, counted. A channel configuration with EN = 0 takes legal CHANNEL, RATE and B_LOG as written; EN from 0 to 1 takes the channel into service where no other HOST channel carries its module channel, its record fits and the port's payload fits; with EN = 1 the other fields are frozen; EN to 0 takes it out of service and forgets N. A change of EN sends CONFIG in CONFIGURING and STREAMING. -/
def Obligations.PortRequests : Prop :=
    (∀ (p t : Nat) (s : State), (Instr.syncInstant p t).wf = true → s.calm = true → s.isNode p = false → 3 ≤ s.pstate p → s.pstate p ≤ 5 → (s.portH p).nextSync ≤ t → t < 2 ^ 64 →
      Completes (.syncInstant p t) s fun u => 
        u.out.dropLast = s.out ∧
        (u.lastOsp.map (fun o => (o.1, o.2.1, o.2.2.1, o.2.2.2.1, o.2.2.2.2.1, ofLe (o.2.2.2.2.2.take 8))) = some (p, 0x10, 0, (s.portH p).seqOut, (s.portH p).syncNum, t)) ∧
        (u.portH p).nextSync = t + 3000000 ∧
        (u.portH p).missed = (s.portH p).missed + 1 ∧
        (u.syncState p = (if 10 ≤ (s.portH p).missed then 1 else s.syncState p)) ∧
        (u.portH p).syncT1 = ((s.portH p).syncNum, t) :: (s.portH p).syncT1.take 15 ∧
        (∀ k n, k < 4 → (s.portH p).chans.length = 4 → (s.ch p k).n = some n → (u.ch p k).n = some (max n (if (((t : Int) - s.rd64 (pgSpt p) 0x060 - 3 * s.rd (pgSpt p) 0x070) * fsOf (s.chRate p k)) ≤ 0 then 0 else ((((t : Int) - s.rd64 (pgSpt p) 0x060 - 3 * s.rd (pgSpt p) 0x070) * fsOf (s.chRate p k)) - 1).toNat / 3000000000 + 1 - s.chB p k))) ∧
        (∀ q, q ≠ p → u.portH q = s.portH q) ∧
        u.now = max s.now t ∧
        RegsOnly [pgSpt p] s u ∧
        { u with regs := s.regs, now := s.now, hot := s.hot, ports := s.ports, srcQ := s.srcQ, out := s.out } = s :)
    ∧ (∀ (w : Writer) (p t : Nat) (s : State), (Instr.queryIdent w p t).wf = true → s.calm = true → s.powered (pgSpt p) = true → (s.pageH (pgSpt p)).resetting = false → s.pstate p = 5 → s.isNode p = false →
      Completes (.queryIdent w p t) s fun u => 
        u.out = s.out ++ [s.ospOut p 0x12 0 1 []] ∧
        (∀ q, q ≠ p → u.portH q = s.portH q) ∧
        u.now = max s.now t ∧
        RegsOnly [pgSpt p] s u ∧
        { u with regs := s.regs, now := s.now, hot := s.hot, ports := s.ports, out := s.out } = s :)
    ∧ (∀ (w : Writer) (p t : Nat) (s : State), (Instr.queryCal w p t).wf = true → s.calm = true → s.powered (pgSpt p) = true → (s.pageH (pgSpt p)).resetting = false → s.pstate p = 5 → s.isNode p = false →
      Completes (.queryCal w p t) s fun u => 
        u.out = s.out ++ [s.ospOut p 0x12 0 2 []] ∧
        (∀ q, q ≠ p → u.portH q = s.portH q) ∧
        u.now = max s.now t ∧
        RegsOnly [pgSpt p] s u ∧
        { u with regs := s.regs, now := s.now, hot := s.hot, ports := s.ports, out := s.out } = s :)
    ∧ (∀ (w : Writer) (p t : Nat) (s : State), (Instr.queryStatus w p t).wf = true → s.calm = true → s.powered (pgSpt p) = true → (s.pageH (pgSpt p)).resetting = false → s.pstate p = 5 → s.isNode p = false →
      Completes (.queryStatus w p t) s fun u => 
        u.out = s.out ++ [s.ospOut p 0x12 0 4 []] ∧
        (∀ q, q ≠ p → u.portH q = s.portH q) ∧
        u.now = max s.now t ∧
        RegsOnly [pgSpt p] s u ∧
        { u with regs := s.regs, now := s.now, hot := s.hot, ports := s.ports, out := s.out } = s :)
    ∧ (∀ (w : Writer) (p tid t : Nat) (s : State), (Instr.sptReqTest w p tid t).wf = true → s.calm = true → s.powered (pgSpt p) = true → (s.pageH (pgSpt p)).resetting = false → s.pstate p = 5 → s.isNode p = false →
      Completes (.sptReqTest w p tid t) s fun u => 
        u.out = s.out ++ [s.ospOut p 0x13 0 tid []] ∧
        (∀ q, q ≠ p → u.portH q = s.portH q) ∧
        u.now = max s.now t ∧
        RegsOnly [pgSpt p] s u ∧
        { u with regs := s.regs, now := s.now, hot := s.hot, ports := s.ports, out := s.out } = s :)
    ∧ (∀ (w : Writer) (p t : Nat) (s : State), (Instr.queryIdent w p t).wf = true → s.calm = true → s.powered (pgSpt p) = true → (s.pageH (pgSpt p)).resetting = false → (s.pstate p ≠ 5 ∨ s.isNode p = true) →
      Completes (.queryIdent w p t) s fun u => 
        u.fld (pgSpt p) 0x018 31 16 = min 0xFFFF (s.fld (pgSpt p) 0x018 31 16 + 1) ∧
        u.fld (pgSpt p) 0x018 11 0 = 0x094 ∧
        u.now = max s.now t ∧
        RegsOnly [pgSpt p] s u ∧
        { u with regs := s.regs, now := s.now, hot := s.hot } = s :)
    ∧ (∀ (w : Writer) (p t : Nat) (s : State), (Instr.queryCal w p t).wf = true → s.calm = true → s.powered (pgSpt p) = true → (s.pageH (pgSpt p)).resetting = false → (s.pstate p ≠ 5 ∨ s.isNode p = true) →
      Completes (.queryCal w p t) s fun u => 
        u.fld (pgSpt p) 0x018 31 16 = min 0xFFFF (s.fld (pgSpt p) 0x018 31 16 + 1) ∧
        u.fld (pgSpt p) 0x018 11 0 = 0x094 ∧
        u.now = max s.now t ∧
        RegsOnly [pgSpt p] s u ∧
        { u with regs := s.regs, now := s.now, hot := s.hot } = s :)
    ∧ (∀ (w : Writer) (p t : Nat) (s : State), (Instr.queryStatus w p t).wf = true → s.calm = true → s.powered (pgSpt p) = true → (s.pageH (pgSpt p)).resetting = false → (s.pstate p ≠ 5 ∨ s.isNode p = true) →
      Completes (.queryStatus w p t) s fun u => 
        u.fld (pgSpt p) 0x018 31 16 = min 0xFFFF (s.fld (pgSpt p) 0x018 31 16 + 1) ∧
        u.fld (pgSpt p) 0x018 11 0 = 0x094 ∧
        u.now = max s.now t ∧
        RegsOnly [pgSpt p] s u ∧
        { u with regs := s.regs, now := s.now, hot := s.hot } = s :)
    ∧ (∀ (w : Writer) (p tid t : Nat) (s : State), (Instr.sptReqTest w p tid t).wf = true → s.calm = true → s.powered (pgSpt p) = true → (s.pageH (pgSpt p)).resetting = false → (s.pstate p ≠ 5 ∨ s.isNode p = true) →
      Completes (.sptReqTest w p tid t) s fun u => 
        u.fld (pgSpt p) 0x018 31 16 = min 0xFFFF (s.fld (pgSpt p) 0x018 31 16 + 1) ∧
        u.fld (pgSpt p) 0x018 11 0 = 0x094 ∧
        u.now = max s.now t ∧
        RegsOnly [pgSpt p] s u ∧
        { u with regs := s.regs, now := s.now, hot := s.hot } = s :)
    ∧ (∀ (w : Writer) (p k v t : Nat) (s : State), (Instr.sptChCfg w p k v t).wf = true → s.calm = true → s.powered (pgSpt p) = true → (s.pageH (pgSpt p)).resetting = false → s.isNode p = false → s.chEn p k = false → bits v 31 31 = 0 → bits v 30 20 < 1536 → bits v 19 16 ≤ 8 → bits v 15 12 ≤ 8 →
      Completes (.sptChCfg w p k v t) s fun u => 
        u.chEn p k = false ∧
        u.moduleCh p k = bits v 30 20 ∧
        u.chRate p k = bits v 19 16 ∧
        u.chB p k = 2 ^ bits v 15 12 ∧
        u.now = max s.now t ∧
        RegsOnly [pgSpt p] s u ∧
        { u with regs := s.regs, now := s.now, hot := s.hot } = s :)
    ∧ (∀ (w : Writer) (p k v t : Nat) (s : State), (Instr.sptChCfg w p k v t).wf = true → s.calm = true → s.powered (pgSpt p) = true → (s.pageH (pgSpt p)).resetting = false → s.isNode p = false → s.chEn p k = false → bits v 31 31 = 1 → bits v 30 20 < 1536 → bits v 19 16 ≤ 8 → bits v 15 12 ≤ 8 → payloadFits (setAt (s.cfgNow p) k ⟨true, bits v 19 16, bits v 15 12⟩) = true → ((List.range 512).all fun q => s.isNode q || (List.range 4).all fun j => (q == p && j == k) || !s.chEn q j || s.moduleCh q j != bits v 30 20) = true →
      Completes (.sptChCfg w p k v t) s fun u => 
        u.chEn p k = true ∧
        u.moduleCh p k = bits v 30 20 ∧
        u.chRate p k = bits v 19 16 ∧
        u.chB p k = 2 ^ bits v 15 12 ∧
        (u.out = (if s.pstate p = 4 ∨ s.pstate p = 5 then s.out ++ [s.ospOut p 0x11 0 (((s.portH p).cfgGen + 1) % 65536) (cfgBody (u.cfgNow p))] else s.out)) ∧
        ((u.portH p).cfgGen = (if s.pstate p = 4 ∨ s.pstate p = 5 then ((s.portH p).cfgGen + 1) % 65536 else (s.portH p).cfgGen)) ∧
        u.pstate p = s.pstate p ∧
        (∀ q, q ≠ p → u.portH q = s.portH q) ∧
        u.now = max s.now t ∧
        RegsOnly [pgSpt p] s u ∧
        { u with regs := s.regs, now := s.now, hot := s.hot, ports := s.ports, out := s.out } = s :)
    ∧ (∀ (w : Writer) (p k v t : Nat) (s : State), (Instr.sptChCfg w p k v t).wf = true → s.calm = true → s.powered (pgSpt p) = true → (s.pageH (pgSpt p)).resetting = false → s.isNode p = false → s.chEn p k = true → bits v 31 31 = 1 →
      Completes (.sptChCfg w p k v t) s fun u => 
        s.fld (pgSpt p) (0x200 + 64 * k) 31 10 = u.fld (pgSpt p) (0x200 + 64 * k) 31 10 ∧
        u.now = max s.now t ∧
        RegsOnly [pgSpt p] s u ∧
        { u with regs := s.regs, now := s.now, hot := s.hot } = s :)
    ∧ (∀ (w : Writer) (p k v t : Nat) (s : State), (Instr.sptChCfg w p k v t).wf = true → s.calm = true → s.powered (pgSpt p) = true → (s.pageH (pgSpt p)).resetting = false → s.isNode p = false → s.chEn p k = true → bits v 31 31 = 0 → (s.portH p).chans.length = 4 →
      Completes (.sptChCfg w p k v t) s fun u => 
        u.chEn p k = false ∧
        s.fld (pgSpt p) (0x200 + 64 * k) 30 10 = u.fld (pgSpt p) (0x200 + 64 * k) 30 10 ∧
        (u.ch p k).n = none ∧
        (∀ j, j < 4 → j ≠ k → u.ch p j = s.ch p j) ∧
        (u.out = (if s.pstate p = 4 ∨ s.pstate p = 5 then s.out ++ [s.ospOut p 0x11 0 (((s.portH p).cfgGen + 1) % 65536) (cfgBody (u.cfgNow p))] else s.out)) ∧
        ((u.portH p).cfgGen = (if s.pstate p = 4 ∨ s.pstate p = 5 then ((s.portH p).cfgGen + 1) % 65536 else (s.portH p).cfgGen)) ∧
        u.pstate p = s.pstate p ∧
        (∀ q, q ≠ p → u.portH q = s.portH q) ∧
        u.now = max s.now t ∧
        RegsOnly [pgSpt p] s u ∧
        { u with regs := s.regs, now := s.now, hot := s.hot, ports := s.ports, out := s.out } = s :)

/-- SYNC with a new session is adopted with SEQ restarted and SYNC_REPLY as its first record; every SYNC sets epoch, delay and offset, moves the lock (eight good ones lock, two bad ones unlock) and is answered, the answer marked UNSYNC while the node is not locked. CONFIG sets RATE and B_LOG, brings the port to STREAMING and is echoed in a STATUS; QUERY answers each record its bits ask for, the self-test record after the first IDENT of the session; TEST answers with a SELFTEST of its TEST_ID, test 0x02 at its end. A group whose sources are all GEN sends its next block in one SAMPLE record; a channel fed by a stream sends the samples it holds, and a GAP record of cause 0x01 in place of a block with a missing sample; a group without a first index opens at the next multiple of B. STATUS leaves every 100 ms and when it has changed, and a test that has reached its end sends its SELFTEST. -/
def Obligations.PortNode : Prop :=
    (∀ (p t tr : Nat) (o : OspRec) (s : State), (Instr.sync p t tr o).wf = true → s.calm = true → s.isNode p = true → 3 ≤ s.pstate p → s.pstate p ≤ 5 → s.inFrame p o = true → o.before.length = 4 → o.body.length = 28 → ospCrc 0 0x10 o = o.crc → s.session p ≠ bodyNum o.body 24 4 →
      Completes (.sync p t tr o) s fun u => let hostOfs : Int := (t : Int) - bodyNum o.body 0 8 - (bodyNum o.body 16 4 / 16 : Nat); let ofs : Int := toS 32 (bodyNum o.body 20 4); let none_ : Bool := bodyNum o.body 20 4 == 0x80000000; 
        u.session p = bodyNum o.body 24 4 ∧
        (u.portH p).seqOut = 1 ∧
        (u.portH p).cfg = none ∧
        u.rd (pgSpt p) 0x09C = 0 ∧
        (u.lastOsp.map (fun x => (x.1, x.2.1, x.2.2.2.1, x.2.2.2.2.1)) = some (p, 0x03, 0, o.arg)) ∧
        u.rd64 (pgSpt p) 0x060 = ((bodyNum o.body 8 8 : Int) + hostOfs).toNat % 2 ^ 64 ∧
        u.rd (pgSpt p) 0x07C = bodyNum o.body 16 4 ∧
        u.rd (pgSpt p) 0x078 = bodyNum o.body 20 4 ∧
        (u.portH p).hostOfs = hostOfs ∧
        ((u.portH p).good = (if ¬ none_ = true ∧ ofs.natAbs ≤ 960 then 0 + 1 else 0)) ∧
        ((u.portH p).bad = (if none_ = true ∨ 1200 < ofs.natAbs then 0 + 1 else 0)) ∧
        (u.syncState p = (if s.syncState p = 2 then (if 2 ≤ (if none_ = true ∨ 1200 < ofs.natAbs then 0 + 1 else 0) then 1 else 2) else if 8 ≤ (if ¬ none_ = true ∧ ofs.natAbs ≤ 960 then 0 + 1 else 0) then 2 else s.syncState p)) ∧
        u.out.dropLast = s.out ∧
        (u.lastOsp.map (fun x => x.2.2.1) = some (if u.syncState p = 2 then 0 else 1)) ∧
        (u.lastOsp.map (fun x => (ofLe (x.2.2.2.2.2.take 8), ofLe (x.2.2.2.2.2.drop 8))) = some (((t : Int) - hostOfs).toNat % 2 ^ 64, ((tr : Int) - hostOfs).toNat % 2 ^ 64)) ∧
        (∀ q, q ≠ p → u.portH q = s.portH q) ∧
        u.now = max s.now t ∧
        RegsOnly [pgSpt p] s u ∧
        { u with regs := s.regs, now := s.now, hot := s.hot, ports := s.ports, out := s.out } = s :)
    ∧ (∀ (p t tr : Nat) (o : OspRec) (s : State), (Instr.sync p t tr o).wf = true → s.calm = true → s.isNode p = true → ((s.upTo t).recvCheck p 0x10 false o).1 = true → s.session p = bodyNum o.body 24 4 →
      Completes (.sync p t tr o) s fun u => let hostOfs : Int := (t : Int) - bodyNum o.body 0 8 - (bodyNum o.body 16 4 / 16 : Nat); let ofs : Int := toS 32 (bodyNum o.body 20 4); let none_ : Bool := bodyNum o.body 20 4 == 0x80000000; 
        u.session p = s.session p ∧
        (u.portH p).seqOut = ((s.portH p).seqOut + 1) % 65536 ∧
        (u.portH p).cfg = (s.portH p).cfg ∧
        (u.lastOsp.map (fun x => (x.1, x.2.1, x.2.2.2.1, x.2.2.2.2.1)) = some (p, 0x03, (s.portH p).seqOut, o.arg)) ∧
        u.rd64 (pgSpt p) 0x060 = ((bodyNum o.body 8 8 : Int) + hostOfs).toNat % 2 ^ 64 ∧
        u.rd (pgSpt p) 0x07C = bodyNum o.body 16 4 ∧
        u.rd (pgSpt p) 0x078 = bodyNum o.body 20 4 ∧
        (u.portH p).hostOfs = hostOfs ∧
        ((u.portH p).good = (if ¬ none_ = true ∧ ofs.natAbs ≤ 960 then (s.portH p).good + 1 else 0)) ∧
        ((u.portH p).bad = (if none_ = true ∨ 1200 < ofs.natAbs then (s.portH p).bad + 1 else 0)) ∧
        (u.syncState p = (if s.syncState p = 2 then (if 2 ≤ (if none_ = true ∨ 1200 < ofs.natAbs then (s.portH p).bad + 1 else 0) then 1 else 2) else if 8 ≤ (if ¬ none_ = true ∧ ofs.natAbs ≤ 960 then (s.portH p).good + 1 else 0) then 2 else s.syncState p)) ∧
        u.out.dropLast = s.out ∧
        (u.lastOsp.map (fun x => x.2.2.1) = some (if u.syncState p = 2 then 0 else 1)) ∧
        (u.lastOsp.map (fun x => (ofLe (x.2.2.2.2.2.take 8), ofLe (x.2.2.2.2.2.drop 8))) = some (((t : Int) - (s.portH p).hostOfs).toNat % 2 ^ 64, ((tr : Int) - (s.portH p).hostOfs).toNat % 2 ^ 64)) ∧
        (∀ q, q ≠ p → u.portH q = s.portH q) ∧
        u.now = max s.now t ∧
        RegsOnly [pgSpt p] s u ∧
        { u with regs := s.regs, now := s.now, hot := s.hot, ports := s.ports, out := s.out } = s :)
    ∧ (∀ (p t : Nat) (o : OspRec) (s : State), (Instr.config p t o).wf = true → s.calm = true → s.isNode p = true → ((s.upTo t).recvCheck p 0x11 false o).1 = true →
      Completes (.config p t o) s fun u => 
        u.pstate p = 5 ∧
        (u.portH p).nodeGen = o.arg ∧
        (u.lastOsp.map (fun x => (x.1, x.2.1, x.2.2.2.1, x.2.2.2.2.1)) = some (p, 0x04, (s.portH p).seqOut, o.arg)) ∧
        u.out.dropLast = s.out ∧
        (∀ k, k < 4 → u.chRate p k = min 8 (bits (bodyNum o.body (2 * k) 1) 3 0) ∧ bits (u.chCfg p k) 15 12 = bits (bodyNum o.body (2 * k + 1) 1) 3 0 ∧ u.chEn p k = s.chEn p k) ∧
        (∀ q, q ≠ p → u.portH q = s.portH q) ∧
        u.now = max s.now t ∧
        RegsOnly [pgSpt p] s u ∧
        { u with regs := s.regs, now := s.now, hot := s.hot, ports := s.ports, out := s.out, free := s.free } = s :)
    ∧ (∀ (p t : Nat) (o : OspRec) (s : State), (Instr.query p t o).wf = true → s.calm = true → s.isNode p = true → ((s.upTo t).recvCheck p 0x12 false o).1 = true →
      Completes (.query p t o) s fun u => 
        (u.out.map (fun x => match x with | .osp q ty _ _ a _ _ => (q, ty, a) | _ => (0, 0, 0)) = s.out.map (fun x => match x with | .osp q ty _ _ a _ _ => (q, ty, a) | _ => (0, 0, 0)) ++ ((if bit o.arg 0 then (p, 0x05, 0) :: (if (s.portH p).selfSent then [] else [(p, 0x07, 0)]) else []) ++ (if bit o.arg 1 then [(p, 0x06, 0), (p, 0x06, 1), (p, 0x06, 2), (p, 0x06, 3)] else []) ++ (if bit o.arg 2 then [(p, 0x04, (s.portH p).nodeGen)] else []))) ∧
        (u.portH p).selfSent = ((s.portH p).selfSent || bit o.arg 0) ∧
        u.out.take s.out.length = s.out ∧
        (∀ q, q ≠ p → u.portH q = s.portH q) ∧
        u.now = max s.now t ∧
        RegsOnly [pgSpt p] s u ∧
        { u with regs := s.regs, now := s.now, hot := s.hot, ports := s.ports, out := s.out, free := s.free } = s :)
    ∧ (∀ (p t : Nat) (o : OspRec) (s : State), (Instr.test p t o).wf = true → s.calm = true → s.isNode p = true → ((s.upTo t).recvCheck p 0x13 false o).1 = true → bits o.arg 7 0 ≠ 2 →
      Completes (.test p t o) s fun u => 
        (u.lastOsp.map (fun x => (x.1, x.2.1, x.2.2.2.1, x.2.2.2.2.1)) = some (p, 0x07, (s.portH p).seqOut, 0)) ∧
        (u.lastOsp.map (fun x => ofLe (x.2.2.2.2.2.take 1)) = some (o.arg % 256)) ∧
        u.out.dropLast = s.out ∧
        (∀ q, q ≠ p → u.portH q = s.portH q) ∧
        u.now = max s.now t ∧
        RegsOnly [pgSpt p] s u ∧
        { u with regs := s.regs, now := s.now, hot := s.hot, ports := s.ports, out := s.out, free := s.free } = s :)
    ∧ (∀ (p t : Nat) (o : OspRec) (s : State), (Instr.test p t o).wf = true → s.calm = true → s.isNode p = true → ((s.upTo t).recvCheck p 0x13 false o).1 = true → bits o.arg 7 0 = 2 →
      Completes (.test p t o) s fun u => 
        (u.portH p).test.map (·.1) = some 2 ∧
        (∀ q, q ≠ p → u.portH q = s.portH q) ∧
        u.now = max s.now t ∧
        RegsOnly [pgSpt p] s u ∧
        { u with regs := s.regs, now := s.now, hot := s.hot, ports := s.ports, free := s.free } = s :)
    ∧ (∀ (p t : Nat) (s : State), (Instr.nodeRoleStatus p t).wf = true → s.calm = true → s.isNode p = true → 3 ≤ s.pstate p → s.pstate p ≤ 5 → (match (s.portH p).test with | some q => decide (max s.now t < q.2) | none => true) = true → ((s.portH p).nodeStatusT + 270000000 ≤ t ∨ s.nodeNow p ≠ (s.portH p).nodeSent) →
      Completes (.nodeRoleStatus p t) s fun u => 
        (u.lastOsp.map (fun x => (x.1, x.2.1, x.2.2.2.1, x.2.2.2.2.1)) = some (p, 0x04, (s.portH p).seqOut, (s.portH p).nodeGen)) ∧
        u.out.dropLast = s.out ∧
        (u.portH p).nodeStatusT = u.now ∧
        (u.portH p).nodeSent = s.nodeNow p ∧
        (∀ q, q ≠ p → u.portH q = s.portH q) ∧
        u.now = max s.now t ∧
        RegsOnly [] s u ∧
        { u with regs := s.regs, now := s.now, hot := s.hot, ports := s.ports, out := s.out, free := s.free } = s :)
    ∧ (∀ (p t tid e : Nat) (s : State), (Instr.nodeRoleStatus p t).wf = true → s.calm = true → s.isNode p = true → (s.portH p).test = some (tid, e) → e ≤ t → t < (s.portH p).nodeStatusT + 270000000 → s.nodeNow p = (s.portH p).nodeSent →
      Completes (.nodeRoleStatus p t) s fun u => 
        (u.lastOsp.map (fun x => (x.1, x.2.1, x.2.2.2.1, x.2.2.2.2.1)) = some (p, 0x07, (s.portH p).seqOut, 0)) ∧
        (u.lastOsp.map (fun x => ofLe (x.2.2.2.2.2.take 1)) = some (tid % 256)) ∧
        u.out.dropLast = s.out ∧
        (u.portH p).test = none ∧
        (∀ q, q ≠ p → u.portH q = s.portH q) ∧
        u.now = max s.now t ∧
        RegsOnly [] s u ∧
        { u with regs := s.regs, now := s.now, hot := s.hot, ports := s.ports, out := s.out, free := s.free } = s :)
    ∧ (∀ (p k t first : Nat) (s : State), (Instr.nodeEmission p k t).wf = true → s.calm = true → s.isNode p = true → s.pstate p = 5 → (match (s.portH p).test with | some q => decide (max s.now t < q.2) | none => true) = true → k ∈ s.nodeGroup p k → ((s.nodeGroup p k).all fun j => s.fld (pgSpt p) (0x200 + 64 * j) 11 10 == 1) = true → ((s.nodeGroup p k).all fun j => (s.ch p j).nodeN == some first && (s.ch p j).nodeT.isEmpty) = true → (s.portH p).chans.length = 4 → first + s.chB p k ≤ s.idxUpTo p (s.chRate p k) (max s.now t) → ((s.nodeGroup p k).all fun j => (s.queue (portKey (s.moduleCh p j))).isEmpty) = true →
      Completes (.nodeEmission p k t) s fun u => 
        (∀ j, j < 4 → (u.ch p j).nodeN = (if j ∈ s.nodeGroup p k then some (first + s.chB p k) else (s.ch p j).nodeN)) ∧
        u.out.dropLast = s.out ∧
        (u.lastOsp.map (fun x => (x.1, x.2.1, x.2.2.2.1, x.2.2.2.2.1)) = some (p, 0x01, (s.portH p).seqOut, ((s.nodeGroup p k).foldl (fun a j => a + 2 ^ j) 0) + 16 * s.chRate p k)) ∧
        (u.lastOsp.map (fun x => (x.2.2.1, ofLe (x.2.2.2.2.2.take 6), (x.2.2.2.2.2.drop 8).take (3 * (s.nodeGroup p k).length * s.chB p k))) = some ((b2n (s.syncState p != 2) ||| 2 * b2n (s.portH p).test.isSome), first % 2 ^ 48, (List.range (s.chB p k)).flatMap fun i => (s.nodeGroup p k).flatMap fun j => leBytes 3 (s.genValue p j (first + i)))) ∧
        (∀ q, q ≠ p → u.portH q = s.portH q) ∧
        u.now = max s.now t ∧
        RegsOnly [] s u ∧
        { u with regs := s.regs, now := s.now, hot := s.hot, ports := s.ports, out := s.out } = s :)
    ∧ (∀ (p k t first : Nat) (s : State), (Instr.nodeEmission p k t).wf = true → s.calm = true → s.isNode p = true → s.pstate p = 5 → (match (s.portH p).test with | some q => decide (max s.now t < q.2) | none => true) = true → s.nodeGroup p k = [k] → (s.portH p).chans.length = 4 → (s.ch p k).nodeN = some first → ¬ s.fld (pgSpt p) (0x200 + 64 * k) 11 10 = 1 → s.chB p k ≤ (s.ch p k).nodeT.length → ((s.ch p k).nodeT.all fun v => v.2.2.2 == 0 && v.2.2.1 == 0) = true → first + s.chB p k ≤ s.idxUpTo p (s.chRate p k) (max s.now t) →
      Completes (.nodeEmission p k t) s fun u => 
        (u.ch p k).nodeN = some (first + s.chB p k) ∧
        u.out.dropLast = s.out ∧
        (u.lastOsp.map (fun x => (x.1, x.2.1, x.2.2.2.1, x.2.2.2.2.1)) = some (p, 0x01, (s.portH p).seqOut, 2 ^ k + 16 * s.chRate p k)) ∧
        (u.lastOsp.map (fun x => (ofLe (x.2.2.2.2.2.take 6), (x.2.2.2.2.2.drop 8).take (3 * s.chB p k))) = some (first % 2 ^ 48, ((s.ch p k).nodeT.take (s.chB p k)).flatMap fun v => leBytes 3 v.1)) ∧
        (∀ q, q ≠ p → u.portH q = s.portH q) ∧
        u.now = max s.now t ∧
        RegsOnly [] s u ∧
        { u with regs := s.regs, now := s.now, hot := s.hot, ports := s.ports, out := s.out } = s :)
    ∧ (∀ (p k t first : Nat) (s : State), (Instr.nodeEmission p k t).wf = true → s.calm = true → s.isNode p = true → s.pstate p = 5 → (match (s.portH p).test with | some q => decide (max s.now t < q.2) | none => true) = true → s.nodeGroup p k = [k] → (s.portH p).chans.length = 4 → (s.ch p k).nodeN = some first → ¬ s.fld (pgSpt p) (0x200 + 64 * k) 11 10 = 1 → (s.ch p k).nodeT = [] → (s.ch p k).node = [] → first + s.chB p k ≤ s.idxUpTo p (s.chRate p k) (max s.now t) →
      Completes (.nodeEmission p k t) s fun u => 
        (u.ch p k).nodeN = some (first + s.chB p k) ∧
        u.out.dropLast = s.out ∧
        (u.lastOsp.map (fun x => (x.1, x.2.1, x.2.2.2.1, x.2.2.2.2.1)) = some (p, 0x02, (s.portH p).seqOut, 2 ^ k + 256)) ∧
        (u.lastOsp.map (fun x => (ofLe (x.2.2.2.2.2.take 6), ofLe ((x.2.2.2.2.2.drop 8).take 4))) = some (first % 2 ^ 48, s.chB p k)) ∧
        (∀ q, q ≠ p → u.portH q = s.portH q) ∧
        u.now = max s.now t ∧
        RegsOnly [] s u ∧
        { u with regs := s.regs, now := s.now, hot := s.hot, ports := s.ports, out := s.out } = s :)
    ∧ (∀ (p k t : Nat) (s : State), (Instr.nodeEmission p k t).wf = true → s.calm = true → s.isNode p = true → s.pstate p = 5 → (match (s.portH p).test with | some q => decide (max s.now t < q.2) | none => true) = true → k ∈ s.nodeGroup p k → ((s.nodeGroup p k).all fun j => (s.ch p j).nodeN.isNone) = true → (s.portH p).chans.length = 4 →
      Completes (.nodeEmission p k t) s fun u => 
        (∀ j, j < 4 → (u.ch p j).nodeN = (if j ∈ s.nodeGroup p k then some (roundUp (s.idxUpTo p (s.chRate p j) (max s.now t)) (s.chB p j)) else (s.ch p j).nodeN)) ∧
        (∀ q, q ≠ p → u.portH q = s.portH q) ∧
        u.now = max s.now t ∧
        RegsOnly [] s u ∧
        { u with regs := s.regs, now := s.now, hot := s.hot, ports := s.ports } = s :)

/-- COMMIT asks for a handover: the written EN and CLASS are staged, the clamps of source and slots are applied, and EN is clamped to 0 where another entry is or will be enabled for the source; while COMMIT reads 1 a write changes nothing of the entry. At the handover GEN counts on, COMMIT reads 0 and the active copy takes the staged class, source, rate and slots, with no slot where EN is 0; slots of an entry that was not enabled start at producer index 0. An item leaves its source when every slot has credit, a token is there and no other entry goes first, and is counted; without a token it waits and counts a RATE stall, without credit at a flowing destination it waits and counts one CREDIT stall. A cell to a ring stands in slot prod mod 2^SIZE_LOG, the producer index counts on, and no byte outside the ring changes. An open or close acts on every CAPTURE slot of the entry. No other entry changes. -/
def Obligations.Streams : Prop :=
    (∀ (w : Writer) (e ctrl t : Nat) (s : State), (Instr.commit w e ctrl t).wf = true → s.calm = true → s.powered (pgStrT e) = true → (s.pageH (pgStrT e)).resetting = false → s.getB (pgStrT e) (strOff e 0) 30 = false → (decide (bits (s.strRd e 4) 31 28 ≠ 0) && ((s.strs.any fun q => q.1 != e && q.2.en && srcKey q.2.srcKind q.2.srcSel == srcKey (bits (s.strRd e 4) 31 28) (strSelUsed (bits (s.strRd e 4) 31 28) (strSelClamp (bits (s.strRd e 4) 31 28) (bits (s.strRd e 4) 15 0)))) || s.strPending e (srcKey (bits (s.strRd e 4) 31 28) (strSelUsed (bits (s.strRd e 4) 31 28) (strSelClamp (bits (s.strRd e 4) 31 28) (bits (s.strRd e 4) 15 0)))))) = false →
      Completes (.commit w e ctrl t) s fun u => 
        u.getB (pgStrT e) (strOff e 0) 31 = bit ctrl 31 ∧
        u.getB (pgStrT e) (strOff e 0) 30 = true ∧
        u.getB (pgStrT e) (strOff e 0) 29 = bit ctrl 29 ∧
        bits (u.strRd e 4) 15 0 = strSelClamp (bits (s.strRd e 4) 31 28) (bits (s.strRd e 4) 15 0) ∧
        bit (u.strRd e 8) 31 = (bit (s.strRd e 8) 31 && decide (bits (s.strRd e 4) 31 28 ≠ 1)) ∧
        (∀ i, i < 4 → u.strRd e (slotOff i) = (strSlotClamp (bits (s.strRd e 4) 31 28) (s.strRd e (slotOff i)) (cat32 (s.strRd e (slotOff i + 8)) (s.strRd e (slotOff i + 12)))).1 ∧ cat32 (u.strRd e (slotOff i + 8)) (u.strRd e (slotOff i + 12)) = (strSlotClamp (bits (s.strRd e 4) 31 28) (s.strRd e (slotOff i)) (cat32 (s.strRd e (slotOff i + 8)) (s.strRd e (slotOff i + 12)))).2) ∧
        u.now = max s.now t ∧
        RegsOnly [pgStrT e] s u ∧
        { u with regs := s.regs, now := s.now, hot := s.hot } = s :)
    ∧ (∀ (w : Writer) (e ctrl t : Nat) (s : State), (Instr.commit w e ctrl t).wf = true → s.calm = true → s.powered (pgStrT e) = true → (s.pageH (pgStrT e)).resetting = false → s.getB (pgStrT e) (strOff e 0) 30 = false → (decide (bits (s.strRd e 4) 31 28 ≠ 0) && ((s.strs.any fun q => q.1 != e && q.2.en && srcKey q.2.srcKind q.2.srcSel == srcKey (bits (s.strRd e 4) 31 28) (strSelUsed (bits (s.strRd e 4) 31 28) (strSelClamp (bits (s.strRd e 4) 31 28) (bits (s.strRd e 4) 15 0)))) || s.strPending e (srcKey (bits (s.strRd e 4) 31 28) (strSelUsed (bits (s.strRd e 4) 31 28) (strSelClamp (bits (s.strRd e 4) 31 28) (bits (s.strRd e 4) 15 0)))))) = true → bit ctrl 31 = true →
      Completes (.commit w e ctrl t) s fun u => 
        u.getB (pgStrT e) (strOff e 0) 31 = false ∧
        u.fld (pgStrT e) 0x018 31 16 = min 0xFFFF (s.fld (pgStrT e) 0x018 31 16 + 1) ∧
        u.fld (pgStrT e) 0x018 11 0 = strOff e 0 ∧
        u.getB (pgStrT e) (strOff e 0) 30 = true ∧
        u.getB (pgStrT e) (strOff e 0) 29 = bit ctrl 29 ∧
        bits (u.strRd e 4) 15 0 = strSelClamp (bits (s.strRd e 4) 31 28) (bits (s.strRd e 4) 15 0) ∧
        bit (u.strRd e 8) 31 = (bit (s.strRd e 8) 31 && decide (bits (s.strRd e 4) 31 28 ≠ 1)) ∧
        (∀ i, i < 4 → u.strRd e (slotOff i) = (strSlotClamp (bits (s.strRd e 4) 31 28) (s.strRd e (slotOff i)) (cat32 (s.strRd e (slotOff i + 8)) (s.strRd e (slotOff i + 12)))).1 ∧ cat32 (u.strRd e (slotOff i + 8)) (u.strRd e (slotOff i + 12)) = (strSlotClamp (bits (s.strRd e 4) 31 28) (s.strRd e (slotOff i)) (cat32 (s.strRd e (slotOff i + 8)) (s.strRd e (slotOff i + 12)))).2) ∧
        u.now = max s.now t ∧
        RegsOnly [pgStrT e] s u ∧
        { u with regs := s.regs, now := s.now, hot := s.hot } = s :)
    ∧ (∀ (w : Writer) (e ctrl t : Nat) (s : State), (Instr.commit w e ctrl t).wf = true → s.calm = true → s.powered (pgStrT e) = true → (s.pageH (pgStrT e)).resetting = false → s.getB (pgStrT e) (strOff e 0) 30 = true →
      Completes (.commit w e ctrl t) s fun u => 
        u.fld (pgStrT e) (strOff e 0) 31 29 = s.fld (pgStrT e) (strOff e 0) 31 29 ∧
        (∀ o, 0x04 ≤ o → o < 0x60 → u.rd (pgStrT e) (strOff e o) = s.rd (pgStrT e) (strOff e o)) ∧
        u.now = max s.now t ∧
        RegsOnly [pgStrT e] s u ∧
        { u with regs := s.regs, now := s.now, hot := s.hot } = s :)
    ∧ (∀ (e t : Nat) (s : State), (Instr.streamHandover e t).wf = true → s.calm = true → s.getB (pgStrT e) (strOff e 0) 30 = true →
      Completes (.streamHandover e t) s fun u => 
        u.getB (pgStrT e) (strOff e 0) 30 = false ∧
        (u.strH e).en = (s.getB (pgStrT e) (strOff e 0) 31 && s.enabled (pgStrT e)) ∧
        (u.strH e).gen = ((s.strH e).gen + 1) % 256 ∧
        u.fld (pgStrT e) (strOff e 0) 23 16 = ((s.strH e).gen + 1) % 256 ∧
        (u.strH e).cls = bits (s.strRd e 0) 29 29 ∧
        (u.strH e).srcKind = bits (s.strRd e 4) 31 28 ∧
        (u.strH e).srcSel = strSelUsed (bits (s.strRd e 4) 31 28) (bits (s.strRd e 4) 15 0) ∧
        (u.strH e).rlEn = bit (s.strRd e 8) 31 ∧
        (u.strH e).burst = bits (s.strRd e 8) 27 20 ∧
        (u.strH e).rate = bits (s.strRd e 8) 15 0 ∧
        (u.strH e).fault = false ∧
        ((u.strH e).dests.map (fun d => (d.kind, if d.kind = 0 then 0 else d.fmt)) = (s.strStaged e).map (fun d => (if (s.getB (pgStrT e) (strOff e 0) 31 && s.enabled (pgStrT e)) then d.kind else 0, if (s.getB (pgStrT e) (strOff e 0) 31 && s.enabled (pgStrT e)) && d.kind != 0 then d.fmt else 0))) ∧
        ((s.strH e).en = true ∨ ((u.strH e).dests.all fun d => decide (d.prod = 0 ∧ d.gen = ((s.strH e).gen + 1) % 256 ∧ d.isOpen = (d.kind == 2 && !d.capture))) = true) ∧
        (∀ j, j ≠ e → u.strH j = s.strH j) :)
    ∧ (∀ (e t : Nat) (s : State), (Instr.streamHandover e t).wf = true → s.calm = true → s.getB (pgStrT e) (strOff e 0) 30 = true → (s.strH e).en = false → ((s.getB (pgStrT e) (strOff e 0) 31 && s.enabled (pgStrT e)) = false ∨ ((s.strStaged e).all fun d => d.kind != 1 && d.kind != 2) = true) →
      Completes (.streamHandover e t) s fun u => 
        u.getB (pgStrT e) (strOff e 0) 30 = false ∧
        (u.strH e).gen = ((s.strH e).gen + 1) % 256 ∧
        u.now = max s.now t ∧
        RegsOnly [pgStrT e] s u ∧
        { u with regs := s.regs, now := s.now, hot := s.hot, strs := s.strs } = s :)
    ∧ (∀ (e t : Nat) (rg : Dest) (s : State), (Instr.streamHandover e t).wf = true → s.calm = true → s.getB (pgStrT e) (strOff e 0) 30 = true → (s.strH e).en = false → (s.getB (pgStrT e) (strOff e 0) 31 && s.enabled (pgStrT e)) = true → (s.strStaged e).head? = some rg → ((s.strStaged e).drop 1).all (fun d => d.kind == 0) = true → rg.kind = 1 → s.destReady rg = true →
      Completes (.streamHandover e t) s fun u => 
        u.mem = ((s.upTo t).ringWrite ⟨{ rg with gen := ((s.strH e).gen + 1) % 256 }, ((s.strH e).gen + 1) % 256, 0⟩).mem ∧
        (∀ a, a < rg.addr ∨ rg.addr + rg.bytes ≤ a → u.byte a = s.byte a) ∧
        (∀ j, j ≠ e → u.strH j = s.strH j) ∧
        u.now = max s.now t ∧
        RegsOnly [pgStrT e, pgEccC rg.cluster] s u ∧
        { u with regs := s.regs, now := s.now, hot := s.hot, strs := s.strs, mem := s.mem, chk := s.chk, pois := s.pois, tags := s.tags } = s :)
    ∧ (∀ (e t : Nat) (bad : List (Nat × Nat)) (it : SrcItem) (rest : List SrcItem) (s : State), (Instr.streamCell e (⟨t, bad⟩)).wf = true → s.calm = true → s.strInert (s.strH e) = false → (s.strH e).fault = false → s.strTableReady e = true → s.queue (srcKey (s.strH e).srcKind (s.strH e).srcSel) = it :: rest → ((s.strH e).rlEn && decide (((s.strH e).refill (max s.now t)).tokens < 30000)) = false → (s.upTo t).strAhead e = false → ((s.strH e).srcKind ≠ 1 ∨ ((s.portH it.port).chans.all fun c => c.pend.isNone) = true) → ((s.strH e).dests.all fun d => decide (d.kind ≤ 4) && d.kind != 1 && !(d.kind == 2 && d.dramMode == 2) && (d.kind == 0 || s.destReady d) && (d.kind != 3 || decide (it.cellCount d.fmt ≤ (s.circH d.circuit).credit)) && decide (it.cellCount d.fmt ≤ 0xFFFFFF)) = true →
      Completes (.streamCell e (⟨t, bad⟩)) s fun u => 
        u.queue (srcKey (s.strH e).srcKind (s.strH e).srcSel) = rest ∧
        (u.strH e).taken = (s.strH e).taken + 1 ∧
        (u.rd (pgStrT e) (strOff e 0x50) = min 0xFFFFFFFF (s.rd (pgStrT e) (strOff e 0x50) + (s.strH e).dests.foldl (fun a d => if d.kind = 0 then a else max a (it.cellCount d.fmt)) 0)) ∧
        (u.rd (pgStrT e) (strOff e 0x54) = min 0xFFFFFFFF (s.rd (pgStrT e) (strOff e 0x54) + (if it.gap then 1 else 0))) ∧
        ((u.strH e).tokens = ((s.strH e).refill (max s.now t)).tokens - (if (s.strH e).rlEn then 30000 else 0)) ∧
        (∀ j, j ≠ e → u.strH j = s.strH j) :)
    ∧ (∀ (e t : Nat) (bad : List (Nat × Nat)) (it : SrcItem) (rest : List SrcItem) (rg : Dest) (s : State), (Instr.streamCell e (⟨t, bad⟩)).wf = true → s.calm = true → s.strInert (s.strH e) = false → (s.strH e).fault = false → s.strTableReady e = true → s.queue (srcKey (s.strH e).srcKind (s.strH e).srcSel) = it :: rest → (s.strH e).dests = [rg, {}, {}, {}] → ((s.strH e).rlEn && decide (((s.strH e).refill (max s.now t)).tokens < 30000)) = false → (s.upTo t).strAhead e = false → (s.strH e).srcKind = 3 → rg.kind = 1 → rg.size < 17 → it.cellCount rg.fmt ≤ ((s.upTo t).destCredit e rg).1 → bad = [] → it.cellCount rg.fmt = 1 → bit ((s.upTo t).flipRegs (pgEccC rg.cluster)).1 31 = false →
      Completes (.streamCell e (⟨t, bad⟩)) s fun u => 
        u.queue (srcKey (s.strH e).srcKind (s.strH e).srcSel) = rest ∧
        (u.strH e).taken = (s.strH e).taken + 1 ∧
        (u.rd (pgStrT e) (strOff e 0x50) = min 0xFFFFFFFF (s.rd (pgStrT e) (strOff e 0x50) + (s.strH e).dests.foldl (fun a d => if d.kind = 0 then a else max a (it.cellCount d.fmt)) 0)) ∧
        (u.rd (pgStrT e) (strOff e 0x54) = min 0xFFFFFFFF (s.rd (pgStrT e) (strOff e 0x54) + (if it.gap then 1 else 0))) ∧
        ((u.strH e).tokens = ((s.strH e).refill (max s.now t)).tokens - (if (s.strH e).rlEn then 30000 else 0)) ∧
        (∀ j, j ≠ e → u.strH j = s.strH j) ∧
        ((u.strH e).dests.headD {}).prod = (rg.prod + 1) % 2 ^ 32 ∧
        ((u.strH e).dests.headD {}).gen = (s.strH e).gen ∧
        (∀ j, j < 64 → u.byte (rg.addr + 128 + 64 * (rg.prod % 2 ^ rg.size) + j) = BitVec.ofNat 8 (((s.cellsOf (if (s.strH e).srcKind = 1 then it else { it with idx := (s.strH e).taken }) rg.fmt).headD {}).value e (s.strH e).gen >>> (8 * j))) ∧
        (∀ j, j < 4 → u.byte (rg.addr + j) = BitVec.ofNat 8 (((rg.prod + 1) % 2 ^ 32) >>> (8 * j))) ∧
        (∀ a, a < rg.addr ∨ rg.addr + rg.bytes ≤ a → u.byte a = s.byte a) ∧
        u.now = max s.now t ∧
        RegsOnly [pgStrT e, pgStr, pgEccC rg.cluster] s u ∧
        { u with regs := s.regs, now := s.now, hot := s.hot, strs := s.strs, srcQ := s.srcQ, mem := s.mem, chk := s.chk, pois := s.pois, tags := s.tags, dramErr := s.dramErr, banks := s.banks, strTurn := s.strTurn, flow := s.flow } = s :)
    ∧ (∀ (e t : Nat) (bad : List (Nat × Nat)) (it : SrcItem) (rest : List SrcItem) (s : State), (Instr.streamCell e (⟨t, bad⟩)).wf = true → s.calm = true → s.strInert (s.strH e) = false → (s.strH e).fault = false → s.strTableReady e = true → s.queue (srcKey (s.strH e).srcKind (s.strH e).srcSel) = it :: rest → (s.strH e).rlEn = true → ((s.strH e).refill (max s.now t)).tokens < 30000 →
      Completes (.streamCell e (⟨t, bad⟩)) s fun u => 
        u.queue (srcKey (s.strH e).srcKind (s.strH e).srcSel) = it :: rest ∧
        (u.fld (pgStrT e) (strOff e 0x58) 15 0 = min 0xFFFF (s.fld (pgStrT e) (strOff e 0x58) 15 0 + (if (s.strH e).rateWait then 0 else 1))) ∧
        (u.strH e).rateWait = true ∧
        (∀ j, j ≠ e → u.strH j = s.strH j) ∧
        u.now = max s.now t ∧
        RegsOnly [pgStrT e] s u ∧
        { u with regs := s.regs, now := s.now, hot := s.hot, strs := s.strs } = s :)
    ∧ (∀ (e t : Nat) (bad : List (Nat × Nat)) (it : SrcItem) (rest : List SrcItem) (rg : Dest) (s : State), (Instr.streamCell e (⟨t, bad⟩)).wf = true → s.calm = true → s.strInert (s.strH e) = false → (s.strH e).fault = false → s.strTableReady e = true → s.queue (srcKey (s.strH e).srcKind (s.strH e).srcSel) = it :: rest → (s.strH e).dests = [rg, {}, {}, {}] → ((s.strH e).rlEn && decide (((s.strH e).refill (max s.now t)).tokens < 30000)) = false → rg.kind = 3 → s.destReady rg = true → (s.circH rg.circuit).credit < it.cellCount rg.fmt →
      Completes (.streamCell e (⟨t, bad⟩)) s fun u => 
        u.queue (srcKey (s.strH e).srcKind (s.strH e).srcSel) = { it with waited := true, stood := true } :: rest ∧
        (u.fld (pgStrT e) (strOff e 0x58) 31 16 = min 0xFFFF (s.fld (pgStrT e) (strOff e 0x58) 31 16 + (if it.waited then 0 else 1))) ∧
        (∀ j, j ≠ e → u.strH j = s.strH j) ∧
        u.now = max s.now t ∧
        RegsOnly [pgStrT e] s u ∧
        { u with regs := s.regs, now := s.now, hot := s.hot, strs := s.strs, srcQ := s.srcQ } = s :)
    ∧ (∀ (w : Writer) (e t : Nat) (s : State), (Instr.captureOpen w e t).wf = true → s.calm = true → s.powered pgStr = true → (s.pageH pgStr).resetting = false →
      Completes (.captureOpen w e t) s fun u => 
        ((u.strH e).dests.map (fun d => (d.isOpen, d.openIdx)) = (s.strH e).dests.map (fun d => if d.kind == 2 && d.capture && !d.isOpen then (true, d.prod) else (d.isOpen, d.openIdx))) ∧
        ((u.strH e).dests.map (fun d => (d.kind, d.prod, d.closeIdx)) = (s.strH e).dests.map (fun d => (d.kind, d.prod, d.closeIdx))) ∧
        (∀ j, j ≠ e → u.strH j = s.strH j) ∧
        u.now = max s.now t ∧
        RegsOnly [pgStr, pgEccD] s u ∧
        { u with regs := s.regs, now := s.now, hot := s.hot, strs := s.strs, mem := s.mem, chk := s.chk, pois := s.pois, tags := s.tags, dramErr := s.dramErr, banks := s.banks, ringWait := s.ringWait } = s :)
    ∧ (∀ (w : Writer) (e t : Nat) (s : State), (Instr.captureClose w e t).wf = true → s.calm = true → s.powered pgStr = true → (s.pageH pgStr).resetting = false →
      Completes (.captureClose w e t) s fun u => 
        ((u.strH e).dests.map (fun d => (d.isOpen, d.closeIdx)) = (s.strH e).dests.map (fun d => if d.kind == 2 && d.capture && d.isOpen then (false, d.prod) else (d.isOpen, d.closeIdx))) ∧
        ((u.strH e).dests.map (fun d => (d.kind, d.prod, d.openIdx)) = (s.strH e).dests.map (fun d => (d.kind, d.prod, d.openIdx))) ∧
        (∀ j, j ≠ e → u.strH j = s.strH j) ∧
        u.now = max s.now t ∧
        RegsOnly [pgStr, pgEccD] s u ∧
        { u with regs := s.regs, now := s.now, hot := s.hot, strs := s.strs, mem := s.mem, chk := s.chk, pois := s.pois, tags := s.tags, dramErr := s.dramErr, banks := s.banks, ringWait := s.ringWait } = s :)

/-- With the page READY and no command running, VIEW_ON, VIEW_OFF, IN_ON and IN_OFF set BUSY and keep OP and INDEX for the completion; while a command runs a write does nothing and is counted; while a self-test slice holds the engine the command waits for its end. VIEW_ON and IN_ON enable their item exactly when RESULT is 0 or 1, an enabled item first being switched off: within the budget, the view limit of the channel and off a COUNT track the item takes the clamped fields of its descriptor, a view its next generation, an input RUNNING where its channel exists and its ring can be used, HOLDING else. VIEW_OFF closes the open block with 0x13 and marks the ring CLOSED; IN_OFF takes the input off and re-aligns its views into HOLDING. Other views, inputs and clusters stay, and an on-command writes no byte but the descriptor and line 0 of the ring. ARS_COMMAND_COMPLETE executes a command that waited, shows RESULT, OP and INDEX, clears BUSY and raises bit 16. -/
def Obligations.ArsCommands : Prop :=
    (∀ (w : Writer) (c v t : Nat) (s : State), (Instr.viewOn w c v t).wf = true → s.calm = true → s.ready (pgArs c) = true → s.mayWrite w (pgArs c) .ars = true → s.getB (pgArs c) 0x04C 31 = false → (s.upTo t).arsSlice c = false → ((s.viewsOf c).all fun x => (s.viewH c x).hold.isNone) = true → (s.viewH c v).on = false → (s.rdMem (clusterBase c + s.rd (pgArs c) 0x040 + 64 * v) 32).1.2 = false →
      Completes (.viewOn w c v t) s fun u => 
        u.getB (pgArs c) 0x04C 31 = true ∧
        (u.arsH c).op = 1 ∧
        (u.arsH c).idx = v ∧
        (u.viewH c v).on = decide ((u.arsH c).res ≤ 1) ∧
        ((u.viewH c v).on = true → (u.viewH c v).gen = ((s.viewH c v).gen + 1) % 256) ∧
        (∀ d, d ≠ c → u.arsH d = s.arsH d) ∧
        (∀ d x, 512 * d + x ≠ 512 * c + v → u.viewH d x = s.viewH d x) ∧
        (∀ a, ¬((clusterBase c + s.rd (pgArs c) 0x040 + 64 * v) ≤ a ∧ a < (clusterBase c + s.rd (pgArs c) 0x040 + 64 * v) + 64) → ¬((u.viewH c v).on = true ∧ clusterBase c + (u.viewH c v).ring ≤ a ∧ a < clusterBase c + (u.viewH c v).ring + 24) → u.byte a = s.byte a) ∧
        (u.arsIn = s.arsIn) :)
    ∧ (∀ (w : Writer) (c v t : Nat) (s : State), (Instr.viewOn w c v t).wf = true → s.calm = true → s.ready (pgArs c) = true → s.mayWrite w (pgArs c) .ars = true → s.getB (pgArs c) 0x04C 31 = false → (s.upTo t).arsSlice c = false → ((s.viewsOf c).all fun x => (s.viewH c x).hold.isNone) = true → (s.viewH c v).on = true → (s.viewH c v).isOpen = false → bit ((s.upTo t).flipRegs (pgEccC c)).1 31 = false → (s.rdMem (clusterBase c + s.rd (pgArs c) 0x040 + 64 * v) 32).1.2 = false →
      Completes (.viewOn w c v t) s fun u => 
        u.getB (pgArs c) 0x04C 31 = true ∧
        (u.arsH c).op = 1 ∧
        (u.arsH c).idx = v ∧
        (u.viewH c v).on = decide ((u.arsH c).res ≤ 1) ∧
        ((u.viewH c v).on = true → (u.viewH c v).gen = ((s.viewH c v).gen + 1) % 256 ∧ (u.viewH c v).prod = 0) ∧
        (∀ d, d ≠ c → u.arsH d = s.arsH d) ∧
        (∀ d x, 512 * d + x ≠ 512 * c + v → u.viewH d x = s.viewH d x) ∧
        (u.arsIn = s.arsIn) :)
    ∧ (∀ (w : Writer) (c v t : Nat) (s : State), (Instr.viewOn w c v t).wf = true → s.calm = true → s.ready (pgArs c) = true → s.mayWrite w (pgArs c) .ars = true → s.getB (pgArs c) 0x04C 31 = false → (s.upTo t).arsSlice c = false → ((s.viewsOf c).all fun x => (s.viewH c x).hold.isNone) = true → (s.viewH c v).on = false → (s.rdMem (clusterBase c + s.rd (pgArs c) 0x040 + 64 * v) 32).1.2 = false → s.fld (pgArs c) 0x050 31 16 + (viewBudget (fClampRange 0x3A83126F 0x469C4000 ((s.rdMem (clusterBase c + s.rd (pgArs c) 0x040 + 64 * v) 32).1.1 / 2 ^ 160 % 2 ^ 32)) (if bit ((s.rdMem (clusterBase c + s.rd (pgArs c) 0x040 + 64 * v) 32).1.1 / 2 ^ 0 % 2 ^ 32) 16 then clampTo (2 ^ 20) (2 ^ 29) ((s.rdMem (clusterBase c + s.rd (pgArs c) 0x040 + 64 * v) 32).1.1 / 2 ^ 128 % 2 ^ 32) else 2 ^ (32 - (clampTo 3 12 (bits ((s.rdMem (clusterBase c + s.rd (pgArs c) 0x040 + 64 * v) 32).1.1 / 2 ^ 0 % 2 ^ 32) 15 12)))) (bit ((s.rdMem (clusterBase c + s.rd (pgArs c) 0x040 + 64 * v) 32).1.1 / 2 ^ 0 % 2 ^ 32) 17)) ≤ 45600 → (bit ((s.rdMem (clusterBase c + s.rd (pgArs c) 0x040 + 64 * v) 32).1.1 / 2 ^ 0 % 2 ^ 32) 17 = false ∨ s.fld (pgArs c) 0x050 15 0 + (viewBudget (fClampRange 0x3A83126F 0x469C4000 ((s.rdMem (clusterBase c + s.rd (pgArs c) 0x040 + 64 * v) 32).1.1 / 2 ^ 160 % 2 ^ 32)) (if bit ((s.rdMem (clusterBase c + s.rd (pgArs c) 0x040 + 64 * v) 32).1.1 / 2 ^ 0 % 2 ^ 32) 16 then clampTo (2 ^ 20) (2 ^ 29) ((s.rdMem (clusterBase c + s.rd (pgArs c) 0x040 + 64 * v) 32).1.1 / 2 ^ 128 % 2 ^ 32) else 2 ^ (32 - (clampTo 3 12 (bits ((s.rdMem (clusterBase c + s.rd (pgArs c) 0x040 + 64 * v) 32).1.1 / 2 ^ 0 % 2 ^ 32) 15 12)))) (bit ((s.rdMem (clusterBase c + s.rd (pgArs c) 0x040 + 64 * v) 32).1.1 / 2 ^ 0 % 2 ^ 32) 17)) ≤ 12000) → ((s.inH c (bits ((s.rdMem (clusterBase c + s.rd (pgArs c) 0x040 + 64 * v) 32).1.1 / 2 ^ 0 % 2 ^ 32) 31 24)).on = false ∨ s.channelViews (s.inH c (bits ((s.rdMem (clusterBase c + s.rd (pgArs c) 0x040 + 64 * v) 32).1.1 / 2 ^ 0 % 2 ^ 32) 31 24)).chan < 16) → s.trkKind (bits ((s.rdMem (clusterBase c + s.rd (pgArs c) 0x040 + 64 * v) 32).1.1 / 2 ^ 0 % 2 ^ 32) 23 18) ≠ 6 →
      Completes (.viewOn w c v t) s fun u => 
        u.getB (pgArs c) 0x04C 31 = true ∧
        (u.arsH c).op = 1 ∧
        (u.arsH c).idx = v ∧
        (u.viewH c v).on = true ∧
        (u.viewH c v).input = bits ((s.rdMem (clusterBase c + s.rd (pgArs c) 0x040 + 64 * v) 32).1.1 / 2 ^ 0 % 2 ^ 32) 31 24 ∧
        (u.viewH c v).track = bits ((s.rdMem (clusterBase c + s.rd (pgArs c) 0x040 + 64 * v) 32).1.1 / 2 ^ 0 % 2 ^ 32) 23 18 ∧
        (u.viewH c v).predict = bit ((s.rdMem (clusterBase c + s.rd (pgArs c) 0x040 + 64 * v) 32).1.1 / 2 ^ 0 % 2 ^ 32) 17 ∧
        (u.viewH c v).grid = bit ((s.rdMem (clusterBase c + s.rd (pgArs c) 0x040 + 64 * v) 32).1.1 / 2 ^ 0 % 2 ^ 32) 16 ∧
        (u.viewH c v).nlog = (clampTo 3 12 (bits ((s.rdMem (clusterBase c + s.rd (pgArs c) 0x040 + 64 * v) 32).1.1 / 2 ^ 0 % 2 ^ 32) 15 12)) ∧
        (u.viewH c v).outEn = bit ((s.rdMem (clusterBase c + s.rd (pgArs c) 0x040 + 64 * v) 32).1.1 / 2 ^ 0 % 2 ^ 32) 7 ∧
        (u.viewH c v).out = bits ((s.rdMem (clusterBase c + s.rd (pgArs c) 0x040 + 64 * v) 32).1.1 / 2 ^ 0 % 2 ^ 32) 6 1 ∧
        (u.viewH c v).align = cat32 ((s.rdMem (clusterBase c + s.rd (pgArs c) 0x040 + 64 * v) 32).1.1 / 2 ^ 64 % 2 ^ 32) ((s.rdMem (clusterBase c + s.rd (pgArs c) 0x040 + 64 * v) 32).1.1 / 2 ^ 96 % 2 ^ 32) ∧
        ((u.viewH c v).step = (if bit ((s.rdMem (clusterBase c + s.rd (pgArs c) 0x040 + 64 * v) 32).1.1 / 2 ^ 0 % 2 ^ 32) 16 then clampTo (2 ^ 20) (2 ^ 29) ((s.rdMem (clusterBase c + s.rd (pgArs c) 0x040 + 64 * v) 32).1.1 / 2 ^ 128 % 2 ^ 32) else 2 ^ (32 - (clampTo 3 12 (bits ((s.rdMem (clusterBase c + s.rd (pgArs c) 0x040 + 64 * v) 32).1.1 / 2 ^ 0 % 2 ^ 32) 15 12))))) ∧
        (u.viewH c v).rateMax = (fClampRange 0x3A83126F 0x469C4000 ((s.rdMem (clusterBase c + s.rd (pgArs c) 0x040 + 64 * v) 32).1.1 / 2 ^ 160 % 2 ^ 32)) ∧
        (u.viewH c v).gen = ((s.viewH c v).gen + 1) % 256 ∧
        (u.viewH c v).prod = 0 ∧
        (u.viewH c v).isOpen = false ∧
        (u.viewH c v).wait = true ∧
        (u.arsH c).res ≤ 1 ∧
        u.getB (pgArs c) (0x080 + 4 * (v / 32)) (v % 32) = true :)
    ∧ (∀ (w : Writer) (c v t : Nat) (s : State), (Instr.viewOff w c v t).wf = true → s.calm = true → s.ready (pgArs c) = true → s.mayWrite w (pgArs c) .ars = true → s.getB (pgArs c) 0x04C 31 = false → (s.upTo t).arsSlice c = false → ((s.viewsOf c).all fun x => (s.viewH c x).hold.isNone) = true → (s.viewH c v).on = false →
      Completes (.viewOff w c v t) s fun u => 
        u.getB (pgArs c) 0x04C 31 = true ∧
        (u.arsH c).op = 2 ∧
        (u.arsH c).idx = v ∧
        (u.arsH c).res = 0 ∧
        (∀ d, d ≠ c → u.arsH d = s.arsH d) ∧
        u.now = max s.now t ∧
        RegsOnly [pgArs c] s u ∧
        { u with regs := s.regs, now := s.now, hot := s.hot, ars := s.ars } = s :)
    ∧ (∀ (w : Writer) (c v t : Nat) (s : State), (Instr.viewOff w c v t).wf = true → s.calm = true → s.ready (pgArs c) = true → s.mayWrite w (pgArs c) .ars = true → s.getB (pgArs c) 0x04C 31 = false → (s.upTo t).arsSlice c = false → ((s.viewsOf c).all fun x => (s.viewH c x).hold.isNone) = true → (s.viewH c v).on = true → (s.viewH c v).ring % 64 = 0 → 3 ≤ (s.viewH c v).nlog → (s.viewH c v).n ≤ (s.viewH c v).len →
      Completes (.viewOff w c v t) s fun u => 
        u.getB (pgArs c) 0x04C 31 = true ∧
        (u.arsH c).op = 2 ∧
        (u.arsH c).idx = v ∧
        (u.arsH c).res = 0 ∧
        (u.viewH c v).on = false ∧
        (u.viewH c v).isOpen = false ∧
        (u.viewH c v).pts = [] ∧
        ((u.viewH c v).prod = (if (s.viewH c v).isOpen then ((s.viewH c v).prod + 1) % 2 ^ 32 else (s.viewH c v).prod)) ∧
        u.getB (pgArs c) (0x080 + 4 * (v / 32)) (v % 32) = false ∧
        ((s.viewH c v).isOpen = true → bit (u.viewH c v).flags 6 = bit (s.viewH c v).flags 6) ∧
        (∀ d, d ≠ c → u.arsH d = s.arsH d) ∧
        (∀ d x, 512 * d + x ≠ 512 * c + v → u.viewH d x = s.viewH d x) ∧
        (u.arsIn = s.arsIn) :)
    ∧ (∀ (w : Writer) (c v t : Nat) (s : State), (Instr.viewOff w c v t).wf = true → s.calm = true → s.ready (pgArs c) = true → s.mayWrite w (pgArs c) .ars = true → s.getB (pgArs c) 0x04C 31 = false → (s.upTo t).arsSlice c = false → ((s.viewsOf c).all fun x => (s.viewH c x).hold.isNone) = true → (s.viewH c v).on = true → (s.viewH c v).isOpen = false → (s.viewH c v).ring % 64 = 0 → s.usable (clusterBase c + (s.viewH c v).ring) 24 = true → s.usable (clusterBase c + s.rd (pgArs c) 0x040 + 64 * v) 64 = true → bit ((s.upTo t).flipRegs (pgEccC c)).1 31 = false → ((clusterBase c + s.rd (pgArs c) 0x040 + 64 * v) + 64 ≤ clusterBase c + (s.viewH c v).ring ∨ clusterBase c + (s.viewH c v).ring + 24 ≤ (clusterBase c + s.rd (pgArs c) 0x040 + 64 * v) + 32) →
      Completes (.viewOff w c v t) s fun u => 
        u.getB (pgArs c) 0x04C 31 = true ∧
        (u.arsH c).op = 2 ∧
        (u.arsH c).idx = v ∧
        u.byte (clusterBase c + (s.viewH c v).ring + 9) = 1 ∧
        u.byte (clusterBase c + (s.viewH c v).ring + 8) = BitVec.ofNat 8 (s.viewH c v).gen ∧
        (∀ a, ¬(clusterBase c + (s.viewH c v).ring ≤ a ∧ a < clusterBase c + (s.viewH c v).ring + 24) → ¬((clusterBase c + s.rd (pgArs c) 0x040 + 64 * v) + 32 ≤ a ∧ a < (clusterBase c + s.rd (pgArs c) 0x040 + 64 * v) + 64) → u.byte a = s.byte a) ∧
        u.now = max s.now t ∧
        RegsOnly [pgArs c, pgEccC c] s u ∧
        { u with regs := s.regs, now := s.now, hot := s.hot, ars := s.ars, arsView := s.arsView, mem := s.mem, chk := s.chk, pois := s.pois, tags := s.tags } = s :)
    ∧ (∀ (w : Writer) (c i t : Nat) (s : State), (Instr.inOn w c i t).wf = true → s.calm = true → s.ready (pgArs c) = true → s.mayWrite w (pgArs c) .ars = true → s.getB (pgArs c) 0x04C 31 = false → (s.upTo t).arsSlice c = false → ((s.viewsOf c).all fun x => (s.viewH c x).hold.isNone) = true → ((s.inH c (min 255 i)).on = false ∨ ((s.viewsOf c).filter fun x => (s.viewH c x).input == min 255 i) = []) → bit ((s.upTo t).flipRegs (pgEccC c)).1 31 = false → (s.rdMem (clusterBase c + s.rd (pgArs c) 0x044 + 32 * (min 255 i)) 16).1.2 = false →
      Completes (.inOn w c i t) s fun u => 
        u.getB (pgArs c) 0x04C 31 = true ∧
        (u.arsH c).op = 3 ∧
        (u.arsH c).idx = (min 255 i) ∧
        (u.inH c (min 255 i)).on = decide ((u.arsH c).res ≤ 1) ∧
        ((u.inH c (min 255 i)).on = true → (u.inH c (min 255 i)).st = 1 ∨ (u.inH c (min 255 i)).st = 2) ∧
        (∀ x, x < 512 → (s.viewH c x).on = true → (u.viewH c x).st = (if (s.viewH c x).input = min 255 i ∧ (u.inH c (min 255 i)).st = 2 then u.viewState c x else (s.viewH c x).st)) ∧
        (∀ d, d ≠ c → u.arsH d = s.arsH d) ∧
        (∀ d x, 256 * d + x ≠ 256 * c + min 255 i → u.inH d x = s.inH d x) ∧
        (((s.viewsOf c).filter fun x => (s.viewH c x).input == min 255 i) = [] → u.arsView = s.arsView) :)
    ∧ (∀ (w : Writer) (c i t : Nat) (s : State), (Instr.inOn w c i t).wf = true → s.calm = true → s.ready (pgArs c) = true → s.mayWrite w (pgArs c) .ars = true → s.getB (pgArs c) 0x04C 31 = false → (s.upTo t).arsSlice c = false → ((s.viewsOf c).all fun x => (s.viewH c x).hold.isNone) = true → ((s.inH c (min 255 i)).on = false ∨ ((s.viewsOf c).filter fun x => (s.viewH c x).input == min 255 i) = []) → (s.rdMem (clusterBase c + s.rd (pgArs c) 0x044 + 32 * (min 255 i)) 16).1.2 = false → bit ((s.upTo t).flipRegs (pgEccC c)).1 31 = false → ((s.viewsOf c).filter fun x => (s.viewH c x).input == min 255 i) = [] →
      Completes (.inOn w c i t) s fun u => 
        u.getB (pgArs c) 0x04C 31 = true ∧
        (u.arsH c).op = 3 ∧
        (u.arsH c).idx = (min 255 i) ∧
        (∀ a, ¬((clusterBase c + s.rd (pgArs c) 0x044 + 32 * (min 255 i)) ≤ a ∧ a < (clusterBase c + s.rd (pgArs c) 0x044 + 32 * (min 255 i)) + 32) → u.byte a = s.byte a) ∧
        (u.arsView = s.arsView) :)
    ∧ (∀ (w : Writer) (c i t : Nat) (s : State), (Instr.inOn w c i t).wf = true → s.calm = true → s.ready (pgArs c) = true → s.mayWrite w (pgArs c) .ars = true → s.getB (pgArs c) 0x04C 31 = false → (s.upTo t).arsSlice c = false → ((s.viewsOf c).all fun x => (s.viewH c x).hold.isNone) = true → (s.inH c (min 255 i)).on = false → (s.rdMem (clusterBase c + s.rd (pgArs c) 0x044 + 32 * (min 255 i)) 16).1.2 = false → s.fld (pgArs c) 0x050 31 16 + (match (if (min 10 (bits ((s.rdMem (clusterBase c + s.rd (pgArs c) 0x044 + 32 * (min 255 i)) 16).1.1 / 2 ^ 0 % 2 ^ 32) 13 10)) = 0 then none else s.channelPort (min 1535 (bits ((s.rdMem (clusterBase c + s.rd (pgArs c) 0x044 + 32 * (min 255 i)) 16).1.1 / 2 ^ 0 % 2 ^ 32) 31 21))) with | some q => (16 * fsOf q.2 + 999999) / 1000000 | none => 0) ≤ 45600 → (((s.viewsOf c).filter fun x => (s.viewH c x).input == min 255 i) = [] ∨ s.channelViews (min 1535 (bits ((s.rdMem (clusterBase c + s.rd (pgArs c) 0x044 + 32 * (min 255 i)) 16).1.1 / 2 ^ 0 % 2 ^ 32) 31 21)) + ((s.viewsOf c).filter fun x => (s.viewH c x).input == min 255 i).length ≤ 16) →
      Completes (.inOn w c i t) s fun u => 
        u.getB (pgArs c) 0x04C 31 = true ∧
        (u.arsH c).op = 3 ∧
        (u.arsH c).idx = (min 255 i) ∧
        (u.inH c (min 255 i)).on = true ∧
        (u.inH c (min 255 i)).chan = (min 1535 (bits ((s.rdMem (clusterBase c + s.rd (pgArs c) 0x044 + 32 * (min 255 i)) 16).1.1 / 2 ^ 0 % 2 ^ 32) 31 21)) ∧
        (u.inH c (min 255 i)).size = clampTo 4 16 (bits ((s.rdMem (clusterBase c + s.rd (pgArs c) 0x044 + 32 * (min 255 i)) 16).1.1 / 2 ^ 0 % 2 ^ 32) 20 16) ∧
        (u.inH c (min 255 i)).cons = bits ((s.rdMem (clusterBase c + s.rd (pgArs c) 0x044 + 32 * (min 255 i)) 16).1.1 / 2 ^ 0 % 2 ^ 32) 15 14 ∧
        (u.inH c (min 255 i)).dmax = (min 10 (bits ((s.rdMem (clusterBase c + s.rd (pgArs c) 0x044 + 32 * (min 255 i)) 16).1.1 / 2 ^ 0 % 2 ^ 32) 13 10)) ∧
        (u.inH c (min 255 i)).histLog = clampTo 8 15 (bits ((s.rdMem (clusterBase c + s.rd (pgArs c) 0x044 + 32 * (min 255 i)) 16).1.1 / 2 ^ 0 % 2 ^ 32) 9 6) ∧
        ((u.inH c (min 255 i)).st = (if (s.channelPort (min 1535 (bits ((s.rdMem (clusterBase c + s.rd (pgArs c) 0x044 + 32 * (min 255 i)) 16).1.1 / 2 ^ 0 % 2 ^ 32) 31 21))).isSome && s.usable (clusterBase c + (u.inH c (min 255 i)).ring) (u.inH c (min 255 i)).ringBytes then 2 else 1)) ∧
        (u.arsH c).res ≤ 1 :)
    ∧ (∀ (w : Writer) (c i t : Nat) (s : State), (Instr.inOff w c i t).wf = true → s.calm = true → s.ready (pgArs c) = true → s.mayWrite w (pgArs c) .ars = true → s.getB (pgArs c) 0x04C 31 = false → (s.upTo t).arsSlice c = false → ((s.viewsOf c).all fun x => (s.viewH c x).hold.isNone) = true → (s.inH c (min 255 i)).on = false →
      Completes (.inOff w c i t) s fun u => 
        u.getB (pgArs c) 0x04C 31 = true ∧
        (u.arsH c).op = 4 ∧
        (u.arsH c).idx = (min 255 i) ∧
        (u.arsH c).res = 0 ∧
        (∀ d, d ≠ c → u.arsH d = s.arsH d) ∧
        u.now = max s.now t ∧
        RegsOnly [pgArs c] s u ∧
        { u with regs := s.regs, now := s.now, hot := s.hot, ars := s.ars } = s :)
    ∧ (∀ (w : Writer) (c i t : Nat) (s : State), (Instr.inOff w c i t).wf = true → s.calm = true → s.ready (pgArs c) = true → s.mayWrite w (pgArs c) .ars = true → s.getB (pgArs c) 0x04C 31 = false → (s.upTo t).arsSlice c = false → ((s.viewsOf c).all fun x => (s.viewH c x).hold.isNone) = true → (s.inH c (min 255 i)).on = true → s.faulted (pgArs c) = false →
      Completes (.inOff w c i t) s fun u => 
        u.getB (pgArs c) 0x04C 31 = true ∧
        (u.arsH c).op = 4 ∧
        (u.arsH c).idx = (min 255 i) ∧
        (u.arsH c).res = 0 ∧
        (u.inH c (min 255 i)).on = false ∧
        (u.inH c (min 255 i)).st = 0 ∧
        (∀ x, x < 512 → (s.viewH c x).on = true → (s.viewH c x).input = min 255 i → (u.viewH c x).st = 1 ∧ (u.viewH c x).wait = true ∧ (u.viewH c x).pts = [] ∧ (u.viewH c x).isOpen = false ∧ (u.viewH c x).prod = (if (s.viewH c x).isOpen then ((s.viewH c x).prod + 1) % 2 ^ 32 else (s.viewH c x).prod)) ∧
        (∀ x, x < 512 → (s.viewH c x).on = false ∨ (s.viewH c x).input ≠ min 255 i → u.viewH c x = s.viewH c x) ∧
        (∀ d, d ≠ c → u.arsH d = s.arsH d) ∧
        (∀ d x, 256 * d + x ≠ 256 * c + min 255 i → u.inH d x = s.inH d x) :)
    ∧ (∀ (w : Writer) (c v t : Nat) (s : State), (Instr.viewOn w c v t).wf = true → s.calm = true → s.ready (pgArs c) = true → s.mayWrite w (pgArs c) .ars = true → s.getB (pgArs c) 0x04C 31 = false → (s.upTo t).arsSlice c = true →
      Completes (.viewOn w c v t) s fun u => 
        u.getB (pgArs c) 0x04C 31 = true ∧
        (u.arsH c).op = 1 ∧
        (u.arsH c).idx = v ∧
        (u.arsH c).wait = true ∧
        (∀ d, d ≠ c → u.arsH d = s.arsH d) ∧
        u.now = max s.now t ∧
        RegsOnly [(pgArs c)] s u ∧
        { u with regs := s.regs, now := s.now, hot := s.hot, ars := s.ars } = s :)
    ∧ (∀ (w : Writer) (c v t : Nat) (s : State), (Instr.viewOff w c v t).wf = true → s.calm = true → s.ready (pgArs c) = true → s.mayWrite w (pgArs c) .ars = true → s.getB (pgArs c) 0x04C 31 = false → (s.upTo t).arsSlice c = true →
      Completes (.viewOff w c v t) s fun u => 
        u.getB (pgArs c) 0x04C 31 = true ∧
        (u.arsH c).op = 2 ∧
        (u.arsH c).idx = v ∧
        (u.arsH c).wait = true ∧
        (∀ d, d ≠ c → u.arsH d = s.arsH d) ∧
        u.now = max s.now t ∧
        RegsOnly [(pgArs c)] s u ∧
        { u with regs := s.regs, now := s.now, hot := s.hot, ars := s.ars } = s :)
    ∧ (∀ (w : Writer) (c i t : Nat) (s : State), (Instr.inOn w c i t).wf = true → s.calm = true → s.ready (pgArs c) = true → s.mayWrite w (pgArs c) .ars = true → s.getB (pgArs c) 0x04C 31 = false → (s.upTo t).arsSlice c = true →
      Completes (.inOn w c i t) s fun u => 
        u.getB (pgArs c) 0x04C 31 = true ∧
        (u.arsH c).op = 3 ∧
        (u.arsH c).idx = (min 255 i) ∧
        (u.arsH c).wait = true ∧
        (∀ d, d ≠ c → u.arsH d = s.arsH d) ∧
        u.now = max s.now t ∧
        RegsOnly [(pgArs c)] s u ∧
        { u with regs := s.regs, now := s.now, hot := s.hot, ars := s.ars } = s :)
    ∧ (∀ (w : Writer) (c i t : Nat) (s : State), (Instr.inOff w c i t).wf = true → s.calm = true → s.ready (pgArs c) = true → s.mayWrite w (pgArs c) .ars = true → s.getB (pgArs c) 0x04C 31 = false → (s.upTo t).arsSlice c = true →
      Completes (.inOff w c i t) s fun u => 
        u.getB (pgArs c) 0x04C 31 = true ∧
        (u.arsH c).op = 4 ∧
        (u.arsH c).idx = (min 255 i) ∧
        (u.arsH c).wait = true ∧
        (∀ d, d ≠ c → u.arsH d = s.arsH d) ∧
        u.now = max s.now t ∧
        RegsOnly [(pgArs c)] s u ∧
        { u with regs := s.regs, now := s.now, hot := s.hot, ars := s.ars } = s :)
    ∧ (∀ (w : Writer) (c v t : Nat) (s : State), (Instr.viewOn w c v t).wf = true → s.calm = true → s.ready (pgArs c) = true → s.mayWrite w (pgArs c) .ars = true → s.getB (pgArs c) 0x04C 31 = true →
      Completes (.viewOn w c v t) s fun u => 
        u.fld (pgArs c) 0x018 31 16 = min 0xFFFF (s.fld (pgArs c) 0x018 31 16 + 1) ∧
        u.fld (pgArs c) 0x018 11 0 = 0x048 ∧
        u.now = max s.now t ∧
        RegsOnly [(pgArs c)] s u ∧
        { u with regs := s.regs, now := s.now, hot := s.hot } = s :)
    ∧ (∀ (w : Writer) (c v t : Nat) (s : State), (Instr.viewOff w c v t).wf = true → s.calm = true → s.ready (pgArs c) = true → s.mayWrite w (pgArs c) .ars = true → s.getB (pgArs c) 0x04C 31 = true →
      Completes (.viewOff w c v t) s fun u => 
        u.fld (pgArs c) 0x018 31 16 = min 0xFFFF (s.fld (pgArs c) 0x018 31 16 + 1) ∧
        u.fld (pgArs c) 0x018 11 0 = 0x048 ∧
        u.now = max s.now t ∧
        RegsOnly [(pgArs c)] s u ∧
        { u with regs := s.regs, now := s.now, hot := s.hot } = s :)
    ∧ (∀ (w : Writer) (c i t : Nat) (s : State), (Instr.inOn w c i t).wf = true → s.calm = true → s.ready (pgArs c) = true → s.mayWrite w (pgArs c) .ars = true → s.getB (pgArs c) 0x04C 31 = true →
      Completes (.inOn w c i t) s fun u => 
        u.fld (pgArs c) 0x018 31 16 = min 0xFFFF (s.fld (pgArs c) 0x018 31 16 + 1) ∧
        u.fld (pgArs c) 0x018 11 0 = 0x048 ∧
        u.now = max s.now t ∧
        RegsOnly [(pgArs c)] s u ∧
        { u with regs := s.regs, now := s.now, hot := s.hot } = s :)
    ∧ (∀ (w : Writer) (c i t : Nat) (s : State), (Instr.inOff w c i t).wf = true → s.calm = true → s.ready (pgArs c) = true → s.mayWrite w (pgArs c) .ars = true → s.getB (pgArs c) 0x04C 31 = true →
      Completes (.inOff w c i t) s fun u => 
        u.fld (pgArs c) 0x018 31 16 = min 0xFFFF (s.fld (pgArs c) 0x018 31 16 + 1) ∧
        u.fld (pgArs c) 0x018 11 0 = 0x048 ∧
        u.now = max s.now t ∧
        RegsOnly [(pgArs c)] s u ∧
        { u with regs := s.regs, now := s.now, hot := s.hot } = s :)
    ∧ (∀ (c : Nat) (s : State), (Instr.arsCommandComplete c).wf = true → s.calm = true → s.getB (pgArs c) 0x04C 31 = true → s.arsSlice c = false → (s.arsH c).wait = false → (s.arsH c).res < 8 → (s.arsH c).op < 16 → (s.arsH c).idx < 512 →
      Completes (.arsCommandComplete c) s fun u => 
        u.fld (pgArs c) 0x04C 31 28 = (s.arsH c).res ∧
        u.fld (pgArs c) 0x04C 27 24 = (s.arsH c).op ∧
        u.fld (pgArs c) 0x04C 8 0 = (s.arsH c).idx ∧
        u.getB (pgArs c) 0x010 16 = true ∧
        RegsOnly [pgArs c] s u ∧
        { u with regs := s.regs, hot := s.hot } = s :)
    ∧ (∀ (c : Nat) (s : State), (Instr.arsCommandComplete c).wf = true → s.calm = true → s.getB (pgArs c) 0x04C 31 = true → s.arsSlice c = false → (s.arsH c).wait = true → 0 < (s.arsH c).op → (s.arsH c).op < 5 → (s.arsH c).idx < 512 →
      Completes (.arsCommandComplete c) s fun u => 
        u.getB (pgArs c) 0x04C 31 = false ∧
        u.fld (pgArs c) 0x04C 31 28 = (u.arsH c).res ∧
        u.fld (pgArs c) 0x04C 27 24 = (s.arsH c).op ∧
        u.fld (pgArs c) 0x04C 8 0 = (s.arsH c).idx ∧
        (u.arsH c).wait = false ∧
        u.getB (pgArs c) 0x010 16 = true ∧
        ((s.arsH c).op = 1 → (u.arsH c).res ≤ 1 → (s.rdMem (clusterBase c + s.rd (pgArs c) 0x040 + 64 * (s.arsH c).idx) 32).1.2 = false → (s.viewH c (s.arsH c).idx).on = false → ((s.viewsOf c).all fun x => (s.viewH c x).hold.isNone) = true → (u.viewH c (s.arsH c).idx).on = true) ∧
        ((s.arsH c).op = 2 → (u.viewH c (s.arsH c).idx).on = false) ∧
        ((s.arsH c).op = 4 → (u.inH c (s.arsH c).idx).on = false) ∧
        (∀ d, d ≠ c → u.arsH d = s.arsH d) :)

/-- With no self-test slice on the engine, a running input takes the cell at its consumer index: the index counts on and is written to the ring; the next sample index is INDEX plus the count of a sample cell or of a GAP cell; a cell of another channel or of format RAW is discarded and counted; at a ring that is CLOSED and empty the input goes to CLOSED with bit 19, and to RUNNING when the ring is set up again; no byte but the history, the consumer index and the descriptor is written. An output sample takes the oldest resolved point of a view that no other goes before, once the history holds all samples of its octave: over VIEW_RATE_MAX it is the gap value 0x11, above DMAX 0x12, with a gap value among its taps the earliest of these, else the filter sum of R184 over its 128 taps; it opens a block where none is open, the block counts one sample more, the last sample closes it and counts the producer index on, and a re-alignment that follows the point closes the block early. No other view and no input changes. -/
def Obligations.ArsSamples : Prop :=
    (∀ (c i t : Nat) (s : State), (Instr.inputCell c i t).wf = true → s.calm = true → (s.ready (pgArs c) || s.faulted (pgArs c)) = true → (s.upTo t).arsSlice c = false → ((s.viewsOf c).all fun x => (s.viewH c x).hold.isNone) = true → (s.inH c i).on = true → s.usable (clusterBase c + (s.inH c i).ring) (s.inH c i).ringBytes = true → (s.inH c i).st = 2 → 8 ≤ (s.inH c i).histLog → (s.inH c i).hist % 64 = 0 → (s.rdMem64 (clusterBase c + (s.inH c i).ring)).1.2 = false → (s.rdMem64 (clusterBase c + (s.inH c i).ring)).1.1 % 2 ^ 32 ≠ (s.inH c i).rp → bits (s.peek ((clusterBase c + (s.inH c i).ring) + 128 + 64 * ((s.inH c i).rp % 2 ^ (s.inH c i).size)) 64) 63 48 = (s.inH c i).chan → bits (s.peek ((clusterBase c + (s.inH c i).ring) + 128 + 64 * ((s.inH c i).rp % 2 ^ (s.inH c i).size)) 64) 26 24 ≠ 0 → bit (s.peek ((clusterBase c + (s.inH c i).ring) + 128 + 64 * ((s.inH c i).rp % 2 ^ (s.inH c i).size)) 64) 12 = false → ((s.inH c i).units = none ∨ (s.inH c i).units = some (bits (s.peek ((clusterBase c + (s.inH c i).ring) + 128 + 64 * ((s.inH c i).rp % 2 ^ (s.inH c i).size)) 64) 26 24 == 3)) →
      Completes (.inputCell c i t) s fun u => 
        (u.inH c i).rp = ((s.inH c i).rp + 1) % 2 ^ 32 ∧
        (u.inH c i).next = bits (s.peek ((clusterBase c + (s.inH c i).ring) + 128 + 64 * ((s.inH c i).rp % 2 ^ (s.inH c i).size)) 64) 111 64 + bits (s.peek ((clusterBase c + (s.inH c i).ring) + 128 + 64 * ((s.inH c i).rp % 2 ^ (s.inH c i).size)) 64) 47 40 ∧
        (u.inH c i).units = some (bits (s.peek ((clusterBase c + (s.inH c i).ring) + 128 + 64 * ((s.inH c i).rp % 2 ^ (s.inH c i).size)) 64) 26 24 == 3) ∧
        (∀ d x, 256 * d + x ≠ 256 * c + i → u.inH d x = s.inH d x) ∧
        (u.arsView = s.arsView) ∧
        (∀ a, ¬(clusterBase c + (s.inH c i).hist ≤ a ∧ a < clusterBase c + (s.inH c i).hist + (s.inH c i).histBytes) → ¬((clusterBase c + (s.inH c i).ring) + 64 + 8 * (s.inH c i).cons ≤ a ∧ a < (clusterBase c + (s.inH c i).ring) + 72 + 8 * (s.inH c i).cons) → ¬(clusterBase c + s.rd (pgArs c) 0x044 + 32 * i + 16 ≤ a ∧ a < clusterBase c + s.rd (pgArs c) 0x044 + 32 * i + 32) → u.byte a = s.byte a) :)
    ∧ (∀ (c i t : Nat) (s : State), (Instr.inputCell c i t).wf = true → s.calm = true → (s.ready (pgArs c) || s.faulted (pgArs c)) = true → (s.upTo t).arsSlice c = false → ((s.viewsOf c).all fun x => (s.viewH c x).hold.isNone) = true → (s.inH c i).on = true → s.usable (clusterBase c + (s.inH c i).ring) (s.inH c i).ringBytes = true → (s.inH c i).st = 2 → 8 ≤ (s.inH c i).histLog → (s.inH c i).hist % 64 = 0 → (s.rdMem64 (clusterBase c + (s.inH c i).ring)).1.2 = false → (s.rdMem64 (clusterBase c + (s.inH c i).ring)).1.1 % 2 ^ 32 ≠ (s.inH c i).rp → bits (s.peek ((clusterBase c + (s.inH c i).ring) + 128 + 64 * ((s.inH c i).rp % 2 ^ (s.inH c i).size)) 64) 63 48 = (s.inH c i).chan → bits (s.peek ((clusterBase c + (s.inH c i).ring) + 128 + 64 * ((s.inH c i).rp % 2 ^ (s.inH c i).size)) 64) 26 24 ≠ 0 → bit (s.peek ((clusterBase c + (s.inH c i).ring) + 128 + 64 * ((s.inH c i).rp % 2 ^ (s.inH c i).size)) 64) 12 = true →
      Completes (.inputCell c i t) s fun u => 
        (u.inH c i).rp = ((s.inH c i).rp + 1) % 2 ^ 32 ∧
        (u.inH c i).next = bits (s.peek ((clusterBase c + (s.inH c i).ring) + 128 + 64 * ((s.inH c i).rp % 2 ^ (s.inH c i).size)) 64) 111 64 + bits (s.peek ((clusterBase c + (s.inH c i).ring) + 128 + 64 * ((s.inH c i).rp % 2 ^ (s.inH c i).size)) 64) 159 128 ∧
        (u.inH c i).units = (s.inH c i).units ∧
        (∀ d x, 256 * d + x ≠ 256 * c + i → u.inH d x = s.inH d x) ∧
        (u.arsView = s.arsView) ∧
        (∀ a, ¬(clusterBase c + (s.inH c i).hist ≤ a ∧ a < clusterBase c + (s.inH c i).hist + (s.inH c i).histBytes) → ¬((clusterBase c + (s.inH c i).ring) + 64 + 8 * (s.inH c i).cons ≤ a ∧ a < (clusterBase c + (s.inH c i).ring) + 72 + 8 * (s.inH c i).cons) → ¬(clusterBase c + s.rd (pgArs c) 0x044 + 32 * i + 16 ≤ a ∧ a < clusterBase c + s.rd (pgArs c) 0x044 + 32 * i + 32) → u.byte a = s.byte a) :)
    ∧ (∀ (c i t : Nat) (s : State), (Instr.inputCell c i t).wf = true → s.calm = true → (s.ready (pgArs c) || s.faulted (pgArs c)) = true → (s.upTo t).arsSlice c = false → ((s.viewsOf c).all fun x => (s.viewH c x).hold.isNone) = true → (s.inH c i).on = true → s.usable (clusterBase c + (s.inH c i).ring) (s.inH c i).ringBytes = true → (s.inH c i).st = 2 → 8 ≤ (s.inH c i).histLog → (s.inH c i).hist % 64 = 0 → (s.rdMem64 (clusterBase c + (s.inH c i).ring)).1.2 = false → (s.rdMem64 (clusterBase c + (s.inH c i).ring)).1.1 % 2 ^ 32 ≠ (s.inH c i).rp → (bits (s.peek ((clusterBase c + (s.inH c i).ring) + 128 + 64 * ((s.inH c i).rp % 2 ^ (s.inH c i).size)) 64) 63 48 ≠ (s.inH c i).chan ∨ bits (s.peek ((clusterBase c + (s.inH c i).ring) + 128 + 64 * ((s.inH c i).rp % 2 ^ (s.inH c i).size)) 64) 26 24 = 0) →
      Completes (.inputCell c i t) s fun u => 
        (u.inH c i).rp = ((s.inH c i).rp + 1) % 2 ^ 32 ∧
        (u.inH c i).next = (s.inH c i).next ∧
        u.fld (pgArs c) 0x05C 15 0 = min 0xFFFF (s.fld (pgArs c) 0x05C 15 0 + 1) ∧
        (∀ d x, 256 * d + x ≠ 256 * c + i → u.inH d x = s.inH d x) ∧
        (u.arsView = s.arsView) ∧
        (∀ a, ¬(clusterBase c + (s.inH c i).hist ≤ a ∧ a < clusterBase c + (s.inH c i).hist + (s.inH c i).histBytes) → ¬((clusterBase c + (s.inH c i).ring) + 64 + 8 * (s.inH c i).cons ≤ a ∧ a < (clusterBase c + (s.inH c i).ring) + 72 + 8 * (s.inH c i).cons) → ¬(clusterBase c + s.rd (pgArs c) 0x044 + 32 * i + 16 ≤ a ∧ a < clusterBase c + s.rd (pgArs c) 0x044 + 32 * i + 32) → u.byte a = s.byte a) :)
    ∧ (∀ (c i t : Nat) (s : State), (Instr.inputCell c i t).wf = true → s.calm = true → (s.ready (pgArs c) || s.faulted (pgArs c)) = true → (s.upTo t).arsSlice c = false → ((s.viewsOf c).all fun x => (s.viewH c x).hold.isNone) = true → (s.inH c i).on = true → s.usable (clusterBase c + (s.inH c i).ring) (s.inH c i).ringBytes = true → (s.inH c i).st = 2 → ((s.rdMem64 (clusterBase c + (s.inH c i).ring)).1.2 = true ∨ (s.rdMem64 (clusterBase c + (s.inH c i).ring)).1.1 % 2 ^ 32 = (s.inH c i).rp) → bit (s.peek ((clusterBase c + (s.inH c i).ring) + 8) 8) 8 = true →
      Completes (.inputCell c i t) s fun u => 
        (u.inH c i).st = 3 ∧
        (u.inH c i).rp = (s.inH c i).rp ∧
        u.getB (pgArs c) 0x010 19 = true ∧
        (∀ x, x < 512 → (s.viewH c x).on = true → (s.viewH c x).input = i → (u.viewH c x).st = 1 ∧ (u.viewH c x).wait = true ∧ (u.viewH c x).pts = []) ∧
        (∀ x, x < 512 → (s.viewH c x).on = false ∨ (s.viewH c x).input ≠ i → u.viewH c x = s.viewH c x) ∧
        (∀ d x, 256 * d + x ≠ 256 * c + i → u.inH d x = s.inH d x) :)
    ∧ (∀ (c i t : Nat) (s : State), (Instr.inputCell c i t).wf = true → s.calm = true → (s.ready (pgArs c) || s.faulted (pgArs c)) = true → (s.upTo t).arsSlice c = false → ((s.viewsOf c).all fun x => (s.viewH c x).hold.isNone) = true → (s.inH c i).on = true → s.usable (clusterBase c + (s.inH c i).ring) (s.inH c i).ringBytes = true → (s.inH c i).st = 3 → bit (s.peek ((clusterBase c + (s.inH c i).ring) + 8) 8) 8 = false →
      Completes (.inputCell c i t) s fun u => 
        (u.inH c i).st = 2 ∧
        (u.inH c i).rp = s.peek ((clusterBase c + (s.inH c i).ring) + 64 + 8 * (s.inH c i).cons) 8 % 2 ^ 32 ∧
        (∀ d x, 256 * d + x ≠ 256 * c + i → u.inH d x = s.inH d x) :)
    ∧ (∀ (c v t : Nat) (df bad : Bool) (p : GridPt) (rest : List GridPt) (s : State), (Instr.outputSample c v t (⟨df, bad⟩)).wf = true → s.calm = true → s.ready (pgArs c) = true → (s.upTo t).arsSlice c = false → ((s.viewsOf c).all fun x => (s.viewH c x).hold.isNone) = true → (s.viewH c v).on = true → (((s.upTo t).viewPredict c v (max s.now t)).viewH c v).pts = p :: rest → ((s.upTo t).viewPredict c v (max s.now t)).viewAhead c v = false → (((s.upTo t).viewPredict c v (max s.now t)).viewH c v).n < (((s.upTo t).viewPredict c v (max s.now t)).viewH c v).len → p.stop = none → ((((s.upTo t).viewPredict c v (max s.now t)).ptNeed c (((s.upTo t).viewPredict c v (max s.now t)).viewH c v) p).isOver = true ∨ (((s.upTo t).viewPredict c v (max s.now t)).ptNeed c (((s.upTo t).viewPredict c v (max s.now t)).viewH c v) p).under = true ∨ ((((s.upTo t).viewPredict c v (max s.now t)).ptNeed c (((s.upTo t).viewPredict c v (max s.now t)).viewH c v) p).u.floor + 65 ≤ (octCount (((s.upTo t).viewPredict c v (max s.now t)).ptNeed c (((s.upTo t).viewPredict c v (max s.now t)).viewH c v) p).D (s.inH c (((s.upTo t).viewPredict c v (max s.now t)).viewH c v).input).next : Int))) →
      Completes (.outputSample c v t (⟨df, bad⟩)) s fun u => 
        (u.viewH c v).pts = rest ∧
        ((u.viewH c v).isOpen = !decide ((if (((s.upTo t).viewPredict c v (max s.now t)).viewH c v).isOpen then (((s.upTo t).viewPredict c v (max s.now t)).viewH c v).n else 0) + 1 = (((s.upTo t).viewPredict c v (max s.now t)).viewH c v).len)) ∧
        ((u.viewH c v).n = (if ((if (((s.upTo t).viewPredict c v (max s.now t)).viewH c v).isOpen then (((s.upTo t).viewPredict c v (max s.now t)).viewH c v).n else 0) + 1 = (((s.upTo t).viewPredict c v (max s.now t)).viewH c v).len) then 0 else (if (((s.upTo t).viewPredict c v (max s.now t)).viewH c v).isOpen then (((s.upTo t).viewPredict c v (max s.now t)).viewH c v).n else 0) + 1)) ∧
        ((u.viewH c v).prod = (if ((if (((s.upTo t).viewPredict c v (max s.now t)).viewH c v).isOpen then (((s.upTo t).viewPredict c v (max s.now t)).viewH c v).n else 0) + 1 = (((s.upTo t).viewPredict c v (max s.now t)).viewH c v).len) then ((((s.upTo t).viewPredict c v (max s.now t)).viewH c v).prod + 1) % 2 ^ 32 else (((s.upTo t).viewPredict c v (max s.now t)).viewH c v).prod)) ∧
        ((u.viewH c v).seq = (if ((if (((s.upTo t).viewPredict c v (max s.now t)).viewH c v).isOpen then (((s.upTo t).viewPredict c v (max s.now t)).viewH c v).n else 0) + 1 = (((s.upTo t).viewPredict c v (max s.now t)).viewH c v).len) then ((((s.upTo t).viewPredict c v (max s.now t)).viewH c v).seq + 1) % 2 ^ 32 else (((s.upTo t).viewPredict c v (max s.now t)).viewH c v).seq)) ∧
        (u.viewH c v).high = some p.theta ∧
        (u.viewH c v).d = (((s.upTo t).viewPredict c v (max s.now t)).ptNeed c (((s.upTo t).viewPredict c v (max s.now t)).viewH c v) p).D ∧
        (u.viewH c v).theta = (((s.upTo t).viewPredict c v (max s.now t)).viewH c v).theta ∧
        (∀ d x, 512 * d + x ≠ 512 * c + v → u.viewH d x = s.viewH d x) ∧
        (u.arsIn = s.arsIn) ∧
        ((u.viewH c v).ngap + (u.viewH c v).nvalid = (if (((s.upTo t).viewPredict c v (max s.now t)).viewH c v).isOpen then (((s.upTo t).viewPredict c v (max s.now t)).viewH c v).ngap + (((s.upTo t).viewPredict c v (max s.now t)).viewH c v).nvalid else 0) + 1) :)
    ∧ (∀ (c v t : Nat) (df bad : Bool) (p : GridPt) (rest : List GridPt) (s : State), (Instr.outputSample c v t (⟨df, bad⟩)).wf = true → s.calm = true → s.ready (pgArs c) = true → (s.upTo t).arsSlice c = false → ((s.viewsOf c).all fun x => (s.viewH c x).hold.isNone) = true → (s.viewH c v).on = true → (((s.upTo t).viewPredict c v (max s.now t)).viewH c v).pts = p :: rest → ((s.upTo t).viewPredict c v (max s.now t)).viewAhead c v = false → (((s.upTo t).viewPredict c v (max s.now t)).viewH c v).n < (((s.upTo t).viewPredict c v (max s.now t)).viewH c v).len → (((s.upTo t).viewPredict c v (max s.now t)).viewH c v).ring % 64 = 0 → s.usable ((((s.upTo t).viewPredict c v (max s.now t)).viewH c v).slotAddr c (((s.upTo t).viewPredict c v (max s.now t)).viewH c v).prod) (((s.upTo t).viewPredict c v (max s.now t)).viewH c v).slotBytes = true → bit ((s.upTo t).flipRegs (pgEccC c)).1 31 = false → (if (((s.upTo t).viewPredict c v (max s.now t)).viewH c v).isOpen then (((s.upTo t).viewPredict c v (max s.now t)).viewH c v).n else 0) + 1 < (((s.upTo t).viewPredict c v (max s.now t)).viewH c v).len → p.stop = none → 3 ≤ (((s.upTo t).viewPredict c v (max s.now t)).viewH c v).nlog → ((((s.upTo t).viewPredict c v (max s.now t)).ptNeed c (((s.upTo t).viewPredict c v (max s.now t)).viewH c v) p).isOver = true ∨ (((s.upTo t).viewPredict c v (max s.now t)).ptNeed c (((s.upTo t).viewPredict c v (max s.now t)).viewH c v) p).under = true ∨ ((((s.upTo t).viewPredict c v (max s.now t)).ptNeed c (((s.upTo t).viewPredict c v (max s.now t)).viewH c v) p).u.floor + 65 ≤ (octCount (((s.upTo t).viewPredict c v (max s.now t)).ptNeed c (((s.upTo t).viewPredict c v (max s.now t)).viewH c v) p).D (s.inH c (((s.upTo t).viewPredict c v (max s.now t)).viewH c v).input).next : Int))) →
      Completes (.outputSample c v t (⟨df, bad⟩)) s fun u => 
        (∀ a, (a < clusterBase c + (((s.upTo t).viewPredict c v (max s.now t)).viewH c v).ring ∨ clusterBase c + (((s.upTo t).viewPredict c v (max s.now t)).viewH c v).ring + 64 + 2 ^ (((s.upTo t).viewPredict c v (max s.now t)).viewH c v).ringLog * (((s.upTo t).viewPredict c v (max s.now t)).viewH c v).slotBytes ≤ a) → ¬((clusterBase c + s.rd (pgArs c) 0x040 + 64 * v) + 32 ≤ a ∧ a < (clusterBase c + s.rd (pgArs c) 0x040 + 64 * v) + 64) → u.byte a = s.byte a) :)
    ∧ (∀ (c v t : Nat) (df bad : Bool) (p : GridPt) (rest : List GridPt) (s : State), (Instr.outputSample c v t (⟨df, bad⟩)).wf = true → s.calm = true → s.ready (pgArs c) = true → (s.upTo t).arsSlice c = false → ((s.viewsOf c).all fun x => (s.viewH c x).hold.isNone) = true → (s.viewH c v).on = true → (((s.upTo t).viewPredict c v (max s.now t)).viewH c v).pts = p :: rest → ((s.upTo t).viewPredict c v (max s.now t)).viewAhead c v = false → (((s.upTo t).viewPredict c v (max s.now t)).viewH c v).n < (((s.upTo t).viewPredict c v (max s.now t)).viewH c v).len → (((s.upTo t).viewPredict c v (max s.now t)).viewH c v).ring % 64 = 0 → s.usable ((((s.upTo t).viewPredict c v (max s.now t)).viewH c v).slotAddr c (((s.upTo t).viewPredict c v (max s.now t)).viewH c v).prod) (((s.upTo t).viewPredict c v (max s.now t)).viewH c v).slotBytes = true → bit ((s.upTo t).flipRegs (pgEccC c)).1 31 = false → (if (((s.upTo t).viewPredict c v (max s.now t)).viewH c v).isOpen then (((s.upTo t).viewPredict c v (max s.now t)).viewH c v).n else 0) + 1 < (((s.upTo t).viewPredict c v (max s.now t)).viewH c v).len → ((clusterBase c + s.rd (pgArs c) 0x040 + 64 * v) + 64 ≤ clusterBase c + (((s.upTo t).viewPredict c v (max s.now t)).viewH c v).ring ∨ clusterBase c + (((s.upTo t).viewPredict c v (max s.now t)).viewH c v).ring + 64 + 2 ^ (((s.upTo t).viewPredict c v (max s.now t)).viewH c v).ringLog * (((s.upTo t).viewPredict c v (max s.now t)).viewH c v).slotBytes ≤ (clusterBase c + s.rd (pgArs c) 0x040 + 64 * v)) → p.stop = none → (((s.upTo t).viewPredict c v (max s.now t)).ptNeed c (((s.upTo t).viewPredict c v (max s.now t)).viewH c v) p).isOver = true →
      Completes (.outputSample c v t (⟨df, bad⟩)) s fun u => 
        (u.peek ((((s.upTo t).viewPredict c v (max s.now t)).viewH c v).slotAddr c (((s.upTo t).viewPredict c v (max s.now t)).viewH c v).prod + 64 + 4 * (if (((s.upTo t).viewPredict c v (max s.now t)).viewH c v).isOpen then (((s.upTo t).viewPredict c v (max s.now t)).viewH c v).n else 0)) 4 = 0x7FC00011) ∧
        bit (u.viewH c v).flags 3 = true ∧
        ((u.viewH c v).ngap = (if (((s.upTo t).viewPredict c v (max s.now t)).viewH c v).isOpen then (((s.upTo t).viewPredict c v (max s.now t)).viewH c v).ngap else 0) + 1) :)
    ∧ (∀ (c v t : Nat) (df bad : Bool) (p : GridPt) (rest : List GridPt) (s : State), (Instr.outputSample c v t (⟨df, bad⟩)).wf = true → s.calm = true → s.ready (pgArs c) = true → (s.upTo t).arsSlice c = false → ((s.viewsOf c).all fun x => (s.viewH c x).hold.isNone) = true → (s.viewH c v).on = true → (((s.upTo t).viewPredict c v (max s.now t)).viewH c v).pts = p :: rest → ((s.upTo t).viewPredict c v (max s.now t)).viewAhead c v = false → (((s.upTo t).viewPredict c v (max s.now t)).viewH c v).n < (((s.upTo t).viewPredict c v (max s.now t)).viewH c v).len → (((s.upTo t).viewPredict c v (max s.now t)).viewH c v).ring % 64 = 0 → s.usable ((((s.upTo t).viewPredict c v (max s.now t)).viewH c v).slotAddr c (((s.upTo t).viewPredict c v (max s.now t)).viewH c v).prod) (((s.upTo t).viewPredict c v (max s.now t)).viewH c v).slotBytes = true → bit ((s.upTo t).flipRegs (pgEccC c)).1 31 = false → (if (((s.upTo t).viewPredict c v (max s.now t)).viewH c v).isOpen then (((s.upTo t).viewPredict c v (max s.now t)).viewH c v).n else 0) + 1 < (((s.upTo t).viewPredict c v (max s.now t)).viewH c v).len → ((clusterBase c + s.rd (pgArs c) 0x040 + 64 * v) + 64 ≤ clusterBase c + (((s.upTo t).viewPredict c v (max s.now t)).viewH c v).ring ∨ clusterBase c + (((s.upTo t).viewPredict c v (max s.now t)).viewH c v).ring + 64 + 2 ^ (((s.upTo t).viewPredict c v (max s.now t)).viewH c v).ringLog * (((s.upTo t).viewPredict c v (max s.now t)).viewH c v).slotBytes ≤ (clusterBase c + s.rd (pgArs c) 0x040 + 64 * v)) → p.stop = none → (((s.upTo t).viewPredict c v (max s.now t)).ptNeed c (((s.upTo t).viewPredict c v (max s.now t)).viewH c v) p).under = true →
      Completes (.outputSample c v t (⟨df, bad⟩)) s fun u => 
        (u.peek ((((s.upTo t).viewPredict c v (max s.now t)).viewH c v).slotAddr c (((s.upTo t).viewPredict c v (max s.now t)).viewH c v).prod + 64 + 4 * (if (((s.upTo t).viewPredict c v (max s.now t)).viewH c v).isOpen then (((s.upTo t).viewPredict c v (max s.now t)).viewH c v).n else 0)) 4 = 0x7FC00012) ∧
        ((u.viewH c v).ngap = (if (((s.upTo t).viewPredict c v (max s.now t)).viewH c v).isOpen then (((s.upTo t).viewPredict c v (max s.now t)).viewH c v).ngap else 0) + 1) :)
    ∧ (∀ (c v t : Nat) (df bad : Bool) (p : GridPt) (rest : List GridPt) (g : Nat) (s : State), (Instr.outputSample c v t (⟨df, bad⟩)).wf = true → s.calm = true → s.ready (pgArs c) = true → (s.upTo t).arsSlice c = false → ((s.viewsOf c).all fun x => (s.viewH c x).hold.isNone) = true → (s.viewH c v).on = true → (((s.upTo t).viewPredict c v (max s.now t)).viewH c v).pts = p :: rest → ((s.upTo t).viewPredict c v (max s.now t)).viewAhead c v = false → (((s.upTo t).viewPredict c v (max s.now t)).viewH c v).n < (((s.upTo t).viewPredict c v (max s.now t)).viewH c v).len → (((s.upTo t).viewPredict c v (max s.now t)).viewH c v).ring % 64 = 0 → s.usable ((((s.upTo t).viewPredict c v (max s.now t)).viewH c v).slotAddr c (((s.upTo t).viewPredict c v (max s.now t)).viewH c v).prod) (((s.upTo t).viewPredict c v (max s.now t)).viewH c v).slotBytes = true → bit ((s.upTo t).flipRegs (pgEccC c)).1 31 = false → (if (((s.upTo t).viewPredict c v (max s.now t)).viewH c v).isOpen then (((s.upTo t).viewPredict c v (max s.now t)).viewH c v).n else 0) + 1 < (((s.upTo t).viewPredict c v (max s.now t)).viewH c v).len → ((clusterBase c + s.rd (pgArs c) 0x040 + 64 * v) + 64 ≤ clusterBase c + (((s.upTo t).viewPredict c v (max s.now t)).viewH c v).ring ∨ clusterBase c + (((s.upTo t).viewPredict c v (max s.now t)).viewH c v).ring + 64 + 2 ^ (((s.upTo t).viewPredict c v (max s.now t)).viewH c v).ringLog * (((s.upTo t).viewPredict c v (max s.now t)).viewH c v).slotBytes ≤ (clusterBase c + s.rd (pgArs c) 0x040 + 64 * v)) → p.stop = none → (((s.upTo t).viewPredict c v (max s.now t)).ptNeed c (((s.upTo t).viewPredict c v (max s.now t)).viewH c v) p).isOver = false → (((s.upTo t).viewPredict c v (max s.now t)).ptNeed c (((s.upTo t).viewPredict c v (max s.now t)).viewH c v) p).under = false → ((((s.upTo t).viewPredict c v (max s.now t)).ptNeed c (((s.upTo t).viewPredict c v (max s.now t)).viewH c v) p).u.floor + 65 ≤ (octCount (((s.upTo t).viewPredict c v (max s.now t)).ptNeed c (((s.upTo t).viewPredict c v (max s.now t)).viewH c v) p).D (s.inH c (((s.upTo t).viewPredict c v (max s.now t)).viewH c v).input).next : Int)) → firstGap (((s.upTo t).viewPredict c v (max s.now t)).taps c (((s.upTo t).viewPredict c v (max s.now t)).viewH c v).input (((s.upTo t).viewPredict c v (max s.now t)).ptNeed c (((s.upTo t).viewPredict c v (max s.now t)).viewH c v) p).D ((((s.upTo t).viewPredict c v (max s.now t)).ptNeed c (((s.upTo t).viewPredict c v (max s.now t)).viewH c v) p).u.floor - 63) 128) = some g → g < 32 →
      Completes (.outputSample c v t (⟨df, bad⟩)) s fun u => 
        (u.peek ((((s.upTo t).viewPredict c v (max s.now t)).viewH c v).slotAddr c (((s.upTo t).viewPredict c v (max s.now t)).viewH c v).prod + 64 + 4 * (if (((s.upTo t).viewPredict c v (max s.now t)).viewH c v).isOpen then (((s.upTo t).viewPredict c v (max s.now t)).viewH c v).n else 0)) 4 = 0x7FC00000 + g) ∧
        ((u.viewH c v).ngap = (if (((s.upTo t).viewPredict c v (max s.now t)).viewH c v).isOpen then (((s.upTo t).viewPredict c v (max s.now t)).viewH c v).ngap else 0) + 1) :)
    ∧ (∀ (c v t : Nat) (p : GridPt) (rest : List GridPt) (s : State), (Instr.outputSample c v t (⟨false, false⟩)).wf = true → s.calm = true → s.ready (pgArs c) = true → (s.upTo t).arsSlice c = false → ((s.viewsOf c).all fun x => (s.viewH c x).hold.isNone) = true → (s.viewH c v).on = true → (((s.upTo t).viewPredict c v (max s.now t)).viewH c v).pts = p :: rest → ((s.upTo t).viewPredict c v (max s.now t)).viewAhead c v = false → (((s.upTo t).viewPredict c v (max s.now t)).viewH c v).n < (((s.upTo t).viewPredict c v (max s.now t)).viewH c v).len → (((s.upTo t).viewPredict c v (max s.now t)).viewH c v).ring % 64 = 0 → s.usable ((((s.upTo t).viewPredict c v (max s.now t)).viewH c v).slotAddr c (((s.upTo t).viewPredict c v (max s.now t)).viewH c v).prod) (((s.upTo t).viewPredict c v (max s.now t)).viewH c v).slotBytes = true → bit ((s.upTo t).flipRegs (pgEccC c)).1 31 = false → (if (((s.upTo t).viewPredict c v (max s.now t)).viewH c v).isOpen then (((s.upTo t).viewPredict c v (max s.now t)).viewH c v).n else 0) + 1 < (((s.upTo t).viewPredict c v (max s.now t)).viewH c v).len → ((clusterBase c + s.rd (pgArs c) 0x040 + 64 * v) + 64 ≤ clusterBase c + (((s.upTo t).viewPredict c v (max s.now t)).viewH c v).ring ∨ clusterBase c + (((s.upTo t).viewPredict c v (max s.now t)).viewH c v).ring + 64 + 2 ^ (((s.upTo t).viewPredict c v (max s.now t)).viewH c v).ringLog * (((s.upTo t).viewPredict c v (max s.now t)).viewH c v).slotBytes ≤ (clusterBase c + s.rd (pgArs c) 0x040 + 64 * v)) → p.stop = none → (((s.upTo t).viewPredict c v (max s.now t)).ptNeed c (((s.upTo t).viewPredict c v (max s.now t)).viewH c v) p).isOver = false → (((s.upTo t).viewPredict c v (max s.now t)).ptNeed c (((s.upTo t).viewPredict c v (max s.now t)).viewH c v) p).under = false → ((((s.upTo t).viewPredict c v (max s.now t)).ptNeed c (((s.upTo t).viewPredict c v (max s.now t)).viewH c v) p).u.floor + 65 ≤ (octCount (((s.upTo t).viewPredict c v (max s.now t)).ptNeed c (((s.upTo t).viewPredict c v (max s.now t)).viewH c v) p).D (s.inH c (((s.upTo t).viewPredict c v (max s.now t)).viewH c v).input).next : Int)) → firstGap (((s.upTo t).viewPredict c v (max s.now t)).taps c (((s.upTo t).viewPredict c v (max s.now t)).viewH c v).input (((s.upTo t).viewPredict c v (max s.now t)).ptNeed c (((s.upTo t).viewPredict c v (max s.now t)).viewH c v) p).D ((((s.upTo t).viewPredict c v (max s.now t)).ptNeed c (((s.upTo t).viewPredict c v (max s.now t)).viewH c v) p).u.floor - 63) 128) = none →
      Completes (.outputSample c v t (⟨false, false⟩)) s fun u => 
        (u.peek ((((s.upTo t).viewPredict c v (max s.now t)).viewH c v).slotAddr c (((s.upTo t).viewPredict c v (max s.now t)).viewH c v).prod + 64 + 4 * (if (((s.upTo t).viewPredict c v (max s.now t)).viewH c v).isOpen then (((s.upTo t).viewPredict c v (max s.now t)).viewH c v).n else 0)) 4 = arsSample ((((s.upTo t).viewPredict c v (max s.now t)).ptNeed c (((s.upTo t).viewPredict c v (max s.now t)).viewH c v) p).fc * 2 ^ (((s.upTo t).viewPredict c v (max s.now t)).ptNeed c (((s.upTo t).viewPredict c v (max s.now t)).viewH c v) p).D / (fsOf (s.inH c (((s.upTo t).viewPredict c v (max s.now t)).viewH c v).input).rate : Rat) + 307 / 10000) ((((s.upTo t).viewPredict c v (max s.now t)).ptNeed c (((s.upTo t).viewPredict c v (max s.now t)).viewH c v) p).u - (((s.upTo t).viewPredict c v (max s.now t)).ptNeed c (((s.upTo t).viewPredict c v (max s.now t)).viewH c v) p).u.floor) (((s.upTo t).viewPredict c v (max s.now t)).taps c (((s.upTo t).viewPredict c v (max s.now t)).viewH c v).input (((s.upTo t).viewPredict c v (max s.now t)).ptNeed c (((s.upTo t).viewPredict c v (max s.now t)).viewH c v) p).D ((((s.upTo t).viewPredict c v (max s.now t)).ptNeed c (((s.upTo t).viewPredict c v (max s.now t)).viewH c v) p).u.floor - 63) 128) % 2 ^ 32) ∧
        ((u.viewH c v).nvalid = (if (((s.upTo t).viewPredict c v (max s.now t)).viewH c v).isOpen then (((s.upTo t).viewPredict c v (max s.now t)).viewH c v).nvalid else 0) + 1) :)
    ∧ (∀ (c v t : Nat) (df bad : Bool) (p : GridPt) (rest : List GridPt) (code : Nat) (s : State), (Instr.outputSample c v t (⟨df, bad⟩)).wf = true → s.calm = true → s.ready (pgArs c) = true → (s.upTo t).arsSlice c = false → ((s.viewsOf c).all fun x => (s.viewH c x).hold.isNone) = true → (s.viewH c v).on = true → (((s.upTo t).viewPredict c v (max s.now t)).viewH c v).pts = p :: rest → ((s.upTo t).viewPredict c v (max s.now t)).viewAhead c v = false → (((s.upTo t).viewPredict c v (max s.now t)).viewH c v).n < (((s.upTo t).viewPredict c v (max s.now t)).viewH c v).len → p.stop = some code → ((((s.upTo t).viewPredict c v (max s.now t)).ptNeed c (((s.upTo t).viewPredict c v (max s.now t)).viewH c v) p).isOver = true ∨ (((s.upTo t).viewPredict c v (max s.now t)).ptNeed c (((s.upTo t).viewPredict c v (max s.now t)).viewH c v) p).under = true ∨ ((((s.upTo t).viewPredict c v (max s.now t)).ptNeed c (((s.upTo t).viewPredict c v (max s.now t)).viewH c v) p).u.floor + 65 ≤ (octCount (((s.upTo t).viewPredict c v (max s.now t)).ptNeed c (((s.upTo t).viewPredict c v (max s.now t)).viewH c v) p).D (s.inH c (((s.upTo t).viewPredict c v (max s.now t)).viewH c v).input).next : Int))) →
      Completes (.outputSample c v t (⟨df, bad⟩)) s fun u => 
        (u.viewH c v).pts = rest ∧
        (u.viewH c v).isOpen = false ∧
        (u.viewH c v).n = 0 ∧
        (u.viewH c v).prod = ((((s.upTo t).viewPredict c v (max s.now t)).viewH c v).prod + 1) % 2 ^ 32 ∧
        (u.viewH c v).seq = ((((s.upTo t).viewPredict c v (max s.now t)).viewH c v).seq + 1) % 2 ^ 32 ∧
        (u.viewH c v).high = none ∧
        (∀ d x, 512 * d + x ≠ 512 * c + v → u.viewH d x = s.viewH d x) ∧
        (u.arsIn = s.arsIn) :)

/-- A submission whose descriptor is idle and clean is clamped, written back with STATE 1 and queued in HIGH or NORMAL, while the engine is STARTING or out of service too; one whose descriptor belongs to an unfinished job is dropped and counted; one that finds the queue full, a poisoned word, the page OFF or both engines of the pair RETIRED gets STATUS 0x05, 0x08, 0x09 or 0x07 with STATE 3. An idle engine takes the head of the queue picked, own or hosted, HIGH before NORMAL, and the turn passes; the job loads its input and runs, or ends REJECTED where its view is off. A job whose stages stay within the threshold leaves the engine, counts in TFE_JOBS of its cluster, takes the next serial and writes STATUS 1 and, without averaging, its entries; a rerun counts a RETRY_PASS, the third within 10 ms faults the engine; a job whose input was overrun ends OVERRUN. A first check failure is counted and reruns the job, a second faults the engine with the job back at the head of its queue, its cycles kept. A hosted job whose cluster is not READY waits and is counted once there. Other engines are unchanged and no byte outside the descriptor is written by a submission. -/
def Obligations.TfeJobs : Prop :=
    (∀ (w : Writer) (c desc t : Nat) (s : State), (Instr.tfeSubmit w c desc t).wf = true → s.calm = true → s.powered (pgTfe c) = true → (s.pageH (pgTfe c)).resetting = false → s.mayWrite w (pgTfe c) .tfe = true → (s.ready (pgTfe c) || s.busy (pgTfe c) || s.faulted (pgTfe c) || s.retired (pgTfe c)) = true → (s.retired (pgTfe c) && s.retired (pgTfe (partner c))) = false → (((s.tfeH c).hiQ ++ (s.tfeH c).noQ).all fun x => decide (x.rank ≤ 1000)) = true → ¬((s.rdMem ((clusterBase c + desc * 64) + 63) 1).1.1 = 1 ∨ (s.rdMem ((clusterBase c + desc * 64) + 63) 1).1.1 = 2) → (s.rdMem (clusterBase c + desc * 64) 48).1.2 = false → (if jHigh (jobClamp (toWords 12 (s.rdMem (clusterBase c + desc * 64) 48).1.1)) then (s.tfeH c).hiQ else (s.tfeH c).noQ).length < 64 →
      Completes (.tfeSubmit w c desc t) s fun u => 
        ((u.tfeH c).hiQ.map (fun x => (x.desc, x.words)) = (s.tfeH c).hiQ.map (fun x => (x.desc, x.words)) ++ (if jHigh (jobClamp (toWords 12 (s.rdMem (clusterBase c + desc * 64) 48).1.1)) then [(desc * 64, (jobClamp (toWords 12 (s.rdMem (clusterBase c + desc * 64) 48).1.1)))] else [])) ∧
        ((u.tfeH c).noQ.map (fun x => (x.desc, x.words)) = (s.tfeH c).noQ.map (fun x => (x.desc, x.words)) ++ (if jHigh (jobClamp (toWords 12 (s.rdMem (clusterBase c + desc * 64) 48).1.1)) then [] else [(desc * 64, (jobClamp (toWords 12 (s.rdMem (clusterBase c + desc * 64) 48).1.1)))])) ∧
        (s.usable (clusterBase c + desc * 64) 64 = true → bit ((s.upTo t).flipRegs (pgEccC c)).1 31 = false → u.peek ((clusterBase c + desc * 64) + 63) 1 = 1 ∧ u.peek (clusterBase c + desc * 64) 48 = ofWords (jobClamp (toWords 12 (s.rdMem (clusterBase c + desc * 64) 48).1.1)) % 2 ^ 384) ∧
        (u.fld (pgTfe c) 0x018 31 16 = min 0xFFFF (s.fld (pgTfe c) 0x018 31 16 + (if (jobClamp (toWords 12 (s.rdMem (clusterBase c + desc * 64) 48).1.1)) = jobMask (toWords 12 (s.rdMem (clusterBase c + desc * 64) 48).1.1) then 0 else 1))) ∧
        (u.tfeH c).run = (s.tfeH c).run ∧
        (∀ d, d ≠ c → u.tfeH d = s.tfeH d) ∧
        (∀ a, ¬((clusterBase c + desc * 64) ≤ a ∧ a < (clusterBase c + desc * 64) + 64) → u.byte a = s.byte a) :)
    ∧ (∀ (w : Writer) (c desc t : Nat) (s : State), (Instr.tfeSubmit w c desc t).wf = true → s.calm = true → s.powered (pgTfe c) = true → (s.pageH (pgTfe c)).resetting = false → s.mayWrite w (pgTfe c) .tfe = true → s.usable (clusterBase c + desc * 64) 64 = true → ((s.rdMem ((clusterBase c + desc * 64) + 63) 1).1.1 = 1 ∨ (s.rdMem ((clusterBase c + desc * 64) + 63) 1).1.1 = 2) →
      Completes (.tfeSubmit w c desc t) s fun u => 
        u.fld (pgTfe c) 0x06C 23 16 = min 0xFF (s.fld (pgTfe c) 0x06C 23 16 + 1) ∧
        u.getB (pgTfe c) 0x010 19 = true ∧
        u.now = max s.now t ∧
        RegsOnly [(pgTfe c), pgEccC c] s u ∧
        { u with regs := s.regs, now := s.now, hot := s.hot, banks := s.banks } = s :)
    ∧ (∀ (w : Writer) (c desc t : Nat) (s : State), (Instr.tfeSubmit w c desc t).wf = true → s.calm = true → s.powered (pgTfe c) = true → (s.pageH (pgTfe c)).resetting = false → s.mayWrite w (pgTfe c) .tfe = true → s.usable (clusterBase c + desc * 64) 64 = true → bit ((s.upTo t).flipRegs (pgEccC c)).1 31 = false → ¬((s.rdMem ((clusterBase c + desc * 64) + 63) 1).1.1 = 1 ∨ (s.rdMem ((clusterBase c + desc * 64) + 63) 1).1.1 = 2) → (s.ready (pgTfe c) || s.busy (pgTfe c) || s.faulted (pgTfe c) || s.retired (pgTfe c)) = true → (s.retired (pgTfe c) && s.retired (pgTfe (partner c))) = false → (s.rdMem (clusterBase c + desc * 64) 48).1.2 = false → 64 ≤ (if jHigh (jobClamp (toWords 12 (s.rdMem (clusterBase c + desc * 64) 48).1.1)) then (s.tfeH c).hiQ else (s.tfeH c).noQ).length →
      Completes (.tfeSubmit w c desc t) s fun u => 
        u.peek ((clusterBase c + desc * 64) + 62) 2 = 0x05 + 3 * 256 ∧
        u.fld (pgTfe c) 0x06C 31 24 = min 0xFF (s.fld (pgTfe c) 0x06C 31 24 + 1) ∧
        u.getB (pgTfe c) 0x010 19 = true ∧
        (∀ a, ¬((clusterBase c + desc * 64) ≤ a ∧ a < (clusterBase c + desc * 64) + 64) → u.byte a = s.byte a) ∧
        u.now = max s.now t ∧
        RegsOnly [(pgTfe c), pgEccC c] s u ∧
        { u with regs := s.regs, now := s.now, hot := s.hot, mem := s.mem, chk := s.chk, pois := s.pois, tags := s.tags, banks := s.banks } = s :)
    ∧ (∀ (w : Writer) (c desc t : Nat) (s : State), (Instr.tfeSubmit w c desc t).wf = true → s.calm = true → s.powered (pgTfe c) = true → (s.pageH (pgTfe c)).resetting = false → s.mayWrite w (pgTfe c) .tfe = true → s.usable (clusterBase c + desc * 64) 64 = true → bit ((s.upTo t).flipRegs (pgEccC c)).1 31 = false → ¬((s.rdMem ((clusterBase c + desc * 64) + 63) 1).1.1 = 1 ∨ (s.rdMem ((clusterBase c + desc * 64) + 63) 1).1.1 = 2) → (s.rdMem (clusterBase c + desc * 64) 48).1.2 = true →
      Completes (.tfeSubmit w c desc t) s fun u => 
        u.peek ((clusterBase c + desc * 64) + 62) 2 = 0x08 + 3 * 256 ∧
        u.fld (pgTfe c) 0x01C 7 0 = min 0xFF (s.fld (pgTfe c) 0x01C 7 0 + 1) ∧
        (∀ a, ¬((clusterBase c + desc * 64) ≤ a ∧ a < (clusterBase c + desc * 64) + 64) → u.byte a = s.byte a) ∧
        u.now = max s.now t ∧
        RegsOnly [(pgTfe c), pgEccC c] s u ∧
        { u with regs := s.regs, now := s.now, hot := s.hot, mem := s.mem, chk := s.chk, pois := s.pois, tags := s.tags, banks := s.banks } = s :)
    ∧ (∀ (w : Writer) (c desc t : Nat) (s : State), (Instr.tfeSubmit w c desc t).wf = true → s.calm = true → s.powered (pgTfe c) = true → (s.pageH (pgTfe c)).resetting = false → s.mayWrite w (pgTfe c) .tfe = true → s.usable (clusterBase c + desc * 64) 64 = true → bit ((s.upTo t).flipRegs (pgEccC c)).1 31 = false → ¬((s.rdMem ((clusterBase c + desc * 64) + 63) 1).1.1 = 1 ∨ (s.rdMem ((clusterBase c + desc * 64) + 63) 1).1.1 = 2) → s.ready (pgTfe c) = false → s.busy (pgTfe c) = false → s.faulted (pgTfe c) = false → s.retired (pgTfe c) = false → (s.rdMem (clusterBase c + desc * 64) 48).1.2 = false →
      Completes (.tfeSubmit w c desc t) s fun u => 
        u.peek ((clusterBase c + desc * 64) + 62) 2 = 0x09 + 3 * 256 ∧
        (∀ a, ¬((clusterBase c + desc * 64) ≤ a ∧ a < (clusterBase c + desc * 64) + 64) → u.byte a = s.byte a) ∧
        u.now = max s.now t ∧
        RegsOnly [(pgTfe c), pgEccC c] s u ∧
        { u with regs := s.regs, now := s.now, hot := s.hot, mem := s.mem, chk := s.chk, pois := s.pois, tags := s.tags, banks := s.banks } = s :)
    ∧ (∀ (w : Writer) (c desc t : Nat) (s : State), (Instr.tfeSubmit w c desc t).wf = true → s.calm = true → s.powered (pgTfe c) = true → (s.pageH (pgTfe c)).resetting = false → s.mayWrite w (pgTfe c) .tfe = true → s.usable (clusterBase c + desc * 64) 64 = true → bit ((s.upTo t).flipRegs (pgEccC c)).1 31 = false → ¬((s.rdMem ((clusterBase c + desc * 64) + 63) 1).1.1 = 1 ∨ (s.rdMem ((clusterBase c + desc * 64) + 63) 1).1.1 = 2) → s.retired (pgTfe c) = true → s.retired (pgTfe (partner c)) = true → (s.rdMem (clusterBase c + desc * 64) 48).1.2 = false →
      Completes (.tfeSubmit w c desc t) s fun u => 
        u.peek ((clusterBase c + desc * 64) + 62) 2 = 0x07 + 3 * 256 ∧
        (∀ a, ¬((clusterBase c + desc * 64) ≤ a ∧ a < (clusterBase c + desc * 64) + 64) → u.byte a = s.byte a) ∧
        u.now = max s.now t ∧
        RegsOnly [(pgTfe c), pgEccC c] s u ∧
        { u with regs := s.regs, now := s.now, hot := s.hot, mem := s.mem, chk := s.chk, pois := s.pois, tags := s.tags, banks := s.banks } = s :)
    ∧ (∀ (c t : Nat) (j : TfeJob) (rest : List TfeJob) (hosted hi : Bool) (s : State), (Instr.jobStart c t).wf = true → s.calm = true → s.ready (pgTfe c) = true → s.estate c = 1 → (match (s.tfeH c).sending with | some key => (s.queue key).isEmpty || (s.entryOf key).isNone | none => true) = true → ((s.bistH (pgBistC c)).held.any fun x => x.unit == 8 && decide (x.t + 30000000 ≤ t)) = false → s.tfePick c = some (hosted, hi) → (if hi then (s.tfeH (if hosted then partner c else c)).hiQ else (s.tfeH (if hosted then partner c else c)).noQ) = j :: rest →
      Completes (.jobStart c t) s fun u => 
        ((u.tfeH (if hosted then partner c else c)).hiQ = (if hi then rest else (s.tfeH (if hosted then partner c else c)).hiQ)) ∧
        ((u.tfeH (if hosted then partner c else c)).noQ = (if hi then (s.tfeH (if hosted then partner c else c)).noQ else rest)) ∧
        ((u.tfeH c).turn = (if hi then (!hosted, (s.tfeH c).turn.2) else ((s.tfeH c).turn.1, !hosted))) ∧
        ((u.tfeH c).run = none ∨ (u.tfeH c).run.map (fun x => (x.job, x.hosted, x.hi, x.retry)) = some (j, hosted, hi, false)) ∧
        (jOp j.words = 0 → (u.tfeH c).run.map (fun x => (x.job, x.hosted, x.hi, x.retry)) = some (j, hosted, hi, false) ∧ u.estate c = 2) ∧
        (∀ d, d ≠ c → d ≠ partner c → u.tfeH d = s.tfeH d) :)
    ∧ (∀ (c t : Nat) (j : TfeJob) (rest : List TfeJob) (hosted hi : Bool) (s : State), (Instr.jobStart c t).wf = true → s.calm = true → s.ready (pgTfe c) = true → s.estate c = 1 → (match (s.tfeH c).sending with | some key => (s.queue key).isEmpty || (s.entryOf key).isNone | none => true) = true → ((s.bistH (pgBistC c)).held.any fun x => x.unit == 8 && decide (x.t + 30000000 ≤ t)) = false → s.tfePick c = some (hosted, hi) → (if hi then (s.tfeH (if hosted then partner c else c)).hiQ else (s.tfeH (if hosted then partner c else c)).noQ) = j :: rest → jOp j.words = 0 → s.ready (pgTfe (partner c)) = false → hosted = true →
      Completes (.jobStart c t) s fun u => 
        ((u.tfeH (if hosted then partner c else c)).hiQ = (if hi then rest else (s.tfeH (if hosted then partner c else c)).hiQ)) ∧
        ((u.tfeH (if hosted then partner c else c)).noQ = (if hi then (s.tfeH (if hosted then partner c else c)).noQ else rest)) ∧
        ((u.tfeH c).turn = (if hi then (!hosted, (s.tfeH c).turn.2) else ((s.tfeH c).turn.1, !hosted))) ∧
        ((u.tfeH c).run.map (fun x => (x.job, x.hosted, x.hi, x.retry)) = some (j, hosted, hi, false)) ∧
        u.estate c = 2 ∧
        (∀ d, d ≠ c → d ≠ partner c → u.tfeH d = s.tfeH d) :)
    ∧ (∀ (c t : Nat) (j : TfeJob) (rest : List TfeJob) (hosted hi : Bool) (s : State), (Instr.jobStart c t).wf = true → s.calm = true → s.ready (pgTfe c) = true → s.estate c = 1 → (match (s.tfeH c).sending with | some key => (s.queue key).isEmpty || (s.entryOf key).isNone | none => true) = true → ((s.bistH (pgBistC c)).held.any fun x => x.unit == 8 && decide (x.t + 30000000 ≤ t)) = false → s.tfePick c = some (hosted, hi) → (if hi then (s.tfeH (if hosted then partner c else c)).hiQ else (s.tfeH (if hosted then partner c else c)).noQ) = j :: rest → hosted = false → jOp j.words = 1 → jReal j.words = true → jView j.words 1 = false → jWin j.words ≠ 6 → jAvg j.words ≠ 4 → ((s.readWords (clusterBase c + jArg j.words 1) (2 ^ jLogN j.words)).1.all fun x => fIsFinite x.1 && !x.2) = true → (clusterBase c + j.desc + 64 ≤ (clusterBase c + jArg j.words 1) ∨ (clusterBase c + jArg j.words 1) + 4 * 2 ^ jLogN j.words ≤ clusterBase c + j.desc) → j.desc % 64 = 0 → (clusterBase c + jArg j.words 1) % 64 = 0 →
      Completes (.jobStart c t) s fun u => 
        ((u.tfeH (if hosted then partner c else c)).hiQ = (if hi then rest else (s.tfeH (if hosted then partner c else c)).hiQ)) ∧
        ((u.tfeH (if hosted then partner c else c)).noQ = (if hi then (s.tfeH (if hosted then partner c else c)).noQ else rest)) ∧
        ((u.tfeH c).turn = (if hi then (!hosted, (s.tfeH c).turn.2) else ((s.tfeH c).turn.1, !hosted))) ∧
        ((u.tfeH c).run.map (fun x => (x.job, x.hosted, x.hi, x.retry)) = some (j, hosted, hi, false)) ∧
        ((u.tfeH c).run.map (fun x => (x.a, x.b, x.pois, x.ngap)) = some ((s.readWords (clusterBase c + jArg j.words 1) (2 ^ jLogN j.words)).1.map (·.1), [], false, 0)) ∧
        u.estate c = 2 ∧
        (∀ d, d ≠ c → u.tfeH d = s.tfeH d) :)
    ∧ (∀ (c t : Nat) (j : TfeJob) (rest : List TfeJob) (hosted hi : Bool) (s : State), (Instr.jobStart c t).wf = true → s.calm = true → s.ready (pgTfe c) = true → s.estate c = 1 → (match (s.tfeH c).sending with | some key => (s.queue key).isEmpty || (s.entryOf key).isNone | none => true) = true → ((s.bistH (pgBistC c)).held.any fun x => x.unit == 8 && decide (x.t + 30000000 ≤ t)) = false → s.tfePick c = some (hosted, hi) → (if hi then (s.tfeH (if hosted then partner c else c)).hiQ else (s.tfeH (if hosted then partner c else c)).noQ) = j :: rest → hosted = false → jOp j.words = 1 → jView j.words 1 = true → (s.viewH c (jArg j.words 1 % 512)).on = false → jWin j.words ≠ 6 → jDone j.words = 0 → s.usable (clusterBase c + j.desc) 64 = true → bit ((s.upTo t).flipRegs (pgEccC c)).1 31 = false → j.desc % 64 = 0 →
      Completes (.jobStart c t) s fun u => 
        ((u.tfeH (if hosted then partner c else c)).hiQ = (if hi then rest else (s.tfeH (if hosted then partner c else c)).hiQ)) ∧
        ((u.tfeH (if hosted then partner c else c)).noQ = (if hi then (s.tfeH (if hosted then partner c else c)).noQ else rest)) ∧
        ((u.tfeH c).turn = (if hi then (!hosted, (s.tfeH c).turn.2) else ((s.tfeH c).turn.1, !hosted))) ∧
        (u.tfeH c).run = none ∧
        u.estate c = s.tfeIdleState c ∧
        u.peek (clusterBase c + j.desc + 62) 2 = 2 + 3 * 256 ∧
        (∀ d, d ≠ c → d ≠ partner c → u.tfeH d = s.tfeH d) :)
    ∧ (∀ (c t : Nat) (r : TfeRun) (s : State), (Instr.stagesPass c t).wf = true → s.calm = true → s.ready (pgTfe c) = true → (s.tfeH c).run = some r → s.hostStalled (if r.hosted then partner c else c) r = false → r.overran = false → (r.retry = false ∨ ((s.tfeH c).passes.filter fun d => decide (t < d + 30000000)).length < 2) → ((if jOp r.job.words = 0 then [] else (jobOut r.job.words r.a r.b r.uw).checks).find? fun q => !q.2.passes (s.chkShift c)) = none →
      Completes (.stagesPass c t) s fun u => 
        (u.tfeH c).run = none ∧
        (u.tfeH c).serial = ((s.tfeH c).serial + 1) % 2 ^ 32 ∧
        (u.rd64 (pgTfe (if r.hosted then partner c else c)) 0x058 = satAdd (2 ^ 64 - 1) (s.rd64 (pgTfe (if r.hosted then partner c else c)) 0x058) 1) ∧
        (u.tfeH c).hiQ = (s.tfeH c).hiQ ∧
        (u.tfeH c).noQ = (s.tfeH c).noQ ∧
        u.estate c = s.tfeIdleState c ∧
        (u.fld (pgTfe c) 0x060 15 0 = min 0xFFFF (s.fld (pgTfe c) 0x060 15 0 + (if r.retry then 1 else 0))) ∧
        u.fld (pgTfe c) 0x060 31 16 = s.fld (pgTfe c) 0x060 31 16 ∧
        u.fld (pgTfe c) 0x008 3 0 = s.fld (pgTfe c) 0x008 3 0 ∧
        (∀ d, d ≠ c → d ≠ partner c → u.tfeH d = s.tfeH d) :)
    ∧ (∀ (c t : Nat) (r : TfeRun) (s : State), (Instr.stagesPass c t).wf = true → s.calm = true → s.ready (pgTfe c) = true → (s.tfeH c).run = some r → r.hosted = false → r.overran = false → r.retry = false → jOp r.job.words ≠ 0 → jOp r.job.words ≠ 6 → jAvg r.job.words = 0 → jDone r.job.words = 0 → bit (r.job.words.getD 4 0) 25 = false → r.pois = false → r.pidx = [] → ((if jOp r.job.words = 0 then [] else (jobOut r.job.words r.a r.b r.uw).checks).find? fun q => !q.2.passes (s.chkShift c)) = none → s.usable (clusterBase c + jDst r.job.words) (64 + outLen (jOp r.job.words) (jLogN r.job.words) (jMlog r.job.words) (jReal r.job.words) (jFmt r.job.words) * entrySize (jFmt r.job.words)) = true → s.usable (clusterBase c + r.job.desc) 64 = true → bit ((s.upTo t).flipRegs (pgEccC c)).1 31 = false → jDst r.job.words % 64 = 0 → r.job.desc % 64 = 0 → ((clusterBase c + r.job.desc) + 64 ≤ (clusterBase c + jDst r.job.words) ∨ (clusterBase c + jDst r.job.words) + 64 + outLen (jOp r.job.words) (jLogN r.job.words) (jMlog r.job.words) (jReal r.job.words) (jFmt r.job.words) * entrySize (jFmt r.job.words) ≤ (clusterBase c + r.job.desc)) →
      Completes (.stagesPass c t) s fun u => 
        (∀ k, k < outLen (jOp r.job.words) (jLogN r.job.words) (jMlog r.job.words) (jReal r.job.words) (jFmt r.job.words) → u.peek ((clusterBase c + jDst r.job.words) + 64 + entrySize (jFmt r.job.words) * k) (entrySize (jFmt r.job.words)) = (jobOut r.job.words r.a r.b r.uw).entries.getD k 0 % 256 ^ entrySize (jFmt r.job.words)) ∧
        u.peek ((clusterBase c + jDst r.job.words) + 28) 4 = (jobOut r.job.words r.a r.b r.uw).energy % 2 ^ 32 ∧
        u.peek ((clusterBase c + jDst r.job.words) + 40) 4 = outLen (jOp r.job.words) (jLogN r.job.words) (jMlog r.job.words) (jReal r.job.words) (jFmt r.job.words) ∧
        u.peek ((clusterBase c + r.job.desc) + 62) 2 = 1 + 3 * 256 ∧
        u.peek ((clusterBase c + r.job.desc) + 56) 4 = ((s.tfeH c).serial + 1) % 2 ^ 32 ∧
        (∀ a, ¬((clusterBase c + jDst r.job.words) ≤ a ∧ a < (clusterBase c + jDst r.job.words) + 64 + outLen (jOp r.job.words) (jLogN r.job.words) (jMlog r.job.words) (jReal r.job.words) (jFmt r.job.words) * entrySize (jFmt r.job.words)) → ¬((clusterBase c + r.job.desc) ≤ a ∧ a < (clusterBase c + r.job.desc) + 64) → u.byte a = s.byte a) :)
    ∧ (∀ (c t : Nat) (r : TfeRun) (s : State), (Instr.stagesPass c t).wf = true → s.calm = true → s.ready (pgTfe c) = true → (s.tfeH c).run = some r → s.hostStalled (if r.hosted then partner c else c) r = false → r.overran = true →
      Completes (.stagesPass c t) s fun u => 
        (u.tfeH c).run = none ∧
        (u.fld (pgTfe (if r.hosted then partner c else c)) 0x06C 15 8 = min 0xFF (s.fld (pgTfe (if r.hosted then partner c else c)) 0x06C 15 8 + 1)) ∧
        (u.tfeH c).serial = (s.tfeH c).serial ∧
        u.estate c = s.tfeIdleState c ∧
        (jDone r.job.words = 0 → s.usable (clusterBase (if r.hosted then partner c else c) + r.job.desc) 64 = true → bit ((s.upTo t).flipRegs (pgEccC (if r.hosted then partner c else c))).1 31 = false → r.job.desc % 64 = 0 → u.peek (clusterBase (if r.hosted then partner c else c) + r.job.desc + 62) 2 = 3 + 3 * 256) ∧
        (∀ d, d ≠ c → d ≠ partner c → u.tfeH d = s.tfeH d) :)
    ∧ (∀ (c t : Nat) (r : TfeRun) (s : State), (Instr.stagesPass c t).wf = true → s.calm = true → s.ready (pgTfe c) = true → (s.tfeH c).run = some r → s.hostStalled (if r.hosted then partner c else c) r = false → r.overran = false → r.retry = true → 2 ≤ ((s.tfeH c).passes.filter fun d => decide (t < d + 30000000)).length → ((if jOp r.job.words = 0 then [] else (jobOut r.job.words r.a r.b r.uw).checks).find? fun q => !q.2.passes (s.chkShift c)) = none → s.retired (pgTfe c) = false → s.faulted (pgTfe c) = false → (s.pageH (pgTfe c)).resetting = false →
      Completes (.stagesPass c t) s fun u => 
        (u.tfeH c).run = none ∧
        (u.tfeH c).serial = ((s.tfeH c).serial + 1) % 2 ^ 32 ∧
        u.fld (pgTfe c) 0x060 15 0 = min 0xFFFF (s.fld (pgTfe c) 0x060 15 0 + 1) ∧
        u.fld (pgTfe c) 0x008 3 0 = 4 ∧
        u.fld (pgTfe c) 0x008 15 8 = 1 ∧
        u.estate c = 5 ∧
        (∀ d, d ≠ c → d ≠ partner c → u.tfeH d = s.tfeH d) :)
    ∧ (∀ (c t : Nat) (r : TfeRun) (s : State), (Instr.stagesPass c t).wf = true → s.calm = true → s.ready (pgTfe c) = true → (s.tfeH c).run = some r → r.hosted = true → s.ready (pgClu (partner c)) = false →
      Completes (.stagesPass c t) s fun u => 
        (u.tfeH c).run = some { r with job := { r.job with held := true } } ∧
        (u.fld (pgClu (partner c)) 0x048 31 16 = min 0xFFFF (s.fld (pgClu (partner c)) 0x048 31 16 + (if r.job.held then 0 else 1))) ∧
        (∀ d, d ≠ c → u.tfeH d = s.tfeH d) ∧
        u.now = max s.now t ∧
        RegsOnly [pgClu (partner c)] s u ∧
        { u with regs := s.regs, now := s.now, hot := s.hot, tfe := s.tfe } = s :)
    ∧ (∀ (c stage t : Nat) (r : TfeRun) (s : State), (Instr.stageFails c stage t).wf = true → s.calm = true → s.ready (pgTfe c) = true → (s.tfeH c).run = some r → r.retry = false → jOp r.job.words = 0 → s.hostStalled (if r.hosted then partner c else c) r = false → r.job.desc < 2 ^ 28 →
      Completes (.stageFails c stage t) s fun u => 
        ((u.tfeH c).run.map (fun x => (x.job, x.retry)) = some (r.job, true)) ∧
        u.fld (pgTfe c) 0x060 31 16 = min 0xFFFF (s.fld (pgTfe c) 0x060 31 16 + 1) ∧
        u.fld (pgTfe c) 0x068 31 28 = stage % 16 ∧
        u.fld (pgTfe c) 0x068 27 0 = r.job.desc ∧
        u.getB (pgTfe c) 0x010 16 = true ∧
        u.estate c = 3 ∧
        (∀ d, d ≠ c → u.tfeH d = s.tfeH d) ∧
        (u.mem = s.mem) :)
    ∧ (∀ (c stage t : Nat) (r : TfeRun) (s : State), (Instr.stageFails c stage t).wf = true → s.calm = true → s.ready (pgTfe c) = true → (s.tfeH c).run = some r → r.retry = false → s.hostStalled (if r.hosted then partner c else c) r = false → r.job.desc < 2 ^ 28 →
      Completes (.stageFails c stage t) s fun u => 
        ((u.tfeH c).run = none ∨ (u.tfeH c).run.map (fun x => (x.job, x.retry, x.t0)) = some (r.job, true, r.t0)) ∧
        u.fld (pgTfe c) 0x060 31 16 = min 0xFFFF (s.fld (pgTfe c) 0x060 31 16 + 1) ∧
        u.fld (pgTfe c) 0x068 31 28 = stage % 16 ∧
        u.fld (pgTfe c) 0x068 27 0 = r.job.desc ∧
        u.getB (pgTfe c) 0x010 16 = true ∧
        ((u.tfeH c).run.isSome = true → u.estate c = 3) ∧
        (∀ d, d ≠ c → d ≠ partner c → u.tfeH d = s.tfeH d) :)
    ∧ (∀ (c stage t : Nat) (r : TfeRun) (s : State), (Instr.stageFails c stage t).wf = true → s.calm = true → s.ready (pgTfe c) = true → (s.tfeH c).run = some r → r.retry = true → s.hostStalled (if r.hosted then partner c else c) r = false → s.retired (pgTfe c) = false → s.faulted (pgTfe c) = false → (s.pageH (pgTfe c)).resetting = false → r.job.desc < 2 ^ 28 →
      Completes (.stageFails c stage t) s fun u => 
        (u.tfeH c).run = none ∧
        ((if r.hi then (u.tfeH (if r.hosted then partner c else c)).hiQ else (u.tfeH (if r.hosted then partner c else c)).noQ) = { r.job with spent := r.job.spent + (max s.now t - r.t0), reran := true, twice := true, owed := false } :: (if r.hi then (s.tfeH (if r.hosted then partner c else c)).hiQ else (s.tfeH (if r.hosted then partner c else c)).noQ)) ∧
        u.fld (pgTfe c) 0x008 3 0 = 4 ∧
        u.fld (pgTfe c) 0x008 15 8 = 1 ∧
        u.estate c = 5 ∧
        u.fld (pgTfe c) 0x074 31 16 = min 0xFFFF (s.fld (pgTfe c) 0x074 31 16 + 1) ∧
        u.getB (pgTfe c) 0x010 17 = true ∧
        u.fld (pgTfe c) 0x060 31 16 = min 0xFFFF (s.fld (pgTfe c) 0x060 31 16 + 1) ∧
        u.fld (pgTfe c) 0x068 31 28 = stage % 16 ∧
        u.fld (pgTfe c) 0x068 27 0 = r.job.desc ∧
        u.getB (pgTfe c) 0x010 16 = true ∧
        (∀ d, d ≠ c → d ≠ partner c → u.tfeH d = s.tfeH d) :)
    ∧ (∀ (c stage t : Nat) (r : TfeRun) (s : State), (Instr.stageFails c stage t).wf = true → s.calm = true → s.ready (pgTfe c) = true → (s.tfeH c).run = some r → r.hosted = true → s.ready (pgClu (partner c)) = false →
      Completes (.stageFails c stage t) s fun u => 
        (u.tfeH c).run = some { r with job := { r.job with held := true } } ∧
        (u.fld (pgClu (partner c)) 0x048 31 16 = min 0xFFFF (s.fld (pgClu (partner c)) 0x048 31 16 + (if r.job.held then 0 else 1))) ∧
        (∀ d, d ≠ c → u.tfeH d = s.tfeH d) ∧
        u.now = max s.now t ∧
        RegsOnly [pgClu (partner c)] s u ∧
        { u with regs := s.regs, now := s.now, hot := s.hot, tfe := s.tfe } = s :)

/-- SLOT_ON, of an enabled slot after what SLOT_OFF does, reads the descriptor: an uncorrectable one enables nothing; else its words are clamped and written back; a BL_EN slot whose baseline another enabled slot uses is refused with RESULT 2; any other is enabled at level INVALID with value 0x20 and sets its INVALID and enable map bits, RESULT 1 if a field was clamped and 0 if none. SLOT_OFF clears the slot and its map bits and takes it out of the trigger in service, and does nothing to an OFF slot. BL_CLEAR writes zero to the 64 bins of the baseline that the slot names, on or off. Each shows RESULT, OP and INDEX and raises bit 16; while a self-test slice holds the engine it waits, BUSY shown; a write while BUSY is counted and has no effect. FRD_TRIGGER of group 0 does nothing; in FAULT it is counted and raises bit 18; else it is queued in the place its arrival gives it, also while STARTING, and an idle engine takes it at once, with the slots enabled then, unless a slice holds it; a full queue drops and counts it. TRIGGER_SERVICE evaluates each slot of the trigger in service once and no other; its end takes the next oldest trigger, unless a third difference has put the page in FAULT, which empties the queue; slots of a trigger that was overrun go INVALID, and OVERRUN is counted; with no trigger or in a slice it does nothing. -/
def Obligations.SlotCommands : Prop :=
    (∀ (w : Writer) (c i t : Nat) (s : State), (Instr.slotOn w c i t).wf = true → s.calm = true → s.ready (pgFrd c) = true → s.mayWrite w (pgFrd c) .frd = true → (s.upTo t).frdSlice c = false → s.getB (pgFrd c) 0x04C 31 = false → (s.slotH c i).on = false → (s.rdMem (clusterBase c + s.rd (pgFrd c) 0x040 + 64 * i) 48).1.2 = false → (bit ((slotClamp (toWords 12 (s.rdMem (clusterBase c + s.rd (pgFrd c) 0x040 + 64 * i) 48).1.1)).getD 0 0) 2 = false ∨ ¬((s.slots.any fun q => decide (q.1 / 4096 = c) && q.2.on && q.2.blEn && decide (q.1 ≠ 4096 * c + i) && q.2.bli == bits ((slotClamp (toWords 12 (s.rdMem (clusterBase c + s.rd (pgFrd c) 0x040 + 64 * i) 48).1.1)).getD 1 0) 25 16) = true)) →
      Completes (.slotOn w c i t) s fun u => 
        u.fld (pgFrd c) 0x04C 27 24 = 1 ∧
        u.fld (pgFrd c) 0x04C 11 0 = i ∧
        u.getB (pgFrd c) 0x010 16 = true ∧
        u.slotH c i = { on := true, words := (slotClamp (toWords 12 (s.rdMem (clusterBase c + s.rd (pgFrd c) 0x040 + 64 * i) 48).1.1)), value := 0x7FC00020 } ∧
        u.fld (pgFrd c) 0x04C 31 28 ≤ 1 ∧
        ((slotClamp (toWords 12 (s.rdMem (clusterBase c + s.rd (pgFrd c) 0x040 + 64 * i) 48).1.1)) = (toWords 12 (s.rdMem (clusterBase c + s.rd (pgFrd c) 0x040 + 64 * i) 48).1.1) → u.fld (pgFrd c) 0x04C 31 28 = 0 ∧ u.rd (pgFrd c) 0x018 = s.rd (pgFrd c) 0x018) ∧
        (u.fld (pgFrd c) 0x04C 31 28 = 1 → u.fld (pgFrd c) 0x018 31 16 = min 0xFFFF (s.fld (pgFrd c) 0x018 31 16 + 1) ∧ u.fld (pgFrd c) 0x018 11 0 = 0x048) ∧
        u.getB (pgFrd c) (0x600 + (4 * (i / 32))) (i % 32) = true ∧
        u.getB (pgFrd c) (0xA00 + (4 * (i / 32))) (i % 32) = true ∧
        (([0x200, 0x400].all (fun o => !u.getB (pgFrd c) (o + (4 * (i / 32))) (i % 32))) = true) ∧
        (∀ d x, 4096 * d + x ≠ 4096 * c + i → u.slotH d x = s.slotH d x) ∧
        (∀ a, ¬((clusterBase c + s.rd (pgFrd c) 0x040 + 64 * i) ≤ a ∧ a < (clusterBase c + s.rd (pgFrd c) 0x040 + 64 * i) + 64) → u.byte a = s.byte a) :)
    ∧ (∀ (w : Writer) (c i t : Nat) (s : State), (Instr.slotOn w c i t).wf = true → s.calm = true → s.ready (pgFrd c) = true → s.mayWrite w (pgFrd c) .frd = true → (s.upTo t).frdSlice c = false → s.getB (pgFrd c) 0x04C 31 = false → (s.slotH c i).on = false → (s.rdMem (clusterBase c + s.rd (pgFrd c) 0x040 + 64 * i) 48).1.2 = false → bit ((slotClamp (toWords 12 (s.rdMem (clusterBase c + s.rd (pgFrd c) 0x040 + 64 * i) 48).1.1)).getD 0 0) 2 = true → ((s.slots.any fun q => decide (q.1 / 4096 = c) && q.2.on && q.2.blEn && decide (q.1 ≠ 4096 * c + i) && q.2.bli == bits ((slotClamp (toWords 12 (s.rdMem (clusterBase c + s.rd (pgFrd c) 0x040 + 64 * i) 48).1.1)).getD 1 0) 25 16) = true) →
      Completes (.slotOn w c i t) s fun u => 
        u.fld (pgFrd c) 0x04C 31 28 = 2 ∧
        u.fld (pgFrd c) 0x04C 27 24 = 1 ∧
        u.fld (pgFrd c) 0x04C 11 0 = i ∧
        u.getB (pgFrd c) 0x010 16 = true ∧
        (u.slots = s.slots) ∧
        u.getB (pgFrd c) (0xA00 + (4 * (i / 32))) (i % 32) = s.getB (pgFrd c) (0xA00 + (4 * (i / 32))) (i % 32) ∧
        (∀ a, ¬((clusterBase c + s.rd (pgFrd c) 0x040 + 64 * i) ≤ a ∧ a < (clusterBase c + s.rd (pgFrd c) 0x040 + 64 * i) + 48) → u.byte a = s.byte a) :)
    ∧ (∀ (w : Writer) (c i t : Nat) (s : State), (Instr.slotOn w c i t).wf = true → s.calm = true → s.ready (pgFrd c) = true → s.mayWrite w (pgFrd c) .frd = true → (s.upTo t).frdSlice c = false → s.getB (pgFrd c) 0x04C 31 = false → (s.slotH c i).on = false → (s.rdMem (clusterBase c + s.rd (pgFrd c) 0x040 + 64 * i) 48).1.2 = true →
      Completes (.slotOn w c i t) s fun u => 
        u.fld (pgFrd c) 0x04C 31 28 = 0 ∧
        u.fld (pgFrd c) 0x04C 27 24 = 1 ∧
        u.fld (pgFrd c) 0x04C 11 0 = i ∧
        u.getB (pgFrd c) 0x010 16 = true ∧
        (u.slots = s.slots) ∧
        u.getB (pgFrd c) (0xA00 + (4 * (i / 32))) (i % 32) = s.getB (pgFrd c) (0xA00 + (4 * (i / 32))) (i % 32) ∧
        s.fld (pgFrd c) 0x01C 31 16 ≤ u.fld (pgFrd c) 0x01C 31 16 :)
    ∧ (∀ (w : Writer) (c i t : Nat) (s : State), (Instr.slotOn w c i t).wf = true → s.calm = true → s.ready (pgFrd c) = true → s.mayWrite w (pgFrd c) .frd = true → (s.upTo t).frdSlice c = false → s.getB (pgFrd c) 0x04C 31 = false → bit ((s.upTo t).flipRegs (pgEccC c)).1 31 = false → s.usable (clusterBase c + s.rd (pgFrd c) 0x040 + 64 * i) 64 = true → s.rd (pgFrd c) 0x040 % 64 = 0 → (s.slotH c i).on = true → (s.rdMem (clusterBase c + s.rd (pgFrd c) 0x040 + 64 * i) 48).1.2 = false → (bit ((slotClamp (toWords 12 (s.rdMem (clusterBase c + s.rd (pgFrd c) 0x040 + 64 * i) 48).1.1)).getD 0 0) 2 = false ∨ ¬((s.slots.any fun q => decide (q.1 / 4096 = c) && q.2.on && q.2.blEn && decide (q.1 ≠ 4096 * c + i) && q.2.bli == bits ((slotClamp (toWords 12 (s.rdMem (clusterBase c + s.rd (pgFrd c) 0x040 + 64 * i) 48).1.1)).getD 1 0) 25 16) = true)) →
      Completes (.slotOn w c i t) s fun u => 
        u.fld (pgFrd c) 0x04C 27 24 = 1 ∧
        u.fld (pgFrd c) 0x04C 11 0 = i ∧
        u.getB (pgFrd c) 0x010 16 = true ∧
        u.slotH c i = { on := true, words := (slotClamp (toWords 12 (s.rdMem (clusterBase c + s.rd (pgFrd c) 0x040 + 64 * i) 48).1.1)), value := 0x7FC00020 } ∧
        u.fld (pgFrd c) 0x04C 31 28 ≤ 1 ∧
        u.getB (pgFrd c) (0x600 + (4 * (i / 32))) (i % 32) = true ∧
        u.getB (pgFrd c) (0xA00 + (4 * (i / 32))) (i % 32) = true ∧
        (([0x200, 0x400].all (fun o => !u.getB (pgFrd c) (o + (4 * (i / 32))) (i % 32))) = true) ∧
        (∀ d x, 4096 * d + x ≠ 4096 * c + i → u.slotH d x = s.slotH d x) ∧
        ((u.frdH c).cur = (s.frdH c).cur.map fun q => { q with slots := q.slots.filter (· != i) }) ∧
        (∀ a, ¬((clusterBase c + s.rd (pgFrd c) 0x040 + 64 * i) ≤ a ∧ a < (clusterBase c + s.rd (pgFrd c) 0x040 + 64 * i) + 64) → u.byte a = s.byte a) :)
    ∧ (∀ (w : Writer) (c i t : Nat) (s : State), (Instr.slotOn w c i t).wf = true → s.calm = true → s.ready (pgFrd c) = true → s.mayWrite w (pgFrd c) .frd = true → (s.upTo t).frdSlice c = false → s.getB (pgFrd c) 0x04C 31 = false → bit ((s.upTo t).flipRegs (pgEccC c)).1 31 = false → s.usable (clusterBase c + s.rd (pgFrd c) 0x040 + 64 * i) 64 = true → s.rd (pgFrd c) 0x040 % 64 = 0 → (s.slotH c i).on = true → ((s.rdMem (clusterBase c + s.rd (pgFrd c) 0x040 + 64 * i) 48).1.2 = true ∨ (bit ((slotClamp (toWords 12 (s.rdMem (clusterBase c + s.rd (pgFrd c) 0x040 + 64 * i) 48).1.1)).getD 0 0) 2 = true ∧ ((s.slots.any fun q => decide (q.1 / 4096 = c) && q.2.on && q.2.blEn && decide (q.1 ≠ 4096 * c + i) && q.2.bli == bits ((slotClamp (toWords 12 (s.rdMem (clusterBase c + s.rd (pgFrd c) 0x040 + 64 * i) 48).1.1)).getD 1 0) 25 16) = true))) →
      Completes (.slotOn w c i t) s fun u => 
        u.fld (pgFrd c) 0x04C 27 24 = 1 ∧
        u.fld (pgFrd c) 0x04C 11 0 = i ∧
        u.getB (pgFrd c) 0x010 16 = true ∧
        (u.slotH c i).on = false ∧
        ([0x200, 0x400, 0x600, 0x800, 0xA00].all (fun o => !u.getB (pgFrd c) (o + (4 * (i / 32))) (i % 32)) = true) ∧
        (∀ d x, 4096 * d + x ≠ 4096 * c + i → u.slotH d x = s.slotH d x) ∧
        ((u.frdH c).cur = (s.frdH c).cur.map fun q => { q with slots := q.slots.filter (· != i) }) ∧
        (∀ a, ¬((clusterBase c + s.rd (pgFrd c) 0x040 + 64 * i) ≤ a ∧ a < (clusterBase c + s.rd (pgFrd c) 0x040 + 64 * i) + 64) → u.byte a = s.byte a) :)
    ∧ (∀ (w : Writer) (c i t : Nat) (s : State), (Instr.slotOff w c i t).wf = true → s.calm = true → s.ready (pgFrd c) = true → s.mayWrite w (pgFrd c) .frd = true → (s.upTo t).frdSlice c = false → s.getB (pgFrd c) 0x04C 31 = false → (s.slotH c i).on = true →
      Completes (.slotOff w c i t) s fun u => 
        u.fld (pgFrd c) 0x04C 31 28 = 0 ∧
        u.fld (pgFrd c) 0x04C 27 24 = 2 ∧
        u.fld (pgFrd c) 0x04C 11 0 = i ∧
        u.getB (pgFrd c) 0x010 16 = true ∧
        (u.slotH c i).on = false ∧
        (u.slotH c i).pend = 0 ∧
        ([0x200, 0x400, 0x600, 0x800, 0xA00].all (fun o => !u.getB (pgFrd c) (o + (4 * (i / 32))) (i % 32)) = true) ∧
        ((u.frdH c).cur = (s.frdH c).cur.map fun q => { q with slots := q.slots.filter (· != i) }) ∧
        (∀ d x, 4096 * d + x ≠ 4096 * c + i → u.slotH d x = s.slotH d x) ∧
        (∀ d, d ≠ c → u.frdH d = s.frdH d) ∧
        (∀ a, ¬((clusterBase c + s.rd (pgFrd c) 0x040 + 64 * i) + 48 ≤ a ∧ a < (clusterBase c + s.rd (pgFrd c) 0x040 + 64 * i) + 64) → u.byte a = s.byte a) :)
    ∧ (∀ (w : Writer) (c i t : Nat) (s : State), (Instr.slotOff w c i t).wf = true → s.calm = true → s.ready (pgFrd c) = true → s.mayWrite w (pgFrd c) .frd = true → (s.upTo t).frdSlice c = false → s.getB (pgFrd c) 0x04C 31 = false → (s.slotH c i).on = false →
      Completes (.slotOff w c i t) s fun u => 
        u.fld (pgFrd c) 0x04C 31 28 = 0 ∧
        u.fld (pgFrd c) 0x04C 27 24 = 2 ∧
        u.fld (pgFrd c) 0x04C 11 0 = i ∧
        u.getB (pgFrd c) 0x010 16 = true ∧
        (u.slots = s.slots) ∧
        (u.frdH c).cur = (s.frdH c).cur ∧
        (u.frdH c).queue = (s.frdH c).queue ∧
        (∀ d, d ≠ c → u.frdH d = s.frdH d) ∧
        u.now = max s.now t ∧
        RegsOnly [(pgFrd c)] s u ∧
        { u with regs := s.regs, now := s.now, hot := s.hot, frd := s.frd } = s :)
    ∧ (∀ (w : Writer) (c i t : Nat) (s : State), (Instr.blClear w c i t).wf = true → s.calm = true → s.ready (pgFrd c) = true → s.mayWrite w (pgFrd c) .frd = true → (s.upTo t).frdSlice c = false → s.getB (pgFrd c) 0x04C 31 = false → (s.slotH c i).on = true → s.usable (clusterBase c + s.rd (pgFrd c) 0x044 + 512 * (s.slotH c i).bli) 512 = true → s.getB (pgEccC c) 0x064 31 = false → s.rd (pgFrd c) 0x044 % 64 = 0 →
      Completes (.blClear w c i t) s fun u => 
        u.fld (pgFrd c) 0x04C 31 28 = 0 ∧
        u.fld (pgFrd c) 0x04C 27 24 = 3 ∧
        u.fld (pgFrd c) 0x04C 11 0 = i ∧
        u.getB (pgFrd c) 0x010 16 = true ∧
        u.peek (clusterBase c + s.rd (pgFrd c) 0x044 + 512 * (s.slotH c i).bli) 512 = 0 ∧
        (u.slots = s.slots) ∧
        (∀ a, ¬((clusterBase c + s.rd (pgFrd c) 0x044 + 512 * (s.slotH c i).bli) ≤ a ∧ a < (clusterBase c + s.rd (pgFrd c) 0x044 + 512 * (s.slotH c i).bli) + 512) → u.byte a = s.byte a) :)
    ∧ (∀ (w : Writer) (c i t : Nat) (s : State), (Instr.blClear w c i t).wf = true → s.calm = true → s.ready (pgFrd c) = true → s.mayWrite w (pgFrd c) .frd = true → (s.upTo t).frdSlice c = false → s.getB (pgFrd c) 0x04C 31 = false → (s.slotH c i).on = false → (s.rdMem ((clusterBase c + s.rd (pgFrd c) 0x040 + 64 * i) + 4) 4).1.2 = false → s.usable (clusterBase c + s.rd (pgFrd c) 0x044 + 512 * bits (s.rdMem ((clusterBase c + s.rd (pgFrd c) 0x040 + 64 * i) + 4) 4).1.1 25 16) 512 = true → s.usable (clusterBase c + s.rd (pgFrd c) 0x040 + 64 * i) 64 = true → bit ((s.upTo t).flipRegs (pgEccC c)).1 31 = false → s.rd (pgFrd c) 0x044 % 64 = 0 →
      Completes (.blClear w c i t) s fun u => 
        u.fld (pgFrd c) 0x04C 31 28 = 0 ∧
        u.fld (pgFrd c) 0x04C 27 24 = 3 ∧
        u.fld (pgFrd c) 0x04C 11 0 = i ∧
        u.getB (pgFrd c) 0x010 16 = true ∧
        u.peek (clusterBase c + s.rd (pgFrd c) 0x044 + 512 * bits (s.rdMem ((clusterBase c + s.rd (pgFrd c) 0x040 + 64 * i) + 4) 4).1.1 25 16) 512 = 0 ∧
        (u.slots = s.slots) ∧
        (∀ a, ¬((clusterBase c + s.rd (pgFrd c) 0x044 + 512 * bits (s.rdMem ((clusterBase c + s.rd (pgFrd c) 0x040 + 64 * i) + 4) 4).1.1 25 16) ≤ a ∧ a < (clusterBase c + s.rd (pgFrd c) 0x044 + 512 * bits (s.rdMem ((clusterBase c + s.rd (pgFrd c) 0x040 + 64 * i) + 4) 4).1.1 25 16) + 512) → u.byte a = s.byte a) :)
    ∧ (∀ (w : Writer) (c i t : Nat) (s : State), (Instr.blClear w c i t).wf = true → s.calm = true → s.ready (pgFrd c) = true → s.mayWrite w (pgFrd c) .frd = true → (s.upTo t).frdSlice c = false → s.getB (pgFrd c) 0x04C 31 = false → (s.slotH c i).on = false → (s.rdMem ((clusterBase c + s.rd (pgFrd c) 0x040 + 64 * i) + 4) 4).1.2 = true →
      Completes (.blClear w c i t) s fun u => 
        u.fld (pgFrd c) 0x04C 31 28 = 0 ∧
        u.fld (pgFrd c) 0x04C 27 24 = 3 ∧
        u.fld (pgFrd c) 0x04C 11 0 = i ∧
        u.getB (pgFrd c) 0x010 16 = true ∧
        (u.slots = s.slots) ∧
        (u.mem = s.mem) :)
    ∧ (∀ (w : Writer) (c i t : Nat) (s : State), (Instr.slotOn w c i t).wf = true → s.calm = true → s.ready (pgFrd c) = true → s.mayWrite w (pgFrd c) .frd = true → s.getB (pgFrd c) 0x04C 31 = false → (s.upTo t).frdSlice c = true →
      Completes (.slotOn w c i t) s fun u => 
        u.getB (pgFrd c) 0x04C 31 = true ∧
        (u.frdH c).cmd = some (1, i) ∧
        (u.frdH c).queue = (s.frdH c).queue ∧
        (∀ d, d ≠ c → u.frdH d = s.frdH d) ∧
        u.now = max s.now t ∧
        RegsOnly [(pgFrd c)] s u ∧
        { u with regs := s.regs, now := s.now, hot := s.hot, frd := s.frd } = s :)
    ∧ (∀ (w : Writer) (c i t : Nat) (s : State), (Instr.slotOff w c i t).wf = true → s.calm = true → s.ready (pgFrd c) = true → s.mayWrite w (pgFrd c) .frd = true → s.getB (pgFrd c) 0x04C 31 = false → (s.upTo t).frdSlice c = true →
      Completes (.slotOff w c i t) s fun u => 
        u.getB (pgFrd c) 0x04C 31 = true ∧
        (u.frdH c).cmd = some (2, i) ∧
        (u.frdH c).queue = (s.frdH c).queue ∧
        (∀ d, d ≠ c → u.frdH d = s.frdH d) ∧
        u.now = max s.now t ∧
        RegsOnly [(pgFrd c)] s u ∧
        { u with regs := s.regs, now := s.now, hot := s.hot, frd := s.frd } = s :)
    ∧ (∀ (w : Writer) (c i t : Nat) (s : State), (Instr.blClear w c i t).wf = true → s.calm = true → s.ready (pgFrd c) = true → s.mayWrite w (pgFrd c) .frd = true → s.getB (pgFrd c) 0x04C 31 = false → (s.upTo t).frdSlice c = true →
      Completes (.blClear w c i t) s fun u => 
        u.getB (pgFrd c) 0x04C 31 = true ∧
        (u.frdH c).cmd = some (3, i) ∧
        (u.frdH c).queue = (s.frdH c).queue ∧
        (∀ d, d ≠ c → u.frdH d = s.frdH d) ∧
        u.now = max s.now t ∧
        RegsOnly [(pgFrd c)] s u ∧
        { u with regs := s.regs, now := s.now, hot := s.hot, frd := s.frd } = s :)
    ∧ (∀ (w : Writer) (c i t : Nat) (s : State), (Instr.slotOn w c i t).wf = true → s.calm = true → s.ready (pgFrd c) = true → s.mayWrite w (pgFrd c) .frd = true → s.getB (pgFrd c) 0x04C 31 = true →
      Completes (.slotOn w c i t) s fun u => 
        u.fld (pgFrd c) 0x018 31 16 = min 0xFFFF (s.fld (pgFrd c) 0x018 31 16 + 1) ∧
        u.fld (pgFrd c) 0x018 11 0 = 0x048 ∧
        u.now = max s.now t ∧
        RegsOnly [(pgFrd c)] s u ∧
        { u with regs := s.regs, now := s.now, hot := s.hot } = s :)
    ∧ (∀ (w : Writer) (c i t : Nat) (s : State), (Instr.slotOff w c i t).wf = true → s.calm = true → s.ready (pgFrd c) = true → s.mayWrite w (pgFrd c) .frd = true → s.getB (pgFrd c) 0x04C 31 = true →
      Completes (.slotOff w c i t) s fun u => 
        u.fld (pgFrd c) 0x018 31 16 = min 0xFFFF (s.fld (pgFrd c) 0x018 31 16 + 1) ∧
        u.fld (pgFrd c) 0x018 11 0 = 0x048 ∧
        u.now = max s.now t ∧
        RegsOnly [(pgFrd c)] s u ∧
        { u with regs := s.regs, now := s.now, hot := s.hot } = s :)
    ∧ (∀ (w : Writer) (c i t : Nat) (s : State), (Instr.blClear w c i t).wf = true → s.calm = true → s.ready (pgFrd c) = true → s.mayWrite w (pgFrd c) .frd = true → s.getB (pgFrd c) 0x04C 31 = true →
      Completes (.blClear w c i t) s fun u => 
        u.fld (pgFrd c) 0x018 31 16 = min 0xFFFF (s.fld (pgFrd c) 0x018 31 16 + 1) ∧
        u.fld (pgFrd c) 0x018 11 0 = 0x048 ∧
        u.now = max s.now t ∧
        RegsOnly [(pgFrd c)] s u ∧
        { u with regs := s.regs, now := s.now, hot := s.hot } = s :)
    ∧ (∀ (w : Writer) (c g r t : Nat) (s : State), (Instr.frdTrigger w c g r t).wf = true → s.calm = true → s.ready (pgFrd c) = true → s.mayWrite w (pgFrd c) .frd = true → g = 0 →
      Completes (.frdTrigger w c g r t) s fun u => 
        u.now = max s.now t ∧
        u.now = max s.now t ∧
        RegsOnly [(pgFrd c)] s u ∧
        { u with regs := s.regs, now := s.now, hot := s.hot } = s :)
    ∧ (∀ (w : Writer) (c g r t : Nat) (s : State), (Instr.frdTrigger w c g r t).wf = true → s.calm = true → s.powered (pgFrd c) = true → s.mayWrite w (pgFrd c) .frd = true → s.faulted (pgFrd c) = true → s.retired (pgFrd c) = false → (s.pageH (pgFrd c)).resetting = false → g ≠ 0 →
      Completes (.frdTrigger w c g r t) s fun u => 
        u.fld (pgFrd c) 0x058 31 24 = min 255 (s.fld (pgFrd c) 0x058 31 24 + 1) ∧
        u.getB (pgFrd c) 0x010 18 = true ∧
        u.now = max s.now t ∧
        RegsOnly [(pgFrd c)] s u ∧
        { u with regs := s.regs, now := s.now, hot := s.hot } = s :)
    ∧ (∀ (w : Writer) (c g r t : Nat) (s : State), (Instr.frdTrigger w c g r t).wf = true → s.calm = true → s.powered (pgFrd c) = true → s.mayWrite w (pgFrd c) .frd = true → s.busy (pgFrd c) = true → (s.pageH (pgFrd c)).resetting = false → s.ready (pgFrd c) = false → s.faulted (pgFrd c) = false → g ≠ 0 → (s.frdH c).queue.length < 64 →
      Completes (.frdTrigger w c g r t) s fun u => 
        (u.frdH c).queue = trigInsert ({ group := g, off := r * 64, arrived := max s.now t, rank := 1000, real := !(s.frdH c).cplx.contains (r * 64) } : Trig) (s.frdH c).queue ∧
        (u.frdH c).cur = (s.frdH c).cur ∧
        u.fld (pgFrd c) 0x054 15 0 = (s.frdH c).queue.length + 1 ∧
        (∀ d, d ≠ c → u.frdH d = s.frdH d) ∧
        u.now = max s.now t ∧
        RegsOnly [(pgFrd c)] s u ∧
        { u with regs := s.regs, now := s.now, hot := s.hot, frd := s.frd } = s :)
    ∧ (∀ (w : Writer) (c g r t : Nat) (s : State), (Instr.frdTrigger w c g r t).wf = true → s.calm = true → s.ready (pgFrd c) = true → s.mayWrite w (pgFrd c) .frd = true → g ≠ 0 → s.faulted (pgFrd c) = false → (s.pageH (pgFrd c)).resetting = false → ((s.frdH c).cur.isSome = true ∨ (s.upTo t).frdSlice c = true) → (s.frdH c).queue.length < 64 →
      Completes (.frdTrigger w c g r t) s fun u => 
        (u.frdH c).queue = trigInsert ({ group := g, off := r * 64, arrived := max s.now t, rank := 1000, real := !(s.frdH c).cplx.contains (r * 64) } : Trig) (s.frdH c).queue ∧
        (u.frdH c).cur = (s.frdH c).cur ∧
        u.fld (pgFrd c) 0x054 15 0 = (s.frdH c).queue.length + 1 ∧
        (∀ d, d ≠ c → u.frdH d = s.frdH d) ∧
        u.now = max s.now t ∧
        RegsOnly [(pgFrd c)] s u ∧
        { u with regs := s.regs, now := s.now, hot := s.hot, frd := s.frd } = s :)
    ∧ (∀ (w : Writer) (c g r t : Nat) (s : State), (Instr.frdTrigger w c g r t).wf = true → s.calm = true → s.ready (pgFrd c) = true → s.mayWrite w (pgFrd c) .frd = true → g ≠ 0 → s.faulted (pgFrd c) = false → (s.pageH (pgFrd c)).resetting = false → (s.upTo t).frdSlice c = false → (s.frdH c).cur = none → (s.frdH c).queue = [] →
      Completes (.frdTrigger w c g r t) s fun u => 
        (u.frdH c).cur.map (·.tr) = some ({ group := g, off := r * 64, arrived := max s.now t, rank := 1000, real := !(s.frdH c).cplx.contains (r * 64) } : Trig) ∧
        (u.frdH c).cur.map (·.slots) = some (s.slotsFor c ({ group := g, off := r * 64, arrived := max s.now t, rank := 1000, real := !(s.frdH c).cplx.contains (r * 64) } : Trig)) ∧
        (u.frdH c).queue = [] ∧
        (∀ d, d ≠ c → u.frdH d = s.frdH d) ∧
        u.slots = s.slots :)
    ∧ (∀ (w : Writer) (c g r t : Nat) (s : State), (Instr.frdTrigger w c g r t).wf = true → s.calm = true → s.ready (pgFrd c) = true → s.mayWrite w (pgFrd c) .frd = true → g ≠ 0 → s.faulted (pgFrd c) = false → (s.pageH (pgFrd c)).resetting = false → 64 ≤ (s.frdH c).queue.length →
      Completes (.frdTrigger w c g r t) s fun u => 
        u.fld (pgFrd c) 0x058 31 24 = min 255 (s.fld (pgFrd c) 0x058 31 24 + 1) ∧
        u.getB (pgFrd c) 0x010 18 = true ∧
        (u.frdH c).queue = (s.frdH c).queue ∧
        (u.frdH c).cur = (s.frdH c).cur ∧
        (∀ x, x ∈ s.slotsFor c ({ group := g, off := r * 64, arrived := max s.now t, rank := 1000, real := !(s.frdH c).cplx.contains (r * 64) } : Trig) → (u.slotH c x).level = 3) ∧
        (∀ x, x < 4096 → x ∉ s.slotsFor c ({ group := g, off := r * 64, arrived := max s.now t, rank := 1000, real := !(s.frdH c).cplx.contains (r * 64) } : Trig) → u.slotH c x = s.slotH c x) ∧
        (∀ d x, d ≠ c → x < 4096 → u.slotH d x = s.slotH d x) :)
    ∧ (∀ (c t : Nat) (diffs : List Nat) (q : FrdCur) (s : State), (Instr.triggerService c t diffs).wf = true → s.calm = true → s.ready (pgFrd c) = true → (s.upTo t).frdSlice c = false → s.faulted (pgFrd c) = false → (s.frdH c).cur = some q → (s.frdH c).queue = [] →
      Completes (.triggerService c t diffs) s fun u => 
        (u.frdH c).cur = none ∧
        (u.frdH c).queue = [] ∧
        (∀ d, d ≠ c → u.frdH d = s.frdH d) ∧
        (∀ d x, d ≠ c → x < 4096 → u.slotH d x = s.slotH d x) ∧
        (q.slots = [] → u.slots = s.slots) ∧
        (∀ x, x < 4096 → x ∉ q.slots → (u.slotH c x) = (s.slotH c x) ∨ u.faulted (pgFrd c) = true) :)
    ∧ (∀ (c t : Nat) (diffs : List Nat) (q : FrdCur) (s : State), (Instr.triggerService c t diffs).wf = true → s.calm = true → s.ready (pgFrd c) = true → (s.upTo t).frdSlice c = false → s.faulted (pgFrd c) = false → diffs = [] → (s.frdH c).cur = some q → q.slots.Nodup →
      Completes (.triggerService c t diffs) s fun u => 
        (∀ x, x ∈ q.slots → x < 4096 → (u.slotH c x).evals = (s.slotH c x).evals + 1) ∧
        (∀ x, x < 4096 → x ∉ q.slots → u.slotH c x = s.slotH c x) ∧
        u.faulted (pgFrd c) = false :)
    ∧ (∀ (c t : Nat) (diffs : List Nat) (q : FrdCur) (s : State), (Instr.triggerService c t diffs).wf = true → s.calm = true → s.ready (pgFrd c) = true → (s.upTo t).frdSlice c = false → s.faulted (pgFrd c) = false → (s.frdH c).cur = some q → (s.upTo t).overrun c q.tr q.slots = true → q.slots ≠ [] →
      Completes (.triggerService c t diffs) s fun u => 
        (∀ x, x ∈ q.slots → x < 4096 → (u.slotH c x).level = 3) ∧
        u.fld (pgFrd c) 0x058 23 16 = min 255 (s.fld (pgFrd c) 0x058 23 16 + 1) ∧
        u.getB (pgFrd c) 0x010 18 = true ∧
        u.faulted (pgFrd c) = false :)
    ∧ (∀ (c t : Nat) (diffs : List Nat) (q : FrdCur) (tr : Trig) (rest : List Trig) (s : State), (Instr.triggerService c t diffs).wf = true → s.calm = true → s.ready (pgFrd c) = true → (s.upTo t).frdSlice c = false → s.faulted (pgFrd c) = false → (s.frdH c).cur = some q → (s.frdH c).queue = tr :: rest →
      Completes (.triggerService c t diffs) s fun u => 
        ((u.faulted (pgFrd c) = true ∧ (u.frdH c).cur = none ∧ (u.frdH c).queue = []) ∨ (u.faulted (pgFrd c) = false ∧ (u.frdH c).cur.map (·.tr) = some tr ∧ (u.frdH c).queue = rest)) ∧
        (diffs = [] → u.faulted (pgFrd c) = false) ∧
        (∀ d, d ≠ c → u.frdH d = s.frdH d) ∧
        (∀ d x, d ≠ c → x < 4096 → u.slotH d x = s.slotH d x) ∧
        (q.slots = [] → u.slots = s.slots) :)
    ∧ (∀ (c t : Nat) (diffs : List Nat) (tr : Trig) (s : State), (Instr.triggerService c t diffs).wf = true → s.calm = true → s.ready (pgFrd c) = true → (s.upTo t).frdSlice c = false → s.faulted (pgFrd c) = false → (s.frdH c).cur = none → (s.frdH c).queue = [tr] →
      Completes (.triggerService c t diffs) s fun u => 
        (u.frdH c).cur = none ∧
        (u.frdH c).queue = [] ∧
        (∀ d, d ≠ c → u.frdH d = s.frdH d) ∧
        (∀ d x, d ≠ c → x < 4096 → u.slotH d x = s.slotH d x) :)
    ∧ (∀ (c t : Nat) (diffs : List Nat) (s : State), (Instr.triggerService c t diffs).wf = true → s.calm = true → ((s.upTo t).frdSlice c = true ∨ s.ready (pgFrd c) = false ∨ ((s.frdH c).cur = none ∧ (s.frdH c).queue = [])) →
      Completes (.triggerService c t diffs) s fun u => 
        u.regs = s.regs ∧
        u.now = max s.now t ∧
        { u with now := s.now, hot := s.hot } = s :)

/-- A vote word reaches the drive blocks with its writer; a poisoned one is counted in PAGE_ERR and a foreign one in SOUT_ERR, and both are dropped. At a tick each drive block takes the arrived words (an accepted one becomes the member’s vote, a foreign or repeated one is counted and dropped, a skip is accepted and counted), applies the waiting writes and the multipliers, and takes the rows of R272 for every output in the state it is in, with demand by R269: OFF stays; WAITING leaves when its group is ready; NORMAL trips at once or over DELAYING; DELAYING returns or trips; TRIPPED holds while demanded, refuses RESET_TRIP then, and returns by REL_DLY or RESET_TRIP as LATCH says; FAULT leaves by CLEAR_FAULT when its switch reads open; a demand cuts a running test. With no drive block READY, or off the tick, nothing happens. Demand held for SOUT_TRIP_DLY trips a DELAYING output, no demand for SOUT_REL_DLY returns an unlatched TRIPPED one to NORMAL, a member ceases to be fresh, the multiplier times out; a read-back opposite to its command 100 µs after it, an open load, 1 ms of difference between the dies, a silent peer and a drive block’s own fault put every die concerned that is not OFF in FAULT with its code. Before their time, and in states they do not concern, these events do nothing. The other die, the other outputs and all else stay, but for the event log and the drive-block pages. -/
def Obligations.SoutOutputs : Prop :=
    (∀ (w : Writer) (o m v t : Nat) (s : State), (Instr.voteWord w o m v false t).wf = true → s.calm = true → s.mayWrite w (pgSout o) .sout = true → s.powered (pgSout o) = true → (s.pageH (pgSout o)).resetting = false →
      Completes (.voteWord w o m v false t) s fun u => 
        ((u.soutH o).arrive = (s.soutH o).arrive ++ [⟨m, v % 2 ^ 64, (match w with | .tile x y => if (s.tileH x).mode ≤ 1 ∧ y = 0 then some x else none | _ => none)⟩]) ∧
        (u.soutH o).dies = (s.soutH o).dies ∧
        (∀ x, x ≠ o → u.soutH x = s.soutH x) ∧
        u.now = max s.now t ∧
        RegsOnly [] s u ∧
        { u with regs := s.regs, now := s.now, hot := s.hot, souts := s.souts } = s :)
    ∧ (∀ (w : Writer) (o m v t : Nat) (s : State), (Instr.voteWord w o m v true t).wf = true → s.calm = true → s.routePage w (pgSout o) = (pgSout o) → (fromOuter w = false ∨ Kind.sout.owner ≠ 0x03) →
      Completes (.voteWord w o m v true t) s fun u => 
        u.fld (pgSout o) 0x01C 7 0 = min 255 (s.fld (pgSout o) 0x01C 7 0 + 1) ∧
        u.now = max s.now t ∧
        RegsOnly [(pgSout o)] s u ∧
        { u with regs := s.regs, now := s.now, hot := s.hot } = s :)
    ∧ (∀ (w : Writer) (o m v t : Nat) (s : State), (Instr.voteWord w o m v false t).wf = true → s.calm = true → s.routePage w (pgSout o) = (pgSout o) → s.soutForeign w .sout none = true → (fromOuter w = false ∨ Kind.sout.owner ≠ 0x03) →
      Completes (.voteWord w o m v false t) s fun u => 
        u.fld (pgSout o) 0x068 23 16 = min 255 (s.fld (pgSout o) 0x068 23 16 + 1) ∧
        u.now = max s.now t ∧
        RegsOnly [(pgSout o)] s u ∧
        { u with regs := s.regs, now := s.now, hot := s.hot } = s :)
    ∧ (∀ (dev : List (Nat × Nat × Nat)) (loads : List (Nat × Nat)) (t : Nat) (s : State), (Instr.driveTick dev loads t).wf = true → s.calm = true → s.now ≤ t → t % 3000 = 0 → (s.ready (pgSoutD 0) || s.ready (pgSoutD 1)) = true →
      Completes (.driveTick dev loads t) s fun u => 
        ((List.range 64).all (fun o => (u.soutH o).arrive.isEmpty && (u.soutH o).writes.isEmpty) = true) ∧
        u.getB (pgSoutD 0) 0x040 30 = s.ready (pgSoutD 0) ∧
        u.getB (pgSoutD 1) 0x040 30 = s.ready (pgSoutD 1) ∧
        u.getB (pgSoutD 0) 0x040 31 = s.ready (pgSoutD 1) ∧
        u.getB (pgSoutD 1) 0x040 31 = s.ready (pgSoutD 0) ∧
        u.now = t ∧
        (∀ p off, p ∉ [pgSoutD 0, pgSoutD 1, pgBcp 1] → (∀ o, o < 64 → p ≠ pgSout o) → off < 4096 → u.rd p off = s.rd p off) ∧
        ({ u with regs := s.regs, now := s.now, hot := s.hot, souts := s.souts, log := s.log } = s) :)
    ∧ (∀ (dev : List (Nat × Nat × Nat)) (loads : List (Nat × Nat)) (t : Nat) (s : State), (Instr.driveTick dev loads t).wf = true → s.calm = true → (t % 3000 ≠ 0 ∨ t < s.now ∨ (s.ready (pgSoutD 0) = false ∧ s.ready (pgSoutD 1) = false)) →
      Completes (.driveTick dev loads t) s fun u => 
        u.souts = s.souts ∧
        u.regs = s.regs ∧
        u.now = max s.now t ∧
        { u with now := s.now, hot := s.hot } = s :)
    ∧ (∀ (dev : List (Nat × Nat × Nat)) (loads : List (Nat × Nat)) (t o : Nat) (v : VoteIn) (s : State), (Instr.driveTick dev loads t).wf = true → s.calm = true → s.now ≤ t → t % 3000 = 0 → s.ready (pgSoutD 0) = true → s.ready (pgSoutD 1) = true → o < 64 → (s.soutH o).dies.length = 2 → (s.soutH o).mem.length = 3 → (s.soutH o).arrive = [v] → v.place < s.soCount o → v.tile = some (s.soTile o v.place) → v.word < 2 ^ 64 → ¬(((s.soutH o).member v.place).has = true ∧ bits ((s.soutH o).member v.place).word 47 40 = bits v.word 47 40) →
      Completes (.driveTick dev loads t) s fun u => 
        ((u.soutH o).member v.place).word = v.word ∧
        ((u.soutH o).member v.place).has = true ∧
        ((u.soutH o).member v.place).got = true ∧
        ((u.soutH o).member v.place).t = t ∧
        u.rd64 (pgSout o) (0x080 + 8 * v.place) = v.word ∧
        u.rd64 (pgSout o) (0x098 + 8 * v.place) = t % 2 ^ 64 ∧
        ((u.soutH o).member v.place).fresh = decide (0 < s.soVage o) ∧
        (((s.soutH o).member v.place).has = true → bits v.word 47 40 ≠ (bits ((s.soutH o).member v.place).word 47 40 + 1) % 256 → u.fld (pgSout o) 0x068 15 8 = min 255 (s.fld (pgSout o) 0x068 15 8 + 1)) ∧
        (((s.soutH o).member v.place).has = false → u.fld (pgSout o) 0x068 15 8 = s.fld (pgSout o) 0x068 15 8) :)
    ∧ (∀ (dev : List (Nat × Nat × Nat)) (loads : List (Nat × Nat)) (t o : Nat) (v : VoteIn) (s : State), (Instr.driveTick dev loads t).wf = true → s.calm = true → s.now ≤ t → t % 3000 = 0 → s.ready (pgSoutD 0) = true → s.ready (pgSoutD 1) = true → o < 64 → (s.soutH o).dies.length = 2 → (s.soutH o).mem.length = 3 → (s.soutH o).arrive = [v] → ¬(v.place < s.soCount o ∧ v.tile = some (s.soTile o v.place)) →
      Completes (.driveTick dev loads t) s fun u => 
        u.fld (pgSout o) 0x068 23 16 = min 255 (s.fld (pgSout o) 0x068 23 16 + 1) ∧
        (∀ m, m < 3 → ((u.soutH o).member m).word = ((s.soutH o).member m).word ∧ ((u.soutH o).member m).t = ((s.soutH o).member m).t) :)
    ∧ (∀ (dev : List (Nat × Nat × Nat)) (loads : List (Nat × Nat)) (t o : Nat) (v : VoteIn) (s : State), (Instr.driveTick dev loads t).wf = true → s.calm = true → s.now ≤ t → t % 3000 = 0 → s.ready (pgSoutD 0) = true → s.ready (pgSoutD 1) = true → o < 64 → (s.soutH o).dies.length = 2 → (s.soutH o).mem.length = 3 → (s.soutH o).arrive = [v] → v.place < s.soCount o → v.tile = some (s.soTile o v.place) → ((s.soutH o).member v.place).has = true → bits ((s.soutH o).member v.place).word 47 40 = bits v.word 47 40 →
      Completes (.driveTick dev loads t) s fun u => 
        u.fld (pgSout o) 0x068 15 8 = min 255 (s.fld (pgSout o) 0x068 15 8 + 1) ∧
        (∀ m, m < 3 → ((u.soutH o).member m).word = ((s.soutH o).member m).word ∧ ((u.soutH o).member m).t = ((s.soutH o).member m).t) :)
    ∧ (∀ (dev : List (Nat × Nat × Nat)) (loads : List (Nat × Nat)) (t o b : Nat) (w : Writer) (s : State), (Instr.driveTick dev loads t).wf = true → s.calm = true → s.now ≤ t → t % 3000 = 0 → s.ready (pgSoutD 0) = true → s.ready (pgSoutD 1) = true → o < 64 → (s.soutH o).dies.length = 2 → (s.soutH o).mem.length = 3 → (s.soutH o).arrive = [] → (s.soutH o).writes = [(0x05C, b, w)] →
      Completes (.driveTick dev loads t) s fun u => 
        u.fld (pgSout o) 0x05C 2 0 = b % 8 ∧
        (b % 8 ≠ s.fld (pgSout o) 0x05C 2 0 → u.getB (pgSout o) 0x010 20 = true) ∧
        ((u.soutH o).dem = (evalOutput (s.rd (pgSout o) 0x040) (b % 8) ((List.range (s.soCount o)).map fun m => (s.upTo t).memVote o m)).demand) :)
    ∧ (∀ (dev : List (Nat × Nat × Nat)) (loads : List (Nat × Nat)) (t o : Nat) (s : State), (Instr.driveTick dev loads t).wf = true → s.calm = true → s.now ≤ t → t % 3000 = 0 → s.ready (pgSoutD 0) = true → s.ready (pgSoutD 1) = true → o < 64 → (s.soutH o).dies.length = 2 → (s.soutH o).mem.length = 3 → (s.soutH o).writes = [] → s.getB (pgSout o) 0x058 31 = false → s.getB (pgSout o) 0x058 30 = true → (s.soutH o).multOut = false →
      Completes (.driveTick dev loads t) s fun u => 
        u.getB (pgSout o) 0x058 31 = true ∧
        (u.soutH o).multT = t ∧
        u.getB (pgSout o) 0x010 22 = true :)
    ∧ (∀ (dev : List (Nat × Nat × Nat)) (loads : List (Nat × Nat)) (t o : Nat) (s : State), (Instr.driveTick dev loads t).wf = true → s.calm = true → s.now ≤ t → t % 3000 = 0 → s.ready (pgSoutD 0) = true → s.ready (pgSoutD 1) = true → o < 64 → (s.soutH o).dies.length = 2 → (s.soutH o).mem.length = 3 → (s.soutH o).writes = [] → s.getB (pgSout o) 0x058 31 = true → s.getB (pgSout o) 0x058 30 = false → s.getB (pgSout o) 0x058 29 = false →
      Completes (.driveTick dev loads t) s fun u => 
        u.getB (pgSout o) 0x058 31 = false ∧
        (u.soutH o).multOut = false ∧
        u.getB (pgSout o) 0x010 22 = true :)
    ∧ (∀ (dev : List (Nat × Nat × Nat)) (loads : List (Nat × Nat)) (t o d : Nat) (s : State), (Instr.driveTick dev loads t).wf = true → s.calm = true → s.now ≤ t → t % 3000 = 0 → s.ready (pgSoutD 0) = true → s.ready (pgSoutD 1) = true → o < 64 → (s.soutH o).dies.length = 2 → (s.soutH o).mem.length = 3 → d < 2 → ((s.soutH o).die d).st = 0 →
      Completes (.driveTick dev loads t) s fun u => 
        ((u.soutH o).die d).st = 0 ∧
        (((u.soutH o).die d).cmd = false ∨ ((s.soutH o).die d).test.isSome = true) :)
    ∧ (∀ (dev : List (Nat × Nat × Nat)) (loads : List (Nat × Nat)) (t o d : Nat) (s : State), (Instr.driveTick dev loads t).wf = true → s.calm = true → s.now ≤ t → t % 3000 = 0 → s.ready (pgSoutD 0) = true → s.ready (pgSoutD 1) = true → o < 64 → (s.soutH o).dies.length = 2 → (s.soutH o).mem.length = 3 → d < 2 → (s.soutH o).arrive = [] → (s.soutH o).writes = [] → ((s.soutH o).die d).st = 1 → ((s.upTo t).groupReady o).1 = true → (evalOutput (s.rd (pgSout o) 0x040) (s.fld (pgSout o) 0x05C 2 0) ((List.range (s.soCount o)).map fun m => (s.upTo t).memVote o m)).demand = true →
      Completes (.driveTick dev loads t) s fun u => 
        ((u.soutH o).die d).st = 4 ∧
        ((u.soutH o).die d).since = t ∧
        (u.soutH o).dem = true ∧
        u.getB (pgSout o) 0x010 16 = true ∧
        u.getB (pgSout o) 0x010 17 = true :)
    ∧ (∀ (dev : List (Nat × Nat × Nat)) (loads : List (Nat × Nat)) (t o d : Nat) (s : State), (Instr.driveTick dev loads t).wf = true → s.calm = true → s.now ≤ t → t % 3000 = 0 → s.ready (pgSoutD 0) = true → s.ready (pgSoutD 1) = true → o < 64 → (s.soutH o).dies.length = 2 → (s.soutH o).mem.length = 3 → d < 2 → (s.soutH o).arrive = [] → (s.soutH o).writes = [] → ((s.soutH o).die d).st = 1 → ((s.upTo t).groupReady o).1 = true → (evalOutput (s.rd (pgSout o) 0x040) (s.fld (pgSout o) 0x05C 2 0) ((List.range (s.soCount o)).map fun m => (s.upTo t).memVote o m)).demand = false →
      Completes (.driveTick dev loads t) s fun u => 
        ((u.soutH o).die d).st = 2 ∧
        ((u.soutH o).die d).since = t ∧
        (u.soutH o).dem = false ∧
        u.getB (pgSout o) 0x010 16 = true :)
    ∧ (∀ (dev : List (Nat × Nat × Nat)) (loads : List (Nat × Nat)) (t o d : Nat) (s : State), (Instr.driveTick dev loads t).wf = true → s.calm = true → s.now ≤ t → t % 3000 = 0 → s.ready (pgSoutD 0) = true → s.ready (pgSoutD 1) = true → o < 64 → (s.soutH o).dies.length = 2 → (s.soutH o).mem.length = 3 → d < 2 → (s.soutH o).arrive = [] → ((s.soutH o).die d).st = 1 → ((s.upTo t).groupReady o).1 = false →
      Completes (.driveTick dev loads t) s fun u => 
        ((u.soutH o).die d).st = 1 ∧
        u.getB (pgSout o) 0x064 21 = ((s.upTo t).groupReady o).2 :)
    ∧ (∀ (dev : List (Nat × Nat × Nat)) (loads : List (Nat × Nat)) (t o d : Nat) (s : State), (Instr.driveTick dev loads t).wf = true → s.calm = true → s.now ≤ t → t % 3000 = 0 → s.ready (pgSoutD 0) = true → s.ready (pgSoutD 1) = true → o < 64 → (s.soutH o).dies.length = 2 → (s.soutH o).mem.length = 3 → d < 2 → (s.soutH o).arrive = [] → (s.soutH o).writes = [] → ((s.soutH o).die d).st = 2 → (evalOutput (s.rd (pgSout o) 0x040) (s.fld (pgSout o) 0x05C 2 0) ((List.range (s.soCount o)).map fun m => (s.upTo t).memVote o m)).demand = false →
      Completes (.driveTick dev loads t) s fun u => 
        ((u.soutH o).die d).st = 2 ∧
        ((u.soutH o).die d).since = ((s.soutH o).die d).since ∧
        (u.soutH o).dem = false ∧
        ((((u.soutH o).die d).test = none) → ((u.soutH o).die d).cmd = decide (s.soCfg o 29 29 = 0)) :)
    ∧ (∀ (dev : List (Nat × Nat × Nat)) (loads : List (Nat × Nat)) (t o d : Nat) (s : State), (Instr.driveTick dev loads t).wf = true → s.calm = true → s.now ≤ t → t % 3000 = 0 → s.ready (pgSoutD 0) = true → s.ready (pgSoutD 1) = true → o < 64 → (s.soutH o).dies.length = 2 → (s.soutH o).mem.length = 3 → d < 2 → (s.soutH o).arrive = [] → (s.soutH o).writes = [] → ((s.soutH o).die d).st = 2 → (evalOutput (s.rd (pgSout o) 0x040) (s.fld (pgSout o) 0x05C 2 0) ((List.range (s.soCount o)).map fun m => (s.upTo t).memVote o m)).demand = true → s.rd (pgSout o) 0x048 = 0 → (((s.soutH o).die d).test = none ∨ (s.soutH o).dem = false) →
      Completes (.driveTick dev loads t) s fun u => 
        ((u.soutH o).die d).st = 4 ∧
        ((u.soutH o).die d).since = t ∧
        ((u.soutH o).die d).test = none ∧
        ((u.soutH o).die d).cmd = decide (s.soCfg o 29 29 = 1) ∧
        (u.soutH o).dem = true ∧
        u.getB (pgSout o) 0x010 17 = true ∧
        (d = 0 → u.rd (pgSout o) 0x070 = min (2 ^ 32 - 1) (s.rd (pgSout o) 0x070 + 1) ∧ u.rd64 (pgSout o) 0x0C0 = t % 2 ^ 64 ∧ u.rd64 (pgSout o) 0x0C8 = t % 2 ^ 64) ∧
        (((s.soutH o).die d).test.isSome = true → u.fld (pgSout o) 0x06C (2 * d + 1) (2 * d) = 3) :)
    ∧ (∀ (dev : List (Nat × Nat × Nat)) (loads : List (Nat × Nat)) (t o d : Nat) (s : State), (Instr.driveTick dev loads t).wf = true → s.calm = true → s.now ≤ t → t % 3000 = 0 → s.ready (pgSoutD 0) = true → s.ready (pgSoutD 1) = true → o < 64 → (s.soutH o).dies.length = 2 → (s.soutH o).mem.length = 3 → d < 2 → (s.soutH o).arrive = [] → (s.soutH o).writes = [] → ((s.soutH o).die d).st = 2 → (evalOutput (s.rd (pgSout o) 0x040) (s.fld (pgSout o) 0x05C 2 0) ((List.range (s.soCount o)).map fun m => (s.upTo t).memVote o m)).demand = true → 0 < s.rd (pgSout o) 0x048 →
      Completes (.driveTick dev loads t) s fun u => 
        ((u.soutH o).die d).st = 3 ∧
        ((u.soutH o).die d).ds = t ∧
        ((u.soutH o).die d).since = t ∧
        ((u.soutH o).die d).test = none ∧
        ((u.soutH o).die d).cmd = decide (s.soCfg o 29 29 = 0) :)
    ∧ (∀ (dev : List (Nat × Nat × Nat)) (loads : List (Nat × Nat)) (t o d : Nat) (s : State), (Instr.driveTick dev loads t).wf = true → s.calm = true → s.now ≤ t → t % 3000 = 0 → s.ready (pgSoutD 0) = true → s.ready (pgSoutD 1) = true → o < 64 → (s.soutH o).dies.length = 2 → (s.soutH o).mem.length = 3 → d < 2 → (s.soutH o).arrive = [] → (s.soutH o).writes = [] → ((s.soutH o).die d).st = 3 → (evalOutput (s.rd (pgSout o) 0x040) (s.fld (pgSout o) 0x05C 2 0) ((List.range (s.soCount o)).map fun m => (s.upTo t).memVote o m)).demand = false →
      Completes (.driveTick dev loads t) s fun u => 
        ((u.soutH o).die d).st = 2 ∧
        ((u.soutH o).die d).since = t :)
    ∧ (∀ (dev : List (Nat × Nat × Nat)) (loads : List (Nat × Nat)) (t o d : Nat) (s : State), (Instr.driveTick dev loads t).wf = true → s.calm = true → s.now ≤ t → t % 3000 = 0 → s.ready (pgSoutD 0) = true → s.ready (pgSoutD 1) = true → o < 64 → (s.soutH o).dies.length = 2 → (s.soutH o).mem.length = 3 → d < 2 → (s.soutH o).arrive = [] → (s.soutH o).writes = [] → ((s.soutH o).die d).st = 3 → (evalOutput (s.rd (pgSout o) 0x040) (s.fld (pgSout o) 0x05C 2 0) ((List.range (s.soCount o)).map fun m => (s.upTo t).memVote o m)).demand = true → t < ((s.soutH o).die d).ds + s.rd (pgSout o) 0x048 * 10 * cyclesPerUs →
      Completes (.driveTick dev loads t) s fun u => 
        ((u.soutH o).die d).st = 3 ∧
        ((u.soutH o).die d).ds = ((s.soutH o).die d).ds :)
    ∧ (∀ (dev : List (Nat × Nat × Nat)) (loads : List (Nat × Nat)) (t o d : Nat) (s : State), (Instr.driveTick dev loads t).wf = true → s.calm = true → s.now ≤ t → t % 3000 = 0 → s.ready (pgSoutD 0) = true → s.ready (pgSoutD 1) = true → o < 64 → (s.soutH o).dies.length = 2 → (s.soutH o).mem.length = 3 → d < 2 → (s.soutH o).arrive = [] → (s.soutH o).writes = [] → ((s.soutH o).die d).st = 3 → (evalOutput (s.rd (pgSout o) 0x040) (s.fld (pgSout o) 0x05C 2 0) ((List.range (s.soCount o)).map fun m => (s.upTo t).memVote o m)).demand = true → ((s.soutH o).die d).ds + s.rd (pgSout o) 0x048 * 10 * cyclesPerUs ≤ t →
      Completes (.driveTick dev loads t) s fun u => 
        ((u.soutH o).die d).st = 4 ∧
        (d = 0 → u.rd64 (pgSout o) 0x0C8 = ((s.soutH o).die d).ds % 2 ^ 64) ∧
        u.getB (pgSout o) 0x010 17 = true :)
    ∧ (∀ (dev : List (Nat × Nat × Nat)) (loads : List (Nat × Nat)) (t o d : Nat) (s : State), (Instr.driveTick dev loads t).wf = true → s.calm = true → s.now ≤ t → t % 3000 = 0 → s.ready (pgSoutD 0) = true → s.ready (pgSoutD 1) = true → o < 64 → (s.soutH o).dies.length = 2 → (s.soutH o).mem.length = 3 → d < 2 → (s.soutH o).arrive = [] → (s.soutH o).writes = [] → ((s.soutH o).die d).st = 4 → (evalOutput (s.rd (pgSout o) 0x040) (s.fld (pgSout o) 0x05C 2 0) ((List.range (s.soCount o)).map fun m => (s.upTo t).memVote o m)).demand = true →
      Completes (.driveTick dev loads t) s fun u => 
        ((u.soutH o).die d).st = 4 ∧
        ((u.soutH o).die d).relT = none ∧
        u.fld (pgSout o) 0x068 3 0 = s.fld (pgSout o) 0x068 3 0 :)
    ∧ (∀ (dev : List (Nat × Nat × Nat)) (loads : List (Nat × Nat)) (t o d : Nat) (w : Writer) (s : State), (Instr.driveTick dev loads t).wf = true → s.calm = true → s.now ≤ t → t % 3000 = 0 → s.ready (pgSoutD 0) = true → s.ready (pgSoutD 1) = true → o < 64 → (s.soutH o).dies.length = 2 → (s.soutH o).mem.length = 3 → d < 2 → (s.soutH o).arrive = [] → (s.soutH o).writes = [(0x060, 1, w)] → ((s.soutH o).die d).st = 4 → (evalOutput (s.rd (pgSout o) 0x040) (s.fld (pgSout o) 0x05C 2 0) ((List.range (s.soCount o)).map fun m => (s.upTo t).memVote o m)).demand = true →
      Completes (.driveTick dev loads t) s fun u => 
        ((u.soutH o).die d).st = 4 ∧
        u.fld (pgSout o) 0x068 3 0 = min 15 (s.fld (pgSout o) 0x068 3 0 + 1) :)
    ∧ (∀ (dev : List (Nat × Nat × Nat)) (loads : List (Nat × Nat)) (t o d : Nat) (s : State), (Instr.driveTick dev loads t).wf = true → s.calm = true → s.now ≤ t → t % 3000 = 0 → s.ready (pgSoutD 0) = true → s.ready (pgSoutD 1) = true → o < 64 → (s.soutH o).dies.length = 2 → (s.soutH o).mem.length = 3 → d < 2 → (s.soutH o).arrive = [] → (s.soutH o).writes = [] → ((s.soutH o).die d).st = 4 → (evalOutput (s.rd (pgSout o) 0x040) (s.fld (pgSout o) 0x05C 2 0) ((List.range (s.soCount o)).map fun m => (s.upTo t).memVote o m)).demand = false → s.soCfg o 26 26 = 0 → ((s.soutH o).die d).relT.getD t + s.rd (pgSout o) 0x04C * 10 * cyclesPerUs ≤ t →
      Completes (.driveTick dev loads t) s fun u => 
        ((u.soutH o).die d).st = 2 ∧
        ((u.soutH o).die d).since = t :)
    ∧ (∀ (dev : List (Nat × Nat × Nat)) (loads : List (Nat × Nat)) (t o d : Nat) (s : State), (Instr.driveTick dev loads t).wf = true → s.calm = true → s.now ≤ t → t % 3000 = 0 → s.ready (pgSoutD 0) = true → s.ready (pgSoutD 1) = true → o < 64 → (s.soutH o).dies.length = 2 → (s.soutH o).mem.length = 3 → d < 2 → (s.soutH o).arrive = [] → (s.soutH o).writes = [] → ((s.soutH o).die d).st = 4 → (evalOutput (s.rd (pgSout o) 0x040) (s.fld (pgSout o) 0x05C 2 0) ((List.range (s.soCount o)).map fun m => (s.upTo t).memVote o m)).demand = false → (s.soCfg o 26 26 = 1 ∨ t < ((s.soutH o).die d).relT.getD t + s.rd (pgSout o) 0x04C * 10 * cyclesPerUs) →
      Completes (.driveTick dev loads t) s fun u => 
        ((u.soutH o).die d).st = 4 ∧
        ((u.soutH o).die d).relT = some (((s.soutH o).die d).relT.getD t) :)
    ∧ (∀ (dev : List (Nat × Nat × Nat)) (loads : List (Nat × Nat)) (t o d : Nat) (w : Writer) (s : State), (Instr.driveTick dev loads t).wf = true → s.calm = true → s.now ≤ t → t % 3000 = 0 → s.ready (pgSoutD 0) = true → s.ready (pgSoutD 1) = true → o < 64 → (s.soutH o).dies.length = 2 → (s.soutH o).mem.length = 3 → d < 2 → (s.soutH o).arrive = [] → (s.soutH o).writes = [(0x060, 1, w)] → ((s.soutH o).die d).st = 4 → (evalOutput (s.rd (pgSout o) 0x040) (s.fld (pgSout o) 0x05C 2 0) ((List.range (s.soCount o)).map fun m => (s.upTo t).memVote o m)).demand = false → s.soCfg o 26 26 = 1 →
      Completes (.driveTick dev loads t) s fun u => 
        ((u.soutH o).die d).st = 2 ∧
        ((u.soutH o).die d).since = t ∧
        u.fld (pgSout o) 0x068 3 0 = s.fld (pgSout o) 0x068 3 0 :)
    ∧ (∀ (dev : List (Nat × Nat × Nat)) (loads : List (Nat × Nat)) (t o d : Nat) (s : State), (Instr.driveTick dev loads t).wf = true → s.calm = true → s.now ≤ t → t % 3000 = 0 → s.ready (pgSoutD 0) = true → s.ready (pgSoutD 1) = true → o < 64 → (s.soutH o).dies.length = 2 → (s.soutH o).mem.length = 3 → d < 2 → (s.soutH o).arrive = [] → (s.soutH o).writes = [] → ((s.soutH o).die d).st = 5 →
      Completes (.driveTick dev loads t) s fun u => 
        ((u.soutH o).die d).st = 5 ∧
        ((u.soutH o).die d).code = ((s.soutH o).die d).code :)
    ∧ (∀ (t o d : Nat) (w : Writer) (s : State), (Instr.driveTick ([]) ([]) t).wf = true → s.calm = true → s.now ≤ t → t % 3000 = 0 → s.ready (pgSoutD 0) = true → s.ready (pgSoutD 1) = true → o < 64 → (s.soutH o).dies.length = 2 → (s.soutH o).mem.length = 3 → d < 2 → (s.soutH o).arrive = [] → (s.soutH o).writes = [(0x060, 2, w)] → ((s.soutH o).die d).st = 5 → ((s.soutH o).die d).cmd = false →
      Completes (.driveTick ([]) ([]) t) s fun u => 
        ((u.soutH o).die d).st = 1 ∧
        ((u.soutH o).die d).since = t ∧
        ((u.soutH o).die d).rb = false :)
    ∧ (∀ (k t o d : Nat) (w : Writer) (s : State), (Instr.driveTick ([(o, d, k)]) ([]) t).wf = true → s.calm = true → s.now ≤ t → t % 3000 = 0 → s.ready (pgSoutD 0) = true → s.ready (pgSoutD 1) = true → o < 64 → (s.soutH o).dies.length = 2 → (s.soutH o).mem.length = 3 → d < 2 → (s.soutH o).arrive = [] → (s.soutH o).writes = [(0x060, 2, w)] → k < 1000 → ((s.soutH o).die d).limited = false → s.bcp.fldLow.contains (o / 16) = false → ((s.soutH o).die d).st = 5 →
      Completes (.driveTick ([(o, d, k)]) ([]) t) s fun u => 
        ((u.soutH o).die d).st = 5 ∧
        ((u.soutH o).die d).rb = true ∧
        u.getB (pgSout o) 0x064 (5 - d) = true :)
    ∧ (∀ (a t o : Nat) (s : State), (Instr.driveTick ([]) ([(o, a)]) t).wf = true → s.calm = true → s.now ≤ t → t % 3000 = 0 → s.ready (pgSoutD 0) = true → s.ready (pgSoutD 1) = true → o < 64 → (s.soutH o).dies.length = 2 → (s.soutH o).mem.length = 3 →
      Completes (.driveTick ([]) ([(o, a)]) t) s fun u => 
        ((u.soutH o).cur = (if 5000 ≤ a then true else if a ≤ 2000 then false else (s.soutH o).cur)) :)
    ∧ (∀ (dev : List (Nat × Nat × Nat)) (loads : List (Nat × Nat)) (t o d : Nat) (w : Writer) (s : State), (Instr.driveTick dev loads t).wf = true → s.calm = true → s.now ≤ t → t % 3000 = 0 → s.ready (pgSoutD 0) = true → s.ready (pgSoutD 1) = true → o < 64 → (s.soutH o).dies.length = 2 → (s.soutH o).mem.length = 3 → d < 2 → (s.soutH o).arrive = [] → (s.soutH o).writes = [(0x060, 4, w)] → ((s.soutH o).die d).st ≠ 0 → ((s.soutH o).die d).ptReq = none → ((s.soutH o).die d).test = none →
      Completes (.driveTick dev loads t) s fun u => 
        (((u.soutH o).die d).ptReq = some t ∨ ((u.soutH o).die d).test = some t) :)
    ∧ (∀ (o d t : Nat) (s : State), (Instr.tripDelay o d t).wf = true → s.calm = true → d < 2 → (s.soutH o).dies.length = 2 → ((s.soutH o).die d).st = 3 → (s.soutH o).dem = true → ((s.soutH o).die d).ds + s.rd (pgSout o) 0x048 * 10 * cyclesPerUs ≤ max s.now t →
      Completes (.tripDelay o d t) s fun u => 
        ((u.soutH o).die d).st = 4 ∧
        ((u.soutH o).die d).since = max s.now t ∧
        u.getB (pgSout o) 0x010 16 = true ∧
        (u.getB (pgSout o) 0x010 17 = true ∨ (d ≠ 0 ∧ s.ready (pgSoutD 0) = true)) ∧
        (u.soutH o).die (1 - d) = (s.soutH o).die (1 - d) ∧
        (∀ x, x ≠ o → u.soutH x = s.soutH x) ∧
        u.now = max s.now t ∧
        RegsOnly [pgSout o, pgSoutD 0, pgSoutD 1, pgBcp 1] s u ∧
        { u with regs := s.regs, now := s.now, hot := s.hot, souts := s.souts, log := s.log } = s :)
    ∧ (∀ (o d t : Nat) (s : State), (Instr.tripDelay o d t).wf = true → s.calm = true → d < 2 → (((s.soutH o).die d).st ≠ 3 ∨ (((s.soutH o).die d).relT = none ∧ ((s.soutH o).dem = false ∨ max s.now t < ((s.soutH o).die d).ds + s.rd (pgSout o) 0x048 * 10 * cyclesPerUs))) →
      Completes (.tripDelay o d t) s fun u => 
        u.souts = s.souts ∧
        u.regs = s.regs ∧
        u.now = max s.now t ∧
        { u with now := s.now, hot := s.hot } = s :)
    ∧ (∀ (o d t r : Nat) (s : State), (Instr.releaseDelay o d t).wf = true → s.calm = true → d < 2 → (s.soutH o).dies.length = 2 → ((s.soutH o).die d).st = 4 → (s.soutH o).dem = false → s.soCfg o 26 26 = 0 → ((s.soutH o).die d).relT = some r → r + s.rd (pgSout o) 0x04C * 10 * cyclesPerUs ≤ max s.now t →
      Completes (.releaseDelay o d t) s fun u => 
        ((u.soutH o).die d).st = 2 ∧
        ((u.soutH o).die d).since = max s.now t ∧
        u.getB (pgSout o) 0x010 16 = true ∧
        (u.soutH o).die (1 - d) = (s.soutH o).die (1 - d) ∧
        (∀ x, x ≠ o → u.soutH x = s.soutH x) ∧
        u.now = max s.now t ∧
        RegsOnly [pgSout o, pgSoutD 0, pgSoutD 1, pgBcp 1] s u ∧
        { u with regs := s.regs, now := s.now, hot := s.hot, souts := s.souts, log := s.log } = s :)
    ∧ (∀ (o d t : Nat) (s : State), (Instr.releaseDelay o d t).wf = true → s.calm = true → d < 2 → (((s.soutH o).die d).st ≠ 4 ∨ (s.soutH o).dem = true ∨ s.soCfg o 26 26 = 1 ∨ ((s.soutH o).die d).relT = none ∨ max s.now t < ((s.soutH o).die d).relT.getD 0 + s.rd (pgSout o) 0x04C * 10 * cyclesPerUs) →
      Completes (.releaseDelay o d t) s fun u => 
        u.souts = s.souts ∧
        u.regs = s.regs ∧
        u.now = max s.now t ∧
        { u with now := s.now, hot := s.hot } = s :)
    ∧ (∀ (o m t : Nat) (s : State), (Instr.memberNotFresh o m t).wf = true → s.calm = true → (s.soutH o).mem.length = 3 → ((s.soutH o).member m).fresh = true → (m < s.soCount o → ((s.soutH o).member m).got = true → ((s.soutH o).member m).t + s.soVage o ≤ max s.now t) →
      Completes (.memberNotFresh o m t) s fun u => 
        ((u.soutH o).member m).fresh = false ∧
        u.fld (pgSout o) 0x068 31 24 = min 0xFF (s.fld (pgSout o) 0x068 31 24 + 1) ∧
        u.getB (pgSout o) 0x010 18 = true ∧
        u.getB (pgSout o) 0x064 (22 + m) = false ∧
        (u.soutH o).dies = (s.soutH o).dies ∧
        (∀ x, x ≠ o → u.soutH x = s.soutH x) ∧
        u.now = max s.now t ∧
        RegsOnly [pgSout o, pgSoutD 0, pgSoutD 1] s u ∧
        { u with regs := s.regs, now := s.now, hot := s.hot, souts := s.souts } = s :)
    ∧ (∀ (o m t : Nat) (s : State), (Instr.memberNotFresh o m t).wf = true → s.calm = true → (s.soutH o).mem.length = 3 → ((s.soutH o).member m).fresh = true → m < s.soCount o → ((s.soutH o).member m).got = true → max s.now t < ((s.soutH o).member m).t + s.soVage o →
      Completes (.memberNotFresh o m t) s fun u => 
        (u.soutH o) = (s.soutH o) ∧
        (∀ x, x ≠ o → u.soutH x = s.soutH x) ∧
        u.now = max s.now t ∧
        RegsOnly [pgSout o, pgSoutD 0, pgSoutD 1] s u ∧
        { u with regs := s.regs, now := s.now, hot := s.hot, souts := s.souts } = s :)
    ∧ (∀ (o m t : Nat) (s : State), (Instr.memberNotFresh o m t).wf = true → s.calm = true → ((s.soutH o).member m).fresh = false →
      Completes (.memberNotFresh o m t) s fun u => 
        u.souts = s.souts ∧
        u.regs = s.regs ∧
        u.now = max s.now t ∧
        { u with now := s.now, hot := s.hot } = s :)
    ∧ (∀ (o t : Nat) (s : State), (Instr.multiplierTimeout o t).wf = true → s.calm = true → s.getB (pgSout o) 0x058 31 = true → (s.soutH o).multT + s.fld (pgSout o) 0x058 7 0 * cyclesPerS ≤ max s.now t →
      Completes (.multiplierTimeout o t) s fun u => 
        u.getB (pgSout o) 0x058 31 = false ∧
        (u.soutH o).multOut = true ∧
        u.getB (pgSout o) 0x010 22 = true ∧
        (u.soutH o).dies = (s.soutH o).dies ∧
        (∀ x, x ≠ o → u.soutH x = s.soutH x) ∧
        u.now = max s.now t ∧
        RegsOnly [pgSout o] s u ∧
        { u with regs := s.regs, now := s.now, hot := s.hot, souts := s.souts } = s :)
    ∧ (∀ (o t : Nat) (s : State), (Instr.multiplierTimeout o t).wf = true → s.calm = true → (s.getB (pgSout o) 0x058 31 = false ∨ max s.now t < (s.soutH o).multT + s.fld (pgSout o) 0x058 7 0 * cyclesPerS) →
      Completes (.multiplierTimeout o t) s fun u => 
        u.souts = s.souts ∧
        u.regs = s.regs ∧
        u.now = max s.now t ∧
        { u with now := s.now, hot := s.hot } = s :)
    ∧ (∀ (o d t : Nat) (s : State), (Instr.readbackMismatch o d t).wf = true → s.calm = true → d < 2 → (s.soutH o).dies.length = 2 → ((s.soutH o).die d).st ≠ 0 → ((s.soutH o).die d).test = none → ((s.soutH o).die d).cmdT + 100 * cyclesPerUs ≤ t →
      Completes (.readbackMismatch o d t) s fun u => 
        ((u.soutH o).die d).st = 5 ∧
        ((u.soutH o).die d).code = 1 + d ∧
        ((u.soutH o).die d).rb = !((s.soutH o).die d).cmd ∧
        (((s.soutH o).die d).st ≠ 5 → ((u.soutH o).die d).cmd = false ∧ u.getB (pgSout o) 0x010 16 = true) ∧
        (u.soutH o).die (1 - d) = (s.soutH o).die (1 - d) ∧
        (∀ x, x ≠ o → u.soutH x = s.soutH x) ∧
        u.now = max s.now t ∧
        RegsOnly [pgSout o, pgSoutD 0, pgSoutD 1, pgBcp 1] s u ∧
        { u with regs := s.regs, now := s.now, hot := s.hot, souts := s.souts, log := s.log } = s :)
    ∧ (∀ (o d t : Nat) (s : State), (Instr.readbackMismatch o d t).wf = true → s.calm = true → (((s.soutH o).die d).st = 0 ∨ ((s.soutH o).die d).test.isSome = true ∨ t < ((s.soutH o).die d).cmdT + 100 * cyclesPerUs) →
      Completes (.readbackMismatch o d t) s fun u => 
        u.souts = s.souts ∧
        u.regs = s.regs ∧
        u.now = max s.now t ∧
        { u with now := s.now, hot := s.hot } = s :)
    ∧ (∀ (o t : Nat) (s : State), (Instr.openload o t).wf = true → s.calm = true → (s.soutH o).dies.length = 2 → s.soCfg o 21 21 = 1 → ((s.soutH o).dies.all fun x => x.cmd && decide (x.cmdT + 100 * cyclesPerUs ≤ t)) = true →
      Completes (.openload o t) s fun u => 
        ((u.soutH o).dies.map (fun x => (x.st, x.code)) = (s.soutH o).dies.map (fun x => if x.st = 0 then (0, x.code) else (5, 3))) ∧
        (u.soutH o).cur = false ∧
        (∀ x, x ≠ o → u.soutH x = s.soutH x) ∧
        u.now = max s.now t ∧
        RegsOnly [pgSout o, pgSoutD 0, pgSoutD 1, pgBcp 1] s u ∧
        { u with regs := s.regs, now := s.now, hot := s.hot, souts := s.souts, log := s.log } = s :)
    ∧ (∀ (o t : Nat) (s : State), (Instr.openload o t).wf = true → s.calm = true → (s.soutH o).dies.length = 2 → (s.soCfg o 21 21 = 0 ∨ ((s.soutH o).dies.any fun x => !x.cmd || decide (t < x.cmdT + 100 * cyclesPerUs)) = true) →
      Completes (.openload o t) s fun u => 
        u.souts = s.souts ∧
        u.regs = s.regs ∧
        u.now = max s.now t ∧
        { u with now := s.now, hot := s.hot } = s :)
    ∧ (∀ (o t r : Nat) (s : State), (Instr.diverge o t).wf = true → s.calm = true → (s.soutH o).dies.length = 2 → (s.soutH o).div = some r → r + cyclesPerMs ≤ t →
      Completes (.diverge o t) s fun u => 
        ((u.soutH o).dies.map (fun x => (x.st, x.code)) = (s.soutH o).dies.map (fun x => if x.st = 0 then (0, x.code) else (5, 6))) ∧
        (∀ x, x ≠ o → u.soutH x = s.soutH x) ∧
        u.now = max s.now t ∧
        RegsOnly [pgSout o, pgSoutD 0, pgSoutD 1, pgBcp 1] s u ∧
        { u with regs := s.regs, now := s.now, hot := s.hot, souts := s.souts, log := s.log } = s :)
    ∧ (∀ (o t : Nat) (s : State), (Instr.diverge o t).wf = true → s.calm = true → ((s.soutH o).div.any fun r => decide (r + cyclesPerMs ≤ t)) = false →
      Completes (.diverge o t) s fun u => 
        u.souts = s.souts ∧
        u.regs = s.regs ∧
        u.now = max s.now t ∧
        { u with now := s.now, hot := s.hot } = s :)
    ∧ (∀ (d t : Nat) (s : State), (Instr.peer d t).wf = true → s.calm = true → d < 2 → s.ready (pgSoutD d) = true → ((List.range 64).all fun o => decide ((s.soutH o).dies.length = 2)) = true →
      Completes (.peer d t) s fun u => 
        ((List.range 64).all (fun o => ((u.soutH o).die d).st == (if ((s.soutH o).die d).st = 0 then 0 else 5) && ((u.soutH o).die d).code == (if ((s.soutH o).die d).st = 0 then ((s.soutH o).die d).code else 7) && (u.soutH o).die (1 - d) == (s.soutH o).die (1 - d)) = true) ∧
        u.getB (pgSoutD d) 0x040 31 = false ∧
        ({ u with regs := s.regs, now := s.now, hot := s.hot, souts := s.souts, log := s.log } = s) :)
    ∧ (∀ (d t : Nat) (s : State), (Instr.peer d t).wf = true → s.calm = true → d < 2 → s.ready (pgSoutD d) = false →
      Completes (.peer d t) s fun u => 
        u.souts = s.souts ∧
        u.regs = s.regs ∧
        u.now = max s.now t ∧
        { u with now := s.now, hot := s.hot } = s :)
    ∧ (∀ (d t : Nat) (s : State), (Instr.driveBlockFault d t).wf = true → s.calm = true → d < 2 → s.ready (pgSoutD d) = true → s.retired (pgSoutD d) = false → ((List.range 64).all fun o => decide ((s.soutH o).dies.length = 2)) = true →
      Completes (.driveBlockFault d t) s fun u => 
        ((List.range 64).all (fun o => ((u.soutH o).die d).st == (if ((s.soutH o).die d).st = 0 then 0 else 5) && ((u.soutH o).die d).code == (if ((s.soutH o).die d).st = 0 then ((s.soutH o).die d).code else 8) && !((u.soutH o).die d).rb && !(u.soutH o).cur && (u.soutH o).die (1 - d) == (s.soutH o).die (1 - d)) = true) ∧
        u.fld (pgSoutD d) 0x008 3 0 = 4 ∧
        u.fld (pgSoutD d) 0x008 15 8 = 8 ∧
        u.getB (pgSoutD d) 0x040 30 = false ∧
        u.getB (pgSoutD (1 - d)) 0x040 31 = false ∧
        ({ u with regs := s.regs, now := s.now, hot := s.hot, souts := s.souts, log := s.log } = s) :)
    ∧ (∀ (d t : Nat) (s : State), (Instr.driveBlockFault d t).wf = true → s.calm = true → d < 2 → s.ready (pgSoutD d) = false →
      Completes (.driveBlockFault d t) s fun u => 
        u.souts = s.souts ∧
        u.regs = s.regs ∧
        u.now = max s.now t ∧
        { u with now := s.now, hot := s.hot } = s :)

/-- A pulse test that is due or asked for starts where it is allowed, inverting this die’s switch; else it waits, and a wait past PERIOD counts LATE and raises bit 21; one neither due nor asked for, or already running, does not start. Its end after WIDTH passes or faults the output with code 4 or 5 of its die; before WIDTH, and with no test, nothing happens. RESET_TRIP, CLEAR_FAULT, PT_NOW and SOUT_BYP wait for the tick; those of a writer that is no checked core are counted FOREIGN. SOUT_FO_RESET clears the records of its groups; a switch in current limit reads back open and carries no current; an open one stays. Nothing else changes. -/
def Obligations.SoutTests : Prop :=
    (∀ (o d t : Nat) (s : State), (Instr.pulseTest o d t).wf = true → s.calm = true → d < 2 → (s.soutH o).dies.length = 2 → s.ready (pgSoutD d) = true → ((s.soutH o).die d).test = none → ((s.getB (pgSout o) 0x054 31 = true ∧ ((s.soutH o).die d).st ≠ 0 ∧ ((s.soutH o).die d).st ≠ 1 ∧ ((s.soutH o).die d).due ≤ max s.now t) ∨ ((s.soutH o).die d).ptReq.isSome = true) → ((((s.soutH o).die d).st = 2 ∨ ((s.soutH o).die d).st = 4) ∧ ((s.soutH o).die d).since + 10 * cyclesPerMs ≤ max s.now t ∧ ((s.soutH o).die (1 - d)).test = none ∧ ¬(d = 1 ∧ ((s.soutH o).die 0).ptReq.isSome = true)) →
      Completes (.pulseTest o d t) s fun u => 
        ((u.soutH o).die d).test = some (max s.now t) ∧
        ((u.soutH o).die d).st = ((s.soutH o).die d).st ∧
        (((u.soutH o).die d).cmd = !decide ((((s.soutH o).die d).st = 2) ↔ (s.soCfg o 29 29 = 0))) ∧
        (max s.now t < ((u.soutH o).die d).due ∨ ¬(s.getB (pgSout o) 0x054 31 = true ∧ ((s.soutH o).die d).st ≠ 0 ∧ ((s.soutH o).die d).st ≠ 1 ∧ ((s.soutH o).die d).due ≤ max s.now t)) ∧
        u.getB (pgSout o) 0x064 2 = true ∧
        (u.soutH o).die (1 - d) = (s.soutH o).die (1 - d) ∧
        (∀ x, x ≠ o → u.soutH x = s.soutH x) ∧
        u.now = max s.now t ∧
        RegsOnly [pgSout o, pgSoutD 0, pgSoutD 1] s u ∧
        { u with regs := s.regs, now := s.now, hot := s.hot, souts := s.souts } = s :)
    ∧ (∀ (o d t : Nat) (s : State), (Instr.pulseTest o d t).wf = true → s.calm = true → d < 2 → (s.soutH o).dies.length = 2 → s.ready (pgSoutD d) = true → ((s.soutH o).die d).test = none → ((s.getB (pgSout o) 0x054 31 = true ∧ ((s.soutH o).die d).st ≠ 0 ∧ ((s.soutH o).die d).st ≠ 1 ∧ ((s.soutH o).die d).due ≤ max s.now t) ∨ ((s.soutH o).die d).ptReq.isSome = true) → ¬((((s.soutH o).die d).st = 2 ∨ ((s.soutH o).die d).st = 4) ∧ ((s.soutH o).die d).since + 10 * cyclesPerMs ≤ max s.now t ∧ ((s.soutH o).die (1 - d)).test = none ∧ ¬(d = 1 ∧ ((s.soutH o).die 0).ptReq.isSome = true)) → ¬((s.getB (pgSout o) 0x054 31 = true ∧ ((s.soutH o).die d).st ≠ 0 ∧ ((s.soutH o).die d).st ≠ 1 ∧ ((s.soutH o).die d).due ≤ max s.now t) ∧ ((s.soutH o).die d).due + (max 1 (s.fld (pgSout o) 0x054 27 16) * cyclesPerS) ≤ max s.now t) → (((s.soutH o).die d).ptReq.any fun r => decide (r + (max 1 (s.fld (pgSout o) 0x054 27 16) * cyclesPerS) ≤ max s.now t)) = false →
      Completes (.pulseTest o d t) s fun u => 
        u.souts = s.souts ∧
        u.regs = s.regs ∧
        u.now = max s.now t ∧
        { u with now := s.now, hot := s.hot } = s :)
    ∧ (∀ (o d t : Nat) (s : State), (Instr.pulseTest o d t).wf = true → s.calm = true → d < 2 → (s.soutH o).dies.length = 2 → s.ready (pgSoutD d) = true → ((s.soutH o).die d).test = none → ¬((((s.soutH o).die d).st = 2 ∨ ((s.soutH o).die d).st = 4) ∧ ((s.soutH o).die d).since + 10 * cyclesPerMs ≤ max s.now t ∧ ((s.soutH o).die (1 - d)).test = none ∧ ¬(d = 1 ∧ ((s.soutH o).die 0).ptReq.isSome = true)) → (s.getB (pgSout o) 0x054 31 = true ∧ ((s.soutH o).die d).st ≠ 0 ∧ ((s.soutH o).die d).st ≠ 1 ∧ ((s.soutH o).die d).due ≤ max s.now t) → ((s.soutH o).die d).due + (max 1 (s.fld (pgSout o) 0x054 27 16) * cyclesPerS) ≤ max s.now t → (((s.soutH o).die d).ptReq.any fun r => decide (r + (max 1 (s.fld (pgSout o) 0x054 27 16) * cyclesPerS) ≤ max s.now t)) = false →
      Completes (.pulseTest o d t) s fun u => 
        ((u.soutH o).die d) = { ((s.soutH o).die d) with due := ((s.soutH o).die d).due + (max 1 (s.fld (pgSout o) 0x054 27 16) * cyclesPerS) } ∧
        u.fld (pgSout o) 0x06C 15 8 = min 255 (s.fld (pgSout o) 0x06C 15 8 + 1) ∧
        u.getB (pgSout o) 0x010 21 = true ∧
        (u.soutH o).die (1 - d) = (s.soutH o).die (1 - d) ∧
        (∀ x, x ≠ o → u.soutH x = s.soutH x) ∧
        u.now = max s.now t ∧
        RegsOnly [pgSout o] s u ∧
        { u with regs := s.regs, now := s.now, hot := s.hot, souts := s.souts } = s :)
    ∧ (∀ (o d t r : Nat) (s : State), (Instr.pulseTest o d t).wf = true → s.calm = true → d < 2 → (s.soutH o).dies.length = 2 → s.ready (pgSoutD d) = true → ((s.soutH o).die d).test = none → ¬((((s.soutH o).die d).st = 2 ∨ ((s.soutH o).die d).st = 4) ∧ ((s.soutH o).die d).since + 10 * cyclesPerMs ≤ max s.now t ∧ ((s.soutH o).die (1 - d)).test = none ∧ ¬(d = 1 ∧ ((s.soutH o).die 0).ptReq.isSome = true)) → ¬((s.getB (pgSout o) 0x054 31 = true ∧ ((s.soutH o).die d).st ≠ 0 ∧ ((s.soutH o).die d).st ≠ 1 ∧ ((s.soutH o).die d).due ≤ max s.now t) ∧ ((s.soutH o).die d).due + (max 1 (s.fld (pgSout o) 0x054 27 16) * cyclesPerS) ≤ max s.now t) → ((s.soutH o).die d).ptReq = some r → r + (max 1 (s.fld (pgSout o) 0x054 27 16) * cyclesPerS) ≤ max s.now t →
      Completes (.pulseTest o d t) s fun u => 
        ((u.soutH o).die d) = { ((s.soutH o).die d) with ptReq := some (r + (max 1 (s.fld (pgSout o) 0x054 27 16) * cyclesPerS)) } ∧
        u.fld (pgSout o) 0x06C 15 8 = min 255 (s.fld (pgSout o) 0x06C 15 8 + 1) ∧
        u.getB (pgSout o) 0x010 21 = true ∧
        (u.soutH o).die (1 - d) = (s.soutH o).die (1 - d) ∧
        (∀ x, x ≠ o → u.soutH x = s.soutH x) ∧
        u.now = max s.now t ∧
        RegsOnly [pgSout o] s u ∧
        { u with regs := s.regs, now := s.now, hot := s.hot, souts := s.souts } = s :)
    ∧ (∀ (o d t : Nat) (s : State), (Instr.pulseTest o d t).wf = true → s.calm = true → (s.ready (pgSoutD d) = false ∨ ((s.soutH o).die d).test.isSome = true ∨ (¬(s.getB (pgSout o) 0x054 31 = true ∧ ((s.soutH o).die d).st ≠ 0 ∧ ((s.soutH o).die d).st ≠ 1 ∧ ((s.soutH o).die d).due ≤ max s.now t) ∧ ((s.soutH o).die d).ptReq = none)) →
      Completes (.pulseTest o d t) s fun u => 
        u.souts = s.souts ∧
        u.regs = s.regs ∧
        u.now = max s.now t ∧
        { u with now := s.now, hot := s.hot } = s :)
    ∧ (∀ (o d t r : Nat) (s : State), (Instr.pulseTestEnd o d true t).wf = true → s.calm = true → d < 2 → (s.soutH o).dies.length = 2 → ((s.soutH o).die d).test = some r → r + s.fld (pgSout o) 0x054 6 0 * 10 * cyclesPerUs ≤ t →
      Completes (.pulseTestEnd o d true t) s fun u => 
        ((u.soutH o).die d).test = none ∧
        ((u.soutH o).die d).ptReq = none ∧
        ((u.soutH o).die d).st = ((s.soutH o).die d).st ∧
        u.fld (pgSout o) 0x06C (2 * d + 1) (2 * d) = 1 ∧
        u.fld (pgSout o) 0x06C 31 16 = min 0xFFFF (s.fld (pgSout o) 0x06C 31 16 + 1) ∧
        u.rd64 (pgSout o) 0x078 = max s.now t % 2 ^ 64 ∧
        (u.soutH o).die (1 - d) = (s.soutH o).die (1 - d) ∧
        (∀ x, x ≠ o → u.soutH x = s.soutH x) ∧
        u.now = max s.now t ∧
        RegsOnly [pgSout o, pgSoutD 0, pgSoutD 1] s u ∧
        { u with regs := s.regs, now := s.now, hot := s.hot, souts := s.souts } = s :)
    ∧ (∀ (o d t r : Nat) (s : State), (Instr.pulseTestEnd o d false t).wf = true → s.calm = true → d < 2 → (s.soutH o).dies.length = 2 → ((s.soutH o).die d).test = some r → ((s.soutH o).die d).st ≠ 0 → r + s.fld (pgSout o) 0x054 6 0 * 10 * cyclesPerUs ≤ t →
      Completes (.pulseTestEnd o d false t) s fun u => 
        ((u.soutH o).die d).test = none ∧
        ((u.soutH o).die d).st = 5 ∧
        ((u.soutH o).die d).code = 4 + d ∧
        u.fld (pgSout o) 0x06C (2 * d + 1) (2 * d) = 2 ∧
        u.getB (pgSout o) 0x010 21 = true ∧
        (u.soutH o).die (1 - d) = (s.soutH o).die (1 - d) ∧
        (∀ x, x ≠ o → u.soutH x = s.soutH x) ∧
        u.now = max s.now t ∧
        RegsOnly [pgSout o, pgSoutD 0, pgSoutD 1, pgBcp 1] s u ∧
        { u with regs := s.regs, now := s.now, hot := s.hot, souts := s.souts, log := s.log } = s :)
    ∧ (∀ (o d : Nat) (inverted : Bool) (t : Nat) (s : State), (Instr.pulseTestEnd o d inverted t).wf = true → s.calm = true → (((s.soutH o).die d).test.any fun r => decide (r + s.fld (pgSout o) 0x054 6 0 * 10 * cyclesPerUs ≤ t)) = false →
      Completes (.pulseTestEnd o d inverted t) s fun u => 
        u.souts = s.souts ∧
        u.regs = s.regs ∧
        u.now = max s.now t ∧
        { u with now := s.now, hot := s.hot } = s :)
    ∧ (∀ (w : Writer) (o t : Nat) (s : State), (Instr.resetTrip w o t).wf = true → s.calm = true → s.mayWrite w (pgSout o) .sout = true → s.powered (pgSout o) = true → (s.pageH (pgSout o)).resetting = false →
      Completes (.resetTrip w o t) s fun u => 
        (u.soutH o).writes = (s.soutH o).writes ++ [(0x060, 1, w)] ∧
        (u.soutH o).dies = (s.soutH o).dies ∧
        (∀ x, x ≠ o → u.soutH x = s.soutH x) ∧
        u.now = max s.now t ∧
        RegsOnly [] s u ∧
        { u with regs := s.regs, now := s.now, hot := s.hot, souts := s.souts } = s :)
    ∧ (∀ (w : Writer) (o t : Nat) (s : State), (Instr.resetTrip w o t).wf = true → s.calm = true → s.routePage w (pgSout o) = (pgSout o) → s.soutForeign w .sout none = true → (fromOuter w = false ∨ Kind.sout.owner ≠ 0x03) →
      Completes (.resetTrip w o t) s fun u => 
        u.fld (pgSout o) 0x068 23 16 = min 255 (s.fld (pgSout o) 0x068 23 16 + 1) ∧
        u.now = max s.now t ∧
        RegsOnly [(pgSout o)] s u ∧
        { u with regs := s.regs, now := s.now, hot := s.hot } = s :)
    ∧ (∀ (w : Writer) (o t : Nat) (s : State), (Instr.clearFault w o t).wf = true → s.calm = true → s.mayWrite w (pgSout o) .sout = true → s.powered (pgSout o) = true → (s.pageH (pgSout o)).resetting = false →
      Completes (.clearFault w o t) s fun u => 
        (u.soutH o).writes = (s.soutH o).writes ++ [(0x060, 2, w)] ∧
        (u.soutH o).dies = (s.soutH o).dies ∧
        (∀ x, x ≠ o → u.soutH x = s.soutH x) ∧
        u.now = max s.now t ∧
        RegsOnly [] s u ∧
        { u with regs := s.regs, now := s.now, hot := s.hot, souts := s.souts } = s :)
    ∧ (∀ (w : Writer) (o t : Nat) (s : State), (Instr.clearFault w o t).wf = true → s.calm = true → s.routePage w (pgSout o) = (pgSout o) → s.soutForeign w .sout none = true → (fromOuter w = false ∨ Kind.sout.owner ≠ 0x03) →
      Completes (.clearFault w o t) s fun u => 
        u.fld (pgSout o) 0x068 23 16 = min 255 (s.fld (pgSout o) 0x068 23 16 + 1) ∧
        u.now = max s.now t ∧
        RegsOnly [(pgSout o)] s u ∧
        { u with regs := s.regs, now := s.now, hot := s.hot } = s :)
    ∧ (∀ (w : Writer) (o t : Nat) (s : State), (Instr.ptNow w o t).wf = true → s.calm = true → s.mayWrite w (pgSout o) .sout = true → s.powered (pgSout o) = true → (s.pageH (pgSout o)).resetting = false →
      Completes (.ptNow w o t) s fun u => 
        (u.soutH o).writes = (s.soutH o).writes ++ [(0x060, 4, w)] ∧
        (u.soutH o).dies = (s.soutH o).dies ∧
        (∀ x, x ≠ o → u.soutH x = s.soutH x) ∧
        u.now = max s.now t ∧
        RegsOnly [] s u ∧
        { u with regs := s.regs, now := s.now, hot := s.hot, souts := s.souts } = s :)
    ∧ (∀ (w : Writer) (o t : Nat) (s : State), (Instr.ptNow w o t).wf = true → s.calm = true → s.routePage w (pgSout o) = (pgSout o) → s.soutForeign w .sout none = true → (fromOuter w = false ∨ Kind.sout.owner ≠ 0x03) →
      Completes (.ptNow w o t) s fun u => 
        u.fld (pgSout o) 0x068 23 16 = min 255 (s.fld (pgSout o) 0x068 23 16 + 1) ∧
        u.now = max s.now t ∧
        RegsOnly [(pgSout o)] s u ∧
        { u with regs := s.regs, now := s.now, hot := s.hot } = s :)
    ∧ (∀ (w : Writer) (o byp t : Nat) (s : State), (Instr.soutByp w o byp t).wf = true → s.calm = true → s.mayWrite w (pgSout o) .sout = true → s.powered (pgSout o) = true → (s.pageH (pgSout o)).resetting = false →
      Completes (.soutByp w o byp t) s fun u => 
        (u.soutH o).writes = (s.soutH o).writes ++ [(0x05C, byp, w)] ∧
        (u.soutH o).dies = (s.soutH o).dies ∧
        (∀ x, x ≠ o → u.soutH x = s.soutH x) ∧
        u.now = max s.now t ∧
        RegsOnly [] s u ∧
        { u with regs := s.regs, now := s.now, hot := s.hot, souts := s.souts } = s :)
    ∧ (∀ (w : Writer) (o byp t : Nat) (s : State), (Instr.soutByp w o byp t).wf = true → s.calm = true → s.routePage w (pgSout o) = (pgSout o) → s.soutForeign w .sout none = true → (fromOuter w = false ∨ Kind.sout.owner ≠ 0x03) →
      Completes (.soutByp w o byp t) s fun u => 
        u.fld (pgSout o) 0x068 23 16 = min 255 (s.fld (pgSout o) 0x068 23 16 + 1) ∧
        u.now = max s.now t ∧
        RegsOnly [(pgSout o)] s u ∧
        { u with regs := s.regs, now := s.now, hot := s.hot } = s :)
    ∧ (∀ (w : Writer) (d mask t : Nat) (s : State), (Instr.soutFoReset w d mask t).wf = true → s.calm = true → d < 2 → s.mayWrite w (pgSoutD d) .soutD = true → s.powered (pgSoutD d) = true → (s.pageH (pgSoutD d)).resetting = false →
      Completes (.soutFoReset w d mask t) s fun u => 
        (((List.range 15).all fun i => u.rd64 (pgSoutD d) (0x100 + 16 * i) == (if bit mask (i + 1) then 0 else s.rd64 (pgSoutD d) (0x100 + 16 * i)) && u.rd64 (pgSoutD d) (0x108 + 16 * i) == (if bit mask (i + 1) then 0 else s.rd64 (pgSoutD d) (0x108 + 16 * i))) = true) ∧
        u.now = max s.now t ∧
        RegsOnly [pgSoutD d] s u ∧
        { u with regs := s.regs, now := s.now, hot := s.hot } = s :)
    ∧ (∀ (w : Writer) (d mask t : Nat) (s : State), (Instr.soutFoReset w d mask t).wf = true → s.calm = true → d < 2 → s.routePage w (pgSoutD d) = pgSoutD d → s.soutForeign w .soutD none = true → (fromOuter w = false ∨ Kind.soutD.owner ≠ 0x03) →
      Completes (.soutFoReset w d mask t) s fun u => 
        u.souts = s.souts ∧
        u.regs = s.regs ∧
        u.now = max s.now t ∧
        { u with now := s.now, hot := s.hot } = s :)
    ∧ (∀ (o d t : Nat) (s : State), (Instr.switchCurrentLimit o d t).wf = true → s.calm = true → d < 2 → (s.soutH o).dies.length = 2 → ((s.soutH o).die d).cmd = true →
      Completes (.switchCurrentLimit o d t) s fun u => 
        ((u.soutH o).die d) = { ((s.soutH o).die d) with limited := true, rb := false } ∧
        (u.soutH o).cur = false ∧
        (u.soutH o).die (1 - d) = (s.soutH o).die (1 - d) ∧
        (∀ x, x ≠ o → u.soutH x = s.soutH x) ∧
        u.now = max s.now t ∧
        RegsOnly [pgSout o, pgSoutD 0, pgSoutD 1] s u ∧
        { u with regs := s.regs, now := s.now, hot := s.hot, souts := s.souts } = s :)
    ∧ (∀ (o d t : Nat) (s : State), (Instr.switchCurrentLimit o d t).wf = true → s.calm = true → ((s.soutH o).die d).cmd = false →
      Completes (.switchCurrentLimit o d t) s fun u => 
        u.souts = s.souts ∧
        u.regs = s.regs ∧
        u.now = max s.now t ∧
        { u with now := s.now, hot := s.hot } = s :)

/-- In a checked tile at work a cairn falls due after its interval, or early when the undo log, the journal or the output buffer fills, and takes its boundary once nothing is outstanding; held, recovering, draining and unchecked tiles have none. Its commit loads the shadow, drops what the boundary covers, lets the outputs go, applies the held writes, re-seats an outvoted copy, carries out a HALT that waited, counts, and starts a hand-over that waited; one failed self-test is counted, two retire the tile with code 2; a drained tile has its final cairn; a halted one none. An outvoted copy is recorded and counted, twice outvoted only once; a PAIR difference or a three-way one starts the recovery; a delay upset is counted or retires the tile with code 3; a third event within 10 ms retires it with code 1. A restore restarts the checked core from the shadow, undoes the logged writes and keeps the journal to replay; a spare takes over a retired tile from the shadow with its queues; ROTATE and UPDATE of Basecamp start a copy to a legal spare, show STATE 4 for another, and are refused after 100 ms; other writers’ are clamped. Where none of this applies, nothing changes. -/
def Obligations.TileCairns : Prop :=
    (∀ (tile t : Nat) (s : State), (Instr.cairnDue tile t).wf = true → s.calm = true → s.ready (pgTile tile) = true → (s.tileH tile).mode ≤ 1 → (s.tileH tile).work = true → (s.tileH tile).recovering = false → (s.tileH tile).draining = false → (s.tileH tile).halted.getD 0 false = false → (s.tileH tile).due = none → (s.tileH tile).bound = none → (s.tileH tile).lastDue + (s.tileH tile).ival * 64 ≤ t → ((s.tileH tile).copies.getD 0 {}).outstanding = false →
      Completes (.cairnDue tile t) s fun u => 
        (u.tileH tile) = { (s.tileH tile) with due := none, lastDue := t, bound := some ⟨((s.tileH tile).copies.getD 0 {}), (s.tileH tile).undo.length, (s.tileH tile).ocb.length, (s.tileH tile).jrn.length, (s.tileH tile).bundles, t⟩ } ∧
        (∀ x, x ≠ tile → u.tileH x = s.tileH x) ∧
        u.now = max s.now t ∧
        RegsOnly [pgTile tile, pgPmc tile] s u ∧
        { u with regs := s.regs, now := s.now, hot := s.hot, tiles := s.tiles, pmcT := s.pmcT } = s :)
    ∧ (∀ (tile t : Nat) (s : State), (Instr.cairnDue tile t).wf = true → s.calm = true → s.ready (pgTile tile) = true → (s.tileH tile).mode ≤ 1 → (s.tileH tile).work = true → (s.tileH tile).recovering = false → (s.tileH tile).draining = false → (s.tileH tile).halted.getD 0 false = false → (s.tileH tile).due = none → (s.tileH tile).lastDue + (s.tileH tile).ival * 64 ≤ t → (((s.tileH tile).copies.getD 0 {}).outstanding = true ∨ (s.tileH tile).bound.isSome = true) →
      Completes (.cairnDue tile t) s fun u => 
        (u.tileH tile) = { (s.tileH tile) with due := some t } ∧
        (∀ x, x ≠ tile → u.tileH x = s.tileH x) ∧
        u.now = max s.now t ∧
        RegsOnly [pgTile tile, pgPmc tile] s u ∧
        { u with regs := s.regs, now := s.now, hot := s.hot, tiles := s.tiles, pmcT := s.pmcT } = s :)
    ∧ (∀ (tile t d : Nat) (s : State), (Instr.cairnDue tile t).wf = true → s.calm = true → s.ready (pgTile tile) = true → (s.tileH tile).mode ≤ 1 → (s.tileH tile).work = true → (s.tileH tile).recovering = false → (s.tileH tile).draining = false → (s.tileH tile).halted.getD 0 false = false → (s.tileH tile).due = some d → (s.tileH tile).bound = none → ((s.tileH tile).copies.getD 0 {}).outstanding = false →
      Completes (.cairnDue tile t) s fun u => 
        (u.tileH tile) = { (s.tileH tile) with due := none, lastDue := d, bound := some ⟨((s.tileH tile).copies.getD 0 {}), (s.tileH tile).undo.length, (s.tileH tile).ocb.length, (s.tileH tile).jrn.length, (s.tileH tile).bundles, d⟩ } ∧
        (∀ x, x ≠ tile → u.tileH x = s.tileH x) ∧
        u.now = max s.now t ∧
        RegsOnly [pgTile tile, pgPmc tile] s u ∧
        { u with regs := s.regs, now := s.now, hot := s.hot, tiles := s.tiles, pmcT := s.pmcT } = s :)
    ∧ (∀ (tile t : Nat) (s : State), (Instr.cairnDue tile t).wf = true → s.calm = true → s.ready (pgTile tile) = true → (s.tileH tile).mode ≤ 1 → (s.tileH tile).work = true → (s.tileH tile).recovering = false → (s.tileH tile).draining = false → (s.tileH tile).halted.getD 0 false = false → (s.tileH tile).due = none → t < (s.tileH tile).lastDue + (s.tileH tile).ival * 64 → (s.tileH tile).undo.length < (s.tileH tile).logcap - 64 → (s.tileH tile).jrn.length < 192 → (s.tileH tile).ocb.length < 192 →
      Completes (.cairnDue tile t) s fun u => 
        u.tiles = s.tiles ∧
        u.regs = s.regs ∧
        u.mem = s.mem ∧
        u.now = max s.now t ∧
        { u with now := s.now, hot := s.hot } = s :)
    ∧ (∀ (tile t : Nat) (s : State), (Instr.cairnDue tile t).wf = true → s.calm = true → s.ready (pgTile tile) = true → (s.tileH tile).mode ≤ 1 → (s.tileH tile).work = true → (s.tileH tile).recovering = false → (s.tileH tile).draining = false → (s.tileH tile).halted.getD 0 false = false → (s.tileH tile).due = none → (s.tileH tile).bound = none → t < (s.tileH tile).lastDue + (s.tileH tile).ival * 64 → (s.tileH tile).logcap - 64 ≤ (s.tileH tile).undo.length → ((s.tileH tile).copies.getD 0 {}).outstanding = false →
      Completes (.cairnDue tile t) s fun u => 
        u.fld (pgTile tile) 0x05C 31 24 = min 255 (s.fld (pgTile tile) 0x05C 31 24 + 1) ∧
        (u.tileH tile).bound.isSome = true ∧
        (u.tileH tile).due = none ∧
        (u.tileH tile).lastDue = max s.now t ∧
        (∀ x, x ≠ tile → u.tileH x = s.tileH x) ∧
        u.now = max s.now t ∧
        RegsOnly [pgTile tile, pgPmc tile] s u ∧
        { u with regs := s.regs, now := s.now, hot := s.hot, tiles := s.tiles, pmcT := s.pmcT } = s :)
    ∧ (∀ (tile t : Nat) (s : State), (Instr.cairnDue tile t).wf = true → s.calm = true → s.ready (pgTile tile) = true → (s.tileH tile).mode ≤ 1 → (s.tileH tile).work = true → (s.tileH tile).recovering = false → (s.tileH tile).draining = false → (s.tileH tile).halted.getD 0 false = false → (s.tileH tile).due = none → (s.tileH tile).bound = none → t < (s.tileH tile).lastDue + (s.tileH tile).ival * 64 → (s.tileH tile).undo.length < (s.tileH tile).logcap - 64 → 192 ≤ (s.tileH tile).jrn.length → ((s.tileH tile).copies.getD 0 {}).outstanding = false →
      Completes (.cairnDue tile t) s fun u => 
        u.fld (pgTile tile) 0x05C 23 16 = min 255 (s.fld (pgTile tile) 0x05C 23 16 + 1) ∧
        (u.tileH tile).bound.isSome = true ∧
        (u.tileH tile).due = none ∧
        (∀ x, x ≠ tile → u.tileH x = s.tileH x) ∧
        u.now = max s.now t ∧
        RegsOnly [pgTile tile, pgPmc tile] s u ∧
        { u with regs := s.regs, now := s.now, hot := s.hot, tiles := s.tiles, pmcT := s.pmcT } = s :)
    ∧ (∀ (tile t : Nat) (s : State), (Instr.cairnDue tile t).wf = true → s.calm = true → s.ready (pgTile tile) = true → (s.tileH tile).mode ≤ 1 → (s.tileH tile).work = true → (s.tileH tile).recovering = false → (s.tileH tile).draining = false → (s.tileH tile).halted.getD 0 false = false → (s.tileH tile).due = none → (s.tileH tile).bound = none → t < (s.tileH tile).lastDue + (s.tileH tile).ival * 64 → (s.tileH tile).undo.length < (s.tileH tile).logcap - 64 → (s.tileH tile).jrn.length < 192 → 192 ≤ (s.tileH tile).ocb.length → ((s.tileH tile).copies.getD 0 {}).outstanding = false →
      Completes (.cairnDue tile t) s fun u => 
        u.fld (pgTile tile) 0x05C 15 8 = min 255 (s.fld (pgTile tile) 0x05C 15 8 + 1) ∧
        (u.tileH tile).bound.isSome = true ∧
        (u.tileH tile).due = none ∧
        (∀ x, x ≠ tile → u.tileH x = s.tileH x) ∧
        u.now = max s.now t ∧
        RegsOnly [pgTile tile, pgPmc tile] s u ∧
        { u with regs := s.regs, now := s.now, hot := s.hot, tiles := s.tiles, pmcT := s.pmcT } = s :)
    ∧ (∀ (tile t : Nat) (s : State), (Instr.cairnDue tile t).wf = true → s.calm = true → (s.ready (pgTile tile) = false ∨ 2 ≤ (s.tileH tile).mode ∨ (s.tileH tile).work = false ∨ (s.tileH tile).recovering = true ∨ (s.tileH tile).draining = true ∨ (s.tileH tile).halted.getD 0 false = true) →
      Completes (.cairnDue tile t) s fun u => 
        u.tiles = s.tiles ∧
        u.regs = s.regs ∧
        u.mem = s.mem ∧
        u.now = max s.now t ∧
        { u with now := s.now, hot := s.hot } = s :)
    ∧ (∀ (tile tst marked t : Nat) (b : BoundH) (s : State), (Instr.cairnCommit tile tst marked t).wf = true → s.calm = true → s.ready (pgTile tile) = true → (s.tileH tile).recovering = false → (s.tileH tile).halted.getD 0 false = false → (s.tileH tile).bound = some b → tst ≤ 1 → ((((s.tileH tile).outQ ++ (s.tileH tile).ocb.take b.ocb).all fun e => decide (e.kind ≤ 1) && (pageOfAddr e.addr).isNone && decide (e.size ≤ 64) && !stallsAt s tile e.addr) = true) →
      Completes (.cairnCommit tile tst marked t) s fun u => 
        (u.tileH tile).shadow = b.k.released b.ocb ∧
        ((u.tileH tile).undo = ((s.tileH tile).undo.drop b.undo).map fun e => (s.tileH tile).held.foldl UndoE.patch e) ∧
        (u.tileH tile).outQ = [] ∧
        (u.tileH tile).ocb = (s.tileH tile).ocb.drop b.ocb ∧
        (u.tileH tile).bundles = (s.tileH tile).bundles - b.bundles ∧
        (u.tileH tile).outvoted = none ∧
        (u.tileH tile).held = (s.tileH tile).heldWait.take 16 ∧
        (u.tileH tile).heldWait = (s.tileH tile).heldWait.drop 16 ∧
        (u.tileH tile).draining = ((s.tileH tile).draining || (s.tileH tile).handReq.isSome) ∧
        (u.tileH tile).haltWait = false ∧
        (u.tileH tile).handReq = (s.tileH tile).handReq ∧
        ((s.tileH tile).haltWait = true → (u.tileH tile).halted.getD 0 false = ((s.tileH tile).halted.length != 0) ∧ u.getB (pgTile tile) 0x0C4 31 = true) ∧
        ((s.tileH tile).haltWait = false → (u.tileH tile).halted = (s.tileH tile).halted) ∧
        u.rd64 (pgTile tile) 0x050 = (s.rd64 (pgTile tile) 0x050 + 1) % 2 ^ 64 ∧
        ((s.tileH tile).outvoted.isSome = true → u.fld (pgTile tile) 0x04C 29 28 = 0) ∧
        ((s.tileH tile).handReq.isSome = true → u.fld (pgTile tile) 0x04C 27 25 = 2) ∧
        (u.fld (pgTile tile) 0x064 31 24 = (if tst = 1 then min 255 (s.fld (pgTile tile) 0x064 31 24 + 1) else s.fld (pgTile tile) 0x064 31 24)) ∧
        (∀ x, x ≠ tile → u.tileH x = s.tileH x) :)
    ∧ (∀ (tile marked t : Nat) (b : BoundH) (s : State), (Instr.cairnCommit tile 0 marked t).wf = true → s.calm = true → s.ready (pgTile tile) = true → (s.tileH tile).recovering = false → (s.tileH tile).halted.getD 0 false = false → (s.tileH tile).bound = some b → b.ocb = 0 → (s.tileH tile).outQ = [] → (s.tileH tile).held = [] → (s.tileH tile).heldWait = [] → (s.tileH tile).outvoted = none → (s.tileH tile).handReq = none → (s.tileH tile).haltWait = false → (s.tileH tile).spare = none → (s.tileH tile).due = none → (s.tileH tile).undo.length < s.fld (pgTile tile) 0x040 15 5 - 64 → (s.tileH tile).jrn.length < 192 → (s.tileH tile).ocb.length < 192 →
      Completes (.cairnCommit tile 0 marked t) s fun u => 
        (u.tileH tile).shadow = b.k.released 0 ∧
        (u.tileH tile).undo = (s.tileH tile).undo.drop b.undo ∧
        ((u.tileH tile).jrn = ((s.tileH tile).jrn.drop b.jrn).map (fun e => { e with n := e.n - b.bundles })) ∧
        (u.tileH tile).bundles = (s.tileH tile).bundles - b.bundles ∧
        (u.tileH tile).bound = none ∧
        u.rd64 (pgTile tile) 0x050 = (s.rd64 (pgTile tile) 0x050 + 1) % 2 ^ 64 ∧
        ((u.tileH tile).copies.getD 0 {}).pc = ((s.tileH tile).copies.getD 0 {}).pc ∧
        (∀ x, x ≠ tile → u.tileH x = s.tileH x) ∧
        u.now = max s.now t ∧
        RegsOnly [pgTile tile, pgPmc tile] s u ∧
        { u with regs := s.regs, now := s.now, hot := s.hot, tiles := s.tiles, pmcT := s.pmcT } = s :)
    ∧ (∀ (tile marked t : Nat) (b : BoundH) (e : OcbE) (s : State), (Instr.cairnCommit tile 0 marked t).wf = true → s.calm = true → s.ready (pgTile tile) = true → (s.tileH tile).recovering = false → (s.tileH tile).halted.getD 0 false = false → (s.tileH tile).bound = some b → b.ocb = 1 → (s.tileH tile).outQ = [] → (s.tileH tile).held = [] → (s.tileH tile).spare = none → (s.tileH tile).ocb = [e] → e.kind = 0 → (e.size = 4 ∨ e.size = 8) → e.addr % e.size = 0 → e.pois = 0 → e.val < 256 ^ e.size → (clusterBase 0 ≤ e.addr ∧ e.addr < clusterBase 16) → !stallsAt s tile e.addr → s.usable e.addr 8 = true → bit ((s.upTo t).flipRegs (pgEccC ((e.addr - clusterBase 0) / 0x800000))).1 31 = false →
      Completes (.cairnCommit tile 0 marked t) s fun u => 
        u.peek e.addr e.size = e.val ∧
        (∀ a, ¬(e.addr ≤ a ∧ a < e.addr + e.size) → u.byte a = s.byte a) ∧
        (u.tileH tile).ocb = [] ∧
        (u.tileH tile).outQ = [] ∧
        (∀ x, x ≠ tile → u.tileH x = s.tileH x) :)
    ∧ (∀ (tile tst marked t : Nat) (b : BoundH) (s : State), (Instr.cairnCommit tile tst marked t).wf = true → s.calm = true → s.ready (pgTile tile) = true → (s.tileH tile).recovering = false → (s.tileH tile).halted.getD 0 false = false → (s.tileH tile).bound = some b → 2 ≤ tst →
      Completes (.cairnCommit tile tst marked t) s fun u => 
        u.retired (pgTile tile) = true ∧
        u.fld (pgTile tile) 0x008 15 8 = 2 ∧
        ((u.tileH tile).copies.all (fun k => !k.run) = true) ∧
        (u.tileH tile).ocb = [] ∧
        (u.tileH tile).bound = none ∧
        (∀ x, x ≠ tile → u.tileH x = s.tileH x) :)
    ∧ (∀ (tile marked t : Nat) (b : BoundH) (upd : Bool) (sp r : Nat) (s : State), (Instr.cairnCommit tile 0 marked t).wf = true → s.calm = true → s.ready (pgTile tile) = true → (s.tileH tile).recovering = false → (s.tileH tile).halted.getD 0 false = false → (s.tileH tile).bound = some b → b.ocb = 0 → (s.tileH tile).outQ = [] → (s.tileH tile).spare = some (upd, sp, r) → marked ≤ 256 → s.ready (pgTile sp) = true → sp / 8 = tile / 8 → sp ≠ tile → (s.tileH tile).mode ≤ 1 → s.workTile tile = tile →
      Completes (.cairnCommit tile 0 marked t) s fun u => 
        (u.tileH tile).work = false ∧
        (u.tileH tile).spare = none ∧
        (u.tileH sp).work = true ∧
        (u.tileH sp).mode = (s.tileH tile).mode ∧
        ((u.tileH sp).copies.getD 0 {}).cold 0 = (b.k.released 0).cold 0 ∧
        (u.tileH sp).spare = none ∧
        u.workTile tile = sp ∧
        u.getB (pgTile tile) 0x040 29 = true ∧
        u.fld (pgTile tile) 0x0A4 31 29 = 3 ∧
        u.fld (pgTile sp) 0x04C 21 14 = 128 + tile ∧
        u.getB (pgTile tile) 0x010 18 = true ∧
        u.getB (pgTile sp) 0x010 18 = true :)
    ∧ (∀ (tile marked t : Nat) (b : BoundH) (upd : Bool) (sp r : Nat) (s : State), (Instr.cairnCommit tile 0 marked t).wf = true → s.calm = true → s.ready (pgTile tile) = true → (s.tileH tile).recovering = false → (s.tileH tile).halted.getD 0 false = false → (s.tileH tile).bound = some b → b.ocb = 0 → (s.tileH tile).outQ = [] → (s.tileH tile).spare = some (upd, sp, r) → 256 < marked →
      Completes (.cairnCommit tile 0 marked t) s fun u => 
        (u.tileH tile).spare = some (upd, sp, r) ∧
        (u.tileH tile).shadow = b.k.released 0 ∧
        (u.tileH tile).work = (s.tileH tile).work ∧
        (∀ x, x ≠ tile → u.tileH x = s.tileH x) :)
    ∧ (∀ (tile marked t m : Nat) (s : State), (Instr.cairnCommit tile 0 marked t).wf = true → s.calm = true → s.ready (pgTile tile) = true → (s.tileH tile).recovering = false → (s.tileH tile).halted.getD 0 false = false → (s.tileH tile).mode ≤ 1 → (s.tileH tile).bound = none → (s.tileH tile).drained = true → (s.tileH tile).final = false → (s.tileH tile).handReq = some m → (s.tileH tile).haltWait = false → (s.tileH tile).ocb = [] → (s.tileH tile).outQ = [] →
      Completes (.cairnCommit tile 0 marked t) s fun u => 
        (u.tileH tile).final = true ∧
        (u.tileH tile).handReq = some m ∧
        (u.tileH tile).draining = true ∧
        (u.tileH tile).undo = [] ∧
        (u.tileH tile).jrn = [] ∧
        (u.tileH tile).bundles = 0 ∧
        (u.tileH tile).bound = none ∧
        (u.tileH tile).due = none ∧
        u.rd64 (pgTile tile) 0x050 = (s.rd64 (pgTile tile) 0x050 + 1) % 2 ^ 64 ∧
        (∀ x, x ≠ tile → u.tileH x = s.tileH x) :)
    ∧ (∀ (tile tst marked t : Nat) (s : State), (Instr.cairnCommit tile tst marked t).wf = true → s.calm = true → (s.ready (pgTile tile) = false ∨ (s.tileH tile).recovering = true ∨ (s.tileH tile).halted.getD 0 false = true ∨ ((s.tileH tile).bound = none ∧ (2 ≤ (s.tileH tile).mode ∨ (s.tileH tile).drained = false ∨ (s.tileH tile).final = true))) →
      Completes (.cairnCommit tile tst marked t) s fun u => 
        u.tiles = s.tiles ∧
        u.regs = s.regs ∧
        u.mem = s.mem ∧
        u.now = max s.now t ∧
        { u with now := s.now, hot := s.hot } = s :)
    ∧ (∀ (tile cls mino off t : Nat) (s : State), (Instr.mismatch tile (.item cls mino none) off t).wf = true → s.calm = true → s.ready (pgTile tile) = true → (s.tileH tile).work = true → (s.tileH tile).recovering = false → (s.tileH tile).mode = 0 → mino < 3 → (s.tileH tile).outvoted ≠ some mino → ((s.tileH tile).events.filter fun e => decide (max s.now t < e + 10 * cyclesPerMs)).length < 2 →
      Completes (.mismatch tile (.item cls mino none) off t) s fun u => 
        ((u.tileH tile) = { (s.tileH tile) with outvoted := some mino, events := (max s.now t) :: (s.tileH tile).events.filter fun e => decide (max s.now t < e + 10 * cyclesPerMs) }) ∧
        u.fld (pgTile tile) 0x058 15 0 = min 0xFFFF (s.fld (pgTile tile) 0x058 15 0 + 1) ∧
        u.fld (pgTile tile) 0x060 31 28 = cls % 16 ∧
        u.fld (pgTile tile) 0x060 27 26 = mino ∧
        u.fld (pgTile tile) 0x060 25 0 = min off (2 ^ 26 - 1) ∧
        (mino = 0 → u.fld (pgTile tile) 0x04C 29 28 = 1) ∧
        u.getB (pgTile tile) 0x010 16 = true ∧
        (∀ x, x ≠ tile → u.tileH x = s.tileH x) ∧
        u.now = max s.now t ∧
        RegsOnly [pgTile tile, pgPmc tile] s u ∧
        { u with regs := s.regs, now := s.now, hot := s.hot, tiles := s.tiles, pmcT := s.pmcT } = s :)
    ∧ (∀ (tile cls mino off t : Nat) (s : State), (Instr.mismatch tile (.item cls mino none) off t).wf = true → s.calm = true → s.ready (pgTile tile) = true → (s.tileH tile).work = true → (s.tileH tile).recovering = false → (s.tileH tile).mode = 0 → mino < 3 → (s.tileH tile).outvoted = some mino →
      Completes (.mismatch tile (.item cls mino none) off t) s fun u => 
        u.tiles = s.tiles ∧
        u.regs = s.regs ∧
        u.now = max s.now t ∧
        { u with now := s.now, hot := s.hot } = s :)
    ∧ (∀ (tile cls mino off t : Nat) (s : State), (Instr.mismatch tile (.item cls mino none) off t).wf = true → s.calm = true → s.ready (pgTile tile) = true → (s.tileH tile).work = true → (s.tileH tile).recovering = false → (s.tileH tile).mode ≤ 1 → ((s.tileH tile).mode = 1 ∨ 3 ≤ mino) → ((s.tileH tile).events.filter fun e => decide (max s.now t < e + 10 * cyclesPerMs)).length < 2 →
      Completes (.mismatch tile (.item cls mino none) off t) s fun u => 
        (u.tileH tile).recovering = true ∧
        (u.tileH tile).ocb = [] ∧
        (u.tileH tile).bound = none ∧
        (u.tileH tile).due = none ∧
        (u.tileH tile).undo = (s.tileH tile).undo ∧
        (u.tileH tile).jrn = (s.tileH tile).jrn ∧
        u.fld (pgTile tile) 0x058 31 16 = min 0xFFFF (s.fld (pgTile tile) 0x058 31 16 + 1) ∧
        (u.fld (pgTile tile) 0x060 31 28 = (if (s.tileH tile).mode = 0 then 8 else cls % 16)) ∧
        u.fld (pgTile tile) 0x060 27 26 = 3 ∧
        u.getB (pgTile tile) 0x010 16 = true ∧
        (∀ x, x ≠ tile → u.tileH x = s.tileH x) ∧
        u.now = max s.now t ∧
        RegsOnly [pgTile tile, pgPmc tile] s u ∧
        { u with regs := s.regs, now := s.now, hot := s.hot, tiles := s.tiles, pmcT := s.pmcT } = s :)
    ∧ (∀ (tile cls mino off t : Nat) (s : State), (Instr.mismatch tile (.item cls mino none) off t).wf = true → s.calm = true → s.ready (pgTile tile) = true → (s.tileH tile).work = true → (s.tileH tile).recovering = false → (s.tileH tile).mode ≤ 1 → ¬((s.tileH tile).mode = 0 ∧ mino < 3 ∧ (s.tileH tile).outvoted = some mino) → 2 ≤ ((s.tileH tile).events.filter fun e => decide (max s.now t < e + 10 * cyclesPerMs)).length →
      Completes (.mismatch tile (.item cls mino none) off t) s fun u => 
        u.retired (pgTile tile) = true ∧
        u.fld (pgTile tile) 0x008 15 8 = 1 ∧
        ((u.tileH tile).copies.all (fun k => !k.run) = true) ∧
        (u.tileH tile).ocb = [] ∧
        (u.tileH tile).recovering = false ∧
        (∀ x, x ≠ tile → u.tileH x = s.tileH x) :)
    ∧ (∀ (tile cls mino off t : Nat) (s : State), (Instr.mismatch tile (.item cls mino (some true)) off t).wf = true → s.calm = true → s.ready (pgTile tile) = true → (s.tileH tile).work = true → (s.tileH tile).recovering = false → (s.tileH tile).mode ≤ 1 → ((s.tileH tile).events.filter fun e => decide (max s.now t < e + 10 * cyclesPerMs)).length < 2 →
      Completes (.mismatch tile (.item cls mino (some true)) off t) s fun u => 
        u.fld (pgTile tile) 0x064 15 8 = min 255 (s.fld (pgTile tile) 0x064 15 8 + 1) ∧
        u.getB (pgTile tile) 0x010 19 = true ∧
        (u.tileH tile).recovering = ((s.tileH tile).mode == 1 || decide (3 ≤ mino)) ∧
        (∀ x, x ≠ tile → u.tileH x = s.tileH x) ∧
        u.now = max s.now t ∧
        RegsOnly [pgTile tile, pgPmc tile] s u ∧
        { u with regs := s.regs, now := s.now, hot := s.hot, tiles := s.tiles, pmcT := s.pmcT } = s :)
    ∧ (∀ (tile cls mino off t : Nat) (s : State), (Instr.mismatch tile (.item cls mino (some false)) off t).wf = true → s.calm = true → s.ready (pgTile tile) = true → (s.tileH tile).work = true → (s.tileH tile).recovering = false → (s.tileH tile).mode ≤ 1 → ((s.tileH tile).events.filter fun e => decide (max s.now t < e + 10 * cyclesPerMs)).length < 2 →
      Completes (.mismatch tile (.item cls mino (some false)) off t) s fun u => 
        u.retired (pgTile tile) = true ∧
        u.fld (pgTile tile) 0x008 15 8 = 2 ∧
        ((u.tileH tile).copies.all (fun k => !k.run) = true) ∧
        (∀ x, x ≠ tile → u.tileH x = s.tileH x) :)
    ∧ (∀ (tile off t : Nat) (s : State), (Instr.mismatch tile (.delay true) off t).wf = true → s.calm = true → s.ready (pgTile tile) = true → (s.tileH tile).work = true → (s.tileH tile).recovering = false → (s.tileH tile).mode ≤ 1 →
      Completes (.mismatch tile (.delay true) off t) s fun u => 
        u.fld (pgTile tile) 0x064 23 16 = min 255 (s.fld (pgTile tile) 0x064 23 16 + 1) ∧
        u.getB (pgTile tile) 0x010 19 = true ∧
        u.tiles = s.tiles ∧
        u.now = max s.now t ∧
        RegsOnly [pgTile tile] s u ∧
        { u with regs := s.regs, now := s.now, hot := s.hot } = s :)
    ∧ (∀ (tile off t : Nat) (s : State), (Instr.mismatch tile (.delay false) off t).wf = true → s.calm = true → s.ready (pgTile tile) = true → (s.tileH tile).work = true → (s.tileH tile).recovering = false → (s.tileH tile).mode ≤ 1 →
      Completes (.mismatch tile (.delay false) off t) s fun u => 
        u.retired (pgTile tile) = true ∧
        u.fld (pgTile tile) 0x008 15 8 = 3 ∧
        ((u.tileH tile).copies.all (fun k => !k.run) = true) ∧
        (∀ x, x ≠ tile → u.tileH x = s.tileH x) :)
    ∧ (∀ (tile : Nat) (up : Upset) (off t : Nat) (s : State), (Instr.mismatch tile up off t).wf = true → s.calm = true → (s.ready (pgTile tile) = false ∨ 2 ≤ (s.tileH tile).mode ∨ (s.tileH tile).work = false ∨ (s.tileH tile).recovering = true) →
      Completes (.mismatch tile up off t) s fun u => 
        u.tiles = s.tiles ∧
        u.regs = s.regs ∧
        u.now = max s.now t ∧
        { u with now := s.now, hot := s.hot } = s :)
    ∧ (∀ (tile t : Nat) (s : State), (Instr.restoreComplete tile t).wf = true → s.calm = true → (s.tileH tile).recovering = true → (s.tileH tile).copies.length = 3 → (s.tileH tile).halted.length = 3 → ((s.tileH tile).undo.all fun e => s.usable e.addr 8) = true →
      Completes (.restoreComplete tile t) s fun u => 
        (u.tileH tile).copies.getD 0 {} = (s.tileH tile).shadow.restored (max s.now t) ∧
        (u.tileH tile).copies.drop 1 = (s.tileH tile).copies.drop 1 ∧
        (u.tileH tile).recovering = false ∧
        (u.tileH tile).replay = (s.tileH tile).jrn ++ (s.tileH tile).replay ∧
        (u.tileH tile).undo = [] ∧
        (u.tileH tile).jrn = [] ∧
        (u.tileH tile).bundles = 0 ∧
        (u.tileH tile).outvoted = none ∧
        (u.tileH tile).halted = setAt (s.tileH tile).halted 0 false ∧
        u.fld (pgTile tile) 0x04C 29 28 = 0 ∧
        (∀ x, x ≠ tile → u.tileH x = s.tileH x) ∧
        ((s.tileH tile).undo = [] → u.mem = s.mem) :)
    ∧ (∀ (tile t : Nat) (e f : UndoE) (s : State), (Instr.restoreComplete tile t).wf = true → s.calm = true → (s.tileH tile).recovering = true → (s.tileH tile).undo = [e, f] → e.addr % 8 = 0 → f.addr = e.addr → e.old < 2 ^ 64 → tileBase tile ≤ e.addr → e.addr + 8 ≤ tileBase (tile + 1) → s.usable e.addr 8 = true → bit ((s.upTo t).flipRegs (pgEccT tile)).1 31 = false →
      Completes (.restoreComplete tile t) s fun u => 
        u.peek e.addr 8 = e.old ∧
        (e.pois = 0 → u.poisCopies e.addr = 0) ∧
        (∀ a, ¬(e.addr ≤ a ∧ a < e.addr + 8) → u.byte a = s.byte a) :)
    ∧ (∀ (tile t : Nat) (s : State), (Instr.restoreComplete tile t).wf = true → s.calm = true → (s.tileH tile).recovering = false →
      Completes (.restoreComplete tile t) s fun u => 
        u.tiles = s.tiles ∧
        u.regs = s.regs ∧
        u.mem = s.mem ∧
        u.now = max s.now t ∧
        { u with now := s.now, hot := s.hot } = s :)
    ∧ (∀ (tile t b : Nat) (s : State), (Instr.takeOver tile t).wf = true → s.calm = true → s.retired (pgTile tile) = true → s.getB (pgTile tile) 0x040 29 = false → (s.tileH tile).work = true → s.readySpare tile = some b → s.workTile tile = tile →
      Completes (.takeOver tile t) s fun u => 
        (u.tileH tile).work = false ∧
        (u.tileH tile).rq = [] ∧
        (u.tileH b).work = true ∧
        (u.tileH b).mode = (s.tileH tile).mode ∧
        ((s.tileH tile).mode ≤ 1 → ((u.tileH b).copies.getD 0 {}).cold 0 = (s.tileH tile).shadow.cold 0) ∧
        (u.tileH b).rq = ((s.tileH tile).rq ++ (s.tileH b).rq).take 32 ∧
        (u.tileH b).mbox = ((s.tileH tile).mbox ++ (s.tileH b).mbox).take 16 ∧
        u.workTile tile = b ∧
        u.getB (pgTile b) 0x010 18 = true ∧
        u.fld (pgTile b) 0x04C 21 14 = 128 + tile ∧
        (∀ x, x / 8 ≠ tile / 8 → u.tileH x = s.tileH x) :)
    ∧ (∀ (tile t : Nat) (s : State), (Instr.takeOver tile t).wf = true → s.calm = true → (s.retired (pgTile tile) = false ∨ s.getB (pgTile tile) 0x040 29 = true ∨ (s.tileH tile).work = false ∨ s.readySpare tile = none) →
      Completes (.takeOver tile t) s fun u => 
        u.tiles = s.tiles ∧
        u.regs = s.regs ∧
        u.mem = s.mem ∧
        u.now = max s.now t ∧
        { u with now := s.now, hot := s.hot } = s :)
    ∧ (∀ (tile sp t : Nat) (s : State), (Instr.rotate .basecamp tile sp t).wf = true → s.calm = true → s.powered (pgTile tile) = true → (s.pageH (pgTile tile)).resetting = false → s.routePage .basecamp (pgTile tile) = (pgTile tile) → (sp / 8 = tile / 8 ∧ sp ≠ tile ∧ s.ready (pgTile sp) = true ∧ s.getB (pgTile sp) 0x040 29 = true ∧ (s.tileH tile).work = true ∧ s.ready (pgTile tile) = true) →
      Completes (.rotate .basecamp tile sp t) s fun u => 
        (u.tileH tile) = { (s.tileH tile) with spare := some (false, sp, max s.now t) } ∧
        u.fld (pgTile tile) 0x0A4 31 29 = 1 ∧
        u.fld (pgTile tile) 0x0A4 6 0 = sp ∧
        (∀ x, x ≠ tile → u.tileH x = s.tileH x) ∧
        u.now = max s.now t ∧
        RegsOnly [pgTile tile] s u ∧
        { u with regs := s.regs, now := s.now, hot := s.hot, tiles := s.tiles } = s :)
    ∧ (∀ (tile sp t : Nat) (s : State), (Instr.rotate .basecamp tile sp t).wf = true → s.calm = true → s.powered (pgTile tile) = true → (s.pageH (pgTile tile)).resetting = false → s.routePage .basecamp (pgTile tile) = (pgTile tile) → ¬(sp / 8 = tile / 8 ∧ sp ≠ tile ∧ s.ready (pgTile sp) = true ∧ s.getB (pgTile sp) 0x040 29 = true ∧ (s.tileH tile).work = true ∧ s.ready (pgTile tile) = true) →
      Completes (.rotate .basecamp tile sp t) s fun u => 
        u.tiles = s.tiles ∧
        u.fld (pgTile tile) 0x0A4 31 29 = 4 ∧
        u.fld (pgTile tile) 0x0A4 6 0 = sp ∧
        u.now = max s.now t ∧
        RegsOnly [pgTile tile] s u ∧
        { u with regs := s.regs, now := s.now, hot := s.hot } = s :)
    ∧ (∀ (w : Writer) (tile sp t : Nat) (s : State), (Instr.rotate w tile sp t).wf = true → s.calm = true → s.powered (pgTile tile) = true → (s.pageH (pgTile tile)).resetting = false → s.mayWrite w (pgTile tile) .tile = true → w ≠ .basecamp →
      Completes (.rotate w tile sp t) s fun u => 
        u.tiles = s.tiles ∧
        u.rd (pgTile tile) 0x0A4 = s.rd (pgTile tile) 0x0A4 ∧
        u.fld (pgTile tile) 0x018 31 16 = min 0xFFFF (s.fld (pgTile tile) 0x018 31 16 + 1) ∧
        u.now = max s.now t ∧
        RegsOnly [pgTile tile] s u ∧
        { u with regs := s.regs, now := s.now, hot := s.hot } = s :)
    ∧ (∀ (tile sp t : Nat) (s : State), (Instr.update .basecamp tile sp t).wf = true → s.calm = true → s.powered (pgTile tile) = true → (s.pageH (pgTile tile)).resetting = false → s.routePage .basecamp (pgTile tile) = (pgTile tile) → (sp / 8 = tile / 8 ∧ sp ≠ tile ∧ s.ready (pgTile sp) = true ∧ s.getB (pgTile sp) 0x040 29 = true ∧ (s.tileH tile).work = true ∧ s.ready (pgTile tile) = true) →
      Completes (.update .basecamp tile sp t) s fun u => 
        (u.tileH tile) = { (s.tileH tile) with spare := some (true, sp, max s.now t) } ∧
        u.fld (pgTile tile) 0x0A4 31 29 = 1 ∧
        u.fld (pgTile tile) 0x0A4 6 0 = sp ∧
        (∀ x, x ≠ tile → u.tileH x = s.tileH x) ∧
        u.now = max s.now t ∧
        RegsOnly [pgTile tile] s u ∧
        { u with regs := s.regs, now := s.now, hot := s.hot, tiles := s.tiles } = s :)
    ∧ (∀ (tile sp t : Nat) (s : State), (Instr.update .basecamp tile sp t).wf = true → s.calm = true → s.powered (pgTile tile) = true → (s.pageH (pgTile tile)).resetting = false → s.routePage .basecamp (pgTile tile) = (pgTile tile) → ¬(sp / 8 = tile / 8 ∧ sp ≠ tile ∧ s.ready (pgTile sp) = true ∧ s.getB (pgTile sp) 0x040 29 = true ∧ (s.tileH tile).work = true ∧ s.ready (pgTile tile) = true) →
      Completes (.update .basecamp tile sp t) s fun u => 
        u.tiles = s.tiles ∧
        u.fld (pgTile tile) 0x0A4 31 29 = 4 ∧
        u.fld (pgTile tile) 0x0A4 6 0 = sp ∧
        u.now = max s.now t ∧
        RegsOnly [pgTile tile] s u ∧
        { u with regs := s.regs, now := s.now, hot := s.hot } = s :)
    ∧ (∀ (w : Writer) (tile sp t : Nat) (s : State), (Instr.update w tile sp t).wf = true → s.calm = true → s.powered (pgTile tile) = true → (s.pageH (pgTile tile)).resetting = false → s.mayWrite w (pgTile tile) .tile = true → w ≠ .basecamp →
      Completes (.update w tile sp t) s fun u => 
        u.tiles = s.tiles ∧
        u.rd (pgTile tile) 0x0A4 = s.rd (pgTile tile) 0x0A4 ∧
        u.fld (pgTile tile) 0x018 31 16 = min 0xFFFF (s.fld (pgTile tile) 0x018 31 16 + 1) ∧
        u.now = max s.now t ∧
        RegsOnly [pgTile tile] s u ∧
        { u with regs := s.regs, now := s.now, hot := s.hot } = s :)
    ∧ (∀ (tile t : Nat) (b : Bool) (sp r : Nat) (s : State), (Instr.spareRefused tile t).wf = true → s.calm = true → (s.tileH tile).spare = some (b, sp, r) → r + 100 * cyclesPerMs ≤ t →
      Completes (.spareRefused tile t) s fun u => 
        (u.tileH tile) = { (s.tileH tile) with spare := none } ∧
        u.fld (pgTile tile) 0x0A4 31 29 = 4 ∧
        (∀ x, x ≠ tile → u.tileH x = s.tileH x) ∧
        u.now = max s.now t ∧
        RegsOnly [pgTile tile] s u ∧
        { u with regs := s.regs, now := s.now, hot := s.hot, tiles := s.tiles } = s :)
    ∧ (∀ (tile t : Nat) (s : State), (Instr.spareRefused tile t).wf = true → s.calm = true → ((s.tileH tile).spare.any fun x => decide (x.2.2 + 100 * cyclesPerMs ≤ t)) = false →
      Completes (.spareRefused tile t) s fun u => 
        u.tiles = s.tiles ∧
        u.regs = s.regs ∧
        u.mem = s.mem ∧
        u.now = max s.now t ∧
        { u with now := s.now, hot := s.hot } = s :)

/-- A TILE_CFG write of a mode, by another tile only of another mode, asks a working tile for the hand-over, at once in SPLIT and FORERUNNER and by the tile itself, else at the next commit; an idle tile takes the register alone. A drained tile ends its hand-over in the new mode, its copies as the entry records or FORERUNNER start them, or keeps the old one with result 2, after the final cairn of a checked one; an undrained, recovering or halted one waits. A mailbox write appends for the tile that carries the work, a full mailbox counts and drops, a poisoned word is counted; a read of TILE_MBOX_OUT and of TILE_RQ1 takes the head, an empty queue reads 0. A tag write sets the tag of its granule and of no other, and no byte, or waits among the held writes of a checked tile; a writer who is no debugger is counted. An external reply lands in the stack entries the read named: from the journal, from the buffered write that covered it or from outside; it waits for a commit that must release a write before it, for the memory it reads and through a recovery. -/
def Obligations.TileModes : Prop :=
    (∀ (w : Writer) (tile v t : Nat) (s : State), (Instr.modeHandOver w tile v t).wf = true → s.calm = true → s.powered (pgTile tile) = true → (s.pageH (pgTile tile)).resetting = false → s.mayWrite w (pgTile tile) .tile = true → s.ready (pgTile tile) = true → (s.tileH tile).work = true → s.locked (pgTile tile) = false → ((match (w : Writer) with | .tile _ _ => true | _ => false) = false ∨ (if (s.tileH tile).fore then 3 else if bits v 31 30 = 3 then (s.tileH tile).mode else bits v 31 30) ≠ (s.tileH tile).mode) →
      Completes (.modeHandOver w tile v t) s fun u => 
        ((u.tileH tile) = { (s.tileH tile) with handReq := some (if (s.tileH tile).fore then 3 else if bits v 31 30 = 3 then (s.tileH tile).mode else bits v 31 30), draining := ((s.tileH tile).draining || (match (w : Writer) with | .tile x _ => x == tile | _ => false) || decide (2 ≤ (s.tileH tile).mode)) }) ∧
        (u.fld (pgTile tile) 0x04C 27 25 = (if (match (w : Writer) with | .tile x _ => x == tile | _ => false) = true ∨ 2 ≤ (s.tileH tile).mode then 2 else 1)) ∧
        (∀ x, x ≠ tile → u.tileH x = s.tileH x) :)
    ∧ (∀ (w : Writer) (tile v t : Nat) (s : State), (Instr.modeHandOver w tile v t).wf = true → s.calm = true → s.powered (pgTile tile) = true → (s.pageH (pgTile tile)).resetting = false → s.mayWrite w (pgTile tile) .tile = true → s.locked (pgTile tile) = false → (s.ready (pgTile tile) = false ∨ (s.tileH tile).work = false ∨ ((match (w : Writer) with | .tile _ _ => true | _ => false) = true ∧ (if (s.tileH tile).fore then 3 else if bits v 31 30 = 3 then (s.tileH tile).mode else bits v 31 30) = (s.tileH tile).mode)) →
      Completes (.modeHandOver w tile v t) s fun u => 
        (u.tileH tile) = (s.tileH tile) ∧
        (u.fld (pgTile tile) 0x040 31 30 = (if (s.tileH tile).fore then 3 else if bits v 31 30 = 3 then (s.tileH tile).mode else bits v 31 30)) ∧
        (∀ x, x ≠ tile → u.tileH x = s.tileH x) :)
    ∧ (∀ (tile t m : Nat) (s : State), (Instr.drainComplete tile t).wf = true → s.calm = true → s.ready (pgTile tile) = true → (s.tileH tile).handReq = some m → (s.tileH tile).drained = true → (s.tileH tile).recovering = false → 2 ≤ (s.tileH tile).mode →
      Completes (.drainComplete tile t) s fun u => 
        (u.tileH tile).handReq = none ∧
        (u.tileH tile).draining = false ∧
        ((u.fld (pgTile tile) 0x04C 24 22 = 1 ∧ (u.tileH tile).mode = m ∧ u.fld (pgTile tile) 0x04C 31 30 = m % 4) ∨ (u.fld (pgTile tile) 0x04C 24 22 = 2 ∧ (u.tileH tile).mode = (s.tileH tile).mode)) ∧
        (3 ≤ m → (u.tileH tile).mode = m ∧ (u.tileH tile).copies = [{ foreCopy 0 with clk := max s.now t }, { foreCopy 0x40000 with clk := max s.now t }, { ({} : KCopy) with clk := max s.now t }]) ∧
        u.fld (pgTile tile) 0x04C 27 25 = 0 ∧
        u.getB (pgTile tile) 0x010 17 = true ∧
        (∀ x, x ≠ tile → u.tileH x = s.tileH x) :)
    ∧ (∀ (tile t : Nat) (cs : List KCopy) (s : State), (Instr.drainComplete tile t).wf = true → s.calm = true → s.ready (pgTile tile) = true → (s.tileH tile).handReq = some 2 → (s.tileH tile).drained = true → (s.tileH tile).recovering = false → 2 ≤ (s.tileH tile).mode → ((s.upTo t).startCopies tile 2 (s.tileH tile).freeSize).1 = some cs →
      Completes (.drainComplete tile t) s fun u => 
        (u.tileH tile).mode = 2 ∧
        ((u.tileH tile).copies = cs.map (fun k => { k with clk := max s.now t })) ∧
        u.fld (pgTile tile) 0x04C 24 22 = 1 ∧
        (u.tileH tile).work = true ∧
        (u.tileH tile).halted = [false, false, false] ∧
        (∀ x, x ≠ tile → u.tileH x = s.tileH x) :)
    ∧ (∀ (tile t m : Nat) (s : State), (Instr.drainComplete tile t).wf = true → s.calm = true → s.ready (pgTile tile) = true → (s.tileH tile).handReq = some m → m ≤ 2 → (s.tileH tile).drained = true → (s.tileH tile).recovering = false → 2 ≤ (s.tileH tile).mode → ((s.upTo t).startCopies tile m (if m = 1 then s.fld (pgTile tile) 0x048 22 16 else (s.tileH tile).freeSize)).1 = none →
      Completes (.drainComplete tile t) s fun u => 
        (u.tileH tile).mode = (s.tileH tile).mode ∧
        (u.tileH tile).handReq = none ∧
        (u.tileH tile).draining = false ∧
        u.fld (pgTile tile) 0x04C 24 22 = 2 ∧
        (u.tileH tile).work = (s.tileH tile).work ∧
        (∀ x, x ≠ tile → u.tileH x = s.tileH x) :)
    ∧ (∀ (tile t m : Nat) (s : State), (Instr.drainComplete tile t).wf = true → s.calm = true → s.ready (pgTile tile) = true → (s.tileH tile).handReq = some m → (s.tileH tile).drained = true → (s.tileH tile).recovering = false → (s.tileH tile).mode ≤ 1 → (s.tileH tile).halted.getD 0 false = false → (s.tileH tile).ocb = [] → (s.tileH tile).outQ = [] →
      Completes (.drainComplete tile t) s fun u => 
        (u.tileH tile).handReq = none ∧
        (u.tileH tile).draining = false ∧
        ((u.fld (pgTile tile) 0x04C 24 22 = 1 ∧ (u.tileH tile).mode = m ∧ (u.tileH tile).work = true) ∨ (u.fld (pgTile tile) 0x04C 24 22 = 2 ∧ (u.tileH tile).mode = (s.tileH tile).mode)) ∧
        ((s.tileH tile).final = false → u.rd64 (pgTile tile) 0x050 = (s.rd64 (pgTile tile) 0x050 + 1) % 2 ^ 64 ∧ (u.tileH tile).undo = [] ∧ (u.tileH tile).jrn = []) ∧
        ((s.tileH tile).final = true → u.rd64 (pgTile tile) 0x050 = s.rd64 (pgTile tile) 0x050) ∧
        u.getB (pgTile tile) 0x010 17 = true ∧
        (∀ x, x ≠ tile → u.tileH x = s.tileH x) :)
    ∧ (∀ (tile t : Nat) (s : State), (Instr.drainComplete tile t).wf = true → s.calm = true → ((s.tileH tile).handReq = none ∨ (s.tileH tile).drained = false ∨ (s.tileH tile).recovering = true ∨ s.ready (pgTile tile) = false ∨ ((s.tileH tile).mode ≤ 1 ∧ (s.tileH tile).halted.getD 0 false = true)) →
      Completes (.drainComplete tile t) s fun u => 
        u.tiles = s.tiles ∧
        u.regs = s.regs ∧
        u.mem = s.mem ∧
        u.now = max s.now t ∧
        { u with now := s.now, hot := s.hot } = s :)
    ∧ (∀ (w : Writer) (tile v t x : Nat) (s : State), (Instr.tileMboxIn w tile v false t).wf = true → s.calm = true → s.powered (pgTile tile) = true → (s.pageH (pgTile tile)).resetting = false → s.mayWrite w (pgTile tile) .tile = true → s.workTile tile = x → (s.tileH x).mbox.length < 16 →
      Completes (.tileMboxIn w tile v false t) s fun u => 
        u.tileH x = { s.tileH x with mbox := (s.tileH x).mbox ++ [(v % 2 ^ 64, false)] } ∧
        u.fld (pgTile x) 0x098 4 0 = (s.tileH x).mbox.length + 1 ∧
        u.getB (pgTile x) 0x010 21 = (s.getB (pgTile x) 0x010 21 || (s.tileH x).mbox.isEmpty) ∧
        (∀ y, y ≠ x → u.tileH y = s.tileH y) ∧
        u.now = max s.now t ∧
        RegsOnly [pgTile x, pgTile tile] s u ∧
        { u with regs := s.regs, now := s.now, hot := s.hot, tiles := s.tiles } = s :)
    ∧ (∀ (w : Writer) (tile v t x : Nat) (s : State), (Instr.tileMboxIn w tile v false t).wf = true → s.calm = true → s.powered (pgTile tile) = true → (s.pageH (pgTile tile)).resetting = false → s.mayWrite w (pgTile tile) .tile = true → s.workTile tile = x → 16 ≤ (s.tileH x).mbox.length →
      Completes (.tileMboxIn w tile v false t) s fun u => 
        u.tiles = s.tiles ∧
        u.fld (pgTile x) 0x098 31 16 = min 0xFFFF (s.fld (pgTile x) 0x098 31 16 + 1) ∧
        u.now = max s.now t ∧
        RegsOnly [pgTile x, pgTile tile] s u ∧
        { u with regs := s.regs, now := s.now, hot := s.hot } = s :)
    ∧ (∀ (w : Writer) (tile v t : Nat) (s : State), (Instr.tileMboxIn w tile v true t).wf = true → s.calm = true → s.powered (pgTile tile) = true → (s.pageH (pgTile tile)).resetting = false → s.mayWrite w (pgTile tile) .tile = true →
      Completes (.tileMboxIn w tile v true t) s fun u => 
        u.tiles = s.tiles ∧
        u.fld (pgTile tile) 0x01C 7 0 = min 255 (s.fld (pgTile tile) 0x01C 7 0 + 1) ∧
        u.now = max s.now t ∧
        RegsOnly [pgTile tile] s u ∧
        { u with regs := s.regs, now := s.now, hot := s.hot } = s :)
    ∧ (∀ (w : Writer) (tile t : Nat) (e : (Nat × Bool)) (rest : List (Nat × Bool)) (s : State), (Instr.tileMboxOut w tile t).wf = true → s.calm = true → s.powered (pgTile tile) = true → s.routePage w (pgTile tile) = (pgTile tile) → (s.tileH tile).mbox = e :: rest → rest.length < 32 → e.1 < 2 ^ 64 →
      Completes (.tileMboxOut w tile t) s fun u => 
        (u.tileH tile) = { (s.tileH tile) with mbox := rest } ∧
        u.fld (pgTile tile) 0x098 4 0 = rest.length ∧
        (∀ x, x ≠ tile → u.tileH x = s.tileH x) ∧
        u.out = s.out ++ [.readReply w (pgTile tile) 0x090 (BitVec.ofNat 64 e.1)] ∧
        u.now = max s.now t ∧
        RegsOnly [pgTile tile] s u ∧
        { u with regs := s.regs, now := s.now, hot := s.hot, tiles := s.tiles, out := s.out } = s :)
    ∧ (∀ (w : Writer) (tile t : Nat) (s : State), (Instr.tileMboxOut w tile t).wf = true → s.calm = true → s.routePage w (pgTile tile) = (pgTile tile) → ((s.tileH tile).mbox = [] ∨ s.powered (pgTile tile) = false) →
      Completes (.tileMboxOut w tile t) s fun u => 
        u.tiles = s.tiles ∧
        u.out = s.out ++ [.readReply w (pgTile tile) 0x090 0] ∧
        u.now = max s.now t ∧
        RegsOnly [pgTile tile] s u ∧
        { u with regs := s.regs, now := s.now, hot := s.hot, out := s.out } = s :)
    ∧ (∀ (w : Writer) (tile t : Nat) (e : RelEntry) (rest : List RelEntry) (s : State), (Instr.tileRq1 w tile t).wf = true → s.calm = true → s.powered (pgTile tile) = true → s.routePage w (pgTile tile) = (pgTile tile) → (s.tileH tile).rq = e :: rest → rest.length < 64 →
      Completes (.tileRq1 w tile t) s fun u => 
        (u.tileH tile) = { (s.tileH tile) with rq := rest } ∧
        u.fld (pgTile tile) 0x080 5 0 = rest.length ∧
        (u.rd64 (pgTile tile) 0x070 = (match rest with | x :: _ => x.w0.toNat | [] => 0)) ∧
        (∀ x, x ≠ tile → u.tileH x = s.tileH x) ∧
        u.out = s.out ++ [.readReply w (pgTile tile) 0x078 e.w1] ∧
        u.now = max s.now t ∧
        RegsOnly [pgTile tile] s u ∧
        { u with regs := s.regs, now := s.now, hot := s.hot, tiles := s.tiles, out := s.out } = s :)
    ∧ (∀ (w : Writer) (tile t : Nat) (s : State), (Instr.tileRq1 w tile t).wf = true → s.calm = true → s.routePage w (pgTile tile) = (pgTile tile) → ((s.tileH tile).rq = [] ∨ s.powered (pgTile tile) = false) →
      Completes (.tileRq1 w tile t) s fun u => 
        u.tiles = s.tiles ∧
        u.out = s.out ++ [.readReply w (pgTile tile) 0x078 0] ∧
        u.now = max s.now t ∧
        RegsOnly [pgTile tile] s u ∧
        { u with regs := s.regs, now := s.now, hot := s.hot, out := s.out } = s :)
    ∧ (∀ (w : Writer) (tile granule : Nat) (tag : Bool) (t : Nat) (s : State), (Instr.tileTag w tile granule tag t).wf = true → s.calm = true → s.powered (pgTile tile) = true → (s.pageH (pgTile tile)).resetting = false → s.routePage w (pgTile tile) = (pgTile tile) → fromDebugger w = true → s.holdsWrites tile = false →
      Completes (.tileTag w tile granule tag t) s fun u => 
        u.tag (tileBase tile + granule * 16) = tag ∧
        (∀ a, a / 16 ≠ (tileBase tile + granule * 16) / 16 → u.tag a = s.tag a) ∧
        u.tiles = s.tiles ∧
        u.now = max s.now t ∧
        RegsOnly [] s u ∧
        { u with regs := s.regs, now := s.now, hot := s.hot, tags := s.tags } = s :)
    ∧ (∀ (w : Writer) (tile granule : Nat) (tag : Bool) (t : Nat) (s : State), (Instr.tileTag w tile granule tag t).wf = true → s.calm = true → s.powered (pgTile tile) = true → (s.pageH (pgTile tile)).resetting = false → s.routePage w (pgTile tile) = (pgTile tile) → fromDebugger w = true → s.holdsWrites tile = true →
      Completes (.tileTag w tile granule tag t) s fun u => 
        ((u.tileH tile) = (if (s.tileH tile).held.length < 16 then { (s.tileH tile) with held := (s.tileH tile).held ++ [⟨tileBase tile + granule * 16, 0, b2n tag, false⟩] } else { (s.tileH tile) with heldWait := (s.tileH tile).heldWait ++ [⟨tileBase tile + granule * 16, 0, b2n tag, false⟩] })) ∧
        (∀ x, x ≠ tile → u.tileH x = s.tileH x) ∧
        u.now = max s.now t ∧
        RegsOnly [] s u ∧
        { u with regs := s.regs, now := s.now, hot := s.hot, tiles := s.tiles } = s :)
    ∧ (∀ (w : Writer) (tile granule : Nat) (tag : Bool) (t : Nat) (s : State), (Instr.tileTag w tile granule tag t).wf = true → s.calm = true → s.powered (pgTile tile) = true → (s.pageH (pgTile tile)).resetting = false → s.mayWrite w (pgTile tile) .tile = true → fromDebugger w = false →
      Completes (.tileTag w tile granule tag t) s fun u => 
        u.tiles = s.tiles ∧
        u.tags = s.tags ∧
        u.fld (pgTile tile) 0x018 31 16 = min 0xFFFF (s.fld (pgTile tile) 0x018 31 16 + 1) ∧
        u.now = max s.now t ∧
        RegsOnly [pgTile tile] s u ∧
        { u with regs := s.regs, now := s.now, hot := s.hot } = s :)
    ∧ (∀ (tile copy i t : Nat) (e : ExtE) (s : State), (Instr.extReadReply tile copy i t).wf = true → s.calm = true → (s.tileH tile).copies.length = 3 → ((s.tileH tile).copies.getD copy {}).ext[i]? = some e → ¬((s.tileH tile).recovering = true ∧ ¬((s.tileH tile).mode = 1 ∧ copy = 2)) → (2 ≤ (s.tileH tile).mode ∨ ((s.tileH tile).mode = 1 ∧ copy = 2)) → e.ans = none → e.behind = 0 → stallsAt (s.upTo t) tile e.addr = false → pageOfAddr e.addr = none →
      Completes (.extReadReply tile copy i t) s fun u => 
        ((u.tileH tile).copies.getD copy {}).ext = ((s.tileH tile).copies.getD copy {}).ext.eraseIdx i ∧
        (((u.tileH tile).copies.getD copy {}).file = (loadWords e.op e.pos (((s.upTo t).rdMem e.addr e.op.size).1).1 (((s.upTo t).rdMem e.addr e.op.size).1).2).foldl (fun f w => sput fileZero (w.pos % 256) (w.val % 2 ^ 32, w.pois) f) ((s.tileH tile).copies.getD copy {}).file) ∧
        ((u.tileH tile).copies.getD copy {}).pc = ((s.tileH tile).copies.getD copy {}).pc ∧
        ((u.tileH tile).copies.getD copy {}).depth = ((s.tileH tile).copies.getD copy {}).depth ∧
        (∀ x, x ≠ tile → u.tileH x = s.tileH x) :)
    ∧ (∀ (tile copy i t : Nat) (e : ExtE) (p off : Nat) (s : State), (Instr.extReadReply tile copy i t).wf = true → s.calm = true → (s.tileH tile).copies.length = 3 → ((s.tileH tile).copies.getD copy {}).ext[i]? = some e → ¬((s.tileH tile).recovering = true ∧ ¬((s.tileH tile).mode = 1 ∧ copy = 2)) → (2 ≤ (s.tileH tile).mode ∨ ((s.tileH tile).mode = 1 ∧ copy = 2)) → e.ans = none → e.behind = 0 → stallsAt (s.upTo t) tile e.addr = false → pageOfAddr e.addr = some (p, off) → p ≠ pgTile tile →
      Completes (.extReadReply tile copy i t) s fun u => 
        ((u.tileH tile).copies.getD copy {}).ext = ((s.tileH tile).copies.getD copy {}).ext.eraseIdx i ∧
        (((u.tileH tile).copies.getD copy {}).file = (loadWords e.op e.pos (((s.upTo t).pageRead (.tile tile copy) p off e.op.size).1, false).1 (((s.upTo t).pageRead (.tile tile copy) p off e.op.size).1, false).2).foldl (fun f w => sput fileZero (w.pos % 256) (w.val % 2 ^ 32, w.pois) f) ((s.tileH tile).copies.getD copy {}).file) ∧
        ((u.tileH tile).copies.getD copy {}).pc = ((s.tileH tile).copies.getD copy {}).pc ∧
        ((u.tileH tile).copies.getD copy {}).depth = ((s.tileH tile).copies.getD copy {}).depth :)
    ∧ (∀ (tile copy i t : Nat) (e : ExtE) (v : (Nat × Bool)) (s : State), (Instr.extReadReply tile copy i t).wf = true → s.calm = true → (s.tileH tile).copies.length = 3 → ((s.tileH tile).copies.getD copy {}).ext[i]? = some e → ¬((s.tileH tile).recovering = true ∧ ¬((s.tileH tile).mode = 1 ∧ copy = 2)) → (s.tileH tile).replay = [] → e.ans = some v →
      Completes (.extReadReply tile copy i t) s fun u => 
        ((u.tileH tile).copies.getD copy {}).ext = ((s.tileH tile).copies.getD copy {}).ext.eraseIdx i ∧
        (((u.tileH tile).copies.getD copy {}).file = (loadWords e.op e.pos (v).1 (v).2).foldl (fun f w => sput fileZero (w.pos % 256) (w.val % 2 ^ 32, w.pois) f) ((s.tileH tile).copies.getD copy {}).file) ∧
        ((u.tileH tile).copies.getD copy {}).pc = ((s.tileH tile).copies.getD copy {}).pc ∧
        ((u.tileH tile).copies.getD copy {}).depth = ((s.tileH tile).copies.getD copy {}).depth ∧
        (∀ x, x ≠ tile → u.tileH x = s.tileH x) ∧
        ((u.tileH tile).jrn = (s.tileH tile).jrn ++ (if (2 ≤ (s.tileH tile).mode ∨ ((s.tileH tile).mode = 1 ∧ copy = 2)) then [] else [⟨0, e.addr * 8 + loadCode e.op, v.1, v.2, (s.tileH tile).bundles⟩])) :)
    ∧ (∀ (tile copy i t : Nat) (e : ExtE) (val : Nat) (po : Bool) (n : Nat) (s : State), (Instr.extReadReply tile copy i t).wf = true → s.calm = true → (s.tileH tile).copies.length = 3 → ((s.tileH tile).copies.getD copy {}).ext[i]? = some e → ¬((s.tileH tile).recovering = true ∧ ¬((s.tileH tile).mode = 1 ∧ copy = 2)) → ¬(2 ≤ (s.tileH tile).mode ∨ ((s.tileH tile).mode = 1 ∧ copy = 2)) → (s.tileH tile).replay = [⟨0, e.addr * 8 + loadCode e.op, val, po, n⟩] →
      Completes (.extReadReply tile copy i t) s fun u => 
        ((u.tileH tile).copies.getD copy {}).ext = ((s.tileH tile).copies.getD copy {}).ext.eraseIdx i ∧
        (((u.tileH tile).copies.getD copy {}).file = (loadWords e.op e.pos (val, po).1 (val, po).2).foldl (fun f w => sput fileZero (w.pos % 256) (w.val % 2 ^ 32, w.pois) f) ((s.tileH tile).copies.getD copy {}).file) ∧
        ((u.tileH tile).copies.getD copy {}).pc = ((s.tileH tile).copies.getD copy {}).pc ∧
        ((u.tileH tile).copies.getD copy {}).depth = ((s.tileH tile).copies.getD copy {}).depth ∧
        (∀ x, x ≠ tile → u.tileH x = s.tileH x) ∧
        (u.tileH tile).replay = [] ∧
        (u.tileH tile).jrn.length = (s.tileH tile).jrn.length + 1 :)
    ∧ (∀ (tile copy i t : Nat) (e : ExtE) (s : State), (Instr.extReadReply tile copy i t).wf = true → s.calm = true → (s.tileH tile).copies.length = 3 → ((s.tileH tile).copies.getD copy {}).ext[i]? = some e → ¬((s.tileH tile).recovering = true ∧ ¬((s.tileH tile).mode = 1 ∧ copy = 2)) → ¬(2 ≤ (s.tileH tile).mode ∨ ((s.tileH tile).mode = 1 ∧ copy = 2)) → (s.tileH tile).replay = [] → e.ans = none → 0 < e.behind → (s.tileH tile).halted.getD 0 false = false → (s.tileH tile).due = none → (s.tileH tile).bound = none → ((s.tileH tile).copies.getD 0 {}).outstanding = false → (s.tileH tile).recovering = false →
      Completes (.extReadReply tile copy i t) s fun u => 
        (u.tileH tile).copies = (s.tileH tile).copies ∧
        (u.tileH tile).bound.isSome = true ∧
        (u.tileH tile).lastDue = max s.now t ∧
        (∀ x, x ≠ tile → u.tileH x = s.tileH x) ∧
        u.now = max s.now t ∧
        RegsOnly [pgTile tile, pgPmc tile] s u ∧
        { u with regs := s.regs, now := s.now, hot := s.hot, tiles := s.tiles, pmcT := s.pmcT } = s :)
    ∧ (∀ (tile copy i t : Nat) (e : ExtE) (s : State), (Instr.extReadReply tile copy i t).wf = true → s.calm = true → (s.tileH tile).copies.length = 3 → ((s.tileH tile).copies.getD copy {}).ext[i]? = some e → ¬((s.tileH tile).recovering = true ∧ ¬((s.tileH tile).mode = 1 ∧ copy = 2)) → (s.tileH tile).replay = [] → e.ans = none → ((0 < e.behind ∧ (s.tileH tile).halted.getD 0 false = true) ∨ (e.behind = 0 ∧ stallsAt (s.upTo t) tile e.addr = true)) →
      Completes (.extReadReply tile copy i t) s fun u => 
        u.tiles = s.tiles ∧
        u.regs = s.regs ∧
        u.mem = s.mem ∧
        u.now = max s.now t ∧
        { u with now := s.now, hot := s.hot } = s :)
    ∧ (∀ (tile copy i t : Nat) (s : State), (Instr.extReadReply tile copy i t).wf = true → s.calm = true → (((s.tileH tile).copies.getD copy {}).ext[i]? = none ∨ ((s.tileH tile).recovering = true ∧ ¬((s.tileH tile).mode = 1 ∧ copy = 2))) →
      Completes (.extReadReply tile copy i t) s fun u => 
        u.tiles = s.tiles ∧
        u.regs = s.regs ∧
        u.mem = s.mem ∧
        u.now = max s.now t ∧
        { u with now := s.now, hot := s.hot } = s :)

/-- HALT halts the copy it names, the checked core where the tile has one, and reports it; with copy A outvoted it waits for the re-seat; RESUME lets it run; READ puts the value of a stack entry, capability, special register or memory word into the data registers, but reports nothing of an outvoted copy A; WRITE changes that copy alone; STEP lets the copy run n bundles and leaves it halted after the last, or halted no more while they are still to come. In a checked tile each is journalled and stands in the replay queue; with 16 there it is dropped and counted. COPY 3 of an unchecked tile is clamped to 0, and a STEP of 0 or more than 65,535 bundles to the nearest, each counted; a writer who is no debugger is counted and changes nothing. -/
def Obligations.TileDebug : Prop :=
    (∀ (w : Writer) (tile copy t : Nat) (s : State), (Instr.halt w tile copy t).wf = true → s.calm = true → s.powered (pgTile tile) = true → (s.pageH (pgTile tile)).resetting = false → s.routePage w (pgTile tile) = (pgTile tile) → fromDebugger w = true → ((s.tileH tile).mode ≤ 1 → ((s.tileH tile).dbgT.filter (max s.now t < ·)).length < 16) → ¬((s.tileH tile).mode ≤ 1 ∧ (s.tileH tile).outvoted = some 0) →
      Completes (.halt w tile copy t) s fun u => 
        ((u.tileH tile).halted = setAt (s.tileH tile).halted (if (s.tileH tile).mode ≤ 1 then 0 else if copy = 3 then 0 else copy) true) ∧
        (u.tileH tile).copies = (s.tileH tile).copies ∧
        ((u.tileH tile).jrn = (s.tileH tile).jrn ++ (if (s.tileH tile).mode ≤ 1 then [⟨4, (1 * 2 ^ 28 + copy * 2 ^ 26), 0, false, (s.tileH tile).bundles⟩] else [])) ∧
        ((u.tileH tile).dbgT = (if (s.tileH tile).mode ≤ 1 then (s.tileH tile).dbgT.filter (max s.now t < ·) ++ [max s.now t + (if (s.tileH tile).mode = 0 then 4 else 2)] else (s.tileH tile).dbgT)) ∧
        u.getB (pgTile tile) 0x0C4 31 = true ∧
        u.getB (pgTile tile) 0x010 20 = true ∧
        (u.fld (pgTile tile) 0x018 31 16 = (if 2 ≤ (s.tileH tile).mode ∧ copy = 3 then min 0xFFFF (s.fld (pgTile tile) 0x018 31 16 + 1) else s.fld (pgTile tile) 0x018 31 16)) ∧
        (∀ x, x ≠ tile → u.tileH x = s.tileH x) ∧
        u.now = max s.now t ∧
        RegsOnly [pgTile tile, pgPmc tile] s u ∧
        { u with regs := s.regs, now := s.now, hot := s.hot, tiles := s.tiles, pmcT := s.pmcT } = s :)
    ∧ (∀ (w : Writer) (tile copy t : Nat) (s : State), (Instr.halt w tile copy t).wf = true → s.calm = true → s.powered (pgTile tile) = true → (s.pageH (pgTile tile)).resetting = false → s.routePage w (pgTile tile) = (pgTile tile) → fromDebugger w = true → ((s.tileH tile).mode ≤ 1 → ((s.tileH tile).dbgT.filter (max s.now t < ·)).length < 16) → (s.tileH tile).mode ≤ 1 → (s.tileH tile).outvoted = some 0 →
      Completes (.halt w tile copy t) s fun u => 
        (u.tileH tile).haltWait = true ∧
        (u.tileH tile).halted = (s.tileH tile).halted ∧
        (u.tileH tile).jrn = (s.tileH tile).jrn ∧
        ((u.tileH tile).dbgT = (if (s.tileH tile).mode ≤ 1 then (s.tileH tile).dbgT.filter (max s.now t < ·) ++ [max s.now t + (if (s.tileH tile).mode = 0 then 4 else 2)] else (s.tileH tile).dbgT)) ∧
        (∀ x, x ≠ tile → u.tileH x = s.tileH x) ∧
        u.now = max s.now t ∧
        RegsOnly [] s u ∧
        { u with regs := s.regs, now := s.now, hot := s.hot, tiles := s.tiles } = s :)
    ∧ (∀ (w : Writer) (tile copy t : Nat) (s : State), (Instr.resume w tile copy t).wf = true → s.calm = true → s.powered (pgTile tile) = true → (s.pageH (pgTile tile)).resetting = false → s.routePage w (pgTile tile) = (pgTile tile) → fromDebugger w = true → ((s.tileH tile).mode ≤ 1 → ((s.tileH tile).dbgT.filter (max s.now t < ·)).length < 16) →
      Completes (.resume w tile copy t) s fun u => 
        ((u.tileH tile).halted = setAt (s.tileH tile).halted (if (s.tileH tile).mode ≤ 1 then 0 else if copy = 3 then 0 else copy) false) ∧
        (u.tileH tile).haltWait = false ∧
        (u.tileH tile).copies = (s.tileH tile).copies ∧
        ((u.tileH tile).jrn = (s.tileH tile).jrn ++ (if (s.tileH tile).mode ≤ 1 then [⟨4, (2 * 2 ^ 28 + copy * 2 ^ 26), 0, false, (s.tileH tile).bundles⟩] else [])) ∧
        ((u.tileH tile).dbgT = (if (s.tileH tile).mode ≤ 1 then (s.tileH tile).dbgT.filter (max s.now t < ·) ++ [max s.now t + (if (s.tileH tile).mode = 0 then 4 else 2)] else (s.tileH tile).dbgT)) ∧
        (u.getB (pgTile tile) 0x0C4 31 = (setAt (s.tileH tile).halted (if (s.tileH tile).mode ≤ 1 then 0 else if copy = 3 then 0 else copy) false).any id) ∧
        (u.fld (pgTile tile) 0x018 31 16 = (if 2 ≤ (s.tileH tile).mode ∧ copy = 3 then min 0xFFFF (s.fld (pgTile tile) 0x018 31 16 + 1) else s.fld (pgTile tile) 0x018 31 16)) ∧
        (∀ x, x ≠ tile → u.tileH x = s.tileH x) ∧
        u.now = max s.now t ∧
        RegsOnly [pgTile tile, pgPmc tile] s u ∧
        { u with regs := s.regs, now := s.now, hot := s.hot, tiles := s.tiles, pmcT := s.pmcT } = s :)
    ∧ (∀ (w : Writer) (tile copy n t : Nat) (s : State), (Instr.step w tile copy n t).wf = true → s.calm = true → s.powered (pgTile tile) = true → (s.pageH (pgTile tile)).resetting = false → s.routePage w (pgTile tile) = (pgTile tile) → fromDebugger w = true → ((s.tileH tile).mode ≤ 1 → ((s.tileH tile).dbgT.filter (max s.now t < ·)).length < 16) → (s.tileH tile).copies.length = 3 → ((s.tileH tile).copies.getD (if (s.tileH tile).mode ≤ 1 then 0 else if copy = 3 then 0 else copy) {}).run = false → 2 ≤ (s.tileH tile).mode →
      Completes (.step w tile copy n t) s fun u => 
        ((u.tileH tile) = { (s.tileH tile) with halted := setAt (s.tileH tile).halted (if (s.tileH tile).mode ≤ 1 then 0 else if copy = 3 then 0 else copy) false, copies := setAt (s.tileH tile).copies (if (s.tileH tile).mode ≤ 1 then 0 else if copy = 3 then 0 else copy) { ((s.tileH tile).copies.getD (if (s.tileH tile).mode ≤ 1 then 0 else if copy = 3 then 0 else copy) {}) with steps := some (clampTo 1 65535 n) } }) ∧
        (u.fld (pgTile tile) 0x018 31 16 = (if (2 ≤ (s.tileH tile).mode ∧ copy = 3) ∨ n = 0 ∨ 65535 < n then min 0xFFFF (s.fld (pgTile tile) 0x018 31 16 + 1) else s.fld (pgTile tile) 0x018 31 16)) ∧
        (∀ x, x ≠ tile → u.tileH x = s.tileH x) ∧
        u.now = max s.now t ∧
        RegsOnly [pgTile tile] s u ∧
        { u with regs := s.regs, now := s.now, hot := s.hot, tiles := s.tiles } = s :)
    ∧ (∀ (w : Writer) (tile copy n t : Nat) (s : State), (Instr.step w tile copy n t).wf = true → s.calm = true → s.powered (pgTile tile) = true → (s.pageH (pgTile tile)).resetting = false → s.routePage w (pgTile tile) = (pgTile tile) → fromDebugger w = true → ((s.tileH tile).mode ≤ 1 → ((s.tileH tile).dbgT.filter (max s.now t < ·)).length < 16) → 2 ≤ (s.tileH tile).mode → (stepGo tile (if (s.tileH tile).mode ≤ 1 then 0 else if copy = 3 then 0 else copy) (clampTo 1 65535 (n % 2 ^ 24)) ((s.upTo t).setTile tile { (s.tileH tile) with halted := setAt (s.tileH tile).halted (if (s.tileH tile).mode ≤ 1 then 0 else if copy = 3 then 0 else copy) false, copies := setAt (s.tileH tile).copies (if (s.tileH tile).mode ≤ 1 then 0 else if copy = 3 then 0 else copy) { ((s.tileH tile).copies.getD (if (s.tileH tile).mode ≤ 1 then 0 else if copy = 3 then 0 else copy) {}) with steps := some (clampTo 1 65535 (n % 2 ^ 24)) } })).calm = true →
      Completes (.step w tile copy n t) s fun u => 
        (u.tiles = (stepGo tile (if (s.tileH tile).mode ≤ 1 then 0 else if copy = 3 then 0 else copy) (clampTo 1 65535 (n % 2 ^ 24)) ((s.upTo t).setTile tile { (s.tileH tile) with halted := setAt (s.tileH tile).halted (if (s.tileH tile).mode ≤ 1 then 0 else if copy = 3 then 0 else copy) false, copies := setAt (s.tileH tile).copies (if (s.tileH tile).mode ≤ 1 then 0 else if copy = 3 then 0 else copy) { ((s.tileH tile).copies.getD (if (s.tileH tile).mode ≤ 1 then 0 else if copy = 3 then 0 else copy) {}) with steps := some (clampTo 1 65535 (n % 2 ^ 24)) } })).tiles) ∧
        (u.mem = (stepGo tile (if (s.tileH tile).mode ≤ 1 then 0 else if copy = 3 then 0 else copy) (clampTo 1 65535 (n % 2 ^ 24)) ((s.upTo t).setTile tile { (s.tileH tile) with halted := setAt (s.tileH tile).halted (if (s.tileH tile).mode ≤ 1 then 0 else if copy = 3 then 0 else copy) false, copies := setAt (s.tileH tile).copies (if (s.tileH tile).mode ≤ 1 then 0 else if copy = 3 then 0 else copy) { ((s.tileH tile).copies.getD (if (s.tileH tile).mode ≤ 1 then 0 else if copy = 3 then 0 else copy) {}) with steps := some (clampTo 1 65535 (n % 2 ^ 24)) } })).mem) :)
    ∧ (∀ (w : Writer) (tile copy n t : Nat) (s : State), (Instr.step w tile copy n t).wf = true → s.calm = true → s.powered (pgTile tile) = true → (s.pageH (pgTile tile)).resetting = false → s.routePage w (pgTile tile) = (pgTile tile) → fromDebugger w = true → ((s.tileH tile).mode ≤ 1 → ((s.tileH tile).dbgT.filter (max s.now t < ·)).length < 16) → (s.tileH tile).mode ≤ 1 → ((s.tileH tile).copies.getD 0 {}).run = false → (s.tileH tile).copies.length = 3 →
      Completes (.step w tile copy n t) s fun u => 
        (u.tileH tile).halted = setAt (s.tileH tile).halted 0 false ∧
        (u.tileH tile).copies = setAt (s.tileH tile).copies 0 { ((s.tileH tile).copies.getD 0 {}) with steps := some (clampTo 1 65535 n) } ∧
        ((u.tileH tile).jrn = (s.tileH tile).jrn ++ (if (s.tileH tile).mode ≤ 1 then [⟨4, (3 * 2 ^ 28 + copy * 2 ^ 26 + n), 0, false, (s.tileH tile).bundles⟩] else [])) ∧
        ((u.tileH tile).dbgT = (if (s.tileH tile).mode ≤ 1 then (s.tileH tile).dbgT.filter (max s.now t < ·) ++ [max s.now t + (if (s.tileH tile).mode = 0 then 4 else 2)] else (s.tileH tile).dbgT)) ∧
        (∀ x, x ≠ tile → u.tileH x = s.tileH x) ∧
        u.now = max s.now t ∧
        RegsOnly [pgTile tile, pgPmc tile] s u ∧
        { u with regs := s.regs, now := s.now, hot := s.hot, tiles := s.tiles, pmcT := s.pmcT } = s :)
    ∧ (∀ (w : Writer) (tile copy space idx t : Nat) (s : State), (Instr.debugRead w tile copy space idx t).wf = true → s.calm = true → s.powered (pgTile tile) = true → (s.pageH (pgTile tile)).resetting = false → s.routePage w (pgTile tile) = (pgTile tile) → fromDebugger w = true → ((s.tileH tile).mode ≤ 1 → ((s.tileH tile).dbgT.filter (max s.now t < ·)).length < 16) → ¬((s.tileH tile).mode ≤ 1 ∧ (s.tileH tile).outvoted = some 0) → space ≤ 2 →
      Completes (.debugRead w tile copy space idx t) s fun u => 
        (u.rd64 (pgTile tile) 0x0C8 = (((s.tileH tile).copies.getD (if (s.tileH tile).mode ≤ 1 then 0 else if copy = 3 then 0 else copy) {}).debugGet space idx).1 % 2 ^ 64) ∧
        (u.rd64 (pgTile tile) 0x0D0 = (((s.tileH tile).copies.getD (if (s.tileH tile).mode ≤ 1 then 0 else if copy = 3 then 0 else copy) {}).debugGet space idx).1 / 2 ^ 64 % 2 ^ 64) ∧
        (u.getB (pgTile tile) 0x0C4 23 = (space == 1 && (((s.tileH tile).copies.getD (if (s.tileH tile).mode ≤ 1 then 0 else if copy = 3 then 0 else copy) {}).debugGet space idx).2)) ∧
        (u.tileH tile).copies = (s.tileH tile).copies ∧
        (u.tileH tile).halted = (s.tileH tile).halted ∧
        ((u.tileH tile).jrn = (s.tileH tile).jrn ++ (if (s.tileH tile).mode ≤ 1 then [⟨4, (4 * 2 ^ 28 + copy * 2 ^ 26 + space * 2 ^ 24 + idx), 0, false, (s.tileH tile).bundles⟩] else [])) ∧
        ((u.tileH tile).dbgT = (if (s.tileH tile).mode ≤ 1 then (s.tileH tile).dbgT.filter (max s.now t < ·) ++ [max s.now t + (if (s.tileH tile).mode = 0 then 4 else 2)] else (s.tileH tile).dbgT)) ∧
        (u.fld (pgTile tile) 0x018 31 16 = (if 2 ≤ (s.tileH tile).mode ∧ copy = 3 then min 0xFFFF (s.fld (pgTile tile) 0x018 31 16 + 1) else s.fld (pgTile tile) 0x018 31 16)) ∧
        (∀ x, x ≠ tile → u.tileH x = s.tileH x) ∧
        u.now = max s.now t ∧
        RegsOnly [pgTile tile, pgPmc tile] s u ∧
        { u with regs := s.regs, now := s.now, hot := s.hot, tiles := s.tiles, pmcT := s.pmcT } = s :)
    ∧ (∀ (w : Writer) (tile copy space idx t : Nat) (s : State), (Instr.debugRead w tile copy space idx t).wf = true → s.calm = true → s.powered (pgTile tile) = true → (s.pageH (pgTile tile)).resetting = false → s.routePage w (pgTile tile) = (pgTile tile) → fromDebugger w = true → ((s.tileH tile).mode ≤ 1 → ((s.tileH tile).dbgT.filter (max s.now t < ·)).length < 16) → ¬((s.tileH tile).mode ≤ 1 ∧ (s.tileH tile).outvoted = some 0) → space = 3 →
      Completes (.debugRead w tile copy space idx t) s fun u => 
        u.rd64 (pgTile tile) 0x0C8 = ((s.upTo t).rdMem (tileBase tile + idx % 65536 * 8) 8).1.1 % 2 ^ 64 ∧
        u.rd64 (pgTile tile) 0x0D0 = 0 ∧
        u.getB (pgTile tile) 0x0C4 23 = false ∧
        (u.tileH tile).copies = (s.tileH tile).copies ∧
        (∀ x, x ≠ tile → u.tileH x = s.tileH x) ∧
        u.mem = s.mem :)
    ∧ (∀ (w : Writer) (tile copy space idx t : Nat) (s : State), (Instr.debugRead w tile copy space idx t).wf = true → s.calm = true → s.powered (pgTile tile) = true → (s.pageH (pgTile tile)).resetting = false → s.routePage w (pgTile tile) = (pgTile tile) → fromDebugger w = true → ((s.tileH tile).mode ≤ 1 → ((s.tileH tile).dbgT.filter (max s.now t < ·)).length < 16) → (s.tileH tile).mode ≤ 1 → (s.tileH tile).outvoted = some 0 →
      Completes (.debugRead w tile copy space idx t) s fun u => 
        u.rd64 (pgTile tile) 0x0C8 = s.rd64 (pgTile tile) 0x0C8 ∧
        (u.tileH tile).jrn = (s.tileH tile).jrn ∧
        ((u.tileH tile).dbgT = (if (s.tileH tile).mode ≤ 1 then (s.tileH tile).dbgT.filter (max s.now t < ·) ++ [max s.now t + (if (s.tileH tile).mode = 0 then 4 else 2)] else (s.tileH tile).dbgT)) ∧
        (∀ x, x ≠ tile → u.tileH x = s.tileH x) ∧
        u.now = max s.now t ∧
        RegsOnly [] s u ∧
        { u with regs := s.regs, now := s.now, hot := s.hot, tiles := s.tiles } = s :)
    ∧ (∀ (w : Writer) (tile copy space idx t : Nat) (s : State), (Instr.debugWrite w tile copy space idx t).wf = true → s.calm = true → s.powered (pgTile tile) = true → (s.pageH (pgTile tile)).resetting = false → s.routePage w (pgTile tile) = (pgTile tile) → fromDebugger w = true → ((s.tileH tile).mode ≤ 1 → ((s.tileH tile).dbgT.filter (max s.now t < ·)).length < 16) → space ≤ 2 → (s.tileH tile).copies.length = 3 →
      Completes (.debugWrite w tile copy space idx t) s fun u => 
        ((u.tileH tile).copies = setAt (s.tileH tile).copies (if (s.tileH tile).mode ≤ 1 then 0 else if copy = 3 then 0 else copy) (((s.tileH tile).copies.getD (if (s.tileH tile).mode ≤ 1 then 0 else if copy = 3 then 0 else copy) {}).debugSet space idx (s.rd64 (pgTile tile) 0x0C8 + s.rd64 (pgTile tile) 0x0D0 * 2 ^ 64))) ∧
        ((u.tileH tile).jrn = (s.tileH tile).jrn ++ (if (s.tileH tile).mode ≤ 1 then [⟨4, (5 * 2 ^ 28 + copy * 2 ^ 26 + space * 2 ^ 24 + idx), (s.rd64 (pgTile tile) 0x0C8 + s.rd64 (pgTile tile) 0x0D0 * 2 ^ 64), false, (s.tileH tile).bundles⟩] else [])) ∧
        ((u.tileH tile).dbgT = (if (s.tileH tile).mode ≤ 1 then (s.tileH tile).dbgT.filter (max s.now t < ·) ++ [max s.now t + (if (s.tileH tile).mode = 0 then 4 else 2)] else (s.tileH tile).dbgT)) ∧
        (u.fld (pgTile tile) 0x018 31 16 = (if 2 ≤ (s.tileH tile).mode ∧ copy = 3 then min 0xFFFF (s.fld (pgTile tile) 0x018 31 16 + 1) else s.fld (pgTile tile) 0x018 31 16)) ∧
        (∀ x, x ≠ tile → u.tileH x = s.tileH x) ∧
        u.now = max s.now t ∧
        RegsOnly [pgTile tile, pgPmc tile] s u ∧
        { u with regs := s.regs, now := s.now, hot := s.hot, tiles := s.tiles, pmcT := s.pmcT } = s :)
    ∧ (∀ (w : Writer) (tile copy space idx t : Nat) (s : State), (Instr.debugWrite w tile copy space idx t).wf = true → s.calm = true → s.powered (pgTile tile) = true → (s.pageH (pgTile tile)).resetting = false → s.routePage w (pgTile tile) = (pgTile tile) → fromDebugger w = true → ((s.tileH tile).mode ≤ 1 → ((s.tileH tile).dbgT.filter (max s.now t < ·)).length < 16) → space = 3 → s.usable (tileBase tile + idx % 65536 * 8) 8 = true → bit ((s.upTo t).flipRegs (pgEccT tile)).1 31 = false →
      Completes (.debugWrite w tile copy space idx t) s fun u => 
        u.peek (tileBase tile + idx % 65536 * 8) 8 = s.rd64 (pgTile tile) 0x0C8 ∧
        (∀ a, ¬(tileBase tile + idx % 65536 * 8 ≤ a ∧ a < tileBase tile + idx % 65536 * 8 + 8) → u.byte a = s.byte a) ∧
        ((u.tileH tile).undo.length = (s.tileH tile).undo.length + (if (s.tileH tile).mode ≤ 1 then 1 else 0)) ∧
        (∀ x, x ≠ tile → u.tileH x = s.tileH x) :)
    ∧ (∀ (w : Writer) (tile copy t : Nat) (s : State), (Instr.halt w tile copy t).wf = true → s.calm = true → s.powered (pgTile tile) = true → (s.pageH (pgTile tile)).resetting = false → s.routePage w (pgTile tile) = (pgTile tile) → fromDebugger w = true → (s.tileH tile).mode ≤ 1 → 16 ≤ ((s.tileH tile).dbgT.filter (max s.now t < ·)).length →
      Completes (.halt w tile copy t) s fun u => 
        u.tiles = s.tiles ∧
        u.fld (pgTile tile) 0x0C4 15 0 = min 0xFFFF (s.fld (pgTile tile) 0x0C4 15 0 + 1) ∧
        u.now = max s.now t ∧
        RegsOnly [pgTile tile] s u ∧
        { u with regs := s.regs, now := s.now, hot := s.hot } = s :)
    ∧ (∀ (w : Writer) (tile copy t : Nat) (s : State), (Instr.resume w tile copy t).wf = true → s.calm = true → s.powered (pgTile tile) = true → (s.pageH (pgTile tile)).resetting = false → s.routePage w (pgTile tile) = (pgTile tile) → fromDebugger w = true → (s.tileH tile).mode ≤ 1 → 16 ≤ ((s.tileH tile).dbgT.filter (max s.now t < ·)).length →
      Completes (.resume w tile copy t) s fun u => 
        u.tiles = s.tiles ∧
        u.fld (pgTile tile) 0x0C4 15 0 = min 0xFFFF (s.fld (pgTile tile) 0x0C4 15 0 + 1) ∧
        u.now = max s.now t ∧
        RegsOnly [pgTile tile] s u ∧
        { u with regs := s.regs, now := s.now, hot := s.hot } = s :)
    ∧ (∀ (w : Writer) (tile copy n t : Nat) (s : State), (Instr.step w tile copy n t).wf = true → s.calm = true → s.powered (pgTile tile) = true → (s.pageH (pgTile tile)).resetting = false → s.routePage w (pgTile tile) = (pgTile tile) → fromDebugger w = true → (s.tileH tile).mode ≤ 1 → 16 ≤ ((s.tileH tile).dbgT.filter (max s.now t < ·)).length →
      Completes (.step w tile copy n t) s fun u => 
        u.tiles = s.tiles ∧
        u.fld (pgTile tile) 0x0C4 15 0 = min 0xFFFF (s.fld (pgTile tile) 0x0C4 15 0 + 1) ∧
        u.now = max s.now t ∧
        RegsOnly [pgTile tile] s u ∧
        { u with regs := s.regs, now := s.now, hot := s.hot } = s :)
    ∧ (∀ (w : Writer) (tile copy space idx t : Nat) (s : State), (Instr.debugRead w tile copy space idx t).wf = true → s.calm = true → s.powered (pgTile tile) = true → (s.pageH (pgTile tile)).resetting = false → s.routePage w (pgTile tile) = (pgTile tile) → fromDebugger w = true → (s.tileH tile).mode ≤ 1 → 16 ≤ ((s.tileH tile).dbgT.filter (max s.now t < ·)).length →
      Completes (.debugRead w tile copy space idx t) s fun u => 
        u.tiles = s.tiles ∧
        u.fld (pgTile tile) 0x0C4 15 0 = min 0xFFFF (s.fld (pgTile tile) 0x0C4 15 0 + 1) ∧
        u.now = max s.now t ∧
        RegsOnly [pgTile tile] s u ∧
        { u with regs := s.regs, now := s.now, hot := s.hot } = s :)
    ∧ (∀ (w : Writer) (tile copy space idx t : Nat) (s : State), (Instr.debugWrite w tile copy space idx t).wf = true → s.calm = true → s.powered (pgTile tile) = true → (s.pageH (pgTile tile)).resetting = false → s.routePage w (pgTile tile) = (pgTile tile) → fromDebugger w = true → (s.tileH tile).mode ≤ 1 → 16 ≤ ((s.tileH tile).dbgT.filter (max s.now t < ·)).length →
      Completes (.debugWrite w tile copy space idx t) s fun u => 
        u.tiles = s.tiles ∧
        u.fld (pgTile tile) 0x0C4 15 0 = min 0xFFFF (s.fld (pgTile tile) 0x0C4 15 0 + 1) ∧
        u.now = max s.now t ∧
        RegsOnly [pgTile tile] s u ∧
        { u with regs := s.regs, now := s.now, hot := s.hot } = s :)
    ∧ (∀ (w : Writer) (tile copy t : Nat) (s : State), (Instr.halt w tile copy t).wf = true → s.calm = true → s.powered (pgTile tile) = true → (s.pageH (pgTile tile)).resetting = false → s.mayWrite w (pgTile tile) .tile = true → fromDebugger w = false →
      Completes (.halt w tile copy t) s fun u => 
        u.tiles = s.tiles ∧
        u.fld (pgTile tile) 0x018 31 16 = min 0xFFFF (s.fld (pgTile tile) 0x018 31 16 + 1) ∧
        u.now = max s.now t ∧
        RegsOnly [pgTile tile] s u ∧
        { u with regs := s.regs, now := s.now, hot := s.hot } = s :)
    ∧ (∀ (w : Writer) (tile copy t : Nat) (s : State), (Instr.resume w tile copy t).wf = true → s.calm = true → s.powered (pgTile tile) = true → (s.pageH (pgTile tile)).resetting = false → s.mayWrite w (pgTile tile) .tile = true → fromDebugger w = false →
      Completes (.resume w tile copy t) s fun u => 
        u.tiles = s.tiles ∧
        u.fld (pgTile tile) 0x018 31 16 = min 0xFFFF (s.fld (pgTile tile) 0x018 31 16 + 1) ∧
        u.now = max s.now t ∧
        RegsOnly [pgTile tile] s u ∧
        { u with regs := s.regs, now := s.now, hot := s.hot } = s :)
    ∧ (∀ (w : Writer) (tile copy n t : Nat) (s : State), (Instr.step w tile copy n t).wf = true → s.calm = true → s.powered (pgTile tile) = true → (s.pageH (pgTile tile)).resetting = false → s.mayWrite w (pgTile tile) .tile = true → fromDebugger w = false →
      Completes (.step w tile copy n t) s fun u => 
        u.tiles = s.tiles ∧
        u.fld (pgTile tile) 0x018 31 16 = min 0xFFFF (s.fld (pgTile tile) 0x018 31 16 + 1) ∧
        u.now = max s.now t ∧
        RegsOnly [pgTile tile] s u ∧
        { u with regs := s.regs, now := s.now, hot := s.hot } = s :)
    ∧ (∀ (w : Writer) (tile copy space idx t : Nat) (s : State), (Instr.debugRead w tile copy space idx t).wf = true → s.calm = true → s.powered (pgTile tile) = true → (s.pageH (pgTile tile)).resetting = false → s.mayWrite w (pgTile tile) .tile = true → fromDebugger w = false →
      Completes (.debugRead w tile copy space idx t) s fun u => 
        u.tiles = s.tiles ∧
        u.fld (pgTile tile) 0x018 31 16 = min 0xFFFF (s.fld (pgTile tile) 0x018 31 16 + 1) ∧
        u.now = max s.now t ∧
        RegsOnly [pgTile tile] s u ∧
        { u with regs := s.regs, now := s.now, hot := s.hot } = s :)
    ∧ (∀ (w : Writer) (tile copy space idx t : Nat) (s : State), (Instr.debugWrite w tile copy space idx t).wf = true → s.calm = true → s.powered (pgTile tile) = true → (s.pageH (pgTile tile)).resetting = false → s.mayWrite w (pgTile tile) .tile = true → fromDebugger w = false →
      Completes (.debugWrite w tile copy space idx t) s fun u => 
        u.tiles = s.tiles ∧
        u.fld (pgTile tile) 0x018 31 16 = min 0xFFFF (s.fld (pgTile tile) 0x018 31 16 + 1) ∧
        u.now = max s.now t ∧
        RegsOnly [pgTile tile] s u ∧
        { u with regs := s.regs, now := s.now, hot := s.hot } = s :)

/-- Each stack op of a bundle of its own moves the entries as its Stack column says, poison included; PICK and LOCAL push the entry they name, SETL writes its local; LIT pushes its literal, sign-extended from 4, 12 or 24 bits or the whole 32. PC moves past the bundle and all else stays, but for the code that fetch holds beside it. (So in every statement on an op of Kolotte: fetch changes only what the copy holds of its code, and the store buffer counts its cycles.) -/
def Obligations.KolotteStack : Prop :=
    (∀ (i : Issue) (k : KCopy) (s : State), (Instr.nop i).wf = true → s.calm = true → s.solo i (.nop) = true → s.copyOf i = k →
      Completes (.nop i) s fun u => 
        Took i s u (k.after k.depth [] ((k.pc + 2 * (i.lits.length + 1)) % 2 ^ 40)) :)
    ∧ (∀ (i : Issue) (k : KCopy) (a : Nat) (ap : Bool) (s : State), (Instr.drop i).wf = true → s.calm = true → s.solo i (.stk .drop) = true → s.copyOf i = k → k.entry (k.top - 1) = (a, ap) → a < 2 ^ 32 →
      Completes (.drop i) s fun u => 
        Took i s u (k.after (k.depth - 1) [] ((k.pc + 2 * (i.lits.length + 1)) % 2 ^ 40)) :)
    ∧ (∀ (i : Issue) (k : KCopy) (a : Nat) (ap : Bool) (s : State), (Instr.dup i).wf = true → s.calm = true → s.solo i (.stk .dup) = true → s.copyOf i = k → k.entry (k.top - 1) = (a, ap) → a < 2 ^ 32 →
      Completes (.dup i) s fun u => 
        Took i s u (k.after (k.depth + 1) [(k.top, a, ap)] ((k.pc + 2 * (i.lits.length + 1)) % 2 ^ 40)) :)
    ∧ (∀ (i : Issue) (k : KCopy) (a : Nat) (ap : Bool) (b : Nat) (bp : Bool) (s : State), (Instr.swap i).wf = true → s.calm = true → s.solo i (.stk .swap) = true → s.copyOf i = k → k.entry (k.top - 2) = (a, ap) → a < 2 ^ 32 → k.entry (k.top - 1) = (b, bp) → b < 2 ^ 32 →
      Completes (.swap i) s fun u => 
        Took i s u (k.after k.depth [(k.top - 2, b, bp), (k.top - 1, a, ap)] ((k.pc + 2 * (i.lits.length + 1)) % 2 ^ 40)) :)
    ∧ (∀ (i : Issue) (k : KCopy) (a : Nat) (ap : Bool) (b : Nat) (bp : Bool) (s : State), (Instr.over i).wf = true → s.calm = true → s.solo i (.stk .over) = true → s.copyOf i = k → k.entry (k.top - 2) = (a, ap) → a < 2 ^ 32 → k.entry (k.top - 1) = (b, bp) → b < 2 ^ 32 →
      Completes (.over i) s fun u => 
        Took i s u (k.after (k.depth + 1) [(k.top, a, ap)] ((k.pc + 2 * (i.lits.length + 1)) % 2 ^ 40)) :)
    ∧ (∀ (i : Issue) (k : KCopy) (a : Nat) (ap : Bool) (b : Nat) (bp : Bool) (c : Nat) (cp : Bool) (s : State), (Instr.rot i).wf = true → s.calm = true → s.solo i (.stk .rot) = true → s.copyOf i = k → k.entry (k.top - 3) = (a, ap) → a < 2 ^ 32 → k.entry (k.top - 2) = (b, bp) → b < 2 ^ 32 → k.entry (k.top - 1) = (c, cp) → c < 2 ^ 32 →
      Completes (.rot i) s fun u => 
        Took i s u (k.after k.depth [(k.top - 3, b, bp), (k.top - 2, c, cp), (k.top - 1, a, ap)] ((k.pc + 2 * (i.lits.length + 1)) % 2 ^ 40)) :)
    ∧ (∀ (i : Issue) (k : KCopy) (a : Nat) (ap : Bool) (b : Nat) (bp : Bool) (s : State), (Instr.dup2 i).wf = true → s.calm = true → s.solo i (.stk .dup2) = true → s.copyOf i = k → k.entry (k.top - 2) = (a, ap) → a < 2 ^ 32 → k.entry (k.top - 1) = (b, bp) → b < 2 ^ 32 →
      Completes (.dup2 i) s fun u => 
        Took i s u (k.after (k.depth + 2) [(k.top, a, ap), (k.top + 1, b, bp)] ((k.pc + 2 * (i.lits.length + 1)) % 2 ^ 40)) :)
    ∧ (∀ (i : Issue) (k : KCopy) (a : Nat) (ap : Bool) (b : Nat) (bp : Bool) (s : State), (Instr.drop2 i).wf = true → s.calm = true → s.solo i (.stk .drop2) = true → s.copyOf i = k → k.entry (k.top - 2) = (a, ap) → a < 2 ^ 32 → k.entry (k.top - 1) = (b, bp) → b < 2 ^ 32 →
      Completes (.drop2 i) s fun u => 
        Took i s u (k.after (k.depth - 2) [] ((k.pc + 2 * (i.lits.length + 1)) % 2 ^ 40)) :)
    ∧ (∀ (i : Issue) (k : KCopy) (a : Nat) (ap : Bool) (b : Nat) (bp : Bool) (c : Nat) (cp : Bool) (d : Nat) (dp : Bool) (s : State), (Instr.swap2 i).wf = true → s.calm = true → s.solo i (.stk .swap2) = true → s.copyOf i = k → k.entry (k.top - 4) = (a, ap) → a < 2 ^ 32 → k.entry (k.top - 3) = (b, bp) → b < 2 ^ 32 → k.entry (k.top - 2) = (c, cp) → c < 2 ^ 32 → k.entry (k.top - 1) = (d, dp) → d < 2 ^ 32 →
      Completes (.swap2 i) s fun u => 
        Took i s u (k.after k.depth [(k.top - 4, c, cp), (k.top - 3, d, dp), (k.top - 2, a, ap), (k.top - 1, b, bp)] ((k.pc + 2 * (i.lits.length + 1)) % 2 ^ 40)) :)
    ∧ (∀ (i : Issue) (k : KCopy) (a : Nat) (ap : Bool) (b : Nat) (bp : Bool) (s : State), (Instr.nip i).wf = true → s.calm = true → s.solo i (.stk .nip) = true → s.copyOf i = k → k.entry (k.top - 2) = (a, ap) → a < 2 ^ 32 → k.entry (k.top - 1) = (b, bp) → b < 2 ^ 32 →
      Completes (.nip i) s fun u => 
        Took i s u (({ k with depth := k.depth - 2 } : KCopy).lowFollow.after (k.depth - 1) [(k.top - 2, b, bp)] ((k.pc + 2 * (i.lits.length + 1)) % 2 ^ 40)) :)
    ∧ (∀ (i : Issue) (x a : Nat) (ap : Bool) (k : KCopy) (s : State), (Instr.pick i x).wf = true → s.calm = true → s.solo i (.pick x) = true → s.copyOf i = k → k.entry (k.top - 1 - x) = (a, ap) →
      Completes (.pick i x) s fun u => 
        Took i s u (k.after (k.depth + 1) [(k.top, a, ap)] ((k.pc + 2 * (i.lits.length + 1)) % 2 ^ 40)) :)
    ∧ (∀ (i : Issue) (m : Nat) (k : KCopy) (s : State), (Instr.dropn i m).wf = true → s.calm = true → s.solo i (.dropn m) = true → s.copyOf i = k →
      Completes (.dropn i m) s fun u => 
        Took i s u (k.after (k.depth - (m + 1)) [] ((k.pc + 2 * (i.lits.length + 1)) % 2 ^ 40)) :)
    ∧ (∀ (i : Issue) (x a : Nat) (ap : Bool) (k : KCopy) (s : State), (Instr.loc i x).wf = true → s.calm = true → s.solo i (.loc x) = true → s.copyOf i = k → k.entry (k.base + x) = (a, ap) →
      Completes (.loc i x) s fun u => 
        Took i s u (k.after (k.depth + 1) [(k.top, a, ap)] ((k.pc + 2 * (i.lits.length + 1)) % 2 ^ 40)) :)
    ∧ (∀ (i : Issue) (x : Nat) (k : KCopy) (a : Nat) (ap : Bool) (s : State), (Instr.setl i x).wf = true → s.calm = true → s.solo i (.setl x) = true → s.copyOf i = k → k.entry (k.top - 1) = (a, ap) → a < 2 ^ 32 →
      Completes (.setl i x) s fun u => 
        Took i s u (k.after (k.depth - 1) [(k.base + x, a, ap)] ((k.pc + 2 * (i.lits.length + 1)) % 2 ^ 40)) :)
    ∧ (∀ (i : Issue) (ln : Nat) (k : KCopy) (s : State), (Instr.lit i ln).wf = true → s.calm = true → s.solo i (.lit ln) = true → s.copyOf i = k → i.lits = [] →
      Completes (.lit i ln) s fun u => 
        (Took i s u (k.after (k.depth + 1) [(k.top, (if ln < 8 then ln else 2 ^ 32 - 16 + ln), false)] ((k.pc + 2 * (i.lits.length + 1)) % 2 ^ 40))) :)
    ∧ (∀ (i : Issue) (v : Nat) (k : KCopy) (s : State), (Instr.lit i 0).wf = true → s.calm = true → s.solo i (.lit 0) = true → s.copyOf i = k → i.lits = [v] →
      Completes (.lit i 0) s fun u => 
        (Took i s u (k.after (k.depth + 1) [(k.top, (if v < 2048 then v else 2 ^ 32 - 4096 + v), false)] ((k.pc + 2 * (i.lits.length + 1)) % 2 ^ 40))) :)
    ∧ (∀ (i : Issue) (v w : Nat) (k : KCopy) (s : State), (Instr.lit i 0).wf = true → s.calm = true → s.solo i (.lit 0) = true → s.copyOf i = k → i.lits = [v, w] →
      Completes (.lit i 0) s fun u => 
        Took i s u (k.after (k.depth + 1) [(k.top, (BitVec.signExtend 32 (BitVec.ofNat 24 (v * 4096 + w))).toNat, false)] ((k.pc + 2 * (i.lits.length + 1)) % 2 ^ 40)) :)
    ∧ (∀ (i : Issue) (ln v w z : Nat) (k : KCopy) (s : State), (Instr.lit i ln).wf = true → s.calm = true → s.solo i (.lit ln) = true → s.copyOf i = k → i.lits = [v, w, z] →
      Completes (.lit i ln) s fun u => 
        Took i s u (k.after (k.depth + 1) [(k.top, (v * 2 ^ 28 + w * 2 ^ 16 + z * 2 ^ 4 + ln), false)] ((k.pc + 2 * (i.lits.length + 1)) % 2 ^ 40)) :)

/-- ADD and SUB wrap, the logic ops work bit by bit, shifts and rotations go by b mod 32, MIN and MAX compare signed words and MINU and MAXU unsigned ones; the result takes the place of both operands and is poisoned when one of them is. -/
def Obligations.KolotteArith : Prop :=
    (∀ (i : Issue) (k : KCopy) (a : Nat) (ap : Bool) (b : Nat) (bp : Bool) (s : State), (Instr.add i).wf = true → s.calm = true → s.solo i (.bin .add) = true → s.copyOf i = k → k.entry (k.top - 2) = (a, ap) → a < 2 ^ 32 → k.entry (k.top - 1) = (b, bp) → b < 2 ^ 32 →
      Completes (.add i) s fun u => 
        Took i s u (k.after (k.depth - 1) [(k.top - 2, ((BitVec.ofNat 32 a) + (BitVec.ofNat 32 b)).toNat, ap || bp)] ((k.pc + 2 * (i.lits.length + 1)) % 2 ^ 40)) :)
    ∧ (∀ (i : Issue) (k : KCopy) (a : Nat) (ap : Bool) (b : Nat) (bp : Bool) (s : State), (Instr.sub i).wf = true → s.calm = true → s.solo i (.bin .sub) = true → s.copyOf i = k → k.entry (k.top - 2) = (a, ap) → a < 2 ^ 32 → k.entry (k.top - 1) = (b, bp) → b < 2 ^ 32 →
      Completes (.sub i) s fun u => 
        Took i s u (k.after (k.depth - 1) [(k.top - 2, ((BitVec.ofNat 32 a) - (BitVec.ofNat 32 b)).toNat, ap || bp)] ((k.pc + 2 * (i.lits.length + 1)) % 2 ^ 40)) :)
    ∧ (∀ (i : Issue) (k : KCopy) (a : Nat) (ap : Bool) (b : Nat) (bp : Bool) (s : State), (Instr.and i).wf = true → s.calm = true → s.solo i (.bin .and) = true → s.copyOf i = k → k.entry (k.top - 2) = (a, ap) → a < 2 ^ 32 → k.entry (k.top - 1) = (b, bp) → b < 2 ^ 32 →
      Completes (.and i) s fun u => 
        Took i s u (k.after (k.depth - 1) [(k.top - 2, ((BitVec.ofNat 32 a) &&& (BitVec.ofNat 32 b)).toNat, ap || bp)] ((k.pc + 2 * (i.lits.length + 1)) % 2 ^ 40)) :)
    ∧ (∀ (i : Issue) (k : KCopy) (a : Nat) (ap : Bool) (b : Nat) (bp : Bool) (s : State), (Instr.or i).wf = true → s.calm = true → s.solo i (.bin .or) = true → s.copyOf i = k → k.entry (k.top - 2) = (a, ap) → a < 2 ^ 32 → k.entry (k.top - 1) = (b, bp) → b < 2 ^ 32 →
      Completes (.or i) s fun u => 
        Took i s u (k.after (k.depth - 1) [(k.top - 2, ((BitVec.ofNat 32 a) ||| (BitVec.ofNat 32 b)).toNat, ap || bp)] ((k.pc + 2 * (i.lits.length + 1)) % 2 ^ 40)) :)
    ∧ (∀ (i : Issue) (k : KCopy) (a : Nat) (ap : Bool) (b : Nat) (bp : Bool) (s : State), (Instr.xor i).wf = true → s.calm = true → s.solo i (.bin .xor) = true → s.copyOf i = k → k.entry (k.top - 2) = (a, ap) → a < 2 ^ 32 → k.entry (k.top - 1) = (b, bp) → b < 2 ^ 32 →
      Completes (.xor i) s fun u => 
        Took i s u (k.after (k.depth - 1) [(k.top - 2, ((BitVec.ofNat 32 a) ^^^ (BitVec.ofNat 32 b)).toNat, ap || bp)] ((k.pc + 2 * (i.lits.length + 1)) % 2 ^ 40)) :)
    ∧ (∀ (i : Issue) (k : KCopy) (a : Nat) (ap : Bool) (b : Nat) (bp : Bool) (s : State), (Instr.andn i).wf = true → s.calm = true → s.solo i (.bin .andn) = true → s.copyOf i = k → k.entry (k.top - 2) = (a, ap) → a < 2 ^ 32 → k.entry (k.top - 1) = (b, bp) → b < 2 ^ 32 →
      Completes (.andn i) s fun u => 
        Took i s u (k.after (k.depth - 1) [(k.top - 2, ((BitVec.ofNat 32 a) &&& ~~~(BitVec.ofNat 32 b)).toNat, ap || bp)] ((k.pc + 2 * (i.lits.length + 1)) % 2 ^ 40)) :)
    ∧ (∀ (i : Issue) (k : KCopy) (a : Nat) (ap : Bool) (b : Nat) (bp : Bool) (s : State), (Instr.shl i).wf = true → s.calm = true → s.solo i (.bin .shl) = true → s.copyOf i = k → k.entry (k.top - 2) = (a, ap) → a < 2 ^ 32 → k.entry (k.top - 1) = (b, bp) → b < 2 ^ 32 →
      Completes (.shl i) s fun u => 
        Took i s u (k.after (k.depth - 1) [(k.top - 2, ((BitVec.ofNat 32 a) <<< (b % 32)).toNat, ap || bp)] ((k.pc + 2 * (i.lits.length + 1)) % 2 ^ 40)) :)
    ∧ (∀ (i : Issue) (k : KCopy) (a : Nat) (ap : Bool) (b : Nat) (bp : Bool) (s : State), (Instr.shr i).wf = true → s.calm = true → s.solo i (.bin .shr) = true → s.copyOf i = k → k.entry (k.top - 2) = (a, ap) → a < 2 ^ 32 → k.entry (k.top - 1) = (b, bp) → b < 2 ^ 32 →
      Completes (.shr i) s fun u => 
        Took i s u (k.after (k.depth - 1) [(k.top - 2, ((BitVec.ofNat 32 a) >>> (b % 32)).toNat, ap || bp)] ((k.pc + 2 * (i.lits.length + 1)) % 2 ^ 40)) :)
    ∧ (∀ (i : Issue) (k : KCopy) (a : Nat) (ap : Bool) (b : Nat) (bp : Bool) (s : State), (Instr.sar i).wf = true → s.calm = true → s.solo i (.bin .sar) = true → s.copyOf i = k → k.entry (k.top - 2) = (a, ap) → a < 2 ^ 32 → k.entry (k.top - 1) = (b, bp) → b < 2 ^ 32 →
      Completes (.sar i) s fun u => 
        Took i s u (k.after (k.depth - 1) [(k.top - 2, (BitVec.sshiftRight (BitVec.ofNat 32 a) (b % 32)).toNat, ap || bp)] ((k.pc + 2 * (i.lits.length + 1)) % 2 ^ 40)) :)
    ∧ (∀ (i : Issue) (k : KCopy) (a : Nat) (ap : Bool) (b : Nat) (bp : Bool) (s : State), (Instr.rol i).wf = true → s.calm = true → s.solo i (.bin .rol) = true → s.copyOf i = k → k.entry (k.top - 2) = (a, ap) → a < 2 ^ 32 → k.entry (k.top - 1) = (b, bp) → b < 2 ^ 32 →
      Completes (.rol i) s fun u => 
        Took i s u (k.after (k.depth - 1) [(k.top - 2, (BitVec.rotateLeft (BitVec.ofNat 32 a) (b % 32)).toNat, ap || bp)] ((k.pc + 2 * (i.lits.length + 1)) % 2 ^ 40)) :)
    ∧ (∀ (i : Issue) (k : KCopy) (a : Nat) (ap : Bool) (b : Nat) (bp : Bool) (s : State), (Instr.min i).wf = true → s.calm = true → s.solo i (.bin .min) = true → s.copyOf i = k → k.entry (k.top - 2) = (a, ap) → a < 2 ^ 32 → k.entry (k.top - 1) = (b, bp) → b < 2 ^ 32 →
      Completes (.min i) s fun u => 
        (Took i s u (k.after (k.depth - 1) [(k.top - 2, (if (BitVec.ofNat 32 b).slt (BitVec.ofNat 32 a) then b else a), ap || bp)] ((k.pc + 2 * (i.lits.length + 1)) % 2 ^ 40))) :)
    ∧ (∀ (i : Issue) (k : KCopy) (a : Nat) (ap : Bool) (b : Nat) (bp : Bool) (s : State), (Instr.max i).wf = true → s.calm = true → s.solo i (.bin .max) = true → s.copyOf i = k → k.entry (k.top - 2) = (a, ap) → a < 2 ^ 32 → k.entry (k.top - 1) = (b, bp) → b < 2 ^ 32 →
      Completes (.max i) s fun u => 
        (Took i s u (k.after (k.depth - 1) [(k.top - 2, (if (BitVec.ofNat 32 a).slt (BitVec.ofNat 32 b) then b else a), ap || bp)] ((k.pc + 2 * (i.lits.length + 1)) % 2 ^ 40))) :)
    ∧ (∀ (i : Issue) (k : KCopy) (a : Nat) (ap : Bool) (b : Nat) (bp : Bool) (s : State), (Instr.minu i).wf = true → s.calm = true → s.solo i (.bin .minu) = true → s.copyOf i = k → k.entry (k.top - 2) = (a, ap) → a < 2 ^ 32 → k.entry (k.top - 1) = (b, bp) → b < 2 ^ 32 →
      Completes (.minu i) s fun u => 
        (Took i s u (k.after (k.depth - 1) [(k.top - 2, (if b < a then b else a), ap || bp)] ((k.pc + 2 * (i.lits.length + 1)) % 2 ^ 40))) :)
    ∧ (∀ (i : Issue) (k : KCopy) (a : Nat) (ap : Bool) (b : Nat) (bp : Bool) (s : State), (Instr.maxu i).wf = true → s.calm = true → s.solo i (.bin .maxu) = true → s.copyOf i = k → k.entry (k.top - 2) = (a, ap) → a < 2 ^ 32 → k.entry (k.top - 1) = (b, bp) → b < 2 ^ 32 →
      Completes (.maxu i) s fun u => 
        (Took i s u (k.after (k.depth - 1) [(k.top - 2, (if a < b then b else a), ap || bp)] ((k.pc + 2 * (i.lits.length + 1)) % 2 ^ 40))) :)

/-- With PRECISE = 0, ADDV, SUBV and MULV write the wrapped result and leave an OVERFLOW exception pending exactly when the exact signed result does not fit. -/
def Obligations.KolotteChecked : Prop :=
    (∀ (i : Issue) (k : KCopy) (a : Nat) (ap : Bool) (b : Nat) (bp : Bool) (s : State), (Instr.addv i).wf = true → s.calm = true → s.solo i (.bin .addv) = true → s.copyOf i = k → k.entry (k.top - 2) = (a, ap) → a < 2 ^ 32 → k.entry (k.top - 1) = (b, bp) → b < 2 ^ 32 → bit k.status 1 = false →
      Completes (.addv i) s fun u => 
        (Took i s u (({ k.after (k.depth - 1) [(k.top - 2, (BitVec.ofInt 32 ((BitVec.ofNat 32 a).toInt + (BitVec.ofNat 32 b).toInt)).toNat, ap || bp)] ((k.pc + 2 * (i.lits.length + 1)) % 2 ^ 40) with arith := if (((BitVec.ofNat 32 a).toInt + (BitVec.ofNat 32 b).toInt) < -2 ^ 31 ∨ 2 ^ 31 ≤ ((BitVec.ofNat 32 a).toInt + (BitVec.ofNat 32 b).toInt)) then some ⟨8, k.pc, false, 0⟩ else none } : KCopy))) :)
    ∧ (∀ (i : Issue) (k : KCopy) (a : Nat) (ap : Bool) (b : Nat) (bp : Bool) (s : State), (Instr.subv i).wf = true → s.calm = true → s.solo i (.bin .subv) = true → s.copyOf i = k → k.entry (k.top - 2) = (a, ap) → a < 2 ^ 32 → k.entry (k.top - 1) = (b, bp) → b < 2 ^ 32 → bit k.status 1 = false →
      Completes (.subv i) s fun u => 
        (Took i s u (({ k.after (k.depth - 1) [(k.top - 2, (BitVec.ofInt 32 ((BitVec.ofNat 32 a).toInt - (BitVec.ofNat 32 b).toInt)).toNat, ap || bp)] ((k.pc + 2 * (i.lits.length + 1)) % 2 ^ 40) with arith := if (((BitVec.ofNat 32 a).toInt - (BitVec.ofNat 32 b).toInt) < -2 ^ 31 ∨ 2 ^ 31 ≤ ((BitVec.ofNat 32 a).toInt - (BitVec.ofNat 32 b).toInt)) then some ⟨8, k.pc, false, 0⟩ else none } : KCopy))) :)
    ∧ (∀ (i : Issue) (k : KCopy) (a : Nat) (ap : Bool) (b : Nat) (bp : Bool) (s : State), (Instr.mulv i).wf = true → s.calm = true → s.solo i (.bin .mulv) = true → s.copyOf i = k → k.entry (k.top - 2) = (a, ap) → a < 2 ^ 32 → k.entry (k.top - 1) = (b, bp) → b < 2 ^ 32 → bit k.status 1 = false →
      Completes (.mulv i) s fun u => 
        (Took i s u (({ k.after (k.depth - 1) [(k.top - 2, (BitVec.ofInt 32 ((BitVec.ofNat 32 a).toInt * (BitVec.ofNat 32 b).toInt)).toNat, ap || bp)] ((k.pc + 2 * (i.lits.length + 1)) % 2 ^ 40) with arith := if (((BitVec.ofNat 32 a).toInt * (BitVec.ofNat 32 b).toInt) < -2 ^ 31 ∨ 2 ^ 31 ≤ ((BitVec.ofNat 32 a).toInt * (BitVec.ofNat 32 b).toInt)) then some ⟨8, k.pc, false, 0⟩ else none } : KCopy))) :)

/-- QADD, QSUB, QNEG, QABS, QMUL and QMAC give the exact result held to −2^31 to 2^31 − 1 and set STATUS.SAT exactly when they hold it, a product being the full one plus 2^30 shifted right by 31; −1 × −1 gives 0x7FFFFFFF with SAT set; a conversion from binary32 sets SAT exactly when the rounded value lies outside. -/
def Obligations.SaturatingArithmetic : Prop :=
    (∀ (i : Issue) (k : KCopy) (a : Nat) (ap : Bool) (b : Nat) (bp : Bool) (s : State), (Instr.qadd i).wf = true → s.calm = true → s.solo i (.bin .qadd) = true → s.copyOf i = k → k.entry (k.top - 2) = (a, ap) → a < 2 ^ 32 → k.entry (k.top - 1) = (b, bp) → b < 2 ^ 32 →
      Completes (.qadd i) s fun u => 
        (Took i s u (({ k.after (k.depth - 1) [(k.top - 2, (BitVec.ofInt 32 (max (-2 ^ 31) (min (2 ^ 31 - 1) ((BitVec.ofNat 32 a).toInt + (BitVec.ofNat 32 b).toInt)))).toNat, ap || bp)] ((k.pc + 2 * (i.lits.length + 1)) % 2 ^ 40) with status := k.status ||| (if (((BitVec.ofNat 32 a).toInt + (BitVec.ofNat 32 b).toInt) < -2 ^ 31 ∨ 2 ^ 31 ≤ ((BitVec.ofNat 32 a).toInt + (BitVec.ofNat 32 b).toInt)) then 2 ^ 8 else 0) } : KCopy))) :)
    ∧ (∀ (i : Issue) (k : KCopy) (a : Nat) (ap : Bool) (b : Nat) (bp : Bool) (s : State), (Instr.qsub i).wf = true → s.calm = true → s.solo i (.bin .qsub) = true → s.copyOf i = k → k.entry (k.top - 2) = (a, ap) → a < 2 ^ 32 → k.entry (k.top - 1) = (b, bp) → b < 2 ^ 32 →
      Completes (.qsub i) s fun u => 
        (Took i s u (({ k.after (k.depth - 1) [(k.top - 2, (BitVec.ofInt 32 (max (-2 ^ 31) (min (2 ^ 31 - 1) ((BitVec.ofNat 32 a).toInt - (BitVec.ofNat 32 b).toInt)))).toNat, ap || bp)] ((k.pc + 2 * (i.lits.length + 1)) % 2 ^ 40) with status := k.status ||| (if (((BitVec.ofNat 32 a).toInt - (BitVec.ofNat 32 b).toInt) < -2 ^ 31 ∨ 2 ^ 31 ≤ ((BitVec.ofNat 32 a).toInt - (BitVec.ofNat 32 b).toInt)) then 2 ^ 8 else 0) } : KCopy))) :)
    ∧ (∀ (i : Issue) (k : KCopy) (a : Nat) (ap : Bool) (s : State), (Instr.qneg i).wf = true → s.calm = true → s.solo i (.un .qneg) = true → s.copyOf i = k → k.entry (k.top - 1) = (a, ap) → a < 2 ^ 32 →
      Completes (.qneg i) s fun u => 
        (Took i s u (({ k.after k.depth [(k.top - 1, (BitVec.ofInt 32 (max (-2 ^ 31) (min (2 ^ 31 - 1) (-(BitVec.ofNat 32 a).toInt)))).toNat, ap)] ((k.pc + 2 * (i.lits.length + 1)) % 2 ^ 40) with status := k.status ||| (if ((-(BitVec.ofNat 32 a).toInt) < -2 ^ 31 ∨ 2 ^ 31 ≤ (-(BitVec.ofNat 32 a).toInt)) then 2 ^ 8 else 0) } : KCopy))) :)
    ∧ (∀ (i : Issue) (k : KCopy) (a : Nat) (ap : Bool) (s : State), (Instr.qabs i).wf = true → s.calm = true → s.solo i (.un .qabs) = true → s.copyOf i = k → k.entry (k.top - 1) = (a, ap) → a < 2 ^ 32 →
      Completes (.qabs i) s fun u => 
        (Took i s u (({ k.after k.depth [(k.top - 1, (BitVec.ofInt 32 (max (-2 ^ 31) (min (2 ^ 31 - 1) (((BitVec.ofNat 32 a).toInt.natAbs : Int))))).toNat, ap)] ((k.pc + 2 * (i.lits.length + 1)) % 2 ^ 40) with status := k.status ||| (if (((BitVec.ofNat 32 a).toInt.natAbs : Int) < -2 ^ 31 ∨ 2 ^ 31 ≤ ((BitVec.ofNat 32 a).toInt.natAbs : Int)) then 2 ^ 8 else 0) } : KCopy))) :)
    ∧ (∀ (i : Issue) (k : KCopy) (a : Nat) (ap : Bool) (b : Nat) (bp : Bool) (s : State), (Instr.qmul i).wf = true → s.calm = true → s.solo i (.bin .qmul) = true → s.copyOf i = k → k.entry (k.top - 2) = (a, ap) → a < 2 ^ 32 → k.entry (k.top - 1) = (b, bp) → b < 2 ^ 32 →
      Completes (.qmul i) s fun u => 
        (Took i s u (({ k.after (k.depth - 1) [(k.top - 2, (BitVec.ofInt 32 (max (-2 ^ 31) (min (2 ^ 31 - 1) (((BitVec.ofNat 32 a).toInt * (BitVec.ofNat 32 b).toInt + 2 ^ 30) / 2 ^ 31)))).toNat, ap || bp)] ((k.pc + 2 * (i.lits.length + 1)) % 2 ^ 40) with status := k.status ||| (if ((((BitVec.ofNat 32 a).toInt * (BitVec.ofNat 32 b).toInt + 2 ^ 30) / 2 ^ 31) < -2 ^ 31 ∨ 2 ^ 31 ≤ (((BitVec.ofNat 32 a).toInt * (BitVec.ofNat 32 b).toInt + 2 ^ 30) / 2 ^ 31)) then 2 ^ 8 else 0) } : KCopy))) :)
    ∧ (∀ (i : Issue) (k : KCopy) (a : Nat) (ap : Bool) (b : Nat) (bp : Bool) (c : Nat) (cp : Bool) (s : State), (Instr.qmac i).wf = true → s.calm = true → s.solo i (.tern .qmac) = true → s.copyOf i = k → k.entry (k.top - 3) = (a, ap) → a < 2 ^ 32 → k.entry (k.top - 2) = (b, bp) → b < 2 ^ 32 → k.entry (k.top - 1) = (c, cp) → c < 2 ^ 32 →
      Completes (.qmac i) s fun u => 
        (Took i s u (({ k.after (k.depth - 2) [(k.top - 3, (BitVec.ofInt 32 (max (-2 ^ 31) (min (2 ^ 31 - 1) (((BitVec.ofNat 32 a).toInt * 2 ^ 31 + (BitVec.ofNat 32 b).toInt * (BitVec.ofNat 32 c).toInt + 2 ^ 30) / 2 ^ 31)))).toNat, ap || bp || cp)] ((k.pc + 2 * (i.lits.length + 1)) % 2 ^ 40) with status := k.status ||| (if ((((BitVec.ofNat 32 a).toInt * 2 ^ 31 + (BitVec.ofNat 32 b).toInt * (BitVec.ofNat 32 c).toInt + 2 ^ 30) / 2 ^ 31) < -2 ^ 31 ∨ 2 ^ 31 ≤ (((BitVec.ofNat 32 a).toInt * 2 ^ 31 + (BitVec.ofNat 32 b).toInt * (BitVec.ofNat 32 c).toInt + 2 ^ 30) / 2 ^ 31)) then 2 ^ 8 else 0) } : KCopy))) :)
    ∧ binVal false .qmul 0x80000000 0x80000000 = (0x7FFFFFFF, { sat := true }, none)
    ∧ (∀ ftz a, a < 2 ^ 32 → ((fToQ ftz a).2.sat = true ↔ fIsInf (fFlushIn ftz a) = true ∨ fIsFinite (fFlushIn ftz a) = true ∧ (fToRat (fFlushIn ftz a) * 2 ^ 31 < -(2 ^ 31) - 1 / 2 ∨ 2 ^ 31 - 1 / 2 ≤ fToRat (fFlushIn ftz a) * 2 ^ 31)))

/-- NOT, NEG and ABS wrap, counts run from 0 to 32, the extensions take 8 or 16 bits, BSWAP reverses the bytes; MUL gives the low word of a product, MULHS and MULHU its high word, MULL and MULLU all 64 bits, low word deeper. -/
def Obligations.KolotteUnary : Prop :=
    (∀ (i : Issue) (k : KCopy) (a : Nat) (ap : Bool) (s : State), (Instr.not i).wf = true → s.calm = true → s.solo i (.un .not) = true → s.copyOf i = k → k.entry (k.top - 1) = (a, ap) → a < 2 ^ 32 →
      Completes (.not i) s fun u => 
        Took i s u (k.after k.depth [(k.top - 1, (~~~(BitVec.ofNat 32 a)).toNat, ap)] ((k.pc + 2 * (i.lits.length + 1)) % 2 ^ 40)) :)
    ∧ (∀ (i : Issue) (k : KCopy) (a : Nat) (ap : Bool) (s : State), (Instr.neg i).wf = true → s.calm = true → s.solo i (.un .neg) = true → s.copyOf i = k → k.entry (k.top - 1) = (a, ap) → a < 2 ^ 32 →
      Completes (.neg i) s fun u => 
        Took i s u (k.after k.depth [(k.top - 1, (-(BitVec.ofNat 32 a)).toNat, ap)] ((k.pc + 2 * (i.lits.length + 1)) % 2 ^ 40)) :)
    ∧ (∀ (i : Issue) (k : KCopy) (a : Nat) (ap : Bool) (s : State), (Instr.abs i).wf = true → s.calm = true → s.solo i (.un .abs) = true → s.copyOf i = k → k.entry (k.top - 1) = (a, ap) → a < 2 ^ 32 →
      Completes (.abs i) s fun u => 
        (Took i s u (k.after k.depth [(k.top - 1, (if (BitVec.ofNat 32 a).msb then (-(BitVec.ofNat 32 a)).toNat else a), ap)] ((k.pc + 2 * (i.lits.length + 1)) % 2 ^ 40))) :)
    ∧ (∀ (i : Issue) (k : KCopy) (a : Nat) (ap : Bool) (s : State), (Instr.clz i).wf = true → s.calm = true → s.solo i (.un .clz) = true → s.copyOf i = k → k.entry (k.top - 1) = (a, ap) → a < 2 ^ 32 →
      Completes (.clz i) s fun u => 
        (Took i s u (k.after k.depth [(k.top - 1, (32 - ((List.range 33).find? fun n => decide (a < 2 ^ n)).getD 32), ap)] ((k.pc + 2 * (i.lits.length + 1)) % 2 ^ 40))) :)
    ∧ (∀ (i : Issue) (k : KCopy) (a : Nat) (ap : Bool) (s : State), (Instr.ctz i).wf = true → s.calm = true → s.solo i (.un .ctz) = true → s.copyOf i = k → k.entry (k.top - 1) = (a, ap) → a < 2 ^ 32 →
      Completes (.ctz i) s fun u => 
        (Took i s u (k.after k.depth [(k.top - 1, (((List.range 32).find? fun n => a.testBit n).getD 32), ap)] ((k.pc + 2 * (i.lits.length + 1)) % 2 ^ 40))) :)
    ∧ (∀ (i : Issue) (k : KCopy) (a : Nat) (ap : Bool) (s : State), (Instr.popc i).wf = true → s.calm = true → s.solo i (.un .popc) = true → s.copyOf i = k → k.entry (k.top - 1) = (a, ap) → a < 2 ^ 32 →
      Completes (.popc i) s fun u => 
        (Took i s u (k.after k.depth [(k.top - 1, ((List.range 32).filter fun n => a.testBit n).length, ap)] ((k.pc + 2 * (i.lits.length + 1)) % 2 ^ 40))) :)
    ∧ (∀ (i : Issue) (k : KCopy) (a : Nat) (ap : Bool) (s : State), (Instr.sxb i).wf = true → s.calm = true → s.solo i (.un .sxb) = true → s.copyOf i = k → k.entry (k.top - 1) = (a, ap) → a < 2 ^ 32 →
      Completes (.sxb i) s fun u => 
        Took i s u (k.after k.depth [(k.top - 1, (BitVec.signExtend 32 (BitVec.ofNat 8 a)).toNat, ap)] ((k.pc + 2 * (i.lits.length + 1)) % 2 ^ 40)) :)
    ∧ (∀ (i : Issue) (k : KCopy) (a : Nat) (ap : Bool) (s : State), (Instr.sxh i).wf = true → s.calm = true → s.solo i (.un .sxh) = true → s.copyOf i = k → k.entry (k.top - 1) = (a, ap) → a < 2 ^ 32 →
      Completes (.sxh i) s fun u => 
        Took i s u (k.after k.depth [(k.top - 1, (BitVec.signExtend 32 (BitVec.ofNat 16 a)).toNat, ap)] ((k.pc + 2 * (i.lits.length + 1)) % 2 ^ 40)) :)
    ∧ (∀ (i : Issue) (k : KCopy) (a : Nat) (ap : Bool) (s : State), (Instr.zxb i).wf = true → s.calm = true → s.solo i (.un .zxb) = true → s.copyOf i = k → k.entry (k.top - 1) = (a, ap) → a < 2 ^ 32 →
      Completes (.zxb i) s fun u => 
        Took i s u (k.after k.depth [(k.top - 1, (a % 256), ap)] ((k.pc + 2 * (i.lits.length + 1)) % 2 ^ 40)) :)
    ∧ (∀ (i : Issue) (k : KCopy) (a : Nat) (ap : Bool) (s : State), (Instr.zxh i).wf = true → s.calm = true → s.solo i (.un .zxh) = true → s.copyOf i = k → k.entry (k.top - 1) = (a, ap) → a < 2 ^ 32 →
      Completes (.zxh i) s fun u => 
        Took i s u (k.after k.depth [(k.top - 1, (a % 65536), ap)] ((k.pc + 2 * (i.lits.length + 1)) % 2 ^ 40)) :)
    ∧ (∀ (i : Issue) (k : KCopy) (a : Nat) (ap : Bool) (s : State), (Instr.bswap i).wf = true → s.calm = true → s.solo i (.un .bswap) = true → s.copyOf i = k → k.entry (k.top - 1) = (a, ap) → a < 2 ^ 32 →
      Completes (.bswap i) s fun u => 
        Took i s u (k.after k.depth [(k.top - 1, (a % 256 * 2 ^ 24 + a / 256 % 256 * 2 ^ 16 + a / 65536 % 256 * 256 + a / 2 ^ 24), ap)] ((k.pc + 2 * (i.lits.length + 1)) % 2 ^ 40)) :)
    ∧ (∀ (i : Issue) (k : KCopy) (a : Nat) (ap : Bool) (b : Nat) (bp : Bool) (s : State), (Instr.mul i).wf = true → s.calm = true → s.solo i (.bin .mul) = true → s.copyOf i = k → k.entry (k.top - 2) = (a, ap) → a < 2 ^ 32 → k.entry (k.top - 1) = (b, bp) → b < 2 ^ 32 →
      Completes (.mul i) s fun u => 
        Took i s u (k.after (k.depth - 1) [(k.top - 2, ((BitVec.ofNat 32 a) * (BitVec.ofNat 32 b)).toNat, ap || bp)] ((k.pc + 2 * (i.lits.length + 1)) % 2 ^ 40)) :)
    ∧ (∀ (i : Issue) (k : KCopy) (a : Nat) (ap : Bool) (b : Nat) (bp : Bool) (s : State), (Instr.mulhs i).wf = true → s.calm = true → s.solo i (.bin .mulhs) = true → s.copyOf i = k → k.entry (k.top - 2) = (a, ap) → a < 2 ^ 32 → k.entry (k.top - 1) = (b, bp) → b < 2 ^ 32 →
      Completes (.mulhs i) s fun u => 
        Took i s u (k.after (k.depth - 1) [(k.top - 2, (BitVec.ofInt 32 (((BitVec.ofNat 32 a).toInt * (BitVec.ofNat 32 b).toInt) / 2 ^ 32)).toNat, ap || bp)] ((k.pc + 2 * (i.lits.length + 1)) % 2 ^ 40)) :)
    ∧ (∀ (i : Issue) (k : KCopy) (a : Nat) (ap : Bool) (b : Nat) (bp : Bool) (s : State), (Instr.mulhu i).wf = true → s.calm = true → s.solo i (.bin .mulhu) = true → s.copyOf i = k → k.entry (k.top - 2) = (a, ap) → a < 2 ^ 32 → k.entry (k.top - 1) = (b, bp) → b < 2 ^ 32 →
      Completes (.mulhu i) s fun u => 
        Took i s u (k.after (k.depth - 1) [(k.top - 2, (a * b / 2 ^ 32), ap || bp)] ((k.pc + 2 * (i.lits.length + 1)) % 2 ^ 40)) :)
    ∧ (∀ (i : Issue) (k : KCopy) (a : Nat) (ap : Bool) (b : Nat) (bp : Bool) (s : State), (Instr.mull i).wf = true → s.calm = true → s.solo i (.wide true) = true → s.copyOf i = k → k.entry (k.top - 2) = (a, ap) → a < 2 ^ 32 → k.entry (k.top - 1) = (b, bp) → b < 2 ^ 32 →
      Completes (.mull i) s fun u => 
        Took i s u (k.after k.depth [(k.top - 2, (BitVec.ofInt 64 ((BitVec.ofNat 32 a).toInt * (BitVec.ofNat 32 b).toInt)).toNat % 2 ^ 32, ap || bp), (k.top - 1, (BitVec.ofInt 64 ((BitVec.ofNat 32 a).toInt * (BitVec.ofNat 32 b).toInt)).toNat / 2 ^ 32, ap || bp)] ((k.pc + 2 * (i.lits.length + 1)) % 2 ^ 40)) :)
    ∧ (∀ (i : Issue) (k : KCopy) (a : Nat) (ap : Bool) (b : Nat) (bp : Bool) (s : State), (Instr.mullu i).wf = true → s.calm = true → s.solo i (.wide false) = true → s.copyOf i = k → k.entry (k.top - 2) = (a, ap) → a < 2 ^ 32 → k.entry (k.top - 1) = (b, bp) → b < 2 ^ 32 →
      Completes (.mullu i) s fun u => 
        Took i s u (k.after k.depth [(k.top - 2, a * b % 2 ^ 32, ap || bp), (k.top - 1, a * b / 2 ^ 32, ap || bp)] ((k.pc + 2 * (i.lits.length + 1)) % 2 ^ 40)) :)

/-- CMPc and CMPZc set Pn to their relation over clean words, signed or unsigned; PLOG, PSET, PCLR, PNOT and POPP write Pn, a write to P0 is ignored; PUSHP pushes 0 or 1; SEL keeps the entry its predicate chooses, with its poison. -/
def Obligations.KolotteCompare : Prop :=
    (∀ (i : Issue) (n : Nat) (k : KCopy) (a : Nat) (ap : Bool) (b : Nat) (bp : Bool) (s : State), (Instr.cmp i 0 n).wf = true → s.calm = true → s.solo i (.cmp 0 n) = true → s.copyOf i = k → k.entry (k.top - 2) = (a, ap) → a < 2 ^ 32 → k.entry (k.top - 1) = (b, bp) → b < 2 ^ 32 → ap = false → bp = false →
      Completes (.cmp i 0 n) s fun u => 
        (Took i s u (({ k.after (k.depth - 2) [] ((k.pc + 2 * (i.lits.length + 1)) % 2 ^ 40) with preds := if n = 0 then k.preds else setBit k.preds n (decide (a = b)) } : KCopy))) :)
    ∧ (∀ (i : Issue) (n : Nat) (k : KCopy) (a : Nat) (ap : Bool) (b : Nat) (bp : Bool) (s : State), (Instr.cmp i 1 n).wf = true → s.calm = true → s.solo i (.cmp 1 n) = true → s.copyOf i = k → k.entry (k.top - 2) = (a, ap) → a < 2 ^ 32 → k.entry (k.top - 1) = (b, bp) → b < 2 ^ 32 → ap = false → bp = false →
      Completes (.cmp i 1 n) s fun u => 
        (Took i s u (({ k.after (k.depth - 2) [] ((k.pc + 2 * (i.lits.length + 1)) % 2 ^ 40) with preds := if n = 0 then k.preds else setBit k.preds n (decide (a ≠ b)) } : KCopy))) :)
    ∧ (∀ (i : Issue) (n : Nat) (k : KCopy) (a : Nat) (ap : Bool) (b : Nat) (bp : Bool) (s : State), (Instr.cmp i 2 n).wf = true → s.calm = true → s.solo i (.cmp 2 n) = true → s.copyOf i = k → k.entry (k.top - 2) = (a, ap) → a < 2 ^ 32 → k.entry (k.top - 1) = (b, bp) → b < 2 ^ 32 → ap = false → bp = false →
      Completes (.cmp i 2 n) s fun u => 
        (Took i s u (({ k.after (k.depth - 2) [] ((k.pc + 2 * (i.lits.length + 1)) % 2 ^ 40) with preds := if n = 0 then k.preds else setBit k.preds n (decide ((BitVec.ofNat 32 a).toInt < (BitVec.ofNat 32 b).toInt)) } : KCopy))) :)
    ∧ (∀ (i : Issue) (n : Nat) (k : KCopy) (a : Nat) (ap : Bool) (b : Nat) (bp : Bool) (s : State), (Instr.cmp i 3 n).wf = true → s.calm = true → s.solo i (.cmp 3 n) = true → s.copyOf i = k → k.entry (k.top - 2) = (a, ap) → a < 2 ^ 32 → k.entry (k.top - 1) = (b, bp) → b < 2 ^ 32 → ap = false → bp = false →
      Completes (.cmp i 3 n) s fun u => 
        (Took i s u (({ k.after (k.depth - 2) [] ((k.pc + 2 * (i.lits.length + 1)) % 2 ^ 40) with preds := if n = 0 then k.preds else setBit k.preds n (decide ((BitVec.ofNat 32 b).toInt ≤ (BitVec.ofNat 32 a).toInt)) } : KCopy))) :)
    ∧ (∀ (i : Issue) (n : Nat) (k : KCopy) (a : Nat) (ap : Bool) (b : Nat) (bp : Bool) (s : State), (Instr.cmp i 4 n).wf = true → s.calm = true → s.solo i (.cmp 4 n) = true → s.copyOf i = k → k.entry (k.top - 2) = (a, ap) → a < 2 ^ 32 → k.entry (k.top - 1) = (b, bp) → b < 2 ^ 32 → ap = false → bp = false →
      Completes (.cmp i 4 n) s fun u => 
        (Took i s u (({ k.after (k.depth - 2) [] ((k.pc + 2 * (i.lits.length + 1)) % 2 ^ 40) with preds := if n = 0 then k.preds else setBit k.preds n (decide (a < b)) } : KCopy))) :)
    ∧ (∀ (i : Issue) (n : Nat) (k : KCopy) (a : Nat) (ap : Bool) (b : Nat) (bp : Bool) (s : State), (Instr.cmp i 5 n).wf = true → s.calm = true → s.solo i (.cmp 5 n) = true → s.copyOf i = k → k.entry (k.top - 2) = (a, ap) → a < 2 ^ 32 → k.entry (k.top - 1) = (b, bp) → b < 2 ^ 32 → ap = false → bp = false →
      Completes (.cmp i 5 n) s fun u => 
        (Took i s u (({ k.after (k.depth - 2) [] ((k.pc + 2 * (i.lits.length + 1)) % 2 ^ 40) with preds := if n = 0 then k.preds else setBit k.preds n (decide (b ≤ a)) } : KCopy))) :)
    ∧ (∀ (i : Issue) (n : Nat) (k : KCopy) (a : Nat) (ap : Bool) (b : Nat) (bp : Bool) (s : State), (Instr.cmp i 6 n).wf = true → s.calm = true → s.solo i (.cmp 6 n) = true → s.copyOf i = k → k.entry (k.top - 2) = (a, ap) → a < 2 ^ 32 → k.entry (k.top - 1) = (b, bp) → b < 2 ^ 32 → ap = false → bp = false →
      Completes (.cmp i 6 n) s fun u => 
        (Took i s u (({ k.after (k.depth - 2) [] ((k.pc + 2 * (i.lits.length + 1)) % 2 ^ 40) with preds := if n = 0 then k.preds else setBit k.preds n (decide (a &&& b ≠ 0)) } : KCopy))) :)
    ∧ (∀ (i : Issue) (n : Nat) (k : KCopy) (a : Nat) (ap : Bool) (b : Nat) (bp : Bool) (s : State), (Instr.cmp i 7 n).wf = true → s.calm = true → s.solo i (.cmp 7 n) = true → s.copyOf i = k → k.entry (k.top - 2) = (a, ap) → a < 2 ^ 32 → k.entry (k.top - 1) = (b, bp) → b < 2 ^ 32 → ap = false → bp = false →
      Completes (.cmp i 7 n) s fun u => 
        (Took i s u (({ k.after (k.depth - 2) [] ((k.pc + 2 * (i.lits.length + 1)) % 2 ^ 40) with preds := if n = 0 then k.preds else setBit k.preds n (decide (a &&& b = 0)) } : KCopy))) :)
    ∧ (∀ (i : Issue) (n : Nat) (k : KCopy) (a : Nat) (ap : Bool) (s : State), (Instr.cmpz i 0 n).wf = true → s.calm = true → s.solo i (.cmpz 0 n) = true → s.copyOf i = k → k.entry (k.top - 1) = (a, ap) → a < 2 ^ 32 → ap = false →
      Completes (.cmpz i 0 n) s fun u => 
        (Took i s u (({ k.after (k.depth - 1) [] ((k.pc + 2 * (i.lits.length + 1)) % 2 ^ 40) with preds := if n = 0 then k.preds else setBit k.preds n (decide (a = 0)) } : KCopy))) :)
    ∧ (∀ (i : Issue) (n : Nat) (k : KCopy) (a : Nat) (ap : Bool) (s : State), (Instr.cmpz i 1 n).wf = true → s.calm = true → s.solo i (.cmpz 1 n) = true → s.copyOf i = k → k.entry (k.top - 1) = (a, ap) → a < 2 ^ 32 → ap = false →
      Completes (.cmpz i 1 n) s fun u => 
        (Took i s u (({ k.after (k.depth - 1) [] ((k.pc + 2 * (i.lits.length + 1)) % 2 ^ 40) with preds := if n = 0 then k.preds else setBit k.preds n (decide (a ≠ 0)) } : KCopy))) :)
    ∧ (∀ (i : Issue) (n : Nat) (k : KCopy) (a : Nat) (ap : Bool) (s : State), (Instr.cmpz i 2 n).wf = true → s.calm = true → s.solo i (.cmpz 2 n) = true → s.copyOf i = k → k.entry (k.top - 1) = (a, ap) → a < 2 ^ 32 → ap = false →
      Completes (.cmpz i 2 n) s fun u => 
        (Took i s u (({ k.after (k.depth - 1) [] ((k.pc + 2 * (i.lits.length + 1)) % 2 ^ 40) with preds := if n = 0 then k.preds else setBit k.preds n (decide ((BitVec.ofNat 32 a).toInt < 0)) } : KCopy))) :)
    ∧ (∀ (i : Issue) (n : Nat) (k : KCopy) (a : Nat) (ap : Bool) (s : State), (Instr.cmpz i 3 n).wf = true → s.calm = true → s.solo i (.cmpz 3 n) = true → s.copyOf i = k → k.entry (k.top - 1) = (a, ap) → a < 2 ^ 32 → ap = false →
      Completes (.cmpz i 3 n) s fun u => 
        (Took i s u (({ k.after (k.depth - 1) [] ((k.pc + 2 * (i.lits.length + 1)) % 2 ^ 40) with preds := if n = 0 then k.preds else setBit k.preds n (decide (0 ≤ (BitVec.ofNat 32 a).toInt)) } : KCopy))) :)
    ∧ (∀ (i : Issue) (n : Nat) (k : KCopy) (a : Nat) (ap : Bool) (s : State), (Instr.cmpz i 4 n).wf = true → s.calm = true → s.solo i (.cmpz 4 n) = true → s.copyOf i = k → k.entry (k.top - 1) = (a, ap) → a < 2 ^ 32 → ap = false →
      Completes (.cmpz i 4 n) s fun u => 
        (Took i s u (({ k.after (k.depth - 1) [] ((k.pc + 2 * (i.lits.length + 1)) % 2 ^ 40) with preds := if n = 0 then k.preds else setBit k.preds n (decide (0 < (BitVec.ofNat 32 a).toInt)) } : KCopy))) :)
    ∧ (∀ (i : Issue) (n : Nat) (k : KCopy) (a : Nat) (ap : Bool) (s : State), (Instr.cmpz i 5 n).wf = true → s.calm = true → s.solo i (.cmpz 5 n) = true → s.copyOf i = k → k.entry (k.top - 1) = (a, ap) → a < 2 ^ 32 → ap = false →
      Completes (.cmpz i 5 n) s fun u => 
        (Took i s u (({ k.after (k.depth - 1) [] ((k.pc + 2 * (i.lits.length + 1)) % 2 ^ 40) with preds := if n = 0 then k.preds else setBit k.preds n (decide ((BitVec.ofNat 32 a).toInt ≤ 0)) } : KCopy))) :)
    ∧ (∀ (i : Issue) (m n : Nat) (k : KCopy) (s : State), (Instr.plog i 0 m n).wf = true → s.calm = true → s.solo i (.plog 0 m n) = true → s.copyOf i = k →
      Completes (.plog i 0 m n) s fun u => 
        (Took i s u (({ k.after k.depth [] ((k.pc + 2 * (i.lits.length + 1)) % 2 ^ 40) with preds := if n = 0 then k.preds else setBit k.preds n (k.pred n && k.pred m) } : KCopy))) :)
    ∧ (∀ (i : Issue) (m n : Nat) (k : KCopy) (s : State), (Instr.plog i 1 m n).wf = true → s.calm = true → s.solo i (.plog 1 m n) = true → s.copyOf i = k →
      Completes (.plog i 1 m n) s fun u => 
        (Took i s u (({ k.after k.depth [] ((k.pc + 2 * (i.lits.length + 1)) % 2 ^ 40) with preds := if n = 0 then k.preds else setBit k.preds n (k.pred n || k.pred m) } : KCopy))) :)
    ∧ (∀ (i : Issue) (m n : Nat) (k : KCopy) (s : State), (Instr.plog i 2 m n).wf = true → s.calm = true → s.solo i (.plog 2 m n) = true → s.copyOf i = k →
      Completes (.plog i 2 m n) s fun u => 
        (Took i s u (({ k.after k.depth [] ((k.pc + 2 * (i.lits.length + 1)) % 2 ^ 40) with preds := if n = 0 then k.preds else setBit k.preds n (k.pred n != k.pred m) } : KCopy))) :)
    ∧ (∀ (i : Issue) (m n : Nat) (k : KCopy) (s : State), (Instr.plog i 3 m n).wf = true → s.calm = true → s.solo i (.plog 3 m n) = true → s.copyOf i = k →
      Completes (.plog i 3 m n) s fun u => 
        (Took i s u (({ k.after k.depth [] ((k.pc + 2 * (i.lits.length + 1)) % 2 ^ 40) with preds := if n = 0 then k.preds else setBit k.preds n (k.pred n && !k.pred m) } : KCopy))) :)
    ∧ (∀ (i : Issue) (n : Nat) (k : KCopy) (s : State), (Instr.pset i n).wf = true → s.calm = true → s.solo i (.pset n) = true → s.copyOf i = k →
      Completes (.pset i n) s fun u => 
        (Took i s u (({ k.after k.depth [] ((k.pc + 2 * (i.lits.length + 1)) % 2 ^ 40) with preds := if n = 0 then k.preds else setBit k.preds n (true) } : KCopy))) :)
    ∧ (∀ (i : Issue) (n : Nat) (k : KCopy) (s : State), (Instr.pclr i n).wf = true → s.calm = true → s.solo i (.pclr n) = true → s.copyOf i = k →
      Completes (.pclr i n) s fun u => 
        (Took i s u (({ k.after k.depth [] ((k.pc + 2 * (i.lits.length + 1)) % 2 ^ 40) with preds := if n = 0 then k.preds else setBit k.preds n (false) } : KCopy))) :)
    ∧ (∀ (i : Issue) (n : Nat) (k : KCopy) (s : State), (Instr.pnot i n).wf = true → s.calm = true → s.solo i (.pnot n) = true → s.copyOf i = k →
      Completes (.pnot i n) s fun u => 
        (Took i s u (({ k.after k.depth [] ((k.pc + 2 * (i.lits.length + 1)) % 2 ^ 40) with preds := if n = 0 then k.preds else setBit k.preds n (!k.pred n) } : KCopy))) :)
    ∧ (∀ (i : Issue) (n : Nat) (k : KCopy) (s : State), (Instr.pushp i n).wf = true → s.calm = true → s.solo i (.pushp n) = true → s.copyOf i = k →
      Completes (.pushp i n) s fun u => 
        (Took i s u (k.after (k.depth + 1) [(k.top, (if k.pred n then 1 else 0), false)] ((k.pc + 2 * (i.lits.length + 1)) % 2 ^ 40))) :)
    ∧ (∀ (i : Issue) (n : Nat) (k : KCopy) (a : Nat) (ap : Bool) (s : State), (Instr.popp i n).wf = true → s.calm = true → s.solo i (.popp n) = true → s.copyOf i = k → k.entry (k.top - 1) = (a, ap) → a < 2 ^ 32 → ap = false →
      Completes (.popp i n) s fun u => 
        (Took i s u (({ k.after (k.depth - 1) [] ((k.pc + 2 * (i.lits.length + 1)) % 2 ^ 40) with preds := if n = 0 then k.preds else setBit k.preds n (decide (a ≠ 0)) } : KCopy))) :)
    ∧ (∀ (i : Issue) (n : Nat) (k : KCopy) (a : Nat) (ap : Bool) (b : Nat) (bp : Bool) (s : State), (Instr.sel i n).wf = true → s.calm = true → s.solo i (.sel n) = true → s.copyOf i = k → k.entry (k.top - 2) = (a, ap) → a < 2 ^ 32 → k.entry (k.top - 1) = (b, bp) → b < 2 ^ 32 →
      Completes (.sel i n) s fun u => 
        (Took i s u (k.after (k.depth - 1) [(k.top - 2, (if k.pred n then a else b), (if k.pred n then ap else bp))] ((k.pc + 2 * (i.lits.length + 1)) % 2 ^ 40))) :)

/-- ANGADD works modulo 2^64 on two entries each; the read operations push STATUS, LC, RC, the predicates, DEPTH before the push, RSP over C1 and the tile word; the write operations set them from a clean word, STATUS only in the bits that exist, P0 never. -/
def Obligations.KolotteAngles : Prop :=
    (∀ (i : Issue) (k : KCopy) (al : Nat) (alp : Bool) (ah : Nat) (ahp : Bool) (bl : Nat) (blp : Bool) (bh : Nat) (bhp : Bool) (s : State), (Instr.angadd i).wf = true → s.calm = true → s.solo i (.ang false) = true → s.copyOf i = k → k.entry (k.top - 4) = (al, alp) → al < 2 ^ 32 → k.entry (k.top - 3) = (ah, ahp) → ah < 2 ^ 32 → k.entry (k.top - 2) = (bl, blp) → bl < 2 ^ 32 → k.entry (k.top - 1) = (bh, bhp) → bh < 2 ^ 32 →
      Completes (.angadd i) s fun u => 
        Took i s u (k.after (k.depth - 2) [(k.top - 4, (BitVec.ofNat 64 (al + ah * 2 ^ 32) + BitVec.ofNat 64 (bl + bh * 2 ^ 32)).toNat % 2 ^ 32, alp || ahp || (blp || bhp)), (k.top - 3, (BitVec.ofNat 64 (al + ah * 2 ^ 32) + BitVec.ofNat 64 (bl + bh * 2 ^ 32)).toNat / 2 ^ 32, alp || ahp || (blp || bhp))] ((k.pc + 2 * (i.lits.length + 1)) % 2 ^ 40)) :)
    ∧ (∀ (i : Issue) (k : KCopy) (s : State), (Instr.rdst i).wf = true → s.calm = true → s.solo i (.rdst) = true → s.copyOf i = k →
      Completes (.rdst i) s fun u => 
        Took i s u (k.after (k.depth + 1) [(k.top, k.status, false)] ((k.pc + 2 * (i.lits.length + 1)) % 2 ^ 40)) :)
    ∧ (∀ (i : Issue) (k : KCopy) (s : State), (Instr.rdlc i).wf = true → s.calm = true → s.solo i (.rdlc) = true → s.copyOf i = k →
      Completes (.rdlc i) s fun u => 
        Took i s u (k.after (k.depth + 1) [(k.top, k.lc, false)] ((k.pc + 2 * (i.lits.length + 1)) % 2 ^ 40)) :)
    ∧ (∀ (i : Issue) (k : KCopy) (s : State), (Instr.rdrc i).wf = true → s.calm = true → s.solo i (.rdrc) = true → s.copyOf i = k →
      Completes (.rdrc i) s fun u => 
        Took i s u (k.after (k.depth + 1) [(k.top, k.rc, false)] ((k.pc + 2 * (i.lits.length + 1)) % 2 ^ 40)) :)
    ∧ (∀ (i : Issue) (k : KCopy) (s : State), (Instr.rdp i).wf = true → s.calm = true → s.solo i (.rdp) = true → s.copyOf i = k →
      Completes (.rdp i) s fun u => 
        Took i s u (k.after (k.depth + 1) [(k.top, k.preds ||| 1, false)] ((k.pc + 2 * (i.lits.length + 1)) % 2 ^ 40)) :)
    ∧ (∀ (i : Issue) (k : KCopy) (s : State), (Instr.rddep i).wf = true → s.calm = true → s.solo i (.rddep) = true → s.copyOf i = k →
      Completes (.rddep i) s fun u => 
        Took i s u (k.after (k.depth + 1) [(k.top, k.depth, false)] ((k.pc + 2 * (i.lits.length + 1)) % 2 ^ 40)) :)
    ∧ (∀ (i : Issue) (k : KCopy) (s : State), (Instr.rdrsp i).wf = true → s.calm = true → s.solo i (.rdrsp) = true → s.copyOf i = k →
      Completes (.rdrsp i) s fun u => 
        Took i s u (k.after (k.depth + 1) [(k.top, ((k.rsp + 2 ^ 40 - (k.cap 1).base) % 2 ^ 32), false)] ((k.pc + 2 * (i.lits.length + 1)) % 2 ^ 40)) :)
    ∧ (∀ (i : Issue) (k : KCopy) (s : State), (Instr.rdtile i).wf = true → s.calm = true → s.solo i (.rdtile) = true → s.copyOf i = k →
      Completes (.rdtile i) s fun u => 
        Took i s u (k.after (k.depth + 1) [(k.top, (i.tile + i.copy * 2 ^ 8 + (s.tileH i.tile).mode * 2 ^ 10), false)] ((k.pc + 2 * (i.lits.length + 1)) % 2 ^ 40)) :)
    ∧ (∀ (i : Issue) (k : KCopy) (a : Nat) (ap : Bool) (s : State), (Instr.wrst i).wf = true → s.calm = true → s.solo i (.wrst) = true → s.copyOf i = k → k.entry (k.top - 1) = (a, ap) → a < 2 ^ 32 → ap = false →
      Completes (.wrst i) s fun u => 
        Took i s u (({ k.after (k.depth - 1) [] ((k.pc + 2 * (i.lits.length + 1)) % 2 ^ 40) with status := a &&& 0x3F07 } : KCopy)) :)
    ∧ (∀ (i : Issue) (k : KCopy) (a : Nat) (ap : Bool) (s : State), (Instr.wrlc i).wf = true → s.calm = true → s.solo i (.wrlc) = true → s.copyOf i = k → k.entry (k.top - 1) = (a, ap) → a < 2 ^ 32 → ap = false →
      Completes (.wrlc i) s fun u => 
        Took i s u (({ k.after (k.depth - 1) [] ((k.pc + 2 * (i.lits.length + 1)) % 2 ^ 40) with lc := a } : KCopy)) :)
    ∧ (∀ (i : Issue) (k : KCopy) (a : Nat) (ap : Bool) (s : State), (Instr.wrrc i).wf = true → s.calm = true → s.solo i (.wrrc) = true → s.copyOf i = k → k.entry (k.top - 1) = (a, ap) → a < 2 ^ 32 → ap = false →
      Completes (.wrrc i) s fun u => 
        Took i s u (({ k.after (k.depth - 1) [] ((k.pc + 2 * (i.lits.length + 1)) % 2 ^ 40) with rc := a } : KCopy)) :)
    ∧ (∀ (i : Issue) (k : KCopy) (a : Nat) (ap : Bool) (s : State), (Instr.wrp i).wf = true → s.calm = true → s.solo i (.wrp) = true → s.copyOf i = k → k.entry (k.top - 1) = (a, ap) → a < 2 ^ 32 → ap = false →
      Completes (.wrp i) s fun u => 
        Took i s u (({ k.after (k.depth - 1) [] ((k.pc + 2 * (i.lits.length + 1)) % 2 ^ 40) with preds := a % 256 ||| 1 } : KCopy)) :)

/-- DIV and DIVU give the truncated quotient, REM and REMU the remainder with the sign of a; a divide by zero leaves 0 or a with INTDIV pending; the result of a division is in its divider until the next bundle, and the entry it is destined for still holds a. -/
def Obligations.KolotteDivide : Prop :=
    (∀ (i : Issue) (k : KCopy) (a : Nat) (ap : Bool) (b : Nat) (bp : Bool) (s : State), (Instr.div i).wf = true → s.calm = true → s.solo i (.bin .div) = true → s.copyOf i = k → k.entry (k.top - 2) = (a, ap) → a < 2 ^ 32 → k.entry (k.top - 1) = (b, bp) → b < 2 ^ 32 → bit k.status 1 = false →
      Completes (.div i) s fun u => 
        (Took i s u (({ k.after (k.depth - 1) [(k.top - 2, a, ap)] ((k.pc + 2 * (i.lits.length + 1)) % 2 ^ 40) with divI := some ⟨.bin .div, a, b, ap || bp, k.top - 2, (if b = 0 then 0 else (BitVec.sdiv (BitVec.ofNat 32 a) (BitVec.ofNat 32 b)).toNat), 0⟩, arith := if b = 0 then some ⟨9, k.pc, false, 0⟩ else if a = 2 ^ 31 ∧ b = 2 ^ 32 - 1 then some ⟨8, k.pc, false, 0⟩ else none, status := k.status } : KCopy))) :)
    ∧ (∀ (i : Issue) (k : KCopy) (a : Nat) (ap : Bool) (b : Nat) (bp : Bool) (s : State), (Instr.divu i).wf = true → s.calm = true → s.solo i (.bin .divu) = true → s.copyOf i = k → k.entry (k.top - 2) = (a, ap) → a < 2 ^ 32 → k.entry (k.top - 1) = (b, bp) → b < 2 ^ 32 → bit k.status 1 = false →
      Completes (.divu i) s fun u => 
        (Took i s u (({ k.after (k.depth - 1) [(k.top - 2, a, ap)] ((k.pc + 2 * (i.lits.length + 1)) % 2 ^ 40) with divI := some ⟨.bin .divu, a, b, ap || bp, k.top - 2, (if b = 0 then 0 else a / b), 0⟩, arith := if b = 0 then some ⟨9, k.pc, false, 0⟩ else none, status := k.status } : KCopy))) :)
    ∧ (∀ (i : Issue) (k : KCopy) (a : Nat) (ap : Bool) (b : Nat) (bp : Bool) (s : State), (Instr.rem i).wf = true → s.calm = true → s.solo i (.bin .rem) = true → s.copyOf i = k → k.entry (k.top - 2) = (a, ap) → a < 2 ^ 32 → k.entry (k.top - 1) = (b, bp) → b < 2 ^ 32 → bit k.status 1 = false →
      Completes (.rem i) s fun u => 
        (Took i s u (({ k.after (k.depth - 1) [(k.top - 2, a, ap)] ((k.pc + 2 * (i.lits.length + 1)) % 2 ^ 40) with divI := some ⟨.bin .rem, a, b, ap || bp, k.top - 2, (if b = 0 then a else (BitVec.srem (BitVec.ofNat 32 a) (BitVec.ofNat 32 b)).toNat), 0⟩, arith := if b = 0 then some ⟨9, k.pc, false, 0⟩ else none, status := k.status } : KCopy))) :)
    ∧ (∀ (i : Issue) (k : KCopy) (a : Nat) (ap : Bool) (b : Nat) (bp : Bool) (s : State), (Instr.remu i).wf = true → s.calm = true → s.solo i (.bin .remu) = true → s.copyOf i = k → k.entry (k.top - 2) = (a, ap) → a < 2 ^ 32 → k.entry (k.top - 1) = (b, bp) → b < 2 ^ 32 → bit k.status 1 = false →
      Completes (.remu i) s fun u => 
        (Took i s u (({ k.after (k.depth - 1) [(k.top - 2, a, ap)] ((k.pc + 2 * (i.lits.length + 1)) % 2 ^ 40) with divI := some ⟨.bin .remu, a, b, ap || bp, k.top - 2, (if b = 0 then a else a % b), 0⟩, arith := if b = 0 then some ⟨9, k.pc, false, 0⟩ else none, status := k.status } : KCopy))) :)
    ∧ (∀ (i : Issue) (k : KCopy) (a : Nat) (ap : Bool) (b : Nat) (bp : Bool) (s : State), (Instr.fdiv i).wf = true → s.calm = true → s.solo i (.bin .fdiv) = true → s.copyOf i = k → k.entry (k.top - 2) = (a, ap) → a < 2 ^ 32 → k.entry (k.top - 1) = (b, bp) → b < 2 ^ 32 → bit k.status 1 = false →
      Completes (.fdiv i) s fun u => 
        Took i s u ((({ k.after (k.depth - 1) [(k.top - 2, a, ap)] ((k.pc + 2 * (i.lits.length + 1)) % 2 ^ 40) with divF := some ⟨.bin .fdiv, a, b, ap || bp, k.top - 2, (fDiv (bit k.status 2) a b).1, 0⟩, arith := none, status := k.status } : KCopy)).noting k (fDiv (bit k.status 2) a b).2 (fDiv (bit k.status 2) a b).2.nv) :)
    ∧ (∀ (i : Issue) (k : KCopy) (a : Nat) (ap : Bool) (s : State), (Instr.fsqrt i).wf = true → s.calm = true → s.solo i (.un .fsqrt) = true → s.copyOf i = k → k.entry (k.top - 1) = (a, ap) → a < 2 ^ 32 → bit k.status 1 = false →
      Completes (.fsqrt i) s fun u => 
        Took i s u ((({ k.after k.depth [(k.top - 1, a, ap)] ((k.pc + 2 * (i.lits.length + 1)) % 2 ^ 40) with divF := some ⟨.un .fsqrt, a, 0, ap, k.top - 1, (fSqrt (bit k.status 2) a).1, 0⟩ } : KCopy)).noting k (fSqrt (bit k.status 2) a).2 (fSqrt (bit k.status 2) a).2.nv) :)

/-- Each binary32 operation writes the rounded value of its words, its flags are sticky in STATUS, and with PRECISE = 0 an invalid operation leaves FPINVALID pending; FNEG and FABS change the sign bit only. -/
def Obligations.KolotteFloat : Prop :=
    (∀ (i : Issue) (k : KCopy) (a : Nat) (ap : Bool) (b : Nat) (bp : Bool) (s : State), (Instr.fadd i).wf = true → s.calm = true → s.solo i (.bin .fadd) = true → s.copyOf i = k → k.entry (k.top - 2) = (a, ap) → a < 2 ^ 32 → k.entry (k.top - 1) = (b, bp) → b < 2 ^ 32 → bit k.status 1 = false →
      Completes (.fadd i) s fun u => 
        Took i s u ((k.after (k.depth - 1) [(k.top - 2, (fAdd (bit k.status 2) a b).1, ap || bp)] ((k.pc + 2 * (i.lits.length + 1)) % 2 ^ 40)).noting k (fAdd (bit k.status 2) a b).2 (fAdd (bit k.status 2) a b).2.nv) :)
    ∧ (∀ (i : Issue) (k : KCopy) (a : Nat) (ap : Bool) (b : Nat) (bp : Bool) (s : State), (Instr.fsub i).wf = true → s.calm = true → s.solo i (.bin .fsub) = true → s.copyOf i = k → k.entry (k.top - 2) = (a, ap) → a < 2 ^ 32 → k.entry (k.top - 1) = (b, bp) → b < 2 ^ 32 → bit k.status 1 = false →
      Completes (.fsub i) s fun u => 
        Took i s u ((k.after (k.depth - 1) [(k.top - 2, (fSub (bit k.status 2) a b).1, ap || bp)] ((k.pc + 2 * (i.lits.length + 1)) % 2 ^ 40)).noting k (fSub (bit k.status 2) a b).2 (fSub (bit k.status 2) a b).2.nv) :)
    ∧ (∀ (i : Issue) (k : KCopy) (a : Nat) (ap : Bool) (b : Nat) (bp : Bool) (s : State), (Instr.fmul i).wf = true → s.calm = true → s.solo i (.bin .fmul) = true → s.copyOf i = k → k.entry (k.top - 2) = (a, ap) → a < 2 ^ 32 → k.entry (k.top - 1) = (b, bp) → b < 2 ^ 32 → bit k.status 1 = false →
      Completes (.fmul i) s fun u => 
        Took i s u ((k.after (k.depth - 1) [(k.top - 2, (fMul (bit k.status 2) a b).1, ap || bp)] ((k.pc + 2 * (i.lits.length + 1)) % 2 ^ 40)).noting k (fMul (bit k.status 2) a b).2 (fMul (bit k.status 2) a b).2.nv) :)
    ∧ (∀ (i : Issue) (k : KCopy) (a : Nat) (ap : Bool) (b : Nat) (bp : Bool) (c : Nat) (cp : Bool) (s : State), (Instr.fma i).wf = true → s.calm = true → s.solo i (.tern .fma) = true → s.copyOf i = k → k.entry (k.top - 3) = (a, ap) → a < 2 ^ 32 → k.entry (k.top - 2) = (b, bp) → b < 2 ^ 32 → k.entry (k.top - 1) = (c, cp) → c < 2 ^ 32 → bit k.status 1 = false →
      Completes (.fma i) s fun u => 
        Took i s u ((k.after (k.depth - 2) [(k.top - 3, (fFma (bit k.status 2) a b c).1, ap || bp || cp)] ((k.pc + 2 * (i.lits.length + 1)) % 2 ^ 40)).noting k (fFma (bit k.status 2) a b c).2 (fFma (bit k.status 2) a b c).2.nv) :)
    ∧ (∀ (i : Issue) (k : KCopy) (a : Nat) (ap : Bool) (b : Nat) (bp : Bool) (s : State), (Instr.fmin i).wf = true → s.calm = true → s.solo i (.bin .fmin) = true → s.copyOf i = k → k.entry (k.top - 2) = (a, ap) → a < 2 ^ 32 → k.entry (k.top - 1) = (b, bp) → b < 2 ^ 32 → bit k.status 1 = false →
      Completes (.fmin i) s fun u => 
        Took i s u ((k.after (k.depth - 1) [(k.top - 2, (fMinMax (bit k.status 2) false a b).1, ap || bp)] ((k.pc + 2 * (i.lits.length + 1)) % 2 ^ 40)).noting k (fMinMax (bit k.status 2) false a b).2 (fMinMax (bit k.status 2) false a b).2.nv) :)
    ∧ (∀ (i : Issue) (k : KCopy) (a : Nat) (ap : Bool) (b : Nat) (bp : Bool) (s : State), (Instr.fmax i).wf = true → s.calm = true → s.solo i (.bin .fmax) = true → s.copyOf i = k → k.entry (k.top - 2) = (a, ap) → a < 2 ^ 32 → k.entry (k.top - 1) = (b, bp) → b < 2 ^ 32 → bit k.status 1 = false →
      Completes (.fmax i) s fun u => 
        Took i s u ((k.after (k.depth - 1) [(k.top - 2, (fMinMax (bit k.status 2) true a b).1, ap || bp)] ((k.pc + 2 * (i.lits.length + 1)) % 2 ^ 40)).noting k (fMinMax (bit k.status 2) true a b).2 (fMinMax (bit k.status 2) true a b).2.nv) :)
    ∧ (∀ (i : Issue) (k : KCopy) (a : Nat) (ap : Bool) (s : State), (Instr.fneg i).wf = true → s.calm = true → s.solo i (.un .fneg) = true → s.copyOf i = k → k.entry (k.top - 1) = (a, ap) → a < 2 ^ 32 →
      Completes (.fneg i) s fun u => 
        Took i s u (k.after k.depth [(k.top - 1, ((BitVec.ofNat 32 a) ^^^ 0x80000000#32).toNat, ap)] ((k.pc + 2 * (i.lits.length + 1)) % 2 ^ 40)) :)
    ∧ (∀ (i : Issue) (k : KCopy) (a : Nat) (ap : Bool) (s : State), (Instr.fabs i).wf = true → s.calm = true → s.solo i (.un .fabs) = true → s.copyOf i = k → k.entry (k.top - 1) = (a, ap) → a < 2 ^ 32 →
      Completes (.fabs i) s fun u => 
        Took i s u (k.after k.depth [(k.top - 1, ((BitVec.ofNat 32 a) &&& 0x7FFFFFFF#32).toNat, ap)] ((k.pc + 2 * (i.lits.length + 1)) % 2 ^ 40)) :)
    ∧ (∀ (i : Issue) (k : KCopy) (a : Nat) (ap : Bool) (s : State), (Instr.cvtif i).wf = true → s.calm = true → s.solo i (.un .cvtif) = true → s.copyOf i = k → k.entry (k.top - 1) = (a, ap) → a < 2 ^ 32 →
      Completes (.cvtif i) s fun u => 
        Took i s u ((k.after k.depth [(k.top - 1, (fOfInt (bit k.status 2) (BitVec.ofNat 32 a).toInt 0).1, ap)] ((k.pc + 2 * (i.lits.length + 1)) % 2 ^ 40)).noting k (fOfInt (bit k.status 2) (BitVec.ofNat 32 a).toInt 0).2 false) :)
    ∧ (∀ (i : Issue) (k : KCopy) (a : Nat) (ap : Bool) (s : State), (Instr.cvtuf i).wf = true → s.calm = true → s.solo i (.un .cvtuf) = true → s.copyOf i = k → k.entry (k.top - 1) = (a, ap) → a < 2 ^ 32 →
      Completes (.cvtuf i) s fun u => 
        Took i s u ((k.after k.depth [(k.top - 1, (fOfInt (bit k.status 2) (a : Int) 0).1, ap)] ((k.pc + 2 * (i.lits.length + 1)) % 2 ^ 40)).noting k (fOfInt (bit k.status 2) (a : Int) 0).2 false) :)
    ∧ (∀ (i : Issue) (k : KCopy) (a : Nat) (ap : Bool) (s : State), (Instr.cvtfi i).wf = true → s.calm = true → s.solo i (.un .cvtfi) = true → s.copyOf i = k → k.entry (k.top - 1) = (a, ap) → a < 2 ^ 32 → bit k.status 1 = false →
      Completes (.cvtfi i) s fun u => 
        Took i s u ((k.after k.depth [(k.top - 1, (fToInt (bit k.status 2) a).1, ap)] ((k.pc + 2 * (i.lits.length + 1)) % 2 ^ 40)).noting k (fToInt (bit k.status 2) a).2 (fToInt (bit k.status 2) a).2.nv) :)
    ∧ (∀ (i : Issue) (k : KCopy) (a : Nat) (ap : Bool) (s : State), (Instr.cvtqf i).wf = true → s.calm = true → s.solo i (.un .cvtqf) = true → s.copyOf i = k → k.entry (k.top - 1) = (a, ap) → a < 2 ^ 32 →
      Completes (.cvtqf i) s fun u => 
        Took i s u ((k.after k.depth [(k.top - 1, (fOfInt (bit k.status 2) (BitVec.ofNat 32 a).toInt (-31)).1, ap)] ((k.pc + 2 * (i.lits.length + 1)) % 2 ^ 40)).noting k (fOfInt (bit k.status 2) (BitVec.ofNat 32 a).toInt (-31)).2 false) :)
    ∧ (∀ (i : Issue) (k : KCopy) (a : Nat) (ap : Bool) (s : State), (Instr.cvtfq i).wf = true → s.calm = true → s.solo i (.un .cvtfq) = true → s.copyOf i = k → k.entry (k.top - 1) = (a, ap) → a < 2 ^ 32 → bit k.status 1 = false →
      Completes (.cvtfq i) s fun u => 
        Took i s u ((k.after k.depth [(k.top - 1, (fToQ (bit k.status 2) a).1, ap)] ((k.pc + 2 * (i.lits.length + 1)) % 2 ^ 40)).noting k (fToQ (bit k.status 2) a).2 (fToQ (bit k.status 2) a).2.nv) :)

/-- ANGSUB takes two TPOS values, low word deeper, and pushes a − b modulo 2^64; ANGCMP takes the same and sets Pn when a − b, read as signed, is at least 0; whenever the true separation of two positions is less than 2^31 turns both are right, and the low word of the difference, read as signed, is the fraction of a turn. -/
def Obligations.AngleDifference : Prop :=
    (∀ (i : Issue) (k : KCopy) (al : Nat) (alp : Bool) (ah : Nat) (ahp : Bool) (bl : Nat) (blp : Bool) (bh : Nat) (bhp : Bool) (s : State), (Instr.angsub i).wf = true → s.calm = true → s.solo i (.ang true) = true → s.copyOf i = k → k.entry (k.top - 4) = (al, alp) → al < 2 ^ 32 → k.entry (k.top - 3) = (ah, ahp) → ah < 2 ^ 32 → k.entry (k.top - 2) = (bl, blp) → bl < 2 ^ 32 → k.entry (k.top - 1) = (bh, bhp) → bh < 2 ^ 32 →
      Completes (.angsub i) s fun u => 
        Took i s u (k.after (k.depth - 2) [(k.top - 4, (BitVec.ofNat 64 (al + ah * 2 ^ 32) - BitVec.ofNat 64 (bl + bh * 2 ^ 32)).toNat % 2 ^ 32, alp || ahp || (blp || bhp)), (k.top - 3, (BitVec.ofNat 64 (al + ah * 2 ^ 32) - BitVec.ofNat 64 (bl + bh * 2 ^ 32)).toNat / 2 ^ 32, alp || ahp || (blp || bhp))] ((k.pc + 2 * (i.lits.length + 1)) % 2 ^ 40)) :)
    ∧ (∀ (i : Issue) (n : Nat) (k : KCopy) (al : Nat) (alp : Bool) (ah : Nat) (ahp : Bool) (bl : Nat) (blp : Bool) (bh : Nat) (bhp : Bool) (s : State), (Instr.angcmp i n).wf = true → s.calm = true → s.solo i (.angcmp n) = true → s.copyOf i = k → k.entry (k.top - 4) = (al, alp) → al < 2 ^ 32 → k.entry (k.top - 3) = (ah, ahp) → ah < 2 ^ 32 → k.entry (k.top - 2) = (bl, blp) → bl < 2 ^ 32 → k.entry (k.top - 1) = (bh, bhp) → bh < 2 ^ 32 → (alp || ahp || blp || bhp) = false →
      Completes (.angcmp i n) s fun u => 
        (Took i s u (({ k.after (k.depth - 4) [] ((k.pc + 2 * (i.lits.length + 1)) % 2 ^ 40) with preds := if n = 0 then k.preds else setBit k.preds n (decide (0 ≤ (BitVec.ofNat 64 (al + ah * 2 ^ 32) - BitVec.ofNat 64 (bl + bh * 2 ^ 32)).toInt)) } : KCopy))) :)
    ∧ (∀ x y : Int, -(2 ^ 63) < x - y → x - y < 2 ^ 63 → (BitVec.ofInt 64 x - BitVec.ofInt 64 y).toInt = x - y ∧ (0 ≤ (BitVec.ofInt 64 x - BitVec.ofInt 64 y).toInt ↔ y ≤ x) ∧ (BitVec.ofNat 32 ((BitVec.ofInt 64 x - BitVec.ofInt 64 y).toNat % 2 ^ 32)).toInt = Int.bmod (x - y) (2 ^ 32))

/-- FCMP of clean words sets Pn to equal, less, or less or equal, false on any NaN, or to unordered, true on any NaN; it raises nothing, sets no flag on a quiet NaN and NV on a signalling one. -/
def Obligations.QuietCompare : Prop :=
    (∀ (i : Issue) (n : Nat) (k : KCopy) (a : Nat) (ap : Bool) (b : Nat) (bp : Bool) (s : State), (Instr.fcmp i 0 n).wf = true → s.calm = true → s.solo i (.fcmp 0 n) = true → s.copyOf i = k → k.entry (k.top - 2) = (a, ap) → a < 2 ^ 32 → k.entry (k.top - 1) = (b, bp) → b < 2 ^ 32 → ap = false → bp = false →
      Completes (.fcmp i 0 n) s fun u => 
        (Took i s u (({ ((k.after (k.depth - 2) [] ((k.pc + 2 * (i.lits.length + 1)) % 2 ^ 40)).noting k { nv := fIsSNaN a || fIsSNaN b } false) with preds := if n = 0 then k.preds else setBit k.preds n (decide (¬(fIsNaN a || fIsNaN b) = true ∧ fKey (fFlushIn (bit k.status 2) a) = fKey (fFlushIn (bit k.status 2) b))) } : KCopy))) :)
    ∧ (∀ (i : Issue) (n : Nat) (k : KCopy) (a : Nat) (ap : Bool) (b : Nat) (bp : Bool) (s : State), (Instr.fcmp i 1 n).wf = true → s.calm = true → s.solo i (.fcmp 1 n) = true → s.copyOf i = k → k.entry (k.top - 2) = (a, ap) → a < 2 ^ 32 → k.entry (k.top - 1) = (b, bp) → b < 2 ^ 32 → ap = false → bp = false →
      Completes (.fcmp i 1 n) s fun u => 
        (Took i s u (({ ((k.after (k.depth - 2) [] ((k.pc + 2 * (i.lits.length + 1)) % 2 ^ 40)).noting k { nv := fIsSNaN a || fIsSNaN b } false) with preds := if n = 0 then k.preds else setBit k.preds n (decide (¬(fIsNaN a || fIsNaN b) = true ∧ fKey (fFlushIn (bit k.status 2) a) < fKey (fFlushIn (bit k.status 2) b))) } : KCopy))) :)
    ∧ (∀ (i : Issue) (n : Nat) (k : KCopy) (a : Nat) (ap : Bool) (b : Nat) (bp : Bool) (s : State), (Instr.fcmp i 2 n).wf = true → s.calm = true → s.solo i (.fcmp 2 n) = true → s.copyOf i = k → k.entry (k.top - 2) = (a, ap) → a < 2 ^ 32 → k.entry (k.top - 1) = (b, bp) → b < 2 ^ 32 → ap = false → bp = false →
      Completes (.fcmp i 2 n) s fun u => 
        (Took i s u (({ ((k.after (k.depth - 2) [] ((k.pc + 2 * (i.lits.length + 1)) % 2 ^ 40)).noting k { nv := fIsSNaN a || fIsSNaN b } false) with preds := if n = 0 then k.preds else setBit k.preds n (decide (¬(fIsNaN a || fIsNaN b) = true ∧ fKey (fFlushIn (bit k.status 2) a) ≤ fKey (fFlushIn (bit k.status 2) b))) } : KCopy))) :)
    ∧ (∀ (i : Issue) (n : Nat) (k : KCopy) (a : Nat) (ap : Bool) (b : Nat) (bp : Bool) (s : State), (Instr.fcmp i 3 n).wf = true → s.calm = true → s.solo i (.fcmp 3 n) = true → s.copyOf i = k → k.entry (k.top - 2) = (a, ap) → a < 2 ^ 32 → k.entry (k.top - 1) = (b, bp) → b < 2 ^ 32 → ap = false → bp = false →
      Completes (.fcmp i 3 n) s fun u => 
        (Took i s u (({ ((k.after (k.depth - 2) [] ((k.pc + 2 * (i.lits.length + 1)) % 2 ^ 40)).noting k { nv := fIsSNaN a || fIsSNaN b } false) with preds := if n = 0 then k.preds else setBit k.preds n ((fIsNaN a || fIsNaN b)) } : KCopy))) :)

/-- A load through a capability that is tagged, unknotted, readable and covers the aligned access in own local memory delivers its value, extended, in the third bundle after it, and only then; the value is the newest, a buffered store’s bytes too; a checked core journals what it reads in copy C’s pages. One to anywhere else that a tile may reach is an external read under way: a stalled one is counted at its cluster’s page, one that a buffered write covers has its answer, and one that a write meets in part waits for the commit. LDT takes 128 bits and the memory tag. An unusable capability, one without READ, an access past its capability and a misaligned one enter the exception of that name at the bundle. -/
def Obligations.KolotteLoads : Prop :=
    (∀ (i : Issue) (n v : Nat) (vp : Bool) (k : KCopy) (o : Nat) (op : Bool) (s : State), (Instr.ldb i n).wf = true → s.calm = true → s.solo i (.ld .ldb n) = true → s.copyOf i = k → k.entry (k.top - 1) = (o, op) → o < 2 ^ 32 → op = false → (k.cap n).usable = true → (k.cap n).perm 0 = true → (k.cap n).covers ((k.cap n).base + o) 1 = true → ((k.cap n).base + o) % 1 = 0 → inOwn ((k.cap n).base + o) 1 = true → (s.kx i.tile i.copy).pairBad ((k.cap n).base + o) 1 false = none → (s.kx i.tile i.copy).readsFree ((k.cap n).base + o) 1 = false → s.rdMem (physOf i.tile ((k.cap n).base + o)) 1 = ((v, vp), s) → (k.sb.all fun e => !(decide (e.addr ≤ ((k.cap n).base + o)) && decide (((k.cap n).base + o) + 1 ≤ e.addr + e.n)) || (decide ((e.val >>> (8 * (((k.cap n).base + o) - e.addr))) % 256 ^ 1 = v) && (List.range ((((k.cap n).base + o) + 1 + 7) / 8 - ((k.cap n).base + o) / 8)).any (fun j => e.pois.getD (((k.cap n).base + o) / 8 + j - e.addr / 8) false) == vp)) = true → (((s.tileH i.tile).copies.zipIdx.all fun q => q.2 == i.copy || q.1.sb.isEmpty) = true) →
      Completes (.ldb i n) s fun u => 
        Took i s u (({ k.after k.depth [] ((k.pc + 2 * (i.lits.length + 1)) % 2 ^ 40) with shadow := [⟨k.top - 1, (BitVec.signExtend 32 (BitVec.ofNat 8 v)).toNat, vp, 2⟩] } : KCopy)) :)
    ∧ (∀ (i : Issue) (n v : Nat) (vp : Bool) (k : KCopy) (o : Nat) (op : Bool) (s : State), (Instr.ldb i n).wf = true → s.calm = true → s.solo i (.ld .ldb n) = true → s.copyOf i = k → k.entry (k.top - 1) = (o, op) → o < 2 ^ 32 → op = false → (k.cap n).usable = true → (k.cap n).perm 0 = true → (k.cap n).covers ((k.cap n).base + o) 1 = true → ((k.cap n).base + o) % 1 = 0 → inOwn ((k.cap n).base + o) 1 = true → (s.kx i.tile i.copy).pairBad ((k.cap n).base + o) 1 false = none → (s.kx i.tile i.copy).readsFree ((k.cap n).base + o) 1 = true → s.rdMem (physOf i.tile ((k.cap n).base + o)) 1 = ((v, vp), s) → (k.sb.all fun e => !(decide (e.addr ≤ ((k.cap n).base + o)) && decide (((k.cap n).base + o) + 1 ≤ e.addr + e.n)) || (decide ((e.val >>> (8 * (((k.cap n).base + o) - e.addr))) % 256 ^ 1 = v) && (List.range ((((k.cap n).base + o) + 1 + 7) / 8 - ((k.cap n).base + o) / 8)).any (fun j => e.pois.getD (((k.cap n).base + o) / 8 + j - e.addr / 8) false) == vp)) = true → (((s.tileH i.tile).copies.zipIdx.all fun q => q.2 == i.copy || q.1.sb.isEmpty) = true) →
      Completes (.ldb i n) s fun u => 
        (u.copyOf i).bare = (({ k.after k.depth [] ((k.pc + 2 * (i.lits.length + 1)) % 2 ^ 40) with shadow := [⟨k.top - 1, (BitVec.signExtend 32 (BitVec.ofNat 8 v)).toNat, vp, 2⟩] } : KCopy)).bare ∧ (u.tileH i.tile).copies = setAt (s.tileH i.tile).copies i.copy (u.copyOf i) ∧
        ((u.tileH i.tile).jrn = (s.tileH i.tile).jrn ++ [⟨0, ((k.cap n).base + o) * 8 + 6, v + (if vp then 256 ^ 1 else 0), false, (s.tileH i.tile).bundles⟩]) ∧
        (∀ x, x ≠ i.tile → u.tileH x = s.tileH x) ∧
        (({ (u.tileH i.tile) with copies := [], bundles := 0, due := none, bound := none, lastDue := 0, port := [], jrn := [] } : TileH) = { (s.tileH i.tile) with copies := [], bundles := 0, due := none, bound := none, lastDue := 0, port := [], jrn := [] }) ∧
        RegsOnly [pgTile i.tile] s u ∧
        ({ u with regs := s.regs, tiles := s.tiles, hot := s.hot } = s) :)
    ∧ (∀ (i : Issue) (n : Nat) (k : KCopy) (o : Nat) (op : Bool) (s : State), (Instr.ldb i n).wf = true → s.calm = true → s.solo i (.ld .ldb n) = true → s.copyOf i = k → k.entry (k.top - 1) = (o, op) → o < 2 ^ 32 → op = false → (k.cap n).usable = true → (k.cap n).perm 0 = true → (k.cap n).covers ((k.cap n).base + o) 1 = true → ((k.cap n).base + o) % 1 = 0 → inOwn ((k.cap n).base + o) 1 = false → ((List.range 1).all fun j => tileMapped (((k.cap n).base + o) + j)) = true → pageAllowed (k.cap n) ((k.cap n).base + o) false = true → inPages ((k.cap n).base + o) = false → stallsAt s i.tile ((k.cap n).base + o) = false → (s.tileH i.tile).ocb = [] →
      Completes (.ldb i n) s fun u => 
        Took i s u (({ k.after k.depth [] ((k.pc + 2 * (i.lits.length + 1)) % 2 ^ 40) with ext := [⟨k.top - 1, .ldb, ((k.cap n).base + o), 0, none, 0⟩] } : KCopy)) :)
    ∧ (∀ (i : Issue) (n : Nat) (g : Cap) (k : KCopy) (o : Nat) (op : Bool) (s : State), (Instr.ldb i n).wf = true → s.calm = true → s.solo i (.ld .ldb n) = true → s.copyOf i = k → k.entry (k.top - 1) = (o, op) → o < 2 ^ 32 → (s.kx i.tile i.copy).canEnter 3 g = true → op = false → ((k.cap n).usable = false ∨ (k.cap n).perm 0 = false) →
      Completes (.ldb i n) s fun u => 
        ((u.tileH i.tile).copies.getD i.copy {}).pc = g.base ∧
        ((u.tileH i.tile).copies.getD i.copy {}).cap 0 = g ∧
        ((u.tileH i.tile).copies.getD i.copy {}).status = k.status ||| 1 ∧
        ((u.tileH i.tile).copies.getD i.copy {}).base = k.top % 2 ^ 17 ∧
        ((u.tileH i.tile).copies.getD i.copy {}).depth = 0 ∧
        ((u.tileH i.tile).copies.getD i.copy {}).rsp = k.rsp - 48 ∧
        (((u.tileH i.tile).copies.getD i.copy {}).preds, ((u.tileH i.tile).copies.getD i.copy {}).lc, ((u.tileH i.tile).copies.getD i.copy {}).rc, ((u.tileH i.tile).copies.getD i.copy {}).file) = (k.preds, k.lc, k.rc, k.file) ∧
        ((((u.tileH i.tile).copies.getD i.copy {}).rsCache.find? fun q => q.addr == k.rsp - 48).map (fun q => bits q.lo 39 0) = some (k.pc % 2 ^ 40)) ∧
        ((((u.tileH i.tile).copies.getD i.copy {}).rsCache.find? fun q => q.addr == k.rsp - 32).map (fun q => (bits q.lo 13 0, bits q.lo 45 38, bits q.lo 51 46, bit q.lo 61)) = some (bits k.status 13 0, k.depth % 256, 3, false) ∧ (((u.tileH i.tile).copies.getD i.copy {}).rsCache.find? fun q => q.addr == k.rsp - 48).map (fun q => bits q.lo 63 60) = some (n % 16)) ∧
        (∀ x, x ≠ i.tile → u.tileH x = s.tileH x) :)
    ∧ (∀ (i : Issue) (n : Nat) (g : Cap) (k : KCopy) (o : Nat) (op : Bool) (s : State), (Instr.ldb i n).wf = true → s.calm = true → s.solo i (.ld .ldb n) = true → s.copyOf i = k → k.entry (k.top - 1) = (o, op) → o < 2 ^ 32 → (s.kx i.tile i.copy).canEnter 4 g = true → op = false → (k.cap n).usable = true → (k.cap n).perm 0 = true → (k.cap n).covers ((k.cap n).base + o) 1 = false → inPages ((k.cap n).base + o) = false →
      Completes (.ldb i n) s fun u => 
        ((u.tileH i.tile).copies.getD i.copy {}).pc = g.base ∧
        ((u.tileH i.tile).copies.getD i.copy {}).cap 0 = g ∧
        ((u.tileH i.tile).copies.getD i.copy {}).status = k.status ||| 1 ∧
        ((u.tileH i.tile).copies.getD i.copy {}).base = k.top % 2 ^ 17 ∧
        ((u.tileH i.tile).copies.getD i.copy {}).depth = 0 ∧
        ((u.tileH i.tile).copies.getD i.copy {}).rsp = k.rsp - 48 ∧
        (((u.tileH i.tile).copies.getD i.copy {}).preds, ((u.tileH i.tile).copies.getD i.copy {}).lc, ((u.tileH i.tile).copies.getD i.copy {}).rc, ((u.tileH i.tile).copies.getD i.copy {}).file) = (k.preds, k.lc, k.rc, k.file) ∧
        ((((u.tileH i.tile).copies.getD i.copy {}).rsCache.find? fun q => q.addr == k.rsp - 48).map (fun q => bits q.lo 39 0) = some (k.pc % 2 ^ 40)) ∧
        ((((u.tileH i.tile).copies.getD i.copy {}).rsCache.find? fun q => q.addr == k.rsp - 32).map (fun q => (bits q.lo 13 0, bits q.lo 45 38, bits q.lo 51 46, bit q.lo 61)) = some (bits k.status 13 0, k.depth % 256, 4, false) ∧ (((u.tileH i.tile).copies.getD i.copy {}).rsCache.find? fun q => q.addr == k.rsp - 48).map (fun q => bits q.lo 63 60) = some (n % 16)) ∧
        (∀ x, x ≠ i.tile → u.tileH x = s.tileH x) :)
    ∧ (∀ (i : Issue) (n v : Nat) (vp : Bool) (k : KCopy) (o : Nat) (op : Bool) (s : State), (Instr.ldbu i n).wf = true → s.calm = true → s.solo i (.ld .ldbu n) = true → s.copyOf i = k → k.entry (k.top - 1) = (o, op) → o < 2 ^ 32 → op = false → (k.cap n).usable = true → (k.cap n).perm 0 = true → (k.cap n).covers ((k.cap n).base + o) 1 = true → ((k.cap n).base + o) % 1 = 0 → inOwn ((k.cap n).base + o) 1 = true → (s.kx i.tile i.copy).pairBad ((k.cap n).base + o) 1 false = none → (s.kx i.tile i.copy).readsFree ((k.cap n).base + o) 1 = false → s.rdMem (physOf i.tile ((k.cap n).base + o)) 1 = ((v, vp), s) → (k.sb.all fun e => !(decide (e.addr ≤ ((k.cap n).base + o)) && decide (((k.cap n).base + o) + 1 ≤ e.addr + e.n)) || (decide ((e.val >>> (8 * (((k.cap n).base + o) - e.addr))) % 256 ^ 1 = v) && (List.range ((((k.cap n).base + o) + 1 + 7) / 8 - ((k.cap n).base + o) / 8)).any (fun j => e.pois.getD (((k.cap n).base + o) / 8 + j - e.addr / 8) false) == vp)) = true → (((s.tileH i.tile).copies.zipIdx.all fun q => q.2 == i.copy || q.1.sb.isEmpty) = true) →
      Completes (.ldbu i n) s fun u => 
        Took i s u (({ k.after k.depth [] ((k.pc + 2 * (i.lits.length + 1)) % 2 ^ 40) with shadow := [⟨k.top - 1, v, vp, 2⟩] } : KCopy)) :)
    ∧ (∀ (i : Issue) (n v : Nat) (vp : Bool) (k : KCopy) (o : Nat) (op : Bool) (s : State), (Instr.ldbu i n).wf = true → s.calm = true → s.solo i (.ld .ldbu n) = true → s.copyOf i = k → k.entry (k.top - 1) = (o, op) → o < 2 ^ 32 → op = false → (k.cap n).usable = true → (k.cap n).perm 0 = true → (k.cap n).covers ((k.cap n).base + o) 1 = true → ((k.cap n).base + o) % 1 = 0 → inOwn ((k.cap n).base + o) 1 = true → (s.kx i.tile i.copy).pairBad ((k.cap n).base + o) 1 false = none → (s.kx i.tile i.copy).readsFree ((k.cap n).base + o) 1 = true → s.rdMem (physOf i.tile ((k.cap n).base + o)) 1 = ((v, vp), s) → (k.sb.all fun e => !(decide (e.addr ≤ ((k.cap n).base + o)) && decide (((k.cap n).base + o) + 1 ≤ e.addr + e.n)) || (decide ((e.val >>> (8 * (((k.cap n).base + o) - e.addr))) % 256 ^ 1 = v) && (List.range ((((k.cap n).base + o) + 1 + 7) / 8 - ((k.cap n).base + o) / 8)).any (fun j => e.pois.getD (((k.cap n).base + o) / 8 + j - e.addr / 8) false) == vp)) = true → (((s.tileH i.tile).copies.zipIdx.all fun q => q.2 == i.copy || q.1.sb.isEmpty) = true) →
      Completes (.ldbu i n) s fun u => 
        (u.copyOf i).bare = (({ k.after k.depth [] ((k.pc + 2 * (i.lits.length + 1)) % 2 ^ 40) with shadow := [⟨k.top - 1, v, vp, 2⟩] } : KCopy)).bare ∧ (u.tileH i.tile).copies = setAt (s.tileH i.tile).copies i.copy (u.copyOf i) ∧
        ((u.tileH i.tile).jrn = (s.tileH i.tile).jrn ++ [⟨0, ((k.cap n).base + o) * 8 + 6, v + (if vp then 256 ^ 1 else 0), false, (s.tileH i.tile).bundles⟩]) ∧
        (∀ x, x ≠ i.tile → u.tileH x = s.tileH x) ∧
        (({ (u.tileH i.tile) with copies := [], bundles := 0, due := none, bound := none, lastDue := 0, port := [], jrn := [] } : TileH) = { (s.tileH i.tile) with copies := [], bundles := 0, due := none, bound := none, lastDue := 0, port := [], jrn := [] }) ∧
        RegsOnly [pgTile i.tile] s u ∧
        ({ u with regs := s.regs, tiles := s.tiles, hot := s.hot } = s) :)
    ∧ (∀ (i : Issue) (n : Nat) (k : KCopy) (o : Nat) (op : Bool) (s : State), (Instr.ldbu i n).wf = true → s.calm = true → s.solo i (.ld .ldbu n) = true → s.copyOf i = k → k.entry (k.top - 1) = (o, op) → o < 2 ^ 32 → op = false → (k.cap n).usable = true → (k.cap n).perm 0 = true → (k.cap n).covers ((k.cap n).base + o) 1 = true → ((k.cap n).base + o) % 1 = 0 → inOwn ((k.cap n).base + o) 1 = false → ((List.range 1).all fun j => tileMapped (((k.cap n).base + o) + j)) = true → pageAllowed (k.cap n) ((k.cap n).base + o) false = true → inPages ((k.cap n).base + o) = false → stallsAt s i.tile ((k.cap n).base + o) = false → (s.tileH i.tile).ocb = [] →
      Completes (.ldbu i n) s fun u => 
        Took i s u (({ k.after k.depth [] ((k.pc + 2 * (i.lits.length + 1)) % 2 ^ 40) with ext := [⟨k.top - 1, .ldbu, ((k.cap n).base + o), 0, none, 0⟩] } : KCopy)) :)
    ∧ (∀ (i : Issue) (n : Nat) (g : Cap) (k : KCopy) (o : Nat) (op : Bool) (s : State), (Instr.ldbu i n).wf = true → s.calm = true → s.solo i (.ld .ldbu n) = true → s.copyOf i = k → k.entry (k.top - 1) = (o, op) → o < 2 ^ 32 → (s.kx i.tile i.copy).canEnter 3 g = true → op = false → ((k.cap n).usable = false ∨ (k.cap n).perm 0 = false) →
      Completes (.ldbu i n) s fun u => 
        ((u.tileH i.tile).copies.getD i.copy {}).pc = g.base ∧
        ((u.tileH i.tile).copies.getD i.copy {}).cap 0 = g ∧
        ((u.tileH i.tile).copies.getD i.copy {}).status = k.status ||| 1 ∧
        ((u.tileH i.tile).copies.getD i.copy {}).base = k.top % 2 ^ 17 ∧
        ((u.tileH i.tile).copies.getD i.copy {}).depth = 0 ∧
        ((u.tileH i.tile).copies.getD i.copy {}).rsp = k.rsp - 48 ∧
        (((u.tileH i.tile).copies.getD i.copy {}).preds, ((u.tileH i.tile).copies.getD i.copy {}).lc, ((u.tileH i.tile).copies.getD i.copy {}).rc, ((u.tileH i.tile).copies.getD i.copy {}).file) = (k.preds, k.lc, k.rc, k.file) ∧
        ((((u.tileH i.tile).copies.getD i.copy {}).rsCache.find? fun q => q.addr == k.rsp - 48).map (fun q => bits q.lo 39 0) = some (k.pc % 2 ^ 40)) ∧
        ((((u.tileH i.tile).copies.getD i.copy {}).rsCache.find? fun q => q.addr == k.rsp - 32).map (fun q => (bits q.lo 13 0, bits q.lo 45 38, bits q.lo 51 46, bit q.lo 61)) = some (bits k.status 13 0, k.depth % 256, 3, false) ∧ (((u.tileH i.tile).copies.getD i.copy {}).rsCache.find? fun q => q.addr == k.rsp - 48).map (fun q => bits q.lo 63 60) = some (n % 16)) ∧
        (∀ x, x ≠ i.tile → u.tileH x = s.tileH x) :)
    ∧ (∀ (i : Issue) (n : Nat) (g : Cap) (k : KCopy) (o : Nat) (op : Bool) (s : State), (Instr.ldbu i n).wf = true → s.calm = true → s.solo i (.ld .ldbu n) = true → s.copyOf i = k → k.entry (k.top - 1) = (o, op) → o < 2 ^ 32 → (s.kx i.tile i.copy).canEnter 4 g = true → op = false → (k.cap n).usable = true → (k.cap n).perm 0 = true → (k.cap n).covers ((k.cap n).base + o) 1 = false → inPages ((k.cap n).base + o) = false →
      Completes (.ldbu i n) s fun u => 
        ((u.tileH i.tile).copies.getD i.copy {}).pc = g.base ∧
        ((u.tileH i.tile).copies.getD i.copy {}).cap 0 = g ∧
        ((u.tileH i.tile).copies.getD i.copy {}).status = k.status ||| 1 ∧
        ((u.tileH i.tile).copies.getD i.copy {}).base = k.top % 2 ^ 17 ∧
        ((u.tileH i.tile).copies.getD i.copy {}).depth = 0 ∧
        ((u.tileH i.tile).copies.getD i.copy {}).rsp = k.rsp - 48 ∧
        (((u.tileH i.tile).copies.getD i.copy {}).preds, ((u.tileH i.tile).copies.getD i.copy {}).lc, ((u.tileH i.tile).copies.getD i.copy {}).rc, ((u.tileH i.tile).copies.getD i.copy {}).file) = (k.preds, k.lc, k.rc, k.file) ∧
        ((((u.tileH i.tile).copies.getD i.copy {}).rsCache.find? fun q => q.addr == k.rsp - 48).map (fun q => bits q.lo 39 0) = some (k.pc % 2 ^ 40)) ∧
        ((((u.tileH i.tile).copies.getD i.copy {}).rsCache.find? fun q => q.addr == k.rsp - 32).map (fun q => (bits q.lo 13 0, bits q.lo 45 38, bits q.lo 51 46, bit q.lo 61)) = some (bits k.status 13 0, k.depth % 256, 4, false) ∧ (((u.tileH i.tile).copies.getD i.copy {}).rsCache.find? fun q => q.addr == k.rsp - 48).map (fun q => bits q.lo 63 60) = some (n % 16)) ∧
        (∀ x, x ≠ i.tile → u.tileH x = s.tileH x) :)
    ∧ (∀ (i : Issue) (n v : Nat) (vp : Bool) (k : KCopy) (o : Nat) (op : Bool) (s : State), (Instr.ldh i n).wf = true → s.calm = true → s.solo i (.ld .ldh n) = true → s.copyOf i = k → k.entry (k.top - 1) = (o, op) → o < 2 ^ 32 → op = false → (k.cap n).usable = true → (k.cap n).perm 0 = true → (k.cap n).covers ((k.cap n).base + o) 2 = true → ((k.cap n).base + o) % 2 = 0 → inOwn ((k.cap n).base + o) 2 = true → (s.kx i.tile i.copy).pairBad ((k.cap n).base + o) 2 false = none → (s.kx i.tile i.copy).readsFree ((k.cap n).base + o) 2 = false → s.rdMem (physOf i.tile ((k.cap n).base + o)) 2 = ((v, vp), s) → (k.sb.all fun e => !(decide (e.addr ≤ ((k.cap n).base + o)) && decide (((k.cap n).base + o) + 2 ≤ e.addr + e.n)) || (decide ((e.val >>> (8 * (((k.cap n).base + o) - e.addr))) % 256 ^ 2 = v) && (List.range ((((k.cap n).base + o) + 2 + 7) / 8 - ((k.cap n).base + o) / 8)).any (fun j => e.pois.getD (((k.cap n).base + o) / 8 + j - e.addr / 8) false) == vp)) = true → (((s.tileH i.tile).copies.zipIdx.all fun q => q.2 == i.copy || q.1.sb.isEmpty) = true) →
      Completes (.ldh i n) s fun u => 
        Took i s u (({ k.after k.depth [] ((k.pc + 2 * (i.lits.length + 1)) % 2 ^ 40) with shadow := [⟨k.top - 1, (BitVec.signExtend 32 (BitVec.ofNat 16 v)).toNat, vp, 2⟩] } : KCopy)) :)
    ∧ (∀ (i : Issue) (n v : Nat) (vp : Bool) (k : KCopy) (o : Nat) (op : Bool) (s : State), (Instr.ldh i n).wf = true → s.calm = true → s.solo i (.ld .ldh n) = true → s.copyOf i = k → k.entry (k.top - 1) = (o, op) → o < 2 ^ 32 → op = false → (k.cap n).usable = true → (k.cap n).perm 0 = true → (k.cap n).covers ((k.cap n).base + o) 2 = true → ((k.cap n).base + o) % 2 = 0 → inOwn ((k.cap n).base + o) 2 = true → (s.kx i.tile i.copy).pairBad ((k.cap n).base + o) 2 false = none → (s.kx i.tile i.copy).readsFree ((k.cap n).base + o) 2 = true → s.rdMem (physOf i.tile ((k.cap n).base + o)) 2 = ((v, vp), s) → (k.sb.all fun e => !(decide (e.addr ≤ ((k.cap n).base + o)) && decide (((k.cap n).base + o) + 2 ≤ e.addr + e.n)) || (decide ((e.val >>> (8 * (((k.cap n).base + o) - e.addr))) % 256 ^ 2 = v) && (List.range ((((k.cap n).base + o) + 2 + 7) / 8 - ((k.cap n).base + o) / 8)).any (fun j => e.pois.getD (((k.cap n).base + o) / 8 + j - e.addr / 8) false) == vp)) = true → (((s.tileH i.tile).copies.zipIdx.all fun q => q.2 == i.copy || q.1.sb.isEmpty) = true) →
      Completes (.ldh i n) s fun u => 
        (u.copyOf i).bare = (({ k.after k.depth [] ((k.pc + 2 * (i.lits.length + 1)) % 2 ^ 40) with shadow := [⟨k.top - 1, (BitVec.signExtend 32 (BitVec.ofNat 16 v)).toNat, vp, 2⟩] } : KCopy)).bare ∧ (u.tileH i.tile).copies = setAt (s.tileH i.tile).copies i.copy (u.copyOf i) ∧
        ((u.tileH i.tile).jrn = (s.tileH i.tile).jrn ++ [⟨0, ((k.cap n).base + o) * 8 + 6, v + (if vp then 256 ^ 2 else 0), false, (s.tileH i.tile).bundles⟩]) ∧
        (∀ x, x ≠ i.tile → u.tileH x = s.tileH x) ∧
        (({ (u.tileH i.tile) with copies := [], bundles := 0, due := none, bound := none, lastDue := 0, port := [], jrn := [] } : TileH) = { (s.tileH i.tile) with copies := [], bundles := 0, due := none, bound := none, lastDue := 0, port := [], jrn := [] }) ∧
        RegsOnly [pgTile i.tile] s u ∧
        ({ u with regs := s.regs, tiles := s.tiles, hot := s.hot } = s) :)
    ∧ (∀ (i : Issue) (n : Nat) (k : KCopy) (o : Nat) (op : Bool) (s : State), (Instr.ldh i n).wf = true → s.calm = true → s.solo i (.ld .ldh n) = true → s.copyOf i = k → k.entry (k.top - 1) = (o, op) → o < 2 ^ 32 → op = false → (k.cap n).usable = true → (k.cap n).perm 0 = true → (k.cap n).covers ((k.cap n).base + o) 2 = true → ((k.cap n).base + o) % 2 = 0 → inOwn ((k.cap n).base + o) 1 = false → ((List.range 2).all fun j => tileMapped (((k.cap n).base + o) + j)) = true → pageAllowed (k.cap n) ((k.cap n).base + o) false = true → inPages ((k.cap n).base + o) = false → stallsAt s i.tile ((k.cap n).base + o) = false → (s.tileH i.tile).ocb = [] →
      Completes (.ldh i n) s fun u => 
        Took i s u (({ k.after k.depth [] ((k.pc + 2 * (i.lits.length + 1)) % 2 ^ 40) with ext := [⟨k.top - 1, .ldh, ((k.cap n).base + o), 0, none, 0⟩] } : KCopy)) :)
    ∧ (∀ (i : Issue) (n : Nat) (g : Cap) (k : KCopy) (o : Nat) (op : Bool) (s : State), (Instr.ldh i n).wf = true → s.calm = true → s.solo i (.ld .ldh n) = true → s.copyOf i = k → k.entry (k.top - 1) = (o, op) → o < 2 ^ 32 → (s.kx i.tile i.copy).canEnter 3 g = true → op = false → ((k.cap n).usable = false ∨ (k.cap n).perm 0 = false) →
      Completes (.ldh i n) s fun u => 
        ((u.tileH i.tile).copies.getD i.copy {}).pc = g.base ∧
        ((u.tileH i.tile).copies.getD i.copy {}).cap 0 = g ∧
        ((u.tileH i.tile).copies.getD i.copy {}).status = k.status ||| 1 ∧
        ((u.tileH i.tile).copies.getD i.copy {}).base = k.top % 2 ^ 17 ∧
        ((u.tileH i.tile).copies.getD i.copy {}).depth = 0 ∧
        ((u.tileH i.tile).copies.getD i.copy {}).rsp = k.rsp - 48 ∧
        (((u.tileH i.tile).copies.getD i.copy {}).preds, ((u.tileH i.tile).copies.getD i.copy {}).lc, ((u.tileH i.tile).copies.getD i.copy {}).rc, ((u.tileH i.tile).copies.getD i.copy {}).file) = (k.preds, k.lc, k.rc, k.file) ∧
        ((((u.tileH i.tile).copies.getD i.copy {}).rsCache.find? fun q => q.addr == k.rsp - 48).map (fun q => bits q.lo 39 0) = some (k.pc % 2 ^ 40)) ∧
        ((((u.tileH i.tile).copies.getD i.copy {}).rsCache.find? fun q => q.addr == k.rsp - 32).map (fun q => (bits q.lo 13 0, bits q.lo 45 38, bits q.lo 51 46, bit q.lo 61)) = some (bits k.status 13 0, k.depth % 256, 3, false) ∧ (((u.tileH i.tile).copies.getD i.copy {}).rsCache.find? fun q => q.addr == k.rsp - 48).map (fun q => bits q.lo 63 60) = some (n % 16)) ∧
        (∀ x, x ≠ i.tile → u.tileH x = s.tileH x) :)
    ∧ (∀ (i : Issue) (n : Nat) (g : Cap) (k : KCopy) (o : Nat) (op : Bool) (s : State), (Instr.ldh i n).wf = true → s.calm = true → s.solo i (.ld .ldh n) = true → s.copyOf i = k → k.entry (k.top - 1) = (o, op) → o < 2 ^ 32 → (s.kx i.tile i.copy).canEnter 4 g = true → op = false → (k.cap n).usable = true → (k.cap n).perm 0 = true → (k.cap n).covers ((k.cap n).base + o) 2 = false → inPages ((k.cap n).base + o) = false →
      Completes (.ldh i n) s fun u => 
        ((u.tileH i.tile).copies.getD i.copy {}).pc = g.base ∧
        ((u.tileH i.tile).copies.getD i.copy {}).cap 0 = g ∧
        ((u.tileH i.tile).copies.getD i.copy {}).status = k.status ||| 1 ∧
        ((u.tileH i.tile).copies.getD i.copy {}).base = k.top % 2 ^ 17 ∧
        ((u.tileH i.tile).copies.getD i.copy {}).depth = 0 ∧
        ((u.tileH i.tile).copies.getD i.copy {}).rsp = k.rsp - 48 ∧
        (((u.tileH i.tile).copies.getD i.copy {}).preds, ((u.tileH i.tile).copies.getD i.copy {}).lc, ((u.tileH i.tile).copies.getD i.copy {}).rc, ((u.tileH i.tile).copies.getD i.copy {}).file) = (k.preds, k.lc, k.rc, k.file) ∧
        ((((u.tileH i.tile).copies.getD i.copy {}).rsCache.find? fun q => q.addr == k.rsp - 48).map (fun q => bits q.lo 39 0) = some (k.pc % 2 ^ 40)) ∧
        ((((u.tileH i.tile).copies.getD i.copy {}).rsCache.find? fun q => q.addr == k.rsp - 32).map (fun q => (bits q.lo 13 0, bits q.lo 45 38, bits q.lo 51 46, bit q.lo 61)) = some (bits k.status 13 0, k.depth % 256, 4, false) ∧ (((u.tileH i.tile).copies.getD i.copy {}).rsCache.find? fun q => q.addr == k.rsp - 48).map (fun q => bits q.lo 63 60) = some (n % 16)) ∧
        (∀ x, x ≠ i.tile → u.tileH x = s.tileH x) :)
    ∧ (∀ (i : Issue) (n : Nat) (g : Cap) (k : KCopy) (o : Nat) (op : Bool) (s : State), (Instr.ldh i n).wf = true → s.calm = true → s.solo i (.ld .ldh n) = true → s.copyOf i = k → k.entry (k.top - 1) = (o, op) → o < 2 ^ 32 → (s.kx i.tile i.copy).canEnter 6 g = true → op = false → (k.cap n).usable = true → (k.cap n).perm 0 = true → (k.cap n).covers ((k.cap n).base + o) 2 = true → ((k.cap n).base + o) % 2 ≠ 0 → inOwn ((k.cap n).base + o) 2 = true → (s.kx i.tile i.copy).pairBad ((k.cap n).base + o) 2 false = none →
      Completes (.ldh i n) s fun u => 
        ((u.tileH i.tile).copies.getD i.copy {}).pc = g.base ∧
        ((u.tileH i.tile).copies.getD i.copy {}).cap 0 = g ∧
        ((u.tileH i.tile).copies.getD i.copy {}).status = k.status ||| 1 ∧
        ((u.tileH i.tile).copies.getD i.copy {}).base = k.top % 2 ^ 17 ∧
        ((u.tileH i.tile).copies.getD i.copy {}).depth = 0 ∧
        ((u.tileH i.tile).copies.getD i.copy {}).rsp = k.rsp - 48 ∧
        (((u.tileH i.tile).copies.getD i.copy {}).preds, ((u.tileH i.tile).copies.getD i.copy {}).lc, ((u.tileH i.tile).copies.getD i.copy {}).rc, ((u.tileH i.tile).copies.getD i.copy {}).file) = (k.preds, k.lc, k.rc, k.file) ∧
        ((((u.tileH i.tile).copies.getD i.copy {}).rsCache.find? fun q => q.addr == k.rsp - 48).map (fun q => bits q.lo 39 0) = some (k.pc % 2 ^ 40)) ∧
        ((((u.tileH i.tile).copies.getD i.copy {}).rsCache.find? fun q => q.addr == k.rsp - 32).map (fun q => (bits q.lo 13 0, bits q.lo 45 38, bits q.lo 51 46, bit q.lo 61)) = some (bits k.status 13 0, k.depth % 256, 6, false) ∧ (((u.tileH i.tile).copies.getD i.copy {}).rsCache.find? fun q => q.addr == k.rsp - 48).map (fun q => bits q.lo 63 60) = some (n % 16)) ∧
        (∀ x, x ≠ i.tile → u.tileH x = s.tileH x) :)
    ∧ (∀ (i : Issue) (n v : Nat) (vp : Bool) (k : KCopy) (o : Nat) (op : Bool) (s : State), (Instr.ldhu i n).wf = true → s.calm = true → s.solo i (.ld .ldhu n) = true → s.copyOf i = k → k.entry (k.top - 1) = (o, op) → o < 2 ^ 32 → op = false → (k.cap n).usable = true → (k.cap n).perm 0 = true → (k.cap n).covers ((k.cap n).base + o) 2 = true → ((k.cap n).base + o) % 2 = 0 → inOwn ((k.cap n).base + o) 2 = true → (s.kx i.tile i.copy).pairBad ((k.cap n).base + o) 2 false = none → (s.kx i.tile i.copy).readsFree ((k.cap n).base + o) 2 = false → s.rdMem (physOf i.tile ((k.cap n).base + o)) 2 = ((v, vp), s) → (k.sb.all fun e => !(decide (e.addr ≤ ((k.cap n).base + o)) && decide (((k.cap n).base + o) + 2 ≤ e.addr + e.n)) || (decide ((e.val >>> (8 * (((k.cap n).base + o) - e.addr))) % 256 ^ 2 = v) && (List.range ((((k.cap n).base + o) + 2 + 7) / 8 - ((k.cap n).base + o) / 8)).any (fun j => e.pois.getD (((k.cap n).base + o) / 8 + j - e.addr / 8) false) == vp)) = true → (((s.tileH i.tile).copies.zipIdx.all fun q => q.2 == i.copy || q.1.sb.isEmpty) = true) →
      Completes (.ldhu i n) s fun u => 
        Took i s u (({ k.after k.depth [] ((k.pc + 2 * (i.lits.length + 1)) % 2 ^ 40) with shadow := [⟨k.top - 1, v, vp, 2⟩] } : KCopy)) :)
    ∧ (∀ (i : Issue) (n v : Nat) (vp : Bool) (k : KCopy) (o : Nat) (op : Bool) (s : State), (Instr.ldhu i n).wf = true → s.calm = true → s.solo i (.ld .ldhu n) = true → s.copyOf i = k → k.entry (k.top - 1) = (o, op) → o < 2 ^ 32 → op = false → (k.cap n).usable = true → (k.cap n).perm 0 = true → (k.cap n).covers ((k.cap n).base + o) 2 = true → ((k.cap n).base + o) % 2 = 0 → inOwn ((k.cap n).base + o) 2 = true → (s.kx i.tile i.copy).pairBad ((k.cap n).base + o) 2 false = none → (s.kx i.tile i.copy).readsFree ((k.cap n).base + o) 2 = true → s.rdMem (physOf i.tile ((k.cap n).base + o)) 2 = ((v, vp), s) → (k.sb.all fun e => !(decide (e.addr ≤ ((k.cap n).base + o)) && decide (((k.cap n).base + o) + 2 ≤ e.addr + e.n)) || (decide ((e.val >>> (8 * (((k.cap n).base + o) - e.addr))) % 256 ^ 2 = v) && (List.range ((((k.cap n).base + o) + 2 + 7) / 8 - ((k.cap n).base + o) / 8)).any (fun j => e.pois.getD (((k.cap n).base + o) / 8 + j - e.addr / 8) false) == vp)) = true → (((s.tileH i.tile).copies.zipIdx.all fun q => q.2 == i.copy || q.1.sb.isEmpty) = true) →
      Completes (.ldhu i n) s fun u => 
        (u.copyOf i).bare = (({ k.after k.depth [] ((k.pc + 2 * (i.lits.length + 1)) % 2 ^ 40) with shadow := [⟨k.top - 1, v, vp, 2⟩] } : KCopy)).bare ∧ (u.tileH i.tile).copies = setAt (s.tileH i.tile).copies i.copy (u.copyOf i) ∧
        ((u.tileH i.tile).jrn = (s.tileH i.tile).jrn ++ [⟨0, ((k.cap n).base + o) * 8 + 6, v + (if vp then 256 ^ 2 else 0), false, (s.tileH i.tile).bundles⟩]) ∧
        (∀ x, x ≠ i.tile → u.tileH x = s.tileH x) ∧
        (({ (u.tileH i.tile) with copies := [], bundles := 0, due := none, bound := none, lastDue := 0, port := [], jrn := [] } : TileH) = { (s.tileH i.tile) with copies := [], bundles := 0, due := none, bound := none, lastDue := 0, port := [], jrn := [] }) ∧
        RegsOnly [pgTile i.tile] s u ∧
        ({ u with regs := s.regs, tiles := s.tiles, hot := s.hot } = s) :)
    ∧ (∀ (i : Issue) (n : Nat) (k : KCopy) (o : Nat) (op : Bool) (s : State), (Instr.ldhu i n).wf = true → s.calm = true → s.solo i (.ld .ldhu n) = true → s.copyOf i = k → k.entry (k.top - 1) = (o, op) → o < 2 ^ 32 → op = false → (k.cap n).usable = true → (k.cap n).perm 0 = true → (k.cap n).covers ((k.cap n).base + o) 2 = true → ((k.cap n).base + o) % 2 = 0 → inOwn ((k.cap n).base + o) 1 = false → ((List.range 2).all fun j => tileMapped (((k.cap n).base + o) + j)) = true → pageAllowed (k.cap n) ((k.cap n).base + o) false = true → inPages ((k.cap n).base + o) = false → stallsAt s i.tile ((k.cap n).base + o) = false → (s.tileH i.tile).ocb = [] →
      Completes (.ldhu i n) s fun u => 
        Took i s u (({ k.after k.depth [] ((k.pc + 2 * (i.lits.length + 1)) % 2 ^ 40) with ext := [⟨k.top - 1, .ldhu, ((k.cap n).base + o), 0, none, 0⟩] } : KCopy)) :)
    ∧ (∀ (i : Issue) (n : Nat) (g : Cap) (k : KCopy) (o : Nat) (op : Bool) (s : State), (Instr.ldhu i n).wf = true → s.calm = true → s.solo i (.ld .ldhu n) = true → s.copyOf i = k → k.entry (k.top - 1) = (o, op) → o < 2 ^ 32 → (s.kx i.tile i.copy).canEnter 3 g = true → op = false → ((k.cap n).usable = false ∨ (k.cap n).perm 0 = false) →
      Completes (.ldhu i n) s fun u => 
        ((u.tileH i.tile).copies.getD i.copy {}).pc = g.base ∧
        ((u.tileH i.tile).copies.getD i.copy {}).cap 0 = g ∧
        ((u.tileH i.tile).copies.getD i.copy {}).status = k.status ||| 1 ∧
        ((u.tileH i.tile).copies.getD i.copy {}).base = k.top % 2 ^ 17 ∧
        ((u.tileH i.tile).copies.getD i.copy {}).depth = 0 ∧
        ((u.tileH i.tile).copies.getD i.copy {}).rsp = k.rsp - 48 ∧
        (((u.tileH i.tile).copies.getD i.copy {}).preds, ((u.tileH i.tile).copies.getD i.copy {}).lc, ((u.tileH i.tile).copies.getD i.copy {}).rc, ((u.tileH i.tile).copies.getD i.copy {}).file) = (k.preds, k.lc, k.rc, k.file) ∧
        ((((u.tileH i.tile).copies.getD i.copy {}).rsCache.find? fun q => q.addr == k.rsp - 48).map (fun q => bits q.lo 39 0) = some (k.pc % 2 ^ 40)) ∧
        ((((u.tileH i.tile).copies.getD i.copy {}).rsCache.find? fun q => q.addr == k.rsp - 32).map (fun q => (bits q.lo 13 0, bits q.lo 45 38, bits q.lo 51 46, bit q.lo 61)) = some (bits k.status 13 0, k.depth % 256, 3, false) ∧ (((u.tileH i.tile).copies.getD i.copy {}).rsCache.find? fun q => q.addr == k.rsp - 48).map (fun q => bits q.lo 63 60) = some (n % 16)) ∧
        (∀ x, x ≠ i.tile → u.tileH x = s.tileH x) :)
    ∧ (∀ (i : Issue) (n : Nat) (g : Cap) (k : KCopy) (o : Nat) (op : Bool) (s : State), (Instr.ldhu i n).wf = true → s.calm = true → s.solo i (.ld .ldhu n) = true → s.copyOf i = k → k.entry (k.top - 1) = (o, op) → o < 2 ^ 32 → (s.kx i.tile i.copy).canEnter 4 g = true → op = false → (k.cap n).usable = true → (k.cap n).perm 0 = true → (k.cap n).covers ((k.cap n).base + o) 2 = false → inPages ((k.cap n).base + o) = false →
      Completes (.ldhu i n) s fun u => 
        ((u.tileH i.tile).copies.getD i.copy {}).pc = g.base ∧
        ((u.tileH i.tile).copies.getD i.copy {}).cap 0 = g ∧
        ((u.tileH i.tile).copies.getD i.copy {}).status = k.status ||| 1 ∧
        ((u.tileH i.tile).copies.getD i.copy {}).base = k.top % 2 ^ 17 ∧
        ((u.tileH i.tile).copies.getD i.copy {}).depth = 0 ∧
        ((u.tileH i.tile).copies.getD i.copy {}).rsp = k.rsp - 48 ∧
        (((u.tileH i.tile).copies.getD i.copy {}).preds, ((u.tileH i.tile).copies.getD i.copy {}).lc, ((u.tileH i.tile).copies.getD i.copy {}).rc, ((u.tileH i.tile).copies.getD i.copy {}).file) = (k.preds, k.lc, k.rc, k.file) ∧
        ((((u.tileH i.tile).copies.getD i.copy {}).rsCache.find? fun q => q.addr == k.rsp - 48).map (fun q => bits q.lo 39 0) = some (k.pc % 2 ^ 40)) ∧
        ((((u.tileH i.tile).copies.getD i.copy {}).rsCache.find? fun q => q.addr == k.rsp - 32).map (fun q => (bits q.lo 13 0, bits q.lo 45 38, bits q.lo 51 46, bit q.lo 61)) = some (bits k.status 13 0, k.depth % 256, 4, false) ∧ (((u.tileH i.tile).copies.getD i.copy {}).rsCache.find? fun q => q.addr == k.rsp - 48).map (fun q => bits q.lo 63 60) = some (n % 16)) ∧
        (∀ x, x ≠ i.tile → u.tileH x = s.tileH x) :)
    ∧ (∀ (i : Issue) (n : Nat) (g : Cap) (k : KCopy) (o : Nat) (op : Bool) (s : State), (Instr.ldhu i n).wf = true → s.calm = true → s.solo i (.ld .ldhu n) = true → s.copyOf i = k → k.entry (k.top - 1) = (o, op) → o < 2 ^ 32 → (s.kx i.tile i.copy).canEnter 6 g = true → op = false → (k.cap n).usable = true → (k.cap n).perm 0 = true → (k.cap n).covers ((k.cap n).base + o) 2 = true → ((k.cap n).base + o) % 2 ≠ 0 → inOwn ((k.cap n).base + o) 2 = true → (s.kx i.tile i.copy).pairBad ((k.cap n).base + o) 2 false = none →
      Completes (.ldhu i n) s fun u => 
        ((u.tileH i.tile).copies.getD i.copy {}).pc = g.base ∧
        ((u.tileH i.tile).copies.getD i.copy {}).cap 0 = g ∧
        ((u.tileH i.tile).copies.getD i.copy {}).status = k.status ||| 1 ∧
        ((u.tileH i.tile).copies.getD i.copy {}).base = k.top % 2 ^ 17 ∧
        ((u.tileH i.tile).copies.getD i.copy {}).depth = 0 ∧
        ((u.tileH i.tile).copies.getD i.copy {}).rsp = k.rsp - 48 ∧
        (((u.tileH i.tile).copies.getD i.copy {}).preds, ((u.tileH i.tile).copies.getD i.copy {}).lc, ((u.tileH i.tile).copies.getD i.copy {}).rc, ((u.tileH i.tile).copies.getD i.copy {}).file) = (k.preds, k.lc, k.rc, k.file) ∧
        ((((u.tileH i.tile).copies.getD i.copy {}).rsCache.find? fun q => q.addr == k.rsp - 48).map (fun q => bits q.lo 39 0) = some (k.pc % 2 ^ 40)) ∧
        ((((u.tileH i.tile).copies.getD i.copy {}).rsCache.find? fun q => q.addr == k.rsp - 32).map (fun q => (bits q.lo 13 0, bits q.lo 45 38, bits q.lo 51 46, bit q.lo 61)) = some (bits k.status 13 0, k.depth % 256, 6, false) ∧ (((u.tileH i.tile).copies.getD i.copy {}).rsCache.find? fun q => q.addr == k.rsp - 48).map (fun q => bits q.lo 63 60) = some (n % 16)) ∧
        (∀ x, x ≠ i.tile → u.tileH x = s.tileH x) :)
    ∧ (∀ (i : Issue) (n v : Nat) (vp : Bool) (k : KCopy) (o : Nat) (op : Bool) (s : State), (Instr.ldw i n).wf = true → s.calm = true → s.solo i (.ld .ldw n) = true → s.copyOf i = k → k.entry (k.top - 1) = (o, op) → o < 2 ^ 32 → op = false → (k.cap n).usable = true → (k.cap n).perm 0 = true → (k.cap n).covers ((k.cap n).base + o) 4 = true → ((k.cap n).base + o) % 4 = 0 → inOwn ((k.cap n).base + o) 4 = true → (s.kx i.tile i.copy).pairBad ((k.cap n).base + o) 4 false = none → (s.kx i.tile i.copy).readsFree ((k.cap n).base + o) 4 = false → s.rdMem (physOf i.tile ((k.cap n).base + o)) 4 = ((v, vp), s) → (k.sb.all fun e => !(decide (e.addr ≤ ((k.cap n).base + o)) && decide (((k.cap n).base + o) + 4 ≤ e.addr + e.n)) || (decide ((e.val >>> (8 * (((k.cap n).base + o) - e.addr))) % 256 ^ 4 = v) && (List.range ((((k.cap n).base + o) + 4 + 7) / 8 - ((k.cap n).base + o) / 8)).any (fun j => e.pois.getD (((k.cap n).base + o) / 8 + j - e.addr / 8) false) == vp)) = true → (((s.tileH i.tile).copies.zipIdx.all fun q => q.2 == i.copy || q.1.sb.isEmpty) = true) →
      Completes (.ldw i n) s fun u => 
        Took i s u (({ k.after k.depth [] ((k.pc + 2 * (i.lits.length + 1)) % 2 ^ 40) with shadow := [⟨k.top - 1, v, vp, 2⟩] } : KCopy)) :)
    ∧ (∀ (i : Issue) (n v : Nat) (vp : Bool) (k : KCopy) (o : Nat) (op : Bool) (s : State), (Instr.ldw i n).wf = true → s.calm = true → s.solo i (.ld .ldw n) = true → s.copyOf i = k → k.entry (k.top - 1) = (o, op) → o < 2 ^ 32 → op = false → (k.cap n).usable = true → (k.cap n).perm 0 = true → (k.cap n).covers ((k.cap n).base + o) 4 = true → ((k.cap n).base + o) % 4 = 0 → inOwn ((k.cap n).base + o) 4 = true → (s.kx i.tile i.copy).pairBad ((k.cap n).base + o) 4 false = none → (s.kx i.tile i.copy).readsFree ((k.cap n).base + o) 4 = true → s.rdMem (physOf i.tile ((k.cap n).base + o)) 4 = ((v, vp), s) → (k.sb.all fun e => !(decide (e.addr ≤ ((k.cap n).base + o)) && decide (((k.cap n).base + o) + 4 ≤ e.addr + e.n)) || (decide ((e.val >>> (8 * (((k.cap n).base + o) - e.addr))) % 256 ^ 4 = v) && (List.range ((((k.cap n).base + o) + 4 + 7) / 8 - ((k.cap n).base + o) / 8)).any (fun j => e.pois.getD (((k.cap n).base + o) / 8 + j - e.addr / 8) false) == vp)) = true → (((s.tileH i.tile).copies.zipIdx.all fun q => q.2 == i.copy || q.1.sb.isEmpty) = true) →
      Completes (.ldw i n) s fun u => 
        (u.copyOf i).bare = (({ k.after k.depth [] ((k.pc + 2 * (i.lits.length + 1)) % 2 ^ 40) with shadow := [⟨k.top - 1, v, vp, 2⟩] } : KCopy)).bare ∧ (u.tileH i.tile).copies = setAt (s.tileH i.tile).copies i.copy (u.copyOf i) ∧
        ((u.tileH i.tile).jrn = (s.tileH i.tile).jrn ++ [⟨0, ((k.cap n).base + o) * 8 + 6, v + (if vp then 256 ^ 4 else 0), false, (s.tileH i.tile).bundles⟩]) ∧
        (∀ x, x ≠ i.tile → u.tileH x = s.tileH x) ∧
        (({ (u.tileH i.tile) with copies := [], bundles := 0, due := none, bound := none, lastDue := 0, port := [], jrn := [] } : TileH) = { (s.tileH i.tile) with copies := [], bundles := 0, due := none, bound := none, lastDue := 0, port := [], jrn := [] }) ∧
        RegsOnly [pgTile i.tile] s u ∧
        ({ u with regs := s.regs, tiles := s.tiles, hot := s.hot } = s) :)
    ∧ (∀ (i : Issue) (n : Nat) (k : KCopy) (o : Nat) (op : Bool) (s : State), (Instr.ldw i n).wf = true → s.calm = true → s.solo i (.ld .ldw n) = true → s.copyOf i = k → k.entry (k.top - 1) = (o, op) → o < 2 ^ 32 → op = false → (k.cap n).usable = true → (k.cap n).perm 0 = true → (k.cap n).covers ((k.cap n).base + o) 4 = true → ((k.cap n).base + o) % 4 = 0 → inOwn ((k.cap n).base + o) 1 = false → ((List.range 4).all fun j => tileMapped (((k.cap n).base + o) + j)) = true → pageAllowed (k.cap n) ((k.cap n).base + o) false = true → stallsAt s i.tile ((k.cap n).base + o) = false → (s.tileH i.tile).ocb = [] →
      Completes (.ldw i n) s fun u => 
        Took i s u (({ k.after k.depth [] ((k.pc + 2 * (i.lits.length + 1)) % 2 ^ 40) with ext := [⟨k.top - 1, .ldw, ((k.cap n).base + o), 0, none, 0⟩] } : KCopy)) :)
    ∧ (∀ (i : Issue) (n : Nat) (g : Cap) (k : KCopy) (o : Nat) (op : Bool) (s : State), (Instr.ldw i n).wf = true → s.calm = true → s.solo i (.ld .ldw n) = true → s.copyOf i = k → k.entry (k.top - 1) = (o, op) → o < 2 ^ 32 → (s.kx i.tile i.copy).canEnter 3 g = true → op = false → ((k.cap n).usable = false ∨ (k.cap n).perm 0 = false) →
      Completes (.ldw i n) s fun u => 
        ((u.tileH i.tile).copies.getD i.copy {}).pc = g.base ∧
        ((u.tileH i.tile).copies.getD i.copy {}).cap 0 = g ∧
        ((u.tileH i.tile).copies.getD i.copy {}).status = k.status ||| 1 ∧
        ((u.tileH i.tile).copies.getD i.copy {}).base = k.top % 2 ^ 17 ∧
        ((u.tileH i.tile).copies.getD i.copy {}).depth = 0 ∧
        ((u.tileH i.tile).copies.getD i.copy {}).rsp = k.rsp - 48 ∧
        (((u.tileH i.tile).copies.getD i.copy {}).preds, ((u.tileH i.tile).copies.getD i.copy {}).lc, ((u.tileH i.tile).copies.getD i.copy {}).rc, ((u.tileH i.tile).copies.getD i.copy {}).file) = (k.preds, k.lc, k.rc, k.file) ∧
        ((((u.tileH i.tile).copies.getD i.copy {}).rsCache.find? fun q => q.addr == k.rsp - 48).map (fun q => bits q.lo 39 0) = some (k.pc % 2 ^ 40)) ∧
        ((((u.tileH i.tile).copies.getD i.copy {}).rsCache.find? fun q => q.addr == k.rsp - 32).map (fun q => (bits q.lo 13 0, bits q.lo 45 38, bits q.lo 51 46, bit q.lo 61)) = some (bits k.status 13 0, k.depth % 256, 3, false) ∧ (((u.tileH i.tile).copies.getD i.copy {}).rsCache.find? fun q => q.addr == k.rsp - 48).map (fun q => bits q.lo 63 60) = some (n % 16)) ∧
        (∀ x, x ≠ i.tile → u.tileH x = s.tileH x) :)
    ∧ (∀ (i : Issue) (n : Nat) (g : Cap) (k : KCopy) (o : Nat) (op : Bool) (s : State), (Instr.ldw i n).wf = true → s.calm = true → s.solo i (.ld .ldw n) = true → s.copyOf i = k → k.entry (k.top - 1) = (o, op) → o < 2 ^ 32 → (s.kx i.tile i.copy).canEnter 4 g = true → op = false → (k.cap n).usable = true → (k.cap n).perm 0 = true → (k.cap n).covers ((k.cap n).base + o) 4 = false → inPages ((k.cap n).base + o) = false →
      Completes (.ldw i n) s fun u => 
        ((u.tileH i.tile).copies.getD i.copy {}).pc = g.base ∧
        ((u.tileH i.tile).copies.getD i.copy {}).cap 0 = g ∧
        ((u.tileH i.tile).copies.getD i.copy {}).status = k.status ||| 1 ∧
        ((u.tileH i.tile).copies.getD i.copy {}).base = k.top % 2 ^ 17 ∧
        ((u.tileH i.tile).copies.getD i.copy {}).depth = 0 ∧
        ((u.tileH i.tile).copies.getD i.copy {}).rsp = k.rsp - 48 ∧
        (((u.tileH i.tile).copies.getD i.copy {}).preds, ((u.tileH i.tile).copies.getD i.copy {}).lc, ((u.tileH i.tile).copies.getD i.copy {}).rc, ((u.tileH i.tile).copies.getD i.copy {}).file) = (k.preds, k.lc, k.rc, k.file) ∧
        ((((u.tileH i.tile).copies.getD i.copy {}).rsCache.find? fun q => q.addr == k.rsp - 48).map (fun q => bits q.lo 39 0) = some (k.pc % 2 ^ 40)) ∧
        ((((u.tileH i.tile).copies.getD i.copy {}).rsCache.find? fun q => q.addr == k.rsp - 32).map (fun q => (bits q.lo 13 0, bits q.lo 45 38, bits q.lo 51 46, bit q.lo 61)) = some (bits k.status 13 0, k.depth % 256, 4, false) ∧ (((u.tileH i.tile).copies.getD i.copy {}).rsCache.find? fun q => q.addr == k.rsp - 48).map (fun q => bits q.lo 63 60) = some (n % 16)) ∧
        (∀ x, x ≠ i.tile → u.tileH x = s.tileH x) :)
    ∧ (∀ (i : Issue) (n : Nat) (g : Cap) (k : KCopy) (o : Nat) (op : Bool) (s : State), (Instr.ldw i n).wf = true → s.calm = true → s.solo i (.ld .ldw n) = true → s.copyOf i = k → k.entry (k.top - 1) = (o, op) → o < 2 ^ 32 → (s.kx i.tile i.copy).canEnter 6 g = true → op = false → (k.cap n).usable = true → (k.cap n).perm 0 = true → (k.cap n).covers ((k.cap n).base + o) 4 = true → ((k.cap n).base + o) % 4 ≠ 0 → inOwn ((k.cap n).base + o) 4 = true → (s.kx i.tile i.copy).pairBad ((k.cap n).base + o) 4 false = none →
      Completes (.ldw i n) s fun u => 
        ((u.tileH i.tile).copies.getD i.copy {}).pc = g.base ∧
        ((u.tileH i.tile).copies.getD i.copy {}).cap 0 = g ∧
        ((u.tileH i.tile).copies.getD i.copy {}).status = k.status ||| 1 ∧
        ((u.tileH i.tile).copies.getD i.copy {}).base = k.top % 2 ^ 17 ∧
        ((u.tileH i.tile).copies.getD i.copy {}).depth = 0 ∧
        ((u.tileH i.tile).copies.getD i.copy {}).rsp = k.rsp - 48 ∧
        (((u.tileH i.tile).copies.getD i.copy {}).preds, ((u.tileH i.tile).copies.getD i.copy {}).lc, ((u.tileH i.tile).copies.getD i.copy {}).rc, ((u.tileH i.tile).copies.getD i.copy {}).file) = (k.preds, k.lc, k.rc, k.file) ∧
        ((((u.tileH i.tile).copies.getD i.copy {}).rsCache.find? fun q => q.addr == k.rsp - 48).map (fun q => bits q.lo 39 0) = some (k.pc % 2 ^ 40)) ∧
        ((((u.tileH i.tile).copies.getD i.copy {}).rsCache.find? fun q => q.addr == k.rsp - 32).map (fun q => (bits q.lo 13 0, bits q.lo 45 38, bits q.lo 51 46, bit q.lo 61)) = some (bits k.status 13 0, k.depth % 256, 6, false) ∧ (((u.tileH i.tile).copies.getD i.copy {}).rsCache.find? fun q => q.addr == k.rsp - 48).map (fun q => bits q.lo 63 60) = some (n % 16)) ∧
        (∀ x, x ≠ i.tile → u.tileH x = s.tileH x) :)
    ∧ (∀ (i : Issue) (n : Nat) (k : KCopy) (o : Nat) (op : Bool) (s : State), (Instr.ldw i n).wf = true → s.calm = true → s.solo i (.ld .ldw n) = true → s.copyOf i = k → k.entry (k.top - 1) = (o, op) → o < 2 ^ 32 → op = false → (k.cap n).usable = true → (k.cap n).perm 0 = true → (k.cap n).covers ((k.cap n).base + o) 4 = true → ((k.cap n).base + o) % 4 = 0 → inOwn ((k.cap n).base + o) 1 = false → ((List.range 4).all fun j => tileMapped (((k.cap n).base + o) + j)) = true → pageAllowed (k.cap n) ((k.cap n).base + o) false = true → stallsAt s i.tile ((k.cap n).base + o) = true → (s.tileH i.tile).ocb = [] →
      Completes (.ldw i n) s fun u => 
        (u.copyOf i).bare = (({ k.after k.depth [] ((k.pc + 2 * (i.lits.length + 1)) % 2 ^ 40) with ext := [⟨k.top - 1, .ldw, ((k.cap n).base + o), 0, none, 0⟩] } : KCopy)).bare ∧ (u.tileH i.tile).copies = setAt (s.tileH i.tile).copies i.copy (u.copyOf i) ∧
        u.fld (cluPageOf ((k.cap n).base + o)) 0x048 31 16 = min 0xFFFF (s.fld (cluPageOf ((k.cap n).base + o)) 0x048 31 16 + 1) ∧
        (∀ x, x ≠ i.tile → u.tileH x = s.tileH x) :)
    ∧ (∀ (i : Issue) (n : Nat) (e : OcbE) (k : KCopy) (o : Nat) (op : Bool) (s : State), (Instr.ldw i n).wf = true → s.calm = true → s.solo i (.ld .ldw n) = true → s.copyOf i = k → k.entry (k.top - 1) = (o, op) → o < 2 ^ 32 → op = false → (k.cap n).usable = true → (k.cap n).perm 0 = true → (k.cap n).covers ((k.cap n).base + o) 4 = true → ((k.cap n).base + o) % 4 = 0 → inOwn ((k.cap n).base + o) 1 = false → ((List.range 4).all fun j => tileMapped (((k.cap n).base + o) + j)) = true → pageAllowed (k.cap n) ((k.cap n).base + o) false = true → inPages ((k.cap n).base + o) = false → ((s.tileH i.tile).mode ≤ 1 ∧ i.copy = 0) → (s.tileH i.tile).ocb = [e] → e.kind = 0 → e.addr ≤ ((k.cap n).base + o) → ((k.cap n).base + o) + 4 ≤ e.addr + e.size →
      Completes (.ldw i n) s fun u => 
        (u.copyOf i).bare = (({ k.after k.depth [] ((k.pc + 2 * (i.lits.length + 1)) % 2 ^ 40) with ext := [⟨k.top - 1, .ldw, ((k.cap n).base + o), 0, some ((e.val >>> (8 * (((k.cap n).base + o) - e.addr))) % 2 ^ 32, bits e.pois ((((k.cap n).base + o) + 3) / 8 - e.addr / 8) (((k.cap n).base + o) / 8 - e.addr / 8) != 0), 0⟩] } : KCopy)).bare ∧ (u.tileH i.tile).copies = setAt (s.tileH i.tile).copies i.copy (u.copyOf i) ∧
        (u.tileH i.tile).ocb = (s.tileH i.tile).ocb ∧
        u.mem = s.mem ∧
        (∀ x, x ≠ i.tile → u.tileH x = s.tileH x) :)
    ∧ (∀ (i : Issue) (n : Nat) (e : OcbE) (k : KCopy) (o : Nat) (op : Bool) (s : State), (Instr.ldw i n).wf = true → s.calm = true → s.solo i (.ld .ldw n) = true → s.copyOf i = k → k.entry (k.top - 1) = (o, op) → o < 2 ^ 32 → op = false → (k.cap n).usable = true → (k.cap n).perm 0 = true → (k.cap n).covers ((k.cap n).base + o) 4 = true → ((k.cap n).base + o) % 4 = 0 → inOwn ((k.cap n).base + o) 1 = false → ((List.range 4).all fun j => tileMapped (((k.cap n).base + o) + j)) = true → pageAllowed (k.cap n) ((k.cap n).base + o) false = true → inPages ((k.cap n).base + o) = false → ((s.tileH i.tile).mode ≤ 1 ∧ i.copy = 0) → (s.tileH i.tile).ocb = [e] → e.kind = 0 → e.addr < ((k.cap n).base + o) + 4 → ((k.cap n).base + o) < e.addr + e.size → ¬(e.addr ≤ ((k.cap n).base + o) ∧ ((k.cap n).base + o) + 4 ≤ e.addr + e.size) →
      Completes (.ldw i n) s fun u => 
        (u.copyOf i).bare = (({ k.after k.depth [] ((k.pc + 2 * (i.lits.length + 1)) % 2 ^ 40) with ext := [⟨k.top - 1, .ldw, ((k.cap n).base + o), 0, none, 1⟩] } : KCopy)).bare ∧ (u.tileH i.tile).copies = setAt (s.tileH i.tile).copies i.copy (u.copyOf i) ∧
        ((u.tileH i.tile).due.isSome = true ∨ (u.tileH i.tile).bound.isSome = true) ∧
        (u.tileH i.tile).ocb = (s.tileH i.tile).ocb ∧
        u.mem = s.mem ∧
        (∀ x, x ≠ i.tile → u.tileH x = s.tileH x) :)
    ∧ (∀ (i : Issue) (n v : Nat) (vp : Bool) (k : KCopy) (o : Nat) (op : Bool) (s : State), (Instr.ldd i n).wf = true → s.calm = true → s.solo i (.ld .ldd n) = true → s.copyOf i = k → k.entry (k.top - 1) = (o, op) → o < 2 ^ 32 → op = false → (k.cap n).usable = true → (k.cap n).perm 0 = true → (k.cap n).covers ((k.cap n).base + o) 8 = true → ((k.cap n).base + o) % 8 = 0 → inOwn ((k.cap n).base + o) 8 = true → (s.kx i.tile i.copy).pairBad ((k.cap n).base + o) 8 false = none → (s.kx i.tile i.copy).readsFree ((k.cap n).base + o) 8 = false → s.rdMem (physOf i.tile ((k.cap n).base + o)) 8 = ((v, vp), s) → (k.sb.all fun e => !(decide (e.addr ≤ ((k.cap n).base + o)) && decide (((k.cap n).base + o) + 8 ≤ e.addr + e.n)) || (decide ((e.val >>> (8 * (((k.cap n).base + o) - e.addr))) % 256 ^ 8 = v) && (List.range ((((k.cap n).base + o) + 8 + 7) / 8 - ((k.cap n).base + o) / 8)).any (fun j => e.pois.getD (((k.cap n).base + o) / 8 + j - e.addr / 8) false) == vp)) = true → (((s.tileH i.tile).copies.zipIdx.all fun q => q.2 == i.copy || q.1.sb.isEmpty) = true) → v < 2 ^ 64 →
      Completes (.ldd i n) s fun u => 
        Took i s u (({ k.after (k.depth + 1) [] ((k.pc + 2 * (i.lits.length + 1)) % 2 ^ 40) with shadow := [⟨k.top - 1, v % 2 ^ 32, vp, 2⟩, ⟨k.top, v / 2 ^ 32, vp, 2⟩] } : KCopy)) :)
    ∧ (∀ (i : Issue) (n v : Nat) (vp : Bool) (k : KCopy) (o : Nat) (op : Bool) (s : State), (Instr.ldd i n).wf = true → s.calm = true → s.solo i (.ld .ldd n) = true → s.copyOf i = k → k.entry (k.top - 1) = (o, op) → o < 2 ^ 32 → op = false → (k.cap n).usable = true → (k.cap n).perm 0 = true → (k.cap n).covers ((k.cap n).base + o) 8 = true → ((k.cap n).base + o) % 8 = 0 → inOwn ((k.cap n).base + o) 8 = true → (s.kx i.tile i.copy).pairBad ((k.cap n).base + o) 8 false = none → (s.kx i.tile i.copy).readsFree ((k.cap n).base + o) 8 = true → s.rdMem (physOf i.tile ((k.cap n).base + o)) 8 = ((v, vp), s) → (k.sb.all fun e => !(decide (e.addr ≤ ((k.cap n).base + o)) && decide (((k.cap n).base + o) + 8 ≤ e.addr + e.n)) || (decide ((e.val >>> (8 * (((k.cap n).base + o) - e.addr))) % 256 ^ 8 = v) && (List.range ((((k.cap n).base + o) + 8 + 7) / 8 - ((k.cap n).base + o) / 8)).any (fun j => e.pois.getD (((k.cap n).base + o) / 8 + j - e.addr / 8) false) == vp)) = true → (((s.tileH i.tile).copies.zipIdx.all fun q => q.2 == i.copy || q.1.sb.isEmpty) = true) → v < 2 ^ 64 →
      Completes (.ldd i n) s fun u => 
        (u.copyOf i).bare = (({ k.after (k.depth + 1) [] ((k.pc + 2 * (i.lits.length + 1)) % 2 ^ 40) with shadow := [⟨k.top - 1, v % 2 ^ 32, vp, 2⟩, ⟨k.top, v / 2 ^ 32, vp, 2⟩] } : KCopy)).bare ∧ (u.tileH i.tile).copies = setAt (s.tileH i.tile).copies i.copy (u.copyOf i) ∧
        ((u.tileH i.tile).jrn = (s.tileH i.tile).jrn ++ [⟨0, ((k.cap n).base + o) * 8 + 6, v + (if vp then 256 ^ 8 else 0), false, (s.tileH i.tile).bundles⟩]) ∧
        (∀ x, x ≠ i.tile → u.tileH x = s.tileH x) ∧
        (({ (u.tileH i.tile) with copies := [], bundles := 0, due := none, bound := none, lastDue := 0, port := [], jrn := [] } : TileH) = { (s.tileH i.tile) with copies := [], bundles := 0, due := none, bound := none, lastDue := 0, port := [], jrn := [] }) ∧
        RegsOnly [pgTile i.tile] s u ∧
        ({ u with regs := s.regs, tiles := s.tiles, hot := s.hot } = s) :)
    ∧ (∀ (i : Issue) (n : Nat) (k : KCopy) (o : Nat) (op : Bool) (s : State), (Instr.ldd i n).wf = true → s.calm = true → s.solo i (.ld .ldd n) = true → s.copyOf i = k → k.entry (k.top - 1) = (o, op) → o < 2 ^ 32 → op = false → (k.cap n).usable = true → (k.cap n).perm 0 = true → (k.cap n).covers ((k.cap n).base + o) 8 = true → ((k.cap n).base + o) % 8 = 0 → inOwn ((k.cap n).base + o) 1 = false → ((List.range 8).all fun j => tileMapped (((k.cap n).base + o) + j)) = true → pageAllowed (k.cap n) ((k.cap n).base + o) false = true → stallsAt s i.tile ((k.cap n).base + o) = false → (s.tileH i.tile).ocb = [] →
      Completes (.ldd i n) s fun u => 
        Took i s u (({ k.after (k.depth + 1) [] ((k.pc + 2 * (i.lits.length + 1)) % 2 ^ 40) with ext := [⟨k.top - 1, .ldd, ((k.cap n).base + o), 0, none, 0⟩] } : KCopy)) :)
    ∧ (∀ (i : Issue) (n : Nat) (g : Cap) (k : KCopy) (o : Nat) (op : Bool) (s : State), (Instr.ldd i n).wf = true → s.calm = true → s.solo i (.ld .ldd n) = true → s.copyOf i = k → k.entry (k.top - 1) = (o, op) → o < 2 ^ 32 → (s.kx i.tile i.copy).canEnter 3 g = true → op = false → ((k.cap n).usable = false ∨ (k.cap n).perm 0 = false) →
      Completes (.ldd i n) s fun u => 
        ((u.tileH i.tile).copies.getD i.copy {}).pc = g.base ∧
        ((u.tileH i.tile).copies.getD i.copy {}).cap 0 = g ∧
        ((u.tileH i.tile).copies.getD i.copy {}).status = k.status ||| 1 ∧
        ((u.tileH i.tile).copies.getD i.copy {}).base = k.top % 2 ^ 17 ∧
        ((u.tileH i.tile).copies.getD i.copy {}).depth = 0 ∧
        ((u.tileH i.tile).copies.getD i.copy {}).rsp = k.rsp - 48 ∧
        (((u.tileH i.tile).copies.getD i.copy {}).preds, ((u.tileH i.tile).copies.getD i.copy {}).lc, ((u.tileH i.tile).copies.getD i.copy {}).rc, ((u.tileH i.tile).copies.getD i.copy {}).file) = (k.preds, k.lc, k.rc, k.file) ∧
        ((((u.tileH i.tile).copies.getD i.copy {}).rsCache.find? fun q => q.addr == k.rsp - 48).map (fun q => bits q.lo 39 0) = some (k.pc % 2 ^ 40)) ∧
        ((((u.tileH i.tile).copies.getD i.copy {}).rsCache.find? fun q => q.addr == k.rsp - 32).map (fun q => (bits q.lo 13 0, bits q.lo 45 38, bits q.lo 51 46, bit q.lo 61)) = some (bits k.status 13 0, k.depth % 256, 3, false) ∧ (((u.tileH i.tile).copies.getD i.copy {}).rsCache.find? fun q => q.addr == k.rsp - 48).map (fun q => bits q.lo 63 60) = some (n % 16)) ∧
        (∀ x, x ≠ i.tile → u.tileH x = s.tileH x) :)
    ∧ (∀ (i : Issue) (n : Nat) (g : Cap) (k : KCopy) (o : Nat) (op : Bool) (s : State), (Instr.ldd i n).wf = true → s.calm = true → s.solo i (.ld .ldd n) = true → s.copyOf i = k → k.entry (k.top - 1) = (o, op) → o < 2 ^ 32 → (s.kx i.tile i.copy).canEnter 4 g = true → op = false → (k.cap n).usable = true → (k.cap n).perm 0 = true → (k.cap n).covers ((k.cap n).base + o) 8 = false → inPages ((k.cap n).base + o) = false →
      Completes (.ldd i n) s fun u => 
        ((u.tileH i.tile).copies.getD i.copy {}).pc = g.base ∧
        ((u.tileH i.tile).copies.getD i.copy {}).cap 0 = g ∧
        ((u.tileH i.tile).copies.getD i.copy {}).status = k.status ||| 1 ∧
        ((u.tileH i.tile).copies.getD i.copy {}).base = k.top % 2 ^ 17 ∧
        ((u.tileH i.tile).copies.getD i.copy {}).depth = 0 ∧
        ((u.tileH i.tile).copies.getD i.copy {}).rsp = k.rsp - 48 ∧
        (((u.tileH i.tile).copies.getD i.copy {}).preds, ((u.tileH i.tile).copies.getD i.copy {}).lc, ((u.tileH i.tile).copies.getD i.copy {}).rc, ((u.tileH i.tile).copies.getD i.copy {}).file) = (k.preds, k.lc, k.rc, k.file) ∧
        ((((u.tileH i.tile).copies.getD i.copy {}).rsCache.find? fun q => q.addr == k.rsp - 48).map (fun q => bits q.lo 39 0) = some (k.pc % 2 ^ 40)) ∧
        ((((u.tileH i.tile).copies.getD i.copy {}).rsCache.find? fun q => q.addr == k.rsp - 32).map (fun q => (bits q.lo 13 0, bits q.lo 45 38, bits q.lo 51 46, bit q.lo 61)) = some (bits k.status 13 0, k.depth % 256, 4, false) ∧ (((u.tileH i.tile).copies.getD i.copy {}).rsCache.find? fun q => q.addr == k.rsp - 48).map (fun q => bits q.lo 63 60) = some (n % 16)) ∧
        (∀ x, x ≠ i.tile → u.tileH x = s.tileH x) :)
    ∧ (∀ (i : Issue) (n : Nat) (g : Cap) (k : KCopy) (o : Nat) (op : Bool) (s : State), (Instr.ldd i n).wf = true → s.calm = true → s.solo i (.ld .ldd n) = true → s.copyOf i = k → k.entry (k.top - 1) = (o, op) → o < 2 ^ 32 → (s.kx i.tile i.copy).canEnter 6 g = true → op = false → (k.cap n).usable = true → (k.cap n).perm 0 = true → (k.cap n).covers ((k.cap n).base + o) 8 = true → ((k.cap n).base + o) % 8 ≠ 0 → inOwn ((k.cap n).base + o) 8 = true → (s.kx i.tile i.copy).pairBad ((k.cap n).base + o) 8 false = none →
      Completes (.ldd i n) s fun u => 
        ((u.tileH i.tile).copies.getD i.copy {}).pc = g.base ∧
        ((u.tileH i.tile).copies.getD i.copy {}).cap 0 = g ∧
        ((u.tileH i.tile).copies.getD i.copy {}).status = k.status ||| 1 ∧
        ((u.tileH i.tile).copies.getD i.copy {}).base = k.top % 2 ^ 17 ∧
        ((u.tileH i.tile).copies.getD i.copy {}).depth = 0 ∧
        ((u.tileH i.tile).copies.getD i.copy {}).rsp = k.rsp - 48 ∧
        (((u.tileH i.tile).copies.getD i.copy {}).preds, ((u.tileH i.tile).copies.getD i.copy {}).lc, ((u.tileH i.tile).copies.getD i.copy {}).rc, ((u.tileH i.tile).copies.getD i.copy {}).file) = (k.preds, k.lc, k.rc, k.file) ∧
        ((((u.tileH i.tile).copies.getD i.copy {}).rsCache.find? fun q => q.addr == k.rsp - 48).map (fun q => bits q.lo 39 0) = some (k.pc % 2 ^ 40)) ∧
        ((((u.tileH i.tile).copies.getD i.copy {}).rsCache.find? fun q => q.addr == k.rsp - 32).map (fun q => (bits q.lo 13 0, bits q.lo 45 38, bits q.lo 51 46, bit q.lo 61)) = some (bits k.status 13 0, k.depth % 256, 6, false) ∧ (((u.tileH i.tile).copies.getD i.copy {}).rsCache.find? fun q => q.addr == k.rsp - 48).map (fun q => bits q.lo 63 60) = some (n % 16)) ∧
        (∀ x, x ≠ i.tile → u.tileH x = s.tileH x) :)
    ∧ (∀ (i : Issue) (m n v : Nat) (k : KCopy) (o : Nat) (op : Bool) (s : State), (Instr.ldt i m n).wf = true → s.calm = true → s.solo i (.ldt m n) = true → s.copyOf i = k → k.entry (k.top - 1) = (o, op) → o < 2 ^ 32 → op = false → (k.cap n).usable = true → (k.cap n).perm 0 = true → (k.cap n).perm 3 = true → (k.cap n).covers ((k.cap n).base + o) 16 = true → ((k.cap n).base + o) % 16 = 0 → inOwn ((k.cap n).base + o) 16 = true → (s.kx i.tile i.copy).pairBad ((k.cap n).base + o) 16 false = none → (s.kx i.tile i.copy).readsFree ((k.cap n).base + o) 16 = false → (((s.tileH i.tile).copies.zipIdx.all fun q => q.2 == i.copy || q.1.sb.isEmpty) = true) → (k.sb.all fun e => !(decide (e.addr ≤ ((k.cap n).base + o)) && decide (((k.cap n).base + o) + 16 ≤ e.addr + e.n))) = true → s.rdMem (physOf i.tile ((k.cap n).base + o)) 16 = ((v, false), s) →
      Completes (.ldt i m n) s fun u => 
        Took i s u ((k.after (k.depth - 1) [] ((k.pc + 2 * (i.lits.length + 1)) % 2 ^ 40)).setCap m ⟨v, s.tag (physOf i.tile ((k.cap n).base + o))⟩) :)
    ∧ (∀ (i : Issue) (m n v : Nat) (k : KCopy) (o : Nat) (op : Bool) (s : State), (Instr.ldt i m n).wf = true → s.calm = true → s.solo i (.ldt m n) = true → s.copyOf i = k → k.entry (k.top - 1) = (o, op) → o < 2 ^ 32 → op = false → (k.cap n).usable = true → (k.cap n).perm 0 = true → (k.cap n).perm 3 = true → (k.cap n).covers ((k.cap n).base + o) 16 = true → ((k.cap n).base + o) % 16 = 0 → inOwn ((k.cap n).base + o) 16 = true → (s.kx i.tile i.copy).pairBad ((k.cap n).base + o) 16 false = none → (s.kx i.tile i.copy).readsFree ((k.cap n).base + o) 16 = true → (((s.tileH i.tile).copies.zipIdx.all fun q => q.2 == i.copy || q.1.sb.isEmpty) = true) → (k.sb.all fun e => !(decide (e.addr ≤ ((k.cap n).base + o)) && decide (((k.cap n).base + o) + 16 ≤ e.addr + e.n))) = true → s.rdMem (physOf i.tile ((k.cap n).base + o)) 16 = ((v, false), s) →
      Completes (.ldt i m n) s fun u => 
        (u.copyOf i).bare = ((k.after (k.depth - 1) [] ((k.pc + 2 * (i.lits.length + 1)) % 2 ^ 40)).setCap m ⟨v, s.tag (physOf i.tile ((k.cap n).base + o))⟩).bare ∧ (u.tileH i.tile).copies = setAt (s.tileH i.tile).copies i.copy (u.copyOf i) ∧
        ((u.tileH i.tile).jrn = (s.tileH i.tile).jrn ++ [⟨0, ((k.cap n).base + o) * 8 + 6, v + (if s.tag (physOf i.tile ((k.cap n).base + o)) then 2 ^ 128 else 0), false, (s.tileH i.tile).bundles⟩]) ∧
        (∀ x, x ≠ i.tile → u.tileH x = s.tileH x) ∧
        (({ (u.tileH i.tile) with copies := [], bundles := 0, due := none, bound := none, lastDue := 0, port := [], jrn := [] } : TileH) = { (s.tileH i.tile) with copies := [], bundles := 0, due := none, bound := none, lastDue := 0, port := [], jrn := [] }) ∧
        RegsOnly [pgTile i.tile] s u ∧
        ({ u with regs := s.regs, tiles := s.tiles, hot := s.hot } = s) :)
    ∧ (∀ (i : Issue) (m n v : Nat) (k : KCopy) (o : Nat) (op : Bool) (s : State), (Instr.ldt i m n).wf = true → s.calm = true → s.solo i (.ldt m n) = true → s.copyOf i = k → k.entry (k.top - 1) = (o, op) → o < 2 ^ 32 → op = false → (k.cap n).usable = true → (k.cap n).perm 0 = true → (k.cap n).perm 3 = true → (k.cap n).covers ((k.cap n).base + o) 16 = true → ((k.cap n).base + o) % 16 = 0 → ((k.cap n).base + o) + 16 ≤ dramSize → 2 ≤ (s.tileH i.tile).mode → s.rdMem ((k.cap n).base + o) 16 = ((v, false), s) →
      Completes (.ldt i m n) s fun u => 
        Took i s u ((k.after (k.depth - 1) [] ((k.pc + 2 * (i.lits.length + 1)) % 2 ^ 40)).setCap m ⟨v, false⟩) :)
    ∧ (∀ (i : Issue) (m n v : Nat) (g : Cap) (k : KCopy) (o : Nat) (op : Bool) (s : State), (Instr.ldt i m n).wf = true → s.calm = true → s.solo i (.ldt m n) = true → s.copyOf i = k → k.entry (k.top - 1) = (o, op) → o < 2 ^ 32 → (s.kx i.tile i.copy).canEnter 7 g = true → op = false → (k.cap n).usable = true → (k.cap n).perm 0 = true → (k.cap n).perm 3 = true → (k.cap n).covers ((k.cap n).base + o) 16 = true → ((k.cap n).base + o) % 16 = 0 → inOwn ((k.cap n).base + o) 16 = true → (s.kx i.tile i.copy).pairBad ((k.cap n).base + o) 16 false = none → (s.kx i.tile i.copy).readsFree ((k.cap n).base + o) 16 = false → (((s.tileH i.tile).copies.zipIdx.all fun q => q.2 == i.copy || q.1.sb.isEmpty) = true) → (k.sb.all fun e => !(decide (e.addr ≤ ((k.cap n).base + o)) && decide (((k.cap n).base + o) + 16 ≤ e.addr + e.n))) = true → s.rdMem (physOf i.tile ((k.cap n).base + o)) 16 = ((v, true), s) →
      Completes (.ldt i m n) s fun u => 
        ((u.tileH i.tile).copies.getD i.copy {}).pc = g.base ∧
        ((u.tileH i.tile).copies.getD i.copy {}).cap 0 = g ∧
        ((u.tileH i.tile).copies.getD i.copy {}).status = k.status ||| 1 ∧
        ((u.tileH i.tile).copies.getD i.copy {}).base = k.top % 2 ^ 17 ∧
        ((u.tileH i.tile).copies.getD i.copy {}).depth = 0 ∧
        ((u.tileH i.tile).copies.getD i.copy {}).rsp = k.rsp - 48 ∧
        (((u.tileH i.tile).copies.getD i.copy {}).preds, ((u.tileH i.tile).copies.getD i.copy {}).lc, ((u.tileH i.tile).copies.getD i.copy {}).rc, ((u.tileH i.tile).copies.getD i.copy {}).file) = (k.preds, k.lc, k.rc, k.file) ∧
        ((((u.tileH i.tile).copies.getD i.copy {}).rsCache.find? fun q => q.addr == k.rsp - 48).map (fun q => bits q.lo 39 0) = some (k.pc % 2 ^ 40)) ∧
        ((((u.tileH i.tile).copies.getD i.copy {}).rsCache.find? fun q => q.addr == k.rsp - 32).map (fun q => (bits q.lo 13 0, bits q.lo 45 38, bits q.lo 51 46, bit q.lo 61)) = some (bits k.status 13 0, k.depth % 256, 7, false) ∧ (((u.tileH i.tile).copies.getD i.copy {}).rsCache.find? fun q => q.addr == k.rsp - 48).map (fun q => bits q.lo 63 60) = some (n % 16)) ∧
        (∀ x, x ≠ i.tile → u.tileH x = s.tileH x) :)
    ∧ (∀ (i : Issue) (m n : Nat) (g : Cap) (k : KCopy) (o : Nat) (op : Bool) (s : State), (Instr.ldt i m n).wf = true → s.calm = true → s.solo i (.ldt m n) = true → s.copyOf i = k → k.entry (k.top - 1) = (o, op) → o < 2 ^ 32 → (s.kx i.tile i.copy).canEnter 3 g = true → op = false → ((k.cap n).usable = false ∨ (k.cap n).perm 0 = false) →
      Completes (.ldt i m n) s fun u => 
        ((u.tileH i.tile).copies.getD i.copy {}).pc = g.base ∧
        ((u.tileH i.tile).copies.getD i.copy {}).cap 0 = g ∧
        ((u.tileH i.tile).copies.getD i.copy {}).status = k.status ||| 1 ∧
        ((u.tileH i.tile).copies.getD i.copy {}).base = k.top % 2 ^ 17 ∧
        ((u.tileH i.tile).copies.getD i.copy {}).depth = 0 ∧
        ((u.tileH i.tile).copies.getD i.copy {}).rsp = k.rsp - 48 ∧
        (((u.tileH i.tile).copies.getD i.copy {}).preds, ((u.tileH i.tile).copies.getD i.copy {}).lc, ((u.tileH i.tile).copies.getD i.copy {}).rc, ((u.tileH i.tile).copies.getD i.copy {}).file) = (k.preds, k.lc, k.rc, k.file) ∧
        ((((u.tileH i.tile).copies.getD i.copy {}).rsCache.find? fun q => q.addr == k.rsp - 48).map (fun q => bits q.lo 39 0) = some (k.pc % 2 ^ 40)) ∧
        ((((u.tileH i.tile).copies.getD i.copy {}).rsCache.find? fun q => q.addr == k.rsp - 32).map (fun q => (bits q.lo 13 0, bits q.lo 45 38, bits q.lo 51 46, bit q.lo 61)) = some (bits k.status 13 0, k.depth % 256, 3, false) ∧ (((u.tileH i.tile).copies.getD i.copy {}).rsCache.find? fun q => q.addr == k.rsp - 48).map (fun q => bits q.lo 63 60) = some (n % 16)) ∧
        (∀ x, x ≠ i.tile → u.tileH x = s.tileH x) :)
    ∧ (∀ (i : Issue) (m n : Nat) (g : Cap) (k : KCopy) (o : Nat) (op : Bool) (s : State), (Instr.ldt i m n).wf = true → s.calm = true → s.solo i (.ldt m n) = true → s.copyOf i = k → k.entry (k.top - 1) = (o, op) → o < 2 ^ 32 → (s.kx i.tile i.copy).canEnter 4 g = true → op = false → (k.cap n).usable = true → (k.cap n).perm 0 = true → (k.cap n).perm 3 = true → (k.cap n).covers ((k.cap n).base + o) 16 = false → inPages ((k.cap n).base + o) = false →
      Completes (.ldt i m n) s fun u => 
        ((u.tileH i.tile).copies.getD i.copy {}).pc = g.base ∧
        ((u.tileH i.tile).copies.getD i.copy {}).cap 0 = g ∧
        ((u.tileH i.tile).copies.getD i.copy {}).status = k.status ||| 1 ∧
        ((u.tileH i.tile).copies.getD i.copy {}).base = k.top % 2 ^ 17 ∧
        ((u.tileH i.tile).copies.getD i.copy {}).depth = 0 ∧
        ((u.tileH i.tile).copies.getD i.copy {}).rsp = k.rsp - 48 ∧
        (((u.tileH i.tile).copies.getD i.copy {}).preds, ((u.tileH i.tile).copies.getD i.copy {}).lc, ((u.tileH i.tile).copies.getD i.copy {}).rc, ((u.tileH i.tile).copies.getD i.copy {}).file) = (k.preds, k.lc, k.rc, k.file) ∧
        ((((u.tileH i.tile).copies.getD i.copy {}).rsCache.find? fun q => q.addr == k.rsp - 48).map (fun q => bits q.lo 39 0) = some (k.pc % 2 ^ 40)) ∧
        ((((u.tileH i.tile).copies.getD i.copy {}).rsCache.find? fun q => q.addr == k.rsp - 32).map (fun q => (bits q.lo 13 0, bits q.lo 45 38, bits q.lo 51 46, bit q.lo 61)) = some (bits k.status 13 0, k.depth % 256, 4, false) ∧ (((u.tileH i.tile).copies.getD i.copy {}).rsCache.find? fun q => q.addr == k.rsp - 48).map (fun q => bits q.lo 63 60) = some (n % 16)) ∧
        (∀ x, x ≠ i.tile → u.tileH x = s.tileH x) :)
    ∧ (∀ (i : Issue) (m n : Nat) (g : Cap) (k : KCopy) (o : Nat) (op : Bool) (s : State), (Instr.ldt i m n).wf = true → s.calm = true → s.solo i (.ldt m n) = true → s.copyOf i = k → k.entry (k.top - 1) = (o, op) → o < 2 ^ 32 → (s.kx i.tile i.copy).canEnter 6 g = true → op = false → (k.cap n).usable = true → (k.cap n).perm 0 = true → (k.cap n).perm 3 = true → (k.cap n).covers ((k.cap n).base + o) 16 = true → ((k.cap n).base + o) % 16 ≠ 0 → inOwn ((k.cap n).base + o) 16 = true → (s.kx i.tile i.copy).pairBad ((k.cap n).base + o) 16 false = none →
      Completes (.ldt i m n) s fun u => 
        ((u.tileH i.tile).copies.getD i.copy {}).pc = g.base ∧
        ((u.tileH i.tile).copies.getD i.copy {}).cap 0 = g ∧
        ((u.tileH i.tile).copies.getD i.copy {}).status = k.status ||| 1 ∧
        ((u.tileH i.tile).copies.getD i.copy {}).base = k.top % 2 ^ 17 ∧
        ((u.tileH i.tile).copies.getD i.copy {}).depth = 0 ∧
        ((u.tileH i.tile).copies.getD i.copy {}).rsp = k.rsp - 48 ∧
        (((u.tileH i.tile).copies.getD i.copy {}).preds, ((u.tileH i.tile).copies.getD i.copy {}).lc, ((u.tileH i.tile).copies.getD i.copy {}).rc, ((u.tileH i.tile).copies.getD i.copy {}).file) = (k.preds, k.lc, k.rc, k.file) ∧
        ((((u.tileH i.tile).copies.getD i.copy {}).rsCache.find? fun q => q.addr == k.rsp - 48).map (fun q => bits q.lo 39 0) = some (k.pc % 2 ^ 40)) ∧
        ((((u.tileH i.tile).copies.getD i.copy {}).rsCache.find? fun q => q.addr == k.rsp - 32).map (fun q => (bits q.lo 13 0, bits q.lo 45 38, bits q.lo 51 46, bit q.lo 61)) = some (bits k.status 13 0, k.depth % 256, 6, false) ∧ (((u.tileH i.tile).copies.getD i.copy {}).rsCache.find? fun q => q.addr == k.rsp - 48).map (fun q => bits q.lo 63 60) = some (n % 16)) ∧
        (∀ x, x ≠ i.tile → u.tileH x = s.tileH x) :)

/-- A store through a capability that is tagged, unknotted, writable and covers the aligned access in own local memory writes the bytes of its value, the least first, clears the tag of the granule and changes no other byte; a checked core logs what stood there; STT writes the 128 bits and the tag of its capability. From a checked core a store to anywhere else that a tile may write waits in the output commit buffer; from another it reaches DRAM at once. An unusable capability, one without WRITE, an access past its capability and a misaligned one enter the exception of that name at the bundle and store nothing but its frame. -/
def Obligations.KolotteStores : Prop :=
    (∀ (i : Issue) (n : Nat) (k : KCopy) (o : Nat) (op : Bool) (v : Nat) (vp : Bool) (s : State), (Instr.stb i n).wf = true → s.calm = true → s.solo i (.st .stb n) = true → s.copyOf i = k → k.entry (k.top - 2) = (o, op) → o < 2 ^ 32 → k.entry (k.top - 1) = (v, vp) → v < 2 ^ 32 → op = false → (k.cap n).usable = true → (k.cap n).perm 1 = true → (k.cap n).covers ((k.cap n).base + o) 1 = true → ((k.cap n).base + o) % 1 = 0 → inOwn ((k.cap n).base + o) 1 = true → (s.kx i.tile i.copy).pairBad ((k.cap n).base + o) 1 true = none → s.usable (physOf i.tile ((k.cap n).base + o)) 1 = true → bit (s.flipRegs (pgEccT i.tile)).1 31 = false →
      Completes (.stb i n) s fun u => 
        (u.copyOf i).bare = (k.after (k.depth - 2) [] ((k.pc + 2 * (i.lits.length + 1)) % 2 ^ 40)).bare ∧ (u.tileH i.tile).copies = setAt (s.tileH i.tile).copies i.copy (u.copyOf i) ∧
        ((List.range 1).map (fun j => u.byte ((physOf i.tile ((k.cap n).base + o)) + j)) = (List.range 1).map (fun j => BitVec.ofNat 8 (v >>> (8 * j)))) ∧
        u.tag (physOf i.tile ((k.cap n).base + o)) = false ∧
        (∀ x, ¬((physOf i.tile ((k.cap n).base + o)) ≤ x ∧ x < (physOf i.tile ((k.cap n).base + o)) + 1) → u.byte x = s.byte x) ∧
        ((u.tileH i.tile).undo.length = (s.tileH i.tile).undo.length + (if ((s.tileH i.tile).mode ≤ 1 ∧ i.copy = 0) then 1 else 0)) ∧
        (∀ x, x ≠ i.tile → u.tileH x = s.tileH x) ∧
        (({ (u.tileH i.tile) with copies := [], bundles := 0, due := none, bound := none, lastDue := 0, port := [], undo := [] } : TileH) = { (s.tileH i.tile) with copies := [], bundles := 0, due := none, bound := none, lastDue := 0, port := [], undo := [] }) ∧
        RegsOnly [pgTile i.tile, pgEccT i.tile] s u ∧
        ({ u with regs := s.regs, tiles := s.tiles, hot := s.hot, mem := s.mem, chk := s.chk, pois := s.pois, tags := s.tags } = s) :)
    ∧ (∀ (i : Issue) (n : Nat) (k : KCopy) (o : Nat) (op : Bool) (v : Nat) (vp : Bool) (s : State), (Instr.stb i n).wf = true → s.calm = true → s.solo i (.st .stb n) = true → s.copyOf i = k → k.entry (k.top - 2) = (o, op) → o < 2 ^ 32 → k.entry (k.top - 1) = (v, vp) → v < 2 ^ 32 → op = false → (k.cap n).usable = true → (k.cap n).perm 1 = true → (k.cap n).covers ((k.cap n).base + o) 1 = true → ((k.cap n).base + o) % 1 = 0 → inOwn ((k.cap n).base + o) 1 = false → ((List.range 1).all fun j => tileMapped (((k.cap n).base + o) + j)) = true → pageAllowed (k.cap n) ((k.cap n).base + o) true = true → inPages ((k.cap n).base + o) = false → ((s.tileH i.tile).mode ≤ 1 ∧ i.copy = 0) →
      Completes (.stb i n) s fun u => 
        (u.copyOf i).bare = (k.after (k.depth - 2) [] ((k.pc + 2 * (i.lits.length + 1)) % 2 ^ 40)).bare ∧ (u.tileH i.tile).copies = setAt (s.tileH i.tile).copies i.copy (u.copyOf i) ∧
        ((u.tileH i.tile).ocb = (s.tileH i.tile).ocb ++ [⟨0, 0, ((k.cap n).base + o), 1, v, (if vp then 1 else 0), false, (s.tileH i.tile).mode⟩]) ∧
        (∀ x, x ≠ i.tile → u.tileH x = s.tileH x) ∧
        (({ (u.tileH i.tile) with copies := [], bundles := 0, due := none, bound := none, lastDue := 0, port := [], ocb := [] } : TileH) = { (s.tileH i.tile) with copies := [], bundles := 0, due := none, bound := none, lastDue := 0, port := [], ocb := [] }) ∧
        RegsOnly [pgTile i.tile] s u ∧
        ({ u with regs := s.regs, tiles := s.tiles, hot := s.hot } = s) :)
    ∧ (∀ (i : Issue) (n : Nat) (k : KCopy) (o : Nat) (op : Bool) (v : Nat) (vp : Bool) (s : State), (Instr.stb i n).wf = true → s.calm = true → s.solo i (.st .stb n) = true → s.copyOf i = k → k.entry (k.top - 2) = (o, op) → o < 2 ^ 32 → k.entry (k.top - 1) = (v, vp) → v < 2 ^ 32 → op = false → (k.cap n).usable = true → (k.cap n).perm 1 = true → (k.cap n).covers ((k.cap n).base + o) 1 = true → ((k.cap n).base + o) % 1 = 0 → ((k.cap n).base + o) + 1 ≤ dramSize → ¬((s.tileH i.tile).mode ≤ 1 ∧ i.copy = 0) → s.usable ((k.cap n).base + o) 1 = true →
      Completes (.stb i n) s fun u => 
        (u.copyOf i).bare = (k.after (k.depth - 2) [] ((k.pc + 2 * (i.lits.length + 1)) % 2 ^ 40)).bare ∧ (u.tileH i.tile).copies = setAt (s.tileH i.tile).copies i.copy (u.copyOf i) ∧
        ((List.range 1).map (fun j => u.byte (((k.cap n).base + o) + j)) = (List.range 1).map (fun j => BitVec.ofNat 8 (v >>> (8 * j)))) ∧
        (∀ x, ¬(((k.cap n).base + o) ≤ x ∧ x < ((k.cap n).base + o) + 1) → u.byte x = s.byte x) ∧
        (u.tileH i.tile).outQ = [] ∧
        (∀ x, x ≠ i.tile → u.tileH x = s.tileH x) :)
    ∧ (∀ (i : Issue) (n : Nat) (g : Cap) (k : KCopy) (o : Nat) (op : Bool) (v : Nat) (vp : Bool) (s : State), (Instr.stb i n).wf = true → s.calm = true → s.solo i (.st .stb n) = true → s.copyOf i = k → k.entry (k.top - 2) = (o, op) → o < 2 ^ 32 → k.entry (k.top - 1) = (v, vp) → v < 2 ^ 32 → (s.kx i.tile i.copy).canEnter 3 g = true → op = false → ((k.cap n).usable = false ∨ (k.cap n).perm 1 = false) →
      Completes (.stb i n) s fun u => 
        ((u.tileH i.tile).copies.getD i.copy {}).pc = g.base ∧
        ((u.tileH i.tile).copies.getD i.copy {}).cap 0 = g ∧
        ((u.tileH i.tile).copies.getD i.copy {}).status = k.status ||| 1 ∧
        ((u.tileH i.tile).copies.getD i.copy {}).base = k.top % 2 ^ 17 ∧
        ((u.tileH i.tile).copies.getD i.copy {}).depth = 0 ∧
        ((u.tileH i.tile).copies.getD i.copy {}).rsp = k.rsp - 48 ∧
        (((u.tileH i.tile).copies.getD i.copy {}).preds, ((u.tileH i.tile).copies.getD i.copy {}).lc, ((u.tileH i.tile).copies.getD i.copy {}).rc, ((u.tileH i.tile).copies.getD i.copy {}).file) = (k.preds, k.lc, k.rc, k.file) ∧
        ((((u.tileH i.tile).copies.getD i.copy {}).rsCache.find? fun q => q.addr == k.rsp - 48).map (fun q => bits q.lo 39 0) = some (k.pc % 2 ^ 40)) ∧
        ((((u.tileH i.tile).copies.getD i.copy {}).rsCache.find? fun q => q.addr == k.rsp - 32).map (fun q => (bits q.lo 13 0, bits q.lo 45 38, bits q.lo 51 46, bit q.lo 61)) = some (bits k.status 13 0, k.depth % 256, 3, false) ∧ (((u.tileH i.tile).copies.getD i.copy {}).rsCache.find? fun q => q.addr == k.rsp - 48).map (fun q => bits q.lo 63 60) = some (n % 16)) ∧
        (∀ x, x ≠ i.tile → u.tileH x = s.tileH x) :)
    ∧ (∀ (i : Issue) (n : Nat) (g : Cap) (k : KCopy) (o : Nat) (op : Bool) (v : Nat) (vp : Bool) (s : State), (Instr.stb i n).wf = true → s.calm = true → s.solo i (.st .stb n) = true → s.copyOf i = k → k.entry (k.top - 2) = (o, op) → o < 2 ^ 32 → k.entry (k.top - 1) = (v, vp) → v < 2 ^ 32 → (s.kx i.tile i.copy).canEnter 4 g = true → op = false → (k.cap n).usable = true → (k.cap n).perm 1 = true → (k.cap n).covers ((k.cap n).base + o) 1 = false → inPages ((k.cap n).base + o) = false →
      Completes (.stb i n) s fun u => 
        ((u.tileH i.tile).copies.getD i.copy {}).pc = g.base ∧
        ((u.tileH i.tile).copies.getD i.copy {}).cap 0 = g ∧
        ((u.tileH i.tile).copies.getD i.copy {}).status = k.status ||| 1 ∧
        ((u.tileH i.tile).copies.getD i.copy {}).base = k.top % 2 ^ 17 ∧
        ((u.tileH i.tile).copies.getD i.copy {}).depth = 0 ∧
        ((u.tileH i.tile).copies.getD i.copy {}).rsp = k.rsp - 48 ∧
        (((u.tileH i.tile).copies.getD i.copy {}).preds, ((u.tileH i.tile).copies.getD i.copy {}).lc, ((u.tileH i.tile).copies.getD i.copy {}).rc, ((u.tileH i.tile).copies.getD i.copy {}).file) = (k.preds, k.lc, k.rc, k.file) ∧
        ((((u.tileH i.tile).copies.getD i.copy {}).rsCache.find? fun q => q.addr == k.rsp - 48).map (fun q => bits q.lo 39 0) = some (k.pc % 2 ^ 40)) ∧
        ((((u.tileH i.tile).copies.getD i.copy {}).rsCache.find? fun q => q.addr == k.rsp - 32).map (fun q => (bits q.lo 13 0, bits q.lo 45 38, bits q.lo 51 46, bit q.lo 61)) = some (bits k.status 13 0, k.depth % 256, 4, false) ∧ (((u.tileH i.tile).copies.getD i.copy {}).rsCache.find? fun q => q.addr == k.rsp - 48).map (fun q => bits q.lo 63 60) = some (n % 16)) ∧
        (∀ x, x ≠ i.tile → u.tileH x = s.tileH x) :)
    ∧ (∀ (i : Issue) (n : Nat) (k : KCopy) (o : Nat) (op : Bool) (v : Nat) (vp : Bool) (s : State), (Instr.sth i n).wf = true → s.calm = true → s.solo i (.st .sth n) = true → s.copyOf i = k → k.entry (k.top - 2) = (o, op) → o < 2 ^ 32 → k.entry (k.top - 1) = (v, vp) → v < 2 ^ 32 → op = false → (k.cap n).usable = true → (k.cap n).perm 1 = true → (k.cap n).covers ((k.cap n).base + o) 2 = true → ((k.cap n).base + o) % 2 = 0 → inOwn ((k.cap n).base + o) 2 = true → (s.kx i.tile i.copy).pairBad ((k.cap n).base + o) 2 true = none → s.usable (physOf i.tile ((k.cap n).base + o)) 2 = true → bit (s.flipRegs (pgEccT i.tile)).1 31 = false →
      Completes (.sth i n) s fun u => 
        (u.copyOf i).bare = (k.after (k.depth - 2) [] ((k.pc + 2 * (i.lits.length + 1)) % 2 ^ 40)).bare ∧ (u.tileH i.tile).copies = setAt (s.tileH i.tile).copies i.copy (u.copyOf i) ∧
        ((List.range 2).map (fun j => u.byte ((physOf i.tile ((k.cap n).base + o)) + j)) = (List.range 2).map (fun j => BitVec.ofNat 8 (v >>> (8 * j)))) ∧
        u.tag (physOf i.tile ((k.cap n).base + o)) = false ∧
        (∀ x, ¬((physOf i.tile ((k.cap n).base + o)) ≤ x ∧ x < (physOf i.tile ((k.cap n).base + o)) + 2) → u.byte x = s.byte x) ∧
        ((u.tileH i.tile).undo.length = (s.tileH i.tile).undo.length + (if ((s.tileH i.tile).mode ≤ 1 ∧ i.copy = 0) then 1 else 0)) ∧
        (∀ x, x ≠ i.tile → u.tileH x = s.tileH x) ∧
        (({ (u.tileH i.tile) with copies := [], bundles := 0, due := none, bound := none, lastDue := 0, port := [], undo := [] } : TileH) = { (s.tileH i.tile) with copies := [], bundles := 0, due := none, bound := none, lastDue := 0, port := [], undo := [] }) ∧
        RegsOnly [pgTile i.tile, pgEccT i.tile] s u ∧
        ({ u with regs := s.regs, tiles := s.tiles, hot := s.hot, mem := s.mem, chk := s.chk, pois := s.pois, tags := s.tags } = s) :)
    ∧ (∀ (i : Issue) (n : Nat) (k : KCopy) (o : Nat) (op : Bool) (v : Nat) (vp : Bool) (s : State), (Instr.sth i n).wf = true → s.calm = true → s.solo i (.st .sth n) = true → s.copyOf i = k → k.entry (k.top - 2) = (o, op) → o < 2 ^ 32 → k.entry (k.top - 1) = (v, vp) → v < 2 ^ 32 → op = false → (k.cap n).usable = true → (k.cap n).perm 1 = true → (k.cap n).covers ((k.cap n).base + o) 2 = true → ((k.cap n).base + o) % 2 = 0 → inOwn ((k.cap n).base + o) 1 = false → ((List.range 2).all fun j => tileMapped (((k.cap n).base + o) + j)) = true → pageAllowed (k.cap n) ((k.cap n).base + o) true = true → inPages ((k.cap n).base + o) = false → ((s.tileH i.tile).mode ≤ 1 ∧ i.copy = 0) →
      Completes (.sth i n) s fun u => 
        (u.copyOf i).bare = (k.after (k.depth - 2) [] ((k.pc + 2 * (i.lits.length + 1)) % 2 ^ 40)).bare ∧ (u.tileH i.tile).copies = setAt (s.tileH i.tile).copies i.copy (u.copyOf i) ∧
        ((u.tileH i.tile).ocb = (s.tileH i.tile).ocb ++ [⟨0, 0, ((k.cap n).base + o), 2, v, (if vp then 1 else 0), false, (s.tileH i.tile).mode⟩]) ∧
        (∀ x, x ≠ i.tile → u.tileH x = s.tileH x) ∧
        (({ (u.tileH i.tile) with copies := [], bundles := 0, due := none, bound := none, lastDue := 0, port := [], ocb := [] } : TileH) = { (s.tileH i.tile) with copies := [], bundles := 0, due := none, bound := none, lastDue := 0, port := [], ocb := [] }) ∧
        RegsOnly [pgTile i.tile] s u ∧
        ({ u with regs := s.regs, tiles := s.tiles, hot := s.hot } = s) :)
    ∧ (∀ (i : Issue) (n : Nat) (k : KCopy) (o : Nat) (op : Bool) (v : Nat) (vp : Bool) (s : State), (Instr.sth i n).wf = true → s.calm = true → s.solo i (.st .sth n) = true → s.copyOf i = k → k.entry (k.top - 2) = (o, op) → o < 2 ^ 32 → k.entry (k.top - 1) = (v, vp) → v < 2 ^ 32 → op = false → (k.cap n).usable = true → (k.cap n).perm 1 = true → (k.cap n).covers ((k.cap n).base + o) 2 = true → ((k.cap n).base + o) % 2 = 0 → ((k.cap n).base + o) + 2 ≤ dramSize → ¬((s.tileH i.tile).mode ≤ 1 ∧ i.copy = 0) → s.usable ((k.cap n).base + o) 2 = true →
      Completes (.sth i n) s fun u => 
        (u.copyOf i).bare = (k.after (k.depth - 2) [] ((k.pc + 2 * (i.lits.length + 1)) % 2 ^ 40)).bare ∧ (u.tileH i.tile).copies = setAt (s.tileH i.tile).copies i.copy (u.copyOf i) ∧
        ((List.range 2).map (fun j => u.byte (((k.cap n).base + o) + j)) = (List.range 2).map (fun j => BitVec.ofNat 8 (v >>> (8 * j)))) ∧
        (∀ x, ¬(((k.cap n).base + o) ≤ x ∧ x < ((k.cap n).base + o) + 2) → u.byte x = s.byte x) ∧
        (u.tileH i.tile).outQ = [] ∧
        (∀ x, x ≠ i.tile → u.tileH x = s.tileH x) :)
    ∧ (∀ (i : Issue) (n : Nat) (g : Cap) (k : KCopy) (o : Nat) (op : Bool) (v : Nat) (vp : Bool) (s : State), (Instr.sth i n).wf = true → s.calm = true → s.solo i (.st .sth n) = true → s.copyOf i = k → k.entry (k.top - 2) = (o, op) → o < 2 ^ 32 → k.entry (k.top - 1) = (v, vp) → v < 2 ^ 32 → (s.kx i.tile i.copy).canEnter 3 g = true → op = false → ((k.cap n).usable = false ∨ (k.cap n).perm 1 = false) →
      Completes (.sth i n) s fun u => 
        ((u.tileH i.tile).copies.getD i.copy {}).pc = g.base ∧
        ((u.tileH i.tile).copies.getD i.copy {}).cap 0 = g ∧
        ((u.tileH i.tile).copies.getD i.copy {}).status = k.status ||| 1 ∧
        ((u.tileH i.tile).copies.getD i.copy {}).base = k.top % 2 ^ 17 ∧
        ((u.tileH i.tile).copies.getD i.copy {}).depth = 0 ∧
        ((u.tileH i.tile).copies.getD i.copy {}).rsp = k.rsp - 48 ∧
        (((u.tileH i.tile).copies.getD i.copy {}).preds, ((u.tileH i.tile).copies.getD i.copy {}).lc, ((u.tileH i.tile).copies.getD i.copy {}).rc, ((u.tileH i.tile).copies.getD i.copy {}).file) = (k.preds, k.lc, k.rc, k.file) ∧
        ((((u.tileH i.tile).copies.getD i.copy {}).rsCache.find? fun q => q.addr == k.rsp - 48).map (fun q => bits q.lo 39 0) = some (k.pc % 2 ^ 40)) ∧
        ((((u.tileH i.tile).copies.getD i.copy {}).rsCache.find? fun q => q.addr == k.rsp - 32).map (fun q => (bits q.lo 13 0, bits q.lo 45 38, bits q.lo 51 46, bit q.lo 61)) = some (bits k.status 13 0, k.depth % 256, 3, false) ∧ (((u.tileH i.tile).copies.getD i.copy {}).rsCache.find? fun q => q.addr == k.rsp - 48).map (fun q => bits q.lo 63 60) = some (n % 16)) ∧
        (∀ x, x ≠ i.tile → u.tileH x = s.tileH x) :)
    ∧ (∀ (i : Issue) (n : Nat) (g : Cap) (k : KCopy) (o : Nat) (op : Bool) (v : Nat) (vp : Bool) (s : State), (Instr.sth i n).wf = true → s.calm = true → s.solo i (.st .sth n) = true → s.copyOf i = k → k.entry (k.top - 2) = (o, op) → o < 2 ^ 32 → k.entry (k.top - 1) = (v, vp) → v < 2 ^ 32 → (s.kx i.tile i.copy).canEnter 4 g = true → op = false → (k.cap n).usable = true → (k.cap n).perm 1 = true → (k.cap n).covers ((k.cap n).base + o) 2 = false → inPages ((k.cap n).base + o) = false →
      Completes (.sth i n) s fun u => 
        ((u.tileH i.tile).copies.getD i.copy {}).pc = g.base ∧
        ((u.tileH i.tile).copies.getD i.copy {}).cap 0 = g ∧
        ((u.tileH i.tile).copies.getD i.copy {}).status = k.status ||| 1 ∧
        ((u.tileH i.tile).copies.getD i.copy {}).base = k.top % 2 ^ 17 ∧
        ((u.tileH i.tile).copies.getD i.copy {}).depth = 0 ∧
        ((u.tileH i.tile).copies.getD i.copy {}).rsp = k.rsp - 48 ∧
        (((u.tileH i.tile).copies.getD i.copy {}).preds, ((u.tileH i.tile).copies.getD i.copy {}).lc, ((u.tileH i.tile).copies.getD i.copy {}).rc, ((u.tileH i.tile).copies.getD i.copy {}).file) = (k.preds, k.lc, k.rc, k.file) ∧
        ((((u.tileH i.tile).copies.getD i.copy {}).rsCache.find? fun q => q.addr == k.rsp - 48).map (fun q => bits q.lo 39 0) = some (k.pc % 2 ^ 40)) ∧
        ((((u.tileH i.tile).copies.getD i.copy {}).rsCache.find? fun q => q.addr == k.rsp - 32).map (fun q => (bits q.lo 13 0, bits q.lo 45 38, bits q.lo 51 46, bit q.lo 61)) = some (bits k.status 13 0, k.depth % 256, 4, false) ∧ (((u.tileH i.tile).copies.getD i.copy {}).rsCache.find? fun q => q.addr == k.rsp - 48).map (fun q => bits q.lo 63 60) = some (n % 16)) ∧
        (∀ x, x ≠ i.tile → u.tileH x = s.tileH x) :)
    ∧ (∀ (i : Issue) (n : Nat) (g : Cap) (k : KCopy) (o : Nat) (op : Bool) (v : Nat) (vp : Bool) (s : State), (Instr.sth i n).wf = true → s.calm = true → s.solo i (.st .sth n) = true → s.copyOf i = k → k.entry (k.top - 2) = (o, op) → o < 2 ^ 32 → k.entry (k.top - 1) = (v, vp) → v < 2 ^ 32 → (s.kx i.tile i.copy).canEnter 6 g = true → op = false → (k.cap n).usable = true → (k.cap n).perm 1 = true → (k.cap n).covers ((k.cap n).base + o) 2 = true → ((k.cap n).base + o) % 2 ≠ 0 → inOwn ((k.cap n).base + o) 2 = true → (s.kx i.tile i.copy).pairBad ((k.cap n).base + o) 2 true = none →
      Completes (.sth i n) s fun u => 
        ((u.tileH i.tile).copies.getD i.copy {}).pc = g.base ∧
        ((u.tileH i.tile).copies.getD i.copy {}).cap 0 = g ∧
        ((u.tileH i.tile).copies.getD i.copy {}).status = k.status ||| 1 ∧
        ((u.tileH i.tile).copies.getD i.copy {}).base = k.top % 2 ^ 17 ∧
        ((u.tileH i.tile).copies.getD i.copy {}).depth = 0 ∧
        ((u.tileH i.tile).copies.getD i.copy {}).rsp = k.rsp - 48 ∧
        (((u.tileH i.tile).copies.getD i.copy {}).preds, ((u.tileH i.tile).copies.getD i.copy {}).lc, ((u.tileH i.tile).copies.getD i.copy {}).rc, ((u.tileH i.tile).copies.getD i.copy {}).file) = (k.preds, k.lc, k.rc, k.file) ∧
        ((((u.tileH i.tile).copies.getD i.copy {}).rsCache.find? fun q => q.addr == k.rsp - 48).map (fun q => bits q.lo 39 0) = some (k.pc % 2 ^ 40)) ∧
        ((((u.tileH i.tile).copies.getD i.copy {}).rsCache.find? fun q => q.addr == k.rsp - 32).map (fun q => (bits q.lo 13 0, bits q.lo 45 38, bits q.lo 51 46, bit q.lo 61)) = some (bits k.status 13 0, k.depth % 256, 6, false) ∧ (((u.tileH i.tile).copies.getD i.copy {}).rsCache.find? fun q => q.addr == k.rsp - 48).map (fun q => bits q.lo 63 60) = some (n % 16)) ∧
        (∀ x, x ≠ i.tile → u.tileH x = s.tileH x) :)
    ∧ (∀ (i : Issue) (n : Nat) (k : KCopy) (o : Nat) (op : Bool) (v : Nat) (vp : Bool) (s : State), (Instr.stw i n).wf = true → s.calm = true → s.solo i (.st .stw n) = true → s.copyOf i = k → k.entry (k.top - 2) = (o, op) → o < 2 ^ 32 → k.entry (k.top - 1) = (v, vp) → v < 2 ^ 32 → op = false → (k.cap n).usable = true → (k.cap n).perm 1 = true → (k.cap n).covers ((k.cap n).base + o) 4 = true → ((k.cap n).base + o) % 4 = 0 → inOwn ((k.cap n).base + o) 4 = true → (s.kx i.tile i.copy).pairBad ((k.cap n).base + o) 4 true = none → s.usable (physOf i.tile ((k.cap n).base + o)) 4 = true → bit (s.flipRegs (pgEccT i.tile)).1 31 = false →
      Completes (.stw i n) s fun u => 
        (u.copyOf i).bare = (k.after (k.depth - 2) [] ((k.pc + 2 * (i.lits.length + 1)) % 2 ^ 40)).bare ∧ (u.tileH i.tile).copies = setAt (s.tileH i.tile).copies i.copy (u.copyOf i) ∧
        ((List.range 4).map (fun j => u.byte ((physOf i.tile ((k.cap n).base + o)) + j)) = (List.range 4).map (fun j => BitVec.ofNat 8 (v >>> (8 * j)))) ∧
        u.tag (physOf i.tile ((k.cap n).base + o)) = false ∧
        (∀ x, ¬((physOf i.tile ((k.cap n).base + o)) ≤ x ∧ x < (physOf i.tile ((k.cap n).base + o)) + 4) → u.byte x = s.byte x) ∧
        ((u.tileH i.tile).undo.length = (s.tileH i.tile).undo.length + (if ((s.tileH i.tile).mode ≤ 1 ∧ i.copy = 0) then 1 else 0)) ∧
        (∀ x, x ≠ i.tile → u.tileH x = s.tileH x) ∧
        (({ (u.tileH i.tile) with copies := [], bundles := 0, due := none, bound := none, lastDue := 0, port := [], undo := [] } : TileH) = { (s.tileH i.tile) with copies := [], bundles := 0, due := none, bound := none, lastDue := 0, port := [], undo := [] }) ∧
        RegsOnly [pgTile i.tile, pgEccT i.tile] s u ∧
        ({ u with regs := s.regs, tiles := s.tiles, hot := s.hot, mem := s.mem, chk := s.chk, pois := s.pois, tags := s.tags } = s) :)
    ∧ (∀ (i : Issue) (n : Nat) (k : KCopy) (o : Nat) (op : Bool) (v : Nat) (vp : Bool) (s : State), (Instr.stw i n).wf = true → s.calm = true → s.solo i (.st .stw n) = true → s.copyOf i = k → k.entry (k.top - 2) = (o, op) → o < 2 ^ 32 → k.entry (k.top - 1) = (v, vp) → v < 2 ^ 32 → op = false → (k.cap n).usable = true → (k.cap n).perm 1 = true → (k.cap n).covers ((k.cap n).base + o) 4 = true → ((k.cap n).base + o) % 4 = 0 → inOwn ((k.cap n).base + o) 1 = false → ((List.range 4).all fun j => tileMapped (((k.cap n).base + o) + j)) = true → pageAllowed (k.cap n) ((k.cap n).base + o) true = true → ((s.tileH i.tile).mode ≤ 1 ∧ i.copy = 0) →
      Completes (.stw i n) s fun u => 
        (u.copyOf i).bare = (k.after (k.depth - 2) [] ((k.pc + 2 * (i.lits.length + 1)) % 2 ^ 40)).bare ∧ (u.tileH i.tile).copies = setAt (s.tileH i.tile).copies i.copy (u.copyOf i) ∧
        ((u.tileH i.tile).ocb = (s.tileH i.tile).ocb ++ [⟨0, 0, ((k.cap n).base + o), 4, v, (if vp then 1 else 0), false, (s.tileH i.tile).mode⟩]) ∧
        (∀ x, x ≠ i.tile → u.tileH x = s.tileH x) ∧
        (({ (u.tileH i.tile) with copies := [], bundles := 0, due := none, bound := none, lastDue := 0, port := [], ocb := [] } : TileH) = { (s.tileH i.tile) with copies := [], bundles := 0, due := none, bound := none, lastDue := 0, port := [], ocb := [] }) ∧
        RegsOnly [pgTile i.tile] s u ∧
        ({ u with regs := s.regs, tiles := s.tiles, hot := s.hot } = s) :)
    ∧ (∀ (i : Issue) (n : Nat) (k : KCopy) (o : Nat) (op : Bool) (v : Nat) (vp : Bool) (s : State), (Instr.stw i n).wf = true → s.calm = true → s.solo i (.st .stw n) = true → s.copyOf i = k → k.entry (k.top - 2) = (o, op) → o < 2 ^ 32 → k.entry (k.top - 1) = (v, vp) → v < 2 ^ 32 → op = false → (k.cap n).usable = true → (k.cap n).perm 1 = true → (k.cap n).covers ((k.cap n).base + o) 4 = true → ((k.cap n).base + o) % 4 = 0 → ((k.cap n).base + o) + 4 ≤ dramSize → ¬((s.tileH i.tile).mode ≤ 1 ∧ i.copy = 0) → s.usable ((k.cap n).base + o) 4 = true →
      Completes (.stw i n) s fun u => 
        (u.copyOf i).bare = (k.after (k.depth - 2) [] ((k.pc + 2 * (i.lits.length + 1)) % 2 ^ 40)).bare ∧ (u.tileH i.tile).copies = setAt (s.tileH i.tile).copies i.copy (u.copyOf i) ∧
        ((List.range 4).map (fun j => u.byte (((k.cap n).base + o) + j)) = (List.range 4).map (fun j => BitVec.ofNat 8 (v >>> (8 * j)))) ∧
        (∀ x, ¬(((k.cap n).base + o) ≤ x ∧ x < ((k.cap n).base + o) + 4) → u.byte x = s.byte x) ∧
        (u.tileH i.tile).outQ = [] ∧
        (∀ x, x ≠ i.tile → u.tileH x = s.tileH x) :)
    ∧ (∀ (i : Issue) (n : Nat) (g : Cap) (k : KCopy) (o : Nat) (op : Bool) (v : Nat) (vp : Bool) (s : State), (Instr.stw i n).wf = true → s.calm = true → s.solo i (.st .stw n) = true → s.copyOf i = k → k.entry (k.top - 2) = (o, op) → o < 2 ^ 32 → k.entry (k.top - 1) = (v, vp) → v < 2 ^ 32 → (s.kx i.tile i.copy).canEnter 3 g = true → op = false → ((k.cap n).usable = false ∨ (k.cap n).perm 1 = false) →
      Completes (.stw i n) s fun u => 
        ((u.tileH i.tile).copies.getD i.copy {}).pc = g.base ∧
        ((u.tileH i.tile).copies.getD i.copy {}).cap 0 = g ∧
        ((u.tileH i.tile).copies.getD i.copy {}).status = k.status ||| 1 ∧
        ((u.tileH i.tile).copies.getD i.copy {}).base = k.top % 2 ^ 17 ∧
        ((u.tileH i.tile).copies.getD i.copy {}).depth = 0 ∧
        ((u.tileH i.tile).copies.getD i.copy {}).rsp = k.rsp - 48 ∧
        (((u.tileH i.tile).copies.getD i.copy {}).preds, ((u.tileH i.tile).copies.getD i.copy {}).lc, ((u.tileH i.tile).copies.getD i.copy {}).rc, ((u.tileH i.tile).copies.getD i.copy {}).file) = (k.preds, k.lc, k.rc, k.file) ∧
        ((((u.tileH i.tile).copies.getD i.copy {}).rsCache.find? fun q => q.addr == k.rsp - 48).map (fun q => bits q.lo 39 0) = some (k.pc % 2 ^ 40)) ∧
        ((((u.tileH i.tile).copies.getD i.copy {}).rsCache.find? fun q => q.addr == k.rsp - 32).map (fun q => (bits q.lo 13 0, bits q.lo 45 38, bits q.lo 51 46, bit q.lo 61)) = some (bits k.status 13 0, k.depth % 256, 3, false) ∧ (((u.tileH i.tile).copies.getD i.copy {}).rsCache.find? fun q => q.addr == k.rsp - 48).map (fun q => bits q.lo 63 60) = some (n % 16)) ∧
        (∀ x, x ≠ i.tile → u.tileH x = s.tileH x) :)
    ∧ (∀ (i : Issue) (n : Nat) (g : Cap) (k : KCopy) (o : Nat) (op : Bool) (v : Nat) (vp : Bool) (s : State), (Instr.stw i n).wf = true → s.calm = true → s.solo i (.st .stw n) = true → s.copyOf i = k → k.entry (k.top - 2) = (o, op) → o < 2 ^ 32 → k.entry (k.top - 1) = (v, vp) → v < 2 ^ 32 → (s.kx i.tile i.copy).canEnter 4 g = true → op = false → (k.cap n).usable = true → (k.cap n).perm 1 = true → (k.cap n).covers ((k.cap n).base + o) 4 = false → inPages ((k.cap n).base + o) = false →
      Completes (.stw i n) s fun u => 
        ((u.tileH i.tile).copies.getD i.copy {}).pc = g.base ∧
        ((u.tileH i.tile).copies.getD i.copy {}).cap 0 = g ∧
        ((u.tileH i.tile).copies.getD i.copy {}).status = k.status ||| 1 ∧
        ((u.tileH i.tile).copies.getD i.copy {}).base = k.top % 2 ^ 17 ∧
        ((u.tileH i.tile).copies.getD i.copy {}).depth = 0 ∧
        ((u.tileH i.tile).copies.getD i.copy {}).rsp = k.rsp - 48 ∧
        (((u.tileH i.tile).copies.getD i.copy {}).preds, ((u.tileH i.tile).copies.getD i.copy {}).lc, ((u.tileH i.tile).copies.getD i.copy {}).rc, ((u.tileH i.tile).copies.getD i.copy {}).file) = (k.preds, k.lc, k.rc, k.file) ∧
        ((((u.tileH i.tile).copies.getD i.copy {}).rsCache.find? fun q => q.addr == k.rsp - 48).map (fun q => bits q.lo 39 0) = some (k.pc % 2 ^ 40)) ∧
        ((((u.tileH i.tile).copies.getD i.copy {}).rsCache.find? fun q => q.addr == k.rsp - 32).map (fun q => (bits q.lo 13 0, bits q.lo 45 38, bits q.lo 51 46, bit q.lo 61)) = some (bits k.status 13 0, k.depth % 256, 4, false) ∧ (((u.tileH i.tile).copies.getD i.copy {}).rsCache.find? fun q => q.addr == k.rsp - 48).map (fun q => bits q.lo 63 60) = some (n % 16)) ∧
        (∀ x, x ≠ i.tile → u.tileH x = s.tileH x) :)
    ∧ (∀ (i : Issue) (n : Nat) (g : Cap) (k : KCopy) (o : Nat) (op : Bool) (v : Nat) (vp : Bool) (s : State), (Instr.stw i n).wf = true → s.calm = true → s.solo i (.st .stw n) = true → s.copyOf i = k → k.entry (k.top - 2) = (o, op) → o < 2 ^ 32 → k.entry (k.top - 1) = (v, vp) → v < 2 ^ 32 → (s.kx i.tile i.copy).canEnter 6 g = true → op = false → (k.cap n).usable = true → (k.cap n).perm 1 = true → (k.cap n).covers ((k.cap n).base + o) 4 = true → ((k.cap n).base + o) % 4 ≠ 0 → inOwn ((k.cap n).base + o) 4 = true → (s.kx i.tile i.copy).pairBad ((k.cap n).base + o) 4 true = none →
      Completes (.stw i n) s fun u => 
        ((u.tileH i.tile).copies.getD i.copy {}).pc = g.base ∧
        ((u.tileH i.tile).copies.getD i.copy {}).cap 0 = g ∧
        ((u.tileH i.tile).copies.getD i.copy {}).status = k.status ||| 1 ∧
        ((u.tileH i.tile).copies.getD i.copy {}).base = k.top % 2 ^ 17 ∧
        ((u.tileH i.tile).copies.getD i.copy {}).depth = 0 ∧
        ((u.tileH i.tile).copies.getD i.copy {}).rsp = k.rsp - 48 ∧
        (((u.tileH i.tile).copies.getD i.copy {}).preds, ((u.tileH i.tile).copies.getD i.copy {}).lc, ((u.tileH i.tile).copies.getD i.copy {}).rc, ((u.tileH i.tile).copies.getD i.copy {}).file) = (k.preds, k.lc, k.rc, k.file) ∧
        ((((u.tileH i.tile).copies.getD i.copy {}).rsCache.find? fun q => q.addr == k.rsp - 48).map (fun q => bits q.lo 39 0) = some (k.pc % 2 ^ 40)) ∧
        ((((u.tileH i.tile).copies.getD i.copy {}).rsCache.find? fun q => q.addr == k.rsp - 32).map (fun q => (bits q.lo 13 0, bits q.lo 45 38, bits q.lo 51 46, bit q.lo 61)) = some (bits k.status 13 0, k.depth % 256, 6, false) ∧ (((u.tileH i.tile).copies.getD i.copy {}).rsCache.find? fun q => q.addr == k.rsp - 48).map (fun q => bits q.lo 63 60) = some (n % 16)) ∧
        (∀ x, x ≠ i.tile → u.tileH x = s.tileH x) :)
    ∧ (∀ (i : Issue) (n : Nat) (k : KCopy) (o : Nat) (op : Bool) (v : Nat) (vp : Bool) (vh : Nat) (vhp : Bool) (s : State), (Instr.std i n).wf = true → s.calm = true → s.solo i (.st .std n) = true → s.copyOf i = k → k.entry (k.top - 3) = (o, op) → o < 2 ^ 32 → k.entry (k.top - 2) = (v, vp) → v < 2 ^ 32 → k.entry (k.top - 1) = (vh, vhp) → vh < 2 ^ 32 → op = false → (k.cap n).usable = true → (k.cap n).perm 1 = true → (k.cap n).covers ((k.cap n).base + o) 8 = true → ((k.cap n).base + o) % 8 = 0 → inOwn ((k.cap n).base + o) 8 = true → (s.kx i.tile i.copy).pairBad ((k.cap n).base + o) 8 true = none → s.usable (physOf i.tile ((k.cap n).base + o)) 8 = true → bit (s.flipRegs (pgEccT i.tile)).1 31 = false →
      Completes (.std i n) s fun u => 
        (u.copyOf i).bare = (k.after (k.depth - 3) [] ((k.pc + 2 * (i.lits.length + 1)) % 2 ^ 40)).bare ∧ (u.tileH i.tile).copies = setAt (s.tileH i.tile).copies i.copy (u.copyOf i) ∧
        ((List.range 8).map (fun j => u.byte ((physOf i.tile ((k.cap n).base + o)) + j)) = (List.range 8).map (fun j => BitVec.ofNat 8 ((v + vh * 2 ^ 32) >>> (8 * j)))) ∧
        u.tag (physOf i.tile ((k.cap n).base + o)) = false ∧
        (u.poisCopies (physOf i.tile ((k.cap n).base + o)) = (if (vp || vhp) then 7 else 0)) ∧
        (∀ x, ¬((physOf i.tile ((k.cap n).base + o)) ≤ x ∧ x < (physOf i.tile ((k.cap n).base + o)) + 8) → u.byte x = s.byte x) ∧
        ((u.tileH i.tile).undo.length = (s.tileH i.tile).undo.length + (if ((s.tileH i.tile).mode ≤ 1 ∧ i.copy = 0) then 1 else 0)) ∧
        (∀ x, x ≠ i.tile → u.tileH x = s.tileH x) ∧
        (({ (u.tileH i.tile) with copies := [], bundles := 0, due := none, bound := none, lastDue := 0, port := [], undo := [] } : TileH) = { (s.tileH i.tile) with copies := [], bundles := 0, due := none, bound := none, lastDue := 0, port := [], undo := [] }) ∧
        RegsOnly [pgTile i.tile, pgEccT i.tile] s u ∧
        ({ u with regs := s.regs, tiles := s.tiles, hot := s.hot, mem := s.mem, chk := s.chk, pois := s.pois, tags := s.tags } = s) :)
    ∧ (∀ (i : Issue) (n : Nat) (k : KCopy) (o : Nat) (op : Bool) (v : Nat) (vp : Bool) (vh : Nat) (vhp : Bool) (s : State), (Instr.std i n).wf = true → s.calm = true → s.solo i (.st .std n) = true → s.copyOf i = k → k.entry (k.top - 3) = (o, op) → o < 2 ^ 32 → k.entry (k.top - 2) = (v, vp) → v < 2 ^ 32 → k.entry (k.top - 1) = (vh, vhp) → vh < 2 ^ 32 → op = false → (k.cap n).usable = true → (k.cap n).perm 1 = true → (k.cap n).covers ((k.cap n).base + o) 8 = true → ((k.cap n).base + o) % 8 = 0 → inOwn ((k.cap n).base + o) 1 = false → ((List.range 8).all fun j => tileMapped (((k.cap n).base + o) + j)) = true → pageAllowed (k.cap n) ((k.cap n).base + o) true = true → ((s.tileH i.tile).mode ≤ 1 ∧ i.copy = 0) →
      Completes (.std i n) s fun u => 
        (u.copyOf i).bare = (k.after (k.depth - 3) [] ((k.pc + 2 * (i.lits.length + 1)) % 2 ^ 40)).bare ∧ (u.tileH i.tile).copies = setAt (s.tileH i.tile).copies i.copy (u.copyOf i) ∧
        ((u.tileH i.tile).ocb = (s.tileH i.tile).ocb ++ [⟨0, 0, ((k.cap n).base + o), 8, (v + vh * 2 ^ 32), (if (vp || vhp) then 1 else 0), false, (s.tileH i.tile).mode⟩]) ∧
        (∀ x, x ≠ i.tile → u.tileH x = s.tileH x) ∧
        (({ (u.tileH i.tile) with copies := [], bundles := 0, due := none, bound := none, lastDue := 0, port := [], ocb := [] } : TileH) = { (s.tileH i.tile) with copies := [], bundles := 0, due := none, bound := none, lastDue := 0, port := [], ocb := [] }) ∧
        RegsOnly [pgTile i.tile] s u ∧
        ({ u with regs := s.regs, tiles := s.tiles, hot := s.hot } = s) :)
    ∧ (∀ (i : Issue) (n : Nat) (k : KCopy) (o : Nat) (op : Bool) (v : Nat) (vp : Bool) (vh : Nat) (vhp : Bool) (s : State), (Instr.std i n).wf = true → s.calm = true → s.solo i (.st .std n) = true → s.copyOf i = k → k.entry (k.top - 3) = (o, op) → o < 2 ^ 32 → k.entry (k.top - 2) = (v, vp) → v < 2 ^ 32 → k.entry (k.top - 1) = (vh, vhp) → vh < 2 ^ 32 → op = false → (k.cap n).usable = true → (k.cap n).perm 1 = true → (k.cap n).covers ((k.cap n).base + o) 8 = true → ((k.cap n).base + o) % 8 = 0 → ((k.cap n).base + o) + 8 ≤ dramSize → ¬((s.tileH i.tile).mode ≤ 1 ∧ i.copy = 0) → s.usable ((k.cap n).base + o) 8 = true →
      Completes (.std i n) s fun u => 
        (u.copyOf i).bare = (k.after (k.depth - 3) [] ((k.pc + 2 * (i.lits.length + 1)) % 2 ^ 40)).bare ∧ (u.tileH i.tile).copies = setAt (s.tileH i.tile).copies i.copy (u.copyOf i) ∧
        ((List.range 8).map (fun j => u.byte (((k.cap n).base + o) + j)) = (List.range 8).map (fun j => BitVec.ofNat 8 ((v + vh * 2 ^ 32) >>> (8 * j)))) ∧
        (∀ x, ¬(((k.cap n).base + o) ≤ x ∧ x < ((k.cap n).base + o) + 8) → u.byte x = s.byte x) ∧
        (u.tileH i.tile).outQ = [] ∧
        (∀ x, x ≠ i.tile → u.tileH x = s.tileH x) :)
    ∧ (∀ (i : Issue) (n : Nat) (g : Cap) (k : KCopy) (o : Nat) (op : Bool) (v : Nat) (vp : Bool) (vh : Nat) (vhp : Bool) (s : State), (Instr.std i n).wf = true → s.calm = true → s.solo i (.st .std n) = true → s.copyOf i = k → k.entry (k.top - 3) = (o, op) → o < 2 ^ 32 → k.entry (k.top - 2) = (v, vp) → v < 2 ^ 32 → k.entry (k.top - 1) = (vh, vhp) → vh < 2 ^ 32 → (s.kx i.tile i.copy).canEnter 3 g = true → op = false → ((k.cap n).usable = false ∨ (k.cap n).perm 1 = false) →
      Completes (.std i n) s fun u => 
        ((u.tileH i.tile).copies.getD i.copy {}).pc = g.base ∧
        ((u.tileH i.tile).copies.getD i.copy {}).cap 0 = g ∧
        ((u.tileH i.tile).copies.getD i.copy {}).status = k.status ||| 1 ∧
        ((u.tileH i.tile).copies.getD i.copy {}).base = k.top % 2 ^ 17 ∧
        ((u.tileH i.tile).copies.getD i.copy {}).depth = 0 ∧
        ((u.tileH i.tile).copies.getD i.copy {}).rsp = k.rsp - 48 ∧
        (((u.tileH i.tile).copies.getD i.copy {}).preds, ((u.tileH i.tile).copies.getD i.copy {}).lc, ((u.tileH i.tile).copies.getD i.copy {}).rc, ((u.tileH i.tile).copies.getD i.copy {}).file) = (k.preds, k.lc, k.rc, k.file) ∧
        ((((u.tileH i.tile).copies.getD i.copy {}).rsCache.find? fun q => q.addr == k.rsp - 48).map (fun q => bits q.lo 39 0) = some (k.pc % 2 ^ 40)) ∧
        ((((u.tileH i.tile).copies.getD i.copy {}).rsCache.find? fun q => q.addr == k.rsp - 32).map (fun q => (bits q.lo 13 0, bits q.lo 45 38, bits q.lo 51 46, bit q.lo 61)) = some (bits k.status 13 0, k.depth % 256, 3, false) ∧ (((u.tileH i.tile).copies.getD i.copy {}).rsCache.find? fun q => q.addr == k.rsp - 48).map (fun q => bits q.lo 63 60) = some (n % 16)) ∧
        (∀ x, x ≠ i.tile → u.tileH x = s.tileH x) :)
    ∧ (∀ (i : Issue) (n : Nat) (g : Cap) (k : KCopy) (o : Nat) (op : Bool) (v : Nat) (vp : Bool) (vh : Nat) (vhp : Bool) (s : State), (Instr.std i n).wf = true → s.calm = true → s.solo i (.st .std n) = true → s.copyOf i = k → k.entry (k.top - 3) = (o, op) → o < 2 ^ 32 → k.entry (k.top - 2) = (v, vp) → v < 2 ^ 32 → k.entry (k.top - 1) = (vh, vhp) → vh < 2 ^ 32 → (s.kx i.tile i.copy).canEnter 4 g = true → op = false → (k.cap n).usable = true → (k.cap n).perm 1 = true → (k.cap n).covers ((k.cap n).base + o) 8 = false → inPages ((k.cap n).base + o) = false →
      Completes (.std i n) s fun u => 
        ((u.tileH i.tile).copies.getD i.copy {}).pc = g.base ∧
        ((u.tileH i.tile).copies.getD i.copy {}).cap 0 = g ∧
        ((u.tileH i.tile).copies.getD i.copy {}).status = k.status ||| 1 ∧
        ((u.tileH i.tile).copies.getD i.copy {}).base = k.top % 2 ^ 17 ∧
        ((u.tileH i.tile).copies.getD i.copy {}).depth = 0 ∧
        ((u.tileH i.tile).copies.getD i.copy {}).rsp = k.rsp - 48 ∧
        (((u.tileH i.tile).copies.getD i.copy {}).preds, ((u.tileH i.tile).copies.getD i.copy {}).lc, ((u.tileH i.tile).copies.getD i.copy {}).rc, ((u.tileH i.tile).copies.getD i.copy {}).file) = (k.preds, k.lc, k.rc, k.file) ∧
        ((((u.tileH i.tile).copies.getD i.copy {}).rsCache.find? fun q => q.addr == k.rsp - 48).map (fun q => bits q.lo 39 0) = some (k.pc % 2 ^ 40)) ∧
        ((((u.tileH i.tile).copies.getD i.copy {}).rsCache.find? fun q => q.addr == k.rsp - 32).map (fun q => (bits q.lo 13 0, bits q.lo 45 38, bits q.lo 51 46, bit q.lo 61)) = some (bits k.status 13 0, k.depth % 256, 4, false) ∧ (((u.tileH i.tile).copies.getD i.copy {}).rsCache.find? fun q => q.addr == k.rsp - 48).map (fun q => bits q.lo 63 60) = some (n % 16)) ∧
        (∀ x, x ≠ i.tile → u.tileH x = s.tileH x) :)
    ∧ (∀ (i : Issue) (n : Nat) (g : Cap) (k : KCopy) (o : Nat) (op : Bool) (v : Nat) (vp : Bool) (vh : Nat) (vhp : Bool) (s : State), (Instr.std i n).wf = true → s.calm = true → s.solo i (.st .std n) = true → s.copyOf i = k → k.entry (k.top - 3) = (o, op) → o < 2 ^ 32 → k.entry (k.top - 2) = (v, vp) → v < 2 ^ 32 → k.entry (k.top - 1) = (vh, vhp) → vh < 2 ^ 32 → (s.kx i.tile i.copy).canEnter 6 g = true → op = false → (k.cap n).usable = true → (k.cap n).perm 1 = true → (k.cap n).covers ((k.cap n).base + o) 8 = true → ((k.cap n).base + o) % 8 ≠ 0 → inOwn ((k.cap n).base + o) 8 = true → (s.kx i.tile i.copy).pairBad ((k.cap n).base + o) 8 true = none →
      Completes (.std i n) s fun u => 
        ((u.tileH i.tile).copies.getD i.copy {}).pc = g.base ∧
        ((u.tileH i.tile).copies.getD i.copy {}).cap 0 = g ∧
        ((u.tileH i.tile).copies.getD i.copy {}).status = k.status ||| 1 ∧
        ((u.tileH i.tile).copies.getD i.copy {}).base = k.top % 2 ^ 17 ∧
        ((u.tileH i.tile).copies.getD i.copy {}).depth = 0 ∧
        ((u.tileH i.tile).copies.getD i.copy {}).rsp = k.rsp - 48 ∧
        (((u.tileH i.tile).copies.getD i.copy {}).preds, ((u.tileH i.tile).copies.getD i.copy {}).lc, ((u.tileH i.tile).copies.getD i.copy {}).rc, ((u.tileH i.tile).copies.getD i.copy {}).file) = (k.preds, k.lc, k.rc, k.file) ∧
        ((((u.tileH i.tile).copies.getD i.copy {}).rsCache.find? fun q => q.addr == k.rsp - 48).map (fun q => bits q.lo 39 0) = some (k.pc % 2 ^ 40)) ∧
        ((((u.tileH i.tile).copies.getD i.copy {}).rsCache.find? fun q => q.addr == k.rsp - 32).map (fun q => (bits q.lo 13 0, bits q.lo 45 38, bits q.lo 51 46, bit q.lo 61)) = some (bits k.status 13 0, k.depth % 256, 6, false) ∧ (((u.tileH i.tile).copies.getD i.copy {}).rsCache.find? fun q => q.addr == k.rsp - 48).map (fun q => bits q.lo 63 60) = some (n % 16)) ∧
        (∀ x, x ≠ i.tile → u.tileH x = s.tileH x) :)
    ∧ (∀ (i : Issue) (m n : Nat) (k : KCopy) (o : Nat) (op : Bool) (s : State), (Instr.stt i m n).wf = true → s.calm = true → s.solo i (.stt m n) = true → s.copyOf i = k → k.entry (k.top - 1) = (o, op) → o < 2 ^ 32 → op = false → (k.cap n).usable = true → (k.cap n).perm 1 = true → (k.cap n).perm 4 = true → (k.cap n).covers ((k.cap n).base + o) 16 = true → ((k.cap n).base + o) % 16 = 0 → inOwn ((k.cap n).base + o) 16 = true → (s.kx i.tile i.copy).pairBad ((k.cap n).base + o) 16 true = none → s.usable (physOf i.tile ((k.cap n).base + o)) 16 = true → bit (s.flipRegs (pgEccT i.tile)).1 31 = false →
      Completes (.stt i m n) s fun u => 
        (u.copyOf i).bare = (k.after (k.depth - 1) [] ((k.pc + 2 * (i.lits.length + 1)) % 2 ^ 40)).bare ∧ (u.tileH i.tile).copies = setAt (s.tileH i.tile).copies i.copy (u.copyOf i) ∧
        ((List.range 16).map (fun j => u.byte ((physOf i.tile ((k.cap n).base + o)) + j)) = (List.range 16).map (fun j => BitVec.ofNat 8 ((k.cap m).val >>> (8 * j)))) ∧
        u.tag (physOf i.tile ((k.cap n).base + o)) = (k.cap m).tag ∧
        (∀ x, ¬((physOf i.tile ((k.cap n).base + o)) ≤ x ∧ x < (physOf i.tile ((k.cap n).base + o)) + 16) → u.byte x = s.byte x) ∧
        ((u.tileH i.tile).undo.length = (s.tileH i.tile).undo.length + (if ((s.tileH i.tile).mode ≤ 1 ∧ i.copy = 0) then 2 else 0)) ∧
        (∀ x, x ≠ i.tile → u.tileH x = s.tileH x) ∧
        (({ (u.tileH i.tile) with copies := [], bundles := 0, due := none, bound := none, lastDue := 0, port := [], undo := [] } : TileH) = { (s.tileH i.tile) with copies := [], bundles := 0, due := none, bound := none, lastDue := 0, port := [], undo := [] }) ∧
        RegsOnly [pgTile i.tile, pgEccT i.tile] s u ∧
        ({ u with regs := s.regs, tiles := s.tiles, hot := s.hot, mem := s.mem, chk := s.chk, pois := s.pois, tags := s.tags } = s) :)
    ∧ (∀ (i : Issue) (m n : Nat) (k : KCopy) (o : Nat) (op : Bool) (s : State), (Instr.stt i m n).wf = true → s.calm = true → s.solo i (.stt m n) = true → s.copyOf i = k → k.entry (k.top - 1) = (o, op) → o < 2 ^ 32 → op = false → (k.cap n).usable = true → (k.cap n).perm 1 = true → (k.cap n).perm 4 = true → (k.cap n).covers ((k.cap n).base + o) 16 = true → ((k.cap n).base + o) % 16 = 0 → clusterBase 0 ≤ ((k.cap n).base + o) → ((k.cap n).base + o) + 16 ≤ clusterBase 16 → ((s.tileH i.tile).mode ≤ 1 ∧ i.copy = 0) →
      Completes (.stt i m n) s fun u => 
        (u.copyOf i).bare = (k.after (k.depth - 1) [] ((k.pc + 2 * (i.lits.length + 1)) % 2 ^ 40)).bare ∧ (u.tileH i.tile).copies = setAt (s.tileH i.tile).copies i.copy (u.copyOf i) ∧
        (u.tileH i.tile).ocb = (s.tileH i.tile).ocb ++ [⟨1, 0, ((k.cap n).base + o), 16, (k.cap m).val, 0, (k.cap m).tag, (s.tileH i.tile).mode⟩] ∧
        (∀ x, x ≠ i.tile → u.tileH x = s.tileH x) ∧
        (({ (u.tileH i.tile) with copies := [], bundles := 0, due := none, bound := none, lastDue := 0, port := [], ocb := [] } : TileH) = { (s.tileH i.tile) with copies := [], bundles := 0, due := none, bound := none, lastDue := 0, port := [], ocb := [] }) ∧
        RegsOnly [pgTile i.tile] s u ∧
        ({ u with regs := s.regs, tiles := s.tiles, hot := s.hot } = s) :)
    ∧ (∀ (i : Issue) (m n : Nat) (g : Cap) (k : KCopy) (o : Nat) (op : Bool) (s : State), (Instr.stt i m n).wf = true → s.calm = true → s.solo i (.stt m n) = true → s.copyOf i = k → k.entry (k.top - 1) = (o, op) → o < 2 ^ 32 → (s.kx i.tile i.copy).canEnter 3 g = true → op = false → ((k.cap n).usable = false ∨ (k.cap n).perm 1 = false) →
      Completes (.stt i m n) s fun u => 
        ((u.tileH i.tile).copies.getD i.copy {}).pc = g.base ∧
        ((u.tileH i.tile).copies.getD i.copy {}).cap 0 = g ∧
        ((u.tileH i.tile).copies.getD i.copy {}).status = k.status ||| 1 ∧
        ((u.tileH i.tile).copies.getD i.copy {}).base = k.top % 2 ^ 17 ∧
        ((u.tileH i.tile).copies.getD i.copy {}).depth = 0 ∧
        ((u.tileH i.tile).copies.getD i.copy {}).rsp = k.rsp - 48 ∧
        (((u.tileH i.tile).copies.getD i.copy {}).preds, ((u.tileH i.tile).copies.getD i.copy {}).lc, ((u.tileH i.tile).copies.getD i.copy {}).rc, ((u.tileH i.tile).copies.getD i.copy {}).file) = (k.preds, k.lc, k.rc, k.file) ∧
        ((((u.tileH i.tile).copies.getD i.copy {}).rsCache.find? fun q => q.addr == k.rsp - 48).map (fun q => bits q.lo 39 0) = some (k.pc % 2 ^ 40)) ∧
        ((((u.tileH i.tile).copies.getD i.copy {}).rsCache.find? fun q => q.addr == k.rsp - 32).map (fun q => (bits q.lo 13 0, bits q.lo 45 38, bits q.lo 51 46, bit q.lo 61)) = some (bits k.status 13 0, k.depth % 256, 3, false) ∧ (((u.tileH i.tile).copies.getD i.copy {}).rsCache.find? fun q => q.addr == k.rsp - 48).map (fun q => bits q.lo 63 60) = some (n % 16)) ∧
        (∀ x, x ≠ i.tile → u.tileH x = s.tileH x) :)
    ∧ (∀ (i : Issue) (m n : Nat) (g : Cap) (k : KCopy) (o : Nat) (op : Bool) (s : State), (Instr.stt i m n).wf = true → s.calm = true → s.solo i (.stt m n) = true → s.copyOf i = k → k.entry (k.top - 1) = (o, op) → o < 2 ^ 32 → (s.kx i.tile i.copy).canEnter 4 g = true → op = false → (k.cap n).usable = true → (k.cap n).perm 1 = true → (k.cap n).perm 4 = true → (k.cap n).covers ((k.cap n).base + o) 16 = false → inPages ((k.cap n).base + o) = false → dramSize ≤ ((k.cap n).base + o) →
      Completes (.stt i m n) s fun u => 
        ((u.tileH i.tile).copies.getD i.copy {}).pc = g.base ∧
        ((u.tileH i.tile).copies.getD i.copy {}).cap 0 = g ∧
        ((u.tileH i.tile).copies.getD i.copy {}).status = k.status ||| 1 ∧
        ((u.tileH i.tile).copies.getD i.copy {}).base = k.top % 2 ^ 17 ∧
        ((u.tileH i.tile).copies.getD i.copy {}).depth = 0 ∧
        ((u.tileH i.tile).copies.getD i.copy {}).rsp = k.rsp - 48 ∧
        (((u.tileH i.tile).copies.getD i.copy {}).preds, ((u.tileH i.tile).copies.getD i.copy {}).lc, ((u.tileH i.tile).copies.getD i.copy {}).rc, ((u.tileH i.tile).copies.getD i.copy {}).file) = (k.preds, k.lc, k.rc, k.file) ∧
        ((((u.tileH i.tile).copies.getD i.copy {}).rsCache.find? fun q => q.addr == k.rsp - 48).map (fun q => bits q.lo 39 0) = some (k.pc % 2 ^ 40)) ∧
        ((((u.tileH i.tile).copies.getD i.copy {}).rsCache.find? fun q => q.addr == k.rsp - 32).map (fun q => (bits q.lo 13 0, bits q.lo 45 38, bits q.lo 51 46, bit q.lo 61)) = some (bits k.status 13 0, k.depth % 256, 4, false) ∧ (((u.tileH i.tile).copies.getD i.copy {}).rsCache.find? fun q => q.addr == k.rsp - 48).map (fun q => bits q.lo 63 60) = some (n % 16)) ∧
        (∀ x, x ≠ i.tile → u.tileH x = s.tileH x) :)
    ∧ (∀ (i : Issue) (m n : Nat) (g : Cap) (k : KCopy) (o : Nat) (op : Bool) (s : State), (Instr.stt i m n).wf = true → s.calm = true → s.solo i (.stt m n) = true → s.copyOf i = k → k.entry (k.top - 1) = (o, op) → o < 2 ^ 32 → (s.kx i.tile i.copy).canEnter 6 g = true → op = false → (k.cap n).usable = true → (k.cap n).perm 1 = true → (k.cap n).perm 4 = true → (k.cap n).covers ((k.cap n).base + o) 16 = true → ((k.cap n).base + o) % 16 ≠ 0 → inOwn ((k.cap n).base + o) 16 = true → (s.kx i.tile i.copy).pairBad ((k.cap n).base + o) 16 true = none →
      Completes (.stt i m n) s fun u => 
        ((u.tileH i.tile).copies.getD i.copy {}).pc = g.base ∧
        ((u.tileH i.tile).copies.getD i.copy {}).cap 0 = g ∧
        ((u.tileH i.tile).copies.getD i.copy {}).status = k.status ||| 1 ∧
        ((u.tileH i.tile).copies.getD i.copy {}).base = k.top % 2 ^ 17 ∧
        ((u.tileH i.tile).copies.getD i.copy {}).depth = 0 ∧
        ((u.tileH i.tile).copies.getD i.copy {}).rsp = k.rsp - 48 ∧
        (((u.tileH i.tile).copies.getD i.copy {}).preds, ((u.tileH i.tile).copies.getD i.copy {}).lc, ((u.tileH i.tile).copies.getD i.copy {}).rc, ((u.tileH i.tile).copies.getD i.copy {}).file) = (k.preds, k.lc, k.rc, k.file) ∧
        ((((u.tileH i.tile).copies.getD i.copy {}).rsCache.find? fun q => q.addr == k.rsp - 48).map (fun q => bits q.lo 39 0) = some (k.pc % 2 ^ 40)) ∧
        ((((u.tileH i.tile).copies.getD i.copy {}).rsCache.find? fun q => q.addr == k.rsp - 32).map (fun q => (bits q.lo 13 0, bits q.lo 45 38, bits q.lo 51 46, bit q.lo 61)) = some (bits k.status 13 0, k.depth % 256, 6, false) ∧ (((u.tileH i.tile).copies.getD i.copy {}).rsCache.find? fun q => q.addr == k.rsp - 48).map (fun q => bits q.lo 63 60) = some (n % 16)) ∧
        (∀ x, x ≠ i.tile → u.tileH x = s.tileH x) :)

/-- CMOV copies, CRANGE narrows to a range within its source, CPERM keeps the permissions its word names and the reserved ones, CTIE and CUNTIE set and clear a knot of the matching type, CVOID clears; CREAD pushes the fields, and selectors 6 and 7 are illegal. The named register alone changes. A source without a tag, or knotted, and a range past its source enter the exception of that name. -/
def Obligations.KolotteCaps : Prop :=
    (∀ (i : Issue) (d e : Nat) (k : KCopy) (s : State), (Instr.cmov i d e).wf = true → s.calm = true → s.solo i (.cmov d e) = true → s.copyOf i = k →
      Completes (.cmov i d e) s fun u => 
        Took i s u ((k.after k.depth [] ((k.pc + 2 * (i.lits.length + 1)) % 2 ^ 40)).setCap d (k.cap e)) :)
    ∧ (∀ (i : Issue) (d e : Nat) (k : KCopy) (o : Nat) (op : Bool) (l : Nat) (lp : Bool) (s : State), (Instr.crange i d e).wf = true → s.calm = true → s.solo i (.crange d e) = true → s.copyOf i = k → k.entry (k.top - 2) = (o, op) → o < 2 ^ 32 → k.entry (k.top - 1) = (l, lp) → l < 2 ^ 32 → op = false → lp = false → (k.cap e).usable = true → o + l ≤ (k.cap e).len →
      Completes (.crange i d e) s fun u => 
        Took i s u ((k.after (k.depth - 2) [] ((k.pc + 2 * (i.lits.length + 1)) % 2 ^ 40)).setCap d ((k.cap e).withRange ((k.cap e).base + o) l)) :)
    ∧ (∀ (i : Issue) (d e : Nat) (g : Cap) (k : KCopy) (o : Nat) (op : Bool) (l : Nat) (lp : Bool) (s : State), (Instr.crange i d e).wf = true → s.calm = true → s.solo i (.crange d e) = true → s.copyOf i = k → k.entry (k.top - 2) = (o, op) → o < 2 ^ 32 → k.entry (k.top - 1) = (l, lp) → l < 2 ^ 32 → (s.kx i.tile i.copy).canEnter 3 g = true → op = false → lp = false → (k.cap e).usable = false →
      Completes (.crange i d e) s fun u => 
        ((u.tileH i.tile).copies.getD i.copy {}).pc = g.base ∧
        ((u.tileH i.tile).copies.getD i.copy {}).cap 0 = g ∧
        ((u.tileH i.tile).copies.getD i.copy {}).status = k.status ||| 1 ∧
        ((u.tileH i.tile).copies.getD i.copy {}).base = k.top % 2 ^ 17 ∧
        ((u.tileH i.tile).copies.getD i.copy {}).depth = 0 ∧
        ((u.tileH i.tile).copies.getD i.copy {}).rsp = k.rsp - 48 ∧
        (((u.tileH i.tile).copies.getD i.copy {}).preds, ((u.tileH i.tile).copies.getD i.copy {}).lc, ((u.tileH i.tile).copies.getD i.copy {}).rc, ((u.tileH i.tile).copies.getD i.copy {}).file) = (k.preds, k.lc, k.rc, k.file) ∧
        ((((u.tileH i.tile).copies.getD i.copy {}).rsCache.find? fun q => q.addr == k.rsp - 48).map (fun q => bits q.lo 39 0) = some (k.pc % 2 ^ 40)) ∧
        ((((u.tileH i.tile).copies.getD i.copy {}).rsCache.find? fun q => q.addr == k.rsp - 32).map (fun q => (bits q.lo 13 0, bits q.lo 45 38, bits q.lo 51 46, bit q.lo 61)) = some (bits k.status 13 0, k.depth % 256, 3, false) ∧ (((u.tileH i.tile).copies.getD i.copy {}).rsCache.find? fun q => q.addr == k.rsp - 48).map (fun q => bits q.lo 63 60) = some (e % 16)) ∧
        (∀ x, x ≠ i.tile → u.tileH x = s.tileH x) :)
    ∧ (∀ (i : Issue) (d e : Nat) (g : Cap) (k : KCopy) (o : Nat) (op : Bool) (l : Nat) (lp : Bool) (s : State), (Instr.crange i d e).wf = true → s.calm = true → s.solo i (.crange d e) = true → s.copyOf i = k → k.entry (k.top - 2) = (o, op) → o < 2 ^ 32 → k.entry (k.top - 1) = (l, lp) → l < 2 ^ 32 → (s.kx i.tile i.copy).canEnter 4 g = true → op = false → lp = false → (k.cap e).usable = true → (k.cap e).len < o + l →
      Completes (.crange i d e) s fun u => 
        ((u.tileH i.tile).copies.getD i.copy {}).pc = g.base ∧
        ((u.tileH i.tile).copies.getD i.copy {}).cap 0 = g ∧
        ((u.tileH i.tile).copies.getD i.copy {}).status = k.status ||| 1 ∧
        ((u.tileH i.tile).copies.getD i.copy {}).base = k.top % 2 ^ 17 ∧
        ((u.tileH i.tile).copies.getD i.copy {}).depth = 0 ∧
        ((u.tileH i.tile).copies.getD i.copy {}).rsp = k.rsp - 48 ∧
        (((u.tileH i.tile).copies.getD i.copy {}).preds, ((u.tileH i.tile).copies.getD i.copy {}).lc, ((u.tileH i.tile).copies.getD i.copy {}).rc, ((u.tileH i.tile).copies.getD i.copy {}).file) = (k.preds, k.lc, k.rc, k.file) ∧
        ((((u.tileH i.tile).copies.getD i.copy {}).rsCache.find? fun q => q.addr == k.rsp - 48).map (fun q => bits q.lo 39 0) = some (k.pc % 2 ^ 40)) ∧
        ((((u.tileH i.tile).copies.getD i.copy {}).rsCache.find? fun q => q.addr == k.rsp - 32).map (fun q => (bits q.lo 13 0, bits q.lo 45 38, bits q.lo 51 46, bit q.lo 61)) = some (bits k.status 13 0, k.depth % 256, 4, false) ∧ (((u.tileH i.tile).copies.getD i.copy {}).rsCache.find? fun q => q.addr == k.rsp - 48).map (fun q => bits q.lo 63 60) = some (e % 16)) ∧
        (∀ x, x ≠ i.tile → u.tileH x = s.tileH x) :)
    ∧ (∀ (i : Issue) (d e : Nat) (k : KCopy) (o : Nat) (op : Bool) (s : State), (Instr.cperm i d e).wf = true → s.calm = true → s.solo i (.cperm d e) = true → s.copyOf i = k → k.entry (k.top - 1) = (o, op) → o < 2 ^ 32 → op = false → (k.cap e).usable = true →
      Completes (.cperm i d e) s fun u => 
        Took i s u ((k.after (k.depth - 1) [] ((k.pc + 2 * (i.lits.length + 1)) % 2 ^ 40)).setCap d ((k.cap e).withPerms ((k.cap e).perms &&& (o ||| 0xFE00)))) :)
    ∧ (∀ (i : Issue) (d e : Nat) (g : Cap) (k : KCopy) (o : Nat) (op : Bool) (s : State), (Instr.cperm i d e).wf = true → s.calm = true → s.solo i (.cperm d e) = true → s.copyOf i = k → k.entry (k.top - 1) = (o, op) → o < 2 ^ 32 → (s.kx i.tile i.copy).canEnter 3 g = true → op = false → (k.cap e).usable = false →
      Completes (.cperm i d e) s fun u => 
        ((u.tileH i.tile).copies.getD i.copy {}).pc = g.base ∧
        ((u.tileH i.tile).copies.getD i.copy {}).cap 0 = g ∧
        ((u.tileH i.tile).copies.getD i.copy {}).status = k.status ||| 1 ∧
        ((u.tileH i.tile).copies.getD i.copy {}).base = k.top % 2 ^ 17 ∧
        ((u.tileH i.tile).copies.getD i.copy {}).depth = 0 ∧
        ((u.tileH i.tile).copies.getD i.copy {}).rsp = k.rsp - 48 ∧
        (((u.tileH i.tile).copies.getD i.copy {}).preds, ((u.tileH i.tile).copies.getD i.copy {}).lc, ((u.tileH i.tile).copies.getD i.copy {}).rc, ((u.tileH i.tile).copies.getD i.copy {}).file) = (k.preds, k.lc, k.rc, k.file) ∧
        ((((u.tileH i.tile).copies.getD i.copy {}).rsCache.find? fun q => q.addr == k.rsp - 48).map (fun q => bits q.lo 39 0) = some (k.pc % 2 ^ 40)) ∧
        ((((u.tileH i.tile).copies.getD i.copy {}).rsCache.find? fun q => q.addr == k.rsp - 32).map (fun q => (bits q.lo 13 0, bits q.lo 45 38, bits q.lo 51 46, bit q.lo 61)) = some (bits k.status 13 0, k.depth % 256, 3, false) ∧ (((u.tileH i.tile).copies.getD i.copy {}).rsCache.find? fun q => q.addr == k.rsp - 48).map (fun q => bits q.lo 63 60) = some (e % 16)) ∧
        (∀ x, x ≠ i.tile → u.tileH x = s.tileH x) :)
    ∧ (∀ (i : Issue) (d e : Nat) (k : KCopy) (s : State), (Instr.ctie i d e).wf = true → s.calm = true → s.solo i (.ctie d e) = true → s.copyOf i = k → (k.cap e).usable = true → (k.cap e).perm 5 = true → (k.cap e).ktype ≠ 0 → (k.cap d).usable = true →
      Completes (.ctie i d e) s fun u => 
        Took i s u ((k.after k.depth [] ((k.pc + 2 * (i.lits.length + 1)) % 2 ^ 40)).setCap d ((k.cap d).withKnot true (k.cap e).ktype)) :)
    ∧ (∀ (i : Issue) (d e : Nat) (g : Cap) (k : KCopy) (s : State), (Instr.ctie i d e).wf = true → s.calm = true → s.solo i (.ctie d e) = true → s.copyOf i = k → (s.kx i.tile i.copy).canEnter 3 g = true → ((k.cap e).usable = false ∨ (k.cap e).perm 5 = false ∨ (k.cap e).ktype = 0) →
      Completes (.ctie i d e) s fun u => 
        ((u.tileH i.tile).copies.getD i.copy {}).pc = g.base ∧
        ((u.tileH i.tile).copies.getD i.copy {}).cap 0 = g ∧
        ((u.tileH i.tile).copies.getD i.copy {}).status = k.status ||| 1 ∧
        ((u.tileH i.tile).copies.getD i.copy {}).base = k.top % 2 ^ 17 ∧
        ((u.tileH i.tile).copies.getD i.copy {}).depth = 0 ∧
        ((u.tileH i.tile).copies.getD i.copy {}).rsp = k.rsp - 48 ∧
        (((u.tileH i.tile).copies.getD i.copy {}).preds, ((u.tileH i.tile).copies.getD i.copy {}).lc, ((u.tileH i.tile).copies.getD i.copy {}).rc, ((u.tileH i.tile).copies.getD i.copy {}).file) = (k.preds, k.lc, k.rc, k.file) ∧
        ((((u.tileH i.tile).copies.getD i.copy {}).rsCache.find? fun q => q.addr == k.rsp - 48).map (fun q => bits q.lo 39 0) = some (k.pc % 2 ^ 40)) ∧
        ((((u.tileH i.tile).copies.getD i.copy {}).rsCache.find? fun q => q.addr == k.rsp - 32).map (fun q => (bits q.lo 13 0, bits q.lo 45 38, bits q.lo 51 46, bit q.lo 61)) = some (bits k.status 13 0, k.depth % 256, 3, false) ∧ (((u.tileH i.tile).copies.getD i.copy {}).rsCache.find? fun q => q.addr == k.rsp - 48).map (fun q => bits q.lo 63 60) = some (e % 16)) ∧
        (∀ x, x ≠ i.tile → u.tileH x = s.tileH x) :)
    ∧ (∀ (i : Issue) (d e : Nat) (g : Cap) (k : KCopy) (s : State), (Instr.ctie i d e).wf = true → s.calm = true → s.solo i (.ctie d e) = true → s.copyOf i = k → (s.kx i.tile i.copy).canEnter 3 g = true → (k.cap e).usable = true → (k.cap e).perm 5 = true → (k.cap e).ktype ≠ 0 → (k.cap d).usable = false →
      Completes (.ctie i d e) s fun u => 
        ((u.tileH i.tile).copies.getD i.copy {}).pc = g.base ∧
        ((u.tileH i.tile).copies.getD i.copy {}).cap 0 = g ∧
        ((u.tileH i.tile).copies.getD i.copy {}).status = k.status ||| 1 ∧
        ((u.tileH i.tile).copies.getD i.copy {}).base = k.top % 2 ^ 17 ∧
        ((u.tileH i.tile).copies.getD i.copy {}).depth = 0 ∧
        ((u.tileH i.tile).copies.getD i.copy {}).rsp = k.rsp - 48 ∧
        (((u.tileH i.tile).copies.getD i.copy {}).preds, ((u.tileH i.tile).copies.getD i.copy {}).lc, ((u.tileH i.tile).copies.getD i.copy {}).rc, ((u.tileH i.tile).copies.getD i.copy {}).file) = (k.preds, k.lc, k.rc, k.file) ∧
        ((((u.tileH i.tile).copies.getD i.copy {}).rsCache.find? fun q => q.addr == k.rsp - 48).map (fun q => bits q.lo 39 0) = some (k.pc % 2 ^ 40)) ∧
        ((((u.tileH i.tile).copies.getD i.copy {}).rsCache.find? fun q => q.addr == k.rsp - 32).map (fun q => (bits q.lo 13 0, bits q.lo 45 38, bits q.lo 51 46, bit q.lo 61)) = some (bits k.status 13 0, k.depth % 256, 3, false) ∧ (((u.tileH i.tile).copies.getD i.copy {}).rsCache.find? fun q => q.addr == k.rsp - 48).map (fun q => bits q.lo 63 60) = some (d % 16)) ∧
        (∀ x, x ≠ i.tile → u.tileH x = s.tileH x) :)
    ∧ (∀ (i : Issue) (d e : Nat) (k : KCopy) (s : State), (Instr.cuntie i d e).wf = true → s.calm = true → s.solo i (.cuntie d e) = true → s.copyOf i = k → (k.cap e).usable = true → (k.cap e).perm 6 = true → (k.cap d).tag = true → (k.cap d).knotted = true → (k.cap d).ktype = (k.cap e).ktype →
      Completes (.cuntie i d e) s fun u => 
        Took i s u ((k.after k.depth [] ((k.pc + 2 * (i.lits.length + 1)) % 2 ^ 40)).setCap d ((k.cap d).withKnot false 0)) :)
    ∧ (∀ (i : Issue) (d e : Nat) (g : Cap) (k : KCopy) (s : State), (Instr.cuntie i d e).wf = true → s.calm = true → s.solo i (.cuntie d e) = true → s.copyOf i = k → (s.kx i.tile i.copy).canEnter 3 g = true → ((k.cap e).usable = false ∨ (k.cap e).perm 6 = false) →
      Completes (.cuntie i d e) s fun u => 
        ((u.tileH i.tile).copies.getD i.copy {}).pc = g.base ∧
        ((u.tileH i.tile).copies.getD i.copy {}).cap 0 = g ∧
        ((u.tileH i.tile).copies.getD i.copy {}).status = k.status ||| 1 ∧
        ((u.tileH i.tile).copies.getD i.copy {}).base = k.top % 2 ^ 17 ∧
        ((u.tileH i.tile).copies.getD i.copy {}).depth = 0 ∧
        ((u.tileH i.tile).copies.getD i.copy {}).rsp = k.rsp - 48 ∧
        (((u.tileH i.tile).copies.getD i.copy {}).preds, ((u.tileH i.tile).copies.getD i.copy {}).lc, ((u.tileH i.tile).copies.getD i.copy {}).rc, ((u.tileH i.tile).copies.getD i.copy {}).file) = (k.preds, k.lc, k.rc, k.file) ∧
        ((((u.tileH i.tile).copies.getD i.copy {}).rsCache.find? fun q => q.addr == k.rsp - 48).map (fun q => bits q.lo 39 0) = some (k.pc % 2 ^ 40)) ∧
        ((((u.tileH i.tile).copies.getD i.copy {}).rsCache.find? fun q => q.addr == k.rsp - 32).map (fun q => (bits q.lo 13 0, bits q.lo 45 38, bits q.lo 51 46, bit q.lo 61)) = some (bits k.status 13 0, k.depth % 256, 3, false) ∧ (((u.tileH i.tile).copies.getD i.copy {}).rsCache.find? fun q => q.addr == k.rsp - 48).map (fun q => bits q.lo 63 60) = some (e % 16)) ∧
        (∀ x, x ≠ i.tile → u.tileH x = s.tileH x) :)
    ∧ (∀ (i : Issue) (d e : Nat) (g : Cap) (k : KCopy) (s : State), (Instr.cuntie i d e).wf = true → s.calm = true → s.solo i (.cuntie d e) = true → s.copyOf i = k → (s.kx i.tile i.copy).canEnter 3 g = true → (k.cap e).usable = true → (k.cap e).perm 6 = true → ((k.cap d).tag = false ∨ (k.cap d).knotted = false) →
      Completes (.cuntie i d e) s fun u => 
        ((u.tileH i.tile).copies.getD i.copy {}).pc = g.base ∧
        ((u.tileH i.tile).copies.getD i.copy {}).cap 0 = g ∧
        ((u.tileH i.tile).copies.getD i.copy {}).status = k.status ||| 1 ∧
        ((u.tileH i.tile).copies.getD i.copy {}).base = k.top % 2 ^ 17 ∧
        ((u.tileH i.tile).copies.getD i.copy {}).depth = 0 ∧
        ((u.tileH i.tile).copies.getD i.copy {}).rsp = k.rsp - 48 ∧
        (((u.tileH i.tile).copies.getD i.copy {}).preds, ((u.tileH i.tile).copies.getD i.copy {}).lc, ((u.tileH i.tile).copies.getD i.copy {}).rc, ((u.tileH i.tile).copies.getD i.copy {}).file) = (k.preds, k.lc, k.rc, k.file) ∧
        ((((u.tileH i.tile).copies.getD i.copy {}).rsCache.find? fun q => q.addr == k.rsp - 48).map (fun q => bits q.lo 39 0) = some (k.pc % 2 ^ 40)) ∧
        ((((u.tileH i.tile).copies.getD i.copy {}).rsCache.find? fun q => q.addr == k.rsp - 32).map (fun q => (bits q.lo 13 0, bits q.lo 45 38, bits q.lo 51 46, bit q.lo 61)) = some (bits k.status 13 0, k.depth % 256, 3, false) ∧ (((u.tileH i.tile).copies.getD i.copy {}).rsCache.find? fun q => q.addr == k.rsp - 48).map (fun q => bits q.lo 63 60) = some (d % 16)) ∧
        (∀ x, x ≠ i.tile → u.tileH x = s.tileH x) :)
    ∧ (∀ (i : Issue) (d e : Nat) (g : Cap) (k : KCopy) (s : State), (Instr.cuntie i d e).wf = true → s.calm = true → s.solo i (.cuntie d e) = true → s.copyOf i = k → (s.kx i.tile i.copy).canEnter 3 g = true → (k.cap e).usable = true → (k.cap e).perm 6 = true → (k.cap d).tag = true → (k.cap d).knotted = true → (k.cap d).ktype ≠ (k.cap e).ktype →
      Completes (.cuntie i d e) s fun u => 
        ((u.tileH i.tile).copies.getD i.copy {}).pc = g.base ∧
        ((u.tileH i.tile).copies.getD i.copy {}).cap 0 = g ∧
        ((u.tileH i.tile).copies.getD i.copy {}).status = k.status ||| 1 ∧
        ((u.tileH i.tile).copies.getD i.copy {}).base = k.top % 2 ^ 17 ∧
        ((u.tileH i.tile).copies.getD i.copy {}).depth = 0 ∧
        ((u.tileH i.tile).copies.getD i.copy {}).rsp = k.rsp - 48 ∧
        (((u.tileH i.tile).copies.getD i.copy {}).preds, ((u.tileH i.tile).copies.getD i.copy {}).lc, ((u.tileH i.tile).copies.getD i.copy {}).rc, ((u.tileH i.tile).copies.getD i.copy {}).file) = (k.preds, k.lc, k.rc, k.file) ∧
        ((((u.tileH i.tile).copies.getD i.copy {}).rsCache.find? fun q => q.addr == k.rsp - 48).map (fun q => bits q.lo 39 0) = some (k.pc % 2 ^ 40)) ∧
        ((((u.tileH i.tile).copies.getD i.copy {}).rsCache.find? fun q => q.addr == k.rsp - 32).map (fun q => (bits q.lo 13 0, bits q.lo 45 38, bits q.lo 51 46, bit q.lo 61)) = some (bits k.status 13 0, k.depth % 256, 3, false) ∧ (((u.tileH i.tile).copies.getD i.copy {}).rsCache.find? fun q => q.addr == k.rsp - 48).map (fun q => bits q.lo 63 60) = some (e % 16)) ∧
        (∀ x, x ≠ i.tile → u.tileH x = s.tileH x) :)
    ∧ (∀ (i : Issue) (n : Nat) (k : KCopy) (s : State), (Instr.cvoid i n).wf = true → s.calm = true → s.solo i (.cvoid n) = true → s.copyOf i = k →
      Completes (.cvoid i n) s fun u => 
        Took i s u ((k.after k.depth [] ((k.pc + 2 * (i.lits.length + 1)) % 2 ^ 40)).setCap n {}) :)
    ∧ (∀ (i : Issue) (n : Nat) (k : KCopy) (s : State), (Instr.cread i 0 n).wf = true → s.calm = true → s.solo i (.cread 0 n) = true → s.copyOf i = k →
      Completes (.cread i 0 n) s fun u => 
        Took i s u (k.after (k.depth + 2) [(k.top, (k.cap n).base % 2 ^ 32, false), (k.top + 1, (k.cap n).base / 2 ^ 32, false)] ((k.pc + 2 * (i.lits.length + 1)) % 2 ^ 40)) :)
    ∧ (∀ (i : Issue) (n : Nat) (k : KCopy) (s : State), (Instr.cread i 1 n).wf = true → s.calm = true → s.solo i (.cread 1 n) = true → s.copyOf i = k →
      Completes (.cread i 1 n) s fun u => 
        Took i s u (k.after (k.depth + 2) [(k.top, (k.cap n).len % 2 ^ 32, false), (k.top + 1, (k.cap n).len / 2 ^ 32, false)] ((k.pc + 2 * (i.lits.length + 1)) % 2 ^ 40)) :)
    ∧ (∀ (i : Issue) (n : Nat) (k : KCopy) (s : State), (Instr.cread i 2 n).wf = true → s.calm = true → s.solo i (.cread 2 n) = true → s.copyOf i = k →
      Completes (.cread i 2 n) s fun u => 
        Took i s u (k.after (k.depth + 1) [(k.top, (k.cap n).perms, false)] ((k.pc + 2 * (i.lits.length + 1)) % 2 ^ 40)) :)
    ∧ (∀ (i : Issue) (n : Nat) (k : KCopy) (s : State), (Instr.cread i 3 n).wf = true → s.calm = true → s.solo i (.cread 3 n) = true → s.copyOf i = k →
      Completes (.cread i 3 n) s fun u => 
        Took i s u (k.after (k.depth + 1) [(k.top, (k.cap n).ktype, false)] ((k.pc + 2 * (i.lits.length + 1)) % 2 ^ 40)) :)
    ∧ (∀ (i : Issue) (n : Nat) (k : KCopy) (s : State), (Instr.cread i 4 n).wf = true → s.calm = true → s.solo i (.cread 4 n) = true → s.copyOf i = k →
      Completes (.cread i 4 n) s fun u => 
        (Took i s u (k.after (k.depth + 1) [(k.top, (if (k.cap n).tag then 1 else 0), false)] ((k.pc + 2 * (i.lits.length + 1)) % 2 ^ 40))) :)
    ∧ (∀ (i : Issue) (n : Nat) (k : KCopy) (s : State), (Instr.cread i 5 n).wf = true → s.calm = true → s.solo i (.cread 5 n) = true → s.copyOf i = k →
      Completes (.cread i 5 n) s fun u => 
        (Took i s u (k.after (k.depth + 1) [(k.top, (if (k.cap n).knotted then 1 else 0), false)] ((k.pc + 2 * (i.lits.length + 1)) % 2 ^ 40))) :)
    ∧ (∀ (i : Issue) (f n : Nat) (g : Cap) (k : KCopy) (s : State), (Instr.cread i f n).wf = true → s.calm = true → s.solo i (.cread 2 n) = true → s.copyOf i = k → (s.kx i.tile i.copy).canEnter 1 g = true → 6 ≤ f →
      Completes (.cread i f n) s fun u => 
        ((u.tileH i.tile).copies.getD i.copy {}).pc = g.base ∧
        ((u.tileH i.tile).copies.getD i.copy {}).cap 0 = g ∧
        ((u.tileH i.tile).copies.getD i.copy {}).status = k.status ||| 1 ∧
        ((u.tileH i.tile).copies.getD i.copy {}).base = k.top % 2 ^ 17 ∧
        ((u.tileH i.tile).copies.getD i.copy {}).depth = 0 ∧
        ((u.tileH i.tile).copies.getD i.copy {}).rsp = k.rsp - 48 ∧
        (((u.tileH i.tile).copies.getD i.copy {}).preds, ((u.tileH i.tile).copies.getD i.copy {}).lc, ((u.tileH i.tile).copies.getD i.copy {}).rc, ((u.tileH i.tile).copies.getD i.copy {}).file) = (k.preds, k.lc, k.rc, k.file) ∧
        ((((u.tileH i.tile).copies.getD i.copy {}).rsCache.find? fun q => q.addr == k.rsp - 48).map (fun q => bits q.lo 39 0) = some (k.pc % 2 ^ 40)) ∧
        ((((u.tileH i.tile).copies.getD i.copy {}).rsCache.find? fun q => q.addr == k.rsp - 32).map (fun q => (bits q.lo 13 0, bits q.lo 45 38, bits q.lo 51 46, bit q.lo 61)) = some (bits k.status 13 0, k.depth % 256, 1, false) ∧ (((u.tileH i.tile).copies.getD i.copy {}).rsCache.find? fun q => q.addr == k.rsp - 48).map (fun q => bits q.lo 63 60) = some (0 % 16)) ∧
        (∀ x, x ≠ i.tile → u.tileH x = s.tileH x) :)

/-- WAITW takes the head release entry and pushes its four words, now or when one comes, and waits while none does; MBXR takes the oldest mailbox word, or pushes 0, and says which in Pn; a checked core journals both. SEND queues its bytes as one cell: in the output commit buffer of a checked core, else at its stream’s source; a copy that does not own the stream and a stream without an entry have it counted, and a length of 0 sends nothing. TFESUB queues the submission. SYNCF empties the return-stack cache, the line buffers and the BTB; CAIRN makes a cairn due in a checked core and does nothing in another. A capability that permits no read, a cell of more than 48 bytes and bytes past the capability enter the exception of that name. -/
def Obligations.KolotteInputs : Prop :=
    (∀ (i : Issue) (r : RelEntry) (rest : List RelEntry) (k : KCopy) (s : State), (Instr.waitw i).wf = true → s.calm = true → s.solo i (.waitw) = true → s.copyOf i = k → (s.tileH i.tile).rq = r :: rest → ¬((s.tileH i.tile).mode ≤ 1 ∧ i.copy = 0) →
      Completes (.waitw i) s fun u => 
        (u.copyOf i).bare = (k.after (k.depth + 4) [(k.top, r.w0.toNat % 2 ^ 32, false), (k.top + 1, r.w0.toNat / 2 ^ 32, false), (k.top + 2, r.w1.toNat % 2 ^ 32, false), (k.top + 3, r.w1.toNat / 2 ^ 32, false)] ((k.pc + 2 * (i.lits.length + 1)) % 2 ^ 40)).bare ∧ (u.tileH i.tile).copies = setAt (s.tileH i.tile).copies i.copy (u.copyOf i) ∧
        (u.tileH i.tile).rq = rest ∧
        (({ (u.tileH i.tile) with copies := [], bundles := 0, due := none, bound := none, lastDue := 0, port := [], rq := [] } : TileH) = { (s.tileH i.tile) with copies := [], bundles := 0, due := none, bound := none, lastDue := 0, port := [], rq := [] }) ∧
        RegsOnly [pgTile i.tile] s u ∧
        (∀ x, x ≠ i.tile → u.tileH x = s.tileH x) ∧
        ({ u with regs := s.regs, tiles := s.tiles, hot := s.hot } = s) :)
    ∧ (∀ (i : Issue) (r : RelEntry) (rest : List RelEntry) (k : KCopy) (s : State), (Instr.waitw i).wf = true → s.calm = true → s.solo i (.waitw) = true → s.copyOf i = k → (s.tileH i.tile).rq = r :: rest → ((s.tileH i.tile).mode ≤ 1 ∧ i.copy = 0) →
      Completes (.waitw i) s fun u => 
        (u.copyOf i).bare = (k.after (k.depth + 4) [(k.top, r.w0.toNat % 2 ^ 32, false), (k.top + 1, r.w0.toNat / 2 ^ 32, false), (k.top + 2, r.w1.toNat % 2 ^ 32, false), (k.top + 3, r.w1.toNat / 2 ^ 32, false)] ((k.pc + 2 * (i.lits.length + 1)) % 2 ^ 40)).bare ∧ (u.tileH i.tile).copies = setAt (s.tileH i.tile).copies i.copy (u.copyOf i) ∧
        (u.tileH i.tile).rq = rest ∧
        (u.tileH i.tile).jrn = (s.tileH i.tile).jrn ++ [⟨1, 0, (r.w0.toNat + r.w1.toNat * 2 ^ 64), false, (s.tileH i.tile).bundles⟩] ∧
        (({ (u.tileH i.tile) with copies := [], bundles := 0, due := none, bound := none, lastDue := 0, port := [], rq := [], jrn := [] } : TileH) = { (s.tileH i.tile) with copies := [], bundles := 0, due := none, bound := none, lastDue := 0, port := [], rq := [], jrn := [] }) ∧
        RegsOnly [pgTile i.tile] s u ∧
        (∀ x, x ≠ i.tile → u.tileH x = s.tileH x) ∧
        ({ u with regs := s.regs, tiles := s.tiles, hot := s.hot } = s) :)
    ∧ (∀ (i : Issue) (k : KCopy) (s : State), (Instr.waitw i).wf = true → s.calm = true → s.solo i (.waitw) = true → s.copyOf i = k → (s.tileH i.tile).rq = [] →
      Completes (.waitw i) s fun u => 
        (u.copyOf i).bare = (({ k with waiting := some { lits := i.lits, ops := [.waitw] } } : KCopy)).bare ∧ (u.tileH i.tile).copies = setAt (s.tileH i.tile).copies i.copy (u.copyOf i) ∧
        (({ (u.tileH i.tile) with copies := [], bundles := 0, due := none, bound := none, lastDue := 0, port := [], mode := 0 } : TileH) = { (s.tileH i.tile) with copies := [], bundles := 0, due := none, bound := none, lastDue := 0, port := [], mode := 0 }) ∧
        RegsOnly [pgTile i.tile] s u ∧
        (∀ x, x ≠ i.tile → u.tileH x = s.tileH x) ∧
        ({ u with regs := s.regs, tiles := s.tiles, hot := s.hot } = s) :)
    ∧ (∀ (i : Issue) (k : KCopy) (r : RelEntry) (rest : List RelEntry) (s : State), (Instr.waitwRelease i.tile i.copy).wf = true → s.calm = true → i.lits = [] → s.copyOf i = { k with waiting := some { ops := [.waitw] } } → k.waiting = none → (s.setTile i.tile { (s.tileH i.tile) with copies := setAt (s.tileH i.tile).copies i.copy k }).solo i .waitw = true → (s.tileH i.tile).rq = r :: rest → ¬((s.tileH i.tile).mode ≤ 1 ∧ i.copy = 0) →
      Completes (.waitwRelease i.tile i.copy) s fun u => 
        (u.copyOf i).bare = (k.after (k.depth + 4) [(k.top, r.w0.toNat % 2 ^ 32, false), (k.top + 1, r.w0.toNat / 2 ^ 32, false), (k.top + 2, r.w1.toNat % 2 ^ 32, false), (k.top + 3, r.w1.toNat / 2 ^ 32, false)] ((k.pc + 2 * (i.lits.length + 1)) % 2 ^ 40)).bare ∧ (u.tileH i.tile).copies = setAt (s.tileH i.tile).copies i.copy (u.copyOf i) ∧
        (u.tileH i.tile).rq = rest ∧
        (({ (u.tileH i.tile) with copies := [], bundles := 0, due := none, bound := none, lastDue := 0, port := [], rq := [] } : TileH) = { (s.tileH i.tile) with copies := [], bundles := 0, due := none, bound := none, lastDue := 0, port := [], rq := [] }) ∧
        RegsOnly [pgTile i.tile] s u ∧
        (∀ x, x ≠ i.tile → u.tileH x = s.tileH x) ∧
        ({ u with regs := s.regs, tiles := s.tiles, hot := s.hot } = s) :)
    ∧ (∀ (i : Issue) (k : KCopy) (r : RelEntry) (rest : List RelEntry) (s : State), (Instr.waitwRelease i.tile i.copy).wf = true → s.calm = true → i.lits = [] → s.copyOf i = { k with waiting := some { ops := [.waitw] } } → k.waiting = none → (s.setTile i.tile { (s.tileH i.tile) with copies := setAt (s.tileH i.tile).copies i.copy k }).solo i .waitw = true → (s.tileH i.tile).rq = r :: rest → ((s.tileH i.tile).mode ≤ 1 ∧ i.copy = 0) →
      Completes (.waitwRelease i.tile i.copy) s fun u => 
        (u.copyOf i).bare = (k.after (k.depth + 4) [(k.top, r.w0.toNat % 2 ^ 32, false), (k.top + 1, r.w0.toNat / 2 ^ 32, false), (k.top + 2, r.w1.toNat % 2 ^ 32, false), (k.top + 3, r.w1.toNat / 2 ^ 32, false)] ((k.pc + 2 * (i.lits.length + 1)) % 2 ^ 40)).bare ∧ (u.tileH i.tile).copies = setAt (s.tileH i.tile).copies i.copy (u.copyOf i) ∧
        (u.tileH i.tile).rq = rest ∧
        (u.tileH i.tile).jrn = (s.tileH i.tile).jrn ++ [⟨1, 0, (r.w0.toNat + r.w1.toNat * 2 ^ 64), false, (s.tileH i.tile).bundles⟩] ∧
        (({ (u.tileH i.tile) with copies := [], bundles := 0, due := none, bound := none, lastDue := 0, port := [], rq := [], jrn := [] } : TileH) = { (s.tileH i.tile) with copies := [], bundles := 0, due := none, bound := none, lastDue := 0, port := [], rq := [], jrn := [] }) ∧
        RegsOnly [pgTile i.tile] s u ∧
        (∀ x, x ≠ i.tile → u.tileH x = s.tileH x) ∧
        ({ u with regs := s.regs, tiles := s.tiles, hot := s.hot } = s) :)
    ∧ (∀ (i : Issue) (k : KCopy) (s : State), (Instr.waitwRelease i.tile i.copy).wf = true → s.calm = true → i.lits = [] → s.copyOf i = { k with waiting := some { ops := [.waitw] } } → k.waiting = none → (s.setTile i.tile { (s.tileH i.tile) with copies := setAt (s.tileH i.tile).copies i.copy k }).solo i .waitw = true → (s.tileH i.tile).rq = [] →
      Completes (.waitwRelease i.tile i.copy) s fun u => 
        (u.copyOf i).bare = (({ k with waiting := some { lits := i.lits, ops := [.waitw] } } : KCopy)).bare ∧ (u.tileH i.tile).copies = setAt (s.tileH i.tile).copies i.copy (u.copyOf i) ∧
        (({ (u.tileH i.tile) with copies := [], bundles := 0, due := none, bound := none, lastDue := 0, port := [], mode := 0 } : TileH) = { (s.tileH i.tile) with copies := [], bundles := 0, due := none, bound := none, lastDue := 0, port := [], mode := 0 }) ∧
        RegsOnly [pgTile i.tile] s u ∧
        (∀ x, x ≠ i.tile → u.tileH x = s.tileH x) ∧
        ({ u with regs := s.regs, tiles := s.tiles, hot := s.hot } = s) :)
    ∧ (∀ (tile copy : Nat) (s : State), (Instr.waitwRelease tile copy).wf = true → s.calm = true → s.kCan tile copy = false ∨ ((s.tileH tile).copies.getD copy {}).waiting = none →
      Completes (.waitwRelease tile copy) s fun u => 
        u = s :)
    ∧ (∀ (i : Issue) (n : Nat) (k : KCopy) (s : State), (Instr.mbxr i n).wf = true → s.calm = true → s.solo i (.mbxr n) = true → s.copyOf i = k → (s.tileH i.tile).mbox = [] → ¬((s.tileH i.tile).mode ≤ 1 ∧ i.copy = 0) →
      Completes (.mbxr i n) s fun u => 
        (Took i s u (({ k.after (k.depth + 2) [(k.top, 0, false), (k.top + 1, 0, false)] ((k.pc + 2 * (i.lits.length + 1)) % 2 ^ 40) with preds := if n = 0 then k.preds else setBit k.preds n false } : KCopy))) :)
    ∧ (∀ (i : Issue) (n : Nat) (k : KCopy) (s : State), (Instr.mbxr i n).wf = true → s.calm = true → s.solo i (.mbxr n) = true → s.copyOf i = k → (s.tileH i.tile).mbox = [] → ((s.tileH i.tile).mode ≤ 1 ∧ i.copy = 0) →
      Completes (.mbxr i n) s fun u => 
        ((u.copyOf i).bare = (({ k.after (k.depth + 2) [(k.top, 0, false), (k.top + 1, 0, false)] ((k.pc + 2 * (i.lits.length + 1)) % 2 ^ 40) with lat := [(k.top, 0), (k.top + 1, 0)], preds := if n = 0 then k.preds else setBit k.preds n false } : KCopy)).bare ∧ (u.tileH i.tile).copies = setAt (s.tileH i.tile).copies i.copy (u.copyOf i)) ∧
        (u.tileH i.tile).jrn = (s.tileH i.tile).jrn ++ [⟨2, 0, 0, false, (s.tileH i.tile).bundles⟩] ∧
        (({ (u.tileH i.tile) with copies := [], bundles := 0, due := none, bound := none, lastDue := 0, port := [], jrn := [] } : TileH) = { (s.tileH i.tile) with copies := [], bundles := 0, due := none, bound := none, lastDue := 0, port := [], jrn := [] }) ∧
        RegsOnly [pgTile i.tile] s u ∧
        (∀ x, x ≠ i.tile → u.tileH x = s.tileH x) ∧
        ({ u with regs := s.regs, tiles := s.tiles, hot := s.hot } = s) :)
    ∧ (∀ (i : Issue) (n v : Nat) (vp : Bool) (rest : List (Nat × Bool)) (k : KCopy) (s : State), (Instr.mbxr i n).wf = true → s.calm = true → s.solo i (.mbxr n) = true → s.copyOf i = k → (s.tileH i.tile).mbox = (v, vp) :: rest → v < 2 ^ 64 → ¬((s.tileH i.tile).mode ≤ 1 ∧ i.copy = 0) →
      Completes (.mbxr i n) s fun u => 
        ((u.copyOf i).bare = (({ k.after (k.depth + 2) [(k.top, v % 2 ^ 32, vp), (k.top + 1, v / 2 ^ 32, vp)] ((k.pc + 2 * (i.lits.length + 1)) % 2 ^ 40) with preds := if n = 0 then k.preds else setBit k.preds n true } : KCopy)).bare ∧ (u.tileH i.tile).copies = setAt (s.tileH i.tile).copies i.copy (u.copyOf i)) ∧
        (u.tileH i.tile).mbox = rest ∧
        (({ (u.tileH i.tile) with copies := [], bundles := 0, due := none, bound := none, lastDue := 0, port := [], mbox := [] } : TileH) = { (s.tileH i.tile) with copies := [], bundles := 0, due := none, bound := none, lastDue := 0, port := [], mbox := [] }) ∧
        RegsOnly [pgTile i.tile] s u ∧
        (∀ x, x ≠ i.tile → u.tileH x = s.tileH x) ∧
        ({ u with regs := s.regs, tiles := s.tiles, hot := s.hot } = s) :)
    ∧ (∀ (i : Issue) (n v : Nat) (vp : Bool) (rest : List (Nat × Bool)) (k : KCopy) (s : State), (Instr.mbxr i n).wf = true → s.calm = true → s.solo i (.mbxr n) = true → s.copyOf i = k → (s.tileH i.tile).mbox = (v, vp) :: rest → v < 2 ^ 64 → ((s.tileH i.tile).mode ≤ 1 ∧ i.copy = 0) →
      Completes (.mbxr i n) s fun u => 
        ((u.copyOf i).bare = (({ k.after (k.depth + 2) [(k.top, v % 2 ^ 32, vp), (k.top + 1, v / 2 ^ 32, vp)] ((k.pc + 2 * (i.lits.length + 1)) % 2 ^ 40) with preds := if n = 0 then k.preds else setBit k.preds n true } : KCopy)).bare ∧ (u.tileH i.tile).copies = setAt (s.tileH i.tile).copies i.copy (u.copyOf i)) ∧
        (u.tileH i.tile).mbox = rest ∧
        (u.tileH i.tile).jrn = (s.tileH i.tile).jrn ++ [⟨2, 0, v + 2 ^ 64, vp, (s.tileH i.tile).bundles⟩] ∧
        (({ (u.tileH i.tile) with copies := [], bundles := 0, due := none, bound := none, lastDue := 0, port := [], mbox := [], jrn := [] } : TileH) = { (s.tileH i.tile) with copies := [], bundles := 0, due := none, bound := none, lastDue := 0, port := [], mbox := [], jrn := [] }) ∧
        RegsOnly [pgTile i.tile] s u ∧
        (∀ x, x ≠ i.tile → u.tileH x = s.tileH x) ∧
        ({ u with regs := s.regs, tiles := s.tiles, hot := s.hot } = s) :)
    ∧ (∀ (i : Issue) (n st : Nat) (k : KCopy) (o : Nat) (op : Bool) (l : Nat) (lp : Bool) (s : State), (Instr.send i n st).wf = true → s.calm = true → s.solo i (.send n st) = true → s.copyOf i = k → k.entry (k.top - 2) = (o, op) → o < 2 ^ 32 → k.entry (k.top - 1) = (l, lp) → l < 2 ^ 32 → lp = false → l = 0 →
      Completes (.send i n st) s fun u => 
        Took i s u (k.after (k.depth - 2) [] ((k.pc + 2 * (i.lits.length + 1)) % 2 ^ 40)) :)
    ∧ (∀ (i : Issue) (n st v : Nat) (k : KCopy) (o : Nat) (op : Bool) (l : Nat) (lp : Bool) (s : State), (Instr.send i n st).wf = true → s.calm = true → s.solo i (.send n st) = true → s.copyOf i = k → k.entry (k.top - 2) = (o, op) → o < 2 ^ 32 → k.entry (k.top - 1) = (l, lp) → l < 2 ^ 32 → op = false → lp = false → 0 < l → l ≤ 48 → (k.cap n).usable = true → (k.cap n).perm 0 = true → (k.cap n).covers ((k.cap n).base + o) l = true → inOwn ((k.cap n).base + o) l = true → (s.kx i.tile i.copy).pairBad ((k.cap n).base + o) l false = none → (s.kx i.tile i.copy).readsFree ((k.cap n).base + o) l = false → (((s.tileH i.tile).copies.zipIdx.all fun q => q.2 == i.copy || q.1.sb.isEmpty) = true) → k.sb = [] → s.rdMem (physOf i.tile ((k.cap n).base + o)) l = ((v, false), s) → ((s.tileH i.tile).mode ≤ 1 ∧ i.copy = 0) →
      Completes (.send i n st) s fun u => 
        (u.copyOf i).bare = (k.after (k.depth - 2) [] ((k.pc + 2 * (i.lits.length + 1)) % 2 ^ 40)).bare ∧ (u.tileH i.tile).copies = setAt (s.tileH i.tile).copies i.copy (u.copyOf i) ∧
        (u.tileH i.tile).ocb = (s.tileH i.tile).ocb ++ [⟨2, 0, st, l, v, 0, false, (s.tileH i.tile).mode⟩] ∧
        (({ (u.tileH i.tile) with copies := [], bundles := 0, due := none, bound := none, lastDue := 0, port := [], ocb := [] } : TileH) = { (s.tileH i.tile) with copies := [], bundles := 0, due := none, bound := none, lastDue := 0, port := [], ocb := [] }) ∧
        RegsOnly [pgTile i.tile] s u ∧
        (∀ x, x ≠ i.tile → u.tileH x = s.tileH x) ∧
        ({ u with regs := s.regs, tiles := s.tiles, hot := s.hot } = s) :)
    ∧ (∀ (i : Issue) (n st v e : Nat) (k : KCopy) (o : Nat) (op : Bool) (l : Nat) (lp : Bool) (s : State), (Instr.send i n st).wf = true → s.calm = true → s.solo i (.send n st) = true → s.copyOf i = k → k.entry (k.top - 2) = (o, op) → o < 2 ^ 32 → k.entry (k.top - 1) = (l, lp) → l < 2 ^ 32 → op = false → lp = false → 0 < l → l ≤ 48 → (k.cap n).usable = true → (k.cap n).perm 0 = true → (k.cap n).covers ((k.cap n).base + o) l = true → inOwn ((k.cap n).base + o) l = true → (s.kx i.tile i.copy).pairBad ((k.cap n).base + o) l false = none → (s.kx i.tile i.copy).readsFree ((k.cap n).base + o) l = false → (((s.tileH i.tile).copies.zipIdx.all fun q => q.2 == i.copy || q.1.sb.isEmpty) = true) → k.sb = [] → s.rdMem (physOf i.tile ((k.cap n).base + o)) l = ((v, false), s) → ¬((s.tileH i.tile).mode ≤ 1 ∧ i.copy = 0) → ownsStream (s.tileH i.tile).mode i.copy st = true → s.entryOf (srcKey 3 (tileSel i.tile st)) = some e → s.queue (srcKey 3 (tileSel i.tile st)) = [] →
      Completes (.send i n st) s fun u => 
        (u.copyOf i).bare = (k.after (k.depth - 2) [] ((k.pc + 2 * (i.lits.length + 1)) % 2 ^ 40)).bare ∧ (u.tileH i.tile).copies = setAt (s.tileH i.tile).copies i.copy (u.copyOf i) ∧
        u.queue (srcKey 3 (tileSel i.tile st)) = [{ raw := true, nvalid := l, payload := v, pois := 0, count := 1, acceptedAt := s.now }] ∧
        (∀ x, x ≠ (srcKey 3 (tileSel i.tile st)) → u.queue x = s.queue x) ∧
        (({ (u.tileH i.tile) with copies := [], bundles := 0, due := none, bound := none, lastDue := 0, port := [], stall := false } : TileH) = { (s.tileH i.tile) with copies := [], bundles := 0, due := none, bound := none, lastDue := 0, port := [], stall := false }) ∧
        RegsOnly [pgTile i.tile] s u ∧
        (∀ x, x ≠ i.tile → u.tileH x = s.tileH x) ∧
        ({ u with regs := s.regs, tiles := s.tiles, hot := s.hot, srcQ := s.srcQ } = s) :)
    ∧ (∀ (i : Issue) (n st v : Nat) (k : KCopy) (o : Nat) (op : Bool) (l : Nat) (lp : Bool) (s : State), (Instr.send i n st).wf = true → s.calm = true → s.solo i (.send n st) = true → s.copyOf i = k → k.entry (k.top - 2) = (o, op) → o < 2 ^ 32 → k.entry (k.top - 1) = (l, lp) → l < 2 ^ 32 → op = false → lp = false → 0 < l → l ≤ 48 → (k.cap n).usable = true → (k.cap n).perm 0 = true → (k.cap n).covers ((k.cap n).base + o) l = true → inOwn ((k.cap n).base + o) l = true → (s.kx i.tile i.copy).pairBad ((k.cap n).base + o) l false = none → (s.kx i.tile i.copy).readsFree ((k.cap n).base + o) l = false → (((s.tileH i.tile).copies.zipIdx.all fun q => q.2 == i.copy || q.1.sb.isEmpty) = true) → k.sb = [] → s.rdMem (physOf i.tile ((k.cap n).base + o)) l = ((v, false), s) → ¬((s.tileH i.tile).mode ≤ 1 ∧ i.copy = 0) → ownsStream (s.tileH i.tile).mode i.copy st = true → s.entryOf (srcKey 3 (tileSel i.tile st)) = none → s.queue (srcKey 3 (tileSel i.tile st)) = [] →
      Completes (.send i n st) s fun u => 
        (u.copyOf i).bare = (k.after (k.depth - 2) [] ((k.pc + 2 * (i.lits.length + 1)) % 2 ^ 40)).bare ∧ (u.tileH i.tile).copies = setAt (s.tileH i.tile).copies i.copy (u.copyOf i) ∧
        u.rd pgStr 0x054 = min 0xFFFFFFFF (s.rd pgStr 0x054 + 1) ∧
        RegsOnly [pgTile i.tile, pgStr] s u ∧
        (∀ y, y < 4096 → y ≠ 0x054 → u.rd pgStr y = s.rd pgStr y) ∧
        (({ (u.tileH i.tile) with copies := [], bundles := 0, due := none, bound := none, lastDue := 0, port := [], stall := false } : TileH) = { (s.tileH i.tile) with copies := [], bundles := 0, due := none, bound := none, lastDue := 0, port := [], stall := false }) ∧
        (∀ x, x ≠ i.tile → u.tileH x = s.tileH x) ∧
        ({ u with regs := s.regs, tiles := s.tiles, hot := s.hot } = s) :)
    ∧ (∀ (i : Issue) (n st v : Nat) (k : KCopy) (o : Nat) (op : Bool) (l : Nat) (lp : Bool) (s : State), (Instr.send i n st).wf = true → s.calm = true → s.solo i (.send n st) = true → s.copyOf i = k → k.entry (k.top - 2) = (o, op) → o < 2 ^ 32 → k.entry (k.top - 1) = (l, lp) → l < 2 ^ 32 → op = false → lp = false → 0 < l → l ≤ 48 → (k.cap n).usable = true → (k.cap n).perm 0 = true → (k.cap n).covers ((k.cap n).base + o) l = true → inOwn ((k.cap n).base + o) l = true → (s.kx i.tile i.copy).pairBad ((k.cap n).base + o) l false = none → (s.kx i.tile i.copy).readsFree ((k.cap n).base + o) l = false → (((s.tileH i.tile).copies.zipIdx.all fun q => q.2 == i.copy || q.1.sb.isEmpty) = true) → k.sb = [] → s.rdMem (physOf i.tile ((k.cap n).base + o)) l = ((v, false), s) → ¬((s.tileH i.tile).mode ≤ 1 ∧ i.copy = 0) → ownsStream (s.tileH i.tile).mode i.copy st = false → s.queue (srcKey 3 (tileSel i.tile st)) = [] →
      Completes (.send i n st) s fun u => 
        (u.copyOf i).bare = (k.after (k.depth - 2) [] ((k.pc + 2 * (i.lits.length + 1)) % 2 ^ 40)).bare ∧ (u.tileH i.tile).copies = setAt (s.tileH i.tile).copies i.copy (u.copyOf i) ∧
        u.rd pgStr 0x054 = min 0xFFFFFFFF (s.rd pgStr 0x054 + 1) ∧
        RegsOnly [pgTile i.tile, pgStr] s u ∧
        (∀ y, y < 4096 → y ≠ 0x054 → u.rd pgStr y = s.rd pgStr y) ∧
        (({ (u.tileH i.tile) with copies := [], bundles := 0, due := none, bound := none, lastDue := 0, port := [], stall := false } : TileH) = { (s.tileH i.tile) with copies := [], bundles := 0, due := none, bound := none, lastDue := 0, port := [], stall := false }) ∧
        (∀ x, x ≠ i.tile → u.tileH x = s.tileH x) ∧
        ({ u with regs := s.regs, tiles := s.tiles, hot := s.hot } = s) :)
    ∧ (∀ (i : Issue) (n st v : Nat) (k : KCopy) (o : Nat) (op : Bool) (l : Nat) (lp : Bool) (s : State), (Instr.send i n st).wf = true → s.calm = true → s.solo i (.send n st) = true → s.copyOf i = k → k.entry (k.top - 2) = (o, op) → o < 2 ^ 32 → k.entry (k.top - 1) = (l, lp) → l < 2 ^ 32 → op = false → lp = false → 0 < l → l ≤ 48 → (k.cap n).usable = true → (k.cap n).perm 0 = true → (k.cap n).covers ((k.cap n).base + o) l = true → inOwn ((k.cap n).base + o) l = true → (s.kx i.tile i.copy).pairBad ((k.cap n).base + o) l false = none → (s.kx i.tile i.copy).readsFree ((k.cap n).base + o) l = false → (((s.tileH i.tile).copies.zipIdx.all fun q => q.2 == i.copy || q.1.sb.isEmpty) = true) → k.sb = [] → s.rdMem (physOf i.tile ((k.cap n).base + o)) l = ((v, false), s) → ¬((s.tileH i.tile).mode ≤ 1 ∧ i.copy = 0) → ownsStream (s.tileH i.tile).mode i.copy st = true → s.queue (srcKey 3 (tileSel i.tile st)) ≠ [] →
      Completes (.send i n st) s fun u => 
        (u.copyOf i).bare = (k.after (k.depth - 2) [] ((k.pc + 2 * (i.lits.length + 1)) % 2 ^ 40)).bare ∧ (u.tileH i.tile).copies = setAt (s.tileH i.tile).copies i.copy (u.copyOf i) ∧
        (u.tileH i.tile).outQ = (s.tileH i.tile).outQ ++ [⟨2, i.copy, st, l, v, 0, false, (s.tileH i.tile).mode⟩] ∧
        u.srcQ = s.srcQ ∧
        (({ (u.tileH i.tile) with copies := [], bundles := 0, due := none, bound := none, lastDue := 0, port := [], outQ := [], stall := false } : TileH) = { (s.tileH i.tile) with copies := [], bundles := 0, due := none, bound := none, lastDue := 0, port := [], outQ := [], stall := false }) ∧
        (∀ x, x ≠ i.tile → u.tileH x = s.tileH x) :)
    ∧ (∀ (i : Issue) (n st : Nat) (g : Cap) (k : KCopy) (o : Nat) (op : Bool) (l : Nat) (lp : Bool) (s : State), (Instr.send i n st).wf = true → s.calm = true → s.solo i (.send n st) = true → s.copyOf i = k → k.entry (k.top - 2) = (o, op) → o < 2 ^ 32 → k.entry (k.top - 1) = (l, lp) → l < 2 ^ 32 → (s.kx i.tile i.copy).canEnter 3 g = true → op = false → lp = false → 0 < l → ((k.cap n).usable = false ∨ (k.cap n).perm 0 = false) →
      Completes (.send i n st) s fun u => 
        ((u.tileH i.tile).copies.getD i.copy {}).pc = g.base ∧
        ((u.tileH i.tile).copies.getD i.copy {}).cap 0 = g ∧
        ((u.tileH i.tile).copies.getD i.copy {}).status = k.status ||| 1 ∧
        ((u.tileH i.tile).copies.getD i.copy {}).base = k.top % 2 ^ 17 ∧
        ((u.tileH i.tile).copies.getD i.copy {}).depth = 0 ∧
        ((u.tileH i.tile).copies.getD i.copy {}).rsp = k.rsp - 48 ∧
        (((u.tileH i.tile).copies.getD i.copy {}).preds, ((u.tileH i.tile).copies.getD i.copy {}).lc, ((u.tileH i.tile).copies.getD i.copy {}).rc, ((u.tileH i.tile).copies.getD i.copy {}).file) = (k.preds, k.lc, k.rc, k.file) ∧
        ((((u.tileH i.tile).copies.getD i.copy {}).rsCache.find? fun q => q.addr == k.rsp - 48).map (fun q => bits q.lo 39 0) = some (k.pc % 2 ^ 40)) ∧
        ((((u.tileH i.tile).copies.getD i.copy {}).rsCache.find? fun q => q.addr == k.rsp - 32).map (fun q => (bits q.lo 13 0, bits q.lo 45 38, bits q.lo 51 46, bit q.lo 61)) = some (bits k.status 13 0, k.depth % 256, 3, false) ∧ (((u.tileH i.tile).copies.getD i.copy {}).rsCache.find? fun q => q.addr == k.rsp - 48).map (fun q => bits q.lo 63 60) = some (n % 16)) ∧
        (∀ x, x ≠ i.tile → u.tileH x = s.tileH x) :)
    ∧ (∀ (i : Issue) (n st : Nat) (g : Cap) (k : KCopy) (o : Nat) (op : Bool) (l : Nat) (lp : Bool) (s : State), (Instr.send i n st).wf = true → s.calm = true → s.solo i (.send n st) = true → s.copyOf i = k → k.entry (k.top - 2) = (o, op) → o < 2 ^ 32 → k.entry (k.top - 1) = (l, lp) → l < 2 ^ 32 → (s.kx i.tile i.copy).canEnter 4 g = true → op = false → lp = false → 0 < l → (k.cap n).usable = true → (k.cap n).perm 0 = true → ((k.cap n).covers ((k.cap n).base + o) l = false ∨ 48 < l) →
      Completes (.send i n st) s fun u => 
        ((u.tileH i.tile).copies.getD i.copy {}).pc = g.base ∧
        ((u.tileH i.tile).copies.getD i.copy {}).cap 0 = g ∧
        ((u.tileH i.tile).copies.getD i.copy {}).status = k.status ||| 1 ∧
        ((u.tileH i.tile).copies.getD i.copy {}).base = k.top % 2 ^ 17 ∧
        ((u.tileH i.tile).copies.getD i.copy {}).depth = 0 ∧
        ((u.tileH i.tile).copies.getD i.copy {}).rsp = k.rsp - 48 ∧
        (((u.tileH i.tile).copies.getD i.copy {}).preds, ((u.tileH i.tile).copies.getD i.copy {}).lc, ((u.tileH i.tile).copies.getD i.copy {}).rc, ((u.tileH i.tile).copies.getD i.copy {}).file) = (k.preds, k.lc, k.rc, k.file) ∧
        ((((u.tileH i.tile).copies.getD i.copy {}).rsCache.find? fun q => q.addr == k.rsp - 48).map (fun q => bits q.lo 39 0) = some (k.pc % 2 ^ 40)) ∧
        ((((u.tileH i.tile).copies.getD i.copy {}).rsCache.find? fun q => q.addr == k.rsp - 32).map (fun q => (bits q.lo 13 0, bits q.lo 45 38, bits q.lo 51 46, bit q.lo 61)) = some (bits k.status 13 0, k.depth % 256, 4, false) ∧ (((u.tileH i.tile).copies.getD i.copy {}).rsCache.find? fun q => q.addr == k.rsp - 48).map (fun q => bits q.lo 63 60) = some (n % 16)) ∧
        (∀ x, x ≠ i.tile → u.tileH x = s.tileH x) :)
    ∧ (∀ (i : Issue) (n : Nat) (k : KCopy) (w : Nat) (wp : Bool) (s : State), (Instr.tfesub i n).wf = true → s.calm = true → s.solo i (.tfesub n) = true → s.copyOf i = k → k.entry (k.top - 1) = (w, wp) → w < 2 ^ 32 → wp = false → (k.cap n).usable = true → (k.cap n).perm 7 = true → (k.cap n).perm 1 = true → (k.cap n).covers (pageBase + pgTfe (i.tile / 8) * 4096) 4096 = true → ((s.tileH i.tile).mode ≤ 1 ∧ i.copy = 0) →
      Completes (.tfesub i n) s fun u => 
        (u.copyOf i).bare = (k.after (k.depth - 1) [] ((k.pc + 2 * (i.lits.length + 1)) % 2 ^ 40)).bare ∧ (u.tileH i.tile).copies = setAt (s.tileH i.tile).copies i.copy (u.copyOf i) ∧
        (u.tileH i.tile).ocb = (s.tileH i.tile).ocb ++ [⟨3, 0, (pageBase + pgTfe (i.tile / 8) * 4096) + 0x040, 4, w, 0, false, (s.tileH i.tile).mode⟩] ∧
        (({ (u.tileH i.tile) with copies := [], bundles := 0, due := none, bound := none, lastDue := 0, port := [], ocb := [] } : TileH) = { (s.tileH i.tile) with copies := [], bundles := 0, due := none, bound := none, lastDue := 0, port := [], ocb := [] }) ∧
        RegsOnly [pgTile i.tile] s u ∧
        (∀ x, x ≠ i.tile → u.tileH x = s.tileH x) ∧
        ({ u with regs := s.regs, tiles := s.tiles, hot := s.hot } = s) :)
    ∧ (∀ (i : Issue) (n : Nat) (k : KCopy) (w : Nat) (wp : Bool) (s : State), (Instr.tfesub i n).wf = true → s.calm = true → s.solo i (.tfesub n) = true → s.copyOf i = k → k.entry (k.top - 1) = (w, wp) → w < 2 ^ 32 → wp = false → (k.cap n).usable = true → (k.cap n).perm 7 = true → (k.cap n).perm 1 = true → (k.cap n).covers (pageBase + pgTfe (i.tile / 8) * 4096) 4096 = true → ¬((s.tileH i.tile).mode ≤ 1 ∧ i.copy = 0) →
      Completes (.tfesub i n) s fun u => 
        (u.copyOf i).bare = (k.after (k.depth - 1) [] ((k.pc + 2 * (i.lits.length + 1)) % 2 ^ 40)).bare ∧ (u.tileH i.tile).copies = setAt (s.tileH i.tile).copies i.copy (u.copyOf i) ∧
        (({ (u.tileH i.tile) with copies := [], bundles := 0, due := none, bound := none, lastDue := 0, port := [], stall := false } : TileH) = { (s.tileH i.tile) with copies := [], bundles := 0, due := none, bound := none, lastDue := 0, port := [], stall := false }) ∧
        (∀ x, x ≠ i.tile → u.tileH x = s.tileH x) ∧
        ({ u with regs := [], tiles := [], hot := [] } : State) = { s.pageWrite (.tile i.tile i.copy) (pgTfe (i.tile / 8)) 0x040 4 w false (some (s.tileH i.tile).mode) with regs := [], tiles := [], hot := [] } ∧
        RegsOnly [pgTile i.tile] (s.pageWrite (.tile i.tile i.copy) (pgTfe (i.tile / 8)) 0x040 4 w false (some (s.tileH i.tile).mode)) u :)
    ∧ (∀ (i : Issue) (n : Nat) (g : Cap) (k : KCopy) (w : Nat) (wp : Bool) (s : State), (Instr.tfesub i n).wf = true → s.calm = true → s.solo i (.tfesub n) = true → s.copyOf i = k → k.entry (k.top - 1) = (w, wp) → w < 2 ^ 32 → (s.kx i.tile i.copy).canEnter 3 g = true → wp = false → ((k.cap n).usable = false ∨ (k.cap n).perm 7 = false ∨ (k.cap n).perm 1 = false) →
      Completes (.tfesub i n) s fun u => 
        ((u.tileH i.tile).copies.getD i.copy {}).pc = g.base ∧
        ((u.tileH i.tile).copies.getD i.copy {}).cap 0 = g ∧
        ((u.tileH i.tile).copies.getD i.copy {}).status = k.status ||| 1 ∧
        ((u.tileH i.tile).copies.getD i.copy {}).base = k.top % 2 ^ 17 ∧
        ((u.tileH i.tile).copies.getD i.copy {}).depth = 0 ∧
        ((u.tileH i.tile).copies.getD i.copy {}).rsp = k.rsp - 48 ∧
        (((u.tileH i.tile).copies.getD i.copy {}).preds, ((u.tileH i.tile).copies.getD i.copy {}).lc, ((u.tileH i.tile).copies.getD i.copy {}).rc, ((u.tileH i.tile).copies.getD i.copy {}).file) = (k.preds, k.lc, k.rc, k.file) ∧
        ((((u.tileH i.tile).copies.getD i.copy {}).rsCache.find? fun q => q.addr == k.rsp - 48).map (fun q => bits q.lo 39 0) = some (k.pc % 2 ^ 40)) ∧
        ((((u.tileH i.tile).copies.getD i.copy {}).rsCache.find? fun q => q.addr == k.rsp - 32).map (fun q => (bits q.lo 13 0, bits q.lo 45 38, bits q.lo 51 46, bit q.lo 61)) = some (bits k.status 13 0, k.depth % 256, 3, false) ∧ (((u.tileH i.tile).copies.getD i.copy {}).rsCache.find? fun q => q.addr == k.rsp - 48).map (fun q => bits q.lo 63 60) = some (n % 16)) ∧
        (∀ x, x ≠ i.tile → u.tileH x = s.tileH x) :)
    ∧ (∀ (i : Issue) (n : Nat) (g : Cap) (k : KCopy) (w : Nat) (wp : Bool) (s : State), (Instr.tfesub i n).wf = true → s.calm = true → s.solo i (.tfesub n) = true → s.copyOf i = k → k.entry (k.top - 1) = (w, wp) → w < 2 ^ 32 → (s.kx i.tile i.copy).canEnter 4 g = true → wp = false → (k.cap n).usable = true → (k.cap n).perm 7 = true → (k.cap n).perm 1 = true → (k.cap n).covers (pageBase + pgTfe (i.tile / 8) * 4096) 4096 = false →
      Completes (.tfesub i n) s fun u => 
        ((u.tileH i.tile).copies.getD i.copy {}).pc = g.base ∧
        ((u.tileH i.tile).copies.getD i.copy {}).cap 0 = g ∧
        ((u.tileH i.tile).copies.getD i.copy {}).status = k.status ||| 1 ∧
        ((u.tileH i.tile).copies.getD i.copy {}).base = k.top % 2 ^ 17 ∧
        ((u.tileH i.tile).copies.getD i.copy {}).depth = 0 ∧
        ((u.tileH i.tile).copies.getD i.copy {}).rsp = k.rsp - 48 ∧
        (((u.tileH i.tile).copies.getD i.copy {}).preds, ((u.tileH i.tile).copies.getD i.copy {}).lc, ((u.tileH i.tile).copies.getD i.copy {}).rc, ((u.tileH i.tile).copies.getD i.copy {}).file) = (k.preds, k.lc, k.rc, k.file) ∧
        ((((u.tileH i.tile).copies.getD i.copy {}).rsCache.find? fun q => q.addr == k.rsp - 48).map (fun q => bits q.lo 39 0) = some (k.pc % 2 ^ 40)) ∧
        ((((u.tileH i.tile).copies.getD i.copy {}).rsCache.find? fun q => q.addr == k.rsp - 32).map (fun q => (bits q.lo 13 0, bits q.lo 45 38, bits q.lo 51 46, bit q.lo 61)) = some (bits k.status 13 0, k.depth % 256, 4, false) ∧ (((u.tileH i.tile).copies.getD i.copy {}).rsCache.find? fun q => q.addr == k.rsp - 48).map (fun q => bits q.lo 63 60) = some (n % 16)) ∧
        (∀ x, x ≠ i.tile → u.tileH x = s.tileH x) :)
    ∧ (∀ (i : Issue) (k : KCopy) (s : State), (Instr.syncf i).wf = true → s.calm = true → s.solo i (.syncf) = true → s.copyOf i = k → k.sb = [] → (s.tileH i.tile).ocb = [] →
      Completes (.syncf i) s fun u => 
        Took i s u (({ k.after k.depth [] ((k.pc + 2 * (i.lits.length + 1)) % 2 ^ 40) with rsCache := [] } : KCopy)) ∧
        ((u.copyOf i).lines, (u.copyOf i).cov, (u.copyOf i).btb, (u.copyOf i).loopB) = ([], none, [], none) :)
    ∧ (∀ (i : Issue) (k : KCopy) (s : State), (Instr.cairn i).wf = true → s.calm = true → s.solo i (.cairn) = true → s.copyOf i = k → ¬((s.tileH i.tile).mode ≤ 1 ∧ i.copy = 0) →
      Completes (.cairn i) s fun u => 
        Took i s u (k.after k.depth [] ((k.pc + 2 * (i.lits.length + 1)) % 2 ^ 40)) :)
    ∧ (∀ (i : Issue) (k : KCopy) (s : State), (Instr.cairn i).wf = true → s.calm = true → s.solo i (.cairn) = true → s.copyOf i = k → ((s.tileH i.tile).mode ≤ 1 ∧ i.copy = 0) →
      Completes (.cairn i) s fun u => 
        Took i s u (k.after k.depth [] ((k.pc + 2 * (i.lits.length + 1)) % 2 ^ 40)) ∧
        u.fld (pgTile i.tile) 0x05C 7 0 = min 0xFF (s.fld (pgTile i.tile) 0x05C 7 0 + 1) ∧
        ((u.tileH i.tile).due.isSome = true ∨ (u.tileH i.tile).bound.isSome = true) :)

/-- BR, BRI and BRC go to a legal even target in their capability, BRC with C0 taken from Cn; CALL and CALLI put the return address, LC and the caller’s DEPTH in a slot of the return stack and give the callee its n arguments; RET restores the caller from its slot, its loop too, and moves the results down; LOOP starts the hardware loop after its bundle, or skips the body for a count of 0. A branch or call leaves its target in the BTB. An odd target, one outside the capability and one that may not execute enter the exception of that name, as a poisoned slot does. -/
def Obligations.KolotteFlow : Prop :=
    (∀ (i : Issue) (v : Nat) (k : KCopy) (s : State), (Instr.br i 0).wf = true → s.calm = true → s.solo i (.br 0) = true → s.copyOf i = k → i.lits = [v] → (((k.pc : Int) + (BitVec.ofNat 12 v).toInt) % 2 ^ 40).toNat % 2 = 0 → (k.cap 0).base ≤ (((k.pc : Int) + (BitVec.ofNat 12 v).toInt) % 2 ^ 40).toNat → (((k.pc : Int) + (BitVec.ofNat 12 v).toInt) % 2 ^ 40).toNat < (k.cap 0).top → (k.cap 0).perm 2 = true → s.codeAt i.tile (((k.pc : Int) + (BitVec.ofNat 12 v).toInt) % 2 ^ 40).toNat 2 = true →
      Completes (.br i 0) s fun u => 
        Took i s u (k.after k.depth [] (((k.pc : Int) + (BitVec.ofNat 12 v).toInt) % 2 ^ 40).toNat) ∧
        (((u.copyOf i).btb.find? fun q => q.addr == k.pc).map (·.target) = some ((((k.pc : Int) + (BitVec.ofNat 12 v).toInt) % 2 ^ 40).toNat)) :)
    ∧ (∀ (i : Issue) (k : KCopy) (o : Nat) (op : Bool) (s : State), (Instr.bri i).wf = true → s.calm = true → s.solo i (.bri) = true → s.copyOf i = k → k.entry (k.top - 1) = (o, op) → o < 2 ^ 32 → op = false → ((k.cap 0).base + o) % 2 = 0 → (k.cap 0).base ≤ ((k.cap 0).base + o) → ((k.cap 0).base + o) < (k.cap 0).top → (k.cap 0).perm 2 = true → s.codeAt i.tile ((k.cap 0).base + o) 2 = true →
      Completes (.bri i) s fun u => 
        Took i s u (k.after (k.depth - 1) [] ((k.cap 0).base + o)) ∧
        (((u.copyOf i).btb.find? fun q => q.addr == k.pc).map (·.target) = some ((k.cap 0).base + o)) :)
    ∧ (∀ (i : Issue) (g : Cap) (k : KCopy) (o : Nat) (op : Bool) (s : State), (Instr.bri i).wf = true → s.calm = true → s.solo i (.bri) = true → s.copyOf i = k → k.entry (k.top - 1) = (o, op) → o < 2 ^ 32 → (s.kx i.tile i.copy).canEnter 6 g = true → op = false → ((k.cap 0).base + o) % 2 = 1 →
      Completes (.bri i) s fun u => 
        ((u.tileH i.tile).copies.getD i.copy {}).pc = g.base ∧
        ((u.tileH i.tile).copies.getD i.copy {}).cap 0 = g ∧
        ((u.tileH i.tile).copies.getD i.copy {}).status = k.status ||| 1 ∧
        ((u.tileH i.tile).copies.getD i.copy {}).base = k.top % 2 ^ 17 ∧
        ((u.tileH i.tile).copies.getD i.copy {}).depth = 0 ∧
        ((u.tileH i.tile).copies.getD i.copy {}).rsp = k.rsp - 48 ∧
        (((u.tileH i.tile).copies.getD i.copy {}).preds, ((u.tileH i.tile).copies.getD i.copy {}).lc, ((u.tileH i.tile).copies.getD i.copy {}).rc, ((u.tileH i.tile).copies.getD i.copy {}).file) = (k.preds, k.lc, k.rc, k.file) ∧
        ((((u.tileH i.tile).copies.getD i.copy {}).rsCache.find? fun q => q.addr == k.rsp - 48).map (fun q => bits q.lo 39 0) = some (k.pc % 2 ^ 40)) ∧
        ((((u.tileH i.tile).copies.getD i.copy {}).rsCache.find? fun q => q.addr == k.rsp - 32).map (fun q => (bits q.lo 13 0, bits q.lo 45 38, bits q.lo 51 46, bit q.lo 61)) = some (bits k.status 13 0, k.depth % 256, 6, false) ∧ (((u.tileH i.tile).copies.getD i.copy {}).rsCache.find? fun q => q.addr == k.rsp - 48).map (fun q => bits q.lo 63 60) = some (0 % 16)) ∧
        (∀ x, x ≠ i.tile → u.tileH x = s.tileH x) :)
    ∧ (∀ (i : Issue) (g : Cap) (k : KCopy) (o : Nat) (op : Bool) (s : State), (Instr.bri i).wf = true → s.calm = true → s.solo i (.bri) = true → s.copyOf i = k → k.entry (k.top - 1) = (o, op) → o < 2 ^ 32 → (s.kx i.tile i.copy).canEnter 4 g = true → op = false → ((k.cap 0).base + o) % 2 = 0 → (((k.cap 0).base + o) < (k.cap 0).base ∨ (k.cap 0).top ≤ ((k.cap 0).base + o)) →
      Completes (.bri i) s fun u => 
        ((u.tileH i.tile).copies.getD i.copy {}).pc = g.base ∧
        ((u.tileH i.tile).copies.getD i.copy {}).cap 0 = g ∧
        ((u.tileH i.tile).copies.getD i.copy {}).status = k.status ||| 1 ∧
        ((u.tileH i.tile).copies.getD i.copy {}).base = k.top % 2 ^ 17 ∧
        ((u.tileH i.tile).copies.getD i.copy {}).depth = 0 ∧
        ((u.tileH i.tile).copies.getD i.copy {}).rsp = k.rsp - 48 ∧
        (((u.tileH i.tile).copies.getD i.copy {}).preds, ((u.tileH i.tile).copies.getD i.copy {}).lc, ((u.tileH i.tile).copies.getD i.copy {}).rc, ((u.tileH i.tile).copies.getD i.copy {}).file) = (k.preds, k.lc, k.rc, k.file) ∧
        ((((u.tileH i.tile).copies.getD i.copy {}).rsCache.find? fun q => q.addr == k.rsp - 48).map (fun q => bits q.lo 39 0) = some (k.pc % 2 ^ 40)) ∧
        ((((u.tileH i.tile).copies.getD i.copy {}).rsCache.find? fun q => q.addr == k.rsp - 32).map (fun q => (bits q.lo 13 0, bits q.lo 45 38, bits q.lo 51 46, bit q.lo 61)) = some (bits k.status 13 0, k.depth % 256, 4, false) ∧ (((u.tileH i.tile).copies.getD i.copy {}).rsCache.find? fun q => q.addr == k.rsp - 48).map (fun q => bits q.lo 63 60) = some (0 % 16)) ∧
        (∀ x, x ≠ i.tile → u.tileH x = s.tileH x) :)
    ∧ (∀ (i : Issue) (n : Nat) (k : KCopy) (o : Nat) (op : Bool) (s : State), (Instr.brc i n).wf = true → s.calm = true → s.solo i (.brc n) = true → s.copyOf i = k → k.entry (k.top - 1) = (o, op) → o < 2 ^ 32 → op = false → (k.cap n).usable = true → ((k.cap n).base + o) % 2 = 0 → (k.cap n).base ≤ ((k.cap n).base + o) → ((k.cap n).base + o) < (k.cap n).top → (k.cap n).perm 2 = true → s.codeAt i.tile ((k.cap n).base + o) 2 = true →
      Completes (.brc i n) s fun u => 
        Took i s u ((k.after (k.depth - 1) [] ((k.cap n).base + o)).setCap 0 (k.cap n)) ∧
        (((u.copyOf i).btb.find? fun q => q.addr == k.pc).map (·.target) = some (((k.cap n).base + o))) :)
    ∧ (∀ (i : Issue) (n : Nat) (g : Cap) (k : KCopy) (o : Nat) (op : Bool) (s : State), (Instr.brc i n).wf = true → s.calm = true → s.solo i (.brc n) = true → s.copyOf i = k → k.entry (k.top - 1) = (o, op) → o < 2 ^ 32 → (s.kx i.tile i.copy).canEnter 6 g = true → op = false → (k.cap n).usable = true → ((k.cap n).base + o) % 2 = 1 →
      Completes (.brc i n) s fun u => 
        ((u.tileH i.tile).copies.getD i.copy {}).pc = g.base ∧
        ((u.tileH i.tile).copies.getD i.copy {}).cap 0 = g ∧
        ((u.tileH i.tile).copies.getD i.copy {}).status = k.status ||| 1 ∧
        ((u.tileH i.tile).copies.getD i.copy {}).base = k.top % 2 ^ 17 ∧
        ((u.tileH i.tile).copies.getD i.copy {}).depth = 0 ∧
        ((u.tileH i.tile).copies.getD i.copy {}).rsp = k.rsp - 48 ∧
        (((u.tileH i.tile).copies.getD i.copy {}).preds, ((u.tileH i.tile).copies.getD i.copy {}).lc, ((u.tileH i.tile).copies.getD i.copy {}).rc, ((u.tileH i.tile).copies.getD i.copy {}).file) = (k.preds, k.lc, k.rc, k.file) ∧
        ((((u.tileH i.tile).copies.getD i.copy {}).rsCache.find? fun q => q.addr == k.rsp - 48).map (fun q => bits q.lo 39 0) = some (k.pc % 2 ^ 40)) ∧
        ((((u.tileH i.tile).copies.getD i.copy {}).rsCache.find? fun q => q.addr == k.rsp - 32).map (fun q => (bits q.lo 13 0, bits q.lo 45 38, bits q.lo 51 46, bit q.lo 61)) = some (bits k.status 13 0, k.depth % 256, 6, false) ∧ (((u.tileH i.tile).copies.getD i.copy {}).rsCache.find? fun q => q.addr == k.rsp - 48).map (fun q => bits q.lo 63 60) = some (n % 16)) ∧
        (∀ x, x ≠ i.tile → u.tileH x = s.tileH x) :)
    ∧ (∀ (i : Issue) (n : Nat) (g : Cap) (k : KCopy) (o : Nat) (op : Bool) (s : State), (Instr.brc i n).wf = true → s.calm = true → s.solo i (.brc n) = true → s.copyOf i = k → k.entry (k.top - 1) = (o, op) → o < 2 ^ 32 → (s.kx i.tile i.copy).canEnter 4 g = true → op = false → (k.cap n).usable = true → ((k.cap n).base + o) % 2 = 0 → (((k.cap n).base + o) < (k.cap n).base ∨ (k.cap n).top ≤ ((k.cap n).base + o)) →
      Completes (.brc i n) s fun u => 
        ((u.tileH i.tile).copies.getD i.copy {}).pc = g.base ∧
        ((u.tileH i.tile).copies.getD i.copy {}).cap 0 = g ∧
        ((u.tileH i.tile).copies.getD i.copy {}).status = k.status ||| 1 ∧
        ((u.tileH i.tile).copies.getD i.copy {}).base = k.top % 2 ^ 17 ∧
        ((u.tileH i.tile).copies.getD i.copy {}).depth = 0 ∧
        ((u.tileH i.tile).copies.getD i.copy {}).rsp = k.rsp - 48 ∧
        (((u.tileH i.tile).copies.getD i.copy {}).preds, ((u.tileH i.tile).copies.getD i.copy {}).lc, ((u.tileH i.tile).copies.getD i.copy {}).rc, ((u.tileH i.tile).copies.getD i.copy {}).file) = (k.preds, k.lc, k.rc, k.file) ∧
        ((((u.tileH i.tile).copies.getD i.copy {}).rsCache.find? fun q => q.addr == k.rsp - 48).map (fun q => bits q.lo 39 0) = some (k.pc % 2 ^ 40)) ∧
        ((((u.tileH i.tile).copies.getD i.copy {}).rsCache.find? fun q => q.addr == k.rsp - 32).map (fun q => (bits q.lo 13 0, bits q.lo 45 38, bits q.lo 51 46, bit q.lo 61)) = some (bits k.status 13 0, k.depth % 256, 4, false) ∧ (((u.tileH i.tile).copies.getD i.copy {}).rsCache.find? fun q => q.addr == k.rsp - 48).map (fun q => bits q.lo 63 60) = some (n % 16)) ∧
        (∀ x, x ≠ i.tile → u.tileH x = s.tileH x) :)
    ∧ (∀ (i : Issue) (n : Nat) (g : Cap) (k : KCopy) (o : Nat) (op : Bool) (s : State), (Instr.brc i n).wf = true → s.calm = true → s.solo i (.brc n) = true → s.copyOf i = k → k.entry (k.top - 1) = (o, op) → o < 2 ^ 32 → (s.kx i.tile i.copy).canEnter 5 g = true → op = false → (k.cap n).usable = true → ((k.cap n).base + o) % 2 = 0 → (k.cap n).base ≤ ((k.cap n).base + o) → ((k.cap n).base + o) < (k.cap n).top → ((k.cap n).perm 2 = false ∨ (s.codeAt i.tile ((k.cap n).base + o) 2 = false ∧ k.held ((k.cap n).base + o) 2 = none ∧ k.btb = [])) →
      Completes (.brc i n) s fun u => 
        ((u.tileH i.tile).copies.getD i.copy {}).pc = g.base ∧
        ((u.tileH i.tile).copies.getD i.copy {}).cap 0 = g ∧
        ((u.tileH i.tile).copies.getD i.copy {}).status = k.status ||| 1 ∧
        ((u.tileH i.tile).copies.getD i.copy {}).base = k.top % 2 ^ 17 ∧
        ((u.tileH i.tile).copies.getD i.copy {}).depth = 0 ∧
        ((u.tileH i.tile).copies.getD i.copy {}).rsp = k.rsp - 48 ∧
        (((u.tileH i.tile).copies.getD i.copy {}).preds, ((u.tileH i.tile).copies.getD i.copy {}).lc, ((u.tileH i.tile).copies.getD i.copy {}).rc, ((u.tileH i.tile).copies.getD i.copy {}).file) = (k.preds, k.lc, k.rc, k.file) ∧
        ((((u.tileH i.tile).copies.getD i.copy {}).rsCache.find? fun q => q.addr == k.rsp - 48).map (fun q => bits q.lo 39 0) = some (k.pc % 2 ^ 40)) ∧
        ((((u.tileH i.tile).copies.getD i.copy {}).rsCache.find? fun q => q.addr == k.rsp - 32).map (fun q => (bits q.lo 13 0, bits q.lo 45 38, bits q.lo 51 46, bit q.lo 61)) = some (bits k.status 13 0, k.depth % 256, 5, false) ∧ (((u.tileH i.tile).copies.getD i.copy {}).rsCache.find? fun q => q.addr == k.rsp - 48).map (fun q => bits q.lo 63 60) = some (n % 16)) ∧
        (∀ x, x ≠ i.tile → u.tileH x = s.tileH x) :)
    ∧ (∀ (i : Issue) (n : Nat) (g : Cap) (k : KCopy) (o : Nat) (op : Bool) (s : State), (Instr.brc i n).wf = true → s.calm = true → s.solo i (.brc n) = true → s.copyOf i = k → k.entry (k.top - 1) = (o, op) → o < 2 ^ 32 → (s.kx i.tile i.copy).canEnter 3 g = true → op = false → (k.cap n).usable = false →
      Completes (.brc i n) s fun u => 
        ((u.tileH i.tile).copies.getD i.copy {}).pc = g.base ∧
        ((u.tileH i.tile).copies.getD i.copy {}).cap 0 = g ∧
        ((u.tileH i.tile).copies.getD i.copy {}).status = k.status ||| 1 ∧
        ((u.tileH i.tile).copies.getD i.copy {}).base = k.top % 2 ^ 17 ∧
        ((u.tileH i.tile).copies.getD i.copy {}).depth = 0 ∧
        ((u.tileH i.tile).copies.getD i.copy {}).rsp = k.rsp - 48 ∧
        (((u.tileH i.tile).copies.getD i.copy {}).preds, ((u.tileH i.tile).copies.getD i.copy {}).lc, ((u.tileH i.tile).copies.getD i.copy {}).rc, ((u.tileH i.tile).copies.getD i.copy {}).file) = (k.preds, k.lc, k.rc, k.file) ∧
        ((((u.tileH i.tile).copies.getD i.copy {}).rsCache.find? fun q => q.addr == k.rsp - 48).map (fun q => bits q.lo 39 0) = some (k.pc % 2 ^ 40)) ∧
        ((((u.tileH i.tile).copies.getD i.copy {}).rsCache.find? fun q => q.addr == k.rsp - 32).map (fun q => (bits q.lo 13 0, bits q.lo 45 38, bits q.lo 51 46, bit q.lo 61)) = some (bits k.status 13 0, k.depth % 256, 3, false) ∧ (((u.tileH i.tile).copies.getD i.copy {}).rsCache.find? fun q => q.addr == k.rsp - 48).map (fun q => bits q.lo 63 60) = some (n % 16)) ∧
        (∀ x, x ≠ i.tile → u.tileH x = s.tileH x) :)
    ∧ (∀ (i : Issue) (ln tail : Nat) (k : KCopy) (c : Nat) (cp : Bool) (s : State), (Instr.loop i ln tail).wf = true → s.calm = true → s.solo i (.loop ln tail) = true → s.copyOf i = k → k.entry (k.top - 1) = (c, cp) → c < 2 ^ 32 → cp = false → c ≠ 0 → i.lits = [] →
      Completes (.loop i ln tail) s fun u => 
        Took i s u (({ k.after (k.depth - 1) [] ((k.pc + 2 * (i.lits.length + 1)) % 2 ^ 40) with lc := c, la := true, ls := ((k.pc + 2 * (i.lits.length + 1)) % 2 ^ 40), leoff := ln } : KCopy)) :)
    ∧ (∀ (i : Issue) (v tail : Nat) (k : KCopy) (c : Nat) (cp : Bool) (s : State), (Instr.loop i 0 tail).wf = true → s.calm = true → s.solo i (.loop 0 tail) = true → s.copyOf i = k → k.entry (k.top - 1) = (c, cp) → c < 2 ^ 32 → cp = false → c ≠ 0 → i.lits = [v] → v < 2048 →
      Completes (.loop i 0 tail) s fun u => 
        Took i s u (({ k.after (k.depth - 1) [] ((k.pc + 2 * (i.lits.length + 1)) % 2 ^ 40) with lc := c, la := true, ls := ((k.pc + 2 * (i.lits.length + 1)) % 2 ^ 40), leoff := v } : KCopy)) :)
    ∧ (∀ (i : Issue) (ln tail : Nat) (k : KCopy) (c : Nat) (cp : Bool) (s : State), (Instr.loop i ln tail).wf = true → s.calm = true → s.solo i (.loop ln tail) = true → s.copyOf i = k → k.entry (k.top - 1) = (c, cp) → c < 2 ^ 32 → cp = false → c = 0 → i.lits = [] →
      Completes (.loop i ln tail) s fun u => 
        Took i s u (k.after (k.depth - 1) [] ((((k.pc + 2 * (i.lits.length + 1)) % 2 ^ 40) + 2 * ln + 2 * tail) % 2 ^ 40)) :)
    ∧ (∀ (i : Issue) (n v : Nat) (k : KCopy) (s : State), (Instr.call i n 0).wf = true → s.calm = true → s.solo i (.call n 0) = true → s.copyOf i = k → i.lits = [v] → (((k.pc : Int) + (BitVec.ofNat 12 v).toInt) % 2 ^ 40).toNat % 2 = 0 → (k.cap 0).base ≤ (((k.pc : Int) + (BitVec.ofNat 12 v).toInt) % 2 ^ 40).toNat → (((k.pc : Int) + (BitVec.ofNat 12 v).toInt) % 2 ^ 40).toNat < (k.cap 0).top → (k.cap 0).perm 2 = true → s.codeAt i.tile (((k.pc : Int) + (BitVec.ofNat 12 v).toInt) % 2 ^ 40).toNat 2 = true →
      Completes (.call i n 0) s fun u => 
        (u.copyOf i).bare = (({ k with rsp := k.rsp - 16, base := k.top - n, depth := n, pc := (((k.pc : Int) + (BitVec.ofNat 12 v).toInt) % 2 ^ 40).toNat, rsCache := cachePut k.rsCache ⟨k.rsp - 16, ((k.pc + 2 * (i.lits.length + 1)) % 2 ^ 40), (k.lc + (k.depth - n) * 2 ^ 32) % 2 ^ 64, false, false⟩ } : KCopy).lowFollow).bare ∧ (u.tileH i.tile).copies = setAt (s.tileH i.tile).copies i.copy (u.copyOf i) ∧
        (((u.copyOf i).btb.find? fun q => q.addr == k.pc).map (·.target) = some ((((k.pc : Int) + (BitVec.ofNat 12 v).toInt) % 2 ^ 40).toNat)) ∧
        (∀ x, ¬((physOf i.tile (k.rsp - 16)) ≤ x ∧ x < (physOf i.tile (k.rsp - 16)) + 16) → u.byte x = s.byte x) ∧
        (∀ x, x ≠ i.tile → u.tileH x = s.tileH x) ∧
        RegsOnly [pgTile i.tile, pgEccT i.tile] s u :)
    ∧ (∀ (i : Issue) (n : Nat) (k : KCopy) (o : Nat) (op : Bool) (s : State), (Instr.calli i n).wf = true → s.calm = true → s.solo i (.calli n) = true → s.copyOf i = k → k.entry (k.top - 1) = (o, op) → o < 2 ^ 32 → op = false → ((k.cap 0).base + o) % 2 = 0 → (k.cap 0).base ≤ ((k.cap 0).base + o) → ((k.cap 0).base + o) < (k.cap 0).top → (k.cap 0).perm 2 = true → s.codeAt i.tile ((k.cap 0).base + o) 2 = true →
      Completes (.calli i n) s fun u => 
        (u.copyOf i).bare = (({ k with rsp := k.rsp - 16, base := k.top - 1 - n, depth := n, pc := ((k.cap 0).base + o), rsCache := cachePut k.rsCache ⟨k.rsp - 16, ((k.pc + 2 * (i.lits.length + 1)) % 2 ^ 40), (k.lc + (k.depth - 1 - n) * 2 ^ 32) % 2 ^ 64, false, false⟩ } : KCopy).lowFollow).bare ∧ (u.tileH i.tile).copies = setAt (s.tileH i.tile).copies i.copy (u.copyOf i) ∧
        (((u.copyOf i).btb.find? fun q => q.addr == k.pc).map (·.target) = some ((k.cap 0).base + o)) ∧
        (∀ x, ¬((physOf i.tile (k.rsp - 16)) ≤ x ∧ x < (physOf i.tile (k.rsp - 16)) + 16) → u.byte x = s.byte x) ∧
        (∀ x, x ≠ i.tile → u.tileH x = s.tileH x) ∧
        RegsOnly [pgTile i.tile, pgEccT i.tile] s u :)
    ∧ (∀ (i : Issue) (n : Nat) (g : Cap) (k : KCopy) (o : Nat) (op : Bool) (s : State), (Instr.calli i n).wf = true → s.calm = true → s.solo i (.calli n) = true → s.copyOf i = k → k.entry (k.top - 1) = (o, op) → o < 2 ^ 32 → (s.kx i.tile i.copy).canEnter 6 g = true → op = false → ((k.cap 0).base + o) % 2 = 1 →
      Completes (.calli i n) s fun u => 
        ((u.tileH i.tile).copies.getD i.copy {}).pc = g.base ∧
        ((u.tileH i.tile).copies.getD i.copy {}).cap 0 = g ∧
        ((u.tileH i.tile).copies.getD i.copy {}).status = k.status ||| 1 ∧
        ((u.tileH i.tile).copies.getD i.copy {}).base = k.top % 2 ^ 17 ∧
        ((u.tileH i.tile).copies.getD i.copy {}).depth = 0 ∧
        ((u.tileH i.tile).copies.getD i.copy {}).rsp = k.rsp - 48 ∧
        (((u.tileH i.tile).copies.getD i.copy {}).preds, ((u.tileH i.tile).copies.getD i.copy {}).lc, ((u.tileH i.tile).copies.getD i.copy {}).rc, ((u.tileH i.tile).copies.getD i.copy {}).file) = (k.preds, k.lc, k.rc, k.file) ∧
        ((((u.tileH i.tile).copies.getD i.copy {}).rsCache.find? fun q => q.addr == k.rsp - 48).map (fun q => bits q.lo 39 0) = some (k.pc % 2 ^ 40)) ∧
        ((((u.tileH i.tile).copies.getD i.copy {}).rsCache.find? fun q => q.addr == k.rsp - 32).map (fun q => (bits q.lo 13 0, bits q.lo 45 38, bits q.lo 51 46, bit q.lo 61)) = some (bits k.status 13 0, k.depth % 256, 6, false) ∧ (((u.tileH i.tile).copies.getD i.copy {}).rsCache.find? fun q => q.addr == k.rsp - 48).map (fun q => bits q.lo 63 60) = some (0 % 16)) ∧
        (∀ x, x ≠ i.tile → u.tileH x = s.tileH x) :)
    ∧ (∀ (i : Issue) (n : Nat) (g : Cap) (k : KCopy) (o : Nat) (op : Bool) (s : State), (Instr.calli i n).wf = true → s.calm = true → s.solo i (.calli n) = true → s.copyOf i = k → k.entry (k.top - 1) = (o, op) → o < 2 ^ 32 → (s.kx i.tile i.copy).canEnter 4 g = true → op = false → ((k.cap 0).base + o) % 2 = 0 → (((k.cap 0).base + o) < (k.cap 0).base ∨ (k.cap 0).top ≤ ((k.cap 0).base + o)) →
      Completes (.calli i n) s fun u => 
        ((u.tileH i.tile).copies.getD i.copy {}).pc = g.base ∧
        ((u.tileH i.tile).copies.getD i.copy {}).cap 0 = g ∧
        ((u.tileH i.tile).copies.getD i.copy {}).status = k.status ||| 1 ∧
        ((u.tileH i.tile).copies.getD i.copy {}).base = k.top % 2 ^ 17 ∧
        ((u.tileH i.tile).copies.getD i.copy {}).depth = 0 ∧
        ((u.tileH i.tile).copies.getD i.copy {}).rsp = k.rsp - 48 ∧
        (((u.tileH i.tile).copies.getD i.copy {}).preds, ((u.tileH i.tile).copies.getD i.copy {}).lc, ((u.tileH i.tile).copies.getD i.copy {}).rc, ((u.tileH i.tile).copies.getD i.copy {}).file) = (k.preds, k.lc, k.rc, k.file) ∧
        ((((u.tileH i.tile).copies.getD i.copy {}).rsCache.find? fun q => q.addr == k.rsp - 48).map (fun q => bits q.lo 39 0) = some (k.pc % 2 ^ 40)) ∧
        ((((u.tileH i.tile).copies.getD i.copy {}).rsCache.find? fun q => q.addr == k.rsp - 32).map (fun q => (bits q.lo 13 0, bits q.lo 45 38, bits q.lo 51 46, bit q.lo 61)) = some (bits k.status 13 0, k.depth % 256, 4, false) ∧ (((u.tileH i.tile).copies.getD i.copy {}).rsCache.find? fun q => q.addr == k.rsp - 48).map (fun q => bits q.lo 63 60) = some (0 % 16)) ∧
        (∀ x, x ≠ i.tile → u.tileH x = s.tileH x) :)
    ∧ (∀ (i : Issue) (e : RsSlot) (k : KCopy) (s : State), (Instr.ret i 0).wf = true → s.calm = true → s.solo i (.ret 0) = true → s.copyOf i = k → k.rsCache.find? (fun q => q.addr == k.rsp) = some e → e.pois = false → bit e.lo 58 = false → bits e.hi 39 32 ≤ 224 →
      Completes (.ret i 0) s fun u => 
        (Took i s u (({ k with file := k.file, base := (k.base + 2 ^ 17 - bits e.hi 39 32) % 2 ^ 17, depth := bits e.hi 39 32 + 0, lc := e.hi % 2 ^ 32, pc := bits e.lo 39 1 * 2, ls := 0, leoff := 0, rsp := k.rsp + 16, rsCache := k.rsCache.filter fun q => !(q.addr < k.rsp + 16) } : KCopy).lowFollow)) :)
    ∧ (∀ (i : Issue) (e : RsSlot) (k : KCopy) (a : Nat) (ap : Bool) (s : State), (Instr.ret i 1).wf = true → s.calm = true → s.solo i (.ret 1) = true → s.copyOf i = k → k.entry (k.top - 1) = (a, ap) → a < 2 ^ 32 → k.rsCache.find? (fun q => q.addr == k.rsp) = some e → e.pois = false → bit e.lo 58 = false → bits e.hi 39 32 ≤ 223 →
      Completes (.ret i 1) s fun u => 
        (Took i s u (({ k with file := sput fileZero (k.base % 256) (a % 2 ^ 32, ap) k.file, base := (k.base + 2 ^ 17 - bits e.hi 39 32) % 2 ^ 17, depth := bits e.hi 39 32 + 1, lc := e.hi % 2 ^ 32, pc := bits e.lo 39 1 * 2, ls := 0, leoff := 0, rsp := k.rsp + 16, rsCache := k.rsCache.filter fun q => !(q.addr < k.rsp + 16) } : KCopy).lowFollow)) :)
    ∧ (∀ (i : Issue) (e : RsSlot) (x : Nat) (k : KCopy) (s : State), (Instr.ret i x).wf = true → s.calm = true → s.solo i (.ret x) = true → s.copyOf i = k → k.rsCache.find? (fun q => q.addr == k.rsp) = some e → e.pois = false → bit e.lo 58 = false → bits e.hi 39 32 + x ≤ 224 → x ≤ k.depth →
      Completes (.ret i x) s fun u => 
        ((u.tileH i.tile).copies.getD i.copy {}).pc = bits e.lo 39 1 * 2 ∧
        ((u.tileH i.tile).copies.getD i.copy {}).base = (k.base + 2 ^ 17 - bits e.hi 39 32) % 2 ^ 17 ∧
        ((u.tileH i.tile).copies.getD i.copy {}).depth = bits e.hi 39 32 + x ∧
        ((u.tileH i.tile).copies.getD i.copy {}).lc = e.hi % 2 ^ 32 ∧
        ((u.tileH i.tile).copies.getD i.copy {}).rsp = k.rsp + 16 ∧
        (((u.tileH i.tile).copies.getD i.copy {}).caps, ((u.tileH i.tile).copies.getD i.copy {}).preds, ((u.tileH i.tile).copies.getD i.copy {}).status, ((u.tileH i.tile).copies.getD i.copy {}).rc) = (k.caps, k.preds, k.status, k.rc) ∧
        (∀ j, j < x → ((u.tileH i.tile).copies.getD i.copy {}).entry (k.base + j) = k.entry (k.top - x + j)) ∧
        (∀ x, x ≠ i.tile → u.tileH x = s.tileH x) :)
    ∧ (∀ (i : Issue) (e : RsSlot) (x : Nat) (k : KCopy) (s : State), (Instr.ret i x).wf = true → s.calm = true → s.solo i (.ret x) = true → s.copyOf i = k → k.rsCache.find? (fun q => q.addr == k.rsp) = some e → e.pois = false → bit e.lo 58 = true → 2 * bits e.lo 48 40 ≤ bits e.lo 39 1 * 2 → bits e.hi 39 32 + x ≤ 224 → x ≤ k.depth →
      Completes (.ret i x) s fun u => 
        ((u.tileH i.tile).copies.getD i.copy {}).pc = bits e.lo 39 1 * 2 ∧
        ((u.tileH i.tile).copies.getD i.copy {}).base = (k.base + 2 ^ 17 - bits e.hi 39 32) % 2 ^ 17 ∧
        ((u.tileH i.tile).copies.getD i.copy {}).depth = bits e.hi 39 32 + x ∧
        ((u.tileH i.tile).copies.getD i.copy {}).lc = e.hi % 2 ^ 32 ∧
        ((u.tileH i.tile).copies.getD i.copy {}).rsp = k.rsp + 16 ∧
        (((u.tileH i.tile).copies.getD i.copy {}).caps, ((u.tileH i.tile).copies.getD i.copy {}).preds, ((u.tileH i.tile).copies.getD i.copy {}).status, ((u.tileH i.tile).copies.getD i.copy {}).rc) = (k.caps, k.preds, k.status, k.rc) ∧
        (∀ j, j < x → ((u.tileH i.tile).copies.getD i.copy {}).entry (k.base + j) = k.entry (k.top - x + j)) ∧
        (∀ x, x ≠ i.tile → u.tileH x = s.tileH x) ∧
        (((u.tileH i.tile).copies.getD i.copy {}).ls, ((u.tileH i.tile).copies.getD i.copy {}).leoff, ((u.tileH i.tile).copies.getD i.copy {}).la) = (bits e.lo 39 1 * 2 - 2 * bits e.lo 48 40, bits e.lo 57 49, decide (bits e.lo 48 40 ≤ bits e.lo 57 49)) :)
    ∧ (∀ (i : Issue) (e : RsSlot) (x v : Nat) (k : KCopy) (s : State), (Instr.ret i x).wf = true → s.calm = true → s.solo i (.ret x) = true → s.copyOf i = k → k.rsCache.find? (fun q => q.addr == k.rsp) = none → k.sb = [] → (((s.tileH i.tile).copies.zipIdx.all fun q => q.2 == i.copy || q.1.sb.isEmpty) = true) → (s.kx i.tile i.copy).readsFree k.rsp 16 = false → s.rdMem (physOf i.tile k.rsp) 16 = ((v, false), s) → e.lo = v % 2 ^ 64 → e.hi = v / 2 ^ 64 → bit e.lo 58 = false → bits e.hi 39 32 + x ≤ 224 → x ≤ k.depth →
      Completes (.ret i x) s fun u => 
        ((u.tileH i.tile).copies.getD i.copy {}).pc = bits e.lo 39 1 * 2 ∧
        ((u.tileH i.tile).copies.getD i.copy {}).base = (k.base + 2 ^ 17 - bits e.hi 39 32) % 2 ^ 17 ∧
        ((u.tileH i.tile).copies.getD i.copy {}).depth = bits e.hi 39 32 + x ∧
        ((u.tileH i.tile).copies.getD i.copy {}).lc = e.hi % 2 ^ 32 ∧
        ((u.tileH i.tile).copies.getD i.copy {}).rsp = k.rsp + 16 ∧
        (((u.tileH i.tile).copies.getD i.copy {}).caps, ((u.tileH i.tile).copies.getD i.copy {}).preds, ((u.tileH i.tile).copies.getD i.copy {}).status, ((u.tileH i.tile).copies.getD i.copy {}).rc) = (k.caps, k.preds, k.status, k.rc) ∧
        (∀ j, j < x → ((u.tileH i.tile).copies.getD i.copy {}).entry (k.base + j) = k.entry (k.top - x + j)) ∧
        (∀ x, x ≠ i.tile → u.tileH x = s.tileH x) :)
    ∧ (∀ (i : Issue) (g : Cap) (k : KCopy) (e : RsSlot) (s : State), (Instr.ret i 0).wf = true → s.calm = true → s.solo i (.ret 0) = true → s.copyOf i = k → (s.kx i.tile i.copy).canEnter 7 g = true → k.rsCache.find? (fun q => q.addr == k.rsp) = some e → e.pois = true → bits e.hi 39 32 ≤ 224 →
      Completes (.ret i 0) s fun u => 
        ((u.tileH i.tile).copies.getD i.copy {}).pc = g.base ∧
        ((u.tileH i.tile).copies.getD i.copy {}).cap 0 = g ∧
        ((u.tileH i.tile).copies.getD i.copy {}).status = k.status ||| 1 ∧
        ((u.tileH i.tile).copies.getD i.copy {}).base = k.top % 2 ^ 17 ∧
        ((u.tileH i.tile).copies.getD i.copy {}).depth = 0 ∧
        ((u.tileH i.tile).copies.getD i.copy {}).rsp = k.rsp - 48 ∧
        (((u.tileH i.tile).copies.getD i.copy {}).preds, ((u.tileH i.tile).copies.getD i.copy {}).lc, ((u.tileH i.tile).copies.getD i.copy {}).rc, ((u.tileH i.tile).copies.getD i.copy {}).file) = (k.preds, k.lc, k.rc, k.file) ∧
        ((((u.tileH i.tile).copies.getD i.copy {}).rsCache.find? fun q => q.addr == k.rsp - 48).map (fun q => bits q.lo 39 0) = some (k.pc % 2 ^ 40)) ∧
        ((((u.tileH i.tile).copies.getD i.copy {}).rsCache.find? fun q => q.addr == k.rsp - 32).map (fun q => (bits q.lo 13 0, bits q.lo 45 38, bits q.lo 51 46, bit q.lo 61)) = some (bits k.status 13 0, k.depth % 256, 7, false) ∧ (((u.tileH i.tile).copies.getD i.copy {}).rsCache.find? fun q => q.addr == k.rsp - 48).map (fun q => bits q.lo 63 60) = some (0 % 16)) ∧
        (∀ x, x ≠ i.tile → u.tileH x = s.tileH x) :)

/-- TRAP enters its exception after the bundle: a frame of 48 bytes goes to the return stack, with the PC after the bundle, STATUS, DEPTH, the cause and the fault address; C0 and PC come from the vector, IMASK is set, the window is empty above the stack. An imprecise arithmetic exception whose cycle has come is entered the same way at the boundary, with IMP set, and next the oldest WDGX, RELEASE and PAGE, while IMASK is 0 and in the copy that owns the queues; a checked core journals those, and a division in flight moves to its latch. With nothing due nothing happens. RETX restores what the frame holds, a loop and a repeat too, and enters the capability exception where it cannot. -/
def Obligations.KolotteExceptions : Prop :=
    (∀ (i : Issue) (n : Nat) (g : Cap) (k : KCopy) (s : State), (Instr.trap i n).wf = true → s.calm = true → s.solo i (.trap n) = true → s.copyOf i = k → (s.kx i.tile i.copy).canEnter 0x0B g = true →
      Completes (.trap i n) s fun u => 
        ((u.tileH i.tile).copies.getD i.copy {}).pc = g.base ∧
        ((u.tileH i.tile).copies.getD i.copy {}).cap 0 = g ∧
        ((u.tileH i.tile).copies.getD i.copy {}).status = k.status ||| 1 ∧
        ((u.tileH i.tile).copies.getD i.copy {}).base = k.top % 2 ^ 17 ∧
        ((u.tileH i.tile).copies.getD i.copy {}).depth = 0 ∧
        ((u.tileH i.tile).copies.getD i.copy {}).rsp = k.rsp - 48 ∧
        (((u.tileH i.tile).copies.getD i.copy {}).preds, ((u.tileH i.tile).copies.getD i.copy {}).lc, ((u.tileH i.tile).copies.getD i.copy {}).rc, ((u.tileH i.tile).copies.getD i.copy {}).file) = (k.preds, k.lc, k.rc, k.file) ∧
        ((((u.tileH i.tile).copies.getD i.copy {}).rsCache.find? fun q => q.addr == k.rsp - 48).map (fun q => bits q.lo 39 0) = some (((k.pc + 2 * (i.lits.length + 1)) % 2 ^ 40))) ∧
        ((((u.tileH i.tile).copies.getD i.copy {}).rsCache.find? fun q => q.addr == k.rsp - 32).map (fun q => (bits q.lo 13 0, bits q.lo 45 38, bits q.lo 51 46, bits q.lo 59 52 * 2 ^ 32 + q.hi)) = some (bits k.status 13 0, k.depth % 256, 0x0B, n)) ∧
        (∀ x, ¬((physOf i.tile (k.rsp - 48)) ≤ x ∧ x < (physOf i.tile (k.rsp - 48)) + 48) → u.byte x = s.byte x) ∧
        (∀ x, x ≠ i.tile → u.tileH x = s.tileH x) ∧
        RegsOnly [pgTile i.tile, pgEccT i.tile] s u :)
    ∧ (∀ (tile copy : Nat) (k : KCopy) (a : ArithE) (g : Cap) (s : State), (Instr.exceptionEntry tile copy).wf = true → s.calm = true → s.kCan tile copy = true → (s.tileH tile).copies.getD copy {} = k → k.shadow = [] → k.la = false → k.remain = none → k.arith = some a → 8 ≤ a.cause → a.cause ≤ 10 → a.due ≤ max k.clk s.now → a.more = false → a.faddr < 2 ^ 40 → k.divI = none → k.divF = none → (s.kx tile copy).canEnter a.cause g = true →
      Completes (.exceptionEntry tile copy) s fun u => 
        ((u.tileH tile).copies.getD copy {}).pc = g.base ∧
        ((u.tileH tile).copies.getD copy {}).cap 0 = g ∧
        ((u.tileH tile).copies.getD copy {}).status = k.status ||| 1 ∧
        ((u.tileH tile).copies.getD copy {}).base = k.top % 2 ^ 17 ∧
        ((u.tileH tile).copies.getD copy {}).depth = 0 ∧
        ((u.tileH tile).copies.getD copy {}).rsp = k.rsp - 48 ∧
        (((u.tileH tile).copies.getD copy {}).preds, ((u.tileH tile).copies.getD copy {}).lc, ((u.tileH tile).copies.getD copy {}).rc, ((u.tileH tile).copies.getD copy {}).file) = (k.preds, k.lc, k.rc, k.file) ∧
        ((((u.tileH tile).copies.getD copy {}).rsCache.find? fun q => q.addr == k.rsp - 48).map (fun q => bits q.lo 39 0) = some (k.pc % 2 ^ 40)) ∧
        ((((u.tileH tile).copies.getD copy {}).rsCache.find? fun q => q.addr == k.rsp - 32).map (fun q => (bits q.lo 13 0, bits q.lo 45 38, bits q.lo 51 46, bits q.lo 62 60, bits q.lo 59 52 * 2 ^ 32 + q.hi)) = some (bits k.status 13 0, k.depth % 256, a.cause, 2, a.faddr)) ∧
        ((u.tileH tile).copies.getD copy {}).arith = none ∧
        (({ u.tileH tile with copies := [], bundles := 0, due := none, bound := none, lastDue := 0, port := [], undo := [] } : TileH) = { s.tileH tile with copies := [], bundles := 0, due := none, bound := none, lastDue := 0, port := [], undo := [] }) ∧
        (∀ x, ¬((physOf tile (k.rsp - 48)) ≤ x ∧ x < (physOf tile (k.rsp - 48)) + 48) → u.byte x = s.byte x) ∧
        (∀ x, x ≠ tile → u.tileH x = s.tileH x) ∧
        RegsOnly [pgTile tile, pgEccT tile, pgPmc tile] s u ∧
        ({ u with regs := s.regs, tiles := s.tiles, hot := s.hot, pmcT := s.pmcT, mem := s.mem, chk := s.chk, pois := s.pois, tags := s.tags } = s) :)
    ∧ (∀ (tile copy : Nat) (k : KCopy) (a : Nat) (rest : List Nat) (g : Cap) (s : State), (Instr.exceptionEntry tile copy).wf = true → s.calm = true → s.kCan tile copy = true → (s.tileH tile).copies.getD copy {} = k → k.shadow = [] → k.la = false → k.remain = none → (s.kx tile copy).owner = true → bit k.status 0 = false → (k.arith.all fun z => decide (max k.clk s.now < z.due)) = true → k.divI = none → k.divF = none → ((s.kx tile copy).chk = false ∨ (s.tileH tile).replay = []) → (s.tileH tile).wdgx = a :: rest → a < 2 ^ 40 → (s.kx tile copy).canEnter 0x0E g = true →
      Completes (.exceptionEntry tile copy) s fun u => 
        ((u.tileH tile).copies.getD copy {}).pc = g.base ∧
        ((u.tileH tile).copies.getD copy {}).cap 0 = g ∧
        ((u.tileH tile).copies.getD copy {}).status = k.status ||| 1 ∧
        ((u.tileH tile).copies.getD copy {}).base = k.top % 2 ^ 17 ∧
        ((u.tileH tile).copies.getD copy {}).depth = 0 ∧
        ((u.tileH tile).copies.getD copy {}).rsp = k.rsp - 48 ∧
        (((u.tileH tile).copies.getD copy {}).preds, ((u.tileH tile).copies.getD copy {}).lc, ((u.tileH tile).copies.getD copy {}).rc, ((u.tileH tile).copies.getD copy {}).file) = (k.preds, k.lc, k.rc, k.file) ∧
        ((((u.tileH tile).copies.getD copy {}).rsCache.find? fun q => q.addr == k.rsp - 48).map (fun q => bits q.lo 39 0) = some (k.pc % 2 ^ 40)) ∧
        ((((u.tileH tile).copies.getD copy {}).rsCache.find? fun q => q.addr == k.rsp - 32).map (fun q => (bits q.lo 13 0, bits q.lo 45 38, bits q.lo 51 46, bits q.lo 62 60, bits q.lo 59 52 * 2 ^ 32 + q.hi)) = some (bits k.status 13 0, k.depth % 256, 0x0E, 0, a)) ∧
        (u.tileH tile).wdgx = rest ∧
        ((u.tileH tile).jrn = (s.tileH tile).jrn ++ (if (s.kx tile copy).chk then [⟨3, 0x0E, a, false, (s.tileH tile).bundles⟩] else [])) ∧
        (({ u.tileH tile with copies := [], bundles := 0, due := none, bound := none, lastDue := 0, port := [], undo := [], jrn := [], wdgx := [] } : TileH) = { s.tileH tile with copies := [], bundles := 0, due := none, bound := none, lastDue := 0, port := [], undo := [], jrn := [], wdgx := [] }) ∧
        (∀ x, ¬((physOf tile (k.rsp - 48)) ≤ x ∧ x < (physOf tile (k.rsp - 48)) + 48) → u.byte x = s.byte x) ∧
        (∀ x, x ≠ tile → u.tileH x = s.tileH x) ∧
        RegsOnly [pgTile tile, pgEccT tile, pgPmc tile] s u ∧
        ({ u with regs := s.regs, tiles := s.tiles, hot := s.hot, pmcT := s.pmcT, mem := s.mem, chk := s.chk, pois := s.pois, tags := s.tags } = s) :)
    ∧ (∀ (tile copy : Nat) (k : KCopy) (g : Cap) (s : State), (Instr.exceptionEntry tile copy).wf = true → s.calm = true → s.kCan tile copy = true → (s.tileH tile).copies.getD copy {} = k → k.shadow = [] → k.la = false → k.remain = none → (s.kx tile copy).owner = true → bit k.status 0 = false → (k.arith.all fun z => decide (max k.clk s.now < z.due)) = true → k.divI = none → k.divF = none → ((s.kx tile copy).chk = false ∨ (s.tileH tile).replay = []) → (s.tileH tile).wdgx = [] → (s.tileH tile).relIrq = true → (s.kx tile copy).canEnter 0x0C g = true →
      Completes (.exceptionEntry tile copy) s fun u => 
        ((u.tileH tile).copies.getD copy {}).pc = g.base ∧
        ((u.tileH tile).copies.getD copy {}).cap 0 = g ∧
        ((u.tileH tile).copies.getD copy {}).status = k.status ||| 1 ∧
        ((u.tileH tile).copies.getD copy {}).base = k.top % 2 ^ 17 ∧
        ((u.tileH tile).copies.getD copy {}).depth = 0 ∧
        ((u.tileH tile).copies.getD copy {}).rsp = k.rsp - 48 ∧
        (((u.tileH tile).copies.getD copy {}).preds, ((u.tileH tile).copies.getD copy {}).lc, ((u.tileH tile).copies.getD copy {}).rc, ((u.tileH tile).copies.getD copy {}).file) = (k.preds, k.lc, k.rc, k.file) ∧
        ((((u.tileH tile).copies.getD copy {}).rsCache.find? fun q => q.addr == k.rsp - 48).map (fun q => bits q.lo 39 0) = some (k.pc % 2 ^ 40)) ∧
        ((((u.tileH tile).copies.getD copy {}).rsCache.find? fun q => q.addr == k.rsp - 32).map (fun q => (bits q.lo 13 0, bits q.lo 45 38, bits q.lo 51 46, bits q.lo 62 60, bits q.lo 59 52 * 2 ^ 32 + q.hi)) = some (bits k.status 13 0, k.depth % 256, 0x0C, 0, 0)) ∧
        (u.tileH tile).relIrq = false ∧
        ((u.tileH tile).jrn = (s.tileH tile).jrn ++ (if (s.kx tile copy).chk then [⟨3, 0x0C, 0, false, (s.tileH tile).bundles⟩] else [])) ∧
        (({ u.tileH tile with copies := [], bundles := 0, due := none, bound := none, lastDue := 0, port := [], undo := [], jrn := [], relIrq := false } : TileH) = { s.tileH tile with copies := [], bundles := 0, due := none, bound := none, lastDue := 0, port := [], undo := [], jrn := [], relIrq := false }) ∧
        (∀ x, ¬((physOf tile (k.rsp - 48)) ≤ x ∧ x < (physOf tile (k.rsp - 48)) + 48) → u.byte x = s.byte x) ∧
        (∀ x, x ≠ tile → u.tileH x = s.tileH x) ∧
        RegsOnly [pgTile tile, pgEccT tile, pgPmc tile] s u ∧
        ({ u with regs := s.regs, tiles := s.tiles, hot := s.hot, pmcT := s.pmcT, mem := s.mem, chk := s.chk, pois := s.pois, tags := s.tags } = s) :)
    ∧ (∀ (tile copy : Nat) (k : KCopy) (p : Nat) (g : Cap) (s : State), (Instr.exceptionEntry tile copy).wf = true → s.calm = true → s.kCan tile copy = true → (s.tileH tile).copies.getD copy {} = k → k.shadow = [] → k.la = false → k.remain = none → (s.kx tile copy).owner = true → bit k.status 0 = false → (k.arith.all fun z => decide (max k.clk s.now < z.due)) = true → k.divI = none → k.divF = none → ((s.kx tile copy).chk = false ∨ (s.tileH tile).replay = []) → (s.tileH tile).wdgx = [] → (s.tileH tile).relIrq = false → s.pageIrqOf tile = some p → p < 0x10000 → (s.kx tile copy).canEnter 0x0D g = true →
      Completes (.exceptionEntry tile copy) s fun u => 
        ((u.tileH tile).copies.getD copy {}).pc = g.base ∧
        ((u.tileH tile).copies.getD copy {}).cap 0 = g ∧
        ((u.tileH tile).copies.getD copy {}).status = k.status ||| 1 ∧
        ((u.tileH tile).copies.getD copy {}).base = k.top % 2 ^ 17 ∧
        ((u.tileH tile).copies.getD copy {}).depth = 0 ∧
        ((u.tileH tile).copies.getD copy {}).rsp = k.rsp - 48 ∧
        (((u.tileH tile).copies.getD copy {}).preds, ((u.tileH tile).copies.getD copy {}).lc, ((u.tileH tile).copies.getD copy {}).rc, ((u.tileH tile).copies.getD copy {}).file) = (k.preds, k.lc, k.rc, k.file) ∧
        ((((u.tileH tile).copies.getD copy {}).rsCache.find? fun q => q.addr == k.rsp - 48).map (fun q => bits q.lo 39 0) = some (k.pc % 2 ^ 40)) ∧
        ((((u.tileH tile).copies.getD copy {}).rsCache.find? fun q => q.addr == k.rsp - 32).map (fun q => (bits q.lo 13 0, bits q.lo 45 38, bits q.lo 51 46, bits q.lo 62 60, bits q.lo 59 52 * 2 ^ 32 + q.hi)) = some (bits k.status 13 0, k.depth % 256, 0x0D, 0, pageBase + p * 4096)) ∧
        ((u.tileH tile).jrn = (s.tileH tile).jrn ++ (if (s.kx tile copy).chk then [⟨3, 0x0D, (pageBase + p * 4096), false, (s.tileH tile).bundles⟩] else [])) ∧
        (({ u.tileH tile with copies := [], bundles := 0, due := none, bound := none, lastDue := 0, port := [], undo := [], jrn := [] } : TileH) = { s.tileH tile with copies := [], bundles := 0, due := none, bound := none, lastDue := 0, port := [], undo := [], jrn := [] }) ∧
        (∀ x, ¬((physOf tile (k.rsp - 48)) ≤ x ∧ x < (physOf tile (k.rsp - 48)) + 48) → u.byte x = s.byte x) ∧
        (∀ x, x ≠ tile → u.tileH x = s.tileH x) ∧
        RegsOnly [pgTile tile, pgEccT tile, pgPmc tile] s u ∧
        ({ u with regs := s.regs, tiles := s.tiles, hot := s.hot, pmcT := s.pmcT, mem := s.mem, chk := s.chk, pois := s.pois, tags := s.tags } = s) :)
    ∧ (∀ (tile copy : Nat) (k : KCopy) (a : Nat) (e : DivE) (g : Cap) (s : State), (Instr.exceptionEntry tile copy).wf = true → s.calm = true → s.kCan tile copy = true → (s.tileH tile).copies.getD copy {} = k → k.shadow = [] → k.la = false → k.remain = none → (s.kx tile copy).owner = true → bit k.status 0 = false → (k.arith.all fun z => decide (max k.clk s.now < z.due)) = true → ((s.kx tile copy).chk = false ∨ (s.tileH tile).replay = []) → k.divI = some e → max k.clk s.now < e.ready → k.latI = none → k.divF = none → (s.tileH tile).wdgx = [a] → a < 2 ^ 40 → (s.kx tile copy).canEnter 0x0E g = true →
      Completes (.exceptionEntry tile copy) s fun u => 
        ((u.tileH tile).copies.getD copy {}).pc = g.base ∧
        ((u.tileH tile).copies.getD copy {}).cap 0 = g ∧
        ((u.tileH tile).copies.getD copy {}).status = k.status ||| 1 ∧
        ((u.tileH tile).copies.getD copy {}).base = k.top % 2 ^ 17 ∧
        ((u.tileH tile).copies.getD copy {}).depth = 0 ∧
        ((u.tileH tile).copies.getD copy {}).rsp = k.rsp - 48 ∧
        (((u.tileH tile).copies.getD copy {}).preds, ((u.tileH tile).copies.getD copy {}).lc, ((u.tileH tile).copies.getD copy {}).rc, ((u.tileH tile).copies.getD copy {}).file) = (k.preds, k.lc, k.rc, k.file) ∧
        ((((u.tileH tile).copies.getD copy {}).rsCache.find? fun q => q.addr == k.rsp - 48).map (fun q => bits q.lo 39 0) = some (k.pc % 2 ^ 40)) ∧
        ((((u.tileH tile).copies.getD copy {}).rsCache.find? fun q => q.addr == k.rsp - 32).map (fun q => (bits q.lo 13 0, bits q.lo 45 38, bits q.lo 51 46, bits q.lo 62 60, bits q.lo 59 52 * 2 ^ 32 + q.hi)) = some (bits k.status 13 0, k.depth % 256, 0x0E, 0, a)) ∧
        (u.tileH tile).wdgx = [] ∧
        (((u.tileH tile).copies.getD copy {}).divI, ((u.tileH tile).copies.getD copy {}).latI) = (none, some e) ∧
        ((u.tileH tile).jrn = (s.tileH tile).jrn ++ (if (s.kx tile copy).chk then [⟨3, 0x0E, a, false, (s.tileH tile).bundles⟩] else [])) ∧
        (({ u.tileH tile with copies := [], bundles := 0, due := none, bound := none, lastDue := 0, port := [], undo := [], jrn := [], wdgx := [] } : TileH) = { s.tileH tile with copies := [], bundles := 0, due := none, bound := none, lastDue := 0, port := [], undo := [], jrn := [], wdgx := [] }) ∧
        (∀ x, ¬((physOf tile (k.rsp - 48)) ≤ x ∧ x < (physOf tile (k.rsp - 48)) + 48) → u.byte x = s.byte x) ∧
        (∀ x, x ≠ tile → u.tileH x = s.tileH x) ∧
        RegsOnly [pgTile tile, pgEccT tile, pgPmc tile] s u ∧
        ({ u with regs := s.regs, tiles := s.tiles, hot := s.hot, pmcT := s.pmcT, mem := s.mem, chk := s.chk, pois := s.pois, tags := s.tags } = s) :)
    ∧ (∀ (tile copy : Nat) (s : State), (Instr.exceptionEntry tile copy).wf = true → s.calm = true → (s.kCan tile copy = false ∨ (((s.kx tile copy).k.arith.all fun z => decide ((s.kx tile copy).iss < z.due)) = true ∧ ((s.kx tile copy).async = none ∨ ((s.kx tile copy).chk = true ∧ (s.tileH tile).replay ≠ [])))) →
      Completes (.exceptionEntry tile copy) s fun u => 
        u = s :)
    ∧ (∀ (i : Issue) (f0 f1 f2 : RsSlot) (k : KCopy) (s : State), (Instr.retx i).wf = true → s.calm = true → s.solo i (.retx) = true → s.copyOf i = k → k.rsCache.find? (fun q => q.addr == k.rsp + 0) = some f0 → k.rsCache.find? (fun q => q.addr == k.rsp + 16) = some f1 → k.rsCache.find? (fun q => q.addr == k.rsp + 32) = some f2 → f0.pois = false → f1.pois = false → f2.pois = false → (⟨f2.lo + f2.hi * 2 ^ 64, f2.tag⟩ : Cap).usable = true → bit f1.lo 62 = false → bits f1.lo 45 38 ≤ 224 → bits f1.lo 37 21 + bits f1.lo 45 38 ≤ k.low + 256 → f0.hi < 2 ^ 64 → f1.hi < 2 ^ 64 → bit f0.lo 58 = false → k.latI = none → k.latF = none →
      Completes (.retx i) s fun u => 
        ((u.tileH i.tile).copies.getD i.copy {}).pc = bits f0.lo 39 1 * 2 ∧
        ((u.tileH i.tile).copies.getD i.copy {}).cap 0 = ⟨f2.lo + f2.hi * 2 ^ 64, f2.tag⟩ ∧
        ((u.tileH i.tile).copies.getD i.copy {}).status = bits f1.lo 13 0 &&& 0x3F07 ∧
        ((u.tileH i.tile).copies.getD i.copy {}).preds = 1 + 2 * bits f1.lo 20 14 ∧
        ((u.tileH i.tile).copies.getD i.copy {}).lc = f0.hi % 2 ^ 32 ∧
        ((u.tileH i.tile).copies.getD i.copy {}).rc = f0.hi / 2 ^ 32 ∧
        (((u.tileH i.tile).copies.getD i.copy {}).base, ((u.tileH i.tile).copies.getD i.copy {}).depth) = (bits f1.lo 37 21, bits f1.lo 45 38) ∧
        ((u.tileH i.tile).copies.getD i.copy {}).rsp = k.rsp + 48 ∧
        ((u.tileH i.tile).copies.getD i.copy {}).file = k.file ∧
        (((u.tileH i.tile).copies.getD i.copy {}).remain = (if bit f0.lo 59 then some (f1.hi / 2 ^ 32) else none)) ∧
        (∀ x, x ≠ i.tile → u.tileH x = s.tileH x) ∧
        (u.mem = s.mem) ∧
        RegsOnly [pgTile i.tile] s u ∧
        ((u.tileH i.tile).copies.getD i.copy {}).la = false :)
    ∧ (∀ (i : Issue) (f0 f1 f2 : RsSlot) (k : KCopy) (s : State), (Instr.retx i).wf = true → s.calm = true → s.solo i (.retx) = true → s.copyOf i = k → k.rsCache.find? (fun q => q.addr == k.rsp + 0) = some f0 → k.rsCache.find? (fun q => q.addr == k.rsp + 16) = some f1 → k.rsCache.find? (fun q => q.addr == k.rsp + 32) = some f2 → f0.pois = false → f1.pois = false → f2.pois = false → (⟨f2.lo + f2.hi * 2 ^ 64, f2.tag⟩ : Cap).usable = true → bit f1.lo 62 = false → bits f1.lo 45 38 ≤ 224 → bits f1.lo 37 21 + bits f1.lo 45 38 ≤ k.low + 256 → f0.hi < 2 ^ 64 → f1.hi < 2 ^ 64 → bit f0.lo 58 = true → 2 * bits f0.lo 48 40 ≤ bits f0.lo 39 1 * 2 → k.latI = none → k.latF = none →
      Completes (.retx i) s fun u => 
        ((u.tileH i.tile).copies.getD i.copy {}).pc = bits f0.lo 39 1 * 2 ∧
        ((u.tileH i.tile).copies.getD i.copy {}).cap 0 = ⟨f2.lo + f2.hi * 2 ^ 64, f2.tag⟩ ∧
        ((u.tileH i.tile).copies.getD i.copy {}).status = bits f1.lo 13 0 &&& 0x3F07 ∧
        ((u.tileH i.tile).copies.getD i.copy {}).preds = 1 + 2 * bits f1.lo 20 14 ∧
        ((u.tileH i.tile).copies.getD i.copy {}).lc = f0.hi % 2 ^ 32 ∧
        ((u.tileH i.tile).copies.getD i.copy {}).rc = f0.hi / 2 ^ 32 ∧
        (((u.tileH i.tile).copies.getD i.copy {}).base, ((u.tileH i.tile).copies.getD i.copy {}).depth) = (bits f1.lo 37 21, bits f1.lo 45 38) ∧
        ((u.tileH i.tile).copies.getD i.copy {}).rsp = k.rsp + 48 ∧
        ((u.tileH i.tile).copies.getD i.copy {}).file = k.file ∧
        (((u.tileH i.tile).copies.getD i.copy {}).remain = (if bit f0.lo 59 then some (f1.hi / 2 ^ 32) else none)) ∧
        (∀ x, x ≠ i.tile → u.tileH x = s.tileH x) ∧
        (u.mem = s.mem) ∧
        RegsOnly [pgTile i.tile] s u ∧
        (((u.tileH i.tile).copies.getD i.copy {}).ls, ((u.tileH i.tile).copies.getD i.copy {}).leoff, ((u.tileH i.tile).copies.getD i.copy {}).la) = (bits f0.lo 39 1 * 2 - 2 * bits f0.lo 48 40, bits f0.lo 57 49, decide (bits f0.lo 48 40 ≤ bits f0.lo 57 49)) :)
    ∧ (∀ (i : Issue) (g : Cap) (k : KCopy) (f0 f1 f2 : RsSlot) (s : State), (Instr.retx i).wf = true → s.calm = true → s.solo i (.retx) = true → s.copyOf i = k → (s.kx i.tile i.copy).canEnter 3 g = true → k.rsCache.find? (fun q => q.addr == k.rsp + 0) = some f0 → k.rsCache.find? (fun q => q.addr == k.rsp + 16) = some f1 → k.rsCache.find? (fun q => q.addr == k.rsp + 32) = some f2 → (f0.pois = true ∨ f1.pois = true ∨ f2.pois = true ∨ (⟨f2.lo + f2.hi * 2 ^ 64, f2.tag⟩ : Cap).usable = false ∨ bit f1.lo 62 = true) → k.latI = none → k.latF = none →
      Completes (.retx i) s fun u => 
        ((u.tileH i.tile).copies.getD i.copy {}).pc = g.base ∧
        ((u.tileH i.tile).copies.getD i.copy {}).cap 0 = g ∧
        ((u.tileH i.tile).copies.getD i.copy {}).status = k.status ||| 1 ∧
        ((u.tileH i.tile).copies.getD i.copy {}).base = k.top % 2 ^ 17 ∧
        ((u.tileH i.tile).copies.getD i.copy {}).depth = 0 ∧
        ((u.tileH i.tile).copies.getD i.copy {}).rsp = k.rsp - 48 ∧
        (((u.tileH i.tile).copies.getD i.copy {}).preds, ((u.tileH i.tile).copies.getD i.copy {}).lc, ((u.tileH i.tile).copies.getD i.copy {}).rc, ((u.tileH i.tile).copies.getD i.copy {}).file) = (k.preds, k.lc, k.rc, k.file) ∧
        ((((u.tileH i.tile).copies.getD i.copy {}).rsCache.find? fun q => q.addr == k.rsp - 48).map (fun q => bits q.lo 39 0) = some (k.pc % 2 ^ 40)) ∧
        ((((u.tileH i.tile).copies.getD i.copy {}).rsCache.find? fun q => q.addr == k.rsp - 32).map (fun q => (bits q.lo 13 0, bits q.lo 45 38, bits q.lo 51 46, bit q.lo 61)) = some (bits k.status 13 0, k.depth % 256, 3, false) ∧ (((u.tileH i.tile).copies.getD i.copy {}).rsCache.find? fun q => q.addr == k.rsp - 48).map (fun q => bits q.lo 63 60) = some (0 % 16)) ∧
        (∀ x, x ≠ i.tile → u.tileH x = s.tileH x) :)

/-- A scrubber that is enabled takes its early queue first, but for lines under self-test, then the next line of its walk: a DRAM line with at most four wrong symbols is corrected, one with more keeps its bytes as stored and is marked poisoned; an SRAM line without an uncorrectable byte is written back corrected and its poison and tags stay, and a word with one is counted and marked poisoned; a clean line, one under self-test and a bank that is not ON change nothing but the position; a line in a store buffer waits; the last line ends the lap with its cycles, of a cluster memory once every bank that was ON throughout has done. ECC_PWR written sets each bank OFF with zeros, in RETENTION, or WAKING, and waits for a slice that runs there; a wake completes to ON; ECC_FLIP_CFG keeps what is written, clamped on the DRAM. -/
def Obligations.MemoryScrub : Prop :=
    (∀ (a : Nat) (rest : List Nat) (t : Nat) (s : State), (Instr.scrubLine pgEccD 0 t).wf = true → s.calm = true → s.getB pgEccD 0x040 31 = true → s.bankUse pgEccD 0 = 2 → (s.bankH pgEccD 0).early = a :: rest → (s.upTo t).lineTested pgEccD 0 (a / 64) = false → a < dramSize → (s.lineErr (a / 64)).length ≤ 4 →
      Completes (.scrubLine pgEccD 0 t) s fun u => 
        u.lineErr (a / 64) = [] ∧
        (u.bankH pgEccD 0).early = rest.filter (· != a) ∧
        (s.lineErr (a / 64) ≠ [] → u.rd64 pgEccD (0x108 + 16 * (a / 2 ^ 32)) % 2 ^ 48 = a / 64 * 64) ∧
        (∀ l, l ≠ a / 64 → u.lineErr l = s.lineErr l) ∧
        u.fld pgEccD 0x060 31 16 = s.fld pgEccD 0x060 31 16 ∧
        u.now = max s.now t ∧
        RegsOnly [pgEccD] s u ∧
        { u with regs := s.regs, now := s.now, hot := s.hot, banks := s.banks, dramErr := s.dramErr } = s :)
    ∧ (∀ (a : Nat) (rest : List Nat) (t : Nat) (s : State), (Instr.scrubLine pgEccD 0 t).wf = true → s.calm = true → s.getB pgEccD 0x040 31 = true → s.bankUse pgEccD 0 = 2 → (s.bankH pgEccD 0).early = a :: rest → (s.upTo t).lineTested pgEccD 0 (a / 64) = false → a < dramSize → 4 < (s.lineErr (a / 64)).length →
      Completes (.scrubLine pgEccD 0 t) s fun u => 
        u.lineErr (a / 64) = [] ∧
        (u.bankH pgEccD 0).early = rest.filter (· != a) ∧
        (s.lineErr (a / 64) ≠ [] → u.rd64 pgEccD (0x108 + 16 * (a / 2 ^ 32)) % 2 ^ 48 = a / 64 * 64) ∧
        (∀ l, l ≠ a / 64 → u.lineErr l = s.lineErr l) ∧
        (∀ j ∈ List.range 8, maj3 (u.poisCopies (a / 64 * 64 + 8 * j)) = true) ∧
        (∀ j ∈ List.range 64, u.byte (a / 64 * 64 + j) = s.storedByte (a / 64 * 64 + j)) ∧
        (∀ x, x / 64 ≠ a / 64 → u.byte x = s.byte x ∧ u.poisCopies x = s.poisCopies x) ∧
        u.fld pgEccD 0x060 31 16 = min 65535 (s.fld pgEccD 0x060 31 16 + 1) ∧
        u.now = max s.now t ∧
        RegsOnly [pgEccD] s u ∧
        { u with regs := s.regs, now := s.now, hot := s.hot, banks := s.banks, dramErr := s.dramErr, mem := s.mem, pois := s.pois } = s :)
    ∧ (∀ (page b t : Nat) (s : State), (Instr.scrubLine page b t).wf = true → s.calm = true → s.getB page 0x040 31 = false →
      Completes (.scrubLine page b t) s fun u => 
        u.now = max s.now t ∧
        RegsOnly [] s u ∧
        { u with regs := s.regs, now := s.now, hot := s.hot } = s :)
    ∧ (∀ (page b t a : Nat) (s : State), (Instr.scrubLine page b t).wf = true → s.calm = true → s.getB page 0x040 31 = true → s.bankUse page b = 2 → (s.bankH page b).early.find? (fun x => !(s.upTo t).lineTested page b ((x - (bankRange page b).1) / 64)) = some a → (s.upTo t).lineStored page a = true →
      Completes (.scrubLine page b t) s fun u => 
        u.now = max s.now t ∧
        RegsOnly [] s u ∧
        { u with regs := s.regs, now := s.now, hot := s.hot } = s :)
    ∧ (∀ (page b t : Nat) (s : State), (Instr.scrubLine page b t).wf = true → s.calm = true → s.getB page 0x040 31 = true → s.bankUse page b = 2 → ((s.bankH page b).early.all fun x => (s.upTo t).lineTested page b ((x - (bankRange page b).1) / 64)) = true → (s.upTo t).lineTested page b (s.bankH page b).pos = false → (s.upTo t).lineStored page ((bankRange page b).1 + 64 * (s.bankH page b).pos) = true →
      Completes (.scrubLine page b t) s fun u => 
        u.now = max s.now t ∧
        RegsOnly [] s u ∧
        { u with regs := s.regs, now := s.now, hot := s.hot } = s :)
    ∧ (∀ (page b t : Nat) (s : State), (Instr.scrubLine page b t).wf = true → s.calm = true → s.getB page 0x040 31 = true → (s.bankUse page b ≠ 2 ∨ (((s.bankH page b).early.all fun x => (s.upTo t).lineTested page b ((x - (bankRange page b).1) / 64)) = true ∧ (s.upTo t).lineTested page b (s.bankH page b).pos = true)) → ((bankRange page b).1 + 64 * (s.bankH page b).pos) + 64 < (bankRange page b).2 →
      Completes (.scrubLine page b t) s fun u => 
        u.bankH page b = { s.bankH page b with pos := (s.bankH page b).pos + 1 } ∧
        u.fld page 0x04C 28 0 = (s.bankH page b).pos + 1 ∧
        (∀ q, q ≠ bankKey page b → sget (fun _ => ({} : BankH)) u.banks q = sget (fun _ => ({} : BankH)) s.banks q) ∧
        u.now = max s.now t ∧
        RegsOnly [page] s u ∧
        { u with regs := s.regs, now := s.now, hot := s.hot, banks := s.banks } = s :)
    ∧ (∀ (page b t : Nat) (s : State), (Instr.scrubLine page b t).wf = true → s.calm = true → s.getB page 0x040 31 = true → s.bankUse page b = 2 → (s.upTo t).lineTested page b (s.bankH page b).pos = false → (∀ x ∈ List.range 64, s.chkDiff (((bankRange page b).1 + 64 * (s.bankH page b).pos) + x) = 0) → (∀ j ∈ List.range 8, s.poisCopies (((bankRange page b).1 + 64 * (s.bankH page b).pos) + 8 * j) = 0 ∨ s.poisCopies (((bankRange page b).1 + 64 * (s.bankH page b).pos) + 8 * j) = 7) → (∀ j ∈ List.range 8, s.tagCopies (((bankRange page b).1 + 64 * (s.bankH page b).pos) + 8 * j) = 0 ∨ s.tagCopies (((bankRange page b).1 + 64 * (s.bankH page b).pos) + 8 * j) = 7) → (s.bankH page b).early = [] → eccSub page ≠ 2 → (s.upTo t).lineStored page ((bankRange page b).1 + 64 * (s.bankH page b).pos) = false → ((bankRange page b).1 + 64 * (s.bankH page b).pos) + 64 < (bankRange page b).2 →
      Completes (.scrubLine page b t) s fun u => 
        u.bankH page b = { s.bankH page b with pos := (s.bankH page b).pos + 1 } ∧
        u.fld page 0x04C 28 0 = (s.bankH page b).pos + 1 ∧
        (∀ q, q ≠ bankKey page b → sget (fun _ => ({} : BankH)) u.banks q = sget (fun _ => ({} : BankH)) s.banks q) ∧
        u.now = max s.now t ∧
        RegsOnly [page] s u ∧
        { u with regs := s.regs, now := s.now, hot := s.hot, banks := s.banks } = s :)
    ∧ (∀ (page b t : Nat) (s : State), (Instr.scrubLine page b t).wf = true → s.calm = true → s.getB page 0x040 31 = true → s.bankUse page b = 2 → (s.upTo t).lineTested page b (s.bankH page b).pos = false → (∀ x ∈ List.range 64, s.chkDiff (((bankRange page b).1 + 64 * (s.bankH page b).pos) + x) = 0) → (∀ j ∈ List.range 8, s.poisCopies (((bankRange page b).1 + 64 * (s.bankH page b).pos) + 8 * j) = 0 ∨ s.poisCopies (((bankRange page b).1 + 64 * (s.bankH page b).pos) + 8 * j) = 7) → (∀ j ∈ List.range 8, s.tagCopies (((bankRange page b).1 + 64 * (s.bankH page b).pos) + 8 * j) = 0 ∨ s.tagCopies (((bankRange page b).1 + 64 * (s.bankH page b).pos) + 8 * j) = 7) → (s.bankH page b).early = [] → eccSub page ≠ 2 → (s.upTo t).lineStored page ((bankRange page b).1 + 64 * (s.bankH page b).pos) = false → (bankRange page b).2 ≤ ((bankRange page b).1 + 64 * (s.bankH page b).pos) + 64 → eccSub page = 0 →
      Completes (.scrubLine page b t) s fun u => 
        (u.bankH page b).pos = 0 ∧
        (u.bankH page b).lapStart = t ∧
        u.fld page 0x04C 28 0 = 0 ∧
        (∀ q, q ≠ bankKey page b → sget (fun _ => ({} : BankH)) u.banks q = sget (fun _ => ({} : BankH)) s.banks q) ∧
        u.rd64 page 0x050 = (max s.now t - (s.bankH page b).lapStart) % 2 ^ 64 ∧
        u.rd page 0x05C = min 0xFFFFFFFF (s.rd page 0x05C + 1) ∧
        u.getB page 0x010 17 = (s.getB page 0x010 17 || decide (s.fld page 0x040 15 0 * cyclesPerMs < (max s.now t - (s.bankH page b).lapStart))) ∧
        u.now = max s.now t ∧
        RegsOnly [page] s u ∧
        { u with regs := s.regs, now := s.now, hot := s.hot, banks := s.banks } = s :)
    ∧ (∀ (page b t : Nat) (s : State), (Instr.scrubLine page b t).wf = true → s.calm = true → s.getB page 0x040 31 = true → s.bankUse page b = 2 → (s.upTo t).lineTested page b (s.bankH page b).pos = false → (∀ x ∈ List.range 64, s.chkDiff (((bankRange page b).1 + 64 * (s.bankH page b).pos) + x) = 0) → (∀ j ∈ List.range 8, s.poisCopies (((bankRange page b).1 + 64 * (s.bankH page b).pos) + 8 * j) = 0 ∨ s.poisCopies (((bankRange page b).1 + 64 * (s.bankH page b).pos) + 8 * j) = 7) → (∀ j ∈ List.range 8, s.tagCopies (((bankRange page b).1 + 64 * (s.bankH page b).pos) + 8 * j) = 0 ∨ s.tagCopies (((bankRange page b).1 + 64 * (s.bankH page b).pos) + 8 * j) = 7) → (s.bankH page b).early = [] → eccSub page ≠ 2 → (bankRange page b).2 ≤ ((bankRange page b).1 + 64 * (s.bankH page b).pos) + 64 → eccSub page = 1 → b < 16 → (¬(∀ x ∈ List.range 16, x ≠ b → s.bankUse page x = 2 → (s.bankH page x).whole = true → (s.bankH page x).done = true)) →
      Completes (.scrubLine page b t) s fun u => 
        u.bankH page b = { s.bankH page b with pos := 0, done := true } ∧
        u.fld page 0x04C 28 0 = 0 ∧
        u.rd page 0x05C = s.rd page 0x05C ∧
        (∀ q, q ≠ bankKey page b → sget (fun _ => ({} : BankH)) u.banks q = sget (fun _ => ({} : BankH)) s.banks q) ∧
        u.now = max s.now t ∧
        RegsOnly [page] s u ∧
        { u with regs := s.regs, now := s.now, hot := s.hot, banks := s.banks } = s :)
    ∧ (∀ (page b t : Nat) (s : State), (Instr.scrubLine page b t).wf = true → s.calm = true → s.getB page 0x040 31 = true → s.bankUse page b = 2 → (s.upTo t).lineTested page b (s.bankH page b).pos = false → (∀ x ∈ List.range 64, s.chkDiff (((bankRange page b).1 + 64 * (s.bankH page b).pos) + x) = 0) → (∀ j ∈ List.range 8, s.poisCopies (((bankRange page b).1 + 64 * (s.bankH page b).pos) + 8 * j) = 0 ∨ s.poisCopies (((bankRange page b).1 + 64 * (s.bankH page b).pos) + 8 * j) = 7) → (∀ j ∈ List.range 8, s.tagCopies (((bankRange page b).1 + 64 * (s.bankH page b).pos) + 8 * j) = 0 ∨ s.tagCopies (((bankRange page b).1 + 64 * (s.bankH page b).pos) + 8 * j) = 7) → (s.bankH page b).early = [] → eccSub page ≠ 2 → (bankRange page b).2 ≤ ((bankRange page b).1 + 64 * (s.bankH page b).pos) + 64 → eccSub page = 1 → b < 16 → (∀ x ∈ List.range 16, x ≠ b → s.bankUse page x = 2 → (s.bankH page x).whole = true → (s.bankH page x).done = true) →
      Completes (.scrubLine page b t) s fun u => 
        (u.bankH page b).pos = 0 ∧
        (∀ x ∈ List.range 16, (u.bankH page x).done = false ∧ (u.bankH page x).lapStart = max s.now t ∧ (u.bankH page x).whole = (s.bankUse page x == 2)) ∧
        u.fld page 0x04C 28 0 = 0 ∧
        u.rd64 page 0x050 = (max s.now t - (s.bankH page 0).lapStart) % 2 ^ 64 ∧
        u.rd page 0x05C = min 0xFFFFFFFF (s.rd page 0x05C + 1) ∧
        u.getB page 0x010 17 = (s.getB page 0x010 17 || decide (s.fld page 0x040 15 0 * cyclesPerMs < (max s.now t - (s.bankH page 0).lapStart))) ∧
        u.now = max s.now t ∧
        RegsOnly [page] s u ∧
        { u with regs := s.regs, now := s.now, hot := s.hot, banks := s.banks } = s :)
    ∧ (∀ (page b t a : Nat) (s : State), (Instr.scrubLine page b t).wf = true → s.calm = true → s.getB page 0x040 31 = true → s.bankUse page b = 2 → eccSub page ≠ 2 → (s.bankH page b).early.find? (fun x => !(s.upTo t).lineTested page b ((x - (bankRange page b).1) / 64)) = some a → (s.upTo t).lineStored page a = false → (∀ x ∈ List.range 64, s.chkDiff ((a / 64 * 64) + x) % 32 = 0 ∨ popCount 5 (s.chkDiff ((a / 64 * 64) + x)) % 2 = 1) →
      Completes (.scrubLine page b t) s fun u => 
        (∀ x ∈ List.range 64, u.chkDiff ((a / 64 * 64) + x) % 32 = 0) ∧
        (∀ x ∈ List.range 64, (u.byte ((a / 64 * 64) + x)).toNat = (decodeByte (s.byte ((a / 64 * 64) + x)).toNat (s.chkDiff ((a / 64 * 64) + x))).1 % 256) ∧
        (∀ x, maj3 (u.poisCopies x) = maj3 (s.poisCopies x)) ∧
        (∀ x, u.tag x = s.tag x) ∧
        (∀ x, x / 64 ≠ a / 64 → u.byte x = s.byte x ∧ u.chkDiff x = s.chkDiff x) ∧
        (u.bankH page b).early = (s.bankH page b).early.filter (· != a) ∧
        (∀ q, q ≠ bankKey page b → sget (fun _ => ({} : BankH)) u.banks q = sget (fun _ => ({} : BankH)) s.banks q) ∧
        u.now = max s.now t ∧
        RegsOnly [page] s u ∧
        { u with regs := s.regs, now := s.now, hot := s.hot, banks := s.banks, mem := s.mem, chk := s.chk, pois := s.pois, tags := s.tags } = s :)
    ∧ (∀ (page b t : Nat) (s : State), (Instr.scrubLine page b t).wf = true → s.calm = true → s.getB page 0x040 31 = true → s.bankUse page b = 2 → eccSub page ≠ 2 → ((s.bankH page b).early.all fun x => (s.upTo t).lineTested page b ((x - (bankRange page b).1) / 64)) = true → (s.upTo t).lineTested page b (s.bankH page b).pos = false → (s.upTo t).lineStored page ((bankRange page b).1 + 64 * (s.bankH page b).pos) = false → (∀ x ∈ List.range 64, s.chkDiff (((bankRange page b).1 + 64 * (s.bankH page b).pos) + x) % 32 = 0 ∨ popCount 5 (s.chkDiff (((bankRange page b).1 + 64 * (s.bankH page b).pos) + x)) % 2 = 1) → ((bankRange page b).1 + 64 * (s.bankH page b).pos) % 64 = 0 → ((bankRange page b).1 + 64 * (s.bankH page b).pos) + 64 < (bankRange page b).2 →
      Completes (.scrubLine page b t) s fun u => 
        (∀ x ∈ List.range 64, u.chkDiff (((bankRange page b).1 + 64 * (s.bankH page b).pos) + x) % 32 = 0) ∧
        (∀ x ∈ List.range 64, (u.byte (((bankRange page b).1 + 64 * (s.bankH page b).pos) + x)).toNat = (decodeByte (s.byte (((bankRange page b).1 + 64 * (s.bankH page b).pos) + x)).toNat (s.chkDiff (((bankRange page b).1 + 64 * (s.bankH page b).pos) + x))).1 % 256) ∧
        (∀ x, maj3 (u.poisCopies x) = maj3 (s.poisCopies x)) ∧
        (∀ x, u.tag x = s.tag x) ∧
        (∀ x, x / 64 ≠ ((bankRange page b).1 + 64 * (s.bankH page b).pos) / 64 → u.byte x = s.byte x ∧ u.chkDiff x = s.chkDiff x) ∧
        (u.bankH page b).pos = (s.bankH page b).pos + 1 ∧
        (u.bankH page b).early = (s.bankH page b).early ∧
        u.fld page 0x04C 28 0 = (s.bankH page b).pos + 1 ∧
        (∀ q, q ≠ bankKey page b → sget (fun _ => ({} : BankH)) u.banks q = sget (fun _ => ({} : BankH)) s.banks q) ∧
        u.now = max s.now t ∧
        RegsOnly [page] s u ∧
        { u with regs := s.regs, now := s.now, hot := s.hot, banks := s.banks, mem := s.mem, chk := s.chk, pois := s.pois, tags := s.tags } = s :)
    ∧ (∀ (page b t a j : Nat) (s : State), (Instr.scrubLine page b t).wf = true → s.calm = true → s.getB page 0x040 31 = true → s.bankUse page b = 2 → eccSub page ≠ 2 → (s.bankH page b).early.find? (fun x => !(s.upTo t).lineTested page b ((x - (bankRange page b).1) / 64)) = some a → (s.upTo t).lineStored page a = false → j < 8 → ((List.range 8).any fun x => decide (s.chkDiff (a / 64 * 64 + 8 * j + x) % 32 ≠ 0 ∧ popCount 5 (s.chkDiff (a / 64 * 64 + 8 * j + x)) % 2 = 0)) = true →
      Completes (.scrubLine page b t) s fun u => 
        u.poisCopies (a / 64 * 64 + 8 * j) = 7 ∧
        (∀ x ∈ List.range 64, u.chkDiff (a / 64 * 64 + x) % 32 = 0) ∧
        (u.fld page 0x060 31 16 = min 65535 (s.fld page 0x060 31 16 + ((List.range 8).filter fun y => ((List.range 8).any fun x => decide (s.chkDiff (a / 64 * 64 + 8 * y + x) % 32 ≠ 0 ∧ popCount 5 (s.chkDiff (a / 64 * 64 + 8 * y + x)) % 2 = 0))).length)) ∧
        u.getB page 0x010 16 = true ∧
        (∀ x, u.tag x = s.tag x) ∧
        (∀ x, x / 64 ≠ a / 64 → u.byte x = s.byte x ∧ u.chkDiff x = s.chkDiff x ∧ u.poisCopies x = s.poisCopies x) ∧
        (∀ q, q ≠ bankKey page b → sget (fun _ => ({} : BankH)) u.banks q = sget (fun _ => ({} : BankH)) s.banks q) ∧
        u.now = max s.now t ∧
        RegsOnly [page] s u ∧
        { u with regs := s.regs, now := s.now, hot := s.hot, banks := s.banks, mem := s.mem, chk := s.chk, pois := s.pois, tags := s.tags } = s :)
    ∧ (∀ (w : Writer) (c b v t : Nat) (s : State), (Instr.eccPwr w (pgEccC c) v t).wf = true → s.calm = true → c < 16 → b < 16 → (s.upTo t).sliceOn (pgEccC c) b = true → s.mayWrite w (pgEccC c) .eccC = true → s.powered (pgEccC c) = true → (s.pageH (pgEccC c)).resetting = false →
      Completes (.eccPwr w (pgEccC c) v t) s fun u => 
        u.fld (pgEccC c) 0x048 (2 * b + 1) (2 * b) = (s.fld (pgEccC c) 0x048 (2 * b + 1) (2 * b)) ∧
        u.fld (pgEccC c) 0x044 (2 * b + 1) (2 * b) = (min 2 (bits v (2 * b + 1) (2 * b))) ∧
        (u.bankH (pgEccC c) b).want = some (min 2 (bits v (2 * b + 1) (2 * b))) ∧
        (u.bankH (pgEccC c) b).wakeAt = (s.bankH (pgEccC c) b).wakeAt ∧
        (∀ a, (bankRange (pgEccC c) b).1 ≤ a → a < (bankRange (pgEccC c) b).2 → u.byte a = s.byte a ∧ u.poisCopies a = s.poisCopies a ∧ u.tagCopies a = s.tagCopies a) ∧
        u.now = max s.now t ∧
        RegsOnly [(pgEccC c), pgClu c] s u ∧
        { u with regs := s.regs, now := s.now, hot := s.hot, banks := s.banks, mem := s.mem, chk := s.chk, pois := s.pois, tags := s.tags, dramErr := s.dramErr } = s :)
    ∧ (∀ (w : Writer) (c b v t : Nat) (s : State), (Instr.eccPwr w (pgEccC c) v t).wf = true → s.calm = true → c < 16 → b < 16 → s.mayWrite w (pgEccC c) .eccC = true → (s.upTo t).sliceOn (pgEccC c) b = false → s.powered (pgEccC c) = true → (s.pageH (pgEccC c)).resetting = false →
      Completes (.eccPwr w (pgEccC c) v t) s fun u => 
        (u.fld (pgEccC c) 0x048 (2 * b + 1) (2 * b) = (if (min 2 (bits v (2 * b + 1) (2 * b))) = 2 then (if 2 ≤ (s.fld (pgEccC c) 0x048 (2 * b + 1) (2 * b)) then (s.fld (pgEccC c) 0x048 (2 * b + 1) (2 * b)) else 3) else if (min 2 (bits v (2 * b + 1) (2 * b))) = 0 ∨ (s.fld (pgEccC c) 0x048 (2 * b + 1) (2 * b)) = 0 then 0 else 1)) ∧
        u.fld (pgEccC c) 0x044 (2 * b + 1) (2 * b) = (min 2 (bits v (2 * b + 1) (2 * b))) ∧
        ((min 2 (bits v (2 * b + 1) (2 * b))) = 2 → (s.fld (pgEccC c) 0x048 (2 * b + 1) (2 * b)) < 2 → (u.bankH (pgEccC c) b).wakeAt = max s.now t + wakeCycles (eccSub (pgEccC c)) (s.fld (pgEccC c) 0x048 (2 * b + 1) (2 * b))) ∧
        ((min 2 (bits v (2 * b + 1) (2 * b))) = 0 → (u.bankH (pgEccC c) b).early = []) ∧
        (∀ a, (bankRange (pgEccC c) b).1 ≤ a → a < (bankRange (pgEccC c) b).2 → (min 2 (bits v (2 * b + 1) (2 * b))) = 0 → u.byte a = 0 ∧ u.chkDiff a = 0 ∧ u.poisCopies a = 0 ∧ u.tagCopies a = 0) ∧
        (∀ a, (bankRange (pgEccC c) b).1 ≤ a → a < (bankRange (pgEccC c) b).2 → (min 2 (bits v (2 * b + 1) (2 * b))) ≠ 0 → u.byte a = s.byte a ∧ u.poisCopies a = s.poisCopies a ∧ u.tagCopies a = s.tagCopies a) ∧
        u.now = max s.now t ∧
        RegsOnly [(pgEccC c), pgClu c] s u ∧
        { u with regs := s.regs, now := s.now, hot := s.hot, banks := s.banks, mem := s.mem, chk := s.chk, pois := s.pois, tags := s.tags, dramErr := s.dramErr } = s :)
    ∧ (∀ (w : Writer) (c v t : Nat) (s : State), (Instr.eccPwr w (pgEccT c) v t).wf = true → s.calm = true → c < 128 → s.mayWrite w (pgEccT c) .eccT = true → (s.upTo t).sliceOn (pgEccT c) 0 = false → s.powered (pgEccT c) = true → (s.pageH (pgEccT c)).resetting = false →
      Completes (.eccPwr w (pgEccT c) v t) s fun u => 
        (u.fld (pgEccT c) 0x048 (2 * 0 + 1) (2 * 0) = (if (if s.ready (pgTile c) then 2 else min 2 (v % 4)) = 2 then (if 2 ≤ (s.fld (pgEccT c) 0x048 (2 * 0 + 1) (2 * 0)) then (s.fld (pgEccT c) 0x048 (2 * 0 + 1) (2 * 0)) else 3) else if (if s.ready (pgTile c) then 2 else min 2 (v % 4)) = 0 ∨ (s.fld (pgEccT c) 0x048 (2 * 0 + 1) (2 * 0)) = 0 then 0 else 1)) ∧
        (u.fld (pgEccT c) 0x044 (2 * 0 + 1) (2 * 0) = (if s.ready (pgTile c) then 2 else min 2 (v % 4))) ∧
        ((if s.ready (pgTile c) then 2 else min 2 (v % 4)) = 2 → (s.fld (pgEccT c) 0x048 (2 * 0 + 1) (2 * 0)) < 2 → (u.bankH (pgEccT c) 0).wakeAt = max s.now t + wakeCycles (eccSub (pgEccT c)) (s.fld (pgEccT c) 0x048 (2 * 0 + 1) (2 * 0))) ∧
        ((if s.ready (pgTile c) then 2 else min 2 (v % 4)) = 0 → (u.bankH (pgEccT c) 0).early = []) ∧
        (∀ a, (bankRange (pgEccT c) 0).1 ≤ a → a < (bankRange (pgEccT c) 0).2 → (if s.ready (pgTile c) then 2 else min 2 (v % 4)) = 0 → u.byte a = 0 ∧ u.chkDiff a = 0 ∧ u.poisCopies a = 0 ∧ u.tagCopies a = 0) ∧
        (∀ a, (bankRange (pgEccT c) 0).1 ≤ a → a < (bankRange (pgEccT c) 0).2 → (if s.ready (pgTile c) then 2 else min 2 (v % 4)) ≠ 0 → u.byte a = s.byte a ∧ u.poisCopies a = s.poisCopies a ∧ u.tagCopies a = s.tagCopies a) ∧
        u.now = max s.now t ∧
        RegsOnly [(pgEccT c)] s u ∧
        { u with regs := s.regs, now := s.now, hot := s.hot, banks := s.banks, mem := s.mem, chk := s.chk, pois := s.pois, tags := s.tags, dramErr := s.dramErr } = s :)
    ∧ (∀ (w : Writer) (v t : Nat) (s : State), (Instr.eccPwr w pgEccD v t).wf = true → s.calm = true → s.mayWrite w pgEccD .eccD = true → (s.upTo t).sliceOn pgEccD 0 = false → s.powered pgEccD = true → (s.pageH pgEccD).resetting = false →
      Completes (.eccPwr w pgEccD v t) s fun u => 
        (u.fld pgEccD 0x048 (2 * 0 + 1) (2 * 0) = (if (min 2 (v % 4)) = 2 then (if 2 ≤ (s.fld pgEccD 0x048 (2 * 0 + 1) (2 * 0)) then (s.fld pgEccD 0x048 (2 * 0 + 1) (2 * 0)) else 3) else if (min 2 (v % 4)) = 0 ∨ (s.fld pgEccD 0x048 (2 * 0 + 1) (2 * 0)) = 0 then 0 else 1)) ∧
        u.fld pgEccD 0x044 (2 * 0 + 1) (2 * 0) = (min 2 (v % 4)) ∧
        ((min 2 (v % 4)) = 2 → (s.fld pgEccD 0x048 (2 * 0 + 1) (2 * 0)) < 2 → (u.bankH pgEccD 0).wakeAt = max s.now t + wakeCycles (eccSub pgEccD) (s.fld pgEccD 0x048 (2 * 0 + 1) (2 * 0))) ∧
        ((min 2 (v % 4)) = 0 → (u.bankH pgEccD 0).early = []) ∧
        (∀ a, (bankRange pgEccD 0).1 ≤ a → a < (bankRange pgEccD 0).2 → (min 2 (v % 4)) = 0 → u.byte a = 0 ∧ u.chkDiff a = 0 ∧ u.poisCopies a = 0 ∧ u.tagCopies a = 0) ∧
        (∀ a, (bankRange pgEccD 0).1 ≤ a → a < (bankRange pgEccD 0).2 → (min 2 (v % 4)) ≠ 0 → u.byte a = s.byte a ∧ u.poisCopies a = s.poisCopies a ∧ u.tagCopies a = s.tagCopies a) ∧
        u.now = max s.now t ∧
        RegsOnly [pgEccD] s u ∧
        { u with regs := s.regs, now := s.now, hot := s.hot, banks := s.banks, mem := s.mem, chk := s.chk, pois := s.pois, tags := s.tags, dramErr := s.dramErr } = s :)
    ∧ (∀ (page b t : Nat) (s : State), (Instr.bankWakeComplete page b t).wf = true → s.calm = true → s.bankUse page b = 3 → s.bankReadyAt page b ≤ t →
      Completes (.bankWakeComplete page b t) s fun u => 
        u.rd page 0x048 = setBits (s.rd page 0x048) (2 * b + 1) (2 * b) 2 ∧
        (eccSub page = 1 → u.getB (page - 7) 0x010 16 = true) ∧
        u.bankUse page b = 2 ∧
        (u.bankH page b).wakeAt = 0 ∧
        (∀ q, q ≠ bankKey page b → sget (fun _ => ({} : BankH)) u.banks q = sget (fun _ => ({} : BankH)) s.banks q) ∧
        u.now = max s.now t ∧
        RegsOnly [page, (page - 7)] s u ∧
        { u with regs := s.regs, now := s.now, hot := s.hot, banks := s.banks } = s :)
    ∧ (∀ (page b t : Nat) (s : State), (Instr.bankWakeComplete page b t).wf = true → s.calm = true → (s.bankUse page b ≠ 3 ∨ t < s.bankReadyAt page b) →
      Completes (.bankWakeComplete page b t) s fun u => 
        u.now = max s.now t ∧
        RegsOnly [] s u ∧
        { u with regs := s.regs, now := s.now, hot := s.hot } = s :)
    ∧ (∀ (w : Writer) (page v t : Nat) (k : Kind) (i : Nat) (s : State), (Instr.eccFlipCfg w page v t).wf = true → s.calm = true → pageAt page = some (k, i) → k ≠ .eccD → s.mayWrite w page k = true → s.powered page = true → (s.pageH page).resetting = false → s.locked page = false →
      Completes (.eccFlipCfg w page v t) s fun u => 
        u.fld page 0x064 31 31 = bits v 31 31 ∧
        u.fld page 0x064 30 28 = bits v 30 28 ∧
        u.fld page 0x064 27 24 = bits v 27 24 ∧
        u.fld page 0x064 22 16 = bits v 22 16 ∧
        u.fld page 0x064 15 12 = bits v 15 12 ∧
        u.fld page 0x064 7 0 = bits v 7 0 ∧
        u.bankH page 0 = { s.bankH page 0 with flipT := some (max s.now t), flipOld := (s.upTo t).flipRegs page } ∧
        (∀ q, q ≠ bankKey page 0 → sget (fun _ => ({} : BankH)) u.banks q = sget (fun _ => ({} : BankH)) s.banks q) ∧
        u.now = max s.now t ∧
        RegsOnly [page] s u ∧
        { u with regs := s.regs, now := s.now, hot := s.hot, banks := s.banks } = s :)
    ∧ (∀ (w : Writer) (v t : Nat) (s : State), (Instr.eccFlipCfg w pgEccD v t).wf = true → s.calm = true → s.mayWrite w pgEccD .eccD = true → s.powered pgEccD = true → (s.pageH pgEccD).resetting = false → s.locked pgEccD = false →
      Completes (.eccFlipCfg w pgEccD v t) s fun u => 
        u.fld pgEccD 0x064 31 31 = bits v 31 31 ∧
        u.fld pgEccD 0x064 27 24 = min 7 (bits v 27 24) ∧
        u.fld pgEccD 0x064 22 16 = min 79 (bits v 22 16) ∧
        u.fld pgEccD 0x064 15 12 = min (min 12 (bits v 15 12)) (80 - min 79 (bits v 22 16)) ∧
        u.fld pgEccD 0x064 7 0 = bits v 7 0 ∧
        u.bankH pgEccD 0 = { s.bankH pgEccD 0 with flipT := some (max s.now t), flipOld := (s.upTo t).flipRegs pgEccD } ∧
        (∀ q, q ≠ bankKey pgEccD 0 → sget (fun _ => ({} : BankH)) u.banks q = sget (fun _ => ({} : BankH)) s.banks q) ∧
        u.now = max s.now t ∧
        RegsOnly [pgEccD] s u ∧
        { u with regs := s.regs, now := s.now, hot := s.hot, banks := s.banks } = s :)

/-- A service with its key in BOOT, OPEN or WARNING, all registered tasks checked in, locks the page, clears CHECKED, counts, keeps its time and begins the closed window, or the open one where CLOSED is 0. A wrong key fails with cause 5, a service in CLOSED with 2, one with a task missing with 3; a check-in sets the bit of its task, one of an unregistered task fails with 6 and a second one with 4. In HARD both are counted as late, PARKED and retired watchdogs take none, and another party’s write is counted in PAGE_CLAMP. The end of CLOSED opens the window, the end of BOOT or OPEN fails with cause 1. A failure records and counts its cause and goes to HARD and raises WDGX with its party, or to WARNING where ACT is 1; in WARNING it resets the tile, as the end of WARNING and HARD do to the watched party, and a boot window starts. A wake point raises bit 18, once in a window; an oscillator fault raises bit 19 and fails with cause 7. A counter of untimed events wraps at COUNTER_OVERFLOW with its bits, and freezes the page where FOVF is 1. -/
def Obligations.Watchdogs : Prop :=
    (∀ (w : Writer) (p t : Nat) (k : Kind) (i : Nat) (s : State), (Instr.wdgSvc w p 0xA5C3 t).wf = true → s.calm = true → pageAt p = some (k, i) → s.mayWrite w p k = true → s.powered p = true → (s.pageH p).resetting = false → s.wdgParty w p = true → s.retired p = false → (s.wstate p = 0 ∨ s.wstate p = 2 ∨ s.wstate p = 4) → s.fld p 0x04C 15 0 &&& s.fld p 0x05C 15 0 = s.fld p 0x04C 15 0 →
      Completes (.wdgSvc w p 0xA5C3 t) s fun u => 
        (s.fld p 0x044 23 0 = 0 → u.wstate p = 2 ∧ (u.wdgH p).dur = (s.fld p 0x048 23 0 * 25)) ∧
        (s.fld p 0x044 23 0 ≠ 0 → u.wstate p = 1 ∧ (u.wdgH p).dur = (s.fld p 0x044 23 0 * 25)) ∧
        (u.wdgH p).t0 = max s.now t ∧
        (u.wdgH p).woke = false ∧
        u.locked p = true ∧
        u.fld p 0x05C 15 0 = 0 ∧
        u.fld p 0x064 31 16 = min 0xFFFF (s.fld p 0x064 31 16 + 1) ∧
        (u.fld p 0x064 7 4 = min 15 (s.fld p 0x064 7 4 + (if s.wstate p = 4 then 1 else 0))) ∧
        u.rd64 p 0x068 = max s.now t % 2 ^ 64 ∧
        (∀ q, q ≠ p → u.wdgH q = s.wdgH q) ∧
        u.now = max s.now t ∧
        RegsOnly [p] s u ∧
        { u with regs := s.regs, now := s.now, hot := s.hot, wdg := s.wdg } = s :)
    ∧ (∀ (w : Writer) (p key t : Nat) (k : Kind) (i : Nat) (s : State), (Instr.wdgSvc w p key t).wf = true → s.calm = true → s.mayWrite w p k = true → s.powered p = true → (s.pageH p).resetting = false → s.wdgParty w p = true → key ≠ 0xA5C3 → s.retired p = false → (s.wstate p = 0 ∨ s.wstate p = 1 ∨ s.wstate p = 2) → pageAt p = some (k, i) → k = .wdgT → s.getB p 0x040 31 = false →
      Completes (.wdgSvc w p key t) s fun u => 
        u.fld p 0x05C 27 24 = 5 ∧
        u.fld p 0x008 15 8 = 5 ∧
        u.fld p 0x064 15 8 = min 255 (s.fld p 0x064 15 8 + 1) ∧
        u.getB p 0x010 16 = true ∧
        u.wstate p = 3 ∧
        u.wdgH p = { t0 := max s.now t, dur := s.fld p 0x040 9 0 * 25, woke := false } ∧
        u.faulted p = true ∧
        u.ready p = false ∧
        (∀ q, q ≠ p → u.wdgH q = s.wdgH q) ∧
        (u.tileH i).wdgx = (s.tileH i).wdgx.filter (· != pageBase + p * 4096) ++ [pageBase + p * 4096] ∧
        (∀ x, x ≠ i → u.tileH x = s.tileH x) ∧
        ({ u.tileH i with wdgx := [] } : TileH) = { s.tileH i with wdgx := [] } ∧
        u.now = max s.now t ∧
        RegsOnly [p, pgBcp 1] s u ∧
        { u with regs := s.regs, now := s.now, hot := s.hot, wdg := s.wdg, tiles := s.tiles, log := s.log } = s :)
    ∧ (∀ (w : Writer) (p key t : Nat) (k : Kind) (i : Nat) (s : State), (Instr.wdgSvc w p key t).wf = true → s.calm = true → s.mayWrite w p k = true → s.powered p = true → (s.pageH p).resetting = false → s.wdgParty w p = true → key ≠ 0xA5C3 → s.retired p = false → (s.wstate p = 0 ∨ s.wstate p = 1 ∨ s.wstate p = 2) → pageAt p = some (k, i) → k = .wdgC → s.getB p 0x040 31 = false →
      Completes (.wdgSvc w p key t) s fun u => 
        u.fld p 0x05C 27 24 = 5 ∧
        u.fld p 0x008 15 8 = 5 ∧
        u.fld p 0x064 15 8 = min 255 (s.fld p 0x064 15 8 + 1) ∧
        u.getB p 0x010 16 = true ∧
        u.wstate p = 3 ∧
        u.wdgH p = { t0 := max s.now t, dur := s.fld p 0x040 9 0 * 25, woke := false } ∧
        u.faulted p = true ∧
        u.ready p = false ∧
        (∀ q, q ≠ p → u.wdgH q = s.wdgH q) ∧
        (u.tileH (s.workTile (8 * i + s.fld p 0x040 26 24))).wdgx = (s.tileH (s.workTile (8 * i + s.fld p 0x040 26 24))).wdgx.filter (· != pageBase + p * 4096) ++ [pageBase + p * 4096] ∧
        (∀ x, x ≠ s.workTile (8 * i + s.fld p 0x040 26 24) → u.tileH x = s.tileH x) ∧
        u.now = max s.now t ∧
        RegsOnly [p, pgBcp 1] s u ∧
        { u with regs := s.regs, now := s.now, hot := s.hot, wdg := s.wdg, tiles := s.tiles, log := s.log } = s :)
    ∧ (∀ (w : Writer) (p key t : Nat) (k : Kind) (i : Nat) (s : State), (Instr.wdgSvc w p key t).wf = true → s.calm = true → s.mayWrite w p k = true → s.powered p = true → (s.pageH p).resetting = false → s.wdgParty w p = true → key ≠ 0xA5C3 → s.retired p = false → (s.wstate p = 0 ∨ s.wstate p = 1 ∨ s.wstate p = 2) → pageAt p = some (k, i) → k = .wdgB → s.getB p 0x040 31 = false →
      Completes (.wdgSvc w p key t) s fun u => 
        u.fld p 0x05C 27 24 = 5 ∧
        u.fld p 0x008 15 8 = 5 ∧
        u.fld p 0x064 15 8 = min 255 (s.fld p 0x064 15 8 + 1) ∧
        u.getB p 0x010 16 = true ∧
        u.wstate p = 3 ∧
        u.wdgH p = { t0 := max s.now t, dur := s.fld p 0x040 9 0 * 25, woke := false } ∧
        u.faulted p = true ∧
        u.ready p = false ∧
        (∀ q, q ≠ p → u.wdgH q = s.wdgH q) ∧
        u.tiles = s.tiles ∧
        u.now = max s.now t ∧
        RegsOnly [p, pgBcp 1] s u ∧
        { u with regs := s.regs, now := s.now, hot := s.hot, wdg := s.wdg, tiles := s.tiles, log := s.log } = s :)
    ∧ (∀ (w : Writer) (p key t : Nat) (k : Kind) (i : Nat) (s : State), (Instr.wdgSvc w p key t).wf = true → s.calm = true → pageAt p = some (k, i) → s.mayWrite w p k = true → s.powered p = true → (s.pageH p).resetting = false → s.wdgParty w p = true → key ≠ 0xA5C3 → s.retired p = false → (s.wstate p = 0 ∨ s.wstate p = 1 ∨ s.wstate p = 2) → s.getB p 0x040 31 = true →
      Completes (.wdgSvc w p key t) s fun u => 
        u.fld p 0x05C 27 24 = 5 ∧
        u.fld p 0x008 15 8 = 5 ∧
        u.fld p 0x064 15 8 = min 255 (s.fld p 0x064 15 8 + 1) ∧
        u.getB p 0x010 16 = true ∧
        u.wstate p = 4 ∧
        u.wdgH p = { t0 := max s.now t, dur := (s.fld p 0x048 23 0 * 25), woke := false } ∧
        u.getB p 0x010 17 = true ∧
        u.fld p 0x05C 15 0 = s.fld p 0x05C 15 0 ∧
        (∀ q, q ≠ p → u.wdgH q = s.wdgH q) ∧
        u.now = max s.now t ∧
        RegsOnly [p] s u ∧
        { u with regs := s.regs, now := s.now, hot := s.hot, wdg := s.wdg } = s :)
    ∧ (∀ (w : Writer) (p t : Nat) (k : Kind) (i : Nat) (s : State), (Instr.wdgSvc w p 0xA5C3 t).wf = true → s.calm = true → s.mayWrite w p k = true → s.powered p = true → (s.pageH p).resetting = false → s.wdgParty w p = true → s.retired p = false → s.wstate p = 1 → pageAt p = some (k, i) → k = .wdgT → s.getB p 0x040 31 = false →
      Completes (.wdgSvc w p 0xA5C3 t) s fun u => 
        u.fld p 0x05C 27 24 = 2 ∧
        u.fld p 0x008 15 8 = 2 ∧
        u.fld p 0x064 15 8 = min 255 (s.fld p 0x064 15 8 + 1) ∧
        u.getB p 0x010 16 = true ∧
        u.wstate p = 3 ∧
        u.wdgH p = { t0 := max s.now t, dur := s.fld p 0x040 9 0 * 25, woke := false } ∧
        u.faulted p = true ∧
        u.ready p = false ∧
        (∀ q, q ≠ p → u.wdgH q = s.wdgH q) ∧
        (u.tileH i).wdgx = (s.tileH i).wdgx.filter (· != pageBase + p * 4096) ++ [pageBase + p * 4096] ∧
        (∀ x, x ≠ i → u.tileH x = s.tileH x) ∧
        ({ u.tileH i with wdgx := [] } : TileH) = { s.tileH i with wdgx := [] } ∧
        u.now = max s.now t ∧
        RegsOnly [p, pgBcp 1] s u ∧
        { u with regs := s.regs, now := s.now, hot := s.hot, wdg := s.wdg, tiles := s.tiles, log := s.log } = s :)
    ∧ (∀ (w : Writer) (p t : Nat) (k : Kind) (i : Nat) (s : State), (Instr.wdgSvc w p 0xA5C3 t).wf = true → s.calm = true → s.mayWrite w p k = true → s.powered p = true → (s.pageH p).resetting = false → s.wdgParty w p = true → s.retired p = false → s.wstate p = 1 → pageAt p = some (k, i) → k = .wdgC → s.getB p 0x040 31 = false →
      Completes (.wdgSvc w p 0xA5C3 t) s fun u => 
        u.fld p 0x05C 27 24 = 2 ∧
        u.fld p 0x008 15 8 = 2 ∧
        u.fld p 0x064 15 8 = min 255 (s.fld p 0x064 15 8 + 1) ∧
        u.getB p 0x010 16 = true ∧
        u.wstate p = 3 ∧
        u.wdgH p = { t0 := max s.now t, dur := s.fld p 0x040 9 0 * 25, woke := false } ∧
        u.faulted p = true ∧
        u.ready p = false ∧
        (∀ q, q ≠ p → u.wdgH q = s.wdgH q) ∧
        (u.tileH (s.workTile (8 * i + s.fld p 0x040 26 24))).wdgx = (s.tileH (s.workTile (8 * i + s.fld p 0x040 26 24))).wdgx.filter (· != pageBase + p * 4096) ++ [pageBase + p * 4096] ∧
        (∀ x, x ≠ s.workTile (8 * i + s.fld p 0x040 26 24) → u.tileH x = s.tileH x) ∧
        u.now = max s.now t ∧
        RegsOnly [p, pgBcp 1] s u ∧
        { u with regs := s.regs, now := s.now, hot := s.hot, wdg := s.wdg, tiles := s.tiles, log := s.log } = s :)
    ∧ (∀ (w : Writer) (p t : Nat) (k : Kind) (i : Nat) (s : State), (Instr.wdgSvc w p 0xA5C3 t).wf = true → s.calm = true → s.mayWrite w p k = true → s.powered p = true → (s.pageH p).resetting = false → s.wdgParty w p = true → s.retired p = false → s.wstate p = 1 → pageAt p = some (k, i) → k = .wdgB → s.getB p 0x040 31 = false →
      Completes (.wdgSvc w p 0xA5C3 t) s fun u => 
        u.fld p 0x05C 27 24 = 2 ∧
        u.fld p 0x008 15 8 = 2 ∧
        u.fld p 0x064 15 8 = min 255 (s.fld p 0x064 15 8 + 1) ∧
        u.getB p 0x010 16 = true ∧
        u.wstate p = 3 ∧
        u.wdgH p = { t0 := max s.now t, dur := s.fld p 0x040 9 0 * 25, woke := false } ∧
        u.faulted p = true ∧
        u.ready p = false ∧
        (∀ q, q ≠ p → u.wdgH q = s.wdgH q) ∧
        u.tiles = s.tiles ∧
        u.now = max s.now t ∧
        RegsOnly [p, pgBcp 1] s u ∧
        { u with regs := s.regs, now := s.now, hot := s.hot, wdg := s.wdg, tiles := s.tiles, log := s.log } = s :)
    ∧ (∀ (w : Writer) (p t : Nat) (k : Kind) (i : Nat) (s : State), (Instr.wdgSvc w p 0xA5C3 t).wf = true → s.calm = true → pageAt p = some (k, i) → s.mayWrite w p k = true → s.powered p = true → (s.pageH p).resetting = false → s.wdgParty w p = true → s.retired p = false → s.wstate p = 1 → s.getB p 0x040 31 = true →
      Completes (.wdgSvc w p 0xA5C3 t) s fun u => 
        u.fld p 0x05C 27 24 = 2 ∧
        u.fld p 0x008 15 8 = 2 ∧
        u.fld p 0x064 15 8 = min 255 (s.fld p 0x064 15 8 + 1) ∧
        u.getB p 0x010 16 = true ∧
        u.wstate p = 4 ∧
        u.wdgH p = { t0 := max s.now t, dur := (s.fld p 0x048 23 0 * 25), woke := false } ∧
        u.getB p 0x010 17 = true ∧
        u.fld p 0x05C 15 0 = s.fld p 0x05C 15 0 ∧
        (∀ q, q ≠ p → u.wdgH q = s.wdgH q) ∧
        u.now = max s.now t ∧
        RegsOnly [p] s u ∧
        { u with regs := s.regs, now := s.now, hot := s.hot, wdg := s.wdg } = s :)
    ∧ (∀ (w : Writer) (p t : Nat) (k : Kind) (i : Nat) (s : State), (Instr.wdgSvc w p 0xA5C3 t).wf = true → s.calm = true → s.mayWrite w p k = true → s.powered p = true → (s.pageH p).resetting = false → s.wdgParty w p = true → s.fld p 0x04C 15 0 &&& s.fld p 0x05C 15 0 ≠ s.fld p 0x04C 15 0 → s.retired p = false → (s.wstate p = 0 ∨ s.wstate p = 2) → pageAt p = some (k, i) → k = .wdgT → s.getB p 0x040 31 = false →
      Completes (.wdgSvc w p 0xA5C3 t) s fun u => 
        u.fld p 0x05C 27 24 = 3 ∧
        u.fld p 0x008 15 8 = 3 ∧
        u.fld p 0x064 15 8 = min 255 (s.fld p 0x064 15 8 + 1) ∧
        u.getB p 0x010 16 = true ∧
        u.wstate p = 3 ∧
        u.wdgH p = { t0 := max s.now t, dur := s.fld p 0x040 9 0 * 25, woke := false } ∧
        u.faulted p = true ∧
        u.ready p = false ∧
        (∀ q, q ≠ p → u.wdgH q = s.wdgH q) ∧
        (u.tileH i).wdgx = (s.tileH i).wdgx.filter (· != pageBase + p * 4096) ++ [pageBase + p * 4096] ∧
        (∀ x, x ≠ i → u.tileH x = s.tileH x) ∧
        ({ u.tileH i with wdgx := [] } : TileH) = { s.tileH i with wdgx := [] } ∧
        u.now = max s.now t ∧
        RegsOnly [p, pgBcp 1] s u ∧
        { u with regs := s.regs, now := s.now, hot := s.hot, wdg := s.wdg, tiles := s.tiles, log := s.log } = s :)
    ∧ (∀ (w : Writer) (p t : Nat) (k : Kind) (i : Nat) (s : State), (Instr.wdgSvc w p 0xA5C3 t).wf = true → s.calm = true → s.mayWrite w p k = true → s.powered p = true → (s.pageH p).resetting = false → s.wdgParty w p = true → s.fld p 0x04C 15 0 &&& s.fld p 0x05C 15 0 ≠ s.fld p 0x04C 15 0 → s.retired p = false → (s.wstate p = 0 ∨ s.wstate p = 2) → pageAt p = some (k, i) → k = .wdgC → s.getB p 0x040 31 = false →
      Completes (.wdgSvc w p 0xA5C3 t) s fun u => 
        u.fld p 0x05C 27 24 = 3 ∧
        u.fld p 0x008 15 8 = 3 ∧
        u.fld p 0x064 15 8 = min 255 (s.fld p 0x064 15 8 + 1) ∧
        u.getB p 0x010 16 = true ∧
        u.wstate p = 3 ∧
        u.wdgH p = { t0 := max s.now t, dur := s.fld p 0x040 9 0 * 25, woke := false } ∧
        u.faulted p = true ∧
        u.ready p = false ∧
        (∀ q, q ≠ p → u.wdgH q = s.wdgH q) ∧
        (u.tileH (s.workTile (8 * i + s.fld p 0x040 26 24))).wdgx = (s.tileH (s.workTile (8 * i + s.fld p 0x040 26 24))).wdgx.filter (· != pageBase + p * 4096) ++ [pageBase + p * 4096] ∧
        (∀ x, x ≠ s.workTile (8 * i + s.fld p 0x040 26 24) → u.tileH x = s.tileH x) ∧
        u.now = max s.now t ∧
        RegsOnly [p, pgBcp 1] s u ∧
        { u with regs := s.regs, now := s.now, hot := s.hot, wdg := s.wdg, tiles := s.tiles, log := s.log } = s :)
    ∧ (∀ (w : Writer) (p t : Nat) (k : Kind) (i : Nat) (s : State), (Instr.wdgSvc w p 0xA5C3 t).wf = true → s.calm = true → s.mayWrite w p k = true → s.powered p = true → (s.pageH p).resetting = false → s.wdgParty w p = true → s.fld p 0x04C 15 0 &&& s.fld p 0x05C 15 0 ≠ s.fld p 0x04C 15 0 → s.retired p = false → (s.wstate p = 0 ∨ s.wstate p = 2) → pageAt p = some (k, i) → k = .wdgB → s.getB p 0x040 31 = false →
      Completes (.wdgSvc w p 0xA5C3 t) s fun u => 
        u.fld p 0x05C 27 24 = 3 ∧
        u.fld p 0x008 15 8 = 3 ∧
        u.fld p 0x064 15 8 = min 255 (s.fld p 0x064 15 8 + 1) ∧
        u.getB p 0x010 16 = true ∧
        u.wstate p = 3 ∧
        u.wdgH p = { t0 := max s.now t, dur := s.fld p 0x040 9 0 * 25, woke := false } ∧
        u.faulted p = true ∧
        u.ready p = false ∧
        (∀ q, q ≠ p → u.wdgH q = s.wdgH q) ∧
        u.tiles = s.tiles ∧
        u.now = max s.now t ∧
        RegsOnly [p, pgBcp 1] s u ∧
        { u with regs := s.regs, now := s.now, hot := s.hot, wdg := s.wdg, tiles := s.tiles, log := s.log } = s :)
    ∧ (∀ (w : Writer) (p t : Nat) (k : Kind) (i : Nat) (s : State), (Instr.wdgSvc w p 0xA5C3 t).wf = true → s.calm = true → pageAt p = some (k, i) → s.mayWrite w p k = true → s.powered p = true → (s.pageH p).resetting = false → s.wdgParty w p = true → s.fld p 0x04C 15 0 &&& s.fld p 0x05C 15 0 ≠ s.fld p 0x04C 15 0 → s.retired p = false → (s.wstate p = 0 ∨ s.wstate p = 2) → s.getB p 0x040 31 = true →
      Completes (.wdgSvc w p 0xA5C3 t) s fun u => 
        u.fld p 0x05C 27 24 = 3 ∧
        u.fld p 0x008 15 8 = 3 ∧
        u.fld p 0x064 15 8 = min 255 (s.fld p 0x064 15 8 + 1) ∧
        u.getB p 0x010 16 = true ∧
        u.wstate p = 4 ∧
        u.wdgH p = { t0 := max s.now t, dur := (s.fld p 0x048 23 0 * 25), woke := false } ∧
        u.getB p 0x010 17 = true ∧
        u.fld p 0x05C 15 0 = s.fld p 0x05C 15 0 ∧
        (∀ q, q ≠ p → u.wdgH q = s.wdgH q) ∧
        u.now = max s.now t ∧
        RegsOnly [p] s u ∧
        { u with regs := s.regs, now := s.now, hot := s.hot, wdg := s.wdg } = s :)
    ∧ (∀ (w : Writer) (p key t : Nat) (k : Kind) (i : Nat) (s : State), (Instr.wdgSvc w p key t).wf = true → s.calm = true → pageAt p = some (k, i) → s.mayWrite w p k = true → s.powered p = true → (s.pageH p).resetting = false → s.wdgParty w p = true → key ≠ 0xA5C3 → s.retired p = false → s.wstate p = 4 → pageAt p = some (k, i) → k = .wdgT → s.retired (pgTile i) = false → (s.ready (pgTile i) || s.busy (pgTile i)) = true → (s.pageH (pgTile i)).resetting = false → s.getB (pgTile i) 0x040 29 = false →
      Completes (.wdgSvc w p key t) s fun u => 
        u.fld p 0x05C 27 24 = 5 ∧
        u.fld p 0x008 15 8 = 5 ∧
        u.fld p 0x064 15 8 = min 255 (s.fld p 0x064 15 8 + 1) ∧
        u.getB p 0x010 16 = true ∧
        (((u.tileH i).copies.all fun q => !q.run) = true) ∧
        u.faulted (pgTile i) = true ∧
        u.ready (pgTile i) = false ∧
        u.fld (pgTile i) 0x008 15 8 = 5 ∧
        ((u.tileH i).ocb, (u.tileH i).undo, (u.tileH i).jrn, (u.tileH i).due, (u.tileH i).bound) = ([], [], [], none, none) ∧
        u.wstate p = 0 ∧
        u.wdgH p = { t0 := max s.now t, dur := 12500000, woke := false } ∧
        u.fld p 0x05C 15 0 = 0 ∧
        (∀ x, x ≠ i → u.tileH x = s.tileH x) ∧
        (∀ q, q ≠ p → u.wdgH q = s.wdgH q) ∧
        u.now = max s.now t :)
    ∧ (∀ (w : Writer) (p key t : Nat) (k : Kind) (i : Nat) (s : State), (Instr.wdgSvc w p key t).wf = true → s.calm = true → pageAt p = some (k, i) → s.mayWrite w p k = true → s.powered p = true → (s.pageH p).resetting = false → s.wdgParty w p = true → s.retired p = false → s.wstate p = 3 →
      Completes (.wdgSvc w p key t) s fun u => 
        u.fld p 0x064 3 0 = min 15 (s.fld p 0x064 3 0 + 1) ∧
        u.fld p 0x064 31 4 = s.fld p 0x064 31 4 ∧
        (∀ q, q < 4096 → q ≠ 0x064 → u.rd p q = s.rd p q) ∧
        u.now = max s.now t ∧
        RegsOnly [p] s u ∧
        { u with regs := s.regs, now := s.now, hot := s.hot } = s :)
    ∧ (∀ (w : Writer) (p key t : Nat) (k : Kind) (i : Nat) (s : State), (Instr.wdgSvc w p key t).wf = true → s.calm = true → pageAt p = some (k, i) → s.mayWrite w p k = true → s.powered p = true → (s.pageH p).resetting = false → s.wdgParty w p = true → (s.wstate p = 5 ∨ s.retired p = true) →
      Completes (.wdgSvc w p key t) s fun u => 
        u.now = max s.now t ∧
        RegsOnly [] s u ∧
        { u with regs := s.regs, now := s.now, hot := s.hot } = s :)
    ∧ (∀ (w : Writer) (p key t : Nat) (k : Kind) (i : Nat) (s : State), (Instr.wdgSvc w p key t).wf = true → s.calm = true → pageAt p = some (k, i) → s.mayWrite w p k = true → s.powered p = true → (s.pageH p).resetting = false → s.wdgParty w p = false →
      Completes (.wdgSvc w p key t) s fun u => 
        u.fld p 0x018 31 16 = min 0xFFFF (s.fld p 0x018 31 16 + 1) ∧
        (u.fld p 0x018 13 12, u.fld p 0x018 11 0) = (0, 0x054) ∧
        (∀ q, q < 4096 → q ≠ 0x018 → u.rd p q = s.rd p q) ∧
        u.now = max s.now t ∧
        RegsOnly [p] s u ∧
        { u with regs := s.regs, now := s.now, hot := s.hot } = s :)
    ∧ (∀ (w : Writer) (p task t : Nat) (k : Kind) (i : Nat) (s : State), (Instr.wdgCheckin w p task t).wf = true → s.calm = true → pageAt p = some (k, i) → s.mayWrite w p k = true → s.powered p = true → (s.pageH p).resetting = false → s.wdgParty w p = true → s.retired p = false → s.wstate p ≠ 3 → s.wstate p ≠ 5 → s.getB p 0x04C task = true → s.getB p 0x05C task = false →
      Completes (.wdgCheckin w p task t) s fun u => 
        u.rd p 0x05C = setBit (s.rd p 0x05C) task true ∧
        (∀ q, q < 4096 → q ≠ 0x05C → u.rd p q = s.rd p q) ∧
        u.now = max s.now t ∧
        RegsOnly [p] s u ∧
        { u with regs := s.regs, now := s.now, hot := s.hot } = s :)
    ∧ (∀ (w : Writer) (p task t : Nat) (k : Kind) (i : Nat) (s : State), (Instr.wdgCheckin w p task t).wf = true → s.calm = true → s.mayWrite w p k = true → s.powered p = true → (s.pageH p).resetting = false → s.wdgParty w p = true → s.getB p 0x04C task = false → s.retired p = false → (s.wstate p = 0 ∨ s.wstate p = 1 ∨ s.wstate p = 2) → pageAt p = some (k, i) → k = .wdgT → s.getB p 0x040 31 = false →
      Completes (.wdgCheckin w p task t) s fun u => 
        u.fld p 0x05C 27 24 = 6 ∧
        u.fld p 0x008 15 8 = 6 ∧
        u.fld p 0x064 15 8 = min 255 (s.fld p 0x064 15 8 + 1) ∧
        u.getB p 0x010 16 = true ∧
        u.wstate p = 3 ∧
        u.wdgH p = { t0 := max s.now t, dur := s.fld p 0x040 9 0 * 25, woke := false } ∧
        u.faulted p = true ∧
        u.ready p = false ∧
        (∀ q, q ≠ p → u.wdgH q = s.wdgH q) ∧
        (u.tileH i).wdgx = (s.tileH i).wdgx.filter (· != pageBase + p * 4096) ++ [pageBase + p * 4096] ∧
        (∀ x, x ≠ i → u.tileH x = s.tileH x) ∧
        ({ u.tileH i with wdgx := [] } : TileH) = { s.tileH i with wdgx := [] } ∧
        u.now = max s.now t ∧
        RegsOnly [p, pgBcp 1] s u ∧
        { u with regs := s.regs, now := s.now, hot := s.hot, wdg := s.wdg, tiles := s.tiles, log := s.log } = s :)
    ∧ (∀ (w : Writer) (p task t : Nat) (k : Kind) (i : Nat) (s : State), (Instr.wdgCheckin w p task t).wf = true → s.calm = true → s.mayWrite w p k = true → s.powered p = true → (s.pageH p).resetting = false → s.wdgParty w p = true → s.getB p 0x04C task = false → s.retired p = false → (s.wstate p = 0 ∨ s.wstate p = 1 ∨ s.wstate p = 2) → pageAt p = some (k, i) → k = .wdgC → s.getB p 0x040 31 = false →
      Completes (.wdgCheckin w p task t) s fun u => 
        u.fld p 0x05C 27 24 = 6 ∧
        u.fld p 0x008 15 8 = 6 ∧
        u.fld p 0x064 15 8 = min 255 (s.fld p 0x064 15 8 + 1) ∧
        u.getB p 0x010 16 = true ∧
        u.wstate p = 3 ∧
        u.wdgH p = { t0 := max s.now t, dur := s.fld p 0x040 9 0 * 25, woke := false } ∧
        u.faulted p = true ∧
        u.ready p = false ∧
        (∀ q, q ≠ p → u.wdgH q = s.wdgH q) ∧
        (u.tileH (s.workTile (8 * i + s.fld p 0x040 26 24))).wdgx = (s.tileH (s.workTile (8 * i + s.fld p 0x040 26 24))).wdgx.filter (· != pageBase + p * 4096) ++ [pageBase + p * 4096] ∧
        (∀ x, x ≠ s.workTile (8 * i + s.fld p 0x040 26 24) → u.tileH x = s.tileH x) ∧
        u.now = max s.now t ∧
        RegsOnly [p, pgBcp 1] s u ∧
        { u with regs := s.regs, now := s.now, hot := s.hot, wdg := s.wdg, tiles := s.tiles, log := s.log } = s :)
    ∧ (∀ (w : Writer) (p task t : Nat) (k : Kind) (i : Nat) (s : State), (Instr.wdgCheckin w p task t).wf = true → s.calm = true → s.mayWrite w p k = true → s.powered p = true → (s.pageH p).resetting = false → s.wdgParty w p = true → s.getB p 0x04C task = false → s.retired p = false → (s.wstate p = 0 ∨ s.wstate p = 1 ∨ s.wstate p = 2) → pageAt p = some (k, i) → k = .wdgB → s.getB p 0x040 31 = false →
      Completes (.wdgCheckin w p task t) s fun u => 
        u.fld p 0x05C 27 24 = 6 ∧
        u.fld p 0x008 15 8 = 6 ∧
        u.fld p 0x064 15 8 = min 255 (s.fld p 0x064 15 8 + 1) ∧
        u.getB p 0x010 16 = true ∧
        u.wstate p = 3 ∧
        u.wdgH p = { t0 := max s.now t, dur := s.fld p 0x040 9 0 * 25, woke := false } ∧
        u.faulted p = true ∧
        u.ready p = false ∧
        (∀ q, q ≠ p → u.wdgH q = s.wdgH q) ∧
        u.tiles = s.tiles ∧
        u.now = max s.now t ∧
        RegsOnly [p, pgBcp 1] s u ∧
        { u with regs := s.regs, now := s.now, hot := s.hot, wdg := s.wdg, tiles := s.tiles, log := s.log } = s :)
    ∧ (∀ (w : Writer) (p task t : Nat) (k : Kind) (i : Nat) (s : State), (Instr.wdgCheckin w p task t).wf = true → s.calm = true → pageAt p = some (k, i) → s.mayWrite w p k = true → s.powered p = true → (s.pageH p).resetting = false → s.wdgParty w p = true → s.getB p 0x04C task = false → s.retired p = false → (s.wstate p = 0 ∨ s.wstate p = 1 ∨ s.wstate p = 2) → s.getB p 0x040 31 = true →
      Completes (.wdgCheckin w p task t) s fun u => 
        u.fld p 0x05C 27 24 = 6 ∧
        u.fld p 0x008 15 8 = 6 ∧
        u.fld p 0x064 15 8 = min 255 (s.fld p 0x064 15 8 + 1) ∧
        u.getB p 0x010 16 = true ∧
        u.wstate p = 4 ∧
        u.wdgH p = { t0 := max s.now t, dur := (s.fld p 0x048 23 0 * 25), woke := false } ∧
        u.getB p 0x010 17 = true ∧
        u.fld p 0x05C 15 0 = s.fld p 0x05C 15 0 ∧
        (∀ q, q ≠ p → u.wdgH q = s.wdgH q) ∧
        u.now = max s.now t ∧
        RegsOnly [p] s u ∧
        { u with regs := s.regs, now := s.now, hot := s.hot, wdg := s.wdg } = s :)
    ∧ (∀ (w : Writer) (p task t : Nat) (k : Kind) (i : Nat) (s : State), (Instr.wdgCheckin w p task t).wf = true → s.calm = true → s.mayWrite w p k = true → s.powered p = true → (s.pageH p).resetting = false → s.wdgParty w p = true → s.getB p 0x04C task = true → s.getB p 0x05C task = true → s.retired p = false → (s.wstate p = 0 ∨ s.wstate p = 1 ∨ s.wstate p = 2) → pageAt p = some (k, i) → k = .wdgT → s.getB p 0x040 31 = false →
      Completes (.wdgCheckin w p task t) s fun u => 
        u.fld p 0x05C 27 24 = 4 ∧
        u.fld p 0x008 15 8 = 4 ∧
        u.fld p 0x064 15 8 = min 255 (s.fld p 0x064 15 8 + 1) ∧
        u.getB p 0x010 16 = true ∧
        u.wstate p = 3 ∧
        u.wdgH p = { t0 := max s.now t, dur := s.fld p 0x040 9 0 * 25, woke := false } ∧
        u.faulted p = true ∧
        u.ready p = false ∧
        (∀ q, q ≠ p → u.wdgH q = s.wdgH q) ∧
        (u.tileH i).wdgx = (s.tileH i).wdgx.filter (· != pageBase + p * 4096) ++ [pageBase + p * 4096] ∧
        (∀ x, x ≠ i → u.tileH x = s.tileH x) ∧
        ({ u.tileH i with wdgx := [] } : TileH) = { s.tileH i with wdgx := [] } ∧
        u.now = max s.now t ∧
        RegsOnly [p, pgBcp 1] s u ∧
        { u with regs := s.regs, now := s.now, hot := s.hot, wdg := s.wdg, tiles := s.tiles, log := s.log } = s :)
    ∧ (∀ (w : Writer) (p task t : Nat) (k : Kind) (i : Nat) (s : State), (Instr.wdgCheckin w p task t).wf = true → s.calm = true → s.mayWrite w p k = true → s.powered p = true → (s.pageH p).resetting = false → s.wdgParty w p = true → s.getB p 0x04C task = true → s.getB p 0x05C task = true → s.retired p = false → (s.wstate p = 0 ∨ s.wstate p = 1 ∨ s.wstate p = 2) → pageAt p = some (k, i) → k = .wdgC → s.getB p 0x040 31 = false →
      Completes (.wdgCheckin w p task t) s fun u => 
        u.fld p 0x05C 27 24 = 4 ∧
        u.fld p 0x008 15 8 = 4 ∧
        u.fld p 0x064 15 8 = min 255 (s.fld p 0x064 15 8 + 1) ∧
        u.getB p 0x010 16 = true ∧
        u.wstate p = 3 ∧
        u.wdgH p = { t0 := max s.now t, dur := s.fld p 0x040 9 0 * 25, woke := false } ∧
        u.faulted p = true ∧
        u.ready p = false ∧
        (∀ q, q ≠ p → u.wdgH q = s.wdgH q) ∧
        (u.tileH (s.workTile (8 * i + s.fld p 0x040 26 24))).wdgx = (s.tileH (s.workTile (8 * i + s.fld p 0x040 26 24))).wdgx.filter (· != pageBase + p * 4096) ++ [pageBase + p * 4096] ∧
        (∀ x, x ≠ s.workTile (8 * i + s.fld p 0x040 26 24) → u.tileH x = s.tileH x) ∧
        u.now = max s.now t ∧
        RegsOnly [p, pgBcp 1] s u ∧
        { u with regs := s.regs, now := s.now, hot := s.hot, wdg := s.wdg, tiles := s.tiles, log := s.log } = s :)
    ∧ (∀ (w : Writer) (p task t : Nat) (k : Kind) (i : Nat) (s : State), (Instr.wdgCheckin w p task t).wf = true → s.calm = true → s.mayWrite w p k = true → s.powered p = true → (s.pageH p).resetting = false → s.wdgParty w p = true → s.getB p 0x04C task = true → s.getB p 0x05C task = true → s.retired p = false → (s.wstate p = 0 ∨ s.wstate p = 1 ∨ s.wstate p = 2) → pageAt p = some (k, i) → k = .wdgB → s.getB p 0x040 31 = false →
      Completes (.wdgCheckin w p task t) s fun u => 
        u.fld p 0x05C 27 24 = 4 ∧
        u.fld p 0x008 15 8 = 4 ∧
        u.fld p 0x064 15 8 = min 255 (s.fld p 0x064 15 8 + 1) ∧
        u.getB p 0x010 16 = true ∧
        u.wstate p = 3 ∧
        u.wdgH p = { t0 := max s.now t, dur := s.fld p 0x040 9 0 * 25, woke := false } ∧
        u.faulted p = true ∧
        u.ready p = false ∧
        (∀ q, q ≠ p → u.wdgH q = s.wdgH q) ∧
        u.tiles = s.tiles ∧
        u.now = max s.now t ∧
        RegsOnly [p, pgBcp 1] s u ∧
        { u with regs := s.regs, now := s.now, hot := s.hot, wdg := s.wdg, tiles := s.tiles, log := s.log } = s :)
    ∧ (∀ (w : Writer) (p task t : Nat) (k : Kind) (i : Nat) (s : State), (Instr.wdgCheckin w p task t).wf = true → s.calm = true → pageAt p = some (k, i) → s.mayWrite w p k = true → s.powered p = true → (s.pageH p).resetting = false → s.wdgParty w p = true → s.getB p 0x04C task = true → s.getB p 0x05C task = true → s.retired p = false → (s.wstate p = 0 ∨ s.wstate p = 1 ∨ s.wstate p = 2) → s.getB p 0x040 31 = true →
      Completes (.wdgCheckin w p task t) s fun u => 
        u.fld p 0x05C 27 24 = 4 ∧
        u.fld p 0x008 15 8 = 4 ∧
        u.fld p 0x064 15 8 = min 255 (s.fld p 0x064 15 8 + 1) ∧
        u.getB p 0x010 16 = true ∧
        u.wstate p = 4 ∧
        u.wdgH p = { t0 := max s.now t, dur := (s.fld p 0x048 23 0 * 25), woke := false } ∧
        u.getB p 0x010 17 = true ∧
        u.fld p 0x05C 15 0 = s.fld p 0x05C 15 0 ∧
        (∀ q, q ≠ p → u.wdgH q = s.wdgH q) ∧
        u.now = max s.now t ∧
        RegsOnly [p] s u ∧
        { u with regs := s.regs, now := s.now, hot := s.hot, wdg := s.wdg } = s :)
    ∧ (∀ (w : Writer) (p task t : Nat) (k : Kind) (i : Nat) (s : State), (Instr.wdgCheckin w p task t).wf = true → s.calm = true → pageAt p = some (k, i) → s.mayWrite w p k = true → s.powered p = true → (s.pageH p).resetting = false → s.wdgParty w p = true → s.getB p 0x04C task = false → s.retired p = false → s.wstate p = 4 → pageAt p = some (k, i) → k = .wdgT → s.retired (pgTile i) = false → (s.ready (pgTile i) || s.busy (pgTile i)) = true → (s.pageH (pgTile i)).resetting = false → s.getB (pgTile i) 0x040 29 = false →
      Completes (.wdgCheckin w p task t) s fun u => 
        u.fld p 0x05C 27 24 = 6 ∧
        u.fld p 0x008 15 8 = 6 ∧
        u.fld p 0x064 15 8 = min 255 (s.fld p 0x064 15 8 + 1) ∧
        u.getB p 0x010 16 = true ∧
        (((u.tileH i).copies.all fun q => !q.run) = true) ∧
        u.faulted (pgTile i) = true ∧
        u.ready (pgTile i) = false ∧
        u.fld (pgTile i) 0x008 15 8 = 5 ∧
        ((u.tileH i).ocb, (u.tileH i).undo, (u.tileH i).jrn, (u.tileH i).due, (u.tileH i).bound) = ([], [], [], none, none) ∧
        u.wstate p = 0 ∧
        u.wdgH p = { t0 := max s.now t, dur := 12500000, woke := false } ∧
        u.fld p 0x05C 15 0 = 0 ∧
        (∀ x, x ≠ i → u.tileH x = s.tileH x) ∧
        (∀ q, q ≠ p → u.wdgH q = s.wdgH q) ∧
        u.now = max s.now t :)
    ∧ (∀ (w : Writer) (p task t : Nat) (k : Kind) (i : Nat) (s : State), (Instr.wdgCheckin w p task t).wf = true → s.calm = true → pageAt p = some (k, i) → s.mayWrite w p k = true → s.powered p = true → (s.pageH p).resetting = false → s.wdgParty w p = true → s.retired p = false → s.wstate p = 3 →
      Completes (.wdgCheckin w p task t) s fun u => 
        u.fld p 0x064 3 0 = min 15 (s.fld p 0x064 3 0 + 1) ∧
        u.fld p 0x064 31 4 = s.fld p 0x064 31 4 ∧
        (∀ q, q < 4096 → q ≠ 0x064 → u.rd p q = s.rd p q) ∧
        u.now = max s.now t ∧
        RegsOnly [p] s u ∧
        { u with regs := s.regs, now := s.now, hot := s.hot } = s :)
    ∧ (∀ (w : Writer) (p task t : Nat) (k : Kind) (i : Nat) (s : State), (Instr.wdgCheckin w p task t).wf = true → s.calm = true → pageAt p = some (k, i) → s.mayWrite w p k = true → s.powered p = true → (s.pageH p).resetting = false → s.wdgParty w p = true → (s.wstate p = 5 ∨ s.retired p = true) →
      Completes (.wdgCheckin w p task t) s fun u => 
        u.now = max s.now t ∧
        RegsOnly [] s u ∧
        { u with regs := s.regs, now := s.now, hot := s.hot } = s :)
    ∧ (∀ (w : Writer) (p task t : Nat) (k : Kind) (i : Nat) (s : State), (Instr.wdgCheckin w p task t).wf = true → s.calm = true → pageAt p = some (k, i) → s.mayWrite w p k = true → s.powered p = true → (s.pageH p).resetting = false → s.wdgParty w p = false →
      Completes (.wdgCheckin w p task t) s fun u => 
        u.fld p 0x018 31 16 = min 0xFFFF (s.fld p 0x018 31 16 + 1) ∧
        (u.fld p 0x018 13 12, u.fld p 0x018 11 0) = (0, 0x058) ∧
        (∀ q, q < 4096 → q ≠ 0x018 → u.rd p q = s.rd p q) ∧
        u.now = max s.now t ∧
        RegsOnly [p] s u ∧
        { u with regs := s.regs, now := s.now, hot := s.hot } = s :)
    ∧ (∀ (p t : Nat) (s : State), (Instr.remainingExpiry p t).wf = true → s.calm = true → s.wdgOver p t = true → s.wstate p = 1 → (s.ready p || s.busy p) = true → s.faulted p = false →
      Completes (.remainingExpiry p t) s fun u => 
        u.wstate p = 2 ∧
        u.wdgH p = { t0 := max s.now t, dur := (s.fld p 0x048 23 0 * 25), woke := false } ∧
        (∀ q, q ≠ p → u.wdgH q = s.wdgH q) ∧
        u.now = max s.now t ∧
        RegsOnly [p] s u ∧
        { u with regs := s.regs, now := s.now, hot := s.hot, wdg := s.wdg } = s :)
    ∧ (∀ (p t : Nat) (k : Kind) (i : Nat) (s : State), (Instr.remainingExpiry p t).wf = true → s.calm = true → s.wdgOver p t = true → s.retired p = false → (s.wstate p = 0 ∨ s.wstate p = 2) → pageAt p = some (k, i) → k = .wdgT → s.getB p 0x040 31 = false →
      Completes (.remainingExpiry p t) s fun u => 
        u.fld p 0x05C 27 24 = 1 ∧
        u.fld p 0x008 15 8 = 1 ∧
        u.fld p 0x064 15 8 = min 255 (s.fld p 0x064 15 8 + 1) ∧
        u.getB p 0x010 16 = true ∧
        u.wstate p = 3 ∧
        u.wdgH p = { t0 := max s.now t, dur := s.fld p 0x040 9 0 * 25, woke := false } ∧
        u.faulted p = true ∧
        u.ready p = false ∧
        (∀ q, q ≠ p → u.wdgH q = s.wdgH q) ∧
        (u.tileH i).wdgx = (s.tileH i).wdgx.filter (· != pageBase + p * 4096) ++ [pageBase + p * 4096] ∧
        (∀ x, x ≠ i → u.tileH x = s.tileH x) ∧
        ({ u.tileH i with wdgx := [] } : TileH) = { s.tileH i with wdgx := [] } ∧
        u.now = max s.now t ∧
        RegsOnly [p, pgBcp 1] s u ∧
        { u with regs := s.regs, now := s.now, hot := s.hot, wdg := s.wdg, tiles := s.tiles, log := s.log } = s :)
    ∧ (∀ (p t : Nat) (k : Kind) (i : Nat) (s : State), (Instr.remainingExpiry p t).wf = true → s.calm = true → s.wdgOver p t = true → s.retired p = false → (s.wstate p = 0 ∨ s.wstate p = 2) → pageAt p = some (k, i) → k = .wdgC → s.getB p 0x040 31 = false →
      Completes (.remainingExpiry p t) s fun u => 
        u.fld p 0x05C 27 24 = 1 ∧
        u.fld p 0x008 15 8 = 1 ∧
        u.fld p 0x064 15 8 = min 255 (s.fld p 0x064 15 8 + 1) ∧
        u.getB p 0x010 16 = true ∧
        u.wstate p = 3 ∧
        u.wdgH p = { t0 := max s.now t, dur := s.fld p 0x040 9 0 * 25, woke := false } ∧
        u.faulted p = true ∧
        u.ready p = false ∧
        (∀ q, q ≠ p → u.wdgH q = s.wdgH q) ∧
        (u.tileH (s.workTile (8 * i + s.fld p 0x040 26 24))).wdgx = (s.tileH (s.workTile (8 * i + s.fld p 0x040 26 24))).wdgx.filter (· != pageBase + p * 4096) ++ [pageBase + p * 4096] ∧
        (∀ x, x ≠ s.workTile (8 * i + s.fld p 0x040 26 24) → u.tileH x = s.tileH x) ∧
        u.now = max s.now t ∧
        RegsOnly [p, pgBcp 1] s u ∧
        { u with regs := s.regs, now := s.now, hot := s.hot, wdg := s.wdg, tiles := s.tiles, log := s.log } = s :)
    ∧ (∀ (p t : Nat) (k : Kind) (i : Nat) (s : State), (Instr.remainingExpiry p t).wf = true → s.calm = true → s.wdgOver p t = true → s.retired p = false → (s.wstate p = 0 ∨ s.wstate p = 2) → pageAt p = some (k, i) → k = .wdgB → s.getB p 0x040 31 = false →
      Completes (.remainingExpiry p t) s fun u => 
        u.fld p 0x05C 27 24 = 1 ∧
        u.fld p 0x008 15 8 = 1 ∧
        u.fld p 0x064 15 8 = min 255 (s.fld p 0x064 15 8 + 1) ∧
        u.getB p 0x010 16 = true ∧
        u.wstate p = 3 ∧
        u.wdgH p = { t0 := max s.now t, dur := s.fld p 0x040 9 0 * 25, woke := false } ∧
        u.faulted p = true ∧
        u.ready p = false ∧
        (∀ q, q ≠ p → u.wdgH q = s.wdgH q) ∧
        u.tiles = s.tiles ∧
        u.now = max s.now t ∧
        RegsOnly [p, pgBcp 1] s u ∧
        { u with regs := s.regs, now := s.now, hot := s.hot, wdg := s.wdg, tiles := s.tiles, log := s.log } = s :)
    ∧ (∀ (p t : Nat) (s : State), (Instr.remainingExpiry p t).wf = true → s.calm = true → s.wdgOver p t = true → s.retired p = false → (s.wstate p = 0 ∨ s.wstate p = 2) → s.getB p 0x040 31 = true →
      Completes (.remainingExpiry p t) s fun u => 
        u.fld p 0x05C 27 24 = 1 ∧
        u.fld p 0x008 15 8 = 1 ∧
        u.fld p 0x064 15 8 = min 255 (s.fld p 0x064 15 8 + 1) ∧
        u.getB p 0x010 16 = true ∧
        u.wstate p = 4 ∧
        u.wdgH p = { t0 := max s.now t, dur := (s.fld p 0x048 23 0 * 25), woke := false } ∧
        u.getB p 0x010 17 = true ∧
        u.fld p 0x05C 15 0 = s.fld p 0x05C 15 0 ∧
        (∀ q, q ≠ p → u.wdgH q = s.wdgH q) ∧
        u.now = max s.now t ∧
        RegsOnly [p] s u ∧
        { u with regs := s.regs, now := s.now, hot := s.hot, wdg := s.wdg } = s :)
    ∧ (∀ (p t : Nat) (k : Kind) (i : Nat) (s : State), (Instr.remainingExpiry p t).wf = true → s.calm = true → s.wdgOver p t = true → (s.wstate p = 3 ∨ s.wstate p = 4) → pageAt p = some (k, i) → k = .wdgT → s.retired (pgTile i) = false → (s.ready (pgTile i) || s.busy (pgTile i)) = true → (s.pageH (pgTile i)).resetting = false → s.getB (pgTile i) 0x040 29 = false →
      Completes (.remainingExpiry p t) s fun u => 
        (((u.tileH i).copies.all fun q => !q.run) = true) ∧
        u.faulted (pgTile i) = true ∧
        u.ready (pgTile i) = false ∧
        u.fld (pgTile i) 0x008 15 8 = 5 ∧
        ((u.tileH i).ocb, (u.tileH i).undo, (u.tileH i).jrn, (u.tileH i).due, (u.tileH i).bound) = ([], [], [], none, none) ∧
        u.wstate p = 0 ∧
        u.wdgH p = { t0 := max s.now t, dur := 12500000, woke := false } ∧
        u.fld p 0x05C 15 0 = 0 ∧
        (∀ x, x ≠ i → u.tileH x = s.tileH x) ∧
        (∀ q, q ≠ p → u.wdgH q = s.wdgH q) ∧
        u.now = max s.now t :)
    ∧ (∀ (p t : Nat) (k : Kind) (i : Nat) (s : State), (Instr.remainingExpiry p t).wf = true → s.calm = true → s.wdgOver p t = true → (s.wstate p = 3 ∨ s.wstate p = 4) → pageAt p = some (k, i) → k = .wdgC → (∀ j ∈ List.range 8, s.retired (pgTile (8 * i + j)) = false) →
      Completes (.remainingExpiry p t) s fun u => 
        (∀ j ∈ List.range 8, ((u.tileH (8 * i + j)).copies.all fun q => !q.run) = true) ∧
        (∀ j ∈ List.range 8, (u.tileH (8 * i + j)).ocb = []) ∧
        u.wstate p = 0 ∧
        u.wdgH p = { t0 := max s.now t, dur := 12500000, woke := false } ∧
        u.fld p 0x05C 15 0 = 0 ∧
        (∀ x, x / 8 ≠ i → u.tileH x = s.tileH x) ∧
        u.now = max s.now t :)
    ∧ (∀ (p t : Nat) (s : State), (Instr.remainingExpiry p t).wf = true → s.calm = true → s.wdgOver p t = true → (s.wstate p = 3 ∨ s.wstate p = 4) → p = pgWdgB →
      Completes (.remainingExpiry p t) s fun u => 
        ((u.wstate p, (u.wdgH p).dur) = (if s.fld p 0x044 23 0 = 0 then (2, (s.fld p 0x048 23 0 * 25)) else (1, (s.fld p 0x044 23 0 * 25)))) ∧
        (u.wdgH p).t0 = max s.now t ∧
        u.fld p 0x05C 15 0 = 0 ∧
        u.locked p = true ∧
        u.tiles = s.tiles ∧
        u.souts = s.souts ∧
        u.mem = s.mem ∧
        u.now = max s.now t :)
    ∧ (∀ (p t : Nat) (s : State), (Instr.remainingExpiry p t).wf = true → s.calm = true → s.wdgOver p t = false →
      Completes (.remainingExpiry p t) s fun u => 
        u.now = max s.now t ∧
        RegsOnly [] s u ∧
        { u with regs := s.regs, now := s.now, hot := s.hot } = s :)
    ∧ (∀ (p t : Nat) (s : State), (Instr.wakePoint p t).wf = true → s.calm = true → s.wdgWakes p t = true → s.pstate' ≠ 1 → s.pstate' ≠ 2 →
      Completes (.wakePoint p t) s fun u => 
        u.wdgH p = { s.wdgH p with woke := true } ∧
        u.getB p 0x010 18 = true ∧
        u.wstate p = s.wstate p ∧
        (∀ q, q ≠ p → u.wdgH q = s.wdgH q) ∧
        u.now = max s.now t ∧
        RegsOnly [p] s u ∧
        { u with regs := s.regs, now := s.now, hot := s.hot, wdg := s.wdg } = s :)
    ∧ (∀ (p t : Nat) (s : State), (Instr.wakePoint p t).wf = true → s.calm = true → s.wdgWakes p t = true → s.pstate' = 1 →
      Completes (.wakePoint p t) s fun u => 
        u.wdgH p = { s.wdgH p with woke := true } ∧
        u.getB p 0x010 18 = true ∧
        u.bcp = { s.bcp with wakeHeld := some 2 } ∧
        (∀ q, q ≠ p → u.wdgH q = s.wdgH q) ∧
        u.now = max s.now t ∧
        RegsOnly [p] s u ∧
        { u with regs := s.regs, now := s.now, hot := s.hot, wdg := s.wdg, bcp := s.bcp } = s :)
    ∧ (∀ (p t : Nat) (s : State), (Instr.wakePoint p t).wf = true → s.calm = true → s.wdgWakes p t = true → s.pstate' = 2 →
      Completes (.wakePoint p t) s fun u => 
        (u.wdgH p).woke = true ∧
        u.getB p 0x010 18 = true ∧
        u.pstate' = 3 ∧
        u.fld (pgBcp 5) 0x044 27 24 = 2 ∧
        u.now = max s.now t :)
    ∧ (∀ (p t : Nat) (s : State), (Instr.wakePoint p t).wf = true → s.calm = true → s.wdgWakes p t = false →
      Completes (.wakePoint p t) s fun u => 
        u.now = max s.now t ∧
        RegsOnly [] s u ∧
        { u with regs := s.regs, now := s.now, hot := s.hot } = s :)
    ∧ (∀ (t p : Nat) (k : Kind) (i : Nat) (s : State), (Instr.oscillatorFault 16 t).wf = true → s.calm = true → s.retired p = false → (s.wstate p = 0 ∨ s.wstate p = 1 ∨ s.wstate p = 2) → pageAt p = some (k, i) → k = .wdgB → s.getB p 0x040 31 = false → p = pgWdgB →
      Completes (.oscillatorFault 16 t) s fun u => 
        u.fld p 0x05C 27 24 = 7 ∧
        u.fld p 0x008 15 8 = 7 ∧
        u.fld p 0x064 15 8 = min 255 (s.fld p 0x064 15 8 + 1) ∧
        u.getB p 0x010 16 = true ∧
        u.wstate p = 3 ∧
        u.wdgH p = { t0 := max s.now t, dur := s.fld p 0x040 9 0 * 25, woke := false } ∧
        u.faulted p = true ∧
        u.ready p = false ∧
        (∀ q, q ≠ p → u.wdgH q = s.wdgH q) ∧
        u.tiles = s.tiles ∧
        u.getB p 0x010 19 = true ∧
        u.now = max s.now t ∧
        RegsOnly [p, pgBcp 1] s u ∧
        { u with regs := s.regs, now := s.now, hot := s.hot, wdg := s.wdg, tiles := s.tiles, log := s.log } = s :)
    ∧ (∀ (t : Nat) (s : State), (Instr.oscillatorFault 16 t).wf = true → s.calm = true → (s.wstate pgWdgB = 3 ∨ s.wstate pgWdgB = 5 ∨ s.retired pgWdgB = true) →
      Completes (.oscillatorFault 16 t) s fun u => 
        u.getB pgWdgB 0x010 19 = true ∧
        u.rd pgWdgB 0x05C = s.rd pgWdgB 0x05C ∧
        u.now = max s.now t ∧
        RegsOnly [pgWdgB] s u ∧
        { u with regs := s.regs, now := s.now, hot := s.hot } = s :)
    ∧ (∀ (o t : Nat) (s : State), (Instr.oscillatorFault o t).wf = true → s.calm = true → o < 16 → (∀ j ∈ List.range 9, s.wstate (if j = 8 then pgWdgC o else pgWdgT (8 * o + j)) ≠ 4 ∧ s.getB (if j = 8 then pgWdgC o else pgWdgT (8 * o + j)) 0x040 31 = false) →
      Completes (.oscillatorFault o t) s fun u => 
        (∀ j ∈ List.range 9, u.getB (if j = 8 then pgWdgC o else pgWdgT (8 * o + j)) 0x010 19 = true) ∧
        (∀ j ∈ List.range 9, (s.wstate (if j = 8 then pgWdgC o else pgWdgT (8 * o + j)) = 3 ∨ s.wstate (if j = 8 then pgWdgC o else pgWdgT (8 * o + j)) = 5 ∨ s.retired (if j = 8 then pgWdgC o else pgWdgT (8 * o + j)) = true) → u.wstate (if j = 8 then pgWdgC o else pgWdgT (8 * o + j)) = s.wstate (if j = 8 then pgWdgC o else pgWdgT (8 * o + j)) ∧ u.fld (if j = 8 then pgWdgC o else pgWdgT (8 * o + j)) 0x05C 27 24 = s.fld (if j = 8 then pgWdgC o else pgWdgT (8 * o + j)) 0x05C 27 24) ∧
        (∀ j ∈ List.range 9, ¬(s.wstate (if j = 8 then pgWdgC o else pgWdgT (8 * o + j)) = 3 ∨ s.wstate (if j = 8 then pgWdgC o else pgWdgT (8 * o + j)) = 5 ∨ s.retired (if j = 8 then pgWdgC o else pgWdgT (8 * o + j)) = true) → u.wstate (if j = 8 then pgWdgC o else pgWdgT (8 * o + j)) = 3 ∧ u.fld (if j = 8 then pgWdgC o else pgWdgT (8 * o + j)) 0x05C 27 24 = 7 ∧ (u.wdgH (if j = 8 then pgWdgC o else pgWdgT (8 * o + j))).t0 = max s.now t ∧ (u.wdgH (if j = 8 then pgWdgC o else pgWdgT (8 * o + j))).dur = s.fld (if j = 8 then pgWdgC o else pgWdgT (8 * o + j)) 0x040 9 0 * 25) ∧
        u.now = max s.now t ∧
        (RegsOnly (pgBcp 1 :: pgWdgC o :: (List.range 8).map fun j => pgWdgT (8 * o + j)) s u) ∧
        { u with regs := s.regs, now := s.now, hot := s.hot, wdg := s.wdg, tiles := s.tiles, log := s.log } = s :)
    ∧ (∀ (tile i t : Nat) (s : State), (Instr.counterOverflow tile i t).wf = true → s.calm = true → s.enabled (pgPmc tile) = true → s.getB (pgPmc tile) 0x040 0 = false → s.getB (pgPmc tile) (0x050 + 4 * i) 31 = true → pmcTimed (s.fld (pgPmc tile) (0x050 + 4 * i) 7 0) = true → s.getB (pgPmc tile) 0x040 1 = false →
      Completes (.counterOverflow tile i t) s fun u => 
        u.rd (pgPmc tile) (0x070 + 8 * i) = 0 ∧
        u.fld (pgPmc tile) (0x074 + 8 * i) 15 0 = 0 ∧
        u.getB (pgPmc tile) 0x044 i = true ∧
        u.getB (pgPmc tile) 0x010 (16 + i) = true ∧
        u.getB (pgPmc tile) 0x040 0 = false ∧
        u.pmcT0 tile = max s.now t ∧
        u.now = max s.now t ∧
        RegsOnly [pgPmc tile] s u ∧
        { u with regs := s.regs, now := s.now, hot := s.hot, pmcT := s.pmcT } = s :)
    ∧ (∀ (tile i t : Nat) (s : State), (Instr.counterOverflow tile i t).wf = true → s.calm = true → s.enabled (pgPmc tile) = true → s.getB (pgPmc tile) 0x040 0 = false → s.getB (pgPmc tile) (0x050 + 4 * i) 31 = true → pmcTimed (s.fld (pgPmc tile) (0x050 + 4 * i) 7 0) = true → s.getB (pgPmc tile) 0x040 1 = true → (∀ j ∈ List.range 6, j ≠ i → s.getB (pgPmc tile) (0x050 + 4 * j) 31 = false) →
      Completes (.counterOverflow tile i t) s fun u => 
        u.rd (pgPmc tile) (0x070 + 8 * i) = 0 ∧
        u.getB (pgPmc tile) 0x044 i = true ∧
        u.getB (pgPmc tile) 0x010 (16 + i) = true ∧
        u.getB (pgPmc tile) 0x040 0 = true ∧
        u.now = max s.now t ∧
        RegsOnly [pgPmc tile] s u ∧
        { u with regs := s.regs, now := s.now, hot := s.hot, pmcT := s.pmcT } = s :)
    ∧ (∀ (tile i t : Nat) (s : State), (Instr.counterOverflow tile i t).wf = true → s.calm = true → (s.enabled (pgPmc tile) = false ∨ s.getB (pgPmc tile) 0x040 0 = true) →
      Completes (.counterOverflow tile i t) s fun u => 
        u.pmcT0 tile = max s.now t ∧
        (∀ x, x ≠ tile → u.pmcT0 x = s.pmcT0 x) ∧
        u.now = max s.now t ∧
        RegsOnly [] s u ∧
        { u with regs := s.regs, now := s.now, hot := s.hot, pmcT := s.pmcT } = s :)
    ∧ (∀ (tile i t : Nat) (s : State), (Instr.counterOverflow tile i t).wf = true → s.calm = true → (s.getB (pgPmc tile) (0x050 + 4 * i) 31 = false ∨ pmcTimed (s.fld (pgPmc tile) (0x050 + 4 * i) 7 0) = false) →
      Completes (.counterOverflow tile i t) s fun u => 
        u = (s.upTo t).pmcSettle tile :)

/-- With self-test on, a due slice of an engine, of a spare tile’s or copy C’s logic or of a memory starts and is noted; in ISOLATE it leaves zeros in its 4 KiB, in SAVE every byte as it was, an uncorrectable word poisoned; or it is held, once, until it can run. A working tile is moved to its ready spare, and without one sets SHORT. A slice that passes in time, with no write of PAGE_CTRL waiting for it, counts in BIST_PASSES and in its lap, an incomplete one and one over time in INCOMPLETE; a failing one counts in FAIL and leaves a record, the oldest of sixteen lost to a new one; a failing memory slice has a retest 1 ms later, a failing unit of logic retires. A retest that passes counts as TRANSIENT, one that fails again is confirmed, raises bit 17 and leaves a repair entry. A request waits with its time; its pass counts, leaves a record and raises bit 19; a faulted engine that passes recovers, a failing one retires. BIST_FUSE burns a repair entry while fuses are left. -/
def Obligations.SelfTest : Prop :=
    (∀ (unit inst slice t : Nat) (s : State), (Instr.sliceDue unit inst slice t).wf = true → s.calm = true → (s.ready pgBistM = false ∨ s.getB pgBistM 0x040 31 = false ∨ unitCount unit ≤ inst ∨ sliceCount unit ≤ slice) →
      Completes (.sliceDue unit inst slice t) s fun u => 
        u.now = max s.now t ∧
        RegsOnly [] s u ∧
        { u with regs := s.regs, now := s.now, hot := s.hot } = s :)
    ∧ (∀ (unit inst slice t : Nat) (s : State), (Instr.sliceDue unit inst slice t).wf = true → s.calm = true → s.ready pgBistM = true → s.getB pgBistM 0x040 31 = true → inst < unitCount unit → slice < sliceCount unit → (unit = 7 ∨ unit = 9) → (s.upTo t).sliceCan unit inst slice = true →
      Completes (.sliceDue unit inst slice t) s fun u => 
        (u.bistH (bistPage unit inst) = { (s.bistH (bistPage unit inst)) with runs := (s.bistH (bistPage unit inst)).runs ++ [⟨unit, inst, slice, max s.now t, true⟩], held := (s.bistH (bistPage unit inst)).held.filter (fun w => !(w.unit == unit && w.inst == inst && w.slice == slice)) }) ∧
        (∀ q, q ≠ (bistPage unit inst) → u.bistH q = s.bistH q) ∧
        u.now = max s.now t ∧
        RegsOnly [] s u ∧
        { u with regs := s.regs, now := s.now, hot := s.hot, bist := s.bist } = s :)
    ∧ (∀ (unit inst slice t : Nat) (s : State), (Instr.sliceDue unit inst slice t).wf = true → s.calm = true → s.ready pgBistM = true → s.getB pgBistM 0x040 31 = true → inst < unitCount unit → slice < sliceCount unit → (unit = 5 ∨ unit = 6) → (unit = 5 → s.getB (pgTile inst) 0x040 29 = true) → (s.upTo t).sliceCan unit inst slice = true →
      Completes (.sliceDue unit inst slice t) s fun u => 
        (u.bistH (bistPage unit inst)).runs = (s.bistH (bistPage unit inst)).runs ++ [⟨unit, inst, slice, max s.now t, (unit == 5)⟩] ∧
        (u.bistH pgBistM).began.head? = some (inst, max s.now t) ∧
        ((u.bistH (bistPage unit inst)).held = (s.bistH (bistPage unit inst)).held.filter (fun w => !(w.unit == unit && w.inst == inst && w.slice == slice))) ∧
        u.now = max s.now t ∧
        RegsOnly [] s u ∧
        { u with regs := s.regs, now := s.now, hot := s.hot, bist := s.bist } = s :)
    ∧ (∀ (unit inst slice t : Nat) (s : State), (Instr.sliceDue unit inst slice t).wf = true → s.calm = true → s.ready pgBistM = true → s.getB pgBistM 0x040 31 = true → inst < unitCount unit → slice < sliceCount unit → (unit = 5 ∨ unit = 6) → (unit = 5 → s.getB (pgTile inst) 0x040 29 = true) → (s.upTo t).sliceCan unit inst slice = true →
      Completes (.sliceDue unit inst slice t) s fun u => 
        (u.bistH (bistPage unit inst)).runs = (s.bistH (bistPage unit inst)).runs ++ [⟨unit, inst, slice, max s.now t, (unit == 5)⟩] ∧
        (u.bistH pgBistM).began.head? = some (inst, max s.now t) ∧
        ((u.bistH (bistPage unit inst)).held = (s.bistH (bistPage unit inst)).held.filter (fun w => !(w.unit == unit && w.inst == inst && w.slice == slice))) ∧
        u.now = max s.now t ∧
        RegsOnly [] s u ∧
        { u with regs := s.regs, now := s.now, hot := s.hot, bist := s.bist } = s :)
    ∧ (∀ (inst slice t : Nat) (s : State), (Instr.sliceDue 8 inst slice t).wf = true → s.calm = true → s.ready pgBistM = true → s.getB pgBistM 0x040 31 = true → inst < unitCount 8 → slice < sliceCount 8 → (s.upTo t).sliceCan 8 inst slice = true →
      Completes (.sliceDue 8 inst slice t) s fun u => 
        (u.bistH (pgBistC inst)).runs = (s.bistH (pgBistC inst)).runs ++ [⟨8, inst, slice, max s.now t, true⟩] ∧
        u.estate inst = 4 ∧
        u.fld (pgTfe inst) 0x074 15 0 = satAdd 65535 (s.fld (pgTfe inst) 0x074 15 0) 1 ∧
        u.now = max s.now t ∧
        RegsOnly [pgTfe inst] s u ∧
        { u with regs := s.regs, now := s.now, hot := s.hot, bist := s.bist, tfe := s.tfe } = s :)
    ∧ (∀ (unit inst slice t sk : Nat) (s : State), (Instr.sliceDue unit inst slice t).wf = true → s.calm = true → s.ready pgBistM = true → s.getB pgBistM 0x040 31 = true → inst < unitCount unit → slice < sliceCount unit → 1 ≤ unit → unit ≤ 3 → (s.upTo t).sliceCan unit inst slice = true → s.sliceIso unit inst slice = true →
      Completes (.sliceDue unit inst slice t) s fun u => 
        (u.bistH (bistPage unit inst)).runs = (s.bistH (bistPage unit inst)).runs ++ [⟨unit, inst, slice, max s.now t, true⟩] ∧
        (spaceKey unit inst = some sk → (u.bistH pgBistM).began.head? = some (sk, max s.now t)) ∧
        (∀ a, sliceAddr unit inst slice ≤ a → a < sliceAddr unit inst slice + 4096 → u.byte a = 0 ∧ u.poisCopies a = 0) ∧
        (∀ a, ¬(sliceAddr unit inst slice ≤ a ∧ a < sliceAddr unit inst slice + 4096) → u.byte a = s.byte a ∧ u.poisCopies a = s.poisCopies a) ∧
        u.now = max s.now t ∧
        RegsOnly [] s u ∧
        { u with regs := s.regs, now := s.now, hot := s.hot, bist := s.bist, mem := s.mem, chk := s.chk, pois := s.pois, tags := s.tags, dramErr := s.dramErr } = s :)
    ∧ (∀ (unit inst slice t sk : Nat) (s : State), (Instr.sliceDue unit inst slice t).wf = true → s.calm = true → s.ready pgBistM = true → s.getB pgBistM 0x040 31 = true → inst < unitCount unit → slice < sliceCount unit → 1 ≤ unit → unit ≤ 2 → (s.upTo t).sliceCan unit inst slice = true → s.sliceIso unit inst slice = false →
      Completes (.sliceDue unit inst slice t) s fun u => 
        (u.bistH (bistPage unit inst)).runs = (s.bistH (bistPage unit inst)).runs ++ [⟨unit, inst, slice, max s.now t, false⟩] ∧
        (spaceKey unit inst = some sk → (u.bistH pgBistM).began.head? = some (sk, max s.now t)) ∧
        u.mem = s.mem ∧
        u.tags = s.tags ∧
        (∀ a, sliceAddr unit inst slice ≤ a → a < sliceAddr unit inst slice + 4096 → maj3 (u.poisCopies a) = (maj3 (s.poisCopies a) || s.laneBadOutside (a / 8 * 8) 0 0)) ∧
        (∀ a, ¬(sliceAddr unit inst slice ≤ a ∧ a < sliceAddr unit inst slice + 4096) → u.chkDiff a = s.chkDiff a ∧ u.poisCopies a = s.poisCopies a) ∧
        u.now = max s.now t ∧
        (RegsOnly ((if unit = 1 then [pgEccT inst] else [pgEccC (inst / 16)])) s u) ∧
        { u with regs := s.regs, now := s.now, hot := s.hot, bist := s.bist, chk := s.chk, pois := s.pois, banks := s.banks } = s :)
    ∧ (∀ (inst slice t : Nat) (s : State), (Instr.sliceDue 3 inst slice t).wf = true → s.calm = true → s.ready pgBistM = true → s.getB pgBistM 0x040 31 = true → inst < unitCount 3 → slice < sliceCount 3 → (s.upTo t).sliceCan 3 inst slice = true → s.sliceIso 3 inst slice = false →
      Completes (.sliceDue 3 inst slice t) s fun u => 
        (u.bistH pgBistM).runs = (s.bistH pgBistM).runs ++ [⟨3, inst, slice, max s.now t, false⟩] ∧
        (u.bistH pgBistM).began.head? = some (144, max s.now t) ∧
        (∀ j ∈ List.range 64, u.lineErr (slice * 64 + j) = (if (s.lineErr (slice * 64 + j)).length ≤ 4 then s.lineErr (slice * 64 + j) else [])) ∧
        (∀ j ∈ List.range 64, 4 < (s.lineErr (slice * 64 + j)).length → (List.range 8).all (fun g => u.poisCopies (64 * (slice * 64 + j) + 8 * g) == 7) = true ∧ (List.range 64).all (fun g => u.byte (64 * (slice * 64 + j) + g) == s.storedByte (64 * (slice * 64 + j) + g)) = true) ∧
        (∀ a, a / 4096 ≠ slice → u.byte a = s.byte a ∧ u.poisCopies a = s.poisCopies a) ∧
        u.now = max s.now t ∧
        RegsOnly [pgEccD] s u ∧
        { u with regs := s.regs, now := s.now, hot := s.hot, bist := s.bist, mem := s.mem, pois := s.pois, dramErr := s.dramErr, banks := s.banks } = s :)
    ∧ (∀ (inst slice t : Nat) (s : State), (Instr.sliceDue 4 inst slice t).wf = true → s.calm = true → s.ready pgBistM = true → s.getB pgBistM 0x040 31 = true → inst < unitCount 4 → slice < sliceCount 4 → (s.upTo t).sliceCan 4 inst slice = true →
      Completes (.sliceDue 4 inst slice t) s fun u => 
        (u.bistH pgBistM).runs = (s.bistH pgBistM).runs ++ [⟨4, inst, slice, max s.now t, false⟩] ∧
        (u.bistH pgBistM).began.head? = some (145, max s.now t) ∧
        (∀ q, q ≠ pgBistM → u.bistH q = s.bistH q) ∧
        u.now = max s.now t ∧
        RegsOnly [] s u ∧
        { u with regs := s.regs, now := s.now, hot := s.hot, bist := s.bist } = s :)
    ∧ (∀ (unit inst slice t : Nat) (s : State), (Instr.sliceDue unit inst slice t).wf = true → s.calm = true → s.ready pgBistM = true → s.getB pgBistM 0x040 31 = true → inst < unitCount unit → slice < sliceCount unit → (unit = 5 → s.getB (pgTile inst) 0x040 29 = true) → (s.upTo t).sliceCan unit inst slice = false → (s.bistH (bistPage unit inst)).held.any (fun w => w.unit == unit && w.inst == inst && w.slice == slice) = false →
      Completes (.sliceDue unit inst slice t) s fun u => 
        u.bistH (bistPage unit inst) = { (s.bistH (bistPage unit inst)) with held := (s.bistH (bistPage unit inst)).held ++ [⟨unit, inst, slice, t⟩] } ∧
        (∀ q, q ≠ (bistPage unit inst) → u.bistH q = s.bistH q) ∧
        u.now = max s.now t ∧
        RegsOnly [] s u ∧
        { u with regs := s.regs, now := s.now, hot := s.hot, bist := s.bist } = s :)
    ∧ (∀ (unit inst slice t : Nat) (s : State), (Instr.sliceDue unit inst slice t).wf = true → s.ready pgBistM = true → s.getB pgBistM 0x040 31 = true → inst < unitCount unit → slice < sliceCount unit → (unit = 5 → s.getB (pgTile inst) 0x040 29 = true) → (s.upTo t).sliceCan unit inst slice = false → (s.bistH (bistPage unit inst)).held.any (fun w => w.unit == unit && w.inst == inst && w.slice == slice) = true →
      Completes (.sliceDue unit inst slice t) s fun u => 
        u.bist = s.bist ∧
        u.now = max s.now t :)
    ∧ (∀ (inst slice t : Nat) (s : State), (Instr.sliceDue 5 inst slice t).wf = true → s.calm = true → s.ready pgBistM = true → s.getB pgBistM 0x040 31 = true → inst < 128 → slice < 48 → s.getB (pgTile inst) 0x040 29 = false → s.readySpare inst = none →
      Completes (.sliceDue 5 inst slice t) s fun u => 
        u.getB (pgBistC (inst / 8)) 0x048 31 = true ∧
        u.getB (pgBistC (inst / 8)) 0x010 18 = true ∧
        u.now = max s.now t ∧
        RegsOnly [pgBistC (inst / 8)] s u ∧
        { u with regs := s.regs, now := s.now, hot := s.hot } = s :)
    ∧ (∀ (inst slice t sp : Nat) (s : State), (Instr.sliceDue 5 inst slice t).wf = true → s.calm = true → s.ready pgBistM = true → s.getB pgBistM 0x040 31 = true → inst < 128 → slice < 48 → s.getB (pgTile inst) 0x040 29 = false → s.readySpare inst = some sp →
      Completes (.sliceDue 5 inst slice t) s fun u => 
        ((u.fld (pgTile inst) 0x0A4 6 0, u.fld (pgTile inst) 0x0A4 31 29) = (sp, if (s.tileH inst).work ∧ s.ready (pgTile inst) = true then 1 else 4)) ∧
        ((s.tileH inst).work = true → s.ready (pgTile inst) = true → u.tileH inst = { s.tileH inst with spare := some (false, sp, max s.now t) }) ∧
        (∀ x, x ≠ inst → u.tileH x = s.tileH x) ∧
        u.now = max s.now t ∧
        RegsOnly [pgTile inst] s u ∧
        { u with regs := s.regs, now := s.now, hot := s.hot, tiles := s.tiles } = s :)
    ∧ (∀ (unit inst slice res wh at_ t : Nat) (s : State), (Instr.sliceEnd unit inst slice res wh at_ t).wf = true → s.calm = true → (s.bistH (bistPage unit inst)).runs.find? (fun r => r.unit == unit && r.inst == inst && r.slice == slice) = none → unit ≠ 9 → (s.pageH (logicPage unit inst)).ctrl = [] →
      Completes (.sliceEnd unit inst slice res wh at_ t) s fun u => 
        u.now = max s.now t ∧
        RegsOnly [] s u ∧
        { u with regs := s.regs, now := s.now, hot := s.hot } = s :)
    ∧ (∀ (unit inst slice wh at_ t : Nat) (rr : BRun) (s : State), (Instr.sliceEnd unit inst slice 1 wh at_ t).wf = true → s.calm = true → (s.bistH (bistPage unit inst)).runs.find? (fun r => r.unit == unit && r.inst == inst && r.slice == slice) = some rr → t ≤ rr.t0 + 6 * cyclesPerUs → 5 ≤ unit → unit ≠ 8 → (unit = 7 → (s.arsView.all fun q => q.2.hold.isNone) = true) → (unit = 9 → (s.frdH inst).cmd = none ∧ (s.frdH inst).queue = []) → (s.pageH (logicPage unit inst)).ctrl = [] → (s.bistH (bistPage unit inst)).done unit inst ≠ slice →
      Completes (.sliceEnd unit inst slice 1 wh at_ t) s fun u => 
        (u.bistH (bistPage unit inst) = { (s.bistH (bistPage unit inst)) with runs := (s.bistH (bistPage unit inst)).runs.filter (fun q => q != rr) }) ∧
        u.rd64 (bistPage unit inst) 0x050 = satAdd (2 ^ 64 - 1) (s.rd64 (bistPage unit inst) 0x050) 1 ∧
        (∀ q, q ≠ (bistPage unit inst) → u.bistH q = s.bistH q) ∧
        u.now = max s.now t ∧
        RegsOnly [bistPage unit inst] s u ∧
        { u with regs := s.regs, now := s.now, hot := s.hot, bist := s.bist } = s :)
    ∧ (∀ (unit inst slice wh at_ t : Nat) (rr : BRun) (s : State), (Instr.sliceEnd unit inst slice 1 wh at_ t).wf = true → s.calm = true → (s.bistH (bistPage unit inst)).runs.find? (fun r => r.unit == unit && r.inst == inst && r.slice == slice) = some rr → t ≤ rr.t0 + 6 * cyclesPerUs → 5 ≤ unit → unit ≠ 8 → (unit = 7 → (s.arsView.all fun q => q.2.hold.isNone) = true) → (unit = 9 → (s.frdH inst).cmd = none ∧ (s.frdH inst).queue = []) → (s.pageH (logicPage unit inst)).ctrl = [] → (s.bistH (bistPage unit inst)).done unit inst = slice →
      Completes (.sliceEnd unit inst slice 1 wh at_ t) s fun u => 
        ((u.bistH (bistPage unit inst)).done unit inst = slice + 1 ∨ (u.bistH (bistPage unit inst)).pos = []) ∧
        u.rd64 (bistPage unit inst) 0x050 = satAdd (2 ^ 64 - 1) (s.rd64 (bistPage unit inst) 0x050) 1 ∧
        u.now = max s.now t ∧
        RegsOnly (pgBistM :: (List.range 16).map pgBistC ++ [bistPage unit inst]) s u ∧
        { u with regs := s.regs, now := s.now, hot := s.hot, bist := s.bist } = s :)
    ∧ (∀ (inst slice t wh at_ : Nat) (rr : BRun) (s : State), (Instr.sliceEnd 8 inst slice 1 wh at_ t).wf = true → s.calm = true → (s.bistH (pgBistC inst)).runs.find? (fun r => r.unit == 8 && r.inst == inst && r.slice == slice) = some rr → t ≤ rr.t0 + 6 * cyclesPerUs → s.estate inst = 4 → (s.pageH (pgTfe inst)).ctrl = [] → (s.bistH (pgBistC inst)).done 8 inst ≠ slice →
      Completes (.sliceEnd 8 inst slice 1 wh at_ t) s fun u => 
        (u.estate inst = (if (s.bistH (pgBistC inst)).req.any (fun r => r.1 == 8 && r.2.1 == inst) then 4 else 1)) ∧
        (u.bistH (pgBistC inst) = { s.bistH (pgBistC inst) with runs := (s.bistH (pgBistC inst)).runs.filter (fun q => q != rr) }) ∧
        u.rd64 (pgBistC inst) 0x050 = satAdd (2 ^ 64 - 1) (s.rd64 (pgBistC inst) 0x050) 1 ∧
        (∀ q, q ≠ (pgBistC inst) → u.bistH q = s.bistH q) ∧
        u.now = max s.now t ∧
        RegsOnly [pgBistC inst, pgTfe inst] s u ∧
        { u with regs := s.regs, now := s.now, hot := s.hot, bist := s.bist, tfe := s.tfe } = s :)
    ∧ (∀ (unit inst slice wh at_ t : Nat) (rr : BRun) (s : State), (Instr.sliceEnd unit inst slice 1 wh at_ t).wf = true → s.calm = true → (s.bistH (bistPage unit inst)).runs.find? (fun r => r.unit == unit && r.inst == inst && r.slice == slice) = some rr → t ≤ rr.t0 + 6 * cyclesPerUs → 1 ≤ unit → unit ≤ 4 → (s.bistH (bistPage unit inst)).done unit inst ≠ slice → (s.banks.all fun q => q.2.want.isNone) = true →
      Completes (.sliceEnd unit inst slice 1 wh at_ t) s fun u => 
        (u.bistH (bistPage unit inst) = { (s.bistH (bistPage unit inst)) with runs := (s.bistH (bistPage unit inst)).runs.filter (fun q => q != rr) }) ∧
        u.rd64 (bistPage unit inst) 0x050 = satAdd (2 ^ 64 - 1) (s.rd64 (bistPage unit inst) 0x050) 1 ∧
        (∀ q, q ≠ (bistPage unit inst) → u.bistH q = s.bistH q) ∧
        u.now = max s.now t ∧
        RegsOnly [bistPage unit inst] s u ∧
        { u with regs := s.regs, now := s.now, hot := s.hot, bist := s.bist } = s :)
    ∧ (∀ (unit inst slice res wh at_ t : Nat) (rr : BRun) (s : State), (Instr.sliceEnd unit inst slice res wh at_ t).wf = true → s.calm = true → (s.bistH (bistPage unit inst)).runs.find? (fun r => r.unit == unit && r.inst == inst && r.slice == slice) = some rr → (res = 3 ∨ (res = 1 ∧ rr.t0 + 6 * cyclesPerUs < t)) → 5 ≤ unit → unit ≠ 8 → (unit = 7 → (s.arsView.all fun q => q.2.hold.isNone) = true) → (unit = 9 → (s.frdH inst).cmd = none ∧ (s.frdH inst).queue = []) → (s.pageH (logicPage unit inst)).ctrl = [] →
      Completes (.sliceEnd unit inst slice res wh at_ t) s fun u => 
        (u.bistH (bistPage unit inst) = { (s.bistH (bistPage unit inst)) with runs := (s.bistH (bistPage unit inst)).runs.filter (fun q => q != rr) }) ∧
        u.fld (bistPage unit inst) 0x058 23 16 = min 255 (s.fld (bistPage unit inst) 0x058 23 16 + 1) ∧
        (∀ q, q ≠ (bistPage unit inst) → u.bistH q = s.bistH q) ∧
        u.now = max s.now t ∧
        RegsOnly [bistPage unit inst] s u ∧
        { u with regs := s.regs, now := s.now, hot := s.hot, bist := s.bist } = s :)
    ∧ (∀ (unit inst slice res wh at_ t : Nat) (rr : BRun) (s : State), (Instr.sliceEnd unit inst slice res wh at_ t).wf = true → s.calm = true → (s.bistH (bistPage unit inst)).runs.find? (fun r => r.unit == unit && r.inst == inst && r.slice == slice) = some rr → (res = 3 ∨ (res = 1 ∧ rr.t0 + 6 * cyclesPerUs < t)) → 1 ≤ unit → unit ≤ 4 → (s.banks.all fun q => q.2.want.isNone) = true →
      Completes (.sliceEnd unit inst slice res wh at_ t) s fun u => 
        (u.bistH (bistPage unit inst) = { (s.bistH (bistPage unit inst)) with runs := (s.bistH (bistPage unit inst)).runs.filter (fun q => q != rr) }) ∧
        u.fld (bistPage unit inst) 0x058 23 16 = min 255 (s.fld (bistPage unit inst) 0x058 23 16 + 1) ∧
        (∀ q, q ≠ (bistPage unit inst) → u.bistH q = s.bistH q) ∧
        u.now = max s.now t ∧
        RegsOnly [bistPage unit inst] s u ∧
        { u with regs := s.regs, now := s.now, hot := s.hot, bist := s.bist } = s :)
    ∧ (∀ (unit inst slice wh at_ t : Nat) (rr : BRun) (s : State), (Instr.sliceEnd unit inst slice 2 wh at_ t).wf = true → s.calm = true → (s.bistH (bistPage unit inst)).runs.find? (fun r => r.unit == unit && r.inst == inst && r.slice == slice) = some rr → 1 ≤ unit → unit ≤ 4 → inst < unitCount unit → slice < sliceCount unit → (s.banks.all fun q => q.2.want.isNone) = true → (s.bistH (bistPage unit inst)).done unit inst ≠ slice → s.log.staged.length < 31 → s.fld (pgBcp 1) 0x048 1 0 ≤ 2 →
      Completes (.sliceEnd unit inst slice 2 wh at_ t) s fun u => 
        (u.bistH (bistPage unit inst)).retest = (s.bistH (bistPage unit inst)).retest ++ [⟨unit, inst, slice, t + cyclesPerMs⟩] ∧
        ((u.bistH (bistPage unit inst)).runs = (s.bistH (bistPage unit inst)).runs.filter (fun q => q != rr)) ∧
        u.fld (bistPage unit inst) 0x058 31 24 = min 255 (s.fld (bistPage unit inst) 0x058 31 24 + 1) ∧
        ((u.log.staged.drop s.log.staged.length).map (fun r => (r.code, r.sev, r.source)) = [(0x0060, 2, bistPage unit inst)]) ∧
        (∀ q, q ≠ (bistPage unit inst) → u.bistH q = s.bistH q) ∧
        ((u.bistH (bistPage unit inst)).fifo = (if 16 ≤ (s.bistH (bistPage unit inst)).fifo.length then (s.bistH (bistPage unit inst)).fifo.drop 1 else (s.bistH (bistPage unit inst)).fifo) ++ [(bistWord0 unit inst slice 2 (tenNs (min (t - rr.t0) 18000)) false rr.iso, failWord1 unit inst slice wh at_)]) ∧
        (u.fld (bistPage unit inst) 0x058 7 0 = min 255 (s.fld (bistPage unit inst) 0x058 7 0 + (if 16 ≤ (s.bistH (bistPage unit inst)).fifo.length then 1 else 0))) ∧
        u.getB (bistPage unit inst) 0x010 16 = true ∧
        u.now = max s.now t ∧
        RegsOnly [bistPage unit inst, pgBcp 1] s u ∧
        { u with regs := s.regs, now := s.now, hot := s.hot, bist := s.bist, log := s.log } = s :)
    ∧ (∀ (unit inst slice wh at_ t : Nat) (rr : BRun) (s : State), (Instr.sliceEnd unit inst slice 2 wh at_ t).wf = true → s.calm = true → (s.bistH (bistPage unit inst)).runs.find? (fun r => r.unit == unit && r.inst == inst && r.slice == slice) = some rr → (unit = 7 ∨ unit = 9) → inst < 16 → (unit = 7 → (s.arsView.all fun q => q.2.hold.isNone) = true) → (unit = 9 → (s.frdH inst).cmd = none ∧ (s.frdH inst).queue = []) → (s.pageH (logicPage unit inst)).ctrl = [] →
      Completes (.sliceEnd unit inst slice 2 wh at_ t) s fun u => 
        u.fld (bistPage unit inst) 0x058 31 24 = min 255 (s.fld (bistPage unit inst) 0x058 31 24 + 1) ∧
        u.retired (logicPage unit inst) = true ∧
        (⟨unit, inst, 3, 0, 0⟩ : RepE) ∈ u.bcp.repairs ∧
        (s.retired (logicPage unit inst) = false → u.fld (logicPage unit inst) 0x008 15 8 = 2) ∧
        u.now = max s.now t ∧
        ((u.bistH (bistPage unit inst)).fifo = (if 16 ≤ (s.bistH (bistPage unit inst)).fifo.length then (s.bistH (bistPage unit inst)).fifo.drop 1 else (s.bistH (bistPage unit inst)).fifo) ++ [(bistWord0 unit inst slice 2 (tenNs (min (t - rr.t0) 18000)) false rr.iso, failWord1 unit inst slice wh at_)]) ∧
        (u.fld (bistPage unit inst) 0x058 7 0 = min 255 (s.fld (bistPage unit inst) 0x058 7 0 + (if 16 ≤ (s.bistH (bistPage unit inst)).fifo.length then 1 else 0))) ∧
        u.getB (bistPage unit inst) 0x010 16 = true :)
    ∧ (∀ (unit inst slice wh at_ t : Nat) (rr : BRun) (s : State), (Instr.sliceEnd unit inst slice 2 wh at_ t).wf = true → s.calm = true → (s.bistH (bistPage unit inst)).runs.find? (fun r => r.unit == unit && r.inst == inst && r.slice == slice) = some rr → (unit = 5 ∨ unit = 6) → inst < 128 → (s.pageH (logicPage unit inst)).ctrl = [] →
      Completes (.sliceEnd unit inst slice 2 wh at_ t) s fun u => 
        u.fld (bistPage unit inst) 0x058 31 24 = min 255 (s.fld (bistPage unit inst) 0x058 31 24 + 1) ∧
        u.retired (logicPage unit inst) = true ∧
        (⟨unit, inst, 3, 0, 0⟩ : RepE) ∈ u.bcp.repairs ∧
        (((u.tileH inst).copies.all fun q => !q.run) = true) ∧
        u.now = max s.now t ∧
        ((u.bistH (bistPage unit inst)).fifo = (if 16 ≤ (s.bistH (bistPage unit inst)).fifo.length then (s.bistH (bistPage unit inst)).fifo.drop 1 else (s.bistH (bistPage unit inst)).fifo) ++ [(bistWord0 unit inst slice 2 (tenNs (min (t - rr.t0) 18000)) false rr.iso, failWord1 unit inst slice wh at_)]) ∧
        (u.fld (bistPage unit inst) 0x058 7 0 = min 255 (s.fld (bistPage unit inst) 0x058 7 0 + (if 16 ≤ (s.bistH (bistPage unit inst)).fifo.length then 1 else 0))) ∧
        u.getB (bistPage unit inst) 0x010 16 = true :)
    ∧ (∀ (inst slice t wh at_ : Nat) (rr : BRun) (s : State), (Instr.sliceEnd 8 inst slice 2 wh at_ t).wf = true → s.calm = true → (s.bistH (pgBistC inst)).runs.find? (fun r => r.unit == 8 && r.inst == inst && r.slice == slice) = some rr → inst < 16 → (s.pageH (pgTfe inst)).ctrl = [] →
      Completes (.sliceEnd 8 inst slice 2 wh at_ t) s fun u => 
        u.fld (pgBistC inst) 0x058 31 24 = min 255 (s.fld (pgBistC inst) 0x058 31 24 + 1) ∧
        u.retired (pgTfe inst) = true ∧
        u.estate inst = 6 ∧
        (⟨8, inst, 3, 0, 0⟩ : RepE) ∈ u.bcp.repairs ∧
        u.now = max s.now t :)
    ∧ (∀ (unit inst slice res wh at_ t : Nat) (s : State), (Instr.retest unit inst slice res wh at_ t).wf = true → s.calm = true → (s.bistH (bistPage unit inst)).retest.find? (fun w => w.unit == unit && w.inst == inst && w.slice == slice && decide (w.t ≤ t)) = none →
      Completes (.retest unit inst slice res wh at_ t) s fun u => 
        u.now = max s.now t ∧
        RegsOnly [] s u ∧
        { u with regs := s.regs, now := s.now, hot := s.hot } = s :)
    ∧ (∀ (unit inst slice res wh at_ t : Nat) (ww : BWait) (s : State), (Instr.retest unit inst slice res wh at_ t).wf = true → s.calm = true → (s.bistH (bistPage unit inst)).retest.find? (fun w => w.unit == unit && w.inst == inst && w.slice == slice && decide (w.t ≤ t)) = some ww → (s.upTo t).sliceCan unit inst slice ww.t = false →
      Completes (.retest unit inst slice res wh at_ t) s fun u => 
        u.now = max s.now t ∧
        RegsOnly [] s u ∧
        { u with regs := s.regs, now := s.now, hot := s.hot } = s :)
    ∧ (∀ (inst slice t : Nat) (ww : BWait) (s : State), (Instr.retest 4 inst slice 1 0 0 t).wf = true → s.calm = true → (s.bistH pgBistM).retest.find? (fun w => w.unit == 4 && w.inst == inst && w.slice == slice && decide (w.t ≤ t)) = some ww → inst < 4 → (s.upTo t).sliceCan 4 inst slice = true →
      Completes (.retest 4 inst slice 1 0 0 t) s fun u => 
        ((u.bistH pgBistM).retest = (s.bistH pgBistM).retest.filter (fun q => q != ww)) ∧
        (u.bistH pgBistM).began.head? = some (145, max s.now t) ∧
        u.fld pgBistM 0x058 15 8 = min 255 (s.fld pgBistM 0x058 15 8 + 1) ∧
        u.rd64 pgBistM 0x050 = satAdd (2 ^ 64 - 1) (s.rd64 pgBistM 0x050) 1 ∧
        (∀ q, q ≠ pgBistM → u.bistH q = s.bistH q) ∧
        u.now = max s.now t ∧
        RegsOnly [pgBistM] s u ∧
        { u with regs := s.regs, now := s.now, hot := s.hot, bist := s.bist } = s :)
    ∧ (∀ (unit inst slice wh at_ t : Nat) (ww : BWait) (s : State), (Instr.retest unit inst slice 1 wh at_ t).wf = true → s.calm = true → (s.bistH (bistPage unit inst)).retest.find? (fun w => w.unit == unit && w.inst == inst && w.slice == slice && decide (w.t ≤ t)) = some ww → (s.upTo t).sliceCan unit inst slice ww.t = true → 1 ≤ unit → unit ≤ 4 →
      Completes (.retest unit inst slice 1 wh at_ t) s fun u => 
        ((u.bistH (bistPage unit inst)).retest = (s.bistH (bistPage unit inst)).retest.filter (fun q => q != ww)) ∧
        u.rd64 (bistPage unit inst) 0x050 = satAdd (2 ^ 64 - 1) (s.rd64 (bistPage unit inst) 0x050) 1 ∧
        u.fld (bistPage unit inst) 0x058 15 8 = min 255 (s.fld (bistPage unit inst) 0x058 15 8 + 1) ∧
        u.now = max s.now t ∧
        u.log = s.log ∧
        u.bcp = s.bcp :)
    ∧ (∀ (unit inst slice wh at_ t : Nat) (ww : BWait) (s : State), (Instr.retest unit inst slice 2 wh at_ t).wf = true → s.calm = true → (s.bistH (bistPage unit inst)).retest.find? (fun w => w.unit == unit && w.inst == inst && w.slice == slice && decide (w.t ≤ t)) = some ww → (s.upTo t).sliceCan unit inst slice ww.t = true → 1 ≤ unit → unit ≤ 4 →
      Completes (.retest unit inst slice 2 wh at_ t) s fun u => 
        ((u.bistH (bistPage unit inst)).retest = (s.bistH (bistPage unit inst)).retest.filter (fun q => q != ww)) ∧
        u.fld (bistPage unit inst) 0x058 31 24 = min 255 (s.fld (bistPage unit inst) 0x058 31 24 + 1) ∧
        u.getB (bistPage unit inst) 0x010 17 = true ∧
        ((u.bcp.repairs.any fun e => e.unit == unit && (unit == 3 || e.inst == inst) && e.line == slice * 64 + at_ % 64 && e.bitpos == wh % 4096) = true) ∧
        s.bcp.repairs = u.bcp.repairs.take s.bcp.repairs.length ∧
        u.bcp.repairs.length ≤ s.bcp.repairs.length + 1 ∧
        u.now = max s.now t ∧
        ((u.bistH (bistPage unit inst)).fifo = (if 16 ≤ (s.bistH (bistPage unit inst)).fifo.length then (s.bistH (bistPage unit inst)).fifo.drop 1 else (s.bistH (bistPage unit inst)).fifo) ++ [(bistWord0 unit inst slice 2 (tenNs (min (t - ww.t) 18000)) true (s.sliceIso unit inst slice), failWord1 unit inst slice wh at_)]) ∧
        (u.fld (bistPage unit inst) 0x058 7 0 = min 255 (s.fld (bistPage unit inst) 0x058 7 0 + (if 16 ≤ (s.bistH (bistPage unit inst)).fifo.length then 1 else 0))) ∧
        u.getB (bistPage unit inst) 0x010 16 = true :)
    ∧ (∀ (unit inst slice res wh at_ t : Nat) (ww : BWait) (s : State), (Instr.retest unit inst slice res wh at_ t).wf = true → s.calm = true → (s.bistH (bistPage unit inst)).retest.find? (fun w => w.unit == unit && w.inst == inst && w.slice == slice && decide (w.t ≤ t)) = some ww → (s.upTo t).sliceCan unit inst slice ww.t = true → 1 ≤ unit → unit ≤ 4 → res = 3 →
      Completes (.retest unit inst slice res wh at_ t) s fun u => 
        (u.bistH (bistPage unit inst)).retest = (s.bistH (bistPage unit inst)).retest ∧
        u.fld (bistPage unit inst) 0x058 23 16 = min 255 (s.fld (bistPage unit inst) 0x058 23 16 + 1) ∧
        u.now = max s.now t ∧
        u.log = s.log ∧
        u.bcp = s.bcp :)
    ∧ (∀ (w : Writer) (tile t : Nat) (s : State), (Instr.bistReq w pgBistM 5 tile t).wf = true → s.calm = true → s.mayWrite w pgBistM .bistM = true → s.powered pgBistM = true → (s.pageH pgBistM).resetting = false →
      Completes (.bistReq w pgBistM 5 tile t) s fun u => 
        u.bistH pgBistM = { s.bistH pgBistM with req := (s.bistH pgBistM).req ++ [(5, tile, max s.now t)] } ∧
        (∀ q, q ≠ pgBistM → u.bistH q = s.bistH q) ∧
        u.now = max s.now t ∧
        RegsOnly [pgBistM] s u ∧
        { u with regs := s.regs, now := s.now, hot := s.hot, bist := s.bist } = s :)
    ∧ (∀ (w : Writer) (c unit tile t : Nat) (s : State), (Instr.bistReq w (pgBistC c) unit tile t).wf = true → s.calm = true → c < 16 → (unit = 7 ∨ unit = 8 ∨ unit = 9) → (unit = 8 → s.estate c ≠ 1) → s.mayWrite w (pgBistC c) .bistC = true → s.powered (pgBistC c) = true → (s.pageH (pgBistC c)).resetting = false →
      Completes (.bistReq w (pgBistC c) unit tile t) s fun u => 
        u.bistH (pgBistC c) = { s.bistH (pgBistC c) with req := (s.bistH (pgBistC c)).req ++ [(unit, c, max s.now t)] } ∧
        (∀ q, q ≠ (pgBistC c) → u.bistH q = s.bistH q) ∧
        u.now = max s.now t ∧
        RegsOnly [pgBistC c] s u ∧
        { u with regs := s.regs, now := s.now, hot := s.hot, bist := s.bist } = s :)
    ∧ (∀ (w : Writer) (c tile t : Nat) (s : State), (Instr.bistReq w (pgBistC c) 8 tile t).wf = true → s.calm = true → c < 16 → s.estate c = 1 → s.mayWrite w (pgBistC c) .bistC = true → s.powered (pgBistC c) = true → (s.pageH (pgBistC c)).resetting = false →
      Completes (.bistReq w (pgBistC c) 8 tile t) s fun u => 
        u.bistH (pgBistC c) = { s.bistH (pgBistC c) with req := (s.bistH (pgBistC c)).req ++ [(8, c, max s.now t)] } ∧
        u.estate c = 4 ∧
        (∀ q, q ≠ (pgBistC c) → u.bistH q = s.bistH q) ∧
        u.now = max s.now t ∧
        RegsOnly [pgBistC c, pgTfe c] s u ∧
        { u with regs := s.regs, now := s.now, hot := s.hot, bist := s.bist } = s :)
    ∧ (∀ (w : Writer) (c tile t : Nat) (s : State), (Instr.bistReq w (pgBistC c) 6 tile t).wf = true → s.calm = true → c < 16 → s.mayWrite w (pgBistC c) .bistC = true → s.powered (pgBistC c) = true → (s.pageH (pgBistC c)).resetting = false →
      Completes (.bistReq w (pgBistC c) 6 tile t) s fun u => 
        (u.bistH (pgBistC c) = { s.bistH (pgBistC c) with req := (s.bistH (pgBistC c)).req ++ (if tile / 8 = c then [(6, tile, max s.now t)] else []) }) ∧
        (∀ q, q ≠ (pgBistC c) → u.bistH q = s.bistH q) ∧
        u.now = max s.now t ∧
        RegsOnly [pgBistC c] s u ∧
        { u with regs := s.regs, now := s.now, hot := s.hot, bist := s.bist } = s :)
    ∧ (∀ (w : Writer) (p tile t : Nat) (k : Kind) (i : Nat) (s : State), (Instr.bistReq w p 0 tile t).wf = true → s.calm = true → pageAt p = some (k, i) → (k = .bistC ∨ k = .bistM) → s.mayWrite w p k = true → s.powered p = true → (s.pageH p).resetting = false →
      Completes (.bistReq w p 0 tile t) s fun u => 
        u.bist = s.bist ∧
        u.now = max s.now t ∧
        RegsOnly [p] s u ∧
        { u with regs := s.regs, now := s.now, hot := s.hot } = s :)
    ∧ (∀ (w : Writer) (p unit tile t : Nat) (k : Kind) (i : Nat) (s : State), (Instr.bistReq w p unit tile t).wf = true → s.calm = true → pageAt p = some (k, i) → ((k = .bistC ∧ unit ≠ 0 ∧ (unit < 6 ∨ 9 < unit)) ∨ (k = .bistM ∧ unit ≠ 0 ∧ unit ≠ 5)) → s.mayWrite w p k = true → s.powered p = true → (s.pageH p).resetting = false →
      Completes (.bistReq w p unit tile t) s fun u => 
        u.fld p 0x018 31 16 = min 65535 (s.fld p 0x018 31 16 + 1) ∧
        u.fld p 0x018 13 0 = 0 * 4096 + 0x044 ∧
        u.now = max s.now t ∧
        RegsOnly [p] s u ∧
        { u with regs := s.regs, now := s.now, hot := s.hot } = s :)
    ∧ (∀ (w : Writer) (p unit tile t : Nat) (k : Kind) (i : Nat) (s : State), (Instr.bistReq w p unit tile t).wf = true → s.calm = true → pageAt p = some (k, i) → (k = .bistC ∨ k = .bistM) → s.mayWrite w p k = true → (s.powered p = false ∨ (s.pageH p).resetting = true) →
      Completes (.bistReq w p unit tile t) s fun u => 
        u.fld p 0x018 31 16 = min 65535 (s.fld p 0x018 31 16 + 1) ∧
        u.fld p 0x018 13 0 = 3 * 4096 + 0x044 ∧
        u.now = max s.now t ∧
        RegsOnly [p] s u ∧
        { u with regs := s.regs, now := s.now, hot := s.hot } = s :)
    ∧ (∀ (unit inst np nf ni wh at_ t : Nat) (s : State), (Instr.requestedPassComplete unit inst np nf ni wh at_ t).wf = true → s.calm = true → (s.bistH (bistPage unit inst)).req.find? (fun r => r.1 == unit && r.2.1 == inst) = none → (s.faulted (logicPage unit inst) = false ∨ s.retired (logicPage unit inst) = true ∨ unit < 7) → s.bcp.bootTests.contains (unit, inst) = false → unit ≠ 9 → (s.pageH (logicPage unit inst)).ctrl = [] →
      Completes (.requestedPassComplete unit inst np nf ni wh at_ t) s fun u => 
        u.now = max s.now t ∧
        RegsOnly [] s u ∧
        { u with regs := s.regs, now := s.now, hot := s.hot } = s :)
    ∧ (∀ (unit inst np wh at_ t : Nat) (qq : (Nat × Nat × Nat)) (s : State), (Instr.requestedPassComplete unit inst np 0 0 wh at_ t).wf = true → s.calm = true → (s.bistH (bistPage unit inst)).req.find? (fun r => r.1 == unit && r.2.1 == inst) = some qq → (unit = 7 ∨ unit = 9) → inst < 16 → s.faulted (logicPage unit inst) = false → s.retired (logicPage unit inst) = false → s.bcp.bootTests.contains (unit, inst) = false → (unit = 9 → (s.frdH inst).cmd = none ∧ (s.frdH inst).queue = []) → (s.pageH (logicPage unit inst)).ctrl = [] → s.log.staged.length < 31 → s.fld (pgBcp 1) 0x048 1 0 ≤ 2 →
      Completes (.requestedPassComplete unit inst np 0 0 wh at_ t) s fun u => 
        ((u.bistH (bistPage unit inst)).req = (s.bistH (bistPage unit inst)).req.filter (fun r => !(r.1 == unit && r.2.1 == inst))) ∧
        u.rd64 (bistPage unit inst) 0x050 = satAdd (2 ^ 64 - 1) (s.rd64 (bistPage unit inst) 0x050) np ∧
        u.getB (bistPage unit inst) 0x010 19 = true ∧
        ((u.log.staged.drop s.log.staged.length).map (fun r => (r.code, r.sev, r.source)) = [(0x0060, 2, bistPage unit inst)]) ∧
        (∀ q, q ≠ (bistPage unit inst) → u.bistH q = s.bistH q) ∧
        ((u.bistH (bistPage unit inst)).fifo = (if 16 ≤ (s.bistH (bistPage unit inst)).fifo.length then (s.bistH (bistPage unit inst)).fifo.drop 1 else (s.bistH (bistPage unit inst)).fifo) ++ [(bistWord0 unit inst 0 4 (tenNs (t - qq.2.2)) false true, 0)]) ∧
        (u.fld (bistPage unit inst) 0x058 7 0 = min 255 (s.fld (bistPage unit inst) 0x058 7 0 + (if 16 ≤ (s.bistH (bistPage unit inst)).fifo.length then 1 else 0))) ∧
        u.getB (bistPage unit inst) 0x010 16 = true ∧
        u.now = max s.now t ∧
        RegsOnly [bistPage unit inst, pgBcp 1] s u ∧
        { u with regs := s.regs, now := s.now, hot := s.hot, bist := s.bist, log := s.log } = s :)
    ∧ (∀ (unit inst np nf ni wh at_ t : Nat) (qq : (Nat × Nat × Nat)) (s : State), (Instr.requestedPassComplete unit inst np nf ni wh at_ t).wf = true → s.calm = true → (s.bistH (bistPage unit inst)).req.find? (fun r => r.1 == unit && r.2.1 == inst) = some qq → (unit = 7 ∨ unit = 9) → inst < 16 → nf = 0 → ni ≠ 0 → s.bcp.bootTests.contains (unit, inst) = false → (unit = 9 → (s.frdH inst).cmd = none ∧ (s.frdH inst).queue = []) → (s.pageH (logicPage unit inst)).ctrl = [] → s.log.staged.length < 31 → s.fld (pgBcp 1) 0x048 1 0 ≤ 2 →
      Completes (.requestedPassComplete unit inst np nf ni wh at_ t) s fun u => 
        ((u.bistH (bistPage unit inst)).req = (s.bistH (bistPage unit inst)).req.filter (fun r => !(r.1 == unit && r.2.1 == inst))) ∧
        u.rd64 (bistPage unit inst) 0x050 = satAdd (2 ^ 64 - 1) (s.rd64 (bistPage unit inst) 0x050) np ∧
        u.fld (bistPage unit inst) 0x058 23 16 = min 255 (s.fld (bistPage unit inst) 0x058 23 16 + ni) ∧
        u.getB (bistPage unit inst) 0x010 19 = true ∧
        ((u.log.staged.drop s.log.staged.length).map (fun r => (r.code, r.sev, r.source)) = [(0x0060, 2, bistPage unit inst)]) ∧
        (∀ q, q ≠ (bistPage unit inst) → u.bistH q = s.bistH q) ∧
        ((u.bistH (bistPage unit inst)).fifo = (if 16 ≤ (s.bistH (bistPage unit inst)).fifo.length then (s.bistH (bistPage unit inst)).fifo.drop 1 else (s.bistH (bistPage unit inst)).fifo) ++ [(bistWord0 unit inst 0 4 (tenNs (t - qq.2.2)) false true, 0)]) ∧
        (u.fld (bistPage unit inst) 0x058 7 0 = min 255 (s.fld (bistPage unit inst) 0x058 7 0 + (if 16 ≤ (s.bistH (bistPage unit inst)).fifo.length then 1 else 0))) ∧
        u.getB (bistPage unit inst) 0x010 16 = true ∧
        u.now = max s.now t ∧
        RegsOnly [bistPage unit inst, pgBcp 1] s u ∧
        { u with regs := s.regs, now := s.now, hot := s.hot, bist := s.bist, log := s.log } = s :)
    ∧ (∀ (unit inst np nf ni wh at_ t : Nat) (qq : (Nat × Nat × Nat)) (s : State), (Instr.requestedPassComplete unit inst np nf ni wh at_ t).wf = true → s.calm = true → (s.bistH (bistPage unit inst)).req.find? (fun r => r.1 == unit && r.2.1 == inst) = some qq → (unit = 7 ∨ unit = 9) → inst < 16 → nf ≠ 0 → (s.pageH (logicPage unit inst)).ctrl = [] →
      Completes (.requestedPassComplete unit inst np nf ni wh at_ t) s fun u => 
        u.retired (logicPage unit inst) = true ∧
        (⟨unit, inst, 3, 0, 0⟩ : RepE) ∈ u.bcp.repairs ∧
        u.getB (bistPage unit inst) 0x010 19 = true ∧
        u.rd64 (bistPage unit inst) 0x050 = satAdd (2 ^ 64 - 1) (s.rd64 (bistPage unit inst) 0x050) np ∧
        u.fld (bistPage unit inst) 0x058 31 24 = min 255 (s.fld (bistPage unit inst) 0x058 31 24 + nf) ∧
        u.fld (bistPage unit inst) 0x058 23 16 = min 255 (s.fld (bistPage unit inst) 0x058 23 16 + ni) ∧
        ((u.bistH (bistPage unit inst)).req = (s.bistH (bistPage unit inst)).req.filter (fun r => !(r.1 == unit && r.2.1 == inst))) ∧
        u.now = max s.now t ∧
        ((u.bistH (bistPage unit inst)).fifo = (if 16 ≤ (s.bistH (bistPage unit inst)).fifo.length then (s.bistH (bistPage unit inst)).fifo.drop 1 else (s.bistH (bistPage unit inst)).fifo) ++ [(bistWord0 unit inst 0 4 (tenNs (t - qq.2.2)) false true, failWord1 unit inst 0 wh at_)]) ∧
        (u.fld (bistPage unit inst) 0x058 7 0 = min 255 (s.fld (bistPage unit inst) 0x058 7 0 + (if 16 ≤ (s.bistH (bistPage unit inst)).fifo.length then 1 else 0))) ∧
        u.getB (bistPage unit inst) 0x010 16 = true :)
    ∧ (∀ (unit inst np wh at_ t : Nat) (s : State), (Instr.requestedPassComplete unit inst np 0 0 wh at_ t).wf = true → s.calm = true → 7 ≤ unit → unit ≤ 9 → inst < 16 → s.faulted (logicPage unit inst) = true → s.retired (logicPage unit inst) = false → (s.pageH (logicPage unit inst)).ctrl = [] →
      Completes (.requestedPassComplete unit inst np 0 0 wh at_ t) s fun u => 
        u.faulted (logicPage unit inst) = false ∧
        u.retired (logicPage unit inst) = false ∧
        u.rd64 (bistPage unit inst) 0x050 = satAdd (2 ^ 64 - 1) (s.rd64 (bistPage unit inst) 0x050) np ∧
        u.getB (bistPage unit inst) 0x010 19 = true ∧
        ((u.bistH (bistPage unit inst)).req = (s.bistH (bistPage unit inst)).req.filter (fun r => !(r.1 == unit && r.2.1 == inst))) ∧
        u.now = max s.now t :)
    ∧ (∀ (entry t : Nat) (e : RepE) (s : State), (Instr.bistFuse .basecamp entry t).wf = true → s.calm = true → s.powered pgBistM = true → (s.pageH pgBistM).resetting = false → s.bcp.repairs[entry]? = some e → s.bcp.fuses.length < 256 → e.kind < 3 →
      Completes (.bistFuse .basecamp entry t) s fun u => 
        u.bcp = { s.bcp with fuses := s.bcp.fuses ++ [e] } ∧
        u.fld pgBistM 0x0C4 19 12 = min 255 (s.bcp.fuses.length + 1) ∧
        u.now = max s.now t ∧
        RegsOnly [pgBistM] s u ∧
        { u with regs := s.regs, now := s.now, hot := s.hot, bcp := s.bcp } = s :)
    ∧ (∀ (entry t : Nat) (s : State), (Instr.bistFuse .basecamp entry t).wf = true → s.calm = true → s.powered pgBistM = true → (s.pageH pgBistM).resetting = false → ((s.bcp.repairs[entry]?.all fun e => decide (3 ≤ e.kind)) = true ∨ 256 ≤ s.bcp.fuses.length) →
      Completes (.bistFuse .basecamp entry t) s fun u => 
        u.now = max s.now t ∧
        RegsOnly [pgBistM] s u ∧
        { u with regs := s.regs, now := s.now, hot := s.hot } = s :)
    ∧ (∀ (w : Writer) (entry t : Nat) (s : State), (Instr.bistFuse w entry t).wf = true → s.calm = true → s.mayWrite w pgBistM .bistM = true → w ≠ .basecamp ∨ s.powered pgBistM = false ∨ (s.pageH pgBistM).resetting = true →
      Completes (.bistFuse w entry t) s fun u => 
        u.fld pgBistM 0x018 31 16 = min 65535 (s.fld pgBistM 0x018 31 16 + 1) ∧
        u.now = max s.now t ∧
        RegsOnly [pgBistM] s u ∧
        { u with regs := s.regs, now := s.now, hot := s.hot } = s :)

/-- On a crossing that is UP a word is accepted on the next lane of its direction, counting its differing pairs, the corrections and the uncorrectable words of its buffer, and sixteen differing pairs take it DOWN; one that finds no free lane or no crossing UP does nothing. An accepted word is delivered decoded, with the poison of each 64-bit word; an acknowledge frees the oldest lane and keeps the longest round trip; a missing clock holds a crossing that is UP, and is remembered in every state; a returning one resumes it and counts the frames dropped meanwhile; a reset of a side discards what is in flight, counts it, and takes the crossing DOWN with its cause, and the loss of far power OFF; a crossing that is OFF heeds only the far side’s power, which takes it DOWN; a handshake that completes with both clocks running brings it UP with its lane pointers at 0. A reset or dead capture side loses its pending counts; one that was not reset takes back a count whose acknowledge is still under way, up to 4,095. -/
def Obligations.Crossings : Prop :=
    (∀ (i n : Nat) (toCore : Bool) (word : XWord) (launch t : Nat) (s : State), (Instr.wordAccept i n toCore word launch t).wf = true → s.calm = true → isXng i n = true → s.xstate i n = 1 → ((s.xngH i n).dir toCore).length < (max 1 (xngLanes i)) → word.diffs < 16 →
      Completes (.wordAccept i n toCore word launch t) s fun u => 
        (u.xngH i n).fly = (s.xngH i n).fly ++ [(toCore, word, launch)] ∧
        ((u.xngH i n).toCore = (if toCore then ((s.xngH i n).toCore + 1) % (max 1 (xngLanes i)) else (s.xngH i n).toCore)) ∧
        ((u.xngH i n).fromCore = (if toCore then (s.xngH i n).fromCore else ((s.xngH i n).fromCore + 1) % (max 1 (xngLanes i)))) ∧
        ((u.xngH i n).outCore = (if toCore then (s.xngH i n).outCore ++ [xngWord i word] else (s.xngH i n).outCore)) ∧
        ((u.xngH i n).outFar = (if toCore then (s.xngH i n).outFar else (s.xngH i n).outFar ++ [xngWord i word])) ∧
        (u.xngH i n).stopped = (s.xngH i n).stopped ∧
        u.xstate i n = 1 ∧
        (s.enabled (pgXng i) = true → u.fld (pgXng i) (xOff n 8) 31 16 = satAdd (2 ^ 16 - 1) (s.fld (pgXng i) (xOff n 8) 31 16) word.diffs) ∧
        (∀ q, q ≠ xngKey i n → sget (fun _ => ({} : XngH)) u.xng q = sget (fun _ => ({} : XngH)) s.xng q) ∧
        (s.enabled (pgXng i) = true → u.fld (pgXng i) 0x01C 31 16 = min 65535 (s.fld (pgXng i) 0x01C 31 16 + ((xngParts i word).map (fun q => q.2.2.2)).sum)) ∧
        (s.enabled (pgXng i) = true → u.fld (pgXng i) 0x01C 15 8 = min 255 (s.fld (pgXng i) 0x01C 15 8 + ((xngParts i word).filter (fun q => q.2.2.1)).length)) ∧
        u.now = max s.now t ∧
        RegsOnly [pgXng i] s u ∧
        { u with regs := s.regs, now := s.now, hot := s.hot, xng := s.xng } = s :)
    ∧ (∀ (i n : Nat) (toCore : Bool) (word : XWord) (launch t : Nat) (s : State), (Instr.wordAccept i n toCore word launch t).wf = true → s.calm = true → isXng i n = true → s.xstate i n = 1 → ((s.xngH i n).dir toCore).length < (max 1 (xngLanes i)) → 16 ≤ word.diffs →
      Completes (.wordAccept i n toCore word launch t) s fun u => 
        u.xstate i n = 3 ∧
        u.fld (pgXng i) (xOff n 0) 23 16 = 3 ∧
        (u.xngH i n) = { (s.xngH i n) with fly := [] } ∧
        (s.enabled (pgXng i) = true → u.fld (pgXng i) (xOff n 8) 31 16 = satAdd (2 ^ 16 - 1) (s.fld (pgXng i) (xOff n 8) 31 16) 16) ∧
        (s.enabled (pgXng i) = true → u.fld (pgXng i) (xOff n 4) 15 0 = satAdd (2 ^ 16 - 1) (s.fld (pgXng i) (xOff n 4) 15 0) ((s.xngH i n).fly.length + 1)) ∧
        (s.xstate i n = 1 → s.enabled (pgXng i) = true → u.getB (pgXng i) 0x010 16 = true) ∧
        (∀ q, q ≠ xngKey i n → sget (fun _ => ({} : XngH)) u.xng q = sget (fun _ => ({} : XngH)) s.xng q) ∧
        u.now = max s.now t ∧
        RegsOnly [pgXng i] s u ∧
        { u with regs := s.regs, now := s.now, hot := s.hot, xng := s.xng } = s :)
    ∧ (∀ (i n : Nat) (toCore : Bool) (word : XWord) (launch t : Nat) (s : State), (Instr.wordAccept i n toCore word launch t).wf = true → s.calm = true → (isXng i n = false ∨ s.xstate i n ≠ 1 ∨ (max 1 (xngLanes i)) ≤ ((s.xngH i n).dir toCore).length) →
      Completes (.wordAccept i n toCore word launch t) s fun u => 
        u.now = max s.now t ∧
        RegsOnly [] s u ∧
        { u with regs := s.regs, now := s.now, hot := s.hot } = s :)
    ∧ (∀ (i n : Nat) (toCore : Bool) (t : Nat) (f : (Bool × XWord × Nat)) (rest : List (Bool × XWord × Nat)) (s : State), (Instr.acknowledge i n toCore t).wf = true → s.calm = true → (s.xngH i n).dir toCore = f :: rest → s.xstate i n = 1 →
      Completes (.acknowledge i n toCore t) s fun u => 
        ((u.xngH i n) = { (s.xngH i n) with fly := ((s.xngH i n).fly.filter fun g => g.1 != toCore) ++ rest }) ∧
        (u.rd (pgXng i) (xOff n 0xC) = (if s.enabled (pgXng i) then max (s.rd (pgXng i) (xOff n 0xC)) (min (t - f.2.2) (2 ^ 32 - 1)) else s.rd (pgXng i) (xOff n 0xC))) ∧
        (∀ q, q ≠ xngKey i n → sget (fun _ => ({} : XngH)) u.xng q = sget (fun _ => ({} : XngH)) s.xng q) ∧
        u.now = max s.now t ∧
        RegsOnly [pgXng i] s u ∧
        { u with regs := s.regs, now := s.now, hot := s.hot, xng := s.xng } = s :)
    ∧ (∀ (i n : Nat) (toCore : Bool) (t : Nat) (s : State), (Instr.acknowledge i n toCore t).wf = true → s.calm = true → ((s.xngH i n).dir toCore = [] ∨ s.xstate i n ≠ 1) →
      Completes (.acknowledge i n toCore t) s fun u => 
        u.now = max s.now t ∧
        RegsOnly [] s u ∧
        { u with regs := s.regs, now := s.now, hot := s.hot } = s :)
    ∧ (∀ (i n t : Nat) (s : State), (Instr.crossingHold i n t).wf = true → s.calm = true → isXng i n = true → s.xstate i n = 1 →
      Completes (.crossingHold i n t) s fun u => 
        u.xstate i n = 2 ∧
        (u.xngH i n) = { (s.xngH i n) with stopped := true } ∧
        (s.xstate i n = 1 → s.enabled (pgXng i) = true → u.getB (pgXng i) 0x010 16 = true) ∧
        (∀ q, q ≠ xngKey i n → sget (fun _ => ({} : XngH)) u.xng q = sget (fun _ => ({} : XngH)) s.xng q) ∧
        u.now = max s.now t ∧
        RegsOnly [pgXng i] s u ∧
        { u with regs := s.regs, now := s.now, hot := s.hot, xng := s.xng } = s :)
    ∧ (∀ (i n t : Nat) (s : State), (Instr.crossingHold i n t).wf = true → s.calm = true → isXng i n = true → s.xstate i n ≠ 1 →
      Completes (.crossingHold i n t) s fun u => 
        (u.xngH i n) = { (s.xngH i n) with stopped := true } ∧
        (∀ q, q ≠ xngKey i n → sget (fun _ => ({} : XngH)) u.xng q = sget (fun _ => ({} : XngH)) s.xng q) ∧
        u.now = max s.now t ∧
        RegsOnly [] s u ∧
        { u with regs := s.regs, now := s.now, hot := s.hot, xng := s.xng } = s :)
    ∧ (∀ (i n t : Nat) (s : State), (Instr.crossingHold i n t).wf = true → s.calm = true → isXng i n = false →
      Completes (.crossingHold i n t) s fun u => 
        u.now = max s.now t ∧
        RegsOnly [] s u ∧
        { u with regs := s.regs, now := s.now, hot := s.hot } = s :)
    ∧ (∀ (i n drops t : Nat) (s : State), (Instr.clockReturn i n drops t).wf = true → s.calm = true → isXng i n = true → s.xstate i n = 2 →
      Completes (.clockReturn i n drops t) s fun u => 
        u.xstate i n = 1 ∧
        (u.xngH i n) = { (s.xngH i n) with stopped := false } ∧
        (s.enabled (pgXng i) = true → u.getB (pgXng i) 0x010 17 = true) ∧
        (s.enabled (pgXng i) = true → u.fld (pgXng i) (xOff n 8) 7 0 = satAdd (2 ^ 8 - 1) (s.fld (pgXng i) (xOff n 8) 7 0) drops) ∧
        (∀ q, q ≠ xngKey i n → sget (fun _ => ({} : XngH)) u.xng q = sget (fun _ => ({} : XngH)) s.xng q) ∧
        u.now = max s.now t ∧
        RegsOnly [pgXng i] s u ∧
        { u with regs := s.regs, now := s.now, hot := s.hot, xng := s.xng } = s :)
    ∧ (∀ (i n drops t : Nat) (s : State), (Instr.clockReturn i n drops t).wf = true → s.calm = true → isXng i n = true → s.xstate i n ≠ 2 →
      Completes (.clockReturn i n drops t) s fun u => 
        u.xstate i n = s.xstate i n ∧
        (u.xngH i n) = { (s.xngH i n) with stopped := false } ∧
        (s.enabled (pgXng i) = true → u.fld (pgXng i) (xOff n 8) 7 0 = satAdd (2 ^ 8 - 1) (s.fld (pgXng i) (xOff n 8) 7 0) drops) ∧
        (∀ q, q ≠ xngKey i n → sget (fun _ => ({} : XngH)) u.xng q = sget (fun _ => ({} : XngH)) s.xng q) ∧
        u.now = max s.now t ∧
        RegsOnly [pgXng i] s u ∧
        { u with regs := s.regs, now := s.now, hot := s.hot, xng := s.xng } = s :)
    ∧ (∀ (i n drops t : Nat) (s : State), (Instr.clockReturn i n drops t).wf = true → s.calm = true → isXng i n = false →
      Completes (.clockReturn i n drops t) s fun u => 
        u.now = max s.now t ∧
        RegsOnly [] s u ∧
        { u with regs := s.regs, now := s.now, hot := s.hot } = s :)
    ∧ (∀ (i n : Nat) (coreSide : Bool) (t : Nat) (s : State), (Instr.sideReset i n coreSide t).wf = true → s.calm = true → isXng i n = true → i ≠ 2 → s.xstate i n ≠ 0 →
      Completes (.sideReset i n coreSide t) s fun u => 
        u.xstate i n = 3 ∧
        (u.fld (pgXng i) (xOff n 0) 23 16 = (if coreSide then 1 else 2)) ∧
        (u.xngH i n) = { (s.xngH i n) with fly := [] } ∧
        (s.enabled (pgXng i) = true → u.fld (pgXng i) (xOff n 4) 31 16 = satAdd (2 ^ 16 - 1) (s.fld (pgXng i) (xOff n 4) 31 16) 1) ∧
        (s.enabled (pgXng i) = true → u.fld (pgXng i) (xOff n 4) 15 0 = satAdd (2 ^ 16 - 1) (s.fld (pgXng i) (xOff n 4) 15 0) ((s.xngH i n).fly.length + 0)) ∧
        (s.xstate i n = 1 → s.enabled (pgXng i) = true → u.getB (pgXng i) 0x010 16 = true) ∧
        (∀ q, q ≠ xngKey i n → sget (fun _ => ({} : XngH)) u.xng q = sget (fun _ => ({} : XngH)) s.xng q) ∧
        u.now = max s.now t ∧
        RegsOnly [pgXng i] s u ∧
        { u with regs := s.regs, now := s.now, hot := s.hot, xng := s.xng } = s :)
    ∧ (∀ (t : Nat) (s : State), (Instr.sideReset 2 0 true t).wf = true → s.calm = true → s.xstate 2 0 ≠ 0 → (∀ j ∈ List.range 64, (match (s.trkInH j).sent with | some g => decide ((s.trkInH j).pend + g.1 < 4095) | none => true) = true) →
      Completes (.sideReset 2 0 true t) s fun u => 
        u.xstate 2 0 = 3 ∧
        u.fld (pgXng 2) (xOff 0 0) 23 16 = 1 ∧
        (∀ j ∈ List.range 64, (u.trkInH j).pend = (match (s.trkInH j).sent with | some g => if max s.now t < g.2.2 + 17 then min 4095 ((s.trkInH j).pend + g.1) else (s.trkInH j).pend | none => (s.trkInH j).pend) ∧ (u.trkInH j).sent = none) ∧
        (s.enabled (pgXng 2) = true → u.fld (pgXng 2) (xOff 0 4) 15 0 = min 65535 (s.fld (pgXng 2) (xOff 0 4) 15 0 + (s.xngH 2 0).fly.length + ((List.range 64).filter (fun j => match (s.trkInH j).sent with | some g => decide (max s.now t < g.2.2 + 17) | none => false)).length)) ∧
        (∀ j ∈ List.range 64, (s.trkInH j).sent = none → u.trkInH j = s.trkInH j) ∧
        (∀ q, q ≠ xngKey 2 0 → sget (fun _ => ({} : XngH)) u.xng q = sget (fun _ => ({} : XngH)) s.xng q) ∧
        u.now = max s.now t ∧
        RegsOnly (pgXng 2 :: (List.range 64).map pgTrkIn) s u ∧
        { u with regs := s.regs, now := s.now, hot := s.hot, xng := s.xng, trkIn := s.trkIn, trk := s.trk } = s :)
    ∧ (∀ (t : Nat) (s : State), (Instr.sideReset 2 0 true t).wf = true → s.calm = true → s.xstate 2 0 ≠ 0 →
      Completes (.sideReset 2 0 true t) s fun u => 
        u.xstate 2 0 = 3 ∧
        u.fld (pgXng 2) (xOff 0 0) 23 16 = 1 ∧
        (∀ j ∈ List.range 64, (u.trkInH j).pend = (match (s.trkInH j).sent with | some g => if max s.now t < g.2.2 + 17 then min 4095 ((s.trkInH j).pend + g.1) else (s.trkInH j).pend | none => (s.trkInH j).pend) ∧ (u.trkInH j).sent = none) ∧
        (s.enabled (pgXng 2) = true → u.fld (pgXng 2) (xOff 0 4) 15 0 = min 65535 (s.fld (pgXng 2) (xOff 0 4) 15 0 + (s.xngH 2 0).fly.length + ((List.range 64).filter (fun j => match (s.trkInH j).sent with | some g => decide (max s.now t < g.2.2 + 17) | none => false)).length)) ∧
        (∀ j ∈ List.range 64, (match (s.trkInH j).sent with | some g => decide (max s.now t < g.2.2 + 17 ∧ 4095 ≤ (s.trkInH j).pend + g.1) | none => false) = true → (u.trkInH j).satur = true ∧ ((s.trkInH j).satur = false → u.getB (pgTrkIn j) 0x05C 1 = true ∧ u.getB (pgTrkIn j) 0x010 16 = true)) ∧
        u.now = max s.now t ∧
        u.mem = s.mem ∧
        (∀ q, q ≠ xngKey 2 0 → sget (fun _ => ({} : XngH)) u.xng q = sget (fun _ => ({} : XngH)) s.xng q) :)
    ∧ (∀ (t : Nat) (s : State), (Instr.sideReset 2 0 false t).wf = true → s.calm = true → s.xstate 2 0 ≠ 0 →
      Completes (.sideReset 2 0 false t) s fun u => 
        u.xstate 2 0 = 3 ∧
        u.fld (pgXng 2) (xOff 0 0) 23 16 = 2 ∧
        (s.enabled (pgXng 2) = true → u.fld (pgXng 2) (xOff 0 4) 15 0 = min 65535 (s.fld (pgXng 2) (xOff 0 4) 15 0 + (s.xngH 2 0).fly.length + ((List.range 64).filter (fun j => match (s.trkInH j).sent with | some g => decide (max s.now t < g.2.2 + 17) | none => false)).length)) ∧
        (∀ q, q ≠ xngKey 2 0 → sget (fun _ => ({} : XngH)) u.xng q = sget (fun _ => ({} : XngH)) s.xng q) ∧
        (∀ k ∈ List.range 64, (u.trkInH k).pend = 0 ∧ (u.trkInH k).satur = false ∧ (u.trkInH k).sent = none) ∧
        u.now = max s.now t ∧
        RegsOnly [pgXng 2] s u ∧
        { u with regs := s.regs, now := s.now, hot := s.hot, xng := s.xng, trkIn := s.trkIn, trk := s.trk } = s :)
    ∧ (∀ (i n : Nat) (coreSide : Bool) (t : Nat) (s : State), (Instr.sideReset i n coreSide t).wf = true → s.calm = true → (isXng i n = false ∨ s.xstate i n = 0) →
      Completes (.sideReset i n coreSide t) s fun u => 
        u.now = max s.now t ∧
        RegsOnly [] s u ∧
        { u with regs := s.regs, now := s.now, hot := s.hot } = s :)
    ∧ (∀ (i n t : Nat) (s : State), (Instr.farSidePower i n true t).wf = true → s.calm = true → isXng i n = true → s.xstate i n = 0 →
      Completes (.farSidePower i n true t) s fun u => 
        u.xstate i n = 3 ∧
        u.now = max s.now t ∧
        RegsOnly [pgXng i] s u ∧
        { u with regs := s.regs, now := s.now, hot := s.hot } = s :)
    ∧ (∀ (i n t : Nat) (s : State), (Instr.farSidePower i n false t).wf = true → s.calm = true → isXng i n = true → i ≠ 2 → s.xstate i n ≠ 0 →
      Completes (.farSidePower i n false t) s fun u => 
        u.xstate i n = 0 ∧
        u.fld (pgXng i) (xOff n 0) 23 16 = 4 ∧
        (u.xngH i n) = { (s.xngH i n) with fly := [] } ∧
        (s.enabled (pgXng i) = true → u.fld (pgXng i) (xOff n 4) 15 0 = satAdd (2 ^ 16 - 1) (s.fld (pgXng i) (xOff n 4) 15 0) ((s.xngH i n).fly.length + 0)) ∧
        (s.xstate i n = 1 → s.enabled (pgXng i) = true → u.getB (pgXng i) 0x010 16 = true) ∧
        (∀ q, q ≠ xngKey i n → sget (fun _ => ({} : XngH)) u.xng q = sget (fun _ => ({} : XngH)) s.xng q) ∧
        u.now = max s.now t ∧
        RegsOnly [pgXng i] s u ∧
        { u with regs := s.regs, now := s.now, hot := s.hot, xng := s.xng } = s :)
    ∧ (∀ (t : Nat) (s : State), (Instr.farSidePower 2 0 false t).wf = true → s.calm = true → s.xstate 2 0 ≠ 0 →
      Completes (.farSidePower 2 0 false t) s fun u => 
        u.xstate 2 0 = 0 ∧
        u.fld (pgXng 2) (xOff 0 0) 23 16 = 4 ∧
        (s.enabled (pgXng 2) = true → u.fld (pgXng 2) (xOff 0 4) 15 0 = min 65535 (s.fld (pgXng 2) (xOff 0 4) 15 0 + (s.xngH 2 0).fly.length + ((List.range 64).filter (fun j => match (s.trkInH j).sent with | some g => decide (max s.now t < g.2.2 + 17) | none => false)).length)) ∧
        (∀ q, q ≠ xngKey 2 0 → sget (fun _ => ({} : XngH)) u.xng q = sget (fun _ => ({} : XngH)) s.xng q) ∧
        (∀ k ∈ List.range 64, (u.trkInH k).pend = 0 ∧ (u.trkInH k).satur = false ∧ (u.trkInH k).sent = none) ∧
        u.now = max s.now t ∧
        RegsOnly [pgXng 2] s u ∧
        { u with regs := s.regs, now := s.now, hot := s.hot, xng := s.xng, trkIn := s.trkIn, trk := s.trk } = s :)
    ∧ (∀ (i n : Nat) (on : Bool) (t : Nat) (s : State), (Instr.farSidePower i n on t).wf = true → s.calm = true → (isXng i n = false ∨ (if on then decide (s.xstate i n ≠ 0) else decide (s.xstate i n = 0)) = true) →
      Completes (.farSidePower i n on t) s fun u => 
        u.now = max s.now t ∧
        RegsOnly [] s u ∧
        { u with regs := s.regs, now := s.now, hot := s.hot } = s :)
    ∧ (∀ (i n drops t : Nat) (s : State), (Instr.handshakeComplete i n drops t).wf = true → s.calm = true → isXng i n = true → s.xstate i n = 3 → (s.xngH i n).stopped = false →
      Completes (.handshakeComplete i n drops t) s fun u => 
        u.xstate i n = 1 ∧
        (u.xngH i n) = { (s.xngH i n) with fly := [], toCore := 0, fromCore := 0 } ∧
        (s.enabled (pgXng i) = true → u.getB (pgXng i) 0x010 17 = true) ∧
        (s.enabled (pgXng i) = true → u.fld (pgXng i) (xOff n 8) 7 0 = satAdd (2 ^ 8 - 1) (s.fld (pgXng i) (xOff n 8) 7 0) drops) ∧
        (∀ q, q ≠ xngKey i n → sget (fun _ => ({} : XngH)) u.xng q = sget (fun _ => ({} : XngH)) s.xng q) ∧
        u.now = max s.now t ∧
        RegsOnly [pgXng i] s u ∧
        { u with regs := s.regs, now := s.now, hot := s.hot, xng := s.xng } = s :)
    ∧ (∀ (i n drops t : Nat) (s : State), (Instr.handshakeComplete i n drops t).wf = true → s.calm = true → (isXng i n = false ∨ s.xstate i n ≠ 3 ∨ (s.xngH i n).stopped = true) →
      Completes (.handshakeComplete i n drops t) s fun u => 
        u.now = max s.now t ∧
        RegsOnly [] s u ∧
        { u with regs := s.regs, now := s.now, hot := s.hot } = s :)

/-- A port in TRAINING that locks with an end of its MODE goes to HELLO and sends HELLO, one that differs shows MISMATCH with FAULT_CODE 2; in no other state does lock do anything. Loss of lock takes a port to TRAINING and 3 ms without HELLO to HELLO; both take a link out of UP, count DOWNS, and the last port that leaves clears the path and the module is ALONE. HELLO goes out each millisecond while locked. A frame that fails its check or whose header is wrong is discarded and counted. The first HELLO of a serial is noted with the peer and the lower scope, the second brings the port UP, or to KEEPALIVE beside a bivouac; further ones keep it. A module that is inserted trains, one removed shows NO_SFP, with LOS and TX_FAULT noted on every port and TX_FAULT a fault of the page. -/
def Obligations.RopePorts : Prop :=
    (∀ (p t : Nat) (s : State), (Instr.blockLock p true t).wf = true → s.calm = true → s.lstate p = 2 →
      Completes (.blockLock p true t) s fun u => 
        u.lstate p = 3 ∧
        u.out = s.out ++ [.rope p 1 15 [] [] p 0 [s.ropeSerial, s.ropeDepth + s.ropePri * 16 + s.ownScope p * 256, s.rd64 pgRopeL 0x050, s.rd64 pgRopeL 0x058, b2n (s.pstate' != 0)] []] ∧
        u.getB (pgRope p) 0x010 16 = true ∧
        u.rd64 (pgRope p) 0x070 = satAdd (2 ^ 64 - 1) (s.rd64 (pgRope p) 0x070) 1 ∧
        u.now = max s.now t ∧
        RegsOnly [pgRope p] s u ∧
        { u with regs := s.regs, now := s.now, hot := s.hot, out := s.out } = s :)
    ∧ (∀ (p t : Nat) (s : State), (Instr.blockLock p false t).wf = true → s.calm = true → s.lstate p = 2 →
      Completes (.blockLock p false t) s fun u => 
        u.lstate p = 6 ∧
        u.getB (pgRope p) 0x010 16 = true ∧
        (s.retired (pgRope p) = false → s.faulted (pgRope p) = false → (s.ready (pgRope p) || s.busy (pgRope p)) = true → u.fld (pgRope p) 0x008 3 0 = 4 ∧ u.fld (pgRope p) 0x008 15 8 = 2) ∧
        u.now = max s.now t ∧
        RegsOnly [pgRope p, pgBcp 1] s u ∧
        { u with regs := s.regs, now := s.now, hot := s.hot, log := s.log } = s :)
    ∧ (∀ (p : Nat) (same : Bool) (t : Nat) (s : State), (Instr.blockLock p same t).wf = true → s.calm = true → s.lstate p ≠ 2 →
      Completes (.blockLock p same t) s fun u => 
        u.now = max s.now t ∧
        RegsOnly [] s u ∧
        { u with regs := s.regs, now := s.now, hot := s.hot } = s :)
    ∧ (∀ (p t : Nat) (s : State), (Instr.lockLoss p t).wf = true → s.calm = true → s.lstate p = 3 →
      Completes (.lockLoss p t) s fun u => 
        u.lstate p = 2 ∧
        ((u.ropeH p).hellos, (u.ropeH p).serial) = (0, 0) ∧
        u.getB (pgRope p) 0x010 16 = true ∧
        (∀ q, q ≠ p → u.ropeH q = s.ropeH q) ∧
        u.now = max s.now t ∧
        RegsOnly [pgRope p] s u ∧
        { u with regs := s.regs, now := s.now, hot := s.hot, ropes := s.ropes } = s :)
    ∧ (∀ (p t : Nat) (s : State), (Instr.lockLoss p t).wf = true → s.calm = true → s.linkUpAt p = true →
      Completes (.lockLoss p t) s fun u => 
        u.lstate p = 2 ∧
        ((u.ropeH p).hellos, (u.ropeH p).serial) = (0, 0) ∧
        (((List.range 16).all fun q => q == p || !s.linkUpAt q) = true → u.dstate = 0 ∧ u.rd64 pgRopeL 0x058 = 0 ∧ ((List.range 6).all fun i => !u.leads i && (u.teamH i).own == 0) = true) ∧
        (((List.range 16).all fun q => q == p || !s.linkUpAt q) = true → s.circs.all (fun q => !q.2.en || (u.circH q.1).cstate == 1) = true) ∧
        u.fld ((pgRope p)) 0x068 15 0 = min 65535 (s.fld ((pgRope p)) 0x068 15 0 + 1) ∧
        u.now = max s.now t ∧
        u.mem = s.mem :)
    ∧ (∀ (p t : Nat) (s : State), (Instr.helloTimeout p t).wf = true → s.calm = true → s.linkUpAt p = true → (s.ropeH p).tHello + 3 * cyclesPerMs ≤ t →
      Completes (.helloTimeout p t) s fun u => 
        u.lstate p = 3 ∧
        ((u.ropeH p).hellos, (u.ropeH p).serial) = (0, 0) ∧
        (((List.range 16).all fun q => q == p || !s.linkUpAt q) = true → u.dstate = 0 ∧ u.rd64 pgRopeL 0x058 = 0 ∧ ((List.range 6).all fun i => !u.leads i && (u.teamH i).own == 0) = true) ∧
        (((List.range 16).all fun q => q == p || !s.linkUpAt q) = true → s.circs.all (fun q => !q.2.en || (u.circH q.1).cstate == 1) = true) ∧
        u.fld ((pgRope p)) 0x068 15 0 = min 65535 (s.fld ((pgRope p)) 0x068 15 0 + 1) ∧
        u.now = max s.now t ∧
        u.mem = s.mem :)
    ∧ (∀ (p t : Nat) (s : State), (Instr.lockLoss p t).wf = true → s.calm = true → (s.lstate p < 3 ∨ 5 < s.lstate p) →
      Completes (.lockLoss p t) s fun u => 
        u.now = max s.now t ∧
        RegsOnly [] s u ∧
        { u with regs := s.regs, now := s.now, hot := s.hot } = s :)
    ∧ (∀ (p t : Nat) (s : State), (Instr.helloTimeout p t).wf = true → s.calm = true → (s.linkUpAt p = false ∨ t < (s.ropeH p).tHello + 3 * cyclesPerMs) →
      Completes (.helloTimeout p t) s fun u => 
        u.now = max s.now t ∧
        RegsOnly [] s u ∧
        { u with regs := s.regs, now := s.now, hot := s.hot } = s :)
    ∧ (∀ (p t : Nat) (s : State), (Instr.helloSend p t).wf = true → s.calm = true → 3 ≤ s.lstate p → s.lstate p ≤ 5 →
      Completes (.helloSend p t) s fun u => 
        u.out = s.out ++ [.rope p 1 15 [] [] p 0 [s.ropeSerial, s.ropeDepth + s.ropePri * 16 + s.ownScope p * 256, s.rd64 pgRopeL 0x050, s.rd64 pgRopeL 0x058, b2n (s.pstate' != 0)] []] ∧
        u.rd64 (pgRope p) 0x070 = satAdd (2 ^ 64 - 1) (s.rd64 (pgRope p) 0x070) 1 ∧
        u.now = max s.now t ∧
        RegsOnly [pgRope p] s u ∧
        { u with regs := s.regs, now := s.now, hot := s.hot, out := s.out } = s :)
    ∧ (∀ (p t : Nat) (s : State), (Instr.helloSend p t).wf = true → s.calm = true → (s.lstate p < 3 ∨ 5 < s.lstate p) →
      Completes (.helloSend p t) s fun u => 
        u.now = max s.now t ∧
        RegsOnly [] s u ∧
        { u with regs := s.regs, now := s.now, hot := s.hot } = s :)
    ∧ (∀ (f : RFrame) (serial scope pport : Nat) (biv : Bool) (t : Nat) (s : State), (Instr.hello f serial scope pport biv t).wf = true → s.calm = true → (s.ropeRecv f).1 = false →
      Completes (.hello f serial scope pport biv t) s fun u => 
        (3 ≤ s.lstate f.port ∧ s.lstate f.port ≤ 5 → f.fcsOk = false → u.fld ((pgRope f.port)) 0x060 31 16 = min 65535 (s.fld ((pgRope f.port)) 0x060 31 16 + 1)) ∧
        (3 ≤ s.lstate f.port ∧ s.lstate f.port ≤ 5 → f.fcsOk = true → u.fld ((pgRope f.port)) 0x060 15 0 = min 65535 (s.fld ((pgRope f.port)) 0x060 15 0 + 1)) ∧
        (3 ≤ s.lstate f.port ∧ s.lstate f.port ≤ 5 → u.getB (pgRope f.port) 0x010 18 = true) ∧
        (¬(3 ≤ s.lstate f.port ∧ s.lstate f.port ≤ 5) → u.rd (pgRope f.port) 0x060 = s.rd (pgRope f.port) 0x060) ∧
        u.now = max s.now t ∧
        RegsOnly [pgRope f.port] s u ∧
        { u with regs := s.regs, now := s.now, hot := s.hot } = s :)
    ∧ (∀ (f : RFrame) (ser scope pport : Nat) (biv : Bool) (t p n : Nat) (s : State), (Instr.hello f ser scope pport biv t).wf = true → s.calm = true → p = f.port → (s.ropeRecv f).1 = true → n = (if (s.ropeH p).hellos ≠ 0 ∧ (s.ropeH p).serial = ser then min 2 ((s.ropeH p).hellos + 1) else 1) → scope < 8 → ser < 2 ^ 64 → s.lstate p = 3 → n = 1 →
      Completes (.hello f ser scope pport biv t) s fun u => 
        u.ropeH p = { s.ropeH p with serial := ser, hellos := n, tHello := t, peerScope := scope, peerBiv := biv } ∧
        u.portScope p = min (s.ownScope p) scope ∧
        u.rd64 (pgRope p) 0x048 = ser ∧
        u.fld (pgRope p) 0x044 21 18 = pport % 16 ∧
        u.getB (pgRope p) 0x044 22 = biv ∧
        (s.ownScope p ≠ scope → u.getB (pgRope p) 0x010 17 = true) ∧
        u.lstate p = 3 ∧
        (∀ q, q ≠ p → u.ropeH q = s.ropeH q) ∧
        u.now = max s.now t ∧
        RegsOnly [pgRope p] s u ∧
        { u with regs := s.regs, now := s.now, hot := s.hot, ropes := s.ropes } = s :)
    ∧ (∀ (f : RFrame) (ser scope pport : Nat) (biv : Bool) (t p n : Nat) (s : State), (Instr.hello f ser scope pport biv t).wf = true → s.calm = true → p = f.port → (s.ropeRecv f).1 = true → n = (if (s.ropeH p).hellos ≠ 0 ∧ (s.ropeH p).serial = ser then min 2 ((s.ropeH p).hellos + 1) else 1) → scope < 8 → ser < 2 ^ 64 → s.lstate p = 3 → n = 2 →
      Completes (.hello f ser scope pport biv t) s fun u => 
        u.ropeH p = { s.ropeH p with serial := ser, hellos := n, tHello := t, peerScope := scope, peerBiv := biv } ∧
        u.portScope p = min (s.ownScope p) scope ∧
        u.rd64 (pgRope p) 0x048 = ser ∧
        u.fld (pgRope p) 0x044 21 18 = pport % 16 ∧
        u.getB (pgRope p) 0x044 22 = biv ∧
        (s.ownScope p ≠ scope → u.getB (pgRope p) 0x010 17 = true) ∧
        (u.lstate p = (if biv = true ∨ s.pstate' ≠ 0 then 5 else 4)) ∧
        u.dstate ≠ 0 ∧
        u.getB (pgRope p) 0x010 16 = true ∧
        u.fld ((pgRope p)) 0x068 31 16 = min 65535 (s.fld ((pgRope p)) 0x068 31 16 + 1) :)
    ∧ (∀ (f : RFrame) (ser scope pport : Nat) (biv : Bool) (t p n : Nat) (s : State), (Instr.hello f ser scope pport biv t).wf = true → s.calm = true → p = f.port → (s.ropeRecv f).1 = true → n = (if (s.ropeH p).hellos ≠ 0 ∧ (s.ropeH p).serial = ser then min 2 ((s.ropeH p).hellos + 1) else 1) → scope < 8 → ser < 2 ^ 64 → s.linkUpAt p = true → s.portScope p = min (s.ownScope p) scope → s.lstate p = (if biv = true ∨ s.pstate' ≠ 0 then 5 else 4) →
      Completes (.hello f ser scope pport biv t) s fun u => 
        u.ropeH p = { s.ropeH p with serial := ser, hellos := n, tHello := t, peerScope := scope, peerBiv := biv } ∧
        u.portScope p = min (s.ownScope p) scope ∧
        u.rd64 (pgRope p) 0x048 = ser ∧
        u.fld (pgRope p) 0x044 21 18 = pport % 16 ∧
        u.getB (pgRope p) 0x044 22 = biv ∧
        (s.ownScope p ≠ scope → u.getB (pgRope p) 0x010 17 = true) ∧
        u.lstate p = s.lstate p ∧
        (∀ q, q ≠ p → u.ropeH q = s.ropeH q) ∧
        u.now = max s.now t ∧
        RegsOnly [pgRope p] s u ∧
        { u with regs := s.regs, now := s.now, hot := s.hot, ropes := s.ropes } = s :)
    ∧ (∀ (f : RFrame) (ser scope pport : Nat) (biv : Bool) (t p n : Nat) (s : State), (Instr.hello f ser scope pport biv t).wf = true → s.calm = true → p = f.port → (s.ropeRecv f).1 = true → n = (if (s.ropeH p).hellos ≠ 0 ∧ (s.ropeH p).serial = ser then min 2 ((s.ropeH p).hellos + 1) else 1) → scope < 8 → ser < 2 ^ 64 → s.linkUpAt p = true →
      Completes (.hello f ser scope pport biv t) s fun u => 
        u.ropeH p = { s.ropeH p with serial := ser, hellos := n, tHello := t, peerScope := scope, peerBiv := biv } ∧
        u.portScope p = min (s.ownScope p) scope ∧
        u.rd64 (pgRope p) 0x048 = ser ∧
        u.fld (pgRope p) 0x044 21 18 = pport % 16 ∧
        u.getB (pgRope p) 0x044 22 = biv ∧
        (s.ownScope p ≠ scope → u.getB (pgRope p) 0x010 17 = true) ∧
        (u.lstate p = (if biv = true ∨ s.pstate' ≠ 0 then 5 else 4)) ∧
        u.now = max s.now t ∧
        u.mem = s.mem :)
    ∧ (∀ (p : Nat) (los : Bool) (t : Nat) (s : State), (Instr.sfpInsertion p true los false t).wf = true → s.calm = true → s.enabled (pgRope p) = true → s.ropeOff p = false →
      Completes (.sfpInsertion p true los false t) s fun u => 
        (u.lstate p = (if s.lstate p ≤ 1 then 2 else s.lstate p)) ∧
        u.ropeH p = { s.ropeH p with sfp := 4 + 2 * b2n los } ∧
        ((s.ropeH p).sfp ≠ 4 + 2 * b2n los → u.fld (pgRope p) 0x044 28 26 = 4 + 2 * b2n los ∧ u.getB (pgRope p) 0x010 19 = true) ∧
        (∀ q, q ≠ p → u.ropeH q = s.ropeH q) ∧
        u.now = max s.now t ∧
        RegsOnly [pgRope p] s u ∧
        { u with regs := s.regs, now := s.now, hot := s.hot, ropes := s.ropes } = s :)
    ∧ (∀ (p : Nat) (los : Bool) (t : Nat) (s : State), (Instr.sfpInsertion p true los true t).wf = true → s.calm = true →
      Completes (.sfpInsertion p true los true t) s fun u => 
        u.ropeH p = { s.ropeH p with sfp := 5 + 2 * b2n los } ∧
        ((s.ropeH p).sfp ≠ 5 + 2 * b2n los → u.fld (pgRope p) 0x044 28 26 = 5 + 2 * b2n los ∧ u.getB (pgRope p) 0x010 19 = true) ∧
        (s.retired (pgRope p) = false → s.faulted (pgRope p) = false → (s.ready (pgRope p) || s.busy (pgRope p)) = true → u.fld (pgRope p) 0x008 3 0 = 4 ∧ u.fld (pgRope p) 0x008 15 8 = 1) ∧
        (s.enabled (pgRope p) = true → s.ropeOff p = false → u.lstate p = (if s.lstate p ≤ 1 then 2 else s.lstate p)) ∧
        (∀ q, q ≠ p → u.ropeH q = s.ropeH q) ∧
        u.now = max s.now t ∧
        RegsOnly [pgRope p, pgBcp 1] s u ∧
        { u with regs := s.regs, now := s.now, hot := s.hot, ropes := s.ropes, log := s.log } = s :)
    ∧ (∀ (p : Nat) (present los : Bool) (t v : Nat) (s : State), (Instr.sfpInsertion p present los false t).wf = true → s.calm = true → (s.enabled (pgRope p) = false ∨ s.ropeOff p = true) → v = (if present then 4 + 2 * b2n los else 0) →
      Completes (.sfpInsertion p present los false t) s fun u => 
        u.ropeH p = { s.ropeH p with sfp := v } ∧
        ((s.ropeH p).sfp ≠ v → u.fld (pgRope p) 0x044 28 26 = v ∧ u.getB (pgRope p) 0x010 19 = true) ∧
        u.lstate p = s.lstate p ∧
        (∀ q, q ≠ p → u.ropeH q = s.ropeH q) ∧
        u.now = max s.now t ∧
        RegsOnly [pgRope p] s u ∧
        { u with regs := s.regs, now := s.now, hot := s.hot, ropes := s.ropes } = s :)
    ∧ (∀ (p : Nat) (los txFault : Bool) (t : Nat) (s : State), (Instr.sfpInsertion p false los txFault t).wf = true → s.calm = true → s.enabled (pgRope p) = true → s.ropeOff p = false → s.linkUpAt p = false →
      Completes (.sfpInsertion p false los txFault t) s fun u => 
        u.lstate p = 1 ∧
        (u.ropeH p).sfp = 0 ∧
        ((s.ropeH p).sfp ≠ 0 → u.fld (pgRope p) 0x044 28 26 = 0 ∧ u.getB (pgRope p) 0x010 19 = true) ∧
        ((u.ropeH p).hellos, (u.ropeH p).serial) = (0, 0) ∧
        (∀ q, q ≠ p → u.ropeH q = s.ropeH q) ∧
        u.now = max s.now t ∧
        RegsOnly [pgRope p] s u ∧
        { u with regs := s.regs, now := s.now, hot := s.hot, ropes := s.ropes } = s :)
    ∧ (∀ (p : Nat) (los txFault : Bool) (t : Nat) (s : State), (Instr.sfpInsertion p false los txFault t).wf = true → s.calm = true → s.enabled (pgRope p) = true → s.ropeOff p = false → s.linkUpAt p = true →
      Completes (.sfpInsertion p false los txFault t) s fun u => 
        u.lstate p = 1 ∧
        (u.ropeH p).sfp = 0 ∧
        (((List.range 16).all fun q => q == p || !s.linkUpAt q) = true → u.dstate = 0 ∧ u.rd64 pgRopeL 0x058 = 0) ∧
        u.fld ((pgRope p)) 0x068 15 0 = min 65535 (s.fld ((pgRope p)) 0x068 15 0 + 1) ∧
        u.now = max s.now t ∧
        u.mem = s.mem :)

/-- A better candidate is kept and flooded on, a worse one is answered with the better, and one of a newer epoch reopens the election with the better of it and this module; a frame of a depth or a link that is no team’s is taken and does nothing. An election with no better candidate for 2 ms, or without a link, settles and its winner leads; the last that settles takes the module to LABELLING. A leader keeps the report of a module and counts each route computation, finds the members that no route reaches LOST, loads its own row and sends the others; others pass reports, rows and status on with one hop less, and count what has no hop left. A LABEL frame gives a module its table, generation, summary and own label, a leader adopts an entry that conflicts with none of its own and no other. A row for this module is loaded, and the last takes it to READY; a label held too long is free. Every 10 ms each module reports its own status to the leaders and each leader sums its members’ and distributes it. -/
def Obligations.RopeTeams : Prop :=
    (∀ (f : RFrame) (pri serial epoch t : Nat) (s : State), (Instr.elect f pri serial epoch t).wf = true → s.calm = true → (s.ropeRecv f).1 = false →
      Completes (.elect f pri serial epoch t) s fun u => 
        (3 ≤ s.lstate f.port ∧ s.lstate f.port ≤ 5 → f.fcsOk = false → u.fld ((pgRope f.port)) 0x060 31 16 = min 65535 (s.fld ((pgRope f.port)) 0x060 31 16 + 1)) ∧
        (3 ≤ s.lstate f.port ∧ s.lstate f.port ≤ 5 → f.fcsOk = true → u.fld ((pgRope f.port)) 0x060 15 0 = min 65535 (s.fld ((pgRope f.port)) 0x060 15 0 + 1)) ∧
        (3 ≤ s.lstate f.port ∧ s.lstate f.port ≤ 5 → u.getB (pgRope f.port) 0x010 18 = true) ∧
        (¬(3 ≤ s.lstate f.port ∧ s.lstate f.port ≤ 5) → u.rd (pgRope f.port) 0x060 = s.rd (pgRope f.port) 0x060) ∧
        u.now = max s.now t ∧
        RegsOnly [pgRope f.port] s u ∧
        { u with regs := s.regs, now := s.now, hot := s.hot } = s :)
    ∧ (∀ (f : RFrame) (pri serial epoch t : Nat) (s : State), (Instr.elect f pri serial epoch t).wf = true → s.calm = true → (s.ropeRecv f).1 = true → (s.ropeDepth ≤ f.arg ∨ s.portScope f.port < f.arg ∨ s.linkUpAt f.port = false ∨ s.dstate = 0) →
      Completes (.elect f pri serial epoch t) s fun u => 
        u.rd64 (pgRope f.port) 0x078 = satAdd (2 ^ 64 - 1) (s.rd64 (pgRope f.port) 0x078) 1 ∧
        u.now = max s.now t ∧
        RegsOnly [pgRope f.port] s u ∧
        { u with regs := s.regs, now := s.now, hot := s.hot } = s :)
    ∧ (∀ (f : RFrame) (pr se ep t i : Nat) (s : State), (Instr.elect f pr se ep t).wf = true → s.calm = true → (s.ropeRecv f).1 = true → i = f.arg → i < s.ropeDepth → i ≤ s.portScope f.port → s.linkUpAt f.port = true → s.dstate ≠ 0 → (beats pr se (s.teamH i).pri (s.teamH i).serial || !(s.teamH i).known) = true → ((s.teamH i).known = true → ep ≤ (s.teamH i).epoch) →
      Completes (.elect f pr se ep t) s fun u => 
        (u.teamH i) = { (s.teamH i) with pri := pr, serial := se, known := true, tBest := t, settled := false, epoch := max (s.teamH i).epoch ep, via := some f.port } ∧
        (u.out = s.out ++ ((s.portsAt i).filter (fun x => x != f.port)).map (fun x => .rope x 2 15 [] [] i 0 [pr, se, max (s.teamH i).epoch ep] [])) ∧
        (∀ j, j ≠ i → u.teamH j = s.teamH j) ∧
        u.now = max s.now t ∧
        RegsOnly ((List.range 16).map pgRope) s u ∧
        { u with regs := s.regs, now := s.now, hot := s.hot, teams := s.teams, out := s.out } = s :)
    ∧ (∀ (f : RFrame) (pr se ep t i : Nat) (s : State), (Instr.elect f pr se ep t).wf = true → s.calm = true → (s.ropeRecv f).1 = true → i = f.arg → i < s.ropeDepth → i ≤ s.portScope f.port → s.linkUpAt f.port = true → s.dstate ≠ 0 → (s.teamH i).known = true → ep ≤ (s.teamH i).epoch → beats pr se (s.teamH i).pri (s.teamH i).serial = false →
      Completes (.elect f pr se ep t) s fun u => 
        (u.out = s.out ++ (if beats (s.teamH i).pri (s.teamH i).serial pr se then [.rope f.port 2 15 [] [] i 0 [(s.teamH i).pri, (s.teamH i).serial, (s.teamH i).epoch] []] else [])) ∧
        u.now = max s.now t ∧
        RegsOnly [pgRope f.port] s u ∧
        { u with regs := s.regs, now := s.now, hot := s.hot, out := s.out } = s :)
    ∧ (∀ (f : RFrame) (pr se ep t : Nat) (win : Bool) (i : Nat) (s : State), (Instr.elect f pr se ep t).wf = true → s.calm = true → (s.ropeRecv f).1 = true → i = f.arg → i < s.ropeDepth → i ≤ s.portScope f.port → s.linkUpAt f.port = true → s.dstate ≠ 0 → (s.teamH i).known = true → (s.teamH i).epoch < ep → win = beats s.ropePri s.ropeSerial pr se →
      Completes (.elect f pr se ep t) s fun u => 
        ((u.teamH i) = { (s.teamH i) with pri := if win then s.ropePri else pr, serial := if win then s.ropeSerial else se, tBest := t, settled := false, epoch := ep, via := if win then none else some f.port }) ∧
        (u.out = s.out ++ ((s.portsAt i).filter (fun x => win || x != f.port)).map (fun x => .rope x 2 15 [] [] i 0 [if win then s.ropePri else pr, if win then s.ropeSerial else se, ep] [])) ∧
        (∀ j, j ≠ i → u.teamH j = s.teamH j) ∧
        u.now = max s.now t ∧
        RegsOnly ((List.range 16).map pgRope) s u ∧
        { u with regs := s.regs, now := s.now, hot := s.hot, teams := s.teams, out := s.out } = s :)
    ∧ (∀ (i t j : Nat) (s : State), (Instr.electionSettles i t).wf = true → s.calm = true → i < s.ropeDepth → s.dstate = 1 → (s.teamH i).settled = false → ((s.teamH i).tBest + 2 * cyclesPerMs ≤ t ∨ s.portsAt i = []) → j < s.ropeDepth → j ≠ i → (s.teamH j).settled = false → s.leads i = false ∨ (s.teamH i).table = [] →
      Completes (.electionSettles i t) s fun u => 
        (u.teamH i) = { (s.teamH i) with settled := true } ∧
        u.leads i = ((s.teamH i).serial == s.ropeSerial && (s.teamH i).pri == s.ropePri) ∧
        (s.rd64 (pgTeam i) 0x050 ≠ (s.teamH i).serial → u.getB (pgTeam i) 0x010 17 = true) ∧
        ((s.teamH i).serial < 2 ^ 64 → u.rd64 (pgTeam i) 0x050 = (s.teamH i).serial) ∧
        u.dstate = 1 ∧
        (∀ j, j ≠ i → u.teamH j = s.teamH j) ∧
        u.now = max s.now t ∧
        RegsOnly [pgTeam i, pgRopeL] s u ∧
        { u with regs := s.regs, now := s.now, hot := s.hot, teams := s.teams } = s :)
    ∧ (∀ (i t : Nat) (s : State), (Instr.electionSettles i t).wf = true → s.calm = true → i < s.ropeDepth → s.dstate ≠ 0 → (s.teamH i).settled = false → ((s.teamH i).tBest + 2 * cyclesPerMs ≤ t ∨ s.portsAt i = []) →
      Completes (.electionSettles i t) s fun u => 
        (u.teamH i).settled = true ∧
        ((u.teamH i).serial, (u.teamH i).pri, (u.teamH i).epoch) = ((s.teamH i).serial, (s.teamH i).pri, (s.teamH i).epoch) ∧
        u.leads i = ((s.teamH i).serial == s.ropeSerial && (s.teamH i).pri == s.ropePri) ∧
        (s.dstate = 1 → ((List.range s.ropeDepth).all fun j => j == i || (s.teamH j).settled) = true → 2 ≤ u.dstate) ∧
        (s.dstate = 1 → ((List.range s.ropeDepth).all fun j => j == i || (s.teamH j).settled) = false → u.dstate = 1) ∧
        u.now = max s.now t ∧
        u.mem = s.mem :)
    ∧ (∀ (i t : Nat) (s : State), (Instr.electionSettles i t).wf = true → s.calm = true → (s.ropeDepth ≤ i ∨ s.dstate = 0 ∨ (s.teamH i).settled = true ∨ (t < (s.teamH i).tBest + 2 * cyclesPerMs ∧ s.portsAt i ≠ [])) →
      Completes (.electionSettles i t) s fun u => 
        u.now = max s.now t ∧
        RegsOnly [] s u ∧
        { u with regs := s.regs, now := s.now, hot := s.hot } = s :)
    ∧ (∀ (f : RFrame) (rep : LinkRep) (t : Nat) (s : State), (Instr.links f rep t).wf = true → s.calm = true → (s.ropeRecv f).1 = false →
      Completes (.links f rep t) s fun u => 
        (3 ≤ s.lstate f.port ∧ s.lstate f.port ≤ 5 → f.fcsOk = false → u.fld ((pgRope f.port)) 0x060 31 16 = min 65535 (s.fld ((pgRope f.port)) 0x060 31 16 + 1)) ∧
        (3 ≤ s.lstate f.port ∧ s.lstate f.port ≤ 5 → f.fcsOk = true → u.fld ((pgRope f.port)) 0x060 15 0 = min 65535 (s.fld ((pgRope f.port)) 0x060 15 0 + 1)) ∧
        (3 ≤ s.lstate f.port ∧ s.lstate f.port ≤ 5 → u.getB (pgRope f.port) 0x010 18 = true) ∧
        (¬(3 ≤ s.lstate f.port ∧ s.lstate f.port ≤ 5) → u.rd (pgRope f.port) 0x060 = s.rd (pgRope f.port) 0x060) ∧
        u.now = max s.now t ∧
        RegsOnly [pgRope f.port] s u ∧
        { u with regs := s.regs, now := s.now, hot := s.hot } = s :)
    ∧ (∀ (f : RFrame) (rep : LinkRep) (t : Nat) (s : State), (Instr.links f rep t).wf = true → s.calm = true → (s.ropeRecv f).1 = true → s.ropeDepth ≤ f.arg →
      Completes (.links f rep t) s fun u => 
        u.rd64 (pgRope f.port) 0x078 = satAdd (2 ^ 64 - 1) (s.rd64 (pgRope f.port) 0x078) 1 ∧
        u.now = max s.now t ∧
        RegsOnly [pgRope f.port] s u ∧
        { u with regs := s.regs, now := s.now, hot := s.hot } = s :)
    ∧ (∀ (f : RFrame) (rep : LinkRep) (t i : Nat) (s : State), (Instr.links f rep t).wf = true → s.calm = true → (s.ropeRecv f).1 = true → i = f.arg → i < s.ropeDepth → f.hops = 0 → s.leads i = false →
      Completes (.links f rep t) s fun u => 
        u.fld ((pgRope f.port)) 0x064 31 16 = min 65535 (s.fld ((pgRope f.port)) 0x064 31 16 + 1) ∧
        u.rd64 (pgRope f.port) 0x078 = satAdd (2 ^ 64 - 1) (s.rd64 (pgRope f.port) 0x078) 1 ∧
        u.now = max s.now t ∧
        RegsOnly [pgRope f.port] s u ∧
        { u with regs := s.regs, now := s.now, hot := s.hot } = s :)
    ∧ (∀ (f : RFrame) (rep : LinkRep) (t i : Nat) (s : State), (Instr.links f rep t).wf = true → s.calm = true → (s.ropeRecv f).1 = true → i = f.arg → i < s.ropeDepth → s.leads i = true →
      Completes (.links f rep t) s fun u => 
        ((u.teamH i).reports = rep :: (s.teamH i).reports.filter (fun x => x.serial != rep.serial)) ∧
        u.leads i = true ∧
        u.now = max s.now t ∧
        u.mem = s.mem :)
    ∧ (∀ (f : RFrame) (rep : LinkRep) (t i : Nat) (s : State), (Instr.links f rep t).wf = true → s.calm = true → (s.ropeRecv f).1 = true → i = f.arg → i < s.ropeDepth → s.leads i = false → f.hops ≠ 0 →
      Completes (.links f rep t) s fun u => 
        (u.out = s.out ++ ((s.towardLeader i).filter (fun x => x != f.port)).map (fun x => .rope x 3 (f.hops - 1) [] [] i 0 (rep.serial :: rep.depth :: rep.pref :: rep.ports.map (fun y => y.1 + y.2.2 * 16 + y.2.1 * 256)) [])) ∧
        u.now = max s.now t ∧
        RegsOnly ((List.range 16).map pgRope) s u ∧
        { u with regs := s.regs, now := s.now, hot := s.hot, out := s.out } = s :)
    ∧ (∀ (f : RFrame) (gen own : Nat) (rows : List LabelRow) (agg : Nat × Nat × Nat) (t : Nat) (s : State), (Instr.label f gen own rows agg t).wf = true → s.calm = true → (s.ropeRecv f).1 = false →
      Completes (.label f gen own rows agg t) s fun u => 
        (3 ≤ s.lstate f.port ∧ s.lstate f.port ≤ 5 → f.fcsOk = false → u.fld ((pgRope f.port)) 0x060 31 16 = min 65535 (s.fld ((pgRope f.port)) 0x060 31 16 + 1)) ∧
        (3 ≤ s.lstate f.port ∧ s.lstate f.port ≤ 5 → f.fcsOk = true → u.fld ((pgRope f.port)) 0x060 15 0 = min 65535 (s.fld ((pgRope f.port)) 0x060 15 0 + 1)) ∧
        (3 ≤ s.lstate f.port ∧ s.lstate f.port ≤ 5 → u.getB (pgRope f.port) 0x010 18 = true) ∧
        (¬(3 ≤ s.lstate f.port ∧ s.lstate f.port ≤ 5) → u.rd (pgRope f.port) 0x060 = s.rd (pgRope f.port) 0x060) ∧
        u.now = max s.now t ∧
        RegsOnly [pgRope f.port] s u ∧
        { u with regs := s.regs, now := s.now, hot := s.hot } = s :)
    ∧ (∀ (f : RFrame) (gen own : Nat) (rows : List LabelRow) (agg : Nat × Nat × Nat) (t : Nat) (s : State), (Instr.label f gen own rows agg t).wf = true → s.calm = true → (s.ropeRecv f).1 = true → s.ropeDepth ≤ f.arg →
      Completes (.label f gen own rows agg t) s fun u => 
        u.rd64 (pgRope f.port) 0x078 = satAdd (2 ^ 64 - 1) (s.rd64 (pgRope f.port) 0x078) 1 ∧
        u.now = max s.now t ∧
        RegsOnly [pgRope f.port] s u ∧
        { u with regs := s.regs, now := s.now, hot := s.hot } = s :)
    ∧ (∀ (f : RFrame) (gen own : Nat) (rs : List LabelRow) (agg : (Nat × Nat × Nat)) (t i : Nat) (s : State), (Instr.label f gen own rs agg t).wf = true → s.calm = true → (s.ropeRecv f).1 = true → i = f.arg → i < s.ropeDepth → s.leads i = false → gen < 2 ^ 32 → agg.1 < 2 ^ 32 → agg.2.1 < 2 ^ 32 → agg.2.2 < 2 ^ 32 →
      Completes (.label f gen own rs agg t) s fun u => 
        (u.rd (pgTeam i) 0x058, u.rd (pgTeam i) 0x05C, u.rd (pgTeam i) 0x060, u.rd (pgTeam i) 0x064) = (gen, agg) ∧
        (u.teamH i).own = own ∧
        (((rs.map (fun r => r.label)).all fun l => (rs.reverse.find? (fun r => r.label == l)).any fun r => (sget labZero (u.teamH i).table l).key == r.key && (sget labZero (u.teamH i).table l).st == r.st && (sget labZero (u.teamH i).table l).mods == r.mods) = true) ∧
        ((u.teamH i).table.all (fun q => rs.any (fun r => r.label == q.1)) = true) ∧
        u.now = max s.now t ∧
        u.mem = s.mem :)
    ∧ (∀ (f : RFrame) (gen own : Nat) (rs : List LabelRow) (agg : (Nat × Nat × Nat)) (t i : Nat) (s : State), (Instr.label f gen own rs agg t).wf = true → s.calm = true → (s.ropeRecv f).1 = true → i = f.arg → i < s.ropeDepth → s.leads i = false → s.dstate ≤ 1 → gen < 2 ^ 32 → (s.rd (pgTeam i) 0x058 ≠ gen ∨ (s.rd (pgTeam i) 0x05C, s.rd (pgTeam i) 0x060, s.rd (pgTeam i) 0x064) ≠ agg) →
      Completes (.label f gen own rs agg t) s fun u => 
        (f.hops ≠ 0 → u.out = s.out ++ ((s.portsAt i).filter (fun x => x != f.port)).map (fun x => .rope x 4 (f.hops - 1) [] [] i 0 (gen :: (u.teamH i).table.flatMap (fun q => [q.1 + q.2.st * 2 ^ 8 + b2n q.2.team * 2 ^ 10 + q.2.mods * 2 ^ 16, q.2.key]) ++ [u.rd64 (pgTeam i) 0x05C, u.rd (pgTeam i) 0x064]) [])) ∧
        (f.hops = 0 → u.out = s.out ∧ u.fld ((pgRope f.port)) 0x064 31 16 = min 65535 (s.fld ((pgRope f.port)) 0x064 31 16 + 1)) :)
    ∧ (∀ (f : RFrame) (gen own : Nat) (a0 : LabelRow) (agg : (Nat × Nat × Nat)) (t i : Nat) (s : State), (Instr.label f gen own ([a0]) agg t).wf = true → s.calm = true → (s.ropeRecv f).1 = true → i = f.arg → i < s.ropeDepth → s.leads i = true → a0.st ≠ 0 → (sget labZero (s.teamH i).table a0.label).st = 0 → (s.teamH i).table.any (fun x => x.2.key == a0.key && x.2.st != 0) = false →
      Completes (.label f gen own ([a0]) agg t) s fun u => 
        (sget labZero (u.teamH i).table a0.label).key = a0.key ∧
        ((s.teamH i).table.all (fun q => q.2.st == 0 || (sget labZero (u.teamH i).table q.1).key == q.2.key) = true) ∧
        u.leads i = true ∧
        u.now = max s.now t :)
    ∧ (∀ (f : RFrame) (gen own : Nat) (rs : List LabelRow) (agg : (Nat × Nat × Nat)) (t i : Nat) (s : State), (Instr.label f gen own rs agg t).wf = true → s.calm = true → (s.ropeRecv f).1 = true → i = f.arg → i < s.ropeDepth → s.leads i = true → rs.all (fun r => r.st == 0 || (sget labZero (s.teamH i).table r.label).st != 0 || (s.teamH i).table.any (fun x => x.2.key == r.key && x.2.st != 0)) = true →
      Completes (.label f gen own rs agg t) s fun u => 
        u.rd64 (pgRope f.port) 0x078 = satAdd (2 ^ 64 - 1) (s.rd64 (pgRope f.port) 0x078) 1 ∧
        u.now = max s.now t ∧
        RegsOnly [pgRope f.port] s u ∧
        { u with regs := s.regs, now := s.now, hot := s.hot } = s :)
    ∧ (∀ (i t : Nat) (s : State), (Instr.routeComputation i t).wf = true → s.calm = true → i < s.ropeDepth → s.leads i = true →
      Completes (.routeComputation i t) s fun u => 
        u.fld (pgTeam i) 0x040 3 0 = (s.fld (pgTeam i) 0x040 3 0 + 1) % 16 ∧
        ((u.teamH i).table = (s.teamH i).table.map (fun q => if q.2.st = 0 then q else if ((members (s.teamH i).reports i).find? (fun m => m.key == q.2.key)).any (fun m => m.mods.any (fun x => (closure (s.teamH i).reports i (s.teamH i).reports.length [s.ropeSerial]).contains x)) then (q.1, { q.2 with st := 1 }) else if q.2.st = 1 then (q.1, { q.2 with st := 2, lostT := t }) else q)) ∧
        ((u.teamH i).stats = (s.teamH i).stats.filter (fun q => (closure (s.teamH i).reports i (s.teamH i).reports.length [s.ropeSerial]).contains q.1)) ∧
        (u.rd (pgTeam i) 0x058 = (s.rd (pgTeam i) 0x058 + (((u.teamH i).table.zip (s.teamH i).table).filter (fun q => q.1.2.st != q.2.2.st)).length) % 2 ^ 32) ∧
        (∀ x ∈ (s.teamH i).reports, (s.teamH i).reports.find? (fun y => y.serial == s.ropeSerial) = some x → (u.teamH i).loaded = true ∧ (u.teamH i).row = routeRow (s.teamH i).reports (members (s.teamH i).reports i) (u.teamH i).table i s.ropeSerial x) ∧
        (∀ x ∈ (s.teamH i).reports, x.serial ≠ s.ropeSerial → (closure (s.teamH i).reports i (s.teamH i).reports.length [s.ropeSerial]).contains x.serial = true → ∀ r ∈ s.portsAt i, (.rope r 5 15 [] [] i 0 (x.serial :: (routeRow (s.teamH i).reports (members (s.teamH i).reports i) (u.teamH i).table i s.ropeSerial x).map (fun y => y.1 + y.2 * 256)) []) ∈ u.out) ∧
        u.now = max s.now t ∧
        u.mem = s.mem :)
    ∧ (∀ (i t : Nat) (s : State), (Instr.routeComputation i t).wf = true → s.calm = true → (s.ropeDepth ≤ i ∨ s.leads i = false) →
      Completes (.routeComputation i t) s fun u => 
        u.now = max s.now t ∧
        RegsOnly [] s u ∧
        { u with regs := s.regs, now := s.now, hot := s.hot } = s :)
    ∧ (∀ (f : RFrame) (serial : Nat) (row : List (Nat × Nat)) (t : Nat) (s : State), (Instr.route f serial row t).wf = true → s.calm = true → (s.ropeRecv f).1 = false →
      Completes (.route f serial row t) s fun u => 
        (3 ≤ s.lstate f.port ∧ s.lstate f.port ≤ 5 → f.fcsOk = false → u.fld ((pgRope f.port)) 0x060 31 16 = min 65535 (s.fld ((pgRope f.port)) 0x060 31 16 + 1)) ∧
        (3 ≤ s.lstate f.port ∧ s.lstate f.port ≤ 5 → f.fcsOk = true → u.fld ((pgRope f.port)) 0x060 15 0 = min 65535 (s.fld ((pgRope f.port)) 0x060 15 0 + 1)) ∧
        (3 ≤ s.lstate f.port ∧ s.lstate f.port ≤ 5 → u.getB (pgRope f.port) 0x010 18 = true) ∧
        (¬(3 ≤ s.lstate f.port ∧ s.lstate f.port ≤ 5) → u.rd (pgRope f.port) 0x060 = s.rd (pgRope f.port) 0x060) ∧
        u.now = max s.now t ∧
        RegsOnly [pgRope f.port] s u ∧
        { u with regs := s.regs, now := s.now, hot := s.hot } = s :)
    ∧ (∀ (f : RFrame) (serial : Nat) (row : List (Nat × Nat)) (t : Nat) (s : State), (Instr.route f serial row t).wf = true → s.calm = true → (s.ropeRecv f).1 = true → s.ropeDepth ≤ f.arg →
      Completes (.route f serial row t) s fun u => 
        u.rd64 (pgRope f.port) 0x078 = satAdd (2 ^ 64 - 1) (s.rd64 (pgRope f.port) 0x078) 1 ∧
        u.now = max s.now t ∧
        RegsOnly [pgRope f.port] s u ∧
        { u with regs := s.regs, now := s.now, hot := s.hot } = s :)
    ∧ (∀ (f : RFrame) (serial : Nat) (row : List (Nat × Nat)) (t i : Nat) (s : State), (Instr.route f serial row t).wf = true → s.calm = true → (s.ropeRecv f).1 = true → i = f.arg → i < s.ropeDepth → f.hops = 0 → serial ≠ s.ropeSerial →
      Completes (.route f serial row t) s fun u => 
        u.fld ((pgRope f.port)) 0x064 31 16 = min 65535 (s.fld ((pgRope f.port)) 0x064 31 16 + 1) ∧
        u.rd64 (pgRope f.port) 0x078 = satAdd (2 ^ 64 - 1) (s.rd64 (pgRope f.port) 0x078) 1 ∧
        u.now = max s.now t ∧
        RegsOnly [pgRope f.port] s u ∧
        { u with regs := s.regs, now := s.now, hot := s.hot } = s :)
    ∧ (∀ (f : RFrame) (serial : Nat) (row : List (Nat × Nat)) (t i : Nat) (s : State), (Instr.route f serial row t).wf = true → s.calm = true → (s.ropeRecv f).1 = true → i = f.arg → i < s.ropeDepth → serial = s.ropeSerial →
      Completes (.route f serial row t) s fun u => 
        ((u.teamH i).row, (u.teamH i).loaded) = (row, true) ∧
        ((u.teamH i).table, (u.teamH i).own, (u.teamH i).settled) = ((s.teamH i).table, (s.teamH i).own, (s.teamH i).settled) ∧
        u.fld pgRopeL 0x060 7 0 = (s.fld pgRopeL 0x060 7 0 + 1) % 256 ∧
        (u.dstate = (if s.dstate = 3 ∧ ((List.range s.ropeDepth).all fun j => j == i || (s.teamH j).loaded) = true then 4 else s.dstate)) ∧
        (∀ j, j ≠ i → u.teamH j = s.teamH j) ∧
        u.now = max s.now t ∧
        u.mem = s.mem :)
    ∧ (∀ (f : RFrame) (serial : Nat) (row : List (Nat × Nat)) (t i : Nat) (s : State), (Instr.route f serial row t).wf = true → s.calm = true → (s.ropeRecv f).1 = true → i = f.arg → i < s.ropeDepth → serial ≠ s.ropeSerial → f.hops ≠ 0 →
      Completes (.route f serial row t) s fun u => 
        (u.out = s.out ++ ((s.portsAt i).filter (fun x => x != f.port)).map (fun x => .rope x 5 (f.hops - 1) [] [] i 0 (serial :: row.map (fun y => y.1 + y.2 * 256)) [])) ∧
        u.now = max s.now t ∧
        RegsOnly ((List.range 16).map pgRope) s u ∧
        { u with regs := s.regs, now := s.now, hot := s.hot, out := s.out } = s :)
    ∧ (∀ (i l t : Nat) (s : State), (Instr.labelHoldExpiry i l t).wf = true → s.calm = true → s.leads i = true → (sget labZero (s.teamH i).table l).st = 2 → (sget labZero (s.teamH i).table l).lostT + s.rd pgRopeL 0x070 * cyclesPerS ≤ t →
      Completes (.labelHoldExpiry i l t) s fun u => 
        (u.teamH i) = { (s.teamH i) with table := sput labZero l {} (s.teamH i).table } ∧
        u.rd (pgTeam i) 0x058 = (s.rd (pgTeam i) 0x058 + 1) % 2 ^ 32 ∧
        u.getB (pgTeam i) 0x010 16 = true ∧
        (u.out = s.out ++ (s.portsAt i).map (fun x => .rope x 4 15 [] [] i 0 (u.rd (pgTeam i) 0x058 :: (u.teamH i).table.flatMap (fun q => [q.1 + q.2.st * 2 ^ 8 + b2n q.2.team * 2 ^ 10 + q.2.mods * 2 ^ 16, q.2.key]) ++ [s.rd64 (pgTeam i) 0x05C, s.rd (pgTeam i) 0x064]) [])) ∧
        (∀ j, j ≠ i → u.teamH j = s.teamH j) ∧
        u.now = max s.now t ∧
        RegsOnly (pgTeam i :: (List.range 16).map pgRope) s u ∧
        { u with regs := s.regs, now := s.now, hot := s.hot, teams := s.teams, out := s.out } = s :)
    ∧ (∀ (i l t : Nat) (s : State), (Instr.labelHoldExpiry i l t).wf = true → s.calm = true → (s.leads i = false ∨ (sget labZero (s.teamH i).table l).st ≠ 2 ∨ t < (sget labZero (s.teamH i).table l).lostT + s.rd pgRopeL 0x070 * cyclesPerS) →
      Completes (.labelHoldExpiry i l t) s fun u => 
        u.now = max s.now t ∧
        RegsOnly [] s u ∧
        { u with regs := s.regs, now := s.now, hot := s.hot } = s :)
    ∧ (∀ (f : RFrame) (serial : Nat) (st : TeamStat) (t : Nat) (s : State), (Instr.ropeStatus f serial st t).wf = true → s.calm = true → (s.ropeRecv f).1 = false →
      Completes (.ropeStatus f serial st t) s fun u => 
        (3 ≤ s.lstate f.port ∧ s.lstate f.port ≤ 5 → f.fcsOk = false → u.fld ((pgRope f.port)) 0x060 31 16 = min 65535 (s.fld ((pgRope f.port)) 0x060 31 16 + 1)) ∧
        (3 ≤ s.lstate f.port ∧ s.lstate f.port ≤ 5 → f.fcsOk = true → u.fld ((pgRope f.port)) 0x060 15 0 = min 65535 (s.fld ((pgRope f.port)) 0x060 15 0 + 1)) ∧
        (3 ≤ s.lstate f.port ∧ s.lstate f.port ≤ 5 → u.getB (pgRope f.port) 0x010 18 = true) ∧
        (¬(3 ≤ s.lstate f.port ∧ s.lstate f.port ≤ 5) → u.rd (pgRope f.port) 0x060 = s.rd (pgRope f.port) 0x060) ∧
        u.now = max s.now t ∧
        RegsOnly [pgRope f.port] s u ∧
        { u with regs := s.regs, now := s.now, hot := s.hot } = s :)
    ∧ (∀ (f : RFrame) (serial : Nat) (st : TeamStat) (t : Nat) (s : State), (Instr.ropeStatus f serial st t).wf = true → s.calm = true → (s.ropeRecv f).1 = true → s.ropeDepth ≤ f.arg →
      Completes (.ropeStatus f serial st t) s fun u => 
        u.rd64 (pgRope f.port) 0x078 = satAdd (2 ^ 64 - 1) (s.rd64 (pgRope f.port) 0x078) 1 ∧
        u.now = max s.now t ∧
        RegsOnly [pgRope f.port] s u ∧
        { u with regs := s.regs, now := s.now, hot := s.hot } = s :)
    ∧ (∀ (f : RFrame) (serial : Nat) (st : TeamStat) (t i : Nat) (s : State), (Instr.ropeStatus f serial st t).wf = true → s.calm = true → (s.ropeRecv f).1 = true → i = f.arg → i < s.ropeDepth → f.hops = 0 → s.leads i = false →
      Completes (.ropeStatus f serial st t) s fun u => 
        u.fld ((pgRope f.port)) 0x064 31 16 = min 65535 (s.fld ((pgRope f.port)) 0x064 31 16 + 1) ∧
        u.rd64 (pgRope f.port) 0x078 = satAdd (2 ^ 64 - 1) (s.rd64 (pgRope f.port) 0x078) 1 ∧
        u.now = max s.now t ∧
        RegsOnly [pgRope f.port] s u ∧
        { u with regs := s.regs, now := s.now, hot := s.hot } = s :)
    ∧ (∀ (f : RFrame) (serial : Nat) (st : TeamStat) (t i : Nat) (s : State), (Instr.ropeStatus f serial st t).wf = true → s.calm = true → (s.ropeRecv f).1 = true → i = f.arg → i < s.ropeDepth → s.leads i = true →
      Completes (.ropeStatus f serial st t) s fun u => 
        ((u.teamH i) = { (s.teamH i) with stats := (serial, st) :: (s.teamH i).stats.filter (fun x => x.1 != serial) }) ∧
        (∀ j, j ≠ i → u.teamH j = s.teamH j) ∧
        u.now = max s.now t ∧
        RegsOnly [pgRope f.port] s u ∧
        { u with regs := s.regs, now := s.now, hot := s.hot, teams := s.teams } = s :)
    ∧ (∀ (f : RFrame) (serial : Nat) (st : TeamStat) (t i : Nat) (s : State), (Instr.ropeStatus f serial st t).wf = true → s.calm = true → (s.ropeRecv f).1 = true → i = f.arg → i < s.ropeDepth → s.leads i = false → f.hops ≠ 0 →
      Completes (.ropeStatus f serial st t) s fun u => 
        (u.out = s.out ++ ((s.towardLeader i).filter (fun x => x != f.port)).map (fun x => .rope x 7 (f.hops - 1) [] [] i 0 [serial, st.mods, st.faults, st.tripped, st.danger, st.alert, st.unlocked] [])) ∧
        u.now = max s.now t ∧
        RegsOnly ((List.range 16).map pgRope) s u ∧
        { u with regs := s.regs, now := s.now, hot := s.hot, out := s.out } = s :)
    ∧ (∀ (t : Nat) (s : State), (Instr.statusSend t).wf = true → s.calm = true → s.dstate ≠ 0 →
      Completes (.statusSend t) s fun u => 
        (∀ i ∈ List.range s.ropeDepth, s.leads i = true → u.teamH i = { s.teamH i with stats := (s.ropeSerial, s.ownStat) :: (s.teamH i).stats.filter (fun x => x.1 != s.ropeSerial) }) ∧
        (∀ i ∈ List.range s.ropeDepth, s.leads i = true → (u.rd (pgTeam i) 0x05C, u.rd (pgTeam i) 0x060, u.rd (pgTeam i) 0x064) = (min 0xFFFF ((((u.teamH i).stats.map (fun q => q.2.mods)).sum)) * 65536 + min 0xFFFF ((((u.teamH i).stats.map (fun q => q.2.faults)).sum)), min 0xFFFF ((((u.teamH i).stats.map (fun q => q.2.tripped)).sum)) * 65536 + min 0xFFFF ((((u.teamH i).stats.map (fun q => q.2.danger)).sum)), min 0xFFFF ((((u.teamH i).stats.map (fun q => q.2.alert)).sum)) * 65536 + min 0xFFFF ((((u.teamH i).stats.map (fun q => q.2.unlocked)).sum)))) ∧
        (∀ i ∈ List.range 6, (s.ropeDepth ≤ i ∨ s.leads i = false) → u.teamH i = s.teamH i) ∧
        (u.out = s.out ++ (List.range s.ropeDepth).flatMap (fun i => if s.leads i then (s.portsAt i).map (fun x => .rope x 4 15 [] [] i 0 (s.rd (pgTeam i) 0x058 :: (s.teamH i).table.flatMap (fun q => [q.1 + q.2.st * 2 ^ 8 + b2n q.2.team * 2 ^ 10 + q.2.mods * 2 ^ 16, q.2.key]) ++ [u.rd64 (pgTeam i) 0x05C, u.rd (pgTeam i) 0x064]) []) else (s.towardLeader i).map (fun x => .rope x 7 15 [] [] i 0 [s.ropeSerial, s.ownStat.mods, s.ownStat.faults, s.ownStat.tripped, s.ownStat.danger, s.ownStat.alert, s.ownStat.unlocked] []))) ∧
        u.now = max s.now t ∧
        RegsOnly ((List.range s.ropeDepth).map pgTeam ++ (List.range 16).map pgRope) s u ∧
        { u with regs := s.regs, now := s.now, hot := s.hot, teams := s.teams, out := s.out } = s :)
    ∧ (∀ (t : Nat) (s : State), (Instr.statusSend t).wf = true → s.calm = true → s.dstate = 0 →
      Completes (.statusSend t) s fun u => 
        u.now = max s.now t ∧
        RegsOnly [] s u ∧
        { u with regs := s.regs, now := s.now, hot := s.hot } = s :)

/-- A frame of a circuit for another module goes on by its route with one hop less; one with no hop left, or without a route, or in a module not READY is discarded and counted. An answered CONNECT brings a waiting egress circuit to READY with its credit whole, a request brings the ingress circuit that names its sender to READY with its counts at 0 and is answered; others are not heeded. CONNECT is repeated after 1 ms. Cells in sequence are counted, a gap is counted lost and freed, cells behind it are duplicates, cells without an entry are counted and freed. A waiting NORMAL frame leaves after 2 µs; CREDIT sets the count of cells freed, and is sent after 16 of them or 10 µs. A request for time is answered with this end’s; a reply on the upstream port gives the delay, the mean of the last 16 round trips, the offset and the lock of time; another does nothing. The time master is locked at offset 0, ten exchanges missed, or ten without an upstream port, unlock. -/
def Obligations.RopeCircuits : Prop :=
    (∀ (f : RFrame) (far : Nat) (answer : Bool) (t : Nat) (s : State), (Instr.connect f far answer t).wf = true → s.calm = true → (s.ropeRecv f).1 = false →
      Completes (.connect f far answer t) s fun u => 
        (3 ≤ s.lstate f.port ∧ s.lstate f.port ≤ 5 → f.fcsOk = false → u.fld ((pgRope f.port)) 0x060 31 16 = min 65535 (s.fld ((pgRope f.port)) 0x060 31 16 + 1)) ∧
        (3 ≤ s.lstate f.port ∧ s.lstate f.port ≤ 5 → f.fcsOk = true → u.fld ((pgRope f.port)) 0x060 15 0 = min 65535 (s.fld ((pgRope f.port)) 0x060 15 0 + 1)) ∧
        (3 ≤ s.lstate f.port ∧ s.lstate f.port ≤ 5 → u.getB (pgRope f.port) 0x010 18 = true) ∧
        (¬(3 ≤ s.lstate f.port ∧ s.lstate f.port ≤ 5) → u.rd (pgRope f.port) 0x060 = s.rd (pgRope f.port) 0x060) ∧
        u.now = max s.now t ∧
        RegsOnly [pgRope f.port] s u ∧
        { u with regs := s.regs, now := s.now, hot := s.hot } = s :)
    ∧ (∀ (f : RFrame) (far : Nat) (answer : Bool) (t r : Nat) (s : State), (Instr.connect f far answer t).wf = true → s.calm = true → (s.ropeRecv f).1 = true → s.ropeOn f true = some r → f.hops ≠ 0 →
      Completes (.connect f far answer t) s fun u => 
        u.out = s.out ++ [.rope r 6 (f.hops - 1) f.dpath f.spath f.arg f.seq [far, b2n answer] []] ∧
        u.rd64 (pgRope r) 0x070 = satAdd (2 ^ 64 - 1) (s.rd64 (pgRope r) 0x070) 1 ∧
        u.rd64 (pgRope f.port) 0x078 = satAdd (2 ^ 64 - 1) (s.rd64 (pgRope f.port) 0x078) 1 ∧
        u.now = max s.now t ∧
        RegsOnly [pgRope f.port, pgRope r] s u ∧
        { u with regs := s.regs, now := s.now, hot := s.hot, out := s.out } = s :)
    ∧ (∀ (f : RFrame) (far : Nat) (answer : Bool) (t r : Nat) (s : State), (Instr.connect f far answer t).wf = true → s.calm = true → (s.ropeRecv f).1 = true → s.ropeOn f true = some r → f.hops = 0 →
      Completes (.connect f far answer t) s fun u => 
        u.fld ((pgRope f.port)) 0x064 31 16 = min 65535 (s.fld ((pgRope f.port)) 0x064 31 16 + 1) ∧
        u.rd64 (pgRope f.port) 0x078 = satAdd (2 ^ 64 - 1) (s.rd64 (pgRope f.port) 0x078) 1 ∧
        u.now = max s.now t ∧
        RegsOnly [pgRope f.port] s u ∧
        { u with regs := s.regs, now := s.now, hot := s.hot } = s :)
    ∧ (∀ (f : RFrame) (far : Nat) (answer : Bool) (t : Nat) (s : State), (Instr.connect f far answer t).wf = true → s.calm = true → (s.ropeRecv f).1 = true → s.ropeLost f true = true →
      Completes (.connect f far answer t) s fun u => 
        u.fld ((pgRope f.port)) 0x064 15 0 = min 65535 (s.fld ((pgRope f.port)) 0x064 15 0 + 1) ∧
        u.rd64 (pgRope f.port) 0x078 = satAdd (2 ^ 64 - 1) (s.rd64 (pgRope f.port) 0x078) 1 ∧
        u.now = max s.now t ∧
        RegsOnly [pgRope f.port] s u ∧
        { u with regs := s.regs, now := s.now, hot := s.hot } = s :)
    ∧ (∀ (f : RFrame) (far t c : Nat) (s : State), (Instr.connect f far true t).wf = true → s.calm = true → (s.ropeRecv f).1 = true → s.ropeHere f true = true → c = f.arg % 4096 → (s.circH c).en = true → (s.circH c).ingress = false → (s.circH c).path = f.spath → (s.circH c).rcirc = far → (s.circH c).cstate = 2 →
      Completes (.connect f far true t) s fun u => 
        (u.circH c) = { (s.circH c) with sent := 0, freedSeen := 0, seqOut := 0, tx := [], cstate := 3 } ∧
        u.getB pgRopeL 0x010 20 = true ∧
        (∀ x, x ≠ c → u.circH x = s.circH x) ∧
        u.now = max s.now t ∧
        RegsOnly [pgRope f.port, pgRopeL] s u ∧
        { u with regs := s.regs, now := s.now, hot := s.hot, circs := s.circs } = s :)
    ∧ (∀ (f : RFrame) (far t c : Nat) (s : State), (Instr.connect f far false t).wf = true → s.calm = true → (s.ropeRecv f).1 = true → s.ropeHere f true = true → c = f.arg % 4096 → (s.circH c).en = true → (s.circH c).ingress = true → (s.circH c).path = f.spath → (s.circH c).rcirc = far →
      Completes (.connect f far false t) s fun u => 
        (u.circH c) = { (s.circH c) with seqIn := 0, freed := 0, freedTold := 0, toldAt := t, cstate := 3 } ∧
        ((s.circH c).cstate ≠ 3 → u.getB pgRopeL 0x010 20 = true) ∧
        (u.out = s.out ++ (if s.dstate = 4 then (match s.ropeRoute f.spath true with | .port r => [.rope r 6 15 f.spath s.ownPath far 0 [c, 1] []] | _ => []) else [])) ∧
        (∀ x, x ≠ c → u.circH x = s.circH x) ∧
        u.now = max s.now t ∧
        RegsOnly (pgRope f.port :: pgRopeL :: (List.range 16).map pgRope) s u ∧
        { u with regs := s.regs, now := s.now, hot := s.hot, circs := s.circs, out := s.out } = s :)
    ∧ (∀ (f : RFrame) (far : Nat) (answer : Bool) (t c : Nat) (s : State), (Instr.connect f far answer t).wf = true → s.calm = true → (s.ropeRecv f).1 = true → s.ropeHere f true = true → c = f.arg % 4096 → ((s.circH c).en = false ∨ (s.circH c).path ≠ f.spath ∨ (s.circH c).rcirc ≠ far ∨ (s.circH c).ingress = answer ∨ (answer = true ∧ (s.circH c).cstate ≠ 2)) →
      Completes (.connect f far answer t) s fun u => 
        u.rd64 (pgRope f.port) 0x078 = satAdd (2 ^ 64 - 1) (s.rd64 (pgRope f.port) 0x078) 1 ∧
        u.now = max s.now t ∧
        RegsOnly [pgRope f.port] s u ∧
        { u with regs := s.regs, now := s.now, hot := s.hot } = s :)
    ∧ (∀ (c t : Nat) (s : State), (Instr.connectResend c t).wf = true → s.calm = true → (s.circH c).cstate = 2 → (s.circH c).ingress = false → (s.circH c).connectAt + cyclesPerMs ≤ t →
      Completes (.connectResend c t) s fun u => 
        (u.circH c) = { (s.circH c) with connectAt := max s.now t } ∧
        (u.out = s.out ++ (if s.dstate = 4 then (match s.ropeRoute (s.circH c).path true with | .port r => [.rope r 6 15 (s.circH c).path s.ownPath (s.circH c).rcirc 0 [c, 0] []] | _ => []) else [])) ∧
        (∀ x, x ≠ c → u.circH x = s.circH x) ∧
        u.now = max s.now t ∧
        RegsOnly ((List.range 16).map pgRope) s u ∧
        { u with regs := s.regs, now := s.now, hot := s.hot, circs := s.circs, out := s.out } = s :)
    ∧ (∀ (c t : Nat) (s : State), (Instr.connectResend c t).wf = true → s.calm = true → ((s.circH c).cstate ≠ 2 ∨ (s.circH c).ingress = true ∨ t < (s.circH c).connectAt + cyclesPerMs) →
      Completes (.connectResend c t) s fun u => 
        u.now = max s.now t ∧
        RegsOnly [] s u ∧
        { u with regs := s.regs, now := s.now, hot := s.hot } = s :)
    ∧ (∀ (f : RFrame) (cells : List RopeCell) (t : Nat) (s : State), (Instr.cell f cells t).wf = true → s.calm = true → (s.ropeRecv f).1 = false →
      Completes (.cell f cells t) s fun u => 
        (3 ≤ s.lstate f.port ∧ s.lstate f.port ≤ 5 → f.fcsOk = false → u.fld ((pgRope f.port)) 0x060 31 16 = min 65535 (s.fld ((pgRope f.port)) 0x060 31 16 + 1)) ∧
        (3 ≤ s.lstate f.port ∧ s.lstate f.port ≤ 5 → f.fcsOk = true → u.fld ((pgRope f.port)) 0x060 15 0 = min 65535 (s.fld ((pgRope f.port)) 0x060 15 0 + 1)) ∧
        (3 ≤ s.lstate f.port ∧ s.lstate f.port ≤ 5 → u.getB (pgRope f.port) 0x010 18 = true) ∧
        (¬(3 ≤ s.lstate f.port ∧ s.lstate f.port ≤ 5) → u.rd (pgRope f.port) 0x060 = s.rd (pgRope f.port) 0x060) ∧
        u.now = max s.now t ∧
        RegsOnly [pgRope f.port] s u ∧
        { u with regs := s.regs, now := s.now, hot := s.hot } = s :)
    ∧ (∀ (f : RFrame) (cells : List RopeCell) (t r : Nat) (s : State), (Instr.cell f cells t).wf = true → s.calm = true → (s.ropeRecv f).1 = true → s.ropeOn f true = some r → f.hops ≠ 0 →
      Completes (.cell f cells t) s fun u => 
        u.out = s.out ++ [.rope r 16 (f.hops - 1) f.dpath f.spath f.arg f.seq (cellWords cells) (cellsPois cells)] ∧
        u.rd64 (pgRope r) 0x070 = satAdd (2 ^ 64 - 1) (s.rd64 (pgRope r) 0x070) 1 ∧
        u.rd64 (pgRope f.port) 0x078 = satAdd (2 ^ 64 - 1) (s.rd64 (pgRope f.port) 0x078) 1 ∧
        u.now = max s.now t ∧
        RegsOnly [pgRope f.port, pgRope r] s u ∧
        { u with regs := s.regs, now := s.now, hot := s.hot, out := s.out } = s :)
    ∧ (∀ (f : RFrame) (cells : List RopeCell) (t r : Nat) (s : State), (Instr.cell f cells t).wf = true → s.calm = true → (s.ropeRecv f).1 = true → s.ropeOn f true = some r → f.hops = 0 →
      Completes (.cell f cells t) s fun u => 
        u.fld ((pgRope f.port)) 0x064 31 16 = min 65535 (s.fld ((pgRope f.port)) 0x064 31 16 + 1) ∧
        u.rd64 (pgRope f.port) 0x078 = satAdd (2 ^ 64 - 1) (s.rd64 (pgRope f.port) 0x078) 1 ∧
        u.now = max s.now t ∧
        RegsOnly [pgRope f.port] s u ∧
        { u with regs := s.regs, now := s.now, hot := s.hot } = s :)
    ∧ (∀ (f : RFrame) (cells : List RopeCell) (t : Nat) (s : State), (Instr.cell f cells t).wf = true → s.calm = true → (s.ropeRecv f).1 = true → s.ropeLost f true = true →
      Completes (.cell f cells t) s fun u => 
        u.fld ((pgRope f.port)) 0x064 15 0 = min 65535 (s.fld ((pgRope f.port)) 0x064 15 0 + 1) ∧
        u.rd64 (pgRope f.port) 0x078 = satAdd (2 ^ 64 - 1) (s.rd64 (pgRope f.port) 0x078) 1 ∧
        u.now = max s.now t ∧
        RegsOnly [pgRope f.port] s u ∧
        { u with regs := s.regs, now := s.now, hot := s.hot } = s :)
    ∧ (∀ (f : RFrame) (xs : List RopeCell) (t n c : Nat) (s : State), (Instr.cell f xs t).wf = true → s.calm = true → (s.ropeRecv f).1 = true → s.ropeHere f true = true → c = f.arg % 4096 → (s.circH c).en = true → (s.circH c).ingress = true → (s.circH c).cstate = 3 → n = (f.seq % 65536 + 65536 - (s.circH c).seqIn) % 65536 → n < 32768 → xs ≠ [] → s.entryOf (srcKey 4 c) = none →
      Completes (.cell f xs t) s fun u => 
        (u.circH c) = { (s.circH c) with seqIn := (f.seq + xs.length) % 65536, lost := satAdd 0xFFFFFFFF (s.circH c).lost n, noEntry := satAdd 65535 (s.circH c).noEntry xs.length, freed := (u.circH c).freed } ∧
        (u.circH c).freed % 2 ^ 32 = ((s.circH c).freed + n + xs.length) % 2 ^ 32 ∧
        u.rd64 (pgRope f.port) 0x078 = satAdd (2 ^ 64 - 1) (s.rd64 (pgRope f.port) 0x078) 1 ∧
        (∀ x, x ≠ c → u.circH x = s.circH x) ∧
        u.now = max s.now t ∧
        RegsOnly [pgRope f.port] s u ∧
        { u with regs := s.regs, now := s.now, hot := s.hot, circs := s.circs } = s :)
    ∧ (∀ (f : RFrame) (xs : List RopeCell) (t n e c : Nat) (s : State), (Instr.cell f xs t).wf = true → s.calm = true → (s.ropeRecv f).1 = true → s.ropeHere f true = true → c = f.arg % 4096 → (s.circH c).en = true → (s.circH c).ingress = true → (s.circH c).cstate = 3 → n = (f.seq % 65536 + 65536 - (s.circH c).seqIn) % 65536 → n < 32768 → xs ≠ [] → s.entryOf (srcKey 4 c) = some e →
      Completes (.cell f xs t) s fun u => 
        (u.circH c).seqIn = (f.seq + xs.length) % 65536 ∧
        (u.circH c).lost = satAdd 0xFFFFFFFF (s.circH c).lost n ∧
        (u.circH c).dup = (s.circH c).dup ∧
        u.now = max s.now t ∧
        u.rd64 (pgRope f.port) 0x078 = satAdd (2 ^ 64 - 1) (s.rd64 (pgRope f.port) 0x078) 1 :)
    ∧ (∀ (f : RFrame) (xs : List RopeCell) (t n c : Nat) (s : State), (Instr.cell f xs t).wf = true → s.calm = true → (s.ropeRecv f).1 = true → s.ropeHere f true = true → c = f.arg % 4096 → (s.circH c).en = true → (s.circH c).ingress = true → (s.circH c).cstate = 3 → n = (f.seq % 65536 + 65536 - (s.circH c).seqIn) % 65536 → 32768 ≤ n → n + xs.length ≤ 65536 →
      Completes (.cell f xs t) s fun u => 
        (u.circH c) = { (s.circH c) with dup := satAdd 4095 (s.circH c).dup xs.length } ∧
        u.rd64 (pgRope f.port) 0x078 = satAdd (2 ^ 64 - 1) (s.rd64 (pgRope f.port) 0x078) 1 ∧
        (∀ x, x ≠ c → u.circH x = s.circH x) ∧
        u.now = max s.now t ∧
        RegsOnly [pgRope f.port] s u ∧
        { u with regs := s.regs, now := s.now, hot := s.hot, circs := s.circs } = s :)
    ∧ (∀ (f : RFrame) (xs : List RopeCell) (t c : Nat) (s : State), (Instr.cell f xs t).wf = true → s.calm = true → (s.ropeRecv f).1 = true → s.ropeHere f true = true → c = f.arg % 4096 → ((s.circH c).en = false ∨ (s.circH c).ingress = false ∨ (s.circH c).cstate ≠ 3 ∨ xs = []) →
      Completes (.cell f xs t) s fun u => 
        u.rd64 (pgRope f.port) 0x078 = satAdd (2 ^ 64 - 1) (s.rd64 (pgRope f.port) 0x078) 1 ∧
        u.now = max s.now t ∧
        RegsOnly [pgRope f.port] s u ∧
        { u with regs := s.regs, now := s.now, hot := s.hot } = s :)
    ∧ (∀ (c t : Nat) (s : State), (Instr.normalFlush c t).wf = true → s.calm = true → (s.circH c).tx ≠ [] → (s.circH c).txAt + 2 * cyclesPerUs ≤ t →
      Completes (.normalFlush c t) s fun u => 
        (u.out = s.out ++ (if s.dstate = 4 then (match s.ropeRoute (s.circH c).path true with | .port r => [.rope r 16 15 (s.circH c).path s.ownPath (s.circH c).rcirc (s.circH c).seqOut (cellWords ((s.circH c).tx.map Cell.rope)) (cellsPois ((s.circH c).tx.map Cell.rope))] | _ => []) else [])) ∧
        (u.circH c) = { (s.circH c) with tx := [], seqOut := ((s.circH c).seqOut + (s.circH c).tx.length) % 65536 } ∧
        (∀ x, x ≠ c → u.circH x = s.circH x) ∧
        u.now = max s.now t ∧
        RegsOnly ((List.range 16).map pgRope) s u ∧
        { u with regs := s.regs, now := s.now, hot := s.hot, circs := s.circs, out := s.out } = s :)
    ∧ (∀ (c t : Nat) (s : State), (Instr.normalFlush c t).wf = true → s.calm = true → ((s.circH c).tx = [] ∨ t < (s.circH c).txAt + 2 * cyclesPerUs) →
      Completes (.normalFlush c t) s fun u => 
        u.now = max s.now t ∧
        RegsOnly [] s u ∧
        { u with regs := s.regs, now := s.now, hot := s.hot } = s :)
    ∧ (∀ (f : RFrame) (freed t : Nat) (s : State), (Instr.credit f freed t).wf = true → s.calm = true → (s.ropeRecv f).1 = false →
      Completes (.credit f freed t) s fun u => 
        (3 ≤ s.lstate f.port ∧ s.lstate f.port ≤ 5 → f.fcsOk = false → u.fld ((pgRope f.port)) 0x060 31 16 = min 65535 (s.fld ((pgRope f.port)) 0x060 31 16 + 1)) ∧
        (3 ≤ s.lstate f.port ∧ s.lstate f.port ≤ 5 → f.fcsOk = true → u.fld ((pgRope f.port)) 0x060 15 0 = min 65535 (s.fld ((pgRope f.port)) 0x060 15 0 + 1)) ∧
        (3 ≤ s.lstate f.port ∧ s.lstate f.port ≤ 5 → u.getB (pgRope f.port) 0x010 18 = true) ∧
        (¬(3 ≤ s.lstate f.port ∧ s.lstate f.port ≤ 5) → u.rd (pgRope f.port) 0x060 = s.rd (pgRope f.port) 0x060) ∧
        u.now = max s.now t ∧
        RegsOnly [pgRope f.port] s u ∧
        { u with regs := s.regs, now := s.now, hot := s.hot } = s :)
    ∧ (∀ (f : RFrame) (freed t r : Nat) (s : State), (Instr.credit f freed t).wf = true → s.calm = true → (s.ropeRecv f).1 = true → s.ropeOn f true = some r → f.hops ≠ 0 →
      Completes (.credit f freed t) s fun u => 
        u.out = s.out ++ [.rope r 17 (f.hops - 1) f.dpath f.spath f.arg f.seq [freed] []] ∧
        u.rd64 (pgRope r) 0x070 = satAdd (2 ^ 64 - 1) (s.rd64 (pgRope r) 0x070) 1 ∧
        u.rd64 (pgRope f.port) 0x078 = satAdd (2 ^ 64 - 1) (s.rd64 (pgRope f.port) 0x078) 1 ∧
        u.now = max s.now t ∧
        RegsOnly [pgRope f.port, pgRope r] s u ∧
        { u with regs := s.regs, now := s.now, hot := s.hot, out := s.out } = s :)
    ∧ (∀ (f : RFrame) (freed t r : Nat) (s : State), (Instr.credit f freed t).wf = true → s.calm = true → (s.ropeRecv f).1 = true → s.ropeOn f true = some r → f.hops = 0 →
      Completes (.credit f freed t) s fun u => 
        u.fld ((pgRope f.port)) 0x064 31 16 = min 65535 (s.fld ((pgRope f.port)) 0x064 31 16 + 1) ∧
        u.rd64 (pgRope f.port) 0x078 = satAdd (2 ^ 64 - 1) (s.rd64 (pgRope f.port) 0x078) 1 ∧
        u.now = max s.now t ∧
        RegsOnly [pgRope f.port] s u ∧
        { u with regs := s.regs, now := s.now, hot := s.hot } = s :)
    ∧ (∀ (f : RFrame) (freed t : Nat) (s : State), (Instr.credit f freed t).wf = true → s.calm = true → (s.ropeRecv f).1 = true → s.ropeLost f true = true →
      Completes (.credit f freed t) s fun u => 
        u.fld ((pgRope f.port)) 0x064 15 0 = min 65535 (s.fld ((pgRope f.port)) 0x064 15 0 + 1) ∧
        u.rd64 (pgRope f.port) 0x078 = satAdd (2 ^ 64 - 1) (s.rd64 (pgRope f.port) 0x078) 1 ∧
        u.now = max s.now t ∧
        RegsOnly [pgRope f.port] s u ∧
        { u with regs := s.regs, now := s.now, hot := s.hot } = s :)
    ∧ (∀ (f : RFrame) (freed t c : Nat) (s : State), (Instr.credit f freed t).wf = true → s.calm = true → (s.ropeRecv f).1 = true → s.ropeHere f true = true → c = f.arg % 4096 → (s.circH c).en = true → (s.circH c).ingress = false → (s.circH c).cstate = 3 →
      Completes (.credit f freed t) s fun u => 
        (u.circH c) = { (s.circH c) with freedSeen := freed % 2 ^ 32 } ∧
        u.rd64 (pgRope f.port) 0x078 = satAdd (2 ^ 64 - 1) (s.rd64 (pgRope f.port) 0x078) 1 ∧
        (∀ x, x ≠ c → u.circH x = s.circH x) ∧
        u.now = max s.now t ∧
        RegsOnly [pgRope f.port] s u ∧
        { u with regs := s.regs, now := s.now, hot := s.hot, circs := s.circs } = s :)
    ∧ (∀ (f : RFrame) (freed t c : Nat) (s : State), (Instr.credit f freed t).wf = true → s.calm = true → (s.ropeRecv f).1 = true → s.ropeHere f true = true → c = f.arg % 4096 → ((s.circH c).en = false ∨ (s.circH c).ingress = true ∨ (s.circH c).cstate ≠ 3) →
      Completes (.credit f freed t) s fun u => 
        u.rd64 (pgRope f.port) 0x078 = satAdd (2 ^ 64 - 1) (s.rd64 (pgRope f.port) 0x078) 1 ∧
        u.now = max s.now t ∧
        RegsOnly [pgRope f.port] s u ∧
        { u with regs := s.regs, now := s.now, hot := s.hot } = s :)
    ∧ (∀ (c t n : Nat) (s : State), (Instr.creditSend c t).wf = true → s.calm = true → (s.circH c).en = true → (s.circH c).ingress = true → (s.circH c).cstate = 3 → n = ((s.circH c).freed + 2 ^ 32 - (s.circH c).freedTold) % 2 ^ 32 → (16 ≤ n ∨ (0 < n ∧ (s.circH c).toldAt + 10 * cyclesPerUs ≤ t)) →
      Completes (.creditSend c t) s fun u => 
        (u.circH c) = { (s.circH c) with freedTold := (s.circH c).freed, toldAt := t } ∧
        (u.out = s.out ++ (if s.dstate = 4 then (match s.ropeRoute (s.circH c).path true with | .port r => [.rope r 17 15 (s.circH c).path s.ownPath (s.circH c).rcirc 0 [(s.circH c).freed] []] | _ => []) else [])) ∧
        (∀ x, x ≠ c → u.circH x = s.circH x) ∧
        u.now = max s.now t ∧
        RegsOnly ((List.range 16).map pgRope) s u ∧
        { u with regs := s.regs, now := s.now, hot := s.hot, circs := s.circs, out := s.out } = s :)
    ∧ (∀ (c t n : Nat) (s : State), (Instr.creditSend c t).wf = true → s.calm = true → n = ((s.circH c).freed + 2 ^ 32 - (s.circH c).freedTold) % 2 ^ 32 → ((s.circH c).en = false ∨ (s.circH c).ingress = false ∨ (s.circH c).cstate ≠ 3 ∨ n = 0 ∨ (n < 16 ∧ t < (s.circH c).toldAt + 10 * cyclesPerUs)) →
      Completes (.creditSend c t) s fun u => 
        u.now = max s.now t ∧
        RegsOnly [] s u ∧
        { u with regs := s.regs, now := s.now, hot := s.hot } = s :)
    ∧ (∀ (f : RFrame) (reply : Bool) (t2 t3 : Int) (t : Nat) (s : State), (Instr.time f reply t2 t3 t).wf = true → s.calm = true → (s.ropeRecv f).1 = false →
      Completes (.time f reply t2 t3 t) s fun u => 
        (3 ≤ s.lstate f.port ∧ s.lstate f.port ≤ 5 → f.fcsOk = false → u.fld ((pgRope f.port)) 0x060 31 16 = min 65535 (s.fld ((pgRope f.port)) 0x060 31 16 + 1)) ∧
        (3 ≤ s.lstate f.port ∧ s.lstate f.port ≤ 5 → f.fcsOk = true → u.fld ((pgRope f.port)) 0x060 15 0 = min 65535 (s.fld ((pgRope f.port)) 0x060 15 0 + 1)) ∧
        (3 ≤ s.lstate f.port ∧ s.lstate f.port ≤ 5 → u.getB (pgRope f.port) 0x010 18 = true) ∧
        (¬(3 ≤ s.lstate f.port ∧ s.lstate f.port ≤ 5) → u.rd (pgRope f.port) 0x060 = s.rd (pgRope f.port) 0x060) ∧
        u.now = max s.now t ∧
        RegsOnly [pgRope f.port] s u ∧
        { u with regs := s.regs, now := s.now, hot := s.hot } = s :)
    ∧ (∀ (f : RFrame) (t2 t3 : Int) (t : Nat) (s : State), (Instr.time f false t2 t3 t).wf = true → s.calm = true → (s.ropeRecv f).1 = true →
      Completes (.time f false t2 t3 t) s fun u => 
        u.out = s.out ++ [.rope f.port 0x13 15 [] [] 1 0 [ofS 64 (s.teamTime t), ofS 64 (s.teamTime t)] []] ∧
        u.now = max s.now t ∧
        RegsOnly [pgRope f.port] s u ∧
        { u with regs := s.regs, now := s.now, hot := s.hot, out := s.out } = s :)
    ∧ (∀ (f : RFrame) (t2 t3 : Int) (t : Nat) (s : State), (Instr.time f true t2 t3 t).wf = true → s.calm = true → (s.ropeRecv f).1 = true → s.upstream = some f.port → (s.ropeH f.port).answered = false →
      Completes (.time f true t2 t3 t) s fun u => 
        u.rd (pgRope f.port) 0x054 = ofS 32 (((((s.teamTime t - s.teamTime (s.ropeH f.port).tTime) - (t3 - t2)) :: (s.ropeH f.port).rounds).take 16).foldl (· + ·) 0 / (2 * ((((s.teamTime t - s.teamTime (s.ropeH f.port).tTime) - (t3 - t2)) :: (s.ropeH f.port).rounds).take 16).length) + toS 32 (s.rd (pgRope f.port) 0x050) / 2) ∧
        u.rd (pgRope f.port) 0x058 = ofS 32 (satS 32 (t2 - (s.teamTime (s.ropeH f.port).tTime + (((((s.teamTime t - s.teamTime (s.ropeH f.port).tTime) - (t3 - t2)) :: (s.ropeH f.port).rounds).take 16).foldl (· + ·) 0 / (2 * ((((s.teamTime t - s.teamTime (s.ropeH f.port).tTime) - (t3 - t2)) :: (s.ropeH f.port).rounds).take 16).length) + toS 32 (s.rd (pgRope f.port) 0x050) / 2)))) ∧
        u.rd64 pgRopeL 0x068 = ofS 64 (toS 64 (s.rd64 pgRopeL 0x068) + (t2 - (s.teamTime (s.ropeH f.port).tTime + (((((s.teamTime t - s.teamTime (s.ropeH f.port).tTime) - (t3 - t2)) :: (s.ropeH f.port).rounds).take 16).foldl (· + ·) 0 / (2 * ((((s.teamTime t - s.teamTime (s.ropeH f.port).tTime) - (t3 - t2)) :: (s.ropeH f.port).rounds).take 16).length) + toS 32 (s.rd (pgRope f.port) 0x050) / 2)))) ∧
        (u.ropeH f.port = { s.ropeH f.port with answered := true, missed := 0, good := (if (t2 - (s.teamTime (s.ropeH f.port).tTime + (((((s.teamTime t - s.teamTime (s.ropeH f.port).tTime) - (t3 - t2)) :: (s.ropeH f.port).rounds).take 16).foldl (· + ·) 0 / (2 * ((((s.teamTime t - s.teamTime (s.ropeH f.port).tTime) - (t3 - t2)) :: (s.ropeH f.port).rounds).take 16).length) + toS 32 (s.rd (pgRope f.port) 0x050) / 2))).natAbs ≤ 192 then (s.ropeH f.port).good + 1 else 0), bad := (if 240 < (t2 - (s.teamTime (s.ropeH f.port).tTime + (((((s.teamTime t - s.teamTime (s.ropeH f.port).tTime) - (t3 - t2)) :: (s.ropeH f.port).rounds).take 16).foldl (· + ·) 0 / (2 * ((((s.teamTime t - s.teamTime (s.ropeH f.port).tTime) - (t3 - t2)) :: (s.ropeH f.port).rounds).take 16).length) + toS 32 (s.rd (pgRope f.port) 0x050) / 2))).natAbs then (s.ropeH f.port).bad + 1 else 0), rounds := ((((s.teamTime t - s.teamTime (s.ropeH f.port).tTime) - (t3 - t2)) :: (s.ropeH f.port).rounds).take 16) }) ∧
        (u.getB pgRopeL 0x060 28 = (if s.getB pgRopeL 0x060 28 then decide ((if 240 < (t2 - (s.teamTime (s.ropeH f.port).tTime + (((((s.teamTime t - s.teamTime (s.ropeH f.port).tTime) - (t3 - t2)) :: (s.ropeH f.port).rounds).take 16).foldl (· + ·) 0 / (2 * ((((s.teamTime t - s.teamTime (s.ropeH f.port).tTime) - (t3 - t2)) :: (s.ropeH f.port).rounds).take 16).length) + toS 32 (s.rd (pgRope f.port) 0x050) / 2))).natAbs then (s.ropeH f.port).bad + 1 else 0) < 2 ∧ (t2 - (s.teamTime (s.ropeH f.port).tTime + (((((s.teamTime t - s.teamTime (s.ropeH f.port).tTime) - (t3 - t2)) :: (s.ropeH f.port).rounds).take 16).foldl (· + ·) 0 / (2 * ((((s.teamTime t - s.teamTime (s.ropeH f.port).tTime) - (t3 - t2)) :: (s.ropeH f.port).rounds).take 16).length) + toS 32 (s.rd (pgRope f.port) 0x050) / 2))).natAbs ≤ 2400) else decide (8 ≤ (if (t2 - (s.teamTime (s.ropeH f.port).tTime + (((((s.teamTime t - s.teamTime (s.ropeH f.port).tTime) - (t3 - t2)) :: (s.ropeH f.port).rounds).take 16).foldl (· + ·) 0 / (2 * ((((s.teamTime t - s.teamTime (s.ropeH f.port).tTime) - (t3 - t2)) :: (s.ropeH f.port).rounds).take 16).length) + toS 32 (s.rd (pgRope f.port) 0x050) / 2))).natAbs ≤ 192 then (s.ropeH f.port).good + 1 else 0)))) ∧
        (∀ q, q ≠ f.port → u.ropeH q = s.ropeH q) ∧
        u.now = max s.now t ∧
        RegsOnly [pgRope f.port, pgRopeL] s u ∧
        { u with regs := s.regs, now := s.now, hot := s.hot, ropes := s.ropes } = s :)
    ∧ (∀ (f : RFrame) (t2 t3 : Int) (t : Nat) (s : State), (Instr.time f true t2 t3 t).wf = true → s.calm = true → (s.ropeRecv f).1 = true → (s.upstream ≠ some f.port ∨ (s.ropeH f.port).answered = true) →
      Completes (.time f true t2 t3 t) s fun u => 
        u.rd64 (pgRope f.port) 0x078 = satAdd (2 ^ 64 - 1) (s.rd64 (pgRope f.port) 0x078) 1 ∧
        u.now = max s.now t ∧
        RegsOnly [pgRope f.port] s u ∧
        { u with regs := s.regs, now := s.now, hot := s.hot } = s :)
    ∧ (∀ (t : Nat) (s : State), (Instr.timeExchange t).wf = true → s.calm = true → s.leads 0 = true →
      Completes (.timeExchange t) s fun u => 
        u.rd64 pgRopeL 0x068 = 0 ∧
        u.getB pgRopeL 0x060 28 = true ∧
        u.now = max s.now t ∧
        RegsOnly [pgRopeL] s u ∧
        { u with regs := s.regs, now := s.now, hot := s.hot } = s :)
    ∧ (∀ (t r m : Nat) (s : State), (Instr.timeExchange t).wf = true → s.calm = true → s.upstream = some r → m = (if (s.ropeH r).answered then 0 else (s.ropeH r).missed + 1) →
      Completes (.timeExchange t) s fun u => 
        (u.ropeH r = { s.ropeH r with tTime := t, answered := false, missed := m, good := if (s.ropeH r).answered then (s.ropeH r).good else 0 }) ∧
        u.getB pgRopeL 0x060 28 = (s.getB pgRopeL 0x060 28 && decide (m < 10)) ∧
        u.teamH 0 = { s.teamH 0 with noUp := 0 } ∧
        (∀ i, i ≠ 0 → u.teamH i = s.teamH i) ∧
        u.out = s.out ++ [.rope r 0x13 15 [] [] 0 0 [ofS 64 (s.teamTime t)] []] ∧
        (∀ q, q ≠ r → u.ropeH q = s.ropeH q) ∧
        u.now = max s.now t ∧
        RegsOnly [pgRope r, pgRopeL] s u ∧
        { u with regs := s.regs, now := s.now, hot := s.hot, ropes := s.ropes, out := s.out, teams := s.teams } = s :)
    ∧ (∀ (t : Nat) (s : State), (Instr.timeExchange t).wf = true → s.calm = true → s.leads 0 = false → s.upstream = none →
      Completes (.timeExchange t) s fun u => 
        u.teamH 0 = { s.teamH 0 with noUp := (s.teamH 0).noUp + 1 } ∧
        u.getB pgRopeL 0x060 28 = (s.getB pgRopeL 0x060 28 && decide ((s.teamH 0).noUp < 9)) ∧
        (∀ i, i ≠ 0 → u.teamH i = s.teamH i) ∧
        u.now = max s.now t ∧
        RegsOnly [pgRopeL] s u ∧
        { u with regs := s.regs, now := s.now, hot := s.hot, teams := s.teams } = s :)

/-- A granted read of DRAM is answered with the word and its poison, a granted write stores its bytes and no others; a read or write of a page is that of the page; an access without the right is refused with reason 2, one outside DRAM and pages with 1, a write of a BASECAMP page with 5, a poisoned word with 4, a misaligned one with 6; one that meets no route here, or a module not READY, is counted and refused with 3; one for another module goes on with one hop less. The answer leaves by the route of the path that asked, or by the port on which the request came. A slot that is written issues its request on the route of its path, or performs it here, or ends refused with reason 3; a busy slot, and Basecamp’s slots for others, take no write. The reply or refusal that bears its tag, or the timeout, ends the slot with its state, data and reason; any other is discarded. -/
def Obligations.RopeAccess : Prop :=
    (∀ (f : RFrame) (tile : Bool) (op addr data : Nat) (pois : Bool) (t : Nat) (s : State), (Instr.accReq f tile op addr data pois t).wf = true → s.calm = true → (s.ropeRecv f).1 = false →
      Completes (.accReq f tile op addr data pois t) s fun u => 
        (3 ≤ s.lstate f.port ∧ s.lstate f.port ≤ 5 → f.fcsOk = false → u.fld ((pgRope f.port)) 0x060 31 16 = min 65535 (s.fld ((pgRope f.port)) 0x060 31 16 + 1)) ∧
        (3 ≤ s.lstate f.port ∧ s.lstate f.port ≤ 5 → f.fcsOk = true → u.fld ((pgRope f.port)) 0x060 15 0 = min 65535 (s.fld ((pgRope f.port)) 0x060 15 0 + 1)) ∧
        (3 ≤ s.lstate f.port ∧ s.lstate f.port ≤ 5 → u.getB (pgRope f.port) 0x010 18 = true) ∧
        (¬(3 ≤ s.lstate f.port ∧ s.lstate f.port ≤ 5) → u.rd (pgRope f.port) 0x060 = s.rd (pgRope f.port) 0x060) ∧
        u.now = max s.now t ∧
        RegsOnly [pgRope f.port] s u ∧
        { u with regs := s.regs, now := s.now, hot := s.hot } = s :)
    ∧ (∀ (f : RFrame) (tile : Bool) (op addr data : Nat) (pois : Bool) (t r : Nat) (s : State), (Instr.accReq f tile op addr data pois t).wf = true → s.calm = true → (s.ropeRecv f).1 = true → s.ropeOn f false = some r → f.hops ≠ 0 →
      Completes (.accReq f tile op addr data pois t) s fun u => 
        u.out = s.out ++ [.rope r 0x20 (f.hops - 1) f.dpath f.spath f.arg f.seq (accWords op addr data tile) [false, pois]] ∧
        u.rd64 (pgRope r) 0x070 = satAdd (2 ^ 64 - 1) (s.rd64 (pgRope r) 0x070) 1 ∧
        u.rd64 (pgRope f.port) 0x078 = satAdd (2 ^ 64 - 1) (s.rd64 (pgRope f.port) 0x078) 1 ∧
        u.now = max s.now t ∧
        RegsOnly [pgRope f.port, pgRope r] s u ∧
        { u with regs := s.regs, now := s.now, hot := s.hot, out := s.out } = s :)
    ∧ (∀ (f : RFrame) (tile : Bool) (op addr data : Nat) (pois : Bool) (t r : Nat) (s : State), (Instr.accReq f tile op addr data pois t).wf = true → s.calm = true → (s.ropeRecv f).1 = true → s.ropeOn f false = some r → f.hops = 0 →
      Completes (.accReq f tile op addr data pois t) s fun u => 
        u.fld ((pgRope f.port)) 0x064 31 16 = min 65535 (s.fld ((pgRope f.port)) 0x064 31 16 + 1) ∧
        u.rd64 (pgRope f.port) 0x078 = satAdd (2 ^ 64 - 1) (s.rd64 (pgRope f.port) 0x078) 1 ∧
        u.now = max s.now t ∧
        RegsOnly [pgRope f.port] s u ∧
        { u with regs := s.regs, now := s.now, hot := s.hot } = s :)
    ∧ (∀ (f : RFrame) (tile : Bool) (op addr data : Nat) (pois : Bool) (t : Nat) (s : State), (Instr.accReq f tile op addr data pois t).wf = true → s.calm = true → (s.ropeRecv f).1 = true → s.ropeLost f false = true →
      Completes (.accReq f tile op addr data pois t) s fun u => 
        (u.out = s.out ++ (s.answerPort f).toList.map (fun r => .rope r 0x22 15 f.spath s.ownPath f.arg 0 [refuseWord 3 addr] [false])) ∧
        u.fld ((pgRope f.port)) 0x064 15 0 = min 65535 (s.fld ((pgRope f.port)) 0x064 15 0 + 1) ∧
        u.rd64 (pgRope f.port) 0x078 = satAdd (2 ^ 64 - 1) (s.rd64 (pgRope f.port) 0x078) 1 ∧
        u.now = max s.now t ∧
        RegsOnly (pgRope f.port :: (s.answerPort f).toList.map pgRope) s u ∧
        { u with regs := s.regs, now := s.now, hot := s.hot, out := s.out } = s :)
    ∧ (∀ (f : RFrame) (tile : Bool) (op addr : Nat) (pois : Bool) (t right : Nat) (s : State), (Instr.accReq f tile op addr 0 pois t).wf = true → s.calm = true → (s.ropeRecv f).1 = true → s.ropeHere f false = true → right = (if tile then bits (s.grantFor f.spath) 5 4 else bits (s.grantFor f.spath) 1 0) → s.bankState ⟨pgEccD, 0, 2⟩ = 2 → addr + 8 ≤ dramSize → s.lineErr (addr / 64) = [] → (op = 1 ∨ op = 2) → addr % accSize op = 0 → right ≠ 0 → bit (s.grantFor f.spath) 8 = true →
      Completes (.accReq f tile op addr 0 pois t) s fun u => 
        (u.out = s.out ++ (s.answerPort f).toList.map (fun r => .rope r 0x21 15 f.spath s.ownPath f.arg 0 [(s.rdMem addr (accSize op)).1.1] [(s.rdMem addr (accSize op)).1.2])) ∧
        u.rd64 (pgRope f.port) 0x078 = satAdd (2 ^ 64 - 1) (s.rd64 (pgRope f.port) 0x078) 1 ∧
        u.now = max s.now t ∧
        RegsOnly (pgRope f.port :: (s.answerPort f).toList.map pgRope) s u ∧
        { u with regs := s.regs, now := s.now, hot := s.hot, out := s.out } = s :)
    ∧ (∀ (f : RFrame) (tile : Bool) (op addr data t right : Nat) (s : State), (Instr.accReq f tile op addr data false t).wf = true → s.calm = true → (s.ropeRecv f).1 = true → s.ropeHere f false = true → right = (if tile then bits (s.grantFor f.spath) 5 4 else bits (s.grantFor f.spath) 1 0) → s.bankState ⟨pgEccD, 0, 2⟩ = 2 → addr + 8 ≤ dramSize → s.lineErr (addr / 64) = [] → (op = 3 ∨ op = 4) → addr % accSize op = 0 → 2 ≤ right → bit (s.grantFor f.spath) 9 = true → bit ((s.upTo t).flipRegs pgEccD).1 31 = false →
      Completes (.accReq f tile op addr data false t) s fun u => 
        (∀ j ∈ List.range (accSize op), u.byte (addr + j) = BitVec.ofNat 8 (data / 256 ^ j)) ∧
        (∀ a, a < addr ∨ addr + accSize op ≤ a → u.byte a = s.byte a) ∧
        (u.out = s.out ++ (s.answerPort f).toList.map (fun r => .rope r 0x21 15 f.spath s.ownPath f.arg 0 [0] [false])) ∧
        u.rd64 (pgRope f.port) 0x078 = satAdd (2 ^ 64 - 1) (s.rd64 (pgRope f.port) 0x078) 1 ∧
        u.now = max s.now t ∧
        RegsOnly (pgEccD :: pgRope f.port :: (s.answerPort f).toList.map pgRope) s u ∧
        { u with regs := s.regs, now := s.now, hot := s.hot, out := s.out, mem := s.mem, chk := s.chk, pois := s.pois, tags := s.tags, dramErr := s.dramErr } = s :)
    ∧ (∀ (f : RFrame) (tile : Bool) (op addr data : Nat) (pois : Bool) (t right : Nat) (s : State), (Instr.accReq f tile op addr data pois t).wf = true → s.calm = true → (s.ropeRecv f).1 = true → s.ropeHere f false = true → right = (if tile then bits (s.grantFor f.spath) 5 4 else bits (s.grantFor f.spath) 1 0) → addr < dramSize → (right = 0 ∨ (3 ≤ op ∧ right = 1) ∨ bit (s.grantFor f.spath) (if 3 ≤ op then 9 else 8) = false) →
      Completes (.accReq f tile op addr data pois t) s fun u => 
        (u.out = s.out ++ (s.answerPort f).toList.map (fun r => .rope r 0x22 15 f.spath s.ownPath f.arg 0 [refuseWord 2 addr] [false])) ∧
        u.rd64 (pgRope f.port) 0x078 = satAdd (2 ^ 64 - 1) (s.rd64 (pgRope f.port) 0x078) 1 ∧
        u.now = max s.now t ∧
        RegsOnly (pgRope f.port :: (s.answerPort f).toList.map pgRope) s u ∧
        { u with regs := s.regs, now := s.now, hot := s.hot, out := s.out } = s :)
    ∧ (∀ (f : RFrame) (tile : Bool) (op addr data : Nat) (pois : Bool) (t right : Nat) (s : State), (Instr.accReq f tile op addr data pois t).wf = true → s.calm = true → (s.ropeRecv f).1 = true → s.ropeHere f false = true → right = (if tile then bits (s.grantFor f.spath) 5 4 else bits (s.grantFor f.spath) 1 0) → dramSize ≤ addr → (addr < pageBase ∨ pageBase + 2 ^ 28 ≤ addr) →
      Completes (.accReq f tile op addr data pois t) s fun u => 
        (u.out = s.out ++ (s.answerPort f).toList.map (fun r => .rope r 0x22 15 f.spath s.ownPath f.arg 0 [refuseWord 1 addr] [false])) ∧
        u.rd64 (pgRope f.port) 0x078 = satAdd (2 ^ 64 - 1) (s.rd64 (pgRope f.port) 0x078) 1 ∧
        u.now = max s.now t ∧
        RegsOnly (pgRope f.port :: (s.answerPort f).toList.map pgRope) s u ∧
        { u with regs := s.regs, now := s.now, hot := s.hot, out := s.out } = s :)
    ∧ (∀ (f : RFrame) (tile : Bool) (op addr data : Nat) (pois : Bool) (t right : Nat) (s : State), (Instr.accReq f tile op addr data pois t).wf = true → s.calm = true → (s.ropeRecv f).1 = true → s.ropeHere f false = true → right = (if tile then bits (s.grantFor f.spath) 5 4 else bits (s.grantFor f.spath) 1 0) → pageBase ≤ addr → addr < pageBase + 2 ^ 28 → 3 ≤ op → ownerAt addr = 3 →
      Completes (.accReq f tile op addr data pois t) s fun u => 
        (u.out = s.out ++ (s.answerPort f).toList.map (fun r => .rope r 0x22 15 f.spath s.ownPath f.arg 0 [refuseWord 5 addr] [false])) ∧
        u.rd64 (pgRope f.port) 0x078 = satAdd (2 ^ 64 - 1) (s.rd64 (pgRope f.port) 0x078) 1 ∧
        u.now = max s.now t ∧
        RegsOnly (pgRope f.port :: (s.answerPort f).toList.map pgRope) s u ∧
        { u with regs := s.regs, now := s.now, hot := s.hot, out := s.out } = s :)
    ∧ (∀ (f : RFrame) (tile : Bool) (op addr data : Nat) (pois : Bool) (t right : Nat) (s : State), (Instr.accReq f tile op addr data pois t).wf = true → s.calm = true → (s.ropeRecv f).1 = true → s.ropeHere f false = true → right = (if tile then bits (s.grantFor f.spath) 5 4 else bits (s.grantFor f.spath) 1 0) → pageBase ≤ addr → addr < pageBase + 2 ^ 28 → ownerAt addr ≠ 3 ∨ op < 3 → (right = 0 ∨ (3 ≤ op ∧ right ≤ ownerAt addr)) →
      Completes (.accReq f tile op addr data pois t) s fun u => 
        (u.out = s.out ++ (s.answerPort f).toList.map (fun r => .rope r 0x22 15 f.spath s.ownPath f.arg 0 [refuseWord 2 addr] [false])) ∧
        u.rd64 (pgRope f.port) 0x078 = satAdd (2 ^ 64 - 1) (s.rd64 (pgRope f.port) 0x078) 1 ∧
        u.now = max s.now t ∧
        RegsOnly (pgRope f.port :: (s.answerPort f).toList.map pgRope) s u ∧
        { u with regs := s.regs, now := s.now, hot := s.hot, out := s.out } = s :)
    ∧ (∀ (f : RFrame) (tile : Bool) (op addr data : Nat) (pois : Bool) (t right : Nat) (s : State), (Instr.accReq f tile op addr data pois t).wf = true → s.calm = true → (s.ropeRecv f).1 = true → s.ropeHere f false = true → right = (if tile then bits (s.grantFor f.spath) 5 4 else bits (s.grantFor f.spath) 1 0) → addr < dramSize → 3 ≤ op → 2 ≤ right → bit (s.grantFor f.spath) 9 = true → pois = true →
      Completes (.accReq f tile op addr data pois t) s fun u => 
        (u.out = s.out ++ (s.answerPort f).toList.map (fun r => .rope r 0x22 15 f.spath s.ownPath f.arg 0 [refuseWord 4 addr] [false])) ∧
        u.rd64 (pgRope f.port) 0x078 = satAdd (2 ^ 64 - 1) (s.rd64 (pgRope f.port) 0x078) 1 ∧
        u.now = max s.now t ∧
        RegsOnly (pgRope f.port :: (s.answerPort f).toList.map pgRope) s u ∧
        { u with regs := s.regs, now := s.now, hot := s.hot, out := s.out } = s :)
    ∧ (∀ (f : RFrame) (tile : Bool) (op addr data : Nat) (pois : Bool) (t right : Nat) (s : State), (Instr.accReq f tile op addr data pois t).wf = true → s.calm = true → (s.ropeRecv f).1 = true → s.ropeHere f false = true → right = (if tile then bits (s.grantFor f.spath) 5 4 else bits (s.grantFor f.spath) 1 0) → addr < dramSize → addr % accSize op ≠ 0 → pois = false → right ≠ 0 → (3 ≤ op → 2 ≤ right) → bit (s.grantFor f.spath) (if 3 ≤ op then 9 else 8) = true →
      Completes (.accReq f tile op addr data pois t) s fun u => 
        (u.out = s.out ++ (s.answerPort f).toList.map (fun r => .rope r 0x22 15 f.spath s.ownPath f.arg 0 [refuseWord 6 addr] [false])) ∧
        u.rd64 (pgRope f.port) 0x078 = satAdd (2 ^ 64 - 1) (s.rd64 (pgRope f.port) 0x078) 1 ∧
        u.now = max s.now t ∧
        RegsOnly (pgRope f.port :: (s.answerPort f).toList.map pgRope) s u ∧
        { u with regs := s.regs, now := s.now, hot := s.hot, out := s.out } = s :)
    ∧ (∀ (f : RFrame) (tile : Bool) (op addr data : Nat) (pois : Bool) (t right : Nat) (s : State), (Instr.accReq f tile op addr data pois t).wf = true → s.calm = true → (s.ropeRecv f).1 = true → s.ropeHere f false = true → right = (if tile then bits (s.grantFor f.spath) 5 4 else bits (s.grantFor f.spath) 1 0) → pageBase ≤ addr → addr < pageBase + 2 ^ 28 → 3 ≤ op → ownerAt addr < right →
      Completes (.accReq f tile op addr data pois t) s fun u => 
        (u = (((((s.upTo t).ropeRecv f).2.pageWrite .rope ((addr - pageBase) / 4096) (addr % 4096) (accSize op) data pois).accAnswer f.port f.spath f.arg (if pois = true ∨ addr % accSize op ≠ 0 then 0x22 else 0x21) [if pois = true then refuseWord 4 addr else if addr % accSize op ≠ 0 then refuseWord 6 addr else 0] [false])).settle) :)
    ∧ (∀ (f : RFrame) (tile : Bool) (op addr data : Nat) (pois : Bool) (t right : Nat) (s : State), (Instr.accReq f tile op addr data pois t).wf = true → s.calm = true → (s.ropeRecv f).1 = true → s.ropeHere f false = true → right = (if tile then bits (s.grantFor f.spath) 5 4 else bits (s.grantFor f.spath) 1 0) → pageBase ≤ addr → addr < pageBase + 2 ^ 28 → op ≤ 2 → right ≠ 0 → addr % accSize op = 0 →
      Completes (.accReq f tile op addr data pois t) s fun u => 
        u = (((((s.upTo t).ropeRecv f).2.pageRead .rope ((addr - pageBase) / 4096) (addr % 4096) (accSize op)).2.accAnswer f.port f.spath f.arg 0x21 [(((s.upTo t).ropeRecv f).2.pageRead .rope ((addr - pageBase) / 4096) (addr % 4096) (accSize op)).1] [false])).settle :)
    ∧ (∀ (f : RFrame) (tile : Bool) (op addr data : Nat) (pois : Bool) (t right : Nat) (s : State), (Instr.accReq f tile op addr data pois t).wf = true → s.calm = true → (s.ropeRecv f).1 = true → s.ropeHere f false = true → right = (if tile then bits (s.grantFor f.spath) 5 4 else bits (s.grantFor f.spath) 1 0) → pageBase ≤ addr → addr < pageBase + 2 ^ 28 → op ≤ 2 → right ≠ 0 → addr % accSize op ≠ 0 →
      Completes (.accReq f tile op addr data pois t) s fun u => 
        (u.out = s.out ++ (s.answerPort f).toList.map (fun r => .rope r 0x22 15 f.spath s.ownPath f.arg 0 [refuseWord 6 addr] [false])) ∧
        u.rd64 (pgRope f.port) 0x078 = satAdd (2 ^ 64 - 1) (s.rd64 (pgRope f.port) 0x078) 1 ∧
        u.now = max s.now t ∧
        RegsOnly (pgRope f.port :: (s.answerPort f).toList.map pgRope) s u ∧
        { u with regs := s.regs, now := s.now, hot := s.hot, out := s.out } = s :)
    ∧ (∀ (f : RFrame) (tile : Bool) (op addr data : Nat) (pois : Bool) (t i : Nat) (s : State), (Instr.accReq f tile op addr data pois t).wf = true → s.calm = true → (s.ropeRecv f).1 = true → f.dpath ≠ [] → s.dstate = 4 → s.ropeRoute f.dpath false = .team i → (addr < pageBase ∨ pageBase + 2 ^ 28 ≤ addr ∨ (((addr - pageBase) / 4096) ≠ 0x820 + i ∧ ((addr - pageBase) / 4096) ≠ 0x826 + i)) →
      Completes (.accReq f tile op addr data pois t) s fun u => 
        (u.out = s.out ++ (s.answerPort f).toList.map (fun r => .rope r 0x22 15 f.spath s.ownPath f.arg 0 [refuseWord 1 addr] [false])) ∧
        u.rd64 (pgRope f.port) 0x078 = satAdd (2 ^ 64 - 1) (s.rd64 (pgRope f.port) 0x078) 1 ∧
        u.now = max s.now t ∧
        RegsOnly (pgRope f.port :: (s.answerPort f).toList.map pgRope) s u ∧
        { u with regs := s.regs, now := s.now, hot := s.hot, out := s.out } = s :)
    ∧ (∀ (f : RFrame) (val : Nat) (pois : Bool) (t : Nat) (s : State), (Instr.accRep f val pois t).wf = true → s.calm = true → (s.ropeRecv f).1 = false →
      Completes (.accRep f val pois t) s fun u => 
        (3 ≤ s.lstate f.port ∧ s.lstate f.port ≤ 5 → f.fcsOk = false → u.fld ((pgRope f.port)) 0x060 31 16 = min 65535 (s.fld ((pgRope f.port)) 0x060 31 16 + 1)) ∧
        (3 ≤ s.lstate f.port ∧ s.lstate f.port ≤ 5 → f.fcsOk = true → u.fld ((pgRope f.port)) 0x060 15 0 = min 65535 (s.fld ((pgRope f.port)) 0x060 15 0 + 1)) ∧
        (3 ≤ s.lstate f.port ∧ s.lstate f.port ≤ 5 → u.getB (pgRope f.port) 0x010 18 = true) ∧
        (¬(3 ≤ s.lstate f.port ∧ s.lstate f.port ≤ 5) → u.rd (pgRope f.port) 0x060 = s.rd (pgRope f.port) 0x060) ∧
        u.now = max s.now t ∧
        RegsOnly [pgRope f.port] s u ∧
        { u with regs := s.regs, now := s.now, hot := s.hot } = s :)
    ∧ (∀ (f : RFrame) (val : Nat) (pois : Bool) (t r : Nat) (s : State), (Instr.accRep f val pois t).wf = true → s.calm = true → (s.ropeRecv f).1 = true → s.ropeOn f false = some r → f.hops ≠ 0 →
      Completes (.accRep f val pois t) s fun u => 
        u.out = s.out ++ [.rope r 0x21 (f.hops - 1) f.dpath f.spath f.arg f.seq [val] [pois]] ∧
        u.rd64 (pgRope r) 0x070 = satAdd (2 ^ 64 - 1) (s.rd64 (pgRope r) 0x070) 1 ∧
        u.rd64 (pgRope f.port) 0x078 = satAdd (2 ^ 64 - 1) (s.rd64 (pgRope f.port) 0x078) 1 ∧
        u.now = max s.now t ∧
        RegsOnly [pgRope f.port, pgRope r] s u ∧
        { u with regs := s.regs, now := s.now, hot := s.hot, out := s.out } = s :)
    ∧ (∀ (f : RFrame) (val : Nat) (pois : Bool) (t r : Nat) (s : State), (Instr.accRep f val pois t).wf = true → s.calm = true → (s.ropeRecv f).1 = true → s.ropeOn f false = some r → f.hops = 0 →
      Completes (.accRep f val pois t) s fun u => 
        u.fld ((pgRope f.port)) 0x064 31 16 = min 65535 (s.fld ((pgRope f.port)) 0x064 31 16 + 1) ∧
        u.rd64 (pgRope f.port) 0x078 = satAdd (2 ^ 64 - 1) (s.rd64 (pgRope f.port) 0x078) 1 ∧
        u.now = max s.now t ∧
        RegsOnly [pgRope f.port] s u ∧
        { u with regs := s.regs, now := s.now, hot := s.hot } = s :)
    ∧ (∀ (f : RFrame) (val : Nat) (pois : Bool) (t : Nat) (s : State), (Instr.accRep f val pois t).wf = true → s.calm = true → (s.ropeRecv f).1 = true → s.ropeLost f false = true →
      Completes (.accRep f val pois t) s fun u => 
        u.fld ((pgRope f.port)) 0x064 15 0 = min 65535 (s.fld ((pgRope f.port)) 0x064 15 0 + 1) ∧
        u.rd64 (pgRope f.port) 0x078 = satAdd (2 ^ 64 - 1) (s.rd64 (pgRope f.port) 0x078) 1 ∧
        u.now = max s.now t ∧
        RegsOnly [pgRope f.port] s u ∧
        { u with regs := s.regs, now := s.now, hot := s.hot } = s :)
    ∧ (∀ (f : RFrame) (val : Nat) (pois : Bool) (t i : Nat) (s : State), (Instr.accRep f val pois t).wf = true → s.calm = true → (s.ropeRecv f).1 = true → s.ropeHere f false = true → f.arg = s.slotTag i → i < 4 → (s.fld pgRopeL (0x118 + 32 * i) 31 29) = 1 →
      Completes (.accRep f val pois t) s fun u => 
        u.fld pgRopeL (0x118 + 32 * i) 31 29 = 2 ∧
        u.getB pgRopeL (0x118 + 32 * i) 0 = (pois && decide ((s.slotAcc i).op ≤ 2)) ∧
        (u.rd64 pgRopeL (0x110 + 32 * i) = (if (s.slotAcc i).op = 1 then val % 2 ^ 32 else if (s.slotAcc i).op = 2 then val % 2 ^ 64 else s.rd64 pgRopeL (0x110 + 32 * i))) ∧
        u.getB pgRopeL 0x010 19 = true ∧
        u.rd64 (pgRope f.port) 0x078 = satAdd (2 ^ 64 - 1) (s.rd64 (pgRope f.port) 0x078) 1 ∧
        u.now = max s.now t ∧
        RegsOnly [pgRope f.port, pgRopeL] s u ∧
        { u with regs := s.regs, now := s.now, hot := s.hot } = s :)
    ∧ (∀ (f : RFrame) (val : Nat) (pois : Bool) (t : Nat) (s : State), (Instr.accRep f val pois t).wf = true → s.calm = true → (s.ropeRecv f).1 = true → s.ropeHere f false = true → (f.arg ≠ s.slotTag (f.arg % 4) ∨ s.fld pgRopeL (0x118 + 32 * (f.arg % 4)) 31 29 ≠ 1) →
      Completes (.accRep f val pois t) s fun u => 
        u.rd64 (pgRope f.port) 0x078 = satAdd (2 ^ 64 - 1) (s.rd64 (pgRope f.port) 0x078) 1 ∧
        u.now = max s.now t ∧
        RegsOnly [pgRope f.port] s u ∧
        { u with regs := s.regs, now := s.now, hot := s.hot } = s :)
    ∧ (∀ (f : RFrame) (reason addr t : Nat) (s : State), (Instr.refuse f reason addr t).wf = true → s.calm = true → (s.ropeRecv f).1 = false →
      Completes (.refuse f reason addr t) s fun u => 
        (3 ≤ s.lstate f.port ∧ s.lstate f.port ≤ 5 → f.fcsOk = false → u.fld ((pgRope f.port)) 0x060 31 16 = min 65535 (s.fld ((pgRope f.port)) 0x060 31 16 + 1)) ∧
        (3 ≤ s.lstate f.port ∧ s.lstate f.port ≤ 5 → f.fcsOk = true → u.fld ((pgRope f.port)) 0x060 15 0 = min 65535 (s.fld ((pgRope f.port)) 0x060 15 0 + 1)) ∧
        (3 ≤ s.lstate f.port ∧ s.lstate f.port ≤ 5 → u.getB (pgRope f.port) 0x010 18 = true) ∧
        (¬(3 ≤ s.lstate f.port ∧ s.lstate f.port ≤ 5) → u.rd (pgRope f.port) 0x060 = s.rd (pgRope f.port) 0x060) ∧
        u.now = max s.now t ∧
        RegsOnly [pgRope f.port] s u ∧
        { u with regs := s.regs, now := s.now, hot := s.hot } = s :)
    ∧ (∀ (f : RFrame) (reason addr t r : Nat) (s : State), (Instr.refuse f reason addr t).wf = true → s.calm = true → (s.ropeRecv f).1 = true → s.ropeOn f false = some r → f.hops ≠ 0 →
      Completes (.refuse f reason addr t) s fun u => 
        u.out = s.out ++ [.rope r 0x22 (f.hops - 1) f.dpath f.spath f.arg f.seq [refuseWord reason addr] [false]] ∧
        u.rd64 (pgRope r) 0x070 = satAdd (2 ^ 64 - 1) (s.rd64 (pgRope r) 0x070) 1 ∧
        u.rd64 (pgRope f.port) 0x078 = satAdd (2 ^ 64 - 1) (s.rd64 (pgRope f.port) 0x078) 1 ∧
        u.now = max s.now t ∧
        RegsOnly [pgRope f.port, pgRope r] s u ∧
        { u with regs := s.regs, now := s.now, hot := s.hot, out := s.out } = s :)
    ∧ (∀ (f : RFrame) (reason addr t r : Nat) (s : State), (Instr.refuse f reason addr t).wf = true → s.calm = true → (s.ropeRecv f).1 = true → s.ropeOn f false = some r → f.hops = 0 →
      Completes (.refuse f reason addr t) s fun u => 
        u.fld ((pgRope f.port)) 0x064 31 16 = min 65535 (s.fld ((pgRope f.port)) 0x064 31 16 + 1) ∧
        u.rd64 (pgRope f.port) 0x078 = satAdd (2 ^ 64 - 1) (s.rd64 (pgRope f.port) 0x078) 1 ∧
        u.now = max s.now t ∧
        RegsOnly [pgRope f.port] s u ∧
        { u with regs := s.regs, now := s.now, hot := s.hot } = s :)
    ∧ (∀ (f : RFrame) (reason addr t : Nat) (s : State), (Instr.refuse f reason addr t).wf = true → s.calm = true → (s.ropeRecv f).1 = true → s.ropeLost f false = true →
      Completes (.refuse f reason addr t) s fun u => 
        u.fld ((pgRope f.port)) 0x064 15 0 = min 65535 (s.fld ((pgRope f.port)) 0x064 15 0 + 1) ∧
        u.rd64 (pgRope f.port) 0x078 = satAdd (2 ^ 64 - 1) (s.rd64 (pgRope f.port) 0x078) 1 ∧
        u.now = max s.now t ∧
        RegsOnly [pgRope f.port] s u ∧
        { u with regs := s.regs, now := s.now, hot := s.hot } = s :)
    ∧ (∀ (f : RFrame) (reason addr t i : Nat) (s : State), (Instr.refuse f reason addr t).wf = true → s.calm = true → (s.ropeRecv f).1 = true → s.ropeHere f false = true → f.arg = s.slotTag i → i < 4 → (s.fld pgRopeL (0x118 + 32 * i) 31 29) = 1 →
      Completes (.refuse f reason addr t) s fun u => 
        u.fld pgRopeL (0x118 + 32 * i) 31 29 = 3 ∧
        (u.fld pgRopeL (0x118 + 32 * i) 28 24 = (if reason = 0 then 3 else reason % 32)) ∧
        u.getB pgRopeL (0x118 + 32 * i) 0 = false ∧
        u.rd64 pgRopeL (0x110 + 32 * i) = s.rd64 pgRopeL (0x110 + 32 * i) ∧
        u.getB pgRopeL 0x010 19 = true ∧
        u.rd64 (pgRope f.port) 0x078 = satAdd (2 ^ 64 - 1) (s.rd64 (pgRope f.port) 0x078) 1 ∧
        u.now = max s.now t ∧
        RegsOnly [pgRope f.port, pgRopeL] s u ∧
        { u with regs := s.regs, now := s.now, hot := s.hot } = s :)
    ∧ (∀ (f : RFrame) (reason addr t : Nat) (s : State), (Instr.refuse f reason addr t).wf = true → s.calm = true → (s.ropeRecv f).1 = true → s.ropeHere f false = true → (f.arg ≠ s.slotTag (f.arg % 4) ∨ s.fld pgRopeL (0x118 + 32 * (f.arg % 4)) 31 29 ≠ 1) →
      Completes (.refuse f reason addr t) s fun u => 
        u.rd64 (pgRope f.port) 0x078 = satAdd (2 ^ 64 - 1) (s.rd64 (pgRope f.port) 0x078) 1 ∧
        u.now = max s.now t ∧
        RegsOnly [pgRope f.port] s u ∧
        { u with regs := s.regs, now := s.now, hot := s.hot } = s :)
    ∧ (∀ (w : Writer) (i addr t r : Nat) (s : State), (Instr.read32 w i addr t).wf = true → s.calm = true → s.mayWrite w pgRopeL .ropeL = true → s.powered pgRopeL = true → (s.pageH pgRopeL).resetting = false → (s.fld pgRopeL (0x118 + 32 * i) 31 29) ≠ 1 → (fromOuter w = true → 2 ≤ i) → s.rope.slots.length = 4 → s.dstate = 4 → s.ropeRoute (pathOf (s.rd64 pgRopeL (0x100 + 32 * i))) false = .port r →
      Completes (.read32 w i addr t) s fun u => 
        u.fld pgRopeL (0x118 + 32 * i) 31 29 = 1 ∧
        u.slotAcc i = ⟨max s.now t, 1, false, ((s.slotAcc i).n + 1) % 2 ^ 14⟩ ∧
        u.rd64 pgRopeL (0x108 + 32 * i) = 1 * 2 ^ 60 + addr ∧
        u.out = s.out ++ [.rope r 0x20 15 (pathOf (s.rd64 pgRopeL (0x100 + 32 * i))) s.ownPath (i + 4 * (((s.slotAcc i).n + 1) % 2 ^ 14)) 0 [addr + 1 * 2 ^ 40 + b2n (decide (2 ≤ i)) * 2 ^ 44, s.rd64 pgRopeL (0x110 + 32 * i)] []] ∧
        (∀ j, j < 4 → j ≠ i → u.slotAcc j = s.slotAcc j) ∧
        u.now = max s.now t ∧
        RegsOnly [pgRopeL, pgRope r] s u ∧
        { u with regs := s.regs, now := s.now, hot := s.hot, rope := s.rope, out := s.out } = s :)
    ∧ (∀ (w : Writer) (i addr t : Nat) (s : State), (Instr.read32 w i addr t).wf = true → s.calm = true → s.mayWrite w pgRopeL .ropeL = true → s.powered pgRopeL = true → (s.pageH pgRopeL).resetting = false → (s.fld pgRopeL (0x118 + 32 * i) 31 29) ≠ 1 → (fromOuter w = true → 2 ≤ i) → s.rope.slots.length = 4 → (s.dstate ≠ 4 ∨ s.ropeRoute (pathOf (s.rd64 pgRopeL (0x100 + 32 * i))) false = .nowhere) →
      Completes (.read32 w i addr t) s fun u => 
        (u.fld pgRopeL (0x118 + 32 * i) 31 29, u.fld pgRopeL (0x118 + 32 * i) 28 24) = (3, 3) ∧
        u.getB pgRopeL 0x010 19 = true ∧
        u.slotAcc i = ⟨max s.now t, 1, false, ((s.slotAcc i).n + 1) % 2 ^ 14⟩ ∧
        u.rd64 pgRopeL (0x108 + 32 * i) = 1 * 2 ^ 60 + addr ∧
        (∀ j, j < 4 → j ≠ i → u.slotAcc j = s.slotAcc j) ∧
        u.now = max s.now t ∧
        RegsOnly [pgRopeL] s u ∧
        { u with regs := s.regs, now := s.now, hot := s.hot, rope := s.rope } = s :)
    ∧ (∀ (w : Writer) (i addr t : Nat) (s : State), (Instr.read32 w i addr t).wf = true → s.calm = true → s.mayWrite w pgRopeL .ropeL = true → s.powered pgRopeL = true → (s.pageH pgRopeL).resetting = false → (s.fld pgRopeL (0x118 + 32 * i) 31 29) ≠ 1 → (fromOuter w = true → 2 ≤ i) → s.rope.slots.length = 4 → s.dstate = 4 → s.ropeRoute (pathOf (s.rd64 pgRopeL (0x100 + 32 * i))) false = .here → addr % 4 ≠ 0 ∨ (dramSize ≤ addr ∧ (addr < pageBase ∨ pageBase + 2 ^ 28 ≤ addr)) → 0 < (if 2 ≤ i then bits (s.grantFor s.ownPath) 5 4 else bits (s.grantFor s.ownPath) 1 0) →
      Completes (.read32 w i addr t) s fun u => 
        u.fld pgRopeL (0x118 + 32 * i) 31 29 = 3 ∧
        (dramSize ≤ addr → (addr < pageBase ∨ pageBase + 2 ^ 28 ≤ addr) → u.fld pgRopeL (0x118 + 32 * i) 28 24 = 1) ∧
        u.getB pgRopeL 0x010 19 = true ∧
        u.out = s.out ∧
        u.slotAcc i = ⟨max s.now t, 1, false, ((s.slotAcc i).n + 1) % 2 ^ 14⟩ ∧
        u.rope.self = [] :)
    ∧ (∀ (w : Writer) (i addr t : Nat) (s : State), (Instr.read32 w i addr t).wf = true → s.calm = true → s.mayWrite w pgRopeL .ropeL = true → (s.powered pgRopeL = false ∨ (s.pageH pgRopeL).resetting = true ∨ (s.fld pgRopeL (0x118 + 32 * i) 31 29) = 1 ∨ (fromOuter w = true ∧ i < 2)) →
      Completes (.read32 w i addr t) s fun u => 
        u.fld (pgRopeL) 0x018 31 16 = min 65535 (s.fld (pgRopeL) 0x018 31 16 + 1) ∧
        u.fld pgRopeL (0x118 + 32 * i) 31 29 = s.fld pgRopeL (0x118 + 32 * i) 31 29 ∧
        u.rd64 pgRopeL (0x108 + 32 * i) = s.rd64 pgRopeL (0x108 + 32 * i) ∧
        u.now = max s.now t ∧
        RegsOnly [pgRopeL] s u ∧
        { u with regs := s.regs, now := s.now, hot := s.hot } = s :)
    ∧ (∀ (w : Writer) (i addr t r : Nat) (s : State), (Instr.read64 w i addr t).wf = true → s.calm = true → s.mayWrite w pgRopeL .ropeL = true → s.powered pgRopeL = true → (s.pageH pgRopeL).resetting = false → (s.fld pgRopeL (0x118 + 32 * i) 31 29) ≠ 1 → (fromOuter w = true → 2 ≤ i) → s.rope.slots.length = 4 → s.dstate = 4 → s.ropeRoute (pathOf (s.rd64 pgRopeL (0x100 + 32 * i))) false = .port r →
      Completes (.read64 w i addr t) s fun u => 
        u.fld pgRopeL (0x118 + 32 * i) 31 29 = 1 ∧
        u.slotAcc i = ⟨max s.now t, 2, false, ((s.slotAcc i).n + 1) % 2 ^ 14⟩ ∧
        u.rd64 pgRopeL (0x108 + 32 * i) = 2 * 2 ^ 60 + addr ∧
        u.out = s.out ++ [.rope r 0x20 15 (pathOf (s.rd64 pgRopeL (0x100 + 32 * i))) s.ownPath (i + 4 * (((s.slotAcc i).n + 1) % 2 ^ 14)) 0 [addr + 2 * 2 ^ 40 + b2n (decide (2 ≤ i)) * 2 ^ 44, s.rd64 pgRopeL (0x110 + 32 * i)] []] ∧
        (∀ j, j < 4 → j ≠ i → u.slotAcc j = s.slotAcc j) ∧
        u.now = max s.now t ∧
        RegsOnly [pgRopeL, pgRope r] s u ∧
        { u with regs := s.regs, now := s.now, hot := s.hot, rope := s.rope, out := s.out } = s :)
    ∧ (∀ (w : Writer) (i addr t : Nat) (s : State), (Instr.read64 w i addr t).wf = true → s.calm = true → s.mayWrite w pgRopeL .ropeL = true → s.powered pgRopeL = true → (s.pageH pgRopeL).resetting = false → (s.fld pgRopeL (0x118 + 32 * i) 31 29) ≠ 1 → (fromOuter w = true → 2 ≤ i) → s.rope.slots.length = 4 → (s.dstate ≠ 4 ∨ s.ropeRoute (pathOf (s.rd64 pgRopeL (0x100 + 32 * i))) false = .nowhere) →
      Completes (.read64 w i addr t) s fun u => 
        (u.fld pgRopeL (0x118 + 32 * i) 31 29, u.fld pgRopeL (0x118 + 32 * i) 28 24) = (3, 3) ∧
        u.getB pgRopeL 0x010 19 = true ∧
        u.slotAcc i = ⟨max s.now t, 2, false, ((s.slotAcc i).n + 1) % 2 ^ 14⟩ ∧
        u.rd64 pgRopeL (0x108 + 32 * i) = 2 * 2 ^ 60 + addr ∧
        (∀ j, j < 4 → j ≠ i → u.slotAcc j = s.slotAcc j) ∧
        u.now = max s.now t ∧
        RegsOnly [pgRopeL] s u ∧
        { u with regs := s.regs, now := s.now, hot := s.hot, rope := s.rope } = s :)
    ∧ (∀ (w : Writer) (i addr t : Nat) (s : State), (Instr.read64 w i addr t).wf = true → s.calm = true → s.mayWrite w pgRopeL .ropeL = true → s.powered pgRopeL = true → (s.pageH pgRopeL).resetting = false → (s.fld pgRopeL (0x118 + 32 * i) 31 29) ≠ 1 → (fromOuter w = true → 2 ≤ i) → s.rope.slots.length = 4 → s.dstate = 4 → s.ropeRoute (pathOf (s.rd64 pgRopeL (0x100 + 32 * i))) false = .here → addr % 8 ≠ 0 ∨ (dramSize ≤ addr ∧ (addr < pageBase ∨ pageBase + 2 ^ 28 ≤ addr)) → 0 < (if 2 ≤ i then bits (s.grantFor s.ownPath) 5 4 else bits (s.grantFor s.ownPath) 1 0) →
      Completes (.read64 w i addr t) s fun u => 
        u.fld pgRopeL (0x118 + 32 * i) 31 29 = 3 ∧
        (dramSize ≤ addr → (addr < pageBase ∨ pageBase + 2 ^ 28 ≤ addr) → u.fld pgRopeL (0x118 + 32 * i) 28 24 = 1) ∧
        u.getB pgRopeL 0x010 19 = true ∧
        u.out = s.out ∧
        u.slotAcc i = ⟨max s.now t, 2, false, ((s.slotAcc i).n + 1) % 2 ^ 14⟩ ∧
        u.rope.self = [] :)
    ∧ (∀ (w : Writer) (i addr t : Nat) (s : State), (Instr.read64 w i addr t).wf = true → s.calm = true → s.mayWrite w pgRopeL .ropeL = true → (s.powered pgRopeL = false ∨ (s.pageH pgRopeL).resetting = true ∨ (s.fld pgRopeL (0x118 + 32 * i) 31 29) = 1 ∨ (fromOuter w = true ∧ i < 2)) →
      Completes (.read64 w i addr t) s fun u => 
        u.fld (pgRopeL) 0x018 31 16 = min 65535 (s.fld (pgRopeL) 0x018 31 16 + 1) ∧
        u.fld pgRopeL (0x118 + 32 * i) 31 29 = s.fld pgRopeL (0x118 + 32 * i) 31 29 ∧
        u.rd64 pgRopeL (0x108 + 32 * i) = s.rd64 pgRopeL (0x108 + 32 * i) ∧
        u.now = max s.now t ∧
        RegsOnly [pgRopeL] s u ∧
        { u with regs := s.regs, now := s.now, hot := s.hot } = s :)
    ∧ (∀ (w : Writer) (i addr t r : Nat) (s : State), (Instr.write32 w i addr t).wf = true → s.calm = true → s.mayWrite w pgRopeL .ropeL = true → s.powered pgRopeL = true → (s.pageH pgRopeL).resetting = false → (s.fld pgRopeL (0x118 + 32 * i) 31 29) ≠ 1 → (fromOuter w = true → 2 ≤ i) → s.rope.slots.length = 4 → s.dstate = 4 → s.ropeRoute (pathOf (s.rd64 pgRopeL (0x100 + 32 * i))) false = .port r →
      Completes (.write32 w i addr t) s fun u => 
        u.fld pgRopeL (0x118 + 32 * i) 31 29 = 1 ∧
        u.slotAcc i = ⟨max s.now t, 3, false, ((s.slotAcc i).n + 1) % 2 ^ 14⟩ ∧
        u.rd64 pgRopeL (0x108 + 32 * i) = 3 * 2 ^ 60 + addr ∧
        u.out = s.out ++ [.rope r 0x20 15 (pathOf (s.rd64 pgRopeL (0x100 + 32 * i))) s.ownPath (i + 4 * (((s.slotAcc i).n + 1) % 2 ^ 14)) 0 [addr + 3 * 2 ^ 40 + b2n (decide (2 ≤ i)) * 2 ^ 44, s.rd64 pgRopeL (0x110 + 32 * i)] []] ∧
        (∀ j, j < 4 → j ≠ i → u.slotAcc j = s.slotAcc j) ∧
        u.now = max s.now t ∧
        RegsOnly [pgRopeL, pgRope r] s u ∧
        { u with regs := s.regs, now := s.now, hot := s.hot, rope := s.rope, out := s.out } = s :)
    ∧ (∀ (w : Writer) (i addr t : Nat) (s : State), (Instr.write32 w i addr t).wf = true → s.calm = true → s.mayWrite w pgRopeL .ropeL = true → s.powered pgRopeL = true → (s.pageH pgRopeL).resetting = false → (s.fld pgRopeL (0x118 + 32 * i) 31 29) ≠ 1 → (fromOuter w = true → 2 ≤ i) → s.rope.slots.length = 4 → (s.dstate ≠ 4 ∨ s.ropeRoute (pathOf (s.rd64 pgRopeL (0x100 + 32 * i))) false = .nowhere) →
      Completes (.write32 w i addr t) s fun u => 
        (u.fld pgRopeL (0x118 + 32 * i) 31 29, u.fld pgRopeL (0x118 + 32 * i) 28 24) = (3, 3) ∧
        u.getB pgRopeL 0x010 19 = true ∧
        u.slotAcc i = ⟨max s.now t, 3, false, ((s.slotAcc i).n + 1) % 2 ^ 14⟩ ∧
        u.rd64 pgRopeL (0x108 + 32 * i) = 3 * 2 ^ 60 + addr ∧
        (∀ j, j < 4 → j ≠ i → u.slotAcc j = s.slotAcc j) ∧
        u.now = max s.now t ∧
        RegsOnly [pgRopeL] s u ∧
        { u with regs := s.regs, now := s.now, hot := s.hot, rope := s.rope } = s :)
    ∧ (∀ (w : Writer) (i addr t : Nat) (s : State), (Instr.write32 w i addr t).wf = true → s.calm = true → s.mayWrite w pgRopeL .ropeL = true → s.powered pgRopeL = true → (s.pageH pgRopeL).resetting = false → (s.fld pgRopeL (0x118 + 32 * i) 31 29) ≠ 1 → (fromOuter w = true → 2 ≤ i) → s.rope.slots.length = 4 → s.dstate = 4 → s.ropeRoute (pathOf (s.rd64 pgRopeL (0x100 + 32 * i))) false = .here → addr % 4 ≠ 0 ∨ (dramSize ≤ addr ∧ (addr < pageBase ∨ pageBase + 2 ^ 28 ≤ addr)) → 0 < (if 2 ≤ i then bits (s.grantFor s.ownPath) 5 4 else bits (s.grantFor s.ownPath) 1 0) →
      Completes (.write32 w i addr t) s fun u => 
        u.fld pgRopeL (0x118 + 32 * i) 31 29 = 3 ∧
        (dramSize ≤ addr → (addr < pageBase ∨ pageBase + 2 ^ 28 ≤ addr) → u.fld pgRopeL (0x118 + 32 * i) 28 24 = 1) ∧
        u.getB pgRopeL 0x010 19 = true ∧
        u.out = s.out ∧
        u.slotAcc i = ⟨max s.now t, 3, false, ((s.slotAcc i).n + 1) % 2 ^ 14⟩ ∧
        u.rope.self = [] :)
    ∧ (∀ (w : Writer) (i addr t : Nat) (s : State), (Instr.write32 w i addr t).wf = true → s.calm = true → s.mayWrite w pgRopeL .ropeL = true → (s.powered pgRopeL = false ∨ (s.pageH pgRopeL).resetting = true ∨ (s.fld pgRopeL (0x118 + 32 * i) 31 29) = 1 ∨ (fromOuter w = true ∧ i < 2)) →
      Completes (.write32 w i addr t) s fun u => 
        u.fld (pgRopeL) 0x018 31 16 = min 65535 (s.fld (pgRopeL) 0x018 31 16 + 1) ∧
        u.fld pgRopeL (0x118 + 32 * i) 31 29 = s.fld pgRopeL (0x118 + 32 * i) 31 29 ∧
        u.rd64 pgRopeL (0x108 + 32 * i) = s.rd64 pgRopeL (0x108 + 32 * i) ∧
        u.now = max s.now t ∧
        RegsOnly [pgRopeL] s u ∧
        { u with regs := s.regs, now := s.now, hot := s.hot } = s :)
    ∧ (∀ (w : Writer) (i addr t r : Nat) (s : State), (Instr.write64 w i addr t).wf = true → s.calm = true → s.mayWrite w pgRopeL .ropeL = true → s.powered pgRopeL = true → (s.pageH pgRopeL).resetting = false → (s.fld pgRopeL (0x118 + 32 * i) 31 29) ≠ 1 → (fromOuter w = true → 2 ≤ i) → s.rope.slots.length = 4 → s.dstate = 4 → s.ropeRoute (pathOf (s.rd64 pgRopeL (0x100 + 32 * i))) false = .port r →
      Completes (.write64 w i addr t) s fun u => 
        u.fld pgRopeL (0x118 + 32 * i) 31 29 = 1 ∧
        u.slotAcc i = ⟨max s.now t, 4, false, ((s.slotAcc i).n + 1) % 2 ^ 14⟩ ∧
        u.rd64 pgRopeL (0x108 + 32 * i) = 4 * 2 ^ 60 + addr ∧
        u.out = s.out ++ [.rope r 0x20 15 (pathOf (s.rd64 pgRopeL (0x100 + 32 * i))) s.ownPath (i + 4 * (((s.slotAcc i).n + 1) % 2 ^ 14)) 0 [addr + 4 * 2 ^ 40 + b2n (decide (2 ≤ i)) * 2 ^ 44, s.rd64 pgRopeL (0x110 + 32 * i)] []] ∧
        (∀ j, j < 4 → j ≠ i → u.slotAcc j = s.slotAcc j) ∧
        u.now = max s.now t ∧
        RegsOnly [pgRopeL, pgRope r] s u ∧
        { u with regs := s.regs, now := s.now, hot := s.hot, rope := s.rope, out := s.out } = s :)
    ∧ (∀ (w : Writer) (i addr t : Nat) (s : State), (Instr.write64 w i addr t).wf = true → s.calm = true → s.mayWrite w pgRopeL .ropeL = true → s.powered pgRopeL = true → (s.pageH pgRopeL).resetting = false → (s.fld pgRopeL (0x118 + 32 * i) 31 29) ≠ 1 → (fromOuter w = true → 2 ≤ i) → s.rope.slots.length = 4 → (s.dstate ≠ 4 ∨ s.ropeRoute (pathOf (s.rd64 pgRopeL (0x100 + 32 * i))) false = .nowhere) →
      Completes (.write64 w i addr t) s fun u => 
        (u.fld pgRopeL (0x118 + 32 * i) 31 29, u.fld pgRopeL (0x118 + 32 * i) 28 24) = (3, 3) ∧
        u.getB pgRopeL 0x010 19 = true ∧
        u.slotAcc i = ⟨max s.now t, 4, false, ((s.slotAcc i).n + 1) % 2 ^ 14⟩ ∧
        u.rd64 pgRopeL (0x108 + 32 * i) = 4 * 2 ^ 60 + addr ∧
        (∀ j, j < 4 → j ≠ i → u.slotAcc j = s.slotAcc j) ∧
        u.now = max s.now t ∧
        RegsOnly [pgRopeL] s u ∧
        { u with regs := s.regs, now := s.now, hot := s.hot, rope := s.rope } = s :)
    ∧ (∀ (w : Writer) (i addr t : Nat) (s : State), (Instr.write64 w i addr t).wf = true → s.calm = true → s.mayWrite w pgRopeL .ropeL = true → s.powered pgRopeL = true → (s.pageH pgRopeL).resetting = false → (s.fld pgRopeL (0x118 + 32 * i) 31 29) ≠ 1 → (fromOuter w = true → 2 ≤ i) → s.rope.slots.length = 4 → s.dstate = 4 → s.ropeRoute (pathOf (s.rd64 pgRopeL (0x100 + 32 * i))) false = .here → addr % 8 ≠ 0 ∨ (dramSize ≤ addr ∧ (addr < pageBase ∨ pageBase + 2 ^ 28 ≤ addr)) → 0 < (if 2 ≤ i then bits (s.grantFor s.ownPath) 5 4 else bits (s.grantFor s.ownPath) 1 0) →
      Completes (.write64 w i addr t) s fun u => 
        u.fld pgRopeL (0x118 + 32 * i) 31 29 = 3 ∧
        (dramSize ≤ addr → (addr < pageBase ∨ pageBase + 2 ^ 28 ≤ addr) → u.fld pgRopeL (0x118 + 32 * i) 28 24 = 1) ∧
        u.getB pgRopeL 0x010 19 = true ∧
        u.out = s.out ∧
        u.slotAcc i = ⟨max s.now t, 4, false, ((s.slotAcc i).n + 1) % 2 ^ 14⟩ ∧
        u.rope.self = [] :)
    ∧ (∀ (w : Writer) (i addr t : Nat) (s : State), (Instr.write64 w i addr t).wf = true → s.calm = true → s.mayWrite w pgRopeL .ropeL = true → (s.powered pgRopeL = false ∨ (s.pageH pgRopeL).resetting = true ∨ (s.fld pgRopeL (0x118 + 32 * i) 31 29) = 1 ∨ (fromOuter w = true ∧ i < 2)) →
      Completes (.write64 w i addr t) s fun u => 
        u.fld (pgRopeL) 0x018 31 16 = min 65535 (s.fld (pgRopeL) 0x018 31 16 + 1) ∧
        u.fld pgRopeL (0x118 + 32 * i) 31 29 = s.fld pgRopeL (0x118 + 32 * i) 31 29 ∧
        u.rd64 pgRopeL (0x108 + 32 * i) = s.rd64 pgRopeL (0x108 + 32 * i) ∧
        u.now = max s.now t ∧
        RegsOnly [pgRopeL] s u ∧
        { u with regs := s.regs, now := s.now, hot := s.hot } = s :)
    ∧ (∀ (i t : Nat) (s : State), (Instr.accessTimeout i t).wf = true → s.calm = true → (s.fld pgRopeL (0x118 + 32 * i) 31 29) = 1 → (s.slotAcc i).t + s.rd pgRopeL 0x074 * cyclesPerUs ≤ t →
      Completes (.accessTimeout i t) s fun u => 
        u.fld pgRopeL (0x118 + 32 * i) 31 29 = 4 ∧
        u.getB pgRopeL 0x010 19 = true ∧
        u.rd64 pgRopeL (0x110 + 32 * i) = s.rd64 pgRopeL (0x110 + 32 * i) ∧
        u.now = max s.now t ∧
        RegsOnly [pgRopeL] s u ∧
        { u with regs := s.regs, now := s.now, hot := s.hot } = s :)
    ∧ (∀ (i t : Nat) (s : State), (Instr.accessTimeout i t).wf = true → s.calm = true → ((s.fld pgRopeL (0x118 + 32 * i) 31 29) ≠ 1 ∨ t < (s.slotAcc i).t + s.rd pgRopeL 0x074 * cyclesPerUs) →
      Completes (.accessTimeout i t) s fun u => 
        u.now = max s.now t ∧
        RegsOnly [] s u ∧
        { u with regs := s.regs, now := s.now, hot := s.hot } = s :)

/-- NONCE answers serial and nonce without a MAC; an accepted READ of DRAM answers its words and their poison, a WRITE stores its bytes and no others and answers 0; at any other local address a word is read and written as there, with the status it gives; with a path a word goes out by a free slot of Basecamp’s, waits for one, or is answered NOROUTE; each below its right answers 2, one out of range 1, one of no words 0. LOG_READ answers eight words a record; an operation that names none is answered 9. Acceptance keeps the SEQ of the key. A datagram whose MAC fails, whose SEQ is not new, or whose key the service lock bars, is counted and gets no reply, and the sixteenth in a second blocks its source for 10 s with a record; one from a blocked source, of another version, or that RECOVERY does not answer is not looked at. A blocked source is free again after its 10 s. -/
def Obligations.Datagrams : Prop :=
    (∀ (b : Bap) (t : Nat) (s : State), (Instr.nonce b 1 t).wf = true → s.calm = true → (s.upTo t).srcBlocked b.ip = false → b.ver = 0x10 → (b.service && s.getB (pgBcp 2) 0x040 30 && b.key != 0) = false →
      Completes (.nonce b 1 t) s fun u => 
        u.out = s.out ++ [.bap b.service 1 b.tag b.seq 0 [s.rd64 (pgBcp 0) 0x040, s.bcp.nonce.toNat] [false, false]] ∧
        u.now = max s.now t ∧
        RegsOnly [] s u ∧
        { u with regs := s.regs, now := s.now, hot := s.hot, out := s.out } = s :)
    ∧ (∀ (b : Bap) (t : Nat) (s : State), (Instr.nonce b 1 t).wf = true → s.calm = true → (s.upTo t).srcBlocked b.ip = false → b.ver = 0x10 → (b.service && s.getB (pgBcp 2) 0x040 30 && b.key != 0) = true → ((s.upTo t).bapDrops b.ip).length < 15 →
      Completes (.nonce b 1 t) s fun u => 
        u.fld (pgBcp 2) 0x058 31 16 = min 65535 (s.fld (pgBcp 2) 0x058 31 16 + 1) ∧
        u.srcIp b.ip = ⟨b.ip, (s.upTo t).bapDrops b.ip ++ [max s.now t], none⟩ ∧
        u.bcp = { s.bcp with srcs := u.bcp.srcs } ∧
        u.now = max s.now t ∧
        RegsOnly [pgBcp 2] s u ∧
        { u with regs := s.regs, now := s.now, hot := s.hot, bcp := s.bcp } = s :)
    ∧ (∀ (b : Bap) (op t : Nat) (s : State), (Instr.nonce b op t).wf = true → s.calm = true → op = 1 → ((s.upTo t).srcBlocked b.ip = true ∨ b.ver ≠ 0x10) →
      Completes (.nonce b op t) s fun u => 
        u.now = max s.now t ∧
        RegsOnly [] s u ∧
        { u with regs := s.regs, now := s.now, hot := s.hot } = s :)
    ∧ (∀ (b : Bap) (op t : Nat) (s : State), (Instr.nonce b op t).wf = true → s.calm = true → 2 ≤ op → op ≤ 9 →
      Completes (.nonce b op t) s fun u => 
        u = s :)
    ∧ (∀ (b : Bap) (op t : Nat) (s : State), (Instr.nonce b op t).wf = true → s.calm = true → ((s.upTo t).bapAccept b op).1 = true → (op = 0 ∨ 9 < op) →
      Completes (.nonce b op t) s fun u => 
        u.out = s.out ++ [.bap b.service op b.tag b.seq 9 [] []] ∧
        u.bcp = { s.bcp with keys := setAt s.bcp.keys b.key { (s.bcp.keys.getD b.key {}) with last := some b.seq } } ∧
        u.now = max s.now t ∧
        RegsOnly [] s u ∧
        { u with regs := s.regs, now := s.now, hot := s.hot, out := s.out, bcp := s.bcp } = s :)
    ∧ (∀ (b : Bap) (op t : Nat) (s : State), (Instr.nonce b op t).wf = true → s.calm = true → (s.upTo t).bapHeard b op = false → (op = 0 ∨ 9 < op) →
      Completes (.nonce b op t) s fun u => 
        u.now = max s.now t ∧
        RegsOnly [] s u ∧
        { u with regs := s.regs, now := s.now, hot := s.hot } = s :)
    ∧ (∀ (b : Bap) (op t : Nat) (s : State), (Instr.nonce b op t).wf = true → s.calm = true → (s.upTo t).bapHeard b op = true → ((s.upTo t).bapAccept b op).1 = false → (op = 0 ∨ 9 < op) → ((s.upTo t).bapDrops b.ip).length < 15 →
      Completes (.nonce b op t) s fun u => 
        u.fld (pgBcp 2) 0x058 31 16 = min 65535 (s.fld (pgBcp 2) 0x058 31 16 + 1) ∧
        u.srcIp b.ip = ⟨b.ip, (s.upTo t).bapDrops b.ip ++ [max s.now t], none⟩ ∧
        u.bcp = { s.bcp with srcs := u.bcp.srcs } ∧
        u.out = s.out ∧
        u.now = max s.now t ∧
        RegsOnly [pgBcp 2] s u ∧
        { u with regs := s.regs, now := s.now, hot := s.hot, bcp := s.bcp } = s :)
    ∧ (∀ (b : Bap) (op t : Nat) (s : State), (Instr.nonce b op t).wf = true → s.calm = true → (s.upTo t).bapHeard b op = true → ((s.upTo t).bapAccept b op).1 = false → (op = 0 ∨ 9 < op) → 15 ≤ ((s.upTo t).bapDrops b.ip).length →
      Completes (.nonce b op t) s fun u => 
        u.fld (pgBcp 2) 0x058 31 16 = min 65535 (s.fld (pgBcp 2) 0x058 31 16 + 1) ∧
        u.fld (pgBcp 2) 0x058 15 0 = min 65535 (s.fld (pgBcp 2) 0x058 15 0 + 1) ∧
        u.srcIp b.ip = ⟨b.ip, [], some (max s.now t + 10 * cyclesPerS)⟩ ∧
        u.bcp = { s.bcp with srcs := u.bcp.srcs } ∧
        u.log = ((s.upTo t).logEvent 0x0090 1 0xFFFF (b.ip)).log ∧
        u.out = s.out ∧
        u.now = max s.now t ∧
        RegsOnly [pgBcp 2, pgBcp 1] s u ∧
        { u with regs := s.regs, now := s.now, hot := s.hot, bcp := s.bcp, log := s.log } = s :)
    ∧ (∀ (b : Bap) (t : Nat) (s : State), (Instr.bapRead b t).wf = true → s.calm = true → ((s.upTo t).bapAccept b 2).1 = true → b.path = [] → b.size ≤ 1 → s.bankState ⟨pgEccD, 0, 2⟩ = 2 → (b.addr % 2 ^ 40) + (if b.size = 0 then 4 else 8) * b.count ≤ dramSize → (b.addr % 2 ^ 40) % (if b.size = 0 then 4 else 8) = 0 → ((List.range b.count).all fun x => (s.lineErr (((b.addr % 2 ^ 40) + (if b.size = 0 then 4 else 8) * x) / 64)).isEmpty) = true → (s.bcp.keys.getD b.key {}).right ≠ 0 → b.count ≤ 128 →
      Completes (.bapRead b t) s fun u => 
        (u.out = s.out ++ [.bap b.service 2 b.tag b.seq 0 ((List.range b.count).map fun x => (s.rdMem ((b.addr % 2 ^ 40) + (if b.size = 0 then 4 else 8) * x) (if b.size = 0 then 4 else 8)).1.1) ((List.range b.count).map fun x => (s.rdMem ((b.addr % 2 ^ 40) + (if b.size = 0 then 4 else 8) * x) (if b.size = 0 then 4 else 8)).1.2)]) ∧
        u.bcp = { s.bcp with keys := setAt s.bcp.keys b.key { (s.bcp.keys.getD b.key {}) with last := some b.seq } } ∧
        u.now = max s.now t ∧
        RegsOnly [] s u ∧
        { u with regs := s.regs, now := s.now, hot := s.hot, out := s.out, bcp := s.bcp } = s :)
    ∧ (∀ (b : Bap) (t : Nat) (s : State), (Instr.bapRead b t).wf = true → s.calm = true → ((s.upTo t).bapAccept b 2).1 = true → b.path = [] → b.size ≤ 1 → (s.bcp.keys.getD b.key {}).right ≠ 0 → b.count = 1 →
      Completes (.bapRead b t) s fun u => 
        (u = (({ (((s.upTo t).bapTaken b false).localRead (bapWriter b) (b.addr % 2 ^ 40) (if b.size = 0 then 4 else 8)).2 with bcp := { (((s.upTo t).bapTaken b false).localRead (bapWriter b) (b.addr % 2 ^ 40) (if b.size = 0 then 4 else 8)).2.bcp with jobs := [] } } : State).bapReply b 2 (((s.upTo t).bapTaken b false).localRead (bapWriter b) (b.addr % 2 ^ 40) (if b.size = 0 then 4 else 8)).1.1 (if (((s.upTo t).bapTaken b false).localRead (bapWriter b) (b.addr % 2 ^ 40) (if b.size = 0 then 4 else 8)).1.1 = 0 then [(((s.upTo t).bapTaken b false).localRead (bapWriter b) (b.addr % 2 ^ 40) (if b.size = 0 then 4 else 8)).1.2.1] else []) (if (((s.upTo t).bapTaken b false).localRead (bapWriter b) (b.addr % 2 ^ 40) (if b.size = 0 then 4 else 8)).1.1 = 0 then [(((s.upTo t).bapTaken b false).localRead (bapWriter b) (b.addr % 2 ^ 40) (if b.size = 0 then 4 else 8)).1.2.2] else [])).settle) :)
    ∧ (∀ (b : Bap) (t i r : Nat) (s : State), (Instr.bapRead b t).wf = true → s.calm = true → ((s.upTo t).bapAccept b 2).1 = true → b.path ≠ [] → b.path.length ≤ 6 → 1 ≤ b.count → b.count ≤ 128 → b.size ≤ 1 → (s.bcp.keys.getD b.key {}).right ≠ 0 → s.rope.slots.length = 4 → [0, 1].find? (fun x => s.fld pgRopeL (0x118 + 32 * x) 31 29 != 1 && !(s.slotAcc x).bap) = some i → s.dstate = 4 → s.ropeRoute (pathOf (pathReg b.path)) false = .port r →
      Completes (.bapRead b t) s fun u => 
        u.fld pgRopeL (0x118 + 32 * i) 31 29 = 1 ∧
        u.slotAcc i = ⟨max s.now t, ((1) + b.size), true, ((s.slotAcc i).n + 1) % 2 ^ 14⟩ ∧
        u.rd64 pgRopeL (0x108 + 32 * i) = (b.addr % 2 ^ 40) + ((1) + b.size) * 2 ^ 60 ∧
        u.out = s.out ++ [.rope r 0x20 15 (pathOf (pathReg b.path)) s.ownPath (i + 4 * (((s.slotAcc i).n + 1) % 2 ^ 14)) 0 [(b.addr % 2 ^ 40) + ((1) + b.size) * 2 ^ 40, u.rd64 pgRopeL (0x110 + 32 * i)] []] ∧
        u.bcp = { ((s.upTo t).bapTaken b false).bcp with jobs := [⟨b, false, 0, [], [], some i⟩] } ∧
        u.now = max s.now t ∧
        RegsOnly [pgRopeL, pgRope r] s u ∧
        { u with regs := s.regs, now := s.now, hot := s.hot, rope := s.rope, out := s.out, bcp := s.bcp } = s :)
    ∧ (∀ (b : Bap) (t i : Nat) (s : State), (Instr.bapRead b t).wf = true → s.calm = true → ((s.upTo t).bapAccept b 2).1 = true → b.path ≠ [] → b.path.length ≤ 6 → 1 ≤ b.count → b.count ≤ 128 → b.size ≤ 1 → (s.bcp.keys.getD b.key {}).right ≠ 0 → s.rope.slots.length = 4 → [0, 1].find? (fun x => s.fld pgRopeL (0x118 + 32 * x) 31 29 != 1 && !(s.slotAcc x).bap) = some i → (s.dstate ≠ 4 ∨ s.ropeRoute (pathOf (pathReg b.path)) false = .nowhere) →
      Completes (.bapRead b t) s fun u => 
        u.out = s.out ++ [.bap b.service 2 b.tag b.seq 3 [] []] ∧
        u.bcp = { s.bcp with keys := setAt s.bcp.keys b.key { (s.bcp.keys.getD b.key {}) with last := some b.seq } } ∧
        (u.fld pgRopeL (0x118 + 32 * i) 31 29, u.fld pgRopeL (0x118 + 32 * i) 28 24) = (3, 3) ∧
        u.now = max s.now t ∧
        RegsOnly [pgRopeL] s u ∧
        { u with regs := s.regs, now := s.now, hot := s.hot, rope := s.rope, out := s.out, bcp := s.bcp } = s :)
    ∧ (∀ (b : Bap) (t : Nat) (s : State), (Instr.bapRead b t).wf = true → s.calm = true → ((s.upTo t).bapAccept b 2).1 = true → b.path ≠ [] → b.path.length ≤ 6 → 1 ≤ b.count → b.count ≤ 128 → b.size ≤ 1 → (s.bcp.keys.getD b.key {}).right ≠ 0 → s.rope.slots.length = 4 → [0, 1].find? (fun x => s.fld pgRopeL (0x118 + 32 * x) 31 29 != 1 && !(s.slotAcc x).bap) = none →
      Completes (.bapRead b t) s fun u => 
        u.bcp = ((s.upTo t).bapTaken b false).bcp ∧
        u.now = max s.now t ∧
        RegsOnly [] s u ∧
        { u with regs := s.regs, now := s.now, hot := s.hot, bcp := s.bcp } = s :)
    ∧ (∀ (b : Bap) (t : Nat) (s : State), (Instr.bapRead b t).wf = true → s.calm = true → ((s.upTo t).bapAccept b 2).1 = true → (s.bcp.keys.getD b.key {}).right ≠ 0 → (128 < b.count ∨ 1 < b.size ∨ 6 < b.path.length) →
      Completes (.bapRead b t) s fun u => 
        u.out = s.out ++ [.bap b.service 2 b.tag b.seq 1 [] []] ∧
        u.bcp = { s.bcp with keys := setAt s.bcp.keys b.key { (s.bcp.keys.getD b.key {}) with last := some b.seq } } ∧
        u.now = max s.now t ∧
        RegsOnly [] s u ∧
        { u with regs := s.regs, now := s.now, hot := s.hot, out := s.out, bcp := s.bcp } = s :)
    ∧ (∀ (b : Bap) (t : Nat) (s : State), (Instr.bapRead b t).wf = true → s.calm = true → ((s.upTo t).bapAccept b 2).1 = true → (s.bcp.keys.getD b.key {}).right ≠ 0 → b.count = 0 → b.size ≤ 1 → b.path.length ≤ 6 →
      Completes (.bapRead b t) s fun u => 
        u.out = s.out ++ [.bap b.service 2 b.tag b.seq 0 [] []] ∧
        u.bcp = { s.bcp with keys := setAt s.bcp.keys b.key { (s.bcp.keys.getD b.key {}) with last := some b.seq } } ∧
        u.now = max s.now t ∧
        RegsOnly [] s u ∧
        { u with regs := s.regs, now := s.now, hot := s.hot, out := s.out, bcp := s.bcp } = s :)
    ∧ (∀ (b : Bap) (t : Nat) (s : State), (Instr.bapRead b t).wf = true → s.calm = true → ((s.upTo t).bapAccept b 2).1 = true → (s.bcp.keys.getD b.key {}).right = 0 →
      Completes (.bapRead b t) s fun u => 
        u.out = s.out ++ [.bap b.service 2 b.tag b.seq 2 [] []] ∧
        u.bcp = { s.bcp with keys := setAt s.bcp.keys b.key { (s.bcp.keys.getD b.key {}) with last := some b.seq } } ∧
        u.now = max s.now t ∧
        RegsOnly [] s u ∧
        { u with regs := s.regs, now := s.now, hot := s.hot, out := s.out, bcp := s.bcp } = s :)
    ∧ (∀ (b : Bap) (t : Nat) (s : State), (Instr.bapRead b t).wf = true → s.calm = true → (s.upTo t).bapHeard b 2 = false →
      Completes (.bapRead b t) s fun u => 
        u.now = max s.now t ∧
        RegsOnly [] s u ∧
        { u with regs := s.regs, now := s.now, hot := s.hot } = s :)
    ∧ (∀ (b : Bap) (t : Nat) (s : State), (Instr.bapRead b t).wf = true → s.calm = true → (s.upTo t).bapHeard b 2 = true → ((s.upTo t).bapAccept b 2).1 = false → ((s.upTo t).bapDrops b.ip).length < 15 →
      Completes (.bapRead b t) s fun u => 
        u.fld (pgBcp 2) 0x058 31 16 = min 65535 (s.fld (pgBcp 2) 0x058 31 16 + 1) ∧
        u.srcIp b.ip = ⟨b.ip, (s.upTo t).bapDrops b.ip ++ [max s.now t], none⟩ ∧
        u.bcp = { s.bcp with srcs := u.bcp.srcs } ∧
        u.out = s.out ∧
        u.now = max s.now t ∧
        RegsOnly [pgBcp 2] s u ∧
        { u with regs := s.regs, now := s.now, hot := s.hot, bcp := s.bcp } = s :)
    ∧ (∀ (b : Bap) (t : Nat) (s : State), (Instr.bapRead b t).wf = true → s.calm = true → (s.upTo t).bapHeard b 2 = true → ((s.upTo t).bapAccept b 2).1 = false → 15 ≤ ((s.upTo t).bapDrops b.ip).length →
      Completes (.bapRead b t) s fun u => 
        u.fld (pgBcp 2) 0x058 31 16 = min 65535 (s.fld (pgBcp 2) 0x058 31 16 + 1) ∧
        u.fld (pgBcp 2) 0x058 15 0 = min 65535 (s.fld (pgBcp 2) 0x058 15 0 + 1) ∧
        u.srcIp b.ip = ⟨b.ip, [], some (max s.now t + 10 * cyclesPerS)⟩ ∧
        u.bcp = { s.bcp with srcs := u.bcp.srcs } ∧
        u.log = ((s.upTo t).logEvent 0x0090 1 0xFFFF (b.ip)).log ∧
        u.out = s.out ∧
        u.now = max s.now t ∧
        RegsOnly [pgBcp 2, pgBcp 1] s u ∧
        { u with regs := s.regs, now := s.now, hot := s.hot, bcp := s.bcp, log := s.log } = s :)
    ∧ (∀ (b : Bap) (t : Nat) (s : State), (Instr.bapWrite b t).wf = true → s.calm = true → ((s.upTo t).bapAccept b 3).1 = true → b.path = [] → b.size ≤ 1 → s.bankState ⟨pgEccD, 0, 2⟩ = 2 → (b.addr % 2 ^ 40) + (if b.size = 0 then 4 else 8) * b.count ≤ dramSize → (b.addr % 2 ^ 40) % (if b.size = 0 then 4 else 8) = 0 → ((List.range b.count).all fun x => (s.lineErr (((b.addr % 2 ^ 40) + (if b.size = 0 then 4 else 8) * x) / 64)).isEmpty) = true → 2 ≤ (s.bcp.keys.getD b.key {}).right → b.count ≤ 128 → bit ((s.upTo t).flipRegs pgEccD).1 31 = false →
      Completes (.bapWrite b t) s fun u => 
        u.out = s.out ++ [.bap b.service 3 b.tag b.seq 0 [] []] ∧
        u.bcp = { s.bcp with keys := setAt s.bcp.keys b.key { (s.bcp.keys.getD b.key {}) with last := some b.seq } } ∧
        (((List.range (b.count * (if b.size = 0 then 4 else 8))).all fun j => u.byte ((b.addr % 2 ^ 40) + j) == BitVec.ofNat 8 (b.data.getD (j / (if b.size = 0 then 4 else 8)) 0 / 256 ^ (j % (if b.size = 0 then 4 else 8)))) = true) ∧
        (∀ a, a < (b.addr % 2 ^ 40) ∨ (b.addr % 2 ^ 40) + (if b.size = 0 then 4 else 8) * b.count ≤ a → u.byte a = s.byte a) ∧
        u.now = max s.now t ∧
        RegsOnly [pgEccD] s u ∧
        { u with regs := s.regs, now := s.now, hot := s.hot, out := s.out, bcp := s.bcp, mem := s.mem, chk := s.chk, pois := s.pois, tags := s.tags, dramErr := s.dramErr } = s :)
    ∧ (∀ (b : Bap) (t : Nat) (s : State), (Instr.bapWrite b t).wf = true → s.calm = true → ((s.upTo t).bapAccept b 3).1 = true → b.path = [] → b.size ≤ 1 → ownerAt (b.addr % 2 ^ 40) + 1 ≤ (s.bcp.keys.getD b.key {}).right → b.count = 1 → (s.upTo t).heldFull (b.addr % 2 ^ 40) (if b.size = 0 then 4 else 8) = false →
      Completes (.bapWrite b t) s fun u => 
        (u = (({ (((s.upTo t).bapTaken b true).localWrite (bapWriter b) (b.addr % 2 ^ 40) (if b.size = 0 then 4 else 8) (b.data.getD 0 0) false).2 with bcp := { (((s.upTo t).bapTaken b true).localWrite (bapWriter b) (b.addr % 2 ^ 40) (if b.size = 0 then 4 else 8) (b.data.getD 0 0) false).2.bcp with jobs := [] } } : State).bapReply b 3 (((s.upTo t).bapTaken b true).localWrite (bapWriter b) (b.addr % 2 ^ 40) (if b.size = 0 then 4 else 8) (b.data.getD 0 0) false).1).settle) :)
    ∧ (∀ (b : Bap) (t : Nat) (s : State), (Instr.bapWrite b t).wf = true → s.calm = true → ((s.upTo t).bapAccept b 3).1 = true → b.path = [] → b.size ≤ 1 → ownerAt (b.addr % 2 ^ 40) + 1 ≤ (s.bcp.keys.getD b.key {}).right → 1 ≤ b.count → b.count ≤ 128 → (s.upTo t).heldFull (b.addr % 2 ^ 40) (if b.size = 0 then 4 else 8) = true →
      Completes (.bapWrite b t) s fun u => 
        u.bcp = ((s.upTo t).bapTaken b true).bcp ∧
        u.now = max s.now t ∧
        RegsOnly [] s u ∧
        { u with regs := s.regs, now := s.now, hot := s.hot, bcp := s.bcp } = s :)
    ∧ (∀ (b : Bap) (t i r : Nat) (s : State), (Instr.bapWrite b t).wf = true → s.calm = true → ((s.upTo t).bapAccept b 3).1 = true → b.path ≠ [] → b.path.length ≤ 6 → 1 ≤ b.count → b.count ≤ 128 → b.size ≤ 1 → ownerAt (b.addr % 2 ^ 40) + 1 ≤ (s.bcp.keys.getD b.key {}).right → s.rope.slots.length = 4 → [0, 1].find? (fun x => s.fld pgRopeL (0x118 + 32 * x) 31 29 != 1 && !(s.slotAcc x).bap) = some i → s.dstate = 4 → s.ropeRoute (pathOf (pathReg b.path)) false = .port r →
      Completes (.bapWrite b t) s fun u => 
        u.fld pgRopeL (0x118 + 32 * i) 31 29 = 1 ∧
        u.slotAcc i = ⟨max s.now t, ((3) + b.size), true, ((s.slotAcc i).n + 1) % 2 ^ 14⟩ ∧
        u.rd64 pgRopeL (0x108 + 32 * i) = (b.addr % 2 ^ 40) + ((3) + b.size) * 2 ^ 60 ∧
        u.out = s.out ++ [.rope r 0x20 15 (pathOf (pathReg b.path)) s.ownPath (i + 4 * (((s.slotAcc i).n + 1) % 2 ^ 14)) 0 [(b.addr % 2 ^ 40) + ((3) + b.size) * 2 ^ 40, u.rd64 pgRopeL (0x110 + 32 * i)] []] ∧
        u.bcp = { ((s.upTo t).bapTaken b true).bcp with jobs := [⟨b, true, 0, [], [], some i⟩] } ∧
        u.now = max s.now t ∧
        RegsOnly [pgRopeL, pgRope r] s u ∧
        { u with regs := s.regs, now := s.now, hot := s.hot, rope := s.rope, out := s.out, bcp := s.bcp } = s :)
    ∧ (∀ (b : Bap) (t i : Nat) (s : State), (Instr.bapWrite b t).wf = true → s.calm = true → ((s.upTo t).bapAccept b 3).1 = true → b.path ≠ [] → b.path.length ≤ 6 → 1 ≤ b.count → b.count ≤ 128 → b.size ≤ 1 → ownerAt (b.addr % 2 ^ 40) + 1 ≤ (s.bcp.keys.getD b.key {}).right → s.rope.slots.length = 4 → [0, 1].find? (fun x => s.fld pgRopeL (0x118 + 32 * x) 31 29 != 1 && !(s.slotAcc x).bap) = some i → (s.dstate ≠ 4 ∨ s.ropeRoute (pathOf (pathReg b.path)) false = .nowhere) →
      Completes (.bapWrite b t) s fun u => 
        u.out = s.out ++ [.bap b.service 3 b.tag b.seq 3 [] []] ∧
        u.bcp = { s.bcp with keys := setAt s.bcp.keys b.key { (s.bcp.keys.getD b.key {}) with last := some b.seq } } ∧
        (u.fld pgRopeL (0x118 + 32 * i) 31 29, u.fld pgRopeL (0x118 + 32 * i) 28 24) = (3, 3) ∧
        u.now = max s.now t ∧
        RegsOnly [pgRopeL] s u ∧
        { u with regs := s.regs, now := s.now, hot := s.hot, rope := s.rope, out := s.out, bcp := s.bcp } = s :)
    ∧ (∀ (b : Bap) (t : Nat) (s : State), (Instr.bapWrite b t).wf = true → s.calm = true → ((s.upTo t).bapAccept b 3).1 = true → b.path ≠ [] → b.path.length ≤ 6 → 1 ≤ b.count → b.count ≤ 128 → b.size ≤ 1 → ownerAt (b.addr % 2 ^ 40) + 1 ≤ (s.bcp.keys.getD b.key {}).right → s.rope.slots.length = 4 → [0, 1].find? (fun x => s.fld pgRopeL (0x118 + 32 * x) 31 29 != 1 && !(s.slotAcc x).bap) = none →
      Completes (.bapWrite b t) s fun u => 
        u.bcp = ((s.upTo t).bapTaken b true).bcp ∧
        u.now = max s.now t ∧
        RegsOnly [] s u ∧
        { u with regs := s.regs, now := s.now, hot := s.hot, bcp := s.bcp } = s :)
    ∧ (∀ (b : Bap) (t : Nat) (s : State), (Instr.bapWrite b t).wf = true → s.calm = true → ((s.upTo t).bapAccept b 3).1 = true → (s.bcp.keys.getD b.key {}).right ≠ 0 → (128 < b.count ∨ 1 < b.size ∨ 6 < b.path.length) →
      Completes (.bapWrite b t) s fun u => 
        u.out = s.out ++ [.bap b.service 3 b.tag b.seq 1 [] []] ∧
        u.bcp = { s.bcp with keys := setAt s.bcp.keys b.key { (s.bcp.keys.getD b.key {}) with last := some b.seq } } ∧
        u.now = max s.now t ∧
        RegsOnly [] s u ∧
        { u with regs := s.regs, now := s.now, hot := s.hot, out := s.out, bcp := s.bcp } = s :)
    ∧ (∀ (b : Bap) (t : Nat) (s : State), (Instr.bapWrite b t).wf = true → s.calm = true → ((s.upTo t).bapAccept b 3).1 = true → (s.bcp.keys.getD b.key {}).right ≠ 0 → b.count = 0 → b.size ≤ 1 → b.path.length ≤ 6 →
      Completes (.bapWrite b t) s fun u => 
        u.out = s.out ++ [.bap b.service 3 b.tag b.seq 0 [] []] ∧
        u.bcp = { s.bcp with keys := setAt s.bcp.keys b.key { (s.bcp.keys.getD b.key {}) with last := some b.seq } } ∧
        u.now = max s.now t ∧
        RegsOnly [] s u ∧
        { u with regs := s.regs, now := s.now, hot := s.hot, out := s.out, bcp := s.bcp } = s :)
    ∧ (∀ (b : Bap) (t : Nat) (s : State), (Instr.bapWrite b t).wf = true → s.calm = true → ((s.upTo t).bapAccept b 3).1 = true → ((s.bcp.keys.getD b.key {}).right = 0 ∨ ((s.bcp.keys.getD b.key {}).right < ownerAt (b.addr % 2 ^ 40) + 1 ∧ 1 ≤ b.count ∧ b.count ≤ 128 ∧ b.size ≤ 1 ∧ b.path.length ≤ 6)) →
      Completes (.bapWrite b t) s fun u => 
        u.out = s.out ++ [.bap b.service 3 b.tag b.seq 2 [] []] ∧
        u.bcp = { s.bcp with keys := setAt s.bcp.keys b.key { (s.bcp.keys.getD b.key {}) with last := some b.seq } } ∧
        u.now = max s.now t ∧
        RegsOnly [] s u ∧
        { u with regs := s.regs, now := s.now, hot := s.hot, out := s.out, bcp := s.bcp } = s :)
    ∧ (∀ (b : Bap) (t : Nat) (s : State), (Instr.bapWrite b t).wf = true → s.calm = true → (s.upTo t).bapHeard b 3 = false →
      Completes (.bapWrite b t) s fun u => 
        u.now = max s.now t ∧
        RegsOnly [] s u ∧
        { u with regs := s.regs, now := s.now, hot := s.hot } = s :)
    ∧ (∀ (b : Bap) (t : Nat) (s : State), (Instr.bapWrite b t).wf = true → s.calm = true → (s.upTo t).bapHeard b 3 = true → ((s.upTo t).bapAccept b 3).1 = false → ((s.upTo t).bapDrops b.ip).length < 15 →
      Completes (.bapWrite b t) s fun u => 
        u.fld (pgBcp 2) 0x058 31 16 = min 65535 (s.fld (pgBcp 2) 0x058 31 16 + 1) ∧
        u.srcIp b.ip = ⟨b.ip, (s.upTo t).bapDrops b.ip ++ [max s.now t], none⟩ ∧
        u.bcp = { s.bcp with srcs := u.bcp.srcs } ∧
        u.out = s.out ∧
        u.now = max s.now t ∧
        RegsOnly [pgBcp 2] s u ∧
        { u with regs := s.regs, now := s.now, hot := s.hot, bcp := s.bcp } = s :)
    ∧ (∀ (b : Bap) (t : Nat) (s : State), (Instr.bapWrite b t).wf = true → s.calm = true → (s.upTo t).bapHeard b 3 = true → ((s.upTo t).bapAccept b 3).1 = false → 15 ≤ ((s.upTo t).bapDrops b.ip).length →
      Completes (.bapWrite b t) s fun u => 
        u.fld (pgBcp 2) 0x058 31 16 = min 65535 (s.fld (pgBcp 2) 0x058 31 16 + 1) ∧
        u.fld (pgBcp 2) 0x058 15 0 = min 65535 (s.fld (pgBcp 2) 0x058 15 0 + 1) ∧
        u.srcIp b.ip = ⟨b.ip, [], some (max s.now t + 10 * cyclesPerS)⟩ ∧
        u.bcp = { s.bcp with srcs := u.bcp.srcs } ∧
        u.log = ((s.upTo t).logEvent 0x0090 1 0xFFFF (b.ip)).log ∧
        u.out = s.out ∧
        u.now = max s.now t ∧
        RegsOnly [pgBcp 2, pgBcp 1] s u ∧
        { u with regs := s.regs, now := s.now, hot := s.hot, bcp := s.bcp, log := s.log } = s :)
    ∧ (∀ (b : Bap) (t : Nat) (s : State), (Instr.logRead b t).wf = true → s.calm = true → ((s.upTo t).bapAccept b 4).1 = true → (s.bcp.keys.getD b.key {}).right ≠ 0 → b.count ≤ 32 →
      Completes (.logRead b t) s fun u => 
        (u.out = s.out ++ [.bap b.service 4 b.tag b.seq 0 ((List.range b.count).flatMap fun x => s.logWords (b.addr % 2 ^ 32 + x)) (List.replicate (8 * b.count) false)]) ∧
        u.bcp = { s.bcp with keys := setAt s.bcp.keys b.key { (s.bcp.keys.getD b.key {}) with last := some b.seq } } ∧
        u.now = max s.now t ∧
        RegsOnly [] s u ∧
        { u with regs := s.regs, now := s.now, hot := s.hot, out := s.out, bcp := s.bcp } = s :)
    ∧ (∀ (b : Bap) (t : Nat) (s : State), (Instr.logRead b t).wf = true → s.calm = true → ((s.upTo t).bapAccept b 4).1 = true → (s.bcp.keys.getD b.key {}).right ≠ 0 → 32 < b.count →
      Completes (.logRead b t) s fun u => 
        u.out = s.out ++ [.bap b.service 4 b.tag b.seq 1 [] []] ∧
        u.bcp = { s.bcp with keys := setAt s.bcp.keys b.key { (s.bcp.keys.getD b.key {}) with last := some b.seq } } ∧
        u.now = max s.now t ∧
        RegsOnly [] s u ∧
        { u with regs := s.regs, now := s.now, hot := s.hot, out := s.out, bcp := s.bcp } = s :)
    ∧ (∀ (b : Bap) (t : Nat) (s : State), (Instr.logRead b t).wf = true → s.calm = true → ((s.upTo t).bapAccept b 4).1 = true → (s.bcp.keys.getD b.key {}).right = 0 →
      Completes (.logRead b t) s fun u => 
        u.out = s.out ++ [.bap b.service 4 b.tag b.seq 2 [] []] ∧
        u.bcp = { s.bcp with keys := setAt s.bcp.keys b.key { (s.bcp.keys.getD b.key {}) with last := some b.seq } } ∧
        u.now = max s.now t ∧
        RegsOnly [] s u ∧
        { u with regs := s.regs, now := s.now, hot := s.hot, out := s.out, bcp := s.bcp } = s :)
    ∧ (∀ (b : Bap) (t : Nat) (s : State), (Instr.logRead b t).wf = true → s.calm = true → (s.upTo t).bapHeard b 4 = false →
      Completes (.logRead b t) s fun u => 
        u.now = max s.now t ∧
        RegsOnly [] s u ∧
        { u with regs := s.regs, now := s.now, hot := s.hot } = s :)
    ∧ (∀ (b : Bap) (t : Nat) (s : State), (Instr.logRead b t).wf = true → s.calm = true → (s.upTo t).bapHeard b 4 = true → ((s.upTo t).bapAccept b 4).1 = false → ((s.upTo t).bapDrops b.ip).length < 15 →
      Completes (.logRead b t) s fun u => 
        u.fld (pgBcp 2) 0x058 31 16 = min 65535 (s.fld (pgBcp 2) 0x058 31 16 + 1) ∧
        u.srcIp b.ip = ⟨b.ip, (s.upTo t).bapDrops b.ip ++ [max s.now t], none⟩ ∧
        u.bcp = { s.bcp with srcs := u.bcp.srcs } ∧
        u.out = s.out ∧
        u.now = max s.now t ∧
        RegsOnly [pgBcp 2] s u ∧
        { u with regs := s.regs, now := s.now, hot := s.hot, bcp := s.bcp } = s :)
    ∧ (∀ (b : Bap) (t : Nat) (s : State), (Instr.logRead b t).wf = true → s.calm = true → (s.upTo t).bapHeard b 4 = true → ((s.upTo t).bapAccept b 4).1 = false → 15 ≤ ((s.upTo t).bapDrops b.ip).length →
      Completes (.logRead b t) s fun u => 
        u.fld (pgBcp 2) 0x058 31 16 = min 65535 (s.fld (pgBcp 2) 0x058 31 16 + 1) ∧
        u.fld (pgBcp 2) 0x058 15 0 = min 65535 (s.fld (pgBcp 2) 0x058 15 0 + 1) ∧
        u.srcIp b.ip = ⟨b.ip, [], some (max s.now t + 10 * cyclesPerS)⟩ ∧
        u.bcp = { s.bcp with srcs := u.bcp.srcs } ∧
        u.log = ((s.upTo t).logEvent 0x0090 1 0xFFFF (b.ip)).log ∧
        u.out = s.out ∧
        u.now = max s.now t ∧
        RegsOnly [pgBcp 2, pgBcp 1] s u ∧
        { u with regs := s.regs, now := s.now, hot := s.hot, bcp := s.bcp, log := s.log } = s :)
    ∧ (∀ (ip t e : Nat) (s : State), (Instr.sourceUnblock ip t).wf = true → s.calm = true → (s.srcIp ip).blocked = some e → e ≤ t →
      Completes (.sourceUnblock ip t) s fun u => 
        (u.srcIp ip).blocked = none ∧
        (u.bcp = { s.bcp with srcs := s.bcp.srcs.filter (fun y => y.ip != ip) }) ∧
        u.now = max s.now t ∧
        RegsOnly [] s u ∧
        { u with regs := s.regs, now := s.now, hot := s.hot, bcp := s.bcp } = s :)
    ∧ (∀ (ip t : Nat) (s : State), (Instr.sourceUnblock ip t).wf = true → s.calm = true → ((s.srcIp ip).blocked.all fun x => decide (t < x)) = true →
      Completes (.sourceUnblock ip t) s fun u => 
        u.now = max s.now t ∧
        RegsOnly [] s u ∧
        { u with regs := s.regs, now := s.now, hot := s.hot } = s :)

/-- UPD_OPEN with a sound header, room and the key’s UPD bit starts the erase of the blocks the image needs, an image also makes the target bank INVALID and empty; during another it answers BUSY, without room RANGE, with another header STATE, with a key slot that is revoked or not there SIGNATURE. Each erase counts down and the last one opens the writing; UPD_DATA keeps the bytes at their offset, answers BUSY during the erase, RANGE beyond the length, STATE without an update. A sound commit ends DONE, makes an image’s bank VALID and replaces the store by a store’s, an unsound one ends FAILED with status 10 and leaves both; activation of a VALID bank makes it PREFERRED and TRIAL and restarts Basecamp after its reply, else it answers STATE; without the UPD bit all answer RIGHT, and datagrams that are not accepted are dropped. CONFIRM makes a TRIAL bank VALID, RAISE_MIN and ABORT do what they say; a tile update starts on the lowest ready spare, is REFUSED without one, and one at a time runs; other parties’ writes and those of a page in RESET do nothing. -/
def Obligations.Updates : Prop :=
    (∀ (b : Bap) (t : Nat) (s : State), (Instr.updOpen b t).wf = true → s.calm = true → ((s.upTo t).bapAccept b 5).1 = true → (s.bcp.keys.getD b.key {}).upd = true → b.addr % 2 = 1 → s.updating = false → (Bap.bytes b).length = 128 → 128 + (leNat (((Bap.bytes b).drop 16).take 4)) ≤ (if b.addr % 2 = 0 then 0xE00000 * 16 - 0x10000 else 0x1000000) → (leNat (((Bap.bytes b).drop 0).take 4)) = 0x49585647 ∧ (leNat (((Bap.bytes b).drop 4).take 2)) = 1 ∧ (leNat (((Bap.bytes b).drop 7).take 1)) = 0 ∧ (leNat (((Bap.bytes b).drop 20).take 44)) = 0 ∧ s.rd64 (pgBcp 4) 0x060 ≤ (leNat (((Bap.bytes b).drop 8).take 8)) →
      Completes (.updOpen b t) s fun u => 
        u.out = s.out ++ [.bap b.service 5 b.tag b.seq 0 [] []] ∧
        (u.bcp.upd = some { target := 1, bank := s.targetBank, keyid := (leNat (((Bap.bytes b).drop 6).take 1)), gen := (leNat (((Bap.bytes b).drop 8).take 8)), len := (leNat (((Bap.bytes b).drop 16).take 4)), left := (128 + (leNat (((Bap.bytes b).drop 16).take 4)) + 65535) / 65536, data := (Bap.bytes b).zipIdx.map fun q => (q.2, q.1) }) ∧
        u.fld (pgBcp 4) 0x040 31 28 = 3 ∧
        u.fld (pgBcp 4) 0x040 27 0 = 0 ∧
        u.getB (pgBcp 4) 0x010 16 = true ∧
        u.bcp = { s.bcp with keys := setAt s.bcp.keys b.key { (s.bcp.keys.getD b.key {}) with last := some b.seq }, upd := u.bcp.upd } ∧
        u.now = max s.now t ∧
        RegsOnly [pgBcp 4] s u ∧
        { u with regs := s.regs, now := s.now, hot := s.hot, out := s.out, bcp := s.bcp } = s :)
    ∧ (∀ (b : Bap) (t : Nat) (s : State), (Instr.updOpen b t).wf = true → s.calm = true → ((s.upTo t).bapAccept b 5).1 = true → (s.bcp.keys.getD b.key {}).upd = true → b.addr % 2 = 0 → s.updating = false → (Bap.bytes b).length = 128 → 128 + (leNat (((Bap.bytes b).drop 16).take 4)) ≤ (if b.addr % 2 = 0 then 0xE00000 * 16 - 0x10000 else 0x1000000) → (leNat (((Bap.bytes b).drop 0).take 4)) = 0x49585647 ∧ (leNat (((Bap.bytes b).drop 4).take 2)) = 1 ∧ (leNat (((Bap.bytes b).drop 7).take 1)) = 0 ∧ (leNat (((Bap.bytes b).drop 20).take 44)) = 0 ∧ s.rd64 (pgBcp 4) 0x060 ≤ (leNat (((Bap.bytes b).drop 8).take 8)) → (leNat (((Bap.bytes b).drop 6).take 1)) ≤ 3 ∧ s.getB (pgBcp 7) 0x048 (leNat (((Bap.bytes b).drop 6).take 1)) = true ∧ s.getB (pgBcp 7) 0x048 (8 + (leNat (((Bap.bytes b).drop 6).take 1))) = false →
      Completes (.updOpen b t) s fun u => 
        u.out = s.out ++ [.bap b.service 5 b.tag b.seq 0 [] []] ∧
        (u.bcp.upd = some { target := 0, bank := s.targetBank, keyid := (leNat (((Bap.bytes b).drop 6).take 1)), gen := (leNat (((Bap.bytes b).drop 8).take 8)), len := (leNat (((Bap.bytes b).drop 16).take 4)), left := (128 + (leNat (((Bap.bytes b).drop 16).take 4)) + 65535) / 65536, data := (Bap.bytes b).zipIdx.map fun q => (q.2, q.1) }) ∧
        u.fld (pgBcp 4) 0x040 31 28 = 2 ∧
        u.bankImg s.targetBank = [] ∧
        u.bankState' s.targetBank = 1 ∧
        u.rd64 (pgBcp 4) (0x050 + 8 * s.targetBank) = (leNat (((Bap.bytes b).drop 8).take 8)) ∧
        u.bankImg (1 - s.targetBank) = s.bankImg (1 - s.targetBank) ∧
        u.log = ((s.upTo t).logEvent 0x0010 1 0xFFFF (2 ^ 8 + (leNat (((Bap.bytes b).drop 8).take 8)) * 2 ^ 16)).log ∧
        u.getB (pgBcp 4) 0x010 16 = true ∧
        u.bcp = { s.bcp with keys := setAt s.bcp.keys b.key { (s.bcp.keys.getD b.key {}) with last := some b.seq }, upd := u.bcp.upd, imgA := u.bcp.imgA, imgB := u.bcp.imgB } ∧
        u.now = max s.now t ∧
        RegsOnly [pgBcp 4, pgBcp 1] s u ∧
        { u with regs := s.regs, now := s.now, hot := s.hot, out := s.out, bcp := s.bcp, log := s.log } = s :)
    ∧ (∀ (b : Bap) (t : Nat) (s : State), (Instr.updOpen b t).wf = true → s.calm = true → ((s.upTo t).bapAccept b 5).1 = true → (s.bcp.keys.getD b.key {}).upd = true → s.updating = true →
      Completes (.updOpen b t) s fun u => 
        u.out = s.out ++ [.bap b.service 5 b.tag b.seq 8 [] []] ∧
        u.bcp = { s.bcp with keys := setAt s.bcp.keys b.key { (s.bcp.keys.getD b.key {}) with last := some b.seq } } ∧
        u.now = max s.now t ∧
        RegsOnly [] s u ∧
        { u with regs := s.regs, now := s.now, hot := s.hot, out := s.out, bcp := s.bcp } = s :)
    ∧ (∀ (b : Bap) (t : Nat) (s : State), (Instr.updOpen b t).wf = true → s.calm = true → ((s.upTo t).bapAccept b 5).1 = true → (s.bcp.keys.getD b.key {}).upd = true → s.updating = false → ((Bap.bytes b).length ≠ 128 ∨ ¬(128 + (leNat (((Bap.bytes b).drop 16).take 4)) ≤ (if b.addr % 2 = 0 then 0xE00000 * 16 - 0x10000 else 0x1000000))) →
      Completes (.updOpen b t) s fun u => 
        u.out = s.out ++ [.bap b.service 5 b.tag b.seq 1 [] []] ∧
        u.bcp = { s.bcp with keys := setAt s.bcp.keys b.key { (s.bcp.keys.getD b.key {}) with last := some b.seq } } ∧
        u.now = max s.now t ∧
        RegsOnly [] s u ∧
        { u with regs := s.regs, now := s.now, hot := s.hot, out := s.out, bcp := s.bcp } = s :)
    ∧ (∀ (b : Bap) (t : Nat) (s : State), (Instr.updOpen b t).wf = true → s.calm = true → ((s.upTo t).bapAccept b 5).1 = true → (s.bcp.keys.getD b.key {}).upd = true → s.updating = false → (Bap.bytes b).length = 128 → 128 + (leNat (((Bap.bytes b).drop 16).take 4)) ≤ (if b.addr % 2 = 0 then 0xE00000 * 16 - 0x10000 else 0x1000000) → ¬((leNat (((Bap.bytes b).drop 0).take 4)) = 0x49585647 ∧ (leNat (((Bap.bytes b).drop 4).take 2)) = 1 ∧ (leNat (((Bap.bytes b).drop 7).take 1)) = 0 ∧ (leNat (((Bap.bytes b).drop 20).take 44)) = 0 ∧ s.rd64 (pgBcp 4) 0x060 ≤ (leNat (((Bap.bytes b).drop 8).take 8))) →
      Completes (.updOpen b t) s fun u => 
        u.out = s.out ++ [.bap b.service 5 b.tag b.seq 9 [] []] ∧
        u.bcp = { s.bcp with keys := setAt s.bcp.keys b.key { (s.bcp.keys.getD b.key {}) with last := some b.seq } } ∧
        u.now = max s.now t ∧
        RegsOnly [] s u ∧
        { u with regs := s.regs, now := s.now, hot := s.hot, out := s.out, bcp := s.bcp } = s :)
    ∧ (∀ (b : Bap) (t : Nat) (s : State), (Instr.updOpen b t).wf = true → s.calm = true → ((s.upTo t).bapAccept b 5).1 = true → (s.bcp.keys.getD b.key {}).upd = true → s.updating = false → (Bap.bytes b).length = 128 → 128 + (leNat (((Bap.bytes b).drop 16).take 4)) ≤ (if b.addr % 2 = 0 then 0xE00000 * 16 - 0x10000 else 0x1000000) → (leNat (((Bap.bytes b).drop 0).take 4)) = 0x49585647 ∧ (leNat (((Bap.bytes b).drop 4).take 2)) = 1 ∧ (leNat (((Bap.bytes b).drop 7).take 1)) = 0 ∧ (leNat (((Bap.bytes b).drop 20).take 44)) = 0 ∧ s.rd64 (pgBcp 4) 0x060 ≤ (leNat (((Bap.bytes b).drop 8).take 8)) → b.addr % 2 = 0 → ¬((leNat (((Bap.bytes b).drop 6).take 1)) ≤ 3 ∧ s.getB (pgBcp 7) 0x048 (leNat (((Bap.bytes b).drop 6).take 1)) = true ∧ s.getB (pgBcp 7) 0x048 (8 + (leNat (((Bap.bytes b).drop 6).take 1))) = false) →
      Completes (.updOpen b t) s fun u => 
        u.out = s.out ++ [.bap b.service 5 b.tag b.seq 10 [] []] ∧
        u.bcp = { s.bcp with keys := setAt s.bcp.keys b.key { (s.bcp.keys.getD b.key {}) with last := some b.seq } } ∧
        u.now = max s.now t ∧
        RegsOnly [] s u ∧
        { u with regs := s.regs, now := s.now, hot := s.hot, out := s.out, bcp := s.bcp } = s :)
    ∧ (∀ (b : Bap) (t : Nat) (s : State), (Instr.updOpen b t).wf = true → s.calm = true → ((s.upTo t).bapAccept b 5).1 = true → (s.bcp.keys.getD b.key {}).upd = false →
      Completes (.updOpen b t) s fun u => 
        u.out = s.out ++ [.bap b.service 5 b.tag b.seq 2 [] []] ∧
        u.bcp = { s.bcp with keys := setAt s.bcp.keys b.key { (s.bcp.keys.getD b.key {}) with last := some b.seq } } ∧
        u.now = max s.now t ∧
        RegsOnly [] s u ∧
        { u with regs := s.regs, now := s.now, hot := s.hot, out := s.out, bcp := s.bcp } = s :)
    ∧ (∀ (b : Bap) (t : Nat) (s : State), (Instr.updOpen b t).wf = true → s.calm = true → (s.upTo t).bapHeard b 5 = false →
      Completes (.updOpen b t) s fun u => 
        u.now = max s.now t ∧
        RegsOnly [] s u ∧
        { u with regs := s.regs, now := s.now, hot := s.hot } = s :)
    ∧ (∀ (b : Bap) (t : Nat) (s : State), (Instr.updOpen b t).wf = true → s.calm = true → (s.upTo t).bapHeard b 5 = true → ((s.upTo t).bapAccept b 5).1 = false → ((s.upTo t).bapDrops b.ip).length < 15 →
      Completes (.updOpen b t) s fun u => 
        u.fld (pgBcp 2) 0x058 31 16 = min 65535 (s.fld (pgBcp 2) 0x058 31 16 + 1) ∧
        u.srcIp b.ip = ⟨b.ip, (s.upTo t).bapDrops b.ip ++ [max s.now t], none⟩ ∧
        u.bcp = { s.bcp with srcs := u.bcp.srcs } ∧
        u.out = s.out ∧
        u.now = max s.now t ∧
        RegsOnly [pgBcp 2] s u ∧
        { u with regs := s.regs, now := s.now, hot := s.hot, bcp := s.bcp } = s :)
    ∧ (∀ (b : Bap) (t : Nat) (s : State), (Instr.updOpen b t).wf = true → s.calm = true → (s.upTo t).bapHeard b 5 = true → ((s.upTo t).bapAccept b 5).1 = false → 15 ≤ ((s.upTo t).bapDrops b.ip).length →
      Completes (.updOpen b t) s fun u => 
        u.fld (pgBcp 2) 0x058 31 16 = min 65535 (s.fld (pgBcp 2) 0x058 31 16 + 1) ∧
        u.fld (pgBcp 2) 0x058 15 0 = min 65535 (s.fld (pgBcp 2) 0x058 15 0 + 1) ∧
        u.srcIp b.ip = ⟨b.ip, [], some (max s.now t + 10 * cyclesPerS)⟩ ∧
        u.bcp = { s.bcp with srcs := u.bcp.srcs } ∧
        u.log = ((s.upTo t).logEvent 0x0090 1 0xFFFF (b.ip)).log ∧
        u.out = s.out ∧
        u.now = max s.now t ∧
        RegsOnly [pgBcp 2, pgBcp 1] s u ∧
        { u with regs := s.regs, now := s.now, hot := s.hot, bcp := s.bcp, log := s.log } = s :)
    ∧ (∀ (b : Bap) (t : Nat) (s : State), (Instr.updData b t).wf = true → s.calm = true → ((s.upTo t).bapAccept b 6).1 = true → (s.bcp.keys.getD b.key {}).upd = false →
      Completes (.updData b t) s fun u => 
        u.out = s.out ++ [.bap b.service 6 b.tag b.seq 2 [] []] ∧
        u.bcp = { s.bcp with keys := setAt s.bcp.keys b.key { (s.bcp.keys.getD b.key {}) with last := some b.seq } } ∧
        u.now = max s.now t ∧
        RegsOnly [] s u ∧
        { u with regs := s.regs, now := s.now, hot := s.hot, out := s.out, bcp := s.bcp } = s :)
    ∧ (∀ (b : Bap) (t : Nat) (s : State), (Instr.updData b t).wf = true → s.calm = true → (s.upTo t).bapHeard b 6 = false →
      Completes (.updData b t) s fun u => 
        u.now = max s.now t ∧
        RegsOnly [] s u ∧
        { u with regs := s.regs, now := s.now, hot := s.hot } = s :)
    ∧ (∀ (b : Bap) (t : Nat) (s : State), (Instr.updData b t).wf = true → s.calm = true → (s.upTo t).bapHeard b 6 = true → ((s.upTo t).bapAccept b 6).1 = false → ((s.upTo t).bapDrops b.ip).length < 15 →
      Completes (.updData b t) s fun u => 
        u.fld (pgBcp 2) 0x058 31 16 = min 65535 (s.fld (pgBcp 2) 0x058 31 16 + 1) ∧
        u.srcIp b.ip = ⟨b.ip, (s.upTo t).bapDrops b.ip ++ [max s.now t], none⟩ ∧
        u.bcp = { s.bcp with srcs := u.bcp.srcs } ∧
        u.out = s.out ∧
        u.now = max s.now t ∧
        RegsOnly [pgBcp 2] s u ∧
        { u with regs := s.regs, now := s.now, hot := s.hot, bcp := s.bcp } = s :)
    ∧ (∀ (b : Bap) (t : Nat) (s : State), (Instr.updData b t).wf = true → s.calm = true → (s.upTo t).bapHeard b 6 = true → ((s.upTo t).bapAccept b 6).1 = false → 15 ≤ ((s.upTo t).bapDrops b.ip).length →
      Completes (.updData b t) s fun u => 
        u.fld (pgBcp 2) 0x058 31 16 = min 65535 (s.fld (pgBcp 2) 0x058 31 16 + 1) ∧
        u.fld (pgBcp 2) 0x058 15 0 = min 65535 (s.fld (pgBcp 2) 0x058 15 0 + 1) ∧
        u.srcIp b.ip = ⟨b.ip, [], some (max s.now t + 10 * cyclesPerS)⟩ ∧
        u.bcp = { s.bcp with srcs := u.bcp.srcs } ∧
        u.log = ((s.upTo t).logEvent 0x0090 1 0xFFFF (b.ip)).log ∧
        u.out = s.out ∧
        u.now = max s.now t ∧
        RegsOnly [pgBcp 2, pgBcp 1] s u ∧
        { u with regs := s.regs, now := s.now, hot := s.hot, bcp := s.bcp, log := s.log } = s :)
    ∧ (∀ (b : Bap) (t : Nat) (s : State), (Instr.updCommit b t).wf = true → s.calm = true → ((s.upTo t).bapAccept b 7).1 = true → (s.bcp.keys.getD b.key {}).upd = false →
      Completes (.updCommit b t) s fun u => 
        u.out = s.out ++ [.bap b.service 7 b.tag b.seq 2 [] []] ∧
        u.bcp = { s.bcp with keys := setAt s.bcp.keys b.key { (s.bcp.keys.getD b.key {}) with last := some b.seq } } ∧
        u.now = max s.now t ∧
        RegsOnly [] s u ∧
        { u with regs := s.regs, now := s.now, hot := s.hot, out := s.out, bcp := s.bcp } = s :)
    ∧ (∀ (b : Bap) (t : Nat) (s : State), (Instr.updCommit b t).wf = true → s.calm = true → (s.upTo t).bapHeard b 7 = false →
      Completes (.updCommit b t) s fun u => 
        u.now = max s.now t ∧
        RegsOnly [] s u ∧
        { u with regs := s.regs, now := s.now, hot := s.hot } = s :)
    ∧ (∀ (b : Bap) (t : Nat) (s : State), (Instr.updCommit b t).wf = true → s.calm = true → (s.upTo t).bapHeard b 7 = true → ((s.upTo t).bapAccept b 7).1 = false → ((s.upTo t).bapDrops b.ip).length < 15 →
      Completes (.updCommit b t) s fun u => 
        u.fld (pgBcp 2) 0x058 31 16 = min 65535 (s.fld (pgBcp 2) 0x058 31 16 + 1) ∧
        u.srcIp b.ip = ⟨b.ip, (s.upTo t).bapDrops b.ip ++ [max s.now t], none⟩ ∧
        u.bcp = { s.bcp with srcs := u.bcp.srcs } ∧
        u.out = s.out ∧
        u.now = max s.now t ∧
        RegsOnly [pgBcp 2] s u ∧
        { u with regs := s.regs, now := s.now, hot := s.hot, bcp := s.bcp } = s :)
    ∧ (∀ (b : Bap) (t : Nat) (s : State), (Instr.updCommit b t).wf = true → s.calm = true → (s.upTo t).bapHeard b 7 = true → ((s.upTo t).bapAccept b 7).1 = false → 15 ≤ ((s.upTo t).bapDrops b.ip).length →
      Completes (.updCommit b t) s fun u => 
        u.fld (pgBcp 2) 0x058 31 16 = min 65535 (s.fld (pgBcp 2) 0x058 31 16 + 1) ∧
        u.fld (pgBcp 2) 0x058 15 0 = min 65535 (s.fld (pgBcp 2) 0x058 15 0 + 1) ∧
        u.srcIp b.ip = ⟨b.ip, [], some (max s.now t + 10 * cyclesPerS)⟩ ∧
        u.bcp = { s.bcp with srcs := u.bcp.srcs } ∧
        u.log = ((s.upTo t).logEvent 0x0090 1 0xFFFF (b.ip)).log ∧
        u.out = s.out ∧
        u.now = max s.now t ∧
        RegsOnly [pgBcp 2, pgBcp 1] s u ∧
        { u with regs := s.regs, now := s.now, hot := s.hot, bcp := s.bcp, log := s.log } = s :)
    ∧ (∀ (b : Bap) (t : Nat) (s : State), (Instr.updActivate b t).wf = true → s.calm = true → ((s.upTo t).bapAccept b 8).1 = true → (s.bcp.keys.getD b.key {}).upd = false →
      Completes (.updActivate b t) s fun u => 
        u.out = s.out ++ [.bap b.service 8 b.tag b.seq 2 [] []] ∧
        u.bcp = { s.bcp with keys := setAt s.bcp.keys b.key { (s.bcp.keys.getD b.key {}) with last := some b.seq } } ∧
        u.now = max s.now t ∧
        RegsOnly [] s u ∧
        { u with regs := s.regs, now := s.now, hot := s.hot, out := s.out, bcp := s.bcp } = s :)
    ∧ (∀ (b : Bap) (t : Nat) (s : State), (Instr.updActivate b t).wf = true → s.calm = true → (s.upTo t).bapHeard b 8 = false →
      Completes (.updActivate b t) s fun u => 
        u.now = max s.now t ∧
        RegsOnly [] s u ∧
        { u with regs := s.regs, now := s.now, hot := s.hot } = s :)
    ∧ (∀ (b : Bap) (t : Nat) (s : State), (Instr.updActivate b t).wf = true → s.calm = true → (s.upTo t).bapHeard b 8 = true → ((s.upTo t).bapAccept b 8).1 = false → ((s.upTo t).bapDrops b.ip).length < 15 →
      Completes (.updActivate b t) s fun u => 
        u.fld (pgBcp 2) 0x058 31 16 = min 65535 (s.fld (pgBcp 2) 0x058 31 16 + 1) ∧
        u.srcIp b.ip = ⟨b.ip, (s.upTo t).bapDrops b.ip ++ [max s.now t], none⟩ ∧
        u.bcp = { s.bcp with srcs := u.bcp.srcs } ∧
        u.out = s.out ∧
        u.now = max s.now t ∧
        RegsOnly [pgBcp 2] s u ∧
        { u with regs := s.regs, now := s.now, hot := s.hot, bcp := s.bcp } = s :)
    ∧ (∀ (b : Bap) (t : Nat) (s : State), (Instr.updActivate b t).wf = true → s.calm = true → (s.upTo t).bapHeard b 8 = true → ((s.upTo t).bapAccept b 8).1 = false → 15 ≤ ((s.upTo t).bapDrops b.ip).length →
      Completes (.updActivate b t) s fun u => 
        u.fld (pgBcp 2) 0x058 31 16 = min 65535 (s.fld (pgBcp 2) 0x058 31 16 + 1) ∧
        u.fld (pgBcp 2) 0x058 15 0 = min 65535 (s.fld (pgBcp 2) 0x058 15 0 + 1) ∧
        u.srcIp b.ip = ⟨b.ip, [], some (max s.now t + 10 * cyclesPerS)⟩ ∧
        u.bcp = { s.bcp with srcs := u.bcp.srcs } ∧
        u.log = ((s.upTo t).logEvent 0x0090 1 0xFFFF (b.ip)).log ∧
        u.out = s.out ∧
        u.now = max s.now t ∧
        RegsOnly [pgBcp 2, pgBcp 1] s u ∧
        { u with regs := s.regs, now := s.now, hot := s.hot, bcp := s.bcp, log := s.log } = s :)
    ∧ (∀ (t : Nat) (x : Upd) (s : State), (Instr.eraseComplete t).wf = true → s.calm = true → s.bcp.upd = some x → x.phase = 0 → 1 < x.left →
      Completes (.eraseComplete t) s fun u => 
        u.bcp = { s.bcp with upd := some { x with left := x.left - 1 } } ∧
        u.now = max s.now t ∧
        RegsOnly [] s u ∧
        { u with regs := s.regs, now := s.now, hot := s.hot, bcp := s.bcp } = s :)
    ∧ (∀ (t : Nat) (x : Upd) (s : State), (Instr.eraseComplete t).wf = true → s.calm = true → s.bcp.upd = some x → x.phase = 0 → x.left ≤ 1 →
      Completes (.eraseComplete t) s fun u => 
        u.bcp = { s.bcp with upd := some { x with phase := 1, left := 0 } } ∧
        u.fld (pgBcp 4) 0x040 31 29 = 2 ∧
        u.getB (pgBcp 4) 0x010 16 = true ∧
        u.now = max s.now t ∧
        RegsOnly [pgBcp 4] s u ∧
        { u with regs := s.regs, now := s.now, hot := s.hot, bcp := s.bcp } = s :)
    ∧ (∀ (t : Nat) (s : State), (Instr.eraseComplete t).wf = true → s.calm = true → (s.bcp.upd.map fun x => x.phase) ≠ some 0 →
      Completes (.eraseComplete t) s fun u => 
        u.now = max s.now t ∧
        RegsOnly [] s u ∧
        { u with regs := s.regs, now := s.now, hot := s.hot } = s :)
    ∧ (∀ (b : Bap) (t : Nat) (x : Upd) (s : State), (Instr.updData b t).wf = true → s.calm = true → ((s.upTo t).bapAccept b 6).1 = true → (s.bcp.keys.getD b.key {}).upd = true → s.bcp.upd = some x → x.phase = 1 → b.addr % 2 ^ 40 + (Bap.bytes b).length ≤ 128 + x.len →
      Completes (.updData b t) s fun u => 
        u.out = s.out ++ [.bap b.service 6 b.tag b.seq 0 [] []] ∧
        (u.bcp.upd.map (fun y => { y with data := [] }) = some { x with data := [], bytes := x.bytes + (Bap.bytes b).length }) ∧
        u.fld (pgBcp 4) 0x040 27 0 = (x.bytes + (Bap.bytes b).length) / 1024 % 2 ^ 28 ∧
        (∀ j ∈ List.range (Bap.bytes b).length, imgByte ((u.bcp.upd.map (·.data)).getD []) (b.addr % 2 ^ 40 + j) = (Bap.bytes b).getD j 0) ∧
        (∀ j, j < b.addr % 2 ^ 40 ∨ b.addr % 2 ^ 40 + (Bap.bytes b).length ≤ j → imgByte ((u.bcp.upd.map (·.data)).getD []) j = imgByte x.data j) ∧
        u.now = max s.now t ∧
        RegsOnly [pgBcp 4] s u ∧
        { u with regs := s.regs, now := s.now, hot := s.hot, out := s.out, bcp := s.bcp } = s :)
    ∧ (∀ (b : Bap) (t : Nat) (x : Upd) (s : State), (Instr.updData b t).wf = true → s.calm = true → ((s.upTo t).bapAccept b 6).1 = true → (s.bcp.keys.getD b.key {}).upd = true → s.bcp.upd = some x → x.phase = 1 → 128 + x.len < b.addr % 2 ^ 40 + (Bap.bytes b).length →
      Completes (.updData b t) s fun u => 
        u.out = s.out ++ [.bap b.service 6 b.tag b.seq 1 [] []] ∧
        u.bcp = { s.bcp with keys := setAt s.bcp.keys b.key { (s.bcp.keys.getD b.key {}) with last := some b.seq } } ∧
        u.now = max s.now t ∧
        RegsOnly [] s u ∧
        { u with regs := s.regs, now := s.now, hot := s.hot, out := s.out, bcp := s.bcp } = s :)
    ∧ (∀ (b : Bap) (t : Nat) (s : State), (Instr.updData b t).wf = true → s.calm = true → ((s.upTo t).bapAccept b 6).1 = true → (s.bcp.keys.getD b.key {}).upd = true → ((s.bcp.upd.map fun x => x.phase) = none ∨ ((s.bcp.upd.map fun x => x.phase) ≠ some 0 ∧ (s.bcp.upd.map fun x => x.phase) ≠ some 1)) →
      Completes (.updData b t) s fun u => 
        u.out = s.out ++ [.bap b.service 6 b.tag b.seq 9 [] []] ∧
        u.bcp = { s.bcp with keys := setAt s.bcp.keys b.key { (s.bcp.keys.getD b.key {}) with last := some b.seq } } ∧
        u.now = max s.now t ∧
        RegsOnly [] s u ∧
        { u with regs := s.regs, now := s.now, hot := s.hot, out := s.out, bcp := s.bcp } = s :)
    ∧ (∀ (b : Bap) (t : Nat) (s : State), (Instr.updData b t).wf = true → s.calm = true → ((s.upTo t).bapAccept b 6).1 = true → (s.bcp.keys.getD b.key {}).upd = true → (s.bcp.upd.map fun x => x.phase) = some 0 →
      Completes (.updData b t) s fun u => 
        u.out = s.out ++ [.bap b.service 6 b.tag b.seq 8 [] []] ∧
        u.bcp = { s.bcp with keys := setAt s.bcp.keys b.key { (s.bcp.keys.getD b.key {}) with last := some b.seq } } ∧
        u.now = max s.now t ∧
        RegsOnly [] s u ∧
        { u with regs := s.regs, now := s.now, hot := s.hot, out := s.out, bcp := s.bcp } = s :)
    ∧ (∀ (b : Bap) (t : Nat) (s : State), (Instr.updCommit b t).wf = true → s.calm = true → ((s.upTo t).bapAccept b 7).1 = true → (s.bcp.keys.getD b.key {}).upd = true → ((s.bcp.upd.map fun x => x.phase) = none ∨ ((s.bcp.upd.map fun x => x.phase) ≠ some 0 ∧ (s.bcp.upd.map fun x => x.phase) ≠ some 1)) →
      Completes (.updCommit b t) s fun u => 
        u.out = s.out ++ [.bap b.service 7 b.tag b.seq 9 [] []] ∧
        u.bcp = { s.bcp with keys := setAt s.bcp.keys b.key { (s.bcp.keys.getD b.key {}) with last := some b.seq } } ∧
        u.now = max s.now t ∧
        RegsOnly [] s u ∧
        { u with regs := s.regs, now := s.now, hot := s.hot, out := s.out, bcp := s.bcp } = s :)
    ∧ (∀ (b : Bap) (t : Nat) (s : State), (Instr.updCommit b t).wf = true → s.calm = true → ((s.upTo t).bapAccept b 7).1 = true → (s.bcp.keys.getD b.key {}).upd = true → (s.bcp.upd.map fun x => x.phase) = some 0 →
      Completes (.updCommit b t) s fun u => 
        u.out = s.out ++ [.bap b.service 7 b.tag b.seq 8 [] []] ∧
        u.bcp = { s.bcp with keys := setAt s.bcp.keys b.key { (s.bcp.keys.getD b.key {}) with last := some b.seq } } ∧
        u.now = max s.now t ∧
        RegsOnly [] s u ∧
        { u with regs := s.regs, now := s.now, hot := s.hot, out := s.out, bcp := s.bcp } = s :)
    ∧ (∀ (b : Bap) (t : Nat) (x : Upd) (s : State), (Instr.updCommit b t).wf = true → s.calm = true → ((s.upTo t).bapAccept b 7).1 = true → (s.bcp.keys.getD b.key {}).upd = true → s.bcp.upd = some x → x.phase = 1 → x.target ≠ 0 → ((leNat ((List.range 4).map fun j => imgByte (x.data.filter fun q => q.2 != 0xFF) (64 + j)) == crc32c ((List.range x.len).map fun j => BitVec.ofNat 8 (imgByte (x.data.filter fun q => q.2 != 0xFF) (128 + j)))) && (List.range 60).all (fun j => imgByte (x.data.filter fun q => q.2 != 0xFF) (68 + j) == 0)) = true →
      Completes (.updCommit b t) s fun u => 
        u.out = s.out ++ [.bap b.service 7 b.tag b.seq 0 [] []] ∧
        u.fld (pgBcp 4) 0x040 31 29 = 4 ∧
        u.getB (pgBcp 4) 0x010 16 = true ∧
        (u.bcp = { s.bcp with keys := setAt s.bcp.keys b.key { (s.bcp.keys.getD b.key {}) with last := some b.seq }, upd := some { x with phase := 2 }, store := (x.data.filter fun q => q.2 != 0xFF), storeNew := true }) ∧
        u.rd64 (pgBcp 6) 0x040 = x.gen % 2 ^ 64 ∧
        u.rd (pgBcp 6) 0x048 = (128 + x.len) % 2 ^ 32 ∧
        u.log = ((s.upTo t).logEvent 0x0091 1 0xFFFF (x.gen)).log ∧
        u.now = max s.now t ∧
        RegsOnly [pgBcp 4, pgBcp 6, pgBcp 1] s u ∧
        { u with regs := s.regs, now := s.now, hot := s.hot, out := s.out, bcp := s.bcp, log := s.log } = s :)
    ∧ (∀ (b : Bap) (t : Nat) (x : Upd) (s : State), (Instr.updCommit b t).wf = true → s.calm = true → ((s.upTo t).bapAccept b 7).1 = true → (s.bcp.keys.getD b.key {}).upd = true → s.bcp.upd = some x → x.phase = 1 → x.bank < 2 → (if x.target = 0 then Config.imageVerifies x.keyid (x.data.filter fun q => q.2 != 0xFF) x.len else ((leNat ((List.range 4).map fun j => imgByte (x.data.filter fun q => q.2 != 0xFF) (64 + j)) == crc32c ((List.range x.len).map fun j => BitVec.ofNat 8 (imgByte (x.data.filter fun q => q.2 != 0xFF) (128 + j)))) && (List.range 60).all (fun j => imgByte (x.data.filter fun q => q.2 != 0xFF) (68 + j) == 0))) = true →
      Completes (.updCommit b t) s fun u => 
        u.out = s.out ++ [.bap b.service 7 b.tag b.seq 0 [] []] ∧
        u.fld (pgBcp 4) 0x040 31 29 = 4 ∧
        (x.target = 0 → u.bankState' x.bank = 2) ∧
        (x.target = 0 → u.bankImg x.bank = (x.data.filter fun q => q.2 != 0xFF) ∧ u.bankImg (1 - x.bank) = s.bankImg (1 - x.bank) ∧ u.bcp.store = s.bcp.store) ∧
        (x.target = 0 → u.log = ((s.upTo t).logEvent 0x0010 1 0xFFFF (2 * 2 ^ 8 + s.rd64 (pgBcp 4) (0x050 + 8 * x.bank) * 2 ^ 16)).log) ∧
        u.bcp.upd = some { x with phase := 2 } ∧
        u.now = max s.now t ∧
        RegsOnly [pgBcp 4, pgBcp 6, pgBcp 1] s u ∧
        { u with regs := s.regs, now := s.now, hot := s.hot, out := s.out, bcp := s.bcp, log := s.log } = s :)
    ∧ (∀ (b : Bap) (t : Nat) (x : Upd) (s : State), (Instr.updCommit b t).wf = true → s.calm = true → ((s.upTo t).bapAccept b 7).1 = true → (s.bcp.keys.getD b.key {}).upd = true → s.bcp.upd = some x → x.phase = 1 → (if x.target = 0 then Config.imageVerifies x.keyid (x.data.filter fun q => q.2 != 0xFF) x.len else ((leNat ((List.range 4).map fun j => imgByte (x.data.filter fun q => q.2 != 0xFF) (64 + j)) == crc32c ((List.range x.len).map fun j => BitVec.ofNat 8 (imgByte (x.data.filter fun q => q.2 != 0xFF) (128 + j)))) && (List.range 60).all (fun j => imgByte (x.data.filter fun q => q.2 != 0xFF) (68 + j) == 0))) = false →
      Completes (.updCommit b t) s fun u => 
        u.out = s.out ++ [.bap b.service 7 b.tag b.seq 10 [] []] ∧
        u.fld (pgBcp 4) 0x040 31 29 = 5 ∧
        u.getB (pgBcp 4) 0x010 16 = true ∧
        u.bcp = { s.bcp with keys := setAt s.bcp.keys b.key { (s.bcp.keys.getD b.key {}) with last := some b.seq }, upd := some { x with phase := 2 } } ∧
        u.now = max s.now t ∧
        RegsOnly [pgBcp 4] s u ∧
        { u with regs := s.regs, now := s.now, hot := s.hot, out := s.out, bcp := s.bcp } = s :)
    ∧ (∀ (b : Bap) (t : Nat) (s : State), (Instr.updActivate b t).wf = true → s.calm = true → ((s.upTo t).bapAccept b 8).1 = true → (s.bcp.keys.getD b.key {}).upd = true → s.updating = false → s.bankState' s.targetBank = 2 →
      Completes (.updActivate b t) s fun u => 
        u.out = s.out ++ [.bap b.service 8 b.tag b.seq 0 [] []] ∧
        u.bankState' s.targetBank = 3 ∧
        u.getB (pgBcp 4) (bankOff s.targetBank) 29 = true ∧
        u.getB (pgBcp 4) (bankOff (1 - s.targetBank)) 29 = false ∧
        u.bcp.upd = none ∧
        u.fld (pgBcp 0) 0x04C 27 24 = 3 ∧
        u.getB (pgBcp 0) 0x04C 31 = true ∧
        (s.inRecovery = false → u.mem = s.mem ∧ u.tiles = s.tiles ∧ u.souts = s.souts ∧ u.ports = s.ports) :)
    ∧ (∀ (b : Bap) (t : Nat) (s : State), (Instr.updActivate b t).wf = true → s.calm = true → ((s.upTo t).bapAccept b 8).1 = true → (s.bcp.keys.getD b.key {}).upd = true → (s.updating = true ∨ s.bankState' s.targetBank ≠ 2) →
      Completes (.updActivate b t) s fun u => 
        u.out = s.out ++ [.bap b.service 8 b.tag b.seq 9 [] []] ∧
        u.bcp = { s.bcp with keys := setAt s.bcp.keys b.key { (s.bcp.keys.getD b.key {}) with last := some b.seq } } ∧
        u.now = max s.now t ∧
        RegsOnly [] s u ∧
        { u with regs := s.regs, now := s.now, hot := s.hot, out := s.out, bcp := s.bcp } = s :)
    ∧ (∀ (w : Writer) (t : Nat) (s : State), (Instr.confirm w t).wf = true → s.calm = true → s.mayWrite w (pgBcp 4) .bcp = true → s.powered (pgBcp 4) = true → (s.pageH (pgBcp 4)).resetting = false → s.inRecovery = false → s.bankState' s.runBank = 3 →
      Completes (.confirm w t) s fun u => 
        u.bankState' s.runBank = 2 ∧
        u.getB (pgBcp 0) 0x04C 29 = false ∧
        u.getB (pgBcp 4) 0x010 16 = true ∧
        u.log = ((s.upTo t).logEvent 0x0010 1 0xFFFF (2 * 2 ^ 8 + s.rd64 (pgBcp 4) (0x050 + 8 * s.runBank) * 2 ^ 16)).log ∧
        u.now = max s.now t ∧
        RegsOnly [pgBcp 4, pgBcp 0, pgBcp 1] s u ∧
        { u with regs := s.regs, now := s.now, hot := s.hot, log := s.log } = s :)
    ∧ (∀ (w : Writer) (t : Nat) (s : State), (Instr.confirm w t).wf = true → s.calm = true → s.mayWrite w (pgBcp 4) .bcp = true → s.powered (pgBcp 4) = true → (s.pageH (pgBcp 4)).resetting = false → (s.inRecovery = true ∨ s.bankState' s.runBank ≠ 3) →
      Completes (.confirm w t) s fun u => 
        u.now = max s.now t ∧
        RegsOnly [] s u ∧
        { u with regs := s.regs, now := s.now, hot := s.hot } = s :)
    ∧ (∀ (w : Writer) (t : Nat) (s : State), (Instr.confirm w t).wf = true → s.calm = true → fromOuter w = true →
      Completes (.confirm w t) s fun u => 
        u.now = max s.now t ∧
        RegsOnly [] s u ∧
        { u with regs := s.regs, now := s.now, hot := s.hot } = s :)
    ∧ (∀ (w : Writer) (t : Nat) (s : State), (Instr.confirm w t).wf = true → s.calm = true → s.mayWrite w (pgBcp 4) .bcp = true → (s.powered (pgBcp 4) = false ∨ (s.pageH (pgBcp 4)).resetting = true) →
      Completes (.confirm w t) s fun u => 
        u.fld (pgBcp 4) 0x018 31 16 = min 65535 (s.fld (pgBcp 4) 0x018 31 16 + 1) ∧
        u.fld (pgBcp 4) 0x018 13 12 = 3 ∧
        u.now = max s.now t ∧
        RegsOnly [pgBcp 4] s u ∧
        { u with regs := s.regs, now := s.now, hot := s.hot } = s :)
    ∧ (∀ (w : Writer) (t : Nat) (s : State), (Instr.raiseMin w t).wf = true → s.calm = true → s.mayWrite w (pgBcp 4) .bcp = true → s.powered (pgBcp 4) = true → (s.pageH (pgBcp 4)).resetting = false →
      Completes (.raiseMin w t) s fun u => 
        u.rd64 (pgBcp 4) 0x060 = max (s.rd64 (pgBcp 4) 0x060) (s.rd64 (pgBcp 0) 0x050) ∧
        u.now = max s.now t ∧
        RegsOnly [pgBcp 4] s u ∧
        { u with regs := s.regs, now := s.now, hot := s.hot } = s :)
    ∧ (∀ (w : Writer) (t : Nat) (s : State), (Instr.raiseMin w t).wf = true → s.calm = true → fromOuter w = true →
      Completes (.raiseMin w t) s fun u => 
        u.now = max s.now t ∧
        RegsOnly [] s u ∧
        { u with regs := s.regs, now := s.now, hot := s.hot } = s :)
    ∧ (∀ (w : Writer) (t : Nat) (s : State), (Instr.raiseMin w t).wf = true → s.calm = true → s.mayWrite w (pgBcp 4) .bcp = true → (s.powered (pgBcp 4) = false ∨ (s.pageH (pgBcp 4)).resetting = true) →
      Completes (.raiseMin w t) s fun u => 
        u.fld (pgBcp 4) 0x018 31 16 = min 65535 (s.fld (pgBcp 4) 0x018 31 16 + 1) ∧
        u.fld (pgBcp 4) 0x018 13 12 = 3 ∧
        u.now = max s.now t ∧
        RegsOnly [pgBcp 4] s u ∧
        { u with regs := s.regs, now := s.now, hot := s.hot } = s :)
    ∧ (∀ (w : Writer) (t : Nat) (s : State), (Instr.abort w t).wf = true → s.calm = true → s.mayWrite w (pgBcp 4) .bcp = true → s.powered (pgBcp 4) = true → (s.pageH (pgBcp 4)).resetting = false → s.bcp.upd.isSome = true →
      Completes (.abort w t) s fun u => 
        u.bcp = { s.bcp with upd := none } ∧
        u.fld (pgBcp 4) 0x040 31 29 = 0 ∧
        u.getB (pgBcp 4) 0x010 16 = true ∧
        u.now = max s.now t ∧
        RegsOnly [pgBcp 4] s u ∧
        { u with regs := s.regs, now := s.now, hot := s.hot, bcp := s.bcp } = s :)
    ∧ (∀ (w : Writer) (t : Nat) (s : State), (Instr.abort w t).wf = true → s.calm = true → s.mayWrite w (pgBcp 4) .bcp = true → s.powered (pgBcp 4) = true → (s.pageH (pgBcp 4)).resetting = false → s.bcp.upd = none →
      Completes (.abort w t) s fun u => 
        u.now = max s.now t ∧
        RegsOnly [] s u ∧
        { u with regs := s.regs, now := s.now, hot := s.hot } = s :)
    ∧ (∀ (w : Writer) (t : Nat) (s : State), (Instr.abort w t).wf = true → s.calm = true → fromOuter w = true →
      Completes (.abort w t) s fun u => 
        u.now = max s.now t ∧
        RegsOnly [] s u ∧
        { u with regs := s.regs, now := s.now, hot := s.hot } = s :)
    ∧ (∀ (w : Writer) (t : Nat) (s : State), (Instr.abort w t).wf = true → s.calm = true → s.mayWrite w (pgBcp 4) .bcp = true → (s.powered (pgBcp 4) = false ∨ (s.pageH (pgBcp 4)).resetting = true) →
      Completes (.abort w t) s fun u => 
        u.fld (pgBcp 4) 0x018 31 16 = min 65535 (s.fld (pgBcp 4) 0x018 31 16 + 1) ∧
        u.fld (pgBcp 4) 0x018 13 12 = 3 ∧
        u.now = max s.now t ∧
        RegsOnly [pgBcp 4] s u ∧
        { u with regs := s.regs, now := s.now, hot := s.hot } = s :)
    ∧ (∀ (w : Writer) (sec tile t sp : Nat) (s : State), (Instr.tileUpdate w sec tile t).wf = true → s.calm = true → s.mayWrite w (pgBcp 4) .bcp = true → s.powered (pgBcp 4) = true → (s.pageH (pgBcp 4)).resetting = false → s.readySpare tile = some sp → (s.tileH tile).work = true → s.ready (pgTile tile) = true →
      Completes (.tileUpdate w sec tile t) s fun u => 
        u.rd (pgBcp 4) 0x070 = 2 ^ 29 + sp ∧
        u.fld (pgTile tile) 0x0A4 31 29 = 1 ∧
        u.fld (pgTile tile) 0x0A4 6 0 = sp ∧
        (u.bcp.tupd.map (fun y => (y.1, y.2.1)) = some (tile, sp)) ∧
        (u.tileH tile).spare = some (true, sp, max s.now t) ∧
        (∀ a, a < tileBase sp ∨ tileBase (sp + 1) ≤ a → u.byte a = s.byte a) :)
    ∧ (∀ (w : Writer) (sec tile t sp : Nat) (s : State), (Instr.tileUpdate w sec tile t).wf = true → s.calm = true → s.mayWrite w (pgBcp 4) .bcp = true → s.powered (pgBcp 4) = true → (s.pageH (pgBcp 4)).resetting = false → s.readySpare tile = some sp → ((s.tileH tile).work = false ∨ s.ready (pgTile tile) = false) →
      Completes (.tileUpdate w sec tile t) s fun u => 
        u.rd (pgBcp 4) 0x070 = 4 * 2 ^ 29 + sp ∧
        u.getB (pgBcp 4) 0x010 17 = true ∧
        u.bcp = s.bcp ∧
        (∀ a, a < tileBase sp ∨ tileBase (sp + 1) ≤ a → u.byte a = s.byte a) :)
    ∧ (∀ (w : Writer) (sec tile t : Nat) (s : State), (Instr.tileUpdate w sec tile t).wf = true → s.calm = true → s.mayWrite w (pgBcp 4) .bcp = true → s.powered (pgBcp 4) = true → (s.pageH (pgBcp 4)).resetting = false → s.readySpare tile = none →
      Completes (.tileUpdate w sec tile t) s fun u => 
        u.rd (pgBcp 4) 0x070 = 4 * 2 ^ 29 ∧
        u.getB (pgBcp 4) 0x010 17 = true ∧
        u.log = ((s.upTo t).logEvent 0x0011 1 0xFFFF (tile + 4 * 2 ^ 16)).log ∧
        u.now = max s.now t ∧
        RegsOnly [pgBcp 4, pgBcp 1] s u ∧
        { u with regs := s.regs, now := s.now, hot := s.hot, log := s.log } = s :)
    ∧ (∀ (w : Writer) (sec tile t : Nat) (s : State), (Instr.tileUpdate w sec tile t).wf = true → s.mayWrite w (pgBcp 4) .bcp = true → s.powered (pgBcp 4) = true → (s.pageH (pgBcp 4)).resetting = false → s.bcp.tupd.isSome = true → ({ s with bcp := { s.bcp with tupd := none } } : State).calm = true → (s.bcp.tupd.any fun x => s.fld (pgTile x.1) 0x0A4 31 29 == 3 || s.fld (pgTile x.1) 0x0A4 31 29 == 4) = false →
      Completes (.tileUpdate w sec tile t) s fun u => 
        u.now = max s.now t ∧
        RegsOnly [] s u ∧
        { u with regs := s.regs, now := s.now, hot := s.hot } = s :)
    ∧ (∀ (w : Writer) (sec tile t : Nat) (s : State), (Instr.tileUpdate w sec tile t).wf = true → s.calm = true → fromOuter w = true →
      Completes (.tileUpdate w sec tile t) s fun u => 
        u.now = max s.now t ∧
        RegsOnly [] s u ∧
        { u with regs := s.regs, now := s.now, hot := s.hot } = s :)
    ∧ (∀ (w : Writer) (sec tile t : Nat) (s : State), (Instr.tileUpdate w sec tile t).wf = true → s.calm = true → s.mayWrite w (pgBcp 4) .bcp = true → (s.powered (pgBcp 4) = false ∨ (s.pageH (pgBcp 4)).resetting = true) →
      Completes (.tileUpdate w sec tile t) s fun u => 
        u.fld (pgBcp 4) 0x018 31 16 = min 65535 (s.fld (pgBcp 4) 0x018 31 16 + 1) ∧
        u.fld (pgBcp 4) 0x018 13 12 = 3 ∧
        u.now = max s.now t ∧
        RegsOnly [pgBcp 4] s u ∧
        { u with regs := s.regs, now := s.now, hot := s.hot } = s :)

/-- The release of power-on reset of a module that is held or has not booted starts a new session, keeps keys, flash and fuses and makes a cold boot; where no bank verifies the module stands in RECOVERY at cycle 0 with empty memory and nothing else powered; a running module does not reset. A RESTART or a watchdog reset of Basecamp is a warm boot with its cause that cuts its update off, counts, and leaves memory, tiles, outputs and engines of the running functions; the watchdog’s makes a TRIAL bank INVALID; a RESTART by another party does nothing. Pending log records go to flash, the oldest 2,048 lost where it is full; the eighth word of KEY_DATA sets the key of the selected slot. -/
def Obligations.Boots : Prop :=
    (∀ (s : State), (Instr.powerOnReset).wf = true → (s.bcp.booted = false ∨ s.bcp.held = true) → ((List.range 2).all fun x => !((s.bankState' x == 2 || s.bankState' x == 3) && s.verifies x)) = true →
      Completes (.powerOnReset) s fun u => 
        u.bcp.booted = true ∧
        u.bcp.held = false ∧
        u.now = 0 ∧
        u.mem = [] ∧
        u.tiles = [] ∧
        u.getB (pgBcp 0) 0x04C 28 = true ∧
        (u.bcp.keys = s.bcp.keys.map (fun k => { k with last := none })) ∧
        u.bcp.imgA = s.bcp.imgA ∧ u.bcp.imgB = s.bcp.imgB ∧ u.bcp.fuses = s.bcp.fuses ∧ u.bcp.repairs = s.bcp.repairs ∧ u.bcp.store = s.bcp.store ∧
        u.log.flash = s.log.flash ∧
        u.getB (pgBcp 0) 0x04C 31 = false ∧
        (∀ q ∈ allPages, u.powered q = decide (q ≤ 0x14)) ∧
        u.bcp.jobs = [] ∧
        u.pending = s.pending ∧
        u.out = s.out :)
    ∧ (∀ (s : State), (Instr.powerOnReset).wf = true → (s.bcp.booted = false ∨ s.bcp.held = true) → s.bcp.store = [] →
      Completes (.powerOnReset) s fun u => 
        u.bcp.booted = true ∧
        u.bcp.held = false ∧
        (u.bcp.keys = s.bcp.keys.map (fun k => { k with last := none })) ∧
        u.bcp.imgA = s.bcp.imgA ∧ u.bcp.imgB = s.bcp.imgB ∧ u.bcp.fuses = s.bcp.fuses ∧ u.bcp.repairs = s.bcp.repairs ∧ u.bcp.store = s.bcp.store ∧
        u.getB (pgBcp 0) 0x04C 31 = false ∧
        u.getB (pgBcp 0) 0x04C 28 = !s.chooseBank.isSome ∧
        u.bcp.jobs = [] ∧
        u.pending = s.pending :)
    ∧ (∀ (s : State), (Instr.powerOnReset).wf = true → (s.bcp.booted = false ∨ s.bcp.held = true) →
      Completes (.powerOnReset) s fun u => 
        u.bcp.booted = true ∧
        u.bcp.held = false ∧
        u.pending = s.pending :)
    ∧ (∀ (s : State), (Instr.powerOnReset).wf = true → s.calm = true → s.bcp.booted = true →
      Completes (.powerOnReset) s fun u => 
        u = s :)
    ∧ (∀ (w : Writer) (t : Nat) (s : State), (Instr.restart w t).wf = true → s.calm = true → s.mayWrite w (pgBcp 0) .bcp = true → s.powered (pgBcp 0) = true → (s.pageH (pgBcp 0)).resetting = false → s.inRecovery = false →
      Completes (.restart w t) s fun u => 
        u.getB (pgBcp 0) 0x04C 31 = true ∧
        u.fld (pgBcp 0) 0x04C 27 24 = 2 ∧
        u.fld (pgBcp 0) 0x04C 15 0 = min 65535 (s.fld (pgBcp 0) 0x04C 15 0 + 1) ∧
        u.bcp.upd = none ∧
        (u.bcp.keys = s.bcp.keys.map (fun k => { k with last := none })) ∧
        u.bcp.srcs = [] ∧
        u.bcp.start = max s.now t ∧
        u.bcp.jobs = [] ∧
        u.out = s.out ∧
        u.log.warm = true ∧
        u.mem = s.mem ∧ u.tiles = s.tiles ∧ u.souts = s.souts ∧ u.ports = s.ports ∧ u.strs = s.strs ∧ u.trkIn = s.trkIn ∧ u.arsView = s.arsView ∧ u.tfe = s.tfe ∧ u.slots = s.slots ∧ u.banks = s.banks :)
    ∧ (∀ (w : Writer) (t : Nat) (s : State), (Instr.restart w t).wf = true → s.calm = true → s.mayWrite w (pgBcp 0) .bcp = true → s.powered (pgBcp 0) = true → (s.pageH (pgBcp 0)).resetting = false → s.inRecovery = true → ((List.range 2).all fun x => !((s.bankState' x == 2 || s.bankState' x == 3) && s.verifies x)) = true →
      Completes (.restart w t) s fun u => 
        u.getB (pgBcp 0) 0x04C 31 = true ∧
        u.fld (pgBcp 0) 0x04C 27 24 = 2 ∧
        u.fld (pgBcp 0) 0x04C 15 0 = min 65535 (s.fld (pgBcp 0) 0x04C 15 0 + 1) ∧
        u.bcp.upd = none ∧
        (u.bcp.keys = s.bcp.keys.map (fun k => { k with last := none })) ∧
        u.bcp.srcs = [] ∧
        u.bcp.start = max s.now t ∧
        u.bcp.jobs = [] ∧
        u.out = s.out ∧
        u.getB (pgBcp 0) 0x04C 28 = true ∧
        u.mem = s.mem ∧ u.tiles = s.tiles ∧ u.souts = s.souts ∧ u.ports = s.ports ∧ u.strs = s.strs ∧ u.trkIn = s.trkIn ∧ u.arsView = s.arsView ∧ u.tfe = s.tfe ∧ u.slots = s.slots ∧ u.banks = s.banks :)
    ∧ (∀ (w : Writer) (t : Nat) (s : State), (Instr.restart w t).wf = true → s.calm = true → s.mayWrite w (pgBcp 0) .bcp = true → s.powered (pgBcp 0) = true → (s.pageH (pgBcp 0)).resetting = false →
      Completes (.restart w t) s fun u => 
        u.getB (pgBcp 0) 0x04C 31 = true ∧
        u.fld (pgBcp 0) 0x04C 27 24 = 2 ∧
        u.getB (pgBcp 0) 0x04C 28 = !s.chooseBank.isSome :)
    ∧ (∀ (w : Writer) (t : Nat) (s : State), (Instr.restart w t).wf = true → s.calm = true → fromOuter w = true →
      Completes (.restart w t) s fun u => 
        u.now = max s.now t ∧
        RegsOnly [] s u ∧
        { u with regs := s.regs, now := s.now, hot := s.hot } = s :)
    ∧ (∀ (w : Writer) (t : Nat) (s : State), (Instr.restart w t).wf = true → s.calm = true → s.mayWrite w (pgBcp 0) .bcp = true → (s.powered (pgBcp 0) = false ∨ (s.pageH (pgBcp 0)).resetting = true) →
      Completes (.restart w t) s fun u => 
        u.fld (pgBcp 0) 0x018 31 16 = min 65535 (s.fld (pgBcp 0) 0x018 31 16 + 1) ∧
        u.fld (pgBcp 0) 0x018 13 12 = 3 ∧
        u.now = max s.now t ∧
        RegsOnly [pgBcp 0] s u ∧
        { u with regs := s.regs, now := s.now, hot := s.hot } = s :)
    ∧ (∀ (cause t : Nat) (s : State), (Instr.basecampReset cause t).wf = true → s.calm = true → s.inRecovery = false →
      Completes (.basecampReset cause t) s fun u => 
        u.getB (pgBcp 0) 0x04C 31 = true ∧
        u.fld (pgBcp 0) 0x04C 27 24 = 1 ∧
        u.fld (pgBcp 0) 0x04C 15 0 = min 65535 (s.fld (pgBcp 0) 0x04C 15 0 + 1) ∧
        u.bcp.upd = none ∧
        (u.bcp.keys = s.bcp.keys.map (fun k => { k with last := none })) ∧
        u.bcp.srcs = [] ∧
        u.bcp.start = max s.now t ∧
        u.bcp.jobs = [] ∧
        u.out = s.out ∧
        (s.bankState' s.runBank = 3 → u.bankState' s.runBank = 1) ∧
        (s.bankState' s.runBank ≠ 3 → u.bankState' s.runBank = s.bankState' s.runBank) ∧
        u.bankState' (1 - s.runBank) = s.bankState' (1 - s.runBank) ∧
        u.mem = s.mem ∧ u.tiles = s.tiles ∧ u.souts = s.souts ∧ u.ports = s.ports ∧ u.strs = s.strs ∧ u.trkIn = s.trkIn ∧ u.arsView = s.arsView ∧ u.tfe = s.tfe ∧ u.slots = s.slots ∧ u.banks = s.banks :)
    ∧ (∀ (cause t : Nat) (s : State), (Instr.basecampReset cause t).wf = true → s.calm = true → s.inRecovery = true → ((List.range 2).all fun x => !((s.bankState' x == 2 || s.bankState' x == 3) && s.verifies x)) = true →
      Completes (.basecampReset cause t) s fun u => 
        u.getB (pgBcp 0) 0x04C 31 = true ∧
        u.fld (pgBcp 0) 0x04C 27 24 = 1 ∧
        u.fld (pgBcp 0) 0x04C 15 0 = min 65535 (s.fld (pgBcp 0) 0x04C 15 0 + 1) ∧
        u.bcp.upd = none ∧
        (u.bcp.keys = s.bcp.keys.map (fun k => { k with last := none })) ∧
        u.bcp.srcs = [] ∧
        u.bcp.start = max s.now t ∧
        u.bcp.jobs = [] ∧
        u.out = s.out ∧
        u.getB (pgBcp 0) 0x04C 28 = true ∧
        u.bankState' s.runBank = s.bankState' s.runBank ∧
        u.mem = s.mem ∧ u.tiles = s.tiles ∧ u.souts = s.souts ∧ u.ports = s.ports ∧ u.strs = s.strs ∧ u.trkIn = s.trkIn ∧ u.arsView = s.arsView ∧ u.tfe = s.tfe ∧ u.slots = s.slots ∧ u.banks = s.banks :)
    ∧ (∀ (cause t : Nat) (s : State), (Instr.basecampReset cause t).wf = true → s.calm = true → s.inRecovery = true →
      Completes (.basecampReset cause t) s fun u => 
        u.getB (pgBcp 0) 0x04C 31 = true ∧
        u.fld (pgBcp 0) 0x04C 27 24 = 1 ∧
        u.getB (pgBcp 0) 0x04C 28 = !s.chooseBank.isSome :)
    ∧ (∀ (t : Nat) (s : State), (Instr.logFlush t).wf = true → s.calm = true → s.log.staged ≠ [] →
      Completes (.logFlush t) s fun u => 
        (u.log = { s.log with flash := (s.log.flash ++ s.log.staged).drop (if 524288 < s.log.flash.length + s.log.staged.length then 2048 else 0), staged := [] }) ∧
        u.fld (pgBcp 1) 0x048 31 24 = 0 ∧
        u.getB (pgBcp 1) 0x010 16 = true ∧
        u.now = max s.now t ∧
        RegsOnly [pgBcp 1] s u ∧
        { u with regs := s.regs, now := s.now, hot := s.hot, log := s.log } = s :)
    ∧ (∀ (t : Nat) (s : State), (Instr.logFlush t).wf = true → s.calm = true → s.log.staged = [] →
      Completes (.logFlush t) s fun u => 
        u.now = max s.now t ∧
        RegsOnly [] s u ∧
        { u with regs := s.regs, now := s.now, hot := s.hot } = s :)
    ∧ (∀ (w : Writer) (i word t : Nat) (s : State), (Instr.bcpKeyData w i word t).wf = true → s.calm = true → s.mayWrite w (pgBcp 7) .bcp = true → s.powered (pgBcp 7) = true → (s.pageH (pgBcp 7)).resetting = false → i < 7 →
      Completes (.bcpKeyData w i word t) s fun u => 
        u.bcp = { s.bcp with keyBuf := setAt s.bcp.keyBuf i word } ∧
        u.now = max s.now t ∧
        RegsOnly [pgBcp 7] s u ∧
        { u with regs := s.regs, now := s.now, hot := s.hot, bcp := s.bcp } = s :)
    ∧ (∀ (w : Writer) (word t n : Nat) (s : State), (Instr.bcpKeyData w 7 word t).wf = true → s.calm = true → s.mayWrite w (pgBcp 7) .bcp = true → s.powered (pgBcp 7) = true → (s.pageH (pgBcp 7)).resetting = false → n = s.fld (pgBcp 7) 0x040 2 0 →
      Completes (.bcpKeyData w 7 word t) s fun u => 
        u.bcp = { s.bcp with keyBuf := setAt s.bcp.keyBuf 7 word, keys := setAt s.bcp.keys n { s.bcp.keys.getD n {} with key := some (ofWords (setAt s.bcp.keyBuf 7 word)) } } ∧
        u.now = max s.now t ∧
        RegsOnly [pgBcp 7] s u ∧
        { u with regs := s.regs, now := s.now, hot := s.hot, bcp := s.bcp } = s :)
    ∧ (∀ (w : Writer) (i word t : Nat) (s : State), (Instr.bcpKeyData w i word t).wf = true → s.calm = true → fromOuter w = true →
      Completes (.bcpKeyData w i word t) s fun u => 
        u.now = max s.now t ∧
        RegsOnly [] s u ∧
        { u with regs := s.regs, now := s.now, hot := s.hot } = s :)
    ∧ (∀ (w : Writer) (i word t : Nat) (s : State), (Instr.bcpKeyData w i word t).wf = true → s.calm = true → s.mayWrite w (pgBcp 7) .bcp = true → (s.powered (pgBcp 7) = false ∨ (s.pageH (pgBcp 7)).resetting = true) →
      Completes (.bcpKeyData w i word t) s fun u => 
        u.fld (pgBcp 7) 0x018 31 16 = min 65535 (s.fld (pgBcp 7) 0x018 31 16 + 1) ∧
        u.fld (pgBcp 7) 0x018 13 12 = 3 ∧
        u.now = max s.now t ∧
        RegsOnly [pgBcp 7] s u ∧
        { u with regs := s.regs, now := s.now, hot := s.hot } = s :)

/-- With the servo on and no MASTER, a Sync shows its offset, saturated, and counts the good and bad ones in a row: the eighth good one locks the servo, the fourth bad one unlocks it, each recorded; the first lock steps track 0 to PTP time; later an offset of 1 ms or more steps WALL by it, a smaller one slews it at a free rate, none leaves it; 8 s without Sync unlock a locked servo and clear the counts of any. ENTER and OFF run the entry, keep what was enabled and the banks’ power, disable ports and tiles and show ENTERING; each is refused with its reason while an output is armed, an update runs or the module is not ACTIVE. The end of the entry shows BIVOUAC with the compute blocks unpowered, or OFF with everything unpowered but Basecamp and the rope ports and teams; or a wake held meanwhile exits at once. A wake is held in ENTERING, shows WAKING with its source from BIVOUAC and OFF, powers the blocks of the dies unless they were too hot, is not taken in OFF while a sensor stands at WARN after CRIT, and has no effect in ACTIVE and WAKING; a datagram’s is answered 0, 9 there, 2 below its right. The end of the exit shows ACTIVE with a record. Turned-away writers do nothing. -/
def Obligations.TimeAndBivouac : Prop :=
    (∀ (ofs : Int) (ptp t : Nat) (s : State), (Instr.ptpSync ofs ptp t).wf = true → s.calm = true → s.getB (pgBcp 3) 0x040 31 = true → s.getB (pgBcp 3) 0x044 29 = false → s.wall.everLocked = false → s.wall.locked = false → (if 8 ≤ (if ofs.natAbs ≤ 1000 then s.bcp.good + 1 else 0) then s.wall.locked = true else (if 10000 < ofs.natAbs then s.bcp.bad + 1 else 0) < 4 ∨ s.wall.locked = false) →
      Completes (.ptpSync ofs ptp t) s fun u => 
        u.rd (pgBcp 3) 0x048 = ofS 32 (satS 32 ofs) ∧
        (u.bcp = { s.bcp with good := min 8 (if ofs.natAbs ≤ 1000 then s.bcp.good + 1 else 0), bad := min 4 (if 10000 < ofs.natAbs then s.bcp.bad + 1 else 0), tSync := t }) ∧
        (u.fld (pgBcp 3) 0x044 31 30 = (if s.fld (pgBcp 3) 0x044 31 30 = 0 then 1 else s.fld (pgBcp 3) 0x044 31 30)) ∧
        u.now = max s.now t ∧
        RegsOnly [pgBcp 3] s u ∧
        { u with regs := s.regs, now := s.now, hot := s.hot, bcp := s.bcp } = s :)
    ∧ (∀ (ofs : Int) (ptp t : Nat) (s : State), (Instr.ptpSync ofs ptp t).wf = true → s.calm = true → s.getB (pgBcp 3) 0x040 31 = true → s.getB (pgBcp 3) 0x044 29 = false → s.wall.everLocked = false → s.wall.locked = false → 8 ≤ (if ofs.natAbs ≤ 1000 then s.bcp.good + 1 else 0) → s.wall.locked = false →
      Completes (.ptpSync ofs ptp t) s fun u => 
        u.rd (pgBcp 3) 0x048 = ofS 32 (satS 32 ofs) ∧
        (u.bcp = { s.bcp with good := min 8 (if ofs.natAbs ≤ 1000 then s.bcp.good + 1 else 0), bad := min 4 (if 10000 < ofs.natAbs then s.bcp.bad + 1 else 0), tSync := t }) ∧
        u.fld (pgBcp 3) 0x044 31 30 = 2 ∧
        u.getB (pgBcp 3) 0x010 16 = true ∧
        u.wall = { s.wall with locked := true, everLocked := true, t0 := max s.now t, p0 := s.wall.pos (max s.now t) + ((ptp : Rat) / 2 ^ 32 - s.wall.pos t), rate := 1 } ∧
        u.trk = (s.setTrk 0 { s.trkH 0 with jumpAt := some (s.wall.pos (max s.now t) + ((ptp : Rat) / 2 ^ 32 - s.wall.pos t)), jump := tposOf ((ptp : Rat) / 2 ^ 32 - s.wall.pos t) }).trk ∧
        u.getB (pgTrk 0) 0x010 17 = true ∧
        u.fld (pgBcp 3) 0x04C 31 0 = min 4294967295 (s.fld (pgBcp 3) 0x04C 31 0 + 1) ∧
        u.log = (({ (({ s.upTo t with wall := { s.wall with locked := true } } : State).logEvent 0x00A0 1 0xFFFF 1) with wall := u.wall } : State).logEvent 0x00A0 1 0xFFFF (2 + ofS 64 (ratNearest (((ptp : Rat) / 2 ^ 32 - s.wall.pos t) * 1000000000)) * 2 ^ 8)).log ∧
        u.now = max s.now t ∧
        RegsOnly [pgBcp 1, pgBcp 3, pgTrk 0] s u ∧
        { u with regs := s.regs, now := s.now, hot := s.hot, bcp := s.bcp, wall := s.wall, trk := s.trk, log := s.log } = s :)
    ∧ (∀ (ofs : Int) (ptp t : Nat) (s : State), (Instr.ptpSync ofs ptp t).wf = true → s.calm = true → s.getB (pgBcp 3) 0x040 31 = true → s.getB (pgBcp 3) 0x044 29 = false → s.wall.everLocked = true → ofs = 0 → (if 8 ≤ (if ofs.natAbs ≤ 1000 then s.bcp.good + 1 else 0) then s.wall.locked = true else (if 10000 < ofs.natAbs then s.bcp.bad + 1 else 0) < 4 ∨ s.wall.locked = false) →
      Completes (.ptpSync ofs ptp t) s fun u => 
        u.rd (pgBcp 3) 0x048 = ofS 32 (satS 32 ofs) ∧
        (u.bcp = { s.bcp with good := min 8 (if ofs.natAbs ≤ 1000 then s.bcp.good + 1 else 0), bad := min 4 (if 10000 < ofs.natAbs then s.bcp.bad + 1 else 0), tSync := t }) ∧
        (u.fld (pgBcp 3) 0x044 31 30 = (if s.fld (pgBcp 3) 0x044 31 30 = 0 then 1 else s.fld (pgBcp 3) 0x044 31 30)) ∧
        u.now = max s.now t ∧
        RegsOnly [pgBcp 3] s u ∧
        { u with regs := s.regs, now := s.now, hot := s.hot, bcp := s.bcp } = s :)
    ∧ (∀ (ofs : Int) (ptp t : Nat) (s : State), (Instr.ptpSync ofs ptp t).wf = true → s.calm = true → s.getB (pgBcp 3) 0x040 31 = true → s.getB (pgBcp 3) 0x044 29 = false → s.wall.everLocked = true → ofs = 0 → 8 ≤ (if ofs.natAbs ≤ 1000 then s.bcp.good + 1 else 0) → s.wall.locked = false →
      Completes (.ptpSync ofs ptp t) s fun u => 
        u.rd (pgBcp 3) 0x048 = ofS 32 (satS 32 ofs) ∧
        (u.bcp = { s.bcp with good := min 8 (if ofs.natAbs ≤ 1000 then s.bcp.good + 1 else 0), bad := min 4 (if 10000 < ofs.natAbs then s.bcp.bad + 1 else 0), tSync := t }) ∧
        u.fld (pgBcp 3) 0x044 31 30 = 2 ∧
        u.getB (pgBcp 3) 0x010 16 = true ∧
        u.wall = { s.wall with locked := true } ∧
        u.log = (({ s.upTo t with wall := { s.wall with locked := true } } : State).logEvent 0x00A0 1 0xFFFF 1).log ∧
        u.now = max s.now t ∧
        RegsOnly [pgBcp 3, pgBcp 1] s u ∧
        { u with regs := s.regs, now := s.now, hot := s.hot, bcp := s.bcp, wall := s.wall, log := s.log } = s :)
    ∧ (∀ (ofs : Int) (ptp t : Nat) (s : State), (Instr.ptpSync ofs ptp t).wf = true → s.calm = true → s.getB (pgBcp 3) 0x040 31 = true → s.getB (pgBcp 3) 0x044 29 = false → s.wall.everLocked = true → ofs ≠ 0 → ofs.natAbs < 1000000 → (if 8 ≤ (if ofs.natAbs ≤ 1000 then s.bcp.good + 1 else 0) then s.wall.locked = true else (if 10000 < ofs.natAbs then s.bcp.bad + 1 else 0) < 4 ∨ s.wall.locked = false) →
      Completes (.ptpSync ofs ptp t) s fun u => 
        u.rd (pgBcp 3) 0x048 = ofS 32 (satS 32 ofs) ∧
        (u.bcp = { s.bcp with good := min 8 (if ofs.natAbs ≤ 1000 then s.bcp.good + 1 else 0), bad := min 4 (if 10000 < ofs.natAbs then s.bcp.bad + 1 else 0), tSync := t }) ∧
        (u.fld (pgBcp 3) 0x044 31 30 = (if s.fld (pgBcp 3) 0x044 31 30 = 0 then 1 else s.fld (pgBcp 3) 0x044 31 30)) ∧
        u.wall = { s.wall with locked := s.wall.locked, t0 := t, p0 := s.wall.pos t, rate := Config.slewRate ofs s.free } ∧
        u.free = s.free + 1 ∧
        u.now = max s.now t ∧
        RegsOnly [pgBcp 3] s u ∧
        { u with regs := s.regs, now := s.now, hot := s.hot, bcp := s.bcp, free := s.free, wall := s.wall } = s :)
    ∧ (∀ (ofs : Int) (ptp t : Nat) (s : State), (Instr.ptpSync ofs ptp t).wf = true → s.calm = true → s.getB (pgBcp 3) 0x040 31 = true → s.getB (pgBcp 3) 0x044 29 = false → s.wall.everLocked = true → ofs ≠ 0 → ofs.natAbs < 1000000 → 8 ≤ (if ofs.natAbs ≤ 1000 then s.bcp.good + 1 else 0) → s.wall.locked = false →
      Completes (.ptpSync ofs ptp t) s fun u => 
        u.rd (pgBcp 3) 0x048 = ofS 32 (satS 32 ofs) ∧
        (u.bcp = { s.bcp with good := min 8 (if ofs.natAbs ≤ 1000 then s.bcp.good + 1 else 0), bad := min 4 (if 10000 < ofs.natAbs then s.bcp.bad + 1 else 0), tSync := t }) ∧
        u.fld (pgBcp 3) 0x044 31 30 = 2 ∧
        u.getB (pgBcp 3) 0x010 16 = true ∧
        u.wall = { s.wall with locked := true, t0 := t, p0 := s.wall.pos t, rate := Config.slewRate ofs s.free } ∧
        u.free = s.free + 1 ∧
        u.log = (({ s.upTo t with wall := { s.wall with locked := true } } : State).logEvent 0x00A0 1 0xFFFF 1).log ∧
        u.now = max s.now t ∧
        RegsOnly [pgBcp 3, pgBcp 1] s u ∧
        { u with regs := s.regs, now := s.now, hot := s.hot, bcp := s.bcp, wall := s.wall, log := s.log, free := s.free } = s :)
    ∧ (∀ (ofs : Int) (ptp t : Nat) (s : State), (Instr.ptpSync ofs ptp t).wf = true → s.calm = true → s.getB (pgBcp 3) 0x040 31 = true → s.getB (pgBcp 3) 0x044 29 = false → s.wall.everLocked = true → ofs ≠ 0 → ofs.natAbs < 1000000 → (if ofs.natAbs ≤ 1000 then s.bcp.good + 1 else 0) < 8 → 4 ≤ (if 10000 < ofs.natAbs then s.bcp.bad + 1 else 0) → s.wall.locked = true →
      Completes (.ptpSync ofs ptp t) s fun u => 
        u.rd (pgBcp 3) 0x048 = ofS 32 (satS 32 ofs) ∧
        (u.bcp = { s.bcp with good := min 8 (if ofs.natAbs ≤ 1000 then s.bcp.good + 1 else 0), bad := min 4 (if 10000 < ofs.natAbs then s.bcp.bad + 1 else 0), tSync := t }) ∧
        u.fld (pgBcp 3) 0x044 31 30 = 1 ∧
        u.getB (pgBcp 3) 0x010 16 = true ∧
        u.getB (pgTrk 0) 0x010 16 = true ∧
        u.fld (pgTrk 0) 0x098 15 0 = min 65535 (s.fld (pgTrk 0) 0x098 15 0 + 1) ∧
        u.wall = { s.wall with locked := false, t0 := t, p0 := s.wall.pos t, rate := Config.slewRate ofs s.free } ∧
        u.free = s.free + 1 ∧
        u.log = (({ s.upTo t with wall := { s.wall with locked := false } } : State).logEvent 0x00A0 1 0xFFFF 0).log ∧
        u.now = max s.now t ∧
        RegsOnly [pgBcp 3, pgBcp 1, pgTrk 0] s u ∧
        { u with regs := s.regs, now := s.now, hot := s.hot, bcp := s.bcp, wall := s.wall, log := s.log, free := s.free } = s :)
    ∧ (∀ (ofs : Int) (ptp t : Nat) (s : State), (Instr.ptpSync ofs ptp t).wf = true → s.calm = true → s.getB (pgBcp 3) 0x040 31 = true → s.getB (pgBcp 3) 0x044 29 = false → s.wall.everLocked = true → 1000000 ≤ ofs.natAbs → (if 8 ≤ (if ofs.natAbs ≤ 1000 then s.bcp.good + 1 else 0) then s.wall.locked = true else (if 10000 < ofs.natAbs then s.bcp.bad + 1 else 0) < 4 ∨ s.wall.locked = false) →
      Completes (.ptpSync ofs ptp t) s fun u => 
        u.rd (pgBcp 3) 0x048 = ofS 32 (satS 32 ofs) ∧
        (u.bcp = { s.bcp with good := min 8 (if ofs.natAbs ≤ 1000 then s.bcp.good + 1 else 0), bad := min 4 (if 10000 < ofs.natAbs then s.bcp.bad + 1 else 0), tSync := t }) ∧
        (u.fld (pgBcp 3) 0x044 31 30 = (if s.fld (pgBcp 3) 0x044 31 30 = 0 then 1 else s.fld (pgBcp 3) 0x044 31 30)) ∧
        u.wall = { s.wall with locked := s.wall.locked, t0 := max s.now t, p0 := s.wall.pos (max s.now t) + (-(ofs : Rat) / 1000000000), rate := 1 } ∧
        u.trk = (s.setTrk 0 { s.trkH 0 with jumpAt := some (s.wall.pos (max s.now t) + (-(ofs : Rat) / 1000000000)), jump := tposOf (-(ofs : Rat) / 1000000000) }).trk ∧
        u.getB (pgTrk 0) 0x010 17 = true ∧
        u.fld (pgBcp 3) 0x04C 31 0 = min 4294967295 (s.fld (pgBcp 3) 0x04C 31 0 + 1) ∧
        u.log = (({ s.upTo t with wall := u.wall } : State).logEvent 0x00A0 1 0xFFFF (2 + ofS 64 (ratNearest ((-(ofs : Rat) / 1000000000) * 1000000000)) * 2 ^ 8)).log ∧
        u.now = max s.now t ∧
        RegsOnly [pgBcp 1, pgBcp 3, pgTrk 0] s u ∧
        { u with regs := s.regs, now := s.now, hot := s.hot, bcp := s.bcp, wall := s.wall, trk := s.trk, log := s.log } = s :)
    ∧ (∀ (ofs : Int) (ptp t : Nat) (s : State), (Instr.ptpSync ofs ptp t).wf = true → s.calm = true → s.getB (pgBcp 3) 0x040 31 = true → s.getB (pgBcp 3) 0x044 29 = false → s.wall.everLocked = true → 1000000 ≤ ofs.natAbs → (if ofs.natAbs ≤ 1000 then s.bcp.good + 1 else 0) < 8 → 4 ≤ (if 10000 < ofs.natAbs then s.bcp.bad + 1 else 0) → s.wall.locked = true →
      Completes (.ptpSync ofs ptp t) s fun u => 
        u.rd (pgBcp 3) 0x048 = ofS 32 (satS 32 ofs) ∧
        (u.bcp = { s.bcp with good := min 8 (if ofs.natAbs ≤ 1000 then s.bcp.good + 1 else 0), bad := min 4 (if 10000 < ofs.natAbs then s.bcp.bad + 1 else 0), tSync := t }) ∧
        u.fld (pgBcp 3) 0x044 31 30 = 1 ∧
        u.getB (pgBcp 3) 0x010 16 = true ∧
        u.getB (pgTrk 0) 0x010 16 = true ∧
        u.fld (pgTrk 0) 0x098 15 0 = min 65535 (s.fld (pgTrk 0) 0x098 15 0 + 1) ∧
        u.wall = { s.wall with locked := false, t0 := max s.now t, p0 := s.wall.pos (max s.now t) + (-(ofs : Rat) / 1000000000), rate := 1 } ∧
        u.trk = (s.setTrk 0 { s.trkH 0 with jumpAt := some (s.wall.pos (max s.now t) + (-(ofs : Rat) / 1000000000)), jump := tposOf (-(ofs : Rat) / 1000000000) }).trk ∧
        u.getB (pgTrk 0) 0x010 17 = true ∧
        u.fld (pgBcp 3) 0x04C 31 0 = min 4294967295 (s.fld (pgBcp 3) 0x04C 31 0 + 1) ∧
        u.log = (({ (({ s.upTo t with wall := { s.wall with locked := false } } : State).logEvent 0x00A0 1 0xFFFF 0) with wall := u.wall } : State).logEvent 0x00A0 1 0xFFFF (2 + ofS 64 (ratNearest ((-(ofs : Rat) / 1000000000) * 1000000000)) * 2 ^ 8)).log ∧
        u.now = max s.now t ∧
        RegsOnly [pgBcp 1, pgBcp 3, pgTrk 0] s u ∧
        { u with regs := s.regs, now := s.now, hot := s.hot, bcp := s.bcp, wall := s.wall, trk := s.trk, log := s.log } = s :)
    ∧ (∀ (ofs : Int) (ptp t : Nat) (s : State), (Instr.ptpSync ofs ptp t).wf = true → s.calm = true → (s.getB (pgBcp 3) 0x040 31 = false ∨ s.getB (pgBcp 3) 0x044 29 = true) →
      Completes (.ptpSync ofs ptp t) s fun u => 
        u.now = max s.now t ∧
        RegsOnly [] s u ∧
        { u with regs := s.regs, now := s.now, hot := s.hot } = s :)
    ∧ (∀ (t : Nat) (s : State), (Instr.syncTimeout t).wf = true → s.calm = true → s.bcp.tSync + 8 * cyclesPerS ≤ t → s.wall.locked = true →
      Completes (.syncTimeout t) s fun u => 
        u.wall = { s.wall with locked := false } ∧
        u.bcp = { s.bcp with good := 0, bad := 0 } ∧
        u.fld (pgBcp 3) 0x044 31 30 = b2n (s.getB (pgBcp 3) 0x040 31) ∧
        u.getB (pgBcp 3) 0x010 16 = true ∧
        u.getB (pgTrk 0) 0x010 16 = true ∧
        u.fld (pgTrk 0) 0x098 15 0 = min 65535 (s.fld (pgTrk 0) 0x098 15 0 + 1) ∧
        u.log = (({ s.upTo t with wall := { s.wall with locked := false } } : State).logEvent 0x00A0 1 0xFFFF 0).log ∧
        u.now = max s.now t ∧
        RegsOnly [pgBcp 3, pgTrk 0, pgBcp 1] s u ∧
        { u with regs := s.regs, now := s.now, hot := s.hot, bcp := s.bcp, wall := s.wall, log := s.log } = s :)
    ∧ (∀ (t : Nat) (s : State), (Instr.syncTimeout t).wf = true → s.calm = true → s.bcp.tSync + 8 * cyclesPerS ≤ t → s.wall.locked = false →
      Completes (.syncTimeout t) s fun u => 
        u.bcp = { s.bcp with good := 0, bad := 0 } ∧
        u.now = max s.now t ∧
        RegsOnly [] s u ∧
        { u with regs := s.regs, now := s.now, hot := s.hot, bcp := s.bcp } = s :)
    ∧ (∀ (t : Nat) (s : State), (Instr.syncTimeout t).wf = true → s.calm = true → t < s.bcp.tSync + 8 * cyclesPerS →
      Completes (.syncTimeout t) s fun u => 
        u.now = max s.now t ∧
        RegsOnly [] s u ∧
        { u with regs := s.regs, now := s.now, hot := s.hot } = s :)
    ∧ (∀ (w : Writer) (t : Nat) (s : State), (Instr.bivEnter w t).wf = true → s.calm = true → s.mayWrite w (pgBcp 5) .bcp = true → s.powered (pgBcp 5) = true → (s.pageH (pgBcp 5)).resetting = false → (∀ o ∈ List.range 64, s.isOff (pgSout o) = true) → s.updating = false → s.pstate' = 0 →
      Completes (.bivEnter w t) s fun u => 
        u.pstate' = 1 ∧
        u.fld (pgBcp 5) 0x044 23 16 = 0 ∧
        u.bcp.toOff = false ∧
        u.bcp.wakeHeld = none ∧
        (u.bcp.recorded = allPages.filter (fun x => s.enabled x)) ∧
        (u.bcp.pwrSaved = (pgEccD, s.rd pgEccD 0x044) :: ((List.range 16).map fun x => (pgEccC x, s.rd (pgEccC x) 0x044)) ++ (List.range 128).map fun x => (pgEccT x, s.rd (pgEccT x) 0x044)) ∧
        u.getB (pgBcp 5) 0x010 16 = true ∧
        (((List.range 512).all fun x => s.locked (pgSpt x) || !u.enabled (pgSpt x)) = true) ∧
        (((List.range 128).all fun x => s.locked (pgTile x) || !u.enabled (pgTile x)) = true) ∧
        u.log = s.log ∧
        u.rope = s.rope ∧ u.ropes = s.ropes ∧ u.teams = s.teams ∧ u.wall = s.wall :)
    ∧ (∀ (w : Writer) (t : Nat) (s : State), (Instr.bivEnter w t).wf = true → s.calm = true → s.mayWrite w (pgBcp 5) .bcp = true → s.powered (pgBcp 5) = true → (s.pageH (pgBcp 5)).resetting = false → ((List.range 64).all fun x => s.isOff (pgSout x)) = false →
      Completes (.bivEnter w t) s fun u => 
        u.fld (pgBcp 5) 0x044 23 16 = 1 ∧
        u.now = max s.now t ∧
        RegsOnly [pgBcp 5] s u ∧
        { u with regs := s.regs, now := s.now, hot := s.hot } = s :)
    ∧ (∀ (w : Writer) (t : Nat) (s : State), (Instr.bivEnter w t).wf = true → s.calm = true → s.mayWrite w (pgBcp 5) .bcp = true → s.powered (pgBcp 5) = true → (s.pageH (pgBcp 5)).resetting = false → (∀ o ∈ List.range 64, s.isOff (pgSout o) = true) → s.updating = true →
      Completes (.bivEnter w t) s fun u => 
        u.fld (pgBcp 5) 0x044 23 16 = 2 ∧
        u.now = max s.now t ∧
        RegsOnly [pgBcp 5] s u ∧
        { u with regs := s.regs, now := s.now, hot := s.hot } = s :)
    ∧ (∀ (w : Writer) (t : Nat) (s : State), (Instr.bivEnter w t).wf = true → s.calm = true → s.mayWrite w (pgBcp 5) .bcp = true → s.powered (pgBcp 5) = true → (s.pageH (pgBcp 5)).resetting = false → (∀ o ∈ List.range 64, s.isOff (pgSout o) = true) → s.updating = false → s.pstate' ≠ 0 →
      Completes (.bivEnter w t) s fun u => 
        u.fld (pgBcp 5) 0x044 23 16 = 3 ∧
        u.now = max s.now t ∧
        RegsOnly [pgBcp 5] s u ∧
        { u with regs := s.regs, now := s.now, hot := s.hot } = s :)
    ∧ (∀ (w : Writer) (t : Nat) (s : State), (Instr.bivEnter w t).wf = true → s.calm = true → fromOuter w = true →
      Completes (.bivEnter w t) s fun u => 
        u.now = max s.now t ∧
        RegsOnly [] s u ∧
        { u with regs := s.regs, now := s.now, hot := s.hot } = s :)
    ∧ (∀ (w : Writer) (t : Nat) (s : State), (Instr.bivEnter w t).wf = true → s.calm = true → s.mayWrite w (pgBcp 5) .bcp = true → (s.powered (pgBcp 5) = false ∨ (s.pageH (pgBcp 5)).resetting = true) →
      Completes (.bivEnter w t) s fun u => 
        u.fld (pgBcp 5) 0x018 31 16 = min 65535 (s.fld (pgBcp 5) 0x018 31 16 + 1) ∧
        u.fld (pgBcp 5) 0x018 13 12 = 3 ∧
        u.now = max s.now t ∧
        RegsOnly [pgBcp 5] s u ∧
        { u with regs := s.regs, now := s.now, hot := s.hot } = s :)
    ∧ (∀ (w : Writer) (t : Nat) (s : State), (Instr.bivOff w t).wf = true → s.calm = true → s.mayWrite w (pgBcp 5) .bcp = true → s.powered (pgBcp 5) = true → (s.pageH (pgBcp 5)).resetting = false → (∀ o ∈ List.range 64, s.isOff (pgSout o) = true) → s.updating = false → s.pstate' = 0 →
      Completes (.bivOff w t) s fun u => 
        u.pstate' = 1 ∧
        u.fld (pgBcp 5) 0x044 23 16 = 0 ∧
        u.bcp.toOff = true ∧
        u.bcp.wakeHeld = none ∧
        (u.bcp.recorded = allPages.filter (fun x => s.enabled x)) ∧
        (u.bcp.pwrSaved = (pgEccD, s.rd pgEccD 0x044) :: ((List.range 16).map fun x => (pgEccC x, s.rd (pgEccC x) 0x044)) ++ (List.range 128).map fun x => (pgEccT x, s.rd (pgEccT x) 0x044)) ∧
        u.getB (pgBcp 5) 0x010 16 = true ∧
        (((List.range 512).all fun x => s.locked (pgSpt x) || !u.enabled (pgSpt x)) = true) ∧
        (((List.range 128).all fun x => s.locked (pgTile x) || !u.enabled (pgTile x)) = true) ∧
        u.log = s.log ∧
        u.rope = s.rope ∧ u.ropes = s.ropes ∧ u.teams = s.teams ∧ u.wall = s.wall :)
    ∧ (∀ (w : Writer) (t : Nat) (s : State), (Instr.bivOff w t).wf = true → s.calm = true → s.mayWrite w (pgBcp 5) .bcp = true → s.powered (pgBcp 5) = true → (s.pageH (pgBcp 5)).resetting = false → ((List.range 64).all fun x => s.isOff (pgSout x)) = false →
      Completes (.bivOff w t) s fun u => 
        u.fld (pgBcp 5) 0x044 23 16 = 1 ∧
        u.now = max s.now t ∧
        RegsOnly [pgBcp 5] s u ∧
        { u with regs := s.regs, now := s.now, hot := s.hot } = s :)
    ∧ (∀ (w : Writer) (t : Nat) (s : State), (Instr.bivOff w t).wf = true → s.calm = true → s.mayWrite w (pgBcp 5) .bcp = true → s.powered (pgBcp 5) = true → (s.pageH (pgBcp 5)).resetting = false → (∀ o ∈ List.range 64, s.isOff (pgSout o) = true) → s.updating = true →
      Completes (.bivOff w t) s fun u => 
        u.fld (pgBcp 5) 0x044 23 16 = 2 ∧
        u.now = max s.now t ∧
        RegsOnly [pgBcp 5] s u ∧
        { u with regs := s.regs, now := s.now, hot := s.hot } = s :)
    ∧ (∀ (w : Writer) (t : Nat) (s : State), (Instr.bivOff w t).wf = true → s.calm = true → s.mayWrite w (pgBcp 5) .bcp = true → s.powered (pgBcp 5) = true → (s.pageH (pgBcp 5)).resetting = false → (∀ o ∈ List.range 64, s.isOff (pgSout o) = true) → s.updating = false → s.pstate' ≠ 0 →
      Completes (.bivOff w t) s fun u => 
        u.fld (pgBcp 5) 0x044 23 16 = 3 ∧
        u.now = max s.now t ∧
        RegsOnly [pgBcp 5] s u ∧
        { u with regs := s.regs, now := s.now, hot := s.hot } = s :)
    ∧ (∀ (w : Writer) (t : Nat) (s : State), (Instr.bivOff w t).wf = true → s.calm = true → fromOuter w = true →
      Completes (.bivOff w t) s fun u => 
        u.now = max s.now t ∧
        RegsOnly [] s u ∧
        { u with regs := s.regs, now := s.now, hot := s.hot } = s :)
    ∧ (∀ (w : Writer) (t : Nat) (s : State), (Instr.bivOff w t).wf = true → s.calm = true → s.mayWrite w (pgBcp 5) .bcp = true → (s.powered (pgBcp 5) = false ∨ (s.pageH (pgBcp 5)).resetting = true) →
      Completes (.bivOff w t) s fun u => 
        u.fld (pgBcp 5) 0x018 31 16 = min 65535 (s.fld (pgBcp 5) 0x018 31 16 + 1) ∧
        u.fld (pgBcp 5) 0x018 13 12 = 3 ∧
        u.now = max s.now t ∧
        RegsOnly [pgBcp 5] s u ∧
        { u with regs := s.regs, now := s.now, hot := s.hot } = s :)
    ∧ (∀ (w : Writer) (t : Nat) (s : State), (Instr.bivWake w t).wf = true → s.calm = true → s.mayWrite w (pgBcp 5) .bcp = true → s.powered (pgBcp 5) = true → (s.pageH (pgBcp 5)).resetting = false → s.pstate' = 1 →
      Completes (.bivWake w t) s fun u => 
        u.bcp.wakeHeld = some 3 ∧
        u.bcp = { s.bcp with wakeHeld := some 3 } ∧
        u.now = max s.now t ∧
        RegsOnly [] s u ∧
        { u with regs := s.regs, now := s.now, hot := s.hot, bcp := s.bcp } = s :)
    ∧ (∀ (w : Writer) (t : Nat) (s : State), (Instr.bivWake w t).wf = true → s.calm = true → s.mayWrite w (pgBcp 5) .bcp = true → s.powered (pgBcp 5) = true → (s.pageH (pgBcp 5)).resetting = false → s.pstate' = 2 → s.bcp.hot = false →
      Completes (.bivWake w t) s fun u => 
        u.pstate' = 3 ∧
        u.fld (pgBcp 5) 0x044 27 24 = 3 ∧
        u.getB (pgBcp 5) 0x010 16 = true ∧
        ((computePages.all fun x => u.powered x) = true) ∧
        ((s.bcp.recorded.all fun x => s.locked x || u.enabled x) = true) :)
    ∧ (∀ (w : Writer) (t : Nat) (s : State), (Instr.bivWake w t).wf = true → s.calm = true → s.mayWrite w (pgBcp 5) .bcp = true → s.powered (pgBcp 5) = true → (s.pageH (pgBcp 5)).resetting = false → s.pstate' = 2 → s.bcp.hot = true →
      Completes (.bivWake w t) s fun u => 
        u.pstate' = 3 ∧
        u.fld (pgBcp 5) 0x044 27 24 = 3 ∧
        u.getB (pgBcp 5) 0x010 16 = true ∧
        ((computePages.all fun x => u.powered x == s.powered x) = true) :)
    ∧ (∀ (w : Writer) (t : Nat) (s : State), (Instr.bivWake w t).wf = true → s.calm = true → s.mayWrite w (pgBcp 5) .bcp = true → s.powered (pgBcp 5) = true → (s.pageH (pgBcp 5)).resetting = false → s.pstate' = 4 → ¬(s.bcp.hot = true ∧ ((List.range 40).any fun x => decide (toS 16 (s.fld (pgPwr 3) 0x040 31 16) ≤ toS 16 (s.fld (pgPwr 3) (0x100 + 4 * x) 15 0))) = true) →
      Completes (.bivWake w t) s fun u => 
        u.pstate' = 3 ∧
        u.fld (pgBcp 5) 0x044 27 24 = 3 ∧
        u.getB (pgBcp 5) 0x010 16 = true :)
    ∧ (∀ (w : Writer) (t : Nat) (s : State), (Instr.bivWake w t).wf = true → s.calm = true → s.mayWrite w (pgBcp 5) .bcp = true → s.powered (pgBcp 5) = true → (s.pageH (pgBcp 5)).resetting = false → s.pstate' = 4 → (s.bcp.hot = true ∧ ((List.range 40).any fun x => decide (toS 16 (s.fld (pgPwr 3) 0x040 31 16) ≤ toS 16 (s.fld (pgPwr 3) (0x100 + 4 * x) 15 0))) = true) →
      Completes (.bivWake w t) s fun u => 
        u.now = max s.now t ∧
        RegsOnly [] s u ∧
        { u with regs := s.regs, now := s.now, hot := s.hot } = s :)
    ∧ (∀ (w : Writer) (t : Nat) (s : State), (Instr.bivWake w t).wf = true → s.calm = true → s.mayWrite w (pgBcp 5) .bcp = true → s.powered (pgBcp 5) = true → (s.pageH (pgBcp 5)).resetting = false → (s.pstate' = 0 ∨ s.pstate' = 3) →
      Completes (.bivWake w t) s fun u => 
        u.now = max s.now t ∧
        RegsOnly [] s u ∧
        { u with regs := s.regs, now := s.now, hot := s.hot } = s :)
    ∧ (∀ (w : Writer) (t : Nat) (s : State), (Instr.bivWake w t).wf = true → s.calm = true → fromOuter w = true →
      Completes (.bivWake w t) s fun u => 
        u.now = max s.now t ∧
        RegsOnly [] s u ∧
        { u with regs := s.regs, now := s.now, hot := s.hot } = s :)
    ∧ (∀ (w : Writer) (t : Nat) (s : State), (Instr.bivWake w t).wf = true → s.calm = true → s.mayWrite w (pgBcp 5) .bcp = true → (s.powered (pgBcp 5) = false ∨ (s.pageH (pgBcp 5)).resetting = true) →
      Completes (.bivWake w t) s fun u => 
        u.fld (pgBcp 5) 0x018 31 16 = min 65535 (s.fld (pgBcp 5) 0x018 31 16 + 1) ∧
        u.fld (pgBcp 5) 0x018 13 12 = 3 ∧
        u.now = max s.now t ∧
        RegsOnly [pgBcp 5] s u ∧
        { u with regs := s.regs, now := s.now, hot := s.hot } = s :)
    ∧ (∀ (b : Bap) (t : Nat) (s : State), (Instr.bapWake b t).wf = true → s.calm = true → ((s.upTo t).bapAccept b 9).1 = true → 2 ≤ (s.bcp.keys.getD b.key {}).right → s.pstate' = 1 →
      Completes (.bapWake b t) s fun u => 
        u.bcp.wakeHeld = some 3 ∧
        u.out = s.out ++ [.bap b.service 9 b.tag b.seq 0 [] []] ∧
        u.now = max s.now t ∧
        RegsOnly [] s u ∧
        { u with regs := s.regs, now := s.now, hot := s.hot, out := s.out, bcp := s.bcp } = s :)
    ∧ (∀ (b : Bap) (t : Nat) (s : State), (Instr.bapWake b t).wf = true → s.calm = true → ((s.upTo t).bapAccept b 9).1 = true → 2 ≤ (s.bcp.keys.getD b.key {}).right → s.pstate' = 2 → s.bcp.hot = false →
      Completes (.bapWake b t) s fun u => 
        u.pstate' = 3 ∧
        u.fld (pgBcp 5) 0x044 27 24 = 3 ∧
        u.getB (pgBcp 5) 0x010 16 = true ∧
        ((computePages.all fun x => u.powered x) = true) ∧
        ((s.bcp.recorded.all fun x => s.locked x || u.enabled x) = true) ∧
        u.out = s.out ++ [.bap b.service 9 b.tag b.seq 0 [] []] :)
    ∧ (∀ (b : Bap) (t : Nat) (s : State), (Instr.bapWake b t).wf = true → s.calm = true → ((s.upTo t).bapAccept b 9).1 = true → 2 ≤ (s.bcp.keys.getD b.key {}).right → s.pstate' = 2 → s.bcp.hot = true →
      Completes (.bapWake b t) s fun u => 
        u.pstate' = 3 ∧
        u.fld (pgBcp 5) 0x044 27 24 = 3 ∧
        u.getB (pgBcp 5) 0x010 16 = true ∧
        ((computePages.all fun x => u.powered x == s.powered x) = true) ∧
        u.out = s.out ++ [.bap b.service 9 b.tag b.seq 0 [] []] :)
    ∧ (∀ (b : Bap) (t : Nat) (s : State), (Instr.bapWake b t).wf = true → s.calm = true → ((s.upTo t).bapAccept b 9).1 = true → 2 ≤ (s.bcp.keys.getD b.key {}).right → s.pstate' = 4 → ¬(s.bcp.hot = true ∧ ((List.range 40).any fun x => decide (toS 16 (s.fld (pgPwr 3) 0x040 31 16) ≤ toS 16 (s.fld (pgPwr 3) (0x100 + 4 * x) 15 0))) = true) →
      Completes (.bapWake b t) s fun u => 
        u.pstate' = 3 ∧
        u.fld (pgBcp 5) 0x044 27 24 = 3 ∧
        u.getB (pgBcp 5) 0x010 16 = true ∧
        u.out = s.out ++ [.bap b.service 9 b.tag b.seq 0 [] []] :)
    ∧ (∀ (b : Bap) (t : Nat) (s : State), (Instr.bapWake b t).wf = true → s.calm = true → ((s.upTo t).bapAccept b 9).1 = true → 2 ≤ (s.bcp.keys.getD b.key {}).right → s.pstate' = 4 → (s.bcp.hot = true ∧ ((List.range 40).any fun x => decide (toS 16 (s.fld (pgPwr 3) 0x040 31 16) ≤ toS 16 (s.fld (pgPwr 3) (0x100 + 4 * x) 15 0))) = true) →
      Completes (.bapWake b t) s fun u => 
        u.out = s.out ++ [.bap b.service 9 b.tag b.seq 0 [] []] ∧
        u.bcp.pst = s.bcp.pst ∧ u.bcp.hot = true ∧ u.bcp.wakeHeld = s.bcp.wakeHeld ∧
        u.now = max s.now t ∧
        RegsOnly [] s u ∧
        { u with regs := s.regs, now := s.now, hot := s.hot, out := s.out, bcp := s.bcp } = s :)
    ∧ (∀ (b : Bap) (t : Nat) (s : State), (Instr.bapWake b t).wf = true → s.calm = true → ((s.upTo t).bapAccept b 9).1 = true → 2 ≤ (s.bcp.keys.getD b.key {}).right → (s.pstate' = 0 ∨ s.pstate' = 3) →
      Completes (.bapWake b t) s fun u => 
        u.out = s.out ++ [.bap b.service 9 b.tag b.seq 9 [] []] ∧
        u.bcp = { s.bcp with keys := setAt s.bcp.keys b.key { (s.bcp.keys.getD b.key {}) with last := some b.seq } } ∧
        u.now = max s.now t ∧
        RegsOnly [] s u ∧
        { u with regs := s.regs, now := s.now, hot := s.hot, out := s.out, bcp := s.bcp } = s :)
    ∧ (∀ (b : Bap) (t : Nat) (s : State), (Instr.bapWake b t).wf = true → s.calm = true → ((s.upTo t).bapAccept b 9).1 = true → (s.bcp.keys.getD b.key {}).right < 2 →
      Completes (.bapWake b t) s fun u => 
        u.out = s.out ++ [.bap b.service 9 b.tag b.seq 2 [] []] ∧
        u.bcp = { s.bcp with keys := setAt s.bcp.keys b.key { (s.bcp.keys.getD b.key {}) with last := some b.seq } } ∧
        u.now = max s.now t ∧
        RegsOnly [] s u ∧
        { u with regs := s.regs, now := s.now, hot := s.hot, out := s.out, bcp := s.bcp } = s :)
    ∧ (∀ (b : Bap) (t : Nat) (s : State), (Instr.bapWake b t).wf = true → s.calm = true → (s.upTo t).bapHeard b 9 = false →
      Completes (.bapWake b t) s fun u => 
        u.now = max s.now t ∧
        RegsOnly [] s u ∧
        { u with regs := s.regs, now := s.now, hot := s.hot } = s :)
    ∧ (∀ (b : Bap) (t : Nat) (s : State), (Instr.bapWake b t).wf = true → s.calm = true → (s.upTo t).bapHeard b 9 = true → ((s.upTo t).bapAccept b 9).1 = false → ((s.upTo t).bapDrops b.ip).length < 15 →
      Completes (.bapWake b t) s fun u => 
        u.fld (pgBcp 2) 0x058 31 16 = min 65535 (s.fld (pgBcp 2) 0x058 31 16 + 1) ∧
        u.srcIp b.ip = ⟨b.ip, (s.upTo t).bapDrops b.ip ++ [max s.now t], none⟩ ∧
        u.bcp = { s.bcp with srcs := u.bcp.srcs } ∧
        u.out = s.out ∧
        u.now = max s.now t ∧
        RegsOnly [pgBcp 2] s u ∧
        { u with regs := s.regs, now := s.now, hot := s.hot, bcp := s.bcp } = s :)
    ∧ (∀ (b : Bap) (t : Nat) (s : State), (Instr.bapWake b t).wf = true → s.calm = true → (s.upTo t).bapHeard b 9 = true → ((s.upTo t).bapAccept b 9).1 = false → 15 ≤ ((s.upTo t).bapDrops b.ip).length →
      Completes (.bapWake b t) s fun u => 
        u.fld (pgBcp 2) 0x058 31 16 = min 65535 (s.fld (pgBcp 2) 0x058 31 16 + 1) ∧
        u.fld (pgBcp 2) 0x058 15 0 = min 65535 (s.fld (pgBcp 2) 0x058 15 0 + 1) ∧
        u.srcIp b.ip = ⟨b.ip, [], some (max s.now t + 10 * cyclesPerS)⟩ ∧
        u.bcp = { s.bcp with srcs := u.bcp.srcs } ∧
        u.log = ((s.upTo t).logEvent 0x0090 1 0xFFFF (b.ip)).log ∧
        u.out = s.out ∧
        u.now = max s.now t ∧
        RegsOnly [pgBcp 2, pgBcp 1] s u ∧
        { u with regs := s.regs, now := s.now, hot := s.hot, bcp := s.bcp, log := s.log } = s :)
    ∧ (∀ (t : Nat) (s : State), (Instr.entrySequenceComplete t).wf = true → s.calm = true → s.pstate' = 1 → s.bcp.wakeHeld = none → s.bcp.toOff = false →
      Completes (.entrySequenceComplete t) s fun u => 
        u.pstate' = 2 ∧
        u.getB (pgBcp 5) 0x010 16 = true ∧
        ((allPages.all fun x => u.powered x == (s.powered x && !computePages.contains x)) = true) :)
    ∧ (∀ (t : Nat) (s : State), (Instr.entrySequenceComplete t).wf = true → s.calm = true → s.pstate' = 1 → s.bcp.wakeHeld = none → s.bcp.toOff = true →
      Completes (.entrySequenceComplete t) s fun u => 
        u.pstate' = 4 ∧
        u.getB (pgBcp 5) 0x010 16 = true ∧
        ((allPages.all fun x => u.powered x == (s.powered x && (onBasecamp x || decide (0x800 ≤ x ∧ x < 0x840)))) = true) :)
    ∧ (∀ (t src : Nat) (s : State), (Instr.entrySequenceComplete t).wf = true → s.calm = true → s.pstate' = 1 → s.bcp.wakeHeld = some src → src < 16 →
      Completes (.entrySequenceComplete t) s fun u => 
        u.pstate' = 3 ∧
        u.fld (pgBcp 5) 0x044 27 24 = src ∧
        u.bcp.wakeHeld = none ∧
        (s.bcp.hot = false → (computePages.all fun x => u.powered x) = true) :)
    ∧ (∀ (t : Nat) (s : State), (Instr.entrySequenceComplete t).wf = true → s.calm = true → s.pstate' ≠ 1 →
      Completes (.entrySequenceComplete t) s fun u => 
        u.now = max s.now t ∧
        RegsOnly [] s u ∧
        { u with regs := s.regs, now := s.now, hot := s.hot } = s :)
    ∧ (∀ (t : Nat) (s : State), (Instr.exitSequenceComplete t).wf = true → s.calm = true → s.pstate' = 3 →
      Completes (.exitSequenceComplete t) s fun u => 
        u.bcp = { s.bcp with pst := 0 } ∧
        u.fld (pgBcp 5) 0x044 31 29 = 0 ∧
        u.getB (pgBcp 5) 0x010 16 = true ∧
        u.log = ((s.upTo t).logEvent 0x0021 0 0xFFFF (s.fld (pgBcp 5) 0x044 27 24)).log ∧
        u.now = max s.now t ∧
        RegsOnly [pgBcp 5, pgBcp 1] s u ∧
        { u with regs := s.regs, now := s.now, hot := s.hot, log := s.log, bcp := s.bcp } = s :)
    ∧ (∀ (t : Nat) (s : State), (Instr.exitSequenceComplete t).wf = true → s.calm = true → s.pstate' ≠ 3 →
      Completes (.exitSequenceComplete t) s fun u => 
        u.now = max s.now t ∧
        RegsOnly [] s u ∧
        { u with regs := s.regs, now := s.now, hot := s.hot } = s :)

/-- SPWR outside 18–33 V powers each 24 V port down with FAULT_CODE 4 and bit 21, its recovery clears the mark and starts detection again; the limit shows 560 W; a feed that is lost shows its voltage and clears OK; a low bus and a full storage show their readings; a power failure aborts an erase, records the feeds and flushes the log, its end records them again; an exhausted storage holds the module in reset with flash, fuses and keys kept. A rail outside 5 % of its voltage is recorded, shows its reading and removes power from its domain and no other: both dies and the I/O die, one die, the I/O die, the rope ports, the DRAM, Basecamp’s own pages, Ethernet, flash with the update that runs, the port-PHY dies, all ports, the track inputs, a drive block; one within has no effect, and one that carries an external voltage shows its reading. WARN is recorded, CRIT removes power from both compute dies; readings below their limits have no effect. -/
def Obligations.Power : Prop :=
    (∀ (v t x : Nat) (s : State), (Instr.spwrLow v t).wf = true → s.calm = true → (v < 1800 ∨ 3300 < v) → x < 512 →
      Completes (.spwrLow v t) s fun u => 
        u.spwrLow = true ∧
        u.fld (pgPwr 1) 0x040 31 16 = v % 2 ^ 16 ∧
        (¬(s.pstate x = 0 ∨ s.getB (pgSpt x) 0x048 1 = true ∨ s.getB (pgSpt x) 0x044 15 = false) → u.getB (pgSpt x) 0x048 4 = true ∧ u.getB (pgSpt x) 0x048 0 = false ∧ u.fld (pgSpt x) 0x008 15 8 = 4 ∧ u.getB (pgSpt x) 0x010 21 = true) ∧
        (¬(s.pstate x = 0 ∨ s.getB (pgSpt x) 0x048 1 = true ∨ s.getB (pgSpt x) 0x044 15 = false) → s.getB (pgSpt x) 0x048 0 = true → u.fld (pgSpt x) 0x048 31 8 = 0) ∧
        ((s.pstate x = 0 ∨ s.getB (pgSpt x) 0x048 1 = true ∨ s.getB (pgSpt x) 0x044 15 = false) → u.rd (pgSpt x) 0x048 = s.rd (pgSpt x) 0x048 ∧ u.rd (pgSpt x) 0x008 = s.rd (pgSpt x) 0x008 ∧ u.rd (pgSpt x) 0x010 = s.rd (pgSpt x) 0x010) ∧
        u.now = max s.now t ∧
        RegsOnly (pgPwr 1 :: (List.range 512).map pgSpt) s u ∧
        { u with regs := s.regs, now := s.now, hot := s.hot, spwrLow := s.spwrLow } = s :)
    ∧ (∀ (v t : Nat) (s : State), (Instr.spwrLow v t).wf = true → s.calm = true → 1800 ≤ v → v ≤ 3300 →
      Completes (.spwrLow v t) s fun u => 
        u.now = max s.now t ∧
        RegsOnly [] s u ∧
        { u with regs := s.regs, now := s.now, hot := s.hot } = s :)
    ∧ (∀ (v t x : Nat) (s : State), (Instr.spwrRecovery v t).wf = true → s.calm = true → 1850 ≤ v → v ≤ 3300 → x < 512 →
      Completes (.spwrRecovery v t) s fun u => 
        u.spwrLow = false ∧
        u.fld (pgPwr 1) 0x040 31 16 = v % 2 ^ 16 ∧
        u.getB (pgSpt x) 0x048 4 = false ∧
        (u.portH x = (if s.getB (pgSpt x) 0x048 4 = true ∧ ¬(s.pstate x = 0 ∨ s.getB (pgSpt x) 0x048 1 = true ∨ s.getB (pgSpt x) 0x044 15 = false) ∧ (s.portH x).retryAt = none then { s.portH x with detect := true } else s.portH x)) ∧
        u.now = max s.now t ∧
        RegsOnly (pgPwr 1 :: (List.range 512).map pgSpt) s u ∧
        { u with regs := s.regs, now := s.now, hot := s.hot, spwrLow := s.spwrLow, ports := s.ports } = s :)
    ∧ (∀ (v t : Nat) (s : State), (Instr.spwrRecovery v t).wf = true → s.calm = true → (v < 1850 ∨ 3300 < v) →
      Completes (.spwrRecovery v t) s fun u => 
        u.now = max s.now t ∧
        RegsOnly [] s u ∧
        { u with regs := s.regs, now := s.now, hot := s.hot } = s :)
    ∧ (∀ (t : Nat) (s : State), (Instr.spwrLimit t).wf = true → s.calm = true →
      Completes (.spwrLimit t) s fun u => 
        u.fld (pgPwr 1) 0x044 15 0 = 5600 ∧
        u.getB (pgPwr 1) 0x044 31 = true ∧
        u.now = max s.now t ∧
        RegsOnly [pgPwr 1] s u ∧
        { u with regs := s.regs, now := s.now, hot := s.hot } = s :)
    ∧ (∀ (i : Nat) (v : Int) (t : Nat) (s : State), (Instr.temperatureWarn i v t).wf = true → s.calm = true → toS 16 (s.fld (pgPwr 3) 0x040 31 16) ≤ v →
      Completes (.temperatureWarn i v t) s fun u => 
        u.fld (pgPwr 3) (0x100 + 4 * i) 15 0 = ofS 16 v ∧
        u.getB (pgPwr 3) 0x010 16 = true ∧
        u.log = ((s.upTo t).logEvent 0x00B0 2 (pgPwr 3) (i + ofS 16 v * 2 ^ 8)).log ∧
        u.now = max s.now t ∧
        RegsOnly [pgPwr 3, pgBcp 1] s u ∧
        { u with regs := s.regs, now := s.now, hot := s.hot, log := s.log } = s :)
    ∧ (∀ (i : Nat) (v : Int) (t : Nat) (s : State), (Instr.temperatureWarn i v t).wf = true → s.calm = true → v < toS 16 (s.fld (pgPwr 3) 0x040 31 16) →
      Completes (.temperatureWarn i v t) s fun u => 
        u.now = max s.now t ∧
        RegsOnly [] s u ∧
        { u with regs := s.regs, now := s.now, hot := s.hot } = s :)
    ∧ (∀ (i : Nat) (v : Int) (t : Nat) (s : State), (Instr.temperatureCrit i v t).wf = true → s.calm = true → toS 16 (s.fld (pgPwr 3) 0x040 15 0) ≤ v →
      Completes (.temperatureCrit i v t) s fun u => 
        u.bcp.hot = true ∧
        u.fld (pgPwr 3) (0x100 + 4 * i) 15 0 = ofS 16 v ∧
        ((allPages.all fun x => u.powered x == (s.powered x && !(((decide (0x100 + 0x80 * 0 ≤ x ∧ x < 0x180 + 0x80 * 0) && x % 16 != 6 && x % 16 != 7) || (decide (0x200 + 0x100 * 0 ≤ x ∧ x < 0x300 + 0x100 * 0) && x % 2 == 0) || x == 0x940 + 0) || (decide (0x100 + 0x80 * 1 ≤ x ∧ x < 0x180 + 0x80 * 1) && x % 16 != 6 && x % 16 != 7) || (decide (0x200 + 0x100 * 1 ≤ x ∧ x < 0x300 + 0x100 * 1) && x % 2 == 0) || x == 0x940 + 1))) = true) ∧
        (toS 16 (s.fld (pgPwr 3) 0x040 31 16) ≤ v → u.getB (pgPwr 3) 0x010 16 = true) ∧
        u.log = ((s.upTo t).logEvent 0x00B0 2 (pgPwr 3) (i + ofS 16 v * 2 ^ 8)).log :)
    ∧ (∀ (i : Nat) (v : Int) (t : Nat) (s : State), (Instr.temperatureCrit i v t).wf = true → s.calm = true → v < toS 16 (s.fld (pgPwr 3) 0x040 15 0) →
      Completes (.temperatureCrit i v t) s fun u => 
        u.now = max s.now t ∧
        RegsOnly [] s u ∧
        { u with regs := s.regs, now := s.now, hot := s.hot } = s :)
    ∧ (∀ (feed v t : Nat) (s : State), (Instr.feedLoss feed v t).wf = true → s.calm = true → (v < 900 ∨ 6000 < v) →
      Completes (.feedLoss feed v t) s fun u => 
        u.fld (pgPwr 0) (0x040 + 4 * feed) 31 16 = v % 2 ^ 16 ∧
        u.getB (pgPwr 0) 0x050 (31 - feed) = false ∧
        u.fld (pgPwr 0) 0x054 15 0 = min 65535 (s.fld (pgPwr 0) 0x054 15 0 + 1) ∧
        u.now = max s.now t ∧
        RegsOnly [pgPwr 0] s u ∧
        { u with regs := s.regs, now := s.now, hot := s.hot } = s :)
    ∧ (∀ (feed v t : Nat) (s : State), (Instr.feedLoss feed v t).wf = true → s.calm = true → 900 ≤ v → v ≤ 6000 →
      Completes (.feedLoss feed v t) s fun u => 
        u.now = max s.now t ∧
        RegsOnly [] s u ∧
        { u with regs := s.regs, now := s.now, hot := s.hot } = s :)
    ∧ (∀ (vbus store t : Nat) (s : State), (Instr.busLow vbus store t).wf = true → s.calm = true → vbus < 880 →
      Completes (.busLow vbus store t) s fun u => 
        u.fld (pgPwr 2) 0x100 31 16 = vbus * 10 ∧
        u.fld (pgPwr 0) 0x04C 15 0 = store % 2 ^ 16 ∧
        u.getB (pgPwr 0) 0x04C 31 = decide (7600 ≤ store) ∧
        u.now = max s.now t ∧
        RegsOnly [pgPwr 0, pgPwr 2] s u ∧
        { u with regs := s.regs, now := s.now, hot := s.hot } = s :)
    ∧ (∀ (vbus store t : Nat) (s : State), (Instr.busLow vbus store t).wf = true → s.calm = true → 880 ≤ vbus →
      Completes (.busLow vbus store t) s fun u => 
        u.now = max s.now t ∧
        RegsOnly [] s u ∧
        { u with regs := s.regs, now := s.now, hot := s.hot } = s :)
    ∧ (∀ (store t : Nat) (s : State), (Instr.holdUpReady store t).wf = true → s.calm = true → 7600 ≤ store →
      Completes (.holdUpReady store t) s fun u => 
        u.fld (pgPwr 0) 0x04C 15 0 = store % 2 ^ 16 ∧
        u.getB (pgPwr 0) 0x04C 31 = true ∧
        u.now = max s.now t ∧
        RegsOnly [pgPwr 0] s u ∧
        { u with regs := s.regs, now := s.now, hot := s.hot } = s :)
    ∧ (∀ (store t : Nat) (s : State), (Instr.holdUpReady store t).wf = true → s.calm = true → store < 7600 →
      Completes (.holdUpReady store t) s fun u => 
        u.now = max s.now t ∧
        RegsOnly [] s u ∧
        { u with regs := s.regs, now := s.now, hot := s.hot } = s :)
    ∧ (∀ (va vb store t : Nat) (s : State), (Instr.powerFail va vb store t).wf = true → s.calm = true → va < 850 → vb < 850 → s.getB (pgPwr 0) 0x050 29 = false →
      Completes (.powerFail va vb store t) s fun u => 
        u.fld (pgPwr 0) 0x040 31 16 = va % 2 ^ 16 ∧
        u.fld (pgPwr 0) 0x044 31 16 = vb % 2 ^ 16 ∧
        u.getB (pgPwr 0) 0x050 31 = (decide (900 ≤ va) && decide (va ≤ 6000)) ∧
        u.getB (pgPwr 0) 0x050 30 = (decide (900 ≤ vb) && decide (vb ≤ 6000)) ∧
        u.fld (pgPwr 0) 0x04C 15 0 = store % 2 ^ 16 ∧
        u.getB (pgPwr 0) 0x050 29 = true ∧
        u.fld (pgPwr 0) 0x054 31 16 = min 65535 (s.fld (pgPwr 0) 0x054 31 16 + 1) ∧
        u.log = ((s.upTo t).logEvent 0x0003 3 0xFFFF (va + vb * 2 ^ 16 + store * 2 ^ 32)).logFlush.log ∧
        u.log.staged = [] ∧
        ((s.bcp.upd.map (·.phase)) = some 0 → u.bcp = { s.bcp with upd := none } ∧ u.fld (pgBcp 4) 0x040 31 29 = 5 ∧ u.getB (pgBcp 4) 0x010 16 = true) ∧
        ((s.bcp.upd.map (·.phase)) ≠ some 0 → u.bcp = s.bcp ∧ u.rd (pgBcp 4) 0x040 = s.rd (pgBcp 4) 0x040) ∧
        u.now = max s.now t ∧
        RegsOnly [pgPwr 0, pgBcp 1, pgBcp 4] s u ∧
        { u with regs := s.regs, now := s.now, hot := s.hot, log := s.log, bcp := s.bcp } = s :)
    ∧ (∀ (va vb store t : Nat) (s : State), (Instr.powerFail va vb store t).wf = true → s.calm = true → (850 ≤ va ∨ 850 ≤ vb ∨ s.getB (pgPwr 0) 0x050 29 = true) →
      Completes (.powerFail va vb store t) s fun u => 
        u.now = max s.now t ∧
        RegsOnly [] s u ∧
        { u with regs := s.regs, now := s.now, hot := s.hot } = s :)
    ∧ (∀ (va vb store t : Nat) (s : State), (Instr.pfailEnd va vb store t).wf = true → s.calm = true → s.getB (pgPwr 0) 0x050 29 = true → (900 ≤ va ∨ 900 ≤ vb) →
      Completes (.pfailEnd va vb store t) s fun u => 
        u.fld (pgPwr 0) 0x040 31 16 = va % 2 ^ 16 ∧
        u.fld (pgPwr 0) 0x044 31 16 = vb % 2 ^ 16 ∧
        u.getB (pgPwr 0) 0x050 31 = (decide (900 ≤ va) && decide (va ≤ 6000)) ∧
        u.getB (pgPwr 0) 0x050 30 = (decide (900 ≤ vb) && decide (vb ≤ 6000)) ∧
        u.fld (pgPwr 0) 0x04C 15 0 = store % 2 ^ 16 ∧
        u.getB (pgPwr 0) 0x050 29 = false ∧
        u.log = ((s.upTo t).logEvent 0x0004 0 0xFFFF (va + vb * 2 ^ 16 + store * 2 ^ 32)).log ∧
        u.now = max s.now t ∧
        RegsOnly [pgPwr 0, pgBcp 1] s u ∧
        { u with regs := s.regs, now := s.now, hot := s.hot, log := s.log } = s :)
    ∧ (∀ (va vb store t : Nat) (s : State), (Instr.pfailEnd va vb store t).wf = true → s.calm = true → (s.getB (pgPwr 0) 0x050 29 = false ∨ (va < 900 ∧ vb < 900)) →
      Completes (.pfailEnd va vb store t) s fun u => 
        u.now = max s.now t ∧
        RegsOnly [] s u ∧
        { u with regs := s.regs, now := s.now, hot := s.hot } = s :)
    ∧ (∀ (store : Nat) (s : State), (Instr.storageExhausted store).wf = true → s.calm = true → store ≤ 2500 →
      Completes (.storageExhausted store) s fun u => 
        u.bcp.held = true ∧
        u.bcp.booted = false ∧
        u.now = 0 ∧
        u.mem = [] ∧
        u.tiles = [] ∧
        u.log.staged = [] ∧
        u.log.flash = s.log.flash ∧
        u.bcp.keys = s.bcp.keys ∧
        u.bcp.imgA = s.bcp.imgA ∧ u.bcp.imgB = s.bcp.imgB ∧ u.bcp.store = s.bcp.store ∧ u.bcp.fuses = s.bcp.fuses ∧ u.bcp.repairs = s.bcp.repairs ∧
        u.out = s.out ∧
        u.pending = s.pending :)
    ∧ (∀ (store : Nat) (s : State), (Instr.storageExhausted store).wf = true → s.calm = true → 2500 < store →
      Completes (.storageExhausted store) s fun u => 
        RegsOnly [] s u ∧
        { u with regs := s.regs, hot := s.hot } = s :)
    ∧ (∀ (i mv t : Nat) (s : State), (Instr.railFault i mv t).wf = true → s.calm = true → i = 2 → railOut i mv = true →
      Completes (.railFault i mv t) s fun u => 
        u.fld (pgPwr 2) (0x100 + 4 * i) 31 16 = mv % 2 ^ 16 ∧
        ((allPages.all fun x => u.powered x == (s.powered x && !(((decide (0x100 + 0x80 * 0 ≤ x ∧ x < 0x180 + 0x80 * 0) && x % 16 != 6 && x % 16 != 7) || (decide (0x200 + 0x100 * 0 ≤ x ∧ x < 0x300 + 0x100 * 0) && x % 2 == 0) || x == 0x940 + 0) || ((decide (0x100 + 0x80 * 1 ≤ x ∧ x < 0x180 + 0x80 * 1) && x % 16 != 6 && x % 16 != 7) || (decide (0x200 + 0x100 * 1 ≤ x ∧ x < 0x300 + 0x100 * 1) && x % 2 == 0) || x == 0x940 + 1) || decide (0x400 ≤ x ∧ x < 0x680) || decide (0x700 ≤ x ∧ x < 0x800) || decide (0x800 ≤ x ∧ x < 0x810)))) = true) ∧
        (((List.range 32).all fun x => u.xstate 1 x == 0) = true) ∧
        (((List.range 1).all fun x => u.xstate 2 x == 0) = true) ∧
        (((List.range 32).all fun x => u.xstate 4 x == 0) = true) ∧
        (((List.range 1).all fun x => u.xstate 5 x == 0) = true) :)
    ∧ (∀ (i mv t : Nat) (s : State), (Instr.railFault i mv t).wf = true → s.calm = true → (i = 3 ∨ i = 5) → railOut i mv = true →
      Completes (.railFault i mv t) s fun u => 
        u.fld (pgPwr 2) (0x100 + 4 * i) 31 16 = mv % 2 ^ 16 ∧
        ((allPages.all fun x => u.powered x == (s.powered x && !((decide (0x100 + 0x80 * 0 ≤ x ∧ x < 0x180 + 0x80 * 0) && x % 16 != 6 && x % 16 != 7) || (decide (0x200 + 0x100 * 0 ≤ x ∧ x < 0x300 + 0x100 * 0) && x % 2 == 0) || x == 0x940 + 0))) = true) ∧
        u.log = ((s.upTo t).logEvent 0x0030 2 (pgPwr 0) (0)).log :)
    ∧ (∀ (i mv t : Nat) (s : State), (Instr.railFault i mv t).wf = true → s.calm = true → (i = 4 ∨ i = 6) → railOut i mv = true →
      Completes (.railFault i mv t) s fun u => 
        u.fld (pgPwr 2) (0x100 + 4 * i) 31 16 = mv % 2 ^ 16 ∧
        ((allPages.all fun x => u.powered x == (s.powered x && !((decide (0x100 + 0x80 * 1 ≤ x ∧ x < 0x180 + 0x80 * 1) && x % 16 != 6 && x % 16 != 7) || (decide (0x200 + 0x100 * 1 ≤ x ∧ x < 0x300 + 0x100 * 1) && x % 2 == 0) || x == 0x940 + 1))) = true) ∧
        u.log = ((s.upTo t).logEvent 0x0030 2 (pgPwr 0) (0)).log :)
    ∧ (∀ (i mv t : Nat) (s : State), (Instr.railFault i mv t).wf = true → s.calm = true → (i = 7 ∨ i = 8) → railOut i mv = true →
      Completes (.railFault i mv t) s fun u => 
        u.fld (pgPwr 2) (0x100 + 4 * i) 31 16 = mv % 2 ^ 16 ∧
        ((allPages.all fun x => u.powered x == (s.powered x && !(decide (0x400 ≤ x ∧ x < 0x680) || decide (0x700 ≤ x ∧ x < 0x800) || decide (0x800 ≤ x ∧ x < 0x810)))) = true) ∧
        (((List.range 1).all fun x => u.xstate 2 x == 0) = true) ∧
        (((List.range 32).all fun x => u.xstate 4 x == 0) = true) ∧
        (((List.range 1).all fun x => u.xstate 5 x == 0) = true) :)
    ∧ (∀ (i mv t : Nat) (s : State), (Instr.railFault i mv t).wf = true → s.calm = true → (i = 9 ∨ i = 10) → railOut i mv = true →
      Completes (.railFault i mv t) s fun u => 
        u.fld (pgPwr 2) (0x100 + 4 * i) 31 16 = mv % 2 ^ 16 ∧
        ((allPages.all fun x => u.powered x == (s.powered x && !(decide (0x800 ≤ x ∧ x < 0x810)))) = true) ∧
        (((List.range 32).all fun x => u.xstate 4 x == 0) = true) :)
    ∧ (∀ (i mv t : Nat) (s : State), (Instr.railFault i mv t).wf = true → s.calm = true → 11 ≤ i → i ≤ 14 → (s.upTo t).sliceOn pgEccD 0 = false → railOut i mv = true →
      Completes (.railFault i mv t) s fun u => 
        u.fld (pgPwr 2) (0x100 + 4 * i) 31 16 = mv % 2 ^ 16 ∧
        u.log = ((s.upTo t).logEvent 0x0030 2 (pgPwr 0) (0)).log ∧
        u.fld pgEccD 0x048 1 0 = 0 ∧
        u.xstate 5 0 = 0 ∧
        (∀ a, a < dramSize → u.byte a = 0) ∧
        (∀ a, dramSize ≤ a → u.byte a = s.byte a) ∧
        u.now = max s.now t ∧
        RegsOnly [pgPwr 2, pgBcp 1, pgEccD, pgXng 5] s u ∧
        { u with regs := s.regs, now := s.now, hot := s.hot, log := s.log, mem := s.mem, chk := s.chk, pois := s.pois, tags := s.tags, dramErr := s.dramErr, banks := s.banks, xng := s.xng } = s :)
    ∧ (∀ (i mv t : Nat) (s : State), (Instr.railFault i mv t).wf = true → s.calm = true → i = 15 → railOut i mv = true →
      Completes (.railFault i mv t) s fun u => 
        u.fld (pgPwr 2) (0x100 + 4 * i) 31 16 = mv % 2 ^ 16 ∧
        ((allPages.all fun x => u.powered x == (s.powered x && !(decide (x < 8) || decide (0x10 ≤ x ∧ x < 0x14)))) = true) ∧
        (((List.range 1).all fun x => u.xstate 6 x == 0) = true) :)
    ∧ (∀ (i mv t : Nat) (s : State), (Instr.railFault i mv t).wf = true → s.calm = true → i = 16 → railOut i mv = true →
      Completes (.railFault i mv t) s fun u => 
        u.fld (pgPwr 2) (0x100 + 4 * i) 31 16 = mv % 2 ^ 16 ∧
        u.log = ((s.upTo t).logEvent 0x0030 2 (pgPwr 0) (0)).log ∧
        u.fld (pgBcp 2) 0x04C 31 30 = 0 ∧
        u.now = max s.now t ∧
        RegsOnly [pgPwr 2, pgBcp 1, pgBcp 2] s u ∧
        { u with regs := s.regs, now := s.now, hot := s.hot, log := s.log } = s :)
    ∧ (∀ (i mv t : Nat) (s : State), (Instr.railFault i mv t).wf = true → s.calm = true → i = 17 → s.updating = true → railOut i mv = true →
      Completes (.railFault i mv t) s fun u => 
        u.fld (pgPwr 2) (0x100 + 4 * i) 31 16 = mv % 2 ^ 16 ∧
        u.log = ((s.upTo t).logEvent 0x0030 2 (pgPwr 0) (0)).log ∧
        u.bcp = { s.bcp with upd := none } ∧
        u.fld (pgBcp 4) 0x040 31 29 = 5 ∧
        u.now = max s.now t ∧
        RegsOnly [pgPwr 2, pgBcp 1, pgBcp 4] s u ∧
        { u with regs := s.regs, now := s.now, hot := s.hot, log := s.log, bcp := s.bcp } = s :)
    ∧ (∀ (i mv t : Nat) (s : State), (Instr.railFault i mv t).wf = true → s.calm = true → i = 17 → s.updating = false → railOut i mv = true →
      Completes (.railFault i mv t) s fun u => 
        u.fld (pgPwr 2) (0x100 + 4 * i) 31 16 = mv % 2 ^ 16 ∧
        u.log = ((s.upTo t).logEvent 0x0030 2 (pgPwr 0) (0)).log ∧
        u.now = max s.now t ∧
        RegsOnly [pgPwr 2, pgBcp 1] s u ∧
        { u with regs := s.regs, now := s.now, hot := s.hot, log := s.log } = s :)
    ∧ (∀ (i mv t : Nat) (s : State), (Instr.railFault i mv t).wf = true → s.calm = true → 18 ≤ i → i ≤ 21 → railOut i mv = true →
      Completes (.railFault i mv t) s fun u => 
        u.fld (pgPwr 2) (0x100 + 4 * i) 31 16 = mv % 2 ^ 16 ∧
        ((allPages.all fun x => u.powered x == (s.powered x && !(decide (0x400 + 128 * (i - 18) ≤ x ∧ x < 0x480 + 128 * (i - 18))))) = true) ∧
        (((List.range 8).all fun x => u.xstate 1 (8 * (i - 18) + x) == 0) = true) :)
    ∧ (∀ (i mv t : Nat) (s : State), (Instr.railFault i mv t).wf = true → s.calm = true → i = 22 → railOut i mv = true →
      Completes (.railFault i mv t) s fun u => 
        u.fld (pgPwr 2) (0x100 + 4 * i) 31 16 = mv % 2 ^ 16 ∧
        ((allPages.all fun x => u.powered x == (s.powered x && !(decide (0x400 ≤ x ∧ x < 0x600)))) = true) :)
    ∧ (∀ (i mv t : Nat) (s : State), (Instr.railFault i mv t).wf = true → s.calm = true → i = 23 → railOut i mv = true →
      Completes (.railFault i mv t) s fun u => 
        u.fld (pgPwr 2) (0x100 + 4 * i) 31 16 = mv % 2 ^ 16 ∧
        ((allPages.all fun x => u.powered x == (s.powered x && !(decide (0x800 ≤ x ∧ x < 0x810)))) = true) :)
    ∧ (∀ (i mv t : Nat) (s : State), (Instr.railFault i mv t).wf = true → s.calm = true → i = 24 → railOut i mv = true →
      Completes (.railFault i mv t) s fun u => 
        u.fld (pgPwr 2) (0x100 + 4 * i) 31 16 = mv % 2 ^ 16 ∧
        ((allPages.all fun x => u.powered x == (s.powered x && !(decide (0x640 ≤ x ∧ x < 0x680)))) = true) :)
    ∧ (∀ (i mv t : Nat) (s : State), (Instr.railFault i mv t).wf = true → s.calm = true → 25 ≤ i → i ≤ 26 → railOut i mv = true →
      Completes (.railFault i mv t) s fun u => 
        u.fld (pgPwr 2) (0x100 + 4 * i) 31 16 = mv % 2 ^ 16 ∧
        ((allPages.all fun x => u.powered x == (s.powered x && !(x == 0x940 + (i - 25)))) = true) :)
    ∧ (∀ (i mv t : Nat) (s : State), (Instr.railFault i mv t).wf = true → s.calm = true → 2 ≤ i → i < 27 → railOut i mv = false →
      Completes (.railFault i mv t) s fun u => 
        u.now = max s.now t ∧
        RegsOnly [] s u ∧
        { u with regs := s.regs, now := s.now, hot := s.hot } = s :)
    ∧ (∀ (i mv t : Nat) (s : State), (Instr.railFault i mv t).wf = true → s.calm = true → (i < 2 ∨ i = 27) →
      Completes (.railFault i mv t) s fun u => 
        u.fld (pgPwr 2) (0x100 + 4 * i) 31 16 = mv % 2 ^ 16 ∧
        u.now = max s.now t ∧
        RegsOnly [pgPwr 2] s u ∧
        { u with regs := s.regs, now := s.now, hot := s.hot } = s :)
    ∧ (∀ (i mv t : Nat) (s : State), (Instr.railFault i mv t).wf = true → s.calm = true → 28 ≤ i → i < 32 →
      Completes (.railFault i mv t) s fun u => 
        u.fld (pgPwr 2) (0x100 + 4 * i) 31 16 = mv % 2 ^ 16 ∧
        (u.bcp = { s.bcp with fldLow := (if mv < 15000 then s.bcp.fldLow.filter (fun x => x != i - 28) ++ [i - 28] else s.bcp.fldLow.filter (fun x => x != i - 28)) }) ∧
        u.now = max s.now t ∧
        RegsOnly [pgPwr 2] s u ∧
        { u with regs := s.regs, now := s.now, hot := s.hot, bcp := s.bcp } = s :)

/-- A write of bytes that lie in SRAM banks which are ON, with no fault injection armed, leaves each word it covers whole with the poison of the value written, and each word it covers in part with that poison or the old one or the presence of an uncorrectable byte among the bytes it does not write; a partial write never clears a word's poison. -/
def Obligations.SramPoison : Prop :=
    ∀ (s : State) (a n v w : Nat) (p : Bool), 0 < n → a < 8 * w + 8 → 8 * w < a + n →
      (∀ x, a / 8 ≤ x → x ≤ (a + n - 1) / 8 → ∃ l, memLoc (8 * x) = some l ∧ l.sub ≠ 2 ∧ s.bankState l = 2 ∧ bit (s.flipRegs l.page).1 31 = false) →
      maj3 ((s.wrMem a n v p).poisCopies (8 * w)) = (if a ≤ 8 * w ∧ 8 * w + 8 ≤ a + n then p else p || maj3 (s.poisCopies (8 * w)) || s.laneBadOutside (8 * w) a (a + n)) ∧
        (¬(a ≤ 8 * w ∧ 8 * w + 8 ≤ a + n) → maj3 (s.poisCopies (8 * w)) = true → maj3 ((s.wrMem a n v p).poisCopies (8 * w)) = true)

/-- A rational is rounded to a finite binary32 word whose distance from it no other finite word undercuts, and on a tie between two values to one with an even last bit; a finite nonzero word is itself rounded. -/
def Obligations.FloatNearest : Prop :=
    (∀ x : Rat, fIsFinite (fOfRat x) = true → fOfRat x < 2 ^ 32 ∧ ∀ c, c < 2 ^ 32 → fIsFinite c = true →
      ratDist (fToRat (fOfRat x)) x ≤ ratDist (fToRat c) x ∧
        (ratDist (fToRat (fOfRat x)) x = ratDist (fToRat c) x → fToRat c ≠ fToRat (fOfRat x) → fOfRat x % 2 = 0))
    ∧ (∀ a, a < 2 ^ 32 → fIsFinite a = true → fToRat a ≠ 0 → fOfRat (fToRat a) = a)

/-- With subnormals kept, a sum, difference, product, quotient or fused product of finite words whose exact value is not 0 is that value rounded to nearest; an operation with a NaN returns its first one quieted, with its payload; a NaN made of others is 0x7FC00000. -/
def Obligations.FloatOperations : Prop :=
    (∀ a b, a < 2 ^ 32 → fIsFinite a = true → b < 2 ^ 32 → fIsFinite b = true →
      (fToRat a + fToRat b ≠ 0 → (fAdd false a b).1 = fOfRat (fToRat a + fToRat b)) ∧
      (fToRat a - fToRat b ≠ 0 → (fSub false a b).1 = fOfRat (fToRat a - fToRat b)) ∧
      (fToRat a * fToRat b ≠ 0 → (fMul false a b).1 = fOfRat (fToRat a * fToRat b)) ∧
      (fToRat a ≠ 0 → fToRat b ≠ 0 → (fDiv false a b).1 = fOfRat (fToRat a / fToRat b)))
    ∧ (∀ a b c, a < 2 ^ 32 → fIsFinite a = true → b < 2 ^ 32 → fIsFinite b = true → c < 2 ^ 32 → fIsFinite c = true → fToRat a * fToRat b + fToRat c ≠ 0 → (fFma false a b c).1 = fOfRat (fToRat a * fToRat b + fToRat c))
    ∧ (∀ ftz a b, fIsNaN a = true → (fAdd ftz a b).1 = setBit a 22 true ∧ (fMul ftz a b).1 = setBit a 22 true ∧ (fDiv ftz a b).1 = setBit a 22 true)
    ∧ (∀ ftz a b, fIsNaN a = false → fIsNaN b = true → (fAdd ftz a b).1 = setBit b 22 true ∧ (fMul ftz a b).1 = setBit b 22 true ∧ (fDiv ftz a b).1 = setBit b 22 true)
    ∧ (∀ ftz, (fAdd ftz 0x7F800000 0xFF800000).1 = 0x7FC00000 ∧ (fDiv ftz 0 0).1 = 0x7FC00000 ∧ (fMul ftz 0 0x7F800000).1 = 0x7FC00000)

/-- A step of a state with a command at the front of its queue is that command's effect on the state with the queue's rest; with an empty queue the module idles (the model's choice, log entry 5). -/
def Obligations.FrontCommand : Prop :=
    (∀ (s : State) (c : Instr) (rest : List Instr), s.pending = c :: rest → step s = exec c { s with pending := rest })
    ∧ (∀ s : State, s.pending = [] → step s = .next s)

/-- Every command answers a next state; one whose operands name nothing of the module leaves everything as it is (the model's choice, log entry 7). -/
def Obligations.WellFormedCompletes : Prop :=
    ∀ (c : Instr) (s : State), (c.wf = false → exec c s = .next s) ∧ ∃ u, exec c s = .next u

/-- While power-on reset is held and no release of it waits in the queue, every step takes a command off the queue and leaves the module as it is, so that it is still held and no release waits. -/
def Obligations.HeldStays : Prop :=
    ∀ s u : State, s.shut → step s = .next u → u.shut ∧ { u with pending := s.pending } = s ∧ u.pending = s.pending.tail

/-- At reset no command waits, the module cycle count is 0, memory and registers are in canonical form, nothing moves of itself, and the registers read what the tables of the chapters give for reset. -/
def Obligations.ResetState : Prop :=
    State.reset.pending = [] ∧ State.reset.now = 0 ∧ State.reset.out = [] ∧ State.reset.memCanon = true ∧ State.reset.regsCanon = true ∧ State.reset.calm = true ∧
      ∀ q ∈ [(pgClu 3, 0x24, 7, 0, 255), (pgTrkIn 9, 0x40, 23, 16, 20), (pgTrkIn 9, 0x40, 15, 11, 5), (pgTrk 9, 0x44, 31, 0, 4096), (pgTrk 9, 0x48, 31, 0, 1), (pgTrk 9, 0x4c, 31, 0, 1), (pgTrk 9, 0x58, 20, 13, 1), (pgTrk 9, 0x58, 12, 5, 20), (pgTrk 9, 0x5c, 7, 0, 12), (pgTrk 9, 0x60, 31, 0, 655377408), (pgTrk 9, 0x64, 31, 0, 131072064), (pgWpt 2 5, 0xe8, 22, 22, 1), (pgSpt 7, 0x40, 31, 16, 34997), (pgSpt 7, 0x44, 6, 0, 100), (pgSpt 7, 0x70, 31, 0, 10000000), (pgSpt 7, 0x240, 19, 12, 100), (pgStr, 0x4c, 31, 0, 15000), (0x701, 0x48, 27, 20, 16), (pgSout 63, 0x40, 31, 0, 205520896), (pgSout 63, 0x44, 31, 30, 1), (pgSout 63, 0x4c, 19, 0, 100), (pgSout 63, 0x50, 15, 0, 200), (pgSout 63, 0x54, 31, 0, 2186805298), (pgSout 63, 0x58, 15, 0, 8252), (pgEccC 4, 0x40, 31, 31, 1), (pgWdgC 4, 0x40, 9, 0, 100), (pgWdgB, 0x48, 23, 0, 100000), (pgBistM, 0x40, 31, 31, 1), (pgBistM, 0x40, 7, 0, 20), (pgRope 3, 0x40, 31, 30, 1), (pgRopeL, 0x48, 31, 0, 268435456), (pgRopeL, 0x70, 31, 0, 600), (pgRopeL, 0x74, 31, 0, 1000), (pgBcp 3, 0x40, 31, 0, 2147483648), (pgPwr 3, 0x40, 31, 0, 65537140), (pgTile 5, 0x8, 3, 0, 0), (pgTfe 5, 0xc, 1, 0, 0)], State.reset.fld q.1 q.2.1 q.2.2.1 q.2.2.2.1 = q.2.2.2.2
end

