-- ==== Sys2Proof/Laws/Sparse.lean ====
section
/-! SUPPORT. The laws of the sparse maps: read after write, and that every operation keeps the canonical form. -/

namespace Sys2Proof.Machine

variable {α : Type}

/-- A map whose entries all lie above `k` holds the default there. -/
theorem sget_above (d : Nat → α) (k : Nat) (m : List (Nat × α)) (h : ∀ p, m.head? = some p → k < p.1) : sget d m k = d k := by
  cases m with
  | nil => rfl
  | cons p m =>
    have hp := h p rfl
    have : ¬ p.1 = k := by omega
    simp [sget, this, hp]

theorem head_dropWhile (k : Nat) (m : List (Nat × α)) (p : Nat × α)
    (h : (m.dropWhile (fun e => decide (e.1 ≤ k))).head? = some p) : k < p.1 := by
  induction m with
  | nil => simp at h
  | cons q m ih =>
    by_cases hq : q.1 ≤ k
    · exact ih (by simpa [List.dropWhile, hq] using h)
    · simp only [List.dropWhile, hq, decide_false, List.head?_cons, Option.some.injEq] at h
      subst h; omega

theorem sget_dropWhile (d : Nat → α) (k i : Nat) (m : List (Nat × α)) (hi : k < i) :
    sget d (m.dropWhile (fun e => decide (e.1 ≤ k))) i = sget d m i := by
  induction m with
  | nil => rfl
  | cons q m ih =>
    by_cases hq : q.1 ≤ k
    · have h1 : ¬ q.1 = i := by omega
      have h2 : ¬ i < q.1 := by omega
      simpa [List.dropWhile, hq, sget, h1, h2] using ih
    · simp [List.dropWhile, hq]

/-- What a map holds where it was just written. -/
theorem sget_sput [DecidableEq α] (d : Nat → α) (k : Nat) (v : α) (m : List (Nat × α)) : sget d (sput d k v m) k = v := by
  induction m with
  | nil => by_cases e : v = d k <;> simp [sput, sget, e]
  | cons p m ih =>
    obtain ⟨j, w⟩ := p
    by_cases h1 : k < j
    · have hne : ¬ j = k := by omega
      by_cases e : v = d k <;> simp [sput, h1, e, sget, hne]
    · by_cases h2 : k = j
      · subst h2
        by_cases e : v = d k
        · simp only [sput, Nat.lt_irrefl, if_false, if_true, e]
          exact sget_above d k _ (head_dropWhile k m)
        · simp [sput, e, sget]
      · have hne : ¬ j = k := fun c => h2 c.symm
        simp [sput, h1, h2, sget, hne, ih]

/-- A write leaves every other place alone. -/
theorem sget_sput_other [DecidableEq α] (d : Nat → α) (k i : Nat) (v : α) (m : List (Nat × α)) (hi : i ≠ k) :
    sget d (sput d k v m) i = sget d m i := by
  have hk : ¬ k = i := fun c => hi c.symm
  induction m with
  | nil => by_cases e : v = d k <;> simp [sput, sget, e, hk]
  | cons p m ih =>
    obtain ⟨j, w⟩ := p
    by_cases h1 : k < j
    · by_cases e : v = d k
      · simp [sput, h1, e]
      · by_cases h3 : i < k
        · have h4 : i < j := by omega
          have h5 : ¬ j = i := by omega
          simp [sput, h1, e, sget, hk, h3, h4, h5]
        · simp [sput, h1, e, sget, hk, h3]
    · by_cases h2 : k = j
      · subst h2
        by_cases e : v = d k
        · simp only [sput, Nat.lt_irrefl, if_false, if_true, e, sget, hk]
          by_cases h3 : i < k
          · simp only [h3, if_true]
            exact sget_above d i _ fun p hp => by have := head_dropWhile k m p hp; omega
          · simp only [h3, if_false]
            exact sget_dropWhile d k i m (by omega)
        · simp [sput, e, sget, hk]
      · simp only [sput, h1, if_false, h2, sget, ih]

theorem dropWhile_of_above [DecidableEq α] (d : Nat → α) (k : Nat) (m : List (Nat × α)) (h : swfAbove d (k + 1) m = true) :
    m.dropWhile (fun e => decide (e.1 ≤ k)) = m := by
  cases m with
  | nil => rfl
  | cons p m =>
    simp only [swfAbove, Bool.and_eq_true, decide_eq_true_eq] at h
    have : ¬ p.1 ≤ k := by omega
    simp [List.dropWhile, this]

theorem swfAbove_mono [DecidableEq α] (d : Nat → α) (m : List (Nat × α)) (a b : Nat) (hab : a ≤ b)
    (h : swfAbove d b m = true) : swfAbove d a m = true := by
  cases m with
  | nil => rfl
  | cons p m =>
    simp only [swfAbove, Bool.and_eq_true, decide_eq_true_eq] at h ⊢
    exact ⟨⟨by omega, h.1.2⟩, h.2⟩

theorem swfAbove_sput [DecidableEq α] (d : Nat → α) (k : Nat) (v : α) (m : List (Nat × α)) (lo : Nat)
    (hk : lo ≤ k) (h : swfAbove d lo m = true) : swfAbove d lo (sput d k v m) = true := by
  induction m generalizing lo with
  | nil => by_cases e : v = d k <;> simp [sput, swfAbove, e, hk]
  | cons p m ih =>
    obtain ⟨j, w⟩ := p
    have h0 := h
    simp only [swfAbove, Bool.and_eq_true, decide_eq_true_eq] at h
    by_cases h1 : k < j
    · by_cases e : v = d k
      · simpa [sput, h1, e] using h0
      · simp only [sput, h1, if_true, e, if_false, swfAbove, Bool.and_eq_true, decide_eq_true_eq]
        exact ⟨⟨hk, e⟩, ⟨⟨by omega, h.1.2⟩, h.2⟩⟩
    · by_cases h2 : k = j
      · subst h2
        by_cases e : v = d k
        · simp only [sput, Nat.lt_irrefl, if_false, if_true, e]
          rw [dropWhile_of_above d k m h.2]
          exact swfAbove_mono d m lo (k + 1) (by omega) h.2
        · simp only [sput, Nat.lt_irrefl, if_false, if_true, e, swfAbove, Bool.and_eq_true, decide_eq_true_eq]
          exact ⟨⟨hk, e⟩, h.2⟩
      · simp only [sput, h1, if_false, h2, swfAbove, Bool.and_eq_true, decide_eq_true_eq]
        exact ⟨⟨h.1.1, h.1.2⟩, ih (j + 1) (by omega) h.2⟩

/-- A write keeps the canonical form. -/
theorem swf_sput [DecidableEq α] (d : Nat → α) (k : Nat) (v : α) (m : List (Nat × α)) (h : swf d m = true) :
    swf d (sput d k v m) = true :=
  swfAbove_sput d k v m 0 (Nat.zero_le _) h

/-- A change of one value keeps the canonical form. -/
theorem swf_supd [DecidableEq α] (d : Nat → α) (k : Nat) (f : α → α) (m : List (Nat × α)) (h : swf d m = true) :
    swf d (supd d k f m) = true :=
  swf_sput d k _ m h

theorem swfAbove_filter [DecidableEq α] (d : Nat → α) (p : Nat × α → Bool) (m : List (Nat × α)) (lo : Nat)
    (h : swfAbove d lo m = true) : swfAbove d lo (m.filter p) = true := by
  induction m generalizing lo with
  | nil => rfl
  | cons e m ih =>
    have h0 := h
    simp only [swfAbove, Bool.and_eq_true, decide_eq_true_eq] at h
    by_cases hp : p e = true
    · simp only [List.filter, hp, swfAbove, Bool.and_eq_true, decide_eq_true_eq]
      exact ⟨h.1, ih _ h.2⟩
    · simp only [List.filter, hp]
      exact swfAbove_mono d _ lo (e.1 + 1) (by omega) (ih _ h.2)

/-- Clearing a range keeps the canonical form. -/
theorem swf_sclear [DecidableEq α] (d : Nat → α) (m : List (Nat × α)) (a b : Nat) (h : swf d m = true) :
    swf d (sclear m a b) = true :=
  swfAbove_filter d _ m 0 h

end Sys2Proof.Machine
end

