-- ==== Sys2Proof/Laws/State.lean ====
section
/-! SUPPORT. What every update of State leaves alone, field by field: one lemma per field per update, true by definition. -/

namespace Sys2Proof.Machine

variable (s : State)

@[simp] theorem State.wr_pending (page off v : Nat) : (s.wr page off v).pending = s.pending := rfl
@[simp] theorem State.wr_now (page off v : Nat) : (s.wr page off v).now = s.now := rfl
@[simp] theorem State.wr_hot (page off v : Nat) : (s.wr page off v).hot = s.hot := rfl
@[simp] theorem State.wr_free (page off v : Nat) : (s.wr page off v).free = s.free := rfl
@[simp] theorem State.wr_pages (page off v : Nat) : (s.wr page off v).pages = s.pages := rfl
@[simp] theorem State.wr_mem (page off v : Nat) : (s.wr page off v).mem = s.mem := rfl
@[simp] theorem State.wr_chk (page off v : Nat) : (s.wr page off v).chk = s.chk := rfl
@[simp] theorem State.wr_pois (page off v : Nat) : (s.wr page off v).pois = s.pois := rfl
@[simp] theorem State.wr_tags (page off v : Nat) : (s.wr page off v).tags = s.tags := rfl
@[simp] theorem State.wr_dramErr (page off v : Nat) : (s.wr page off v).dramErr = s.dramErr := rfl
@[simp] theorem State.wr_banks (page off v : Nat) : (s.wr page off v).banks = s.banks := rfl
@[simp] theorem State.wr_trkIn (page off v : Nat) : (s.wr page off v).trkIn = s.trkIn := rfl
@[simp] theorem State.wr_trk (page off v : Nat) : (s.wr page off v).trk = s.trk := rfl
@[simp] theorem State.wr_bcast (page off v : Nat) : (s.wr page off v).bcast = s.bcast := rfl
@[simp] theorem State.wr_lastBcast (page off v : Nat) : (s.wr page off v).lastBcast = s.lastBcast := rfl
@[simp] theorem State.wr_wall (page off v : Nat) : (s.wr page off v).wall = s.wall := rfl
@[simp] theorem State.wr_wpt (page off v : Nat) : (s.wr page off v).wpt = s.wpt := rfl
@[simp] theorem State.wr_srcQ (page off v : Nat) : (s.wr page off v).srcQ = s.srcQ := rfl
@[simp] theorem State.wr_strs (page off v : Nat) : (s.wr page off v).strs = s.strs := rfl
@[simp] theorem State.wr_ringWait (page off v : Nat) : (s.wr page off v).ringWait = s.ringWait := rfl
@[simp] theorem State.wr_strTurn (page off v : Nat) : (s.wr page off v).strTurn = s.strTurn := rfl
@[simp] theorem State.wr_flow (page off v : Nat) : (s.wr page off v).flow = s.flow := rfl
@[simp] theorem State.wr_ports (page off v : Nat) : (s.wr page off v).ports = s.ports := rfl
@[simp] theorem State.wr_portPower (page off v : Nat) : (s.wr page off v).portPower = s.portPower := rfl
@[simp] theorem State.wr_arsIn (page off v : Nat) : (s.wr page off v).arsIn = s.arsIn := rfl
@[simp] theorem State.wr_arsView (page off v : Nat) : (s.wr page off v).arsView = s.arsView := rfl
@[simp] theorem State.wr_ars (page off v : Nat) : (s.wr page off v).ars = s.ars := rfl
@[simp] theorem State.wr_slots (page off v : Nat) : (s.wr page off v).slots = s.slots := rfl
@[simp] theorem State.wr_frd (page off v : Nat) : (s.wr page off v).frd = s.frd := rfl
@[simp] theorem State.wr_tiles (page off v : Nat) : (s.wr page off v).tiles = s.tiles := rfl
@[simp] theorem State.wr_tfe (page off v : Nat) : (s.wr page off v).tfe = s.tfe := rfl
@[simp] theorem State.wr_souts (page off v : Nat) : (s.wr page off v).souts = s.souts := rfl
@[simp] theorem State.wr_circs (page off v : Nat) : (s.wr page off v).circs = s.circs := rfl
@[simp] theorem State.wr_wdg (page off v : Nat) : (s.wr page off v).wdg = s.wdg := rfl
@[simp] theorem State.wr_pmcT (page off v : Nat) : (s.wr page off v).pmcT = s.pmcT := rfl
@[simp] theorem State.wr_bist (page off v : Nat) : (s.wr page off v).bist = s.bist := rfl
@[simp] theorem State.wr_xng (page off v : Nat) : (s.wr page off v).xng = s.xng := rfl
@[simp] theorem State.wr_ropes (page off v : Nat) : (s.wr page off v).ropes = s.ropes := rfl
@[simp] theorem State.wr_teams (page off v : Nat) : (s.wr page off v).teams = s.teams := rfl
@[simp] theorem State.wr_rope (page off v : Nat) : (s.wr page off v).rope = s.rope := rfl
@[simp] theorem State.wr_bcp (page off v : Nat) : (s.wr page off v).bcp = s.bcp := rfl
@[simp] theorem State.wr_spwrLow (page off v : Nat) : (s.wr page off v).spwrLow = s.spwrLow := rfl
@[simp] theorem State.wr_log (page off v : Nat) : (s.wr page off v).log = s.log := rfl
@[simp] theorem State.wr_out (page off v : Nat) : (s.wr page off v).out = s.out := rfl

@[simp] theorem State.wr64_pending (page off v : Nat) : (s.wr64 page off v).pending = s.pending := rfl
@[simp] theorem State.wr64_now (page off v : Nat) : (s.wr64 page off v).now = s.now := rfl
@[simp] theorem State.wr64_hot (page off v : Nat) : (s.wr64 page off v).hot = s.hot := rfl
@[simp] theorem State.wr64_free (page off v : Nat) : (s.wr64 page off v).free = s.free := rfl
@[simp] theorem State.wr64_pages (page off v : Nat) : (s.wr64 page off v).pages = s.pages := rfl
@[simp] theorem State.wr64_mem (page off v : Nat) : (s.wr64 page off v).mem = s.mem := rfl
@[simp] theorem State.wr64_chk (page off v : Nat) : (s.wr64 page off v).chk = s.chk := rfl
@[simp] theorem State.wr64_pois (page off v : Nat) : (s.wr64 page off v).pois = s.pois := rfl
@[simp] theorem State.wr64_tags (page off v : Nat) : (s.wr64 page off v).tags = s.tags := rfl
@[simp] theorem State.wr64_dramErr (page off v : Nat) : (s.wr64 page off v).dramErr = s.dramErr := rfl
@[simp] theorem State.wr64_banks (page off v : Nat) : (s.wr64 page off v).banks = s.banks := rfl
@[simp] theorem State.wr64_trkIn (page off v : Nat) : (s.wr64 page off v).trkIn = s.trkIn := rfl
@[simp] theorem State.wr64_trk (page off v : Nat) : (s.wr64 page off v).trk = s.trk := rfl
@[simp] theorem State.wr64_bcast (page off v : Nat) : (s.wr64 page off v).bcast = s.bcast := rfl
@[simp] theorem State.wr64_lastBcast (page off v : Nat) : (s.wr64 page off v).lastBcast = s.lastBcast := rfl
@[simp] theorem State.wr64_wall (page off v : Nat) : (s.wr64 page off v).wall = s.wall := rfl
@[simp] theorem State.wr64_wpt (page off v : Nat) : (s.wr64 page off v).wpt = s.wpt := rfl
@[simp] theorem State.wr64_srcQ (page off v : Nat) : (s.wr64 page off v).srcQ = s.srcQ := rfl
@[simp] theorem State.wr64_strs (page off v : Nat) : (s.wr64 page off v).strs = s.strs := rfl
@[simp] theorem State.wr64_ringWait (page off v : Nat) : (s.wr64 page off v).ringWait = s.ringWait := rfl
@[simp] theorem State.wr64_strTurn (page off v : Nat) : (s.wr64 page off v).strTurn = s.strTurn := rfl
@[simp] theorem State.wr64_flow (page off v : Nat) : (s.wr64 page off v).flow = s.flow := rfl
@[simp] theorem State.wr64_ports (page off v : Nat) : (s.wr64 page off v).ports = s.ports := rfl
@[simp] theorem State.wr64_portPower (page off v : Nat) : (s.wr64 page off v).portPower = s.portPower := rfl
@[simp] theorem State.wr64_arsIn (page off v : Nat) : (s.wr64 page off v).arsIn = s.arsIn := rfl
@[simp] theorem State.wr64_arsView (page off v : Nat) : (s.wr64 page off v).arsView = s.arsView := rfl
@[simp] theorem State.wr64_ars (page off v : Nat) : (s.wr64 page off v).ars = s.ars := rfl
@[simp] theorem State.wr64_slots (page off v : Nat) : (s.wr64 page off v).slots = s.slots := rfl
@[simp] theorem State.wr64_frd (page off v : Nat) : (s.wr64 page off v).frd = s.frd := rfl
@[simp] theorem State.wr64_tiles (page off v : Nat) : (s.wr64 page off v).tiles = s.tiles := rfl
@[simp] theorem State.wr64_tfe (page off v : Nat) : (s.wr64 page off v).tfe = s.tfe := rfl
@[simp] theorem State.wr64_souts (page off v : Nat) : (s.wr64 page off v).souts = s.souts := rfl
@[simp] theorem State.wr64_circs (page off v : Nat) : (s.wr64 page off v).circs = s.circs := rfl
@[simp] theorem State.wr64_wdg (page off v : Nat) : (s.wr64 page off v).wdg = s.wdg := rfl
@[simp] theorem State.wr64_pmcT (page off v : Nat) : (s.wr64 page off v).pmcT = s.pmcT := rfl
@[simp] theorem State.wr64_bist (page off v : Nat) : (s.wr64 page off v).bist = s.bist := rfl
@[simp] theorem State.wr64_xng (page off v : Nat) : (s.wr64 page off v).xng = s.xng := rfl
@[simp] theorem State.wr64_ropes (page off v : Nat) : (s.wr64 page off v).ropes = s.ropes := rfl
@[simp] theorem State.wr64_teams (page off v : Nat) : (s.wr64 page off v).teams = s.teams := rfl
@[simp] theorem State.wr64_rope (page off v : Nat) : (s.wr64 page off v).rope = s.rope := rfl
@[simp] theorem State.wr64_bcp (page off v : Nat) : (s.wr64 page off v).bcp = s.bcp := rfl
@[simp] theorem State.wr64_spwrLow (page off v : Nat) : (s.wr64 page off v).spwrLow = s.spwrLow := rfl
@[simp] theorem State.wr64_log (page off v : Nat) : (s.wr64 page off v).log = s.log := rfl
@[simp] theorem State.wr64_out (page off v : Nat) : (s.wr64 page off v).out = s.out := rfl

@[simp] theorem State.setFld_pending (page off hi lo v : Nat) : (s.setFld page off hi lo v).pending = s.pending := rfl
@[simp] theorem State.setFld_now (page off hi lo v : Nat) : (s.setFld page off hi lo v).now = s.now := rfl
@[simp] theorem State.setFld_hot (page off hi lo v : Nat) : (s.setFld page off hi lo v).hot = s.hot := rfl
@[simp] theorem State.setFld_free (page off hi lo v : Nat) : (s.setFld page off hi lo v).free = s.free := rfl
@[simp] theorem State.setFld_pages (page off hi lo v : Nat) : (s.setFld page off hi lo v).pages = s.pages := rfl
@[simp] theorem State.setFld_mem (page off hi lo v : Nat) : (s.setFld page off hi lo v).mem = s.mem := rfl
@[simp] theorem State.setFld_chk (page off hi lo v : Nat) : (s.setFld page off hi lo v).chk = s.chk := rfl
@[simp] theorem State.setFld_pois (page off hi lo v : Nat) : (s.setFld page off hi lo v).pois = s.pois := rfl
@[simp] theorem State.setFld_tags (page off hi lo v : Nat) : (s.setFld page off hi lo v).tags = s.tags := rfl
@[simp] theorem State.setFld_dramErr (page off hi lo v : Nat) : (s.setFld page off hi lo v).dramErr = s.dramErr := rfl
@[simp] theorem State.setFld_banks (page off hi lo v : Nat) : (s.setFld page off hi lo v).banks = s.banks := rfl
@[simp] theorem State.setFld_trkIn (page off hi lo v : Nat) : (s.setFld page off hi lo v).trkIn = s.trkIn := rfl
@[simp] theorem State.setFld_trk (page off hi lo v : Nat) : (s.setFld page off hi lo v).trk = s.trk := rfl
@[simp] theorem State.setFld_bcast (page off hi lo v : Nat) : (s.setFld page off hi lo v).bcast = s.bcast := rfl
@[simp] theorem State.setFld_lastBcast (page off hi lo v : Nat) : (s.setFld page off hi lo v).lastBcast = s.lastBcast := rfl
@[simp] theorem State.setFld_wall (page off hi lo v : Nat) : (s.setFld page off hi lo v).wall = s.wall := rfl
@[simp] theorem State.setFld_wpt (page off hi lo v : Nat) : (s.setFld page off hi lo v).wpt = s.wpt := rfl
@[simp] theorem State.setFld_srcQ (page off hi lo v : Nat) : (s.setFld page off hi lo v).srcQ = s.srcQ := rfl
@[simp] theorem State.setFld_strs (page off hi lo v : Nat) : (s.setFld page off hi lo v).strs = s.strs := rfl
@[simp] theorem State.setFld_ringWait (page off hi lo v : Nat) : (s.setFld page off hi lo v).ringWait = s.ringWait := rfl
@[simp] theorem State.setFld_strTurn (page off hi lo v : Nat) : (s.setFld page off hi lo v).strTurn = s.strTurn := rfl
@[simp] theorem State.setFld_flow (page off hi lo v : Nat) : (s.setFld page off hi lo v).flow = s.flow := rfl
@[simp] theorem State.setFld_ports (page off hi lo v : Nat) : (s.setFld page off hi lo v).ports = s.ports := rfl
@[simp] theorem State.setFld_portPower (page off hi lo v : Nat) : (s.setFld page off hi lo v).portPower = s.portPower := rfl
@[simp] theorem State.setFld_arsIn (page off hi lo v : Nat) : (s.setFld page off hi lo v).arsIn = s.arsIn := rfl
@[simp] theorem State.setFld_arsView (page off hi lo v : Nat) : (s.setFld page off hi lo v).arsView = s.arsView := rfl
@[simp] theorem State.setFld_ars (page off hi lo v : Nat) : (s.setFld page off hi lo v).ars = s.ars := rfl
@[simp] theorem State.setFld_slots (page off hi lo v : Nat) : (s.setFld page off hi lo v).slots = s.slots := rfl
@[simp] theorem State.setFld_frd (page off hi lo v : Nat) : (s.setFld page off hi lo v).frd = s.frd := rfl
@[simp] theorem State.setFld_tiles (page off hi lo v : Nat) : (s.setFld page off hi lo v).tiles = s.tiles := rfl
@[simp] theorem State.setFld_tfe (page off hi lo v : Nat) : (s.setFld page off hi lo v).tfe = s.tfe := rfl
@[simp] theorem State.setFld_souts (page off hi lo v : Nat) : (s.setFld page off hi lo v).souts = s.souts := rfl
@[simp] theorem State.setFld_circs (page off hi lo v : Nat) : (s.setFld page off hi lo v).circs = s.circs := rfl
@[simp] theorem State.setFld_wdg (page off hi lo v : Nat) : (s.setFld page off hi lo v).wdg = s.wdg := rfl
@[simp] theorem State.setFld_pmcT (page off hi lo v : Nat) : (s.setFld page off hi lo v).pmcT = s.pmcT := rfl
@[simp] theorem State.setFld_bist (page off hi lo v : Nat) : (s.setFld page off hi lo v).bist = s.bist := rfl
@[simp] theorem State.setFld_xng (page off hi lo v : Nat) : (s.setFld page off hi lo v).xng = s.xng := rfl
@[simp] theorem State.setFld_ropes (page off hi lo v : Nat) : (s.setFld page off hi lo v).ropes = s.ropes := rfl
@[simp] theorem State.setFld_teams (page off hi lo v : Nat) : (s.setFld page off hi lo v).teams = s.teams := rfl
@[simp] theorem State.setFld_rope (page off hi lo v : Nat) : (s.setFld page off hi lo v).rope = s.rope := rfl
@[simp] theorem State.setFld_bcp (page off hi lo v : Nat) : (s.setFld page off hi lo v).bcp = s.bcp := rfl
@[simp] theorem State.setFld_spwrLow (page off hi lo v : Nat) : (s.setFld page off hi lo v).spwrLow = s.spwrLow := rfl
@[simp] theorem State.setFld_log (page off hi lo v : Nat) : (s.setFld page off hi lo v).log = s.log := rfl
@[simp] theorem State.setFld_out (page off hi lo v : Nat) : (s.setFld page off hi lo v).out = s.out := rfl

@[simp] theorem State.setB_pending (page off b : Nat) (v : Bool) : (s.setB page off b v).pending = s.pending := rfl
@[simp] theorem State.setB_now (page off b : Nat) (v : Bool) : (s.setB page off b v).now = s.now := rfl
@[simp] theorem State.setB_hot (page off b : Nat) (v : Bool) : (s.setB page off b v).hot = s.hot := rfl
@[simp] theorem State.setB_free (page off b : Nat) (v : Bool) : (s.setB page off b v).free = s.free := rfl
@[simp] theorem State.setB_pages (page off b : Nat) (v : Bool) : (s.setB page off b v).pages = s.pages := rfl
@[simp] theorem State.setB_mem (page off b : Nat) (v : Bool) : (s.setB page off b v).mem = s.mem := rfl
@[simp] theorem State.setB_chk (page off b : Nat) (v : Bool) : (s.setB page off b v).chk = s.chk := rfl
@[simp] theorem State.setB_pois (page off b : Nat) (v : Bool) : (s.setB page off b v).pois = s.pois := rfl
@[simp] theorem State.setB_tags (page off b : Nat) (v : Bool) : (s.setB page off b v).tags = s.tags := rfl
@[simp] theorem State.setB_dramErr (page off b : Nat) (v : Bool) : (s.setB page off b v).dramErr = s.dramErr := rfl
@[simp] theorem State.setB_banks (page off b : Nat) (v : Bool) : (s.setB page off b v).banks = s.banks := rfl
@[simp] theorem State.setB_trkIn (page off b : Nat) (v : Bool) : (s.setB page off b v).trkIn = s.trkIn := rfl
@[simp] theorem State.setB_trk (page off b : Nat) (v : Bool) : (s.setB page off b v).trk = s.trk := rfl
@[simp] theorem State.setB_bcast (page off b : Nat) (v : Bool) : (s.setB page off b v).bcast = s.bcast := rfl
@[simp] theorem State.setB_lastBcast (page off b : Nat) (v : Bool) : (s.setB page off b v).lastBcast = s.lastBcast := rfl
@[simp] theorem State.setB_wall (page off b : Nat) (v : Bool) : (s.setB page off b v).wall = s.wall := rfl
@[simp] theorem State.setB_wpt (page off b : Nat) (v : Bool) : (s.setB page off b v).wpt = s.wpt := rfl
@[simp] theorem State.setB_srcQ (page off b : Nat) (v : Bool) : (s.setB page off b v).srcQ = s.srcQ := rfl
@[simp] theorem State.setB_strs (page off b : Nat) (v : Bool) : (s.setB page off b v).strs = s.strs := rfl
@[simp] theorem State.setB_ringWait (page off b : Nat) (v : Bool) : (s.setB page off b v).ringWait = s.ringWait := rfl
@[simp] theorem State.setB_strTurn (page off b : Nat) (v : Bool) : (s.setB page off b v).strTurn = s.strTurn := rfl
@[simp] theorem State.setB_flow (page off b : Nat) (v : Bool) : (s.setB page off b v).flow = s.flow := rfl
@[simp] theorem State.setB_ports (page off b : Nat) (v : Bool) : (s.setB page off b v).ports = s.ports := rfl
@[simp] theorem State.setB_portPower (page off b : Nat) (v : Bool) : (s.setB page off b v).portPower = s.portPower := rfl
@[simp] theorem State.setB_arsIn (page off b : Nat) (v : Bool) : (s.setB page off b v).arsIn = s.arsIn := rfl
@[simp] theorem State.setB_arsView (page off b : Nat) (v : Bool) : (s.setB page off b v).arsView = s.arsView := rfl
@[simp] theorem State.setB_ars (page off b : Nat) (v : Bool) : (s.setB page off b v).ars = s.ars := rfl
@[simp] theorem State.setB_slots (page off b : Nat) (v : Bool) : (s.setB page off b v).slots = s.slots := rfl
@[simp] theorem State.setB_frd (page off b : Nat) (v : Bool) : (s.setB page off b v).frd = s.frd := rfl
@[simp] theorem State.setB_tiles (page off b : Nat) (v : Bool) : (s.setB page off b v).tiles = s.tiles := rfl
@[simp] theorem State.setB_tfe (page off b : Nat) (v : Bool) : (s.setB page off b v).tfe = s.tfe := rfl
@[simp] theorem State.setB_souts (page off b : Nat) (v : Bool) : (s.setB page off b v).souts = s.souts := rfl
@[simp] theorem State.setB_circs (page off b : Nat) (v : Bool) : (s.setB page off b v).circs = s.circs := rfl
@[simp] theorem State.setB_wdg (page off b : Nat) (v : Bool) : (s.setB page off b v).wdg = s.wdg := rfl
@[simp] theorem State.setB_pmcT (page off b : Nat) (v : Bool) : (s.setB page off b v).pmcT = s.pmcT := rfl
@[simp] theorem State.setB_bist (page off b : Nat) (v : Bool) : (s.setB page off b v).bist = s.bist := rfl
@[simp] theorem State.setB_xng (page off b : Nat) (v : Bool) : (s.setB page off b v).xng = s.xng := rfl
@[simp] theorem State.setB_ropes (page off b : Nat) (v : Bool) : (s.setB page off b v).ropes = s.ropes := rfl
@[simp] theorem State.setB_teams (page off b : Nat) (v : Bool) : (s.setB page off b v).teams = s.teams := rfl
@[simp] theorem State.setB_rope (page off b : Nat) (v : Bool) : (s.setB page off b v).rope = s.rope := rfl
@[simp] theorem State.setB_bcp (page off b : Nat) (v : Bool) : (s.setB page off b v).bcp = s.bcp := rfl
@[simp] theorem State.setB_spwrLow (page off b : Nat) (v : Bool) : (s.setB page off b v).spwrLow = s.spwrLow := rfl
@[simp] theorem State.setB_log (page off b : Nat) (v : Bool) : (s.setB page off b v).log = s.log := rfl
@[simp] theorem State.setB_out (page off b : Nat) (v : Bool) : (s.setB page off b v).out = s.out := rfl

@[simp] theorem State.bump_pending (page off hi lo : Nat) (n : Nat) : (s.bump page off hi lo n).pending = s.pending := rfl
@[simp] theorem State.bump_now (page off hi lo : Nat) (n : Nat) : (s.bump page off hi lo n).now = s.now := rfl
@[simp] theorem State.bump_free (page off hi lo : Nat) (n : Nat) : (s.bump page off hi lo n).free = s.free := rfl
@[simp] theorem State.bump_pages (page off hi lo : Nat) (n : Nat) : (s.bump page off hi lo n).pages = s.pages := rfl
@[simp] theorem State.bump_mem (page off hi lo : Nat) (n : Nat) : (s.bump page off hi lo n).mem = s.mem := rfl
@[simp] theorem State.bump_chk (page off hi lo : Nat) (n : Nat) : (s.bump page off hi lo n).chk = s.chk := rfl
@[simp] theorem State.bump_pois (page off hi lo : Nat) (n : Nat) : (s.bump page off hi lo n).pois = s.pois := rfl
@[simp] theorem State.bump_tags (page off hi lo : Nat) (n : Nat) : (s.bump page off hi lo n).tags = s.tags := rfl
@[simp] theorem State.bump_dramErr (page off hi lo : Nat) (n : Nat) : (s.bump page off hi lo n).dramErr = s.dramErr := rfl
@[simp] theorem State.bump_banks (page off hi lo : Nat) (n : Nat) : (s.bump page off hi lo n).banks = s.banks := rfl
@[simp] theorem State.bump_trkIn (page off hi lo : Nat) (n : Nat) : (s.bump page off hi lo n).trkIn = s.trkIn := rfl
@[simp] theorem State.bump_trk (page off hi lo : Nat) (n : Nat) : (s.bump page off hi lo n).trk = s.trk := rfl
@[simp] theorem State.bump_bcast (page off hi lo : Nat) (n : Nat) : (s.bump page off hi lo n).bcast = s.bcast := rfl
@[simp] theorem State.bump_lastBcast (page off hi lo : Nat) (n : Nat) : (s.bump page off hi lo n).lastBcast = s.lastBcast := rfl
@[simp] theorem State.bump_wall (page off hi lo : Nat) (n : Nat) : (s.bump page off hi lo n).wall = s.wall := rfl
@[simp] theorem State.bump_wpt (page off hi lo : Nat) (n : Nat) : (s.bump page off hi lo n).wpt = s.wpt := rfl
@[simp] theorem State.bump_srcQ (page off hi lo : Nat) (n : Nat) : (s.bump page off hi lo n).srcQ = s.srcQ := rfl
@[simp] theorem State.bump_strs (page off hi lo : Nat) (n : Nat) : (s.bump page off hi lo n).strs = s.strs := rfl
@[simp] theorem State.bump_ringWait (page off hi lo : Nat) (n : Nat) : (s.bump page off hi lo n).ringWait = s.ringWait := rfl
@[simp] theorem State.bump_strTurn (page off hi lo : Nat) (n : Nat) : (s.bump page off hi lo n).strTurn = s.strTurn := rfl
@[simp] theorem State.bump_flow (page off hi lo : Nat) (n : Nat) : (s.bump page off hi lo n).flow = s.flow := rfl
@[simp] theorem State.bump_ports (page off hi lo : Nat) (n : Nat) : (s.bump page off hi lo n).ports = s.ports := rfl
@[simp] theorem State.bump_portPower (page off hi lo : Nat) (n : Nat) : (s.bump page off hi lo n).portPower = s.portPower := rfl
@[simp] theorem State.bump_arsIn (page off hi lo : Nat) (n : Nat) : (s.bump page off hi lo n).arsIn = s.arsIn := rfl
@[simp] theorem State.bump_arsView (page off hi lo : Nat) (n : Nat) : (s.bump page off hi lo n).arsView = s.arsView := rfl
@[simp] theorem State.bump_ars (page off hi lo : Nat) (n : Nat) : (s.bump page off hi lo n).ars = s.ars := rfl
@[simp] theorem State.bump_slots (page off hi lo : Nat) (n : Nat) : (s.bump page off hi lo n).slots = s.slots := rfl
@[simp] theorem State.bump_frd (page off hi lo : Nat) (n : Nat) : (s.bump page off hi lo n).frd = s.frd := rfl
@[simp] theorem State.bump_tiles (page off hi lo : Nat) (n : Nat) : (s.bump page off hi lo n).tiles = s.tiles := rfl
@[simp] theorem State.bump_tfe (page off hi lo : Nat) (n : Nat) : (s.bump page off hi lo n).tfe = s.tfe := rfl
@[simp] theorem State.bump_souts (page off hi lo : Nat) (n : Nat) : (s.bump page off hi lo n).souts = s.souts := rfl
@[simp] theorem State.bump_circs (page off hi lo : Nat) (n : Nat) : (s.bump page off hi lo n).circs = s.circs := rfl
@[simp] theorem State.bump_wdg (page off hi lo : Nat) (n : Nat) : (s.bump page off hi lo n).wdg = s.wdg := rfl
@[simp] theorem State.bump_pmcT (page off hi lo : Nat) (n : Nat) : (s.bump page off hi lo n).pmcT = s.pmcT := rfl
@[simp] theorem State.bump_bist (page off hi lo : Nat) (n : Nat) : (s.bump page off hi lo n).bist = s.bist := rfl
@[simp] theorem State.bump_xng (page off hi lo : Nat) (n : Nat) : (s.bump page off hi lo n).xng = s.xng := rfl
@[simp] theorem State.bump_ropes (page off hi lo : Nat) (n : Nat) : (s.bump page off hi lo n).ropes = s.ropes := rfl
@[simp] theorem State.bump_teams (page off hi lo : Nat) (n : Nat) : (s.bump page off hi lo n).teams = s.teams := rfl
@[simp] theorem State.bump_rope (page off hi lo : Nat) (n : Nat) : (s.bump page off hi lo n).rope = s.rope := rfl
@[simp] theorem State.bump_bcp (page off hi lo : Nat) (n : Nat) : (s.bump page off hi lo n).bcp = s.bcp := rfl
@[simp] theorem State.bump_spwrLow (page off hi lo : Nat) (n : Nat) : (s.bump page off hi lo n).spwrLow = s.spwrLow := rfl
@[simp] theorem State.bump_log (page off hi lo : Nat) (n : Nat) : (s.bump page off hi lo n).log = s.log := rfl
@[simp] theorem State.bump_out (page off hi lo : Nat) (n : Nat) : (s.bump page off hi lo n).out = s.out := rfl

@[simp] theorem State.raiseMax_pending (page off hi lo v : Nat) : (s.raiseMax page off hi lo v).pending = s.pending := rfl
@[simp] theorem State.raiseMax_now (page off hi lo v : Nat) : (s.raiseMax page off hi lo v).now = s.now := rfl
@[simp] theorem State.raiseMax_free (page off hi lo v : Nat) : (s.raiseMax page off hi lo v).free = s.free := rfl
@[simp] theorem State.raiseMax_pages (page off hi lo v : Nat) : (s.raiseMax page off hi lo v).pages = s.pages := rfl
@[simp] theorem State.raiseMax_mem (page off hi lo v : Nat) : (s.raiseMax page off hi lo v).mem = s.mem := rfl
@[simp] theorem State.raiseMax_chk (page off hi lo v : Nat) : (s.raiseMax page off hi lo v).chk = s.chk := rfl
@[simp] theorem State.raiseMax_pois (page off hi lo v : Nat) : (s.raiseMax page off hi lo v).pois = s.pois := rfl
@[simp] theorem State.raiseMax_tags (page off hi lo v : Nat) : (s.raiseMax page off hi lo v).tags = s.tags := rfl
@[simp] theorem State.raiseMax_dramErr (page off hi lo v : Nat) : (s.raiseMax page off hi lo v).dramErr = s.dramErr := rfl
@[simp] theorem State.raiseMax_banks (page off hi lo v : Nat) : (s.raiseMax page off hi lo v).banks = s.banks := rfl
@[simp] theorem State.raiseMax_trkIn (page off hi lo v : Nat) : (s.raiseMax page off hi lo v).trkIn = s.trkIn := rfl
@[simp] theorem State.raiseMax_trk (page off hi lo v : Nat) : (s.raiseMax page off hi lo v).trk = s.trk := rfl
@[simp] theorem State.raiseMax_bcast (page off hi lo v : Nat) : (s.raiseMax page off hi lo v).bcast = s.bcast := rfl
@[simp] theorem State.raiseMax_lastBcast (page off hi lo v : Nat) : (s.raiseMax page off hi lo v).lastBcast = s.lastBcast := rfl
@[simp] theorem State.raiseMax_wall (page off hi lo v : Nat) : (s.raiseMax page off hi lo v).wall = s.wall := rfl
@[simp] theorem State.raiseMax_wpt (page off hi lo v : Nat) : (s.raiseMax page off hi lo v).wpt = s.wpt := rfl
@[simp] theorem State.raiseMax_srcQ (page off hi lo v : Nat) : (s.raiseMax page off hi lo v).srcQ = s.srcQ := rfl
@[simp] theorem State.raiseMax_strs (page off hi lo v : Nat) : (s.raiseMax page off hi lo v).strs = s.strs := rfl
@[simp] theorem State.raiseMax_ringWait (page off hi lo v : Nat) : (s.raiseMax page off hi lo v).ringWait = s.ringWait := rfl
@[simp] theorem State.raiseMax_strTurn (page off hi lo v : Nat) : (s.raiseMax page off hi lo v).strTurn = s.strTurn := rfl
@[simp] theorem State.raiseMax_flow (page off hi lo v : Nat) : (s.raiseMax page off hi lo v).flow = s.flow := rfl
@[simp] theorem State.raiseMax_ports (page off hi lo v : Nat) : (s.raiseMax page off hi lo v).ports = s.ports := rfl
@[simp] theorem State.raiseMax_portPower (page off hi lo v : Nat) : (s.raiseMax page off hi lo v).portPower = s.portPower := rfl
@[simp] theorem State.raiseMax_arsIn (page off hi lo v : Nat) : (s.raiseMax page off hi lo v).arsIn = s.arsIn := rfl
@[simp] theorem State.raiseMax_arsView (page off hi lo v : Nat) : (s.raiseMax page off hi lo v).arsView = s.arsView := rfl
@[simp] theorem State.raiseMax_ars (page off hi lo v : Nat) : (s.raiseMax page off hi lo v).ars = s.ars := rfl
@[simp] theorem State.raiseMax_slots (page off hi lo v : Nat) : (s.raiseMax page off hi lo v).slots = s.slots := rfl
@[simp] theorem State.raiseMax_frd (page off hi lo v : Nat) : (s.raiseMax page off hi lo v).frd = s.frd := rfl
@[simp] theorem State.raiseMax_tiles (page off hi lo v : Nat) : (s.raiseMax page off hi lo v).tiles = s.tiles := rfl
@[simp] theorem State.raiseMax_tfe (page off hi lo v : Nat) : (s.raiseMax page off hi lo v).tfe = s.tfe := rfl
@[simp] theorem State.raiseMax_souts (page off hi lo v : Nat) : (s.raiseMax page off hi lo v).souts = s.souts := rfl
@[simp] theorem State.raiseMax_circs (page off hi lo v : Nat) : (s.raiseMax page off hi lo v).circs = s.circs := rfl
@[simp] theorem State.raiseMax_wdg (page off hi lo v : Nat) : (s.raiseMax page off hi lo v).wdg = s.wdg := rfl
@[simp] theorem State.raiseMax_pmcT (page off hi lo v : Nat) : (s.raiseMax page off hi lo v).pmcT = s.pmcT := rfl
@[simp] theorem State.raiseMax_bist (page off hi lo v : Nat) : (s.raiseMax page off hi lo v).bist = s.bist := rfl
@[simp] theorem State.raiseMax_xng (page off hi lo v : Nat) : (s.raiseMax page off hi lo v).xng = s.xng := rfl
@[simp] theorem State.raiseMax_ropes (page off hi lo v : Nat) : (s.raiseMax page off hi lo v).ropes = s.ropes := rfl
@[simp] theorem State.raiseMax_teams (page off hi lo v : Nat) : (s.raiseMax page off hi lo v).teams = s.teams := rfl
@[simp] theorem State.raiseMax_rope (page off hi lo v : Nat) : (s.raiseMax page off hi lo v).rope = s.rope := rfl
@[simp] theorem State.raiseMax_bcp (page off hi lo v : Nat) : (s.raiseMax page off hi lo v).bcp = s.bcp := rfl
@[simp] theorem State.raiseMax_spwrLow (page off hi lo v : Nat) : (s.raiseMax page off hi lo v).spwrLow = s.spwrLow := rfl
@[simp] theorem State.raiseMax_log (page off hi lo v : Nat) : (s.raiseMax page off hi lo v).log = s.log := rfl
@[simp] theorem State.raiseMax_out (page off hi lo v : Nat) : (s.raiseMax page off hi lo v).out = s.out := rfl

@[simp] theorem State.irq_pending (page b : Nat) : (s.irq page b).pending = s.pending := rfl
@[simp] theorem State.irq_now (page b : Nat) : (s.irq page b).now = s.now := rfl
@[simp] theorem State.irq_free (page b : Nat) : (s.irq page b).free = s.free := rfl
@[simp] theorem State.irq_pages (page b : Nat) : (s.irq page b).pages = s.pages := rfl
@[simp] theorem State.irq_mem (page b : Nat) : (s.irq page b).mem = s.mem := rfl
@[simp] theorem State.irq_chk (page b : Nat) : (s.irq page b).chk = s.chk := rfl
@[simp] theorem State.irq_pois (page b : Nat) : (s.irq page b).pois = s.pois := rfl
@[simp] theorem State.irq_tags (page b : Nat) : (s.irq page b).tags = s.tags := rfl
@[simp] theorem State.irq_dramErr (page b : Nat) : (s.irq page b).dramErr = s.dramErr := rfl
@[simp] theorem State.irq_banks (page b : Nat) : (s.irq page b).banks = s.banks := rfl
@[simp] theorem State.irq_trkIn (page b : Nat) : (s.irq page b).trkIn = s.trkIn := rfl
@[simp] theorem State.irq_trk (page b : Nat) : (s.irq page b).trk = s.trk := rfl
@[simp] theorem State.irq_bcast (page b : Nat) : (s.irq page b).bcast = s.bcast := rfl
@[simp] theorem State.irq_lastBcast (page b : Nat) : (s.irq page b).lastBcast = s.lastBcast := rfl
@[simp] theorem State.irq_wall (page b : Nat) : (s.irq page b).wall = s.wall := rfl
@[simp] theorem State.irq_wpt (page b : Nat) : (s.irq page b).wpt = s.wpt := rfl
@[simp] theorem State.irq_srcQ (page b : Nat) : (s.irq page b).srcQ = s.srcQ := rfl
@[simp] theorem State.irq_strs (page b : Nat) : (s.irq page b).strs = s.strs := rfl
@[simp] theorem State.irq_ringWait (page b : Nat) : (s.irq page b).ringWait = s.ringWait := rfl
@[simp] theorem State.irq_strTurn (page b : Nat) : (s.irq page b).strTurn = s.strTurn := rfl
@[simp] theorem State.irq_flow (page b : Nat) : (s.irq page b).flow = s.flow := rfl
@[simp] theorem State.irq_ports (page b : Nat) : (s.irq page b).ports = s.ports := rfl
@[simp] theorem State.irq_portPower (page b : Nat) : (s.irq page b).portPower = s.portPower := rfl
@[simp] theorem State.irq_arsIn (page b : Nat) : (s.irq page b).arsIn = s.arsIn := rfl
@[simp] theorem State.irq_arsView (page b : Nat) : (s.irq page b).arsView = s.arsView := rfl
@[simp] theorem State.irq_ars (page b : Nat) : (s.irq page b).ars = s.ars := rfl
@[simp] theorem State.irq_slots (page b : Nat) : (s.irq page b).slots = s.slots := rfl
@[simp] theorem State.irq_frd (page b : Nat) : (s.irq page b).frd = s.frd := rfl
@[simp] theorem State.irq_tiles (page b : Nat) : (s.irq page b).tiles = s.tiles := rfl
@[simp] theorem State.irq_tfe (page b : Nat) : (s.irq page b).tfe = s.tfe := rfl
@[simp] theorem State.irq_souts (page b : Nat) : (s.irq page b).souts = s.souts := rfl
@[simp] theorem State.irq_circs (page b : Nat) : (s.irq page b).circs = s.circs := rfl
@[simp] theorem State.irq_wdg (page b : Nat) : (s.irq page b).wdg = s.wdg := rfl
@[simp] theorem State.irq_pmcT (page b : Nat) : (s.irq page b).pmcT = s.pmcT := rfl
@[simp] theorem State.irq_bist (page b : Nat) : (s.irq page b).bist = s.bist := rfl
@[simp] theorem State.irq_xng (page b : Nat) : (s.irq page b).xng = s.xng := rfl
@[simp] theorem State.irq_ropes (page b : Nat) : (s.irq page b).ropes = s.ropes := rfl
@[simp] theorem State.irq_teams (page b : Nat) : (s.irq page b).teams = s.teams := rfl
@[simp] theorem State.irq_rope (page b : Nat) : (s.irq page b).rope = s.rope := rfl
@[simp] theorem State.irq_bcp (page b : Nat) : (s.irq page b).bcp = s.bcp := rfl
@[simp] theorem State.irq_spwrLow (page b : Nat) : (s.irq page b).spwrLow = s.spwrLow := rfl
@[simp] theorem State.irq_log (page b : Nat) : (s.irq page b).log = s.log := rfl
@[simp] theorem State.irq_out (page b : Nat) : (s.irq page b).out = s.out := rfl

@[simp] theorem State.clampCount_pending (page off kind : Nat) : (s.clampCount page off kind).pending = s.pending := rfl
@[simp] theorem State.clampCount_now (page off kind : Nat) : (s.clampCount page off kind).now = s.now := rfl
@[simp] theorem State.clampCount_free (page off kind : Nat) : (s.clampCount page off kind).free = s.free := rfl
@[simp] theorem State.clampCount_pages (page off kind : Nat) : (s.clampCount page off kind).pages = s.pages := rfl
@[simp] theorem State.clampCount_mem (page off kind : Nat) : (s.clampCount page off kind).mem = s.mem := rfl
@[simp] theorem State.clampCount_chk (page off kind : Nat) : (s.clampCount page off kind).chk = s.chk := rfl
@[simp] theorem State.clampCount_pois (page off kind : Nat) : (s.clampCount page off kind).pois = s.pois := rfl
@[simp] theorem State.clampCount_tags (page off kind : Nat) : (s.clampCount page off kind).tags = s.tags := rfl
@[simp] theorem State.clampCount_dramErr (page off kind : Nat) : (s.clampCount page off kind).dramErr = s.dramErr := rfl
@[simp] theorem State.clampCount_banks (page off kind : Nat) : (s.clampCount page off kind).banks = s.banks := rfl
@[simp] theorem State.clampCount_trkIn (page off kind : Nat) : (s.clampCount page off kind).trkIn = s.trkIn := rfl
@[simp] theorem State.clampCount_trk (page off kind : Nat) : (s.clampCount page off kind).trk = s.trk := rfl
@[simp] theorem State.clampCount_bcast (page off kind : Nat) : (s.clampCount page off kind).bcast = s.bcast := rfl
@[simp] theorem State.clampCount_lastBcast (page off kind : Nat) : (s.clampCount page off kind).lastBcast = s.lastBcast := rfl
@[simp] theorem State.clampCount_wall (page off kind : Nat) : (s.clampCount page off kind).wall = s.wall := rfl
@[simp] theorem State.clampCount_wpt (page off kind : Nat) : (s.clampCount page off kind).wpt = s.wpt := rfl
@[simp] theorem State.clampCount_srcQ (page off kind : Nat) : (s.clampCount page off kind).srcQ = s.srcQ := rfl
@[simp] theorem State.clampCount_strs (page off kind : Nat) : (s.clampCount page off kind).strs = s.strs := rfl
@[simp] theorem State.clampCount_ringWait (page off kind : Nat) : (s.clampCount page off kind).ringWait = s.ringWait := rfl
@[simp] theorem State.clampCount_strTurn (page off kind : Nat) : (s.clampCount page off kind).strTurn = s.strTurn := rfl
@[simp] theorem State.clampCount_flow (page off kind : Nat) : (s.clampCount page off kind).flow = s.flow := rfl
@[simp] theorem State.clampCount_ports (page off kind : Nat) : (s.clampCount page off kind).ports = s.ports := rfl
@[simp] theorem State.clampCount_portPower (page off kind : Nat) : (s.clampCount page off kind).portPower = s.portPower := rfl
@[simp] theorem State.clampCount_arsIn (page off kind : Nat) : (s.clampCount page off kind).arsIn = s.arsIn := rfl
@[simp] theorem State.clampCount_arsView (page off kind : Nat) : (s.clampCount page off kind).arsView = s.arsView := rfl
@[simp] theorem State.clampCount_ars (page off kind : Nat) : (s.clampCount page off kind).ars = s.ars := rfl
@[simp] theorem State.clampCount_slots (page off kind : Nat) : (s.clampCount page off kind).slots = s.slots := rfl
@[simp] theorem State.clampCount_frd (page off kind : Nat) : (s.clampCount page off kind).frd = s.frd := rfl
@[simp] theorem State.clampCount_tiles (page off kind : Nat) : (s.clampCount page off kind).tiles = s.tiles := rfl
@[simp] theorem State.clampCount_tfe (page off kind : Nat) : (s.clampCount page off kind).tfe = s.tfe := rfl
@[simp] theorem State.clampCount_souts (page off kind : Nat) : (s.clampCount page off kind).souts = s.souts := rfl
@[simp] theorem State.clampCount_circs (page off kind : Nat) : (s.clampCount page off kind).circs = s.circs := rfl
@[simp] theorem State.clampCount_wdg (page off kind : Nat) : (s.clampCount page off kind).wdg = s.wdg := rfl
@[simp] theorem State.clampCount_pmcT (page off kind : Nat) : (s.clampCount page off kind).pmcT = s.pmcT := rfl
@[simp] theorem State.clampCount_bist (page off kind : Nat) : (s.clampCount page off kind).bist = s.bist := rfl
@[simp] theorem State.clampCount_xng (page off kind : Nat) : (s.clampCount page off kind).xng = s.xng := rfl
@[simp] theorem State.clampCount_ropes (page off kind : Nat) : (s.clampCount page off kind).ropes = s.ropes := rfl
@[simp] theorem State.clampCount_teams (page off kind : Nat) : (s.clampCount page off kind).teams = s.teams := rfl
@[simp] theorem State.clampCount_rope (page off kind : Nat) : (s.clampCount page off kind).rope = s.rope := rfl
@[simp] theorem State.clampCount_bcp (page off kind : Nat) : (s.clampCount page off kind).bcp = s.bcp := rfl
@[simp] theorem State.clampCount_spwrLow (page off kind : Nat) : (s.clampCount page off kind).spwrLow = s.spwrLow := rfl
@[simp] theorem State.clampCount_log (page off kind : Nat) : (s.clampCount page off kind).log = s.log := rfl
@[simp] theorem State.clampCount_out (page off kind : Nat) : (s.clampCount page off kind).out = s.out := rfl

@[simp] theorem State.errCorr_pending (page : Nat) : (s.errCorr page).pending = s.pending := rfl
@[simp] theorem State.errCorr_now (page : Nat) : (s.errCorr page).now = s.now := rfl
@[simp] theorem State.errCorr_free (page : Nat) : (s.errCorr page).free = s.free := rfl
@[simp] theorem State.errCorr_pages (page : Nat) : (s.errCorr page).pages = s.pages := rfl
@[simp] theorem State.errCorr_mem (page : Nat) : (s.errCorr page).mem = s.mem := rfl
@[simp] theorem State.errCorr_chk (page : Nat) : (s.errCorr page).chk = s.chk := rfl
@[simp] theorem State.errCorr_pois (page : Nat) : (s.errCorr page).pois = s.pois := rfl
@[simp] theorem State.errCorr_tags (page : Nat) : (s.errCorr page).tags = s.tags := rfl
@[simp] theorem State.errCorr_dramErr (page : Nat) : (s.errCorr page).dramErr = s.dramErr := rfl
@[simp] theorem State.errCorr_banks (page : Nat) : (s.errCorr page).banks = s.banks := rfl
@[simp] theorem State.errCorr_trkIn (page : Nat) : (s.errCorr page).trkIn = s.trkIn := rfl
@[simp] theorem State.errCorr_trk (page : Nat) : (s.errCorr page).trk = s.trk := rfl
@[simp] theorem State.errCorr_bcast (page : Nat) : (s.errCorr page).bcast = s.bcast := rfl
@[simp] theorem State.errCorr_lastBcast (page : Nat) : (s.errCorr page).lastBcast = s.lastBcast := rfl
@[simp] theorem State.errCorr_wall (page : Nat) : (s.errCorr page).wall = s.wall := rfl
@[simp] theorem State.errCorr_wpt (page : Nat) : (s.errCorr page).wpt = s.wpt := rfl
@[simp] theorem State.errCorr_srcQ (page : Nat) : (s.errCorr page).srcQ = s.srcQ := rfl
@[simp] theorem State.errCorr_strs (page : Nat) : (s.errCorr page).strs = s.strs := rfl
@[simp] theorem State.errCorr_ringWait (page : Nat) : (s.errCorr page).ringWait = s.ringWait := rfl
@[simp] theorem State.errCorr_strTurn (page : Nat) : (s.errCorr page).strTurn = s.strTurn := rfl
@[simp] theorem State.errCorr_flow (page : Nat) : (s.errCorr page).flow = s.flow := rfl
@[simp] theorem State.errCorr_ports (page : Nat) : (s.errCorr page).ports = s.ports := rfl
@[simp] theorem State.errCorr_portPower (page : Nat) : (s.errCorr page).portPower = s.portPower := rfl
@[simp] theorem State.errCorr_arsIn (page : Nat) : (s.errCorr page).arsIn = s.arsIn := rfl
@[simp] theorem State.errCorr_arsView (page : Nat) : (s.errCorr page).arsView = s.arsView := rfl
@[simp] theorem State.errCorr_ars (page : Nat) : (s.errCorr page).ars = s.ars := rfl
@[simp] theorem State.errCorr_slots (page : Nat) : (s.errCorr page).slots = s.slots := rfl
@[simp] theorem State.errCorr_frd (page : Nat) : (s.errCorr page).frd = s.frd := rfl
@[simp] theorem State.errCorr_tiles (page : Nat) : (s.errCorr page).tiles = s.tiles := rfl
@[simp] theorem State.errCorr_tfe (page : Nat) : (s.errCorr page).tfe = s.tfe := rfl
@[simp] theorem State.errCorr_souts (page : Nat) : (s.errCorr page).souts = s.souts := rfl
@[simp] theorem State.errCorr_circs (page : Nat) : (s.errCorr page).circs = s.circs := rfl
@[simp] theorem State.errCorr_wdg (page : Nat) : (s.errCorr page).wdg = s.wdg := rfl
@[simp] theorem State.errCorr_pmcT (page : Nat) : (s.errCorr page).pmcT = s.pmcT := rfl
@[simp] theorem State.errCorr_bist (page : Nat) : (s.errCorr page).bist = s.bist := rfl
@[simp] theorem State.errCorr_xng (page : Nat) : (s.errCorr page).xng = s.xng := rfl
@[simp] theorem State.errCorr_ropes (page : Nat) : (s.errCorr page).ropes = s.ropes := rfl
@[simp] theorem State.errCorr_teams (page : Nat) : (s.errCorr page).teams = s.teams := rfl
@[simp] theorem State.errCorr_rope (page : Nat) : (s.errCorr page).rope = s.rope := rfl
@[simp] theorem State.errCorr_bcp (page : Nat) : (s.errCorr page).bcp = s.bcp := rfl
@[simp] theorem State.errCorr_spwrLow (page : Nat) : (s.errCorr page).spwrLow = s.spwrLow := rfl
@[simp] theorem State.errCorr_log (page : Nat) : (s.errCorr page).log = s.log := rfl
@[simp] theorem State.errCorr_out (page : Nat) : (s.errCorr page).out = s.out := rfl

@[simp] theorem State.errUncorr_pending (page : Nat) : (s.errUncorr page).pending = s.pending := rfl
@[simp] theorem State.errUncorr_now (page : Nat) : (s.errUncorr page).now = s.now := rfl
@[simp] theorem State.errUncorr_free (page : Nat) : (s.errUncorr page).free = s.free := rfl
@[simp] theorem State.errUncorr_pages (page : Nat) : (s.errUncorr page).pages = s.pages := rfl
@[simp] theorem State.errUncorr_mem (page : Nat) : (s.errUncorr page).mem = s.mem := rfl
@[simp] theorem State.errUncorr_chk (page : Nat) : (s.errUncorr page).chk = s.chk := rfl
@[simp] theorem State.errUncorr_pois (page : Nat) : (s.errUncorr page).pois = s.pois := rfl
@[simp] theorem State.errUncorr_tags (page : Nat) : (s.errUncorr page).tags = s.tags := rfl
@[simp] theorem State.errUncorr_dramErr (page : Nat) : (s.errUncorr page).dramErr = s.dramErr := rfl
@[simp] theorem State.errUncorr_banks (page : Nat) : (s.errUncorr page).banks = s.banks := rfl
@[simp] theorem State.errUncorr_trkIn (page : Nat) : (s.errUncorr page).trkIn = s.trkIn := rfl
@[simp] theorem State.errUncorr_trk (page : Nat) : (s.errUncorr page).trk = s.trk := rfl
@[simp] theorem State.errUncorr_bcast (page : Nat) : (s.errUncorr page).bcast = s.bcast := rfl
@[simp] theorem State.errUncorr_lastBcast (page : Nat) : (s.errUncorr page).lastBcast = s.lastBcast := rfl
@[simp] theorem State.errUncorr_wall (page : Nat) : (s.errUncorr page).wall = s.wall := rfl
@[simp] theorem State.errUncorr_wpt (page : Nat) : (s.errUncorr page).wpt = s.wpt := rfl
@[simp] theorem State.errUncorr_srcQ (page : Nat) : (s.errUncorr page).srcQ = s.srcQ := rfl
@[simp] theorem State.errUncorr_strs (page : Nat) : (s.errUncorr page).strs = s.strs := rfl
@[simp] theorem State.errUncorr_ringWait (page : Nat) : (s.errUncorr page).ringWait = s.ringWait := rfl
@[simp] theorem State.errUncorr_strTurn (page : Nat) : (s.errUncorr page).strTurn = s.strTurn := rfl
@[simp] theorem State.errUncorr_flow (page : Nat) : (s.errUncorr page).flow = s.flow := rfl
@[simp] theorem State.errUncorr_ports (page : Nat) : (s.errUncorr page).ports = s.ports := rfl
@[simp] theorem State.errUncorr_portPower (page : Nat) : (s.errUncorr page).portPower = s.portPower := rfl
@[simp] theorem State.errUncorr_arsIn (page : Nat) : (s.errUncorr page).arsIn = s.arsIn := rfl
@[simp] theorem State.errUncorr_arsView (page : Nat) : (s.errUncorr page).arsView = s.arsView := rfl
@[simp] theorem State.errUncorr_ars (page : Nat) : (s.errUncorr page).ars = s.ars := rfl
@[simp] theorem State.errUncorr_slots (page : Nat) : (s.errUncorr page).slots = s.slots := rfl
@[simp] theorem State.errUncorr_frd (page : Nat) : (s.errUncorr page).frd = s.frd := rfl
@[simp] theorem State.errUncorr_tiles (page : Nat) : (s.errUncorr page).tiles = s.tiles := rfl
@[simp] theorem State.errUncorr_tfe (page : Nat) : (s.errUncorr page).tfe = s.tfe := rfl
@[simp] theorem State.errUncorr_souts (page : Nat) : (s.errUncorr page).souts = s.souts := rfl
@[simp] theorem State.errUncorr_circs (page : Nat) : (s.errUncorr page).circs = s.circs := rfl
@[simp] theorem State.errUncorr_wdg (page : Nat) : (s.errUncorr page).wdg = s.wdg := rfl
@[simp] theorem State.errUncorr_pmcT (page : Nat) : (s.errUncorr page).pmcT = s.pmcT := rfl
@[simp] theorem State.errUncorr_bist (page : Nat) : (s.errUncorr page).bist = s.bist := rfl
@[simp] theorem State.errUncorr_xng (page : Nat) : (s.errUncorr page).xng = s.xng := rfl
@[simp] theorem State.errUncorr_ropes (page : Nat) : (s.errUncorr page).ropes = s.ropes := rfl
@[simp] theorem State.errUncorr_teams (page : Nat) : (s.errUncorr page).teams = s.teams := rfl
@[simp] theorem State.errUncorr_rope (page : Nat) : (s.errUncorr page).rope = s.rope := rfl
@[simp] theorem State.errUncorr_bcp (page : Nat) : (s.errUncorr page).bcp = s.bcp := rfl
@[simp] theorem State.errUncorr_spwrLow (page : Nat) : (s.errUncorr page).spwrLow = s.spwrLow := rfl
@[simp] theorem State.errUncorr_log (page : Nat) : (s.errUncorr page).log = s.log := rfl
@[simp] theorem State.errUncorr_out (page : Nat) : (s.errUncorr page).out = s.out := rfl

@[simp] theorem State.errPoison_pending (page : Nat) : (s.errPoison page).pending = s.pending := rfl
@[simp] theorem State.errPoison_now (page : Nat) : (s.errPoison page).now = s.now := rfl
@[simp] theorem State.errPoison_free (page : Nat) : (s.errPoison page).free = s.free := rfl
@[simp] theorem State.errPoison_pages (page : Nat) : (s.errPoison page).pages = s.pages := rfl
@[simp] theorem State.errPoison_mem (page : Nat) : (s.errPoison page).mem = s.mem := rfl
@[simp] theorem State.errPoison_chk (page : Nat) : (s.errPoison page).chk = s.chk := rfl
@[simp] theorem State.errPoison_pois (page : Nat) : (s.errPoison page).pois = s.pois := rfl
@[simp] theorem State.errPoison_tags (page : Nat) : (s.errPoison page).tags = s.tags := rfl
@[simp] theorem State.errPoison_dramErr (page : Nat) : (s.errPoison page).dramErr = s.dramErr := rfl
@[simp] theorem State.errPoison_banks (page : Nat) : (s.errPoison page).banks = s.banks := rfl
@[simp] theorem State.errPoison_trkIn (page : Nat) : (s.errPoison page).trkIn = s.trkIn := rfl
@[simp] theorem State.errPoison_trk (page : Nat) : (s.errPoison page).trk = s.trk := rfl
@[simp] theorem State.errPoison_bcast (page : Nat) : (s.errPoison page).bcast = s.bcast := rfl
@[simp] theorem State.errPoison_lastBcast (page : Nat) : (s.errPoison page).lastBcast = s.lastBcast := rfl
@[simp] theorem State.errPoison_wall (page : Nat) : (s.errPoison page).wall = s.wall := rfl
@[simp] theorem State.errPoison_wpt (page : Nat) : (s.errPoison page).wpt = s.wpt := rfl
@[simp] theorem State.errPoison_srcQ (page : Nat) : (s.errPoison page).srcQ = s.srcQ := rfl
@[simp] theorem State.errPoison_strs (page : Nat) : (s.errPoison page).strs = s.strs := rfl
@[simp] theorem State.errPoison_ringWait (page : Nat) : (s.errPoison page).ringWait = s.ringWait := rfl
@[simp] theorem State.errPoison_strTurn (page : Nat) : (s.errPoison page).strTurn = s.strTurn := rfl
@[simp] theorem State.errPoison_flow (page : Nat) : (s.errPoison page).flow = s.flow := rfl
@[simp] theorem State.errPoison_ports (page : Nat) : (s.errPoison page).ports = s.ports := rfl
@[simp] theorem State.errPoison_portPower (page : Nat) : (s.errPoison page).portPower = s.portPower := rfl
@[simp] theorem State.errPoison_arsIn (page : Nat) : (s.errPoison page).arsIn = s.arsIn := rfl
@[simp] theorem State.errPoison_arsView (page : Nat) : (s.errPoison page).arsView = s.arsView := rfl
@[simp] theorem State.errPoison_ars (page : Nat) : (s.errPoison page).ars = s.ars := rfl
@[simp] theorem State.errPoison_slots (page : Nat) : (s.errPoison page).slots = s.slots := rfl
@[simp] theorem State.errPoison_frd (page : Nat) : (s.errPoison page).frd = s.frd := rfl
@[simp] theorem State.errPoison_tiles (page : Nat) : (s.errPoison page).tiles = s.tiles := rfl
@[simp] theorem State.errPoison_tfe (page : Nat) : (s.errPoison page).tfe = s.tfe := rfl
@[simp] theorem State.errPoison_souts (page : Nat) : (s.errPoison page).souts = s.souts := rfl
@[simp] theorem State.errPoison_circs (page : Nat) : (s.errPoison page).circs = s.circs := rfl
@[simp] theorem State.errPoison_wdg (page : Nat) : (s.errPoison page).wdg = s.wdg := rfl
@[simp] theorem State.errPoison_pmcT (page : Nat) : (s.errPoison page).pmcT = s.pmcT := rfl
@[simp] theorem State.errPoison_bist (page : Nat) : (s.errPoison page).bist = s.bist := rfl
@[simp] theorem State.errPoison_xng (page : Nat) : (s.errPoison page).xng = s.xng := rfl
@[simp] theorem State.errPoison_ropes (page : Nat) : (s.errPoison page).ropes = s.ropes := rfl
@[simp] theorem State.errPoison_teams (page : Nat) : (s.errPoison page).teams = s.teams := rfl
@[simp] theorem State.errPoison_rope (page : Nat) : (s.errPoison page).rope = s.rope := rfl
@[simp] theorem State.errPoison_bcp (page : Nat) : (s.errPoison page).bcp = s.bcp := rfl
@[simp] theorem State.errPoison_spwrLow (page : Nat) : (s.errPoison page).spwrLow = s.spwrLow := rfl
@[simp] theorem State.errPoison_log (page : Nat) : (s.errPoison page).log = s.log := rfl
@[simp] theorem State.errPoison_out (page : Nat) : (s.errPoison page).out = s.out := rfl

@[simp] theorem State.upTo_pending (t : Nat) : (s.upTo t).pending = s.pending := rfl
@[simp] theorem State.upTo_free (t : Nat) : (s.upTo t).free = s.free := rfl
@[simp] theorem State.upTo_regs (t : Nat) : (s.upTo t).regs = s.regs := rfl
@[simp] theorem State.upTo_pages (t : Nat) : (s.upTo t).pages = s.pages := rfl
@[simp] theorem State.upTo_mem (t : Nat) : (s.upTo t).mem = s.mem := rfl
@[simp] theorem State.upTo_chk (t : Nat) : (s.upTo t).chk = s.chk := rfl
@[simp] theorem State.upTo_pois (t : Nat) : (s.upTo t).pois = s.pois := rfl
@[simp] theorem State.upTo_tags (t : Nat) : (s.upTo t).tags = s.tags := rfl
@[simp] theorem State.upTo_dramErr (t : Nat) : (s.upTo t).dramErr = s.dramErr := rfl
@[simp] theorem State.upTo_banks (t : Nat) : (s.upTo t).banks = s.banks := rfl
@[simp] theorem State.upTo_trkIn (t : Nat) : (s.upTo t).trkIn = s.trkIn := rfl
@[simp] theorem State.upTo_trk (t : Nat) : (s.upTo t).trk = s.trk := rfl
@[simp] theorem State.upTo_bcast (t : Nat) : (s.upTo t).bcast = s.bcast := rfl
@[simp] theorem State.upTo_lastBcast (t : Nat) : (s.upTo t).lastBcast = s.lastBcast := rfl
@[simp] theorem State.upTo_wall (t : Nat) : (s.upTo t).wall = s.wall := rfl
@[simp] theorem State.upTo_wpt (t : Nat) : (s.upTo t).wpt = s.wpt := rfl
@[simp] theorem State.upTo_srcQ (t : Nat) : (s.upTo t).srcQ = s.srcQ := rfl
@[simp] theorem State.upTo_strs (t : Nat) : (s.upTo t).strs = s.strs := rfl
@[simp] theorem State.upTo_ringWait (t : Nat) : (s.upTo t).ringWait = s.ringWait := rfl
@[simp] theorem State.upTo_strTurn (t : Nat) : (s.upTo t).strTurn = s.strTurn := rfl
@[simp] theorem State.upTo_flow (t : Nat) : (s.upTo t).flow = s.flow := rfl
@[simp] theorem State.upTo_ports (t : Nat) : (s.upTo t).ports = s.ports := rfl
@[simp] theorem State.upTo_portPower (t : Nat) : (s.upTo t).portPower = s.portPower := rfl
@[simp] theorem State.upTo_arsIn (t : Nat) : (s.upTo t).arsIn = s.arsIn := rfl
@[simp] theorem State.upTo_arsView (t : Nat) : (s.upTo t).arsView = s.arsView := rfl
@[simp] theorem State.upTo_ars (t : Nat) : (s.upTo t).ars = s.ars := rfl
@[simp] theorem State.upTo_slots (t : Nat) : (s.upTo t).slots = s.slots := rfl
@[simp] theorem State.upTo_frd (t : Nat) : (s.upTo t).frd = s.frd := rfl
@[simp] theorem State.upTo_tiles (t : Nat) : (s.upTo t).tiles = s.tiles := rfl
@[simp] theorem State.upTo_tfe (t : Nat) : (s.upTo t).tfe = s.tfe := rfl
@[simp] theorem State.upTo_souts (t : Nat) : (s.upTo t).souts = s.souts := rfl
@[simp] theorem State.upTo_circs (t : Nat) : (s.upTo t).circs = s.circs := rfl
@[simp] theorem State.upTo_wdg (t : Nat) : (s.upTo t).wdg = s.wdg := rfl
@[simp] theorem State.upTo_pmcT (t : Nat) : (s.upTo t).pmcT = s.pmcT := rfl
@[simp] theorem State.upTo_bist (t : Nat) : (s.upTo t).bist = s.bist := rfl
@[simp] theorem State.upTo_xng (t : Nat) : (s.upTo t).xng = s.xng := rfl
@[simp] theorem State.upTo_ropes (t : Nat) : (s.upTo t).ropes = s.ropes := rfl
@[simp] theorem State.upTo_teams (t : Nat) : (s.upTo t).teams = s.teams := rfl
@[simp] theorem State.upTo_rope (t : Nat) : (s.upTo t).rope = s.rope := rfl
@[simp] theorem State.upTo_bcp (t : Nat) : (s.upTo t).bcp = s.bcp := rfl
@[simp] theorem State.upTo_spwrLow (t : Nat) : (s.upTo t).spwrLow = s.spwrLow := rfl
@[simp] theorem State.upTo_log (t : Nat) : (s.upTo t).log = s.log := rfl
@[simp] theorem State.upTo_out (t : Nat) : (s.upTo t).out = s.out := rfl

@[simp] theorem State.emit_pending (o : Out) : (s.emit o).pending = s.pending := rfl
@[simp] theorem State.emit_now (o : Out) : (s.emit o).now = s.now := rfl
@[simp] theorem State.emit_hot (o : Out) : (s.emit o).hot = s.hot := rfl
@[simp] theorem State.emit_free (o : Out) : (s.emit o).free = s.free := rfl
@[simp] theorem State.emit_regs (o : Out) : (s.emit o).regs = s.regs := rfl
@[simp] theorem State.emit_pages (o : Out) : (s.emit o).pages = s.pages := rfl
@[simp] theorem State.emit_mem (o : Out) : (s.emit o).mem = s.mem := rfl
@[simp] theorem State.emit_chk (o : Out) : (s.emit o).chk = s.chk := rfl
@[simp] theorem State.emit_pois (o : Out) : (s.emit o).pois = s.pois := rfl
@[simp] theorem State.emit_tags (o : Out) : (s.emit o).tags = s.tags := rfl
@[simp] theorem State.emit_dramErr (o : Out) : (s.emit o).dramErr = s.dramErr := rfl
@[simp] theorem State.emit_banks (o : Out) : (s.emit o).banks = s.banks := rfl
@[simp] theorem State.emit_trkIn (o : Out) : (s.emit o).trkIn = s.trkIn := rfl
@[simp] theorem State.emit_trk (o : Out) : (s.emit o).trk = s.trk := rfl
@[simp] theorem State.emit_bcast (o : Out) : (s.emit o).bcast = s.bcast := rfl
@[simp] theorem State.emit_lastBcast (o : Out) : (s.emit o).lastBcast = s.lastBcast := rfl
@[simp] theorem State.emit_wall (o : Out) : (s.emit o).wall = s.wall := rfl
@[simp] theorem State.emit_wpt (o : Out) : (s.emit o).wpt = s.wpt := rfl
@[simp] theorem State.emit_srcQ (o : Out) : (s.emit o).srcQ = s.srcQ := rfl
@[simp] theorem State.emit_strs (o : Out) : (s.emit o).strs = s.strs := rfl
@[simp] theorem State.emit_ringWait (o : Out) : (s.emit o).ringWait = s.ringWait := rfl
@[simp] theorem State.emit_strTurn (o : Out) : (s.emit o).strTurn = s.strTurn := rfl
@[simp] theorem State.emit_flow (o : Out) : (s.emit o).flow = s.flow := rfl
@[simp] theorem State.emit_ports (o : Out) : (s.emit o).ports = s.ports := rfl
@[simp] theorem State.emit_portPower (o : Out) : (s.emit o).portPower = s.portPower := rfl
@[simp] theorem State.emit_arsIn (o : Out) : (s.emit o).arsIn = s.arsIn := rfl
@[simp] theorem State.emit_arsView (o : Out) : (s.emit o).arsView = s.arsView := rfl
@[simp] theorem State.emit_ars (o : Out) : (s.emit o).ars = s.ars := rfl
@[simp] theorem State.emit_slots (o : Out) : (s.emit o).slots = s.slots := rfl
@[simp] theorem State.emit_frd (o : Out) : (s.emit o).frd = s.frd := rfl
@[simp] theorem State.emit_tiles (o : Out) : (s.emit o).tiles = s.tiles := rfl
@[simp] theorem State.emit_tfe (o : Out) : (s.emit o).tfe = s.tfe := rfl
@[simp] theorem State.emit_souts (o : Out) : (s.emit o).souts = s.souts := rfl
@[simp] theorem State.emit_circs (o : Out) : (s.emit o).circs = s.circs := rfl
@[simp] theorem State.emit_wdg (o : Out) : (s.emit o).wdg = s.wdg := rfl
@[simp] theorem State.emit_pmcT (o : Out) : (s.emit o).pmcT = s.pmcT := rfl
@[simp] theorem State.emit_bist (o : Out) : (s.emit o).bist = s.bist := rfl
@[simp] theorem State.emit_xng (o : Out) : (s.emit o).xng = s.xng := rfl
@[simp] theorem State.emit_ropes (o : Out) : (s.emit o).ropes = s.ropes := rfl
@[simp] theorem State.emit_teams (o : Out) : (s.emit o).teams = s.teams := rfl
@[simp] theorem State.emit_rope (o : Out) : (s.emit o).rope = s.rope := rfl
@[simp] theorem State.emit_bcp (o : Out) : (s.emit o).bcp = s.bcp := rfl
@[simp] theorem State.emit_spwrLow (o : Out) : (s.emit o).spwrLow = s.spwrLow := rfl
@[simp] theorem State.emit_log (o : Out) : (s.emit o).log = s.log := rfl

@[simp] theorem State.setPageH_pending (page : Nat) (h : PageH) : (s.setPageH page h).pending = s.pending := rfl
@[simp] theorem State.setPageH_now (page : Nat) (h : PageH) : (s.setPageH page h).now = s.now := rfl
@[simp] theorem State.setPageH_hot (page : Nat) (h : PageH) : (s.setPageH page h).hot = s.hot := rfl
@[simp] theorem State.setPageH_free (page : Nat) (h : PageH) : (s.setPageH page h).free = s.free := rfl
@[simp] theorem State.setPageH_regs (page : Nat) (h : PageH) : (s.setPageH page h).regs = s.regs := rfl
@[simp] theorem State.setPageH_mem (page : Nat) (h : PageH) : (s.setPageH page h).mem = s.mem := rfl
@[simp] theorem State.setPageH_chk (page : Nat) (h : PageH) : (s.setPageH page h).chk = s.chk := rfl
@[simp] theorem State.setPageH_pois (page : Nat) (h : PageH) : (s.setPageH page h).pois = s.pois := rfl
@[simp] theorem State.setPageH_tags (page : Nat) (h : PageH) : (s.setPageH page h).tags = s.tags := rfl
@[simp] theorem State.setPageH_dramErr (page : Nat) (h : PageH) : (s.setPageH page h).dramErr = s.dramErr := rfl
@[simp] theorem State.setPageH_banks (page : Nat) (h : PageH) : (s.setPageH page h).banks = s.banks := rfl
@[simp] theorem State.setPageH_trkIn (page : Nat) (h : PageH) : (s.setPageH page h).trkIn = s.trkIn := rfl
@[simp] theorem State.setPageH_trk (page : Nat) (h : PageH) : (s.setPageH page h).trk = s.trk := rfl
@[simp] theorem State.setPageH_bcast (page : Nat) (h : PageH) : (s.setPageH page h).bcast = s.bcast := rfl
@[simp] theorem State.setPageH_lastBcast (page : Nat) (h : PageH) : (s.setPageH page h).lastBcast = s.lastBcast := rfl
@[simp] theorem State.setPageH_wall (page : Nat) (h : PageH) : (s.setPageH page h).wall = s.wall := rfl
@[simp] theorem State.setPageH_wpt (page : Nat) (h : PageH) : (s.setPageH page h).wpt = s.wpt := rfl
@[simp] theorem State.setPageH_srcQ (page : Nat) (h : PageH) : (s.setPageH page h).srcQ = s.srcQ := rfl
@[simp] theorem State.setPageH_strs (page : Nat) (h : PageH) : (s.setPageH page h).strs = s.strs := rfl
@[simp] theorem State.setPageH_ringWait (page : Nat) (h : PageH) : (s.setPageH page h).ringWait = s.ringWait := rfl
@[simp] theorem State.setPageH_strTurn (page : Nat) (h : PageH) : (s.setPageH page h).strTurn = s.strTurn := rfl
@[simp] theorem State.setPageH_flow (page : Nat) (h : PageH) : (s.setPageH page h).flow = s.flow := rfl
@[simp] theorem State.setPageH_ports (page : Nat) (h : PageH) : (s.setPageH page h).ports = s.ports := rfl
@[simp] theorem State.setPageH_portPower (page : Nat) (h : PageH) : (s.setPageH page h).portPower = s.portPower := rfl
@[simp] theorem State.setPageH_arsIn (page : Nat) (h : PageH) : (s.setPageH page h).arsIn = s.arsIn := rfl
@[simp] theorem State.setPageH_arsView (page : Nat) (h : PageH) : (s.setPageH page h).arsView = s.arsView := rfl
@[simp] theorem State.setPageH_ars (page : Nat) (h : PageH) : (s.setPageH page h).ars = s.ars := rfl
@[simp] theorem State.setPageH_slots (page : Nat) (h : PageH) : (s.setPageH page h).slots = s.slots := rfl
@[simp] theorem State.setPageH_frd (page : Nat) (h : PageH) : (s.setPageH page h).frd = s.frd := rfl
@[simp] theorem State.setPageH_tiles (page : Nat) (h : PageH) : (s.setPageH page h).tiles = s.tiles := rfl
@[simp] theorem State.setPageH_tfe (page : Nat) (h : PageH) : (s.setPageH page h).tfe = s.tfe := rfl
@[simp] theorem State.setPageH_souts (page : Nat) (h : PageH) : (s.setPageH page h).souts = s.souts := rfl
@[simp] theorem State.setPageH_circs (page : Nat) (h : PageH) : (s.setPageH page h).circs = s.circs := rfl
@[simp] theorem State.setPageH_wdg (page : Nat) (h : PageH) : (s.setPageH page h).wdg = s.wdg := rfl
@[simp] theorem State.setPageH_pmcT (page : Nat) (h : PageH) : (s.setPageH page h).pmcT = s.pmcT := rfl
@[simp] theorem State.setPageH_bist (page : Nat) (h : PageH) : (s.setPageH page h).bist = s.bist := rfl
@[simp] theorem State.setPageH_xng (page : Nat) (h : PageH) : (s.setPageH page h).xng = s.xng := rfl
@[simp] theorem State.setPageH_ropes (page : Nat) (h : PageH) : (s.setPageH page h).ropes = s.ropes := rfl
@[simp] theorem State.setPageH_teams (page : Nat) (h : PageH) : (s.setPageH page h).teams = s.teams := rfl
@[simp] theorem State.setPageH_rope (page : Nat) (h : PageH) : (s.setPageH page h).rope = s.rope := rfl
@[simp] theorem State.setPageH_bcp (page : Nat) (h : PageH) : (s.setPageH page h).bcp = s.bcp := rfl
@[simp] theorem State.setPageH_spwrLow (page : Nat) (h : PageH) : (s.setPageH page h).spwrLow = s.spwrLow := rfl
@[simp] theorem State.setPageH_log (page : Nat) (h : PageH) : (s.setPageH page h).log = s.log := rfl
@[simp] theorem State.setPageH_out (page : Nat) (h : PageH) : (s.setPageH page h).out = s.out := rfl

@[simp] theorem State.setRope_pending (r : Nat) (h : RopeH) : (s.setRope r h).pending = s.pending := rfl
@[simp] theorem State.setRope_now (r : Nat) (h : RopeH) : (s.setRope r h).now = s.now := rfl
@[simp] theorem State.setRope_hot (r : Nat) (h : RopeH) : (s.setRope r h).hot = s.hot := rfl
@[simp] theorem State.setRope_free (r : Nat) (h : RopeH) : (s.setRope r h).free = s.free := rfl
@[simp] theorem State.setRope_regs (r : Nat) (h : RopeH) : (s.setRope r h).regs = s.regs := rfl
@[simp] theorem State.setRope_pages (r : Nat) (h : RopeH) : (s.setRope r h).pages = s.pages := rfl
@[simp] theorem State.setRope_mem (r : Nat) (h : RopeH) : (s.setRope r h).mem = s.mem := rfl
@[simp] theorem State.setRope_chk (r : Nat) (h : RopeH) : (s.setRope r h).chk = s.chk := rfl
@[simp] theorem State.setRope_pois (r : Nat) (h : RopeH) : (s.setRope r h).pois = s.pois := rfl
@[simp] theorem State.setRope_tags (r : Nat) (h : RopeH) : (s.setRope r h).tags = s.tags := rfl
@[simp] theorem State.setRope_dramErr (r : Nat) (h : RopeH) : (s.setRope r h).dramErr = s.dramErr := rfl
@[simp] theorem State.setRope_banks (r : Nat) (h : RopeH) : (s.setRope r h).banks = s.banks := rfl
@[simp] theorem State.setRope_trkIn (r : Nat) (h : RopeH) : (s.setRope r h).trkIn = s.trkIn := rfl
@[simp] theorem State.setRope_trk (r : Nat) (h : RopeH) : (s.setRope r h).trk = s.trk := rfl
@[simp] theorem State.setRope_bcast (r : Nat) (h : RopeH) : (s.setRope r h).bcast = s.bcast := rfl
@[simp] theorem State.setRope_lastBcast (r : Nat) (h : RopeH) : (s.setRope r h).lastBcast = s.lastBcast := rfl
@[simp] theorem State.setRope_wall (r : Nat) (h : RopeH) : (s.setRope r h).wall = s.wall := rfl
@[simp] theorem State.setRope_wpt (r : Nat) (h : RopeH) : (s.setRope r h).wpt = s.wpt := rfl
@[simp] theorem State.setRope_srcQ (r : Nat) (h : RopeH) : (s.setRope r h).srcQ = s.srcQ := rfl
@[simp] theorem State.setRope_strs (r : Nat) (h : RopeH) : (s.setRope r h).strs = s.strs := rfl
@[simp] theorem State.setRope_ringWait (r : Nat) (h : RopeH) : (s.setRope r h).ringWait = s.ringWait := rfl
@[simp] theorem State.setRope_strTurn (r : Nat) (h : RopeH) : (s.setRope r h).strTurn = s.strTurn := rfl
@[simp] theorem State.setRope_flow (r : Nat) (h : RopeH) : (s.setRope r h).flow = s.flow := rfl
@[simp] theorem State.setRope_ports (r : Nat) (h : RopeH) : (s.setRope r h).ports = s.ports := rfl
@[simp] theorem State.setRope_portPower (r : Nat) (h : RopeH) : (s.setRope r h).portPower = s.portPower := rfl
@[simp] theorem State.setRope_arsIn (r : Nat) (h : RopeH) : (s.setRope r h).arsIn = s.arsIn := rfl
@[simp] theorem State.setRope_arsView (r : Nat) (h : RopeH) : (s.setRope r h).arsView = s.arsView := rfl
@[simp] theorem State.setRope_ars (r : Nat) (h : RopeH) : (s.setRope r h).ars = s.ars := rfl
@[simp] theorem State.setRope_slots (r : Nat) (h : RopeH) : (s.setRope r h).slots = s.slots := rfl
@[simp] theorem State.setRope_frd (r : Nat) (h : RopeH) : (s.setRope r h).frd = s.frd := rfl
@[simp] theorem State.setRope_tiles (r : Nat) (h : RopeH) : (s.setRope r h).tiles = s.tiles := rfl
@[simp] theorem State.setRope_tfe (r : Nat) (h : RopeH) : (s.setRope r h).tfe = s.tfe := rfl
@[simp] theorem State.setRope_souts (r : Nat) (h : RopeH) : (s.setRope r h).souts = s.souts := rfl
@[simp] theorem State.setRope_circs (r : Nat) (h : RopeH) : (s.setRope r h).circs = s.circs := rfl
@[simp] theorem State.setRope_wdg (r : Nat) (h : RopeH) : (s.setRope r h).wdg = s.wdg := rfl
@[simp] theorem State.setRope_pmcT (r : Nat) (h : RopeH) : (s.setRope r h).pmcT = s.pmcT := rfl
@[simp] theorem State.setRope_bist (r : Nat) (h : RopeH) : (s.setRope r h).bist = s.bist := rfl
@[simp] theorem State.setRope_xng (r : Nat) (h : RopeH) : (s.setRope r h).xng = s.xng := rfl
@[simp] theorem State.setRope_teams (r : Nat) (h : RopeH) : (s.setRope r h).teams = s.teams := rfl
@[simp] theorem State.setRope_rope (r : Nat) (h : RopeH) : (s.setRope r h).rope = s.rope := rfl
@[simp] theorem State.setRope_bcp (r : Nat) (h : RopeH) : (s.setRope r h).bcp = s.bcp := rfl
@[simp] theorem State.setRope_spwrLow (r : Nat) (h : RopeH) : (s.setRope r h).spwrLow = s.spwrLow := rfl
@[simp] theorem State.setRope_log (r : Nat) (h : RopeH) : (s.setRope r h).log = s.log := rfl
@[simp] theorem State.setRope_out (r : Nat) (h : RopeH) : (s.setRope r h).out = s.out := rfl

@[simp] theorem State.setTeam_pending (i : Nat) (h : TeamH) : (s.setTeam i h).pending = s.pending := rfl
@[simp] theorem State.setTeam_now (i : Nat) (h : TeamH) : (s.setTeam i h).now = s.now := rfl
@[simp] theorem State.setTeam_hot (i : Nat) (h : TeamH) : (s.setTeam i h).hot = s.hot := rfl
@[simp] theorem State.setTeam_free (i : Nat) (h : TeamH) : (s.setTeam i h).free = s.free := rfl
@[simp] theorem State.setTeam_regs (i : Nat) (h : TeamH) : (s.setTeam i h).regs = s.regs := rfl
@[simp] theorem State.setTeam_pages (i : Nat) (h : TeamH) : (s.setTeam i h).pages = s.pages := rfl
@[simp] theorem State.setTeam_mem (i : Nat) (h : TeamH) : (s.setTeam i h).mem = s.mem := rfl
@[simp] theorem State.setTeam_chk (i : Nat) (h : TeamH) : (s.setTeam i h).chk = s.chk := rfl
@[simp] theorem State.setTeam_pois (i : Nat) (h : TeamH) : (s.setTeam i h).pois = s.pois := rfl
@[simp] theorem State.setTeam_tags (i : Nat) (h : TeamH) : (s.setTeam i h).tags = s.tags := rfl
@[simp] theorem State.setTeam_dramErr (i : Nat) (h : TeamH) : (s.setTeam i h).dramErr = s.dramErr := rfl
@[simp] theorem State.setTeam_banks (i : Nat) (h : TeamH) : (s.setTeam i h).banks = s.banks := rfl
@[simp] theorem State.setTeam_trkIn (i : Nat) (h : TeamH) : (s.setTeam i h).trkIn = s.trkIn := rfl
@[simp] theorem State.setTeam_trk (i : Nat) (h : TeamH) : (s.setTeam i h).trk = s.trk := rfl
@[simp] theorem State.setTeam_bcast (i : Nat) (h : TeamH) : (s.setTeam i h).bcast = s.bcast := rfl
@[simp] theorem State.setTeam_lastBcast (i : Nat) (h : TeamH) : (s.setTeam i h).lastBcast = s.lastBcast := rfl
@[simp] theorem State.setTeam_wall (i : Nat) (h : TeamH) : (s.setTeam i h).wall = s.wall := rfl
@[simp] theorem State.setTeam_wpt (i : Nat) (h : TeamH) : (s.setTeam i h).wpt = s.wpt := rfl
@[simp] theorem State.setTeam_srcQ (i : Nat) (h : TeamH) : (s.setTeam i h).srcQ = s.srcQ := rfl
@[simp] theorem State.setTeam_strs (i : Nat) (h : TeamH) : (s.setTeam i h).strs = s.strs := rfl
@[simp] theorem State.setTeam_ringWait (i : Nat) (h : TeamH) : (s.setTeam i h).ringWait = s.ringWait := rfl
@[simp] theorem State.setTeam_strTurn (i : Nat) (h : TeamH) : (s.setTeam i h).strTurn = s.strTurn := rfl
@[simp] theorem State.setTeam_flow (i : Nat) (h : TeamH) : (s.setTeam i h).flow = s.flow := rfl
@[simp] theorem State.setTeam_ports (i : Nat) (h : TeamH) : (s.setTeam i h).ports = s.ports := rfl
@[simp] theorem State.setTeam_portPower (i : Nat) (h : TeamH) : (s.setTeam i h).portPower = s.portPower := rfl
@[simp] theorem State.setTeam_arsIn (i : Nat) (h : TeamH) : (s.setTeam i h).arsIn = s.arsIn := rfl
@[simp] theorem State.setTeam_arsView (i : Nat) (h : TeamH) : (s.setTeam i h).arsView = s.arsView := rfl
@[simp] theorem State.setTeam_ars (i : Nat) (h : TeamH) : (s.setTeam i h).ars = s.ars := rfl
@[simp] theorem State.setTeam_slots (i : Nat) (h : TeamH) : (s.setTeam i h).slots = s.slots := rfl
@[simp] theorem State.setTeam_frd (i : Nat) (h : TeamH) : (s.setTeam i h).frd = s.frd := rfl
@[simp] theorem State.setTeam_tiles (i : Nat) (h : TeamH) : (s.setTeam i h).tiles = s.tiles := rfl
@[simp] theorem State.setTeam_tfe (i : Nat) (h : TeamH) : (s.setTeam i h).tfe = s.tfe := rfl
@[simp] theorem State.setTeam_souts (i : Nat) (h : TeamH) : (s.setTeam i h).souts = s.souts := rfl
@[simp] theorem State.setTeam_circs (i : Nat) (h : TeamH) : (s.setTeam i h).circs = s.circs := rfl
@[simp] theorem State.setTeam_wdg (i : Nat) (h : TeamH) : (s.setTeam i h).wdg = s.wdg := rfl
@[simp] theorem State.setTeam_pmcT (i : Nat) (h : TeamH) : (s.setTeam i h).pmcT = s.pmcT := rfl
@[simp] theorem State.setTeam_bist (i : Nat) (h : TeamH) : (s.setTeam i h).bist = s.bist := rfl
@[simp] theorem State.setTeam_xng (i : Nat) (h : TeamH) : (s.setTeam i h).xng = s.xng := rfl
@[simp] theorem State.setTeam_ropes (i : Nat) (h : TeamH) : (s.setTeam i h).ropes = s.ropes := rfl
@[simp] theorem State.setTeam_rope (i : Nat) (h : TeamH) : (s.setTeam i h).rope = s.rope := rfl
@[simp] theorem State.setTeam_bcp (i : Nat) (h : TeamH) : (s.setTeam i h).bcp = s.bcp := rfl
@[simp] theorem State.setTeam_spwrLow (i : Nat) (h : TeamH) : (s.setTeam i h).spwrLow = s.spwrLow := rfl
@[simp] theorem State.setTeam_log (i : Nat) (h : TeamH) : (s.setTeam i h).log = s.log := rfl
@[simp] theorem State.setTeam_out (i : Nat) (h : TeamH) : (s.setTeam i h).out = s.out := rfl

@[simp] theorem State.setTrkIn_pending (n : Nat) (h : TrkInH) : (s.setTrkIn n h).pending = s.pending := rfl
@[simp] theorem State.setTrkIn_now (n : Nat) (h : TrkInH) : (s.setTrkIn n h).now = s.now := rfl
@[simp] theorem State.setTrkIn_hot (n : Nat) (h : TrkInH) : (s.setTrkIn n h).hot = s.hot := rfl
@[simp] theorem State.setTrkIn_free (n : Nat) (h : TrkInH) : (s.setTrkIn n h).free = s.free := rfl
@[simp] theorem State.setTrkIn_regs (n : Nat) (h : TrkInH) : (s.setTrkIn n h).regs = s.regs := rfl
@[simp] theorem State.setTrkIn_pages (n : Nat) (h : TrkInH) : (s.setTrkIn n h).pages = s.pages := rfl
@[simp] theorem State.setTrkIn_mem (n : Nat) (h : TrkInH) : (s.setTrkIn n h).mem = s.mem := rfl
@[simp] theorem State.setTrkIn_chk (n : Nat) (h : TrkInH) : (s.setTrkIn n h).chk = s.chk := rfl
@[simp] theorem State.setTrkIn_pois (n : Nat) (h : TrkInH) : (s.setTrkIn n h).pois = s.pois := rfl
@[simp] theorem State.setTrkIn_tags (n : Nat) (h : TrkInH) : (s.setTrkIn n h).tags = s.tags := rfl
@[simp] theorem State.setTrkIn_dramErr (n : Nat) (h : TrkInH) : (s.setTrkIn n h).dramErr = s.dramErr := rfl
@[simp] theorem State.setTrkIn_banks (n : Nat) (h : TrkInH) : (s.setTrkIn n h).banks = s.banks := rfl
@[simp] theorem State.setTrkIn_trk (n : Nat) (h : TrkInH) : (s.setTrkIn n h).trk = s.trk := rfl
@[simp] theorem State.setTrkIn_bcast (n : Nat) (h : TrkInH) : (s.setTrkIn n h).bcast = s.bcast := rfl
@[simp] theorem State.setTrkIn_lastBcast (n : Nat) (h : TrkInH) : (s.setTrkIn n h).lastBcast = s.lastBcast := rfl
@[simp] theorem State.setTrkIn_wall (n : Nat) (h : TrkInH) : (s.setTrkIn n h).wall = s.wall := rfl
@[simp] theorem State.setTrkIn_wpt (n : Nat) (h : TrkInH) : (s.setTrkIn n h).wpt = s.wpt := rfl
@[simp] theorem State.setTrkIn_srcQ (n : Nat) (h : TrkInH) : (s.setTrkIn n h).srcQ = s.srcQ := rfl
@[simp] theorem State.setTrkIn_strs (n : Nat) (h : TrkInH) : (s.setTrkIn n h).strs = s.strs := rfl
@[simp] theorem State.setTrkIn_ringWait (n : Nat) (h : TrkInH) : (s.setTrkIn n h).ringWait = s.ringWait := rfl
@[simp] theorem State.setTrkIn_strTurn (n : Nat) (h : TrkInH) : (s.setTrkIn n h).strTurn = s.strTurn := rfl
@[simp] theorem State.setTrkIn_flow (n : Nat) (h : TrkInH) : (s.setTrkIn n h).flow = s.flow := rfl
@[simp] theorem State.setTrkIn_ports (n : Nat) (h : TrkInH) : (s.setTrkIn n h).ports = s.ports := rfl
@[simp] theorem State.setTrkIn_portPower (n : Nat) (h : TrkInH) : (s.setTrkIn n h).portPower = s.portPower := rfl
@[simp] theorem State.setTrkIn_arsIn (n : Nat) (h : TrkInH) : (s.setTrkIn n h).arsIn = s.arsIn := rfl
@[simp] theorem State.setTrkIn_arsView (n : Nat) (h : TrkInH) : (s.setTrkIn n h).arsView = s.arsView := rfl
@[simp] theorem State.setTrkIn_ars (n : Nat) (h : TrkInH) : (s.setTrkIn n h).ars = s.ars := rfl
@[simp] theorem State.setTrkIn_slots (n : Nat) (h : TrkInH) : (s.setTrkIn n h).slots = s.slots := rfl
@[simp] theorem State.setTrkIn_frd (n : Nat) (h : TrkInH) : (s.setTrkIn n h).frd = s.frd := rfl
@[simp] theorem State.setTrkIn_tiles (n : Nat) (h : TrkInH) : (s.setTrkIn n h).tiles = s.tiles := rfl
@[simp] theorem State.setTrkIn_tfe (n : Nat) (h : TrkInH) : (s.setTrkIn n h).tfe = s.tfe := rfl
@[simp] theorem State.setTrkIn_souts (n : Nat) (h : TrkInH) : (s.setTrkIn n h).souts = s.souts := rfl
@[simp] theorem State.setTrkIn_circs (n : Nat) (h : TrkInH) : (s.setTrkIn n h).circs = s.circs := rfl
@[simp] theorem State.setTrkIn_wdg (n : Nat) (h : TrkInH) : (s.setTrkIn n h).wdg = s.wdg := rfl
@[simp] theorem State.setTrkIn_pmcT (n : Nat) (h : TrkInH) : (s.setTrkIn n h).pmcT = s.pmcT := rfl
@[simp] theorem State.setTrkIn_bist (n : Nat) (h : TrkInH) : (s.setTrkIn n h).bist = s.bist := rfl
@[simp] theorem State.setTrkIn_xng (n : Nat) (h : TrkInH) : (s.setTrkIn n h).xng = s.xng := rfl
@[simp] theorem State.setTrkIn_ropes (n : Nat) (h : TrkInH) : (s.setTrkIn n h).ropes = s.ropes := rfl
@[simp] theorem State.setTrkIn_teams (n : Nat) (h : TrkInH) : (s.setTrkIn n h).teams = s.teams := rfl
@[simp] theorem State.setTrkIn_rope (n : Nat) (h : TrkInH) : (s.setTrkIn n h).rope = s.rope := rfl
@[simp] theorem State.setTrkIn_bcp (n : Nat) (h : TrkInH) : (s.setTrkIn n h).bcp = s.bcp := rfl
@[simp] theorem State.setTrkIn_spwrLow (n : Nat) (h : TrkInH) : (s.setTrkIn n h).spwrLow = s.spwrLow := rfl
@[simp] theorem State.setTrkIn_log (n : Nat) (h : TrkInH) : (s.setTrkIn n h).log = s.log := rfl
@[simp] theorem State.setTrkIn_out (n : Nat) (h : TrkInH) : (s.setTrkIn n h).out = s.out := rfl

@[simp] theorem State.setTrk_pending (k : Nat) (h : TrkH) : (s.setTrk k h).pending = s.pending := rfl
@[simp] theorem State.setTrk_now (k : Nat) (h : TrkH) : (s.setTrk k h).now = s.now := rfl
@[simp] theorem State.setTrk_hot (k : Nat) (h : TrkH) : (s.setTrk k h).hot = s.hot := rfl
@[simp] theorem State.setTrk_free (k : Nat) (h : TrkH) : (s.setTrk k h).free = s.free := rfl
@[simp] theorem State.setTrk_regs (k : Nat) (h : TrkH) : (s.setTrk k h).regs = s.regs := rfl
@[simp] theorem State.setTrk_pages (k : Nat) (h : TrkH) : (s.setTrk k h).pages = s.pages := rfl
@[simp] theorem State.setTrk_mem (k : Nat) (h : TrkH) : (s.setTrk k h).mem = s.mem := rfl
@[simp] theorem State.setTrk_chk (k : Nat) (h : TrkH) : (s.setTrk k h).chk = s.chk := rfl
@[simp] theorem State.setTrk_pois (k : Nat) (h : TrkH) : (s.setTrk k h).pois = s.pois := rfl
@[simp] theorem State.setTrk_tags (k : Nat) (h : TrkH) : (s.setTrk k h).tags = s.tags := rfl
@[simp] theorem State.setTrk_dramErr (k : Nat) (h : TrkH) : (s.setTrk k h).dramErr = s.dramErr := rfl
@[simp] theorem State.setTrk_banks (k : Nat) (h : TrkH) : (s.setTrk k h).banks = s.banks := rfl
@[simp] theorem State.setTrk_trkIn (k : Nat) (h : TrkH) : (s.setTrk k h).trkIn = s.trkIn := rfl
@[simp] theorem State.setTrk_bcast (k : Nat) (h : TrkH) : (s.setTrk k h).bcast = s.bcast := rfl
@[simp] theorem State.setTrk_lastBcast (k : Nat) (h : TrkH) : (s.setTrk k h).lastBcast = s.lastBcast := rfl
@[simp] theorem State.setTrk_wall (k : Nat) (h : TrkH) : (s.setTrk k h).wall = s.wall := rfl
@[simp] theorem State.setTrk_wpt (k : Nat) (h : TrkH) : (s.setTrk k h).wpt = s.wpt := rfl
@[simp] theorem State.setTrk_srcQ (k : Nat) (h : TrkH) : (s.setTrk k h).srcQ = s.srcQ := rfl
@[simp] theorem State.setTrk_strs (k : Nat) (h : TrkH) : (s.setTrk k h).strs = s.strs := rfl
@[simp] theorem State.setTrk_ringWait (k : Nat) (h : TrkH) : (s.setTrk k h).ringWait = s.ringWait := rfl
@[simp] theorem State.setTrk_strTurn (k : Nat) (h : TrkH) : (s.setTrk k h).strTurn = s.strTurn := rfl
@[simp] theorem State.setTrk_flow (k : Nat) (h : TrkH) : (s.setTrk k h).flow = s.flow := rfl
@[simp] theorem State.setTrk_ports (k : Nat) (h : TrkH) : (s.setTrk k h).ports = s.ports := rfl
@[simp] theorem State.setTrk_portPower (k : Nat) (h : TrkH) : (s.setTrk k h).portPower = s.portPower := rfl
@[simp] theorem State.setTrk_arsIn (k : Nat) (h : TrkH) : (s.setTrk k h).arsIn = s.arsIn := rfl
@[simp] theorem State.setTrk_arsView (k : Nat) (h : TrkH) : (s.setTrk k h).arsView = s.arsView := rfl
@[simp] theorem State.setTrk_ars (k : Nat) (h : TrkH) : (s.setTrk k h).ars = s.ars := rfl
@[simp] theorem State.setTrk_slots (k : Nat) (h : TrkH) : (s.setTrk k h).slots = s.slots := rfl
@[simp] theorem State.setTrk_frd (k : Nat) (h : TrkH) : (s.setTrk k h).frd = s.frd := rfl
@[simp] theorem State.setTrk_tiles (k : Nat) (h : TrkH) : (s.setTrk k h).tiles = s.tiles := rfl
@[simp] theorem State.setTrk_tfe (k : Nat) (h : TrkH) : (s.setTrk k h).tfe = s.tfe := rfl
@[simp] theorem State.setTrk_souts (k : Nat) (h : TrkH) : (s.setTrk k h).souts = s.souts := rfl
@[simp] theorem State.setTrk_circs (k : Nat) (h : TrkH) : (s.setTrk k h).circs = s.circs := rfl
@[simp] theorem State.setTrk_wdg (k : Nat) (h : TrkH) : (s.setTrk k h).wdg = s.wdg := rfl
@[simp] theorem State.setTrk_pmcT (k : Nat) (h : TrkH) : (s.setTrk k h).pmcT = s.pmcT := rfl
@[simp] theorem State.setTrk_bist (k : Nat) (h : TrkH) : (s.setTrk k h).bist = s.bist := rfl
@[simp] theorem State.setTrk_xng (k : Nat) (h : TrkH) : (s.setTrk k h).xng = s.xng := rfl
@[simp] theorem State.setTrk_ropes (k : Nat) (h : TrkH) : (s.setTrk k h).ropes = s.ropes := rfl
@[simp] theorem State.setTrk_teams (k : Nat) (h : TrkH) : (s.setTrk k h).teams = s.teams := rfl
@[simp] theorem State.setTrk_rope (k : Nat) (h : TrkH) : (s.setTrk k h).rope = s.rope := rfl
@[simp] theorem State.setTrk_bcp (k : Nat) (h : TrkH) : (s.setTrk k h).bcp = s.bcp := rfl
@[simp] theorem State.setTrk_spwrLow (k : Nat) (h : TrkH) : (s.setTrk k h).spwrLow = s.spwrLow := rfl
@[simp] theorem State.setTrk_log (k : Nat) (h : TrkH) : (s.setTrk k h).log = s.log := rfl
@[simp] theorem State.setTrk_out (k : Nat) (h : TrkH) : (s.setTrk k h).out = s.out := rfl

@[simp] theorem State.setWpt_pending (c u : Nat) (h : WptH) : (s.setWpt c u h).pending = s.pending := rfl
@[simp] theorem State.setWpt_now (c u : Nat) (h : WptH) : (s.setWpt c u h).now = s.now := rfl
@[simp] theorem State.setWpt_hot (c u : Nat) (h : WptH) : (s.setWpt c u h).hot = s.hot := rfl
@[simp] theorem State.setWpt_free (c u : Nat) (h : WptH) : (s.setWpt c u h).free = s.free := rfl
@[simp] theorem State.setWpt_regs (c u : Nat) (h : WptH) : (s.setWpt c u h).regs = s.regs := rfl
@[simp] theorem State.setWpt_pages (c u : Nat) (h : WptH) : (s.setWpt c u h).pages = s.pages := rfl
@[simp] theorem State.setWpt_mem (c u : Nat) (h : WptH) : (s.setWpt c u h).mem = s.mem := rfl
@[simp] theorem State.setWpt_chk (c u : Nat) (h : WptH) : (s.setWpt c u h).chk = s.chk := rfl
@[simp] theorem State.setWpt_pois (c u : Nat) (h : WptH) : (s.setWpt c u h).pois = s.pois := rfl
@[simp] theorem State.setWpt_tags (c u : Nat) (h : WptH) : (s.setWpt c u h).tags = s.tags := rfl
@[simp] theorem State.setWpt_dramErr (c u : Nat) (h : WptH) : (s.setWpt c u h).dramErr = s.dramErr := rfl
@[simp] theorem State.setWpt_banks (c u : Nat) (h : WptH) : (s.setWpt c u h).banks = s.banks := rfl
@[simp] theorem State.setWpt_trkIn (c u : Nat) (h : WptH) : (s.setWpt c u h).trkIn = s.trkIn := rfl
@[simp] theorem State.setWpt_trk (c u : Nat) (h : WptH) : (s.setWpt c u h).trk = s.trk := rfl
@[simp] theorem State.setWpt_bcast (c u : Nat) (h : WptH) : (s.setWpt c u h).bcast = s.bcast := rfl
@[simp] theorem State.setWpt_lastBcast (c u : Nat) (h : WptH) : (s.setWpt c u h).lastBcast = s.lastBcast := rfl
@[simp] theorem State.setWpt_wall (c u : Nat) (h : WptH) : (s.setWpt c u h).wall = s.wall := rfl
@[simp] theorem State.setWpt_srcQ (c u : Nat) (h : WptH) : (s.setWpt c u h).srcQ = s.srcQ := rfl
@[simp] theorem State.setWpt_strs (c u : Nat) (h : WptH) : (s.setWpt c u h).strs = s.strs := rfl
@[simp] theorem State.setWpt_ringWait (c u : Nat) (h : WptH) : (s.setWpt c u h).ringWait = s.ringWait := rfl
@[simp] theorem State.setWpt_strTurn (c u : Nat) (h : WptH) : (s.setWpt c u h).strTurn = s.strTurn := rfl
@[simp] theorem State.setWpt_flow (c u : Nat) (h : WptH) : (s.setWpt c u h).flow = s.flow := rfl
@[simp] theorem State.setWpt_ports (c u : Nat) (h : WptH) : (s.setWpt c u h).ports = s.ports := rfl
@[simp] theorem State.setWpt_portPower (c u : Nat) (h : WptH) : (s.setWpt c u h).portPower = s.portPower := rfl
@[simp] theorem State.setWpt_arsIn (c u : Nat) (h : WptH) : (s.setWpt c u h).arsIn = s.arsIn := rfl
@[simp] theorem State.setWpt_arsView (c u : Nat) (h : WptH) : (s.setWpt c u h).arsView = s.arsView := rfl
@[simp] theorem State.setWpt_ars (c u : Nat) (h : WptH) : (s.setWpt c u h).ars = s.ars := rfl
@[simp] theorem State.setWpt_slots (c u : Nat) (h : WptH) : (s.setWpt c u h).slots = s.slots := rfl
@[simp] theorem State.setWpt_frd (c u : Nat) (h : WptH) : (s.setWpt c u h).frd = s.frd := rfl
@[simp] theorem State.setWpt_tiles (c u : Nat) (h : WptH) : (s.setWpt c u h).tiles = s.tiles := rfl
@[simp] theorem State.setWpt_tfe (c u : Nat) (h : WptH) : (s.setWpt c u h).tfe = s.tfe := rfl
@[simp] theorem State.setWpt_souts (c u : Nat) (h : WptH) : (s.setWpt c u h).souts = s.souts := rfl
@[simp] theorem State.setWpt_circs (c u : Nat) (h : WptH) : (s.setWpt c u h).circs = s.circs := rfl
@[simp] theorem State.setWpt_wdg (c u : Nat) (h : WptH) : (s.setWpt c u h).wdg = s.wdg := rfl
@[simp] theorem State.setWpt_pmcT (c u : Nat) (h : WptH) : (s.setWpt c u h).pmcT = s.pmcT := rfl
@[simp] theorem State.setWpt_bist (c u : Nat) (h : WptH) : (s.setWpt c u h).bist = s.bist := rfl
@[simp] theorem State.setWpt_xng (c u : Nat) (h : WptH) : (s.setWpt c u h).xng = s.xng := rfl
@[simp] theorem State.setWpt_ropes (c u : Nat) (h : WptH) : (s.setWpt c u h).ropes = s.ropes := rfl
@[simp] theorem State.setWpt_teams (c u : Nat) (h : WptH) : (s.setWpt c u h).teams = s.teams := rfl
@[simp] theorem State.setWpt_rope (c u : Nat) (h : WptH) : (s.setWpt c u h).rope = s.rope := rfl
@[simp] theorem State.setWpt_bcp (c u : Nat) (h : WptH) : (s.setWpt c u h).bcp = s.bcp := rfl
@[simp] theorem State.setWpt_spwrLow (c u : Nat) (h : WptH) : (s.setWpt c u h).spwrLow = s.spwrLow := rfl
@[simp] theorem State.setWpt_log (c u : Nat) (h : WptH) : (s.setWpt c u h).log = s.log := rfl
@[simp] theorem State.setWpt_out (c u : Nat) (h : WptH) : (s.setWpt c u h).out = s.out := rfl

@[simp] theorem State.setStr_pending (e : Nat) (h : StrH) : (s.setStr e h).pending = s.pending := rfl
@[simp] theorem State.setStr_now (e : Nat) (h : StrH) : (s.setStr e h).now = s.now := rfl
@[simp] theorem State.setStr_hot (e : Nat) (h : StrH) : (s.setStr e h).hot = s.hot := rfl
@[simp] theorem State.setStr_free (e : Nat) (h : StrH) : (s.setStr e h).free = s.free := rfl
@[simp] theorem State.setStr_regs (e : Nat) (h : StrH) : (s.setStr e h).regs = s.regs := rfl
@[simp] theorem State.setStr_pages (e : Nat) (h : StrH) : (s.setStr e h).pages = s.pages := rfl
@[simp] theorem State.setStr_mem (e : Nat) (h : StrH) : (s.setStr e h).mem = s.mem := rfl
@[simp] theorem State.setStr_chk (e : Nat) (h : StrH) : (s.setStr e h).chk = s.chk := rfl
@[simp] theorem State.setStr_pois (e : Nat) (h : StrH) : (s.setStr e h).pois = s.pois := rfl
@[simp] theorem State.setStr_tags (e : Nat) (h : StrH) : (s.setStr e h).tags = s.tags := rfl
@[simp] theorem State.setStr_dramErr (e : Nat) (h : StrH) : (s.setStr e h).dramErr = s.dramErr := rfl
@[simp] theorem State.setStr_banks (e : Nat) (h : StrH) : (s.setStr e h).banks = s.banks := rfl
@[simp] theorem State.setStr_trkIn (e : Nat) (h : StrH) : (s.setStr e h).trkIn = s.trkIn := rfl
@[simp] theorem State.setStr_trk (e : Nat) (h : StrH) : (s.setStr e h).trk = s.trk := rfl
@[simp] theorem State.setStr_bcast (e : Nat) (h : StrH) : (s.setStr e h).bcast = s.bcast := rfl
@[simp] theorem State.setStr_lastBcast (e : Nat) (h : StrH) : (s.setStr e h).lastBcast = s.lastBcast := rfl
@[simp] theorem State.setStr_wall (e : Nat) (h : StrH) : (s.setStr e h).wall = s.wall := rfl
@[simp] theorem State.setStr_wpt (e : Nat) (h : StrH) : (s.setStr e h).wpt = s.wpt := rfl
@[simp] theorem State.setStr_srcQ (e : Nat) (h : StrH) : (s.setStr e h).srcQ = s.srcQ := rfl
@[simp] theorem State.setStr_ringWait (e : Nat) (h : StrH) : (s.setStr e h).ringWait = s.ringWait := rfl
@[simp] theorem State.setStr_strTurn (e : Nat) (h : StrH) : (s.setStr e h).strTurn = s.strTurn := rfl
@[simp] theorem State.setStr_flow (e : Nat) (h : StrH) : (s.setStr e h).flow = s.flow := rfl
@[simp] theorem State.setStr_ports (e : Nat) (h : StrH) : (s.setStr e h).ports = s.ports := rfl
@[simp] theorem State.setStr_portPower (e : Nat) (h : StrH) : (s.setStr e h).portPower = s.portPower := rfl
@[simp] theorem State.setStr_arsIn (e : Nat) (h : StrH) : (s.setStr e h).arsIn = s.arsIn := rfl
@[simp] theorem State.setStr_arsView (e : Nat) (h : StrH) : (s.setStr e h).arsView = s.arsView := rfl
@[simp] theorem State.setStr_ars (e : Nat) (h : StrH) : (s.setStr e h).ars = s.ars := rfl
@[simp] theorem State.setStr_slots (e : Nat) (h : StrH) : (s.setStr e h).slots = s.slots := rfl
@[simp] theorem State.setStr_frd (e : Nat) (h : StrH) : (s.setStr e h).frd = s.frd := rfl
@[simp] theorem State.setStr_tiles (e : Nat) (h : StrH) : (s.setStr e h).tiles = s.tiles := rfl
@[simp] theorem State.setStr_tfe (e : Nat) (h : StrH) : (s.setStr e h).tfe = s.tfe := rfl
@[simp] theorem State.setStr_souts (e : Nat) (h : StrH) : (s.setStr e h).souts = s.souts := rfl
@[simp] theorem State.setStr_circs (e : Nat) (h : StrH) : (s.setStr e h).circs = s.circs := rfl
@[simp] theorem State.setStr_wdg (e : Nat) (h : StrH) : (s.setStr e h).wdg = s.wdg := rfl
@[simp] theorem State.setStr_pmcT (e : Nat) (h : StrH) : (s.setStr e h).pmcT = s.pmcT := rfl
@[simp] theorem State.setStr_bist (e : Nat) (h : StrH) : (s.setStr e h).bist = s.bist := rfl
@[simp] theorem State.setStr_xng (e : Nat) (h : StrH) : (s.setStr e h).xng = s.xng := rfl
@[simp] theorem State.setStr_ropes (e : Nat) (h : StrH) : (s.setStr e h).ropes = s.ropes := rfl
@[simp] theorem State.setStr_teams (e : Nat) (h : StrH) : (s.setStr e h).teams = s.teams := rfl
@[simp] theorem State.setStr_rope (e : Nat) (h : StrH) : (s.setStr e h).rope = s.rope := rfl
@[simp] theorem State.setStr_bcp (e : Nat) (h : StrH) : (s.setStr e h).bcp = s.bcp := rfl
@[simp] theorem State.setStr_spwrLow (e : Nat) (h : StrH) : (s.setStr e h).spwrLow = s.spwrLow := rfl
@[simp] theorem State.setStr_log (e : Nat) (h : StrH) : (s.setStr e h).log = s.log := rfl
@[simp] theorem State.setStr_out (e : Nat) (h : StrH) : (s.setStr e h).out = s.out := rfl

@[simp] theorem State.setQueue_pending (key : Nat) (q : List SrcItem) : (s.setQueue key q).pending = s.pending := rfl
@[simp] theorem State.setQueue_now (key : Nat) (q : List SrcItem) : (s.setQueue key q).now = s.now := rfl
@[simp] theorem State.setQueue_hot (key : Nat) (q : List SrcItem) : (s.setQueue key q).hot = s.hot := rfl
@[simp] theorem State.setQueue_free (key : Nat) (q : List SrcItem) : (s.setQueue key q).free = s.free := rfl
@[simp] theorem State.setQueue_regs (key : Nat) (q : List SrcItem) : (s.setQueue key q).regs = s.regs := rfl
@[simp] theorem State.setQueue_pages (key : Nat) (q : List SrcItem) : (s.setQueue key q).pages = s.pages := rfl
@[simp] theorem State.setQueue_mem (key : Nat) (q : List SrcItem) : (s.setQueue key q).mem = s.mem := rfl
@[simp] theorem State.setQueue_chk (key : Nat) (q : List SrcItem) : (s.setQueue key q).chk = s.chk := rfl
@[simp] theorem State.setQueue_pois (key : Nat) (q : List SrcItem) : (s.setQueue key q).pois = s.pois := rfl
@[simp] theorem State.setQueue_tags (key : Nat) (q : List SrcItem) : (s.setQueue key q).tags = s.tags := rfl
@[simp] theorem State.setQueue_dramErr (key : Nat) (q : List SrcItem) : (s.setQueue key q).dramErr = s.dramErr := rfl
@[simp] theorem State.setQueue_banks (key : Nat) (q : List SrcItem) : (s.setQueue key q).banks = s.banks := rfl
@[simp] theorem State.setQueue_trkIn (key : Nat) (q : List SrcItem) : (s.setQueue key q).trkIn = s.trkIn := rfl
@[simp] theorem State.setQueue_trk (key : Nat) (q : List SrcItem) : (s.setQueue key q).trk = s.trk := rfl
@[simp] theorem State.setQueue_bcast (key : Nat) (q : List SrcItem) : (s.setQueue key q).bcast = s.bcast := rfl
@[simp] theorem State.setQueue_lastBcast (key : Nat) (q : List SrcItem) : (s.setQueue key q).lastBcast = s.lastBcast := rfl
@[simp] theorem State.setQueue_wall (key : Nat) (q : List SrcItem) : (s.setQueue key q).wall = s.wall := rfl
@[simp] theorem State.setQueue_wpt (key : Nat) (q : List SrcItem) : (s.setQueue key q).wpt = s.wpt := rfl
@[simp] theorem State.setQueue_strs (key : Nat) (q : List SrcItem) : (s.setQueue key q).strs = s.strs := rfl
@[simp] theorem State.setQueue_ringWait (key : Nat) (q : List SrcItem) : (s.setQueue key q).ringWait = s.ringWait := rfl
@[simp] theorem State.setQueue_strTurn (key : Nat) (q : List SrcItem) : (s.setQueue key q).strTurn = s.strTurn := rfl
@[simp] theorem State.setQueue_flow (key : Nat) (q : List SrcItem) : (s.setQueue key q).flow = s.flow := rfl
@[simp] theorem State.setQueue_ports (key : Nat) (q : List SrcItem) : (s.setQueue key q).ports = s.ports := rfl
@[simp] theorem State.setQueue_portPower (key : Nat) (q : List SrcItem) : (s.setQueue key q).portPower = s.portPower := rfl
@[simp] theorem State.setQueue_arsIn (key : Nat) (q : List SrcItem) : (s.setQueue key q).arsIn = s.arsIn := rfl
@[simp] theorem State.setQueue_arsView (key : Nat) (q : List SrcItem) : (s.setQueue key q).arsView = s.arsView := rfl
@[simp] theorem State.setQueue_ars (key : Nat) (q : List SrcItem) : (s.setQueue key q).ars = s.ars := rfl
@[simp] theorem State.setQueue_slots (key : Nat) (q : List SrcItem) : (s.setQueue key q).slots = s.slots := rfl
@[simp] theorem State.setQueue_frd (key : Nat) (q : List SrcItem) : (s.setQueue key q).frd = s.frd := rfl
@[simp] theorem State.setQueue_tiles (key : Nat) (q : List SrcItem) : (s.setQueue key q).tiles = s.tiles := rfl
@[simp] theorem State.setQueue_tfe (key : Nat) (q : List SrcItem) : (s.setQueue key q).tfe = s.tfe := rfl
@[simp] theorem State.setQueue_souts (key : Nat) (q : List SrcItem) : (s.setQueue key q).souts = s.souts := rfl
@[simp] theorem State.setQueue_circs (key : Nat) (q : List SrcItem) : (s.setQueue key q).circs = s.circs := rfl
@[simp] theorem State.setQueue_wdg (key : Nat) (q : List SrcItem) : (s.setQueue key q).wdg = s.wdg := rfl
@[simp] theorem State.setQueue_pmcT (key : Nat) (q : List SrcItem) : (s.setQueue key q).pmcT = s.pmcT := rfl
@[simp] theorem State.setQueue_bist (key : Nat) (q : List SrcItem) : (s.setQueue key q).bist = s.bist := rfl
@[simp] theorem State.setQueue_xng (key : Nat) (q : List SrcItem) : (s.setQueue key q).xng = s.xng := rfl
@[simp] theorem State.setQueue_ropes (key : Nat) (q : List SrcItem) : (s.setQueue key q).ropes = s.ropes := rfl
@[simp] theorem State.setQueue_teams (key : Nat) (q : List SrcItem) : (s.setQueue key q).teams = s.teams := rfl
@[simp] theorem State.setQueue_rope (key : Nat) (q : List SrcItem) : (s.setQueue key q).rope = s.rope := rfl
@[simp] theorem State.setQueue_bcp (key : Nat) (q : List SrcItem) : (s.setQueue key q).bcp = s.bcp := rfl
@[simp] theorem State.setQueue_spwrLow (key : Nat) (q : List SrcItem) : (s.setQueue key q).spwrLow = s.spwrLow := rfl
@[simp] theorem State.setQueue_log (key : Nat) (q : List SrcItem) : (s.setQueue key q).log = s.log := rfl
@[simp] theorem State.setQueue_out (key : Nat) (q : List SrcItem) : (s.setQueue key q).out = s.out := rfl

@[simp] theorem State.setPort_pending (p : Nat) (h : PortH) : (s.setPort p h).pending = s.pending := rfl
@[simp] theorem State.setPort_now (p : Nat) (h : PortH) : (s.setPort p h).now = s.now := rfl
@[simp] theorem State.setPort_hot (p : Nat) (h : PortH) : (s.setPort p h).hot = s.hot := rfl
@[simp] theorem State.setPort_free (p : Nat) (h : PortH) : (s.setPort p h).free = s.free := rfl
@[simp] theorem State.setPort_regs (p : Nat) (h : PortH) : (s.setPort p h).regs = s.regs := rfl
@[simp] theorem State.setPort_pages (p : Nat) (h : PortH) : (s.setPort p h).pages = s.pages := rfl
@[simp] theorem State.setPort_mem (p : Nat) (h : PortH) : (s.setPort p h).mem = s.mem := rfl
@[simp] theorem State.setPort_chk (p : Nat) (h : PortH) : (s.setPort p h).chk = s.chk := rfl
@[simp] theorem State.setPort_pois (p : Nat) (h : PortH) : (s.setPort p h).pois = s.pois := rfl
@[simp] theorem State.setPort_tags (p : Nat) (h : PortH) : (s.setPort p h).tags = s.tags := rfl
@[simp] theorem State.setPort_dramErr (p : Nat) (h : PortH) : (s.setPort p h).dramErr = s.dramErr := rfl
@[simp] theorem State.setPort_banks (p : Nat) (h : PortH) : (s.setPort p h).banks = s.banks := rfl
@[simp] theorem State.setPort_trkIn (p : Nat) (h : PortH) : (s.setPort p h).trkIn = s.trkIn := rfl
@[simp] theorem State.setPort_trk (p : Nat) (h : PortH) : (s.setPort p h).trk = s.trk := rfl
@[simp] theorem State.setPort_bcast (p : Nat) (h : PortH) : (s.setPort p h).bcast = s.bcast := rfl
@[simp] theorem State.setPort_lastBcast (p : Nat) (h : PortH) : (s.setPort p h).lastBcast = s.lastBcast := rfl
@[simp] theorem State.setPort_wall (p : Nat) (h : PortH) : (s.setPort p h).wall = s.wall := rfl
@[simp] theorem State.setPort_wpt (p : Nat) (h : PortH) : (s.setPort p h).wpt = s.wpt := rfl
@[simp] theorem State.setPort_srcQ (p : Nat) (h : PortH) : (s.setPort p h).srcQ = s.srcQ := rfl
@[simp] theorem State.setPort_strs (p : Nat) (h : PortH) : (s.setPort p h).strs = s.strs := rfl
@[simp] theorem State.setPort_ringWait (p : Nat) (h : PortH) : (s.setPort p h).ringWait = s.ringWait := rfl
@[simp] theorem State.setPort_strTurn (p : Nat) (h : PortH) : (s.setPort p h).strTurn = s.strTurn := rfl
@[simp] theorem State.setPort_flow (p : Nat) (h : PortH) : (s.setPort p h).flow = s.flow := rfl
@[simp] theorem State.setPort_portPower (p : Nat) (h : PortH) : (s.setPort p h).portPower = s.portPower := rfl
@[simp] theorem State.setPort_arsIn (p : Nat) (h : PortH) : (s.setPort p h).arsIn = s.arsIn := rfl
@[simp] theorem State.setPort_arsView (p : Nat) (h : PortH) : (s.setPort p h).arsView = s.arsView := rfl
@[simp] theorem State.setPort_ars (p : Nat) (h : PortH) : (s.setPort p h).ars = s.ars := rfl
@[simp] theorem State.setPort_slots (p : Nat) (h : PortH) : (s.setPort p h).slots = s.slots := rfl
@[simp] theorem State.setPort_frd (p : Nat) (h : PortH) : (s.setPort p h).frd = s.frd := rfl
@[simp] theorem State.setPort_tiles (p : Nat) (h : PortH) : (s.setPort p h).tiles = s.tiles := rfl
@[simp] theorem State.setPort_tfe (p : Nat) (h : PortH) : (s.setPort p h).tfe = s.tfe := rfl
@[simp] theorem State.setPort_souts (p : Nat) (h : PortH) : (s.setPort p h).souts = s.souts := rfl
@[simp] theorem State.setPort_circs (p : Nat) (h : PortH) : (s.setPort p h).circs = s.circs := rfl
@[simp] theorem State.setPort_wdg (p : Nat) (h : PortH) : (s.setPort p h).wdg = s.wdg := rfl
@[simp] theorem State.setPort_pmcT (p : Nat) (h : PortH) : (s.setPort p h).pmcT = s.pmcT := rfl
@[simp] theorem State.setPort_bist (p : Nat) (h : PortH) : (s.setPort p h).bist = s.bist := rfl
@[simp] theorem State.setPort_xng (p : Nat) (h : PortH) : (s.setPort p h).xng = s.xng := rfl
@[simp] theorem State.setPort_ropes (p : Nat) (h : PortH) : (s.setPort p h).ropes = s.ropes := rfl
@[simp] theorem State.setPort_teams (p : Nat) (h : PortH) : (s.setPort p h).teams = s.teams := rfl
@[simp] theorem State.setPort_rope (p : Nat) (h : PortH) : (s.setPort p h).rope = s.rope := rfl
@[simp] theorem State.setPort_bcp (p : Nat) (h : PortH) : (s.setPort p h).bcp = s.bcp := rfl
@[simp] theorem State.setPort_spwrLow (p : Nat) (h : PortH) : (s.setPort p h).spwrLow = s.spwrLow := rfl
@[simp] theorem State.setPort_log (p : Nat) (h : PortH) : (s.setPort p h).log = s.log := rfl
@[simp] theorem State.setPort_out (p : Nat) (h : PortH) : (s.setPort p h).out = s.out := rfl

@[simp] theorem State.setCirc_pending (c : Nat) (h : CircH) : (s.setCirc c h).pending = s.pending := rfl
@[simp] theorem State.setCirc_now (c : Nat) (h : CircH) : (s.setCirc c h).now = s.now := rfl
@[simp] theorem State.setCirc_hot (c : Nat) (h : CircH) : (s.setCirc c h).hot = s.hot := rfl
@[simp] theorem State.setCirc_free (c : Nat) (h : CircH) : (s.setCirc c h).free = s.free := rfl
@[simp] theorem State.setCirc_regs (c : Nat) (h : CircH) : (s.setCirc c h).regs = s.regs := rfl
@[simp] theorem State.setCirc_pages (c : Nat) (h : CircH) : (s.setCirc c h).pages = s.pages := rfl
@[simp] theorem State.setCirc_mem (c : Nat) (h : CircH) : (s.setCirc c h).mem = s.mem := rfl
@[simp] theorem State.setCirc_chk (c : Nat) (h : CircH) : (s.setCirc c h).chk = s.chk := rfl
@[simp] theorem State.setCirc_pois (c : Nat) (h : CircH) : (s.setCirc c h).pois = s.pois := rfl
@[simp] theorem State.setCirc_tags (c : Nat) (h : CircH) : (s.setCirc c h).tags = s.tags := rfl
@[simp] theorem State.setCirc_dramErr (c : Nat) (h : CircH) : (s.setCirc c h).dramErr = s.dramErr := rfl
@[simp] theorem State.setCirc_banks (c : Nat) (h : CircH) : (s.setCirc c h).banks = s.banks := rfl
@[simp] theorem State.setCirc_trkIn (c : Nat) (h : CircH) : (s.setCirc c h).trkIn = s.trkIn := rfl
@[simp] theorem State.setCirc_trk (c : Nat) (h : CircH) : (s.setCirc c h).trk = s.trk := rfl
@[simp] theorem State.setCirc_bcast (c : Nat) (h : CircH) : (s.setCirc c h).bcast = s.bcast := rfl
@[simp] theorem State.setCirc_lastBcast (c : Nat) (h : CircH) : (s.setCirc c h).lastBcast = s.lastBcast := rfl
@[simp] theorem State.setCirc_wall (c : Nat) (h : CircH) : (s.setCirc c h).wall = s.wall := rfl
@[simp] theorem State.setCirc_wpt (c : Nat) (h : CircH) : (s.setCirc c h).wpt = s.wpt := rfl
@[simp] theorem State.setCirc_srcQ (c : Nat) (h : CircH) : (s.setCirc c h).srcQ = s.srcQ := rfl
@[simp] theorem State.setCirc_strs (c : Nat) (h : CircH) : (s.setCirc c h).strs = s.strs := rfl
@[simp] theorem State.setCirc_ringWait (c : Nat) (h : CircH) : (s.setCirc c h).ringWait = s.ringWait := rfl
@[simp] theorem State.setCirc_strTurn (c : Nat) (h : CircH) : (s.setCirc c h).strTurn = s.strTurn := rfl
@[simp] theorem State.setCirc_flow (c : Nat) (h : CircH) : (s.setCirc c h).flow = s.flow := rfl
@[simp] theorem State.setCirc_ports (c : Nat) (h : CircH) : (s.setCirc c h).ports = s.ports := rfl
@[simp] theorem State.setCirc_portPower (c : Nat) (h : CircH) : (s.setCirc c h).portPower = s.portPower := rfl
@[simp] theorem State.setCirc_arsIn (c : Nat) (h : CircH) : (s.setCirc c h).arsIn = s.arsIn := rfl
@[simp] theorem State.setCirc_arsView (c : Nat) (h : CircH) : (s.setCirc c h).arsView = s.arsView := rfl
@[simp] theorem State.setCirc_ars (c : Nat) (h : CircH) : (s.setCirc c h).ars = s.ars := rfl
@[simp] theorem State.setCirc_slots (c : Nat) (h : CircH) : (s.setCirc c h).slots = s.slots := rfl
@[simp] theorem State.setCirc_frd (c : Nat) (h : CircH) : (s.setCirc c h).frd = s.frd := rfl
@[simp] theorem State.setCirc_tiles (c : Nat) (h : CircH) : (s.setCirc c h).tiles = s.tiles := rfl
@[simp] theorem State.setCirc_tfe (c : Nat) (h : CircH) : (s.setCirc c h).tfe = s.tfe := rfl
@[simp] theorem State.setCirc_souts (c : Nat) (h : CircH) : (s.setCirc c h).souts = s.souts := rfl
@[simp] theorem State.setCirc_wdg (c : Nat) (h : CircH) : (s.setCirc c h).wdg = s.wdg := rfl
@[simp] theorem State.setCirc_pmcT (c : Nat) (h : CircH) : (s.setCirc c h).pmcT = s.pmcT := rfl
@[simp] theorem State.setCirc_bist (c : Nat) (h : CircH) : (s.setCirc c h).bist = s.bist := rfl
@[simp] theorem State.setCirc_xng (c : Nat) (h : CircH) : (s.setCirc c h).xng = s.xng := rfl
@[simp] theorem State.setCirc_ropes (c : Nat) (h : CircH) : (s.setCirc c h).ropes = s.ropes := rfl
@[simp] theorem State.setCirc_teams (c : Nat) (h : CircH) : (s.setCirc c h).teams = s.teams := rfl
@[simp] theorem State.setCirc_rope (c : Nat) (h : CircH) : (s.setCirc c h).rope = s.rope := rfl
@[simp] theorem State.setCirc_bcp (c : Nat) (h : CircH) : (s.setCirc c h).bcp = s.bcp := rfl
@[simp] theorem State.setCirc_spwrLow (c : Nat) (h : CircH) : (s.setCirc c h).spwrLow = s.spwrLow := rfl
@[simp] theorem State.setCirc_log (c : Nat) (h : CircH) : (s.setCirc c h).log = s.log := rfl
@[simp] theorem State.setCirc_out (c : Nat) (h : CircH) : (s.setCirc c h).out = s.out := rfl

@[simp] theorem State.setByte_pending (a : Nat) (b : Byte) : (s.setByte a b).pending = s.pending := rfl
@[simp] theorem State.setByte_now (a : Nat) (b : Byte) : (s.setByte a b).now = s.now := rfl
@[simp] theorem State.setByte_hot (a : Nat) (b : Byte) : (s.setByte a b).hot = s.hot := rfl
@[simp] theorem State.setByte_free (a : Nat) (b : Byte) : (s.setByte a b).free = s.free := rfl
@[simp] theorem State.setByte_regs (a : Nat) (b : Byte) : (s.setByte a b).regs = s.regs := rfl
@[simp] theorem State.setByte_pages (a : Nat) (b : Byte) : (s.setByte a b).pages = s.pages := rfl
@[simp] theorem State.setByte_chk (a : Nat) (b : Byte) : (s.setByte a b).chk = s.chk := rfl
@[simp] theorem State.setByte_pois (a : Nat) (b : Byte) : (s.setByte a b).pois = s.pois := rfl
@[simp] theorem State.setByte_tags (a : Nat) (b : Byte) : (s.setByte a b).tags = s.tags := rfl
@[simp] theorem State.setByte_dramErr (a : Nat) (b : Byte) : (s.setByte a b).dramErr = s.dramErr := rfl
@[simp] theorem State.setByte_banks (a : Nat) (b : Byte) : (s.setByte a b).banks = s.banks := rfl
@[simp] theorem State.setByte_trkIn (a : Nat) (b : Byte) : (s.setByte a b).trkIn = s.trkIn := rfl
@[simp] theorem State.setByte_trk (a : Nat) (b : Byte) : (s.setByte a b).trk = s.trk := rfl
@[simp] theorem State.setByte_bcast (a : Nat) (b : Byte) : (s.setByte a b).bcast = s.bcast := rfl
@[simp] theorem State.setByte_lastBcast (a : Nat) (b : Byte) : (s.setByte a b).lastBcast = s.lastBcast := rfl
@[simp] theorem State.setByte_wall (a : Nat) (b : Byte) : (s.setByte a b).wall = s.wall := rfl
@[simp] theorem State.setByte_wpt (a : Nat) (b : Byte) : (s.setByte a b).wpt = s.wpt := rfl
@[simp] theorem State.setByte_srcQ (a : Nat) (b : Byte) : (s.setByte a b).srcQ = s.srcQ := rfl
@[simp] theorem State.setByte_strs (a : Nat) (b : Byte) : (s.setByte a b).strs = s.strs := rfl
@[simp] theorem State.setByte_ringWait (a : Nat) (b : Byte) : (s.setByte a b).ringWait = s.ringWait := rfl
@[simp] theorem State.setByte_strTurn (a : Nat) (b : Byte) : (s.setByte a b).strTurn = s.strTurn := rfl
@[simp] theorem State.setByte_flow (a : Nat) (b : Byte) : (s.setByte a b).flow = s.flow := rfl
@[simp] theorem State.setByte_ports (a : Nat) (b : Byte) : (s.setByte a b).ports = s.ports := rfl
@[simp] theorem State.setByte_portPower (a : Nat) (b : Byte) : (s.setByte a b).portPower = s.portPower := rfl
@[simp] theorem State.setByte_arsIn (a : Nat) (b : Byte) : (s.setByte a b).arsIn = s.arsIn := rfl
@[simp] theorem State.setByte_arsView (a : Nat) (b : Byte) : (s.setByte a b).arsView = s.arsView := rfl
@[simp] theorem State.setByte_ars (a : Nat) (b : Byte) : (s.setByte a b).ars = s.ars := rfl
@[simp] theorem State.setByte_slots (a : Nat) (b : Byte) : (s.setByte a b).slots = s.slots := rfl
@[simp] theorem State.setByte_frd (a : Nat) (b : Byte) : (s.setByte a b).frd = s.frd := rfl
@[simp] theorem State.setByte_tiles (a : Nat) (b : Byte) : (s.setByte a b).tiles = s.tiles := rfl
@[simp] theorem State.setByte_tfe (a : Nat) (b : Byte) : (s.setByte a b).tfe = s.tfe := rfl
@[simp] theorem State.setByte_souts (a : Nat) (b : Byte) : (s.setByte a b).souts = s.souts := rfl
@[simp] theorem State.setByte_circs (a : Nat) (b : Byte) : (s.setByte a b).circs = s.circs := rfl
@[simp] theorem State.setByte_wdg (a : Nat) (b : Byte) : (s.setByte a b).wdg = s.wdg := rfl
@[simp] theorem State.setByte_pmcT (a : Nat) (b : Byte) : (s.setByte a b).pmcT = s.pmcT := rfl
@[simp] theorem State.setByte_bist (a : Nat) (b : Byte) : (s.setByte a b).bist = s.bist := rfl
@[simp] theorem State.setByte_xng (a : Nat) (b : Byte) : (s.setByte a b).xng = s.xng := rfl
@[simp] theorem State.setByte_ropes (a : Nat) (b : Byte) : (s.setByte a b).ropes = s.ropes := rfl
@[simp] theorem State.setByte_teams (a : Nat) (b : Byte) : (s.setByte a b).teams = s.teams := rfl
@[simp] theorem State.setByte_rope (a : Nat) (b : Byte) : (s.setByte a b).rope = s.rope := rfl
@[simp] theorem State.setByte_bcp (a : Nat) (b : Byte) : (s.setByte a b).bcp = s.bcp := rfl
@[simp] theorem State.setByte_spwrLow (a : Nat) (b : Byte) : (s.setByte a b).spwrLow = s.spwrLow := rfl
@[simp] theorem State.setByte_log (a : Nat) (b : Byte) : (s.setByte a b).log = s.log := rfl
@[simp] theorem State.setByte_out (a : Nat) (b : Byte) : (s.setByte a b).out = s.out := rfl

@[simp] theorem State.setChk_pending (a v : Nat) : (s.setChk a v).pending = s.pending := rfl
@[simp] theorem State.setChk_now (a v : Nat) : (s.setChk a v).now = s.now := rfl
@[simp] theorem State.setChk_hot (a v : Nat) : (s.setChk a v).hot = s.hot := rfl
@[simp] theorem State.setChk_free (a v : Nat) : (s.setChk a v).free = s.free := rfl
@[simp] theorem State.setChk_regs (a v : Nat) : (s.setChk a v).regs = s.regs := rfl
@[simp] theorem State.setChk_pages (a v : Nat) : (s.setChk a v).pages = s.pages := rfl
@[simp] theorem State.setChk_mem (a v : Nat) : (s.setChk a v).mem = s.mem := rfl
@[simp] theorem State.setChk_pois (a v : Nat) : (s.setChk a v).pois = s.pois := rfl
@[simp] theorem State.setChk_tags (a v : Nat) : (s.setChk a v).tags = s.tags := rfl
@[simp] theorem State.setChk_dramErr (a v : Nat) : (s.setChk a v).dramErr = s.dramErr := rfl
@[simp] theorem State.setChk_banks (a v : Nat) : (s.setChk a v).banks = s.banks := rfl
@[simp] theorem State.setChk_trkIn (a v : Nat) : (s.setChk a v).trkIn = s.trkIn := rfl
@[simp] theorem State.setChk_trk (a v : Nat) : (s.setChk a v).trk = s.trk := rfl
@[simp] theorem State.setChk_bcast (a v : Nat) : (s.setChk a v).bcast = s.bcast := rfl
@[simp] theorem State.setChk_lastBcast (a v : Nat) : (s.setChk a v).lastBcast = s.lastBcast := rfl
@[simp] theorem State.setChk_wall (a v : Nat) : (s.setChk a v).wall = s.wall := rfl
@[simp] theorem State.setChk_wpt (a v : Nat) : (s.setChk a v).wpt = s.wpt := rfl
@[simp] theorem State.setChk_srcQ (a v : Nat) : (s.setChk a v).srcQ = s.srcQ := rfl
@[simp] theorem State.setChk_strs (a v : Nat) : (s.setChk a v).strs = s.strs := rfl
@[simp] theorem State.setChk_ringWait (a v : Nat) : (s.setChk a v).ringWait = s.ringWait := rfl
@[simp] theorem State.setChk_strTurn (a v : Nat) : (s.setChk a v).strTurn = s.strTurn := rfl
@[simp] theorem State.setChk_flow (a v : Nat) : (s.setChk a v).flow = s.flow := rfl
@[simp] theorem State.setChk_ports (a v : Nat) : (s.setChk a v).ports = s.ports := rfl
@[simp] theorem State.setChk_portPower (a v : Nat) : (s.setChk a v).portPower = s.portPower := rfl
@[simp] theorem State.setChk_arsIn (a v : Nat) : (s.setChk a v).arsIn = s.arsIn := rfl
@[simp] theorem State.setChk_arsView (a v : Nat) : (s.setChk a v).arsView = s.arsView := rfl
@[simp] theorem State.setChk_ars (a v : Nat) : (s.setChk a v).ars = s.ars := rfl
@[simp] theorem State.setChk_slots (a v : Nat) : (s.setChk a v).slots = s.slots := rfl
@[simp] theorem State.setChk_frd (a v : Nat) : (s.setChk a v).frd = s.frd := rfl
@[simp] theorem State.setChk_tiles (a v : Nat) : (s.setChk a v).tiles = s.tiles := rfl
@[simp] theorem State.setChk_tfe (a v : Nat) : (s.setChk a v).tfe = s.tfe := rfl
@[simp] theorem State.setChk_souts (a v : Nat) : (s.setChk a v).souts = s.souts := rfl
@[simp] theorem State.setChk_circs (a v : Nat) : (s.setChk a v).circs = s.circs := rfl
@[simp] theorem State.setChk_wdg (a v : Nat) : (s.setChk a v).wdg = s.wdg := rfl
@[simp] theorem State.setChk_pmcT (a v : Nat) : (s.setChk a v).pmcT = s.pmcT := rfl
@[simp] theorem State.setChk_bist (a v : Nat) : (s.setChk a v).bist = s.bist := rfl
@[simp] theorem State.setChk_xng (a v : Nat) : (s.setChk a v).xng = s.xng := rfl
@[simp] theorem State.setChk_ropes (a v : Nat) : (s.setChk a v).ropes = s.ropes := rfl
@[simp] theorem State.setChk_teams (a v : Nat) : (s.setChk a v).teams = s.teams := rfl
@[simp] theorem State.setChk_rope (a v : Nat) : (s.setChk a v).rope = s.rope := rfl
@[simp] theorem State.setChk_bcp (a v : Nat) : (s.setChk a v).bcp = s.bcp := rfl
@[simp] theorem State.setChk_spwrLow (a v : Nat) : (s.setChk a v).spwrLow = s.spwrLow := rfl
@[simp] theorem State.setChk_log (a v : Nat) : (s.setChk a v).log = s.log := rfl
@[simp] theorem State.setChk_out (a v : Nat) : (s.setChk a v).out = s.out := rfl

@[simp] theorem State.setPois_pending (a v : Nat) : (s.setPois a v).pending = s.pending := rfl
@[simp] theorem State.setPois_now (a v : Nat) : (s.setPois a v).now = s.now := rfl
@[simp] theorem State.setPois_hot (a v : Nat) : (s.setPois a v).hot = s.hot := rfl
@[simp] theorem State.setPois_free (a v : Nat) : (s.setPois a v).free = s.free := rfl
@[simp] theorem State.setPois_regs (a v : Nat) : (s.setPois a v).regs = s.regs := rfl
@[simp] theorem State.setPois_pages (a v : Nat) : (s.setPois a v).pages = s.pages := rfl
@[simp] theorem State.setPois_mem (a v : Nat) : (s.setPois a v).mem = s.mem := rfl
@[simp] theorem State.setPois_chk (a v : Nat) : (s.setPois a v).chk = s.chk := rfl
@[simp] theorem State.setPois_tags (a v : Nat) : (s.setPois a v).tags = s.tags := rfl
@[simp] theorem State.setPois_dramErr (a v : Nat) : (s.setPois a v).dramErr = s.dramErr := rfl
@[simp] theorem State.setPois_banks (a v : Nat) : (s.setPois a v).banks = s.banks := rfl
@[simp] theorem State.setPois_trkIn (a v : Nat) : (s.setPois a v).trkIn = s.trkIn := rfl
@[simp] theorem State.setPois_trk (a v : Nat) : (s.setPois a v).trk = s.trk := rfl
@[simp] theorem State.setPois_bcast (a v : Nat) : (s.setPois a v).bcast = s.bcast := rfl
@[simp] theorem State.setPois_lastBcast (a v : Nat) : (s.setPois a v).lastBcast = s.lastBcast := rfl
@[simp] theorem State.setPois_wall (a v : Nat) : (s.setPois a v).wall = s.wall := rfl
@[simp] theorem State.setPois_wpt (a v : Nat) : (s.setPois a v).wpt = s.wpt := rfl
@[simp] theorem State.setPois_srcQ (a v : Nat) : (s.setPois a v).srcQ = s.srcQ := rfl
@[simp] theorem State.setPois_strs (a v : Nat) : (s.setPois a v).strs = s.strs := rfl
@[simp] theorem State.setPois_ringWait (a v : Nat) : (s.setPois a v).ringWait = s.ringWait := rfl
@[simp] theorem State.setPois_strTurn (a v : Nat) : (s.setPois a v).strTurn = s.strTurn := rfl
@[simp] theorem State.setPois_flow (a v : Nat) : (s.setPois a v).flow = s.flow := rfl
@[simp] theorem State.setPois_ports (a v : Nat) : (s.setPois a v).ports = s.ports := rfl
@[simp] theorem State.setPois_portPower (a v : Nat) : (s.setPois a v).portPower = s.portPower := rfl
@[simp] theorem State.setPois_arsIn (a v : Nat) : (s.setPois a v).arsIn = s.arsIn := rfl
@[simp] theorem State.setPois_arsView (a v : Nat) : (s.setPois a v).arsView = s.arsView := rfl
@[simp] theorem State.setPois_ars (a v : Nat) : (s.setPois a v).ars = s.ars := rfl
@[simp] theorem State.setPois_slots (a v : Nat) : (s.setPois a v).slots = s.slots := rfl
@[simp] theorem State.setPois_frd (a v : Nat) : (s.setPois a v).frd = s.frd := rfl
@[simp] theorem State.setPois_tiles (a v : Nat) : (s.setPois a v).tiles = s.tiles := rfl
@[simp] theorem State.setPois_tfe (a v : Nat) : (s.setPois a v).tfe = s.tfe := rfl
@[simp] theorem State.setPois_souts (a v : Nat) : (s.setPois a v).souts = s.souts := rfl
@[simp] theorem State.setPois_circs (a v : Nat) : (s.setPois a v).circs = s.circs := rfl
@[simp] theorem State.setPois_wdg (a v : Nat) : (s.setPois a v).wdg = s.wdg := rfl
@[simp] theorem State.setPois_pmcT (a v : Nat) : (s.setPois a v).pmcT = s.pmcT := rfl
@[simp] theorem State.setPois_bist (a v : Nat) : (s.setPois a v).bist = s.bist := rfl
@[simp] theorem State.setPois_xng (a v : Nat) : (s.setPois a v).xng = s.xng := rfl
@[simp] theorem State.setPois_ropes (a v : Nat) : (s.setPois a v).ropes = s.ropes := rfl
@[simp] theorem State.setPois_teams (a v : Nat) : (s.setPois a v).teams = s.teams := rfl
@[simp] theorem State.setPois_rope (a v : Nat) : (s.setPois a v).rope = s.rope := rfl
@[simp] theorem State.setPois_bcp (a v : Nat) : (s.setPois a v).bcp = s.bcp := rfl
@[simp] theorem State.setPois_spwrLow (a v : Nat) : (s.setPois a v).spwrLow = s.spwrLow := rfl
@[simp] theorem State.setPois_log (a v : Nat) : (s.setPois a v).log = s.log := rfl
@[simp] theorem State.setPois_out (a v : Nat) : (s.setPois a v).out = s.out := rfl

@[simp] theorem State.setTag_pending (a v : Nat) : (s.setTag a v).pending = s.pending := rfl
@[simp] theorem State.setTag_now (a v : Nat) : (s.setTag a v).now = s.now := rfl
@[simp] theorem State.setTag_hot (a v : Nat) : (s.setTag a v).hot = s.hot := rfl
@[simp] theorem State.setTag_free (a v : Nat) : (s.setTag a v).free = s.free := rfl
@[simp] theorem State.setTag_regs (a v : Nat) : (s.setTag a v).regs = s.regs := rfl
@[simp] theorem State.setTag_pages (a v : Nat) : (s.setTag a v).pages = s.pages := rfl
@[simp] theorem State.setTag_mem (a v : Nat) : (s.setTag a v).mem = s.mem := rfl
@[simp] theorem State.setTag_chk (a v : Nat) : (s.setTag a v).chk = s.chk := rfl
@[simp] theorem State.setTag_pois (a v : Nat) : (s.setTag a v).pois = s.pois := rfl
@[simp] theorem State.setTag_dramErr (a v : Nat) : (s.setTag a v).dramErr = s.dramErr := rfl
@[simp] theorem State.setTag_banks (a v : Nat) : (s.setTag a v).banks = s.banks := rfl
@[simp] theorem State.setTag_trkIn (a v : Nat) : (s.setTag a v).trkIn = s.trkIn := rfl
@[simp] theorem State.setTag_trk (a v : Nat) : (s.setTag a v).trk = s.trk := rfl
@[simp] theorem State.setTag_bcast (a v : Nat) : (s.setTag a v).bcast = s.bcast := rfl
@[simp] theorem State.setTag_lastBcast (a v : Nat) : (s.setTag a v).lastBcast = s.lastBcast := rfl
@[simp] theorem State.setTag_wall (a v : Nat) : (s.setTag a v).wall = s.wall := rfl
@[simp] theorem State.setTag_wpt (a v : Nat) : (s.setTag a v).wpt = s.wpt := rfl
@[simp] theorem State.setTag_srcQ (a v : Nat) : (s.setTag a v).srcQ = s.srcQ := rfl
@[simp] theorem State.setTag_strs (a v : Nat) : (s.setTag a v).strs = s.strs := rfl
@[simp] theorem State.setTag_ringWait (a v : Nat) : (s.setTag a v).ringWait = s.ringWait := rfl
@[simp] theorem State.setTag_strTurn (a v : Nat) : (s.setTag a v).strTurn = s.strTurn := rfl
@[simp] theorem State.setTag_flow (a v : Nat) : (s.setTag a v).flow = s.flow := rfl
@[simp] theorem State.setTag_ports (a v : Nat) : (s.setTag a v).ports = s.ports := rfl
@[simp] theorem State.setTag_portPower (a v : Nat) : (s.setTag a v).portPower = s.portPower := rfl
@[simp] theorem State.setTag_arsIn (a v : Nat) : (s.setTag a v).arsIn = s.arsIn := rfl
@[simp] theorem State.setTag_arsView (a v : Nat) : (s.setTag a v).arsView = s.arsView := rfl
@[simp] theorem State.setTag_ars (a v : Nat) : (s.setTag a v).ars = s.ars := rfl
@[simp] theorem State.setTag_slots (a v : Nat) : (s.setTag a v).slots = s.slots := rfl
@[simp] theorem State.setTag_frd (a v : Nat) : (s.setTag a v).frd = s.frd := rfl
@[simp] theorem State.setTag_tiles (a v : Nat) : (s.setTag a v).tiles = s.tiles := rfl
@[simp] theorem State.setTag_tfe (a v : Nat) : (s.setTag a v).tfe = s.tfe := rfl
@[simp] theorem State.setTag_souts (a v : Nat) : (s.setTag a v).souts = s.souts := rfl
@[simp] theorem State.setTag_circs (a v : Nat) : (s.setTag a v).circs = s.circs := rfl
@[simp] theorem State.setTag_wdg (a v : Nat) : (s.setTag a v).wdg = s.wdg := rfl
@[simp] theorem State.setTag_pmcT (a v : Nat) : (s.setTag a v).pmcT = s.pmcT := rfl
@[simp] theorem State.setTag_bist (a v : Nat) : (s.setTag a v).bist = s.bist := rfl
@[simp] theorem State.setTag_xng (a v : Nat) : (s.setTag a v).xng = s.xng := rfl
@[simp] theorem State.setTag_ropes (a v : Nat) : (s.setTag a v).ropes = s.ropes := rfl
@[simp] theorem State.setTag_teams (a v : Nat) : (s.setTag a v).teams = s.teams := rfl
@[simp] theorem State.setTag_rope (a v : Nat) : (s.setTag a v).rope = s.rope := rfl
@[simp] theorem State.setTag_bcp (a v : Nat) : (s.setTag a v).bcp = s.bcp := rfl
@[simp] theorem State.setTag_spwrLow (a v : Nat) : (s.setTag a v).spwrLow = s.spwrLow := rfl
@[simp] theorem State.setTag_log (a v : Nat) : (s.setTag a v).log = s.log := rfl
@[simp] theorem State.setTag_out (a v : Nat) : (s.setTag a v).out = s.out := rfl

@[simp] theorem State.setLineErr_pending (l : Nat) (e : List (Nat × Nat)) : (s.setLineErr l e).pending = s.pending := rfl
@[simp] theorem State.setLineErr_now (l : Nat) (e : List (Nat × Nat)) : (s.setLineErr l e).now = s.now := rfl
@[simp] theorem State.setLineErr_hot (l : Nat) (e : List (Nat × Nat)) : (s.setLineErr l e).hot = s.hot := rfl
@[simp] theorem State.setLineErr_free (l : Nat) (e : List (Nat × Nat)) : (s.setLineErr l e).free = s.free := rfl
@[simp] theorem State.setLineErr_regs (l : Nat) (e : List (Nat × Nat)) : (s.setLineErr l e).regs = s.regs := rfl
@[simp] theorem State.setLineErr_pages (l : Nat) (e : List (Nat × Nat)) : (s.setLineErr l e).pages = s.pages := rfl
@[simp] theorem State.setLineErr_mem (l : Nat) (e : List (Nat × Nat)) : (s.setLineErr l e).mem = s.mem := rfl
@[simp] theorem State.setLineErr_chk (l : Nat) (e : List (Nat × Nat)) : (s.setLineErr l e).chk = s.chk := rfl
@[simp] theorem State.setLineErr_pois (l : Nat) (e : List (Nat × Nat)) : (s.setLineErr l e).pois = s.pois := rfl
@[simp] theorem State.setLineErr_tags (l : Nat) (e : List (Nat × Nat)) : (s.setLineErr l e).tags = s.tags := rfl
@[simp] theorem State.setLineErr_banks (l : Nat) (e : List (Nat × Nat)) : (s.setLineErr l e).banks = s.banks := rfl
@[simp] theorem State.setLineErr_trkIn (l : Nat) (e : List (Nat × Nat)) : (s.setLineErr l e).trkIn = s.trkIn := rfl
@[simp] theorem State.setLineErr_trk (l : Nat) (e : List (Nat × Nat)) : (s.setLineErr l e).trk = s.trk := rfl
@[simp] theorem State.setLineErr_bcast (l : Nat) (e : List (Nat × Nat)) : (s.setLineErr l e).bcast = s.bcast := rfl
@[simp] theorem State.setLineErr_lastBcast (l : Nat) (e : List (Nat × Nat)) : (s.setLineErr l e).lastBcast = s.lastBcast := rfl
@[simp] theorem State.setLineErr_wall (l : Nat) (e : List (Nat × Nat)) : (s.setLineErr l e).wall = s.wall := rfl
@[simp] theorem State.setLineErr_wpt (l : Nat) (e : List (Nat × Nat)) : (s.setLineErr l e).wpt = s.wpt := rfl
@[simp] theorem State.setLineErr_srcQ (l : Nat) (e : List (Nat × Nat)) : (s.setLineErr l e).srcQ = s.srcQ := rfl
@[simp] theorem State.setLineErr_strs (l : Nat) (e : List (Nat × Nat)) : (s.setLineErr l e).strs = s.strs := rfl
@[simp] theorem State.setLineErr_ringWait (l : Nat) (e : List (Nat × Nat)) : (s.setLineErr l e).ringWait = s.ringWait := rfl
@[simp] theorem State.setLineErr_strTurn (l : Nat) (e : List (Nat × Nat)) : (s.setLineErr l e).strTurn = s.strTurn := rfl
@[simp] theorem State.setLineErr_flow (l : Nat) (e : List (Nat × Nat)) : (s.setLineErr l e).flow = s.flow := rfl
@[simp] theorem State.setLineErr_ports (l : Nat) (e : List (Nat × Nat)) : (s.setLineErr l e).ports = s.ports := rfl
@[simp] theorem State.setLineErr_portPower (l : Nat) (e : List (Nat × Nat)) : (s.setLineErr l e).portPower = s.portPower := rfl
@[simp] theorem State.setLineErr_arsIn (l : Nat) (e : List (Nat × Nat)) : (s.setLineErr l e).arsIn = s.arsIn := rfl
@[simp] theorem State.setLineErr_arsView (l : Nat) (e : List (Nat × Nat)) : (s.setLineErr l e).arsView = s.arsView := rfl
@[simp] theorem State.setLineErr_ars (l : Nat) (e : List (Nat × Nat)) : (s.setLineErr l e).ars = s.ars := rfl
@[simp] theorem State.setLineErr_slots (l : Nat) (e : List (Nat × Nat)) : (s.setLineErr l e).slots = s.slots := rfl
@[simp] theorem State.setLineErr_frd (l : Nat) (e : List (Nat × Nat)) : (s.setLineErr l e).frd = s.frd := rfl
@[simp] theorem State.setLineErr_tiles (l : Nat) (e : List (Nat × Nat)) : (s.setLineErr l e).tiles = s.tiles := rfl
@[simp] theorem State.setLineErr_tfe (l : Nat) (e : List (Nat × Nat)) : (s.setLineErr l e).tfe = s.tfe := rfl
@[simp] theorem State.setLineErr_souts (l : Nat) (e : List (Nat × Nat)) : (s.setLineErr l e).souts = s.souts := rfl
@[simp] theorem State.setLineErr_circs (l : Nat) (e : List (Nat × Nat)) : (s.setLineErr l e).circs = s.circs := rfl
@[simp] theorem State.setLineErr_wdg (l : Nat) (e : List (Nat × Nat)) : (s.setLineErr l e).wdg = s.wdg := rfl
@[simp] theorem State.setLineErr_pmcT (l : Nat) (e : List (Nat × Nat)) : (s.setLineErr l e).pmcT = s.pmcT := rfl
@[simp] theorem State.setLineErr_bist (l : Nat) (e : List (Nat × Nat)) : (s.setLineErr l e).bist = s.bist := rfl
@[simp] theorem State.setLineErr_xng (l : Nat) (e : List (Nat × Nat)) : (s.setLineErr l e).xng = s.xng := rfl
@[simp] theorem State.setLineErr_ropes (l : Nat) (e : List (Nat × Nat)) : (s.setLineErr l e).ropes = s.ropes := rfl
@[simp] theorem State.setLineErr_teams (l : Nat) (e : List (Nat × Nat)) : (s.setLineErr l e).teams = s.teams := rfl
@[simp] theorem State.setLineErr_rope (l : Nat) (e : List (Nat × Nat)) : (s.setLineErr l e).rope = s.rope := rfl
@[simp] theorem State.setLineErr_bcp (l : Nat) (e : List (Nat × Nat)) : (s.setLineErr l e).bcp = s.bcp := rfl
@[simp] theorem State.setLineErr_spwrLow (l : Nat) (e : List (Nat × Nat)) : (s.setLineErr l e).spwrLow = s.spwrLow := rfl
@[simp] theorem State.setLineErr_log (l : Nat) (e : List (Nat × Nat)) : (s.setLineErr l e).log = s.log := rfl
@[simp] theorem State.setLineErr_out (l : Nat) (e : List (Nat × Nat)) : (s.setLineErr l e).out = s.out := rfl

@[simp] theorem State.setBank_pending (page bank : Nat) (h : BankH) : (s.setBank page bank h).pending = s.pending := rfl
@[simp] theorem State.setBank_now (page bank : Nat) (h : BankH) : (s.setBank page bank h).now = s.now := rfl
@[simp] theorem State.setBank_hot (page bank : Nat) (h : BankH) : (s.setBank page bank h).hot = s.hot := rfl
@[simp] theorem State.setBank_free (page bank : Nat) (h : BankH) : (s.setBank page bank h).free = s.free := rfl
@[simp] theorem State.setBank_regs (page bank : Nat) (h : BankH) : (s.setBank page bank h).regs = s.regs := rfl
@[simp] theorem State.setBank_pages (page bank : Nat) (h : BankH) : (s.setBank page bank h).pages = s.pages := rfl
@[simp] theorem State.setBank_mem (page bank : Nat) (h : BankH) : (s.setBank page bank h).mem = s.mem := rfl
@[simp] theorem State.setBank_chk (page bank : Nat) (h : BankH) : (s.setBank page bank h).chk = s.chk := rfl
@[simp] theorem State.setBank_pois (page bank : Nat) (h : BankH) : (s.setBank page bank h).pois = s.pois := rfl
@[simp] theorem State.setBank_tags (page bank : Nat) (h : BankH) : (s.setBank page bank h).tags = s.tags := rfl
@[simp] theorem State.setBank_dramErr (page bank : Nat) (h : BankH) : (s.setBank page bank h).dramErr = s.dramErr := rfl
@[simp] theorem State.setBank_trkIn (page bank : Nat) (h : BankH) : (s.setBank page bank h).trkIn = s.trkIn := rfl
@[simp] theorem State.setBank_trk (page bank : Nat) (h : BankH) : (s.setBank page bank h).trk = s.trk := rfl
@[simp] theorem State.setBank_bcast (page bank : Nat) (h : BankH) : (s.setBank page bank h).bcast = s.bcast := rfl
@[simp] theorem State.setBank_lastBcast (page bank : Nat) (h : BankH) : (s.setBank page bank h).lastBcast = s.lastBcast := rfl
@[simp] theorem State.setBank_wall (page bank : Nat) (h : BankH) : (s.setBank page bank h).wall = s.wall := rfl
@[simp] theorem State.setBank_wpt (page bank : Nat) (h : BankH) : (s.setBank page bank h).wpt = s.wpt := rfl
@[simp] theorem State.setBank_srcQ (page bank : Nat) (h : BankH) : (s.setBank page bank h).srcQ = s.srcQ := rfl
@[simp] theorem State.setBank_strs (page bank : Nat) (h : BankH) : (s.setBank page bank h).strs = s.strs := rfl
@[simp] theorem State.setBank_ringWait (page bank : Nat) (h : BankH) : (s.setBank page bank h).ringWait = s.ringWait := rfl
@[simp] theorem State.setBank_strTurn (page bank : Nat) (h : BankH) : (s.setBank page bank h).strTurn = s.strTurn := rfl
@[simp] theorem State.setBank_flow (page bank : Nat) (h : BankH) : (s.setBank page bank h).flow = s.flow := rfl
@[simp] theorem State.setBank_ports (page bank : Nat) (h : BankH) : (s.setBank page bank h).ports = s.ports := rfl
@[simp] theorem State.setBank_portPower (page bank : Nat) (h : BankH) : (s.setBank page bank h).portPower = s.portPower := rfl
@[simp] theorem State.setBank_arsIn (page bank : Nat) (h : BankH) : (s.setBank page bank h).arsIn = s.arsIn := rfl
@[simp] theorem State.setBank_arsView (page bank : Nat) (h : BankH) : (s.setBank page bank h).arsView = s.arsView := rfl
@[simp] theorem State.setBank_ars (page bank : Nat) (h : BankH) : (s.setBank page bank h).ars = s.ars := rfl
@[simp] theorem State.setBank_slots (page bank : Nat) (h : BankH) : (s.setBank page bank h).slots = s.slots := rfl
@[simp] theorem State.setBank_frd (page bank : Nat) (h : BankH) : (s.setBank page bank h).frd = s.frd := rfl
@[simp] theorem State.setBank_tiles (page bank : Nat) (h : BankH) : (s.setBank page bank h).tiles = s.tiles := rfl
@[simp] theorem State.setBank_tfe (page bank : Nat) (h : BankH) : (s.setBank page bank h).tfe = s.tfe := rfl
@[simp] theorem State.setBank_souts (page bank : Nat) (h : BankH) : (s.setBank page bank h).souts = s.souts := rfl
@[simp] theorem State.setBank_circs (page bank : Nat) (h : BankH) : (s.setBank page bank h).circs = s.circs := rfl
@[simp] theorem State.setBank_wdg (page bank : Nat) (h : BankH) : (s.setBank page bank h).wdg = s.wdg := rfl
@[simp] theorem State.setBank_pmcT (page bank : Nat) (h : BankH) : (s.setBank page bank h).pmcT = s.pmcT := rfl
@[simp] theorem State.setBank_bist (page bank : Nat) (h : BankH) : (s.setBank page bank h).bist = s.bist := rfl
@[simp] theorem State.setBank_xng (page bank : Nat) (h : BankH) : (s.setBank page bank h).xng = s.xng := rfl
@[simp] theorem State.setBank_ropes (page bank : Nat) (h : BankH) : (s.setBank page bank h).ropes = s.ropes := rfl
@[simp] theorem State.setBank_teams (page bank : Nat) (h : BankH) : (s.setBank page bank h).teams = s.teams := rfl
@[simp] theorem State.setBank_rope (page bank : Nat) (h : BankH) : (s.setBank page bank h).rope = s.rope := rfl
@[simp] theorem State.setBank_bcp (page bank : Nat) (h : BankH) : (s.setBank page bank h).bcp = s.bcp := rfl
@[simp] theorem State.setBank_spwrLow (page bank : Nat) (h : BankH) : (s.setBank page bank h).spwrLow = s.spwrLow := rfl
@[simp] theorem State.setBank_log (page bank : Nat) (h : BankH) : (s.setBank page bank h).log = s.log := rfl
@[simp] theorem State.setBank_out (page bank : Nat) (h : BankH) : (s.setBank page bank h).out = s.out := rfl

@[simp] theorem State.setBist_pending (p : Nat) (h : BistH) : (s.setBist p h).pending = s.pending := rfl
@[simp] theorem State.setBist_now (p : Nat) (h : BistH) : (s.setBist p h).now = s.now := rfl
@[simp] theorem State.setBist_hot (p : Nat) (h : BistH) : (s.setBist p h).hot = s.hot := rfl
@[simp] theorem State.setBist_free (p : Nat) (h : BistH) : (s.setBist p h).free = s.free := rfl
@[simp] theorem State.setBist_regs (p : Nat) (h : BistH) : (s.setBist p h).regs = s.regs := rfl
@[simp] theorem State.setBist_pages (p : Nat) (h : BistH) : (s.setBist p h).pages = s.pages := rfl
@[simp] theorem State.setBist_mem (p : Nat) (h : BistH) : (s.setBist p h).mem = s.mem := rfl
@[simp] theorem State.setBist_chk (p : Nat) (h : BistH) : (s.setBist p h).chk = s.chk := rfl
@[simp] theorem State.setBist_pois (p : Nat) (h : BistH) : (s.setBist p h).pois = s.pois := rfl
@[simp] theorem State.setBist_tags (p : Nat) (h : BistH) : (s.setBist p h).tags = s.tags := rfl
@[simp] theorem State.setBist_dramErr (p : Nat) (h : BistH) : (s.setBist p h).dramErr = s.dramErr := rfl
@[simp] theorem State.setBist_banks (p : Nat) (h : BistH) : (s.setBist p h).banks = s.banks := rfl
@[simp] theorem State.setBist_trkIn (p : Nat) (h : BistH) : (s.setBist p h).trkIn = s.trkIn := rfl
@[simp] theorem State.setBist_trk (p : Nat) (h : BistH) : (s.setBist p h).trk = s.trk := rfl
@[simp] theorem State.setBist_bcast (p : Nat) (h : BistH) : (s.setBist p h).bcast = s.bcast := rfl
@[simp] theorem State.setBist_lastBcast (p : Nat) (h : BistH) : (s.setBist p h).lastBcast = s.lastBcast := rfl
@[simp] theorem State.setBist_wall (p : Nat) (h : BistH) : (s.setBist p h).wall = s.wall := rfl
@[simp] theorem State.setBist_wpt (p : Nat) (h : BistH) : (s.setBist p h).wpt = s.wpt := rfl
@[simp] theorem State.setBist_srcQ (p : Nat) (h : BistH) : (s.setBist p h).srcQ = s.srcQ := rfl
@[simp] theorem State.setBist_strs (p : Nat) (h : BistH) : (s.setBist p h).strs = s.strs := rfl
@[simp] theorem State.setBist_ringWait (p : Nat) (h : BistH) : (s.setBist p h).ringWait = s.ringWait := rfl
@[simp] theorem State.setBist_strTurn (p : Nat) (h : BistH) : (s.setBist p h).strTurn = s.strTurn := rfl
@[simp] theorem State.setBist_flow (p : Nat) (h : BistH) : (s.setBist p h).flow = s.flow := rfl
@[simp] theorem State.setBist_ports (p : Nat) (h : BistH) : (s.setBist p h).ports = s.ports := rfl
@[simp] theorem State.setBist_portPower (p : Nat) (h : BistH) : (s.setBist p h).portPower = s.portPower := rfl
@[simp] theorem State.setBist_arsIn (p : Nat) (h : BistH) : (s.setBist p h).arsIn = s.arsIn := rfl
@[simp] theorem State.setBist_arsView (p : Nat) (h : BistH) : (s.setBist p h).arsView = s.arsView := rfl
@[simp] theorem State.setBist_ars (p : Nat) (h : BistH) : (s.setBist p h).ars = s.ars := rfl
@[simp] theorem State.setBist_slots (p : Nat) (h : BistH) : (s.setBist p h).slots = s.slots := rfl
@[simp] theorem State.setBist_frd (p : Nat) (h : BistH) : (s.setBist p h).frd = s.frd := rfl
@[simp] theorem State.setBist_tiles (p : Nat) (h : BistH) : (s.setBist p h).tiles = s.tiles := rfl
@[simp] theorem State.setBist_tfe (p : Nat) (h : BistH) : (s.setBist p h).tfe = s.tfe := rfl
@[simp] theorem State.setBist_souts (p : Nat) (h : BistH) : (s.setBist p h).souts = s.souts := rfl
@[simp] theorem State.setBist_circs (p : Nat) (h : BistH) : (s.setBist p h).circs = s.circs := rfl
@[simp] theorem State.setBist_wdg (p : Nat) (h : BistH) : (s.setBist p h).wdg = s.wdg := rfl
@[simp] theorem State.setBist_pmcT (p : Nat) (h : BistH) : (s.setBist p h).pmcT = s.pmcT := rfl
@[simp] theorem State.setBist_xng (p : Nat) (h : BistH) : (s.setBist p h).xng = s.xng := rfl
@[simp] theorem State.setBist_ropes (p : Nat) (h : BistH) : (s.setBist p h).ropes = s.ropes := rfl
@[simp] theorem State.setBist_teams (p : Nat) (h : BistH) : (s.setBist p h).teams = s.teams := rfl
@[simp] theorem State.setBist_rope (p : Nat) (h : BistH) : (s.setBist p h).rope = s.rope := rfl
@[simp] theorem State.setBist_bcp (p : Nat) (h : BistH) : (s.setBist p h).bcp = s.bcp := rfl
@[simp] theorem State.setBist_spwrLow (p : Nat) (h : BistH) : (s.setBist p h).spwrLow = s.spwrLow := rfl
@[simp] theorem State.setBist_log (p : Nat) (h : BistH) : (s.setBist p h).log = s.log := rfl
@[simp] theorem State.setBist_out (p : Nat) (h : BistH) : (s.setBist p h).out = s.out := rfl

@[simp] theorem State.setWdg_pending (p : Nat) (h : WdgH) : (s.setWdg p h).pending = s.pending := rfl
@[simp] theorem State.setWdg_now (p : Nat) (h : WdgH) : (s.setWdg p h).now = s.now := rfl
@[simp] theorem State.setWdg_hot (p : Nat) (h : WdgH) : (s.setWdg p h).hot = s.hot := rfl
@[simp] theorem State.setWdg_free (p : Nat) (h : WdgH) : (s.setWdg p h).free = s.free := rfl
@[simp] theorem State.setWdg_regs (p : Nat) (h : WdgH) : (s.setWdg p h).regs = s.regs := rfl
@[simp] theorem State.setWdg_pages (p : Nat) (h : WdgH) : (s.setWdg p h).pages = s.pages := rfl
@[simp] theorem State.setWdg_mem (p : Nat) (h : WdgH) : (s.setWdg p h).mem = s.mem := rfl
@[simp] theorem State.setWdg_chk (p : Nat) (h : WdgH) : (s.setWdg p h).chk = s.chk := rfl
@[simp] theorem State.setWdg_pois (p : Nat) (h : WdgH) : (s.setWdg p h).pois = s.pois := rfl
@[simp] theorem State.setWdg_tags (p : Nat) (h : WdgH) : (s.setWdg p h).tags = s.tags := rfl
@[simp] theorem State.setWdg_dramErr (p : Nat) (h : WdgH) : (s.setWdg p h).dramErr = s.dramErr := rfl
@[simp] theorem State.setWdg_banks (p : Nat) (h : WdgH) : (s.setWdg p h).banks = s.banks := rfl
@[simp] theorem State.setWdg_trkIn (p : Nat) (h : WdgH) : (s.setWdg p h).trkIn = s.trkIn := rfl
@[simp] theorem State.setWdg_trk (p : Nat) (h : WdgH) : (s.setWdg p h).trk = s.trk := rfl
@[simp] theorem State.setWdg_bcast (p : Nat) (h : WdgH) : (s.setWdg p h).bcast = s.bcast := rfl
@[simp] theorem State.setWdg_lastBcast (p : Nat) (h : WdgH) : (s.setWdg p h).lastBcast = s.lastBcast := rfl
@[simp] theorem State.setWdg_wall (p : Nat) (h : WdgH) : (s.setWdg p h).wall = s.wall := rfl
@[simp] theorem State.setWdg_wpt (p : Nat) (h : WdgH) : (s.setWdg p h).wpt = s.wpt := rfl
@[simp] theorem State.setWdg_srcQ (p : Nat) (h : WdgH) : (s.setWdg p h).srcQ = s.srcQ := rfl
@[simp] theorem State.setWdg_strs (p : Nat) (h : WdgH) : (s.setWdg p h).strs = s.strs := rfl
@[simp] theorem State.setWdg_ringWait (p : Nat) (h : WdgH) : (s.setWdg p h).ringWait = s.ringWait := rfl
@[simp] theorem State.setWdg_strTurn (p : Nat) (h : WdgH) : (s.setWdg p h).strTurn = s.strTurn := rfl
@[simp] theorem State.setWdg_flow (p : Nat) (h : WdgH) : (s.setWdg p h).flow = s.flow := rfl
@[simp] theorem State.setWdg_ports (p : Nat) (h : WdgH) : (s.setWdg p h).ports = s.ports := rfl
@[simp] theorem State.setWdg_portPower (p : Nat) (h : WdgH) : (s.setWdg p h).portPower = s.portPower := rfl
@[simp] theorem State.setWdg_arsIn (p : Nat) (h : WdgH) : (s.setWdg p h).arsIn = s.arsIn := rfl
@[simp] theorem State.setWdg_arsView (p : Nat) (h : WdgH) : (s.setWdg p h).arsView = s.arsView := rfl
@[simp] theorem State.setWdg_ars (p : Nat) (h : WdgH) : (s.setWdg p h).ars = s.ars := rfl
@[simp] theorem State.setWdg_slots (p : Nat) (h : WdgH) : (s.setWdg p h).slots = s.slots := rfl
@[simp] theorem State.setWdg_frd (p : Nat) (h : WdgH) : (s.setWdg p h).frd = s.frd := rfl
@[simp] theorem State.setWdg_tiles (p : Nat) (h : WdgH) : (s.setWdg p h).tiles = s.tiles := rfl
@[simp] theorem State.setWdg_tfe (p : Nat) (h : WdgH) : (s.setWdg p h).tfe = s.tfe := rfl
@[simp] theorem State.setWdg_souts (p : Nat) (h : WdgH) : (s.setWdg p h).souts = s.souts := rfl
@[simp] theorem State.setWdg_circs (p : Nat) (h : WdgH) : (s.setWdg p h).circs = s.circs := rfl
@[simp] theorem State.setWdg_pmcT (p : Nat) (h : WdgH) : (s.setWdg p h).pmcT = s.pmcT := rfl
@[simp] theorem State.setWdg_bist (p : Nat) (h : WdgH) : (s.setWdg p h).bist = s.bist := rfl
@[simp] theorem State.setWdg_xng (p : Nat) (h : WdgH) : (s.setWdg p h).xng = s.xng := rfl
@[simp] theorem State.setWdg_ropes (p : Nat) (h : WdgH) : (s.setWdg p h).ropes = s.ropes := rfl
@[simp] theorem State.setWdg_teams (p : Nat) (h : WdgH) : (s.setWdg p h).teams = s.teams := rfl
@[simp] theorem State.setWdg_rope (p : Nat) (h : WdgH) : (s.setWdg p h).rope = s.rope := rfl
@[simp] theorem State.setWdg_bcp (p : Nat) (h : WdgH) : (s.setWdg p h).bcp = s.bcp := rfl
@[simp] theorem State.setWdg_spwrLow (p : Nat) (h : WdgH) : (s.setWdg p h).spwrLow = s.spwrLow := rfl
@[simp] theorem State.setWdg_log (p : Nat) (h : WdgH) : (s.setWdg p h).log = s.log := rfl
@[simp] theorem State.setWdg_out (p : Nat) (h : WdgH) : (s.setWdg p h).out = s.out := rfl

@[simp] theorem State.setIn_pending (c i : Nat) (h : InH) : (s.setIn c i h).pending = s.pending := rfl
@[simp] theorem State.setIn_now (c i : Nat) (h : InH) : (s.setIn c i h).now = s.now := rfl
@[simp] theorem State.setIn_hot (c i : Nat) (h : InH) : (s.setIn c i h).hot = s.hot := rfl
@[simp] theorem State.setIn_free (c i : Nat) (h : InH) : (s.setIn c i h).free = s.free := rfl
@[simp] theorem State.setIn_regs (c i : Nat) (h : InH) : (s.setIn c i h).regs = s.regs := rfl
@[simp] theorem State.setIn_pages (c i : Nat) (h : InH) : (s.setIn c i h).pages = s.pages := rfl
@[simp] theorem State.setIn_mem (c i : Nat) (h : InH) : (s.setIn c i h).mem = s.mem := rfl
@[simp] theorem State.setIn_chk (c i : Nat) (h : InH) : (s.setIn c i h).chk = s.chk := rfl
@[simp] theorem State.setIn_pois (c i : Nat) (h : InH) : (s.setIn c i h).pois = s.pois := rfl
@[simp] theorem State.setIn_tags (c i : Nat) (h : InH) : (s.setIn c i h).tags = s.tags := rfl
@[simp] theorem State.setIn_dramErr (c i : Nat) (h : InH) : (s.setIn c i h).dramErr = s.dramErr := rfl
@[simp] theorem State.setIn_banks (c i : Nat) (h : InH) : (s.setIn c i h).banks = s.banks := rfl
@[simp] theorem State.setIn_trkIn (c i : Nat) (h : InH) : (s.setIn c i h).trkIn = s.trkIn := rfl
@[simp] theorem State.setIn_trk (c i : Nat) (h : InH) : (s.setIn c i h).trk = s.trk := rfl
@[simp] theorem State.setIn_bcast (c i : Nat) (h : InH) : (s.setIn c i h).bcast = s.bcast := rfl
@[simp] theorem State.setIn_lastBcast (c i : Nat) (h : InH) : (s.setIn c i h).lastBcast = s.lastBcast := rfl
@[simp] theorem State.setIn_wall (c i : Nat) (h : InH) : (s.setIn c i h).wall = s.wall := rfl
@[simp] theorem State.setIn_wpt (c i : Nat) (h : InH) : (s.setIn c i h).wpt = s.wpt := rfl
@[simp] theorem State.setIn_srcQ (c i : Nat) (h : InH) : (s.setIn c i h).srcQ = s.srcQ := rfl
@[simp] theorem State.setIn_strs (c i : Nat) (h : InH) : (s.setIn c i h).strs = s.strs := rfl
@[simp] theorem State.setIn_ringWait (c i : Nat) (h : InH) : (s.setIn c i h).ringWait = s.ringWait := rfl
@[simp] theorem State.setIn_strTurn (c i : Nat) (h : InH) : (s.setIn c i h).strTurn = s.strTurn := rfl
@[simp] theorem State.setIn_flow (c i : Nat) (h : InH) : (s.setIn c i h).flow = s.flow := rfl
@[simp] theorem State.setIn_ports (c i : Nat) (h : InH) : (s.setIn c i h).ports = s.ports := rfl
@[simp] theorem State.setIn_portPower (c i : Nat) (h : InH) : (s.setIn c i h).portPower = s.portPower := rfl
@[simp] theorem State.setIn_arsView (c i : Nat) (h : InH) : (s.setIn c i h).arsView = s.arsView := rfl
@[simp] theorem State.setIn_ars (c i : Nat) (h : InH) : (s.setIn c i h).ars = s.ars := rfl
@[simp] theorem State.setIn_slots (c i : Nat) (h : InH) : (s.setIn c i h).slots = s.slots := rfl
@[simp] theorem State.setIn_frd (c i : Nat) (h : InH) : (s.setIn c i h).frd = s.frd := rfl
@[simp] theorem State.setIn_tiles (c i : Nat) (h : InH) : (s.setIn c i h).tiles = s.tiles := rfl
@[simp] theorem State.setIn_tfe (c i : Nat) (h : InH) : (s.setIn c i h).tfe = s.tfe := rfl
@[simp] theorem State.setIn_souts (c i : Nat) (h : InH) : (s.setIn c i h).souts = s.souts := rfl
@[simp] theorem State.setIn_circs (c i : Nat) (h : InH) : (s.setIn c i h).circs = s.circs := rfl
@[simp] theorem State.setIn_wdg (c i : Nat) (h : InH) : (s.setIn c i h).wdg = s.wdg := rfl
@[simp] theorem State.setIn_pmcT (c i : Nat) (h : InH) : (s.setIn c i h).pmcT = s.pmcT := rfl
@[simp] theorem State.setIn_bist (c i : Nat) (h : InH) : (s.setIn c i h).bist = s.bist := rfl
@[simp] theorem State.setIn_xng (c i : Nat) (h : InH) : (s.setIn c i h).xng = s.xng := rfl
@[simp] theorem State.setIn_ropes (c i : Nat) (h : InH) : (s.setIn c i h).ropes = s.ropes := rfl
@[simp] theorem State.setIn_teams (c i : Nat) (h : InH) : (s.setIn c i h).teams = s.teams := rfl
@[simp] theorem State.setIn_rope (c i : Nat) (h : InH) : (s.setIn c i h).rope = s.rope := rfl
@[simp] theorem State.setIn_bcp (c i : Nat) (h : InH) : (s.setIn c i h).bcp = s.bcp := rfl
@[simp] theorem State.setIn_spwrLow (c i : Nat) (h : InH) : (s.setIn c i h).spwrLow = s.spwrLow := rfl
@[simp] theorem State.setIn_log (c i : Nat) (h : InH) : (s.setIn c i h).log = s.log := rfl
@[simp] theorem State.setIn_out (c i : Nat) (h : InH) : (s.setIn c i h).out = s.out := rfl

@[simp] theorem State.setView_pending (c v : Nat) (h : ViewH) : (s.setView c v h).pending = s.pending := rfl
@[simp] theorem State.setView_now (c v : Nat) (h : ViewH) : (s.setView c v h).now = s.now := rfl
@[simp] theorem State.setView_hot (c v : Nat) (h : ViewH) : (s.setView c v h).hot = s.hot := rfl
@[simp] theorem State.setView_free (c v : Nat) (h : ViewH) : (s.setView c v h).free = s.free := rfl
@[simp] theorem State.setView_regs (c v : Nat) (h : ViewH) : (s.setView c v h).regs = s.regs := rfl
@[simp] theorem State.setView_pages (c v : Nat) (h : ViewH) : (s.setView c v h).pages = s.pages := rfl
@[simp] theorem State.setView_mem (c v : Nat) (h : ViewH) : (s.setView c v h).mem = s.mem := rfl
@[simp] theorem State.setView_chk (c v : Nat) (h : ViewH) : (s.setView c v h).chk = s.chk := rfl
@[simp] theorem State.setView_pois (c v : Nat) (h : ViewH) : (s.setView c v h).pois = s.pois := rfl
@[simp] theorem State.setView_tags (c v : Nat) (h : ViewH) : (s.setView c v h).tags = s.tags := rfl
@[simp] theorem State.setView_dramErr (c v : Nat) (h : ViewH) : (s.setView c v h).dramErr = s.dramErr := rfl
@[simp] theorem State.setView_banks (c v : Nat) (h : ViewH) : (s.setView c v h).banks = s.banks := rfl
@[simp] theorem State.setView_trkIn (c v : Nat) (h : ViewH) : (s.setView c v h).trkIn = s.trkIn := rfl
@[simp] theorem State.setView_trk (c v : Nat) (h : ViewH) : (s.setView c v h).trk = s.trk := rfl
@[simp] theorem State.setView_bcast (c v : Nat) (h : ViewH) : (s.setView c v h).bcast = s.bcast := rfl
@[simp] theorem State.setView_lastBcast (c v : Nat) (h : ViewH) : (s.setView c v h).lastBcast = s.lastBcast := rfl
@[simp] theorem State.setView_wall (c v : Nat) (h : ViewH) : (s.setView c v h).wall = s.wall := rfl
@[simp] theorem State.setView_wpt (c v : Nat) (h : ViewH) : (s.setView c v h).wpt = s.wpt := rfl
@[simp] theorem State.setView_srcQ (c v : Nat) (h : ViewH) : (s.setView c v h).srcQ = s.srcQ := rfl
@[simp] theorem State.setView_strs (c v : Nat) (h : ViewH) : (s.setView c v h).strs = s.strs := rfl
@[simp] theorem State.setView_ringWait (c v : Nat) (h : ViewH) : (s.setView c v h).ringWait = s.ringWait := rfl
@[simp] theorem State.setView_strTurn (c v : Nat) (h : ViewH) : (s.setView c v h).strTurn = s.strTurn := rfl
@[simp] theorem State.setView_flow (c v : Nat) (h : ViewH) : (s.setView c v h).flow = s.flow := rfl
@[simp] theorem State.setView_ports (c v : Nat) (h : ViewH) : (s.setView c v h).ports = s.ports := rfl
@[simp] theorem State.setView_portPower (c v : Nat) (h : ViewH) : (s.setView c v h).portPower = s.portPower := rfl
@[simp] theorem State.setView_arsIn (c v : Nat) (h : ViewH) : (s.setView c v h).arsIn = s.arsIn := rfl
@[simp] theorem State.setView_ars (c v : Nat) (h : ViewH) : (s.setView c v h).ars = s.ars := rfl
@[simp] theorem State.setView_slots (c v : Nat) (h : ViewH) : (s.setView c v h).slots = s.slots := rfl
@[simp] theorem State.setView_frd (c v : Nat) (h : ViewH) : (s.setView c v h).frd = s.frd := rfl
@[simp] theorem State.setView_tiles (c v : Nat) (h : ViewH) : (s.setView c v h).tiles = s.tiles := rfl
@[simp] theorem State.setView_tfe (c v : Nat) (h : ViewH) : (s.setView c v h).tfe = s.tfe := rfl
@[simp] theorem State.setView_souts (c v : Nat) (h : ViewH) : (s.setView c v h).souts = s.souts := rfl
@[simp] theorem State.setView_circs (c v : Nat) (h : ViewH) : (s.setView c v h).circs = s.circs := rfl
@[simp] theorem State.setView_wdg (c v : Nat) (h : ViewH) : (s.setView c v h).wdg = s.wdg := rfl
@[simp] theorem State.setView_pmcT (c v : Nat) (h : ViewH) : (s.setView c v h).pmcT = s.pmcT := rfl
@[simp] theorem State.setView_bist (c v : Nat) (h : ViewH) : (s.setView c v h).bist = s.bist := rfl
@[simp] theorem State.setView_xng (c v : Nat) (h : ViewH) : (s.setView c v h).xng = s.xng := rfl
@[simp] theorem State.setView_ropes (c v : Nat) (h : ViewH) : (s.setView c v h).ropes = s.ropes := rfl
@[simp] theorem State.setView_teams (c v : Nat) (h : ViewH) : (s.setView c v h).teams = s.teams := rfl
@[simp] theorem State.setView_rope (c v : Nat) (h : ViewH) : (s.setView c v h).rope = s.rope := rfl
@[simp] theorem State.setView_bcp (c v : Nat) (h : ViewH) : (s.setView c v h).bcp = s.bcp := rfl
@[simp] theorem State.setView_spwrLow (c v : Nat) (h : ViewH) : (s.setView c v h).spwrLow = s.spwrLow := rfl
@[simp] theorem State.setView_log (c v : Nat) (h : ViewH) : (s.setView c v h).log = s.log := rfl
@[simp] theorem State.setView_out (c v : Nat) (h : ViewH) : (s.setView c v h).out = s.out := rfl

@[simp] theorem State.setArs_pending (c : Nat) (h : ArsH) : (s.setArs c h).pending = s.pending := rfl
@[simp] theorem State.setArs_now (c : Nat) (h : ArsH) : (s.setArs c h).now = s.now := rfl
@[simp] theorem State.setArs_hot (c : Nat) (h : ArsH) : (s.setArs c h).hot = s.hot := rfl
@[simp] theorem State.setArs_free (c : Nat) (h : ArsH) : (s.setArs c h).free = s.free := rfl
@[simp] theorem State.setArs_regs (c : Nat) (h : ArsH) : (s.setArs c h).regs = s.regs := rfl
@[simp] theorem State.setArs_pages (c : Nat) (h : ArsH) : (s.setArs c h).pages = s.pages := rfl
@[simp] theorem State.setArs_mem (c : Nat) (h : ArsH) : (s.setArs c h).mem = s.mem := rfl
@[simp] theorem State.setArs_chk (c : Nat) (h : ArsH) : (s.setArs c h).chk = s.chk := rfl
@[simp] theorem State.setArs_pois (c : Nat) (h : ArsH) : (s.setArs c h).pois = s.pois := rfl
@[simp] theorem State.setArs_tags (c : Nat) (h : ArsH) : (s.setArs c h).tags = s.tags := rfl
@[simp] theorem State.setArs_dramErr (c : Nat) (h : ArsH) : (s.setArs c h).dramErr = s.dramErr := rfl
@[simp] theorem State.setArs_banks (c : Nat) (h : ArsH) : (s.setArs c h).banks = s.banks := rfl
@[simp] theorem State.setArs_trkIn (c : Nat) (h : ArsH) : (s.setArs c h).trkIn = s.trkIn := rfl
@[simp] theorem State.setArs_trk (c : Nat) (h : ArsH) : (s.setArs c h).trk = s.trk := rfl
@[simp] theorem State.setArs_bcast (c : Nat) (h : ArsH) : (s.setArs c h).bcast = s.bcast := rfl
@[simp] theorem State.setArs_lastBcast (c : Nat) (h : ArsH) : (s.setArs c h).lastBcast = s.lastBcast := rfl
@[simp] theorem State.setArs_wall (c : Nat) (h : ArsH) : (s.setArs c h).wall = s.wall := rfl
@[simp] theorem State.setArs_wpt (c : Nat) (h : ArsH) : (s.setArs c h).wpt = s.wpt := rfl
@[simp] theorem State.setArs_srcQ (c : Nat) (h : ArsH) : (s.setArs c h).srcQ = s.srcQ := rfl
@[simp] theorem State.setArs_strs (c : Nat) (h : ArsH) : (s.setArs c h).strs = s.strs := rfl
@[simp] theorem State.setArs_ringWait (c : Nat) (h : ArsH) : (s.setArs c h).ringWait = s.ringWait := rfl
@[simp] theorem State.setArs_strTurn (c : Nat) (h : ArsH) : (s.setArs c h).strTurn = s.strTurn := rfl
@[simp] theorem State.setArs_flow (c : Nat) (h : ArsH) : (s.setArs c h).flow = s.flow := rfl
@[simp] theorem State.setArs_ports (c : Nat) (h : ArsH) : (s.setArs c h).ports = s.ports := rfl
@[simp] theorem State.setArs_portPower (c : Nat) (h : ArsH) : (s.setArs c h).portPower = s.portPower := rfl
@[simp] theorem State.setArs_arsIn (c : Nat) (h : ArsH) : (s.setArs c h).arsIn = s.arsIn := rfl
@[simp] theorem State.setArs_arsView (c : Nat) (h : ArsH) : (s.setArs c h).arsView = s.arsView := rfl
@[simp] theorem State.setArs_slots (c : Nat) (h : ArsH) : (s.setArs c h).slots = s.slots := rfl
@[simp] theorem State.setArs_frd (c : Nat) (h : ArsH) : (s.setArs c h).frd = s.frd := rfl
@[simp] theorem State.setArs_tiles (c : Nat) (h : ArsH) : (s.setArs c h).tiles = s.tiles := rfl
@[simp] theorem State.setArs_tfe (c : Nat) (h : ArsH) : (s.setArs c h).tfe = s.tfe := rfl
@[simp] theorem State.setArs_souts (c : Nat) (h : ArsH) : (s.setArs c h).souts = s.souts := rfl
@[simp] theorem State.setArs_circs (c : Nat) (h : ArsH) : (s.setArs c h).circs = s.circs := rfl
@[simp] theorem State.setArs_wdg (c : Nat) (h : ArsH) : (s.setArs c h).wdg = s.wdg := rfl
@[simp] theorem State.setArs_pmcT (c : Nat) (h : ArsH) : (s.setArs c h).pmcT = s.pmcT := rfl
@[simp] theorem State.setArs_bist (c : Nat) (h : ArsH) : (s.setArs c h).bist = s.bist := rfl
@[simp] theorem State.setArs_xng (c : Nat) (h : ArsH) : (s.setArs c h).xng = s.xng := rfl
@[simp] theorem State.setArs_ropes (c : Nat) (h : ArsH) : (s.setArs c h).ropes = s.ropes := rfl
@[simp] theorem State.setArs_teams (c : Nat) (h : ArsH) : (s.setArs c h).teams = s.teams := rfl
@[simp] theorem State.setArs_rope (c : Nat) (h : ArsH) : (s.setArs c h).rope = s.rope := rfl
@[simp] theorem State.setArs_bcp (c : Nat) (h : ArsH) : (s.setArs c h).bcp = s.bcp := rfl
@[simp] theorem State.setArs_spwrLow (c : Nat) (h : ArsH) : (s.setArs c h).spwrLow = s.spwrLow := rfl
@[simp] theorem State.setArs_log (c : Nat) (h : ArsH) : (s.setArs c h).log = s.log := rfl
@[simp] theorem State.setArs_out (c : Nat) (h : ArsH) : (s.setArs c h).out = s.out := rfl

@[simp] theorem State.setTile_pending (t : Nat) (h : TileH) : (s.setTile t h).pending = s.pending := rfl
@[simp] theorem State.setTile_now (t : Nat) (h : TileH) : (s.setTile t h).now = s.now := rfl
@[simp] theorem State.setTile_hot (t : Nat) (h : TileH) : (s.setTile t h).hot = s.hot := rfl
@[simp] theorem State.setTile_free (t : Nat) (h : TileH) : (s.setTile t h).free = s.free := rfl
@[simp] theorem State.setTile_regs (t : Nat) (h : TileH) : (s.setTile t h).regs = s.regs := rfl
@[simp] theorem State.setTile_pages (t : Nat) (h : TileH) : (s.setTile t h).pages = s.pages := rfl
@[simp] theorem State.setTile_mem (t : Nat) (h : TileH) : (s.setTile t h).mem = s.mem := rfl
@[simp] theorem State.setTile_chk (t : Nat) (h : TileH) : (s.setTile t h).chk = s.chk := rfl
@[simp] theorem State.setTile_pois (t : Nat) (h : TileH) : (s.setTile t h).pois = s.pois := rfl
@[simp] theorem State.setTile_tags (t : Nat) (h : TileH) : (s.setTile t h).tags = s.tags := rfl
@[simp] theorem State.setTile_dramErr (t : Nat) (h : TileH) : (s.setTile t h).dramErr = s.dramErr := rfl
@[simp] theorem State.setTile_banks (t : Nat) (h : TileH) : (s.setTile t h).banks = s.banks := rfl
@[simp] theorem State.setTile_trkIn (t : Nat) (h : TileH) : (s.setTile t h).trkIn = s.trkIn := rfl
@[simp] theorem State.setTile_trk (t : Nat) (h : TileH) : (s.setTile t h).trk = s.trk := rfl
@[simp] theorem State.setTile_bcast (t : Nat) (h : TileH) : (s.setTile t h).bcast = s.bcast := rfl
@[simp] theorem State.setTile_lastBcast (t : Nat) (h : TileH) : (s.setTile t h).lastBcast = s.lastBcast := rfl
@[simp] theorem State.setTile_wall (t : Nat) (h : TileH) : (s.setTile t h).wall = s.wall := rfl
@[simp] theorem State.setTile_wpt (t : Nat) (h : TileH) : (s.setTile t h).wpt = s.wpt := rfl
@[simp] theorem State.setTile_srcQ (t : Nat) (h : TileH) : (s.setTile t h).srcQ = s.srcQ := rfl
@[simp] theorem State.setTile_strs (t : Nat) (h : TileH) : (s.setTile t h).strs = s.strs := rfl
@[simp] theorem State.setTile_ringWait (t : Nat) (h : TileH) : (s.setTile t h).ringWait = s.ringWait := rfl
@[simp] theorem State.setTile_strTurn (t : Nat) (h : TileH) : (s.setTile t h).strTurn = s.strTurn := rfl
@[simp] theorem State.setTile_flow (t : Nat) (h : TileH) : (s.setTile t h).flow = s.flow := rfl
@[simp] theorem State.setTile_ports (t : Nat) (h : TileH) : (s.setTile t h).ports = s.ports := rfl
@[simp] theorem State.setTile_portPower (t : Nat) (h : TileH) : (s.setTile t h).portPower = s.portPower := rfl
@[simp] theorem State.setTile_arsIn (t : Nat) (h : TileH) : (s.setTile t h).arsIn = s.arsIn := rfl
@[simp] theorem State.setTile_arsView (t : Nat) (h : TileH) : (s.setTile t h).arsView = s.arsView := rfl
@[simp] theorem State.setTile_ars (t : Nat) (h : TileH) : (s.setTile t h).ars = s.ars := rfl
@[simp] theorem State.setTile_slots (t : Nat) (h : TileH) : (s.setTile t h).slots = s.slots := rfl
@[simp] theorem State.setTile_frd (t : Nat) (h : TileH) : (s.setTile t h).frd = s.frd := rfl
@[simp] theorem State.setTile_tfe (t : Nat) (h : TileH) : (s.setTile t h).tfe = s.tfe := rfl
@[simp] theorem State.setTile_souts (t : Nat) (h : TileH) : (s.setTile t h).souts = s.souts := rfl
@[simp] theorem State.setTile_circs (t : Nat) (h : TileH) : (s.setTile t h).circs = s.circs := rfl
@[simp] theorem State.setTile_wdg (t : Nat) (h : TileH) : (s.setTile t h).wdg = s.wdg := rfl
@[simp] theorem State.setTile_pmcT (t : Nat) (h : TileH) : (s.setTile t h).pmcT = s.pmcT := rfl
@[simp] theorem State.setTile_bist (t : Nat) (h : TileH) : (s.setTile t h).bist = s.bist := rfl
@[simp] theorem State.setTile_xng (t : Nat) (h : TileH) : (s.setTile t h).xng = s.xng := rfl
@[simp] theorem State.setTile_ropes (t : Nat) (h : TileH) : (s.setTile t h).ropes = s.ropes := rfl
@[simp] theorem State.setTile_teams (t : Nat) (h : TileH) : (s.setTile t h).teams = s.teams := rfl
@[simp] theorem State.setTile_rope (t : Nat) (h : TileH) : (s.setTile t h).rope = s.rope := rfl
@[simp] theorem State.setTile_bcp (t : Nat) (h : TileH) : (s.setTile t h).bcp = s.bcp := rfl
@[simp] theorem State.setTile_spwrLow (t : Nat) (h : TileH) : (s.setTile t h).spwrLow = s.spwrLow := rfl
@[simp] theorem State.setTile_log (t : Nat) (h : TileH) : (s.setTile t h).log = s.log := rfl
@[simp] theorem State.setTile_out (t : Nat) (h : TileH) : (s.setTile t h).out = s.out := rfl

@[simp] theorem State.setXng_pending (i n : Nat) (h : XngH) : (s.setXng i n h).pending = s.pending := rfl
@[simp] theorem State.setXng_now (i n : Nat) (h : XngH) : (s.setXng i n h).now = s.now := rfl
@[simp] theorem State.setXng_hot (i n : Nat) (h : XngH) : (s.setXng i n h).hot = s.hot := rfl
@[simp] theorem State.setXng_free (i n : Nat) (h : XngH) : (s.setXng i n h).free = s.free := rfl
@[simp] theorem State.setXng_regs (i n : Nat) (h : XngH) : (s.setXng i n h).regs = s.regs := rfl
@[simp] theorem State.setXng_pages (i n : Nat) (h : XngH) : (s.setXng i n h).pages = s.pages := rfl
@[simp] theorem State.setXng_mem (i n : Nat) (h : XngH) : (s.setXng i n h).mem = s.mem := rfl
@[simp] theorem State.setXng_chk (i n : Nat) (h : XngH) : (s.setXng i n h).chk = s.chk := rfl
@[simp] theorem State.setXng_pois (i n : Nat) (h : XngH) : (s.setXng i n h).pois = s.pois := rfl
@[simp] theorem State.setXng_tags (i n : Nat) (h : XngH) : (s.setXng i n h).tags = s.tags := rfl
@[simp] theorem State.setXng_dramErr (i n : Nat) (h : XngH) : (s.setXng i n h).dramErr = s.dramErr := rfl
@[simp] theorem State.setXng_banks (i n : Nat) (h : XngH) : (s.setXng i n h).banks = s.banks := rfl
@[simp] theorem State.setXng_trkIn (i n : Nat) (h : XngH) : (s.setXng i n h).trkIn = s.trkIn := rfl
@[simp] theorem State.setXng_trk (i n : Nat) (h : XngH) : (s.setXng i n h).trk = s.trk := rfl
@[simp] theorem State.setXng_bcast (i n : Nat) (h : XngH) : (s.setXng i n h).bcast = s.bcast := rfl
@[simp] theorem State.setXng_lastBcast (i n : Nat) (h : XngH) : (s.setXng i n h).lastBcast = s.lastBcast := rfl
@[simp] theorem State.setXng_wall (i n : Nat) (h : XngH) : (s.setXng i n h).wall = s.wall := rfl
@[simp] theorem State.setXng_wpt (i n : Nat) (h : XngH) : (s.setXng i n h).wpt = s.wpt := rfl
@[simp] theorem State.setXng_srcQ (i n : Nat) (h : XngH) : (s.setXng i n h).srcQ = s.srcQ := rfl
@[simp] theorem State.setXng_strs (i n : Nat) (h : XngH) : (s.setXng i n h).strs = s.strs := rfl
@[simp] theorem State.setXng_ringWait (i n : Nat) (h : XngH) : (s.setXng i n h).ringWait = s.ringWait := rfl
@[simp] theorem State.setXng_strTurn (i n : Nat) (h : XngH) : (s.setXng i n h).strTurn = s.strTurn := rfl
@[simp] theorem State.setXng_flow (i n : Nat) (h : XngH) : (s.setXng i n h).flow = s.flow := rfl
@[simp] theorem State.setXng_ports (i n : Nat) (h : XngH) : (s.setXng i n h).ports = s.ports := rfl
@[simp] theorem State.setXng_portPower (i n : Nat) (h : XngH) : (s.setXng i n h).portPower = s.portPower := rfl
@[simp] theorem State.setXng_arsIn (i n : Nat) (h : XngH) : (s.setXng i n h).arsIn = s.arsIn := rfl
@[simp] theorem State.setXng_arsView (i n : Nat) (h : XngH) : (s.setXng i n h).arsView = s.arsView := rfl
@[simp] theorem State.setXng_ars (i n : Nat) (h : XngH) : (s.setXng i n h).ars = s.ars := rfl
@[simp] theorem State.setXng_slots (i n : Nat) (h : XngH) : (s.setXng i n h).slots = s.slots := rfl
@[simp] theorem State.setXng_frd (i n : Nat) (h : XngH) : (s.setXng i n h).frd = s.frd := rfl
@[simp] theorem State.setXng_tiles (i n : Nat) (h : XngH) : (s.setXng i n h).tiles = s.tiles := rfl
@[simp] theorem State.setXng_tfe (i n : Nat) (h : XngH) : (s.setXng i n h).tfe = s.tfe := rfl
@[simp] theorem State.setXng_souts (i n : Nat) (h : XngH) : (s.setXng i n h).souts = s.souts := rfl
@[simp] theorem State.setXng_circs (i n : Nat) (h : XngH) : (s.setXng i n h).circs = s.circs := rfl
@[simp] theorem State.setXng_wdg (i n : Nat) (h : XngH) : (s.setXng i n h).wdg = s.wdg := rfl
@[simp] theorem State.setXng_pmcT (i n : Nat) (h : XngH) : (s.setXng i n h).pmcT = s.pmcT := rfl
@[simp] theorem State.setXng_bist (i n : Nat) (h : XngH) : (s.setXng i n h).bist = s.bist := rfl
@[simp] theorem State.setXng_ropes (i n : Nat) (h : XngH) : (s.setXng i n h).ropes = s.ropes := rfl
@[simp] theorem State.setXng_teams (i n : Nat) (h : XngH) : (s.setXng i n h).teams = s.teams := rfl
@[simp] theorem State.setXng_rope (i n : Nat) (h : XngH) : (s.setXng i n h).rope = s.rope := rfl
@[simp] theorem State.setXng_bcp (i n : Nat) (h : XngH) : (s.setXng i n h).bcp = s.bcp := rfl
@[simp] theorem State.setXng_spwrLow (i n : Nat) (h : XngH) : (s.setXng i n h).spwrLow = s.spwrLow := rfl
@[simp] theorem State.setXng_log (i n : Nat) (h : XngH) : (s.setXng i n h).log = s.log := rfl
@[simp] theorem State.setXng_out (i n : Nat) (h : XngH) : (s.setXng i n h).out = s.out := rfl

@[simp] theorem State.setPstate_pending (v : Nat) : (s.setPstate v).pending = s.pending := rfl
@[simp] theorem State.setPstate_now (v : Nat) : (s.setPstate v).now = s.now := rfl
@[simp] theorem State.setPstate_free (v : Nat) : (s.setPstate v).free = s.free := rfl
@[simp] theorem State.setPstate_pages (v : Nat) : (s.setPstate v).pages = s.pages := rfl
@[simp] theorem State.setPstate_mem (v : Nat) : (s.setPstate v).mem = s.mem := rfl
@[simp] theorem State.setPstate_chk (v : Nat) : (s.setPstate v).chk = s.chk := rfl
@[simp] theorem State.setPstate_pois (v : Nat) : (s.setPstate v).pois = s.pois := rfl
@[simp] theorem State.setPstate_tags (v : Nat) : (s.setPstate v).tags = s.tags := rfl
@[simp] theorem State.setPstate_dramErr (v : Nat) : (s.setPstate v).dramErr = s.dramErr := rfl
@[simp] theorem State.setPstate_banks (v : Nat) : (s.setPstate v).banks = s.banks := rfl
@[simp] theorem State.setPstate_trkIn (v : Nat) : (s.setPstate v).trkIn = s.trkIn := rfl
@[simp] theorem State.setPstate_trk (v : Nat) : (s.setPstate v).trk = s.trk := rfl
@[simp] theorem State.setPstate_bcast (v : Nat) : (s.setPstate v).bcast = s.bcast := rfl
@[simp] theorem State.setPstate_lastBcast (v : Nat) : (s.setPstate v).lastBcast = s.lastBcast := rfl
@[simp] theorem State.setPstate_wall (v : Nat) : (s.setPstate v).wall = s.wall := rfl
@[simp] theorem State.setPstate_wpt (v : Nat) : (s.setPstate v).wpt = s.wpt := rfl
@[simp] theorem State.setPstate_srcQ (v : Nat) : (s.setPstate v).srcQ = s.srcQ := rfl
@[simp] theorem State.setPstate_strs (v : Nat) : (s.setPstate v).strs = s.strs := rfl
@[simp] theorem State.setPstate_ringWait (v : Nat) : (s.setPstate v).ringWait = s.ringWait := rfl
@[simp] theorem State.setPstate_strTurn (v : Nat) : (s.setPstate v).strTurn = s.strTurn := rfl
@[simp] theorem State.setPstate_flow (v : Nat) : (s.setPstate v).flow = s.flow := rfl
@[simp] theorem State.setPstate_ports (v : Nat) : (s.setPstate v).ports = s.ports := rfl
@[simp] theorem State.setPstate_portPower (v : Nat) : (s.setPstate v).portPower = s.portPower := rfl
@[simp] theorem State.setPstate_arsIn (v : Nat) : (s.setPstate v).arsIn = s.arsIn := rfl
@[simp] theorem State.setPstate_arsView (v : Nat) : (s.setPstate v).arsView = s.arsView := rfl
@[simp] theorem State.setPstate_ars (v : Nat) : (s.setPstate v).ars = s.ars := rfl
@[simp] theorem State.setPstate_slots (v : Nat) : (s.setPstate v).slots = s.slots := rfl
@[simp] theorem State.setPstate_frd (v : Nat) : (s.setPstate v).frd = s.frd := rfl
@[simp] theorem State.setPstate_tiles (v : Nat) : (s.setPstate v).tiles = s.tiles := rfl
@[simp] theorem State.setPstate_tfe (v : Nat) : (s.setPstate v).tfe = s.tfe := rfl
@[simp] theorem State.setPstate_souts (v : Nat) : (s.setPstate v).souts = s.souts := rfl
@[simp] theorem State.setPstate_circs (v : Nat) : (s.setPstate v).circs = s.circs := rfl
@[simp] theorem State.setPstate_wdg (v : Nat) : (s.setPstate v).wdg = s.wdg := rfl
@[simp] theorem State.setPstate_pmcT (v : Nat) : (s.setPstate v).pmcT = s.pmcT := rfl
@[simp] theorem State.setPstate_bist (v : Nat) : (s.setPstate v).bist = s.bist := rfl
@[simp] theorem State.setPstate_xng (v : Nat) : (s.setPstate v).xng = s.xng := rfl
@[simp] theorem State.setPstate_ropes (v : Nat) : (s.setPstate v).ropes = s.ropes := rfl
@[simp] theorem State.setPstate_teams (v : Nat) : (s.setPstate v).teams = s.teams := rfl
@[simp] theorem State.setPstate_rope (v : Nat) : (s.setPstate v).rope = s.rope := rfl
@[simp] theorem State.setPstate_spwrLow (v : Nat) : (s.setPstate v).spwrLow = s.spwrLow := rfl
@[simp] theorem State.setPstate_log (v : Nat) : (s.setPstate v).log = s.log := rfl
@[simp] theorem State.setPstate_out (v : Nat) : (s.setPstate v).out = s.out := rfl

@[simp] theorem State.setSout_pending (o : Nat) (h : SoutH) : (s.setSout o h).pending = s.pending := rfl
@[simp] theorem State.setSout_now (o : Nat) (h : SoutH) : (s.setSout o h).now = s.now := rfl
@[simp] theorem State.setSout_hot (o : Nat) (h : SoutH) : (s.setSout o h).hot = s.hot := rfl
@[simp] theorem State.setSout_free (o : Nat) (h : SoutH) : (s.setSout o h).free = s.free := rfl
@[simp] theorem State.setSout_regs (o : Nat) (h : SoutH) : (s.setSout o h).regs = s.regs := rfl
@[simp] theorem State.setSout_pages (o : Nat) (h : SoutH) : (s.setSout o h).pages = s.pages := rfl
@[simp] theorem State.setSout_mem (o : Nat) (h : SoutH) : (s.setSout o h).mem = s.mem := rfl
@[simp] theorem State.setSout_chk (o : Nat) (h : SoutH) : (s.setSout o h).chk = s.chk := rfl
@[simp] theorem State.setSout_pois (o : Nat) (h : SoutH) : (s.setSout o h).pois = s.pois := rfl
@[simp] theorem State.setSout_tags (o : Nat) (h : SoutH) : (s.setSout o h).tags = s.tags := rfl
@[simp] theorem State.setSout_dramErr (o : Nat) (h : SoutH) : (s.setSout o h).dramErr = s.dramErr := rfl
@[simp] theorem State.setSout_banks (o : Nat) (h : SoutH) : (s.setSout o h).banks = s.banks := rfl
@[simp] theorem State.setSout_trkIn (o : Nat) (h : SoutH) : (s.setSout o h).trkIn = s.trkIn := rfl
@[simp] theorem State.setSout_trk (o : Nat) (h : SoutH) : (s.setSout o h).trk = s.trk := rfl
@[simp] theorem State.setSout_bcast (o : Nat) (h : SoutH) : (s.setSout o h).bcast = s.bcast := rfl
@[simp] theorem State.setSout_lastBcast (o : Nat) (h : SoutH) : (s.setSout o h).lastBcast = s.lastBcast := rfl
@[simp] theorem State.setSout_wall (o : Nat) (h : SoutH) : (s.setSout o h).wall = s.wall := rfl
@[simp] theorem State.setSout_wpt (o : Nat) (h : SoutH) : (s.setSout o h).wpt = s.wpt := rfl
@[simp] theorem State.setSout_srcQ (o : Nat) (h : SoutH) : (s.setSout o h).srcQ = s.srcQ := rfl
@[simp] theorem State.setSout_strs (o : Nat) (h : SoutH) : (s.setSout o h).strs = s.strs := rfl
@[simp] theorem State.setSout_ringWait (o : Nat) (h : SoutH) : (s.setSout o h).ringWait = s.ringWait := rfl
@[simp] theorem State.setSout_strTurn (o : Nat) (h : SoutH) : (s.setSout o h).strTurn = s.strTurn := rfl
@[simp] theorem State.setSout_flow (o : Nat) (h : SoutH) : (s.setSout o h).flow = s.flow := rfl
@[simp] theorem State.setSout_ports (o : Nat) (h : SoutH) : (s.setSout o h).ports = s.ports := rfl
@[simp] theorem State.setSout_portPower (o : Nat) (h : SoutH) : (s.setSout o h).portPower = s.portPower := rfl
@[simp] theorem State.setSout_arsIn (o : Nat) (h : SoutH) : (s.setSout o h).arsIn = s.arsIn := rfl
@[simp] theorem State.setSout_arsView (o : Nat) (h : SoutH) : (s.setSout o h).arsView = s.arsView := rfl
@[simp] theorem State.setSout_ars (o : Nat) (h : SoutH) : (s.setSout o h).ars = s.ars := rfl
@[simp] theorem State.setSout_slots (o : Nat) (h : SoutH) : (s.setSout o h).slots = s.slots := rfl
@[simp] theorem State.setSout_frd (o : Nat) (h : SoutH) : (s.setSout o h).frd = s.frd := rfl
@[simp] theorem State.setSout_tiles (o : Nat) (h : SoutH) : (s.setSout o h).tiles = s.tiles := rfl
@[simp] theorem State.setSout_tfe (o : Nat) (h : SoutH) : (s.setSout o h).tfe = s.tfe := rfl
@[simp] theorem State.setSout_circs (o : Nat) (h : SoutH) : (s.setSout o h).circs = s.circs := rfl
@[simp] theorem State.setSout_wdg (o : Nat) (h : SoutH) : (s.setSout o h).wdg = s.wdg := rfl
@[simp] theorem State.setSout_pmcT (o : Nat) (h : SoutH) : (s.setSout o h).pmcT = s.pmcT := rfl
@[simp] theorem State.setSout_bist (o : Nat) (h : SoutH) : (s.setSout o h).bist = s.bist := rfl
@[simp] theorem State.setSout_xng (o : Nat) (h : SoutH) : (s.setSout o h).xng = s.xng := rfl
@[simp] theorem State.setSout_ropes (o : Nat) (h : SoutH) : (s.setSout o h).ropes = s.ropes := rfl
@[simp] theorem State.setSout_teams (o : Nat) (h : SoutH) : (s.setSout o h).teams = s.teams := rfl
@[simp] theorem State.setSout_rope (o : Nat) (h : SoutH) : (s.setSout o h).rope = s.rope := rfl
@[simp] theorem State.setSout_bcp (o : Nat) (h : SoutH) : (s.setSout o h).bcp = s.bcp := rfl
@[simp] theorem State.setSout_spwrLow (o : Nat) (h : SoutH) : (s.setSout o h).spwrLow = s.spwrLow := rfl
@[simp] theorem State.setSout_log (o : Nat) (h : SoutH) : (s.setSout o h).log = s.log := rfl
@[simp] theorem State.setSout_out (o : Nat) (h : SoutH) : (s.setSout o h).out = s.out := rfl

@[simp] theorem State.setSlotAcc_pending (i : Nat) (a : SlotAcc) : (s.setSlotAcc i a).pending = s.pending := rfl
@[simp] theorem State.setSlotAcc_now (i : Nat) (a : SlotAcc) : (s.setSlotAcc i a).now = s.now := rfl
@[simp] theorem State.setSlotAcc_hot (i : Nat) (a : SlotAcc) : (s.setSlotAcc i a).hot = s.hot := rfl
@[simp] theorem State.setSlotAcc_free (i : Nat) (a : SlotAcc) : (s.setSlotAcc i a).free = s.free := rfl
@[simp] theorem State.setSlotAcc_regs (i : Nat) (a : SlotAcc) : (s.setSlotAcc i a).regs = s.regs := rfl
@[simp] theorem State.setSlotAcc_pages (i : Nat) (a : SlotAcc) : (s.setSlotAcc i a).pages = s.pages := rfl
@[simp] theorem State.setSlotAcc_mem (i : Nat) (a : SlotAcc) : (s.setSlotAcc i a).mem = s.mem := rfl
@[simp] theorem State.setSlotAcc_chk (i : Nat) (a : SlotAcc) : (s.setSlotAcc i a).chk = s.chk := rfl
@[simp] theorem State.setSlotAcc_pois (i : Nat) (a : SlotAcc) : (s.setSlotAcc i a).pois = s.pois := rfl
@[simp] theorem State.setSlotAcc_tags (i : Nat) (a : SlotAcc) : (s.setSlotAcc i a).tags = s.tags := rfl
@[simp] theorem State.setSlotAcc_dramErr (i : Nat) (a : SlotAcc) : (s.setSlotAcc i a).dramErr = s.dramErr := rfl
@[simp] theorem State.setSlotAcc_banks (i : Nat) (a : SlotAcc) : (s.setSlotAcc i a).banks = s.banks := rfl
@[simp] theorem State.setSlotAcc_trkIn (i : Nat) (a : SlotAcc) : (s.setSlotAcc i a).trkIn = s.trkIn := rfl
@[simp] theorem State.setSlotAcc_trk (i : Nat) (a : SlotAcc) : (s.setSlotAcc i a).trk = s.trk := rfl
@[simp] theorem State.setSlotAcc_bcast (i : Nat) (a : SlotAcc) : (s.setSlotAcc i a).bcast = s.bcast := rfl
@[simp] theorem State.setSlotAcc_lastBcast (i : Nat) (a : SlotAcc) : (s.setSlotAcc i a).lastBcast = s.lastBcast := rfl
@[simp] theorem State.setSlotAcc_wall (i : Nat) (a : SlotAcc) : (s.setSlotAcc i a).wall = s.wall := rfl
@[simp] theorem State.setSlotAcc_wpt (i : Nat) (a : SlotAcc) : (s.setSlotAcc i a).wpt = s.wpt := rfl
@[simp] theorem State.setSlotAcc_srcQ (i : Nat) (a : SlotAcc) : (s.setSlotAcc i a).srcQ = s.srcQ := rfl
@[simp] theorem State.setSlotAcc_strs (i : Nat) (a : SlotAcc) : (s.setSlotAcc i a).strs = s.strs := rfl
@[simp] theorem State.setSlotAcc_ringWait (i : Nat) (a : SlotAcc) : (s.setSlotAcc i a).ringWait = s.ringWait := rfl
@[simp] theorem State.setSlotAcc_strTurn (i : Nat) (a : SlotAcc) : (s.setSlotAcc i a).strTurn = s.strTurn := rfl
@[simp] theorem State.setSlotAcc_flow (i : Nat) (a : SlotAcc) : (s.setSlotAcc i a).flow = s.flow := rfl
@[simp] theorem State.setSlotAcc_ports (i : Nat) (a : SlotAcc) : (s.setSlotAcc i a).ports = s.ports := rfl
@[simp] theorem State.setSlotAcc_portPower (i : Nat) (a : SlotAcc) : (s.setSlotAcc i a).portPower = s.portPower := rfl
@[simp] theorem State.setSlotAcc_arsIn (i : Nat) (a : SlotAcc) : (s.setSlotAcc i a).arsIn = s.arsIn := rfl
@[simp] theorem State.setSlotAcc_arsView (i : Nat) (a : SlotAcc) : (s.setSlotAcc i a).arsView = s.arsView := rfl
@[simp] theorem State.setSlotAcc_ars (i : Nat) (a : SlotAcc) : (s.setSlotAcc i a).ars = s.ars := rfl
@[simp] theorem State.setSlotAcc_slots (i : Nat) (a : SlotAcc) : (s.setSlotAcc i a).slots = s.slots := rfl
@[simp] theorem State.setSlotAcc_frd (i : Nat) (a : SlotAcc) : (s.setSlotAcc i a).frd = s.frd := rfl
@[simp] theorem State.setSlotAcc_tiles (i : Nat) (a : SlotAcc) : (s.setSlotAcc i a).tiles = s.tiles := rfl
@[simp] theorem State.setSlotAcc_tfe (i : Nat) (a : SlotAcc) : (s.setSlotAcc i a).tfe = s.tfe := rfl
@[simp] theorem State.setSlotAcc_souts (i : Nat) (a : SlotAcc) : (s.setSlotAcc i a).souts = s.souts := rfl
@[simp] theorem State.setSlotAcc_circs (i : Nat) (a : SlotAcc) : (s.setSlotAcc i a).circs = s.circs := rfl
@[simp] theorem State.setSlotAcc_wdg (i : Nat) (a : SlotAcc) : (s.setSlotAcc i a).wdg = s.wdg := rfl
@[simp] theorem State.setSlotAcc_pmcT (i : Nat) (a : SlotAcc) : (s.setSlotAcc i a).pmcT = s.pmcT := rfl
@[simp] theorem State.setSlotAcc_bist (i : Nat) (a : SlotAcc) : (s.setSlotAcc i a).bist = s.bist := rfl
@[simp] theorem State.setSlotAcc_xng (i : Nat) (a : SlotAcc) : (s.setSlotAcc i a).xng = s.xng := rfl
@[simp] theorem State.setSlotAcc_ropes (i : Nat) (a : SlotAcc) : (s.setSlotAcc i a).ropes = s.ropes := rfl
@[simp] theorem State.setSlotAcc_teams (i : Nat) (a : SlotAcc) : (s.setSlotAcc i a).teams = s.teams := rfl
@[simp] theorem State.setSlotAcc_bcp (i : Nat) (a : SlotAcc) : (s.setSlotAcc i a).bcp = s.bcp := rfl
@[simp] theorem State.setSlotAcc_spwrLow (i : Nat) (a : SlotAcc) : (s.setSlotAcc i a).spwrLow = s.spwrLow := rfl
@[simp] theorem State.setSlotAcc_log (i : Nat) (a : SlotAcc) : (s.setSlotAcc i a).log = s.log := rfl
@[simp] theorem State.setSlotAcc_out (i : Nat) (a : SlotAcc) : (s.setSlotAcc i a).out = s.out := rfl

@[simp] theorem State.setTfe_pending (c : Nat) (h : TfeH) : (s.setTfe c h).pending = s.pending := rfl
@[simp] theorem State.setTfe_now (c : Nat) (h : TfeH) : (s.setTfe c h).now = s.now := rfl
@[simp] theorem State.setTfe_hot (c : Nat) (h : TfeH) : (s.setTfe c h).hot = s.hot := rfl
@[simp] theorem State.setTfe_free (c : Nat) (h : TfeH) : (s.setTfe c h).free = s.free := rfl
@[simp] theorem State.setTfe_regs (c : Nat) (h : TfeH) : (s.setTfe c h).regs = s.regs := rfl
@[simp] theorem State.setTfe_pages (c : Nat) (h : TfeH) : (s.setTfe c h).pages = s.pages := rfl
@[simp] theorem State.setTfe_mem (c : Nat) (h : TfeH) : (s.setTfe c h).mem = s.mem := rfl
@[simp] theorem State.setTfe_chk (c : Nat) (h : TfeH) : (s.setTfe c h).chk = s.chk := rfl
@[simp] theorem State.setTfe_pois (c : Nat) (h : TfeH) : (s.setTfe c h).pois = s.pois := rfl
@[simp] theorem State.setTfe_tags (c : Nat) (h : TfeH) : (s.setTfe c h).tags = s.tags := rfl
@[simp] theorem State.setTfe_dramErr (c : Nat) (h : TfeH) : (s.setTfe c h).dramErr = s.dramErr := rfl
@[simp] theorem State.setTfe_banks (c : Nat) (h : TfeH) : (s.setTfe c h).banks = s.banks := rfl
@[simp] theorem State.setTfe_trkIn (c : Nat) (h : TfeH) : (s.setTfe c h).trkIn = s.trkIn := rfl
@[simp] theorem State.setTfe_trk (c : Nat) (h : TfeH) : (s.setTfe c h).trk = s.trk := rfl
@[simp] theorem State.setTfe_bcast (c : Nat) (h : TfeH) : (s.setTfe c h).bcast = s.bcast := rfl
@[simp] theorem State.setTfe_lastBcast (c : Nat) (h : TfeH) : (s.setTfe c h).lastBcast = s.lastBcast := rfl
@[simp] theorem State.setTfe_wall (c : Nat) (h : TfeH) : (s.setTfe c h).wall = s.wall := rfl
@[simp] theorem State.setTfe_wpt (c : Nat) (h : TfeH) : (s.setTfe c h).wpt = s.wpt := rfl
@[simp] theorem State.setTfe_srcQ (c : Nat) (h : TfeH) : (s.setTfe c h).srcQ = s.srcQ := rfl
@[simp] theorem State.setTfe_strs (c : Nat) (h : TfeH) : (s.setTfe c h).strs = s.strs := rfl
@[simp] theorem State.setTfe_ringWait (c : Nat) (h : TfeH) : (s.setTfe c h).ringWait = s.ringWait := rfl
@[simp] theorem State.setTfe_strTurn (c : Nat) (h : TfeH) : (s.setTfe c h).strTurn = s.strTurn := rfl
@[simp] theorem State.setTfe_flow (c : Nat) (h : TfeH) : (s.setTfe c h).flow = s.flow := rfl
@[simp] theorem State.setTfe_ports (c : Nat) (h : TfeH) : (s.setTfe c h).ports = s.ports := rfl
@[simp] theorem State.setTfe_portPower (c : Nat) (h : TfeH) : (s.setTfe c h).portPower = s.portPower := rfl
@[simp] theorem State.setTfe_arsIn (c : Nat) (h : TfeH) : (s.setTfe c h).arsIn = s.arsIn := rfl
@[simp] theorem State.setTfe_arsView (c : Nat) (h : TfeH) : (s.setTfe c h).arsView = s.arsView := rfl
@[simp] theorem State.setTfe_ars (c : Nat) (h : TfeH) : (s.setTfe c h).ars = s.ars := rfl
@[simp] theorem State.setTfe_slots (c : Nat) (h : TfeH) : (s.setTfe c h).slots = s.slots := rfl
@[simp] theorem State.setTfe_frd (c : Nat) (h : TfeH) : (s.setTfe c h).frd = s.frd := rfl
@[simp] theorem State.setTfe_tiles (c : Nat) (h : TfeH) : (s.setTfe c h).tiles = s.tiles := rfl
@[simp] theorem State.setTfe_souts (c : Nat) (h : TfeH) : (s.setTfe c h).souts = s.souts := rfl
@[simp] theorem State.setTfe_circs (c : Nat) (h : TfeH) : (s.setTfe c h).circs = s.circs := rfl
@[simp] theorem State.setTfe_wdg (c : Nat) (h : TfeH) : (s.setTfe c h).wdg = s.wdg := rfl
@[simp] theorem State.setTfe_pmcT (c : Nat) (h : TfeH) : (s.setTfe c h).pmcT = s.pmcT := rfl
@[simp] theorem State.setTfe_bist (c : Nat) (h : TfeH) : (s.setTfe c h).bist = s.bist := rfl
@[simp] theorem State.setTfe_xng (c : Nat) (h : TfeH) : (s.setTfe c h).xng = s.xng := rfl
@[simp] theorem State.setTfe_ropes (c : Nat) (h : TfeH) : (s.setTfe c h).ropes = s.ropes := rfl
@[simp] theorem State.setTfe_teams (c : Nat) (h : TfeH) : (s.setTfe c h).teams = s.teams := rfl
@[simp] theorem State.setTfe_rope (c : Nat) (h : TfeH) : (s.setTfe c h).rope = s.rope := rfl
@[simp] theorem State.setTfe_bcp (c : Nat) (h : TfeH) : (s.setTfe c h).bcp = s.bcp := rfl
@[simp] theorem State.setTfe_spwrLow (c : Nat) (h : TfeH) : (s.setTfe c h).spwrLow = s.spwrLow := rfl
@[simp] theorem State.setTfe_log (c : Nat) (h : TfeH) : (s.setTfe c h).log = s.log := rfl
@[simp] theorem State.setTfe_out (c : Nat) (h : TfeH) : (s.setTfe c h).out = s.out := rfl

@[simp] theorem State.setSlot_pending (c i : Nat) (h : SlotH) : (s.setSlot c i h).pending = s.pending := rfl
@[simp] theorem State.setSlot_now (c i : Nat) (h : SlotH) : (s.setSlot c i h).now = s.now := rfl
@[simp] theorem State.setSlot_hot (c i : Nat) (h : SlotH) : (s.setSlot c i h).hot = s.hot := rfl
@[simp] theorem State.setSlot_free (c i : Nat) (h : SlotH) : (s.setSlot c i h).free = s.free := rfl
@[simp] theorem State.setSlot_regs (c i : Nat) (h : SlotH) : (s.setSlot c i h).regs = s.regs := rfl
@[simp] theorem State.setSlot_pages (c i : Nat) (h : SlotH) : (s.setSlot c i h).pages = s.pages := rfl
@[simp] theorem State.setSlot_mem (c i : Nat) (h : SlotH) : (s.setSlot c i h).mem = s.mem := rfl
@[simp] theorem State.setSlot_chk (c i : Nat) (h : SlotH) : (s.setSlot c i h).chk = s.chk := rfl
@[simp] theorem State.setSlot_pois (c i : Nat) (h : SlotH) : (s.setSlot c i h).pois = s.pois := rfl
@[simp] theorem State.setSlot_tags (c i : Nat) (h : SlotH) : (s.setSlot c i h).tags = s.tags := rfl
@[simp] theorem State.setSlot_dramErr (c i : Nat) (h : SlotH) : (s.setSlot c i h).dramErr = s.dramErr := rfl
@[simp] theorem State.setSlot_banks (c i : Nat) (h : SlotH) : (s.setSlot c i h).banks = s.banks := rfl
@[simp] theorem State.setSlot_trkIn (c i : Nat) (h : SlotH) : (s.setSlot c i h).trkIn = s.trkIn := rfl
@[simp] theorem State.setSlot_trk (c i : Nat) (h : SlotH) : (s.setSlot c i h).trk = s.trk := rfl
@[simp] theorem State.setSlot_bcast (c i : Nat) (h : SlotH) : (s.setSlot c i h).bcast = s.bcast := rfl
@[simp] theorem State.setSlot_lastBcast (c i : Nat) (h : SlotH) : (s.setSlot c i h).lastBcast = s.lastBcast := rfl
@[simp] theorem State.setSlot_wall (c i : Nat) (h : SlotH) : (s.setSlot c i h).wall = s.wall := rfl
@[simp] theorem State.setSlot_wpt (c i : Nat) (h : SlotH) : (s.setSlot c i h).wpt = s.wpt := rfl
@[simp] theorem State.setSlot_srcQ (c i : Nat) (h : SlotH) : (s.setSlot c i h).srcQ = s.srcQ := rfl
@[simp] theorem State.setSlot_strs (c i : Nat) (h : SlotH) : (s.setSlot c i h).strs = s.strs := rfl
@[simp] theorem State.setSlot_ringWait (c i : Nat) (h : SlotH) : (s.setSlot c i h).ringWait = s.ringWait := rfl
@[simp] theorem State.setSlot_strTurn (c i : Nat) (h : SlotH) : (s.setSlot c i h).strTurn = s.strTurn := rfl
@[simp] theorem State.setSlot_flow (c i : Nat) (h : SlotH) : (s.setSlot c i h).flow = s.flow := rfl
@[simp] theorem State.setSlot_ports (c i : Nat) (h : SlotH) : (s.setSlot c i h).ports = s.ports := rfl
@[simp] theorem State.setSlot_portPower (c i : Nat) (h : SlotH) : (s.setSlot c i h).portPower = s.portPower := rfl
@[simp] theorem State.setSlot_arsIn (c i : Nat) (h : SlotH) : (s.setSlot c i h).arsIn = s.arsIn := rfl
@[simp] theorem State.setSlot_arsView (c i : Nat) (h : SlotH) : (s.setSlot c i h).arsView = s.arsView := rfl
@[simp] theorem State.setSlot_ars (c i : Nat) (h : SlotH) : (s.setSlot c i h).ars = s.ars := rfl
@[simp] theorem State.setSlot_frd (c i : Nat) (h : SlotH) : (s.setSlot c i h).frd = s.frd := rfl
@[simp] theorem State.setSlot_tiles (c i : Nat) (h : SlotH) : (s.setSlot c i h).tiles = s.tiles := rfl
@[simp] theorem State.setSlot_tfe (c i : Nat) (h : SlotH) : (s.setSlot c i h).tfe = s.tfe := rfl
@[simp] theorem State.setSlot_souts (c i : Nat) (h : SlotH) : (s.setSlot c i h).souts = s.souts := rfl
@[simp] theorem State.setSlot_circs (c i : Nat) (h : SlotH) : (s.setSlot c i h).circs = s.circs := rfl
@[simp] theorem State.setSlot_wdg (c i : Nat) (h : SlotH) : (s.setSlot c i h).wdg = s.wdg := rfl
@[simp] theorem State.setSlot_pmcT (c i : Nat) (h : SlotH) : (s.setSlot c i h).pmcT = s.pmcT := rfl
@[simp] theorem State.setSlot_bist (c i : Nat) (h : SlotH) : (s.setSlot c i h).bist = s.bist := rfl
@[simp] theorem State.setSlot_xng (c i : Nat) (h : SlotH) : (s.setSlot c i h).xng = s.xng := rfl
@[simp] theorem State.setSlot_ropes (c i : Nat) (h : SlotH) : (s.setSlot c i h).ropes = s.ropes := rfl
@[simp] theorem State.setSlot_teams (c i : Nat) (h : SlotH) : (s.setSlot c i h).teams = s.teams := rfl
@[simp] theorem State.setSlot_rope (c i : Nat) (h : SlotH) : (s.setSlot c i h).rope = s.rope := rfl
@[simp] theorem State.setSlot_bcp (c i : Nat) (h : SlotH) : (s.setSlot c i h).bcp = s.bcp := rfl
@[simp] theorem State.setSlot_spwrLow (c i : Nat) (h : SlotH) : (s.setSlot c i h).spwrLow = s.spwrLow := rfl
@[simp] theorem State.setSlot_log (c i : Nat) (h : SlotH) : (s.setSlot c i h).log = s.log := rfl
@[simp] theorem State.setSlot_out (c i : Nat) (h : SlotH) : (s.setSlot c i h).out = s.out := rfl

@[simp] theorem State.setFrd_pending (c : Nat) (h : FrdH) : (s.setFrd c h).pending = s.pending := rfl
@[simp] theorem State.setFrd_now (c : Nat) (h : FrdH) : (s.setFrd c h).now = s.now := rfl
@[simp] theorem State.setFrd_hot (c : Nat) (h : FrdH) : (s.setFrd c h).hot = s.hot := rfl
@[simp] theorem State.setFrd_free (c : Nat) (h : FrdH) : (s.setFrd c h).free = s.free := rfl
@[simp] theorem State.setFrd_regs (c : Nat) (h : FrdH) : (s.setFrd c h).regs = s.regs := rfl
@[simp] theorem State.setFrd_pages (c : Nat) (h : FrdH) : (s.setFrd c h).pages = s.pages := rfl
@[simp] theorem State.setFrd_mem (c : Nat) (h : FrdH) : (s.setFrd c h).mem = s.mem := rfl
@[simp] theorem State.setFrd_chk (c : Nat) (h : FrdH) : (s.setFrd c h).chk = s.chk := rfl
@[simp] theorem State.setFrd_pois (c : Nat) (h : FrdH) : (s.setFrd c h).pois = s.pois := rfl
@[simp] theorem State.setFrd_tags (c : Nat) (h : FrdH) : (s.setFrd c h).tags = s.tags := rfl
@[simp] theorem State.setFrd_dramErr (c : Nat) (h : FrdH) : (s.setFrd c h).dramErr = s.dramErr := rfl
@[simp] theorem State.setFrd_banks (c : Nat) (h : FrdH) : (s.setFrd c h).banks = s.banks := rfl
@[simp] theorem State.setFrd_trkIn (c : Nat) (h : FrdH) : (s.setFrd c h).trkIn = s.trkIn := rfl
@[simp] theorem State.setFrd_trk (c : Nat) (h : FrdH) : (s.setFrd c h).trk = s.trk := rfl
@[simp] theorem State.setFrd_bcast (c : Nat) (h : FrdH) : (s.setFrd c h).bcast = s.bcast := rfl
@[simp] theorem State.setFrd_lastBcast (c : Nat) (h : FrdH) : (s.setFrd c h).lastBcast = s.lastBcast := rfl
@[simp] theorem State.setFrd_wall (c : Nat) (h : FrdH) : (s.setFrd c h).wall = s.wall := rfl
@[simp] theorem State.setFrd_wpt (c : Nat) (h : FrdH) : (s.setFrd c h).wpt = s.wpt := rfl
@[simp] theorem State.setFrd_srcQ (c : Nat) (h : FrdH) : (s.setFrd c h).srcQ = s.srcQ := rfl
@[simp] theorem State.setFrd_strs (c : Nat) (h : FrdH) : (s.setFrd c h).strs = s.strs := rfl
@[simp] theorem State.setFrd_ringWait (c : Nat) (h : FrdH) : (s.setFrd c h).ringWait = s.ringWait := rfl
@[simp] theorem State.setFrd_strTurn (c : Nat) (h : FrdH) : (s.setFrd c h).strTurn = s.strTurn := rfl
@[simp] theorem State.setFrd_flow (c : Nat) (h : FrdH) : (s.setFrd c h).flow = s.flow := rfl
@[simp] theorem State.setFrd_ports (c : Nat) (h : FrdH) : (s.setFrd c h).ports = s.ports := rfl
@[simp] theorem State.setFrd_portPower (c : Nat) (h : FrdH) : (s.setFrd c h).portPower = s.portPower := rfl
@[simp] theorem State.setFrd_arsIn (c : Nat) (h : FrdH) : (s.setFrd c h).arsIn = s.arsIn := rfl
@[simp] theorem State.setFrd_arsView (c : Nat) (h : FrdH) : (s.setFrd c h).arsView = s.arsView := rfl
@[simp] theorem State.setFrd_ars (c : Nat) (h : FrdH) : (s.setFrd c h).ars = s.ars := rfl
@[simp] theorem State.setFrd_slots (c : Nat) (h : FrdH) : (s.setFrd c h).slots = s.slots := rfl
@[simp] theorem State.setFrd_tiles (c : Nat) (h : FrdH) : (s.setFrd c h).tiles = s.tiles := rfl
@[simp] theorem State.setFrd_tfe (c : Nat) (h : FrdH) : (s.setFrd c h).tfe = s.tfe := rfl
@[simp] theorem State.setFrd_souts (c : Nat) (h : FrdH) : (s.setFrd c h).souts = s.souts := rfl
@[simp] theorem State.setFrd_circs (c : Nat) (h : FrdH) : (s.setFrd c h).circs = s.circs := rfl
@[simp] theorem State.setFrd_wdg (c : Nat) (h : FrdH) : (s.setFrd c h).wdg = s.wdg := rfl
@[simp] theorem State.setFrd_pmcT (c : Nat) (h : FrdH) : (s.setFrd c h).pmcT = s.pmcT := rfl
@[simp] theorem State.setFrd_bist (c : Nat) (h : FrdH) : (s.setFrd c h).bist = s.bist := rfl
@[simp] theorem State.setFrd_xng (c : Nat) (h : FrdH) : (s.setFrd c h).xng = s.xng := rfl
@[simp] theorem State.setFrd_ropes (c : Nat) (h : FrdH) : (s.setFrd c h).ropes = s.ropes := rfl
@[simp] theorem State.setFrd_teams (c : Nat) (h : FrdH) : (s.setFrd c h).teams = s.teams := rfl
@[simp] theorem State.setFrd_rope (c : Nat) (h : FrdH) : (s.setFrd c h).rope = s.rope := rfl
@[simp] theorem State.setFrd_bcp (c : Nat) (h : FrdH) : (s.setFrd c h).bcp = s.bcp := rfl
@[simp] theorem State.setFrd_spwrLow (c : Nat) (h : FrdH) : (s.setFrd c h).spwrLow = s.spwrLow := rfl
@[simp] theorem State.setFrd_log (c : Nat) (h : FrdH) : (s.setFrd c h).log = s.log := rfl
@[simp] theorem State.setFrd_out (c : Nat) (h : FrdH) : (s.setFrd c h).out = s.out := rfl

end Sys2Proof.Machine
end

