-- ==== Sys2Proof/Laws/Memory.lean ====
section
/-! SUPPORT. What the memory operations do: read after write, that reads leave all contents alone, and that every operation keeps the canonical form. -/

namespace Sys2Proof.Machine

theorem State.reset_memCanon : State.reset.memCanon = true := rfl

/-! Read after write of one byte, word, granule or line. -/

@[simp] theorem State.byte_setByte (s : State) (a : Nat) (b : Byte) : (s.setByte a b).byte a = b := by
  simp [State.byte, State.setByte, sget_sput]

theorem State.byte_setByte_other (s : State) (a x : Nat) (b : Byte) (h : x ≠ a) : (s.setByte a b).byte x = s.byte x := by
  simp [State.byte, State.setByte, sget_sput_other _ _ _ _ _ h]

@[simp] theorem State.chkDiff_setChk (s : State) (a v : Nat) : (s.setChk a v).chkDiff a = v := by
  simp [State.chkDiff, State.setChk, sget_sput]

theorem State.chkDiff_setChk_other (s : State) (a x v : Nat) (h : x ≠ a) : (s.setChk a v).chkDiff x = s.chkDiff x := by
  simp [State.chkDiff, State.setChk, sget_sput_other _ _ _ _ _ h]

@[simp] theorem State.poisCopies_setPois (s : State) (a v : Nat) : (s.setPois a v).poisCopies a = v := by
  simp [State.poisCopies, State.setPois, sget_sput]

theorem State.poisCopies_setPois_other (s : State) (a x v : Nat) (h : x / 8 ≠ a / 8) : (s.setPois a v).poisCopies x = s.poisCopies x := by
  simp [State.poisCopies, State.setPois, sget_sput_other _ _ _ _ _ h]

@[simp] theorem State.tagCopies_setTag (s : State) (a v : Nat) : (s.setTag a v).tagCopies a = v := by
  simp [State.tagCopies, State.setTag, sget_sput]

theorem State.tagCopies_setTag_other (s : State) (a x v : Nat) (h : x / 16 ≠ a / 16) : (s.setTag a v).tagCopies x = s.tagCopies x := by
  simp [State.tagCopies, State.setTag, sget_sput_other _ _ _ _ _ h]

@[simp] theorem State.lineErr_setLineErr (s : State) (l : Nat) (e : List (Nat × Nat)) : (s.setLineErr l e).lineErr l = e := by
  simp [State.lineErr, State.setLineErr, sget_sput]

/-! All contents of memory, their codes, poison and tags alike. -/

/-- Both states hold the same memory. -/
def SameMem (s u : State) : Prop :=
  u.mem = s.mem ∧ u.chk = s.chk ∧ u.pois = s.pois ∧ u.tags = s.tags ∧ u.dramErr = s.dramErr

theorem SameMem.refl (s : State) : SameMem s s := ⟨rfl, rfl, rfl, rfl, rfl⟩

theorem SameMem.trans {s u v : State} (h : SameMem s u) (k : SameMem u v) : SameMem s v :=
  ⟨k.1.trans h.1, k.2.1.trans h.2.1, k.2.2.1.trans h.2.2.1, k.2.2.2.1.trans h.2.2.2.1, k.2.2.2.2.trans h.2.2.2.2⟩

theorem SameMem.memCanon {s u : State} (h : SameMem s u) : u.memCanon = s.memCanon := by
  simp only [State.memCanon, h.1, h.2.1, h.2.2.1, h.2.2.2.1, h.2.2.2.2]

theorem SameMem.foldl {β : Type} (f : State → β → State) (hf : ∀ s b, SameMem s (f s b)) (l : List β) (s : State) : SameMem s (l.foldl f s) := by
  induction l generalizing s with
  | nil => exact .refl s
  | cons b l ih => exact (hf s b).trans (ih _)

/-- What every step of a fold keeps, the fold keeps. -/
theorem foldl_keeps {β γ : Type} (P : γ → Prop) (f : γ → β → γ) (hf : ∀ c b, P c → P (f c b)) (l : List β) (c : γ) (h : P c) : P (l.foldl f c) := by
  induction l generalizing c with
  | nil => exact h
  | cons b l ih => exact ih _ (hf c b h)

theorem State.irq_sameMem (s : State) (p b : Nat) : SameMem s (s.irq p b) := by simp [SameMem]

theorem State.setB_sameMem (s : State) (p o b : Nat) (v : Bool) : SameMem s (s.setB p o b v) := by simp [SameMem]

theorem State.wr64_sameMem (s : State) (p o v : Nat) : SameMem s (s.wr64 p o v) := by simp [SameMem]

theorem State.bump_sameMem (s : State) (p o hi lo n : Nat) : SameMem s (s.bump p o hi lo n) := by simp [SameMem]

/-- A count that is taken or not leaves the memory alone. -/
theorem State.bumpIf_sameMem (c : Bool) (s : State) (p o hi lo n : Nat) : SameMem s (if c then s.bump p o hi lo n else s) := by
  cases c
  · exact .refl s
  · exact s.bump_sameMem p o hi lo n

theorem State.flipped_sameMem (s : State) (p : Nat) : SameMem s (s.flipped p) := by
  simp only [State.flipped]
  split <;> simp [SameMem]

theorem State.countCorr_sameMem (s : State) (l : MemLoc) (a p : Nat) : SameMem s (s.countCorr l a p) := by
  simp only [State.countCorr]
  split <;> simp [SameMem]

theorem State.countUncorr_sameMem (s : State) (l : MemLoc) (a p : Nat) : SameMem s (s.countUncorr l a p) := by simp [SameMem, State.countUncorr]

theorem State.earlyScrub_sameMem (s : State) (l : MemLoc) (a : Nat) : SameMem s (s.earlyScrub l a) := by
  simp only [State.earlyScrub]
  split
  · exact .refl s
  · split <;> simp [SameMem]

theorem State.bankOn_sameMem (s : State) (p b : Nat) : SameMem s (s.bankOn p b) := by
  simp only [State.bankOn]
  split <;> simp [SameMem]

theorem State.upTo_sameMem (s : State) (t : Nat) : SameMem s (s.upTo t) := ⟨rfl, rfl, rfl, rfl, rfl⟩

theorem State.awaitBank_sameMem (s : State) (l : MemLoc) : SameMem s (s.awaitBank l) := by
  simp only [State.awaitBank]
  split
  · split
    · exact ((s.upTo_sameMem _).trans (State.bankOn_sameMem _ _ _)).trans (State.bump_sameMem _ _ _ _ _ _)
    · exact (s.upTo_sameMem _).trans (State.bankOn_sameMem _ _ _)
  · exact .refl s

/-- Decoding a lane counts what it finds and leaves the memory alone. -/
theorem State.sramLane_sameMem (s : State) (l : MemLoc) (a : Nat) : SameMem s (s.sramLane l a).2 := by
  have hf : ∀ (f : (Nat × Option Nat) × State → Nat → (Nat × Option Nat) × State), (∀ c i, SameMem s c.2 → SameMem s (f c i).2) →
      ∀ is, SameMem s (List.foldl f ((0, none), s) is).2 :=
    fun f hf is => foldl_keeps (fun c => SameMem s c.2) f hf is _ (.refl s)
  unfold State.sramLane
  extract_lets step
  have h0 := hf step (fun c i h => by
    simp only [step]
    split
    · exact h
    · exact (h.trans (State.countCorr_sameMem _ _ _ _)).trans (State.earlyScrub_sameMem _ _ _)
    · exact h) (List.range 8)
  generalize List.foldl step ((0, none), s) (List.range 8) = r at h0 ⊢
  obtain ⟨⟨v, bad⟩, u⟩ := r
  cases bad with
  | none =>
    dsimp only
    split
    · exact (SameMem.trans h0 (State.countCorr_sameMem _ _ _ _)).trans (State.earlyScrub_sameMem _ _ _)
    · exact h0
  | some y =>
    have h1 := (SameMem.trans h0 (State.countUncorr_sameMem u l a (Config.uncorrPosition y).val)).trans (State.earlyScrub_sameMem _ l a)
    dsimp only
    split
    · exact (SameMem.trans h1 (State.countCorr_sameMem _ _ _ _)).trans (State.earlyScrub_sameMem _ _ _)
    · exact h1

theorem State.dramLine_sameMem (s : State) (l : MemLoc) (line : Nat) : SameMem s (s.dramLine l line).2 := by
  simp only [State.dramLine]
  split
  · exact .refl s
  · split
    · exact (SameMem.foldl _ (fun s e => s.countCorr_sameMem l _ _) _ s).trans (State.earlyScrub_sameMem _ _ _)
    · exact (State.countUncorr_sameMem _ _ _ _).trans (State.earlyScrub_sameMem _ _ _)

theorem State.rdLanes_sameMem (n : Nat) : ∀ (s : State) (a : Nat) (prev : Option (Nat × Bool)), SameMem s (s.rdLanes n a prev).2 := by
  induction n with
  | zero => intro s a prev; exact .refl s
  | succ n ih =>
    intro s a prev
    simp only [State.rdLanes]
    split
    · exact ih s _ _
    · rename_i l _
      have hw := s.awaitBank_sameMem l
      split
      · refine SameMem.trans ?_ (ih _ _ _)
        split
        · exact hw
        · exact hw.trans (State.bump_sameMem _ _ _ _ _ _)
      · split
        · have hd : SameMem s (match prev with
              | some (l0, b) => if l0 = a / 64 then (b, s.awaitBank l) else (s.awaitBank l).dramLine l (a / 64)
              | none => (s.awaitBank l).dramLine l (a / 64)).2 := by
            cases prev with
            | none => exact hw.trans (State.dramLine_sameMem _ _ _)
            | some q =>
              dsimp only
              split
              · exact hw
              · exact hw.trans (State.dramLine_sameMem _ _ _)
          exact hd.trans (ih _ _ _)
        · exact (hw.trans (State.sramLane_sameMem _ _ _)).trans (ih _ _ _)

/-- A read leaves all memory, its codes, poison and tags as they are. -/
theorem State.rdMem_sameMem (s : State) (a n : Nat) : SameMem s (s.rdMem a n).2 := State.rdLanes_sameMem _ s _ _

theorem State.rdMem_memCanon (s : State) (a n : Nat) : (s.rdMem a n).2.memCanon = s.memCanon := (s.rdMem_sameMem a n).memCanon

/-! Writes keep the canonical form. -/

theorem State.memCanon_iff (s : State) : s.memCanon = true ↔ Memory.wf s.mem = true ∧ swf zeroN s.chk = true ∧ swf zeroN s.pois = true ∧
    swf zeroN s.tags = true ∧ swf (fun _ => ([] : List (Nat × Nat))) s.dramErr = true := by
  simp only [State.memCanon, Bool.and_eq_true, and_assoc]

theorem State.setByte_memCanon (s : State) (a : Nat) (b : Byte) (h : s.memCanon = true) : (s.setByte a b).memCanon = true := by
  rw [State.memCanon_iff] at *
  exact ⟨swf_sput _ _ _ _ h.1, h.2⟩

theorem State.setChk_memCanon (s : State) (a v : Nat) (h : s.memCanon = true) : (s.setChk a v).memCanon = true := by
  rw [State.memCanon_iff] at *
  exact ⟨h.1, swf_sput _ _ _ _ h.2.1, h.2.2⟩

theorem State.setPois_memCanon (s : State) (a v : Nat) (h : s.memCanon = true) : (s.setPois a v).memCanon = true := by
  rw [State.memCanon_iff] at *
  exact ⟨h.1, h.2.1, swf_sput _ _ _ _ h.2.2.1, h.2.2.2⟩

theorem State.setTag_memCanon (s : State) (a v : Nat) (h : s.memCanon = true) : (s.setTag a v).memCanon = true := by
  rw [State.memCanon_iff] at *
  exact ⟨h.1, h.2.1, h.2.2.1, swf_sput _ _ _ _ h.2.2.2.1, h.2.2.2.2⟩

theorem State.setLineErr_memCanon (s : State) (l : Nat) (e : List (Nat × Nat)) (h : s.memCanon = true) : (s.setLineErr l e).memCanon = true := by
  rw [State.memCanon_iff] at *
  exact ⟨h.1, h.2.1, h.2.2.1, h.2.2.2.1, swf_sput _ _ _ _ h.2.2.2.2⟩

theorem State.clearRange_memCanon (s : State) (a b : Nat) (h : s.memCanon = true) : (s.clearRange a b).memCanon = true := by
  rw [State.memCanon_iff] at *
  simp only [State.clearRange, Memory.wf] at *
  exact ⟨swf_sclear _ _ _ _ h.1, swf_sclear _ _ _ _ h.2.1, swf_sclear _ _ _ _ h.2.2.1, swf_sclear _ _ _ _ h.2.2.2.1, swf_sclear _ _ _ _ h.2.2.2.2⟩

/-- A fold of operations that each keep the canonical form keeps it. -/
theorem memCanon_foldl {β : Type} (f : State → β → State) (hf : ∀ s b, s.memCanon = true → (f s b).memCanon = true) (l : List β) (s : State)
    (h : s.memCanon = true) : (l.foldl f s).memCanon = true := by
  induction l generalizing s with
  | nil => exact h
  | cons b l ih => exact ih _ (hf s b h)

theorem State.sramFlip_memCanon (s : State) (l : MemLoc) (a0 x y : Nat) (h : s.memCanon = true) : (s.sramFlip l a0 x y).memCanon = true := by
  simp only [State.sramFlip]
  split
  · exact h
  · refine (State.flipped_sameMem _ _).memCanon.trans (State.setPois_memCanon _ _ _ (memCanon_foldl _ ?_ _ s h))
    intro s i h
    split
    · exact State.setChk_memCanon _ _ _ (s.setByte_memCanon _ _ h)
    · exact h

theorem State.dramFlip_memCanon (s : State) (l : MemLoc) (line : Nat) (h : s.memCanon = true) : (s.dramFlip l line).memCanon = true := by
  simp only [State.dramFlip]
  split
  · exact h
  · exact (State.flipped_sameMem _ _).memCanon.trans (s.setLineErr_memCanon _ _ h)

theorem State.wrLane_memCanon (s : State) (l : MemLoc) (a0 x y : Nat) (bs : Nat → Byte) (p : Bool) (h : s.memCanon = true) :
    (s.wrLane l a0 x y bs p).memCanon = true := by
  have hb : ∀ (is : List Nat), (is.foldl (fun (s : State) i =>
      if x ≤ a0 + i ∧ a0 + i < y then (s.setByte (a0 + i) (bs (a0 + i))).setChk (a0 + i) 0 else s) s).memCanon = true :=
    fun is => memCanon_foldl _ (fun s i h => by
      split
      · exact State.setChk_memCanon _ _ _ (s.setByte_memCanon _ _ h)
      · exact h) is s h
  simp only [State.wrLane]
  split
  · exact State.setTag_memCanon _ _ _ (State.setPois_memCanon _ _ _ (hb _))
  · exact State.sramFlip_memCanon _ _ _ _ _ (State.setTag_memCanon _ _ _ (State.setPois_memCanon _ _ _ (hb _)))

theorem State.markLine_memCanon (s : State) (line : Nat) (h : s.memCanon = true) : (s.markLine line).memCanon = true := by
  refine State.setLineErr_memCanon _ _ _ (memCanon_foldl _ (fun s i h => s.setPois_memCanon _ _ h) _ _ (memCanon_foldl _ (fun s e h => ?_) _ _ h))
  split
  · exact s.setByte_memCanon _ _ h
  · exact h

theorem State.wrLanes_memCanon (x y : Nat) (bs : Nat → Byte) (k : Nat) : ∀ (s : State) (a0 : Nat) (ps : List Bool), s.memCanon = true →
    (s.wrLanes x y bs k a0 ps).memCanon = true := by
  induction k with
  | zero => intro s a0 ps h; exact h
  | succ k ih =>
    intro s a0 ps h
    simp only [State.wrLanes]
    split
    · exact ih _ _ _ h
    · rename_i l _
      have hw : (s.awaitBank l).memCanon = true := (s.awaitBank_sameMem l).memCanon.trans h
      split
      · exact ih _ _ _ ((State.bumpIf_sameMem _ _ _ _ _ _ _).memCanon.trans hw)
      · split
        · refine ih _ _ _ ?_
          have hl : ∀ u : State, u.memCanon = true → (if (decide (y ≤ a0 + 8) || a0 % 64 == 56) = true then u.dramFlip l (a0 / 64) else u).memCanon = true := by
            intro u hu
            split
            · exact u.dramFlip_memCanon _ _ hu
            · exact hu
          refine hl _ (State.wrLane_memCanon _ _ _ _ _ _ _ ?_)
          split
          · by_cases hq : x ≤ a0 / 64 * 64 ∧ a0 / 64 * 64 + 64 ≤ y
            · simpa only [if_pos hq, Bool.false_eq_true, if_false] using State.setLineErr_memCanon _ _ _ hw
            · simp only [if_neg hq]
              have hc : ((s.awaitBank l).dramLine l (a0 / 64)).2.memCanon = true := (State.dramLine_sameMem _ _ _).memCanon.trans hw
              split
              · exact State.markLine_memCanon _ _ ((State.wr64_sameMem _ _ _ _).memCanon.trans hc)
              · exact State.setLineErr_memCanon _ _ _ ((State.wr64_sameMem _ _ _ _).memCanon.trans hc)
          · exact hw
        · exact ih _ _ _ (State.wrLane_memCanon _ _ _ _ _ _ _ hw)

/-- A write keeps the canonical form. -/
theorem State.wrMemP_memCanon (s : State) (a n v : Nat) (ps : List Bool) (h : s.memCanon = true) : (s.wrMemP a n v ps).memCanon = true :=
  State.wrLanes_memCanon _ _ _ _ s _ _ h

theorem State.wrMem_memCanon (s : State) (a n v : Nat) (p : Bool) (h : s.memCanon = true) : (s.wrMem a n v p).memCanon = true :=
  s.wrMemP_memCanon a n v _ h

end Sys2Proof.Machine
end

