-- ==== Sys2Proof/Laws/Records.lean ====
section
/-! SUPPORT. Read after write of the records of State: the record just set is read back, and the records under other keys stay. -/

namespace Sys2Proof.Machine

@[simp] theorem State.inH_setIn (s : State) (c i : Nat) (h : InH) : (s.setIn c i h).inH c i = h := by
  simp [State.inH, State.setIn, sget_sput]

@[simp] theorem State.viewH_setView (s : State) (c v : Nat) (h : ViewH) : (s.setView c v h).viewH c v = h := by
  simp [State.viewH, State.setView, sget_sput]

@[simp] theorem State.arsH_setArs (s : State) (c : Nat) (h : ArsH) : (s.setArs c h).arsH c = h := by
  simp [State.arsH, State.setArs, sget_sput]

theorem State.arsH_setArs_other (s : State) (c x : Nat) (h : ArsH) (hx : x ≠ c) : (s.setArs c h).arsH x = s.arsH x := by
  simp [State.arsH, State.setArs, sget_sput_other _ _ _ _ _ hx]

@[simp] theorem State.slotH_setSlot (s : State) (c i : Nat) (h : SlotH) : (s.setSlot c i h).slotH c i = h := by
  simp [State.slotH, State.setSlot, sget_sput]

@[simp] theorem State.frdH_setFrd (s : State) (c : Nat) (h : FrdH) : (s.setFrd c h).frdH c = h := by
  simp [State.frdH, State.setFrd, sget_sput]

theorem State.frdH_setFrd_other (s : State) (c x : Nat) (h : FrdH) (hx : x ≠ c) : (s.setFrd c h).frdH x = s.frdH x := by
  simp [State.frdH, State.setFrd, sget_sput_other _ _ _ _ _ hx]

@[simp] theorem State.bankH_setBank (s : State) (p b : Nat) (h : BankH) : (s.setBank p b h).bankH p b = h := by
  simp [State.bankH, State.setBank, sget_sput]

@[simp] theorem State.pageH_setPageH (s : State) (p : Nat) (h : PageH) : (s.setPageH p h).pageH p = h := by
  simp [State.pageH, State.setPageH, sget_sput]

theorem State.pageH_setPageH_other (s : State) (p x : Nat) (h : PageH) (hx : x ≠ p) : (s.setPageH p h).pageH x = s.pageH x := by
  simp [State.pageH, State.setPageH, sget_sput_other _ _ _ _ _ hx]

@[simp] theorem State.bistH_setBist (s : State) (p : Nat) (h : BistH) : (s.setBist p h).bistH p = h := by
  simp [State.bistH, State.setBist, sget_sput]

theorem State.bistH_setBist_other (s : State) (p x : Nat) (h : BistH) (hx : x ≠ p) : (s.setBist p h).bistH x = s.bistH x := by
  simp [State.bistH, State.setBist, sget_sput_other _ _ _ _ _ hx]

@[simp] theorem State.wdgH_setWdg (s : State) (p : Nat) (h : WdgH) : (s.setWdg p h).wdgH p = h := by
  simp [State.wdgH, State.setWdg, sget_sput]

theorem State.wdgH_setWdg_other (s : State) (p x : Nat) (h : WdgH) (hx : x ≠ p) : (s.setWdg p h).wdgH x = s.wdgH x := by
  simp [State.wdgH, State.setWdg, sget_sput_other _ _ _ _ _ hx]

@[simp] theorem State.ropeH_setRope (s : State) (r : Nat) (h : RopeH) : (s.setRope r h).ropeH r = h := by
  simp [State.ropeH, State.setRope, sget_sput]

theorem State.ropeH_setRope_other (s : State) (r x : Nat) (h : RopeH) (hx : x ≠ r) : (s.setRope r h).ropeH x = s.ropeH x := by
  simp [State.ropeH, State.setRope, sget_sput_other _ _ _ _ _ hx]

@[simp] theorem State.teamH_setTeam (s : State) (i : Nat) (h : TeamH) : (s.setTeam i h).teamH i = h := by
  simp [State.teamH, State.setTeam, sget_sput]

theorem State.teamH_setTeam_other (s : State) (i x : Nat) (h : TeamH) (hx : x ≠ i) : (s.setTeam i h).teamH x = s.teamH x := by
  simp [State.teamH, State.setTeam, sget_sput_other _ _ _ _ _ hx]

@[simp] theorem State.soutH_setSout (s : State) (o : Nat) (h : SoutH) : (s.setSout o h).soutH o = h := by
  simp [State.soutH, State.setSout, sget_sput]

theorem State.soutH_setSout_other (s : State) (o x : Nat) (h : SoutH) (hx : x ≠ o) : (s.setSout o h).soutH x = s.soutH x := by
  simp [State.soutH, State.setSout, sget_sput_other _ _ _ _ _ hx]

@[simp] theorem State.strH_setStr (s : State) (e : Nat) (h : StrH) : (s.setStr e h).strH e = h := by
  simp [State.strH, State.setStr, sget_sput]

theorem State.strH_setStr_other (s : State) (e x : Nat) (h : StrH) (hx : x ≠ e) : (s.setStr e h).strH x = s.strH x := by
  simp [State.strH, State.setStr, sget_sput_other _ _ _ _ _ hx]

@[simp] theorem State.portH_setPort (s : State) (p : Nat) (h : PortH) : (s.setPort p h).portH p = h := by
  simp [State.portH, State.setPort, sget_sput]

theorem State.portH_setPort_other (s : State) (p x : Nat) (h : PortH) (hx : x ≠ p) : (s.setPort p h).portH x = s.portH x := by
  simp [State.portH, State.setPort, sget_sput_other _ _ _ _ _ hx]

@[simp] theorem State.circH_setCirc (s : State) (c : Nat) (h : CircH) : (s.setCirc c h).circH c = h := by
  simp [State.circH, State.setCirc, sget_sput]

theorem State.circH_setCirc_other (s : State) (c x : Nat) (h : CircH) (hx : x ≠ c) : (s.setCirc c h).circH x = s.circH x := by
  simp [State.circH, State.setCirc, sget_sput_other _ _ _ _ _ hx]

@[simp] theorem State.tfeH_setTfe (s : State) (c : Nat) (h : TfeH) : (s.setTfe c h).tfeH c = h := by
  simp [State.tfeH, State.setTfe, sget_sput]

theorem State.tfeH_setTfe_other (s : State) (c x : Nat) (h : TfeH) (hx : x ≠ c) : (s.setTfe c h).tfeH x = s.tfeH x := by
  simp [State.tfeH, State.setTfe, sget_sput_other _ _ _ _ _ hx]

@[simp] theorem State.tileH_setTile (s : State) (t : Nat) (h : TileH) : (s.setTile t h).tileH t = h := by
  simp [State.tileH, State.setTile, sget_sput]

theorem State.tileH_setTile_other (s : State) (t x : Nat) (h : TileH) (hx : x ≠ t) : (s.setTile t h).tileH x = s.tileH x := by
  simp [State.tileH, State.setTile, sget_sput_other _ _ _ _ _ hx]

@[simp] theorem State.trkInH_setTrkIn (s : State) (n : Nat) (h : TrkInH) : (s.setTrkIn n h).trkInH n = h := by
  simp [State.trkInH, State.setTrkIn, sget_sput]

theorem State.trkInH_setTrkIn_other (s : State) (n x : Nat) (h : TrkInH) (hx : x ≠ n) : (s.setTrkIn n h).trkInH x = s.trkInH x := by
  simp [State.trkInH, State.setTrkIn, sget_sput_other _ _ _ _ _ hx]

@[simp] theorem State.trkH_setTrk (s : State) (k : Nat) (h : TrkH) : (s.setTrk k h).trkH k = h := by
  simp [State.trkH, State.setTrk, sget_sput]

theorem State.trkH_setTrk_other (s : State) (k x : Nat) (h : TrkH) (hx : x ≠ k) : (s.setTrk k h).trkH x = s.trkH x := by
  simp [State.trkH, State.setTrk, sget_sput_other _ _ _ _ _ hx]

@[simp] theorem State.wptH_setWpt (s : State) (c u : Nat) (h : WptH) : (s.setWpt c u h).wptH c u = h := by
  simp [State.wptH, State.setWpt, sget_sput]

@[simp] theorem State.xngH_setXng (s : State) (i n : Nat) (h : XngH) : (s.setXng i n h).xngH i n = h := by
  simp [State.xngH, State.setXng, sget_sput]

@[simp] theorem State.queue_setQueue (s : State) (k : Nat) (q : List SrcItem) : (s.setQueue k q).queue k = q := by
  simp [State.queue, State.setQueue, sget_sput]

theorem State.queue_setQueue_other (s : State) (k x : Nat) (q : List SrcItem) (hx : x ≠ k) : (s.setQueue k q).queue x = s.queue x := by
  simp [State.queue, State.setQueue, sget_sput_other _ _ _ _ _ hx]

end Sys2Proof.Machine
end

