-- ==== Sys2Proof/Laws/Registers.lean ====
section
/-! SUPPORT. What every read and write of registers does: bit fields, read after write, and that other registers and the canonical form stay. -/

namespace Sys2Proof.Machine

/-! Bit fields. -/

theorem testBit_setBits (v hi lo x i : Nat) (h : lo ≤ hi) :
    (setBits v hi lo x).testBit i = (if i < lo then v.testBit i else if i ≤ hi then x.testBit (i - lo) else v.testBit i) := by
  have hl : v % 2 ^ lo < 2 ^ lo := Nat.mod_lt _ (Nat.two_pow_pos lo)
  have hy : x % 2 ^ (hi + 1 - lo) < 2 ^ (hi + 1 - lo) := Nat.mod_lt _ (Nat.two_pow_pos _)
  have hy' : (x % 2 ^ (hi + 1 - lo)) <<< lo < 2 ^ (hi + 1) := by
    rw [Nat.shiftLeft_eq]
    calc x % 2 ^ (hi + 1 - lo) * 2 ^ lo < 2 ^ (hi + 1 - lo) * 2 ^ lo := Nat.mul_lt_mul_of_pos_right hy (Nat.two_pow_pos lo)
      _ = 2 ^ (hi + 1) := by rw [← Nat.pow_add]; congr 1; omega
  unfold setBits
  rw [Nat.shiftLeft_add_eq_or_of_lt hy', ← Nat.shiftLeft_add_eq_or_of_lt hy', Nat.add_assoc, Nat.shiftLeft_add_eq_or_of_lt hl,
    Nat.shiftLeft_add_eq_or_of_lt (b := (x % 2 ^ (hi + 1 - lo)) <<< lo ||| v % 2 ^ lo)]
  · simp only [Nat.testBit_or, Nat.testBit_shiftLeft, Nat.testBit_shiftRight, Nat.testBit_mod_two_pow]
    by_cases h1 : i < lo
    · have h2 : ¬ hi + 1 ≤ i := by omega
      have h3 : ¬ lo ≤ i := by omega
      simp [h1, h2, h3]
    · by_cases h2 : i ≤ hi
      · have h3 : ¬ hi + 1 ≤ i := by omega
        have h4 : lo ≤ i := by omega
        have h5 : i - lo < hi + 1 - lo := by omega
        simp [h1, h2, h3, h4, h5]
      · have h3 : hi + 1 ≤ i := by omega
        have h4 : ¬ i - lo < hi + 1 - lo := by omega
        have h5 : hi + 1 + (i - (hi + 1)) = i := by omega
        simp [h1, h2, h3, h4, h5]
  · exact Nat.or_lt_two_pow hy' (Nat.lt_of_lt_of_le hl (Nat.pow_le_pow_right (by omega) (by omega)))

theorem testBit_bits (v hi lo i : Nat) : (bits v hi lo).testBit i = (decide (i < hi + 1 - lo) && v.testBit (lo + i)) := by
  simp [bits, Nat.testBit_mod_two_pow, Nat.testBit_shiftRight]

/-- The field just written reads what was written, cut to its width. -/
theorem bits_setBits (v hi lo x : Nat) (h : lo ≤ hi) : bits (setBits v hi lo x) hi lo = x % 2 ^ (hi + 1 - lo) := by
  apply Nat.eq_of_testBit_eq
  intro i
  rw [testBit_bits, testBit_setBits _ _ _ _ _ h, Nat.testBit_mod_two_pow]
  by_cases hi' : i < hi + 1 - lo
  · have h1 : ¬ lo + i < lo := by omega
    have h2 : lo + i ≤ hi := by omega
    simp [hi', h1, h2]
  · simp [hi']

/-- A field apart from the one written stays. -/
theorem bits_setBits_other (v hi lo x hi' lo' : Nat) (h : lo ≤ hi) (ha : hi < lo' ∨ hi' < lo) :
    bits (setBits v hi lo x) hi' lo' = bits v hi' lo' := by
  apply Nat.eq_of_testBit_eq
  intro i
  rw [testBit_bits, testBit_bits, testBit_setBits _ _ _ _ _ h]
  by_cases hi' : i < hi' + 1 - lo'
  · by_cases h1 : lo' + i < lo
    · simp [h1]
    · have h2 : ¬ lo' + i ≤ hi := by omega
      simp [h1, h2]
  · simp [hi']

theorem setBits_lt (v hi lo x n : Nat) (h : lo ≤ hi) (hn : hi < n) (hv : v < 2 ^ n) : setBits v hi lo x < 2 ^ n := by
  apply Nat.lt_pow_two_of_testBit
  intro i hi'
  have h1 : ¬ i < lo := by omega
  have h2 : ¬ i ≤ hi := by omega
  rw [testBit_setBits _ _ _ _ _ h]
  simp [h1, h2, Nat.testBit_lt_two_pow (Nat.lt_of_lt_of_le hv (Nat.pow_le_pow_right (by omega) hi'))]

theorem bit_bits (v i : Nat) : bits v i i = b2n (bit v i) := by
  apply Nat.eq_of_testBit_eq
  intro j
  rw [testBit_bits]
  have : i + 1 - i = 1 := by omega
  cases j with
  | zero => cases hb : v.testBit i <;> simp [this, b2n, bit, hb]
  | succ j => cases hb : v.testBit i <;> simp [this, b2n, bit, hb, Nat.testBit_succ]

/-! Register words. -/

theorem State.rd_lt (s : State) (p o : Nat) : s.rd p o < 2 ^ 32 := (sget regDefault s.regs (regKey p o)).isLt

theorem regKey_inj {p o q r : Nat} (ho : o < 4096) (hr : r < 4096) (h : regKey p o = regKey q r) : p = q ∧ o = r := by
  simp only [regKey] at h; omega

@[simp] theorem State.rd_wr (s : State) (p o v : Nat) : (s.wr p o v).rd p o = v % 2 ^ 32 := by
  simp [State.rd, State.wr, sget_sput, BitVec.toNat_ofNat]

theorem State.rd_wr_key (s : State) (p o v q r : Nat) (h : regKey q r ≠ regKey p o) : (s.wr p o v).rd q r = s.rd q r := by
  simp only [State.rd, State.wr]
  rw [sget_sput_other _ _ _ _ _ h]

/-- A write leaves every other offset of its page alone. -/
theorem State.rd_wr_off (s : State) (p o v r : Nat) (h : r ≠ o) : (s.wr p o v).rd p r = s.rd p r :=
  s.rd_wr_key p o v p r (by simp only [regKey]; omega)

/-- A write leaves every other page alone. -/
theorem State.rd_wr_page (s : State) (p o v q r : Nat) (ho : o < 4096) (hr : r < 4096) (h : q ≠ p) : (s.wr p o v).rd q r = s.rd q r :=
  s.rd_wr_key p o v q r fun c => h (regKey_inj hr ho c).1

theorem State.wr_regsCanon (s : State) (p o v : Nat) (h : s.regsCanon = true) : (s.wr p o v).regsCanon = true :=
  swf_sput regDefault _ _ _ h

/-! Fields of registers. -/

theorem State.rd_setFld (s : State) (p o hi lo v : Nat) (h : lo ≤ hi) (hh : hi < 32) :
    (s.setFld p o hi lo v).rd p o = setBits (s.rd p o) hi lo v := by
  rw [State.setFld, State.rd_wr, Nat.mod_eq_of_lt (setBits_lt _ _ _ _ _ h hh (s.rd_lt p o))]

/-- The field written reads what was written, cut to its width. -/
theorem State.fld_setFld (s : State) (p o hi lo v : Nat) (h : lo ≤ hi) (hh : hi < 32) :
    (s.setFld p o hi lo v).fld p o hi lo = v % 2 ^ (hi + 1 - lo) := by
  rw [State.fld, s.rd_setFld p o hi lo v h hh, bits_setBits _ _ _ _ h]

/-- A field apart from the one written, in the same word, stays. -/
theorem State.fld_setFld_other (s : State) (p o hi lo v hi' lo' : Nat) (h : lo ≤ hi) (hh : hi < 32) (ha : hi < lo' ∨ hi' < lo) :
    (s.setFld p o hi lo v).fld p o hi' lo' = s.fld p o hi' lo' := by
  rw [State.fld, s.rd_setFld p o hi lo v h hh, bits_setBits_other _ _ _ _ _ _ h ha]; rfl

theorem State.rd_setFld_off (s : State) (p o hi lo v r : Nat) (h : r ≠ o) : (s.setFld p o hi lo v).rd p r = s.rd p r :=
  s.rd_wr_off p o _ r h

theorem State.rd_setFld_page (s : State) (p o hi lo v q r : Nat) (ho : o < 4096) (hr : r < 4096) (h : q ≠ p) :
    (s.setFld p o hi lo v).rd q r = s.rd q r := s.rd_wr_page p o _ q r ho hr h

theorem State.setFld_regsCanon (s : State) (p o hi lo v : Nat) (h : s.regsCanon = true) : (s.setFld p o hi lo v).regsCanon = true :=
  s.wr_regsCanon p o _ h

theorem State.getB_eq (s : State) (p o b : Nat) : b2n (s.getB p o b) = s.fld p o b b := (bit_bits _ _).symm

theorem b2n_inj {a b : Bool} (h : b2n a = b2n b) : a = b := by cases a <;> cases b <;> simp_all [b2n]

theorem b2n_lt (b : Bool) : b2n b < 2 := by cases b <;> simp [b2n]

/-- The bit set reads as set. -/
theorem State.getB_setB (s : State) (p o b : Nat) (v : Bool) (hb : b < 32) : (s.setB p o b v).getB p o b = v := by
  apply b2n_inj
  have e : b + 1 - b = 1 := by omega
  rw [State.getB_eq, State.setB, s.fld_setFld p o b b _ (Nat.le_refl b) hb, e]
  exact Nat.mod_eq_of_lt (b2n_lt v)

/-- Every other bit of the word stays. -/
theorem State.getB_setB_other (s : State) (p o b c : Nat) (v : Bool) (hb : b < 32) (h : c ≠ b) : (s.setB p o b v).getB p o c = s.getB p o c := by
  apply b2n_inj
  rw [State.getB_eq, State.getB_eq, State.setB, s.fld_setFld_other p o b b _ c c (Nat.le_refl b) hb (by omega)]

/-- Noting an event of the present cycle changes no register. -/
@[simp] theorem State.note_rd (s : State) (reg hi lo n full q r : Nat) : (s.note reg hi lo n full).rd q r = s.rd q r := rfl

@[simp] theorem State.note_fld (s : State) (reg hi lo n full q r a b : Nat) : (s.note reg hi lo n full).fld q r a b = s.fld q r a b := rfl

/-- Raising an interrupt flag sets it and leaves the page's other flags (spec/02 R38). -/
theorem State.irq_sets (s : State) (p b : Nat) (hb : b < 32) : (s.irq p b).getB p oIntStatus b = true := s.getB_setB p _ b true hb

theorem State.irq_other (s : State) (p b c : Nat) (hb : b < 32) (h : c ≠ b) : (s.irq p b).getB p oIntStatus c = s.getB p oIntStatus c :=
  s.getB_setB_other p _ b c true hb h

/-- A saturating count takes its sum, held at the largest value of its field. -/
theorem State.fld_bump (s : State) (p o hi lo n : Nat) (h : lo ≤ hi) (hh : hi < 32) :
    (s.bump p o hi lo n).fld p o hi lo = min (2 ^ (hi + 1 - lo) - 1) (s.fld p o hi lo + n) := by
  have h0 := Nat.two_pow_pos (hi + 1 - lo)
  rw [State.bump, State.note_fld, s.fld_setFld p o hi lo _ h hh, Nat.mod_eq_of_lt]
  · rfl
  · simp only [satAdd]; omega

theorem State.fld_bump_other (s : State) (p o hi lo n hi' lo' : Nat) (h : lo ≤ hi) (hh : hi < 32) (ha : hi < lo' ∨ hi' < lo) :
    (s.bump p o hi lo n).fld p o hi' lo' = s.fld p o hi' lo' := s.fld_setFld_other p o hi lo _ hi' lo' h hh ha

/-! The frame in registers. -/

theorem RegsOnly.refl (ps : List Nat) (s : State) : RegsOnly ps s s := fun _ _ _ _ => rfl

theorem RegsOnly.trans {ps : List Nat} {s u v : State} (h : RegsOnly ps s u) (k : RegsOnly ps u v) : RegsOnly ps s v :=
  fun q o hq ho => (k q o hq ho).trans (h q o hq ho)

theorem RegsOnly.mono {ps qs : List Nat} {s u : State} (h : RegsOnly ps s u) (hs : ∀ p ∈ ps, p ∈ qs) : RegsOnly qs s u :=
  fun q o hq ho => h q o (fun c => hq (hs q c)) ho

/-- Equal register maps read alike. -/
theorem RegsOnly.of_regs {s u : State} (h : u.regs = s.regs) (ps : List Nat) : RegsOnly ps s u :=
  fun q o _ _ => by simp only [State.rd, h]

theorem State.wr_regsOnly (s : State) (p o v : Nat) (ps : List Nat) (hp : p ∈ ps) (ho : o < 4096) : RegsOnly ps s (s.wr p o v) :=
  fun q r hq hr => s.rd_wr_page p o v q r ho hr fun c => hq (c ▸ hp)

theorem State.setFld_regsOnly (s : State) (p o hi lo v : Nat) (ps : List Nat) (hp : p ∈ ps) (ho : o < 4096) :
    RegsOnly ps s (s.setFld p o hi lo v) := s.wr_regsOnly p o _ ps hp ho

theorem State.setB_regsOnly (s : State) (p o b : Nat) (v : Bool) (ps : List Nat) (hp : p ∈ ps) (ho : o < 4096) :
    RegsOnly ps s (s.setB p o b v) := s.wr_regsOnly p o _ ps hp ho

theorem State.bump_regsOnly (s : State) (p o hi lo n : Nat) (ps : List Nat) (hp : p ∈ ps) (ho : o < 4096) :
    RegsOnly ps s (s.bump p o hi lo n) := s.wr_regsOnly p o _ ps hp ho

theorem State.irq_regsOnly (s : State) (p b : Nat) (ps : List Nat) (hp : p ∈ ps) : RegsOnly ps s (s.irq p b) :=
  fun q r hq hr => s.setB_regsOnly p _ b true ps hp (by decide) q r hq hr

end Sys2Proof.Machine
end

