-- ==== Sys2Proof/Laws/Run.lean ====
section
/-! SUPPORT. What the shared frame of every meaning does: an ill-formed command, a module held in reset, and a module in which nothing follows of itself. -/

namespace Sys2Proof.Machine

/-- A command whose operands name nothing has no effect (spec/00_scope.md R13; log entry 7). -/
@[simp] theorem run_false (f : State → State) (s : State) : run false f s = .next s := rfl

/-- A module held in reset by its boot ROM does nothing (spec/20 R533). -/
theorem run_held (f : State → State) (s : State) (h : s.bcp.held = true) : run true f s = .next s := by simp [run, h]

/-- A meaning answers a next state, always the one of its effect or the state as it was. -/
theorem run_next (ok : Bool) (f : State → State) (s : State) : run ok f s = .next (if ok && !s.bcp.held then (f s).settle else s) := rfl

/-- A calm module has nothing that follows of itself. -/
theorem State.quiet_of_calm (s : State) (h : s.calm = true) : s.quiet = true := by
  simp only [State.calm, Bool.and_eq_true, Bool.not_eq_true'] at h
  obtain ⟨⟨⟨⟨⟨⟨⟨⟨_, h1⟩, h2⟩, h3⟩, h4⟩, h5⟩, h6⟩, h7⟩, h8⟩ := h
  have hw : s.wakeAsked = false := by
    have : bit (s.rd (pgBcp 5) 0x048) 31 = false := h8
    simp [State.wakeAsked, this]
  simp [State.quiet, h1, h2, h3, h4, h5, h6, h7, hw]

theorem State.not_held_of_calm (s : State) (h : s.calm = true) : s.bcp.held = false := by
  simp only [State.calm, Bool.and_eq_true, Bool.not_eq_true'] at h
  exact h.1.1.1.1.1.1.1.1

/-- In a quiet module nothing follows. -/
@[simp] theorem State.settle_of_quiet (s : State) (h : s.quiet = true) : s.settle = s := by simp [State.settle, h]

/-- A well-formed command that leaves a quiet module has its effect and nothing more. -/
theorem run_of_quiet (f : State → State) (s : State) (h : s.bcp.held = false) (hq : (f s).quiet = true) : run true f s = .next (f s) := by
  simp [run, h, hq]

/-- What a command's effect shows of its run, where it leaves a quiet module. -/
theorem run_of_calm (f : State → State) (s : State) (h : s.calm = true) (hq : (f s).quiet = true) : run true f s = .next (f s) :=
  run_of_quiet f s (s.not_held_of_calm h) hq

/-- Quiet depends on what may follow and on the wake input alone. -/
theorem State.quiet_congr (s u : State) (ht : u.tiles = s.tiles) (hr : u.rope = s.rope) (hb : u.bcp = s.bcp) (hi : u.trkIn = s.trkIn)
    (hg : u.ringWait = s.ringWait) (hl : u.bist = s.bist)
    (hw : u.rd (pgBcp 5) 0x048 = s.rd (pgBcp 5) 0x048) (hs : u.pstate' = s.pstate') : u.quiet = s.quiet := by
  simp only [State.quiet, State.wakeAsked, State.trkInH, ht, hr, hb, hi, hg, hl, hw, hs]

end Sys2Proof.Machine
end

