-- ==== Sys2Proof/Tests/Slice0.lean ====
section
/-! SUPPORT. Tests: for every clause of every statement a state and operands that meet its hypotheses; an ill-formed term for every check; the spec's worked examples. -/

open Sys2Proof Sys2Proof.Machine

section

set_option maxRecDepth 20000
set_option Elab.async false

/-- A running copy with full capabilities in C0 and C1, a DEPTH and stack words. -/
def kcopy (depth : Nat) (file : List (Nat × Nat × Bool)) : KCopy :=
  { run := true, pc := ownBase + 0x100, rsp := 0x1000000, depth := depth, file := file, caps := setAt (setAt (List.replicate 16 {}) 0 Cap.all) 1 Cap.all }

/-- Tile 5 in FORERUNNER with its copy A as given. -/
def inTile (k : KCopy) : State := ((State.reset.wr (pgTile 5) 8 1).setBank (pgEccT 5) 0 { inited := true }).setTile 5 { mode := 3, work := true, copies := [k, {}, {}] }

/-- A bundle without literals of copy A of tile 5. -/
def issue : Issue := { tile := 5, lits := [] }

/-- A module that is a member of a team through its rope port 2. -/
def teamed : State := ((((State.reset.setFld (pgRope 2) 0x044 31 29 4).setFld pgRopeL 0x060 31 29 4).wr pgRopeL 0x058 7).wr pgRopeL 0x05C 0x10000).setTeam 0 { row := [(9, 2)], own := 7 }

/-- A booted module with two keys of every right. -/
def keyed : State := { State.reset with bcp := { State.reset.bcp with booted := true, keys := { right := 4, upd := true } :: { key := some 5, right := 4, upd := true } :: List.replicate 6 {} } }

theorem witness_PageEnable :
    (∃ s : State, ((Instr.pageEnable .basecamp 0x100 7).wf = true) ∧ (s.calm = true) ∧ (pageAt 0x100 = some ((.clu : Kind), 0)) ∧ ((s.pageH 0x100).ctrl = []) ∧ (plainKind (.clu : Kind) = true) ∧ (s.headerOnly (.clu : Kind) 0 = false) ∧ (s.mayWrite .basecamp 0x100 (.clu : Kind) = true) ∧ (s.powered 0x100 = true) ∧ (s.locked 0x100 = false) ∧ ((s.pageH 0x100).resetting = false) ∧ (s.isOff 0x100 = true))
    ∧ (∃ s : State, ((Instr.startUpComplete 0x100 7).wf = true) ∧ (s.calm = true) ∧ (pageAt 0x100 = some ((.clu : Kind), 0)) ∧ (plainKind (.clu : Kind) = true) ∧ (s.busy 0x100 = true) ∧ (s.ready 0x100 = false) ∧ (s.faulted 0x100 = false) ∧ (s.retired 0x100 = false) ∧ ((s.pageH 0x100).resetting = false) ∧ (s.powered 0x100 = true) ∧ (s.enabled 0x100 = true))
    ∧ (∃ s : State, ((Instr.pageDisable .basecamp 0x100 7).wf = true) ∧ (s.calm = true) ∧ (pageAt 0x100 = some ((.clu : Kind), 0)) ∧ ((s.pageH 0x100).ctrl = []) ∧ ((s.upTo 7).unitRuns (.clu : Kind) 0 = false) ∧ (plainKind (.clu : Kind) = true) ∧ (s.mayWrite .basecamp 0x100 (.clu : Kind) = true) ∧ (s.locked 0x100 = false) ∧ ((s.pageH 0x100).resetting = false) ∧ (s.isOff 0x100 = false) ∧ (s.retired 0x100 = false)) :=
    ⟨⟨State.reset, by decide +kernel⟩,
    ⟨((State.reset.wr 0x100 0x00C 1).wr 0x100 8 2), by decide +kernel⟩,
    ⟨((State.reset.wr 0x100 0x00C 1).wr 0x100 8 1), by decide +kernel⟩⟩

theorem witness_PageReset :
    (∃ s : State, ((Instr.pageReset .basecamp 0x100 7).wf = true) ∧ (s.calm = true) ∧ (pageAt 0x100 = some ((.clu : Kind), 0)) ∧ ((s.pageH 0x100).ctrl = []) ∧ (plainBlock (.clu : Kind) = true) ∧ (s.mayWrite .basecamp 0x100 (.clu : Kind) = true) ∧ (s.regsCanon = true) ∧ (s.locked 0x100 = false) ∧ (s.retired 0x100 = false))
    ∧ (∃ s : State, ((Instr.resetComplete 0x100 7).wf = true) ∧ (s.calm = true) ∧ (pageAt 0x100 = some ((.clu : Kind), 0)) ∧ (plainBlock (.clu : Kind) = true) ∧ ((s.pageH 0x100).resetting = true) ∧ (s.busy 0x100 = true) ∧ (s.ready 0x100 = false) ∧ (s.faulted 0x100 = false) ∧ (s.retired 0x100 = false) ∧ (s.enabled 0x100 = false))
    ∧ (∃ s : State, ((Instr.resetComplete 0x100 7).wf = true) ∧ (s.calm = true) ∧ (pageAt 0x100 = some ((.clu : Kind), 0)) ∧ (plainBlock (.clu : Kind) = true) ∧ (s.headerOnly (.clu : Kind) 0 = false) ∧ (s.powered 0x100 = true) ∧ ((s.pageH 0x100).resetting = true) ∧ (s.busy 0x100 = true) ∧ (s.ready 0x100 = false) ∧ (s.faulted 0x100 = false) ∧ (s.retired 0x100 = false) ∧ (s.enabled 0x100 = true)) :=
    ⟨⟨((State.reset.wr 0x100 0x00C 1).wr 0x100 8 1), by decide +kernel⟩,
    ⟨((State.reset.wr 0x100 8 2).setPageH 0x100 { resetting := true }), by decide +kernel⟩,
    ⟨(((State.reset.wr 0x100 0x00C 1).wr 0x100 8 2).setPageH 0x100 { resetting := true }), by decide +kernel⟩⟩

theorem witness_PageFault :
    (∃ s : State, ((Instr.faultDetected 0x100 2 7).wf = true) ∧ (s.calm = true) ∧ (pageAt 0x100 = some ((.clu : Kind), 0)) ∧ (plainBlock (.clu : Kind) = true) ∧ (s.faulted 0x100 = false) ∧ (s.retired 0x100 = false) ∧ ((s.pageH 0x100).resetting = false) ∧ ((s.ready 0x100 || s.busy 0x100) = true) ∧ (s.log.staged.length < 31) ∧ (s.fld (pgBcp 1) 0x048 1 0 ≤ 2))
    ∧ (∃ s : State, ((Instr.blockRecoveryComplete 0x100 7).wf = true) ∧ (s.calm = true) ∧ (pageAt 0x100 = some ((.clu : Kind), 0)) ∧ (plainBlock (.clu : Kind) = true) ∧ (s.faulted 0x100 = true) ∧ (s.retired 0x100 = false) ∧ ((s.pageH 0x100).resetting = false))
    ∧ (∃ s : State, ((Instr.retirement 0x100 2 7).wf = true) ∧ (s.calm = true) ∧ (pageAt 0x100 = some ((.clu : Kind), 0)) ∧ (plainBlock (.clu : Kind) = true) ∧ (s.retired 0x100 = false) ∧ (s.log.staged.length < 31) ∧ (s.fld (pgBcp 1) 0x048 1 0 ≤ 2))
    ∧ (∃ s : State, ((Instr.blockPowerChange 0x100 1 7).wf = true) ∧ (s.calm = true) ∧ (pageAt 0x100 = some ((.clu : Kind), 0)) ∧ (plainBlock (.clu : Kind) = true) ∧ (s.powered 0x100 = true) ∧ (1 < 2) ∧ (s.retired 0x100 = false) ∧ (s.isOff 0x100 = false))
    ∧ (∃ s : State, ((Instr.linkCheckFail 3 1 5).wf = true) ∧ (s.calm = true) ∧ ((s.pageH (pgClu 3)).resetting = false) ∧ (s.retired (pgClu 3) = false) ∧ (s.faulted (pgClu 3) = false) ∧ ((s.ready (pgClu 3) || s.busy (pgClu 3)) = true) ∧ (s.fld (pgClu 3) 0x050 (31 - 16 * 1) (16 - 16 * 1) < 0xFFFF))
    ∧ (∃ s : State, ((Instr.linkCheckPass 3 1 5).wf = true) ∧ (s.calm = true) ∧ ((s.pageH (pgClu 3)).resetting = false) ∧ (clearBits (s.pageH (pgClu 3)).badLinks (2 ^ 1) = 0) ∧ (s.retired (pgClu 3) = false) ∧ (s.faulted (pgClu 3) = true)) :=
    ⟨⟨(State.reset.wr 0x100 8 1), by decide +kernel⟩,
    ⟨(State.reset.wr 0x100 8 4), by decide +kernel⟩,
    ⟨(State.reset.wr 0x100 8 1), by decide +kernel⟩,
    ⟨(State.reset.wr 0x100 8 1), by decide +kernel⟩,
    ⟨(State.reset.wr (pgClu 3) 8 1), by decide +kernel⟩,
    ⟨(((State.reset.wr (pgClu 3) 8 4).wr (pgClu 3) 0x04C 0x80000000).setPageH (pgClu 3) { badLinks := 2 }), by decide +kernel⟩⟩

theorem witness_PageAccess :
    (∃ s : State, ((Instr.pageLock .basecamp 0x100 false 7).wf = true) ∧ (s.calm = true) ∧ (pageAt 0x100 = some ((.clu : Kind), 0)) ∧ ((s.pageH 0x100).ctrl = []) ∧ ((s.upTo 7).unitRuns (.clu : Kind) 0 = false) ∧ (plainKind (.clu : Kind) = true) ∧ (s.mayWrite .basecamp 0x100 (.clu : Kind) = true) ∧ (s.locked 0x100 = false) ∧ ((s.pageH 0x100).resetting = false) ∧ (s.enabled 0x100 = false) ∧ (s.isOff 0x100 = !false) ∧ (s.powered 0x100 = true) ∧ (s.headerOnly (.clu : Kind) 0 = false))
    ∧ (∃ s : State, ((Instr.registerWrite .basecamp 0x100 0x800 4 5 false 7).wf = true) ∧ (s.calm = true) ∧ (pageAt 0x100 = some ((.clu : Kind), 0)) ∧ (plainKind (.clu : Kind) = true) ∧ (s.mayWrite .basecamp 0x100 (.clu : Kind) = true) ∧ (0x800 % 4 = 0) ∧ (0x040 ≤ 0x800) ∧ (s.powered 0x100 = true) ∧ ((s.pageH 0x100).resetting = false) ∧ (pageWord (.clu : Kind) 0 0x800 = none) ∧ (s.fld 0x100 0x018 31 16 < 0xFFFF))
    ∧ (∃ s : State, ((Instr.registerWrite .basecamp 0x100 0x800 4 5 true 7).wf = true) ∧ (s.calm = true) ∧ (pageAt 0x100 = some ((.clu : Kind), 0)) ∧ (s.mayWrite .basecamp 0x100 (.clu : Kind) = true) ∧ (s.fld 0x100 0x01C 7 0 < 0xFF))
    ∧ (∃ s : State, ((Instr.registerWrite .basecamp 0x10 0x024 4 0x90 false 7).wf = true) ∧ (s.calm = true) ∧ (pageAt 0x10 = some ((.pwr : Kind), 0)) ∧ (plainKind (.pwr : Kind) = true) ∧ (s.mayWrite .basecamp 0x10 (.pwr : Kind) = true) ∧ (0x90 < 256) ∧ (s.fld 0x10 0x018 31 16 < 0xFFFF))
    ∧ (∃ s : State, ((Instr.readAndClear .basecamp 0x100 0x018 4 7).wf = true) ∧ (s.calm = true) ∧ (pageAt 0x100 = some ((.clu : Kind), 0)) ∧ ((.clu : Kind) ∉ [Kind.pmc, .ars, .tfe, .frd]) ∧ (s.routePage .basecamp 0x100 = 0x100) ∧ ((s.upTo 7).hotAt (regKey 0x100 0x018) 31 16 .took = 0) ∧ ((s.upTo 7).hotAt (regKey 0x100 0x018) 31 16 .full = 0)) :=
    ⟨⟨State.reset, by decide +kernel⟩,
    ⟨State.reset, by decide +kernel⟩,
    ⟨State.reset, by decide +kernel⟩,
    ⟨State.reset, by decide +kernel⟩,
    ⟨(State.reset.wr 0x100 0x18 0x00031024), by decide +kernel⟩⟩

theorem witness_TrackInputs :
    (∃ s : State, ((Instr.qualifiedEdge 4 9 true).wf = true) ∧ (s.calm = true) ∧ (s.ready (pgTrkIn 4) = true) ∧ (s.quadUses 4 = false) ∧ (s.fld (pgTrkIn 4) 0x040 3 2 = (if true then 0 else 1)) ∧ ((s.trkInH 4).pend < 4094))
    ∧ (∃ s : State, ((Instr.countTransfer 4 20).wf = true) ∧ (s.calm = true) ∧ (s.ready (pgTrkIn 4) = true) ∧ (s.fld (pgXng 2) 0x040 31 29 = 1) ∧ (0 < (s.trkInH 4).pend) ∧ ((s.trkInH 4).pend < 4096) ∧ (s.rd64 (pgTrkIn 4) 0x048 + (s.trkInH 4).pend < 2 ^ 64)) :=
    ⟨⟨(State.reset.wr (pgTrkIn 4) 8 1), by decide +kernel⟩,
    ⟨(((State.reset.wr (pgTrkIn 4) 8 1).wr (pgXng 2) 0x040 0x20000000).setTrkIn 4 { pend := 3, pendStamp := 15 }), by decide +kernel⟩⟩

theorem witness_TrackBroadcast :
    (∃ s : State, ((Instr.broadcast 64 (⟨([] : List (Nat × Nat)), ([3] : List Nat)⟩)).wf = true) ∧ (s.calm = true) ∧ ((match s.lastBcast with | some l => decide (l + 64 ≤ 64) | none => true) = true))
    ∧ (∃ s : State, ((Instr.broadcast 64 (⟨([] : List (Nat × Nat)), ([3] : List Nat)⟩)).wf = true) ∧ (s.calm = true) ∧ ((match s.lastBcast with | some l => decide (l + 64 ≤ 64) | none => true) = true) ∧ ((s.enabled pgRopeL && s.getB pgRopeL 0x080 31 && (64 / 64) % (1024 * 2 ^ s.fld pgRopeL 0x080 30 28) == 0) = false))
    ∧ (∃ s : State, ((Instr.broadcastApply 30).wf = true) ∧ (s.calm = true) ∧ (s.bcast = (1, (List.replicate 64 {} : List BRec)) :: ([] : List (Nat × List BRec))) ∧ (1 + 24 ≤ 30) ∧ ((List.replicate 64 {} : List BRec).length = 64))
    ∧ (∃ s : State, ((Instr.broadcastApply 30).wf = true) ∧ (s.calm = true) ∧ (s.bcast = (1, (List.replicate 64 {} : List BRec)) :: ([] : List (Nat × List BRec))) ∧ (1 + 24 ≤ 30) ∧ ((List.replicate 64 {} : List BRec).length = 64) ∧ (s.arsView.all (fun q => !(q.2.on && s.ready (pgArs (q.1 / 512)))) = true) ∧ (s.wpt.all (fun q => q.2.armT.isNone) = true)) :=
    ⟨⟨State.reset, by decide +kernel⟩,
    ⟨State.reset, by decide +kernel⟩,
    ⟨{ State.reset with bcast := [(1, List.replicate 64 {})] }, by decide +kernel⟩,
    ⟨{ State.reset with bcast := [(1, List.replicate 64 {})] }, by decide +kernel⟩⟩

theorem witness_TrackStates_1 :
    (∃ s : State, ((Instr.gapExceeded 2 30000000000).wf = true) ∧ (s.calm = true) ∧ ((s.trkH 2).st = .locked) ∧ (s.trkCounts 2 = true) ∧ ((s.trkH 2).lastStamp = some 0) ∧ (((s.trkH 2).eval (s.trkKind 2 == 6) 30000000000).2.1 ≠ 0) ∧ (((bits (s.trkH 2).lossR 15 12 : Nat) : Rat) * s.trkStep 2 < secs ((30000000000 : Int) - 0) * max ((s.trkH 2).eval (s.trkKind 2 == 6) 30000000000).2.1 (-((s.trkH 2).eval (s.trkKind 2 == 6) 30000000000).2.1)) ∧ (s.fld (pgTrk 2) 0x098 15 0 < 0xFFFF))
    ∧ (∃ s : State, ((Instr.coastLimit 2 6000000000).wf = true) ∧ (s.calm = true) ∧ ((s.trkH 2).st = .coasting) ∧ ((s.trkH 2).coastT + bits (s.trkH 2).coastR 31 16 * 3000000 ≤ 6000000000) ∧ (s.fld (pgTrk 2) 0x098 31 16 < 0xFFFF))
    ∧ (∃ s : State, ((Instr.stopTime 2 30000000000).wf = true) ∧ (s.calm = true) ∧ ((s.trkH 2).st = .lost) ∧ ((s.trkH 2).lostT + bits (s.trkH 2).lossR 31 16 * 3000000 ≤ 30000000000))
    ∧ (∃ s : State, ((Instr.lineLoss 2 (⟨15000000000, 0, (3 : Int), (1 : Int)⟩)).wf = true) ∧ (s.calm = true) ∧ (s.trkKind 2 = 4) ∧ ((s.trkH 2).st = .locked) ∧ ((3 : Int) < (1 : Int) + (s.trkH 2).lockR - 6) ∧ (((bits (s.trkH 2).lossR 15 12 : Nat) : Rat) ≤ secs ((15000000000 : Int) - 0) * max ((s.trkH 2).eval false 15000000000).2.1 (-((s.trkH 2).eval false 15000000000).2.1)) ∧ (s.fld (pgTrk 2) 0x098 15 0 < 0xFFFF))
    ∧ (∃ s : State, ((Instr.lineLoss 2 (⟨5, 0, (0 : Int), (0 : Int)⟩)).wf = true) ∧ (s.calm = true) ∧ (s.trkKind 2 = 4) ∧ ((s.trkH 2).st = .locked) ∧ (s.lineOut 2 = true) ∧ (s.fld (pgTrk 2) 0x098 15 0 < 0xFFFF))
    ∧ (∃ s : State, ((Instr.lineLoss 2 (⟨5, 0, (7 : Int), (1 : Int)⟩)).wf = true) ∧ (s.calm = true) ∧ (s.lineOut 2 = false) ∧ (((1 : Int) + (s.trkH 2).lockR - 6 ≤ (7 : Int) ∨ secs ((5 : Int) - 0) * max ((s.trkH 2).eval false 5).2.1 (-((s.trkH 2).eval false 5).2.1) < ((bits (s.trkH 2).lossR 15 12 : Nat) : Rat)))) :=
    ⟨⟨(State.reset.setTrk 2 { st := .locked, lastStamp := some 0, fit := some (0, 0, 1, 0) }), by decide +kernel⟩,
    ⟨(State.reset.setTrk 2 { st := .coasting }), by decide +kernel⟩,
    ⟨(State.reset.setTrk 2 { st := .lost }), by decide +kernel⟩,
    ⟨((State.reset.setTrk 2 { st := .locked, fit := some (0, 0, 1, 0) }).wr (pgTrk 2) 0x040 0x40000002), by decide +kernel⟩,
    ⟨((State.reset.setTrk 2 { st := .locked, fc := 100, loopHz := some 200 }).wr (pgTrk 2) 0x040 0x40000002), by decide +kernel⟩,
    ⟨((State.reset.setTrk 2 { st := .locked, fit := some (0, 0, 1, 0) }).wr (pgTrk 2) 0x040 0x40000002), by decide +kernel⟩⟩

theorem witness_TrackStates_2 :
    (∃ s : State, ((Instr.tachoScan 2 30000000000 ([0,0,0,0,0,30,0,0,0,0,0,0,0,0,0,0] : List Int)).wf = true) ∧ (s.calm = true) ∧ (s.trkKind 2 = 4) ∧ (((s.trkH 2).st = .acquiring ∨ (s.trkH 2).st = .lost)) ∧ (bits (s.trkH (s.trkParent 2)).brec.tq 2 0 = 2) ∧ (([0,0,0,0,0,30,0,0,0,0,0,0,0,0,0,0] : List Int).length = 16) ∧ ((s.trkH 2).scanT = some 0) ∧ (8 ≤ secs ((30000000000 : Int) - 0) * s.trkHalf 2))
    ∧ (∃ s : State, ((Instr.tachoLock 2 5 (⟨65536, (List.replicate 16 4096 : List Int)⟩)).wf = true) ∧ (s.calm = true) ∧ (s.trkKind 2 = 4) ∧ (((s.trkH 2).st = .acquiring ∨ (s.trkH 2).st = .lost)) ∧ ((s.trkH 2).loopHz.isSome = true) ∧ ((s.trkH 2).scanT.isSome = true) ∧ (phaseHeld (List.replicate 16 4096 : List Int) = true) ∧ ((65536 : Rat) / 65536 - (s.trkH 2).loopAt ≤ (2 : Rat) ^ s.fld (pgTrk 2) 0x058 4 2 / 2) ∧ ((s.trkH 2).loopAt - (65536 : Rat) / 65536 ≤ (2 : Rat) ^ s.fld (pgTrk 2) 0x058 4 2 / 2)) :=
    ⟨⟨(((State.reset.setTrk 2 { st := .acquiring, fc := 1000, scanT := some 0 }).setTrk 0 { st := .locked, brec := { tq := 2, rate := 0x3F800000 } }).wr (pgTrk 2) 0x040 0x40000002), by decide +kernel⟩,
    ⟨((State.reset.setTrk 2 { st := .acquiring, loopHz := some 1, loopAt := 1, scanT := some 0 }).wr (pgTrk 2) 0x040 0x40000002), by decide +kernel⟩⟩

theorem witness_Waypoints_1 :
    (∃ s : State, ((Instr.wptArm .basecamp 2 5 7 9).wf = true) ∧ (s.calm = true) ∧ (s.wptArmed 2 5 = false) ∧ ((s.wptH 2 5).fireT ≠ some (max s.now 9)) ∧ (s.powered (pgWpt 2 5) = true) ∧ ((s.pageH (pgWpt 2 5)).resetting = false))
    ∧ (∃ s : State, ((Instr.wptArm .basecamp 2 5 7 9).wf = true) ∧ (s.calm = true) ∧ (s.wptArmed 2 5 = true) ∧ (s.powered (pgWpt 2 5) = true) ∧ ((s.pageH (pgWpt 2 5)).resetting = false))
    ∧ (∃ s : State, ((Instr.waypointFire 2 5 9).wf = true) ∧ (s.calm = true) ∧ (s.wptCalm 2 5 9 = true) ∧ ((s.wptTurn 2 5 9).calm = true) ∧ (((s.wptTurn 2 5 9).wptH 2 5).armT = none) ∧ (((s.wptTurn 2 5 9).wptH 2 5).wrT ≠ some 9) ∧ ((s.wptTurn 2 5 9).wptLive 2 5 = true) ∧ ((s.wptTurn 2 5 9).wptMet 2 5 9 = true) ∧ (((s.wptTurn 2 5 9).rd64 (pgWpt 2 5) (wptOff 5 0x10) = 0 ∨ (s.wptTurn 2 5 9).wptDir 2 5 = 2)) ∧ ((s.wptTurn 2 5 9).fld (pgWpt 2 5) (wptOff 5 8) 28 26 ≠ 5))
    ∧ (∃ s : State, ((Instr.waypointFire 2 5 9).wf = true) ∧ (s.calm = true) ∧ (s.wptCalm 2 5 9 = true) ∧ ((s.wptTurn 2 5 9).calm = true) ∧ (((s.wptTurn 2 5 9).wptH 2 5).armT = none) ∧ (((s.wptTurn 2 5 9).wptH 2 5).wrT ≠ some 9) ∧ ((s.wptTurn 2 5 9).wptLive 2 5 = true) ∧ ((s.wptTurn 2 5 9).wptMet 2 5 9 = true) ∧ ((s.wptTurn 2 5 9).wptDir 2 5 = 0) ∧ (0 < (s.wptTurn 2 5 9).rd64 (pgWpt 2 5) (wptOff 5 0x10)) ∧ ((s.wptTurn 2 5 9).rd64 (pgWpt 2 5) (wptOff 5 0x10) ≤ 2 ^ 63) ∧ ((s.wptTurn 2 5 9).fld (pgWpt 2 5) (wptOff 5 8) 28 26 ≠ 5))
    ∧ (∃ s : State, ((Instr.waypointFire 2 5 9).wf = true) ∧ (s.calm = true) ∧ (s.wptCalm 2 5 9 = true) ∧ ((s.wptTurn 2 5 9).calm = true) ∧ (((s.wptTurn 2 5 9).wptH 2 5).armT = none) ∧ (((s.wptTurn 2 5 9).wptH 2 5).wrT ≠ some 9) ∧ ((s.wptTurn 2 5 9).wptLive 2 5 = true) ∧ ((s.wptTurn 2 5 9).wptMet 2 5 9 = true) ∧ ((s.wptTurn 2 5 9).wptDir 2 5 = 1) ∧ (0 < (s.wptTurn 2 5 9).rd64 (pgWpt 2 5) (wptOff 5 0x10)) ∧ ((s.wptTurn 2 5 9).rd64 (pgWpt 2 5) (wptOff 5 0x10) < 2 ^ 63) ∧ ((s.wptTurn 2 5 9).fld (pgWpt 2 5) (wptOff 5 8) 28 26 ≠ 5))
    ∧ (∃ s : State, ((Instr.waypointFire 2 5 9).wf = true) ∧ (s.calm = true) ∧ (s.wptCalm 2 5 9 = true) ∧ ((s.wptTurn 2 5 9).calm = true) ∧ (((s.wptTurn 2 5 9).wptH 2 5).armT = none) ∧ (((s.wptTurn 2 5 9).wptH 2 5).wrT ≠ some 9) ∧ ((s.wptTurn 2 5 9).wptLive 2 5 = true) ∧ ((s.wptTurn 2 5 9).wptMet 2 5 9 = true) ∧ ((s.wptTurn 2 5 9).fld (pgWpt 2 5) (wptOff 5 8) 28 26 = 0)) :=
    ⟨⟨State.reset, by decide +kernel⟩,
    ⟨((State.reset.wr (pgWpt 2 5) 8 1).wr (pgWpt 2 5) (wptOff 5 8) (2 ^ 31)), by decide +kernel⟩,
    ⟨((State.reset.wr (pgWpt 2 5) 8 1).wr (pgWpt 2 5) (wptOff 5 8) (2 ^ 31)), by decide +kernel⟩,
    ⟨((State.reset.wr (pgWpt 2 5) 8 1).wr (pgWpt 2 5) (wptOff 5 8) (2 ^ 31)).wr (pgWpt 2 5) (wptOff 5 0x10) (2), by decide +kernel⟩,
    ⟨(((State.reset.wr (pgWpt 2 5) 8 1).wr (pgWpt 2 5) (wptOff 5 8) (2 ^ 31)).wr (pgWpt 2 5) (wptOff 5 0x10) (2)).wr (pgWpt 2 5) (wptOff 5 8) (2 ^ 31 + 2 ^ 29), by decide +kernel⟩,
    ⟨((State.reset.wr (pgWpt 2 5) 8 1).wr (pgWpt 2 5) (wptOff 5 8) (2 ^ 31)), by decide +kernel⟩⟩

theorem witness_Waypoints_2 :
    (∃ s : State, ((Instr.waypointFire 2 5 9).wf = true) ∧ (s.calm = true) ∧ (s.wptCalm 2 5 9 = true) ∧ ((s.wptTurn 2 5 9).calm = true) ∧ (((s.wptTurn 2 5 9).wptH 2 5).armT = none) ∧ (((s.wptTurn 2 5 9).wptH 2 5).wrT ≠ some 9) ∧ ((s.wptTurn 2 5 9).wptLive 2 5 = true) ∧ ((s.wptTurn 2 5 9).wptMet 2 5 9 = true) ∧ ((s.wptTurn 2 5 9).fld (pgWpt 2 5) (wptOff 5 8) 28 26 = 1) ∧ ((s.wptTurn 2 5 9).workTile (8 * 2 + (s.wptTurn 2 5 9).fld (pgWpt 2 5) (wptOff 5 8) 25 23) = (8 * 2 + (s.wptTurn 2 5 9).fld (pgWpt 2 5) (wptOff 5 8) 25 23)) ∧ ((s.wptTurn 2 5 9).retired (pgTile (8 * 2 + (s.wptTurn 2 5 9).fld (pgWpt 2 5) (wptOff 5 8) 25 23)) = false) ∧ (((s.wptTurn 2 5 9).tileH (8 * 2 + (s.wptTurn 2 5 9).fld (pgWpt 2 5) (wptOff 5 8) 25 23)).rq.length < 32))
    ∧ (∃ s : State, ((Instr.waypointFire 2 5 9).wf = true) ∧ (s.calm = true) ∧ (s.wptCalm 2 5 9 = true) ∧ ((s.wptTurn 2 5 9).calm = true) ∧ (((s.wptTurn 2 5 9).wptH 2 5).armT = none) ∧ (((s.wptTurn 2 5 9).wptH 2 5).wrT ≠ some 9) ∧ ((s.wptTurn 2 5 9).wptLive 2 5 = true) ∧ ((s.wptTurn 2 5 9).wptMet 2 5 9 = true) ∧ ((s.wptTurn 2 5 9).fld (pgWpt 2 5) (wptOff 5 8) 28 26 = 1) ∧ ((s.wptTurn 2 5 9).workTile (8 * 2 + (s.wptTurn 2 5 9).fld (pgWpt 2 5) (wptOff 5 8) 25 23) = (8 * 2 + (s.wptTurn 2 5 9).fld (pgWpt 2 5) (wptOff 5 8) 25 23)) ∧ ((s.wptTurn 2 5 9).retired (pgTile (8 * 2 + (s.wptTurn 2 5 9).fld (pgWpt 2 5) (wptOff 5 8) 25 23)) = false) ∧ (32 ≤ ((s.wptTurn 2 5 9).tileH (8 * 2 + (s.wptTurn 2 5 9).fld (pgWpt 2 5) (wptOff 5 8) 25 23)).rq.length))
    ∧ (∃ s : State, ((Instr.waypointFire 2 5 9).wf = true) ∧ (s.calm = true) ∧ (s.wptCalm 2 5 9 = true) ∧ ((s.wptTurn 2 5 9).calm = true) ∧ (((s.wptTurn 2 5 9).wptH 2 5).armT = none) ∧ (((s.wptTurn 2 5 9).wptH 2 5).wrT ≠ some 9) ∧ ((s.wptTurn 2 5 9).wptLive 2 5 = true) ∧ ((s.wptTurn 2 5 9).wptMet 2 5 9 = true) ∧ ((s.wptTurn 2 5 9).fld (pgWpt 2 5) (wptOff 5 8) 28 26 = 2))
    ∧ (∃ s : State, ((Instr.waypointFire 2 5 9).wf = true) ∧ (s.calm = true) ∧ (s.wptCalm 2 5 9 = true) ∧ ((s.wptTurn 2 5 9).calm = true) ∧ (((s.wptTurn 2 5 9).wptH 2 5).armT = none) ∧ (((s.wptTurn 2 5 9).wptH 2 5).wrT ≠ some 9) ∧ ((s.wptTurn 2 5 9).wptLive 2 5 = true) ∧ ((s.wptTurn 2 5 9).wptMet 2 5 9 = true) ∧ ((s.wptTurn 2 5 9).fld (pgWpt 2 5) (wptOff 5 8) 28 26 = 3))
    ∧ (∃ s : State, ((Instr.waypointFire 2 5 9).wf = true) ∧ (s.calm = true) ∧ (s.wptCalm 2 5 9 = true) ∧ ((s.wptTurn 2 5 9).calm = true) ∧ (((s.wptTurn 2 5 9).wptH 2 5).armT = none) ∧ (((s.wptTurn 2 5 9).wptH 2 5).wrT ≠ some 9) ∧ ((s.wptTurn 2 5 9).wptLive 2 5 = true) ∧ ((s.wptTurn 2 5 9).wptMet 2 5 9 = true) ∧ ((s.wptTurn 2 5 9).fld (pgWpt 2 5) (wptOff 5 8) 28 26 = 4))
    ∧ (∃ s : State, ((Instr.waypointFire 2 5 9).wf = true) ∧ (s.calm = true) ∧ (s.wptCalm 2 5 9 = true) ∧ ((s.wptTurn 2 5 9).calm = true) ∧ (((s.wptTurn 2 5 9).wptH 2 5).armT = none) ∧ (((s.wptTurn 2 5 9).wptH 2 5).wrT ≠ some 9) ∧ ((s.wptTurn 2 5 9).wptLive 2 5 = true) ∧ ((s.wptTurn 2 5 9).wptMet 2 5 9 = true) ∧ ((s.wptTurn 2 5 9).fld (pgWpt 2 5) (wptOff 5 8) 28 26 = 5) ∧ (s.pstate' = 2)) :=
    ⟨⟨((State.reset.wr (pgWpt 2 5) 8 1).wr (pgWpt 2 5) (wptOff 5 8) (2 ^ 31 + 1 * 2 ^ 26)), by decide +kernel⟩,
    ⟨(((State.reset.wr (pgWpt 2 5) 8 1).wr (pgWpt 2 5) (wptOff 5 8) (2 ^ 31 + 1 * 2 ^ 26))).setTile 16 { rq := List.replicate 32 ⟨0, 0⟩ }, by decide +kernel⟩,
    ⟨((State.reset.wr (pgWpt 2 5) 8 1).wr (pgWpt 2 5) (wptOff 5 8) (2 ^ 31 + 2 * 2 ^ 26)), by decide +kernel⟩,
    ⟨((State.reset.wr (pgWpt 2 5) 8 1).wr (pgWpt 2 5) (wptOff 5 8) (2 ^ 31 + 3 * 2 ^ 26)), by decide +kernel⟩,
    ⟨((State.reset.wr (pgWpt 2 5) 8 1).wr (pgWpt 2 5) (wptOff 5 8) (2 ^ 31 + 4 * 2 ^ 26)), by decide +kernel⟩,
    ⟨(((State.reset.wr (pgWpt 2 5) 8 1).wr (pgWpt 2 5) (wptOff 5 8) (2 ^ 31 + 5 * 2 ^ 26))).setPstate 2, by decide +kernel⟩⟩

theorem witness_Waypoints_3 :
    (∃ s : State, ((Instr.waypointFire 2 5 9).wf = true) ∧ (s.calm = true) ∧ (s.wptCalm 2 5 9 = true) ∧ (((s.wptTurn 2 5 9).wptH 2 5).wrT = some 9) ∧ (((s.wptTurn 2 5 9).wptH 2 5).fireT ≠ some 9) ∧ (((s.wptTurn 2 5 9).wptPut 2 5 ((s.wptTurn 2 5 9).wptH 2 5).old).wptLive 2 5 = true) ∧ (((s.wptTurn 2 5 9).wptPut 2 5 ((s.wptTurn 2 5 9).wptH 2 5).old).wptMet 2 5 9 = true) ∧ (((s.wptTurn 2 5 9).wptPut 2 5 ((s.wptTurn 2 5 9).wptH 2 5).old).fld (pgWpt 2 5) (wptOff 5 8) 28 26 = 0))
    ∧ (∃ s : State, ((Instr.deadlineFire 2 5 9000).wf = true) ∧ (s.calm = true) ∧ (s.wptCalm 2 5 9000 = true) ∧ ((s.wptTurn 2 5 9000).calm = true) ∧ (((s.wptTurn 2 5 9000).wptH 2 5).armT = none) ∧ (((s.wptTurn 2 5 9000).wptH 2 5).wrT ≠ some 9000) ∧ ((s.wptTurn 2 5 9000).wptLive 2 5 = true) ∧ ((s.wptTurn 2 5 9000).wptMet 2 5 9000 = false) ∧ ((s.wptTurn 2 5 9000).wptOver 2 5 9000 = true) ∧ ((s.wptTurn 2 5 9000).fld (pgWpt 2 5) (wptOff 5 8) 28 26 ≠ 5)) :=
    ⟨⟨((State.reset.wr (pgWpt 2 5) 8 1).wr (pgWpt 2 5) (wptOff 5 8) (2 ^ 31)).setWpt 2 5 { wrT := some 9, old := [0, 0, 2 ^ 31, 0, 0, 0, 0] }, by decide +kernel⟩,
    ⟨(((State.reset.wr (pgWpt 2 5) 8 1).wr (pgWpt 2 5) (wptOff 5 8) (2 ^ 31)).wr (pgWpt 2 5) (wptOff 5 0) (9)).wr (pgWpt 2 5) (wptOff 5 0x1C) 1, by decide +kernel⟩⟩

theorem witness_PortPower_1 :
    (∃ s : State, ((Instr.powerApplied 3 4 200 999 true 0).wf = true) ∧ (s.calm = true) ∧ (s.pstate 3 = 1) ∧ ((s.portH 3).detect = true) ∧ (s.getB (pgSpt 3) 0x044 15 = true) ∧ (s.getB (pgSpt 3) 0x048 1 = false) ∧ (true = true) ∧ (s.spwrLow = false) ∧ ((s.upTo 0).powerRoom = true) ∧ (s.busy (pgSpt 3) = true))
    ∧ (∃ s : State, ((Instr.powerApplied 3 4 200 999 true 0).wf = true) ∧ (s.calm = true) ∧ (s.pstate 3 ≠ 1) ∧ ((s.portH 3).detect = true) ∧ (s.getB (pgSpt 3) 0x044 15 = true) ∧ (s.getB (pgSpt 3) 0x048 1 = false) ∧ (true = true) ∧ (s.spwrLow = false) ∧ ((s.upTo 0).powerRoom = true))
    ∧ (∃ s : State, ((Instr.powerApplied 3 0 240 9 false 0).wf = true) ∧ (s.calm = true) ∧ ((s.portH 3).detect = true) ∧ (s.getB (pgSpt 3) 0x044 15 = true) ∧ (s.getB (pgSpt 3) 0x048 1 = false) ∧ (false = false ∨ s.spwrLow = true))
    ∧ (∃ s : State, ((Instr.powerApplied 3 0 240 9 true 0).wf = true) ∧ (s.calm = true) ∧ (true = true) ∧ (s.spwrLow = false) ∧ ((s.upTo 0).powerRoom = false))
    ∧ (∃ s : State, ((Instr.powerRefused 3 0).wf = true) ∧ (s.calm = true) ∧ ((s.portH 3).detect = true))
    ∧ (∃ s : State, ((Instr.powerRetry 3 5).wf = true) ∧ (s.calm = true) ∧ ((s.portH 3).retryAt = some 5) ∧ (5 ≤ 5)) :=
    ⟨⟨((((State.reset.wr (pgSpt 3) 0x06C 16777216).wr (pgSpt 3) 8 2).wr (pgSpt 3) 68 32868).setPort 3 { detect := true }), by decide +kernel⟩,
    ⟨((((State.reset.wr (pgSpt 3) 0x06C 33554432).wr (pgSpt 3) 8 2).wr (pgSpt 3) 68 32868).setPort 3 { detect := true }), by decide +kernel⟩,
    ⟨((((State.reset.wr (pgSpt 3) 0x06C 16777216).wr (pgSpt 3) 8 2).wr (pgSpt 3) 68 32868).setPort 3 { detect := true }), by decide +kernel⟩,
    ⟨{ (((State.reset.wr (pgSpt 3) 0x06C 16777216).wr (pgSpt 3) 8 2).wr (pgSpt 3) 68 32868).setPort 3 { detect := true } with portPower := List.replicate 16 0 }, by decide +kernel⟩,
    ⟨({ (State.reset.wr (pgSpt 3) 0x06C 16777216) with spwrLow := true }.setPort 3 { detect := true }), by decide +kernel⟩,
    ⟨(((State.reset.wr (pgSpt 3) 0x06C 35651584).wr (pgSpt 3) 68 32868).setPort 3 { retryAt := some 5 }), by decide +kernel⟩⟩

theorem witness_PortPower_2 :
    (∃ s : State, ((Instr.overload 3 5).wf = true) ∧ (s.calm = true) ∧ (s.pstate 3 ≠ 0) ∧ (s.getB (pgSpt 3) 0x048 0 = true) ∧ (((s.portH 3).overloads.filter fun x => decide (max s.now 5 < x + 30000000000)).length < 2))
    ∧ (∃ s : State, ((Instr.overload 3 5).wf = true) ∧ (s.calm = true) ∧ (s.pstate 3 ≠ 0) ∧ (s.getB (pgSpt 3) 0x048 0 = true) ∧ (s.retired (pgSpt 3) = false) ∧ (s.faulted (pgSpt 3) = false) ∧ ((s.ready (pgSpt 3) || s.busy (pgSpt 3)) = true) ∧ (2 ≤ ((s.portH 3).overloads.filter fun x => decide (max s.now 5 < x + 30000000000)).length))
    ∧ (∃ s : State, ((Instr.overload 3 5).wf = true) ∧ (s.calm = true) ∧ (s.pstate 3 ≠ 0) ∧ (s.getB (pgSpt 3) 0x048 0 = true) ∧ (s.retired (pgSpt 3) = false) ∧ (s.faulted (pgSpt 3) = true) ∧ (2 ≤ ((s.portH 3).overloads.filter fun x => decide (max s.now 5 < x + 30000000000)).length)) :=
    ⟨⟨((State.reset.wr (pgSpt 3) 0x06C 35651584).wr (pgSpt 3) 72 1), by decide +kernel⟩,
    ⟨((((State.reset.wr (pgSpt 3) 0x06C 35651584).wr (pgSpt 3) 72 1).wr (pgSpt 3) 8 2).setPort 3 { overloads := [3, 4] }), by decide +kernel⟩,
    ⟨((((State.reset.wr (pgSpt 3) 0x06C 35651584).wr (pgSpt 3) 72 1).wr (pgSpt 3) 8 4).setPort 3 { overloads := [3, 4] }), by decide +kernel⟩⟩

theorem witness_PortLink_1 :
    (∃ s : State, ((Instr.linkUp 3 0 0 0).wf = true) ∧ (s.calm = true) ∧ (s.pstate 3 = 2) ∧ (s.isNode 3 = false) ∧ (s.linkModes 3 0 0 = some (0, 0)))
    ∧ (∃ s : State, ((Instr.linkUp 3 0 0 0).wf = true) ∧ (s.calm = true) ∧ (s.pstate 3 = 2) ∧ (s.isNode 3 = true) ∧ (s.linkModes 3 0 0 = some (0, 0)))
    ∧ (∃ s : State, ((Instr.linkDown 3 7).wf = true) ∧ (s.calm = true) ∧ (3 ≤ s.pstate 3) ∧ (s.pstate 3 ≤ 5) ∧ (s.retired (pgSpt 3) = false) ∧ ((s.pageH (pgSpt 3)).resetting = false) ∧ ((s.ready (pgSpt 3) || s.busy (pgSpt 3)) = true))
    ∧ (∃ s : State, ((Instr.linkDown 3 7).wf = true) ∧ (s.calm = true) ∧ (s.pstate 3 < 3 ∨ 5 < s.pstate 3))
    ∧ (∃ s : State, ((Instr.trainingTimeout 3 15000000000).wf = true) ∧ (s.calm = true) ∧ (s.pstate 3 = 2) ∧ ((s.portH 3).tEnter + 15000000000 ≤ 15000000000))
    ∧ (∃ s : State, ((Instr.attachTimeout 3 300000000).wf = true) ∧ (s.calm = true) ∧ (s.pstate 3 = 3) ∧ (s.isNode 3 = false) ∧ ((s.portH 3).tQuery + 300000000 ≤ 300000000) ∧ ((s.portH 3).queries < 10)) :=
    ⟨⟨(((State.reset.wr (pgSpt 3) 0x06C 33554432).wr (pgSpt 3) 8 2).wr (pgSpt 3) 64 2293563392), by decide +kernel⟩,
    ⟨((((State.reset.wr (pgSpt 3) 0x06C 33554432).wr (pgSpt 3) 0x040 0x88B52800).wr (pgSpt 3) 8 2).wr (pgSpt 3) 64 2293565440), by decide +kernel⟩,
    ⟨(((State.reset.wr (pgSpt 3) 0x06C 85983232).wr (pgSpt 3) 8 1).wr (pgSpt 3) 104 77), by decide +kernel⟩,
    ⟨(State.reset.wr (pgSpt 3) 0x06C 35651584), by decide +kernel⟩,
    ⟨(State.reset.wr (pgSpt 3) 0x06C 35651584), by decide +kernel⟩,
    ⟨(State.reset.wr (pgSpt 3) 0x06C 52428800), by decide +kernel⟩⟩

theorem witness_PortLink_2 :
    (∃ s : State, ((Instr.attachTimeout 3 300000000).wf = true) ∧ (s.calm = true) ∧ (s.pstate 3 = 3) ∧ (s.isNode 3 = false) ∧ ((s.portH 3).tQuery + 300000000 ≤ 300000000) ∧ (10 ≤ (s.portH 3).queries) ∧ (s.retired (pgSpt 3) = false) ∧ ((s.pageH (pgSpt 3)).resetting = false) ∧ ((s.faulted (pgSpt 3) || s.ready (pgSpt 3) || s.busy (pgSpt 3)) = true))
    ∧ (∃ s : State, ((Instr.configuringTimeout 3 6000000000).wf = true) ∧ (s.calm = true) ∧ (s.pstate 3 = 4) ∧ ((s.portH 3).tEnter + 6000000000 ≤ 6000000000) ∧ (s.retired (pgSpt 3) = false) ∧ ((s.pageH (pgSpt 3)).resetting = false) ∧ ((s.faulted (pgSpt 3) || s.ready (pgSpt 3) || s.busy (pgSpt 3)) = true))
    ∧ (∃ s : State, ((Instr.nodeSilent 3 1500000000).wf = true) ∧ (s.calm = true) ∧ (s.pstate 3 = 5) ∧ (s.isNode 3 = false) ∧ ((s.portH 3).statusT + 1500000000 ≤ 1500000000) ∧ (s.retired (pgSpt 3) = false) ∧ ((s.pageH (pgSpt 3)).resetting = false) ∧ ((s.faulted (pgSpt 3) || s.ready (pgSpt 3) || s.busy (pgSpt 3)) = true)) :=
    ⟨⟨(((State.reset.wr (pgSpt 3) 0x06C 52428800).wr (pgSpt 3) 8 2).setPort 3 { queries := 10 }), by decide +kernel⟩,
    ⟨((State.reset.wr (pgSpt 3) 0x06C 69206016).wr (pgSpt 3) 8 2), by decide +kernel⟩,
    ⟨((State.reset.wr (pgSpt 3) 0x06C 85983232).wr (pgSpt 3) 8 1), by decide +kernel⟩⟩

theorem witness_PortRecords_1 :
    (∃ s : State, ((Instr.sample 3 5000 ((let r : OspRec := { flags := 0, seq := 0, arg := 0x63, body := (List.replicate 20 0), crc := 0, before := [0x10, 0, 0, 0] }; { r with crc := ospCrc 0 1 r }) : OspRec)).wf = true) ∧ (s.calm = true) ∧ ((s.portH 3).chans.length = 4) ∧ (((s.upTo 5000).recvCheck 3 0x01 true ((let r : OspRec := { flags := 0, seq := 0, arg := 0x63, body := (List.replicate 20 0), crc := 0, before := [0x10, 0, 0, 0] }; { r with crc := ospCrc 0 1 r }) : OspRec)).1 = true) ∧ ((((s.upTo 5000).recvCheck 3 0x01 true ((let r : OspRec := { flags := 0, seq := 0, arg := 0x63, body := (List.replicate 20 0), crc := 0, before := [0x10, 0, 0, 0] }; { r with crc := ospCrc 0 1 r }) : OspRec)).2.police 3 (((let r : OspRec := { flags := 0, seq := 0, arg := 0x63, body := (List.replicate 20 0), crc := 0, before := [0x10, 0, 0, 0] }; { r with crc := ospCrc 0 1 r }) : OspRec).body.length + 12)).1 = true) ∧ ((s.portH 3).cfg.bind (fun c => matchGroup c (bits ((let r : OspRec := { flags := 0, seq := 0, arg := 0x63, body := (List.replicate 20 0), crc := 0, before := [0x10, 0, 0, 0] }; { r with crc := ospCrc 0 1 r }) : OspRec).arg 3 0) (bits ((let r : OspRec := { flags := 0, seq := 0, arg := 0x63, body := (List.replicate 20 0), crc := 0, before := [0x10, 0, 0, 0] }; { r with crc := ospCrc 0 1 r }) : OspRec).arg 7 4) (((let r : OspRec := { flags := 0, seq := 0, arg := 0x63, body := (List.replicate 20 0), crc := 0, before := [0x10, 0, 0, 0] }; { r with crc := ospCrc 0 1 r }) : OspRec).body.length + 12) (bodyNum ((let r : OspRec := { flags := 0, seq := 0, arg := 0x63, body := (List.replicate 20 0), crc := 0, before := [0x10, 0, 0, 0] }; { r with crc := ospCrc 0 1 r }) : OspRec).body 0 6)) = some 1) ∧ ((s.portH 3).outside + (((let r : OspRec := { flags := 0, seq := 0, arg := 0x63, body := (List.replicate 20 0), crc := 0, before := [0x10, 0, 0, 0] }; { r with crc := ospCrc 0 1 r }) : OspRec).body.length + 12) ≤ 65280) ∧ ((s.portH 3).inReserve ≤ 128) ∧ ((s.portH 3).chans.all (fun c => c.loss.isEmpty) = true))
    ∧ (∃ s : State, ((Instr.sample 3 5000 ((let r : OspRec := { flags := 0, seq := 0, arg := 0x62, body := (List.replicate 16 0), crc := 0, before := [0x10, 0, 0, 0] }; { r with crc := ospCrc 0 1 r }) : OspRec)).wf = true) ∧ (s.calm = true) ∧ (1 < 4) ∧ ((s.portH 3).chans.length = 4) ∧ (((s.upTo 5000).recvCheck 3 0x01 true ((let r : OspRec := { flags := 0, seq := 0, arg := 0x62, body := (List.replicate 16 0), crc := 0, before := [0x10, 0, 0, 0] }; { r with crc := ospCrc 0 1 r }) : OspRec)).1 = true) ∧ ((((s.upTo 5000).recvCheck 3 0x01 true ((let r : OspRec := { flags := 0, seq := 0, arg := 0x62, body := (List.replicate 16 0), crc := 0, before := [0x10, 0, 0, 0] }; { r with crc := ospCrc 0 1 r }) : OspRec)).2.police 3 (((let r : OspRec := { flags := 0, seq := 0, arg := 0x62, body := (List.replicate 16 0), crc := 0, before := [0x10, 0, 0, 0] }; { r with crc := ospCrc 0 1 r }) : OspRec).body.length + 12)).1 = true) ∧ (bits ((let r : OspRec := { flags := 0, seq := 0, arg := 0x62, body := (List.replicate 16 0), crc := 0, before := [0x10, 0, 0, 0] }; { r with crc := ospCrc 0 1 r }) : OspRec).arg 3 0 = 2 ^ 1) ∧ ((s.portH 3).cfg.bind (fun c => matchGroup c (bits ((let r : OspRec := { flags := 0, seq := 0, arg := 0x62, body := (List.replicate 16 0), crc := 0, before := [0x10, 0, 0, 0] }; { r with crc := ospCrc 0 1 r }) : OspRec).arg 3 0) (bits ((let r : OspRec := { flags := 0, seq := 0, arg := 0x62, body := (List.replicate 16 0), crc := 0, before := [0x10, 0, 0, 0] }; { r with crc := ospCrc 0 1 r }) : OspRec).arg 7 4) (((let r : OspRec := { flags := 0, seq := 0, arg := 0x62, body := (List.replicate 16 0), crc := 0, before := [0x10, 0, 0, 0] }; { r with crc := ospCrc 0 1 r }) : OspRec).body.length + 12) (bodyNum ((let r : OspRec := { flags := 0, seq := 0, arg := 0x62, body := (List.replicate 16 0), crc := 0, before := [0x10, 0, 0, 0] }; { r with crc := ospCrc 0 1 r }) : OspRec).body 0 6)) = some 1) ∧ ((s.portH 3).outside + (((let r : OspRec := { flags := 0, seq := 0, arg := 0x62, body := (List.replicate 16 0), crc := 0, before := [0x10, 0, 0, 0] }; { r with crc := ospCrc 0 1 r }) : OspRec).body.length + 12) ≤ 65280) ∧ (s.chEn 3 1 = true) ∧ ((s.ch 3 1).pend = none) ∧ (((s.ch 3 1).n = none ∨ (s.ch 3 1).n = some (bodyNum ((let r : OspRec := { flags := 0, seq := 0, arg := 0x62, body := (List.replicate 16 0), crc := 0, before := [0x10, 0, 0, 0] }; { r with crc := ospCrc 0 1 r }) : OspRec).body 0 6))) ∧ ((s.entryOf (portKey (s.moduleCh 3 1))).isSome = true))
    ∧ (∃ s : State, ((Instr.sample 3 5000 ((let r : OspRec := { flags := 0, seq := 0, arg := 0x64, body := (List.replicate 16 0), crc := 0, before := [0x10, 0, 0, 0] }; { r with crc := ospCrc 0 1 r }) : OspRec)).wf = true) ∧ (s.calm = true) ∧ (((s.upTo 5000).recvCheck 3 0x01 true ((let r : OspRec := { flags := 0, seq := 0, arg := 0x64, body := (List.replicate 16 0), crc := 0, before := [0x10, 0, 0, 0] }; { r with crc := ospCrc 0 1 r }) : OspRec)).1 = true) ∧ ((s.portH 3).cfg.bind (fun c => matchGroup c (bits ((let r : OspRec := { flags := 0, seq := 0, arg := 0x64, body := (List.replicate 16 0), crc := 0, before := [0x10, 0, 0, 0] }; { r with crc := ospCrc 0 1 r }) : OspRec).arg 3 0) (bits ((let r : OspRec := { flags := 0, seq := 0, arg := 0x64, body := (List.replicate 16 0), crc := 0, before := [0x10, 0, 0, 0] }; { r with crc := ospCrc 0 1 r }) : OspRec).arg 7 4) (((let r : OspRec := { flags := 0, seq := 0, arg := 0x64, body := (List.replicate 16 0), crc := 0, before := [0x10, 0, 0, 0] }; { r with crc := ospCrc 0 1 r }) : OspRec).body.length + 12) (bodyNum ((let r : OspRec := { flags := 0, seq := 0, arg := 0x64, body := (List.replicate 16 0), crc := 0, before := [0x10, 0, 0, 0] }; { r with crc := ospCrc 0 1 r }) : OspRec).body 0 6)) = none) ∧ (((s.portH 3).acked = true ∨ (s.portH 3).cfgPrev = none)))
    ∧ (∃ s : State, ((Instr.sample 3 5000 ((let r : OspRec := { flags := 0, seq := 0, arg := 0x62, body := (List.replicate 16 0), crc := 0, before := [0x10, 0, 0, 0] }; { r with crc := ospCrc 0 1 r }) : OspRec)).wf = true) ∧ (s.calm = true) ∧ (((s.upTo 5000).recvCheck 3 0x01 true ((let r : OspRec := { flags := 0, seq := 0, arg := 0x62, body := (List.replicate 16 0), crc := 0, before := [0x10, 0, 0, 0] }; { r with crc := ospCrc 0 1 r }) : OspRec)).1 = true) ∧ ((((s.upTo 5000).recvCheck 3 0x01 true ((let r : OspRec := { flags := 0, seq := 0, arg := 0x62, body := (List.replicate 16 0), crc := 0, before := [0x10, 0, 0, 0] }; { r with crc := ospCrc 0 1 r }) : OspRec)).2.police 3 (((let r : OspRec := { flags := 0, seq := 0, arg := 0x62, body := (List.replicate 16 0), crc := 0, before := [0x10, 0, 0, 0] }; { r with crc := ospCrc 0 1 r }) : OspRec).body.length + 12)).1 = false) ∧ ((s.portH 3).cfg.bind (fun c => matchGroup c (bits ((let r : OspRec := { flags := 0, seq := 0, arg := 0x62, body := (List.replicate 16 0), crc := 0, before := [0x10, 0, 0, 0] }; { r with crc := ospCrc 0 1 r }) : OspRec).arg 3 0) (bits ((let r : OspRec := { flags := 0, seq := 0, arg := 0x62, body := (List.replicate 16 0), crc := 0, before := [0x10, 0, 0, 0] }; { r with crc := ospCrc 0 1 r }) : OspRec).arg 7 4) (((let r : OspRec := { flags := 0, seq := 0, arg := 0x62, body := (List.replicate 16 0), crc := 0, before := [0x10, 0, 0, 0] }; { r with crc := ospCrc 0 1 r }) : OspRec).body.length + 12) (bodyNum ((let r : OspRec := { flags := 0, seq := 0, arg := 0x62, body := (List.replicate 16 0), crc := 0, before := [0x10, 0, 0, 0] }; { r with crc := ospCrc 0 1 r }) : OspRec).body 0 6)) = some 1))
    ∧ (∃ s : State, ((Instr.sample 3 5000 ((let r : OspRec := { flags := 0, seq := 0, arg := 0x62, body := (List.replicate 16 0), crc := 0, before := [0x10, 0, 0, 0] }; { r with crc := ospCrc 0 1 r }) : OspRec)).wf = true) ∧ (s.calm = true) ∧ (((s.upTo 5000).recvCheck 3 0x01 true ((let r : OspRec := { flags := 0, seq := 0, arg := 0x62, body := (List.replicate 16 0), crc := 0, before := [0x10, 0, 0, 0] }; { r with crc := ospCrc 0 1 r }) : OspRec)).1 = true) ∧ ((((s.upTo 5000).recvCheck 3 0x01 true ((let r : OspRec := { flags := 0, seq := 0, arg := 0x62, body := (List.replicate 16 0), crc := 0, before := [0x10, 0, 0, 0] }; { r with crc := ospCrc 0 1 r }) : OspRec)).2.police 3 (((let r : OspRec := { flags := 0, seq := 0, arg := 0x62, body := (List.replicate 16 0), crc := 0, before := [0x10, 0, 0, 0] }; { r with crc := ospCrc 0 1 r }) : OspRec).body.length + 12)).1 = true) ∧ ((s.portH 3).cfg.bind (fun c => matchGroup c (bits ((let r : OspRec := { flags := 0, seq := 0, arg := 0x62, body := (List.replicate 16 0), crc := 0, before := [0x10, 0, 0, 0] }; { r with crc := ospCrc 0 1 r }) : OspRec).arg 3 0) (bits ((let r : OspRec := { flags := 0, seq := 0, arg := 0x62, body := (List.replicate 16 0), crc := 0, before := [0x10, 0, 0, 0] }; { r with crc := ospCrc 0 1 r }) : OspRec).arg 7 4) (((let r : OspRec := { flags := 0, seq := 0, arg := 0x62, body := (List.replicate 16 0), crc := 0, before := [0x10, 0, 0, 0] }; { r with crc := ospCrc 0 1 r }) : OspRec).body.length + 12) (bodyNum ((let r : OspRec := { flags := 0, seq := 0, arg := 0x62, body := (List.replicate 16 0), crc := 0, before := [0x10, 0, 0, 0] }; { r with crc := ospCrc 0 1 r }) : OspRec).body 0 6)) = some 1) ∧ (65280 < (s.portH 3).outside + (((let r : OspRec := { flags := 0, seq := 0, arg := 0x62, body := (List.replicate 16 0), crc := 0, before := [0x10, 0, 0, 0] }; { r with crc := ospCrc 0 1 r }) : OspRec).body.length + 12)))
    ∧ (∃ s : State, ((Instr.sample 3 5000 ({ flags := 0, seq := 0, arg := 0, body := [], crc := 1 } : OspRec)).wf = true) ∧ (s.calm = true) ∧ (3 ≤ s.pstate 3) ∧ (s.pstate 3 ≤ 5) ∧ (s.inFrame 3 ({ flags := 0, seq := 0, arg := 0, body := [], crc := 1 } : OspRec) = true) ∧ (({ flags := 0, seq := 0, arg := 0, body := [], crc := 1 } : OspRec).before.length = 4) ∧ (ospCrc (s.session 3) 0x01 ({ flags := 0, seq := 0, arg := 0, body := [], crc := 1 } : OspRec) ≠ ({ flags := 0, seq := 0, arg := 0, body := [], crc := 1 } : OspRec).crc)) :=
    ⟨⟨(((((State.reset.wr (pgSpt 3) 0x06C 94371840).wr (pgSpt 3) 8 1).setPort 3 { cfg := some [⟨true, 6, 1⟩, ⟨true, 6, 1⟩, ⟨false, 0, 0⟩, ⟨false, 0, 0⟩], chans := [{ n := some 9 }, {}, {}, {}] }).wr (pgSpt 3) 0x240 0x80061000).wr (pgSpt 3) 0x200 0x80061000), by decide +kernel⟩,
    ⟨(((((State.reset.wr (pgSpt 3) 0x06C 94371840).wr (pgSpt 3) 8 1).setPort 3 { cfg := some [⟨false, 0, 0⟩, ⟨true, 6, 1⟩, ⟨false, 0, 0⟩, ⟨false, 0, 0⟩] }).wr (pgSpt 3) 0x240 0x80061000).setStr 3 { en := true, srcKind := 1, srcSel := 0, dests := [{ kind := 2 }, {}, {}, {}] }), by decide +kernel⟩,
    ⟨((((State.reset.wr (pgSpt 3) 0x06C 94371840).wr (pgSpt 3) 8 1).setPort 3 { cfg := some [⟨false, 0, 0⟩, ⟨true, 6, 1⟩, ⟨false, 0, 0⟩, ⟨false, 0, 0⟩] }).wr (pgSpt 3) 0x240 0x80061000), by decide +kernel⟩,
    ⟨((((State.reset.wr (pgSpt 3) 0x06C 94371840).wr (pgSpt 3) 8 1).setPort 3 { cfg := some [⟨false, 0, 0⟩, ⟨true, 6, 1⟩, ⟨false, 0, 0⟩, ⟨false, 0, 0⟩], tokens := 0, tokT := 5000, chans := [{}, { n := some 0 }, {}, {}] }).wr (pgSpt 3) 0x240 0x80061000), by decide +kernel⟩,
    ⟨((((State.reset.wr (pgSpt 3) 0x06C 94371840).wr (pgSpt 3) 8 1).setPort 3 { cfg := some [⟨false, 0, 0⟩, ⟨true, 6, 1⟩, ⟨false, 0, 0⟩, ⟨false, 0, 0⟩], bufs := [⟨1, 65270, false, 1⟩], chans := [{}, { n := some 0 }, {}, {}] }).wr (pgSpt 3) 0x240 0x80061000), by decide +kernel⟩,
    ⟨((State.reset.wr (pgSpt 3) 0x06C 94371840).wr (pgSpt 3) 8 1), by decide +kernel⟩⟩

theorem witness_PortRecords_2 :
    (∃ s : State, ((Instr.gap 3 5000 ((let r : OspRec := { flags := 0, seq := 0, arg := 2, body := ([1, 0, 0, 0, 0, 0, 0, 0, 9, 0, 0, 0]), crc := 0, before := [0x10, 0, 0, 0] }; { r with crc := ospCrc 0 2 r }) : OspRec)).wf = true) ∧ (s.calm = true) ∧ ((s.portH 3).chans.length = 4) ∧ (((s.upTo 5000).recvCheck 3 0x02 true ((let r : OspRec := { flags := 0, seq := 0, arg := 2, body := ([1, 0, 0, 0, 0, 0, 0, 0, 9, 0, 0, 0]), crc := 0, before := [0x10, 0, 0, 0] }; { r with crc := ospCrc 0 2 r }) : OspRec)).1 = true) ∧ ((((s.upTo 5000).recvCheck 3 0x02 true ((let r : OspRec := { flags := 0, seq := 0, arg := 2, body := ([1, 0, 0, 0, 0, 0, 0, 0, 9, 0, 0, 0]), crc := 0, before := [0x10, 0, 0, 0] }; { r with crc := ospCrc 0 2 r }) : OspRec)).2.police 3 (((let r : OspRec := { flags := 0, seq := 0, arg := 2, body := ([1, 0, 0, 0, 0, 0, 0, 0, 9, 0, 0, 0]), crc := 0, before := [0x10, 0, 0, 0] }; { r with crc := ospCrc 0 2 r }) : OspRec).body.length + 12)).1 = true))
    ∧ (∃ s : State, ((Instr.syncReply 3 5000 ((let r : OspRec := { flags := 0, seq := 0, arg := 1, body := (List.replicate 16 0), crc := 0, before := [0x10, 0, 0, 0] }; { r with crc := ospCrc 0 3 r }) : OspRec)).wf = true) ∧ (s.calm = true) ∧ (((s.upTo 5000).recvCheck 3 0x03 true ((let r : OspRec := { flags := 0, seq := 0, arg := 1, body := (List.replicate 16 0), crc := 0, before := [0x10, 0, 0, 0] }; { r with crc := ospCrc 0 3 r }) : OspRec)).1 = true) ∧ ((((s.upTo 5000).recvCheck 3 0x03 true ((let r : OspRec := { flags := 0, seq := 0, arg := 1, body := (List.replicate 16 0), crc := 0, before := [0x10, 0, 0, 0] }; { r with crc := ospCrc 0 3 r }) : OspRec)).2.police 3 (((let r : OspRec := { flags := 0, seq := 0, arg := 1, body := (List.replicate 16 0), crc := 0, before := [0x10, 0, 0, 0] }; { r with crc := ospCrc 0 3 r }) : OspRec).body.length + 12)).1 = true) ∧ ((s.portH 3).syncT1.find? (fun q => q.1 == ((let r : OspRec := { flags := 0, seq := 0, arg := 1, body := (List.replicate 16 0), crc := 0, before := [0x10, 0, 0, 0] }; { r with crc := ospCrc 0 3 r }) : OspRec).arg) = some (((let r : OspRec := { flags := 0, seq := 0, arg := 1, body := (List.replicate 16 0), crc := 0, before := [0x10, 0, 0, 0] }; { r with crc := ospCrc 0 3 r }) : OspRec).arg, 3000)))
    ∧ (∃ s : State, ((Instr.syncReply 3 5000 ((let r : OspRec := { flags := 0, seq := 0, arg := 1, body := (List.replicate 16 0), crc := 0, before := [0x10, 0, 0, 0] }; { r with crc := ospCrc 0 3 r }) : OspRec)).wf = true) ∧ (s.calm = true) ∧ (((s.upTo 5000).recvCheck 3 0x03 true ((let r : OspRec := { flags := 0, seq := 0, arg := 1, body := (List.replicate 16 0), crc := 0, before := [0x10, 0, 0, 0] }; { r with crc := ospCrc 0 3 r }) : OspRec)).1 = true) ∧ ((((s.upTo 5000).recvCheck 3 0x03 true ((let r : OspRec := { flags := 0, seq := 0, arg := 1, body := (List.replicate 16 0), crc := 0, before := [0x10, 0, 0, 0] }; { r with crc := ospCrc 0 3 r }) : OspRec)).2.police 3 (((let r : OspRec := { flags := 0, seq := 0, arg := 1, body := (List.replicate 16 0), crc := 0, before := [0x10, 0, 0, 0] }; { r with crc := ospCrc 0 3 r }) : OspRec).body.length + 12)).1 = true) ∧ ((s.portH 3).syncT1.find? (fun q => q.1 == ((let r : OspRec := { flags := 0, seq := 0, arg := 1, body := (List.replicate 16 0), crc := 0, before := [0x10, 0, 0, 0] }; { r with crc := ospCrc 0 3 r }) : OspRec).arg) = none))
    ∧ (∃ s : State, ((Instr.ident 3 5000 ((let r : OspRec := { flags := 0, seq := 0, arg := 0, body := (List.replicate 32 1), crc := 0, before := [0x10, 0, 0, 0] }; { r with crc := ospCrc 0 5 r }) : OspRec)).wf = true) ∧ (s.calm = true) ∧ (((s.upTo 5000).recvCheck 3 0x05 true ((let r : OspRec := { flags := 0, seq := 0, arg := 0, body := (List.replicate 32 1), crc := 0, before := [0x10, 0, 0, 0] }; { r with crc := ospCrc 0 5 r }) : OspRec)).1 = true) ∧ ((((s.upTo 5000).recvCheck 3 0x05 true ((let r : OspRec := { flags := 0, seq := 0, arg := 0, body := (List.replicate 32 1), crc := 0, before := [0x10, 0, 0, 0] }; { r with crc := ospCrc 0 5 r }) : OspRec)).2.police 3 (((let r : OspRec := { flags := 0, seq := 0, arg := 0, body := (List.replicate 32 1), crc := 0, before := [0x10, 0, 0, 0] }; { r with crc := ospCrc 0 5 r }) : OspRec).body.length + 12)).1 = true) ∧ (¬ (s.pstate 3 = 3 ∧ s.rd64 (pgSpt 3) 0x058 ≠ 0 ∧ s.rd64 (pgSpt 3) 0x058 ≠ bodyNum ((let r : OspRec := { flags := 0, seq := 0, arg := 0, body := (List.replicate 32 1), crc := 0, before := [0x10, 0, 0, 0] }; { r with crc := ospCrc 0 5 r }) : OspRec).body 4 8)) ∧ (¬ (s.pstate 3 = 3 ∧ (List.range (min 4 (bodyNum ((let r : OspRec := { flags := 0, seq := 0, arg := 0, body := (List.replicate 32 1), crc := 0, before := [0x10, 0, 0, 0] }; { r with crc := ospCrc 0 5 r }) : OspRec).body 16 1))).all (fun k => bit (s.portH 3).calMask k) = true)))
    ∧ (∃ s : State, ((Instr.ident 3 5000 ((let r : OspRec := { flags := 0, seq := 0, arg := 0, body := (List.replicate 32 1), crc := 0, before := [0x10, 0, 0, 0] }; { r with crc := ospCrc 0 5 r }) : OspRec)).wf = true) ∧ (s.calm = true) ∧ (((s.upTo 5000).recvCheck 3 0x05 true ((let r : OspRec := { flags := 0, seq := 0, arg := 0, body := (List.replicate 32 1), crc := 0, before := [0x10, 0, 0, 0] }; { r with crc := ospCrc 0 5 r }) : OspRec)).1 = true) ∧ ((((s.upTo 5000).recvCheck 3 0x05 true ((let r : OspRec := { flags := 0, seq := 0, arg := 0, body := (List.replicate 32 1), crc := 0, before := [0x10, 0, 0, 0] }; { r with crc := ospCrc 0 5 r }) : OspRec)).2.police 3 (((let r : OspRec := { flags := 0, seq := 0, arg := 0, body := (List.replicate 32 1), crc := 0, before := [0x10, 0, 0, 0] }; { r with crc := ospCrc 0 5 r }) : OspRec).body.length + 12)).1 = true) ∧ (¬ (s.pstate 3 = 3 ∧ s.rd64 (pgSpt 3) 0x058 ≠ 0 ∧ s.rd64 (pgSpt 3) 0x058 ≠ bodyNum ((let r : OspRec := { flags := 0, seq := 0, arg := 0, body := (List.replicate 32 1), crc := 0, before := [0x10, 0, 0, 0] }; { r with crc := ospCrc 0 5 r }) : OspRec).body 4 8)) ∧ ((s.pstate 3 = 3 ∧ (List.range (min 4 (bodyNum ((let r : OspRec := { flags := 0, seq := 0, arg := 0, body := (List.replicate 32 1), crc := 0, before := [0x10, 0, 0, 0] }; { r with crc := ospCrc 0 5 r }) : OspRec).body 16 1))).all (fun k => bit (s.portH 3).calMask k) = true)))
    ∧ (∃ s : State, ((Instr.ident 3 5000 ((let r : OspRec := { flags := 0, seq := 0, arg := 0, body := (List.replicate 32 1), crc := 0, before := [0x10, 0, 0, 0] }; { r with crc := ospCrc 0 5 r }) : OspRec)).wf = true) ∧ (s.calm = true) ∧ (((s.upTo 5000).recvCheck 3 0x05 true ((let r : OspRec := { flags := 0, seq := 0, arg := 0, body := (List.replicate 32 1), crc := 0, before := [0x10, 0, 0, 0] }; { r with crc := ospCrc 0 5 r }) : OspRec)).1 = true) ∧ ((((s.upTo 5000).recvCheck 3 0x05 true ((let r : OspRec := { flags := 0, seq := 0, arg := 0, body := (List.replicate 32 1), crc := 0, before := [0x10, 0, 0, 0] }; { r with crc := ospCrc 0 5 r }) : OspRec)).2.police 3 (((let r : OspRec := { flags := 0, seq := 0, arg := 0, body := (List.replicate 32 1), crc := 0, before := [0x10, 0, 0, 0] }; { r with crc := ospCrc 0 5 r }) : OspRec).body.length + 12)).1 = true) ∧ ((s.pstate 3 = 3 ∧ s.rd64 (pgSpt 3) 0x058 ≠ 0 ∧ s.rd64 (pgSpt 3) 0x058 ≠ bodyNum ((let r : OspRec := { flags := 0, seq := 0, arg := 0, body := (List.replicate 32 1), crc := 0, before := [0x10, 0, 0, 0] }; { r with crc := ospCrc 0 5 r }) : OspRec).body 4 8)) ∧ (s.retired (pgSpt 3) = false) ∧ ((s.pageH (pgSpt 3)).resetting = false) ∧ ((s.faulted (pgSpt 3) || s.ready (pgSpt 3) || s.busy (pgSpt 3)) = true)) :=
    ⟨⟨((((State.reset.wr (pgSpt 3) 0x06C 94371840).wr (pgSpt 3) 8 1).setPort 3 { chans := [{}, { n := some 4 }, {}, {}] }).wr (pgSpt 3) 0x240 0x80061000), by decide +kernel⟩,
    ⟨(((State.reset.wr (pgSpt 3) 0x06C 94371840).wr (pgSpt 3) 8 1).setPort 3 { syncT1 := [(1, 3000)] }), by decide +kernel⟩,
    ⟨((State.reset.wr (pgSpt 3) 0x06C 94371840).wr (pgSpt 3) 8 1), by decide +kernel⟩,
    ⟨(State.reset.wr (pgSpt 3) 0x06C 52428800), by decide +kernel⟩,
    ⟨((State.reset.wr (pgSpt 3) 0x06C 52428800).setPort 3 { calMask := 1 }), by decide +kernel⟩,
    ⟨(((State.reset.wr (pgSpt 3) 0x06C 52428800).wr (pgSpt 3) 8 2).wr (pgSpt 3) 88 9), by decide +kernel⟩⟩

theorem witness_PortRecords_3 :
    (∃ s : State, ((Instr.cal 3 5000 ((let r : OspRec := { flags := 0, seq := 0, arg := 2, body := (List.replicate 32 0), crc := 0, before := [0x10, 0, 0, 0] }; { r with crc := ospCrc 0 6 r }) : OspRec)).wf = true) ∧ (s.calm = true) ∧ (((s.upTo 5000).recvCheck 3 0x06 true ((let r : OspRec := { flags := 0, seq := 0, arg := 2, body := (List.replicate 32 0), crc := 0, before := [0x10, 0, 0, 0] }; { r with crc := ospCrc 0 6 r }) : OspRec)).1 = true) ∧ ((((s.upTo 5000).recvCheck 3 0x06 true ((let r : OspRec := { flags := 0, seq := 0, arg := 2, body := (List.replicate 32 0), crc := 0, before := [0x10, 0, 0, 0] }; { r with crc := ospCrc 0 6 r }) : OspRec)).2.police 3 (((let r : OspRec := { flags := 0, seq := 0, arg := 2, body := (List.replicate 32 0), crc := 0, before := [0x10, 0, 0, 0] }; { r with crc := ospCrc 0 6 r }) : OspRec).body.length + 12)).1 = true) ∧ (((let r : OspRec := { flags := 0, seq := 0, arg := 2, body := (List.replicate 32 0), crc := 0, before := [0x10, 0, 0, 0] }; { r with crc := ospCrc 0 6 r }) : OspRec).arg < 4) ∧ (¬ (s.pstate 3 = 3 ∧ (s.portH 3).identOk = true ∧ (List.range (s.portH 3).nch).all (fun k => bit (setBit (s.portH 3).calMask ((let r : OspRec := { flags := 0, seq := 0, arg := 2, body := (List.replicate 32 0), crc := 0, before := [0x10, 0, 0, 0] }; { r with crc := ospCrc 0 6 r }) : OspRec).arg true) k) = true)))
    ∧ (∃ s : State, ((Instr.cal 3 5000 ((let r : OspRec := { flags := 0, seq := 0, arg := 1, body := (List.replicate 32 0), crc := 0, before := [0x10, 0, 0, 0] }; { r with crc := ospCrc 0 6 r }) : OspRec)).wf = true) ∧ (s.calm = true) ∧ (((s.upTo 5000).recvCheck 3 0x06 true ((let r : OspRec := { flags := 0, seq := 0, arg := 1, body := (List.replicate 32 0), crc := 0, before := [0x10, 0, 0, 0] }; { r with crc := ospCrc 0 6 r }) : OspRec)).1 = true) ∧ ((((s.upTo 5000).recvCheck 3 0x06 true ((let r : OspRec := { flags := 0, seq := 0, arg := 1, body := (List.replicate 32 0), crc := 0, before := [0x10, 0, 0, 0] }; { r with crc := ospCrc 0 6 r }) : OspRec)).2.police 3 (((let r : OspRec := { flags := 0, seq := 0, arg := 1, body := (List.replicate 32 0), crc := 0, before := [0x10, 0, 0, 0] }; { r with crc := ospCrc 0 6 r }) : OspRec).body.length + 12)).1 = true) ∧ (((let r : OspRec := { flags := 0, seq := 0, arg := 1, body := (List.replicate 32 0), crc := 0, before := [0x10, 0, 0, 0] }; { r with crc := ospCrc 0 6 r }) : OspRec).arg < 4) ∧ ((s.pstate 3 = 3 ∧ (s.portH 3).identOk = true ∧ (List.range (s.portH 3).nch).all (fun k => bit (setBit (s.portH 3).calMask ((let r : OspRec := { flags := 0, seq := 0, arg := 1, body := (List.replicate 32 0), crc := 0, before := [0x10, 0, 0, 0] }; { r with crc := ospCrc 0 6 r }) : OspRec).arg true) k) = true)))
    ∧ (∃ s : State, ((Instr.selftest 3 5000 ((let r : OspRec := { flags := 0, seq := 0, arg := 0, body := (List.replicate 24 0), crc := 0, before := [0x10, 0, 0, 0] }; { r with crc := ospCrc 0 7 r }) : OspRec)).wf = true) ∧ (s.calm = true) ∧ (((s.upTo 5000).recvCheck 3 0x07 true ((let r : OspRec := { flags := 0, seq := 0, arg := 0, body := (List.replicate 24 0), crc := 0, before := [0x10, 0, 0, 0] }; { r with crc := ospCrc 0 7 r }) : OspRec)).1 = true) ∧ ((((s.upTo 5000).recvCheck 3 0x07 true ((let r : OspRec := { flags := 0, seq := 0, arg := 0, body := (List.replicate 24 0), crc := 0, before := [0x10, 0, 0, 0] }; { r with crc := ospCrc 0 7 r }) : OspRec)).2.police 3 (((let r : OspRec := { flags := 0, seq := 0, arg := 0, body := (List.replicate 24 0), crc := 0, before := [0x10, 0, 0, 0] }; { r with crc := ospCrc 0 7 r }) : OspRec).body.length + 12)).1 = true))
    ∧ (∃ s : State, ((Instr.ospStatus 3 5000 ((let r : OspRec := { flags := 0, seq := 0, arg := 0, body := (List.replicate 12 0), crc := 0, before := [0x10, 0, 0, 0] }; { r with crc := ospCrc 0 4 r }) : OspRec)).wf = true) ∧ (s.calm = true) ∧ (((s.upTo 5000).recvCheck 3 0x04 true ((let r : OspRec := { flags := 0, seq := 0, arg := 0, body := (List.replicate 12 0), crc := 0, before := [0x10, 0, 0, 0] }; { r with crc := ospCrc 0 4 r }) : OspRec)).1 = true) ∧ ((((s.upTo 5000).recvCheck 3 0x04 true ((let r : OspRec := { flags := 0, seq := 0, arg := 0, body := (List.replicate 12 0), crc := 0, before := [0x10, 0, 0, 0] }; { r with crc := ospCrc 0 4 r }) : OspRec)).2.police 3 (((let r : OspRec := { flags := 0, seq := 0, arg := 0, body := (List.replicate 12 0), crc := 0, before := [0x10, 0, 0, 0] }; { r with crc := ospCrc 0 4 r }) : OspRec).body.length + 12)).1 = true))
    ∧ (∃ s : State, ((Instr.frameEnd 3 0 (⟨0x88B5, false, [0x10, 1], false⟩ : FrameEnd)).wf = true) ∧ (s.calm = true) ∧ (s.getB (pgSpt 3) 0x06C 21 = true) ∧ (foreignFrame (s.fld (pgSpt 3) 0x040 31 16) (b2n (s.isNode 3)) (⟨0x88B5, false, [0x10, 1], false⟩ : FrameEnd).ethertype (⟨0x88B5, false, [0x10, 1], false⟩ : FrameEnd).tagged ((⟨0x88B5, false, [0x10, 1], false⟩ : FrameEnd).payload.length + 18 + (if (⟨0x88B5, false, [0x10, 1], false⟩ : FrameEnd).tagged then 4 else 0)) (⟨0x88B5, false, [0x10, 1], false⟩ : FrameEnd).payload = true))
    ∧ (∃ s : State, ((Instr.frameEnd 3 0 (⟨0x88B5, false, [0x10, 0, 0, 0, 1, 0, 64, 0] ++ List.replicate 38 0, true⟩ : FrameEnd)).wf = true) ∧ (s.calm = true) ∧ (s.getB (pgSpt 3) 0x06C 21 = true) ∧ (3 ≤ s.pstate 3) ∧ (s.pstate 3 ≤ 5) ∧ (foreignFrame (s.fld (pgSpt 3) 0x040 31 16) (b2n (s.isNode 3)) (⟨0x88B5, false, [0x10, 0, 0, 0, 1, 0, 64, 0] ++ List.replicate 38 0, true⟩ : FrameEnd).ethertype (⟨0x88B5, false, [0x10, 0, 0, 0, 1, 0, 64, 0] ++ List.replicate 38 0, true⟩ : FrameEnd).tagged ((⟨0x88B5, false, [0x10, 0, 0, 0, 1, 0, 64, 0] ++ List.replicate 38 0, true⟩ : FrameEnd).payload.length + 18 + (if (⟨0x88B5, false, [0x10, 0, 0, 0, 1, 0, 64, 0] ++ List.replicate 38 0, true⟩ : FrameEnd).tagged then 4 else 0)) (⟨0x88B5, false, [0x10, 0, 0, 0, 1, 0, 64, 0] ++ List.replicate 38 0, true⟩ : FrameEnd).payload = false) ∧ (((ospParse (⟨0x88B5, false, [0x10, 0, 0, 0, 1, 0, 64, 0] ++ List.replicate 38 0, true⟩ : FrameEnd).payload.length ((⟨0x88B5, false, [0x10, 0, 0, 0, 1, 0, 64, 0] ++ List.replicate 38 0, true⟩ : FrameEnd).payload.drop 4)).1.all fun q => decide (q.1 ≤ 7 ∨ (0x10 ≤ q.1 ∧ q.1 ≤ 0x13))) = true)) :=
    ⟨⟨(State.reset.wr (pgSpt 3) 0x06C 52428800), by decide +kernel⟩,
    ⟨((State.reset.wr (pgSpt 3) 0x06C 52428800).setPort 3 { calMask := 1, identOk := true, nch := 2 }), by decide +kernel⟩,
    ⟨(State.reset.wr (pgSpt 3) 0x06C 52428800), by decide +kernel⟩,
    ⟨(((State.reset.wr (pgSpt 3) 0x06C 77594624).wr (pgSpt 3) 8 2).setPort 3 { cfg := some [] }), by decide +kernel⟩,
    ⟨(State.reset.wr (pgSpt 3) 0x06C 85983232), by decide +kernel⟩,
    ⟨(State.reset.wr (pgSpt 3) 0x06C 85983232), by decide +kernel⟩⟩

theorem witness_PortRecords_4 :
    (∃ s : State, ((Instr.frameEnd 3 0 (⟨0x88B5, false, [0x10, 0, 0, 0, 1, 0, 64, 0] ++ List.replicate 38 0, false⟩ : FrameEnd)).wf = true) ∧ (s.calm = true) ∧ (s.getB (pgSpt 3) 0x06C 21 = true) ∧ (s.pstate 3 < 3 ∨ 5 < s.pstate 3) ∧ (foreignFrame (s.fld (pgSpt 3) 0x040 31 16) (b2n (s.isNode 3)) (⟨0x88B5, false, [0x10, 0, 0, 0, 1, 0, 64, 0] ++ List.replicate 38 0, false⟩ : FrameEnd).ethertype (⟨0x88B5, false, [0x10, 0, 0, 0, 1, 0, 64, 0] ++ List.replicate 38 0, false⟩ : FrameEnd).tagged ((⟨0x88B5, false, [0x10, 0, 0, 0, 1, 0, 64, 0] ++ List.replicate 38 0, false⟩ : FrameEnd).payload.length + 18 + (if (⟨0x88B5, false, [0x10, 0, 0, 0, 1, 0, 64, 0] ++ List.replicate 38 0, false⟩ : FrameEnd).tagged then 4 else 0)) (⟨0x88B5, false, [0x10, 0, 0, 0, 1, 0, 64, 0] ++ List.replicate 38 0, false⟩ : FrameEnd).payload = false)) :=
    ⟨(State.reset.wr (pgSpt 3) 0x06C 35651584), by decide +kernel⟩

theorem witness_PortRequests_1 :
    (∃ s : State, ((Instr.syncInstant 3 5000000000).wf = true) ∧ (s.calm = true) ∧ (s.isNode 3 = false) ∧ (3 ≤ s.pstate 3) ∧ (s.pstate 3 ≤ 5) ∧ ((s.portH 3).nextSync ≤ 5000000000) ∧ (5000000000 < 2 ^ 64))
    ∧ (∃ s : State, ((Instr.queryIdent .basecamp 3 0).wf = true) ∧ (s.calm = true) ∧ (s.powered (pgSpt 3) = true) ∧ ((s.pageH (pgSpt 3)).resetting = false) ∧ (s.pstate 3 = 5) ∧ (s.isNode 3 = false))
    ∧ (∃ s : State, ((Instr.queryCal .basecamp 3 0).wf = true) ∧ (s.calm = true) ∧ (s.powered (pgSpt 3) = true) ∧ ((s.pageH (pgSpt 3)).resetting = false) ∧ (s.pstate 3 = 5) ∧ (s.isNode 3 = false))
    ∧ (∃ s : State, ((Instr.queryStatus .basecamp 3 0).wf = true) ∧ (s.calm = true) ∧ (s.powered (pgSpt 3) = true) ∧ ((s.pageH (pgSpt 3)).resetting = false) ∧ (s.pstate 3 = 5) ∧ (s.isNode 3 = false))
    ∧ (∃ s : State, ((Instr.sptReqTest .basecamp 3 2 0).wf = true) ∧ (s.calm = true) ∧ (s.powered (pgSpt 3) = true) ∧ ((s.pageH (pgSpt 3)).resetting = false) ∧ (s.pstate 3 = 5) ∧ (s.isNode 3 = false))
    ∧ (∃ s : State, ((Instr.queryIdent .basecamp 3 0).wf = true) ∧ (s.calm = true) ∧ (s.powered (pgSpt 3) = true) ∧ ((s.pageH (pgSpt 3)).resetting = false) ∧ (s.pstate 3 ≠ 5 ∨ s.isNode 3 = true)) :=
    ⟨⟨((State.reset.wr (pgSpt 3) 0x06C 85983232).setPort 3 { chans := [{ n := some 4 }, {}, {}, {}], missed := 10 }), by decide +kernel⟩,
    ⟨(State.reset.wr (pgSpt 3) 0x06C 85983232), by decide +kernel⟩,
    ⟨(State.reset.wr (pgSpt 3) 0x06C 85983232), by decide +kernel⟩,
    ⟨(State.reset.wr (pgSpt 3) 0x06C 85983232), by decide +kernel⟩,
    ⟨(State.reset.wr (pgSpt 3) 0x06C 85983232), by decide +kernel⟩,
    ⟨(State.reset.wr (pgSpt 3) 0x06C 69206016), by decide +kernel⟩⟩

theorem witness_PortRequests_2 :
    (∃ s : State, ((Instr.queryCal .basecamp 3 0).wf = true) ∧ (s.calm = true) ∧ (s.powered (pgSpt 3) = true) ∧ ((s.pageH (pgSpt 3)).resetting = false) ∧ (s.pstate 3 ≠ 5 ∨ s.isNode 3 = true))
    ∧ (∃ s : State, ((Instr.queryStatus .basecamp 3 0).wf = true) ∧ (s.calm = true) ∧ (s.powered (pgSpt 3) = true) ∧ ((s.pageH (pgSpt 3)).resetting = false) ∧ (s.pstate 3 ≠ 5 ∨ s.isNode 3 = true))
    ∧ (∃ s : State, ((Instr.sptReqTest .basecamp 3 2 0).wf = true) ∧ (s.calm = true) ∧ (s.powered (pgSpt 3) = true) ∧ ((s.pageH (pgSpt 3)).resetting = false) ∧ (s.pstate 3 ≠ 5 ∨ s.isNode 3 = true))
    ∧ (∃ s : State, ((Instr.sptChCfg .basecamp 3 2 0x03C65000 0).wf = true) ∧ (s.calm = true) ∧ (s.powered (pgSpt 3) = true) ∧ ((s.pageH (pgSpt 3)).resetting = false) ∧ (s.isNode 3 = false) ∧ (s.chEn 3 2 = false) ∧ (bits 0x03C65000 31 31 = 0) ∧ (bits 0x03C65000 30 20 < 1536) ∧ (bits 0x03C65000 19 16 ≤ 8) ∧ (bits 0x03C65000 15 12 ≤ 8))
    ∧ (∃ s : State, ((Instr.sptChCfg .basecamp 3 2 0x83C65000 0).wf = true) ∧ (s.calm = true) ∧ (s.powered (pgSpt 3) = true) ∧ ((s.pageH (pgSpt 3)).resetting = false) ∧ (s.isNode 3 = false) ∧ (s.chEn 3 2 = false) ∧ (bits 0x83C65000 31 31 = 1) ∧ (bits 0x83C65000 30 20 < 1536) ∧ (bits 0x83C65000 19 16 ≤ 8) ∧ (bits 0x83C65000 15 12 ≤ 8) ∧ (payloadFits (setAt (s.cfgNow 3) 2 ⟨true, bits 0x83C65000 19 16, bits 0x83C65000 15 12⟩) = true) ∧ (((List.range 512).all fun q => s.isNode q || (List.range 4).all fun j => (q == 3 && j == 2) || !s.chEn q j || s.moduleCh q j != bits 0x83C65000 30 20) = true))
    ∧ (∃ s : State, ((Instr.sptChCfg .basecamp 3 2 0x83C65000 0).wf = true) ∧ (s.calm = true) ∧ (s.powered (pgSpt 3) = true) ∧ ((s.pageH (pgSpt 3)).resetting = false) ∧ (s.isNode 3 = false) ∧ (s.chEn 3 2 = true) ∧ (bits 0x83C65000 31 31 = 1)) :=
    ⟨⟨(State.reset.wr (pgSpt 3) 0x06C 69206016), by decide +kernel⟩,
    ⟨(State.reset.wr (pgSpt 3) 0x06C 69206016), by decide +kernel⟩,
    ⟨(State.reset.wr (pgSpt 3) 0x06C 69206016), by decide +kernel⟩,
    ⟨State.reset, by decide +kernel⟩,
    ⟨(State.reset.wr (pgSpt 3) 0x06C 85983232), by decide +kernel⟩,
    ⟨((State.reset.wr (pgSpt 3) 0x06C 85983232).wr (pgSpt 3) 640 0x80161000), by decide +kernel⟩⟩

theorem witness_PortRequests_3 :
    (∃ s : State, ((Instr.sptChCfg .basecamp 3 2 0x03C65000 0).wf = true) ∧ (s.calm = true) ∧ (s.powered (pgSpt 3) = true) ∧ ((s.pageH (pgSpt 3)).resetting = false) ∧ (s.isNode 3 = false) ∧ (s.chEn 3 2 = true) ∧ (bits 0x03C65000 31 31 = 0) ∧ ((s.portH 3).chans.length = 4)) :=
    ⟨((State.reset.wr (pgSpt 3) 0x06C 85983232).wr (pgSpt 3) 640 0x80161000), by decide +kernel⟩

theorem witness_PortNode_1 :
    (∃ s : State, ((Instr.sync 3 5000 5100 ((let r : OspRec := { flags := 0, seq := 0, arg := 0, body := (List.replicate 28 1), crc := 0, before := [0x10, 1, 0, 0] }; { r with crc := ospCrc 0 16 r }) : OspRec)).wf = true) ∧ (s.calm = true) ∧ (s.isNode 3 = true) ∧ (3 ≤ s.pstate 3) ∧ (s.pstate 3 ≤ 5) ∧ (s.inFrame 3 ((let r : OspRec := { flags := 0, seq := 0, arg := 0, body := (List.replicate 28 1), crc := 0, before := [0x10, 1, 0, 0] }; { r with crc := ospCrc 0 16 r }) : OspRec) = true) ∧ (((let r : OspRec := { flags := 0, seq := 0, arg := 0, body := (List.replicate 28 1), crc := 0, before := [0x10, 1, 0, 0] }; { r with crc := ospCrc 0 16 r }) : OspRec).before.length = 4) ∧ (((let r : OspRec := { flags := 0, seq := 0, arg := 0, body := (List.replicate 28 1), crc := 0, before := [0x10, 1, 0, 0] }; { r with crc := ospCrc 0 16 r }) : OspRec).body.length = 28) ∧ (ospCrc 0 0x10 ((let r : OspRec := { flags := 0, seq := 0, arg := 0, body := (List.replicate 28 1), crc := 0, before := [0x10, 1, 0, 0] }; { r with crc := ospCrc 0 16 r }) : OspRec) = ((let r : OspRec := { flags := 0, seq := 0, arg := 0, body := (List.replicate 28 1), crc := 0, before := [0x10, 1, 0, 0] }; { r with crc := ospCrc 0 16 r }) : OspRec).crc) ∧ (s.session 3 ≠ bodyNum ((let r : OspRec := { flags := 0, seq := 0, arg := 0, body := (List.replicate 28 1), crc := 0, before := [0x10, 1, 0, 0] }; { r with crc := ospCrc 0 16 r }) : OspRec).body 24 4))
    ∧ (∃ s : State, ((Instr.sync 3 5000 5100 ((let r : OspRec := { flags := 0, seq := 0, arg := 0, body := (List.replicate 28 1), crc := 0, before := [0x10, 1, 0, 0] }; { r with crc := ospCrc 0 16 r }) : OspRec)).wf = true) ∧ (s.calm = true) ∧ (s.isNode 3 = true) ∧ (((s.upTo 5000).recvCheck 3 0x10 false ((let r : OspRec := { flags := 0, seq := 0, arg := 0, body := (List.replicate 28 1), crc := 0, before := [0x10, 1, 0, 0] }; { r with crc := ospCrc 0 16 r }) : OspRec)).1 = true) ∧ (s.session 3 = bodyNum ((let r : OspRec := { flags := 0, seq := 0, arg := 0, body := (List.replicate 28 1), crc := 0, before := [0x10, 1, 0, 0] }; { r with crc := ospCrc 0 16 r }) : OspRec).body 24 4))
    ∧ (∃ s : State, ((Instr.config 3 5000 ((let r : OspRec := { flags := 0, seq := 0, arg := 4, body := (List.replicate 8 0), crc := 0, before := [0x10, 1, 0, 0] }; { r with crc := ospCrc 0 17 r }) : OspRec)).wf = true) ∧ (s.calm = true) ∧ (s.isNode 3 = true) ∧ (((s.upTo 5000).recvCheck 3 0x11 false ((let r : OspRec := { flags := 0, seq := 0, arg := 4, body := (List.replicate 8 0), crc := 0, before := [0x10, 1, 0, 0] }; { r with crc := ospCrc 0 17 r }) : OspRec)).1 = true))
    ∧ (∃ s : State, ((Instr.query 3 5000 ((let r : OspRec := { flags := 0, seq := 0, arg := 7, body := [], crc := 0, before := [0x10, 1, 0, 0] }; { r with crc := ospCrc 0 18 r }) : OspRec)).wf = true) ∧ (s.calm = true) ∧ (s.isNode 3 = true) ∧ (((s.upTo 5000).recvCheck 3 0x12 false ((let r : OspRec := { flags := 0, seq := 0, arg := 7, body := [], crc := 0, before := [0x10, 1, 0, 0] }; { r with crc := ospCrc 0 18 r }) : OspRec)).1 = true))
    ∧ (∃ s : State, ((Instr.test 3 5000 ((let r : OspRec := { flags := 0, seq := 0, arg := 5, body := [], crc := 0, before := [0x10, 1, 0, 0] }; { r with crc := ospCrc 0 19 r }) : OspRec)).wf = true) ∧ (s.calm = true) ∧ (s.isNode 3 = true) ∧ (((s.upTo 5000).recvCheck 3 0x13 false ((let r : OspRec := { flags := 0, seq := 0, arg := 5, body := [], crc := 0, before := [0x10, 1, 0, 0] }; { r with crc := ospCrc 0 19 r }) : OspRec)).1 = true) ∧ (bits ((let r : OspRec := { flags := 0, seq := 0, arg := 5, body := [], crc := 0, before := [0x10, 1, 0, 0] }; { r with crc := ospCrc 0 19 r }) : OspRec).arg 7 0 ≠ 2))
    ∧ (∃ s : State, ((Instr.test 3 5000 ((let r : OspRec := { flags := 0, seq := 0, arg := 2, body := [], crc := 0, before := [0x10, 1, 0, 0] }; { r with crc := ospCrc 0 19 r }) : OspRec)).wf = true) ∧ (s.calm = true) ∧ (s.isNode 3 = true) ∧ (((s.upTo 5000).recvCheck 3 0x13 false ((let r : OspRec := { flags := 0, seq := 0, arg := 2, body := [], crc := 0, before := [0x10, 1, 0, 0] }; { r with crc := ospCrc 0 19 r }) : OspRec)).1 = true) ∧ (bits ((let r : OspRec := { flags := 0, seq := 0, arg := 2, body := [], crc := 0, before := [0x10, 1, 0, 0] }; { r with crc := ospCrc 0 19 r }) : OspRec).arg 7 0 = 2)) :=
    ⟨⟨((State.reset.wr (pgSpt 3) 0x06C 52428800).wr (pgSpt 3) 0x040 0x88B52800), by decide +kernel⟩,
    ⟨((((State.reset.wr (pgSpt 3) 0x06C 85983232).wr (pgSpt 3) 0x040 0x88B52800).wr (pgSpt 3) 104 16843009).setPort 3 { hostOfs := 77, good := 8 }), by decide +kernel⟩,
    ⟨(((State.reset.wr (pgSpt 3) 0x06C 52428800).wr (pgSpt 3) 0x040 0x88B52800).wr (pgSpt 3) 8 2), by decide +kernel⟩,
    ⟨((State.reset.wr (pgSpt 3) 0x06C 52428800).wr (pgSpt 3) 0x040 0x88B52800), by decide +kernel⟩,
    ⟨((State.reset.wr (pgSpt 3) 0x06C 85983232).wr (pgSpt 3) 0x040 0x88B52800), by decide +kernel⟩,
    ⟨((State.reset.wr (pgSpt 3) 0x06C 85983232).wr (pgSpt 3) 0x040 0x88B52800), by decide +kernel⟩⟩

theorem witness_PortNode_2 :
    (∃ s : State, ((Instr.nodeRoleStatus 3 270000000).wf = true) ∧ (s.calm = true) ∧ (s.isNode 3 = true) ∧ (3 ≤ s.pstate 3) ∧ (s.pstate 3 ≤ 5) ∧ ((match (s.portH 3).test with | some q => decide (max s.now 270000000 < q.2) | none => true) = true) ∧ (((s.portH 3).nodeStatusT + 270000000 ≤ 270000000 ∨ s.nodeNow 3 ≠ (s.portH 3).nodeSent)))
    ∧ (∃ s : State, ((Instr.nodeRoleStatus 3 270).wf = true) ∧ (s.calm = true) ∧ (s.isNode 3 = true) ∧ ((s.portH 3).test = some (2, 5)) ∧ (5 ≤ 270) ∧ (270 < (s.portH 3).nodeStatusT + 270000000) ∧ (s.nodeNow 3 = (s.portH 3).nodeSent))
    ∧ (∃ s : State, ((Instr.nodeEmission 3 0 30000000).wf = true) ∧ (s.calm = true) ∧ (s.isNode 3 = true) ∧ (s.pstate 3 = 5) ∧ ((match (s.portH 3).test with | some q => decide (max s.now 30000000 < q.2) | none => true) = true) ∧ (0 ∈ s.nodeGroup 3 0) ∧ (((s.nodeGroup 3 0).all fun j => s.fld (pgSpt 3) (0x200 + 64 * j) 11 10 == 1) = true) ∧ (((s.nodeGroup 3 0).all fun j => (s.ch 3 j).nodeN == some 0 && (s.ch 3 j).nodeT.isEmpty) = true) ∧ ((s.portH 3).chans.length = 4) ∧ (0 + s.chB 3 0 ≤ s.idxUpTo 3 (s.chRate 3 0) (max s.now 30000000)) ∧ (((s.nodeGroup 3 0).all fun j => (s.queue (portKey (s.moduleCh 3 j))).isEmpty) = true))
    ∧ (∃ s : State, ((Instr.nodeEmission 3 0 30000000).wf = true) ∧ (s.calm = true) ∧ (s.isNode 3 = true) ∧ (s.pstate 3 = 5) ∧ ((match (s.portH 3).test with | some q => decide (max s.now 30000000 < q.2) | none => true) = true) ∧ (s.nodeGroup 3 0 = [0]) ∧ ((s.portH 3).chans.length = 4) ∧ ((s.ch 3 0).nodeN = some 0) ∧ (¬ s.fld (pgSpt 3) (0x200 + 64 * 0) 11 10 = 1) ∧ (s.chB 3 0 ≤ (s.ch 3 0).nodeT.length) ∧ (((s.ch 3 0).nodeT.all fun v => v.2.2.2 == 0 && v.2.2.1 == 0) = true) ∧ (0 + s.chB 3 0 ≤ s.idxUpTo 3 (s.chRate 3 0) (max s.now 30000000)))
    ∧ (∃ s : State, ((Instr.nodeEmission 3 0 30000000).wf = true) ∧ (s.calm = true) ∧ (s.isNode 3 = true) ∧ (s.pstate 3 = 5) ∧ ((match (s.portH 3).test with | some q => decide (max s.now 30000000 < q.2) | none => true) = true) ∧ (s.nodeGroup 3 0 = [0]) ∧ ((s.portH 3).chans.length = 4) ∧ ((s.ch 3 0).nodeN = some 0) ∧ (¬ s.fld (pgSpt 3) (0x200 + 64 * 0) 11 10 = 1) ∧ ((s.ch 3 0).nodeT = []) ∧ ((s.ch 3 0).node = []) ∧ (0 + s.chB 3 0 ≤ s.idxUpTo 3 (s.chRate 3 0) (max s.now 30000000)))
    ∧ (∃ s : State, ((Instr.nodeEmission 3 0 30000000).wf = true) ∧ (s.calm = true) ∧ (s.isNode 3 = true) ∧ (s.pstate 3 = 5) ∧ ((match (s.portH 3).test with | some q => decide (max s.now 30000000 < q.2) | none => true) = true) ∧ (0 ∈ s.nodeGroup 3 0) ∧ (((s.nodeGroup 3 0).all fun j => (s.ch 3 j).nodeN.isNone) = true) ∧ ((s.portH 3).chans.length = 4)) :=
    ⟨⟨((State.reset.wr (pgSpt 3) 0x06C 85983232).wr (pgSpt 3) 0x040 0x88B52800), by decide +kernel⟩,
    ⟨(((State.reset.wr (pgSpt 3) 0x06C 85983232).wr (pgSpt 3) 0x040 0x88B52800).setPort 3 { test := some (2, 5) }), by decide +kernel⟩,
    ⟨(((((State.reset.wr (pgSpt 3) 0x06C 85983232).wr (pgSpt 3) 0x040 0x88B52800).wr (pgSpt 3) 0x200 0x80051400).wr (pgSpt 3) 0x240 0x80051400).setPort 3 { cfg := some [⟨true, 5, 1⟩, ⟨true, 5, 1⟩, ⟨false, 0, 0⟩, ⟨false, 0, 0⟩], chans := [{ nodeN := some 0 }, { nodeN := some 0 }, {}, {}] }), by decide +kernel⟩,
    ⟨((((State.reset.wr (pgSpt 3) 0x06C 85983232).wr (pgSpt 3) 0x040 0x88B52800).wr (pgSpt 3) 0x200 0x80051000).setPort 3 { cfg := some [⟨true, 5, 1⟩, ⟨false, 0, 0⟩, ⟨false, 0, 0⟩, ⟨false, 0, 0⟩], chans := [{ nodeN := some 0, nodeT := [(7, 0, 0, 0), (9, 0, 0, 0)] }, {}, {}, {}] }), by decide +kernel⟩,
    ⟨((((State.reset.wr (pgSpt 3) 0x06C 85983232).wr (pgSpt 3) 0x040 0x88B52800).wr (pgSpt 3) 0x200 0x80051000).setPort 3 { cfg := some [⟨true, 5, 1⟩, ⟨false, 0, 0⟩, ⟨false, 0, 0⟩, ⟨false, 0, 0⟩], chans := [{ nodeN := some 0 }, {}, {}, {}] }), by decide +kernel⟩,
    ⟨(((((State.reset.wr (pgSpt 3) 0x06C 85983232).wr (pgSpt 3) 0x040 0x88B52800).wr (pgSpt 3) 0x200 0x80051400).wr (pgSpt 3) 0x240 0x80051400).setPort 3 { cfg := some [⟨true, 5, 1⟩, ⟨true, 5, 1⟩, ⟨false, 0, 0⟩, ⟨false, 0, 0⟩], chans := [{}, {}, {}, {}] }), by decide +kernel⟩⟩

theorem witness_Streams_1 :
    (∃ s : State, ((Instr.commit .basecamp 3 0xC0000000 0).wf = true) ∧ (s.calm = true) ∧ (s.powered (pgStrT 3) = true) ∧ ((s.pageH (pgStrT 3)).resetting = false) ∧ (s.getB (pgStrT 3) (strOff 3 0) 30 = false) ∧ ((decide (bits (s.strRd 3 4) 31 28 ≠ 0) && ((s.strs.any fun q => q.1 != 3 && q.2.en && srcKey q.2.srcKind q.2.srcSel == srcKey (bits (s.strRd 3 4) 31 28) (strSelUsed (bits (s.strRd 3 4) 31 28) (strSelClamp (bits (s.strRd 3 4) 31 28) (bits (s.strRd 3 4) 15 0)))) || s.strPending 3 (srcKey (bits (s.strRd 3 4) 31 28) (strSelUsed (bits (s.strRd 3 4) 31 28) (strSelClamp (bits (s.strRd 3 4) 31 28) (bits (s.strRd 3 4) 15 0)))))) = false))
    ∧ (∃ s : State, ((Instr.commit .basecamp 3 0xC0000000 0).wf = true) ∧ (s.calm = true) ∧ (s.powered (pgStrT 3) = true) ∧ ((s.pageH (pgStrT 3)).resetting = false) ∧ (s.getB (pgStrT 3) (strOff 3 0) 30 = false) ∧ ((decide (bits (s.strRd 3 4) 31 28 ≠ 0) && ((s.strs.any fun q => q.1 != 3 && q.2.en && srcKey q.2.srcKind q.2.srcSel == srcKey (bits (s.strRd 3 4) 31 28) (strSelUsed (bits (s.strRd 3 4) 31 28) (strSelClamp (bits (s.strRd 3 4) 31 28) (bits (s.strRd 3 4) 15 0)))) || s.strPending 3 (srcKey (bits (s.strRd 3 4) 31 28) (strSelUsed (bits (s.strRd 3 4) 31 28) (strSelClamp (bits (s.strRd 3 4) 31 28) (bits (s.strRd 3 4) 15 0)))))) = true) ∧ (bit 0xC0000000 31 = true))
    ∧ (∃ s : State, ((Instr.commit .basecamp 3 0x40000000 0).wf = true) ∧ (s.calm = true) ∧ (s.powered (pgStrT 3) = true) ∧ ((s.pageH (pgStrT 3)).resetting = false) ∧ (s.getB (pgStrT 3) (strOff 3 0) 30 = true))
    ∧ (∃ s : State, ((Instr.streamHandover 3 5).wf = true) ∧ (s.calm = true) ∧ (s.getB (pgStrT 3) (strOff 3 0) 30 = true))
    ∧ (∃ s : State, ((Instr.streamHandover 3 5).wf = true) ∧ (s.calm = true) ∧ (s.getB (pgStrT 3) (strOff 3 0) 30 = true) ∧ ((s.strH 3).en = false) ∧ (((s.getB (pgStrT 3) (strOff 3 0) 31 && s.enabled (pgStrT 3)) = false ∨ ((s.strStaged 3).all fun d => d.kind != 1 && d.kind != 2) = true)))
    ∧ (∃ s : State, ((Instr.streamHandover 3 5).wf = true) ∧ (s.calm = true) ∧ (s.getB (pgStrT 3) (strOff 3 0) 30 = true) ∧ ((s.strH 3).en = false) ∧ ((s.getB (pgStrT 3) (strOff 3 0) 31 && s.enabled (pgStrT 3)) = true) ∧ ((s.strStaged 3).head? = some ({ kind := 1, size := 4, arg := 5 * 2 ^ 17 + 2 ^ 14 } : Dest)) ∧ (((s.strStaged 3).drop 1).all (fun d => d.kind == 0) = true) ∧ (({ kind := 1, size := 4, arg := 5 * 2 ^ 17 + 2 ^ 14 } : Dest).kind = 1) ∧ (s.destReady ({ kind := 1, size := 4, arg := 5 * 2 ^ 17 + 2 ^ 14 } : Dest) = true)) :=
    ⟨⟨((State.reset.wr 0x700 8 1).wr (pgStrT 3) (strOff 3 4) 0x1000003D), by decide +kernel⟩,
    ⟨(((State.reset.wr 0x700 8 1).wr (pgStrT 3) (strOff 3 4) 0x1000003D).setStr 4 { en := true, srcKind := 1, srcSel := 0x3D }), by decide +kernel⟩,
    ⟨(((State.reset.wr 0x700 8 1).wr (pgStrT 3) (strOff 3 4) 0x1000003D).wr (pgStrT 3) (strOff 3 0) 0xC0000000), by decide +kernel⟩,
    ⟨(((((State.reset.wr 0x700 8 1).wr (pgStrT 3) (strOff 3 4) 0x1000003D).wr (pgStrT 3) (strOff 3 0) 0xC0000000).wr (pgStrT 3) 0x00C 1).wr (pgStrT 3) (strOff 3 0x10) 0x20A14000), by decide +kernel⟩,
    ⟨(((((State.reset.wr 0x700 8 1).wr (pgStrT 3) (strOff 3 4) 0x1000003D).wr (pgStrT 3) (strOff 3 0) 0xC0000000).wr (pgStrT 3) 0x00C 1).wr (pgStrT 3) (strOff 3 0x10) 0x80000000), by decide +kernel⟩,
    ⟨((((((((State.reset.setFld (pgEccC 5) 0x048 31 0 0xAAAAAAAA).setBank (pgEccC 5) 0 { inited := true }).wr (pgClu 5) 8 1).wr 0x700 8 1).wr (pgStrT 3) 0x00C 1).wr (pgStrT 3) (strOff 3 0) 0xC0000000).wr (pgStrT 3) (strOff 3 4) 0x30000005).wr (pgStrT 3) (strOff 3 0x10) 0x208A4000), by decide +kernel⟩⟩

theorem witness_Streams_2 :
    (∃ s : State, ((Instr.streamCell 3 (⟨5, ([] : List (Nat × Nat))⟩)).wf = true) ∧ (s.calm = true) ∧ (s.strInert (s.strH 3) = false) ∧ ((s.strH 3).fault = false) ∧ (s.strTableReady 3 = true) ∧ (s.queue (srcKey (s.strH 3).srcKind (s.strH 3).srcSel) = ({ raw := true, nvalid := 4, payload := 7 } : SrcItem) :: ([] : List SrcItem)) ∧ (((s.strH 3).rlEn && decide (((s.strH 3).refill (max s.now 5)).tokens < 30000)) = false) ∧ ((s.upTo 5).strAhead 3 = false) ∧ (((s.strH 3).srcKind ≠ 1 ∨ ((s.portH ({ raw := true, nvalid := 4, payload := 7 } : SrcItem).port).chans.all fun c => c.pend.isNone) = true)) ∧ (((s.strH 3).dests.all fun d => decide (d.kind ≤ 4) && d.kind != 1 && !(d.kind == 2 && d.dramMode == 2) && (d.kind == 0 || s.destReady d) && (d.kind != 3 || decide (({ raw := true, nvalid := 4, payload := 7 } : SrcItem).cellCount d.fmt ≤ (s.circH d.circuit).credit)) && decide (({ raw := true, nvalid := 4, payload := 7 } : SrcItem).cellCount d.fmt ≤ 0xFFFFFF)) = true))
    ∧ (∃ s : State, ((Instr.streamCell 3 (⟨5, ([] : List (Nat × Nat))⟩)).wf = true) ∧ (s.calm = true) ∧ (s.strInert (s.strH 3) = false) ∧ ((s.strH 3).fault = false) ∧ (s.strTableReady 3 = true) ∧ (s.queue (srcKey (s.strH 3).srcKind (s.strH 3).srcSel) = ({ raw := true, nvalid := 4, payload := 7 } : SrcItem) :: ([] : List SrcItem)) ∧ ((s.strH 3).dests = [({ kind := 1, size := 4, arg := 5 * 2 ^ 17 + 2 ^ 14 } : Dest), {}, {}, {}]) ∧ (((s.strH 3).rlEn && decide (((s.strH 3).refill (max s.now 5)).tokens < 30000)) = false) ∧ ((s.upTo 5).strAhead 3 = false) ∧ ((s.strH 3).srcKind = 3) ∧ (({ kind := 1, size := 4, arg := 5 * 2 ^ 17 + 2 ^ 14 } : Dest).kind = 1) ∧ (({ kind := 1, size := 4, arg := 5 * 2 ^ 17 + 2 ^ 14 } : Dest).size < 17) ∧ (({ raw := true, nvalid := 4, payload := 7 } : SrcItem).cellCount ({ kind := 1, size := 4, arg := 5 * 2 ^ 17 + 2 ^ 14 } : Dest).fmt ≤ ((s.upTo 5).destCredit 3 ({ kind := 1, size := 4, arg := 5 * 2 ^ 17 + 2 ^ 14 } : Dest)).1) ∧ (([] : List (Nat × Nat)) = []) ∧ (({ raw := true, nvalid := 4, payload := 7 } : SrcItem).cellCount ({ kind := 1, size := 4, arg := 5 * 2 ^ 17 + 2 ^ 14 } : Dest).fmt = 1) ∧ (bit ((s.upTo 5).flipRegs (pgEccC ({ kind := 1, size := 4, arg := 5 * 2 ^ 17 + 2 ^ 14 } : Dest).cluster)).1 31 = false))
    ∧ (∃ s : State, ((Instr.streamCell 3 (⟨5, ([] : List (Nat × Nat))⟩)).wf = true) ∧ (s.calm = true) ∧ (s.strInert (s.strH 3) = false) ∧ ((s.strH 3).fault = false) ∧ (s.strTableReady 3 = true) ∧ (s.queue (srcKey (s.strH 3).srcKind (s.strH 3).srcSel) = ({ raw := true, nvalid := 4, payload := 7 } : SrcItem) :: ([] : List SrcItem)) ∧ ((s.strH 3).rlEn = true) ∧ (((s.strH 3).refill (max s.now 5)).tokens < 30000))
    ∧ (∃ s : State, ((Instr.streamCell 3 (⟨5, ([] : List (Nat × Nat))⟩)).wf = true) ∧ (s.calm = true) ∧ (s.strInert (s.strH 3) = false) ∧ ((s.strH 3).fault = false) ∧ (s.strTableReady 3 = true) ∧ (s.queue (srcKey (s.strH 3).srcKind (s.strH 3).srcSel) = ({ raw := true, nvalid := 4, payload := 7 } : SrcItem) :: ([] : List SrcItem)) ∧ ((s.strH 3).dests = [({ kind := 3, arg := 9 } : Dest), {}, {}, {}]) ∧ (((s.strH 3).rlEn && decide (((s.strH 3).refill (max s.now 5)).tokens < 30000)) = false) ∧ (({ kind := 3, arg := 9 } : Dest).kind = 3) ∧ (s.destReady ({ kind := 3, arg := 9 } : Dest) = true) ∧ ((s.circH ({ kind := 3, arg := 9 } : Dest).circuit).credit < ({ raw := true, nvalid := 4, payload := 7 } : SrcItem).cellCount ({ kind := 3, arg := 9 } : Dest).fmt))
    ∧ (∃ s : State, ((Instr.captureOpen .basecamp 3 0).wf = true) ∧ (s.calm = true) ∧ (s.powered pgStr = true) ∧ ((s.pageH pgStr).resetting = false))
    ∧ (∃ s : State, ((Instr.captureClose .basecamp 3 0).wf = true) ∧ (s.calm = true) ∧ (s.powered pgStr = true) ∧ ((s.pageH pgStr).resetting = false)) :=
    ⟨⟨((((((State.reset.setFld pgEccD 0x048 31 0 0xAAAAAAAA).setBank pgEccD 0 { inited := true }).wr 0x700 8 1).wr (pgStrT 3) 0x00C 1).setStr 3 { en := true, srcKind := 3, srcSel := 5, dests := [{ kind := 2, size := 10, isOpen := true, arg := 0x40000 }, {}, {}, {}] }).setQueue (srcKey 3 5) [{ raw := true, nvalid := 4, payload := 7 }]), by decide +kernel⟩,
    ⟨(((((((State.reset.setFld (pgEccC 5) 0x048 31 0 0xAAAAAAAA).setBank (pgEccC 5) 0 { inited := true }).wr (pgClu 5) 8 1).wr 0x700 8 1).wr (pgStrT 3) 0x00C 1).setStr 3 { en := true, srcKind := 3, srcSel := 5, dests := [{ kind := 1, size := 4, arg := 5 * 2 ^ 17 + 2 ^ 14 }, {}, {}, {}] }).setQueue (srcKey 3 5) [{ raw := true, nvalid := 4, payload := 7 }]), by decide +kernel⟩,
    ⟨((((((State.reset.setFld pgEccD 0x048 31 0 0xAAAAAAAA).setBank pgEccD 0 { inited := true }).wr 0x700 8 1).wr (pgStrT 3) 0x00C 1).setStr 3 { en := true, rlEn := true, rate := 1, srcKind := 3, srcSel := 5, dests := [{ kind := 2, size := 10, isOpen := true, arg := 0x40000 }, {}, {}, {}] }).setQueue (srcKey 3 5) [{ raw := true, nvalid := 4, payload := 7 }]), by decide +kernel⟩,
    ⟨(((((State.reset.wr 0x700 8 1).wr (pgStrT 3) 0x00C 1).setCirc 9 { cstate := 3 }).setStr 3 { en := true, srcKind := 3, srcSel := 5, dests := [{ kind := 3, arg := 9 }, {}, {}, {}] }).setQueue (srcKey 3 5) [{ raw := true, nvalid := 4, payload := 7 }]), by decide +kernel⟩,
    ⟨(State.reset.setStr 3 { en := true, srcKind := 3, srcSel := 5, dests := [{ kind := 2, size := 10, arg := 0x40000 }, {}, {}, {}] }), by decide +kernel⟩,
    ⟨(State.reset.setStr 3 { en := true, srcKind := 3, srcSel := 5, dests := [{ kind := 2, size := 10, isOpen := true, arg := 0x40000 }, {}, {}, {}] }), by decide +kernel⟩⟩

theorem witness_ArsCommands_1 :
    (∃ s : State, ((Instr.viewOn .basecamp 3 0 4).wf = true) ∧ (s.calm = true) ∧ (s.ready (pgArs 3) = true) ∧ (s.mayWrite .basecamp (pgArs 3) .ars = true) ∧ (s.getB (pgArs 3) 0x04C 31 = false) ∧ ((s.upTo 4).arsSlice 3 = false) ∧ (((s.viewsOf 3).all fun x => (s.viewH 3 x).hold.isNone) = true) ∧ ((s.viewH 3 0).on = false) ∧ ((s.rdMem (clusterBase 3 + s.rd (pgArs 3) 0x040 + 64 * 0) 32).1.2 = false))
    ∧ (∃ s : State, ((Instr.viewOn .basecamp 3 0 4).wf = true) ∧ (s.calm = true) ∧ (s.ready (pgArs 3) = true) ∧ (s.mayWrite .basecamp (pgArs 3) .ars = true) ∧ (s.getB (pgArs 3) 0x04C 31 = false) ∧ ((s.upTo 4).arsSlice 3 = false) ∧ (((s.viewsOf 3).all fun x => (s.viewH 3 x).hold.isNone) = true) ∧ ((s.viewH 3 0).on = true) ∧ ((s.viewH 3 0).isOpen = false) ∧ (bit ((s.upTo 4).flipRegs (pgEccC 3)).1 31 = false) ∧ ((s.rdMem (clusterBase 3 + s.rd (pgArs 3) 0x040 + 64 * 0) 32).1.2 = false))
    ∧ (∃ s : State, ((Instr.viewOn .basecamp 3 0 4).wf = true) ∧ (s.calm = true) ∧ (s.ready (pgArs 3) = true) ∧ (s.mayWrite .basecamp (pgArs 3) .ars = true) ∧ (s.getB (pgArs 3) 0x04C 31 = false) ∧ ((s.upTo 4).arsSlice 3 = false) ∧ (((s.viewsOf 3).all fun x => (s.viewH 3 x).hold.isNone) = true) ∧ ((s.viewH 3 0).on = false) ∧ ((s.rdMem (clusterBase 3 + s.rd (pgArs 3) 0x040 + 64 * 0) 32).1.2 = false) ∧ (s.fld (pgArs 3) 0x050 31 16 + (viewBudget (fClampRange 0x3A83126F 0x469C4000 ((s.rdMem (clusterBase 3 + s.rd (pgArs 3) 0x040 + 64 * 0) 32).1.1 / 2 ^ 160 % 2 ^ 32)) (if bit ((s.rdMem (clusterBase 3 + s.rd (pgArs 3) 0x040 + 64 * 0) 32).1.1 / 2 ^ 0 % 2 ^ 32) 16 then clampTo (2 ^ 20) (2 ^ 29) ((s.rdMem (clusterBase 3 + s.rd (pgArs 3) 0x040 + 64 * 0) 32).1.1 / 2 ^ 128 % 2 ^ 32) else 2 ^ (32 - (clampTo 3 12 (bits ((s.rdMem (clusterBase 3 + s.rd (pgArs 3) 0x040 + 64 * 0) 32).1.1 / 2 ^ 0 % 2 ^ 32) 15 12)))) (bit ((s.rdMem (clusterBase 3 + s.rd (pgArs 3) 0x040 + 64 * 0) 32).1.1 / 2 ^ 0 % 2 ^ 32) 17)) ≤ 45600) ∧ ((bit ((s.rdMem (clusterBase 3 + s.rd (pgArs 3) 0x040 + 64 * 0) 32).1.1 / 2 ^ 0 % 2 ^ 32) 17 = false ∨ s.fld (pgArs 3) 0x050 15 0 + (viewBudget (fClampRange 0x3A83126F 0x469C4000 ((s.rdMem (clusterBase 3 + s.rd (pgArs 3) 0x040 + 64 * 0) 32).1.1 / 2 ^ 160 % 2 ^ 32)) (if bit ((s.rdMem (clusterBase 3 + s.rd (pgArs 3) 0x040 + 64 * 0) 32).1.1 / 2 ^ 0 % 2 ^ 32) 16 then clampTo (2 ^ 20) (2 ^ 29) ((s.rdMem (clusterBase 3 + s.rd (pgArs 3) 0x040 + 64 * 0) 32).1.1 / 2 ^ 128 % 2 ^ 32) else 2 ^ (32 - (clampTo 3 12 (bits ((s.rdMem (clusterBase 3 + s.rd (pgArs 3) 0x040 + 64 * 0) 32).1.1 / 2 ^ 0 % 2 ^ 32) 15 12)))) (bit ((s.rdMem (clusterBase 3 + s.rd (pgArs 3) 0x040 + 64 * 0) 32).1.1 / 2 ^ 0 % 2 ^ 32) 17)) ≤ 12000)) ∧ (((s.inH 3 (bits ((s.rdMem (clusterBase 3 + s.rd (pgArs 3) 0x040 + 64 * 0) 32).1.1 / 2 ^ 0 % 2 ^ 32) 31 24)).on = false ∨ s.channelViews (s.inH 3 (bits ((s.rdMem (clusterBase 3 + s.rd (pgArs 3) 0x040 + 64 * 0) 32).1.1 / 2 ^ 0 % 2 ^ 32) 31 24)).chan < 16)) ∧ (s.trkKind (bits ((s.rdMem (clusterBase 3 + s.rd (pgArs 3) 0x040 + 64 * 0) 32).1.1 / 2 ^ 0 % 2 ^ 32) 23 18) ≠ 6))
    ∧ (∃ s : State, ((Instr.viewOff .basecamp 3 5 4).wf = true) ∧ (s.calm = true) ∧ (s.ready (pgArs 3) = true) ∧ (s.mayWrite .basecamp (pgArs 3) .ars = true) ∧ (s.getB (pgArs 3) 0x04C 31 = false) ∧ ((s.upTo 4).arsSlice 3 = false) ∧ (((s.viewsOf 3).all fun x => (s.viewH 3 x).hold.isNone) = true) ∧ ((s.viewH 3 5).on = false))
    ∧ (∃ s : State, ((Instr.viewOff .basecamp 3 0 4).wf = true) ∧ (s.calm = true) ∧ (s.ready (pgArs 3) = true) ∧ (s.mayWrite .basecamp (pgArs 3) .ars = true) ∧ (s.getB (pgArs 3) 0x04C 31 = false) ∧ ((s.upTo 4).arsSlice 3 = false) ∧ (((s.viewsOf 3).all fun x => (s.viewH 3 x).hold.isNone) = true) ∧ ((s.viewH 3 0).on = true) ∧ ((s.viewH 3 0).ring % 64 = 0) ∧ (3 ≤ (s.viewH 3 0).nlog) ∧ ((s.viewH 3 0).n ≤ (s.viewH 3 0).len))
    ∧ (∃ s : State, ((Instr.viewOff .basecamp 3 0 4).wf = true) ∧ (s.calm = true) ∧ (s.ready (pgArs 3) = true) ∧ (s.mayWrite .basecamp (pgArs 3) .ars = true) ∧ (s.getB (pgArs 3) 0x04C 31 = false) ∧ ((s.upTo 4).arsSlice 3 = false) ∧ (((s.viewsOf 3).all fun x => (s.viewH 3 x).hold.isNone) = true) ∧ ((s.viewH 3 0).on = true) ∧ ((s.viewH 3 0).isOpen = false) ∧ ((s.viewH 3 0).ring % 64 = 0) ∧ (s.usable (clusterBase 3 + (s.viewH 3 0).ring) 24 = true) ∧ (s.usable (clusterBase 3 + s.rd (pgArs 3) 0x040 + 64 * 0) 64 = true) ∧ (bit ((s.upTo 4).flipRegs (pgEccC 3)).1 31 = false) ∧ (((clusterBase 3 + s.rd (pgArs 3) 0x040 + 64 * 0) + 64 ≤ clusterBase 3 + (s.viewH 3 0).ring ∨ clusterBase 3 + (s.viewH 3 0).ring + 24 ≤ (clusterBase 3 + s.rd (pgArs 3) 0x040 + 64 * 0) + 32))) :=
    ⟨⟨(((((((State.reset.wr (pgArs 3) 0x00C 1).wr (pgArs 3) 8 1).wr (pgArs 3) 0x040 0x1000).wr (pgArs 3) 0x044 0x800).setFld (pgEccC 3) 0x048 31 0 0xAAAAAAAA).wrMem (clusterBase 3 + 0x1000) 32 (ofWords [0x00003300, 100, 0, 0, 0x100000, 0x42000000, 0x4000, 0])).wrMem (clusterBase 3 + 0x800) 16 (ofWords [0x00A80500 , 0x20000, 0x40000, 0])), by decide +kernel⟩,
    ⟨((((((((State.reset.wr (pgArs 3) 0x00C 1).wr (pgArs 3) 8 1).wr (pgArs 3) 0x040 0x1000).wr (pgArs 3) 0x044 0x800).setFld (pgEccC 3) 0x048 31 0 0xAAAAAAAA).wrMem (clusterBase 3 + 0x1000) 32 (ofWords [0x00003300, 100, 0, 0, 0x100000, 0x42000000, 0x4000, 0])).wrMem (clusterBase 3 + 0x800) 16 (ofWords [0x00A80500 , 0x20000, 0x40000, 0])).setView 3 0 { on := true, nlog := 5, ringLog := 4, ring := 0x60000, gen := 7 }), by decide +kernel⟩,
    ⟨(((((((State.reset.wr (pgArs 3) 0x00C 1).wr (pgArs 3) 8 1).wr (pgArs 3) 0x040 0x1000).wr (pgArs 3) 0x044 0x800).setFld (pgEccC 3) 0x048 31 0 0xAAAAAAAA).wrMem (clusterBase 3 + 0x1000) 32 (ofWords [0x00003300, 100, 0, 0, 0x100000, 0x42000000, 0x4000, 0])).wrMem (clusterBase 3 + 0x800) 16 (ofWords [0x00A80500 , 0x20000, 0x40000, 0])), by decide +kernel⟩,
    ⟨((State.reset.wr (pgArs 3) 0x00C 1).wr (pgArs 3) 8 1), by decide +kernel⟩,
    ⟨((((((((State.reset.wr (pgArs 3) 0x00C 1).wr (pgArs 3) 8 1).wr (pgArs 3) 0x040 0x1000).wr (pgArs 3) 0x044 0x800).setFld (pgEccC 3) 0x048 31 0 0xAAAAAAAA).wrMem (clusterBase 3 + 0x1000) 32 (ofWords [0x00003300, 100, 0, 0, 0x100000, 0x42000000, 0x4000, 0])).wrMem (clusterBase 3 + 0x800) 16 (ofWords [0x00A80500 , 0x20000, 0x40000, 0])).setView 3 0 { on := true, nlog := 5, ringLog := 4, ring := 0x60000, stepCfg := 0x08000000, grid := true, isOpen := true, n := 3, rateMax := 0x42000000, input := 5 }), by decide +kernel⟩,
    ⟨((((((((State.reset.wr (pgArs 3) 0x00C 1).wr (pgArs 3) 8 1).wr (pgArs 3) 0x040 0x1000).wr (pgArs 3) 0x044 0x800).setFld (pgEccC 3) 0x048 31 0 0xAAAAAAAA).wrMem (clusterBase 3 + 0x1000) 32 (ofWords [0x00003300, 100, 0, 0, 0x100000, 0x42000000, 0x4000, 0])).wrMem (clusterBase 3 + 0x800) 16 (ofWords [0x00A80500 , 0x20000, 0x40000, 0])).setView 3 0 { on := true, nlog := 5, ringLog := 4, ring := 0x60000, gen := 7 }), by decide +kernel⟩⟩

theorem witness_ArsCommands_2 :
    (∃ s : State, ((Instr.inOn .basecamp 3 0 4).wf = true) ∧ (s.calm = true) ∧ (s.ready (pgArs 3) = true) ∧ (s.mayWrite .basecamp (pgArs 3) .ars = true) ∧ (s.getB (pgArs 3) 0x04C 31 = false) ∧ ((s.upTo 4).arsSlice 3 = false) ∧ (((s.viewsOf 3).all fun x => (s.viewH 3 x).hold.isNone) = true) ∧ (((s.inH 3 (min 255 0)).on = false ∨ ((s.viewsOf 3).filter fun x => (s.viewH 3 x).input == min 255 0) = [])) ∧ (bit ((s.upTo 4).flipRegs (pgEccC 3)).1 31 = false) ∧ ((s.rdMem (clusterBase 3 + s.rd (pgArs 3) 0x044 + 32 * (min 255 0)) 16).1.2 = false))
    ∧ (∃ s : State, ((Instr.inOn .basecamp 3 0 4).wf = true) ∧ (s.calm = true) ∧ (s.ready (pgArs 3) = true) ∧ (s.mayWrite .basecamp (pgArs 3) .ars = true) ∧ (s.getB (pgArs 3) 0x04C 31 = false) ∧ ((s.upTo 4).arsSlice 3 = false) ∧ (((s.viewsOf 3).all fun x => (s.viewH 3 x).hold.isNone) = true) ∧ (((s.inH 3 (min 255 0)).on = false ∨ ((s.viewsOf 3).filter fun x => (s.viewH 3 x).input == min 255 0) = [])) ∧ ((s.rdMem (clusterBase 3 + s.rd (pgArs 3) 0x044 + 32 * (min 255 0)) 16).1.2 = false) ∧ (bit ((s.upTo 4).flipRegs (pgEccC 3)).1 31 = false) ∧ (((s.viewsOf 3).filter fun x => (s.viewH 3 x).input == min 255 0) = []))
    ∧ (∃ s : State, ((Instr.inOn .basecamp 3 0 4).wf = true) ∧ (s.calm = true) ∧ (s.ready (pgArs 3) = true) ∧ (s.mayWrite .basecamp (pgArs 3) .ars = true) ∧ (s.getB (pgArs 3) 0x04C 31 = false) ∧ ((s.upTo 4).arsSlice 3 = false) ∧ (((s.viewsOf 3).all fun x => (s.viewH 3 x).hold.isNone) = true) ∧ ((s.inH 3 (min 255 0)).on = false) ∧ ((s.rdMem (clusterBase 3 + s.rd (pgArs 3) 0x044 + 32 * (min 255 0)) 16).1.2 = false) ∧ (s.fld (pgArs 3) 0x050 31 16 + (match (if (min 10 (bits ((s.rdMem (clusterBase 3 + s.rd (pgArs 3) 0x044 + 32 * (min 255 0)) 16).1.1 / 2 ^ 0 % 2 ^ 32) 13 10)) = 0 then none else s.channelPort (min 1535 (bits ((s.rdMem (clusterBase 3 + s.rd (pgArs 3) 0x044 + 32 * (min 255 0)) 16).1.1 / 2 ^ 0 % 2 ^ 32) 31 21))) with | some q => (16 * fsOf q.2 + 999999) / 1000000 | none => 0) ≤ 45600) ∧ ((((s.viewsOf 3).filter fun x => (s.viewH 3 x).input == min 255 0) = [] ∨ s.channelViews (min 1535 (bits ((s.rdMem (clusterBase 3 + s.rd (pgArs 3) 0x044 + 32 * (min 255 0)) 16).1.1 / 2 ^ 0 % 2 ^ 32) 31 21)) + ((s.viewsOf 3).filter fun x => (s.viewH 3 x).input == min 255 0).length ≤ 16)))
    ∧ (∃ s : State, ((Instr.inOff .basecamp 3 5 4).wf = true) ∧ (s.calm = true) ∧ (s.ready (pgArs 3) = true) ∧ (s.mayWrite .basecamp (pgArs 3) .ars = true) ∧ (s.getB (pgArs 3) 0x04C 31 = false) ∧ ((s.upTo 4).arsSlice 3 = false) ∧ (((s.viewsOf 3).all fun x => (s.viewH 3 x).hold.isNone) = true) ∧ ((s.inH 3 (min 255 5)).on = false))
    ∧ (∃ s : State, ((Instr.inOff .basecamp 3 5 4).wf = true) ∧ (s.calm = true) ∧ (s.ready (pgArs 3) = true) ∧ (s.mayWrite .basecamp (pgArs 3) .ars = true) ∧ (s.getB (pgArs 3) 0x04C 31 = false) ∧ ((s.upTo 4).arsSlice 3 = false) ∧ (((s.viewsOf 3).all fun x => (s.viewH 3 x).hold.isNone) = true) ∧ ((s.inH 3 (min 255 5)).on = true) ∧ (s.faulted (pgArs 3) = false))
    ∧ (∃ s : State, ((Instr.viewOn .basecamp 3 5 4).wf = true) ∧ (s.calm = true) ∧ (s.ready (pgArs 3) = true) ∧ (s.mayWrite .basecamp (pgArs 3) .ars = true) ∧ (s.getB (pgArs 3) 0x04C 31 = false) ∧ ((s.upTo 4).arsSlice 3 = true)) :=
    ⟨⟨(((((((State.reset.wr (pgArs 3) 0x00C 1).wr (pgArs 3) 8 1).wr (pgArs 3) 0x040 0x1000).wr (pgArs 3) 0x044 0x800).setFld (pgEccC 3) 0x048 31 0 0xAAAAAAAA).wrMem (clusterBase 3 + 0x1000) 32 (ofWords [0x00003300, 100, 0, 0, 0x100000, 0x42000000, 0x4000, 0])).wrMem (clusterBase 3 + 0x800) 16 (ofWords [0x00A80500 , 0x20000, 0x40000, 0])), by decide +kernel⟩,
    ⟨(((((((State.reset.wr (pgArs 3) 0x00C 1).wr (pgArs 3) 8 1).wr (pgArs 3) 0x040 0x1000).wr (pgArs 3) 0x044 0x800).setFld (pgEccC 3) 0x048 31 0 0xAAAAAAAA).wrMem (clusterBase 3 + 0x1000) 32 (ofWords [0x00003300, 100, 0, 0, 0x100000, 0x42000000, 0x4000, 0])).wrMem (clusterBase 3 + 0x800) 16 (ofWords [0x00A80500 , 0x20000, 0x40000, 0])), by decide +kernel⟩,
    ⟨((((((((State.reset.wr (pgArs 3) 0x00C 1).wr (pgArs 3) 8 1).wr (pgArs 3) 0x040 0x1000).wr (pgArs 3) 0x044 0x800).setFld (pgEccC 3) 0x048 31 0 0xAAAAAAAA).wrMem (clusterBase 3 + 0x1000) 32 (ofWords [0x00003300, 100, 0, 0, 0x100000, 0x42000000, 0x4000, 0])).wrMem (clusterBase 3 + 0x800) 16 (ofWords [0x00A80500 , 0x20000, 0x40000, 0])).wr (pgSpt 0) 0x240 0x80565000), by decide +kernel⟩,
    ⟨((State.reset.wr (pgArs 3) 0x00C 1).wr (pgArs 3) 8 1), by decide +kernel⟩,
    ⟨(((((((((State.reset.wr (pgArs 3) 0x00C 1).wr (pgArs 3) 8 1).wr (pgArs 3) 0x040 0x1000).wr (pgArs 3) 0x044 0x800).setFld (pgEccC 3) 0x048 31 0 0xAAAAAAAA).wrMem (clusterBase 3 + 0x1000) 32 (ofWords [0x00003300, 100, 0, 0, 0x100000, 0x42000000, 0x4000, 0])).wrMem (clusterBase 3 + 0x800) 16 (ofWords [0x00A80500 , 0x20000, 0x40000, 0])).setView 3 0 { on := true, nlog := 5, ringLog := 4, ring := 0x60000, stepCfg := 0x08000000, grid := true, isOpen := true, n := 3, rateMax := 0x42000000, input := 5 }).setIn 3 5 { on := true, st := 2 }), by decide +kernel⟩,
    ⟨(((State.reset.wr (pgArs 3) 0x00C 1).wr (pgArs 3) 8 1).setBist (pgBistC 3) { runs := [{ unit := 7, inst := 3, slice := 0, t0 := 4, iso := false }] }), by decide +kernel⟩⟩

theorem witness_ArsCommands_3 :
    (∃ s : State, ((Instr.viewOff .basecamp 3 5 4).wf = true) ∧ (s.calm = true) ∧ (s.ready (pgArs 3) = true) ∧ (s.mayWrite .basecamp (pgArs 3) .ars = true) ∧ (s.getB (pgArs 3) 0x04C 31 = false) ∧ ((s.upTo 4).arsSlice 3 = true))
    ∧ (∃ s : State, ((Instr.inOn .basecamp 3 5 4).wf = true) ∧ (s.calm = true) ∧ (s.ready (pgArs 3) = true) ∧ (s.mayWrite .basecamp (pgArs 3) .ars = true) ∧ (s.getB (pgArs 3) 0x04C 31 = false) ∧ ((s.upTo 4).arsSlice 3 = true))
    ∧ (∃ s : State, ((Instr.inOff .basecamp 3 5 4).wf = true) ∧ (s.calm = true) ∧ (s.ready (pgArs 3) = true) ∧ (s.mayWrite .basecamp (pgArs 3) .ars = true) ∧ (s.getB (pgArs 3) 0x04C 31 = false) ∧ ((s.upTo 4).arsSlice 3 = true))
    ∧ (∃ s : State, ((Instr.viewOn .basecamp 3 5 4).wf = true) ∧ (s.calm = true) ∧ (s.ready (pgArs 3) = true) ∧ (s.mayWrite .basecamp (pgArs 3) .ars = true) ∧ (s.getB (pgArs 3) 0x04C 31 = true))
    ∧ (∃ s : State, ((Instr.viewOff .basecamp 3 5 4).wf = true) ∧ (s.calm = true) ∧ (s.ready (pgArs 3) = true) ∧ (s.mayWrite .basecamp (pgArs 3) .ars = true) ∧ (s.getB (pgArs 3) 0x04C 31 = true))
    ∧ (∃ s : State, ((Instr.inOn .basecamp 3 5 4).wf = true) ∧ (s.calm = true) ∧ (s.ready (pgArs 3) = true) ∧ (s.mayWrite .basecamp (pgArs 3) .ars = true) ∧ (s.getB (pgArs 3) 0x04C 31 = true)) :=
    ⟨⟨(((State.reset.wr (pgArs 3) 0x00C 1).wr (pgArs 3) 8 1).setBist (pgBistC 3) { runs := [{ unit := 7, inst := 3, slice := 0, t0 := 4, iso := false }] }), by decide +kernel⟩,
    ⟨(((State.reset.wr (pgArs 3) 0x00C 1).wr (pgArs 3) 8 1).setBist (pgBistC 3) { runs := [{ unit := 7, inst := 3, slice := 0, t0 := 4, iso := false }] }), by decide +kernel⟩,
    ⟨(((State.reset.wr (pgArs 3) 0x00C 1).wr (pgArs 3) 8 1).setBist (pgBistC 3) { runs := [{ unit := 7, inst := 3, slice := 0, t0 := 4, iso := false }] }), by decide +kernel⟩,
    ⟨(((State.reset.wr (pgArs 3) 0x00C 1).wr (pgArs 3) 8 1).setB (pgArs 3) 0x04C 31), by decide +kernel⟩,
    ⟨(((State.reset.wr (pgArs 3) 0x00C 1).wr (pgArs 3) 8 1).setB (pgArs 3) 0x04C 31), by decide +kernel⟩,
    ⟨(((State.reset.wr (pgArs 3) 0x00C 1).wr (pgArs 3) 8 1).setB (pgArs 3) 0x04C 31), by decide +kernel⟩⟩

theorem witness_ArsCommands_4 :
    (∃ s : State, ((Instr.inOff .basecamp 3 5 4).wf = true) ∧ (s.calm = true) ∧ (s.ready (pgArs 3) = true) ∧ (s.mayWrite .basecamp (pgArs 3) .ars = true) ∧ (s.getB (pgArs 3) 0x04C 31 = true))
    ∧ (∃ s : State, ((Instr.arsCommandComplete 3).wf = true) ∧ (s.calm = true) ∧ (s.getB (pgArs 3) 0x04C 31 = true) ∧ (s.arsSlice 3 = false) ∧ ((s.arsH 3).wait = false) ∧ ((s.arsH 3).res < 8) ∧ ((s.arsH 3).op < 16) ∧ ((s.arsH 3).idx < 512))
    ∧ (∃ s : State, ((Instr.arsCommandComplete 3).wf = true) ∧ (s.calm = true) ∧ (s.getB (pgArs 3) 0x04C 31 = true) ∧ (s.arsSlice 3 = false) ∧ ((s.arsH 3).wait = true) ∧ (0 < (s.arsH 3).op) ∧ ((s.arsH 3).op < 5) ∧ ((s.arsH 3).idx < 512)) :=
    ⟨⟨(((State.reset.wr (pgArs 3) 0x00C 1).wr (pgArs 3) 8 1).setB (pgArs 3) 0x04C 31), by decide +kernel⟩,
    ⟨((((State.reset.wr (pgArs 3) 0x00C 1).wr (pgArs 3) 8 1).setB (pgArs 3) 0x04C 31).setArs 3 { res := 2, op := 1, idx := 77 }), by decide +kernel⟩,
    ⟨(((((((((State.reset.wr (pgArs 3) 0x00C 1).wr (pgArs 3) 8 1).wr (pgArs 3) 0x040 0x1000).wr (pgArs 3) 0x044 0x800).setFld (pgEccC 3) 0x048 31 0 0xAAAAAAAA).wrMem (clusterBase 3 + 0x1000) 32 (ofWords [0x00003300, 100, 0, 0, 0x100000, 0x42000000, 0x4000, 0])).wrMem (clusterBase 3 + 0x800) 16 (ofWords [0x00A80500 , 0x20000, 0x40000, 0])).setB (pgArs 3) 0x04C 31).setArs 3 { op := 1, idx := 0, wait := true }), by decide +kernel⟩⟩

theorem witness_ArsSamples_1 :
    (∃ s : State, ((Instr.inputCell 3 0 9).wf = true) ∧ (s.calm = true) ∧ ((s.ready (pgArs 3) || s.faulted (pgArs 3)) = true) ∧ ((s.upTo 9).arsSlice 3 = false) ∧ (((s.viewsOf 3).all fun x => (s.viewH 3 x).hold.isNone) = true) ∧ ((s.inH 3 0).on = true) ∧ (s.usable (clusterBase 3 + (s.inH 3 0).ring) (s.inH 3 0).ringBytes = true) ∧ ((s.inH 3 0).st = 2) ∧ (8 ≤ (s.inH 3 0).histLog) ∧ ((s.inH 3 0).hist % 64 = 0) ∧ ((s.rdMem64 (clusterBase 3 + (s.inH 3 0).ring)).1.2 = false) ∧ ((s.rdMem64 (clusterBase 3 + (s.inH 3 0).ring)).1.1 % 2 ^ 32 ≠ (s.inH 3 0).rp) ∧ (bits (s.peek ((clusterBase 3 + (s.inH 3 0).ring) + 128 + 64 * ((s.inH 3 0).rp % 2 ^ (s.inH 3 0).size)) 64) 63 48 = (s.inH 3 0).chan) ∧ (bits (s.peek ((clusterBase 3 + (s.inH 3 0).ring) + 128 + 64 * ((s.inH 3 0).rp % 2 ^ (s.inH 3 0).size)) 64) 26 24 ≠ 0) ∧ (bit (s.peek ((clusterBase 3 + (s.inH 3 0).ring) + 128 + 64 * ((s.inH 3 0).rp % 2 ^ (s.inH 3 0).size)) 64) 12 = false) ∧ (((s.inH 3 0).units = none ∨ (s.inH 3 0).units = some (bits (s.peek ((clusterBase 3 + (s.inH 3 0).ring) + 128 + 64 * ((s.inH 3 0).rp % 2 ^ (s.inH 3 0).size)) 64) 26 24 == 3))))
    ∧ (∃ s : State, ((Instr.inputCell 3 0 9).wf = true) ∧ (s.calm = true) ∧ ((s.ready (pgArs 3) || s.faulted (pgArs 3)) = true) ∧ ((s.upTo 9).arsSlice 3 = false) ∧ (((s.viewsOf 3).all fun x => (s.viewH 3 x).hold.isNone) = true) ∧ ((s.inH 3 0).on = true) ∧ (s.usable (clusterBase 3 + (s.inH 3 0).ring) (s.inH 3 0).ringBytes = true) ∧ ((s.inH 3 0).st = 2) ∧ (8 ≤ (s.inH 3 0).histLog) ∧ ((s.inH 3 0).hist % 64 = 0) ∧ ((s.rdMem64 (clusterBase 3 + (s.inH 3 0).ring)).1.2 = false) ∧ ((s.rdMem64 (clusterBase 3 + (s.inH 3 0).ring)).1.1 % 2 ^ 32 ≠ (s.inH 3 0).rp) ∧ (bits (s.peek ((clusterBase 3 + (s.inH 3 0).ring) + 128 + 64 * ((s.inH 3 0).rp % 2 ^ (s.inH 3 0).size)) 64) 63 48 = (s.inH 3 0).chan) ∧ (bits (s.peek ((clusterBase 3 + (s.inH 3 0).ring) + 128 + 64 * ((s.inH 3 0).rp % 2 ^ (s.inH 3 0).size)) 64) 26 24 ≠ 0) ∧ (bit (s.peek ((clusterBase 3 + (s.inH 3 0).ring) + 128 + 64 * ((s.inH 3 0).rp % 2 ^ (s.inH 3 0).size)) 64) 12 = true))
    ∧ (∃ s : State, ((Instr.inputCell 3 0 9).wf = true) ∧ (s.calm = true) ∧ ((s.ready (pgArs 3) || s.faulted (pgArs 3)) = true) ∧ ((s.upTo 9).arsSlice 3 = false) ∧ (((s.viewsOf 3).all fun x => (s.viewH 3 x).hold.isNone) = true) ∧ ((s.inH 3 0).on = true) ∧ (s.usable (clusterBase 3 + (s.inH 3 0).ring) (s.inH 3 0).ringBytes = true) ∧ ((s.inH 3 0).st = 2) ∧ (8 ≤ (s.inH 3 0).histLog) ∧ ((s.inH 3 0).hist % 64 = 0) ∧ ((s.rdMem64 (clusterBase 3 + (s.inH 3 0).ring)).1.2 = false) ∧ ((s.rdMem64 (clusterBase 3 + (s.inH 3 0).ring)).1.1 % 2 ^ 32 ≠ (s.inH 3 0).rp) ∧ ((bits (s.peek ((clusterBase 3 + (s.inH 3 0).ring) + 128 + 64 * ((s.inH 3 0).rp % 2 ^ (s.inH 3 0).size)) 64) 63 48 ≠ (s.inH 3 0).chan ∨ bits (s.peek ((clusterBase 3 + (s.inH 3 0).ring) + 128 + 64 * ((s.inH 3 0).rp % 2 ^ (s.inH 3 0).size)) 64) 26 24 = 0)))
    ∧ (∃ s : State, ((Instr.inputCell 3 0 9).wf = true) ∧ (s.calm = true) ∧ ((s.ready (pgArs 3) || s.faulted (pgArs 3)) = true) ∧ ((s.upTo 9).arsSlice 3 = false) ∧ (((s.viewsOf 3).all fun x => (s.viewH 3 x).hold.isNone) = true) ∧ ((s.inH 3 0).on = true) ∧ (s.usable (clusterBase 3 + (s.inH 3 0).ring) (s.inH 3 0).ringBytes = true) ∧ ((s.inH 3 0).st = 2) ∧ (((s.rdMem64 (clusterBase 3 + (s.inH 3 0).ring)).1.2 = true ∨ (s.rdMem64 (clusterBase 3 + (s.inH 3 0).ring)).1.1 % 2 ^ 32 = (s.inH 3 0).rp)) ∧ (bit (s.peek ((clusterBase 3 + (s.inH 3 0).ring) + 8) 8) 8 = true))
    ∧ (∃ s : State, ((Instr.inputCell 3 0 9).wf = true) ∧ (s.calm = true) ∧ ((s.ready (pgArs 3) || s.faulted (pgArs 3)) = true) ∧ ((s.upTo 9).arsSlice 3 = false) ∧ (((s.viewsOf 3).all fun x => (s.viewH 3 x).hold.isNone) = true) ∧ ((s.inH 3 0).on = true) ∧ (s.usable (clusterBase 3 + (s.inH 3 0).ring) (s.inH 3 0).ringBytes = true) ∧ ((s.inH 3 0).st = 3) ∧ (bit (s.peek ((clusterBase 3 + (s.inH 3 0).ring) + 8) 8) 8 = false))
    ∧ (∃ s : State, ((Instr.outputSample 3 0 3000002000 (⟨false, false⟩)).wf = true) ∧ (s.calm = true) ∧ (s.ready (pgArs 3) = true) ∧ ((s.upTo 3000002000).arsSlice 3 = false) ∧ (((s.viewsOf 3).all fun x => (s.viewH 3 x).hold.isNone) = true) ∧ ((s.viewH 3 0).on = true) ∧ ((((s.upTo 3000002000).viewPredict 3 0 (max s.now 3000002000)).viewH 3 0).pts = (⟨5, 3000000000, 10000, 0, false, false, none⟩ : GridPt) :: ([⟨6, 3000001000, 1, 0, false, false, none⟩] : List GridPt)) ∧ (((s.upTo 3000002000).viewPredict 3 0 (max s.now 3000002000)).viewAhead 3 0 = false) ∧ ((((s.upTo 3000002000).viewPredict 3 0 (max s.now 3000002000)).viewH 3 0).n < (((s.upTo 3000002000).viewPredict 3 0 (max s.now 3000002000)).viewH 3 0).len) ∧ ((⟨5, 3000000000, 10000, 0, false, false, none⟩ : GridPt).stop = none) ∧ (((((s.upTo 3000002000).viewPredict 3 0 (max s.now 3000002000)).ptNeed 3 (((s.upTo 3000002000).viewPredict 3 0 (max s.now 3000002000)).viewH 3 0) (⟨5, 3000000000, 10000, 0, false, false, none⟩ : GridPt)).isOver = true ∨ (((s.upTo 3000002000).viewPredict 3 0 (max s.now 3000002000)).ptNeed 3 (((s.upTo 3000002000).viewPredict 3 0 (max s.now 3000002000)).viewH 3 0) (⟨5, 3000000000, 10000, 0, false, false, none⟩ : GridPt)).under = true ∨ ((((s.upTo 3000002000).viewPredict 3 0 (max s.now 3000002000)).ptNeed 3 (((s.upTo 3000002000).viewPredict 3 0 (max s.now 3000002000)).viewH 3 0) (⟨5, 3000000000, 10000, 0, false, false, none⟩ : GridPt)).u.floor + 65 ≤ (octCount (((s.upTo 3000002000).viewPredict 3 0 (max s.now 3000002000)).ptNeed 3 (((s.upTo 3000002000).viewPredict 3 0 (max s.now 3000002000)).viewH 3 0) (⟨5, 3000000000, 10000, 0, false, false, none⟩ : GridPt)).D (s.inH 3 (((s.upTo 3000002000).viewPredict 3 0 (max s.now 3000002000)).viewH 3 0).input).next : Int))))) :=
    ⟨⟨((((((State.reset.wr (pgArs 3) 0x00C 1).wr (pgArs 3) 8 1).setFld (pgEccC 3) 0x048 31 0 0xAAAAAAAA).wrMem (clusterBase 3 + 0x20000) 16 (1 + 0 * 2 ^ 72)).wrMem (clusterBase 3 + 0x20080) 64 (7 * 2 ^ 48 + 2 * 2 ^ 40 + 2 ^ 24 + 100 * 2 ^ 64 + 5 * 2 ^ 128)).setIn 3 0 { on := true, st := 2, chan := 7, size := 4, dmax := 1, histLog := 8, ring := 0x20000, hist := 0x40000, rp := 0, rate := 5 }), by decide +kernel⟩,
    ⟨((((((State.reset.wr (pgArs 3) 0x00C 1).wr (pgArs 3) 8 1).setFld (pgEccC 3) 0x048 31 0 0xAAAAAAAA).wrMem (clusterBase 3 + 0x20000) 16 (1 + 0 * 2 ^ 72)).wrMem (clusterBase 3 + 0x20080) 64 (7 * 2 ^ 48 + 2 ^ 12 + 2 ^ 24 + 100 * 2 ^ 64 + 5 * 2 ^ 128 + 3 * 2 ^ 160)).setIn 3 0 { on := true, st := 2, chan := 7, size := 4, dmax := 1, histLog := 8, ring := 0x20000, hist := 0x40000, rp := 0, rate := 5 }), by decide +kernel⟩,
    ⟨((((((State.reset.wr (pgArs 3) 0x00C 1).wr (pgArs 3) 8 1).setFld (pgEccC 3) 0x048 31 0 0xAAAAAAAA).wrMem (clusterBase 3 + 0x20000) 16 (1 + 0 * 2 ^ 72)).wrMem (clusterBase 3 + 0x20080) 64 (8 * 2 ^ 48 + 2 * 2 ^ 40 + 2 ^ 24 + 100 * 2 ^ 64 + 5 * 2 ^ 128)).setIn 3 0 { on := true, st := 2, chan := 7, size := 4, dmax := 1, histLog := 8, ring := 0x20000, hist := 0x40000, rp := 0, rate := 5 }), by decide +kernel⟩,
    ⟨((((((State.reset.wr (pgArs 3) 0x00C 1).wr (pgArs 3) 8 1).setFld (pgEccC 3) 0x048 31 0 0xAAAAAAAA).wrMem (clusterBase 3 + 0x20000) 16 (0 + 1 * 2 ^ 72)).wrMem (clusterBase 3 + 0x20080) 64 (7 * 2 ^ 48 + 2 * 2 ^ 40 + 2 ^ 24 + 100 * 2 ^ 64 + 5 * 2 ^ 128)).setIn 3 0 { on := true, st := 2, chan := 7, size := 4, dmax := 1, histLog := 8, ring := 0x20000, hist := 0x40000, rp := 0, rate := 5 }), by decide +kernel⟩,
    ⟨((((((State.reset.wr (pgArs 3) 0x00C 1).wr (pgArs 3) 8 1).setFld (pgEccC 3) 0x048 31 0 0xAAAAAAAA).wrMem (clusterBase 3 + 0x20000) 16 (0 + 0 * 2 ^ 72)).wrMem (clusterBase 3 + 0x20080) 64 (7 * 2 ^ 48 + 2 * 2 ^ 40 + 2 ^ 24 + 100 * 2 ^ 64 + 5 * 2 ^ 128)).setIn 3 0 { on := true, st := 3, chan := 7, size := 4, dmax := 1, histLog := 8, ring := 0x20000, hist := 0x40000, rp := 0, rate := 5 }), by decide +kernel⟩,
    ⟨((((((State.reset.wr (pgArs 3) 0x00C 1).wr (pgArs 3) 8 1).setFld (pgEccC 3) 0x048 31 0 0xAAAAAAAA).setBank (pgEccC 3) 0 { inited := true }).setIn 3 0 { on := true, st := 2, chan := 7, size := 4, dmax := 0, histLog := 8, ring := 0x20000, hist := 0x40000, next := 99999999, rate := 5 }).setView 3 0 { on := true, nlog := 5, ringLog := 4, ring := 0x60000, stepCfg := 0x08000000, grid := true, isOpen := true, n := 3, rateMax := 0x469C4000, pts := [⟨5, 3000000000, 10000, 0, false, false, none⟩, ⟨6, 3000001000, 1, 0, false, false, none⟩], predict := true, lastT := 3000001999 }), by decide +kernel⟩⟩

theorem witness_ArsSamples_2 :
    (∃ s : State, ((Instr.outputSample 3 0 3000002000 (⟨false, false⟩)).wf = true) ∧ (s.calm = true) ∧ (s.ready (pgArs 3) = true) ∧ ((s.upTo 3000002000).arsSlice 3 = false) ∧ (((s.viewsOf 3).all fun x => (s.viewH 3 x).hold.isNone) = true) ∧ ((s.viewH 3 0).on = true) ∧ ((((s.upTo 3000002000).viewPredict 3 0 (max s.now 3000002000)).viewH 3 0).pts = (⟨5, 3000000000, 10000, 0, false, false, none⟩ : GridPt) :: ([⟨6, 3000001000, 1, 0, false, false, none⟩] : List GridPt)) ∧ (((s.upTo 3000002000).viewPredict 3 0 (max s.now 3000002000)).viewAhead 3 0 = false) ∧ ((((s.upTo 3000002000).viewPredict 3 0 (max s.now 3000002000)).viewH 3 0).n < (((s.upTo 3000002000).viewPredict 3 0 (max s.now 3000002000)).viewH 3 0).len) ∧ ((((s.upTo 3000002000).viewPredict 3 0 (max s.now 3000002000)).viewH 3 0).ring % 64 = 0) ∧ (s.usable ((((s.upTo 3000002000).viewPredict 3 0 (max s.now 3000002000)).viewH 3 0).slotAddr 3 (((s.upTo 3000002000).viewPredict 3 0 (max s.now 3000002000)).viewH 3 0).prod) (((s.upTo 3000002000).viewPredict 3 0 (max s.now 3000002000)).viewH 3 0).slotBytes = true) ∧ (bit ((s.upTo 3000002000).flipRegs (pgEccC 3)).1 31 = false) ∧ ((if (((s.upTo 3000002000).viewPredict 3 0 (max s.now 3000002000)).viewH 3 0).isOpen then (((s.upTo 3000002000).viewPredict 3 0 (max s.now 3000002000)).viewH 3 0).n else 0) + 1 < (((s.upTo 3000002000).viewPredict 3 0 (max s.now 3000002000)).viewH 3 0).len) ∧ ((⟨5, 3000000000, 10000, 0, false, false, none⟩ : GridPt).stop = none) ∧ (3 ≤ (((s.upTo 3000002000).viewPredict 3 0 (max s.now 3000002000)).viewH 3 0).nlog) ∧ (((((s.upTo 3000002000).viewPredict 3 0 (max s.now 3000002000)).ptNeed 3 (((s.upTo 3000002000).viewPredict 3 0 (max s.now 3000002000)).viewH 3 0) (⟨5, 3000000000, 10000, 0, false, false, none⟩ : GridPt)).isOver = true ∨ (((s.upTo 3000002000).viewPredict 3 0 (max s.now 3000002000)).ptNeed 3 (((s.upTo 3000002000).viewPredict 3 0 (max s.now 3000002000)).viewH 3 0) (⟨5, 3000000000, 10000, 0, false, false, none⟩ : GridPt)).under = true ∨ ((((s.upTo 3000002000).viewPredict 3 0 (max s.now 3000002000)).ptNeed 3 (((s.upTo 3000002000).viewPredict 3 0 (max s.now 3000002000)).viewH 3 0) (⟨5, 3000000000, 10000, 0, false, false, none⟩ : GridPt)).u.floor + 65 ≤ (octCount (((s.upTo 3000002000).viewPredict 3 0 (max s.now 3000002000)).ptNeed 3 (((s.upTo 3000002000).viewPredict 3 0 (max s.now 3000002000)).viewH 3 0) (⟨5, 3000000000, 10000, 0, false, false, none⟩ : GridPt)).D (s.inH 3 (((s.upTo 3000002000).viewPredict 3 0 (max s.now 3000002000)).viewH 3 0).input).next : Int)))))
    ∧ (∃ s : State, ((Instr.outputSample 3 0 3000002000 (⟨false, false⟩)).wf = true) ∧ (s.calm = true) ∧ (s.ready (pgArs 3) = true) ∧ ((s.upTo 3000002000).arsSlice 3 = false) ∧ (((s.viewsOf 3).all fun x => (s.viewH 3 x).hold.isNone) = true) ∧ ((s.viewH 3 0).on = true) ∧ ((((s.upTo 3000002000).viewPredict 3 0 (max s.now 3000002000)).viewH 3 0).pts = (⟨5, 3000000000, 1000, 0, false, false, none⟩ : GridPt) :: ([⟨6, 3000001000, 1, 0, false, false, none⟩] : List GridPt)) ∧ (((s.upTo 3000002000).viewPredict 3 0 (max s.now 3000002000)).viewAhead 3 0 = false) ∧ ((((s.upTo 3000002000).viewPredict 3 0 (max s.now 3000002000)).viewH 3 0).n < (((s.upTo 3000002000).viewPredict 3 0 (max s.now 3000002000)).viewH 3 0).len) ∧ ((((s.upTo 3000002000).viewPredict 3 0 (max s.now 3000002000)).viewH 3 0).ring % 64 = 0) ∧ (s.usable ((((s.upTo 3000002000).viewPredict 3 0 (max s.now 3000002000)).viewH 3 0).slotAddr 3 (((s.upTo 3000002000).viewPredict 3 0 (max s.now 3000002000)).viewH 3 0).prod) (((s.upTo 3000002000).viewPredict 3 0 (max s.now 3000002000)).viewH 3 0).slotBytes = true) ∧ (bit ((s.upTo 3000002000).flipRegs (pgEccC 3)).1 31 = false) ∧ ((if (((s.upTo 3000002000).viewPredict 3 0 (max s.now 3000002000)).viewH 3 0).isOpen then (((s.upTo 3000002000).viewPredict 3 0 (max s.now 3000002000)).viewH 3 0).n else 0) + 1 < (((s.upTo 3000002000).viewPredict 3 0 (max s.now 3000002000)).viewH 3 0).len) ∧ (((clusterBase 3 + s.rd (pgArs 3) 0x040 + 64 * 0) + 64 ≤ clusterBase 3 + (((s.upTo 3000002000).viewPredict 3 0 (max s.now 3000002000)).viewH 3 0).ring ∨ clusterBase 3 + (((s.upTo 3000002000).viewPredict 3 0 (max s.now 3000002000)).viewH 3 0).ring + 64 + 2 ^ (((s.upTo 3000002000).viewPredict 3 0 (max s.now 3000002000)).viewH 3 0).ringLog * (((s.upTo 3000002000).viewPredict 3 0 (max s.now 3000002000)).viewH 3 0).slotBytes ≤ (clusterBase 3 + s.rd (pgArs 3) 0x040 + 64 * 0))) ∧ ((⟨5, 3000000000, 1000, 0, false, false, none⟩ : GridPt).stop = none) ∧ ((((s.upTo 3000002000).viewPredict 3 0 (max s.now 3000002000)).ptNeed 3 (((s.upTo 3000002000).viewPredict 3 0 (max s.now 3000002000)).viewH 3 0) (⟨5, 3000000000, 1000, 0, false, false, none⟩ : GridPt)).isOver = true))
    ∧ (∃ s : State, ((Instr.outputSample 3 0 3000002000 (⟨false, false⟩)).wf = true) ∧ (s.calm = true) ∧ (s.ready (pgArs 3) = true) ∧ ((s.upTo 3000002000).arsSlice 3 = false) ∧ (((s.viewsOf 3).all fun x => (s.viewH 3 x).hold.isNone) = true) ∧ ((s.viewH 3 0).on = true) ∧ ((((s.upTo 3000002000).viewPredict 3 0 (max s.now 3000002000)).viewH 3 0).pts = (⟨5, 3000000000, 1, 0, false, false, none⟩ : GridPt) :: ([⟨6, 3000001000, 1, 0, false, false, none⟩] : List GridPt)) ∧ (((s.upTo 3000002000).viewPredict 3 0 (max s.now 3000002000)).viewAhead 3 0 = false) ∧ ((((s.upTo 3000002000).viewPredict 3 0 (max s.now 3000002000)).viewH 3 0).n < (((s.upTo 3000002000).viewPredict 3 0 (max s.now 3000002000)).viewH 3 0).len) ∧ ((((s.upTo 3000002000).viewPredict 3 0 (max s.now 3000002000)).viewH 3 0).ring % 64 = 0) ∧ (s.usable ((((s.upTo 3000002000).viewPredict 3 0 (max s.now 3000002000)).viewH 3 0).slotAddr 3 (((s.upTo 3000002000).viewPredict 3 0 (max s.now 3000002000)).viewH 3 0).prod) (((s.upTo 3000002000).viewPredict 3 0 (max s.now 3000002000)).viewH 3 0).slotBytes = true) ∧ (bit ((s.upTo 3000002000).flipRegs (pgEccC 3)).1 31 = false) ∧ ((if (((s.upTo 3000002000).viewPredict 3 0 (max s.now 3000002000)).viewH 3 0).isOpen then (((s.upTo 3000002000).viewPredict 3 0 (max s.now 3000002000)).viewH 3 0).n else 0) + 1 < (((s.upTo 3000002000).viewPredict 3 0 (max s.now 3000002000)).viewH 3 0).len) ∧ (((clusterBase 3 + s.rd (pgArs 3) 0x040 + 64 * 0) + 64 ≤ clusterBase 3 + (((s.upTo 3000002000).viewPredict 3 0 (max s.now 3000002000)).viewH 3 0).ring ∨ clusterBase 3 + (((s.upTo 3000002000).viewPredict 3 0 (max s.now 3000002000)).viewH 3 0).ring + 64 + 2 ^ (((s.upTo 3000002000).viewPredict 3 0 (max s.now 3000002000)).viewH 3 0).ringLog * (((s.upTo 3000002000).viewPredict 3 0 (max s.now 3000002000)).viewH 3 0).slotBytes ≤ (clusterBase 3 + s.rd (pgArs 3) 0x040 + 64 * 0))) ∧ ((⟨5, 3000000000, 1, 0, false, false, none⟩ : GridPt).stop = none) ∧ ((((s.upTo 3000002000).viewPredict 3 0 (max s.now 3000002000)).ptNeed 3 (((s.upTo 3000002000).viewPredict 3 0 (max s.now 3000002000)).viewH 3 0) (⟨5, 3000000000, 1, 0, false, false, none⟩ : GridPt)).under = true))
    ∧ (∃ s : State, ((Instr.outputSample 3 0 3000002000 (⟨false, false⟩)).wf = true) ∧ (s.calm = true) ∧ (s.ready (pgArs 3) = true) ∧ ((s.upTo 3000002000).arsSlice 3 = false) ∧ (((s.viewsOf 3).all fun x => (s.viewH 3 x).hold.isNone) = true) ∧ ((s.viewH 3 0).on = true) ∧ ((((s.upTo 3000002000).viewPredict 3 0 (max s.now 3000002000)).viewH 3 0).pts = (⟨5, 3000000000, 10000, 0, false, false, none⟩ : GridPt) :: ([⟨6, 3000001000, 1, 0, false, false, none⟩] : List GridPt)) ∧ (((s.upTo 3000002000).viewPredict 3 0 (max s.now 3000002000)).viewAhead 3 0 = false) ∧ ((((s.upTo 3000002000).viewPredict 3 0 (max s.now 3000002000)).viewH 3 0).n < (((s.upTo 3000002000).viewPredict 3 0 (max s.now 3000002000)).viewH 3 0).len) ∧ ((((s.upTo 3000002000).viewPredict 3 0 (max s.now 3000002000)).viewH 3 0).ring % 64 = 0) ∧ (s.usable ((((s.upTo 3000002000).viewPredict 3 0 (max s.now 3000002000)).viewH 3 0).slotAddr 3 (((s.upTo 3000002000).viewPredict 3 0 (max s.now 3000002000)).viewH 3 0).prod) (((s.upTo 3000002000).viewPredict 3 0 (max s.now 3000002000)).viewH 3 0).slotBytes = true) ∧ (bit ((s.upTo 3000002000).flipRegs (pgEccC 3)).1 31 = false) ∧ ((if (((s.upTo 3000002000).viewPredict 3 0 (max s.now 3000002000)).viewH 3 0).isOpen then (((s.upTo 3000002000).viewPredict 3 0 (max s.now 3000002000)).viewH 3 0).n else 0) + 1 < (((s.upTo 3000002000).viewPredict 3 0 (max s.now 3000002000)).viewH 3 0).len) ∧ (((clusterBase 3 + s.rd (pgArs 3) 0x040 + 64 * 0) + 64 ≤ clusterBase 3 + (((s.upTo 3000002000).viewPredict 3 0 (max s.now 3000002000)).viewH 3 0).ring ∨ clusterBase 3 + (((s.upTo 3000002000).viewPredict 3 0 (max s.now 3000002000)).viewH 3 0).ring + 64 + 2 ^ (((s.upTo 3000002000).viewPredict 3 0 (max s.now 3000002000)).viewH 3 0).ringLog * (((s.upTo 3000002000).viewPredict 3 0 (max s.now 3000002000)).viewH 3 0).slotBytes ≤ (clusterBase 3 + s.rd (pgArs 3) 0x040 + 64 * 0))) ∧ ((⟨5, 3000000000, 10000, 0, false, false, none⟩ : GridPt).stop = none) ∧ ((((s.upTo 3000002000).viewPredict 3 0 (max s.now 3000002000)).ptNeed 3 (((s.upTo 3000002000).viewPredict 3 0 (max s.now 3000002000)).viewH 3 0) (⟨5, 3000000000, 10000, 0, false, false, none⟩ : GridPt)).isOver = false) ∧ ((((s.upTo 3000002000).viewPredict 3 0 (max s.now 3000002000)).ptNeed 3 (((s.upTo 3000002000).viewPredict 3 0 (max s.now 3000002000)).viewH 3 0) (⟨5, 3000000000, 10000, 0, false, false, none⟩ : GridPt)).under = false) ∧ (((((s.upTo 3000002000).viewPredict 3 0 (max s.now 3000002000)).ptNeed 3 (((s.upTo 3000002000).viewPredict 3 0 (max s.now 3000002000)).viewH 3 0) (⟨5, 3000000000, 10000, 0, false, false, none⟩ : GridPt)).u.floor + 65 ≤ (octCount (((s.upTo 3000002000).viewPredict 3 0 (max s.now 3000002000)).ptNeed 3 (((s.upTo 3000002000).viewPredict 3 0 (max s.now 3000002000)).viewH 3 0) (⟨5, 3000000000, 10000, 0, false, false, none⟩ : GridPt)).D (s.inH 3 (((s.upTo 3000002000).viewPredict 3 0 (max s.now 3000002000)).viewH 3 0).input).next : Int))) ∧ (firstGap (((s.upTo 3000002000).viewPredict 3 0 (max s.now 3000002000)).taps 3 (((s.upTo 3000002000).viewPredict 3 0 (max s.now 3000002000)).viewH 3 0).input (((s.upTo 3000002000).viewPredict 3 0 (max s.now 3000002000)).ptNeed 3 (((s.upTo 3000002000).viewPredict 3 0 (max s.now 3000002000)).viewH 3 0) (⟨5, 3000000000, 10000, 0, false, false, none⟩ : GridPt)).D ((((s.upTo 3000002000).viewPredict 3 0 (max s.now 3000002000)).ptNeed 3 (((s.upTo 3000002000).viewPredict 3 0 (max s.now 3000002000)).viewH 3 0) (⟨5, 3000000000, 10000, 0, false, false, none⟩ : GridPt)).u.floor - 63) 128) = some 2) ∧ (2 < 32))
    ∧ (∃ s : State, ((Instr.outputSample 3 0 3000002000 (⟨false, false⟩)).wf = true) ∧ (s.calm = true) ∧ (s.ready (pgArs 3) = true) ∧ ((s.upTo 3000002000).arsSlice 3 = false) ∧ (((s.viewsOf 3).all fun x => (s.viewH 3 x).hold.isNone) = true) ∧ ((s.viewH 3 0).on = true) ∧ ((((s.upTo 3000002000).viewPredict 3 0 (max s.now 3000002000)).viewH 3 0).pts = (⟨5, 3000000000, 10000, 0, false, false, none⟩ : GridPt) :: ([⟨6, 3000001000, 1, 0, false, false, none⟩] : List GridPt)) ∧ (((s.upTo 3000002000).viewPredict 3 0 (max s.now 3000002000)).viewAhead 3 0 = false) ∧ ((((s.upTo 3000002000).viewPredict 3 0 (max s.now 3000002000)).viewH 3 0).n < (((s.upTo 3000002000).viewPredict 3 0 (max s.now 3000002000)).viewH 3 0).len) ∧ ((((s.upTo 3000002000).viewPredict 3 0 (max s.now 3000002000)).viewH 3 0).ring % 64 = 0) ∧ (s.usable ((((s.upTo 3000002000).viewPredict 3 0 (max s.now 3000002000)).viewH 3 0).slotAddr 3 (((s.upTo 3000002000).viewPredict 3 0 (max s.now 3000002000)).viewH 3 0).prod) (((s.upTo 3000002000).viewPredict 3 0 (max s.now 3000002000)).viewH 3 0).slotBytes = true) ∧ (bit ((s.upTo 3000002000).flipRegs (pgEccC 3)).1 31 = false) ∧ ((if (((s.upTo 3000002000).viewPredict 3 0 (max s.now 3000002000)).viewH 3 0).isOpen then (((s.upTo 3000002000).viewPredict 3 0 (max s.now 3000002000)).viewH 3 0).n else 0) + 1 < (((s.upTo 3000002000).viewPredict 3 0 (max s.now 3000002000)).viewH 3 0).len) ∧ (((clusterBase 3 + s.rd (pgArs 3) 0x040 + 64 * 0) + 64 ≤ clusterBase 3 + (((s.upTo 3000002000).viewPredict 3 0 (max s.now 3000002000)).viewH 3 0).ring ∨ clusterBase 3 + (((s.upTo 3000002000).viewPredict 3 0 (max s.now 3000002000)).viewH 3 0).ring + 64 + 2 ^ (((s.upTo 3000002000).viewPredict 3 0 (max s.now 3000002000)).viewH 3 0).ringLog * (((s.upTo 3000002000).viewPredict 3 0 (max s.now 3000002000)).viewH 3 0).slotBytes ≤ (clusterBase 3 + s.rd (pgArs 3) 0x040 + 64 * 0))) ∧ ((⟨5, 3000000000, 10000, 0, false, false, none⟩ : GridPt).stop = none) ∧ ((((s.upTo 3000002000).viewPredict 3 0 (max s.now 3000002000)).ptNeed 3 (((s.upTo 3000002000).viewPredict 3 0 (max s.now 3000002000)).viewH 3 0) (⟨5, 3000000000, 10000, 0, false, false, none⟩ : GridPt)).isOver = false) ∧ ((((s.upTo 3000002000).viewPredict 3 0 (max s.now 3000002000)).ptNeed 3 (((s.upTo 3000002000).viewPredict 3 0 (max s.now 3000002000)).viewH 3 0) (⟨5, 3000000000, 10000, 0, false, false, none⟩ : GridPt)).under = false) ∧ (((((s.upTo 3000002000).viewPredict 3 0 (max s.now 3000002000)).ptNeed 3 (((s.upTo 3000002000).viewPredict 3 0 (max s.now 3000002000)).viewH 3 0) (⟨5, 3000000000, 10000, 0, false, false, none⟩ : GridPt)).u.floor + 65 ≤ (octCount (((s.upTo 3000002000).viewPredict 3 0 (max s.now 3000002000)).ptNeed 3 (((s.upTo 3000002000).viewPredict 3 0 (max s.now 3000002000)).viewH 3 0) (⟨5, 3000000000, 10000, 0, false, false, none⟩ : GridPt)).D (s.inH 3 (((s.upTo 3000002000).viewPredict 3 0 (max s.now 3000002000)).viewH 3 0).input).next : Int))) ∧ (firstGap (((s.upTo 3000002000).viewPredict 3 0 (max s.now 3000002000)).taps 3 (((s.upTo 3000002000).viewPredict 3 0 (max s.now 3000002000)).viewH 3 0).input (((s.upTo 3000002000).viewPredict 3 0 (max s.now 3000002000)).ptNeed 3 (((s.upTo 3000002000).viewPredict 3 0 (max s.now 3000002000)).viewH 3 0) (⟨5, 3000000000, 10000, 0, false, false, none⟩ : GridPt)).D ((((s.upTo 3000002000).viewPredict 3 0 (max s.now 3000002000)).ptNeed 3 (((s.upTo 3000002000).viewPredict 3 0 (max s.now 3000002000)).viewH 3 0) (⟨5, 3000000000, 10000, 0, false, false, none⟩ : GridPt)).u.floor - 63) 128) = none))
    ∧ (∃ s : State, ((Instr.outputSample 3 0 3000002000 (⟨false, false⟩)).wf = true) ∧ (s.calm = true) ∧ (s.ready (pgArs 3) = true) ∧ ((s.upTo 3000002000).arsSlice 3 = false) ∧ (((s.viewsOf 3).all fun x => (s.viewH 3 x).hold.isNone) = true) ∧ ((s.viewH 3 0).on = true) ∧ ((((s.upTo 3000002000).viewPredict 3 0 (max s.now 3000002000)).viewH 3 0).pts = (⟨5, 3000000000, 1000, 0, false, false, (some 16)⟩ : GridPt) :: ([⟨6, 3000001000, 1, 0, false, false, none⟩] : List GridPt)) ∧ (((s.upTo 3000002000).viewPredict 3 0 (max s.now 3000002000)).viewAhead 3 0 = false) ∧ ((((s.upTo 3000002000).viewPredict 3 0 (max s.now 3000002000)).viewH 3 0).n < (((s.upTo 3000002000).viewPredict 3 0 (max s.now 3000002000)).viewH 3 0).len) ∧ ((⟨5, 3000000000, 1000, 0, false, false, (some 16)⟩ : GridPt).stop = some 16) ∧ (((((s.upTo 3000002000).viewPredict 3 0 (max s.now 3000002000)).ptNeed 3 (((s.upTo 3000002000).viewPredict 3 0 (max s.now 3000002000)).viewH 3 0) (⟨5, 3000000000, 1000, 0, false, false, (some 16)⟩ : GridPt)).isOver = true ∨ (((s.upTo 3000002000).viewPredict 3 0 (max s.now 3000002000)).ptNeed 3 (((s.upTo 3000002000).viewPredict 3 0 (max s.now 3000002000)).viewH 3 0) (⟨5, 3000000000, 1000, 0, false, false, (some 16)⟩ : GridPt)).under = true ∨ ((((s.upTo 3000002000).viewPredict 3 0 (max s.now 3000002000)).ptNeed 3 (((s.upTo 3000002000).viewPredict 3 0 (max s.now 3000002000)).viewH 3 0) (⟨5, 3000000000, 1000, 0, false, false, (some 16)⟩ : GridPt)).u.floor + 65 ≤ (octCount (((s.upTo 3000002000).viewPredict 3 0 (max s.now 3000002000)).ptNeed 3 (((s.upTo 3000002000).viewPredict 3 0 (max s.now 3000002000)).viewH 3 0) (⟨5, 3000000000, 1000, 0, false, false, (some 16)⟩ : GridPt)).D (s.inH 3 (((s.upTo 3000002000).viewPredict 3 0 (max s.now 3000002000)).viewH 3 0).input).next : Int))))) :=
    ⟨⟨((((((State.reset.wr (pgArs 3) 0x00C 1).wr (pgArs 3) 8 1).setFld (pgEccC 3) 0x048 31 0 0xAAAAAAAA).setBank (pgEccC 3) 0 { inited := true }).setIn 3 0 { on := true, st := 2, chan := 7, size := 4, dmax := 0, histLog := 8, ring := 0x20000, hist := 0x40000, next := 99999999, rate := 5 }).setView 3 0 { on := true, nlog := 5, ringLog := 4, ring := 0x60000, stepCfg := 0x08000000, grid := true, isOpen := true, n := 3, rateMax := 0x469C4000, pts := [⟨5, 3000000000, 10000, 0, false, false, none⟩, ⟨6, 3000001000, 1, 0, false, false, none⟩] }), by decide +kernel⟩,
    ⟨((((((State.reset.wr (pgArs 3) 0x00C 1).wr (pgArs 3) 8 1).setFld (pgEccC 3) 0x048 31 0 0xAAAAAAAA).setBank (pgEccC 3) 0 { inited := true }).setIn 3 0 { on := true, st := 2, chan := 7, size := 4, dmax := 0, histLog := 8, ring := 0x20000, hist := 0x40000, next := 50, rate := 5 }).setView 3 0 { on := true, nlog := 5, ringLog := 4, ring := 0x60000, stepCfg := 0x08000000, grid := true, isOpen := true, n := 3, rateMax := 0x42000000, pts := [⟨5, 3000000000, 1000, 0, false, false, none⟩, ⟨6, 3000001000, 1, 0, false, false, none⟩] }), by decide +kernel⟩,
    ⟨((((((State.reset.wr (pgArs 3) 0x00C 1).wr (pgArs 3) 8 1).setFld (pgEccC 3) 0x048 31 0 0xAAAAAAAA).setBank (pgEccC 3) 0 { inited := true }).setIn 3 0 { on := true, st := 2, chan := 7, size := 4, dmax := 0, histLog := 8, ring := 0x20000, hist := 0x40000, next := 50, rate := 5 }).setView 3 0 { on := true, nlog := 5, ringLog := 4, ring := 0x60000, stepCfg := 0x08000000, grid := true, isOpen := true, n := 3, rateMax := 0x42000000, pts := [⟨5, 3000000000, 1, 0, false, false, none⟩, ⟨6, 3000001000, 1, 0, false, false, none⟩] }), by decide +kernel⟩,
    ⟨((((((State.reset.wr (pgArs 3) 0x00C 1).wr (pgArs 3) 8 1).setFld (pgEccC 3) 0x048 31 0 0xAAAAAAAA).setBank (pgEccC 3) 0 { inited := true }).setIn 3 0 { on := true, st := 2, chan := 7, size := 4, dmax := 0, histLog := 8, ring := 0x20000, hist := 0x40000, next := 99999999, rate := 5 }).setView 3 0 { on := true, nlog := 5, ringLog := 4, ring := 0x60000, stepCfg := 0x08000000, grid := true, isOpen := true, n := 3, rateMax := 0x469C4000, pts := [⟨5, 3000000000, 10000, 0, false, false, none⟩, ⟨6, 3000001000, 1, 0, false, false, none⟩] }), by decide +kernel⟩,
    ⟨(((((((State.reset.wr (pgArs 3) 0x00C 1).wr (pgArs 3) 8 1).setFld (pgEccC 3) 0x048 31 0 0xAAAAAAAA).setBank (pgEccC 3) 0 { inited := true }).setIn 3 0 { on := true, st := 2, chan := 7, size := 4, dmax := 0, histLog := 8, ring := 0x20000, hist := 0x40000, next := 99999999, rate := 5 }).setView 3 0 { on := true, nlog := 5, ringLog := 4, ring := 0x60000, stepCfg := 0x08000000, grid := true, isOpen := true, n := 3, rateMax := 0x469C4000, pts := [⟨5, 3000000000, 10000, 0, false, false, none⟩, ⟨6, 3000001000, 1, 0, false, false, none⟩] }).setIn 3 0 { ((((((((State.reset.wr (pgArs 3) 0x00C 1).wr (pgArs 3) 8 1).setFld (pgEccC 3) 0x048 31 0 0xAAAAAAAA).setBank (pgEccC 3) 0 { inited := true }).setIn 3 0 { on := true, st := 2, chan := 7, size := 4, dmax := 0, histLog := 8, ring := 0x20000, hist := 0x40000, next := 99999999, rate := 5 }).setView 3 0 { on := true, nlog := 5, ringLog := 4, ring := 0x60000, stepCfg := 0x08000000, grid := true, isOpen := true, n := 3, rateMax := 0x42000000, pts := [⟨5, 3000000000, 10000, 0, false, false, none⟩, ⟨6, 3000001000, 1, 0, false, false, none⟩] }) : State).inH 3 0) with first := some 0 }), by decide +kernel⟩,
    ⟨((((((State.reset.wr (pgArs 3) 0x00C 1).wr (pgArs 3) 8 1).setFld (pgEccC 3) 0x048 31 0 0xAAAAAAAA).setBank (pgEccC 3) 0 { inited := true }).setIn 3 0 { on := true, st := 2, chan := 7, size := 4, dmax := 0, histLog := 8, ring := 0x20000, hist := 0x40000, next := 50, rate := 5 }).setView 3 0 { on := true, nlog := 5, ringLog := 4, ring := 0x60000, stepCfg := 0x08000000, grid := true, isOpen := true, n := 3, rateMax := 0x42000000, pts := [⟨5, 3000000000, 1000, 0, false, false, (some 16)⟩, ⟨6, 3000001000, 1, 0, false, false, none⟩] }), by decide +kernel⟩⟩

theorem witness_TfeJobs_1 :
    (∃ s : State, ((Instr.tfeSubmit .basecamp 3 0x100 9).wf = true) ∧ (s.calm = true) ∧ (s.powered (pgTfe 3) = true) ∧ ((s.pageH (pgTfe 3)).resetting = false) ∧ (s.mayWrite .basecamp (pgTfe 3) .tfe = true) ∧ ((s.ready (pgTfe 3) || s.busy (pgTfe 3) || s.faulted (pgTfe 3) || s.retired (pgTfe 3)) = true) ∧ ((s.retired (pgTfe 3) && s.retired (pgTfe (partner 3))) = false) ∧ ((((s.tfeH 3).hiQ ++ (s.tfeH 3).noQ).all fun x => decide (x.rank ≤ 1000)) = true) ∧ (¬((s.rdMem ((clusterBase 3 + 0x100 * 64) + 63) 1).1.1 = 1 ∨ (s.rdMem ((clusterBase 3 + 0x100 * 64) + 63) 1).1.1 = 2)) ∧ ((s.rdMem (clusterBase 3 + 0x100 * 64) 48).1.2 = false) ∧ ((if jHigh (jobClamp (toWords 12 (s.rdMem (clusterBase 3 + 0x100 * 64) 48).1.1)) then (s.tfeH 3).hiQ else (s.tfeH 3).noQ).length < 64))
    ∧ (∃ s : State, ((Instr.tfeSubmit .basecamp 3 0x100 9).wf = true) ∧ (s.calm = true) ∧ (s.powered (pgTfe 3) = true) ∧ ((s.pageH (pgTfe 3)).resetting = false) ∧ (s.mayWrite .basecamp (pgTfe 3) .tfe = true) ∧ (s.usable (clusterBase 3 + 0x100 * 64) 64 = true) ∧ (((s.rdMem ((clusterBase 3 + 0x100 * 64) + 63) 1).1.1 = 1 ∨ (s.rdMem ((clusterBase 3 + 0x100 * 64) + 63) 1).1.1 = 2)))
    ∧ (∃ s : State, ((Instr.tfeSubmit .basecamp 3 0x100 9).wf = true) ∧ (s.calm = true) ∧ (s.powered (pgTfe 3) = true) ∧ ((s.pageH (pgTfe 3)).resetting = false) ∧ (s.mayWrite .basecamp (pgTfe 3) .tfe = true) ∧ (s.usable (clusterBase 3 + 0x100 * 64) 64 = true) ∧ (bit ((s.upTo 9).flipRegs (pgEccC 3)).1 31 = false) ∧ (¬((s.rdMem ((clusterBase 3 + 0x100 * 64) + 63) 1).1.1 = 1 ∨ (s.rdMem ((clusterBase 3 + 0x100 * 64) + 63) 1).1.1 = 2)) ∧ ((s.ready (pgTfe 3) || s.busy (pgTfe 3) || s.faulted (pgTfe 3) || s.retired (pgTfe 3)) = true) ∧ ((s.retired (pgTfe 3) && s.retired (pgTfe (partner 3))) = false) ∧ ((s.rdMem (clusterBase 3 + 0x100 * 64) 48).1.2 = false) ∧ (64 ≤ (if jHigh (jobClamp (toWords 12 (s.rdMem (clusterBase 3 + 0x100 * 64) 48).1.1)) then (s.tfeH 3).hiQ else (s.tfeH 3).noQ).length))
    ∧ (∃ s : State, ((Instr.tfeSubmit .basecamp 3 0x100 9).wf = true) ∧ (s.calm = true) ∧ (s.powered (pgTfe 3) = true) ∧ ((s.pageH (pgTfe 3)).resetting = false) ∧ (s.mayWrite .basecamp (pgTfe 3) .tfe = true) ∧ (s.usable (clusterBase 3 + 0x100 * 64) 64 = true) ∧ (bit ((s.upTo 9).flipRegs (pgEccC 3)).1 31 = false) ∧ (¬((s.rdMem ((clusterBase 3 + 0x100 * 64) + 63) 1).1.1 = 1 ∨ (s.rdMem ((clusterBase 3 + 0x100 * 64) + 63) 1).1.1 = 2)) ∧ ((s.rdMem (clusterBase 3 + 0x100 * 64) 48).1.2 = true))
    ∧ (∃ s : State, ((Instr.tfeSubmit .basecamp 3 0x100 9).wf = true) ∧ (s.calm = true) ∧ (s.powered (pgTfe 3) = true) ∧ ((s.pageH (pgTfe 3)).resetting = false) ∧ (s.mayWrite .basecamp (pgTfe 3) .tfe = true) ∧ (s.usable (clusterBase 3 + 0x100 * 64) 64 = true) ∧ (bit ((s.upTo 9).flipRegs (pgEccC 3)).1 31 = false) ∧ (¬((s.rdMem ((clusterBase 3 + 0x100 * 64) + 63) 1).1.1 = 1 ∨ (s.rdMem ((clusterBase 3 + 0x100 * 64) + 63) 1).1.1 = 2)) ∧ (s.ready (pgTfe 3) = false) ∧ (s.busy (pgTfe 3) = false) ∧ (s.faulted (pgTfe 3) = false) ∧ (s.retired (pgTfe 3) = false) ∧ ((s.rdMem (clusterBase 3 + 0x100 * 64) 48).1.2 = false))
    ∧ (∃ s : State, ((Instr.tfeSubmit .basecamp 3 0x100 9).wf = true) ∧ (s.calm = true) ∧ (s.powered (pgTfe 3) = true) ∧ ((s.pageH (pgTfe 3)).resetting = false) ∧ (s.mayWrite .basecamp (pgTfe 3) .tfe = true) ∧ (s.usable (clusterBase 3 + 0x100 * 64) 64 = true) ∧ (bit ((s.upTo 9).flipRegs (pgEccC 3)).1 31 = false) ∧ (¬((s.rdMem ((clusterBase 3 + 0x100 * 64) + 63) 1).1.1 = 1 ∨ (s.rdMem ((clusterBase 3 + 0x100 * 64) + 63) 1).1.1 = 2)) ∧ (s.retired (pgTfe 3) = true) ∧ (s.retired (pgTfe (partner 3)) = true) ∧ ((s.rdMem (clusterBase 3 + 0x100 * 64) 48).1.2 = false)) :=
    ⟨⟨(((((State.reset.wr (pgTfe 3) 0x00C 1).wr (pgTfe 3) 8 1).setFld (pgEccC 3) 0x048 31 0 0xAAAAAAAA).setBank (pgEccC 3) 0 { inited := true }).setEstate 3 1), by decide +kernel⟩,
    ⟨((((((State.reset.wr (pgTfe 3) 0x00C 1).wr (pgTfe 3) 8 1).setFld (pgEccC 3) 0x048 31 0 0xAAAAAAAA).setBank (pgEccC 3) 0 { inited := true }).setEstate 3 1).wrMem (clusterBase 3 + 0x4000 + 63) 1 1), by decide +kernel⟩,
    ⟨((((((State.reset.wr (pgTfe 3) 0x00C 1).wr (pgTfe 3) 8 1).setFld (pgEccC 3) 0x048 31 0 0xAAAAAAAA).setBank (pgEccC 3) 0 { inited := true }).setEstate 3 1).setTfe 3 { noQ := List.replicate 64 ⟨0x4000, [0,0,0,0,0,0,0,0,0,0,0,0], 5, 0, false, 1000, false, false, false⟩ }), by decide +kernel⟩,
    ⟨((((((State.reset.wr (pgTfe 3) 0x00C 1).wr (pgTfe 3) 8 1).setFld (pgEccC 3) 0x048 31 0 0xAAAAAAAA).setBank (pgEccC 3) 0 { inited := true }).setEstate 3 1).wrMem (clusterBase 3 + 0x4000) 8 1 true), by decide +kernel⟩,
    ⟨((((((State.reset.wr (pgTfe 3) 0x00C 1).wr (pgTfe 3) 8 1).setFld (pgEccC 3) 0x048 31 0 0xAAAAAAAA).setBank (pgEccC 3) 0 { inited := true }).setEstate 3 1).wr (pgTfe 3) 8 0), by decide +kernel⟩,
    ⟨(((((((State.reset.wr (pgTfe 3) 0x00C 1).wr (pgTfe 3) 8 1).setFld (pgEccC 3) 0x048 31 0 0xAAAAAAAA).setBank (pgEccC 3) 0 { inited := true }).setEstate 3 1).wr (pgTfe 3) 8 8).wr (pgTfe 2) 8 8), by decide +kernel⟩⟩

theorem witness_TfeJobs_2 :
    (∃ s : State, ((Instr.jobStart 3 9).wf = true) ∧ (s.calm = true) ∧ (s.ready (pgTfe 3) = true) ∧ (s.estate 3 = 1) ∧ ((match (s.tfeH 3).sending with | some key => (s.queue key).isEmpty || (s.entryOf key).isNone | none => true) = true) ∧ (((s.bistH (pgBistC 3)).held.any fun x => x.unit == 8 && decide (x.t + 30000000 ≤ 9)) = false) ∧ (s.tfePick 3 = some (false, true)) ∧ ((if true then (s.tfeH (if false then partner 3 else 3)).hiQ else (s.tfeH (if false then partner 3 else 3)).noQ) = (⟨0x4000, [0,0,0,0,0,0,0,0,0,0,0,0], 5, 0, false, 1000, false, false, false⟩ : TfeJob) :: ([] : List TfeJob)))
    ∧ (∃ s : State, ((Instr.jobStart 3 9).wf = true) ∧ (s.calm = true) ∧ (s.ready (pgTfe 3) = true) ∧ (s.estate 3 = 1) ∧ ((match (s.tfeH 3).sending with | some key => (s.queue key).isEmpty || (s.entryOf key).isNone | none => true) = true) ∧ (((s.bistH (pgBistC 3)).held.any fun x => x.unit == 8 && decide (x.t + 30000000 ≤ 9)) = false) ∧ (s.tfePick 3 = some (true, false)) ∧ ((if false then (s.tfeH (if true then partner 3 else 3)).hiQ else (s.tfeH (if true then partner 3 else 3)).noQ) = (⟨0x4000, [0,0,0,0,0,0,0,0,0,0,0,0], 5, 0, false, 1000, false, false, false⟩ : TfeJob) :: ([] : List TfeJob)) ∧ (jOp (⟨0x4000, [0,0,0,0,0,0,0,0,0,0,0,0], 5, 0, false, 1000, false, false, false⟩ : TfeJob).words = 0) ∧ (s.ready (pgTfe (partner 3)) = false) ∧ (true = true))
    ∧ (∃ s : State, ((Instr.jobStart 3 9).wf = true) ∧ (s.calm = true) ∧ (s.ready (pgTfe 3) = true) ∧ (s.estate 3 = 1) ∧ ((match (s.tfeH 3).sending with | some key => (s.queue key).isEmpty || (s.entryOf key).isNone | none => true) = true) ∧ (((s.bistH (pgBistC 3)).held.any fun x => x.unit == 8 && decide (x.t + 30000000 ≤ 9)) = false) ∧ (s.tfePick 3 = some (false, true)) ∧ ((if true then (s.tfeH (if false then partner 3 else 3)).hiQ else (s.tfeH (if false then partner 3 else 3)).noQ) = (⟨0x4000, [0x13080000 + 0x4000, 0x8000, 0, 0, 0xC000, 0, 0, 0, 0, 0, 0, 0], 5, 0, false, 1000, false, false, false⟩ : TfeJob) :: ([] : List TfeJob)) ∧ (false = false) ∧ (jOp (⟨0x4000, [0x13080000 + 0x4000, 0x8000, 0, 0, 0xC000, 0, 0, 0, 0, 0, 0, 0], 5, 0, false, 1000, false, false, false⟩ : TfeJob).words = 1) ∧ (jReal (⟨0x4000, [0x13080000 + 0x4000, 0x8000, 0, 0, 0xC000, 0, 0, 0, 0, 0, 0, 0], 5, 0, false, 1000, false, false, false⟩ : TfeJob).words = true) ∧ (jView (⟨0x4000, [0x13080000 + 0x4000, 0x8000, 0, 0, 0xC000, 0, 0, 0, 0, 0, 0, 0], 5, 0, false, 1000, false, false, false⟩ : TfeJob).words 1 = false) ∧ (jWin (⟨0x4000, [0x13080000 + 0x4000, 0x8000, 0, 0, 0xC000, 0, 0, 0, 0, 0, 0, 0], 5, 0, false, 1000, false, false, false⟩ : TfeJob).words ≠ 6) ∧ (jAvg (⟨0x4000, [0x13080000 + 0x4000, 0x8000, 0, 0, 0xC000, 0, 0, 0, 0, 0, 0, 0], 5, 0, false, 1000, false, false, false⟩ : TfeJob).words ≠ 4) ∧ (((s.readWords (clusterBase 3 + jArg (⟨0x4000, [0x13080000 + 0x4000, 0x8000, 0, 0, 0xC000, 0, 0, 0, 0, 0, 0, 0], 5, 0, false, 1000, false, false, false⟩ : TfeJob).words 1) (2 ^ jLogN (⟨0x4000, [0x13080000 + 0x4000, 0x8000, 0, 0, 0xC000, 0, 0, 0, 0, 0, 0, 0], 5, 0, false, 1000, false, false, false⟩ : TfeJob).words)).1.all fun x => fIsFinite x.1 && !x.2) = true) ∧ ((clusterBase 3 + (⟨0x4000, [0x13080000 + 0x4000, 0x8000, 0, 0, 0xC000, 0, 0, 0, 0, 0, 0, 0], 5, 0, false, 1000, false, false, false⟩ : TfeJob).desc + 64 ≤ (clusterBase 3 + jArg (⟨0x4000, [0x13080000 + 0x4000, 0x8000, 0, 0, 0xC000, 0, 0, 0, 0, 0, 0, 0], 5, 0, false, 1000, false, false, false⟩ : TfeJob).words 1) ∨ (clusterBase 3 + jArg (⟨0x4000, [0x13080000 + 0x4000, 0x8000, 0, 0, 0xC000, 0, 0, 0, 0, 0, 0, 0], 5, 0, false, 1000, false, false, false⟩ : TfeJob).words 1) + 4 * 2 ^ jLogN (⟨0x4000, [0x13080000 + 0x4000, 0x8000, 0, 0, 0xC000, 0, 0, 0, 0, 0, 0, 0], 5, 0, false, 1000, false, false, false⟩ : TfeJob).words ≤ clusterBase 3 + (⟨0x4000, [0x13080000 + 0x4000, 0x8000, 0, 0, 0xC000, 0, 0, 0, 0, 0, 0, 0], 5, 0, false, 1000, false, false, false⟩ : TfeJob).desc)) ∧ ((⟨0x4000, [0x13080000 + 0x4000, 0x8000, 0, 0, 0xC000, 0, 0, 0, 0, 0, 0, 0], 5, 0, false, 1000, false, false, false⟩ : TfeJob).desc % 64 = 0) ∧ ((clusterBase 3 + jArg (⟨0x4000, [0x13080000 + 0x4000, 0x8000, 0, 0, 0xC000, 0, 0, 0, 0, 0, 0, 0], 5, 0, false, 1000, false, false, false⟩ : TfeJob).words 1) % 64 = 0))
    ∧ (∃ s : State, ((Instr.jobStart 3 9).wf = true) ∧ (s.calm = true) ∧ (s.ready (pgTfe 3) = true) ∧ (s.estate 3 = 1) ∧ ((match (s.tfeH 3).sending with | some key => (s.queue key).isEmpty || (s.entryOf key).isNone | none => true) = true) ∧ (((s.bistH (pgBistC 3)).held.any fun x => x.unit == 8 && decide (x.t + 30000000 ≤ 9)) = false) ∧ (s.tfePick 3 = some (false, true)) ∧ ((if true then (s.tfeH (if false then partner 3 else 3)).hiQ else (s.tfeH (if false then partner 3 else 3)).noQ) = (⟨0x4000, [0x13080000 + 0x4000, 0x40000005, 0, 0, 0xC000, 0, 0, 0, 0, 0, 0, 0], 5, 0, false, 1000, false, false, false⟩ : TfeJob) :: ([] : List TfeJob)) ∧ (false = false) ∧ (jOp (⟨0x4000, [0x13080000 + 0x4000, 0x40000005, 0, 0, 0xC000, 0, 0, 0, 0, 0, 0, 0], 5, 0, false, 1000, false, false, false⟩ : TfeJob).words = 1) ∧ (jView (⟨0x4000, [0x13080000 + 0x4000, 0x40000005, 0, 0, 0xC000, 0, 0, 0, 0, 0, 0, 0], 5, 0, false, 1000, false, false, false⟩ : TfeJob).words 1 = true) ∧ ((s.viewH 3 (jArg (⟨0x4000, [0x13080000 + 0x4000, 0x40000005, 0, 0, 0xC000, 0, 0, 0, 0, 0, 0, 0], 5, 0, false, 1000, false, false, false⟩ : TfeJob).words 1 % 512)).on = false) ∧ (jWin (⟨0x4000, [0x13080000 + 0x4000, 0x40000005, 0, 0, 0xC000, 0, 0, 0, 0, 0, 0, 0], 5, 0, false, 1000, false, false, false⟩ : TfeJob).words ≠ 6) ∧ (jDone (⟨0x4000, [0x13080000 + 0x4000, 0x40000005, 0, 0, 0xC000, 0, 0, 0, 0, 0, 0, 0], 5, 0, false, 1000, false, false, false⟩ : TfeJob).words = 0) ∧ (s.usable (clusterBase 3 + (⟨0x4000, [0x13080000 + 0x4000, 0x40000005, 0, 0, 0xC000, 0, 0, 0, 0, 0, 0, 0], 5, 0, false, 1000, false, false, false⟩ : TfeJob).desc) 64 = true) ∧ (bit ((s.upTo 9).flipRegs (pgEccC 3)).1 31 = false) ∧ ((⟨0x4000, [0x13080000 + 0x4000, 0x40000005, 0, 0, 0xC000, 0, 0, 0, 0, 0, 0, 0], 5, 0, false, 1000, false, false, false⟩ : TfeJob).desc % 64 = 0))
    ∧ (∃ s : State, ((Instr.stagesPass 3 900).wf = true) ∧ (s.calm = true) ∧ (s.ready (pgTfe 3) = true) ∧ ((s.tfeH 3).run = some ({ job := ⟨0x4000, [0,0,0,0,0,0,0,0,0,0,0,0], 5, 0, false, 1000, false, false, false⟩, hosted := false, hi := true, retry := true } : TfeRun)) ∧ (s.hostStalled (if ({ job := ⟨0x4000, [0,0,0,0,0,0,0,0,0,0,0,0], 5, 0, false, 1000, false, false, false⟩, hosted := false, hi := true, retry := true } : TfeRun).hosted then partner 3 else 3) ({ job := ⟨0x4000, [0,0,0,0,0,0,0,0,0,0,0,0], 5, 0, false, 1000, false, false, false⟩, hosted := false, hi := true, retry := true } : TfeRun) = false) ∧ (({ job := ⟨0x4000, [0,0,0,0,0,0,0,0,0,0,0,0], 5, 0, false, 1000, false, false, false⟩, hosted := false, hi := true, retry := true } : TfeRun).overran = false) ∧ ((({ job := ⟨0x4000, [0,0,0,0,0,0,0,0,0,0,0,0], 5, 0, false, 1000, false, false, false⟩, hosted := false, hi := true, retry := true } : TfeRun).retry = false ∨ ((s.tfeH 3).passes.filter fun d => decide (900 < d + 30000000)).length < 2)) ∧ (((if jOp ({ job := ⟨0x4000, [0,0,0,0,0,0,0,0,0,0,0,0], 5, 0, false, 1000, false, false, false⟩, hosted := false, hi := true, retry := true } : TfeRun).job.words = 0 then [] else (jobOut ({ job := ⟨0x4000, [0,0,0,0,0,0,0,0,0,0,0,0], 5, 0, false, 1000, false, false, false⟩, hosted := false, hi := true, retry := true } : TfeRun).job.words ({ job := ⟨0x4000, [0,0,0,0,0,0,0,0,0,0,0,0], 5, 0, false, 1000, false, false, false⟩, hosted := false, hi := true, retry := true } : TfeRun).a ({ job := ⟨0x4000, [0,0,0,0,0,0,0,0,0,0,0,0], 5, 0, false, 1000, false, false, false⟩, hosted := false, hi := true, retry := true } : TfeRun).b ({ job := ⟨0x4000, [0,0,0,0,0,0,0,0,0,0,0,0], 5, 0, false, 1000, false, false, false⟩, hosted := false, hi := true, retry := true } : TfeRun).uw).checks).find? fun q => !q.2.passes (s.chkShift 3)) = none))
    ∧ (∃ s : State, ((Instr.stagesPass 3 900).wf = true) ∧ (s.calm = true) ∧ (s.ready (pgTfe 3) = true) ∧ ((s.tfeH 3).run = some ({ job := ⟨0x4000, [0x13086000, 0x8000, 0, 0, 0xC000, 0, 0, 0, 0, 0, 0, 0], 5, 0, false, 1000, false, false, false⟩, hosted := false, hi := false, a := List.replicate 64 0x3F800000 } : TfeRun)) ∧ (({ job := ⟨0x4000, [0x13086000, 0x8000, 0, 0, 0xC000, 0, 0, 0, 0, 0, 0, 0], 5, 0, false, 1000, false, false, false⟩, hosted := false, hi := false, a := List.replicate 64 0x3F800000 } : TfeRun).hosted = false) ∧ (({ job := ⟨0x4000, [0x13086000, 0x8000, 0, 0, 0xC000, 0, 0, 0, 0, 0, 0, 0], 5, 0, false, 1000, false, false, false⟩, hosted := false, hi := false, a := List.replicate 64 0x3F800000 } : TfeRun).overran = false) ∧ (({ job := ⟨0x4000, [0x13086000, 0x8000, 0, 0, 0xC000, 0, 0, 0, 0, 0, 0, 0], 5, 0, false, 1000, false, false, false⟩, hosted := false, hi := false, a := List.replicate 64 0x3F800000 } : TfeRun).retry = false) ∧ (jOp ({ job := ⟨0x4000, [0x13086000, 0x8000, 0, 0, 0xC000, 0, 0, 0, 0, 0, 0, 0], 5, 0, false, 1000, false, false, false⟩, hosted := false, hi := false, a := List.replicate 64 0x3F800000 } : TfeRun).job.words ≠ 0) ∧ (jOp ({ job := ⟨0x4000, [0x13086000, 0x8000, 0, 0, 0xC000, 0, 0, 0, 0, 0, 0, 0], 5, 0, false, 1000, false, false, false⟩, hosted := false, hi := false, a := List.replicate 64 0x3F800000 } : TfeRun).job.words ≠ 6) ∧ (jAvg ({ job := ⟨0x4000, [0x13086000, 0x8000, 0, 0, 0xC000, 0, 0, 0, 0, 0, 0, 0], 5, 0, false, 1000, false, false, false⟩, hosted := false, hi := false, a := List.replicate 64 0x3F800000 } : TfeRun).job.words = 0) ∧ (jDone ({ job := ⟨0x4000, [0x13086000, 0x8000, 0, 0, 0xC000, 0, 0, 0, 0, 0, 0, 0], 5, 0, false, 1000, false, false, false⟩, hosted := false, hi := false, a := List.replicate 64 0x3F800000 } : TfeRun).job.words = 0) ∧ (bit (({ job := ⟨0x4000, [0x13086000, 0x8000, 0, 0, 0xC000, 0, 0, 0, 0, 0, 0, 0], 5, 0, false, 1000, false, false, false⟩, hosted := false, hi := false, a := List.replicate 64 0x3F800000 } : TfeRun).job.words.getD 4 0) 25 = false) ∧ (({ job := ⟨0x4000, [0x13086000, 0x8000, 0, 0, 0xC000, 0, 0, 0, 0, 0, 0, 0], 5, 0, false, 1000, false, false, false⟩, hosted := false, hi := false, a := List.replicate 64 0x3F800000 } : TfeRun).pois = false) ∧ (({ job := ⟨0x4000, [0x13086000, 0x8000, 0, 0, 0xC000, 0, 0, 0, 0, 0, 0, 0], 5, 0, false, 1000, false, false, false⟩, hosted := false, hi := false, a := List.replicate 64 0x3F800000 } : TfeRun).pidx = []) ∧ (((if jOp ({ job := ⟨0x4000, [0x13086000, 0x8000, 0, 0, 0xC000, 0, 0, 0, 0, 0, 0, 0], 5, 0, false, 1000, false, false, false⟩, hosted := false, hi := false, a := List.replicate 64 0x3F800000 } : TfeRun).job.words = 0 then [] else (jobOut ({ job := ⟨0x4000, [0x13086000, 0x8000, 0, 0, 0xC000, 0, 0, 0, 0, 0, 0, 0], 5, 0, false, 1000, false, false, false⟩, hosted := false, hi := false, a := List.replicate 64 0x3F800000 } : TfeRun).job.words ({ job := ⟨0x4000, [0x13086000, 0x8000, 0, 0, 0xC000, 0, 0, 0, 0, 0, 0, 0], 5, 0, false, 1000, false, false, false⟩, hosted := false, hi := false, a := List.replicate 64 0x3F800000 } : TfeRun).a ({ job := ⟨0x4000, [0x13086000, 0x8000, 0, 0, 0xC000, 0, 0, 0, 0, 0, 0, 0], 5, 0, false, 1000, false, false, false⟩, hosted := false, hi := false, a := List.replicate 64 0x3F800000 } : TfeRun).b ({ job := ⟨0x4000, [0x13086000, 0x8000, 0, 0, 0xC000, 0, 0, 0, 0, 0, 0, 0], 5, 0, false, 1000, false, false, false⟩, hosted := false, hi := false, a := List.replicate 64 0x3F800000 } : TfeRun).uw).checks).find? fun q => !q.2.passes (s.chkShift 3)) = none) ∧ (s.usable (clusterBase 3 + jDst ({ job := ⟨0x4000, [0x13086000, 0x8000, 0, 0, 0xC000, 0, 0, 0, 0, 0, 0, 0], 5, 0, false, 1000, false, false, false⟩, hosted := false, hi := false, a := List.replicate 64 0x3F800000 } : TfeRun).job.words) (64 + outLen (jOp ({ job := ⟨0x4000, [0x13086000, 0x8000, 0, 0, 0xC000, 0, 0, 0, 0, 0, 0, 0], 5, 0, false, 1000, false, false, false⟩, hosted := false, hi := false, a := List.replicate 64 0x3F800000 } : TfeRun).job.words) (jLogN ({ job := ⟨0x4000, [0x13086000, 0x8000, 0, 0, 0xC000, 0, 0, 0, 0, 0, 0, 0], 5, 0, false, 1000, false, false, false⟩, hosted := false, hi := false, a := List.replicate 64 0x3F800000 } : TfeRun).job.words) (jMlog ({ job := ⟨0x4000, [0x13086000, 0x8000, 0, 0, 0xC000, 0, 0, 0, 0, 0, 0, 0], 5, 0, false, 1000, false, false, false⟩, hosted := false, hi := false, a := List.replicate 64 0x3F800000 } : TfeRun).job.words) (jReal ({ job := ⟨0x4000, [0x13086000, 0x8000, 0, 0, 0xC000, 0, 0, 0, 0, 0, 0, 0], 5, 0, false, 1000, false, false, false⟩, hosted := false, hi := false, a := List.replicate 64 0x3F800000 } : TfeRun).job.words) (jFmt ({ job := ⟨0x4000, [0x13086000, 0x8000, 0, 0, 0xC000, 0, 0, 0, 0, 0, 0, 0], 5, 0, false, 1000, false, false, false⟩, hosted := false, hi := false, a := List.replicate 64 0x3F800000 } : TfeRun).job.words) * entrySize (jFmt ({ job := ⟨0x4000, [0x13086000, 0x8000, 0, 0, 0xC000, 0, 0, 0, 0, 0, 0, 0], 5, 0, false, 1000, false, false, false⟩, hosted := false, hi := false, a := List.replicate 64 0x3F800000 } : TfeRun).job.words)) = true) ∧ (s.usable (clusterBase 3 + ({ job := ⟨0x4000, [0x13086000, 0x8000, 0, 0, 0xC000, 0, 0, 0, 0, 0, 0, 0], 5, 0, false, 1000, false, false, false⟩, hosted := false, hi := false, a := List.replicate 64 0x3F800000 } : TfeRun).job.desc) 64 = true) ∧ (bit ((s.upTo 900).flipRegs (pgEccC 3)).1 31 = false) ∧ (jDst ({ job := ⟨0x4000, [0x13086000, 0x8000, 0, 0, 0xC000, 0, 0, 0, 0, 0, 0, 0], 5, 0, false, 1000, false, false, false⟩, hosted := false, hi := false, a := List.replicate 64 0x3F800000 } : TfeRun).job.words % 64 = 0) ∧ (({ job := ⟨0x4000, [0x13086000, 0x8000, 0, 0, 0xC000, 0, 0, 0, 0, 0, 0, 0], 5, 0, false, 1000, false, false, false⟩, hosted := false, hi := false, a := List.replicate 64 0x3F800000 } : TfeRun).job.desc % 64 = 0) ∧ (((clusterBase 3 + ({ job := ⟨0x4000, [0x13086000, 0x8000, 0, 0, 0xC000, 0, 0, 0, 0, 0, 0, 0], 5, 0, false, 1000, false, false, false⟩, hosted := false, hi := false, a := List.replicate 64 0x3F800000 } : TfeRun).job.desc) + 64 ≤ (clusterBase 3 + jDst ({ job := ⟨0x4000, [0x13086000, 0x8000, 0, 0, 0xC000, 0, 0, 0, 0, 0, 0, 0], 5, 0, false, 1000, false, false, false⟩, hosted := false, hi := false, a := List.replicate 64 0x3F800000 } : TfeRun).job.words) ∨ (clusterBase 3 + jDst ({ job := ⟨0x4000, [0x13086000, 0x8000, 0, 0, 0xC000, 0, 0, 0, 0, 0, 0, 0], 5, 0, false, 1000, false, false, false⟩, hosted := false, hi := false, a := List.replicate 64 0x3F800000 } : TfeRun).job.words) + 64 + outLen (jOp ({ job := ⟨0x4000, [0x13086000, 0x8000, 0, 0, 0xC000, 0, 0, 0, 0, 0, 0, 0], 5, 0, false, 1000, false, false, false⟩, hosted := false, hi := false, a := List.replicate 64 0x3F800000 } : TfeRun).job.words) (jLogN ({ job := ⟨0x4000, [0x13086000, 0x8000, 0, 0, 0xC000, 0, 0, 0, 0, 0, 0, 0], 5, 0, false, 1000, false, false, false⟩, hosted := false, hi := false, a := List.replicate 64 0x3F800000 } : TfeRun).job.words) (jMlog ({ job := ⟨0x4000, [0x13086000, 0x8000, 0, 0, 0xC000, 0, 0, 0, 0, 0, 0, 0], 5, 0, false, 1000, false, false, false⟩, hosted := false, hi := false, a := List.replicate 64 0x3F800000 } : TfeRun).job.words) (jReal ({ job := ⟨0x4000, [0x13086000, 0x8000, 0, 0, 0xC000, 0, 0, 0, 0, 0, 0, 0], 5, 0, false, 1000, false, false, false⟩, hosted := false, hi := false, a := List.replicate 64 0x3F800000 } : TfeRun).job.words) (jFmt ({ job := ⟨0x4000, [0x13086000, 0x8000, 0, 0, 0xC000, 0, 0, 0, 0, 0, 0, 0], 5, 0, false, 1000, false, false, false⟩, hosted := false, hi := false, a := List.replicate 64 0x3F800000 } : TfeRun).job.words) * entrySize (jFmt ({ job := ⟨0x4000, [0x13086000, 0x8000, 0, 0, 0xC000, 0, 0, 0, 0, 0, 0, 0], 5, 0, false, 1000, false, false, false⟩, hosted := false, hi := false, a := List.replicate 64 0x3F800000 } : TfeRun).job.words) ≤ (clusterBase 3 + ({ job := ⟨0x4000, [0x13086000, 0x8000, 0, 0, 0xC000, 0, 0, 0, 0, 0, 0, 0], 5, 0, false, 1000, false, false, false⟩, hosted := false, hi := false, a := List.replicate 64 0x3F800000 } : TfeRun).job.desc)))) :=
    ⟨⟨((((((State.reset.wr (pgTfe 3) 0x00C 1).wr (pgTfe 3) 8 1).setFld (pgEccC 3) 0x048 31 0 0xAAAAAAAA).setBank (pgEccC 3) 0 { inited := true }).setEstate 3 1).setTfe 3 { hiQ := [⟨0x4000, [0,0,0,0,0,0,0,0,0,0,0,0], 5, 0, false, 1000, false, false, false⟩] }), by decide +kernel⟩,
    ⟨(((((State.reset.wr (pgTfe 3) 0x00C 1).wr (pgTfe 3) 8 1).wr (pgClu 2) 8 1).setEstate 3 1).setTfe 2 { hosted := true, noQ := [⟨0x4000, [0,0,0,0,0,0,0,0,0,0,0,0], 5, 0, false, 1000, false, false, false⟩] }), by decide +kernel⟩,
    ⟨((((((State.reset.wr (pgTfe 3) 0x00C 1).wr (pgTfe 3) 8 1).setFld (pgEccC 3) 0x048 31 0 0xAAAAAAAA).setBank (pgEccC 3) 0 { inited := true }).setEstate 3 1).setTfe 3 { hiQ := [⟨0x4000, [0x13080000 + 0x4000, 0x8000, 0, 0, 0xC000, 0, 0, 0, 0, 0, 0, 0], 5, 0, false, 1000, false, false, false⟩] }), by decide +kernel⟩,
    ⟨((((((State.reset.wr (pgTfe 3) 0x00C 1).wr (pgTfe 3) 8 1).setFld (pgEccC 3) 0x048 31 0 0xAAAAAAAA).setBank (pgEccC 3) 0 { inited := true }).setEstate 3 1).setTfe 3 { hiQ := [⟨0x4000, [0x13080000 + 0x4000, 0x40000005, 0, 0, 0xC000, 0, 0, 0, 0, 0, 0, 0], 5, 0, false, 1000, false, false, false⟩] }), by decide +kernel⟩,
    ⟨(((((((State.reset.wr (pgTfe 3) 0x00C 1).wr (pgTfe 3) 8 1).setFld (pgEccC 3) 0x048 31 0 0xAAAAAAAA).setBank (pgEccC 3) 0 { inited := true }).setEstate 3 1).setEstate 3 2).setTfe 3 { run := some { job := ⟨0x4000, [0,0,0,0,0,0,0,0,0,0,0,0], 5, 0, false, 1000, false, false, false⟩, hosted := false, hi := true, retry := true } }), by decide +kernel⟩,
    ⟨(((((((State.reset.wr (pgTfe 3) 0x00C 1).wr (pgTfe 3) 8 1).setFld (pgEccC 3) 0x048 31 0 0xAAAAAAAA).setBank (pgEccC 3) 0 { inited := true }).setEstate 3 1).setEstate 3 2).setTfe 3 { run := some { job := ⟨0x4000, [0x13086000, 0x8000, 0, 0, 0xC000, 0, 0, 0, 0, 0, 0, 0], 5, 0, false, 1000, false, false, false⟩, hosted := false, hi := false, a := List.replicate 64 0x3F800000 } }), by decide +kernel⟩⟩

theorem witness_TfeJobs_3 :
    (∃ s : State, ((Instr.stagesPass 3 900).wf = true) ∧ (s.calm = true) ∧ (s.ready (pgTfe 3) = true) ∧ ((s.tfeH 3).run = some ({ job := ⟨0x4000, [0,0,0,0,0,0,0,0,0,0,0,0], 5, 0, false, 1000, false, false, false⟩, hosted := false, hi := false, overran := true } : TfeRun)) ∧ (s.hostStalled (if ({ job := ⟨0x4000, [0,0,0,0,0,0,0,0,0,0,0,0], 5, 0, false, 1000, false, false, false⟩, hosted := false, hi := false, overran := true } : TfeRun).hosted then partner 3 else 3) ({ job := ⟨0x4000, [0,0,0,0,0,0,0,0,0,0,0,0], 5, 0, false, 1000, false, false, false⟩, hosted := false, hi := false, overran := true } : TfeRun) = false) ∧ (({ job := ⟨0x4000, [0,0,0,0,0,0,0,0,0,0,0,0], 5, 0, false, 1000, false, false, false⟩, hosted := false, hi := false, overran := true } : TfeRun).overran = true))
    ∧ (∃ s : State, ((Instr.stagesPass 3 900).wf = true) ∧ (s.calm = true) ∧ (s.ready (pgTfe 3) = true) ∧ ((s.tfeH 3).run = some ({ job := ⟨0x4000, [0,0,0,0,0,0,0,0,0,0,0,0], 5, 0, false, 1000, false, false, false⟩, hosted := false, hi := false, retry := true } : TfeRun)) ∧ (s.hostStalled (if ({ job := ⟨0x4000, [0,0,0,0,0,0,0,0,0,0,0,0], 5, 0, false, 1000, false, false, false⟩, hosted := false, hi := false, retry := true } : TfeRun).hosted then partner 3 else 3) ({ job := ⟨0x4000, [0,0,0,0,0,0,0,0,0,0,0,0], 5, 0, false, 1000, false, false, false⟩, hosted := false, hi := false, retry := true } : TfeRun) = false) ∧ (({ job := ⟨0x4000, [0,0,0,0,0,0,0,0,0,0,0,0], 5, 0, false, 1000, false, false, false⟩, hosted := false, hi := false, retry := true } : TfeRun).overran = false) ∧ (({ job := ⟨0x4000, [0,0,0,0,0,0,0,0,0,0,0,0], 5, 0, false, 1000, false, false, false⟩, hosted := false, hi := false, retry := true } : TfeRun).retry = true) ∧ (2 ≤ ((s.tfeH 3).passes.filter fun d => decide (900 < d + 30000000)).length) ∧ (((if jOp ({ job := ⟨0x4000, [0,0,0,0,0,0,0,0,0,0,0,0], 5, 0, false, 1000, false, false, false⟩, hosted := false, hi := false, retry := true } : TfeRun).job.words = 0 then [] else (jobOut ({ job := ⟨0x4000, [0,0,0,0,0,0,0,0,0,0,0,0], 5, 0, false, 1000, false, false, false⟩, hosted := false, hi := false, retry := true } : TfeRun).job.words ({ job := ⟨0x4000, [0,0,0,0,0,0,0,0,0,0,0,0], 5, 0, false, 1000, false, false, false⟩, hosted := false, hi := false, retry := true } : TfeRun).a ({ job := ⟨0x4000, [0,0,0,0,0,0,0,0,0,0,0,0], 5, 0, false, 1000, false, false, false⟩, hosted := false, hi := false, retry := true } : TfeRun).b ({ job := ⟨0x4000, [0,0,0,0,0,0,0,0,0,0,0,0], 5, 0, false, 1000, false, false, false⟩, hosted := false, hi := false, retry := true } : TfeRun).uw).checks).find? fun q => !q.2.passes (s.chkShift 3)) = none) ∧ (s.retired (pgTfe 3) = false) ∧ (s.faulted (pgTfe 3) = false) ∧ ((s.pageH (pgTfe 3)).resetting = false))
    ∧ (∃ s : State, ((Instr.stagesPass 3 900).wf = true) ∧ (s.calm = true) ∧ (s.ready (pgTfe 3) = true) ∧ ((s.tfeH 3).run = some ({ job := ⟨0x4000, [0,0,0,0,0,0,0,0,0,0,0,0], 5, 0, false, 1000, false, false, false⟩, hosted := true, hi := false } : TfeRun)) ∧ (({ job := ⟨0x4000, [0,0,0,0,0,0,0,0,0,0,0,0], 5, 0, false, 1000, false, false, false⟩, hosted := true, hi := false } : TfeRun).hosted = true) ∧ (s.ready (pgClu (partner 3)) = false))
    ∧ (∃ s : State, ((Instr.stageFails 3 4 900).wf = true) ∧ (s.calm = true) ∧ (s.ready (pgTfe 3) = true) ∧ ((s.tfeH 3).run = some ({ job := ⟨0x4000, [0,0,0,0,0,0,0,0,0,0,0,0], 5, 0, false, 1000, false, false, false⟩, hosted := false, hi := true } : TfeRun)) ∧ (({ job := ⟨0x4000, [0,0,0,0,0,0,0,0,0,0,0,0], 5, 0, false, 1000, false, false, false⟩, hosted := false, hi := true } : TfeRun).retry = false) ∧ (jOp ({ job := ⟨0x4000, [0,0,0,0,0,0,0,0,0,0,0,0], 5, 0, false, 1000, false, false, false⟩, hosted := false, hi := true } : TfeRun).job.words = 0) ∧ (s.hostStalled (if ({ job := ⟨0x4000, [0,0,0,0,0,0,0,0,0,0,0,0], 5, 0, false, 1000, false, false, false⟩, hosted := false, hi := true } : TfeRun).hosted then partner 3 else 3) ({ job := ⟨0x4000, [0,0,0,0,0,0,0,0,0,0,0,0], 5, 0, false, 1000, false, false, false⟩, hosted := false, hi := true } : TfeRun) = false) ∧ (({ job := ⟨0x4000, [0,0,0,0,0,0,0,0,0,0,0,0], 5, 0, false, 1000, false, false, false⟩, hosted := false, hi := true } : TfeRun).job.desc < 2 ^ 28))
    ∧ (∃ s : State, ((Instr.stageFails 3 4 900).wf = true) ∧ (s.calm = true) ∧ (s.ready (pgTfe 3) = true) ∧ ((s.tfeH 3).run = some ({ job := ⟨0x4000, [0x13080000 + 0x4000, 0x8000, 0, 0, 0xC000, 0, 0, 0, 0, 0, 0, 0], 5, 0, false, 1000, false, false, false⟩, hosted := false, hi := true } : TfeRun)) ∧ (({ job := ⟨0x4000, [0x13080000 + 0x4000, 0x8000, 0, 0, 0xC000, 0, 0, 0, 0, 0, 0, 0], 5, 0, false, 1000, false, false, false⟩, hosted := false, hi := true } : TfeRun).retry = false) ∧ (s.hostStalled (if ({ job := ⟨0x4000, [0x13080000 + 0x4000, 0x8000, 0, 0, 0xC000, 0, 0, 0, 0, 0, 0, 0], 5, 0, false, 1000, false, false, false⟩, hosted := false, hi := true } : TfeRun).hosted then partner 3 else 3) ({ job := ⟨0x4000, [0x13080000 + 0x4000, 0x8000, 0, 0, 0xC000, 0, 0, 0, 0, 0, 0, 0], 5, 0, false, 1000, false, false, false⟩, hosted := false, hi := true } : TfeRun) = false) ∧ (({ job := ⟨0x4000, [0x13080000 + 0x4000, 0x8000, 0, 0, 0xC000, 0, 0, 0, 0, 0, 0, 0], 5, 0, false, 1000, false, false, false⟩, hosted := false, hi := true } : TfeRun).job.desc < 2 ^ 28))
    ∧ (∃ s : State, ((Instr.stageFails 3 4 900).wf = true) ∧ (s.calm = true) ∧ (s.ready (pgTfe 3) = true) ∧ ((s.tfeH 3).run = some ({ job := ⟨0x4000, [0,0,0,0,0,0,0,0,0,0,0,0], 5, 0, false, 1000, false, false, false⟩, hosted := false, hi := false, retry := true } : TfeRun)) ∧ (({ job := ⟨0x4000, [0,0,0,0,0,0,0,0,0,0,0,0], 5, 0, false, 1000, false, false, false⟩, hosted := false, hi := false, retry := true } : TfeRun).retry = true) ∧ (s.hostStalled (if ({ job := ⟨0x4000, [0,0,0,0,0,0,0,0,0,0,0,0], 5, 0, false, 1000, false, false, false⟩, hosted := false, hi := false, retry := true } : TfeRun).hosted then partner 3 else 3) ({ job := ⟨0x4000, [0,0,0,0,0,0,0,0,0,0,0,0], 5, 0, false, 1000, false, false, false⟩, hosted := false, hi := false, retry := true } : TfeRun) = false) ∧ (s.retired (pgTfe 3) = false) ∧ (s.faulted (pgTfe 3) = false) ∧ ((s.pageH (pgTfe 3)).resetting = false) ∧ (({ job := ⟨0x4000, [0,0,0,0,0,0,0,0,0,0,0,0], 5, 0, false, 1000, false, false, false⟩, hosted := false, hi := false, retry := true } : TfeRun).job.desc < 2 ^ 28)) :=
    ⟨⟨(((((((State.reset.wr (pgTfe 3) 0x00C 1).wr (pgTfe 3) 8 1).setFld (pgEccC 3) 0x048 31 0 0xAAAAAAAA).setBank (pgEccC 3) 0 { inited := true }).setEstate 3 1).setEstate 3 2).setTfe 3 { run := some { job := ⟨0x4000, [0,0,0,0,0,0,0,0,0,0,0,0], 5, 0, false, 1000, false, false, false⟩, hosted := false, hi := false, overran := true } }), by decide +kernel⟩,
    ⟨(((((((State.reset.wr (pgTfe 3) 0x00C 1).wr (pgTfe 3) 8 1).setFld (pgEccC 3) 0x048 31 0 0xAAAAAAAA).setBank (pgEccC 3) 0 { inited := true }).setEstate 3 1).setEstate 3 3).setTfe 3 { passes := [5, 7], run := some { job := ⟨0x4000, [0,0,0,0,0,0,0,0,0,0,0,0], 5, 0, false, 1000, false, false, false⟩, hosted := false, hi := false, retry := true } }), by decide +kernel⟩,
    ⟨(((((((((State.reset.wr (pgTfe 3) 0x00C 1).wr (pgTfe 3) 8 1).setFld (pgEccC 3) 0x048 31 0 0xAAAAAAAA).setBank (pgEccC 3) 0 { inited := true }).setEstate 3 1).setEstate 3 2).setTfe 3 { run := some { job := ⟨0x4000, [0,0,0,0,0,0,0,0,0,0,0,0], 5, 0, false, 1000, false, false, false⟩, hosted := true, hi := false } }))), by decide +kernel⟩,
    ⟨(((((((State.reset.wr (pgTfe 3) 0x00C 1).wr (pgTfe 3) 8 1).setFld (pgEccC 3) 0x048 31 0 0xAAAAAAAA).setBank (pgEccC 3) 0 { inited := true }).setEstate 3 1).setEstate 3 2).setTfe 3 { run := some { job := ⟨0x4000, [0,0,0,0,0,0,0,0,0,0,0,0], 5, 0, false, 1000, false, false, false⟩, hosted := false, hi := true } }), by decide +kernel⟩,
    ⟨(((((((State.reset.wr (pgTfe 3) 0x00C 1).wr (pgTfe 3) 8 1).setFld (pgEccC 3) 0x048 31 0 0xAAAAAAAA).setBank (pgEccC 3) 0 { inited := true }).setEstate 3 1).setEstate 3 2).setTfe 3 { run := some { job := ⟨0x4000, [0x13080000 + 0x4000, 0x8000, 0, 0, 0xC000, 0, 0, 0, 0, 0, 0, 0], 5, 0, false, 1000, false, false, false⟩, hosted := false, hi := true } }), by decide +kernel⟩,
    ⟨(((((((State.reset.wr (pgTfe 3) 0x00C 1).wr (pgTfe 3) 8 1).setFld (pgEccC 3) 0x048 31 0 0xAAAAAAAA).setBank (pgEccC 3) 0 { inited := true }).setEstate 3 1).setEstate 3 2).setTfe 3 { run := some { job := ⟨0x4000, [0,0,0,0,0,0,0,0,0,0,0,0], 5, 0, false, 1000, false, false, false⟩, hosted := false, hi := false, retry := true } }), by decide +kernel⟩⟩

theorem witness_TfeJobs_4 :
    (∃ s : State, ((Instr.stageFails 3 4 900).wf = true) ∧ (s.calm = true) ∧ (s.ready (pgTfe 3) = true) ∧ ((s.tfeH 3).run = some ({ job := ⟨0x4000, [0,0,0,0,0,0,0,0,0,0,0,0], 5, 0, false, 1000, false, false, false⟩, hosted := true, hi := false } : TfeRun)) ∧ (({ job := ⟨0x4000, [0,0,0,0,0,0,0,0,0,0,0,0], 5, 0, false, 1000, false, false, false⟩, hosted := true, hi := false } : TfeRun).hosted = true) ∧ (s.ready (pgClu (partner 3)) = false)) :=
    ⟨(((((((((State.reset.wr (pgTfe 3) 0x00C 1).wr (pgTfe 3) 8 1).setFld (pgEccC 3) 0x048 31 0 0xAAAAAAAA).setBank (pgEccC 3) 0 { inited := true }).setEstate 3 1).setEstate 3 2).setTfe 3 { run := some { job := ⟨0x4000, [0,0,0,0,0,0,0,0,0,0,0,0], 5, 0, false, 1000, false, false, false⟩, hosted := true, hi := false } }))), by decide +kernel⟩

theorem witness_SlotCommands_1 :
    (∃ s : State, ((Instr.slotOn .basecamp 3 77 9).wf = true) ∧ (s.calm = true) ∧ (s.ready (pgFrd 3) = true) ∧ (s.mayWrite .basecamp (pgFrd 3) .frd = true) ∧ ((s.upTo 9).frdSlice 3 = false) ∧ (s.getB (pgFrd 3) 0x04C 31 = false) ∧ ((s.slotH 3 77).on = false) ∧ ((s.rdMem (clusterBase 3 + s.rd (pgFrd 3) 0x040 + 64 * 77) 48).1.2 = false) ∧ ((bit ((slotClamp (toWords 12 (s.rdMem (clusterBase 3 + s.rd (pgFrd 3) 0x040 + 64 * 77) 48).1.1)).getD 0 0) 2 = false ∨ ¬((s.slots.any fun q => decide (q.1 / 4096 = 3) && q.2.on && q.2.blEn && decide (q.1 ≠ 4096 * 3 + 77) && q.2.bli == bits ((slotClamp (toWords 12 (s.rdMem (clusterBase 3 + s.rd (pgFrd 3) 0x040 + 64 * 77) 48).1.1)).getD 1 0) 25 16) = true))))
    ∧ (∃ s : State, ((Instr.slotOn .basecamp 3 77 9).wf = true) ∧ (s.calm = true) ∧ (s.ready (pgFrd 3) = true) ∧ (s.mayWrite .basecamp (pgFrd 3) .frd = true) ∧ ((s.upTo 9).frdSlice 3 = false) ∧ (s.getB (pgFrd 3) 0x04C 31 = false) ∧ ((s.slotH 3 77).on = false) ∧ ((s.rdMem (clusterBase 3 + s.rd (pgFrd 3) 0x040 + 64 * 77) 48).1.2 = false) ∧ (bit ((slotClamp (toWords 12 (s.rdMem (clusterBase 3 + s.rd (pgFrd 3) 0x040 + 64 * 77) 48).1.1)).getD 0 0) 2 = true) ∧ (((s.slots.any fun q => decide (q.1 / 4096 = 3) && q.2.on && q.2.blEn && decide (q.1 ≠ 4096 * 3 + 77) && q.2.bli == bits ((slotClamp (toWords 12 (s.rdMem (clusterBase 3 + s.rd (pgFrd 3) 0x040 + 64 * 77) 48).1.1)).getD 1 0) 25 16) = true)))
    ∧ (∃ s : State, ((Instr.slotOn .basecamp 3 77 9).wf = true) ∧ (s.calm = true) ∧ (s.ready (pgFrd 3) = true) ∧ (s.mayWrite .basecamp (pgFrd 3) .frd = true) ∧ ((s.upTo 9).frdSlice 3 = false) ∧ (s.getB (pgFrd 3) 0x04C 31 = false) ∧ ((s.slotH 3 77).on = false) ∧ ((s.rdMem (clusterBase 3 + s.rd (pgFrd 3) 0x040 + 64 * 77) 48).1.2 = true))
    ∧ (∃ s : State, ((Instr.slotOn .basecamp 3 77 9).wf = true) ∧ (s.calm = true) ∧ (s.ready (pgFrd 3) = true) ∧ (s.mayWrite .basecamp (pgFrd 3) .frd = true) ∧ ((s.upTo 9).frdSlice 3 = false) ∧ (s.getB (pgFrd 3) 0x04C 31 = false) ∧ (bit ((s.upTo 9).flipRegs (pgEccC 3)).1 31 = false) ∧ (s.usable (clusterBase 3 + s.rd (pgFrd 3) 0x040 + 64 * 77) 64 = true) ∧ (s.rd (pgFrd 3) 0x040 % 64 = 0) ∧ ((s.slotH 3 77).on = true) ∧ ((s.rdMem (clusterBase 3 + s.rd (pgFrd 3) 0x040 + 64 * 77) 48).1.2 = false) ∧ ((bit ((slotClamp (toWords 12 (s.rdMem (clusterBase 3 + s.rd (pgFrd 3) 0x040 + 64 * 77) 48).1.1)).getD 0 0) 2 = false ∨ ¬((s.slots.any fun q => decide (q.1 / 4096 = 3) && q.2.on && q.2.blEn && decide (q.1 ≠ 4096 * 3 + 77) && q.2.bli == bits ((slotClamp (toWords 12 (s.rdMem (clusterBase 3 + s.rd (pgFrd 3) 0x040 + 64 * 77) 48).1.1)).getD 1 0) 25 16) = true))))
    ∧ (∃ s : State, ((Instr.slotOn .basecamp 3 77 9).wf = true) ∧ (s.calm = true) ∧ (s.ready (pgFrd 3) = true) ∧ (s.mayWrite .basecamp (pgFrd 3) .frd = true) ∧ ((s.upTo 9).frdSlice 3 = false) ∧ (s.getB (pgFrd 3) 0x04C 31 = false) ∧ (bit ((s.upTo 9).flipRegs (pgEccC 3)).1 31 = false) ∧ (s.usable (clusterBase 3 + s.rd (pgFrd 3) 0x040 + 64 * 77) 64 = true) ∧ (s.rd (pgFrd 3) 0x040 % 64 = 0) ∧ ((s.slotH 3 77).on = true) ∧ (((s.rdMem (clusterBase 3 + s.rd (pgFrd 3) 0x040 + 64 * 77) 48).1.2 = true ∨ (bit ((slotClamp (toWords 12 (s.rdMem (clusterBase 3 + s.rd (pgFrd 3) 0x040 + 64 * 77) 48).1.1)).getD 0 0) 2 = true ∧ ((s.slots.any fun q => decide (q.1 / 4096 = 3) && q.2.on && q.2.blEn && decide (q.1 ≠ 4096 * 3 + 77) && q.2.bli == bits ((slotClamp (toWords 12 (s.rdMem (clusterBase 3 + s.rd (pgFrd 3) 0x040 + 64 * 77) 48).1.1)).getD 1 0) 25 16) = true)))))
    ∧ (∃ s : State, ((Instr.slotOff .basecamp 3 77 9).wf = true) ∧ (s.calm = true) ∧ (s.ready (pgFrd 3) = true) ∧ (s.mayWrite .basecamp (pgFrd 3) .frd = true) ∧ ((s.upTo 9).frdSlice 3 = false) ∧ (s.getB (pgFrd 3) 0x04C 31 = false) ∧ ((s.slotH 3 77).on = true)) :=
    ⟨⟨((((State.reset.wr (pgFrd 3) 0x00C 1).wr (pgFrd 3) 8 1).setFld (pgEccC 3) 0x048 31 0 0xAAAAAAAA).wrMem (clusterBase 3 + 0x700000 + 64 * 77) 48 (ofWords [0x08040004, 0x00050000, 0, 0x42000000, 0x7F800000, 0x7F800000, 0xFF800000, 0xFF800000, 0, 0, 0x42000000, 0x1001])), by decide +kernel⟩,
    ⟨(((((State.reset.wr (pgFrd 3) 0x00C 1).wr (pgFrd 3) 8 1).setFld (pgEccC 3) 0x048 31 0 0xAAAAAAAA).wrMem (clusterBase 3 + 0x700000 + 64 * 77) 48 (ofWords [0x08040004, 0x00050000, 0, 0x42000000, 0x7F800000, 0x7F800000, 0xFF800000, 0xFF800000, 0, 0, 0x42000000, 0x1001])).setSlot 3 5 { on := true, words := [0x10000004, 0x00050000, 0, 0x42000000, 0x7F800000, 0x7F800000, 0xFF800000, 0xFF800000, 0, 0, 0x42000000, 0x1001] }), by decide +kernel⟩,
    ⟨(((((State.reset.wr (pgFrd 3) 0x00C 1).wr (pgFrd 3) 8 1).setFld (pgEccC 3) 0x048 31 0 0xAAAAAAAA).wrMem (clusterBase 3 + 0x700000 + 64 * 77) 48 (ofWords [0x08040004, 0x00050000, 0, 0x42000000, 0x7F800000, 0x7F800000, 0xFF800000, 0xFF800000, 0, 0, 0x42000000, 0x1001])).setPois (clusterBase 3 + 0x700000 + 64 * 77) 7), by decide +kernel⟩,
    ⟨((((((State.reset.wr (pgFrd 3) 0x00C 1).wr (pgFrd 3) 8 1).setFld (pgEccC 3) 0x048 31 0 0xAAAAAAAA).wrMem (clusterBase 3 + 0x700000 + 64 * 77) 48 (ofWords [0x08040004, 0x00050000, 0, 0x42000000, 0x7F800000, 0x7F800000, 0xFF800000, 0xFF800000, 0, 0, 0x42000000, 0x1001])).setSlot 3 77 { on := true, words := [0x08040000, 0x00050000, 0, 0x42000000, 0x7F800000, 0x7F800000, 0xFF800000, 0xFF800000, 0, 0, 0x42000000, 0x1001], level := 1 }).setFrd 3 { cur := some { tr := { group := 9, off := 0x40, arrived := 3 }, slots := [77] } }), by decide +kernel⟩,
    ⟨((((((State.reset.wr (pgFrd 3) 0x00C 1).wr (pgFrd 3) 8 1).setFld (pgEccC 3) 0x048 31 0 0xAAAAAAAA).wrMem (clusterBase 3 + 0x700000 + 64 * 77) 48 (ofWords [0x08040004, 0x00050000, 0, 0x42000000, 0x7F800000, 0x7F800000, 0xFF800000, 0xFF800000, 0, 0, 0x42000000, 0x1001])).setSlot 3 5 { on := true, words := [0x10000004, 0x00050000, 0, 0x42000000, 0x7F800000, 0x7F800000, 0xFF800000, 0xFF800000, 0, 0, 0x42000000, 0x1001] }).setSlot 3 77 { on := true, words := [0x08040000, 0x00050000, 0, 0x42000000, 0x7F800000, 0x7F800000, 0xFF800000, 0xFF800000, 0, 0, 0x42000000, 0x1001], level := 1 }), by decide +kernel⟩,
    ⟨((((((State.reset.wr (pgFrd 3) 0x00C 1).wr (pgFrd 3) 8 1).setFld (pgEccC 3) 0x048 31 0 0xAAAAAAAA).setSlot 3 77 { on := true, words := [0x08040000, 0x00050000, 0, 0x42000000, 0x7F800000, 0x7F800000, 0xFF800000, 0xFF800000, 0, 0, 0x42000000, 0x1001], level := 1 }).setB (pgFrd 3) 0x208 13).setFrd 3 { cur := some { tr := { group := 9, off := 0x40, arrived := 3 }, slots := [77] } }), by decide +kernel⟩⟩

theorem witness_SlotCommands_2 :
    (∃ s : State, ((Instr.slotOff .basecamp 3 77 9).wf = true) ∧ (s.calm = true) ∧ (s.ready (pgFrd 3) = true) ∧ (s.mayWrite .basecamp (pgFrd 3) .frd = true) ∧ ((s.upTo 9).frdSlice 3 = false) ∧ (s.getB (pgFrd 3) 0x04C 31 = false) ∧ ((s.slotH 3 77).on = false))
    ∧ (∃ s : State, ((Instr.blClear .basecamp 3 77 9).wf = true) ∧ (s.calm = true) ∧ (s.ready (pgFrd 3) = true) ∧ (s.mayWrite .basecamp (pgFrd 3) .frd = true) ∧ ((s.upTo 9).frdSlice 3 = false) ∧ (s.getB (pgFrd 3) 0x04C 31 = false) ∧ ((s.slotH 3 77).on = true) ∧ (s.usable (clusterBase 3 + s.rd (pgFrd 3) 0x044 + 512 * (s.slotH 3 77).bli) 512 = true) ∧ (s.getB (pgEccC 3) 0x064 31 = false) ∧ (s.rd (pgFrd 3) 0x044 % 64 = 0))
    ∧ (∃ s : State, ((Instr.blClear .basecamp 3 77 9).wf = true) ∧ (s.calm = true) ∧ (s.ready (pgFrd 3) = true) ∧ (s.mayWrite .basecamp (pgFrd 3) .frd = true) ∧ ((s.upTo 9).frdSlice 3 = false) ∧ (s.getB (pgFrd 3) 0x04C 31 = false) ∧ ((s.slotH 3 77).on = false) ∧ ((s.rdMem ((clusterBase 3 + s.rd (pgFrd 3) 0x040 + 64 * 77) + 4) 4).1.2 = false) ∧ (s.usable (clusterBase 3 + s.rd (pgFrd 3) 0x044 + 512 * bits (s.rdMem ((clusterBase 3 + s.rd (pgFrd 3) 0x040 + 64 * 77) + 4) 4).1.1 25 16) 512 = true) ∧ (s.usable (clusterBase 3 + s.rd (pgFrd 3) 0x040 + 64 * 77) 64 = true) ∧ (bit ((s.upTo 9).flipRegs (pgEccC 3)).1 31 = false) ∧ (s.rd (pgFrd 3) 0x044 % 64 = 0))
    ∧ (∃ s : State, ((Instr.blClear .basecamp 3 77 9).wf = true) ∧ (s.calm = true) ∧ (s.ready (pgFrd 3) = true) ∧ (s.mayWrite .basecamp (pgFrd 3) .frd = true) ∧ ((s.upTo 9).frdSlice 3 = false) ∧ (s.getB (pgFrd 3) 0x04C 31 = false) ∧ ((s.slotH 3 77).on = false) ∧ ((s.rdMem ((clusterBase 3 + s.rd (pgFrd 3) 0x040 + 64 * 77) + 4) 4).1.2 = true))
    ∧ (∃ s : State, ((Instr.slotOn .basecamp 3 77 4).wf = true) ∧ (s.calm = true) ∧ (s.ready (pgFrd 3) = true) ∧ (s.mayWrite .basecamp (pgFrd 3) .frd = true) ∧ (s.getB (pgFrd 3) 0x04C 31 = false) ∧ ((s.upTo 4).frdSlice 3 = true))
    ∧ (∃ s : State, ((Instr.slotOff .basecamp 3 77 4).wf = true) ∧ (s.calm = true) ∧ (s.ready (pgFrd 3) = true) ∧ (s.mayWrite .basecamp (pgFrd 3) .frd = true) ∧ (s.getB (pgFrd 3) 0x04C 31 = false) ∧ ((s.upTo 4).frdSlice 3 = true)) :=
    ⟨⟨(((State.reset.wr (pgFrd 3) 0x00C 1).wr (pgFrd 3) 8 1).setFld (pgEccC 3) 0x048 31 0 0xAAAAAAAA), by decide +kernel⟩,
    ⟨(((((State.reset.wr (pgFrd 3) 0x00C 1).wr (pgFrd 3) 8 1).setFld (pgEccC 3) 0x048 31 0 0xAAAAAAAA).setSlot 3 77 { on := true, words := [0x08040000, 0x00050000, 0, 0x42000000, 0x7F800000, 0x7F800000, 0xFF800000, 0xFF800000, 0, 0, 0x42000000, 0x1001], level := 1 }).wrMem (clusterBase 3 + 0x740000 + 512 * 5) 8 99), by decide +kernel⟩,
    ⟨(((((State.reset.wr (pgFrd 3) 0x00C 1).wr (pgFrd 3) 8 1).setFld (pgEccC 3) 0x048 31 0 0xAAAAAAAA).wrMem (clusterBase 3 + 0x700000 + 64 * 77) 48 (ofWords [0x08040004, 0x00050000, 0, 0x42000000, 0x7F800000, 0x7F800000, 0xFF800000, 0xFF800000, 0, 0, 0x42000000, 0x1001])).wrMem (clusterBase 3 + 0x740000 + 512 * 5) 8 99), by decide +kernel⟩,
    ⟨(((((State.reset.wr (pgFrd 3) 0x00C 1).wr (pgFrd 3) 8 1).setFld (pgEccC 3) 0x048 31 0 0xAAAAAAAA).wrMem (clusterBase 3 + 0x700000 + 64 * 77) 48 (ofWords [0x08040004, 0x00050000, 0, 0x42000000, 0x7F800000, 0x7F800000, 0xFF800000, 0xFF800000, 0, 0, 0x42000000, 0x1001])).setPois (clusterBase 3 + 0x700000 + 64 * 77) 7), by decide +kernel⟩,
    ⟨((((State.reset.wr (pgFrd 3) 0x00C 1).wr (pgFrd 3) 8 1).setFld (pgEccC 3) 0x048 31 0 0xAAAAAAAA).setBist (pgBistC 3) { runs := [{ unit := 9, inst := 3, slice := 0, t0 := 4, iso := false }] }), by decide +kernel⟩,
    ⟨((((State.reset.wr (pgFrd 3) 0x00C 1).wr (pgFrd 3) 8 1).setFld (pgEccC 3) 0x048 31 0 0xAAAAAAAA).setBist (pgBistC 3) { runs := [{ unit := 9, inst := 3, slice := 0, t0 := 4, iso := false }] }), by decide +kernel⟩⟩

theorem witness_SlotCommands_3 :
    (∃ s : State, ((Instr.blClear .basecamp 3 77 4).wf = true) ∧ (s.calm = true) ∧ (s.ready (pgFrd 3) = true) ∧ (s.mayWrite .basecamp (pgFrd 3) .frd = true) ∧ (s.getB (pgFrd 3) 0x04C 31 = false) ∧ ((s.upTo 4).frdSlice 3 = true))
    ∧ (∃ s : State, ((Instr.slotOn .basecamp 3 77 4).wf = true) ∧ (s.calm = true) ∧ (s.ready (pgFrd 3) = true) ∧ (s.mayWrite .basecamp (pgFrd 3) .frd = true) ∧ (s.getB (pgFrd 3) 0x04C 31 = true))
    ∧ (∃ s : State, ((Instr.slotOff .basecamp 3 77 4).wf = true) ∧ (s.calm = true) ∧ (s.ready (pgFrd 3) = true) ∧ (s.mayWrite .basecamp (pgFrd 3) .frd = true) ∧ (s.getB (pgFrd 3) 0x04C 31 = true))
    ∧ (∃ s : State, ((Instr.blClear .basecamp 3 77 4).wf = true) ∧ (s.calm = true) ∧ (s.ready (pgFrd 3) = true) ∧ (s.mayWrite .basecamp (pgFrd 3) .frd = true) ∧ (s.getB (pgFrd 3) 0x04C 31 = true))
    ∧ (∃ s : State, ((Instr.frdTrigger .basecamp 3 0 0x55 9).wf = true) ∧ (s.calm = true) ∧ (s.ready (pgFrd 3) = true) ∧ (s.mayWrite .basecamp (pgFrd 3) .frd = true) ∧ (0 = 0))
    ∧ (∃ s : State, ((Instr.frdTrigger .basecamp 3 9 0x55 9).wf = true) ∧ (s.calm = true) ∧ (s.powered (pgFrd 3) = true) ∧ (s.mayWrite .basecamp (pgFrd 3) .frd = true) ∧ (s.faulted (pgFrd 3) = true) ∧ (s.retired (pgFrd 3) = false) ∧ ((s.pageH (pgFrd 3)).resetting = false) ∧ (9 ≠ 0)) :=
    ⟨⟨((((State.reset.wr (pgFrd 3) 0x00C 1).wr (pgFrd 3) 8 1).setFld (pgEccC 3) 0x048 31 0 0xAAAAAAAA).setBist (pgBistC 3) { runs := [{ unit := 9, inst := 3, slice := 0, t0 := 4, iso := false }] }), by decide +kernel⟩,
    ⟨((((State.reset.wr (pgFrd 3) 0x00C 1).wr (pgFrd 3) 8 1).setFld (pgEccC 3) 0x048 31 0 0xAAAAAAAA).setB (pgFrd 3) 0x04C 31), by decide +kernel⟩,
    ⟨((((State.reset.wr (pgFrd 3) 0x00C 1).wr (pgFrd 3) 8 1).setFld (pgEccC 3) 0x048 31 0 0xAAAAAAAA).setB (pgFrd 3) 0x04C 31), by decide +kernel⟩,
    ⟨((((State.reset.wr (pgFrd 3) 0x00C 1).wr (pgFrd 3) 8 1).setFld (pgEccC 3) 0x048 31 0 0xAAAAAAAA).setB (pgFrd 3) 0x04C 31), by decide +kernel⟩,
    ⟨(((State.reset.wr (pgFrd 3) 0x00C 1).wr (pgFrd 3) 8 1).setFld (pgEccC 3) 0x048 31 0 0xAAAAAAAA), by decide +kernel⟩,
    ⟨((State.reset.wr (pgFrd 3) 0x00C 1).wr (pgFrd 3) 8 4), by decide +kernel⟩⟩

theorem witness_SlotCommands_4 :
    (∃ s : State, ((Instr.frdTrigger .basecamp 3 9 0x55 9).wf = true) ∧ (s.calm = true) ∧ (s.powered (pgFrd 3) = true) ∧ (s.mayWrite .basecamp (pgFrd 3) .frd = true) ∧ (s.busy (pgFrd 3) = true) ∧ ((s.pageH (pgFrd 3)).resetting = false) ∧ (s.ready (pgFrd 3) = false) ∧ (s.faulted (pgFrd 3) = false) ∧ (9 ≠ 0) ∧ ((s.frdH 3).queue.length < 64))
    ∧ (∃ s : State, ((Instr.frdTrigger .basecamp 3 9 0x55 9).wf = true) ∧ (s.calm = true) ∧ (s.ready (pgFrd 3) = true) ∧ (s.mayWrite .basecamp (pgFrd 3) .frd = true) ∧ (9 ≠ 0) ∧ (s.faulted (pgFrd 3) = false) ∧ ((s.pageH (pgFrd 3)).resetting = false) ∧ (((s.frdH 3).cur.isSome = true ∨ (s.upTo 9).frdSlice 3 = true)) ∧ ((s.frdH 3).queue.length < 64))
    ∧ (∃ s : State, ((Instr.frdTrigger .basecamp 3 9 0x55 9).wf = true) ∧ (s.calm = true) ∧ (s.ready (pgFrd 3) = true) ∧ (s.mayWrite .basecamp (pgFrd 3) .frd = true) ∧ (9 ≠ 0) ∧ (s.faulted (pgFrd 3) = false) ∧ ((s.pageH (pgFrd 3)).resetting = false) ∧ ((s.upTo 9).frdSlice 3 = false) ∧ ((s.frdH 3).cur = none) ∧ ((s.frdH 3).queue = []))
    ∧ (∃ s : State, ((Instr.frdTrigger .basecamp 3 1 0x55 9).wf = true) ∧ (s.calm = true) ∧ (s.ready (pgFrd 3) = true) ∧ (s.mayWrite .basecamp (pgFrd 3) .frd = true) ∧ (1 ≠ 0) ∧ (s.faulted (pgFrd 3) = false) ∧ ((s.pageH (pgFrd 3)).resetting = false) ∧ (64 ≤ (s.frdH 3).queue.length))
    ∧ (∃ s : State, ((Instr.triggerService 3 9 ([77] : List Nat)).wf = true) ∧ (s.calm = true) ∧ (s.ready (pgFrd 3) = true) ∧ ((s.upTo 9).frdSlice 3 = false) ∧ (s.faulted (pgFrd 3) = false) ∧ ((s.frdH 3).cur = some ({ tr := { group := 9, off := 0x40, arrived := 3 }, slots := [77] } : FrdCur)) ∧ ((s.frdH 3).queue = []))
    ∧ (∃ s : State, ((Instr.triggerService 3 9 ([] : List Nat)).wf = true) ∧ (s.calm = true) ∧ (s.ready (pgFrd 3) = true) ∧ ((s.upTo 9).frdSlice 3 = false) ∧ (s.faulted (pgFrd 3) = false) ∧ (([] : List Nat) = []) ∧ ((s.frdH 3).cur = some ({ tr := { group := 9, off := 0x40, arrived := 3 }, slots := [77] } : FrdCur)) ∧ (({ tr := { group := 9, off := 0x40, arrived := 3 }, slots := [77] } : FrdCur).slots.Nodup)) :=
    ⟨⟨((State.reset.wr (pgFrd 3) 0x00C 1).wr (pgFrd 3) 8 2), by decide +kernel⟩,
    ⟨((((State.reset.wr (pgFrd 3) 0x00C 1).wr (pgFrd 3) 8 1).setFld (pgEccC 3) 0x048 31 0 0xAAAAAAAA).setFrd 3 { cur := some { tr := { group := 8 }, slots := [] } }), by decide +kernel⟩,
    ⟨(((State.reset.wr (pgFrd 3) 0x00C 1).wr (pgFrd 3) 8 1).setFld (pgEccC 3) 0x048 31 0 0xAAAAAAAA), by decide +kernel⟩,
    ⟨(((((State.reset.wr (pgFrd 3) 0x00C 1).wr (pgFrd 3) 8 1).setFld (pgEccC 3) 0x048 31 0 0xAAAAAAAA).setSlot 3 77 { on := true, words := [0x08040000, 0x00050000, 0, 0x42000000, 0x7F800000, 0x7F800000, 0xFF800000, 0xFF800000, 0, 0, 0x42000000, 0x1001], level := 1 }).setFrd 3 { queue := List.replicate 64 { group := 8 }, cur := some { tr := { group := 9, off := 0x40, arrived := 3 }, slots := [] } }), by decide +kernel⟩,
    ⟨(((((State.reset.wr (pgFrd 3) 0x00C 1).wr (pgFrd 3) 8 1).setFld (pgEccC 3) 0x048 31 0 0xAAAAAAAA).setSlot 3 77 { on := true, words := [0x08040000, 0x00050000, 0, 0x42000000, 0x7F800000, 0x7F800000, 0xFF800000, 0xFF800000, 0, 0, 0x42000000, 0x1001], level := 1 }).setFrd 3 { cur := some { tr := { group := 9, off := 0x40, arrived := 3 }, slots := [77] } }), by decide +kernel⟩,
    ⟨(((((State.reset.wr (pgFrd 3) 0x00C 1).wr (pgFrd 3) 8 1).setFld (pgEccC 3) 0x048 31 0 0xAAAAAAAA).setSlot 3 77 { on := true, words := [0x08040000, 0x00050000, 0, 0x42000000, 0x7F800000, 0x7F800000, 0xFF800000, 0xFF800000, 0, 0, 0x42000000, 0x1001], level := 1 }).setFrd 3 { cur := some { tr := { group := 9, off := 0x40, arrived := 3 }, slots := [77] } }), by decide +kernel⟩⟩

theorem witness_SlotCommands_5 :
    (∃ s : State, ((Instr.triggerService 3 9 ([77] : List Nat)).wf = true) ∧ (s.calm = true) ∧ (s.ready (pgFrd 3) = true) ∧ ((s.upTo 9).frdSlice 3 = false) ∧ (s.faulted (pgFrd 3) = false) ∧ ((s.frdH 3).cur = some ({ tr := { group := 0, view := some (5, 9, 0, 0), arrived := 3 }, slots := [77] } : FrdCur)) ∧ ((s.upTo 9).overrun 3 ({ tr := { group := 0, view := some (5, 9, 0, 0), arrived := 3 }, slots := [77] } : FrdCur).tr ({ tr := { group := 0, view := some (5, 9, 0, 0), arrived := 3 }, slots := [77] } : FrdCur).slots = true) ∧ (({ tr := { group := 0, view := some (5, 9, 0, 0), arrived := 3 }, slots := [77] } : FrdCur).slots ≠ []))
    ∧ (∃ s : State, ((Instr.triggerService 3 9 ([77] : List Nat)).wf = true) ∧ (s.calm = true) ∧ (s.ready (pgFrd 3) = true) ∧ ((s.upTo 9).frdSlice 3 = false) ∧ (s.faulted (pgFrd 3) = false) ∧ ((s.frdH 3).cur = some ({ tr := { group := 9, off := 0x40, arrived := 3 }, slots := [77] } : FrdCur)) ∧ ((s.frdH 3).queue = ({ group := 7 } : Trig) :: ([{ group := 8 }] : List Trig)))
    ∧ (∃ s : State, ((Instr.triggerService 3 9 ([] : List Nat)).wf = true) ∧ (s.calm = true) ∧ (s.ready (pgFrd 3) = true) ∧ ((s.upTo 9).frdSlice 3 = false) ∧ (s.faulted (pgFrd 3) = false) ∧ ((s.frdH 3).cur = none) ∧ ((s.frdH 3).queue = [({ group := 7 } : Trig)]))
    ∧ (∃ s : State, ((Instr.triggerService 3 9 ([] : List Nat)).wf = true) ∧ (s.calm = true) ∧ (((s.upTo 9).frdSlice 3 = true ∨ s.ready (pgFrd 3) = false ∨ ((s.frdH 3).cur = none ∧ (s.frdH 3).queue = [])))) :=
    ⟨⟨(((((State.reset.wr (pgFrd 3) 0x00C 1).wr (pgFrd 3) 8 1).setFld (pgEccC 3) 0x048 31 0 0xAAAAAAAA).setSlot 3 77 { on := true, words := [0x08040000, 0x00050000, 0, 0x42000000, 0x7F800000, 0x7F800000, 0xFF800000, 0xFF800000, 0, 0, 0x42000000, 0x1001], level := 1 }).setFrd 3 { cur := some { tr := { group := 0, view := some (5, 9, 0, 0), arrived := 3 }, slots := [77] } }), by decide +kernel⟩,
    ⟨(((((State.reset.wr (pgFrd 3) 0x00C 1).wr (pgFrd 3) 8 1).setFld (pgEccC 3) 0x048 31 0 0xAAAAAAAA).setSlot 3 77 { on := true, words := [0x08040000, 0x00050000, 0, 0x42000000, 0x7F800000, 0x7F800000, 0xFF800000, 0xFF800000, 0, 0, 0x42000000, 0x1001], level := 1 }).setFrd 3 { cur := some { tr := { group := 9, off := 0x40, arrived := 3 }, slots := [77] }, queue := [{ group := 7 }, { group := 8 }] }), by decide +kernel⟩,
    ⟨((((State.reset.wr (pgFrd 3) 0x00C 1).wr (pgFrd 3) 8 1).setFld (pgEccC 3) 0x048 31 0 0xAAAAAAAA).setFrd 3 { queue := [{ group := 7 }] }), by decide +kernel⟩,
    ⟨(((State.reset.wr (pgFrd 3) 0x00C 1).wr (pgFrd 3) 8 1).setFld (pgEccC 3) 0x048 31 0 0xAAAAAAAA), by decide +kernel⟩⟩

theorem witness_SoutOutputs_1 :
    (∃ s : State, ((Instr.voteWord (.tile 2 0 : Writer) 5 1 0x3A715C070000001B false 9).wf = true) ∧ (s.calm = true) ∧ (s.mayWrite (.tile 2 0 : Writer) (pgSout 5) .sout = true) ∧ (s.powered (pgSout 5) = true) ∧ ((s.pageH (pgSout 5)).resetting = false))
    ∧ (∃ s : State, ((Instr.voteWord (.tile 2 0 : Writer) 5 1 0x3A715C070000001B true 9).wf = true) ∧ (s.calm = true) ∧ (s.routePage (.tile 2 0 : Writer) (pgSout 5) = (pgSout 5)) ∧ ((fromOuter (.tile 2 0 : Writer) = false ∨ Kind.sout.owner ≠ 0x03)))
    ∧ (∃ s : State, ((Instr.voteWord (.tile 2 1 : Writer) 5 1 0x3A715C070000001B false 9).wf = true) ∧ (s.calm = true) ∧ (s.routePage (.tile 2 1 : Writer) (pgSout 5) = (pgSout 5)) ∧ (s.soutForeign (.tile 2 1 : Writer) .sout none = true) ∧ ((fromOuter (.tile 2 1 : Writer) = false ∨ Kind.sout.owner ≠ 0x03)))
    ∧ (∃ s : State, ((Instr.driveTick ([] : List (Nat × Nat × Nat)) ([] : List (Nat × Nat)) 6000).wf = true) ∧ (s.calm = true) ∧ (s.now ≤ 6000) ∧ (6000 % 3000 = 0) ∧ ((s.ready (pgSoutD 0) || s.ready (pgSoutD 1)) = true))
    ∧ (∃ s : State, ((Instr.driveTick ([] : List (Nat × Nat × Nat)) ([] : List (Nat × Nat)) 6000).wf = true) ∧ (s.calm = true) ∧ ((6000 % 3000 ≠ 0 ∨ 6000 < s.now ∨ (s.ready (pgSoutD 0) = false ∧ s.ready (pgSoutD 1) = false))))
    ∧ (∃ s : State, ((Instr.driveTick ([] : List (Nat × Nat × Nat)) ([] : List (Nat × Nat)) 6000).wf = true) ∧ (s.calm = true) ∧ (s.now ≤ 6000) ∧ (6000 % 3000 = 0) ∧ (s.ready (pgSoutD 0) = true) ∧ (s.ready (pgSoutD 1) = true) ∧ (5 < 64) ∧ ((s.soutH 5).dies.length = 2) ∧ ((s.soutH 5).mem.length = 3) ∧ ((s.soutH 5).arrive = [(⟨0, 0x3A715C070000001B, some 0⟩ : VoteIn)]) ∧ ((⟨0, 0x3A715C070000001B, some 0⟩ : VoteIn).place < s.soCount 5) ∧ ((⟨0, 0x3A715C070000001B, some 0⟩ : VoteIn).tile = some (s.soTile 5 (⟨0, 0x3A715C070000001B, some 0⟩ : VoteIn).place)) ∧ ((⟨0, 0x3A715C070000001B, some 0⟩ : VoteIn).word < 2 ^ 64) ∧ (¬(((s.soutH 5).member (⟨0, 0x3A715C070000001B, some 0⟩ : VoteIn).place).has = true ∧ bits ((s.soutH 5).member (⟨0, 0x3A715C070000001B, some 0⟩ : VoteIn).place).word 47 40 = bits (⟨0, 0x3A715C070000001B, some 0⟩ : VoteIn).word 47 40))) :=
    ⟨⟨(State.reset.setTile 2 { mode := 1 }), by decide +kernel⟩,
    ⟨State.reset, by decide +kernel⟩,
    ⟨State.reset, by decide +kernel⟩,
    ⟨((State.reset.wr (pgSoutD 0) 0x00C 1).wr (pgSoutD 0) 8 1), by decide +kernel⟩,
    ⟨State.reset, by decide +kernel⟩,
    ⟨((((((((State.reset.setSout 5 { dies := [{ st := 2 }, { st := 2 }], arrive := [⟨0, 0x3A715C070000001B, some 0⟩], mem := [{ has := true, word := 0x3A715A0700000000 }, {}, {}] }))).wr (pgSout 5) 0x040 0x0C400000).wr (pgSout 5) 0x048 0).wr (pgSout 5) 0x04C 0x64).wr (pgSoutD 0) 8 1).wr (pgSoutD 1) 8 1), by decide +kernel⟩⟩

theorem witness_SoutOutputs_2 :
    (∃ s : State, ((Instr.driveTick ([] : List (Nat × Nat × Nat)) ([] : List (Nat × Nat)) 6000).wf = true) ∧ (s.calm = true) ∧ (s.now ≤ 6000) ∧ (6000 % 3000 = 0) ∧ (s.ready (pgSoutD 0) = true) ∧ (s.ready (pgSoutD 1) = true) ∧ (5 < 64) ∧ ((s.soutH 5).dies.length = 2) ∧ ((s.soutH 5).mem.length = 3) ∧ ((s.soutH 5).arrive = [(⟨0, 0x3A715C070000001B, some 7⟩ : VoteIn)]) ∧ (¬((⟨0, 0x3A715C070000001B, some 7⟩ : VoteIn).place < s.soCount 5 ∧ (⟨0, 0x3A715C070000001B, some 7⟩ : VoteIn).tile = some (s.soTile 5 (⟨0, 0x3A715C070000001B, some 7⟩ : VoteIn).place))))
    ∧ (∃ s : State, ((Instr.driveTick ([] : List (Nat × Nat × Nat)) ([] : List (Nat × Nat)) 6000).wf = true) ∧ (s.calm = true) ∧ (s.now ≤ 6000) ∧ (6000 % 3000 = 0) ∧ (s.ready (pgSoutD 0) = true) ∧ (s.ready (pgSoutD 1) = true) ∧ (5 < 64) ∧ ((s.soutH 5).dies.length = 2) ∧ ((s.soutH 5).mem.length = 3) ∧ ((s.soutH 5).arrive = [(⟨0, 0x3A715C070000001B, some 0⟩ : VoteIn)]) ∧ ((⟨0, 0x3A715C070000001B, some 0⟩ : VoteIn).place < s.soCount 5) ∧ ((⟨0, 0x3A715C070000001B, some 0⟩ : VoteIn).tile = some (s.soTile 5 (⟨0, 0x3A715C070000001B, some 0⟩ : VoteIn).place)) ∧ (((s.soutH 5).member (⟨0, 0x3A715C070000001B, some 0⟩ : VoteIn).place).has = true) ∧ (bits ((s.soutH 5).member (⟨0, 0x3A715C070000001B, some 0⟩ : VoteIn).place).word 47 40 = bits (⟨0, 0x3A715C070000001B, some 0⟩ : VoteIn).word 47 40))
    ∧ (∃ s : State, ((Instr.driveTick ([] : List (Nat × Nat × Nat)) ([] : List (Nat × Nat)) 6000).wf = true) ∧ (s.calm = true) ∧ (s.now ≤ 6000) ∧ (6000 % 3000 = 0) ∧ (s.ready (pgSoutD 0) = true) ∧ (s.ready (pgSoutD 1) = true) ∧ (5 < 64) ∧ ((s.soutH 5).dies.length = 2) ∧ ((s.soutH 5).mem.length = 3) ∧ ((s.soutH 5).arrive = []) ∧ ((s.soutH 5).writes = [(0x05C, 3, .basecamp)]))
    ∧ (∃ s : State, ((Instr.driveTick ([] : List (Nat × Nat × Nat)) ([] : List (Nat × Nat)) 6000).wf = true) ∧ (s.calm = true) ∧ (s.now ≤ 6000) ∧ (6000 % 3000 = 0) ∧ (s.ready (pgSoutD 0) = true) ∧ (s.ready (pgSoutD 1) = true) ∧ (5 < 64) ∧ ((s.soutH 5).dies.length = 2) ∧ ((s.soutH 5).mem.length = 3) ∧ ((s.soutH 5).writes = []) ∧ (s.getB (pgSout 5) 0x058 31 = false) ∧ (s.getB (pgSout 5) 0x058 30 = true) ∧ ((s.soutH 5).multOut = false))
    ∧ (∃ s : State, ((Instr.driveTick ([] : List (Nat × Nat × Nat)) ([] : List (Nat × Nat)) 6000).wf = true) ∧ (s.calm = true) ∧ (s.now ≤ 6000) ∧ (6000 % 3000 = 0) ∧ (s.ready (pgSoutD 0) = true) ∧ (s.ready (pgSoutD 1) = true) ∧ (5 < 64) ∧ ((s.soutH 5).dies.length = 2) ∧ ((s.soutH 5).mem.length = 3) ∧ ((s.soutH 5).writes = []) ∧ (s.getB (pgSout 5) 0x058 31 = true) ∧ (s.getB (pgSout 5) 0x058 30 = false) ∧ (s.getB (pgSout 5) 0x058 29 = false))
    ∧ (∃ s : State, ((Instr.driveTick ([] : List (Nat × Nat × Nat)) ([] : List (Nat × Nat)) 6000).wf = true) ∧ (s.calm = true) ∧ (s.now ≤ 6000) ∧ (6000 % 3000 = 0) ∧ (s.ready (pgSoutD 0) = true) ∧ (s.ready (pgSoutD 1) = true) ∧ (5 < 64) ∧ ((s.soutH 5).dies.length = 2) ∧ ((s.soutH 5).mem.length = 3) ∧ (0 < 2) ∧ (((s.soutH 5).die 0).st = 0)) :=
    ⟨⟨((((((((State.reset.setSout 5 { dies := [{ st := 2 }, { st := 2 }], arrive := [⟨0, 0x3A715C070000001B, some 7⟩] }))).wr (pgSout 5) 0x040 0x0C400000).wr (pgSout 5) 0x048 0).wr (pgSout 5) 0x04C 0x64).wr (pgSoutD 0) 8 1).wr (pgSoutD 1) 8 1), by decide +kernel⟩,
    ⟨((((((((State.reset.setSout 5 { dies := [{ st := 2 }, { st := 2 }], arrive := [⟨0, 0x3A715C070000001B, some 0⟩], mem := [{ has := true, word := 0x3A715C0700000000 }, {}, {}] }))).wr (pgSout 5) 0x040 0x0C400000).wr (pgSout 5) 0x048 0).wr (pgSout 5) 0x04C 0x64).wr (pgSoutD 0) 8 1).wr (pgSoutD 1) 8 1), by decide +kernel⟩,
    ⟨((((((((State.reset.setSout 5 { dies := [{ st := 2 }, { st := 2 }], writes := [(0x05C, 3, .basecamp)] }))).wr (pgSout 5) 0x040 0x0C400000).wr (pgSout 5) 0x048 0).wr (pgSout 5) 0x04C 0x64).wr (pgSoutD 0) 8 1).wr (pgSoutD 1) 8 1), by decide +kernel⟩,
    ⟨(((((((((State.reset.setSout 5 { dies := [{ st := 2 }, { st := 2 }] }))).wr (pgSout 5) 0x040 0x0C400000).wr (pgSout 5) 0x048 0).wr (pgSout 5) 0x04C 0x64).wr (pgSoutD 0) 8 1).wr (pgSoutD 1) 8 1).setB (pgSout 5) 0x058 30), by decide +kernel⟩,
    ⟨(((((((((State.reset.setSout 5 { dies := [{ st := 2 }, { st := 2 }] }))).wr (pgSout 5) 0x040 0x0C400000).wr (pgSout 5) 0x048 0).wr (pgSout 5) 0x04C 0x64).wr (pgSoutD 0) 8 1).wr (pgSoutD 1) 8 1).setB (pgSout 5) 0x058 31), by decide +kernel⟩,
    ⟨((((((((State.reset.setSout 5 { dies := [{ st := 0 }, { st := 0 }] }))).wr (pgSout 5) 0x040 0x0C400000).wr (pgSout 5) 0x048 0).wr (pgSout 5) 0x04C 0x64).wr (pgSoutD 0) 8 1).wr (pgSoutD 1) 8 1), by decide +kernel⟩⟩

theorem witness_SoutOutputs_3 :
    (∃ s : State, ((Instr.driveTick ([] : List (Nat × Nat × Nat)) ([] : List (Nat × Nat)) 6000).wf = true) ∧ (s.calm = true) ∧ (s.now ≤ 6000) ∧ (6000 % 3000 = 0) ∧ (s.ready (pgSoutD 0) = true) ∧ (s.ready (pgSoutD 1) = true) ∧ (5 < 64) ∧ ((s.soutH 5).dies.length = 2) ∧ ((s.soutH 5).mem.length = 3) ∧ (1 < 2) ∧ ((s.soutH 5).arrive = []) ∧ ((s.soutH 5).writes = []) ∧ (((s.soutH 5).die 1).st = 1) ∧ (((s.upTo 6000).groupReady 5).1 = true) ∧ ((evalOutput (s.rd (pgSout 5) 0x040) (s.fld (pgSout 5) 0x05C 2 0) ((List.range (s.soCount 5)).map fun m => (s.upTo 6000).memVote 5 m)).demand = true))
    ∧ (∃ s : State, ((Instr.driveTick ([] : List (Nat × Nat × Nat)) ([] : List (Nat × Nat)) 6000).wf = true) ∧ (s.calm = true) ∧ (s.now ≤ 6000) ∧ (6000 % 3000 = 0) ∧ (s.ready (pgSoutD 0) = true) ∧ (s.ready (pgSoutD 1) = true) ∧ (5 < 64) ∧ ((s.soutH 5).dies.length = 2) ∧ ((s.soutH 5).mem.length = 3) ∧ (0 < 2) ∧ ((s.soutH 5).arrive = []) ∧ ((s.soutH 5).writes = []) ∧ (((s.soutH 5).die 0).st = 1) ∧ (((s.upTo 6000).groupReady 5).1 = true) ∧ ((evalOutput (s.rd (pgSout 5) 0x040) (s.fld (pgSout 5) 0x05C 2 0) ((List.range (s.soCount 5)).map fun m => (s.upTo 6000).memVote 5 m)).demand = false))
    ∧ (∃ s : State, ((Instr.driveTick ([] : List (Nat × Nat × Nat)) ([] : List (Nat × Nat)) 6000).wf = true) ∧ (s.calm = true) ∧ (s.now ≤ 6000) ∧ (6000 % 3000 = 0) ∧ (s.ready (pgSoutD 0) = true) ∧ (s.ready (pgSoutD 1) = true) ∧ (5 < 64) ∧ ((s.soutH 5).dies.length = 2) ∧ ((s.soutH 5).mem.length = 3) ∧ (0 < 2) ∧ ((s.soutH 5).arrive = []) ∧ (((s.soutH 5).die 0).st = 1) ∧ (((s.upTo 6000).groupReady 5).1 = false))
    ∧ (∃ s : State, ((Instr.driveTick ([] : List (Nat × Nat × Nat)) ([] : List (Nat × Nat)) 6000).wf = true) ∧ (s.calm = true) ∧ (s.now ≤ 6000) ∧ (6000 % 3000 = 0) ∧ (s.ready (pgSoutD 0) = true) ∧ (s.ready (pgSoutD 1) = true) ∧ (5 < 64) ∧ ((s.soutH 5).dies.length = 2) ∧ ((s.soutH 5).mem.length = 3) ∧ (0 < 2) ∧ ((s.soutH 5).arrive = []) ∧ ((s.soutH 5).writes = []) ∧ (((s.soutH 5).die 0).st = 2) ∧ ((evalOutput (s.rd (pgSout 5) 0x040) (s.fld (pgSout 5) 0x05C 2 0) ((List.range (s.soCount 5)).map fun m => (s.upTo 6000).memVote 5 m)).demand = false))
    ∧ (∃ s : State, ((Instr.driveTick ([] : List (Nat × Nat × Nat)) ([] : List (Nat × Nat)) 6000).wf = true) ∧ (s.calm = true) ∧ (s.now ≤ 6000) ∧ (6000 % 3000 = 0) ∧ (s.ready (pgSoutD 0) = true) ∧ (s.ready (pgSoutD 1) = true) ∧ (5 < 64) ∧ ((s.soutH 5).dies.length = 2) ∧ ((s.soutH 5).mem.length = 3) ∧ (0 < 2) ∧ ((s.soutH 5).arrive = []) ∧ ((s.soutH 5).writes = []) ∧ (((s.soutH 5).die 0).st = 2) ∧ ((evalOutput (s.rd (pgSout 5) 0x040) (s.fld (pgSout 5) 0x05C 2 0) ((List.range (s.soCount 5)).map fun m => (s.upTo 6000).memVote 5 m)).demand = true) ∧ (s.rd (pgSout 5) 0x048 = 0) ∧ ((((s.soutH 5).die 0).test = none ∨ (s.soutH 5).dem = false)))
    ∧ (∃ s : State, ((Instr.driveTick ([] : List (Nat × Nat × Nat)) ([] : List (Nat × Nat)) 6000).wf = true) ∧ (s.calm = true) ∧ (s.now ≤ 6000) ∧ (6000 % 3000 = 0) ∧ (s.ready (pgSoutD 0) = true) ∧ (s.ready (pgSoutD 1) = true) ∧ (5 < 64) ∧ ((s.soutH 5).dies.length = 2) ∧ ((s.soutH 5).mem.length = 3) ∧ (0 < 2) ∧ ((s.soutH 5).arrive = []) ∧ ((s.soutH 5).writes = []) ∧ (((s.soutH 5).die 0).st = 2) ∧ ((evalOutput (s.rd (pgSout 5) 0x040) (s.fld (pgSout 5) 0x05C 2 0) ((List.range (s.soCount 5)).map fun m => (s.upTo 6000).memVote 5 m)).demand = true) ∧ (0 < s.rd (pgSout 5) 0x048)) :=
    ⟨⟨(((((((((((State.reset.setSout 5 { dies := [{ st := 1 }, { st := 1 }], mem := [{ has := true, got := true, word := 3, t := 5900, run := 4, fresh := true }, {}, {}] }))).wr (pgSout 5) 0x040 0x0C400000).wr (pgSout 5) 0x048 0).wr (pgSout 5) 0x04C 0x64).wr (pgSoutD 0) 8 1).wr (pgSoutD 1) 8 1).wr (pgTile 0) 0x00C 1).wr (pgTile 0) 8 1).setTile 0 { mode := 1 }), by decide +kernel⟩,
    ⟨(((((((((((State.reset.setSout 5 { dies := [{ st := 1 }, { st := 1 }], mem := [{ has := true, got := true, word := 0, t := 5900, run := 4, fresh := true }, {}, {}] }))).wr (pgSout 5) 0x040 0x0C400000).wr (pgSout 5) 0x048 0).wr (pgSout 5) 0x04C 0x64).wr (pgSoutD 0) 8 1).wr (pgSoutD 1) 8 1).wr (pgTile 0) 0x00C 1).wr (pgTile 0) 8 1).setTile 0 { mode := 1 }), by decide +kernel⟩,
    ⟨((((((((State.reset.setSout 5 { dies := [{ st := 1 }, { st := 1 }], mem := [{ has := true, got := true, word := 0, t := 5900, run := 4, fresh := true }, {}, {}] }))).wr (pgSout 5) 0x040 0x0C400000).wr (pgSout 5) 0x048 0).wr (pgSout 5) 0x04C 0x64).wr (pgSoutD 0) 8 1).wr (pgSoutD 1) 8 1), by decide +kernel⟩,
    ⟨((((((((State.reset.setSout 5 { dies := [{ st := 2 }, { st := 2 }], mem := [{ has := true, got := true, word := 0, t := 5900, run := 4, fresh := true }, {}, {}] }))).wr (pgSout 5) 0x040 0x0C400000).wr (pgSout 5) 0x048 0).wr (pgSout 5) 0x04C 0x64).wr (pgSoutD 0) 8 1).wr (pgSoutD 1) 8 1), by decide +kernel⟩,
    ⟨((((((((State.reset.setSout 5 { dies := [{ st := 2, test := some 7 }, { st := 2, test := some 7 }] }))).wr (pgSout 5) 0x040 0x0C400000).wr (pgSout 5) 0x048 0).wr (pgSout 5) 0x04C 0x64).wr (pgSoutD 0) 8 1).wr (pgSoutD 1) 8 1), by decide +kernel⟩,
    ⟨((((((((State.reset.setSout 5 { dies := [{ st := 2 }, { st := 2 }] }))).wr (pgSout 5) 0x040 0x0C400000).wr (pgSout 5) 0x048 5).wr (pgSout 5) 0x04C 0x64).wr (pgSoutD 0) 8 1).wr (pgSoutD 1) 8 1), by decide +kernel⟩⟩

theorem witness_SoutOutputs_4 :
    (∃ s : State, ((Instr.driveTick ([] : List (Nat × Nat × Nat)) ([] : List (Nat × Nat)) 6000).wf = true) ∧ (s.calm = true) ∧ (s.now ≤ 6000) ∧ (6000 % 3000 = 0) ∧ (s.ready (pgSoutD 0) = true) ∧ (s.ready (pgSoutD 1) = true) ∧ (5 < 64) ∧ ((s.soutH 5).dies.length = 2) ∧ ((s.soutH 5).mem.length = 3) ∧ (0 < 2) ∧ ((s.soutH 5).arrive = []) ∧ ((s.soutH 5).writes = []) ∧ (((s.soutH 5).die 0).st = 3) ∧ ((evalOutput (s.rd (pgSout 5) 0x040) (s.fld (pgSout 5) 0x05C 2 0) ((List.range (s.soCount 5)).map fun m => (s.upTo 6000).memVote 5 m)).demand = false))
    ∧ (∃ s : State, ((Instr.driveTick ([] : List (Nat × Nat × Nat)) ([] : List (Nat × Nat)) 6000).wf = true) ∧ (s.calm = true) ∧ (s.now ≤ 6000) ∧ (6000 % 3000 = 0) ∧ (s.ready (pgSoutD 0) = true) ∧ (s.ready (pgSoutD 1) = true) ∧ (5 < 64) ∧ ((s.soutH 5).dies.length = 2) ∧ ((s.soutH 5).mem.length = 3) ∧ (0 < 2) ∧ ((s.soutH 5).arrive = []) ∧ ((s.soutH 5).writes = []) ∧ (((s.soutH 5).die 0).st = 3) ∧ ((evalOutput (s.rd (pgSout 5) 0x040) (s.fld (pgSout 5) 0x05C 2 0) ((List.range (s.soCount 5)).map fun m => (s.upTo 6000).memVote 5 m)).demand = true) ∧ (6000 < ((s.soutH 5).die 0).ds + s.rd (pgSout 5) 0x048 * 10 * cyclesPerUs))
    ∧ (∃ s : State, ((Instr.driveTick ([] : List (Nat × Nat × Nat)) ([] : List (Nat × Nat)) 6000).wf = true) ∧ (s.calm = true) ∧ (s.now ≤ 6000) ∧ (6000 % 3000 = 0) ∧ (s.ready (pgSoutD 0) = true) ∧ (s.ready (pgSoutD 1) = true) ∧ (5 < 64) ∧ ((s.soutH 5).dies.length = 2) ∧ ((s.soutH 5).mem.length = 3) ∧ (0 < 2) ∧ ((s.soutH 5).arrive = []) ∧ ((s.soutH 5).writes = []) ∧ (((s.soutH 5).die 0).st = 3) ∧ ((evalOutput (s.rd (pgSout 5) 0x040) (s.fld (pgSout 5) 0x05C 2 0) ((List.range (s.soCount 5)).map fun m => (s.upTo 6000).memVote 5 m)).demand = true) ∧ (((s.soutH 5).die 0).ds + s.rd (pgSout 5) 0x048 * 10 * cyclesPerUs ≤ 6000))
    ∧ (∃ s : State, ((Instr.driveTick ([] : List (Nat × Nat × Nat)) ([] : List (Nat × Nat)) 6000).wf = true) ∧ (s.calm = true) ∧ (s.now ≤ 6000) ∧ (6000 % 3000 = 0) ∧ (s.ready (pgSoutD 0) = true) ∧ (s.ready (pgSoutD 1) = true) ∧ (5 < 64) ∧ ((s.soutH 5).dies.length = 2) ∧ ((s.soutH 5).mem.length = 3) ∧ (0 < 2) ∧ ((s.soutH 5).arrive = []) ∧ ((s.soutH 5).writes = []) ∧ (((s.soutH 5).die 0).st = 4) ∧ ((evalOutput (s.rd (pgSout 5) 0x040) (s.fld (pgSout 5) 0x05C 2 0) ((List.range (s.soCount 5)).map fun m => (s.upTo 6000).memVote 5 m)).demand = true))
    ∧ (∃ s : State, ((Instr.driveTick ([] : List (Nat × Nat × Nat)) ([] : List (Nat × Nat)) 6000).wf = true) ∧ (s.calm = true) ∧ (s.now ≤ 6000) ∧ (6000 % 3000 = 0) ∧ (s.ready (pgSoutD 0) = true) ∧ (s.ready (pgSoutD 1) = true) ∧ (5 < 64) ∧ ((s.soutH 5).dies.length = 2) ∧ ((s.soutH 5).mem.length = 3) ∧ (1 < 2) ∧ ((s.soutH 5).arrive = []) ∧ ((s.soutH 5).writes = [(0x060, 1, .basecamp)]) ∧ (((s.soutH 5).die 1).st = 4) ∧ ((evalOutput (s.rd (pgSout 5) 0x040) (s.fld (pgSout 5) 0x05C 2 0) ((List.range (s.soCount 5)).map fun m => (s.upTo 6000).memVote 5 m)).demand = true))
    ∧ (∃ s : State, ((Instr.driveTick ([] : List (Nat × Nat × Nat)) ([] : List (Nat × Nat)) 6000).wf = true) ∧ (s.calm = true) ∧ (s.now ≤ 6000) ∧ (6000 % 3000 = 0) ∧ (s.ready (pgSoutD 0) = true) ∧ (s.ready (pgSoutD 1) = true) ∧ (5 < 64) ∧ ((s.soutH 5).dies.length = 2) ∧ ((s.soutH 5).mem.length = 3) ∧ (0 < 2) ∧ ((s.soutH 5).arrive = []) ∧ ((s.soutH 5).writes = []) ∧ (((s.soutH 5).die 0).st = 4) ∧ ((evalOutput (s.rd (pgSout 5) 0x040) (s.fld (pgSout 5) 0x05C 2 0) ((List.range (s.soCount 5)).map fun m => (s.upTo 6000).memVote 5 m)).demand = false) ∧ (s.soCfg 5 26 26 = 0) ∧ (((s.soutH 5).die 0).relT.getD 6000 + s.rd (pgSout 5) 0x04C * 10 * cyclesPerUs ≤ 6000)) :=
    ⟨⟨((((((((State.reset.setSout 5 { dies := [{ st := 3 }, { st := 3 }], mem := [{ has := true, got := true, word := 0, t := 5900, run := 4, fresh := true }, {}, {}] }))).wr (pgSout 5) 0x040 0x0C400000).wr (pgSout 5) 0x048 0).wr (pgSout 5) 0x04C 0x64).wr (pgSoutD 0) 8 1).wr (pgSoutD 1) 8 1), by decide +kernel⟩,
    ⟨((((((((State.reset.setSout 5 { dies := [{ st := 3 }, { st := 3 }] }))).wr (pgSout 5) 0x040 0x0C400000).wr (pgSout 5) 0x048 5).wr (pgSout 5) 0x04C 0x64).wr (pgSoutD 0) 8 1).wr (pgSoutD 1) 8 1), by decide +kernel⟩,
    ⟨((((((((State.reset.setSout 5 { dies := [{ st := 3 }, { st := 3 }] }))).wr (pgSout 5) 0x040 0x0C400000).wr (pgSout 5) 0x048 0).wr (pgSout 5) 0x04C 0x64).wr (pgSoutD 0) 8 1).wr (pgSoutD 1) 8 1), by decide +kernel⟩,
    ⟨((((((((State.reset.setSout 5 { dies := [{ st := 4, relT := some 4 }, { st := 4, relT := some 4 }] }))).wr (pgSout 5) 0x040 0x0C400000).wr (pgSout 5) 0x048 0).wr (pgSout 5) 0x04C 0x64).wr (pgSoutD 0) 8 1).wr (pgSoutD 1) 8 1), by decide +kernel⟩,
    ⟨((((((((State.reset.setSout 5 { dies := [{ st := 4 }, { st := 4 }], writes := [(0x060, 1, .basecamp)] }))).wr (pgSout 5) 0x040 0x0C400000).wr (pgSout 5) 0x048 0).wr (pgSout 5) 0x04C 0x64).wr (pgSoutD 0) 8 1).wr (pgSoutD 1) 8 1), by decide +kernel⟩,
    ⟨((((((((State.reset.setSout 5 { dies := [{ st := 4 }, { st := 4 }], mem := [{ has := true, got := true, word := 0, t := 5900, run := 4, fresh := true }, {}, {}] }))).wr (pgSout 5) 0x040 0x08400000).wr (pgSout 5) 0x048 0).wr (pgSout 5) 0x04C 0).wr (pgSoutD 0) 8 1).wr (pgSoutD 1) 8 1), by decide +kernel⟩⟩

theorem witness_SoutOutputs_5 :
    (∃ s : State, ((Instr.driveTick ([] : List (Nat × Nat × Nat)) ([] : List (Nat × Nat)) 6000).wf = true) ∧ (s.calm = true) ∧ (s.now ≤ 6000) ∧ (6000 % 3000 = 0) ∧ (s.ready (pgSoutD 0) = true) ∧ (s.ready (pgSoutD 1) = true) ∧ (5 < 64) ∧ ((s.soutH 5).dies.length = 2) ∧ ((s.soutH 5).mem.length = 3) ∧ (0 < 2) ∧ ((s.soutH 5).arrive = []) ∧ ((s.soutH 5).writes = []) ∧ (((s.soutH 5).die 0).st = 4) ∧ ((evalOutput (s.rd (pgSout 5) 0x040) (s.fld (pgSout 5) 0x05C 2 0) ((List.range (s.soCount 5)).map fun m => (s.upTo 6000).memVote 5 m)).demand = false) ∧ ((s.soCfg 5 26 26 = 1 ∨ 6000 < ((s.soutH 5).die 0).relT.getD 6000 + s.rd (pgSout 5) 0x04C * 10 * cyclesPerUs)))
    ∧ (∃ s : State, ((Instr.driveTick ([] : List (Nat × Nat × Nat)) ([] : List (Nat × Nat)) 6000).wf = true) ∧ (s.calm = true) ∧ (s.now ≤ 6000) ∧ (6000 % 3000 = 0) ∧ (s.ready (pgSoutD 0) = true) ∧ (s.ready (pgSoutD 1) = true) ∧ (5 < 64) ∧ ((s.soutH 5).dies.length = 2) ∧ ((s.soutH 5).mem.length = 3) ∧ (1 < 2) ∧ ((s.soutH 5).arrive = []) ∧ ((s.soutH 5).writes = [(0x060, 1, .basecamp)]) ∧ (((s.soutH 5).die 1).st = 4) ∧ ((evalOutput (s.rd (pgSout 5) 0x040) (s.fld (pgSout 5) 0x05C 2 0) ((List.range (s.soCount 5)).map fun m => (s.upTo 6000).memVote 5 m)).demand = false) ∧ (s.soCfg 5 26 26 = 1))
    ∧ (∃ s : State, ((Instr.driveTick ([] : List (Nat × Nat × Nat)) ([] : List (Nat × Nat)) 6000).wf = true) ∧ (s.calm = true) ∧ (s.now ≤ 6000) ∧ (6000 % 3000 = 0) ∧ (s.ready (pgSoutD 0) = true) ∧ (s.ready (pgSoutD 1) = true) ∧ (5 < 64) ∧ ((s.soutH 5).dies.length = 2) ∧ ((s.soutH 5).mem.length = 3) ∧ (0 < 2) ∧ ((s.soutH 5).arrive = []) ∧ ((s.soutH 5).writes = []) ∧ (((s.soutH 5).die 0).st = 5))
    ∧ (∃ s : State, ((Instr.driveTick ([]) ([]) 6000).wf = true) ∧ (s.calm = true) ∧ (s.now ≤ 6000) ∧ (6000 % 3000 = 0) ∧ (s.ready (pgSoutD 0) = true) ∧ (s.ready (pgSoutD 1) = true) ∧ (5 < 64) ∧ ((s.soutH 5).dies.length = 2) ∧ ((s.soutH 5).mem.length = 3) ∧ (1 < 2) ∧ ((s.soutH 5).arrive = []) ∧ ((s.soutH 5).writes = [(0x060, 2, .basecamp)]) ∧ (((s.soutH 5).die 1).st = 5) ∧ (((s.soutH 5).die 1).cmd = false))
    ∧ (∃ s : State, ((Instr.driveTick ([(5, 1, 999)]) ([]) 6000).wf = true) ∧ (s.calm = true) ∧ (s.now ≤ 6000) ∧ (6000 % 3000 = 0) ∧ (s.ready (pgSoutD 0) = true) ∧ (s.ready (pgSoutD 1) = true) ∧ (5 < 64) ∧ ((s.soutH 5).dies.length = 2) ∧ ((s.soutH 5).mem.length = 3) ∧ (1 < 2) ∧ ((s.soutH 5).arrive = []) ∧ ((s.soutH 5).writes = [(0x060, 2, .basecamp)]) ∧ (999 < 1000) ∧ (((s.soutH 5).die 1).limited = false) ∧ (s.bcp.fldLow.contains (5 / 16) = false) ∧ (((s.soutH 5).die 1).st = 5))
    ∧ (∃ s : State, ((Instr.driveTick ([]) ([(5, 3000)]) 6000).wf = true) ∧ (s.calm = true) ∧ (s.now ≤ 6000) ∧ (6000 % 3000 = 0) ∧ (s.ready (pgSoutD 0) = true) ∧ (s.ready (pgSoutD 1) = true) ∧ (5 < 64) ∧ ((s.soutH 5).dies.length = 2) ∧ ((s.soutH 5).mem.length = 3)) :=
    ⟨⟨((((((((State.reset.setSout 5 { dies := [{ st := 4 }, { st := 4 }], mem := [{ has := true, got := true, word := 0, t := 5900, run := 4, fresh := true }, {}, {}] }))).wr (pgSout 5) 0x040 0x0C400000).wr (pgSout 5) 0x048 0).wr (pgSout 5) 0x04C 0x64).wr (pgSoutD 0) 8 1).wr (pgSoutD 1) 8 1), by decide +kernel⟩,
    ⟨((((((((State.reset.setSout 5 { dies := [{ st := 4 }, { st := 4 }], writes := [(0x060, 1, .basecamp)], mem := [{ has := true, got := true, word := 0, t := 5900, run := 4, fresh := true }, {}, {}] }))).wr (pgSout 5) 0x040 0x0C400000).wr (pgSout 5) 0x048 0).wr (pgSout 5) 0x04C 0x64).wr (pgSoutD 0) 8 1).wr (pgSoutD 1) 8 1), by decide +kernel⟩,
    ⟨((((((((State.reset.setSout 5 { dies := [{ st := 5, code := 4 }, { st := 5, code := 4 }] }))).wr (pgSout 5) 0x040 0x0C400000).wr (pgSout 5) 0x048 0).wr (pgSout 5) 0x04C 0x64).wr (pgSoutD 0) 8 1).wr (pgSoutD 1) 8 1), by decide +kernel⟩,
    ⟨((((((((State.reset.setSout 5 { dies := [{ st := 5, code := 4, rb := true }, { st := 5, code := 4, rb := true }], writes := [(0x060, 2, .basecamp)] }))).wr (pgSout 5) 0x040 0x0C400000).wr (pgSout 5) 0x048 0).wr (pgSout 5) 0x04C 0x64).wr (pgSoutD 0) 8 1).wr (pgSoutD 1) 8 1), by decide +kernel⟩,
    ⟨((((((((State.reset.setSout 5 { dies := [{ st := 5, code := 4 }, { st := 5, code := 4 }], writes := [(0x060, 2, .basecamp)] }))).wr (pgSout 5) 0x040 0x0C400000).wr (pgSout 5) 0x048 0).wr (pgSout 5) 0x04C 0x64).wr (pgSoutD 0) 8 1).wr (pgSoutD 1) 8 1), by decide +kernel⟩,
    ⟨((((((((State.reset.setSout 5 { dies := [{ st := 2 }, { st := 2 }], cur := true }))).wr (pgSout 5) 0x040 0x0C400000).wr (pgSout 5) 0x048 0).wr (pgSout 5) 0x04C 0x64).wr (pgSoutD 0) 8 1).wr (pgSoutD 1) 8 1), by decide +kernel⟩⟩

theorem witness_SoutOutputs_6 :
    (∃ s : State, ((Instr.driveTick ([] : List (Nat × Nat × Nat)) ([] : List (Nat × Nat)) 6000).wf = true) ∧ (s.calm = true) ∧ (s.now ≤ 6000) ∧ (6000 % 3000 = 0) ∧ (s.ready (pgSoutD 0) = true) ∧ (s.ready (pgSoutD 1) = true) ∧ (5 < 64) ∧ ((s.soutH 5).dies.length = 2) ∧ ((s.soutH 5).mem.length = 3) ∧ (1 < 2) ∧ ((s.soutH 5).arrive = []) ∧ ((s.soutH 5).writes = [(0x060, 4, .basecamp)]) ∧ (((s.soutH 5).die 1).st ≠ 0) ∧ (((s.soutH 5).die 1).ptReq = none) ∧ (((s.soutH 5).die 1).test = none))
    ∧ (∃ s : State, ((Instr.tripDelay 5 1 9).wf = true) ∧ (s.calm = true) ∧ (1 < 2) ∧ ((s.soutH 5).dies.length = 2) ∧ (((s.soutH 5).die 1).st = 3) ∧ ((s.soutH 5).dem = true) ∧ (((s.soutH 5).die 1).ds + s.rd (pgSout 5) 0x048 * 10 * cyclesPerUs ≤ max s.now 9))
    ∧ (∃ s : State, ((Instr.tripDelay 5 1 9).wf = true) ∧ (s.calm = true) ∧ (1 < 2) ∧ ((((s.soutH 5).die 1).st ≠ 3 ∨ (((s.soutH 5).die 1).relT = none ∧ ((s.soutH 5).dem = false ∨ max s.now 9 < ((s.soutH 5).die 1).ds + s.rd (pgSout 5) 0x048 * 10 * cyclesPerUs)))))
    ∧ (∃ s : State, ((Instr.releaseDelay 5 0 9999999).wf = true) ∧ (s.calm = true) ∧ (0 < 2) ∧ ((s.soutH 5).dies.length = 2) ∧ (((s.soutH 5).die 0).st = 4) ∧ ((s.soutH 5).dem = false) ∧ (s.soCfg 5 26 26 = 0) ∧ (((s.soutH 5).die 0).relT = some 5) ∧ (5 + s.rd (pgSout 5) 0x04C * 10 * cyclesPerUs ≤ max s.now 9999999))
    ∧ (∃ s : State, ((Instr.releaseDelay 5 1 9).wf = true) ∧ (s.calm = true) ∧ (1 < 2) ∧ ((((s.soutH 5).die 1).st ≠ 4 ∨ (s.soutH 5).dem = true ∨ s.soCfg 5 26 26 = 1 ∨ ((s.soutH 5).die 1).relT = none ∨ max s.now 9 < ((s.soutH 5).die 1).relT.getD 0 + s.rd (pgSout 5) 0x04C * 10 * cyclesPerUs)))
    ∧ (∃ s : State, ((Instr.memberNotFresh 5 0 9999999).wf = true) ∧ (s.calm = true) ∧ ((s.soutH 5).mem.length = 3) ∧ (((s.soutH 5).member 0).fresh = true) ∧ (0 < s.soCount 5 → ((s.soutH 5).member 0).got = true → ((s.soutH 5).member 0).t + s.soVage 5 ≤ max s.now 9999999)) :=
    ⟨⟨((((((((State.reset.setSout 5 { dies := [{ st := 3 }, { st := 3 }], writes := [(0x060, 4, .basecamp)] }))).wr (pgSout 5) 0x040 0x0C400000).wr (pgSout 5) 0x048 5).wr (pgSout 5) 0x04C 0x64).wr (pgSoutD 0) 8 1).wr (pgSoutD 1) 8 1), by decide +kernel⟩,
    ⟨((State.reset.setSout 5 { dies := [{ st := 3 }, { st := 3 }], dem := true })), by decide +kernel⟩,
    ⟨((State.reset.setSout 5 { dies := [{ st := 3 }, { st := 3 }] })), by decide +kernel⟩,
    ⟨((((State.reset.setSout 5 { dies := [{ st := 4, relT := some 5 }, { st := 4, relT := some 5 }] }))).wr (pgSout 5) 0x040 0), by decide +kernel⟩,
    ⟨((State.reset.setSout 5 { dies := [{ st := 4, relT := some 5 }, { st := 4, relT := some 5 }] })), by decide +kernel⟩,
    ⟨((State.reset.setSout 5 { dies := [{ st := 2 }, { st := 2 }], mem := [{ has := true, got := true, fresh := true }, {}, {}] })), by decide +kernel⟩⟩

theorem witness_SoutOutputs_7 :
    (∃ s : State, ((Instr.memberNotFresh 5 0 9).wf = true) ∧ (s.calm = true) ∧ ((s.soutH 5).mem.length = 3) ∧ (((s.soutH 5).member 0).fresh = true) ∧ (0 < s.soCount 5) ∧ (((s.soutH 5).member 0).got = true) ∧ (max s.now 9 < ((s.soutH 5).member 0).t + s.soVage 5))
    ∧ (∃ s : State, ((Instr.memberNotFresh 5 0 9).wf = true) ∧ (s.calm = true) ∧ (((s.soutH 5).member 0).fresh = false))
    ∧ (∃ s : State, ((Instr.multiplierTimeout 5 9999999999).wf = true) ∧ (s.calm = true) ∧ (s.getB (pgSout 5) 0x058 31 = true) ∧ ((s.soutH 5).multT + s.fld (pgSout 5) 0x058 7 0 * cyclesPerS ≤ max s.now 9999999999))
    ∧ (∃ s : State, ((Instr.multiplierTimeout 5 9).wf = true) ∧ (s.calm = true) ∧ ((s.getB (pgSout 5) 0x058 31 = false ∨ max s.now 9 < (s.soutH 5).multT + s.fld (pgSout 5) 0x058 7 0 * cyclesPerS)))
    ∧ (∃ s : State, ((Instr.readbackMismatch 5 1 999999).wf = true) ∧ (s.calm = true) ∧ (1 < 2) ∧ ((s.soutH 5).dies.length = 2) ∧ (((s.soutH 5).die 1).st ≠ 0) ∧ (((s.soutH 5).die 1).test = none) ∧ (((s.soutH 5).die 1).cmdT + 100 * cyclesPerUs ≤ 999999))
    ∧ (∃ s : State, ((Instr.readbackMismatch 5 1 9).wf = true) ∧ (s.calm = true) ∧ ((((s.soutH 5).die 1).st = 0 ∨ ((s.soutH 5).die 1).test.isSome = true ∨ 9 < ((s.soutH 5).die 1).cmdT + 100 * cyclesPerUs))) :=
    ⟨⟨((State.reset.setSout 5 { dies := [{ st := 2 }, { st := 2 }], mem := [{ has := true, got := true, fresh := true }, {}, {}] })), by decide +kernel⟩,
    ⟨State.reset, by decide +kernel⟩,
    ⟨(State.reset.wr (pgSout 5) 0x058 0xC0002001), by decide +kernel⟩,
    ⟨State.reset, by decide +kernel⟩,
    ⟨((State.reset.setSout 5 { dies := [{ st := 2 }, { st := 2 }] })), by decide +kernel⟩,
    ⟨State.reset, by decide +kernel⟩⟩

theorem witness_SoutOutputs_8 :
    (∃ s : State, ((Instr.openload 5 999999).wf = true) ∧ (s.calm = true) ∧ ((s.soutH 5).dies.length = 2) ∧ (s.soCfg 5 21 21 = 1) ∧ (((s.soutH 5).dies.all fun x => x.cmd && decide (x.cmdT + 100 * cyclesPerUs ≤ 999999)) = true))
    ∧ (∃ s : State, ((Instr.openload 5 999999).wf = true) ∧ (s.calm = true) ∧ ((s.soutH 5).dies.length = 2) ∧ ((s.soCfg 5 21 21 = 0 ∨ ((s.soutH 5).dies.any fun x => !x.cmd || decide (999999 < x.cmdT + 100 * cyclesPerUs)) = true)))
    ∧ (∃ s : State, ((Instr.diverge 5 9999999).wf = true) ∧ (s.calm = true) ∧ ((s.soutH 5).dies.length = 2) ∧ ((s.soutH 5).div = some 6) ∧ (6 + cyclesPerMs ≤ 9999999))
    ∧ (∃ s : State, ((Instr.diverge 5 9999999).wf = true) ∧ (s.calm = true) ∧ (((s.soutH 5).div.any fun r => decide (r + cyclesPerMs ≤ 9999999)) = false))
    ∧ (∃ s : State, ((Instr.peer 1 9).wf = true) ∧ (s.calm = true) ∧ (1 < 2) ∧ (s.ready (pgSoutD 1) = true) ∧ (((List.range 64).all fun o => decide ((s.soutH o).dies.length = 2)) = true))
    ∧ (∃ s : State, ((Instr.peer 1 9).wf = true) ∧ (s.calm = true) ∧ (1 < 2) ∧ (s.ready (pgSoutD 1) = false)) :=
    ⟨⟨((((State.reset.setSout 5 { dies := [{ st := 2, cmd := true }, { st := 2, cmd := true }] }))).wr (pgSout 5) 0x040 0x200000), by decide +kernel⟩,
    ⟨((State.reset.setSout 5 { dies := [{ st := 2, cmd := true }, { st := 2, cmd := true }] })), by decide +kernel⟩,
    ⟨((State.reset.setSout 5 { dies := [{ st := 2 }, { st := 5, code := 3 }], div := some 6 })), by decide +kernel⟩,
    ⟨((State.reset.setSout 5 { dies := [{ st := 2 }, { st := 4 }], div := some 9999998 })), by decide +kernel⟩,
    ⟨((((State.reset.setSout 5 { dies := [{ st := 2 }, { st := 2 }] }))).wr (pgSoutD 1) 8 1), by decide +kernel⟩,
    ⟨State.reset, by decide +kernel⟩⟩

theorem witness_SoutOutputs_9 :
    (∃ s : State, ((Instr.driveBlockFault 1 9).wf = true) ∧ (s.calm = true) ∧ (1 < 2) ∧ (s.ready (pgSoutD 1) = true) ∧ (s.retired (pgSoutD 1) = false) ∧ (((List.range 64).all fun o => decide ((s.soutH o).dies.length = 2)) = true))
    ∧ (∃ s : State, ((Instr.driveBlockFault 1 9).wf = true) ∧ (s.calm = true) ∧ (1 < 2) ∧ (s.ready (pgSoutD 1) = false)) :=
    ⟨⟨((((State.reset.setSout 5 { dies := [{ st := 2 }, { st := 2 }] }))).wr (pgSoutD 1) 8 1), by decide +kernel⟩,
    ⟨State.reset, by decide +kernel⟩⟩

theorem witness_SoutTests_1 :
    (∃ s : State, ((Instr.pulseTest 5 1 99999999).wf = true) ∧ (s.calm = true) ∧ (1 < 2) ∧ ((s.soutH 5).dies.length = 2) ∧ (s.ready (pgSoutD 1) = true) ∧ (((s.soutH 5).die 1).test = none) ∧ (((s.getB (pgSout 5) 0x054 31 = true ∧ ((s.soutH 5).die 1).st ≠ 0 ∧ ((s.soutH 5).die 1).st ≠ 1 ∧ ((s.soutH 5).die 1).due ≤ max s.now 99999999) ∨ ((s.soutH 5).die 1).ptReq.isSome = true)) ∧ (((((s.soutH 5).die 1).st = 2 ∨ ((s.soutH 5).die 1).st = 4) ∧ ((s.soutH 5).die 1).since + 10 * cyclesPerMs ≤ max s.now 99999999 ∧ ((s.soutH 5).die (1 - 1)).test = none ∧ ¬(1 = 1 ∧ ((s.soutH 5).die 0).ptReq.isSome = true))))
    ∧ (∃ s : State, ((Instr.pulseTest 5 1 9).wf = true) ∧ (s.calm = true) ∧ (1 < 2) ∧ ((s.soutH 5).dies.length = 2) ∧ (s.ready (pgSoutD 1) = true) ∧ (((s.soutH 5).die 1).test = none) ∧ (((s.getB (pgSout 5) 0x054 31 = true ∧ ((s.soutH 5).die 1).st ≠ 0 ∧ ((s.soutH 5).die 1).st ≠ 1 ∧ ((s.soutH 5).die 1).due ≤ max s.now 9) ∨ ((s.soutH 5).die 1).ptReq.isSome = true)) ∧ (¬((((s.soutH 5).die 1).st = 2 ∨ ((s.soutH 5).die 1).st = 4) ∧ ((s.soutH 5).die 1).since + 10 * cyclesPerMs ≤ max s.now 9 ∧ ((s.soutH 5).die (1 - 1)).test = none ∧ ¬(1 = 1 ∧ ((s.soutH 5).die 0).ptReq.isSome = true))) ∧ (¬((s.getB (pgSout 5) 0x054 31 = true ∧ ((s.soutH 5).die 1).st ≠ 0 ∧ ((s.soutH 5).die 1).st ≠ 1 ∧ ((s.soutH 5).die 1).due ≤ max s.now 9) ∧ ((s.soutH 5).die 1).due + (max 1 (s.fld (pgSout 5) 0x054 27 16) * cyclesPerS) ≤ max s.now 9)) ∧ ((((s.soutH 5).die 1).ptReq.any fun r => decide (r + (max 1 (s.fld (pgSout 5) 0x054 27 16) * cyclesPerS) ≤ max s.now 9)) = false))
    ∧ (∃ s : State, ((Instr.pulseTest 5 1 9000000000).wf = true) ∧ (s.calm = true) ∧ (1 < 2) ∧ ((s.soutH 5).dies.length = 2) ∧ (s.ready (pgSoutD 1) = true) ∧ (((s.soutH 5).die 1).test = none) ∧ (¬((((s.soutH 5).die 1).st = 2 ∨ ((s.soutH 5).die 1).st = 4) ∧ ((s.soutH 5).die 1).since + 10 * cyclesPerMs ≤ max s.now 9000000000 ∧ ((s.soutH 5).die (1 - 1)).test = none ∧ ¬(1 = 1 ∧ ((s.soutH 5).die 0).ptReq.isSome = true))) ∧ ((s.getB (pgSout 5) 0x054 31 = true ∧ ((s.soutH 5).die 1).st ≠ 0 ∧ ((s.soutH 5).die 1).st ≠ 1 ∧ ((s.soutH 5).die 1).due ≤ max s.now 9000000000)) ∧ (((s.soutH 5).die 1).due + (max 1 (s.fld (pgSout 5) 0x054 27 16) * cyclesPerS) ≤ max s.now 9000000000) ∧ ((((s.soutH 5).die 1).ptReq.any fun r => decide (r + (max 1 (s.fld (pgSout 5) 0x054 27 16) * cyclesPerS) ≤ max s.now 9000000000)) = false))
    ∧ (∃ s : State, ((Instr.pulseTest 5 1 9000000000).wf = true) ∧ (s.calm = true) ∧ (1 < 2) ∧ ((s.soutH 5).dies.length = 2) ∧ (s.ready (pgSoutD 1) = true) ∧ (((s.soutH 5).die 1).test = none) ∧ (¬((((s.soutH 5).die 1).st = 2 ∨ ((s.soutH 5).die 1).st = 4) ∧ ((s.soutH 5).die 1).since + 10 * cyclesPerMs ≤ max s.now 9000000000 ∧ ((s.soutH 5).die (1 - 1)).test = none ∧ ¬(1 = 1 ∧ ((s.soutH 5).die 0).ptReq.isSome = true))) ∧ (¬((s.getB (pgSout 5) 0x054 31 = true ∧ ((s.soutH 5).die 1).st ≠ 0 ∧ ((s.soutH 5).die 1).st ≠ 1 ∧ ((s.soutH 5).die 1).due ≤ max s.now 9000000000) ∧ ((s.soutH 5).die 1).due + (max 1 (s.fld (pgSout 5) 0x054 27 16) * cyclesPerS) ≤ max s.now 9000000000)) ∧ (((s.soutH 5).die 1).ptReq = some 5) ∧ (5 + (max 1 (s.fld (pgSout 5) 0x054 27 16) * cyclesPerS) ≤ max s.now 9000000000))
    ∧ (∃ s : State, ((Instr.pulseTest 5 1 9).wf = true) ∧ (s.calm = true) ∧ ((s.ready (pgSoutD 1) = false ∨ ((s.soutH 5).die 1).test.isSome = true ∨ (¬(s.getB (pgSout 5) 0x054 31 = true ∧ ((s.soutH 5).die 1).st ≠ 0 ∧ ((s.soutH 5).die 1).st ≠ 1 ∧ ((s.soutH 5).die 1).due ≤ max s.now 9) ∧ ((s.soutH 5).die 1).ptReq = none))))
    ∧ (∃ s : State, ((Instr.pulseTestEnd 5 1 true 99999999).wf = true) ∧ (s.calm = true) ∧ (1 < 2) ∧ ((s.soutH 5).dies.length = 2) ∧ (((s.soutH 5).die 1).test = some 6) ∧ (6 + s.fld (pgSout 5) 0x054 6 0 * 10 * cyclesPerUs ≤ 99999999)) :=
    ⟨⟨((((State.reset.setSout 5 { dies := [{ st := 2, cmd := true }, { st := 2, cmd := true, ptReq := some 5 }] }))).wr (pgSoutD 1) 8 1), by decide +kernel⟩,
    ⟨((((State.reset.setSout 5 { dies := [{ st := 2, cmd := true }, { st := 2, cmd := true, ptReq := some 5 }] }))).wr (pgSoutD 1) 8 1), by decide +kernel⟩,
    ⟨(((((State.reset.setSout 5 { dies := [{ st := 2, cmd := true }, { st := 3, cmd := true, due := 5 }] }))).wr (pgSoutD 1) 8 1).wr (pgSout 5) 0x054 0x80010032), by decide +kernel⟩,
    ⟨(((((State.reset.setSout 5 { dies := [{ st := 2, cmd := true }, { st := 3, cmd := true, due := 99999999999, ptReq := some 5 }] }))).wr (pgSoutD 1) 8 1).wr (pgSout 5) 0x054 0x80010032), by decide +kernel⟩,
    ⟨State.reset, by decide +kernel⟩,
    ⟨((State.reset.setSout 5 { dies := [{ st := 2, cmd := true, test := some 6 }, { st := 2, cmd := true, test := some 6 }] })), by decide +kernel⟩⟩

theorem witness_SoutTests_2 :
    (∃ s : State, ((Instr.pulseTestEnd 5 1 false 99999999).wf = true) ∧ (s.calm = true) ∧ (1 < 2) ∧ ((s.soutH 5).dies.length = 2) ∧ (((s.soutH 5).die 1).test = some 6) ∧ (((s.soutH 5).die 1).st ≠ 0) ∧ (6 + s.fld (pgSout 5) 0x054 6 0 * 10 * cyclesPerUs ≤ 99999999))
    ∧ (∃ s : State, ((Instr.pulseTestEnd 5 1 false 9).wf = true) ∧ (s.calm = true) ∧ ((((s.soutH 5).die 1).test.any fun r => decide (r + s.fld (pgSout 5) 0x054 6 0 * 10 * cyclesPerUs ≤ 9)) = false))
    ∧ (∃ s : State, ((Instr.resetTrip (.debug : Writer) 5 9).wf = true) ∧ (s.calm = true) ∧ (s.mayWrite (.debug : Writer) (pgSout 5) .sout = true) ∧ (s.powered (pgSout 5) = true) ∧ ((s.pageH (pgSout 5)).resetting = false))
    ∧ (∃ s : State, ((Instr.resetTrip (.tile 3 1 : Writer) 5 9).wf = true) ∧ (s.calm = true) ∧ (s.routePage (.tile 3 1 : Writer) (pgSout 5) = (pgSout 5)) ∧ (s.soutForeign (.tile 3 1 : Writer) .sout none = true) ∧ ((fromOuter (.tile 3 1 : Writer) = false ∨ Kind.sout.owner ≠ 0x03)))
    ∧ (∃ s : State, ((Instr.clearFault (.debug : Writer) 5 9).wf = true) ∧ (s.calm = true) ∧ (s.mayWrite (.debug : Writer) (pgSout 5) .sout = true) ∧ (s.powered (pgSout 5) = true) ∧ ((s.pageH (pgSout 5)).resetting = false))
    ∧ (∃ s : State, ((Instr.clearFault (.tile 3 1 : Writer) 5 9).wf = true) ∧ (s.calm = true) ∧ (s.routePage (.tile 3 1 : Writer) (pgSout 5) = (pgSout 5)) ∧ (s.soutForeign (.tile 3 1 : Writer) .sout none = true) ∧ ((fromOuter (.tile 3 1 : Writer) = false ∨ Kind.sout.owner ≠ 0x03))) :=
    ⟨⟨((State.reset.setSout 5 { dies := [{ st := 2, cmd := true, test := some 6 }, { st := 2, cmd := true, test := some 6 }] })), by decide +kernel⟩,
    ⟨((State.reset.setSout 5 { dies := [{ st := 2, test := some 6 }, { st := 2, test := some 6 }] })), by decide +kernel⟩,
    ⟨State.reset, by decide +kernel⟩,
    ⟨State.reset, by decide +kernel⟩,
    ⟨State.reset, by decide +kernel⟩,
    ⟨State.reset, by decide +kernel⟩⟩

theorem witness_SoutTests_3 :
    (∃ s : State, ((Instr.ptNow (.debug : Writer) 5 9).wf = true) ∧ (s.calm = true) ∧ (s.mayWrite (.debug : Writer) (pgSout 5) .sout = true) ∧ (s.powered (pgSout 5) = true) ∧ ((s.pageH (pgSout 5)).resetting = false))
    ∧ (∃ s : State, ((Instr.ptNow (.tile 3 1 : Writer) 5 9).wf = true) ∧ (s.calm = true) ∧ (s.routePage (.tile 3 1 : Writer) (pgSout 5) = (pgSout 5)) ∧ (s.soutForeign (.tile 3 1 : Writer) .sout none = true) ∧ ((fromOuter (.tile 3 1 : Writer) = false ∨ Kind.sout.owner ≠ 0x03)))
    ∧ (∃ s : State, ((Instr.soutByp .basecamp 5 3 9).wf = true) ∧ (s.calm = true) ∧ (s.mayWrite .basecamp (pgSout 5) .sout = true) ∧ (s.powered (pgSout 5) = true) ∧ ((s.pageH (pgSout 5)).resetting = false))
    ∧ (∃ s : State, ((Instr.soutByp (.tile 3 1 : Writer) 5 3 9).wf = true) ∧ (s.calm = true) ∧ (s.routePage (.tile 3 1 : Writer) (pgSout 5) = (pgSout 5)) ∧ (s.soutForeign (.tile 3 1 : Writer) .sout none = true) ∧ ((fromOuter (.tile 3 1 : Writer) = false ∨ Kind.sout.owner ≠ 0x03)))
    ∧ (∃ s : State, ((Instr.soutFoReset .basecamp 1 6 9).wf = true) ∧ (s.calm = true) ∧ (1 < 2) ∧ (s.mayWrite .basecamp (pgSoutD 1) .soutD = true) ∧ (s.powered (pgSoutD 1) = true) ∧ ((s.pageH (pgSoutD 1)).resetting = false))
    ∧ (∃ s : State, ((Instr.soutFoReset (.tile 3 1 : Writer) 1 6 9).wf = true) ∧ (s.calm = true) ∧ (1 < 2) ∧ (s.routePage (.tile 3 1 : Writer) (pgSoutD 1) = pgSoutD 1) ∧ (s.soutForeign (.tile 3 1 : Writer) .soutD none = true) ∧ ((fromOuter (.tile 3 1 : Writer) = false ∨ Kind.soutD.owner ≠ 0x03))) :=
    ⟨⟨State.reset, by decide +kernel⟩,
    ⟨State.reset, by decide +kernel⟩,
    ⟨State.reset, by decide +kernel⟩,
    ⟨State.reset, by decide +kernel⟩,
    ⟨(State.reset.wr (pgSoutD 1) 0x110 7), by decide +kernel⟩,
    ⟨State.reset, by decide +kernel⟩⟩

theorem witness_SoutTests_4 :
    (∃ s : State, ((Instr.switchCurrentLimit 5 1 9).wf = true) ∧ (s.calm = true) ∧ (1 < 2) ∧ ((s.soutH 5).dies.length = 2) ∧ (((s.soutH 5).die 1).cmd = true))
    ∧ (∃ s : State, ((Instr.switchCurrentLimit 5 1 9).wf = true) ∧ (s.calm = true) ∧ (((s.soutH 5).die 1).cmd = false)) :=
    ⟨⟨((State.reset.setSout 5 { dies := [{ st := 2, cmd := true, rb := true }, { st := 2, cmd := true, rb := true }] })), by decide +kernel⟩,
    ⟨State.reset, by decide +kernel⟩⟩

theorem witness_TileCairns_1 :
    (∃ s : State, ((Instr.cairnDue 5 9000).wf = true) ∧ (s.calm = true) ∧ (s.ready (pgTile 5) = true) ∧ ((s.tileH 5).mode ≤ 1) ∧ ((s.tileH 5).work = true) ∧ ((s.tileH 5).recovering = false) ∧ ((s.tileH 5).draining = false) ∧ ((s.tileH 5).halted.getD 0 false = false) ∧ ((s.tileH 5).due = none) ∧ ((s.tileH 5).bound = none) ∧ ((s.tileH 5).lastDue + (s.tileH 5).ival * 64 ≤ 9000) ∧ (((s.tileH 5).copies.getD 0 {}).outstanding = false))
    ∧ (∃ s : State, ((Instr.cairnDue 5 9000).wf = true) ∧ (s.calm = true) ∧ (s.ready (pgTile 5) = true) ∧ ((s.tileH 5).mode ≤ 1) ∧ ((s.tileH 5).work = true) ∧ ((s.tileH 5).recovering = false) ∧ ((s.tileH 5).draining = false) ∧ ((s.tileH 5).halted.getD 0 false = false) ∧ ((s.tileH 5).due = none) ∧ ((s.tileH 5).lastDue + (s.tileH 5).ival * 64 ≤ 9000) ∧ ((((s.tileH 5).copies.getD 0 {}).outstanding = true ∨ (s.tileH 5).bound.isSome = true)))
    ∧ (∃ s : State, ((Instr.cairnDue 5 9000).wf = true) ∧ (s.calm = true) ∧ (s.ready (pgTile 5) = true) ∧ ((s.tileH 5).mode ≤ 1) ∧ ((s.tileH 5).work = true) ∧ ((s.tileH 5).recovering = false) ∧ ((s.tileH 5).draining = false) ∧ ((s.tileH 5).halted.getD 0 false = false) ∧ ((s.tileH 5).due = some 7) ∧ ((s.tileH 5).bound = none) ∧ (((s.tileH 5).copies.getD 0 {}).outstanding = false))
    ∧ (∃ s : State, ((Instr.cairnDue 5 90).wf = true) ∧ (s.calm = true) ∧ (s.ready (pgTile 5) = true) ∧ ((s.tileH 5).mode ≤ 1) ∧ ((s.tileH 5).work = true) ∧ ((s.tileH 5).recovering = false) ∧ ((s.tileH 5).draining = false) ∧ ((s.tileH 5).halted.getD 0 false = false) ∧ ((s.tileH 5).due = none) ∧ (90 < (s.tileH 5).lastDue + (s.tileH 5).ival * 64) ∧ ((s.tileH 5).undo.length < (s.tileH 5).logcap - 64) ∧ ((s.tileH 5).jrn.length < 192) ∧ ((s.tileH 5).ocb.length < 192))
    ∧ (∃ s : State, ((Instr.cairnDue 5 9).wf = true) ∧ (s.calm = true) ∧ (s.ready (pgTile 5) = true) ∧ ((s.tileH 5).mode ≤ 1) ∧ ((s.tileH 5).work = true) ∧ ((s.tileH 5).recovering = false) ∧ ((s.tileH 5).draining = false) ∧ ((s.tileH 5).halted.getD 0 false = false) ∧ ((s.tileH 5).due = none) ∧ ((s.tileH 5).bound = none) ∧ (9 < (s.tileH 5).lastDue + (s.tileH 5).ival * 64) ∧ ((s.tileH 5).logcap - 64 ≤ (s.tileH 5).undo.length) ∧ (((s.tileH 5).copies.getD 0 {}).outstanding = false))
    ∧ (∃ s : State, ((Instr.cairnDue 5 9).wf = true) ∧ (s.calm = true) ∧ (s.ready (pgTile 5) = true) ∧ ((s.tileH 5).mode ≤ 1) ∧ ((s.tileH 5).work = true) ∧ ((s.tileH 5).recovering = false) ∧ ((s.tileH 5).draining = false) ∧ ((s.tileH 5).halted.getD 0 false = false) ∧ ((s.tileH 5).due = none) ∧ ((s.tileH 5).bound = none) ∧ (9 < (s.tileH 5).lastDue + (s.tileH 5).ival * 64) ∧ ((s.tileH 5).undo.length < (s.tileH 5).logcap - 64) ∧ (192 ≤ (s.tileH 5).jrn.length) ∧ (((s.tileH 5).copies.getD 0 {}).outstanding = false)) :=
    ⟨⟨((State.reset.wr (pgTile 5) 8 1).setTile 5 { work := true, copies := [{ run := true }, {}, {}] }), by decide +kernel⟩,
    ⟨((State.reset.wr (pgTile 5) 8 1).setTile 5 { work := true, copies := [{ run := true, lat := [(3, 9)] }, {}, {}] }), by decide +kernel⟩,
    ⟨((State.reset.wr (pgTile 5) 8 1).setTile 5 { work := true, due := some 7, copies := [{ run := true }, {}, {}] }), by decide +kernel⟩,
    ⟨((State.reset.wr (pgTile 5) 8 1).setTile 5 { work := true, copies := [{ run := true }, {}, {}] }), by decide +kernel⟩,
    ⟨((State.reset.wr (pgTile 5) 8 1).setTile 5 { work := true, logcap := 64, copies := [{ run := true }, {}, {}] }), by decide +kernel⟩,
    ⟨((State.reset.wr (pgTile 5) 8 1).setTile 5 { work := true, jrn := List.replicate 192 ⟨0, 5, 7, false, 0⟩, copies := [{ run := true }, {}, {}] }), by decide +kernel⟩⟩

theorem witness_TileCairns_2 :
    (∃ s : State, ((Instr.cairnDue 5 9).wf = true) ∧ (s.calm = true) ∧ (s.ready (pgTile 5) = true) ∧ ((s.tileH 5).mode ≤ 1) ∧ ((s.tileH 5).work = true) ∧ ((s.tileH 5).recovering = false) ∧ ((s.tileH 5).draining = false) ∧ ((s.tileH 5).halted.getD 0 false = false) ∧ ((s.tileH 5).due = none) ∧ ((s.tileH 5).bound = none) ∧ (9 < (s.tileH 5).lastDue + (s.tileH 5).ival * 64) ∧ ((s.tileH 5).undo.length < (s.tileH 5).logcap - 64) ∧ ((s.tileH 5).jrn.length < 192) ∧ (192 ≤ (s.tileH 5).ocb.length) ∧ (((s.tileH 5).copies.getD 0 {}).outstanding = false))
    ∧ (∃ s : State, ((Instr.cairnDue 5 9000).wf = true) ∧ (s.calm = true) ∧ ((s.ready (pgTile 5) = false ∨ 2 ≤ (s.tileH 5).mode ∨ (s.tileH 5).work = false ∨ (s.tileH 5).recovering = true ∨ (s.tileH 5).draining = true ∨ (s.tileH 5).halted.getD 0 false = true)))
    ∧ (∃ s : State, ((Instr.cairnCommit 5 1 0 99).wf = true) ∧ (s.calm = true) ∧ (s.ready (pgTile 5) = true) ∧ ((s.tileH 5).recovering = false) ∧ ((s.tileH 5).halted.getD 0 false = false) ∧ ((s.tileH 5).bound = some ({ k := { pc := 0x40 }, undo := 1, ocb := 1, jrn := 1, bundles := 3, t := 5 } : BoundH)) ∧ (1 ≤ 1) ∧ (((((s.tileH 5).outQ ++ (s.tileH 5).ocb.take ({ k := { pc := 0x40 }, undo := 1, ocb := 1, jrn := 1, bundles := 3, t := 5 } : BoundH).ocb).all fun e => decide (e.kind ≤ 1) && (pageOfAddr e.addr).isNone && decide (e.size ≤ 64) && !stallsAt s 5 e.addr) = true)))
    ∧ (∃ s : State, ((Instr.cairnCommit 5 0 0 99).wf = true) ∧ (s.calm = true) ∧ (s.ready (pgTile 5) = true) ∧ ((s.tileH 5).recovering = false) ∧ ((s.tileH 5).halted.getD 0 false = false) ∧ ((s.tileH 5).bound = some ({ k := { pc := 0x40 }, undo := 1, ocb := 0, jrn := 0, bundles := 3, t := 5 } : BoundH)) ∧ (({ k := { pc := 0x40 }, undo := 1, ocb := 0, jrn := 0, bundles := 3, t := 5 } : BoundH).ocb = 0) ∧ ((s.tileH 5).outQ = []) ∧ ((s.tileH 5).held = []) ∧ ((s.tileH 5).heldWait = []) ∧ ((s.tileH 5).outvoted = none) ∧ ((s.tileH 5).handReq = none) ∧ ((s.tileH 5).haltWait = false) ∧ ((s.tileH 5).spare = none) ∧ ((s.tileH 5).due = none) ∧ ((s.tileH 5).undo.length < s.fld (pgTile 5) 0x040 15 5 - 64) ∧ ((s.tileH 5).jrn.length < 192) ∧ ((s.tileH 5).ocb.length < 192))
    ∧ (∃ s : State, ((Instr.cairnCommit 5 0 0 99).wf = true) ∧ (s.calm = true) ∧ (s.ready (pgTile 5) = true) ∧ ((s.tileH 5).recovering = false) ∧ ((s.tileH 5).halted.getD 0 false = false) ∧ ((s.tileH 5).bound = some ({ k := { pc := 0x40 }, undo := 1, ocb := 1, jrn := 1, bundles := 3, t := 5 } : BoundH)) ∧ (({ k := { pc := 0x40 }, undo := 1, ocb := 1, jrn := 1, bundles := 3, t := 5 } : BoundH).ocb = 1) ∧ ((s.tileH 5).outQ = []) ∧ ((s.tileH 5).held = []) ∧ ((s.tileH 5).spare = none) ∧ ((s.tileH 5).ocb = [(⟨0, 0, 0x1000000010, 4, 77, 0, false, 0⟩ : OcbE)]) ∧ ((⟨0, 0, 0x1000000010, 4, 77, 0, false, 0⟩ : OcbE).kind = 0) ∧ (((⟨0, 0, 0x1000000010, 4, 77, 0, false, 0⟩ : OcbE).size = 4 ∨ (⟨0, 0, 0x1000000010, 4, 77, 0, false, 0⟩ : OcbE).size = 8)) ∧ ((⟨0, 0, 0x1000000010, 4, 77, 0, false, 0⟩ : OcbE).addr % (⟨0, 0, 0x1000000010, 4, 77, 0, false, 0⟩ : OcbE).size = 0) ∧ ((⟨0, 0, 0x1000000010, 4, 77, 0, false, 0⟩ : OcbE).pois = 0) ∧ ((⟨0, 0, 0x1000000010, 4, 77, 0, false, 0⟩ : OcbE).val < 256 ^ (⟨0, 0, 0x1000000010, 4, 77, 0, false, 0⟩ : OcbE).size) ∧ ((clusterBase 0 ≤ (⟨0, 0, 0x1000000010, 4, 77, 0, false, 0⟩ : OcbE).addr ∧ (⟨0, 0, 0x1000000010, 4, 77, 0, false, 0⟩ : OcbE).addr < clusterBase 16)) ∧ (!stallsAt s 5 (⟨0, 0, 0x1000000010, 4, 77, 0, false, 0⟩ : OcbE).addr) ∧ (s.usable (⟨0, 0, 0x1000000010, 4, 77, 0, false, 0⟩ : OcbE).addr 8 = true) ∧ (bit ((s.upTo 99).flipRegs (pgEccC (((⟨0, 0, 0x1000000010, 4, 77, 0, false, 0⟩ : OcbE).addr - clusterBase 0) / 0x800000))).1 31 = false))
    ∧ (∃ s : State, ((Instr.cairnCommit 5 2 0 99).wf = true) ∧ (s.calm = true) ∧ (s.ready (pgTile 5) = true) ∧ ((s.tileH 5).recovering = false) ∧ ((s.tileH 5).halted.getD 0 false = false) ∧ ((s.tileH 5).bound = some ({ k := { pc := 0x40 }, undo := 1, ocb := 0, jrn := 0, bundles := 3, t := 5 } : BoundH)) ∧ (2 ≤ 2)) :=
    ⟨⟨((State.reset.wr (pgTile 5) 8 1).setTile 5 { work := true, ocb := List.replicate 192 ⟨0, 0, 0x1000000000, 4, 77, 0, false, 0⟩, copies := [{ run := true }, {}, {}] }), by decide +kernel⟩,
    ⟨((State.reset.wr (pgTile 5) 8 1).setTile 5 { work := true, recovering := true }), by decide +kernel⟩,
    ⟨((State.reset.wr (pgTile 5) 8 1).setTile 5 { work := true, bound := some { k := { pc := 0x40 }, undo := 1, ocb := 1, jrn := 1, bundles := 3, t := 5 }, undo := [⟨0x1100280000, 7, 0, 0⟩, ⟨0x1100280000, 7, 0, 0⟩], bundles := 8, ocb := [⟨0, 0, 0x1000000000, 4, 77, 0, false, 0⟩], outvoted := some 1, handReq := some 2, haltWait := true }), by decide +kernel⟩,
    ⟨((State.reset.wr (pgTile 5) 8 1).setTile 5 { work := true, bound := some { k := { pc := 0x40 }, undo := 1, ocb := 0, jrn := 0, bundles := 3, t := 5 }, undo := [⟨0x1100280000, 7, 0, 0⟩, ⟨0x1100280000, 7, 0, 0⟩], bundles := 8 }), by decide +kernel⟩,
    ⟨(((State.reset.wr (pgTile 5) 8 1).setFld (pgEccC 0) 0x048 31 0 0xAAAAAAAA |>.wrMem 0x1000000100 8 1).setTile 5 { work := true, bound := some { k := { pc := 0x40 }, undo := 1, ocb := 1, jrn := 1, bundles := 3, t := 5 }, bundles := 8, ocb := [⟨0, 0, 0x1000000010, 4, 77, 0, false, 0⟩] }), by decide +kernel⟩,
    ⟨((State.reset.wr (pgTile 5) 8 1).setTile 5 { work := true, bound := some { k := { pc := 0x40 }, undo := 1, ocb := 0, jrn := 0, bundles := 3, t := 5 }, bundles := 8 }), by decide +kernel⟩⟩

theorem witness_TileCairns_3 :
    (∃ s : State, ((Instr.cairnCommit 5 0 9 99).wf = true) ∧ (s.calm = true) ∧ (s.ready (pgTile 5) = true) ∧ ((s.tileH 5).recovering = false) ∧ ((s.tileH 5).halted.getD 0 false = false) ∧ ((s.tileH 5).bound = some ({ k := { pc := 0x40 }, undo := 1, ocb := 0, jrn := 0, bundles := 3, t := 5 } : BoundH)) ∧ (({ k := { pc := 0x40 }, undo := 1, ocb := 0, jrn := 0, bundles := 3, t := 5 } : BoundH).ocb = 0) ∧ ((s.tileH 5).outQ = []) ∧ ((s.tileH 5).spare = some (true, 7, 9)) ∧ (9 ≤ 256) ∧ (s.ready (pgTile 7) = true) ∧ (7 / 8 = 5 / 8) ∧ (7 ≠ 5) ∧ ((s.tileH 5).mode ≤ 1) ∧ (s.workTile 5 = 5))
    ∧ (∃ s : State, ((Instr.cairnCommit 5 0 257 99).wf = true) ∧ (s.calm = true) ∧ (s.ready (pgTile 5) = true) ∧ ((s.tileH 5).recovering = false) ∧ ((s.tileH 5).halted.getD 0 false = false) ∧ ((s.tileH 5).bound = some ({ k := { pc := 0x40 }, undo := 1, ocb := 0, jrn := 0, bundles := 3, t := 5 } : BoundH)) ∧ (({ k := { pc := 0x40 }, undo := 1, ocb := 0, jrn := 0, bundles := 3, t := 5 } : BoundH).ocb = 0) ∧ ((s.tileH 5).outQ = []) ∧ ((s.tileH 5).spare = some (true, 7, 9)) ∧ (256 < 257))
    ∧ (∃ s : State, ((Instr.cairnCommit 5 0 0 99).wf = true) ∧ (s.calm = true) ∧ (s.ready (pgTile 5) = true) ∧ ((s.tileH 5).recovering = false) ∧ ((s.tileH 5).halted.getD 0 false = false) ∧ ((s.tileH 5).mode ≤ 1) ∧ ((s.tileH 5).bound = none) ∧ ((s.tileH 5).drained = true) ∧ ((s.tileH 5).final = false) ∧ ((s.tileH 5).handReq = some 2) ∧ ((s.tileH 5).haltWait = false) ∧ ((s.tileH 5).ocb = []) ∧ ((s.tileH 5).outQ = []))
    ∧ (∃ s : State, ((Instr.cairnCommit 5 1 0 99).wf = true) ∧ (s.calm = true) ∧ ((s.ready (pgTile 5) = false ∨ (s.tileH 5).recovering = true ∨ (s.tileH 5).halted.getD 0 false = true ∨ ((s.tileH 5).bound = none ∧ (2 ≤ (s.tileH 5).mode ∨ (s.tileH 5).drained = false ∨ (s.tileH 5).final = true)))))
    ∧ (∃ s : State, ((Instr.mismatch 5 (.item 3 0 none) 44 99).wf = true) ∧ (s.calm = true) ∧ (s.ready (pgTile 5) = true) ∧ ((s.tileH 5).work = true) ∧ ((s.tileH 5).recovering = false) ∧ ((s.tileH 5).mode = 0) ∧ (0 < 3) ∧ ((s.tileH 5).outvoted ≠ some 0) ∧ (((s.tileH 5).events.filter fun e => decide (max s.now 99 < e + 10 * cyclesPerMs)).length < 2))
    ∧ (∃ s : State, ((Instr.mismatch 5 (.item 3 0 none) 44 99).wf = true) ∧ (s.calm = true) ∧ (s.ready (pgTile 5) = true) ∧ ((s.tileH 5).work = true) ∧ ((s.tileH 5).recovering = false) ∧ ((s.tileH 5).mode = 0) ∧ (0 < 3) ∧ ((s.tileH 5).outvoted = some 0)) :=
    ⟨⟨((((State.reset.wr (pgTile 5) 8 1).wr (pgTile 7) 8 1).wr (pgTile 7) 0x040 0x20000000).setTile 5 { work := true, bound := some { k := { pc := 0x40 }, undo := 1, ocb := 0, jrn := 0, bundles := 3, t := 5 }, bundles := 8, spare := some (true, 7, 9) }), by decide +kernel⟩,
    ⟨((((State.reset.wr (pgTile 5) 8 1).wr (pgTile 7) 8 1).wr (pgTile 7) 0x040 0x20000000).setTile 5 { work := true, bound := some { k := { pc := 0x40 }, undo := 1, ocb := 0, jrn := 0, bundles := 3, t := 5 }, bundles := 8, spare := some (true, 7, 9) }), by decide +kernel⟩,
    ⟨((State.reset.wr (pgTile 5) 8 1).setTile 5 { work := true, draining := true, handReq := some 2, bundles := 8 }), by decide +kernel⟩,
    ⟨((State.reset.wr (pgTile 5) 8 1).setTile 5 { work := true, bound := some { k := { pc := 0x40 }, undo := 1, ocb := 0, jrn := 0, bundles := 3, t := 5 }, halted := [true, false, false] }), by decide +kernel⟩,
    ⟨((State.reset.wr (pgTile 5) 8 1).setTile 5 { work := true }), by decide +kernel⟩,
    ⟨((State.reset.wr (pgTile 5) 8 1).setTile 5 { work := true, outvoted := some 0 }), by decide +kernel⟩⟩

theorem witness_TileCairns_4 :
    (∃ s : State, ((Instr.mismatch 5 (.item 3 1 none) 44 99).wf = true) ∧ (s.calm = true) ∧ (s.ready (pgTile 5) = true) ∧ ((s.tileH 5).work = true) ∧ ((s.tileH 5).recovering = false) ∧ ((s.tileH 5).mode ≤ 1) ∧ (((s.tileH 5).mode = 1 ∨ 3 ≤ 1)) ∧ (((s.tileH 5).events.filter fun e => decide (max s.now 99 < e + 10 * cyclesPerMs)).length < 2))
    ∧ (∃ s : State, ((Instr.mismatch 5 (.item 3 1 none) 44 99).wf = true) ∧ (s.calm = true) ∧ (s.ready (pgTile 5) = true) ∧ ((s.tileH 5).work = true) ∧ ((s.tileH 5).recovering = false) ∧ ((s.tileH 5).mode ≤ 1) ∧ (¬((s.tileH 5).mode = 0 ∧ 1 < 3 ∧ (s.tileH 5).outvoted = some 1)) ∧ (2 ≤ ((s.tileH 5).events.filter fun e => decide (max s.now 99 < e + 10 * cyclesPerMs)).length))
    ∧ (∃ s : State, ((Instr.mismatch 5 (.item 3 0 (some true)) 44 99).wf = true) ∧ (s.calm = true) ∧ (s.ready (pgTile 5) = true) ∧ ((s.tileH 5).work = true) ∧ ((s.tileH 5).recovering = false) ∧ ((s.tileH 5).mode ≤ 1) ∧ (((s.tileH 5).events.filter fun e => decide (max s.now 99 < e + 10 * cyclesPerMs)).length < 2))
    ∧ (∃ s : State, ((Instr.mismatch 5 (.item 3 0 (some false)) 44 99).wf = true) ∧ (s.calm = true) ∧ (s.ready (pgTile 5) = true) ∧ ((s.tileH 5).work = true) ∧ ((s.tileH 5).recovering = false) ∧ ((s.tileH 5).mode ≤ 1) ∧ (((s.tileH 5).events.filter fun e => decide (max s.now 99 < e + 10 * cyclesPerMs)).length < 2))
    ∧ (∃ s : State, ((Instr.mismatch 5 (.delay true) 44 99).wf = true) ∧ (s.calm = true) ∧ (s.ready (pgTile 5) = true) ∧ ((s.tileH 5).work = true) ∧ ((s.tileH 5).recovering = false) ∧ ((s.tileH 5).mode ≤ 1))
    ∧ (∃ s : State, ((Instr.mismatch 5 (.delay false) 44 99).wf = true) ∧ (s.calm = true) ∧ (s.ready (pgTile 5) = true) ∧ ((s.tileH 5).work = true) ∧ ((s.tileH 5).recovering = false) ∧ ((s.tileH 5).mode ≤ 1)) :=
    ⟨⟨((State.reset.wr (pgTile 5) 8 1).setTile 5 { work := true, mode := 1, copies := [{ run := true }, {}, {}] }), by decide +kernel⟩,
    ⟨((State.reset.wr (pgTile 5) 8 1).setTile 5 { work := true, mode := 1, events := [5, 6], copies := [{ run := true }, {}, {}] }), by decide +kernel⟩,
    ⟨((State.reset.wr (pgTile 5) 8 1).setTile 5 { work := true, outvoted := some 0 }), by decide +kernel⟩,
    ⟨((State.reset.wr (pgTile 5) 8 1).setTile 5 { work := true, outvoted := some 0 }), by decide +kernel⟩,
    ⟨((State.reset.wr (pgTile 5) 8 1).setTile 5 { work := true }), by decide +kernel⟩,
    ⟨((State.reset.wr (pgTile 5) 8 1).setTile 5 { work := true }), by decide +kernel⟩⟩

theorem witness_TileCairns_5 :
    (∃ s : State, ((Instr.mismatch 5 (.delay false : Upset) 44 99).wf = true) ∧ (s.calm = true) ∧ ((s.ready (pgTile 5) = false ∨ 2 ≤ (s.tileH 5).mode ∨ (s.tileH 5).work = false ∨ (s.tileH 5).recovering = true)))
    ∧ (∃ s : State, ((Instr.restoreComplete 5 99).wf = true) ∧ (s.calm = true) ∧ ((s.tileH 5).recovering = true) ∧ ((s.tileH 5).copies.length = 3) ∧ ((s.tileH 5).halted.length = 3) ∧ (((s.tileH 5).undo.all fun e => s.usable e.addr 8) = true))
    ∧ (∃ s : State, ((Instr.restoreComplete 5 99).wf = true) ∧ (s.calm = true) ∧ ((s.tileH 5).recovering = true) ∧ ((s.tileH 5).undo = [(⟨0x1100280000, 7, 0, 0⟩ : UndoE), (⟨0x1100280000, 9, 0, 0⟩ : UndoE)]) ∧ ((⟨0x1100280000, 7, 0, 0⟩ : UndoE).addr % 8 = 0) ∧ ((⟨0x1100280000, 9, 0, 0⟩ : UndoE).addr = (⟨0x1100280000, 7, 0, 0⟩ : UndoE).addr) ∧ ((⟨0x1100280000, 7, 0, 0⟩ : UndoE).old < 2 ^ 64) ∧ (tileBase 5 ≤ (⟨0x1100280000, 7, 0, 0⟩ : UndoE).addr) ∧ ((⟨0x1100280000, 7, 0, 0⟩ : UndoE).addr + 8 ≤ tileBase (5 + 1)) ∧ (s.usable (⟨0x1100280000, 7, 0, 0⟩ : UndoE).addr 8 = true) ∧ (bit ((s.upTo 99).flipRegs (pgEccT 5)).1 31 = false))
    ∧ (∃ s : State, ((Instr.restoreComplete 5 99).wf = true) ∧ (s.calm = true) ∧ ((s.tileH 5).recovering = false))
    ∧ (∃ s : State, ((Instr.takeOver 5 99).wf = true) ∧ (s.calm = true) ∧ (s.retired (pgTile 5) = true) ∧ (s.getB (pgTile 5) 0x040 29 = false) ∧ ((s.tileH 5).work = true) ∧ (s.readySpare 5 = some 7) ∧ (s.workTile 5 = 5))
    ∧ (∃ s : State, ((Instr.takeOver 5 99).wf = true) ∧ (s.calm = true) ∧ ((s.retired (pgTile 5) = false ∨ s.getB (pgTile 5) 0x040 29 = true ∨ (s.tileH 5).work = false ∨ s.readySpare 5 = none))) :=
    ⟨⟨((State.reset.wr (pgTile 5) 8 1).setTile 5 { work := true, mode := 2 }), by decide +kernel⟩,
    ⟨((State.reset.wr (pgTile 5) 8 1).setTile 5 { work := true, recovering := true, shadow := { pc := 0x60 }, jrn := [⟨0, 5, 7, false, 2⟩] }), by decide +kernel⟩,
    ⟨(((State.reset.wr (pgTile 5) 8 1).wrMem (tileBase 5 + 0x70000) 8 1).setTile 5 { work := true, recovering := true, undo := [⟨0x1100280000, 7, 0, 0⟩, ⟨0x1100280000, 9, 0, 0⟩] }), by decide +kernel⟩,
    ⟨(State.reset.wr (pgTile 5) 8 1), by decide +kernel⟩,
    ⟨((((State.reset.wr (pgTile 5) 8 12).wr (pgTile 7) 8 1).wr (pgTile 7) 0x040 0x20000000).setTile 5 { work := true, shadow := { pc := 0x60 } }), by decide +kernel⟩,
    ⟨((State.reset.wr (pgTile 5) 8 12).setTile 5 { work := true }), by decide +kernel⟩⟩

theorem witness_TileCairns_6 :
    (∃ s : State, ((Instr.rotate .basecamp 5 7 99).wf = true) ∧ (s.calm = true) ∧ (s.powered (pgTile 5) = true) ∧ ((s.pageH (pgTile 5)).resetting = false) ∧ (s.routePage .basecamp (pgTile 5) = (pgTile 5)) ∧ ((7 / 8 = 5 / 8 ∧ 7 ≠ 5 ∧ s.ready (pgTile 7) = true ∧ s.getB (pgTile 7) 0x040 29 = true ∧ (s.tileH 5).work = true ∧ s.ready (pgTile 5) = true)))
    ∧ (∃ s : State, ((Instr.rotate .basecamp 5 7 99).wf = true) ∧ (s.calm = true) ∧ (s.powered (pgTile 5) = true) ∧ ((s.pageH (pgTile 5)).resetting = false) ∧ (s.routePage .basecamp (pgTile 5) = (pgTile 5)) ∧ (¬(7 / 8 = 5 / 8 ∧ 7 ≠ 5 ∧ s.ready (pgTile 7) = true ∧ s.getB (pgTile 7) 0x040 29 = true ∧ (s.tileH 5).work = true ∧ s.ready (pgTile 5) = true)))
    ∧ (∃ s : State, ((Instr.rotate (.debug : Writer) 5 7 99).wf = true) ∧ (s.calm = true) ∧ (s.powered (pgTile 5) = true) ∧ ((s.pageH (pgTile 5)).resetting = false) ∧ (s.mayWrite (.debug : Writer) (pgTile 5) .tile = true) ∧ ((.debug : Writer) ≠ .basecamp))
    ∧ (∃ s : State, ((Instr.update .basecamp 5 7 99).wf = true) ∧ (s.calm = true) ∧ (s.powered (pgTile 5) = true) ∧ ((s.pageH (pgTile 5)).resetting = false) ∧ (s.routePage .basecamp (pgTile 5) = (pgTile 5)) ∧ ((7 / 8 = 5 / 8 ∧ 7 ≠ 5 ∧ s.ready (pgTile 7) = true ∧ s.getB (pgTile 7) 0x040 29 = true ∧ (s.tileH 5).work = true ∧ s.ready (pgTile 5) = true)))
    ∧ (∃ s : State, ((Instr.update .basecamp 5 7 99).wf = true) ∧ (s.calm = true) ∧ (s.powered (pgTile 5) = true) ∧ ((s.pageH (pgTile 5)).resetting = false) ∧ (s.routePage .basecamp (pgTile 5) = (pgTile 5)) ∧ (¬(7 / 8 = 5 / 8 ∧ 7 ≠ 5 ∧ s.ready (pgTile 7) = true ∧ s.getB (pgTile 7) 0x040 29 = true ∧ (s.tileH 5).work = true ∧ s.ready (pgTile 5) = true)))
    ∧ (∃ s : State, ((Instr.update (.debug : Writer) 5 7 99).wf = true) ∧ (s.calm = true) ∧ (s.powered (pgTile 5) = true) ∧ ((s.pageH (pgTile 5)).resetting = false) ∧ (s.mayWrite (.debug : Writer) (pgTile 5) .tile = true) ∧ ((.debug : Writer) ≠ .basecamp)) :=
    ⟨⟨((((State.reset.wr (pgTile 5) 8 1).wr (pgTile 7) 8 1).wr (pgTile 7) 0x040 0x20000000).setTile 5 { work := true }), by decide +kernel⟩,
    ⟨((State.reset.wr (pgTile 5) 8 1).setTile 5 { work := true }), by decide +kernel⟩,
    ⟨((State.reset.wr (pgTile 5) 8 1).setTile 5 { work := true }), by decide +kernel⟩,
    ⟨((((State.reset.wr (pgTile 5) 8 1).wr (pgTile 7) 8 1).wr (pgTile 7) 0x040 0x20000000).setTile 5 { work := true }), by decide +kernel⟩,
    ⟨((State.reset.wr (pgTile 5) 8 1).setTile 5 { work := true }), by decide +kernel⟩,
    ⟨((State.reset.wr (pgTile 5) 8 1).setTile 5 { work := true }), by decide +kernel⟩⟩

theorem witness_TileCairns_7 :
    (∃ s : State, ((Instr.spareRefused 5 999999999).wf = true) ∧ (s.calm = true) ∧ ((s.tileH 5).spare = some (true, 7, 9)) ∧ (9 + 100 * cyclesPerMs ≤ 999999999))
    ∧ (∃ s : State, ((Instr.spareRefused 5 99).wf = true) ∧ (s.calm = true) ∧ (((s.tileH 5).spare.any fun x => decide (x.2.2 + 100 * cyclesPerMs ≤ 99)) = false)) :=
    ⟨⟨((State.reset.wr (pgTile 5) 8 1).setTile 5 { work := true, spare := some (true, 7, 9) }), by decide +kernel⟩,
    ⟨((State.reset.wr (pgTile 5) 8 1).setTile 5 { work := true, spare := some (true, 7, 9) }), by decide +kernel⟩⟩

theorem witness_TileModes_1 :
    (∃ s : State, ((Instr.modeHandOver .basecamp 5 0x80010040 99).wf = true) ∧ (s.calm = true) ∧ (s.powered (pgTile 5) = true) ∧ ((s.pageH (pgTile 5)).resetting = false) ∧ (s.mayWrite .basecamp (pgTile 5) .tile = true) ∧ (s.ready (pgTile 5) = true) ∧ ((s.tileH 5).work = true) ∧ (s.locked (pgTile 5) = false) ∧ (((match (.basecamp : Writer) with | .tile _ _ => true | _ => false) = false ∨ (if (s.tileH 5).fore then 3 else if bits 0x80010040 31 30 = 3 then (s.tileH 5).mode else bits 0x80010040 31 30) ≠ (s.tileH 5).mode)))
    ∧ (∃ s : State, ((Instr.modeHandOver .basecamp 5 0x80010040 99).wf = true) ∧ (s.calm = true) ∧ (s.powered (pgTile 5) = true) ∧ ((s.pageH (pgTile 5)).resetting = false) ∧ (s.mayWrite .basecamp (pgTile 5) .tile = true) ∧ (s.locked (pgTile 5) = false) ∧ ((s.ready (pgTile 5) = false ∨ (s.tileH 5).work = false ∨ ((match (.basecamp : Writer) with | .tile _ _ => true | _ => false) = true ∧ (if (s.tileH 5).fore then 3 else if bits 0x80010040 31 30 = 3 then (s.tileH 5).mode else bits 0x80010040 31 30) = (s.tileH 5).mode))))
    ∧ (∃ s : State, ((Instr.drainComplete 5 99).wf = true) ∧ (s.calm = true) ∧ (s.ready (pgTile 5) = true) ∧ ((s.tileH 5).handReq = some 3) ∧ ((s.tileH 5).drained = true) ∧ ((s.tileH 5).recovering = false) ∧ (2 ≤ (s.tileH 5).mode))
    ∧ (∃ s : State, ((Instr.drainComplete 5 99).wf = true) ∧ (s.calm = true) ∧ (s.ready (pgTile 5) = true) ∧ ((s.tileH 5).handReq = some 2) ∧ ((s.tileH 5).drained = true) ∧ ((s.tileH 5).recovering = false) ∧ (2 ≤ (s.tileH 5).mode) ∧ (((s.upTo 99).startCopies 5 2 (s.tileH 5).freeSize).1 = some ((((([0, 64, 128].foldl (fun (s : State) a => (((s.wrMem (tileBase 5 + a) 64 ((2 ^ 105 + 0x1FF * 2 ^ 80) * (1 + 2 ^ 128 + 2 ^ 256))).setTag (tileBase 5 + a) 7).setTag (tileBase 5 + a + 16) 7).setTag (tileBase 5 + a + 32) 7) (State.reset.wr (pgTile 5) 8 1)).setTile 5 { mode := 2, work := true, draining := true, handReq := some 2 }).startCopies 5 2 16).1.getD []) : List KCopy)))
    ∧ (∃ s : State, ((Instr.drainComplete 5 99).wf = true) ∧ (s.calm = true) ∧ (s.ready (pgTile 5) = true) ∧ ((s.tileH 5).handReq = some 2) ∧ (2 ≤ 2) ∧ ((s.tileH 5).drained = true) ∧ ((s.tileH 5).recovering = false) ∧ (2 ≤ (s.tileH 5).mode) ∧ (((s.upTo 99).startCopies 5 2 (if 2 = 1 then s.fld (pgTile 5) 0x048 22 16 else (s.tileH 5).freeSize)).1 = none))
    ∧ (∃ s : State, ((Instr.drainComplete 5 99).wf = true) ∧ (s.calm = true) ∧ (s.ready (pgTile 5) = true) ∧ ((s.tileH 5).handReq = some 3) ∧ ((s.tileH 5).drained = true) ∧ ((s.tileH 5).recovering = false) ∧ ((s.tileH 5).mode ≤ 1) ∧ ((s.tileH 5).halted.getD 0 false = false) ∧ ((s.tileH 5).ocb = []) ∧ ((s.tileH 5).outQ = [])) :=
    ⟨⟨((State.reset.wr (pgTile 5) 8 1).setTile 5 { work := true }), by decide +kernel⟩,
    ⟨(State.reset.wr (pgTile 5) 0xC 1), by decide +kernel⟩,
    ⟨((State.reset.wr (pgTile 5) 8 1).setTile 5 { copies := [{ run := true }, { run := true }, { run := true }], mode := 2, work := true, handReq := some 3, draining := true }), by decide +kernel⟩,
    ⟨(([0, 64, 128].foldl (fun (s : State) a => (((s.wrMem (tileBase 5 + a) 64 ((2 ^ 105 + 0x1FF * 2 ^ 80) * (1 + 2 ^ 128 + 2 ^ 256))).setTag (tileBase 5 + a) 7).setTag (tileBase 5 + a + 16) 7).setTag (tileBase 5 + a + 32) 7) (State.reset.wr (pgTile 5) 8 1)).setTile 5 { mode := 2, work := true, draining := true, handReq := some 2 }), by decide +kernel⟩,
    ⟨((State.reset.wr (pgTile 5) 8 1).setTile 5 { copies := [{ run := true }, { run := true }, { run := true }], mode := 2, work := true, handReq := some 2, draining := true }), by decide +kernel⟩,
    ⟨((State.reset.wr (pgTile 5) 8 1).setTile 5 { work := true, draining := true, handReq := some 3, bundles := 8 }), by decide +kernel⟩⟩

theorem witness_TileModes_2 :
    (∃ s : State, ((Instr.drainComplete 5 99).wf = true) ∧ (s.calm = true) ∧ (((s.tileH 5).handReq = none ∨ (s.tileH 5).drained = false ∨ (s.tileH 5).recovering = true ∨ s.ready (pgTile 5) = false ∨ ((s.tileH 5).mode ≤ 1 ∧ (s.tileH 5).halted.getD 0 false = true))))
    ∧ (∃ s : State, ((Instr.tileMboxIn .basecamp 5 77 false 99).wf = true) ∧ (s.calm = true) ∧ (s.powered (pgTile 5) = true) ∧ ((s.pageH (pgTile 5)).resetting = false) ∧ (s.mayWrite .basecamp (pgTile 5) .tile = true) ∧ (s.workTile 5 = 5) ∧ ((s.tileH 5).mbox.length < 16))
    ∧ (∃ s : State, ((Instr.tileMboxIn .basecamp 5 77 false 99).wf = true) ∧ (s.calm = true) ∧ (s.powered (pgTile 5) = true) ∧ ((s.pageH (pgTile 5)).resetting = false) ∧ (s.mayWrite .basecamp (pgTile 5) .tile = true) ∧ (s.workTile 5 = 5) ∧ (16 ≤ (s.tileH 5).mbox.length))
    ∧ (∃ s : State, ((Instr.tileMboxIn .basecamp 5 77 true 99).wf = true) ∧ (s.calm = true) ∧ (s.powered (pgTile 5) = true) ∧ ((s.pageH (pgTile 5)).resetting = false) ∧ (s.mayWrite .basecamp (pgTile 5) .tile = true))
    ∧ (∃ s : State, ((Instr.tileMboxOut .basecamp 5 99).wf = true) ∧ (s.calm = true) ∧ (s.powered (pgTile 5) = true) ∧ (s.routePage .basecamp (pgTile 5) = (pgTile 5)) ∧ ((s.tileH 5).mbox = ((7, false) : (Nat × Bool)) :: ([(8, true)] : List (Nat × Bool))) ∧ (([(8, true)] : List (Nat × Bool)).length < 32) ∧ (((7, false) : (Nat × Bool)).1 < 2 ^ 64))
    ∧ (∃ s : State, ((Instr.tileMboxOut .basecamp 5 99).wf = true) ∧ (s.calm = true) ∧ (s.routePage .basecamp (pgTile 5) = (pgTile 5)) ∧ (((s.tileH 5).mbox = [] ∨ s.powered (pgTile 5) = false))) :=
    ⟨⟨((State.reset.wr (pgTile 5) 8 1).setTile 5 { work := true, handReq := some 3 }), by decide +kernel⟩,
    ⟨(State.reset.wr (pgTile 5) 8 1), by decide +kernel⟩,
    ⟨((State.reset.wr (pgTile 5) 8 1).setTile 5 { mbox := List.replicate 16 (7, false) }), by decide +kernel⟩,
    ⟨(State.reset.wr (pgTile 5) 8 1), by decide +kernel⟩,
    ⟨((State.reset.wr (pgTile 5) 8 1).setTile 5 { mbox := [(7, false), (8, true)] }), by decide +kernel⟩,
    ⟨(State.reset.wr (pgTile 5) 8 1), by decide +kernel⟩⟩

theorem witness_TileModes_3 :
    (∃ s : State, ((Instr.tileRq1 .basecamp 5 99).wf = true) ∧ (s.calm = true) ∧ (s.powered (pgTile 5) = true) ∧ (s.routePage .basecamp (pgTile 5) = (pgTile 5)) ∧ ((s.tileH 5).rq = (⟨5, 6⟩ : RelEntry) :: ([⟨7, 8⟩] : List RelEntry)) ∧ (([⟨7, 8⟩] : List RelEntry).length < 64))
    ∧ (∃ s : State, ((Instr.tileRq1 .basecamp 5 99).wf = true) ∧ (s.calm = true) ∧ (s.routePage .basecamp (pgTile 5) = (pgTile 5)) ∧ (((s.tileH 5).rq = [] ∨ s.powered (pgTile 5) = false)))
    ∧ (∃ s : State, ((Instr.tileTag (.debug : Writer) 5 0x100 true 99).wf = true) ∧ (s.calm = true) ∧ (s.powered (pgTile 5) = true) ∧ ((s.pageH (pgTile 5)).resetting = false) ∧ (s.routePage (.debug : Writer) (pgTile 5) = (pgTile 5)) ∧ (fromDebugger (.debug : Writer) = true) ∧ (s.holdsWrites 5 = false))
    ∧ (∃ s : State, ((Instr.tileTag (.debug : Writer) 5 0x100 true 99).wf = true) ∧ (s.calm = true) ∧ (s.powered (pgTile 5) = true) ∧ ((s.pageH (pgTile 5)).resetting = false) ∧ (s.routePage (.debug : Writer) (pgTile 5) = (pgTile 5)) ∧ (fromDebugger (.debug : Writer) = true) ∧ (s.holdsWrites 5 = true))
    ∧ (∃ s : State, ((Instr.tileTag (.tile 3 0 : Writer) 5 0x100 true 99).wf = true) ∧ (s.calm = true) ∧ (s.powered (pgTile 5) = true) ∧ ((s.pageH (pgTile 5)).resetting = false) ∧ (s.mayWrite (.tile 3 0 : Writer) (pgTile 5) .tile = true) ∧ (fromDebugger (.tile 3 0 : Writer) = false))
    ∧ (∃ s : State, ((Instr.extReadReply 5 1 0 99).wf = true) ∧ (s.calm = true) ∧ ((s.tileH 5).copies.length = 3) ∧ (((s.tileH 5).copies.getD 1 {}).ext[0]? = some (⟨4, .ldw, 0x1000000010, 5, none, 0⟩ : ExtE)) ∧ (¬((s.tileH 5).recovering = true ∧ ¬((s.tileH 5).mode = 1 ∧ 1 = 2))) ∧ ((2 ≤ (s.tileH 5).mode ∨ ((s.tileH 5).mode = 1 ∧ 1 = 2))) ∧ ((⟨4, .ldw, 0x1000000010, 5, none, 0⟩ : ExtE).ans = none) ∧ ((⟨4, .ldw, 0x1000000010, 5, none, 0⟩ : ExtE).behind = 0) ∧ (stallsAt (s.upTo 99) 5 (⟨4, .ldw, 0x1000000010, 5, none, 0⟩ : ExtE).addr = false) ∧ (pageOfAddr (⟨4, .ldw, 0x1000000010, 5, none, 0⟩ : ExtE).addr = none)) :=
    ⟨⟨((State.reset.wr (pgTile 5) 8 1).setTile 5 { rq := [⟨5, 6⟩, ⟨7, 8⟩] }), by decide +kernel⟩,
    ⟨(State.reset.wr (pgTile 5) 8 1), by decide +kernel⟩,
    ⟨(State.reset.wr (pgTile 5) 8 1), by decide +kernel⟩,
    ⟨((State.reset.wr (pgTile 5) 8 1).setTile 5 { work := true }), by decide +kernel⟩,
    ⟨(State.reset.wr (pgTile 5) 8 1), by decide +kernel⟩,
    ⟨((State.reset.wr (pgTile 5) 8 1).setTile 5 { copies := [{ run := true }, { run := true, ext := [⟨4, .ldw, 0x1000000010, 5, none, 0⟩] }, {}], mode := 2, work := true }), by decide +kernel⟩⟩

theorem witness_TileModes_4 :
    (∃ s : State, ((Instr.extReadReply 5 1 0 99).wf = true) ∧ (s.calm = true) ∧ ((s.tileH 5).copies.length = 3) ∧ (((s.tileH 5).copies.getD 1 {}).ext[0]? = some (⟨4, .ldw, 0x1800100008, 5, none, 0⟩ : ExtE)) ∧ (¬((s.tileH 5).recovering = true ∧ ¬((s.tileH 5).mode = 1 ∧ 1 = 2))) ∧ ((2 ≤ (s.tileH 5).mode ∨ ((s.tileH 5).mode = 1 ∧ 1 = 2))) ∧ ((⟨4, .ldw, 0x1800100008, 5, none, 0⟩ : ExtE).ans = none) ∧ ((⟨4, .ldw, 0x1800100008, 5, none, 0⟩ : ExtE).behind = 0) ∧ (stallsAt (s.upTo 99) 5 (⟨4, .ldw, 0x1800100008, 5, none, 0⟩ : ExtE).addr = false) ∧ (pageOfAddr (⟨4, .ldw, 0x1800100008, 5, none, 0⟩ : ExtE).addr = some (0x100, 8)) ∧ (0x100 ≠ pgTile 5))
    ∧ (∃ s : State, ((Instr.extReadReply 5 0 0 99).wf = true) ∧ (s.calm = true) ∧ ((s.tileH 5).copies.length = 3) ∧ (((s.tileH 5).copies.getD 0 {}).ext[0]? = some (⟨4, .ldw, 0x1000000010, 5, some (77, false), 0⟩ : ExtE)) ∧ (¬((s.tileH 5).recovering = true ∧ ¬((s.tileH 5).mode = 1 ∧ 0 = 2))) ∧ ((s.tileH 5).replay = []) ∧ ((⟨4, .ldw, 0x1000000010, 5, some (77, false), 0⟩ : ExtE).ans = some ((77, false) : (Nat × Bool))))
    ∧ (∃ s : State, ((Instr.extReadReply 5 0 0 99).wf = true) ∧ (s.calm = true) ∧ ((s.tileH 5).copies.length = 3) ∧ (((s.tileH 5).copies.getD 0 {}).ext[0]? = some (⟨4, .ldw, 0x1000000010, 5, none, 0⟩ : ExtE)) ∧ (¬((s.tileH 5).recovering = true ∧ ¬((s.tileH 5).mode = 1 ∧ 0 = 2))) ∧ (¬(2 ≤ (s.tileH 5).mode ∨ ((s.tileH 5).mode = 1 ∧ 0 = 2))) ∧ ((s.tileH 5).replay = [⟨0, (⟨4, .ldw, 0x1000000010, 5, none, 0⟩ : ExtE).addr * 8 + loadCode (⟨4, .ldw, 0x1000000010, 5, none, 0⟩ : ExtE).op, 77, false, 0⟩]))
    ∧ (∃ s : State, ((Instr.extReadReply 5 0 0 99).wf = true) ∧ (s.calm = true) ∧ ((s.tileH 5).copies.length = 3) ∧ (((s.tileH 5).copies.getD 0 {}).ext[0]? = some (⟨4, .ldw, 0x1000000010, 5, none, 1⟩ : ExtE)) ∧ (¬((s.tileH 5).recovering = true ∧ ¬((s.tileH 5).mode = 1 ∧ 0 = 2))) ∧ (¬(2 ≤ (s.tileH 5).mode ∨ ((s.tileH 5).mode = 1 ∧ 0 = 2))) ∧ ((s.tileH 5).replay = []) ∧ ((⟨4, .ldw, 0x1000000010, 5, none, 1⟩ : ExtE).ans = none) ∧ (0 < (⟨4, .ldw, 0x1000000010, 5, none, 1⟩ : ExtE).behind) ∧ ((s.tileH 5).halted.getD 0 false = false) ∧ ((s.tileH 5).due = none) ∧ ((s.tileH 5).bound = none) ∧ (((s.tileH 5).copies.getD 0 {}).outstanding = false) ∧ ((s.tileH 5).recovering = false))
    ∧ (∃ s : State, ((Instr.extReadReply 5 1 0 99).wf = true) ∧ (s.calm = true) ∧ ((s.tileH 5).copies.length = 3) ∧ (((s.tileH 5).copies.getD 1 {}).ext[0]? = some (⟨4, .ldw, 0x1000800010, 5, none, 0⟩ : ExtE)) ∧ (¬((s.tileH 5).recovering = true ∧ ¬((s.tileH 5).mode = 1 ∧ 1 = 2))) ∧ ((s.tileH 5).replay = []) ∧ ((⟨4, .ldw, 0x1000800010, 5, none, 0⟩ : ExtE).ans = none) ∧ (((0 < (⟨4, .ldw, 0x1000800010, 5, none, 0⟩ : ExtE).behind ∧ (s.tileH 5).halted.getD 0 false = true) ∨ ((⟨4, .ldw, 0x1000800010, 5, none, 0⟩ : ExtE).behind = 0 ∧ stallsAt (s.upTo 99) 5 (⟨4, .ldw, 0x1000800010, 5, none, 0⟩ : ExtE).addr = true))))
    ∧ (∃ s : State, ((Instr.extReadReply 5 1 0 99).wf = true) ∧ (s.calm = true) ∧ ((((s.tileH 5).copies.getD 1 {}).ext[0]? = none ∨ ((s.tileH 5).recovering = true ∧ ¬((s.tileH 5).mode = 1 ∧ 1 = 2))))) :=
    ⟨⟨((State.reset.wr (pgTile 5) 8 1).setTile 5 { copies := [{ run := true }, { run := true, ext := [⟨4, .ldw, 0x1800100008, 5, none, 0⟩] }, {}], mode := 2, work := true }), by decide +kernel⟩,
    ⟨((State.reset.wr (pgTile 5) 8 1).setTile 5 { work := true, copies := [{ run := true, ext := [⟨4, .ldw, 0x1000000010, 5, some (77, false), 0⟩] }, {}, {}] }), by decide +kernel⟩,
    ⟨((State.reset.wr (pgTile 5) 8 1).setTile 5 { work := true, copies := [{ run := true, ext := [⟨4, .ldw, 0x1000000010, 5, none, 0⟩] }, {}, {}], replay := [⟨0, 0x1000000010 * 8 + 4, 77, false, 0⟩] }), by decide +kernel⟩,
    ⟨((State.reset.wr (pgTile 5) 8 1).setTile 5 { work := true, copies := [{ run := true, ext := [⟨4, .ldw, 0x1000000010, 5, none, 1⟩] }, {}, {}] }), by decide +kernel⟩,
    ⟨((State.reset.wr (pgTile 5) 8 1).setTile 5 { copies := [{ run := true }, { run := true, ext := [⟨4, .ldw, 0x1000800010, 5, none, 0⟩] }, {}], mode := 2, work := true }), by decide +kernel⟩,
    ⟨((State.reset.wr (pgTile 5) 8 1).setTile 5 { copies := [{ run := true }, { run := true }, { run := true }], mode := 2, work := true }), by decide +kernel⟩⟩

theorem witness_TileDebug_1 :
    (∃ s : State, ((Instr.halt (.debug : Writer) 5 1 99).wf = true) ∧ (s.calm = true) ∧ (s.powered (pgTile 5) = true) ∧ ((s.pageH (pgTile 5)).resetting = false) ∧ (s.routePage (.debug : Writer) (pgTile 5) = (pgTile 5)) ∧ (fromDebugger (.debug : Writer) = true) ∧ (((s.tileH 5).mode ≤ 1 → ((s.tileH 5).dbgT.filter (max s.now 99 < ·)).length < 16)) ∧ (¬((s.tileH 5).mode ≤ 1 ∧ (s.tileH 5).outvoted = some 0)))
    ∧ (∃ s : State, ((Instr.halt (.debug : Writer) 5 1 99).wf = true) ∧ (s.calm = true) ∧ (s.powered (pgTile 5) = true) ∧ ((s.pageH (pgTile 5)).resetting = false) ∧ (s.routePage (.debug : Writer) (pgTile 5) = (pgTile 5)) ∧ (fromDebugger (.debug : Writer) = true) ∧ (((s.tileH 5).mode ≤ 1 → ((s.tileH 5).dbgT.filter (max s.now 99 < ·)).length < 16)) ∧ ((s.tileH 5).mode ≤ 1) ∧ ((s.tileH 5).outvoted = some 0))
    ∧ (∃ s : State, ((Instr.resume (.debug : Writer) 5 1 99).wf = true) ∧ (s.calm = true) ∧ (s.powered (pgTile 5) = true) ∧ ((s.pageH (pgTile 5)).resetting = false) ∧ (s.routePage (.debug : Writer) (pgTile 5) = (pgTile 5)) ∧ (fromDebugger (.debug : Writer) = true) ∧ (((s.tileH 5).mode ≤ 1 → ((s.tileH 5).dbgT.filter (max s.now 99 < ·)).length < 16)))
    ∧ (∃ s : State, ((Instr.step (.debug : Writer) 5 1 1 99).wf = true) ∧ (s.calm = true) ∧ (s.powered (pgTile 5) = true) ∧ ((s.pageH (pgTile 5)).resetting = false) ∧ (s.routePage (.debug : Writer) (pgTile 5) = (pgTile 5)) ∧ (fromDebugger (.debug : Writer) = true) ∧ (((s.tileH 5).mode ≤ 1 → ((s.tileH 5).dbgT.filter (max s.now 99 < ·)).length < 16)) ∧ ((s.tileH 5).copies.length = 3) ∧ (((s.tileH 5).copies.getD (if (s.tileH 5).mode ≤ 1 then 0 else if 1 = 3 then 0 else 1) {}).run = false) ∧ (2 ≤ (s.tileH 5).mode))
    ∧ (∃ s : State, ((Instr.step (.debug : Writer) 5 1 2 99).wf = true) ∧ (s.calm = true) ∧ (s.powered (pgTile 5) = true) ∧ ((s.pageH (pgTile 5)).resetting = false) ∧ (s.routePage (.debug : Writer) (pgTile 5) = (pgTile 5)) ∧ (fromDebugger (.debug : Writer) = true) ∧ (((s.tileH 5).mode ≤ 1 → ((s.tileH 5).dbgT.filter (max s.now 99 < ·)).length < 16)) ∧ (2 ≤ (s.tileH 5).mode) ∧ ((stepGo 5 (if (s.tileH 5).mode ≤ 1 then 0 else if 1 = 3 then 0 else 1) (clampTo 1 65535 (2 % 2 ^ 24)) ((s.upTo 99).setTile 5 { (s.tileH 5) with halted := setAt (s.tileH 5).halted (if (s.tileH 5).mode ≤ 1 then 0 else if 1 = 3 then 0 else 1) false, copies := setAt (s.tileH 5).copies (if (s.tileH 5).mode ≤ 1 then 0 else if 1 = 3 then 0 else 1) { ((s.tileH 5).copies.getD (if (s.tileH 5).mode ≤ 1 then 0 else if 1 = 3 then 0 else 1) {}) with steps := some (clampTo 1 65535 (2 % 2 ^ 24)) } })).calm = true))
    ∧ (∃ s : State, ((Instr.step (.debug : Writer) 5 1 2 99).wf = true) ∧ (s.calm = true) ∧ (s.powered (pgTile 5) = true) ∧ ((s.pageH (pgTile 5)).resetting = false) ∧ (s.routePage (.debug : Writer) (pgTile 5) = (pgTile 5)) ∧ (fromDebugger (.debug : Writer) = true) ∧ (((s.tileH 5).mode ≤ 1 → ((s.tileH 5).dbgT.filter (max s.now 99 < ·)).length < 16)) ∧ ((s.tileH 5).mode ≤ 1) ∧ (((s.tileH 5).copies.getD 0 {}).run = false) ∧ ((s.tileH 5).copies.length = 3)) :=
    ⟨⟨((State.reset.wr (pgTile 5) 8 1).setTile 5 { copies := [{ run := true }, { run := true }, { run := true }], mode := 2, work := true }), by decide +kernel⟩,
    ⟨((State.reset.wr (pgTile 5) 8 1).setTile 5 { work := true, outvoted := some 0 }), by decide +kernel⟩,
    ⟨((State.reset.wr (pgTile 5) 8 1).setTile 5 { copies := [{ run := true }, { run := true }, { run := true }], mode := 2, work := true, halted := [false, true, false] }), by decide +kernel⟩,
    ⟨((State.reset.wr (pgTile 5) 8 1).setTile 5 { mode := 2, work := true }), by decide +kernel⟩,
    ⟨((State.reset.wr (pgTile 5) 8 1).setTile 5 { copies := [{ run := true }, { run := true }, { run := true }], mode := 2, work := true }), by decide +kernel⟩,
    ⟨((State.reset.wr (pgTile 5) 8 1).setTile 5 { work := true }), by decide +kernel⟩⟩

theorem witness_TileDebug_2 :
    (∃ s : State, ((Instr.debugRead (.debug : Writer) 5 1 1 1 99).wf = true) ∧ (s.calm = true) ∧ (s.powered (pgTile 5) = true) ∧ ((s.pageH (pgTile 5)).resetting = false) ∧ (s.routePage (.debug : Writer) (pgTile 5) = (pgTile 5)) ∧ (fromDebugger (.debug : Writer) = true) ∧ (((s.tileH 5).mode ≤ 1 → ((s.tileH 5).dbgT.filter (max s.now 99 < ·)).length < 16)) ∧ (¬((s.tileH 5).mode ≤ 1 ∧ (s.tileH 5).outvoted = some 0)) ∧ (1 ≤ 2))
    ∧ (∃ s : State, ((Instr.debugRead (.debug : Writer) 5 1 3 1 99).wf = true) ∧ (s.calm = true) ∧ (s.powered (pgTile 5) = true) ∧ ((s.pageH (pgTile 5)).resetting = false) ∧ (s.routePage (.debug : Writer) (pgTile 5) = (pgTile 5)) ∧ (fromDebugger (.debug : Writer) = true) ∧ (((s.tileH 5).mode ≤ 1 → ((s.tileH 5).dbgT.filter (max s.now 99 < ·)).length < 16)) ∧ (¬((s.tileH 5).mode ≤ 1 ∧ (s.tileH 5).outvoted = some 0)) ∧ (3 = 3))
    ∧ (∃ s : State, ((Instr.debugRead (.debug : Writer) 5 1 1 1 99).wf = true) ∧ (s.calm = true) ∧ (s.powered (pgTile 5) = true) ∧ ((s.pageH (pgTile 5)).resetting = false) ∧ (s.routePage (.debug : Writer) (pgTile 5) = (pgTile 5)) ∧ (fromDebugger (.debug : Writer) = true) ∧ (((s.tileH 5).mode ≤ 1 → ((s.tileH 5).dbgT.filter (max s.now 99 < ·)).length < 16)) ∧ ((s.tileH 5).mode ≤ 1) ∧ ((s.tileH 5).outvoted = some 0))
    ∧ (∃ s : State, ((Instr.debugWrite (.debug : Writer) 5 1 2 0 99).wf = true) ∧ (s.calm = true) ∧ (s.powered (pgTile 5) = true) ∧ ((s.pageH (pgTile 5)).resetting = false) ∧ (s.routePage (.debug : Writer) (pgTile 5) = (pgTile 5)) ∧ (fromDebugger (.debug : Writer) = true) ∧ (((s.tileH 5).mode ≤ 1 → ((s.tileH 5).dbgT.filter (max s.now 99 < ·)).length < 16)) ∧ (2 ≤ 2) ∧ ((s.tileH 5).copies.length = 3))
    ∧ (∃ s : State, ((Instr.debugWrite (.debug : Writer) 5 1 3 1 99).wf = true) ∧ (s.calm = true) ∧ (s.powered (pgTile 5) = true) ∧ ((s.pageH (pgTile 5)).resetting = false) ∧ (s.routePage (.debug : Writer) (pgTile 5) = (pgTile 5)) ∧ (fromDebugger (.debug : Writer) = true) ∧ (((s.tileH 5).mode ≤ 1 → ((s.tileH 5).dbgT.filter (max s.now 99 < ·)).length < 16)) ∧ (3 = 3) ∧ (s.usable (tileBase 5 + 1 % 65536 * 8) 8 = true) ∧ (bit ((s.upTo 99).flipRegs (pgEccT 5)).1 31 = false))
    ∧ (∃ s : State, ((Instr.halt (.debug : Writer) 5 1 99).wf = true) ∧ (s.calm = true) ∧ (s.powered (pgTile 5) = true) ∧ ((s.pageH (pgTile 5)).resetting = false) ∧ (s.routePage (.debug : Writer) (pgTile 5) = (pgTile 5)) ∧ (fromDebugger (.debug : Writer) = true) ∧ ((s.tileH 5).mode ≤ 1) ∧ (16 ≤ ((s.tileH 5).dbgT.filter (max s.now 99 < ·)).length)) :=
    ⟨⟨((State.reset.wr (pgTile 5) 8 1).setTile 5 { copies := [{ run := true }, { run := true }, { run := true }], mode := 2, work := true }), by decide +kernel⟩,
    ⟨(((State.reset.wr (pgTile 5) 8 1).setTile 5 { copies := [{ run := true }, { run := true }, { run := true }], mode := 2, work := true }).wrMem (tileBase 5 + 8) 8 77), by decide +kernel⟩,
    ⟨((State.reset.wr (pgTile 5) 8 1).setTile 5 { work := true, outvoted := some 0 }), by decide +kernel⟩,
    ⟨(((State.reset.wr (pgTile 5) 8 1).setTile 5 { copies := [{ run := true }, { run := true }, { run := true }], mode := 2, work := true }).wr (pgTile 5) 0x0C8 0x1234), by decide +kernel⟩,
    ⟨((((State.reset.wr (pgTile 5) 8 1).setTile 5 { copies := [{ run := true }, { run := true }, { run := true }], mode := 2, work := true }).wrMem (tileBase 5 + 0x70000) 8 1).wr (pgTile 5) 0x0C8 0x1234), by decide +kernel⟩,
    ⟨((State.reset.wr (pgTile 5) 8 1).setTile 5 { work := true, dbgT := List.replicate 16 100 }), by decide +kernel⟩⟩

theorem witness_TileDebug_3 :
    (∃ s : State, ((Instr.resume (.debug : Writer) 5 1 99).wf = true) ∧ (s.calm = true) ∧ (s.powered (pgTile 5) = true) ∧ ((s.pageH (pgTile 5)).resetting = false) ∧ (s.routePage (.debug : Writer) (pgTile 5) = (pgTile 5)) ∧ (fromDebugger (.debug : Writer) = true) ∧ ((s.tileH 5).mode ≤ 1) ∧ (16 ≤ ((s.tileH 5).dbgT.filter (max s.now 99 < ·)).length))
    ∧ (∃ s : State, ((Instr.step (.debug : Writer) 5 1 2 99).wf = true) ∧ (s.calm = true) ∧ (s.powered (pgTile 5) = true) ∧ ((s.pageH (pgTile 5)).resetting = false) ∧ (s.routePage (.debug : Writer) (pgTile 5) = (pgTile 5)) ∧ (fromDebugger (.debug : Writer) = true) ∧ ((s.tileH 5).mode ≤ 1) ∧ (16 ≤ ((s.tileH 5).dbgT.filter (max s.now 99 < ·)).length))
    ∧ (∃ s : State, ((Instr.debugRead (.debug : Writer) 5 1 1 1 99).wf = true) ∧ (s.calm = true) ∧ (s.powered (pgTile 5) = true) ∧ ((s.pageH (pgTile 5)).resetting = false) ∧ (s.routePage (.debug : Writer) (pgTile 5) = (pgTile 5)) ∧ (fromDebugger (.debug : Writer) = true) ∧ ((s.tileH 5).mode ≤ 1) ∧ (16 ≤ ((s.tileH 5).dbgT.filter (max s.now 99 < ·)).length))
    ∧ (∃ s : State, ((Instr.debugWrite (.debug : Writer) 5 1 2 0 99).wf = true) ∧ (s.calm = true) ∧ (s.powered (pgTile 5) = true) ∧ ((s.pageH (pgTile 5)).resetting = false) ∧ (s.routePage (.debug : Writer) (pgTile 5) = (pgTile 5)) ∧ (fromDebugger (.debug : Writer) = true) ∧ ((s.tileH 5).mode ≤ 1) ∧ (16 ≤ ((s.tileH 5).dbgT.filter (max s.now 99 < ·)).length))
    ∧ (∃ s : State, ((Instr.halt (.tile 3 0 : Writer) 5 1 99).wf = true) ∧ (s.calm = true) ∧ (s.powered (pgTile 5) = true) ∧ ((s.pageH (pgTile 5)).resetting = false) ∧ (s.mayWrite (.tile 3 0 : Writer) (pgTile 5) .tile = true) ∧ (fromDebugger (.tile 3 0 : Writer) = false))
    ∧ (∃ s : State, ((Instr.resume (.tile 3 0 : Writer) 5 1 99).wf = true) ∧ (s.calm = true) ∧ (s.powered (pgTile 5) = true) ∧ ((s.pageH (pgTile 5)).resetting = false) ∧ (s.mayWrite (.tile 3 0 : Writer) (pgTile 5) .tile = true) ∧ (fromDebugger (.tile 3 0 : Writer) = false)) :=
    ⟨⟨((State.reset.wr (pgTile 5) 8 1).setTile 5 { work := true, dbgT := List.replicate 16 100 }), by decide +kernel⟩,
    ⟨((State.reset.wr (pgTile 5) 8 1).setTile 5 { work := true, dbgT := List.replicate 16 100 }), by decide +kernel⟩,
    ⟨((State.reset.wr (pgTile 5) 8 1).setTile 5 { work := true, dbgT := List.replicate 16 100 }), by decide +kernel⟩,
    ⟨((State.reset.wr (pgTile 5) 8 1).setTile 5 { work := true, dbgT := List.replicate 16 100 }), by decide +kernel⟩,
    ⟨((State.reset.wr (pgTile 5) 8 1).setTile 5 { copies := [{ run := true }, { run := true }, { run := true }], mode := 2, work := true }), by decide +kernel⟩,
    ⟨((State.reset.wr (pgTile 5) 8 1).setTile 5 { copies := [{ run := true }, { run := true }, { run := true }], mode := 2, work := true }), by decide +kernel⟩⟩

theorem witness_TileDebug_4 :
    (∃ s : State, ((Instr.step (.tile 3 0 : Writer) 5 1 2 99).wf = true) ∧ (s.calm = true) ∧ (s.powered (pgTile 5) = true) ∧ ((s.pageH (pgTile 5)).resetting = false) ∧ (s.mayWrite (.tile 3 0 : Writer) (pgTile 5) .tile = true) ∧ (fromDebugger (.tile 3 0 : Writer) = false))
    ∧ (∃ s : State, ((Instr.debugRead (.tile 3 0 : Writer) 5 1 1 1 99).wf = true) ∧ (s.calm = true) ∧ (s.powered (pgTile 5) = true) ∧ ((s.pageH (pgTile 5)).resetting = false) ∧ (s.mayWrite (.tile 3 0 : Writer) (pgTile 5) .tile = true) ∧ (fromDebugger (.tile 3 0 : Writer) = false))
    ∧ (∃ s : State, ((Instr.debugWrite (.tile 3 0 : Writer) 5 1 2 0 99).wf = true) ∧ (s.calm = true) ∧ (s.powered (pgTile 5) = true) ∧ ((s.pageH (pgTile 5)).resetting = false) ∧ (s.mayWrite (.tile 3 0 : Writer) (pgTile 5) .tile = true) ∧ (fromDebugger (.tile 3 0 : Writer) = false)) :=
    ⟨⟨((State.reset.wr (pgTile 5) 8 1).setTile 5 { copies := [{ run := true }, { run := true }, { run := true }], mode := 2, work := true }), by decide +kernel⟩,
    ⟨((State.reset.wr (pgTile 5) 8 1).setTile 5 { copies := [{ run := true }, { run := true }, { run := true }], mode := 2, work := true }), by decide +kernel⟩,
    ⟨((State.reset.wr (pgTile 5) 8 1).setTile 5 { copies := [{ run := true }, { run := true }, { run := true }], mode := 2, work := true }), by decide +kernel⟩⟩

theorem witness_KolotteStack_1 :
    (∃ (s : State) (k : KCopy), ((Instr.nop issue).wf = true) ∧ (s.calm = true) ∧ (s.solo issue (.nop) = true) ∧ (s.copyOf issue = k))
    ∧ (∃ (s : State) (k : KCopy), ((Instr.drop issue).wf = true) ∧ (s.calm = true) ∧ (s.solo issue (.stk .drop) = true) ∧ (s.copyOf issue = k) ∧ (k.entry (k.top - 1) = (7, false)) ∧ (7 < 2 ^ 32))
    ∧ (∃ (s : State) (k : KCopy), ((Instr.dup issue).wf = true) ∧ (s.calm = true) ∧ (s.solo issue (.stk .dup) = true) ∧ (s.copyOf issue = k) ∧ (k.entry (k.top - 1) = (7, false)) ∧ (7 < 2 ^ 32))
    ∧ (∃ (s : State) (k : KCopy), ((Instr.swap issue).wf = true) ∧ (s.calm = true) ∧ (s.solo issue (.stk .swap) = true) ∧ (s.copyOf issue = k) ∧ (k.entry (k.top - 2) = (7, false)) ∧ (7 < 2 ^ 32) ∧ (k.entry (k.top - 1) = (3, false)) ∧ (3 < 2 ^ 32))
    ∧ (∃ (s : State) (k : KCopy), ((Instr.over issue).wf = true) ∧ (s.calm = true) ∧ (s.solo issue (.stk .over) = true) ∧ (s.copyOf issue = k) ∧ (k.entry (k.top - 2) = (7, false)) ∧ (7 < 2 ^ 32) ∧ (k.entry (k.top - 1) = (3, false)) ∧ (3 < 2 ^ 32))
    ∧ (∃ (s : State) (k : KCopy), ((Instr.rot issue).wf = true) ∧ (s.calm = true) ∧ (s.solo issue (.stk .rot) = true) ∧ (s.copyOf issue = k) ∧ (k.entry (k.top - 3) = (7, false)) ∧ (7 < 2 ^ 32) ∧ (k.entry (k.top - 2) = (3, false)) ∧ (3 < 2 ^ 32) ∧ (k.entry (k.top - 1) = (5, false)) ∧ (5 < 2 ^ 32)) :=
    ⟨⟨(inTile (kcopy 2 [(0, 11, false), (1, 11, false)])), (kcopy 2 [(0, 11, false), (1, 11, false)]), by decide +kernel⟩,
    ⟨(inTile (kcopy 3 [(0, 11, false), (1, 11, false), (2, 7, false)])), (kcopy 3 [(0, 11, false), (1, 11, false), (2, 7, false)]), by decide +kernel⟩,
    ⟨(inTile (kcopy 3 [(0, 11, false), (1, 11, false), (2, 7, false)])), (kcopy 3 [(0, 11, false), (1, 11, false), (2, 7, false)]), by decide +kernel⟩,
    ⟨(inTile (kcopy 4 [(0, 11, false), (1, 11, false), (2, 7, false), (3, 3, false)])), (kcopy 4 [(0, 11, false), (1, 11, false), (2, 7, false), (3, 3, false)]), by decide +kernel⟩,
    ⟨(inTile (kcopy 4 [(0, 11, false), (1, 11, false), (2, 7, false), (3, 3, false)])), (kcopy 4 [(0, 11, false), (1, 11, false), (2, 7, false), (3, 3, false)]), by decide +kernel⟩,
    ⟨(inTile (kcopy 5 [(0, 11, false), (1, 11, false), (2, 7, false), (3, 3, false), (4, 5, false)])), (kcopy 5 [(0, 11, false), (1, 11, false), (2, 7, false), (3, 3, false), (4, 5, false)]), by decide +kernel⟩⟩

theorem witness_KolotteStack_2 :
    (∃ (s : State) (k : KCopy), ((Instr.dup2 issue).wf = true) ∧ (s.calm = true) ∧ (s.solo issue (.stk .dup2) = true) ∧ (s.copyOf issue = k) ∧ (k.entry (k.top - 2) = (7, false)) ∧ (7 < 2 ^ 32) ∧ (k.entry (k.top - 1) = (3, false)) ∧ (3 < 2 ^ 32))
    ∧ (∃ (s : State) (k : KCopy), ((Instr.drop2 issue).wf = true) ∧ (s.calm = true) ∧ (s.solo issue (.stk .drop2) = true) ∧ (s.copyOf issue = k) ∧ (k.entry (k.top - 2) = (7, false)) ∧ (7 < 2 ^ 32) ∧ (k.entry (k.top - 1) = (3, false)) ∧ (3 < 2 ^ 32))
    ∧ (∃ (s : State) (k : KCopy), ((Instr.swap2 issue).wf = true) ∧ (s.calm = true) ∧ (s.solo issue (.stk .swap2) = true) ∧ (s.copyOf issue = k) ∧ (k.entry (k.top - 4) = (7, false)) ∧ (7 < 2 ^ 32) ∧ (k.entry (k.top - 3) = (3, false)) ∧ (3 < 2 ^ 32) ∧ (k.entry (k.top - 2) = (5, false)) ∧ (5 < 2 ^ 32) ∧ (k.entry (k.top - 1) = (9, false)) ∧ (9 < 2 ^ 32))
    ∧ (∃ (s : State) (k : KCopy), ((Instr.nip issue).wf = true) ∧ (s.calm = true) ∧ (s.solo issue (.stk .nip) = true) ∧ (s.copyOf issue = k) ∧ (k.entry (k.top - 2) = (7, false)) ∧ (7 < 2 ^ 32) ∧ (k.entry (k.top - 1) = (3, false)) ∧ (3 < 2 ^ 32))
    ∧ (∃ (s : State) (k : KCopy), ((Instr.pick issue 1).wf = true) ∧ (s.calm = true) ∧ (s.solo issue (.pick 1) = true) ∧ (s.copyOf issue = k) ∧ (k.entry (k.top - 1 - 1) = (11, true)))
    ∧ (∃ (s : State) (k : KCopy), ((Instr.dropn issue 1).wf = true) ∧ (s.calm = true) ∧ (s.solo issue (.dropn 1) = true) ∧ (s.copyOf issue = k)) :=
    ⟨⟨(inTile (kcopy 4 [(0, 11, false), (1, 11, false), (2, 7, false), (3, 3, false)])), (kcopy 4 [(0, 11, false), (1, 11, false), (2, 7, false), (3, 3, false)]), by decide +kernel⟩,
    ⟨(inTile (kcopy 4 [(0, 11, false), (1, 11, false), (2, 7, false), (3, 3, false)])), (kcopy 4 [(0, 11, false), (1, 11, false), (2, 7, false), (3, 3, false)]), by decide +kernel⟩,
    ⟨(inTile (kcopy 6 [(0, 11, false), (1, 11, false), (2, 7, false), (3, 3, false), (4, 5, false), (5, 9, false)])), (kcopy 6 [(0, 11, false), (1, 11, false), (2, 7, false), (3, 3, false), (4, 5, false), (5, 9, false)]), by decide +kernel⟩,
    ⟨(inTile (kcopy 4 [(0, 11, false), (1, 11, false), (2, 7, false), (3, 3, false)])), (kcopy 4 [(0, 11, false), (1, 11, false), (2, 7, false), (3, 3, false)]), by decide +kernel⟩,
    ⟨(inTile (kcopy 3 [(0, 1, false), (1, 11, true), (2, 4, false)])), (kcopy 3 [(0, 1, false), (1, 11, true), (2, 4, false)]), by decide +kernel⟩,
    ⟨(inTile (kcopy 3 [(0, 1, false), (1, 11, true), (2, 4, false)])), (kcopy 3 [(0, 1, false), (1, 11, true), (2, 4, false)]), by decide +kernel⟩⟩

theorem witness_KolotteStack_3 :
    (∃ (s : State) (k : KCopy), ((Instr.loc issue 1).wf = true) ∧ (s.calm = true) ∧ (s.solo issue (.loc 1) = true) ∧ (s.copyOf issue = k) ∧ (k.entry (k.base + 1) = (11, true)))
    ∧ (∃ (s : State) (k : KCopy), ((Instr.setl issue 1).wf = true) ∧ (s.calm = true) ∧ (s.solo issue (.setl 1) = true) ∧ (s.copyOf issue = k) ∧ (k.entry (k.top - 1) = (7, false)) ∧ (7 < 2 ^ 32))
    ∧ (∃ (s : State) (k : KCopy), ((Instr.lit issue 15).wf = true) ∧ (s.calm = true) ∧ (s.solo issue (.lit 15) = true) ∧ (s.copyOf issue = k) ∧ (issue.lits = []))
    ∧ (∃ s : State, ((Instr.lit ({ tile := 5, lits := [0xFE8] } : Issue) 0).wf = true) ∧ (s.calm = true) ∧ (s.solo ({ tile := 5, lits := [0xFE8] } : Issue) (.lit 0) = true) ∧ (s.copyOf ({ tile := 5, lits := [0xFE8] } : Issue) = (kcopy 2 [(0, 11, false), (1, 11, false)])) ∧ (({ tile := 5, lits := [0xFE8] } : Issue).lits = [0xFE8]))
    ∧ (∃ s : State, ((Instr.lit ({ tile := 5, lits := [0xFE8, 0x123] } : Issue) 0).wf = true) ∧ (s.calm = true) ∧ (s.solo ({ tile := 5, lits := [0xFE8, 0x123] } : Issue) (.lit 0) = true) ∧ (s.copyOf ({ tile := 5, lits := [0xFE8, 0x123] } : Issue) = (kcopy 2 [(0, 11, false), (1, 11, false)])) ∧ (({ tile := 5, lits := [0xFE8, 0x123] } : Issue).lits = [0xFE8, 0x123]))
    ∧ (∃ s : State, ((Instr.lit ({ tile := 5, lits := [1, 0x234, 0x567] } : Issue) 8).wf = true) ∧ (s.calm = true) ∧ (s.solo ({ tile := 5, lits := [1, 0x234, 0x567] } : Issue) (.lit 8) = true) ∧ (s.copyOf ({ tile := 5, lits := [1, 0x234, 0x567] } : Issue) = (kcopy 2 [(0, 11, false), (1, 11, false)])) ∧ (({ tile := 5, lits := [1, 0x234, 0x567] } : Issue).lits = [1, 0x234, 0x567])) :=
    ⟨⟨(inTile (kcopy 3 [(0, 1, false), (1, 11, true), (2, 4, false)])), (kcopy 3 [(0, 1, false), (1, 11, true), (2, 4, false)]), by decide +kernel⟩,
    ⟨(inTile (kcopy 3 [(0, 11, false), (1, 11, false), (2, 7, false)])), (kcopy 3 [(0, 11, false), (1, 11, false), (2, 7, false)]), by decide +kernel⟩,
    ⟨(inTile (kcopy 2 [(0, 11, false), (1, 11, false)])), (kcopy 2 [(0, 11, false), (1, 11, false)]), by decide +kernel⟩,
    ⟨(inTile (kcopy 2 [(0, 11, false), (1, 11, false)])), by decide +kernel⟩,
    ⟨(inTile (kcopy 2 [(0, 11, false), (1, 11, false)])), by decide +kernel⟩,
    ⟨(inTile (kcopy 2 [(0, 11, false), (1, 11, false)])), by decide +kernel⟩⟩

theorem witness_KolotteArith_1 :
    (∃ (s : State) (k : KCopy), ((Instr.add issue).wf = true) ∧ (s.calm = true) ∧ (s.solo issue (.bin .add) = true) ∧ (s.copyOf issue = k) ∧ (k.entry (k.top - 2) = (4026531845, false)) ∧ (4026531845 < 2 ^ 32) ∧ (k.entry (k.top - 1) = (7, false)) ∧ (7 < 2 ^ 32))
    ∧ (∃ (s : State) (k : KCopy), ((Instr.sub issue).wf = true) ∧ (s.calm = true) ∧ (s.solo issue (.bin .sub) = true) ∧ (s.copyOf issue = k) ∧ (k.entry (k.top - 2) = (4026531845, false)) ∧ (4026531845 < 2 ^ 32) ∧ (k.entry (k.top - 1) = (7, false)) ∧ (7 < 2 ^ 32))
    ∧ (∃ (s : State) (k : KCopy), ((Instr.and issue).wf = true) ∧ (s.calm = true) ∧ (s.solo issue (.bin .and) = true) ∧ (s.copyOf issue = k) ∧ (k.entry (k.top - 2) = (4026531845, false)) ∧ (4026531845 < 2 ^ 32) ∧ (k.entry (k.top - 1) = (7, false)) ∧ (7 < 2 ^ 32))
    ∧ (∃ (s : State) (k : KCopy), ((Instr.or issue).wf = true) ∧ (s.calm = true) ∧ (s.solo issue (.bin .or) = true) ∧ (s.copyOf issue = k) ∧ (k.entry (k.top - 2) = (4026531845, false)) ∧ (4026531845 < 2 ^ 32) ∧ (k.entry (k.top - 1) = (7, false)) ∧ (7 < 2 ^ 32))
    ∧ (∃ (s : State) (k : KCopy), ((Instr.xor issue).wf = true) ∧ (s.calm = true) ∧ (s.solo issue (.bin .xor) = true) ∧ (s.copyOf issue = k) ∧ (k.entry (k.top - 2) = (4026531845, false)) ∧ (4026531845 < 2 ^ 32) ∧ (k.entry (k.top - 1) = (7, false)) ∧ (7 < 2 ^ 32))
    ∧ (∃ (s : State) (k : KCopy), ((Instr.andn issue).wf = true) ∧ (s.calm = true) ∧ (s.solo issue (.bin .andn) = true) ∧ (s.copyOf issue = k) ∧ (k.entry (k.top - 2) = (4026531845, false)) ∧ (4026531845 < 2 ^ 32) ∧ (k.entry (k.top - 1) = (7, false)) ∧ (7 < 2 ^ 32)) :=
    ⟨⟨(inTile (kcopy 4 [(0, 11, false), (1, 11, false), (2, 4026531845, false), (3, 7, false)])), (kcopy 4 [(0, 11, false), (1, 11, false), (2, 4026531845, false), (3, 7, false)]), by decide +kernel⟩,
    ⟨(inTile (kcopy 4 [(0, 11, false), (1, 11, false), (2, 4026531845, false), (3, 7, false)])), (kcopy 4 [(0, 11, false), (1, 11, false), (2, 4026531845, false), (3, 7, false)]), by decide +kernel⟩,
    ⟨(inTile (kcopy 4 [(0, 11, false), (1, 11, false), (2, 4026531845, false), (3, 7, false)])), (kcopy 4 [(0, 11, false), (1, 11, false), (2, 4026531845, false), (3, 7, false)]), by decide +kernel⟩,
    ⟨(inTile (kcopy 4 [(0, 11, false), (1, 11, false), (2, 4026531845, false), (3, 7, false)])), (kcopy 4 [(0, 11, false), (1, 11, false), (2, 4026531845, false), (3, 7, false)]), by decide +kernel⟩,
    ⟨(inTile (kcopy 4 [(0, 11, false), (1, 11, false), (2, 4026531845, false), (3, 7, false)])), (kcopy 4 [(0, 11, false), (1, 11, false), (2, 4026531845, false), (3, 7, false)]), by decide +kernel⟩,
    ⟨(inTile (kcopy 4 [(0, 11, false), (1, 11, false), (2, 4026531845, false), (3, 7, false)])), (kcopy 4 [(0, 11, false), (1, 11, false), (2, 4026531845, false), (3, 7, false)]), by decide +kernel⟩⟩

theorem witness_KolotteArith_2 :
    (∃ (s : State) (k : KCopy), ((Instr.shl issue).wf = true) ∧ (s.calm = true) ∧ (s.solo issue (.bin .shl) = true) ∧ (s.copyOf issue = k) ∧ (k.entry (k.top - 2) = (4026531845, false)) ∧ (4026531845 < 2 ^ 32) ∧ (k.entry (k.top - 1) = (7, false)) ∧ (7 < 2 ^ 32))
    ∧ (∃ (s : State) (k : KCopy), ((Instr.shr issue).wf = true) ∧ (s.calm = true) ∧ (s.solo issue (.bin .shr) = true) ∧ (s.copyOf issue = k) ∧ (k.entry (k.top - 2) = (4026531845, false)) ∧ (4026531845 < 2 ^ 32) ∧ (k.entry (k.top - 1) = (7, false)) ∧ (7 < 2 ^ 32))
    ∧ (∃ (s : State) (k : KCopy), ((Instr.sar issue).wf = true) ∧ (s.calm = true) ∧ (s.solo issue (.bin .sar) = true) ∧ (s.copyOf issue = k) ∧ (k.entry (k.top - 2) = (4026531845, false)) ∧ (4026531845 < 2 ^ 32) ∧ (k.entry (k.top - 1) = (7, false)) ∧ (7 < 2 ^ 32))
    ∧ (∃ (s : State) (k : KCopy), ((Instr.rol issue).wf = true) ∧ (s.calm = true) ∧ (s.solo issue (.bin .rol) = true) ∧ (s.copyOf issue = k) ∧ (k.entry (k.top - 2) = (4026531845, false)) ∧ (4026531845 < 2 ^ 32) ∧ (k.entry (k.top - 1) = (7, false)) ∧ (7 < 2 ^ 32))
    ∧ (∃ (s : State) (k : KCopy), ((Instr.min issue).wf = true) ∧ (s.calm = true) ∧ (s.solo issue (.bin .min) = true) ∧ (s.copyOf issue = k) ∧ (k.entry (k.top - 2) = (4026531845, false)) ∧ (4026531845 < 2 ^ 32) ∧ (k.entry (k.top - 1) = (7, false)) ∧ (7 < 2 ^ 32))
    ∧ (∃ (s : State) (k : KCopy), ((Instr.max issue).wf = true) ∧ (s.calm = true) ∧ (s.solo issue (.bin .max) = true) ∧ (s.copyOf issue = k) ∧ (k.entry (k.top - 2) = (4026531845, false)) ∧ (4026531845 < 2 ^ 32) ∧ (k.entry (k.top - 1) = (7, false)) ∧ (7 < 2 ^ 32)) :=
    ⟨⟨(inTile (kcopy 4 [(0, 11, false), (1, 11, false), (2, 4026531845, false), (3, 7, false)])), (kcopy 4 [(0, 11, false), (1, 11, false), (2, 4026531845, false), (3, 7, false)]), by decide +kernel⟩,
    ⟨(inTile (kcopy 4 [(0, 11, false), (1, 11, false), (2, 4026531845, false), (3, 7, false)])), (kcopy 4 [(0, 11, false), (1, 11, false), (2, 4026531845, false), (3, 7, false)]), by decide +kernel⟩,
    ⟨(inTile (kcopy 4 [(0, 11, false), (1, 11, false), (2, 4026531845, false), (3, 7, false)])), (kcopy 4 [(0, 11, false), (1, 11, false), (2, 4026531845, false), (3, 7, false)]), by decide +kernel⟩,
    ⟨(inTile (kcopy 4 [(0, 11, false), (1, 11, false), (2, 4026531845, false), (3, 7, false)])), (kcopy 4 [(0, 11, false), (1, 11, false), (2, 4026531845, false), (3, 7, false)]), by decide +kernel⟩,
    ⟨(inTile (kcopy 4 [(0, 11, false), (1, 11, false), (2, 4026531845, false), (3, 7, false)])), (kcopy 4 [(0, 11, false), (1, 11, false), (2, 4026531845, false), (3, 7, false)]), by decide +kernel⟩,
    ⟨(inTile (kcopy 4 [(0, 11, false), (1, 11, false), (2, 4026531845, false), (3, 7, false)])), (kcopy 4 [(0, 11, false), (1, 11, false), (2, 4026531845, false), (3, 7, false)]), by decide +kernel⟩⟩

theorem witness_KolotteArith_3 :
    (∃ (s : State) (k : KCopy), ((Instr.minu issue).wf = true) ∧ (s.calm = true) ∧ (s.solo issue (.bin .minu) = true) ∧ (s.copyOf issue = k) ∧ (k.entry (k.top - 2) = (4026531845, false)) ∧ (4026531845 < 2 ^ 32) ∧ (k.entry (k.top - 1) = (7, false)) ∧ (7 < 2 ^ 32))
    ∧ (∃ (s : State) (k : KCopy), ((Instr.maxu issue).wf = true) ∧ (s.calm = true) ∧ (s.solo issue (.bin .maxu) = true) ∧ (s.copyOf issue = k) ∧ (k.entry (k.top - 2) = (4026531845, false)) ∧ (4026531845 < 2 ^ 32) ∧ (k.entry (k.top - 1) = (7, false)) ∧ (7 < 2 ^ 32)) :=
    ⟨⟨(inTile (kcopy 4 [(0, 11, false), (1, 11, false), (2, 4026531845, false), (3, 7, false)])), (kcopy 4 [(0, 11, false), (1, 11, false), (2, 4026531845, false), (3, 7, false)]), by decide +kernel⟩,
    ⟨(inTile (kcopy 4 [(0, 11, false), (1, 11, false), (2, 4026531845, false), (3, 7, false)])), (kcopy 4 [(0, 11, false), (1, 11, false), (2, 4026531845, false), (3, 7, false)]), by decide +kernel⟩⟩

theorem witness_KolotteChecked :
    (∃ (s : State) (k : KCopy), ((Instr.addv issue).wf = true) ∧ (s.calm = true) ∧ (s.solo issue (.bin .addv) = true) ∧ (s.copyOf issue = k) ∧ (k.entry (k.top - 2) = (2147483647, false)) ∧ (2147483647 < 2 ^ 32) ∧ (k.entry (k.top - 1) = (7, false)) ∧ (7 < 2 ^ 32) ∧ (bit k.status 1 = false))
    ∧ (∃ (s : State) (k : KCopy), ((Instr.subv issue).wf = true) ∧ (s.calm = true) ∧ (s.solo issue (.bin .subv) = true) ∧ (s.copyOf issue = k) ∧ (k.entry (k.top - 2) = (2147483647, false)) ∧ (2147483647 < 2 ^ 32) ∧ (k.entry (k.top - 1) = (7, false)) ∧ (7 < 2 ^ 32) ∧ (bit k.status 1 = false))
    ∧ (∃ (s : State) (k : KCopy), ((Instr.mulv issue).wf = true) ∧ (s.calm = true) ∧ (s.solo issue (.bin .mulv) = true) ∧ (s.copyOf issue = k) ∧ (k.entry (k.top - 2) = (2147483647, false)) ∧ (2147483647 < 2 ^ 32) ∧ (k.entry (k.top - 1) = (7, false)) ∧ (7 < 2 ^ 32) ∧ (bit k.status 1 = false)) :=
    ⟨⟨(inTile (kcopy 4 [(0, 11, false), (1, 11, false), (2, 2147483647, false), (3, 7, false)])), (kcopy 4 [(0, 11, false), (1, 11, false), (2, 2147483647, false), (3, 7, false)]), by decide +kernel⟩,
    ⟨(inTile (kcopy 4 [(0, 11, false), (1, 11, false), (2, 2147483647, false), (3, 7, false)])), (kcopy 4 [(0, 11, false), (1, 11, false), (2, 2147483647, false), (3, 7, false)]), by decide +kernel⟩,
    ⟨(inTile (kcopy 4 [(0, 11, false), (1, 11, false), (2, 2147483647, false), (3, 7, false)])), (kcopy 4 [(0, 11, false), (1, 11, false), (2, 2147483647, false), (3, 7, false)]), by decide +kernel⟩⟩

theorem witness_SaturatingArithmetic :
    (∃ (s : State) (k : KCopy), ((Instr.qadd issue).wf = true) ∧ (s.calm = true) ∧ (s.solo issue (.bin .qadd) = true) ∧ (s.copyOf issue = k) ∧ (k.entry (k.top - 2) = (2147483647, false)) ∧ (2147483647 < 2 ^ 32) ∧ (k.entry (k.top - 1) = (7, false)) ∧ (7 < 2 ^ 32))
    ∧ (∃ (s : State) (k : KCopy), ((Instr.qsub issue).wf = true) ∧ (s.calm = true) ∧ (s.solo issue (.bin .qsub) = true) ∧ (s.copyOf issue = k) ∧ (k.entry (k.top - 2) = (2147483649, false)) ∧ (2147483649 < 2 ^ 32) ∧ (k.entry (k.top - 1) = (7, false)) ∧ (7 < 2 ^ 32))
    ∧ (∃ (s : State) (k : KCopy), ((Instr.qneg issue).wf = true) ∧ (s.calm = true) ∧ (s.solo issue (.un .qneg) = true) ∧ (s.copyOf issue = k) ∧ (k.entry (k.top - 1) = (2147483648, false)) ∧ (2147483648 < 2 ^ 32))
    ∧ (∃ (s : State) (k : KCopy), ((Instr.qabs issue).wf = true) ∧ (s.calm = true) ∧ (s.solo issue (.un .qabs) = true) ∧ (s.copyOf issue = k) ∧ (k.entry (k.top - 1) = (2147483648, false)) ∧ (2147483648 < 2 ^ 32))
    ∧ (∃ (s : State) (k : KCopy), ((Instr.qmul issue).wf = true) ∧ (s.calm = true) ∧ (s.solo issue (.bin .qmul) = true) ∧ (s.copyOf issue = k) ∧ (k.entry (k.top - 2) = (2147483648, false)) ∧ (2147483648 < 2 ^ 32) ∧ (k.entry (k.top - 1) = (2147483648, false)) ∧ (2147483648 < 2 ^ 32))
    ∧ (∃ (s : State) (k : KCopy), ((Instr.qmac issue).wf = true) ∧ (s.calm = true) ∧ (s.solo issue (.tern .qmac) = true) ∧ (s.copyOf issue = k) ∧ (k.entry (k.top - 3) = (5, false)) ∧ (5 < 2 ^ 32) ∧ (k.entry (k.top - 2) = (1073741824, false)) ∧ (1073741824 < 2 ^ 32) ∧ (k.entry (k.top - 1) = (3221225472, false)) ∧ (3221225472 < 2 ^ 32)) :=
    ⟨⟨(inTile (kcopy 4 [(0, 11, false), (1, 11, false), (2, 2147483647, false), (3, 7, false)])), (kcopy 4 [(0, 11, false), (1, 11, false), (2, 2147483647, false), (3, 7, false)]), by decide +kernel⟩,
    ⟨(inTile (kcopy 4 [(0, 11, false), (1, 11, false), (2, 2147483649, false), (3, 7, false)])), (kcopy 4 [(0, 11, false), (1, 11, false), (2, 2147483649, false), (3, 7, false)]), by decide +kernel⟩,
    ⟨(inTile (kcopy 3 [(0, 11, false), (1, 11, false), (2, 2147483648, false)])), (kcopy 3 [(0, 11, false), (1, 11, false), (2, 2147483648, false)]), by decide +kernel⟩,
    ⟨(inTile (kcopy 3 [(0, 11, false), (1, 11, false), (2, 2147483648, false)])), (kcopy 3 [(0, 11, false), (1, 11, false), (2, 2147483648, false)]), by decide +kernel⟩,
    ⟨(inTile (kcopy 4 [(0, 11, false), (1, 11, false), (2, 2147483648, false), (3, 2147483648, false)])), (kcopy 4 [(0, 11, false), (1, 11, false), (2, 2147483648, false), (3, 2147483648, false)]), by decide +kernel⟩,
    ⟨(inTile (kcopy 5 [(0, 11, false), (1, 11, false), (2, 5, false), (3, 1073741824, false), (4, 3221225472, false)])), (kcopy 5 [(0, 11, false), (1, 11, false), (2, 5, false), (3, 1073741824, false), (4, 3221225472, false)]), by decide +kernel⟩⟩

theorem witness_KolotteUnary_1 :
    (∃ (s : State) (k : KCopy), ((Instr.not issue).wf = true) ∧ (s.calm = true) ∧ (s.solo issue (.un .not) = true) ∧ (s.copyOf issue = k) ∧ (k.entry (k.top - 1) = (2157973328, false)) ∧ (2157973328 < 2 ^ 32))
    ∧ (∃ (s : State) (k : KCopy), ((Instr.neg issue).wf = true) ∧ (s.calm = true) ∧ (s.solo issue (.un .neg) = true) ∧ (s.copyOf issue = k) ∧ (k.entry (k.top - 1) = (2157973328, false)) ∧ (2157973328 < 2 ^ 32))
    ∧ (∃ (s : State) (k : KCopy), ((Instr.abs issue).wf = true) ∧ (s.calm = true) ∧ (s.solo issue (.un .abs) = true) ∧ (s.copyOf issue = k) ∧ (k.entry (k.top - 1) = (2157973328, false)) ∧ (2157973328 < 2 ^ 32))
    ∧ (∃ (s : State) (k : KCopy), ((Instr.clz issue).wf = true) ∧ (s.calm = true) ∧ (s.solo issue (.un .clz) = true) ∧ (s.copyOf issue = k) ∧ (k.entry (k.top - 1) = (2157973328, false)) ∧ (2157973328 < 2 ^ 32))
    ∧ (∃ (s : State) (k : KCopy), ((Instr.ctz issue).wf = true) ∧ (s.calm = true) ∧ (s.solo issue (.un .ctz) = true) ∧ (s.copyOf issue = k) ∧ (k.entry (k.top - 1) = (2157973328, false)) ∧ (2157973328 < 2 ^ 32))
    ∧ (∃ (s : State) (k : KCopy), ((Instr.popc issue).wf = true) ∧ (s.calm = true) ∧ (s.solo issue (.un .popc) = true) ∧ (s.copyOf issue = k) ∧ (k.entry (k.top - 1) = (2157973328, false)) ∧ (2157973328 < 2 ^ 32)) :=
    ⟨⟨(inTile (kcopy 3 [(0, 11, false), (1, 11, false), (2, 2157973328, false)])), (kcopy 3 [(0, 11, false), (1, 11, false), (2, 2157973328, false)]), by decide +kernel⟩,
    ⟨(inTile (kcopy 3 [(0, 11, false), (1, 11, false), (2, 2157973328, false)])), (kcopy 3 [(0, 11, false), (1, 11, false), (2, 2157973328, false)]), by decide +kernel⟩,
    ⟨(inTile (kcopy 3 [(0, 11, false), (1, 11, false), (2, 2157973328, false)])), (kcopy 3 [(0, 11, false), (1, 11, false), (2, 2157973328, false)]), by decide +kernel⟩,
    ⟨(inTile (kcopy 3 [(0, 11, false), (1, 11, false), (2, 2157973328, false)])), (kcopy 3 [(0, 11, false), (1, 11, false), (2, 2157973328, false)]), by decide +kernel⟩,
    ⟨(inTile (kcopy 3 [(0, 11, false), (1, 11, false), (2, 2157973328, false)])), (kcopy 3 [(0, 11, false), (1, 11, false), (2, 2157973328, false)]), by decide +kernel⟩,
    ⟨(inTile (kcopy 3 [(0, 11, false), (1, 11, false), (2, 2157973328, false)])), (kcopy 3 [(0, 11, false), (1, 11, false), (2, 2157973328, false)]), by decide +kernel⟩⟩

theorem witness_KolotteUnary_2 :
    (∃ (s : State) (k : KCopy), ((Instr.sxb issue).wf = true) ∧ (s.calm = true) ∧ (s.solo issue (.un .sxb) = true) ∧ (s.copyOf issue = k) ∧ (k.entry (k.top - 1) = (2157973328, false)) ∧ (2157973328 < 2 ^ 32))
    ∧ (∃ (s : State) (k : KCopy), ((Instr.sxh issue).wf = true) ∧ (s.calm = true) ∧ (s.solo issue (.un .sxh) = true) ∧ (s.copyOf issue = k) ∧ (k.entry (k.top - 1) = (2157973328, false)) ∧ (2157973328 < 2 ^ 32))
    ∧ (∃ (s : State) (k : KCopy), ((Instr.zxb issue).wf = true) ∧ (s.calm = true) ∧ (s.solo issue (.un .zxb) = true) ∧ (s.copyOf issue = k) ∧ (k.entry (k.top - 1) = (2157973328, false)) ∧ (2157973328 < 2 ^ 32))
    ∧ (∃ (s : State) (k : KCopy), ((Instr.zxh issue).wf = true) ∧ (s.calm = true) ∧ (s.solo issue (.un .zxh) = true) ∧ (s.copyOf issue = k) ∧ (k.entry (k.top - 1) = (2157973328, false)) ∧ (2157973328 < 2 ^ 32))
    ∧ (∃ (s : State) (k : KCopy), ((Instr.bswap issue).wf = true) ∧ (s.calm = true) ∧ (s.solo issue (.un .bswap) = true) ∧ (s.copyOf issue = k) ∧ (k.entry (k.top - 1) = (2157973328, false)) ∧ (2157973328 < 2 ^ 32))
    ∧ (∃ (s : State) (k : KCopy), ((Instr.mul issue).wf = true) ∧ (s.calm = true) ∧ (s.solo issue (.bin .mul) = true) ∧ (s.copyOf issue = k) ∧ (k.entry (k.top - 2) = (4026531845, false)) ∧ (4026531845 < 2 ^ 32) ∧ (k.entry (k.top - 1) = (7, false)) ∧ (7 < 2 ^ 32)) :=
    ⟨⟨(inTile (kcopy 3 [(0, 11, false), (1, 11, false), (2, 2157973328, false)])), (kcopy 3 [(0, 11, false), (1, 11, false), (2, 2157973328, false)]), by decide +kernel⟩,
    ⟨(inTile (kcopy 3 [(0, 11, false), (1, 11, false), (2, 2157973328, false)])), (kcopy 3 [(0, 11, false), (1, 11, false), (2, 2157973328, false)]), by decide +kernel⟩,
    ⟨(inTile (kcopy 3 [(0, 11, false), (1, 11, false), (2, 2157973328, false)])), (kcopy 3 [(0, 11, false), (1, 11, false), (2, 2157973328, false)]), by decide +kernel⟩,
    ⟨(inTile (kcopy 3 [(0, 11, false), (1, 11, false), (2, 2157973328, false)])), (kcopy 3 [(0, 11, false), (1, 11, false), (2, 2157973328, false)]), by decide +kernel⟩,
    ⟨(inTile (kcopy 3 [(0, 11, false), (1, 11, false), (2, 2157973328, false)])), (kcopy 3 [(0, 11, false), (1, 11, false), (2, 2157973328, false)]), by decide +kernel⟩,
    ⟨(inTile (kcopy 4 [(0, 11, false), (1, 11, false), (2, 4026531845, false), (3, 7, false)])), (kcopy 4 [(0, 11, false), (1, 11, false), (2, 4026531845, false), (3, 7, false)]), by decide +kernel⟩⟩

theorem witness_KolotteUnary_3 :
    (∃ (s : State) (k : KCopy), ((Instr.mulhs issue).wf = true) ∧ (s.calm = true) ∧ (s.solo issue (.bin .mulhs) = true) ∧ (s.copyOf issue = k) ∧ (k.entry (k.top - 2) = (4026531845, false)) ∧ (4026531845 < 2 ^ 32) ∧ (k.entry (k.top - 1) = (7, false)) ∧ (7 < 2 ^ 32))
    ∧ (∃ (s : State) (k : KCopy), ((Instr.mulhu issue).wf = true) ∧ (s.calm = true) ∧ (s.solo issue (.bin .mulhu) = true) ∧ (s.copyOf issue = k) ∧ (k.entry (k.top - 2) = (4026531845, false)) ∧ (4026531845 < 2 ^ 32) ∧ (k.entry (k.top - 1) = (7, false)) ∧ (7 < 2 ^ 32))
    ∧ (∃ (s : State) (k : KCopy), ((Instr.mull issue).wf = true) ∧ (s.calm = true) ∧ (s.solo issue (.wide true) = true) ∧ (s.copyOf issue = k) ∧ (k.entry (k.top - 2) = (4026531845, false)) ∧ (4026531845 < 2 ^ 32) ∧ (k.entry (k.top - 1) = (7, false)) ∧ (7 < 2 ^ 32))
    ∧ (∃ (s : State) (k : KCopy), ((Instr.mullu issue).wf = true) ∧ (s.calm = true) ∧ (s.solo issue (.wide false) = true) ∧ (s.copyOf issue = k) ∧ (k.entry (k.top - 2) = (4026531845, false)) ∧ (4026531845 < 2 ^ 32) ∧ (k.entry (k.top - 1) = (7, false)) ∧ (7 < 2 ^ 32)) :=
    ⟨⟨(inTile (kcopy 4 [(0, 11, false), (1, 11, false), (2, 4026531845, false), (3, 7, false)])), (kcopy 4 [(0, 11, false), (1, 11, false), (2, 4026531845, false), (3, 7, false)]), by decide +kernel⟩,
    ⟨(inTile (kcopy 4 [(0, 11, false), (1, 11, false), (2, 4026531845, false), (3, 7, false)])), (kcopy 4 [(0, 11, false), (1, 11, false), (2, 4026531845, false), (3, 7, false)]), by decide +kernel⟩,
    ⟨(inTile (kcopy 4 [(0, 11, false), (1, 11, false), (2, 4026531845, false), (3, 7, false)])), (kcopy 4 [(0, 11, false), (1, 11, false), (2, 4026531845, false), (3, 7, false)]), by decide +kernel⟩,
    ⟨(inTile (kcopy 4 [(0, 11, false), (1, 11, false), (2, 4026531845, false), (3, 7, false)])), (kcopy 4 [(0, 11, false), (1, 11, false), (2, 4026531845, false), (3, 7, false)]), by decide +kernel⟩⟩

theorem witness_KolotteCompare_1 :
    (∃ (s : State) (k : KCopy), ((Instr.cmp issue 0 3).wf = true) ∧ (s.calm = true) ∧ (s.solo issue (.cmp 0 3) = true) ∧ (s.copyOf issue = k) ∧ (k.entry (k.top - 2) = (5, false)) ∧ (5 < 2 ^ 32) ∧ (k.entry (k.top - 1) = (5, false)) ∧ (5 < 2 ^ 32) ∧ (false = false) ∧ (false = false))
    ∧ (∃ (s : State) (k : KCopy), ((Instr.cmp issue 1 3).wf = true) ∧ (s.calm = true) ∧ (s.solo issue (.cmp 1 3) = true) ∧ (s.copyOf issue = k) ∧ (k.entry (k.top - 2) = (5, false)) ∧ (5 < 2 ^ 32) ∧ (k.entry (k.top - 1) = (5, false)) ∧ (5 < 2 ^ 32) ∧ (false = false) ∧ (false = false))
    ∧ (∃ (s : State) (k : KCopy), ((Instr.cmp issue 2 3).wf = true) ∧ (s.calm = true) ∧ (s.solo issue (.cmp 2 3) = true) ∧ (s.copyOf issue = k) ∧ (k.entry (k.top - 2) = (2147483648, false)) ∧ (2147483648 < 2 ^ 32) ∧ (k.entry (k.top - 1) = (5, false)) ∧ (5 < 2 ^ 32) ∧ (false = false) ∧ (false = false))
    ∧ (∃ (s : State) (k : KCopy), ((Instr.cmp issue 3 3).wf = true) ∧ (s.calm = true) ∧ (s.solo issue (.cmp 3 3) = true) ∧ (s.copyOf issue = k) ∧ (k.entry (k.top - 2) = (2147483648, false)) ∧ (2147483648 < 2 ^ 32) ∧ (k.entry (k.top - 1) = (5, false)) ∧ (5 < 2 ^ 32) ∧ (false = false) ∧ (false = false))
    ∧ (∃ (s : State) (k : KCopy), ((Instr.cmp issue 4 3).wf = true) ∧ (s.calm = true) ∧ (s.solo issue (.cmp 4 3) = true) ∧ (s.copyOf issue = k) ∧ (k.entry (k.top - 2) = (2147483648, false)) ∧ (2147483648 < 2 ^ 32) ∧ (k.entry (k.top - 1) = (5, false)) ∧ (5 < 2 ^ 32) ∧ (false = false) ∧ (false = false))
    ∧ (∃ (s : State) (k : KCopy), ((Instr.cmp issue 5 3).wf = true) ∧ (s.calm = true) ∧ (s.solo issue (.cmp 5 3) = true) ∧ (s.copyOf issue = k) ∧ (k.entry (k.top - 2) = (2147483648, false)) ∧ (2147483648 < 2 ^ 32) ∧ (k.entry (k.top - 1) = (5, false)) ∧ (5 < 2 ^ 32) ∧ (false = false) ∧ (false = false)) :=
    ⟨⟨(inTile (kcopy 4 [(0, 11, false), (1, 11, false), (2, 5, false), (3, 5, false)])), (kcopy 4 [(0, 11, false), (1, 11, false), (2, 5, false), (3, 5, false)]), by decide +kernel⟩,
    ⟨(inTile (kcopy 4 [(0, 11, false), (1, 11, false), (2, 5, false), (3, 5, false)])), (kcopy 4 [(0, 11, false), (1, 11, false), (2, 5, false), (3, 5, false)]), by decide +kernel⟩,
    ⟨(inTile (kcopy 4 [(0, 11, false), (1, 11, false), (2, 2147483648, false), (3, 5, false)])), (kcopy 4 [(0, 11, false), (1, 11, false), (2, 2147483648, false), (3, 5, false)]), by decide +kernel⟩,
    ⟨(inTile (kcopy 4 [(0, 11, false), (1, 11, false), (2, 2147483648, false), (3, 5, false)])), (kcopy 4 [(0, 11, false), (1, 11, false), (2, 2147483648, false), (3, 5, false)]), by decide +kernel⟩,
    ⟨(inTile (kcopy 4 [(0, 11, false), (1, 11, false), (2, 2147483648, false), (3, 5, false)])), (kcopy 4 [(0, 11, false), (1, 11, false), (2, 2147483648, false), (3, 5, false)]), by decide +kernel⟩,
    ⟨(inTile (kcopy 4 [(0, 11, false), (1, 11, false), (2, 2147483648, false), (3, 5, false)])), (kcopy 4 [(0, 11, false), (1, 11, false), (2, 2147483648, false), (3, 5, false)]), by decide +kernel⟩⟩

theorem witness_KolotteCompare_2 :
    (∃ (s : State) (k : KCopy), ((Instr.cmp issue 6 3).wf = true) ∧ (s.calm = true) ∧ (s.solo issue (.cmp 6 3) = true) ∧ (s.copyOf issue = k) ∧ (k.entry (k.top - 2) = (6, false)) ∧ (6 < 2 ^ 32) ∧ (k.entry (k.top - 1) = (5, false)) ∧ (5 < 2 ^ 32) ∧ (false = false) ∧ (false = false))
    ∧ (∃ (s : State) (k : KCopy), ((Instr.cmp issue 7 3).wf = true) ∧ (s.calm = true) ∧ (s.solo issue (.cmp 7 3) = true) ∧ (s.copyOf issue = k) ∧ (k.entry (k.top - 2) = (6, false)) ∧ (6 < 2 ^ 32) ∧ (k.entry (k.top - 1) = (5, false)) ∧ (5 < 2 ^ 32) ∧ (false = false) ∧ (false = false))
    ∧ (∃ (s : State) (k : KCopy), ((Instr.cmpz issue 0 3).wf = true) ∧ (s.calm = true) ∧ (s.solo issue (.cmpz 0 3) = true) ∧ (s.copyOf issue = k) ∧ (k.entry (k.top - 1) = (0, false)) ∧ (0 < 2 ^ 32) ∧ (false = false))
    ∧ (∃ (s : State) (k : KCopy), ((Instr.cmpz issue 1 3).wf = true) ∧ (s.calm = true) ∧ (s.solo issue (.cmpz 1 3) = true) ∧ (s.copyOf issue = k) ∧ (k.entry (k.top - 1) = (0, false)) ∧ (0 < 2 ^ 32) ∧ (false = false))
    ∧ (∃ (s : State) (k : KCopy), ((Instr.cmpz issue 2 3).wf = true) ∧ (s.calm = true) ∧ (s.solo issue (.cmpz 2 3) = true) ∧ (s.copyOf issue = k) ∧ (k.entry (k.top - 1) = (2147483648, false)) ∧ (2147483648 < 2 ^ 32) ∧ (false = false))
    ∧ (∃ (s : State) (k : KCopy), ((Instr.cmpz issue 3 3).wf = true) ∧ (s.calm = true) ∧ (s.solo issue (.cmpz 3 3) = true) ∧ (s.copyOf issue = k) ∧ (k.entry (k.top - 1) = (2147483648, false)) ∧ (2147483648 < 2 ^ 32) ∧ (false = false)) :=
    ⟨⟨(inTile (kcopy 4 [(0, 11, false), (1, 11, false), (2, 6, false), (3, 5, false)])), (kcopy 4 [(0, 11, false), (1, 11, false), (2, 6, false), (3, 5, false)]), by decide +kernel⟩,
    ⟨(inTile (kcopy 4 [(0, 11, false), (1, 11, false), (2, 6, false), (3, 5, false)])), (kcopy 4 [(0, 11, false), (1, 11, false), (2, 6, false), (3, 5, false)]), by decide +kernel⟩,
    ⟨(inTile (kcopy 3 [(0, 11, false), (1, 11, false), (2, 0, false)])), (kcopy 3 [(0, 11, false), (1, 11, false), (2, 0, false)]), by decide +kernel⟩,
    ⟨(inTile (kcopy 3 [(0, 11, false), (1, 11, false), (2, 0, false)])), (kcopy 3 [(0, 11, false), (1, 11, false), (2, 0, false)]), by decide +kernel⟩,
    ⟨(inTile (kcopy 3 [(0, 11, false), (1, 11, false), (2, 2147483648, false)])), (kcopy 3 [(0, 11, false), (1, 11, false), (2, 2147483648, false)]), by decide +kernel⟩,
    ⟨(inTile (kcopy 3 [(0, 11, false), (1, 11, false), (2, 2147483648, false)])), (kcopy 3 [(0, 11, false), (1, 11, false), (2, 2147483648, false)]), by decide +kernel⟩⟩

theorem witness_KolotteCompare_3 :
    (∃ (s : State) (k : KCopy), ((Instr.cmpz issue 4 3).wf = true) ∧ (s.calm = true) ∧ (s.solo issue (.cmpz 4 3) = true) ∧ (s.copyOf issue = k) ∧ (k.entry (k.top - 1) = (2147483648, false)) ∧ (2147483648 < 2 ^ 32) ∧ (false = false))
    ∧ (∃ (s : State) (k : KCopy), ((Instr.cmpz issue 5 3).wf = true) ∧ (s.calm = true) ∧ (s.solo issue (.cmpz 5 3) = true) ∧ (s.copyOf issue = k) ∧ (k.entry (k.top - 1) = (2147483648, false)) ∧ (2147483648 < 2 ^ 32) ∧ (false = false))
    ∧ (∃ (s : State) (k : KCopy), ((Instr.plog issue 0 2 3).wf = true) ∧ (s.calm = true) ∧ (s.solo issue (.plog 0 2 3) = true) ∧ (s.copyOf issue = k))
    ∧ (∃ (s : State) (k : KCopy), ((Instr.plog issue 1 2 3).wf = true) ∧ (s.calm = true) ∧ (s.solo issue (.plog 1 2 3) = true) ∧ (s.copyOf issue = k))
    ∧ (∃ (s : State) (k : KCopy), ((Instr.plog issue 2 2 3).wf = true) ∧ (s.calm = true) ∧ (s.solo issue (.plog 2 2 3) = true) ∧ (s.copyOf issue = k))
    ∧ (∃ (s : State) (k : KCopy), ((Instr.plog issue 3 2 3).wf = true) ∧ (s.calm = true) ∧ (s.solo issue (.plog 3 2 3) = true) ∧ (s.copyOf issue = k)) :=
    ⟨⟨(inTile (kcopy 3 [(0, 11, false), (1, 11, false), (2, 2147483648, false)])), (kcopy 3 [(0, 11, false), (1, 11, false), (2, 2147483648, false)]), by decide +kernel⟩,
    ⟨(inTile (kcopy 3 [(0, 11, false), (1, 11, false), (2, 2147483648, false)])), (kcopy 3 [(0, 11, false), (1, 11, false), (2, 2147483648, false)]), by decide +kernel⟩,
    ⟨(inTile { kcopy 2 [(0, 11, false), (1, 11, false)] with preds := 5 }), ({ kcopy 2 [(0, 11, false), (1, 11, false)] with preds := 5 } : KCopy), by decide +kernel⟩,
    ⟨(inTile { kcopy 2 [(0, 11, false), (1, 11, false)] with preds := 5 }), ({ kcopy 2 [(0, 11, false), (1, 11, false)] with preds := 5 } : KCopy), by decide +kernel⟩,
    ⟨(inTile { kcopy 2 [(0, 11, false), (1, 11, false)] with preds := 5 }), ({ kcopy 2 [(0, 11, false), (1, 11, false)] with preds := 5 } : KCopy), by decide +kernel⟩,
    ⟨(inTile { kcopy 2 [(0, 11, false), (1, 11, false)] with preds := 5 }), ({ kcopy 2 [(0, 11, false), (1, 11, false)] with preds := 5 } : KCopy), by decide +kernel⟩⟩

theorem witness_KolotteCompare_4 :
    (∃ (s : State) (k : KCopy), ((Instr.pset issue 0).wf = true) ∧ (s.calm = true) ∧ (s.solo issue (.pset 0) = true) ∧ (s.copyOf issue = k))
    ∧ (∃ (s : State) (k : KCopy), ((Instr.pclr issue 3).wf = true) ∧ (s.calm = true) ∧ (s.solo issue (.pclr 3) = true) ∧ (s.copyOf issue = k))
    ∧ (∃ (s : State) (k : KCopy), ((Instr.pnot issue 3).wf = true) ∧ (s.calm = true) ∧ (s.solo issue (.pnot 3) = true) ∧ (s.copyOf issue = k))
    ∧ (∃ (s : State) (k : KCopy), ((Instr.pushp issue 0).wf = true) ∧ (s.calm = true) ∧ (s.solo issue (.pushp 0) = true) ∧ (s.copyOf issue = k))
    ∧ (∃ (s : State) (k : KCopy), ((Instr.popp issue 3).wf = true) ∧ (s.calm = true) ∧ (s.solo issue (.popp 3) = true) ∧ (s.copyOf issue = k) ∧ (k.entry (k.top - 1) = (7, false)) ∧ (7 < 2 ^ 32) ∧ (false = false))
    ∧ (∃ (s : State) (k : KCopy), ((Instr.sel issue 3).wf = true) ∧ (s.calm = true) ∧ (s.solo issue (.sel 3) = true) ∧ (s.copyOf issue = k) ∧ (k.entry (k.top - 2) = (7, false)) ∧ (7 < 2 ^ 32) ∧ (k.entry (k.top - 1) = (3, false)) ∧ (3 < 2 ^ 32)) :=
    ⟨⟨(inTile (kcopy 2 [(0, 11, false), (1, 11, false)])), (kcopy 2 [(0, 11, false), (1, 11, false)]), by decide +kernel⟩,
    ⟨(inTile (kcopy 2 [(0, 11, false), (1, 11, false)])), (kcopy 2 [(0, 11, false), (1, 11, false)]), by decide +kernel⟩,
    ⟨(inTile (kcopy 2 [(0, 11, false), (1, 11, false)])), (kcopy 2 [(0, 11, false), (1, 11, false)]), by decide +kernel⟩,
    ⟨(inTile (kcopy 2 [(0, 11, false), (1, 11, false)])), (kcopy 2 [(0, 11, false), (1, 11, false)]), by decide +kernel⟩,
    ⟨(inTile (kcopy 3 [(0, 11, false), (1, 11, false), (2, 7, false)])), (kcopy 3 [(0, 11, false), (1, 11, false), (2, 7, false)]), by decide +kernel⟩,
    ⟨(inTile (kcopy 4 [(0, 11, false), (1, 11, false), (2, 7, false), (3, 3, false)])), (kcopy 4 [(0, 11, false), (1, 11, false), (2, 7, false), (3, 3, false)]), by decide +kernel⟩⟩

theorem witness_KolotteAngles_1 :
    (∃ (s : State) (k : KCopy), ((Instr.angadd issue).wf = true) ∧ (s.calm = true) ∧ (s.solo issue (.ang false) = true) ∧ (s.copyOf issue = k) ∧ (k.entry (k.top - 4) = (4294967295, false)) ∧ (4294967295 < 2 ^ 32) ∧ (k.entry (k.top - 3) = (2, false)) ∧ (2 < 2 ^ 32) ∧ (k.entry (k.top - 2) = (3, false)) ∧ (3 < 2 ^ 32) ∧ (k.entry (k.top - 1) = (4, false)) ∧ (4 < 2 ^ 32))
    ∧ (∃ (s : State) (k : KCopy), ((Instr.rdst issue).wf = true) ∧ (s.calm = true) ∧ (s.solo issue (.rdst) = true) ∧ (s.copyOf issue = k))
    ∧ (∃ (s : State) (k : KCopy), ((Instr.rdlc issue).wf = true) ∧ (s.calm = true) ∧ (s.solo issue (.rdlc) = true) ∧ (s.copyOf issue = k))
    ∧ (∃ (s : State) (k : KCopy), ((Instr.rdrc issue).wf = true) ∧ (s.calm = true) ∧ (s.solo issue (.rdrc) = true) ∧ (s.copyOf issue = k))
    ∧ (∃ (s : State) (k : KCopy), ((Instr.rdp issue).wf = true) ∧ (s.calm = true) ∧ (s.solo issue (.rdp) = true) ∧ (s.copyOf issue = k))
    ∧ (∃ (s : State) (k : KCopy), ((Instr.rddep issue).wf = true) ∧ (s.calm = true) ∧ (s.solo issue (.rddep) = true) ∧ (s.copyOf issue = k)) :=
    ⟨⟨(inTile (kcopy 6 [(0, 11, false), (1, 11, false), (2, 4294967295, false), (3, 2, false), (4, 3, false), (5, 4, false)])), (kcopy 6 [(0, 11, false), (1, 11, false), (2, 4294967295, false), (3, 2, false), (4, 3, false), (5, 4, false)]), by decide +kernel⟩,
    ⟨(inTile (kcopy 2 [(0, 11, false), (1, 11, false)])), (kcopy 2 [(0, 11, false), (1, 11, false)]), by decide +kernel⟩,
    ⟨(inTile (kcopy 2 [(0, 11, false), (1, 11, false)])), (kcopy 2 [(0, 11, false), (1, 11, false)]), by decide +kernel⟩,
    ⟨(inTile (kcopy 2 [(0, 11, false), (1, 11, false)])), (kcopy 2 [(0, 11, false), (1, 11, false)]), by decide +kernel⟩,
    ⟨(inTile (kcopy 2 [(0, 11, false), (1, 11, false)])), (kcopy 2 [(0, 11, false), (1, 11, false)]), by decide +kernel⟩,
    ⟨(inTile (kcopy 2 [(0, 11, false), (1, 11, false)])), (kcopy 2 [(0, 11, false), (1, 11, false)]), by decide +kernel⟩⟩

theorem witness_KolotteAngles_2 :
    (∃ (s : State) (k : KCopy), ((Instr.rdrsp issue).wf = true) ∧ (s.calm = true) ∧ (s.solo issue (.rdrsp) = true) ∧ (s.copyOf issue = k))
    ∧ (∃ (s : State) (k : KCopy), ((Instr.rdtile issue).wf = true) ∧ (s.calm = true) ∧ (s.solo issue (.rdtile) = true) ∧ (s.copyOf issue = k))
    ∧ (∃ (s : State) (k : KCopy), ((Instr.wrst issue).wf = true) ∧ (s.calm = true) ∧ (s.solo issue (.wrst) = true) ∧ (s.copyOf issue = k) ∧ (k.entry (k.top - 1) = (7, false)) ∧ (7 < 2 ^ 32) ∧ (false = false))
    ∧ (∃ (s : State) (k : KCopy), ((Instr.wrlc issue).wf = true) ∧ (s.calm = true) ∧ (s.solo issue (.wrlc) = true) ∧ (s.copyOf issue = k) ∧ (k.entry (k.top - 1) = (7, false)) ∧ (7 < 2 ^ 32) ∧ (false = false))
    ∧ (∃ (s : State) (k : KCopy), ((Instr.wrrc issue).wf = true) ∧ (s.calm = true) ∧ (s.solo issue (.wrrc) = true) ∧ (s.copyOf issue = k) ∧ (k.entry (k.top - 1) = (7, false)) ∧ (7 < 2 ^ 32) ∧ (false = false))
    ∧ (∃ (s : State) (k : KCopy), ((Instr.wrp issue).wf = true) ∧ (s.calm = true) ∧ (s.solo issue (.wrp) = true) ∧ (s.copyOf issue = k) ∧ (k.entry (k.top - 1) = (7, false)) ∧ (7 < 2 ^ 32) ∧ (false = false)) :=
    ⟨⟨(inTile (kcopy 2 [(0, 11, false), (1, 11, false)])), (kcopy 2 [(0, 11, false), (1, 11, false)]), by decide +kernel⟩,
    ⟨(inTile (kcopy 2 [(0, 11, false), (1, 11, false)])), (kcopy 2 [(0, 11, false), (1, 11, false)]), by decide +kernel⟩,
    ⟨(inTile (kcopy 3 [(0, 11, false), (1, 11, false), (2, 7, false)])), (kcopy 3 [(0, 11, false), (1, 11, false), (2, 7, false)]), by decide +kernel⟩,
    ⟨(inTile (kcopy 3 [(0, 11, false), (1, 11, false), (2, 7, false)])), (kcopy 3 [(0, 11, false), (1, 11, false), (2, 7, false)]), by decide +kernel⟩,
    ⟨(inTile (kcopy 3 [(0, 11, false), (1, 11, false), (2, 7, false)])), (kcopy 3 [(0, 11, false), (1, 11, false), (2, 7, false)]), by decide +kernel⟩,
    ⟨(inTile (kcopy 3 [(0, 11, false), (1, 11, false), (2, 7, false)])), (kcopy 3 [(0, 11, false), (1, 11, false), (2, 7, false)]), by decide +kernel⟩⟩

theorem witness_KolotteDivide :
    (∃ (s : State) (k : KCopy), ((Instr.div issue).wf = true) ∧ (s.calm = true) ∧ (s.solo issue (.bin .div) = true) ∧ (s.copyOf issue = k) ∧ (k.entry (k.top - 2) = (2147483648, false)) ∧ (2147483648 < 2 ^ 32) ∧ (k.entry (k.top - 1) = (4294967295, false)) ∧ (4294967295 < 2 ^ 32) ∧ (bit k.status 1 = false))
    ∧ (∃ (s : State) (k : KCopy), ((Instr.divu issue).wf = true) ∧ (s.calm = true) ∧ (s.solo issue (.bin .divu) = true) ∧ (s.copyOf issue = k) ∧ (k.entry (k.top - 2) = (2147483648, false)) ∧ (2147483648 < 2 ^ 32) ∧ (k.entry (k.top - 1) = (7, false)) ∧ (7 < 2 ^ 32) ∧ (bit k.status 1 = false))
    ∧ (∃ (s : State) (k : KCopy), ((Instr.rem issue).wf = true) ∧ (s.calm = true) ∧ (s.solo issue (.bin .rem) = true) ∧ (s.copyOf issue = k) ∧ (k.entry (k.top - 2) = (4294967289, false)) ∧ (4294967289 < 2 ^ 32) ∧ (k.entry (k.top - 1) = (4, false)) ∧ (4 < 2 ^ 32) ∧ (bit k.status 1 = false))
    ∧ (∃ (s : State) (k : KCopy), ((Instr.remu issue).wf = true) ∧ (s.calm = true) ∧ (s.solo issue (.bin .remu) = true) ∧ (s.copyOf issue = k) ∧ (k.entry (k.top - 2) = (2147483648, false)) ∧ (2147483648 < 2 ^ 32) ∧ (k.entry (k.top - 1) = (0, false)) ∧ (0 < 2 ^ 32) ∧ (bit k.status 1 = false))
    ∧ (∃ (s : State) (k : KCopy), ((Instr.fdiv issue).wf = true) ∧ (s.calm = true) ∧ (s.solo issue (.bin .fdiv) = true) ∧ (s.copyOf issue = k) ∧ (k.entry (k.top - 2) = (1065353216, false)) ∧ (1065353216 < 2 ^ 32) ∧ (k.entry (k.top - 1) = (1078530011, false)) ∧ (1078530011 < 2 ^ 32) ∧ (bit k.status 1 = false))
    ∧ (∃ (s : State) (k : KCopy), ((Instr.fsqrt issue).wf = true) ∧ (s.calm = true) ∧ (s.solo issue (.un .fsqrt) = true) ∧ (s.copyOf issue = k) ∧ (k.entry (k.top - 1) = (1073741824, false)) ∧ (1073741824 < 2 ^ 32) ∧ (bit k.status 1 = false)) :=
    ⟨⟨(inTile (kcopy 4 [(0, 11, false), (1, 11, false), (2, 2147483648, false), (3, 4294967295, false)])), (kcopy 4 [(0, 11, false), (1, 11, false), (2, 2147483648, false), (3, 4294967295, false)]), by decide +kernel⟩,
    ⟨(inTile (kcopy 4 [(0, 11, false), (1, 11, false), (2, 2147483648, false), (3, 7, false)])), (kcopy 4 [(0, 11, false), (1, 11, false), (2, 2147483648, false), (3, 7, false)]), by decide +kernel⟩,
    ⟨(inTile (kcopy 4 [(0, 11, false), (1, 11, false), (2, 4294967289, false), (3, 4, false)])), (kcopy 4 [(0, 11, false), (1, 11, false), (2, 4294967289, false), (3, 4, false)]), by decide +kernel⟩,
    ⟨(inTile (kcopy 4 [(0, 11, false), (1, 11, false), (2, 2147483648, false), (3, 0, false)])), (kcopy 4 [(0, 11, false), (1, 11, false), (2, 2147483648, false), (3, 0, false)]), by decide +kernel⟩,
    ⟨(inTile (kcopy 4 [(0, 11, false), (1, 11, false), (2, 1065353216, false), (3, 1078530011, false)])), (kcopy 4 [(0, 11, false), (1, 11, false), (2, 1065353216, false), (3, 1078530011, false)]), by decide +kernel⟩,
    ⟨(inTile (kcopy 3 [(0, 11, false), (1, 11, false), (2, 1073741824, false)])), (kcopy 3 [(0, 11, false), (1, 11, false), (2, 1073741824, false)]), by decide +kernel⟩⟩

theorem witness_KolotteFloat_1 :
    (∃ (s : State) (k : KCopy), ((Instr.fadd issue).wf = true) ∧ (s.calm = true) ∧ (s.solo issue (.bin .fadd) = true) ∧ (s.copyOf issue = k) ∧ (k.entry (k.top - 2) = (1065353216, false)) ∧ (1065353216 < 2 ^ 32) ∧ (k.entry (k.top - 1) = (1078530011, false)) ∧ (1078530011 < 2 ^ 32) ∧ (bit k.status 1 = false))
    ∧ (∃ (s : State) (k : KCopy), ((Instr.fsub issue).wf = true) ∧ (s.calm = true) ∧ (s.solo issue (.bin .fsub) = true) ∧ (s.copyOf issue = k) ∧ (k.entry (k.top - 2) = (1065353216, false)) ∧ (1065353216 < 2 ^ 32) ∧ (k.entry (k.top - 1) = (1078530011, false)) ∧ (1078530011 < 2 ^ 32) ∧ (bit k.status 1 = false))
    ∧ (∃ (s : State) (k : KCopy), ((Instr.fmul issue).wf = true) ∧ (s.calm = true) ∧ (s.solo issue (.bin .fmul) = true) ∧ (s.copyOf issue = k) ∧ (k.entry (k.top - 2) = (1065353216, false)) ∧ (1065353216 < 2 ^ 32) ∧ (k.entry (k.top - 1) = (1078530011, false)) ∧ (1078530011 < 2 ^ 32) ∧ (bit k.status 1 = false))
    ∧ (∃ (s : State) (k : KCopy), ((Instr.fma issue).wf = true) ∧ (s.calm = true) ∧ (s.solo issue (.tern .fma) = true) ∧ (s.copyOf issue = k) ∧ (k.entry (k.top - 3) = (1065353216, false)) ∧ (1065353216 < 2 ^ 32) ∧ (k.entry (k.top - 2) = (1078530011, false)) ∧ (1078530011 < 2 ^ 32) ∧ (k.entry (k.top - 1) = (1056964608, false)) ∧ (1056964608 < 2 ^ 32) ∧ (bit k.status 1 = false))
    ∧ (∃ (s : State) (k : KCopy), ((Instr.fmin issue).wf = true) ∧ (s.calm = true) ∧ (s.solo issue (.bin .fmin) = true) ∧ (s.copyOf issue = k) ∧ (k.entry (k.top - 2) = (1065353216, false)) ∧ (1065353216 < 2 ^ 32) ∧ (k.entry (k.top - 1) = (1078530011, false)) ∧ (1078530011 < 2 ^ 32) ∧ (bit k.status 1 = false))
    ∧ (∃ (s : State) (k : KCopy), ((Instr.fmax issue).wf = true) ∧ (s.calm = true) ∧ (s.solo issue (.bin .fmax) = true) ∧ (s.copyOf issue = k) ∧ (k.entry (k.top - 2) = (1065353216, false)) ∧ (1065353216 < 2 ^ 32) ∧ (k.entry (k.top - 1) = (1078530011, false)) ∧ (1078530011 < 2 ^ 32) ∧ (bit k.status 1 = false)) :=
    ⟨⟨(inTile (kcopy 4 [(0, 11, false), (1, 11, false), (2, 1065353216, false), (3, 1078530011, false)])), (kcopy 4 [(0, 11, false), (1, 11, false), (2, 1065353216, false), (3, 1078530011, false)]), by decide +kernel⟩,
    ⟨(inTile (kcopy 4 [(0, 11, false), (1, 11, false), (2, 1065353216, false), (3, 1078530011, false)])), (kcopy 4 [(0, 11, false), (1, 11, false), (2, 1065353216, false), (3, 1078530011, false)]), by decide +kernel⟩,
    ⟨(inTile (kcopy 4 [(0, 11, false), (1, 11, false), (2, 1065353216, false), (3, 1078530011, false)])), (kcopy 4 [(0, 11, false), (1, 11, false), (2, 1065353216, false), (3, 1078530011, false)]), by decide +kernel⟩,
    ⟨(inTile (kcopy 5 [(0, 11, false), (1, 11, false), (2, 1065353216, false), (3, 1078530011, false), (4, 1056964608, false)])), (kcopy 5 [(0, 11, false), (1, 11, false), (2, 1065353216, false), (3, 1078530011, false), (4, 1056964608, false)]), by decide +kernel⟩,
    ⟨(inTile (kcopy 4 [(0, 11, false), (1, 11, false), (2, 1065353216, false), (3, 1078530011, false)])), (kcopy 4 [(0, 11, false), (1, 11, false), (2, 1065353216, false), (3, 1078530011, false)]), by decide +kernel⟩,
    ⟨(inTile (kcopy 4 [(0, 11, false), (1, 11, false), (2, 1065353216, false), (3, 1078530011, false)])), (kcopy 4 [(0, 11, false), (1, 11, false), (2, 1065353216, false), (3, 1078530011, false)]), by decide +kernel⟩⟩

theorem witness_KolotteFloat_2 :
    (∃ (s : State) (k : KCopy), ((Instr.fneg issue).wf = true) ∧ (s.calm = true) ∧ (s.solo issue (.un .fneg) = true) ∧ (s.copyOf issue = k) ∧ (k.entry (k.top - 1) = (2143289361, false)) ∧ (2143289361 < 2 ^ 32))
    ∧ (∃ (s : State) (k : KCopy), ((Instr.fabs issue).wf = true) ∧ (s.calm = true) ∧ (s.solo issue (.un .fabs) = true) ∧ (s.copyOf issue = k) ∧ (k.entry (k.top - 1) = (4290773009, false)) ∧ (4290773009 < 2 ^ 32))
    ∧ (∃ (s : State) (k : KCopy), ((Instr.cvtif issue).wf = true) ∧ (s.calm = true) ∧ (s.solo issue (.un .cvtif) = true) ∧ (s.copyOf issue = k) ∧ (k.entry (k.top - 1) = (4294967295, false)) ∧ (4294967295 < 2 ^ 32))
    ∧ (∃ (s : State) (k : KCopy), ((Instr.cvtuf issue).wf = true) ∧ (s.calm = true) ∧ (s.solo issue (.un .cvtuf) = true) ∧ (s.copyOf issue = k) ∧ (k.entry (k.top - 1) = (4294967295, false)) ∧ (4294967295 < 2 ^ 32))
    ∧ (∃ (s : State) (k : KCopy), ((Instr.cvtfi issue).wf = true) ∧ (s.calm = true) ∧ (s.solo issue (.un .cvtfi) = true) ∧ (s.copyOf issue = k) ∧ (k.entry (k.top - 1) = (1325400064, false)) ∧ (1325400064 < 2 ^ 32) ∧ (bit k.status 1 = false))
    ∧ (∃ (s : State) (k : KCopy), ((Instr.cvtqf issue).wf = true) ∧ (s.calm = true) ∧ (s.solo issue (.un .cvtqf) = true) ∧ (s.copyOf issue = k) ∧ (k.entry (k.top - 1) = (2147483648, false)) ∧ (2147483648 < 2 ^ 32)) :=
    ⟨⟨(inTile (kcopy 3 [(0, 11, false), (1, 11, false), (2, 2143289361, false)])), (kcopy 3 [(0, 11, false), (1, 11, false), (2, 2143289361, false)]), by decide +kernel⟩,
    ⟨(inTile (kcopy 3 [(0, 11, false), (1, 11, false), (2, 4290773009, false)])), (kcopy 3 [(0, 11, false), (1, 11, false), (2, 4290773009, false)]), by decide +kernel⟩,
    ⟨(inTile (kcopy 3 [(0, 11, false), (1, 11, false), (2, 4294967295, false)])), (kcopy 3 [(0, 11, false), (1, 11, false), (2, 4294967295, false)]), by decide +kernel⟩,
    ⟨(inTile (kcopy 3 [(0, 11, false), (1, 11, false), (2, 4294967295, false)])), (kcopy 3 [(0, 11, false), (1, 11, false), (2, 4294967295, false)]), by decide +kernel⟩,
    ⟨(inTile (kcopy 3 [(0, 11, false), (1, 11, false), (2, 1325400064, false)])), (kcopy 3 [(0, 11, false), (1, 11, false), (2, 1325400064, false)]), by decide +kernel⟩,
    ⟨(inTile (kcopy 3 [(0, 11, false), (1, 11, false), (2, 2147483648, false)])), (kcopy 3 [(0, 11, false), (1, 11, false), (2, 2147483648, false)]), by decide +kernel⟩⟩

theorem witness_KolotteFloat_3 :
    (∃ (s : State) (k : KCopy), ((Instr.cvtfq issue).wf = true) ∧ (s.calm = true) ∧ (s.solo issue (.un .cvtfq) = true) ∧ (s.copyOf issue = k) ∧ (k.entry (k.top - 1) = (1065353216, false)) ∧ (1065353216 < 2 ^ 32) ∧ (bit k.status 1 = false)) :=
    ⟨(inTile (kcopy 3 [(0, 11, false), (1, 11, false), (2, 1065353216, false)])), (kcopy 3 [(0, 11, false), (1, 11, false), (2, 1065353216, false)]), by decide +kernel⟩

theorem witness_AngleDifference :
    (∃ (s : State) (k : KCopy), ((Instr.angsub issue).wf = true) ∧ (s.calm = true) ∧ (s.solo issue (.ang true) = true) ∧ (s.copyOf issue = k) ∧ (k.entry (k.top - 4) = (1, false)) ∧ (1 < 2 ^ 32) ∧ (k.entry (k.top - 3) = (2, false)) ∧ (2 < 2 ^ 32) ∧ (k.entry (k.top - 2) = (3, false)) ∧ (3 < 2 ^ 32) ∧ (k.entry (k.top - 1) = (4, false)) ∧ (4 < 2 ^ 32))
    ∧ (∃ (s : State) (k : KCopy), ((Instr.angcmp issue 3).wf = true) ∧ (s.calm = true) ∧ (s.solo issue (.angcmp 3) = true) ∧ (s.copyOf issue = k) ∧ (k.entry (k.top - 4) = (1, false)) ∧ (1 < 2 ^ 32) ∧ (k.entry (k.top - 3) = (2, false)) ∧ (2 < 2 ^ 32) ∧ (k.entry (k.top - 2) = (3, false)) ∧ (3 < 2 ^ 32) ∧ (k.entry (k.top - 1) = (4, false)) ∧ (4 < 2 ^ 32) ∧ ((false || false || false || false) = false)) :=
    ⟨⟨(inTile (kcopy 6 [(0, 11, false), (1, 11, false), (2, 1, false), (3, 2, false), (4, 3, false), (5, 4, false)])), (kcopy 6 [(0, 11, false), (1, 11, false), (2, 1, false), (3, 2, false), (4, 3, false), (5, 4, false)]), by decide +kernel⟩,
    ⟨(inTile (kcopy 6 [(0, 11, false), (1, 11, false), (2, 1, false), (3, 2, false), (4, 3, false), (5, 4, false)])), (kcopy 6 [(0, 11, false), (1, 11, false), (2, 1, false), (3, 2, false), (4, 3, false), (5, 4, false)]), by decide +kernel⟩⟩

theorem witness_QuietCompare :
    (∃ (s : State) (k : KCopy), ((Instr.fcmp issue 0 3).wf = true) ∧ (s.calm = true) ∧ (s.solo issue (.fcmp 0 3) = true) ∧ (s.copyOf issue = k) ∧ (k.entry (k.top - 2) = (1065353216, false)) ∧ (1065353216 < 2 ^ 32) ∧ (k.entry (k.top - 1) = (2143289361, false)) ∧ (2143289361 < 2 ^ 32) ∧ (false = false) ∧ (false = false))
    ∧ (∃ (s : State) (k : KCopy), ((Instr.fcmp issue 1 3).wf = true) ∧ (s.calm = true) ∧ (s.solo issue (.fcmp 1 3) = true) ∧ (s.copyOf issue = k) ∧ (k.entry (k.top - 2) = (1065353216, false)) ∧ (1065353216 < 2 ^ 32) ∧ (k.entry (k.top - 1) = (2143289361, false)) ∧ (2143289361 < 2 ^ 32) ∧ (false = false) ∧ (false = false))
    ∧ (∃ (s : State) (k : KCopy), ((Instr.fcmp issue 2 3).wf = true) ∧ (s.calm = true) ∧ (s.solo issue (.fcmp 2 3) = true) ∧ (s.copyOf issue = k) ∧ (k.entry (k.top - 2) = (1065353216, false)) ∧ (1065353216 < 2 ^ 32) ∧ (k.entry (k.top - 1) = (2143289361, false)) ∧ (2143289361 < 2 ^ 32) ∧ (false = false) ∧ (false = false))
    ∧ (∃ (s : State) (k : KCopy), ((Instr.fcmp issue 3 3).wf = true) ∧ (s.calm = true) ∧ (s.solo issue (.fcmp 3 3) = true) ∧ (s.copyOf issue = k) ∧ (k.entry (k.top - 2) = (1065353216, false)) ∧ (1065353216 < 2 ^ 32) ∧ (k.entry (k.top - 1) = (2143289361, false)) ∧ (2143289361 < 2 ^ 32) ∧ (false = false) ∧ (false = false)) :=
    ⟨⟨(inTile (kcopy 4 [(0, 11, false), (1, 11, false), (2, 1065353216, false), (3, 2143289361, false)])), (kcopy 4 [(0, 11, false), (1, 11, false), (2, 1065353216, false), (3, 2143289361, false)]), by decide +kernel⟩,
    ⟨(inTile (kcopy 4 [(0, 11, false), (1, 11, false), (2, 1065353216, false), (3, 2143289361, false)])), (kcopy 4 [(0, 11, false), (1, 11, false), (2, 1065353216, false), (3, 2143289361, false)]), by decide +kernel⟩,
    ⟨(inTile (kcopy 4 [(0, 11, false), (1, 11, false), (2, 1065353216, false), (3, 2143289361, false)])), (kcopy 4 [(0, 11, false), (1, 11, false), (2, 1065353216, false), (3, 2143289361, false)]), by decide +kernel⟩,
    ⟨(inTile (kcopy 4 [(0, 11, false), (1, 11, false), (2, 1065353216, false), (3, 2143289361, false)])), (kcopy 4 [(0, 11, false), (1, 11, false), (2, 1065353216, false), (3, 2143289361, false)]), by decide +kernel⟩⟩

theorem witness_KolotteLoads_1 :
    (∃ (s : State) (k : KCopy), ((Instr.ldb issue 4).wf = true) ∧ (s.calm = true) ∧ (s.solo issue (.ld .ldb 4) = true) ∧ (s.copyOf issue = k) ∧ (k.entry (k.top - 1) = (1024, false)) ∧ (1024 < 2 ^ 32) ∧ (false = false) ∧ ((k.cap 4).usable = true) ∧ ((k.cap 4).perm 0 = true) ∧ ((k.cap 4).covers ((k.cap 4).base + 1024) 1 = true) ∧ (((k.cap 4).base + 1024) % 1 = 0) ∧ (inOwn ((k.cap 4).base + 1024) 1 = true) ∧ ((s.kx issue.tile issue.copy).pairBad ((k.cap 4).base + 1024) 1 false = none) ∧ ((s.kx issue.tile issue.copy).readsFree ((k.cap 4).base + 1024) 1 = false) ∧ (s.rdMem (physOf issue.tile ((k.cap 4).base + 1024)) 1 = ((136, false), s)) ∧ ((k.sb.all fun e => !(decide (e.addr ≤ ((k.cap 4).base + 1024)) && decide (((k.cap 4).base + 1024) + 1 ≤ e.addr + e.n)) || (decide ((e.val >>> (8 * (((k.cap 4).base + 1024) - e.addr))) % 256 ^ 1 = 136) && (List.range ((((k.cap 4).base + 1024) + 1 + 7) / 8 - ((k.cap 4).base + 1024) / 8)).any (fun j => e.pois.getD (((k.cap 4).base + 1024) / 8 + j - e.addr / 8) false) == false)) = true) ∧ ((((s.tileH issue.tile).copies.zipIdx.all fun q => q.2 == issue.copy || q.1.sb.isEmpty) = true)))
    ∧ (∃ (s : State) (k : KCopy), ((Instr.ldb issue 4).wf = true) ∧ (s.calm = true) ∧ (s.solo issue (.ld .ldb 4) = true) ∧ (s.copyOf issue = k) ∧ (k.entry (k.top - 1) = (5120, false)) ∧ (5120 < 2 ^ 32) ∧ (false = false) ∧ ((k.cap 4).usable = true) ∧ ((k.cap 4).perm 0 = true) ∧ ((k.cap 4).covers ((k.cap 4).base + 5120) 1 = true) ∧ (((k.cap 4).base + 5120) % 1 = 0) ∧ (inOwn ((k.cap 4).base + 5120) 1 = true) ∧ ((s.kx issue.tile issue.copy).pairBad ((k.cap 4).base + 5120) 1 false = none) ∧ ((s.kx issue.tile issue.copy).readsFree ((k.cap 4).base + 5120) 1 = true) ∧ (s.rdMem (physOf issue.tile ((k.cap 4).base + 5120)) 1 = ((136, false), s)) ∧ ((k.sb.all fun e => !(decide (e.addr ≤ ((k.cap 4).base + 5120)) && decide (((k.cap 4).base + 5120) + 1 ≤ e.addr + e.n)) || (decide ((e.val >>> (8 * (((k.cap 4).base + 5120) - e.addr))) % 256 ^ 1 = 136) && (List.range ((((k.cap 4).base + 5120) + 1 + 7) / 8 - ((k.cap 4).base + 5120) / 8)).any (fun j => e.pois.getD (((k.cap 4).base + 5120) / 8 + j - e.addr / 8) false) == false)) = true) ∧ ((((s.tileH issue.tile).copies.zipIdx.all fun q => q.2 == issue.copy || q.1.sb.isEmpty) = true)))
    ∧ (∃ (s : State) (k : KCopy), ((Instr.ldb issue 1).wf = true) ∧ (s.calm = true) ∧ (s.solo issue (.ld .ldb 1) = true) ∧ (s.copyOf issue = k) ∧ (k.entry (k.top - 1) = (4096, false)) ∧ (4096 < 2 ^ 32) ∧ (false = false) ∧ ((k.cap 1).usable = true) ∧ ((k.cap 1).perm 0 = true) ∧ ((k.cap 1).covers ((k.cap 1).base + 4096) 1 = true) ∧ (((k.cap 1).base + 4096) % 1 = 0) ∧ (inOwn ((k.cap 1).base + 4096) 1 = false) ∧ (((List.range 1).all fun j => tileMapped (((k.cap 1).base + 4096) + j)) = true) ∧ (pageAllowed (k.cap 1) ((k.cap 1).base + 4096) false = true) ∧ (inPages ((k.cap 1).base + 4096) = false) ∧ (stallsAt s issue.tile ((k.cap 1).base + 4096) = false) ∧ ((s.tileH issue.tile).ocb = []))
    ∧ (∃ (s : State) (k : KCopy), ((Instr.ldb issue 5).wf = true) ∧ (s.calm = true) ∧ (s.solo issue (.ld .ldb 5) = true) ∧ (s.copyOf issue = k) ∧ (k.entry (k.top - 1) = (1024, false)) ∧ (1024 < 2 ^ 32) ∧ ((s.kx issue.tile issue.copy).canEnter 3 (⟨ownBase + 0x2000 + 0x1000 * 2 ^ 40 + 0x1FF * 2 ^ 80, true⟩ : Cap) = true) ∧ (false = false) ∧ (((k.cap 5).usable = false ∨ (k.cap 5).perm 0 = false)))
    ∧ (∃ (s : State) (k : KCopy), ((Instr.ldb issue 5).wf = true) ∧ (s.calm = true) ∧ (s.solo issue (.ld .ldb 5) = true) ∧ (s.copyOf issue = k) ∧ (k.entry (k.top - 1) = (4096, false)) ∧ (4096 < 2 ^ 32) ∧ ((s.kx issue.tile issue.copy).canEnter 4 (⟨ownBase + 0x2000 + 0x1000 * 2 ^ 40 + 0x1FF * 2 ^ 80, true⟩ : Cap) = true) ∧ (false = false) ∧ ((k.cap 5).usable = true) ∧ ((k.cap 5).perm 0 = true) ∧ ((k.cap 5).covers ((k.cap 5).base + 4096) 1 = false) ∧ (inPages ((k.cap 5).base + 4096) = false))
    ∧ (∃ (s : State) (k : KCopy), ((Instr.ldbu issue 4).wf = true) ∧ (s.calm = true) ∧ (s.solo issue (.ld .ldbu 4) = true) ∧ (s.copyOf issue = k) ∧ (k.entry (k.top - 1) = (1024, false)) ∧ (1024 < 2 ^ 32) ∧ (false = false) ∧ ((k.cap 4).usable = true) ∧ ((k.cap 4).perm 0 = true) ∧ ((k.cap 4).covers ((k.cap 4).base + 1024) 1 = true) ∧ (((k.cap 4).base + 1024) % 1 = 0) ∧ (inOwn ((k.cap 4).base + 1024) 1 = true) ∧ ((s.kx issue.tile issue.copy).pairBad ((k.cap 4).base + 1024) 1 false = none) ∧ ((s.kx issue.tile issue.copy).readsFree ((k.cap 4).base + 1024) 1 = false) ∧ (s.rdMem (physOf issue.tile ((k.cap 4).base + 1024)) 1 = ((136, false), s)) ∧ ((k.sb.all fun e => !(decide (e.addr ≤ ((k.cap 4).base + 1024)) && decide (((k.cap 4).base + 1024) + 1 ≤ e.addr + e.n)) || (decide ((e.val >>> (8 * (((k.cap 4).base + 1024) - e.addr))) % 256 ^ 1 = 136) && (List.range ((((k.cap 4).base + 1024) + 1 + 7) / 8 - ((k.cap 4).base + 1024) / 8)).any (fun j => e.pois.getD (((k.cap 4).base + 1024) / 8 + j - e.addr / 8) false) == false)) = true) ∧ ((((s.tileH issue.tile).copies.zipIdx.all fun q => q.2 == issue.copy || q.1.sb.isEmpty) = true))) :=
    ⟨⟨(((((State.reset.wr (pgTile 5) 8 1).wrMem (physOf 5 (ownBase + 0x400)) 16 0xF1E2D3C4B5A69788).setTag (physOf 5 (ownBase + 0x400)) 7).setBank (pgEccT 5) 0 { inited := true }).setTile 5 { mode := 3, work := true, copies := [{ kcopy 3 [(0, 11, false), (1, 11, false), (2, 1024, false)] with caps := (setAt (setAt (setAt (List.replicate 16 {}) 0 Cap.all) 1 Cap.all) 4 ⟨ownBase + 0x80000 * 2 ^ 40 + 0x1FF * 2 ^ 80, true⟩) }, {}, {}] }), ({ kcopy 3 [(0, 11, false), (1, 11, false), (2, 1024, false)] with caps := (setAt (setAt (setAt (List.replicate 16 {}) 0 Cap.all) 1 Cap.all) 4 ⟨ownBase + 0x80000 * 2 ^ 40 + 0x1FF * 2 ^ 80, true⟩) } : KCopy), by decide +kernel⟩,
    ⟨(((((State.reset.wr (pgTile 5) 8 1).wrMem (physOf 5 (ownBase + 0x1400)) 16 0xF1E2D3C4B5A69788).setTag (physOf 5 (ownBase + 0x1400)) 7).setBank (pgEccT 5) 0 { inited := true }).setTile 5 { mode := 1, work := true, copies := [{ kcopy 3 [(0, 11, false), (1, 11, false), (2, 5120, false)] with caps := (setAt (setAt (setAt (List.replicate 16 {}) 0 Cap.all) 1 Cap.all) 4 ⟨ownBase + 0x80000 * 2 ^ 40 + 0x1FF * 2 ^ 80, true⟩) }, {}, {}], freeBase := 1, freeSize := 16 }), ({ kcopy 3 [(0, 11, false), (1, 11, false), (2, 5120, false)] with caps := (setAt (setAt (setAt (List.replicate 16 {}) 0 Cap.all) 1 Cap.all) 4 ⟨ownBase + 0x80000 * 2 ^ 40 + 0x1FF * 2 ^ 80, true⟩) } : KCopy), by decide +kernel⟩,
    ⟨(inTile (kcopy 3 [(0, 11, false), (1, 11, false), (2, 4096, false)])), (kcopy 3 [(0, 11, false), (1, 11, false), (2, 4096, false)]), by decide +kernel⟩,
    ⟨(((((State.reset.wr (pgTile 5) 8 1).wrMem (physOf 5 (ownBase + 0x3FE00 + 16 * 3)) 16 (ownBase + 0x2000 + 0x1000 * 2 ^ 40 + 0x1FF * 2 ^ 80)).setTag (physOf 5 (ownBase + 0x3FE00 + 16 * 3)) 7).setBank (pgEccT 5) 0 { inited := true }).setTile 5 { mode := 3, work := true, copies := [{ run := true, pc := ownBase + 0x100, rsp := ownBase + 0x1FF80, depth := 3, file := [(0, 11, false), (1, 11, false), (2, 1024, false)], caps := setAt (setAt (setAt (List.replicate 16 {}) 0 Cap.all) 1 ⟨ownBase + 0x10000 + 0x10000 * 2 ^ 40 + 0x1FF * 2 ^ 80, true⟩) 5 {} }, {}, {}] }), ({ run := true, pc := ownBase + 0x100, rsp := ownBase + 0x1FF80, depth := 3, file := [(0, 11, false), (1, 11, false), (2, 1024, false)], caps := setAt (setAt (setAt (List.replicate 16 {}) 0 Cap.all) 1 ⟨ownBase + 0x10000 + 0x10000 * 2 ^ 40 + 0x1FF * 2 ^ 80, true⟩) 5 {} } : KCopy), by decide +kernel⟩,
    ⟨(((((State.reset.wr (pgTile 5) 8 1).wrMem (physOf 5 (ownBase + 0x3FE00 + 16 * 4)) 16 (ownBase + 0x2000 + 0x1000 * 2 ^ 40 + 0x1FF * 2 ^ 80)).setTag (physOf 5 (ownBase + 0x3FE00 + 16 * 4)) 7).setBank (pgEccT 5) 0 { inited := true }).setTile 5 { mode := 3, work := true, copies := [{ run := true, pc := ownBase + 0x100, rsp := ownBase + 0x1FF80, depth := 3, file := [(0, 11, false), (1, 11, false), (2, 4096, false)], caps := setAt (setAt (setAt (List.replicate 16 {}) 0 Cap.all) 1 ⟨ownBase + 0x10000 + 0x10000 * 2 ^ 40 + 0x1FF * 2 ^ 80, true⟩) 5 ⟨ownBase + 0x1000 * 2 ^ 40 + 0x1FF * 2 ^ 80, true⟩ }, {}, {}] }), ({ run := true, pc := ownBase + 0x100, rsp := ownBase + 0x1FF80, depth := 3, file := [(0, 11, false), (1, 11, false), (2, 4096, false)], caps := setAt (setAt (setAt (List.replicate 16 {}) 0 Cap.all) 1 ⟨ownBase + 0x10000 + 0x10000 * 2 ^ 40 + 0x1FF * 2 ^ 80, true⟩) 5 ⟨ownBase + 0x1000 * 2 ^ 40 + 0x1FF * 2 ^ 80, true⟩ } : KCopy), by decide +kernel⟩,
    ⟨(((((State.reset.wr (pgTile 5) 8 1).wrMem (physOf 5 (ownBase + 0x400)) 16 0xF1E2D3C4B5A69788).setTag (physOf 5 (ownBase + 0x400)) 7).setBank (pgEccT 5) 0 { inited := true }).setTile 5 { mode := 3, work := true, copies := [{ kcopy 3 [(0, 11, false), (1, 11, false), (2, 1024, false)] with caps := (setAt (setAt (setAt (List.replicate 16 {}) 0 Cap.all) 1 Cap.all) 4 ⟨ownBase + 0x80000 * 2 ^ 40 + 0x1FF * 2 ^ 80, true⟩) }, {}, {}] }), ({ kcopy 3 [(0, 11, false), (1, 11, false), (2, 1024, false)] with caps := (setAt (setAt (setAt (List.replicate 16 {}) 0 Cap.all) 1 Cap.all) 4 ⟨ownBase + 0x80000 * 2 ^ 40 + 0x1FF * 2 ^ 80, true⟩) } : KCopy), by decide +kernel⟩⟩

theorem witness_KolotteLoads_2 :
    (∃ (s : State) (k : KCopy), ((Instr.ldbu issue 4).wf = true) ∧ (s.calm = true) ∧ (s.solo issue (.ld .ldbu 4) = true) ∧ (s.copyOf issue = k) ∧ (k.entry (k.top - 1) = (5120, false)) ∧ (5120 < 2 ^ 32) ∧ (false = false) ∧ ((k.cap 4).usable = true) ∧ ((k.cap 4).perm 0 = true) ∧ ((k.cap 4).covers ((k.cap 4).base + 5120) 1 = true) ∧ (((k.cap 4).base + 5120) % 1 = 0) ∧ (inOwn ((k.cap 4).base + 5120) 1 = true) ∧ ((s.kx issue.tile issue.copy).pairBad ((k.cap 4).base + 5120) 1 false = none) ∧ ((s.kx issue.tile issue.copy).readsFree ((k.cap 4).base + 5120) 1 = true) ∧ (s.rdMem (physOf issue.tile ((k.cap 4).base + 5120)) 1 = ((136, false), s)) ∧ ((k.sb.all fun e => !(decide (e.addr ≤ ((k.cap 4).base + 5120)) && decide (((k.cap 4).base + 5120) + 1 ≤ e.addr + e.n)) || (decide ((e.val >>> (8 * (((k.cap 4).base + 5120) - e.addr))) % 256 ^ 1 = 136) && (List.range ((((k.cap 4).base + 5120) + 1 + 7) / 8 - ((k.cap 4).base + 5120) / 8)).any (fun j => e.pois.getD (((k.cap 4).base + 5120) / 8 + j - e.addr / 8) false) == false)) = true) ∧ ((((s.tileH issue.tile).copies.zipIdx.all fun q => q.2 == issue.copy || q.1.sb.isEmpty) = true)))
    ∧ (∃ (s : State) (k : KCopy), ((Instr.ldbu issue 1).wf = true) ∧ (s.calm = true) ∧ (s.solo issue (.ld .ldbu 1) = true) ∧ (s.copyOf issue = k) ∧ (k.entry (k.top - 1) = (4096, false)) ∧ (4096 < 2 ^ 32) ∧ (false = false) ∧ ((k.cap 1).usable = true) ∧ ((k.cap 1).perm 0 = true) ∧ ((k.cap 1).covers ((k.cap 1).base + 4096) 1 = true) ∧ (((k.cap 1).base + 4096) % 1 = 0) ∧ (inOwn ((k.cap 1).base + 4096) 1 = false) ∧ (((List.range 1).all fun j => tileMapped (((k.cap 1).base + 4096) + j)) = true) ∧ (pageAllowed (k.cap 1) ((k.cap 1).base + 4096) false = true) ∧ (inPages ((k.cap 1).base + 4096) = false) ∧ (stallsAt s issue.tile ((k.cap 1).base + 4096) = false) ∧ ((s.tileH issue.tile).ocb = []))
    ∧ (∃ (s : State) (k : KCopy), ((Instr.ldbu issue 5).wf = true) ∧ (s.calm = true) ∧ (s.solo issue (.ld .ldbu 5) = true) ∧ (s.copyOf issue = k) ∧ (k.entry (k.top - 1) = (1024, false)) ∧ (1024 < 2 ^ 32) ∧ ((s.kx issue.tile issue.copy).canEnter 3 (⟨ownBase + 0x2000 + 0x1000 * 2 ^ 40 + 0x1FF * 2 ^ 80, true⟩ : Cap) = true) ∧ (false = false) ∧ (((k.cap 5).usable = false ∨ (k.cap 5).perm 0 = false)))
    ∧ (∃ (s : State) (k : KCopy), ((Instr.ldbu issue 5).wf = true) ∧ (s.calm = true) ∧ (s.solo issue (.ld .ldbu 5) = true) ∧ (s.copyOf issue = k) ∧ (k.entry (k.top - 1) = (4096, false)) ∧ (4096 < 2 ^ 32) ∧ ((s.kx issue.tile issue.copy).canEnter 4 (⟨ownBase + 0x2000 + 0x1000 * 2 ^ 40 + 0x1FF * 2 ^ 80, true⟩ : Cap) = true) ∧ (false = false) ∧ ((k.cap 5).usable = true) ∧ ((k.cap 5).perm 0 = true) ∧ ((k.cap 5).covers ((k.cap 5).base + 4096) 1 = false) ∧ (inPages ((k.cap 5).base + 4096) = false))
    ∧ (∃ (s : State) (k : KCopy), ((Instr.ldh issue 4).wf = true) ∧ (s.calm = true) ∧ (s.solo issue (.ld .ldh 4) = true) ∧ (s.copyOf issue = k) ∧ (k.entry (k.top - 1) = (1024, false)) ∧ (1024 < 2 ^ 32) ∧ (false = false) ∧ ((k.cap 4).usable = true) ∧ ((k.cap 4).perm 0 = true) ∧ ((k.cap 4).covers ((k.cap 4).base + 1024) 2 = true) ∧ (((k.cap 4).base + 1024) % 2 = 0) ∧ (inOwn ((k.cap 4).base + 1024) 2 = true) ∧ ((s.kx issue.tile issue.copy).pairBad ((k.cap 4).base + 1024) 2 false = none) ∧ ((s.kx issue.tile issue.copy).readsFree ((k.cap 4).base + 1024) 2 = false) ∧ (s.rdMem (physOf issue.tile ((k.cap 4).base + 1024)) 2 = ((38792, false), s)) ∧ ((k.sb.all fun e => !(decide (e.addr ≤ ((k.cap 4).base + 1024)) && decide (((k.cap 4).base + 1024) + 2 ≤ e.addr + e.n)) || (decide ((e.val >>> (8 * (((k.cap 4).base + 1024) - e.addr))) % 256 ^ 2 = 38792) && (List.range ((((k.cap 4).base + 1024) + 2 + 7) / 8 - ((k.cap 4).base + 1024) / 8)).any (fun j => e.pois.getD (((k.cap 4).base + 1024) / 8 + j - e.addr / 8) false) == false)) = true) ∧ ((((s.tileH issue.tile).copies.zipIdx.all fun q => q.2 == issue.copy || q.1.sb.isEmpty) = true)))
    ∧ (∃ (s : State) (k : KCopy), ((Instr.ldh issue 4).wf = true) ∧ (s.calm = true) ∧ (s.solo issue (.ld .ldh 4) = true) ∧ (s.copyOf issue = k) ∧ (k.entry (k.top - 1) = (5120, false)) ∧ (5120 < 2 ^ 32) ∧ (false = false) ∧ ((k.cap 4).usable = true) ∧ ((k.cap 4).perm 0 = true) ∧ ((k.cap 4).covers ((k.cap 4).base + 5120) 2 = true) ∧ (((k.cap 4).base + 5120) % 2 = 0) ∧ (inOwn ((k.cap 4).base + 5120) 2 = true) ∧ ((s.kx issue.tile issue.copy).pairBad ((k.cap 4).base + 5120) 2 false = none) ∧ ((s.kx issue.tile issue.copy).readsFree ((k.cap 4).base + 5120) 2 = true) ∧ (s.rdMem (physOf issue.tile ((k.cap 4).base + 5120)) 2 = ((38792, false), s)) ∧ ((k.sb.all fun e => !(decide (e.addr ≤ ((k.cap 4).base + 5120)) && decide (((k.cap 4).base + 5120) + 2 ≤ e.addr + e.n)) || (decide ((e.val >>> (8 * (((k.cap 4).base + 5120) - e.addr))) % 256 ^ 2 = 38792) && (List.range ((((k.cap 4).base + 5120) + 2 + 7) / 8 - ((k.cap 4).base + 5120) / 8)).any (fun j => e.pois.getD (((k.cap 4).base + 5120) / 8 + j - e.addr / 8) false) == false)) = true) ∧ ((((s.tileH issue.tile).copies.zipIdx.all fun q => q.2 == issue.copy || q.1.sb.isEmpty) = true))) :=
    ⟨⟨(((((State.reset.wr (pgTile 5) 8 1).wrMem (physOf 5 (ownBase + 0x1400)) 16 0xF1E2D3C4B5A69788).setTag (physOf 5 (ownBase + 0x1400)) 7).setBank (pgEccT 5) 0 { inited := true }).setTile 5 { mode := 1, work := true, copies := [{ kcopy 3 [(0, 11, false), (1, 11, false), (2, 5120, false)] with caps := (setAt (setAt (setAt (List.replicate 16 {}) 0 Cap.all) 1 Cap.all) 4 ⟨ownBase + 0x80000 * 2 ^ 40 + 0x1FF * 2 ^ 80, true⟩) }, {}, {}], freeBase := 1, freeSize := 16 }), ({ kcopy 3 [(0, 11, false), (1, 11, false), (2, 5120, false)] with caps := (setAt (setAt (setAt (List.replicate 16 {}) 0 Cap.all) 1 Cap.all) 4 ⟨ownBase + 0x80000 * 2 ^ 40 + 0x1FF * 2 ^ 80, true⟩) } : KCopy), by decide +kernel⟩,
    ⟨(inTile (kcopy 3 [(0, 11, false), (1, 11, false), (2, 4096, false)])), (kcopy 3 [(0, 11, false), (1, 11, false), (2, 4096, false)]), by decide +kernel⟩,
    ⟨(((((State.reset.wr (pgTile 5) 8 1).wrMem (physOf 5 (ownBase + 0x3FE00 + 16 * 3)) 16 (ownBase + 0x2000 + 0x1000 * 2 ^ 40 + 0x1FF * 2 ^ 80)).setTag (physOf 5 (ownBase + 0x3FE00 + 16 * 3)) 7).setBank (pgEccT 5) 0 { inited := true }).setTile 5 { mode := 3, work := true, copies := [{ run := true, pc := ownBase + 0x100, rsp := ownBase + 0x1FF80, depth := 3, file := [(0, 11, false), (1, 11, false), (2, 1024, false)], caps := setAt (setAt (setAt (List.replicate 16 {}) 0 Cap.all) 1 ⟨ownBase + 0x10000 + 0x10000 * 2 ^ 40 + 0x1FF * 2 ^ 80, true⟩) 5 {} }, {}, {}] }), ({ run := true, pc := ownBase + 0x100, rsp := ownBase + 0x1FF80, depth := 3, file := [(0, 11, false), (1, 11, false), (2, 1024, false)], caps := setAt (setAt (setAt (List.replicate 16 {}) 0 Cap.all) 1 ⟨ownBase + 0x10000 + 0x10000 * 2 ^ 40 + 0x1FF * 2 ^ 80, true⟩) 5 {} } : KCopy), by decide +kernel⟩,
    ⟨(((((State.reset.wr (pgTile 5) 8 1).wrMem (physOf 5 (ownBase + 0x3FE00 + 16 * 4)) 16 (ownBase + 0x2000 + 0x1000 * 2 ^ 40 + 0x1FF * 2 ^ 80)).setTag (physOf 5 (ownBase + 0x3FE00 + 16 * 4)) 7).setBank (pgEccT 5) 0 { inited := true }).setTile 5 { mode := 3, work := true, copies := [{ run := true, pc := ownBase + 0x100, rsp := ownBase + 0x1FF80, depth := 3, file := [(0, 11, false), (1, 11, false), (2, 4096, false)], caps := setAt (setAt (setAt (List.replicate 16 {}) 0 Cap.all) 1 ⟨ownBase + 0x10000 + 0x10000 * 2 ^ 40 + 0x1FF * 2 ^ 80, true⟩) 5 ⟨ownBase + 0x1000 * 2 ^ 40 + 0x1FF * 2 ^ 80, true⟩ }, {}, {}] }), ({ run := true, pc := ownBase + 0x100, rsp := ownBase + 0x1FF80, depth := 3, file := [(0, 11, false), (1, 11, false), (2, 4096, false)], caps := setAt (setAt (setAt (List.replicate 16 {}) 0 Cap.all) 1 ⟨ownBase + 0x10000 + 0x10000 * 2 ^ 40 + 0x1FF * 2 ^ 80, true⟩) 5 ⟨ownBase + 0x1000 * 2 ^ 40 + 0x1FF * 2 ^ 80, true⟩ } : KCopy), by decide +kernel⟩,
    ⟨(((((State.reset.wr (pgTile 5) 8 1).wrMem (physOf 5 (ownBase + 0x400)) 16 0xF1E2D3C4B5A69788).setTag (physOf 5 (ownBase + 0x400)) 7).setBank (pgEccT 5) 0 { inited := true }).setTile 5 { mode := 3, work := true, copies := [{ kcopy 3 [(0, 11, false), (1, 11, false), (2, 1024, false)] with caps := (setAt (setAt (setAt (List.replicate 16 {}) 0 Cap.all) 1 Cap.all) 4 ⟨ownBase + 0x80000 * 2 ^ 40 + 0x1FF * 2 ^ 80, true⟩) }, {}, {}] }), ({ kcopy 3 [(0, 11, false), (1, 11, false), (2, 1024, false)] with caps := (setAt (setAt (setAt (List.replicate 16 {}) 0 Cap.all) 1 Cap.all) 4 ⟨ownBase + 0x80000 * 2 ^ 40 + 0x1FF * 2 ^ 80, true⟩) } : KCopy), by decide +kernel⟩,
    ⟨(((((State.reset.wr (pgTile 5) 8 1).wrMem (physOf 5 (ownBase + 0x1400)) 16 0xF1E2D3C4B5A69788).setTag (physOf 5 (ownBase + 0x1400)) 7).setBank (pgEccT 5) 0 { inited := true }).setTile 5 { mode := 1, work := true, copies := [{ kcopy 3 [(0, 11, false), (1, 11, false), (2, 5120, false)] with caps := (setAt (setAt (setAt (List.replicate 16 {}) 0 Cap.all) 1 Cap.all) 4 ⟨ownBase + 0x80000 * 2 ^ 40 + 0x1FF * 2 ^ 80, true⟩) }, {}, {}], freeBase := 1, freeSize := 16 }), ({ kcopy 3 [(0, 11, false), (1, 11, false), (2, 5120, false)] with caps := (setAt (setAt (setAt (List.replicate 16 {}) 0 Cap.all) 1 Cap.all) 4 ⟨ownBase + 0x80000 * 2 ^ 40 + 0x1FF * 2 ^ 80, true⟩) } : KCopy), by decide +kernel⟩⟩

theorem witness_KolotteLoads_3 :
    (∃ (s : State) (k : KCopy), ((Instr.ldh issue 1).wf = true) ∧ (s.calm = true) ∧ (s.solo issue (.ld .ldh 1) = true) ∧ (s.copyOf issue = k) ∧ (k.entry (k.top - 1) = (4096, false)) ∧ (4096 < 2 ^ 32) ∧ (false = false) ∧ ((k.cap 1).usable = true) ∧ ((k.cap 1).perm 0 = true) ∧ ((k.cap 1).covers ((k.cap 1).base + 4096) 2 = true) ∧ (((k.cap 1).base + 4096) % 2 = 0) ∧ (inOwn ((k.cap 1).base + 4096) 1 = false) ∧ (((List.range 2).all fun j => tileMapped (((k.cap 1).base + 4096) + j)) = true) ∧ (pageAllowed (k.cap 1) ((k.cap 1).base + 4096) false = true) ∧ (inPages ((k.cap 1).base + 4096) = false) ∧ (stallsAt s issue.tile ((k.cap 1).base + 4096) = false) ∧ ((s.tileH issue.tile).ocb = []))
    ∧ (∃ (s : State) (k : KCopy), ((Instr.ldh issue 5).wf = true) ∧ (s.calm = true) ∧ (s.solo issue (.ld .ldh 5) = true) ∧ (s.copyOf issue = k) ∧ (k.entry (k.top - 1) = (1024, false)) ∧ (1024 < 2 ^ 32) ∧ ((s.kx issue.tile issue.copy).canEnter 3 (⟨ownBase + 0x2000 + 0x1000 * 2 ^ 40 + 0x1FF * 2 ^ 80, true⟩ : Cap) = true) ∧ (false = false) ∧ (((k.cap 5).usable = false ∨ (k.cap 5).perm 0 = false)))
    ∧ (∃ (s : State) (k : KCopy), ((Instr.ldh issue 5).wf = true) ∧ (s.calm = true) ∧ (s.solo issue (.ld .ldh 5) = true) ∧ (s.copyOf issue = k) ∧ (k.entry (k.top - 1) = (4096, false)) ∧ (4096 < 2 ^ 32) ∧ ((s.kx issue.tile issue.copy).canEnter 4 (⟨ownBase + 0x2000 + 0x1000 * 2 ^ 40 + 0x1FF * 2 ^ 80, true⟩ : Cap) = true) ∧ (false = false) ∧ ((k.cap 5).usable = true) ∧ ((k.cap 5).perm 0 = true) ∧ ((k.cap 5).covers ((k.cap 5).base + 4096) 2 = false) ∧ (inPages ((k.cap 5).base + 4096) = false))
    ∧ (∃ (s : State) (k : KCopy), ((Instr.ldh issue 5).wf = true) ∧ (s.calm = true) ∧ (s.solo issue (.ld .ldh 5) = true) ∧ (s.copyOf issue = k) ∧ (k.entry (k.top - 1) = (1025, false)) ∧ (1025 < 2 ^ 32) ∧ ((s.kx issue.tile issue.copy).canEnter 6 (⟨ownBase + 0x2000 + 0x1000 * 2 ^ 40 + 0x1FF * 2 ^ 80, true⟩ : Cap) = true) ∧ (false = false) ∧ ((k.cap 5).usable = true) ∧ ((k.cap 5).perm 0 = true) ∧ ((k.cap 5).covers ((k.cap 5).base + 1025) 2 = true) ∧ (((k.cap 5).base + 1025) % 2 ≠ 0) ∧ (inOwn ((k.cap 5).base + 1025) 2 = true) ∧ ((s.kx issue.tile issue.copy).pairBad ((k.cap 5).base + 1025) 2 false = none))
    ∧ (∃ (s : State) (k : KCopy), ((Instr.ldhu issue 4).wf = true) ∧ (s.calm = true) ∧ (s.solo issue (.ld .ldhu 4) = true) ∧ (s.copyOf issue = k) ∧ (k.entry (k.top - 1) = (1024, false)) ∧ (1024 < 2 ^ 32) ∧ (false = false) ∧ ((k.cap 4).usable = true) ∧ ((k.cap 4).perm 0 = true) ∧ ((k.cap 4).covers ((k.cap 4).base + 1024) 2 = true) ∧ (((k.cap 4).base + 1024) % 2 = 0) ∧ (inOwn ((k.cap 4).base + 1024) 2 = true) ∧ ((s.kx issue.tile issue.copy).pairBad ((k.cap 4).base + 1024) 2 false = none) ∧ ((s.kx issue.tile issue.copy).readsFree ((k.cap 4).base + 1024) 2 = false) ∧ (s.rdMem (physOf issue.tile ((k.cap 4).base + 1024)) 2 = ((38792, false), s)) ∧ ((k.sb.all fun e => !(decide (e.addr ≤ ((k.cap 4).base + 1024)) && decide (((k.cap 4).base + 1024) + 2 ≤ e.addr + e.n)) || (decide ((e.val >>> (8 * (((k.cap 4).base + 1024) - e.addr))) % 256 ^ 2 = 38792) && (List.range ((((k.cap 4).base + 1024) + 2 + 7) / 8 - ((k.cap 4).base + 1024) / 8)).any (fun j => e.pois.getD (((k.cap 4).base + 1024) / 8 + j - e.addr / 8) false) == false)) = true) ∧ ((((s.tileH issue.tile).copies.zipIdx.all fun q => q.2 == issue.copy || q.1.sb.isEmpty) = true)))
    ∧ (∃ (s : State) (k : KCopy), ((Instr.ldhu issue 4).wf = true) ∧ (s.calm = true) ∧ (s.solo issue (.ld .ldhu 4) = true) ∧ (s.copyOf issue = k) ∧ (k.entry (k.top - 1) = (5120, false)) ∧ (5120 < 2 ^ 32) ∧ (false = false) ∧ ((k.cap 4).usable = true) ∧ ((k.cap 4).perm 0 = true) ∧ ((k.cap 4).covers ((k.cap 4).base + 5120) 2 = true) ∧ (((k.cap 4).base + 5120) % 2 = 0) ∧ (inOwn ((k.cap 4).base + 5120) 2 = true) ∧ ((s.kx issue.tile issue.copy).pairBad ((k.cap 4).base + 5120) 2 false = none) ∧ ((s.kx issue.tile issue.copy).readsFree ((k.cap 4).base + 5120) 2 = true) ∧ (s.rdMem (physOf issue.tile ((k.cap 4).base + 5120)) 2 = ((38792, false), s)) ∧ ((k.sb.all fun e => !(decide (e.addr ≤ ((k.cap 4).base + 5120)) && decide (((k.cap 4).base + 5120) + 2 ≤ e.addr + e.n)) || (decide ((e.val >>> (8 * (((k.cap 4).base + 5120) - e.addr))) % 256 ^ 2 = 38792) && (List.range ((((k.cap 4).base + 5120) + 2 + 7) / 8 - ((k.cap 4).base + 5120) / 8)).any (fun j => e.pois.getD (((k.cap 4).base + 5120) / 8 + j - e.addr / 8) false) == false)) = true) ∧ ((((s.tileH issue.tile).copies.zipIdx.all fun q => q.2 == issue.copy || q.1.sb.isEmpty) = true))) :=
    ⟨⟨(inTile (kcopy 3 [(0, 11, false), (1, 11, false), (2, 4096, false)])), (kcopy 3 [(0, 11, false), (1, 11, false), (2, 4096, false)]), by decide +kernel⟩,
    ⟨(((((State.reset.wr (pgTile 5) 8 1).wrMem (physOf 5 (ownBase + 0x3FE00 + 16 * 3)) 16 (ownBase + 0x2000 + 0x1000 * 2 ^ 40 + 0x1FF * 2 ^ 80)).setTag (physOf 5 (ownBase + 0x3FE00 + 16 * 3)) 7).setBank (pgEccT 5) 0 { inited := true }).setTile 5 { mode := 3, work := true, copies := [{ run := true, pc := ownBase + 0x100, rsp := ownBase + 0x1FF80, depth := 3, file := [(0, 11, false), (1, 11, false), (2, 1024, false)], caps := setAt (setAt (setAt (List.replicate 16 {}) 0 Cap.all) 1 ⟨ownBase + 0x10000 + 0x10000 * 2 ^ 40 + 0x1FF * 2 ^ 80, true⟩) 5 {} }, {}, {}] }), ({ run := true, pc := ownBase + 0x100, rsp := ownBase + 0x1FF80, depth := 3, file := [(0, 11, false), (1, 11, false), (2, 1024, false)], caps := setAt (setAt (setAt (List.replicate 16 {}) 0 Cap.all) 1 ⟨ownBase + 0x10000 + 0x10000 * 2 ^ 40 + 0x1FF * 2 ^ 80, true⟩) 5 {} } : KCopy), by decide +kernel⟩,
    ⟨(((((State.reset.wr (pgTile 5) 8 1).wrMem (physOf 5 (ownBase + 0x3FE00 + 16 * 4)) 16 (ownBase + 0x2000 + 0x1000 * 2 ^ 40 + 0x1FF * 2 ^ 80)).setTag (physOf 5 (ownBase + 0x3FE00 + 16 * 4)) 7).setBank (pgEccT 5) 0 { inited := true }).setTile 5 { mode := 3, work := true, copies := [{ run := true, pc := ownBase + 0x100, rsp := ownBase + 0x1FF80, depth := 3, file := [(0, 11, false), (1, 11, false), (2, 4096, false)], caps := setAt (setAt (setAt (List.replicate 16 {}) 0 Cap.all) 1 ⟨ownBase + 0x10000 + 0x10000 * 2 ^ 40 + 0x1FF * 2 ^ 80, true⟩) 5 ⟨ownBase + 0x1000 * 2 ^ 40 + 0x1FF * 2 ^ 80, true⟩ }, {}, {}] }), ({ run := true, pc := ownBase + 0x100, rsp := ownBase + 0x1FF80, depth := 3, file := [(0, 11, false), (1, 11, false), (2, 4096, false)], caps := setAt (setAt (setAt (List.replicate 16 {}) 0 Cap.all) 1 ⟨ownBase + 0x10000 + 0x10000 * 2 ^ 40 + 0x1FF * 2 ^ 80, true⟩) 5 ⟨ownBase + 0x1000 * 2 ^ 40 + 0x1FF * 2 ^ 80, true⟩ } : KCopy), by decide +kernel⟩,
    ⟨(((((State.reset.wr (pgTile 5) 8 1).wrMem (physOf 5 (ownBase + 0x3FE00 + 16 * 6)) 16 (ownBase + 0x2000 + 0x1000 * 2 ^ 40 + 0x1FF * 2 ^ 80)).setTag (physOf 5 (ownBase + 0x3FE00 + 16 * 6)) 7).setBank (pgEccT 5) 0 { inited := true }).setTile 5 { mode := 3, work := true, copies := [{ run := true, pc := ownBase + 0x100, rsp := ownBase + 0x1FF80, depth := 3, file := [(0, 11, false), (1, 11, false), (2, 1025, false)], caps := setAt (setAt (setAt (List.replicate 16 {}) 0 Cap.all) 1 ⟨ownBase + 0x10000 + 0x10000 * 2 ^ 40 + 0x1FF * 2 ^ 80, true⟩) 5 ⟨ownBase + 0x1000 * 2 ^ 40 + 0x1FF * 2 ^ 80, true⟩ }, {}, {}] }), ({ run := true, pc := ownBase + 0x100, rsp := ownBase + 0x1FF80, depth := 3, file := [(0, 11, false), (1, 11, false), (2, 1025, false)], caps := setAt (setAt (setAt (List.replicate 16 {}) 0 Cap.all) 1 ⟨ownBase + 0x10000 + 0x10000 * 2 ^ 40 + 0x1FF * 2 ^ 80, true⟩) 5 ⟨ownBase + 0x1000 * 2 ^ 40 + 0x1FF * 2 ^ 80, true⟩ } : KCopy), by decide +kernel⟩,
    ⟨(((((State.reset.wr (pgTile 5) 8 1).wrMem (physOf 5 (ownBase + 0x400)) 16 0xF1E2D3C4B5A69788).setTag (physOf 5 (ownBase + 0x400)) 7).setBank (pgEccT 5) 0 { inited := true }).setTile 5 { mode := 3, work := true, copies := [{ kcopy 3 [(0, 11, false), (1, 11, false), (2, 1024, false)] with caps := (setAt (setAt (setAt (List.replicate 16 {}) 0 Cap.all) 1 Cap.all) 4 ⟨ownBase + 0x80000 * 2 ^ 40 + 0x1FF * 2 ^ 80, true⟩) }, {}, {}] }), ({ kcopy 3 [(0, 11, false), (1, 11, false), (2, 1024, false)] with caps := (setAt (setAt (setAt (List.replicate 16 {}) 0 Cap.all) 1 Cap.all) 4 ⟨ownBase + 0x80000 * 2 ^ 40 + 0x1FF * 2 ^ 80, true⟩) } : KCopy), by decide +kernel⟩,
    ⟨(((((State.reset.wr (pgTile 5) 8 1).wrMem (physOf 5 (ownBase + 0x1400)) 16 0xF1E2D3C4B5A69788).setTag (physOf 5 (ownBase + 0x1400)) 7).setBank (pgEccT 5) 0 { inited := true }).setTile 5 { mode := 1, work := true, copies := [{ kcopy 3 [(0, 11, false), (1, 11, false), (2, 5120, false)] with caps := (setAt (setAt (setAt (List.replicate 16 {}) 0 Cap.all) 1 Cap.all) 4 ⟨ownBase + 0x80000 * 2 ^ 40 + 0x1FF * 2 ^ 80, true⟩) }, {}, {}], freeBase := 1, freeSize := 16 }), ({ kcopy 3 [(0, 11, false), (1, 11, false), (2, 5120, false)] with caps := (setAt (setAt (setAt (List.replicate 16 {}) 0 Cap.all) 1 Cap.all) 4 ⟨ownBase + 0x80000 * 2 ^ 40 + 0x1FF * 2 ^ 80, true⟩) } : KCopy), by decide +kernel⟩⟩

theorem witness_KolotteLoads_4 :
    (∃ (s : State) (k : KCopy), ((Instr.ldhu issue 1).wf = true) ∧ (s.calm = true) ∧ (s.solo issue (.ld .ldhu 1) = true) ∧ (s.copyOf issue = k) ∧ (k.entry (k.top - 1) = (4096, false)) ∧ (4096 < 2 ^ 32) ∧ (false = false) ∧ ((k.cap 1).usable = true) ∧ ((k.cap 1).perm 0 = true) ∧ ((k.cap 1).covers ((k.cap 1).base + 4096) 2 = true) ∧ (((k.cap 1).base + 4096) % 2 = 0) ∧ (inOwn ((k.cap 1).base + 4096) 1 = false) ∧ (((List.range 2).all fun j => tileMapped (((k.cap 1).base + 4096) + j)) = true) ∧ (pageAllowed (k.cap 1) ((k.cap 1).base + 4096) false = true) ∧ (inPages ((k.cap 1).base + 4096) = false) ∧ (stallsAt s issue.tile ((k.cap 1).base + 4096) = false) ∧ ((s.tileH issue.tile).ocb = []))
    ∧ (∃ (s : State) (k : KCopy), ((Instr.ldhu issue 5).wf = true) ∧ (s.calm = true) ∧ (s.solo issue (.ld .ldhu 5) = true) ∧ (s.copyOf issue = k) ∧ (k.entry (k.top - 1) = (1024, false)) ∧ (1024 < 2 ^ 32) ∧ ((s.kx issue.tile issue.copy).canEnter 3 (⟨ownBase + 0x2000 + 0x1000 * 2 ^ 40 + 0x1FF * 2 ^ 80, true⟩ : Cap) = true) ∧ (false = false) ∧ (((k.cap 5).usable = false ∨ (k.cap 5).perm 0 = false)))
    ∧ (∃ (s : State) (k : KCopy), ((Instr.ldhu issue 5).wf = true) ∧ (s.calm = true) ∧ (s.solo issue (.ld .ldhu 5) = true) ∧ (s.copyOf issue = k) ∧ (k.entry (k.top - 1) = (4096, false)) ∧ (4096 < 2 ^ 32) ∧ ((s.kx issue.tile issue.copy).canEnter 4 (⟨ownBase + 0x2000 + 0x1000 * 2 ^ 40 + 0x1FF * 2 ^ 80, true⟩ : Cap) = true) ∧ (false = false) ∧ ((k.cap 5).usable = true) ∧ ((k.cap 5).perm 0 = true) ∧ ((k.cap 5).covers ((k.cap 5).base + 4096) 2 = false) ∧ (inPages ((k.cap 5).base + 4096) = false))
    ∧ (∃ (s : State) (k : KCopy), ((Instr.ldhu issue 5).wf = true) ∧ (s.calm = true) ∧ (s.solo issue (.ld .ldhu 5) = true) ∧ (s.copyOf issue = k) ∧ (k.entry (k.top - 1) = (1025, false)) ∧ (1025 < 2 ^ 32) ∧ ((s.kx issue.tile issue.copy).canEnter 6 (⟨ownBase + 0x2000 + 0x1000 * 2 ^ 40 + 0x1FF * 2 ^ 80, true⟩ : Cap) = true) ∧ (false = false) ∧ ((k.cap 5).usable = true) ∧ ((k.cap 5).perm 0 = true) ∧ ((k.cap 5).covers ((k.cap 5).base + 1025) 2 = true) ∧ (((k.cap 5).base + 1025) % 2 ≠ 0) ∧ (inOwn ((k.cap 5).base + 1025) 2 = true) ∧ ((s.kx issue.tile issue.copy).pairBad ((k.cap 5).base + 1025) 2 false = none))
    ∧ (∃ (s : State) (k : KCopy), ((Instr.ldw issue 4).wf = true) ∧ (s.calm = true) ∧ (s.solo issue (.ld .ldw 4) = true) ∧ (s.copyOf issue = k) ∧ (k.entry (k.top - 1) = (1024, false)) ∧ (1024 < 2 ^ 32) ∧ (false = false) ∧ ((k.cap 4).usable = true) ∧ ((k.cap 4).perm 0 = true) ∧ ((k.cap 4).covers ((k.cap 4).base + 1024) 4 = true) ∧ (((k.cap 4).base + 1024) % 4 = 0) ∧ (inOwn ((k.cap 4).base + 1024) 4 = true) ∧ ((s.kx issue.tile issue.copy).pairBad ((k.cap 4).base + 1024) 4 false = none) ∧ ((s.kx issue.tile issue.copy).readsFree ((k.cap 4).base + 1024) 4 = false) ∧ (s.rdMem (physOf issue.tile ((k.cap 4).base + 1024)) 4 = ((3047593864, false), s)) ∧ ((k.sb.all fun e => !(decide (e.addr ≤ ((k.cap 4).base + 1024)) && decide (((k.cap 4).base + 1024) + 4 ≤ e.addr + e.n)) || (decide ((e.val >>> (8 * (((k.cap 4).base + 1024) - e.addr))) % 256 ^ 4 = 3047593864) && (List.range ((((k.cap 4).base + 1024) + 4 + 7) / 8 - ((k.cap 4).base + 1024) / 8)).any (fun j => e.pois.getD (((k.cap 4).base + 1024) / 8 + j - e.addr / 8) false) == false)) = true) ∧ ((((s.tileH issue.tile).copies.zipIdx.all fun q => q.2 == issue.copy || q.1.sb.isEmpty) = true)))
    ∧ (∃ (s : State) (k : KCopy), ((Instr.ldw issue 4).wf = true) ∧ (s.calm = true) ∧ (s.solo issue (.ld .ldw 4) = true) ∧ (s.copyOf issue = k) ∧ (k.entry (k.top - 1) = (5120, false)) ∧ (5120 < 2 ^ 32) ∧ (false = false) ∧ ((k.cap 4).usable = true) ∧ ((k.cap 4).perm 0 = true) ∧ ((k.cap 4).covers ((k.cap 4).base + 5120) 4 = true) ∧ (((k.cap 4).base + 5120) % 4 = 0) ∧ (inOwn ((k.cap 4).base + 5120) 4 = true) ∧ ((s.kx issue.tile issue.copy).pairBad ((k.cap 4).base + 5120) 4 false = none) ∧ ((s.kx issue.tile issue.copy).readsFree ((k.cap 4).base + 5120) 4 = true) ∧ (s.rdMem (physOf issue.tile ((k.cap 4).base + 5120)) 4 = ((3047593864, false), s)) ∧ ((k.sb.all fun e => !(decide (e.addr ≤ ((k.cap 4).base + 5120)) && decide (((k.cap 4).base + 5120) + 4 ≤ e.addr + e.n)) || (decide ((e.val >>> (8 * (((k.cap 4).base + 5120) - e.addr))) % 256 ^ 4 = 3047593864) && (List.range ((((k.cap 4).base + 5120) + 4 + 7) / 8 - ((k.cap 4).base + 5120) / 8)).any (fun j => e.pois.getD (((k.cap 4).base + 5120) / 8 + j - e.addr / 8) false) == false)) = true) ∧ ((((s.tileH issue.tile).copies.zipIdx.all fun q => q.2 == issue.copy || q.1.sb.isEmpty) = true))) :=
    ⟨⟨(inTile (kcopy 3 [(0, 11, false), (1, 11, false), (2, 4096, false)])), (kcopy 3 [(0, 11, false), (1, 11, false), (2, 4096, false)]), by decide +kernel⟩,
    ⟨(((((State.reset.wr (pgTile 5) 8 1).wrMem (physOf 5 (ownBase + 0x3FE00 + 16 * 3)) 16 (ownBase + 0x2000 + 0x1000 * 2 ^ 40 + 0x1FF * 2 ^ 80)).setTag (physOf 5 (ownBase + 0x3FE00 + 16 * 3)) 7).setBank (pgEccT 5) 0 { inited := true }).setTile 5 { mode := 3, work := true, copies := [{ run := true, pc := ownBase + 0x100, rsp := ownBase + 0x1FF80, depth := 3, file := [(0, 11, false), (1, 11, false), (2, 1024, false)], caps := setAt (setAt (setAt (List.replicate 16 {}) 0 Cap.all) 1 ⟨ownBase + 0x10000 + 0x10000 * 2 ^ 40 + 0x1FF * 2 ^ 80, true⟩) 5 {} }, {}, {}] }), ({ run := true, pc := ownBase + 0x100, rsp := ownBase + 0x1FF80, depth := 3, file := [(0, 11, false), (1, 11, false), (2, 1024, false)], caps := setAt (setAt (setAt (List.replicate 16 {}) 0 Cap.all) 1 ⟨ownBase + 0x10000 + 0x10000 * 2 ^ 40 + 0x1FF * 2 ^ 80, true⟩) 5 {} } : KCopy), by decide +kernel⟩,
    ⟨(((((State.reset.wr (pgTile 5) 8 1).wrMem (physOf 5 (ownBase + 0x3FE00 + 16 * 4)) 16 (ownBase + 0x2000 + 0x1000 * 2 ^ 40 + 0x1FF * 2 ^ 80)).setTag (physOf 5 (ownBase + 0x3FE00 + 16 * 4)) 7).setBank (pgEccT 5) 0 { inited := true }).setTile 5 { mode := 3, work := true, copies := [{ run := true, pc := ownBase + 0x100, rsp := ownBase + 0x1FF80, depth := 3, file := [(0, 11, false), (1, 11, false), (2, 4096, false)], caps := setAt (setAt (setAt (List.replicate 16 {}) 0 Cap.all) 1 ⟨ownBase + 0x10000 + 0x10000 * 2 ^ 40 + 0x1FF * 2 ^ 80, true⟩) 5 ⟨ownBase + 0x1000 * 2 ^ 40 + 0x1FF * 2 ^ 80, true⟩ }, {}, {}] }), ({ run := true, pc := ownBase + 0x100, rsp := ownBase + 0x1FF80, depth := 3, file := [(0, 11, false), (1, 11, false), (2, 4096, false)], caps := setAt (setAt (setAt (List.replicate 16 {}) 0 Cap.all) 1 ⟨ownBase + 0x10000 + 0x10000 * 2 ^ 40 + 0x1FF * 2 ^ 80, true⟩) 5 ⟨ownBase + 0x1000 * 2 ^ 40 + 0x1FF * 2 ^ 80, true⟩ } : KCopy), by decide +kernel⟩,
    ⟨(((((State.reset.wr (pgTile 5) 8 1).wrMem (physOf 5 (ownBase + 0x3FE00 + 16 * 6)) 16 (ownBase + 0x2000 + 0x1000 * 2 ^ 40 + 0x1FF * 2 ^ 80)).setTag (physOf 5 (ownBase + 0x3FE00 + 16 * 6)) 7).setBank (pgEccT 5) 0 { inited := true }).setTile 5 { mode := 3, work := true, copies := [{ run := true, pc := ownBase + 0x100, rsp := ownBase + 0x1FF80, depth := 3, file := [(0, 11, false), (1, 11, false), (2, 1025, false)], caps := setAt (setAt (setAt (List.replicate 16 {}) 0 Cap.all) 1 ⟨ownBase + 0x10000 + 0x10000 * 2 ^ 40 + 0x1FF * 2 ^ 80, true⟩) 5 ⟨ownBase + 0x1000 * 2 ^ 40 + 0x1FF * 2 ^ 80, true⟩ }, {}, {}] }), ({ run := true, pc := ownBase + 0x100, rsp := ownBase + 0x1FF80, depth := 3, file := [(0, 11, false), (1, 11, false), (2, 1025, false)], caps := setAt (setAt (setAt (List.replicate 16 {}) 0 Cap.all) 1 ⟨ownBase + 0x10000 + 0x10000 * 2 ^ 40 + 0x1FF * 2 ^ 80, true⟩) 5 ⟨ownBase + 0x1000 * 2 ^ 40 + 0x1FF * 2 ^ 80, true⟩ } : KCopy), by decide +kernel⟩,
    ⟨(((((State.reset.wr (pgTile 5) 8 1).wrMem (physOf 5 (ownBase + 0x400)) 16 0xF1E2D3C4B5A69788).setTag (physOf 5 (ownBase + 0x400)) 7).setBank (pgEccT 5) 0 { inited := true }).setTile 5 { mode := 3, work := true, copies := [{ kcopy 3 [(0, 11, false), (1, 11, false), (2, 1024, false)] with caps := (setAt (setAt (setAt (List.replicate 16 {}) 0 Cap.all) 1 Cap.all) 4 ⟨ownBase + 0x80000 * 2 ^ 40 + 0x1FF * 2 ^ 80, true⟩) }, {}, {}] }), ({ kcopy 3 [(0, 11, false), (1, 11, false), (2, 1024, false)] with caps := (setAt (setAt (setAt (List.replicate 16 {}) 0 Cap.all) 1 Cap.all) 4 ⟨ownBase + 0x80000 * 2 ^ 40 + 0x1FF * 2 ^ 80, true⟩) } : KCopy), by decide +kernel⟩,
    ⟨(((((State.reset.wr (pgTile 5) 8 1).wrMem (physOf 5 (ownBase + 0x1400)) 16 0xF1E2D3C4B5A69788).setTag (physOf 5 (ownBase + 0x1400)) 7).setBank (pgEccT 5) 0 { inited := true }).setTile 5 { mode := 1, work := true, copies := [{ kcopy 3 [(0, 11, false), (1, 11, false), (2, 5120, false)] with caps := (setAt (setAt (setAt (List.replicate 16 {}) 0 Cap.all) 1 Cap.all) 4 ⟨ownBase + 0x80000 * 2 ^ 40 + 0x1FF * 2 ^ 80, true⟩) }, {}, {}], freeBase := 1, freeSize := 16 }), ({ kcopy 3 [(0, 11, false), (1, 11, false), (2, 5120, false)] with caps := (setAt (setAt (setAt (List.replicate 16 {}) 0 Cap.all) 1 Cap.all) 4 ⟨ownBase + 0x80000 * 2 ^ 40 + 0x1FF * 2 ^ 80, true⟩) } : KCopy), by decide +kernel⟩⟩

theorem witness_KolotteLoads_5 :
    (∃ (s : State) (k : KCopy), ((Instr.ldw issue 1).wf = true) ∧ (s.calm = true) ∧ (s.solo issue (.ld .ldw 1) = true) ∧ (s.copyOf issue = k) ∧ (k.entry (k.top - 1) = (4096, false)) ∧ (4096 < 2 ^ 32) ∧ (false = false) ∧ ((k.cap 1).usable = true) ∧ ((k.cap 1).perm 0 = true) ∧ ((k.cap 1).covers ((k.cap 1).base + 4096) 4 = true) ∧ (((k.cap 1).base + 4096) % 4 = 0) ∧ (inOwn ((k.cap 1).base + 4096) 1 = false) ∧ (((List.range 4).all fun j => tileMapped (((k.cap 1).base + 4096) + j)) = true) ∧ (pageAllowed (k.cap 1) ((k.cap 1).base + 4096) false = true) ∧ (stallsAt s issue.tile ((k.cap 1).base + 4096) = false) ∧ ((s.tileH issue.tile).ocb = []))
    ∧ (∃ (s : State) (k : KCopy), ((Instr.ldw issue 5).wf = true) ∧ (s.calm = true) ∧ (s.solo issue (.ld .ldw 5) = true) ∧ (s.copyOf issue = k) ∧ (k.entry (k.top - 1) = (1024, false)) ∧ (1024 < 2 ^ 32) ∧ ((s.kx issue.tile issue.copy).canEnter 3 (⟨ownBase + 0x2000 + 0x1000 * 2 ^ 40 + 0x1FF * 2 ^ 80, true⟩ : Cap) = true) ∧ (false = false) ∧ (((k.cap 5).usable = false ∨ (k.cap 5).perm 0 = false)))
    ∧ (∃ (s : State) (k : KCopy), ((Instr.ldw issue 5).wf = true) ∧ (s.calm = true) ∧ (s.solo issue (.ld .ldw 5) = true) ∧ (s.copyOf issue = k) ∧ (k.entry (k.top - 1) = (4096, false)) ∧ (4096 < 2 ^ 32) ∧ ((s.kx issue.tile issue.copy).canEnter 4 (⟨ownBase + 0x2000 + 0x1000 * 2 ^ 40 + 0x1FF * 2 ^ 80, true⟩ : Cap) = true) ∧ (false = false) ∧ ((k.cap 5).usable = true) ∧ ((k.cap 5).perm 0 = true) ∧ ((k.cap 5).covers ((k.cap 5).base + 4096) 4 = false) ∧ (inPages ((k.cap 5).base + 4096) = false))
    ∧ (∃ (s : State) (k : KCopy), ((Instr.ldw issue 5).wf = true) ∧ (s.calm = true) ∧ (s.solo issue (.ld .ldw 5) = true) ∧ (s.copyOf issue = k) ∧ (k.entry (k.top - 1) = (1025, false)) ∧ (1025 < 2 ^ 32) ∧ ((s.kx issue.tile issue.copy).canEnter 6 (⟨ownBase + 0x2000 + 0x1000 * 2 ^ 40 + 0x1FF * 2 ^ 80, true⟩ : Cap) = true) ∧ (false = false) ∧ ((k.cap 5).usable = true) ∧ ((k.cap 5).perm 0 = true) ∧ ((k.cap 5).covers ((k.cap 5).base + 1025) 4 = true) ∧ (((k.cap 5).base + 1025) % 4 ≠ 0) ∧ (inOwn ((k.cap 5).base + 1025) 4 = true) ∧ ((s.kx issue.tile issue.copy).pairBad ((k.cap 5).base + 1025) 4 false = none))
    ∧ (∃ (s : State) (k : KCopy), ((Instr.ldw issue 5).wf = true) ∧ (s.calm = true) ∧ (s.solo issue (.ld .ldw 5) = true) ∧ (s.copyOf issue = k) ∧ (k.entry (k.top - 1) = (0, false)) ∧ (0 < 2 ^ 32) ∧ (false = false) ∧ ((k.cap 5).usable = true) ∧ ((k.cap 5).perm 0 = true) ∧ ((k.cap 5).covers ((k.cap 5).base + 0) 4 = true) ∧ (((k.cap 5).base + 0) % 4 = 0) ∧ (inOwn ((k.cap 5).base + 0) 1 = false) ∧ (((List.range 4).all fun j => tileMapped (((k.cap 5).base + 0) + j)) = true) ∧ (pageAllowed (k.cap 5) ((k.cap 5).base + 0) false = true) ∧ (stallsAt s issue.tile ((k.cap 5).base + 0) = true) ∧ ((s.tileH issue.tile).ocb = []))
    ∧ (∃ (s : State) (k : KCopy), ((Instr.ldw issue 1).wf = true) ∧ (s.calm = true) ∧ (s.solo issue (.ld .ldw 1) = true) ∧ (s.copyOf issue = k) ∧ (k.entry (k.top - 1) = (4100, false)) ∧ (4100 < 2 ^ 32) ∧ (false = false) ∧ ((k.cap 1).usable = true) ∧ ((k.cap 1).perm 0 = true) ∧ ((k.cap 1).covers ((k.cap 1).base + 4100) 4 = true) ∧ (((k.cap 1).base + 4100) % 4 = 0) ∧ (inOwn ((k.cap 1).base + 4100) 1 = false) ∧ (((List.range 4).all fun j => tileMapped (((k.cap 1).base + 4100) + j)) = true) ∧ (pageAllowed (k.cap 1) ((k.cap 1).base + 4100) false = true) ∧ (inPages ((k.cap 1).base + 4100) = false) ∧ (((s.tileH issue.tile).mode ≤ 1 ∧ issue.copy = 0)) ∧ ((s.tileH issue.tile).ocb = [(⟨0, 0, 0x1000, 8, 0x1122334455667788, 0, false, 0⟩ : OcbE)]) ∧ ((⟨0, 0, 0x1000, 8, 0x1122334455667788, 0, false, 0⟩ : OcbE).kind = 0) ∧ ((⟨0, 0, 0x1000, 8, 0x1122334455667788, 0, false, 0⟩ : OcbE).addr ≤ ((k.cap 1).base + 4100)) ∧ (((k.cap 1).base + 4100) + 4 ≤ (⟨0, 0, 0x1000, 8, 0x1122334455667788, 0, false, 0⟩ : OcbE).addr + (⟨0, 0, 0x1000, 8, 0x1122334455667788, 0, false, 0⟩ : OcbE).size)) :=
    ⟨⟨(inTile (kcopy 3 [(0, 11, false), (1, 11, false), (2, 4096, false)])), (kcopy 3 [(0, 11, false), (1, 11, false), (2, 4096, false)]), by decide +kernel⟩,
    ⟨(((((State.reset.wr (pgTile 5) 8 1).wrMem (physOf 5 (ownBase + 0x3FE00 + 16 * 3)) 16 (ownBase + 0x2000 + 0x1000 * 2 ^ 40 + 0x1FF * 2 ^ 80)).setTag (physOf 5 (ownBase + 0x3FE00 + 16 * 3)) 7).setBank (pgEccT 5) 0 { inited := true }).setTile 5 { mode := 3, work := true, copies := [{ run := true, pc := ownBase + 0x100, rsp := ownBase + 0x1FF80, depth := 3, file := [(0, 11, false), (1, 11, false), (2, 1024, false)], caps := setAt (setAt (setAt (List.replicate 16 {}) 0 Cap.all) 1 ⟨ownBase + 0x10000 + 0x10000 * 2 ^ 40 + 0x1FF * 2 ^ 80, true⟩) 5 {} }, {}, {}] }), ({ run := true, pc := ownBase + 0x100, rsp := ownBase + 0x1FF80, depth := 3, file := [(0, 11, false), (1, 11, false), (2, 1024, false)], caps := setAt (setAt (setAt (List.replicate 16 {}) 0 Cap.all) 1 ⟨ownBase + 0x10000 + 0x10000 * 2 ^ 40 + 0x1FF * 2 ^ 80, true⟩) 5 {} } : KCopy), by decide +kernel⟩,
    ⟨(((((State.reset.wr (pgTile 5) 8 1).wrMem (physOf 5 (ownBase + 0x3FE00 + 16 * 4)) 16 (ownBase + 0x2000 + 0x1000 * 2 ^ 40 + 0x1FF * 2 ^ 80)).setTag (physOf 5 (ownBase + 0x3FE00 + 16 * 4)) 7).setBank (pgEccT 5) 0 { inited := true }).setTile 5 { mode := 3, work := true, copies := [{ run := true, pc := ownBase + 0x100, rsp := ownBase + 0x1FF80, depth := 3, file := [(0, 11, false), (1, 11, false), (2, 4096, false)], caps := setAt (setAt (setAt (List.replicate 16 {}) 0 Cap.all) 1 ⟨ownBase + 0x10000 + 0x10000 * 2 ^ 40 + 0x1FF * 2 ^ 80, true⟩) 5 ⟨ownBase + 0x1000 * 2 ^ 40 + 0x1FF * 2 ^ 80, true⟩ }, {}, {}] }), ({ run := true, pc := ownBase + 0x100, rsp := ownBase + 0x1FF80, depth := 3, file := [(0, 11, false), (1, 11, false), (2, 4096, false)], caps := setAt (setAt (setAt (List.replicate 16 {}) 0 Cap.all) 1 ⟨ownBase + 0x10000 + 0x10000 * 2 ^ 40 + 0x1FF * 2 ^ 80, true⟩) 5 ⟨ownBase + 0x1000 * 2 ^ 40 + 0x1FF * 2 ^ 80, true⟩ } : KCopy), by decide +kernel⟩,
    ⟨(((((State.reset.wr (pgTile 5) 8 1).wrMem (physOf 5 (ownBase + 0x3FE00 + 16 * 6)) 16 (ownBase + 0x2000 + 0x1000 * 2 ^ 40 + 0x1FF * 2 ^ 80)).setTag (physOf 5 (ownBase + 0x3FE00 + 16 * 6)) 7).setBank (pgEccT 5) 0 { inited := true }).setTile 5 { mode := 3, work := true, copies := [{ run := true, pc := ownBase + 0x100, rsp := ownBase + 0x1FF80, depth := 3, file := [(0, 11, false), (1, 11, false), (2, 1025, false)], caps := setAt (setAt (setAt (List.replicate 16 {}) 0 Cap.all) 1 ⟨ownBase + 0x10000 + 0x10000 * 2 ^ 40 + 0x1FF * 2 ^ 80, true⟩) 5 ⟨ownBase + 0x1000 * 2 ^ 40 + 0x1FF * 2 ^ 80, true⟩ }, {}, {}] }), ({ run := true, pc := ownBase + 0x100, rsp := ownBase + 0x1FF80, depth := 3, file := [(0, 11, false), (1, 11, false), (2, 1025, false)], caps := setAt (setAt (setAt (List.replicate 16 {}) 0 Cap.all) 1 ⟨ownBase + 0x10000 + 0x10000 * 2 ^ 40 + 0x1FF * 2 ^ 80, true⟩) 5 ⟨ownBase + 0x1000 * 2 ^ 40 + 0x1FF * 2 ^ 80, true⟩ } : KCopy), by decide +kernel⟩,
    ⟨(inTile { kcopy 3 [(0, 11, false), (1, 11, false), (2, 0, false)] with caps := setAt (setAt (setAt (List.replicate 16 {}) 0 Cap.all) 1 Cap.all) 5 ⟨0x1000800000 + 0x1000 * 2 ^ 40 + 0x1FF * 2 ^ 80, true⟩ }), ({ kcopy 3 [(0, 11, false), (1, 11, false), (2, 0, false)] with caps := setAt (setAt (setAt (List.replicate 16 {}) 0 Cap.all) 1 Cap.all) 5 ⟨0x1000800000 + 0x1000 * 2 ^ 40 + 0x1FF * 2 ^ 80, true⟩ } : KCopy), by decide +kernel⟩,
    ⟨(((State.reset.wr (pgTile 5) 8 1).setBank (pgEccT 5) 0 { inited := true }).setTile 5 { mode := 0, work := true, copies := [(kcopy 3 [(0, 11, false), (1, 11, false), (2, 4100, false)]), {}, {}], ocb := [⟨0, 0, 0x1000, 8, 0x1122334455667788, 0, false, 0⟩] }), (kcopy 3 [(0, 11, false), (1, 11, false), (2, 4100, false)]), by decide +kernel⟩⟩

theorem witness_KolotteLoads_6 :
    (∃ (s : State) (k : KCopy), ((Instr.ldw issue 1).wf = true) ∧ (s.calm = true) ∧ (s.solo issue (.ld .ldw 1) = true) ∧ (s.copyOf issue = k) ∧ (k.entry (k.top - 1) = (4096, false)) ∧ (4096 < 2 ^ 32) ∧ (false = false) ∧ ((k.cap 1).usable = true) ∧ ((k.cap 1).perm 0 = true) ∧ ((k.cap 1).covers ((k.cap 1).base + 4096) 4 = true) ∧ (((k.cap 1).base + 4096) % 4 = 0) ∧ (inOwn ((k.cap 1).base + 4096) 1 = false) ∧ (((List.range 4).all fun j => tileMapped (((k.cap 1).base + 4096) + j)) = true) ∧ (pageAllowed (k.cap 1) ((k.cap 1).base + 4096) false = true) ∧ (inPages ((k.cap 1).base + 4096) = false) ∧ (((s.tileH issue.tile).mode ≤ 1 ∧ issue.copy = 0)) ∧ ((s.tileH issue.tile).ocb = [(⟨0, 0, 0x1002, 2, 0x7788, 0, false, 0⟩ : OcbE)]) ∧ ((⟨0, 0, 0x1002, 2, 0x7788, 0, false, 0⟩ : OcbE).kind = 0) ∧ ((⟨0, 0, 0x1002, 2, 0x7788, 0, false, 0⟩ : OcbE).addr < ((k.cap 1).base + 4096) + 4) ∧ (((k.cap 1).base + 4096) < (⟨0, 0, 0x1002, 2, 0x7788, 0, false, 0⟩ : OcbE).addr + (⟨0, 0, 0x1002, 2, 0x7788, 0, false, 0⟩ : OcbE).size) ∧ (¬((⟨0, 0, 0x1002, 2, 0x7788, 0, false, 0⟩ : OcbE).addr ≤ ((k.cap 1).base + 4096) ∧ ((k.cap 1).base + 4096) + 4 ≤ (⟨0, 0, 0x1002, 2, 0x7788, 0, false, 0⟩ : OcbE).addr + (⟨0, 0, 0x1002, 2, 0x7788, 0, false, 0⟩ : OcbE).size)))
    ∧ (∃ (s : State) (k : KCopy), ((Instr.ldd issue 4).wf = true) ∧ (s.calm = true) ∧ (s.solo issue (.ld .ldd 4) = true) ∧ (s.copyOf issue = k) ∧ (k.entry (k.top - 1) = (1024, false)) ∧ (1024 < 2 ^ 32) ∧ (false = false) ∧ ((k.cap 4).usable = true) ∧ ((k.cap 4).perm 0 = true) ∧ ((k.cap 4).covers ((k.cap 4).base + 1024) 8 = true) ∧ (((k.cap 4).base + 1024) % 8 = 0) ∧ (inOwn ((k.cap 4).base + 1024) 8 = true) ∧ ((s.kx issue.tile issue.copy).pairBad ((k.cap 4).base + 1024) 8 false = none) ∧ ((s.kx issue.tile issue.copy).readsFree ((k.cap 4).base + 1024) 8 = false) ∧ (s.rdMem (physOf issue.tile ((k.cap 4).base + 1024)) 8 = ((17429726349691885448, false), s)) ∧ ((k.sb.all fun e => !(decide (e.addr ≤ ((k.cap 4).base + 1024)) && decide (((k.cap 4).base + 1024) + 8 ≤ e.addr + e.n)) || (decide ((e.val >>> (8 * (((k.cap 4).base + 1024) - e.addr))) % 256 ^ 8 = 17429726349691885448) && (List.range ((((k.cap 4).base + 1024) + 8 + 7) / 8 - ((k.cap 4).base + 1024) / 8)).any (fun j => e.pois.getD (((k.cap 4).base + 1024) / 8 + j - e.addr / 8) false) == false)) = true) ∧ ((((s.tileH issue.tile).copies.zipIdx.all fun q => q.2 == issue.copy || q.1.sb.isEmpty) = true)) ∧ (17429726349691885448 < 2 ^ 64))
    ∧ (∃ (s : State) (k : KCopy), ((Instr.ldd issue 4).wf = true) ∧ (s.calm = true) ∧ (s.solo issue (.ld .ldd 4) = true) ∧ (s.copyOf issue = k) ∧ (k.entry (k.top - 1) = (5120, false)) ∧ (5120 < 2 ^ 32) ∧ (false = false) ∧ ((k.cap 4).usable = true) ∧ ((k.cap 4).perm 0 = true) ∧ ((k.cap 4).covers ((k.cap 4).base + 5120) 8 = true) ∧ (((k.cap 4).base + 5120) % 8 = 0) ∧ (inOwn ((k.cap 4).base + 5120) 8 = true) ∧ ((s.kx issue.tile issue.copy).pairBad ((k.cap 4).base + 5120) 8 false = none) ∧ ((s.kx issue.tile issue.copy).readsFree ((k.cap 4).base + 5120) 8 = true) ∧ (s.rdMem (physOf issue.tile ((k.cap 4).base + 5120)) 8 = ((17429726349691885448, false), s)) ∧ ((k.sb.all fun e => !(decide (e.addr ≤ ((k.cap 4).base + 5120)) && decide (((k.cap 4).base + 5120) + 8 ≤ e.addr + e.n)) || (decide ((e.val >>> (8 * (((k.cap 4).base + 5120) - e.addr))) % 256 ^ 8 = 17429726349691885448) && (List.range ((((k.cap 4).base + 5120) + 8 + 7) / 8 - ((k.cap 4).base + 5120) / 8)).any (fun j => e.pois.getD (((k.cap 4).base + 5120) / 8 + j - e.addr / 8) false) == false)) = true) ∧ ((((s.tileH issue.tile).copies.zipIdx.all fun q => q.2 == issue.copy || q.1.sb.isEmpty) = true)) ∧ (17429726349691885448 < 2 ^ 64))
    ∧ (∃ (s : State) (k : KCopy), ((Instr.ldd issue 1).wf = true) ∧ (s.calm = true) ∧ (s.solo issue (.ld .ldd 1) = true) ∧ (s.copyOf issue = k) ∧ (k.entry (k.top - 1) = (4096, false)) ∧ (4096 < 2 ^ 32) ∧ (false = false) ∧ ((k.cap 1).usable = true) ∧ ((k.cap 1).perm 0 = true) ∧ ((k.cap 1).covers ((k.cap 1).base + 4096) 8 = true) ∧ (((k.cap 1).base + 4096) % 8 = 0) ∧ (inOwn ((k.cap 1).base + 4096) 1 = false) ∧ (((List.range 8).all fun j => tileMapped (((k.cap 1).base + 4096) + j)) = true) ∧ (pageAllowed (k.cap 1) ((k.cap 1).base + 4096) false = true) ∧ (stallsAt s issue.tile ((k.cap 1).base + 4096) = false) ∧ ((s.tileH issue.tile).ocb = []))
    ∧ (∃ (s : State) (k : KCopy), ((Instr.ldd issue 5).wf = true) ∧ (s.calm = true) ∧ (s.solo issue (.ld .ldd 5) = true) ∧ (s.copyOf issue = k) ∧ (k.entry (k.top - 1) = (1024, false)) ∧ (1024 < 2 ^ 32) ∧ ((s.kx issue.tile issue.copy).canEnter 3 (⟨ownBase + 0x2000 + 0x1000 * 2 ^ 40 + 0x1FF * 2 ^ 80, true⟩ : Cap) = true) ∧ (false = false) ∧ (((k.cap 5).usable = false ∨ (k.cap 5).perm 0 = false)))
    ∧ (∃ (s : State) (k : KCopy), ((Instr.ldd issue 5).wf = true) ∧ (s.calm = true) ∧ (s.solo issue (.ld .ldd 5) = true) ∧ (s.copyOf issue = k) ∧ (k.entry (k.top - 1) = (4096, false)) ∧ (4096 < 2 ^ 32) ∧ ((s.kx issue.tile issue.copy).canEnter 4 (⟨ownBase + 0x2000 + 0x1000 * 2 ^ 40 + 0x1FF * 2 ^ 80, true⟩ : Cap) = true) ∧ (false = false) ∧ ((k.cap 5).usable = true) ∧ ((k.cap 5).perm 0 = true) ∧ ((k.cap 5).covers ((k.cap 5).base + 4096) 8 = false) ∧ (inPages ((k.cap 5).base + 4096) = false)) :=
    ⟨⟨(((State.reset.wr (pgTile 5) 8 1).setBank (pgEccT 5) 0 { inited := true }).setTile 5 { mode := 0, work := true, copies := [(kcopy 3 [(0, 11, false), (1, 11, false), (2, 4096, false)]), {}, {}], ocb := [⟨0, 0, 0x1002, 2, 0x7788, 0, false, 0⟩] }), (kcopy 3 [(0, 11, false), (1, 11, false), (2, 4096, false)]), by decide +kernel⟩,
    ⟨(((((State.reset.wr (pgTile 5) 8 1).wrMem (physOf 5 (ownBase + 0x400)) 16 0xF1E2D3C4B5A69788).setTag (physOf 5 (ownBase + 0x400)) 7).setBank (pgEccT 5) 0 { inited := true }).setTile 5 { mode := 3, work := true, copies := [{ kcopy 3 [(0, 11, false), (1, 11, false), (2, 1024, false)] with caps := (setAt (setAt (setAt (List.replicate 16 {}) 0 Cap.all) 1 Cap.all) 4 ⟨ownBase + 0x80000 * 2 ^ 40 + 0x1FF * 2 ^ 80, true⟩) }, {}, {}] }), ({ kcopy 3 [(0, 11, false), (1, 11, false), (2, 1024, false)] with caps := (setAt (setAt (setAt (List.replicate 16 {}) 0 Cap.all) 1 Cap.all) 4 ⟨ownBase + 0x80000 * 2 ^ 40 + 0x1FF * 2 ^ 80, true⟩) } : KCopy), by decide +kernel⟩,
    ⟨(((((State.reset.wr (pgTile 5) 8 1).wrMem (physOf 5 (ownBase + 0x1400)) 16 0xF1E2D3C4B5A69788).setTag (physOf 5 (ownBase + 0x1400)) 7).setBank (pgEccT 5) 0 { inited := true }).setTile 5 { mode := 1, work := true, copies := [{ kcopy 3 [(0, 11, false), (1, 11, false), (2, 5120, false)] with caps := (setAt (setAt (setAt (List.replicate 16 {}) 0 Cap.all) 1 Cap.all) 4 ⟨ownBase + 0x80000 * 2 ^ 40 + 0x1FF * 2 ^ 80, true⟩) }, {}, {}], freeBase := 1, freeSize := 16 }), ({ kcopy 3 [(0, 11, false), (1, 11, false), (2, 5120, false)] with caps := (setAt (setAt (setAt (List.replicate 16 {}) 0 Cap.all) 1 Cap.all) 4 ⟨ownBase + 0x80000 * 2 ^ 40 + 0x1FF * 2 ^ 80, true⟩) } : KCopy), by decide +kernel⟩,
    ⟨(inTile (kcopy 3 [(0, 11, false), (1, 11, false), (2, 4096, false)])), (kcopy 3 [(0, 11, false), (1, 11, false), (2, 4096, false)]), by decide +kernel⟩,
    ⟨(((((State.reset.wr (pgTile 5) 8 1).wrMem (physOf 5 (ownBase + 0x3FE00 + 16 * 3)) 16 (ownBase + 0x2000 + 0x1000 * 2 ^ 40 + 0x1FF * 2 ^ 80)).setTag (physOf 5 (ownBase + 0x3FE00 + 16 * 3)) 7).setBank (pgEccT 5) 0 { inited := true }).setTile 5 { mode := 3, work := true, copies := [{ run := true, pc := ownBase + 0x100, rsp := ownBase + 0x1FF80, depth := 3, file := [(0, 11, false), (1, 11, false), (2, 1024, false)], caps := setAt (setAt (setAt (List.replicate 16 {}) 0 Cap.all) 1 ⟨ownBase + 0x10000 + 0x10000 * 2 ^ 40 + 0x1FF * 2 ^ 80, true⟩) 5 {} }, {}, {}] }), ({ run := true, pc := ownBase + 0x100, rsp := ownBase + 0x1FF80, depth := 3, file := [(0, 11, false), (1, 11, false), (2, 1024, false)], caps := setAt (setAt (setAt (List.replicate 16 {}) 0 Cap.all) 1 ⟨ownBase + 0x10000 + 0x10000 * 2 ^ 40 + 0x1FF * 2 ^ 80, true⟩) 5 {} } : KCopy), by decide +kernel⟩,
    ⟨(((((State.reset.wr (pgTile 5) 8 1).wrMem (physOf 5 (ownBase + 0x3FE00 + 16 * 4)) 16 (ownBase + 0x2000 + 0x1000 * 2 ^ 40 + 0x1FF * 2 ^ 80)).setTag (physOf 5 (ownBase + 0x3FE00 + 16 * 4)) 7).setBank (pgEccT 5) 0 { inited := true }).setTile 5 { mode := 3, work := true, copies := [{ run := true, pc := ownBase + 0x100, rsp := ownBase + 0x1FF80, depth := 3, file := [(0, 11, false), (1, 11, false), (2, 4096, false)], caps := setAt (setAt (setAt (List.replicate 16 {}) 0 Cap.all) 1 ⟨ownBase + 0x10000 + 0x10000 * 2 ^ 40 + 0x1FF * 2 ^ 80, true⟩) 5 ⟨ownBase + 0x1000 * 2 ^ 40 + 0x1FF * 2 ^ 80, true⟩ }, {}, {}] }), ({ run := true, pc := ownBase + 0x100, rsp := ownBase + 0x1FF80, depth := 3, file := [(0, 11, false), (1, 11, false), (2, 4096, false)], caps := setAt (setAt (setAt (List.replicate 16 {}) 0 Cap.all) 1 ⟨ownBase + 0x10000 + 0x10000 * 2 ^ 40 + 0x1FF * 2 ^ 80, true⟩) 5 ⟨ownBase + 0x1000 * 2 ^ 40 + 0x1FF * 2 ^ 80, true⟩ } : KCopy), by decide +kernel⟩⟩

theorem witness_KolotteLoads_7 :
    (∃ (s : State) (k : KCopy), ((Instr.ldd issue 5).wf = true) ∧ (s.calm = true) ∧ (s.solo issue (.ld .ldd 5) = true) ∧ (s.copyOf issue = k) ∧ (k.entry (k.top - 1) = (1025, false)) ∧ (1025 < 2 ^ 32) ∧ ((s.kx issue.tile issue.copy).canEnter 6 (⟨ownBase + 0x2000 + 0x1000 * 2 ^ 40 + 0x1FF * 2 ^ 80, true⟩ : Cap) = true) ∧ (false = false) ∧ ((k.cap 5).usable = true) ∧ ((k.cap 5).perm 0 = true) ∧ ((k.cap 5).covers ((k.cap 5).base + 1025) 8 = true) ∧ (((k.cap 5).base + 1025) % 8 ≠ 0) ∧ (inOwn ((k.cap 5).base + 1025) 8 = true) ∧ ((s.kx issue.tile issue.copy).pairBad ((k.cap 5).base + 1025) 8 false = none))
    ∧ (∃ (s : State) (k : KCopy), ((Instr.ldt issue 4 4).wf = true) ∧ (s.calm = true) ∧ (s.solo issue (.ldt 4 4) = true) ∧ (s.copyOf issue = k) ∧ (k.entry (k.top - 1) = (1024, false)) ∧ (1024 < 2 ^ 32) ∧ (false = false) ∧ ((k.cap 4).usable = true) ∧ ((k.cap 4).perm 0 = true) ∧ ((k.cap 4).perm 3 = true) ∧ ((k.cap 4).covers ((k.cap 4).base + 1024) 16 = true) ∧ (((k.cap 4).base + 1024) % 16 = 0) ∧ (inOwn ((k.cap 4).base + 1024) 16 = true) ∧ ((s.kx issue.tile issue.copy).pairBad ((k.cap 4).base + 1024) 16 false = none) ∧ ((s.kx issue.tile issue.copy).readsFree ((k.cap 4).base + 1024) 16 = false) ∧ ((((s.tileH issue.tile).copies.zipIdx.all fun q => q.2 == issue.copy || q.1.sb.isEmpty) = true)) ∧ ((k.sb.all fun e => !(decide (e.addr ≤ ((k.cap 4).base + 1024)) && decide (((k.cap 4).base + 1024) + 16 ≤ e.addr + e.n))) = true) ∧ (s.rdMem (physOf issue.tile ((k.cap 4).base + 1024)) 16 = ((17429726349691885448, false), s)))
    ∧ (∃ (s : State) (k : KCopy), ((Instr.ldt issue 4 4).wf = true) ∧ (s.calm = true) ∧ (s.solo issue (.ldt 4 4) = true) ∧ (s.copyOf issue = k) ∧ (k.entry (k.top - 1) = (5120, false)) ∧ (5120 < 2 ^ 32) ∧ (false = false) ∧ ((k.cap 4).usable = true) ∧ ((k.cap 4).perm 0 = true) ∧ ((k.cap 4).perm 3 = true) ∧ ((k.cap 4).covers ((k.cap 4).base + 5120) 16 = true) ∧ (((k.cap 4).base + 5120) % 16 = 0) ∧ (inOwn ((k.cap 4).base + 5120) 16 = true) ∧ ((s.kx issue.tile issue.copy).pairBad ((k.cap 4).base + 5120) 16 false = none) ∧ ((s.kx issue.tile issue.copy).readsFree ((k.cap 4).base + 5120) 16 = true) ∧ ((((s.tileH issue.tile).copies.zipIdx.all fun q => q.2 == issue.copy || q.1.sb.isEmpty) = true)) ∧ ((k.sb.all fun e => !(decide (e.addr ≤ ((k.cap 4).base + 5120)) && decide (((k.cap 4).base + 5120) + 16 ≤ e.addr + e.n))) = true) ∧ (s.rdMem (physOf issue.tile ((k.cap 4).base + 5120)) 16 = ((17429726349691885448, false), s)))
    ∧ (∃ (s : State) (k : KCopy), ((Instr.ldt issue 4 1).wf = true) ∧ (s.calm = true) ∧ (s.solo issue (.ldt 4 1) = true) ∧ (s.copyOf issue = k) ∧ (k.entry (k.top - 1) = (4096, false)) ∧ (4096 < 2 ^ 32) ∧ (false = false) ∧ ((k.cap 1).usable = true) ∧ ((k.cap 1).perm 0 = true) ∧ ((k.cap 1).perm 3 = true) ∧ ((k.cap 1).covers ((k.cap 1).base + 4096) 16 = true) ∧ (((k.cap 1).base + 4096) % 16 = 0) ∧ (((k.cap 1).base + 4096) + 16 ≤ dramSize) ∧ (2 ≤ (s.tileH issue.tile).mode) ∧ (s.rdMem ((k.cap 1).base + 4096) 16 = ((0, false), s)))
    ∧ (∃ (s : State) (k : KCopy), ((Instr.ldt issue 4 5).wf = true) ∧ (s.calm = true) ∧ (s.solo issue (.ldt 4 5) = true) ∧ (s.copyOf issue = k) ∧ (k.entry (k.top - 1) = (1024, false)) ∧ (1024 < 2 ^ 32) ∧ ((s.kx issue.tile issue.copy).canEnter 7 (⟨ownBase + 0x2000 + 0x1000 * 2 ^ 40 + 0x1FF * 2 ^ 80, true⟩ : Cap) = true) ∧ (false = false) ∧ ((k.cap 5).usable = true) ∧ ((k.cap 5).perm 0 = true) ∧ ((k.cap 5).perm 3 = true) ∧ ((k.cap 5).covers ((k.cap 5).base + 1024) 16 = true) ∧ (((k.cap 5).base + 1024) % 16 = 0) ∧ (inOwn ((k.cap 5).base + 1024) 16 = true) ∧ ((s.kx issue.tile issue.copy).pairBad ((k.cap 5).base + 1024) 16 false = none) ∧ ((s.kx issue.tile issue.copy).readsFree ((k.cap 5).base + 1024) 16 = false) ∧ ((((s.tileH issue.tile).copies.zipIdx.all fun q => q.2 == issue.copy || q.1.sb.isEmpty) = true)) ∧ ((k.sb.all fun e => !(decide (e.addr ≤ ((k.cap 5).base + 1024)) && decide (((k.cap 5).base + 1024) + 16 ≤ e.addr + e.n))) = true) ∧ (s.rdMem (physOf issue.tile ((k.cap 5).base + 1024)) 16 = ((17429726349691885448, true), s)))
    ∧ (∃ (s : State) (k : KCopy), ((Instr.ldt issue 4 5).wf = true) ∧ (s.calm = true) ∧ (s.solo issue (.ldt 4 5) = true) ∧ (s.copyOf issue = k) ∧ (k.entry (k.top - 1) = (1024, false)) ∧ (1024 < 2 ^ 32) ∧ ((s.kx issue.tile issue.copy).canEnter 3 (⟨ownBase + 0x2000 + 0x1000 * 2 ^ 40 + 0x1FF * 2 ^ 80, true⟩ : Cap) = true) ∧ (false = false) ∧ (((k.cap 5).usable = false ∨ (k.cap 5).perm 0 = false))) :=
    ⟨⟨(((((State.reset.wr (pgTile 5) 8 1).wrMem (physOf 5 (ownBase + 0x3FE00 + 16 * 6)) 16 (ownBase + 0x2000 + 0x1000 * 2 ^ 40 + 0x1FF * 2 ^ 80)).setTag (physOf 5 (ownBase + 0x3FE00 + 16 * 6)) 7).setBank (pgEccT 5) 0 { inited := true }).setTile 5 { mode := 3, work := true, copies := [{ run := true, pc := ownBase + 0x100, rsp := ownBase + 0x1FF80, depth := 3, file := [(0, 11, false), (1, 11, false), (2, 1025, false)], caps := setAt (setAt (setAt (List.replicate 16 {}) 0 Cap.all) 1 ⟨ownBase + 0x10000 + 0x10000 * 2 ^ 40 + 0x1FF * 2 ^ 80, true⟩) 5 ⟨ownBase + 0x1000 * 2 ^ 40 + 0x1FF * 2 ^ 80, true⟩ }, {}, {}] }), ({ run := true, pc := ownBase + 0x100, rsp := ownBase + 0x1FF80, depth := 3, file := [(0, 11, false), (1, 11, false), (2, 1025, false)], caps := setAt (setAt (setAt (List.replicate 16 {}) 0 Cap.all) 1 ⟨ownBase + 0x10000 + 0x10000 * 2 ^ 40 + 0x1FF * 2 ^ 80, true⟩) 5 ⟨ownBase + 0x1000 * 2 ^ 40 + 0x1FF * 2 ^ 80, true⟩ } : KCopy), by decide +kernel⟩,
    ⟨(((((State.reset.wr (pgTile 5) 8 1).wrMem (physOf 5 (ownBase + 0x400)) 16 0xF1E2D3C4B5A69788).setTag (physOf 5 (ownBase + 0x400)) 7).setBank (pgEccT 5) 0 { inited := true }).setTile 5 { mode := 3, work := true, copies := [{ kcopy 3 [(0, 11, false), (1, 11, false), (2, 1024, false)] with caps := (setAt (setAt (setAt (List.replicate 16 {}) 0 Cap.all) 1 Cap.all) 4 ⟨ownBase + 0x80000 * 2 ^ 40 + 0x1FF * 2 ^ 80, true⟩) }, {}, {}] }), ({ kcopy 3 [(0, 11, false), (1, 11, false), (2, 1024, false)] with caps := (setAt (setAt (setAt (List.replicate 16 {}) 0 Cap.all) 1 Cap.all) 4 ⟨ownBase + 0x80000 * 2 ^ 40 + 0x1FF * 2 ^ 80, true⟩) } : KCopy), by decide +kernel⟩,
    ⟨(((((State.reset.wr (pgTile 5) 8 1).wrMem (physOf 5 (ownBase + 0x1400)) 16 0xF1E2D3C4B5A69788).setTag (physOf 5 (ownBase + 0x1400)) 7).setBank (pgEccT 5) 0 { inited := true }).setTile 5 { mode := 1, work := true, copies := [{ kcopy 3 [(0, 11, false), (1, 11, false), (2, 5120, false)] with caps := (setAt (setAt (setAt (List.replicate 16 {}) 0 Cap.all) 1 Cap.all) 4 ⟨ownBase + 0x80000 * 2 ^ 40 + 0x1FF * 2 ^ 80, true⟩) }, {}, {}], freeBase := 1, freeSize := 16 }), ({ kcopy 3 [(0, 11, false), (1, 11, false), (2, 5120, false)] with caps := (setAt (setAt (setAt (List.replicate 16 {}) 0 Cap.all) 1 Cap.all) 4 ⟨ownBase + 0x80000 * 2 ^ 40 + 0x1FF * 2 ^ 80, true⟩) } : KCopy), by decide +kernel⟩,
    ⟨(((((State.reset.wr (pgTile 5) 8 1).setFld pgEccD 0x048 31 0 0xAAAAAAAA).wrMem 0x1000 16 0).setBank (pgEccT 5) 0 { inited := true }).setTile 5 { mode := 3, work := true, copies := [(kcopy 3 [(0, 11, false), (1, 11, false), (2, 4096, false)]), {}, {}] }), (kcopy 3 [(0, 11, false), (1, 11, false), (2, 4096, false)]), by decide +kernel⟩,
    ⟨((((((State.reset.wr (pgTile 5) 8 1).wrMem (physOf 5 (ownBase + 0x3FE00 + 16 * 7)) 16 (ownBase + 0x2000 + 0x1000 * 2 ^ 40 + 0x1FF * 2 ^ 80)).setTag (physOf 5 (ownBase + 0x3FE00 + 16 * 7)) 7).wrMem (physOf 5 (ownBase + 0x400)) 16 0xF1E2D3C4B5A69788 true).setBank (pgEccT 5) 0 { inited := true }).setTile 5 { mode := 3, work := true, copies := [{ run := true, pc := ownBase + 0x100, rsp := ownBase + 0x1FF80, depth := 3, file := [(0, 11, false), (1, 11, false), (2, 1024, false)], caps := setAt (setAt (setAt (List.replicate 16 {}) 0 Cap.all) 1 ⟨ownBase + 0x10000 + 0x10000 * 2 ^ 40 + 0x1FF * 2 ^ 80, true⟩) 5 ⟨ownBase + 0x1000 * 2 ^ 40 + 0x1FF * 2 ^ 80, true⟩ }, {}, {}] }), ({ run := true, pc := ownBase + 0x100, rsp := ownBase + 0x1FF80, depth := 3, file := [(0, 11, false), (1, 11, false), (2, 1024, false)], caps := setAt (setAt (setAt (List.replicate 16 {}) 0 Cap.all) 1 ⟨ownBase + 0x10000 + 0x10000 * 2 ^ 40 + 0x1FF * 2 ^ 80, true⟩) 5 ⟨ownBase + 0x1000 * 2 ^ 40 + 0x1FF * 2 ^ 80, true⟩ } : KCopy), by decide +kernel⟩,
    ⟨(((((State.reset.wr (pgTile 5) 8 1).wrMem (physOf 5 (ownBase + 0x3FE00 + 16 * 3)) 16 (ownBase + 0x2000 + 0x1000 * 2 ^ 40 + 0x1FF * 2 ^ 80)).setTag (physOf 5 (ownBase + 0x3FE00 + 16 * 3)) 7).setBank (pgEccT 5) 0 { inited := true }).setTile 5 { mode := 3, work := true, copies := [{ run := true, pc := ownBase + 0x100, rsp := ownBase + 0x1FF80, depth := 3, file := [(0, 11, false), (1, 11, false), (2, 1024, false)], caps := setAt (setAt (setAt (List.replicate 16 {}) 0 Cap.all) 1 ⟨ownBase + 0x10000 + 0x10000 * 2 ^ 40 + 0x1FF * 2 ^ 80, true⟩) 5 {} }, {}, {}] }), ({ run := true, pc := ownBase + 0x100, rsp := ownBase + 0x1FF80, depth := 3, file := [(0, 11, false), (1, 11, false), (2, 1024, false)], caps := setAt (setAt (setAt (List.replicate 16 {}) 0 Cap.all) 1 ⟨ownBase + 0x10000 + 0x10000 * 2 ^ 40 + 0x1FF * 2 ^ 80, true⟩) 5 {} } : KCopy), by decide +kernel⟩⟩

theorem witness_KolotteLoads_8 :
    (∃ (s : State) (k : KCopy), ((Instr.ldt issue 4 5).wf = true) ∧ (s.calm = true) ∧ (s.solo issue (.ldt 4 5) = true) ∧ (s.copyOf issue = k) ∧ (k.entry (k.top - 1) = (4096, false)) ∧ (4096 < 2 ^ 32) ∧ ((s.kx issue.tile issue.copy).canEnter 4 (⟨ownBase + 0x2000 + 0x1000 * 2 ^ 40 + 0x1FF * 2 ^ 80, true⟩ : Cap) = true) ∧ (false = false) ∧ ((k.cap 5).usable = true) ∧ ((k.cap 5).perm 0 = true) ∧ ((k.cap 5).perm 3 = true) ∧ ((k.cap 5).covers ((k.cap 5).base + 4096) 16 = false) ∧ (inPages ((k.cap 5).base + 4096) = false))
    ∧ (∃ (s : State) (k : KCopy), ((Instr.ldt issue 4 5).wf = true) ∧ (s.calm = true) ∧ (s.solo issue (.ldt 4 5) = true) ∧ (s.copyOf issue = k) ∧ (k.entry (k.top - 1) = (1025, false)) ∧ (1025 < 2 ^ 32) ∧ ((s.kx issue.tile issue.copy).canEnter 6 (⟨ownBase + 0x2000 + 0x1000 * 2 ^ 40 + 0x1FF * 2 ^ 80, true⟩ : Cap) = true) ∧ (false = false) ∧ ((k.cap 5).usable = true) ∧ ((k.cap 5).perm 0 = true) ∧ ((k.cap 5).perm 3 = true) ∧ ((k.cap 5).covers ((k.cap 5).base + 1025) 16 = true) ∧ (((k.cap 5).base + 1025) % 16 ≠ 0) ∧ (inOwn ((k.cap 5).base + 1025) 16 = true) ∧ ((s.kx issue.tile issue.copy).pairBad ((k.cap 5).base + 1025) 16 false = none)) :=
    ⟨⟨(((((State.reset.wr (pgTile 5) 8 1).wrMem (physOf 5 (ownBase + 0x3FE00 + 16 * 4)) 16 (ownBase + 0x2000 + 0x1000 * 2 ^ 40 + 0x1FF * 2 ^ 80)).setTag (physOf 5 (ownBase + 0x3FE00 + 16 * 4)) 7).setBank (pgEccT 5) 0 { inited := true }).setTile 5 { mode := 3, work := true, copies := [{ run := true, pc := ownBase + 0x100, rsp := ownBase + 0x1FF80, depth := 3, file := [(0, 11, false), (1, 11, false), (2, 4096, false)], caps := setAt (setAt (setAt (List.replicate 16 {}) 0 Cap.all) 1 ⟨ownBase + 0x10000 + 0x10000 * 2 ^ 40 + 0x1FF * 2 ^ 80, true⟩) 5 ⟨ownBase + 0x1000 * 2 ^ 40 + 0x1FF * 2 ^ 80, true⟩ }, {}, {}] }), ({ run := true, pc := ownBase + 0x100, rsp := ownBase + 0x1FF80, depth := 3, file := [(0, 11, false), (1, 11, false), (2, 4096, false)], caps := setAt (setAt (setAt (List.replicate 16 {}) 0 Cap.all) 1 ⟨ownBase + 0x10000 + 0x10000 * 2 ^ 40 + 0x1FF * 2 ^ 80, true⟩) 5 ⟨ownBase + 0x1000 * 2 ^ 40 + 0x1FF * 2 ^ 80, true⟩ } : KCopy), by decide +kernel⟩,
    ⟨(((((State.reset.wr (pgTile 5) 8 1).wrMem (physOf 5 (ownBase + 0x3FE00 + 16 * 6)) 16 (ownBase + 0x2000 + 0x1000 * 2 ^ 40 + 0x1FF * 2 ^ 80)).setTag (physOf 5 (ownBase + 0x3FE00 + 16 * 6)) 7).setBank (pgEccT 5) 0 { inited := true }).setTile 5 { mode := 3, work := true, copies := [{ run := true, pc := ownBase + 0x100, rsp := ownBase + 0x1FF80, depth := 3, file := [(0, 11, false), (1, 11, false), (2, 1025, false)], caps := setAt (setAt (setAt (List.replicate 16 {}) 0 Cap.all) 1 ⟨ownBase + 0x10000 + 0x10000 * 2 ^ 40 + 0x1FF * 2 ^ 80, true⟩) 5 ⟨ownBase + 0x1000 * 2 ^ 40 + 0x1FF * 2 ^ 80, true⟩ }, {}, {}] }), ({ run := true, pc := ownBase + 0x100, rsp := ownBase + 0x1FF80, depth := 3, file := [(0, 11, false), (1, 11, false), (2, 1025, false)], caps := setAt (setAt (setAt (List.replicate 16 {}) 0 Cap.all) 1 ⟨ownBase + 0x10000 + 0x10000 * 2 ^ 40 + 0x1FF * 2 ^ 80, true⟩) 5 ⟨ownBase + 0x1000 * 2 ^ 40 + 0x1FF * 2 ^ 80, true⟩ } : KCopy), by decide +kernel⟩⟩

theorem witness_KolotteStores_1 :
    (∃ (s : State) (k : KCopy), ((Instr.stb issue 4).wf = true) ∧ (s.calm = true) ∧ (s.solo issue (.st .stb 4) = true) ∧ (s.copyOf issue = k) ∧ (k.entry (k.top - 2) = (1024, false)) ∧ (1024 < 2 ^ 32) ∧ (k.entry (k.top - 1) = (2712847316, false)) ∧ (2712847316 < 2 ^ 32) ∧ (false = false) ∧ ((k.cap 4).usable = true) ∧ ((k.cap 4).perm 1 = true) ∧ ((k.cap 4).covers ((k.cap 4).base + 1024) 1 = true) ∧ (((k.cap 4).base + 1024) % 1 = 0) ∧ (inOwn ((k.cap 4).base + 1024) 1 = true) ∧ ((s.kx issue.tile issue.copy).pairBad ((k.cap 4).base + 1024) 1 true = none) ∧ (s.usable (physOf issue.tile ((k.cap 4).base + 1024)) 1 = true) ∧ (bit (s.flipRegs (pgEccT issue.tile)).1 31 = false))
    ∧ (∃ (s : State) (k : KCopy), ((Instr.stb issue 1).wf = true) ∧ (s.calm = true) ∧ (s.solo issue (.st .stb 1) = true) ∧ (s.copyOf issue = k) ∧ (k.entry (k.top - 2) = (4096, false)) ∧ (4096 < 2 ^ 32) ∧ (k.entry (k.top - 1) = (2712847316, false)) ∧ (2712847316 < 2 ^ 32) ∧ (false = false) ∧ ((k.cap 1).usable = true) ∧ ((k.cap 1).perm 1 = true) ∧ ((k.cap 1).covers ((k.cap 1).base + 4096) 1 = true) ∧ (((k.cap 1).base + 4096) % 1 = 0) ∧ (inOwn ((k.cap 1).base + 4096) 1 = false) ∧ (((List.range 1).all fun j => tileMapped (((k.cap 1).base + 4096) + j)) = true) ∧ (pageAllowed (k.cap 1) ((k.cap 1).base + 4096) true = true) ∧ (inPages ((k.cap 1).base + 4096) = false) ∧ (((s.tileH issue.tile).mode ≤ 1 ∧ issue.copy = 0)))
    ∧ (∃ (s : State) (k : KCopy), ((Instr.stb issue 1).wf = true) ∧ (s.calm = true) ∧ (s.solo issue (.st .stb 1) = true) ∧ (s.copyOf issue = k) ∧ (k.entry (k.top - 2) = (4096, false)) ∧ (4096 < 2 ^ 32) ∧ (k.entry (k.top - 1) = (2712847316, false)) ∧ (2712847316 < 2 ^ 32) ∧ (false = false) ∧ ((k.cap 1).usable = true) ∧ ((k.cap 1).perm 1 = true) ∧ ((k.cap 1).covers ((k.cap 1).base + 4096) 1 = true) ∧ (((k.cap 1).base + 4096) % 1 = 0) ∧ (((k.cap 1).base + 4096) + 1 ≤ dramSize) ∧ (¬((s.tileH issue.tile).mode ≤ 1 ∧ issue.copy = 0)) ∧ (s.usable ((k.cap 1).base + 4096) 1 = true))
    ∧ (∃ (s : State) (k : KCopy), ((Instr.stb issue 5).wf = true) ∧ (s.calm = true) ∧ (s.solo issue (.st .stb 5) = true) ∧ (s.copyOf issue = k) ∧ (k.entry (k.top - 2) = (1024, false)) ∧ (1024 < 2 ^ 32) ∧ (k.entry (k.top - 1) = (2712847316, false)) ∧ (2712847316 < 2 ^ 32) ∧ ((s.kx issue.tile issue.copy).canEnter 3 (⟨ownBase + 0x2000 + 0x1000 * 2 ^ 40 + 0x1FF * 2 ^ 80, true⟩ : Cap) = true) ∧ (false = false) ∧ (((k.cap 5).usable = false ∨ (k.cap 5).perm 1 = false)))
    ∧ (∃ (s : State) (k : KCopy), ((Instr.stb issue 5).wf = true) ∧ (s.calm = true) ∧ (s.solo issue (.st .stb 5) = true) ∧ (s.copyOf issue = k) ∧ (k.entry (k.top - 2) = (4096, false)) ∧ (4096 < 2 ^ 32) ∧ (k.entry (k.top - 1) = (2712847316, false)) ∧ (2712847316 < 2 ^ 32) ∧ ((s.kx issue.tile issue.copy).canEnter 4 (⟨ownBase + 0x2000 + 0x1000 * 2 ^ 40 + 0x1FF * 2 ^ 80, true⟩ : Cap) = true) ∧ (false = false) ∧ ((k.cap 5).usable = true) ∧ ((k.cap 5).perm 1 = true) ∧ ((k.cap 5).covers ((k.cap 5).base + 4096) 1 = false) ∧ (inPages ((k.cap 5).base + 4096) = false))
    ∧ (∃ (s : State) (k : KCopy), ((Instr.sth issue 4).wf = true) ∧ (s.calm = true) ∧ (s.solo issue (.st .sth 4) = true) ∧ (s.copyOf issue = k) ∧ (k.entry (k.top - 2) = (1024, false)) ∧ (1024 < 2 ^ 32) ∧ (k.entry (k.top - 1) = (2712847316, false)) ∧ (2712847316 < 2 ^ 32) ∧ (false = false) ∧ ((k.cap 4).usable = true) ∧ ((k.cap 4).perm 1 = true) ∧ ((k.cap 4).covers ((k.cap 4).base + 1024) 2 = true) ∧ (((k.cap 4).base + 1024) % 2 = 0) ∧ (inOwn ((k.cap 4).base + 1024) 2 = true) ∧ ((s.kx issue.tile issue.copy).pairBad ((k.cap 4).base + 1024) 2 true = none) ∧ (s.usable (physOf issue.tile ((k.cap 4).base + 1024)) 2 = true) ∧ (bit (s.flipRegs (pgEccT issue.tile)).1 31 = false)) :=
    ⟨⟨(inTile { kcopy 4 [(0, 11, false), (1, 11, false), (2, 1024, false), (3, 2712847316, false)] with caps := (setAt (setAt (setAt (List.replicate 16 {}) 0 Cap.all) 1 Cap.all) 4 ⟨ownBase + 0x80000 * 2 ^ 40 + 0x1FF * 2 ^ 80, true⟩) }), ({ kcopy 4 [(0, 11, false), (1, 11, false), (2, 1024, false), (3, 2712847316, false)] with caps := (setAt (setAt (setAt (List.replicate 16 {}) 0 Cap.all) 1 Cap.all) 4 ⟨ownBase + 0x80000 * 2 ^ 40 + 0x1FF * 2 ^ 80, true⟩) } : KCopy), by decide +kernel⟩,
    ⟨(((State.reset.wr (pgTile 5) 8 1).setBank (pgEccT 5) 0 { inited := true }).setTile 5 { mode := 0, work := true, copies := [(kcopy 4 [(0, 11, false), (1, 11, false), (2, 4096, false), (3, 2712847316, false)]), {}, {}] }), (kcopy 4 [(0, 11, false), (1, 11, false), (2, 4096, false), (3, 2712847316, false)]), by decide +kernel⟩,
    ⟨(((((State.reset.wr (pgTile 5) 8 1).setFld pgEccD 0x048 31 0 0xAAAAAAAA).wrMem 0x1000 16 0).setBank (pgEccT 5) 0 { inited := true }).setTile 5 { mode := 3, work := true, copies := [(kcopy 4 [(0, 11, false), (1, 11, false), (2, 4096, false), (3, 2712847316, false)]), {}, {}] }), (kcopy 4 [(0, 11, false), (1, 11, false), (2, 4096, false), (3, 2712847316, false)]), by decide +kernel⟩,
    ⟨(((((State.reset.wr (pgTile 5) 8 1).wrMem (physOf 5 (ownBase + 0x3FE00 + 16 * 3)) 16 (ownBase + 0x2000 + 0x1000 * 2 ^ 40 + 0x1FF * 2 ^ 80)).setTag (physOf 5 (ownBase + 0x3FE00 + 16 * 3)) 7).setBank (pgEccT 5) 0 { inited := true }).setTile 5 { mode := 3, work := true, copies := [{ run := true, pc := ownBase + 0x100, rsp := ownBase + 0x1FF80, depth := 4, file := [(0, 11, false), (1, 11, false), (2, 1024, false), (3, 2712847316, false)], caps := setAt (setAt (setAt (List.replicate 16 {}) 0 Cap.all) 1 ⟨ownBase + 0x10000 + 0x10000 * 2 ^ 40 + 0x1FF * 2 ^ 80, true⟩) 5 {} }, {}, {}] }), ({ run := true, pc := ownBase + 0x100, rsp := ownBase + 0x1FF80, depth := 4, file := [(0, 11, false), (1, 11, false), (2, 1024, false), (3, 2712847316, false)], caps := setAt (setAt (setAt (List.replicate 16 {}) 0 Cap.all) 1 ⟨ownBase + 0x10000 + 0x10000 * 2 ^ 40 + 0x1FF * 2 ^ 80, true⟩) 5 {} } : KCopy), by decide +kernel⟩,
    ⟨(((((State.reset.wr (pgTile 5) 8 1).wrMem (physOf 5 (ownBase + 0x3FE00 + 16 * 4)) 16 (ownBase + 0x2000 + 0x1000 * 2 ^ 40 + 0x1FF * 2 ^ 80)).setTag (physOf 5 (ownBase + 0x3FE00 + 16 * 4)) 7).setBank (pgEccT 5) 0 { inited := true }).setTile 5 { mode := 3, work := true, copies := [{ run := true, pc := ownBase + 0x100, rsp := ownBase + 0x1FF80, depth := 4, file := [(0, 11, false), (1, 11, false), (2, 4096, false), (3, 2712847316, false)], caps := setAt (setAt (setAt (List.replicate 16 {}) 0 Cap.all) 1 ⟨ownBase + 0x10000 + 0x10000 * 2 ^ 40 + 0x1FF * 2 ^ 80, true⟩) 5 ⟨ownBase + 0x1000 * 2 ^ 40 + 0x1FF * 2 ^ 80, true⟩ }, {}, {}] }), ({ run := true, pc := ownBase + 0x100, rsp := ownBase + 0x1FF80, depth := 4, file := [(0, 11, false), (1, 11, false), (2, 4096, false), (3, 2712847316, false)], caps := setAt (setAt (setAt (List.replicate 16 {}) 0 Cap.all) 1 ⟨ownBase + 0x10000 + 0x10000 * 2 ^ 40 + 0x1FF * 2 ^ 80, true⟩) 5 ⟨ownBase + 0x1000 * 2 ^ 40 + 0x1FF * 2 ^ 80, true⟩ } : KCopy), by decide +kernel⟩,
    ⟨(inTile { kcopy 4 [(0, 11, false), (1, 11, false), (2, 1024, false), (3, 2712847316, false)] with caps := (setAt (setAt (setAt (List.replicate 16 {}) 0 Cap.all) 1 Cap.all) 4 ⟨ownBase + 0x80000 * 2 ^ 40 + 0x1FF * 2 ^ 80, true⟩) }), ({ kcopy 4 [(0, 11, false), (1, 11, false), (2, 1024, false), (3, 2712847316, false)] with caps := (setAt (setAt (setAt (List.replicate 16 {}) 0 Cap.all) 1 Cap.all) 4 ⟨ownBase + 0x80000 * 2 ^ 40 + 0x1FF * 2 ^ 80, true⟩) } : KCopy), by decide +kernel⟩⟩

theorem witness_KolotteStores_2 :
    (∃ (s : State) (k : KCopy), ((Instr.sth issue 1).wf = true) ∧ (s.calm = true) ∧ (s.solo issue (.st .sth 1) = true) ∧ (s.copyOf issue = k) ∧ (k.entry (k.top - 2) = (4096, false)) ∧ (4096 < 2 ^ 32) ∧ (k.entry (k.top - 1) = (2712847316, false)) ∧ (2712847316 < 2 ^ 32) ∧ (false = false) ∧ ((k.cap 1).usable = true) ∧ ((k.cap 1).perm 1 = true) ∧ ((k.cap 1).covers ((k.cap 1).base + 4096) 2 = true) ∧ (((k.cap 1).base + 4096) % 2 = 0) ∧ (inOwn ((k.cap 1).base + 4096) 1 = false) ∧ (((List.range 2).all fun j => tileMapped (((k.cap 1).base + 4096) + j)) = true) ∧ (pageAllowed (k.cap 1) ((k.cap 1).base + 4096) true = true) ∧ (inPages ((k.cap 1).base + 4096) = false) ∧ (((s.tileH issue.tile).mode ≤ 1 ∧ issue.copy = 0)))
    ∧ (∃ (s : State) (k : KCopy), ((Instr.sth issue 1).wf = true) ∧ (s.calm = true) ∧ (s.solo issue (.st .sth 1) = true) ∧ (s.copyOf issue = k) ∧ (k.entry (k.top - 2) = (4096, false)) ∧ (4096 < 2 ^ 32) ∧ (k.entry (k.top - 1) = (2712847316, false)) ∧ (2712847316 < 2 ^ 32) ∧ (false = false) ∧ ((k.cap 1).usable = true) ∧ ((k.cap 1).perm 1 = true) ∧ ((k.cap 1).covers ((k.cap 1).base + 4096) 2 = true) ∧ (((k.cap 1).base + 4096) % 2 = 0) ∧ (((k.cap 1).base + 4096) + 2 ≤ dramSize) ∧ (¬((s.tileH issue.tile).mode ≤ 1 ∧ issue.copy = 0)) ∧ (s.usable ((k.cap 1).base + 4096) 2 = true))
    ∧ (∃ (s : State) (k : KCopy), ((Instr.sth issue 5).wf = true) ∧ (s.calm = true) ∧ (s.solo issue (.st .sth 5) = true) ∧ (s.copyOf issue = k) ∧ (k.entry (k.top - 2) = (1024, false)) ∧ (1024 < 2 ^ 32) ∧ (k.entry (k.top - 1) = (2712847316, false)) ∧ (2712847316 < 2 ^ 32) ∧ ((s.kx issue.tile issue.copy).canEnter 3 (⟨ownBase + 0x2000 + 0x1000 * 2 ^ 40 + 0x1FF * 2 ^ 80, true⟩ : Cap) = true) ∧ (false = false) ∧ (((k.cap 5).usable = false ∨ (k.cap 5).perm 1 = false)))
    ∧ (∃ (s : State) (k : KCopy), ((Instr.sth issue 5).wf = true) ∧ (s.calm = true) ∧ (s.solo issue (.st .sth 5) = true) ∧ (s.copyOf issue = k) ∧ (k.entry (k.top - 2) = (4096, false)) ∧ (4096 < 2 ^ 32) ∧ (k.entry (k.top - 1) = (2712847316, false)) ∧ (2712847316 < 2 ^ 32) ∧ ((s.kx issue.tile issue.copy).canEnter 4 (⟨ownBase + 0x2000 + 0x1000 * 2 ^ 40 + 0x1FF * 2 ^ 80, true⟩ : Cap) = true) ∧ (false = false) ∧ ((k.cap 5).usable = true) ∧ ((k.cap 5).perm 1 = true) ∧ ((k.cap 5).covers ((k.cap 5).base + 4096) 2 = false) ∧ (inPages ((k.cap 5).base + 4096) = false))
    ∧ (∃ (s : State) (k : KCopy), ((Instr.sth issue 5).wf = true) ∧ (s.calm = true) ∧ (s.solo issue (.st .sth 5) = true) ∧ (s.copyOf issue = k) ∧ (k.entry (k.top - 2) = (1025, false)) ∧ (1025 < 2 ^ 32) ∧ (k.entry (k.top - 1) = (2712847316, false)) ∧ (2712847316 < 2 ^ 32) ∧ ((s.kx issue.tile issue.copy).canEnter 6 (⟨ownBase + 0x2000 + 0x1000 * 2 ^ 40 + 0x1FF * 2 ^ 80, true⟩ : Cap) = true) ∧ (false = false) ∧ ((k.cap 5).usable = true) ∧ ((k.cap 5).perm 1 = true) ∧ ((k.cap 5).covers ((k.cap 5).base + 1025) 2 = true) ∧ (((k.cap 5).base + 1025) % 2 ≠ 0) ∧ (inOwn ((k.cap 5).base + 1025) 2 = true) ∧ ((s.kx issue.tile issue.copy).pairBad ((k.cap 5).base + 1025) 2 true = none))
    ∧ (∃ (s : State) (k : KCopy), ((Instr.stw issue 4).wf = true) ∧ (s.calm = true) ∧ (s.solo issue (.st .stw 4) = true) ∧ (s.copyOf issue = k) ∧ (k.entry (k.top - 2) = (1024, false)) ∧ (1024 < 2 ^ 32) ∧ (k.entry (k.top - 1) = (2712847316, false)) ∧ (2712847316 < 2 ^ 32) ∧ (false = false) ∧ ((k.cap 4).usable = true) ∧ ((k.cap 4).perm 1 = true) ∧ ((k.cap 4).covers ((k.cap 4).base + 1024) 4 = true) ∧ (((k.cap 4).base + 1024) % 4 = 0) ∧ (inOwn ((k.cap 4).base + 1024) 4 = true) ∧ ((s.kx issue.tile issue.copy).pairBad ((k.cap 4).base + 1024) 4 true = none) ∧ (s.usable (physOf issue.tile ((k.cap 4).base + 1024)) 4 = true) ∧ (bit (s.flipRegs (pgEccT issue.tile)).1 31 = false)) :=
    ⟨⟨(((State.reset.wr (pgTile 5) 8 1).setBank (pgEccT 5) 0 { inited := true }).setTile 5 { mode := 0, work := true, copies := [(kcopy 4 [(0, 11, false), (1, 11, false), (2, 4096, false), (3, 2712847316, false)]), {}, {}] }), (kcopy 4 [(0, 11, false), (1, 11, false), (2, 4096, false), (3, 2712847316, false)]), by decide +kernel⟩,
    ⟨(((((State.reset.wr (pgTile 5) 8 1).setFld pgEccD 0x048 31 0 0xAAAAAAAA).wrMem 0x1000 16 0).setBank (pgEccT 5) 0 { inited := true }).setTile 5 { mode := 3, work := true, copies := [(kcopy 4 [(0, 11, false), (1, 11, false), (2, 4096, false), (3, 2712847316, false)]), {}, {}] }), (kcopy 4 [(0, 11, false), (1, 11, false), (2, 4096, false), (3, 2712847316, false)]), by decide +kernel⟩,
    ⟨(((((State.reset.wr (pgTile 5) 8 1).wrMem (physOf 5 (ownBase + 0x3FE00 + 16 * 3)) 16 (ownBase + 0x2000 + 0x1000 * 2 ^ 40 + 0x1FF * 2 ^ 80)).setTag (physOf 5 (ownBase + 0x3FE00 + 16 * 3)) 7).setBank (pgEccT 5) 0 { inited := true }).setTile 5 { mode := 3, work := true, copies := [{ run := true, pc := ownBase + 0x100, rsp := ownBase + 0x1FF80, depth := 4, file := [(0, 11, false), (1, 11, false), (2, 1024, false), (3, 2712847316, false)], caps := setAt (setAt (setAt (List.replicate 16 {}) 0 Cap.all) 1 ⟨ownBase + 0x10000 + 0x10000 * 2 ^ 40 + 0x1FF * 2 ^ 80, true⟩) 5 {} }, {}, {}] }), ({ run := true, pc := ownBase + 0x100, rsp := ownBase + 0x1FF80, depth := 4, file := [(0, 11, false), (1, 11, false), (2, 1024, false), (3, 2712847316, false)], caps := setAt (setAt (setAt (List.replicate 16 {}) 0 Cap.all) 1 ⟨ownBase + 0x10000 + 0x10000 * 2 ^ 40 + 0x1FF * 2 ^ 80, true⟩) 5 {} } : KCopy), by decide +kernel⟩,
    ⟨(((((State.reset.wr (pgTile 5) 8 1).wrMem (physOf 5 (ownBase + 0x3FE00 + 16 * 4)) 16 (ownBase + 0x2000 + 0x1000 * 2 ^ 40 + 0x1FF * 2 ^ 80)).setTag (physOf 5 (ownBase + 0x3FE00 + 16 * 4)) 7).setBank (pgEccT 5) 0 { inited := true }).setTile 5 { mode := 3, work := true, copies := [{ run := true, pc := ownBase + 0x100, rsp := ownBase + 0x1FF80, depth := 4, file := [(0, 11, false), (1, 11, false), (2, 4096, false), (3, 2712847316, false)], caps := setAt (setAt (setAt (List.replicate 16 {}) 0 Cap.all) 1 ⟨ownBase + 0x10000 + 0x10000 * 2 ^ 40 + 0x1FF * 2 ^ 80, true⟩) 5 ⟨ownBase + 0x1000 * 2 ^ 40 + 0x1FF * 2 ^ 80, true⟩ }, {}, {}] }), ({ run := true, pc := ownBase + 0x100, rsp := ownBase + 0x1FF80, depth := 4, file := [(0, 11, false), (1, 11, false), (2, 4096, false), (3, 2712847316, false)], caps := setAt (setAt (setAt (List.replicate 16 {}) 0 Cap.all) 1 ⟨ownBase + 0x10000 + 0x10000 * 2 ^ 40 + 0x1FF * 2 ^ 80, true⟩) 5 ⟨ownBase + 0x1000 * 2 ^ 40 + 0x1FF * 2 ^ 80, true⟩ } : KCopy), by decide +kernel⟩,
    ⟨(((((State.reset.wr (pgTile 5) 8 1).wrMem (physOf 5 (ownBase + 0x3FE00 + 16 * 6)) 16 (ownBase + 0x2000 + 0x1000 * 2 ^ 40 + 0x1FF * 2 ^ 80)).setTag (physOf 5 (ownBase + 0x3FE00 + 16 * 6)) 7).setBank (pgEccT 5) 0 { inited := true }).setTile 5 { mode := 3, work := true, copies := [{ run := true, pc := ownBase + 0x100, rsp := ownBase + 0x1FF80, depth := 4, file := [(0, 11, false), (1, 11, false), (2, 1025, false), (3, 2712847316, false)], caps := setAt (setAt (setAt (List.replicate 16 {}) 0 Cap.all) 1 ⟨ownBase + 0x10000 + 0x10000 * 2 ^ 40 + 0x1FF * 2 ^ 80, true⟩) 5 ⟨ownBase + 0x1000 * 2 ^ 40 + 0x1FF * 2 ^ 80, true⟩ }, {}, {}] }), ({ run := true, pc := ownBase + 0x100, rsp := ownBase + 0x1FF80, depth := 4, file := [(0, 11, false), (1, 11, false), (2, 1025, false), (3, 2712847316, false)], caps := setAt (setAt (setAt (List.replicate 16 {}) 0 Cap.all) 1 ⟨ownBase + 0x10000 + 0x10000 * 2 ^ 40 + 0x1FF * 2 ^ 80, true⟩) 5 ⟨ownBase + 0x1000 * 2 ^ 40 + 0x1FF * 2 ^ 80, true⟩ } : KCopy), by decide +kernel⟩,
    ⟨(inTile { kcopy 4 [(0, 11, false), (1, 11, false), (2, 1024, false), (3, 2712847316, false)] with caps := (setAt (setAt (setAt (List.replicate 16 {}) 0 Cap.all) 1 Cap.all) 4 ⟨ownBase + 0x80000 * 2 ^ 40 + 0x1FF * 2 ^ 80, true⟩) }), ({ kcopy 4 [(0, 11, false), (1, 11, false), (2, 1024, false), (3, 2712847316, false)] with caps := (setAt (setAt (setAt (List.replicate 16 {}) 0 Cap.all) 1 Cap.all) 4 ⟨ownBase + 0x80000 * 2 ^ 40 + 0x1FF * 2 ^ 80, true⟩) } : KCopy), by decide +kernel⟩⟩

theorem witness_KolotteStores_3 :
    (∃ (s : State) (k : KCopy), ((Instr.stw issue 1).wf = true) ∧ (s.calm = true) ∧ (s.solo issue (.st .stw 1) = true) ∧ (s.copyOf issue = k) ∧ (k.entry (k.top - 2) = (4096, false)) ∧ (4096 < 2 ^ 32) ∧ (k.entry (k.top - 1) = (2712847316, false)) ∧ (2712847316 < 2 ^ 32) ∧ (false = false) ∧ ((k.cap 1).usable = true) ∧ ((k.cap 1).perm 1 = true) ∧ ((k.cap 1).covers ((k.cap 1).base + 4096) 4 = true) ∧ (((k.cap 1).base + 4096) % 4 = 0) ∧ (inOwn ((k.cap 1).base + 4096) 1 = false) ∧ (((List.range 4).all fun j => tileMapped (((k.cap 1).base + 4096) + j)) = true) ∧ (pageAllowed (k.cap 1) ((k.cap 1).base + 4096) true = true) ∧ (((s.tileH issue.tile).mode ≤ 1 ∧ issue.copy = 0)))
    ∧ (∃ (s : State) (k : KCopy), ((Instr.stw issue 1).wf = true) ∧ (s.calm = true) ∧ (s.solo issue (.st .stw 1) = true) ∧ (s.copyOf issue = k) ∧ (k.entry (k.top - 2) = (4096, false)) ∧ (4096 < 2 ^ 32) ∧ (k.entry (k.top - 1) = (2712847316, false)) ∧ (2712847316 < 2 ^ 32) ∧ (false = false) ∧ ((k.cap 1).usable = true) ∧ ((k.cap 1).perm 1 = true) ∧ ((k.cap 1).covers ((k.cap 1).base + 4096) 4 = true) ∧ (((k.cap 1).base + 4096) % 4 = 0) ∧ (((k.cap 1).base + 4096) + 4 ≤ dramSize) ∧ (¬((s.tileH issue.tile).mode ≤ 1 ∧ issue.copy = 0)) ∧ (s.usable ((k.cap 1).base + 4096) 4 = true))
    ∧ (∃ (s : State) (k : KCopy), ((Instr.stw issue 5).wf = true) ∧ (s.calm = true) ∧ (s.solo issue (.st .stw 5) = true) ∧ (s.copyOf issue = k) ∧ (k.entry (k.top - 2) = (1024, false)) ∧ (1024 < 2 ^ 32) ∧ (k.entry (k.top - 1) = (2712847316, false)) ∧ (2712847316 < 2 ^ 32) ∧ ((s.kx issue.tile issue.copy).canEnter 3 (⟨ownBase + 0x2000 + 0x1000 * 2 ^ 40 + 0x1FF * 2 ^ 80, true⟩ : Cap) = true) ∧ (false = false) ∧ (((k.cap 5).usable = false ∨ (k.cap 5).perm 1 = false)))
    ∧ (∃ (s : State) (k : KCopy), ((Instr.stw issue 5).wf = true) ∧ (s.calm = true) ∧ (s.solo issue (.st .stw 5) = true) ∧ (s.copyOf issue = k) ∧ (k.entry (k.top - 2) = (4096, false)) ∧ (4096 < 2 ^ 32) ∧ (k.entry (k.top - 1) = (2712847316, false)) ∧ (2712847316 < 2 ^ 32) ∧ ((s.kx issue.tile issue.copy).canEnter 4 (⟨ownBase + 0x2000 + 0x1000 * 2 ^ 40 + 0x1FF * 2 ^ 80, true⟩ : Cap) = true) ∧ (false = false) ∧ ((k.cap 5).usable = true) ∧ ((k.cap 5).perm 1 = true) ∧ ((k.cap 5).covers ((k.cap 5).base + 4096) 4 = false) ∧ (inPages ((k.cap 5).base + 4096) = false))
    ∧ (∃ (s : State) (k : KCopy), ((Instr.stw issue 5).wf = true) ∧ (s.calm = true) ∧ (s.solo issue (.st .stw 5) = true) ∧ (s.copyOf issue = k) ∧ (k.entry (k.top - 2) = (1025, false)) ∧ (1025 < 2 ^ 32) ∧ (k.entry (k.top - 1) = (2712847316, false)) ∧ (2712847316 < 2 ^ 32) ∧ ((s.kx issue.tile issue.copy).canEnter 6 (⟨ownBase + 0x2000 + 0x1000 * 2 ^ 40 + 0x1FF * 2 ^ 80, true⟩ : Cap) = true) ∧ (false = false) ∧ ((k.cap 5).usable = true) ∧ ((k.cap 5).perm 1 = true) ∧ ((k.cap 5).covers ((k.cap 5).base + 1025) 4 = true) ∧ (((k.cap 5).base + 1025) % 4 ≠ 0) ∧ (inOwn ((k.cap 5).base + 1025) 4 = true) ∧ ((s.kx issue.tile issue.copy).pairBad ((k.cap 5).base + 1025) 4 true = none))
    ∧ (∃ (s : State) (k : KCopy), ((Instr.std issue 4).wf = true) ∧ (s.calm = true) ∧ (s.solo issue (.st .std 4) = true) ∧ (s.copyOf issue = k) ∧ (k.entry (k.top - 3) = (1024, false)) ∧ (1024 < 2 ^ 32) ∧ (k.entry (k.top - 2) = (2712847316, false)) ∧ (2712847316 < 2 ^ 32) ∧ (k.entry (k.top - 1) = (1432778632, false)) ∧ (1432778632 < 2 ^ 32) ∧ (false = false) ∧ ((k.cap 4).usable = true) ∧ ((k.cap 4).perm 1 = true) ∧ ((k.cap 4).covers ((k.cap 4).base + 1024) 8 = true) ∧ (((k.cap 4).base + 1024) % 8 = 0) ∧ (inOwn ((k.cap 4).base + 1024) 8 = true) ∧ ((s.kx issue.tile issue.copy).pairBad ((k.cap 4).base + 1024) 8 true = none) ∧ (s.usable (physOf issue.tile ((k.cap 4).base + 1024)) 8 = true) ∧ (bit (s.flipRegs (pgEccT issue.tile)).1 31 = false)) :=
    ⟨⟨(((State.reset.wr (pgTile 5) 8 1).setBank (pgEccT 5) 0 { inited := true }).setTile 5 { mode := 0, work := true, copies := [(kcopy 4 [(0, 11, false), (1, 11, false), (2, 4096, false), (3, 2712847316, false)]), {}, {}] }), (kcopy 4 [(0, 11, false), (1, 11, false), (2, 4096, false), (3, 2712847316, false)]), by decide +kernel⟩,
    ⟨(((((State.reset.wr (pgTile 5) 8 1).setFld pgEccD 0x048 31 0 0xAAAAAAAA).wrMem 0x1000 16 0).setBank (pgEccT 5) 0 { inited := true }).setTile 5 { mode := 3, work := true, copies := [(kcopy 4 [(0, 11, false), (1, 11, false), (2, 4096, false), (3, 2712847316, false)]), {}, {}] }), (kcopy 4 [(0, 11, false), (1, 11, false), (2, 4096, false), (3, 2712847316, false)]), by decide +kernel⟩,
    ⟨(((((State.reset.wr (pgTile 5) 8 1).wrMem (physOf 5 (ownBase + 0x3FE00 + 16 * 3)) 16 (ownBase + 0x2000 + 0x1000 * 2 ^ 40 + 0x1FF * 2 ^ 80)).setTag (physOf 5 (ownBase + 0x3FE00 + 16 * 3)) 7).setBank (pgEccT 5) 0 { inited := true }).setTile 5 { mode := 3, work := true, copies := [{ run := true, pc := ownBase + 0x100, rsp := ownBase + 0x1FF80, depth := 4, file := [(0, 11, false), (1, 11, false), (2, 1024, false), (3, 2712847316, false)], caps := setAt (setAt (setAt (List.replicate 16 {}) 0 Cap.all) 1 ⟨ownBase + 0x10000 + 0x10000 * 2 ^ 40 + 0x1FF * 2 ^ 80, true⟩) 5 {} }, {}, {}] }), ({ run := true, pc := ownBase + 0x100, rsp := ownBase + 0x1FF80, depth := 4, file := [(0, 11, false), (1, 11, false), (2, 1024, false), (3, 2712847316, false)], caps := setAt (setAt (setAt (List.replicate 16 {}) 0 Cap.all) 1 ⟨ownBase + 0x10000 + 0x10000 * 2 ^ 40 + 0x1FF * 2 ^ 80, true⟩) 5 {} } : KCopy), by decide +kernel⟩,
    ⟨(((((State.reset.wr (pgTile 5) 8 1).wrMem (physOf 5 (ownBase + 0x3FE00 + 16 * 4)) 16 (ownBase + 0x2000 + 0x1000 * 2 ^ 40 + 0x1FF * 2 ^ 80)).setTag (physOf 5 (ownBase + 0x3FE00 + 16 * 4)) 7).setBank (pgEccT 5) 0 { inited := true }).setTile 5 { mode := 3, work := true, copies := [{ run := true, pc := ownBase + 0x100, rsp := ownBase + 0x1FF80, depth := 4, file := [(0, 11, false), (1, 11, false), (2, 4096, false), (3, 2712847316, false)], caps := setAt (setAt (setAt (List.replicate 16 {}) 0 Cap.all) 1 ⟨ownBase + 0x10000 + 0x10000 * 2 ^ 40 + 0x1FF * 2 ^ 80, true⟩) 5 ⟨ownBase + 0x1000 * 2 ^ 40 + 0x1FF * 2 ^ 80, true⟩ }, {}, {}] }), ({ run := true, pc := ownBase + 0x100, rsp := ownBase + 0x1FF80, depth := 4, file := [(0, 11, false), (1, 11, false), (2, 4096, false), (3, 2712847316, false)], caps := setAt (setAt (setAt (List.replicate 16 {}) 0 Cap.all) 1 ⟨ownBase + 0x10000 + 0x10000 * 2 ^ 40 + 0x1FF * 2 ^ 80, true⟩) 5 ⟨ownBase + 0x1000 * 2 ^ 40 + 0x1FF * 2 ^ 80, true⟩ } : KCopy), by decide +kernel⟩,
    ⟨(((((State.reset.wr (pgTile 5) 8 1).wrMem (physOf 5 (ownBase + 0x3FE00 + 16 * 6)) 16 (ownBase + 0x2000 + 0x1000 * 2 ^ 40 + 0x1FF * 2 ^ 80)).setTag (physOf 5 (ownBase + 0x3FE00 + 16 * 6)) 7).setBank (pgEccT 5) 0 { inited := true }).setTile 5 { mode := 3, work := true, copies := [{ run := true, pc := ownBase + 0x100, rsp := ownBase + 0x1FF80, depth := 4, file := [(0, 11, false), (1, 11, false), (2, 1025, false), (3, 2712847316, false)], caps := setAt (setAt (setAt (List.replicate 16 {}) 0 Cap.all) 1 ⟨ownBase + 0x10000 + 0x10000 * 2 ^ 40 + 0x1FF * 2 ^ 80, true⟩) 5 ⟨ownBase + 0x1000 * 2 ^ 40 + 0x1FF * 2 ^ 80, true⟩ }, {}, {}] }), ({ run := true, pc := ownBase + 0x100, rsp := ownBase + 0x1FF80, depth := 4, file := [(0, 11, false), (1, 11, false), (2, 1025, false), (3, 2712847316, false)], caps := setAt (setAt (setAt (List.replicate 16 {}) 0 Cap.all) 1 ⟨ownBase + 0x10000 + 0x10000 * 2 ^ 40 + 0x1FF * 2 ^ 80, true⟩) 5 ⟨ownBase + 0x1000 * 2 ^ 40 + 0x1FF * 2 ^ 80, true⟩ } : KCopy), by decide +kernel⟩,
    ⟨(inTile { kcopy 5 [(0, 11, false), (1, 11, false), (2, 1024, false), (3, 2712847316, false), (4, 1432778632, false)] with caps := (setAt (setAt (setAt (List.replicate 16 {}) 0 Cap.all) 1 Cap.all) 4 ⟨ownBase + 0x80000 * 2 ^ 40 + 0x1FF * 2 ^ 80, true⟩) }), ({ kcopy 5 [(0, 11, false), (1, 11, false), (2, 1024, false), (3, 2712847316, false), (4, 1432778632, false)] with caps := (setAt (setAt (setAt (List.replicate 16 {}) 0 Cap.all) 1 Cap.all) 4 ⟨ownBase + 0x80000 * 2 ^ 40 + 0x1FF * 2 ^ 80, true⟩) } : KCopy), by decide +kernel⟩⟩

theorem witness_KolotteStores_4 :
    (∃ (s : State) (k : KCopy), ((Instr.std issue 1).wf = true) ∧ (s.calm = true) ∧ (s.solo issue (.st .std 1) = true) ∧ (s.copyOf issue = k) ∧ (k.entry (k.top - 3) = (4096, false)) ∧ (4096 < 2 ^ 32) ∧ (k.entry (k.top - 2) = (2712847316, false)) ∧ (2712847316 < 2 ^ 32) ∧ (k.entry (k.top - 1) = (1432778632, false)) ∧ (1432778632 < 2 ^ 32) ∧ (false = false) ∧ ((k.cap 1).usable = true) ∧ ((k.cap 1).perm 1 = true) ∧ ((k.cap 1).covers ((k.cap 1).base + 4096) 8 = true) ∧ (((k.cap 1).base + 4096) % 8 = 0) ∧ (inOwn ((k.cap 1).base + 4096) 1 = false) ∧ (((List.range 8).all fun j => tileMapped (((k.cap 1).base + 4096) + j)) = true) ∧ (pageAllowed (k.cap 1) ((k.cap 1).base + 4096) true = true) ∧ (((s.tileH issue.tile).mode ≤ 1 ∧ issue.copy = 0)))
    ∧ (∃ (s : State) (k : KCopy), ((Instr.std issue 1).wf = true) ∧ (s.calm = true) ∧ (s.solo issue (.st .std 1) = true) ∧ (s.copyOf issue = k) ∧ (k.entry (k.top - 3) = (4096, false)) ∧ (4096 < 2 ^ 32) ∧ (k.entry (k.top - 2) = (2712847316, false)) ∧ (2712847316 < 2 ^ 32) ∧ (k.entry (k.top - 1) = (1432778632, false)) ∧ (1432778632 < 2 ^ 32) ∧ (false = false) ∧ ((k.cap 1).usable = true) ∧ ((k.cap 1).perm 1 = true) ∧ ((k.cap 1).covers ((k.cap 1).base + 4096) 8 = true) ∧ (((k.cap 1).base + 4096) % 8 = 0) ∧ (((k.cap 1).base + 4096) + 8 ≤ dramSize) ∧ (¬((s.tileH issue.tile).mode ≤ 1 ∧ issue.copy = 0)) ∧ (s.usable ((k.cap 1).base + 4096) 8 = true))
    ∧ (∃ (s : State) (k : KCopy), ((Instr.std issue 5).wf = true) ∧ (s.calm = true) ∧ (s.solo issue (.st .std 5) = true) ∧ (s.copyOf issue = k) ∧ (k.entry (k.top - 3) = (1024, false)) ∧ (1024 < 2 ^ 32) ∧ (k.entry (k.top - 2) = (2712847316, false)) ∧ (2712847316 < 2 ^ 32) ∧ (k.entry (k.top - 1) = (1432778632, false)) ∧ (1432778632 < 2 ^ 32) ∧ ((s.kx issue.tile issue.copy).canEnter 3 (⟨ownBase + 0x2000 + 0x1000 * 2 ^ 40 + 0x1FF * 2 ^ 80, true⟩ : Cap) = true) ∧ (false = false) ∧ (((k.cap 5).usable = false ∨ (k.cap 5).perm 1 = false)))
    ∧ (∃ (s : State) (k : KCopy), ((Instr.std issue 5).wf = true) ∧ (s.calm = true) ∧ (s.solo issue (.st .std 5) = true) ∧ (s.copyOf issue = k) ∧ (k.entry (k.top - 3) = (4096, false)) ∧ (4096 < 2 ^ 32) ∧ (k.entry (k.top - 2) = (2712847316, false)) ∧ (2712847316 < 2 ^ 32) ∧ (k.entry (k.top - 1) = (1432778632, false)) ∧ (1432778632 < 2 ^ 32) ∧ ((s.kx issue.tile issue.copy).canEnter 4 (⟨ownBase + 0x2000 + 0x1000 * 2 ^ 40 + 0x1FF * 2 ^ 80, true⟩ : Cap) = true) ∧ (false = false) ∧ ((k.cap 5).usable = true) ∧ ((k.cap 5).perm 1 = true) ∧ ((k.cap 5).covers ((k.cap 5).base + 4096) 8 = false) ∧ (inPages ((k.cap 5).base + 4096) = false))
    ∧ (∃ (s : State) (k : KCopy), ((Instr.std issue 5).wf = true) ∧ (s.calm = true) ∧ (s.solo issue (.st .std 5) = true) ∧ (s.copyOf issue = k) ∧ (k.entry (k.top - 3) = (1025, false)) ∧ (1025 < 2 ^ 32) ∧ (k.entry (k.top - 2) = (2712847316, false)) ∧ (2712847316 < 2 ^ 32) ∧ (k.entry (k.top - 1) = (1432778632, false)) ∧ (1432778632 < 2 ^ 32) ∧ ((s.kx issue.tile issue.copy).canEnter 6 (⟨ownBase + 0x2000 + 0x1000 * 2 ^ 40 + 0x1FF * 2 ^ 80, true⟩ : Cap) = true) ∧ (false = false) ∧ ((k.cap 5).usable = true) ∧ ((k.cap 5).perm 1 = true) ∧ ((k.cap 5).covers ((k.cap 5).base + 1025) 8 = true) ∧ (((k.cap 5).base + 1025) % 8 ≠ 0) ∧ (inOwn ((k.cap 5).base + 1025) 8 = true) ∧ ((s.kx issue.tile issue.copy).pairBad ((k.cap 5).base + 1025) 8 true = none))
    ∧ (∃ (s : State) (k : KCopy), ((Instr.stt issue 0 4).wf = true) ∧ (s.calm = true) ∧ (s.solo issue (.stt 0 4) = true) ∧ (s.copyOf issue = k) ∧ (k.entry (k.top - 1) = (1024, false)) ∧ (1024 < 2 ^ 32) ∧ (false = false) ∧ ((k.cap 4).usable = true) ∧ ((k.cap 4).perm 1 = true) ∧ ((k.cap 4).perm 4 = true) ∧ ((k.cap 4).covers ((k.cap 4).base + 1024) 16 = true) ∧ (((k.cap 4).base + 1024) % 16 = 0) ∧ (inOwn ((k.cap 4).base + 1024) 16 = true) ∧ ((s.kx issue.tile issue.copy).pairBad ((k.cap 4).base + 1024) 16 true = none) ∧ (s.usable (physOf issue.tile ((k.cap 4).base + 1024)) 16 = true) ∧ (bit (s.flipRegs (pgEccT issue.tile)).1 31 = false)) :=
    ⟨⟨(((State.reset.wr (pgTile 5) 8 1).setBank (pgEccT 5) 0 { inited := true }).setTile 5 { mode := 0, work := true, copies := [(kcopy 5 [(0, 11, false), (1, 11, false), (2, 4096, false), (3, 2712847316, false), (4, 1432778632, false)]), {}, {}] }), (kcopy 5 [(0, 11, false), (1, 11, false), (2, 4096, false), (3, 2712847316, false), (4, 1432778632, false)]), by decide +kernel⟩,
    ⟨(((((State.reset.wr (pgTile 5) 8 1).setFld pgEccD 0x048 31 0 0xAAAAAAAA).wrMem 0x1000 16 0).setBank (pgEccT 5) 0 { inited := true }).setTile 5 { mode := 3, work := true, copies := [(kcopy 5 [(0, 11, false), (1, 11, false), (2, 4096, false), (3, 2712847316, false), (4, 1432778632, false)]), {}, {}] }), (kcopy 5 [(0, 11, false), (1, 11, false), (2, 4096, false), (3, 2712847316, false), (4, 1432778632, false)]), by decide +kernel⟩,
    ⟨(((((State.reset.wr (pgTile 5) 8 1).wrMem (physOf 5 (ownBase + 0x3FE00 + 16 * 3)) 16 (ownBase + 0x2000 + 0x1000 * 2 ^ 40 + 0x1FF * 2 ^ 80)).setTag (physOf 5 (ownBase + 0x3FE00 + 16 * 3)) 7).setBank (pgEccT 5) 0 { inited := true }).setTile 5 { mode := 3, work := true, copies := [{ run := true, pc := ownBase + 0x100, rsp := ownBase + 0x1FF80, depth := 5, file := [(0, 11, false), (1, 11, false), (2, 1024, false), (3, 2712847316, false), (4, 1432778632, false)], caps := setAt (setAt (setAt (List.replicate 16 {}) 0 Cap.all) 1 ⟨ownBase + 0x10000 + 0x10000 * 2 ^ 40 + 0x1FF * 2 ^ 80, true⟩) 5 {} }, {}, {}] }), ({ run := true, pc := ownBase + 0x100, rsp := ownBase + 0x1FF80, depth := 5, file := [(0, 11, false), (1, 11, false), (2, 1024, false), (3, 2712847316, false), (4, 1432778632, false)], caps := setAt (setAt (setAt (List.replicate 16 {}) 0 Cap.all) 1 ⟨ownBase + 0x10000 + 0x10000 * 2 ^ 40 + 0x1FF * 2 ^ 80, true⟩) 5 {} } : KCopy), by decide +kernel⟩,
    ⟨(((((State.reset.wr (pgTile 5) 8 1).wrMem (physOf 5 (ownBase + 0x3FE00 + 16 * 4)) 16 (ownBase + 0x2000 + 0x1000 * 2 ^ 40 + 0x1FF * 2 ^ 80)).setTag (physOf 5 (ownBase + 0x3FE00 + 16 * 4)) 7).setBank (pgEccT 5) 0 { inited := true }).setTile 5 { mode := 3, work := true, copies := [{ run := true, pc := ownBase + 0x100, rsp := ownBase + 0x1FF80, depth := 5, file := [(0, 11, false), (1, 11, false), (2, 4096, false), (3, 2712847316, false), (4, 1432778632, false)], caps := setAt (setAt (setAt (List.replicate 16 {}) 0 Cap.all) 1 ⟨ownBase + 0x10000 + 0x10000 * 2 ^ 40 + 0x1FF * 2 ^ 80, true⟩) 5 ⟨ownBase + 0x1000 * 2 ^ 40 + 0x1FF * 2 ^ 80, true⟩ }, {}, {}] }), ({ run := true, pc := ownBase + 0x100, rsp := ownBase + 0x1FF80, depth := 5, file := [(0, 11, false), (1, 11, false), (2, 4096, false), (3, 2712847316, false), (4, 1432778632, false)], caps := setAt (setAt (setAt (List.replicate 16 {}) 0 Cap.all) 1 ⟨ownBase + 0x10000 + 0x10000 * 2 ^ 40 + 0x1FF * 2 ^ 80, true⟩) 5 ⟨ownBase + 0x1000 * 2 ^ 40 + 0x1FF * 2 ^ 80, true⟩ } : KCopy), by decide +kernel⟩,
    ⟨(((((State.reset.wr (pgTile 5) 8 1).wrMem (physOf 5 (ownBase + 0x3FE00 + 16 * 6)) 16 (ownBase + 0x2000 + 0x1000 * 2 ^ 40 + 0x1FF * 2 ^ 80)).setTag (physOf 5 (ownBase + 0x3FE00 + 16 * 6)) 7).setBank (pgEccT 5) 0 { inited := true }).setTile 5 { mode := 3, work := true, copies := [{ run := true, pc := ownBase + 0x100, rsp := ownBase + 0x1FF80, depth := 5, file := [(0, 11, false), (1, 11, false), (2, 1025, false), (3, 2712847316, false), (4, 1432778632, false)], caps := setAt (setAt (setAt (List.replicate 16 {}) 0 Cap.all) 1 ⟨ownBase + 0x10000 + 0x10000 * 2 ^ 40 + 0x1FF * 2 ^ 80, true⟩) 5 ⟨ownBase + 0x1000 * 2 ^ 40 + 0x1FF * 2 ^ 80, true⟩ }, {}, {}] }), ({ run := true, pc := ownBase + 0x100, rsp := ownBase + 0x1FF80, depth := 5, file := [(0, 11, false), (1, 11, false), (2, 1025, false), (3, 2712847316, false), (4, 1432778632, false)], caps := setAt (setAt (setAt (List.replicate 16 {}) 0 Cap.all) 1 ⟨ownBase + 0x10000 + 0x10000 * 2 ^ 40 + 0x1FF * 2 ^ 80, true⟩) 5 ⟨ownBase + 0x1000 * 2 ^ 40 + 0x1FF * 2 ^ 80, true⟩ } : KCopy), by decide +kernel⟩,
    ⟨(inTile { kcopy 3 [(0, 11, false), (1, 11, false), (2, 1024, false)] with caps := (setAt (setAt (setAt (List.replicate 16 {}) 0 Cap.all) 1 Cap.all) 4 ⟨ownBase + 0x80000 * 2 ^ 40 + 0x1FF * 2 ^ 80, true⟩) }), ({ kcopy 3 [(0, 11, false), (1, 11, false), (2, 1024, false)] with caps := (setAt (setAt (setAt (List.replicate 16 {}) 0 Cap.all) 1 Cap.all) 4 ⟨ownBase + 0x80000 * 2 ^ 40 + 0x1FF * 2 ^ 80, true⟩) } : KCopy), by decide +kernel⟩⟩

theorem witness_KolotteStores_5 :
    (∃ (s : State) (k : KCopy), ((Instr.stt issue 0 5).wf = true) ∧ (s.calm = true) ∧ (s.solo issue (.stt 0 5) = true) ∧ (s.copyOf issue = k) ∧ (k.entry (k.top - 1) = (0, false)) ∧ (0 < 2 ^ 32) ∧ (false = false) ∧ ((k.cap 5).usable = true) ∧ ((k.cap 5).perm 1 = true) ∧ ((k.cap 5).perm 4 = true) ∧ ((k.cap 5).covers ((k.cap 5).base + 0) 16 = true) ∧ (((k.cap 5).base + 0) % 16 = 0) ∧ (clusterBase 0 ≤ ((k.cap 5).base + 0)) ∧ (((k.cap 5).base + 0) + 16 ≤ clusterBase 16) ∧ (((s.tileH issue.tile).mode ≤ 1 ∧ issue.copy = 0)))
    ∧ (∃ (s : State) (k : KCopy), ((Instr.stt issue 0 5).wf = true) ∧ (s.calm = true) ∧ (s.solo issue (.stt 0 5) = true) ∧ (s.copyOf issue = k) ∧ (k.entry (k.top - 1) = (1024, false)) ∧ (1024 < 2 ^ 32) ∧ ((s.kx issue.tile issue.copy).canEnter 3 (⟨ownBase + 0x2000 + 0x1000 * 2 ^ 40 + 0x1FF * 2 ^ 80, true⟩ : Cap) = true) ∧ (false = false) ∧ (((k.cap 5).usable = false ∨ (k.cap 5).perm 1 = false)))
    ∧ (∃ (s : State) (k : KCopy), ((Instr.stt issue 0 5).wf = true) ∧ (s.calm = true) ∧ (s.solo issue (.stt 0 5) = true) ∧ (s.copyOf issue = k) ∧ (k.entry (k.top - 1) = (4096, false)) ∧ (4096 < 2 ^ 32) ∧ ((s.kx issue.tile issue.copy).canEnter 4 (⟨ownBase + 0x2000 + 0x1000 * 2 ^ 40 + 0x1FF * 2 ^ 80, true⟩ : Cap) = true) ∧ (false = false) ∧ ((k.cap 5).usable = true) ∧ ((k.cap 5).perm 1 = true) ∧ ((k.cap 5).perm 4 = true) ∧ ((k.cap 5).covers ((k.cap 5).base + 4096) 16 = false) ∧ (inPages ((k.cap 5).base + 4096) = false) ∧ (dramSize ≤ ((k.cap 5).base + 4096)))
    ∧ (∃ (s : State) (k : KCopy), ((Instr.stt issue 0 5).wf = true) ∧ (s.calm = true) ∧ (s.solo issue (.stt 0 5) = true) ∧ (s.copyOf issue = k) ∧ (k.entry (k.top - 1) = (1025, false)) ∧ (1025 < 2 ^ 32) ∧ ((s.kx issue.tile issue.copy).canEnter 6 (⟨ownBase + 0x2000 + 0x1000 * 2 ^ 40 + 0x1FF * 2 ^ 80, true⟩ : Cap) = true) ∧ (false = false) ∧ ((k.cap 5).usable = true) ∧ ((k.cap 5).perm 1 = true) ∧ ((k.cap 5).perm 4 = true) ∧ ((k.cap 5).covers ((k.cap 5).base + 1025) 16 = true) ∧ (((k.cap 5).base + 1025) % 16 ≠ 0) ∧ (inOwn ((k.cap 5).base + 1025) 16 = true) ∧ ((s.kx issue.tile issue.copy).pairBad ((k.cap 5).base + 1025) 16 true = none)) :=
    ⟨⟨(((State.reset.wr (pgTile 5) 8 1).setBank (pgEccT 5) 0 { inited := true }).setTile 5 { mode := 0, work := true, copies := [{ kcopy 3 [(0, 11, false), (1, 11, false), (2, 0, false)] with caps := setAt (setAt (setAt (List.replicate 16 {}) 0 Cap.all) 1 Cap.all) 5 ⟨0x1000000000 + 0x1000 * 2 ^ 40 + 0x1FF * 2 ^ 80, true⟩ }, {}, {}] }), ({ kcopy 3 [(0, 11, false), (1, 11, false), (2, 0, false)] with caps := setAt (setAt (setAt (List.replicate 16 {}) 0 Cap.all) 1 Cap.all) 5 ⟨0x1000000000 + 0x1000 * 2 ^ 40 + 0x1FF * 2 ^ 80, true⟩ } : KCopy), by decide +kernel⟩,
    ⟨(((((State.reset.wr (pgTile 5) 8 1).wrMem (physOf 5 (ownBase + 0x3FE00 + 16 * 3)) 16 (ownBase + 0x2000 + 0x1000 * 2 ^ 40 + 0x1FF * 2 ^ 80)).setTag (physOf 5 (ownBase + 0x3FE00 + 16 * 3)) 7).setBank (pgEccT 5) 0 { inited := true }).setTile 5 { mode := 3, work := true, copies := [{ run := true, pc := ownBase + 0x100, rsp := ownBase + 0x1FF80, depth := 3, file := [(0, 11, false), (1, 11, false), (2, 1024, false)], caps := setAt (setAt (setAt (List.replicate 16 {}) 0 Cap.all) 1 ⟨ownBase + 0x10000 + 0x10000 * 2 ^ 40 + 0x1FF * 2 ^ 80, true⟩) 5 {} }, {}, {}] }), ({ run := true, pc := ownBase + 0x100, rsp := ownBase + 0x1FF80, depth := 3, file := [(0, 11, false), (1, 11, false), (2, 1024, false)], caps := setAt (setAt (setAt (List.replicate 16 {}) 0 Cap.all) 1 ⟨ownBase + 0x10000 + 0x10000 * 2 ^ 40 + 0x1FF * 2 ^ 80, true⟩) 5 {} } : KCopy), by decide +kernel⟩,
    ⟨(((((State.reset.wr (pgTile 5) 8 1).wrMem (physOf 5 (ownBase + 0x3FE00 + 16 * 4)) 16 (ownBase + 0x2000 + 0x1000 * 2 ^ 40 + 0x1FF * 2 ^ 80)).setTag (physOf 5 (ownBase + 0x3FE00 + 16 * 4)) 7).setBank (pgEccT 5) 0 { inited := true }).setTile 5 { mode := 3, work := true, copies := [{ run := true, pc := ownBase + 0x100, rsp := ownBase + 0x1FF80, depth := 3, file := [(0, 11, false), (1, 11, false), (2, 4096, false)], caps := setAt (setAt (setAt (List.replicate 16 {}) 0 Cap.all) 1 ⟨ownBase + 0x10000 + 0x10000 * 2 ^ 40 + 0x1FF * 2 ^ 80, true⟩) 5 ⟨ownBase + 0x1000 * 2 ^ 40 + 0x1FF * 2 ^ 80, true⟩ }, {}, {}] }), ({ run := true, pc := ownBase + 0x100, rsp := ownBase + 0x1FF80, depth := 3, file := [(0, 11, false), (1, 11, false), (2, 4096, false)], caps := setAt (setAt (setAt (List.replicate 16 {}) 0 Cap.all) 1 ⟨ownBase + 0x10000 + 0x10000 * 2 ^ 40 + 0x1FF * 2 ^ 80, true⟩) 5 ⟨ownBase + 0x1000 * 2 ^ 40 + 0x1FF * 2 ^ 80, true⟩ } : KCopy), by decide +kernel⟩,
    ⟨(((((State.reset.wr (pgTile 5) 8 1).wrMem (physOf 5 (ownBase + 0x3FE00 + 16 * 6)) 16 (ownBase + 0x2000 + 0x1000 * 2 ^ 40 + 0x1FF * 2 ^ 80)).setTag (physOf 5 (ownBase + 0x3FE00 + 16 * 6)) 7).setBank (pgEccT 5) 0 { inited := true }).setTile 5 { mode := 3, work := true, copies := [{ run := true, pc := ownBase + 0x100, rsp := ownBase + 0x1FF80, depth := 3, file := [(0, 11, false), (1, 11, false), (2, 1025, false)], caps := setAt (setAt (setAt (List.replicate 16 {}) 0 Cap.all) 1 ⟨ownBase + 0x10000 + 0x10000 * 2 ^ 40 + 0x1FF * 2 ^ 80, true⟩) 5 ⟨ownBase + 0x1000 * 2 ^ 40 + 0x1FF * 2 ^ 80, true⟩ }, {}, {}] }), ({ run := true, pc := ownBase + 0x100, rsp := ownBase + 0x1FF80, depth := 3, file := [(0, 11, false), (1, 11, false), (2, 1025, false)], caps := setAt (setAt (setAt (List.replicate 16 {}) 0 Cap.all) 1 ⟨ownBase + 0x10000 + 0x10000 * 2 ^ 40 + 0x1FF * 2 ^ 80, true⟩) 5 ⟨ownBase + 0x1000 * 2 ^ 40 + 0x1FF * 2 ^ 80, true⟩ } : KCopy), by decide +kernel⟩⟩

theorem witness_KolotteCaps_1 :
    (∃ (s : State) (k : KCopy), ((Instr.cmov issue 4 1).wf = true) ∧ (s.calm = true) ∧ (s.solo issue (.cmov 4 1) = true) ∧ (s.copyOf issue = k))
    ∧ (∃ (s : State) (k : KCopy), ((Instr.crange issue 4 1).wf = true) ∧ (s.calm = true) ∧ (s.solo issue (.crange 4 1) = true) ∧ (s.copyOf issue = k) ∧ (k.entry (k.top - 2) = (256, false)) ∧ (256 < 2 ^ 32) ∧ (k.entry (k.top - 1) = (32, false)) ∧ (32 < 2 ^ 32) ∧ (false = false) ∧ (false = false) ∧ ((k.cap 1).usable = true) ∧ (256 + 32 ≤ (k.cap 1).len))
    ∧ (∃ (s : State) (k : KCopy), ((Instr.crange issue 6 5).wf = true) ∧ (s.calm = true) ∧ (s.solo issue (.crange 6 5) = true) ∧ (s.copyOf issue = k) ∧ (k.entry (k.top - 2) = (256, false)) ∧ (256 < 2 ^ 32) ∧ (k.entry (k.top - 1) = (32, false)) ∧ (32 < 2 ^ 32) ∧ ((s.kx issue.tile issue.copy).canEnter 3 (⟨ownBase + 0x2000 + 0x1000 * 2 ^ 40 + 0x1FF * 2 ^ 80, true⟩ : Cap) = true) ∧ (false = false) ∧ (false = false) ∧ ((k.cap 5).usable = false))
    ∧ (∃ (s : State) (k : KCopy), ((Instr.crange issue 6 5).wf = true) ∧ (s.calm = true) ∧ (s.solo issue (.crange 6 5) = true) ∧ (s.copyOf issue = k) ∧ (k.entry (k.top - 2) = (4095, false)) ∧ (4095 < 2 ^ 32) ∧ (k.entry (k.top - 1) = (32, false)) ∧ (32 < 2 ^ 32) ∧ ((s.kx issue.tile issue.copy).canEnter 4 (⟨ownBase + 0x2000 + 0x1000 * 2 ^ 40 + 0x1FF * 2 ^ 80, true⟩ : Cap) = true) ∧ (false = false) ∧ (false = false) ∧ ((k.cap 5).usable = true) ∧ ((k.cap 5).len < 4095 + 32))
    ∧ (∃ (s : State) (k : KCopy), ((Instr.cperm issue 4 1).wf = true) ∧ (s.calm = true) ∧ (s.solo issue (.cperm 4 1) = true) ∧ (s.copyOf issue = k) ∧ (k.entry (k.top - 1) = (5, false)) ∧ (5 < 2 ^ 32) ∧ (false = false) ∧ ((k.cap 1).usable = true))
    ∧ (∃ (s : State) (k : KCopy), ((Instr.cperm issue 6 5).wf = true) ∧ (s.calm = true) ∧ (s.solo issue (.cperm 6 5) = true) ∧ (s.copyOf issue = k) ∧ (k.entry (k.top - 1) = (5, false)) ∧ (5 < 2 ^ 32) ∧ ((s.kx issue.tile issue.copy).canEnter 3 (⟨ownBase + 0x2000 + 0x1000 * 2 ^ 40 + 0x1FF * 2 ^ 80, true⟩ : Cap) = true) ∧ (false = false) ∧ ((k.cap 5).usable = false)) :=
    ⟨⟨(inTile (kcopy 2 [(0, 11, false), (1, 11, false)])), (kcopy 2 [(0, 11, false), (1, 11, false)]), by decide +kernel⟩,
    ⟨(inTile (kcopy 4 [(0, 11, false), (1, 11, false), (2, 256, false), (3, 32, false)])), (kcopy 4 [(0, 11, false), (1, 11, false), (2, 256, false), (3, 32, false)]), by decide +kernel⟩,
    ⟨(((((State.reset.wr (pgTile 5) 8 1).wrMem (physOf 5 (ownBase + 0x3FE00 + 16 * 3)) 16 (ownBase + 0x2000 + 0x1000 * 2 ^ 40 + 0x1FF * 2 ^ 80)).setTag (physOf 5 (ownBase + 0x3FE00 + 16 * 3)) 7).setBank (pgEccT 5) 0 { inited := true }).setTile 5 { mode := 3, work := true, copies := [{ run := true, pc := ownBase + 0x100, rsp := ownBase + 0x1FF80, depth := 4, file := [(0, 11, false), (1, 11, false), (2, 256, false), (3, 32, false)], caps := setAt (setAt (setAt (List.replicate 16 {}) 0 Cap.all) 1 ⟨ownBase + 0x10000 + 0x10000 * 2 ^ 40 + 0x1FF * 2 ^ 80, true⟩) 5 {} }, {}, {}] }), ({ run := true, pc := ownBase + 0x100, rsp := ownBase + 0x1FF80, depth := 4, file := [(0, 11, false), (1, 11, false), (2, 256, false), (3, 32, false)], caps := setAt (setAt (setAt (List.replicate 16 {}) 0 Cap.all) 1 ⟨ownBase + 0x10000 + 0x10000 * 2 ^ 40 + 0x1FF * 2 ^ 80, true⟩) 5 {} } : KCopy), by decide +kernel⟩,
    ⟨(((((State.reset.wr (pgTile 5) 8 1).wrMem (physOf 5 (ownBase + 0x3FE00 + 16 * 4)) 16 (ownBase + 0x2000 + 0x1000 * 2 ^ 40 + 0x1FF * 2 ^ 80)).setTag (physOf 5 (ownBase + 0x3FE00 + 16 * 4)) 7).setBank (pgEccT 5) 0 { inited := true }).setTile 5 { mode := 3, work := true, copies := [{ run := true, pc := ownBase + 0x100, rsp := ownBase + 0x1FF80, depth := 4, file := [(0, 11, false), (1, 11, false), (2, 4095, false), (3, 32, false)], caps := setAt (setAt (setAt (List.replicate 16 {}) 0 Cap.all) 1 ⟨ownBase + 0x10000 + 0x10000 * 2 ^ 40 + 0x1FF * 2 ^ 80, true⟩) 5 ⟨ownBase + 0x1000 * 2 ^ 40 + 0x1FF * 2 ^ 80, true⟩ }, {}, {}] }), ({ run := true, pc := ownBase + 0x100, rsp := ownBase + 0x1FF80, depth := 4, file := [(0, 11, false), (1, 11, false), (2, 4095, false), (3, 32, false)], caps := setAt (setAt (setAt (List.replicate 16 {}) 0 Cap.all) 1 ⟨ownBase + 0x10000 + 0x10000 * 2 ^ 40 + 0x1FF * 2 ^ 80, true⟩) 5 ⟨ownBase + 0x1000 * 2 ^ 40 + 0x1FF * 2 ^ 80, true⟩ } : KCopy), by decide +kernel⟩,
    ⟨(inTile (kcopy 3 [(0, 11, false), (1, 11, false), (2, 5, false)])), (kcopy 3 [(0, 11, false), (1, 11, false), (2, 5, false)]), by decide +kernel⟩,
    ⟨(((((State.reset.wr (pgTile 5) 8 1).wrMem (physOf 5 (ownBase + 0x3FE00 + 16 * 3)) 16 (ownBase + 0x2000 + 0x1000 * 2 ^ 40 + 0x1FF * 2 ^ 80)).setTag (physOf 5 (ownBase + 0x3FE00 + 16 * 3)) 7).setBank (pgEccT 5) 0 { inited := true }).setTile 5 { mode := 3, work := true, copies := [{ run := true, pc := ownBase + 0x100, rsp := ownBase + 0x1FF80, depth := 3, file := [(0, 11, false), (1, 11, false), (2, 5, false)], caps := setAt (setAt (setAt (List.replicate 16 {}) 0 Cap.all) 1 ⟨ownBase + 0x10000 + 0x10000 * 2 ^ 40 + 0x1FF * 2 ^ 80, true⟩) 5 {} }, {}, {}] }), ({ run := true, pc := ownBase + 0x100, rsp := ownBase + 0x1FF80, depth := 3, file := [(0, 11, false), (1, 11, false), (2, 5, false)], caps := setAt (setAt (setAt (List.replicate 16 {}) 0 Cap.all) 1 ⟨ownBase + 0x10000 + 0x10000 * 2 ^ 40 + 0x1FF * 2 ^ 80, true⟩) 5 {} } : KCopy), by decide +kernel⟩⟩

theorem witness_KolotteCaps_2 :
    (∃ (s : State) (k : KCopy), ((Instr.ctie issue 4 5).wf = true) ∧ (s.calm = true) ∧ (s.solo issue (.ctie 4 5) = true) ∧ (s.copyOf issue = k) ∧ ((k.cap 5).usable = true) ∧ ((k.cap 5).perm 5 = true) ∧ ((k.cap 5).ktype ≠ 0) ∧ ((k.cap 4).usable = true))
    ∧ (∃ (s : State) (k : KCopy), ((Instr.ctie issue 6 5).wf = true) ∧ (s.calm = true) ∧ (s.solo issue (.ctie 6 5) = true) ∧ (s.copyOf issue = k) ∧ ((s.kx issue.tile issue.copy).canEnter 3 (⟨ownBase + 0x2000 + 0x1000 * 2 ^ 40 + 0x1FF * 2 ^ 80, true⟩ : Cap) = true) ∧ (((k.cap 5).usable = false ∨ (k.cap 5).perm 5 = false ∨ (k.cap 5).ktype = 0)))
    ∧ (∃ (s : State) (k : KCopy), ((Instr.ctie issue 6 5).wf = true) ∧ (s.calm = true) ∧ (s.solo issue (.ctie 6 5) = true) ∧ (s.copyOf issue = k) ∧ ((s.kx issue.tile issue.copy).canEnter 3 (⟨ownBase + 0x2000 + 0x1000 * 2 ^ 40 + 0x1FF * 2 ^ 80, true⟩ : Cap) = true) ∧ ((k.cap 5).usable = true) ∧ ((k.cap 5).perm 5 = true) ∧ ((k.cap 5).ktype ≠ 0) ∧ ((k.cap 6).usable = false))
    ∧ (∃ (s : State) (k : KCopy), ((Instr.cuntie issue 4 5).wf = true) ∧ (s.calm = true) ∧ (s.solo issue (.cuntie 4 5) = true) ∧ (s.copyOf issue = k) ∧ ((k.cap 5).usable = true) ∧ ((k.cap 5).perm 6 = true) ∧ ((k.cap 4).tag = true) ∧ ((k.cap 4).knotted = true) ∧ ((k.cap 4).ktype = (k.cap 5).ktype))
    ∧ (∃ (s : State) (k : KCopy), ((Instr.cuntie issue 6 5).wf = true) ∧ (s.calm = true) ∧ (s.solo issue (.cuntie 6 5) = true) ∧ (s.copyOf issue = k) ∧ ((s.kx issue.tile issue.copy).canEnter 3 (⟨ownBase + 0x2000 + 0x1000 * 2 ^ 40 + 0x1FF * 2 ^ 80, true⟩ : Cap) = true) ∧ (((k.cap 5).usable = false ∨ (k.cap 5).perm 6 = false)))
    ∧ (∃ (s : State) (k : KCopy), ((Instr.cuntie issue 6 5).wf = true) ∧ (s.calm = true) ∧ (s.solo issue (.cuntie 6 5) = true) ∧ (s.copyOf issue = k) ∧ ((s.kx issue.tile issue.copy).canEnter 3 (⟨ownBase + 0x2000 + 0x1000 * 2 ^ 40 + 0x1FF * 2 ^ 80, true⟩ : Cap) = true) ∧ ((k.cap 5).usable = true) ∧ ((k.cap 5).perm 6 = true) ∧ (((k.cap 6).tag = false ∨ (k.cap 6).knotted = false))) :=
    ⟨⟨(inTile { kcopy 2 [(0, 11, false), (1, 11, false)] with caps := (setAt (setAt (setAt (setAt (List.replicate 16 {}) 0 Cap.all) 1 Cap.all) 4 Cap.all) 5 (Cap.all.withKnot false 7)) }), ({ kcopy 2 [(0, 11, false), (1, 11, false)] with caps := (setAt (setAt (setAt (setAt (List.replicate 16 {}) 0 Cap.all) 1 Cap.all) 4 Cap.all) 5 (Cap.all.withKnot false 7)) } : KCopy), by decide +kernel⟩,
    ⟨(((((State.reset.wr (pgTile 5) 8 1).wrMem (physOf 5 (ownBase + 0x3FE00 + 16 * 3)) 16 (ownBase + 0x2000 + 0x1000 * 2 ^ 40 + 0x1FF * 2 ^ 80)).setTag (physOf 5 (ownBase + 0x3FE00 + 16 * 3)) 7).setBank (pgEccT 5) 0 { inited := true }).setTile 5 { mode := 3, work := true, copies := [{ run := true, pc := ownBase + 0x100, rsp := ownBase + 0x1FF80, depth := 2, file := [(0, 11, false), (1, 11, false)], caps := setAt (setAt (setAt (List.replicate 16 {}) 0 Cap.all) 1 ⟨ownBase + 0x10000 + 0x10000 * 2 ^ 40 + 0x1FF * 2 ^ 80, true⟩) 5 Cap.all }, {}, {}] }), ({ run := true, pc := ownBase + 0x100, rsp := ownBase + 0x1FF80, depth := 2, file := [(0, 11, false), (1, 11, false)], caps := setAt (setAt (setAt (List.replicate 16 {}) 0 Cap.all) 1 ⟨ownBase + 0x10000 + 0x10000 * 2 ^ 40 + 0x1FF * 2 ^ 80, true⟩) 5 Cap.all } : KCopy), by decide +kernel⟩,
    ⟨(((((State.reset.wr (pgTile 5) 8 1).wrMem (physOf 5 (ownBase + 0x3FE00 + 16 * 3)) 16 (ownBase + 0x2000 + 0x1000 * 2 ^ 40 + 0x1FF * 2 ^ 80)).setTag (physOf 5 (ownBase + 0x3FE00 + 16 * 3)) 7).setBank (pgEccT 5) 0 { inited := true }).setTile 5 { mode := 3, work := true, copies := [{ run := true, pc := ownBase + 0x100, rsp := ownBase + 0x1FF80, depth := 2, file := [(0, 11, false), (1, 11, false)], caps := setAt (setAt (setAt (List.replicate 16 {}) 0 Cap.all) 1 ⟨ownBase + 0x10000 + 0x10000 * 2 ^ 40 + 0x1FF * 2 ^ 80, true⟩) 5 (Cap.all.withKnot false 7) }, {}, {}] }), ({ run := true, pc := ownBase + 0x100, rsp := ownBase + 0x1FF80, depth := 2, file := [(0, 11, false), (1, 11, false)], caps := setAt (setAt (setAt (List.replicate 16 {}) 0 Cap.all) 1 ⟨ownBase + 0x10000 + 0x10000 * 2 ^ 40 + 0x1FF * 2 ^ 80, true⟩) 5 (Cap.all.withKnot false 7) } : KCopy), by decide +kernel⟩,
    ⟨(inTile { kcopy 2 [(0, 11, false), (1, 11, false)] with caps := (setAt (setAt (setAt (setAt (List.replicate 16 {}) 0 Cap.all) 1 Cap.all) 4 (Cap.all.withKnot true 7)) 5 (Cap.all.withKnot false 7)) }), ({ kcopy 2 [(0, 11, false), (1, 11, false)] with caps := (setAt (setAt (setAt (setAt (List.replicate 16 {}) 0 Cap.all) 1 Cap.all) 4 (Cap.all.withKnot true 7)) 5 (Cap.all.withKnot false 7)) } : KCopy), by decide +kernel⟩,
    ⟨(((((State.reset.wr (pgTile 5) 8 1).wrMem (physOf 5 (ownBase + 0x3FE00 + 16 * 3)) 16 (ownBase + 0x2000 + 0x1000 * 2 ^ 40 + 0x1FF * 2 ^ 80)).setTag (physOf 5 (ownBase + 0x3FE00 + 16 * 3)) 7).setBank (pgEccT 5) 0 { inited := true }).setTile 5 { mode := 3, work := true, copies := [{ run := true, pc := ownBase + 0x100, rsp := ownBase + 0x1FF80, depth := 2, file := [(0, 11, false), (1, 11, false)], caps := setAt (setAt (setAt (List.replicate 16 {}) 0 Cap.all) 1 ⟨ownBase + 0x10000 + 0x10000 * 2 ^ 40 + 0x1FF * 2 ^ 80, true⟩) 5 {} }, {}, {}] }), ({ run := true, pc := ownBase + 0x100, rsp := ownBase + 0x1FF80, depth := 2, file := [(0, 11, false), (1, 11, false)], caps := setAt (setAt (setAt (List.replicate 16 {}) 0 Cap.all) 1 ⟨ownBase + 0x10000 + 0x10000 * 2 ^ 40 + 0x1FF * 2 ^ 80, true⟩) 5 {} } : KCopy), by decide +kernel⟩,
    ⟨(((((State.reset.wr (pgTile 5) 8 1).wrMem (physOf 5 (ownBase + 0x3FE00 + 16 * 3)) 16 (ownBase + 0x2000 + 0x1000 * 2 ^ 40 + 0x1FF * 2 ^ 80)).setTag (physOf 5 (ownBase + 0x3FE00 + 16 * 3)) 7).setBank (pgEccT 5) 0 { inited := true }).setTile 5 { mode := 3, work := true, copies := [{ run := true, pc := ownBase + 0x100, rsp := ownBase + 0x1FF80, depth := 2, file := [(0, 11, false), (1, 11, false)], caps := setAt (setAt (setAt (List.replicate 16 {}) 0 Cap.all) 1 ⟨ownBase + 0x10000 + 0x10000 * 2 ^ 40 + 0x1FF * 2 ^ 80, true⟩) 5 (Cap.all.withKnot false 7) }, {}, {}] }), ({ run := true, pc := ownBase + 0x100, rsp := ownBase + 0x1FF80, depth := 2, file := [(0, 11, false), (1, 11, false)], caps := setAt (setAt (setAt (List.replicate 16 {}) 0 Cap.all) 1 ⟨ownBase + 0x10000 + 0x10000 * 2 ^ 40 + 0x1FF * 2 ^ 80, true⟩) 5 (Cap.all.withKnot false 7) } : KCopy), by decide +kernel⟩⟩

theorem witness_KolotteCaps_3 :
    (∃ (s : State) (k : KCopy), ((Instr.cuntie issue 4 5).wf = true) ∧ (s.calm = true) ∧ (s.solo issue (.cuntie 4 5) = true) ∧ (s.copyOf issue = k) ∧ ((s.kx issue.tile issue.copy).canEnter 3 (⟨ownBase + 0x2000 + 0x1000 * 2 ^ 40 + 0x1FF * 2 ^ 80, true⟩ : Cap) = true) ∧ ((k.cap 5).usable = true) ∧ ((k.cap 5).perm 6 = true) ∧ ((k.cap 4).tag = true) ∧ ((k.cap 4).knotted = true) ∧ ((k.cap 4).ktype ≠ (k.cap 5).ktype))
    ∧ (∃ (s : State) (k : KCopy), ((Instr.cvoid issue 1).wf = true) ∧ (s.calm = true) ∧ (s.solo issue (.cvoid 1) = true) ∧ (s.copyOf issue = k))
    ∧ (∃ (s : State) (k : KCopy), ((Instr.cread issue 0 1).wf = true) ∧ (s.calm = true) ∧ (s.solo issue (.cread 0 1) = true) ∧ (s.copyOf issue = k))
    ∧ (∃ (s : State) (k : KCopy), ((Instr.cread issue 1 1).wf = true) ∧ (s.calm = true) ∧ (s.solo issue (.cread 1 1) = true) ∧ (s.copyOf issue = k))
    ∧ (∃ (s : State) (k : KCopy), ((Instr.cread issue 2 1).wf = true) ∧ (s.calm = true) ∧ (s.solo issue (.cread 2 1) = true) ∧ (s.copyOf issue = k))
    ∧ (∃ (s : State) (k : KCopy), ((Instr.cread issue 3 1).wf = true) ∧ (s.calm = true) ∧ (s.solo issue (.cread 3 1) = true) ∧ (s.copyOf issue = k)) :=
    ⟨⟨(((((State.reset.wr (pgTile 5) 8 1).wrMem (physOf 5 (ownBase + 0x3FE00 + 16 * 3)) 16 (ownBase + 0x2000 + 0x1000 * 2 ^ 40 + 0x1FF * 2 ^ 80)).setTag (physOf 5 (ownBase + 0x3FE00 + 16 * 3)) 7).setBank (pgEccT 5) 0 { inited := true }).setTile 5 { mode := 3, work := true, copies := [{ run := true, pc := ownBase + 0x100, rsp := ownBase + 0x1FF80, depth := 2, file := [(0, 11, false), (1, 11, false)], caps := setAt (setAt (setAt (setAt (List.replicate 16 {}) 4 (Cap.all.withKnot true 9)) 0 Cap.all) 1 ⟨ownBase + 0x10000 + 0x10000 * 2 ^ 40 + 0x1FF * 2 ^ 80, true⟩) 5 (Cap.all.withKnot false 7) }, {}, {}] }), ({ run := true, pc := ownBase + 0x100, rsp := ownBase + 0x1FF80, depth := 2, file := [(0, 11, false), (1, 11, false)], caps := setAt (setAt (setAt (setAt (List.replicate 16 {}) 4 (Cap.all.withKnot true 9)) 0 Cap.all) 1 ⟨ownBase + 0x10000 + 0x10000 * 2 ^ 40 + 0x1FF * 2 ^ 80, true⟩) 5 (Cap.all.withKnot false 7) } : KCopy), by decide +kernel⟩,
    ⟨(inTile (kcopy 2 [(0, 11, false), (1, 11, false)])), (kcopy 2 [(0, 11, false), (1, 11, false)]), by decide +kernel⟩,
    ⟨(inTile (kcopy 2 [(0, 11, false), (1, 11, false)])), (kcopy 2 [(0, 11, false), (1, 11, false)]), by decide +kernel⟩,
    ⟨(inTile (kcopy 2 [(0, 11, false), (1, 11, false)])), (kcopy 2 [(0, 11, false), (1, 11, false)]), by decide +kernel⟩,
    ⟨(inTile (kcopy 2 [(0, 11, false), (1, 11, false)])), (kcopy 2 [(0, 11, false), (1, 11, false)]), by decide +kernel⟩,
    ⟨(inTile (kcopy 2 [(0, 11, false), (1, 11, false)])), (kcopy 2 [(0, 11, false), (1, 11, false)]), by decide +kernel⟩⟩

theorem witness_KolotteCaps_4 :
    (∃ (s : State) (k : KCopy), ((Instr.cread issue 4 1).wf = true) ∧ (s.calm = true) ∧ (s.solo issue (.cread 4 1) = true) ∧ (s.copyOf issue = k))
    ∧ (∃ (s : State) (k : KCopy), ((Instr.cread issue 5 1).wf = true) ∧ (s.calm = true) ∧ (s.solo issue (.cread 5 1) = true) ∧ (s.copyOf issue = k))
    ∧ (∃ (s : State) (k : KCopy), ((Instr.cread issue 6 1).wf = true) ∧ (s.calm = true) ∧ (s.solo issue (.cread 2 1) = true) ∧ (s.copyOf issue = k) ∧ ((s.kx issue.tile issue.copy).canEnter 1 (⟨ownBase + 0x2000 + 0x1000 * 2 ^ 40 + 0x1FF * 2 ^ 80, true⟩ : Cap) = true) ∧ (6 ≤ 6)) :=
    ⟨⟨(inTile (kcopy 2 [(0, 11, false), (1, 11, false)])), (kcopy 2 [(0, 11, false), (1, 11, false)]), by decide +kernel⟩,
    ⟨(inTile (kcopy 2 [(0, 11, false), (1, 11, false)])), (kcopy 2 [(0, 11, false), (1, 11, false)]), by decide +kernel⟩,
    ⟨(((((State.reset.wr (pgTile 5) 8 1).wrMem (physOf 5 (ownBase + 0x3FE00 + 16 * 1)) 16 (ownBase + 0x2000 + 0x1000 * 2 ^ 40 + 0x1FF * 2 ^ 80)).setTag (physOf 5 (ownBase + 0x3FE00 + 16 * 1)) 7).setBank (pgEccT 5) 0 { inited := true }).setTile 5 { mode := 3, work := true, copies := [{ run := true, pc := ownBase + 0x100, rsp := ownBase + 0x1FF80, depth := 2, file := [(0, 11, false), (1, 11, false)], caps := setAt (setAt (setAt (List.replicate 16 {}) 0 Cap.all) 1 ⟨ownBase + 0x10000 + 0x10000 * 2 ^ 40 + 0x1FF * 2 ^ 80, true⟩) 5 {} }, {}, {}] }), ({ run := true, pc := ownBase + 0x100, rsp := ownBase + 0x1FF80, depth := 2, file := [(0, 11, false), (1, 11, false)], caps := setAt (setAt (setAt (List.replicate 16 {}) 0 Cap.all) 1 ⟨ownBase + 0x10000 + 0x10000 * 2 ^ 40 + 0x1FF * 2 ^ 80, true⟩) 5 {} } : KCopy), by decide +kernel⟩⟩

theorem witness_KolotteInputs_1 :
    (∃ (s : State) (k : KCopy), ((Instr.waitw issue).wf = true) ∧ (s.calm = true) ∧ (s.solo issue (.waitw) = true) ∧ (s.copyOf issue = k) ∧ ((s.tileH issue.tile).rq = (⟨0x1111222233334444, 0x5555666677778888⟩ : RelEntry) :: ([⟨7, 8⟩] : List RelEntry)) ∧ (¬((s.tileH issue.tile).mode ≤ 1 ∧ issue.copy = 0)))
    ∧ (∃ (s : State) (k : KCopy), ((Instr.waitw issue).wf = true) ∧ (s.calm = true) ∧ (s.solo issue (.waitw) = true) ∧ (s.copyOf issue = k) ∧ ((s.tileH issue.tile).rq = (⟨0x1111222233334444, 0x5555666677778888⟩ : RelEntry) :: ([⟨7, 8⟩] : List RelEntry)) ∧ (((s.tileH issue.tile).mode ≤ 1 ∧ issue.copy = 0)))
    ∧ (∃ (s : State) (k : KCopy), ((Instr.waitw issue).wf = true) ∧ (s.calm = true) ∧ (s.solo issue (.waitw) = true) ∧ (s.copyOf issue = k) ∧ ((s.tileH issue.tile).rq = []))
    ∧ (∃ s : State, ((Instr.waitwRelease ({ tile := 5 } : Issue).tile ({ tile := 5 } : Issue).copy).wf = true) ∧ (s.calm = true) ∧ (({ tile := 5 } : Issue).lits = []) ∧ (s.copyOf ({ tile := 5 } : Issue) = { (kcopy 1 [(0, 11, false)]) with waiting := some { ops := [.waitw] } }) ∧ ((kcopy 1 [(0, 11, false)]).waiting = none) ∧ ((s.setTile ({ tile := 5 } : Issue).tile { (s.tileH ({ tile := 5 } : Issue).tile) with copies := setAt (s.tileH ({ tile := 5 } : Issue).tile).copies ({ tile := 5 } : Issue).copy (kcopy 1 [(0, 11, false)]) }).solo ({ tile := 5 } : Issue) .waitw = true) ∧ ((s.tileH ({ tile := 5 } : Issue).tile).rq = (⟨0x1111222233334444, 0x5555666677778888⟩ : RelEntry) :: ([⟨7, 8⟩] : List RelEntry)) ∧ (¬((s.tileH ({ tile := 5 } : Issue).tile).mode ≤ 1 ∧ ({ tile := 5 } : Issue).copy = 0)))
    ∧ (∃ s : State, ((Instr.waitwRelease ({ tile := 5 } : Issue).tile ({ tile := 5 } : Issue).copy).wf = true) ∧ (s.calm = true) ∧ (({ tile := 5 } : Issue).lits = []) ∧ (s.copyOf ({ tile := 5 } : Issue) = { (kcopy 1 [(0, 11, false)]) with waiting := some { ops := [.waitw] } }) ∧ ((kcopy 1 [(0, 11, false)]).waiting = none) ∧ ((s.setTile ({ tile := 5 } : Issue).tile { (s.tileH ({ tile := 5 } : Issue).tile) with copies := setAt (s.tileH ({ tile := 5 } : Issue).tile).copies ({ tile := 5 } : Issue).copy (kcopy 1 [(0, 11, false)]) }).solo ({ tile := 5 } : Issue) .waitw = true) ∧ ((s.tileH ({ tile := 5 } : Issue).tile).rq = (⟨0x1111222233334444, 0x5555666677778888⟩ : RelEntry) :: ([⟨7, 8⟩] : List RelEntry)) ∧ (((s.tileH ({ tile := 5 } : Issue).tile).mode ≤ 1 ∧ ({ tile := 5 } : Issue).copy = 0)))
    ∧ (∃ s : State, ((Instr.waitwRelease ({ tile := 5 } : Issue).tile ({ tile := 5 } : Issue).copy).wf = true) ∧ (s.calm = true) ∧ (({ tile := 5 } : Issue).lits = []) ∧ (s.copyOf ({ tile := 5 } : Issue) = { (kcopy 1 [(0, 11, false)]) with waiting := some { ops := [.waitw] } }) ∧ ((kcopy 1 [(0, 11, false)]).waiting = none) ∧ ((s.setTile ({ tile := 5 } : Issue).tile { (s.tileH ({ tile := 5 } : Issue).tile) with copies := setAt (s.tileH ({ tile := 5 } : Issue).tile).copies ({ tile := 5 } : Issue).copy (kcopy 1 [(0, 11, false)]) }).solo ({ tile := 5 } : Issue) .waitw = true) ∧ ((s.tileH ({ tile := 5 } : Issue).tile).rq = [])) :=
    ⟨⟨(((State.reset.wr (pgTile 5) 8 1).setBank (pgEccT 5) 0 { inited := true }).setTile 5 { mode := 3, work := true, copies := [(kcopy 2 [(0, 11, false), (1, 11, false)]), {}, {}], rq := [⟨0x1111222233334444, 0x5555666677778888⟩, ⟨7, 8⟩] }), (kcopy 2 [(0, 11, false), (1, 11, false)]), by decide +kernel⟩,
    ⟨(((State.reset.wr (pgTile 5) 8 1).setBank (pgEccT 5) 0 { inited := true }).setTile 5 { mode := 0, work := true, copies := [(kcopy 2 [(0, 11, false), (1, 11, false)]), {}, {}], rq := [⟨0x1111222233334444, 0x5555666677778888⟩, ⟨7, 8⟩] }), (kcopy 2 [(0, 11, false), (1, 11, false)]), by decide +kernel⟩,
    ⟨(inTile (kcopy 2 [(0, 11, false), (1, 11, false)])), (kcopy 2 [(0, 11, false), (1, 11, false)]), by decide +kernel⟩,
    ⟨(((State.reset.wr (pgTile 5) 8 1).setBank (pgEccT 5) 0 { inited := true }).setTile 5 { mode := 3, work := true, copies := [{ kcopy 1 [(0, 11, false)] with waiting := some { ops := [.waitw] } }, {}, {}], rq := [⟨0x1111222233334444, 0x5555666677778888⟩, ⟨7, 8⟩] }), by decide +kernel⟩,
    ⟨(((State.reset.wr (pgTile 5) 8 1).setBank (pgEccT 5) 0 { inited := true }).setTile 5 { mode := 0, work := true, copies := [{ kcopy 1 [(0, 11, false)] with waiting := some { ops := [.waitw] } }, {}, {}], rq := [⟨0x1111222233334444, 0x5555666677778888⟩, ⟨7, 8⟩] }), by decide +kernel⟩,
    ⟨(inTile { kcopy 1 [(0, 11, false)] with waiting := some { ops := [.waitw] } }), by decide +kernel⟩⟩

theorem witness_KolotteInputs_2 :
    (∃ s : State, ((Instr.waitwRelease 5 0).wf = true) ∧ (s.calm = true) ∧ (s.kCan 5 0 = false ∨ ((s.tileH 5).copies.getD 0 {}).waiting = none))
    ∧ (∃ (s : State) (k : KCopy), ((Instr.mbxr issue 3).wf = true) ∧ (s.calm = true) ∧ (s.solo issue (.mbxr 3) = true) ∧ (s.copyOf issue = k) ∧ ((s.tileH issue.tile).mbox = []) ∧ (¬((s.tileH issue.tile).mode ≤ 1 ∧ issue.copy = 0)))
    ∧ (∃ (s : State) (k : KCopy), ((Instr.mbxr issue 3).wf = true) ∧ (s.calm = true) ∧ (s.solo issue (.mbxr 3) = true) ∧ (s.copyOf issue = k) ∧ ((s.tileH issue.tile).mbox = []) ∧ (((s.tileH issue.tile).mode ≤ 1 ∧ issue.copy = 0)))
    ∧ (∃ (s : State) (k : KCopy), ((Instr.mbxr issue 3).wf = true) ∧ (s.calm = true) ∧ (s.solo issue (.mbxr 3) = true) ∧ (s.copyOf issue = k) ∧ ((s.tileH issue.tile).mbox = (0x1111222233334444, true) :: ([] : List (Nat × Bool))) ∧ (0x1111222233334444 < 2 ^ 64) ∧ (¬((s.tileH issue.tile).mode ≤ 1 ∧ issue.copy = 0)))
    ∧ (∃ (s : State) (k : KCopy), ((Instr.mbxr issue 3).wf = true) ∧ (s.calm = true) ∧ (s.solo issue (.mbxr 3) = true) ∧ (s.copyOf issue = k) ∧ ((s.tileH issue.tile).mbox = (0x1111222233334444, true) :: ([] : List (Nat × Bool))) ∧ (0x1111222233334444 < 2 ^ 64) ∧ (((s.tileH issue.tile).mode ≤ 1 ∧ issue.copy = 0)))
    ∧ (∃ (s : State) (k : KCopy), ((Instr.send issue 1 4).wf = true) ∧ (s.calm = true) ∧ (s.solo issue (.send 1 4) = true) ∧ (s.copyOf issue = k) ∧ (k.entry (k.top - 2) = (256, false)) ∧ (256 < 2 ^ 32) ∧ (k.entry (k.top - 1) = (0, false)) ∧ (0 < 2 ^ 32) ∧ (false = false) ∧ (0 = 0)) :=
    ⟨⟨(inTile (kcopy 1 [(0, 11, false)])), by decide +kernel⟩,
    ⟨(inTile { kcopy 2 [(0, 11, false), (1, 11, false)] with preds := 8 }), ({ kcopy 2 [(0, 11, false), (1, 11, false)] with preds := 8 } : KCopy), by decide +kernel⟩,
    ⟨(((State.reset.wr (pgTile 5) 8 1).setBank (pgEccT 5) 0 { inited := true }).setTile 5 { mode := 0, work := true, copies := [(kcopy 2 [(0, 11, false), (1, 11, false)]), {}, {}] }), (kcopy 2 [(0, 11, false), (1, 11, false)]), by decide +kernel⟩,
    ⟨(((State.reset.wr (pgTile 5) 8 1).setBank (pgEccT 5) 0 { inited := true }).setTile 5 { mode := 3, work := true, copies := [(kcopy 2 [(0, 11, false), (1, 11, false)]), {}, {}], mbox := [(0x1111222233334444, true)] }), (kcopy 2 [(0, 11, false), (1, 11, false)]), by decide +kernel⟩,
    ⟨(((State.reset.wr (pgTile 5) 8 1).setBank (pgEccT 5) 0 { inited := true }).setTile 5 { mode := 0, work := true, copies := [(kcopy 2 [(0, 11, false), (1, 11, false)]), {}, {}], mbox := [(0x1111222233334444, true)] }), (kcopy 2 [(0, 11, false), (1, 11, false)]), by decide +kernel⟩,
    ⟨(inTile (kcopy 4 [(0, 11, false), (1, 11, false), (2, 256, false), (3, 0, false)])), (kcopy 4 [(0, 11, false), (1, 11, false), (2, 256, false), (3, 0, false)]), by decide +kernel⟩⟩

theorem witness_KolotteInputs_3 :
    (∃ (s : State) (k : KCopy), ((Instr.send issue 4 4).wf = true) ∧ (s.calm = true) ∧ (s.solo issue (.send 4 4) = true) ∧ (s.copyOf issue = k) ∧ (k.entry (k.top - 2) = (1024, false)) ∧ (1024 < 2 ^ 32) ∧ (k.entry (k.top - 1) = (20, false)) ∧ (20 < 2 ^ 32) ∧ (false = false) ∧ (false = false) ∧ (0 < 20) ∧ (20 ≤ 48) ∧ ((k.cap 4).usable = true) ∧ ((k.cap 4).perm 0 = true) ∧ ((k.cap 4).covers ((k.cap 4).base + 1024) 20 = true) ∧ (inOwn ((k.cap 4).base + 1024) 20 = true) ∧ ((s.kx issue.tile issue.copy).pairBad ((k.cap 4).base + 1024) 20 false = none) ∧ ((s.kx issue.tile issue.copy).readsFree ((k.cap 4).base + 1024) 20 = false) ∧ ((((s.tileH issue.tile).copies.zipIdx.all fun q => q.2 == issue.copy || q.1.sb.isEmpty) = true)) ∧ (k.sb = []) ∧ (s.rdMem (physOf issue.tile ((k.cap 4).base + 1024)) 20 = ((0, false), s)) ∧ (((s.tileH issue.tile).mode ≤ 1 ∧ issue.copy = 0)))
    ∧ (∃ (s : State) (k : KCopy), ((Instr.send issue 4 4).wf = true) ∧ (s.calm = true) ∧ (s.solo issue (.send 4 4) = true) ∧ (s.copyOf issue = k) ∧ (k.entry (k.top - 2) = (1024, false)) ∧ (1024 < 2 ^ 32) ∧ (k.entry (k.top - 1) = (20, false)) ∧ (20 < 2 ^ 32) ∧ (false = false) ∧ (false = false) ∧ (0 < 20) ∧ (20 ≤ 48) ∧ ((k.cap 4).usable = true) ∧ ((k.cap 4).perm 0 = true) ∧ ((k.cap 4).covers ((k.cap 4).base + 1024) 20 = true) ∧ (inOwn ((k.cap 4).base + 1024) 20 = true) ∧ ((s.kx issue.tile issue.copy).pairBad ((k.cap 4).base + 1024) 20 false = none) ∧ ((s.kx issue.tile issue.copy).readsFree ((k.cap 4).base + 1024) 20 = false) ∧ ((((s.tileH issue.tile).copies.zipIdx.all fun q => q.2 == issue.copy || q.1.sb.isEmpty) = true)) ∧ (k.sb = []) ∧ (s.rdMem (physOf issue.tile ((k.cap 4).base + 1024)) 20 = ((0, false), s)) ∧ (¬((s.tileH issue.tile).mode ≤ 1 ∧ issue.copy = 0)) ∧ (ownsStream (s.tileH issue.tile).mode issue.copy 4 = true) ∧ (s.entryOf (srcKey 3 (tileSel issue.tile 4)) = some 0) ∧ (s.queue (srcKey 3 (tileSel issue.tile 4)) = []))
    ∧ (∃ (s : State) (k : KCopy), ((Instr.send issue 4 4).wf = true) ∧ (s.calm = true) ∧ (s.solo issue (.send 4 4) = true) ∧ (s.copyOf issue = k) ∧ (k.entry (k.top - 2) = (1024, false)) ∧ (1024 < 2 ^ 32) ∧ (k.entry (k.top - 1) = (20, false)) ∧ (20 < 2 ^ 32) ∧ (false = false) ∧ (false = false) ∧ (0 < 20) ∧ (20 ≤ 48) ∧ ((k.cap 4).usable = true) ∧ ((k.cap 4).perm 0 = true) ∧ ((k.cap 4).covers ((k.cap 4).base + 1024) 20 = true) ∧ (inOwn ((k.cap 4).base + 1024) 20 = true) ∧ ((s.kx issue.tile issue.copy).pairBad ((k.cap 4).base + 1024) 20 false = none) ∧ ((s.kx issue.tile issue.copy).readsFree ((k.cap 4).base + 1024) 20 = false) ∧ ((((s.tileH issue.tile).copies.zipIdx.all fun q => q.2 == issue.copy || q.1.sb.isEmpty) = true)) ∧ (k.sb = []) ∧ (s.rdMem (physOf issue.tile ((k.cap 4).base + 1024)) 20 = ((0, false), s)) ∧ (¬((s.tileH issue.tile).mode ≤ 1 ∧ issue.copy = 0)) ∧ (ownsStream (s.tileH issue.tile).mode issue.copy 4 = true) ∧ (s.entryOf (srcKey 3 (tileSel issue.tile 4)) = none) ∧ (s.queue (srcKey 3 (tileSel issue.tile 4)) = []))
    ∧ (∃ (s : State) (k : KCopy), ((Instr.send issue 4 9).wf = true) ∧ (s.calm = true) ∧ (s.solo issue (.send 4 9) = true) ∧ (s.copyOf issue = k) ∧ (k.entry (k.top - 2) = (1024, false)) ∧ (1024 < 2 ^ 32) ∧ (k.entry (k.top - 1) = (20, false)) ∧ (20 < 2 ^ 32) ∧ (false = false) ∧ (false = false) ∧ (0 < 20) ∧ (20 ≤ 48) ∧ ((k.cap 4).usable = true) ∧ ((k.cap 4).perm 0 = true) ∧ ((k.cap 4).covers ((k.cap 4).base + 1024) 20 = true) ∧ (inOwn ((k.cap 4).base + 1024) 20 = true) ∧ ((s.kx issue.tile issue.copy).pairBad ((k.cap 4).base + 1024) 20 false = none) ∧ ((s.kx issue.tile issue.copy).readsFree ((k.cap 4).base + 1024) 20 = false) ∧ ((((s.tileH issue.tile).copies.zipIdx.all fun q => q.2 == issue.copy || q.1.sb.isEmpty) = true)) ∧ (k.sb = []) ∧ (s.rdMem (physOf issue.tile ((k.cap 4).base + 1024)) 20 = ((0, false), s)) ∧ (¬((s.tileH issue.tile).mode ≤ 1 ∧ issue.copy = 0)) ∧ (ownsStream (s.tileH issue.tile).mode issue.copy 9 = false) ∧ (s.queue (srcKey 3 (tileSel issue.tile 9)) = []))
    ∧ (∃ (s : State) (k : KCopy), ((Instr.send issue 4 4).wf = true) ∧ (s.calm = true) ∧ (s.solo issue (.send 4 4) = true) ∧ (s.copyOf issue = k) ∧ (k.entry (k.top - 2) = (1024, false)) ∧ (1024 < 2 ^ 32) ∧ (k.entry (k.top - 1) = (20, false)) ∧ (20 < 2 ^ 32) ∧ (false = false) ∧ (false = false) ∧ (0 < 20) ∧ (20 ≤ 48) ∧ ((k.cap 4).usable = true) ∧ ((k.cap 4).perm 0 = true) ∧ ((k.cap 4).covers ((k.cap 4).base + 1024) 20 = true) ∧ (inOwn ((k.cap 4).base + 1024) 20 = true) ∧ ((s.kx issue.tile issue.copy).pairBad ((k.cap 4).base + 1024) 20 false = none) ∧ ((s.kx issue.tile issue.copy).readsFree ((k.cap 4).base + 1024) 20 = false) ∧ ((((s.tileH issue.tile).copies.zipIdx.all fun q => q.2 == issue.copy || q.1.sb.isEmpty) = true)) ∧ (k.sb = []) ∧ (s.rdMem (physOf issue.tile ((k.cap 4).base + 1024)) 20 = ((0, false), s)) ∧ (¬((s.tileH issue.tile).mode ≤ 1 ∧ issue.copy = 0)) ∧ (ownsStream (s.tileH issue.tile).mode issue.copy 4 = true) ∧ (s.queue (srcKey 3 (tileSel issue.tile 4)) ≠ []))
    ∧ (∃ (s : State) (k : KCopy), ((Instr.send issue 5 4).wf = true) ∧ (s.calm = true) ∧ (s.solo issue (.send 5 4) = true) ∧ (s.copyOf issue = k) ∧ (k.entry (k.top - 2) = (1024, false)) ∧ (1024 < 2 ^ 32) ∧ (k.entry (k.top - 1) = (20, false)) ∧ (20 < 2 ^ 32) ∧ ((s.kx issue.tile issue.copy).canEnter 3 (⟨ownBase + 0x2000 + 0x1000 * 2 ^ 40 + 0x1FF * 2 ^ 80, true⟩ : Cap) = true) ∧ (false = false) ∧ (false = false) ∧ (0 < 20) ∧ (((k.cap 5).usable = false ∨ (k.cap 5).perm 0 = false))) :=
    ⟨⟨(((((State.reset.wr (pgTile 5) 8 1).wrMem (physOf 5 (ownBase + 0x400)) 32 0)).setBank (pgEccT 5) 0 { inited := true }).setTile 5 { mode := 0, work := true, copies := [{ kcopy 4 [(0, 11, false), (1, 11, false), (2, 1024, false), (3, 20, false)] with caps := (setAt (setAt (setAt (List.replicate 16 {}) 0 Cap.all) 1 Cap.all) 4 ⟨ownBase + 0x80000 * 2 ^ 40 + 0x1FF * 2 ^ 80, true⟩) }, {}, {}] }), ({ kcopy 4 [(0, 11, false), (1, 11, false), (2, 1024, false), (3, 20, false)] with caps := (setAt (setAt (setAt (List.replicate 16 {}) 0 Cap.all) 1 Cap.all) 4 ⟨ownBase + 0x80000 * 2 ^ 40 + 0x1FF * 2 ^ 80, true⟩) } : KCopy), by decide +kernel⟩,
    ⟨(((((State.reset.wr (pgTile 5) 8 1).wrMem (physOf 5 (ownBase + 0x400)) 32 0).setStr 0 { en := true, srcKind := 3, srcSel := tileSel 5 4, dests := [{ kind := 1 }] }).setBank (pgEccT 5) 0 { inited := true }).setTile 5 { mode := 3, work := true, copies := [{ kcopy 4 [(0, 11, false), (1, 11, false), (2, 1024, false), (3, 20, false)] with caps := (setAt (setAt (setAt (List.replicate 16 {}) 0 Cap.all) 1 Cap.all) 4 ⟨ownBase + 0x80000 * 2 ^ 40 + 0x1FF * 2 ^ 80, true⟩) }, {}, {}] }), ({ kcopy 4 [(0, 11, false), (1, 11, false), (2, 1024, false), (3, 20, false)] with caps := (setAt (setAt (setAt (List.replicate 16 {}) 0 Cap.all) 1 Cap.all) 4 ⟨ownBase + 0x80000 * 2 ^ 40 + 0x1FF * 2 ^ 80, true⟩) } : KCopy), by decide +kernel⟩,
    ⟨(((((State.reset.wr (pgTile 5) 8 1).wrMem (physOf 5 (ownBase + 0x400)) 32 0)).setBank (pgEccT 5) 0 { inited := true }).setTile 5 { mode := 3, work := true, copies := [{ kcopy 4 [(0, 11, false), (1, 11, false), (2, 1024, false), (3, 20, false)] with caps := (setAt (setAt (setAt (List.replicate 16 {}) 0 Cap.all) 1 Cap.all) 4 ⟨ownBase + 0x80000 * 2 ^ 40 + 0x1FF * 2 ^ 80, true⟩) }, {}, {}] }), ({ kcopy 4 [(0, 11, false), (1, 11, false), (2, 1024, false), (3, 20, false)] with caps := (setAt (setAt (setAt (List.replicate 16 {}) 0 Cap.all) 1 Cap.all) 4 ⟨ownBase + 0x80000 * 2 ^ 40 + 0x1FF * 2 ^ 80, true⟩) } : KCopy), by decide +kernel⟩,
    ⟨(((((State.reset.wr (pgTile 5) 8 1).wrMem (physOf 5 (ownBase + 0x400)) 32 0)).setBank (pgEccT 5) 0 { inited := true }).setTile 5 { mode := 3, work := true, copies := [{ kcopy 4 [(0, 11, false), (1, 11, false), (2, 1024, false), (3, 20, false)] with caps := (setAt (setAt (setAt (List.replicate 16 {}) 0 Cap.all) 1 Cap.all) 4 ⟨ownBase + 0x80000 * 2 ^ 40 + 0x1FF * 2 ^ 80, true⟩) }, {}, {}] }), ({ kcopy 4 [(0, 11, false), (1, 11, false), (2, 1024, false), (3, 20, false)] with caps := (setAt (setAt (setAt (List.replicate 16 {}) 0 Cap.all) 1 Cap.all) 4 ⟨ownBase + 0x80000 * 2 ^ 40 + 0x1FF * 2 ^ 80, true⟩) } : KCopy), by decide +kernel⟩,
    ⟨(((((State.reset.wr (pgTile 5) 8 1).wrMem (physOf 5 (ownBase + 0x400)) 32 0).setQueue (srcKey 3 (tileSel 5 4)) [{}]).setBank (pgEccT 5) 0 { inited := true }).setTile 5 { mode := 3, work := true, copies := [{ kcopy 4 [(0, 11, false), (1, 11, false), (2, 1024, false), (3, 20, false)] with caps := (setAt (setAt (setAt (List.replicate 16 {}) 0 Cap.all) 1 Cap.all) 4 ⟨ownBase + 0x80000 * 2 ^ 40 + 0x1FF * 2 ^ 80, true⟩) }, {}, {}] }), ({ kcopy 4 [(0, 11, false), (1, 11, false), (2, 1024, false), (3, 20, false)] with caps := (setAt (setAt (setAt (List.replicate 16 {}) 0 Cap.all) 1 Cap.all) 4 ⟨ownBase + 0x80000 * 2 ^ 40 + 0x1FF * 2 ^ 80, true⟩) } : KCopy), by decide +kernel⟩,
    ⟨(((((State.reset.wr (pgTile 5) 8 1).wrMem (physOf 5 (ownBase + 0x3FE00 + 16 * 3)) 16 (ownBase + 0x2000 + 0x1000 * 2 ^ 40 + 0x1FF * 2 ^ 80)).setTag (physOf 5 (ownBase + 0x3FE00 + 16 * 3)) 7).setBank (pgEccT 5) 0 { inited := true }).setTile 5 { mode := 3, work := true, copies := [{ run := true, pc := ownBase + 0x100, rsp := ownBase + 0x1FF80, depth := 4, file := [(0, 11, false), (1, 11, false), (2, 1024, false), (3, 20, false)], caps := setAt (setAt (setAt (List.replicate 16 {}) 0 Cap.all) 1 ⟨ownBase + 0x10000 + 0x10000 * 2 ^ 40 + 0x1FF * 2 ^ 80, true⟩) 5 {} }, {}, {}] }), ({ run := true, pc := ownBase + 0x100, rsp := ownBase + 0x1FF80, depth := 4, file := [(0, 11, false), (1, 11, false), (2, 1024, false), (3, 20, false)], caps := setAt (setAt (setAt (List.replicate 16 {}) 0 Cap.all) 1 ⟨ownBase + 0x10000 + 0x10000 * 2 ^ 40 + 0x1FF * 2 ^ 80, true⟩) 5 {} } : KCopy), by decide +kernel⟩⟩

theorem witness_KolotteInputs_4 :
    (∃ (s : State) (k : KCopy), ((Instr.send issue 5 4).wf = true) ∧ (s.calm = true) ∧ (s.solo issue (.send 5 4) = true) ∧ (s.copyOf issue = k) ∧ (k.entry (k.top - 2) = (1024, false)) ∧ (1024 < 2 ^ 32) ∧ (k.entry (k.top - 1) = (49, false)) ∧ (49 < 2 ^ 32) ∧ ((s.kx issue.tile issue.copy).canEnter 4 (⟨ownBase + 0x2000 + 0x1000 * 2 ^ 40 + 0x1FF * 2 ^ 80, true⟩ : Cap) = true) ∧ (false = false) ∧ (false = false) ∧ (0 < 49) ∧ ((k.cap 5).usable = true) ∧ ((k.cap 5).perm 0 = true) ∧ (((k.cap 5).covers ((k.cap 5).base + 1024) 49 = false ∨ 48 < 49)))
    ∧ (∃ (s : State) (k : KCopy), ((Instr.tfesub issue 1).wf = true) ∧ (s.calm = true) ∧ (s.solo issue (.tfesub 1) = true) ∧ (s.copyOf issue = k) ∧ (k.entry (k.top - 1) = (16384, false)) ∧ (16384 < 2 ^ 32) ∧ (false = false) ∧ ((k.cap 1).usable = true) ∧ ((k.cap 1).perm 7 = true) ∧ ((k.cap 1).perm 1 = true) ∧ ((k.cap 1).covers (pageBase + pgTfe (issue.tile / 8) * 4096) 4096 = true) ∧ (((s.tileH issue.tile).mode ≤ 1 ∧ issue.copy = 0)))
    ∧ (∃ (s : State) (k : KCopy), ((Instr.tfesub issue 1).wf = true) ∧ (s.calm = true) ∧ (s.solo issue (.tfesub 1) = true) ∧ (s.copyOf issue = k) ∧ (k.entry (k.top - 1) = (16384, false)) ∧ (16384 < 2 ^ 32) ∧ (false = false) ∧ ((k.cap 1).usable = true) ∧ ((k.cap 1).perm 7 = true) ∧ ((k.cap 1).perm 1 = true) ∧ ((k.cap 1).covers (pageBase + pgTfe (issue.tile / 8) * 4096) 4096 = true) ∧ (¬((s.tileH issue.tile).mode ≤ 1 ∧ issue.copy = 0)))
    ∧ (∃ (s : State) (k : KCopy), ((Instr.tfesub issue 5).wf = true) ∧ (s.calm = true) ∧ (s.solo issue (.tfesub 5) = true) ∧ (s.copyOf issue = k) ∧ (k.entry (k.top - 1) = (16384, false)) ∧ (16384 < 2 ^ 32) ∧ ((s.kx issue.tile issue.copy).canEnter 3 (⟨ownBase + 0x2000 + 0x1000 * 2 ^ 40 + 0x1FF * 2 ^ 80, true⟩ : Cap) = true) ∧ (false = false) ∧ (((k.cap 5).usable = false ∨ (k.cap 5).perm 7 = false ∨ (k.cap 5).perm 1 = false)))
    ∧ (∃ (s : State) (k : KCopy), ((Instr.tfesub issue 5).wf = true) ∧ (s.calm = true) ∧ (s.solo issue (.tfesub 5) = true) ∧ (s.copyOf issue = k) ∧ (k.entry (k.top - 1) = (16384, false)) ∧ (16384 < 2 ^ 32) ∧ ((s.kx issue.tile issue.copy).canEnter 4 (⟨ownBase + 0x2000 + 0x1000 * 2 ^ 40 + 0x1FF * 2 ^ 80, true⟩ : Cap) = true) ∧ (false = false) ∧ ((k.cap 5).usable = true) ∧ ((k.cap 5).perm 7 = true) ∧ ((k.cap 5).perm 1 = true) ∧ ((k.cap 5).covers (pageBase + pgTfe (issue.tile / 8) * 4096) 4096 = false))
    ∧ (∃ (s : State) (k : KCopy), ((Instr.syncf issue).wf = true) ∧ (s.calm = true) ∧ (s.solo issue (.syncf) = true) ∧ (s.copyOf issue = k) ∧ (k.sb = []) ∧ ((s.tileH issue.tile).ocb = [])) :=
    ⟨⟨(((((State.reset.wr (pgTile 5) 8 1).wrMem (physOf 5 (ownBase + 0x3FE00 + 16 * 4)) 16 (ownBase + 0x2000 + 0x1000 * 2 ^ 40 + 0x1FF * 2 ^ 80)).setTag (physOf 5 (ownBase + 0x3FE00 + 16 * 4)) 7).setBank (pgEccT 5) 0 { inited := true }).setTile 5 { mode := 3, work := true, copies := [{ run := true, pc := ownBase + 0x100, rsp := ownBase + 0x1FF80, depth := 4, file := [(0, 11, false), (1, 11, false), (2, 1024, false), (3, 49, false)], caps := setAt (setAt (setAt (List.replicate 16 {}) 0 Cap.all) 1 ⟨ownBase + 0x10000 + 0x10000 * 2 ^ 40 + 0x1FF * 2 ^ 80, true⟩) 5 ⟨ownBase + 0x1000 * 2 ^ 40 + 0x1FF * 2 ^ 80, true⟩ }, {}, {}] }), ({ run := true, pc := ownBase + 0x100, rsp := ownBase + 0x1FF80, depth := 4, file := [(0, 11, false), (1, 11, false), (2, 1024, false), (3, 49, false)], caps := setAt (setAt (setAt (List.replicate 16 {}) 0 Cap.all) 1 ⟨ownBase + 0x10000 + 0x10000 * 2 ^ 40 + 0x1FF * 2 ^ 80, true⟩) 5 ⟨ownBase + 0x1000 * 2 ^ 40 + 0x1FF * 2 ^ 80, true⟩ } : KCopy), by decide +kernel⟩,
    ⟨(((State.reset.wr (pgTile 5) 8 1).setBank (pgEccT 5) 0 { inited := true }).setTile 5 { mode := 0, work := true, copies := [(kcopy 3 [(0, 11, false), (1, 11, false), (2, 16384, false)]), {}, {}] }), (kcopy 3 [(0, 11, false), (1, 11, false), (2, 16384, false)]), by decide +kernel⟩,
    ⟨(inTile (kcopy 3 [(0, 11, false), (1, 11, false), (2, 16384, false)])), (kcopy 3 [(0, 11, false), (1, 11, false), (2, 16384, false)]), by decide +kernel⟩,
    ⟨(((((State.reset.wr (pgTile 5) 8 1).wrMem (physOf 5 (ownBase + 0x3FE00 + 16 * 3)) 16 (ownBase + 0x2000 + 0x1000 * 2 ^ 40 + 0x1FF * 2 ^ 80)).setTag (physOf 5 (ownBase + 0x3FE00 + 16 * 3)) 7).setBank (pgEccT 5) 0 { inited := true }).setTile 5 { mode := 3, work := true, copies := [{ run := true, pc := ownBase + 0x100, rsp := ownBase + 0x1FF80, depth := 3, file := [(0, 11, false), (1, 11, false), (2, 16384, false)], caps := setAt (setAt (setAt (List.replicate 16 {}) 0 Cap.all) 1 ⟨ownBase + 0x10000 + 0x10000 * 2 ^ 40 + 0x1FF * 2 ^ 80, true⟩) 5 {} }, {}, {}] }), ({ run := true, pc := ownBase + 0x100, rsp := ownBase + 0x1FF80, depth := 3, file := [(0, 11, false), (1, 11, false), (2, 16384, false)], caps := setAt (setAt (setAt (List.replicate 16 {}) 0 Cap.all) 1 ⟨ownBase + 0x10000 + 0x10000 * 2 ^ 40 + 0x1FF * 2 ^ 80, true⟩) 5 {} } : KCopy), by decide +kernel⟩,
    ⟨(((((State.reset.wr (pgTile 5) 8 1).wrMem (physOf 5 (ownBase + 0x3FE00 + 16 * 4)) 16 (ownBase + 0x2000 + 0x1000 * 2 ^ 40 + 0x1FF * 2 ^ 80)).setTag (physOf 5 (ownBase + 0x3FE00 + 16 * 4)) 7).setBank (pgEccT 5) 0 { inited := true }).setTile 5 { mode := 3, work := true, copies := [{ run := true, pc := ownBase + 0x100, rsp := ownBase + 0x1FF80, depth := 3, file := [(0, 11, false), (1, 11, false), (2, 16384, false)], caps := setAt (setAt (setAt (List.replicate 16 {}) 0 Cap.all) 1 ⟨ownBase + 0x10000 + 0x10000 * 2 ^ 40 + 0x1FF * 2 ^ 80, true⟩) 5 ⟨ownBase + 0x1000 * 2 ^ 40 + 0x1FF * 2 ^ 80, true⟩ }, {}, {}] }), ({ run := true, pc := ownBase + 0x100, rsp := ownBase + 0x1FF80, depth := 3, file := [(0, 11, false), (1, 11, false), (2, 16384, false)], caps := setAt (setAt (setAt (List.replicate 16 {}) 0 Cap.all) 1 ⟨ownBase + 0x10000 + 0x10000 * 2 ^ 40 + 0x1FF * 2 ^ 80, true⟩) 5 ⟨ownBase + 0x1000 * 2 ^ 40 + 0x1FF * 2 ^ 80, true⟩ } : KCopy), by decide +kernel⟩,
    ⟨(inTile (kcopy 2 [(0, 11, false), (1, 11, false)])), (kcopy 2 [(0, 11, false), (1, 11, false)]), by decide +kernel⟩⟩

theorem witness_KolotteInputs_5 :
    (∃ (s : State) (k : KCopy), ((Instr.cairn issue).wf = true) ∧ (s.calm = true) ∧ (s.solo issue (.cairn) = true) ∧ (s.copyOf issue = k) ∧ (¬((s.tileH issue.tile).mode ≤ 1 ∧ issue.copy = 0)))
    ∧ (∃ (s : State) (k : KCopy), ((Instr.cairn issue).wf = true) ∧ (s.calm = true) ∧ (s.solo issue (.cairn) = true) ∧ (s.copyOf issue = k) ∧ (((s.tileH issue.tile).mode ≤ 1 ∧ issue.copy = 0))) :=
    ⟨⟨(inTile (kcopy 2 [(0, 11, false), (1, 11, false)])), (kcopy 2 [(0, 11, false), (1, 11, false)]), by decide +kernel⟩,
    ⟨(((State.reset.wr (pgTile 5) 8 1).setBank (pgEccT 5) 0 { inited := true }).setTile 5 { mode := 0, work := true, copies := [(kcopy 2 [(0, 11, false), (1, 11, false)]), {}, {}] }), (kcopy 2 [(0, 11, false), (1, 11, false)]), by decide +kernel⟩⟩

theorem witness_KolotteFlow_1 :
    (∃ s : State, ((Instr.br ({ tile := 5, lits := [0xFE8] } : Issue) 0).wf = true) ∧ (s.calm = true) ∧ (s.solo ({ tile := 5, lits := [0xFE8] } : Issue) (.br 0) = true) ∧ (s.copyOf ({ tile := 5, lits := [0xFE8] } : Issue) = ({ kcopy 2 [(0, 11, false), (1, 11, false)] with caps := setAt (setAt (setAt (List.replicate 16 {}) 0 ⟨ownBase + 0x10000 * 2 ^ 40 + 0x1FF * 2 ^ 80, true⟩) 1 Cap.all) 4 ⟨ownBase + 0x2000 + 0x1000 * 2 ^ 40 + 0x1FF * 2 ^ 80, true⟩ } : KCopy)) ∧ (({ tile := 5, lits := [0xFE8] } : Issue).lits = [0xFE8]) ∧ ((((({ kcopy 2 [(0, 11, false), (1, 11, false)] with caps := setAt (setAt (setAt (List.replicate 16 {}) 0 ⟨ownBase + 0x10000 * 2 ^ 40 + 0x1FF * 2 ^ 80, true⟩) 1 Cap.all) 4 ⟨ownBase + 0x2000 + 0x1000 * 2 ^ 40 + 0x1FF * 2 ^ 80, true⟩ } : KCopy).pc : Int) + (BitVec.ofNat 12 0xFE8).toInt) % 2 ^ 40).toNat % 2 = 0) ∧ ((({ kcopy 2 [(0, 11, false), (1, 11, false)] with caps := setAt (setAt (setAt (List.replicate 16 {}) 0 ⟨ownBase + 0x10000 * 2 ^ 40 + 0x1FF * 2 ^ 80, true⟩) 1 Cap.all) 4 ⟨ownBase + 0x2000 + 0x1000 * 2 ^ 40 + 0x1FF * 2 ^ 80, true⟩ } : KCopy).cap 0).base ≤ (((({ kcopy 2 [(0, 11, false), (1, 11, false)] with caps := setAt (setAt (setAt (List.replicate 16 {}) 0 ⟨ownBase + 0x10000 * 2 ^ 40 + 0x1FF * 2 ^ 80, true⟩) 1 Cap.all) 4 ⟨ownBase + 0x2000 + 0x1000 * 2 ^ 40 + 0x1FF * 2 ^ 80, true⟩ } : KCopy).pc : Int) + (BitVec.ofNat 12 0xFE8).toInt) % 2 ^ 40).toNat) ∧ ((((({ kcopy 2 [(0, 11, false), (1, 11, false)] with caps := setAt (setAt (setAt (List.replicate 16 {}) 0 ⟨ownBase + 0x10000 * 2 ^ 40 + 0x1FF * 2 ^ 80, true⟩) 1 Cap.all) 4 ⟨ownBase + 0x2000 + 0x1000 * 2 ^ 40 + 0x1FF * 2 ^ 80, true⟩ } : KCopy).pc : Int) + (BitVec.ofNat 12 0xFE8).toInt) % 2 ^ 40).toNat < (({ kcopy 2 [(0, 11, false), (1, 11, false)] with caps := setAt (setAt (setAt (List.replicate 16 {}) 0 ⟨ownBase + 0x10000 * 2 ^ 40 + 0x1FF * 2 ^ 80, true⟩) 1 Cap.all) 4 ⟨ownBase + 0x2000 + 0x1000 * 2 ^ 40 + 0x1FF * 2 ^ 80, true⟩ } : KCopy).cap 0).top) ∧ ((({ kcopy 2 [(0, 11, false), (1, 11, false)] with caps := setAt (setAt (setAt (List.replicate 16 {}) 0 ⟨ownBase + 0x10000 * 2 ^ 40 + 0x1FF * 2 ^ 80, true⟩) 1 Cap.all) 4 ⟨ownBase + 0x2000 + 0x1000 * 2 ^ 40 + 0x1FF * 2 ^ 80, true⟩ } : KCopy).cap 0).perm 2 = true) ∧ (s.codeAt ({ tile := 5, lits := [0xFE8] } : Issue).tile (((({ kcopy 2 [(0, 11, false), (1, 11, false)] with caps := setAt (setAt (setAt (List.replicate 16 {}) 0 ⟨ownBase + 0x10000 * 2 ^ 40 + 0x1FF * 2 ^ 80, true⟩) 1 Cap.all) 4 ⟨ownBase + 0x2000 + 0x1000 * 2 ^ 40 + 0x1FF * 2 ^ 80, true⟩ } : KCopy).pc : Int) + (BitVec.ofNat 12 0xFE8).toInt) % 2 ^ 40).toNat 2 = true))
    ∧ (∃ (s : State) (k : KCopy), ((Instr.bri issue).wf = true) ∧ (s.calm = true) ∧ (s.solo issue (.bri) = true) ∧ (s.copyOf issue = k) ∧ (k.entry (k.top - 1) = (1024, false)) ∧ (1024 < 2 ^ 32) ∧ (false = false) ∧ (((k.cap 0).base + 1024) % 2 = 0) ∧ ((k.cap 0).base ≤ ((k.cap 0).base + 1024)) ∧ (((k.cap 0).base + 1024) < (k.cap 0).top) ∧ ((k.cap 0).perm 2 = true) ∧ (s.codeAt issue.tile ((k.cap 0).base + 1024) 2 = true))
    ∧ (∃ (s : State) (k : KCopy), ((Instr.bri issue).wf = true) ∧ (s.calm = true) ∧ (s.solo issue (.bri) = true) ∧ (s.copyOf issue = k) ∧ (k.entry (k.top - 1) = (1025, false)) ∧ (1025 < 2 ^ 32) ∧ ((s.kx issue.tile issue.copy).canEnter 6 (⟨ownBase + 0x2000 + 0x1000 * 2 ^ 40 + 0x1FF * 2 ^ 80, true⟩ : Cap) = true) ∧ (false = false) ∧ (((k.cap 0).base + 1025) % 2 = 1))
    ∧ (∃ (s : State) (k : KCopy), ((Instr.bri issue).wf = true) ∧ (s.calm = true) ∧ (s.solo issue (.bri) = true) ∧ (s.copyOf issue = k) ∧ (k.entry (k.top - 1) = (65536, false)) ∧ (65536 < 2 ^ 32) ∧ ((s.kx issue.tile issue.copy).canEnter 4 (⟨ownBase + 0x2000 + 0x1000 * 2 ^ 40 + 0x1FF * 2 ^ 80, true⟩ : Cap) = true) ∧ (false = false) ∧ (((k.cap 0).base + 65536) % 2 = 0) ∧ ((((k.cap 0).base + 65536) < (k.cap 0).base ∨ (k.cap 0).top ≤ ((k.cap 0).base + 65536))))
    ∧ (∃ (s : State) (k : KCopy), ((Instr.brc issue 4).wf = true) ∧ (s.calm = true) ∧ (s.solo issue (.brc 4) = true) ∧ (s.copyOf issue = k) ∧ (k.entry (k.top - 1) = (1024, false)) ∧ (1024 < 2 ^ 32) ∧ (false = false) ∧ ((k.cap 4).usable = true) ∧ (((k.cap 4).base + 1024) % 2 = 0) ∧ ((k.cap 4).base ≤ ((k.cap 4).base + 1024)) ∧ (((k.cap 4).base + 1024) < (k.cap 4).top) ∧ ((k.cap 4).perm 2 = true) ∧ (s.codeAt issue.tile ((k.cap 4).base + 1024) 2 = true))
    ∧ (∃ (s : State) (k : KCopy), ((Instr.brc issue 5).wf = true) ∧ (s.calm = true) ∧ (s.solo issue (.brc 5) = true) ∧ (s.copyOf issue = k) ∧ (k.entry (k.top - 1) = (1025, false)) ∧ (1025 < 2 ^ 32) ∧ ((s.kx issue.tile issue.copy).canEnter 6 (⟨ownBase + 0x2000 + 0x1000 * 2 ^ 40 + 0x1FF * 2 ^ 80, true⟩ : Cap) = true) ∧ (false = false) ∧ ((k.cap 5).usable = true) ∧ (((k.cap 5).base + 1025) % 2 = 1)) :=
    ⟨⟨(inTile { kcopy 2 [(0, 11, false), (1, 11, false)] with caps := setAt (setAt (setAt (List.replicate 16 {}) 0 ⟨ownBase + 0x10000 * 2 ^ 40 + 0x1FF * 2 ^ 80, true⟩) 1 Cap.all) 4 ⟨ownBase + 0x2000 + 0x1000 * 2 ^ 40 + 0x1FF * 2 ^ 80, true⟩ }), by decide +kernel⟩,
    ⟨(inTile { kcopy 3 [(0, 11, false), (1, 11, false), (2, 1024, false)] with caps := setAt (setAt (setAt (List.replicate 16 {}) 0 ⟨ownBase + 0x10000 * 2 ^ 40 + 0x1FF * 2 ^ 80, true⟩) 1 Cap.all) 4 ⟨ownBase + 0x2000 + 0x1000 * 2 ^ 40 + 0x1FF * 2 ^ 80, true⟩ }), ({ kcopy 3 [(0, 11, false), (1, 11, false), (2, 1024, false)] with caps := setAt (setAt (setAt (List.replicate 16 {}) 0 ⟨ownBase + 0x10000 * 2 ^ 40 + 0x1FF * 2 ^ 80, true⟩) 1 Cap.all) 4 ⟨ownBase + 0x2000 + 0x1000 * 2 ^ 40 + 0x1FF * 2 ^ 80, true⟩ } : KCopy), by decide +kernel⟩,
    ⟨(((((State.reset.wr (pgTile 5) 8 1).wrMem (physOf 5 (ownBase + 0x3FE00 + 16 * 6)) 16 (ownBase + 0x2000 + 0x1000 * 2 ^ 40 + 0x1FF * 2 ^ 80)).setTag (physOf 5 (ownBase + 0x3FE00 + 16 * 6)) 7).setBank (pgEccT 5) 0 { inited := true }).setTile 5 { mode := 3, work := true, copies := [{ run := true, pc := ownBase + 0x100, rsp := ownBase + 0x1FF80, depth := 3, file := [(0, 11, false), (1, 11, false), (2, 1025, false)], caps := setAt (setAt (setAt (List.replicate 16 {}) 0 ⟨ownBase + 0x10000 * 2 ^ 40 + 0x1FF * 2 ^ 80, true⟩) 1 ⟨ownBase + 0x10000 + 0x10000 * 2 ^ 40 + 0x1FF * 2 ^ 80, true⟩) 5 {} }, {}, {}] }), ({ run := true, pc := ownBase + 0x100, rsp := ownBase + 0x1FF80, depth := 3, file := [(0, 11, false), (1, 11, false), (2, 1025, false)], caps := setAt (setAt (setAt (List.replicate 16 {}) 0 ⟨ownBase + 0x10000 * 2 ^ 40 + 0x1FF * 2 ^ 80, true⟩) 1 ⟨ownBase + 0x10000 + 0x10000 * 2 ^ 40 + 0x1FF * 2 ^ 80, true⟩) 5 {} } : KCopy), by decide +kernel⟩,
    ⟨(((((State.reset.wr (pgTile 5) 8 1).wrMem (physOf 5 (ownBase + 0x3FE00 + 16 * 4)) 16 (ownBase + 0x2000 + 0x1000 * 2 ^ 40 + 0x1FF * 2 ^ 80)).setTag (physOf 5 (ownBase + 0x3FE00 + 16 * 4)) 7).setBank (pgEccT 5) 0 { inited := true }).setTile 5 { mode := 3, work := true, copies := [{ run := true, pc := ownBase + 0x100, rsp := ownBase + 0x1FF80, depth := 3, file := [(0, 11, false), (1, 11, false), (2, 65536, false)], caps := setAt (setAt (setAt (List.replicate 16 {}) 0 ⟨ownBase + 0x10000 * 2 ^ 40 + 0x1FF * 2 ^ 80, true⟩) 1 ⟨ownBase + 0x10000 + 0x10000 * 2 ^ 40 + 0x1FF * 2 ^ 80, true⟩) 5 {} }, {}, {}] }), ({ run := true, pc := ownBase + 0x100, rsp := ownBase + 0x1FF80, depth := 3, file := [(0, 11, false), (1, 11, false), (2, 65536, false)], caps := setAt (setAt (setAt (List.replicate 16 {}) 0 ⟨ownBase + 0x10000 * 2 ^ 40 + 0x1FF * 2 ^ 80, true⟩) 1 ⟨ownBase + 0x10000 + 0x10000 * 2 ^ 40 + 0x1FF * 2 ^ 80, true⟩) 5 {} } : KCopy), by decide +kernel⟩,
    ⟨(inTile { kcopy 3 [(0, 11, false), (1, 11, false), (2, 1024, false)] with caps := setAt (setAt (setAt (List.replicate 16 {}) 0 ⟨ownBase + 0x10000 * 2 ^ 40 + 0x1FF * 2 ^ 80, true⟩) 1 Cap.all) 4 ⟨ownBase + 0x2000 + 0x1000 * 2 ^ 40 + 0x1FF * 2 ^ 80, true⟩ }), ({ kcopy 3 [(0, 11, false), (1, 11, false), (2, 1024, false)] with caps := setAt (setAt (setAt (List.replicate 16 {}) 0 ⟨ownBase + 0x10000 * 2 ^ 40 + 0x1FF * 2 ^ 80, true⟩) 1 Cap.all) 4 ⟨ownBase + 0x2000 + 0x1000 * 2 ^ 40 + 0x1FF * 2 ^ 80, true⟩ } : KCopy), by decide +kernel⟩,
    ⟨(((((State.reset.wr (pgTile 5) 8 1).wrMem (physOf 5 (ownBase + 0x3FE00 + 16 * 6)) 16 (ownBase + 0x2000 + 0x1000 * 2 ^ 40 + 0x1FF * 2 ^ 80)).setTag (physOf 5 (ownBase + 0x3FE00 + 16 * 6)) 7).setBank (pgEccT 5) 0 { inited := true }).setTile 5 { mode := 3, work := true, copies := [{ run := true, pc := ownBase + 0x100, rsp := ownBase + 0x1FF80, depth := 3, file := [(0, 11, false), (1, 11, false), (2, 1025, false)], caps := setAt (setAt (setAt (List.replicate 16 {}) 0 Cap.all) 1 ⟨ownBase + 0x10000 + 0x10000 * 2 ^ 40 + 0x1FF * 2 ^ 80, true⟩) 5 ⟨ownBase + 0x1000 * 2 ^ 40 + 3 * 2 ^ 80, true⟩ }, {}, {}] }), ({ run := true, pc := ownBase + 0x100, rsp := ownBase + 0x1FF80, depth := 3, file := [(0, 11, false), (1, 11, false), (2, 1025, false)], caps := setAt (setAt (setAt (List.replicate 16 {}) 0 Cap.all) 1 ⟨ownBase + 0x10000 + 0x10000 * 2 ^ 40 + 0x1FF * 2 ^ 80, true⟩) 5 ⟨ownBase + 0x1000 * 2 ^ 40 + 3 * 2 ^ 80, true⟩ } : KCopy), by decide +kernel⟩⟩

theorem witness_KolotteFlow_2 :
    (∃ (s : State) (k : KCopy), ((Instr.brc issue 5).wf = true) ∧ (s.calm = true) ∧ (s.solo issue (.brc 5) = true) ∧ (s.copyOf issue = k) ∧ (k.entry (k.top - 1) = (8192, false)) ∧ (8192 < 2 ^ 32) ∧ ((s.kx issue.tile issue.copy).canEnter 4 (⟨ownBase + 0x2000 + 0x1000 * 2 ^ 40 + 0x1FF * 2 ^ 80, true⟩ : Cap) = true) ∧ (false = false) ∧ ((k.cap 5).usable = true) ∧ (((k.cap 5).base + 8192) % 2 = 0) ∧ ((((k.cap 5).base + 8192) < (k.cap 5).base ∨ (k.cap 5).top ≤ ((k.cap 5).base + 8192))))
    ∧ (∃ (s : State) (k : KCopy), ((Instr.brc issue 5).wf = true) ∧ (s.calm = true) ∧ (s.solo issue (.brc 5) = true) ∧ (s.copyOf issue = k) ∧ (k.entry (k.top - 1) = (1024, false)) ∧ (1024 < 2 ^ 32) ∧ ((s.kx issue.tile issue.copy).canEnter 5 (⟨ownBase + 0x2000 + 0x1000 * 2 ^ 40 + 0x1FF * 2 ^ 80, true⟩ : Cap) = true) ∧ (false = false) ∧ ((k.cap 5).usable = true) ∧ (((k.cap 5).base + 1024) % 2 = 0) ∧ ((k.cap 5).base ≤ ((k.cap 5).base + 1024)) ∧ (((k.cap 5).base + 1024) < (k.cap 5).top) ∧ (((k.cap 5).perm 2 = false ∨ (s.codeAt issue.tile ((k.cap 5).base + 1024) 2 = false ∧ k.held ((k.cap 5).base + 1024) 2 = none ∧ k.btb = []))))
    ∧ (∃ (s : State) (k : KCopy), ((Instr.brc issue 5).wf = true) ∧ (s.calm = true) ∧ (s.solo issue (.brc 5) = true) ∧ (s.copyOf issue = k) ∧ (k.entry (k.top - 1) = (1024, false)) ∧ (1024 < 2 ^ 32) ∧ ((s.kx issue.tile issue.copy).canEnter 3 (⟨ownBase + 0x2000 + 0x1000 * 2 ^ 40 + 0x1FF * 2 ^ 80, true⟩ : Cap) = true) ∧ (false = false) ∧ ((k.cap 5).usable = false))
    ∧ (∃ (s : State) (k : KCopy), ((Instr.loop issue 5 2).wf = true) ∧ (s.calm = true) ∧ (s.solo issue (.loop 5 2) = true) ∧ (s.copyOf issue = k) ∧ (k.entry (k.top - 1) = (9, false)) ∧ (9 < 2 ^ 32) ∧ (false = false) ∧ (9 ≠ 0) ∧ (issue.lits = []))
    ∧ (∃ s : State, ((Instr.loop ({ tile := 5, lits := [100] } : Issue) 0 2).wf = true) ∧ (s.calm = true) ∧ (s.solo ({ tile := 5, lits := [100] } : Issue) (.loop 0 2) = true) ∧ (s.copyOf ({ tile := 5, lits := [100] } : Issue) = (kcopy 3 [(0, 11, false), (1, 11, false), (2, 9, false)])) ∧ ((kcopy 3 [(0, 11, false), (1, 11, false), (2, 9, false)]).entry ((kcopy 3 [(0, 11, false), (1, 11, false), (2, 9, false)]).top - 1) = (9, false)) ∧ (9 < 2 ^ 32) ∧ (false = false) ∧ (9 ≠ 0) ∧ (({ tile := 5, lits := [100] } : Issue).lits = [100]) ∧ (100 < 2048))
    ∧ (∃ (s : State) (k : KCopy), ((Instr.loop issue 5 2).wf = true) ∧ (s.calm = true) ∧ (s.solo issue (.loop 5 2) = true) ∧ (s.copyOf issue = k) ∧ (k.entry (k.top - 1) = (0, false)) ∧ (0 < 2 ^ 32) ∧ (false = false) ∧ (0 = 0) ∧ (issue.lits = [])) :=
    ⟨⟨(((((State.reset.wr (pgTile 5) 8 1).wrMem (physOf 5 (ownBase + 0x3FE00 + 16 * 4)) 16 (ownBase + 0x2000 + 0x1000 * 2 ^ 40 + 0x1FF * 2 ^ 80)).setTag (physOf 5 (ownBase + 0x3FE00 + 16 * 4)) 7).setBank (pgEccT 5) 0 { inited := true }).setTile 5 { mode := 3, work := true, copies := [{ run := true, pc := ownBase + 0x100, rsp := ownBase + 0x1FF80, depth := 3, file := [(0, 11, false), (1, 11, false), (2, 8192, false)], caps := setAt (setAt (setAt (List.replicate 16 {}) 0 Cap.all) 1 ⟨ownBase + 0x10000 + 0x10000 * 2 ^ 40 + 0x1FF * 2 ^ 80, true⟩) 5 ⟨ownBase + 0x1000 * 2 ^ 40 + 3 * 2 ^ 80, true⟩ }, {}, {}] }), ({ run := true, pc := ownBase + 0x100, rsp := ownBase + 0x1FF80, depth := 3, file := [(0, 11, false), (1, 11, false), (2, 8192, false)], caps := setAt (setAt (setAt (List.replicate 16 {}) 0 Cap.all) 1 ⟨ownBase + 0x10000 + 0x10000 * 2 ^ 40 + 0x1FF * 2 ^ 80, true⟩) 5 ⟨ownBase + 0x1000 * 2 ^ 40 + 3 * 2 ^ 80, true⟩ } : KCopy), by decide +kernel⟩,
    ⟨(((((State.reset.wr (pgTile 5) 8 1).wrMem (physOf 5 (ownBase + 0x3FE00 + 16 * 5)) 16 (ownBase + 0x2000 + 0x1000 * 2 ^ 40 + 0x1FF * 2 ^ 80)).setTag (physOf 5 (ownBase + 0x3FE00 + 16 * 5)) 7).setBank (pgEccT 5) 0 { inited := true }).setTile 5 { mode := 3, work := true, copies := [{ run := true, pc := ownBase + 0x100, rsp := ownBase + 0x1FF80, depth := 3, file := [(0, 11, false), (1, 11, false), (2, 1024, false)], caps := setAt (setAt (setAt (List.replicate 16 {}) 0 Cap.all) 1 ⟨ownBase + 0x10000 + 0x10000 * 2 ^ 40 + 0x1FF * 2 ^ 80, true⟩) 5 ⟨ownBase + 0x1000 * 2 ^ 40 + 3 * 2 ^ 80, true⟩ }, {}, {}] }), ({ run := true, pc := ownBase + 0x100, rsp := ownBase + 0x1FF80, depth := 3, file := [(0, 11, false), (1, 11, false), (2, 1024, false)], caps := setAt (setAt (setAt (List.replicate 16 {}) 0 Cap.all) 1 ⟨ownBase + 0x10000 + 0x10000 * 2 ^ 40 + 0x1FF * 2 ^ 80, true⟩) 5 ⟨ownBase + 0x1000 * 2 ^ 40 + 3 * 2 ^ 80, true⟩ } : KCopy), by decide +kernel⟩,
    ⟨(((((State.reset.wr (pgTile 5) 8 1).wrMem (physOf 5 (ownBase + 0x3FE00 + 16 * 3)) 16 (ownBase + 0x2000 + 0x1000 * 2 ^ 40 + 0x1FF * 2 ^ 80)).setTag (physOf 5 (ownBase + 0x3FE00 + 16 * 3)) 7).setBank (pgEccT 5) 0 { inited := true }).setTile 5 { mode := 3, work := true, copies := [{ run := true, pc := ownBase + 0x100, rsp := ownBase + 0x1FF80, depth := 3, file := [(0, 11, false), (1, 11, false), (2, 1024, false)], caps := setAt (setAt (setAt (List.replicate 16 {}) 0 Cap.all) 1 ⟨ownBase + 0x10000 + 0x10000 * 2 ^ 40 + 0x1FF * 2 ^ 80, true⟩) 5 {} }, {}, {}] }), ({ run := true, pc := ownBase + 0x100, rsp := ownBase + 0x1FF80, depth := 3, file := [(0, 11, false), (1, 11, false), (2, 1024, false)], caps := setAt (setAt (setAt (List.replicate 16 {}) 0 Cap.all) 1 ⟨ownBase + 0x10000 + 0x10000 * 2 ^ 40 + 0x1FF * 2 ^ 80, true⟩) 5 {} } : KCopy), by decide +kernel⟩,
    ⟨(inTile (kcopy 3 [(0, 11, false), (1, 11, false), (2, 9, false)])), (kcopy 3 [(0, 11, false), (1, 11, false), (2, 9, false)]), by decide +kernel⟩,
    ⟨(inTile (kcopy 3 [(0, 11, false), (1, 11, false), (2, 9, false)])), by decide +kernel⟩,
    ⟨(inTile (kcopy 3 [(0, 11, false), (1, 11, false), (2, 0, false)])), (kcopy 3 [(0, 11, false), (1, 11, false), (2, 0, false)]), by decide +kernel⟩⟩

theorem witness_KolotteFlow_3 :
    (∃ s : State, ((Instr.call ({ tile := 5, lits := [0xFE8] } : Issue) 2 0).wf = true) ∧ (s.calm = true) ∧ (s.solo ({ tile := 5, lits := [0xFE8] } : Issue) (.call 2 0) = true) ∧ (s.copyOf ({ tile := 5, lits := [0xFE8] } : Issue) = ({ run := true, pc := ownBase + 0x100, rsp := ownBase + 0x1FF80, depth := 2, file := [(0, 11, false), (1, 11, false)], caps := setAt (setAt (setAt (List.replicate 16 {}) 0 Cap.all) 1 ⟨ownBase + 0x10000 + 0x10000 * 2 ^ 40 + 0x1FF * 2 ^ 80, true⟩) 4 Cap.all } : KCopy)) ∧ (({ tile := 5, lits := [0xFE8] } : Issue).lits = [0xFE8]) ∧ ((((({ run := true, pc := ownBase + 0x100, rsp := ownBase + 0x1FF80, depth := 2, file := [(0, 11, false), (1, 11, false)], caps := setAt (setAt (setAt (List.replicate 16 {}) 0 Cap.all) 1 ⟨ownBase + 0x10000 + 0x10000 * 2 ^ 40 + 0x1FF * 2 ^ 80, true⟩) 4 Cap.all } : KCopy).pc : Int) + (BitVec.ofNat 12 0xFE8).toInt) % 2 ^ 40).toNat % 2 = 0) ∧ ((({ run := true, pc := ownBase + 0x100, rsp := ownBase + 0x1FF80, depth := 2, file := [(0, 11, false), (1, 11, false)], caps := setAt (setAt (setAt (List.replicate 16 {}) 0 Cap.all) 1 ⟨ownBase + 0x10000 + 0x10000 * 2 ^ 40 + 0x1FF * 2 ^ 80, true⟩) 4 Cap.all } : KCopy).cap 0).base ≤ (((({ run := true, pc := ownBase + 0x100, rsp := ownBase + 0x1FF80, depth := 2, file := [(0, 11, false), (1, 11, false)], caps := setAt (setAt (setAt (List.replicate 16 {}) 0 Cap.all) 1 ⟨ownBase + 0x10000 + 0x10000 * 2 ^ 40 + 0x1FF * 2 ^ 80, true⟩) 4 Cap.all } : KCopy).pc : Int) + (BitVec.ofNat 12 0xFE8).toInt) % 2 ^ 40).toNat) ∧ ((((({ run := true, pc := ownBase + 0x100, rsp := ownBase + 0x1FF80, depth := 2, file := [(0, 11, false), (1, 11, false)], caps := setAt (setAt (setAt (List.replicate 16 {}) 0 Cap.all) 1 ⟨ownBase + 0x10000 + 0x10000 * 2 ^ 40 + 0x1FF * 2 ^ 80, true⟩) 4 Cap.all } : KCopy).pc : Int) + (BitVec.ofNat 12 0xFE8).toInt) % 2 ^ 40).toNat < (({ run := true, pc := ownBase + 0x100, rsp := ownBase + 0x1FF80, depth := 2, file := [(0, 11, false), (1, 11, false)], caps := setAt (setAt (setAt (List.replicate 16 {}) 0 Cap.all) 1 ⟨ownBase + 0x10000 + 0x10000 * 2 ^ 40 + 0x1FF * 2 ^ 80, true⟩) 4 Cap.all } : KCopy).cap 0).top) ∧ ((({ run := true, pc := ownBase + 0x100, rsp := ownBase + 0x1FF80, depth := 2, file := [(0, 11, false), (1, 11, false)], caps := setAt (setAt (setAt (List.replicate 16 {}) 0 Cap.all) 1 ⟨ownBase + 0x10000 + 0x10000 * 2 ^ 40 + 0x1FF * 2 ^ 80, true⟩) 4 Cap.all } : KCopy).cap 0).perm 2 = true) ∧ (s.codeAt ({ tile := 5, lits := [0xFE8] } : Issue).tile (((({ run := true, pc := ownBase + 0x100, rsp := ownBase + 0x1FF80, depth := 2, file := [(0, 11, false), (1, 11, false)], caps := setAt (setAt (setAt (List.replicate 16 {}) 0 Cap.all) 1 ⟨ownBase + 0x10000 + 0x10000 * 2 ^ 40 + 0x1FF * 2 ^ 80, true⟩) 4 Cap.all } : KCopy).pc : Int) + (BitVec.ofNat 12 0xFE8).toInt) % 2 ^ 40).toNat 2 = true))
    ∧ (∃ (s : State) (k : KCopy), ((Instr.calli issue 2).wf = true) ∧ (s.calm = true) ∧ (s.solo issue (.calli 2) = true) ∧ (s.copyOf issue = k) ∧ (k.entry (k.top - 1) = (1024, false)) ∧ (1024 < 2 ^ 32) ∧ (false = false) ∧ (((k.cap 0).base + 1024) % 2 = 0) ∧ ((k.cap 0).base ≤ ((k.cap 0).base + 1024)) ∧ (((k.cap 0).base + 1024) < (k.cap 0).top) ∧ ((k.cap 0).perm 2 = true) ∧ (s.codeAt issue.tile ((k.cap 0).base + 1024) 2 = true))
    ∧ (∃ (s : State) (k : KCopy), ((Instr.calli issue 2).wf = true) ∧ (s.calm = true) ∧ (s.solo issue (.calli 2) = true) ∧ (s.copyOf issue = k) ∧ (k.entry (k.top - 1) = (1025, false)) ∧ (1025 < 2 ^ 32) ∧ ((s.kx issue.tile issue.copy).canEnter 6 (⟨ownBase + 0x2000 + 0x1000 * 2 ^ 40 + 0x1FF * 2 ^ 80, true⟩ : Cap) = true) ∧ (false = false) ∧ (((k.cap 0).base + 1025) % 2 = 1))
    ∧ (∃ (s : State) (k : KCopy), ((Instr.calli issue 2).wf = true) ∧ (s.calm = true) ∧ (s.solo issue (.calli 2) = true) ∧ (s.copyOf issue = k) ∧ (k.entry (k.top - 1) = (65536, false)) ∧ (65536 < 2 ^ 32) ∧ ((s.kx issue.tile issue.copy).canEnter 4 (⟨ownBase + 0x2000 + 0x1000 * 2 ^ 40 + 0x1FF * 2 ^ 80, true⟩ : Cap) = true) ∧ (false = false) ∧ (((k.cap 0).base + 65536) % 2 = 0) ∧ ((((k.cap 0).base + 65536) < (k.cap 0).base ∨ (k.cap 0).top ≤ ((k.cap 0).base + 65536))))
    ∧ (∃ (s : State) (k : KCopy), ((Instr.ret issue 0).wf = true) ∧ (s.calm = true) ∧ (s.solo issue (.ret 0) = true) ∧ (s.copyOf issue = k) ∧ (k.rsCache.find? (fun q => q.addr == k.rsp) = some (⟨ownBase + 0x1FF80, 0x1200001000, 2 * 2 ^ 32 + 9, false, false⟩ : RsSlot)) ∧ ((⟨ownBase + 0x1FF80, 0x1200001000, 2 * 2 ^ 32 + 9, false, false⟩ : RsSlot).pois = false) ∧ (bit (⟨ownBase + 0x1FF80, 0x1200001000, 2 * 2 ^ 32 + 9, false, false⟩ : RsSlot).lo 58 = false) ∧ (bits (⟨ownBase + 0x1FF80, 0x1200001000, 2 * 2 ^ 32 + 9, false, false⟩ : RsSlot).hi 39 32 ≤ 224))
    ∧ (∃ (s : State) (k : KCopy), ((Instr.ret issue 1).wf = true) ∧ (s.calm = true) ∧ (s.solo issue (.ret 1) = true) ∧ (s.copyOf issue = k) ∧ (k.entry (k.top - 1) = (7, false)) ∧ (7 < 2 ^ 32) ∧ (k.rsCache.find? (fun q => q.addr == k.rsp) = some (⟨ownBase + 0x1FF80, 0x1200001000, 2 * 2 ^ 32 + 9, false, false⟩ : RsSlot)) ∧ ((⟨ownBase + 0x1FF80, 0x1200001000, 2 * 2 ^ 32 + 9, false, false⟩ : RsSlot).pois = false) ∧ (bit (⟨ownBase + 0x1FF80, 0x1200001000, 2 * 2 ^ 32 + 9, false, false⟩ : RsSlot).lo 58 = false) ∧ (bits (⟨ownBase + 0x1FF80, 0x1200001000, 2 * 2 ^ 32 + 9, false, false⟩ : RsSlot).hi 39 32 ≤ 223)) :=
    ⟨⟨(inTile { run := true, pc := ownBase + 0x100, rsp := ownBase + 0x1FF80, depth := 2, file := [(0, 11, false), (1, 11, false)], caps := setAt (setAt (setAt (List.replicate 16 {}) 0 Cap.all) 1 ⟨ownBase + 0x10000 + 0x10000 * 2 ^ 40 + 0x1FF * 2 ^ 80, true⟩) 4 Cap.all }), by decide +kernel⟩,
    ⟨(inTile { run := true, pc := ownBase + 0x100, rsp := ownBase + 0x1FF80, depth := 3, file := [(0, 11, false), (1, 11, false), (2, 1024, false)], caps := setAt (setAt (setAt (List.replicate 16 {}) 0 ⟨ownBase + 0x10000 * 2 ^ 40 + 0x1FF * 2 ^ 80, true⟩) 1 ⟨ownBase + 0x10000 + 0x10000 * 2 ^ 40 + 0x1FF * 2 ^ 80, true⟩) 4 Cap.all }), ({ run := true, pc := ownBase + 0x100, rsp := ownBase + 0x1FF80, depth := 3, file := [(0, 11, false), (1, 11, false), (2, 1024, false)], caps := setAt (setAt (setAt (List.replicate 16 {}) 0 ⟨ownBase + 0x10000 * 2 ^ 40 + 0x1FF * 2 ^ 80, true⟩) 1 ⟨ownBase + 0x10000 + 0x10000 * 2 ^ 40 + 0x1FF * 2 ^ 80, true⟩) 4 Cap.all } : KCopy), by decide +kernel⟩,
    ⟨(((((State.reset.wr (pgTile 5) 8 1).wrMem (physOf 5 (ownBase + 0x3FE00 + 16 * 6)) 16 (ownBase + 0x2000 + 0x1000 * 2 ^ 40 + 0x1FF * 2 ^ 80)).setTag (physOf 5 (ownBase + 0x3FE00 + 16 * 6)) 7).setBank (pgEccT 5) 0 { inited := true }).setTile 5 { mode := 3, work := true, copies := [{ run := true, pc := ownBase + 0x100, rsp := ownBase + 0x1FF80, depth := 3, file := [(0, 11, false), (1, 11, false), (2, 1025, false)], caps := setAt (setAt (setAt (List.replicate 16 {}) 0 ⟨ownBase + 0x10000 * 2 ^ 40 + 0x1FF * 2 ^ 80, true⟩) 1 ⟨ownBase + 0x10000 + 0x10000 * 2 ^ 40 + 0x1FF * 2 ^ 80, true⟩) 5 {} }, {}, {}] }), ({ run := true, pc := ownBase + 0x100, rsp := ownBase + 0x1FF80, depth := 3, file := [(0, 11, false), (1, 11, false), (2, 1025, false)], caps := setAt (setAt (setAt (List.replicate 16 {}) 0 ⟨ownBase + 0x10000 * 2 ^ 40 + 0x1FF * 2 ^ 80, true⟩) 1 ⟨ownBase + 0x10000 + 0x10000 * 2 ^ 40 + 0x1FF * 2 ^ 80, true⟩) 5 {} } : KCopy), by decide +kernel⟩,
    ⟨(((((State.reset.wr (pgTile 5) 8 1).wrMem (physOf 5 (ownBase + 0x3FE00 + 16 * 4)) 16 (ownBase + 0x2000 + 0x1000 * 2 ^ 40 + 0x1FF * 2 ^ 80)).setTag (physOf 5 (ownBase + 0x3FE00 + 16 * 4)) 7).setBank (pgEccT 5) 0 { inited := true }).setTile 5 { mode := 3, work := true, copies := [{ run := true, pc := ownBase + 0x100, rsp := ownBase + 0x1FF80, depth := 3, file := [(0, 11, false), (1, 11, false), (2, 65536, false)], caps := setAt (setAt (setAt (List.replicate 16 {}) 0 ⟨ownBase + 0x10000 * 2 ^ 40 + 0x1FF * 2 ^ 80, true⟩) 1 ⟨ownBase + 0x10000 + 0x10000 * 2 ^ 40 + 0x1FF * 2 ^ 80, true⟩) 5 {} }, {}, {}] }), ({ run := true, pc := ownBase + 0x100, rsp := ownBase + 0x1FF80, depth := 3, file := [(0, 11, false), (1, 11, false), (2, 65536, false)], caps := setAt (setAt (setAt (List.replicate 16 {}) 0 ⟨ownBase + 0x10000 * 2 ^ 40 + 0x1FF * 2 ^ 80, true⟩) 1 ⟨ownBase + 0x10000 + 0x10000 * 2 ^ 40 + 0x1FF * 2 ^ 80, true⟩) 5 {} } : KCopy), by decide +kernel⟩,
    ⟨(inTile { run := true, pc := ownBase + 0x100, rsp := ownBase + 0x1FF80, depth := 2, file := [(0, 11, false), (1, 11, false)], caps := setAt (setAt (setAt (List.replicate 16 {}) 0 Cap.all) 1 ⟨ownBase + 0x10000 + 0x10000 * 2 ^ 40 + 0x1FF * 2 ^ 80, true⟩) 4 Cap.all, base := 8, low := 0, rsCache := [⟨ownBase + 0x1FF80, 0x1200001000, 2 * 2 ^ 32 + 9, false, false⟩] }), ({ run := true, pc := ownBase + 0x100, rsp := ownBase + 0x1FF80, depth := 2, file := [(0, 11, false), (1, 11, false)], caps := setAt (setAt (setAt (List.replicate 16 {}) 0 Cap.all) 1 ⟨ownBase + 0x10000 + 0x10000 * 2 ^ 40 + 0x1FF * 2 ^ 80, true⟩) 4 Cap.all, base := 8, low := 0, rsCache := [⟨ownBase + 0x1FF80, 0x1200001000, 2 * 2 ^ 32 + 9, false, false⟩] } : KCopy), by decide +kernel⟩,
    ⟨(inTile { run := true, pc := ownBase + 0x100, rsp := ownBase + 0x1FF80, depth := 2, file := [(0, 1, false), (1, 7, false)], caps := setAt (setAt (setAt (List.replicate 16 {}) 0 Cap.all) 1 ⟨ownBase + 0x10000 + 0x10000 * 2 ^ 40 + 0x1FF * 2 ^ 80, true⟩) 4 Cap.all, base := 0, low := 0, rsCache := [⟨ownBase + 0x1FF80, 0x1200001000, 2 * 2 ^ 32 + 9, false, false⟩] }), ({ run := true, pc := ownBase + 0x100, rsp := ownBase + 0x1FF80, depth := 2, file := [(0, 1, false), (1, 7, false)], caps := setAt (setAt (setAt (List.replicate 16 {}) 0 Cap.all) 1 ⟨ownBase + 0x10000 + 0x10000 * 2 ^ 40 + 0x1FF * 2 ^ 80, true⟩) 4 Cap.all, base := 0, low := 0, rsCache := [⟨ownBase + 0x1FF80, 0x1200001000, 2 * 2 ^ 32 + 9, false, false⟩] } : KCopy), by decide +kernel⟩⟩

theorem witness_KolotteFlow_4 :
    (∃ (s : State) (k : KCopy), ((Instr.ret issue 2).wf = true) ∧ (s.calm = true) ∧ (s.solo issue (.ret 2) = true) ∧ (s.copyOf issue = k) ∧ (k.rsCache.find? (fun q => q.addr == k.rsp) = some (⟨ownBase + 0x1FF80, 0x1200001000, 2 * 2 ^ 32 + 9, false, false⟩ : RsSlot)) ∧ ((⟨ownBase + 0x1FF80, 0x1200001000, 2 * 2 ^ 32 + 9, false, false⟩ : RsSlot).pois = false) ∧ (bit (⟨ownBase + 0x1FF80, 0x1200001000, 2 * 2 ^ 32 + 9, false, false⟩ : RsSlot).lo 58 = false) ∧ (bits (⟨ownBase + 0x1FF80, 0x1200001000, 2 * 2 ^ 32 + 9, false, false⟩ : RsSlot).hi 39 32 + 2 ≤ 224) ∧ (2 ≤ k.depth))
    ∧ (∃ (s : State) (k : KCopy), ((Instr.ret issue 2).wf = true) ∧ (s.calm = true) ∧ (s.solo issue (.ret 2) = true) ∧ (s.copyOf issue = k) ∧ (k.rsCache.find? (fun q => q.addr == k.rsp) = some (⟨ownBase + 0x1FF80, 0x1200001000 + 3 * 2 ^ 40 + 5 * 2 ^ 49 + 2 ^ 58, 2 * 2 ^ 32 + 9, false, false⟩ : RsSlot)) ∧ ((⟨ownBase + 0x1FF80, 0x1200001000 + 3 * 2 ^ 40 + 5 * 2 ^ 49 + 2 ^ 58, 2 * 2 ^ 32 + 9, false, false⟩ : RsSlot).pois = false) ∧ (bit (⟨ownBase + 0x1FF80, 0x1200001000 + 3 * 2 ^ 40 + 5 * 2 ^ 49 + 2 ^ 58, 2 * 2 ^ 32 + 9, false, false⟩ : RsSlot).lo 58 = true) ∧ (2 * bits (⟨ownBase + 0x1FF80, 0x1200001000 + 3 * 2 ^ 40 + 5 * 2 ^ 49 + 2 ^ 58, 2 * 2 ^ 32 + 9, false, false⟩ : RsSlot).lo 48 40 ≤ bits (⟨ownBase + 0x1FF80, 0x1200001000 + 3 * 2 ^ 40 + 5 * 2 ^ 49 + 2 ^ 58, 2 * 2 ^ 32 + 9, false, false⟩ : RsSlot).lo 39 1 * 2) ∧ (bits (⟨ownBase + 0x1FF80, 0x1200001000 + 3 * 2 ^ 40 + 5 * 2 ^ 49 + 2 ^ 58, 2 * 2 ^ 32 + 9, false, false⟩ : RsSlot).hi 39 32 + 2 ≤ 224) ∧ (2 ≤ k.depth))
    ∧ (∃ (s : State) (k : KCopy), ((Instr.ret issue 2).wf = true) ∧ (s.calm = true) ∧ (s.solo issue (.ret 2) = true) ∧ (s.copyOf issue = k) ∧ (k.rsCache.find? (fun q => q.addr == k.rsp) = none) ∧ (k.sb = []) ∧ ((((s.tileH issue.tile).copies.zipIdx.all fun q => q.2 == issue.copy || q.1.sb.isEmpty) = true)) ∧ ((s.kx issue.tile issue.copy).readsFree k.rsp 16 = false) ∧ (s.rdMem (physOf issue.tile k.rsp) 16 = ((((0x1200001000 + (2 * 2 ^ 32 + 9) * 2 ^ 64) : Nat), false), s)) ∧ ((⟨ownBase + 0x1FF80, 0x1200001000, 2 * 2 ^ 32 + 9, false, false⟩ : RsSlot).lo = ((0x1200001000 + (2 * 2 ^ 32 + 9) * 2 ^ 64) : Nat) % 2 ^ 64) ∧ ((⟨ownBase + 0x1FF80, 0x1200001000, 2 * 2 ^ 32 + 9, false, false⟩ : RsSlot).hi = ((0x1200001000 + (2 * 2 ^ 32 + 9) * 2 ^ 64) : Nat) / 2 ^ 64) ∧ (bit (⟨ownBase + 0x1FF80, 0x1200001000, 2 * 2 ^ 32 + 9, false, false⟩ : RsSlot).lo 58 = false) ∧ (bits (⟨ownBase + 0x1FF80, 0x1200001000, 2 * 2 ^ 32 + 9, false, false⟩ : RsSlot).hi 39 32 + 2 ≤ 224) ∧ (2 ≤ k.depth))
    ∧ (∃ (s : State) (k : KCopy), ((Instr.ret issue 0).wf = true) ∧ (s.calm = true) ∧ (s.solo issue (.ret 0) = true) ∧ (s.copyOf issue = k) ∧ ((s.kx issue.tile issue.copy).canEnter 7 (⟨ownBase + 0x2000 + 0x1000 * 2 ^ 40 + 0x1FF * 2 ^ 80, true⟩ : Cap) = true) ∧ (k.rsCache.find? (fun q => q.addr == k.rsp) = some (⟨ownBase + 0x1FF80, 0x1200001000, 2 * 2 ^ 32 + 9, true, false⟩ : RsSlot)) ∧ ((⟨ownBase + 0x1FF80, 0x1200001000, 2 * 2 ^ 32 + 9, true, false⟩ : RsSlot).pois = true) ∧ (bits (⟨ownBase + 0x1FF80, 0x1200001000, 2 * 2 ^ 32 + 9, true, false⟩ : RsSlot).hi 39 32 ≤ 224)) :=
    ⟨⟨(inTile { run := true, pc := ownBase + 0x100, rsp := ownBase + 0x1FF80, depth := 3, file := [(0, 1, false), (1, 7, true), (2, 9, false)], caps := setAt (setAt (setAt (List.replicate 16 {}) 0 Cap.all) 1 ⟨ownBase + 0x10000 + 0x10000 * 2 ^ 40 + 0x1FF * 2 ^ 80, true⟩) 4 Cap.all, base := 0, low := 0, rsCache := [⟨ownBase + 0x1FF80, 0x1200001000, 2 * 2 ^ 32 + 9, false, false⟩] }), ({ run := true, pc := ownBase + 0x100, rsp := ownBase + 0x1FF80, depth := 3, file := [(0, 1, false), (1, 7, true), (2, 9, false)], caps := setAt (setAt (setAt (List.replicate 16 {}) 0 Cap.all) 1 ⟨ownBase + 0x10000 + 0x10000 * 2 ^ 40 + 0x1FF * 2 ^ 80, true⟩) 4 Cap.all, base := 0, low := 0, rsCache := [⟨ownBase + 0x1FF80, 0x1200001000, 2 * 2 ^ 32 + 9, false, false⟩] } : KCopy), by decide +kernel⟩,
    ⟨(inTile { run := true, pc := ownBase + 0x100, rsp := ownBase + 0x1FF80, depth := 3, file := [(0, 1, false), (1, 7, true), (2, 9, false)], caps := setAt (setAt (setAt (List.replicate 16 {}) 0 Cap.all) 1 ⟨ownBase + 0x10000 + 0x10000 * 2 ^ 40 + 0x1FF * 2 ^ 80, true⟩) 4 Cap.all, base := 0, low := 0, rsCache := [⟨ownBase + 0x1FF80, 0x1200001000 + 3 * 2 ^ 40 + 5 * 2 ^ 49 + 2 ^ 58, 2 * 2 ^ 32 + 9, false, false⟩] }), ({ run := true, pc := ownBase + 0x100, rsp := ownBase + 0x1FF80, depth := 3, file := [(0, 1, false), (1, 7, true), (2, 9, false)], caps := setAt (setAt (setAt (List.replicate 16 {}) 0 Cap.all) 1 ⟨ownBase + 0x10000 + 0x10000 * 2 ^ 40 + 0x1FF * 2 ^ 80, true⟩) 4 Cap.all, base := 0, low := 0, rsCache := [⟨ownBase + 0x1FF80, 0x1200001000 + 3 * 2 ^ 40 + 5 * 2 ^ 49 + 2 ^ 58, 2 * 2 ^ 32 + 9, false, false⟩] } : KCopy), by decide +kernel⟩,
    ⟨((((State.reset.wr (pgTile 5) 8 1).wrMem (physOf 5 (ownBase + 0x1FF80)) 16 (0x1200001000 + (2 * 2 ^ 32 + 9) * 2 ^ 64)).setBank (pgEccT 5) 0 { inited := true }).setTile 5 { mode := 3, work := true, copies := [{ run := true, pc := ownBase + 0x100, rsp := ownBase + 0x1FF80, depth := 3, file := [(0, 1, false), (1, 7, true), (2, 9, false)], caps := setAt (setAt (setAt (List.replicate 16 {}) 0 Cap.all) 1 ⟨ownBase + 0x10000 + 0x10000 * 2 ^ 40 + 0x1FF * 2 ^ 80, true⟩) 4 Cap.all }, {}, {}] }), ({ run := true, pc := ownBase + 0x100, rsp := ownBase + 0x1FF80, depth := 3, file := [(0, 1, false), (1, 7, true), (2, 9, false)], caps := setAt (setAt (setAt (List.replicate 16 {}) 0 Cap.all) 1 ⟨ownBase + 0x10000 + 0x10000 * 2 ^ 40 + 0x1FF * 2 ^ 80, true⟩) 4 Cap.all } : KCopy), by decide +kernel⟩,
    ⟨(((((State.reset.wr (pgTile 5) 8 1).wrMem (physOf 5 (ownBase + 0x3FE00 + 16 * 7)) 16 (ownBase + 0x2000 + 0x1000 * 2 ^ 40 + 0x1FF * 2 ^ 80)).setTag (physOf 5 (ownBase + 0x3FE00 + 16 * 7)) 7).setBank (pgEccT 5) 0 { inited := true }).setTile 5 { mode := 3, work := true, copies := [{ run := true, pc := ownBase + 0x100, rsp := ownBase + 0x1FF80, rsCache := [⟨ownBase + 0x1FF80, 0x1200001000, 2 * 2 ^ 32 + 9, true, false⟩], depth := 2, file := [(0, 11, false), (1, 11, false)], caps := setAt (setAt (setAt (List.replicate 16 {}) 0 Cap.all) 1 ⟨ownBase + 0x10000 + 0x10000 * 2 ^ 40 + 0x1FF * 2 ^ 80, true⟩) 5 {} }, {}, {}] }), ({ run := true, pc := ownBase + 0x100, rsp := ownBase + 0x1FF80, rsCache := [⟨ownBase + 0x1FF80, 0x1200001000, 2 * 2 ^ 32 + 9, true, false⟩], depth := 2, file := [(0, 11, false), (1, 11, false)], caps := setAt (setAt (setAt (List.replicate 16 {}) 0 Cap.all) 1 ⟨ownBase + 0x10000 + 0x10000 * 2 ^ 40 + 0x1FF * 2 ^ 80, true⟩) 5 {} } : KCopy), by decide +kernel⟩⟩

theorem witness_KolotteExceptions_1 :
    (∃ (s : State) (k : KCopy), ((Instr.trap issue 7).wf = true) ∧ (s.calm = true) ∧ (s.solo issue (.trap 7) = true) ∧ (s.copyOf issue = k) ∧ ((s.kx issue.tile issue.copy).canEnter 0x0B (⟨ownBase + 0x2000 + 0x1000 * 2 ^ 40 + 0x1FF * 2 ^ 80, true⟩ : Cap) = true))
    ∧ (∃ s : State, ((Instr.exceptionEntry 5 0).wf = true) ∧ (s.calm = true) ∧ (s.kCan 5 0 = true) ∧ ((s.tileH 5).copies.getD 0 {} = ({ run := true, pc := ownBase + 0x100, rsp := ownBase + 0x1FF80, depth := 2, file := [(0, 11, false), (1, 11, false)], caps := setAt (setAt (setAt (List.replicate 16 {}) 0 Cap.all) 1 ⟨ownBase + 0x10000 + 0x10000 * 2 ^ 40 + 0x1FF * 2 ^ 80, true⟩) 4 Cap.all, arith := some ⟨9, 0x1200000800, false, 0⟩ } : KCopy)) ∧ (({ run := true, pc := ownBase + 0x100, rsp := ownBase + 0x1FF80, depth := 2, file := [(0, 11, false), (1, 11, false)], caps := setAt (setAt (setAt (List.replicate 16 {}) 0 Cap.all) 1 ⟨ownBase + 0x10000 + 0x10000 * 2 ^ 40 + 0x1FF * 2 ^ 80, true⟩) 4 Cap.all, arith := some ⟨9, 0x1200000800, false, 0⟩ } : KCopy).shadow = []) ∧ (({ run := true, pc := ownBase + 0x100, rsp := ownBase + 0x1FF80, depth := 2, file := [(0, 11, false), (1, 11, false)], caps := setAt (setAt (setAt (List.replicate 16 {}) 0 Cap.all) 1 ⟨ownBase + 0x10000 + 0x10000 * 2 ^ 40 + 0x1FF * 2 ^ 80, true⟩) 4 Cap.all, arith := some ⟨9, 0x1200000800, false, 0⟩ } : KCopy).la = false) ∧ (({ run := true, pc := ownBase + 0x100, rsp := ownBase + 0x1FF80, depth := 2, file := [(0, 11, false), (1, 11, false)], caps := setAt (setAt (setAt (List.replicate 16 {}) 0 Cap.all) 1 ⟨ownBase + 0x10000 + 0x10000 * 2 ^ 40 + 0x1FF * 2 ^ 80, true⟩) 4 Cap.all, arith := some ⟨9, 0x1200000800, false, 0⟩ } : KCopy).remain = none) ∧ (({ run := true, pc := ownBase + 0x100, rsp := ownBase + 0x1FF80, depth := 2, file := [(0, 11, false), (1, 11, false)], caps := setAt (setAt (setAt (List.replicate 16 {}) 0 Cap.all) 1 ⟨ownBase + 0x10000 + 0x10000 * 2 ^ 40 + 0x1FF * 2 ^ 80, true⟩) 4 Cap.all, arith := some ⟨9, 0x1200000800, false, 0⟩ } : KCopy).arith = some (⟨9, 0x1200000800, false, 0⟩ : ArithE)) ∧ (8 ≤ (⟨9, 0x1200000800, false, 0⟩ : ArithE).cause) ∧ ((⟨9, 0x1200000800, false, 0⟩ : ArithE).cause ≤ 10) ∧ ((⟨9, 0x1200000800, false, 0⟩ : ArithE).due ≤ max ({ run := true, pc := ownBase + 0x100, rsp := ownBase + 0x1FF80, depth := 2, file := [(0, 11, false), (1, 11, false)], caps := setAt (setAt (setAt (List.replicate 16 {}) 0 Cap.all) 1 ⟨ownBase + 0x10000 + 0x10000 * 2 ^ 40 + 0x1FF * 2 ^ 80, true⟩) 4 Cap.all, arith := some ⟨9, 0x1200000800, false, 0⟩ } : KCopy).clk s.now) ∧ ((⟨9, 0x1200000800, false, 0⟩ : ArithE).more = false) ∧ ((⟨9, 0x1200000800, false, 0⟩ : ArithE).faddr < 2 ^ 40) ∧ (({ run := true, pc := ownBase + 0x100, rsp := ownBase + 0x1FF80, depth := 2, file := [(0, 11, false), (1, 11, false)], caps := setAt (setAt (setAt (List.replicate 16 {}) 0 Cap.all) 1 ⟨ownBase + 0x10000 + 0x10000 * 2 ^ 40 + 0x1FF * 2 ^ 80, true⟩) 4 Cap.all, arith := some ⟨9, 0x1200000800, false, 0⟩ } : KCopy).divI = none) ∧ (({ run := true, pc := ownBase + 0x100, rsp := ownBase + 0x1FF80, depth := 2, file := [(0, 11, false), (1, 11, false)], caps := setAt (setAt (setAt (List.replicate 16 {}) 0 Cap.all) 1 ⟨ownBase + 0x10000 + 0x10000 * 2 ^ 40 + 0x1FF * 2 ^ 80, true⟩) 4 Cap.all, arith := some ⟨9, 0x1200000800, false, 0⟩ } : KCopy).divF = none) ∧ ((s.kx 5 0).canEnter (⟨9, 0x1200000800, false, 0⟩ : ArithE).cause (⟨ownBase + 0x2000 + 0x1000 * 2 ^ 40 + 0x1FF * 2 ^ 80, true⟩ : Cap) = true))
    ∧ (∃ s : State, ((Instr.exceptionEntry 5 0).wf = true) ∧ (s.calm = true) ∧ (s.kCan 5 0 = true) ∧ ((s.tileH 5).copies.getD 0 {} = ({ run := true, pc := ownBase + 0x100, rsp := ownBase + 0x1FF80, depth := 2, file := [(0, 11, false), (1, 11, false)], caps := setAt (setAt (setAt (List.replicate 16 {}) 0 Cap.all) 1 ⟨ownBase + 0x10000 + 0x10000 * 2 ^ 40 + 0x1FF * 2 ^ 80, true⟩) 4 Cap.all } : KCopy)) ∧ (({ run := true, pc := ownBase + 0x100, rsp := ownBase + 0x1FF80, depth := 2, file := [(0, 11, false), (1, 11, false)], caps := setAt (setAt (setAt (List.replicate 16 {}) 0 Cap.all) 1 ⟨ownBase + 0x10000 + 0x10000 * 2 ^ 40 + 0x1FF * 2 ^ 80, true⟩) 4 Cap.all } : KCopy).shadow = []) ∧ (({ run := true, pc := ownBase + 0x100, rsp := ownBase + 0x1FF80, depth := 2, file := [(0, 11, false), (1, 11, false)], caps := setAt (setAt (setAt (List.replicate 16 {}) 0 Cap.all) 1 ⟨ownBase + 0x10000 + 0x10000 * 2 ^ 40 + 0x1FF * 2 ^ 80, true⟩) 4 Cap.all } : KCopy).la = false) ∧ (({ run := true, pc := ownBase + 0x100, rsp := ownBase + 0x1FF80, depth := 2, file := [(0, 11, false), (1, 11, false)], caps := setAt (setAt (setAt (List.replicate 16 {}) 0 Cap.all) 1 ⟨ownBase + 0x10000 + 0x10000 * 2 ^ 40 + 0x1FF * 2 ^ 80, true⟩) 4 Cap.all } : KCopy).remain = none) ∧ ((s.kx 5 0).owner = true) ∧ (bit ({ run := true, pc := ownBase + 0x100, rsp := ownBase + 0x1FF80, depth := 2, file := [(0, 11, false), (1, 11, false)], caps := setAt (setAt (setAt (List.replicate 16 {}) 0 Cap.all) 1 ⟨ownBase + 0x10000 + 0x10000 * 2 ^ 40 + 0x1FF * 2 ^ 80, true⟩) 4 Cap.all } : KCopy).status 0 = false) ∧ ((({ run := true, pc := ownBase + 0x100, rsp := ownBase + 0x1FF80, depth := 2, file := [(0, 11, false), (1, 11, false)], caps := setAt (setAt (setAt (List.replicate 16 {}) 0 Cap.all) 1 ⟨ownBase + 0x10000 + 0x10000 * 2 ^ 40 + 0x1FF * 2 ^ 80, true⟩) 4 Cap.all } : KCopy).arith.all fun z => decide (max ({ run := true, pc := ownBase + 0x100, rsp := ownBase + 0x1FF80, depth := 2, file := [(0, 11, false), (1, 11, false)], caps := setAt (setAt (setAt (List.replicate 16 {}) 0 Cap.all) 1 ⟨ownBase + 0x10000 + 0x10000 * 2 ^ 40 + 0x1FF * 2 ^ 80, true⟩) 4 Cap.all } : KCopy).clk s.now < z.due)) = true) ∧ (({ run := true, pc := ownBase + 0x100, rsp := ownBase + 0x1FF80, depth := 2, file := [(0, 11, false), (1, 11, false)], caps := setAt (setAt (setAt (List.replicate 16 {}) 0 Cap.all) 1 ⟨ownBase + 0x10000 + 0x10000 * 2 ^ 40 + 0x1FF * 2 ^ 80, true⟩) 4 Cap.all } : KCopy).divI = none) ∧ (({ run := true, pc := ownBase + 0x100, rsp := ownBase + 0x1FF80, depth := 2, file := [(0, 11, false), (1, 11, false)], caps := setAt (setAt (setAt (List.replicate 16 {}) 0 Cap.all) 1 ⟨ownBase + 0x10000 + 0x10000 * 2 ^ 40 + 0x1FF * 2 ^ 80, true⟩) 4 Cap.all } : KCopy).divF = none) ∧ (((s.kx 5 0).chk = false ∨ (s.tileH 5).replay = [])) ∧ ((s.tileH 5).wdgx = 0x0170123000 :: ([7] : List Nat)) ∧ (0x0170123000 < 2 ^ 40) ∧ ((s.kx 5 0).canEnter 0x0E (⟨ownBase + 0x2000 + 0x1000 * 2 ^ 40 + 0x1FF * 2 ^ 80, true⟩ : Cap) = true))
    ∧ (∃ s : State, ((Instr.exceptionEntry 5 0).wf = true) ∧ (s.calm = true) ∧ (s.kCan 5 0 = true) ∧ ((s.tileH 5).copies.getD 0 {} = ({ run := true, pc := ownBase + 0x100, rsp := ownBase + 0x1FF80, depth := 2, file := [(0, 11, false), (1, 11, false)], caps := setAt (setAt (setAt (List.replicate 16 {}) 0 Cap.all) 1 ⟨ownBase + 0x10000 + 0x10000 * 2 ^ 40 + 0x1FF * 2 ^ 80, true⟩) 4 Cap.all } : KCopy)) ∧ (({ run := true, pc := ownBase + 0x100, rsp := ownBase + 0x1FF80, depth := 2, file := [(0, 11, false), (1, 11, false)], caps := setAt (setAt (setAt (List.replicate 16 {}) 0 Cap.all) 1 ⟨ownBase + 0x10000 + 0x10000 * 2 ^ 40 + 0x1FF * 2 ^ 80, true⟩) 4 Cap.all } : KCopy).shadow = []) ∧ (({ run := true, pc := ownBase + 0x100, rsp := ownBase + 0x1FF80, depth := 2, file := [(0, 11, false), (1, 11, false)], caps := setAt (setAt (setAt (List.replicate 16 {}) 0 Cap.all) 1 ⟨ownBase + 0x10000 + 0x10000 * 2 ^ 40 + 0x1FF * 2 ^ 80, true⟩) 4 Cap.all } : KCopy).la = false) ∧ (({ run := true, pc := ownBase + 0x100, rsp := ownBase + 0x1FF80, depth := 2, file := [(0, 11, false), (1, 11, false)], caps := setAt (setAt (setAt (List.replicate 16 {}) 0 Cap.all) 1 ⟨ownBase + 0x10000 + 0x10000 * 2 ^ 40 + 0x1FF * 2 ^ 80, true⟩) 4 Cap.all } : KCopy).remain = none) ∧ ((s.kx 5 0).owner = true) ∧ (bit ({ run := true, pc := ownBase + 0x100, rsp := ownBase + 0x1FF80, depth := 2, file := [(0, 11, false), (1, 11, false)], caps := setAt (setAt (setAt (List.replicate 16 {}) 0 Cap.all) 1 ⟨ownBase + 0x10000 + 0x10000 * 2 ^ 40 + 0x1FF * 2 ^ 80, true⟩) 4 Cap.all } : KCopy).status 0 = false) ∧ ((({ run := true, pc := ownBase + 0x100, rsp := ownBase + 0x1FF80, depth := 2, file := [(0, 11, false), (1, 11, false)], caps := setAt (setAt (setAt (List.replicate 16 {}) 0 Cap.all) 1 ⟨ownBase + 0x10000 + 0x10000 * 2 ^ 40 + 0x1FF * 2 ^ 80, true⟩) 4 Cap.all } : KCopy).arith.all fun z => decide (max ({ run := true, pc := ownBase + 0x100, rsp := ownBase + 0x1FF80, depth := 2, file := [(0, 11, false), (1, 11, false)], caps := setAt (setAt (setAt (List.replicate 16 {}) 0 Cap.all) 1 ⟨ownBase + 0x10000 + 0x10000 * 2 ^ 40 + 0x1FF * 2 ^ 80, true⟩) 4 Cap.all } : KCopy).clk s.now < z.due)) = true) ∧ (({ run := true, pc := ownBase + 0x100, rsp := ownBase + 0x1FF80, depth := 2, file := [(0, 11, false), (1, 11, false)], caps := setAt (setAt (setAt (List.replicate 16 {}) 0 Cap.all) 1 ⟨ownBase + 0x10000 + 0x10000 * 2 ^ 40 + 0x1FF * 2 ^ 80, true⟩) 4 Cap.all } : KCopy).divI = none) ∧ (({ run := true, pc := ownBase + 0x100, rsp := ownBase + 0x1FF80, depth := 2, file := [(0, 11, false), (1, 11, false)], caps := setAt (setAt (setAt (List.replicate 16 {}) 0 Cap.all) 1 ⟨ownBase + 0x10000 + 0x10000 * 2 ^ 40 + 0x1FF * 2 ^ 80, true⟩) 4 Cap.all } : KCopy).divF = none) ∧ (((s.kx 5 0).chk = false ∨ (s.tileH 5).replay = [])) ∧ ((s.tileH 5).wdgx = []) ∧ ((s.tileH 5).relIrq = true) ∧ ((s.kx 5 0).canEnter 0x0C (⟨ownBase + 0x2000 + 0x1000 * 2 ^ 40 + 0x1FF * 2 ^ 80, true⟩ : Cap) = true))
    ∧ (∃ s : State, ((Instr.exceptionEntry 5 0).wf = true) ∧ (s.calm = true) ∧ (s.kCan 5 0 = true) ∧ ((s.tileH 5).copies.getD 0 {} = ({ run := true, pc := ownBase + 0x100, rsp := ownBase + 0x1FF80, depth := 2, file := [(0, 11, false), (1, 11, false)], caps := setAt (setAt (setAt (List.replicate 16 {}) 0 Cap.all) 1 ⟨ownBase + 0x10000 + 0x10000 * 2 ^ 40 + 0x1FF * 2 ^ 80, true⟩) 4 Cap.all } : KCopy)) ∧ (({ run := true, pc := ownBase + 0x100, rsp := ownBase + 0x1FF80, depth := 2, file := [(0, 11, false), (1, 11, false)], caps := setAt (setAt (setAt (List.replicate 16 {}) 0 Cap.all) 1 ⟨ownBase + 0x10000 + 0x10000 * 2 ^ 40 + 0x1FF * 2 ^ 80, true⟩) 4 Cap.all } : KCopy).shadow = []) ∧ (({ run := true, pc := ownBase + 0x100, rsp := ownBase + 0x1FF80, depth := 2, file := [(0, 11, false), (1, 11, false)], caps := setAt (setAt (setAt (List.replicate 16 {}) 0 Cap.all) 1 ⟨ownBase + 0x10000 + 0x10000 * 2 ^ 40 + 0x1FF * 2 ^ 80, true⟩) 4 Cap.all } : KCopy).la = false) ∧ (({ run := true, pc := ownBase + 0x100, rsp := ownBase + 0x1FF80, depth := 2, file := [(0, 11, false), (1, 11, false)], caps := setAt (setAt (setAt (List.replicate 16 {}) 0 Cap.all) 1 ⟨ownBase + 0x10000 + 0x10000 * 2 ^ 40 + 0x1FF * 2 ^ 80, true⟩) 4 Cap.all } : KCopy).remain = none) ∧ ((s.kx 5 0).owner = true) ∧ (bit ({ run := true, pc := ownBase + 0x100, rsp := ownBase + 0x1FF80, depth := 2, file := [(0, 11, false), (1, 11, false)], caps := setAt (setAt (setAt (List.replicate 16 {}) 0 Cap.all) 1 ⟨ownBase + 0x10000 + 0x10000 * 2 ^ 40 + 0x1FF * 2 ^ 80, true⟩) 4 Cap.all } : KCopy).status 0 = false) ∧ ((({ run := true, pc := ownBase + 0x100, rsp := ownBase + 0x1FF80, depth := 2, file := [(0, 11, false), (1, 11, false)], caps := setAt (setAt (setAt (List.replicate 16 {}) 0 Cap.all) 1 ⟨ownBase + 0x10000 + 0x10000 * 2 ^ 40 + 0x1FF * 2 ^ 80, true⟩) 4 Cap.all } : KCopy).arith.all fun z => decide (max ({ run := true, pc := ownBase + 0x100, rsp := ownBase + 0x1FF80, depth := 2, file := [(0, 11, false), (1, 11, false)], caps := setAt (setAt (setAt (List.replicate 16 {}) 0 Cap.all) 1 ⟨ownBase + 0x10000 + 0x10000 * 2 ^ 40 + 0x1FF * 2 ^ 80, true⟩) 4 Cap.all } : KCopy).clk s.now < z.due)) = true) ∧ (({ run := true, pc := ownBase + 0x100, rsp := ownBase + 0x1FF80, depth := 2, file := [(0, 11, false), (1, 11, false)], caps := setAt (setAt (setAt (List.replicate 16 {}) 0 Cap.all) 1 ⟨ownBase + 0x10000 + 0x10000 * 2 ^ 40 + 0x1FF * 2 ^ 80, true⟩) 4 Cap.all } : KCopy).divI = none) ∧ (({ run := true, pc := ownBase + 0x100, rsp := ownBase + 0x1FF80, depth := 2, file := [(0, 11, false), (1, 11, false)], caps := setAt (setAt (setAt (List.replicate 16 {}) 0 Cap.all) 1 ⟨ownBase + 0x10000 + 0x10000 * 2 ^ 40 + 0x1FF * 2 ^ 80, true⟩) 4 Cap.all } : KCopy).divF = none) ∧ (((s.kx 5 0).chk = false ∨ (s.tileH 5).replay = [])) ∧ ((s.tileH 5).wdgx = []) ∧ ((s.tileH 5).relIrq = false) ∧ (s.pageIrqOf 5 = some (pgTfe 0 : Nat)) ∧ ((pgTfe 0 : Nat) < 0x10000) ∧ ((s.kx 5 0).canEnter 0x0D (⟨ownBase + 0x2000 + 0x1000 * 2 ^ 40 + 0x1FF * 2 ^ 80, true⟩ : Cap) = true))
    ∧ (∃ s : State, ((Instr.exceptionEntry 5 0).wf = true) ∧ (s.calm = true) ∧ (s.kCan 5 0 = true) ∧ ((s.tileH 5).copies.getD 0 {} = ({ run := true, pc := ownBase + 0x100, rsp := ownBase + 0x1FF80, depth := 2, file := [(0, 11, false), (1, 11, false)], caps := setAt (setAt (setAt (List.replicate 16 {}) 0 Cap.all) 1 ⟨ownBase + 0x10000 + 0x10000 * 2 ^ 40 + 0x1FF * 2 ^ 80, true⟩) 4 Cap.all, divI := some ⟨.bin .div, 7, 3, false, 5, 2, 20000⟩ } : KCopy)) ∧ (({ run := true, pc := ownBase + 0x100, rsp := ownBase + 0x1FF80, depth := 2, file := [(0, 11, false), (1, 11, false)], caps := setAt (setAt (setAt (List.replicate 16 {}) 0 Cap.all) 1 ⟨ownBase + 0x10000 + 0x10000 * 2 ^ 40 + 0x1FF * 2 ^ 80, true⟩) 4 Cap.all, divI := some ⟨.bin .div, 7, 3, false, 5, 2, 20000⟩ } : KCopy).shadow = []) ∧ (({ run := true, pc := ownBase + 0x100, rsp := ownBase + 0x1FF80, depth := 2, file := [(0, 11, false), (1, 11, false)], caps := setAt (setAt (setAt (List.replicate 16 {}) 0 Cap.all) 1 ⟨ownBase + 0x10000 + 0x10000 * 2 ^ 40 + 0x1FF * 2 ^ 80, true⟩) 4 Cap.all, divI := some ⟨.bin .div, 7, 3, false, 5, 2, 20000⟩ } : KCopy).la = false) ∧ (({ run := true, pc := ownBase + 0x100, rsp := ownBase + 0x1FF80, depth := 2, file := [(0, 11, false), (1, 11, false)], caps := setAt (setAt (setAt (List.replicate 16 {}) 0 Cap.all) 1 ⟨ownBase + 0x10000 + 0x10000 * 2 ^ 40 + 0x1FF * 2 ^ 80, true⟩) 4 Cap.all, divI := some ⟨.bin .div, 7, 3, false, 5, 2, 20000⟩ } : KCopy).remain = none) ∧ ((s.kx 5 0).owner = true) ∧ (bit ({ run := true, pc := ownBase + 0x100, rsp := ownBase + 0x1FF80, depth := 2, file := [(0, 11, false), (1, 11, false)], caps := setAt (setAt (setAt (List.replicate 16 {}) 0 Cap.all) 1 ⟨ownBase + 0x10000 + 0x10000 * 2 ^ 40 + 0x1FF * 2 ^ 80, true⟩) 4 Cap.all, divI := some ⟨.bin .div, 7, 3, false, 5, 2, 20000⟩ } : KCopy).status 0 = false) ∧ ((({ run := true, pc := ownBase + 0x100, rsp := ownBase + 0x1FF80, depth := 2, file := [(0, 11, false), (1, 11, false)], caps := setAt (setAt (setAt (List.replicate 16 {}) 0 Cap.all) 1 ⟨ownBase + 0x10000 + 0x10000 * 2 ^ 40 + 0x1FF * 2 ^ 80, true⟩) 4 Cap.all, divI := some ⟨.bin .div, 7, 3, false, 5, 2, 20000⟩ } : KCopy).arith.all fun z => decide (max ({ run := true, pc := ownBase + 0x100, rsp := ownBase + 0x1FF80, depth := 2, file := [(0, 11, false), (1, 11, false)], caps := setAt (setAt (setAt (List.replicate 16 {}) 0 Cap.all) 1 ⟨ownBase + 0x10000 + 0x10000 * 2 ^ 40 + 0x1FF * 2 ^ 80, true⟩) 4 Cap.all, divI := some ⟨.bin .div, 7, 3, false, 5, 2, 20000⟩ } : KCopy).clk s.now < z.due)) = true) ∧ (((s.kx 5 0).chk = false ∨ (s.tileH 5).replay = [])) ∧ (({ run := true, pc := ownBase + 0x100, rsp := ownBase + 0x1FF80, depth := 2, file := [(0, 11, false), (1, 11, false)], caps := setAt (setAt (setAt (List.replicate 16 {}) 0 Cap.all) 1 ⟨ownBase + 0x10000 + 0x10000 * 2 ^ 40 + 0x1FF * 2 ^ 80, true⟩) 4 Cap.all, divI := some ⟨.bin .div, 7, 3, false, 5, 2, 20000⟩ } : KCopy).divI = some (⟨.bin .div, 7, 3, false, 5, 2, 20000⟩ : DivE)) ∧ (max ({ run := true, pc := ownBase + 0x100, rsp := ownBase + 0x1FF80, depth := 2, file := [(0, 11, false), (1, 11, false)], caps := setAt (setAt (setAt (List.replicate 16 {}) 0 Cap.all) 1 ⟨ownBase + 0x10000 + 0x10000 * 2 ^ 40 + 0x1FF * 2 ^ 80, true⟩) 4 Cap.all, divI := some ⟨.bin .div, 7, 3, false, 5, 2, 20000⟩ } : KCopy).clk s.now < (⟨.bin .div, 7, 3, false, 5, 2, 20000⟩ : DivE).ready) ∧ (({ run := true, pc := ownBase + 0x100, rsp := ownBase + 0x1FF80, depth := 2, file := [(0, 11, false), (1, 11, false)], caps := setAt (setAt (setAt (List.replicate 16 {}) 0 Cap.all) 1 ⟨ownBase + 0x10000 + 0x10000 * 2 ^ 40 + 0x1FF * 2 ^ 80, true⟩) 4 Cap.all, divI := some ⟨.bin .div, 7, 3, false, 5, 2, 20000⟩ } : KCopy).latI = none) ∧ (({ run := true, pc := ownBase + 0x100, rsp := ownBase + 0x1FF80, depth := 2, file := [(0, 11, false), (1, 11, false)], caps := setAt (setAt (setAt (List.replicate 16 {}) 0 Cap.all) 1 ⟨ownBase + 0x10000 + 0x10000 * 2 ^ 40 + 0x1FF * 2 ^ 80, true⟩) 4 Cap.all, divI := some ⟨.bin .div, 7, 3, false, 5, 2, 20000⟩ } : KCopy).divF = none) ∧ ((s.tileH 5).wdgx = [0x0170123000]) ∧ (0x0170123000 < 2 ^ 40) ∧ ((s.kx 5 0).canEnter 0x0E (⟨ownBase + 0x2000 + 0x1000 * 2 ^ 40 + 0x1FF * 2 ^ 80, true⟩ : Cap) = true)) :=
    ⟨⟨(((((State.reset.wr (pgTile 5) 8 1).wrMem (physOf 5 (ownBase + 0x3FE00 + 16 * 11)) 16 (ownBase + 0x2000 + 0x1000 * 2 ^ 40 + 0x1FF * 2 ^ 80)).setTag (physOf 5 (ownBase + 0x3FE00 + 16 * 11)) 7).setBank (pgEccT 5) 0 { inited := true }).setTile 5 { mode := 3, work := true, copies := [{ run := true, pc := ownBase + 0x100, rsp := ownBase + 0x1FF80, depth := 2, file := [(0, 11, false), (1, 11, false)], caps := setAt (setAt (setAt (List.replicate 16 {}) 0 Cap.all) 1 ⟨ownBase + 0x10000 + 0x10000 * 2 ^ 40 + 0x1FF * 2 ^ 80, true⟩) 4 Cap.all }, {}, {}] }), ({ run := true, pc := ownBase + 0x100, rsp := ownBase + 0x1FF80, depth := 2, file := [(0, 11, false), (1, 11, false)], caps := setAt (setAt (setAt (List.replicate 16 {}) 0 Cap.all) 1 ⟨ownBase + 0x10000 + 0x10000 * 2 ^ 40 + 0x1FF * 2 ^ 80, true⟩) 4 Cap.all } : KCopy), by decide +kernel⟩,
    ⟨(((((State.reset.wr (pgTile 5) 8 1).wrMem (physOf 5 (ownBase + 0x3FE00 + 16 * 9)) 16 (ownBase + 0x2000 + 0x1000 * 2 ^ 40 + 0x1FF * 2 ^ 80)).setTag (physOf 5 (ownBase + 0x3FE00 + 16 * 9)) 7).setBank (pgEccT 5) 0 { inited := true }).setTile 5 { mode := 3, work := true, copies := [{ run := true, pc := ownBase + 0x100, rsp := ownBase + 0x1FF80, depth := 2, file := [(0, 11, false), (1, 11, false)], caps := setAt (setAt (setAt (List.replicate 16 {}) 0 Cap.all) 1 ⟨ownBase + 0x10000 + 0x10000 * 2 ^ 40 + 0x1FF * 2 ^ 80, true⟩) 4 Cap.all, arith := some ⟨9, 0x1200000800, false, 0⟩ }, {}, {}] }), by decide +kernel⟩,
    ⟨(((((State.reset.wr (pgTile 5) 8 1).wrMem (physOf 5 (ownBase + 0x3FE00 + 16 * 14)) 16 (ownBase + 0x2000 + 0x1000 * 2 ^ 40 + 0x1FF * 2 ^ 80)).setTag (physOf 5 (ownBase + 0x3FE00 + 16 * 14)) 7).setBank (pgEccT 5) 0 { inited := true }).setTile 5 { mode := 0, work := true, copies := [{ run := true, pc := ownBase + 0x100, rsp := ownBase + 0x1FF80, depth := 2, file := [(0, 11, false), (1, 11, false)], caps := setAt (setAt (setAt (List.replicate 16 {}) 0 Cap.all) 1 ⟨ownBase + 0x10000 + 0x10000 * 2 ^ 40 + 0x1FF * 2 ^ 80, true⟩) 4 Cap.all }, {}, {}], wdgx := [0x0170123000, 7] }), by decide +kernel⟩,
    ⟨(((((State.reset.wr (pgTile 5) 8 1).wrMem (physOf 5 (ownBase + 0x3FE00 + 16 * 12)) 16 (ownBase + 0x2000 + 0x1000 * 2 ^ 40 + 0x1FF * 2 ^ 80)).setTag (physOf 5 (ownBase + 0x3FE00 + 16 * 12)) 7).setBank (pgEccT 5) 0 { inited := true }).setTile 5 { mode := 3, work := true, copies := [{ run := true, pc := ownBase + 0x100, rsp := ownBase + 0x1FF80, depth := 2, file := [(0, 11, false), (1, 11, false)], caps := setAt (setAt (setAt (List.replicate 16 {}) 0 Cap.all) 1 ⟨ownBase + 0x10000 + 0x10000 * 2 ^ 40 + 0x1FF * 2 ^ 80, true⟩) 4 Cap.all }, {}, {}], relIrq := true }), by decide +kernel⟩,
    ⟨(((((((((State.reset.wr (pgTile 5) 8 1).wrMem (physOf 5 (ownBase + 0x3FE00 + 16 * 13)) 16 (ownBase + 0x2000 + 0x1000 * 2 ^ 40 + 0x1FF * 2 ^ 80)).setTag (physOf 5 (ownBase + 0x3FE00 + 16 * 13)) 7).setBank (pgEccT 5) 0 { inited := true }).setTile 5 { mode := 3, work := true, copies := [{ run := true, pc := ownBase + 0x100, rsp := ownBase + 0x1FF80, depth := 2, file := [(0, 11, false), (1, 11, false)], caps := setAt (setAt (setAt (List.replicate 16 {}) 0 Cap.all) 1 ⟨ownBase + 0x10000 + 0x10000 * 2 ^ 40 + 0x1FF * 2 ^ 80, true⟩) 4 Cap.all }, {}, {}] })).wr (pgTfe 0) 0x010 1).wr (pgTfe 0) 0x014 1).wr (pgTfe 0) 0x024 5), by decide +kernel⟩,
    ⟨(((((State.reset.wr (pgTile 5) 8 1).wrMem (physOf 5 (ownBase + 0x3FE00 + 16 * 14)) 16 (ownBase + 0x2000 + 0x1000 * 2 ^ 40 + 0x1FF * 2 ^ 80)).setTag (physOf 5 (ownBase + 0x3FE00 + 16 * 14)) 7).setBank (pgEccT 5) 0 { inited := true }).setTile 5 { mode := 3, work := true, copies := [{ run := true, pc := ownBase + 0x100, rsp := ownBase + 0x1FF80, depth := 2, file := [(0, 11, false), (1, 11, false)], caps := setAt (setAt (setAt (List.replicate 16 {}) 0 Cap.all) 1 ⟨ownBase + 0x10000 + 0x10000 * 2 ^ 40 + 0x1FF * 2 ^ 80, true⟩) 4 Cap.all, divI := some ⟨.bin .div, 7, 3, false, 5, 2, 20000⟩ }, {}, {}], wdgx := [0x0170123000] }), by decide +kernel⟩⟩

theorem witness_KolotteExceptions_2 :
    (∃ s : State, ((Instr.exceptionEntry 5 0).wf = true) ∧ (s.calm = true) ∧ ((s.kCan 5 0 = false ∨ (((s.kx 5 0).k.arith.all fun z => decide ((s.kx 5 0).iss < z.due)) = true ∧ ((s.kx 5 0).async = none ∨ ((s.kx 5 0).chk = true ∧ (s.tileH 5).replay ≠ []))))))
    ∧ (∃ (s : State) (k : KCopy), ((Instr.retx issue).wf = true) ∧ (s.calm = true) ∧ (s.solo issue (.retx) = true) ∧ (s.copyOf issue = k) ∧ (k.rsCache.find? (fun q => q.addr == k.rsp + 0) = some (⟨ownBase + 0x1FF80, 0x1200001000, 5 + 6 * 2 ^ 32, false, false⟩ : RsSlot)) ∧ (k.rsCache.find? (fun q => q.addr == k.rsp + 16) = some (⟨ownBase + 0x1FF90, 1 + 3 * 2 ^ 14 + 2 * 2 ^ 21 + 4 * 2 ^ 38, 0, false, false⟩ : RsSlot)) ∧ (k.rsCache.find? (fun q => q.addr == k.rsp + 32) = some (⟨ownBase + 0x1FFA0, 0, 2 ^ 41 + 0x1FF * 2 ^ 16, false, true⟩ : RsSlot)) ∧ ((⟨ownBase + 0x1FF80, 0x1200001000, 5 + 6 * 2 ^ 32, false, false⟩ : RsSlot).pois = false) ∧ ((⟨ownBase + 0x1FF90, 1 + 3 * 2 ^ 14 + 2 * 2 ^ 21 + 4 * 2 ^ 38, 0, false, false⟩ : RsSlot).pois = false) ∧ ((⟨ownBase + 0x1FFA0, 0, 2 ^ 41 + 0x1FF * 2 ^ 16, false, true⟩ : RsSlot).pois = false) ∧ ((⟨(⟨ownBase + 0x1FFA0, 0, 2 ^ 41 + 0x1FF * 2 ^ 16, false, true⟩ : RsSlot).lo + (⟨ownBase + 0x1FFA0, 0, 2 ^ 41 + 0x1FF * 2 ^ 16, false, true⟩ : RsSlot).hi * 2 ^ 64, (⟨ownBase + 0x1FFA0, 0, 2 ^ 41 + 0x1FF * 2 ^ 16, false, true⟩ : RsSlot).tag⟩ : Cap).usable = true) ∧ (bit (⟨ownBase + 0x1FF90, 1 + 3 * 2 ^ 14 + 2 * 2 ^ 21 + 4 * 2 ^ 38, 0, false, false⟩ : RsSlot).lo 62 = false) ∧ (bits (⟨ownBase + 0x1FF90, 1 + 3 * 2 ^ 14 + 2 * 2 ^ 21 + 4 * 2 ^ 38, 0, false, false⟩ : RsSlot).lo 45 38 ≤ 224) ∧ (bits (⟨ownBase + 0x1FF90, 1 + 3 * 2 ^ 14 + 2 * 2 ^ 21 + 4 * 2 ^ 38, 0, false, false⟩ : RsSlot).lo 37 21 + bits (⟨ownBase + 0x1FF90, 1 + 3 * 2 ^ 14 + 2 * 2 ^ 21 + 4 * 2 ^ 38, 0, false, false⟩ : RsSlot).lo 45 38 ≤ k.low + 256) ∧ ((⟨ownBase + 0x1FF80, 0x1200001000, 5 + 6 * 2 ^ 32, false, false⟩ : RsSlot).hi < 2 ^ 64) ∧ ((⟨ownBase + 0x1FF90, 1 + 3 * 2 ^ 14 + 2 * 2 ^ 21 + 4 * 2 ^ 38, 0, false, false⟩ : RsSlot).hi < 2 ^ 64) ∧ (bit (⟨ownBase + 0x1FF80, 0x1200001000, 5 + 6 * 2 ^ 32, false, false⟩ : RsSlot).lo 58 = false) ∧ (k.latI = none) ∧ (k.latF = none))
    ∧ (∃ (s : State) (k : KCopy), ((Instr.retx issue).wf = true) ∧ (s.calm = true) ∧ (s.solo issue (.retx) = true) ∧ (s.copyOf issue = k) ∧ (k.rsCache.find? (fun q => q.addr == k.rsp + 0) = some (⟨ownBase + 0x1FF80, 0x1200001000 + 3 * 2 ^ 40 + 5 * 2 ^ 49 + 2 ^ 58 + 2 ^ 59, 5 + 6 * 2 ^ 32, false, false⟩ : RsSlot)) ∧ (k.rsCache.find? (fun q => q.addr == k.rsp + 16) = some (⟨ownBase + 0x1FF90, 1 + 3 * 2 ^ 14 + 2 * 2 ^ 21 + 4 * 2 ^ 38, 7 * 2 ^ 32, false, false⟩ : RsSlot)) ∧ (k.rsCache.find? (fun q => q.addr == k.rsp + 32) = some (⟨ownBase + 0x1FFA0, 0, 2 ^ 41 + 0x1FF * 2 ^ 16, false, true⟩ : RsSlot)) ∧ ((⟨ownBase + 0x1FF80, 0x1200001000 + 3 * 2 ^ 40 + 5 * 2 ^ 49 + 2 ^ 58 + 2 ^ 59, 5 + 6 * 2 ^ 32, false, false⟩ : RsSlot).pois = false) ∧ ((⟨ownBase + 0x1FF90, 1 + 3 * 2 ^ 14 + 2 * 2 ^ 21 + 4 * 2 ^ 38, 7 * 2 ^ 32, false, false⟩ : RsSlot).pois = false) ∧ ((⟨ownBase + 0x1FFA0, 0, 2 ^ 41 + 0x1FF * 2 ^ 16, false, true⟩ : RsSlot).pois = false) ∧ ((⟨(⟨ownBase + 0x1FFA0, 0, 2 ^ 41 + 0x1FF * 2 ^ 16, false, true⟩ : RsSlot).lo + (⟨ownBase + 0x1FFA0, 0, 2 ^ 41 + 0x1FF * 2 ^ 16, false, true⟩ : RsSlot).hi * 2 ^ 64, (⟨ownBase + 0x1FFA0, 0, 2 ^ 41 + 0x1FF * 2 ^ 16, false, true⟩ : RsSlot).tag⟩ : Cap).usable = true) ∧ (bit (⟨ownBase + 0x1FF90, 1 + 3 * 2 ^ 14 + 2 * 2 ^ 21 + 4 * 2 ^ 38, 7 * 2 ^ 32, false, false⟩ : RsSlot).lo 62 = false) ∧ (bits (⟨ownBase + 0x1FF90, 1 + 3 * 2 ^ 14 + 2 * 2 ^ 21 + 4 * 2 ^ 38, 7 * 2 ^ 32, false, false⟩ : RsSlot).lo 45 38 ≤ 224) ∧ (bits (⟨ownBase + 0x1FF90, 1 + 3 * 2 ^ 14 + 2 * 2 ^ 21 + 4 * 2 ^ 38, 7 * 2 ^ 32, false, false⟩ : RsSlot).lo 37 21 + bits (⟨ownBase + 0x1FF90, 1 + 3 * 2 ^ 14 + 2 * 2 ^ 21 + 4 * 2 ^ 38, 7 * 2 ^ 32, false, false⟩ : RsSlot).lo 45 38 ≤ k.low + 256) ∧ ((⟨ownBase + 0x1FF80, 0x1200001000 + 3 * 2 ^ 40 + 5 * 2 ^ 49 + 2 ^ 58 + 2 ^ 59, 5 + 6 * 2 ^ 32, false, false⟩ : RsSlot).hi < 2 ^ 64) ∧ ((⟨ownBase + 0x1FF90, 1 + 3 * 2 ^ 14 + 2 * 2 ^ 21 + 4 * 2 ^ 38, 7 * 2 ^ 32, false, false⟩ : RsSlot).hi < 2 ^ 64) ∧ (bit (⟨ownBase + 0x1FF80, 0x1200001000 + 3 * 2 ^ 40 + 5 * 2 ^ 49 + 2 ^ 58 + 2 ^ 59, 5 + 6 * 2 ^ 32, false, false⟩ : RsSlot).lo 58 = true) ∧ (2 * bits (⟨ownBase + 0x1FF80, 0x1200001000 + 3 * 2 ^ 40 + 5 * 2 ^ 49 + 2 ^ 58 + 2 ^ 59, 5 + 6 * 2 ^ 32, false, false⟩ : RsSlot).lo 48 40 ≤ bits (⟨ownBase + 0x1FF80, 0x1200001000 + 3 * 2 ^ 40 + 5 * 2 ^ 49 + 2 ^ 58 + 2 ^ 59, 5 + 6 * 2 ^ 32, false, false⟩ : RsSlot).lo 39 1 * 2) ∧ (k.latI = none) ∧ (k.latF = none))
    ∧ (∃ (s : State) (k : KCopy), ((Instr.retx issue).wf = true) ∧ (s.calm = true) ∧ (s.solo issue (.retx) = true) ∧ (s.copyOf issue = k) ∧ ((s.kx issue.tile issue.copy).canEnter 3 (⟨ownBase + 0x2000 + 0x1000 * 2 ^ 40 + 0x1FF * 2 ^ 80, true⟩ : Cap) = true) ∧ (k.rsCache.find? (fun q => q.addr == k.rsp + 0) = some (⟨ownBase + 0x1FF80, 0x1200001000, 5 + 6 * 2 ^ 32, false, false⟩ : RsSlot)) ∧ (k.rsCache.find? (fun q => q.addr == k.rsp + 16) = some (⟨ownBase + 0x1FF90, 1 + 3 * 2 ^ 14 + 2 * 2 ^ 21 + 4 * 2 ^ 38, 0, false, false⟩ : RsSlot)) ∧ (k.rsCache.find? (fun q => q.addr == k.rsp + 32) = some (⟨ownBase + 0x1FFA0, 0, 2 ^ 41 + 0x1FF * 2 ^ 16, false, false⟩ : RsSlot)) ∧ (((⟨ownBase + 0x1FF80, 0x1200001000, 5 + 6 * 2 ^ 32, false, false⟩ : RsSlot).pois = true ∨ (⟨ownBase + 0x1FF90, 1 + 3 * 2 ^ 14 + 2 * 2 ^ 21 + 4 * 2 ^ 38, 0, false, false⟩ : RsSlot).pois = true ∨ (⟨ownBase + 0x1FFA0, 0, 2 ^ 41 + 0x1FF * 2 ^ 16, false, false⟩ : RsSlot).pois = true ∨ (⟨(⟨ownBase + 0x1FFA0, 0, 2 ^ 41 + 0x1FF * 2 ^ 16, false, false⟩ : RsSlot).lo + (⟨ownBase + 0x1FFA0, 0, 2 ^ 41 + 0x1FF * 2 ^ 16, false, false⟩ : RsSlot).hi * 2 ^ 64, (⟨ownBase + 0x1FFA0, 0, 2 ^ 41 + 0x1FF * 2 ^ 16, false, false⟩ : RsSlot).tag⟩ : Cap).usable = false ∨ bit (⟨ownBase + 0x1FF90, 1 + 3 * 2 ^ 14 + 2 * 2 ^ 21 + 4 * 2 ^ 38, 0, false, false⟩ : RsSlot).lo 62 = true)) ∧ (k.latI = none) ∧ (k.latF = none)) :=
    ⟨⟨(inTile (kcopy 1 [(0, 11, false)])), by decide +kernel⟩,
    ⟨(inTile { run := true, pc := ownBase + 0x100, rsp := ownBase + 0x1FF80, depth := 2, file := [(0, 11, false), (1, 11, false)], caps := setAt (setAt (setAt (List.replicate 16 {}) 0 Cap.all) 1 ⟨ownBase + 0x10000 + 0x10000 * 2 ^ 40 + 0x1FF * 2 ^ 80, true⟩) 4 Cap.all, rsCache := [⟨ownBase + 0x1FF80, 0x1200001000, 5 + 6 * 2 ^ 32, false, false⟩, ⟨ownBase + 0x1FF90, 1 + 3 * 2 ^ 14 + 2 * 2 ^ 21 + 4 * 2 ^ 38, 0, false, false⟩, ⟨ownBase + 0x1FFA0, 0, 2 ^ 41 + 0x1FF * 2 ^ 16, false, true⟩] }), ({ run := true, pc := ownBase + 0x100, rsp := ownBase + 0x1FF80, depth := 2, file := [(0, 11, false), (1, 11, false)], caps := setAt (setAt (setAt (List.replicate 16 {}) 0 Cap.all) 1 ⟨ownBase + 0x10000 + 0x10000 * 2 ^ 40 + 0x1FF * 2 ^ 80, true⟩) 4 Cap.all, rsCache := [⟨ownBase + 0x1FF80, 0x1200001000, 5 + 6 * 2 ^ 32, false, false⟩, ⟨ownBase + 0x1FF90, 1 + 3 * 2 ^ 14 + 2 * 2 ^ 21 + 4 * 2 ^ 38, 0, false, false⟩, ⟨ownBase + 0x1FFA0, 0, 2 ^ 41 + 0x1FF * 2 ^ 16, false, true⟩] } : KCopy), by decide +kernel⟩,
    ⟨(inTile { run := true, pc := ownBase + 0x100, rsp := ownBase + 0x1FF80, depth := 2, file := [(0, 11, false), (1, 11, false)], caps := setAt (setAt (setAt (List.replicate 16 {}) 0 Cap.all) 1 ⟨ownBase + 0x10000 + 0x10000 * 2 ^ 40 + 0x1FF * 2 ^ 80, true⟩) 4 Cap.all, rsCache := [⟨ownBase + 0x1FF80, 0x1200001000 + 3 * 2 ^ 40 + 5 * 2 ^ 49 + 2 ^ 58 + 2 ^ 59, 5 + 6 * 2 ^ 32, false, false⟩, ⟨ownBase + 0x1FF90, 1 + 3 * 2 ^ 14 + 2 * 2 ^ 21 + 4 * 2 ^ 38, 7 * 2 ^ 32, false, false⟩, ⟨ownBase + 0x1FFA0, 0, 2 ^ 41 + 0x1FF * 2 ^ 16, false, true⟩] }), ({ run := true, pc := ownBase + 0x100, rsp := ownBase + 0x1FF80, depth := 2, file := [(0, 11, false), (1, 11, false)], caps := setAt (setAt (setAt (List.replicate 16 {}) 0 Cap.all) 1 ⟨ownBase + 0x10000 + 0x10000 * 2 ^ 40 + 0x1FF * 2 ^ 80, true⟩) 4 Cap.all, rsCache := [⟨ownBase + 0x1FF80, 0x1200001000 + 3 * 2 ^ 40 + 5 * 2 ^ 49 + 2 ^ 58 + 2 ^ 59, 5 + 6 * 2 ^ 32, false, false⟩, ⟨ownBase + 0x1FF90, 1 + 3 * 2 ^ 14 + 2 * 2 ^ 21 + 4 * 2 ^ 38, 7 * 2 ^ 32, false, false⟩, ⟨ownBase + 0x1FFA0, 0, 2 ^ 41 + 0x1FF * 2 ^ 16, false, true⟩] } : KCopy), by decide +kernel⟩,
    ⟨(((((State.reset.wr (pgTile 5) 8 1).wrMem (physOf 5 (ownBase + 0x3FE00 + 16 * 3)) 16 (ownBase + 0x2000 + 0x1000 * 2 ^ 40 + 0x1FF * 2 ^ 80)).setTag (physOf 5 (ownBase + 0x3FE00 + 16 * 3)) 7).setBank (pgEccT 5) 0 { inited := true }).setTile 5 { mode := 3, work := true, copies := [{ run := true, pc := ownBase + 0x100, rsp := ownBase + 0x1FF80, rsCache := [⟨ownBase + 0x1FF80, 0x1200001000, 5 + 6 * 2 ^ 32, false, false⟩, ⟨ownBase + 0x1FF90, 1 + 3 * 2 ^ 14 + 2 * 2 ^ 21 + 4 * 2 ^ 38, 0, false, false⟩, ⟨ownBase + 0x1FFA0, 0, 2 ^ 41 + 0x1FF * 2 ^ 16, false, false⟩], depth := 2, file := [(0, 11, false), (1, 11, false)], caps := setAt (setAt (setAt (List.replicate 16 {}) 0 Cap.all) 1 ⟨ownBase + 0x10000 + 0x10000 * 2 ^ 40 + 0x1FF * 2 ^ 80, true⟩) 5 {} }, {}, {}] }), ({ run := true, pc := ownBase + 0x100, rsp := ownBase + 0x1FF80, rsCache := [⟨ownBase + 0x1FF80, 0x1200001000, 5 + 6 * 2 ^ 32, false, false⟩, ⟨ownBase + 0x1FF90, 1 + 3 * 2 ^ 14 + 2 * 2 ^ 21 + 4 * 2 ^ 38, 0, false, false⟩, ⟨ownBase + 0x1FFA0, 0, 2 ^ 41 + 0x1FF * 2 ^ 16, false, false⟩], depth := 2, file := [(0, 11, false), (1, 11, false)], caps := setAt (setAt (setAt (List.replicate 16 {}) 0 Cap.all) 1 ⟨ownBase + 0x10000 + 0x10000 * 2 ^ 40 + 0x1FF * 2 ^ 80, true⟩) 5 {} } : KCopy), by decide +kernel⟩⟩

theorem witness_MemoryScrub_1 :
    (∃ s : State, ((Instr.scrubLine pgEccD 0 9).wf = true) ∧ (s.calm = true) ∧ (s.getB pgEccD 0x040 31 = true) ∧ (s.bankUse pgEccD 0 = 2) ∧ ((s.bankH pgEccD 0).early = 0x1000 :: ([7] : List Nat)) ∧ ((s.upTo 9).lineTested pgEccD 0 (0x1000 / 64) = false) ∧ (0x1000 < dramSize) ∧ ((s.lineErr (0x1000 / 64)).length ≤ 4))
    ∧ (∃ s : State, ((Instr.scrubLine pgEccD 0 9).wf = true) ∧ (s.calm = true) ∧ (s.getB pgEccD 0x040 31 = true) ∧ (s.bankUse pgEccD 0 = 2) ∧ ((s.bankH pgEccD 0).early = 0x1000 :: ([7] : List Nat)) ∧ ((s.upTo 9).lineTested pgEccD 0 (0x1000 / 64) = false) ∧ (0x1000 < dramSize) ∧ (4 < (s.lineErr (0x1000 / 64)).length))
    ∧ (∃ s : State, ((Instr.scrubLine ((pgEccT 3) : Nat) 0 9000).wf = true) ∧ (s.calm = true) ∧ (s.getB ((pgEccT 3) : Nat) 0x040 31 = false))
    ∧ (∃ s : State, ((Instr.scrubLine ((pgEccT 3) : Nat) 0 9000).wf = true) ∧ (s.calm = true) ∧ (s.getB ((pgEccT 3) : Nat) 0x040 31 = true) ∧ (s.bankUse ((pgEccT 3) : Nat) 0 = 2) ∧ ((s.bankH ((pgEccT 3) : Nat) 0).early.find? (fun x => !(s.upTo 9000).lineTested ((pgEccT 3) : Nat) 0 ((x - (bankRange ((pgEccT 3) : Nat) 0).1) / 64)) = some ((tileBase 3 + 0x48) : Nat)) ∧ ((s.upTo 9000).lineStored ((pgEccT 3) : Nat) ((tileBase 3 + 0x48) : Nat) = true))
    ∧ (∃ s : State, ((Instr.scrubLine ((pgEccT 3) : Nat) 0 9000).wf = true) ∧ (s.calm = true) ∧ (s.getB ((pgEccT 3) : Nat) 0x040 31 = true) ∧ (s.bankUse ((pgEccT 3) : Nat) 0 = 2) ∧ (((s.bankH ((pgEccT 3) : Nat) 0).early.all fun x => (s.upTo 9000).lineTested ((pgEccT 3) : Nat) 0 ((x - (bankRange ((pgEccT 3) : Nat) 0).1) / 64)) = true) ∧ ((s.upTo 9000).lineTested ((pgEccT 3) : Nat) 0 (s.bankH ((pgEccT 3) : Nat) 0).pos = false) ∧ ((s.upTo 9000).lineStored ((pgEccT 3) : Nat) ((bankRange ((pgEccT 3) : Nat) 0).1 + 64 * (s.bankH ((pgEccT 3) : Nat) 0).pos) = true))
    ∧ (∃ s : State, ((Instr.scrubLine ((pgEccC 2) : Nat) 15 9).wf = true) ∧ (s.calm = true) ∧ (s.getB ((pgEccC 2) : Nat) 0x040 31 = true) ∧ ((s.bankUse ((pgEccC 2) : Nat) 15 ≠ 2 ∨ (((s.bankH ((pgEccC 2) : Nat) 15).early.all fun x => (s.upTo 9).lineTested ((pgEccC 2) : Nat) 15 ((x - (bankRange ((pgEccC 2) : Nat) 15).1) / 64)) = true ∧ (s.upTo 9).lineTested ((pgEccC 2) : Nat) 15 (s.bankH ((pgEccC 2) : Nat) 15).pos = true))) ∧ (((bankRange ((pgEccC 2) : Nat) 15).1 + 64 * (s.bankH ((pgEccC 2) : Nat) 15).pos) + 64 < (bankRange ((pgEccC 2) : Nat) 15).2)) :=
    ⟨⟨((State.reset.setBank pgEccD 0 { early := [0x1000, 7], inited := true }).setLineErr 64 [(3, 5), (9, 1), (63, 255), (70, 2)]), by decide +kernel⟩,
    ⟨((State.reset.setBank pgEccD 0 { early := [0x1000, 7], inited := true }).setLineErr 64 [(3, 5), (9, 1), (10, 1), (63, 255), (70, 2)]), by decide +kernel⟩,
    ⟨((((State.reset.wr (pgEccT 3) 0x040 100).setBank (pgEccT 3) 0 { early := [tileBase 3 + 0x48], inited := true }).setChk (tileBase 3 + 0x4A) 0x13).setByte (tileBase 3 + 0x4A) 7), by decide +kernel⟩,
    ⟨((((State.reset.setBank (pgEccT 3) 0 { early := [tileBase 3 + 0x48], inited := true }).setChk (tileBase 3 + 0x4A) 0x13).setByte (tileBase 3 + 0x4A) 7).setTile 3 { copies := [{ sb := [⟨ownBase + 0x40, 4, 7, [false], 90000, []⟩] }] }), by decide +kernel⟩,
    ⟨((State.reset.setBank (pgEccT 3) 0 { pos := 1, inited := true }).setTile 3 { copies := [{ sb := [⟨ownBase + 0x40, 4, 7, [false], 90000, []⟩] }] }), by decide +kernel⟩,
    ⟨((State.reset.setBank (pgEccC 2) 15 { inited := true, early := [7] }).setFld (pgEccC 2) 0x048 31 30 1), by decide +kernel⟩⟩

theorem witness_MemoryScrub_2 :
    (∃ s : State, ((Instr.scrubLine ((pgEccC 2) : Nat) 15 9).wf = true) ∧ (s.calm = true) ∧ (s.getB ((pgEccC 2) : Nat) 0x040 31 = true) ∧ (s.bankUse ((pgEccC 2) : Nat) 15 = 2) ∧ ((s.upTo 9).lineTested ((pgEccC 2) : Nat) 15 (s.bankH ((pgEccC 2) : Nat) 15).pos = false) ∧ (∀ x ∈ List.range 64, s.chkDiff (((bankRange ((pgEccC 2) : Nat) 15).1 + 64 * (s.bankH ((pgEccC 2) : Nat) 15).pos) + x) = 0) ∧ (∀ j ∈ List.range 8, s.poisCopies (((bankRange ((pgEccC 2) : Nat) 15).1 + 64 * (s.bankH ((pgEccC 2) : Nat) 15).pos) + 8 * j) = 0 ∨ s.poisCopies (((bankRange ((pgEccC 2) : Nat) 15).1 + 64 * (s.bankH ((pgEccC 2) : Nat) 15).pos) + 8 * j) = 7) ∧ (∀ j ∈ List.range 8, s.tagCopies (((bankRange ((pgEccC 2) : Nat) 15).1 + 64 * (s.bankH ((pgEccC 2) : Nat) 15).pos) + 8 * j) = 0 ∨ s.tagCopies (((bankRange ((pgEccC 2) : Nat) 15).1 + 64 * (s.bankH ((pgEccC 2) : Nat) 15).pos) + 8 * j) = 7) ∧ ((s.bankH ((pgEccC 2) : Nat) 15).early = []) ∧ (eccSub ((pgEccC 2) : Nat) ≠ 2) ∧ ((s.upTo 9).lineStored ((pgEccC 2) : Nat) ((bankRange ((pgEccC 2) : Nat) 15).1 + 64 * (s.bankH ((pgEccC 2) : Nat) 15).pos) = false) ∧ (((bankRange ((pgEccC 2) : Nat) 15).1 + 64 * (s.bankH ((pgEccC 2) : Nat) 15).pos) + 64 < (bankRange ((pgEccC 2) : Nat) 15).2))
    ∧ (∃ s : State, ((Instr.scrubLine ((pgEccT 3) : Nat) 0 9000).wf = true) ∧ (s.calm = true) ∧ (s.getB ((pgEccT 3) : Nat) 0x040 31 = true) ∧ (s.bankUse ((pgEccT 3) : Nat) 0 = 2) ∧ ((s.upTo 9000).lineTested ((pgEccT 3) : Nat) 0 (s.bankH ((pgEccT 3) : Nat) 0).pos = false) ∧ (∀ x ∈ List.range 64, s.chkDiff (((bankRange ((pgEccT 3) : Nat) 0).1 + 64 * (s.bankH ((pgEccT 3) : Nat) 0).pos) + x) = 0) ∧ (∀ j ∈ List.range 8, s.poisCopies (((bankRange ((pgEccT 3) : Nat) 0).1 + 64 * (s.bankH ((pgEccT 3) : Nat) 0).pos) + 8 * j) = 0 ∨ s.poisCopies (((bankRange ((pgEccT 3) : Nat) 0).1 + 64 * (s.bankH ((pgEccT 3) : Nat) 0).pos) + 8 * j) = 7) ∧ (∀ j ∈ List.range 8, s.tagCopies (((bankRange ((pgEccT 3) : Nat) 0).1 + 64 * (s.bankH ((pgEccT 3) : Nat) 0).pos) + 8 * j) = 0 ∨ s.tagCopies (((bankRange ((pgEccT 3) : Nat) 0).1 + 64 * (s.bankH ((pgEccT 3) : Nat) 0).pos) + 8 * j) = 7) ∧ ((s.bankH ((pgEccT 3) : Nat) 0).early = []) ∧ (eccSub ((pgEccT 3) : Nat) ≠ 2) ∧ ((s.upTo 9000).lineStored ((pgEccT 3) : Nat) ((bankRange ((pgEccT 3) : Nat) 0).1 + 64 * (s.bankH ((pgEccT 3) : Nat) 0).pos) = false) ∧ ((bankRange ((pgEccT 3) : Nat) 0).2 ≤ ((bankRange ((pgEccT 3) : Nat) 0).1 + 64 * (s.bankH ((pgEccT 3) : Nat) 0).pos) + 64) ∧ (eccSub ((pgEccT 3) : Nat) = 0))
    ∧ (∃ s : State, ((Instr.scrubLine ((pgEccC 2) : Nat) 15 9).wf = true) ∧ (s.calm = true) ∧ (s.getB ((pgEccC 2) : Nat) 0x040 31 = true) ∧ (s.bankUse ((pgEccC 2) : Nat) 15 = 2) ∧ ((s.upTo 9).lineTested ((pgEccC 2) : Nat) 15 (s.bankH ((pgEccC 2) : Nat) 15).pos = false) ∧ (∀ x ∈ List.range 64, s.chkDiff (((bankRange ((pgEccC 2) : Nat) 15).1 + 64 * (s.bankH ((pgEccC 2) : Nat) 15).pos) + x) = 0) ∧ (∀ j ∈ List.range 8, s.poisCopies (((bankRange ((pgEccC 2) : Nat) 15).1 + 64 * (s.bankH ((pgEccC 2) : Nat) 15).pos) + 8 * j) = 0 ∨ s.poisCopies (((bankRange ((pgEccC 2) : Nat) 15).1 + 64 * (s.bankH ((pgEccC 2) : Nat) 15).pos) + 8 * j) = 7) ∧ (∀ j ∈ List.range 8, s.tagCopies (((bankRange ((pgEccC 2) : Nat) 15).1 + 64 * (s.bankH ((pgEccC 2) : Nat) 15).pos) + 8 * j) = 0 ∨ s.tagCopies (((bankRange ((pgEccC 2) : Nat) 15).1 + 64 * (s.bankH ((pgEccC 2) : Nat) 15).pos) + 8 * j) = 7) ∧ ((s.bankH ((pgEccC 2) : Nat) 15).early = []) ∧ (eccSub ((pgEccC 2) : Nat) ≠ 2) ∧ ((bankRange ((pgEccC 2) : Nat) 15).2 ≤ ((bankRange ((pgEccC 2) : Nat) 15).1 + 64 * (s.bankH ((pgEccC 2) : Nat) 15).pos) + 64) ∧ (eccSub ((pgEccC 2) : Nat) = 1) ∧ (15 < 16) ∧ (¬(∀ x ∈ List.range 16, x ≠ 15 → s.bankUse ((pgEccC 2) : Nat) x = 2 → (s.bankH ((pgEccC 2) : Nat) x).whole = true → (s.bankH ((pgEccC 2) : Nat) x).done = true)))
    ∧ (∃ s : State, ((Instr.scrubLine ((pgEccC 2) : Nat) 15 9000).wf = true) ∧ (s.calm = true) ∧ (s.getB ((pgEccC 2) : Nat) 0x040 31 = true) ∧ (s.bankUse ((pgEccC 2) : Nat) 15 = 2) ∧ ((s.upTo 9000).lineTested ((pgEccC 2) : Nat) 15 (s.bankH ((pgEccC 2) : Nat) 15).pos = false) ∧ (∀ x ∈ List.range 64, s.chkDiff (((bankRange ((pgEccC 2) : Nat) 15).1 + 64 * (s.bankH ((pgEccC 2) : Nat) 15).pos) + x) = 0) ∧ (∀ j ∈ List.range 8, s.poisCopies (((bankRange ((pgEccC 2) : Nat) 15).1 + 64 * (s.bankH ((pgEccC 2) : Nat) 15).pos) + 8 * j) = 0 ∨ s.poisCopies (((bankRange ((pgEccC 2) : Nat) 15).1 + 64 * (s.bankH ((pgEccC 2) : Nat) 15).pos) + 8 * j) = 7) ∧ (∀ j ∈ List.range 8, s.tagCopies (((bankRange ((pgEccC 2) : Nat) 15).1 + 64 * (s.bankH ((pgEccC 2) : Nat) 15).pos) + 8 * j) = 0 ∨ s.tagCopies (((bankRange ((pgEccC 2) : Nat) 15).1 + 64 * (s.bankH ((pgEccC 2) : Nat) 15).pos) + 8 * j) = 7) ∧ ((s.bankH ((pgEccC 2) : Nat) 15).early = []) ∧ (eccSub ((pgEccC 2) : Nat) ≠ 2) ∧ ((bankRange ((pgEccC 2) : Nat) 15).2 ≤ ((bankRange ((pgEccC 2) : Nat) 15).1 + 64 * (s.bankH ((pgEccC 2) : Nat) 15).pos) + 64) ∧ (eccSub ((pgEccC 2) : Nat) = 1) ∧ (15 < 16) ∧ ((∀ x ∈ List.range 16, x ≠ 15 → s.bankUse ((pgEccC 2) : Nat) x = 2 → (s.bankH ((pgEccC 2) : Nat) x).whole = true → (s.bankH ((pgEccC 2) : Nat) x).done = true)))
    ∧ (∃ s : State, ((Instr.scrubLine ((pgEccT 3) : Nat) 0 9000).wf = true) ∧ (s.calm = true) ∧ (s.getB ((pgEccT 3) : Nat) 0x040 31 = true) ∧ (s.bankUse ((pgEccT 3) : Nat) 0 = 2) ∧ (eccSub ((pgEccT 3) : Nat) ≠ 2) ∧ ((s.bankH ((pgEccT 3) : Nat) 0).early.find? (fun x => !(s.upTo 9000).lineTested ((pgEccT 3) : Nat) 0 ((x - (bankRange ((pgEccT 3) : Nat) 0).1) / 64)) = some ((tileBase 3 + 0x48) : Nat)) ∧ ((s.upTo 9000).lineStored ((pgEccT 3) : Nat) ((tileBase 3 + 0x48) : Nat) = false) ∧ (∀ x ∈ List.range 64, s.chkDiff ((((tileBase 3 + 0x48) : Nat) / 64 * 64) + x) % 32 = 0 ∨ popCount 5 (s.chkDiff ((((tileBase 3 + 0x48) : Nat) / 64 * 64) + x)) % 2 = 1))
    ∧ (∃ s : State, ((Instr.scrubLine ((pgEccT 3) : Nat) 0 9000).wf = true) ∧ (s.calm = true) ∧ (s.getB ((pgEccT 3) : Nat) 0x040 31 = true) ∧ (s.bankUse ((pgEccT 3) : Nat) 0 = 2) ∧ (eccSub ((pgEccT 3) : Nat) ≠ 2) ∧ (((s.bankH ((pgEccT 3) : Nat) 0).early.all fun x => (s.upTo 9000).lineTested ((pgEccT 3) : Nat) 0 ((x - (bankRange ((pgEccT 3) : Nat) 0).1) / 64)) = true) ∧ ((s.upTo 9000).lineTested ((pgEccT 3) : Nat) 0 (s.bankH ((pgEccT 3) : Nat) 0).pos = false) ∧ ((s.upTo 9000).lineStored ((pgEccT 3) : Nat) ((bankRange ((pgEccT 3) : Nat) 0).1 + 64 * (s.bankH ((pgEccT 3) : Nat) 0).pos) = false) ∧ (∀ x ∈ List.range 64, s.chkDiff (((bankRange ((pgEccT 3) : Nat) 0).1 + 64 * (s.bankH ((pgEccT 3) : Nat) 0).pos) + x) % 32 = 0 ∨ popCount 5 (s.chkDiff (((bankRange ((pgEccT 3) : Nat) 0).1 + 64 * (s.bankH ((pgEccT 3) : Nat) 0).pos) + x)) % 2 = 1) ∧ (((bankRange ((pgEccT 3) : Nat) 0).1 + 64 * (s.bankH ((pgEccT 3) : Nat) 0).pos) % 64 = 0) ∧ (((bankRange ((pgEccT 3) : Nat) 0).1 + 64 * (s.bankH ((pgEccT 3) : Nat) 0).pos) + 64 < (bankRange ((pgEccT 3) : Nat) 0).2)) :=
    ⟨⟨(State.reset.setBank (pgEccC 2) 15 { inited := true }), by decide +kernel⟩,
    ⟨(State.reset.setBank (pgEccT 3) 0 { pos := 8191, lapStart := 7, inited := true }), by decide +kernel⟩,
    ⟨((State.reset.setBank (pgEccC 2) 15 { inited := true, pos := 8191 }).setBank (pgEccC 2) 3 { inited := true }), by decide +kernel⟩,
    ⟨((State.reset.setBank (pgEccC 2) 15 { inited := true, pos := 8191 }).setBank (pgEccC 2) 3 { inited := true, done := true }), by decide +kernel⟩,
    ⟨(((State.reset.setBank (pgEccT 3) 0 { early := [tileBase 3 + 0x48], inited := true }).setChk (tileBase 3 + 0x4A) 0x13).setByte (tileBase 3 + 0x4A) 7), by decide +kernel⟩,
    ⟨(((State.reset.setBank (pgEccT 3) 0 { pos := 1, inited := true }).setChk (tileBase 3 + 0x4A) 0x13).setByte (tileBase 3 + 0x4A) 7), by decide +kernel⟩⟩

theorem witness_MemoryScrub_3 :
    (∃ s : State, ((Instr.scrubLine ((pgEccT 3) : Nat) 0 9000).wf = true) ∧ (s.calm = true) ∧ (s.getB ((pgEccT 3) : Nat) 0x040 31 = true) ∧ (s.bankUse ((pgEccT 3) : Nat) 0 = 2) ∧ (eccSub ((pgEccT 3) : Nat) ≠ 2) ∧ ((s.bankH ((pgEccT 3) : Nat) 0).early.find? (fun x => !(s.upTo 9000).lineTested ((pgEccT 3) : Nat) 0 ((x - (bankRange ((pgEccT 3) : Nat) 0).1) / 64)) = some ((tileBase 3 + 0x48) : Nat)) ∧ ((s.upTo 9000).lineStored ((pgEccT 3) : Nat) ((tileBase 3 + 0x48) : Nat) = false) ∧ (1 < 8) ∧ (((List.range 8).any fun x => decide (s.chkDiff (((tileBase 3 + 0x48) : Nat) / 64 * 64 + 8 * 1 + x) % 32 ≠ 0 ∧ popCount 5 (s.chkDiff (((tileBase 3 + 0x48) : Nat) / 64 * 64 + 8 * 1 + x)) % 2 = 0)) = true))
    ∧ (∃ s : State, ((Instr.eccPwr .basecamp (pgEccC 2) 0xAAAAAAA2 9).wf = true) ∧ (s.calm = true) ∧ (2 < 16) ∧ (1 < 16) ∧ ((s.upTo 9).sliceOn (pgEccC 2) 1 = true) ∧ (s.mayWrite .basecamp (pgEccC 2) .eccC = true) ∧ (s.powered (pgEccC 2) = true) ∧ ((s.pageH (pgEccC 2)).resetting = false))
    ∧ (∃ s : State, ((Instr.eccPwr .basecamp (pgEccC 2) 0xAAAAAAA2 9).wf = true) ∧ (s.calm = true) ∧ (2 < 16) ∧ (1 < 16) ∧ (s.mayWrite .basecamp (pgEccC 2) .eccC = true) ∧ ((s.upTo 9).sliceOn (pgEccC 2) 1 = false) ∧ (s.powered (pgEccC 2) = true) ∧ ((s.pageH (pgEccC 2)).resetting = false))
    ∧ (∃ s : State, ((Instr.eccPwr .basecamp (pgEccT 9) 1 9).wf = true) ∧ (s.calm = true) ∧ (9 < 128) ∧ (s.mayWrite .basecamp (pgEccT 9) .eccT = true) ∧ ((s.upTo 9).sliceOn (pgEccT 9) 0 = false) ∧ (s.powered (pgEccT 9) = true) ∧ ((s.pageH (pgEccT 9)).resetting = false))
    ∧ (∃ s : State, ((Instr.eccPwr .basecamp pgEccD 0 9).wf = true) ∧ (s.calm = true) ∧ (s.mayWrite .basecamp pgEccD .eccD = true) ∧ ((s.upTo 9).sliceOn pgEccD 0 = false) ∧ (s.powered pgEccD = true) ∧ ((s.pageH pgEccD).resetting = false))
    ∧ (∃ s : State, ((Instr.bankWakeComplete ((pgEccC 2) : Nat) 3 9).wf = true) ∧ (s.calm = true) ∧ (s.bankUse ((pgEccC 2) : Nat) 3 = 3) ∧ (s.bankReadyAt ((pgEccC 2) : Nat) 3 ≤ 9)) :=
    ⟨⟨(((State.reset.setBank (pgEccT 3) 0 { early := [tileBase 3 + 0x48], inited := true }).setChk (tileBase 3 + 0x4A) 0x03).setByte (tileBase 3 + 0x4A) 7), by decide +kernel⟩,
    ⟨((State.reset.setByte (clusterBase 2 + 0x80000) 7).setBist (pgBistC 2) { runs := [{ unit := 2, inst := 33, slice := 5, t0 := 3, iso := false }] }), by decide +kernel⟩,
    ⟨(State.reset.setByte (clusterBase 2 + 0x80000) 7), by decide +kernel⟩,
    ⟨(State.reset.setByte (tileBase 9 + 0x800) 7), by decide +kernel⟩,
    ⟨(State.reset.setByte 0x80000 7), by decide +kernel⟩,
    ⟨((State.reset.setFld (pgEccC 2) 0x048 7 6 3).setBank (pgEccC 2) 3 { inited := true, wakeAt := 5 }), by decide +kernel⟩⟩

theorem witness_MemoryScrub_4 :
    (∃ s : State, ((Instr.bankWakeComplete ((pgEccC 2) : Nat) 3 3).wf = true) ∧ (s.calm = true) ∧ ((s.bankUse ((pgEccC 2) : Nat) 3 ≠ 3 ∨ 3 < s.bankReadyAt ((pgEccC 2) : Nat) 3)))
    ∧ (∃ s : State, ((Instr.eccFlipCfg .basecamp ((pgEccC 2) : Nat) 0xA5043011 9).wf = true) ∧ (s.calm = true) ∧ (pageAt ((pgEccC 2) : Nat) = some ((.eccC : Kind), 2)) ∧ ((.eccC : Kind) ≠ .eccD) ∧ (s.mayWrite .basecamp ((pgEccC 2) : Nat) (.eccC : Kind) = true) ∧ (s.powered ((pgEccC 2) : Nat) = true) ∧ ((s.pageH ((pgEccC 2) : Nat)).resetting = false) ∧ (s.locked ((pgEccC 2) : Nat) = false))
    ∧ (∃ s : State, ((Instr.eccFlipCfg .basecamp pgEccD 0x8F4FF0AA 9).wf = true) ∧ (s.calm = true) ∧ (s.mayWrite .basecamp pgEccD .eccD = true) ∧ (s.powered pgEccD = true) ∧ ((s.pageH pgEccD).resetting = false) ∧ (s.locked pgEccD = false)) :=
    ⟨⟨((State.reset.setFld (pgEccC 2) 0x048 7 6 3).setBank (pgEccC 2) 3 { inited := true, wakeAt := 5 }), by decide +kernel⟩,
    ⟨State.reset, by decide +kernel⟩,
    ⟨State.reset, by decide +kernel⟩⟩

theorem witness_Watchdogs_1 :
    (∃ s : State, ((Instr.wdgSvc ((.tile 5 0) : Writer) ((pgWdgT 5) : Nat) 0xA5C3 9).wf = true) ∧ (s.calm = true) ∧ (pageAt ((pgWdgT 5) : Nat) = some ((.wdgT : Kind), 5)) ∧ (s.mayWrite ((.tile 5 0) : Writer) ((pgWdgT 5) : Nat) (.wdgT : Kind) = true) ∧ (s.powered ((pgWdgT 5) : Nat) = true) ∧ ((s.pageH ((pgWdgT 5) : Nat)).resetting = false) ∧ (s.wdgParty ((.tile 5 0) : Writer) ((pgWdgT 5) : Nat) = true) ∧ (s.retired ((pgWdgT 5) : Nat) = false) ∧ ((s.wstate ((pgWdgT 5) : Nat) = 0 ∨ s.wstate ((pgWdgT 5) : Nat) = 2 ∨ s.wstate ((pgWdgT 5) : Nat) = 4)) ∧ (s.fld ((pgWdgT 5) : Nat) 0x04C 15 0 &&& s.fld ((pgWdgT 5) : Nat) 0x05C 15 0 = s.fld ((pgWdgT 5) : Nat) 0x04C 15 0))
    ∧ (∃ s : State, ((Instr.wdgSvc ((.tile 5 0) : Writer) ((pgWdgT 5) : Nat) 1 9).wf = true) ∧ (s.calm = true) ∧ (s.mayWrite ((.tile 5 0) : Writer) ((pgWdgT 5) : Nat) (.wdgT : Kind) = true) ∧ (s.powered ((pgWdgT 5) : Nat) = true) ∧ ((s.pageH ((pgWdgT 5) : Nat)).resetting = false) ∧ (s.wdgParty ((.tile 5 0) : Writer) ((pgWdgT 5) : Nat) = true) ∧ (1 ≠ 0xA5C3) ∧ (s.retired ((pgWdgT 5) : Nat) = false) ∧ ((s.wstate ((pgWdgT 5) : Nat) = 0 ∨ s.wstate ((pgWdgT 5) : Nat) = 1 ∨ s.wstate ((pgWdgT 5) : Nat) = 2)) ∧ (pageAt ((pgWdgT 5) : Nat) = some ((.wdgT : Kind), 5)) ∧ ((.wdgT : Kind) = .wdgT) ∧ (s.getB ((pgWdgT 5) : Nat) 0x040 31 = false))
    ∧ (∃ s : State, ((Instr.wdgSvc ((.tile 25 1) : Writer) ((pgWdgC 3) : Nat) 1 9).wf = true) ∧ (s.calm = true) ∧ (s.mayWrite ((.tile 25 1) : Writer) ((pgWdgC 3) : Nat) (.wdgC : Kind) = true) ∧ (s.powered ((pgWdgC 3) : Nat) = true) ∧ ((s.pageH ((pgWdgC 3) : Nat)).resetting = false) ∧ (s.wdgParty ((.tile 25 1) : Writer) ((pgWdgC 3) : Nat) = true) ∧ (1 ≠ 0xA5C3) ∧ (s.retired ((pgWdgC 3) : Nat) = false) ∧ ((s.wstate ((pgWdgC 3) : Nat) = 0 ∨ s.wstate ((pgWdgC 3) : Nat) = 1 ∨ s.wstate ((pgWdgC 3) : Nat) = 2)) ∧ (pageAt ((pgWdgC 3) : Nat) = some ((.wdgC : Kind), 3)) ∧ ((.wdgC : Kind) = .wdgC) ∧ (s.getB ((pgWdgC 3) : Nat) 0x040 31 = false))
    ∧ (∃ s : State, ((Instr.wdgSvc .basecamp ((pgWdgB) : Nat) 1 9).wf = true) ∧ (s.calm = true) ∧ (s.mayWrite .basecamp ((pgWdgB) : Nat) (.wdgB : Kind) = true) ∧ (s.powered ((pgWdgB) : Nat) = true) ∧ ((s.pageH ((pgWdgB) : Nat)).resetting = false) ∧ (s.wdgParty .basecamp ((pgWdgB) : Nat) = true) ∧ (1 ≠ 0xA5C3) ∧ (s.retired ((pgWdgB) : Nat) = false) ∧ ((s.wstate ((pgWdgB) : Nat) = 0 ∨ s.wstate ((pgWdgB) : Nat) = 1 ∨ s.wstate ((pgWdgB) : Nat) = 2)) ∧ (pageAt ((pgWdgB) : Nat) = some ((.wdgB : Kind), 0)) ∧ ((.wdgB : Kind) = .wdgB) ∧ (s.getB ((pgWdgB) : Nat) 0x040 31 = false))
    ∧ (∃ s : State, ((Instr.wdgSvc ((.tile 5 0) : Writer) ((pgWdgT 5) : Nat) 1 9).wf = true) ∧ (s.calm = true) ∧ (pageAt ((pgWdgT 5) : Nat) = some ((.wdgT : Kind), 5)) ∧ (s.mayWrite ((.tile 5 0) : Writer) ((pgWdgT 5) : Nat) (.wdgT : Kind) = true) ∧ (s.powered ((pgWdgT 5) : Nat) = true) ∧ ((s.pageH ((pgWdgT 5) : Nat)).resetting = false) ∧ (s.wdgParty ((.tile 5 0) : Writer) ((pgWdgT 5) : Nat) = true) ∧ (1 ≠ 0xA5C3) ∧ (s.retired ((pgWdgT 5) : Nat) = false) ∧ ((s.wstate ((pgWdgT 5) : Nat) = 0 ∨ s.wstate ((pgWdgT 5) : Nat) = 1 ∨ s.wstate ((pgWdgT 5) : Nat) = 2)) ∧ (s.getB ((pgWdgT 5) : Nat) 0x040 31 = true))
    ∧ (∃ s : State, ((Instr.wdgSvc ((.tile 5 0) : Writer) ((pgWdgT 5) : Nat) 0xA5C3 9).wf = true) ∧ (s.calm = true) ∧ (s.mayWrite ((.tile 5 0) : Writer) ((pgWdgT 5) : Nat) (.wdgT : Kind) = true) ∧ (s.powered ((pgWdgT 5) : Nat) = true) ∧ ((s.pageH ((pgWdgT 5) : Nat)).resetting = false) ∧ (s.wdgParty ((.tile 5 0) : Writer) ((pgWdgT 5) : Nat) = true) ∧ (s.retired ((pgWdgT 5) : Nat) = false) ∧ (s.wstate ((pgWdgT 5) : Nat) = 1) ∧ (pageAt ((pgWdgT 5) : Nat) = some ((.wdgT : Kind), 5)) ∧ ((.wdgT : Kind) = .wdgT) ∧ (s.getB ((pgWdgT 5) : Nat) 0x040 31 = false)) :=
    ⟨⟨((State.reset.wr (pgWdgT 5) 8 1).setFld (pgWdgT 5) 0x05C 31 29 2), by decide +kernel⟩,
    ⟨((State.reset.wr (pgWdgT 5) 8 1).setFld (pgWdgT 5) 0x05C 31 29 2), by decide +kernel⟩,
    ⟨((State.reset.wr (pgWdgC 3) 8 1).setFld (pgWdgC 3) 0x05C 31 29 2), by decide +kernel⟩,
    ⟨((State.reset.wr (pgWdgB) 8 1).setFld (pgWdgB) 0x05C 31 29 2), by decide +kernel⟩,
    ⟨(((State.reset.wr (pgWdgT 5) 8 1).setFld (pgWdgT 5) 0x05C 31 29 2).wr (pgWdgT 5) 0x040 0x80000064), by decide +kernel⟩,
    ⟨((State.reset.wr (pgWdgT 5) 8 1).setFld (pgWdgT 5) 0x05C 31 29 1), by decide +kernel⟩⟩

theorem witness_Watchdogs_2 :
    (∃ s : State, ((Instr.wdgSvc ((.tile 25 1) : Writer) ((pgWdgC 3) : Nat) 0xA5C3 9).wf = true) ∧ (s.calm = true) ∧ (s.mayWrite ((.tile 25 1) : Writer) ((pgWdgC 3) : Nat) (.wdgC : Kind) = true) ∧ (s.powered ((pgWdgC 3) : Nat) = true) ∧ ((s.pageH ((pgWdgC 3) : Nat)).resetting = false) ∧ (s.wdgParty ((.tile 25 1) : Writer) ((pgWdgC 3) : Nat) = true) ∧ (s.retired ((pgWdgC 3) : Nat) = false) ∧ (s.wstate ((pgWdgC 3) : Nat) = 1) ∧ (pageAt ((pgWdgC 3) : Nat) = some ((.wdgC : Kind), 3)) ∧ ((.wdgC : Kind) = .wdgC) ∧ (s.getB ((pgWdgC 3) : Nat) 0x040 31 = false))
    ∧ (∃ s : State, ((Instr.wdgSvc .basecamp ((pgWdgB) : Nat) 0xA5C3 9).wf = true) ∧ (s.calm = true) ∧ (s.mayWrite .basecamp ((pgWdgB) : Nat) (.wdgB : Kind) = true) ∧ (s.powered ((pgWdgB) : Nat) = true) ∧ ((s.pageH ((pgWdgB) : Nat)).resetting = false) ∧ (s.wdgParty .basecamp ((pgWdgB) : Nat) = true) ∧ (s.retired ((pgWdgB) : Nat) = false) ∧ (s.wstate ((pgWdgB) : Nat) = 1) ∧ (pageAt ((pgWdgB) : Nat) = some ((.wdgB : Kind), 0)) ∧ ((.wdgB : Kind) = .wdgB) ∧ (s.getB ((pgWdgB) : Nat) 0x040 31 = false))
    ∧ (∃ s : State, ((Instr.wdgSvc ((.tile 5 0) : Writer) ((pgWdgT 5) : Nat) 0xA5C3 9).wf = true) ∧ (s.calm = true) ∧ (pageAt ((pgWdgT 5) : Nat) = some ((.wdgT : Kind), 5)) ∧ (s.mayWrite ((.tile 5 0) : Writer) ((pgWdgT 5) : Nat) (.wdgT : Kind) = true) ∧ (s.powered ((pgWdgT 5) : Nat) = true) ∧ ((s.pageH ((pgWdgT 5) : Nat)).resetting = false) ∧ (s.wdgParty ((.tile 5 0) : Writer) ((pgWdgT 5) : Nat) = true) ∧ (s.retired ((pgWdgT 5) : Nat) = false) ∧ (s.wstate ((pgWdgT 5) : Nat) = 1) ∧ (s.getB ((pgWdgT 5) : Nat) 0x040 31 = true))
    ∧ (∃ s : State, ((Instr.wdgSvc ((.tile 5 0) : Writer) ((pgWdgT 5) : Nat) 0xA5C3 9).wf = true) ∧ (s.calm = true) ∧ (s.mayWrite ((.tile 5 0) : Writer) ((pgWdgT 5) : Nat) (.wdgT : Kind) = true) ∧ (s.powered ((pgWdgT 5) : Nat) = true) ∧ ((s.pageH ((pgWdgT 5) : Nat)).resetting = false) ∧ (s.wdgParty ((.tile 5 0) : Writer) ((pgWdgT 5) : Nat) = true) ∧ (s.fld ((pgWdgT 5) : Nat) 0x04C 15 0 &&& s.fld ((pgWdgT 5) : Nat) 0x05C 15 0 ≠ s.fld ((pgWdgT 5) : Nat) 0x04C 15 0) ∧ (s.retired ((pgWdgT 5) : Nat) = false) ∧ ((s.wstate ((pgWdgT 5) : Nat) = 0 ∨ s.wstate ((pgWdgT 5) : Nat) = 2)) ∧ (pageAt ((pgWdgT 5) : Nat) = some ((.wdgT : Kind), 5)) ∧ ((.wdgT : Kind) = .wdgT) ∧ (s.getB ((pgWdgT 5) : Nat) 0x040 31 = false))
    ∧ (∃ s : State, ((Instr.wdgSvc ((.tile 25 1) : Writer) ((pgWdgC 3) : Nat) 0xA5C3 9).wf = true) ∧ (s.calm = true) ∧ (s.mayWrite ((.tile 25 1) : Writer) ((pgWdgC 3) : Nat) (.wdgC : Kind) = true) ∧ (s.powered ((pgWdgC 3) : Nat) = true) ∧ ((s.pageH ((pgWdgC 3) : Nat)).resetting = false) ∧ (s.wdgParty ((.tile 25 1) : Writer) ((pgWdgC 3) : Nat) = true) ∧ (s.fld ((pgWdgC 3) : Nat) 0x04C 15 0 &&& s.fld ((pgWdgC 3) : Nat) 0x05C 15 0 ≠ s.fld ((pgWdgC 3) : Nat) 0x04C 15 0) ∧ (s.retired ((pgWdgC 3) : Nat) = false) ∧ ((s.wstate ((pgWdgC 3) : Nat) = 0 ∨ s.wstate ((pgWdgC 3) : Nat) = 2)) ∧ (pageAt ((pgWdgC 3) : Nat) = some ((.wdgC : Kind), 3)) ∧ ((.wdgC : Kind) = .wdgC) ∧ (s.getB ((pgWdgC 3) : Nat) 0x040 31 = false))
    ∧ (∃ s : State, ((Instr.wdgSvc .basecamp ((pgWdgB) : Nat) 0xA5C3 9).wf = true) ∧ (s.calm = true) ∧ (s.mayWrite .basecamp ((pgWdgB) : Nat) (.wdgB : Kind) = true) ∧ (s.powered ((pgWdgB) : Nat) = true) ∧ ((s.pageH ((pgWdgB) : Nat)).resetting = false) ∧ (s.wdgParty .basecamp ((pgWdgB) : Nat) = true) ∧ (s.fld ((pgWdgB) : Nat) 0x04C 15 0 &&& s.fld ((pgWdgB) : Nat) 0x05C 15 0 ≠ s.fld ((pgWdgB) : Nat) 0x04C 15 0) ∧ (s.retired ((pgWdgB) : Nat) = false) ∧ ((s.wstate ((pgWdgB) : Nat) = 0 ∨ s.wstate ((pgWdgB) : Nat) = 2)) ∧ (pageAt ((pgWdgB) : Nat) = some ((.wdgB : Kind), 0)) ∧ ((.wdgB : Kind) = .wdgB) ∧ (s.getB ((pgWdgB) : Nat) 0x040 31 = false)) :=
    ⟨⟨((State.reset.wr (pgWdgC 3) 8 1).setFld (pgWdgC 3) 0x05C 31 29 1), by decide +kernel⟩,
    ⟨((State.reset.wr (pgWdgB) 8 1).setFld (pgWdgB) 0x05C 31 29 1), by decide +kernel⟩,
    ⟨(((State.reset.wr (pgWdgT 5) 8 1).setFld (pgWdgT 5) 0x05C 31 29 1).wr (pgWdgT 5) 0x040 0x80000064), by decide +kernel⟩,
    ⟨(((State.reset.wr (pgWdgT 5) 8 1).setFld (pgWdgT 5) 0x05C 31 29 2).wr (pgWdgT 5) 0x04C 3), by decide +kernel⟩,
    ⟨(((State.reset.wr (pgWdgC 3) 8 1).setFld (pgWdgC 3) 0x05C 31 29 2).wr (pgWdgC 3) 0x04C 3), by decide +kernel⟩,
    ⟨(((State.reset.wr (pgWdgB) 8 1).setFld (pgWdgB) 0x05C 31 29 2).wr (pgWdgB) 0x04C 3), by decide +kernel⟩⟩

theorem witness_Watchdogs_3 :
    (∃ s : State, ((Instr.wdgSvc ((.tile 5 0) : Writer) ((pgWdgT 5) : Nat) 0xA5C3 9).wf = true) ∧ (s.calm = true) ∧ (pageAt ((pgWdgT 5) : Nat) = some ((.wdgT : Kind), 5)) ∧ (s.mayWrite ((.tile 5 0) : Writer) ((pgWdgT 5) : Nat) (.wdgT : Kind) = true) ∧ (s.powered ((pgWdgT 5) : Nat) = true) ∧ ((s.pageH ((pgWdgT 5) : Nat)).resetting = false) ∧ (s.wdgParty ((.tile 5 0) : Writer) ((pgWdgT 5) : Nat) = true) ∧ (s.fld ((pgWdgT 5) : Nat) 0x04C 15 0 &&& s.fld ((pgWdgT 5) : Nat) 0x05C 15 0 ≠ s.fld ((pgWdgT 5) : Nat) 0x04C 15 0) ∧ (s.retired ((pgWdgT 5) : Nat) = false) ∧ ((s.wstate ((pgWdgT 5) : Nat) = 0 ∨ s.wstate ((pgWdgT 5) : Nat) = 2)) ∧ (s.getB ((pgWdgT 5) : Nat) 0x040 31 = true))
    ∧ (∃ s : State, ((Instr.wdgSvc ((.tile 5 0) : Writer) ((pgWdgT 5) : Nat) 1 9).wf = true) ∧ (s.calm = true) ∧ (pageAt ((pgWdgT 5) : Nat) = some ((.wdgT : Kind), 5)) ∧ (s.mayWrite ((.tile 5 0) : Writer) ((pgWdgT 5) : Nat) (.wdgT : Kind) = true) ∧ (s.powered ((pgWdgT 5) : Nat) = true) ∧ ((s.pageH ((pgWdgT 5) : Nat)).resetting = false) ∧ (s.wdgParty ((.tile 5 0) : Writer) ((pgWdgT 5) : Nat) = true) ∧ (1 ≠ 0xA5C3) ∧ (s.retired ((pgWdgT 5) : Nat) = false) ∧ (s.wstate ((pgWdgT 5) : Nat) = 4) ∧ (pageAt ((pgWdgT 5) : Nat) = some ((.wdgT : Kind), 5)) ∧ ((.wdgT : Kind) = .wdgT) ∧ (s.retired (pgTile 5) = false) ∧ ((s.ready (pgTile 5) || s.busy (pgTile 5)) = true) ∧ ((s.pageH (pgTile 5)).resetting = false) ∧ (s.getB (pgTile 5) 0x040 29 = false))
    ∧ (∃ s : State, ((Instr.wdgSvc ((.tile 5 0) : Writer) ((pgWdgT 5) : Nat) 0xA5C3 9).wf = true) ∧ (s.calm = true) ∧ (pageAt ((pgWdgT 5) : Nat) = some ((.wdgT : Kind), 5)) ∧ (s.mayWrite ((.tile 5 0) : Writer) ((pgWdgT 5) : Nat) (.wdgT : Kind) = true) ∧ (s.powered ((pgWdgT 5) : Nat) = true) ∧ ((s.pageH ((pgWdgT 5) : Nat)).resetting = false) ∧ (s.wdgParty ((.tile 5 0) : Writer) ((pgWdgT 5) : Nat) = true) ∧ (s.retired ((pgWdgT 5) : Nat) = false) ∧ (s.wstate ((pgWdgT 5) : Nat) = 3))
    ∧ (∃ s : State, ((Instr.wdgSvc ((.tile 5 0) : Writer) ((pgWdgT 5) : Nat) 0xA5C3 9).wf = true) ∧ (s.calm = true) ∧ (pageAt ((pgWdgT 5) : Nat) = some ((.wdgT : Kind), 5)) ∧ (s.mayWrite ((.tile 5 0) : Writer) ((pgWdgT 5) : Nat) (.wdgT : Kind) = true) ∧ (s.powered ((pgWdgT 5) : Nat) = true) ∧ ((s.pageH ((pgWdgT 5) : Nat)).resetting = false) ∧ (s.wdgParty ((.tile 5 0) : Writer) ((pgWdgT 5) : Nat) = true) ∧ ((s.wstate ((pgWdgT 5) : Nat) = 5 ∨ s.retired ((pgWdgT 5) : Nat) = true)))
    ∧ (∃ s : State, ((Instr.wdgSvc .basecamp ((pgWdgT 5) : Nat) 1 9).wf = true) ∧ (s.calm = true) ∧ (pageAt ((pgWdgT 5) : Nat) = some ((.wdgT : Kind), 5)) ∧ (s.mayWrite .basecamp ((pgWdgT 5) : Nat) (.wdgT : Kind) = true) ∧ (s.powered ((pgWdgT 5) : Nat) = true) ∧ ((s.pageH ((pgWdgT 5) : Nat)).resetting = false) ∧ (s.wdgParty .basecamp ((pgWdgT 5) : Nat) = false))
    ∧ (∃ s : State, ((Instr.wdgCheckin ((.tile 5 0) : Writer) ((pgWdgT 5) : Nat) 15 9).wf = true) ∧ (s.calm = true) ∧ (pageAt ((pgWdgT 5) : Nat) = some ((.wdgT : Kind), 5)) ∧ (s.mayWrite ((.tile 5 0) : Writer) ((pgWdgT 5) : Nat) (.wdgT : Kind) = true) ∧ (s.powered ((pgWdgT 5) : Nat) = true) ∧ ((s.pageH ((pgWdgT 5) : Nat)).resetting = false) ∧ (s.wdgParty ((.tile 5 0) : Writer) ((pgWdgT 5) : Nat) = true) ∧ (s.retired ((pgWdgT 5) : Nat) = false) ∧ (s.wstate ((pgWdgT 5) : Nat) ≠ 3) ∧ (s.wstate ((pgWdgT 5) : Nat) ≠ 5) ∧ (s.getB ((pgWdgT 5) : Nat) 0x04C 15 = true) ∧ (s.getB ((pgWdgT 5) : Nat) 0x05C 15 = false)) :=
    ⟨⟨((((State.reset.wr (pgWdgT 5) 8 1).setFld (pgWdgT 5) 0x05C 31 29 2).wr (pgWdgT 5) 0x040 0x80000064).wr (pgWdgT 5) 0x04C 3), by decide +kernel⟩,
    ⟨(((State.reset.wr (pgWdgT 5) 8 1).setFld (pgWdgT 5) 0x05C 31 29 4).wr (pgTile 5) 8 1), by decide +kernel⟩,
    ⟨((State.reset.wr (pgWdgT 5) 8 1).setFld (pgWdgT 5) 0x05C 31 29 3), by decide +kernel⟩,
    ⟨((State.reset.wr (pgWdgT 5) 8 1).setFld (pgWdgT 5) 0x05C 31 29 5), by decide +kernel⟩,
    ⟨((State.reset.wr (pgWdgT 5) 8 1).setFld (pgWdgT 5) 0x05C 31 29 2), by decide +kernel⟩,
    ⟨(((State.reset.wr (pgWdgT 5) 8 1).setFld (pgWdgT 5) 0x05C 31 29 2).wr (pgWdgT 5) 0x04C 0x8000), by decide +kernel⟩⟩

theorem witness_Watchdogs_4 :
    (∃ s : State, ((Instr.wdgCheckin ((.tile 5 0) : Writer) ((pgWdgT 5) : Nat) 1 9).wf = true) ∧ (s.calm = true) ∧ (s.mayWrite ((.tile 5 0) : Writer) ((pgWdgT 5) : Nat) (.wdgT : Kind) = true) ∧ (s.powered ((pgWdgT 5) : Nat) = true) ∧ ((s.pageH ((pgWdgT 5) : Nat)).resetting = false) ∧ (s.wdgParty ((.tile 5 0) : Writer) ((pgWdgT 5) : Nat) = true) ∧ (s.getB ((pgWdgT 5) : Nat) 0x04C 1 = false) ∧ (s.retired ((pgWdgT 5) : Nat) = false) ∧ ((s.wstate ((pgWdgT 5) : Nat) = 0 ∨ s.wstate ((pgWdgT 5) : Nat) = 1 ∨ s.wstate ((pgWdgT 5) : Nat) = 2)) ∧ (pageAt ((pgWdgT 5) : Nat) = some ((.wdgT : Kind), 5)) ∧ ((.wdgT : Kind) = .wdgT) ∧ (s.getB ((pgWdgT 5) : Nat) 0x040 31 = false))
    ∧ (∃ s : State, ((Instr.wdgCheckin ((.tile 25 1) : Writer) ((pgWdgC 3) : Nat) 1 9).wf = true) ∧ (s.calm = true) ∧ (s.mayWrite ((.tile 25 1) : Writer) ((pgWdgC 3) : Nat) (.wdgC : Kind) = true) ∧ (s.powered ((pgWdgC 3) : Nat) = true) ∧ ((s.pageH ((pgWdgC 3) : Nat)).resetting = false) ∧ (s.wdgParty ((.tile 25 1) : Writer) ((pgWdgC 3) : Nat) = true) ∧ (s.getB ((pgWdgC 3) : Nat) 0x04C 1 = false) ∧ (s.retired ((pgWdgC 3) : Nat) = false) ∧ ((s.wstate ((pgWdgC 3) : Nat) = 0 ∨ s.wstate ((pgWdgC 3) : Nat) = 1 ∨ s.wstate ((pgWdgC 3) : Nat) = 2)) ∧ (pageAt ((pgWdgC 3) : Nat) = some ((.wdgC : Kind), 3)) ∧ ((.wdgC : Kind) = .wdgC) ∧ (s.getB ((pgWdgC 3) : Nat) 0x040 31 = false))
    ∧ (∃ s : State, ((Instr.wdgCheckin .basecamp ((pgWdgB) : Nat) 1 9).wf = true) ∧ (s.calm = true) ∧ (s.mayWrite .basecamp ((pgWdgB) : Nat) (.wdgB : Kind) = true) ∧ (s.powered ((pgWdgB) : Nat) = true) ∧ ((s.pageH ((pgWdgB) : Nat)).resetting = false) ∧ (s.wdgParty .basecamp ((pgWdgB) : Nat) = true) ∧ (s.getB ((pgWdgB) : Nat) 0x04C 1 = false) ∧ (s.retired ((pgWdgB) : Nat) = false) ∧ ((s.wstate ((pgWdgB) : Nat) = 0 ∨ s.wstate ((pgWdgB) : Nat) = 1 ∨ s.wstate ((pgWdgB) : Nat) = 2)) ∧ (pageAt ((pgWdgB) : Nat) = some ((.wdgB : Kind), 0)) ∧ ((.wdgB : Kind) = .wdgB) ∧ (s.getB ((pgWdgB) : Nat) 0x040 31 = false))
    ∧ (∃ s : State, ((Instr.wdgCheckin ((.tile 5 0) : Writer) ((pgWdgT 5) : Nat) 1 9).wf = true) ∧ (s.calm = true) ∧ (pageAt ((pgWdgT 5) : Nat) = some ((.wdgT : Kind), 5)) ∧ (s.mayWrite ((.tile 5 0) : Writer) ((pgWdgT 5) : Nat) (.wdgT : Kind) = true) ∧ (s.powered ((pgWdgT 5) : Nat) = true) ∧ ((s.pageH ((pgWdgT 5) : Nat)).resetting = false) ∧ (s.wdgParty ((.tile 5 0) : Writer) ((pgWdgT 5) : Nat) = true) ∧ (s.getB ((pgWdgT 5) : Nat) 0x04C 1 = false) ∧ (s.retired ((pgWdgT 5) : Nat) = false) ∧ ((s.wstate ((pgWdgT 5) : Nat) = 0 ∨ s.wstate ((pgWdgT 5) : Nat) = 1 ∨ s.wstate ((pgWdgT 5) : Nat) = 2)) ∧ (s.getB ((pgWdgT 5) : Nat) 0x040 31 = true))
    ∧ (∃ s : State, ((Instr.wdgCheckin ((.tile 5 0) : Writer) ((pgWdgT 5) : Nat) 1 9).wf = true) ∧ (s.calm = true) ∧ (s.mayWrite ((.tile 5 0) : Writer) ((pgWdgT 5) : Nat) (.wdgT : Kind) = true) ∧ (s.powered ((pgWdgT 5) : Nat) = true) ∧ ((s.pageH ((pgWdgT 5) : Nat)).resetting = false) ∧ (s.wdgParty ((.tile 5 0) : Writer) ((pgWdgT 5) : Nat) = true) ∧ (s.getB ((pgWdgT 5) : Nat) 0x04C 1 = true) ∧ (s.getB ((pgWdgT 5) : Nat) 0x05C 1 = true) ∧ (s.retired ((pgWdgT 5) : Nat) = false) ∧ ((s.wstate ((pgWdgT 5) : Nat) = 0 ∨ s.wstate ((pgWdgT 5) : Nat) = 1 ∨ s.wstate ((pgWdgT 5) : Nat) = 2)) ∧ (pageAt ((pgWdgT 5) : Nat) = some ((.wdgT : Kind), 5)) ∧ ((.wdgT : Kind) = .wdgT) ∧ (s.getB ((pgWdgT 5) : Nat) 0x040 31 = false))
    ∧ (∃ s : State, ((Instr.wdgCheckin ((.tile 25 1) : Writer) ((pgWdgC 3) : Nat) 1 9).wf = true) ∧ (s.calm = true) ∧ (s.mayWrite ((.tile 25 1) : Writer) ((pgWdgC 3) : Nat) (.wdgC : Kind) = true) ∧ (s.powered ((pgWdgC 3) : Nat) = true) ∧ ((s.pageH ((pgWdgC 3) : Nat)).resetting = false) ∧ (s.wdgParty ((.tile 25 1) : Writer) ((pgWdgC 3) : Nat) = true) ∧ (s.getB ((pgWdgC 3) : Nat) 0x04C 1 = true) ∧ (s.getB ((pgWdgC 3) : Nat) 0x05C 1 = true) ∧ (s.retired ((pgWdgC 3) : Nat) = false) ∧ ((s.wstate ((pgWdgC 3) : Nat) = 0 ∨ s.wstate ((pgWdgC 3) : Nat) = 1 ∨ s.wstate ((pgWdgC 3) : Nat) = 2)) ∧ (pageAt ((pgWdgC 3) : Nat) = some ((.wdgC : Kind), 3)) ∧ ((.wdgC : Kind) = .wdgC) ∧ (s.getB ((pgWdgC 3) : Nat) 0x040 31 = false)) :=
    ⟨⟨((State.reset.wr (pgWdgT 5) 8 1).setFld (pgWdgT 5) 0x05C 31 29 2), by decide +kernel⟩,
    ⟨((State.reset.wr (pgWdgC 3) 8 1).setFld (pgWdgC 3) 0x05C 31 29 2), by decide +kernel⟩,
    ⟨((State.reset.wr (pgWdgB) 8 1).setFld (pgWdgB) 0x05C 31 29 2), by decide +kernel⟩,
    ⟨(((State.reset.wr (pgWdgT 5) 8 1).setFld (pgWdgT 5) 0x05C 31 29 2).wr (pgWdgT 5) 0x040 0x80000064), by decide +kernel⟩,
    ⟨((((State.reset.wr (pgWdgT 5) 8 1).setFld (pgWdgT 5) 0x05C 31 29 2).wr (pgWdgT 5) 0x04C 2).setFld (pgWdgT 5) 0x05C 15 0 2), by decide +kernel⟩,
    ⟨((((State.reset.wr (pgWdgC 3) 8 1).setFld (pgWdgC 3) 0x05C 31 29 2).wr (pgWdgC 3) 0x04C 2).setFld (pgWdgC 3) 0x05C 15 0 2), by decide +kernel⟩⟩

theorem witness_Watchdogs_5 :
    (∃ s : State, ((Instr.wdgCheckin .basecamp ((pgWdgB) : Nat) 1 9).wf = true) ∧ (s.calm = true) ∧ (s.mayWrite .basecamp ((pgWdgB) : Nat) (.wdgB : Kind) = true) ∧ (s.powered ((pgWdgB) : Nat) = true) ∧ ((s.pageH ((pgWdgB) : Nat)).resetting = false) ∧ (s.wdgParty .basecamp ((pgWdgB) : Nat) = true) ∧ (s.getB ((pgWdgB) : Nat) 0x04C 1 = true) ∧ (s.getB ((pgWdgB) : Nat) 0x05C 1 = true) ∧ (s.retired ((pgWdgB) : Nat) = false) ∧ ((s.wstate ((pgWdgB) : Nat) = 0 ∨ s.wstate ((pgWdgB) : Nat) = 1 ∨ s.wstate ((pgWdgB) : Nat) = 2)) ∧ (pageAt ((pgWdgB) : Nat) = some ((.wdgB : Kind), 0)) ∧ ((.wdgB : Kind) = .wdgB) ∧ (s.getB ((pgWdgB) : Nat) 0x040 31 = false))
    ∧ (∃ s : State, ((Instr.wdgCheckin ((.tile 5 0) : Writer) ((pgWdgT 5) : Nat) 1 9).wf = true) ∧ (s.calm = true) ∧ (pageAt ((pgWdgT 5) : Nat) = some ((.wdgT : Kind), 5)) ∧ (s.mayWrite ((.tile 5 0) : Writer) ((pgWdgT 5) : Nat) (.wdgT : Kind) = true) ∧ (s.powered ((pgWdgT 5) : Nat) = true) ∧ ((s.pageH ((pgWdgT 5) : Nat)).resetting = false) ∧ (s.wdgParty ((.tile 5 0) : Writer) ((pgWdgT 5) : Nat) = true) ∧ (s.getB ((pgWdgT 5) : Nat) 0x04C 1 = true) ∧ (s.getB ((pgWdgT 5) : Nat) 0x05C 1 = true) ∧ (s.retired ((pgWdgT 5) : Nat) = false) ∧ ((s.wstate ((pgWdgT 5) : Nat) = 0 ∨ s.wstate ((pgWdgT 5) : Nat) = 1 ∨ s.wstate ((pgWdgT 5) : Nat) = 2)) ∧ (s.getB ((pgWdgT 5) : Nat) 0x040 31 = true))
    ∧ (∃ s : State, ((Instr.wdgCheckin ((.tile 5 0) : Writer) ((pgWdgT 5) : Nat) 1 9).wf = true) ∧ (s.calm = true) ∧ (pageAt ((pgWdgT 5) : Nat) = some ((.wdgT : Kind), 5)) ∧ (s.mayWrite ((.tile 5 0) : Writer) ((pgWdgT 5) : Nat) (.wdgT : Kind) = true) ∧ (s.powered ((pgWdgT 5) : Nat) = true) ∧ ((s.pageH ((pgWdgT 5) : Nat)).resetting = false) ∧ (s.wdgParty ((.tile 5 0) : Writer) ((pgWdgT 5) : Nat) = true) ∧ (s.getB ((pgWdgT 5) : Nat) 0x04C 1 = false) ∧ (s.retired ((pgWdgT 5) : Nat) = false) ∧ (s.wstate ((pgWdgT 5) : Nat) = 4) ∧ (pageAt ((pgWdgT 5) : Nat) = some ((.wdgT : Kind), 5)) ∧ ((.wdgT : Kind) = .wdgT) ∧ (s.retired (pgTile 5) = false) ∧ ((s.ready (pgTile 5) || s.busy (pgTile 5)) = true) ∧ ((s.pageH (pgTile 5)).resetting = false) ∧ (s.getB (pgTile 5) 0x040 29 = false))
    ∧ (∃ s : State, ((Instr.wdgCheckin ((.tile 5 0) : Writer) ((pgWdgT 5) : Nat) 1 9).wf = true) ∧ (s.calm = true) ∧ (pageAt ((pgWdgT 5) : Nat) = some ((.wdgT : Kind), 5)) ∧ (s.mayWrite ((.tile 5 0) : Writer) ((pgWdgT 5) : Nat) (.wdgT : Kind) = true) ∧ (s.powered ((pgWdgT 5) : Nat) = true) ∧ ((s.pageH ((pgWdgT 5) : Nat)).resetting = false) ∧ (s.wdgParty ((.tile 5 0) : Writer) ((pgWdgT 5) : Nat) = true) ∧ (s.retired ((pgWdgT 5) : Nat) = false) ∧ (s.wstate ((pgWdgT 5) : Nat) = 3))
    ∧ (∃ s : State, ((Instr.wdgCheckin ((.tile 5 0) : Writer) ((pgWdgT 5) : Nat) 1 9).wf = true) ∧ (s.calm = true) ∧ (pageAt ((pgWdgT 5) : Nat) = some ((.wdgT : Kind), 5)) ∧ (s.mayWrite ((.tile 5 0) : Writer) ((pgWdgT 5) : Nat) (.wdgT : Kind) = true) ∧ (s.powered ((pgWdgT 5) : Nat) = true) ∧ ((s.pageH ((pgWdgT 5) : Nat)).resetting = false) ∧ (s.wdgParty ((.tile 5 0) : Writer) ((pgWdgT 5) : Nat) = true) ∧ ((s.wstate ((pgWdgT 5) : Nat) = 5 ∨ s.retired ((pgWdgT 5) : Nat) = true)))
    ∧ (∃ s : State, ((Instr.wdgCheckin (.rope : Writer) ((pgWdgT 5) : Nat) 1 9).wf = true) ∧ (s.calm = true) ∧ (pageAt ((pgWdgT 5) : Nat) = some ((.wdgT : Kind), 5)) ∧ (s.mayWrite (.rope : Writer) ((pgWdgT 5) : Nat) (.wdgT : Kind) = true) ∧ (s.powered ((pgWdgT 5) : Nat) = true) ∧ ((s.pageH ((pgWdgT 5) : Nat)).resetting = false) ∧ (s.wdgParty (.rope : Writer) ((pgWdgT 5) : Nat) = false)) :=
    ⟨⟨((((State.reset.wr (pgWdgB) 8 1).setFld (pgWdgB) 0x05C 31 29 2).wr (pgWdgB) 0x04C 2).setFld (pgWdgB) 0x05C 15 0 2), by decide +kernel⟩,
    ⟨(((((State.reset.wr (pgWdgT 5) 8 1).setFld (pgWdgT 5) 0x05C 31 29 2).wr (pgWdgT 5) 0x040 0x80000064).wr (pgWdgT 5) 0x04C 2).setFld (pgWdgT 5) 0x05C 15 0 2), by decide +kernel⟩,
    ⟨(((State.reset.wr (pgWdgT 5) 8 1).setFld (pgWdgT 5) 0x05C 31 29 4).wr (pgTile 5) 8 1), by decide +kernel⟩,
    ⟨((State.reset.wr (pgWdgT 5) 8 1).setFld (pgWdgT 5) 0x05C 31 29 3), by decide +kernel⟩,
    ⟨((State.reset.wr (pgWdgT 5) 8 1).setFld (pgWdgT 5) 0x05C 31 29 5), by decide +kernel⟩,
    ⟨((State.reset.wr (pgWdgT 5) 8 1).setFld (pgWdgT 5) 0x05C 31 29 2), by decide +kernel⟩⟩

theorem witness_Watchdogs_6 :
    (∃ s : State, ((Instr.remainingExpiry (pgWdgB : Nat) 99999999999).wf = true) ∧ (s.calm = true) ∧ (s.wdgOver (pgWdgB : Nat) 99999999999 = true) ∧ (s.wstate (pgWdgB : Nat) = 1) ∧ ((s.ready (pgWdgB : Nat) || s.busy (pgWdgB : Nat)) = true) ∧ (s.faulted (pgWdgB : Nat) = false))
    ∧ (∃ s : State, ((Instr.remainingExpiry ((pgWdgT 5) : Nat) 99999999999).wf = true) ∧ (s.calm = true) ∧ (s.wdgOver ((pgWdgT 5) : Nat) 99999999999 = true) ∧ (s.retired ((pgWdgT 5) : Nat) = false) ∧ ((s.wstate ((pgWdgT 5) : Nat) = 0 ∨ s.wstate ((pgWdgT 5) : Nat) = 2)) ∧ (pageAt ((pgWdgT 5) : Nat) = some ((.wdgT : Kind), 5)) ∧ ((.wdgT : Kind) = .wdgT) ∧ (s.getB ((pgWdgT 5) : Nat) 0x040 31 = false))
    ∧ (∃ s : State, ((Instr.remainingExpiry ((pgWdgC 3) : Nat) 99999999999).wf = true) ∧ (s.calm = true) ∧ (s.wdgOver ((pgWdgC 3) : Nat) 99999999999 = true) ∧ (s.retired ((pgWdgC 3) : Nat) = false) ∧ ((s.wstate ((pgWdgC 3) : Nat) = 0 ∨ s.wstate ((pgWdgC 3) : Nat) = 2)) ∧ (pageAt ((pgWdgC 3) : Nat) = some ((.wdgC : Kind), 3)) ∧ ((.wdgC : Kind) = .wdgC) ∧ (s.getB ((pgWdgC 3) : Nat) 0x040 31 = false))
    ∧ (∃ s : State, ((Instr.remainingExpiry ((pgWdgB) : Nat) 99999999999).wf = true) ∧ (s.calm = true) ∧ (s.wdgOver ((pgWdgB) : Nat) 99999999999 = true) ∧ (s.retired ((pgWdgB) : Nat) = false) ∧ ((s.wstate ((pgWdgB) : Nat) = 0 ∨ s.wstate ((pgWdgB) : Nat) = 2)) ∧ (pageAt ((pgWdgB) : Nat) = some ((.wdgB : Kind), 0)) ∧ ((.wdgB : Kind) = .wdgB) ∧ (s.getB ((pgWdgB) : Nat) 0x040 31 = false))
    ∧ (∃ s : State, ((Instr.remainingExpiry ((pgWdgT 5) : Nat) 99999999999).wf = true) ∧ (s.calm = true) ∧ (s.wdgOver ((pgWdgT 5) : Nat) 99999999999 = true) ∧ (s.retired ((pgWdgT 5) : Nat) = false) ∧ ((s.wstate ((pgWdgT 5) : Nat) = 0 ∨ s.wstate ((pgWdgT 5) : Nat) = 2)) ∧ (s.getB ((pgWdgT 5) : Nat) 0x040 31 = true))
    ∧ (∃ s : State, ((Instr.remainingExpiry ((pgWdgT 3) : Nat) 99999999999).wf = true) ∧ (s.calm = true) ∧ (s.wdgOver ((pgWdgT 3) : Nat) 99999999999 = true) ∧ ((s.wstate ((pgWdgT 3) : Nat) = 3 ∨ s.wstate ((pgWdgT 3) : Nat) = 4)) ∧ (pageAt ((pgWdgT 3) : Nat) = some ((.wdgT : Kind), 3)) ∧ ((.wdgT : Kind) = .wdgT) ∧ (s.retired (pgTile 3) = false) ∧ ((s.ready (pgTile 3) || s.busy (pgTile 3)) = true) ∧ ((s.pageH (pgTile 3)).resetting = false) ∧ (s.getB (pgTile 3) 0x040 29 = false)) :=
    ⟨⟨((State.reset.wr pgWdgB 8 1).setFld pgWdgB 0x05C 31 29 1), by decide +kernel⟩,
    ⟨((State.reset.wr (pgWdgT 5) 8 1).setFld (pgWdgT 5) 0x05C 31 29 2), by decide +kernel⟩,
    ⟨((State.reset.wr (pgWdgC 3) 8 1).setFld (pgWdgC 3) 0x05C 31 29 2), by decide +kernel⟩,
    ⟨((State.reset.wr (pgWdgB) 8 1).setFld (pgWdgB) 0x05C 31 29 2), by decide +kernel⟩,
    ⟨(((State.reset.wr (pgWdgT 5) 8 1).setFld (pgWdgT 5) 0x05C 31 29 2).wr (pgWdgT 5) 0x040 0x80000064), by decide +kernel⟩,
    ⟨(((State.reset.wr (pgWdgT 3) 8 4).setFld (pgWdgT 3) 0x05C 31 29 3).wr (pgTile 3) 8 1), by decide +kernel⟩⟩

theorem witness_Watchdogs_7 :
    (∃ s : State, ((Instr.remainingExpiry ((pgWdgC 3) : Nat) 99999999999).wf = true) ∧ (s.calm = true) ∧ (s.wdgOver ((pgWdgC 3) : Nat) 99999999999 = true) ∧ ((s.wstate ((pgWdgC 3) : Nat) = 3 ∨ s.wstate ((pgWdgC 3) : Nat) = 4)) ∧ (pageAt ((pgWdgC 3) : Nat) = some ((.wdgC : Kind), 3)) ∧ ((.wdgC : Kind) = .wdgC) ∧ (∀ j ∈ List.range 8, s.retired (pgTile (8 * 3 + j)) = false))
    ∧ (∃ s : State, ((Instr.remainingExpiry (pgWdgB : Nat) 99999999999).wf = true) ∧ (s.calm = true) ∧ (s.wdgOver (pgWdgB : Nat) 99999999999 = true) ∧ ((s.wstate (pgWdgB : Nat) = 3 ∨ s.wstate (pgWdgB : Nat) = 4)) ∧ ((pgWdgB : Nat) = pgWdgB))
    ∧ (∃ s : State, ((Instr.remainingExpiry ((pgWdgC 3) : Nat) 5).wf = true) ∧ (s.calm = true) ∧ (s.wdgOver ((pgWdgC 3) : Nat) 5 = false))
    ∧ (∃ s : State, ((Instr.wakePoint ((pgWdgC 3) : Nat) 99999999999).wf = true) ∧ (s.calm = true) ∧ (s.wdgWakes ((pgWdgC 3) : Nat) 99999999999 = true) ∧ (s.pstate' ≠ 1) ∧ (s.pstate' ≠ 2))
    ∧ (∃ s : State, ((Instr.wakePoint ((pgWdgC 3) : Nat) 99999999999).wf = true) ∧ (s.calm = true) ∧ (s.wdgWakes ((pgWdgC 3) : Nat) 99999999999 = true) ∧ (s.pstate' = 1))
    ∧ (∃ s : State, ((Instr.wakePoint ((pgWdgC 3) : Nat) 99999999999).wf = true) ∧ (s.calm = true) ∧ (s.wdgWakes ((pgWdgC 3) : Nat) 99999999999 = true) ∧ (s.pstate' = 2)) :=
    ⟨⟨((State.reset.wr (pgWdgC 3) 8 4).setFld (pgWdgC 3) 0x05C 31 29 3), by decide +kernel⟩,
    ⟨((State.reset.wr pgWdgB 8 4).setFld pgWdgB 0x05C 31 29 3), by decide +kernel⟩,
    ⟨State.reset, by decide +kernel⟩,
    ⟨((State.reset.wr (pgWdgC 3) 8 1).wr (pgWdgC 3) 0x050 5), by decide +kernel⟩,
    ⟨({ ((State.reset.wr (pgWdgC 3) 8 1).wr (pgWdgC 3) 0x050 5) with bcp := { State.reset.bcp with pst := 1 } } : State), by decide +kernel⟩,
    ⟨({ ((State.reset.wr (pgWdgC 3) 8 1).wr (pgWdgC 3) 0x050 5) with bcp := { State.reset.bcp with pst := 2 } } : State), by decide +kernel⟩⟩

theorem witness_Watchdogs_8 :
    (∃ s : State, ((Instr.wakePoint ((pgWdgC 3) : Nat) 5).wf = true) ∧ (s.calm = true) ∧ (s.wdgWakes ((pgWdgC 3) : Nat) 5 = false))
    ∧ (∃ s : State, ((Instr.oscillatorFault 16 9).wf = true) ∧ (s.calm = true) ∧ (s.retired (pgWdgB : Nat) = false) ∧ ((s.wstate (pgWdgB : Nat) = 0 ∨ s.wstate (pgWdgB : Nat) = 1 ∨ s.wstate (pgWdgB : Nat) = 2)) ∧ (pageAt (pgWdgB : Nat) = some ((.wdgB : Kind), 0)) ∧ ((.wdgB : Kind) = .wdgB) ∧ (s.getB (pgWdgB : Nat) 0x040 31 = false) ∧ ((pgWdgB : Nat) = pgWdgB))
    ∧ (∃ s : State, ((Instr.oscillatorFault 16 9).wf = true) ∧ (s.calm = true) ∧ (s.wstate pgWdgB = 3 ∨ s.wstate pgWdgB = 5 ∨ s.retired pgWdgB = true))
    ∧ (∃ s : State, ((Instr.oscillatorFault 3 99).wf = true) ∧ (s.calm = true) ∧ (3 < 16) ∧ (∀ j ∈ List.range 9, s.wstate (if j = 8 then pgWdgC 3 else pgWdgT (8 * 3 + j)) ≠ 4 ∧ s.getB (if j = 8 then pgWdgC 3 else pgWdgT (8 * 3 + j)) 0x040 31 = false))
    ∧ (∃ s : State, ((Instr.counterOverflow 4 5 99).wf = true) ∧ (s.calm = true) ∧ (s.enabled (pgPmc 4) = true) ∧ (s.getB (pgPmc 4) 0x040 0 = false) ∧ (s.getB (pgPmc 4) (0x050 + 4 * 5) 31 = true) ∧ (pmcTimed (s.fld (pgPmc 4) (0x050 + 4 * 5) 7 0) = true) ∧ (s.getB (pgPmc 4) 0x040 1 = false))
    ∧ (∃ s : State, ((Instr.counterOverflow 4 5 99).wf = true) ∧ (s.calm = true) ∧ (s.enabled (pgPmc 4) = true) ∧ (s.getB (pgPmc 4) 0x040 0 = false) ∧ (s.getB (pgPmc 4) (0x050 + 4 * 5) 31 = true) ∧ (pmcTimed (s.fld (pgPmc 4) (0x050 + 4 * 5) 7 0) = true) ∧ (s.getB (pgPmc 4) 0x040 1 = true) ∧ (∀ j ∈ List.range 6, j ≠ 5 → s.getB (pgPmc 4) (0x050 + 4 * j) 31 = false)) :=
    ⟨⟨State.reset, by decide +kernel⟩,
    ⟨((State.reset.wr (pgWdgB) 8 1).setFld (pgWdgB) 0x05C 31 29 2), by decide +kernel⟩,
    ⟨(State.reset.setFld pgWdgB 0x05C 31 29 3), by decide +kernel⟩,
    ⟨((State.reset.wr (pgWdgC 3) 8 1).setFld (pgWdgT 25) 0x05C 31 29 2), by decide +kernel⟩,
    ⟨(((State.reset.wr (pgPmc 4) 0x00C 1).wr (pgPmc 4) 0x064 0x80000005).wr (pgPmc 4) 0x098 77), by decide +kernel⟩,
    ⟨(((State.reset.wr (pgPmc 4) 0x00C 1).wr (pgPmc 4) 0x064 0x80000005).wr (pgPmc 4) 0x040 2), by decide +kernel⟩⟩

theorem witness_Watchdogs_9 :
    (∃ s : State, ((Instr.counterOverflow 4 5 99).wf = true) ∧ (s.calm = true) ∧ ((s.enabled (pgPmc 4) = false ∨ s.getB (pgPmc 4) 0x040 0 = true)))
    ∧ (∃ s : State, ((Instr.counterOverflow 4 5 99).wf = true) ∧ (s.calm = true) ∧ ((s.getB (pgPmc 4) (0x050 + 4 * 5) 31 = false ∨ pmcTimed (s.fld (pgPmc 4) (0x050 + 4 * 5) 7 0) = false))) :=
    ⟨⟨(State.reset.wr (pgPmc 4) 0x00C 0), by decide +kernel⟩,
    ⟨((State.reset.wr (pgPmc 4) 0x00C 1).wr (pgPmc 4) 0x064 0x80000001), by decide +kernel⟩⟩

theorem witness_SelfTest_1 :
    (∃ s : State, ((Instr.sliceDue 7 3 64 9).wf = true) ∧ (s.calm = true) ∧ (s.ready pgBistM = false ∨ s.getB pgBistM 0x040 31 = false ∨ unitCount 7 ≤ 3 ∨ sliceCount 7 ≤ 64))
    ∧ (∃ s : State, ((Instr.sliceDue 7 3 63 9).wf = true) ∧ (s.calm = true) ∧ (s.ready pgBistM = true) ∧ (s.getB pgBistM 0x040 31 = true) ∧ (3 < unitCount 7) ∧ (63 < sliceCount 7) ∧ (7 = 7 ∨ 7 = 9) ∧ ((s.upTo 9).sliceCan 7 3 63 = true))
    ∧ (∃ s : State, ((Instr.sliceDue 5 9 47 9).wf = true) ∧ (s.calm = true) ∧ (s.ready pgBistM = true) ∧ (s.getB pgBistM 0x040 31 = true) ∧ (9 < unitCount 5) ∧ (47 < sliceCount 5) ∧ (5 = 5 ∨ 5 = 6) ∧ (5 = 5 → s.getB (pgTile 9) 0x040 29 = true) ∧ ((s.upTo 9).sliceCan 5 9 47 = true))
    ∧ (∃ s : State, ((Instr.sliceDue 6 9 13 9).wf = true) ∧ (s.calm = true) ∧ (s.ready pgBistM = true) ∧ (s.getB pgBistM 0x040 31 = true) ∧ (9 < unitCount 6) ∧ (13 < sliceCount 6) ∧ (6 = 5 ∨ 6 = 6) ∧ (6 = 5 → s.getB (pgTile 9) 0x040 29 = true) ∧ ((s.upTo 9).sliceCan 6 9 13 = true))
    ∧ (∃ s : State, ((Instr.sliceDue 8 3 63 9).wf = true) ∧ (s.calm = true) ∧ (s.ready pgBistM = true) ∧ (s.getB pgBistM 0x040 31 = true) ∧ (3 < unitCount 8) ∧ (63 < sliceCount 8) ∧ ((s.upTo 9).sliceCan 8 3 63 = true))
    ∧ (∃ s : State, ((Instr.sliceDue 1 127 5 9).wf = true) ∧ (s.calm = true) ∧ (s.ready pgBistM = true) ∧ (s.getB pgBistM 0x040 31 = true) ∧ (127 < unitCount 1) ∧ (5 < sliceCount 1) ∧ (1 ≤ 1) ∧ (1 ≤ 3) ∧ ((s.upTo 9).sliceCan 1 127 5 = true) ∧ (s.sliceIso 1 127 5 = true)) :=
    ⟨⟨((State.reset.wr pgBistM 8 1).wr (pgArs 3) 8 1), by decide +kernel⟩,
    ⟨((State.reset.wr pgBistM 8 1).wr (pgArs 3) 8 1), by decide +kernel⟩,
    ⟨(((State.reset.wr pgBistM 8 1).wr (pgTile 9) 8 1).setB (pgTile 9) 0x040 29 true), by decide +kernel⟩,
    ⟨(((State.reset.wr pgBistM 8 1).wr (pgTile 9) 8 1).setTile 9 { mode := 1, work := true, freeSize := 4 }), by decide +kernel⟩,
    ⟨(((State.reset.wr pgBistM 8 1).wr (pgTfe 3) 8 1).setEstate 3 1), by decide +kernel⟩,
    ⟨((((State.reset.wr pgBistM 8 1).setB (pgTile 127) 0x040 29 true).setBank (pgEccT 127) 0 { inited := true }).setByte (tileBase 127 + 5 * 4096) 7), by decide +kernel⟩⟩

theorem witness_SelfTest_2 :
    (∃ s : State, ((Instr.sliceDue 2 255 127 9).wf = true) ∧ (s.calm = true) ∧ (s.ready pgBistM = true) ∧ (s.getB pgBistM 0x040 31 = true) ∧ (255 < unitCount 2) ∧ (127 < sliceCount 2) ∧ (1 ≤ 2) ∧ (2 ≤ 2) ∧ ((s.upTo 9).sliceCan 2 255 127 = true) ∧ (s.sliceIso 2 255 127 = false))
    ∧ (∃ s : State, ((Instr.sliceDue 3 0 5 9).wf = true) ∧ (s.calm = true) ∧ (s.ready pgBistM = true) ∧ (s.getB pgBistM 0x040 31 = true) ∧ (0 < unitCount 3) ∧ (5 < sliceCount 3) ∧ ((s.upTo 9).sliceCan 3 0 5 = true) ∧ (s.sliceIso 3 0 5 = false))
    ∧ (∃ s : State, ((Instr.sliceDue 4 3 63 9).wf = true) ∧ (s.calm = true) ∧ (s.ready pgBistM = true) ∧ (s.getB pgBistM 0x040 31 = true) ∧ (3 < unitCount 4) ∧ (63 < sliceCount 4) ∧ ((s.upTo 9).sliceCan 4 3 63 = true))
    ∧ (∃ s : State, ((Instr.sliceDue 7 4 63 9).wf = true) ∧ (s.calm = true) ∧ (s.ready pgBistM = true) ∧ (s.getB pgBistM 0x040 31 = true) ∧ (4 < unitCount 7) ∧ (63 < sliceCount 7) ∧ (7 = 5 → s.getB (pgTile 4) 0x040 29 = true) ∧ ((s.upTo 9).sliceCan 7 4 63 = false) ∧ ((s.bistH (bistPage 7 4)).held.any (fun w => w.unit == 7 && w.inst == 4 && w.slice == 63) = false))
    ∧ (∃ s : State, ((Instr.sliceDue 7 4 63 9).wf = true) ∧ (s.ready pgBistM = true) ∧ (s.getB pgBistM 0x040 31 = true) ∧ (4 < unitCount 7) ∧ (63 < sliceCount 7) ∧ (7 = 5 → s.getB (pgTile 4) 0x040 29 = true) ∧ ((s.upTo 9).sliceCan 7 4 63 = false) ∧ ((s.bistH (bistPage 7 4)).held.any (fun w => w.unit == 7 && w.inst == 4 && w.slice == 63) = true))
    ∧ (∃ s : State, ((Instr.sliceDue 5 127 47 9).wf = true) ∧ (s.calm = true) ∧ (s.ready pgBistM = true) ∧ (s.getB pgBistM 0x040 31 = true) ∧ (127 < 128) ∧ (47 < 48) ∧ (s.getB (pgTile 127) 0x040 29 = false) ∧ (s.readySpare 127 = none)) :=
    ⟨⟨((((State.reset.wr pgBistM 8 1).setBank (pgEccC 15) 15 { inited := true }).setChk (clusterBase 16 - 3) 3).setChk (clusterBase 16 - 15) 16), by decide +kernel⟩,
    ⟨((((State.reset.wr pgBistM 8 1).setBank pgEccD 0 { inited := true }).setLineErr 325 [(3, 1), (4, 1), (5, 1), (6, 1), (70, 2)]).setLineErr 330 [(3, 1)]), by decide +kernel⟩,
    ⟨((State.reset.wr pgBistM 8 1).wr (pgArs 3) 8 1), by decide +kernel⟩,
    ⟨((State.reset.wr pgBistM 8 1).wr (pgArs 3) 8 1), by decide +kernel⟩,
    ⟨(((State.reset.wr pgBistM 8 1).wr (pgArs 3) 8 1).setBist (pgBistC 4) { held := [⟨7, 4, 63, 2⟩] }), by decide +kernel⟩,
    ⟨((State.reset.wr pgBistM 8 1).wr (pgArs 3) 8 1), by decide +kernel⟩⟩

theorem witness_SelfTest_3 :
    (∃ s : State, ((Instr.sliceDue 5 9 47 9).wf = true) ∧ (s.calm = true) ∧ (s.ready pgBistM = true) ∧ (s.getB pgBistM 0x040 31 = true) ∧ (9 < 128) ∧ (47 < 48) ∧ (s.getB (pgTile 9) 0x040 29 = false) ∧ (s.readySpare 9 = some 12))
    ∧ (∃ s : State, ((Instr.sliceEnd 7 3 9 1 0 0 9).wf = true) ∧ (s.calm = true) ∧ ((s.bistH (bistPage 7 3)).runs.find? (fun r => r.unit == 7 && r.inst == 3 && r.slice == 9) = none) ∧ (7 ≠ 9) ∧ ((s.pageH (logicPage 7 3)).ctrl = []))
    ∧ (∃ s : State, ((Instr.sliceEnd 7 3 9 1 17 5 9).wf = true) ∧ (s.calm = true) ∧ ((s.bistH (bistPage 7 3)).runs.find? (fun r => r.unit == 7 && r.inst == 3 && r.slice == 9) = some (⟨7, 3, 9, 5, false⟩ : BRun)) ∧ (9 ≤ (⟨7, 3, 9, 5, false⟩ : BRun).t0 + 6 * cyclesPerUs) ∧ (5 ≤ 7) ∧ (7 ≠ 8) ∧ ((7 = 7 → (s.arsView.all fun q => q.2.hold.isNone) = true)) ∧ ((7 = 9 → (s.frdH 3).cmd = none ∧ (s.frdH 3).queue = [])) ∧ ((s.pageH (logicPage 7 3)).ctrl = []) ∧ ((s.bistH (bistPage 7 3)).done 7 3 ≠ 9))
    ∧ (∃ s : State, ((Instr.sliceEnd 7 3 0 1 17 5 9).wf = true) ∧ (s.calm = true) ∧ ((s.bistH (bistPage 7 3)).runs.find? (fun r => r.unit == 7 && r.inst == 3 && r.slice == 0) = some (⟨7, 3, 0, 5, false⟩ : BRun)) ∧ (9 ≤ (⟨7, 3, 0, 5, false⟩ : BRun).t0 + 6 * cyclesPerUs) ∧ (5 ≤ 7) ∧ (7 ≠ 8) ∧ ((7 = 7 → (s.arsView.all fun q => q.2.hold.isNone) = true)) ∧ ((7 = 9 → (s.frdH 3).cmd = none ∧ (s.frdH 3).queue = [])) ∧ ((s.pageH (logicPage 7 3)).ctrl = []) ∧ ((s.bistH (bistPage 7 3)).done 7 3 = 0))
    ∧ (∃ s : State, ((Instr.sliceEnd 8 3 9 1 17 5 9).wf = true) ∧ (s.calm = true) ∧ ((s.bistH (pgBistC 3)).runs.find? (fun r => r.unit == 8 && r.inst == 3 && r.slice == 9) = some (⟨8, 3, 9, 5, false⟩ : BRun)) ∧ (9 ≤ (⟨8, 3, 9, 5, false⟩ : BRun).t0 + 6 * cyclesPerUs) ∧ (s.estate 3 = 4) ∧ ((s.pageH (pgTfe 3)).ctrl = []) ∧ ((s.bistH (pgBistC 3)).done 8 3 ≠ 9))
    ∧ (∃ s : State, ((Instr.sliceEnd 1 77 9 1 17 5 9).wf = true) ∧ (s.calm = true) ∧ ((s.bistH (bistPage 1 77)).runs.find? (fun r => r.unit == 1 && r.inst == 77 && r.slice == 9) = some (⟨1, 77, 9, 5, false⟩ : BRun)) ∧ (9 ≤ (⟨1, 77, 9, 5, false⟩ : BRun).t0 + 6 * cyclesPerUs) ∧ (1 ≤ 1) ∧ (1 ≤ 4) ∧ ((s.bistH (bistPage 1 77)).done 1 77 ≠ 9) ∧ ((s.banks.all fun q => q.2.want.isNone) = true)) :=
    ⟨⟨(((((State.reset.wr pgBistM 8 1).wr (pgTile 9) 8 1).wr (pgTile 12) 8 1).setB (pgTile 12) 0x040 29 true).setTile 9 { work := true }), by decide +kernel⟩,
    ⟨((State.reset.wr pgBistM 8 1).wr (pgArs 3) 8 1), by decide +kernel⟩,
    ⟨((((State.reset.wr pgBistM 8 1).wr (pgArs 3) 8 1)).setBist (pgBistC 3) { runs := [⟨7, 3, 9, 5, false⟩] }), by decide +kernel⟩,
    ⟨((((State.reset.wr pgBistM 8 1).wr (pgArs 3) 8 1)).setBist (pgBistC 3) { runs := [⟨7, 3, 0, 5, false⟩] }), by decide +kernel⟩,
    ⟨((((State.reset.wr pgBistM 8 1).wr (pgArs 3) 8 1).setEstate 3 4).setBist (pgBistC 3) { runs := [⟨8, 3, 9, 5, false⟩] }), by decide +kernel⟩,
    ⟨((((State.reset.wr pgBistM 8 1).wr (pgArs 3) 8 1)).setBist (pgBistC 9) { runs := [⟨1, 77, 9, 5, false⟩] }), by decide +kernel⟩⟩

theorem witness_SelfTest_4 :
    (∃ s : State, ((Instr.sliceEnd 7 3 9 3 17 5 9).wf = true) ∧ (s.calm = true) ∧ ((s.bistH (bistPage 7 3)).runs.find? (fun r => r.unit == 7 && r.inst == 3 && r.slice == 9) = some (⟨7, 3, 9, 5, false⟩ : BRun)) ∧ ((3 = 3 ∨ (3 = 1 ∧ (⟨7, 3, 9, 5, false⟩ : BRun).t0 + 6 * cyclesPerUs < 9))) ∧ (5 ≤ 7) ∧ (7 ≠ 8) ∧ ((7 = 7 → (s.arsView.all fun q => q.2.hold.isNone) = true)) ∧ ((7 = 9 → (s.frdH 3).cmd = none ∧ (s.frdH 3).queue = [])) ∧ ((s.pageH (logicPage 7 3)).ctrl = []))
    ∧ (∃ s : State, ((Instr.sliceEnd 4 3 9 3 17 5 9).wf = true) ∧ (s.calm = true) ∧ ((s.bistH (bistPage 4 3)).runs.find? (fun r => r.unit == 4 && r.inst == 3 && r.slice == 9) = some (⟨4, 3, 9, 5, false⟩ : BRun)) ∧ ((3 = 3 ∨ (3 = 1 ∧ (⟨4, 3, 9, 5, false⟩ : BRun).t0 + 6 * cyclesPerUs < 9))) ∧ (1 ≤ 4) ∧ (4 ≤ 4) ∧ ((s.banks.all fun q => q.2.want.isNone) = true))
    ∧ (∃ s : State, ((Instr.sliceEnd 4 3 9 2 17 5 9).wf = true) ∧ (s.calm = true) ∧ ((s.bistH (bistPage 4 3)).runs.find? (fun r => r.unit == 4 && r.inst == 3 && r.slice == 9) = some (⟨4, 3, 9, 5, false⟩ : BRun)) ∧ (1 ≤ 4) ∧ (4 ≤ 4) ∧ (3 < unitCount 4) ∧ (9 < sliceCount 4) ∧ ((s.banks.all fun q => q.2.want.isNone) = true) ∧ ((s.bistH (bistPage 4 3)).done 4 3 ≠ 9) ∧ (s.log.staged.length < 31) ∧ (s.fld (pgBcp 1) 0x048 1 0 ≤ 2))
    ∧ (∃ s : State, ((Instr.sliceEnd 7 3 9 2 17 5 9).wf = true) ∧ (s.calm = true) ∧ ((s.bistH (bistPage 7 3)).runs.find? (fun r => r.unit == 7 && r.inst == 3 && r.slice == 9) = some (⟨7, 3, 9, 5, false⟩ : BRun)) ∧ (7 = 7 ∨ 7 = 9) ∧ (3 < 16) ∧ ((7 = 7 → (s.arsView.all fun q => q.2.hold.isNone) = true)) ∧ ((7 = 9 → (s.frdH 3).cmd = none ∧ (s.frdH 3).queue = [])) ∧ ((s.pageH (logicPage 7 3)).ctrl = []))
    ∧ (∃ s : State, ((Instr.sliceEnd 6 3 9 2 17 5 9).wf = true) ∧ (s.calm = true) ∧ ((s.bistH (bistPage 6 3)).runs.find? (fun r => r.unit == 6 && r.inst == 3 && r.slice == 9) = some (⟨6, 3, 9, 5, false⟩ : BRun)) ∧ (6 = 5 ∨ 6 = 6) ∧ (3 < 128) ∧ ((s.pageH (logicPage 6 3)).ctrl = []))
    ∧ (∃ s : State, ((Instr.sliceEnd 8 3 9 2 17 5 9).wf = true) ∧ (s.calm = true) ∧ ((s.bistH (pgBistC 3)).runs.find? (fun r => r.unit == 8 && r.inst == 3 && r.slice == 9) = some (⟨8, 3, 9, 5, false⟩ : BRun)) ∧ (3 < 16) ∧ ((s.pageH (pgTfe 3)).ctrl = [])) :=
    ⟨⟨((((State.reset.wr pgBistM 8 1).wr (pgArs 3) 8 1)).setBist (pgBistC 3) { runs := [⟨7, 3, 9, 5, false⟩] }), by decide +kernel⟩,
    ⟨((((State.reset.wr pgBistM 8 1).wr (pgArs 3) 8 1)).setBist (pgBistM) { runs := [⟨4, 3, 9, 5, false⟩] }), by decide +kernel⟩,
    ⟨((((State.reset.wr pgBistM 8 1).wr (pgArs 3) 8 1)).setBist (pgBistM) { runs := [⟨4, 3, 9, 5, false⟩] }), by decide +kernel⟩,
    ⟨((((State.reset.wr pgBistM 8 1).wr (pgArs 3) 8 1)).setBist (pgBistC 3) { runs := [⟨7, 3, 9, 5, false⟩] }), by decide +kernel⟩,
    ⟨((((State.reset.wr pgBistM 8 1).wr (pgArs 3) 8 1)).setBist (pgBistC 0) { runs := [⟨6, 3, 9, 5, false⟩] }), by decide +kernel⟩,
    ⟨((((State.reset.wr pgBistM 8 1).wr (pgArs 3) 8 1)).setBist (pgBistC 3) { runs := [⟨8, 3, 9, 5, false⟩] }), by decide +kernel⟩⟩

theorem witness_SelfTest_5 :
    (∃ s : State, ((Instr.retest 4 3 9 1 0 0 4).wf = true) ∧ (s.calm = true) ∧ ((s.bistH (bistPage 4 3)).retest.find? (fun w => w.unit == 4 && w.inst == 3 && w.slice == 9 && decide (w.t ≤ 4)) = none))
    ∧ (∃ s : State, ((Instr.retest 4 3 9 1 0 0 9).wf = true) ∧ (s.calm = true) ∧ ((s.bistH (bistPage 4 3)).retest.find? (fun w => w.unit == 4 && w.inst == 3 && w.slice == 9 && decide (w.t ≤ 9)) = some (⟨4, 3, 9, 5⟩ : BWait)) ∧ ((s.upTo 9).sliceCan 4 3 9 (⟨4, 3, 9, 5⟩ : BWait).t = false))
    ∧ (∃ s : State, ((Instr.retest 4 3 9 1 0 0 9).wf = true) ∧ (s.calm = true) ∧ ((s.bistH pgBistM).retest.find? (fun w => w.unit == 4 && w.inst == 3 && w.slice == 9 && decide (w.t ≤ 9)) = some (⟨4, 3, 9, 5⟩ : BWait)) ∧ (3 < 4) ∧ ((s.upTo 9).sliceCan 4 3 9 = true))
    ∧ (∃ s : State, ((Instr.retest 1 3 9 1 0 0 9).wf = true) ∧ (s.calm = true) ∧ ((s.bistH (bistPage 1 3)).retest.find? (fun w => w.unit == 1 && w.inst == 3 && w.slice == 9 && decide (w.t ≤ 9)) = some (⟨1, 3, 9, 5⟩ : BWait)) ∧ ((s.upTo 9).sliceCan 1 3 9 (⟨1, 3, 9, 5⟩ : BWait).t = true) ∧ (1 ≤ 1) ∧ (1 ≤ 4))
    ∧ (∃ s : State, ((Instr.retest 1 3 9 2 13 7 9).wf = true) ∧ (s.calm = true) ∧ ((s.bistH (bistPage 1 3)).retest.find? (fun w => w.unit == 1 && w.inst == 3 && w.slice == 9 && decide (w.t ≤ 9)) = some (⟨1, 3, 9, 5⟩ : BWait)) ∧ ((s.upTo 9).sliceCan 1 3 9 (⟨1, 3, 9, 5⟩ : BWait).t = true) ∧ (1 ≤ 1) ∧ (1 ≤ 4))
    ∧ (∃ s : State, ((Instr.retest 1 3 9 3 13 7 9).wf = true) ∧ (s.calm = true) ∧ ((s.bistH (bistPage 1 3)).retest.find? (fun w => w.unit == 1 && w.inst == 3 && w.slice == 9 && decide (w.t ≤ 9)) = some (⟨1, 3, 9, 5⟩ : BWait)) ∧ ((s.upTo 9).sliceCan 1 3 9 (⟨1, 3, 9, 5⟩ : BWait).t = true) ∧ (1 ≤ 1) ∧ (1 ≤ 4) ∧ (3 = 3)) :=
    ⟨⟨(((State.reset.wr pgBistM 8 1).wr (pgArs 3) 8 1).setBist pgBistM { retest := [⟨4, 3, 9, 5⟩] }), by decide +kernel⟩,
    ⟨(((State.reset.wr pgBistM 8 1).wr (pgArs 3) 8 1).setBist pgBistM { retest := [⟨4, 3, 9, 5⟩], began := [(145, 8)] }), by decide +kernel⟩,
    ⟨(((State.reset.wr pgBistM 8 1).wr (pgArs 3) 8 1).setBist pgBistM { retest := [⟨4, 3, 9, 5⟩] }), by decide +kernel⟩,
    ⟨((((State.reset.wr pgBistM 8 1).wr (pgArs 3) 8 1).setBank (pgEccT 3) 0 { inited := true }).setBist (pgBistC 0) { retest := [⟨1, 3, 9, 5⟩] }), by decide +kernel⟩,
    ⟨((((State.reset.wr pgBistM 8 1).wr (pgArs 3) 8 1).setBank (pgEccT 3) 0 { inited := true }).setBist (pgBistC 0) { retest := [⟨1, 3, 9, 5⟩] }), by decide +kernel⟩,
    ⟨((((State.reset.wr pgBistM 8 1).wr (pgArs 3) 8 1).setBank (pgEccT 3) 0 { inited := true }).setBist (pgBistC 0) { retest := [⟨1, 3, 9, 5⟩] }), by decide +kernel⟩⟩

theorem witness_SelfTest_6 :
    (∃ s : State, ((Instr.bistReq .basecamp pgBistM 5 77 9).wf = true) ∧ (s.calm = true) ∧ (s.mayWrite .basecamp pgBistM .bistM = true) ∧ (s.powered pgBistM = true) ∧ ((s.pageH pgBistM).resetting = false))
    ∧ (∃ s : State, ((Instr.bistReq .basecamp (pgBistC 15) 9 7 9).wf = true) ∧ (s.calm = true) ∧ (15 < 16) ∧ (9 = 7 ∨ 9 = 8 ∨ 9 = 9) ∧ (9 = 8 → s.estate 15 ≠ 1) ∧ (s.mayWrite .basecamp (pgBistC 15) .bistC = true) ∧ (s.powered (pgBistC 15) = true) ∧ ((s.pageH (pgBistC 15)).resetting = false))
    ∧ (∃ s : State, ((Instr.bistReq .basecamp (pgBistC 15) 8 7 9).wf = true) ∧ (s.calm = true) ∧ (15 < 16) ∧ (s.estate 15 = 1) ∧ (s.mayWrite .basecamp (pgBistC 15) .bistC = true) ∧ (s.powered (pgBistC 15) = true) ∧ ((s.pageH (pgBistC 15)).resetting = false))
    ∧ (∃ s : State, ((Instr.bistReq .basecamp (pgBistC 15) 6 127 9).wf = true) ∧ (s.calm = true) ∧ (15 < 16) ∧ (s.mayWrite .basecamp (pgBistC 15) .bistC = true) ∧ (s.powered (pgBistC 15) = true) ∧ ((s.pageH (pgBistC 15)).resetting = false))
    ∧ (∃ s : State, ((Instr.bistReq .basecamp (pgBistM : Nat) 0 127 9).wf = true) ∧ (s.calm = true) ∧ (pageAt (pgBistM : Nat) = some ((.bistM : Kind), 0)) ∧ (((.bistM : Kind) = .bistC ∨ (.bistM : Kind) = .bistM)) ∧ (s.mayWrite .basecamp (pgBistM : Nat) (.bistM : Kind) = true) ∧ (s.powered (pgBistM : Nat) = true) ∧ ((s.pageH (pgBistM : Nat)).resetting = false))
    ∧ (∃ s : State, ((Instr.bistReq .basecamp (pgBistM : Nat) 6 127 9).wf = true) ∧ (s.calm = true) ∧ (pageAt (pgBistM : Nat) = some ((.bistM : Kind), 0)) ∧ ((((.bistM : Kind) = .bistC ∧ 6 ≠ 0 ∧ (6 < 6 ∨ 9 < 6)) ∨ ((.bistM : Kind) = .bistM ∧ 6 ≠ 0 ∧ 6 ≠ 5))) ∧ (s.mayWrite .basecamp (pgBistM : Nat) (.bistM : Kind) = true) ∧ (s.powered (pgBistM : Nat) = true) ∧ ((s.pageH (pgBistM : Nat)).resetting = false)) :=
    ⟨⟨State.reset, by decide +kernel⟩,
    ⟨State.reset, by decide +kernel⟩,
    ⟨(State.reset.setEstate 15 1), by decide +kernel⟩,
    ⟨State.reset, by decide +kernel⟩,
    ⟨State.reset, by decide +kernel⟩,
    ⟨State.reset, by decide +kernel⟩⟩

theorem witness_SelfTest_7 :
    (∃ s : State, ((Instr.bistReq .basecamp (pgBistM : Nat) 5 127 9).wf = true) ∧ (s.calm = true) ∧ (pageAt (pgBistM : Nat) = some ((.bistM : Kind), 0)) ∧ (((.bistM : Kind) = .bistC ∨ (.bistM : Kind) = .bistM)) ∧ (s.mayWrite .basecamp (pgBistM : Nat) (.bistM : Kind) = true) ∧ ((s.powered (pgBistM : Nat) = false ∨ (s.pageH (pgBistM : Nat)).resetting = true)))
    ∧ (∃ s : State, ((Instr.requestedPassComplete 7 3 64 0 0 0 0 9).wf = true) ∧ (s.calm = true) ∧ ((s.bistH (bistPage 7 3)).req.find? (fun r => r.1 == 7 && r.2.1 == 3) = none) ∧ ((s.faulted (logicPage 7 3) = false ∨ s.retired (logicPage 7 3) = true ∨ 7 < 7)) ∧ (s.bcp.bootTests.contains (7, 3) = false) ∧ (7 ≠ 9) ∧ ((s.pageH (logicPage 7 3)).ctrl = []))
    ∧ (∃ s : State, ((Instr.requestedPassComplete 7 3 64 0 0 0 0 9).wf = true) ∧ (s.calm = true) ∧ ((s.bistH (bistPage 7 3)).req.find? (fun r => r.1 == 7 && r.2.1 == 3) = some ((7, 3, 2) : (Nat × Nat × Nat))) ∧ (7 = 7 ∨ 7 = 9) ∧ (3 < 16) ∧ (s.faulted (logicPage 7 3) = false) ∧ (s.retired (logicPage 7 3) = false) ∧ (s.bcp.bootTests.contains (7, 3) = false) ∧ ((7 = 9 → (s.frdH 3).cmd = none ∧ (s.frdH 3).queue = [])) ∧ ((s.pageH (logicPage 7 3)).ctrl = []) ∧ (s.log.staged.length < 31) ∧ (s.fld (pgBcp 1) 0x048 1 0 ≤ 2))
    ∧ (∃ s : State, ((Instr.requestedPassComplete 7 3 60 0 4 0 0 9).wf = true) ∧ (s.calm = true) ∧ ((s.bistH (bistPage 7 3)).req.find? (fun r => r.1 == 7 && r.2.1 == 3) = some ((7, 3, 2) : (Nat × Nat × Nat))) ∧ (7 = 7 ∨ 7 = 9) ∧ (3 < 16) ∧ (0 = 0) ∧ (4 ≠ 0) ∧ (s.bcp.bootTests.contains (7, 3) = false) ∧ ((7 = 9 → (s.frdH 3).cmd = none ∧ (s.frdH 3).queue = [])) ∧ ((s.pageH (logicPage 7 3)).ctrl = []) ∧ (s.log.staged.length < 31) ∧ (s.fld (pgBcp 1) 0x048 1 0 ≤ 2))
    ∧ (∃ s : State, ((Instr.requestedPassComplete 9 3 30 2 0 0 0 9).wf = true) ∧ (s.calm = true) ∧ ((s.bistH (bistPage 9 3)).req.find? (fun r => r.1 == 9 && r.2.1 == 3) = some ((9, 3, 2) : (Nat × Nat × Nat))) ∧ (9 = 7 ∨ 9 = 9) ∧ (3 < 16) ∧ (2 ≠ 0) ∧ ((s.pageH (logicPage 9 3)).ctrl = []))
    ∧ (∃ s : State, ((Instr.requestedPassComplete 7 3 64 0 0 0 0 9).wf = true) ∧ (s.calm = true) ∧ (7 ≤ 7) ∧ (7 ≤ 9) ∧ (3 < 16) ∧ (s.faulted (logicPage 7 3) = true) ∧ (s.retired (logicPage 7 3) = false) ∧ ((s.pageH (logicPage 7 3)).ctrl = [])) :=
    ⟨⟨(State.reset.setPageH pgBistM { State.reset.pageH pgBistM with resetting := true }), by decide +kernel⟩,
    ⟨((State.reset.wr pgBistM 8 1).wr (pgArs 3) 8 1), by decide +kernel⟩,
    ⟨(((State.reset.wr pgBistM 8 1).wr (pgArs 3) 8 1).setBist (pgBistC 3) { req := [(7, 3, 2)] }), by decide +kernel⟩,
    ⟨(((State.reset.wr pgBistM 8 1).wr (pgArs 3) 8 1).setBist (pgBistC 3) { req := [(7, 3, 2)] }), by decide +kernel⟩,
    ⟨(((State.reset.wr pgBistM 8 1).wr (pgArs 3) 8 1).setBist (pgBistC 3) { req := [(9, 3, 2)] }), by decide +kernel⟩,
    ⟨((State.reset.wr pgBistM 8 1).wr (pgArs 3) 8 4), by decide +kernel⟩⟩

theorem witness_SelfTest_8 :
    (∃ s : State, ((Instr.bistFuse .basecamp 0 9).wf = true) ∧ (s.calm = true) ∧ (s.powered pgBistM = true) ∧ ((s.pageH pgBistM).resetting = false) ∧ (s.bcp.repairs[0]? = some (⟨2, 3, 1, 5, 6⟩ : RepE)) ∧ (s.bcp.fuses.length < 256) ∧ ((⟨2, 3, 1, 5, 6⟩ : RepE).kind < 3))
    ∧ (∃ s : State, ((Instr.bistFuse .basecamp 1 9).wf = true) ∧ (s.calm = true) ∧ (s.powered pgBistM = true) ∧ ((s.pageH pgBistM).resetting = false) ∧ (((s.bcp.repairs[1]?.all fun e => decide (3 ≤ e.kind)) = true ∨ 256 ≤ s.bcp.fuses.length)))
    ∧ (∃ s : State, ((Instr.bistFuse (.tile 3 0 : Writer) 0 9).wf = true) ∧ (s.calm = true) ∧ (s.mayWrite (.tile 3 0 : Writer) pgBistM .bistM = true) ∧ ((.tile 3 0 : Writer) ≠ .basecamp ∨ s.powered pgBistM = false ∨ (s.pageH pgBistM).resetting = true)) :=
    ⟨⟨{ State.reset with bcp := { State.reset.bcp with repairs := [⟨2, 3, 1, 5, 6⟩] } }, by decide +kernel⟩,
    ⟨{ State.reset with bcp := { State.reset.bcp with repairs := [⟨2, 3, 1, 5, 6⟩] } }, by decide +kernel⟩,
    ⟨{ State.reset with bcp := { State.reset.bcp with repairs := [⟨2, 3, 1, 5, 6⟩] } }, by decide +kernel⟩⟩

theorem witness_Crossings_1 :
    (∃ s : State, ((Instr.wordAccept 1 1 true (⟨[(7, 0), (1, 0), (0, 0), (9, 0)], [7], 3⟩ : XWord) 5 9).wf = true) ∧ (s.calm = true) ∧ (isXng 1 1 = true) ∧ (s.xstate 1 1 = 1) ∧ (((s.xngH 1 1).dir true).length < (max 1 (xngLanes 1))) ∧ ((⟨[(7, 0), (1, 0), (0, 0), (9, 0)], [7], 3⟩ : XWord).diffs < 16))
    ∧ (∃ s : State, ((Instr.wordAccept 1 1 true (⟨[(7, 0), (1, 0), (0, 0), (9, 0)], [7], 16⟩ : XWord) 5 9).wf = true) ∧ (s.calm = true) ∧ (isXng 1 1 = true) ∧ (s.xstate 1 1 = 1) ∧ (((s.xngH 1 1).dir true).length < (max 1 (xngLanes 1))) ∧ (16 ≤ (⟨[(7, 0), (1, 0), (0, 0), (9, 0)], [7], 16⟩ : XWord).diffs))
    ∧ (∃ s : State, ((Instr.wordAccept 6 0 true (⟨[(7, 0), (1, 0), (0, 0), (9, 0)], [7], 3⟩ : XWord) 5 9).wf = true) ∧ (s.calm = true) ∧ ((isXng 6 0 = false ∨ s.xstate 6 0 ≠ 1 ∨ (max 1 (xngLanes 6)) ≤ ((s.xngH 6 0).dir true).length)))
    ∧ (∃ s : State, ((Instr.acknowledge 1 1 true 9).wf = true) ∧ (s.calm = true) ∧ ((s.xngH 1 1).dir true = ((true, ⟨[(7, 0), (1, 0), (0, 0), (9, 0)], [7], 3⟩, 3) : (Bool × XWord × Nat)) :: ([] : List (Bool × XWord × Nat))) ∧ (s.xstate 1 1 = 1))
    ∧ (∃ s : State, ((Instr.acknowledge 1 1 false 9).wf = true) ∧ (s.calm = true) ∧ (((s.xngH 1 1).dir false = [] ∨ s.xstate 1 1 ≠ 1)))
    ∧ (∃ s : State, ((Instr.crossingHold 1 1 9).wf = true) ∧ (s.calm = true) ∧ (isXng 1 1 = true) ∧ (s.xstate 1 1 = 1)) :=
    ⟨⟨((State.reset.setFld (pgXng 1) 0x050 31 29 1).wr (pgXng 1) 0x00C 1), by decide +kernel⟩,
    ⟨((State.reset.setFld (pgXng 1) 0x050 31 29 1).wr (pgXng 1) 0x00C 1), by decide +kernel⟩,
    ⟨((State.reset.setFld (pgXng 6) 0x040 31 29 1).setXng 6 0 { fly := [(true, ⟨[(7, 0), (1, 0), (0, 0), (9, 0)], [7], 3⟩, 3)] }), by decide +kernel⟩,
    ⟨(((State.reset.setFld (pgXng 1) 0x050 31 29 1).wr (pgXng 1) 0x00C 1).setXng 1 1 { fly := [(true, ⟨[(7, 0), (1, 0), (0, 0), (9, 0)], [7], 3⟩, 3)] }), by decide +kernel⟩,
    ⟨(((State.reset.setFld (pgXng 1) 0x050 31 29 1).wr (pgXng 1) 0x00C 1).setXng 1 1 { fly := [(true, ⟨[(7, 0), (1, 0), (0, 0), (9, 0)], [7], 3⟩, 3)] }), by decide +kernel⟩,
    ⟨((State.reset.setFld (pgXng 1) 0x050 31 29 1).wr (pgXng 1) 0x00C 1), by decide +kernel⟩⟩

theorem witness_Crossings_2 :
    (∃ s : State, ((Instr.crossingHold 1 1 9).wf = true) ∧ (s.calm = true) ∧ (isXng 1 1 = true) ∧ (s.xstate 1 1 ≠ 1))
    ∧ (∃ s : State, ((Instr.crossingHold 6 1 9).wf = true) ∧ (s.calm = true) ∧ (isXng 6 1 = false))
    ∧ (∃ s : State, ((Instr.clockReturn 1 1 2 9).wf = true) ∧ (s.calm = true) ∧ (isXng 1 1 = true) ∧ (s.xstate 1 1 = 2))
    ∧ (∃ s : State, ((Instr.clockReturn 1 1 2 9).wf = true) ∧ (s.calm = true) ∧ (isXng 1 1 = true) ∧ (s.xstate 1 1 ≠ 2))
    ∧ (∃ s : State, ((Instr.clockReturn 6 1 0 9).wf = true) ∧ (s.calm = true) ∧ (isXng 6 1 = false))
    ∧ (∃ s : State, ((Instr.sideReset 1 1 true 9).wf = true) ∧ (s.calm = true) ∧ (isXng 1 1 = true) ∧ (1 ≠ 2) ∧ (s.xstate 1 1 ≠ 0)) :=
    ⟨⟨State.reset, by decide +kernel⟩,
    ⟨State.reset, by decide +kernel⟩,
    ⟨((State.reset.setFld (pgXng 1) 0x050 31 29 2).wr (pgXng 1) 0x00C 1), by decide +kernel⟩,
    ⟨(State.reset.wr (pgXng 1) 0x00C 1), by decide +kernel⟩,
    ⟨State.reset, by decide +kernel⟩,
    ⟨(((State.reset.setFld (pgXng 1) 0x050 31 29 1).wr (pgXng 1) 0x00C 1).setXng 1 1 { fly := [(true, ⟨[(7, 0), (1, 0), (0, 0), (9, 0)], [7], 3⟩, 3)] }), by decide +kernel⟩⟩

theorem witness_Crossings_3 :
    (∃ s : State, ((Instr.sideReset 2 0 true 9).wf = true) ∧ (s.calm = true) ∧ (s.xstate 2 0 ≠ 0) ∧ (∀ j ∈ List.range 64, (match (s.trkInH j).sent with | some g => decide ((s.trkInH j).pend + g.1 < 4095) | none => true) = true))
    ∧ (∃ s : State, ((Instr.sideReset 2 0 true 9).wf = true) ∧ (s.calm = true) ∧ (s.xstate 2 0 ≠ 0))
    ∧ (∃ s : State, ((Instr.sideReset 2 0 false 9).wf = true) ∧ (s.calm = true) ∧ (s.xstate 2 0 ≠ 0))
    ∧ (∃ s : State, ((Instr.sideReset 2 1 true 9).wf = true) ∧ (s.calm = true) ∧ (isXng 2 1 = false ∨ s.xstate 2 1 = 0))
    ∧ (∃ s : State, ((Instr.farSidePower 1 1 true 9).wf = true) ∧ (s.calm = true) ∧ (isXng 1 1 = true) ∧ (s.xstate 1 1 = 0))
    ∧ (∃ s : State, ((Instr.farSidePower 1 1 false 9).wf = true) ∧ (s.calm = true) ∧ (isXng 1 1 = true) ∧ (1 ≠ 2) ∧ (s.xstate 1 1 ≠ 0)) :=
    ⟨⟨(State.reset.setTrkIn 5 { pend := 7, sent := some (3, 2, 4) }), by decide +kernel⟩,
    ⟨(State.reset.setTrkIn 5 { pend := 4094, sent := some (3, 2, 4) }), by decide +kernel⟩,
    ⟨(State.reset.setTrkIn 5 { pend := 7, sent := some (3, 2, 4) }), by decide +kernel⟩,
    ⟨State.reset, by decide +kernel⟩,
    ⟨(State.reset.setFld (pgXng 1) 0x050 31 29 0), by decide +kernel⟩,
    ⟨((State.reset.setFld (pgXng 1) 0x050 31 29 1).wr (pgXng 1) 0x00C 1), by decide +kernel⟩⟩

theorem witness_Crossings_4 :
    (∃ s : State, ((Instr.farSidePower 2 0 false 9).wf = true) ∧ (s.calm = true) ∧ (s.xstate 2 0 ≠ 0))
    ∧ (∃ s : State, ((Instr.farSidePower 2 0 true 9).wf = true) ∧ (s.calm = true) ∧ ((isXng 2 0 = false ∨ (if true then decide (s.xstate 2 0 ≠ 0) else decide (s.xstate 2 0 = 0)) = true)))
    ∧ (∃ s : State, ((Instr.handshakeComplete 4 31 2 9).wf = true) ∧ (s.calm = true) ∧ (isXng 4 31 = true) ∧ (s.xstate 4 31 = 3) ∧ ((s.xngH 4 31).stopped = false))
    ∧ (∃ s : State, ((Instr.handshakeComplete 4 31 2 9).wf = true) ∧ (s.calm = true) ∧ ((isXng 4 31 = false ∨ s.xstate 4 31 ≠ 3 ∨ (s.xngH 4 31).stopped = true))) :=
    ⟨⟨(State.reset.setTrkIn 5 { pend := 7, sent := some (3, 2, 4) }), by decide +kernel⟩,
    ⟨State.reset, by decide +kernel⟩,
    ⟨(State.reset.wr (pgXng 4) 0x00C 1), by decide +kernel⟩,
    ⟨(State.reset.setXng 4 31 { stopped := true }), by decide +kernel⟩⟩

theorem witness_RopePorts_1 :
    (∃ s : State, ((Instr.blockLock 15 true 9).wf = true) ∧ (s.calm = true) ∧ (s.lstate 15 = 2))
    ∧ (∃ s : State, ((Instr.blockLock 15 false 9).wf = true) ∧ (s.calm = true) ∧ (s.lstate 15 = 2))
    ∧ (∃ s : State, ((Instr.blockLock 15 true 9).wf = true) ∧ (s.calm = true) ∧ (s.lstate 15 ≠ 2))
    ∧ (∃ s : State, ((Instr.lockLoss 3 9).wf = true) ∧ (s.calm = true) ∧ (s.lstate 3 = 3))
    ∧ (∃ s : State, ((Instr.lockLoss 3 9000000000).wf = true) ∧ (s.calm = true) ∧ (s.linkUpAt 3 = true))
    ∧ (∃ s : State, ((Instr.helloTimeout 3 9000000000).wf = true) ∧ (s.calm = true) ∧ (s.linkUpAt 3 = true) ∧ ((s.ropeH 3).tHello + 3 * cyclesPerMs ≤ 9000000000)) :=
    ⟨⟨(State.reset.setFld (pgRope 15) 0x044 31 29 2), by decide +kernel⟩,
    ⟨((State.reset.setFld (pgRope 15) 0x044 31 29 2).wr (pgRope 15) 8 1), by decide +kernel⟩,
    ⟨(State.reset.setFld (pgRope 15) 0x044 31 29 3), by decide +kernel⟩,
    ⟨(State.reset.setFld (pgRope 3) 0x044 31 29 3), by decide +kernel⟩,
    ⟨((State.reset.setFld (pgRope 3) 0x044 31 29 4).setFld pgRopeL 0x060 31 29 4), by decide +kernel⟩,
    ⟨((State.reset.setFld (pgRope 3) 0x044 31 29 4).setFld pgRopeL 0x060 31 29 4), by decide +kernel⟩⟩

theorem witness_RopePorts_2 :
    (∃ s : State, ((Instr.lockLoss 15 9).wf = true) ∧ (s.calm = true) ∧ (s.lstate 15 < 3 ∨ 5 < s.lstate 15))
    ∧ (∃ s : State, ((Instr.helloTimeout 15 9).wf = true) ∧ (s.calm = true) ∧ ((s.linkUpAt 15 = false ∨ 9 < (s.ropeH 15).tHello + 3 * cyclesPerMs)))
    ∧ (∃ s : State, ((Instr.helloSend 3 9).wf = true) ∧ (s.calm = true) ∧ (3 ≤ s.lstate 3) ∧ (s.lstate 3 ≤ 5))
    ∧ (∃ s : State, ((Instr.helloSend 15 9).wf = true) ∧ (s.calm = true) ∧ (s.lstate 15 < 3 ∨ 5 < s.lstate 15))
    ∧ (∃ s : State, ((Instr.hello ({ port := 2, hops := 16 } : RFrame) 0 0 0 false 9).wf = true) ∧ (s.calm = true) ∧ ((s.ropeRecv ({ port := 2, hops := 16 } : RFrame)).1 = false))
    ∧ (∃ s : State, ((Instr.hello ({ port := 2 } : RFrame) 77 3 5 false 9).wf = true) ∧ (s.calm = true) ∧ (2 = ({ port := 2 } : RFrame).port) ∧ ((s.ropeRecv ({ port := 2 } : RFrame)).1 = true) ∧ (1 = (if (s.ropeH 2).hellos ≠ 0 ∧ (s.ropeH 2).serial = 77 then min 2 ((s.ropeH 2).hellos + 1) else 1)) ∧ (3 < 8) ∧ (77 < 2 ^ 64) ∧ (s.lstate 2 = 3) ∧ (1 = 1)) :=
    ⟨⟨(State.reset.setFld (pgRope 15) 0x044 31 29 2), by decide +kernel⟩,
    ⟨(State.reset.setFld (pgRope 15) 0x044 31 29 4), by decide +kernel⟩,
    ⟨(State.reset.setFld (pgRope 3) 0x044 31 29 5), by decide +kernel⟩,
    ⟨(State.reset.setFld (pgRope 15) 0x044 31 29 2), by decide +kernel⟩,
    ⟨(State.reset.setFld (pgRope 2) 0x044 31 29 4), by decide +kernel⟩,
    ⟨(State.reset.setFld (pgRope 2) 0x044 31 29 3), by decide +kernel⟩⟩

theorem witness_RopePorts_3 :
    (∃ s : State, ((Instr.hello ({ port := 2 } : RFrame) 77 3 5 false 9).wf = true) ∧ (s.calm = true) ∧ (2 = ({ port := 2 } : RFrame).port) ∧ ((s.ropeRecv ({ port := 2 } : RFrame)).1 = true) ∧ (2 = (if (s.ropeH 2).hellos ≠ 0 ∧ (s.ropeH 2).serial = 77 then min 2 ((s.ropeH 2).hellos + 1) else 1)) ∧ (3 < 8) ∧ (77 < 2 ^ 64) ∧ (s.lstate 2 = 3) ∧ (2 = 2))
    ∧ (∃ s : State, ((Instr.hello ({ port := 2 } : RFrame) 77 3 5 false 9).wf = true) ∧ (s.calm = true) ∧ (2 = ({ port := 2 } : RFrame).port) ∧ ((s.ropeRecv ({ port := 2 } : RFrame)).1 = true) ∧ (1 = (if (s.ropeH 2).hellos ≠ 0 ∧ (s.ropeH 2).serial = 77 then min 2 ((s.ropeH 2).hellos + 1) else 1)) ∧ (3 < 8) ∧ (77 < 2 ^ 64) ∧ (s.linkUpAt 2 = true) ∧ (s.portScope 2 = min (s.ownScope 2) 3) ∧ (s.lstate 2 = (if false = true ∨ s.pstate' ≠ 0 then 5 else 4)))
    ∧ (∃ s : State, ((Instr.hello ({ port := 2 } : RFrame) 77 3 5 true 9).wf = true) ∧ (s.calm = true) ∧ (2 = ({ port := 2 } : RFrame).port) ∧ ((s.ropeRecv ({ port := 2 } : RFrame)).1 = true) ∧ (1 = (if (s.ropeH 2).hellos ≠ 0 ∧ (s.ropeH 2).serial = 77 then min 2 ((s.ropeH 2).hellos + 1) else 1)) ∧ (3 < 8) ∧ (77 < 2 ^ 64) ∧ (s.linkUpAt 2 = true))
    ∧ (∃ s : State, ((Instr.sfpInsertion 3 true true false 9).wf = true) ∧ (s.calm = true) ∧ (s.enabled (pgRope 3) = true) ∧ (s.ropeOff 3 = false))
    ∧ (∃ s : State, ((Instr.sfpInsertion 3 true true true 9).wf = true) ∧ (s.calm = true))
    ∧ (∃ s : State, ((Instr.sfpInsertion 3 true true false 9).wf = true) ∧ (s.calm = true) ∧ ((s.enabled (pgRope 3) = false ∨ s.ropeOff 3 = true)) ∧ (6 = (if true then 4 + 2 * b2n true else 0))) :=
    ⟨⟨((State.reset.setFld (pgRope 2) 0x044 31 29 3).setRope 2 { serial := 77, hellos := 1 }), by decide +kernel⟩,
    ⟨(State.reset.setFld (pgRope 2) 0x044 31 29 4), by decide +kernel⟩,
    ⟨(State.reset.setFld (pgRope 2) 0x044 31 29 4), by decide +kernel⟩,
    ⟨((State.reset.wr (pgRope 3) 0x00C 1).wr (pgRope 3) 0x040 0x40000000), by decide +kernel⟩,
    ⟨((State.reset.wr (pgRope 3) 8 1).wr (pgRope 3) 0x040 0x40000000), by decide +kernel⟩,
    ⟨State.reset, by decide +kernel⟩⟩

theorem witness_RopePorts_4 :
    (∃ s : State, ((Instr.sfpInsertion 3 false true false 9).wf = true) ∧ (s.calm = true) ∧ (s.enabled (pgRope 3) = true) ∧ (s.ropeOff 3 = false) ∧ (s.linkUpAt 3 = false))
    ∧ (∃ s : State, ((Instr.sfpInsertion 3 false true false 9).wf = true) ∧ (s.calm = true) ∧ (s.enabled (pgRope 3) = true) ∧ (s.ropeOff 3 = false) ∧ (s.linkUpAt 3 = true)) :=
    ⟨⟨((State.reset.wr (pgRope 3) 0x00C 1).wr (pgRope 3) 0x040 0x40000000), by decide +kernel⟩,
    ⟨(((State.reset.setFld (pgRope 3) 0x044 31 29 4).wr (pgRope 3) 0x00C 1).wr (pgRope 3) 0x040 0x40000000), by decide +kernel⟩⟩

theorem witness_RopeTeams_1 :
    (∃ s : State, ((Instr.elect ({ port := 2, hops := 16 } : RFrame) 0 0 0 9).wf = true) ∧ (s.calm = true) ∧ ((s.ropeRecv ({ port := 2, hops := 16 } : RFrame)).1 = false))
    ∧ (∃ s : State, ((Instr.elect ({ port := 2, arg := 1 } : RFrame) 0 0 0 9).wf = true) ∧ (s.calm = true) ∧ ((s.ropeRecv ({ port := 2, arg := 1 } : RFrame)).1 = true) ∧ ((s.ropeDepth ≤ ({ port := 2, arg := 1 } : RFrame).arg ∨ s.portScope ({ port := 2, arg := 1 } : RFrame).port < ({ port := 2, arg := 1 } : RFrame).arg ∨ s.linkUpAt ({ port := 2, arg := 1 } : RFrame).port = false ∨ s.dstate = 0)))
    ∧ (∃ s : State, ((Instr.elect ({ port := 2 } : RFrame) 3 5 6 9).wf = true) ∧ (s.calm = true) ∧ ((s.ropeRecv ({ port := 2 } : RFrame)).1 = true) ∧ (0 = ({ port := 2 } : RFrame).arg) ∧ (0 < s.ropeDepth) ∧ (0 ≤ s.portScope ({ port := 2 } : RFrame).port) ∧ (s.linkUpAt ({ port := 2 } : RFrame).port = true) ∧ (s.dstate ≠ 0) ∧ ((beats 3 5 (s.teamH 0).pri (s.teamH 0).serial || !(s.teamH 0).known) = true) ∧ ((s.teamH 0).known = true → 6 ≤ (s.teamH 0).epoch))
    ∧ (∃ s : State, ((Instr.elect ({ port := 2 } : RFrame) 3 5 6 9).wf = true) ∧ (s.calm = true) ∧ ((s.ropeRecv ({ port := 2 } : RFrame)).1 = true) ∧ (0 = ({ port := 2 } : RFrame).arg) ∧ (0 < s.ropeDepth) ∧ (0 ≤ s.portScope ({ port := 2 } : RFrame).port) ∧ (s.linkUpAt ({ port := 2 } : RFrame).port = true) ∧ (s.dstate ≠ 0) ∧ ((s.teamH 0).known = true) ∧ (6 ≤ (s.teamH 0).epoch) ∧ (beats 3 5 (s.teamH 0).pri (s.teamH 0).serial = false))
    ∧ (∃ s : State, ((Instr.elect ({ port := 2 } : RFrame) 3 5 6 9).wf = true) ∧ (s.calm = true) ∧ ((s.ropeRecv ({ port := 2 } : RFrame)).1 = true) ∧ (0 = ({ port := 2 } : RFrame).arg) ∧ (0 < s.ropeDepth) ∧ (0 ≤ s.portScope ({ port := 2 } : RFrame).port) ∧ (s.linkUpAt ({ port := 2 } : RFrame).port = true) ∧ (s.dstate ≠ 0) ∧ ((s.teamH 0).known = true) ∧ ((s.teamH 0).epoch < 6) ∧ (true = beats s.ropePri s.ropeSerial 3 5))
    ∧ (∃ s : State, ((Instr.electionSettles 0 99999999).wf = true) ∧ (s.calm = true) ∧ (0 < s.ropeDepth) ∧ (s.dstate = 1) ∧ ((s.teamH 0).settled = false) ∧ (((s.teamH 0).tBest + 2 * cyclesPerMs ≤ 99999999 ∨ s.portsAt 0 = [])) ∧ (1 < s.ropeDepth) ∧ (1 ≠ 0) ∧ ((s.teamH 1).settled = false) ∧ (s.leads 0 = false ∨ (s.teamH 0).table = [])) :=
    ⟨⟨(State.reset.setFld (pgRope 2) 0x044 31 29 4), by decide +kernel⟩,
    ⟨(((State.reset.setFld (pgRope 2) 0x044 31 29 4).setFld pgRopeL 0x060 31 29 4).setB pgRopeL 0x060 16), by decide +kernel⟩,
    ⟨(((State.reset.setFld (pgRope 2) 0x044 31 29 4).setFld pgRopeL 0x060 31 29 1).setFld (pgRope 5) 0x044 31 29 4), by decide +kernel⟩,
    ⟨(((State.reset.setFld (pgRope 2) 0x044 31 29 4).setFld pgRopeL 0x060 31 29 1).setTeam 0 { pri := 4, known := true, epoch := 6 }), by decide +kernel⟩,
    ⟨((((State.reset.setFld (pgRope 2) 0x044 31 29 4).setFld pgRopeL 0x060 31 29 1).setFld pgRopeL 0x048 27 24 7).setTeam 0 { pri := 4, known := true, epoch := 5 }), by decide +kernel⟩,
    ⟨(((State.reset.setFld (pgRope 2) 0x044 31 29 4).setFld pgRopeL 0x060 31 29 1).setFld pgRopeL 0x048 31 28 2), by decide +kernel⟩⟩

theorem witness_RopeTeams_2 :
    (∃ s : State, ((Instr.electionSettles 0 99999999).wf = true) ∧ (s.calm = true) ∧ (0 < s.ropeDepth) ∧ (s.dstate ≠ 0) ∧ ((s.teamH 0).settled = false) ∧ (((s.teamH 0).tBest + 2 * cyclesPerMs ≤ 99999999 ∨ s.portsAt 0 = [])))
    ∧ (∃ s : State, ((Instr.electionSettles 0 9).wf = true) ∧ (s.calm = true) ∧ ((s.ropeDepth ≤ 0 ∨ s.dstate = 0 ∨ (s.teamH 0).settled = true ∨ (9 < (s.teamH 0).tBest + 2 * cyclesPerMs ∧ s.portsAt 0 ≠ []))))
    ∧ (∃ s : State, ((Instr.links ({ port := 2, hops := 16 } : RFrame) (⟨9, 1, 0, []⟩ : LinkRep) 9).wf = true) ∧ (s.calm = true) ∧ ((s.ropeRecv ({ port := 2, hops := 16 } : RFrame)).1 = false))
    ∧ (∃ s : State, ((Instr.links ({ port := 2, arg := 1 } : RFrame) (⟨9, 1, 0, []⟩ : LinkRep) 9).wf = true) ∧ (s.calm = true) ∧ ((s.ropeRecv ({ port := 2, arg := 1 } : RFrame)).1 = true) ∧ (s.ropeDepth ≤ ({ port := 2, arg := 1 } : RFrame).arg))
    ∧ (∃ s : State, ((Instr.links ({ port := 2, hops := 0 } : RFrame) (⟨9, 1, 0, []⟩ : LinkRep) 9).wf = true) ∧ (s.calm = true) ∧ ((s.ropeRecv ({ port := 2, hops := 0 } : RFrame)).1 = true) ∧ (0 = ({ port := 2, hops := 0 } : RFrame).arg) ∧ (0 < s.ropeDepth) ∧ (({ port := 2, hops := 0 } : RFrame).hops = 0) ∧ (s.leads 0 = false))
    ∧ (∃ s : State, ((Instr.links ({ port := 2 } : RFrame) (⟨9, 1, 0, [(2, 5, 0)]⟩ : LinkRep) 9).wf = true) ∧ (s.calm = true) ∧ ((s.ropeRecv ({ port := 2 } : RFrame)).1 = true) ∧ (0 = ({ port := 2 } : RFrame).arg) ∧ (0 < s.ropeDepth) ∧ (s.leads 0 = true)) :=
    ⟨⟨((State.reset.setFld (pgRope 2) 0x044 31 29 4).setFld pgRopeL 0x060 31 29 1), by decide +kernel⟩,
    ⟨((State.reset.setFld (pgRope 2) 0x044 31 29 4).setFld pgRopeL 0x060 31 29 1), by decide +kernel⟩,
    ⟨(State.reset.setFld (pgRope 2) 0x044 31 29 4), by decide +kernel⟩,
    ⟨(((State.reset.setFld (pgRope 2) 0x044 31 29 4).setFld pgRopeL 0x060 31 29 4).setB pgRopeL 0x060 16), by decide +kernel⟩,
    ⟨((State.reset.setFld (pgRope 2) 0x044 31 29 4).setFld pgRopeL 0x060 31 29 1), by decide +kernel⟩,
    ⟨(((State.reset.setFld (pgRope 2) 0x044 31 29 4).setFld pgRopeL 0x060 31 29 4).setB pgRopeL 0x060 16), by decide +kernel⟩⟩

theorem witness_RopeTeams_3 :
    (∃ s : State, ((Instr.links ({ port := 2 } : RFrame) (⟨9, 1, 0, [(2, 5, 0)]⟩ : LinkRep) 9).wf = true) ∧ (s.calm = true) ∧ ((s.ropeRecv ({ port := 2 } : RFrame)).1 = true) ∧ (0 = ({ port := 2 } : RFrame).arg) ∧ (0 < s.ropeDepth) ∧ (s.leads 0 = false) ∧ (({ port := 2 } : RFrame).hops ≠ 0))
    ∧ (∃ s : State, ((Instr.label ({ port := 2, hops := 16 } : RFrame) 0 0 ([] : List LabelRow) ((0, 0, 0) : Nat × Nat × Nat) 9).wf = true) ∧ (s.calm = true) ∧ ((s.ropeRecv ({ port := 2, hops := 16 } : RFrame)).1 = false))
    ∧ (∃ s : State, ((Instr.label ({ port := 2, arg := 1 } : RFrame) 0 0 ([] : List LabelRow) ((0, 0, 0) : Nat × Nat × Nat) 9).wf = true) ∧ (s.calm = true) ∧ ((s.ropeRecv ({ port := 2, arg := 1 } : RFrame)).1 = true) ∧ (s.ropeDepth ≤ ({ port := 2, arg := 1 } : RFrame).arg))
    ∧ (∃ s : State, ((Instr.label ({ port := 2 } : RFrame) 3 7 ([⟨7, 9, 1, false, 1⟩, ⟨8, 10, 1, false, 1⟩] : List LabelRow) ((1, 2, 3) : (Nat × Nat × Nat)) 9).wf = true) ∧ (s.calm = true) ∧ ((s.ropeRecv ({ port := 2 } : RFrame)).1 = true) ∧ (0 = ({ port := 2 } : RFrame).arg) ∧ (0 < s.ropeDepth) ∧ (s.leads 0 = false) ∧ (3 < 2 ^ 32) ∧ (((1, 2, 3) : (Nat × Nat × Nat)).1 < 2 ^ 32) ∧ (((1, 2, 3) : (Nat × Nat × Nat)).2.1 < 2 ^ 32) ∧ (((1, 2, 3) : (Nat × Nat × Nat)).2.2 < 2 ^ 32))
    ∧ (∃ s : State, ((Instr.label ({ port := 2 } : RFrame) 3 7 ([⟨7, 9, 1, false, 1⟩, ⟨8, 10, 1, false, 1⟩] : List LabelRow) ((1, 2, 3) : (Nat × Nat × Nat)) 9).wf = true) ∧ (s.calm = true) ∧ ((s.ropeRecv ({ port := 2 } : RFrame)).1 = true) ∧ (0 = ({ port := 2 } : RFrame).arg) ∧ (0 < s.ropeDepth) ∧ (s.leads 0 = false) ∧ (s.dstate ≤ 1) ∧ (3 < 2 ^ 32) ∧ ((s.rd (pgTeam 0) 0x058 ≠ 3 ∨ (s.rd (pgTeam 0) 0x05C, s.rd (pgTeam 0) 0x060, s.rd (pgTeam 0) 0x064) ≠ ((1, 2, 3) : (Nat × Nat × Nat)))))
    ∧ (∃ s : State, ((Instr.label ({ port := 2 } : RFrame) 3 7 ([(⟨8, 10, 1, false, 1⟩ : LabelRow)]) ((1, 2, 3) : (Nat × Nat × Nat)) 9).wf = true) ∧ (s.calm = true) ∧ ((s.ropeRecv ({ port := 2 } : RFrame)).1 = true) ∧ (0 = ({ port := 2 } : RFrame).arg) ∧ (0 < s.ropeDepth) ∧ (s.leads 0 = true) ∧ ((⟨8, 10, 1, false, 1⟩ : LabelRow).st ≠ 0) ∧ ((sget labZero (s.teamH 0).table (⟨8, 10, 1, false, 1⟩ : LabelRow).label).st = 0) ∧ ((s.teamH 0).table.any (fun x => x.2.key == (⟨8, 10, 1, false, 1⟩ : LabelRow).key && x.2.st != 0) = false)) :=
    ⟨⟨(((State.reset.setFld (pgRope 2) 0x044 31 29 4).setFld pgRopeL 0x060 31 29 1).setFld (pgRope 1) 0x044 31 29 4), by decide +kernel⟩,
    ⟨(State.reset.setFld (pgRope 2) 0x044 31 29 4), by decide +kernel⟩,
    ⟨(((State.reset.setFld (pgRope 2) 0x044 31 29 4).setFld pgRopeL 0x060 31 29 4).setB pgRopeL 0x060 16), by decide +kernel⟩,
    ⟨((State.reset.setFld (pgRope 2) 0x044 31 29 4).setFld pgRopeL 0x060 31 29 1), by decide +kernel⟩,
    ⟨(((State.reset.setFld (pgRope 2) 0x044 31 29 4).setFld pgRopeL 0x060 31 29 1).setFld (pgRope 1) 0x044 31 29 4), by decide +kernel⟩,
    ⟨(((State.reset.setFld (pgRope 2) 0x044 31 29 4).setFld pgRopeL 0x060 31 29 4).setB pgRopeL 0x060 16), by decide +kernel⟩⟩

theorem witness_RopeTeams_4 :
    (∃ s : State, ((Instr.label ({ port := 2 } : RFrame) 3 7 ([⟨8, 10, 1, false, 1⟩] : List LabelRow) ((1, 2, 3) : (Nat × Nat × Nat)) 9).wf = true) ∧ (s.calm = true) ∧ ((s.ropeRecv ({ port := 2 } : RFrame)).1 = true) ∧ (0 = ({ port := 2 } : RFrame).arg) ∧ (0 < s.ropeDepth) ∧ (s.leads 0 = true) ∧ (([⟨8, 10, 1, false, 1⟩] : List LabelRow).all (fun r => r.st == 0 || (sget labZero (s.teamH 0).table r.label).st != 0 || (s.teamH 0).table.any (fun x => x.2.key == r.key && x.2.st != 0)) = true))
    ∧ (∃ s : State, ((Instr.routeComputation 0 9).wf = true) ∧ (s.calm = true) ∧ (0 < s.ropeDepth) ∧ (s.leads 0 = true))
    ∧ (∃ s : State, ((Instr.routeComputation 0 9).wf = true) ∧ (s.calm = true) ∧ (s.ropeDepth ≤ 0 ∨ s.leads 0 = false))
    ∧ (∃ s : State, ((Instr.route ({ port := 2, hops := 16 } : RFrame) 0 ([] : List (Nat × Nat)) 9).wf = true) ∧ (s.calm = true) ∧ ((s.ropeRecv ({ port := 2, hops := 16 } : RFrame)).1 = false))
    ∧ (∃ s : State, ((Instr.route ({ port := 2, arg := 1 } : RFrame) 0 ([] : List (Nat × Nat)) 9).wf = true) ∧ (s.calm = true) ∧ ((s.ropeRecv ({ port := 2, arg := 1 } : RFrame)).1 = true) ∧ (s.ropeDepth ≤ ({ port := 2, arg := 1 } : RFrame).arg))
    ∧ (∃ s : State, ((Instr.route ({ port := 2, hops := 0 } : RFrame) 5 ([] : List (Nat × Nat)) 9).wf = true) ∧ (s.calm = true) ∧ ((s.ropeRecv ({ port := 2, hops := 0 } : RFrame)).1 = true) ∧ (0 = ({ port := 2, hops := 0 } : RFrame).arg) ∧ (0 < s.ropeDepth) ∧ (({ port := 2, hops := 0 } : RFrame).hops = 0) ∧ (5 ≠ s.ropeSerial)) :=
    ⟨⟨((((State.reset.setFld (pgRope 2) 0x044 31 29 4).setFld pgRopeL 0x060 31 29 4).setB pgRopeL 0x060 16).setTeam 0 { table := [(8, { key := 9, st := 1 })] }), by decide +kernel⟩,
    ⟨((((State.reset.setFld (pgRope 2) 0x044 31 29 4).setFld pgRopeL 0x060 31 29 4).setB pgRopeL 0x060 16).setTeam 0 { reports := [⟨0, 1, 0, [(2, 9, 0)]⟩, ⟨9, 1, 0, [(1, 0, 0)]⟩], table := [(8, { key := 5, st := 1 })] }), by decide +kernel⟩,
    ⟨((State.reset.setFld (pgRope 2) 0x044 31 29 4).setFld pgRopeL 0x060 31 29 1), by decide +kernel⟩,
    ⟨(State.reset.setFld (pgRope 2) 0x044 31 29 4), by decide +kernel⟩,
    ⟨(((State.reset.setFld (pgRope 2) 0x044 31 29 4).setFld pgRopeL 0x060 31 29 4).setB pgRopeL 0x060 16), by decide +kernel⟩,
    ⟨((State.reset.setFld (pgRope 2) 0x044 31 29 4).setFld pgRopeL 0x060 31 29 1), by decide +kernel⟩⟩

theorem witness_RopeTeams_5 :
    (∃ s : State, ((Instr.route ({ port := 2 } : RFrame) 0 ([(7, 2)] : List (Nat × Nat)) 9).wf = true) ∧ (s.calm = true) ∧ ((s.ropeRecv ({ port := 2 } : RFrame)).1 = true) ∧ (0 = ({ port := 2 } : RFrame).arg) ∧ (0 < s.ropeDepth) ∧ (0 = s.ropeSerial))
    ∧ (∃ s : State, ((Instr.route ({ port := 2 } : RFrame) 5 ([(7, 2)] : List (Nat × Nat)) 9).wf = true) ∧ (s.calm = true) ∧ ((s.ropeRecv ({ port := 2 } : RFrame)).1 = true) ∧ (0 = ({ port := 2 } : RFrame).arg) ∧ (0 < s.ropeDepth) ∧ (5 ≠ s.ropeSerial) ∧ (({ port := 2 } : RFrame).hops ≠ 0))
    ∧ (∃ s : State, ((Instr.labelHoldExpiry 0 8 99999999999999).wf = true) ∧ (s.calm = true) ∧ (s.leads 0 = true) ∧ ((sget labZero (s.teamH 0).table 8).st = 2) ∧ ((sget labZero (s.teamH 0).table 8).lostT + s.rd pgRopeL 0x070 * cyclesPerS ≤ 99999999999999))
    ∧ (∃ s : State, ((Instr.labelHoldExpiry 0 8 99999).wf = true) ∧ (s.calm = true) ∧ ((s.leads 0 = false ∨ (sget labZero (s.teamH 0).table 8).st ≠ 2 ∨ 99999 < (sget labZero (s.teamH 0).table 8).lostT + s.rd pgRopeL 0x070 * cyclesPerS)))
    ∧ (∃ s : State, ((Instr.ropeStatus ({ port := 2, hops := 16 } : RFrame) 0 ({} : TeamStat) 9).wf = true) ∧ (s.calm = true) ∧ ((s.ropeRecv ({ port := 2, hops := 16 } : RFrame)).1 = false))
    ∧ (∃ s : State, ((Instr.ropeStatus ({ port := 2, arg := 1 } : RFrame) 0 ({} : TeamStat) 9).wf = true) ∧ (s.calm = true) ∧ ((s.ropeRecv ({ port := 2, arg := 1 } : RFrame)).1 = true) ∧ (s.ropeDepth ≤ ({ port := 2, arg := 1 } : RFrame).arg)) :=
    ⟨⟨((State.reset.setFld (pgRope 2) 0x044 31 29 4).setFld pgRopeL 0x060 31 29 3), by decide +kernel⟩,
    ⟨(((State.reset.setFld (pgRope 2) 0x044 31 29 4).setFld pgRopeL 0x060 31 29 1).setFld (pgRope 1) 0x044 31 29 4), by decide +kernel⟩,
    ⟨((((State.reset.setFld (pgRope 2) 0x044 31 29 4).setFld pgRopeL 0x060 31 29 4).setB pgRopeL 0x060 16).setTeam 0 { table := [(8, { key := 10, st := 2 })] }), by decide +kernel⟩,
    ⟨((((State.reset.setFld (pgRope 2) 0x044 31 29 4).setFld pgRopeL 0x060 31 29 4).setB pgRopeL 0x060 16).setTeam 0 { table := [(8, { key := 10, st := 2 })] }), by decide +kernel⟩,
    ⟨(State.reset.setFld (pgRope 2) 0x044 31 29 4), by decide +kernel⟩,
    ⟨(((State.reset.setFld (pgRope 2) 0x044 31 29 4).setFld pgRopeL 0x060 31 29 4).setB pgRopeL 0x060 16), by decide +kernel⟩⟩

theorem witness_RopeTeams_6 :
    (∃ s : State, ((Instr.ropeStatus ({ port := 2, hops := 0 } : RFrame) 0 ({} : TeamStat) 9).wf = true) ∧ (s.calm = true) ∧ ((s.ropeRecv ({ port := 2, hops := 0 } : RFrame)).1 = true) ∧ (0 = ({ port := 2, hops := 0 } : RFrame).arg) ∧ (0 < s.ropeDepth) ∧ (({ port := 2, hops := 0 } : RFrame).hops = 0) ∧ (s.leads 0 = false))
    ∧ (∃ s : State, ((Instr.ropeStatus ({ port := 2 } : RFrame) 5 ({ alert := 3 } : TeamStat) 9).wf = true) ∧ (s.calm = true) ∧ ((s.ropeRecv ({ port := 2 } : RFrame)).1 = true) ∧ (0 = ({ port := 2 } : RFrame).arg) ∧ (0 < s.ropeDepth) ∧ (s.leads 0 = true))
    ∧ (∃ s : State, ((Instr.ropeStatus ({ port := 2 } : RFrame) 5 ({ alert := 3 } : TeamStat) 9).wf = true) ∧ (s.calm = true) ∧ ((s.ropeRecv ({ port := 2 } : RFrame)).1 = true) ∧ (0 = ({ port := 2 } : RFrame).arg) ∧ (0 < s.ropeDepth) ∧ (s.leads 0 = false) ∧ (({ port := 2 } : RFrame).hops ≠ 0))
    ∧ (∃ s : State, ((Instr.statusSend 9).wf = true) ∧ (s.calm = true) ∧ (s.dstate ≠ 0))
    ∧ (∃ s : State, ((Instr.statusSend 9).wf = true) ∧ (s.calm = true) ∧ (s.dstate = 0)) :=
    ⟨⟨((State.reset.setFld (pgRope 2) 0x044 31 29 4).setFld pgRopeL 0x060 31 29 1), by decide +kernel⟩,
    ⟨(((State.reset.setFld (pgRope 2) 0x044 31 29 4).setFld pgRopeL 0x060 31 29 4).setB pgRopeL 0x060 16), by decide +kernel⟩,
    ⟨(((State.reset.setFld (pgRope 2) 0x044 31 29 4).setFld pgRopeL 0x060 31 29 1).setFld (pgRope 1) 0x044 31 29 4), by decide +kernel⟩,
    ⟨((((State.reset.setFld (pgRope 2) 0x044 31 29 4).setFld pgRopeL 0x060 31 29 4).setB pgRopeL 0x060 16).setFld pgRopeL 0x048 31 28 2), by decide +kernel⟩,
    ⟨State.reset, by decide +kernel⟩⟩

theorem witness_RopeCircuits_1 :
    (∃ s : State, ((Instr.connect ({ port := 2, hops := 16 } : RFrame) 3 false 9).wf = true) ∧ (s.calm = true) ∧ ((s.ropeRecv ({ port := 2, hops := 16 } : RFrame)).1 = false))
    ∧ (∃ s : State, ((Instr.connect ({ port := 2, dpath := [8], spath := [9], arg := 5, seq := 44, hops := 7 } : RFrame) 3 false 9).wf = true) ∧ (s.calm = true) ∧ ((s.ropeRecv ({ port := 2, dpath := [8], spath := [9], arg := 5, seq := 44, hops := 7 } : RFrame)).1 = true) ∧ (s.ropeOn ({ port := 2, dpath := [8], spath := [9], arg := 5, seq := 44, hops := 7 } : RFrame) true = some 3) ∧ (({ port := 2, dpath := [8], spath := [9], arg := 5, seq := 44, hops := 7 } : RFrame).hops ≠ 0))
    ∧ (∃ s : State, ((Instr.connect ({ port := 2, dpath := [8], spath := [9], arg := 5, seq := 44, hops := 0 } : RFrame) 3 false 9).wf = true) ∧ (s.calm = true) ∧ ((s.ropeRecv ({ port := 2, dpath := [8], spath := [9], arg := 5, seq := 44, hops := 0 } : RFrame)).1 = true) ∧ (s.ropeOn ({ port := 2, dpath := [8], spath := [9], arg := 5, seq := 44, hops := 0 } : RFrame) true = some 3) ∧ (({ port := 2, dpath := [8], spath := [9], arg := 5, seq := 44, hops := 0 } : RFrame).hops = 0))
    ∧ (∃ s : State, ((Instr.connect ({ port := 2, dpath := [8], spath := [9], arg := 5, seq := 44, hops := 7 } : RFrame) 3 false 9).wf = true) ∧ (s.calm = true) ∧ ((s.ropeRecv ({ port := 2, dpath := [8], spath := [9], arg := 5, seq := 44, hops := 7 } : RFrame)).1 = true) ∧ (s.ropeLost ({ port := 2, dpath := [8], spath := [9], arg := 5, seq := 44, hops := 7 } : RFrame) true = true))
    ∧ (∃ s : State, ((Instr.connect ({ port := 2, dpath := [7], spath := [9], arg := 5 } : RFrame) 3 true 9).wf = true) ∧ (s.calm = true) ∧ ((s.ropeRecv ({ port := 2, dpath := [7], spath := [9], arg := 5 } : RFrame)).1 = true) ∧ (s.ropeHere ({ port := 2, dpath := [7], spath := [9], arg := 5 } : RFrame) true = true) ∧ (5 = ({ port := 2, dpath := [7], spath := [9], arg := 5 } : RFrame).arg % 4096) ∧ ((s.circH 5).en = true) ∧ ((s.circH 5).ingress = false) ∧ ((s.circH 5).path = ({ port := 2, dpath := [7], spath := [9], arg := 5 } : RFrame).spath) ∧ ((s.circH 5).rcirc = 3) ∧ ((s.circH 5).cstate = 2))
    ∧ (∃ s : State, ((Instr.connect ({ port := 2, dpath := [7], spath := [9], arg := 5 } : RFrame) 3 false 9).wf = true) ∧ (s.calm = true) ∧ ((s.ropeRecv ({ port := 2, dpath := [7], spath := [9], arg := 5 } : RFrame)).1 = true) ∧ (s.ropeHere ({ port := 2, dpath := [7], spath := [9], arg := 5 } : RFrame) true = true) ∧ (5 = ({ port := 2, dpath := [7], spath := [9], arg := 5 } : RFrame).arg % 4096) ∧ ((s.circH 5).en = true) ∧ ((s.circH 5).ingress = true) ∧ ((s.circH 5).path = ({ port := 2, dpath := [7], spath := [9], arg := 5 } : RFrame).spath) ∧ ((s.circH 5).rcirc = 3)) :=
    ⟨⟨(State.reset.setFld (pgRope 2) 0x044 31 29 4), by decide +kernel⟩,
    ⟨((((((State.reset.setFld (pgRope 2) 0x044 31 29 4).setFld pgRopeL 0x060 31 29 4).wr pgRopeL 0x058 7).wr pgRopeL 0x05C 0x10000).setFld (pgRope 3) 0x044 31 29 4).setTeam 0 { row := [(9, 2), (8, 3)], own := 7 }), by decide +kernel⟩,
    ⟨((((((State.reset.setFld (pgRope 2) 0x044 31 29 4).setFld pgRopeL 0x060 31 29 4).wr pgRopeL 0x058 7).wr pgRopeL 0x05C 0x10000).setFld (pgRope 3) 0x044 31 29 4).setTeam 0 { row := [(9, 2), (8, 3)], own := 7 }), by decide +kernel⟩,
    ⟨(((((State.reset.setFld (pgRope 2) 0x044 31 29 4).setFld pgRopeL 0x060 31 29 4).wr pgRopeL 0x058 7).wr pgRopeL 0x05C 0x10000).setTeam 0 { row := [(9, 2)], own := 7 }), by decide +kernel⟩,
    ⟨(teamed.setCirc 5 { w0 := 0x8003000000000009, w1 := 0x1000100000000000, cstate := 2, sent := 5 }), by decide +kernel⟩,
    ⟨(teamed.setCirc 5 { w0 := 0xc003000000000009, w1 := 0x1000100000000000, cstate := 2, freed := 5 }), by decide +kernel⟩⟩

theorem witness_RopeCircuits_2 :
    (∃ s : State, ((Instr.connect ({ port := 2, dpath := [7], spath := [9], arg := 5 } : RFrame) 4 true 9).wf = true) ∧ (s.calm = true) ∧ ((s.ropeRecv ({ port := 2, dpath := [7], spath := [9], arg := 5 } : RFrame)).1 = true) ∧ (s.ropeHere ({ port := 2, dpath := [7], spath := [9], arg := 5 } : RFrame) true = true) ∧ (5 = ({ port := 2, dpath := [7], spath := [9], arg := 5 } : RFrame).arg % 4096) ∧ (((s.circH 5).en = false ∨ (s.circH 5).path ≠ ({ port := 2, dpath := [7], spath := [9], arg := 5 } : RFrame).spath ∨ (s.circH 5).rcirc ≠ 4 ∨ (s.circH 5).ingress = true ∨ (true = true ∧ (s.circH 5).cstate ≠ 2))))
    ∧ (∃ s : State, ((Instr.connectResend 5 99999999).wf = true) ∧ (s.calm = true) ∧ ((s.circH 5).cstate = 2) ∧ ((s.circH 5).ingress = false) ∧ ((s.circH 5).connectAt + cyclesPerMs ≤ 99999999))
    ∧ (∃ s : State, ((Instr.connectResend 5 9).wf = true) ∧ (s.calm = true) ∧ (((s.circH 5).cstate ≠ 2 ∨ (s.circH 5).ingress = true ∨ 9 < (s.circH 5).connectAt + cyclesPerMs)))
    ∧ (∃ s : State, ((Instr.cell ({ port := 2, hops := 16 } : RFrame) ([{ payload := 4 }] : List RopeCell) 9).wf = true) ∧ (s.calm = true) ∧ ((s.ropeRecv ({ port := 2, hops := 16 } : RFrame)).1 = false))
    ∧ (∃ s : State, ((Instr.cell ({ port := 2, dpath := [8], spath := [9], arg := 5, seq := 44, hops := 7 } : RFrame) ([{ payload := 4 }] : List RopeCell) 9).wf = true) ∧ (s.calm = true) ∧ ((s.ropeRecv ({ port := 2, dpath := [8], spath := [9], arg := 5, seq := 44, hops := 7 } : RFrame)).1 = true) ∧ (s.ropeOn ({ port := 2, dpath := [8], spath := [9], arg := 5, seq := 44, hops := 7 } : RFrame) true = some 3) ∧ (({ port := 2, dpath := [8], spath := [9], arg := 5, seq := 44, hops := 7 } : RFrame).hops ≠ 0))
    ∧ (∃ s : State, ((Instr.cell ({ port := 2, dpath := [8], spath := [9], arg := 5, seq := 44, hops := 0 } : RFrame) ([{ payload := 4 }] : List RopeCell) 9).wf = true) ∧ (s.calm = true) ∧ ((s.ropeRecv ({ port := 2, dpath := [8], spath := [9], arg := 5, seq := 44, hops := 0 } : RFrame)).1 = true) ∧ (s.ropeOn ({ port := 2, dpath := [8], spath := [9], arg := 5, seq := 44, hops := 0 } : RFrame) true = some 3) ∧ (({ port := 2, dpath := [8], spath := [9], arg := 5, seq := 44, hops := 0 } : RFrame).hops = 0)) :=
    ⟨⟨(teamed.setCirc 5 { w0 := 0x8003000000000009, w1 := 0x1000100000000000, cstate := 2, sent := 5 }), by decide +kernel⟩,
    ⟨(teamed.setCirc 5 { w0 := 0x8003000000000009, w1 := 0x1000100000000000, cstate := 2 }), by decide +kernel⟩,
    ⟨(teamed.setCirc 5 { w0 := 0x8003000000000009, w1 := 0x1000100000000000, cstate := 2 }), by decide +kernel⟩,
    ⟨(State.reset.setFld (pgRope 2) 0x044 31 29 4), by decide +kernel⟩,
    ⟨((((((State.reset.setFld (pgRope 2) 0x044 31 29 4).setFld pgRopeL 0x060 31 29 4).wr pgRopeL 0x058 7).wr pgRopeL 0x05C 0x10000).setFld (pgRope 3) 0x044 31 29 4).setTeam 0 { row := [(9, 2), (8, 3)], own := 7 }), by decide +kernel⟩,
    ⟨((((((State.reset.setFld (pgRope 2) 0x044 31 29 4).setFld pgRopeL 0x060 31 29 4).wr pgRopeL 0x058 7).wr pgRopeL 0x05C 0x10000).setFld (pgRope 3) 0x044 31 29 4).setTeam 0 { row := [(9, 2), (8, 3)], own := 7 }), by decide +kernel⟩⟩

theorem witness_RopeCircuits_3 :
    (∃ s : State, ((Instr.cell ({ port := 2, dpath := [8], spath := [9], arg := 5, seq := 44, hops := 7 } : RFrame) ([{ payload := 4 }] : List RopeCell) 9).wf = true) ∧ (s.calm = true) ∧ ((s.ropeRecv ({ port := 2, dpath := [8], spath := [9], arg := 5, seq := 44, hops := 7 } : RFrame)).1 = true) ∧ (s.ropeLost ({ port := 2, dpath := [8], spath := [9], arg := 5, seq := 44, hops := 7 } : RFrame) true = true))
    ∧ (∃ s : State, ((Instr.cell ({ port := 2, dpath := [7], spath := [9], seq := 9, arg := 5 } : RFrame) ([{ payload := 4 }, { payload := 5 }] : List RopeCell) 9).wf = true) ∧ (s.calm = true) ∧ ((s.ropeRecv ({ port := 2, dpath := [7], spath := [9], seq := 9, arg := 5 } : RFrame)).1 = true) ∧ (s.ropeHere ({ port := 2, dpath := [7], spath := [9], seq := 9, arg := 5 } : RFrame) true = true) ∧ (5 = ({ port := 2, dpath := [7], spath := [9], seq := 9, arg := 5 } : RFrame).arg % 4096) ∧ ((s.circH 5).en = true) ∧ ((s.circH 5).ingress = true) ∧ ((s.circH 5).cstate = 3) ∧ (2 = (({ port := 2, dpath := [7], spath := [9], seq := 9, arg := 5 } : RFrame).seq % 65536 + 65536 - (s.circH 5).seqIn) % 65536) ∧ (2 < 32768) ∧ (([{ payload := 4 }, { payload := 5 }] : List RopeCell) ≠ []) ∧ (s.entryOf (srcKey 4 5) = none))
    ∧ (∃ s : State, ((Instr.cell ({ port := 2, dpath := [7], spath := [9], seq := 9, arg := 5 } : RFrame) ([{ payload := 4 }, { payload := 5 }] : List RopeCell) 9).wf = true) ∧ (s.calm = true) ∧ ((s.ropeRecv ({ port := 2, dpath := [7], spath := [9], seq := 9, arg := 5 } : RFrame)).1 = true) ∧ (s.ropeHere ({ port := 2, dpath := [7], spath := [9], seq := 9, arg := 5 } : RFrame) true = true) ∧ (5 = ({ port := 2, dpath := [7], spath := [9], seq := 9, arg := 5 } : RFrame).arg % 4096) ∧ ((s.circH 5).en = true) ∧ ((s.circH 5).ingress = true) ∧ ((s.circH 5).cstate = 3) ∧ (2 = (({ port := 2, dpath := [7], spath := [9], seq := 9, arg := 5 } : RFrame).seq % 65536 + 65536 - (s.circH 5).seqIn) % 65536) ∧ (2 < 32768) ∧ (([{ payload := 4 }, { payload := 5 }] : List RopeCell) ≠ []) ∧ (s.entryOf (srcKey 4 5) = some 4))
    ∧ (∃ s : State, ((Instr.cell ({ port := 2, dpath := [7], spath := [9], seq := 5, arg := 5 } : RFrame) ([{ payload := 4 }] : List RopeCell) 9).wf = true) ∧ (s.calm = true) ∧ ((s.ropeRecv ({ port := 2, dpath := [7], spath := [9], seq := 5, arg := 5 } : RFrame)).1 = true) ∧ (s.ropeHere ({ port := 2, dpath := [7], spath := [9], seq := 5, arg := 5 } : RFrame) true = true) ∧ (5 = ({ port := 2, dpath := [7], spath := [9], seq := 5, arg := 5 } : RFrame).arg % 4096) ∧ ((s.circH 5).en = true) ∧ ((s.circH 5).ingress = true) ∧ ((s.circH 5).cstate = 3) ∧ (65534 = (({ port := 2, dpath := [7], spath := [9], seq := 5, arg := 5 } : RFrame).seq % 65536 + 65536 - (s.circH 5).seqIn) % 65536) ∧ (32768 ≤ 65534) ∧ (65534 + ([{ payload := 4 }] : List RopeCell).length ≤ 65536))
    ∧ (∃ s : State, ((Instr.cell ({ port := 2, dpath := [7], spath := [9], arg := 5 } : RFrame) ([{ payload := 4 }] : List RopeCell) 9).wf = true) ∧ (s.calm = true) ∧ ((s.ropeRecv ({ port := 2, dpath := [7], spath := [9], arg := 5 } : RFrame)).1 = true) ∧ (s.ropeHere ({ port := 2, dpath := [7], spath := [9], arg := 5 } : RFrame) true = true) ∧ (5 = ({ port := 2, dpath := [7], spath := [9], arg := 5 } : RFrame).arg % 4096) ∧ (((s.circH 5).en = false ∨ (s.circH 5).ingress = false ∨ (s.circH 5).cstate ≠ 3 ∨ ([{ payload := 4 }] : List RopeCell) = [])))
    ∧ (∃ s : State, ((Instr.normalFlush 5 99999999).wf = true) ∧ (s.calm = true) ∧ ((s.circH 5).tx ≠ []) ∧ ((s.circH 5).txAt + 2 * cyclesPerUs ≤ 99999999)) :=
    ⟨⟨(((((State.reset.setFld (pgRope 2) 0x044 31 29 4).setFld pgRopeL 0x060 31 29 4).wr pgRopeL 0x058 7).wr pgRopeL 0x05C 0x10000).setTeam 0 { row := [(9, 2)], own := 7 }), by decide +kernel⟩,
    ⟨(teamed.setCirc 5 { w0 := 0xc003000000000009, w1 := 0x1000100000000000, cstate := 3, seqIn := 7, freed := 5 }), by decide +kernel⟩,
    ⟨((teamed.setCirc 5 { w0 := 0xc003000000000009, w1 := 0x1000100000000000, cstate := 3, seqIn := 7, freed := 5 }).setStr 4 { en := true, srcKind := 4, srcSel := 5, dests := [{ kind := 1, size := 4 }] }), by decide +kernel⟩,
    ⟨(teamed.setCirc 5 { w0 := 0xc003000000000009, w1 := 0x1000100000000000, cstate := 3, seqIn := 7, freed := 5 }), by decide +kernel⟩,
    ⟨(teamed.setCirc 5 { w0 := 0xc003000000000009, w1 := 0x1000100000000000, cstate := 2 }), by decide +kernel⟩,
    ⟨(teamed.setCirc 5 { w0 := 0x8003000000000009, w1 := 0x1000100000000000, cstate := 3, tx := [{}] }), by decide +kernel⟩⟩

theorem witness_RopeCircuits_4 :
    (∃ s : State, ((Instr.normalFlush 5 99).wf = true) ∧ (s.calm = true) ∧ (((s.circH 5).tx = [] ∨ 99 < (s.circH 5).txAt + 2 * cyclesPerUs)))
    ∧ (∃ s : State, ((Instr.credit ({ port := 2, hops := 16 } : RFrame) 44 9).wf = true) ∧ (s.calm = true) ∧ ((s.ropeRecv ({ port := 2, hops := 16 } : RFrame)).1 = false))
    ∧ (∃ s : State, ((Instr.credit ({ port := 2, dpath := [8], spath := [9], arg := 5, seq := 44, hops := 7 } : RFrame) 44 9).wf = true) ∧ (s.calm = true) ∧ ((s.ropeRecv ({ port := 2, dpath := [8], spath := [9], arg := 5, seq := 44, hops := 7 } : RFrame)).1 = true) ∧ (s.ropeOn ({ port := 2, dpath := [8], spath := [9], arg := 5, seq := 44, hops := 7 } : RFrame) true = some 3) ∧ (({ port := 2, dpath := [8], spath := [9], arg := 5, seq := 44, hops := 7 } : RFrame).hops ≠ 0))
    ∧ (∃ s : State, ((Instr.credit ({ port := 2, dpath := [8], spath := [9], arg := 5, seq := 44, hops := 0 } : RFrame) 44 9).wf = true) ∧ (s.calm = true) ∧ ((s.ropeRecv ({ port := 2, dpath := [8], spath := [9], arg := 5, seq := 44, hops := 0 } : RFrame)).1 = true) ∧ (s.ropeOn ({ port := 2, dpath := [8], spath := [9], arg := 5, seq := 44, hops := 0 } : RFrame) true = some 3) ∧ (({ port := 2, dpath := [8], spath := [9], arg := 5, seq := 44, hops := 0 } : RFrame).hops = 0))
    ∧ (∃ s : State, ((Instr.credit ({ port := 2, dpath := [8], spath := [9], arg := 5, seq := 44, hops := 7 } : RFrame) 44 9).wf = true) ∧ (s.calm = true) ∧ ((s.ropeRecv ({ port := 2, dpath := [8], spath := [9], arg := 5, seq := 44, hops := 7 } : RFrame)).1 = true) ∧ (s.ropeLost ({ port := 2, dpath := [8], spath := [9], arg := 5, seq := 44, hops := 7 } : RFrame) true = true))
    ∧ (∃ s : State, ((Instr.credit ({ port := 2, dpath := [7], spath := [9], arg := 5 } : RFrame) 44 9).wf = true) ∧ (s.calm = true) ∧ ((s.ropeRecv ({ port := 2, dpath := [7], spath := [9], arg := 5 } : RFrame)).1 = true) ∧ (s.ropeHere ({ port := 2, dpath := [7], spath := [9], arg := 5 } : RFrame) true = true) ∧ (5 = ({ port := 2, dpath := [7], spath := [9], arg := 5 } : RFrame).arg % 4096) ∧ ((s.circH 5).en = true) ∧ ((s.circH 5).ingress = false) ∧ ((s.circH 5).cstate = 3)) :=
    ⟨⟨(teamed.setCirc 5 { w0 := 0x8003000000000009, w1 := 0x1000100000000000, cstate := 3, tx := [{}] }), by decide +kernel⟩,
    ⟨(State.reset.setFld (pgRope 2) 0x044 31 29 4), by decide +kernel⟩,
    ⟨((((((State.reset.setFld (pgRope 2) 0x044 31 29 4).setFld pgRopeL 0x060 31 29 4).wr pgRopeL 0x058 7).wr pgRopeL 0x05C 0x10000).setFld (pgRope 3) 0x044 31 29 4).setTeam 0 { row := [(9, 2), (8, 3)], own := 7 }), by decide +kernel⟩,
    ⟨((((((State.reset.setFld (pgRope 2) 0x044 31 29 4).setFld pgRopeL 0x060 31 29 4).wr pgRopeL 0x058 7).wr pgRopeL 0x05C 0x10000).setFld (pgRope 3) 0x044 31 29 4).setTeam 0 { row := [(9, 2), (8, 3)], own := 7 }), by decide +kernel⟩,
    ⟨(((((State.reset.setFld (pgRope 2) 0x044 31 29 4).setFld pgRopeL 0x060 31 29 4).wr pgRopeL 0x058 7).wr pgRopeL 0x05C 0x10000).setTeam 0 { row := [(9, 2)], own := 7 }), by decide +kernel⟩,
    ⟨(teamed.setCirc 5 { w0 := 0x8003000000000009, w1 := 0x1000100000000000, cstate := 3 }), by decide +kernel⟩⟩

theorem witness_RopeCircuits_5 :
    (∃ s : State, ((Instr.credit ({ port := 2, dpath := [7], spath := [9], arg := 5 } : RFrame) 44 9).wf = true) ∧ (s.calm = true) ∧ ((s.ropeRecv ({ port := 2, dpath := [7], spath := [9], arg := 5 } : RFrame)).1 = true) ∧ (s.ropeHere ({ port := 2, dpath := [7], spath := [9], arg := 5 } : RFrame) true = true) ∧ (5 = ({ port := 2, dpath := [7], spath := [9], arg := 5 } : RFrame).arg % 4096) ∧ (((s.circH 5).en = false ∨ (s.circH 5).ingress = true ∨ (s.circH 5).cstate ≠ 3)))
    ∧ (∃ s : State, ((Instr.creditSend 5 9).wf = true) ∧ (s.calm = true) ∧ ((s.circH 5).en = true) ∧ ((s.circH 5).ingress = true) ∧ ((s.circH 5).cstate = 3) ∧ (16 = ((s.circH 5).freed + 2 ^ 32 - (s.circH 5).freedTold) % 2 ^ 32) ∧ ((16 ≤ 16 ∨ (0 < 16 ∧ (s.circH 5).toldAt + 10 * cyclesPerUs ≤ 9))))
    ∧ (∃ s : State, ((Instr.creditSend 5 9).wf = true) ∧ (s.calm = true) ∧ (15 = ((s.circH 5).freed + 2 ^ 32 - (s.circH 5).freedTold) % 2 ^ 32) ∧ (((s.circH 5).en = false ∨ (s.circH 5).ingress = false ∨ (s.circH 5).cstate ≠ 3 ∨ 15 = 0 ∨ (15 < 16 ∧ 9 < (s.circH 5).toldAt + 10 * cyclesPerUs))))
    ∧ (∃ s : State, ((Instr.time ({ port := 2, hops := 16 } : RFrame) false (0 : Int) (0 : Int) 9).wf = true) ∧ (s.calm = true) ∧ ((s.ropeRecv ({ port := 2, hops := 16 } : RFrame)).1 = false))
    ∧ (∃ s : State, ((Instr.time ({ port := 2 } : RFrame) false (0 : Int) (0 : Int) 9).wf = true) ∧ (s.calm = true) ∧ ((s.ropeRecv ({ port := 2 } : RFrame)).1 = true))
    ∧ (∃ s : State, ((Instr.time ({ port := 2 } : RFrame) true (100 : Int) (130 : Int) 29).wf = true) ∧ (s.calm = true) ∧ ((s.ropeRecv ({ port := 2 } : RFrame)).1 = true) ∧ (s.upstream = some ({ port := 2 } : RFrame).port) ∧ ((s.ropeH ({ port := 2 } : RFrame).port).answered = false)) :=
    ⟨⟨(teamed.setCirc 5 { w0 := 0x8003000000000009, w1 := 0x1000100000000000, cstate := 2 }), by decide +kernel⟩,
    ⟨(teamed.setCirc 5 { w0 := 0xc003000000000009, w1 := 0x1000100000000000, cstate := 3, freed := 16 }), by decide +kernel⟩,
    ⟨(teamed.setCirc 5 { w0 := 0xc003000000000009, w1 := 0x1000100000000000, cstate := 3, freed := 15 }), by decide +kernel⟩,
    ⟨(State.reset.setFld (pgRope 2) 0x044 31 29 4), by decide +kernel⟩,
    ⟨(State.reset.setFld (pgRope 2) 0x044 31 29 4), by decide +kernel⟩,
    ⟨((((((State.reset.setFld (pgRope 2) 0x044 31 29 4).setFld pgRopeL 0x060 31 29 4).wr pgRopeL 0x058 7).wr pgRopeL 0x05C 0x10000).setTeam 0 { row := [(0, 2)] }).setRope 2 { answered := false, tTime := 3, rounds := [40, -7] }), by decide +kernel⟩⟩

theorem witness_RopeCircuits_6 :
    (∃ s : State, ((Instr.time ({ port := 2 } : RFrame) true (100 : Int) (130 : Int) 29).wf = true) ∧ (s.calm = true) ∧ ((s.ropeRecv ({ port := 2 } : RFrame)).1 = true) ∧ ((s.upstream ≠ some ({ port := 2 } : RFrame).port ∨ (s.ropeH ({ port := 2 } : RFrame).port).answered = true)))
    ∧ (∃ s : State, ((Instr.timeExchange 9).wf = true) ∧ (s.calm = true) ∧ (s.leads 0 = true))
    ∧ (∃ s : State, ((Instr.timeExchange 9).wf = true) ∧ (s.calm = true) ∧ (s.upstream = some 2) ∧ (0 = (if (s.ropeH 2).answered then 0 else (s.ropeH 2).missed + 1)))
    ∧ (∃ s : State, ((Instr.timeExchange 9).wf = true) ∧ (s.calm = true) ∧ (s.leads 0 = false) ∧ (s.upstream = none)) :=
    ⟨⟨(State.reset.setFld (pgRope 2) 0x044 31 29 4), by decide +kernel⟩,
    ⟨(((State.reset.setFld (pgRope 2) 0x044 31 29 4).setFld pgRopeL 0x060 31 29 4).setB pgRopeL 0x060 16), by decide +kernel⟩,
    ⟨(((((State.reset.setFld (pgRope 2) 0x044 31 29 4).setFld pgRopeL 0x060 31 29 4).wr pgRopeL 0x058 7).wr pgRopeL 0x05C 0x10000).setTeam 0 { row := [(0, 2)], noUp := 4 }), by decide +kernel⟩,
    ⟨(((((State.reset.setFld (pgRope 2) 0x044 31 29 4).setFld pgRopeL 0x060 31 29 4).wr pgRopeL 0x058 7).wr pgRopeL 0x05C 0x10000).setTeam 0 { noUp := 9 }), by decide +kernel⟩⟩

theorem witness_RopeAccess_1 :
    (∃ s : State, ((Instr.accReq ({ port := 2, hops := 16 } : RFrame) false 3 8 7 false 9).wf = true) ∧ (s.calm = true) ∧ ((s.ropeRecv ({ port := 2, hops := 16 } : RFrame)).1 = false))
    ∧ (∃ s : State, ((Instr.accReq ({ port := 2, dpath := [8], spath := [9], arg := 5, seq := 44, hops := 7 } : RFrame) false 3 8 7 false 9).wf = true) ∧ (s.calm = true) ∧ ((s.ropeRecv ({ port := 2, dpath := [8], spath := [9], arg := 5, seq := 44, hops := 7 } : RFrame)).1 = true) ∧ (s.ropeOn ({ port := 2, dpath := [8], spath := [9], arg := 5, seq := 44, hops := 7 } : RFrame) false = some 3) ∧ (({ port := 2, dpath := [8], spath := [9], arg := 5, seq := 44, hops := 7 } : RFrame).hops ≠ 0))
    ∧ (∃ s : State, ((Instr.accReq ({ port := 2, dpath := [8], spath := [9], arg := 5, seq := 44, hops := 0 } : RFrame) false 3 8 7 false 9).wf = true) ∧ (s.calm = true) ∧ ((s.ropeRecv ({ port := 2, dpath := [8], spath := [9], arg := 5, seq := 44, hops := 0 } : RFrame)).1 = true) ∧ (s.ropeOn ({ port := 2, dpath := [8], spath := [9], arg := 5, seq := 44, hops := 0 } : RFrame) false = some 3) ∧ (({ port := 2, dpath := [8], spath := [9], arg := 5, seq := 44, hops := 0 } : RFrame).hops = 0))
    ∧ (∃ s : State, ((Instr.accReq ({ port := 2, dpath := [8], spath := [9], arg := 5, seq := 44, hops := 7 } : RFrame) false 1 8 0 false 9).wf = true) ∧ (s.calm = true) ∧ ((s.ropeRecv ({ port := 2, dpath := [8], spath := [9], arg := 5, seq := 44, hops := 7 } : RFrame)).1 = true) ∧ (s.ropeLost ({ port := 2, dpath := [8], spath := [9], arg := 5, seq := 44, hops := 7 } : RFrame) false = true))
    ∧ (∃ s : State, ((Instr.accReq ({ port := 2, dpath := [7], spath := [9], arg := 5 } : RFrame) false 1 0x1004 0 false 9).wf = true) ∧ (s.calm = true) ∧ ((s.ropeRecv ({ port := 2, dpath := [7], spath := [9], arg := 5 } : RFrame)).1 = true) ∧ (s.ropeHere ({ port := 2, dpath := [7], spath := [9], arg := 5 } : RFrame) false = true) ∧ (2 = (if false then bits (s.grantFor ({ port := 2, dpath := [7], spath := [9], arg := 5 } : RFrame).spath) 5 4 else bits (s.grantFor ({ port := 2, dpath := [7], spath := [9], arg := 5 } : RFrame).spath) 1 0)) ∧ (s.bankState ⟨pgEccD, 0, 2⟩ = 2) ∧ (0x1004 + 8 ≤ dramSize) ∧ (s.lineErr (0x1004 / 64) = []) ∧ (1 = 1 ∨ 1 = 2) ∧ (0x1004 % accSize 1 = 0) ∧ (2 ≠ 0) ∧ (bit (s.grantFor ({ port := 2, dpath := [7], spath := [9], arg := 5 } : RFrame).spath) 8 = true))
    ∧ (∃ s : State, ((Instr.accReq ({ port := 2, dpath := [7], spath := [9], arg := 5 } : RFrame) false 3 0x1004 0x11223344 false 9).wf = true) ∧ (s.calm = true) ∧ ((s.ropeRecv ({ port := 2, dpath := [7], spath := [9], arg := 5 } : RFrame)).1 = true) ∧ (s.ropeHere ({ port := 2, dpath := [7], spath := [9], arg := 5 } : RFrame) false = true) ∧ (2 = (if false then bits (s.grantFor ({ port := 2, dpath := [7], spath := [9], arg := 5 } : RFrame).spath) 5 4 else bits (s.grantFor ({ port := 2, dpath := [7], spath := [9], arg := 5 } : RFrame).spath) 1 0)) ∧ (s.bankState ⟨pgEccD, 0, 2⟩ = 2) ∧ (0x1004 + 8 ≤ dramSize) ∧ (s.lineErr (0x1004 / 64) = []) ∧ (3 = 3 ∨ 3 = 4) ∧ (0x1004 % accSize 3 = 0) ∧ (2 ≤ 2) ∧ (bit (s.grantFor ({ port := 2, dpath := [7], spath := [9], arg := 5 } : RFrame).spath) 9 = true) ∧ (bit ((s.upTo 9).flipRegs pgEccD).1 31 = false)) :=
    ⟨⟨(State.reset.setFld (pgRope 2) 0x044 31 29 4), by decide +kernel⟩,
    ⟨((((((State.reset.setFld (pgRope 2) 0x044 31 29 4).setFld pgRopeL 0x060 31 29 4).wr pgRopeL 0x058 7).wr pgRopeL 0x05C 0x10000).setFld (pgRope 3) 0x044 31 29 4).setTeam 0 { row := [(9, 2), (8, 3)], own := 7 }), by decide +kernel⟩,
    ⟨((((((State.reset.setFld (pgRope 2) 0x044 31 29 4).setFld pgRopeL 0x060 31 29 4).wr pgRopeL 0x058 7).wr pgRopeL 0x05C 0x10000).setFld (pgRope 3) 0x044 31 29 4).setTeam 0 { row := [(9, 2), (8, 3)], own := 7 }), by decide +kernel⟩,
    ⟨(((((State.reset.setFld (pgRope 2) 0x044 31 29 4).setFld pgRopeL 0x060 31 29 4).wr pgRopeL 0x058 7).wr pgRopeL 0x05C 0x10000).setTeam 0 { row := [(9, 2)], own := 7 }), by decide +kernel⟩,
    ⟨((((((teamed.setBank pgEccD 0 { inited := true }).wr pgRopeL 0x204 0x80010000).wr pgRopeL 0x200 9).wr pgRopeL 0x208 0x302)).setByte 0x1004 77), by decide +kernel⟩,
    ⟨(((((teamed.setBank pgEccD 0 { inited := true }).wr pgRopeL 0x204 0x80010000).wr pgRopeL 0x200 9).wr pgRopeL 0x208 0x302)), by decide +kernel⟩⟩

theorem witness_RopeAccess_2 :
    (∃ s : State, ((Instr.accReq ({ port := 2, dpath := [7], spath := [9], arg := 5 } : RFrame) true 3 0x1004 0x11223344 false 9).wf = true) ∧ (s.calm = true) ∧ ((s.ropeRecv ({ port := 2, dpath := [7], spath := [9], arg := 5 } : RFrame)).1 = true) ∧ (s.ropeHere ({ port := 2, dpath := [7], spath := [9], arg := 5 } : RFrame) false = true) ∧ (0 = (if true then bits (s.grantFor ({ port := 2, dpath := [7], spath := [9], arg := 5 } : RFrame).spath) 5 4 else bits (s.grantFor ({ port := 2, dpath := [7], spath := [9], arg := 5 } : RFrame).spath) 1 0)) ∧ (0x1004 < dramSize) ∧ ((0 = 0 ∨ (3 ≤ 3 ∧ 0 = 1) ∨ bit (s.grantFor ({ port := 2, dpath := [7], spath := [9], arg := 5 } : RFrame).spath) (if 3 ≤ 3 then 9 else 8) = false)))
    ∧ (∃ s : State, ((Instr.accReq ({ port := 2, dpath := [7], spath := [9], arg := 5 } : RFrame) false 3 0xF000000000 0x11223344 false 9).wf = true) ∧ (s.calm = true) ∧ ((s.ropeRecv ({ port := 2, dpath := [7], spath := [9], arg := 5 } : RFrame)).1 = true) ∧ (s.ropeHere ({ port := 2, dpath := [7], spath := [9], arg := 5 } : RFrame) false = true) ∧ (2 = (if false then bits (s.grantFor ({ port := 2, dpath := [7], spath := [9], arg := 5 } : RFrame).spath) 5 4 else bits (s.grantFor ({ port := 2, dpath := [7], spath := [9], arg := 5 } : RFrame).spath) 1 0)) ∧ (dramSize ≤ 0xF000000000) ∧ (0xF000000000 < pageBase ∨ pageBase + 2 ^ 28 ≤ 0xF000000000))
    ∧ (∃ s : State, ((Instr.accReq ({ port := 2, dpath := [7], spath := [9], arg := 5 } : RFrame) false 3 ((pageBase + 0x1040) : Nat) 0x11223344 false 9).wf = true) ∧ (s.calm = true) ∧ ((s.ropeRecv ({ port := 2, dpath := [7], spath := [9], arg := 5 } : RFrame)).1 = true) ∧ (s.ropeHere ({ port := 2, dpath := [7], spath := [9], arg := 5 } : RFrame) false = true) ∧ (2 = (if false then bits (s.grantFor ({ port := 2, dpath := [7], spath := [9], arg := 5 } : RFrame).spath) 5 4 else bits (s.grantFor ({ port := 2, dpath := [7], spath := [9], arg := 5 } : RFrame).spath) 1 0)) ∧ (pageBase ≤ ((pageBase + 0x1040) : Nat)) ∧ (((pageBase + 0x1040) : Nat) < pageBase + 2 ^ 28) ∧ (3 ≤ 3) ∧ (ownerAt ((pageBase + 0x1040) : Nat) = 3))
    ∧ (∃ s : State, ((Instr.accReq ({ port := 2, dpath := [7], spath := [9], arg := 5 } : RFrame) true 3 ((pageBase + 0x820040) : Nat) 0x11223344 false 9).wf = true) ∧ (s.calm = true) ∧ ((s.ropeRecv ({ port := 2, dpath := [7], spath := [9], arg := 5 } : RFrame)).1 = true) ∧ (s.ropeHere ({ port := 2, dpath := [7], spath := [9], arg := 5 } : RFrame) false = true) ∧ (0 = (if true then bits (s.grantFor ({ port := 2, dpath := [7], spath := [9], arg := 5 } : RFrame).spath) 5 4 else bits (s.grantFor ({ port := 2, dpath := [7], spath := [9], arg := 5 } : RFrame).spath) 1 0)) ∧ (pageBase ≤ ((pageBase + 0x820040) : Nat)) ∧ (((pageBase + 0x820040) : Nat) < pageBase + 2 ^ 28) ∧ (ownerAt ((pageBase + 0x820040) : Nat) ≠ 3 ∨ 3 < 3) ∧ ((0 = 0 ∨ (3 ≤ 3 ∧ 0 ≤ ownerAt ((pageBase + 0x820040) : Nat)))))
    ∧ (∃ s : State, ((Instr.accReq ({ port := 2, dpath := [7], spath := [9], arg := 5 } : RFrame) false 3 0x1004 0x11223344 true 9).wf = true) ∧ (s.calm = true) ∧ ((s.ropeRecv ({ port := 2, dpath := [7], spath := [9], arg := 5 } : RFrame)).1 = true) ∧ (s.ropeHere ({ port := 2, dpath := [7], spath := [9], arg := 5 } : RFrame) false = true) ∧ (2 = (if false then bits (s.grantFor ({ port := 2, dpath := [7], spath := [9], arg := 5 } : RFrame).spath) 5 4 else bits (s.grantFor ({ port := 2, dpath := [7], spath := [9], arg := 5 } : RFrame).spath) 1 0)) ∧ (0x1004 < dramSize) ∧ (3 ≤ 3) ∧ (2 ≤ 2) ∧ (bit (s.grantFor ({ port := 2, dpath := [7], spath := [9], arg := 5 } : RFrame).spath) 9 = true) ∧ (true = true))
    ∧ (∃ s : State, ((Instr.accReq ({ port := 2, dpath := [7], spath := [9], arg := 5 } : RFrame) false 3 0x1002 0x11223344 false 9).wf = true) ∧ (s.calm = true) ∧ ((s.ropeRecv ({ port := 2, dpath := [7], spath := [9], arg := 5 } : RFrame)).1 = true) ∧ (s.ropeHere ({ port := 2, dpath := [7], spath := [9], arg := 5 } : RFrame) false = true) ∧ (2 = (if false then bits (s.grantFor ({ port := 2, dpath := [7], spath := [9], arg := 5 } : RFrame).spath) 5 4 else bits (s.grantFor ({ port := 2, dpath := [7], spath := [9], arg := 5 } : RFrame).spath) 1 0)) ∧ (0x1002 < dramSize) ∧ (0x1002 % accSize 3 ≠ 0) ∧ (false = false) ∧ (2 ≠ 0) ∧ (3 ≤ 3 → 2 ≤ 2) ∧ (bit (s.grantFor ({ port := 2, dpath := [7], spath := [9], arg := 5 } : RFrame).spath) (if 3 ≤ 3 then 9 else 8) = true)) :=
    ⟨⟨((((teamed.setBank pgEccD 0 { inited := true }).wr pgRopeL 0x204 0x80010000).wr pgRopeL 0x200 9).wr pgRopeL 0x208 0x302), by decide +kernel⟩,
    ⟨((((teamed.setBank pgEccD 0 { inited := true }).wr pgRopeL 0x204 0x80010000).wr pgRopeL 0x200 9).wr pgRopeL 0x208 0x302), by decide +kernel⟩,
    ⟨((((teamed.setBank pgEccD 0 { inited := true }).wr pgRopeL 0x204 0x80010000).wr pgRopeL 0x200 9).wr pgRopeL 0x208 0x302), by decide +kernel⟩,
    ⟨((((teamed.setBank pgEccD 0 { inited := true }).wr pgRopeL 0x204 0x80010000).wr pgRopeL 0x200 9).wr pgRopeL 0x208 0x302), by decide +kernel⟩,
    ⟨((((teamed.setBank pgEccD 0 { inited := true }).wr pgRopeL 0x204 0x80010000).wr pgRopeL 0x200 9).wr pgRopeL 0x208 0x302), by decide +kernel⟩,
    ⟨((((teamed.setBank pgEccD 0 { inited := true }).wr pgRopeL 0x204 0x80010000).wr pgRopeL 0x200 9).wr pgRopeL 0x208 0x302), by decide +kernel⟩⟩

theorem witness_RopeAccess_3 :
    (∃ s : State, ((Instr.accReq ({ port := 2, dpath := [7], spath := [9], arg := 5 } : RFrame) false 3 ((pageBase + 0x820014) : Nat) 0x44 false 9).wf = true) ∧ (s.calm = true) ∧ ((s.ropeRecv ({ port := 2, dpath := [7], spath := [9], arg := 5 } : RFrame)).1 = true) ∧ (s.ropeHere ({ port := 2, dpath := [7], spath := [9], arg := 5 } : RFrame) false = true) ∧ (2 = (if false then bits (s.grantFor ({ port := 2, dpath := [7], spath := [9], arg := 5 } : RFrame).spath) 5 4 else bits (s.grantFor ({ port := 2, dpath := [7], spath := [9], arg := 5 } : RFrame).spath) 1 0)) ∧ (pageBase ≤ ((pageBase + 0x820014) : Nat)) ∧ (((pageBase + 0x820014) : Nat) < pageBase + 2 ^ 28) ∧ (3 ≤ 3) ∧ (ownerAt ((pageBase + 0x820014) : Nat) < 2))
    ∧ (∃ s : State, ((Instr.accReq ({ port := 2, dpath := [7], spath := [9], arg := 5 } : RFrame) false 1 ((pageBase + 0x820014) : Nat) 0 false 9).wf = true) ∧ (s.calm = true) ∧ ((s.ropeRecv ({ port := 2, dpath := [7], spath := [9], arg := 5 } : RFrame)).1 = true) ∧ (s.ropeHere ({ port := 2, dpath := [7], spath := [9], arg := 5 } : RFrame) false = true) ∧ (2 = (if false then bits (s.grantFor ({ port := 2, dpath := [7], spath := [9], arg := 5 } : RFrame).spath) 5 4 else bits (s.grantFor ({ port := 2, dpath := [7], spath := [9], arg := 5 } : RFrame).spath) 1 0)) ∧ (pageBase ≤ ((pageBase + 0x820014) : Nat)) ∧ (((pageBase + 0x820014) : Nat) < pageBase + 2 ^ 28) ∧ (1 ≤ 2) ∧ (2 ≠ 0) ∧ (((pageBase + 0x820014) : Nat) % accSize 1 = 0))
    ∧ (∃ s : State, ((Instr.accReq ({ port := 2, dpath := [7], spath := [9], arg := 5 } : RFrame) false 2 ((pageBase + 0x820014) : Nat) 0x11223344 false 9).wf = true) ∧ (s.calm = true) ∧ ((s.ropeRecv ({ port := 2, dpath := [7], spath := [9], arg := 5 } : RFrame)).1 = true) ∧ (s.ropeHere ({ port := 2, dpath := [7], spath := [9], arg := 5 } : RFrame) false = true) ∧ (2 = (if false then bits (s.grantFor ({ port := 2, dpath := [7], spath := [9], arg := 5 } : RFrame).spath) 5 4 else bits (s.grantFor ({ port := 2, dpath := [7], spath := [9], arg := 5 } : RFrame).spath) 1 0)) ∧ (pageBase ≤ ((pageBase + 0x820014) : Nat)) ∧ (((pageBase + 0x820014) : Nat) < pageBase + 2 ^ 28) ∧ (2 ≤ 2) ∧ (2 ≠ 0) ∧ (((pageBase + 0x820014) : Nat) % accSize 2 ≠ 0))
    ∧ (∃ s : State, ((Instr.accReq ({ port := 2, dpath := [7], spath := [9], arg := 5 } : RFrame) false 1 0x1004 0 false 9).wf = true) ∧ (s.calm = true) ∧ ((s.ropeRecv ({ port := 2, dpath := [7], spath := [9], arg := 5 } : RFrame)).1 = true) ∧ (({ port := 2, dpath := [7], spath := [9], arg := 5 } : RFrame).dpath ≠ []) ∧ (s.dstate = 4) ∧ (s.ropeRoute ({ port := 2, dpath := [7], spath := [9], arg := 5 } : RFrame).dpath false = .team 1) ∧ ((0x1004 < pageBase ∨ pageBase + 2 ^ 28 ≤ 0x1004 ∨ (((0x1004 - pageBase) / 4096) ≠ 0x820 + 1 ∧ ((0x1004 - pageBase) / 4096) ≠ 0x826 + 1))))
    ∧ (∃ s : State, ((Instr.accRep ({ port := 2, hops := 16 } : RFrame) 0 false 9).wf = true) ∧ (s.calm = true) ∧ ((s.ropeRecv ({ port := 2, hops := 16 } : RFrame)).1 = false))
    ∧ (∃ s : State, ((Instr.accRep ({ port := 2, dpath := [8], spath := [9], arg := 5, seq := 44, hops := 7 } : RFrame) 0 false 9).wf = true) ∧ (s.calm = true) ∧ ((s.ropeRecv ({ port := 2, dpath := [8], spath := [9], arg := 5, seq := 44, hops := 7 } : RFrame)).1 = true) ∧ (s.ropeOn ({ port := 2, dpath := [8], spath := [9], arg := 5, seq := 44, hops := 7 } : RFrame) false = some 3) ∧ (({ port := 2, dpath := [8], spath := [9], arg := 5, seq := 44, hops := 7 } : RFrame).hops ≠ 0)) :=
    ⟨⟨(((((teamed.setBank pgEccD 0 { inited := true }).wr pgRopeL 0x204 0x80010000).wr pgRopeL 0x200 9).wr pgRopeL 0x208 0x302)), by decide +kernel⟩,
    ⟨(((((teamed.setBank pgEccD 0 { inited := true }).wr pgRopeL 0x204 0x80010000).wr pgRopeL 0x200 9).wr pgRopeL 0x208 0x302)), by decide +kernel⟩,
    ⟨((((teamed.setBank pgEccD 0 { inited := true }).wr pgRopeL 0x204 0x80010000).wr pgRopeL 0x200 9).wr pgRopeL 0x208 0x302), by decide +kernel⟩,
    ⟨(((((((teamed.setBank pgEccD 0 { inited := true }).wr pgRopeL 0x204 0x80010000).wr pgRopeL 0x200 9).wr pgRopeL 0x208 0x302)).setFld pgRopeL 0x048 31 28 2).setB pgRopeL 0x060 17), by decide +kernel⟩,
    ⟨(State.reset.setFld (pgRope 2) 0x044 31 29 4), by decide +kernel⟩,
    ⟨((((((State.reset.setFld (pgRope 2) 0x044 31 29 4).setFld pgRopeL 0x060 31 29 4).wr pgRopeL 0x058 7).wr pgRopeL 0x05C 0x10000).setFld (pgRope 3) 0x044 31 29 4).setTeam 0 { row := [(9, 2), (8, 3)], own := 7 }), by decide +kernel⟩⟩

theorem witness_RopeAccess_4 :
    (∃ s : State, ((Instr.accRep ({ port := 2, dpath := [8], spath := [9], arg := 5, seq := 44, hops := 0 } : RFrame) 0 false 9).wf = true) ∧ (s.calm = true) ∧ ((s.ropeRecv ({ port := 2, dpath := [8], spath := [9], arg := 5, seq := 44, hops := 0 } : RFrame)).1 = true) ∧ (s.ropeOn ({ port := 2, dpath := [8], spath := [9], arg := 5, seq := 44, hops := 0 } : RFrame) false = some 3) ∧ (({ port := 2, dpath := [8], spath := [9], arg := 5, seq := 44, hops := 0 } : RFrame).hops = 0))
    ∧ (∃ s : State, ((Instr.accRep ({ port := 2, dpath := [8], spath := [9], arg := 5, seq := 44, hops := 7 } : RFrame) 0 false 9).wf = true) ∧ (s.calm = true) ∧ ((s.ropeRecv ({ port := 2, dpath := [8], spath := [9], arg := 5, seq := 44, hops := 7 } : RFrame)).1 = true) ∧ (s.ropeLost ({ port := 2, dpath := [8], spath := [9], arg := 5, seq := 44, hops := 7 } : RFrame) false = true))
    ∧ (∃ s : State, ((Instr.accRep ({ port := 2, dpath := [7], spath := [9], arg := 1 } : RFrame) 0x123456789A true 9).wf = true) ∧ (s.calm = true) ∧ ((s.ropeRecv ({ port := 2, dpath := [7], spath := [9], arg := 1 } : RFrame)).1 = true) ∧ (s.ropeHere ({ port := 2, dpath := [7], spath := [9], arg := 1 } : RFrame) false = true) ∧ (({ port := 2, dpath := [7], spath := [9], arg := 1 } : RFrame).arg = s.slotTag 1) ∧ (1 < 4) ∧ ((s.fld pgRopeL (0x118 + 32 * 1) 31 29) = 1))
    ∧ (∃ s : State, ((Instr.accRep ({ port := 2, dpath := [7], spath := [9], arg := 5 } : RFrame) 7 false 9).wf = true) ∧ (s.calm = true) ∧ ((s.ropeRecv ({ port := 2, dpath := [7], spath := [9], arg := 5 } : RFrame)).1 = true) ∧ (s.ropeHere ({ port := 2, dpath := [7], spath := [9], arg := 5 } : RFrame) false = true) ∧ ((({ port := 2, dpath := [7], spath := [9], arg := 5 } : RFrame).arg ≠ s.slotTag (({ port := 2, dpath := [7], spath := [9], arg := 5 } : RFrame).arg % 4) ∨ s.fld pgRopeL (0x118 + 32 * (({ port := 2, dpath := [7], spath := [9], arg := 5 } : RFrame).arg % 4)) 31 29 ≠ 1)))
    ∧ (∃ s : State, ((Instr.refuse ({ port := 2, hops := 16 } : RFrame) 2 8 9).wf = true) ∧ (s.calm = true) ∧ ((s.ropeRecv ({ port := 2, hops := 16 } : RFrame)).1 = false))
    ∧ (∃ s : State, ((Instr.refuse ({ port := 2, dpath := [8], spath := [9], arg := 5, seq := 44, hops := 7 } : RFrame) 2 8 9).wf = true) ∧ (s.calm = true) ∧ ((s.ropeRecv ({ port := 2, dpath := [8], spath := [9], arg := 5, seq := 44, hops := 7 } : RFrame)).1 = true) ∧ (s.ropeOn ({ port := 2, dpath := [8], spath := [9], arg := 5, seq := 44, hops := 7 } : RFrame) false = some 3) ∧ (({ port := 2, dpath := [8], spath := [9], arg := 5, seq := 44, hops := 7 } : RFrame).hops ≠ 0)) :=
    ⟨⟨((((((State.reset.setFld (pgRope 2) 0x044 31 29 4).setFld pgRopeL 0x060 31 29 4).wr pgRopeL 0x058 7).wr pgRopeL 0x05C 0x10000).setFld (pgRope 3) 0x044 31 29 4).setTeam 0 { row := [(9, 2), (8, 3)], own := 7 }), by decide +kernel⟩,
    ⟨(((((State.reset.setFld (pgRope 2) 0x044 31 29 4).setFld pgRopeL 0x060 31 29 4).wr pgRopeL 0x058 7).wr pgRopeL 0x05C 0x10000).setTeam 0 { row := [(9, 2)], own := 7 }), by decide +kernel⟩,
    ⟨(({ (((((State.reset.setFld (pgRope 2) 0x044 31 29 4).setFld pgRopeL 0x060 31 29 4).wr pgRopeL 0x058 7).wr pgRopeL 0x05C 0x10000).setTeam 0 { row := [(9, 2)], own := 7 }) with rope := { slots := [{}, { op := 1 }, {}, {}] } } : State).wr pgRopeL 0x138 0x20000000), by decide +kernel⟩,
    ⟨(({ (((((State.reset.setFld (pgRope 2) 0x044 31 29 4).setFld pgRopeL 0x060 31 29 4).wr pgRopeL 0x058 7).wr pgRopeL 0x05C 0x10000).setTeam 0 { row := [(9, 2)], own := 7 }) with rope := { slots := [{}, { op := 1 }, {}, {}] } } : State).wr pgRopeL 0x138 0x20000000), by decide +kernel⟩,
    ⟨(State.reset.setFld (pgRope 2) 0x044 31 29 4), by decide +kernel⟩,
    ⟨((((((State.reset.setFld (pgRope 2) 0x044 31 29 4).setFld pgRopeL 0x060 31 29 4).wr pgRopeL 0x058 7).wr pgRopeL 0x05C 0x10000).setFld (pgRope 3) 0x044 31 29 4).setTeam 0 { row := [(9, 2), (8, 3)], own := 7 }), by decide +kernel⟩⟩

theorem witness_RopeAccess_5 :
    (∃ s : State, ((Instr.refuse ({ port := 2, dpath := [8], spath := [9], arg := 5, seq := 44, hops := 0 } : RFrame) 2 8 9).wf = true) ∧ (s.calm = true) ∧ ((s.ropeRecv ({ port := 2, dpath := [8], spath := [9], arg := 5, seq := 44, hops := 0 } : RFrame)).1 = true) ∧ (s.ropeOn ({ port := 2, dpath := [8], spath := [9], arg := 5, seq := 44, hops := 0 } : RFrame) false = some 3) ∧ (({ port := 2, dpath := [8], spath := [9], arg := 5, seq := 44, hops := 0 } : RFrame).hops = 0))
    ∧ (∃ s : State, ((Instr.refuse ({ port := 2, dpath := [8], spath := [9], arg := 5, seq := 44, hops := 7 } : RFrame) 2 8 9).wf = true) ∧ (s.calm = true) ∧ ((s.ropeRecv ({ port := 2, dpath := [8], spath := [9], arg := 5, seq := 44, hops := 7 } : RFrame)).1 = true) ∧ (s.ropeLost ({ port := 2, dpath := [8], spath := [9], arg := 5, seq := 44, hops := 7 } : RFrame) false = true))
    ∧ (∃ s : State, ((Instr.refuse ({ port := 2, dpath := [7], spath := [9], arg := 1 } : RFrame) 5 0 9).wf = true) ∧ (s.calm = true) ∧ ((s.ropeRecv ({ port := 2, dpath := [7], spath := [9], arg := 1 } : RFrame)).1 = true) ∧ (s.ropeHere ({ port := 2, dpath := [7], spath := [9], arg := 1 } : RFrame) false = true) ∧ (({ port := 2, dpath := [7], spath := [9], arg := 1 } : RFrame).arg = s.slotTag 1) ∧ (1 < 4) ∧ ((s.fld pgRopeL (0x118 + 32 * 1) 31 29) = 1))
    ∧ (∃ s : State, ((Instr.refuse ({ port := 2, dpath := [7], spath := [9], arg := 5 } : RFrame) 3 0 9).wf = true) ∧ (s.calm = true) ∧ ((s.ropeRecv ({ port := 2, dpath := [7], spath := [9], arg := 5 } : RFrame)).1 = true) ∧ (s.ropeHere ({ port := 2, dpath := [7], spath := [9], arg := 5 } : RFrame) false = true) ∧ ((({ port := 2, dpath := [7], spath := [9], arg := 5 } : RFrame).arg ≠ s.slotTag (({ port := 2, dpath := [7], spath := [9], arg := 5 } : RFrame).arg % 4) ∨ s.fld pgRopeL (0x118 + 32 * (({ port := 2, dpath := [7], spath := [9], arg := 5 } : RFrame).arg % 4)) 31 29 ≠ 1)))
    ∧ (∃ s : State, ((Instr.read32 .basecamp 1 0x12345678 9).wf = true) ∧ (s.calm = true) ∧ (s.mayWrite .basecamp pgRopeL .ropeL = true) ∧ (s.powered pgRopeL = true) ∧ ((s.pageH pgRopeL).resetting = false) ∧ ((s.fld pgRopeL (0x118 + 32 * 1) 31 29) ≠ 1) ∧ (fromOuter .basecamp = true → 2 ≤ 1) ∧ (s.rope.slots.length = 4) ∧ (s.dstate = 4) ∧ (s.ropeRoute (pathOf (s.rd64 pgRopeL (0x100 + 32 * 1))) false = .port 2))
    ∧ (∃ s : State, ((Instr.read32 ((.tile 5 0) : Writer) 2 8 9).wf = true) ∧ (s.calm = true) ∧ (s.mayWrite ((.tile 5 0) : Writer) pgRopeL .ropeL = true) ∧ (s.powered pgRopeL = true) ∧ ((s.pageH pgRopeL).resetting = false) ∧ ((s.fld pgRopeL (0x118 + 32 * 2) 31 29) ≠ 1) ∧ ((fromOuter ((.tile 5 0) : Writer) = true → 2 ≤ 2)) ∧ (s.rope.slots.length = 4) ∧ ((s.dstate ≠ 4 ∨ s.ropeRoute (pathOf (s.rd64 pgRopeL (0x100 + 32 * 2))) false = .nowhere))) :=
    ⟨⟨((((((State.reset.setFld (pgRope 2) 0x044 31 29 4).setFld pgRopeL 0x060 31 29 4).wr pgRopeL 0x058 7).wr pgRopeL 0x05C 0x10000).setFld (pgRope 3) 0x044 31 29 4).setTeam 0 { row := [(9, 2), (8, 3)], own := 7 }), by decide +kernel⟩,
    ⟨(((((State.reset.setFld (pgRope 2) 0x044 31 29 4).setFld pgRopeL 0x060 31 29 4).wr pgRopeL 0x058 7).wr pgRopeL 0x05C 0x10000).setTeam 0 { row := [(9, 2)], own := 7 }), by decide +kernel⟩,
    ⟨(({ (((((State.reset.setFld (pgRope 2) 0x044 31 29 4).setFld pgRopeL 0x060 31 29 4).wr pgRopeL 0x058 7).wr pgRopeL 0x05C 0x10000).setTeam 0 { row := [(9, 2)], own := 7 }) with rope := { slots := [{}, { op := 1 }, {}, {}] } } : State).wr pgRopeL 0x138 0x20000000), by decide +kernel⟩,
    ⟨(({ (((((State.reset.setFld (pgRope 2) 0x044 31 29 4).setFld pgRopeL 0x060 31 29 4).wr pgRopeL 0x058 7).wr pgRopeL 0x05C 0x10000).setTeam 0 { row := [(9, 2)], own := 7 }) with rope := { slots := [{}, { op := 1 }, {}, {}] } } : State).wr pgRopeL 0x138 0x20000000), by decide +kernel⟩,
    ⟨((teamed.wr pgRopeL 0x120 9).wr pgRopeL 0x124 0x10000), by decide +kernel⟩,
    ⟨State.reset, by decide +kernel⟩⟩

theorem witness_RopeAccess_6 :
    (∃ s : State, ((Instr.read32 .basecamp 1 0xF000000000 9).wf = true) ∧ (s.calm = true) ∧ (s.mayWrite .basecamp pgRopeL .ropeL = true) ∧ (s.powered pgRopeL = true) ∧ ((s.pageH pgRopeL).resetting = false) ∧ ((s.fld pgRopeL (0x118 + 32 * 1) 31 29) ≠ 1) ∧ (fromOuter .basecamp = true → 2 ≤ 1) ∧ (s.rope.slots.length = 4) ∧ (s.dstate = 4) ∧ (s.ropeRoute (pathOf (s.rd64 pgRopeL (0x100 + 32 * 1))) false = .here) ∧ (0xF000000000 % 4 ≠ 0 ∨ (dramSize ≤ 0xF000000000 ∧ (0xF000000000 < pageBase ∨ pageBase + 2 ^ 28 ≤ 0xF000000000))) ∧ (0 < (if 2 ≤ 1 then bits (s.grantFor s.ownPath) 5 4 else bits (s.grantFor s.ownPath) 1 0)))
    ∧ (∃ s : State, ((Instr.read32 ((.tile 5 0) : Writer) 1 8 9).wf = true) ∧ (s.calm = true) ∧ (s.mayWrite ((.tile 5 0) : Writer) pgRopeL .ropeL = true) ∧ ((s.powered pgRopeL = false ∨ (s.pageH pgRopeL).resetting = true ∨ (s.fld pgRopeL (0x118 + 32 * 1) 31 29) = 1 ∨ (fromOuter ((.tile 5 0) : Writer) = true ∧ 1 < 2))))
    ∧ (∃ s : State, ((Instr.read64 .basecamp 1 0x12345678 9).wf = true) ∧ (s.calm = true) ∧ (s.mayWrite .basecamp pgRopeL .ropeL = true) ∧ (s.powered pgRopeL = true) ∧ ((s.pageH pgRopeL).resetting = false) ∧ ((s.fld pgRopeL (0x118 + 32 * 1) 31 29) ≠ 1) ∧ (fromOuter .basecamp = true → 2 ≤ 1) ∧ (s.rope.slots.length = 4) ∧ (s.dstate = 4) ∧ (s.ropeRoute (pathOf (s.rd64 pgRopeL (0x100 + 32 * 1))) false = .port 2))
    ∧ (∃ s : State, ((Instr.read64 ((.tile 5 0) : Writer) 2 8 9).wf = true) ∧ (s.calm = true) ∧ (s.mayWrite ((.tile 5 0) : Writer) pgRopeL .ropeL = true) ∧ (s.powered pgRopeL = true) ∧ ((s.pageH pgRopeL).resetting = false) ∧ ((s.fld pgRopeL (0x118 + 32 * 2) 31 29) ≠ 1) ∧ ((fromOuter ((.tile 5 0) : Writer) = true → 2 ≤ 2)) ∧ (s.rope.slots.length = 4) ∧ ((s.dstate ≠ 4 ∨ s.ropeRoute (pathOf (s.rd64 pgRopeL (0x100 + 32 * 2))) false = .nowhere)))
    ∧ (∃ s : State, ((Instr.read64 .basecamp 1 0xF000000000 9).wf = true) ∧ (s.calm = true) ∧ (s.mayWrite .basecamp pgRopeL .ropeL = true) ∧ (s.powered pgRopeL = true) ∧ ((s.pageH pgRopeL).resetting = false) ∧ ((s.fld pgRopeL (0x118 + 32 * 1) 31 29) ≠ 1) ∧ (fromOuter .basecamp = true → 2 ≤ 1) ∧ (s.rope.slots.length = 4) ∧ (s.dstate = 4) ∧ (s.ropeRoute (pathOf (s.rd64 pgRopeL (0x100 + 32 * 1))) false = .here) ∧ (0xF000000000 % 8 ≠ 0 ∨ (dramSize ≤ 0xF000000000 ∧ (0xF000000000 < pageBase ∨ pageBase + 2 ^ 28 ≤ 0xF000000000))) ∧ (0 < (if 2 ≤ 1 then bits (s.grantFor s.ownPath) 5 4 else bits (s.grantFor s.ownPath) 1 0)))
    ∧ (∃ s : State, ((Instr.read64 ((.tile 5 0) : Writer) 1 8 9).wf = true) ∧ (s.calm = true) ∧ (s.mayWrite ((.tile 5 0) : Writer) pgRopeL .ropeL = true) ∧ ((s.powered pgRopeL = false ∨ (s.pageH pgRopeL).resetting = true ∨ (s.fld pgRopeL (0x118 + 32 * 1) 31 29) = 1 ∨ (fromOuter ((.tile 5 0) : Writer) = true ∧ 1 < 2)))) :=
    ⟨⟨((((teamed.wr pgRopeL 0x120 7).wr pgRopeL 0x124 0x10000).wr pgRopeL 0x204 0x80000000).wr pgRopeL 0x208 2), by decide +kernel⟩,
    ⟨State.reset, by decide +kernel⟩,
    ⟨((teamed.wr pgRopeL 0x120 9).wr pgRopeL 0x124 0x10000), by decide +kernel⟩,
    ⟨State.reset, by decide +kernel⟩,
    ⟨((((teamed.wr pgRopeL 0x120 7).wr pgRopeL 0x124 0x10000).wr pgRopeL 0x204 0x80000000).wr pgRopeL 0x208 2), by decide +kernel⟩,
    ⟨State.reset, by decide +kernel⟩⟩

theorem witness_RopeAccess_7 :
    (∃ s : State, ((Instr.write32 .basecamp 1 0x12345678 9).wf = true) ∧ (s.calm = true) ∧ (s.mayWrite .basecamp pgRopeL .ropeL = true) ∧ (s.powered pgRopeL = true) ∧ ((s.pageH pgRopeL).resetting = false) ∧ ((s.fld pgRopeL (0x118 + 32 * 1) 31 29) ≠ 1) ∧ (fromOuter .basecamp = true → 2 ≤ 1) ∧ (s.rope.slots.length = 4) ∧ (s.dstate = 4) ∧ (s.ropeRoute (pathOf (s.rd64 pgRopeL (0x100 + 32 * 1))) false = .port 2))
    ∧ (∃ s : State, ((Instr.write32 ((.tile 5 0) : Writer) 2 8 9).wf = true) ∧ (s.calm = true) ∧ (s.mayWrite ((.tile 5 0) : Writer) pgRopeL .ropeL = true) ∧ (s.powered pgRopeL = true) ∧ ((s.pageH pgRopeL).resetting = false) ∧ ((s.fld pgRopeL (0x118 + 32 * 2) 31 29) ≠ 1) ∧ ((fromOuter ((.tile 5 0) : Writer) = true → 2 ≤ 2)) ∧ (s.rope.slots.length = 4) ∧ ((s.dstate ≠ 4 ∨ s.ropeRoute (pathOf (s.rd64 pgRopeL (0x100 + 32 * 2))) false = .nowhere)))
    ∧ (∃ s : State, ((Instr.write32 .basecamp 1 0xF000000000 9).wf = true) ∧ (s.calm = true) ∧ (s.mayWrite .basecamp pgRopeL .ropeL = true) ∧ (s.powered pgRopeL = true) ∧ ((s.pageH pgRopeL).resetting = false) ∧ ((s.fld pgRopeL (0x118 + 32 * 1) 31 29) ≠ 1) ∧ (fromOuter .basecamp = true → 2 ≤ 1) ∧ (s.rope.slots.length = 4) ∧ (s.dstate = 4) ∧ (s.ropeRoute (pathOf (s.rd64 pgRopeL (0x100 + 32 * 1))) false = .here) ∧ (0xF000000000 % 4 ≠ 0 ∨ (dramSize ≤ 0xF000000000 ∧ (0xF000000000 < pageBase ∨ pageBase + 2 ^ 28 ≤ 0xF000000000))) ∧ (0 < (if 2 ≤ 1 then bits (s.grantFor s.ownPath) 5 4 else bits (s.grantFor s.ownPath) 1 0)))
    ∧ (∃ s : State, ((Instr.write32 ((.tile 5 0) : Writer) 1 8 9).wf = true) ∧ (s.calm = true) ∧ (s.mayWrite ((.tile 5 0) : Writer) pgRopeL .ropeL = true) ∧ ((s.powered pgRopeL = false ∨ (s.pageH pgRopeL).resetting = true ∨ (s.fld pgRopeL (0x118 + 32 * 1) 31 29) = 1 ∨ (fromOuter ((.tile 5 0) : Writer) = true ∧ 1 < 2))))
    ∧ (∃ s : State, ((Instr.write64 .basecamp 1 0x12345678 9).wf = true) ∧ (s.calm = true) ∧ (s.mayWrite .basecamp pgRopeL .ropeL = true) ∧ (s.powered pgRopeL = true) ∧ ((s.pageH pgRopeL).resetting = false) ∧ ((s.fld pgRopeL (0x118 + 32 * 1) 31 29) ≠ 1) ∧ (fromOuter .basecamp = true → 2 ≤ 1) ∧ (s.rope.slots.length = 4) ∧ (s.dstate = 4) ∧ (s.ropeRoute (pathOf (s.rd64 pgRopeL (0x100 + 32 * 1))) false = .port 2))
    ∧ (∃ s : State, ((Instr.write64 ((.tile 5 0) : Writer) 2 8 9).wf = true) ∧ (s.calm = true) ∧ (s.mayWrite ((.tile 5 0) : Writer) pgRopeL .ropeL = true) ∧ (s.powered pgRopeL = true) ∧ ((s.pageH pgRopeL).resetting = false) ∧ ((s.fld pgRopeL (0x118 + 32 * 2) 31 29) ≠ 1) ∧ ((fromOuter ((.tile 5 0) : Writer) = true → 2 ≤ 2)) ∧ (s.rope.slots.length = 4) ∧ ((s.dstate ≠ 4 ∨ s.ropeRoute (pathOf (s.rd64 pgRopeL (0x100 + 32 * 2))) false = .nowhere))) :=
    ⟨⟨((teamed.wr pgRopeL 0x120 9).wr pgRopeL 0x124 0x10000), by decide +kernel⟩,
    ⟨State.reset, by decide +kernel⟩,
    ⟨((((teamed.wr pgRopeL 0x120 7).wr pgRopeL 0x124 0x10000).wr pgRopeL 0x204 0x80000000).wr pgRopeL 0x208 2), by decide +kernel⟩,
    ⟨State.reset, by decide +kernel⟩,
    ⟨((teamed.wr pgRopeL 0x120 9).wr pgRopeL 0x124 0x10000), by decide +kernel⟩,
    ⟨State.reset, by decide +kernel⟩⟩

theorem witness_RopeAccess_8 :
    (∃ s : State, ((Instr.write64 .basecamp 1 0xF000000000 9).wf = true) ∧ (s.calm = true) ∧ (s.mayWrite .basecamp pgRopeL .ropeL = true) ∧ (s.powered pgRopeL = true) ∧ ((s.pageH pgRopeL).resetting = false) ∧ ((s.fld pgRopeL (0x118 + 32 * 1) 31 29) ≠ 1) ∧ (fromOuter .basecamp = true → 2 ≤ 1) ∧ (s.rope.slots.length = 4) ∧ (s.dstate = 4) ∧ (s.ropeRoute (pathOf (s.rd64 pgRopeL (0x100 + 32 * 1))) false = .here) ∧ (0xF000000000 % 8 ≠ 0 ∨ (dramSize ≤ 0xF000000000 ∧ (0xF000000000 < pageBase ∨ pageBase + 2 ^ 28 ≤ 0xF000000000))) ∧ (0 < (if 2 ≤ 1 then bits (s.grantFor s.ownPath) 5 4 else bits (s.grantFor s.ownPath) 1 0)))
    ∧ (∃ s : State, ((Instr.write64 ((.tile 5 0) : Writer) 1 8 9).wf = true) ∧ (s.calm = true) ∧ (s.mayWrite ((.tile 5 0) : Writer) pgRopeL .ropeL = true) ∧ ((s.powered pgRopeL = false ∨ (s.pageH pgRopeL).resetting = true ∨ (s.fld pgRopeL (0x118 + 32 * 1) 31 29) = 1 ∨ (fromOuter ((.tile 5 0) : Writer) = true ∧ 1 < 2))))
    ∧ (∃ s : State, ((Instr.accessTimeout 1 99999999).wf = true) ∧ (s.calm = true) ∧ ((s.fld pgRopeL (0x118 + 32 * 1) 31 29) = 1) ∧ ((s.slotAcc 1).t + s.rd pgRopeL 0x074 * cyclesPerUs ≤ 99999999))
    ∧ (∃ s : State, ((Instr.accessTimeout 1 99).wf = true) ∧ (s.calm = true) ∧ (((s.fld pgRopeL (0x118 + 32 * 1) 31 29) ≠ 1 ∨ 99 < (s.slotAcc 1).t + s.rd pgRopeL 0x074 * cyclesPerUs))) :=
    ⟨⟨((((teamed.wr pgRopeL 0x120 7).wr pgRopeL 0x124 0x10000).wr pgRopeL 0x204 0x80000000).wr pgRopeL 0x208 2), by decide +kernel⟩,
    ⟨State.reset, by decide +kernel⟩,
    ⟨(({ (((((State.reset.setFld (pgRope 2) 0x044 31 29 4).setFld pgRopeL 0x060 31 29 4).wr pgRopeL 0x058 7).wr pgRopeL 0x05C 0x10000).setTeam 0 { row := [(9, 2)], own := 7 }) with rope := { slots := [{}, { op := 1 }, {}, {}] } } : State).wr pgRopeL 0x138 0x20000000), by decide +kernel⟩,
    ⟨(({ (((((State.reset.setFld (pgRope 2) 0x044 31 29 4).setFld pgRopeL 0x060 31 29 4).wr pgRopeL 0x058 7).wr pgRopeL 0x05C 0x10000).setTeam 0 { row := [(9, 2)], own := 7 }) with rope := { slots := [{}, { op := 1 }, {}, {}] } } : State).wr pgRopeL 0x138 0x20000000), by decide +kernel⟩⟩

theorem witness_Datagrams_1 :
    (∃ s : State, ((Instr.nonce ({ tag := 7, seq := 3 } : Bap) 1 9).wf = true) ∧ (s.calm = true) ∧ ((s.upTo 9).srcBlocked ({ tag := 7, seq := 3 } : Bap).ip = false) ∧ (({ tag := 7, seq := 3 } : Bap).ver = 0x10) ∧ ((({ tag := 7, seq := 3 } : Bap).service && s.getB (pgBcp 2) 0x040 30 && ({ tag := 7, seq := 3 } : Bap).key != 0) = false))
    ∧ (∃ s : State, ((Instr.nonce ({ service := true, key := 2, tag := 7, seq := 3 } : Bap) 1 9).wf = true) ∧ (s.calm = true) ∧ ((s.upTo 9).srcBlocked ({ service := true, key := 2, tag := 7, seq := 3 } : Bap).ip = false) ∧ (({ service := true, key := 2, tag := 7, seq := 3 } : Bap).ver = 0x10) ∧ ((({ service := true, key := 2, tag := 7, seq := 3 } : Bap).service && s.getB (pgBcp 2) 0x040 30 && ({ service := true, key := 2, tag := 7, seq := 3 } : Bap).key != 0) = true) ∧ (((s.upTo 9).bapDrops ({ service := true, key := 2, tag := 7, seq := 3 } : Bap).ip).length < 15))
    ∧ (∃ s : State, ((Instr.nonce ({ ver := 3 } : Bap) 1 9).wf = true) ∧ (s.calm = true) ∧ (1 = 1) ∧ (((s.upTo 9).srcBlocked ({ ver := 3 } : Bap).ip = true ∨ ({ ver := 3 } : Bap).ver ≠ 0x10)))
    ∧ (∃ s : State, ((Instr.nonce ({ ver := 3 } : Bap) 2 9).wf = true) ∧ (s.calm = true) ∧ (2 ≤ 2) ∧ (2 ≤ 9))
    ∧ (∃ s : State, ((Instr.nonce ({ key := 1, tag := 7, seq := 3, mac := 275869411503798157609627018737619528624 } : Bap) 77 9).wf = true) ∧ (s.calm = true) ∧ (((s.upTo 9).bapAccept ({ key := 1, tag := 7, seq := 3, mac := 275869411503798157609627018737619528624 } : Bap) 77).1 = true) ∧ (77 = 0 ∨ 9 < 77))
    ∧ (∃ s : State, ((Instr.nonce ({ ver := 0x20 } : Bap) 77 9).wf = true) ∧ (s.calm = true) ∧ ((s.upTo 9).bapHeard ({ ver := 0x20 } : Bap) 77 = false) ∧ (77 = 0 ∨ 9 < 77)) :=
    ⟨⟨keyed, by decide +kernel⟩,
    ⟨(keyed.setB (pgBcp 2) 0x040 30), by decide +kernel⟩,
    ⟨keyed, by decide +kernel⟩,
    ⟨keyed, by decide +kernel⟩,
    ⟨keyed, by decide +kernel⟩,
    ⟨keyed, by decide +kernel⟩⟩

theorem witness_Datagrams_2 :
    (∃ s : State, ((Instr.nonce ({ key := 1, seq := 3, mac := 1 } : Bap) 77 9).wf = true) ∧ (s.calm = true) ∧ ((s.upTo 9).bapHeard ({ key := 1, seq := 3, mac := 1 } : Bap) 77 = true) ∧ (((s.upTo 9).bapAccept ({ key := 1, seq := 3, mac := 1 } : Bap) 77).1 = false) ∧ (77 = 0 ∨ 9 < 77) ∧ (((s.upTo 9).bapDrops ({ key := 1, seq := 3, mac := 1 } : Bap).ip).length < 15))
    ∧ (∃ s : State, ((Instr.nonce ({ ip := 6, key := 1, seq := 3, mac := 1 } : Bap) 77 9).wf = true) ∧ (s.calm = true) ∧ ((s.upTo 9).bapHeard ({ ip := 6, key := 1, seq := 3, mac := 1 } : Bap) 77 = true) ∧ (((s.upTo 9).bapAccept ({ ip := 6, key := 1, seq := 3, mac := 1 } : Bap) 77).1 = false) ∧ (77 = 0 ∨ 9 < 77) ∧ (15 ≤ ((s.upTo 9).bapDrops ({ ip := 6, key := 1, seq := 3, mac := 1 } : Bap).ip).length))
    ∧ (∃ s : State, ((Instr.bapRead ({ key := 1, tag := 7, seq := 3, addr := 0x1008, count := 3, size := 1, mac := 24039338016560427142913415192764346301 } : Bap) 9).wf = true) ∧ (s.calm = true) ∧ (((s.upTo 9).bapAccept ({ key := 1, tag := 7, seq := 3, addr := 0x1008, count := 3, size := 1, mac := 24039338016560427142913415192764346301 } : Bap) 2).1 = true) ∧ (({ key := 1, tag := 7, seq := 3, addr := 0x1008, count := 3, size := 1, mac := 24039338016560427142913415192764346301 } : Bap).path = []) ∧ (({ key := 1, tag := 7, seq := 3, addr := 0x1008, count := 3, size := 1, mac := 24039338016560427142913415192764346301 } : Bap).size ≤ 1) ∧ (s.bankState ⟨pgEccD, 0, 2⟩ = 2) ∧ ((({ key := 1, tag := 7, seq := 3, addr := 0x1008, count := 3, size := 1, mac := 24039338016560427142913415192764346301 } : Bap).addr % 2 ^ 40) + (if ({ key := 1, tag := 7, seq := 3, addr := 0x1008, count := 3, size := 1, mac := 24039338016560427142913415192764346301 } : Bap).size = 0 then 4 else 8) * ({ key := 1, tag := 7, seq := 3, addr := 0x1008, count := 3, size := 1, mac := 24039338016560427142913415192764346301 } : Bap).count ≤ dramSize) ∧ ((({ key := 1, tag := 7, seq := 3, addr := 0x1008, count := 3, size := 1, mac := 24039338016560427142913415192764346301 } : Bap).addr % 2 ^ 40) % (if ({ key := 1, tag := 7, seq := 3, addr := 0x1008, count := 3, size := 1, mac := 24039338016560427142913415192764346301 } : Bap).size = 0 then 4 else 8) = 0) ∧ (((List.range ({ key := 1, tag := 7, seq := 3, addr := 0x1008, count := 3, size := 1, mac := 24039338016560427142913415192764346301 } : Bap).count).all fun x => (s.lineErr (((({ key := 1, tag := 7, seq := 3, addr := 0x1008, count := 3, size := 1, mac := 24039338016560427142913415192764346301 } : Bap).addr % 2 ^ 40) + (if ({ key := 1, tag := 7, seq := 3, addr := 0x1008, count := 3, size := 1, mac := 24039338016560427142913415192764346301 } : Bap).size = 0 then 4 else 8) * x) / 64)).isEmpty) = true) ∧ ((s.bcp.keys.getD ({ key := 1, tag := 7, seq := 3, addr := 0x1008, count := 3, size := 1, mac := 24039338016560427142913415192764346301 } : Bap).key {}).right ≠ 0) ∧ (({ key := 1, tag := 7, seq := 3, addr := 0x1008, count := 3, size := 1, mac := 24039338016560427142913415192764346301 } : Bap).count ≤ 128))
    ∧ (∃ s : State, ((Instr.bapRead ({ key := 1, tag := 7, seq := 3, addr := (pageBase + 0x820014), count := 1, mac := 48310606074613251927264850174028914390 } : Bap) 9).wf = true) ∧ (s.calm = true) ∧ (((s.upTo 9).bapAccept ({ key := 1, tag := 7, seq := 3, addr := (pageBase + 0x820014), count := 1, mac := 48310606074613251927264850174028914390 } : Bap) 2).1 = true) ∧ (({ key := 1, tag := 7, seq := 3, addr := (pageBase + 0x820014), count := 1, mac := 48310606074613251927264850174028914390 } : Bap).path = []) ∧ (({ key := 1, tag := 7, seq := 3, addr := (pageBase + 0x820014), count := 1, mac := 48310606074613251927264850174028914390 } : Bap).size ≤ 1) ∧ ((s.bcp.keys.getD ({ key := 1, tag := 7, seq := 3, addr := (pageBase + 0x820014), count := 1, mac := 48310606074613251927264850174028914390 } : Bap).key {}).right ≠ 0) ∧ (({ key := 1, tag := 7, seq := 3, addr := (pageBase + 0x820014), count := 1, mac := 48310606074613251927264850174028914390 } : Bap).count = 1))
    ∧ (∃ s : State, ((Instr.bapRead ({ key := 1, tag := 7, seq := 3, addr := 0x1008, count := 2, size := 1, path := [9], data := [7], mac := 62521233171202037628726486258518704519 } : Bap) 9).wf = true) ∧ (s.calm = true) ∧ (((s.upTo 9).bapAccept ({ key := 1, tag := 7, seq := 3, addr := 0x1008, count := 2, size := 1, path := [9], data := [7], mac := 62521233171202037628726486258518704519 } : Bap) 2).1 = true) ∧ (({ key := 1, tag := 7, seq := 3, addr := 0x1008, count := 2, size := 1, path := [9], data := [7], mac := 62521233171202037628726486258518704519 } : Bap).path ≠ []) ∧ (({ key := 1, tag := 7, seq := 3, addr := 0x1008, count := 2, size := 1, path := [9], data := [7], mac := 62521233171202037628726486258518704519 } : Bap).path.length ≤ 6) ∧ (1 ≤ ({ key := 1, tag := 7, seq := 3, addr := 0x1008, count := 2, size := 1, path := [9], data := [7], mac := 62521233171202037628726486258518704519 } : Bap).count) ∧ (({ key := 1, tag := 7, seq := 3, addr := 0x1008, count := 2, size := 1, path := [9], data := [7], mac := 62521233171202037628726486258518704519 } : Bap).count ≤ 128) ∧ (({ key := 1, tag := 7, seq := 3, addr := 0x1008, count := 2, size := 1, path := [9], data := [7], mac := 62521233171202037628726486258518704519 } : Bap).size ≤ 1) ∧ ((s.bcp.keys.getD ({ key := 1, tag := 7, seq := 3, addr := 0x1008, count := 2, size := 1, path := [9], data := [7], mac := 62521233171202037628726486258518704519 } : Bap).key {}).right ≠ 0) ∧ (s.rope.slots.length = 4) ∧ ([0, 1].find? (fun x => s.fld pgRopeL (0x118 + 32 * x) 31 29 != 1 && !(s.slotAcc x).bap) = some 0) ∧ (s.dstate = 4) ∧ (s.ropeRoute (pathOf (pathReg ({ key := 1, tag := 7, seq := 3, addr := 0x1008, count := 2, size := 1, path := [9], data := [7], mac := 62521233171202037628726486258518704519 } : Bap).path)) false = .port 2))
    ∧ (∃ s : State, ((Instr.bapRead ({ key := 1, tag := 7, seq := 3, addr := 0x1008, count := 2, size := 1, path := [9], data := [7], mac := 62521233171202037628726486258518704519 } : Bap) 9).wf = true) ∧ (s.calm = true) ∧ (((s.upTo 9).bapAccept ({ key := 1, tag := 7, seq := 3, addr := 0x1008, count := 2, size := 1, path := [9], data := [7], mac := 62521233171202037628726486258518704519 } : Bap) 2).1 = true) ∧ (({ key := 1, tag := 7, seq := 3, addr := 0x1008, count := 2, size := 1, path := [9], data := [7], mac := 62521233171202037628726486258518704519 } : Bap).path ≠ []) ∧ (({ key := 1, tag := 7, seq := 3, addr := 0x1008, count := 2, size := 1, path := [9], data := [7], mac := 62521233171202037628726486258518704519 } : Bap).path.length ≤ 6) ∧ (1 ≤ ({ key := 1, tag := 7, seq := 3, addr := 0x1008, count := 2, size := 1, path := [9], data := [7], mac := 62521233171202037628726486258518704519 } : Bap).count) ∧ (({ key := 1, tag := 7, seq := 3, addr := 0x1008, count := 2, size := 1, path := [9], data := [7], mac := 62521233171202037628726486258518704519 } : Bap).count ≤ 128) ∧ (({ key := 1, tag := 7, seq := 3, addr := 0x1008, count := 2, size := 1, path := [9], data := [7], mac := 62521233171202037628726486258518704519 } : Bap).size ≤ 1) ∧ ((s.bcp.keys.getD ({ key := 1, tag := 7, seq := 3, addr := 0x1008, count := 2, size := 1, path := [9], data := [7], mac := 62521233171202037628726486258518704519 } : Bap).key {}).right ≠ 0) ∧ (s.rope.slots.length = 4) ∧ ([0, 1].find? (fun x => s.fld pgRopeL (0x118 + 32 * x) 31 29 != 1 && !(s.slotAcc x).bap) = some 0) ∧ ((s.dstate ≠ 4 ∨ s.ropeRoute (pathOf (pathReg ({ key := 1, tag := 7, seq := 3, addr := 0x1008, count := 2, size := 1, path := [9], data := [7], mac := 62521233171202037628726486258518704519 } : Bap).path)) false = .nowhere))) :=
    ⟨⟨keyed, by decide +kernel⟩,
    ⟨({ keyed with bcp := { keyed.bcp with srcs := [⟨6, List.replicate 15 4, none⟩] } } : State), by decide +kernel⟩,
    ⟨((keyed.setBank pgEccD 0 { inited := true }).setByte 0x100A 7), by decide +kernel⟩,
    ⟨keyed, by decide +kernel⟩,
    ⟨(((((keyed.setFld (pgRope 2) 0x044 31 29 4).setFld pgRopeL 0x060 31 29 4).wr pgRopeL 0x058 7).wr pgRopeL 0x05C 0x10000).setTeam 0 { row := [(9, 2)], own := 7 }), by decide +kernel⟩,
    ⟨keyed, by decide +kernel⟩⟩

theorem witness_Datagrams_3 :
    (∃ s : State, ((Instr.bapRead ({ key := 1, tag := 7, seq := 3, addr := 0x1008, count := 2, size := 1, path := [9], data := [7], mac := 62521233171202037628726486258518704519 } : Bap) 9).wf = true) ∧ (s.calm = true) ∧ (((s.upTo 9).bapAccept ({ key := 1, tag := 7, seq := 3, addr := 0x1008, count := 2, size := 1, path := [9], data := [7], mac := 62521233171202037628726486258518704519 } : Bap) 2).1 = true) ∧ (({ key := 1, tag := 7, seq := 3, addr := 0x1008, count := 2, size := 1, path := [9], data := [7], mac := 62521233171202037628726486258518704519 } : Bap).path ≠ []) ∧ (({ key := 1, tag := 7, seq := 3, addr := 0x1008, count := 2, size := 1, path := [9], data := [7], mac := 62521233171202037628726486258518704519 } : Bap).path.length ≤ 6) ∧ (1 ≤ ({ key := 1, tag := 7, seq := 3, addr := 0x1008, count := 2, size := 1, path := [9], data := [7], mac := 62521233171202037628726486258518704519 } : Bap).count) ∧ (({ key := 1, tag := 7, seq := 3, addr := 0x1008, count := 2, size := 1, path := [9], data := [7], mac := 62521233171202037628726486258518704519 } : Bap).count ≤ 128) ∧ (({ key := 1, tag := 7, seq := 3, addr := 0x1008, count := 2, size := 1, path := [9], data := [7], mac := 62521233171202037628726486258518704519 } : Bap).size ≤ 1) ∧ ((s.bcp.keys.getD ({ key := 1, tag := 7, seq := 3, addr := 0x1008, count := 2, size := 1, path := [9], data := [7], mac := 62521233171202037628726486258518704519 } : Bap).key {}).right ≠ 0) ∧ (s.rope.slots.length = 4) ∧ ([0, 1].find? (fun x => s.fld pgRopeL (0x118 + 32 * x) 31 29 != 1 && !(s.slotAcc x).bap) = none))
    ∧ (∃ s : State, ((Instr.bapRead ({ key := 1, tag := 7, seq := 3, count := 129, mac := 153139738718429725273795674565684901599 } : Bap) 9).wf = true) ∧ (s.calm = true) ∧ (((s.upTo 9).bapAccept ({ key := 1, tag := 7, seq := 3, count := 129, mac := 153139738718429725273795674565684901599 } : Bap) 2).1 = true) ∧ ((s.bcp.keys.getD ({ key := 1, tag := 7, seq := 3, count := 129, mac := 153139738718429725273795674565684901599 } : Bap).key {}).right ≠ 0) ∧ ((128 < ({ key := 1, tag := 7, seq := 3, count := 129, mac := 153139738718429725273795674565684901599 } : Bap).count ∨ 1 < ({ key := 1, tag := 7, seq := 3, count := 129, mac := 153139738718429725273795674565684901599 } : Bap).size ∨ 6 < ({ key := 1, tag := 7, seq := 3, count := 129, mac := 153139738718429725273795674565684901599 } : Bap).path.length)))
    ∧ (∃ s : State, ((Instr.bapRead ({ key := 1, tag := 7, seq := 3, mac := 315692574605279708701413621842566202598 } : Bap) 9).wf = true) ∧ (s.calm = true) ∧ (((s.upTo 9).bapAccept ({ key := 1, tag := 7, seq := 3, mac := 315692574605279708701413621842566202598 } : Bap) 2).1 = true) ∧ ((s.bcp.keys.getD ({ key := 1, tag := 7, seq := 3, mac := 315692574605279708701413621842566202598 } : Bap).key {}).right ≠ 0) ∧ (({ key := 1, tag := 7, seq := 3, mac := 315692574605279708701413621842566202598 } : Bap).count = 0) ∧ (({ key := 1, tag := 7, seq := 3, mac := 315692574605279708701413621842566202598 } : Bap).size ≤ 1) ∧ (({ key := 1, tag := 7, seq := 3, mac := 315692574605279708701413621842566202598 } : Bap).path.length ≤ 6))
    ∧ (∃ s : State, ((Instr.bapRead ({ key := 2, tag := 7, seq := 3, mac := 106400192598599372464742250407287483282 } : Bap) 9).wf = true) ∧ (s.calm = true) ∧ (((s.upTo 9).bapAccept ({ key := 2, tag := 7, seq := 3, mac := 106400192598599372464742250407287483282 } : Bap) 2).1 = true) ∧ ((s.bcp.keys.getD ({ key := 2, tag := 7, seq := 3, mac := 106400192598599372464742250407287483282 } : Bap).key {}).right = 0))
    ∧ (∃ s : State, ((Instr.bapRead ({ ver := 0x20 } : Bap) 9).wf = true) ∧ (s.calm = true) ∧ ((s.upTo 9).bapHeard ({ ver := 0x20 } : Bap) 2 = false))
    ∧ (∃ s : State, ((Instr.bapRead ({ key := 1, seq := 3, mac := 1 } : Bap) 9).wf = true) ∧ (s.calm = true) ∧ ((s.upTo 9).bapHeard ({ key := 1, seq := 3, mac := 1 } : Bap) 2 = true) ∧ (((s.upTo 9).bapAccept ({ key := 1, seq := 3, mac := 1 } : Bap) 2).1 = false) ∧ (((s.upTo 9).bapDrops ({ key := 1, seq := 3, mac := 1 } : Bap).ip).length < 15)) :=
    ⟨⟨((keyed.setFld pgRopeL 0x118 31 29 1).setFld pgRopeL 0x138 31 29 1), by decide +kernel⟩,
    ⟨keyed, by decide +kernel⟩,
    ⟨keyed, by decide +kernel⟩,
    ⟨({ State.reset with bcp := { State.reset.bcp with booted := true, keys := { right := 4, upd := true } :: {} :: { key := some 5 } :: List.replicate 5 {} } } : State), by decide +kernel⟩,
    ⟨keyed, by decide +kernel⟩,
    ⟨keyed, by decide +kernel⟩⟩

theorem witness_Datagrams_4 :
    (∃ s : State, ((Instr.bapRead ({ ip := 6, key := 1, seq := 3, mac := 1 } : Bap) 9).wf = true) ∧ (s.calm = true) ∧ ((s.upTo 9).bapHeard ({ ip := 6, key := 1, seq := 3, mac := 1 } : Bap) 2 = true) ∧ (((s.upTo 9).bapAccept ({ ip := 6, key := 1, seq := 3, mac := 1 } : Bap) 2).1 = false) ∧ (15 ≤ ((s.upTo 9).bapDrops ({ ip := 6, key := 1, seq := 3, mac := 1 } : Bap).ip).length))
    ∧ (∃ s : State, ((Instr.bapWrite ({ key := 1, tag := 7, seq := 3, addr := 0x1008, count := 2, size := 1, data := [0x1122334455667788, 0x99], mac := 131751633948662541209283929371711124089 } : Bap) 9).wf = true) ∧ (s.calm = true) ∧ (((s.upTo 9).bapAccept ({ key := 1, tag := 7, seq := 3, addr := 0x1008, count := 2, size := 1, data := [0x1122334455667788, 0x99], mac := 131751633948662541209283929371711124089 } : Bap) 3).1 = true) ∧ (({ key := 1, tag := 7, seq := 3, addr := 0x1008, count := 2, size := 1, data := [0x1122334455667788, 0x99], mac := 131751633948662541209283929371711124089 } : Bap).path = []) ∧ (({ key := 1, tag := 7, seq := 3, addr := 0x1008, count := 2, size := 1, data := [0x1122334455667788, 0x99], mac := 131751633948662541209283929371711124089 } : Bap).size ≤ 1) ∧ (s.bankState ⟨pgEccD, 0, 2⟩ = 2) ∧ ((({ key := 1, tag := 7, seq := 3, addr := 0x1008, count := 2, size := 1, data := [0x1122334455667788, 0x99], mac := 131751633948662541209283929371711124089 } : Bap).addr % 2 ^ 40) + (if ({ key := 1, tag := 7, seq := 3, addr := 0x1008, count := 2, size := 1, data := [0x1122334455667788, 0x99], mac := 131751633948662541209283929371711124089 } : Bap).size = 0 then 4 else 8) * ({ key := 1, tag := 7, seq := 3, addr := 0x1008, count := 2, size := 1, data := [0x1122334455667788, 0x99], mac := 131751633948662541209283929371711124089 } : Bap).count ≤ dramSize) ∧ ((({ key := 1, tag := 7, seq := 3, addr := 0x1008, count := 2, size := 1, data := [0x1122334455667788, 0x99], mac := 131751633948662541209283929371711124089 } : Bap).addr % 2 ^ 40) % (if ({ key := 1, tag := 7, seq := 3, addr := 0x1008, count := 2, size := 1, data := [0x1122334455667788, 0x99], mac := 131751633948662541209283929371711124089 } : Bap).size = 0 then 4 else 8) = 0) ∧ (((List.range ({ key := 1, tag := 7, seq := 3, addr := 0x1008, count := 2, size := 1, data := [0x1122334455667788, 0x99], mac := 131751633948662541209283929371711124089 } : Bap).count).all fun x => (s.lineErr (((({ key := 1, tag := 7, seq := 3, addr := 0x1008, count := 2, size := 1, data := [0x1122334455667788, 0x99], mac := 131751633948662541209283929371711124089 } : Bap).addr % 2 ^ 40) + (if ({ key := 1, tag := 7, seq := 3, addr := 0x1008, count := 2, size := 1, data := [0x1122334455667788, 0x99], mac := 131751633948662541209283929371711124089 } : Bap).size = 0 then 4 else 8) * x) / 64)).isEmpty) = true) ∧ (2 ≤ (s.bcp.keys.getD ({ key := 1, tag := 7, seq := 3, addr := 0x1008, count := 2, size := 1, data := [0x1122334455667788, 0x99], mac := 131751633948662541209283929371711124089 } : Bap).key {}).right) ∧ (({ key := 1, tag := 7, seq := 3, addr := 0x1008, count := 2, size := 1, data := [0x1122334455667788, 0x99], mac := 131751633948662541209283929371711124089 } : Bap).count ≤ 128) ∧ (bit ((s.upTo 9).flipRegs pgEccD).1 31 = false))
    ∧ (∃ s : State, ((Instr.bapWrite ({ key := 1, tag := 7, seq := 3, addr := (pageBase + 0x820014), count := 1, data := [7], mac := 121981837617576415562293888566065621894 } : Bap) 9).wf = true) ∧ (s.calm = true) ∧ (((s.upTo 9).bapAccept ({ key := 1, tag := 7, seq := 3, addr := (pageBase + 0x820014), count := 1, data := [7], mac := 121981837617576415562293888566065621894 } : Bap) 3).1 = true) ∧ (({ key := 1, tag := 7, seq := 3, addr := (pageBase + 0x820014), count := 1, data := [7], mac := 121981837617576415562293888566065621894 } : Bap).path = []) ∧ (({ key := 1, tag := 7, seq := 3, addr := (pageBase + 0x820014), count := 1, data := [7], mac := 121981837617576415562293888566065621894 } : Bap).size ≤ 1) ∧ (ownerAt (({ key := 1, tag := 7, seq := 3, addr := (pageBase + 0x820014), count := 1, data := [7], mac := 121981837617576415562293888566065621894 } : Bap).addr % 2 ^ 40) + 1 ≤ (s.bcp.keys.getD ({ key := 1, tag := 7, seq := 3, addr := (pageBase + 0x820014), count := 1, data := [7], mac := 121981837617576415562293888566065621894 } : Bap).key {}).right) ∧ (({ key := 1, tag := 7, seq := 3, addr := (pageBase + 0x820014), count := 1, data := [7], mac := 121981837617576415562293888566065621894 } : Bap).count = 1) ∧ ((s.upTo 9).heldFull (({ key := 1, tag := 7, seq := 3, addr := (pageBase + 0x820014), count := 1, data := [7], mac := 121981837617576415562293888566065621894 } : Bap).addr % 2 ^ 40) (if ({ key := 1, tag := 7, seq := 3, addr := (pageBase + 0x820014), count := 1, data := [7], mac := 121981837617576415562293888566065621894 } : Bap).size = 0 then 4 else 8) = false))
    ∧ (∃ s : State, ((Instr.bapWrite ({ key := 1, tag := 7, seq := 3, addr := (tileBase 3 + 8), count := 1, data := [7], mac := 53618364436031298144581559735287610166 } : Bap) 9).wf = true) ∧ (s.calm = true) ∧ (((s.upTo 9).bapAccept ({ key := 1, tag := 7, seq := 3, addr := (tileBase 3 + 8), count := 1, data := [7], mac := 53618364436031298144581559735287610166 } : Bap) 3).1 = true) ∧ (({ key := 1, tag := 7, seq := 3, addr := (tileBase 3 + 8), count := 1, data := [7], mac := 53618364436031298144581559735287610166 } : Bap).path = []) ∧ (({ key := 1, tag := 7, seq := 3, addr := (tileBase 3 + 8), count := 1, data := [7], mac := 53618364436031298144581559735287610166 } : Bap).size ≤ 1) ∧ (ownerAt (({ key := 1, tag := 7, seq := 3, addr := (tileBase 3 + 8), count := 1, data := [7], mac := 53618364436031298144581559735287610166 } : Bap).addr % 2 ^ 40) + 1 ≤ (s.bcp.keys.getD ({ key := 1, tag := 7, seq := 3, addr := (tileBase 3 + 8), count := 1, data := [7], mac := 53618364436031298144581559735287610166 } : Bap).key {}).right) ∧ (1 ≤ ({ key := 1, tag := 7, seq := 3, addr := (tileBase 3 + 8), count := 1, data := [7], mac := 53618364436031298144581559735287610166 } : Bap).count) ∧ (({ key := 1, tag := 7, seq := 3, addr := (tileBase 3 + 8), count := 1, data := [7], mac := 53618364436031298144581559735287610166 } : Bap).count ≤ 128) ∧ ((s.upTo 9).heldFull (({ key := 1, tag := 7, seq := 3, addr := (tileBase 3 + 8), count := 1, data := [7], mac := 53618364436031298144581559735287610166 } : Bap).addr % 2 ^ 40) (if ({ key := 1, tag := 7, seq := 3, addr := (tileBase 3 + 8), count := 1, data := [7], mac := 53618364436031298144581559735287610166 } : Bap).size = 0 then 4 else 8) = true))
    ∧ (∃ s : State, ((Instr.bapWrite ({ key := 1, tag := 7, seq := 3, addr := 0x1008, count := 2, size := 1, path := [9], data := [7], mac := 70556963463423682324490493720589770387 } : Bap) 9).wf = true) ∧ (s.calm = true) ∧ (((s.upTo 9).bapAccept ({ key := 1, tag := 7, seq := 3, addr := 0x1008, count := 2, size := 1, path := [9], data := [7], mac := 70556963463423682324490493720589770387 } : Bap) 3).1 = true) ∧ (({ key := 1, tag := 7, seq := 3, addr := 0x1008, count := 2, size := 1, path := [9], data := [7], mac := 70556963463423682324490493720589770387 } : Bap).path ≠ []) ∧ (({ key := 1, tag := 7, seq := 3, addr := 0x1008, count := 2, size := 1, path := [9], data := [7], mac := 70556963463423682324490493720589770387 } : Bap).path.length ≤ 6) ∧ (1 ≤ ({ key := 1, tag := 7, seq := 3, addr := 0x1008, count := 2, size := 1, path := [9], data := [7], mac := 70556963463423682324490493720589770387 } : Bap).count) ∧ (({ key := 1, tag := 7, seq := 3, addr := 0x1008, count := 2, size := 1, path := [9], data := [7], mac := 70556963463423682324490493720589770387 } : Bap).count ≤ 128) ∧ (({ key := 1, tag := 7, seq := 3, addr := 0x1008, count := 2, size := 1, path := [9], data := [7], mac := 70556963463423682324490493720589770387 } : Bap).size ≤ 1) ∧ (ownerAt (({ key := 1, tag := 7, seq := 3, addr := 0x1008, count := 2, size := 1, path := [9], data := [7], mac := 70556963463423682324490493720589770387 } : Bap).addr % 2 ^ 40) + 1 ≤ (s.bcp.keys.getD ({ key := 1, tag := 7, seq := 3, addr := 0x1008, count := 2, size := 1, path := [9], data := [7], mac := 70556963463423682324490493720589770387 } : Bap).key {}).right) ∧ (s.rope.slots.length = 4) ∧ ([0, 1].find? (fun x => s.fld pgRopeL (0x118 + 32 * x) 31 29 != 1 && !(s.slotAcc x).bap) = some 0) ∧ (s.dstate = 4) ∧ (s.ropeRoute (pathOf (pathReg ({ key := 1, tag := 7, seq := 3, addr := 0x1008, count := 2, size := 1, path := [9], data := [7], mac := 70556963463423682324490493720589770387 } : Bap).path)) false = .port 2))
    ∧ (∃ s : State, ((Instr.bapWrite ({ key := 1, tag := 7, seq := 3, addr := 0x1008, count := 2, size := 1, path := [9], data := [7], mac := 70556963463423682324490493720589770387 } : Bap) 9).wf = true) ∧ (s.calm = true) ∧ (((s.upTo 9).bapAccept ({ key := 1, tag := 7, seq := 3, addr := 0x1008, count := 2, size := 1, path := [9], data := [7], mac := 70556963463423682324490493720589770387 } : Bap) 3).1 = true) ∧ (({ key := 1, tag := 7, seq := 3, addr := 0x1008, count := 2, size := 1, path := [9], data := [7], mac := 70556963463423682324490493720589770387 } : Bap).path ≠ []) ∧ (({ key := 1, tag := 7, seq := 3, addr := 0x1008, count := 2, size := 1, path := [9], data := [7], mac := 70556963463423682324490493720589770387 } : Bap).path.length ≤ 6) ∧ (1 ≤ ({ key := 1, tag := 7, seq := 3, addr := 0x1008, count := 2, size := 1, path := [9], data := [7], mac := 70556963463423682324490493720589770387 } : Bap).count) ∧ (({ key := 1, tag := 7, seq := 3, addr := 0x1008, count := 2, size := 1, path := [9], data := [7], mac := 70556963463423682324490493720589770387 } : Bap).count ≤ 128) ∧ (({ key := 1, tag := 7, seq := 3, addr := 0x1008, count := 2, size := 1, path := [9], data := [7], mac := 70556963463423682324490493720589770387 } : Bap).size ≤ 1) ∧ (ownerAt (({ key := 1, tag := 7, seq := 3, addr := 0x1008, count := 2, size := 1, path := [9], data := [7], mac := 70556963463423682324490493720589770387 } : Bap).addr % 2 ^ 40) + 1 ≤ (s.bcp.keys.getD ({ key := 1, tag := 7, seq := 3, addr := 0x1008, count := 2, size := 1, path := [9], data := [7], mac := 70556963463423682324490493720589770387 } : Bap).key {}).right) ∧ (s.rope.slots.length = 4) ∧ ([0, 1].find? (fun x => s.fld pgRopeL (0x118 + 32 * x) 31 29 != 1 && !(s.slotAcc x).bap) = some 0) ∧ ((s.dstate ≠ 4 ∨ s.ropeRoute (pathOf (pathReg ({ key := 1, tag := 7, seq := 3, addr := 0x1008, count := 2, size := 1, path := [9], data := [7], mac := 70556963463423682324490493720589770387 } : Bap).path)) false = .nowhere))) :=
    ⟨⟨({ keyed with bcp := { keyed.bcp with srcs := [⟨6, List.replicate 15 4, none⟩] } } : State), by decide +kernel⟩,
    ⟨(keyed.setBank pgEccD 0 { inited := true }), by decide +kernel⟩,
    ⟨keyed, by decide +kernel⟩,
    ⟨((keyed.wr (pgTile 3) 8 1).setTile 3 { mode := 0, work := true, recovering := true, held := List.replicate 16 ⟨tileBase 3, 4, 0, false⟩ }), by decide +kernel⟩,
    ⟨(((((keyed.setFld (pgRope 2) 0x044 31 29 4).setFld pgRopeL 0x060 31 29 4).wr pgRopeL 0x058 7).wr pgRopeL 0x05C 0x10000).setTeam 0 { row := [(9, 2)], own := 7 }), by decide +kernel⟩,
    ⟨keyed, by decide +kernel⟩⟩

theorem witness_Datagrams_5 :
    (∃ s : State, ((Instr.bapWrite ({ key := 1, tag := 7, seq := 3, addr := 0x1008, count := 2, size := 1, path := [9], data := [7], mac := 70556963463423682324490493720589770387 } : Bap) 9).wf = true) ∧ (s.calm = true) ∧ (((s.upTo 9).bapAccept ({ key := 1, tag := 7, seq := 3, addr := 0x1008, count := 2, size := 1, path := [9], data := [7], mac := 70556963463423682324490493720589770387 } : Bap) 3).1 = true) ∧ (({ key := 1, tag := 7, seq := 3, addr := 0x1008, count := 2, size := 1, path := [9], data := [7], mac := 70556963463423682324490493720589770387 } : Bap).path ≠ []) ∧ (({ key := 1, tag := 7, seq := 3, addr := 0x1008, count := 2, size := 1, path := [9], data := [7], mac := 70556963463423682324490493720589770387 } : Bap).path.length ≤ 6) ∧ (1 ≤ ({ key := 1, tag := 7, seq := 3, addr := 0x1008, count := 2, size := 1, path := [9], data := [7], mac := 70556963463423682324490493720589770387 } : Bap).count) ∧ (({ key := 1, tag := 7, seq := 3, addr := 0x1008, count := 2, size := 1, path := [9], data := [7], mac := 70556963463423682324490493720589770387 } : Bap).count ≤ 128) ∧ (({ key := 1, tag := 7, seq := 3, addr := 0x1008, count := 2, size := 1, path := [9], data := [7], mac := 70556963463423682324490493720589770387 } : Bap).size ≤ 1) ∧ (ownerAt (({ key := 1, tag := 7, seq := 3, addr := 0x1008, count := 2, size := 1, path := [9], data := [7], mac := 70556963463423682324490493720589770387 } : Bap).addr % 2 ^ 40) + 1 ≤ (s.bcp.keys.getD ({ key := 1, tag := 7, seq := 3, addr := 0x1008, count := 2, size := 1, path := [9], data := [7], mac := 70556963463423682324490493720589770387 } : Bap).key {}).right) ∧ (s.rope.slots.length = 4) ∧ ([0, 1].find? (fun x => s.fld pgRopeL (0x118 + 32 * x) 31 29 != 1 && !(s.slotAcc x).bap) = none))
    ∧ (∃ s : State, ((Instr.bapWrite ({ key := 1, tag := 7, seq := 3, count := 129, mac := 297123100926855439165275637952220759837 } : Bap) 9).wf = true) ∧ (s.calm = true) ∧ (((s.upTo 9).bapAccept ({ key := 1, tag := 7, seq := 3, count := 129, mac := 297123100926855439165275637952220759837 } : Bap) 3).1 = true) ∧ ((s.bcp.keys.getD ({ key := 1, tag := 7, seq := 3, count := 129, mac := 297123100926855439165275637952220759837 } : Bap).key {}).right ≠ 0) ∧ ((128 < ({ key := 1, tag := 7, seq := 3, count := 129, mac := 297123100926855439165275637952220759837 } : Bap).count ∨ 1 < ({ key := 1, tag := 7, seq := 3, count := 129, mac := 297123100926855439165275637952220759837 } : Bap).size ∨ 6 < ({ key := 1, tag := 7, seq := 3, count := 129, mac := 297123100926855439165275637952220759837 } : Bap).path.length)))
    ∧ (∃ s : State, ((Instr.bapWrite ({ key := 1, tag := 7, seq := 3, mac := 1855612568851642206319503516970932719 } : Bap) 9).wf = true) ∧ (s.calm = true) ∧ (((s.upTo 9).bapAccept ({ key := 1, tag := 7, seq := 3, mac := 1855612568851642206319503516970932719 } : Bap) 3).1 = true) ∧ ((s.bcp.keys.getD ({ key := 1, tag := 7, seq := 3, mac := 1855612568851642206319503516970932719 } : Bap).key {}).right ≠ 0) ∧ (({ key := 1, tag := 7, seq := 3, mac := 1855612568851642206319503516970932719 } : Bap).count = 0) ∧ (({ key := 1, tag := 7, seq := 3, mac := 1855612568851642206319503516970932719 } : Bap).size ≤ 1) ∧ (({ key := 1, tag := 7, seq := 3, mac := 1855612568851642206319503516970932719 } : Bap).path.length ≤ 6))
    ∧ (∃ s : State, ((Instr.bapWrite ({ key := 2, tag := 7, seq := 3, mac := 103063237882995111400003036167913412602 } : Bap) 9).wf = true) ∧ (s.calm = true) ∧ (((s.upTo 9).bapAccept ({ key := 2, tag := 7, seq := 3, mac := 103063237882995111400003036167913412602 } : Bap) 3).1 = true) ∧ (((s.bcp.keys.getD ({ key := 2, tag := 7, seq := 3, mac := 103063237882995111400003036167913412602 } : Bap).key {}).right = 0 ∨ ((s.bcp.keys.getD ({ key := 2, tag := 7, seq := 3, mac := 103063237882995111400003036167913412602 } : Bap).key {}).right < ownerAt (({ key := 2, tag := 7, seq := 3, mac := 103063237882995111400003036167913412602 } : Bap).addr % 2 ^ 40) + 1 ∧ 1 ≤ ({ key := 2, tag := 7, seq := 3, mac := 103063237882995111400003036167913412602 } : Bap).count ∧ ({ key := 2, tag := 7, seq := 3, mac := 103063237882995111400003036167913412602 } : Bap).count ≤ 128 ∧ ({ key := 2, tag := 7, seq := 3, mac := 103063237882995111400003036167913412602 } : Bap).size ≤ 1 ∧ ({ key := 2, tag := 7, seq := 3, mac := 103063237882995111400003036167913412602 } : Bap).path.length ≤ 6))))
    ∧ (∃ s : State, ((Instr.bapWrite ({ ver := 0x20 } : Bap) 9).wf = true) ∧ (s.calm = true) ∧ ((s.upTo 9).bapHeard ({ ver := 0x20 } : Bap) 3 = false))
    ∧ (∃ s : State, ((Instr.bapWrite ({ key := 1, seq := 3, mac := 1 } : Bap) 9).wf = true) ∧ (s.calm = true) ∧ ((s.upTo 9).bapHeard ({ key := 1, seq := 3, mac := 1 } : Bap) 3 = true) ∧ (((s.upTo 9).bapAccept ({ key := 1, seq := 3, mac := 1 } : Bap) 3).1 = false) ∧ (((s.upTo 9).bapDrops ({ key := 1, seq := 3, mac := 1 } : Bap).ip).length < 15)) :=
    ⟨⟨((keyed.setFld pgRopeL 0x118 31 29 1).setFld pgRopeL 0x138 31 29 1), by decide +kernel⟩,
    ⟨keyed, by decide +kernel⟩,
    ⟨keyed, by decide +kernel⟩,
    ⟨({ State.reset with bcp := { State.reset.bcp with booted := true, keys := { right := 4, upd := true } :: {} :: { key := some 5 } :: List.replicate 5 {} } } : State), by decide +kernel⟩,
    ⟨keyed, by decide +kernel⟩,
    ⟨keyed, by decide +kernel⟩⟩

theorem witness_Datagrams_6 :
    (∃ s : State, ((Instr.bapWrite ({ ip := 6, key := 1, seq := 3, mac := 1 } : Bap) 9).wf = true) ∧ (s.calm = true) ∧ ((s.upTo 9).bapHeard ({ ip := 6, key := 1, seq := 3, mac := 1 } : Bap) 3 = true) ∧ (((s.upTo 9).bapAccept ({ ip := 6, key := 1, seq := 3, mac := 1 } : Bap) 3).1 = false) ∧ (15 ≤ ((s.upTo 9).bapDrops ({ ip := 6, key := 1, seq := 3, mac := 1 } : Bap).ip).length))
    ∧ (∃ s : State, ((Instr.logRead ({ key := 1, tag := 7, seq := 3, addr := 3, count := 2, mac := 309383415134849350821500551353166951906 } : Bap) 9).wf = true) ∧ (s.calm = true) ∧ (((s.upTo 9).bapAccept ({ key := 1, tag := 7, seq := 3, addr := 3, count := 2, mac := 309383415134849350821500551353166951906 } : Bap) 4).1 = true) ∧ ((s.bcp.keys.getD ({ key := 1, tag := 7, seq := 3, addr := 3, count := 2, mac := 309383415134849350821500551353166951906 } : Bap).key {}).right ≠ 0) ∧ (({ key := 1, tag := 7, seq := 3, addr := 3, count := 2, mac := 309383415134849350821500551353166951906 } : Bap).count ≤ 32))
    ∧ (∃ s : State, ((Instr.logRead ({ key := 1, tag := 7, seq := 3, addr := 3, count := 33, mac := 10044538098283931860333080899816175176 } : Bap) 9).wf = true) ∧ (s.calm = true) ∧ (((s.upTo 9).bapAccept ({ key := 1, tag := 7, seq := 3, addr := 3, count := 33, mac := 10044538098283931860333080899816175176 } : Bap) 4).1 = true) ∧ ((s.bcp.keys.getD ({ key := 1, tag := 7, seq := 3, addr := 3, count := 33, mac := 10044538098283931860333080899816175176 } : Bap).key {}).right ≠ 0) ∧ (32 < ({ key := 1, tag := 7, seq := 3, addr := 3, count := 33, mac := 10044538098283931860333080899816175176 } : Bap).count))
    ∧ (∃ s : State, ((Instr.logRead ({ key := 2, tag := 7, seq := 3, mac := 317498845188714339978193096616897120636 } : Bap) 9).wf = true) ∧ (s.calm = true) ∧ (((s.upTo 9).bapAccept ({ key := 2, tag := 7, seq := 3, mac := 317498845188714339978193096616897120636 } : Bap) 4).1 = true) ∧ ((s.bcp.keys.getD ({ key := 2, tag := 7, seq := 3, mac := 317498845188714339978193096616897120636 } : Bap).key {}).right = 0))
    ∧ (∃ s : State, ((Instr.logRead ({ ver := 0x20 } : Bap) 9).wf = true) ∧ (s.calm = true) ∧ ((s.upTo 9).bapHeard ({ ver := 0x20 } : Bap) 4 = false))
    ∧ (∃ s : State, ((Instr.logRead ({ key := 1, seq := 3, mac := 1 } : Bap) 9).wf = true) ∧ (s.calm = true) ∧ ((s.upTo 9).bapHeard ({ key := 1, seq := 3, mac := 1 } : Bap) 4 = true) ∧ (((s.upTo 9).bapAccept ({ key := 1, seq := 3, mac := 1 } : Bap) 4).1 = false) ∧ (((s.upTo 9).bapDrops ({ key := 1, seq := 3, mac := 1 } : Bap).ip).length < 15)) :=
    ⟨⟨({ keyed with bcp := { keyed.bcp with srcs := [⟨6, List.replicate 15 4, none⟩] } } : State), by decide +kernel⟩,
    ⟨keyed, by decide +kernel⟩,
    ⟨keyed, by decide +kernel⟩,
    ⟨({ State.reset with bcp := { State.reset.bcp with booted := true, keys := { right := 4, upd := true } :: {} :: { key := some 5 } :: List.replicate 5 {} } } : State), by decide +kernel⟩,
    ⟨keyed, by decide +kernel⟩,
    ⟨keyed, by decide +kernel⟩⟩

theorem witness_Datagrams_7 :
    (∃ s : State, ((Instr.logRead ({ ip := 6, key := 1, seq := 3, mac := 1 } : Bap) 9).wf = true) ∧ (s.calm = true) ∧ ((s.upTo 9).bapHeard ({ ip := 6, key := 1, seq := 3, mac := 1 } : Bap) 4 = true) ∧ (((s.upTo 9).bapAccept ({ ip := 6, key := 1, seq := 3, mac := 1 } : Bap) 4).1 = false) ∧ (15 ≤ ((s.upTo 9).bapDrops ({ ip := 6, key := 1, seq := 3, mac := 1 } : Bap).ip).length))
    ∧ (∃ s : State, ((Instr.sourceUnblock 5 9).wf = true) ∧ (s.calm = true) ∧ ((s.srcIp 5).blocked = some 8) ∧ (8 ≤ 9))
    ∧ (∃ s : State, ((Instr.sourceUnblock 5 7).wf = true) ∧ (s.calm = true) ∧ (((s.srcIp 5).blocked.all fun x => decide (7 < x)) = true)) :=
    ⟨⟨({ keyed with bcp := { keyed.bcp with srcs := [⟨6, List.replicate 15 4, none⟩] } } : State), by decide +kernel⟩,
    ⟨({ keyed with bcp := { keyed.bcp with srcs := [⟨5, [], some 8⟩] } } : State), by decide +kernel⟩,
    ⟨({ keyed with bcp := { keyed.bcp with srcs := [⟨5, [], some 8⟩] } } : State), by decide +kernel⟩⟩

theorem witness_Updates_1 :
    (∃ s : State, ((Instr.updOpen ({ key := 1, tag := 7, seq := 3, addr := 1, count := 16, size := 1, data := [0x0000000149585647, 5, 100, 0, 0, 0, 0, 0, 0, 0, 0, 0, 0, 0, 0, 0], mac := 281317523207772056538675931420993435762 } : Bap) 9).wf = true) ∧ (s.calm = true) ∧ (((s.upTo 9).bapAccept ({ key := 1, tag := 7, seq := 3, addr := 1, count := 16, size := 1, data := [0x0000000149585647, 5, 100, 0, 0, 0, 0, 0, 0, 0, 0, 0, 0, 0, 0, 0], mac := 281317523207772056538675931420993435762 } : Bap) 5).1 = true) ∧ ((s.bcp.keys.getD ({ key := 1, tag := 7, seq := 3, addr := 1, count := 16, size := 1, data := [0x0000000149585647, 5, 100, 0, 0, 0, 0, 0, 0, 0, 0, 0, 0, 0, 0, 0], mac := 281317523207772056538675931420993435762 } : Bap).key {}).upd = true) ∧ (({ key := 1, tag := 7, seq := 3, addr := 1, count := 16, size := 1, data := [0x0000000149585647, 5, 100, 0, 0, 0, 0, 0, 0, 0, 0, 0, 0, 0, 0, 0], mac := 281317523207772056538675931420993435762 } : Bap).addr % 2 = 1) ∧ (s.updating = false) ∧ ((Bap.bytes ({ key := 1, tag := 7, seq := 3, addr := 1, count := 16, size := 1, data := [0x0000000149585647, 5, 100, 0, 0, 0, 0, 0, 0, 0, 0, 0, 0, 0, 0, 0], mac := 281317523207772056538675931420993435762 } : Bap)).length = 128) ∧ (128 + (leNat (((Bap.bytes ({ key := 1, tag := 7, seq := 3, addr := 1, count := 16, size := 1, data := [0x0000000149585647, 5, 100, 0, 0, 0, 0, 0, 0, 0, 0, 0, 0, 0, 0, 0], mac := 281317523207772056538675931420993435762 } : Bap)).drop 16).take 4)) ≤ (if ({ key := 1, tag := 7, seq := 3, addr := 1, count := 16, size := 1, data := [0x0000000149585647, 5, 100, 0, 0, 0, 0, 0, 0, 0, 0, 0, 0, 0, 0, 0], mac := 281317523207772056538675931420993435762 } : Bap).addr % 2 = 0 then 0xE00000 * 16 - 0x10000 else 0x1000000)) ∧ ((leNat (((Bap.bytes ({ key := 1, tag := 7, seq := 3, addr := 1, count := 16, size := 1, data := [0x0000000149585647, 5, 100, 0, 0, 0, 0, 0, 0, 0, 0, 0, 0, 0, 0, 0], mac := 281317523207772056538675931420993435762 } : Bap)).drop 0).take 4)) = 0x49585647 ∧ (leNat (((Bap.bytes ({ key := 1, tag := 7, seq := 3, addr := 1, count := 16, size := 1, data := [0x0000000149585647, 5, 100, 0, 0, 0, 0, 0, 0, 0, 0, 0, 0, 0, 0, 0], mac := 281317523207772056538675931420993435762 } : Bap)).drop 4).take 2)) = 1 ∧ (leNat (((Bap.bytes ({ key := 1, tag := 7, seq := 3, addr := 1, count := 16, size := 1, data := [0x0000000149585647, 5, 100, 0, 0, 0, 0, 0, 0, 0, 0, 0, 0, 0, 0, 0], mac := 281317523207772056538675931420993435762 } : Bap)).drop 7).take 1)) = 0 ∧ (leNat (((Bap.bytes ({ key := 1, tag := 7, seq := 3, addr := 1, count := 16, size := 1, data := [0x0000000149585647, 5, 100, 0, 0, 0, 0, 0, 0, 0, 0, 0, 0, 0, 0, 0], mac := 281317523207772056538675931420993435762 } : Bap)).drop 20).take 44)) = 0 ∧ s.rd64 (pgBcp 4) 0x060 ≤ (leNat (((Bap.bytes ({ key := 1, tag := 7, seq := 3, addr := 1, count := 16, size := 1, data := [0x0000000149585647, 5, 100, 0, 0, 0, 0, 0, 0, 0, 0, 0, 0, 0, 0, 0], mac := 281317523207772056538675931420993435762 } : Bap)).drop 8).take 8))))
    ∧ (∃ s : State, ((Instr.updOpen ({ key := 1, tag := 7, seq := 3, addr := 0, count := 16, size := 1, data := [0x0000000149585647, 5, 100, 0, 0, 0, 0, 0, 0, 0, 0, 0, 0, 0, 0, 0], mac := 260862607473513579509373397020977870849 } : Bap) 9).wf = true) ∧ (s.calm = true) ∧ (((s.upTo 9).bapAccept ({ key := 1, tag := 7, seq := 3, addr := 0, count := 16, size := 1, data := [0x0000000149585647, 5, 100, 0, 0, 0, 0, 0, 0, 0, 0, 0, 0, 0, 0, 0], mac := 260862607473513579509373397020977870849 } : Bap) 5).1 = true) ∧ ((s.bcp.keys.getD ({ key := 1, tag := 7, seq := 3, addr := 0, count := 16, size := 1, data := [0x0000000149585647, 5, 100, 0, 0, 0, 0, 0, 0, 0, 0, 0, 0, 0, 0, 0], mac := 260862607473513579509373397020977870849 } : Bap).key {}).upd = true) ∧ (({ key := 1, tag := 7, seq := 3, addr := 0, count := 16, size := 1, data := [0x0000000149585647, 5, 100, 0, 0, 0, 0, 0, 0, 0, 0, 0, 0, 0, 0, 0], mac := 260862607473513579509373397020977870849 } : Bap).addr % 2 = 0) ∧ (s.updating = false) ∧ ((Bap.bytes ({ key := 1, tag := 7, seq := 3, addr := 0, count := 16, size := 1, data := [0x0000000149585647, 5, 100, 0, 0, 0, 0, 0, 0, 0, 0, 0, 0, 0, 0, 0], mac := 260862607473513579509373397020977870849 } : Bap)).length = 128) ∧ (128 + (leNat (((Bap.bytes ({ key := 1, tag := 7, seq := 3, addr := 0, count := 16, size := 1, data := [0x0000000149585647, 5, 100, 0, 0, 0, 0, 0, 0, 0, 0, 0, 0, 0, 0, 0], mac := 260862607473513579509373397020977870849 } : Bap)).drop 16).take 4)) ≤ (if ({ key := 1, tag := 7, seq := 3, addr := 0, count := 16, size := 1, data := [0x0000000149585647, 5, 100, 0, 0, 0, 0, 0, 0, 0, 0, 0, 0, 0, 0, 0], mac := 260862607473513579509373397020977870849 } : Bap).addr % 2 = 0 then 0xE00000 * 16 - 0x10000 else 0x1000000)) ∧ ((leNat (((Bap.bytes ({ key := 1, tag := 7, seq := 3, addr := 0, count := 16, size := 1, data := [0x0000000149585647, 5, 100, 0, 0, 0, 0, 0, 0, 0, 0, 0, 0, 0, 0, 0], mac := 260862607473513579509373397020977870849 } : Bap)).drop 0).take 4)) = 0x49585647 ∧ (leNat (((Bap.bytes ({ key := 1, tag := 7, seq := 3, addr := 0, count := 16, size := 1, data := [0x0000000149585647, 5, 100, 0, 0, 0, 0, 0, 0, 0, 0, 0, 0, 0, 0, 0], mac := 260862607473513579509373397020977870849 } : Bap)).drop 4).take 2)) = 1 ∧ (leNat (((Bap.bytes ({ key := 1, tag := 7, seq := 3, addr := 0, count := 16, size := 1, data := [0x0000000149585647, 5, 100, 0, 0, 0, 0, 0, 0, 0, 0, 0, 0, 0, 0, 0], mac := 260862607473513579509373397020977870849 } : Bap)).drop 7).take 1)) = 0 ∧ (leNat (((Bap.bytes ({ key := 1, tag := 7, seq := 3, addr := 0, count := 16, size := 1, data := [0x0000000149585647, 5, 100, 0, 0, 0, 0, 0, 0, 0, 0, 0, 0, 0, 0, 0], mac := 260862607473513579509373397020977870849 } : Bap)).drop 20).take 44)) = 0 ∧ s.rd64 (pgBcp 4) 0x060 ≤ (leNat (((Bap.bytes ({ key := 1, tag := 7, seq := 3, addr := 0, count := 16, size := 1, data := [0x0000000149585647, 5, 100, 0, 0, 0, 0, 0, 0, 0, 0, 0, 0, 0, 0, 0], mac := 260862607473513579509373397020977870849 } : Bap)).drop 8).take 8))) ∧ ((leNat (((Bap.bytes ({ key := 1, tag := 7, seq := 3, addr := 0, count := 16, size := 1, data := [0x0000000149585647, 5, 100, 0, 0, 0, 0, 0, 0, 0, 0, 0, 0, 0, 0, 0], mac := 260862607473513579509373397020977870849 } : Bap)).drop 6).take 1)) ≤ 3 ∧ s.getB (pgBcp 7) 0x048 (leNat (((Bap.bytes ({ key := 1, tag := 7, seq := 3, addr := 0, count := 16, size := 1, data := [0x0000000149585647, 5, 100, 0, 0, 0, 0, 0, 0, 0, 0, 0, 0, 0, 0, 0], mac := 260862607473513579509373397020977870849 } : Bap)).drop 6).take 1)) = true ∧ s.getB (pgBcp 7) 0x048 (8 + (leNat (((Bap.bytes ({ key := 1, tag := 7, seq := 3, addr := 0, count := 16, size := 1, data := [0x0000000149585647, 5, 100, 0, 0, 0, 0, 0, 0, 0, 0, 0, 0, 0, 0, 0], mac := 260862607473513579509373397020977870849 } : Bap)).drop 6).take 1))) = false))
    ∧ (∃ s : State, ((Instr.updOpen ({ key := 1, tag := 7, seq := 3, addr := 1, count := 16, size := 1, data := [0x0000000149585647, 5, 100, 0, 0, 0, 0, 0, 0, 0, 0, 0, 0, 0, 0, 0], mac := 281317523207772056538675931420993435762 } : Bap) 9).wf = true) ∧ (s.calm = true) ∧ (((s.upTo 9).bapAccept ({ key := 1, tag := 7, seq := 3, addr := 1, count := 16, size := 1, data := [0x0000000149585647, 5, 100, 0, 0, 0, 0, 0, 0, 0, 0, 0, 0, 0, 0, 0], mac := 281317523207772056538675931420993435762 } : Bap) 5).1 = true) ∧ ((s.bcp.keys.getD ({ key := 1, tag := 7, seq := 3, addr := 1, count := 16, size := 1, data := [0x0000000149585647, 5, 100, 0, 0, 0, 0, 0, 0, 0, 0, 0, 0, 0, 0, 0], mac := 281317523207772056538675931420993435762 } : Bap).key {}).upd = true) ∧ (s.updating = true))
    ∧ (∃ s : State, ((Instr.updOpen ({ key := 1, tag := 7, seq := 3, addr := 1, count := 15, size := 1, data := [0x0000000149585647, 5, 100, 0, 0, 0, 0, 0, 0, 0, 0, 0, 0, 0, 0, 0], mac := 63785823178406544809939761623362624378 } : Bap) 9).wf = true) ∧ (s.calm = true) ∧ (((s.upTo 9).bapAccept ({ key := 1, tag := 7, seq := 3, addr := 1, count := 15, size := 1, data := [0x0000000149585647, 5, 100, 0, 0, 0, 0, 0, 0, 0, 0, 0, 0, 0, 0, 0], mac := 63785823178406544809939761623362624378 } : Bap) 5).1 = true) ∧ ((s.bcp.keys.getD ({ key := 1, tag := 7, seq := 3, addr := 1, count := 15, size := 1, data := [0x0000000149585647, 5, 100, 0, 0, 0, 0, 0, 0, 0, 0, 0, 0, 0, 0, 0], mac := 63785823178406544809939761623362624378 } : Bap).key {}).upd = true) ∧ (s.updating = false) ∧ (((Bap.bytes ({ key := 1, tag := 7, seq := 3, addr := 1, count := 15, size := 1, data := [0x0000000149585647, 5, 100, 0, 0, 0, 0, 0, 0, 0, 0, 0, 0, 0, 0, 0], mac := 63785823178406544809939761623362624378 } : Bap)).length ≠ 128 ∨ ¬(128 + (leNat (((Bap.bytes ({ key := 1, tag := 7, seq := 3, addr := 1, count := 15, size := 1, data := [0x0000000149585647, 5, 100, 0, 0, 0, 0, 0, 0, 0, 0, 0, 0, 0, 0, 0], mac := 63785823178406544809939761623362624378 } : Bap)).drop 16).take 4)) ≤ (if ({ key := 1, tag := 7, seq := 3, addr := 1, count := 15, size := 1, data := [0x0000000149585647, 5, 100, 0, 0, 0, 0, 0, 0, 0, 0, 0, 0, 0, 0, 0], mac := 63785823178406544809939761623362624378 } : Bap).addr % 2 = 0 then 0xE00000 * 16 - 0x10000 else 0x1000000)))))
    ∧ (∃ s : State, ((Instr.updOpen ({ key := 1, tag := 7, seq := 3, addr := 1, count := 16, size := 1, data := [7], mac := 68376128806027118896936742844965288025 } : Bap) 9).wf = true) ∧ (s.calm = true) ∧ (((s.upTo 9).bapAccept ({ key := 1, tag := 7, seq := 3, addr := 1, count := 16, size := 1, data := [7], mac := 68376128806027118896936742844965288025 } : Bap) 5).1 = true) ∧ ((s.bcp.keys.getD ({ key := 1, tag := 7, seq := 3, addr := 1, count := 16, size := 1, data := [7], mac := 68376128806027118896936742844965288025 } : Bap).key {}).upd = true) ∧ (s.updating = false) ∧ ((Bap.bytes ({ key := 1, tag := 7, seq := 3, addr := 1, count := 16, size := 1, data := [7], mac := 68376128806027118896936742844965288025 } : Bap)).length = 128) ∧ (128 + (leNat (((Bap.bytes ({ key := 1, tag := 7, seq := 3, addr := 1, count := 16, size := 1, data := [7], mac := 68376128806027118896936742844965288025 } : Bap)).drop 16).take 4)) ≤ (if ({ key := 1, tag := 7, seq := 3, addr := 1, count := 16, size := 1, data := [7], mac := 68376128806027118896936742844965288025 } : Bap).addr % 2 = 0 then 0xE00000 * 16 - 0x10000 else 0x1000000)) ∧ (¬((leNat (((Bap.bytes ({ key := 1, tag := 7, seq := 3, addr := 1, count := 16, size := 1, data := [7], mac := 68376128806027118896936742844965288025 } : Bap)).drop 0).take 4)) = 0x49585647 ∧ (leNat (((Bap.bytes ({ key := 1, tag := 7, seq := 3, addr := 1, count := 16, size := 1, data := [7], mac := 68376128806027118896936742844965288025 } : Bap)).drop 4).take 2)) = 1 ∧ (leNat (((Bap.bytes ({ key := 1, tag := 7, seq := 3, addr := 1, count := 16, size := 1, data := [7], mac := 68376128806027118896936742844965288025 } : Bap)).drop 7).take 1)) = 0 ∧ (leNat (((Bap.bytes ({ key := 1, tag := 7, seq := 3, addr := 1, count := 16, size := 1, data := [7], mac := 68376128806027118896936742844965288025 } : Bap)).drop 20).take 44)) = 0 ∧ s.rd64 (pgBcp 4) 0x060 ≤ (leNat (((Bap.bytes ({ key := 1, tag := 7, seq := 3, addr := 1, count := 16, size := 1, data := [7], mac := 68376128806027118896936742844965288025 } : Bap)).drop 8).take 8)))))
    ∧ (∃ s : State, ((Instr.updOpen ({ key := 1, tag := 7, seq := 3, addr := 0, count := 16, size := 1, data := [0x0000000149585647, 5, 100, 0, 0, 0, 0, 0, 0, 0, 0, 0, 0, 0, 0, 0], mac := 260862607473513579509373397020977870849 } : Bap) 9).wf = true) ∧ (s.calm = true) ∧ (((s.upTo 9).bapAccept ({ key := 1, tag := 7, seq := 3, addr := 0, count := 16, size := 1, data := [0x0000000149585647, 5, 100, 0, 0, 0, 0, 0, 0, 0, 0, 0, 0, 0, 0, 0], mac := 260862607473513579509373397020977870849 } : Bap) 5).1 = true) ∧ ((s.bcp.keys.getD ({ key := 1, tag := 7, seq := 3, addr := 0, count := 16, size := 1, data := [0x0000000149585647, 5, 100, 0, 0, 0, 0, 0, 0, 0, 0, 0, 0, 0, 0, 0], mac := 260862607473513579509373397020977870849 } : Bap).key {}).upd = true) ∧ (s.updating = false) ∧ ((Bap.bytes ({ key := 1, tag := 7, seq := 3, addr := 0, count := 16, size := 1, data := [0x0000000149585647, 5, 100, 0, 0, 0, 0, 0, 0, 0, 0, 0, 0, 0, 0, 0], mac := 260862607473513579509373397020977870849 } : Bap)).length = 128) ∧ (128 + (leNat (((Bap.bytes ({ key := 1, tag := 7, seq := 3, addr := 0, count := 16, size := 1, data := [0x0000000149585647, 5, 100, 0, 0, 0, 0, 0, 0, 0, 0, 0, 0, 0, 0, 0], mac := 260862607473513579509373397020977870849 } : Bap)).drop 16).take 4)) ≤ (if ({ key := 1, tag := 7, seq := 3, addr := 0, count := 16, size := 1, data := [0x0000000149585647, 5, 100, 0, 0, 0, 0, 0, 0, 0, 0, 0, 0, 0, 0, 0], mac := 260862607473513579509373397020977870849 } : Bap).addr % 2 = 0 then 0xE00000 * 16 - 0x10000 else 0x1000000)) ∧ ((leNat (((Bap.bytes ({ key := 1, tag := 7, seq := 3, addr := 0, count := 16, size := 1, data := [0x0000000149585647, 5, 100, 0, 0, 0, 0, 0, 0, 0, 0, 0, 0, 0, 0, 0], mac := 260862607473513579509373397020977870849 } : Bap)).drop 0).take 4)) = 0x49585647 ∧ (leNat (((Bap.bytes ({ key := 1, tag := 7, seq := 3, addr := 0, count := 16, size := 1, data := [0x0000000149585647, 5, 100, 0, 0, 0, 0, 0, 0, 0, 0, 0, 0, 0, 0, 0], mac := 260862607473513579509373397020977870849 } : Bap)).drop 4).take 2)) = 1 ∧ (leNat (((Bap.bytes ({ key := 1, tag := 7, seq := 3, addr := 0, count := 16, size := 1, data := [0x0000000149585647, 5, 100, 0, 0, 0, 0, 0, 0, 0, 0, 0, 0, 0, 0, 0], mac := 260862607473513579509373397020977870849 } : Bap)).drop 7).take 1)) = 0 ∧ (leNat (((Bap.bytes ({ key := 1, tag := 7, seq := 3, addr := 0, count := 16, size := 1, data := [0x0000000149585647, 5, 100, 0, 0, 0, 0, 0, 0, 0, 0, 0, 0, 0, 0, 0], mac := 260862607473513579509373397020977870849 } : Bap)).drop 20).take 44)) = 0 ∧ s.rd64 (pgBcp 4) 0x060 ≤ (leNat (((Bap.bytes ({ key := 1, tag := 7, seq := 3, addr := 0, count := 16, size := 1, data := [0x0000000149585647, 5, 100, 0, 0, 0, 0, 0, 0, 0, 0, 0, 0, 0, 0, 0], mac := 260862607473513579509373397020977870849 } : Bap)).drop 8).take 8))) ∧ (({ key := 1, tag := 7, seq := 3, addr := 0, count := 16, size := 1, data := [0x0000000149585647, 5, 100, 0, 0, 0, 0, 0, 0, 0, 0, 0, 0, 0, 0, 0], mac := 260862607473513579509373397020977870849 } : Bap).addr % 2 = 0) ∧ (¬((leNat (((Bap.bytes ({ key := 1, tag := 7, seq := 3, addr := 0, count := 16, size := 1, data := [0x0000000149585647, 5, 100, 0, 0, 0, 0, 0, 0, 0, 0, 0, 0, 0, 0, 0], mac := 260862607473513579509373397020977870849 } : Bap)).drop 6).take 1)) ≤ 3 ∧ s.getB (pgBcp 7) 0x048 (leNat (((Bap.bytes ({ key := 1, tag := 7, seq := 3, addr := 0, count := 16, size := 1, data := [0x0000000149585647, 5, 100, 0, 0, 0, 0, 0, 0, 0, 0, 0, 0, 0, 0, 0], mac := 260862607473513579509373397020977870849 } : Bap)).drop 6).take 1)) = true ∧ s.getB (pgBcp 7) 0x048 (8 + (leNat (((Bap.bytes ({ key := 1, tag := 7, seq := 3, addr := 0, count := 16, size := 1, data := [0x0000000149585647, 5, 100, 0, 0, 0, 0, 0, 0, 0, 0, 0, 0, 0, 0, 0], mac := 260862607473513579509373397020977870849 } : Bap)).drop 6).take 1))) = false))) :=
    ⟨⟨keyed, by decide +kernel⟩,
    ⟨({ keyed with bcp := { keyed.bcp with imgB := [(5, 6)] } } : State), by decide +kernel⟩,
    ⟨({ keyed with bcp := { keyed.bcp with upd := some ⟨1, 1, 0, 5, 0, 1, 0, 128, []⟩ } } : State), by decide +kernel⟩,
    ⟨keyed, by decide +kernel⟩,
    ⟨keyed, by decide +kernel⟩,
    ⟨(keyed.wr (pgBcp 7) 0x048 0x0101), by decide +kernel⟩⟩

theorem witness_Updates_2 :
    (∃ s : State, ((Instr.updOpen ({ key := 1, tag := 7, seq := 3, mac := 245552656148455406783219866020203929710 } : Bap) 9).wf = true) ∧ (s.calm = true) ∧ (((s.upTo 9).bapAccept ({ key := 1, tag := 7, seq := 3, mac := 245552656148455406783219866020203929710 } : Bap) 5).1 = true) ∧ ((s.bcp.keys.getD ({ key := 1, tag := 7, seq := 3, mac := 245552656148455406783219866020203929710 } : Bap).key {}).upd = false))
    ∧ (∃ s : State, ((Instr.updOpen ({ ver := 0x20 } : Bap) 9).wf = true) ∧ (s.calm = true) ∧ ((s.upTo 9).bapHeard ({ ver := 0x20 } : Bap) 5 = false))
    ∧ (∃ s : State, ((Instr.updOpen ({ key := 1, seq := 3, mac := 1 } : Bap) 9).wf = true) ∧ (s.calm = true) ∧ ((s.upTo 9).bapHeard ({ key := 1, seq := 3, mac := 1 } : Bap) 5 = true) ∧ (((s.upTo 9).bapAccept ({ key := 1, seq := 3, mac := 1 } : Bap) 5).1 = false) ∧ (((s.upTo 9).bapDrops ({ key := 1, seq := 3, mac := 1 } : Bap).ip).length < 15))
    ∧ (∃ s : State, ((Instr.updOpen ({ ip := 6, key := 1, seq := 3, mac := 1 } : Bap) 9).wf = true) ∧ (s.calm = true) ∧ ((s.upTo 9).bapHeard ({ ip := 6, key := 1, seq := 3, mac := 1 } : Bap) 5 = true) ∧ (((s.upTo 9).bapAccept ({ ip := 6, key := 1, seq := 3, mac := 1 } : Bap) 5).1 = false) ∧ (15 ≤ ((s.upTo 9).bapDrops ({ ip := 6, key := 1, seq := 3, mac := 1 } : Bap).ip).length))
    ∧ (∃ s : State, ((Instr.updData ({ key := 1, tag := 7, seq := 3, mac := 51753637625117986290970759655834374434 } : Bap) 9).wf = true) ∧ (s.calm = true) ∧ (((s.upTo 9).bapAccept ({ key := 1, tag := 7, seq := 3, mac := 51753637625117986290970759655834374434 } : Bap) 6).1 = true) ∧ ((s.bcp.keys.getD ({ key := 1, tag := 7, seq := 3, mac := 51753637625117986290970759655834374434 } : Bap).key {}).upd = false))
    ∧ (∃ s : State, ((Instr.updData ({ ver := 0x20 } : Bap) 9).wf = true) ∧ (s.calm = true) ∧ ((s.upTo 9).bapHeard ({ ver := 0x20 } : Bap) 6 = false)) :=
    ⟨⟨({ State.reset with bcp := { State.reset.bcp with booted := true, keys := { right := 4, upd := true } :: { key := some 5, right := 4 } :: List.replicate 6 {} } } : State), by decide +kernel⟩,
    ⟨keyed, by decide +kernel⟩,
    ⟨keyed, by decide +kernel⟩,
    ⟨({ keyed with bcp := { keyed.bcp with srcs := [⟨6, List.replicate 15 4, none⟩] } } : State), by decide +kernel⟩,
    ⟨({ State.reset with bcp := { State.reset.bcp with booted := true, keys := { right := 4, upd := true } :: { key := some 5, right := 4 } :: List.replicate 6 {} } } : State), by decide +kernel⟩,
    ⟨keyed, by decide +kernel⟩⟩

theorem witness_Updates_3 :
    (∃ s : State, ((Instr.updData ({ key := 1, seq := 3, mac := 1 } : Bap) 9).wf = true) ∧ (s.calm = true) ∧ ((s.upTo 9).bapHeard ({ key := 1, seq := 3, mac := 1 } : Bap) 6 = true) ∧ (((s.upTo 9).bapAccept ({ key := 1, seq := 3, mac := 1 } : Bap) 6).1 = false) ∧ (((s.upTo 9).bapDrops ({ key := 1, seq := 3, mac := 1 } : Bap).ip).length < 15))
    ∧ (∃ s : State, ((Instr.updData ({ ip := 6, key := 1, seq := 3, mac := 1 } : Bap) 9).wf = true) ∧ (s.calm = true) ∧ ((s.upTo 9).bapHeard ({ ip := 6, key := 1, seq := 3, mac := 1 } : Bap) 6 = true) ∧ (((s.upTo 9).bapAccept ({ ip := 6, key := 1, seq := 3, mac := 1 } : Bap) 6).1 = false) ∧ (15 ≤ ((s.upTo 9).bapDrops ({ ip := 6, key := 1, seq := 3, mac := 1 } : Bap).ip).length))
    ∧ (∃ s : State, ((Instr.updCommit ({ key := 1, tag := 7, seq := 3, mac := 100509789386091759111324151169296659317 } : Bap) 9).wf = true) ∧ (s.calm = true) ∧ (((s.upTo 9).bapAccept ({ key := 1, tag := 7, seq := 3, mac := 100509789386091759111324151169296659317 } : Bap) 7).1 = true) ∧ ((s.bcp.keys.getD ({ key := 1, tag := 7, seq := 3, mac := 100509789386091759111324151169296659317 } : Bap).key {}).upd = false))
    ∧ (∃ s : State, ((Instr.updCommit ({ ver := 0x20 } : Bap) 9).wf = true) ∧ (s.calm = true) ∧ ((s.upTo 9).bapHeard ({ ver := 0x20 } : Bap) 7 = false))
    ∧ (∃ s : State, ((Instr.updCommit ({ key := 1, seq := 3, mac := 1 } : Bap) 9).wf = true) ∧ (s.calm = true) ∧ ((s.upTo 9).bapHeard ({ key := 1, seq := 3, mac := 1 } : Bap) 7 = true) ∧ (((s.upTo 9).bapAccept ({ key := 1, seq := 3, mac := 1 } : Bap) 7).1 = false) ∧ (((s.upTo 9).bapDrops ({ key := 1, seq := 3, mac := 1 } : Bap).ip).length < 15))
    ∧ (∃ s : State, ((Instr.updCommit ({ ip := 6, key := 1, seq := 3, mac := 1 } : Bap) 9).wf = true) ∧ (s.calm = true) ∧ ((s.upTo 9).bapHeard ({ ip := 6, key := 1, seq := 3, mac := 1 } : Bap) 7 = true) ∧ (((s.upTo 9).bapAccept ({ ip := 6, key := 1, seq := 3, mac := 1 } : Bap) 7).1 = false) ∧ (15 ≤ ((s.upTo 9).bapDrops ({ ip := 6, key := 1, seq := 3, mac := 1 } : Bap).ip).length)) :=
    ⟨⟨keyed, by decide +kernel⟩,
    ⟨({ keyed with bcp := { keyed.bcp with srcs := [⟨6, List.replicate 15 4, none⟩] } } : State), by decide +kernel⟩,
    ⟨({ State.reset with bcp := { State.reset.bcp with booted := true, keys := { right := 4, upd := true } :: { key := some 5, right := 4 } :: List.replicate 6 {} } } : State), by decide +kernel⟩,
    ⟨keyed, by decide +kernel⟩,
    ⟨keyed, by decide +kernel⟩,
    ⟨({ keyed with bcp := { keyed.bcp with srcs := [⟨6, List.replicate 15 4, none⟩] } } : State), by decide +kernel⟩⟩

theorem witness_Updates_4 :
    (∃ s : State, ((Instr.updActivate ({ key := 1, tag := 7, seq := 3, mac := 203564008940563778591840940937791841832 } : Bap) 9).wf = true) ∧ (s.calm = true) ∧ (((s.upTo 9).bapAccept ({ key := 1, tag := 7, seq := 3, mac := 203564008940563778591840940937791841832 } : Bap) 8).1 = true) ∧ ((s.bcp.keys.getD ({ key := 1, tag := 7, seq := 3, mac := 203564008940563778591840940937791841832 } : Bap).key {}).upd = false))
    ∧ (∃ s : State, ((Instr.updActivate ({ ver := 0x20 } : Bap) 9).wf = true) ∧ (s.calm = true) ∧ ((s.upTo 9).bapHeard ({ ver := 0x20 } : Bap) 8 = false))
    ∧ (∃ s : State, ((Instr.updActivate ({ key := 1, seq := 3, mac := 1 } : Bap) 9).wf = true) ∧ (s.calm = true) ∧ ((s.upTo 9).bapHeard ({ key := 1, seq := 3, mac := 1 } : Bap) 8 = true) ∧ (((s.upTo 9).bapAccept ({ key := 1, seq := 3, mac := 1 } : Bap) 8).1 = false) ∧ (((s.upTo 9).bapDrops ({ key := 1, seq := 3, mac := 1 } : Bap).ip).length < 15))
    ∧ (∃ s : State, ((Instr.updActivate ({ ip := 6, key := 1, seq := 3, mac := 1 } : Bap) 9).wf = true) ∧ (s.calm = true) ∧ ((s.upTo 9).bapHeard ({ ip := 6, key := 1, seq := 3, mac := 1 } : Bap) 8 = true) ∧ (((s.upTo 9).bapAccept ({ ip := 6, key := 1, seq := 3, mac := 1 } : Bap) 8).1 = false) ∧ (15 ≤ ((s.upTo 9).bapDrops ({ ip := 6, key := 1, seq := 3, mac := 1 } : Bap).ip).length))
    ∧ (∃ s : State, ((Instr.eraseComplete 9).wf = true) ∧ (s.calm = true) ∧ (s.bcp.upd = some (⟨1, 1, 0, 5, 0, 0, 3, 128, []⟩ : Upd)) ∧ ((⟨1, 1, 0, 5, 0, 0, 3, 128, []⟩ : Upd).phase = 0) ∧ (1 < (⟨1, 1, 0, 5, 0, 0, 3, 128, []⟩ : Upd).left))
    ∧ (∃ s : State, ((Instr.eraseComplete 9).wf = true) ∧ (s.calm = true) ∧ (s.bcp.upd = some (⟨1, 1, 0, 5, 0, 0, 1, 128, []⟩ : Upd)) ∧ ((⟨1, 1, 0, 5, 0, 0, 1, 128, []⟩ : Upd).phase = 0) ∧ ((⟨1, 1, 0, 5, 0, 0, 1, 128, []⟩ : Upd).left ≤ 1)) :=
    ⟨⟨({ State.reset with bcp := { State.reset.bcp with booted := true, keys := { right := 4, upd := true } :: { key := some 5, right := 4 } :: List.replicate 6 {} } } : State), by decide +kernel⟩,
    ⟨keyed, by decide +kernel⟩,
    ⟨keyed, by decide +kernel⟩,
    ⟨({ keyed with bcp := { keyed.bcp with srcs := [⟨6, List.replicate 15 4, none⟩] } } : State), by decide +kernel⟩,
    ⟨({ keyed with bcp := { keyed.bcp with upd := some ⟨1, 1, 0, 5, 0, 0, 3, 128, []⟩ } } : State), by decide +kernel⟩,
    ⟨({ keyed with bcp := { keyed.bcp with upd := some ⟨1, 1, 0, 5, 0, 0, 1, 128, []⟩ } } : State), by decide +kernel⟩⟩

theorem witness_Updates_5 :
    (∃ s : State, ((Instr.eraseComplete 9).wf = true) ∧ (s.calm = true) ∧ ((s.bcp.upd.map fun x => x.phase) ≠ some 0))
    ∧ (∃ s : State, ((Instr.updData ({ key := 1, tag := 7, seq := 3, addr := 128, count := 2, size := 1, data := [0x0102030405060708, 255], mac := 24433108978279953545920581720167361992 } : Bap) 9).wf = true) ∧ (s.calm = true) ∧ (((s.upTo 9).bapAccept ({ key := 1, tag := 7, seq := 3, addr := 128, count := 2, size := 1, data := [0x0102030405060708, 255], mac := 24433108978279953545920581720167361992 } : Bap) 6).1 = true) ∧ ((s.bcp.keys.getD ({ key := 1, tag := 7, seq := 3, addr := 128, count := 2, size := 1, data := [0x0102030405060708, 255], mac := 24433108978279953545920581720167361992 } : Bap).key {}).upd = true) ∧ (s.bcp.upd = some (⟨1, 1, 0, 5, 100, 1, 0, 128, []⟩ : Upd)) ∧ ((⟨1, 1, 0, 5, 100, 1, 0, 128, []⟩ : Upd).phase = 1) ∧ (({ key := 1, tag := 7, seq := 3, addr := 128, count := 2, size := 1, data := [0x0102030405060708, 255], mac := 24433108978279953545920581720167361992 } : Bap).addr % 2 ^ 40 + (Bap.bytes ({ key := 1, tag := 7, seq := 3, addr := 128, count := 2, size := 1, data := [0x0102030405060708, 255], mac := 24433108978279953545920581720167361992 } : Bap)).length ≤ 128 + (⟨1, 1, 0, 5, 100, 1, 0, 128, []⟩ : Upd).len))
    ∧ (∃ s : State, ((Instr.updData ({ key := 1, tag := 7, seq := 3, addr := 228, count := 2, size := 1, data := [0x0102030405060708, 255], mac := 140005487628682125545994416289948619845 } : Bap) 9).wf = true) ∧ (s.calm = true) ∧ (((s.upTo 9).bapAccept ({ key := 1, tag := 7, seq := 3, addr := 228, count := 2, size := 1, data := [0x0102030405060708, 255], mac := 140005487628682125545994416289948619845 } : Bap) 6).1 = true) ∧ ((s.bcp.keys.getD ({ key := 1, tag := 7, seq := 3, addr := 228, count := 2, size := 1, data := [0x0102030405060708, 255], mac := 140005487628682125545994416289948619845 } : Bap).key {}).upd = true) ∧ (s.bcp.upd = some (⟨1, 1, 0, 5, 100, 1, 0, 128, []⟩ : Upd)) ∧ ((⟨1, 1, 0, 5, 100, 1, 0, 128, []⟩ : Upd).phase = 1) ∧ (128 + (⟨1, 1, 0, 5, 100, 1, 0, 128, []⟩ : Upd).len < ({ key := 1, tag := 7, seq := 3, addr := 228, count := 2, size := 1, data := [0x0102030405060708, 255], mac := 140005487628682125545994416289948619845 } : Bap).addr % 2 ^ 40 + (Bap.bytes ({ key := 1, tag := 7, seq := 3, addr := 228, count := 2, size := 1, data := [0x0102030405060708, 255], mac := 140005487628682125545994416289948619845 } : Bap)).length))
    ∧ (∃ s : State, ((Instr.updData ({ key := 1, tag := 7, seq := 3, mac := 51753637625117986290970759655834374434 } : Bap) 9).wf = true) ∧ (s.calm = true) ∧ (((s.upTo 9).bapAccept ({ key := 1, tag := 7, seq := 3, mac := 51753637625117986290970759655834374434 } : Bap) 6).1 = true) ∧ ((s.bcp.keys.getD ({ key := 1, tag := 7, seq := 3, mac := 51753637625117986290970759655834374434 } : Bap).key {}).upd = true) ∧ (((s.bcp.upd.map fun x => x.phase) = none ∨ ((s.bcp.upd.map fun x => x.phase) ≠ some 0 ∧ (s.bcp.upd.map fun x => x.phase) ≠ some 1))))
    ∧ (∃ s : State, ((Instr.updData ({ key := 1, tag := 7, seq := 3, mac := 51753637625117986290970759655834374434 } : Bap) 9).wf = true) ∧ (s.calm = true) ∧ (((s.upTo 9).bapAccept ({ key := 1, tag := 7, seq := 3, mac := 51753637625117986290970759655834374434 } : Bap) 6).1 = true) ∧ ((s.bcp.keys.getD ({ key := 1, tag := 7, seq := 3, mac := 51753637625117986290970759655834374434 } : Bap).key {}).upd = true) ∧ ((s.bcp.upd.map fun x => x.phase) = some 0))
    ∧ (∃ s : State, ((Instr.updCommit ({ key := 1, tag := 7, seq := 3, mac := 100509789386091759111324151169296659317 } : Bap) 9).wf = true) ∧ (s.calm = true) ∧ (((s.upTo 9).bapAccept ({ key := 1, tag := 7, seq := 3, mac := 100509789386091759111324151169296659317 } : Bap) 7).1 = true) ∧ ((s.bcp.keys.getD ({ key := 1, tag := 7, seq := 3, mac := 100509789386091759111324151169296659317 } : Bap).key {}).upd = true) ∧ (((s.bcp.upd.map fun x => x.phase) = none ∨ ((s.bcp.upd.map fun x => x.phase) ≠ some 0 ∧ (s.bcp.upd.map fun x => x.phase) ≠ some 1)))) :=
    ⟨⟨({ keyed with bcp := { keyed.bcp with upd := some ⟨1, 1, 0, 5, 0, 1, 0, 128, []⟩ } } : State), by decide +kernel⟩,
    ⟨({ keyed with bcp := { keyed.bcp with upd := some ⟨1, 1, 0, 5, 100, 1, 0, 128, []⟩ } } : State), by decide +kernel⟩,
    ⟨({ keyed with bcp := { keyed.bcp with upd := some ⟨1, 1, 0, 5, 100, 1, 0, 128, []⟩ } } : State), by decide +kernel⟩,
    ⟨keyed, by decide +kernel⟩,
    ⟨({ keyed with bcp := { keyed.bcp with upd := some ⟨1, 1, 0, 5, 0, 0, 0, 128, []⟩ } } : State), by decide +kernel⟩,
    ⟨keyed, by decide +kernel⟩⟩

theorem witness_Updates_6 :
    (∃ s : State, ((Instr.updCommit ({ key := 1, tag := 7, seq := 3, mac := 100509789386091759111324151169296659317 } : Bap) 9).wf = true) ∧ (s.calm = true) ∧ (((s.upTo 9).bapAccept ({ key := 1, tag := 7, seq := 3, mac := 100509789386091759111324151169296659317 } : Bap) 7).1 = true) ∧ ((s.bcp.keys.getD ({ key := 1, tag := 7, seq := 3, mac := 100509789386091759111324151169296659317 } : Bap).key {}).upd = true) ∧ ((s.bcp.upd.map fun x => x.phase) = some 0))
    ∧ (∃ s : State, ((Instr.updCommit ({ key := 1, tag := 7, seq := 3, mac := 100509789386091759111324151169296659317 } : Bap) 9).wf = true) ∧ (s.calm = true) ∧ (((s.upTo 9).bapAccept ({ key := 1, tag := 7, seq := 3, mac := 100509789386091759111324151169296659317 } : Bap) 7).1 = true) ∧ ((s.bcp.keys.getD ({ key := 1, tag := 7, seq := 3, mac := 100509789386091759111324151169296659317 } : Bap).key {}).upd = true) ∧ (s.bcp.upd = some (⟨1, 1, 0, 5, 0, 1, 0, 128, ((List.range 128).map fun j => (j, 0))⟩ : Upd)) ∧ ((⟨1, 1, 0, 5, 0, 1, 0, 128, ((List.range 128).map fun j => (j, 0))⟩ : Upd).phase = 1) ∧ ((⟨1, 1, 0, 5, 0, 1, 0, 128, ((List.range 128).map fun j => (j, 0))⟩ : Upd).target ≠ 0) ∧ (((leNat ((List.range 4).map fun j => imgByte ((⟨1, 1, 0, 5, 0, 1, 0, 128, ((List.range 128).map fun j => (j, 0))⟩ : Upd).data.filter fun q => q.2 != 0xFF) (64 + j)) == crc32c ((List.range (⟨1, 1, 0, 5, 0, 1, 0, 128, ((List.range 128).map fun j => (j, 0))⟩ : Upd).len).map fun j => BitVec.ofNat 8 (imgByte ((⟨1, 1, 0, 5, 0, 1, 0, 128, ((List.range 128).map fun j => (j, 0))⟩ : Upd).data.filter fun q => q.2 != 0xFF) (128 + j)))) && (List.range 60).all (fun j => imgByte ((⟨1, 1, 0, 5, 0, 1, 0, 128, ((List.range 128).map fun j => (j, 0))⟩ : Upd).data.filter fun q => q.2 != 0xFF) (68 + j) == 0)) = true))
    ∧ (∃ s : State, ((Instr.updCommit ({ key := 1, tag := 7, seq := 3, mac := 100509789386091759111324151169296659317 } : Bap) 9).wf = true) ∧ (s.calm = true) ∧ (((s.upTo 9).bapAccept ({ key := 1, tag := 7, seq := 3, mac := 100509789386091759111324151169296659317 } : Bap) 7).1 = true) ∧ ((s.bcp.keys.getD ({ key := 1, tag := 7, seq := 3, mac := 100509789386091759111324151169296659317 } : Bap).key {}).upd = true) ∧ (s.bcp.upd = some (⟨1, 1, 0, 5, 0, 1, 0, 128, ((List.range 128).map fun j => (j, 0))⟩ : Upd)) ∧ ((⟨1, 1, 0, 5, 0, 1, 0, 128, ((List.range 128).map fun j => (j, 0))⟩ : Upd).phase = 1) ∧ ((⟨1, 1, 0, 5, 0, 1, 0, 128, ((List.range 128).map fun j => (j, 0))⟩ : Upd).bank < 2) ∧ ((if (⟨1, 1, 0, 5, 0, 1, 0, 128, ((List.range 128).map fun j => (j, 0))⟩ : Upd).target = 0 then Config.imageVerifies (⟨1, 1, 0, 5, 0, 1, 0, 128, ((List.range 128).map fun j => (j, 0))⟩ : Upd).keyid ((⟨1, 1, 0, 5, 0, 1, 0, 128, ((List.range 128).map fun j => (j, 0))⟩ : Upd).data.filter fun q => q.2 != 0xFF) (⟨1, 1, 0, 5, 0, 1, 0, 128, ((List.range 128).map fun j => (j, 0))⟩ : Upd).len else ((leNat ((List.range 4).map fun j => imgByte ((⟨1, 1, 0, 5, 0, 1, 0, 128, ((List.range 128).map fun j => (j, 0))⟩ : Upd).data.filter fun q => q.2 != 0xFF) (64 + j)) == crc32c ((List.range (⟨1, 1, 0, 5, 0, 1, 0, 128, ((List.range 128).map fun j => (j, 0))⟩ : Upd).len).map fun j => BitVec.ofNat 8 (imgByte ((⟨1, 1, 0, 5, 0, 1, 0, 128, ((List.range 128).map fun j => (j, 0))⟩ : Upd).data.filter fun q => q.2 != 0xFF) (128 + j)))) && (List.range 60).all (fun j => imgByte ((⟨1, 1, 0, 5, 0, 1, 0, 128, ((List.range 128).map fun j => (j, 0))⟩ : Upd).data.filter fun q => q.2 != 0xFF) (68 + j) == 0))) = true))
    ∧ (∃ s : State, ((Instr.updCommit ({ key := 1, tag := 7, seq := 3, mac := 100509789386091759111324151169296659317 } : Bap) 9).wf = true) ∧ (s.calm = true) ∧ (((s.upTo 9).bapAccept ({ key := 1, tag := 7, seq := 3, mac := 100509789386091759111324151169296659317 } : Bap) 7).1 = true) ∧ ((s.bcp.keys.getD ({ key := 1, tag := 7, seq := 3, mac := 100509789386091759111324151169296659317 } : Bap).key {}).upd = true) ∧ (s.bcp.upd = some (⟨1, 1, 0, 5, 0, 1, 0, 128, []⟩ : Upd)) ∧ ((⟨1, 1, 0, 5, 0, 1, 0, 128, []⟩ : Upd).phase = 1) ∧ ((if (⟨1, 1, 0, 5, 0, 1, 0, 128, []⟩ : Upd).target = 0 then Config.imageVerifies (⟨1, 1, 0, 5, 0, 1, 0, 128, []⟩ : Upd).keyid ((⟨1, 1, 0, 5, 0, 1, 0, 128, []⟩ : Upd).data.filter fun q => q.2 != 0xFF) (⟨1, 1, 0, 5, 0, 1, 0, 128, []⟩ : Upd).len else ((leNat ((List.range 4).map fun j => imgByte ((⟨1, 1, 0, 5, 0, 1, 0, 128, []⟩ : Upd).data.filter fun q => q.2 != 0xFF) (64 + j)) == crc32c ((List.range (⟨1, 1, 0, 5, 0, 1, 0, 128, []⟩ : Upd).len).map fun j => BitVec.ofNat 8 (imgByte ((⟨1, 1, 0, 5, 0, 1, 0, 128, []⟩ : Upd).data.filter fun q => q.2 != 0xFF) (128 + j)))) && (List.range 60).all (fun j => imgByte ((⟨1, 1, 0, 5, 0, 1, 0, 128, []⟩ : Upd).data.filter fun q => q.2 != 0xFF) (68 + j) == 0))) = false))
    ∧ (∃ s : State, ((Instr.updActivate ({ key := 1, tag := 7, seq := 3, mac := 203564008940563778591840940937791841832 } : Bap) 9).wf = true) ∧ (s.calm = true) ∧ (((s.upTo 9).bapAccept ({ key := 1, tag := 7, seq := 3, mac := 203564008940563778591840940937791841832 } : Bap) 8).1 = true) ∧ ((s.bcp.keys.getD ({ key := 1, tag := 7, seq := 3, mac := 203564008940563778591840940937791841832 } : Bap).key {}).upd = true) ∧ (s.updating = false) ∧ (s.bankState' s.targetBank = 2))
    ∧ (∃ s : State, ((Instr.updActivate ({ key := 1, tag := 7, seq := 3, mac := 203564008940563778591840940937791841832 } : Bap) 9).wf = true) ∧ (s.calm = true) ∧ (((s.upTo 9).bapAccept ({ key := 1, tag := 7, seq := 3, mac := 203564008940563778591840940937791841832 } : Bap) 8).1 = true) ∧ ((s.bcp.keys.getD ({ key := 1, tag := 7, seq := 3, mac := 203564008940563778591840940937791841832 } : Bap).key {}).upd = true) ∧ (s.updating = true ∨ s.bankState' s.targetBank ≠ 2)) :=
    ⟨⟨({ keyed with bcp := { keyed.bcp with upd := some ⟨1, 1, 0, 5, 0, 0, 0, 128, []⟩ } } : State), by decide +kernel⟩,
    ⟨({ keyed with bcp := { keyed.bcp with upd := some ⟨1, 1, 0, 5, 0, 1, 0, 128, ((List.range 128).map fun j => (j, 0))⟩ } } : State), by decide +kernel⟩,
    ⟨({ keyed with bcp := { keyed.bcp with upd := some ⟨1, 1, 0, 5, 0, 1, 0, 128, ((List.range 128).map fun j => (j, 0))⟩ } } : State), by decide +kernel⟩,
    ⟨({ keyed with bcp := { keyed.bcp with upd := some ⟨1, 1, 0, 5, 0, 1, 0, 128, []⟩ } } : State), by decide +kernel⟩,
    ⟨(keyed.setFld (pgBcp 4) 0x048 31 30 2), by decide +kernel⟩,
    ⟨keyed, by decide +kernel⟩⟩

theorem witness_Updates_7 :
    (∃ s : State, ((Instr.confirm .basecamp 9).wf = true) ∧ (s.calm = true) ∧ (s.mayWrite .basecamp (pgBcp 4) .bcp = true) ∧ (s.powered (pgBcp 4) = true) ∧ ((s.pageH (pgBcp 4)).resetting = false) ∧ (s.inRecovery = false) ∧ (s.bankState' s.runBank = 3))
    ∧ (∃ s : State, ((Instr.confirm .basecamp 9).wf = true) ∧ (s.calm = true) ∧ (s.mayWrite .basecamp (pgBcp 4) .bcp = true) ∧ (s.powered (pgBcp 4) = true) ∧ ((s.pageH (pgBcp 4)).resetting = false) ∧ (s.inRecovery = true ∨ s.bankState' s.runBank ≠ 3))
    ∧ (∃ s : State, ((Instr.confirm ((.tile 5 0) : Writer) 9).wf = true) ∧ (s.calm = true) ∧ (fromOuter ((.tile 5 0) : Writer) = true))
    ∧ (∃ s : State, ((Instr.confirm .basecamp 9).wf = true) ∧ (s.calm = true) ∧ (s.mayWrite .basecamp (pgBcp 4) .bcp = true) ∧ ((s.powered (pgBcp 4) = false ∨ (s.pageH (pgBcp 4)).resetting = true)))
    ∧ (∃ s : State, ((Instr.raiseMin .basecamp 9).wf = true) ∧ (s.calm = true) ∧ (s.mayWrite .basecamp (pgBcp 4) .bcp = true) ∧ (s.powered (pgBcp 4) = true) ∧ ((s.pageH (pgBcp 4)).resetting = false))
    ∧ (∃ s : State, ((Instr.raiseMin ((.tile 5 0) : Writer) 9).wf = true) ∧ (s.calm = true) ∧ (fromOuter ((.tile 5 0) : Writer) = true)) :=
    ⟨⟨(State.reset.setFld (pgBcp 4) 0x044 31 30 3), by decide +kernel⟩,
    ⟨State.reset, by decide +kernel⟩,
    ⟨State.reset, by decide +kernel⟩,
    ⟨(State.reset.setPageH (pgBcp 4) { State.reset.pageH (pgBcp 4) with resetting := true }), by decide +kernel⟩,
    ⟨(State.reset.wr (pgBcp 0) 0x050 7), by decide +kernel⟩,
    ⟨State.reset, by decide +kernel⟩⟩

theorem witness_Updates_8 :
    (∃ s : State, ((Instr.raiseMin .basecamp 9).wf = true) ∧ (s.calm = true) ∧ (s.mayWrite .basecamp (pgBcp 4) .bcp = true) ∧ ((s.powered (pgBcp 4) = false ∨ (s.pageH (pgBcp 4)).resetting = true)))
    ∧ (∃ s : State, ((Instr.abort .basecamp 9).wf = true) ∧ (s.calm = true) ∧ (s.mayWrite .basecamp (pgBcp 4) .bcp = true) ∧ (s.powered (pgBcp 4) = true) ∧ ((s.pageH (pgBcp 4)).resetting = false) ∧ (s.bcp.upd.isSome = true))
    ∧ (∃ s : State, ((Instr.abort .basecamp 9).wf = true) ∧ (s.calm = true) ∧ (s.mayWrite .basecamp (pgBcp 4) .bcp = true) ∧ (s.powered (pgBcp 4) = true) ∧ ((s.pageH (pgBcp 4)).resetting = false) ∧ (s.bcp.upd = none))
    ∧ (∃ s : State, ((Instr.abort ((.tile 5 0) : Writer) 9).wf = true) ∧ (s.calm = true) ∧ (fromOuter ((.tile 5 0) : Writer) = true))
    ∧ (∃ s : State, ((Instr.abort .basecamp 9).wf = true) ∧ (s.calm = true) ∧ (s.mayWrite .basecamp (pgBcp 4) .bcp = true) ∧ ((s.powered (pgBcp 4) = false ∨ (s.pageH (pgBcp 4)).resetting = true)))
    ∧ (∃ s : State, ((Instr.tileUpdate .basecamp 4 5 9).wf = true) ∧ (s.calm = true) ∧ (s.mayWrite .basecamp (pgBcp 4) .bcp = true) ∧ (s.powered (pgBcp 4) = true) ∧ ((s.pageH (pgBcp 4)).resetting = false) ∧ (s.readySpare 5 = some 7) ∧ ((s.tileH 5).work = true) ∧ (s.ready (pgTile 5) = true)) :=
    ⟨⟨(State.reset.setPageH (pgBcp 4) { State.reset.pageH (pgBcp 4) with resetting := true }), by decide +kernel⟩,
    ⟨({ keyed with bcp := { keyed.bcp with upd := some ⟨1, 1, 0, 5, 0, 1, 0, 128, []⟩ } } : State), by decide +kernel⟩,
    ⟨State.reset, by decide +kernel⟩,
    ⟨State.reset, by decide +kernel⟩,
    ⟨(State.reset.setPageH (pgBcp 4) { State.reset.pageH (pgBcp 4) with resetting := true }), by decide +kernel⟩,
    ⟨((((State.reset.wr (pgTile 5) 8 1).wr (pgTile 7) 8 1).wr (pgTile 7) 0x040 0x20000000).setTile 5 { work := true }), by decide +kernel⟩⟩

theorem witness_Updates_9 :
    (∃ s : State, ((Instr.tileUpdate .basecamp 4 5 9).wf = true) ∧ (s.calm = true) ∧ (s.mayWrite .basecamp (pgBcp 4) .bcp = true) ∧ (s.powered (pgBcp 4) = true) ∧ ((s.pageH (pgBcp 4)).resetting = false) ∧ (s.readySpare 5 = some 7) ∧ (((s.tileH 5).work = false ∨ s.ready (pgTile 5) = false)))
    ∧ (∃ s : State, ((Instr.tileUpdate .basecamp 4 5 9).wf = true) ∧ (s.calm = true) ∧ (s.mayWrite .basecamp (pgBcp 4) .bcp = true) ∧ (s.powered (pgBcp 4) = true) ∧ ((s.pageH (pgBcp 4)).resetting = false) ∧ (s.readySpare 5 = none))
    ∧ (∃ s : State, ((Instr.tileUpdate .basecamp 4 5 9).wf = true) ∧ (s.mayWrite .basecamp (pgBcp 4) .bcp = true) ∧ (s.powered (pgBcp 4) = true) ∧ ((s.pageH (pgBcp 4)).resetting = false) ∧ (s.bcp.tupd.isSome = true) ∧ (({ s with bcp := { s.bcp with tupd := none } } : State).calm = true) ∧ ((s.bcp.tupd.any fun x => s.fld (pgTile x.1) 0x0A4 31 29 == 3 || s.fld (pgTile x.1) 0x0A4 31 29 == 4) = false))
    ∧ (∃ s : State, ((Instr.tileUpdate ((.tile 5 0) : Writer) 4 5 9).wf = true) ∧ (s.calm = true) ∧ (fromOuter ((.tile 5 0) : Writer) = true))
    ∧ (∃ s : State, ((Instr.tileUpdate .basecamp 4 5 9).wf = true) ∧ (s.calm = true) ∧ (s.mayWrite .basecamp (pgBcp 4) .bcp = true) ∧ ((s.powered (pgBcp 4) = false ∨ (s.pageH (pgBcp 4)).resetting = true))) :=
    ⟨⟨((State.reset.wr (pgTile 7) 8 1).wr (pgTile 7) 0x040 0x20000000), by decide +kernel⟩,
    ⟨State.reset, by decide +kernel⟩,
    ⟨({ keyed with bcp := { keyed.bcp with tupd := some (4, 5, 0) } } : State), by decide +kernel⟩,
    ⟨State.reset, by decide +kernel⟩,
    ⟨(State.reset.setPageH (pgBcp 4) { State.reset.pageH (pgBcp 4) with resetting := true }), by decide +kernel⟩⟩

theorem witness_Boots_1 :
    (∃ s : State, ((Instr.powerOnReset).wf = true) ∧ (s.bcp.booted = false ∨ s.bcp.held = true) ∧ (((List.range 2).all fun x => !((s.bankState' x == 2 || s.bankState' x == 3) && s.verifies x)) = true))
    ∧ (∃ s : State, ((Instr.powerOnReset).wf = true) ∧ (s.bcp.booted = false ∨ s.bcp.held = true) ∧ (s.bcp.store = []))
    ∧ (∃ s : State, ((Instr.powerOnReset).wf = true) ∧ (s.bcp.booted = false ∨ s.bcp.held = true))
    ∧ (∃ s : State, ((Instr.powerOnReset).wf = true) ∧ (s.calm = true) ∧ (s.bcp.booted = true))
    ∧ (∃ s : State, ((Instr.restart .basecamp 9).wf = true) ∧ (s.calm = true) ∧ (s.mayWrite .basecamp (pgBcp 0) .bcp = true) ∧ (s.powered (pgBcp 0) = true) ∧ ((s.pageH (pgBcp 0)).resetting = false) ∧ (s.inRecovery = false))
    ∧ (∃ s : State, ((Instr.restart .basecamp 9).wf = true) ∧ (s.calm = true) ∧ (s.mayWrite .basecamp (pgBcp 0) .bcp = true) ∧ (s.powered (pgBcp 0) = true) ∧ ((s.pageH (pgBcp 0)).resetting = false) ∧ (s.inRecovery = true) ∧ (((List.range 2).all fun x => !((s.bankState' x == 2 || s.bankState' x == 3) && s.verifies x)) = true)) :=
    ⟨⟨((State.reset.setFld (pgBcp 4) 0x044 31 30 1).setFld (pgBcp 4) 0x048 31 30 1), by decide +kernel⟩,
    ⟨State.reset, by decide +kernel⟩,
    ⟨({ State.reset with bcp := { State.reset.bcp with store := [(5, 6)] } } : State), by decide +kernel⟩,
    ⟨keyed, by decide +kernel⟩,
    ⟨({ keyed with bcp := { keyed.bcp with upd := some ⟨1, 1, 0, 5, 0, 1, 0, 128, []⟩ } } : State), by decide +kernel⟩,
    ⟨(((({ keyed with bcp := { keyed.bcp with upd := some ⟨1, 1, 0, 5, 0, 1, 0, 128, []⟩ } } : State).setB (pgBcp 0) 0x04C 28).setFld (pgBcp 4) 0x044 31 30 1).setFld (pgBcp 4) 0x048 31 30 1), by decide +kernel⟩⟩

theorem witness_Boots_2 :
    (∃ s : State, ((Instr.restart .basecamp 9).wf = true) ∧ (s.calm = true) ∧ (s.mayWrite .basecamp (pgBcp 0) .bcp = true) ∧ (s.powered (pgBcp 0) = true) ∧ ((s.pageH (pgBcp 0)).resetting = false))
    ∧ (∃ s : State, ((Instr.restart ((.tile 5 0) : Writer) 9).wf = true) ∧ (s.calm = true) ∧ (fromOuter ((.tile 5 0) : Writer) = true))
    ∧ (∃ s : State, ((Instr.restart .basecamp 9).wf = true) ∧ (s.calm = true) ∧ (s.mayWrite .basecamp (pgBcp 0) .bcp = true) ∧ ((s.powered (pgBcp 0) = false ∨ (s.pageH (pgBcp 0)).resetting = true)))
    ∧ (∃ s : State, ((Instr.basecampReset 5 9).wf = true) ∧ (s.calm = true) ∧ (s.inRecovery = false))
    ∧ (∃ s : State, ((Instr.basecampReset 5 9).wf = true) ∧ (s.calm = true) ∧ (s.inRecovery = true) ∧ (((List.range 2).all fun x => !((s.bankState' x == 2 || s.bankState' x == 3) && s.verifies x)) = true))
    ∧ (∃ s : State, ((Instr.basecampReset 5 9).wf = true) ∧ (s.calm = true) ∧ (s.inRecovery = true)) :=
    ⟨⟨(({ keyed with bcp := { keyed.bcp with upd := some ⟨1, 1, 0, 5, 0, 1, 0, 128, []⟩ } } : State).setB (pgBcp 0) 0x04C 28), by decide +kernel⟩,
    ⟨State.reset, by decide +kernel⟩,
    ⟨(State.reset.setPageH (pgBcp 0) { State.reset.pageH (pgBcp 0) with resetting := true }), by decide +kernel⟩,
    ⟨(keyed.setFld (pgBcp 4) 0x044 31 30 3), by decide +kernel⟩,
    ⟨(((({ keyed with bcp := { keyed.bcp with upd := some ⟨1, 1, 0, 5, 0, 1, 0, 128, []⟩ } } : State).setB (pgBcp 0) 0x04C 28).setFld (pgBcp 4) 0x044 31 30 1).setFld (pgBcp 4) 0x048 31 30 1), by decide +kernel⟩,
    ⟨(({ keyed with bcp := { keyed.bcp with upd := some ⟨1, 1, 0, 5, 0, 1, 0, 128, []⟩ } } : State).setB (pgBcp 0) 0x04C 28), by decide +kernel⟩⟩

theorem witness_Boots_3 :
    (∃ s : State, ((Instr.logFlush 9).wf = true) ∧ (s.calm = true) ∧ (s.log.staged ≠ []))
    ∧ (∃ s : State, ((Instr.logFlush 9).wf = true) ∧ (s.calm = true) ∧ (s.log.staged = []))
    ∧ (∃ s : State, ((Instr.bcpKeyData .basecamp 6 0xABCDEF01 9).wf = true) ∧ (s.calm = true) ∧ (s.mayWrite .basecamp (pgBcp 7) .bcp = true) ∧ (s.powered (pgBcp 7) = true) ∧ ((s.pageH (pgBcp 7)).resetting = false) ∧ (6 < 7))
    ∧ (∃ s : State, ((Instr.bcpKeyData .basecamp 7 0xABCDEF01 9).wf = true) ∧ (s.calm = true) ∧ (s.mayWrite .basecamp (pgBcp 7) .bcp = true) ∧ (s.powered (pgBcp 7) = true) ∧ ((s.pageH (pgBcp 7)).resetting = false) ∧ (3 = s.fld (pgBcp 7) 0x040 2 0))
    ∧ (∃ s : State, ((Instr.bcpKeyData ((.tile 5 0) : Writer) 3 7 9).wf = true) ∧ (s.calm = true) ∧ (fromOuter ((.tile 5 0) : Writer) = true))
    ∧ (∃ s : State, ((Instr.bcpKeyData .basecamp 3 7 9).wf = true) ∧ (s.calm = true) ∧ (s.mayWrite .basecamp (pgBcp 7) .bcp = true) ∧ ((s.powered (pgBcp 7) = false ∨ (s.pageH (pgBcp 7)).resetting = true))) :=
    ⟨⟨(State.reset.logEvent 5 2 6 7), by decide +kernel⟩,
    ⟨State.reset, by decide +kernel⟩,
    ⟨State.reset, by decide +kernel⟩,
    ⟨(State.reset.wr (pgBcp 7) 0x040 3), by decide +kernel⟩,
    ⟨State.reset, by decide +kernel⟩,
    ⟨(State.reset.setPageH (pgBcp 7) { State.reset.pageH (pgBcp 7) with resetting := true }), by decide +kernel⟩⟩

theorem witness_TimeAndBivouac_1 :
    (∃ s : State, ((Instr.ptpSync ((-20000) : Int) 500000000000 9).wf = true) ∧ (s.calm = true) ∧ (s.getB (pgBcp 3) 0x040 31 = true) ∧ (s.getB (pgBcp 3) 0x044 29 = false) ∧ (s.wall.everLocked = false) ∧ (s.wall.locked = false) ∧ ((if 8 ≤ (if ((-20000) : Int).natAbs ≤ 1000 then s.bcp.good + 1 else 0) then s.wall.locked = true else (if 10000 < ((-20000) : Int).natAbs then s.bcp.bad + 1 else 0) < 4 ∨ s.wall.locked = false)))
    ∧ (∃ s : State, ((Instr.ptpSync ((-1000) : Int) 500000000000 9).wf = true) ∧ (s.calm = true) ∧ (s.getB (pgBcp 3) 0x040 31 = true) ∧ (s.getB (pgBcp 3) 0x044 29 = false) ∧ (s.wall.everLocked = false) ∧ (s.wall.locked = false) ∧ (8 ≤ (if ((-1000) : Int).natAbs ≤ 1000 then s.bcp.good + 1 else 0)) ∧ (s.wall.locked = false))
    ∧ (∃ s : State, ((Instr.ptpSync (0 : Int) 500000000000 9).wf = true) ∧ (s.calm = true) ∧ (s.getB (pgBcp 3) 0x040 31 = true) ∧ (s.getB (pgBcp 3) 0x044 29 = false) ∧ (s.wall.everLocked = true) ∧ ((0 : Int) = 0) ∧ ((if 8 ≤ (if (0 : Int).natAbs ≤ 1000 then s.bcp.good + 1 else 0) then s.wall.locked = true else (if 10000 < (0 : Int).natAbs then s.bcp.bad + 1 else 0) < 4 ∨ s.wall.locked = false)))
    ∧ (∃ s : State, ((Instr.ptpSync (0 : Int) 500000000000 9).wf = true) ∧ (s.calm = true) ∧ (s.getB (pgBcp 3) 0x040 31 = true) ∧ (s.getB (pgBcp 3) 0x044 29 = false) ∧ (s.wall.everLocked = true) ∧ ((0 : Int) = 0) ∧ (8 ≤ (if (0 : Int).natAbs ≤ 1000 then s.bcp.good + 1 else 0)) ∧ (s.wall.locked = false))
    ∧ (∃ s : State, ((Instr.ptpSync (999999 : Int) 500000000000 9).wf = true) ∧ (s.calm = true) ∧ (s.getB (pgBcp 3) 0x040 31 = true) ∧ (s.getB (pgBcp 3) 0x044 29 = false) ∧ (s.wall.everLocked = true) ∧ ((999999 : Int) ≠ 0) ∧ ((999999 : Int).natAbs < 1000000) ∧ ((if 8 ≤ (if (999999 : Int).natAbs ≤ 1000 then s.bcp.good + 1 else 0) then s.wall.locked = true else (if 10000 < (999999 : Int).natAbs then s.bcp.bad + 1 else 0) < 4 ∨ s.wall.locked = false)))
    ∧ (∃ s : State, ((Instr.ptpSync (1000 : Int) 500000000000 9).wf = true) ∧ (s.calm = true) ∧ (s.getB (pgBcp 3) 0x040 31 = true) ∧ (s.getB (pgBcp 3) 0x044 29 = false) ∧ (s.wall.everLocked = true) ∧ ((1000 : Int) ≠ 0) ∧ ((1000 : Int).natAbs < 1000000) ∧ (8 ≤ (if (1000 : Int).natAbs ≤ 1000 then s.bcp.good + 1 else 0)) ∧ (s.wall.locked = false)) :=
    ⟨⟨({ State.reset with bcp := { State.reset.bcp with good := 5 } } : State), by decide +kernel⟩,
    ⟨({ State.reset with bcp := { State.reset.bcp with good := 7 } } : State), by decide +kernel⟩,
    ⟨({ State.reset with wall := { everLocked := true, locked := false }, bcp := { State.reset.bcp with tSync := 0 } } : State), by decide +kernel⟩,
    ⟨({ State.reset with wall := { everLocked := true, locked := false }, bcp := { State.reset.bcp with tSync := 0, good := 7 } } : State), by decide +kernel⟩,
    ⟨({ State.reset with wall := { everLocked := true, locked := true }, bcp := { State.reset.bcp with tSync := 0 } } : State), by decide +kernel⟩,
    ⟨({ State.reset with wall := { everLocked := true, locked := false }, bcp := { State.reset.bcp with tSync := 0, good := 7 } } : State), by decide +kernel⟩⟩

theorem witness_TimeAndBivouac_2 :
    (∃ s : State, ((Instr.ptpSync (10001 : Int) 500000000000 9).wf = true) ∧ (s.calm = true) ∧ (s.getB (pgBcp 3) 0x040 31 = true) ∧ (s.getB (pgBcp 3) 0x044 29 = false) ∧ (s.wall.everLocked = true) ∧ ((10001 : Int) ≠ 0) ∧ ((10001 : Int).natAbs < 1000000) ∧ ((if (10001 : Int).natAbs ≤ 1000 then s.bcp.good + 1 else 0) < 8) ∧ (4 ≤ (if 10000 < (10001 : Int).natAbs then s.bcp.bad + 1 else 0)) ∧ (s.wall.locked = true))
    ∧ (∃ s : State, ((Instr.ptpSync (1000000 : Int) 500000000000 9).wf = true) ∧ (s.calm = true) ∧ (s.getB (pgBcp 3) 0x040 31 = true) ∧ (s.getB (pgBcp 3) 0x044 29 = false) ∧ (s.wall.everLocked = true) ∧ (1000000 ≤ (1000000 : Int).natAbs) ∧ ((if 8 ≤ (if (1000000 : Int).natAbs ≤ 1000 then s.bcp.good + 1 else 0) then s.wall.locked = true else (if 10000 < (1000000 : Int).natAbs then s.bcp.bad + 1 else 0) < 4 ∨ s.wall.locked = false)))
    ∧ (∃ s : State, ((Instr.ptpSync ((-2000000) : Int) 500000000000 9).wf = true) ∧ (s.calm = true) ∧ (s.getB (pgBcp 3) 0x040 31 = true) ∧ (s.getB (pgBcp 3) 0x044 29 = false) ∧ (s.wall.everLocked = true) ∧ (1000000 ≤ ((-2000000) : Int).natAbs) ∧ ((if ((-2000000) : Int).natAbs ≤ 1000 then s.bcp.good + 1 else 0) < 8) ∧ (4 ≤ (if 10000 < ((-2000000) : Int).natAbs then s.bcp.bad + 1 else 0)) ∧ (s.wall.locked = true))
    ∧ (∃ s : State, ((Instr.ptpSync (5 : Int) 9 9).wf = true) ∧ (s.calm = true) ∧ ((s.getB (pgBcp 3) 0x040 31 = false ∨ s.getB (pgBcp 3) 0x044 29 = true)))
    ∧ (∃ s : State, ((Instr.syncTimeout 99999999999).wf = true) ∧ (s.calm = true) ∧ (s.bcp.tSync + 8 * cyclesPerS ≤ 99999999999) ∧ (s.wall.locked = true))
    ∧ (∃ s : State, ((Instr.syncTimeout 99999999999).wf = true) ∧ (s.calm = true) ∧ (s.bcp.tSync + 8 * cyclesPerS ≤ 99999999999) ∧ (s.wall.locked = false)) :=
    ⟨⟨({ State.reset with wall := { everLocked := true, locked := true }, bcp := { State.reset.bcp with tSync := 0, bad := 3 } } : State), by decide +kernel⟩,
    ⟨({ State.reset with wall := { everLocked := true, locked := true }, bcp := { State.reset.bcp with tSync := 0, bad := 2 } } : State), by decide +kernel⟩,
    ⟨({ State.reset with wall := { everLocked := true, locked := true }, bcp := { State.reset.bcp with tSync := 0, bad := 3 } } : State), by decide +kernel⟩,
    ⟨(State.reset.setB (pgBcp 3) 0x044 29), by decide +kernel⟩,
    ⟨({ State.reset with wall := { everLocked := true, locked := true }, bcp := { State.reset.bcp with tSync := 0 } } : State), by decide +kernel⟩,
    ⟨({ State.reset with wall := { everLocked := true, locked := false }, bcp := { State.reset.bcp with tSync := 0 } } : State), by decide +kernel⟩⟩

theorem witness_TimeAndBivouac_3 :
    (∃ s : State, ((Instr.syncTimeout 9).wf = true) ∧ (s.calm = true) ∧ (9 < s.bcp.tSync + 8 * cyclesPerS))
    ∧ (∃ s : State, ((Instr.bivEnter .basecamp 9).wf = true) ∧ (s.calm = true) ∧ (s.mayWrite .basecamp (pgBcp 5) .bcp = true) ∧ (s.powered (pgBcp 5) = true) ∧ ((s.pageH (pgBcp 5)).resetting = false) ∧ (∀ o ∈ List.range 64, s.isOff (pgSout o) = true) ∧ (s.updating = false) ∧ (s.pstate' = 0))
    ∧ (∃ s : State, ((Instr.bivEnter .basecamp 9).wf = true) ∧ (s.calm = true) ∧ (s.mayWrite .basecamp (pgBcp 5) .bcp = true) ∧ (s.powered (pgBcp 5) = true) ∧ ((s.pageH (pgBcp 5)).resetting = false) ∧ (((List.range 64).all fun x => s.isOff (pgSout x)) = false))
    ∧ (∃ s : State, ((Instr.bivEnter .basecamp 9).wf = true) ∧ (s.calm = true) ∧ (s.mayWrite .basecamp (pgBcp 5) .bcp = true) ∧ (s.powered (pgBcp 5) = true) ∧ ((s.pageH (pgBcp 5)).resetting = false) ∧ (∀ o ∈ List.range 64, s.isOff (pgSout o) = true) ∧ (s.updating = true))
    ∧ (∃ s : State, ((Instr.bivEnter .basecamp 9).wf = true) ∧ (s.calm = true) ∧ (s.mayWrite .basecamp (pgBcp 5) .bcp = true) ∧ (s.powered (pgBcp 5) = true) ∧ ((s.pageH (pgBcp 5)).resetting = false) ∧ (∀ o ∈ List.range 64, s.isOff (pgSout o) = true) ∧ (s.updating = false) ∧ (s.pstate' ≠ 0))
    ∧ (∃ s : State, ((Instr.bivEnter ((.tile 5 0) : Writer) 9).wf = true) ∧ (s.calm = true) ∧ (fromOuter ((.tile 5 0) : Writer) = true)) :=
    ⟨⟨State.reset, by decide +kernel⟩,
    ⟨State.reset, by decide +kernel⟩,
    ⟨(State.reset.setB (pgSout 63) oStatus 0), by decide +kernel⟩,
    ⟨({ keyed with bcp := { keyed.bcp with upd := some ⟨1, 1, 0, 5, 0, 1, 0, 128, []⟩ } } : State), by decide +kernel⟩,
    ⟨({ State.reset with bcp := { State.reset.bcp with pst := 2 } } : State), by decide +kernel⟩,
    ⟨State.reset, by decide +kernel⟩⟩

theorem witness_TimeAndBivouac_4 :
    (∃ s : State, ((Instr.bivEnter .basecamp 9).wf = true) ∧ (s.calm = true) ∧ (s.mayWrite .basecamp (pgBcp 5) .bcp = true) ∧ ((s.powered (pgBcp 5) = false ∨ (s.pageH (pgBcp 5)).resetting = true)))
    ∧ (∃ s : State, ((Instr.bivOff .basecamp 9).wf = true) ∧ (s.calm = true) ∧ (s.mayWrite .basecamp (pgBcp 5) .bcp = true) ∧ (s.powered (pgBcp 5) = true) ∧ ((s.pageH (pgBcp 5)).resetting = false) ∧ (∀ o ∈ List.range 64, s.isOff (pgSout o) = true) ∧ (s.updating = false) ∧ (s.pstate' = 0))
    ∧ (∃ s : State, ((Instr.bivOff .basecamp 9).wf = true) ∧ (s.calm = true) ∧ (s.mayWrite .basecamp (pgBcp 5) .bcp = true) ∧ (s.powered (pgBcp 5) = true) ∧ ((s.pageH (pgBcp 5)).resetting = false) ∧ (((List.range 64).all fun x => s.isOff (pgSout x)) = false))
    ∧ (∃ s : State, ((Instr.bivOff .basecamp 9).wf = true) ∧ (s.calm = true) ∧ (s.mayWrite .basecamp (pgBcp 5) .bcp = true) ∧ (s.powered (pgBcp 5) = true) ∧ ((s.pageH (pgBcp 5)).resetting = false) ∧ (∀ o ∈ List.range 64, s.isOff (pgSout o) = true) ∧ (s.updating = true))
    ∧ (∃ s : State, ((Instr.bivOff .basecamp 9).wf = true) ∧ (s.calm = true) ∧ (s.mayWrite .basecamp (pgBcp 5) .bcp = true) ∧ (s.powered (pgBcp 5) = true) ∧ ((s.pageH (pgBcp 5)).resetting = false) ∧ (∀ o ∈ List.range 64, s.isOff (pgSout o) = true) ∧ (s.updating = false) ∧ (s.pstate' ≠ 0))
    ∧ (∃ s : State, ((Instr.bivOff ((.tile 5 0) : Writer) 9).wf = true) ∧ (s.calm = true) ∧ (fromOuter ((.tile 5 0) : Writer) = true)) :=
    ⟨⟨(State.reset.setPageH (pgBcp 5) { State.reset.pageH (pgBcp 5) with resetting := true }), by decide +kernel⟩,
    ⟨State.reset, by decide +kernel⟩,
    ⟨(State.reset.setB (pgSout 63) oStatus 0), by decide +kernel⟩,
    ⟨({ keyed with bcp := { keyed.bcp with upd := some ⟨1, 1, 0, 5, 0, 1, 0, 128, []⟩ } } : State), by decide +kernel⟩,
    ⟨({ State.reset with bcp := { State.reset.bcp with pst := 2 } } : State), by decide +kernel⟩,
    ⟨State.reset, by decide +kernel⟩⟩

theorem witness_TimeAndBivouac_5 :
    (∃ s : State, ((Instr.bivOff .basecamp 9).wf = true) ∧ (s.calm = true) ∧ (s.mayWrite .basecamp (pgBcp 5) .bcp = true) ∧ ((s.powered (pgBcp 5) = false ∨ (s.pageH (pgBcp 5)).resetting = true)))
    ∧ (∃ s : State, ((Instr.bivWake .basecamp 9).wf = true) ∧ (s.calm = true) ∧ (s.mayWrite .basecamp (pgBcp 5) .bcp = true) ∧ (s.powered (pgBcp 5) = true) ∧ ((s.pageH (pgBcp 5)).resetting = false) ∧ (s.pstate' = 1))
    ∧ (∃ s : State, ((Instr.bivWake .basecamp 9).wf = true) ∧ (s.calm = true) ∧ (s.mayWrite .basecamp (pgBcp 5) .bcp = true) ∧ (s.powered (pgBcp 5) = true) ∧ ((s.pageH (pgBcp 5)).resetting = false) ∧ (s.pstate' = 2) ∧ (s.bcp.hot = false))
    ∧ (∃ s : State, ((Instr.bivWake .basecamp 9).wf = true) ∧ (s.calm = true) ∧ (s.mayWrite .basecamp (pgBcp 5) .bcp = true) ∧ (s.powered (pgBcp 5) = true) ∧ ((s.pageH (pgBcp 5)).resetting = false) ∧ (s.pstate' = 2) ∧ (s.bcp.hot = true))
    ∧ (∃ s : State, ((Instr.bivWake .basecamp 9).wf = true) ∧ (s.calm = true) ∧ (s.mayWrite .basecamp (pgBcp 5) .bcp = true) ∧ (s.powered (pgBcp 5) = true) ∧ ((s.pageH (pgBcp 5)).resetting = false) ∧ (s.pstate' = 4) ∧ (¬(s.bcp.hot = true ∧ ((List.range 40).any fun x => decide (toS 16 (s.fld (pgPwr 3) 0x040 31 16) ≤ toS 16 (s.fld (pgPwr 3) (0x100 + 4 * x) 15 0))) = true)))
    ∧ (∃ s : State, ((Instr.bivWake .basecamp 9).wf = true) ∧ (s.calm = true) ∧ (s.mayWrite .basecamp (pgBcp 5) .bcp = true) ∧ (s.powered (pgBcp 5) = true) ∧ ((s.pageH (pgBcp 5)).resetting = false) ∧ (s.pstate' = 4) ∧ ((s.bcp.hot = true ∧ ((List.range 40).any fun x => decide (toS 16 (s.fld (pgPwr 3) 0x040 31 16) ≤ toS 16 (s.fld (pgPwr 3) (0x100 + 4 * x) 15 0))) = true))) :=
    ⟨⟨(State.reset.setPageH (pgBcp 5) { State.reset.pageH (pgBcp 5) with resetting := true }), by decide +kernel⟩,
    ⟨({ State.reset with bcp := { State.reset.bcp with pst := 1 } } : State), by decide +kernel⟩,
    ⟨({ State.reset with bcp := { State.reset.bcp with pst := 2 } } : State), by decide +kernel⟩,
    ⟨({ State.reset with bcp := { State.reset.bcp with pst := 2, hot := true } } : State), by decide +kernel⟩,
    ⟨({ State.reset with bcp := { State.reset.bcp with pst := 4 } } : State), by decide +kernel⟩,
    ⟨(({ State.reset with bcp := { State.reset.bcp with pst := 4, hot := true } } : State).setFld (pgPwr 3) 0x100 15 0 1200), by decide +kernel⟩⟩

theorem witness_TimeAndBivouac_6 :
    (∃ s : State, ((Instr.bivWake .basecamp 9).wf = true) ∧ (s.calm = true) ∧ (s.mayWrite .basecamp (pgBcp 5) .bcp = true) ∧ (s.powered (pgBcp 5) = true) ∧ ((s.pageH (pgBcp 5)).resetting = false) ∧ (s.pstate' = 0 ∨ s.pstate' = 3))
    ∧ (∃ s : State, ((Instr.bivWake ((.tile 5 0) : Writer) 9).wf = true) ∧ (s.calm = true) ∧ (fromOuter ((.tile 5 0) : Writer) = true))
    ∧ (∃ s : State, ((Instr.bivWake .basecamp 9).wf = true) ∧ (s.calm = true) ∧ (s.mayWrite .basecamp (pgBcp 5) .bcp = true) ∧ ((s.powered (pgBcp 5) = false ∨ (s.pageH (pgBcp 5)).resetting = true)))
    ∧ (∃ s : State, ((Instr.bapWake ({ key := 1, tag := 7, seq := 3, mac := 228364533403271615453760325388014633167 } : Bap) 9).wf = true) ∧ (s.calm = true) ∧ (((s.upTo 9).bapAccept ({ key := 1, tag := 7, seq := 3, mac := 228364533403271615453760325388014633167 } : Bap) 9).1 = true) ∧ (2 ≤ (s.bcp.keys.getD ({ key := 1, tag := 7, seq := 3, mac := 228364533403271615453760325388014633167 } : Bap).key {}).right) ∧ (s.pstate' = 1))
    ∧ (∃ s : State, ((Instr.bapWake ({ key := 1, tag := 7, seq := 3, mac := 228364533403271615453760325388014633167 } : Bap) 9).wf = true) ∧ (s.calm = true) ∧ (((s.upTo 9).bapAccept ({ key := 1, tag := 7, seq := 3, mac := 228364533403271615453760325388014633167 } : Bap) 9).1 = true) ∧ (2 ≤ (s.bcp.keys.getD ({ key := 1, tag := 7, seq := 3, mac := 228364533403271615453760325388014633167 } : Bap).key {}).right) ∧ (s.pstate' = 2) ∧ (s.bcp.hot = false))
    ∧ (∃ s : State, ((Instr.bapWake ({ key := 1, tag := 7, seq := 3, mac := 228364533403271615453760325388014633167 } : Bap) 9).wf = true) ∧ (s.calm = true) ∧ (((s.upTo 9).bapAccept ({ key := 1, tag := 7, seq := 3, mac := 228364533403271615453760325388014633167 } : Bap) 9).1 = true) ∧ (2 ≤ (s.bcp.keys.getD ({ key := 1, tag := 7, seq := 3, mac := 228364533403271615453760325388014633167 } : Bap).key {}).right) ∧ (s.pstate' = 2) ∧ (s.bcp.hot = true)) :=
    ⟨⟨({ State.reset with bcp := { State.reset.bcp with pst := 3 } } : State), by decide +kernel⟩,
    ⟨State.reset, by decide +kernel⟩,
    ⟨(State.reset.setPageH (pgBcp 5) { State.reset.pageH (pgBcp 5) with resetting := true }), by decide +kernel⟩,
    ⟨({ keyed with bcp := { keyed.bcp with pst := 1 } } : State), by decide +kernel⟩,
    ⟨({ keyed with bcp := { keyed.bcp with pst := 2 } } : State), by decide +kernel⟩,
    ⟨({ keyed with bcp := { keyed.bcp with pst := 2, hot := true } } : State), by decide +kernel⟩⟩

theorem witness_TimeAndBivouac_7 :
    (∃ s : State, ((Instr.bapWake ({ key := 1, tag := 7, seq := 3, mac := 228364533403271615453760325388014633167 } : Bap) 9).wf = true) ∧ (s.calm = true) ∧ (((s.upTo 9).bapAccept ({ key := 1, tag := 7, seq := 3, mac := 228364533403271615453760325388014633167 } : Bap) 9).1 = true) ∧ (2 ≤ (s.bcp.keys.getD ({ key := 1, tag := 7, seq := 3, mac := 228364533403271615453760325388014633167 } : Bap).key {}).right) ∧ (s.pstate' = 4) ∧ (¬(s.bcp.hot = true ∧ ((List.range 40).any fun x => decide (toS 16 (s.fld (pgPwr 3) 0x040 31 16) ≤ toS 16 (s.fld (pgPwr 3) (0x100 + 4 * x) 15 0))) = true)))
    ∧ (∃ s : State, ((Instr.bapWake ({ key := 1, tag := 7, seq := 3, mac := 228364533403271615453760325388014633167 } : Bap) 9).wf = true) ∧ (s.calm = true) ∧ (((s.upTo 9).bapAccept ({ key := 1, tag := 7, seq := 3, mac := 228364533403271615453760325388014633167 } : Bap) 9).1 = true) ∧ (2 ≤ (s.bcp.keys.getD ({ key := 1, tag := 7, seq := 3, mac := 228364533403271615453760325388014633167 } : Bap).key {}).right) ∧ (s.pstate' = 4) ∧ ((s.bcp.hot = true ∧ ((List.range 40).any fun x => decide (toS 16 (s.fld (pgPwr 3) 0x040 31 16) ≤ toS 16 (s.fld (pgPwr 3) (0x100 + 4 * x) 15 0))) = true)))
    ∧ (∃ s : State, ((Instr.bapWake ({ key := 1, tag := 7, seq := 3, mac := 228364533403271615453760325388014633167 } : Bap) 9).wf = true) ∧ (s.calm = true) ∧ (((s.upTo 9).bapAccept ({ key := 1, tag := 7, seq := 3, mac := 228364533403271615453760325388014633167 } : Bap) 9).1 = true) ∧ (2 ≤ (s.bcp.keys.getD ({ key := 1, tag := 7, seq := 3, mac := 228364533403271615453760325388014633167 } : Bap).key {}).right) ∧ (s.pstate' = 0 ∨ s.pstate' = 3))
    ∧ (∃ s : State, ((Instr.bapWake ({ key := 2, tag := 7, seq := 3, mac := 279411317643495037728602948833980810573 } : Bap) 9).wf = true) ∧ (s.calm = true) ∧ (((s.upTo 9).bapAccept ({ key := 2, tag := 7, seq := 3, mac := 279411317643495037728602948833980810573 } : Bap) 9).1 = true) ∧ ((s.bcp.keys.getD ({ key := 2, tag := 7, seq := 3, mac := 279411317643495037728602948833980810573 } : Bap).key {}).right < 2))
    ∧ (∃ s : State, ((Instr.bapWake ({ ver := 0x20 } : Bap) 9).wf = true) ∧ (s.calm = true) ∧ ((s.upTo 9).bapHeard ({ ver := 0x20 } : Bap) 9 = false))
    ∧ (∃ s : State, ((Instr.bapWake ({ key := 1, seq := 3, mac := 1 } : Bap) 9).wf = true) ∧ (s.calm = true) ∧ ((s.upTo 9).bapHeard ({ key := 1, seq := 3, mac := 1 } : Bap) 9 = true) ∧ (((s.upTo 9).bapAccept ({ key := 1, seq := 3, mac := 1 } : Bap) 9).1 = false) ∧ (((s.upTo 9).bapDrops ({ key := 1, seq := 3, mac := 1 } : Bap).ip).length < 15)) :=
    ⟨⟨({ keyed with bcp := { keyed.bcp with pst := 4 } } : State), by decide +kernel⟩,
    ⟨(({ keyed with bcp := { keyed.bcp with pst := 4, hot := true } } : State).setFld (pgPwr 3) 0x100 15 0 1200), by decide +kernel⟩,
    ⟨keyed, by decide +kernel⟩,
    ⟨({ State.reset with bcp := { State.reset.bcp with booted := true, keys := { right := 4, upd := true } :: {} :: { key := some 5, right := 1 } :: List.replicate 5 {} } } : State), by decide +kernel⟩,
    ⟨keyed, by decide +kernel⟩,
    ⟨keyed, by decide +kernel⟩⟩

theorem witness_TimeAndBivouac_8 :
    (∃ s : State, ((Instr.bapWake ({ ip := 6, key := 1, seq := 3, mac := 1 } : Bap) 9).wf = true) ∧ (s.calm = true) ∧ ((s.upTo 9).bapHeard ({ ip := 6, key := 1, seq := 3, mac := 1 } : Bap) 9 = true) ∧ (((s.upTo 9).bapAccept ({ ip := 6, key := 1, seq := 3, mac := 1 } : Bap) 9).1 = false) ∧ (15 ≤ ((s.upTo 9).bapDrops ({ ip := 6, key := 1, seq := 3, mac := 1 } : Bap).ip).length))
    ∧ (∃ s : State, ((Instr.entrySequenceComplete 9).wf = true) ∧ (s.calm = true) ∧ (s.pstate' = 1) ∧ (s.bcp.wakeHeld = none) ∧ (s.bcp.toOff = false))
    ∧ (∃ s : State, ((Instr.entrySequenceComplete 9).wf = true) ∧ (s.calm = true) ∧ (s.pstate' = 1) ∧ (s.bcp.wakeHeld = none) ∧ (s.bcp.toOff = true))
    ∧ (∃ s : State, ((Instr.entrySequenceComplete 9).wf = true) ∧ (s.calm = true) ∧ (s.pstate' = 1) ∧ (s.bcp.wakeHeld = some 2) ∧ (2 < 16))
    ∧ (∃ s : State, ((Instr.entrySequenceComplete 9).wf = true) ∧ (s.calm = true) ∧ (s.pstate' ≠ 1))
    ∧ (∃ s : State, ((Instr.exitSequenceComplete 9).wf = true) ∧ (s.calm = true) ∧ (s.pstate' = 3)) :=
    ⟨⟨({ keyed with bcp := { keyed.bcp with srcs := [⟨6, List.replicate 15 4, none⟩] } } : State), by decide +kernel⟩,
    ⟨({ State.reset with bcp := { State.reset.bcp with pst := 1 } } : State), by decide +kernel⟩,
    ⟨({ State.reset with bcp := { State.reset.bcp with pst := 1, toOff := true } } : State), by decide +kernel⟩,
    ⟨({ State.reset with bcp := { State.reset.bcp with pst := 1, wakeHeld := some 2 } } : State), by decide +kernel⟩,
    ⟨State.reset, by decide +kernel⟩,
    ⟨({ State.reset with bcp := { State.reset.bcp with pst := 3 } } : State), by decide +kernel⟩⟩

theorem witness_TimeAndBivouac_9 :
    (∃ s : State, ((Instr.exitSequenceComplete 9).wf = true) ∧ (s.calm = true) ∧ (s.pstate' ≠ 3)) :=
    ⟨State.reset, by decide +kernel⟩

theorem witness_Power_1 :
    (∃ s : State, ((Instr.spwrLow 1799 9).wf = true) ∧ (s.calm = true) ∧ (1799 < 1800 ∨ 3300 < 1799) ∧ (511 < 512))
    ∧ (∃ s : State, ((Instr.spwrLow 1800 9).wf = true) ∧ (s.calm = true) ∧ (1800 ≤ 1800) ∧ (1800 ≤ 3300))
    ∧ (∃ s : State, ((Instr.spwrRecovery 1850 9).wf = true) ∧ (s.calm = true) ∧ (1850 ≤ 1850) ∧ (1850 ≤ 3300) ∧ (511 < 512))
    ∧ (∃ s : State, ((Instr.spwrRecovery 1849 9).wf = true) ∧ (s.calm = true) ∧ (1849 < 1850 ∨ 3300 < 1849))
    ∧ (∃ s : State, ((Instr.spwrLimit 9).wf = true) ∧ (s.calm = true))
    ∧ (∃ s : State, ((Instr.temperatureWarn 39 (1000 : Int) 9).wf = true) ∧ (s.calm = true) ∧ (toS 16 (s.fld (pgPwr 3) 0x040 31 16) ≤ (1000 : Int))) :=
    ⟨⟨(((State.reset.setFld (pgSpt 511) 0x06C 27 24 1).wr (pgSpt 511) 0x044 0x8000).wr (pgSpt 511) 0x048 1), by decide +kernel⟩,
    ⟨State.reset, by decide +kernel⟩,
    ⟨(((({ State.reset with spwrLow := true } : State).wr (pgSpt 511) 0x048 16).wr (pgSpt 511) 0x044 0x8000).setFld (pgSpt 511) 0x06C 27 24 1), by decide +kernel⟩,
    ⟨State.reset, by decide +kernel⟩,
    ⟨State.reset, by decide +kernel⟩,
    ⟨State.reset, by decide +kernel⟩⟩

theorem witness_Power_2 :
    (∃ s : State, ((Instr.temperatureWarn 39 (999 : Int) 9).wf = true) ∧ (s.calm = true) ∧ ((999 : Int) < toS 16 (s.fld (pgPwr 3) 0x040 31 16)))
    ∧ (∃ s : State, ((Instr.temperatureCrit 39 (1140 : Int) 9).wf = true) ∧ (s.calm = true) ∧ (toS 16 (s.fld (pgPwr 3) 0x040 15 0) ≤ (1140 : Int)))
    ∧ (∃ s : State, ((Instr.temperatureCrit 39 (1139 : Int) 9).wf = true) ∧ (s.calm = true) ∧ ((1139 : Int) < toS 16 (s.fld (pgPwr 3) 0x040 15 0)))
    ∧ (∃ s : State, ((Instr.feedLoss 1 899 9).wf = true) ∧ (s.calm = true) ∧ (899 < 900 ∨ 6000 < 899))
    ∧ (∃ s : State, ((Instr.feedLoss 1 900 9).wf = true) ∧ (s.calm = true) ∧ (900 ≤ 900) ∧ (900 ≤ 6000))
    ∧ (∃ s : State, ((Instr.busLow 879 7600 9).wf = true) ∧ (s.calm = true) ∧ (879 < 880)) :=
    ⟨⟨State.reset, by decide +kernel⟩,
    ⟨State.reset, by decide +kernel⟩,
    ⟨State.reset, by decide +kernel⟩,
    ⟨State.reset, by decide +kernel⟩,
    ⟨State.reset, by decide +kernel⟩,
    ⟨State.reset, by decide +kernel⟩⟩

theorem witness_Power_3 :
    (∃ s : State, ((Instr.busLow 880 7600 9).wf = true) ∧ (s.calm = true) ∧ (880 ≤ 880))
    ∧ (∃ s : State, ((Instr.holdUpReady 7600 9).wf = true) ∧ (s.calm = true) ∧ (7600 ≤ 7600))
    ∧ (∃ s : State, ((Instr.holdUpReady 7599 9).wf = true) ∧ (s.calm = true) ∧ (7599 < 7600))
    ∧ (∃ s : State, ((Instr.powerFail 849 3 5000 9).wf = true) ∧ (s.calm = true) ∧ (849 < 850) ∧ (3 < 850) ∧ (s.getB (pgPwr 0) 0x050 29 = false))
    ∧ (∃ s : State, ((Instr.powerFail 3 850 5000 9).wf = true) ∧ (s.calm = true) ∧ ((850 ≤ 3 ∨ 850 ≤ 850 ∨ s.getB (pgPwr 0) 0x050 29 = true)))
    ∧ (∃ s : State, ((Instr.pfailEnd 900 3 5000 9).wf = true) ∧ (s.calm = true) ∧ (s.getB (pgPwr 0) 0x050 29 = true) ∧ (900 ≤ 900 ∨ 900 ≤ 3)) :=
    ⟨⟨State.reset, by decide +kernel⟩,
    ⟨State.reset, by decide +kernel⟩,
    ⟨State.reset, by decide +kernel⟩,
    ⟨({ keyed with bcp := { keyed.bcp with upd := some ⟨1, 1, 0, 5, 0, 0, 2, 128, []⟩ } } : State), by decide +kernel⟩,
    ⟨State.reset, by decide +kernel⟩,
    ⟨(State.reset.setB (pgPwr 0) 0x050 29), by decide +kernel⟩⟩

theorem witness_Power_4 :
    (∃ s : State, ((Instr.pfailEnd 899 3 5000 9).wf = true) ∧ (s.calm = true) ∧ ((s.getB (pgPwr 0) 0x050 29 = false ∨ (899 < 900 ∧ 3 < 900))))
    ∧ (∃ s : State, ((Instr.storageExhausted 2500).wf = true) ∧ (s.calm = true) ∧ (2500 ≤ 2500))
    ∧ (∃ s : State, ((Instr.storageExhausted 2501).wf = true) ∧ (s.calm = true) ∧ (2500 < 2501))
    ∧ (∃ s : State, ((Instr.railFault 2 3 9).wf = true) ∧ (s.calm = true) ∧ (2 = 2) ∧ (railOut 2 3 = true))
    ∧ (∃ s : State, ((Instr.railFault 5 3 9).wf = true) ∧ (s.calm = true) ∧ (5 = 3 ∨ 5 = 5) ∧ (railOut 5 3 = true))
    ∧ (∃ s : State, ((Instr.railFault 6 3 9).wf = true) ∧ (s.calm = true) ∧ (6 = 4 ∨ 6 = 6) ∧ (railOut 6 3 = true)) :=
    ⟨⟨(State.reset.setB (pgPwr 0) 0x050 29), by decide +kernel⟩,
    ⟨(State.reset.setByte 5 6), by decide +kernel⟩,
    ⟨State.reset, by decide +kernel⟩,
    ⟨State.reset, by decide +kernel⟩,
    ⟨State.reset, by decide +kernel⟩,
    ⟨State.reset, by decide +kernel⟩⟩

theorem witness_Power_5 :
    (∃ s : State, ((Instr.railFault 8 3 9).wf = true) ∧ (s.calm = true) ∧ (8 = 7 ∨ 8 = 8) ∧ (railOut 8 3 = true))
    ∧ (∃ s : State, ((Instr.railFault 10 3 9).wf = true) ∧ (s.calm = true) ∧ (10 = 9 ∨ 10 = 10) ∧ (railOut 10 3 = true))
    ∧ (∃ s : State, ((Instr.railFault 14 3 9).wf = true) ∧ (s.calm = true) ∧ (11 ≤ 14) ∧ (14 ≤ 14) ∧ ((s.upTo 9).sliceOn pgEccD 0 = false) ∧ (railOut 14 3 = true))
    ∧ (∃ s : State, ((Instr.railFault 15 3 9).wf = true) ∧ (s.calm = true) ∧ (15 = 15) ∧ (railOut 15 3 = true))
    ∧ (∃ s : State, ((Instr.railFault 16 3 9).wf = true) ∧ (s.calm = true) ∧ (16 = 16) ∧ (railOut 16 3 = true))
    ∧ (∃ s : State, ((Instr.railFault 17 3 9).wf = true) ∧ (s.calm = true) ∧ (17 = 17) ∧ (s.updating = true) ∧ (railOut 17 3 = true)) :=
    ⟨⟨State.reset, by decide +kernel⟩,
    ⟨State.reset, by decide +kernel⟩,
    ⟨(State.reset.setByte 5 6), by decide +kernel⟩,
    ⟨State.reset, by decide +kernel⟩,
    ⟨(State.reset.setFld (pgBcp 2) 0x04C 31 30 2), by decide +kernel⟩,
    ⟨({ keyed with bcp := { keyed.bcp with upd := some ⟨1, 1, 0, 5, 0, 1, 0, 128, []⟩ } } : State), by decide +kernel⟩⟩

theorem witness_Power_6 :
    (∃ s : State, ((Instr.railFault 17 3 9).wf = true) ∧ (s.calm = true) ∧ (17 = 17) ∧ (s.updating = false) ∧ (railOut 17 3 = true))
    ∧ (∃ s : State, ((Instr.railFault 21 3 9).wf = true) ∧ (s.calm = true) ∧ (18 ≤ 21) ∧ (21 ≤ 21) ∧ (railOut 21 3 = true))
    ∧ (∃ s : State, ((Instr.railFault 22 3 9).wf = true) ∧ (s.calm = true) ∧ (22 = 22) ∧ (railOut 22 3 = true))
    ∧ (∃ s : State, ((Instr.railFault 23 3 9).wf = true) ∧ (s.calm = true) ∧ (23 = 23) ∧ (railOut 23 3 = true))
    ∧ (∃ s : State, ((Instr.railFault 24 3 9).wf = true) ∧ (s.calm = true) ∧ (24 = 24) ∧ (railOut 24 3 = true))
    ∧ (∃ s : State, ((Instr.railFault 26 3 9).wf = true) ∧ (s.calm = true) ∧ (25 ≤ 26) ∧ (26 ≤ 26) ∧ (railOut 26 3 = true)) :=
    ⟨⟨State.reset, by decide +kernel⟩,
    ⟨State.reset, by decide +kernel⟩,
    ⟨State.reset, by decide +kernel⟩,
    ⟨State.reset, by decide +kernel⟩,
    ⟨State.reset, by decide +kernel⟩,
    ⟨State.reset, by decide +kernel⟩⟩

theorem witness_Power_7 :
    (∃ s : State, ((Instr.railFault 26 12600 9).wf = true) ∧ (s.calm = true) ∧ (2 ≤ 26) ∧ (26 < 27) ∧ (railOut 26 12600 = false))
    ∧ (∃ s : State, ((Instr.railFault 27 3 9).wf = true) ∧ (s.calm = true) ∧ (27 < 2 ∨ 27 = 27))
    ∧ (∃ s : State, ((Instr.railFault 31 14999 9).wf = true) ∧ (s.calm = true) ∧ (28 ≤ 31) ∧ (31 < 32)) :=
    ⟨⟨State.reset, by decide +kernel⟩,
    ⟨State.reset, by decide +kernel⟩,
    ⟨State.reset, by decide +kernel⟩⟩

theorem witness_SramPoison :
    (∃ s : State, (0 < 5) ∧ ((tileBase 3 + 5 < 8 * (tileBase 3 / 8) + 8)) ∧ ((8 * (tileBase 3 / 8) < tileBase 3 + 5 + 5)) ∧ (((List.range 2).all fun x => match memLoc (8 * (tileBase 3 / 8 + x)) with | some l => l.sub != 2 && s.bankState l == 2 && !bit (s.flipRegs l.page).1 31 | none => false) = true)) :=
    ⟨(State.reset.setBank (pgEccT 3) 0 { inited := true }), by decide +kernel⟩

theorem witness_FloatNearest :
    (∃ _s : State, (fIsFinite (fOfRat ((1 : Rat) / 3)) = true) ∧ (0x3EAAAAAB < 2 ^ 32) ∧ (fIsFinite 0x3EAAAAAB = true) ∧ (fToRat 0x3EAAAAAB ≠ 0)) :=
    ⟨State.reset, by decide +kernel⟩

theorem witness_FloatOperations :
    (∃ _s : State, (0x3F800000 < 2 ^ 32) ∧ (fIsFinite 0x3F800000 = true) ∧ (fToRat 0x3F800000 + fToRat 0x40000000 ≠ 0) ∧ (fToRat 0x3F800000 - fToRat 0x40000000 ≠ 0) ∧ (fToRat 0x3F800000 * fToRat 0x40000000 + fToRat 0x3F800000 ≠ 0) ∧ (fIsFinite 0x40000000 = true) ∧ (fIsNaN 0x7FC00011 = true) ∧ (fIsNaN 0x3F800000 = false) ∧ (fToRat 0x3F800000 * fToRat 0x40000000 ≠ 0)) :=
    ⟨State.reset, by decide +kernel⟩

theorem witness_FrontCommand :
    (∃ s : State, (s.pending = []))
    ∧ (∃ s : State, (s.pending = .powerOnReset :: [])) :=
    ⟨⟨State.reset, by decide +kernel⟩,
    ⟨{ State.reset with pending := [.powerOnReset] }, by decide +kernel⟩⟩

theorem witness_WellFormedCompletes :
    (∃ _s : State, ((Instr.spwrLimit 3).wf = true) ∧ ((Instr.lockLoss 16 3).wf = false)) :=
    ⟨State.reset, by decide +kernel⟩

theorem witness_HeldStays :
    (∃ s : State, (s.bcp.held = true) ∧ (s.noReset = true) ∧ ((match step s with | .next _ => true | _ => false) = true)) :=
    ⟨({ State.reset with bcp := { State.reset.bcp with held := true }, pending := [.spwrLimit 3] } : State), by decide +kernel⟩

/-- Whether the check refuses a command, which then leaves everything as it is. -/
def refuses (c : Instr) : Bool := !c.wf && (match exec c State.reset with
  | .next u => decide (u = State.reset)
  | _ => false)

theorem illFormed_Pages : ([.pageReset .basecamp 65536 0, .pageReset (.tile 128 0) 0 0, .pageReset (.tile 0 3) 0 0, .resetComplete 0x942 0, .pageEnable .basecamp 65536 0, 
    .pageDisable .basecamp 65536 0, .pageLock .basecamp 65536 false 0, .startUpComplete 0x942 0, .faultDetected 0x942 0 0, .faultDetected 0 256 0, 
    .blockRecoveryComplete 0x942 0, .retirement 0x942 0 0, .retirement 0 256 0, .blockPowerChange 0x942 0 0, .blockPowerChange 0 3 0, 
    .registerWrite .basecamp 65536 0 0 0 false 0, .registerWrite .basecamp 0 4096 0 0 false 0, .readAndClear .basecamp 65536 0 0 0, 
    .readAndClear .basecamp 0 4096 0 0, .linkCheckFail 16 0 0, .linkCheckFail 0 2 0, .linkCheckPass 16 0 0, .linkCheckPass 0 2 0] : List Instr).all refuses = true := by decide +kernel

theorem illFormed_Tracks : ([.qualifiedEdge 64 0 false, .countTransfer 64 0, .gapExceeded 64 0, .coastLimit 64 0, .stopTime 64 0, .tachoScan 64 0 [], .tachoLock 64 0 ⟨0, []⟩, 
    .lineLoss 64 ⟨0, 0, 0, 0⟩, .wptArm .basecamp 16 0 0 0, .wptArm .basecamp 0 128 0 0, .wptArm (.tile 128 0) 0 0 0 0, .wptArm (.tile 0 3) 0 0 0 0, 
    .waypointFire 16 0 0, .waypointFire 0 128 0, .deadlineFire 16 0 0, .deadlineFire 0 128 0] : List Instr).all refuses = true := by decide +kernel

theorem illFormed_Ports : ([.powerApplied 512 0 0 0 false 0, .powerRefused 512 0, .powerRetry 512 0, .overload 512 0, .linkUp 512 0 0 0, .linkDown 512 0, .trainingTimeout 512 0, 
    .attachTimeout 512 0, .configuringTimeout 512 0, .nodeSilent 512 0, .syncInstant 512 0, 
    .sample 512 0 { flags := 0, seq := 0, arg := 0, body := [], crc := 0 }, .gap 512 0 { flags := 0, seq := 0, arg := 0, body := [], crc := 0 }, 
    .syncReply 512 0 { flags := 0, seq := 0, arg := 0, body := [], crc := 0 }, .ospStatus 512 0 { flags := 0, seq := 0, arg := 0, body := [], crc := 0 }, 
    .ident 512 0 { flags := 0, seq := 0, arg := 0, body := [], crc := 0 }, .cal 512 0 { flags := 0, seq := 0, arg := 0, body := [], crc := 0 }, 
    .selftest 512 0 { flags := 0, seq := 0, arg := 0, body := [], crc := 0 }, .frameEnd 512 0 ⟨0, false, [], true⟩, .sptChCfg .basecamp 512 0 0 0, 
    .sptChCfg .basecamp 0 4 0 0, .sptChCfg (.tile 128 0) 0 0 0 0, .sptChCfg (.tile 0 3) 0 0 0 0, .queryIdent .basecamp 512 0, .queryCal .basecamp 512 0, 
    .queryStatus .basecamp 512 0, .sptReqTest .basecamp 512 1 0, .sptReqTest .basecamp 0 0 0, .sptReqTest .basecamp 0 256 0, 
    .sync 512 0 0 { flags := 0, seq := 0, arg := 0, body := [], crc := 0 }, .config 512 0 { flags := 0, seq := 0, arg := 0, body := [], crc := 0 }, 
    .query 512 0 { flags := 0, seq := 0, arg := 0, body := [], crc := 0 }, .test 512 0 { flags := 0, seq := 0, arg := 0, body := [], crc := 0 }, 
    .nodeEmission 512 0 0, .nodeEmission 0 4 0, .nodeRoleStatus 512 0] : List Instr).all refuses = true := by decide +kernel

theorem illFormed_Streams : ([.commit .basecamp 4096 0 0, .commit (.tile 128 0) 0 0 0, .commit (.tile 0 3) 0 0 0, .streamHandover 4096 0, .streamCell 4096 ⟨0, []⟩, 
    .captureOpen .basecamp 4096 0, .captureClose .basecamp 4096 0] : List Instr).all refuses = true := by decide +kernel

theorem illFormed_Ars : ([.viewOn .basecamp 16 0 0, .viewOn .basecamp 0 512 0, .viewOn (.tile 128 0) 0 0 0, .viewOn (.tile 0 3) 0 0 0, .viewOff .basecamp 16 0 0, 
    .viewOff .basecamp 0 512 0, .inOn .basecamp 16 0 0, .inOn .basecamp 0 512 0, .inOff .basecamp 16 0 0, .inOff .basecamp 0 512 0, .arsCommandComplete 16, 
    .inputCell 16 0 0, .inputCell 0 256 0, .outputSample 16 0 0 {}, .outputSample 0 512 0 {}] : List Instr).all refuses = true := by decide +kernel

theorem illFormed_Tfe : ([.tfeSubmit .basecamp 16 0 0, .tfeSubmit .basecamp 0 131072 0, .tfeSubmit (.tile 128 0) 0 0 0, .tfeSubmit (.tile 0 3) 0 0 0, .jobStart 16 0, 
    .stagesPass 16 0, .stageFails 16 0 0] : List Instr).all refuses = true := by decide +kernel

theorem illFormed_Frd : ([.slotOn .basecamp 16 0 0, .slotOn .basecamp 0 4096 0, .slotOn (.tile 128 0) 0 0 0, .slotOn (.tile 0 3) 0 0 0, .slotOff .basecamp 16 0 0, 
    .slotOff .basecamp 0 4096 0, .blClear .basecamp 16 0 0, .blClear .basecamp 0 4096 0, .frdTrigger .basecamp 16 0 0 0, .frdTrigger .basecamp 0 256 0 0, 
    .frdTrigger .basecamp 0 0 131072 0, .triggerService 16 0 []] : List Instr).all refuses = true := by decide +kernel

theorem illFormed_Sout : ([.voteWord .basecamp 64 0 0 false 0, .voteWord .basecamp 0 3 0 false 0, .voteWord (.tile 128 0) 0 0 0 false 0, .voteWord (.tile 0 3) 0 0 0 false 0, 
    .tripDelay 64 0 0, .tripDelay 0 2 0, .releaseDelay 64 0 0, .releaseDelay 0 2 0, .memberNotFresh 64 0 0, .memberNotFresh 0 3 0, .multiplierTimeout 64 0, 
    .readbackMismatch 64 0 0, .readbackMismatch 0 2 0, .openload 64 0, .pulseTest 64 0 0, .pulseTest 0 2 0, .pulseTestEnd 64 0 false 0, 
    .pulseTestEnd 0 2 false 0, .diverge 64 0, .peer 2 0, .driveBlockFault 2 0, .resetTrip .basecamp 64 0, .clearFault .basecamp 64 0, 
    .ptNow .basecamp 64 0, .soutByp .basecamp 64 0 0, .soutByp .basecamp 0 8 0, .soutFoReset .basecamp 2 0 0, .soutFoReset .basecamp 0 65536 0, 
    .switchCurrentLimit 64 0 0, .switchCurrentLimit 0 2 0] : List Instr).all refuses = true := by decide +kernel

theorem illFormed_Tiles : ([.cairnDue 128 0, .cairnCommit 128 0 0 0, .mismatch 128 (.delay true) 0 0, .restoreComplete 128 0, .takeOver 128 0, .rotate .basecamp 128 0 0, 
    .rotate .basecamp 0 128 0, .rotate (.tile 128 0) 0 0 0, .rotate (.tile 0 3) 0 0 0, .update .basecamp 128 0 0, .update .basecamp 0 128 0, 
    .spareRefused 128 0, .modeHandOver .basecamp 128 0 0, .drainComplete 128 0, .halt .basecamp 128 0 0, .halt .basecamp 0 4 0, .resume .basecamp 128 0 0, 
    .resume .basecamp 0 4 0, .step .basecamp 128 0 0 0, .step .basecamp 0 4 0 0, .step .basecamp 0 0 16777216 0, .debugRead .basecamp 128 0 0 0 0, 
    .debugRead .basecamp 0 4 0 0 0, .debugRead .basecamp 0 0 4 0 0, .debugRead .basecamp 0 0 0 16777216 0, .debugWrite .basecamp 128 0 0 0 0, 
    .debugWrite .basecamp 0 4 0 0 0, .debugWrite .basecamp 0 0 4 0 0, .debugWrite .basecamp 0 0 0 16777216 0, .tileMboxIn .basecamp 128 0 false 0, 
    .tileMboxOut .basecamp 128 0, .tileRq1 .basecamp 128 0, .tileTag .basecamp 128 0 false 0, .tileTag .basecamp 0 32768 false 0, .exceptionEntry 128 0, 
    .exceptionEntry 0 3, .extReadReply 128 0 0 0, .extReadReply 0 3 0 0, .waitwRelease 128 0, .waitwRelease 0 3] : List Instr).all refuses = true := by decide +kernel

theorem illFormed_Stack : ([.nop { issue with tile := 128 }, .nop { issue with copy := 3 }, .pick issue 16, .dropn issue 16, .loc issue 32, .setl issue 32, .lit issue 16] : List Instr).all refuses = true := by decide +kernel

theorem illFormed_Int : ([.add { issue with tile := 128 }, .add { issue with copy := 3 }] : List Instr).all refuses = true := by decide +kernel

theorem illFormed_Pred : ([.cmp { issue with tile := 128 } 0 0, .cmp { issue with copy := 3 } 0 0, .cmp issue 8 0, .cmp issue 0 8, .cmpz issue 8 0, .cmpz issue 0 8, 
    .plog issue 4 0 0, .plog issue 0 8 0, .plog issue 0 0 8, .pset issue 8, .pclr issue 8, .pnot issue 8, .pushp issue 8, .popp issue 8, .sel issue 8, 
    .angcmp issue 8] : List Instr).all refuses = true := by decide +kernel

theorem illFormed_Mul : ([.mul { issue with tile := 128 }, .mul { issue with copy := 3 }, .fcmp issue 8 0, .fcmp issue 0 8] : List Instr).all refuses = true := by decide +kernel

theorem illFormed_Mem : ([.ldb { issue with tile := 128 } 0, .ldb { issue with copy := 3 } 0, .ldb issue 16, .ldbu issue 16, .ldh issue 16, .ldhu issue 16, .ldw issue 16, 
    .ldd issue 16, .stb issue 16, .sth issue 16, .stw issue 16, .std issue 16, .ldt issue 16 0, .ldt issue 0 16, .stt issue 16 0, .stt issue 0 16, 
    .cmov issue 16 0, .cmov issue 0 16, .crange issue 16 0, .crange issue 0 16, .cperm issue 16 0, .cperm issue 0 16, .ctie issue 16 0, .ctie issue 0 16, 
    .cuntie issue 16 0, .cuntie issue 0 16, .cread issue 8 0, .cread issue 0 16, .cvoid issue 16, .mbxr issue 8, .send issue 16 0, .send issue 0 16, 
    .tfesub issue 16] : List Instr).all refuses = true := by decide +kernel

theorem illFormed_Flow : ([.br { issue with tile := 128 } 0, .br { issue with copy := 3 } 0, .br issue 16, .loop issue 16 0, .loop issue 0 9, .brc issue 16, .call issue 64 0, 
    .call issue 0 16, .calli issue 64, .ret issue 64, .trap issue 256] : List Instr).all refuses = true := by decide +kernel

theorem illFormed_Memory : ([.scrubLine (pgEccC 0) 16 0, .eccPwr .basecamp 0x100 0 0, .eccPwr (.tile 128 0) (pgEccC 0) 0 0, .eccPwr (.tile 0 3) (pgEccC 0) 0 0, 
    .bankWakeComplete (pgEccC 0) 16 0, .eccFlipCfg .basecamp 0x100 0 0] : List Instr).all refuses = true := by decide +kernel

theorem illFormed_Wdg : ([.wdgSvc .basecamp 0x100 0 0, .wdgSvc .basecamp (pgWdgT 0) 65536 0, .wdgSvc (.tile 128 0) (pgWdgT 0) 0 0, .wdgSvc (.tile 0 3) (pgWdgT 0) 0 0, 
    .wdgCheckin .basecamp 0x100 0 0, .wdgCheckin .basecamp (pgWdgT 0) 16 0, .remainingExpiry 0x100 0, .wakePoint 0x100 0, .oscillatorFault 17 0, 
    .counterOverflow 128 0 0, .counterOverflow 0 6 0] : List Instr).all refuses = true := by decide +kernel

theorem illFormed_Bist : ([.sliceDue 256 0 0 0, .sliceDue 0 65536 0 0, .sliceEnd 256 0 0 0 0 0 0, .sliceEnd 0 65536 0 0 0 0 0, .retest 256 0 0 0 0 0 0, .retest 0 65536 0 0 0 0 0, 
    .bistReq .basecamp 0x100 0 0 0, .bistReq .basecamp (pgBistC 0) 256 0 0, .bistReq .basecamp (pgBistC 0) 0 128 0, 
    .bistReq (.tile 128 0) (pgBistC 0) 0 0 0, .bistReq (.tile 0 3) (pgBistC 0) 0 0 0, .requestedPassComplete 256 0 0 0 0 0 0 0, 
    .requestedPassComplete 0 65536 0 0 0 0 0 0, .bistFuse .basecamp 1024 0] : List Instr).all refuses = true := by decide +kernel

theorem illFormed_Xng : ([.wordAccept 7 0 false {} 0 0, .wordAccept 0 32 false {} 0 0, .wordAccept 0 0 false ⟨[(256, 0)], [], 0⟩ 0 0, .acknowledge 7 0 false 0, 
    .acknowledge 0 32 false 0, .crossingHold 7 0 0, .crossingHold 0 32 0, .clockReturn 7 0 0 0, .clockReturn 0 32 0 0, .sideReset 7 0 false 0, 
    .sideReset 0 32 false 0, .farSidePower 7 0 false 0, .farSidePower 0 32 false 0, .handshakeComplete 7 0 0 0, .handshakeComplete 0 32 0 0] : List Instr).all refuses = true := by decide +kernel

theorem illFormed_Rope : ([.blockLock 16 false 0, .lockLoss 16 0, .helloTimeout 16 0, .helloSend 16 0, .hello { port := 16 } 0 0 0 false 0, .elect { port := 16 } 0 0 0 0, 
    .electionSettles 6 0, .links { port := 16 } ⟨0, 0, 0, []⟩ 0, .label { port := 16 } 0 0 [] (0, 0, 0) 0, .routeComputation 6 0, 
    .route { port := 16 } 0 [] 0, .labelHoldExpiry 6 0 0, .labelHoldExpiry 0 256 0, .connect { port := 16 } 0 false 0, .connectResend 4096 0, 
    .cell { port := 16 } [] 0, .normalFlush 4096 0, .credit { port := 16 } 0 0, .creditSend 4096 0, .ropeStatus { port := 16 } 0 {} 0, 
    .time { port := 16 } false 0 0 0, .sfpInsertion 16 false false false 0, .accReq { port := 16 } false 1 0 0 false 0, 
    .accReq { port := 0 } false 0 0 0 false 0, .accReq { port := 0 } false 5 0 0 false 0, .accRep { port := 16 } 0 false 0, .refuse { port := 16 } 0 0 0, 
    .read32 .basecamp 4 0 0, .read32 .basecamp 0 (2 ^ 40) 0, .read32 (.tile 128 0) 0 0 0, .read32 (.tile 0 3) 0 0 0, .read64 .basecamp 4 0 0, 
    .read64 .basecamp 0 (2 ^ 40) 0, .write32 .basecamp 4 0 0, .write32 .basecamp 0 (2 ^ 40) 0, .write64 .basecamp 4 0 0, .write64 .basecamp 0 (2 ^ 40) 0, 
    .accessTimeout 4 0] : List Instr).all refuses = true := by decide +kernel

theorem illFormed_Bcp : ([.basecampReset 16 0, .restart (.tile 128 0) 0, .restart (.tile 0 3) 0, .nonce {} 256 0, .tileUpdate .basecamp 256 0 0, .tileUpdate .basecamp 0 128 0, 
    .bcpKeyData .basecamp 8 0 0, .bcpKeyData .basecamp 0 (2 ^ 32) 0] : List Instr).all refuses = true := by decide +kernel

theorem illFormed_Power : ([.temperatureWarn 40 0 0, .temperatureCrit 40 0 0, .feedLoss 2 0 0, .railFault 32 0 0] : List Instr).all refuses = true := by decide +kernel

/-! The worked examples of the spec, one step each. -/

/-- The next state of a command, or reset where it stops. -/
def got (o : Host.Outcome State Fault Refusal) : State := match o with
  | .next u => u
  | _ => State.reset

def after (c : Instr) (s : State) : State := got (exec c s)

/-- Tile 2 of the spec's call example, in FORERUNNER: BASE 200, DEPTH 12, RSP 0x12_0006_FF80 (spec/11, spec/14). -/
def caller (pc : Nat) : KCopy :=
  { run := true, pc := pc, base := 200, depth := 12, rsp := 0x120006FF80, status := 2, preds := 3,
    caps := setAt (setAt (List.replicate 16 {}) 0 ⟨ownBase + 0x40000 * 2 ^ 40 + 5 * 2 ^ 80, true⟩) 1 ⟨ownBase + 0x60000 + 0x10000 * 2 ^ 40 + 0x1FF * 2 ^ 80, true⟩ }

def tile2 (k : KCopy) : State := (State.reset.wr (pgTile 2) 8 1).setTile 2 { mode := 3, work := true, copies := [k, {}, {}] }

def copyA (s : State) : KCopy := (s.tileH 2).copies.getD 0 {}

/-- spec/00 R6, the TPOS example: 2.25 and −0.25 turns. -/
theorem test_tpos : tposOf (9 / 4) = 0x240000000 ∧ tposOf (-1 / 4) % 2 ^ 64 = 0xFFFFFFFFC0000000 := by decide +kernel

/-- spec/02, the port example, step 2: PAGE_ID of sensor port 30. -/
theorem test_page_id : State.reset.rd 0x41E 0 = 0x0800001E := by decide +kernel

/-- spec/02, the port example, step 3: an interrupt route to a reserved code takes 0xFF and counts. -/
theorem test_int_route :
    let u := after (.registerWrite .basecamp 0x41E 0x24 4 0x90 false 7) State.reset
    u.rd 0x41E 0x24 = 0xFF ∧ u.rd 0x41E oClamp = 0x10024 ∧
      (after (.readAndClear .basecamp 0x41E oClamp 4 9) u).rd 0x41E oClamp / 2 ^ 16 = 0 := by decide +kernel

/-- spec/09, the Vessmark example: SOUT_GROUP and SOUT_CFG of output 0; before its group has two members the scheme stays 1oo1 (R283). -/
theorem test_sout_cfg :
    let u := after (.registerWrite .basecamp (pgSout 0) 0x044 4 0x80004202 false 7) State.reset
    u.rd (pgSout 0) 0x044 = 0x80004202 ∧ (after (.registerWrite .basecamp (pgSout 0) 0x040 4 0x8E620000 false 8) u).rd (pgSout 0) 0x040 = 0x8E620000 ∧
      (after (.registerWrite .basecamp (pgSout 0) 0x040 4 0x8E620000 false 8) State.reset).rd (pgSout 0) 0x040 = 0x0E620000 := by decide +kernel

/-- spec/11, the literal examples. -/
theorem test_literals :
    ({ lits := [1, 0x234, 0x567] } : Bundle).literal 8 = 0x12345678 ∧ ({ lits := [0x123] } : Bundle).literal 0 = 0x123 ∧
      ({ lits := [0xFFC] } : Bundle).literal 0 = 0xFFFFFFFC ∧ ({ lits := [] } : Bundle).literal 12 = 0xFFFFFFFC := by decide +kernel

/-- spec/11, the call example: CALL 2 of a 6-byte bundle at 0x12_0000_1A40. -/
theorem test_call :
    let k := copyA (after (.call { tile := 2, lits := [0, 0x100] } 2 0) (tile2 (caller 0x1200001A40)))
    k.base = 210 ∧ k.depth = 2 ∧ k.rsp = 0x120006FF70 ∧ k.rsCache.map (fun r => (r.addr, r.lo, r.hi)) = [(0x120006FF70, 0x1200001A46, 0xA00000000)] := by
  decide +kernel

/-- spec/11, the call example: RET 1 of the callee with DEPTH 3 copies its result and restores BASE 200. -/
theorem test_ret :
    let k0 : KCopy := { caller 0x1200001000 with
      base := 210, depth := 3, rsp := 0x120006FF70, low := 8, file := [(212, 77, false)], rsCache := [⟨0x120006FF70, 0x1200001A46, 0xA00000000, false, false⟩] }
    let k := copyA (after (.ret { tile := 2, lits := [] } 1) (tile2 k0))
    k.base = 200 ∧ k.depth = 11 ∧ k.rsp = 0x120006FF80 ∧ k.pc = 0x1200001A46 ∧ k.entry 210 = (77, false) := by decide +kernel

/-- spec/11, the call example: LOOP at 0x12_0000_2000, a 4-byte bundle with its last body bundle at 0x12_0000_2010. -/
theorem test_loop :
    let k := copyA (after (.loop { tile := 2, lits := [6] } 0 1) (tile2 { caller 0x1200002000 with file := [(211, 12, false)] }))
    k.ls = 0x1200002004 ∧ k.leoff = 6 ∧ k.lc = 12 ∧ k.la = true := by decide +kernel

/-- spec/14, the system-call example: TRAP #5 at 0x12_0000_1B00 pushes this frame and enters the handler. -/
theorem test_trap :
    let s := ((tile2 (caller 0x1200001B00)).wrMem (physOf 2 0x120003FEB0) 16 (0x1200030000 + 0x8000 * 2 ^ 40 + 5 * 2 ^ 80)).setTag (physOf 2 0x120003FEB0) 7
    let u := after (.trap { tile := 2, lits := [] } 5) s
    let k := copyA u
    k.pc = 0x1200030000 ∧ k.base = 212 ∧ k.depth = 0 ∧ k.status = 3 ∧ u.tag (physOf 2 0x120006FF70) = true ∧
      (List.range 6).map (fun j => (u.rdMem (physOf 2 (0x120006FF50 + 8 * j)) 8).1.1) =
        [0x1200001B02, 0, 0x2C30019004002, 5, 0x0400001200000000, 0x50000] := by decide +kernel

/-- Cluster 5's bank 8 with the flip of spec/15's example armed, and the cell written that takes it. -/
def flipped : State :=
  (got (execEccFlipCfg .basecamp (pgEccC 5) 0xB8000000 9 ((State.reset.setFld (pgEccC 5) 0x048 31 0 0xAAAAAAAA).wr64 (pgEccC 5) 0x068 3))).wrMem
    (clusterBase 5 + 0x400080) 64 0

def flippedRead : (Nat × Bool) × State := flipped.rdMem (clusterBase 5 + 0x400098) 8

/-- spec/15, the injected double error: the flip is applied once, its word is delivered poisoned and counted, the word before it is clean. -/
theorem test_flip : flipped.getB (pgEccC 5) 0x064 31 = false ∧ flipped.getB (pgEccC 5) oIntStatus 19 = true ∧ flippedRead.1.2 = true ∧
    flippedRead.2.fld (pgEccC 5) 0x180 15 8 = 1 ∧ (flipped.rdMem (clusterBase 5 + 0x400090) 8).1.2 = false := by decide +kernel

/-- spec/17, the stuck-cell example: the words of the slice's record and of its retest. -/
theorem test_slice_record :
    bistWord0 1 2 40 2 91 false false = 0x010200020028005B ∧ bistWord0 1 2 40 2 91 true false = 0x012200020028005B ∧
      failWord1 1 2 40 157 17 = 0x09D0001100128440 := by decide +kernel

/-- spec/06, the Kaiser coefficient of the filter at its centre is 1, and beyond 64 taps it is 0. -/
theorem test_window_ends : arsWindow 0 = 1 ∧ arsWindow 65 = 0 := by decide +kernel

/-- spec/07 R211, the ENBW of the cosine windows in 1/256 bin. -/
theorem test_enbw : jEnbw [0x10100000] [] = 384 ∧ jEnbw [0x10000000] [] = 256 := by decide +kernel

/-- spec/12 R355: 1.5 + 0.25, a tie to even, and the product of the largest value with itself. -/
theorem test_float :
    (fAdd false 0x3FC00000 0x3E800000).1 = 0x3FE00000 ∧ (fAdd false 0x3F800000 0x33800000).1 = 0x3F800000 ∧
      (fMul false 0x7F7FFFFF 0x7F7FFFFF).1 = 0x7F800000 := by decide +kernel

end
end

section
namespace Sys2Proof.Machine

/-! What fetch may change of a bundle's record: nothing that its ops compute from (spec/11). -/

/-- A record without the module's state, cycles and what fetch keeps: what the ops of its bundle compute from. -/
def KX.core (x : KX) : KX := { x with s := State.reset, k := x.k.bare, old := x.old.bare, iss := 0, lag := 0, line := none }

variable (x : KX)

@[simp] theorem KX.post_core (la c : Nat) : (x.post la c).core = x.core := by
  unfold KX.post; split <;> rfl

@[simp] theorem KX.journal_core (kind key : Nat) (v : Nat × Bool) : (x.journal kind key v).2.core = x.core := by
  unfold KX.journal; split <;> rfl

@[simp] theorem KX.lanesAt_core (n la c : Nat) (own : Bool) : (x.lanesAt n la c own).2.core = x.core := rfl

/-- A line that comes goes where fetch keeps it. -/
theorem KX.lineCame_core (l : CodeB) : ({ x with k := ({ x.k with lines := x.k.lines.take 1 ++ [l] } : KCopy).lineCame l } : KX).core = x.core := rfl

@[simp] theorem KX.fetchLine_core (la c : Nat) : (x.fetchLine la c).core = x.core := by
  unfold KX.fetchLine
  extract_lets input
  generalize 2 ^ 512 = w
  split
  next v y h =>
  extract_lets l
  clear_value l
  refine (y.lineCame_core l).trans ?_
  split at h
  · rw [← x.journal_core 5 la (0, false), h]
  · split at h
    next ls z hz =>
    have hzc : z.core = x.core := by
      split at hz
      · rw [← x.lanesAt_core 8 (physOf x.t la) c true, hz]
      · cases hz; rfl
    dsimp only at h
    split at h
    · rw [← hzc, ← z.journal_core, h]
    · cases h; exact hzc

@[simp] theorem KX.serve_core (need : Option Nat) (q : Nat × Nat) : (x.serve need q).core = x.core := by
  unfold KX.serve
  extract_lets _ gone c
  have hg : gone.core = x.core := rfl
  split
  · exact hg
  · split
    · split
      · exact ((gone.portTake c).fetchLine_core q.1 c).trans hg
      · rfl
    · split
      · rfl
      · rfl
      · exact (gone.fetchLine_core q.1 q.2).trans hg

@[simp] theorem KX.serveAll_core (need : Option Nat) : (x.serveAll need).core = x.core :=
  foldl_keeps (fun y : KX => y.core = x.core) _ (fun y q h => (y.serve_core need q).trans h) _ x rfl

@[simp] theorem KX.fetchCode_core (n : Nat) : (x.fetchCode n).2.core = x.core := by
  unfold KX.fetchCode
  extract_lets pc la n pz loopStart y
  have hy : y.core = x.core := x.serveAll_core none
  have hl : ∀ z : KX, (loopStart z).core = z.core := fun z => by
    simp only [loopStart]; split <;> rfl
  split
  · exact (hl _).trans hy
  · rename_i y1 _ y2 _ _
    have h1 : y1.core = x.core := hy
    have h2 : y2.core = x.core := by
      simp only [y2]
      split
      · exact h1
      · refine (KX.serveAll_core _ _).trans ?_
        split <;> exact h1
    split
    · exact h2
    · refine (hl _).trans ?_
      split <;> exact h2

/-- Fetch changes nothing that an op computes from. -/
@[simp] theorem KX.fetchFault_core (n : Nat) : (x.fetchFault n).2.core = x.core := by
  unfold KX.fetchFault
  extract_lets pc c
  split
  · rfl
  · split
    · rfl
    · split
      · rfl
      · split
        · rfl
        · exact x.fetchCode_core n

@[simp] theorem KX.requestNext_core : x.requestNext.core = x.core := by
  unfold KX.requestNext
  split
  · rfl
  · split
    · rfl
    · dsimp only
      split
      · rfl
      · exact KX.post_core _ _ _

@[simp] theorem KX.waitTo_core (c : Nat) : (x.waitTo c).core = x.core := by
  unfold KX.waitTo; split <;> rfl

end Sys2Proof.Machine
end

section
namespace Sys2Proof.Machine

/-! The frame of what works in one tile alone. -/

/-- What a bundle may change of a tile's record besides its outputs, logs and queues: the copies, the counts of bundles and cairns, the cycles of the port. -/
def TileH.kept (h : TileH) : TileH := { h with copies := [], bundles := 0, due := none, bound := none, lastDue := 0, port := [] }

/-- No output of any tile waits to leave. -/
def State.noOutput (s : State) : Bool := s.tiles.all fun q => q.2.outQ.isEmpty

/-- The frame of what works in tile `t` alone: it keeps its queues and logs; other tiles, all registers but its page's and all else stay. -/
structure TileFrame (t : Nat) (s u : State) : Prop where
  kept : (u.tileH t).kept = (s.tileH t).kept
  others : ∀ x, x ≠ t → u.tileH x = s.tileH x
  regs : RegsOnly [pgTile t] s u
  rest : { u with regs := s.regs, tiles := s.tiles, hot := s.hot } = s
  noOutput : s.noOutput = true → u.noOutput = true

theorem TileFrame.refl (t : Nat) (s : State) : TileFrame t s s := ⟨rfl, fun _ _ => rfl, .refl _ s, rfl, id⟩

theorem TileFrame.trans {t : Nat} {s u v : State} (h : TileFrame t s u) (k : TileFrame t u v) : TileFrame t s v where
  kept := k.kept.trans h.kept
  others x hx := (k.others x hx).trans (h.others x hx)
  regs := h.regs.trans k.regs
  rest := by
    have e := congrArg (fun w : State => { w with regs := s.regs, tiles := s.tiles, hot := s.hot }) k.rest
    exact e.trans h.rest
  noOutput := k.noOutput ∘ h.noOutput

/-- An entry of a map after a write is the one written or stood there before. -/
theorem mem_sput {α : Type} [DecidableEq α] (d : Nat → α) (k : Nat) (v : α) (e : Nat × α) (m : List (Nat × α)) (h : e ∈ sput d k v m) :
    e = (k, v) ∨ e ∈ m := by
  induction m with
  | nil =>
    simp only [sput] at h
    split at h
    · cases h
    · exact .inl (List.mem_singleton.1 h)
  | cons q m ih =>
    simp only [sput] at h
    split at h
    · split at h
      · exact .inr h
      · exact List.mem_cons.1 h
    · split at h
      · split at h
        · exact .inr (List.mem_cons_of_mem _ ((List.dropWhile_sublist _).subset h))
        · exact (List.mem_cons.1 h).imp id (List.mem_cons_of_mem _)
      · rcases List.mem_cons.1 h with h | h
        · exact .inr (h ▸ List.mem_cons_self)
        · exact (ih h).imp id (List.mem_cons_of_mem _)

/-- A write of a value that is not the default keeps every entry but the one it replaces. -/
theorem mem_sput_of_mem {α : Type} [DecidableEq α] (d : Nat → α) (k : Nat) (v : α) (hv : v ≠ d k) (e : Nat × α) (m : List (Nat × α)) (h : e ∈ m) :
    e = (k, sget d m k) ∨ e ∈ sput d k v m := by
  induction m with
  | nil => cases h
  | cons q m ih =>
    obtain ⟨j, w⟩ := q
    by_cases h1 : k < j
    · exact .inr (by simpa [sput, h1, hv] using .inr (List.mem_cons.1 h))
    · by_cases h2 : k = j
      · subst h2
        refine (List.mem_cons.1 h).imp (fun h => by simp [h, sget]) fun h => ?_
        simp [sput, hv, h]
      · have hj : ¬ j = k := fun c => h2 c.symm
        simp only [sput, sget, h1, h2, hj, if_false, List.mem_cons] at h ⊢
        rcases h with h | h
        · exact .inr (.inl h)
        · exact (ih h).imp id .inr

/-- A map holds a default or one of its entries. -/
theorem sget_default_or_mem {α : Type} (d : Nat → α) (k : Nat) (m : List (Nat × α)) : sget d m k = d k ∨ (k, sget d m k) ∈ m := by
  induction m with
  | nil => exact .inl rfl
  | cons q m ih =>
    obtain ⟨j, w⟩ := q
    simp only [sget]
    split
    next h => exact .inr (by simp [h])
    · split
      · exact .inl rfl
      · exact ih.imp id (List.mem_cons_of_mem _)

theorem State.noOutput_iff (s : State) : s.noOutput = true ↔ ∀ q ∈ s.tiles, q.2.outQ = [] := by
  simp only [State.noOutput, List.all_eq_true, List.isEmpty_iff]

/-- No output waits in a tile of a module without outputs. -/
theorem State.outQ_of_noOutput (s : State) (t : Nat) (h : s.noOutput = true) : (s.tileH t).outQ = [] := by
  rcases sget_default_or_mem (fun _ => ({} : TileH)) t s.tiles with e | e
  · exact congrArg TileH.outQ e
  · exact s.noOutput_iff.1 h _ e

/-- A new record of the tile that keeps its queues and logs. -/
theorem State.setTile_frame (s : State) (t : Nat) (h : TileH) (hk : h.kept = (s.tileH t).kept) : TileFrame t s (s.setTile t h) where
  kept := by simpa using hk
  others x hx := s.tileH_setTile_other t x h hx
  regs := .of_regs rfl _
  rest := rfl
  noOutput hs := by
    have e : h.outQ = (s.tileH t).outQ := (congrArg TileH.outQ hk :)
    refine (State.noOutput_iff _).2 fun q hq => ?_
    rcases mem_sput _ t h q _ hq with rfl | hq
    · exact e.trans (s.outQ_of_noOutput t hs)
    · exact s.noOutput_iff.1 hs q hq

/-- A count of the tile's own page. -/
theorem State.bump_frame (s : State) (t o hi lo n : Nat) (ho : o < 4096) : TileFrame t s (s.bump (pgTile t) o hi lo n) where
  kept := rfl
  others _ _ := rfl
  regs := s.bump_regsOnly _ o hi lo n _ (by simp) ho
  rest := rfl
  noOutput := id

/-- A tile's frame leaves other pages' switches alone. -/
theorem TileFrame.enabled {t : Nat} {s u : State} (h : TileFrame t s u) (p : Nat) (hp : p ≠ pgTile t) : u.enabled p = s.enabled p := by
  have := h.regs p oCtrl (by simpa using hp) (by decide)
  simp only [State.enabled, State.getB, this]

theorem pgPmc_ne_pgTile (t : Nat) : pgPmc t ≠ pgTile t := by simp only [pgPmc, pgTile]; omega

/-- A PMC that is off counts nothing. -/
theorem State.pmcEvent_of_disabled (s : State) (t copy ev n : Nat) (h : s.enabled (pgPmc t) = false) : s.pmcEvent t copy ev n = s := by
  simp [State.pmcEvent, h]

theorem KX.count_of_disabled (x : KX) (ev n : Nat) (h : x.s.enabled (pgPmc x.t) = false) : x.count ev n = x := by
  rw [KX.count, State.pmcEvent_of_disabled _ _ _ _ _ h]

/-- A calm module is calm after what works in one tile. -/
theorem TileFrame.calm {t : Nat} {s u : State} (h : TileFrame t s u) (hc : s.calm = true) : u.calm = true := by
  have hw : u.getB (pgBcp 5) 0x048 31 = s.getB (pgBcp 5) 0x048 31 := by
    have hp : pgBcp 5 ∉ [pgTile t] := by simp only [pgBcp, pgTile, List.mem_singleton]; omega
    simp only [State.getB, h.regs _ 0x048 hp (by decide)]
  have hb : u.bcp = s.bcp := (congrArg State.bcp h.rest :)
  have hr : u.rope = s.rope := (congrArg State.rope h.rest :)
  have hg : u.ringWait = s.ringWait := (congrArg State.ringWait h.rest :)
  have hl : u.bist = s.bist := (congrArg State.bist h.rest :)
  simp only [State.calm, Bool.and_eq_true] at hc ⊢
  obtain ⟨⟨⟨⟨⟨⟨⟨⟨hheld, hout⟩, hself⟩, hjobs⟩, hstep⟩, htupd⟩, hring⟩, hbist⟩, hwake⟩ := hc
  rw [hb, hr, hg, hl, hw]
  exact ⟨⟨⟨⟨⟨⟨⟨⟨hheld, h.noOutput hout⟩, hself⟩, hjobs⟩, hstep⟩, htupd⟩, hring⟩, hbist⟩, hwake⟩

/-- A state that differs from another in the cycles of a tile's port alone, whose tile has a copy that runs. -/
theorem TileFrame.of_portless {t : Nat} {s u : State} (h : u.portless t = s.portless t) (hne : (s.tileH t).copies ≠ ({} : TileH).copies) :
    TileFrame t s u := by
  have ht : ({ u.tileH t with port := [] } : TileH) = { s.tileH t with port := [] } := by
    simpa [State.portless] using congrArg (State.tileH · t) h
  have hm : sput (fun _ => {}) t { u.tileH t with port := [] } u.tiles = sput (fun _ => {}) t { s.tileH t with port := [] } s.tiles :=
    (congrArg State.tiles h :)
  have hregs : u.regs = s.regs := (congrArg State.regs h :)
  refine ⟨(congrArg TileH.kept ht :), fun x hx => ?_, .of_regs hregs _, ?_, fun hs => u.noOutput_iff.2 fun q hq => ?_⟩
  · have := congrArg (State.tileH · x) h
    simpa [State.portless, State.tileH_setTile_other _ _ _ _ hx] using this
  · exact congrArg (fun w : State => { w with regs := s.regs, tiles := s.tiles, hot := s.hot }) h
  · have hc : (u.tileH t).copies = (s.tileH t).copies := (congrArg TileH.copies ht :)
    have hd : ({ u.tileH t with port := [] } : TileH) ≠ {} := fun c => hne (hc.symm.trans ((congrArg TileH.copies c :)))
    rcases mem_sput_of_mem (fun _ => ({} : TileH)) t _ hd q u.tiles hq with rfl | hq
    · exact (congrArg TileH.outQ ht :).trans (s.outQ_of_noOutput t hs)
    · rw [hm] at hq
      rcases mem_sput _ _ _ _ _ hq with rfl | hq
      · exact s.outQ_of_noOutput t hs
      · exact s.noOutput_iff.1 hs q hq

end Sys2Proof.Machine
end

section
namespace Sys2Proof.Machine

variable (x : KX)

/-! Spills, fills and the stack check of one op. -/

theorem KX.spill_low (z : KX) (h : x.spill = .ok z) : z.k.low = x.k.low + 8 := by
  simp only [KX.spill, bind, Except.bind] at h
  split at h
  · cases h
  · split at h
    · cases h
    · cases h; rfl

theorem KX.fill_low (z : KX) (h : x.fill = .ok z) : z.k.low = x.k.low - 8 := by
  simp only [KX.fill, bind, Except.bind] at h
  split at h
  · cases h
  · split at h
    · cases h
    · cases h; rfl

theorem KX.spillTo_low_le (top n : Nat) : ∀ x z : KX, x.spillTo top n = .ok z → x.k.low ≤ z.k.low := by
  induction n with
  | zero => intro x z h; cases h; exact Nat.le_refl _
  | succ n ih =>
    intro x z h
    simp only [KX.spillTo, bind, Except.bind] at h
    split at h
    · cases h; exact Nat.le_refl _
    · split at h
      · cases h
      next y hy =>
        have := x.spill_low y hy
        have := ih y z h
        omega

/-- Spills that begin raise LOW; where TOP fits none does. -/
theorem KX.spillTo_ok (top n : Nat) (z : KX) (h : x.spillTo top (n + 1) = .ok z) :
    (z = x ∧ top ≤ x.k.low + 256) ∨ (x.k.low + 8 ≤ z.k.low ∧ x.k.low + 256 < top) := by
  simp only [KX.spillTo, bind, Except.bind] at h
  split at h
  next ht => cases h; exact .inl ⟨rfl, ht⟩
  next ht =>
    split at h
    · cases h
    next y hy =>
      have := x.spill_low y hy
      have := y.spillTo_low_le top n z h
      exact .inr (by omega)

theorem KX.spillTo_of_room (top n : Nat) (h : top ≤ x.k.low + 256) : x.spillTo top n = .ok x := by
  cases n with
  | zero => rfl
  | succ n => simp only [KX.spillTo, if_pos h]

theorem KX.fillTo_ok (p n : Nat) : ∀ x z : KX, x.fillTo p n = .ok z → z.k.low ≤ x.k.low ∧ (z = x ∨ p < z.k.low + 8) := by
  induction n with
  | zero => intro x z h; cases h; exact ⟨Nat.le_refl _, .inl rfl⟩
  | succ n ih =>
    intro x z h
    simp only [KX.fillTo, bind, Except.bind] at h
    split at h
    · cases h; exact ⟨Nat.le_refl _, .inl rfl⟩
    next hp =>
      split at h
      · cases h
      next y hy =>
        have hl := x.fill_low y hy
        obtain ⟨hle, rfl | hz⟩ := ih y z h <;> omega

theorem KX.fillTo_low (p n : Nat) (z : KX) (h : x.fillTo p (n + 1) = .ok z) (hp : p < x.k.low) : z.k.low < x.k.low ∧ p < z.k.low + 8 := by
  simp only [KX.fillTo, Nat.not_le.2 hp, if_false, bind, Except.bind] at h
  split at h
  · cases h
  next y hy =>
    have hl := x.fill_low y hy
    obtain ⟨hle, rfl | hz⟩ := KX.fillTo_ok p n y z h <;> omega

/-- Fills that begin lower LOW, to less than 8 above where they may end. -/
theorem KX.fillFor_ok (p : Nat) (z : KX) (h : x.fillFor p = .ok z) : (z = x ∧ x.k.low ≤ p) ∨ (z.k.low < x.k.low ∧ p < z.k.low + 8) := by
  unfold KX.fillFor at h
  split at h
  next hp => cases h; exact .inl ⟨rfl, hp⟩
  next hp => exact .inr (KX.fillTo_low { x with iss := x.iss + 2 } p 63 z h (Nat.not_le.1 hp))

theorem KX.fillFor_of_resident (p : Nat) (h : x.k.low ≤ p) : x.fillFor p = .ok x := by
  simp only [KX.fillFor, if_pos h]

theorem foldl_min_lt (l : List Nat) : ∀ a c : Nat, l.foldl min a < c → a < c ∨ ∃ r ∈ l, r < c := by
  induction l with
  | nil => exact fun a c h => .inl h
  | cons b l ih =>
    intro a c h
    rcases ih _ _ h with h | ⟨r, hr, hc⟩
    · have : a < c ∨ b < c := by omega
      exact this.imp id fun h => ⟨b, List.mem_cons_self, h⟩
    · exact .inr ⟨r, List.mem_cons_of_mem _ hr, hc⟩

end Sys2Proof.Machine

namespace Sys2Proof

open Machine

/-- What an op reads below TOP lies in the entries it needs. -/
theorem KOp.eff_reads_lt (o : KOp) : ∀ r ∈ o.eff.reads, r < o.eff.need := by
  unfold KOp.eff
  split <;> simp [StkEff.op]

/-- An op that reads entries takes at most four off. -/
theorem KOp.eff_pops_le (o : KOp) (h : o.eff.reads ≠ [] ∨ o.eff.locs ≠ []) : o.eff.pops ≤ 4 := by
  unfold KOp.eff at h ⊢
  split at h <;> simp [StkEff.op] at h ⊢

end Sys2Proof

namespace Sys2Proof.Machine

/-- Nothing under way in a copy that its program could see: what KCopy.settled says but for waits in MA. -/
structure KCopy.Idle (k : KCopy) : Prop where
  shadow : k.shadow = []
  ext : k.ext = []
  divI : k.divI = none
  divF : k.divF = none
  latI : k.latI = none
  latF : k.latF = none
  arith : k.arith = none
  remain : k.remain = none
  waiting : k.waiting = none
  steps : k.steps = none
  la : k.la = false

theorem KCopy.idle_of_settled {k : KCopy} (h : k.settled = true) : k.Idle := by
  simp only [KCopy.settled, Bool.and_eq_true, List.isEmpty_iff, Option.isNone_iff_eq_none, Bool.not_eq_true'] at h
  obtain ⟨⟨⟨⟨⟨⟨⟨⟨⟨⟨⟨hshadow, hext⟩, hdivI⟩, hdivF⟩, hlatI⟩, hlatF⟩, harith⟩, hremain⟩, hwaiting⟩, hsteps⟩, -⟩, hla⟩ := h
  exact ⟨hshadow, hext, hdivI, hdivF, hlatI, hlatF, harith, hremain, hwaiting, hsteps, hla⟩

/-- A copy that differs in what fetch keeps and in cycles is idle too. -/
theorem KCopy.Idle.of_bare {k j : KCopy} (h : k.Idle) (e : j.bare = k.bare) : j.Idle where
  shadow := (congrArg KCopy.shadow e :).trans h.shadow
  ext := by
    have := (congrArg KCopy.ext e :)
    simpa [KCopy.bare, h.ext] using this
  divI := by
    have := (congrArg KCopy.divI e :)
    simpa [KCopy.bare, h.divI] using this
  divF := by
    have := (congrArg KCopy.divF e :)
    simpa [KCopy.bare, h.divF] using this
  latI := by
    have := (congrArg KCopy.latI e :)
    simpa [KCopy.bare, h.latI] using this
  latF := by
    have := (congrArg KCopy.latF e :)
    simpa [KCopy.bare, h.latF] using this
  arith := by
    have := (congrArg KCopy.arith e :)
    simpa [KCopy.bare, h.arith] using this
  remain := (congrArg KCopy.remain e :).trans h.remain
  waiting := (congrArg KCopy.waiting e :).trans h.waiting
  steps := (congrArg KCopy.steps e :).trans h.steps
  la := (congrArg KCopy.la e :).trans h.la

theorem KCopy.Idle.pendingAt {k : KCopy} (h : k.Idle) (p : Nat) : k.pendingAt p = false := by
  simp [KCopy.pendingAt, KCopy.extAt, KCopy.latched, h.ext, h.latI, h.latF]

theorem KX.landDivs_of_idle (x : KX) (c : Nat) (h : x.k.Idle) : x.landDivs c = x := by
  simp [KX.landDivs, h.divI, h.divF]

/-- What the stack check asks of one op passes. -/
theorem winCheck_one (base : Nat) (o : KOp) (w0 w : WinEff) (h : winCheck base [o] w0 = some w) :
    o.eff.need ≤ w0.depth ∧ w0.depth - o.eff.pops + o.eff.pushes ≤ 224 ∧ w.mx = max w0.mx (base + (w0.depth - o.eff.pops + o.eff.pushes)) ∧
      w.reads = w0.reads ++ o.eff.reads.map (fun r => base + w0.depth - 1 - r) ++ o.eff.locs.map (base + ·) := by
  simp only [winCheck, Option.ite_none_left_eq_some, Option.some.injEq, Bool.or_eq_true, decide_eq_true_eq, not_or, Nat.not_lt] at h
  obtain ⟨⟨⟨⟨hneed, hdepth⟩, -⟩, -⟩, rfl⟩ := h
  exact ⟨hneed, hdepth, rfl, rfl⟩

/-- The ops whose stack check looks at the window alone: neither FLOW nor SYNCF. -/
def plainOp (o : KOp) : Bool := o.unit != 3 && o != .syncf

/-- What the stack check of an op that spills and fills nothing finds of a copy: `w` is what the op reads and writes. -/
structure KCopy.Room (k : KCopy) (o : KOp) (w : WinEff) : Prop where
  window : winCheck k.base [o] { mx := k.top, depth := k.depth } = some w
  above : ¬ (k.top < w.mx ∧ k.rsp < (k.cap 1).base + 4 * w.mx)
  noSpill : w.mx ≤ k.low + 256
  noFill : k.low ≤ w.reads.foldl min k.low

/-- No spill of an op is undone by its fills: what the op reads stands less than 256 below the TOP it spills for. -/
theorem no_fill_after_spill (k : KCopy) (o : KOp) (w : WinEff) (hw : winCheck k.base [o] { mx := k.top, depth := k.depth } = some w)
    (hmx : k.low + 256 < w.mx) (low : Nat) (hlow : k.low + 8 ≤ low) : k.low + 8 ≤ w.reads.foldl min low := by
  obtain ⟨hneed, hdepth, hm, hr⟩ := winCheck_one _ _ _ _ hw
  refine Nat.not_lt.1 fun hlt => ?_
  rcases foldl_min_lt _ _ _ hlt with h | ⟨r, hmem, h⟩
  · omega
  · simp only [hr, List.nil_append, List.mem_append, List.mem_map] at hmem
    simp only [KCopy.top] at hm hneed hdepth
    rcases hmem with ⟨q, hq, rfl⟩ | ⟨q, hq, rfl⟩
    · have := o.eff_pops_le (.inl (List.ne_nil_of_mem hq))
      have := o.eff_reads_lt q hq
      omega
    · have := o.eff_pops_le (.inr (List.ne_nil_of_mem hq))
      omega

/-- The stack check of a plain op once its window stands: what it reads and writes is awaited, spilt for and filled. -/
def KX.windowStage (x : KX) (o : KOp) (w : WinEff) : KM KX := do
  let held := w.reads ++ w.writes
  if held.any x.k.pendingAt then .error .hold
  else
    let x := x.waitTo ((held.map x.k.readyAt ++ [x.dividerFree o]).foldl max 0)
    let x := x.landDivs x.iss
    let x ← x.spillTo w.mx 32
    let x ← x.fillFor (w.reads.foldl min x.k.low)
    .ok (if bit x.old.status 1 then { x with iss := x.iss + 3 * ([o].filter KOp.mayTrap).length } else x).issueAt

theorem KX.stackStage_plain (x : KX) (o : KOp) (ho : plainOp o = true) : x.stackStage [o] =
    (winCheck x.k.base [o] { mx := x.k.top, depth := x.k.depth }).elim (.error (.fault 2 x.old.pc 0)) fun w =>
      if x.k.top < w.mx ∧ x.k.rsp < (x.k.cap 1).base + 4 * w.mx then .error (.fault 2 ((x.k.cap 1).base + 4 * w.mx) 1) else x.windowStage o w := by
  have hs : o ≠ .syncf := fun c => by simp [plainOp, c] at ho
  have hu : o.unit ≠ 3 := fun c => by simp [plainOp, c] at ho
  unfold KX.stackStage
  split
  next h => rw [h]; rfl
  next w h =>
    rw [h, Option.elim_some]
    by_cases hc : x.k.top < w.mx ∧ x.k.rsp < (x.k.cap 1).base + 4 * w.mx
    · rw [if_pos hc]
      simp only [if_pos hc, bind, Except.bind]
    · rw [if_neg hc]
      have hsf : [o].contains KOp.syncf = false := by simpa using fun c => hs c.symm
      simp only [if_neg hc, hsf, Bool.false_eq_true, if_false]
      split
      next n l h => cases (Option.some.inj h); exact absurd rfl hu
      next n h => cases (Option.some.inj h); exact absurd rfl hu
      next n h => cases (Option.some.inj h); exact absurd rfl hu
      next h => cases (Option.some.inj h); exact absurd rfl hu
      next h => cases (Option.some.inj h); exact absurd rfl hs
      next =>
        simp only [bind, Except.bind, KX.windowStage]
        split <;> rfl

theorem KX.issueAt_core (x : KX) (h : x.k.Idle) : x.issueAt.core = x.core := by
  unfold KX.issueAt
  extract_lets r _ y
  have hy : y.core = x.core := rfl
  rw [KX.landDivs_of_idle y _ (h.of_bare rfl), hy]

theorem KX.issueAt_s (x : KX) (h : x.k.Idle) : x.issueAt.s = x.s := by
  unfold KX.issueAt
  extract_lets r _ y
  rw [KX.landDivs_of_idle y _ (h.of_bare rfl)]

theorem KX.waitTo_k (x : KX) (c : Nat) : (x.waitTo c).k = x.k := by
  unfold KX.waitTo; split <;> rfl

theorem KX.waitTo_s (x : KX) (c : Nat) (hp : x.s.enabled (pgPmc x.t) = false) : (x.waitTo c).s = x.s := by
  unfold KX.waitTo
  split
  · rfl
  · rw [KX.count_of_disabled { x with iss := c } _ _ hp]

@[simp] theorem KX.logUndo_k (x : KX) (pa n : Nat) : (x.logUndo pa n).k = x.k := by
  unfold KX.logUndo; split <;> rfl

@[simp] theorem KX.maWait_low (x : KX) (n : Nat) : (x.maWait n).k.low = x.k.low := by
  unfold KX.maWait; split <;> rfl

theorem KX.wrLoc_low (x : KX) (a n v : Nat) (ps : List Bool) : (x.wrLoc a n v ps).k.low = x.k.low := by
  simp [KX.wrLoc, KX.portTake, KX.updTile]

theorem KX.landDiv_low (x : KX) (e : DivE) : (x.landDiv e).k.low = x.k.low := by
  unfold KX.landDiv
  split
  · rfl
  · split
    · exact KX.wrLoc_low { x with iss := e.ready, lag := 0 } _ _ _ _
    · rfl

/-- A division that lands leaves LOW alone. -/
theorem KX.landDivs_low (x : KX) (c : Nat) : (x.landDivs c).k.low = x.k.low := by
  unfold KX.landDivs
  extract_lets _ y
  have hy : y.k.low = x.k.low := by
    simp only [y]
    split
    · split
      · rw [KX.landDiv_low]
      · rfl
    · rfl
  split
  · split
    · rw [KX.landDiv_low]; exact hy
    · exact hy
  · exact hy

theorem KX.issueAt_low (x : KX) : x.issueAt.k.low = x.k.low := by
  unfold KX.issueAt
  rw [KX.landDivs_low]

/-- The stack check of a copy with room changes nothing but cycles. -/
theorem KX.stackStage_of_room (x : KX) (o : KOp) (w : WinEff) (ho : plainOp o = true) (hi : x.k.Idle) (hr : x.k.Room o w)
    (hp : x.s.enabled (pgPmc x.t) = false) : ∃ z, x.stackStage [o] = .ok z ∧ z.core = x.core ∧ z.s = x.s := by
  rw [x.stackStage_plain o ho, hr.window, Option.elim_some, if_neg hr.above, KX.windowStage]
  have hheld : (w.reads ++ w.writes).any x.k.pendingAt = false := by simp [hi.pendingAt]
  rw [hheld]
  generalize ((w.reads ++ w.writes).map x.k.readyAt ++ [x.dividerFree o]).foldl max 0 = c
  have hk := x.waitTo_k c
  have hi' : (x.waitTo c).k.Idle := hk ▸ hi
  simp only [Bool.false_eq_true, if_false, KX.landDivs_of_idle _ _ hi', bind, Except.bind]
  rw [KX.spillTo_of_room _ _ _ (by rw [hk]; exact hr.noSpill)]
  dsimp only
  rw [KX.fillFor_of_resident _ _ (by rw [hk]; exact hr.noFill)]
  refine ⟨_, rfl, ?_, ?_⟩
  · refine (KX.issueAt_core _ ?_).trans ?_ <;> split
    · exact hi'
    · exact hi'
    · exact x.waitTo_core c
    · exact x.waitTo_core c
  · refine (KX.issueAt_s _ ?_).trans ?_ <;> split
    · exact hi'
    · exact hi'
    · exact x.waitTo_s c hp
    · exact x.waitTo_s c hp

theorem KX.windowStage_ok (y : KX) (o : KOp) (w : WinEff) (z : KX) (hi : y.k.Idle) (h : y.windowStage o w = .ok z) :
    ∃ x2 x3 x4 : KX, x2.k = y.k ∧ x2.spillTo w.mx 32 = .ok x3 ∧ x3.fillFor (w.reads.foldl min x3.k.low) = .ok x4 ∧ x4.k.low = z.k.low := by
  unfold KX.windowStage at h
  extract_lets held x1 x2 at h
  have hx1 : x1.k = y.k := y.waitTo_k _
  have hx2 : x2.k = y.k := by simp only [x2]; rw [KX.landDivs_of_idle x1 _ (hx1 ▸ hi), hx1]
  clear_value x2
  simp only [bind, Except.bind] at h
  split at h
  · cases h
  split at h
  · cases h
  next x3 h3 =>
  split at h
  · cases h
  next x4 h4 =>
  cases h
  refine ⟨x2, x3, x4, hx2, h3, h4, (KX.issueAt_low _).symm ▸ ?_⟩
  split <;> rfl

/-- A stack check that changes nothing has found room. -/
theorem KX.room_of_resident (y : KX) (o : KOp) (ho : plainOp o = true) (hi : y.k.Idle) (h : y.resident o = true) : ∃ w, y.k.Room o w := by
  unfold KX.resident at h
  split at h
  case h_2 => cases h
  next z hz =>
  have hlow : z.k.low = y.k.low := (congrArg (fun x : KX => x.k.low) (of_decide_eq_true h) :)
  rw [y.stackStage_plain o ho] at hz
  cases hw : winCheck y.k.base [o] { mx := y.k.top, depth := y.k.depth } with
  | none => rw [hw] at hz; cases hz
  | some w =>
    rw [hw, Option.elim_some] at hz
    split at hz
    · cases hz
    next habove =>
      obtain ⟨x2, x3, x4, hk, h3, h4, h5⟩ := y.windowStage_ok o w z hi hz
      have hk2 : x2.k.low = y.k.low := congrArg KCopy.low hk
      rcases x2.spillTo_ok _ 31 x3 h3 with ⟨rfl, hroom⟩ | ⟨hup, hmx⟩
      · rcases KX.fillFor_ok _ _ x4 h4 with ⟨rfl, hfill⟩ | ⟨hdown, -⟩
        · exact ⟨w, hw, habove, hk2 ▸ hroom, hk2 ▸ hfill⟩
        · omega
      · rw [hk2] at hup hmx
        have hno := no_fill_after_spill y.k o w hw hmx x3.k.low hup
        rcases KX.fillFor_ok _ _ x4 h4 with ⟨rfl, -⟩ | ⟨-, hdown⟩ <;> omega

end Sys2Proof.Machine
end

section
namespace Sys2Proof.Machine

/-! How a bundle ends: what it leaves of its copy, and its frame. -/

/-- The frame of what works in tile `t` and leaves the records of its copies alone. -/
structure CopyFrame (t : Nat) (s u : State) : Prop extends TileFrame t s u where
  copies : (u.tileH t).copies = (s.tileH t).copies

theorem CopyFrame.refl (t : Nat) (s : State) : CopyFrame t s s := ⟨.refl t s, rfl⟩

theorem CopyFrame.trans {t : Nat} {s u v : State} (h : CopyFrame t s u) (k : CopyFrame t u v) : CopyFrame t s v :=
  ⟨h.toTileFrame.trans k.toTileFrame, k.copies.trans h.copies⟩

theorem State.setTile_copyFrame (s : State) (t : Nat) (h : TileH) (hk : h.kept = (s.tileH t).kept) (hc : h.copies = (s.tileH t).copies) :
    CopyFrame t s (s.setTile t h) := ⟨s.setTile_frame t h hk, by simpa using hc⟩

theorem State.bump_copyFrame (s : State) (t o hi lo n : Nat) (ho : o < 4096) : CopyFrame t s (s.bump (pgTile t) o hi lo n) :=
  ⟨s.bump_frame t o hi lo n ho, rfl⟩

theorem CopyFrame.pmc {t : Nat} {s u : State} (h : CopyFrame t s u) (hp : s.enabled (pgPmc t) = false) : u.enabled (pgPmc t) = false :=
  (h.enabled _ (pgPmc_ne_pgTile t)).trans hp

theorem CopyFrame.pmcEvent {t : Nat} {s u : State} (h : CopyFrame t s u) (hp : s.enabled (pgPmc t) = false) (copy ev n : Nat) :
    CopyFrame t s (u.pmcEvent t copy ev n) := by
  rw [State.pmcEvent_of_disabled _ _ _ _ _ (h.pmc hp)]
  exact h

/-- The checks for a cairn that falls due work in the tile alone. -/
theorem State.cairnCheck_frame (s : State) (t : Nat) (hp : s.enabled (pgPmc t) = false) : CopyFrame t s (s.cairnCheck t) := by
  unfold State.cairnCheck
  extract_lets h early
  have he : ∀ (u : State) c hi lo, CopyFrame t s u → CopyFrame t s (early u c hi lo) := fun u c hi lo hu => by
    simp only [early]
    split
    · refine hu.trans (.trans ?_ (State.bump_copyFrame _ t 0x05C hi lo 1 (by decide)))
      exact u.setTile_copyFrame t _ rfl rfl
    · exact hu
  clear_value early
  split
  · exact .refl t s
  · split
    extract_lets s1 s2 s3 h3 k
    have hs3 : CopyFrame t s s3 := he _ _ _ _ (he _ _ _ _ (he _ _ _ _ (.refl t s)))
    split
    · split
      · exact hs3
      · refine CopyFrame.pmcEvent (hs3.trans ?_) hp _ _ _
        exact s3.setTile_copyFrame t _ rfl rfl
    · exact hs3

theorem getD_setAt {α : Type} (d : α) (l : List α) : ∀ (i : Nat) (x : α), i < l.length → (setAt l i x).getD i d = x := by
  induction l with
  | nil => intro i x h; cases h
  | cons a l ih =>
    intro i x h
    cases i with
    | zero => rfl
    | succ i => exact ih i x (Nat.lt_of_succ_lt_succ h)

/-- Loads that leave their shadow write the stack file alone. -/
theorem KCopy.land_foldl (l : List ShadowE) : ∀ k : KCopy,
    l.foldl (fun (k : KCopy) e => { k with file := sput fileZero (e.pos % 256) (e.val % 2 ^ 32, e.pois) k.file }) k =
      { k with file := l.foldl (fun f e => sput fileZero (e.pos % 256) (e.val % 2 ^ 32, e.pois) f) k.file } := by
  induction l with
  | nil => exact fun _ => rfl
  | cons e l ih => exact fun k => ih _

theorem KCopy.shadowTick_bare (k : KCopy) : k.shadowTick.bare = k.bare.shadowTick := by
  simp only [KCopy.shadowTick, KCopy.land_foldl]
  rfl

theorem KCopy.lowFollow_eq (k : KCopy) : k.lowFollow = { k with low := if k.top < k.low then k.top / 8 * 8 else k.low } := by
  unfold KCopy.lowFollow; split <;> rfl

theorem KCopy.lowFollow_bare (k : KCopy) : k.lowFollow.bare = k.bare.lowFollow := by
  simp only [KCopy.lowFollow_eq]
  rfl

/-- Where PC stands is nothing to the loads in their shadow and to LOW. -/
theorem KCopy.tick_pc (k : KCopy) (pc : Nat) : ({ k.shadowTick.lowFollow with pc := pc } : KCopy) = ({ k with pc := pc } : KCopy).shadowTick.lowFollow := by
  simp only [KCopy.lowFollow_eq, KCopy.shadowTick, KCopy.land_foldl]
  rfl

/-- The arithmetic exception that a bundle at `pc` leaves pending, but for the cycle in which it falls due. -/
def pendOf (pc : Nat) : List Nat → Option ArithE
  | [] => none
  | c :: cs => some ⟨c, pc, !cs.isEmpty, 0⟩

/-- What a bundle of one op leaves of the copy `k` that its op has made. -/
def KCopy.ended (k : KCopy) (pc : Nat) (pend : Option ArithE) : KCopy := ({ k with pc := pc, arith := pend } : KCopy).shadowTick.lowFollow

/-- A copy in which a bundle finds nothing left of an earlier one to end with: no exception, wait or STEP. -/
structure KCopy.Clear (k : KCopy) : Prop where
  arith : k.arith = none
  waiting : k.waiting = none
  steps : k.steps = none

/-- A bundle that has passed, as far as its copy's program can see. -/
theorem KX.passed_bare (x : KX) (n : Nat) (pc : Nat) (h : x.k.Clear) :
    ({ (x.passed n).k with pc := pc } : KCopy).bare = (x.k.ended pc (pendOf x.old.pc x.arith)).bare := by
  unfold KX.passed
  extract_lets c c' pend y _ k k' z
  have hy : y.k.bare = x.k.bare := (congrArg KX.k x.requestNext_core :)
  have hp : pend.map (fun a => { a with due := 0 }) = pendOf x.old.pc x.arith := by
    simp only [pend]
    rw [h.arith]
    cases x.arith <;> rfl
  have hs : y.k.steps = none := (congrArg KCopy.steps hy :).trans h.steps
  have hk : ({ k' with pc := pc } : KCopy).bare = ({ x.k with pc := pc, arith := pendOf x.old.pc x.arith } : KCopy).bare :=
    calc ({ k' with pc := pc } : KCopy).bare = { y.k.bare with pc := pc, arith := pend.map fun a => { a with due := 0 }, steps := y.k.steps.map (· - 1) } := rfl
      _ = { x.k.bare with pc := pc, arith := pendOf x.old.pc x.arith, steps := x.k.steps } := by rw [hy, hp, hs, h.steps]; rfl
      _ = _ := by
        simp only [KCopy.bare]
        cases x.arith <;> rfl
  have hz : ({ z.k with pc := pc } : KCopy).bare = (x.k.ended pc (pendOf x.old.pc x.arith)).bare := by
    rw [KCopy.ended, KCopy.lowFollow_bare, KCopy.shadowTick_bare, ← hk, ← KCopy.shadowTick_bare, ← KCopy.lowFollow_bare, ← KCopy.tick_pc]
  refine Eq.trans (congrArg (fun j : KCopy => ({ j with pc := pc } : KCopy).bare) ?_) hz
  show (if z.chk then _ else z).k = z.k
  split <;> rfl

theorem KX.requestNext_s (x : KX) : x.requestNext.s = x.s := by
  unfold KX.requestNext KX.post
  split
  · rfl
  · split
    · rfl
    · dsimp only
      split
      · rfl
      · split <;> rfl

/-- A bundle that has passed is counted in its tile. -/
theorem KX.passed_frame (x : KX) (n : Nat) : CopyFrame x.t x.s (x.passed n).s := by
  unfold KX.passed
  extract_lets c c' pend y _ k k' z
  have ht : z.t = x.t := (congrArg KX.t x.requestNext_core :)
  have hs : z.s = x.s := x.requestNext_s
  split
  · simp only [KX.updTile, ht, hs]
    exact x.s.setTile_copyFrame x.t _ rfl rfl
  · rw [hs]; exact .refl _ _

/-- What a bundle that has passed keeps of its record. -/
theorem KX.passed_core (x : KX) (n : Nat) : (x.passed n).core = { x.core with k := (x.passed n).k.bare, arith := [], more := 0 } := by
  have h := x.requestNext_core
  unfold KX.passed
  extract_lets c c' pend y _ k k' z
  have hz : z.core = { x.core with k := z.k.bare, arith := [], more := 0 } := by rw [← h]; rfl
  split <;> exact hz

theorem KCopy.ended_waiting (k : KCopy) (pc : Nat) (pend : Option ArithE) : (k.ended pc pend).waiting = k.waiting := by
  simp only [KCopy.ended, KCopy.lowFollow_eq, KCopy.shadowTick, KCopy.land_foldl]

theorem KCopy.ended_steps (k : KCopy) (pc : Nat) (pend : Option ArithE) : (k.ended pc pend).steps = k.steps := by
  simp only [KCopy.ended, KCopy.lowFollow_eq, KCopy.shadowTick, KCopy.land_foldl]

/-- A record put back changes its own copy alone. -/
theorem KX.done_frame (x : KX) : TileFrame x.t x.s x.done := x.s.setTile_frame x.t _ rfl

theorem KX.done_copies (x : KX) : (x.done.tileH x.t).copies = setAt (x.s.tileH x.t).copies x.copy x.k := by
  simp [KX.done]

/-- A bundle of one op that neither branches nor traps ends: its copy moves on to the next bundle. -/
theorem KX.complete_frame (x : KX) (n : Nat) (hc : x.k.Clear) (hla : x.old.la = false) (htrap : x.trap = none) (hp : x.s.enabled (pgPmc x.t) = false) :
    TileFrame x.t x.s (x.passed n).complete ∧ ∃ j : KCopy, ((x.passed n).complete.tileH x.t).copies = setAt (x.s.tileH x.t).copies x.copy j ∧
      j.bare = (x.k.ended x.next (pendOf x.old.pc x.arith)).bare := by
  have hf := x.passed_frame n
  have hcore := x.passed_core n
  have hk := x.passed_bare n x.next hc
  generalize x.passed n = y at hf hcore hk ⊢
  have ht : y.t = x.t := (congrArg KX.t hcore :)
  have hcopy : y.copy = x.copy := (congrArg KX.copy hcore :)
  have hnext : y.next = x.next := (congrArg KX.next hcore :)
  have hytrap : y.trap = none := (congrArg KX.trap hcore :).trans htrap
  have hyla : y.old.la = false := (congrArg (fun z : KX => z.old.la) hcore :).trans hla
  have hyp : y.s.enabled (pgPmc y.t) = false := by rw [ht]; exact hf.pmc hp
  rw [← ht] at hf ⊢
  let z : KX := { y with k := { y.k with pc := y.next, fell := !y.taken, waiting := none } }
  have hz : y.complete = if y.chk then z.done.cairnCheck y.t else z.done := by
    simp only [KX.complete, KX.count_of_disabled _ _ _ hyp, KX.loopTest, hyla, hytrap, Bool.false_and, Bool.false_eq_true, if_false]
    rfl
  have hzf : TileFrame y.t x.s z.done := hf.toTileFrame.trans z.done_frame
  have hzc : (z.done.tileH y.t).copies = setAt (x.s.tileH y.t).copies x.copy z.k := by
    rw [← hcopy, ← hf.copies]; exact z.done_copies
  have hzk : z.k.bare = (x.k.ended x.next (pendOf x.old.pc x.arith)).bare := by
    have hw := (x.k.ended_waiting x.next (pendOf x.old.pc x.arith)).trans hc.waiting
    calc z.k.bare = { ({ y.k with pc := y.next } : KCopy).bare with waiting := none } := rfl
      _ = { (x.k.ended x.next (pendOf x.old.pc x.arith)).bare with waiting := none } := by rw [hnext, hk]
      _ = _ := by
        generalize x.k.ended x.next (pendOf x.old.pc x.arith) = e at hw
        simp only [KCopy.bare, hw]
  rw [hz]
  split
  · have hcc := z.done.cairnCheck_frame y.t (((hzf.enabled _ (pgPmc_ne_pgTile _))).trans (ht ▸ hp))
    exact ⟨hzf.trans hcc.toTileFrame, z.k, hcc.copies.trans hzc, hzk⟩
  · exact ⟨hzf, z.k, hzc, hzk⟩

end Sys2Proof.Machine
end

section
namespace Sys2Proof.Machine

/-! Issue, fetch and decode of a bundle of one op alone. -/

/-- The bundle of an op alone. -/
def soleBundle (i : Issue) (o : KOp) : Bundle := { lits := i.lits, ops := [o] }

/-- The record that the checks of a bundle see: it has not yet its literal. -/
def State.soleY (s : State) (i : Issue) (o : KOp) : KX := { s.soleX i o with lit := 0 }

theorem soleBundle_parcels (i : Issue) (o : KOp) : (soleBundle i o).parcels = i.lits.length + 1 := by
  simp [soleBundle, Bundle.parcels, b2n]

/-- What State.solo says, clause by clause. -/
structure Solo (s : State) (i : Issue) (o : KOp) : Prop where
  before : i.before = []
  guard : i.guard = none
  rep : i.rep = none
  can : s.kCan i.tile i.copy = true
  settled : (s.copyOf i).settled = true
  async : (s.kx i.tile i.copy).async = none
  replay : (s.kx i.tile i.copy).chk = true → (s.tileH i.tile).replay = []
  pmc : s.enabled (pgPmc i.tile) = false
  fetch : ((s.kx i.tile i.copy).fetchFault (2 * (soleBundle i o).parcels)).1 = none
  portless : ((s.kx i.tile i.copy).fetchFault (2 * (soleBundle i o).parcels)).2.s.portless i.tile = s.portless i.tile
  legal : (s.soleY i o).illegal (soleBundle i o) = false
  legalOp : (s.soleY i o).illegalOp (soleBundle i o) = false
  resident : (s.soleY i o).resident o = true

theorem State.solo_iff (s : State) (i : Issue) (o : KOp) (h : s.solo i o = true) : Solo s i o := by
  simp only [State.solo, KX.fetches, Bool.and_eq_true, Bool.or_eq_true, Bool.not_eq_true', List.isEmpty_iff, Option.isNone_iff_eq_none,
    decide_eq_true_eq] at h
  obtain ⟨⟨⟨⟨⟨⟨⟨⟨⟨⟨⟨hbefore, hguard⟩, hrep⟩, hcan⟩, hsettled⟩, hasync⟩, hreplay⟩, hpmc⟩, hfetch, hportless⟩, hlegal⟩, hlegalOp⟩, hresident⟩ := h
  exact ⟨hbefore, hguard, hrep, hcan, hsettled, hasync, fun hc => hreplay.resolve_left (by simp [hc]), hpmc, hfetch, hportless, hlegal, hlegalOp,
    hresident⟩

theorem Solo.idle {s : State} {i : Issue} {o : KOp} (h : Solo s i o) : (s.copyOf i).Idle := KCopy.idle_of_settled h.settled

/-- A copy that takes bundles stands in its tile's list. -/
theorem State.copy_lt_of_can (s : State) (t c : Nat) (h : s.kCan t c = true) : c < (s.tileH t).copies.length := by
  refine Nat.not_le.1 fun hlt => ?_
  have : ((s.tileH t).copies.getD c {}).run = false := by
    rw [List.getD_eq_getElem?_getD, List.getElem?_eq_none hlt]; rfl
  simp only [State.kCan, Bool.and_eq_true] at h
  obtain ⟨⟨⟨⟨⟨⟨-, -⟩, hrun⟩, -⟩, -⟩, -⟩, -⟩ := h
  rw [this] at hrun
  cases hrun

theorem Solo.copies_ne {s : State} {i : Issue} {o : KOp} (h : Solo s i o) : (s.tileH i.tile).copies ≠ ({} : TileH).copies := by
  intro c
  have hrun := h.can
  simp only [State.kCan, Bool.and_eq_true] at hrun
  obtain ⟨⟨⟨⟨⟨⟨-, -⟩, hrun⟩, -⟩, -⟩, -⟩, -⟩ := hrun
  rw [c] at hrun
  have : ∀ n, ((({} : TileH).copies.getD n {}) : KCopy).run = false := fun n => by
    rcases n with _ | _ | _ | n <;> rfl
  rw [this] at hrun
  cases hrun

/-- An op's legality does not depend on what fetch keeps. -/
theorem KX.illegal_congr (x y : KX) (b : Bundle) (h : x.old.bare = y.old.bare) : x.illegal b = y.illegal b := by
  have hpc : x.old.pc = y.old.pc := (congrArg KCopy.pc h :)
  have hd : x.old.depth = y.old.depth := (congrArg KCopy.depth h :)
  simp only [KX.illegal, hpc, hd]

theorem KX.illegalOp_congr (x y : KX) (b : Bundle) (h : x.core = y.core) (hr : x.s.regs = y.s.regs) : x.illegalOp b = y.illegalOp b := by
  have ho : x.owner = y.owner := by
    have hchk : x.chk = y.chk := (congrArg KX.chk h :)
    have hmode : x.mode = y.mode := (congrArg KX.mode h :)
    have hcopy : x.copy = y.copy := (congrArg KX.copy h :)
    have ht : x.t = y.t := (congrArg KX.t h :)
    simp only [KX.owner, hchk, hmode, hcopy, ht, State.fld, State.rd, hr]
  have hla : x.old.la = y.old.la := (congrArg (fun z : KX => z.old.la) h :)
  have hpc : x.old.pc = y.old.pc := (congrArg (fun z : KX => z.old.pc) h :)
  have hls : x.old.ls = y.old.ls := (congrArg (fun z : KX => z.old.ls) h :)
  have hle : x.old.leoff = y.old.leoff := (congrArg (fun z : KX => z.old.leoff) h :)
  simp only [KX.illegalOp, ho, hla, hpc, hls, hle]

/-- What a bundle of one op alone takes at issue: no event stands before it. -/
theorem Solo.kRun_eq {s : State} {i : Issue} {o : KOp} (h : Solo s i o) :
    kRun i o s = ((s.kx i.tile i.copy).take (soleBundle i o) i.cut).stepEnd i.tile i.copy := by
  have hi : (s.kx i.tile i.copy).k.Idle := h.idle
  have hbetween : (s.kx i.tile i.copy).between none = (false, none, s.kx i.tile i.copy) := by
    have hn : ¬ ((s.kx i.tile i.copy).chk = true ∧ (!((s.kx i.tile i.copy).s.tileH (s.kx i.tile i.copy).t).replay.isEmpty) = true) := by
      rintro ⟨hc, hr⟩
      rw [show ((s.kx i.tile i.copy).s.tileH (s.kx i.tile i.copy).t).replay = [] from h.replay hc] at hr
      cases hr
    rw [KX.between, if_neg hn, h.async]
    rfl
  simp only [kRun, kIssue, h.before, h.guard, h.rep, h.can, hi.waiting, hi.arith, hbetween, Option.filter_none, Option.isSome_none, List.nil_append,
    Bool.not_true, Bool.false_eq_true, if_false, ne_eq, false_and, soleBundle]

/-- Fetch and decode of a bundle of one op alone change nothing that the op computes from. -/
theorem Solo.take_eq {s : State} {i : Issue} {o : KOp} (h : Solo s i o) (cut : Option Nat) :
    ∃ x : KX, x.core = (s.soleY i o).core ∧ CopyFrame i.tile s x.s ∧ x.s.regs = s.regs ∧
      (s.kx i.tile i.copy).take (soleBundle i o) cut = x.runOnce (soleBundle i o) := by
  have hcore := (s.kx i.tile i.copy).fetchFault_core (2 * (soleBundle i o).parcels)
  have hfetch := h.fetch
  have hportless := h.portless
  have hcount : ∀ n, (s.kx i.tile i.copy).count 0x17 n = s.kx i.tile i.copy := fun n => KX.count_of_disabled _ _ _ h.pmc
  generalize hr : (s.kx i.tile i.copy).fetchFault (2 * (soleBundle i o).parcels) = r at hcore hfetch hportless
  obtain ⟨f, y⟩ := r
  dsimp only at hcore hfetch hportless
  subst hfetch
  let x : KX := { y with old := y.k, next := (y.k.pc + 2 * (soleBundle i o).parcels) % 2 ^ 40 }
  have hyk : y.k.bare = (s.copyOf i).bare := (congrArg KX.k hcore :)
  have hx : x.core = (s.soleY i o).core := by
    have hpc : y.k.pc = (s.copyOf i).pc := (congrArg KCopy.pc hyk :)
    calc x.core = { y.core with old := y.k.bare, next := (y.k.pc + 2 * (soleBundle i o).parcels) % 2 ^ 40 } := rfl
      _ = { (s.kx i.tile i.copy).core with old := (s.copyOf i).bare, next := ((s.copyOf i).pc + 2 * (i.lits.length + 1)) % 2 ^ 40 } := by
        rw [hcore, hyk, hpc, soleBundle_parcels]
      _ = _ := rfl
  have hlegal : x.illegal (soleBundle i o) = false := (KX.illegal_congr _ _ _ (congrArg KX.old hx :)).trans h.legal
  have hmax : max 1 (soleBundle i o).parcels = (soleBundle i o).parcels := by rw [soleBundle_parcels]; omega
  refine ⟨x, hx, ⟨.of_portless hportless h.copies_ne, ?_⟩, (congrArg State.regs hportless :), ?_⟩
  · exact (congrArg TileH.copies (by simpa [State.portless] using congrArg (State.tileH · i.tile) hportless :
      ({ y.s.tileH i.tile with port := [] } : TileH) = { s.tileH i.tile with port := [] }) :)
  · have hifx : (if (s.kx i.tile i.copy).k.extWait = true then
        (s.kx i.tile i.copy).count 0x17 ((s.kx i.tile i.copy).iss - (s.kx i.tile i.copy).k.clk) else s.kx i.tile i.copy) = s.kx i.tile i.copy := by
      rw [hcount, ite_self]
    unfold KX.take
    rw [hifx, hmax]
    dsimp only
    rw [hr]
    dsimp only
    rw [if_neg (by rw [Bool.not_eq_true]; exact hlegal), show (soleBundle i o).guard = none from rfl]
    dsimp only
    rw [Bool.or_true]
    rfl

end Sys2Proof.Machine
end

section
namespace Sys2Proof.Machine

/-! A command whose meaning is a bundle of one plain op alone. -/

theorem KCopy.Room.of_bare {k j : KCopy} {o : KOp} {w : WinEff} (h : k.Room o w) (e : j.bare = k.bare) : j.Room o w := by
  have hbase : j.base = k.base := (congrArg KCopy.base e :)
  have hdepth : j.depth = k.depth := (congrArg KCopy.depth e :)
  have hlow : j.low = k.low := (congrArg KCopy.low e :)
  have hrsp : j.rsp = k.rsp := (congrArg KCopy.rsp e :)
  have hcap : j.cap 1 = k.cap 1 := (congrArg (fun c : KCopy => c.cap 1) e :)
  have htop : j.top = k.top := by simp only [KCopy.top, hbase, hdepth]
  exact ⟨by rw [hbase, htop, hdepth]; exact h.window, by rw [htop, hrsp, hcap]; exact h.above, by rw [hlow]; exact h.noSpill,
    by rw [hlow]; exact h.noFill⟩

theorem soleBundle_literal (i : Issue) (o : KOp) :
    (soleBundle i o).literal (((soleBundle i o).ops.filterMap KOp.ln).headD 0) = ({ lits := i.lits } : Bundle).literal (o.ln.getD 0) := by
  have hl : ([o].filterMap KOp.ln).headD 0 = o.ln.getD 0 := by cases h : o.ln <;> simp [h]
  simp only [soleBundle, hl, Bundle.literal]

/-- A plain op redirects nothing. -/
theorem KX.flowNote_plain (x : KX) (i : Issue) (o : KOp) (ho : plainOp o = true) (ht : x.taken = false) : x.flowNote (soleBundle i o) = x := by
  have hs : o ≠ .syncf := fun c => by simp [plainOp, c] at ho
  have hb : usesBtb o = false := by
    unfold usesBtb
    split <;> simp [plainOp, KOp.unit] at ho ⊢
  simp [KX.flowNote, soleBundle, hs, hb, ht]

/-- The ops of a bundle of one plain op that is legal and has room: the op's result, where no exception is precise. -/
theorem KX.runOps_sole (x : KX) (i : Issue) (o : KOp) (w : WinEff) (ho : plainOp o = true) (hi : x.k.Idle) (hr : x.k.Room o w)
    (hp : x.s.enabled (pgPmc x.t) = false) (hl : x.illegalOp (soleBundle i o) = false) :
    ∃ z : KX, z.core = { x.core with lit := ({ lits := i.lits } : Bundle).literal (o.ln.getD 0) } ∧ z.s = x.s ∧
      ∀ y, z.op o = .ok y → (y.arith = [] ∨ bit y.old.status 1 = false) → x.runOps (soleBundle i o) = .ok y := by
  obtain ⟨z, hz, hcore, hs⟩ := x.stackStage_of_room o w ho hi hr hp
  refine ⟨{ z with lit := ({ lits := i.lits } : Bundle).literal (o.ln.getD 0) }, ?_, hs, fun y hy ha => ?_⟩
  · rw [← hcore]; rfl
  · unfold KX.runOps
    rw [hl, soleBundle_literal, show (soleBundle i o).ops = [o] from rfl, hz]
    simp only [Bool.false_eq_true, if_false, bind, Except.bind, List.foldlM, hy, pure, Except.pure]
    split
    next c cs h => rw [ha.resolve_left (by rw [h]; simp)]; rfl
    next => rfl

theorem KCopy.Clear.of_bare {k j : KCopy} (h : k.Clear) (e : j.bare = k.bare) : j.Clear where
  arith := by
    have := (congrArg KCopy.arith e :)
    simpa [KCopy.bare, h.arith] using this
  waiting := (congrArg KCopy.waiting e :).trans h.waiting
  steps := (congrArg KCopy.steps e :).trans h.steps

theorem KCopy.ended_bare {k j : KCopy} (e : j.bare = k.bare) (pc : Nat) (pend : Option ArithE) : (j.ended pc pend).bare = (k.ended pc pend).bare := by
  have hk : ∀ c : KCopy, (c.ended pc pend).bare = ({ c.bare with pc := pc, arith := pend.map fun a => { a with due := 0 } } : KCopy).shadowTick.lowFollow := fun c => by
    rw [KCopy.ended, KCopy.lowFollow_bare, KCopy.shadowTick_bare]; rfl
  rw [hk, hk, e]

/-- A copy that does not count the bundles of a STEP goes on. -/
theorem State.stepEnd_of_none (s : State) (t c : Nat) (h : ((s.tileH t).copies.getD c {}).steps = none) : s.stepEnd t c = s := by
  unfold State.stepEnd
  extract_lets r k
  exact if_neg fun e => by rw [show k.steps = none from h] at e; cases e

/-- The record that the op of a bundle alone leaves: `k` is its copy, `as` are the exceptions that it raises. -/
structure KX.Made (y : KX) (s : State) (i : Issue) (o : KOp) (k : KCopy) (as : List Nat) : Prop where
  core : y.core = { (s.soleX i o).core with k := k.bare, arith := as }
  frame : CopyFrame i.tile s y.s

section
variable {s : State} {i : Issue} {o : KOp} {k : KCopy} {as : List Nat}

theorem KX.Made.bare {y : KX} (h : y.Made s i o k as) : y.k.bare = k.bare := (congrArg KX.k h.core :)
theorem KX.Made.arith {y : KX} (h : y.Made s i o k as) : y.arith = as := (congrArg KX.arith h.core :)
theorem KX.Made.old {y : KX} (h : y.Made s i o k as) : y.old.bare = (s.copyOf i).bare := (congrArg KX.old h.core :)
theorem KX.Made.t {y : KX} (h : y.Made s i o k as) : y.t = i.tile := (congrArg KX.t h.core :)
theorem KX.Made.copy {y : KX} (h : y.Made s i o k as) : y.copy = i.copy := (congrArg KX.copy h.core :)
theorem KX.Made.next {y : KX} (h : y.Made s i o k as) : y.next = ((s.copyOf i).pc + 2 * (i.lits.length + 1)) % 2 ^ 40 := (congrArg KX.next h.core :)
theorem KX.Made.pmc {y : KX} (h : y.Made s i o k as) (hs : Solo s i o) : y.s.enabled (pgPmc y.t) = false := h.t.symm ▸ h.frame.pmc hs.pmc

/-- A bundle of one plain op, alone in its tile, comes to its op, passes and completes. -/
theorem Solo.run_eq (h : Solo s i o) (ho : plainOp o = true) (has : as = [] ∨ bit (s.copyOf i).status 1 = false)
    (hop : ∀ x : KX, x.core = (s.soleX i o).core → ∃ y, x.op o = .ok y ∧ CopyFrame i.tile x.s y.s ∧ y.core = { x.core with k := k.bare, arith := as }) :
    ∃ (y : KX) (n : Nat), y.Made s i o k as ∧ kRun i o s = (y.passed n).complete.stepEnd i.tile i.copy := by
  obtain ⟨x0, hx0, hf0, hregs, htake⟩ := h.take_eq i.cut
  let x : KX := { x0 with k := { x0.k with remain := none } }
  have hx : x.core = (s.soleY i o).core := by
    have hrem : (s.soleY i o).k.bare.remain = none := h.idle.remain
    calc x.core = { x0.core with k := { x0.core.k with remain := none } } := rfl
      _ = _ := by rw [hx0, ← hrem]; rfl
  have hxk : x.k.bare = (s.copyOf i).bare := (congrArg KX.k hx :)
  have ht : x.t = i.tile := (congrArg KX.t hx :)
  obtain ⟨w, hw⟩ := (s.soleY i o).room_of_resident o ho h.idle h.resident
  have hpmc : x.s.enabled (pgPmc x.t) = false := by rw [ht]; exact hf0.pmc h.pmc
  obtain ⟨z, hzcore, hzs, hzrun⟩ := x.runOps_sole i o w ho (h.idle.of_bare hxk) (hw.of_bare hxk) hpmc
    ((KX.illegalOp_congr x (s.soleY i o) _ hx hregs).trans h.legalOp)
  have hzx : z.core = (s.soleX i o).core := by rw [hzcore, hx]; rfl
  obtain ⟨y, hy, hyf, hycore⟩ := hop z hzx
  have hm : y.Made s i o k as := ⟨hzx ▸ hycore, hf0.trans (hzs ▸ hyf)⟩
  have hystatus : y.old.status = (s.copyOf i).status := (congrArg KCopy.status hm.old :)
  have hrun : x.runOps (soleBundle i o) = .ok y := hzrun y hy (by rw [hm.arith, hystatus]; exact has)
  refine ⟨y, ((soleBundle i o).ops.map KOp.iss).foldl max 1, hm, ?_⟩
  rw [h.kRun_eq, htake, KX.runOnce, show ({ x0 with k := { x0.k with remain := none } } : KX) = x from rfl, hrun]
  simp only [show y.wait = false from (congrArg KX.wait hm.core :), Bool.false_eq_true, if_false, KX.count_of_disabled _ _ _ (hm.pmc h),
    KX.flowNote_plain y i o ho (congrArg KX.taken hm.core :)]

/-- A bundle of one plain op, alone in its tile: where the op leaves the copy `k` and raises `as`, the bundle ends with that copy, and
all else stays. -/
theorem Solo.took (h : Solo s i o) (ho : plainOp o = true) (has : as = [] ∨ bit (s.copyOf i).status 1 = false) (hk : k.Clear)
    (hop : ∀ x : KX, x.core = (s.soleX i o).core → ∃ y, x.op o = .ok y ∧ CopyFrame i.tile x.s y.s ∧ y.core = { x.core with k := k.bare, arith := as }) :
    TileFrame i.tile s (kRun i o s) ∧ CopyIs i s (kRun i o s) (k.ended (((s.copyOf i).pc + 2 * (i.lits.length + 1)) % 2 ^ 40) (pendOf (s.copyOf i).pc as)) := by
  obtain ⟨y, n, hm, hu⟩ := h.run_eq ho has hop
  have hypc : y.old.pc = (s.copyOf i).pc := (congrArg KCopy.pc hm.old :)
  obtain ⟨hframe, j, hcopies, hj⟩ := y.complete_frame n (hk.of_bare hm.bare) ((congrArg KCopy.la hm.old :).trans h.idle.la)
    (congrArg KX.trap hm.core :) (hm.pmc h)
  generalize (y.passed n).complete = u at hu hframe hcopies
  rw [hm.t] at hframe hcopies
  rw [hm.arith, hypc, hm.next, KCopy.ended_bare hm.bare] at hj
  rw [hm.frame.copies, hm.copy] at hcopies
  have hjcopy : u.copyOf i = j := by
    rw [State.copyOf, hcopies, getD_setAt _ _ _ _ (s.copy_lt_of_can _ _ h.can)]
  have hsteps : (u.copyOf i).steps = none := by
    rw [hjcopy]
    exact (congrArg KCopy.steps hj :).trans ((k.ended_steps _ _).trans hk.steps)
  rw [hu, State.stepEnd_of_none _ _ _ hsteps]
  exact ⟨hm.frame.toTileFrame.trans hframe, by rw [hjcopy]; exact hj, by rw [hjcopy]; exact hcopies⟩

end

/-- The command `c` is the bundle of the plain op `o` alone, and a calm module's copy `k` executes it with nothing else to do. -/
structure Sole (c : Instr) (i : Issue) (o : KOp) (s : State) (k : KCopy) : Prop where
  meaning : exec c s = run c.wf (fun s => kRun i o s) s
  wf : c.wf = true
  calm : s.calm = true
  solo : s.solo i o = true
  copy : s.copyOf i = k
  plain : plainOp o = true

/-- A command whose meaning is the bundle of one plain op completes as its bundle ends. -/
theorem Sole.took {c : Instr} {i : Issue} {o : KOp} {s : State} {k : KCopy} (h : Sole c i o s k) (j : KCopy) (as : List Nat)
    (has : as = [] ∨ bit k.status 1 = false) (hj : j.Clear)
    (hop : ∀ x : KX, x.core = (s.soleX i o).core → ∃ y, x.op o = .ok y ∧ CopyFrame i.tile x.s y.s ∧ y.core = { x.core with k := j.bare, arith := as }) :
    Completes c s fun u => Took i s u (j.ended ((k.pc + 2 * (i.lits.length + 1)) % 2 ^ 40) (pendOf k.pc as)) := by
  obtain ⟨hc, hwf, hcalm, hsolo, rfl, ho⟩ := h
  obtain ⟨hf, hcopy⟩ := (s.solo_iff i o hsolo).took ho has hj hop
  refine ⟨kRun i o s, ?_, hcopy, hf.kept, hf.others, hf.regs, hf.rest⟩
  rw [hc, hwf]
  exact run_of_calm _ s hcalm (State.quiet_of_calm _ (hf.calm hcalm))

end Sys2Proof.Machine
end

section
namespace Sys2Proof.Machine

/-! The stack rules of an op in an idle copy: what it pops, what it pushes. -/

/-- The record with `n` entries taken off. -/
def KX.dropped (x : KX) (n : Nat) : KX := { x with k := { x.k with depth := x.k.depth - n } }

/-- The copy with words written at some positions, another DEPTH, STATUS and predicates: KCopy.after without what ends the bundle. -/
def KCopy.wrote (k : KCopy) (depth : Nat) (ws : List (Nat × Nat × Bool)) (status preds : Nat) : KCopy :=
  { k with file := ws.foldl (fun f w => sput fileZero (w.1 % 256) (w.2.1 % 2 ^ 32, w.2.2) f) k.file, depth := depth, status := status, preds := preds }

theorem KCopy.wrote_bare (k : KCopy) (depth : Nat) (ws : List (Nat × Nat × Bool)) (st ps : Nat) :
    (k.wrote depth ws st ps).bare = k.bare.wrote depth ws st ps := rfl

theorem KCopy.shadowTick_of_empty (k : KCopy) (h : k.shadow = []) : k.shadowTick = k := by
  obtain ⟨⟩ := k
  dsimp only at h
  subst h
  rfl

/-- How a bundle ends that writes some words, sticky bits and predicates. -/
theorem KCopy.ended_wrote (k : KCopy) (depth : Nat) (ws : List (Nat × Nat × Bool)) (st ps pc : Nat) (pend : Option ArithE) (h : k.shadow = []) :
    (k.wrote depth ws st ps).ended pc pend = { k.after depth ws pc with status := st, preds := ps, arith := pend } := by
  rw [KCopy.ended, KCopy.shadowTick_of_empty { k.wrote depth ws st ps with pc := pc, arith := pend } h]
  simp only [KCopy.after, KCopy.lowFollow_eq]
  rfl

theorem KX.dropped_top (x : KX) (n : Nat) (hn : n ≤ x.k.depth) : (x.dropped n).k.top = x.k.top - n := by
  simp only [KX.dropped, KCopy.top]; omega

theorem KX.dropped_idle (x : KX) (n : Nat) (h : x.k.Idle) : (x.dropped n).k.Idle :=
  ⟨h.shadow, h.ext, h.divI, h.divF, h.latI, h.latF, h.arith, h.remain, h.waiting, h.steps, h.la⟩

theorem KCopy.wrote_idle (k : KCopy) (depth : Nat) (ws : List (Nat × Nat × Bool)) (st ps : Nat) (h : k.Idle) : (k.wrote depth ws st ps).Idle :=
  ⟨h.shadow, h.ext, h.divI, h.divF, h.latI, h.latF, h.arith, h.remain, h.waiting, h.steps, h.la⟩

/-- A predicate is set among those kept; P0 is not. -/
theorem KCopy.setPred_eq (k : KCopy) (n : Nat) (b : Bool) : k.setPred n b = { k with preds := if n = 0 then k.preds else setBit k.preds n b } := by
  unfold KCopy.setPred; split <;> rfl

/-- The entry under `n` dropped ones is taken off. -/
theorem KX.pop_dropped (x : KX) (n : Nat) (h : x.k.Idle) (hn : n < x.k.depth) :
    (x.dropped n).pop = .ok (x.k.entry (x.k.top - (n + 1)), x.dropped (n + 1)) := by
  have hp : (x.dropped n).k.pendingAt (x.dropped n).topPos = false := h.pendingAt _
  have ht : (x.dropped n).topPos = x.k.top - (n + 1) := by
    simp only [KX.topPos, KX.dropped, KCopy.top]; omega
  rw [KX.pop, hp, ht]
  rfl

/-- The record of a bundle with another copy. -/
def KX.withCopy (x : KX) (k : KCopy) : KX := { x with k := k }

theorem KX.push_eq (x : KX) (v : Nat) (p : Bool) (h : x.k.Idle) :
    x.push v p = .ok (x.withCopy (x.k.wrote (x.k.depth + 1) [(x.k.top, v, p)] x.k.status x.k.preds)) := by
  have hs : x.k.shadow.filter (fun e => e.pos != x.k.top) = x.k.shadow := by rw [h.shadow]; rfl
  simp only [KX.push, KX.write, h.pendingAt, Bool.false_eq_true, if_false, bind, Except.bind, KCopy.put, hs]
  rfl

/-- Notes of flags and exceptions leave a record that pushes on. -/
theorem KX.note_eq (x : KX) (v : Val) : x.note v = { x with k := { x.k with status := x.k.status ||| v.2.1.bits }, arith := x.arith ++ v.2.2.toList } := by
  obtain ⟨w, f, e⟩ := v
  cases e <;> simp [KX.note, KX.flags, KX.raiseArith, FFlags.bits]

/-- The result of an op that has taken `n` entries off. -/
theorem KX.result_dropped (x : KX) (o : KOp) (n : Nat) (v : Val) (p : Bool) (h : x.k.Idle) (hn : n ≤ x.k.depth) :
    ∃ y, (x.dropped n).result o v p = .ok y ∧ y.s = x.s ∧
      y.core = { x.core with k := (x.k.wrote (x.k.depth - n + 1) [(x.k.top - n, v.1, p)] (x.k.status ||| v.2.1.bits) x.k.preds).bare
                             arith := x.arith ++ v.2.2.toList } := by
  have hi : ((x.dropped n).note v).k.Idle := by
    rw [KX.note_eq]
    exact ((x.dropped n).k.wrote_idle _ [] _ (x.dropped n).k.preds (x.dropped_idle n h) :)
  have ht : ((x.dropped n).note v).k.top = x.k.top - n := by
    rw [KX.note_eq]
    exact x.dropped_top n hn
  have hscored : ∀ (z : KX) p, (z.scored o.lat p).core = z.core ∧ (z.scored o.lat p).s = z.s := fun z p => by
    unfold KX.scored; split <;> exact ⟨rfl, rfl⟩
  unfold KX.result
  rw [KX.push_eq _ _ _ hi, ht]
  refine ⟨_, rfl, ?_, ?_⟩
  · rw [(hscored _ _).2, KX.note_eq]; rfl
  · rw [(hscored _ _).1, KX.note_eq]; rfl

/-- The copy that an issue names holds what its op needs. -/
theorem Solo.need_le {s : State} {i : Issue} {o : KOp} (h : Solo s i o) (ho : plainOp o = true) : o.eff.need ≤ (s.copyOf i).depth := by
  obtain ⟨w, hw⟩ := (s.soleY i o).room_of_resident o ho h.idle h.resident
  exact (winCheck_one _ _ _ _ hw.window).1

section
variable {c : Instr} {i : Issue} {o : KOp} {s : State} {k : KCopy}

theorem Sole.need_le (h : Sole c i o s k) : o.eff.need ≤ k.depth := h.copy ▸ (s.solo_iff i o h.solo).need_le h.plain

theorem Sole.idle (h : Sole c i o s k) : k.Idle := h.copy ▸ (s.solo_iff i o h.solo).idle

/-- The record of a bundle as its op `o` alone finds it: an idle copy whose program state is that of `k`. -/
structure KX.Ready (x : KX) (o : KOp) (k : KCopy) : Prop where
  bare : x.k.bare = k.bare
  old : x.old.bare = k.bare
  arith : x.arith = []
  idle : x.k.Idle
  need : o.eff.need ≤ x.k.depth

theorem KX.Ready.depth {x : KX} (h : x.Ready o k) : x.k.depth = k.depth := (congrArg KCopy.depth h.bare :)
theorem KX.Ready.top {x : KX} (h : x.Ready o k) : x.k.top = k.top := (congrArg KCopy.top h.bare :)
theorem KX.Ready.entry {x : KX} (h : x.Ready o k) (p : Nat) : x.k.entry p = k.entry p := (congrArg (fun c : KCopy => c.entry p) h.bare :)
theorem KX.Ready.status {x : KX} (h : x.Ready o k) : x.k.status = k.status := (congrArg KCopy.status h.bare :)
theorem KX.Ready.preds {x : KX} (h : x.Ready o k) : x.k.preds = k.preds := (congrArg KCopy.preds h.bare :)
theorem KX.Ready.ftz {x : KX} (h : x.Ready o k) : x.ftz = bit k.status 2 := (congrArg (fun c : KCopy => bit c.status 2) h.old :)

/-- What a command does whose op writes words, STATUS and predicates: what the op does in every record that is ready for it. -/
theorem Sole.wrote (h : Sole c i o s k) (depth : Nat) (ws : List (Nat × Nat × Bool)) (st ps : Nat) (as : List Nat) (has : as = [] ∨ bit k.status 1 = false)
    (hop : ∀ x : KX, x.Ready o k → ∃ y, x.op o = .ok y ∧ y.s = x.s ∧ y.core = { x.core with k := (x.k.wrote depth ws st ps).bare, arith := as }) :
    Completes c s fun u => Took i s u { k.after depth ws ((k.pc + 2 * (i.lits.length + 1)) % 2 ^ 40) with
      status := st, preds := ps, arith := pendOf k.pc as } := by
  have hi := h.idle
  rw [← KCopy.ended_wrote _ _ _ _ _ _ _ hi.shadow]
  refine h.took _ as has ⟨hi.arith, hi.waiting, hi.steps⟩ fun x hx => ?_
  have hk : x.k.bare = k.bare := h.copy ▸ (congrArg KX.k hx :)
  have hold : x.old.bare = k.bare := h.copy ▸ (congrArg KX.old hx :)
  have hd : x.k.depth = k.depth := (congrArg KCopy.depth hk :)
  obtain ⟨y, hy, hys, hyc⟩ := hop x ⟨hk, hold, (congrArg KX.arith hx :), hi.of_bare hk, hd ▸ h.need_le⟩
  refine ⟨y, hy, hys ▸ .refl _ _, ?_⟩
  rw [hyc, KCopy.wrote_bare, KCopy.wrote_bare, hk]

end

end Sys2Proof.Machine
end

section
namespace Sys2Proof.Machine

/-! Ops that take words off and push one value. -/

theorem KCopy.after_preds (k : KCopy) (d : Nat) (ws : List (Nat × Nat × Bool)) (pc : Nat) : (k.after d ws pc).preds = k.preds := by
  simp only [KCopy.after, KCopy.lowFollow_eq]

theorem KCopy.after_arith (k : KCopy) (d : Nat) (ws : List (Nat × Nat × Bool)) (pc : Nat) : (k.after d ws pc).arith = k.arith := by
  simp only [KCopy.after, KCopy.lowFollow_eq]

theorem KCopy.after_status (k : KCopy) (d : Nat) (ws : List (Nat × Nat × Bool)) (pc : Nat) : (k.after d ws pc).status = k.status := by
  simp only [KCopy.after, KCopy.lowFollow_eq]

section
variable {c : Instr} {i : Issue} {s : State} {k : KCopy}

/-- What a command does whose op takes `n` entries off and pushes the value `v`. -/
theorem Sole.value {o : KOp} (h : Sole c i o s k) (n : Nat) (v : Val) (p : Bool) (hn : n ≤ o.eff.need) (hv : v.2.2 = none ∨ bit k.status 1 = false)
    (hop : ∀ x : KX, x.Ready o k → x.op o = (x.dropped n).result o v p) :
    Completes c s fun u => Took i s u { k.after (k.depth - n + 1) [(k.top - n, v.1, p)] ((k.pc + 2 * (i.lits.length + 1)) % 2 ^ 40) with
      status := k.status ||| v.2.1.bits, arith := pendOf k.pc v.2.2.toList } := by
  have hw := h.wrote (k.depth - n + 1) [(k.top - n, v.1, p)] (k.status ||| v.2.1.bits) k.preds v.2.2.toList (hv.imp (fun e => by rw [e]; rfl) id)
    fun x hx => by
      obtain ⟨y, hy, hys, hyc⟩ := x.result_dropped o n v p hx.idle (Nat.le_trans hn hx.need)
      refine ⟨y, (hop x hx).trans hy, hys, ?_⟩
      rw [hyc, hx.depth, hx.top, hx.status, hx.preds, hx.arith, List.nil_append]
  rwa [← k.after_preds (k.depth - n + 1) [(k.top - n, v.1, p)] ((k.pc + 2 * (i.lits.length + 1)) % 2 ^ 40)] at hw

/-- The entry under `n` dropped ones is taken off. -/
theorem KX.Ready.pop {o : KOp} {x : KX} (h : x.Ready o k) (n : Nat) (hn : n < o.eff.need) {a : Nat} {ap : Bool} (ha : k.entry (k.top - (n + 1)) = (a, ap)) :
    (x.dropped n).pop = .ok ((a, ap), x.dropped (n + 1)) := by
  rw [x.pop_dropped n h.idle (Nat.lt_of_lt_of_le hn h.need), h.entry, h.top, ha]

theorem Sole.un {o : UnOp} (h : Sole c i (.un o) s k) (ho : o ≠ .fsqrt) {a : Nat} {ap : Bool} (ha : k.entry (k.top - 1) = (a, ap))
    {v : Val} (hv : unVal (bit k.status 2) o a = v) (he : v.2.2 = none ∨ bit k.status 1 = false) :
    Completes c s fun u => Took i s u { k.after k.depth [(k.top - 1, v.1, ap)] ((k.pc + 2 * (i.lits.length + 1)) % 2 ^ 40) with
      status := k.status ||| v.2.1.bits, arith := pendOf k.pc v.2.2.toList } := by
  have hd : 1 ≤ k.depth := h.need_le
  have hval := h.value 1 v ap (Nat.le_refl _) he fun x hx => by
    have h1 : x.pop = .ok ((a, ap), x.dropped 1) := hx.pop 0 Nat.one_pos ha
    have hf : (x.dropped 1).ftz = bit k.status 2 := hx.ftz
    simp only [KX.op, bind, Except.bind, h1, hf, hv, ho, if_false]
  rwa [Nat.sub_add_cancel hd] at hval

theorem Sole.bin {o : BinOp} (h : Sole c i (.bin o) s k) (ho : o.divider = 0) {a : Nat} {ap : Bool} {b : Nat} {bp : Bool}
    (ha : k.entry (k.top - 2) = (a, ap)) (hb : k.entry (k.top - 1) = (b, bp)) {v : Val} (hv : binVal (bit k.status 2) o a b = v)
    (he : v.2.2 = none ∨ bit k.status 1 = false) :
    Completes c s fun u => Took i s u { k.after (k.depth - 1) [(k.top - 2, v.1, ap || bp)] ((k.pc + 2 * (i.lits.length + 1)) % 2 ^ 40) with
      status := k.status ||| v.2.1.bits, arith := pendOf k.pc v.2.2.toList } := by
  have hd : 2 ≤ k.depth := h.need_le
  have hval := h.value 2 v (ap || bp) (Nat.le_refl _) he fun x hx => by
    have h1 : x.pop = .ok ((b, bp), x.dropped 1) := hx.pop 0 Nat.two_pos hb
    have h2 := hx.pop 1 Nat.one_lt_two ha
    have hf : (x.dropped 2).ftz = bit k.status 2 := hx.ftz
    simp only [KX.op, bind, Except.bind, h1, h2, hf, hv, ho, if_true]
  rwa [show k.depth - 2 + 1 = k.depth - 1 by omega] at hval

theorem Sole.tern {o : TernOp} (h : Sole c i (.tern o) s k) {a : Nat} {ap : Bool} {b : Nat} {bp : Bool} {d : Nat} {dp : Bool}
    (ha : k.entry (k.top - 3) = (a, ap)) (hb : k.entry (k.top - 2) = (b, bp)) (hd : k.entry (k.top - 1) = (d, dp))
    {v : Val} (hv : ternVal (bit k.status 2) o a b d = v) (he : v.2.2 = none ∨ bit k.status 1 = false) :
    Completes c s fun u => Took i s u { k.after (k.depth - 2) [(k.top - 3, v.1, ap || bp || dp)] ((k.pc + 2 * (i.lits.length + 1)) % 2 ^ 40) with
      status := k.status ||| v.2.1.bits, arith := pendOf k.pc v.2.2.toList } := by
  have hdep : 3 ≤ k.depth := h.need_le
  have hval := h.value 3 v (ap || bp || dp) (Nat.le_refl _) he fun x hx => by
    have h1 : x.pop = .ok ((d, dp), x.dropped 1) := hx.pop 0 (by decide : 0 < 3) hd
    have h2 := hx.pop 1 (by decide : 1 < 3) hb
    have h3 := hx.pop 2 (by decide : 2 < 3) ha
    have hf : (x.dropped 3).ftz = bit k.status 2 := hx.ftz
    simp only [KX.op, bind, Except.bind, h1, h2, h3, hf, hv]
  rwa [show k.depth - 3 + 1 = k.depth - 2 by omega] at hval

end

end Sys2Proof.Machine
end

section
namespace Sys2Proof.Machine

/-! Q1.31 values (spec/11 R354). -/

/-- A pattern read as signed is its bit vector read as signed. -/
theorem toS_eq (w v : Nat) : toS w v = (BitVec.ofNat w v).toInt := by
  simp only [toS, BitVec.toInt_eq_toNat_cond, BitVec.toNat_ofNat]
  norm_cast

theorem s32_eq (a : Nat) : s32 a = (BitVec.ofNat 32 a).toInt := toS_eq 32 a

theorem ofS_eq (x : Int) : ofS 32 x = (BitVec.ofInt 32 x).toNat := by
  rw [ofS, BitVec.toNat_ofInt]
  rfl

theorem Val.sat_word (x : Int) : (Val.sat x).1 = (BitVec.ofInt 32 (max (-2 ^ 31) (min (2 ^ 31 - 1) x))).toNat := ofS_eq _

/-- A value held at a bound, and no other, sets SAT. -/
theorem Val.sat_bits (x : Int) : (Val.sat x).2.1.bits = if x < -2 ^ 31 ∨ 2 ^ 31 ≤ x then 2 ^ 8 else 0 := by
  have hsat : satS 32 x ≠ x ↔ x < -2 ^ 31 ∨ 2 ^ 31 ≤ x := by
    simp only [satS]; omega
  by_cases h : x < -2 ^ 31 ∨ 2 ^ 31 ≤ x
  · simp only [Val.sat, FFlags.bits, decide_eq_true (hsat.2 h), if_pos h]
    rfl
  · simp only [Val.sat, FFlags.bits, decide_eq_false (mt hsat.1 h), if_neg h]
    rfl

theorem fdiv2_31 (x : Int) : fdiv2 x 31 = x / 2 ^ 31 := rfl

/-- The copy of an op that pushes a saturated value: the value held, SAT set where it is. -/
theorem KCopy.after_sat (k : KCopy) (hi : k.Idle) (d p : Nat) (pois : Bool) (pc pc' : Nat) (x : Int) :
    ({ k.after d [(p, (Val.sat x).1, pois)] pc with status := k.status ||| (Val.sat x).2.1.bits, arith := pendOf pc' (Val.sat x).2.2.toList } : KCopy) =
      { k.after d [(p, (BitVec.ofInt 32 (max (-2 ^ 31) (min (2 ^ 31 - 1) x))).toNat, pois)] pc with
        status := k.status ||| if x < -2 ^ 31 ∨ 2 ^ 31 ≤ x then 2 ^ 8 else 0 } := by
  have ha : (k.after d [(p, (Val.sat x).1, pois)] pc).arith = none := (k.after_arith _ _ _).trans hi.arith
  rw [← Val.sat_word, ← Val.sat_bits, show pendOf pc' (Val.sat x).2.2.toList = none from rfl, ← ha]

/-! Conversion from binary32 to Q1.31 (spec/12 CVTFQ). -/

/-- Rounding reaches a number from halfway below it on: an even one from the tie itself, an odd one from above it. -/
theorem le_rneShift_iff (n k N : Nat) : N ≤ rneShift n k ↔ 2 * (2 ^ k * N) + N % 2 ≤ 2 * n + 2 ^ k := by
  have hP := Nat.two_pow_pos k
  unfold rneShift
  extract_lets q r
  have hn : 2 ^ k * q + r = n := Nat.div_add_mod n (2 ^ k)
  have hr : r < 2 ^ k := Nat.mod_lt n hP
  clear_value q r
  generalize 2 ^ k = P at *
  rcases Nat.lt_trichotomy (q + 1) N with h | h | h
  · have := Nat.mul_le_mul_left P h
    rw [Nat.mul_succ, Nat.mul_succ] at this
    split <;> omega
  · have : P * N = P * q + P := by rw [← h, Nat.mul_succ]
    split <;> omega
  · have := Nat.mul_le_mul_left P (Nat.le_of_lt_succ h)
    split <;> omega

/-- The three kinds of pattern, as decoding and the tests of the exponent tell them apart. -/
theorem fDecode_cases (x : Nat) : (fDecode x = .nan ∧ fIsInf x = false ∧ fIsFinite x = false) ∨ (∃ neg, fDecode x = .inf neg ∧ fIsInf x = true) ∨
    ∃ neg m e, fDecode x = .fin neg m e ∧ fIsInf x = false ∧ fIsFinite x = true := by
  by_cases he : fExp x = 255
  · by_cases hm : fMan x = 0
    · exact .inr (.inl ⟨fSign x, by simp [fDecode, fIsNaN, fIsInf, he, hm]⟩)
    · exact .inl (by simp [fDecode, fIsNaN, fIsInf, fIsFinite, he, hm])
  · refine .inr (.inr ?_)
    by_cases h0 : fExp x = 0 <;> simp [fDecode, fIsNaN, fIsInf, fIsFinite, he, h0]

/-- The size of a number `±m × 2^e`. -/
def dySize (m : Nat) (e : Int) : Rat := if 0 ≤ e then ((m * 2 ^ e.toNat : Nat) : Rat) else (m : Rat) / ((2 ^ (-e).toNat : Nat) : Rat)

/-- A finite pattern stands for `±m × 2^e`. -/
theorem fToRat_fin (x : Nat) (neg : Bool) (m : Nat) (e : Int) (h : fDecode x = .fin neg m e) :
    fToRat x = if neg then -dySize m e else dySize m e := by
  simp only [fToRat, h]
  rfl

theorem two_pow_cast_pos (k : Nat) : (0 : Rat) < ((2 ^ k : Nat) : Rat) := Rat.natCast_lt_natCast.2 (Nat.two_pow_pos k)

/-- A size is the quotient of two whole numbers, one of which is a power of 2. -/
theorem dySize_mul (m : Nat) (e : Int) : dySize m e * ((2 ^ (-e).toNat : Nat) : Rat) = ((m * 2 ^ e.toNat : Nat) : Rat) := by
  unfold dySize
  split
  next h =>
    rw [show (-e).toNat = 0 by omega, Nat.pow_zero]
    exact Rat.mul_one _
  next h =>
    rw [show e.toNat = 0 by omega, Nat.pow_zero, Nat.mul_one]
    exact Rat.div_mul_cancel (Rat.ne_of_gt (two_pow_cast_pos _))

/-- The exponent 31 more makes a number 2^31 times as large. -/
theorem dySize_scale (m : Nat) (e : Int) : dySize m e * 2 ^ 31 = dySize m (e + 31) := by
  have h := dySize_mul m e
  have h' := dySize_mul m (e + 31)
  have hpow : m * 2 ^ e.toNat * 2 ^ 31 * 2 ^ (-(e + 31)).toNat = m * 2 ^ (e + 31).toNat * 2 ^ (-e).toNat := by
    rw [Nat.mul_assoc, Nat.mul_assoc, Nat.mul_assoc, ← Nat.pow_add, ← Nat.pow_add, ← Nat.pow_add]
    congr 2
    omega
  have hcast := congrArg (Nat.cast : Nat → Rat) hpow
  rw [Rat.natCast_mul, Rat.natCast_mul, Rat.natCast_mul (m * _), Rat.natCast_pow 2 31, ← h, ← h'] at hcast
  have hP := two_pow_cast_pos (-e).toNat
  have hQ := two_pow_cast_pos (-(e + 31)).toNat
  generalize ((2 ^ (-e).toNat : Nat) : Rat) = P at *
  generalize ((2 ^ (-(e + 31)).toNat : Nat) : Rat) = Q at *
  generalize dySize m e = x at *
  generalize dySize m (e + 31) = y at *
  have hx : x * 2 ^ 31 * (P * Q) = y * (P * Q) := by grind
  have hne : P * Q ≠ 0 := Rat.ne_of_gt (Rat.mul_pos hP hQ)
  rw [← Rat.mul_div_cancel hne (a := x * 2 ^ 31), hx, Rat.mul_div_cancel hne]

/-- What a number is rounded to: the nearest whole number to its size, with its sign. -/
theorem dyToInt_eq (neg : Bool) (m : Nat) (e : Int) : (dyToInt neg m e).1 = sgn neg (rneShift (m * 2 ^ e.toNat) (-e).toNat) := by
  unfold dyToInt
  split
  next h =>
    rw [show (-e).toNat = 0 by omega]
    simp [rneShift, Nat.mod_one]
  next h =>
    rw [show e.toNat = 0 by omega, Nat.pow_zero, Nat.mul_one]

/-- Rounding reaches an even number from the tie halfway below it on. -/
theorem le_rneShift_of_even (n k N : Nat) (v : Rat) (hv : v * ((2 ^ k : Nat) : Rat) = (n : Rat)) (hN : N % 2 = 0) :
    (N : Rat) - 1 / 2 ≤ v ↔ N ≤ rneShift n k := by
  have hP := two_pow_cast_pos k
  rw [le_rneShift_iff, hN, ← Rat.natCast_le_natCast, ← Rat.not_lt, ← Rat.not_lt, ← Rat.mul_lt_mul_right hP, hv]
  simp only [Rat.natCast_add, Rat.natCast_mul]
  generalize ((2 ^ k : Nat) : Rat) = P at *
  grind

/-- Rounding reaches an odd number from above the tie halfway below it on. -/
theorem le_rneShift_of_odd (n k N : Nat) (v : Rat) (hv : v * ((2 ^ k : Nat) : Rat) = (n : Rat)) (hN : N % 2 = 1) :
    (N : Rat) - 1 / 2 < v ↔ N ≤ rneShift n k := by
  have hP := two_pow_cast_pos k
  rw [le_rneShift_iff, hN, Nat.succ_le_iff, ← Rat.natCast_lt_natCast, ← Rat.mul_lt_mul_right hP, hv]
  simp only [Rat.natCast_add, Rat.natCast_mul]
  generalize ((2 ^ k : Nat) : Rat) = P at *
  grind

theorem dySize_nonneg (m : Nat) (e : Int) : 0 ≤ dySize m e := by
  have h := dySize_mul m e
  have hP := two_pow_cast_pos (-e).toNat
  refine Rat.le_of_mul_le_mul_right ?_ hP
  rw [h, Rat.zero_mul]
  exact Rat.natCast_nonneg

/-- A number of sign `neg` rounded to size `r` from size `v` lies outside where the ends of its range do. -/
theorem sgn_outside_iff (neg : Bool) (r : Nat) (v : Rat) (hv : 0 ≤ v) (hup : 2 ^ 31 - 1 / 2 ≤ v ↔ 2 ^ 31 ≤ r) (hdown : 2 ^ 31 + 1 - 1 / 2 < v ↔ 2 ^ 31 + 1 ≤ r) :
    (sgn neg r < -(2 ^ 31) ∨ 2 ^ 31 - 1 < sgn neg r) ↔ ((if neg then -v else v) < -(2 ^ 31) - 1 / 2 ∨ 2 ^ 31 - 1 / 2 ≤ if neg then -v else v) := by
  cases neg with
  | false =>
    have hr : ¬ (v < -(2 ^ 31) - 1 / 2) := by grind
    simp only [sgn, Bool.false_eq_true, if_false, or_iff_right hr]
    rw [hup]
    omega
  | true =>
    have hr : ¬ (2 ^ 31 - 1 / 2 ≤ -v) := by grind
    have hd : -v < -(2 ^ 31) - 1 / 2 ↔ 2 ^ 31 + 1 - 1 / 2 < v := by grind
    simp only [sgn, if_true, or_iff_left hr]
    rw [hd, hdown]
    omega

/-- Rounding leaves the range of Q1.31 just where the exact value lies outside of what rounds into it: a tie at the upper end rounds to
2^31, which is even, and one at the lower end to −2^31. -/
theorem dyToInt_outside (neg : Bool) (m : Nat) (e : Int) : ((dyToInt neg m e).1 < -(2 ^ 31) ∨ 2 ^ 31 - 1 < (dyToInt neg m e).1) ↔
    ((if neg then -dySize m e else dySize m e) < -(2 ^ 31) - 1 / 2 ∨ 2 ^ 31 - 1 / 2 ≤ if neg then -dySize m e else dySize m e) := by
  have hup := le_rneShift_of_even _ _ (2 ^ 31) _ (dySize_mul m e) rfl
  have hdown := le_rneShift_of_odd _ _ (2 ^ 31 + 1) _ (dySize_mul m e) rfl
  rw [Rat.natCast_pow] at hup
  rw [Rat.natCast_add, Rat.natCast_pow] at hdown
  rw [dyToInt_eq]
  exact sgn_outside_iff neg _ _ (dySize_nonneg m e) hup hdown

/-- A conversion to Q1.31 sets SAT on an infinity and where the rounded value lies outside. -/
theorem fToQ_sat_iff (ftz : Bool) (a : Nat) : (fToQ ftz a).2.sat = true ↔ fIsInf (fFlushIn ftz a) = true ∨ fIsFinite (fFlushIn ftz a) = true ∧
    (fToRat (fFlushIn ftz a) * 2 ^ 31 < -(2 ^ 31) - 1 / 2 ∨ 2 ^ 31 - 1 / 2 ≤ fToRat (fFlushIn ftz a) * 2 ^ 31) := by
  unfold fToQ
  generalize fFlushIn ftz a = x
  rcases fDecode_cases x with ⟨hd, hi, hf⟩ | ⟨neg, hd, hi⟩ | ⟨neg, m, e, hd, hi, hf⟩
  · simp [hd, hi, hf]
  · simp [hd, hi]
  · have hr : fToRat x * 2 ^ 31 = if neg then -dySize m (e + 31) else dySize m (e + 31) := by
      rw [fToRat_fin x neg m e hd, ← dySize_scale]
      cases neg
      · rfl
      · exact Rat.neg_mul _ _
    rw [hr, ← dyToInt_outside, hd]
    simp only [hi, hf, Bool.false_eq_true, false_or, true_and]
    split <;> simp_all

end Sys2Proof.Machine
end

section
namespace Sys2Proof.Machine

/-! The saturating ops: each pushes one exact value held to Q1.31 (spec/11 R354). -/

section
variable {c : Instr} {i : Issue} {s : State} {k : KCopy}

theorem Sole.un_sat {o : UnOp} (h : Sole c i (.un o) s k) (ho : o ≠ .fsqrt) {a : Nat} {ap : Bool} (ha : k.entry (k.top - 1) = (a, ap))
    {x : Int} (hv : unVal (bit k.status 2) o a = Val.sat x) :
    Completes c s fun u => Took i s u { k.after k.depth [(k.top - 1, (BitVec.ofInt 32 (max (-2 ^ 31) (min (2 ^ 31 - 1) x))).toNat, ap)]
      ((k.pc + 2 * (i.lits.length + 1)) % 2 ^ 40) with status := k.status ||| if x < -2 ^ 31 ∨ 2 ^ 31 ≤ x then 2 ^ 8 else 0 } := by
  rw [← k.after_sat h.idle k.depth (k.top - 1) ap _ k.pc x]
  exact h.un ho ha hv (.inl rfl)

theorem Sole.bin_sat {o : BinOp} (h : Sole c i (.bin o) s k) (ho : o.divider = 0) {a : Nat} {ap : Bool} {b : Nat} {bp : Bool}
    (ha : k.entry (k.top - 2) = (a, ap)) (hb : k.entry (k.top - 1) = (b, bp)) {x : Int} (hv : binVal (bit k.status 2) o a b = Val.sat x) :
    Completes c s fun u => Took i s u { k.after (k.depth - 1) [(k.top - 2, (BitVec.ofInt 32 (max (-2 ^ 31) (min (2 ^ 31 - 1) x))).toNat, ap || bp)]
      ((k.pc + 2 * (i.lits.length + 1)) % 2 ^ 40) with status := k.status ||| if x < -2 ^ 31 ∨ 2 ^ 31 ≤ x then 2 ^ 8 else 0 } := by
  rw [← k.after_sat h.idle (k.depth - 1) (k.top - 2) (ap || bp) _ k.pc x]
  exact h.bin ho ha hb hv (.inl rfl)

theorem Sole.tern_sat {o : TernOp} (h : Sole c i (.tern o) s k) {a : Nat} {ap : Bool} {b : Nat} {bp : Bool} {d : Nat} {dp : Bool}
    (ha : k.entry (k.top - 3) = (a, ap)) (hb : k.entry (k.top - 2) = (b, bp)) (hd : k.entry (k.top - 1) = (d, dp))
    {x : Int} (hv : ternVal (bit k.status 2) o a b d = Val.sat x) :
    Completes c s fun u => Took i s u { k.after (k.depth - 2) [(k.top - 3, (BitVec.ofInt 32 (max (-2 ^ 31) (min (2 ^ 31 - 1) x))).toNat, ap || bp || dp)]
      ((k.pc + 2 * (i.lits.length + 1)) % 2 ^ 40) with status := k.status ||| if x < -2 ^ 31 ∨ 2 ^ 31 ≤ x then 2 ^ 8 else 0 } := by
  rw [← k.after_sat h.idle (k.depth - 2) (k.top - 3) (ap || bp || dp) _ k.pc x]
  exact h.tern ha hb hd hv (.inl rfl)

end

theorem binVal_qadd (ftz : Bool) (a b : Nat) : binVal ftz .qadd a b = Val.sat ((BitVec.ofNat 32 a).toInt + (BitVec.ofNat 32 b).toInt) := by
  rw [← s32_eq, ← s32_eq]; rfl

theorem binVal_qsub (ftz : Bool) (a b : Nat) : binVal ftz .qsub a b = Val.sat ((BitVec.ofNat 32 a).toInt - (BitVec.ofNat 32 b).toInt) := by
  rw [← s32_eq, ← s32_eq]; rfl

theorem binVal_qmul (ftz : Bool) (a b : Nat) :
    binVal ftz .qmul a b = Val.sat (((BitVec.ofNat 32 a).toInt * (BitVec.ofNat 32 b).toInt + 2 ^ 30) / 2 ^ 31) := by
  rw [← s32_eq, ← s32_eq, ← fdiv2_31]; rfl

theorem unVal_qneg (ftz : Bool) (a : Nat) : unVal ftz .qneg a = Val.sat (-(BitVec.ofNat 32 a).toInt) := by
  rw [← s32_eq]; rfl

theorem unVal_qabs (ftz : Bool) (a : Nat) : unVal ftz .qabs a = Val.sat ((BitVec.ofNat 32 a).toInt.natAbs : Int) := by
  rw [← s32_eq]; rfl

theorem ternVal_qmac (ftz : Bool) (a b d : Nat) : ternVal ftz .qmac a b d =
    Val.sat (((BitVec.ofNat 32 a).toInt * 2 ^ 31 + (BitVec.ofNat 32 b).toInt * (BitVec.ofNat 32 d).toInt + 2 ^ 30) / 2 ^ 31) := by
  rw [← s32_eq, ← s32_eq, ← s32_eq, ← fdiv2_31]; rfl

/-- −1 × −1 is the one product that lies above the range. -/
theorem binVal_qmul_min : binVal false .qmul 0x80000000 0x80000000 = (0x7FFFFFFF, { sat := true }, none) := rfl

/-- Settles O27: each op pushes the value that `Val.sat` holds, with SAT where it holds it; a conversion saturates where rounding to
even leaves the range. -/
theorem saturatingArithmetic : Obligations.SaturatingArithmetic := by
  unfold Obligations.SaturatingArithmetic
  refine ⟨?qadd, ?qsub, ?qneg, ?qabs, ?qmul, ?qmac, binVal_qmul_min, fun ftz a _ => fToQ_sat_iff ftz a⟩
  case qadd =>
    intro i k a ap b bp s hwf hcalm hsolo hk ha _ hb _
    have h : Sole (.qadd i) i (.bin .qadd) s k := ⟨rfl, hwf, hcalm, hsolo, hk, rfl⟩
    exact h.bin_sat rfl ha hb (binVal_qadd _ a b)
  case qsub =>
    intro i k a ap b bp s hwf hcalm hsolo hk ha _ hb _
    have h : Sole (.qsub i) i (.bin .qsub) s k := ⟨rfl, hwf, hcalm, hsolo, hk, rfl⟩
    exact h.bin_sat rfl ha hb (binVal_qsub _ a b)
  case qneg =>
    intro i k a ap s hwf hcalm hsolo hk ha _
    have h : Sole (.qneg i) i (.un .qneg) s k := ⟨rfl, hwf, hcalm, hsolo, hk, rfl⟩
    exact h.un_sat (by decide) ha (unVal_qneg _ a)
  case qabs =>
    intro i k a ap s hwf hcalm hsolo hk ha _
    have h : Sole (.qabs i) i (.un .qabs) s k := ⟨rfl, hwf, hcalm, hsolo, hk, rfl⟩
    exact h.un_sat (by decide) ha (unVal_qabs _ a)
  case qmul =>
    intro i k a ap b bp s hwf hcalm hsolo hk ha _ hb _
    have h : Sole (.qmul i) i (.bin .qmul) s k := ⟨rfl, hwf, hcalm, hsolo, hk, rfl⟩
    exact h.bin_sat rfl ha hb (binVal_qmul _ a b)
  case qmac =>
    intro i k a ap b bp d dp s hwf hcalm hsolo hk ha _ hb _ hd _
    have h : Sole (.qmac i) i (.tern .qmac) s k := ⟨rfl, hwf, hcalm, hsolo, hk, rfl⟩
    exact h.tern_sat ha hb hd (ternVal_qmac _ a b d)

end Sys2Proof.Machine
end

section
namespace Sys2Proof.Machine

/-! Positions of 64 bits (spec/11 R356): two words, the low one deeper. -/

/-- A difference of two positions, made of their patterns, is that of their bit vectors. -/
theorem ofNat_difference (a b : Nat) (hb : b < 2 ^ 64) : BitVec.ofNat 64 (a + 2 ^ 64 - b) = BitVec.ofNat 64 a - BitVec.ofNat 64 b := by
  apply BitVec.eq_of_toNat_eq
  simp only [BitVec.toNat_ofNat, BitVec.toNat_sub]
  omega

theorem cat32_lt (l h : Nat) (hl : l < 2 ^ 32) (hh : h < 2 ^ 32) : cat32 l h < 2 ^ 64 := by
  unfold cat32; omega

theorem hi32_of_lt (v : Nat) (h : v < 2 ^ 64) : hi32 v = v / 2 ^ 32 := by
  rw [hi32, Nat.shiftRight_eq_div_pow]; omega

theorem KX.push64_eq (x : KX) (v : Nat) (p : Bool) (h : x.k.Idle) :
    x.push64 v p = .ok (x.withCopy (x.k.wrote (x.k.depth + 2) [(x.k.top, lo32 v, p), (x.k.top + 1, hi32 v, p)] x.k.status x.k.preds)) := by
  let k1 := x.k.wrote (x.k.depth + 1) [(x.k.top, lo32 v, p)] x.k.status x.k.preds
  have h1 : x.push (lo32 v) p = .ok (x.withCopy k1) := x.push_eq (lo32 v) p h
  rw [KX.push64, h1]
  exact (x.withCopy k1).push_eq (hi32 v) p (x.k.wrote_idle _ _ _ _ h)

/-- A value of 64 bits pushed where `n` entries have been taken off. -/
theorem KX.push64_dropped (x : KX) (n v : Nat) (p : Bool) (h : x.k.Idle) (hn : n ≤ x.k.depth) :
    ∃ y, (x.dropped n).push64 v p = .ok y ∧ y.s = x.s ∧
      y.core = { x.core with k := (x.k.wrote (x.k.depth - n + 2) [(x.k.top - n, lo32 v, p), (x.k.top - n + 1, hi32 v, p)] x.k.status x.k.preds).bare } := by
  refine ⟨_, (x.dropped n).push64_eq v p (x.dropped_idle n h), rfl, ?_⟩
  rw [x.dropped_top n hn]
  rfl

section
variable {c : Instr} {i : Issue} {s : State} {k : KCopy}

/-- Two entries of 64 bits under `n` dropped ones are taken off as one value. -/
theorem KX.Ready.pop64 {o : KOp} {x : KX} (h : x.Ready o k) (n : Nat) (hn : n + 1 < o.eff.need) {l : Nat} {lp : Bool} {u : Nat} {up : Bool}
    (hl : k.entry (k.top - (n + 2)) = (l, lp)) (hu : k.entry (k.top - (n + 1)) = (u, up)) :
    (x.dropped n).pop64 = .ok ((cat32 l u, lp || up), x.dropped (n + 2)) := by
  have h1 := h.pop n (Nat.lt_of_succ_lt hn) hu
  have h2 := h.pop (n + 1) hn hl
  simp only [KX.pop64, bind, Except.bind, h1, h2]

theorem Sole.angsub (h : Sole c i (.ang true) s k) {al : Nat} {alp : Bool} {ah : Nat} {ahp : Bool} {bl : Nat} {blp : Bool} {bh : Nat} {bhp : Bool}
    (hal : k.entry (k.top - 4) = (al, alp)) (hah : k.entry (k.top - 3) = (ah, ahp)) (hbl : k.entry (k.top - 2) = (bl, blp))
    (hbh : k.entry (k.top - 1) = (bh, bhp)) (hb : cat32 bl bh < 2 ^ 64) :
    Completes c s fun u => Took i s u (k.after (k.depth - 2)
      [(k.top - 4, (BitVec.ofNat 64 (cat32 al ah) - BitVec.ofNat 64 (cat32 bl bh)).toNat % 2 ^ 32, alp || ahp || (blp || bhp)),
       (k.top - 3, (BitVec.ofNat 64 (cat32 al ah) - BitVec.ofNat 64 (cat32 bl bh)).toNat / 2 ^ 32, alp || ahp || (blp || bhp))]
      ((k.pc + 2 * (i.lits.length + 1)) % 2 ^ 40)) := by
  have hd : 4 ≤ k.depth := h.need_le
  rw [← ofNat_difference _ _ hb, BitVec.toNat_ofNat]
  generalize hv : (cat32 al ah + 2 ^ 64 - cat32 bl bh) % 2 ^ 64 = v
  generalize hp : (alp || ahp || (blp || bhp)) = p
  have hlt : v < 2 ^ 64 := hv ▸ Nat.mod_lt _ (by decide)
  have hdep : k.depth - 4 + 2 = k.depth - 2 := by omega
  have htop : k.top - 4 + 1 = k.top - 3 := by simp only [KCopy.top]; omega
  have hw := h.wrote (k.depth - 2) [(k.top - 4, v % 2 ^ 32, p), (k.top - 3, v / 2 ^ 32, p)] k.status k.preds [] (.inl rfl) fun x hx => by
    have h1 : x.pop64 = .ok ((cat32 bl bh, blp || bhp), x.dropped 2) := hx.pop64 0 (by decide : 1 < 4) hbl hbh
    have h2 := hx.pop64 2 (by decide : 3 < 4) hal hah
    obtain ⟨y, hy, hys, hyc⟩ := x.push64_dropped 4 v p hx.idle hx.need
    refine ⟨y, ?_, hys, ?_⟩
    · simp only [KX.op, bind, Except.bind, h1, h2, if_true, hv, hp]
      exact hy
    · rw [hyc, hx.depth, hx.top, hx.status, hx.preds, hdep, htop, hi32_of_lt v hlt, lo32, ← hx.arith]
      rfl
  have harith : pendOf k.pc [] = k.arith := h.idle.arith.symm
  rwa [harith, ← k.after_status, ← k.after_preds, ← k.after_arith] at hw

theorem Sole.angcmp {n : Nat} (h : Sole c i (.angcmp n) s k) {al : Nat} {ah : Nat} {bl : Nat} {bh : Nat}
    (hal : k.entry (k.top - 4) = (al, false)) (hah : k.entry (k.top - 3) = (ah, false)) (hbl : k.entry (k.top - 2) = (bl, false))
    (hbh : k.entry (k.top - 1) = (bh, false)) (hb : cat32 bl bh < 2 ^ 64) :
    Completes c s fun u => Took i s u { k.after (k.depth - 4) [] ((k.pc + 2 * (i.lits.length + 1)) % 2 ^ 40) with
      preds := if n = 0 then k.preds else setBit k.preds n (decide (0 ≤ (BitVec.ofNat 64 (cat32 al ah) - BitVec.ofNat 64 (cat32 bl bh)).toInt)) } := by
  rw [← ofNat_difference _ _ hb, ← toS_eq]
  generalize hq : decide (0 ≤ toS 64 (cat32 al ah + 2 ^ 64 - cat32 bl bh)) = q
  have hw := h.wrote (k.depth - 4) [] k.status (if n = 0 then k.preds else setBit k.preds n q) [] (.inl rfl) fun x hx => by
    have h1 : x.pop64 = .ok ((cat32 bl bh, false), x.dropped 2) := hx.pop64 0 (by decide : 1 < 4) hbl hbh
    have h2 := hx.pop64 2 (by decide : 3 < 4) hal hah
    refine ⟨{ x.dropped 4 with k := (x.dropped 4).k.setPred n q }, ?_, rfl, ?_⟩
    · simp only [KX.op, bind, Except.bind, h1, h2, Bool.or_self, Bool.false_eq_true, if_false, hq]
    · rw [KCopy.setPred_eq, ← hx.depth, ← hx.status, ← hx.preds, ← hx.arith]
      rfl
  have harith : pendOf k.pc [] = k.arith := h.idle.arith.symm
  rwa [harith, ← k.after_status (k.depth - 4) [] ((k.pc + 2 * (i.lits.length + 1)) % 2 ^ 40),
    ← k.after_arith (k.depth - 4) [] ((k.pc + 2 * (i.lits.length + 1)) % 2 ^ 40)] at hw

end

/-- Positions less than 2^31 turns apart differ by their true separation. -/
theorem toInt_difference (x y : Int) (hl : -(2 ^ 63) < x - y) (hu : x - y < 2 ^ 63) : (BitVec.ofInt 64 x - BitVec.ofInt 64 y).toInt = x - y := by
  rw [BitVec.toInt_sub, BitVec.toInt_ofInt, BitVec.toInt_ofInt, Int.sub_bmod_bmod, Int.bmod_sub_bmod]
  exact Int.bmod_eq_of_le (by omega) (by omega)

/-- The low word of a value of 64 bits, read as signed. -/
theorem toInt_low (v : BitVec 64) : (BitVec.ofNat 32 (v.toNat % 2 ^ 32)).toInt = Int.bmod v.toInt (2 ^ 32) := by
  rw [BitVec.toInt_eq_toNat_bmod, BitVec.toInt_eq_toNat_bmod, Int.bmod_bmod_of_dvd (by decide), BitVec.toNat_ofNat, Nat.mod_mod,
    Int.natCast_emod]
  exact Int.emod_bmod _ _

/-- Settles O33: the two words of each operand are one bit vector of 64 bits, and a separation below 2^31 turns does not wrap. -/
theorem angleDifference : Obligations.AngleDifference := by
  unfold Obligations.AngleDifference
  refine ⟨?angsub, ?angcmp, ?turns⟩
  case angsub =>
    intro i k al alp ah ahp bl blp bh bhp s hwf hcalm hsolo hk hal _ hah _ hbl hblt hbh hbht
    have h : Sole (.angsub i) i (.ang true) s k := ⟨rfl, hwf, hcalm, hsolo, hk, rfl⟩
    exact h.angsub hal hah hbl hbh (cat32_lt bl bh hblt hbht)
  case angcmp =>
    intro i n k al alp ah ahp bl blp bh bhp s hwf hcalm hsolo hk hal _ hah _ hbl hblt hbh hbht hclean
    have h : Sole (.angcmp i n) i (.angcmp n) s k := ⟨rfl, hwf, hcalm, hsolo, hk, rfl⟩
    simp only [Bool.or_eq_false_iff] at hclean
    obtain ⟨⟨⟨rfl, rfl⟩, rfl⟩, rfl⟩ := hclean
    exact h.angcmp hal hah hbl hbh (cat32_lt bl bh hblt hbht)
  case turns =>
    intro x y hl hu
    have hd := toInt_difference x y hl hu
    refine ⟨hd, ?_, ?_⟩
    · rw [hd]; omega
    · rw [toInt_low, hd]

end Sys2Proof.Machine
end

section
namespace Sys2Proof.Machine

/-! Quiet comparison (spec/12 R369): an order on keys, with no pair of a NaN in it. -/

/-- A relation that no pair with a NaN is in. -/
theorem not_nan_and_decide (nan : Bool) (p : Prop) [Decidable p] : (!nan && decide p) = decide (¬nan = true ∧ p) := by
  cases nan <;> simp

theorem fcmpVal_feq (ftz : Bool) (a b : Nat) : fcmpVal ftz 0 a b =
    (decide (¬(fIsNaN a || fIsNaN b) = true ∧ fKey (fFlushIn ftz a) = fKey (fFlushIn ftz b)), { nv := fIsSNaN a || fIsSNaN b }) := by
  rw [← not_nan_and_decide]; rfl

theorem fcmpVal_flt (ftz : Bool) (a b : Nat) : fcmpVal ftz 1 a b =
    (decide (¬(fIsNaN a || fIsNaN b) = true ∧ fKey (fFlushIn ftz a) < fKey (fFlushIn ftz b)), { nv := fIsSNaN a || fIsSNaN b }) := by
  rw [← not_nan_and_decide]; rfl

/-- Less or equal is less, or equal. -/
theorem fcmpVal_fle (ftz : Bool) (a b : Nat) : fcmpVal ftz 2 a b =
    (decide (¬(fIsNaN a || fIsNaN b) = true ∧ fKey (fFlushIn ftz a) ≤ fKey (fFlushIn ftz b)), { nv := fIsSNaN a || fIsSNaN b }) := by
  rw [← not_nan_and_decide, decide_eq_decide.2 Int.le_iff_lt_or_eq, Bool.decide_or]; rfl

theorem fcmpVal_fun (ftz : Bool) (a b : Nat) : fcmpVal ftz 3 a b = (fIsNaN a || fIsNaN b, { nv := fIsSNaN a || fIsSNaN b }) := rfl

section
variable {c : Instr} {i : Issue} {o : KOp} {s : State} {k : KCopy}

/-- A clean entry under `n` dropped ones is taken off for use: no POISON. -/
theorem KX.Ready.popUse {x : KX} (h : x.Ready o k) (n : Nat) (hn : n < o.eff.need) {a : Nat} (ha : k.entry (k.top - (n + 1)) = (a, false)) :
    (x.dropped n).popUse = .ok (a, x.dropped (n + 1)) := by
  simp only [KX.popUse, bind, Except.bind, h.pop n hn ha, Bool.false_eq_true, if_false]

/-- FCMP takes two clean words off and leaves a predicate and sticky flags; it raises nothing. -/
theorem Sole.fcmp {r n : Nat} (h : Sole c i (.fcmp r n) s k) {a b : Nat} (ha : k.entry (k.top - 2) = (a, false))
    (hb : k.entry (k.top - 1) = (b, false)) {q : Bool} {f : FFlags} (hv : fcmpVal (bit k.status 2) r a b = (q, f)) :
    Completes c s fun u => Took i s u { (k.after (k.depth - 2) [] ((k.pc + 2 * (i.lits.length + 1)) % 2 ^ 40)).noting k f false with
      preds := if n = 0 then k.preds else setBit k.preds n q } :=
  h.wrote (k.depth - 2) [] (k.status ||| f.bits) (if n = 0 then k.preds else setBit k.preds n q) [] (.inl rfl) fun x hx => by
    have h1 : x.popUse = .ok (b, x.dropped 1) := hx.popUse 0 Nat.two_pos hb
    have h2 := hx.popUse 1 Nat.one_lt_two ha
    have hf : (x.dropped 2).ftz = bit k.status 2 := hx.ftz
    refine ⟨{ (x.dropped 2).flags f with k := ((x.dropped 2).flags f).k.setPred n q }, ?_, rfl, ?_⟩
    · simp only [KX.op, bind, Except.bind, h1, h2, hf, hv]
    · rw [KCopy.setPred_eq, ← hx.depth, ← hx.status, ← hx.preds, ← hx.arith]
      rfl

end

/-- Settles O34: each comparison's value and flags are those of `fcmpVal`, set by a bundle that raises nothing. -/
theorem quietCompare : Obligations.QuietCompare := by
  unfold Obligations.QuietCompare
  refine ⟨?feq, ?flt, ?fle, ?unordered⟩
  case feq =>
    rintro i n k a _ b _ s hwf hcalm hsolo hk ha - hb - rfl rfl
    have h : Sole (.fcmp i 0 n) i (.fcmp 0 n) s k := ⟨rfl, hwf, hcalm, hsolo, hk, rfl⟩
    exact h.fcmp ha hb (fcmpVal_feq _ a b)
  case flt =>
    rintro i n k a _ b _ s hwf hcalm hsolo hk ha - hb - rfl rfl
    have h : Sole (.fcmp i 1 n) i (.fcmp 1 n) s k := ⟨rfl, hwf, hcalm, hsolo, hk, rfl⟩
    exact h.fcmp ha hb (fcmpVal_flt _ a b)
  case fle =>
    rintro i n k a _ b _ s hwf hcalm hsolo hk ha - hb - rfl rfl
    have h : Sole (.fcmp i 2 n) i (.fcmp 2 n) s k := ⟨rfl, hwf, hcalm, hsolo, hk, rfl⟩
    exact h.fcmp ha hb (fcmpVal_fle _ a b)
  case unordered =>
    rintro i n k a _ b _ s hwf hcalm hsolo hk ha - hb - rfl rfl
    have h : Sole (.fcmp i 3 n) i (.fcmp 3 n) s k := ⟨rfl, hwf, hcalm, hsolo, hk, rfl⟩
    exact h.fcmp ha hb (fcmpVal_fun _ a b)

end Sys2Proof.Machine
end

section
namespace Sys2Proof.Machine

/-! The poison that a write to SRAM leaves (spec/15 R434): each lane takes its own, from what stood in it before the write. -/

/-- Two states that agree outside the memory of the lane at `a0` (tags aside). -/
structure AgreeOff (a0 : Nat) (s u : State) : Prop where
  rest : u = { s with mem := u.mem, chk := u.chk, pois := u.pois, tags := u.tags }
  byte : ∀ b, b < a0 ∨ a0 + 8 ≤ b → u.byte b = s.byte b
  chk : ∀ b, b < a0 ∨ a0 + 8 ≤ b → u.chkDiff b = s.chkDiff b
  pois : ∀ x, x / 8 ≠ a0 / 8 → u.poisCopies x = s.poisCopies x

namespace AgreeOff
variable {a0 : Nat} {s u v : State}

theorem refl (a0 : Nat) (s : State) : AgreeOff a0 s s := ⟨rfl, fun _ _ => rfl, fun _ _ => rfl, fun _ _ => rfl⟩

theorem trans (h : AgreeOff a0 s u) (k : AgreeOff a0 u v) : AgreeOff a0 s v where
  rest := by rw [k.rest, h.rest]
  byte b hb := (k.byte b hb).trans (h.byte b hb)
  chk b hb := (k.chk b hb).trans (h.chk b hb)
  pois x hx := (k.pois x hx).trans (h.pois x hx)

theorem setByte (s : State) {a0 a : Nat} (b : Byte) (ha : a0 ≤ a ∧ a < a0 + 8) : AgreeOff a0 s (s.setByte a b) :=
  ⟨rfl, fun x _ => s.byte_setByte_other a x b (by omega), fun _ _ => rfl, fun _ _ => rfl⟩

theorem setChk (s : State) {a0 a : Nat} (d : Nat) (ha : a0 ≤ a ∧ a < a0 + 8) : AgreeOff a0 s (s.setChk a d) :=
  ⟨rfl, fun _ _ => rfl, fun x _ => s.chkDiff_setChk_other a x d (by omega), fun _ _ => rfl⟩

theorem setPois (s : State) (a0 c : Nat) : AgreeOff a0 s (s.setPois a0 c) :=
  ⟨rfl, fun _ _ => rfl, fun _ _ => rfl, fun x hx => s.poisCopies_setPois_other a0 x c hx⟩

theorem setTag (s : State) (a0 c : Nat) : AgreeOff a0 s (s.setTag a0 c) :=
  ⟨rfl, fun _ _ => rfl, fun _ _ => rfl, fun _ _ => rfl⟩

theorem bankState (h : AgreeOff a0 s u) (l : MemLoc) : u.bankState l = s.bankState l := by rw [h.rest]; rfl

theorem flipRegs (h : AgreeOff a0 s u) (page : Nat) : u.flipRegs page = s.flipRegs page := by rw [h.rest]; rfl

/-- The bytes of another lane decode as they did. -/
theorem laneBadOutside (h : AgreeOff a0 s u) {x : Nat} (hx : x + 8 ≤ a0 ∨ a0 + 8 ≤ x) (from_ to_ : Nat) :
    u.laneBadOutside x from_ to_ = s.laneBadOutside x from_ to_ := by
  unfold State.laneBadOutside
  rw [Bool.eq_iff_iff, List.any_eq_true, List.any_eq_true]
  refine exists_congr fun i => and_congr_right fun hi => ?_
  have hi : i < 8 := List.mem_range.1 hi
  simp only [h.byte (x + i) (by omega), h.chk (x + i) (by omega)]

end AgreeOff

/-- The poison of the word at `a0` after a write of the bytes `from_` to `to_ - 1` of a value whose own is `p` (spec/15 R434). -/
def State.mergedPoison (s : State) (a0 from_ to_ : Nat) (p : Bool) : Bool :=
  if from_ ≤ a0 ∧ a0 + 8 ≤ to_ then p else p || maj3 (s.poisCopies a0) || s.laneBadOutside a0 from_ to_

/-- A write to one lane leaves what another one merges to. -/
theorem AgreeOff.mergedPoison {s u : State} {x y : Nat} (h : AgreeOff (8 * x) s u) (hy : y ≠ x) (from_ to_ : Nat) (p : Bool) :
    u.mergedPoison (8 * y) from_ to_ p = s.mergedPoison (8 * y) from_ to_ p := by
  simp only [State.mergedPoison, h.pois (8 * y) (by omega), h.laneBadOutside (x := 8 * y) (by omega)]

/-- A partial write never clears a word's poison. -/
theorem State.mergedPoison_of_poisoned (s : State) {a0 from_ to_ : Nat} (p : Bool) (hpart : ¬(from_ ≤ a0 ∧ a0 + 8 ≤ to_))
    (h : maj3 (s.poisCopies a0) = true) : s.mergedPoison a0 from_ to_ p = true := by
  simp only [mergedPoison, if_neg hpart, h, Bool.or_true, Bool.true_or]

/-- What a lane holds after a write whose merged poison is `q`, before an armed flip meets it. -/
def State.storeLane (s : State) (a0 from_ to_ : Nat) (bs : Nat → Byte) (q : Bool) : State :=
  (((List.range 8).foldl (fun (s : State) i =>
    if from_ ≤ a0 + i ∧ a0 + i < to_ then (s.setByte (a0 + i) (bs (a0 + i))).setChk (a0 + i) 0 else s) s).setPois a0 (if q then 7 else 0)).setTag a0 0

theorem State.storeLane_agreeOff (s : State) (a0 from_ to_ : Nat) (bs : Nat → Byte) (q : Bool) : AgreeOff a0 s (s.storeLane a0 from_ to_ bs q) := by
  refine (AgreeOff.trans ?_ (.setPois _ a0 _)).trans (.setTag _ a0 0)
  refine List.foldlRecOn (motive := AgreeOff a0 s) _ _ (.refl a0 s) fun u hu i hi => ?_
  have hlane : a0 ≤ a0 + i ∧ a0 + i < a0 + 8 := ⟨Nat.le_add_right _ _, Nat.add_lt_add_left (List.mem_range.1 hi) _⟩
  split
  · exact (hu.trans (.setByte u _ hlane)).trans (.setChk _ _ hlane)
  · exact hu

theorem State.storeLane_poisCopies (s : State) (a0 from_ to_ : Nat) (bs : Nat → Byte) (q : Bool) :
    (s.storeLane a0 from_ to_ bs q).poisCopies a0 = if q then 7 else 0 := State.poisCopies_setPois _ _ _

theorem maj3_poisonCopies (q : Bool) : maj3 (if q then 7 else 0) = q := by cases q <;> rfl

/-- With no injection armed a flip changes nothing. -/
theorem State.sramFlip_unarmed (s : State) (l : MemLoc) (a0 from_ to_ : Nat) (h : bit (s.flipRegs l.page).1 31 = false) :
    s.sramFlip l a0 from_ to_ = s := by
  simp only [sramFlip, h, Bool.not_false, Bool.true_or, if_true]

/-- A lane of SRAM in a bank that is ON, with no injection armed on its page. -/
def State.OpenLane (s : State) (a : Nat) : Prop :=
  ∃ l, memLoc a = some l ∧ l.sub ≠ 2 ∧ s.bankState l = 2 ∧ bit (s.flipRegs l.page).1 31 = false

theorem AgreeOff.openLane {a0 : Nat} {s u : State} (h : AgreeOff a0 s u) {a : Nat} (ha : s.OpenLane a) : u.OpenLane a := by
  simpa only [State.OpenLane, h.bankState, h.flipRegs] using ha

theorem State.wrLane_unarmed (s : State) {l : MemLoc} (a0 from_ to_ : Nat) (bs : Nat → Byte) (p : Bool) (hl : l.sub ≠ 2)
    (hf : bit (s.flipRegs l.page).1 31 = false) : s.wrLane l a0 from_ to_ bs p = s.storeLane a0 from_ to_ bs (s.mergedPoison a0 from_ to_ p) := by
  have hsram : (l.sub != 2) = true := bne_iff_ne.2 hl
  have hstored := (s.storeLane_agreeOff a0 from_ to_ bs (s.mergedPoison a0 from_ to_ p)).flipRegs l.page
  simp only [wrLane, if_neg hl, hsram, Bool.true_and]
  exact State.sramFlip_unarmed _ l a0 from_ to_ (hstored ▸ hf)

/-- A write whose first lane is open stores that lane and goes on with the next. -/
theorem State.wrLanes_open (s : State) {a0 : Nat} (from_ to_ : Nat) (bs : Nat → Byte) (k : Nat) (p : Bool) (ps : List Bool) (h : s.OpenLane a0) :
    s.wrLanes from_ to_ bs (k + 1) a0 (p :: ps) = (s.storeLane a0 from_ to_ bs (s.mergedPoison a0 from_ to_ p)).wrLanes from_ to_ bs k (a0 + 8) ps := by
  obtain ⟨l, hloc, hsub, hon, hflip⟩ := h
  have hawait : s.awaitBank l = s := by simp [awaitBank, hon]
  simp only [wrLanes, hloc, hawait, hon, hsub, ne_eq, not_true_eq_false, if_false, List.headD_cons, List.tail_cons]
  rw [s.wrLane_unarmed a0 from_ to_ bs p hsub hflip]

/-- A write over open lanes leaves in each one what the write and the lane's old contents merge to, and leaves the poison of other words alone. -/
theorem State.wrLanes_poisCopies (from_ to_ : Nat) (bs : Nat → Byte) (p : Bool) (w k : Nat) : ∀ (s : State) (x : Nat),
    (∀ y, x ≤ y → y < x + k → s.OpenLane (8 * y)) →
    (s.wrLanes from_ to_ bs k (8 * x) (List.replicate k p)).poisCopies (8 * w) =
      if x ≤ w ∧ w < x + k then (if s.mergedPoison (8 * w) from_ to_ p then 7 else 0) else s.poisCopies (8 * w) := by
  induction k with
  | zero => intro s x _; rw [if_neg (by omega)]; rfl
  | succ k ih =>
    intro s x hopen
    have hagree := s.storeLane_agreeOff (8 * x) from_ to_ bs (s.mergedPoison (8 * x) from_ to_ p)
    rw [List.replicate_succ, s.wrLanes_open from_ to_ bs k p _ (hopen x (Nat.le_refl x) (by omega)), ← Nat.mul_succ,
      ih _ (x + 1) fun y h1 h2 => hagree.openLane (hopen y (by omega) (by omega))]
    by_cases hw : w = x
    · subst hw
      rw [if_neg (by omega), if_pos (by omega), storeLane_poisCopies]
    · have hrange : (x + 1 ≤ w ∧ w < x + 1 + k) ↔ (x ≤ w ∧ w < x + (k + 1)) := by omega
      simp only [hrange, hagree.mergedPoison hw, hagree.pois (8 * w) (by omega)]

/-- Settles O54: every word the write touches is an open lane of it, so it takes its merged poison, which a partial write never clears. -/
theorem sramPoison : Obligations.SramPoison := by
  unfold Obligations.SramPoison
  intro s a n v w p hn hlo hhi hbanks
  have hopen : ∀ y, a / 8 ≤ y → y < a / 8 + ((a + n + 7) / 8 - a / 8) → s.OpenLane (8 * y) := fun y h1 h2 => hbanks y h1 (by omega)
  have hword : maj3 ((s.wrMem a n v p).poisCopies (8 * w)) = s.mergedPoison (8 * w) a (a + n) p := by
    simp only [State.wrMem, State.wrMemP, Nat.mul_comm (a / 8) 8]
    rw [State.wrLanes_poisCopies _ _ _ p w _ s (a / 8) hopen, if_pos (by omega), maj3_poisonCopies]
  exact ⟨hword, fun hpart hold => hword.trans (s.mergedPoison_of_poisoned p hpart hold)⟩

end Sys2Proof.Machine
end
